-- ==== Sys2Proof/Word.lean ====
section
/-! DEFINITION. The machine's words and the one container its sparse contents are kept in. -/
namespace Sys2Proof

/-- A register or mailbox word (R13). -/
abbrev Word := BitVec 32
/-- A byte of a message, a flash image or package memory. -/
abbrev Byte := BitVec 8
/-- A BAR0 bus address: 64 MiB (R14 worked case, R88). -/
abbrev Addr := BitVec 26

/-- Sparse contents: keys strictly rising, no entry equal to what an unlisted key reads as. -/
abbrev Tbl (α : Type) := List (Nat × α)

end Sys2Proof
end

