-- ==== Sys2Proof/Syntax.lean ====
section
/-! DEFINITION. The commands the block takes: one constructor per row of spec/opcode_table.json, with the operands
that tell one occurrence of the command from another: the acting master, the addressed unit, the value written, and,
for an event of the outside world (light, far end, optical engine, officers, board), what it brought. -/
namespace Sys2Proof

/-- The five masters of the register fabric (R65). -/
inductive Master where
  | enclave | hamper | mgmt | pcie | spi
  deriving DecidableEq, Repr

/-- R67, R69: a lock is one of the 64 general locks or the LOCK of a page. -/
inductive LockId where
  | general (n : Fin 64)
  | page (p : Fin 256)
  deriving DecidableEq, Repr

/-- What a decoder tile found in one code word (R247): whether parity checks remain unsatisfied, whether an outer word is
uncorrectable, the bits corrected by the inner and the outer code, the iterations run; and for a word that the spare under
test decoded as well with another result, whether the active tile's and the spare's result satisfy every check (R251). -/
structure Decoded where
  unsatisfied : Bool
  outerBad : Bool
  inner : Nat
  outer : Nat
  iterations : Nat
  shadow : Option (Bool × Bool)
  deriving DecidableEq, Repr

/-- The figures of one subcarrier over a 1 ms interval as the receiver measured them (R196): EVM, GSNR, errored and
compared bits, residual CD beyond the bulk filter, DGD, SOP rate, residual frequency offset, failed blocks; and whether it was LOCKED for part and
for all of the interval (R198). -/
structure Quality where
  evm : Nat
  gsnr : Int
  err : Nat
  bits : Nat
  cd : Int
  dgd : Nat
  sopRate : Nat
  freq : Int
  failed : Nat
  part : Bool
  whole : Bool
  deriving DecidableEq, Repr

/-- What a port's receive side finds with a frame or block (R303, R314, R318, R327): RS-FEC code words since the one before that were
corrected and that could not be, corrected symbols by logical lane, the faults signalled, the GID of a FlexO frame, whether the FCS is right. -/
structure PortLine where
  corrected : Nat
  uncorrected : Nat
  symbols : List Nat
  localFault : Bool
  remoteFault : Bool
  gid : BitVec 20
  fcsOk : Bool
  deriving DecidableEq, Repr

/-- What a port finds when it aligns (R309, R317, R327): the position of each logical lane, the GID of a FlexO frame. -/
structure PortAlignment where
  order : List (Fin 8)
  gid : BitVec 20
  deriving DecidableEq, Repr

/-- R298: what a defect is declared on: an engine, a stream, a group, a member of a group, a container or a leaf. -/
inductive DefScope where
  | engine (le : Fin 2)
  | stream (le : Fin 2) (k : Fin 32)
  | group (g : Fin 64)
  | member (g : Fin 64) (m : Fin 16)
  | container (le : Fin 2) (c : Fin 64)
  | leaf (le : Fin 2) (i : Fin 512)
  deriving DecidableEq, Repr

/-- A calibration of a slice or sub-DAC (R501, R504, R506): its residuals (gain in 0.001 dB, offset in 2^-20 of full scale,
skew in fs) and the values measured, in the units of a trim entry (R502). -/
structure UnitCal where
  lane : Fin 4
  pos : Fin 68
  gain : Int
  offset : Int
  skew : Int
  newGain : Int
  newOffset : Int
  newSkew : Int
  deriving DecidableEq, Repr

/-- A periodic test of the repair manager (R509): the next classifier pipe, a cipher core (with the chunks in flight in it),
a FREE pool page (with the word of the page in which the march test found an error), the DPLL. -/
inductive Periodic where
  | pipe
  | core (c : Fin 8) (chunks : Nat)
  | page (error : Option (Fin 2048))
  | dpll
  deriving DecidableEq, Repr

/-- What the sampler has followed of a unit (R540): CBR block or packet, passes, cipher core of the first chunk, engine,
container, association, winning rules, flow, bank tag, misses, TAG_FAIL, the drop's counter (page, offset ÷ 4), length, FC, leaf,
ns in package memory. -/
structure Sampled where
  cbr : Bool
  passes : Fin 4
  core : Fin 16
  engine : Fin 2
  container : Fin 64
  sa : Fin 1024
  rule1 : BitVec 16
  rule2 : BitVec 16
  flow : BitVec 20
  bank : Bool
  miss1 : Bool
  miss2 : Bool
  tagFail : Bool
  drop : Option (Byte × Byte)
  length : BitVec 14
  fc : Word
  leaf : Fin 1024
  deskew : Word
  deriving DecidableEq, Repr

/-- The commands of the block: one constructor per row of spec/opcode_table.json. -/
inductive Instr where
  /-- REGISTER_WRITE (R15): A master writes a register field that has no row of its own, with the effect that its access code states. -/
  | registerWrite (m : Master) (addr : Addr) (value : Word) (narrow : Bool)
  /-- COMMIT_GO (R58): A write of COMMIT.go copies the domain's staged set into the commit buffer and checks it. -/
  | commitGo (m : Master) (p : Fin 256)
  /-- COMMIT_CHECK (R59): A write of COMMIT.check checks the staged set without applying it. -/
  | commitCheck (m : Master) (p : Fin 256)
  /-- COMMIT_DISCARD (R60): A write of COMMIT.discard resets the staged set to the set in force and cancels an armed COMMIT. -/
  | commitDiscard (m : Master) (p : Fin 256)
  /-- COMMIT_APPLY (R58): At the block's next safe boundary the accepted set replaces the set in force and commit_seq increments. -/
  | commitApply (p : Fin 256)
  /-- DEV_COMMIT_SYNC (R64): A write of DEV_COMMIT_SYNC.go fires every armed commit domain. -/
  | devCommitSync (m : Master)
  /-- SOFT_RESET (R53): A write of PAGE_CTRL.soft_reset resets the block logic of the commit domain and cancels a pending COMMIT. -/
  | softReset (m : Master) (p : Fin 256)
  /-- EVT_FORCE (R54): A write of EVT_FORCE sets the matching EVT_STICKY bits as if the events had occurred. -/
  | evtForce (m : Master) (p : Fin 256) (bits : Word)
  /-- PAGE_SNAP (R83): A write of PAGE_SNAP.go captures every snapshot register of the page in one cycle of its domain. -/
  | pageSnap (m : Master) (p : Fin 256)
  /-- SNAP_DONE (R83): The captured values are delivered, snap_seq increments and snap_done rises. -/
  | snapDone (p : Fin 256)
  /-- LOCK_ACQUIRE (R67): A read of a lock register acquires it if free, or returns busy and the owner code. -/
  | lockAcquire (m : Master) (l : LockId)
  /-- LOCK_RELEASE (R67): A write to a lock register by its owner with its own code frees the lock. -/
  | lockRelease (m : Master) (l : LockId) (value : Word)
  /-- MASTER_RESET (R69): A master reset (PCIe reset, FLR or link loss, SPI timeout, firmware restart, enclave or Hamper reset) releases every lock the master holds. -/
  | masterReset (m : Master) (stays : Bool)
  /-- MBX_TX (R73): The sender writes MBX_n_TX to append one word to the direction's queue. -/
  | mbxTx (m : Master) (n : Fin 12) (value : Word)
  /-- MBX_RX (R72): The receiver reads MBX_n_RX, which returns and removes the oldest word. -/
  | mbxRx (m : Master) (n : Fin 12)
  /-- MBX_TIMEOUT (R74): The oldest word has waited longer than timeout_us, and timeout is set once for it. -/
  | mbxTimeout (n : Fin 12)
  /-- MBX_HOST_RESET (R75): A write of MBX_HOST_RESET.go resets the HOST mailbox endpoint. -/
  | mbxHostReset (m : Master)
  /-- PULSE_SAT (R81): A crossing's pending pulse count saturates, and pulse_sat and XS_PULSE_SAT are set. -/
  | pulseSat (dom : Fin 64) (p : Fin 256) (counter : Option (Fin 512))
  /-- FIFO_RESYNC (R82): After a reset a clock-crossing FIFO resynchronises its pointers, dropping and counting words in flight. -/
  | fifoResync (a b : Fin 64) (pa pb : Fin 256) (dropped : Nat)
  /-- VEC_EOI (R87): Host software writes DEV_VEC_EOI, and the vector resends if its summary is still 1. -/
  | vecEoi (m : Master) (v : Fin 64)
  /-- MSIX_PENDING_SEND (R87): A pending vector sends its message once the link is up, MSI-X enabled and the vector unmasked. -/
  | msixPendingSend (v : Fin 64)
  /-- VAON_POWER_ON (R107): VAON powers on, and Hamper starts on its internal oscillator and begins self-calibration. -/
  | vaonPowerOn
  /-- VAON_LOSS (R106): VAON stays below 0.70 V for more than 5 µs, and the whole device including Hamper is reset. -/
  | vaonLoss
  /-- XTAL_LOCK (R107): Hamper detects crystal lock, moves to the locked clock and sets aon_xtal_lock. -/
  | xtalLock
  /-- PORST_ASSERT (R91): PORST_N goes low, and all domains except Hamper are held in reset. -/
  | porstAssert
  /-- PORST_RELEASE (R108): PORST_N is released, and the device runs the cold start through WAKE. -/
  | porstRelease
  /-- BCR_WAIT_US (R119): The wait of a BCR WAIT_US entry ends, and application continues. -/
  | bcrWaitUs
  /-- AVS_FAIL (R549): The regulator has not confirmed the set point within 10 ms, and avs_fail is set. -/
  | avsFail
  /-- DEV_RESET (R102): A write of DEV_RESET.go with key 0xA5C3 resets the device into WAKE. -/
  | devReset (m : Master) (key : BitVec 16)
  /-- ENCLAVE_WATCHDOG_EXPIRY (R103): The enclave watchdog runs 1 s without a restart, and Hamper makes a device reset. -/
  | enclaveWatchdogExpiry
  /-- WAKE_N_WAKE (R124): WAKE_N is held low for 205 clk_aon cycles, and the device wakes from DORMANT. -/
  | wakeNWake
  /-- SPI_ACCESS_WAKE (R124): An SPI access outside the Hamper front end wakes the device when spi_any is set. -/
  | spiAccessWake
  /-- MODE_REQ_DORMANT (R121): A DEV_MODE request for DORMANT erases keys, powers down memory and gates the domains. -/
  | modeReqDormant (m : Master) (maint : BitVec 2)
  /-- MODE_REQ_SAFE (R91): A DEV_MODE request for SAFE makes a device reset into WAKE that skips the BCR. -/
  | modeReqSafe (m : Master) (maint : BitVec 2)
  /-- MODE_REQ_STANDBY (R96): A DEV_MODE request for STANDBY takes the engines to OFF, idles the host lanes and puts memory in self-refresh. -/
  | modeReqStandby (m : Master) (maint : BitVec 2)
  /-- MODE_REQ_SERVICE (R114): A DEV_MODE request for SERVICE runs the warm start or returns from MAINTENANCE. -/
  | modeReqService (m : Master) (maint : BitVec 2)
  /-- MODE_REQ_MAINTENANCE (R94): A DEV_MODE request for MAINTENANCE takes the targeted engines to OFF. -/
  | modeReqMaintenance (m : Master) (maint : BitVec 2)
  /-- MODE_REQ_NOT_ALLOWED (R98): A DEV_MODE request for WAKE, DEGRADED, ZEROISED or a reserved code completes refused. -/
  | modeReqNotAllowed (m : Master) (code : BitVec 4) (maint : BitVec 2)
  /-- STANDBY_ENTRY_DONE (R96): Both engines have reached STOPPED, and the STANDBY transition completes. -/
  | standbyEntryDone
  /-- MAINT_ENTRY_DONE (R94): Every targeted engine has reached STOPPED, and the MAINTENANCE request completes. -/
  | maintEntryDone
  /-- ENGINE_START_STEP (R112): An engine start step completes, and the next step starts or the engine becomes RUNNING. -/
  | engineStartStep (le : Fin 2) (ok : Bool) (cals : List UnitCal) (bad : List (Fin 26))
  /-- ENGINE_STOP_COMPLETE (R35): The last in-flight frame is done and the DAC outputs are at zero, so the engine becomes STOPPED. -/
  | engineStopComplete (le : Fin 2)
  /-- RELOAD_DONE (R157): The first frame of the new plan leaves, the output goes live and RELOAD_DONE rises. -/
  | reloadDone (le : Fin 2) (fail : Option Bool)
  /-- TIMED_CHANGE_APPLY (R156): The transmit frame count reaches LEn_TX_PLAN_AT, and the new entropy applies. -/
  | timedChangeApply (le : Fin 2)
  /-- MASK_MEASUREMENT (R144): A 1 ms spectral-mask measurement completes and violations are evaluated. -/
  | maskMeasurement (le : Fin 2) (psd : List (Fin 256 × Int))
  /-- MASK_UNMUTE (R147): Host software writes 1 to a LEn_TX_MASK_MUTED bit, and the subcarrier is unmuted at the next frame boundary. -/
  | maskUnmute (m : Master) (le : Fin 2) (bits : Word)
  /-- LOS_RAW_SET (R173): The input stays below los_level for 10 µs or the optical engine reports loss of light, so los_raw is set. -/
  | losRawSet (le : Fin 2) (optical : Bool)
  /-- SIGNAL_DETECTED (R170): los_raw stays 0 for 100 µs, and the engine receive state leaves SIGNAL_WAIT. -/
  | signalDetected (le : Fin 2)
  /-- CD_SCAN_END (R187): A CD scan ends, loading the CD filter on a peak or restarting without one. -/
  | cdScanEnd (le : Fin 2) (peak : Option Int)
  /-- FREQ_OFFSET_FOUND (R191): The common frequency offset is found, and every enabled subcarrier starts in SEARCH. -/
  | freqOffsetFound (le : Fin 2) (kHz : Int)
  /-- FREQ_ACQ_TIMEOUT (R170): FREQ_ACQ runs 20 ms without an offset, and FREQ_LIMIT rises. -/
  | freqAcqTimeout (le : Fin 2)
  /-- SC_ACQ_TIMEOUT (R170): SC_ACQ runs 50 ms with no subcarrier LOCKED, and acquisition restarts. -/
  | scAcqTimeout (le : Fin 2)
  /-- ENGINE_LOCK_LOSS (R170): No subcarrier has been LOCKED for 5 ms, and the engine returns to FREQ_ACQ. -/
  | engineLockLoss (le : Fin 2)
  /-- FREQ_LIMIT_EXCEEDED (R170): The tracked common offset leaves ±3.6 GHz, and the engine returns to FREQ_ACQ. -/
  | freqLimitExceeded (le : Fin 2)
  /-- SC_CONVERGED (R171): The equaliser modulus error stays below its limit for 20 µs, and the subcarrier enters PILOT_SYNC. -/
  | scConverged (le : Fin 2) (k : Fin 32)
  /-- SC_CONVERGE_TIMEOUT (R171): A subcarrier runs 2 ms without convergence, and its taps reset to the centre spike. -/
  | scConvergeTimeout (le : Fin 2) (k : Fin 32)
  /-- PILOT_SYNC_FOUND (R190): Pilot sequences of both polarisations are found, and the subcarrier becomes LOCKED. -/
  | pilotSyncFound (le : Fin 2) (k : Fin 32) (conjugate : Bool)
  /-- PILOT_SYNC_TIMEOUT (R171): PILOT_SYNC runs 2 ms without a match, and the subcarrier returns to CONVERGE. -/
  | pilotSyncTimeout (le : Fin 2) (k : Fin 32)
  /-- SC_LOCK_LOST (R171): More than 1 pilot in 8 is in error over 100 µs, and the subcarrier leaves LOCKED. -/
  | scLockLost (le : Fin 2) (k : Fin 32)
  /-- SINGULAR (R190): Both equaliser outputs converge on one polarisation for 10 µs, and the Y filters are reset. -/
  | singular (le : Fin 2) (k : Fin 32)
  /-- CYCLE_SLIP (R192): The blind phase estimate jumps by a quarter turn, and the slip is removed at the next pilot and counted. -/
  | cycleSlip (le : Fin 2) (k : Fin 32)
  /-- CD_TRACK_STEP (R187): At a receive swap boundary the mean residual CD exceeds 500 ps/nm, and it moves into the bulk filter. -/
  | cdTrackStep (le : Fin 2) (residual : Int)
  /-- ENTROPY_ANN (R273): An ENTROPY_ANN envelope is received and the receiver loads the announced entropy and switch frame. -/
  | entropyAnn (le : Fin 2) (body : List Byte)
  /-- FOLLOW_APPLY (R168): The receive frame count reaches LEn_RX_FOLLOW_AT, and the demapper switches to the announced entropy. -/
  | followApply (le : Fin 2)
  /-- FOLLOW_ALTERNATE (R169): Every 2 ms after a lost follow, the demapper alternates between the two entropies. -/
  | followAlternate (le : Fin 2)
  /-- FOLLOW_GIVE_UP (R169): The framer is not in frame within 1 s, and alternation stops on the entropy in force. -/
  | followGiveUp (le : Fin 2)
  /-- REFL_CANDIDATE (R182): The reflection search finds a correlation peak above threshold, and the lowest EMPTY slot becomes CANDIDATE. -/
  | reflCandidate (le : Fin 2) (peak : Nat) (level : Int)
  /-- REFL_CANDIDATE_END (R182): After 1 ms of adaptation a candidate becomes ACTIVE with REFL_NEW, or returns to EMPTY. -/
  | reflCandidateEnd (le : Fin 2) (r : Fin 8) (level : Int) (suppression : Int)
  /-- REFL_LOST (R182): An ACTIVE reflection stays below its release level for 100 ms and its slot empties. -/
  | reflLost (le : Fin 2) (r : Fin 8)
  /-- REFL_DELAY_MOVE (R182): The tap energy centroid moves more than 8 taps, and d_r moves at the next receive swap boundary. -/
  | reflDelayMove (le : Fin 2) (r : Fin 8) (offset : Int)
  /-- QUAL_INTERVAL (R195): A 1 ms quality interval ends and every subcarrier record is published together. -/
  | qualInterval (le : Fin 2) (q : List (Fin 32 × Quality))
  /-- MAP_BUILD (R217): At the start of a period the hub builds the map of a later period from the grant table in force. -/
  | mapBuild (le : Fin 2)
  /-- MAP_SEGMENT (R216): A leaf receives a map segment, keeps its grants if the CRC passes and updates its hub-time estimate. -/
  | mapSegment (le : Fin 2) (k : Fin 32) (latch : BitVec 64) (seg : List Byte)
  /-- ASSIGN (R220): A leaf receives ASSIGN with its own tag and takes its id, home subcarrier and RO. -/
  | assign (le : Fin 2) (id : Fin 512) (tag : BitVec 24) (home : Fin 32) (ro : BitVec 20)
  /-- RANGE_ADJ (R220): A leaf receives RANGE_ADJ and changes its RO, becoming RANGED when done is set. -/
  | rangeAdj (le : Fin 2) (id : Fin 512) (done : Bool) (change seq : BitVec 16) (tag : List Byte)
  /-- POWER_ADJ (R232): A leaf receives POWER_ADJ and changes its burst gain within its clamps. -/
  | powerAdj (le : Fin 2) (id : Fin 512) (change seq : BitVec 16) (tag : List Byte)
  /-- QUIESCE (R220): A leaf receives QUIESCE, goes DARK and ignores grants. -/
  | quiesce (le : Fin 2) (id : Fin 512) (seq : BitVec 16) (tag : List Byte)
  /-- RELEASE (R220): A quiesced leaf receives RELEASE and returns to ASSIGNED for re-ranging. -/
  | release (le : Fin 2) (id : Fin 512) (seq : BitVec 16) (tag : List Byte)
  /-- DEREGISTER (R220): A leaf receives DEREGISTER, clears its id and returns to DISCOVER. -/
  | deregister (le : Fin 2) (id : Fin 512) (seq : BitVec 16) (tag : List Byte)
  /-- LMSG_GO (R237): Host software writes LEn_P2MP_LMSG_GO to queue a leaf message from the hub. -/
  | lmsgGo (m : Master) (le : Fin 2)
  /-- LEAF_MSG_REPEAT (R223): A hub repetition timer sends ASSIGN, QUIESCE or DEREGISTER again for a leaf-table entry. -/
  | leafMsgRepeat (le : Fin 2) (i : Fin 512)
  /-- BURST_TRANSMIT (R207): The leaf's hub-time estimate reaches S − RO, and it sends the burst of a usable DATA or RANGING grant. -/
  | burstTransmit (le : Fin 2) (g : BitVec 64)
  /-- DISCOVERY_BURST (R222): In the chosen DISCOVERY window the leaf sends a bare discovery burst after its random delay. -/
  | discoveryBurst (le : Fin 2) (g : BitVec 64)
  /-- DISCOVERY_WAIT_EXPIRY (R220): 64 periods pass without ASSIGN after a discovery burst, and the leaf draws a new backoff. -/
  | discoveryWaitExpiry (le : Fin 2)
  /-- SELF_GUARD_TRIP (R225): The leaf's DAC output is non-zero outside its grants, so it forces DARK and disables its transmitter. -/
  | selfGuardTrip (le : Fin 2)
  /-- SEGMENT_LOSS_DARK (R225): A leaf with no valid segment for 1 ms forces its output DARK. -/
  | segmentLossDark (le : Fin 2)
  /-- MAP_LOST (R220): The leaf's home subcarrier is lost or 8 periods pass without a valid segment, and it returns to LISTEN. -/
  | mapLost (le : Fin 2)
  /-- LEAF_ID_EXPIRE (R220): A held leaf id and RO are dropped after 1 s in LISTEN. -/
  | leafIdExpire (le : Fin 2)
  /-- LEAF_CLR (R220): A write of LEn_P2MP_LEAF_CLR.go takes a quiesced leaf back to ASSIGNED. -/
  | leafClr (m : Master) (le : Fin 2)
  /-- PREAMBLE_DETECT (R226): Lookout finds a valid preamble on a band and starts or contests a reception. `bands`: width class
  and band of the detectors of nested bands that fired within 8 full-width symbol times of one another and found a preamble B peak within
  200 symbols; `found`: of each, its autocorrelation in 1/256 and its normalised peak. -/
  | preambleDetect (le : Fin 2) (sc : Fin 32) (bands : List (Fin 3 × Fin 4)) (found : List (BitVec 9 × BitVec 16)) (rho : BitVec 8) (arrival : BitVec 64)
  /-- BURST_HEADER_DECODE (R227): At symbol 336 the burst header is decoded and validated or fails. -/
  | burstHeaderDecode (le : Fin 2) (sc : Fin 32) (w : Fin 3) (band : Fin 4) (hdr : BitVec 64)
  /-- ROGUE_DECAY (R230): Every decay periods a leaf's rogue score falls by 1, clearing ROGUE at 0. -/
  | rogueDecay (le : Fin 2) (i : Fin 512)
  /-- BURST_RX_DONE (R227): The code words and tail of a confirmed burst are received and its burst record is made. -/
  | burstRxDone (le : Fin 2) (sc : Fin 32) (w : Fin 3) (band : Fin 4) (evm : BitVec 16) (power : Int) (failed : Nat) (cd : Int)
  /-- BURST_LOSS_DETECT (R223): An ACTIVE leaf sends no CONFIRMED burst in 4 consecutive grants and becomes LOST. -/
  | burstLossDetect (le : Fin 2) (i : Fin 512)
  /-- IDLE_MEASURE (R231): The hub measures the power of an IDLE_MEASURE window and raises IDLE_POWER after 8 excesses. -/
  | idleMeasure (le : Fin 2) (sc : Fin 32) (w : Fin 3) (band : Fin 4) (power : Int)
  /-- BREC_POP (R237): A write of BREC_CTRL.pop moves the oldest burst record into the BREC registers. -/
  | brecPop (m : Master) (le : Fin 2)
  /-- FEC_BLOCK_DECODE (R247): A decoder tile finishes one code word, which is delivered in sequence, corrected or marked failed. -/
  | fecBlockDecode (le : Fin 2) (k : Fin 32) (burst : Bool) (d : Decoded)
  /-- CW_CANDIDATE_FOUND (R249): The code-word hunt finds an offset with few unsatisfied checks and enters PRESYNC. -/
  | cwCandidateFound (le : Fin 2) (k : Fin 32)
  /-- TILE_SWAP (R252): At the next code-word boundary a spare tile replaces a failed one and in-flight words are decoded again. -/
  | tileSwap (le : Fin 2) (inFlight : Fin 3)
  /-- FEC_ENCODE (R254): The encoder produces a code word and checks it against the parity-check matrix. -/
  | fecEncode (le : Fin 2) (info : List Word) (faults : List Nat)
  /-- GLF_FRAME_TX (R265): The framer transmits one GLF frame with header, payload, JC words, tags and overhead channel. -/
  | glfFrameTx (le : Fin 2)
  /-- GLF_HEADER_RX (R270): A received header is judged at its position and drives the frame and multiframe states. -/
  | glfHeaderRx (le : Fin 2) (k : Fin 32) (pos : Nat) (hdr partB : List Byte) (jc : List (Fin 32 × Word))
  /-- SLOT_MAP (R277): A SLOT_MAP envelope is received and compared with the local receive map digest. -/
  | slotMap (le : Fin 2) (k : Fin 32) (body : List Byte)
  /-- CELL_RX (R282): A cell header arrives in a receive container and drives cell delineation. -/
  | cellRx (le : Fin 2) (c : Fin 64) (hdr : BitVec 64) (failed : Bool)
  /-- DESKEW_RELEASE (R291): A group frame is released when all active members have arrived or the earliest has waited dd_max. -/
  | deskewRelease (g : Fin 64) (fc : BitVec 32) (late bad : List (Fin 16)) (dd : BitVec 20) (last : Fin 16)
  /-- DEFECT_DECLARE (R298): A raw condition holds for its set time and the defect is declared with its consequent action. -/
  | defectDeclare (d : Fin 12) (x : DefScope) (noFrame : Bool)
  /-- DEFECT_CLEAR (R298): A raw condition is absent for its clear time and the defect clears. -/
  | defectClear (d : Fin 12) (x : DefScope)
  /-- MSP_STATUS (R297): A STATUS member-state message is received; three differing ones resynchronise the sink. -/
  | mspStatus (body : List Byte)
  /-- PROPOSE (R296): The sink receives PROPOSE and answers ACCEPT or REJECT. -/
  | propose (body : List Byte) (fits : Bool)
  /-- ACCEPT (R295): The source receives ACCEPT and arms the switch FC with ARM. -/
  | accept (body : List Byte)
  /-- REJECT (R295): The source receives REJECT and returns to STABLE with MSP_REJECT. -/
  | reject (body : List Byte)
  /-- ARM (R296): The sink receives ARM and stores switch_fc. -/
  | arm (body : List Byte)
  /-- REQ_REMOVE (R295): The source receives REQ_REMOVE and, with auto_remove, proposes the set without that member. -/
  | reqRemove (body : List Byte)
  /-- MSP_MSG_REPEAT (R294): A member-state message is repeated every 8 frames, or STATUS every 64 frames. -/
  | mspMsgRepeat (g : Fin 64) (sink : Bool)
  /-- MSP_PROPOSE_TIMEOUT (R295): PROPOSING lasts 100 ms without reply and the source returns to STABLE with MSP_TIMEOUT. -/
  | mspProposeTimeout (g : Fin 64)
  /-- MSP_READY_TIMEOUT (R296): READY lasts 100 ms without ARM and the sink returns to STABLE. -/
  | mspReadyTimeout (g : Fin 64)
  /-- MSP_SWITCH (R295): The source's transmit FC reaches switch_fc and active_set takes next_set. -/
  | mspSwitch (g : Fin 64)
  /-- LANE_SIGNAL_DETECT (R305): A lane's receive signal stays above the detect level for 100 µs and it enters CDR. -/
  | laneSignalDetect (k : Fin 32)
  /-- CDR_CONVERGED (R305): A lane recovers its clock and converges, entering TRAIN or READY. -/
  | cdrConverged (k : Fin 32) (inverted : Bool) (snr : Byte)
  /-- CDR_TIMEOUT (R305): A lane runs 20 ms in CDR without convergence and returns to DETECT. -/
  | cdrTimeout (k : Fin 32)
  /-- TRAINING_COMPLETE (R307): Link training completes at both ends and the lane becomes READY. -/
  | trainingComplete (k : Fin 32) (taps : Word)
  /-- TRAIN_FAIL (R305): train_timeout expires and the lane returns to DETECT. -/
  | trainFail (k : Fin 32)
  /-- LANE_FAULT (R306): A lane loses signal, clock or too many RS-FEC symbols and returns to DETECT. -/
  | laneFault (k : Fin 32) (lost : Nat)
  /-- CAPABILITY_FRAME (R320): A capability frame arrives on a lane in EXCHANGE: its 128 bits as they came, inverted or not; `tail`: the
  reserved 16 bits and the CRC. -/
  | capabilityFrame (k : Fin 32) (marker : Word) (version lane flags lanes : Byte) (tag : BitVec 24) (port : Byte) (tail : Word)
  /-- EXCHANGE_WINDOW_EXPIRY (R317): The exchange window ends without agreement, moving to ALIGN or opening a new window. -/
  | exchangeWindowExpiry (p : Fin 32)
  /-- PORT_ALIGNED (R317): Lane alignment and deskew are achieved and the port becomes UP. -/
  | portAligned (p : Fin 32) (found : PortAlignment)
  /-- ALIGNMENT_LOST (R317): Alignment is lost on every lane without a lane fault and the port returns to ALIGN. -/
  | alignmentLost (p : Fin 32)
  /-- SPARE_REQ (R322): A SPARE_REQ pair is received and the far end answers and switches its spare transmitter. -/
  | spareReq (p : Fin 32) (lane : Fin 8) (seq : Byte)
  /-- SPARE_ACK (R322): A SPARE_ACK pair is received and the request repetition stops. -/
  | spareAck (p : Fin 32) (lane : Fin 8) (seq : Byte)
  /-- SPARE_REQ_REPEAT (R321): SPARE_REQ is repeated every 1 µs until SPARE_ACK arrives. -/
  | spareReqRepeat (p : Fin 32)
  /-- SPARE_SWITCH (R322): The spare's data stops matching lane 0 and the receiver takes it as the faulted lane. -/
  | spareSwitch (p : Fin 32) (lost : Nat)
  /-- SLEEP (R324): A SLEEP ordered-set pair is received and the receiver sets rx_asleep. -/
  | sleep (p : Fin 32)
  /-- WAKE (R324): A WAKE ordered-set pair is received and the receiver clears rx_asleep. -/
  | wake (p : Fin 32)
  /-- SLEEP_ENTRY (R324): Egress sends only idle for sleep_delay, so the transmitter sends SLEEP and enters fast-wake idle. -/
  | sleepEntry (p : Fin 32)
  /-- INGRESS_FRAME (R325): A port receives a frame, checks length and FCS, and passes it to the classifier or mapper. -/
  | ingressFrame (p : Fin 32) (len : Nat) (overload : Bool) (line : PortLine)
  /-- EGRESS_FRAME (R325): A frame or stream block reaches port egress and is sent, waking a sleeping direction. -/
  | egressFrame (p : Fin 32) (len queued idleAdj : Nat) (slip : Bool)
  /-- ESMC_PDU_RX (R456): An ESMC PDU arrives and its SSM code sets the port's received QL. -/
  | esmcPduRx (p : Fin 32) (code : Option (BitVec 4))
  /-- ESMC_INFO_TX (R456): Every 1 s an ESMC information PDU is sent on each enabled port. -/
  | esmcInfoTx
  /-- ESMC_QL_TIMEOUT (R455): No ESMC PDU arrives for 5 s and the client slot's QL becomes QL-FAILED. -/
  | esmcQlTimeout (p : Fin 32)
  /-- FIRST_PASS (R330): A packet's first classifier pass extracts its key, looks it up and returns an action. -/
  | firstPass (p : Fin 32) (frame : List Byte) (fcsBad : Bool) (pipe : Fin 6) (ue : List Nat) (ce : Nat) (differs : Bool)
  /-- SECOND_PASS (R340): A recirculated packet starts its second pass in a free lookup slot. -/
  | secondPass (id : Nat) (pipe : Fin 6) (ue : List Nat) (ce : Nat) (differs : Bool)
  /-- RECIRC_TIMEOUT (R340): A second pass has not started within 20 µs and the packet is dropped. -/
  | recircTimeout (id : Nat)
  /-- PACKET_RELEASE (R347): A classified packet is released in flow order and checked against containers and associations. -/
  | packetRelease (id : Nat)
  /-- BANK_DRAIN_DONE (R344): No packet tagged with the DRAINING bank remains and it becomes STANDBY. -/
  | bankDrainDone
  /-- CLS_BANK_COPY (R344): A write of CLS_BANK_COPY.go copies the active bank into the standby bank. -/
  | clsBankCopy (m : Master)
  /-- COPY_DONE (R344): The bank copy completes and the target returns to STANDBY. -/
  | copyDone (ue : List (Fin 0x1000000))
  /-- CLS_WIN_WRITE (R345): A write to a classifier bank window is accepted in STANDBY or refused otherwise. -/
  | clsWinWrite (m : Master) (b : Fin 2) (off : BitVec 24) (value : Word)
  /-- PIPE_TEST_START (R351): The repair manager takes a classifier pipe into TESTING. -/
  | pipeTestStart (p : Fin 6)
  /-- PIPE_TEST_DONE (R351): A pipe's test vectors pass or fail and it returns to ACTIVE or becomes FAILED. -/
  | pipeTestDone (p : Fin 6) (ok : Bool)
  /-- BUF_MEM_READ (R363): The buffer manager reads and decodes an ECC word, correcting or reporting errors. -/
  | bufMemRead (n : Fin 528482304) (source : Fin 6) (ups : List (Fin 36 × Byte))
  /-- BUF_MEM_WRITE (R365): A whole-word write or read-modify-write is made to package memory. -/
  | bufMemWrite (n : Fin 528482304) (mask : Word) (data : BitVec 256) (source : Fin 6)
  /-- SCRUB_READ (R368): The scrubber reads the next word in address order and treats it by its syndrome. -/
  | scrubRead (ups : List (Fin 36 × Byte)) (late : Bool)
  /-- HARD_CLR (R371): A write of BUF_ECC_CTRL.hard_clr frees every HARD tracker entry. -/
  | hardClr (m : Master)
  /-- INJ_GO (R372): A write of BUF_INJ_CTRL.go injects errors into a test-region word. -/
  | injGo (m : Master)
  /-- INJ_DONE (R372): The injected write completes and INJ_DONE rises. -/
  | injDone
  /-- BUF_LOG_POP (R373): A write of BUF_LOG_CTRL.pop moves the oldest memory error record into BUF_LOG_0 to 3. -/
  | bufLogPop (m : Master)
  /-- RETIRE_GO (R374): A go with op RETIRE takes a spare entry and starts mirroring and copying a page. -/
  | retireGo (m : Master)
  /-- RESTORE_GO (R374): A go with op RESTORE starts the march test of a retired page. -/
  | restoreGo (m : Master)
  /-- MARCH_TEST_DONE (R374): The march test of a page being restored passes into COPY or fails. -/
  | marchTestDone (ok : Bool)
  /-- RETIRE_COPY_DONE (R374): All 2,048 words of the page are copied and the remap waits to switch. -/
  | retireCopyDone
  /-- RETIRE_SWITCH (R374): Between two accesses the remap switches and the retirement or restore ends. -/
  | retireSwitch
  /-- ROWREP_GO (R377): A write of BUF_ROWREP_GO.go starts the repair of a row. -/
  | rowrepGo (m : Master)
  /-- ROWREP_STEP (R377): A 1 ms row-repair programming step holds the bank for at most 1 µs. -/
  | rowrepStep
  /-- ROWREP_TEST_DONE (R377): The march test of the repaired row passes or fails and the repair ends. -/
  | rowrepTestDone (ok : Bool)
  /-- HOST_WIN_READ (R378): A read of the host window returns a word of a logical page or 0xFFFF_FFFF. -/
  | hostWinRead (m : Master) (off : Fin 65536)
  /-- HOST_WIN_WRITE (R378): A write of the host window makes a 32-bit read-modify-write. -/
  | hostWinWrite (m : Master) (off : Fin 65536) (value : Word)
  /-- DATA_TX_UNIT (R384): The cipher encrypts one container unit and produces its tag, or sends the void indication. -/
  | dataTxUnit (i : Fin 1024) (period : BitVec 32) (start : Fin 1000) (hdr : BitVec 64) (plain : List Byte) (mism : Option (Fin 8 × Bool))
  /-- DATA_RX_UNIT (R393): The cipher decrypts one received unit and checks its tag. -/
  | dataRxUnit (i : Fin 1024) (unit : BitVec 32) (start : Fin 1000) (hdr : BitVec 64) (text : List Byte) (tag : BitVec 128) (replaced : Bool) (mism : Option (Fin 8 × Bool))
  /-- KEY_LOAD (R388): The enclave unwraps a key blob into the current or next role of an association. -/
  | keyLoad (id : BitVec 16) (words : List Word)
  /-- KEY_ERASE (R388): The enclave erases the named key role at the association's next boundary. -/
  | keyErase (id : BitVec 16) (words : List Word)
  /-- KEY_ACTIVATE (R389): The enclave arms a switch from the current to the next key at a given unit. -/
  | keyActivate (id : BitVec 16) (words : List Word)
  /-- KX_START (R399): A write of CIP_KX_CTRL.go starts an in-band key exchange. -/
  | kxStart (m : Master) (tx rx : Fin 1024)
  /-- KX_CERT (R396): A KX_CERT fragment of the peer's certificate chain is received. -/
  | kxCert (le : Fin 2) (body : List Byte)
  /-- KX_INIT (R399): A KX_INIT is received and the device responds or resolves a crossed exchange. -/
  | kxInit (le : Fin 2) (body : List Byte)
  /-- KX_RESP (R399): A valid KX_RESP is received and the initiator installs next keys and sends KX_CONFIRM. -/
  | kxResp (le : Fin 2) (body : List Byte)
  /-- KX_CONFIRM (R399): A valid KX_CONFIRM is received and the responder installs next keys and sends KX_ACK and KX_SWITCH. -/
  | kxConfirm (le : Fin 2) (body : List Byte)
  /-- KX_ACK (R399): A KX_ACK verifies and the initiator sends KX_SWITCH. -/
  | kxAck (le : Fin 2) (body : List Byte)
  /-- KX_SWITCH (R400): A KX_SWITCH verifies and the receiver arms its DATA_RX switch at the named FC. -/
  | kxSwitch (le : Fin 2) (body : List Byte)
  /-- KX_ABORT (R399): A KX_ABORT is received and the exchange ends with PEER_ABORT. -/
  | kxAbort (le : Fin 2) (body : List Byte)
  /-- KX_REPEAT (R399): Every 1 ms the exchange message of the current state is repeated. -/
  | kxRepeat (j : Fin 16)
  /-- KX_TIMEOUT (R399): kx_timeout expires and the exchange record returns to IDLE with its result. -/
  | kxTimeout (j : Fin 16)
  /-- CORE_TEST_START (R405): A suspect or due cipher core leaves dispatch for a known-answer test. -/
  | coreTestStart (c : Fin 8) (chunks : Nat)
  /-- CORE_TEST_DONE (R405): A core's known-answer test passes or fails and it returns to ACTIVE or becomes FAILED. -/
  | coreTestDone (c : Fin 8) (ok : Bool)
  /-- NONCE_GET (R419): The enclave issues a fresh nonce and digest prefix on a free change handle. -/
  | nonceGet (fw : Bool) (id : BitVec 16) (words : List Word)
  /-- CHG_SUBMIT (R419): The enclave checks a cosigned change request and its signatures, and applies it when two officers have signed. -/
  | chgSubmit (fw : Bool) (id : BitVec 16) (words : List Word)
  /-- ATTEST (R417): The enclave writes a signed attestation report to the exchange buffer. -/
  | attest (fw : Bool) (id : BitVec 16) (words : List Word)
  /-- CHG_ABORT (R419): A change handle is freed and its nonce destroyed. -/
  | chgAbort (fw : Bool) (id : BitVec 16) (words : List Word)
  /-- KLK_PUB (R423): The enclave generates a fresh KLK agreement key pair and writes the public key. -/
  | klkPub (fw : Bool) (id : BitVec 16) (words : List Word)
  /-- CHG_EXPIRY (R419): 600 s pass since a handle's nonce was issued and the handle becomes FREE. -/
  | chgExpiry (h : Fin 4)
  /-- DEBUG_EXPIRE (R427): Device time reaches ENC_DBG_EXPIRE and the debug unlock ends. -/
  | debugExpire
  /-- OVERRIDE_END (R443): An override's hours run out; an OPEN link gets TX_DISABLE. -/
  | overrideEnd (le : Fin 2)
  /-- TAMPER_TRIP (R425): An enabled tamper sensor trips and the tamper response zeroises the device. -/
  | tamperTrip (c : Fin 6) (lights : BitVec 16)
  /-- HELLO (R439): The device sends HELLO and stores or compares the declaration block of the reply. -/
  | hello (le : Fin 2) (r : List Byte)
  /-- CERT_READ (R437): The device reads part of the optical engine's certificate chain. -/
  | certRead (le : Fin 2) (r : List Byte)
  /-- AUTH (R438): The device authenticates the optical engine and derives session keys on OK. -/
  | auth (le : Fin 2) (r : List Byte)
  /-- TX_DISABLE (R442): The device sends TX_DISABLE ahead of queued commands and the optical engine goes dark. -/
  | txDisable (le : Fin 2) (r : List Byte)
  /-- TX_ENABLE (R441): The device sends TX_ENABLE when every enable condition holds. -/
  | txEnable (le : Fin 2) (r : List Byte)
  /-- STATUS (R441): The device polls STATUS every 10 ms for tx_ready, faults and temperature. -/
  | status (le : Fin 2) (r : List Byte)
  /-- ALERT_READ (R444): The device reads and clears the optical engine's alert word. -/
  | alertRead (le : Fin 2) (r : List Byte)
  /-- LIFE_READ (R445): The device mirrors the life record and computes end-of-life figures. -/
  | lifeRead (le : Fin 2) (r : List Byte)
  /-- MEM_READ (R434): The device reads optical engine maker memory. -/
  | memRead (le : Fin 2) (addr : BitVec 16) (len : Byte) (r : List Byte)
  /-- MEM_WRITE (R434): The device writes optical engine maker memory. -/
  | memWrite (le : Fin 2) (addr : BitVec 16) (data r : List Byte)
  /-- UBH_RESEND (R433): 100 µs pass without a valid response and the command is resent, or the link is declared lost. -/
  | ubhResend (le : Fin 2) (r : List Byte)
  /-- UBH_ABSENT (R431): UBH_DI is low for 100 µs while UBH_CK runs, and the optical engine is declared absent. -/
  | ubhAbsent (le : Fin 2)
  /-- UBH_ALERT_FALL (R444): UBH_ALERT_N falls and ALERT_READ follows within 100 µs. -/
  | ubhAlertFall (le : Fin 2)
  /-- UBH_HOLD (R439): A write of UBH_CTRL.hold changes the link to HOLD with BREAK, or back to DOWN. -/
  | ubhHold (m : Master) (le : Fin 2) (hold allow : Bool)
  /-- UBH_PT_GO (R447): A write of UBH_PT_CMD.go sends a passthrough MEM_READ or MEM_WRITE. -/
  | ubhPtGo (m : Master) (le : Fin 2) (write : Bool) (len : Byte) (addr : BitVec 16)
  /-- INPUT_FAULT (R452): A synchronisation input develops a fault and becomes FAILED. -/
  | inputFault (k : Fin 15)
  /-- INPUT_FAULT_CLEAR (R453): A failed input's fault disappears and its wait-to-restore starts. -/
  | inputFaultClear (k : Fin 15)
  /-- INPUT_QUALIFIED (R453): An input's qualify or wait-to-restore time ends without fault and it becomes VALID. -/
  | inputQualified (k : Fin 15)
  /-- SELECTION_EVAL (R459): Every 1 ms the reference selection is evaluated and switches or holdover are started. -/
  | selectionEval (freq : BitVec 32) (offs : List (Fin 15 × BitVec 16))
  /-- DPLL_LOCKED (R461): Phase and frequency errors stay small for 2 s and the DPLL becomes LOCKED. -/
  | dpllLocked
  /-- HOLDOVER_OOS (R461): Holdover lasts oos_time and the output QL falls to oos_ql. -/
  | holdoverOos
  /-- DPLL_TEST_START (R461): The DPLL self-test starts under the holdover estimate. -/
  | dpllTestStart
  /-- DPLL_TEST_END (R461): The DPLL self-test ends and the DPLL returns to its previous state. -/
  | dpllTestEnd (ok : Bool)
  /-- SWITCH_COMPLETE (R463): A reference switch has applied its phase and the frequency settles, so switching clears. -/
  | switchComplete
  /-- REF_DISAGREE (R460): Two inputs of equal rank differ by more than disagree_ppm for disagree_time. -/
  | refDisagree (k : Fin 15) (diff : BitVec 16)
  /-- SET_AT_PPS (R464): Device time is loaded with SYN_TIME_SET at the next PPS_OUT instant, if forward. -/
  | setAtPps (m : Master) (rate : BitVec 10)
  /-- ADJUST (R464): Device time is slewed by SYN_TIME_ADJ at adj_rate. -/
  | adjust (m : Master) (rate : BitVec 10)
  /-- ADJUST_COMPLETE (R464): The ADJUST offset is used up and busy clears. -/
  | adjustComplete
  /-- PPS_IN_EDGE (R465): A PPS_IN rising edge is stamped and may start an alignment step or ADJUST. -/
  | ppsInEdge (t : BitVec 64)
  /-- PPS_IN_LOSS (R465): No PPS_IN edge arrives for 1.1 s. -/
  | ppsInLoss
  /-- PPS_OUT (R466): Device time plus pps_out_delay reaches a whole second and PPS_OUT rises. -/
  | ppsOut
  /-- REF_READY (R478): 20 ms after ref_en is set the Thermos reference is ready. -/
  | refReady
  /-- THM_TIMER_TRIGGER (R477): The Thermos period timer triggers a sequence or makes one pending. -/
  | thmTimerTrigger
  /-- THM_TRIG_GO (R477): A write of THM_CMD.trig_go triggers a sequence or makes one pending. -/
  | thmTrigGo (m : Master)
  /-- THM_CAL_GO (R479): A write of THM_CMD.cal_go starts or queues a Thermos self-calibration. -/
  | thmCalGo (m : Master) (trig : Bool)
  /-- THM_CAL_DONE (R479): Self-calibration ends and sets the gain and offset or raises CAL_FAIL. -/
  | thmCalDone (zero ref : List (BitVec 24))
  /-- THM_RESULT (R475): A channel's raw result completes and is corrected, filtered and queued. -/
  | thmResult (tag : Fin 52) (windows : List (BitVec 24)) (outside : Option Bool)
  /-- SEQ_DONE (R477): A Thermos sequence completes and a pending trigger starts the next. -/
  | seqDone
  /-- THM_Q_POP (R480): A write of THM_Q_CTRL.pop moves the oldest result into THM_Q_0 and THM_Q_1. -/
  | thmQPop (m : Master)
  /-- PATH_TEST (R510): An hourly Thermos path test converts a channel against the internal reference. -/
  | pathTest (k : Fin 48) (seen ref : BitVec 24)
  /-- RULE_TICK (R483): Every 1 ms the tamper and alert rules are evaluated. -/
  | ruleTick (still : BitVec 6) (alerts : BitVec 2)
  /-- HMP_PD_RELEASE (R486): Host software writes 1 to an HMP_PD bit and releases the engine. -/
  | hmpPdRelease (m : Master) (bits : BitVec 2)
  /-- HMP_SEAL (R489): MGMT writes HMP_SEAL, after which seal-guarded writes are refused. -/
  | hmpSeal (m : Master)
  /-- HMP_LOG_POP (R488): A write of HMP_LOG_CTRL.pop moves the oldest rule-log entry into HMP_LOG_0 to 3. -/
  | hmpLogPop (m : Master)
  /-- MON_TRIG_GO (R494): A write of MON_CMD.trig_go gives the capture a host trigger. -/
  | monTrigGo (m : Master) (le : Fin 2)
  /-- MON_ABORT (R494): A write of MON_CMD.abort ends any capture and returns to IDLE. -/
  | monAbort (m : Master) (le : Fin 2)
  /-- MON_REARM (R494): A write of MON_CMD.rearm takes a DONE capture back to ARMED. -/
  | monRearm (m : Master) (le : Fin 2)
  /-- MON_TRIGGER (R494): A detector crossing or engine event triggers the capture. -/
  | monTrigger (le : Fin 2) (sat : Word)
  /-- CAP_DONE (R494): A capture reaches its length or overflows its staging FIFO and ends. -/
  | capDone (le : Fin 2) (units : BitVec 28) (sat : Word) (words : List Word)
  /-- TRIM_UPDATE (R500): Every 10 ms each engine reads its temperature and recomputes the trim working values. -/
  | trimUpdate (le : Fin 2) (t : BitVec 16)
  /-- SPARE_CAL_START (R503): The longest-waiting IDLE converter unit enters calibration. -/
  | spareCalStart (le : Fin 2) (dac : Bool) (lane : Fin 4)
  /-- SPARE_CAL_END (R503): A calibration attempt ends within limits as READY, or is repeated or fails. -/
  | spareCalEnd (le : Fin 2) (dac : Bool) (c : UnitCal) (pilot : Bool)
  /-- ROTATION_SWAP (R505): At a swap boundary a READY spare replaces the longest-serving active unit. -/
  | rotationSwap (le : Fin 2) (dac : Bool) (lane : Fin 4)
  /-- UNIT_FAULT (R506): An active slice or sub-DAC is judged faulty by its observations. -/
  | unitFault (le : Fin 2) (dac : Bool) (lane : Fin 4) (pos : Fin 68)
  /-- REPAIR_SWAP (R506): At the next swap boundary a READY spare replaces a faulty unit. -/
  | repairSwap (le : Fin 2) (dac : Bool) (lane : Fin 4)
  /-- FG_CAL_GO (R507): A write of CAL_FG.go runs foreground calibration of the targeted engine. -/
  | fgCalGo (m : Master) (le : Fin 2) (adc dac fec : Bool)
  /-- FG_DONE (R507): Foreground calibration ends and units are placed as active, spare or FAILED. -/
  | fgDone (adc dac : List UnitCal) (tiles : List (Fin 26))
  /-- LOOP_CAL_STEP (R508): In a traffic gap the loop calibration measures and moves lane trim values. -/
  | loopCalStep (le : Fin 2) (lane : Fin 4) (swing peaking : Fin 3) (inGap : Bool) (cals : List UnitCal)
  /-- PERIODIC_TEST (R509): A periodic test interval expires and the repair manager tests the next unit of a class. -/
  | periodicTest (t : Periodic)
  /-- REP_PIPE_TEST (R509): A write of REP_CMD.pipe_test tests the next classifier pipe now. -/
  | repPipeTest (m : Master)
  /-- REP_DPLL_TEST (R509): A write of REP_CMD.dpll_test runs the DPLL self-test at the next permitted instant. -/
  | repDpllTest (m : Master)
  /-- MON_TEST (R511): A write of REP_CMD.mon_test injects a test tone into a disabled monitor chain. -/
  | monTest (m : Master) (le : Fin 2)
  /-- MON_TEST_DONE (R511): The monitor test tone ends and its result is recorded. -/
  | monTestDone (le : Fin 2) (dev : Int)
  /-- TRIM_WRITE (R502): A write to the trim window is accepted only while the engine is STOPPED. -/
  | trimWrite (m : Master) (le : Fin 2) (t : Fin 6) (w : Fin 512) (value : Word)
  /-- CLASS_EXHAUSTED (R513): The repair manager reports a resource class out of spares and the device enters DEGRADED. -/
  | classExhausted (c : Fin 10)
  /-- CLASS_RESTORED (R513): The repair manager reports a class holding a spare again and the device may return to SERVICE. -/
  | classRestored (c : Fin 10)
  /-- EVL_ENTRY (R518): A source makes an event-log entry, which enters the staging sorter. -/
  | evlEntry (p : Fin 256)
  /-- SORTER_RELEASE (R520): An entry's stamp is 20 µs old or the sorter is full, and it is written to the log. -/
  | sorterRelease
  /-- FOLD_WINDOW_END (R521): A fold window ends with folded edges and an entry carrying their count is made. -/
  | foldWindowEnd (p : Fin 256) (loss : Bool) (code : Byte)
  /-- EVL_TAIL_WRITE (R523): Host software writes EVL_TAIL with the count of entries it has consumed. -/
  | evlTailWrite (m : Master) (value : Word)
  /-- CNT_SEL_WRITE (R529): A write of CNT_SELn changes what a counter counts without changing its value. -/
  | cntSelWrite (m : Master) (n : Fin 512) (value : Word)
  /-- CNT_HI_WRITE (R529): A write of CNT_HIn loads both words of a counter together. -/
  | cntHiWrite (m : Master) (n : Fin 512) (value : Word)
  /-- CNT_WRAP (R533): A counter wraps at 2^48, carrying into its chained successor or setting CNT_OVF. -/
  | cntWrap (n : Fin 512) (inc : BitVec 48)
  /-- FREEZE_REQUEST (R534): A write of CNT_FREEZE.freeze sets a freeze or release instant T. -/
  | freezeRequest (m : Master) (freeze : Bool) (lead : BitVec 16)
  /-- FREEZE_INSTANT (R534): Device time reaches T and every counter captures or releases its visible value. -/
  | freezeInstant
  /-- CNT_SNAPSHOT (R536): At T after PAGE_SNAP.go on page 0xF8 the 512 counters are captured. -/
  | cntSnapshot
  /-- SAMPLE_CHOOSE (R538): The sampling countdown expires and a unit is chosen, or skipped when 16 are in flight. -/
  | sampleChoose (path : Fin 2) (port : Fin 32)
  /-- SAMPLE_RECORD (R539): A sampled unit leaves or is dropped and its record is written. -/
  | sampleRecord (path : Fin 2) (i : Fin 16) (u : Sampled)
  /-- SMP_RESTART (R541): A write of SMP_CTRL.restart clears the held record count and full. -/
  | smpRestart (m : Master) (value : BitVec 31)
  /-- SPI_WRITE (R561): An SPI WRITE transaction writes up to 16 words to ascending BAR0 addresses. -/
  | spiWrite (addr : Addr) (words : List Word) (waiting : Fin 17)
  /-- SPI_READ (R561): An SPI READ transaction returns words after the ready marker. -/
  | spiRead (addr : Addr) (n : Nat)
  /-- SPI_STATUS (R561): An SPI STATUS transaction returns pending writes, last error and front-end state. -/
  | spiStatus (waiting : Bool)
  /-- GPIO_EDGE (R562): An enabled edge on a GPIO ball raises its page 0x06 event. -/
  | gpioEdge (n : Fin 16) (rising : Bool)
  /-- KX_RESTART (R399): After a crossed KX_INIT with an equal nonce, the exchange record restarts with a fresh KX_INIT once its random delay of 1 to 16 ms has run out. -/
  | kxRestart (j : Fin 16)
  /-- AVS_CONFIRMED (R548): The VDD regulator reports completion of a commanded set-point change, avs_busy clears, setpoint_code takes the new code and the widened SUPPLY_SLOW range ends 1 ms later. -/
  | avsConfirmed
  /-- TRNG_HEALTH_TEST (R410): The TRNG health test on a block of 1,024 output bits fails, stopping key generation, nonce issue and DRBG reseeding, or passes again and resumes them. -/
  | trngHealthTest (pass : Bool)
  deriving DecidableEq, Repr

end Sys2Proof
end

