-- ==== Sys2Proof/Config.lean ====
section
/-! DEFINITION. What the spec leaves open: values a step draws (free values), and functions of cited standards whose
text is not part of spec/. None has a body, so nothing can be proved of any value of theirs. -/
namespace Sys2Proof

/-- R110: what the recovery service offers: flash erase (first byte, length), flash write (first byte, bytes), device reset. -/
inductive Recovery where
  | erase (addr len : Nat)
  | write (addr : Nat) (bytes : List (BitVec 8))
  | reset
  deriving DecidableEq, Repr

/-- A 64-bit value the spec leaves open (a random draw of the TRNG, an undefined value): the n-th drawn. -/
opaque Config.freeValue : Nat → BitVec 64

/-- AES-256-GCM (NIST SP 800-38D, R384): key, IV, AAD and text give the text under the key stream and the tag of that
output. The key stream of a text does not depend on the text, so the first part also deciphers. -/
opaque Config.gcm : List (BitVec 8) → List (BitVec 8) → List (BitVec 8) → List (BitVec 8) → List (BitVec 8) × List (BitVec 8)

/-- Key unwrapping with padding (KWP, NIST SP 800-38F, R388): none where the integrity check fails. -/
opaque Config.kwpUnwrap : List (BitVec 8) → List (BitVec 8) → Option (List (BitVec 8))

/-- SHA-384. -/
opaque Config.sha384 : List (BitVec 8) → List (BitVec 8)

/-- HKDF-SHA-384 (RFC 5869): IKM, salt, info, length. -/
opaque Config.hkdf : List (BitVec 8) → List (BitVec 8) → List (BitVec 8) → Nat → List (BitVec 8)

/-- The public point, uncompressed, of a P-384 private key. -/
opaque Config.p384Public : List (BitVec 8) → List (BitVec 8)

/-- ECDH on P-384: x-coordinate of the shared point of a private key and a public point. -/
opaque Config.ecdh : List (BitVec 8) → List (BitVec 8) → List (BitVec 8)

/-- ECDSA P-384 with SHA-384: signature of a message under a private key and a random number. -/
opaque Config.ecdsaSign : List (BitVec 8) → List (BitVec 8) → List (BitVec 8) → List (BitVec 8)

/-- ECDSA P-384 with SHA-384: whether a signature of a message verifies under a public key. -/
opaque Config.ecdsaVerify : List (BitVec 8) → List (BitVec 8) → List (BitVec 8) → Bool

/-- The subject public key of a certificate chain that verifies to the Xamund root; none where it does not. -/
opaque Config.chainKey : List (BitVec 8) → Option (List (BitVec 8))

/-- The subject public key of the first certificate of a chain that can be read, whoever signed it. -/
opaque Config.certKey : List (BitVec 8) → Option (List (BitVec 8))

/-- The ASCII bytes of the subject serialNumber of the first certificate of a chain. -/
opaque Config.chainSerial : List (BitVec 8) → List (BitVec 8)

/-- R300: the lane rate that ITU-T G.709.1 sets for a FlexO rate class, kb/s. -/
opaque Config.flexoLaneRate : Nat → Nat

/-- R79: the frequency of TCK, kHz, as the board drives it (25,000 at most). -/
opaque Config.tck : Nat

/-- R137: the native 8QAM takes the constellation and labelling of OpenZR+ 8QAM: I and Q of a three-bit label, and the mean power ×
1,024 of the eight points. -/
opaque Config.eightQam : Nat → Int × Int
opaque Config.eightQamPower : Nat

/-- R138: how many amplitudes of 3, 5 and 7 a block of 1,024 holds at an entropy step; the table is fixed in the device. -/
opaque Config.composition : Nat → Nat × Nat × Nat

/-- R138: what the matcher makes of a block's uniform bits at an entropy step: keys of its 1,024 places in rising amplitude. -/
opaque Config.matcher : Nat → List Bool → List Nat

/-- R262: symbol rates of the OpenZR+ MSA (by zrp_rate) and of 800ZR, 0.25 GBd units, as the standards set them. -/
opaque Config.zrpBaud : Nat → Nat
opaque Config.zr800Baud : Nat

/-- R129, R163, R262: the coded rate of an interoperable line mode (line mode, zrp_rate), 0.1 Gb/s. -/
opaque Config.standardCoded : Nat → Nat → Nat

/-- R263: a CFEC or oFEC block as its specification defines it (line mode, zrp_rate): coded bits; the code word of a block's bits by
line mode, bit 0 first; and the iterations that its threshold assumes. -/
opaque Config.standardBlock : Nat → Nat → Nat
opaque Config.standardCode : Nat → List Nat → Nat
opaque Config.standardIterations : Nat → Nat

/-- R193: perturbation coefficients for a bulk CD (ps/nm) taken as so many equal spans, and a half-window in symbols. -/
opaque Config.nlcCoefficients : Int → Nat → Nat → List (Int × Int)

/-- R148, R177: samples of a lane that clip at stage 10, or that reach full scale in the ADC, in a 1 ms interval: the n-th drawn. -/
opaque Config.overloads : Nat → Nat

/-- R181, R182, R189, R190: where adaptation has brought a filter of the receive DSP: complex taps of the n-th drawn. -/
opaque Config.adapted : Nat → Nat → List (Int × Int)

/-- R279: byte `n` of the client that a CBR port receives; no command carries it. -/
opaque Config.clientByte : Nat → Nat → BitVec 8

/-- R319: byte `n` of the transcoded stream of local-fault ordered sets, as IEEE 802.3 codes it. -/
opaque Config.localFaultByte : Nat → BitVec 8

/-- R490: sample `n` (Q1.15; I and Q, or I alone where real) at the tap of a monitor chain whose samples have the free key given. -/
opaque Config.tapSample : Nat → Nat → Int × Int

/-- R491, R493: coefficients fixed in the device, Q1.17: the half-band filter, the built-in low-pass of so many taps, the 31 taps of the
Hilbert transformer. The spec gives their responses. -/
opaque Config.halfBand : List Int
opaque Config.lowPass : Nat → List Int
opaque Config.hilbert : List Int

/-- R110: what a request to the recovery service of the boot ROM asks for, and the words it is answered with; none while the request is
not complete. The spec does not lay the request out. -/
opaque Config.recovery : List Nat → Option (Recovery × List Nat)

/-- R410, R415: the four Xamund firmware public keys in the mask ROM. -/
opaque Config.firmwareKey : Nat → List (BitVec 8)

end Sys2Proof
end

