-- ==== Sys2Proof/Machine/State.lean ====
section
/-! DEFINITION. The state of the block: every register (as sparse contents of bit fields keyed by their bit address in
BAR0), the staged sets, and the storage behind the registers, chapter by chapter. -/
namespace Sys2Proof.Machine

/-- A register field: the bit address in BAR0 of its lowest bit (8 bits an address), its width, its reset value. -/
structure Field where
  key : Nat
  width : Nat
  reset : Nat
  deriving DecidableEq, Repr

/-- Access codes of a register field (R15). -/
inductive Acc where
  | ro | rw | rws | w1c | w1s | wo | rc | ra
  deriving DecidableEq, Repr

/-- A field of a register row: bits hi:lo, access, reset (R15). -/
structure FSpec where
  hi : Nat
  lo : Nat
  acc : Acc
  reset : Nat
  deriving DecidableEq, Repr

/-- A register or an array of registers: dimensions as (stride, count), largest stride first. -/
structure RegRow where
  name : String
  base : Nat
  dims : List (Nat × Nat)
  fields : List FSpec
  deriving DecidableEq, Repr

/-- A queued mailbox word and the code of the master that wrote it (R71, R76). -/
structure MbxWord where
  word : Word
  writer : Nat
  deriving DecidableEq, Repr

/-- An event-log entry a source has made (R518, R519): kind 0 EVENT, 1 ERROR, 2 LOSS, 3 RECORD. -/
structure LogEntry where
  stamp : Nat
  page : Nat
  code : Nat
  kind : Nat
  arg : Nat
  seq : Nat := 0
  late : Bool := false
  gap : Bool := false
  deriving DecidableEq, Repr

/-- An open fold window (R521): its end instant, the kind, and the edges or lost units folded in it. -/
structure FoldWin where
  ends : Nat
  folded : Nat
  deriving DecidableEq, Repr

/-- Event bookkeeping of the fabric: what rising edges leave behind (R81, R87, R518, R521, R530). -/
structure Events where
  /-- entries made by sources and not yet taken into the sorter, oldest first (R520) -/
  made : List LogEntry := []
  /-- open fold windows by (page × 4 + kind) × 256 + code (R521) -/
  fold : Tbl FoldWin := []
  /-- rising edges by page × 32 + bit since the counters last took them (R530, R532) -/
  edges : Tbl Nat := []
  /-- increments of datapath events since the counters last took them (R531, R532) -/
  incs : Tbl (List Nat) := []
  /-- what a level showed until it changed, since the counters last took it: device time and old value, oldest first; by event number, or
  2,048 + page × 32 + bit (R530) -/
  was : Tbl (List (Nat × Nat)) := []
  /-- MSI-X messages sent, by vector (R87) -/
  msiSent : Tbl Nat := []
  /-- vectors with the pending bit set (R87) -/
  msiPend : Tbl Bool := []
  /-- MSI-X table vectors whose mask bit is clear (R87, R88): they reset masked -/
  msiUnmasked : Tbl Bool := []
  /-- the PCIe link is up, MSI-X is enabled, the function is unmasked (R87) -/
  linkUp : Bool := false
  msiEnabled : Bool := false
  funcUnmasked : Bool := false
  /-- the function is in power state D3hot, D0 otherwise (R88) -/
  d3hot : Bool := false
  deriving DecidableEq, Repr

/-- Storage of the register fabric behind pages 0x07 to 0x0A (02_register_fabric.md). -/
structure Fabric where
  /-- words queued per mailbox direction, oldest first (R70) -/
  mbx : Tbl (List MbxWord) := []
  /-- the timeout of the oldest word has been set, and device time at which that word became the oldest (R74) -/
  mbxTimed : Tbl Bool := []
  mbxSince : Tbl Nat := []
  /-- internal interrupt inputs of the endpoints MGMT, ENC and HMP, by endpoint × 32 + bit: the level of RX_PENDING (bits 0 to 11),
  how often TX_ATTN has risen (bits 12 to 23) (R77) -/
  irq : Tbl Nat := []
  /-- pending pulse counts that wait for the next request, by (domain × 256 + page) × 1,024 + counter + 1, or + 0 (R81) -/
  pulses : Tbl Nat := []
  /-- LE1's set as a go or check of a REGEN on LE0 has read it (R34, R57) -/
  regenSet : Tbl Nat := []
  /-- captured snapshot values awaiting delivery, by field bit address (R83) -/
  snap : Tbl Nat := []
  /-- the page whose COMMIT register was last written, by commit domain: it takes the events (R53, R58) -/
  commitPage : Tbl Nat := []
  /-- reply words of the enclave that wait for room in their mailbox, by direction (R73, R414) -/
  replies : Tbl (List Nat) := []
  /-- the last data a master's read returned -/
  readData : Nat := 0
  deriving DecidableEq, Repr

/-- Why the block stops. -/
inductive Fault where
  /-- The operands are not those of an occurrence of the command (Sys2Proof.wellFormed refuses it): a band its width does not have,
  a defect on what it is not declared on, taps beyond full swing, a mode code that has a row of its own. Raised by the meanings of
  PREAMBLE_DETECT, BURST_HEADER_DECODE, BURST_RX_DONE, IDLE_MEASURE, DEFECT_DECLARE, DEFECT_CLEAR, TRAINING_COMPLETE and
  MODE_REQ_NOT_ALLOWED. Safe: no such command can be given. -/
  | illFormed
  deriving DecidableEq, Repr

/-- Why a command is not run. -/
inductive Refusal where
  /-- The command has no meaning yet; raised by its arm of exec. Safe: the model stops. -/
  | notModelled (mnemonic : String)
  deriving DecidableEq, Repr

/-- A BCR under application (R119, R120): its entries (word 0, word 1), the index of the next one, whether a SERVICE entry has
been met, and what it waits for: 0 nothing, 1 the end of a WAIT_US, 2 commit_pending of a page to be 0. -/
structure Bcr where
  entries : List (Nat × Nat)
  idx : Nat := 0
  service : Bool := false
  wait : Nat := 0
  page : Nat := 0
  deriving DecidableEq, Repr

/-- Device-level storage: reset, boot, adaptive supply, pins (03_modes_and_startup.md, 19_electrical_and_package.md). -/
structure Dev where
  /-- PORST_N is low: every domain but Hamper is held in reset (R91) -/
  held : Bool := false
  /-- the boot of a WAKE is still to run (R108) -/
  bootPending : Bool := true
  /-- VAON is in range (R106) -/
  vaon : Bool := true
  /-- a WAKE has begun since VAON power-on (R100) -/
  woken : Bool := true
  /-- the tamper response in force is KEEP_CLEAR (R97, R425) -/
  keepClear : Bool := false
  /-- the debug logic's clock runs (R126, R427) -/
  debugUp : Bool := false
  /-- MAINTENANCE targets in force, bit n for engine n (R94) -/
  maint : Nat := 0
  /-- the configuration flash by byte address; an unlisted byte reads as erased, 0xFF (R116) -/
  flash : Tbl Byte := []
  /-- the configuration flash does not answer: no region of it can be read (R118) -/
  flashDead : Bool := false
  /-- words of a request that the recovery service has taken from mailbox direction 0 (R110) -/
  recovery : List Nat := []
  /-- this WAKE skips the BCR (R91, SAFE request) -/
  skipBcr : Bool := false
  /-- the mode request whose transition is in progress (R92, R98) -/
  req : Option Nat := none
  /-- the SPI mode request that woke the device, until it is answered (R124) -/
  spiWake : Option Nat := none
  /-- the BCR being applied (R119, R120) -/
  bcr : Option Bcr := none
  /-- SUPPLY_SLOW's widened range (R548): the set-point code it runs from beside the one in force, and the device time at
  which it ends once the regulator has confirmed -/
  avsFrom : Option Nat := none
  avsEnd : Option Nat := none
  /-- the tamper causes that tripped since the last tamper record (R425, R567) -/
  tripped : Nat := 0
  deriving DecidableEq, Repr

/-- What stage 5 of a transmitter has taken, as the transmit-symbol history holds it (R180): the bits of a code word of stream `q`
(bit 0 first) with the subcarriers that were silent and the set they were sent under, or a stretch of DARK of so many symbols. -/
inductive HistRun where
  | word (q bits len silent : Nat)
  | dark (symbols : Nat)
  deriving DecidableEq, Repr

/-- Transmit storage of an engine behind its registers (04_line_transmit.md). -/
structure Tx where
  /-- the output is live; it is DARK otherwise (R154) -/
  live : Bool := false
  /-- count of the next frame to send (R268) -/
  fc : BitVec 32 := 0
  /-- consecutive measurements in which a mask bin exceeded (R146) -/
  maskRun : Tbl Nat := []
  /-- consecutive measurements without an exceeding bin (R147) -/
  maskClean : Nat := 0
  /-- subcarriers to mute at the next frame boundary, and those that send zero (R147) -/
  muteDue : Nat := 0
  silent : Nat := 0
  /-- device time at which ENV reached or reaches v_off after the last burst (R160) -/
  envEnd : Nat := 0
  /-- the instants at which the first and the last symbol of the last burst leave the DAC in RAMP, and where ENV went down early:
  the transmitter was disabled or the engine left RUNNING (R160, R161) -/
  env : Option (Nat × Nat) := none
  envOff : Option Nat := none
  /-- code words sent since the output left DARK, by stream (R139, R141, R244), and device time since which it is DARK -/
  words : Tbl Nat := []
  darkSince : Nat := 0
  /-- the transmit-symbol history, newest first (R180) -/
  hist : List HistRun := []
  /-- frames of the framer discarded while DARK (R157) -/
  discarded : Nat := 0
  /-- stage 10: the scale of each lane and the scale its last rms level asks for, 0.05 dB units (R150) -/
  scale : Tbl Int := []
  scaleTo : Tbl Int := []
  /-- start steps 4 and 10 are skipped: transmit is not permitted (R112, R113) -/
  skip : Bool := false
  deriving DecidableEq, Repr

/-- The 2×2 butterfly of a subcarrier's equaliser: complex taps of its four filters (R189). -/
structure Butterfly where
  xx : List (Int × Int)
  xy : List (Int × Int)
  yx : List (Int × Int)
  yy : List (Int × Int)
  deriving DecidableEq, Repr

/-- A reflection slot's echo model: the complex taps h_r and the polarisation matrix J_r, row by row (R181). -/
structure Echo where
  h : List (Int × Int) := []
  j : List (Int × Int) := []
  deriving DecidableEq, Repr

/-- Receive storage of an engine behind its registers (05_line_receive.md). -/
structure Rx where
  /-- subcarrier states 0 SEARCH, 1 CONVERGE, 2 PILOT_SYNC, 3 LOCKED (R171) -/
  sc : Tbl Nat := []
  /-- the input's rms level is below los_level (R173) -/
  rmsLow : Bool := false
  /-- the optical engine reports loss of received light (R173) -/
  optLos : Bool := false
  /-- the demapper alternates after a lost follow, and uses the announced entropy now (R169) -/
  alternating : Bool := false
  usesAnnounced : Bool := false
  /-- the records of the last published quality interval, by field bit address (R195, R199) -/
  qual : Tbl Nat := []
  /-- cycle slips of each subcarrier in the running interval (R192) -/
  slips : Tbl Nat := []
  /-- the equaliser of each subcarrier (R189, R190) -/
  eq : Tbl (Option Butterfly) := []
  /-- each subcarrier's residual offset from the common one, kHz (R191), and its offset as last measured -/
  residual : Tbl Int := []
  /-- the echo model of each reflection slot (R181, R182) -/
  echo : Tbl Echo := []
  /-- device time at which the present transmit-symbol history began (R183) -/
  histFrom : Nat := 0
  /-- coefficients of the nonlinearity compensation, computed at the last COMMIT that enabled it (R193) -/
  nlc : List (Int × Int) := []
  /-- LEn_RX_QUAL_CTRL as it stood when the running interval began: hold, ref_mode, lq_alarm, q_ref (R199) -/
  qctrl : Nat × Nat × Nat × Nat := (0, 0, 0x60, 0x1F4)
  deriving DecidableEq, Repr

/-- FEC storage of an engine behind its registers (07_ngusha_fec.md). -/
structure Fec where
  /-- code-word state of each stream: 0 HUNT, 1 PRESYNC, 2 SYNC (R249) -/
  sync : Tbl Nat := []
  /-- words that did not fail in PRESYNC, and consecutive failed words in SYNC (R249) -/
  good : Tbl Nat := []
  bad : Tbl Nat := []
  /-- device times of each tile's fault marks (R251) -/
  marks : Tbl (List Nat) := []
  /-- FAILED tiles waiting for a spare, oldest first (R252) -/
  waiting : List Nat := []
  /-- the tile the dispatcher dealt to last, and the next sequence number (R250) -/
  lastTile : Nat := 25
  seq : Nat := 0
  /-- bits corrected, coded bits of blocks that did not fail, failed blocks, and whether a stream was in SYNC, in the
  running quality interval (R258) -/
  qCorr : Nat := 0
  qBits : Nat := 0
  qFail : Nat := 0
  qSync : Bool := false
  /-- the last code word the encoder sent, bit 0 first (R243), words sent although they failed the check (R254), and how many words
  the streams have taken in turn (R245) -/
  lastWord : Nat := 0
  badWords : Nat := 0
  turn : Nat := 0
  deriving DecidableEq, Repr

/-- A start-of-frame candidate: where its next header is expected, the frame count expected there, and the consecutive
valid headers seen (R269). -/
structure Cand where
  pos : Nat
  fc : Nat
  seen : Nat
  deriving DecidableEq, Repr

/-- What a receive container keeps: cell delineation 0 HUNT, 1 PRESYNC, 2 SYNC; consecutive failed HECs; the next cell
count expected; the packet being assembled; Cn of the last frame and its fraction (R279, R280, R282). -/
structure Cont where
  cell : Nat := 0
  fails : Nat := 0
  seq : Option Nat := none
  isOpen : Bool := false
  spoilt : Bool := false
  cn : Nat := 0
  cnr : Nat := 0
  /-- the last JC word was uncorrectable: the client data of the next frame is replaced (R280) -/
  jcBad : Bool := false
  /-- TAG_FAIL of the frame that passes now, under fcs_stomp; the open packet touches such a frame; packets sent on with their FCS
  inverted (R393, R394) -/
  tagFail : Bool := false
  touched : Bool := false
  stomped : Nat := 0
  deriving DecidableEq, Repr

/-- What a transmit container keeps (R279, R281): packets released to it and not yet sent, oldest first, each with the leaf it goes to;
bytes of the first of them already in cells; the count of its next cell; the rest of a cell that the last frame cut. Of a CBR
container: the client bytes announced for the next frame, those sent so far, and the JC word that the cipher has authenticated. -/
structure TxCont where
  packets : List (Nat × List Byte) := []
  taken : Nat := 0
  seq : Nat := 0
  rest : List Byte := []
  cn : Nat := 0
  clientPos : Nat := 0
  jc : Option Nat := none
  deriving DecidableEq, Repr

/-- A container's part of one frame: frame count, JC word, bytes in slot order, tag (R24, R265, R284). -/
structure TxUnit where
  fc : Nat
  jc : Nat
  bytes : List Byte
  tag : List Byte
  deriving DecidableEq, Repr

/-- A received frame that waits to be sent again in REGEN or LOOP: FC, GM and STAT (R36, R268, R275). -/
structure Relay where
  fc : Nat
  gm : Nat
  stat : Nat
  deriving DecidableEq, Repr

/-- An overhead envelope waiting to be sent: its place in the order of precedence, and its bytes (R272, R274). -/
structure Env where
  prec : Nat
  bytes : List Byte
  deriving DecidableEq, Repr

/-- Framer storage of an engine behind its registers (08_gweano_line_frame.md). -/
structure Glf where
  /-- frame state of each stream: 0 HUNT, 1 CONFIRM, 2 IN_FRAME, 3 FLYWHEEL (R270) -/
  frame : Tbl Nat := []
  /-- multiframe state: 0 MF_SYNC, 1 MF_CHECK, 2 MF_LOST, 3 none (R271) -/
  mf : Tbl Nat := []
  oof : Tbl Bool := []
  lom : Tbl Bool := []
  /-- consecutive headers not valid (R270) -/
  bad : Tbl Nat := []
  cand : Tbl (List Cand) := []
  /-- predicted frame count, and consecutive mismatches or matches (R271) -/
  pred : Tbl Nat := []
  mfRun : Tbl Nat := []
  /-- received quality level, AIS and BDI, and how often a differing value has come in a row (R266, R275) -/
  ql : Tbl Nat := []
  qlNew : Tbl Nat := []
  qlRun : Tbl Nat := []
  ais : Tbl Bool := []
  aisRun : Tbl Nat := []
  bdi : Tbl Bool := []
  bdiRun : Tbl Nat := []
  /-- the received identity differs from the one set (R286) -/
  idBad : Tbl Bool := []
  cont : Tbl Cont := []
  /-- transmit containers, and their units in the last frame sent (R24, R281) -/
  out : Tbl TxCont := []
  units : Tbl TxUnit := []
  /-- the last frame sent was an AIS frame (R275) -/
  aisSent : Bool := false
  /-- frames received to be regenerated, oldest first (R36) -/
  relay : List Relay := []
  /-- partial envelope at the end of the last frame, by stream (R272) -/
  part : Tbl (List Byte) := []
  /-- envelopes to send, and the rest of the one begun in the last frame, by stream (R272, R274) -/
  oh : Tbl (List Env) := []
  ohRest : Tbl (List Byte) := []
  /-- the overhead of the last frame sent, scrambled: header and part B (R266, R267) -/
  sent : Tbl (List Byte) := []
  /-- declared defects: defect × 1024 + stream, container or leaf (R298) -/
  declared : Tbl Bool := []
  deriving DecidableEq, Repr

/-- What the hub keeps about a leaf beside its table registers (R223, R224, R232). -/
structure LeafHub where
  /-- the ranging burst before had |ε| ≤ 16 ns -/
  okPrev : Bool := false
  /-- ASSIGN messages sent -/
  sends : Nat := 0
  /-- DEREGISTER messages still to send, and whether QUIESCE is still repeated -/
  dereg : Nat := 0
  quiesce : Bool := false
  /-- device time of the last repetition of ASSIGN, QUIESCE or DEREGISTER, and of the last decrement of the rogue score (R230) -/
  sentAt : Nat := 0
  decayAt : Nat := 0
  /-- start of the last grant answered by a CONFIRMED burst, or device time since which the leaf is ACTIVE -/
  lastOk : Nat := 0
  /-- ε of up to 16 bursts (ns) and power deviation of up to 8 bursts (0.05 dB), oldest first -/
  eps : List Int := []
  pows : List Int := []
  deriving DecidableEq, Repr

/-- A leaf message waiting in the hub's queue (R219, R237). -/
structure LeafMsg where
  type : Nat
  leaf : Nat
  tag : Nat
  arg : Nat
  seq : Nat
  deriving DecidableEq, Repr

/-- A burst that Lookout follows: its band, ρ (0.25 dB), arrival (ns), mode 0 UNCONFIRMED, 1 CONFIRMED, 2 ignored, 3
displaced before its header; the header once validated, and its flags (R227, R229). -/
structure Recv where
  sc : Nat
  w : Nat
  band : Nat
  rho : Nat
  arrival : Nat
  mode : Nat
  hdr : Nat := 0
  ungranted : Bool := false
  misaligned : Bool := false
  /-- the start S of the grant it answers -/
  start : Option Nat := none
  /-- that grant -/
  grant : Nat := 0
  /-- the CD that the reception assumes, ps/nm -/
  cd : Int := 0
  deriving DecidableEq, Repr

/-- Point-to-multipoint storage of an engine behind its registers (06_point_to_multipoint.md). -/
structure P2mp where
  /-- maps built, by absolute period, newest last (R217); the period built last -/
  built : List (Nat × List Nat) := []
  lastBuilt : Option Nat := none
  leaf : Tbl LeafHub := []
  msgs : List LeafMsg := []
  msgSeq : Nat := 0
  recv : List Recv := []
  /-- consecutive excesses of idle power by band (R231) -/
  idle : Tbl Nat := []
  /-- burst records queued (R237) -/
  brec : List (Nat × Nat × Nat × Nat) := []
  /-- leaf: valid segments since LISTEN, device time of the last (R220) -/
  segs : Nat := 0
  lastSeg : Nat := 0
  /-- leaf: stamp and latch of the hub-time estimate (R207) -/
  stamp : Nat := 0
  latch : Nat := 0
  /-- leaf: grants held, with their start in hub time -/
  held : List (Nat × Nat) := []
  /-- leaf: DISCOVERY windows to let pass, counted from this hub time; a discovery burst waits for ASSIGN since (R220, R222) -/
  skip : Nat := 0
  skipFrom : Nat := 0
  waiting : Option Nat := none
  /-- leaf: device time since which id and RO are held in LISTEN (R220) -/
  heldSince : Nat := 0
  /-- leaf: the transmitter is disabled by self-guard; the output is DARK for want of valid segments (R225) -/
  selfOff : Bool := false
  segDark : Bool := false
  /-- leaf: the shift of its upstream signal, kHz (R208) -/
  shift : Int := 0
  /-- leaf: bursts sent modulo 256 (R211), and the last one: header, grant, symbols; the bytes its code words carry (R212, R283) -/
  burstSeq : Nat := 0
  sent : Option (Nat × Nat × Nat) := none
  sentBytes : List Byte := []
  /-- leaf: device times between which the last burst allows output (R225) -/
  span : Option (Nat × Nat) := none
  deriving DecidableEq, Repr

/-- Capability exchange on one lane: consecutive valid frames, consecutive valid frames with ack, frames sent with ack
(R320). -/
structure LaneExch where
  valid : Nat := 0
  acked : Nat := 0
  sent : Nat := 0
  deriving DecidableEq, Repr

/-- What a port keeps behind its registers (R320 to R324). -/
structure PortSt where
  /-- features both ends offer, once agreed: bit 0 sparing, 1 fast-wake idle, 2 direction sleep -/
  features : Nat := 0
  /-- the partner's flags, and what the window has seen: a valid frame, another version, another lane count -/
  partner : Nat := 0
  anyValid : Bool := false
  badVersion : Bool := false
  badLanes : Bool := false
  /-- position of the lane that is or becomes the spare -/
  spare : Option Nat := none
  /-- the faulted logical lane whose substitution runs, whether SPARE_ACK has come, the sequence of its SPARE_REQ, and that of the last
  message -/
  request : Option Nat := none
  acked : Bool := false
  reqSeq : Nat := 0
  seq : Nat := 0
  /-- logical lanes that the transmitter has moved to its spare lane, in order (R322, R323) -/
  moved : List Nat := []
  /-- the ordered sets that the last message took: message, lane, sequence (R321, R324) -/
  sent : List (Nat × Nat × Nat) := []
  /-- device time since which no lane has been in SPARE (R512) -/
  bareAt : Option Nat := none
  deriving DecidableEq, Repr

/-- Host-lane and port storage (09_host_lanes_and_clients.md). -/
structure HostPorts where
  exch : Tbl LaneExch := []
  port : Tbl PortSt := []
  /-- the port's client is replaced by R41: local-fault ordered sets or all-ones (R299) -/
  replaced : Tbl Bool := []
  /-- the lane's bring-up is a retrain (R305) -/
  retrain : Tbl Bool := []
  deriving DecidableEq, Repr

/-- A packet in the classifier, in the order of first passes (R339, R347): its port, flow and bank tag, the frame, either
the second pass it waits for (base, field set, length conflict carried) or the action that decided it, and the device time of its
first-pass result (R340). -/
structure Pkt where
  id : Nat
  port : Nat
  flow : Nat
  bank : Nat
  frame : List Byte
  fcsBad : Bool
  second : Option (Nat × Nat × Bool)
  action : Nat
  queued : Nat
  deriving DecidableEq, Repr

/-- Classifier storage (10_classifier.md). -/
structure Cls where
  /-- bank words by bank × 2^22 + offset ÷ 4 (R342) -/
  mem : Tbl Nat := []
  /-- poisoned 64-bit words by bank × 2^21 + offset ÷ 8 (R353) -/
  poison : Tbl Bool := []
  /-- packets not yet released, in the order of their first passes -/
  pkts : List Pkt := []
  nextId : Nat := 0
  /-- device times of each pipe's shadow mismatches (R352, R354) -/
  mismatch : Tbl (List Nat) := []
  deriving DecidableEq, Repr

/-- A CE-tracker entry (R370, R371): physical word address, CEs counted, device time of the first, HARD. -/
structure CeTrack where
  addr : Nat
  count : Nat
  first : Nat
  hard : Bool
  deriving DecidableEq, Repr

/-- A retirement or restore in progress (R374). -/
structure RetOp where
  restore : Bool
  page : Nat
  entry : Nat
  deriving DecidableEq, Repr

/-- An injection in progress: physical word address, XOR over the 36 stored symbols, address XOR (R372). -/
structure Inject where
  addr : Nat
  flip : Nat
  addrXor : Nat
  deriving DecidableEq, Repr

/-- Package-memory storage (11_package_memory.md). -/
structure Buf where
  /-- ECC words by physical word address: data byte or check symbol i in bits 8i + 7 : 8i, the check symbols less those of
  the word's own address (the code is linear), so that zero data with right check symbols is 0 (R362) -/
  mem : Tbl Nat := []
  /-- CE tracker, oldest entry first -/
  track : List CeTrack := []
  /-- error records queued (R373) -/
  log : List (Nat × Nat × Nat × Nat) := []
  /-- device time of the last UE, ADDR_ERR or POISON record of an address (R373) -/
  lastRec : Tbl Nat := []
  /-- remap entries: state 0 FREE, 1 IN_USE, 2 UNUSABLE, and the logical page held (R374, R376) -/
  remap : Tbl (Nat × Nat) := []
  ret : Option RetOp := none
  /-- spare rows used, by pseudo-channel × 16 + bank; kept in the die (R377) -/
  rowUsed : Tbl Nat := []
  /-- the row under repair: pseudo-channel, bank, row, and programming steps done -/
  rowOp : Option (Nat × Nat × Nat) := none
  rowSteps : Nat := 0
  /-- the physical word address the scrubber reads next (R368) -/
  scrubNext : Nat := 0
  inj : Option Inject := none
  /-- logical deskew pages of each configured member, by group × 16 + member (R360) -/
  alloc : Tbl (List Nat) := []
  deriving DecidableEq, Repr

/-- A group of the mapping function (R289, R294 to R297): the active and the next sets and switch FCs of its source and
of its sink, device times of the first PROPOSE and of READY, STATUS messages in a row that differ, the sequence. -/
structure GrpSt where
  src : Nat := 0
  sink : Nat := 0
  srcNext : Nat := 0
  sinkNext : Nat := 0
  srcFc : Nat := 0
  sinkFc : Nat := 0
  lastFc : Nat := 0
  propAt : Nat := 0
  readyAt : Nat := 0
  differ : Nat := 0
  seq : Nat := 0
  /-- FC of the group frame released last -/
  released : Option Nat := none
  /-- members excluded while DESKEW_OVF is raw (R291) -/
  excluded : List Nat := []
  /-- members whose frame in package memory has read uncorrectable since the last release (R367); active members missing or bad in
  the last group frame released (R292, R293) -/
  memBad : Nat := 0
  missing : Nat := 0
  deriving DecidableEq, Repr

/-- What an association holds (R380, R386, R389): the keys of its two slots by role (32 bytes of key, 4 of salt) and
whether the current one is in the odd slot; a CURRENT load waiting in the shadow; S; frames, periods or messages since S
at the last unit, and its device time; erasures waiting; the switch FC or period of an armed switch. -/
structure Assoc where
  cur : Option (List Byte) := none
  next : Option (List Byte) := none
  shadow : Option (List Byte) := none
  odd : Bool := false
  start : Nat := 0
  units : Nat := 0
  seenAt : Nat := 0
  eraseCur : Bool := false
  eraseNext : Bool := false
  switch : Option Nat := none
  deriving DecidableEq, Repr

/-- What a key-exchange record holds beside its register (R396, R399). -/
structure Kx where
  xid : Nat := 0
  /-- ephemeral private key, erased once the keys are derived -/
  priv : List Byte := []
  /-- bodies of KX_INIT and KX_RESP -/
  init : List Byte := []
  resp : List Byte := []
  /-- keys K_ir and K_ri with their salts, held in the enclave by the responder -/
  held : Option (List Byte × List Byte) := none
  /-- the message sent again every 1 ms, and the device time it was last sent -/
  last : Nat × List Byte := (0, [])
  sentAt : Nat := 0
  /-- device time of the start, or of the restart that an equal nonce has put off -/
  began : Nat := 0
  own : Bool := false
  peer : Bool := false
  authBad : Bool := false
  /-- a restart after an equal nonce waits for its delay -/
  again : Bool := false
  deriving DecidableEq, Repr

/-- Cipher storage (12_cipher.md): associations, exchange records, certificate fragments received by engine × 2^16 + xid
(index, count, bytes), the last unit each association sent or delivered (bytes, tag; TAG_FAIL), and for each core the
device time of its last test and of its shadow mismatches. -/
structure Cip where
  sa : Tbl Assoc := []
  kx : Tbl Kx := []
  certs : Tbl (List (Nat × Nat × List Byte)) := []
  sent : Tbl (List Byte × List Byte) := []
  got : Tbl (List Byte × Bool) := []
  tested : Tbl Nat := []
  mism : Tbl (List Nat) := []
  /-- the core the scheduler dealt a chunk to last (R401) -/
  lastCore : Nat := 7
  deriving DecidableEq, Repr

/-- An officer credential (R418): id, role mask, public key. -/
structure Officer where
  id : Nat
  roles : Nat
  key : List Byte
  deriving DecidableEq, Repr

/-- A change handle (R419): nonce, device time of issue, and in ONE_SIGNED the request and its signer's slot. -/
structure Handle where
  nonce : List Byte
  issued : Nat
  signed : Option (List Byte × Nat) := none
  deriving DecidableEq, Repr

/-- What the enclave holds (R410). -/
structure Enc where
  /-- non-volatile: identity private key and certificate chain, officers, BCR signing keys, policies of associations by
  association (CFG, POL, PIN), overrides by engine (identity prefix, hours: 0 until cleared),
  fused code -/
  idKey : List Byte := []
  chain : List Byte := []
  officers : Tbl Officer := []
  bcrKeys : Tbl (List Byte) := []
  policy : Tbl (Nat × Nat × Nat) := []
  overrides : Tbl (Nat × Nat) := []
  rollback : Nat := 0
  /-- non-volatile and destroyed by zeroise: KLK and the private agreement key -/
  klk : Option (List Byte) := none
  agree : Option (List Byte) := none
  agreePub : List Byte := []
  /-- volatile -/
  handles : Tbl Handle := []
  trngBad : Bool := false
  /-- measurements (R415): running firmware's security version and body digest, BCR security version and digest -/
  fwVersion : Nat := 0
  fwDigest : List Byte := []
  bcrVersion : Nat := 0
  bcrDigest : List Byte := []
  /-- a trip whose erasure waits for the enclave to run (R425) -/
  eraseDue : Bool := false
  deriving DecidableEq, Repr

/-- An Ubholt command sent (R432, R433): code, authenticated, sequence, counter, payload, the frame's bytes, resends. -/
structure UbhCmd where
  code : Nat
  auth : Bool
  seq : Nat
  ctr : Nat
  payload : List Byte
  frame : List Byte
  tries : Nat
  /-- device time at which its bytes last left (R433) -/
  sentAt : Nat := 0
  deriving DecidableEq, Repr

/-- What an engine's Ubholt link keeps (R433 to R450). -/
structure Ubh where
  /-- the command outstanding, a TX_DISABLE outstanding beside it (R442), commands queued (code, payload) -/
  out : Option UbhCmd := none
  txd : Option UbhCmd := none
  queue : List (Nat × List Byte) := []
  seq : Nat := 0
  /-- session keys with their salts, device to engine and engine to device, and counters of the last frames -/
  session : Option (List Byte × List Byte) := none
  ctrTx : Nat := 0
  ctrRx : Nat := 0
  /-- certificate chain read so far, CERT_READ answered UNKNOWN, and nonce and private key of an AUTH -/
  chain : List Byte := []
  noCert : Bool := false
  nonce : List Byte := []
  priv : List Byte := []
  /-- the last STATUS or alert word shows a fault; life data mirrored since link-up; an alert read is due -/
  fault : Bool := false
  mirrored : Bool := false
  alertDue : Bool := false
  /-- a TX_DISABLE is owed although the link has gone down -/
  owed : Bool := false
  /-- BREAK is driven: UBH_CK stopped low (R431) -/
  brk : Bool := true
  /-- identity prefix at the loss of a link in RUNNING (R450) -/
  lostId : Option Nat := none
  /-- on_minutes and sequence number of the last mirror of each identity prefix in this power cycle (R445) -/
  life : Tbl (Nat × Nat) := []
  /-- device time at which a periodic command, by its code, was last issued: HELLO, STATUS, LIFE_READ (R439, R441, R445) -/
  issued : Tbl Nat := []
  deriving DecidableEq, Repr

/-- Synchronisation storage (15_synchronisation.md). -/
structure Syn where
  /-- DPLL frequency at each evaluation in LOCKED outside switches, newest first (R462), 10^-12 units -/
  hist : List Int := []
  /-- device time at which the present holdover began -/
  holdAt : Nat := 0
  /-- the state before TEST; inputs that failed or recovered during it (R461) -/
  before : Nat := 0
  waiting : List (Nat × Bool) := []
  /-- a SET_AT_PPS waits; an ADJUST runs: device time of its start, rate in ppm, offset in ns (R464) -/
  setWaits : Bool := false
  adjust : Option (Nat × Nat × Int) := none
  /-- an alignment has been made since PPS_IN appeared (R465) -/
  aligned : Bool := false
  /-- device time of the last rise of PPS_OUT while out_en was 1 (R466) -/
  ppsOut : Option Nat := none
  /-- the last ESMC PDU sent on each port: code, whether an event PDU, source address (R456) -/
  esmc : Tbl (Nat × Bool × Nat) := []
  /-- device times: the last evaluation (R459), information PDUs last sent (R456), a port's last valid PDU (R455), the end of each
  input's qualify or wait-to-restore time (R453), the last PPS_IN edge (R465) -/
  evalAt : Nat := 0
  infoAt : Nat := 0
  rxAt : Tbl Nat := []
  due : Tbl Nat := []
  edgeAt : Nat := 0
  /-- inputs whose offset has exceeded freq_lim and not fallen below 0.8 of it (R452) -/
  offBad : List Nat := []
  /-- REF_DISAGREE holds: device time of the last evaluation with an excess (R460) -/
  excessAt : Option Nat := none
  /-- the last switch: device time of its choice and Δ, ns (a free value); the phase stored as build-out (R463) -/
  switchAt : Nat := 0
  delta : Int := 0
  buildOut : Int := 0
  deriving DecidableEq, Repr

/-- A monitor chain (R490 to R495): the on-chip buffer by word; the key of the samples at its tap (a free value) and the device time
since which it has taken them; 64-byte units of the capture that preceded its trigger. -/
structure Mon where
  buffer : Tbl Nat := []
  key : Nat := 0
  since : Nat := 0
  pre : Nat := 0
  deriving DecidableEq, Repr

/-- A slice or sub-DAC (R503, R506): 0 IDLE, 1 CAL, 2 READY, 3 ACTIVE, 4 FAILED; marked faulty, counted out of the converter,
the pilot step has run, attempts failed, device times of its last calibration and since which it has been active, engine
temperature of that calibration. -/
structure RepUnit where
  st : Nat
  faulty : Bool := false
  lost : Bool := false
  pilot : Bool := false
  tries : Nat := 0
  calAt : Nat := 0
  since : Nat := 0
  calTemp : Int := 0
  deriving DecidableEq, Repr

/-- Repair-manager storage (17_calibration_and_repair.md): converter units that differ from their state at WAKE, by
((engine × 2 + DAC) × 4 + lane) × 128 + position; by the same keys live corrections in 1/4,800 of a field unit (gain, offset, skew) and working values
(lane settings under position 127: swing, peaking); converters that count units out keep them in the interleave (by key ÷ 128);
the state of its tests. -/
structure Rep where
  units : Tbl RepUnit := []
  live : Tbl (Int × Int × Int) := []
  work : Tbl (Int × Int × Int) := []
  kept : Tbl Bool := []
  /-- the monitor chains under test (R511), and the foreground calibration's kinds while it runs -/
  monTest : Tbl Bool := []
  fgKinds : Nat := 0
  /-- a REP_CMD DPLL self-test waits (R509); the pipe tested next; device time of the last test of a pool entry -/
  dpllDue : Bool := false
  nextPipe : Nat := 0
  pageAt : Tbl Nat := []
  /-- device time of the last swap of a converter, by key ÷ 128 (R505) -/
  swapAt : Tbl Nat := []
  /-- the working values in effect, by the keys of `work`: taken at the swap boundaries (R500) -/
  applied : Tbl (Int × Int × Int) := []
  /-- device times: an engine's last temperature reading (R500), a lane's last loop step by engine × 4 + lane (R508), when a periodic
  test is due: 0 pipe, 1 page, 2 DPLL, 16 + k Thermos channel k (R509) -/
  trimAt : Tbl Nat := []
  loopAt : Tbl Nat := []
  testDue : Tbl Nat := []
  deriving DecidableEq, Repr

/-- The event log (R519 to R524): entries in the staging sorter in order of arrival, the 1,024 places, entries written by page
since the log was emptied, the stamp written last, whether the next entry carries gap, whether EVL_WRAP has risen since
EVL_TAIL was last written. -/
structure EvLog where
  sorter : List LogEntry := []
  slots : Tbl LogEntry := []
  seqs : Tbl Nat := []
  last : Option Nat := none
  gap : Bool := false
  wrapped : Bool := false
  deriving DecidableEq, Repr

/-- Counters and freezes (R529 to R536): device time up to which the counters have counted, low words staged, pages held by
PAGE_CTRL.freeze and the global freeze, the values they hold and what reads have taken of them by field, the instant of a
snapshot of the 512 counters, the device time at which page 0xD3 has held its snapshot source. -/
structure Cnt where
  takenAt : Nat := 0
  stagedLo : Tbl Nat := []
  pages : Tbl Bool := []
  frozen : Bool := false
  held : Tbl Nat := []
  owed : Tbl Nat := []
  snapAt : Nat := 0
  heldTime : Nat := 0
  deriving DecidableEq, Repr

/-- The sampler (R538 to R541): countdown last loaded and units in flight (ingress time, port) by path; record words. -/
structure Smp where
  countdown : Tbl Nat := []
  /-- bytes of the CBR block under way, by path × 32 + port -/
  part : Tbl Nat := []
  flight : Tbl (List (Nat × Nat)) := []
  words : Tbl Nat := []
  deriving DecidableEq, Repr

/-- Thermos storage (R475 to R482): the result queue (tag, sequence, flags, raw), the next sequence number, the channels whose
filter has accepted a result since they were enabled, those whose staged configuration was last written seal-guarded, the
tags the running sequence has still to convert, whether a window of the conversion under way ran without REF_READY, whether
a calibration has passed and whether the first REF_READY is still to come since VAON power-on. -/
structure Thm where
  queue : List (Nat × Nat × Nat × Nat) := []
  seq : Nat := 0
  accepted : Tbl Bool := []
  sealOk : Tbl Bool := []
  todo : List Nat := []
  gap : Bool := false
  passed : Bool := false
  first : Bool := true
  /-- device times: the last trigger of the period timer or the COMMIT that set it (R477), ref_en set (R478), the start of the
  conversion under way and of the calibration (R475, R479), the last evaluation of the 1 ms sources (R483) -/
  timerAt : Nat := 0
  refAt : Nat := 0
  convAt : Nat := 0
  calAt : Nat := 0
  tickAt : Nat := 0
  deriving DecidableEq, Repr

/-- A rule-log entry (R488): the words of HMP_LOG_0 to HMP_LOG_3 and whether it still awaits delivery to the event log. -/
structure RuleLog where
  w0 : Nat
  f : Nat
  time : Nat
  waits : Bool
  deriving DecidableEq, Repr

/-- The SPI front end (R561): the words the last READ returned, and whether the last access caused a fabric error. -/
structure Spi where
  words : List Nat := []
  err : Bool := false
  deriving DecidableEq, Repr

/-- What one line engine holds behind its registers. -/
structure Engine where
  tx : Tx := {}
  rx : Rx := {}
  fec : Fec := {}
  glf : Glf := {}
  p2mp : P2mp := {}
  ubh : Ubh := {}
  mon : Mon := {}
  deriving DecidableEq, Repr


/-- The whole block. -/
structure State where
  /-- commands waiting, first in first out -/
  pending : List Instr := []
  /-- device time, ns (R12, R125) -/
  time : BitVec 64 := 0
  /-- how many free values have been drawn (the model's own) -/
  drawn : Nat := 0
  /-- register fields that are not RWS, by bit address -/
  fields : Tbl Nat := []
  /-- staged values of RWS fields (R17) -/
  staged : Tbl Nat := []
  /-- the commit buffer: the set each commit domain has taken at its last go or check (R58) -/
  buffer : Tbl Nat := []
  /-- RWS values in force (R58) -/
  inForce : Tbl Nat := []
  ev : Events := {}
  fab : Fabric := {}
  dev : Dev := {}
  le0 : Engine := {}
  le1 : Engine := {}
  lanes : HostPorts := {}
  cls : Cls := {}
  buf : Buf := {}
  grp : Tbl GrpSt := []
  cip : Cip := {}
  enc : Enc := {}
  syn : Syn := {}
  rep : Rep := {}
  evl : EvLog := {}
  cnt : Cnt := {}
  smp : Smp := {}
  thm : Thm := {}
  hmpLog : List RuleLog := []
  spi : Spi := {}
  deriving DecidableEq, Repr

/-- The machine right after reset: VAON power-on and the release of PORST_N have begun the first WAKE (R91, R98 to R101), whose boot
is still to run; every field is at the reset value of its table, and DEV_PAGE_ROUTE.to_alarm is 1 for pages 0xE0 and 0xFC (R85). -/
def State.reset : State := { fields := [(0x1780 * 8 + 10, 1), (0x17F0 * 8 + 10, 1)] }

end Sys2Proof.Machine
end

