-- ==== Sys2Proof/Machine/Fields.lean ====
section
/-! DEFINITION. The named register fields the meanings use: each is the bit address in BAR0 of its lowest bit
(8 bits an address), its width and its reset value, from the field tables of spec/ (the docstring names file and rule).
Indices count the repeated instances (engine first). -/
namespace Sys2Proof.Machine

/-- R53: a field of the common header of page `p`, at byte offset `off`, bit `lo`. -/
def hdr (p off lo width reset : Nat) : Field := { key := (p * 0x1000 + off) * 8 + lo, width := width, reset := reset }

/-- R53 -/ def F.PAGE_CTRL_commit_sync (p : Nat) : Field := hdr p 0x008 3 1 0
/-- R53 -/ def F.PAGE_CTRL_freeze (p : Nat) : Field := hdr p 0x008 2 1 0
/-- R53 -/ def F.PAGE_CTRL_enable (p : Nat) : Field := hdr p 0x008 0 1 1
/-- R53 -/ def F.PAGE_STAT_commit_reason (p : Nat) : Field := hdr p 0x00C 16 8 0
/-- R53 -/ def F.PAGE_STAT_commit_err (p : Nat) : Field := hdr p 0x00C 15 1 0
/-- R53 -/ def F.PAGE_STAT_commit_pending (p : Nat) : Field := hdr p 0x00C 14 1 0
/-- R53 -/ def F.PAGE_STAT_commit_armed (p : Nat) : Field := hdr p 0x00C 13 1 0
/-- R53 -/ def F.PAGE_STAT_snap_busy (p : Nat) : Field := hdr p 0x00C 11 1 0
/-- R53 -/ def F.EVT_RAW (p : Nat) : Field := hdr p 0x010 0 32 0
/-- R53 -/ def F.EVT_STICKY (p : Nat) : Field := hdr p 0x014 0 32 0
/-- R53 -/ def F.EVT_EN (p : Nat) : Field := hdr p 0x018 0 32 0
/-- R53 -/ def F.COMMIT_seq (p : Nat) : Field := hdr p 0x020 8 8 0
/-- R67: the owning master's code, 0 when the page's LOCK is free. -/ def F.LOCK_owner (p : Nat) : Field := hdr p 0x024 0 4 0
/-- R55 -/ def F.ERR_valid (p : Nat) : Field := hdr p 0x028 31 1 0
/-- R55 -/ def F.ERR_lost (p : Nat) : Field := hdr p 0x028 30 1 0
/-- R55 -/ def F.ERR_step (p : Nat) : Field := hdr p 0x028 8 8 0
/-- R55 -/ def F.ERR_code (p : Nat) : Field := hdr p 0x028 0 8 0
/-- R83 -/ def F.SNAP_seq (p : Nat) : Field := hdr p 0x02C 8 8 0


/-! spec/01_architecture.md -/
/-- R30 -/ def F.LE_ROLE_line_mode (i : Nat) : Field := { key := (0x10040 + 0x40000 * i) * 8 + 12, width := 4, reset := 0x0 }
/-- R30 -/ def F.LE_ROLE_single_fibre (i : Nat) : Field := { key := (0x10040 + 0x40000 * i) * 8 + 8, width := 1, reset := 0x0 }
/-- R30 -/ def F.LE_ROLE_role (i : Nat) : Field := { key := (0x10040 + 0x40000 * i) * 8 + 0, width := 3, reset := 0x0 }
/-- R31 -/ def F.LE_ROLE_STAT_run_state (i : Nat) : Field := { key := (0x10044 + 0x40000 * i) * 8 + 18, width := 2, reset := 0x0 }
/-- R31 -/ def F.LE_ROLE_STAT_line_mode_active (i : Nat) : Field := { key := (0x10044 + 0x40000 * i) * 8 + 12, width := 4, reset := 0x0 }
/-- R31 -/ def F.LE_ROLE_STAT_single_fibre_active (i : Nat) : Field := { key := (0x10044 + 0x40000 * i) * 8 + 8, width := 1, reset := 0x0 }
/-- R31 -/ def F.LE_ROLE_STAT_start_step (i : Nat) : Field := { key := (0x10044 + 0x40000 * i) * 8 + 3, width := 5, reset := 0x0 }
/-- R31 -/ def F.LE_ROLE_STAT_role_active (i : Nat) : Field := { key := (0x10044 + 0x40000 * i) * 8 + 0, width := 3, reset := 0x0 }

/-! spec/02_register_fabric.md -/
/-- R64 -/ def F.DEV_COMMIT_SYNC_sync_seq : Field := { key := 0x60 * 8 + 8, width := 8, reset := 0x0 }
/-- R85 -/ def F.DEV_PAGE_ROUTE_to_alarm (i : Nat) : Field := { key := (0x1400 + 0x4 * i) * 8 + 10, width := 1, reset := 0x0 }
/-- R85 -/ def F.DEV_PAGE_ROUTE_to_irq (i : Nat) : Field := { key := (0x1400 + 0x4 * i) * 8 + 9, width := 1, reset := 0x0 }
/-- R85 -/ def F.DEV_PAGE_ROUTE_to_msix (i : Nat) : Field := { key := (0x1400 + 0x4 * i) * 8 + 8, width := 1, reset := 0x0 }
/-- R85 -/ def F.DEV_PAGE_ROUTE_vector (i : Nat) : Field := { key := (0x1400 + 0x4 * i) * 8 + 0, width := 6, reset := 0x0 }
/-- R89 -/ def F.FAB_ERR_CNT_count : Field := { key := 0x7040 * 8 + 0, width := 32, reset := 0x0 }
/-- R89 -/ def F.FAB_ERR_LAST_ADDR_addr : Field := { key := 0x7044 * 8 + 0, width := 32, reset := 0x0 }
/-- R89 -/ def F.FAB_ERR_LAST_INFO_reason : Field := { key := 0x7048 * 8 + 8, width := 4, reset := 0x0 }
/-- R89 -/ def F.FAB_ERR_LAST_INFO_master : Field := { key := 0x7048 * 8 + 0, width := 4, reset := 0x0 }
/-- R69 -/ def F.LOCKN_owner (i : Nat) : Field := { key := (0x8040 + 0x4 * i) * 8 + 0, width := 4, reset := 0x0 }
/-- R67 -/ def F.LOCK_ERR_last_page : Field := { key := 0x8140 * 8 + 24, width := 8, reset := 0x0 }
/-- R67 -/ def F.LOCK_ERR_last_index : Field := { key := 0x8140 * 8 + 18, width := 6, reset := 0x0 }
/-- R67 -/ def F.LOCK_ERR_last_master : Field := { key := 0x8140 * 8 + 14, width := 4, reset := 0x0 }
/-- R67 -/ def F.LOCK_ERR_count : Field := { key := 0x8140 * 8 + 0, width := 14, reset := 0x0 }
/-- R69 -/ def F.LOCK_ORPHAN_last_master : Field := { key := 0x8144 * 8 + 16, width := 4, reset := 0x0 }
/-- R69 -/ def F.LOCK_ORPHAN_count : Field := { key := 0x8144 * 8 + 0, width := 16, reset := 0x0 }
/-- R71 -/ def F.MBX_STAT_overrun (i : Nat) : Field := { key := (0x9048 + 0x20 * i) * 8 + 17, width := 1, reset := 0x0 }
/-- R71 -/ def F.MBX_STAT_timeout (i : Nat) : Field := { key := (0x9048 + 0x20 * i) * 8 + 16, width := 1, reset := 0x0 }
/-- R71 -/ def F.MBX_STAT_discarded (i : Nat) : Field := { key := (0x9048 + 0x20 * i) * 8 + 15, width := 1, reset := 0x0 }
/-- R71 -/ def F.MBX_STAT_rx_in_reset (i : Nat) : Field := { key := (0x9048 + 0x20 * i) * 8 + 14, width := 1, reset := 0x0 }
/-- R71 -/ def F.MBX_STAT_discard_cnt (i : Nat) : Field := { key := (0x9048 + 0x20 * i) * 8 + 0, width := 8, reset := 0x0 }
/-- R71 -/ def F.MBX_CFG_timeout_us (i : Nat) : Field := { key := (0x904C + 0x20 * i) * 8 + 0, width := 20, reset := 0x186A0 }
/-- R82 -/ def F.XS_RESYNC_LO_bits : Field := { key := 0xA048 * 8 + 0, width := 32, reset := 0x0 }
/-- R82 -/ def F.XS_RESYNC_HI_bits : Field := { key := 0xA04C * 8 + 0, width := 32, reset := 0x0 }
/-- R82 -/ def F.XS_PULSE_SAT_LO_bits : Field := { key := 0xA050 * 8 + 0, width := 32, reset := 0x0 }
/-- R82 -/ def F.XS_PULSE_SAT_HI_bits : Field := { key := 0xA054 * 8 + 0, width := 32, reset := 0x0 }
/-- R82 -/ def F.XS_DROP_CNT_count : Field := { key := 0xA058 * 8 + 0, width := 32, reset := 0x0 }

/-! spec/03_modes_and_startup.md -/
/-- R98 -/ def F.DEV_MODE_transition : Field := { key := 0x40 * 8 + 31, width := 1, reset := 0x1 }
/-- R98 -/ def F.DEV_MODE_req_result : Field := { key := 0x40 * 8 + 24, width := 4, reset := 0x0 }
/-- R98 -/ def F.DEV_MODE_mode_prev : Field := { key := 0x40 * 8 + 20, width := 4, reset := 0x0 }
/-- R98 -/ def F.DEV_MODE_mode : Field := { key := 0x40 * 8 + 16, width := 4, reset := 0x1 }
/-- R98 -/ def F.DEV_MODE_maint_le1 : Field := { key := 0x40 * 8 + 9, width := 1, reset := 0x0 }
/-- R98 -/ def F.DEV_MODE_maint_le0 : Field := { key := 0x40 * 8 + 8, width := 1, reset := 0x0 }
/-- R99 -/ def F.DEV_STATUS_cfg_default : Field := { key := 0x44 * 8 + 31, width := 1, reset := 0x0 }
/-- R99 -/ def F.DEV_STATUS_fw_none : Field := { key := 0x44 * 8 + 30, width := 1, reset := 0x0 }
/-- R99 -/ def F.DEV_STATUS_fw_slot : Field := { key := 0x44 * 8 + 29, width := 1, reset := 0x0 }
/-- R99 -/ def F.DEV_STATUS_spares_exhausted : Field := { key := 0x44 * 8 + 28, width := 1, reset := 0x0 }
/-- R99 -/ def F.DEV_STATUS_tamper_latched : Field := { key := 0x44 * 8 + 27, width := 1, reset := 0x0 }
/-- R99 -/ def F.DEV_STATUS_zeroise_record : Field := { key := 0x44 * 8 + 26, width := 1, reset := 0x0 }
/-- R99 -/ def F.DEV_STATUS_refclk_ok : Field := { key := 0x44 * 8 + 25, width := 1, reset := 0x0 }
/-- R99 -/ def F.DEV_STATUS_aon_xtal_lock : Field := { key := 0x44 * 8 + 24, width := 1, reset := 0x0 }
/-- R99 -/ def F.DEV_STATUS_mem_trained : Field := { key := 0x44 * 8 + 23, width := 1, reset := 0x0 }
/-- R99 -/ def F.DEV_STATUS_thm_cal_done : Field := { key := 0x44 * 8 + 22, width := 1, reset := 0x0 }
/-- R99 -/ def F.DEV_STATUS_bcr_applied : Field := { key := 0x44 * 8 + 21, width := 1, reset := 0x0 }
/-- R99 -/ def F.DEV_STATUS_service_op : Field := { key := 0x44 * 8 + 20, width := 1, reset := 0x0 }
/-- R99 -/ def F.DEV_STATUS_bcr_fail : Field := { key := 0x44 * 8 + 16, width := 4, reset := 0x0 }
/-- R99 -/ def F.DEV_STATUS_fw_sec_version : Field := { key := 0x44 * 8 + 8, width := 8, reset := 0x0 }
/-- R99 -/ def F.DEV_STATUS_rollback_count : Field := { key := 0x44 * 8 + 0, width := 8, reset := 0x0 }
/-- R100 -/ def F.DEV_WAKE_SRC_rule : Field := { key := 0x48 * 8 + 8, width := 5, reset := 0x0 }
/-- R100 -/ def F.DEV_WAKE_SRC_source : Field := { key := 0x48 * 8 + 0, width := 4, reset := 0x0 }
/-- R101 -/ def F.DEV_RESET_CAUSE_vaon_por : Field := { key := 0x4C * 8 + 7, width := 1, reset := 0x1 }
/-- R101 -/ def F.DEV_RESET_CAUSE_porst : Field := { key := 0x4C * 8 + 6, width := 1, reset := 0x0 }
/-- R101 -/ def F.DEV_RESET_CAUSE_reset_cmd : Field := { key := 0x4C * 8 + 5, width := 1, reset := 0x0 }
/-- R101 -/ def F.DEV_RESET_CAUSE_safe_cmd : Field := { key := 0x4C * 8 + 4, width := 1, reset := 0x0 }
/-- R101 -/ def F.DEV_RESET_CAUSE_enclave_fault : Field := { key := 0x4C * 8 + 3, width := 1, reset := 0x0 }
/-- R101 -/ def F.DEV_RESET_CAUSE_dormant_exit : Field := { key := 0x4C * 8 + 2, width := 1, reset := 0x0 }
/-- R101 -/ def F.DEV_RESET_CAUSE_reprovision : Field := { key := 0x4C * 8 + 1, width := 1, reset := 0x0 }
/-- R120 -/ def F.DEV_BCR_STAT_apply_err : Field := { key := 0x50 * 8 + 31, width := 1, reset := 0x0 }
/-- R120 -/ def F.DEV_BCR_STAT_entry : Field := { key := 0x50 * 8 + 16, width := 13, reset := 0x0 }
/-- R120 -/ def F.DEV_BCR_STAT_reason : Field := { key := 0x50 * 8 + 8, width := 8, reset := 0x0 }
/-- R120 -/ def F.DEV_BCR_STAT_sequence : Field := { key := 0x50 * 8 + 0, width := 8, reset := 0x0 }
/-- R124 -/ def F.HMP_WAKE_EN_spi_any : Field := { key := 0xE0040 * 8 + 2, width := 1, reset := 0x0 }
/-- R124 -/ def F.HMP_WAKE_EN_spi_req : Field := { key := 0xE0040 * 8 + 1, width := 1, reset := 0x1 }
/-- R124 -/ def F.HMP_WAKE_EN_wake_n : Field := { key := 0xE0040 * 8 + 0, width := 1, reset := 0x1 }

/-! spec/04_line_transmit.md -/
/-- R130 -/ def F.LE_TX_PLAN_fec_oh (i : Nat) : Field := { key := (0x14040 + 0x40000 * i) * 8 + 30, width := 2, reset := 0x1 }
/-- R130 -/ def F.LE_TX_PLAN_sc_count (i : Nat) : Field := { key := (0x14040 + 0x40000 * i) * 8 + 26, width := 3, reset := 0x0 }
/-- R130 -/ def F.LE_TX_PLAN_modulation (i : Nat) : Field := { key := (0x14040 + 0x40000 * i) * 8 + 23, width := 3, reset := 0x2 }
/-- R130 -/ def F.LE_TX_PLAN_entropy (i : Nat) : Field := { key := (0x14040 + 0x40000 * i) * 8 + 15, width := 8, reset := 0x80 }
/-- R130 -/ def F.LE_TX_PLAN_baud (i : Nat) : Field := { key := (0x14040 + 0x40000 * i) * 8 + 0, width := 11, reset := 0x1E0 }
/-- R131 -/ def F.LE_TX_SHAPE_timed_change (i : Nat) : Field := { key := (0x14044 + 0x40000 * i) * 8 + 31, width := 1, reset := 0x0 }
/-- R131 -/ def F.LE_TX_SHAPE_pilot_boost (i : Nat) : Field := { key := (0x14044 + 0x40000 * i) * 8 + 8, width := 4, reset := 0x0 }
/-- R131 -/ def F.LE_TX_SHAPE_rolloff (i : Nat) : Field := { key := (0x14044 + 0x40000 * i) * 8 + 0, width := 8, reset := 0xA }
/-- R132 -/ def F.LE_TX_PLAN_AT_frame (i : Nat) : Field := { key := (0x14048 + 0x40000 * i) * 8 + 0, width := 32, reset := 0x0 }
/-- R132 -/ def F.LE_TX_SC_EN_en (i : Nat) : Field := { key := (0x1404C + 0x40000 * i) * 8 + 0, width := 32, reset := 0xFFFFFFFF }
/-- R133 -/ def F.LE_TX_SC_GAIN_gain (i j : Nat) : Field := { key := (0x14080 + 0x40000 * i + 0x4 * j) * 8 + 0, width := 9, reset := 0x0 }
/-- R134 -/ def F.LE_TX_PLAN_STAT_reload_busy (i : Nat) : Field := { key := (0x14050 + 0x40000 * i) * 8 + 31, width := 1, reset := 0x0 }
/-- R134 -/ def F.LE_TX_PLAN_STAT_timed_pending (i : Nat) : Field := { key := (0x14050 + 0x40000 * i) * 8 + 30, width := 1, reset := 0x0 }
/-- R134 -/ def F.LE_TX_PLAN_STAT_sc_enabled (i : Nat) : Field := { key := (0x14050 + 0x40000 * i) * 8 + 24, width := 6, reset := 0x0 }
/-- R134 -/ def F.LE_TX_PLAN_STAT_entropy_active (i : Nat) : Field := { key := (0x14050 + 0x40000 * i) * 8 + 16, width := 8, reset := 0x0 }
/-- R134 -/ def F.LE_TX_PLAN_STAT_modulation_active (i : Nat) : Field := { key := (0x14050 + 0x40000 * i) * 8 + 12, width := 3, reset := 0x0 }
/-- R134 -/ def F.LE_TX_PLAN_STAT_baud_active (i : Nat) : Field := { key := (0x14050 + 0x40000 * i) * 8 + 0, width := 11, reset := 0x0 }
/-- R134 -/ def F.LE_TX_CODED_RATE_rate (i : Nat) : Field := { key := (0x14054 + 0x40000 * i) * 8 + 0, width := 20, reset := 0x0 }
/-- R134 -/ def F.LE_TX_NET_RATE_rate (i : Nat) : Field := { key := (0x14058 + 0x40000 * i) * 8 + 0, width := 20, reset := 0x0 }
/-- R134 -/ def F.LE_TX_BAUD_MAX_baud (i : Nat) : Field := { key := (0x1405C + 0x40000 * i) * 8 + 0, width := 11, reset := 0x460 }
/-- R143 -/ def F.LE_TX_SHAPE_GAIN_gain (i j : Nat) : Field := { key := (0x15200 + 0x40000 * i + 0x4 * j) * 8 + 0, width := 10, reset := 0x0 }
/-- R145 -/ def F.LE_TX_MASK_LIMIT_limits (i j : Nat) : Field := { key := (0x15100 + 0x40000 * i + 0x4 * j) * 8 + 0, width := 32, reset := 0xFFFFFFFF }
/-- R146 -/ def F.LE_TX_MASK_CTRL_persist (i : Nat) : Field := { key := (0x15040 + 0x40000 * i) * 8 + 4, width := 8, reset := 0x3 }
/-- R146 -/ def F.LE_TX_MASK_CTRL_action (i : Nat) : Field := { key := (0x15040 + 0x40000 * i) * 8 + 0, width := 2, reset := 0x1 }
/-- R146 -/ def F.LE_TX_MASK_STAT_violation (i : Nat) : Field := { key := (0x15044 + 0x40000 * i) * 8 + 31, width := 1, reset := 0x0 }
/-- R146 -/ def F.LE_TX_MASK_STAT_muted (i : Nat) : Field := { key := (0x15044 + 0x40000 * i) * 8 + 30, width := 1, reset := 0x0 }
/-- R146 -/ def F.LE_TX_MASK_STAT_worst_bin (i : Nat) : Field := { key := (0x15044 + 0x40000 * i) * 8 + 18, width := 8, reset := 0x0 }
/-- R146 -/ def F.LE_TX_MASK_STAT_worst_excess (i : Nat) : Field := { key := (0x15044 + 0x40000 * i) * 8 + 9, width := 9, reset := 0x0 }
/-- R146 -/ def F.LE_TX_MASK_STAT_bins_over (i : Nat) : Field := { key := (0x15044 + 0x40000 * i) * 8 + 0, width := 9, reset := 0x0 }
/-- R146 -/ def F.LE_TX_MASK_MUTED_muted (i : Nat) : Field := { key := (0x15048 + 0x40000 * i) * 8 + 0, width := 32, reset := 0x0 }
/-- R146 -/ def F.LE_TX_MASK_VIOL_CNT_count (i : Nat) : Field := { key := (0x1504C + 0x40000 * i) * 8 + 0, width := 32, reset := 0x0 }
/-- R148 -/ def F.LE_TX_LANE_GAIN_gain (i j : Nat) : Field := { key := (0x16040 + 0x40000 * i + 0x10 * j) * 8 + 0, width := 11, reset := 0x0 }
/-- R148 -/ def F.LE_TX_LANE_SKEW_skew (i j : Nat) : Field := { key := (0x16044 + 0x40000 * i + 0x10 * j) * 8 + 0, width := 13, reset := 0x0 }
/-- R148 -/ def F.LE_TX_CLIP_CNT_count (i j : Nat) : Field := { key := (0x16048 + 0x40000 * i + 0x10 * j) * 8 + 0, width := 32, reset := 0x0 }
/-- R148 -/ def F.LE_TX_IQ_PHASE_X_phase (i : Nat) : Field := { key := (0x16080 + 0x40000 * i) * 8 + 0, width := 11, reset := 0x0 }
/-- R148 -/ def F.LE_TX_IQ_PHASE_Y_phase (i : Nat) : Field := { key := (0x16084 + 0x40000 * i) * 8 + 0, width := 11, reset := 0x0 }
/-- R149 -/ def F.LE_TX_PREEMP_gain (i j k : Nat) : Field := { key := (0x16100 + 0x40000 * i + 0x80 * j + 0x4 * k) * 8 + 0, width := 10, reset := 0x0 }
/-- R150 -/ def F.LE_TX_CLIP_backoff (i : Nat) : Field := { key := (0x16088 + 0x40000 * i) * 8 + 0, width := 8, reset := 0x64 }
/-- R151 -/ def F.LE_TX_DAC_MAP_in_use (i j : Nat) : Field := { key := (0x16300 + 0x40000 * i + 0x4 * j) * 8 + 16, width := 6, reset := 0x20 }
/-- R151 -/ def F.LE_TX_DAC_MAP_spare_b (i j : Nat) : Field := { key := (0x16300 + 0x40000 * i + 0x4 * j) * 8 + 8, width := 6, reset := 0x21 }
/-- R151 -/ def F.LE_TX_DAC_MAP_spare_a (i j : Nat) : Field := { key := (0x16300 + 0x40000 * i + 0x4 * j) * 8 + 0, width := 6, reset := 0x20 }
/-- R158 -/ def F.LE_TX_ENV_CTRL_env_mode (i : Nat) : Field := { key := (0x17040 + 0x40000 * i) * 8 + 24, width := 2, reset := 0x0 }
/-- R158 -/ def F.LE_TX_ENV_CTRL_shape (i : Nat) : Field := { key := (0x17040 + 0x40000 * i) * 8 + 20, width := 1, reset := 0x0 }
/-- R158 -/ def F.LE_TX_ENV_CTRL_v_on (i : Nat) : Field := { key := (0x17040 + 0x40000 * i) * 8 + 10, width := 10, reset := 0x3FF }
/-- R158 -/ def F.LE_TX_ENV_CTRL_v_off (i : Nat) : Field := { key := (0x17040 + 0x40000 * i) * 8 + 0, width := 10, reset := 0x0 }
/-- R158 -/ def F.LE_TX_ENV_TIME_t_lag (i : Nat) : Field := { key := (0x17044 + 0x40000 * i) * 8 + 24, width := 8, reset := 0x0 }
/-- R158 -/ def F.LE_TX_ENV_TIME_t_lead (i : Nat) : Field := { key := (0x17044 + 0x40000 * i) * 8 + 16, width := 8, reset := 0x14 }
/-- R158 -/ def F.LE_TX_ENV_TIME_t_down (i : Nat) : Field := { key := (0x17044 + 0x40000 * i) * 8 + 8, width := 8, reset := 0xA }
/-- R158 -/ def F.LE_TX_ENV_TIME_t_up (i : Nat) : Field := { key := (0x17044 + 0x40000 * i) * 8 + 0, width := 8, reset := 0xA }
/-- R158 -/ def F.LE_TX_ENV_STAT_above (i : Nat) : Field := { key := (0x17048 + 0x40000 * i) * 8 + 31, width := 1, reset := 0x0 }
/-- R158 -/ def F.LE_TX_ENV_MERGE_CNT_count (i : Nat) : Field := { key := (0x1704C + 0x40000 * i) * 8 + 0, width := 32, reset := 0x0 }

/-! spec/05_line_receive.md -/
/-- R164 -/ def F.LE_RX_PLAN_fec_oh (i : Nat) : Field := { key := (0x18040 + 0x40000 * i) * 8 + 30, width := 2, reset := 0x1 }
/-- R164 -/ def F.LE_RX_PLAN_sc_count (i : Nat) : Field := { key := (0x18040 + 0x40000 * i) * 8 + 26, width := 3, reset := 0x0 }
/-- R164 -/ def F.LE_RX_PLAN_modulation (i : Nat) : Field := { key := (0x18040 + 0x40000 * i) * 8 + 23, width := 3, reset := 0x2 }
/-- R164 -/ def F.LE_RX_PLAN_entropy (i : Nat) : Field := { key := (0x18040 + 0x40000 * i) * 8 + 15, width := 8, reset := 0x80 }
/-- R164 -/ def F.LE_RX_PLAN_follow (i : Nat) : Field := { key := (0x18040 + 0x40000 * i) * 8 + 14, width := 1, reset := 0x1 }
/-- R164 -/ def F.LE_RX_PLAN_baud (i : Nat) : Field := { key := (0x18040 + 0x40000 * i) * 8 + 0, width := 11, reset := 0x1E0 }
/-- R164 -/ def F.LE_RX_SC_EN_en (i : Nat) : Field := { key := (0x18044 + 0x40000 * i) * 8 + 0, width := 32, reset := 0xFFFFFFFF }
/-- R165 -/ def F.LE_RX_PLAN_STAT_follow_pending (i : Nat) : Field := { key := (0x18048 + 0x40000 * i) * 8 + 31, width := 1, reset := 0x0 }
/-- R165 -/ def F.LE_RX_PLAN_STAT_spectral_inv (i : Nat) : Field := { key := (0x18048 + 0x40000 * i) * 8 + 30, width := 1, reset := 0x0 }
/-- R165 -/ def F.LE_RX_PLAN_STAT_sc_locked (i : Nat) : Field := { key := (0x18048 + 0x40000 * i) * 8 + 24, width := 6, reset := 0x0 }
/-- R165 -/ def F.LE_RX_PLAN_STAT_entropy_active (i : Nat) : Field := { key := (0x18048 + 0x40000 * i) * 8 + 16, width := 8, reset := 0x0 }
/-- R165 -/ def F.LE_RX_PLAN_STAT_modulation_active (i : Nat) : Field := { key := (0x18048 + 0x40000 * i) * 8 + 12, width := 3, reset := 0x0 }
/-- R165 -/ def F.LE_RX_PLAN_STAT_baud_active (i : Nat) : Field := { key := (0x18048 + 0x40000 * i) * 8 + 0, width := 11, reset := 0x0 }
/-- R165 -/ def F.LE_RX_FOLLOW_AT_frame (i : Nat) : Field := { key := (0x1804C + 0x40000 * i) * 8 + 0, width := 32, reset := 0x0 }
/-- R165 -/ def F.LE_RX_FOLLOW_STAT_entropy_announced (i : Nat) : Field := { key := (0x18050 + 0x40000 * i) * 8 + 16, width := 8, reset := 0x0 }
/-- R165 -/ def F.LE_RX_FOLLOW_STAT_follows_lost (i : Nat) : Field := { key := (0x18050 + 0x40000 * i) * 8 + 8, width := 8, reset := 0x0 }
/-- R165 -/ def F.LE_RX_FOLLOW_STAT_follows_applied (i : Nat) : Field := { key := (0x18050 + 0x40000 * i) * 8 + 0, width := 8, reset := 0x0 }
/-- R165 -/ def F.LE_RX_BAUD_MAX_baud (i : Nat) : Field := { key := (0x18054 + 0x40000 * i) * 8 + 0, width := 11, reset := 0x460 }
/-- R165 -/ def F.LE_RX_STATE_acquisitions (i : Nat) : Field := { key := (0x18058 + 0x40000 * i) * 8 + 16, width := 16, reset := 0x0 }
/-- R165 -/ def F.LE_RX_STATE_lol_raw (i : Nat) : Field := { key := (0x18058 + 0x40000 * i) * 8 + 9, width := 1, reset := 0x1 }
/-- R165 -/ def F.LE_RX_STATE_los_raw (i : Nat) : Field := { key := (0x18058 + 0x40000 * i) * 8 + 8, width := 1, reset := 0x0 }
/-- R165 -/ def F.LE_RX_STATE_state (i : Nat) : Field := { key := (0x18058 + 0x40000 * i) * 8 + 0, width := 3, reset := 0x0 }
/-- R165 -/ def F.LE_RX_SC_LOCK_lock (i : Nat) : Field := { key := (0x1805C + 0x40000 * i) * 8 + 0, width := 32, reset := 0x0 }
/-- R165 -/ def F.LE_RX_SC_LOCK_LOST_lost (i : Nat) : Field := { key := (0x18060 + 0x40000 * i) * 8 + 0, width := 32, reset := 0x0 }
/-- R173 -/ def F.LE_RX_LOS_CTRL_los_opt (i : Nat) : Field := { key := (0x18064 + 0x40000 * i) * 8 + 8, width := 1, reset := 0x1 }
/-- R173 -/ def F.LE_RX_LOS_CTRL_los_level (i : Nat) : Field := { key := (0x18064 + 0x40000 * i) * 8 + 0, width := 8, reset := 0x50 }
/-- R177 -/ def F.LE_RX_ADC_MAP_in_use (i j : Nat) : Field := { key := (0x19040 + 0x40000 * i + 0x8 * j) * 8 + 24, width := 7, reset := 0x0 }
/-- R177 -/ def F.LE_RX_ADC_MAP_spares (i j : Nat) : Field := { key := (0x19040 + 0x40000 * i + 0x8 * j) * 8 + 16, width := 3, reset := 0x0 }
/-- R177 -/ def F.LE_RX_ADC_MAP_calibrating (i j : Nat) : Field := { key := (0x19040 + 0x40000 * i + 0x8 * j) * 8 + 0, width := 7, reset := 0x7F }
/-- R177 -/ def F.LE_RX_ADC_SPARE_spare3 (i j : Nat) : Field := { key := (0x19044 + 0x40000 * i + 0x8 * j) * 8 + 24, width := 7, reset := 0x7F }
/-- R177 -/ def F.LE_RX_ADC_SPARE_spare2 (i j : Nat) : Field := { key := (0x19044 + 0x40000 * i + 0x8 * j) * 8 + 16, width := 7, reset := 0x7F }
/-- R177 -/ def F.LE_RX_ADC_SPARE_spare1 (i j : Nat) : Field := { key := (0x19044 + 0x40000 * i + 0x8 * j) * 8 + 8, width := 7, reset := 0x7F }
/-- R177 -/ def F.LE_RX_ADC_SPARE_spare0 (i j : Nat) : Field := { key := (0x19044 + 0x40000 * i + 0x8 * j) * 8 + 0, width := 7, reset := 0x7F }
/-- R177 -/ def F.LE_RX_ADC_ROT_CNT_count (i : Nat) : Field := { key := (0x19060 + 0x40000 * i) * 8 + 0, width := 32, reset := 0x0 }
/-- R177 -/ def F.LE_RX_ADC_REP_CNT_count (i : Nat) : Field := { key := (0x19064 + 0x40000 * i) * 8 + 0, width := 32, reset := 0x0 }
/-- R177 -/ def F.LE_RX_ADC_OVR_count (i j : Nat) : Field := { key := (0x19100 + 0x40000 * i + 0x4 * j) * 8 + 0, width := 32, reset := 0x0 }
/-- R178 -/ def F.LE_RX_FE_CTRL_rolloff_eq (i : Nat) : Field := { key := (0x19080 + 0x40000 * i) * 8 + 2, width := 1, reset := 0x1 }
/-- R178 -/ def F.LE_RX_FE_CTRL_dc_remove (i : Nat) : Field := { key := (0x19080 + 0x40000 * i) * 8 + 1, width := 1, reset := 0x1 }
/-- R178 -/ def F.LE_RX_FE_CTRL_auto_iq (i : Nat) : Field := { key := (0x19080 + 0x40000 * i) * 8 + 0, width := 1, reset := 0x1 }
/-- R178 -/ def F.LE_RX_LANE_SKEW_skew (i j : Nat) : Field := { key := (0x190A0 + 0x40000 * i + 0x4 * j) * 8 + 0, width := 13, reset := 0x0 }
/-- R178 -/ def F.LE_RX_LANE_SKEW_EST_skew (i j : Nat) : Field := { key := (0x190C0 + 0x40000 * i + 0x4 * j) * 8 + 0, width := 13, reset := 0x0 }
/-- R178 -/ def F.LE_RX_IQ_EST_X_gain (i : Nat) : Field := { key := (0x190E0 + 0x40000 * i) * 8 + 16, width := 16, reset := 0x0 }
/-- R178 -/ def F.LE_RX_IQ_EST_X_phase (i : Nat) : Field := { key := (0x190E0 + 0x40000 * i) * 8 + 0, width := 16, reset := 0x0 }
/-- R178 -/ def F.LE_RX_IQ_EST_Y_gain (i : Nat) : Field := { key := (0x190E4 + 0x40000 * i) * 8 + 16, width := 16, reset := 0x0 }
/-- R178 -/ def F.LE_RX_IQ_EST_Y_phase (i : Nat) : Field := { key := (0x190E4 + 0x40000 * i) * 8 + 0, width := 16, reset := 0x0 }
/-- R184 -/ def F.LE_RX_REFL_CTRL_mu (i : Nat) : Field := { key := (0x1A040 + 0x40000 * i) * 8 + 16, width := 4, reset := 0x4 }
/-- R184 -/ def F.LE_RX_REFL_CTRL_threshold (i : Nat) : Field := { key := (0x1A040 + 0x40000 * i) * 8 + 8, width := 8, reset := 0x28 }
/-- R184 -/ def F.LE_RX_REFL_CTRL_max_refl (i : Nat) : Field := { key := (0x1A040 + 0x40000 * i) * 8 + 4, width := 3, reset := 0x7 }
/-- R184 -/ def F.LE_RX_REFL_CTRL_mode (i : Nat) : Field := { key := (0x1A040 + 0x40000 * i) * 8 + 0, width := 2, reset := 0x1 }
/-- R184 -/ def F.LE_RX_REFL_WIN_win_max (i : Nat) : Field := { key := (0x1A044 + 0x40000 * i) * 8 + 16, width := 10, reset := 0x3E8 }
/-- R184 -/ def F.LE_RX_REFL_WIN_win_min (i : Nat) : Field := { key := (0x1A044 + 0x40000 * i) * 8 + 0, width := 10, reset := 0x0 }
/-- R184 -/ def F.LE_RX_REFL_PIN_valid (i j : Nat) : Field := { key := (0x1A080 + 0x40000 * i + 0x4 * j) * 8 + 31, width := 1, reset := 0x0 }
/-- R184 -/ def F.LE_RX_REFL_PIN_delay (i j : Nat) : Field := { key := (0x1A080 + 0x40000 * i + 0x4 * j) * 8 + 0, width := 22, reset := 0x0 }
/-- R185 -/ def F.LE_RX_REFL_SUM_residual (i : Nat) : Field := { key := (0x1A048 + 0x40000 * i) * 8 + 16, width := 16, reset := 0x0 }
/-- R185 -/ def F.LE_RX_REFL_SUM_slots (i : Nat) : Field := { key := (0x1A048 + 0x40000 * i) * 8 + 0, width := 4, reset := 0x0 }
/-- R185 -/ def F.LE_RX_REFL_OVF_count (i : Nat) : Field := { key := (0x1A04C + 0x40000 * i) * 8 + 0, width := 32, reset := 0x0 }
/-- R185 -/ def F.LE_RX_REFL_STAT_state (i j : Nat) : Field := { key := (0x1A100 + 0x40000 * i + 0x8 * j) * 8 + 30, width := 2, reset := 0x0 }
/-- R185 -/ def F.LE_RX_REFL_STAT_delay (i j : Nat) : Field := { key := (0x1A100 + 0x40000 * i + 0x8 * j) * 8 + 0, width := 22, reset := 0x0 }
/-- R185 -/ def F.LE_RX_REFL_LVL_level (i j : Nat) : Field := { key := (0x1A104 + 0x40000 * i + 0x8 * j) * 8 + 16, width := 16, reset := 0x0 }
/-- R185 -/ def F.LE_RX_REFL_LVL_suppression (i j : Nat) : Field := { key := (0x1A104 + 0x40000 * i + 0x8 * j) * 8 + 0, width := 16, reset := 0x0 }
/-- R186 -/ def F.LE_RX_CD_RANGE_dmax (i : Nat) : Field := { key := (0x1B054 + 0x40000 * i) * 8 + 0, width := 21, reset := 0x0 }
/-- R188 -/ def F.LE_RX_CD_CTRL_track (i : Nat) : Field := { key := (0x1B040 + 0x40000 * i) * 8 + 8, width := 1, reset := 0x1 }
/-- R188 -/ def F.LE_RX_CD_CTRL_cd_mode (i : Nat) : Field := { key := (0x1B040 + 0x40000 * i) * 8 + 0, width := 1, reset := 0x0 }
/-- R188 -/ def F.LE_RX_CD_SET_cd_set (i : Nat) : Field := { key := (0x1B044 + 0x40000 * i) * 8 + 0, width := 21, reset := 0x0 }
/-- R188 -/ def F.LE_RX_CD_MIN_cd_min (i : Nat) : Field := { key := (0x1B048 + 0x40000 * i) * 8 + 0, width := 21, reset := 0x16D840 }
/-- R188 -/ def F.LE_RX_CD_MAX_cd_max (i : Nat) : Field := { key := (0x1B04C + 0x40000 * i) * 8 + 0, width := 21, reset := 0x927C0 }
/-- R188 -/ def F.LE_RX_CD_EST_cd (i : Nat) : Field := { key := (0x1B050 + 0x40000 * i) * 8 + 0, width := 21, reset := 0x0 }
/-- R190 -/ def F.LE_RX_EQ_CTRL_singular_thr (i : Nat) : Field := { key := (0x1B060 + 0x40000 * i) * 8 + 8, width := 8, reset := 0xE6 }
/-- R190 -/ def F.LE_RX_EQ_CTRL_mu_cma (i : Nat) : Field := { key := (0x1B060 + 0x40000 * i) * 8 + 4, width := 4, reset := 0x4 }
/-- R190 -/ def F.LE_RX_EQ_CTRL_mu_dd (i : Nat) : Field := { key := (0x1B060 + 0x40000 * i) * 8 + 0, width := 4, reset := 0x6 }
/-- R192 -/ def F.LE_RX_CR_CTRL_freq_bw (i : Nat) : Field := { key := (0x1B080 + 0x40000 * i) * 8 + 8, width := 4, reset := 0x6 }
/-- R192 -/ def F.LE_RX_CR_CTRL_bps_en (i : Nat) : Field := { key := (0x1B080 + 0x40000 * i) * 8 + 4, width := 1, reset := 0x1 }
/-- R192 -/ def F.LE_RX_CR_CTRL_w (i : Nat) : Field := { key := (0x1B080 + 0x40000 * i) * 8 + 0, width := 4, reset := 0x4 }
/-- R192 -/ def F.LE_RX_CR_COMMON_offset (i : Nat) : Field := { key := (0x1B084 + 0x40000 * i) * 8 + 0, width := 32, reset := 0x0 }
/-- R193 -/ def F.LE_RX_NLC_CTRL_memory (i : Nat) : Field := { key := (0x1B0A0 + 0x40000 * i) * 8 + 24, width := 6, reset := 0x20 }
/-- R193 -/ def F.LE_RX_NLC_CTRL_scale (i : Nat) : Field := { key := (0x1B0A0 + 0x40000 * i) * 8 + 16, width := 8, reset := 0x40 }
/-- R193 -/ def F.LE_RX_NLC_CTRL_spans (i : Nat) : Field := { key := (0x1B0A0 + 0x40000 * i) * 8 + 8, width := 8, reset := 0x1 }
/-- R193 -/ def F.LE_RX_NLC_CTRL_en (i : Nat) : Field := { key := (0x1B0A0 + 0x40000 * i) * 8 + 0, width := 1, reset := 0x0 }
/-- R194 -/ def F.LE_RX_DEMAP_CTRL_auto (i : Nat) : Field := { key := (0x1B0C0 + 0x40000 * i) * 8 + 8, width := 1, reset := 0x1 }
/-- R194 -/ def F.LE_RX_DEMAP_CTRL_llr_scale (i : Nat) : Field := { key := (0x1B0C0 + 0x40000 * i) * 8 + 0, width := 8, reset := 0x40 }
/-- R199 -/ def F.LE_RX_QUAL_CTRL_hold (i : Nat) : Field := { key := (0x1C040 + 0x40000 * i) * 8 + 31, width := 1, reset := 0x0 }
/-- R199 -/ def F.LE_RX_QUAL_CTRL_ref_mode (i : Nat) : Field := { key := (0x1C040 + 0x40000 * i) * 8 + 30, width := 1, reset := 0x0 }
/-- R199 -/ def F.LE_RX_QUAL_CTRL_lq_alarm (i : Nat) : Field := { key := (0x1C040 + 0x40000 * i) * 8 + 16, width := 8, reset := 0x60 }
/-- R199 -/ def F.LE_RX_QUAL_CTRL_q_ref (i : Nat) : Field := { key := (0x1C040 + 0x40000 * i) * 8 + 0, width := 16, reset := 0x1F4 }
/-- R199 -/ def F.LE_RX_QUAL_SEQ_seq (i : Nat) : Field := { key := (0x1C044 + 0x40000 * i) * 8 + 0, width := 32, reset := 0x0 }
/-- R199 -/ def F.LE_RX_QUAL_T0_LO_t (i : Nat) : Field := { key := (0x1C048 + 0x40000 * i) * 8 + 0, width := 32, reset := 0x0 }
/-- R199 -/ def F.LE_RX_QUAL_T0_HI_t (i : Nat) : Field := { key := (0x1C04C + 0x40000 * i) * 8 + 0, width := 32, reset := 0x0 }
/-- R199 -/ def F.LE_RX_LQ_MIN_index (i : Nat) : Field := { key := (0x1C050 + 0x40000 * i) * 8 + 8, width := 5, reset := 0x0 }
/-- R199 -/ def F.LE_RX_LQ_MIN_lq (i : Nat) : Field := { key := (0x1C050 + 0x40000 * i) * 8 + 0, width := 8, reset := 0x0 }
/-- R200 -/ def F.LE_RX_QUAL_A_evm (i j : Nat) : Field := { key := (0x1D100 + 0x40000 * i + 0x40 * j) * 8 + 16, width := 16, reset := 0x0 }
/-- R200 -/ def F.LE_RX_QUAL_A_gsnr (i j : Nat) : Field := { key := (0x1D100 + 0x40000 * i + 0x40 * j) * 8 + 0, width := 16, reset := 0x0 }
/-- R200 -/ def F.LE_RX_QUAL_B_q (i j : Nat) : Field := { key := (0x1D104 + 0x40000 * i + 0x40 * j) * 8 + 16, width := 16, reset := 0x0 }
/-- R200 -/ def F.LE_RX_QUAL_B_lq (i j : Nat) : Field := { key := (0x1D104 + 0x40000 * i + 0x40 * j) * 8 + 8, width := 8, reset := 0x0 }
/-- R200 -/ def F.LE_RX_QUAL_B_valid (i j : Nat) : Field := { key := (0x1D104 + 0x40000 * i + 0x40 * j) * 8 + 7, width := 1, reset := 0x0 }
/-- R200 -/ def F.LE_RX_QUAL_B_whole (i j : Nat) : Field := { key := (0x1D104 + 0x40000 * i + 0x40 * j) * 8 + 6, width := 1, reset := 0x0 }
/-- R200 -/ def F.LE_RX_QUAL_B_q_bound (i j : Nat) : Field := { key := (0x1D104 + 0x40000 * i + 0x40 * j) * 8 + 5, width := 1, reset := 0x0 }
/-- R200 -/ def F.LE_RX_QUAL_BER_ERR_err (i j : Nat) : Field := { key := (0x1D108 + 0x40000 * i + 0x40 * j) * 8 + 0, width := 32, reset := 0x0 }
/-- R200 -/ def F.LE_RX_QUAL_BER_BITS_bits (i j : Nat) : Field := { key := (0x1D10C + 0x40000 * i + 0x40 * j) * 8 + 0, width := 32, reset := 0x0 }
/-- R200 -/ def F.LE_RX_QUAL_CD_cd (i j : Nat) : Field := { key := (0x1D110 + 0x40000 * i + 0x40 * j) * 8 + 0, width := 21, reset := 0x0 }
/-- R200 -/ def F.LE_RX_QUAL_PMD_dgd (i j : Nat) : Field := { key := (0x1D114 + 0x40000 * i + 0x40 * j) * 8 + 16, width := 16, reset := 0x0 }
/-- R200 -/ def F.LE_RX_QUAL_PMD_sop_rate (i j : Nat) : Field := { key := (0x1D114 + 0x40000 * i + 0x40 * j) * 8 + 0, width := 16, reset := 0x0 }
/-- R200 -/ def F.LE_RX_QUAL_FREQ_freq (i j : Nat) : Field := { key := (0x1D118 + 0x40000 * i + 0x40 * j) * 8 + 0, width := 32, reset := 0x0 }
/-- R200 -/ def F.LE_RX_QUAL_EVT_failed_blocks (i j : Nat) : Field := { key := (0x1D11C + 0x40000 * i + 0x40 * j) * 8 + 16, width := 16, reset := 0x0 }
/-- R200 -/ def F.LE_RX_QUAL_EVT_slips (i j : Nat) : Field := { key := (0x1D11C + 0x40000 * i + 0x40 * j) * 8 + 0, width := 16, reset := 0x0 }

/-! spec/06_point_to_multipoint.md -/
/-- R236 -/ def F.LE_P2MP_HUB_CTRL_map_lead (i : Nat) : Field := { key := (0x20040 + 0x40000 * i) * 8 + 24, width := 4, reset := 0x6 }
/-- R236 -/ def F.LE_P2MP_HUB_CTRL_guard (i : Nat) : Field := { key := (0x20040 + 0x40000 * i) * 8 + 20, width := 4, reset := 0x2 }
/-- R236 -/ def F.LE_P2MP_HUB_CTRL_ctrl_auth (i : Nat) : Field := { key := (0x20040 + 0x40000 * i) * 8 + 10, width := 1, reset := 0x0 }
/-- R236 -/ def F.LE_P2MP_HUB_CTRL_auto_range (i : Nat) : Field := { key := (0x20040 + 0x40000 * i) * 8 + 9, width := 1, reset := 0x1 }
/-- R236 -/ def F.LE_P2MP_HUB_CTRL_auto_level (i : Nat) : Field := { key := (0x20040 + 0x40000 * i) * 8 + 8, width := 1, reset := 0x1 }
/-- R236 -/ def F.LE_P2MP_LOOKOUT_det_thr (i : Nat) : Field := { key := (0x20044 + 0x40000 * i) * 8 + 16, width := 8, reset := 0x30 }
/-- R236 -/ def F.LE_P2MP_LOOKOUT_capture_margin (i : Nat) : Field := { key := (0x20044 + 0x40000 * i) * 8 + 8, width := 4, reset := 0x6 }
/-- R236 -/ def F.LE_P2MP_ROGUE_action (i : Nat) : Field := { key := (0x20048 + 0x40000 * i) * 8 + 28, width := 2, reset := 0x1 }
/-- R236 -/ def F.LE_P2MP_ROGUE_threshold (i : Nat) : Field := { key := (0x20048 + 0x40000 * i) * 8 + 16, width := 8, reset := 0x10 }
/-- R236 -/ def F.LE_P2MP_ROGUE_decay (i : Nat) : Field := { key := (0x20048 + 0x40000 * i) * 8 + 0, width := 16, reset := 0x3E8 }
/-- R236 -/ def F.LE_P2MP_LEVEL_target (i : Nat) : Field := { key := (0x20054 + 0x40000 * i) * 8 + 8, width := 8, reset := 0x3C }
/-- R236 -/ def F.LE_P2MP_LEVEL_idle_thr (i : Nat) : Field := { key := (0x20054 + 0x40000 * i) * 8 + 0, width := 8, reset := 0x50 }
/-- R236 -/ def F.LE_P2MP_UP_MODE_LO_modes (i : Nat) : Field := { key := (0x2004C + 0x40000 * i) * 8 + 0, width := 32, reset := 0x55555555 }
/-- R236 -/ def F.LE_P2MP_UP_MODE_HI_modes (i : Nat) : Field := { key := (0x20050 + 0x40000 * i) * 8 + 0, width := 32, reset := 0x55555555 }
/-- R236 -/ def F.LE_P2MP_DISC_CD_cd (i : Nat) : Field := { key := (0x20058 + 0x40000 * i) * 8 + 0, width := 21, reset := 0x0 }
/-- R236 -/ def F.LE_P2MP_GRANT_COUNT_count (i : Nat) : Field := { key := (0x2005C + 0x40000 * i) * 8 + 0, width := 11, reset := 0x0 }
/-- R236 -/ def F.LE_P2MP_APPLY_PN_period (i : Nat) : Field := { key := (0x20064 + 0x40000 * i) * 8 + 0, width := 32, reset := 0x0 }
/-- R236 -/ def F.LE_P2MP_IDLE_BAND_sc (i : Nat) : Field := { key := (0x2006C + 0x40000 * i) * 8 + 4, width := 5, reset := 0x0 }
/-- R236 -/ def F.LE_P2MP_IDLE_BAND_width (i : Nat) : Field := { key := (0x2006C + 0x40000 * i) * 8 + 2, width := 2, reset := 0x0 }
/-- R236 -/ def F.LE_P2MP_IDLE_BAND_band (i : Nat) : Field := { key := (0x2006C + 0x40000 * i) * 8 + 0, width := 2, reset := 0x0 }
/-- R236 -/ def F.LE_P2MP_CNT_count (i j : Nat) : Field := { key := (0x20080 + 0x40000 * i + 0x4 * j) * 8 + 0, width := 32, reset := 0x0 }
/-- R237 -/ def F.LE_P2MP_BREC_CTRL_mode (i : Nat) : Field := { key := (0x21040 + 0x40000 * i) * 8 + 8, width := 1, reset := 0x0 }
/-- R237 -/ def F.LE_P2MP_BREC_COUNT_count (i : Nat) : Field := { key := (0x21044 + 0x40000 * i) * 8 + 0, width := 13, reset := 0x0 }
/-- R237 -/ def F.LE_P2MP_BREC_0_leaf_id (i : Nat) : Field := { key := (0x21050 + 0x40000 * i) * 8 + 22, width := 10, reset := 0x0 }
/-- R237 -/ def F.LE_P2MP_BREC_0_sc (i : Nat) : Field := { key := (0x21050 + 0x40000 * i) * 8 + 17, width := 5, reset := 0x0 }
/-- R237 -/ def F.LE_P2MP_BREC_0_width (i : Nat) : Field := { key := (0x21050 + 0x40000 * i) * 8 + 15, width := 2, reset := 0x0 }
/-- R237 -/ def F.LE_P2MP_BREC_0_band (i : Nat) : Field := { key := (0x21050 + 0x40000 * i) * 8 + 13, width := 2, reset := 0x0 }
/-- R237 -/ def F.LE_P2MP_BREC_0_type (i : Nat) : Field := { key := (0x21050 + 0x40000 * i) * 8 + 10, width := 3, reset := 0x0 }
/-- R237 -/ def F.LE_P2MP_BREC_0_hdr_valid (i : Nat) : Field := { key := (0x21050 + 0x40000 * i) * 8 + 4, width := 1, reset := 0x0 }
/-- R237 -/ def F.LE_P2MP_BREC_0_all_decoded (i : Nat) : Field := { key := (0x21050 + 0x40000 * i) * 8 + 3, width := 1, reset := 0x0 }
/-- R237 -/ def F.LE_P2MP_BREC_0_captured (i : Nat) : Field := { key := (0x21050 + 0x40000 * i) * 8 + 2, width := 1, reset := 0x0 }
/-- R237 -/ def F.LE_P2MP_BREC_0_ungranted (i : Nat) : Field := { key := (0x21050 + 0x40000 * i) * 8 + 1, width := 1, reset := 0x0 }
/-- R237 -/ def F.LE_P2MP_BREC_0_misaligned (i : Nat) : Field := { key := (0x21050 + 0x40000 * i) * 8 + 0, width := 1, reset := 0x0 }
/-- R237 -/ def F.LE_P2MP_BREC_1_arrival (i : Nat) : Field := { key := (0x21054 + 0x40000 * i) * 8 + 0, width := 32, reset := 0x0 }
/-- R237 -/ def F.LE_P2MP_BREC_2_evm (i : Nat) : Field := { key := (0x21058 + 0x40000 * i) * 8 + 16, width := 16, reset := 0x0 }
/-- R237 -/ def F.LE_P2MP_BREC_2_power (i : Nat) : Field := { key := (0x21058 + 0x40000 * i) * 8 + 0, width := 16, reset := 0x0 }
/-- R237 -/ def F.LE_P2MP_BREC_3_bits (i : Nat) : Field := { key := (0x2105C + 0x40000 * i) * 8 + 0, width := 32, reset := 0x0 }
/-- R237 -/ def F.LE_P2MP_LMSG_0_type (i : Nat) : Field := { key := (0x21080 + 0x40000 * i) * 8 + 24, width := 8, reset := 0x0 }
/-- R237 -/ def F.LE_P2MP_LMSG_0_leaf_id (i : Nat) : Field := { key := (0x21080 + 0x40000 * i) * 8 + 0, width := 10, reset := 0x0 }
/-- R237 -/ def F.LE_P2MP_LMSG_1_tag (i : Nat) : Field := { key := (0x21084 + 0x40000 * i) * 8 + 0, width := 24, reset := 0x0 }
/-- R237 -/ def F.LE_P2MP_LMSG_2_arg (i : Nat) : Field := { key := (0x21088 + 0x40000 * i) * 8 + 0, width := 32, reset := 0x0 }
/-- R237 -/ def F.LE_P2MP_LMSG_STAT_overrun (i : Nat) : Field := { key := (0x21094 + 0x40000 * i) * 8 + 16, width := 1, reset := 0x0 }
/-- R237 -/ def F.LE_P2MP_LMSG_STAT_queued (i : Nat) : Field := { key := (0x21094 + 0x40000 * i) * 8 + 0, width := 6, reset := 0x0 }
/-- R238 -/ def F.LE_P2MP_LEAF_CFG_valid (i j k : Nat) : Field := { key := (0x24800 + 0x40000 * i + 0x1000 * j + 0x8 * k) * 8 + 31, width := 1, reset := 0x0 }
/-- R238 -/ def F.LE_P2MP_LEAF_CFG_home (i j k : Nat) : Field := { key := (0x24800 + 0x40000 * i + 0x1000 * j + 0x8 * k) * 8 + 24, width := 5, reset := 0x0 }
/-- R238 -/ def F.LE_P2MP_LEAF_CFG_tag (i j k : Nat) : Field := { key := (0x24800 + 0x40000 * i + 0x1000 * j + 0x8 * k) * 8 + 0, width := 24, reset := 0x0 }
/-- R238 -/ def F.LE_P2MP_LEAF_ROC_ro (i j k : Nat) : Field := { key := (0x24804 + 0x40000 * i + 0x1000 * j + 0x8 * k) * 8 + 0, width := 20, reset := 0x0 }
/-- R238 -/ def F.LE_P2MP_LEAF_ST_state (i j k : Nat) : Field := { key := (0x26800 + 0x40000 * i + 0x1000 * j + 0x8 * k) * 8 + 29, width := 3, reset := 0x0 }
/-- R238 -/ def F.LE_P2MP_LEAF_ST_rogue (i j k : Nat) : Field := { key := (0x26800 + 0x40000 * i + 0x1000 * j + 0x8 * k) * 8 + 28, width := 1, reset := 0x0 }
/-- R238 -/ def F.LE_P2MP_LEAF_ST_score (i j k : Nat) : Field := { key := (0x26800 + 0x40000 * i + 0x1000 * j + 0x8 * k) * 8 + 20, width := 8, reset := 0x0 }
/-- R238 -/ def F.LE_P2MP_LEAF_ST_ro_active (i j k : Nat) : Field := { key := (0x26800 + 0x40000 * i + 0x1000 * j + 0x8 * k) * 8 + 0, width := 20, reset := 0x0 }
/-- R238 -/ def F.LE_P2MP_LEAF_CD_level_dev (i j k : Nat) : Field := { key := (0x26804 + 0x40000 * i + 0x1000 * j + 0x8 * k) * 8 + 21, width := 8, reset := 0x0 }
/-- R238 -/ def F.LE_P2MP_LEAF_CD_cd (i j k : Nat) : Field := { key := (0x26804 + 0x40000 * i + 0x1000 * j + 0x8 * k) * 8 + 0, width := 21, reset := 0x0 }
/-- R238 -/ def F.LE_P2MP_GRANT_LO_bits (i j k : Nat) : Field := { key := (0x28800 + 0x40000 * i + 0x1000 * j + 0x8 * k) * 8 + 0, width := 32, reset := 0x0 }
/-- R238 -/ def F.LE_P2MP_GRANT_HI_bits (i j k : Nat) : Field := { key := (0x28804 + 0x40000 * i + 0x1000 * j + 0x8 * k) * 8 + 0, width := 32, reset := 0x0 }
/-- R239 -/ def F.LE_P2MP_LEAF_CTRL_self_guard (i : Nat) : Field := { key := (0x22040 + 0x40000 * i) * 8 + 31, width := 1, reset := 0x1 }
/-- R239 -/ def F.LE_P2MP_LEAF_CTRL_ctrl_auth (i : Nat) : Field := { key := (0x22040 + 0x40000 * i) * 8 + 30, width := 1, reset := 0x0 }
/-- R239 -/ def F.LE_P2MP_LEAF_CTRL_cont_en (i : Nat) : Field := { key := (0x22040 + 0x40000 * i) * 8 + 21, width := 1, reset := 0x0 }
/-- R239 -/ def F.LE_P2MP_LEAF_CTRL_cont_sc (i : Nat) : Field := { key := (0x22040 + 0x40000 * i) * 8 + 16, width := 5, reset := 0x0 }
/-- R239 -/ def F.LE_P2MP_LEAF_CTRL_backoff (i : Nat) : Field := { key := (0x22040 + 0x40000 * i) * 8 + 0, width := 4, reset := 0x4 }
/-- R239 -/ def F.LE_P2MP_LEAF_STAT_state (i : Nat) : Field := { key := (0x22044 + 0x40000 * i) * 8 + 29, width := 3, reset := 0x0 }
/-- R239 -/ def F.LE_P2MP_LEAF_STAT_home (i : Nat) : Field := { key := (0x22044 + 0x40000 * i) * 8 + 24, width := 5, reset := 0x0 }
/-- R239 -/ def F.LE_P2MP_LEAF_STAT_leaf_id (i : Nat) : Field := { key := (0x22044 + 0x40000 * i) * 8 + 0, width := 10, reset := 0x3FF }
/-- R239 -/ def F.LE_P2MP_LEAF_RO_ro (i : Nat) : Field := { key := (0x22048 + 0x40000 * i) * 8 + 0, width := 20, reset := 0x0 }
/-- R239 -/ def F.LE_P2MP_LEAF_GAIN_gain (i : Nat) : Field := { key := (0x2204C + 0x40000 * i) * 8 + 0, width := 9, reset := 0x0 }
/-- R239 -/ def F.LE_P2MP_LEAF_CNT_count (i j : Nat) : Field := { key := (0x22080 + 0x40000 * i + 0x4 * j) * 8 + 0, width := 32, reset := 0x0 }

/-! spec/07_ngusha_fec.md -/
/-- R256 -/ def F.LE_FEC_CTRL_early_stop (i : Nat) : Field := { key := (0x30040 + 0x40000 * i) * 8 + 8, width := 1, reset := 0x1 }
/-- R256 -/ def F.LE_FEC_CTRL_max_iter (i : Nat) : Field := { key := (0x30040 + 0x40000 * i) * 8 + 0, width := 5, reset := 0xC }
/-- R262 -/ def F.LE_FEC_ILM_zrp_rate (i : Nat) : Field := { key := (0x30060 + 0x40000 * i) * 8 + 0, width := 2, reset := 0x3 }
/-- R257 -/ def F.LE_FEC_DEFECT_deg_margin (i : Nat) : Field := { key := (0x30044 + 0x40000 * i) * 8 + 16, width := 8, reset := 0xA }
/-- R257 -/ def F.LE_FEC_DEFECT_exc_margin (i : Nat) : Field := { key := (0x30044 + 0x40000 * i) * 8 + 8, width := 8, reset := 0x0 }
/-- R257 -/ def F.LE_FEC_DEFECT_exc_ucb (i : Nat) : Field := { key := (0x30044 + 0x40000 * i) * 8 + 0, width := 8, reset := 0x1 }
/-- R259 -/ def F.LE_FEC_STAT_q_th (i : Nat) : Field := { key := (0x30048 + 0x40000 * i) * 8 + 16, width := 16, reset := 0x0 }
/-- R259 -/ def F.LE_FEC_STAT_tiles_active (i : Nat) : Field := { key := (0x30048 + 0x40000 * i) * 8 + 11, width := 5, reset := 0x0 }
/-- R259 -/ def F.LE_FEC_STAT_iter_cap (i : Nat) : Field := { key := (0x30048 + 0x40000 * i) * 8 + 6, width := 5, reset := 0x0 }
/-- R259 -/ def F.LE_FEC_STAT_sync (i : Nat) : Field := { key := (0x30048 + 0x40000 * i) * 8 + 0, width := 2, reset := 0x0 }
/-- R259 -/ def F.LE_FEC_QENG_exc_raw (i : Nat) : Field := { key := (0x3004C + 0x40000 * i) * 8 + 17, width := 1, reset := 0x0 }
/-- R259 -/ def F.LE_FEC_QENG_deg_raw (i : Nat) : Field := { key := (0x3004C + 0x40000 * i) * 8 + 16, width := 1, reset := 0x0 }
/-- R259 -/ def F.LE_FEC_QENG_q_eng (i : Nat) : Field := { key := (0x3004C + 0x40000 * i) * 8 + 0, width := 16, reset := 0x0 }
/-- R259 -/ def F.LE_FEC_SC_SYNC_sc_sync (i : Nat) : Field := { key := (0x30050 + 0x40000 * i) * 8 + 0, width := 32, reset := 0x0 }
/-- R260 -/ def F.LE_FEC_CNT_LO_lo (i j : Nat) : Field := { key := (0x31040 + 0x40000 * i + 0x8 * j) * 8 + 0, width := 32, reset := 0x0 }
/-- R260 -/ def F.LE_FEC_CNT_HI_hi (i j : Nat) : Field := { key := (0x31044 + 0x40000 * i + 0x8 * j) * 8 + 0, width := 16, reset := 0x0 }
/-- R260 -/ def F.LE_FEC_CNT_LO_SNAP_lo (i j : Nat) : Field := { key := (0x31100 + 0x40000 * i + 0x8 * j) * 8 + 0, width := 32, reset := 0x0 }
/-- R260 -/ def F.LE_FEC_CNT_HI_SNAP_hi (i j : Nat) : Field := { key := (0x31104 + 0x40000 * i + 0x8 * j) * 8 + 0, width := 16, reset := 0x0 }
/-- R261 -/ def F.LE_FEC_TILE_MAP_map (i : Nat) : Field := { key := (0x32040 + 0x40000 * i) * 8 + 0, width := 26, reset := 0xFFFFFF }
/-- R261 -/ def F.LE_FEC_TILE_SPARE_spare_b (i : Nat) : Field := { key := (0x32044 + 0x40000 * i) * 8 + 8, width := 5, reset := 0x19 }
/-- R261 -/ def F.LE_FEC_TILE_SPARE_spare_a (i : Nat) : Field := { key := (0x32044 + 0x40000 * i) * 8 + 0, width := 5, reset := 0x18 }
/-- R261 -/ def F.LE_FEC_REDEC_CNT_count (i : Nat) : Field := { key := (0x32048 + 0x40000 * i) * 8 + 0, width := 32, reset := 0x0 }
/-- R261 -/ def F.LE_FEC_AMBIG_CNT_count (i : Nat) : Field := { key := (0x3204C + 0x40000 * i) * 8 + 0, width := 32, reset := 0x0 }
/-- R261 -/ def F.LE_FEC_TILE_STAT_marks (i j : Nat) : Field := { key := (0x32080 + 0x40000 * i + 0x4 * j) * 8 + 8, width := 8, reset := 0x0 }
/-- R261 -/ def F.LE_FEC_TILE_STAT_state (i j : Nat) : Field := { key := (0x32080 + 0x40000 * i + 0x4 * j) * 8 + 0, width := 2, reset := 0x0 }

/-! spec/08_gweano_line_frame.md -/
/-- R276 -/ def F.LE_GLF_CONT_CFG_valid (i j : Nat) : Field := { key := (0x38100 + 0x40000 * i + 0x8 * j) * 8 + 31, width := 1, reset := 0x0 }
/-- R276 -/ def F.LE_GLF_CONT_CFG_type (i j : Nat) : Field := { key := (0x38100 + 0x40000 * i + 0x8 * j) * 8 + 30, width := 1, reset := 0x0 }
/-- R276 -/ def F.LE_GLF_CONT_CFG_kind (i j : Nat) : Field := { key := (0x38100 + 0x40000 * i + 0x8 * j) * 8 + 29, width := 1, reset := 0x0 }
/-- R276 -/ def F.LE_GLF_CONT_CFG_stream (i j : Nat) : Field := { key := (0x38100 + 0x40000 * i + 0x8 * j) * 8 + 24, width := 5, reset := 0x0 }
/-- R276 -/ def F.LE_GLF_CONT_CFG_cell_size (i j : Nat) : Field := { key := (0x38100 + 0x40000 * i + 0x8 * j) * 8 + 22, width := 2, reset := 0x2 }
/-- R276 -/ def F.LE_GLF_CONT_CFG_port (i j : Nat) : Field := { key := (0x38100 + 0x40000 * i + 0x8 * j) * 8 + 16, width := 5, reset := 0x0 }
/-- R276 -/ def F.LE_GLF_CONT_AUX_leaf (i j : Nat) : Field := { key := (0x38104 + 0x40000 * i + 0x8 * j) * 8 + 16, width := 10, reset := 0x3FF }
/-- R276 -/ def F.LE_GLF_CONT_AUX_rank (i j : Nat) : Field := { key := (0x38104 + 0x40000 * i + 0x8 * j) * 8 + 0, width := 6, reset := 0x0 }
/-- R278 -/ def F.LE_GLF_CELL_SYNC_LO_bits (i : Nat) : Field := { key := (0x38040 + 0x40000 * i) * 8 + 0, width := 32, reset := 0x0 }
/-- R278 -/ def F.LE_GLF_CELL_SYNC_HI_bits (i : Nat) : Field := { key := (0x38044 + 0x40000 * i) * 8 + 0, width := 32, reset := 0x0 }
/-- R278 -/ def F.LE_GLF_TX_SLOT_slots (i j k l : Nat) : Field := { key := (0x40800 + 0x40000 * i + 0x1000 * j + 0x100 * k + 0x4 * l) * 8 + 0, width := 32, reset := 0xFFFFFFFF }
/-- R278 -/ def F.LE_GLF_RX_SLOT_slots (i j k l : Nat) : Field := { key := (0x44800 + 0x40000 * i + 0x1000 * j + 0x100 * k + 0x4 * l) * 8 + 0, width := 32, reset := 0xFFFFFFFF }
/-- R285 -/ def F.LE_GLF_ID_bundle_id (i j : Nat) : Field := { key := (0x34100 + 0x40000 * i + 0x4 * j) * 8 + 16, width := 12, reset := 0x0 }
/-- R285 -/ def F.LE_GLF_ID_member_id (i j : Nat) : Field := { key := (0x34100 + 0x40000 * i + 0x4 * j) * 8 + 0, width := 4, reset := 0x0 }
/-- R286 -/ def F.LE_GLF_RX_ID_bundle_id (i j : Nat) : Field := { key := (0x34180 + 0x40000 * i + 0x4 * j) * 8 + 16, width := 12, reset := 0x0 }
/-- R286 -/ def F.LE_GLF_RX_ID_member_id (i j : Nat) : Field := { key := (0x34180 + 0x40000 * i + 0x4 * j) * 8 + 0, width := 4, reset := 0x0 }
/-- R287 -/ def F.MAP_GRP_CTRL_valid (i j : Nat) : Field := { key := (0xA8800 + 0x1000 * i + 0x40 * j) * 8 + 31, width := 1, reset := 0x0 }
/-- R287 -/ def F.MAP_GRP_CTRL_kind (i j : Nat) : Field := { key := (0xA8800 + 0x1000 * i + 0x40 * j) * 8 + 30, width := 1, reset := 0x0 }
/-- R287 -/ def F.MAP_GRP_CTRL_auto_remove (i j : Nat) : Field := { key := (0xA8800 + 0x1000 * i + 0x40 * j) * 8 + 29, width := 1, reset := 0x0 }
/-- R287 -/ def F.MAP_GRP_CTRL_bundle_id (i j : Nat) : Field := { key := (0xA8800 + 0x1000 * i + 0x40 * j) * 8 + 12, width := 12, reset := 0x0 }
/-- R287 -/ def F.MAP_GRP_CTRL_dd_max (i j : Nat) : Field := { key := (0xA8800 + 0x1000 * i + 0x40 * j) * 8 + 0, width := 10, reset := 0x64 }
/-- R287 -/ def F.MAP_GRP_TARGET_target_set (i j : Nat) : Field := { key := (0xA8804 + 0x1000 * i + 0x40 * j) * 8 + 0, width := 16, reset := 0x0 }
/-- R287 -/ def F.MAP_GRP_MEM_valid1 (i j k : Nat) : Field := { key := (0xA8808 + 0x1000 * i + 0x40 * j + 0x4 * k) * 8 + 31, width := 1, reset := 0x0 }
/-- R287 -/ def F.MAP_GRP_MEM_engine1 (i j k : Nat) : Field := { key := (0xA8808 + 0x1000 * i + 0x40 * j + 0x4 * k) * 8 + 30, width := 1, reset := 0x0 }
/-- R287 -/ def F.MAP_GRP_MEM_cont1 (i j k : Nat) : Field := { key := (0xA8808 + 0x1000 * i + 0x40 * j + 0x4 * k) * 8 + 24, width := 6, reset := 0x0 }
/-- R287 -/ def F.MAP_GRP_MEM_valid0 (i j k : Nat) : Field := { key := (0xA8808 + 0x1000 * i + 0x40 * j + 0x4 * k) * 8 + 15, width := 1, reset := 0x0 }
/-- R287 -/ def F.MAP_GRP_MEM_engine0 (i j k : Nat) : Field := { key := (0xA8808 + 0x1000 * i + 0x40 * j + 0x4 * k) * 8 + 14, width := 1, reset := 0x0 }
/-- R287 -/ def F.MAP_GRP_MEM_cont0 (i j k : Nat) : Field := { key := (0xA8808 + 0x1000 * i + 0x40 * j + 0x4 * k) * 8 + 8, width := 6, reset := 0x0 }
/-- R287 -/ def F.MAP_GRP_ST_msp_state (i j : Nat) : Field := { key := (0xA8828 + 0x1000 * i + 0x40 * j) * 8 + 29, width := 3, reset := 0x0 }
/-- R287 -/ def F.MAP_GRP_ST_sink_state (i j : Nat) : Field := { key := (0xA8828 + 0x1000 * i + 0x40 * j) * 8 + 26, width := 3, reset := 0x0 }
/-- R287 -/ def F.MAP_GRP_ST_sel (i j : Nat) : Field := { key := (0xA8828 + 0x1000 * i + 0x40 * j) * 8 + 24, width := 2, reset := 0x0 }
/-- R287 -/ def F.MAP_GRP_ST_active_set (i j : Nat) : Field := { key := (0xA8828 + 0x1000 * i + 0x40 * j) * 8 + 0, width := 16, reset := 0x0 }
/-- R287 -/ def F.MAP_GRP_DD_late_member (i j : Nat) : Field := { key := (0xA882C + 0x1000 * i + 0x40 * j) * 8 + 28, width := 4, reset := 0x0 }
/-- R287 -/ def F.MAP_GRP_DD_dd (i j : Nat) : Field := { key := (0xA882C + 0x1000 * i + 0x40 * j) * 8 + 0, width := 20, reset := 0x0 }
/-- R287 -/ def F.MAP_GRP_PAGES_pages (i j : Nat) : Field := { key := (0xA8830 + 0x1000 * i + 0x40 * j) * 8 + 0, width := 32, reset := 0x0 }
/-- R287 -/ def F.MAP_GRP_SWITCHES_switches (i j : Nat) : Field := { key := (0xA8834 + 0x1000 * i + 0x40 * j) * 8 + 0, width := 32, reset := 0x0 }
/-- R295 -/ def F.MAP_MSP_CTRL_msp_lead : Field := { key := 0xAA0C0 * 8 + 0, width := 16, reset := 0x2000 }
/-- R299 -/ def F.MAP_MSP_STAT_group : Field := { key := 0xAA0C4 * 8 + 8, width := 6, reset := 0x0 }
/-- R299 -/ def F.MAP_MSP_STAT_reason : Field := { key := 0xAA0C4 * 8 + 0, width := 8, reset := 0x0 }
/-- R299 -/ def F.DEF_CA_fec_exc_ca : Field := { key := 0xAA080 * 8 + 0, width := 1, reset := 0x0 }
/-- R299 -/ def F.LE_GLF_CTRL_force_ais (i : Nat) : Field := { key := (0x34040 + 0x40000 * i) * 8 + 1, width := 1, reset := 0x0 }
/-- R299 -/ def F.LE_GLF_CTRL_force_bdi (i : Nat) : Field := { key := (0x34040 + 0x40000 * i) * 8 + 0, width := 1, reset := 0x0 }
/-- R299 -/ def F.LE_GLF_STAT_frame_state (i : Nat) : Field := { key := (0x34044 + 0x40000 * i) * 8 + 30, width := 2, reset := 0x0 }
/-- R299 -/ def F.LE_GLF_STAT_mf_state (i : Nat) : Field := { key := (0x34044 + 0x40000 * i) * 8 + 28, width := 2, reset := 0x3 }
/-- R299 -/ def F.LE_GLF_STAT_ql (i : Nat) : Field := { key := (0x34044 + 0x40000 * i) * 8 + 24, width := 4, reset := 0x0 }
/-- R299 -/ def F.LE_GLF_STAT_bdi (i : Nat) : Field := { key := (0x34044 + 0x40000 * i) * 8 + 23, width := 1, reset := 0x0 }
/-- R299 -/ def F.LE_GLF_STAT_ais (i : Nat) : Field := { key := (0x34044 + 0x40000 * i) * 8 + 22, width := 1, reset := 0x0 }
/-- R299 -/ def F.LE_GLF_STAT_candidates (i : Nat) : Field := { key := (0x34044 + 0x40000 * i) * 8 + 19, width := 3, reset := 0x0 }
/-- R299 -/ def F.LE_GLF_RX_FC_fc (i : Nat) : Field := { key := (0x34048 + 0x40000 * i) * 8 + 0, width := 32, reset := 0x0 }
/-- R299 -/ def F.LE_GLF_TX_FC_fc (i : Nat) : Field := { key := (0x3404C + 0x40000 * i) * 8 + 0, width := 32, reset := 0x0 }
/-- R299 -/ def F.LE_GLF_DEF_def (i : Nat) : Field := { key := (0x3A040 + 0x40000 * i) * 8 + 0, width := 32, reset := 0x0 }
/-- R299 -/ def F.LE_GLF_VEC_bits (i j : Nat) : Field := { key := (0x3A044 + 0x40000 * i + 0x4 * j) * 8 + 0, width := 32, reset := 0x0 }
/-- R299 -/ def F.LE_GLF_CNT_count (i j : Nat) : Field := { key := (0x35040 + 0x40000 * i + 0x4 * j) * 8 + 0, width := 32, reset := 0x0 }

/-! spec/09_host_lanes_and_clients.md -/
/-- R302 -/ def F.HL_GRP_CTRL_tx_timing (i : Nat) : Field := { key := (0x90040 + 0x1000 * i) * 8 + 21, width := 1, reset := 0x0 }
/-- R302 -/ def F.HL_GRP_CTRL_timing_port (i : Nat) : Field := { key := (0x90040 + 0x1000 * i) * 8 + 16, width := 5, reset := 0x0 }
/-- R302 -/ def F.HL_GRP_CTRL_iface (i : Nat) : Field := { key := (0x90040 + 0x1000 * i) * 8 + 8, width := 2, reset := 0x1 }
/-- R302 -/ def F.HL_GRP_CTRL_rate_class (i : Nat) : Field := { key := (0x90040 + 0x1000 * i) * 8 + 4, width := 2, reset := 0x1 }
/-- R302 -/ def F.HL_GRP_CTRL_flexo_rate (i : Nat) : Field := { key := (0x90040 + 0x1000 * i) * 8 + 0, width := 1, reset := 0x0 }
/-- R302 -/ def F.HL_GRP_TRAIN_train_timeout (i : Nat) : Field := { key := (0x90044 + 0x1000 * i) * 8 + 0, width := 12, reset := 0x1F4 }
/-- R303 -/ def F.HL_LANE_CTRL_pattern (i j : Nat) : Field := { key := (0x90100 + 0x1000 * i + 0x20 * j) * 8 + 12, width := 4, reset := 0x0 }
/-- R303 -/ def F.HL_LANE_CTRL_rx_pol (i j : Nat) : Field := { key := (0x90100 + 0x1000 * i + 0x20 * j) * 8 + 8, width := 2, reset := 0x0 }
/-- R303 -/ def F.HL_LANE_CTRL_tx_inv (i j : Nat) : Field := { key := (0x90100 + 0x1000 * i + 0x20 * j) * 8 + 4, width := 1, reset := 0x0 }
/-- R303 -/ def F.HL_LANE_CTRL_enable (i j : Nat) : Field := { key := (0x90100 + 0x1000 * i + 0x20 * j) * 8 + 0, width := 1, reset := 0x1 }
/-- R303 -/ def F.HL_LANE_TXFFE_pre3 (i j : Nat) : Field := { key := (0x90104 + 0x1000 * i + 0x20 * j) * 8 + 27, width := 5, reset := 0x0 }
/-- R303 -/ def F.HL_LANE_TXFFE_pre2 (i j : Nat) : Field := { key := (0x90104 + 0x1000 * i + 0x20 * j) * 8 + 22, width := 5, reset := 0x0 }
/-- R303 -/ def F.HL_LANE_TXFFE_pre1 (i j : Nat) : Field := { key := (0x90104 + 0x1000 * i + 0x20 * j) * 8 + 16, width := 6, reset := 0x0 }
/-- R303 -/ def F.HL_LANE_TXFFE_main (i j : Nat) : Field := { key := (0x90104 + 0x1000 * i + 0x20 * j) * 8 + 10, width := 6, reset := 0x3F }
/-- R303 -/ def F.HL_LANE_TXFFE_post1 (i j : Nat) : Field := { key := (0x90104 + 0x1000 * i + 0x20 * j) * 8 + 5, width := 5, reset := 0x0 }
/-- R303 -/ def F.HL_LANE_TXFFE_post2 (i j : Nat) : Field := { key := (0x90104 + 0x1000 * i + 0x20 * j) * 8 + 0, width := 5, reset := 0x0 }
/-- R303 -/ def F.HL_LANE_STAT_state (i j : Nat) : Field := { key := (0x90108 + 0x1000 * i + 0x20 * j) * 8 + 29, width := 3, reset := 0x0 }
/-- R303 -/ def F.HL_LANE_STAT_cdr_lock (i j : Nat) : Field := { key := (0x90108 + 0x1000 * i + 0x20 * j) * 8 + 28, width := 1, reset := 0x0 }
/-- R303 -/ def F.HL_LANE_STAT_sig_det (i j : Nat) : Field := { key := (0x90108 + 0x1000 * i + 0x20 * j) * 8 + 27, width := 1, reset := 0x0 }
/-- R303 -/ def F.HL_LANE_STAT_rx_inverted (i j : Nat) : Field := { key := (0x90108 + 0x1000 * i + 0x20 * j) * 8 + 26, width := 1, reset := 0x0 }
/-- R303 -/ def F.HL_LANE_STAT_far_lane (i j : Nat) : Field := { key := (0x90108 + 0x1000 * i + 0x20 * j) * 8 + 23, width := 3, reset := 0x0 }
/-- R303 -/ def F.HL_LANE_STAT_spare (i j : Nat) : Field := { key := (0x90108 + 0x1000 * i + 0x20 * j) * 8 + 22, width := 1, reset := 0x0 }
/-- R303 -/ def F.HL_LANE_STAT_snr (i j : Nat) : Field := { key := (0x90108 + 0x1000 * i + 0x20 * j) * 8 + 8, width := 8, reset := 0x0 }
/-- R303 -/ def F.HL_LANE_STAT_retrains (i j : Nat) : Field := { key := (0x90108 + 0x1000 * i + 0x20 * j) * 8 + 0, width := 8, reset := 0x0 }
/-- R303 -/ def F.HL_LANE_TXFFE_ACT_taps (i j : Nat) : Field := { key := (0x9010C + 0x1000 * i + 0x20 * j) * 8 + 0, width := 32, reset := 0xFC00 }
/-- R303 -/ def F.HL_LANE_CNT_count (i j k : Nat) : Field := { key := (0x94100 + 0x1000 * i + 0x20 * j + 0x4 * k) * 8 + 0, width := 32, reset := 0x0 }
/-- R314 -/ def F.PORT_CFG_valid (i j : Nat) : Field := { key := (0xA0100 + 0x1000 * i + 0x40 * j) * 8 + 31, width := 1, reset := 0x0 }
/-- R314 -/ def F.PORT_CFG_type (i j : Nat) : Field := { key := (0xA0100 + 0x1000 * i + 0x40 * j) * 8 + 29, width := 2, reset := 0x0 }
/-- R314 -/ def F.PORT_CFG_size (i j : Nat) : Field := { key := (0xA0100 + 0x1000 * i + 0x40 * j) * 8 + 26, width := 3, reset := 0x0 }
/-- R314 -/ def F.PORT_CFG_mapping (i j : Nat) : Field := { key := (0xA0100 + 0x1000 * i + 0x40 * j) * 8 + 25, width := 1, reset := 0x0 }
/-- R314 -/ def F.PORT_CFG_rs_fec (i j : Nat) : Field := { key := (0xA0100 + 0x1000 * i + 0x40 * j) * 8 + 24, width := 1, reset := 0x0 }
/-- R314 -/ def F.PORT_CFG_group (i j : Nat) : Field := { key := (0xA0100 + 0x1000 * i + 0x40 * j) * 8 + 22, width := 2, reset := 0x0 }
/-- R314 -/ def F.PORT_CFG_first_lane (i j : Nat) : Field := { key := (0xA0100 + 0x1000 * i + 0x40 * j) * 8 + 19, width := 3, reset := 0x0 }
/-- R314 -/ def F.PORT_CFG_lanes (i j : Nat) : Field := { key := (0xA0100 + 0x1000 * i + 0x40 * j) * 8 + 16, width := 2, reset := 0x0 }
/-- R314 -/ def F.PORT_CFG_slm (i j : Nat) : Field := { key := (0xA0100 + 0x1000 * i + 0x40 * j) * 8 + 14, width := 2, reset := 0x0 }
/-- R314 -/ def F.PORT_CFG_spare_en (i j : Nat) : Field := { key := (0xA0100 + 0x1000 * i + 0x40 * j) * 8 + 13, width := 1, reset := 0x0 }
/-- R314 -/ def F.PORT_CFG_spare_lane (i j : Nat) : Field := { key := (0xA0100 + 0x1000 * i + 0x40 * j) * 8 + 10, width := 3, reset := 0x0 }
/-- R314 -/ def F.PORT_CFG_sleep_en (i j : Nat) : Field := { key := (0xA0100 + 0x1000 * i + 0x40 * j) * 8 + 9, width := 1, reset := 0x0 }
/-- R314 -/ def F.PORT_CFG_fcs_bad (i j : Nat) : Field := { key := (0xA0100 + 0x1000 * i + 0x40 * j) * 8 + 8, width := 1, reset := 0x0 }
/-- R314 -/ def F.PORT_FRAME_sleep_delay (i j : Nat) : Field := { key := (0xA0104 + 0x1000 * i + 0x40 * j) * 8 + 16, width := 10, reset := 0x64 }
/-- R314 -/ def F.PORT_FRAME_max_frame (i j : Nat) : Field := { key := (0xA0104 + 0x1000 * i + 0x40 * j) * 8 + 0, width := 14, reset := 0x2600 }
/-- R314 -/ def F.PORT_GID_gid (i j : Nat) : Field := { key := (0xA0108 + 0x1000 * i + 0x40 * j) * 8 + 0, width := 20, reset := 0x0 }
/-- R314 -/ def F.PORT_EXCH_window (i j : Nat) : Field := { key := (0xA010C + 0x1000 * i + 0x40 * j) * 8 + 0, width := 8, reset := 0x14 }
/-- R314 -/ def F.PORT_STAT_state (i j : Nat) : Field := { key := (0xA0110 + 0x1000 * i + 0x40 * j) * 8 + 29, width := 3, reset := 0x0 }
/-- R314 -/ def F.PORT_STAT_slm_active (i j : Nat) : Field := { key := (0xA0110 + 0x1000 * i + 0x40 * j) * 8 + 28, width := 1, reset := 0x0 }
/-- R314 -/ def F.PORT_STAT_spare_ready (i j : Nat) : Field := { key := (0xA0110 + 0x1000 * i + 0x40 * j) * 8 + 27, width := 1, reset := 0x0 }
/-- R314 -/ def F.PORT_STAT_spare_used (i j : Nat) : Field := { key := (0xA0110 + 0x1000 * i + 0x40 * j) * 8 + 26, width := 1, reset := 0x0 }
/-- R314 -/ def F.PORT_STAT_tx_asleep (i j : Nat) : Field := { key := (0xA0110 + 0x1000 * i + 0x40 * j) * 8 + 25, width := 1, reset := 0x0 }
/-- R314 -/ def F.PORT_STAT_rx_asleep (i j : Nat) : Field := { key := (0xA0110 + 0x1000 * i + 0x40 * j) * 8 + 24, width := 1, reset := 0x0 }
/-- R314 -/ def F.PORT_STAT_rx_local_fault (i j : Nat) : Field := { key := (0xA0110 + 0x1000 * i + 0x40 * j) * 8 + 23, width := 1, reset := 0x0 }
/-- R314 -/ def F.PORT_STAT_rx_remote_fault (i j : Nat) : Field := { key := (0xA0110 + 0x1000 * i + 0x40 * j) * 8 + 22, width := 1, reset := 0x0 }
/-- R314 -/ def F.PORT_STAT_flexo_lof (i j : Nat) : Field := { key := (0xA0110 + 0x1000 * i + 0x40 * j) * 8 + 21, width := 1, reset := 0x0 }
/-- R314 -/ def F.PORT_STAT_gid_mismatch (i j : Nat) : Field := { key := (0xA0110 + 0x1000 * i + 0x40 * j) * 8 + 20, width := 1, reset := 0x0 }
/-- R314 -/ def F.PORT_STAT_exch_result (i j : Nat) : Field := { key := (0xA0110 + 0x1000 * i + 0x40 * j) * 8 + 16, width := 4, reset := 0x0 }
/-- R314 -/ def F.PORT_LANEMAP_map (i j : Nat) : Field := { key := (0xA0114 + 0x1000 * i + 0x40 * j) * 8 + 0, width := 32, reset := 0xFFFFFFFF }
/-- R314 -/ def F.PORT_PARTNER_tag (i j : Nat) : Field := { key := (0xA0118 + 0x1000 * i + 0x40 * j) * 8 + 8, width := 24, reset := 0x0 }
/-- R314 -/ def F.PORT_PARTNER_port (i j : Nat) : Field := { key := (0xA0118 + 0x1000 * i + 0x40 * j) * 8 + 0, width := 8, reset := 0xFF }
/-- R314 -/ def F.PORT_CNT_count (i j k : Nat) : Field := { key := (0xA4100 + 0x1000 * i + 0x40 * j + 0x4 * k) * 8 + 0, width := 32, reset := 0x0 }

/-! spec/10_classifier.md -/
/-- R354 -/ def F.CLS_CTRL_active_bank : Field := { key := 0xB0040 * 8 + 0, width := 1, reset := 0x0 }
/-- R354 -/ def F.CLS_STAT_bank1_state : Field := { key := 0xB0044 * 8 + 30, width := 2, reset := 0x0 }
/-- R354 -/ def F.CLS_STAT_bank0_state : Field := { key := 0xB0044 * 8 + 28, width := 2, reset := 0x1 }
/-- R354 -/ def F.CLS_STAT_pipes_active : Field := { key := 0xB0044 * 8 + 8, width := 3, reset := 0x6 }
/-- R354 -/ def F.CLS_BANK_DRAIN_count : Field := { key := 0xB0048 * 8 + 0, width := 16, reset := 0x0 }
/-- R354 -/ def F.CLS_BANK_BAD_bad (i : Nat) : Field := { key := (0xB0050 + 0x4 * i) * 8 + 0, width := 18, reset := 0x0 }
/-- R354 -/ def F.CLS_BANK_FIRST_BAD_offset (i : Nat) : Field := { key := (0xB0058 + 0x4 * i) * 8 + 0, width := 24, reset := 0xFFFFFF }
/-- R354 -/ def F.CLS_RECIRC_LEVEL_reorder : Field := { key := 0xB0060 * 8 + 16, width := 14, reset := 0x0 }
/-- R354 -/ def F.CLS_RECIRC_LEVEL_recirc : Field := { key := 0xB0060 * 8 + 0, width := 11, reset := 0x0 }
/-- R354 -/ def F.CLS_PIPE_STAT_state (i : Nat) : Field := { key := (0xB0080 + 0x4 * i) * 8 + 16, width := 2, reset := 0x0 }
/-- R354 -/ def F.CLS_PIPE_STAT_suspect (i : Nat) : Field := { key := (0xB0080 + 0x4 * i) * 8 + 9, width := 1, reset := 0x0 }
/-- R354 -/ def F.CLS_PIPE_STAT_mismatches (i : Nat) : Field := { key := (0xB0080 + 0x4 * i) * 8 + 0, width := 8, reset := 0x0 }
/-- R354 -/ def F.CLS_CNT_count (i : Nat) : Field := { key := (0xB00C0 + 0x4 * i) * 8 + 0, width := 32, reset := 0x0 }
/-- R355 -/ def F.CLS_PORT_CNT_count (i j k : Nat) : Field := { key := (0xB4100 + 0x1000 * i + 0x40 * j + 0x4 * k) * 8 + 0, width := 32, reset := 0x0 }

/-! spec/11_package_memory.md -/
/-- R359 -/ def F.BUF_DESKEW_BASE_page : Field := { key := 0xC0040 * 8 + 0, width := 18, reset := 0x0 }
/-- R359 -/ def F.BUF_DESKEW_SIZE_pages : Field := { key := 0xC0044 * 8 + 0, width := 18, reset := 0x20000 }
/-- R359 -/ def F.BUF_CAPTURE_BASE_page : Field := { key := 0xC0048 * 8 + 0, width := 18, reset := 0x20000 }
/-- R359 -/ def F.BUF_CAPTURE_SIZE_pages : Field := { key := 0xC004C * 8 + 0, width := 18, reset := 0x4000 }
/-- R359 -/ def F.BUF_TEST_BASE_page : Field := { key := 0xC0050 * 8 + 0, width := 18, reset := 0x24000 }
/-- R359 -/ def F.BUF_TEST_SIZE_pages : Field := { key := 0xC0054 * 8 + 0, width := 18, reset := 0x1000 }
/-- R360 -/ def F.BUF_DESKEW_USED_pages : Field := { key := 0xC0058 * 8 + 0, width := 18, reset := 0x0 }
/-- R361 -/ def F.BUF_BW_share : Field := { key := 0xC005C * 8 + 0, width := 10, reset := 0x0 }
/-- R368 -/ def F.BUF_SCRUB_CTRL_en : Field := { key := 0xC4040 * 8 + 31, width := 1, reset := 0x1 }
/-- R368 -/ def F.BUF_SCRUB_STAT_late : Field := { key := 0xC4044 * 8 + 31, width := 1, reset := 0x0 }
/-- R368 -/ def F.BUF_SCRUB_STAT_addr : Field := { key := 0xC4044 * 8 + 0, width := 29, reset := 0x0 }
/-- R368 -/ def F.BUF_SCRUB_PASSES_passes : Field := { key := 0xC4048 * 8 + 0, width := 32, reset := 0x0 }
/-- R371 -/ def F.BUF_ECC_CTRL_ce_repeat : Field := { key := 0xC1040 * 8 + 28, width := 4, reset := 0x4 }
/-- R371 -/ def F.BUF_ECC_CTRL_ce_window : Field := { key := 0xC1040 * 8 + 16, width := 12, reset := 0x3C }
/-- R371 -/ def F.BUF_ECC_CTRL_wb_en : Field := { key := 0xC1040 * 8 + 0, width := 1, reset := 0x1 }
/-- R372 -/ def F.BUF_INJ_ADDR_addr : Field := { key := 0xC10C0 * 8 + 0, width := 29, reset := 0x0 }
/-- R372 -/ def F.BUF_INJ_CTRL_busy : Field := { key := 0xC10C4 * 8 + 31, width := 1, reset := 0x0 }
/-- R372 -/ def F.BUF_INJ_CTRL_sym_c : Field := { key := 0xC10C4 * 8 + 24, width := 6, reset := 0x3F }
/-- R372 -/ def F.BUF_INJ_CTRL_sym_b : Field := { key := 0xC10C4 * 8 + 16, width := 6, reset := 0x3F }
/-- R372 -/ def F.BUF_INJ_CTRL_sym_a : Field := { key := 0xC10C4 * 8 + 8, width := 6, reset := 0x3F }
/-- R372 -/ def F.BUF_INJ_XOR_xor_c : Field := { key := 0xC10C8 * 8 + 16, width := 8, reset := 0x0 }
/-- R372 -/ def F.BUF_INJ_XOR_xor_b : Field := { key := 0xC10C8 * 8 + 8, width := 8, reset := 0x0 }
/-- R372 -/ def F.BUF_INJ_XOR_xor_a : Field := { key := 0xC10C8 * 8 + 0, width := 8, reset := 0x0 }
/-- R372 -/ def F.BUF_INJ_ADDR_XOR_addr_xor : Field := { key := 0xC10CC * 8 + 0, width := 29, reset := 0x0 }
/-- R373 -/ def F.BUF_LOG_CTRL_queued : Field := { key := 0xC2040 * 8 + 16, width := 9, reset := 0x0 }
/-- R373 -/ def F.BUF_LOG_CTRL_ovf : Field := { key := 0xC2040 * 8 + 0, width := 16, reset := 0x0 }
/-- R373 -/ def F.BUF_LOG_bits (i : Nat) : Field := { key := (0xC2050 + 0x4 * i) * 8 + 0, width := 32, reset := 0x0 }
/-- R376 -/ def F.BUF_RETIRE_op : Field := { key := 0xC3040 * 8 + 31, width := 1, reset := 0x0 }
/-- R376 -/ def F.BUF_RETIRE_page : Field := { key := 0xC3040 * 8 + 0, width := 18, reset := 0x0 }
/-- R376 -/ def F.BUF_RETIRE_STAT_state : Field := { key := 0xC3048 * 8 + 30, width := 2, reset := 0x0 }
/-- R376 -/ def F.BUF_RETIRE_STAT_result : Field := { key := 0xC3048 * 8 + 24, width := 6, reset := 0x0 }
/-- R376 -/ def F.BUF_RETIRE_STAT_page : Field := { key := 0xC3048 * 8 + 0, width := 18, reset := 0x0 }
/-- R376 -/ def F.BUF_POOL_free : Field := { key := 0xC304C * 8 + 16, width := 13, reset := 0x1000 }
/-- R376 -/ def F.BUF_POOL_in_use : Field := { key := 0xC304C * 8 + 0, width := 13, reset := 0x0 }
/-- R376 -/ def F.BUF_POOL_CTRL_pool_warn : Field := { key := 0xC3050 * 8 + 0, width := 13, reset := 0x100 }
/-- R376 -/ def F.BUF_REMAP_IDX_idx : Field := { key := 0xC3054 * 8 + 0, width := 12, reset := 0x0 }
/-- R377 -/ def F.BUF_ROWREP_pc : Field := { key := 0xC3060 * 8 + 18, width := 5, reset := 0x0 }
/-- R377 -/ def F.BUF_ROWREP_bank : Field := { key := 0xC3060 * 8 + 14, width := 4, reset := 0x0 }
/-- R377 -/ def F.BUF_ROWREP_row : Field := { key := 0xC3060 * 8 + 0, width := 14, reset := 0x0 }
/-- R377 -/ def F.BUF_ROWREP_STAT_state : Field := { key := 0xC3068 * 8 + 30, width := 2, reset := 0x0 }
/-- R377 -/ def F.BUF_ROWREP_STAT_result : Field := { key := 0xC3068 * 8 + 24, width := 6, reset := 0x0 }
/-- R377 -/ def F.BUF_ROWREP_STAT_bank_spares : Field := { key := 0xC3068 * 8 + 16, width := 3, reset := 0x0 }
/-- R377 -/ def F.BUF_ROWREP_STAT_device_spares : Field := { key := 0xC3068 * 8 + 0, width := 12, reset := 0x800 }
/-- R378 -/ def F.BUF_WIN_PAGE_page : Field := { key := 0xC5040 * 8 + 0, width := 18, reset := 0x0 }
/-- R378 -/ def F.BUF_WIN_STAT_result : Field := { key := 0xC5044 * 8 + 0, width := 4, reset := 0x0 }
/-- R378 -/ def F.BUF_CNT_count (i : Nat) : Field := { key := (0xC1080 + 0x4 * i) * 8 + 0, width := 32, reset := 0x0 }
/-- R378 -/ def F.BUF_PC_CE_count (i : Nat) : Field := { key := (0xC6100 + 0x8 * i) * 8 + 0, width := 32, reset := 0x0 }
/-- R378 -/ def F.BUF_PC_UE_count (i : Nat) : Field := { key := (0xC6104 + 0x8 * i) * 8 + 0, width := 32, reset := 0x0 }

/-! spec/12_cipher.md -/
/-- R381 -/ def F.CIP_SA_CFG_valid (i : Nat) : Field := { key := (0x310000 + 0x10 * i) * 8 + 31, width := 1, reset := 0x0 }
/-- R381 -/ def F.CIP_SA_CFG_type (i : Nat) : Field := { key := (0x310000 + 0x10 * i) * 8 + 29, width := 2, reset := 0x0 }
/-- R381 -/ def F.CIP_SA_CFG_engine (i : Nat) : Field := { key := (0x310000 + 0x10 * i) * 8 + 28, width := 1, reset := 0x0 }
/-- R381 -/ def F.CIP_SA_CFG_leaf (i : Nat) : Field := { key := (0x310000 + 0x10 * i) * 8 + 16, width := 10, reset := 0x3FF }
/-- R381 -/ def F.CIP_SA_CFG_container (i : Nat) : Field := { key := (0x310000 + 0x10 * i) * 8 + 0, width := 6, reset := 0x0 }
/-- R381 -/ def F.CIP_SA_POL_require (i : Nat) : Field := { key := (0x310004 + 0x10 * i) * 8 + 31, width := 1, reset := 0x0 }
/-- R381 -/ def F.CIP_SA_POL_key_source (i : Nat) : Field := { key := (0x310004 + 0x10 * i) * 8 + 30, width := 1, reset := 0x0 }
/-- R381 -/ def F.CIP_SA_POL_auto_rekey (i : Nat) : Field := { key := (0x310004 + 0x10 * i) * 8 + 29, width := 1, reset := 0x1 }
/-- R381 -/ def F.CIP_SA_POL_fcs_stomp (i : Nat) : Field := { key := (0x310004 + 0x10 * i) * 8 + 28, width := 1, reset := 0x0 }
/-- R381 -/ def F.CIP_SA_POL_limit_exp (i : Nat) : Field := { key := (0x310004 + 0x10 * i) * 8 + 8, width := 6, reset := 0x24 }
/-- R381 -/ def F.CIP_SA_PIN_pin (i : Nat) : Field := { key := (0x310008 + 0x10 * i) * 8 + 0, width := 32, reset := 0x0 }
/-- R381 -/ def F.CIP_SA_ST_state (i : Nat) : Field := { key := (0x31000C + 0x10 * i) * 8 + 30, width := 2, reset := 0x0 }
/-- R381 -/ def F.CIP_SA_ST_block_reason (i : Nat) : Field := { key := (0x31000C + 0x10 * i) * 8 + 27, width := 3, reset := 0x0 }
/-- R381 -/ def F.CIP_SA_ST_cur_valid (i : Nat) : Field := { key := (0x31000C + 0x10 * i) * 8 + 26, width := 1, reset := 0x0 }
/-- R381 -/ def F.CIP_SA_ST_next_valid (i : Nat) : Field := { key := (0x31000C + 0x10 * i) * 8 + 25, width := 1, reset := 0x0 }
/-- R381 -/ def F.CIP_SA_ST_switch_armed (i : Nat) : Field := { key := (0x31000C + 0x10 * i) * 8 + 24, width := 1, reset := 0x0 }
/-- R381 -/ def F.CIP_SA_ST_warn (i : Nat) : Field := { key := (0x31000C + 0x10 * i) * 8 + 23, width := 1, reset := 0x0 }
/-- R381 -/ def F.CIP_SA_ST_void_rx (i : Nat) : Field := { key := (0x31000C + 0x10 * i) * 8 + 22, width := 1, reset := 0x0 }
/-- R381 -/ def F.CIP_SA_USE_use (i : Nat) : Field := { key := (0x314000 + 0x10 * i) * 8 + 0, width := 32, reset := 0x0 }
/-- R381 -/ def F.CIP_SA_SWITCH_AT_at (i : Nat) : Field := { key := (0x314004 + 0x10 * i) * 8 + 0, width := 32, reset := 0x0 }
/-- R381 -/ def F.CIP_SA_TAGFAIL_count (i : Nat) : Field := { key := (0x314008 + 0x10 * i) * 8 + 0, width := 32, reset := 0x0 }
/-- R381 -/ def F.CIP_SA_VOID_count (i : Nat) : Field := { key := (0x31400C + 0x10 * i) * 8 + 0, width := 32, reset := 0x0 }
/-- R408 -/ def F.CIP_STAT_overload : Field := { key := 0xC8040 * 8 + 30, width := 1, reset := 0x0 }
/-- R408 -/ def F.CIP_STAT_cores : Field := { key := 0xC8040 * 8 + 16, width := 4, reset := 0x8 }
/-- R408 -/ def F.CIP_STAT_shed_first : Field := { key := 0xC8040 * 8 + 0, width := 10, reset := 0x3FF }
/-- R408 -/ def F.CIP_BUDGET_limit : Field := { key := 0xC8044 * 8 + 16, width := 14, reset := 0x1450 }
/-- R408 -/ def F.CIP_BUDGET_charge : Field := { key := 0xC8044 * 8 + 0, width := 14, reset := 0x0 }
/-- R408 -/ def F.CIP_CORE_STAT_state (i : Nat) : Field := { key := (0xC8080 + 0x4 * i) * 8 + 16, width := 2, reset := 0x0 }
/-- R408 -/ def F.CIP_CORE_STAT_suspect (i : Nat) : Field := { key := (0xC8080 + 0x4 * i) * 8 + 9, width := 1, reset := 0x0 }
/-- R408 -/ def F.CIP_CORE_STAT_mismatches (i : Nat) : Field := { key := (0xC8080 + 0x4 * i) * 8 + 0, width := 8, reset := 0x0 }
/-- R408 -/ def F.CIP_CNT_count (i : Nat) : Field := { key := (0xC80C0 + 0x4 * i) * 8 + 0, width := 32, reset := 0x0 }
/-- R409 -/ def F.CIP_KX_TIME_kx_lead : Field := { key := 0xC9040 * 8 + 12, width := 20, reset := 0x10000 }
/-- R409 -/ def F.CIP_KX_TIME_kx_timeout : Field := { key := 0xC9040 * 8 + 0, width := 12, reset := 0x3E8 }
/-- R409 -/ def F.CIP_KX_STAT_state (i : Nat) : Field := { key := (0xC9080 + 0x4 * i) * 8 + 29, width := 3, reset := 0x0 }
/-- R409 -/ def F.CIP_KX_STAT_role (i : Nat) : Field := { key := (0xC9080 + 0x4 * i) * 8 + 28, width := 1, reset := 0x0 }
/-- R409 -/ def F.CIP_KX_STAT_result (i : Nat) : Field := { key := (0xC9080 + 0x4 * i) * 8 + 24, width := 4, reset := 0x0 }
/-- R409 -/ def F.CIP_KX_STAT_rx (i : Nat) : Field := { key := (0xC9080 + 0x4 * i) * 8 + 10, width := 10, reset := 0x0 }
/-- R409 -/ def F.CIP_KX_STAT_tx (i : Nat) : Field := { key := (0xC9080 + 0x4 * i) * 8 + 0, width := 10, reset := 0x0 }

/-! spec/13_trust_and_dual_control.md -/
/-- R412 -/ def F.ENC_STAT_claimed : Field := { key := 0xFC040 * 8 + 31, width := 1, reset := 0x0 }
/-- R412 -/ def F.ENC_STAT_klk_valid : Field := { key := 0xFC040 * 8 + 30, width := 1, reset := 0x0 }
/-- R412 -/ def F.ENC_STAT_zeroised : Field := { key := 0xFC040 * 8 + 29, width := 1, reset := 0x0 }
/-- R412 -/ def F.ENC_STAT_response : Field := { key := 0xFC040 * 8 + 28, width := 1, reset := 0x0 }
/-- R412 -/ def F.ENC_STAT_bcr_keys : Field := { key := 0xFC040 * 8 + 24, width := 4, reset := 0x0 }
/-- R412 -/ def F.ENC_STAT_officers : Field := { key := 0xFC040 * 8 + 20, width := 4, reset := 0x0 }
/-- R412 -/ def F.ENC_STAT_debug_level : Field := { key := 0xFC040 * 8 + 18, width := 2, reset := 0x0 }
/-- R412 -/ def F.ENC_STAT_pending : Field := { key := 0xFC040 * 8 + 12, width := 4, reset := 0x0 }
/-- R412 -/ def F.ENC_SERIAL_LO_serial : Field := { key := 0xFC044 * 8 + 0, width := 32, reset := 0x0 }
/-- R412 -/ def F.ENC_SERIAL_HI_serial : Field := { key := 0xFC048 * 8 + 0, width := 32, reset := 0x0 }
/-- R412 -/ def F.ENC_ZREC_active : Field := { key := 0xFC04C * 8 + 31, width := 1, reset := 0x0 }
/-- R412 -/ def F.ENC_ZREC_causes : Field := { key := 0xFC04C * 8 + 16, width := 8, reset := 0x0 }
/-- R412 -/ def F.ENC_ZREC_count : Field := { key := 0xFC04C * 8 + 0, width := 16, reset := 0x0 }
/-- R412 -/ def F.ENC_ZREC_TIME_LO_time : Field := { key := 0xFC050 * 8 + 0, width := 32, reset := 0x0 }
/-- R412 -/ def F.ENC_ZREC_TIME_HI_time : Field := { key := 0xFC054 * 8 + 0, width := 32, reset := 0x0 }
/-- R412 -/ def F.ENC_DBG_EXPIRE_LO_expire : Field := { key := 0xFC058 * 8 + 0, width := 32, reset := 0x0 }
/-- R412 -/ def F.ENC_DBG_EXPIRE_HI_expire : Field := { key := 0xFC05C * 8 + 0, width := 32, reset := 0x0 }
/-- R412 -/ def F.ENC_CHG_LAST_handle : Field := { key := 0xFC060 * 8 + 28, width := 2, reset := 0x0 }
/-- R412 -/ def F.ENC_CHG_LAST_op : Field := { key := 0xFC060 * 8 + 16, width := 12, reset := 0x0 }
/-- R412 -/ def F.ENC_CHG_LAST_detail : Field := { key := 0xFC060 * 8 + 8, width := 8, reset := 0x0 }
/-- R412 -/ def F.ENC_CHG_LAST_result : Field := { key := 0xFC060 * 8 + 0, width := 8, reset := 0x0 }
/-- R413 -/ def F.ENC_XBUF_bytes (i : Nat) : Field := { key := (0xFEA00 + 0x4 * i) * 8 + 0, width := 32, reset := 0x0 }
/-- R425 -/ def F.TMP_STAT_latched : Field := { key := 0xFD040 * 8 + 31, width := 1, reset := 0x0 }
/-- R425 -/ def F.TMP_STAT_latched_causes : Field := { key := 0xFD040 * 8 + 8, width := 8, reset := 0x0 }
/-- R425 -/ def F.TMP_STAT_raw : Field := { key := 0xFD040 * 8 + 0, width := 8, reset := 0x0 }
/-- R425 -/ def F.TMP_CFG_response : Field := { key := 0xFD044 * 8 + 31, width := 1, reset := 0x0 }
/-- R425 -/ def F.TMP_CFG_temp_high : Field := { key := 0xFD044 * 8 + 16, width := 8, reset := 0x7D }
/-- R425 -/ def F.TMP_CFG_temp_low : Field := { key := 0xFD044 * 8 + 8, width := 8, reset := 0xCE }
/-- R425 -/ def F.TMP_CFG_enables : Field := { key := 0xFD044 * 8 + 0, width := 8, reset := 0xFF }
/-- R425 -/ def F.TMP_LIGHT_sensors : Field := { key := 0xFD048 * 8 + 0, width := 16, reset := 0x0 }

/-! spec/14_optical_engine_and_ubholt.md -/
/-- R447 -/ def F.UBH_CTRL_hold (i : Nat) : Field := { key := (0xD8040 + 0x1000 * i) * 8 + 31, width := 1, reset := 0x0 }
/-- R447 -/ def F.UBH_CTRL_tx_allow (i : Nat) : Field := { key := (0xD8040 + 0x1000 * i) * 8 + 8, width := 1, reset := 0x1 }
/-- R447 -/ def F.UBH_STAT_link (i : Nat) : Field := { key := (0xD8044 + 0x1000 * i) * 8 + 29, width := 3, reset := 0x0 }
/-- R447 -/ def F.UBH_STAT_auth (i : Nat) : Field := { key := (0xD8044 + 0x1000 * i) * 8 + 27, width := 2, reset := 0x0 }
/-- R447 -/ def F.UBH_STAT_override (i : Nat) : Field := { key := (0xD8044 + 0x1000 * i) * 8 + 26, width := 1, reset := 0x0 }
/-- R447 -/ def F.UBH_STAT_tx_enabled (i : Nat) : Field := { key := (0xD8044 + 0x1000 * i) * 8 + 25, width := 1, reset := 0x0 }
/-- R447 -/ def F.UBH_STAT_tx_ready (i : Nat) : Field := { key := (0xD8044 + 0x1000 * i) * 8 + 24, width := 1, reset := 0x0 }
/-- R447 -/ def F.UBH_STAT_rx_los (i : Nat) : Field := { key := (0xD8044 + 0x1000 * i) * 8 + 23, width := 1, reset := 0x0 }
/-- R447 -/ def F.UBH_STAT_present (i : Nat) : Field := { key := (0xD8044 + 0x1000 * i) * 8 + 22, width := 1, reset := 0x0 }
/-- R447 -/ def F.UBH_STAT_case_temp (i : Nat) : Field := { key := (0xD8044 + 0x1000 * i) * 8 + 8, width := 8, reset := 0x0 }
/-- R447 -/ def F.UBH_STAT_alerts (i : Nat) : Field := { key := (0xD8044 + 0x1000 * i) * 8 + 0, width := 5, reset := 0x0 }
/-- R447 -/ def F.UBH_ID_LO_id (i : Nat) : Field := { key := (0xD8048 + 0x1000 * i) * 8 + 0, width := 32, reset := 0x0 }
/-- R447 -/ def F.UBH_ID_HI_id (i : Nat) : Field := { key := (0xD804C + 0x1000 * i) * 8 + 0, width := 32, reset := 0x0 }
/-- R447 -/ def F.UBH_DECL_bytes (i j : Nat) : Field := { key := (0xD8080 + 0x1000 * i + 0x4 * j) * 8 + 0, width := 32, reset := 0x0 }
/-- R447 -/ def F.UBH_CNT_count (i j : Nat) : Field := { key := (0xD80C0 + 0x1000 * i + 0x4 * j) * 8 + 0, width := 32, reset := 0x0 }
/-- R447 -/ def F.UBH_PT_CMD_write (i : Nat) : Field := { key := (0xD8100 + 0x1000 * i) * 8 + 24, width := 1, reset := 0x0 }
/-- R447 -/ def F.UBH_PT_CMD_length (i : Nat) : Field := { key := (0xD8100 + 0x1000 * i) * 8 + 16, width := 8, reset := 0x0 }
/-- R447 -/ def F.UBH_PT_CMD_address (i : Nat) : Field := { key := (0xD8100 + 0x1000 * i) * 8 + 0, width := 16, reset := 0x0 }
/-- R447 -/ def F.UBH_PT_STAT_busy (i : Nat) : Field := { key := (0xD8104 + 0x1000 * i) * 8 + 31, width := 1, reset := 0x0 }
/-- R447 -/ def F.UBH_PT_STAT_status (i : Nat) : Field := { key := (0xD8104 + 0x1000 * i) * 8 + 0, width := 8, reset := 0x0 }
/-- R447 -/ def F.UBH_PT_DATA_bytes (i j : Nat) : Field := { key := (0xD8140 + 0x1000 * i + 0x4 * j) * 8 + 0, width := 32, reset := 0x0 }
/-- R448 -/ def F.UBH_LIFE_bytes (i j : Nat) : Field := { key := (0xDA040 + 0x1000 * i + 0x4 * j) * 8 + 0, width := 32, reset := 0x0 }
/-- R448 -/ def F.UBH_EOL_CTRL_eol_limit (i : Nat) : Field := { key := (0xDA060 + 0x1000 * i) * 8 + 8, width := 8, reset := 0x32 }
/-- R448 -/ def F.UBH_EOL_CTRL_eol_warn (i : Nat) : Field := { key := (0xDA060 + 0x1000 * i) * 8 + 0, width := 8, reset := 0x50 }
/-- R448 -/ def F.UBH_EOL_STAT_eol (i : Nat) : Field := { key := (0xDA064 + 0x1000 * i) * 8 + 31, width := 1, reset := 0x0 }
/-- R448 -/ def F.UBH_EOL_STAT_drift (i : Nat) : Field := { key := (0xDA064 + 0x1000 * i) * 8 + 16, width := 10, reset := 0x0 }
/-- R448 -/ def F.UBH_EOL_STAT_hours_to_limit (i : Nat) : Field := { key := (0xDA064 + 0x1000 * i) * 8 + 0, width := 16, reset := 0xFFFF }

/-! spec/15_synchronisation.md -/
/-- R468 -/ def F.SYN_CTRL_revertive : Field := { key := 0xD0040 * 8 + 31, width := 1, reset := 0x0 }
/-- R468 -/ def F.SYN_CTRL_ql_mode : Field := { key := 0xD0040 * 8 + 30, width := 1, reset := 0x1 }
/-- R468 -/ def F.SYN_CTRL_ql_option : Field := { key := 0xD0040 * 8 + 29, width := 1, reset := 0x0 }
/-- R468 -/ def F.SYN_CTRL_force_sel : Field := { key := 0xD0040 * 8 + 24, width := 4, reset := 0xF }
/-- R468 -/ def F.SYN_CTRL_own_ql : Field := { key := 0xD0040 * 8 + 20, width := 4, reset := 0xB }
/-- R468 -/ def F.SYN_CTRL_oos_ql : Field := { key := 0xD0040 * 8 + 16, width := 4, reset := 0xF }
/-- R468 -/ def F.SYN_CTRL_switch_type : Field := { key := 0xD0040 * 8 + 28, width := 1, reset := 0x0 }
/-- R468 -/ def F.SYN_CTRL_slew_rate : Field := { key := 0xD0040 * 8 + 0, width := 16, reset := 0x32 }
/-- R468 -/ def F.SYN_BW_bw_track : Field := { key := 0xD0044 * 8 + 0, width := 20, reset := 0x2710 }
/-- R468 -/ def F.SYN_BW_ACQ_bw_acq : Field := { key := 0xD0048 * 8 + 0, width := 20, reset := 0x186A0 }
/-- R468 -/ def F.SYN_TIMERS_wtr : Field := { key := 0xD004C * 8 + 16, width := 10, reset := 0x12C }
/-- R468 -/ def F.SYN_TIMERS_qualify_time : Field := { key := 0xD004C * 8 + 0, width := 10, reset := 0xA }
/-- R471 -/ def F.SYN_ESMC_MAC_LO_mac : Field := { key := 0xD2040 * 8 + 0, width := 32, reset := 0x0 }
/-- R471 -/ def F.SYN_ESMC_MAC_HI_mac : Field := { key := 0xD2044 * 8 + 0, width := 16, reset := 0x0 }
/-- R472 -/ def F.SYN_PPS_CTRL_width : Field := { key := 0xD3060 * 8 + 0, width := 20, reset := 0x186A0 }
/-- R468 -/ def F.SYN_DISAGREE_disagree_ppm : Field := { key := 0xD0050 * 8 + 16, width := 8, reset := 0x14 }
/-- R468 -/ def F.SYN_DISAGREE_disagree_time : Field := { key := 0xD0050 * 8 + 0, width := 16, reset := 0xA }
/-- R468 -/ def F.SYN_HOLD_hold_avg : Field := { key := 0xD0054 * 8 + 16, width := 12, reset := 0x3C }
/-- R468 -/ def F.SYN_HOLD_oos_time : Field := { key := 0xD0054 * 8 + 0, width := 16, reset := 0x5A0 }
/-- R469 -/ def F.SYN_STAT_state : Field := { key := 0xD0060 * 8 + 29, width := 3, reset := 0x0 }
/-- R469 -/ def F.SYN_STAT_switching : Field := { key := 0xD0060 * 8 + 28, width := 1, reset := 0x0 }
/-- R469 -/ def F.SYN_STAT_output_ql : Field := { key := 0xD0060 * 8 + 24, width := 4, reset := 0xB }
/-- R469 -/ def F.SYN_STAT_selected : Field := { key := 0xD0060 * 8 + 20, width := 4, reset := 0xF }
/-- R469 -/ def F.SYN_STAT_hold_valid : Field := { key := 0xD0060 * 8 + 19, width := 1, reset := 0x0 }
/-- R469 -/ def F.SYN_STAT_oos : Field := { key := 0xD0060 * 8 + 18, width := 1, reset := 0x0 }
/-- R469 -/ def F.SYN_FREQ_offset : Field := { key := 0xD0064 * 8 + 0, width := 32, reset := 0x0 }
/-- R469 -/ def F.SYN_HOLD_FREQ_estimate : Field := { key := 0xD0068 * 8 + 0, width := 32, reset := 0x0 }
/-- R469 -/ def F.SYN_HOLD_ELAPSED_seconds : Field := { key := 0xD006C * 8 + 0, width := 32, reset := 0x0 }
/-- R469 -/ def F.SYN_HIST_self_test : Field := { key := 0xD0070 * 8 + 21, width := 1, reset := 0x0 }
/-- R469 -/ def F.SYN_HIST_oos : Field := { key := 0xD0070 * 8 + 20, width := 1, reset := 0x0 }
/-- R469 -/ def F.SYN_HIST_disagree : Field := { key := 0xD0070 * 8 + 19, width := 1, reset := 0x0 }
/-- R469 -/ def F.SYN_HIST_switched : Field := { key := 0xD0070 * 8 + 18, width := 1, reset := 0x0 }
/-- R469 -/ def F.SYN_HIST_freerun : Field := { key := 0xD0070 * 8 + 17, width := 1, reset := 0x0 }
/-- R469 -/ def F.SYN_HIST_holdover : Field := { key := 0xD0070 * 8 + 16, width := 1, reset := 0x0 }
/-- R469 -/ def F.SYN_HIST_inputs : Field := { key := 0xD0070 * 8 + 0, width := 15, reset := 0x0 }
/-- R469 -/ def F.SYN_DISAGREE_STAT_difference : Field := { key := 0xD0074 * 8 + 16, width := 16, reset := 0x0 }
/-- R469 -/ def F.SYN_DISAGREE_STAT_input_b : Field := { key := 0xD0074 * 8 + 4, width := 4, reset := 0x0 }
/-- R469 -/ def F.SYN_DISAGREE_STAT_input_a : Field := { key := 0xD0074 * 8 + 0, width := 4, reset := 0x0 }
/-- R470 -/ def F.SYN_IN_CFG_en (i : Nat) : Field := { key := (0xD1040 + 0x10 * i) * 8 + 31, width := 1, reset := 0x0 }
/-- R470 -/ def F.SYN_IN_CFG_priority (i : Nat) : Field := { key := (0xD1040 + 0x10 * i) * 8 + 24, width := 4, reset := 0x0 }
/-- R470 -/ def F.SYN_IN_CFG_ql_value (i : Nat) : Field := { key := (0xD1040 + 0x10 * i) * 8 + 20, width := 4, reset := 0xF }
/-- R470 -/ def F.SYN_IN_CFG_ql_force (i : Nat) : Field := { key := (0xD1040 + 0x10 * i) * 8 + 19, width := 1, reset := 0x0 }
/-- R470 -/ def F.SYN_IN_CFG_freq (i : Nat) : Field := { key := (0xD1040 + 0x10 * i) * 8 + 16, width := 3, reset := 0x0 }
/-- R470 -/ def F.SYN_IN_CFG_source (i : Nat) : Field := { key := (0xD1040 + 0x10 * i) * 8 + 8, width := 5, reset := 0x1F }
/-- R470 -/ def F.SYN_IN_CFG_freq_lim (i : Nat) : Field := { key := (0xD1040 + 0x10 * i) * 8 + 0, width := 8, reset := 0x5C }
/-- R470 -/ def F.SYN_IN_STAT_state (i : Nat) : Field := { key := (0xD1044 + 0x10 * i) * 8 + 29, width := 3, reset := 0x0 }
/-- R470 -/ def F.SYN_IN_STAT_ql_failed (i : Nat) : Field := { key := (0xD1044 + 0x10 * i) * 8 + 28, width := 1, reset := 0x0 }
/-- R470 -/ def F.SYN_IN_STAT_ql_rx (i : Nat) : Field := { key := (0xD1044 + 0x10 * i) * 8 + 24, width := 4, reset := 0xF }
/-- R470 -/ def F.SYN_IN_STAT_offset (i : Nat) : Field := { key := (0xD1044 + 0x10 * i) * 8 + 0, width := 16, reset := 0x0 }
/-- R470 -/ def F.SYN_IN_WTR_remaining (i : Nat) : Field := { key := (0xD1048 + 0x10 * i) * 8 + 0, width := 10, reset := 0x0 }
/-- R471 -/ def F.ESMC_BAD_count : Field := { key := 0xD2048 * 8 + 0, width := 32, reset := 0x0 }
/-- R471 -/ def F.SYN_ESMC_tx_en (i : Nat) : Field := { key := (0xD2100 + 0x4 * i) * 8 + 31, width := 1, reset := 0x0 }
/-- R471 -/ def F.SYN_ESMC_rx_ql (i : Nat) : Field := { key := (0xD2100 + 0x4 * i) * 8 + 24, width := 4, reset := 0xF }
/-- R471 -/ def F.SYN_ESMC_rx_failed (i : Nat) : Field := { key := (0xD2100 + 0x4 * i) * 8 + 23, width := 1, reset := 0x1 }
/-- R471 -/ def F.SYN_ESMC_tx_ql (i : Nat) : Field := { key := (0xD2100 + 0x4 * i) * 8 + 16, width := 4, reset := 0x0 }
/-- R472 -/ def F.SYN_TIME_SNAP_LO_time : Field := { key := 0xD3048 * 8 + 0, width := 32, reset := 0x0 }
/-- R472 -/ def F.SYN_TIME_SNAP_HI_time : Field := { key := 0xD304C * 8 + 0, width := 32, reset := 0x0 }
/-- R472 -/ def F.SYN_TIME_SET_LO_time : Field := { key := 0xD3050 * 8 + 0, width := 32, reset := 0x0 }
/-- R472 -/ def F.SYN_TIME_SET_HI_time : Field := { key := 0xD3054 * 8 + 0, width := 32, reset := 0x0 }
/-- R472 -/ def F.SYN_TIME_CTRL_busy : Field := { key := 0xD3058 * 8 + 30, width := 1, reset := 0x0 }
/-- R472 -/ def F.SYN_TIME_CTRL_op : Field := { key := 0xD3058 * 8 + 29, width := 1, reset := 0x0 }
/-- R472 -/ def F.SYN_TIME_CTRL_adj_rate : Field := { key := 0xD3058 * 8 + 0, width := 10, reset := 0x64 }
/-- R472 -/ def F.SYN_TIME_ADJ_offset : Field := { key := 0xD305C * 8 + 0, width := 32, reset := 0x0 }
/-- R472 -/ def F.SYN_PPS_CTRL_out_en : Field := { key := 0xD3060 * 8 + 31, width := 1, reset := 0x0 }
/-- R472 -/ def F.SYN_PPS_CTRL_align : Field := { key := 0xD3060 * 8 + 30, width := 1, reset := 0x0 }
/-- R472 -/ def F.SYN_PPS_IN_DELAY_delay : Field := { key := 0xD3064 * 8 + 0, width := 32, reset := 0x0 }
/-- R472 -/ def F.SYN_PPS_OUT_DELAY_delay : Field := { key := 0xD3068 * 8 + 0, width := 32, reset := 0x0 }
/-- R472 -/ def F.SYN_PPS_IN_TS_LO_time : Field := { key := 0xD3070 * 8 + 0, width := 32, reset := 0x0 }
/-- R472 -/ def F.SYN_PPS_IN_TS_HI_time : Field := { key := 0xD3074 * 8 + 0, width := 32, reset := 0x0 }
/-- R472 -/ def F.SYN_PPS_STAT_present : Field := { key := 0xD3078 * 8 + 31, width := 1, reset := 0x0 }
/-- R472 -/ def F.SYN_PPS_STAT_e : Field := { key := 0xD3078 * 8 + 0, width := 30, reset := 0x0 }
/-- R472 -/ def F.SYN_OUT_CFG_en (i : Nat) : Field := { key := (0xD4040 + 0x4 * i) * 8 + 31, width := 1, reset := 0x0 }
/-- R472 -/ def F.SYN_OUT_CFG_squelch_freerun (i : Nat) : Field := { key := (0xD4040 + 0x4 * i) * 8 + 30, width := 1, reset := 0x1 }
/-- R472 -/ def F.SYN_OUT_CFG_squelch_ql (i : Nat) : Field := { key := (0xD4040 + 0x4 * i) * 8 + 24, width := 4, reset := 0xF }

/-! spec/16_housekeeping_and_monitoring.md -/
/-- R488 -/ def F.HMP_STAT_aon_xtal_lock : Field := { key := 0xE0044 * 8 + 31, width := 1, reset := 0x0 }
/-- R488 -/ def F.HMP_STAT_sealed : Field := { key := 0xE0044 * 8 + 30, width := 1, reset := 0x0 }
/-- R488 -/ def F.HMP_STAT_fired : Field := { key := 0xE0044 * 8 + 24, width := 6, reset := 0x0 }
/-- R488 -/ def F.HMP_ALARM_alarm : Field := { key := 0xE0048 * 8 + 0, width := 32, reset := 0x0 }
/-- R488 -/ def F.HMP_SEAL_sealed : Field := { key := 0xE004C * 8 + 0, width := 1, reset := 0x0 }
/-- R488 -/ def F.HMP_PD_le1 : Field := { key := 0xE0050 * 8 + 1, width := 1, reset := 0x0 }
/-- R488 -/ def F.HMP_PD_le0 : Field := { key := 0xE0050 * 8 + 0, width := 1, reset := 0x0 }
/-- R487 -/ def F.HMP_RULE_CFG_en (i : Nat) : Field := { key := (0xE1040 + 0x10 * i) * 8 + 31, width := 1, reset := 0x0 }
/-- R487 -/ def F.HMP_RULE_CFG_src (i : Nat) : Field := { key := (0xE1040 + 0x10 * i) * 8 + 29, width := 2, reset := 0x0 }
/-- R487 -/ def F.HMP_RULE_CFG_index (i : Nat) : Field := { key := (0xE1040 + 0x10 * i) * 8 + 23, width := 6, reset := 0x0 }
/-- R487 -/ def F.HMP_RULE_CFG_below (i : Nat) : Field := { key := (0xE1040 + 0x10 * i) * 8 + 22, width := 1, reset := 0x0 }
/-- R487 -/ def F.HMP_RULE_CFG_in_dormant (i : Nat) : Field := { key := (0xE1040 + 0x10 * i) * 8 + 21, width := 1, reset := 0x0 }
/-- R487 -/ def F.HMP_RULE_CFG_in_awake (i : Nat) : Field := { key := (0xE1040 + 0x10 * i) * 8 + 20, width := 1, reset := 0x0 }
/-- R487 -/ def F.HMP_RULE_CFG_persist (i : Nat) : Field := { key := (0xE1040 + 0x10 * i) * 8 + 12, width := 8, reset := 0x1 }
/-- R487 -/ def F.HMP_RULE_CFG_actions (i : Nat) : Field := { key := (0xE1040 + 0x10 * i) * 8 + 0, width := 6, reset := 0x0 }
/-- R487 -/ def F.HMP_RULE_THR_thr (i : Nat) : Field := { key := (0xE1044 + 0x10 * i) * 8 + 0, width := 24, reset := 0x0 }
/-- R487 -/ def F.HMP_RULE_HYST_hyst (i : Nat) : Field := { key := (0xE1048 + 0x10 * i) * 8 + 0, width := 24, reset := 0x0 }
/-- R487 -/ def F.HMP_RULE_STAT_state (i : Nat) : Field := { key := (0xE104C + 0x10 * i) * 8 + 30, width := 2, reset := 0x0 }
/-- R487 -/ def F.HMP_RULE_STAT_count (i : Nat) : Field := { key := (0xE104C + 0x10 * i) * 8 + 16, width := 8, reset := 0x0 }
/-- R487 -/ def F.HMP_RULE_STAT_entries (i : Nat) : Field := { key := (0xE104C + 0x10 * i) * 8 + 0, width := 16, reset := 0x0 }
/-- R488 -/ def F.HMP_LOG_CTRL_held : Field := { key := 0xE2040 * 8 + 16, width := 6, reset := 0x0 }
/-- R488 -/ def F.HMP_LOG_CTRL_dropped : Field := { key := 0xE2040 * 8 + 0, width := 16, reset := 0x0 }
/-- R488 -/ def F.HMP_LOG_bits (i : Nat) : Field := { key := (0xE2050 + 0x4 * i) * 8 + 0, width := 32, reset := 0x0 }
/-- R481 -/ def F.THM_CTRL_ref_en : Field := { key := 0xE4040 * 8 + 0, width := 1, reset := 0x1 }
/-- R481 -/ def F.THM_SEQ_period : Field := { key := 0xE4044 * 8 + 0, width := 24, reset := 0x3E8 }
/-- R481 -/ def F.THM_STAT_ref_ready : Field := { key := 0xE404C * 8 + 31, width := 1, reset := 0x0 }
/-- R481 -/ def F.THM_STAT_seq_busy : Field := { key := 0xE404C * 8 + 30, width := 1, reset := 0x0 }
/-- R481 -/ def F.THM_STAT_trig_pending : Field := { key := 0xE404C * 8 + 29, width := 1, reset := 0x0 }
/-- R481 -/ def F.THM_STAT_cal_busy : Field := { key := 0xE404C * 8 + 28, width := 1, reset := 0x0 }
/-- R481 -/ def F.THM_STAT_cal_queued : Field := { key := 0xE404C * 8 + 27, width := 1, reset := 0x0 }
/-- R481 -/ def F.THM_STAT_tag : Field := { key := 0xE404C * 8 + 21, width := 6, reset := 0x0 }
/-- R481 -/ def F.THM_TRIG_OVL_count : Field := { key := 0xE4050 * 8 + 0, width := 32, reset := 0x0 }
/-- R481 -/ def F.THM_GAIN_gain : Field := { key := 0xE4054 * 8 + 0, width := 24, reset := 0x400000 }
/-- R481 -/ def F.THM_OFFSET_offset : Field := { key := 0xE4058 * 8 + 0, width := 24, reset := 0x0 }
/-- R481 -/ def F.THM_CH_CFG_en (i : Nat) : Field := { key := (0xE5040 + 0x4 * i) * 8 + 31, width := 1, reset := 0x0 }
/-- R481 -/ def F.THM_CH_CFG_win (i : Nat) : Field := { key := (0xE5040 + 0x4 * i) * 8 + 29, width := 2, reset := 0x0 }
/-- R481 -/ def F.THM_CH_CFG_win_ms (i : Nat) : Field := { key := (0xE5040 + 0x4 * i) * 8 + 19, width := 10, reset := 0x14 }
/-- R481 -/ def F.THM_CH_CFG_avg_n (i : Nat) : Field := { key := (0xE5040 + 0x4 * i) * 8 + 15, width := 4, reset := 0x1 }
/-- R481 -/ def F.THM_CH_CFG_filt_k (i : Nat) : Field := { key := (0xE5040 + 0x4 * i) * 8 + 12, width := 3, reset := 0x0 }
/-- R481 -/ def F.THM_CH_CFG_queue (i : Nat) : Field := { key := (0xE5040 + 0x4 * i) * 8 + 11, width := 1, reset := 0x1 }
/-- R481 -/ def F.THM_CH_LAST_flags (i : Nat) : Field := { key := (0xE5200 + 0x8 * i) * 8 + 26, width := 6, reset := 0x0 }
/-- R481 -/ def F.THM_CH_LAST_value (i : Nat) : Field := { key := (0xE5200 + 0x8 * i) * 8 + 0, width := 24, reset := 0x0 }
/-- R481 -/ def F.THM_CH_FILT_value (i : Nat) : Field := { key := (0xE5204 + 0x8 * i) * 8 + 0, width := 24, reset := 0x0 }
/-- R481 -/ def F.THM_Q_CTRL_queued : Field := { key := 0xE6040 * 8 + 16, width := 8, reset := 0x0 }
/-- R481 -/ def F.THM_Q_CTRL_ovf : Field := { key := 0xE6040 * 8 + 0, width := 16, reset := 0x0 }
/-- R481 -/ def F.THM_Q_0_tag : Field := { key := 0xE6050 * 8 + 26, width := 6, reset := 0x0 }
/-- R481 -/ def F.THM_Q_0_seq : Field := { key := 0xE6050 * 8 + 18, width := 8, reset := 0x0 }
/-- R481 -/ def F.THM_Q_0_flags : Field := { key := 0xE6050 * 8 + 12, width := 6, reset := 0x0 }
/-- R481 -/ def F.THM_Q_1_raw : Field := { key := 0xE6054 * 8 + 0, width := 32, reset := 0x0 }
/-- R496 -/ def F.MON_CTRL_en (i : Nat) : Field := { key := (0xE8040 + 0x2000 * i) * 8 + 31, width := 1, reset := 0x0 }
/-- R496 -/ def F.MON_CTRL_preset (i : Nat) : Field := { key := (0xE8040 + 0x2000 * i) * 8 + 28, width := 3, reset := 0x0 }
/-- R496 -/ def F.MON_CTRL_tap (i : Nat) : Field := { key := (0xE8040 + 0x2000 * i) * 8 + 26, width := 2, reset := 0x0 }
/-- R496 -/ def F.MON_CTRL_sel (i : Nat) : Field := { key := (0xE8040 + 0x2000 * i) * 8 + 24, width := 2, reset := 0x0 }
/-- R496 -/ def F.MON_CTRL_sc (i : Nat) : Field := { key := (0xE8040 + 0x2000 * i) * 8 + 19, width := 5, reset := 0x0 }
/-- R496 -/ def F.MON_CTRL_s (i : Nat) : Field := { key := (0xE8040 + 0x2000 * i) * 8 + 15, width := 4, reset := 0x4 }
/-- R496 -/ def F.MON_CTRL_taps (i : Nat) : Field := { key := (0xE8040 + 0x2000 * i) * 8 + 6, width := 9, reset := 0x40 }
/-- R496 -/ def F.MON_CTRL_coef_src (i : Nat) : Field := { key := (0xE8040 + 0x2000 * i) * 8 + 5, width := 1, reset := 0x0 }
/-- R496 -/ def F.MON_COEF_coef (i j : Nat) : Field := { key := (0xE9040 + 0x2000 * i + 0x4 * j) * 8 + 0, width := 18, reset := 0x0 }
/-- R496 -/ def F.MON_DET_rms_k (i : Nat) : Field := { key := (0xE8044 + 0x2000 * i) * 8 + 27, width := 5, reset := 0x0 }
/-- R496 -/ def F.MON_DET_decay_k (i : Nat) : Field := { key := (0xE8044 + 0x2000 * i) * 8 + 22, width := 5, reset := 0x0 }
/-- R496 -/ def F.MON_CAP_dest (i : Nat) : Field := { key := (0xE8048 + 0x2000 * i) * 8 + 31, width := 1, reset := 0x0 }
/-- R496 -/ def F.MON_CAP_trig_src (i : Nat) : Field := { key := (0xE8048 + 0x2000 * i) * 8 + 28, width := 2, reset := 0x0 }
/-- R496 -/ def F.MON_CAP_trig_det (i : Nat) : Field := { key := (0xE8048 + 0x2000 * i) * 8 + 26, width := 2, reset := 0x0 }
/-- R496 -/ def F.MON_CAP_evt (i : Nat) : Field := { key := (0xE8048 + 0x2000 * i) * 8 + 24, width := 2, reset := 0x0 }
/-- R496 -/ def F.MON_CAP_pre (i : Nat) : Field := { key := (0xE8048 + 0x2000 * i) * 8 + 16, width := 8, reset := 0x0 }
/-- R496 -/ def F.MON_CAP_one_shot (i : Nat) : Field := { key := (0xE8048 + 0x2000 * i) * 8 + 15, width := 1, reset := 0x0 }
/-- R496 -/ def F.MON_CAP_LEN_len (i : Nat) : Field := { key := (0xE804C + 0x2000 * i) * 8 + 0, width := 28, reset := 0x400 }
/-- R496 -/ def F.MON_CAP_AREA_page (i : Nat) : Field := { key := (0xE8050 + 0x2000 * i) * 8 + 0, width := 18, reset := 0x0 }
/-- R496 -/ def F.MON_STAT_state (i : Nat) : Field := { key := (0xE805C + 0x2000 * i) * 8 + 30, width := 2, reset := 0x0 }
/-- R496 -/ def F.MON_STAT_pending (i : Nat) : Field := { key := (0xE805C + 0x2000 * i) * 8 + 29, width := 1, reset := 0x0 }
/-- R496 -/ def F.MON_STAT_overrun (i : Nat) : Field := { key := (0xE805C + 0x2000 * i) * 8 + 28, width := 1, reset := 0x0 }
/-- R496 -/ def F.MON_STAT_length (i : Nat) : Field := { key := (0xE805C + 0x2000 * i) * 8 + 0, width := 28, reset := 0x0 }
/-- R496 -/ def F.MON_PEAK_value (i : Nat) : Field := { key := (0xE8060 + 0x2000 * i) * 8 + 0, width := 16, reset := 0x0 }
/-- R496 -/ def F.MON_RMS_value (i : Nat) : Field := { key := (0xE8064 + 0x2000 * i) * 8 + 0, width := 16, reset := 0x0 }
/-- R496 -/ def F.MON_ENV_value (i : Nat) : Field := { key := (0xE8068 + 0x2000 * i) * 8 + 0, width := 16, reset := 0x0 }
/-- R496 -/ def F.MON_TRIG_OVL_count (i : Nat) : Field := { key := (0xE806C + 0x2000 * i) * 8 + 0, width := 32, reset := 0x0 }
/-- R496 -/ def F.MON_SAT_count (i : Nat) : Field := { key := (0xE8070 + 0x2000 * i) * 8 + 0, width := 32, reset := 0x0 }
/-- R496 -/ def F.MON_CAP_SEQ_count (i : Nat) : Field := { key := (0xE8074 + 0x2000 * i) * 8 + 0, width := 32, reset := 0x0 }
/-- R496 -/ def F.MON_TRIG_T_LO_time (i : Nat) : Field := { key := (0xE8078 + 0x2000 * i) * 8 + 0, width := 32, reset := 0x0 }
/-- R496 -/ def F.MON_TRIG_T_HI_time (i : Nat) : Field := { key := (0xE807C + 0x2000 * i) * 8 + 0, width := 32, reset := 0x0 }

/-! spec/17_calibration_and_repair.md -/
/-- R502 -/ def F.TRIM_ADC_gain (i j k : Nat) : Field := { key := (0x320000 + 0x4000 * i + 0x800 * j + 0x4 * k) * 8 + 20, width := 12, reset := 0x0 }
/-- R502 -/ def F.TRIM_ADC_offset (i j k : Nat) : Field := { key := (0x320000 + 0x4000 * i + 0x800 * j + 0x4 * k) * 8 + 10, width := 10, reset := 0x0 }
/-- R502 -/ def F.TRIM_ADC_skew (i j k : Nat) : Field := { key := (0x320000 + 0x4000 * i + 0x800 * j + 0x4 * k) * 8 + 0, width := 10, reset := 0x0 }
/-- R502 -/ def F.TRIM_DAC_gain (i j k : Nat) : Field := { key := (0x320440 + 0x4000 * i + 0x800 * j + 0x4 * k) * 8 + 20, width := 12, reset := 0x0 }
/-- R502 -/ def F.TRIM_DAC_offset (i j k : Nat) : Field := { key := (0x320440 + 0x4000 * i + 0x800 * j + 0x4 * k) * 8 + 10, width := 10, reset := 0x0 }
/-- R502 -/ def F.TRIM_DAC_skew (i j k : Nat) : Field := { key := (0x320440 + 0x4000 * i + 0x800 * j + 0x4 * k) * 8 + 0, width := 10, reset := 0x0 }
/-- R502 -/ def F.TRIM_LANE_swing (i j k : Nat) : Field := { key := (0x320660 + 0x4000 * i + 0x800 * j + 0x4 * k) * 8 + 8, width := 8, reset := 0x0 }
/-- R502 -/ def F.TRIM_LANE_peaking (i j k : Nat) : Field := { key := (0x320660 + 0x4000 * i + 0x800 * j + 0x4 * k) * 8 + 0, width := 8, reset := 0x0 }
/-- R515 -/ def F.REP_TEST_pipe_interval : Field := { key := 0xF0044 * 8 + 24, width := 8, reset := 0x3C }
/-- R515 -/ def F.REP_TEST_page_interval : Field := { key := 0xF0044 * 8 + 16, width := 8, reset := 0xA }
/-- R515 -/ def F.REP_TEST_dpll_interval : Field := { key := 0xF0044 * 8 + 0, width := 16, reset := 0x5A0 }
/-- R515 -/ def F.REP_CTRL_test_en : Field := { key := 0xF0040 * 8 + 31, width := 1, reset := 0x1 }
/-- R515 -/ def F.REP_CTRL_thm_test_en : Field := { key := 0xF0040 * 8 + 30, width := 1, reset := 0x1 }
/-- R515 -/ def F.REP_STAT_degraded_reported : Field := { key := 0xF004C * 8 + 31, width := 1, reset := 0x0 }
/-- R515 -/ def F.REP_STAT_exhausted : Field := { key := 0xF004C * 8 + 16, width := 10, reset := 0x0 }
/-- R515 -/ def F.REP_STAT_dpll_test_busy : Field := { key := 0xF004C * 8 + 8, width := 1, reset := 0x0 }
/-- R515 -/ def F.REP_STAT_mon_fail_le1 : Field := { key := 0xF004C * 8 + 3, width := 1, reset := 0x0 }
/-- R515 -/ def F.REP_STAT_mon_fail_le0 : Field := { key := 0xF004C * 8 + 2, width := 1, reset := 0x0 }
/-- R515 -/ def F.REP_THM_FAIL_LO_bits : Field := { key := 0xF0050 * 8 + 0, width := 32, reset := 0x0 }
/-- R515 -/ def F.REP_THM_FAIL_HI_bits : Field := { key := 0xF0054 * 8 + 0, width := 16, reset := 0x0 }
/-- R516 -/ def F.REP_CLASS_STAT_exhausted (i : Nat) : Field := { key := (0xF1040 + 0x4 * i) * 8 + 31, width := 1, reset := 0x0 }
/-- R516 -/ def F.REP_CLASS_SWAPS_count (i : Nat) : Field := { key := (0xF1080 + 0x4 * i) * 8 + 0, width := 32, reset := 0x0 }
/-- R517 -/ def F.CAL_ENG_CTRL_interp_en (i : Nat) : Field := { key := (0xF2040 + 0x20 * i) * 8 + 31, width := 1, reset := 0x1 }
/-- R517 -/ def F.CAL_ENG_CTRL_learn_en (i : Nat) : Field := { key := (0xF2040 + 0x20 * i) * 8 + 30, width := 1, reset := 0x1 }
/-- R517 -/ def F.CAL_ENG_CTRL_adc_rot_en (i : Nat) : Field := { key := (0xF2040 + 0x20 * i) * 8 + 29, width := 1, reset := 0x1 }
/-- R517 -/ def F.CAL_ENG_CTRL_dac_rot_en (i : Nat) : Field := { key := (0xF2040 + 0x20 * i) * 8 + 28, width := 1, reset := 0x1 }
/-- R517 -/ def F.CAL_ENG_CTRL_loop_en (i : Nat) : Field := { key := (0xF2040 + 0x20 * i) * 8 + 27, width := 1, reset := 0x1 }
/-- R517 -/ def F.CAL_ENG_STAT_clamped (i : Nat) : Field := { key := (0xF2044 + 0x20 * i) * 8 + 31, width := 1, reset := 0x0 }
/-- R517 -/ def F.CAL_ENG_STAT_learned (i : Nat) : Field := { key := (0xF2044 + 0x20 * i) * 8 + 24, width := 6, reset := 0x0 }
/-- R517 -/ def F.CAL_ENG_STAT_lower (i : Nat) : Field := { key := (0xF2044 + 0x20 * i) * 8 + 21, width := 3, reset := 0x0 }
/-- R517 -/ def F.CAL_ENG_STAT_die_temp (i : Nat) : Field := { key := (0xF2044 + 0x20 * i) * 8 + 0, width := 16, reset := 0x0 }
/-- R517 -/ def F.CAL_ENG_ROT_dac_rot_ms (i : Nat) : Field := { key := (0xF2048 + 0x20 * i) * 8 + 16, width := 16, reset := 0x64 }
/-- R517 -/ def F.CAL_ENG_ROT_adc_rot_ms (i : Nat) : Field := { key := (0xF2048 + 0x20 * i) * 8 + 0, width := 16, reset := 0x64 }
/-- R517 -/ def F.CAL_FG_busy : Field := { key := 0xF2080 * 8 + 30, width := 1, reset := 0x0 }
/-- R517 -/ def F.CAL_FG_engine : Field := { key := 0xF2080 * 8 + 8, width := 1, reset := 0x0 }
/-- R517 -/ def F.CAL_FG_fec : Field := { key := 0xF2080 * 8 + 2, width := 1, reset := 0x1 }
/-- R517 -/ def F.CAL_FG_dac : Field := { key := 0xF2080 * 8 + 1, width := 1, reset := 0x1 }
/-- R517 -/ def F.CAL_FG_adc : Field := { key := 0xF2080 * 8 + 0, width := 1, reset := 0x1 }
/-- R517 -/ def F.CAL_FG_STAT_slices : Field := { key := 0xF2084 * 8 + 16, width := 8, reset := 0x0 }
/-- R517 -/ def F.CAL_FG_STAT_subdacs : Field := { key := 0xF2084 * 8 + 8, width := 8, reset := 0x0 }
/-- R517 -/ def F.CAL_FG_STAT_tiles : Field := { key := 0xF2084 * 8 + 0, width := 8, reset := 0x0 }

/-! spec/18_errors_ordering_and_counters.md -/
/-- R529 -/ def F.CNT_SEL_en (i : Nat) : Field := { key := (0x330000 + 0x20 * i) * 8 + 31, width := 1, reset := 0x0 }
/-- R529 -/ def F.CNT_SEL_mode (i : Nat) : Field := { key := (0x330000 + 0x20 * i) * 8 + 29, width := 2, reset := 0x0 }
/-- R529 -/ def F.CNT_SEL_chain_in (i : Nat) : Field := { key := (0x330000 + 0x20 * i) * 8 + 28, width := 1, reset := 0x0 }
/-- R529 -/ def F.CNT_SEL_src (i : Nat) : Field := { key := (0x330000 + 0x20 * i) * 8 + 27, width := 1, reset := 0x0 }
/-- R529 -/ def F.CNT_SEL_sat (i : Nat) : Field := { key := (0x330000 + 0x20 * i) * 8 + 26, width := 1, reset := 0x0 }
/-- R529 -/ def F.CNT_SEL_sel (i : Nat) : Field := { key := (0x330000 + 0x20 * i) * 8 + 13, width := 13, reset := 0x0 }
/-- R529 -/ def F.CNT_THR_thr (i : Nat) : Field := { key := (0x330004 + 0x20 * i) * 8 + 0, width := 32, reset := 0x0 }
/-- R529 -/ def F.CNT_LO_value (i : Nat) : Field := { key := (0x330008 + 0x20 * i) * 8 + 0, width := 32, reset := 0x0 }
/-- R529 -/ def F.CNT_HI_value (i : Nat) : Field := { key := (0x33000C + 0x20 * i) * 8 + 0, width := 16, reset := 0x0 }
/-- R536 -/ def F.CNT_SNAP_LO_value (i : Nat) : Field := { key := (0x330010 + 0x20 * i) * 8 + 0, width := 32, reset := 0x0 }
/-- R536 -/ def F.CNT_SNAP_HI_value (i : Nat) : Field := { key := (0x330014 + 0x20 * i) * 8 + 0, width := 16, reset := 0x0 }
/-- R523 -/ def F.EVL_CTRL_policy : Field := { key := 0xFA040 * 8 + 30, width := 2, reset := 0x2 }
/-- R523 -/ def F.EVL_CTRL_fold_us : Field := { key := 0xFA040 * 8 + 0, width := 16, reset := 0x3E8 }
/-- R523 -/ def F.EVL_HEAD_count : Field := { key := 0xFA044 * 8 + 0, width := 32, reset := 0x0 }
/-- R523 -/ def F.EVL_TAIL_count : Field := { key := 0xFA048 * 8 + 0, width := 32, reset := 0x0 }
/-- R523 -/ def F.EVL_DROP_count : Field := { key := 0xFA04C * 8 + 0, width := 32, reset := 0x0 }
/-- R523 -/ def F.EVL_LATE_count : Field := { key := 0xFA050 * 8 + 0, width := 32, reset := 0x0 }
/-- R522 -/ def F.EVL_MASK_mask (i : Nat) : Field := { key := (0xFB400 + 0x4 * i) * 8 + 0, width := 32, reset := 0x7E000000 }
/-- R534 -/ def F.CNT_FREEZE_freeze : Field := { key := 0xF8040 * 8 + 31, width := 1, reset := 0x0 }
/-- R534 -/ def F.CNT_FREEZE_busy : Field := { key := 0xF8040 * 8 + 30, width := 1, reset := 0x0 }
/-- R534 -/ def F.CNT_FREEZE_lead : Field := { key := 0xF8040 * 8 + 0, width := 16, reset := 0x4 }
/-- R534 -/ def F.CNT_FREEZE_T_LO_value : Field := { key := 0xF8044 * 8 + 0, width := 32, reset := 0x0 }
/-- R534 -/ def F.CNT_FREEZE_T_HI_value : Field := { key := 0xF8048 * 8 + 0, width := 32, reset := 0x0 }
/-- R533 -/ def F.CNT_OVF_bits (i : Nat) : Field := { key := (0xF8080 + 0x4 * i) * 8 + 0, width := 32, reset := 0x0 }
/-- R541 -/ def F.SMP_CTRL_en : Field := { key := 0xF9040 * 8 + 31, width := 1, reset := 0x0 }
/-- R541 -/ def F.SMP_CTRL_stop : Field := { key := 0xF9040 * 8 + 30, width := 1, reset := 0x0 }
/-- R541 -/ def F.SMP_CTRL_path : Field := { key := 0xF9040 * 8 + 28, width := 2, reset := 0x0 }
/-- R541 -/ def F.SMP_CTRL_k : Field := { key := 0xF9040 * 8 + 23, width := 5, reset := 0xA }
/-- R541 -/ def F.SMP_CTRL_j : Field := { key := 0xF9040 * 8 + 18, width := 5, reset := 0x4 }
/-- R541 -/ def F.SMP_CTRL_port : Field := { key := 0xF9040 * 8 + 13, width := 5, reset := 0x0 }
/-- R541 -/ def F.SMP_CTRL_port_en : Field := { key := 0xF9040 * 8 + 12, width := 1, reset := 0x0 }
/-- R541 -/ def F.SMP_STAT_full : Field := { key := 0xF9044 * 8 + 31, width := 1, reset := 0x0 }
/-- R541 -/ def F.SMP_STAT_inflight : Field := { key := 0xF9044 * 8 + 16, width := 5, reset := 0x0 }
/-- R541 -/ def F.SMP_STAT_held : Field := { key := 0xF9044 * 8 + 0, width := 14, reset := 0x0 }
/-- R541 -/ def F.SMP_WR_COUNT_count : Field := { key := 0xF9048 * 8 + 0, width := 32, reset := 0x0 }
/-- R541 -/ def F.SMP_SKIP_count : Field := { key := 0xF904C * 8 + 0, width := 32, reset := 0x0 }

/-! spec/19_electrical_and_package.md -/
/-- R549 -/ def F.DEV_AVS_avs_fail : Field := { key := 0x5C * 8 + 31, width := 1, reset := 0x0 }
/-- R549 -/ def F.DEV_AVS_avs_busy : Field := { key := 0x5C * 8 + 30, width := 1, reset := 0x0 }
/-- R549 -/ def F.DEV_AVS_fused_code : Field := { key := 0x5C * 8 + 16, width := 8, reset := 0x14 }
/-- R549 -/ def F.DEV_AVS_setpoint_code : Field := { key := 0x5C * 8 + 0, width := 8, reset := 0x14 }
/-- R562 -/ def F.GPIO_DIR_dir : Field := { key := 0x6040 * 8 + 0, width := 16, reset := 0x0 }
/-- R562 -/ def F.GPIO_OUT_out : Field := { key := 0x6044 * 8 + 0, width := 16, reset := 0x0 }
/-- R562 -/ def F.GPIO_IN_in : Field := { key := 0x6048 * 8 + 0, width := 16, reset := 0x0 }
/-- R562 -/ def F.GPIO_EDGE_falling : Field := { key := 0x604C * 8 + 16, width := 16, reset := 0x0 }
/-- R562 -/ def F.GPIO_EDGE_rising : Field := { key := 0x604C * 8 + 0, width := 16, reset := 0x0 }

end Sys2Proof.Machine
end

