-- ==== Sys2Proof/Machine/RegMap.lean ====
section
/-! DEFINITION. The register map: every register the chapters of spec/ define beside the common page header, with the
access code (R15) and reset value of every field, as the field tables give them. A row is one register or one array of them. -/
namespace Sys2Proof.Machine

/-- Registers of spec/01_architecture.md. -/
def regMap01 : List RegRow :=
  [ { name := "LE_ROLE", base := 0x10040, dims := [(0x40000, 2)], fields := [⟨15, 12, .rws, 0x0⟩, ⟨8, 8, .rws, 0x0⟩, ⟨2, 0, .rws, 0x0⟩] },
    { name := "LE_ROLE_STAT", base := 0x10044, dims := [(0x40000, 2)], fields := [⟨19, 18, .ro, 0x0⟩, ⟨15, 12, .ro, 0x0⟩, ⟨8, 8, .ro, 0x0⟩, ⟨7, 3, .ro, 0x0⟩, ⟨2, 0, .ro, 0x0⟩] } ]

/-- Registers of spec/02_register_fabric.md. -/
def regMap02 : List RegRow :=
  [ { name := "DEV_COMMIT_SYNC", base := 0x60, dims := [], fields := [⟨15, 8, .ro, 0x0⟩, ⟨0, 0, .wo, 0x0⟩] },
    { name := "DEV_EVT_SUMMARY", base := 0x1040, dims := [(0x4, 8)], fields := [⟨31, 0, .ro, 0x0⟩] },
    { name := "DEV_VEC_EOI", base := 0x1080, dims := [], fields := [⟨5, 0, .wo, 0x0⟩] },
    { name := "DEV_VEC_PEND_LO", base := 0x1088, dims := [], fields := [⟨31, 0, .ro, 0x0⟩] },
    { name := "DEV_VEC_PEND_HI", base := 0x108C, dims := [], fields := [⟨31, 0, .ro, 0x0⟩] },
    { name := "DEV_PIN_STAT", base := 0x1090, dims := [], fields := [⟨1, 1, .ro, 0x0⟩, ⟨0, 0, .ro, 0x0⟩] },
    { name := "DEV_PAGE_ROUTE", base := 0x1400, dims := [(0x4, 256)], fields := [⟨10, 10, .rw, 0x0⟩, ⟨9, 9, .rw, 0x0⟩, ⟨8, 8, .rw, 0x0⟩, ⟨5, 0, .rw, 0x0⟩] },
    { name := "FAB_ERR_CNT", base := 0x7040, dims := [], fields := [⟨31, 0, .rc, 0x0⟩] },
    { name := "FAB_ERR_LAST_ADDR", base := 0x7044, dims := [], fields := [⟨31, 0, .ro, 0x0⟩] },
    { name := "FAB_ERR_LAST_INFO", base := 0x7048, dims := [], fields := [⟨11, 8, .ro, 0x0⟩, ⟨3, 0, .ro, 0x0⟩] },
    { name := "LOCKN", base := 0x8040, dims := [(0x4, 64)], fields := [⟨31, 31, .ra, 0x0⟩, ⟨3, 0, .ra, 0x0⟩] },
    { name := "LOCK_ERR", base := 0x8140, dims := [], fields := [⟨31, 24, .ro, 0x0⟩, ⟨23, 18, .ro, 0x0⟩, ⟨17, 14, .ro, 0x0⟩, ⟨13, 0, .rc, 0x0⟩] },
    { name := "LOCK_ORPHAN", base := 0x8144, dims := [], fields := [⟨19, 16, .ro, 0x0⟩, ⟨15, 0, .rc, 0x0⟩] },
    { name := "LOCK_BUSY_LO", base := 0x8148, dims := [], fields := [⟨31, 0, .ro, 0x0⟩] },
    { name := "LOCK_BUSY_HI", base := 0x814C, dims := [], fields := [⟨31, 0, .ro, 0x0⟩] },
    { name := "MBX_TX", base := 0x9040, dims := [(0x20, 12)], fields := [⟨31, 0, .wo, 0x0⟩] },
    { name := "MBX_RX", base := 0x9044, dims := [(0x20, 12)], fields := [⟨31, 0, .rc, 0x0⟩] },
    { name := "MBX_STAT", base := 0x9048, dims := [(0x20, 12)], fields := [⟨27, 24, .ro, 0x0⟩, ⟨23, 20, .ro, 0x0⟩, ⟨19, 19, .ro, 0x0⟩, ⟨18, 18, .ro, 0x1⟩, ⟨17, 17, .w1c, 0x0⟩, ⟨16, 16, .w1c, 0x0⟩, ⟨15, 15, .w1c, 0x0⟩, ⟨14, 14, .ro, 0x0⟩, ⟨7, 0, .ro, 0x0⟩] },
    { name := "MBX_CFG", base := 0x904C, dims := [(0x20, 12)], fields := [⟨19, 0, .rw, 0x186A0⟩] },
    { name := "MBX_HOST_RESET", base := 0x9200, dims := [], fields := [⟨0, 0, .w1s, 0x0⟩] },
    { name := "XS_RESET_LO", base := 0xA040, dims := [], fields := [⟨31, 0, .ro, 0x0⟩] },
    { name := "XS_RESET_HI", base := 0xA044, dims := [], fields := [⟨31, 0, .ro, 0x0⟩] },
    { name := "XS_RESYNC_LO", base := 0xA048, dims := [], fields := [⟨31, 0, .w1c, 0x0⟩] },
    { name := "XS_RESYNC_HI", base := 0xA04C, dims := [], fields := [⟨31, 0, .w1c, 0x0⟩] },
    { name := "XS_PULSE_SAT_LO", base := 0xA050, dims := [], fields := [⟨31, 0, .w1c, 0x0⟩] },
    { name := "XS_PULSE_SAT_HI", base := 0xA054, dims := [], fields := [⟨31, 0, .w1c, 0x0⟩] },
    { name := "XS_DROP_CNT", base := 0xA058, dims := [], fields := [⟨31, 0, .rc, 0x0⟩] } ]

/-- Registers of spec/03_modes_and_startup.md. -/
def regMap03 : List RegRow :=
  [ { name := "DEV_MODE", base := 0x40, dims := [], fields := [⟨31, 31, .ro, 0x1⟩, ⟨27, 24, .ro, 0x0⟩, ⟨23, 20, .ro, 0x0⟩, ⟨19, 16, .ro, 0x1⟩, ⟨9, 9, .rw, 0x0⟩, ⟨8, 8, .rw, 0x0⟩, ⟨3, 0, .wo, 0x0⟩] },
    { name := "DEV_STATUS", base := 0x44, dims := [], fields := [⟨31, 31, .ro, 0x0⟩, ⟨30, 30, .ro, 0x0⟩, ⟨29, 29, .ro, 0x0⟩, ⟨28, 28, .ro, 0x0⟩, ⟨27, 27, .ro, 0x0⟩, ⟨26, 26, .ro, 0x0⟩, ⟨25, 25, .ro, 0x0⟩, ⟨24, 24, .ro, 0x0⟩, ⟨23, 23, .ro, 0x0⟩, ⟨22, 22, .ro, 0x0⟩, ⟨21, 21, .ro, 0x0⟩, ⟨20, 20, .ro, 0x0⟩, ⟨19, 16, .ro, 0x0⟩, ⟨15, 8, .ro, 0x0⟩, ⟨7, 0, .ro, 0x0⟩] },
    { name := "DEV_WAKE_SRC", base := 0x48, dims := [], fields := [⟨12, 8, .ro, 0x0⟩, ⟨3, 0, .ro, 0x0⟩] },
    { name := "DEV_RESET_CAUSE", base := 0x4C, dims := [], fields := [⟨7, 7, .w1c, 0x1⟩, ⟨6, 6, .w1c, 0x0⟩, ⟨5, 5, .w1c, 0x0⟩, ⟨4, 4, .w1c, 0x0⟩, ⟨3, 3, .w1c, 0x0⟩, ⟨2, 2, .w1c, 0x0⟩, ⟨1, 1, .w1c, 0x0⟩] },
    { name := "DEV_RESET", base := 0x58, dims := [], fields := [⟨31, 16, .wo, 0x0⟩, ⟨0, 0, .wo, 0x0⟩] },
    { name := "DEV_BCR_STAT", base := 0x50, dims := [], fields := [⟨31, 31, .ro, 0x0⟩, ⟨28, 16, .ro, 0x0⟩, ⟨15, 8, .ro, 0x0⟩, ⟨7, 0, .ro, 0x0⟩] },
    { name := "HMP_WAKE_EN", base := 0xE0040, dims := [], fields := [⟨2, 2, .rw, 0x0⟩, ⟨1, 1, .rw, 0x1⟩, ⟨0, 0, .rw, 0x1⟩] } ]

/-- Registers of spec/04_line_transmit.md. -/
def regMap04 : List RegRow :=
  [ { name := "LE_TX_PLAN", base := 0x14040, dims := [(0x40000, 2)], fields := [⟨31, 30, .rws, 0x1⟩, ⟨28, 26, .rws, 0x0⟩, ⟨25, 23, .rws, 0x2⟩, ⟨22, 15, .rws, 0x80⟩, ⟨10, 0, .rws, 0x1E0⟩] },
    { name := "LE_TX_SHAPE", base := 0x14044, dims := [(0x40000, 2)], fields := [⟨31, 31, .rws, 0x0⟩, ⟨11, 8, .rws, 0x0⟩, ⟨7, 0, .rws, 0xA⟩] },
    { name := "LE_TX_PLAN_AT", base := 0x14048, dims := [(0x40000, 2)], fields := [⟨31, 0, .rws, 0x0⟩] },
    { name := "LE_TX_SC_EN", base := 0x1404C, dims := [(0x40000, 2)], fields := [⟨31, 0, .rws, 0xFFFFFFFF⟩] },
    { name := "LE_TX_SC_GAIN", base := 0x14080, dims := [(0x40000, 2), (0x4, 32)], fields := [⟨8, 0, .rws, 0x0⟩] },
    { name := "LE_TX_PLAN_STAT", base := 0x14050, dims := [(0x40000, 2)], fields := [⟨31, 31, .ro, 0x0⟩, ⟨30, 30, .ro, 0x0⟩, ⟨29, 24, .ro, 0x0⟩, ⟨23, 16, .ro, 0x0⟩, ⟨14, 12, .ro, 0x0⟩, ⟨10, 0, .ro, 0x0⟩] },
    { name := "LE_TX_CODED_RATE", base := 0x14054, dims := [(0x40000, 2)], fields := [⟨19, 0, .ro, 0x0⟩] },
    { name := "LE_TX_NET_RATE", base := 0x14058, dims := [(0x40000, 2)], fields := [⟨19, 0, .ro, 0x0⟩] },
    { name := "LE_TX_BAUD_MAX", base := 0x1405C, dims := [(0x40000, 2)], fields := [⟨10, 0, .ro, 0x460⟩] },
    { name := "LE_TX_SHAPE_GAIN", base := 0x15200, dims := [(0x40000, 2), (0x4, 64)], fields := [⟨9, 0, .rws, 0x0⟩] },
    { name := "LE_TX_MASK_LIMIT", base := 0x15100, dims := [(0x40000, 2), (0x4, 64)], fields := [⟨31, 0, .rws, 0xFFFFFFFF⟩] },
    { name := "LE_TX_MASK_CTRL", base := 0x15040, dims := [(0x40000, 2)], fields := [⟨11, 4, .rws, 0x3⟩, ⟨1, 0, .rws, 0x1⟩] },
    { name := "LE_TX_MASK_STAT", base := 0x15044, dims := [(0x40000, 2)], fields := [⟨31, 31, .ro, 0x0⟩, ⟨30, 30, .ro, 0x0⟩, ⟨25, 18, .ro, 0x0⟩, ⟨17, 9, .ro, 0x0⟩, ⟨8, 0, .ro, 0x0⟩] },
    { name := "LE_TX_MASK_MUTED", base := 0x15048, dims := [(0x40000, 2)], fields := [⟨31, 0, .w1c, 0x0⟩] },
    { name := "LE_TX_MASK_VIOL_CNT", base := 0x1504C, dims := [(0x40000, 2)], fields := [⟨31, 0, .rc, 0x0⟩] },
    { name := "LE_TX_LANE_GAIN", base := 0x16040, dims := [(0x40000, 2), (0x10, 4)], fields := [⟨10, 0, .rws, 0x0⟩] },
    { name := "LE_TX_LANE_SKEW", base := 0x16044, dims := [(0x40000, 2), (0x10, 4)], fields := [⟨12, 0, .rws, 0x0⟩] },
    { name := "LE_TX_CLIP_CNT", base := 0x16048, dims := [(0x40000, 2), (0x10, 4)], fields := [⟨31, 0, .rc, 0x0⟩] },
    { name := "LE_TX_IQ_PHASE_X", base := 0x16080, dims := [(0x40000, 2)], fields := [⟨10, 0, .rws, 0x0⟩] },
    { name := "LE_TX_IQ_PHASE_Y", base := 0x16084, dims := [(0x40000, 2)], fields := [⟨10, 0, .rws, 0x0⟩] },
    { name := "LE_TX_PREEMP", base := 0x16100, dims := [(0x40000, 2), (0x80, 4), (0x4, 32)], fields := [⟨9, 0, .rws, 0x0⟩] },
    { name := "LE_TX_CLIP", base := 0x16088, dims := [(0x40000, 2)], fields := [⟨7, 0, .rws, 0x64⟩] },
    { name := "LE_TX_DAC_MAP", base := 0x16300, dims := [(0x40000, 2), (0x4, 4)], fields := [⟨21, 16, .ro, 0x20⟩, ⟨13, 8, .ro, 0x21⟩, ⟨5, 0, .ro, 0x20⟩] },
    { name := "LE_TX_ENV_CTRL", base := 0x17040, dims := [(0x40000, 2)], fields := [⟨25, 24, .rws, 0x0⟩, ⟨20, 20, .rws, 0x0⟩, ⟨19, 10, .rws, 0x3FF⟩, ⟨9, 0, .rws, 0x0⟩] },
    { name := "LE_TX_ENV_TIME", base := 0x17044, dims := [(0x40000, 2)], fields := [⟨31, 24, .rws, 0x0⟩, ⟨23, 16, .rws, 0x14⟩, ⟨15, 8, .rws, 0xA⟩, ⟨7, 0, .rws, 0xA⟩] },
    { name := "LE_TX_ENV_STAT", base := 0x17048, dims := [(0x40000, 2)], fields := [⟨31, 31, .ro, 0x0⟩] },
    { name := "LE_TX_ENV_MERGE_CNT", base := 0x1704C, dims := [(0x40000, 2)], fields := [⟨31, 0, .rc, 0x0⟩] } ]

/-- Registers of spec/05_line_receive.md. -/
def regMap05 : List RegRow :=
  [ { name := "LE_RX_PLAN", base := 0x18040, dims := [(0x40000, 2)], fields := [⟨31, 30, .rws, 0x1⟩, ⟨28, 26, .rws, 0x0⟩, ⟨25, 23, .rws, 0x2⟩, ⟨22, 15, .rws, 0x80⟩, ⟨14, 14, .rws, 0x1⟩, ⟨10, 0, .rws, 0x1E0⟩] },
    { name := "LE_RX_SC_EN", base := 0x18044, dims := [(0x40000, 2)], fields := [⟨31, 0, .rws, 0xFFFFFFFF⟩] },
    { name := "LE_RX_PLAN_STAT", base := 0x18048, dims := [(0x40000, 2)], fields := [⟨31, 31, .ro, 0x0⟩, ⟨30, 30, .ro, 0x0⟩, ⟨29, 24, .ro, 0x0⟩, ⟨23, 16, .ro, 0x0⟩, ⟨14, 12, .ro, 0x0⟩, ⟨10, 0, .ro, 0x0⟩] },
    { name := "LE_RX_FOLLOW_AT", base := 0x1804C, dims := [(0x40000, 2)], fields := [⟨31, 0, .ro, 0x0⟩] },
    { name := "LE_RX_FOLLOW_STAT", base := 0x18050, dims := [(0x40000, 2)], fields := [⟨23, 16, .ro, 0x0⟩, ⟨15, 8, .ro, 0x0⟩, ⟨7, 0, .ro, 0x0⟩] },
    { name := "LE_RX_BAUD_MAX", base := 0x18054, dims := [(0x40000, 2)], fields := [⟨10, 0, .ro, 0x460⟩] },
    { name := "LE_RX_STATE", base := 0x18058, dims := [(0x40000, 2)], fields := [⟨31, 16, .ro, 0x0⟩, ⟨9, 9, .ro, 0x1⟩, ⟨8, 8, .ro, 0x0⟩, ⟨2, 0, .ro, 0x0⟩] },
    { name := "LE_RX_SC_LOCK", base := 0x1805C, dims := [(0x40000, 2)], fields := [⟨31, 0, .ro, 0x0⟩] },
    { name := "LE_RX_SC_LOCK_LOST", base := 0x18060, dims := [(0x40000, 2)], fields := [⟨31, 0, .w1c, 0x0⟩] },
    { name := "LE_RX_LOS_CTRL", base := 0x18064, dims := [(0x40000, 2)], fields := [⟨8, 8, .rws, 0x1⟩, ⟨7, 0, .rws, 0x50⟩] },
    { name := "LE_RX_ADC_MAP", base := 0x19040, dims := [(0x40000, 2), (0x8, 4)], fields := [⟨30, 24, .ro, 0x0⟩, ⟨18, 16, .ro, 0x0⟩, ⟨6, 0, .ro, 0x7F⟩] },
    { name := "LE_RX_ADC_SPARE", base := 0x19044, dims := [(0x40000, 2), (0x8, 4)], fields := [⟨30, 24, .ro, 0x7F⟩, ⟨22, 16, .ro, 0x7F⟩, ⟨14, 8, .ro, 0x7F⟩, ⟨6, 0, .ro, 0x7F⟩] },
    { name := "LE_RX_ADC_ROT_CNT", base := 0x19060, dims := [(0x40000, 2)], fields := [⟨31, 0, .rc, 0x0⟩] },
    { name := "LE_RX_ADC_REP_CNT", base := 0x19064, dims := [(0x40000, 2)], fields := [⟨31, 0, .rc, 0x0⟩] },
    { name := "LE_RX_ADC_OVR", base := 0x19100, dims := [(0x40000, 2), (0x4, 4)], fields := [⟨31, 0, .rc, 0x0⟩] },
    { name := "LE_RX_FE_CTRL", base := 0x19080, dims := [(0x40000, 2)], fields := [⟨2, 2, .rws, 0x1⟩, ⟨1, 1, .rws, 0x1⟩, ⟨0, 0, .rws, 0x1⟩] },
    { name := "LE_RX_LANE_SKEW", base := 0x190A0, dims := [(0x40000, 2), (0x4, 4)], fields := [⟨12, 0, .rws, 0x0⟩] },
    { name := "LE_RX_LANE_SKEW_EST", base := 0x190C0, dims := [(0x40000, 2), (0x4, 4)], fields := [⟨12, 0, .ro, 0x0⟩] },
    { name := "LE_RX_IQ_EST_X", base := 0x190E0, dims := [(0x40000, 2)], fields := [⟨31, 16, .ro, 0x0⟩, ⟨15, 0, .ro, 0x0⟩] },
    { name := "LE_RX_IQ_EST_Y", base := 0x190E4, dims := [(0x40000, 2)], fields := [⟨31, 16, .ro, 0x0⟩, ⟨15, 0, .ro, 0x0⟩] },
    { name := "LE_RX_REFL_CTRL", base := 0x1A040, dims := [(0x40000, 2)], fields := [⟨19, 16, .rws, 0x4⟩, ⟨15, 8, .rws, 0x28⟩, ⟨6, 4, .rws, 0x7⟩, ⟨1, 0, .rws, 0x1⟩] },
    { name := "LE_RX_REFL_WIN", base := 0x1A044, dims := [(0x40000, 2)], fields := [⟨25, 16, .rws, 0x3E8⟩, ⟨9, 0, .rws, 0x0⟩] },
    { name := "LE_RX_REFL_PIN", base := 0x1A080, dims := [(0x40000, 2), (0x4, 8)], fields := [⟨31, 31, .rws, 0x0⟩, ⟨21, 0, .rws, 0x0⟩] },
    { name := "LE_RX_REFL_SUM", base := 0x1A048, dims := [(0x40000, 2)], fields := [⟨31, 16, .ro, 0x0⟩, ⟨3, 0, .ro, 0x0⟩] },
    { name := "LE_RX_REFL_OVF", base := 0x1A04C, dims := [(0x40000, 2)], fields := [⟨31, 0, .rc, 0x0⟩] },
    { name := "LE_RX_REFL_STAT", base := 0x1A100, dims := [(0x40000, 2), (0x8, 8)], fields := [⟨31, 30, .ro, 0x0⟩, ⟨21, 0, .ro, 0x0⟩] },
    { name := "LE_RX_REFL_LVL", base := 0x1A104, dims := [(0x40000, 2), (0x8, 8)], fields := [⟨31, 16, .ro, 0x0⟩, ⟨15, 0, .ro, 0x0⟩] },
    { name := "LE_RX_CD_RANGE", base := 0x1B054, dims := [(0x40000, 2)], fields := [⟨20, 0, .ro, 0x0⟩] },
    { name := "LE_RX_CD_CTRL", base := 0x1B040, dims := [(0x40000, 2)], fields := [⟨8, 8, .rws, 0x1⟩, ⟨0, 0, .rws, 0x0⟩] },
    { name := "LE_RX_CD_SET", base := 0x1B044, dims := [(0x40000, 2)], fields := [⟨20, 0, .rws, 0x0⟩] } ]

/-- Registers of spec/05_line_receive.md. -/
def regMap05_1 : List RegRow :=
  [ { name := "LE_RX_CD_MIN", base := 0x1B048, dims := [(0x40000, 2)], fields := [⟨20, 0, .rws, 0x16D840⟩] },
    { name := "LE_RX_CD_MAX", base := 0x1B04C, dims := [(0x40000, 2)], fields := [⟨20, 0, .rws, 0x927C0⟩] },
    { name := "LE_RX_CD_EST", base := 0x1B050, dims := [(0x40000, 2)], fields := [⟨20, 0, .ro, 0x0⟩] },
    { name := "LE_RX_EQ_CTRL", base := 0x1B060, dims := [(0x40000, 2)], fields := [⟨15, 8, .rws, 0xE6⟩, ⟨7, 4, .rws, 0x4⟩, ⟨3, 0, .rws, 0x6⟩] },
    { name := "LE_RX_CR_CTRL", base := 0x1B080, dims := [(0x40000, 2)], fields := [⟨11, 8, .rws, 0x6⟩, ⟨4, 4, .rws, 0x1⟩, ⟨3, 0, .rws, 0x4⟩] },
    { name := "LE_RX_CR_COMMON", base := 0x1B084, dims := [(0x40000, 2)], fields := [⟨31, 0, .ro, 0x0⟩] },
    { name := "LE_RX_NLC_CTRL", base := 0x1B0A0, dims := [(0x40000, 2)], fields := [⟨29, 24, .rws, 0x20⟩, ⟨23, 16, .rws, 0x40⟩, ⟨15, 8, .rws, 0x1⟩, ⟨0, 0, .rws, 0x0⟩] },
    { name := "LE_RX_DEMAP_CTRL", base := 0x1B0C0, dims := [(0x40000, 2)], fields := [⟨8, 8, .rws, 0x1⟩, ⟨7, 0, .rws, 0x40⟩] },
    { name := "LE_RX_QUAL_CTRL", base := 0x1C040, dims := [(0x40000, 2)], fields := [⟨31, 31, .rw, 0x0⟩, ⟨30, 30, .rw, 0x0⟩, ⟨23, 16, .rw, 0x60⟩, ⟨15, 0, .rw, 0x1F4⟩] },
    { name := "LE_RX_QUAL_SEQ", base := 0x1C044, dims := [(0x40000, 2)], fields := [⟨31, 0, .ro, 0x0⟩] },
    { name := "LE_RX_QUAL_T0_LO", base := 0x1C048, dims := [(0x40000, 2)], fields := [⟨31, 0, .ro, 0x0⟩] },
    { name := "LE_RX_QUAL_T0_HI", base := 0x1C04C, dims := [(0x40000, 2)], fields := [⟨31, 0, .ro, 0x0⟩] },
    { name := "LE_RX_LQ_MIN", base := 0x1C050, dims := [(0x40000, 2)], fields := [⟨12, 8, .ro, 0x0⟩, ⟨7, 0, .ro, 0x0⟩] },
    { name := "LE_RX_QUAL_A", base := 0x1D100, dims := [(0x40000, 2), (0x40, 32)], fields := [⟨31, 16, .ro, 0x0⟩, ⟨15, 0, .ro, 0x0⟩] },
    { name := "LE_RX_QUAL_B", base := 0x1D104, dims := [(0x40000, 2), (0x40, 32)], fields := [⟨31, 16, .ro, 0x0⟩, ⟨15, 8, .ro, 0x0⟩, ⟨7, 7, .ro, 0x0⟩, ⟨6, 6, .ro, 0x0⟩, ⟨5, 5, .ro, 0x0⟩] },
    { name := "LE_RX_QUAL_BER_ERR", base := 0x1D108, dims := [(0x40000, 2), (0x40, 32)], fields := [⟨31, 0, .ro, 0x0⟩] },
    { name := "LE_RX_QUAL_BER_BITS", base := 0x1D10C, dims := [(0x40000, 2), (0x40, 32)], fields := [⟨31, 0, .ro, 0x0⟩] },
    { name := "LE_RX_QUAL_CD", base := 0x1D110, dims := [(0x40000, 2), (0x40, 32)], fields := [⟨20, 0, .ro, 0x0⟩] },
    { name := "LE_RX_QUAL_PMD", base := 0x1D114, dims := [(0x40000, 2), (0x40, 32)], fields := [⟨31, 16, .ro, 0x0⟩, ⟨15, 0, .ro, 0x0⟩] },
    { name := "LE_RX_QUAL_FREQ", base := 0x1D118, dims := [(0x40000, 2), (0x40, 32)], fields := [⟨31, 0, .ro, 0x0⟩] },
    { name := "LE_RX_QUAL_EVT", base := 0x1D11C, dims := [(0x40000, 2), (0x40, 32)], fields := [⟨31, 16, .ro, 0x0⟩, ⟨15, 0, .ro, 0x0⟩] } ]

/-- Registers of spec/06_point_to_multipoint.md. -/
def regMap06 : List RegRow :=
  [ { name := "LE_P2MP_HUB_CTRL", base := 0x20040, dims := [(0x40000, 2)], fields := [⟨27, 24, .rws, 0x6⟩, ⟨23, 20, .rws, 0x2⟩, ⟨10, 10, .rws, 0x0⟩, ⟨9, 9, .rws, 0x1⟩, ⟨8, 8, .rws, 0x1⟩] },
    { name := "LE_P2MP_LOOKOUT", base := 0x20044, dims := [(0x40000, 2)], fields := [⟨23, 16, .rws, 0x30⟩, ⟨11, 8, .rws, 0x6⟩] },
    { name := "LE_P2MP_ROGUE", base := 0x20048, dims := [(0x40000, 2)], fields := [⟨29, 28, .rws, 0x1⟩, ⟨23, 16, .rws, 0x10⟩, ⟨15, 0, .rws, 0x3E8⟩] },
    { name := "LE_P2MP_LEVEL", base := 0x20054, dims := [(0x40000, 2)], fields := [⟨15, 8, .rws, 0x3C⟩, ⟨7, 0, .rws, 0x50⟩] },
    { name := "LE_P2MP_UP_MODE_LO", base := 0x2004C, dims := [(0x40000, 2)], fields := [⟨31, 0, .rws, 0x55555555⟩] },
    { name := "LE_P2MP_UP_MODE_HI", base := 0x20050, dims := [(0x40000, 2)], fields := [⟨31, 0, .rws, 0x55555555⟩] },
    { name := "LE_P2MP_DISC_CD", base := 0x20058, dims := [(0x40000, 2)], fields := [⟨20, 0, .rws, 0x0⟩] },
    { name := "LE_P2MP_GRANT_COUNT", base := 0x2005C, dims := [(0x40000, 2)], fields := [⟨10, 0, .rws, 0x0⟩] },
    { name := "LE_P2MP_PERIOD", base := 0x20060, dims := [(0x40000, 2)], fields := [⟨31, 0, .ro, 0x0⟩] },
    { name := "LE_P2MP_APPLY_PN", base := 0x20064, dims := [(0x40000, 2)], fields := [⟨31, 0, .ro, 0x0⟩] },
    { name := "LE_P2MP_SEG_CAP", base := 0x20068, dims := [(0x40000, 2)], fields := [⟨7, 0, .ro, 0x0⟩] },
    { name := "LE_P2MP_IDLE_BAND", base := 0x2006C, dims := [(0x40000, 2)], fields := [⟨8, 4, .ro, 0x0⟩, ⟨3, 2, .ro, 0x0⟩, ⟨1, 0, .ro, 0x0⟩] },
    { name := "LE_P2MP_CNT", base := 0x20080, dims := [(0x40000, 2), (0x4, 11)], fields := [⟨31, 0, .rc, 0x0⟩] },
    { name := "LE_P2MP_BREC_CTRL", base := 0x21040, dims := [(0x40000, 2)], fields := [⟨8, 8, .rw, 0x0⟩, ⟨0, 0, .wo, 0x0⟩] },
    { name := "LE_P2MP_BREC_COUNT", base := 0x21044, dims := [(0x40000, 2)], fields := [⟨12, 0, .ro, 0x0⟩] },
    { name := "LE_P2MP_BREC_0", base := 0x21050, dims := [(0x40000, 2)], fields := [⟨31, 22, .ro, 0x0⟩, ⟨21, 17, .ro, 0x0⟩, ⟨16, 15, .ro, 0x0⟩, ⟨14, 13, .ro, 0x0⟩, ⟨12, 10, .ro, 0x0⟩, ⟨4, 4, .ro, 0x0⟩, ⟨3, 3, .ro, 0x0⟩, ⟨2, 2, .ro, 0x0⟩, ⟨1, 1, .ro, 0x0⟩, ⟨0, 0, .ro, 0x0⟩] },
    { name := "LE_P2MP_BREC_1", base := 0x21054, dims := [(0x40000, 2)], fields := [⟨31, 0, .ro, 0x0⟩] },
    { name := "LE_P2MP_BREC_2", base := 0x21058, dims := [(0x40000, 2)], fields := [⟨31, 16, .ro, 0x0⟩, ⟨15, 0, .ro, 0x0⟩] },
    { name := "LE_P2MP_BREC_3", base := 0x2105C, dims := [(0x40000, 2)], fields := [⟨31, 0, .ro, 0x0⟩] },
    { name := "LE_P2MP_LMSG_0", base := 0x21080, dims := [(0x40000, 2)], fields := [⟨31, 24, .rw, 0x0⟩, ⟨9, 0, .rw, 0x0⟩] },
    { name := "LE_P2MP_LMSG_1", base := 0x21084, dims := [(0x40000, 2)], fields := [⟨23, 0, .rw, 0x0⟩] },
    { name := "LE_P2MP_LMSG_2", base := 0x21088, dims := [(0x40000, 2)], fields := [⟨31, 0, .rw, 0x0⟩] },
    { name := "LE_P2MP_LMSG_GO", base := 0x21090, dims := [(0x40000, 2)], fields := [⟨0, 0, .wo, 0x0⟩] },
    { name := "LE_P2MP_LMSG_STAT", base := 0x21094, dims := [(0x40000, 2)], fields := [⟨16, 16, .w1c, 0x0⟩, ⟨5, 0, .ro, 0x0⟩] },
    { name := "LE_P2MP_LEAF_CFG", base := 0x24800, dims := [(0x40000, 2), (0x1000, 2), (0x8, 256)], fields := [⟨31, 31, .rws, 0x0⟩, ⟨28, 24, .rws, 0x0⟩, ⟨23, 0, .rws, 0x0⟩] },
    { name := "LE_P2MP_LEAF_ROC", base := 0x24804, dims := [(0x40000, 2), (0x1000, 2), (0x8, 256)], fields := [⟨19, 0, .rws, 0x0⟩] },
    { name := "LE_P2MP_LEAF_ST", base := 0x26800, dims := [(0x40000, 2), (0x1000, 2), (0x8, 256)], fields := [⟨31, 29, .ro, 0x0⟩, ⟨28, 28, .ro, 0x0⟩, ⟨27, 20, .ro, 0x0⟩, ⟨19, 0, .ro, 0x0⟩] },
    { name := "LE_P2MP_LEAF_CD", base := 0x26804, dims := [(0x40000, 2), (0x1000, 2), (0x8, 256)], fields := [⟨28, 21, .ro, 0x0⟩, ⟨20, 0, .ro, 0x0⟩] },
    { name := "LE_P2MP_GRANT_LO", base := 0x28800, dims := [(0x40000, 2), (0x1000, 4), (0x8, 256)], fields := [⟨31, 0, .rws, 0x0⟩] },
    { name := "LE_P2MP_GRANT_HI", base := 0x28804, dims := [(0x40000, 2), (0x1000, 4), (0x8, 256)], fields := [⟨31, 0, .rws, 0x0⟩] } ]

/-- Registers of spec/06_point_to_multipoint.md. -/
def regMap06_1 : List RegRow :=
  [ { name := "LE_P2MP_LEAF_CTRL", base := 0x22040, dims := [(0x40000, 2)], fields := [⟨31, 31, .rws, 0x1⟩, ⟨30, 30, .rws, 0x0⟩, ⟨21, 21, .rws, 0x0⟩, ⟨20, 16, .rws, 0x0⟩, ⟨3, 0, .rws, 0x4⟩] },
    { name := "LE_P2MP_LEAF_STAT", base := 0x22044, dims := [(0x40000, 2)], fields := [⟨31, 29, .ro, 0x0⟩, ⟨28, 24, .ro, 0x0⟩, ⟨9, 0, .ro, 0x3FF⟩] },
    { name := "LE_P2MP_LEAF_RO", base := 0x22048, dims := [(0x40000, 2)], fields := [⟨19, 0, .ro, 0x0⟩] },
    { name := "LE_P2MP_LEAF_GAIN", base := 0x2204C, dims := [(0x40000, 2)], fields := [⟨8, 0, .ro, 0x0⟩] },
    { name := "LE_P2MP_LEAF_TAG", base := 0x22050, dims := [(0x40000, 2)], fields := [⟨23, 0, .ro, 0x0⟩] },
    { name := "LE_P2MP_LEAF_CLR", base := 0x22054, dims := [(0x40000, 2)], fields := [⟨0, 0, .wo, 0x0⟩] },
    { name := "LE_P2MP_LEAF_CNT", base := 0x22080, dims := [(0x40000, 2), (0x4, 4)], fields := [⟨31, 0, .rc, 0x0⟩] } ]

/-- Registers of spec/07_ngusha_fec.md. -/
def regMap07 : List RegRow :=
  [ { name := "LE_FEC_CTRL", base := 0x30040, dims := [(0x40000, 2)], fields := [⟨8, 8, .rws, 0x1⟩, ⟨4, 0, .rws, 0xC⟩] },
    { name := "LE_FEC_DEFECT", base := 0x30044, dims := [(0x40000, 2)], fields := [⟨23, 16, .rws, 0xA⟩, ⟨15, 8, .rws, 0x0⟩, ⟨7, 0, .rws, 0x1⟩] },
    { name := "LE_FEC_STAT", base := 0x30048, dims := [(0x40000, 2)], fields := [⟨31, 16, .ro, 0x0⟩, ⟨15, 11, .ro, 0x0⟩, ⟨10, 6, .ro, 0x0⟩, ⟨1, 0, .ro, 0x0⟩] },
    { name := "LE_FEC_QENG", base := 0x3004C, dims := [(0x40000, 2)], fields := [⟨17, 17, .ro, 0x0⟩, ⟨16, 16, .ro, 0x0⟩, ⟨15, 0, .ro, 0x0⟩] },
    { name := "LE_FEC_SC_SYNC", base := 0x30050, dims := [(0x40000, 2)], fields := [⟨31, 0, .ro, 0x0⟩] },
    { name := "LE_FEC_ILM", base := 0x30060, dims := [(0x40000, 2)], fields := [⟨1, 0, .rws, 0x3⟩] },
    { name := "LE_FEC_CNT_LO", base := 0x31040, dims := [(0x40000, 2), (0x8, 6)], fields := [⟨31, 0, .ro, 0x0⟩] },
    { name := "LE_FEC_CNT_HI", base := 0x31044, dims := [(0x40000, 2), (0x8, 6)], fields := [⟨15, 0, .ro, 0x0⟩] },
    { name := "LE_FEC_CNT_LO_SNAP", base := 0x31100, dims := [(0x40000, 2), (0x8, 6)], fields := [⟨31, 0, .ro, 0x0⟩] },
    { name := "LE_FEC_CNT_HI_SNAP", base := 0x31104, dims := [(0x40000, 2), (0x8, 6)], fields := [⟨15, 0, .ro, 0x0⟩] },
    { name := "LE_FEC_TILE_MAP", base := 0x32040, dims := [(0x40000, 2)], fields := [⟨25, 0, .ro, 0xFFFFFF⟩] },
    { name := "LE_FEC_TILE_SPARE", base := 0x32044, dims := [(0x40000, 2)], fields := [⟨12, 8, .ro, 0x19⟩, ⟨4, 0, .ro, 0x18⟩] },
    { name := "LE_FEC_REDEC_CNT", base := 0x32048, dims := [(0x40000, 2)], fields := [⟨31, 0, .rc, 0x0⟩] },
    { name := "LE_FEC_AMBIG_CNT", base := 0x3204C, dims := [(0x40000, 2)], fields := [⟨31, 0, .rc, 0x0⟩] },
    { name := "LE_FEC_TILE_STAT", base := 0x32080, dims := [(0x40000, 2), (0x4, 26)], fields := [⟨15, 8, .ro, 0x0⟩, ⟨1, 0, .ro, 0x0⟩] } ]

/-- Registers of spec/08_gweano_line_frame.md. -/
def regMap08 : List RegRow :=
  [ { name := "LE_GLF_CONT_CFG", base := 0x38100, dims := [(0x40000, 2), (0x8, 64)], fields := [⟨31, 31, .rws, 0x0⟩, ⟨30, 30, .rws, 0x0⟩, ⟨29, 29, .rws, 0x0⟩, ⟨28, 24, .rws, 0x0⟩, ⟨23, 22, .rws, 0x2⟩, ⟨20, 16, .rws, 0x0⟩] },
    { name := "LE_GLF_CONT_AUX", base := 0x38104, dims := [(0x40000, 2), (0x8, 64)], fields := [⟨25, 16, .rws, 0x3FF⟩, ⟨5, 0, .ro, 0x0⟩] },
    { name := "LE_GLF_CELL_SYNC_LO", base := 0x38040, dims := [(0x40000, 2)], fields := [⟨31, 0, .ro, 0x0⟩] },
    { name := "LE_GLF_CELL_SYNC_HI", base := 0x38044, dims := [(0x40000, 2)], fields := [⟨31, 0, .ro, 0x0⟩] },
    { name := "LE_GLF_TX_SLOT", base := 0x40800, dims := [(0x40000, 2), (0x1000, 4), (0x100, 8), (0x4, 64)], fields := [⟨31, 0, .rws, 0xFFFFFFFF⟩] },
    { name := "LE_GLF_RX_SLOT", base := 0x44800, dims := [(0x40000, 2), (0x1000, 4), (0x100, 8), (0x4, 64)], fields := [⟨31, 0, .rws, 0xFFFFFFFF⟩] },
    { name := "LE_GLF_ID", base := 0x34100, dims := [(0x40000, 2), (0x4, 32)], fields := [⟨27, 16, .rws, 0x0⟩, ⟨3, 0, .rws, 0x0⟩] },
    { name := "LE_GLF_RX_ID", base := 0x34180, dims := [(0x40000, 2), (0x4, 32)], fields := [⟨27, 16, .ro, 0x0⟩, ⟨3, 0, .ro, 0x0⟩] },
    { name := "MAP_GRP_CTRL", base := 0xA8800, dims := [(0x1000, 2), (0x40, 32)], fields := [⟨31, 31, .rws, 0x0⟩, ⟨30, 30, .rws, 0x0⟩, ⟨29, 29, .rws, 0x0⟩, ⟨23, 12, .rws, 0x0⟩, ⟨9, 0, .rws, 0x64⟩] },
    { name := "MAP_GRP_TARGET", base := 0xA8804, dims := [(0x1000, 2), (0x40, 32)], fields := [⟨15, 0, .rws, 0x0⟩] },
    { name := "MAP_GRP_MEM", base := 0xA8808, dims := [(0x1000, 2), (0x40, 32), (0x4, 8)], fields := [⟨31, 31, .rws, 0x0⟩, ⟨30, 30, .rws, 0x0⟩, ⟨29, 24, .rws, 0x0⟩, ⟨15, 15, .rws, 0x0⟩, ⟨14, 14, .rws, 0x0⟩, ⟨13, 8, .rws, 0x0⟩] },
    { name := "MAP_GRP_ST", base := 0xA8828, dims := [(0x1000, 2), (0x40, 32)], fields := [⟨31, 29, .ro, 0x0⟩, ⟨28, 26, .ro, 0x0⟩, ⟨25, 24, .ro, 0x0⟩, ⟨15, 0, .ro, 0x0⟩] },
    { name := "MAP_GRP_DD", base := 0xA882C, dims := [(0x1000, 2), (0x40, 32)], fields := [⟨31, 28, .ro, 0x0⟩, ⟨19, 0, .ro, 0x0⟩] },
    { name := "MAP_GRP_PAGES", base := 0xA8830, dims := [(0x1000, 2), (0x40, 32)], fields := [⟨31, 0, .ro, 0x0⟩] },
    { name := "MAP_GRP_SWITCHES", base := 0xA8834, dims := [(0x1000, 2), (0x40, 32)], fields := [⟨31, 0, .rc, 0x0⟩] },
    { name := "MAP_MSP_CTRL", base := 0xAA0C0, dims := [], fields := [⟨15, 0, .rw, 0x2000⟩] },
    { name := "MAP_MSP_STAT", base := 0xAA0C4, dims := [], fields := [⟨13, 8, .ro, 0x0⟩, ⟨7, 0, .ro, 0x0⟩] },
    { name := "DEF_INT", base := 0xAA040, dims := [(0x4, 12)], fields := [⟨25, 16, .rw, 0x19⟩, ⟨9, 0, .rw, 0x64⟩] },
    { name := "DEF_CA", base := 0xAA080, dims := [], fields := [⟨0, 0, .rw, 0x0⟩] },
    { name := "LE_GLF_CTRL", base := 0x34040, dims := [(0x40000, 2)], fields := [⟨1, 1, .rw, 0x0⟩, ⟨0, 0, .rw, 0x0⟩] },
    { name := "LE_GLF_STAT", base := 0x34044, dims := [(0x40000, 2)], fields := [⟨31, 30, .ro, 0x0⟩, ⟨29, 28, .ro, 0x3⟩, ⟨27, 24, .ro, 0x0⟩, ⟨23, 23, .ro, 0x0⟩, ⟨22, 22, .ro, 0x0⟩, ⟨21, 19, .ro, 0x0⟩] },
    { name := "LE_GLF_RX_FC", base := 0x34048, dims := [(0x40000, 2)], fields := [⟨31, 0, .ro, 0x0⟩] },
    { name := "LE_GLF_TX_FC", base := 0x3404C, dims := [(0x40000, 2)], fields := [⟨31, 0, .ro, 0x0⟩] },
    { name := "LE_GLF_DEF", base := 0x3A040, dims := [(0x40000, 2)], fields := [⟨31, 0, .ro, 0x0⟩] },
    { name := "LE_GLF_VEC", base := 0x3A044, dims := [(0x40000, 2), (0x4, 4)], fields := [⟨31, 0, .ro, 0x0⟩] },
    { name := "LE_GLF_CNT", base := 0x35040, dims := [(0x40000, 2), (0x4, 12)], fields := [⟨31, 0, .rc, 0x0⟩] } ]

/-- Registers of spec/09_host_lanes_and_clients.md. -/
def regMap09 : List RegRow :=
  [ { name := "HL_GRP_CTRL", base := 0x90040, dims := [(0x1000, 4)], fields := [⟨21, 21, .rws, 0x0⟩, ⟨20, 16, .rws, 0x0⟩, ⟨9, 8, .rws, 0x1⟩, ⟨5, 4, .rws, 0x1⟩, ⟨0, 0, .rws, 0x0⟩] },
    { name := "HL_GRP_TRAIN", base := 0x90044, dims := [(0x1000, 4)], fields := [⟨11, 0, .rws, 0x1F4⟩] },
    { name := "HL_LANE_CTRL", base := 0x90100, dims := [(0x1000, 4), (0x20, 8)], fields := [⟨15, 12, .rws, 0x0⟩, ⟨9, 8, .rws, 0x0⟩, ⟨4, 4, .rws, 0x0⟩, ⟨0, 0, .rws, 0x1⟩] },
    { name := "HL_LANE_TXFFE", base := 0x90104, dims := [(0x1000, 4), (0x20, 8)], fields := [⟨31, 27, .rws, 0x0⟩, ⟨26, 22, .rws, 0x0⟩, ⟨21, 16, .rws, 0x0⟩, ⟨15, 10, .rws, 0x3F⟩, ⟨9, 5, .rws, 0x0⟩, ⟨4, 0, .rws, 0x0⟩] },
    { name := "HL_LANE_STAT", base := 0x90108, dims := [(0x1000, 4), (0x20, 8)], fields := [⟨31, 29, .ro, 0x0⟩, ⟨28, 28, .ro, 0x0⟩, ⟨27, 27, .ro, 0x0⟩, ⟨26, 26, .ro, 0x0⟩, ⟨25, 23, .ro, 0x0⟩, ⟨22, 22, .ro, 0x0⟩, ⟨15, 8, .ro, 0x0⟩, ⟨7, 0, .ro, 0x0⟩] },
    { name := "HL_LANE_TXFFE_ACT", base := 0x9010C, dims := [(0x1000, 4), (0x20, 8)], fields := [⟨31, 0, .ro, 0xFC00⟩] },
    { name := "HL_LANE_CNT", base := 0x94100, dims := [(0x1000, 4), (0x20, 8), (0x4, 4)], fields := [⟨31, 0, .rc, 0x0⟩] },
    { name := "PORT_CFG", base := 0xA0100, dims := [(0x1000, 4), (0x40, 8)], fields := [⟨31, 31, .rws, 0x0⟩, ⟨30, 29, .rws, 0x0⟩, ⟨28, 26, .rws, 0x0⟩, ⟨25, 25, .rws, 0x0⟩, ⟨24, 24, .rws, 0x0⟩, ⟨23, 22, .rws, 0x0⟩, ⟨21, 19, .rws, 0x0⟩, ⟨17, 16, .rws, 0x0⟩, ⟨15, 14, .rws, 0x0⟩, ⟨13, 13, .rws, 0x0⟩, ⟨12, 10, .rws, 0x0⟩, ⟨9, 9, .rws, 0x0⟩, ⟨8, 8, .rws, 0x0⟩] },
    { name := "PORT_FRAME", base := 0xA0104, dims := [(0x1000, 4), (0x40, 8)], fields := [⟨25, 16, .rws, 0x64⟩, ⟨13, 0, .rws, 0x2600⟩] },
    { name := "PORT_GID", base := 0xA0108, dims := [(0x1000, 4), (0x40, 8)], fields := [⟨19, 0, .rws, 0x0⟩] },
    { name := "PORT_EXCH", base := 0xA010C, dims := [(0x1000, 4), (0x40, 8)], fields := [⟨7, 0, .rws, 0x14⟩] },
    { name := "PORT_STAT", base := 0xA0110, dims := [(0x1000, 4), (0x40, 8)], fields := [⟨31, 29, .ro, 0x0⟩, ⟨28, 28, .ro, 0x0⟩, ⟨27, 27, .ro, 0x0⟩, ⟨26, 26, .ro, 0x0⟩, ⟨25, 25, .ro, 0x0⟩, ⟨24, 24, .ro, 0x0⟩, ⟨23, 23, .ro, 0x0⟩, ⟨22, 22, .ro, 0x0⟩, ⟨21, 21, .ro, 0x0⟩, ⟨20, 20, .ro, 0x0⟩, ⟨19, 16, .ro, 0x0⟩] },
    { name := "PORT_LANEMAP", base := 0xA0114, dims := [(0x1000, 4), (0x40, 8)], fields := [⟨31, 0, .ro, 0xFFFFFFFF⟩] },
    { name := "PORT_PARTNER", base := 0xA0118, dims := [(0x1000, 4), (0x40, 8)], fields := [⟨31, 8, .ro, 0x0⟩, ⟨7, 0, .ro, 0xFF⟩] },
    { name := "PORT_CNT", base := 0xA4100, dims := [(0x1000, 4), (0x40, 8), (0x4, 13)], fields := [⟨31, 0, .rc, 0x0⟩] } ]

/-- Registers of spec/10_classifier.md. -/
def regMap10 : List RegRow :=
  [ { name := "CLS_CTRL", base := 0xB0040, dims := [], fields := [⟨0, 0, .rws, 0x0⟩] },
    { name := "CLS_STAT", base := 0xB0044, dims := [], fields := [⟨31, 30, .ro, 0x0⟩, ⟨29, 28, .ro, 0x1⟩, ⟨10, 8, .ro, 0x6⟩] },
    { name := "CLS_BANK_DRAIN", base := 0xB0048, dims := [], fields := [⟨15, 0, .ro, 0x0⟩] },
    { name := "CLS_BANK_COPY", base := 0xB004C, dims := [], fields := [⟨0, 0, .wo, 0x0⟩] },
    { name := "CLS_BANK_BAD", base := 0xB0050, dims := [(0x4, 2)], fields := [⟨17, 0, .ro, 0x0⟩] },
    { name := "CLS_BANK_FIRST_BAD", base := 0xB0058, dims := [(0x4, 2)], fields := [⟨23, 0, .ro, 0xFFFFFF⟩] },
    { name := "CLS_RECIRC_LEVEL", base := 0xB0060, dims := [], fields := [⟨29, 16, .ro, 0x0⟩, ⟨10, 0, .ro, 0x0⟩] },
    { name := "CLS_PIPE_STAT", base := 0xB0080, dims := [(0x4, 6)], fields := [⟨17, 16, .ro, 0x0⟩, ⟨9, 9, .ro, 0x0⟩, ⟨7, 0, .ro, 0x0⟩] },
    { name := "CLS_CNT", base := 0xB00C0, dims := [(0x4, 4)], fields := [⟨31, 0, .rc, 0x0⟩] },
    { name := "CLS_PORT_CNT", base := 0xB4100, dims := [(0x1000, 4), (0x40, 8), (0x4, 12)], fields := [⟨31, 0, .rc, 0x0⟩] } ]

/-- Registers of spec/11_package_memory.md. -/
def regMap11 : List RegRow :=
  [ { name := "BUF_DESKEW_BASE", base := 0xC0040, dims := [], fields := [⟨17, 0, .rws, 0x0⟩] },
    { name := "BUF_DESKEW_SIZE", base := 0xC0044, dims := [], fields := [⟨17, 0, .rws, 0x20000⟩] },
    { name := "BUF_CAPTURE_BASE", base := 0xC0048, dims := [], fields := [⟨17, 0, .rws, 0x20000⟩] },
    { name := "BUF_CAPTURE_SIZE", base := 0xC004C, dims := [], fields := [⟨17, 0, .rws, 0x4000⟩] },
    { name := "BUF_TEST_BASE", base := 0xC0050, dims := [], fields := [⟨17, 0, .rws, 0x24000⟩] },
    { name := "BUF_TEST_SIZE", base := 0xC0054, dims := [], fields := [⟨17, 0, .rws, 0x1000⟩] },
    { name := "BUF_DESKEW_USED", base := 0xC0058, dims := [], fields := [⟨17, 0, .ro, 0x0⟩] },
    { name := "BUF_BW", base := 0xC005C, dims := [], fields := [⟨9, 0, .ro, 0x0⟩] },
    { name := "BUF_SCRUB_CTRL", base := 0xC4040, dims := [], fields := [⟨31, 31, .rw, 0x1⟩, ⟨15, 0, .rw, 0x5A0⟩] },
    { name := "BUF_SCRUB_STAT", base := 0xC4044, dims := [], fields := [⟨31, 31, .ro, 0x0⟩, ⟨28, 0, .ro, 0x0⟩] },
    { name := "BUF_SCRUB_PASSES", base := 0xC4048, dims := [], fields := [⟨31, 0, .ro, 0x0⟩] },
    { name := "BUF_ECC_CTRL", base := 0xC1040, dims := [], fields := [⟨31, 28, .rw, 0x4⟩, ⟨27, 16, .rw, 0x3C⟩, ⟨1, 1, .wo, 0x0⟩, ⟨0, 0, .rw, 0x1⟩] },
    { name := "BUF_INJ_ADDR", base := 0xC10C0, dims := [], fields := [⟨28, 0, .rw, 0x0⟩] },
    { name := "BUF_INJ_CTRL", base := 0xC10C4, dims := [], fields := [⟨31, 31, .ro, 0x0⟩, ⟨29, 24, .rw, 0x3F⟩, ⟨21, 16, .rw, 0x3F⟩, ⟨13, 8, .rw, 0x3F⟩, ⟨0, 0, .wo, 0x0⟩] },
    { name := "BUF_INJ_XOR", base := 0xC10C8, dims := [], fields := [⟨23, 16, .rw, 0x0⟩, ⟨15, 8, .rw, 0x0⟩, ⟨7, 0, .rw, 0x0⟩] },
    { name := "BUF_INJ_ADDR_XOR", base := 0xC10CC, dims := [], fields := [⟨28, 0, .rw, 0x0⟩] },
    { name := "BUF_LOG_CTRL", base := 0xC2040, dims := [], fields := [⟨24, 16, .ro, 0x0⟩, ⟨15, 0, .rc, 0x0⟩] },
    { name := "BUF_LOG", base := 0xC2050, dims := [(0x4, 4)], fields := [⟨31, 0, .ro, 0x0⟩] },
    { name := "BUF_RETIRE", base := 0xC3040, dims := [], fields := [⟨31, 31, .rw, 0x0⟩, ⟨17, 0, .rw, 0x0⟩] },
    { name := "BUF_RETIRE_GO", base := 0xC3044, dims := [], fields := [⟨0, 0, .wo, 0x0⟩] },
    { name := "BUF_RETIRE_STAT", base := 0xC3048, dims := [], fields := [⟨31, 30, .ro, 0x0⟩, ⟨29, 24, .ro, 0x0⟩, ⟨17, 0, .ro, 0x0⟩] },
    { name := "BUF_POOL", base := 0xC304C, dims := [], fields := [⟨28, 16, .ro, 0x1000⟩, ⟨12, 0, .ro, 0x0⟩] },
    { name := "BUF_POOL_CTRL", base := 0xC3050, dims := [], fields := [⟨12, 0, .rw, 0x100⟩] },
    { name := "BUF_REMAP_IDX", base := 0xC3054, dims := [], fields := [⟨11, 0, .rw, 0x0⟩] },
    { name := "BUF_REMAP_DATA", base := 0xC3058, dims := [], fields := [⟨31, 30, .ro, 0x0⟩, ⟨17, 0, .ro, 0x0⟩] },
    { name := "BUF_ROWREP", base := 0xC3060, dims := [], fields := [⟨22, 18, .rw, 0x0⟩, ⟨17, 14, .rw, 0x0⟩, ⟨13, 0, .rw, 0x0⟩] },
    { name := "BUF_ROWREP_GO", base := 0xC3064, dims := [], fields := [⟨0, 0, .wo, 0x0⟩] },
    { name := "BUF_ROWREP_STAT", base := 0xC3068, dims := [], fields := [⟨31, 30, .ro, 0x0⟩, ⟨29, 24, .ro, 0x0⟩, ⟨18, 16, .ro, 0x0⟩, ⟨11, 0, .ro, 0x800⟩] },
    { name := "BUF_WIN_PAGE", base := 0xC5040, dims := [], fields := [⟨17, 0, .rw, 0x0⟩] },
    { name := "BUF_WIN_STAT", base := 0xC5044, dims := [], fields := [⟨3, 0, .ro, 0x0⟩] } ]

/-- Registers of spec/11_package_memory.md. -/
def regMap11_1 : List RegRow :=
  [ { name := "BUF_CNT", base := 0xC1080, dims := [(0x4, 9)], fields := [⟨31, 0, .rc, 0x0⟩] },
    { name := "BUF_PC_CE", base := 0xC6100, dims := [(0x8, 32)], fields := [⟨31, 0, .rc, 0x0⟩] },
    { name := "BUF_PC_UE", base := 0xC6104, dims := [(0x8, 32)], fields := [⟨31, 0, .rc, 0x0⟩] } ]

/-- Registers of spec/12_cipher.md. -/
def regMap12 : List RegRow :=
  [ { name := "CIP_SA_CFG", base := 0x310000, dims := [(0x10, 1024)], fields := [⟨31, 31, .rws, 0x0⟩, ⟨30, 29, .rws, 0x0⟩, ⟨28, 28, .rws, 0x0⟩, ⟨25, 16, .rws, 0x3FF⟩, ⟨5, 0, .rws, 0x0⟩] },
    { name := "CIP_SA_POL", base := 0x310004, dims := [(0x10, 1024)], fields := [⟨31, 31, .rws, 0x0⟩, ⟨30, 30, .rws, 0x0⟩, ⟨29, 29, .rws, 0x1⟩, ⟨28, 28, .rws, 0x0⟩, ⟨13, 8, .rws, 0x24⟩] },
    { name := "CIP_SA_PIN", base := 0x310008, dims := [(0x10, 1024)], fields := [⟨31, 0, .rws, 0x0⟩] },
    { name := "CIP_SA_ST", base := 0x31000C, dims := [(0x10, 1024)], fields := [⟨31, 30, .ro, 0x0⟩, ⟨29, 27, .ro, 0x0⟩, ⟨26, 26, .ro, 0x0⟩, ⟨25, 25, .ro, 0x0⟩, ⟨24, 24, .ro, 0x0⟩, ⟨23, 23, .ro, 0x0⟩, ⟨22, 22, .ro, 0x0⟩] },
    { name := "CIP_SA_USE", base := 0x314000, dims := [(0x10, 1024)], fields := [⟨31, 0, .ro, 0x0⟩] },
    { name := "CIP_SA_SWITCH_AT", base := 0x314004, dims := [(0x10, 1024)], fields := [⟨31, 0, .ro, 0x0⟩] },
    { name := "CIP_SA_TAGFAIL", base := 0x314008, dims := [(0x10, 1024)], fields := [⟨31, 0, .rc, 0x0⟩] },
    { name := "CIP_SA_VOID", base := 0x31400C, dims := [(0x10, 1024)], fields := [⟨31, 0, .rc, 0x0⟩] },
    { name := "CIP_STAT", base := 0xC8040, dims := [], fields := [⟨31, 31, .ro, 0x0⟩, ⟨30, 30, .ro, 0x0⟩, ⟨19, 16, .ro, 0x8⟩, ⟨9, 0, .ro, 0x3FF⟩] },
    { name := "CIP_BUDGET", base := 0xC8044, dims := [], fields := [⟨29, 16, .ro, 0x1450⟩, ⟨13, 0, .ro, 0x0⟩] },
    { name := "CIP_CORE_STAT", base := 0xC8080, dims := [(0x4, 8)], fields := [⟨17, 16, .ro, 0x0⟩, ⟨9, 9, .ro, 0x0⟩, ⟨7, 0, .ro, 0x0⟩] },
    { name := "CIP_CNT", base := 0xC80C0, dims := [(0x4, 9)], fields := [⟨31, 0, .rc, 0x0⟩] },
    { name := "CIP_KX_TIME", base := 0xC9040, dims := [], fields := [⟨31, 12, .rw, 0x10000⟩, ⟨11, 0, .rw, 0x3E8⟩] },
    { name := "CIP_KX_CTRL", base := 0xC9044, dims := [], fields := [⟨31, 31, .wo, 0x0⟩, ⟨25, 16, .wo, 0x0⟩, ⟨9, 0, .wo, 0x0⟩] },
    { name := "CIP_KX_STAT", base := 0xC9080, dims := [(0x4, 16)], fields := [⟨31, 29, .ro, 0x0⟩, ⟨28, 28, .ro, 0x0⟩, ⟨27, 24, .ro, 0x0⟩, ⟨19, 10, .ro, 0x0⟩, ⟨9, 0, .ro, 0x0⟩] } ]

/-- Registers of spec/13_trust_and_dual_control.md. -/
def regMap13 : List RegRow :=
  [ { name := "ENC_STAT", base := 0xFC040, dims := [], fields := [⟨31, 31, .ro, 0x0⟩, ⟨30, 30, .ro, 0x0⟩, ⟨29, 29, .ro, 0x0⟩, ⟨28, 28, .ro, 0x0⟩, ⟨27, 24, .ro, 0x0⟩, ⟨23, 20, .ro, 0x0⟩, ⟨19, 18, .ro, 0x0⟩, ⟨15, 12, .ro, 0x0⟩] },
    { name := "ENC_SERIAL_LO", base := 0xFC044, dims := [], fields := [⟨31, 0, .ro, 0x0⟩] },
    { name := "ENC_SERIAL_HI", base := 0xFC048, dims := [], fields := [⟨31, 0, .ro, 0x0⟩] },
    { name := "ENC_ZREC", base := 0xFC04C, dims := [], fields := [⟨31, 31, .ro, 0x0⟩, ⟨23, 16, .ro, 0x0⟩, ⟨15, 0, .ro, 0x0⟩] },
    { name := "ENC_ZREC_TIME_LO", base := 0xFC050, dims := [], fields := [⟨31, 0, .ro, 0x0⟩] },
    { name := "ENC_ZREC_TIME_HI", base := 0xFC054, dims := [], fields := [⟨31, 0, .ro, 0x0⟩] },
    { name := "ENC_DBG_EXPIRE_LO", base := 0xFC058, dims := [], fields := [⟨31, 0, .ro, 0x0⟩] },
    { name := "ENC_DBG_EXPIRE_HI", base := 0xFC05C, dims := [], fields := [⟨31, 0, .ro, 0x0⟩] },
    { name := "ENC_CHG_LAST", base := 0xFC060, dims := [], fields := [⟨29, 28, .ro, 0x0⟩, ⟨27, 16, .ro, 0x0⟩, ⟨15, 8, .ro, 0x0⟩, ⟨7, 0, .ro, 0x0⟩] },
    { name := "ENC_CERT_LEN", base := 0xFE040, dims := [], fields := [⟨11, 0, .ro, 0x0⟩] },
    { name := "ENC_CERT", base := 0xFE100, dims := [(0x4, 512)], fields := [⟨31, 0, .ro, 0x0⟩] },
    { name := "ENC_XBUF", base := 0xFEA00, dims := [(0x4, 384)], fields := [⟨31, 0, .rw, 0x0⟩] },
    { name := "TMP_STAT", base := 0xFD040, dims := [], fields := [⟨31, 31, .ro, 0x0⟩, ⟨15, 8, .ro, 0x0⟩, ⟨7, 0, .ro, 0x0⟩] },
    { name := "TMP_CFG", base := 0xFD044, dims := [], fields := [⟨31, 31, .ro, 0x0⟩, ⟨23, 16, .ro, 0x7D⟩, ⟨15, 8, .ro, 0xCE⟩, ⟨7, 0, .ro, 0xFF⟩] },
    { name := "TMP_LIGHT", base := 0xFD048, dims := [], fields := [⟨15, 0, .ro, 0x0⟩] } ]

/-- Registers of spec/14_optical_engine_and_ubholt.md. -/
def regMap14 : List RegRow :=
  [ { name := "UBH_CTRL", base := 0xD8040, dims := [(0x1000, 2)], fields := [⟨31, 31, .rw, 0x0⟩, ⟨8, 8, .rw, 0x1⟩] },
    { name := "UBH_STAT", base := 0xD8044, dims := [(0x1000, 2)], fields := [⟨31, 29, .ro, 0x0⟩, ⟨28, 27, .ro, 0x0⟩, ⟨26, 26, .ro, 0x0⟩, ⟨25, 25, .ro, 0x0⟩, ⟨24, 24, .ro, 0x0⟩, ⟨23, 23, .ro, 0x0⟩, ⟨22, 22, .ro, 0x0⟩, ⟨15, 8, .ro, 0x0⟩, ⟨4, 0, .ro, 0x0⟩] },
    { name := "UBH_ID_LO", base := 0xD8048, dims := [(0x1000, 2)], fields := [⟨31, 0, .ro, 0x0⟩] },
    { name := "UBH_ID_HI", base := 0xD804C, dims := [(0x1000, 2)], fields := [⟨31, 0, .ro, 0x0⟩] },
    { name := "UBH_DECL", base := 0xD8080, dims := [(0x1000, 2), (0x4, 12)], fields := [⟨31, 0, .ro, 0x0⟩] },
    { name := "UBH_CNT", base := 0xD80C0, dims := [(0x1000, 2), (0x4, 6)], fields := [⟨31, 0, .rc, 0x0⟩] },
    { name := "UBH_PT_CMD", base := 0xD8100, dims := [(0x1000, 2)], fields := [⟨31, 31, .wo, 0x0⟩, ⟨24, 24, .rw, 0x0⟩, ⟨23, 16, .rw, 0x0⟩, ⟨15, 0, .rw, 0x0⟩] },
    { name := "UBH_PT_STAT", base := 0xD8104, dims := [(0x1000, 2)], fields := [⟨31, 31, .ro, 0x0⟩, ⟨7, 0, .ro, 0x0⟩] },
    { name := "UBH_PT_DATA", base := 0xD8140, dims := [(0x1000, 2), (0x4, 50)], fields := [⟨31, 0, .rw, 0x0⟩] },
    { name := "UBH_LIFE", base := 0xDA040, dims := [(0x1000, 2), (0x4, 8)], fields := [⟨31, 0, .ro, 0x0⟩] },
    { name := "UBH_EOL_CTRL", base := 0xDA060, dims := [(0x1000, 2)], fields := [⟨15, 8, .rw, 0x32⟩, ⟨7, 0, .rw, 0x50⟩] },
    { name := "UBH_EOL_STAT", base := 0xDA064, dims := [(0x1000, 2)], fields := [⟨31, 31, .ro, 0x0⟩, ⟨25, 16, .ro, 0x0⟩, ⟨15, 0, .ro, 0xFFFF⟩] } ]

/-- Registers of spec/15_synchronisation.md. -/
def regMap15 : List RegRow :=
  [ { name := "SYN_CTRL", base := 0xD0040, dims := [], fields := [⟨31, 31, .rws, 0x0⟩, ⟨30, 30, .rws, 0x1⟩, ⟨29, 29, .rws, 0x0⟩, ⟨28, 28, .rws, 0x0⟩, ⟨27, 24, .rws, 0xF⟩, ⟨23, 20, .rws, 0xB⟩, ⟨19, 16, .rws, 0xF⟩, ⟨15, 0, .rws, 0x32⟩] },
    { name := "SYN_BW", base := 0xD0044, dims := [], fields := [⟨19, 0, .rws, 0x2710⟩] },
    { name := "SYN_BW_ACQ", base := 0xD0048, dims := [], fields := [⟨19, 0, .rws, 0x186A0⟩] },
    { name := "SYN_TIMERS", base := 0xD004C, dims := [], fields := [⟨25, 16, .rws, 0x12C⟩, ⟨9, 0, .rws, 0xA⟩] },
    { name := "SYN_DISAGREE", base := 0xD0050, dims := [], fields := [⟨23, 16, .rws, 0x14⟩, ⟨15, 0, .rws, 0xA⟩] },
    { name := "SYN_HOLD", base := 0xD0054, dims := [], fields := [⟨27, 16, .rws, 0x3C⟩, ⟨15, 0, .rws, 0x5A0⟩] },
    { name := "SYN_STAT", base := 0xD0060, dims := [], fields := [⟨31, 29, .ro, 0x0⟩, ⟨28, 28, .ro, 0x0⟩, ⟨27, 24, .ro, 0xB⟩, ⟨23, 20, .ro, 0xF⟩, ⟨19, 19, .ro, 0x0⟩, ⟨18, 18, .ro, 0x0⟩] },
    { name := "SYN_FREQ", base := 0xD0064, dims := [], fields := [⟨31, 0, .ro, 0x0⟩] },
    { name := "SYN_HOLD_FREQ", base := 0xD0068, dims := [], fields := [⟨31, 0, .ro, 0x0⟩] },
    { name := "SYN_HOLD_ELAPSED", base := 0xD006C, dims := [], fields := [⟨31, 0, .ro, 0x0⟩] },
    { name := "SYN_HIST", base := 0xD0070, dims := [], fields := [⟨21, 21, .w1c, 0x0⟩, ⟨20, 20, .w1c, 0x0⟩, ⟨19, 19, .w1c, 0x0⟩, ⟨18, 18, .w1c, 0x0⟩, ⟨17, 17, .w1c, 0x0⟩, ⟨16, 16, .w1c, 0x0⟩, ⟨14, 0, .w1c, 0x0⟩] },
    { name := "SYN_DISAGREE_STAT", base := 0xD0074, dims := [], fields := [⟨31, 16, .ro, 0x0⟩, ⟨7, 4, .ro, 0x0⟩, ⟨3, 0, .ro, 0x0⟩] },
    { name := "SYN_IN_CFG", base := 0xD1040, dims := [(0x10, 15)], fields := [⟨31, 31, .rws, 0x0⟩, ⟨27, 24, .rws, 0x0⟩, ⟨23, 20, .rws, 0xF⟩, ⟨19, 19, .rws, 0x0⟩, ⟨18, 16, .rws, 0x0⟩, ⟨12, 8, .rws, 0x1F⟩, ⟨7, 0, .rws, 0x5C⟩] },
    { name := "SYN_IN_STAT", base := 0xD1044, dims := [(0x10, 15)], fields := [⟨31, 29, .ro, 0x0⟩, ⟨28, 28, .ro, 0x0⟩, ⟨27, 24, .ro, 0xF⟩, ⟨15, 0, .ro, 0x0⟩] },
    { name := "SYN_IN_WTR", base := 0xD1048, dims := [(0x10, 15)], fields := [⟨9, 0, .ro, 0x0⟩] },
    { name := "SYN_ESMC_MAC_LO", base := 0xD2040, dims := [], fields := [⟨31, 0, .rw, 0x0⟩] },
    { name := "SYN_ESMC_MAC_HI", base := 0xD2044, dims := [], fields := [⟨15, 0, .rw, 0x0⟩] },
    { name := "ESMC_BAD", base := 0xD2048, dims := [], fields := [⟨31, 0, .rc, 0x0⟩] },
    { name := "SYN_ESMC", base := 0xD2100, dims := [(0x4, 32)], fields := [⟨31, 31, .rws, 0x0⟩, ⟨27, 24, .ro, 0xF⟩, ⟨23, 23, .ro, 0x1⟩, ⟨19, 16, .ro, 0x0⟩] },
    { name := "SYN_TIME_SNAP_LO", base := 0xD3048, dims := [], fields := [⟨31, 0, .ro, 0x0⟩] },
    { name := "SYN_TIME_SNAP_HI", base := 0xD304C, dims := [], fields := [⟨31, 0, .ro, 0x0⟩] },
    { name := "SYN_TIME_SET_LO", base := 0xD3050, dims := [], fields := [⟨31, 0, .rw, 0x0⟩] },
    { name := "SYN_TIME_SET_HI", base := 0xD3054, dims := [], fields := [⟨31, 0, .rw, 0x0⟩] },
    { name := "SYN_TIME_CTRL", base := 0xD3058, dims := [], fields := [⟨31, 31, .wo, 0x0⟩, ⟨30, 30, .ro, 0x0⟩, ⟨29, 29, .rw, 0x0⟩, ⟨9, 0, .rw, 0x64⟩] },
    { name := "SYN_TIME_ADJ", base := 0xD305C, dims := [], fields := [⟨31, 0, .rw, 0x0⟩] },
    { name := "SYN_PPS_CTRL", base := 0xD3060, dims := [], fields := [⟨31, 31, .rw, 0x0⟩, ⟨30, 30, .rw, 0x0⟩, ⟨19, 0, .rw, 0x186A0⟩] },
    { name := "SYN_PPS_IN_DELAY", base := 0xD3064, dims := [], fields := [⟨31, 0, .rw, 0x0⟩] },
    { name := "SYN_PPS_OUT_DELAY", base := 0xD3068, dims := [], fields := [⟨31, 0, .rw, 0x0⟩] },
    { name := "SYN_PPS_IN_TS_LO", base := 0xD3070, dims := [], fields := [⟨31, 0, .ro, 0x0⟩] },
    { name := "SYN_PPS_IN_TS_HI", base := 0xD3074, dims := [], fields := [⟨31, 0, .ro, 0x0⟩] } ]

/-- Registers of spec/15_synchronisation.md. -/
def regMap15_1 : List RegRow :=
  [ { name := "SYN_PPS_STAT", base := 0xD3078, dims := [], fields := [⟨31, 31, .ro, 0x0⟩, ⟨29, 0, .ro, 0x0⟩] },
    { name := "SYN_OUT_CFG", base := 0xD4040, dims := [(0x4, 2)], fields := [⟨31, 31, .rw, 0x0⟩, ⟨30, 30, .rw, 0x1⟩, ⟨27, 24, .rw, 0xF⟩, ⟨2, 0, .rw, 0x3⟩] } ]

/-- Registers of spec/16_housekeeping_and_monitoring.md. -/
def regMap16 : List RegRow :=
  [ { name := "HMP_STAT", base := 0xE0044, dims := [], fields := [⟨31, 31, .ro, 0x0⟩, ⟨30, 30, .ro, 0x0⟩, ⟨29, 24, .ro, 0x0⟩] },
    { name := "HMP_ALARM", base := 0xE0048, dims := [], fields := [⟨31, 0, .w1c, 0x0⟩] },
    { name := "HMP_SEAL", base := 0xE004C, dims := [], fields := [⟨0, 0, .w1s, 0x0⟩] },
    { name := "HMP_PD", base := 0xE0050, dims := [], fields := [⟨1, 1, .w1c, 0x0⟩, ⟨0, 0, .w1c, 0x0⟩] },
    { name := "HMP_RULE_CFG", base := 0xE1040, dims := [(0x10, 32)], fields := [⟨31, 31, .rws, 0x0⟩, ⟨30, 29, .rws, 0x0⟩, ⟨28, 23, .rws, 0x0⟩, ⟨22, 22, .rws, 0x0⟩, ⟨21, 21, .rws, 0x0⟩, ⟨20, 20, .rws, 0x0⟩, ⟨19, 12, .rws, 0x1⟩, ⟨5, 0, .rws, 0x0⟩] },
    { name := "HMP_RULE_THR", base := 0xE1044, dims := [(0x10, 32)], fields := [⟨23, 0, .rws, 0x0⟩] },
    { name := "HMP_RULE_HYST", base := 0xE1048, dims := [(0x10, 32)], fields := [⟨23, 0, .rws, 0x0⟩] },
    { name := "HMP_RULE_STAT", base := 0xE104C, dims := [(0x10, 32)], fields := [⟨31, 30, .ro, 0x0⟩, ⟨23, 16, .ro, 0x0⟩, ⟨15, 0, .ro, 0x0⟩] },
    { name := "HMP_LOG_CTRL", base := 0xE2040, dims := [], fields := [⟨21, 16, .ro, 0x0⟩, ⟨15, 0, .rc, 0x0⟩] },
    { name := "HMP_LOG", base := 0xE2050, dims := [(0x4, 4)], fields := [⟨31, 0, .ro, 0x0⟩] },
    { name := "THM_CTRL", base := 0xE4040, dims := [], fields := [⟨0, 0, .rw, 0x1⟩] },
    { name := "THM_SEQ", base := 0xE4044, dims := [], fields := [⟨23, 0, .rws, 0x3E8⟩] },
    { name := "THM_CMD", base := 0xE4048, dims := [], fields := [⟨1, 1, .wo, 0x0⟩, ⟨0, 0, .wo, 0x0⟩] },
    { name := "THM_STAT", base := 0xE404C, dims := [], fields := [⟨31, 31, .ro, 0x0⟩, ⟨30, 30, .ro, 0x0⟩, ⟨29, 29, .ro, 0x0⟩, ⟨28, 28, .ro, 0x0⟩, ⟨27, 27, .ro, 0x0⟩, ⟨26, 21, .ro, 0x0⟩] },
    { name := "THM_TRIG_OVL", base := 0xE4050, dims := [], fields := [⟨31, 0, .rc, 0x0⟩] },
    { name := "THM_GAIN", base := 0xE4054, dims := [], fields := [⟨23, 0, .ro, 0x400000⟩] },
    { name := "THM_OFFSET", base := 0xE4058, dims := [], fields := [⟨23, 0, .ro, 0x0⟩] },
    { name := "THM_CH_CFG", base := 0xE5040, dims := [(0x4, 52)], fields := [⟨31, 31, .rws, 0x0⟩, ⟨30, 29, .rws, 0x0⟩, ⟨28, 19, .rws, 0x14⟩, ⟨18, 15, .rws, 0x1⟩, ⟨14, 12, .rws, 0x0⟩, ⟨11, 11, .rws, 0x1⟩] },
    { name := "THM_CH_LAST", base := 0xE5200, dims := [(0x8, 52)], fields := [⟨31, 26, .ro, 0x0⟩, ⟨23, 0, .ro, 0x0⟩] },
    { name := "THM_CH_FILT", base := 0xE5204, dims := [(0x8, 52)], fields := [⟨23, 0, .ro, 0x0⟩] },
    { name := "THM_Q_CTRL", base := 0xE6040, dims := [], fields := [⟨23, 16, .ro, 0x0⟩, ⟨15, 0, .rc, 0x0⟩] },
    { name := "THM_Q_0", base := 0xE6050, dims := [], fields := [⟨31, 26, .ro, 0x0⟩, ⟨25, 18, .ro, 0x0⟩, ⟨17, 12, .ro, 0x0⟩] },
    { name := "THM_Q_1", base := 0xE6054, dims := [], fields := [⟨31, 0, .ro, 0x0⟩] },
    { name := "MON_CTRL", base := 0xE8040, dims := [(0x2000, 2)], fields := [⟨31, 31, .rws, 0x0⟩, ⟨30, 28, .rws, 0x0⟩, ⟨27, 26, .rws, 0x0⟩, ⟨25, 24, .rws, 0x0⟩, ⟨23, 19, .rws, 0x0⟩, ⟨18, 15, .rws, 0x4⟩, ⟨14, 6, .rws, 0x40⟩, ⟨5, 5, .rws, 0x0⟩] },
    { name := "MON_DET", base := 0xE8044, dims := [(0x2000, 2)], fields := [⟨31, 27, .rws, 0x0⟩, ⟨26, 22, .rws, 0x0⟩] },
    { name := "MON_CAP", base := 0xE8048, dims := [(0x2000, 2)], fields := [⟨31, 31, .rws, 0x0⟩, ⟨30, 30, .rws, 0x0⟩, ⟨29, 28, .rws, 0x0⟩, ⟨27, 26, .rws, 0x0⟩, ⟨25, 24, .rws, 0x0⟩, ⟨23, 16, .rws, 0x0⟩, ⟨15, 15, .rws, 0x0⟩] },
    { name := "MON_CAP_LEN", base := 0xE804C, dims := [(0x2000, 2)], fields := [⟨27, 0, .rws, 0x400⟩] },
    { name := "MON_CAP_AREA", base := 0xE8050, dims := [(0x2000, 2)], fields := [⟨17, 0, .rws, 0x0⟩] },
    { name := "MON_TRIG_THR", base := 0xE8054, dims := [(0x2000, 2)], fields := [⟨16, 16, .rws, 0x0⟩, ⟨15, 0, .rws, 0x0⟩] },
    { name := "MON_CMD", base := 0xE8058, dims := [(0x2000, 2)], fields := [⟨2, 2, .wo, 0x0⟩, ⟨1, 1, .wo, 0x0⟩, ⟨0, 0, .wo, 0x0⟩] } ]

/-- Registers of spec/16_housekeeping_and_monitoring.md. -/
def regMap16_1 : List RegRow :=
  [ { name := "MON_STAT", base := 0xE805C, dims := [(0x2000, 2)], fields := [⟨31, 30, .ro, 0x0⟩, ⟨29, 29, .ro, 0x0⟩, ⟨28, 28, .ro, 0x0⟩, ⟨27, 0, .ro, 0x0⟩] },
    { name := "MON_PEAK", base := 0xE8060, dims := [(0x2000, 2)], fields := [⟨15, 0, .ro, 0x0⟩] },
    { name := "MON_RMS", base := 0xE8064, dims := [(0x2000, 2)], fields := [⟨15, 0, .ro, 0x0⟩] },
    { name := "MON_ENV", base := 0xE8068, dims := [(0x2000, 2)], fields := [⟨15, 0, .ro, 0x0⟩] },
    { name := "MON_TRIG_OVL", base := 0xE806C, dims := [(0x2000, 2)], fields := [⟨31, 0, .rc, 0x0⟩] },
    { name := "MON_SAT", base := 0xE8070, dims := [(0x2000, 2)], fields := [⟨31, 0, .rc, 0x0⟩] },
    { name := "MON_CAP_SEQ", base := 0xE8074, dims := [(0x2000, 2)], fields := [⟨31, 0, .ro, 0x0⟩] },
    { name := "MON_TRIG_T_LO", base := 0xE8078, dims := [(0x2000, 2)], fields := [⟨31, 0, .ro, 0x0⟩] },
    { name := "MON_TRIG_T_HI", base := 0xE807C, dims := [(0x2000, 2)], fields := [⟨31, 0, .ro, 0x0⟩] },
    { name := "MON_COEF", base := 0xE9040, dims := [(0x2000, 2), (0x4, 384)], fields := [⟨17, 0, .rws, 0x0⟩] } ]

/-- Registers of spec/17_calibration_and_repair.md. -/
def regMap17 : List RegRow :=
  [ { name := "TRIM_ADC", base := 0x320000, dims := [(0x4000, 2), (0x800, 6), (0x4, 272)], fields := [⟨31, 20, .rw, 0x0⟩, ⟨19, 10, .rw, 0x0⟩, ⟨9, 0, .rw, 0x0⟩] },
    { name := "TRIM_DAC", base := 0x320440, dims := [(0x4000, 2), (0x800, 6), (0x4, 136)], fields := [⟨31, 20, .rw, 0x0⟩, ⟨19, 10, .rw, 0x0⟩, ⟨9, 0, .rw, 0x0⟩] },
    { name := "TRIM_LANE", base := 0x320660, dims := [(0x4000, 2), (0x800, 6), (0x4, 4)], fields := [⟨15, 8, .rw, 0x0⟩, ⟨7, 0, .rw, 0x0⟩] },
    { name := "REP_CTRL", base := 0xF0040, dims := [], fields := [⟨31, 31, .rw, 0x1⟩, ⟨30, 30, .rw, 0x1⟩] },
    { name := "REP_TEST", base := 0xF0044, dims := [], fields := [⟨31, 24, .rw, 0x3C⟩, ⟨23, 16, .rw, 0xA⟩, ⟨15, 0, .rw, 0x5A0⟩] },
    { name := "REP_CMD", base := 0xF0048, dims := [], fields := [⟨3, 3, .wo, 0x0⟩, ⟨2, 2, .wo, 0x0⟩, ⟨1, 1, .wo, 0x0⟩, ⟨0, 0, .wo, 0x0⟩] },
    { name := "REP_STAT", base := 0xF004C, dims := [], fields := [⟨31, 31, .ro, 0x0⟩, ⟨25, 16, .ro, 0x0⟩, ⟨8, 8, .ro, 0x0⟩, ⟨3, 3, .ro, 0x0⟩, ⟨2, 2, .ro, 0x0⟩] },
    { name := "REP_THM_FAIL_LO", base := 0xF0050, dims := [], fields := [⟨31, 0, .ro, 0x0⟩] },
    { name := "REP_THM_FAIL_HI", base := 0xF0054, dims := [], fields := [⟨15, 0, .ro, 0x0⟩] },
    { name := "REP_CLASS_STAT", base := 0xF1040, dims := [(0x4, 10)], fields := [⟨31, 31, .ro, 0x0⟩, ⟨30, 24, .ro, 0x0⟩, ⟨23, 16, .ro, 0x0⟩, ⟨15, 0, .ro, 0x0⟩] },
    { name := "REP_CLASS_SWAPS", base := 0xF1080, dims := [(0x4, 10)], fields := [⟨31, 0, .rc, 0x0⟩] },
    { name := "CAL_ENG_CTRL", base := 0xF2040, dims := [(0x20, 2)], fields := [⟨31, 31, .rw, 0x1⟩, ⟨30, 30, .rw, 0x1⟩, ⟨29, 29, .rw, 0x1⟩, ⟨28, 28, .rw, 0x1⟩, ⟨27, 27, .rw, 0x1⟩] },
    { name := "CAL_ENG_STAT", base := 0xF2044, dims := [(0x20, 2)], fields := [⟨31, 31, .ro, 0x0⟩, ⟨29, 24, .ro, 0x0⟩, ⟨23, 21, .ro, 0x0⟩, ⟨15, 0, .ro, 0x0⟩] },
    { name := "CAL_ENG_ROT", base := 0xF2048, dims := [(0x20, 2)], fields := [⟨31, 16, .rw, 0x64⟩, ⟨15, 0, .rw, 0x64⟩] },
    { name := "CAL_FG", base := 0xF2080, dims := [], fields := [⟨31, 31, .wo, 0x0⟩, ⟨30, 30, .ro, 0x0⟩, ⟨8, 8, .rw, 0x0⟩, ⟨2, 2, .rw, 0x1⟩, ⟨1, 1, .rw, 0x1⟩, ⟨0, 0, .rw, 0x1⟩] },
    { name := "CAL_FG_STAT", base := 0xF2084, dims := [], fields := [⟨23, 16, .ro, 0x0⟩, ⟨15, 8, .ro, 0x0⟩, ⟨7, 0, .ro, 0x0⟩] } ]

/-- Registers of spec/18_errors_ordering_and_counters.md. -/
def regMap18 : List RegRow :=
  [ { name := "CNT_SEL", base := 0x330000, dims := [(0x20, 512)], fields := [⟨31, 31, .rw, 0x0⟩, ⟨30, 29, .rw, 0x0⟩, ⟨28, 28, .rw, 0x0⟩, ⟨27, 27, .rw, 0x0⟩, ⟨26, 26, .ro, 0x0⟩, ⟨25, 13, .rw, 0x0⟩] },
    { name := "CNT_THR", base := 0x330004, dims := [(0x20, 512)], fields := [⟨31, 0, .rw, 0x0⟩] },
    { name := "CNT_LO", base := 0x330008, dims := [(0x20, 512)], fields := [⟨31, 0, .rw, 0x0⟩] },
    { name := "CNT_HI", base := 0x33000C, dims := [(0x20, 512)], fields := [⟨15, 0, .rw, 0x0⟩] },
    { name := "CNT_SNAP_LO", base := 0x330010, dims := [(0x20, 512)], fields := [⟨31, 0, .ro, 0x0⟩] },
    { name := "CNT_SNAP_HI", base := 0x330014, dims := [(0x20, 512)], fields := [⟨15, 0, .ro, 0x0⟩] },
    { name := "EVL_CTRL", base := 0xFA040, dims := [], fields := [⟨31, 30, .rw, 0x2⟩, ⟨15, 0, .rw, 0x3E8⟩] },
    { name := "EVL_HEAD", base := 0xFA044, dims := [], fields := [⟨31, 0, .ro, 0x0⟩] },
    { name := "EVL_TAIL", base := 0xFA048, dims := [], fields := [⟨31, 0, .rw, 0x0⟩] },
    { name := "EVL_DROP", base := 0xFA04C, dims := [], fields := [⟨31, 0, .rc, 0x0⟩] },
    { name := "EVL_LATE", base := 0xFA050, dims := [], fields := [⟨31, 0, .rc, 0x0⟩] },
    { name := "EVL_MASK", base := 0xFB400, dims := [(0x4, 256)], fields := [⟨31, 0, .rw, 0x7E000000⟩] },
    { name := "CNT_FREEZE", base := 0xF8040, dims := [], fields := [⟨31, 31, .rw, 0x0⟩, ⟨30, 30, .ro, 0x0⟩, ⟨15, 0, .rw, 0x4⟩] },
    { name := "CNT_FREEZE_T_LO", base := 0xF8044, dims := [], fields := [⟨31, 0, .ro, 0x0⟩] },
    { name := "CNT_FREEZE_T_HI", base := 0xF8048, dims := [], fields := [⟨31, 0, .ro, 0x0⟩] },
    { name := "CNT_OVF", base := 0xF8080, dims := [(0x4, 16)], fields := [⟨31, 0, .w1c, 0x0⟩] },
    { name := "SMP_CTRL", base := 0xF9040, dims := [], fields := [⟨31, 31, .rw, 0x0⟩, ⟨30, 30, .rw, 0x0⟩, ⟨29, 28, .rw, 0x0⟩, ⟨27, 23, .rw, 0xA⟩, ⟨22, 18, .rw, 0x4⟩, ⟨17, 13, .rw, 0x0⟩, ⟨12, 12, .rw, 0x0⟩, ⟨0, 0, .wo, 0x0⟩] },
    { name := "SMP_STAT", base := 0xF9044, dims := [], fields := [⟨31, 31, .ro, 0x0⟩, ⟨20, 16, .ro, 0x0⟩, ⟨13, 0, .ro, 0x0⟩] },
    { name := "SMP_WR_COUNT", base := 0xF9048, dims := [], fields := [⟨31, 0, .ro, 0x0⟩] },
    { name := "SMP_SKIP", base := 0xF904C, dims := [], fields := [⟨31, 0, .rc, 0x0⟩] } ]

/-- Registers of spec/19_electrical_and_package.md. -/
def regMap19 : List RegRow :=
  [ { name := "DEV_AVS", base := 0x5C, dims := [], fields := [⟨31, 31, .ro, 0x0⟩, ⟨30, 30, .ro, 0x0⟩, ⟨23, 16, .ro, 0x14⟩, ⟨7, 0, .ro, 0x14⟩] },
    { name := "GPIO_DIR", base := 0x6040, dims := [], fields := [⟨15, 0, .rw, 0x0⟩] },
    { name := "GPIO_OUT", base := 0x6044, dims := [], fields := [⟨15, 0, .rw, 0x0⟩] },
    { name := "GPIO_IN", base := 0x6048, dims := [], fields := [⟨15, 0, .ro, 0x0⟩] },
    { name := "GPIO_EDGE", base := 0x604C, dims := [], fields := [⟨31, 16, .rw, 0x0⟩, ⟨15, 0, .rw, 0x0⟩] } ]

/-- Every register row, by chapter. -/
def regMap : List RegRow :=
  regMap01 ++ regMap02 ++ regMap03 ++ regMap04 ++ regMap05 ++ regMap05_1 ++ regMap06 ++ regMap06_1 ++ regMap07 ++ regMap08 ++ regMap09 ++ regMap10 ++ regMap11 ++ regMap11_1 ++ regMap12 ++ regMap13 ++ regMap14 ++ regMap15 ++ regMap15_1 ++ regMap16 ++ regMap16_1 ++ regMap17 ++ regMap18 ++ regMap19

end Sys2Proof.Machine
end

