-- ==== Sys2Proof/WellFormed.lean ====
section
/-! DEFINITION. Which commands the block can be given: operands whose types alone would allow what no occurrence of the command
has. The meaning of a command that fails its check faults (Machine.Fault.illFormed). -/
namespace Sys2Proof

/-- R206: a subcarrier splits into 2^w bands. -/
def bandOk (w : Fin 3) (band : Fin 4) : Bool := band.val < 2 ^ w.val

/-- R226: each detector that fired watches a band that exists, and what it found is given. -/
def firedOk (bands : List (Fin 3 × Fin 4)) (found : List (BitVec 9 × BitVec 16)) : Bool :=
  bands.length == found.length && bands.all fun d => bandOk d.1 d.2

/-- R298: defect codes and what each is declared on. -/
def scopeOk (d : Fin 12) : DefScope → Bool
  | .engine _ => d.val < 2 || d.val == 6 || d.val == 7
  | .stream _ _ => 2 ≤ d.val && d.val ≤ 5
  | .group _ => d.val == 8
  | .member _ _ => d.val == 9
  | .container _ _ => d.val == 10
  | .leaf _ _ => d.val == 11

/-- R303: a field of the transmit equaliser's taps as a signed number of `w` bits. -/
def tapMag (w lo : Nat) (taps : Word) : Nat := ((taps.extractLsb' lo w).toInt).natAbs

/-- R303: the sum of the magnitudes of the taps is at most 63. -/
def tapsOk (taps : Word) : Bool :=
  (taps.extractLsb' 10 6).toNat + tapMag 5 27 taps + tapMag 5 22 taps + tapMag 6 16 taps + tapMag 5 5 taps + tapMag 5 0 taps ≤ 63

/-- R98: the request codes that no row of their own takes: WAKE, DEGRADED, ZEROISED and the reserved ones. -/
def codeRefused (code : BitVec 4) : Bool := code == 1 || code == 5 || 7 ≤ code.toNat

/-- The operands of a command are those of an occurrence of it. -/
def wellFormed : Instr → Bool
  | .preambleDetect _ _ bands found _ _ => firedOk bands found
  | .burstHeaderDecode _ _ w band _ => bandOk w band
  | .burstRxDone _ _ w band _ _ _ _ => bandOk w band
  | .idleMeasure _ _ w band _ => bandOk w band
  | .defectDeclare d x _ => scopeOk d x
  | .defectClear d x => scopeOk d x
  | .trainingComplete _ taps => tapsOk taps
  | .modeReqNotAllowed _ code _ => codeRefused code
  | _ => true

end Sys2Proof
end

