-- ==== Sys2Proof/Machine/Ops.lean ====
section
/-! DEFINITION. The named operations every meaning is built from: sparse contents, register fields, free values,
pages and commit domains. -/
namespace Sys2Proof.Machine

/-! ## Sparse contents -/

/-- The entry listed under a key. -/
def Tbl.find {α : Type} : Tbl α → Nat → Option α
  | [], _ => none
  | (k', v) :: t, k => if k' = k then some v else Tbl.find t k

/-- What a key reads as: its entry, or the default. -/
def Tbl.get {α : Type} (d : α) (t : Tbl α) (k : Nat) : α := (Tbl.find t k).getD d

/-- Lists a key, keeping keys rising. -/
def Tbl.insert {α : Type} : Tbl α → Nat → α → Tbl α
  | [], k, v => [(k, v)]
  | (k', v') :: t, k, v =>
    if k < k' then (k, v) :: (k', v') :: t
    else if k = k' then (k, v) :: t
    else (k', v') :: Tbl.insert t k v

/-- Unlists a key. -/
def Tbl.erase {α : Type} (t : Tbl α) (k : Nat) : Tbl α := t.filter (fun e => e.1 != k)

/-- Makes a key read as a value, keeping the canonical form: the default is never listed. -/
def Tbl.set {α : Type} [DecidableEq α] (d : α) (t : Tbl α) (k : Nat) (v : α) : Tbl α :=
  if v = d then Tbl.erase t k else Tbl.insert t k v

/-- The keys chosen by `p` taken from `src`, the others from `dst`. -/
def Tbl.overlay {α : Type} (p : Nat → Bool) (src dst : Tbl α) : Tbl α :=
  (src.filter (fun e => p e.1)).foldr (fun e t => Tbl.insert t e.1 e.2) (dst.filter (fun e => !p e.1))

/-- Only the keys chosen by `p`. -/
def Tbl.keep {α : Type} (p : Nat → Bool) (t : Tbl α) : Tbl α := t.filter (fun e => p e.1)

/-- Keys strictly rising. -/
def Tbl.rising {α : Type} : Tbl α → Bool
  | [] => true
  | [_] => true
  | e :: e' :: t => decide (e.1 < e'.1) && Tbl.rising (e' :: t)

/-- The canonical form: keys strictly rising and no entry equal to the default. -/
def Tbl.wf {α : Type} [DecidableEq α] (d : α) (t : Tbl α) : Bool :=
  Tbl.rising t && t.all (fun e => decide (e.2 ≠ d))

/-! ## Register fields -/

/-- What a field reads as in given contents. -/
def look (t : Tbl Nat) (f : Field) : Nat := Tbl.get f.reset t f.key

/-- The value of a field that is not RWS (R15). -/
def State.g (s : State) (f : Field) : Nat := look s.fields f
/-- The staged value of an RWS field (R17). -/
def State.stg (s : State) (f : Field) : Nat := look s.staged f
/-- The value of an RWS field in force (R17, R58). -/
def State.cur (s : State) (f : Field) : Nat := look s.inForce f
/-- A one-bit field as a Bool. -/
def State.on (s : State) (f : Field) : Bool := s.g f == 1
/-- A one-bit RWS field in force as a Bool. -/
def State.curOn (s : State) (f : Field) : Bool := s.cur f == 1

/-- Gives a field a value, cut to its width. -/
def State.setF (s : State) (f : Field) (v : Nat) : State :=
  { s with fields := Tbl.set f.reset s.fields f.key (v % 2 ^ f.width) }
/-- Gives a one-bit field a value. -/
def State.setB (s : State) (f : Field) (b : Bool) : State := s.setF f b.toNat
/-- Gives an RWS field a staged value. -/
def State.stage (s : State) (f : Field) (v : Nat) : State :=
  { s with staged := Tbl.set f.reset s.staged f.key (v % 2 ^ f.width) }
/-- Gives an RWS field a value in force (used where a rule changes a setting itself). -/
def State.force (s : State) (f : Field) (v : Nat) : State :=
  { s with inForce := Tbl.set f.reset s.inForce f.key (v % 2 ^ f.width) }
/-- Adds to a counter field that saturates at its width. -/
def State.bump (s : State) (f : Field) (n : Nat) : State :=
  s.setF f (min (s.g f + n) (2 ^ f.width - 1))
/-- Adds to a counter field that wraps at its width. -/
def State.incWrap (s : State) (f : Field) (n : Nat) : State := s.setF f (s.g f + n)
/-- Adds to a counter kept in a low and a high word, wrapping at their joint width (R260). -/
def State.bump64 (s : State) (lo hi : Field) (n : Nat) : State :=
  let v := s.g lo + s.g hi * 2 ^ lo.width + n
  (s.setF lo v).setF hi (v / 2 ^ lo.width)

/-- Applies a change for each element of a list, in its order. -/
def State.forEach {α : Type} (l : List α) (f : α → State → State) (s : State) : State :=
  l.foldl (fun t a => f a t) s

/-- A change made only under a condition. -/
def State.when (c : Bool) (f : State → State) (s : State) : State := if c then f s else s

/-- Draws a free value of at most `w` bits: nothing is known of it. -/
def State.draw (s : State) (w : Nat) : Nat × State :=
  ((Config.freeValue s.drawn).toNat % 2 ^ w, { s with drawn := s.drawn + 1 })

/-- Device time as a number of nanoseconds. -/
def State.now (s : State) : Nat := s.time.toNat

/-- A device time in the two's complement order of 64-bit time: an event at instant `t` brings device time to `t`
unless it has passed it already (R12: device time never runs backwards). -/
def State.reach (s : State) (t : Nat) : State :=
  if s.now < t then { s with time := BitVec.ofNat 64 t } else s

/-! ## Pages -/

/-- R49, R50: the pages some chapter defines. -/
def definedPage (p : Nat) : Bool :=
  let le := if 0x50 ≤ p then p - 0x40 else p
  decide (p ≤ 0x0A) || (0x10 ≤ p && p ≤ 0x8F &&
    (le == 0x10 || (0x14 ≤ le && le ≤ 0x1D) || (0x20 ≤ le && le ≤ 0x22) || (0x24 ≤ le && le ≤ 0x2B) ||
     (0x30 ≤ le && le ≤ 0x32) || le == 0x34 || le == 0x35 || le == 0x38 || le == 0x3A || (0x40 ≤ le && le ≤ 0x47)))
  || (0x90 ≤ p && p ≤ 0x97) || (0xA0 ≤ p && p ≤ 0xAA) || p == 0xB0 || (0xB4 ≤ p && p ≤ 0xB7)
  || (0xC0 ≤ p && p ≤ 0xC6) || p == 0xC8 || p == 0xC9 || (0xD0 ≤ p && p ≤ 0xD4) || (0xD8 ≤ p && p ≤ 0xDB)
  || (0xE0 ≤ p && p ≤ 0xE2) || (0xE4 ≤ p && p ≤ 0xE6) || (0xE8 ≤ p && p ≤ 0xEB) || (0xF0 ≤ p && p ≤ 0xF2)
  || (0xF8 ≤ p && p ≤ 0xFE)

/-- The page whose LOCK and error events guard a bus address: its own, or the page that owns the window. -/
def pageOf (a : Nat) : Nat :=
  if a < 0x100000 then a / 0x1000
  else if 0x200000 ≤ a && a < 0x210000 then 0xE8
  else if 0x210000 ≤ a && a < 0x220000 then 0xEA
  else if 0x300000 ≤ a && a < 0x310000 then 0xC0
  else if 0x310000 ≤ a && a < 0x318000 then 0xC8
  else if 0x320000 ≤ a && a < 0x328000 then 0xF1
  else if 0x330000 ≤ a && a < 0x334000 then 0xF8
  else if 0x334000 ≤ a && a < 0x338000 then 0xFA
  else if 0x340000 ≤ a && a < 0x3C0000 then 0xF9
  else if 0x1000000 ≤ a && a < 0x3000000 then 0xB0
  else if 0x3FF0000 ≤ a then 0x02
  else 0xFF

/-- R57, R473 and the block chapters: the commit domain of a page, named by its lowest page. -/
def domainOf (p : Nat) : Nat :=
  if 0x10 ≤ p && p ≤ 0x4F then 0x10
  else if 0x50 ≤ p && p ≤ 0x8F then 0x50
  else if 0x94 ≤ p && p ≤ 0x97 then p - 4
  else if 0xA0 ≤ p && p ≤ 0xA7 then 0xA0
  else if 0xA8 ≤ p && p ≤ 0xAF then 0xA8
  else if 0xB0 ≤ p && p ≤ 0xBF then 0xB0
  else if 0xC0 ≤ p && p ≤ 0xC7 then 0xC0
  else if 0xC8 ≤ p && p ≤ 0xCF then 0xC8
  else if 0xD0 ≤ p && p ≤ 0xD7 then 0xD0
  else if p == 0xDA || p == 0xDB then p - 2
  else if 0xE0 ≤ p && p ≤ 0xE2 then 0xE0
  else if 0xE4 ≤ p && p ≤ 0xE6 then 0xE4
  else if p == 0xE9 || p == 0xEB then p - 1
  else p

/-- Whether a field's bit address lies in commit domain `d`. -/
def inDomain (d key : Nat) : Bool := domainOf (pageOf (key / 8)) == d

end Sys2Proof.Machine
end

