-- ==== Sys2Proof/Machine/Flags.lean ====
section
/-! DEFINITION. Flags and what they drive: events with their log entries and MSI-X messages, error codes, loss counters,
fabric errors and locks; then the access gates of modes and clock domains. -/
namespace Sys2Proof.Machine

/-! ## Events -/

/-- The vectors' summaries (R84, R87): a page's summary is 1 while EVT_STICKY AND EVT_EN is not 0. -/
def State.summary (s : State) (p : Nat) : Bool := (s.g (F.EVT_STICKY p) &&& s.g (F.EVT_EN p)) != 0

/-- R87: the OR of the summaries of the pages routed to vector `v`. -/
def State.vecSummary (s : State) (v : Nat) : Bool :=
  (List.range 256).any fun p =>
    s.on (F.DEV_PAGE_ROUTE_to_msix p) && s.g (F.DEV_PAGE_ROUTE_vector p) == v && s.summary p

/-- R87: whether vector `v` can send now. -/
def Events.canSend (e : Events) (v : Nat) : Bool :=
  e.linkUp && e.msiEnabled && e.funcUnmasked && !e.d3hot && Tbl.get false e.msiUnmasked v

/-- R87: a vector sends its message, or sets its pending bit where the function cannot send. -/
def State.msiSend (s : State) (v : Nat) : State :=
  if s.ev.canSend v then
    { s with ev := { s.ev with msiSent := Tbl.set 0 s.ev.msiSent v (Tbl.get 0 s.ev.msiSent v + 1) } }
  else { s with ev := { s.ev with msiPend := Tbl.set false s.ev.msiPend v true } }

/-- R87: page `p` may have changed its summary between `s0` and `s`: its vector sends if its own summary rose. -/
def State.msiRise (s0 : State) (p : Nat) (s : State) : State :=
  if s.on (F.DEV_PAGE_ROUTE_to_msix p) then
    let v := s.g (F.DEV_PAGE_ROUTE_vector p)
    if !s0.vecSummary v && s.vecSummary v then s.msiSend v else s
  else s

/-- R518, R524: the event log runs: not in DORMANT nor while PORST_N is low. -/
def State.logRuns (s : State) : Bool := s.g F.DEV_MODE_mode != 0 && !s.dev.held

/-- R519, R521: an EVENT or LOSS entry of `n` edges or units is made at device time `t` and opens a window. -/
def State.foldEntry (s : State) (p code kind n arg t : Nat) : State :=
  let a := if kind = 0 then min n 65535 * 65536 + arg else min n 4294967295
  { s with ev := { s.ev with
      made := s.ev.made ++ [{ stamp := t, page := p, code := code, kind := kind, arg := a }],
      fold := Tbl.insert s.ev.fold ((p * 4 + kind) * 256 + code) { ends := t + s.g F.EVL_CTRL_fold_us * 1000, folded := 0 } } }

/-- R521: window `w` ends: what it has folded makes an entry, which opens a new window. -/
def State.foldEnd (s : State) (p code kind arg : Nat) (w : FoldWin) : State :=
  if w.folded = 0 then { s with ev := { s.ev with fold := Tbl.erase s.ev.fold ((p * 4 + kind) * 256 + code) } }
  else s.foldEntry p code kind w.folded arg w.ends

/-- R521: the windows of a page, kind and code that have run out by now have ended. -/
def State.foldClose (s : State) (p code kind arg : Nat) : State :=
  let past (s : State) : State := match Tbl.find s.ev.fold ((p * 4 + kind) * 256 + code) with
    | some w => if w.ends < s.now then s.foldEnd p code kind arg w else s
    | none => s
  past (past s)

/-- R518, R521: an entry of a kind that folds (EVENT, LOSS) is made, or counted in its open window. -/
def State.logFold (s : State) (p code kind n arg : Nat) : State :=
  let k := (p * 4 + kind) * 256 + code
  if !s.logRuns then s
  else
    let s := s.foldClose p code kind arg
    match Tbl.find s.ev.fold k with
    | some w => { s with ev := { s.ev with fold := Tbl.insert s.ev.fold k { w with folded := w.folded + n } } }
    | none => s.foldEntry p code kind n arg s.now

/-- R518: an ERROR or RECORD entry is made; these never fold (R521). -/
def State.logPlain (s : State) (p code kind arg : Nat) : State :=
  if !s.logRuns then s
  else { s with ev := { s.ev with
      made := s.ev.made ++ [{ stamp := s.now, page := p, code := code, kind := kind, arg := arg }] } }

/-- R518: the EVENT entry of a rising edge, where the page's mask has its bit; page 0xFA makes none. -/
def State.logEdge (s : State) (p b : Nat) : State :=
  if p ≠ 0xFA ∧ (s.g (F.EVL_MASK_mask p)).testBit b then
    s.logFold p b 0 1 (if b = 30 then s.g (F.PAGE_STAT_commit_reason (domainOf p)) else if b = 25 then s.g (F.ERR_code p) else 0)
  else s

/-- R530: a rising edge counts once for every counter that selects it. -/
def State.countEdge (s : State) (p b : Nat) : State :=
  { s with ev := { s.ev with edges := Tbl.set 0 s.ev.edges (p * 32 + b) (Tbl.get 0 s.ev.edges (p * 32 + b) + 1) } }

/-- R531: a datapath event adds its increment. -/
def State.datapath (s : State) (n inc : Nat) : State :=
  { s with ev := { s.ev with incs := Tbl.set [] s.ev.incs n (Tbl.get [] s.ev.incs n ++ [inc]) } }

/-- R54: sets an EVT_STICKY bit. -/
def State.setSticky (s : State) (p b : Nat) : State :=
  s.setF (F.EVT_STICKY p) (s.g (F.EVT_STICKY p) ||| 2 ^ b)

/-- R54: event `b` of page `p` occurs (its EVT_RAW bit rises): the sticky bit is set, counters and the event log see the
edge, and the routed vector sends (R87). -/
def State.evt (p b : Nat) (s : State) : State :=
  State.msiRise s p (((s.setSticky p b).countEdge p b).logEdge p b)

/-- R530: a level that the counters see leaves the value `old`. -/
def State.noteWas (s : State) (k old : Nat) : State :=
  { s with ev := { s.ev with was := Tbl.set [] s.ev.was k (Tbl.get [] s.ev.was k ++ [(s.now, old)]) } }

/-- R54: EVT_RAW bit `b` of page `p` takes level `v`; a rise is an event. -/
def State.level (p b : Nat) (v : Bool) (s : State) : State :=
  let raw := s.g (F.EVT_RAW p)
  if v then
    if raw.testBit b then s else State.evt p b ((s.noteWas (2048 + p * 32 + b) 0).setF (F.EVT_RAW p) (raw ||| 2 ^ b))
  else if raw.testBit b then (s.noteWas (2048 + p * 32 + b) 1).setF (F.EVT_RAW p) (raw ^^^ 2 ^ b) else s

/-- R55, R518: an error is recorded in ERR_CODE of page `p`: the first one is held and raises err, later ones set
err_lost; each makes an ERROR entry, which names an offset where there is one (R353). -/
def State.err (p step code : Nat) (s : State) (off : Nat := 0) : State :=
  let s := s.logPlain p code 1 (off / 256 * 65536 + step * 256 + off % 256)
  if s.on (F.ERR_valid p) then s.setB (F.ERR_lost p) true
  else State.evt p 25 (((s.setB (F.ERR_valid p) true).setF (F.ERR_step p) step).setF (F.ERR_code p) code)

/-- R518, R527: a counter marked LOSS grows by `n`: it saturates, and a LOSS entry is made (code: its offset ÷ 4). -/
def State.loss (f : Field) (n : Nat) (s : State) : State :=
  if n = 0 then s
  else (s.bump f n).logFold (pageOf (f.key / 8)) (f.key / 8 % 0x1000 / 4 % 256) 2 n 0

/-! ## Masters, fabric errors, locks -/

/-- R65: master codes. -/
def mcode : Master → Nat
  | .enclave => 1 | .hamper => 2 | .mgmt => 3 | .pcie => 4 | .spi => 5

/-- R89: reason codes of fabric errors. -/
inductive FabReason where
  | narrow | unmapped | domainDown | denied | multiCmd
  deriving DecidableEq, Repr

/-- R89: the reason's code. -/
def FabReason.code : FabReason → Nat
  | .narrow => 1 | .unmapped => 2 | .domainDown => 3 | .denied => 4 | .multiCmd => 5

/-- R89: a refused or malformed access is recorded on page 0x07, while the fabric runs. -/
def State.fabErr (m : Nat) (r : FabReason) (addr : Nat) (s : State) : State :=
  if !s.logRuns then s
  else
    let s := State.datapath s 1178 1
    let s := ((s.bump F.FAB_ERR_CNT_count 1).setF F.FAB_ERR_LAST_ADDR_addr addr)
    (s.setF F.FAB_ERR_LAST_INFO_reason r.code).setF F.FAB_ERR_LAST_INFO_master m

/-- R89: a refused write: recorded, and its page (where a chapter defines it) raises access_err. -/
def State.refuse (m : Nat) (r : FabReason) (addr : Nat) (s : State) : State :=
  let s := s.fabErr m r addr
  if definedPage (pageOf addr) then State.evt (pageOf addr) 26 s else s

/-- R68: the page LOCK that keeps master `m` out, if any. -/
def State.lockedOut (s : State) (m p : Nat) : Bool :=
  let w := s.g (F.LOCK_owner p)
  w != 0 && w != m

/-- The field that holds a lock's owner, 0 when free (R67). -/
def ownerField : LockId → Field
  | .general n => F.LOCKN_owner n.val
  | .page p => F.LOCK_owner p.val

/-- R67: an erroneous lock write counts in LOCK_ERR with where and who. -/
def State.lockErr (m : Nat) (l : LockId) (s : State) : State :=
  let (pg, ix) := match l with
    | .general n => (0x08, n.val)
    | .page p => (p.val, 0)
  let s := s.bump F.LOCK_ERR_count 1
  ((s.setF F.LOCK_ERR_last_page pg).setF F.LOCK_ERR_last_index ix).setF F.LOCK_ERR_last_master m

/-- The page whose lock_err event a lock raises (R53, R67). -/
def lockPage : LockId → Nat
  | .general _ => 0x08
  | .page p => p.val

/-! ## Engines -/

/-- What engine `le` holds. -/
def State.eng (s : State) (le : Nat) : Engine := if le = 0 then s.le0 else s.le1
/-- Changes what engine `le` holds. -/
def State.modEng (s : State) (le : Nat) (f : Engine → Engine) : State :=
  if le = 0 then { s with le0 := f s.le0 } else { s with le1 := f s.le1 }
/-- Changes an engine's transmit storage. -/
def State.modTx (s : State) (le : Nat) (f : Tx → Tx) : State := s.modEng le fun e => { e with tx := f e.tx }

/-- Changes an engine's receive storage. -/
def State.modRx (s : State) (le : Nat) (f : Rx → Rx) : State := s.modEng le fun e => { e with rx := f e.rx }
/-- Changes an engine's FEC storage. -/
def State.modFec (s : State) (le : Nat) (f : Fec → Fec) : State := s.modEng le fun e => { e with fec := f e.fec }
/-- Changes an engine's framer storage. -/
def State.modGlf (s : State) (le : Nat) (f : Glf → Glf) : State := s.modEng le fun e => { e with glf := f e.glf }
/-- Changes an engine's point-to-multipoint storage. -/
def State.modP2 (s : State) (le : Nat) (f : P2mp → P2mp) : State := s.modEng le fun e => { e with p2mp := f e.p2mp }
/-- R31: the role in force: 0 OFF, 1 P2P, 2 HUB, 3 LEAF, 4 REGEN, 5 LOOP. -/
def State.role (s : State) (le : Nat) : Nat := s.g (F.LE_ROLE_STAT_role_active le)

/-- R28, R30: engine `le` runs the native line mode. -/
def State.native (s : State) (le : Nat) : Bool := s.g (F.LE_ROLE_STAT_line_mode_active le) == 0

/-- A page of engine `le`, named by its number in LE0 (R14). -/
def lep (le p : Nat) : Nat := p + 0x40 * le

/-- A field read as a two's complement number of its width (R11). -/
def signed (w v : Nat) : Int := if v < 2 ^ (w - 1) then (v : Int) else (v : Int) - (2 : Int) ^ w

/-- Two's complement coding in `w` bits (R11). -/
def unsigned (w : Nat) (i : Int) : Nat := (i % (2 : Int) ^ w).toNat

/-- A field of given contents as a signed number. -/
def lookI (t : Tbl Nat) (f : Field) : Int := signed f.width (look t f)

/-- Whether every element of 0 to n − 1 meets `p`. -/
def allBelow (n : Nat) (p : Nat → Bool) : Bool := (List.range n).all p

/-- How many bits of the low `n` of `v` are set. -/
def popcount (n v : Nat) : Nat := ((List.range n).filter fun k => v.testBit k).length

/-- The first failing check of an ordered list (reason code, holds?): 0 when all hold (R63). -/
def firstFail : List (Nat × Bool) → Nat
  | [] => 0
  | (r, ok) :: t => if ok then firstFail t else r

/-! ## Modes and domains -/

/-- R90, R98: the device mode's code. -/
def State.mode (s : State) : Nat := s.g F.DEV_MODE_mode

/-- R103: the enclave runs: in every mode but DORMANT, out of reset. -/
def enclaveUp (s : State) : Bool := s.mode != 0 && !s.dev.held && s.dev.vaon

/-- R421: the enclave serves commands: not in DORMANT nor in WAKE. -/
def enclaveServes (s : State) : Bool := enclaveUp s && s.mode != 1

/-- R97, R126: the device runs as in SERVICE (SERVICE, DEGRADED, MAINTENANCE, and ZEROISED under KEEP_CLEAR). -/
def State.inService (s : State) : Bool :=
  s.mode == 4 || s.mode == 5 || s.mode == 6 || (s.mode == 7 && s.dev.keepClear)

/-- R90, R126: the device runs as in STANDBY (STANDBY, and ZEROISED under STOP). -/
def State.inStandby (s : State) : Bool := s.mode == 3 || (s.mode == 7 && !s.dev.keepClear)

/-- R31, R35: an engine's run state 0 STOPPED, 1 STARTING, 2 RUNNING, 3 STOPPING. -/
def State.runState (s : State) (le : Nat) : Nat := s.g (F.LE_ROLE_STAT_run_state le)

/-- R126: the block's clock domain behind page `p` runs and is out of reset. -/
def State.domainUp (s : State) (p : Nat) : Bool :=
  if 0xE0 ≤ p && p ≤ 0xE7 then s.dev.vaon
  else if s.dev.held || s.mode == 0 then false
  else if p == 0x05 then s.dev.debugUp
  else if p ≤ 0x0F || 0xF0 ≤ p || (0xD8 ≤ p && p ≤ 0xDF) then true
  else if 0x90 ≤ p && p ≤ 0x97 then
    s.inService && (List.range 8).any fun k => s.g (F.HL_LANE_STAT_state ((p - 0x90) % 4) k) != 0
  else if p == 0xE8 || p == 0xE9 then s.inService && (s.runState 0 != 0 || (s.on F.CAL_FG_busy && s.g F.CAL_FG_engine == 0))
  else if p == 0xEA || p == 0xEB then s.inService && (s.runState 1 != 0 || (s.on F.CAL_FG_busy && s.g F.CAL_FG_engine == 1))
  else if 0xC0 ≤ p && p ≤ 0xC7 then s.inStandby || s.inService
  else s.mode != 1

/-- R127: the configuration of page `p` is held in clk_fab, so that it answers while the block's domain is stopped. -/
def fabHeld (p : Nat) : Bool := (0x90 ≤ p && p ≤ 0x97) || (0xE8 ≤ p && p ≤ 0xEB)

/-- R53: PAGE_CTRL.enable: the block function of page `p` is not held idle. -/
def State.pageOn (s : State) (p : Nat) : Bool := s.on (F.PAGE_CTRL_enable p)

/-- R538: the sampler chooses on a path (0 transmit, 1 receive) among the units of a port. -/
def smpOn (s : State) (path port : Nat) : Bool :=
  s.pageOn 0xF9 && s.on F.SMP_CTRL_en && (s.g F.SMP_CTRL_path == path || s.g F.SMP_CTRL_path == 2) && !s.on F.SMP_STAT_full &&
  (!s.on F.SMP_CTRL_port_en || s.g F.SMP_CTRL_port == port)

/-- R538: a packet, or `len` bytes of a CBR client in blocks of 256, passes the sampler of a path and is counted down. -/
def State.smpPass (path port : Nat) (cbr : Bool) (len : Nat) (s : State) : State :=
  if smpOn s path port then
    let k := path * 32 + port
    let total := Tbl.get 0 s.smp.part k + len
    let units := if cbr then total / 256 else 1
    { s with smp := { s.smp with
        part := if cbr then Tbl.set 0 s.smp.part k (total % 256) else s.smp.part,
        countdown := Tbl.set 0 s.smp.countdown path (Tbl.get 0 s.smp.countdown path - units) } }
  else s

/-- R51, R123: whether an access of master `m` to page `p` reaches a register at all: while the fabric does not run,
only the clk_aon pages answer, to Hamper and the SPI front end. -/
def State.reaches (s : State) (m : Master) (p : Nat) : Bool :=
  if !s.dev.vaon then false
  else if s.mode == 0 || s.dev.held then
    0xE0 ≤ p && p ≤ 0xE7 && (m == .hamper || (m == .spi && s.mode == 0))
  else true

/-- R531: an access of the fabric by master `m` (datapath events 1160 and 1160 + its code). -/
def State.access (m : Master) (s : State) : State :=
  if s.logRuns then State.datapath (State.datapath s 1160 1) (1160 + mcode m) 1 else s

/-- A write of a command bit (WO or W1S) at `addr`: it is dropped where no fabric runs, refused on an undefined page
(R50), where the block's domain is stopped unless the register answers in clk_fab (R51, R127), and under a page LOCK
of another master (R68); otherwise it takes effect. -/
def State.goWrite (s : State) (m : Master) (addr : Nat) (inFab : Bool) (f : State → State) : State :=
  let p := pageOf addr
  if !s.reaches m p then s
  else
    let s := s.access m
    if !definedPage p then s.refuse (mcode m) .unmapped addr
    else if !inFab && !s.domainUp p then s.refuse (mcode m) .domainDown addr
    else if s.lockedOut (mcode m) p then s.refuse (mcode m) .denied addr
    else f s

end Sys2Proof.Machine
end

