-- ==== Sys2Proof/Machine/Operands.lean ====
section
/-! DEFINITION. Operand forms: messages and images as lists of bytes, the check words the spec gives by polynomial, and
rounding. -/
namespace Sys2Proof.Machine

/-- Byte `i` of a message, 0 beyond its end. -/
def byteAt (b : List Byte) (i : Nat) : Nat := (b.getD i 0).toNat

/-- A little-endian number of `n` bytes from offset `i` (R116). -/
def leNat (b : List Byte) (i : Nat) : Nat → Nat
  | 0 => 0
  | n + 1 => byteAt b i + 256 * leNat b (i + 1) n

/-- A big-endian number of `n` bytes from offset `i`. -/
def beNat (b : List Byte) (i : Nat) : Nat → Nat
  | 0 => 0
  | n + 1 => byteAt b i * 256 ^ n + beNat b (i + 1) n

/-- `n` little-endian bytes of a number. -/
def toLe : Nat → Nat → List Byte
  | 0, _ => []
  | n + 1, v => BitVec.ofNat 8 v :: toLe n (v / 256)

/-- `n` big-endian bytes of a number. -/
def toBe (n v : Nat) : List Byte := (toLe n v).reverse

/-- `k` steps of a reflected CRC register. -/
def crcBitsR (poly : Nat) : Nat → Nat → Nat
  | 0, r => r
  | k + 1, r => crcBitsR poly k (if r % 2 = 1 then (r / 2) ^^^ poly else r / 2)

/-- CRC-32C (R118): reflected polynomial 0x82F6_3B78, initial value and final XOR 0xFFFF_FFFF. -/
def crc32c (b : List Byte) : Nat :=
  (b.foldl (fun r x => crcBitsR 0x82F63B78 8 (r ^^^ x.toNat)) 0xFFFFFFFF) ^^^ 0xFFFFFFFF

/-- `k` steps of a CRC register of `w` bits that shifts left. -/
def crcBitsL (w poly : Nat) : Nat → Nat → Nat
  | 0, r => r
  | k + 1, r => crcBitsL w poly k (if r / 2 ^ (w - 1) % 2 = 1 then (r * 2 % 2 ^ w) ^^^ poly else r * 2 % 2 ^ w)

/-- A CRC of `w` bits, most significant bit first, from an initial value. -/
def crcL (w poly init : Nat) (b : List Byte) : Nat :=
  b.foldl (fun r x => crcBitsL w poly 8 (r ^^^ (x.toNat * 2 ^ (w - 8)))) init

/-- Rounds a signed fraction to the nearest whole number, halves up. -/
def roundDivI (n : Int) (d : Nat) : Int := if d = 0 then 0 else (2 * n + d) / (2 * (d : Int))

/-- Rounds a signed fraction to the nearest whole number, halves to even. -/
def roundEven (n : Int) (d : Nat) : Int :=
  if d = 0 then 0
  else
    let q := n / (d : Int)
    let r := 2 * (n % (d : Int))
    if r < d then q else if r = d ∧ q % 2 = 0 then q else q + 1

/-- Limits a number to a range. -/
def clampI (lo hi v : Int) : Int := if v < lo then lo else if hi < v then hi else v

/-- The least element by a measure, the first of equals. -/
def leastBy {α : Type} (m : α → Nat) : List α → Option α
  | [] => none
  | a :: t => match leastBy m t with
    | none => some a
    | some b => if m b < m a then some b else some a

end Sys2Proof.Machine
end

