-- ==== Sys2Proof/Machine/Fabric.lean ====
section
/-! DEFINITION. The register fabric (02_register_fabric.md): events, locks, master resets, mailboxes, crossings, MSI-X.
The operations are written once here; REGISTER_WRITE, SPI and the boot reach them through Machine/Bus.lean. -/
namespace Sys2Proof.Machine

/-- R54: a write of EVT_FORCE sets the sticky bits as if the events had occurred; EVT_RAW does not change. -/
def evtForce (m : Master) (p bits : Nat) (s : State) : State :=
  s.goWrite m (p * 0x1000 + 0x1C) true fun s =>
    State.msiRise s p (s.setF (F.EVT_STICKY p) (s.g (F.EVT_STICKY p) ||| bits))

/-- EVT_FORCE -/
def execEvtForce (m : Master) (p : Fin 256) (bits : Word) (s : State) : Host.Outcome State Fault Refusal :=
  .next (evtForce m p.val bits.toNat s)

/-! ## Accesses of one fabric cycle (R65, R66, R76) -/

/-- R65: the fixed priority of the masters, highest first: 0 is served first. -/
def priority : Master → Nat
  | .enclave => 0 | .hamper => 1 | .mgmt => 2 | .pcie => 3 | .spi => 4

/-- R66: an access takes its place among accesses already in order: behind those of a priority as high or higher. -/
def placeAccess {α : Type} (x : Master × α) : List (Master × α) → List (Master × α)
  | [] => [x]
  | y :: l => if priority x.1 < priority y.1 then x :: y :: l else y :: placeAccess x l

/-- R66: the accesses that reach the fabric in one cycle, in the order in which they are applied: by priority, those of one master in
issue order. -/
def inPriority {α : Type} (l : List (Master × α)) : List (Master × α) := l.foldl (fun a x => placeAccess x a) []

/-- R66: the commands that masters issue in one fabric cycle join the queue. -/
def State.issue (l : List (Master × Instr)) (s : State) : State :=
  { s with pending := s.pending ++ (inPriority l).map Prod.snd }

/-! ## Locks -/

/-- R67: the effect of a read of a lock register, and what it returns. -/
def lockRead (m : Master) (l : LockId) (s : State) : Nat × State :=
  let s := s.access m
  let w := s.g (ownerField l)
  if w = 0 then (0, s.setF (ownerField l) (mcode m)) else (0x80000000 + w, s)

/-- R67: the effect of a write to a lock register. -/
def lockWrite (m : Master) (l : LockId) (value : Nat) (s : State) : State :=
  let s := s.access m
  let w := s.g (ownerField l)
  if w = 0 then s.lockErr (mcode m) l
  else if w = mcode m ∧ value % 16 = mcode m then s.setF (ownerField l) 0
  else State.evt (lockPage l) 27 (s.lockErr (mcode m) l)

/-- LOCK_ACQUIRE -/
def execLockAcquire (m : Master) (l : LockId) (s : State) : Host.Outcome State Fault Refusal :=
  if !s.reaches m (lockPage l) then .next { s with fab := { s.fab with readData := 0xFFFFFFFF } }
  else if !definedPage (lockPage l) then .next { s with fab := { s.fab with readData := 0 } }
  else
    let (d, s) := lockRead m l s
    .next { s with fab := { s.fab with readData := d } }

/-- LOCK_RELEASE -/
def execLockRelease (m : Master) (l : LockId) (value : Word) (s : State) : Host.Outcome State Fault Refusal :=
  if !s.reaches m (lockPage l) then .next s
  else if !definedPage (lockPage l) then .next (s.refuse (mcode m) .unmapped (lockPage l * 0x1000 + 0x24))
  else .next (lockWrite m l value.toNat s)

/-- R69: one lock is released if the master holds it, and the orphan is counted. -/
def orphan (m : Nat) (f : Field) (s : State) : State :=
  if s.g f = m then ((s.setF f 0).bump F.LOCK_ORPHAN_count 1).setF F.LOCK_ORPHAN_last_master m else s

/-! ## A set in force (R58) -/

/-- R58: a commit domain's set is in force: commit_seq counts; the flags clear and commit_done rises on the page whose COMMIT was last
written (DESIGN CHOICE: the spec does not say which page of a domain). -/
def commitTaken (d : Nat) (s : State) : State :=
  let s := s.incWrap (F.COMMIT_seq d) 1
  let s := (s.setB (F.PAGE_STAT_commit_pending d) false).setB (F.PAGE_STAT_commit_armed d) false
  State.datapath (State.evt (Tbl.get d s.fab.commitPage d) 31 (s.setB (F.PAGE_STAT_commit_err d) false)) 1179 1

/-! ## Mailboxes -/

/-- R70: the endpoints, HOST 0, MGMT 1, ENC 2, HMP 3. -/
def endpoint : Master → Nat
  | .pcie => 0 | .spi => 0 | .mgmt => 1 | .enclave => 2 | .hamper => 3

/-- R70: sender and receiver of each direction. -/
def mbxEnds : Nat → Nat × Nat
  | 0 => (0, 1) | 1 => (1, 0) | 2 => (0, 2) | 3 => (2, 0) | 4 => (0, 3) | 5 => (3, 0)
  | 6 => (1, 2) | 7 => (2, 1) | 8 => (1, 3) | 9 => (3, 1) | 10 => (2, 3) | _ => (3, 2)

/-- The words queued in direction `n`, oldest first. -/
def State.mbxQ (s : State) (n : Nat) : List MbxWord := Tbl.get [] s.fab.mbx n

/-- R77: an endpoint other than HOST has internal interrupt inputs of its own; one takes a value. -/
def irqInput (e bit : Nat) (f : Nat → Nat) (s : State) : State :=
  if e = 0 then s
  else
    let k := e * 32 + bit
    { s with fab := { s.fab with irq := Tbl.set 0 s.fab.irq k (f (Tbl.get 0 s.fab.irq k)) } }

/-- R76, R77: RX_PENDING of direction `n` takes a level, on page 0x09 and at its receiver. -/
def rxPending (n : Nat) (b : Bool) (s : State) : State :=
  irqInput (mbxEnds n).2 n (fun _ => b.toNat) (State.level 0x09 n b s)

/-- R76, R77: TX_ATTN of direction `n` rises, on page 0x09 and at its sender. -/
def txAttn (n : Nat) (s : State) : State := irqInput (mbxEnds n).1 (12 + n) (· + 1) (State.evt 0x09 (12 + n) s)

/-- Replaces the queue of direction `n`; RX_PENDING is raw while it is not empty (R76). -/
def setMbxQ (n : Nat) (q : List MbxWord) (s : State) : State :=
  rxPending n (!q.isEmpty) { s with fab := { s.fab with mbx := Tbl.set [] s.fab.mbx n q } }

/-- R74: the oldest word of direction `n` becomes the oldest now; with none queued nothing is timed. -/
def mbxTiming (n : Nat) (s : State) : State :=
  let t := if (s.mbxQ n).isEmpty then 0 else s.now
  { s with fab := { s.fab with mbxSince := Tbl.set 0 s.fab.mbxSince n t } }

/-- R74: marks whether the oldest word's timeout has been set. -/
def setMbxTimed (n : Nat) (b : Bool) (s : State) : State :=
  { s with fab := { s.fab with mbxTimed := Tbl.set false s.fab.mbxTimed n b } }

/-- R75: `k` words of direction `n` are discarded. -/
def mbxDiscard (n k : Nat) (s : State) : State :=
  txAttn n (State.loss (F.MBX_STAT_discard_cnt n) k (s.setB (F.MBX_STAT_discarded n) true))

/-- R71, R73, R75: the sender writes MBX_n_TX. -/
def mbxTx (m : Master) (n value : Nat) (s : State) : State :=
  s.goWrite m (0x9040 + 0x20 * n) true fun s =>
    if endpoint m ≠ (mbxEnds n).1 then s.refuse (mcode m) .denied (0x9040 + 0x20 * n)
    else if s.on (F.MBX_STAT_rx_in_reset n) then mbxDiscard n 1 s
    else if 8 ≤ (s.mbxQ n).length then txAttn n (s.setB (F.MBX_STAT_overrun n) true)
    else
      let first := (s.mbxQ n).isEmpty
      let s := setMbxQ n (s.mbxQ n ++ [{ word := BitVec.ofNat 32 value, writer := mcode m }]) s
      State.datapath (if first then mbxTiming n s else s) (1166 + n) 1

/-- Words written while the queue of direction `n` has room, or its receiver is in reset; answers those left. -/
def replyPump (n : Nat) : List Nat → State → List Nat × State
  | [], s => ([], s)
  | w :: ws, s =>
    if (s.mbxQ n).length < 8 ∨ s.on (F.MBX_STAT_rx_in_reset n) then replyPump n ws (mbxTx .enclave n w s) else (w :: ws, s)

/-- R73, R414: the enclave sends reply words on direction `n`, each as soon as the queue has room for it. -/
def replySend (n : Nat) (ws : List Nat) (s : State) : State :=
  let (rest, s) := replyPump n (Tbl.get [] s.fab.replies n ++ ws) s
  { s with fab := { s.fab with replies := Tbl.set [] s.fab.replies n rest } }

/-- R71, R72, R74: the receiver reads MBX_n_RX; what it returns. -/
def mbxRx (m : Master) (n : Nat) (s : State) : Nat × State :=
  if !s.reaches m 0x09 then (0xFFFFFFFF, s)
  else
    let s := s.access m
    if endpoint m ≠ (mbxEnds n).2 then (0, s.fabErr (mcode m) .denied (0x9044 + 0x20 * n))
    else
      match s.mbxQ n with
      | [] => (0, s)
      | w :: q =>
        let s := mbxTiming n (setMbxTimed n false (setMbxQ n q s))
        let s := if q.isEmpty then txAttn n s else s
        (w.word.toNat, replySend n [] s)

/-- R74: the instant at which the oldest word of direction `n` has waited for timeout_us. -/
def mbxDue (s : State) (n : Nat) : Nat := Tbl.get 0 s.fab.mbxSince n + 1000 * s.g (F.MBX_CFG_timeout_us n)

/-- R74: timeout is set, once for the oldest word. -/
def mbxTimeout (n : Nat) (s : State) : State :=
  if (s.mbxQ n).isEmpty || Tbl.get false s.fab.mbxTimed n then s
  else txAttn n (setMbxTimed n true (s.setB (F.MBX_STAT_timeout n) true))

/-- R71, R74: a new timeout_us (0 is taken as 1, larger values as 1,000,000) applies at once, also to the word that waits. -/
def mbxConfig (n v : Nat) (s : State) : State :=
  let s := s.setF (F.MBX_CFG_timeout_us n) (min 1000000 (max 1 (v % 2 ^ 20)))
  if mbxDue s n < s.now then mbxTimeout n s else s

/-- R75: endpoint `e` enters reset: its inbound queues are emptied. -/
def mbxReset (e : Nat) (s : State) : State :=
  s.forEach (List.range 12) fun n s =>
    if (mbxEnds n).2 = e && !(s.mbxQ n).isEmpty then
      mbxTiming n (setMbxTimed n false (setMbxQ n [] (mbxDiscard n (s.mbxQ n).length s)))
    else s

/-- R75: MBX_HOST_RESET.go resets the HOST endpoint; only the PCIE and SPI masters may write it. -/
def mbxHostReset (m : Master) (s : State) : State :=
  s.goWrite m 0x9200 true fun s =>
    if endpoint m ≠ 0 then s.refuse (mcode m) .denied 0x9200 else replySend 3 [] (mbxReset 0 s)

/-- MBX_TX -/
def execMbxTx (m : Master) (n : Fin 12) (value : Word) (s : State) : Host.Outcome State Fault Refusal :=
  .next (mbxTx m n.val value.toNat s)

/-- MBX_RX -/
def execMbxRx (m : Master) (n : Fin 12) (s : State) : Host.Outcome State Fault Refusal :=
  let (d, s) := mbxRx m n.val s
  .next { s with fab := { s.fab with readData := d } }

/-- MBX_TIMEOUT. R74: the oldest word has waited for timeout_us. -/
def execMbxTimeout (n : Fin 12) (s : State) : Host.Outcome State Fault Refusal :=
  .next (if (s.mbxQ n.val).isEmpty then s else mbxTimeout n.val (s.reach (mbxDue s n.val)))

/-- MBX_HOST_RESET -/
def execMbxHostReset (m : Master) (s : State) : Host.Outcome State Fault Refusal := .next (mbxHostReset m s)

/-- R69, R75, R87: a master reset: every lock the master holds is released and counted; its endpoint's inbound queues
are emptied (the SPI master's reset is none of the HOST endpoint, R75); `stays` says that the receiver remains in reset.
A PCIe reset clears the function's MSI-X enable and unmasking and leaves it in D0 (R88). -/
def masterReset (m : Master) (stays : Bool) (s : State) : State :=
  let s := s.forEach ((List.range 64).map F.LOCKN_owner ++ (List.range 256).map F.LOCK_owner) (orphan (mcode m))
  if m = .spi then s
  else
    let s := (mbxReset (endpoint m) s).forEach ((List.range 12).filter fun n => (mbxEnds n).2 == endpoint m)
      fun n s => s.setB (F.MBX_STAT_rx_in_reset n) stays
    let s := if m = .enclave then { s with fab := { s.fab with replies := [] } } else replySend 7 [] (replySend 3 [] s)
    if m = .pcie then
      { s with ev := { s.ev with
          linkUp := !stays, msiEnabled := false, funcUnmasked := false, msiUnmasked := [], d3hot := false } }
    else s

/-- MASTER_RESET -/
def execMasterReset (m : Master) (stays : Bool) (s : State) : Host.Outcome State Fault Refusal :=
  .next (masterReset m stays s)

/-! ## Crossings -/

/-- Sets bit `d` of a LO/HI register pair of page 0x0A. -/
def setDomBit (lo hi : Field) (d : Nat) (s : State) : State :=
  if d < 32 then s.setF lo (s.g lo ||| 2 ^ d) else s.setF hi (s.g hi ||| 2 ^ (d - 32))

/-- The key of a crossing's pending pulse count. -/
def pulseKey (dom p : Nat) (counter : Option (Fin 512)) : Nat :=
  (dom * 256 + p) * 1024 + match counter with | none => 0 | some n => n.val + 1

/-- PULSE_SAT. R81: the pending count saturates at 65,535 and waits for the next request; pulse_sat on the destination's page and the
domain's bit in XS_PULSE_SAT; R532: a counter fed by the crossing is marked a lower bound. -/
def execPulseSat (dom : Fin 64) (p : Fin 256) (counter : Option (Fin 512)) (s : State) :
    Host.Outcome State Fault Refusal :=
  let s := { s with fab := { s.fab with pulses := Tbl.set 0 s.fab.pulses (pulseKey dom.val p.val counter) 65535 } }
  let s := State.evt p.val 29 (setDomBit F.XS_PULSE_SAT_LO_bits F.XS_PULSE_SAT_HI_bits dom.val s)
  match counter with
  | none => .next s
  | some n => .next (State.evt 0xF8 3 (s.setB (F.CNT_SEL_sat n.val) true))

/-- R82: a FIFO between domains `a` and `b` resynchronises; the words in flight are dropped and counted. -/
def fifoResync (a b pa pb dropped : Nat) (s : State) : State :=
  let s := setDomBit F.XS_RESYNC_LO_bits F.XS_RESYNC_HI_bits a s
  let s := setDomBit F.XS_RESYNC_LO_bits F.XS_RESYNC_HI_bits b s
  State.evt pb 28 (State.evt pa 28 (State.loss F.XS_DROP_CNT_count dropped s))

/-! ## MSI-X -/

/-- R87: a write of a vector number to DEV_VEC_EOI: the vector sends again while its summary is 1. -/
def vecEoi (m : Master) (v : Nat) (s : State) : State :=
  s.goWrite m 0x1080 true fun s => if s.vecSummary v then s.msiSend v else s

/-- VEC_EOI -/
def execVecEoi (m : Master) (v : Fin 64) (s : State) : Host.Outcome State Fault Refusal := .next (vecEoi m v.val s)

/-- MSIX_PENDING_SEND. R87: the link is up, MSI-X enabled, function and vector unmasked: a pending vector sends one
message if its summary is still 1; its pending bit clears either way. -/
def execMsixPendingSend (v : Fin 64) (s : State) : Host.Outcome State Fault Refusal :=
  let e := { s.ev with linkUp := true, msiEnabled := true, funcUnmasked := true, d3hot := false,
                       msiUnmasked := Tbl.set false s.ev.msiUnmasked v.val true }
  if Tbl.get false e.msiPend v.val then
    let s' := { s with ev := { e with msiPend := Tbl.set false e.msiPend v.val false } }
    .next (if s.vecSummary v.val then s'.msiSend v.val else s')
  else .next { s with ev := e }

end Sys2Proof.Machine
end

