-- ==== Sys2Proof/Machine/Signal.lean ====
section
/-! DEFINITION. The line signal (04_line_transmit.md, 06_point_to_multipoint.md): constellations, pilots, dealing to subcarriers, bands,
curves and ramps, and the order of the transmit stages. Symbols are exact (levels, powers and gains as the spec's own numbers);
filters are carried with their parameters, and what they make of a waveform is not evaluated. -/
namespace Sys2Proof.Machine

/-! ## Symbols -/

/-- A symbol of one polarisation: (i + j q) / √(power ÷ 1,024), raised by `gain` (0.05 dB units), and scaled by ramp factor `ramp`
where it is a ramp symbol (R233). -/
structure Sym where
  i : Int
  q : Int
  power : Nat := 2048
  gain : Int := 0
  ramp : Option Nat := none
  deriving DecidableEq, Repr

/-- No light: a disabled or muted subcarrier, or DARK. -/
def Sym.zero : Sym := { i := 0, q := 0 }

/-- R137: the level of a dimension's amplitude label (first label bit first): 16QAM 0 → 1, 1 → 3; PCS-64QAM 00 → 1, 01 → 3,
11 → 5, 10 → 7; QPSK has none. -/
def ampLevel : List Bool → Int
  | [] => 1
  | [false] => 1
  | [true] => 3
  | false :: false :: _ => 1
  | false :: true :: _ => 3
  | true :: true :: _ => 5
  | true :: false :: _ => 7

/-- R137: sign bit 0 gives the positive level. -/
def signed1 (sign : Bool) (level : Int) : Int := if sign then -level else level

/-- R137: a dimension from its bits, the sign bit first. -/
def dimension : List Bool → Int
  | [] => 1
  | s :: label => signed1 s (ampLevel label)

/-- R137: code-word bits of one polarisation's 2D symbol without shaping: 2, 3 and 4 for QPSK, 8QAM and 16QAM. -/
def bitsPer2D (modulation : Nat) : Nat := match modulation with | 0 => 2 | 1 => 3 | _ => 4

/-- R137, R212: the point of one polarisation: I takes the first half of the bits, Q the second; 8QAM as OpenZR+ lays it out. The
constellation has unit mean power: 2 for QPSK and 10 for 16QAM before scaling. -/
def mapPoint (modulation : Nat) (bits : List Bool) : Sym :=
  match modulation with
  | 0 => { i := dimension (bits.take 1), q := dimension (bits.drop 1), power := 2 * 1024 }
  | 1 =>
    let p := Config.eightQam ((bits.take 3).foldl (fun a b => 2 * a + b.toNat) 0)
    { i := p.1, q := p.2, power := Config.eightQamPower }
  | _ => { i := dimension (bits.take 2), q := dimension ((bits.drop 2).take 2), power := 10 * 1024 }

/-! ## PCS-64QAM (R138) -/

/-- R138: code-word bits that one dimension carries in a block of 1,024 amplitudes: 1,024 × H × 0.996 ÷ 2, H in 1/32 units. -/
def pcsBlockBits (h : Nat) : Nat := 1024 * h * 996 / 64000

/-- R138: those of them that the matcher takes; the others are sign bits. -/
def matcherBits (h : Nat) : Nat := pcsBlockBits h - 1024

/-- R138: the fixed composition of a block: how many amplitudes of 3, 5 and 7 it holds, the others being 1; none for H = 2.00. -/
def composition (h : Nat) : Nat × Nat × Nat :=
  if h = 64 then (0, 0, 0)
  else
    let c := Config.composition h
    (min 1024 c.1, min (1024 - min 1024 c.1) c.2.1, min (1024 - min 1024 c.1 - min (1024 - min 1024 c.1) c.2.1) c.2.2)

/-- The amplitudes of a block in rising order. -/
def amplitudes (h : Nat) : List Int :=
  let (c3, c5, c7) := composition h
  List.replicate (1024 - c3 - c5 - c7) 1 ++ List.replicate c3 3 ++ List.replicate c5 5 ++ List.replicate c7 7

/-- Puts an amplitude before the first of a higher key. -/
def placeAmp (x : Nat × Int) : List (Nat × Int) → List (Nat × Int)
  | [] => [x]
  | y :: l => if x.1 < y.1 then x :: y :: l else y :: placeAmp x l

/-- R138: the entropy-targeting matcher: uniform code-word bits choose the order of the block's amplitudes. -/
def matched (h : Nat) (bits : List Bool) : List Int :=
  (((Config.matcher h bits).zip (amplitudes h)).foldl (fun l x => placeAmp x l) []).map Prod.snd

/-- R137, R138: mean power × 1,024 of a PCS-64QAM symbol of a composition. -/
def pcsPower (h : Nat) : Nat :=
  let (c3, c5, c7) := composition h
  2 * (1024 + 8 * c3 + 24 * c5 + 48 * c7)

/-- R138: dimension `n` of a shaped block from its code-word bits: the matcher's amplitude with the sign bit that follows the
matcher's bits; a place with no sign bit left (H = 2.00) is positive. -/
def pcsDimension (h : Nat) (bits : List Bool) (n : Nat) : Int :=
  signed1 ((bits.drop (matcherBits h)).getD n false) ((matched h (bits.take (matcherBits h))).getD n 1)

/-! ## Pilots (R139, R140) -/

/-- R140: one step of the PRBS x^n + x^m + 1: stage s[k] is bit k − 1 of the register; the output bit enters s[1]. -/
def prbsStep (n m reg : Nat) : Nat × Nat :=
  let b := (reg / 2 ^ (n - 1) % 2 + reg / 2 ^ (m - 1) % 2) % 2
  (b, (reg * 2 + b) % 2 ^ n)

/-- R140: the first `k` output bits after the seed. -/
def prbsBits (n m : Nat) : Nat → Nat → List Nat
  | 0, _ => []
  | k + 1, reg => let (b, r) := prbsStep n m reg; b :: prbsBits n m k r

/-- The register after `k` steps. -/
def prbsAfter (n m : Nat) : Nat → Nat → Nat
  | 0, reg => reg
  | k + 1, reg => prbsAfter n m k (prbsStep n m reg).2

/-- R140: the seed of the pilots of subcarrier `sc` and polarisation `x`. -/
def pilotSeed (sc x : Nat) : Nat := 0x0100 + 2 * sc + x

/-- R210: a QPSK symbol takes two PRBS bits, I first, bit 0 giving the positive sign. -/
def qpskOf (bits : List Nat) : Sym :=
  { i := signed1 (bits.getD 0 0 == 1) 1, q := signed1 (bits.getD 1 0 == 1) 1 }

/-- R139, R140: pilot `i` of subcarrier `sc` and polarisation `x`: two bits of the PRBS, which restarts after 16,384 pilots; its power
is pilot_boost (0.25 dB units) above the mean symbol power. -/
def pilotSym (sc x i boost : Nat) : Sym :=
  { qpskOf (prbsBits 15 14 2 (prbsAfter 15 14 (2 * (i % 16384)) (pilotSeed sc x))) with gain := 5 * boost }

/-- R139: symbol position `j` carries a pilot. -/
def isPilot (j : Nat) : Bool := j % 32 == 0

/-- R141: the data symbol, counted from 0, that a subcarrier carries at position `j`, which is no pilot: 31 of every 32. -/
def dataIndex (j : Nat) : Nat := 31 * (j / 32) + j % 32 - 1

/-- R139, R212: the position of data symbol `d`. -/
def dataPosition (d : Nat) : Nat := 32 * (d / 31) + d % 31 + 1

/-! ## Subcarriers (R141, R142, R209) -/

/-- The enabled subcarriers below N, in ascending order. -/
def dealt (n en : Nat) : List Nat := (List.range n).filter fun k => en.testBit k

/-- R141: symbol `t` of the post-pilot stream goes to the t-th enabled subcarrier modulo the enabled count; it is that subcarrier's data
symbol t ÷ count. -/
def dealTo (n en t : Nat) : Option (Nat × Nat) :=
  let l := dealt n en
  (l[t % l.length]?).map fun k => (k, t / l.length)

/-- R141, R162: the reverse: the post-pilot symbol at position `j` of subcarrier `k`, none where it is a pilot or k is not enabled. -/
def dealFrom (n en k j : Nat) : Option Nat :=
  let l := dealt n en
  if isPilot j then none else (l.findIdx? (· == k)).map fun r => dataIndex j * l.length + r

/-- R142: the subcarrier spacing Δ in units of Rs; roll-off in 0.005 units. -/
def spacing (n rolloff : Nat) : ℚ := (1 + rolloff / 200) / n

/-- R142: the centre f_k of subcarrier `k` from the carrier, in units of Rs. -/
def centre (n rolloff k : Nat) : ℚ := ((k : ℚ) - ((n : ℚ) - 1) / 2) * spacing n rolloff

/-- R209: the centre of band `j` of a burst of width class 2^w on subcarrier `k`, in units of Rs. -/
def bandCentre (n rolloff k w j : Nat) : ℚ :=
  centre n rolloff k + ((j : ℚ) - ((2 : ℚ) ^ w - 1) / 2) * spacing n rolloff / 2 ^ w

/-- R142: the sample rate Fs in units of Rs. -/
def sampleRate : ℚ := 6 / 5

/-! ## Curves (R143, R149) -/

/-- Linear interpolation between equally spaced points (0.05 dB units) at the place `x` counted in points; the end points beyond. -/
def curveAt (pts : List Int) (x : ℚ) : ℚ :=
  if x ≤ 0 then pts.headD 0
  else
    let k := x.floor.toNat
    let a : ℚ := pts.getD k (pts.getLastD 0)
    let b : ℚ := pts.getD (k + 1) (pts.getLastD 0)
    a + (b - a) * (x - k)

/-- R143: the shaping curve at a frequency in units of Fs: point p lies at (p − 31.5) / 64. -/
def shapeAt (pts : List Int) (f : ℚ) : ℚ := curveAt pts (64 * f + 63 / 2)

/-- R149: the pre-emphasis curve at a frequency in units of Fs: point p lies at p / 62. -/
def preempAt (pts : List Int) (f : ℚ) : ℚ := curveAt pts (62 * f)

/-! ## Ramps (R233) -/

/-- R233: sin²(π(r + 0.5)/32) for r = 0 to 15, in units of 10^-9, to the nearest. -/
def rampTable : List Nat :=
  [2407637, 21529832, 59039368, 113494773, 182803358, 264301632, 354857661, 450991430,
   549008570, 645142339, 735698368, 817196642, 886505227, 940960632, 978470168, 997592363]

/-- R233: the factor of ramp symbol `r` of the ramp-up, and of the ramp-down, which takes the same factors in reverse. -/
def rampFactor (down : Bool) (r : Nat) : Nat := rampTable.getD (if down then 15 - r else r) 0

/-! ## The transmit stages (R128, R129) -/

/-- What a stage does, with the parameters in force. -/
inductive TxStage where
  /-- stages 1 to 5 of the native mode -/
  | matcher (entropy : Nat)
  | mapping (modulation : Nat)
  | pilots (boost : Nat)
  | dealing (n en : Nat) (gains : List Int)
  | subcarriers (taps n rolloff : Nat)
  /-- stages 1 to 5 as the standard of an interoperable line mode sets them (R129) -/
  | standard (lineMode : Nat)
  /-- stages 6 to 11 -/
  | shaping (curve : List Int)
  | laneGain (gains : List Int) (phaseX phaseY : Int)
  | preemphasis (taps : Nat) (curves : List (List Int))
  | skew (taps : Nat) (skews : List Int)
  | quantise (backoff : Nat) (scale : List Int)
  | dac (inUse : List (List Nat))
  deriving DecidableEq, Repr

/-- R128: a stage that has nothing to do passes its input unchanged: a gain of 0 dB, a skew of 0 ps, a flat curve. -/
def TxStage.idle : TxStage → Bool
  | .shaping c => c.all (· == 0)
  | .laneGain g x y => g.all (· == 0) && x == 0 && y == 0
  | .preemphasis _ c => c.all fun l => l.all (· == 0)
  | .skew _ k => k.all (· == 0)
  | _ => false

/-- A waveform on its way: the stages that have acted on it, in their order. -/
structure Wave where
  acted : List TxStage := []
  deriving DecidableEq, Repr

/-- R128: a stage acts on a waveform. -/
def TxStage.act (t : TxStage) (w : Wave) : Wave := if t.idle then w else { w with acted := w.acted ++ [t] }

/-- R128: the stages in their order; none is left out or reordered. -/
def runStages (l : List TxStage) : Wave := l.foldl (fun w t => t.act w) {}

/-- R150: a sample beyond ±127 is set to ±127; the code −128 is never sent. -/
def clipSample (x : Int) : Int := clampI (-127) 127 x

end Sys2Proof.Machine
end

