-- ==== Sys2Proof/Machine/Transmit.lean ====
section
/-! DEFINITION. Line transmit (04_line_transmit.md): rate arithmetic, the checks of the transmit set, the paths of a
change, the stages in force, the spectral mask, converters in use, the envelope output. -/
namespace Sys2Proof.Machine

/-! ## Rates (01_architecture.md) -/

/-- Bits per 2D symbol in 1/32 units: H for PCS-64QAM, 64, 96 and 128 for QPSK, 8QAM and 16QAM (R134). -/
def entropyOf (modulation entropy : Nat) : Nat :=
  match modulation with
  | 0 => 64 | 1 => 96 | 2 => 128 | _ => entropy

/-- The coded rate in units of 0.1 Gb/s as a fraction: Rs × (enabled / N) × 2 × (31/32) × H × m, with the symbol rate in
0.25 GBd units, H in 1/32 units and m = 0.996 for PCS-64QAM, 1 otherwise (01 Rates along the path, R135). -/
def codedRate (baud scCount enabled modulation entropy : Nat) : Nat × Nat :=
  (baud * enabled * entropyOf modulation entropy * (if modulation = 3 then 996 else 1000) * 620,
   2 ^ scCount * 4096 * 1000)

/-- The FEC overhead factor in thousandths: 1.133, 1.176, 1.250. -/
def overhead (fecOh : Nat) : Nat := match fecOh with | 0 => 1133 | 1 => 1176 | _ => 1250

/-- Rounds a fraction to the nearest whole number, halves up. -/
def roundDiv (n d : Nat) : Nat := if d = 0 then 0 else (2 * n + d) / (2 * d)

/-- The coded rate of a fraction in 0.1 Gb/s, rounded to nearest (R134). -/
def codedTenths (r : Nat × Nat) : Nat := roundDiv r.1 r.2
/-- The net rate in 0.1 Gb/s: GLF rate × 65,536 / 66,560, rounded to nearest (R22, R134). -/
def netTenths (fecOh : Nat) (r : Nat × Nat) : Nat := roundDiv (r.1 * 1000 * 65536) (r.2 * overhead fecOh * 66560)

/-- R30: the line mode of a set: 0 native. -/
def lineMode (t : Tbl Nat) (le : Nat) : Nat := look t (F.LE_ROLE_line_mode le)

/-- R262: the symbol rate that a standard sets, in 0.25 GBd units, rounded down: 59.84375 GBd for 400ZR. -/
def standardBaud (t : Tbl Nat) (le : Nat) : Nat :=
  match lineMode t le with
  | 1 => 239
  | 2 => Config.zrpBaud (look t (F.LE_FEC_ILM_zrp_rate le))
  | _ => Config.zr800Baud

/-- R262: the modulation that a standard sets. -/
def standardModulation (t : Tbl Nat) (le : Nat) : Nat :=
  if lineMode t le = 2 then look t (F.LE_FEC_ILM_zrp_rate le) - 1 else 2

/-- R136, R262: the symbol rate of the line in a transmit set: of the plan in the native mode, else of the standard. -/
def txBaud (t : Tbl Nat) (le : Nat) : Nat := if lineMode t le = 0 then look t (F.LE_TX_PLAN_baud le) else standardBaud t le

/-- R136, R262: the modulation of a transmit set. -/
def txModulation (t : Tbl Nat) (le : Nat) : Nat :=
  if lineMode t le = 0 then look t (F.LE_TX_PLAN_modulation le) else standardModulation t le

/-- R130, R262: sc_count of a transmit set: an interoperable line mode runs one carrier, SC0. -/
def txScCount (t : Tbl Nat) (le : Nat) : Nat := if lineMode t le = 0 then look t (F.LE_TX_PLAN_sc_count le) else 0

/-- Subcarriers enabled below N in a transmit set. -/
def txEnabled (t : Tbl Nat) (le : Nat) : Nat := popcount (2 ^ txScCount t le) (look t (F.LE_TX_SC_EN_en le))

/-- The coded rate of a transmit set. -/
def txCoded (t : Tbl Nat) (le : Nat) : Nat × Nat :=
  if lineMode t le = 0 then
    codedRate (look t (F.LE_TX_PLAN_baud le)) (look t (F.LE_TX_PLAN_sc_count le)) (txEnabled t le)
      (look t (F.LE_TX_PLAN_modulation le)) (look t (F.LE_TX_PLAN_entropy le))
  else (Config.standardCoded (lineMode t le) (look t (F.LE_FEC_ILM_zrp_rate le)), 1)

/-- R134, R262: the net rate of a transmit set in 0.1 Gb/s: in an interoperable line mode the line capacity. -/
def txNet (t : Tbl Nat) (le : Nat) : Nat :=
  match lineMode t le with
  | 0 => netTenths (look t (F.LE_TX_PLAN_fec_oh le)) (txCoded t le)
  | 1 => 4000
  | 2 => 1000 * (look t (F.LE_FEC_ILM_zrp_rate le) + 1)
  | _ => 8000

/-- R23: the coded rate is at most the active tiles × 118 Gb/s, and the GLF rate at most 2,450.0 Gb/s. -/
def rateOk (fecOh tiles : Nat) (r : Nat × Nat) : Bool :=
  decide (r.1 ≤ tiles * 1180 * r.2) && decide (r.1 * 1000 ≤ 24500 * overhead fecOh * r.2)

/-! ## The checks of the transmit set (R136, R159) -/

/-- Every gain and offset field within its range (R133, R143, R148 to R150). -/
def txGainsOk (t : Tbl Nat) (le : Nat) : Bool :=
  let within (f : Field) (lo hi : Int) := decide (lo ≤ lookI t f) && decide (lookI t f ≤ hi)
  allBelow 32 (fun k => within (F.LE_TX_SC_GAIN_gain le k) (-120) 120) &&
  allBelow 4 (fun l => within (F.LE_TX_LANE_GAIN_gain le l) (-300) 300 && within (F.LE_TX_LANE_SKEW_skew le l) (-4000) 4000 &&
    allBelow 32 (fun p => within (F.LE_TX_PREEMP_gain le l p) (-120) 400)) &&
  within (F.LE_TX_IQ_PHASE_X_phase le) (-1000) 1000 && within (F.LE_TX_IQ_PHASE_Y_phase le) (-1000) 1000 &&
  decide (60 ≤ look t (F.LE_TX_CLIP_backoff le)) && decide (look t (F.LE_TX_CLIP_backoff le) ≤ 200)

/-- R158: the envelope times are within their ranges. -/
def txEnvTimesOk (t : Tbl Nat) (le : Nat) : Bool :=
  let up := look t (F.LE_TX_ENV_TIME_t_up le)
  let down := look t (F.LE_TX_ENV_TIME_t_down le)
  decide (5 ≤ up) && decide (up ≤ 200) && decide (5 ≤ down) && decide (down ≤ 200) &&
  decide (look t (F.LE_TX_ENV_TIME_t_lead le) ≤ 200) && decide (look t (F.LE_TX_ENV_TIME_t_lag le) ≤ 200)

/-- R159: what ENV_CONFIG rejects. -/
def txEnvOk (t : Tbl Nat) (le : Nat) : Bool :=
  !(look t (F.LE_TX_ENV_CTRL_env_mode le) == 2 && look t (F.LE_ROLE_role le) != 3) &&
  decide (look t (F.LE_TX_ENV_TIME_t_up le) ≤ look t (F.LE_TX_ENV_TIME_t_lead le)) &&
  decide (look t (F.LE_TX_ENV_CTRL_v_off le) < look t (F.LE_TX_ENV_CTRL_v_on le))

/-- R136: the enabled subcarriers below N are not all even and not all odd. -/
def scMixed (n en : Nat) : Bool :=
  (List.range n).any (fun k => en.testBit k && k % 2 == 0) && (List.range n).any (fun k => en.testBit k && k % 2 == 1)

/-- The fields of a reload (R155). -/
def txReloadFields (le : Nat) : List Field :=
  [F.LE_TX_PLAN_fec_oh le, F.LE_TX_PLAN_sc_count le, F.LE_TX_PLAN_modulation le, F.LE_TX_PLAN_baud le,
   F.LE_TX_SHAPE_rolloff le, F.LE_TX_SHAPE_pilot_boost le]

/-- The fields applied at the next frame boundary (R155): stages 6 to 10, subcarrier gains, mask, envelope. -/
def txBoundaryFields (le : Nat) : List Field :=
  (List.range 32).map (F.LE_TX_SC_GAIN_gain le) ++ (List.range 64).map (F.LE_TX_SHAPE_GAIN_gain le) ++
  (List.range 64).map (F.LE_TX_MASK_LIMIT_limits le) ++ (List.range 4).map (F.LE_TX_LANE_GAIN_gain le) ++
  (List.range 4).map (F.LE_TX_LANE_SKEW_skew le) ++
  (List.range 4).flatMap (fun l => (List.range 32).map (F.LE_TX_PREEMP_gain le l)) ++
  [F.LE_TX_MASK_CTRL_persist le, F.LE_TX_MASK_CTRL_action le, F.LE_TX_IQ_PHASE_X_phase le, F.LE_TX_IQ_PHASE_Y_phase le,
   F.LE_TX_CLIP_backoff le, F.LE_TX_ENV_CTRL_env_mode le, F.LE_TX_ENV_CTRL_shape le, F.LE_TX_ENV_CTRL_v_on le,
   F.LE_TX_ENV_CTRL_v_off le, F.LE_TX_ENV_TIME_t_lag le, F.LE_TX_ENV_TIME_t_lead le, F.LE_TX_ENV_TIME_t_down le,
   F.LE_TX_ENV_TIME_t_up le]

/-- Whether two contents differ in some of the fields. -/
def differ (a b : Tbl Nat) (fs : List Field) : Bool := fs.any fun f => look a f != look b f

/-- R136, R155: the change from set `a` to `b` takes the reload path; an interoperable line mode does not apply plan and shape. -/
def txReload (a b : Tbl Nat) (le : Nat) : Bool :=
  (lineMode b le == 0 && differ a b (txReloadFields le)) ||
  (differ a b [F.LE_TX_SC_EN_en le] && !(look b (F.LE_ROLE_role le) == 2 || look b (F.LE_ROLE_role le) == 3)) ||
  (lineMode b le == 0 && differ a b [F.LE_TX_PLAN_entropy le] && look b (F.LE_TX_SHAPE_timed_change le) == 0)

/-- R155: the change is a timed change of the entropy alone. -/
def txTimed (a b : Tbl Nat) (le : Nat) : Bool :=
  lineMode b le == 0 && look b (F.LE_TX_SHAPE_timed_change le) == 1 && differ a b [F.LE_TX_PLAN_entropy le]

/-- R155: timed_change is 1 on a change that is not of the entropy alone in role P2P or HUB; in an interoperable line mode the field is
not checked (R136). -/
def txTimedBad (a b : Tbl Nat) (le : Nat) : Bool :=
  lineMode b le == 0 && look b (F.LE_TX_SHAPE_timed_change le) == 1 &&
  (differ a b (txReloadFields le ++ [F.LE_TX_SC_EN_en le] ++ txBoundaryFields le) ||
   (differ a b [F.LE_TX_PLAN_entropy le] && !(look b (F.LE_ROLE_role le) == 1 || look b (F.LE_ROLE_role le) == 2)))

/-- R156: PLAN_AT lies 2,048 to 1,048,576 frames ahead, modulo 2^32. -/
def planAtOk (at' fc : Nat) : Bool :=
  let d := (at' + 2 ^ 32 - fc) % 2 ^ 32
  decide (2048 ≤ d) && decide (d ≤ 1048576)

/-- R136, R156, R159: the reason a transmit set is rejected with, 0 when accepted; `inUse` is the set in force, `run`
whether the engine is RUNNING (a timed change waits for a frame). In the interoperable line modes the plan and shape
fields are not checked. -/
def txCheck (inUse t : Tbl Nat) (le tiles baudMax fc : Nat) (run : Bool) : Nat :=
  let native := look t (F.LE_ROLE_line_mode le) == 0
  let role := look t (F.LE_ROLE_role le)
  let n := 2 ^ txScCount t le
  let en := look t (F.LE_TX_SC_EN_en le)
  let baud := look t (F.LE_TX_PLAN_baud le)
  let ent := look t (F.LE_TX_PLAN_entropy le)
  firstFail
    [ (0x01, !native || (decide (120 ≤ baud) && decide (baud ≤ 1120) &&
        (look t (F.LE_TX_PLAN_modulation le) != 3 || (decide (64 ≤ ent) && decide (ent ≤ 184))) &&
        decide (2 ≤ look t (F.LE_TX_SHAPE_rolloff le)) && decide (look t (F.LE_TX_SHAPE_rolloff le) ≤ 30) &&
        decide (look t (F.LE_TX_SHAPE_pilot_boost le) ≤ 12))),
      (0x01, txGainsOk t le && txEnvTimesOk t le && look t (F.LE_TX_MASK_CTRL_persist le) != 0),
      (0x02, !native || (look t (F.LE_TX_PLAN_fec_oh le) != 3 && decide (look t (F.LE_TX_PLAN_sc_count le) ≤ 5) &&
        decide (look t (F.LE_TX_PLAN_modulation le) ≤ 3))),
      (0x02, look t (F.LE_TX_MASK_CTRL_action le) != 3 && look t (F.LE_TX_ENV_CTRL_env_mode le) != 3),
      (0x03, !(role == 2 || role == 3) || look t (F.LE_TX_PLAN_sc_count le) == 5),
      (0x03, !(run && txTimedBad inUse t le)),
      (0x05, !native || rateOk (look t (F.LE_TX_PLAN_fec_oh le)) tiles (txCoded t le)),
      (0x0B, !native || decide (baud ≤ baudMax)),
      (0x90, role == 0 || txEnabled t le != 0),
      (0x90, !(look t (F.LE_ROLE_single_fibre le) == 1 && scMixed n en)),
      (0x92, !(run && txTimed inUse t le) || planAtOk (look t (F.LE_TX_PLAN_AT_frame le)) fc),
      (0x93, txEnvOk t le) ]

/-- R134, R136: the plan status and rates report the set in force, or the values that the standard sets; sc_enabled counts the
subcarriers that transmit: none unless the engine is RUNNING. -/
def txReport (le : Nat) (s : State) : State :=
  let t := s.inForce
  let s := s.setF (F.LE_TX_PLAN_STAT_sc_enabled le) (if s.runState le = 2 then txEnabled t le else 0)
  let s := s.setF (F.LE_TX_PLAN_STAT_entropy_active le) (entropyOf (txModulation t le) (look t (F.LE_TX_PLAN_entropy le)))
  let s := s.setF (F.LE_TX_PLAN_STAT_modulation_active le) (txModulation t le)
  let s := s.setF (F.LE_TX_PLAN_STAT_baud_active le) (txBaud t le)
  let s := s.setF (F.LE_TX_CODED_RATE_rate le) (codedTenths (txCoded t le))
  s.setF (F.LE_TX_NET_RATE_rate le) (txNet t le)

/-! ## Converter units (R503, R506) -/

/-- A unit at WAKE: the first positions are ACTIVE, the spares IDLE (R503, R505). -/
def unitAtWake (dac : Bool) (pos : Nat) : RepUnit := { st := if pos < (if dac then 32 else 64) then 3 else 0 }

/-- The key of a converter's units ÷ 128. -/
def convKey (le : Nat) (dac : Bool) (lane : Nat) : Nat := (le * 2 + dac.toNat) * 4 + lane

/-- Unit `pos` of a converter. -/
def repUnit (s : State) (le : Nat) (dac : Bool) (lane pos : Nat) : RepUnit :=
  Tbl.get (unitAtWake dac pos) s.rep.units (convKey le dac lane * 128 + pos)

/-- R500: a swap boundary: the converters of a kind take their working values; the lane settings stand with the sub-DACs. -/
def trimsTake (le : Nat) (dac : Bool) (s : State) : State :=
  { s with rep := { s.rep with applied := Tbl.overlay (fun k => k / 512 == convKey le dac 0 / 4) s.rep.work s.rep.applied } }

/-- Positions of a converter. -/
def convSize (dac : Bool) : Nat := if dac then 34 else 68

/-- The positions of a converter whose unit meets `p`. -/
def unitsWhere (s : State) (le : Nat) (dac : Bool) (lane : Nat) (p : RepUnit → Bool) : List Nat :=
  (List.range (convSize dac)).filter fun pos => p (repUnit s le dac lane pos)

/-- R153, R176: working units of the converter that has fewest. -/
def convWorking (s : State) (le : Nat) (dac : Bool) : Nat :=
  (List.range 4).foldl (fun a l => min a (unitsWhere s le dac l fun u => u.st == 3 && !u.lost).length) 64

/-- R153: the symbol-rate limit: 8.75 GBd × the sub-DACs of the DAC with fewest, in 0.25 GBd steps. -/
def txBaudMax (le : Nat) (s : State) : State :=
  let v := min 1120 (35 * convWorking s le true)
  let old := s.g (F.LE_TX_BAUD_MAX_baud le)
  let s := s.setF (F.LE_TX_BAUD_MAX_baud le) v
  let active := s.g (F.LE_TX_PLAN_STAT_baud_active le)
  if active ≤ old ∧ v < active then State.evt (lep le 0x14) 2 s else s

/-! ## The spectral mask -/

/-- R145: the limit code of a bin. -/
def maskLimit (s : State) (le bin : Nat) : Nat :=
  s.cur (F.LE_TX_MASK_LIMIT_limits le (bin / 4)) / 2 ^ (8 * (bin % 4)) % 256

/-- R144, R145: how far a bin lies above its limit, in 0.25 dB units: 0 when it does not exceed. -/
def maskExcess (s : State) (le bin : Nat) (rel : Int) : Nat :=
  if maskLimit s le bin = 0xFF then 0 else (rel + maskLimit s le bin).toNat

/-- R142, R147: the centre of a bin lies in the band f_k ± Δ/2 of subcarrier k (scaled by Rs). -/
def binInBand (n rolloff k bin : Nat) : Bool :=
  let c := (2 * (bin : Int) - 255) * 480 * n
  let f := (2 * (k : Int) - n + 1) * (200 + rolloff) * 512
  decide ((c - f).natAbs ≤ (200 + rolloff) * 512)

/-- R144: a bin is in band: its centre lies within (Rs/N)(1 − β)/2 of the centre of an enabled subcarrier (scaled by Rs). -/
def binIn (n rolloff en bin : Nat) : Bool :=
  (dealt n en).any fun k =>
    decide (((2 * (bin : Int) - 255) * 480 * n - (2 * (k : Int) - n + 1) * (200 + rolloff) * 512).natAbs ≤ (200 - rolloff) * 512)

/-- The subcarriers whose band holds one of the bins, as a mask over those enabled. -/
def mutedBy (s : State) (le : Nat) (bins : List Nat) : Nat :=
  let n := 2 ^ txScCount s.inForce le
  (List.range n).foldl (fun m k =>
    if (s.cur (F.LE_TX_SC_EN_en le)).testBit k && bins.any (binInBand n (s.cur (F.LE_TX_SHAPE_rolloff le)) k)
    then m ||| 2 ^ k else m) 0

/-- R144 to R147: a 1 ms measurement (the PSD of bins relative to the in-band mean, in 0.25 dB; bins not listed do not
exceed) is evaluated; under MUTE the subcarriers whose band holds a violating bin are to be muted at the next frame boundary.
DESIGN CHOICE (log 194): of bins with the same largest excess the first listed is worst_bin; with action OFF nothing is evaluated
and a violation declared before stays. -/
def maskMeasure (le : Nat) (psd : List (Fin 256 × Int)) (s : State) : State :=
  if s.cur (F.LE_TX_MASK_CTRL_action le) = 0 then s
  else
    let ex := (psd.map fun e => (e.1.val, maskExcess s le e.1.val e.2)).filter fun e => e.2 != 0
    let runs : Tbl Nat := ex.foldl (fun t e => Tbl.set 0 t e.1 (Tbl.get 0 (s.eng le).tx.maskRun e.1 + 1)) []
    let clean := if ex.isEmpty then (s.eng le).tx.maskClean + 1 else 0
    let persist := s.cur (F.LE_TX_MASK_CTRL_persist le)
    let viol := (runs.filter fun e => persist ≤ e.2).map (·.1)
    let worst := ex.foldl (fun a e => if a.2 < e.2 then e else a) (0, 0)
    let declared := !viol.isEmpty || (s.on (F.LE_TX_MASK_STAT_violation le) && decide (clean < persist))
    let s := s.modTx le fun t => { t with maskRun := runs, maskClean := clean }
    let s := (s.setF (F.LE_TX_MASK_STAT_worst_bin le) worst.1).setF (F.LE_TX_MASK_STAT_worst_excess le) (min worst.2 511)
    let s := (s.setF (F.LE_TX_MASK_STAT_bins_over le) ex.length).setB (F.LE_TX_MASK_STAT_violation le) declared
    let s := State.level (lep le 0x15) 0 declared s
    let s := if declared then s.bump (F.LE_TX_MASK_VIOL_CNT_count le) 1 else s
    let mute := if s.cur (F.LE_TX_MASK_CTRL_action le) = 2 then mutedBy s le viol else 0
    s.modTx le fun t => { t with muteDue := t.muteDue ||| mute }

/-- R147: at a frame boundary the subcarriers to be muted are muted, and those that host software has freed send again. -/
def maskBoundary (le : Nat) (s : State) : State :=
  let due := (s.eng le).tx.muteDue
  let old := s.g (F.LE_TX_MASK_MUTED_muted le)
  let s := if due ||| old = old then s
    else State.evt (lep le 0x15) 1
      ((s.setF (F.LE_TX_MASK_MUTED_muted le) (old ||| due)).setB (F.LE_TX_MASK_STAT_muted le) true)
  s.modTx le fun t => { t with muteDue := 0, silent := old ||| due }

/-- R148, R150: in each 1 ms of a live output, samples of each lane clip at stage 10 and are counted, and the lane's rms level asks
for a scale; how many, and which, the signal decides: free values. -/
def clipTake (le : Nat) (s : State) : State :=
  s.forEach (List.range 4) fun l s =>
    if (s.eng le).tx.live then
      let n := Config.overloads s.drawn
      let (a, s) := { s with drawn := s.drawn + 1 }.draw 12
      let s := s.modTx le fun t => { t with scaleTo := Tbl.set 0 t.scaleTo l (signed 12 a) }
      State.level (lep le 0x16) l (decide (0 < n)) (s.bump (F.LE_TX_CLIP_CNT_count le l) n)
    else State.level (lep le 0x16) l false s

/-- R150: at a frame boundary the scale of each lane moves toward what its level asks for, by at most 0.05 dB. -/
def scaleBoundary (le : Nat) (s : State) : State :=
  s.modTx le fun t => { t with scale := (List.range 4).foldl (fun x l =>
    Tbl.set 0 x l (Tbl.get 0 x l + clampI (-1) 1 (Tbl.get 0 t.scaleTo l - Tbl.get 0 x l))) t.scale }

/-- MASK_MEASUREMENT. R53: with page 0x15 held idle nothing is evaluated. -/
def execMaskMeasurement (le : Fin 2) (psd : List (Fin 256 × Int)) (s : State) : Host.Outcome State Fault Refusal :=
  .next (if s.runState le.val = 2 then
      clipTake le.val (if s.pageOn (lep le.val 0x15) then maskMeasure le.val psd s else s)
    else s)

/-- R147: host software writes 1 to bits of LEn_TX_MASK_MUTED: those subcarriers are unmuted (they send again from the next frame
boundary) and checked again. The register is W1C, so no page LOCK refuses it (R68). -/
def maskUnmute (m : Master) (le bits : Nat) (s : State) : State :=
  let p := lep le 0x15
  if !s.reaches m p then s
  else if !s.domainUp p then (s.access m).refuse (mcode m) .domainDown (p * 0x1000 + 0x48)
  else
    let s := s.access m
    let old := s.g (F.LE_TX_MASK_MUTED_muted le)
    let left := old &&& (bits ^^^ 0xFFFFFFFF)
    let n := 2 ^ txScCount s.inForce le
    let freed := (List.range 32).filter fun k => (old &&& bits).testBit k
    let s := s.modTx le fun t => { t with maskRun := t.maskRun.filter (fun e =>
      !freed.any (fun k => binInBand n (s.cur (F.LE_TX_SHAPE_rolloff le)) k e.1)) }
    (s.setF (F.LE_TX_MASK_MUTED_muted le) left).setB (F.LE_TX_MASK_STAT_muted le) (left != 0)

/-- MASK_UNMUTE -/
def execMaskUnmute (m : Master) (le : Fin 2) (bits : Word) (s : State) : Host.Outcome State Fault Refusal :=
  .next (maskUnmute m le.val bits.toNat s)

/-! ## The signal in force (R128 to R150) -/

/-- R128, R129: the stages of the transmit DSP with the set in force, in their order. -/
def txStages (s : State) (le : Nat) : List TxStage :=
  let t := s.inForce
  let n := 2 ^ txScCount t le
  let gains (k : Nat) := (List.range k).map fun i => lookI t (F.LE_TX_SC_GAIN_gain le i)
  (if lineMode t le = 0 then
    (if look t (F.LE_TX_PLAN_modulation le) = 3 then [TxStage.matcher (look t (F.LE_TX_PLAN_entropy le))] else []) ++
    [.mapping (look t (F.LE_TX_PLAN_modulation le)), .pilots (look t (F.LE_TX_SHAPE_pilot_boost le)),
     .dealing n (look t (F.LE_TX_SC_EN_en le)) (gains 32), .subcarriers 129 n (look t (F.LE_TX_SHAPE_rolloff le))]
   else [.standard (lineMode t le)]) ++
  [.shaping ((List.range 64).map fun p => lookI t (F.LE_TX_SHAPE_GAIN_gain le p)),
   .laneGain ((List.range 4).map fun l => lookI t (F.LE_TX_LANE_GAIN_gain le l)) (lookI t (F.LE_TX_IQ_PHASE_X_phase le))
     (lookI t (F.LE_TX_IQ_PHASE_Y_phase le)),
   .preemphasis 96 ((List.range 4).map fun l => (List.range 32).map fun p => lookI t (F.LE_TX_PREEMP_gain le l p)),
   .skew 32 ((List.range 4).map fun l => lookI t (F.LE_TX_LANE_SKEW_skew le l)),
   .quantise (look t (F.LE_TX_CLIP_backoff le)) ((List.range 4).map fun l => Tbl.get 0 (s.eng le).tx.scale l),
   .dac ((List.range 4).map fun l => unitsWhere s le true l fun u => u.st == 3 && !u.lost)]

/-- R128, R154: the waveform of a live output; none while it is DARK. -/
def txWave (s : State) (le : Nat) : Option Wave := if (s.eng le).tx.live then some (runStages (txStages s le)) else none

/-- R243, R244: the code words of stream `q` since the output left DARK, newest first. -/
def streamWords (s : State) (le q : Nat) : List (Nat × Nat) :=
  (((s.eng le).tx.hist.takeWhile fun r => match r with | .dark _ => false | _ => true).filterMap fun r => match r with
    | .word p b n _ => if p = q then some (b, n) else none
    | .dark _ => none)

/-- R243: bit `i` of stream `q` since the output left DARK, bit 0 of each code word first. -/
def codeBit (s : State) (le q i : Nat) : Bool :=
  ((streamWords s le q).reverse.foldl (fun (a : Nat × Bool) e =>
    if a.1 ≤ i ∧ i < a.1 + e.2 then (a.1 + e.2, e.1.testBit (i - a.1)) else (a.1 + e.2, a.2)) (0, false)).2

/-- R137, R138, R212: post-pilot symbol `t` of stream `q` in polarisation `x` (0 X, 1 Y): bits in the order I of X, Q of X, I of Y,
Q of Y; of PCS-64QAM each block of 1,024 symbols takes its four dimensions in that order. -/
def dataSym (s : State) (le q x t : Nat) : Sym :=
  let m := s.cur (F.LE_TX_PLAN_modulation le)
  if m = 3 then
    let h := s.cur (F.LE_TX_PLAN_entropy le)
    let b := pcsBlockBits h
    let dim (d : Nat) := pcsDimension h ((List.range b).map fun i => codeBit s le q ((t / 1024 * 4 + d) * b + i)) (t % 1024)
    { i := dim (2 * x), q := dim (2 * x + 1), power := pcsPower h }
  else
    let b := bitsPer2D m
    mapPoint m ((List.range b).map fun i => codeBit s le q (b * (2 * t + x) + i))

/-- R139 to R141, R147, R202: the symbol of subcarrier `k` and polarisation `x` at position `j` since the output left DARK: zero where
the subcarrier is not enabled, lies at or above N or is muted; a pilot at every 32nd position; else the symbol dealt to it. In HUB
and LEAF each subcarrier carries a stream of its own. -/
def lineSym (s : State) (le k x j : Nat) : Sym :=
  let n := 2 ^ txScCount s.inForce le
  let en := s.cur (F.LE_TX_SC_EN_en le)
  let g := lookI s.inForce (F.LE_TX_SC_GAIN_gain le k)
  if !(dealt n en).contains k || (s.eng le).tx.silent.testBit k then Sym.zero
  else if isPilot j then
    let p := pilotSym k x (j / 32) (s.cur (F.LE_TX_SHAPE_pilot_boost le))
    { p with gain := p.gain + g }
  else
    let own := s.role le == 2 || s.role le == 3
    let t := if own then dataIndex j else (dealFrom n en k j).getD 0
    { dataSym s le (if own then k else 0) x t with gain := g }

/-! ## The transmit-symbol history (R180) -/

/-- R180: entries of the history: 6 MiB of 32-bit entries. -/
def histSize : Nat := 1572864

/-- R180: the entries that a run fills: one for each symbol of each enabled transmit subcarrier, pilots included. -/
def runEntries (t : Tbl Nat) (le : Nat) : HistRun → Nat
  | .dark n => n
  | .word _ _ len _ =>
    let h := entropyOf (look t (F.LE_TX_PLAN_modulation le)) (look t (F.LE_TX_PLAN_entropy le))
    len * 32 * 32 / (2 * h * 31)

/-- R180: the history keeps the newest entries. -/
def histTrim (t : Tbl Nat) (le : Nat) : Nat → List HistRun → List HistRun
  | _, [] => []
  | left, r :: l => if left = 0 then [] else r :: histTrim t le (left - runEntries t le r) l

/-- R180: stage 5 takes a code word of stream `q`. -/
def histWord (le q bits len : Nat) (s : State) : State :=
  s.modTx le fun x => { x with
    hist := histTrim s.inForce le histSize (.word q bits len x.silent :: x.hist)
    words := Tbl.set 0 x.words q (Tbl.get 0 x.words q + 1) }

/-- R180: what the history holds of an entry: the symbols of X and Y as stage 5 took them, zero during DARK and on muted subcarriers.
The filter of stage 5 and its rounding to 8 bits are those of the stage. -/
def histEntry (s : State) (le k j : Nat) : Sym × Sym :=
  if (s.eng le).tx.live then (lineSym s le k 0 j, lineSym s le k 1 j) else (Sym.zero, Sym.zero)

/-! ## The envelope output -/

/-- R160: the course of ENV around a burst from `tb` to `te`: whether it lies above the midpoint of v_off and v_on at an instant; both
shapes pass the midpoint half way through a ramp. `off`: where it went down early (R161). -/
def envOver (t : Tbl Nat) (le tb te : Nat) (off : Option Nat) (now : Nat) : Bool :=
  let up := tb - 10 * look t (F.LE_TX_ENV_TIME_t_lead le)
  let down := match off with
    | some x => x
    | none => te + 10 * look t (F.LE_TX_ENV_TIME_t_lag le)
  decide (2 * up + 10 * look t (F.LE_TX_ENV_TIME_t_up le) < 2 * now) &&
  decide (2 * now < 2 * down + 10 * look t (F.LE_TX_ENV_TIME_t_down le))

/-- R158, R160: the code ENV is driven at, in 1/1,000 of a step, for a linear ramp: v_off before and after, v_on in between. -/
def envCode (t : Tbl Nat) (le tb te now : Nat) : Nat :=
  let off := 1000 * look t (F.LE_TX_ENV_CTRL_v_off le)
  let span := 1000 * look t (F.LE_TX_ENV_CTRL_v_on le) - off
  let up := tb - 10 * look t (F.LE_TX_ENV_TIME_t_lead le)
  let tUp := 10 * look t (F.LE_TX_ENV_TIME_t_up le)
  let down := te + 10 * look t (F.LE_TX_ENV_TIME_t_lag le)
  let tDown := 10 * look t (F.LE_TX_ENV_TIME_t_down le)
  if now ≤ up then off
  else if now < up + tUp then off + span * (now - up) / tUp
  else if now ≤ down then off + span
  else if now < down + tDown then off + span * (down + tDown - now) / tDown
  else off

/-- R158: whether ENV is above the midpoint of v_off and v_on. -/
def envAbove (s : State) (le : Nat) : Bool :=
  match s.cur (F.LE_TX_ENV_CTRL_env_mode le) with
  | 1 => (s.eng le).tx.live
  | 2 => match (s.eng le).tx.env with
    | some (tb, te) => envOver s.inForce le tb te (s.eng le).tx.envOff s.now
    | none => false
  | _ => false

/-- R158 to R161: ENV's level bit follows. -/
def envLevel (le : Nat) (s : State) : State := s.setB (F.LE_TX_ENV_STAT_above le) (envAbove s le)

/-- R161: in RAMP the transmitter becomes disabled or the engine leaves RUNNING before the ramp-down of the burst has begun: ENV goes
down at once, over t_down. -/
def envDrop (le : Nat) (s : State) : State :=
  match (s.eng le).tx.env with
  | some (_, te) =>
    if s.now < te + 10 * s.cur (F.LE_TX_ENV_TIME_t_lag le) ∧ (s.eng le).tx.envOff = none then
      s.modTx le fun t => { t with envOff := some s.now, envEnd := s.now + 10 * s.cur (F.LE_TX_ENV_TIME_t_down le) }
    else s
  | none => s

/-- R139, R141, R154, R180, R244: the transmit output goes live or DARK. Leaving DARK restarts pilot positions, dealing and code
words; the history gets zeros for the time in DARK. -/
def setLive (le : Nat) (b : Bool) (s : State) : State :=
  let was := (s.eng le).tx.live
  let gap := (s.now - (s.eng le).tx.darkSince) * txBaud s.inForce le * txEnabled s.inForce le / (4 * 2 ^ txScCount s.inForce le)
  let s := s.modTx le fun t =>
    if b && !was then { t with live := true, words := [], hist := histTrim s.inForce le histSize (.dark gap :: t.hist) }
    else if !b && was then { t with live := false, darkSince := s.now }
    else { t with live := b }
  envLevel le s

/-- R154: the output is live: RUNNING, no reload, the transmitter enabled over Ubholt, and in LEAF upstream CONTINUOUS with segments arriving (R225); not while
page 0x14 is held idle (R53). -/
def txLive (s : State) (le : Nat) : Bool :=
  s.runState le == 2 && !s.on (F.LE_TX_PLAN_STAT_reload_busy le) && s.on (F.UBH_STAT_tx_enabled le) &&
  (s.role le != 3 || (s.g (F.LE_P2MP_LEAF_STAT_state le) == 6 && !(s.eng le).p2mp.segDark)) && s.pageOn (lep le 0x14)

/-- R154, R161: the output follows what makes it live. -/
def txEval (le : Nat) (s : State) : State :=
  let s := if s.runState le = 2 && s.on (F.UBH_STAT_tx_enabled le) then s else envDrop le s
  setLive le (txLive s le) s

/-- R160, R161: the ramp around a burst from `tb` to `te` (ns) in RAMP mode; a ramp that begins before the last one has
ended is merged and counted. -/
def envBurst (le tb te : Nat) (s : State) : State :=
  if s.cur (F.LE_TX_ENV_CTRL_env_mode le) = 2 then
    let lead := 10 * s.cur (F.LE_TX_ENV_TIME_t_lead le)
    let fin := te + 10 * (s.cur (F.LE_TX_ENV_TIME_t_lag le) + s.cur (F.LE_TX_ENV_TIME_t_down le))
    let merged := decide (tb ≤ (s.eng le).tx.envEnd + lead) && (s.eng le).tx.envEnd != 0
    let first := match (s.eng le).tx.env with
      | some (b, _) => if merged && (s.eng le).tx.envOff.isNone then b else tb
      | none => tb
    let s := s.modTx le fun t => { t with envEnd := fin, env := some (first, te), envOff := none }
    if merged then State.evt (lep le 0x17) 0 (s.bump (F.LE_TX_ENV_MERGE_CNT_count le) 1) else s
  else s

end Sys2Proof.Machine
end

