-- ==== Sys2Proof/Machine/Fec.lean ====
section
/-! DEFINITION. Ngusha FEC (07_ngusha_fec.md): the outer and inner codes, the code-word states of the streams, the
decoder tiles, the thresholds and the quality arithmetic of R196. -/
namespace Sys2Proof.Machine

/-! ## The outer code (R241) -/

/-- The generator of the narrow-sense binary BCH code of length 8,191 that corrects 3 errors, over GF(2^13) with
x^13 + x^4 + x^3 + x + 1: the product of the minimal polynomials of α, α^3 and α^5 (R241). -/
def bchGen : Nat := 0xBAF5B2BDED

/-- R241: one data bit, highest degree first, taken into the remainder of x^39 d(x). -/
def bchStep (r : Nat) (d : Bool) : Nat :=
  let fb := (r / 2 ^ 38 % 2 == 1) != d
  let r := r * 2 % 2 ^ 39
  if fb then r ^^^ (bchGen % 2 ^ 39) else r

/-- R241: the 40 parity bits of an outer word, bit p of the result being parity bit p: BCH parity with the
highest-degree coefficient first, then the overall parity that makes the weight even. -/
def bchParity (data : List Bool) : Nat :=
  let r := data.foldl bchStep 0
  let w := (data.filter id).length + popcount 39 r
  (List.range 39).foldl (fun a p => if r.testBit (38 - p) then a + 2 ^ p else a) (if w % 2 = 1 then 2 ^ 39 else 0)

/-! ## The inner code (R242, R255) -/

/-- R242: M, the base-matrix rows, for each overhead; 12 for the burst code (R255). -/
def ldpcRows (fecOh : Nat) : Nat := match fecOh with | 0 => 123 | 1 => 166 | _ => 240

/-- A row not yet taken, from `r` on modulo M (R242). -/
def freeRow (m : Nat) (taken : List Nat) : Nat → Nat → Nat
  | 0, r => r
  | k + 1, r => if taken.contains r then freeRow m taken k ((r + 1) % m) else r

/-- R242: the rows with an entry in information column `c`. -/
def infoRows (m c : Nat) : List Nat :=
  let wanted := [c % m, (7 * c + 3) % m, (13 * c + 5) % m] ++ (if c % 4 = 0 then [(19 * c + 11) % m] else [])
  wanted.foldl (fun taken r => taken ++ [freeRow m taken 4 r]) []

/-- R242: the shift of information column `c` in row `r`. -/
def infoShift (r c : Nat) : Nat := (r * r + 3 * c + 7 * r * c) % 64

/-- R242: a 64-bit block seen through the identity shifted right by `k`: bit i of the result is bit i + k. -/
def shiftBlock (k : Nat) (b : BitVec 64) : BitVec 64 := b.rotateRight k

/-- Adds a block into one row's sum. -/
def addAt : List (BitVec 64) → Nat → BitVec 64 → List (BitVec 64)
  | [], _, _ => []
  | x :: t, 0, b => (x ^^^ b) :: t
  | x :: t, k + 1, b => x :: addAt t k b

/-- R242: each row's sum of the information columns. -/
def infoSums (m : Nat) (info : List (BitVec 64)) : List (BitVec 64) :=
  (info.zipIdx).foldl (fun acc e =>
    (infoRows m e.2).foldl (fun acc r => addAt acc r (shiftBlock (infoShift r e.2) e.1)) acc) (List.replicate m 0)

/-- The parity blocks after the first: p(r+1) = the row's sum, the first parity block's entry in it, and p(r). -/
def parityChain (m : Nat) (p0 : BitVec 64) : Nat → BitVec 64 → List (BitVec 64) → List (BitVec 64)
  | _, _, [] => []
  | _, _, [_] => []
  | r, prev, x :: t =>
    let e := if r = 0 then shiftBlock 1 p0 else if r = m / 2 then p0 else 0
    let p := x ^^^ e ^^^ prev
    p :: parityChain m p0 (r + 1) p t

/-- R242: the parity columns of the code word. -/
def ldpcParity (m : Nat) (info : List (BitVec 64)) : List (BitVec 64) :=
  let sums := infoSums m info
  let p0 := sums.foldl (fun a b => a ^^^ b) 0
  p0 :: parityChain m p0 0 0 sums

/-- R242: every parity check of the base matrix is satisfied by information and parity blocks. -/
def ldpcSatisfied (m : Nat) (info parity : List (BitVec 64)) : Bool :=
  let p0 := parity.headD 0
  let pk (k : Nat) := parity.getD k 0
  ((infoSums m info).zipIdx).all fun e =>
    let r := e.2
    let first := if r = 0 ∨ r = m - 1 then shiftBlock 1 p0 else if r = m / 2 then p0 else 0
    let before := if r = 0 then 0 else pk r
    let after := if r = m - 1 then 0 else pk (r + 1)
    e.1 ^^^ first ^^^ before ^^^ after == 0

/-- R240, R241: the LDPC information blocks of 64,000 GLF bits: the bits in order, then the parity bits of the 16 outer
words interleaved; GLF bit j is data bit ⌊j/16⌋ of outer word j mod 16. -/
def fecInfo (glf : List (BitVec 64)) : List (BitVec 64) :=
  let bits := glf.flatMap fun b => (List.range 64).map fun i => b.getLsbD i
  let words := (List.range 16).map fun w => bchParity (((bits.zipIdx).filter fun e => e.2 % 16 == w).map (·.1))
  glf ++ (List.range 10).map fun c => BitVec.ofNat 64
    ((List.range 64).foldl (fun a i =>
      let k := 64 * c + i
      if (words.getD (k % 16) 0).testBit (k / 16) then a + 2 ^ i else a) 0)

/-- R243: the code word of a block: information blocks then parity blocks, bit 0 sent first. -/
def fecEncode (fecOh : Nat) (glf : List (BitVec 64)) : List (BitVec 64) × List (BitVec 64) :=
  let info := fecInfo glf
  (info, ldpcParity (ldpcRows fecOh) info)

/-! ## Quality arithmetic (R196) -/

/-- Fixed-point precision: 160 fraction bits. -/
def fxOne : Nat := 2 ^ 160
/-- Product of two fixed-point numbers. -/
def fxMul (a b : Nat) : Nat := a * b / fxOne
/-- `b` to the power `n`, by squaring, with `k` bits of exponent. -/
def fxPow : Nat → Nat → Nat → Nat
  | 0, _, _ => fxOne
  | k + 1, b, n => let h := fxPow k (fxMul b b) (n / 2); if n % 2 = 1 then fxMul b h else h
/-- 10^(1/4000) in fixed point. -/
def fxRoot : Nat := 0x10025BC85A9B712E1482D407CB91BEFA9F06E799A
/-- √(2/π) in fixed point. -/
def fxSqrt2Pi : Nat := 0xCC42299EA1B284687E59E2805D5C717FA7053E61
/-- y = 10^(h/4000) in fixed point: 20 log10 y = h/200 dB, half of a 0.01 dB step for each h. -/
def fxAmp (h : Int) : Nat :=
  if h < 0 then fxOne * fxOne / fxPow 17 fxRoot h.natAbs else fxPow 17 fxRoot h.natAbs
/-- The alternating sum of (-1)^n z^n / (n! (2n + 1)) over `k` terms, as positive and negative parts. -/
def erfSum (z : Nat) : Nat → Nat → Nat → Nat × Nat
  | 0, _, _ => (0, 0)
  | k + 1, n, term =>
    let (p, q) := erfSum z k (n + 1) (fxMul term z / (n + 1))
    if n % 2 = 0 then (p + term / (2 * n + 1), q) else (p, q + term / (2 * n + 1))
/-- Twice the BER whose Q is h/200 dB: 1 − erf(y/√2), with erf(y/√2) = √(2/π) y Σ (-1)^n (y²/2)^n / (n! (2n + 1));
beyond 20 dB it is below 2^-70, less than any fraction of two 32-bit counts. -/
def ber2 (h : Int) : Nat :=
  if 4000 < h then 0 else
  let y := fxAmp h
  let z := fxMul y y / 2
  let (p, q) := erfSum z 260 0 fxOne
  fxOne - fxMul (fxMul fxSqrt2Pi y) (p - q)

/-- 10^(1/64000) in fixed point. -/
def fxRootFine : Nat := 0x100025B9EA64CC77A5F3CB4E6B2EB2E9B91B3E440
/-- y = 10^(h/64000) in fixed point: 20 log10 y = h/3,200 dB. -/
def fxAmpFine (h : Int) : Nat :=
  if h < 0 then fxOne * fxOne / fxPow 21 fxRootFine h.natAbs else fxPow 21 fxRootFine h.natAbs
/-- Twice the BER whose Q is h/3,200 dB (as `ber2`). -/
def ber2Fine (h : Int) : Nat :=
  if 64000 < h then 0 else
  let y := fxAmpFine h
  let z := fxMul y y / 2
  let (p, q) := erfSum z 260 0 fxOne
  fxOne - fxMul (fxMul fxSqrt2Pi y) (p - q)

/-- The least q in [lo, lo + 2^k) with BER err/bits ≥ BER(q + 1/2), by halving. -/
def qSearch (err bits : Nat) : Nat → Int → Int
  | 0, lo => lo
  | k + 1, lo =>
    let mid := lo + (2 : Int) ^ k - 1
    if 2 * err * fxOne ≥ bits * ber2 (2 * mid + 1) then qSearch err bits k lo else qSearch err bits k (mid + 1)

/-- R196: Q of err errored bits among `bits` compared bits, in 0.01 dB, and whether it is only a lower bound: with no bit
in error BER is taken as 1/bits; a BER of 0.5 or more, or no compared bit, reads −32,768. -/
def qOf (err bits : Nat) : Int × Bool :=
  if bits = 0 then (-32768, false)
  else
    let e := if err = 0 then 1 else err
    (if bits ≤ 2 * e then -32768 else qSearch e bits 16 (-32768), err == 0)

/-! ## Rates and thresholds of the receive side -/

/-- R163, R262: the symbol rate of the line in a receive set: of the plan in the native mode, else of the standard. -/
def rxBaud (t : Tbl Nat) (le : Nat) : Nat := if lineMode t le = 0 then look t (F.LE_RX_PLAN_baud le) else standardBaud t le

/-- R163, R262: the modulation of a receive set. -/
def rxModulation (t : Tbl Nat) (le : Nat) : Nat :=
  if lineMode t le = 0 then look t (F.LE_RX_PLAN_modulation le) else standardModulation t le

/-- R163, R164: sc_count of a receive set: an interoperable line mode runs one carrier, SC0. -/
def rxScCount (t : Tbl Nat) (le : Nat) : Nat := if lineMode t le = 0 then look t (F.LE_RX_PLAN_sc_count le) else 0

/-- Subcarriers enabled below N in a receive set (R164). -/
def rxEnabled (t : Tbl Nat) (le : Nat) : Nat := popcount (2 ^ rxScCount t le) (look t (F.LE_RX_SC_EN_en le))

/-- The coded rate of a receive set (R135, R164). -/
def rxCoded (t : Tbl Nat) (le : Nat) : Nat × Nat :=
  if lineMode t le = 0 then
    codedRate (look t (F.LE_RX_PLAN_baud le)) (look t (F.LE_RX_PLAN_sc_count le)) (rxEnabled t le)
      (look t (F.LE_RX_PLAN_modulation le)) (look t (F.LE_RX_PLAN_entropy le))
  else (Config.standardCoded (lineMode t le) (look t (F.LE_FEC_ILM_zrp_rate le)), 1)

/-- R246, R263: Q_th in force, 0.01 dB. -/
def qThreshold (lineMode fecOh : Nat) : Nat :=
  match lineMode with
  | 0 => (match fecOh with | 0 => 586 | 1 => 519 | _ => 443)
  | 1 => 705
  | _ => 625

/-- R240: the code-word length. -/
def cwLength (fecOh : Nat) : Nat := match fecOh with | 0 => 72512 | 1 => 75264 | _ => 80000

/-- R240, R263: coded bits of a block of the receive set: an Ngusha code word, or a CFEC or oFEC block as its specification defines it. -/
def blockLength (t : Tbl Nat) (le : Nat) : Nat :=
  if lineMode t le = 0 then cwLength (look t (F.LE_RX_PLAN_fec_oh le))
  else Config.standardBlock (lineMode t le) (look t (F.LE_FEC_ILM_zrp_rate le))

/-! ## Tiles (R250 to R253) -/

/-- Tiles in the rotation: in the map and not FAILED. -/
def liveTiles (s : State) (le : Nat) : List Nat :=
  (List.range 26).filter fun t => (s.g (F.LE_FEC_TILE_MAP_map le)).testBit t && s.g (F.LE_FEC_TILE_STAT_state le t) != 3

/-- R250: the next tile of the rotation after `last`, in ascending order. -/
def nextTile (tiles : List Nat) (last : Nat) : Option Nat :=
  match tiles.find? (fun t => last < t) with
  | some t => some t
  | none => tiles.head?

/-- R263: the least cap: in an interoperable line mode the count that the specification's threshold assumes. -/
def iterFloor (t : Tbl Nat) (le : Nat) : Nat := if lineMode t le = 0 then 2 else Config.standardIterations (lineMode t le)

/-- R253: the iterations each tile may run. -/
def iterCap (s : State) (le : Nat) : Nat :=
  let mx := s.cur (F.LE_FEC_CTRL_max_iter le)
  let n := (liveTiles s le).length
  let c := rxCoded s.inForce le
  if n < 24 ∧ s.g (F.LE_FEC_TILE_SPARE_spare_a le) = 0x1F ∧ s.g (F.LE_FEC_TILE_SPARE_spare_b le) = 0x1F ∧
     n * 1180 * c.2 < c.1 then max (iterFloor s.inForce le) (mx * n * 1180 * c.2 / c.1) else mx

/-- R253, R259: the FEC status follows tiles and plan; ITER_CAP is raised while the cap bites. -/
def fecReport (le : Nat) (s : State) : State :=
  let cap := iterCap s le
  let s := s.setF (F.LE_FEC_STAT_tiles_active le) (liveTiles s le).length
  let s := s.setF (F.LE_FEC_STAT_iter_cap le) cap
  let s := s.setF (F.LE_FEC_STAT_q_th le)
    (qThreshold (s.g (F.LE_ROLE_STAT_line_mode_active le)) (s.cur (F.LE_RX_PLAN_fec_oh le)))
  State.level (lep le 0x30) 6 (decide (cap < s.cur (F.LE_FEC_CTRL_max_iter le))) s

/-- R251: the spare under test: spare_b, or spare_a when there is no spare_b. -/
def spareUnderTest (s : State) (le : Nat) : Nat :=
  if s.g (F.LE_FEC_TILE_SPARE_spare_b le) ≠ 0x1F then s.g (F.LE_FEC_TILE_SPARE_spare_b le)
  else s.g (F.LE_FEC_TILE_SPARE_spare_a le)

/-- R252, R253: a FAILED tile with no spare left leaves the map. -/
def tileLeaves (le t : Nat) (s : State) : State :=
  s.setF (F.LE_FEC_TILE_MAP_map le) (s.g (F.LE_FEC_TILE_MAP_map le) &&& (2 ^ t ^^^ 0x3FFFFFF))

/-- R251, R261: the marks of tile `t` that lie within the last 10 s. -/
def marksNow (s : State) (le t : Nat) : List Nat :=
  (Tbl.get [] (s.eng le).fec.marks t).filter fun x => s.now < x + 10000000000

/-- R251: tile `t` receives a fault mark; an active tile with 3 marks within 10 s becomes FAILED. -/
def tileMark (le t : Nat) (s : State) : State :=
  let now := s.now
  let ms := marksNow s le t ++ [now]
  let s := s.modFec le fun f => { f with marks := Tbl.set [] f.marks t ms }
  let s := s.setF (F.LE_FEC_TILE_STAT_marks le t) (min ms.length 255)
  if 3 ≤ ms.length ∧ (liveTiles s le).contains t then
    let s := s.setF (F.LE_FEC_TILE_STAT_state le t) 3
    let s := State.evt (lep le 0x30) 5 s
    if spareUnderTest s le = 0x1F then fecReport le (tileLeaves le t s)
    else s.modFec le fun f => { f with waiting := f.waiting ++ [t] }
  else s

/-- R251: the shadow check of a word whose two results differ: exactly one satisfying every check marks the other tile;
both satisfying is AMBIGUOUS. -/
def shadowCheck (le t : Nat) (sh : Option (Bool × Bool)) (s : State) : State :=
  match sh with
  | some (true, true) => s.bump (F.LE_FEC_AMBIG_CNT_count le) 1
  | some (true, false) => tileMark le (spareUnderTest s le) s
  | some (false, true) => tileMark le t s
  | _ => s

/-- R252: a spare takes the place of the oldest FAILED tile: spare_a first. -/
def tileSwap (le inFlight : Nat) (s : State) : State :=
  match (s.eng le).fec.waiting with
  | [] => s
  | t :: rest =>
    let a := s.g (F.LE_FEC_TILE_SPARE_spare_a le)
    let b := s.g (F.LE_FEC_TILE_SPARE_spare_b le)
    let sp := if a ≠ 0x1F then a else b
    if sp = 0x1F then s
    else
      let s := s.modFec le fun f => { f with waiting := rest, marks := Tbl.set [] (Tbl.set [] f.marks t []) sp [] }
      let s := tileLeaves le t s
      let s := s.setF (F.LE_FEC_TILE_MAP_map le) (s.g (F.LE_FEC_TILE_MAP_map le) ||| 2 ^ sp)
      let s := s.setF (F.LE_FEC_TILE_STAT_state le sp) 0
      let s := s.setF (F.LE_FEC_TILE_STAT_marks le sp) 0
      let s := if a ≠ 0x1F then s.setF (F.LE_FEC_TILE_SPARE_spare_a le) 0x1F else s.setF (F.LE_FEC_TILE_SPARE_spare_b le) 0x1F
      let s := s.bump (F.LE_FEC_REDEC_CNT_count le) inFlight
      fecReport le (State.evt (lep le 0x30) 4 s)

/-- TILE_SWAP -/
def execTileSwap (le : Fin 2) (inFlight : Fin 3) (s : State) : Host.Outcome State Fault Refusal :=
  .next (tileSwap le.val inFlight.val s)

/-! ## Code-word states (R249) -/

/-- R169: a pending followed change is dropped, and the demapper begins to alternate. -/
def followLost (le : Nat) (s : State) : State :=
  if s.on (F.LE_RX_PLAN_STAT_follow_pending le) then
    let s := s.setB (F.LE_RX_PLAN_STAT_follow_pending le) false
    let s := s.incWrap (F.LE_RX_FOLLOW_STAT_follows_lost le) 1
    State.evt (lep le 0x18) 4 (s.modRx le fun r => { r with alternating := true, usesAnnounced := false })
  else s

/-- R270: a stream's frame state, reported in GLF_STAT for stream 0. -/
def setFrame (le k v : Nat) (s : State) : State :=
  let s := s.modGlf le fun g => { g with frame := Tbl.set 0 g.frame k v }
  if k = 0 then s.setF (F.LE_GLF_STAT_frame_state le) v else s

/-- R271: a stream's multiframe state and lom_raw. -/
def setMf (le k v : Nat) (lom : Bool) (s : State) : State :=
  let s := s.modGlf le fun g =>
    { g with mf := Tbl.set 3 g.mf k v, mfRun := Tbl.set 0 g.mfRun k 0, lom := Tbl.set false g.lom k lom }
  if k = 0 then s.setF (F.LE_GLF_STAT_mf_state le) v else s

/-- R169, R270, R271: stream `k` falls out of frame: HUNT with oof_raw and lom_raw set; a pending follow is lost. -/
def glfOof (le k : Nat) (s : State) : State :=
  let was := Tbl.get false (s.eng le).glf.oof k
  let s := s.modGlf le fun g =>
    { g with oof := Tbl.set false g.oof k true, bad := Tbl.set 0 g.bad k 0, cand := Tbl.set [] g.cand k [] }
  let s := setMf le k 3 true (setFrame le k 0 s)
  let s := if k = 0 then s.setF (F.LE_GLF_STAT_candidates le) 0 else s
  followLost le (if was then s else State.evt (lep le 0x34) 0 s)

/-- A stream's code-word state, reported in SC_SYNC and, for stream 0, in FEC_STAT.sync. -/
def setSync (le k v : Nat) (s : State) : State :=
  let s := if Tbl.get 0 (s.eng le).fec.sync k = 2 ∧ v ≠ 2 then glfOof le k s else s
  let s := s.modFec le fun f => { f with
    sync := Tbl.set 0 f.sync k v, good := Tbl.set 0 f.good k 0, bad := Tbl.set 0 f.bad k 0, qSync := f.qSync || v == 2 }
  let old := s.g (F.LE_FEC_SC_SYNC_sc_sync le)
  let s := s.setF (F.LE_FEC_SC_SYNC_sc_sync le) (if v = 2 then old ||| 2 ^ k else old &&& (2 ^ k ^^^ 0xFFFFFFFF))
  if k = 0 then s.setF (F.LE_FEC_STAT_sync le) v else s

/-- A stream's code-word state. -/
def State.syncOf (s : State) (le k : Nat) : Nat := Tbl.get 0 (s.eng le).fec.sync k

/-- R249: a stream returns to HUNT. -/
def cwHunt (le k : Nat) (s : State) : State := if s.syncOf le k = 0 then s else setSync le k 0 s

/-- R249: every stream of the engine returns to HUNT. -/
def cwHuntAll (le : Nat) (s : State) : State := s.forEach (List.range 32) (cwHunt le)

/-- R249: whether stream `k` may hunt: the engine LOCKED (HUB: BURST_RX), and in HUB and LEAF its subcarrier LOCKED. -/
def canHunt (s : State) (le k : Nat) : Bool :=
  let p2mp := s.role le == 2 || s.role le == 3
  (s.g (F.LE_RX_STATE_state le) == 5 || (s.role le == 2 && s.g (F.LE_RX_STATE_state le) == 6)) &&
  (if p2mp then Tbl.get 0 (s.eng le).rx.sc k == 3 else k == 0)

/-- CW_CANDIDATE_FOUND: an offset with fewer than 35 % of the checks unsatisfied is taken as the candidate. In an interoperable line
mode the alignment of the specification takes the place of the hunt, and the stream is in SYNC (R263). -/
def execCwCandidateFound (le : Fin 2) (k : Fin 32) (s : State) : Host.Outcome State Fault Refusal :=
  if s.syncOf le.val k.val = 0 && canHunt s le.val k.val then
    .next (setSync le.val k.val (if s.native le.val then 1 else 2) s)
  else .next s

/-- R260: counter `c` of page 0x31. -/
def fecCount (le c n : Nat) (s : State) : State := s.bump64 (F.LE_FEC_CNT_LO_lo le c) (F.LE_FEC_CNT_HI_hi le c) n

/-- R247, R248, R249, R260: a word's effect on counters, the failure mark and the state of its stream. -/
def fecWord (le k : Nat) (burst : Bool) (d : Decoded) (s : State) : State :=
  let failed := if burst then d.unsatisfied else d.unsatisfied && d.outerBad
  let n := if burst then 4096 else blockLength s.inForce le
  let iters := if s.curOn (F.LE_FEC_CTRL_early_stop le) && !d.unsatisfied then min d.iterations (iterCap s le) else iterCap s le
  match nextTile (liveTiles s le) (s.eng le).fec.lastTile with
  | none => s
  | some t =>
    let s := s.modFec le fun f => { f with
      lastTile := t, seq := f.seq + 1,
      qCorr := if failed then f.qCorr else f.qCorr + d.inner + d.outer,
      qBits := if failed then f.qBits else f.qBits + n,
      qFail := if failed then f.qFail + 1 else f.qFail,
      qSync := f.qSync || (!burst && Tbl.get 0 f.sync k == 2) }
    let s := fecCount le 0 1 s
    let s := if failed then
        State.evt (lep le 0x30) 3 ((fecCount le 1 1 s).logFold (lep le 0x31) ((0x048 / 4) % 256) 2 1 0)
      else s
    let s := if d.outer ≠ 0 ∧ !burst then fecCount le 2 1 s else s
    let s := fecCount le 3 d.inner (fecCount le 4 d.outer (fecCount le 5 iters s))
    let s := State.datapath (State.datapath s (960 + 52 * le + 2 * t) 1) (961 + 52 * le + 2 * t) iters
    let s := State.datapath s (1067 + 48 * le) 1
    let s := shadowCheck le t d.shadow s
    if burst || !s.native le then s
    else if s.syncOf le k = 1 then
      if failed then setSync le k 0 s
      else if Tbl.get 0 (s.eng le).fec.good k = 1 then setSync le k 2 s
      else s.modFec le fun f => { f with good := Tbl.set 0 f.good k 1 }
    else if failed then
      if Tbl.get 0 (s.eng le).fec.bad k = 7 then State.evt (lep le 0x30) 0 (setSync le k 0 s)
      else s.modFec le fun f => { f with bad := Tbl.set 0 f.bad k (Tbl.get 0 f.bad k + 1) }
    else s.modFec le fun f => { f with bad := Tbl.set 0 f.bad k 0 }

/-! ## The encoder (R241 to R244, R254) -/

/-- Blocks laid out as one number, bit 0 first. -/
def blocksToNat : List (BitVec 64) → Nat
  | [] => 0
  | b :: t => b.toNat + 2 ^ 64 * blocksToNat t

/-- Turns over one bit of a list of blocks. -/
def flipBit (bs : List (BitVec 64)) (i : Nat) : List (BitVec 64) := addAt bs (i / 64) (BitVec.ofNat 64 (2 ^ (i % 64)))

/-- Pairs of 32-bit words as 64-bit blocks, the first word the low half, padded with zeros to `n` blocks. -/
def blocksOf (n : Nat) : List Word → List (BitVec 64)
  | a :: b :: t => match n with
    | 0 => []
    | k + 1 => BitVec.ofNat 64 (a.toNat + 2 ^ 32 * b.toNat) :: blocksOf k t
  | [a] => match n with
    | 0 => []
    | k + 1 => BitVec.ofNat 64 a.toNat :: List.replicate k 0
  | [] => List.replicate n 0

/-- R202, R204, R245: the streams whose code words an engine encodes: one, in HUB that of each enabled subcarrier, in LEAF that of the
continuous upstream. -/
def encStreams (s : State) (le : Nat) : List Nat :=
  match s.role le with
  | 2 => dealt 32 (s.cur (F.LE_TX_SC_EN_en le))
  | 3 => [s.cur (F.LE_P2MP_LEAF_CTRL_cont_sc le)]
  | _ => [0]

/-- R180, R244, R245: a code word reaches the transmit DSP: of the streams of an engine each in its turn; while the output is DARK
nothing is sent. -/
def wordOut (le bits len : Nat) (s : State) : State :=
  let l := encStreams s le
  let q := l.getD ((s.eng le).fec.turn % l.length) 0
  let s := s.modFec le fun f => { f with lastWord := bits, turn := f.turn + 1 }
  if (s.eng le).tx.live then histWord le q bits len s else s

/-- R254: a word that fails its check is still sent, counted and raises ENC_ERR. -/
def encErr (le : Nat) (s : State) : State :=
  State.evt (lep le 0x30) 7 (s.modFec le fun f => { f with badWords := f.badWords + 1 })

/-- FEC_ENCODE. The encoder produces the code word of the next 64,000 GLF bits of a stream; bits listed in `faults` come out wrong.
In an interoperable line mode the block is that of the selected standard (R263). -/
def execFecEncode (le : Fin 2) (info : List Word) (faults : List Nat) (s : State) : Host.Outcome State Fault Refusal :=
  let oh := s.cur (F.LE_TX_PLAN_fec_oh le.val)
  let s := State.datapath s (1066 + 48 * le.val) 1
  if s.native le.val then
    let (i, p) := fecEncode oh (blocksOf 1000 info)
    let sent := faults.foldl flipBit (i ++ p)
    let s := wordOut le.val (blocksToNat sent) (cwLength oh) s
    .next (if ldpcSatisfied (ldpcRows oh) (sent.take 1010) (sent.drop 1010) then s else encErr le.val s)
  else
    let b := Config.standardCode (s.g (F.LE_ROLE_STAT_line_mode_active le.val)) (info.map BitVec.toNat)
    let s := wordOut le.val (faults.foldl (fun x i => x ^^^ 2 ^ i) b)
      (Config.standardBlock (lineMode s.inForce le.val) (s.cur (F.LE_FEC_ILM_zrp_rate le.val))) s
    .next (if faults.isEmpty then s else encErr le.val s)

/-- R255: the burst code word of 416 bytes: information bits in byte order, most significant bit first, then the parity columns. -/
def burstWord (bytes : List Byte) : List (BitVec 64) :=
  let bits := ((bytes ++ List.replicate 416 0).take 416).flatMap fun (b : Byte) => (List.range 8).map fun i => b.getLsbD (7 - i)
  let info := (List.range 52).map fun c => BitVec.ofNat 64
    ((List.range 64).foldl (fun a i => if bits.getD (64 * c + i) false then a + 2 ^ i else a) 0)
  info ++ ldpcParity 12 info

end Sys2Proof.Machine
end

