-- ==== Sys2Proof/Machine/Receive.lean ====
section
/-! DEFINITION. Line receive (05_line_receive.md): acquisition and lock of the engine and its subcarriers, following the
far end's entropy, reflection cancellation, CD, equaliser, carrier recovery, soft demapping, quality figures, and the checks of the
receive set. -/
namespace Sys2Proof.Machine

/-! ## Complex numbers and adaptive filters (R181, R189, R190) -/

/-- Product of two complex numbers. -/
def cMul {α : Type} [Ring α] (a b : α × α) : α × α := (a.1 * b.1 - a.2 * b.2, a.1 * b.2 + a.2 * b.1)
/-- Sum of two complex numbers. -/
def cAdd {α : Type} [Ring α] (a b : α × α) : α × α := (a.1 + b.1, a.2 + b.2)
/-- Complex conjugate. -/
def cConj {α : Type} [Ring α] (a : α × α) : α × α := (a.1, -a.2)

/-- The output of a filter: taps from the newest sample of a window to the oldest. -/
def firAt {α : Type} [Ring α] (taps window : List (α × α)) : α × α :=
  (taps.zip window).foldl (fun a e => cAdd a (cMul e.1 e.2)) (0, 0)

/-- R181, R190: a least-mean-squares step of size 2^−shift on the error `e`: each tap moves along e × the conjugate of its sample. -/
def lmsStep (shift : Nat) (taps window : List (ℚ × ℚ)) (e : ℚ × ℚ) : List (ℚ × ℚ) :=
  (taps.zip window).map fun x =>
    let d := cMul e (cConj x.2)
    (x.1.1 + d.1 / 2 ^ shift, x.1.2 + d.2 / 2 ^ shift)

/-- R190: a step of the constant-modulus criterion for modulus `r` on the output `y`: the error is y × (r − |y|²). -/
def cmaStep (shift : Nat) (r : ℚ) (taps window : List (ℚ × ℚ)) (y : ℚ × ℚ) : List (ℚ × ℚ) :=
  lmsStep shift taps window (y.1 * (r - y.1 * y.1 - y.2 * y.2), y.2 * (r - y.1 * y.1 - y.2 * y.2))

/-- R189: taps of each filter of the butterfly for N = 2^k subcarriers. -/
def eqTaps (k : Nat) : Nat := match k with | 0 => 63 | 1 => 47 | 2 => 31 | 3 => 23 | 4 => 15 | _ => 11

/-- A filter that passes its input at its middle tap (`one`) or nothing. -/
def spikeTaps (n : Nat) (one : Bool) : List (Int × Int) :=
  (List.range n).map fun i => if one && i == n / 2 then (1, 0) else (0, 0)

/-- R171: the centre spike: each output is its own input. -/
def centreSpike (n : Nat) : Butterfly :=
  { xx := spikeTaps n true, xy := spikeTaps n false, yx := spikeTaps n false, yy := spikeTaps n true }

/-- R189: the outputs X and Y of a butterfly from windows of its two inputs. -/
def butterflyOut (b : Butterfly) (wx wy : List (Int × Int)) : (Int × Int) × (Int × Int) :=
  (cAdd (firAt b.xx wx) (firAt b.xy wy), cAdd (firAt b.yx wx) (firAt b.yy wy))

/-- R190: the two outputs are exchanged. -/
def Butterfly.exchange (b : Butterfly) : Butterfly := { xx := b.yx, xy := b.yy, yx := b.xx, yy := b.xy }

/-- R190: the Y filters become the orthogonal complement of the X filters. -/
def Butterfly.complement (b : Butterfly) : Butterfly :=
  { b with yx := (b.xy.map fun c => (-c.1, c.2)).reverse, yy := (b.xx.map cConj).reverse }

/-- R189, R190: adaptation has moved a butterfly of `n` taps: where to, the signal decides. -/
def adapted (n seed : Nat) : Butterfly :=
  { xx := (Config.adapted seed 0).take n, xy := (Config.adapted seed 1).take n,
    yx := (Config.adapted seed 2).take n, yy := (Config.adapted seed 3).take n }

/-! ## Lock states -/

/-- A subcarrier's receive state (R171). -/
def State.scOf (s : State) (le k : Nat) : Nat := Tbl.get 0 (s.eng le).rx.sc k

/-- Subcarriers enabled for reception and below N. -/
def rxSubs (s : State) (le : Nat) : List Nat :=
  dealt (2 ^ rxScCount s.inForce le) (s.cur (F.LE_RX_SC_EN_en le))

/-- R204: the mode of an upstream subcarrier: 0 OFF, 1 TDMA, 2 CONTINUOUS. -/
def upMode (t : Tbl Nat) (le k : Nat) : Nat :=
  look t (if k < 16 then F.LE_P2MP_UP_MODE_LO_modes le else F.LE_P2MP_UP_MODE_HI_modes le) / 4 ^ (k % 16) % 4

/-- R204: the subcarriers that follow the states of R171: those enabled, in HUB only the CONTINUOUS ones among them. -/
def lockSubs (s : State) (le : Nat) : List Nat :=
  (rxSubs s le).filter fun k => s.role le != 2 || upMode s.inForce le k == 2

/-- R171: a subcarrier takes a state; SC_LOCK, sc_locked and SC_LOCK_LOST follow. -/
def scGo (le k v : Nat) (s : State) : State :=
  let was := s.scOf le k
  let s := s.modRx le fun r => { r with sc := Tbl.set 0 r.sc k v }
  let lock := s.g (F.LE_RX_SC_LOCK_lock le)
  let lock' := if v = 3 then lock ||| 2 ^ k else lock &&& (2 ^ k ^^^ 0xFFFFFFFF)
  let s := if lock' = lock then s else s.noteWas (1080 + 48 * le + k) (lock.testBit k).toNat
  let s := s.setF (F.LE_RX_SC_LOCK_lock le) lock'
  let s := s.setF (F.LE_RX_PLAN_STAT_sc_locked le) (popcount 32 lock')
  if was = 3 ∧ v ≠ 3 then
    s.setF (F.LE_RX_SC_LOCK_LOST_lost le) (s.g (F.LE_RX_SC_LOCK_LOST_lost le) ||| 2 ^ k)
  else s

/-- R189: gives a subcarrier's equaliser its filters. -/
def setEq (le k : Nat) (b : Butterfly) (s : State) : State := s.modRx le fun r => { r with eq := Tbl.set none r.eq k (some b) }

/-- R190: the equaliser of subcarrier `k` has adapted. -/
def eqAdapt (le k : Nat) (s : State) : State :=
  let n := eqTaps (rxScCount s.inForce le)
  setEq le k (adapted n s.drawn) { s with drawn := s.drawn + 1 }

/-- R189: the filters of a subcarrier's equaliser; before it has adapted, the centre spike. -/
def eqOf (s : State) (le k : Nat) : Butterfly :=
  (Tbl.get none (s.eng le).rx.eq k).getD (centreSpike (eqTaps (rxScCount s.inForce le)))

/-- R170: lol_raw and its event; in HUB it stays 0 (R205). -/
def setLol (le : Nat) (b : Bool) (s : State) : State :=
  let b := b && s.role le != 2
  State.level (lep le 0x18) 1 b (s.setB (F.LE_RX_STATE_lol_raw le) b)

/-- R170, R171, R249: the engine receive state changes: STATE_CHANGE, lol_raw, the subcarriers start or return to SEARCH,
and an engine that leaves LOCKED or BURST_RX drops a pending follow and its code-word states. -/
def rxGo (le v : Nat) (s : State) : State :=
  let v := if s.pageOn (lep le 0x18) then v else 0
  let was := s.g (F.LE_RX_STATE_state le)
  if was = v then s
  else
    let s := s.setF (F.LE_RX_STATE_state le) v
    let s := setLol le (v != 5) s
    let runs (x : Nat) := x == 4 || x == 5 || x == 6
    let s := if runs v then
        (if runs was then s else s.forEach (lockSubs s le) (fun k s => if s.scOf le k = 0 then scGo le k 1 s else s))
      else s.forEach (List.range 32) (fun k s => if s.scOf le k = 0 then s else scGo le k 0 s)
    let s := if was = 5 ∨ was = 6 then cwHuntAll le (followLost le s) else s
    let s := if v = 3 && s.curOn (F.LE_RX_CD_CTRL_cd_mode le) then
        s.setF (F.LE_RX_CD_EST_cd le) (s.cur (F.LE_RX_CD_SET_cd_set le))
      else s
    State.evt (lep le 0x18) 7 s

/-- R170: a transition of the table, which raises STATE_CHANGE also where it leads back to the state it left. -/
def rxMove (le v : Nat) (s : State) : State :=
  if s.g (F.LE_RX_STATE_state le) = v then State.evt (lep le 0x18) 7 s else rxGo le v s

/-- R170: where acquisition starts: CD_SEARCH, or FREQ_ACQ with cd_mode FIXED. -/
def acqStart (s : State) (le : Nat) : Nat := if s.curOn (F.LE_RX_CD_CTRL_cd_mode le) then 3 else 2

/-- R173: los_raw from the rms level and, with los_opt, the optical engine's report; its rise returns the receive state
to SIGNAL_WAIT (R170). In HUB it is not evaluated (R205), nor while the engine does not run. -/
def losEval (le : Nat) (s : State) : State :=
  if s.runState le ≠ 2 then s
  else if s.role le = 2 then State.level (lep le 0x18) 0 false (s.setB (F.LE_RX_STATE_los_raw le) false)
  else
    let b := (s.eng le).rx.rmsLow || (s.curOn (F.LE_RX_LOS_CTRL_los_opt le) && (s.eng le).rx.optLos)
    let was := s.on (F.LE_RX_STATE_los_raw le)
    let s := State.level (lep le 0x18) 0 b (s.setB (F.LE_RX_STATE_los_raw le) b)
    if b && s.g (F.LE_RX_STATE_state le) != 0 then (if was then rxGo le 1 s else rxMove le 1 s) else s

/-- LOS_RAW_SET -/
def execLosRawSet (le : Fin 2) (optical : Bool) (s : State) : Host.Outcome State Fault Refusal :=
  .next (losEval le.val (s.modRx le.val fun r => if optical then { r with optLos := true } else { r with rmsLow := true }))

/-- SIGNAL_DETECTED. R170, R205: the input has been above los_level for 100 µs. -/
def execSignalDetected (le : Fin 2) (s : State) : Host.Outcome State Fault Refusal :=
  let le := le.val
  let s := losEval le (s.modRx le fun r => { r with rmsLow := false })
  if s.g (F.LE_RX_STATE_state le) = 1 && (s.role le == 2 || !s.on (F.LE_RX_STATE_los_raw le)) then
    .next (rxGo le (if s.role le = 2 then 3 else acqStart s le) (s.bump (F.LE_RX_STATE_acquisitions le) 1))
  else .next s

/-- CD_SCAN_END. R170, R187: a peak loads the CD filter; without one the scan restarts. -/
def execCdScanEnd (le : Fin 2) (peak : Option Int) (s : State) : Host.Outcome State Fault Refusal :=
  let le := le.val
  if s.g (F.LE_RX_STATE_state le) = 2 then
    match peak with
    | some cd => .next (rxGo le 3 (State.evt (lep le 0x1B) 0 (s.setF (F.LE_RX_CD_EST_cd le) (unsigned 21 cd))))
    | none => .next (rxMove le 2 (State.evt (lep le 0x1B) 1 s))
  else .next s

/-- FREQ_OFFSET_FOUND. R170, R191: an offset within ±3.0 GHz starts the subcarriers; in HUB it is taken as zero and the
engine enters BURST_RX (R205). -/
def execFreqOffsetFound (le : Fin 2) (kHz : Int) (s : State) : Host.Outcome State Fault Refusal :=
  let le := le.val
  if s.g (F.LE_RX_STATE_state le) = 3 then
    if s.role le = 2 then .next (rxGo le 6 (s.setF (F.LE_RX_CR_COMMON_offset le) 0))
    else if kHz.natAbs ≤ 3000000 then .next (rxGo le 4 (s.setF (F.LE_RX_CR_COMMON_offset le) (unsigned 32 kHz)))
    else .next s
  else .next s

/-- FREQ_ACQ_TIMEOUT. R170: 20 ms without an offset. -/
def execFreqAcqTimeout (le : Fin 2) (s : State) : Host.Outcome State Fault Refusal :=
  let le := le.val
  if s.g (F.LE_RX_STATE_state le) = 3 then .next (rxMove le (acqStart s le) (State.evt (lep le 0x1B) 4 s)) else .next s

/-- SC_ACQ_TIMEOUT. R170: 50 ms in SC_ACQ with no subcarrier LOCKED. -/
def execScAcqTimeout (le : Fin 2) (s : State) : Host.Outcome State Fault Refusal :=
  let le := le.val
  if s.g (F.LE_RX_STATE_state le) = 4 then .next (rxGo le (acqStart s le) s) else .next s

/-- ENGINE_LOCK_LOSS. R170: no subcarrier LOCKED for 5 ms; the CD estimate is kept. -/
def execEngineLockLoss (le : Fin 2) (s : State) : Host.Outcome State Fault Refusal :=
  let le := le.val
  if s.g (F.LE_RX_STATE_state le) = 5 && s.g (F.LE_RX_SC_LOCK_lock le) == 0 then .next (rxGo le 3 s) else .next s

/-- FREQ_LIMIT_EXCEEDED. R170: the tracked offset leaves ±3.6 GHz. -/
def execFreqLimitExceeded (le : Fin 2) (s : State) : Host.Outcome State Fault Refusal :=
  let le := le.val
  if s.g (F.LE_RX_STATE_state le) = 5 then .next (rxGo le 3 (State.evt (lep le 0x1B) 4 s)) else .next s

/-- SC_CONVERGED. R171, R190: the blind equaliser has converged. -/
def execScConverged (le : Fin 2) (k : Fin 32) (s : State) : Host.Outcome State Fault Refusal :=
  if s.scOf le.val k.val = 1 then .next (scGo le.val k.val 2 (eqAdapt le.val k.val s)) else .next s

/-- SC_CONVERGE_TIMEOUT. R171: the taps are reset to the centre spike. -/
def execScConvergeTimeout (le : Fin 2) (k : Fin 32) (s : State) : Host.Outcome State Fault Refusal :=
  if s.scOf le.val k.val = 1 then
    .next (setEq le.val k.val (centreSpike (eqTaps (rxScCount s.inForce le.val))) (scGo le.val k.val 1 s))
  else .next s

/-- PILOT_SYNC_FOUND. R171, R190: the subcarrier becomes LOCKED, and the engine with the first of them; a match of only
the conjugate sequences shows that the spectrum is inverted against what stage 5 assumes now. Which output matches the sequence of X
the signal decides (a free value): the other way round, the outputs are exchanged. -/
def execPilotSyncFound (le : Fin 2) (k : Fin 32) (conjugate : Bool) (s : State) : Host.Outcome State Fault Refusal :=
  let le := le.val
  if s.scOf le k.val = 2 then
    let (x, s) := s.draw 1
    let s := if x = 1 then setEq le k.val (eqOf s le k.val).exchange s else s
    let s := scGo le k.val 3 s
    let s := if conjugate then
        let inv := s.on (F.LE_RX_PLAN_STAT_spectral_inv le)
        let s := s.setB (F.LE_RX_PLAN_STAT_spectral_inv le) (!inv)
        if inv then s else State.evt (lep le 0x18) 5 s
      else s
    .next (if s.g (F.LE_RX_STATE_state le) = 4 then rxGo le 5 s else s)
  else .next s

/-- PILOT_SYNC_TIMEOUT. R171. -/
def execPilotSyncTimeout (le : Fin 2) (k : Fin 32) (s : State) : Host.Outcome State Fault Refusal :=
  if s.scOf le.val k.val = 2 then .next (scGo le.val k.val 1 s) else .next s

/-- R171, R172, R249: a LOCKED subcarrier loses its pilots; no other subcarrier changes. -/
def pilotsLost (le k : Nat) (s : State) : State :=
  let s := State.evt (lep le 0x18) 2 (scGo le k 1 s)
  if s.role le = 2 ∨ s.role le = 3 then cwHunt le k s else s

/-- SC_LOCK_LOST. R171: more than 1 pilot in 8 in error over 100 µs. -/
def execScLockLost (le : Fin 2) (k : Fin 32) (s : State) : Host.Outcome State Fault Refusal :=
  .next (if s.scOf le.val k.val = 3 then pilotsLost le.val k.val s else s)

/-- SINGULAR. R190: the Y filters are reset to the orthogonal complement of the X filters; the subcarrier stays in its state. -/
def execSingular (le : Fin 2) (k : Fin 32) (s : State) : Host.Outcome State Fault Refusal :=
  if s.scOf le.val k.val = 0 then .next s
  else .next (State.evt (lep le.val 0x1B) 2 (setEq le.val k.val (eqOf s le.val k.val).complement s))

/-- CYCLE_SLIP. R192: the slip is counted in the subcarrier's quality record. -/
def execCycleSlip (le : Fin 2) (k : Fin 32) (s : State) : Host.Outcome State Fault Refusal :=
  if s.scOf le.val k.val = 3 then
    .next (State.evt (lep le.val 0x1B) 3 (s.modRx le.val fun r =>
      { r with slips := Tbl.set 0 r.slips k.val (Tbl.get 0 r.slips k.val + 1) }))
  else .next s

/-! ## Carrier recovery (R191, R192) -/

/-- R192: the phase at a symbol `f` (a fraction of the way from one pilot to the next) from the pilots' phases: each pilot's phase is the
mean of the 2w + 1 pilots centred on it, and between two pilots it is interpolated. `ph i` is the phase of pilot i, in turns. -/
def pilotPhase (w : Nat) (ph : Int → ℚ) (i : Int) (f : ℚ) : ℚ :=
  let mean (c : Int) : ℚ := ((List.range (2 * w + 1)).map fun (d : Nat) => ph (c - w + d)).sum / (2 * w + 1)
  mean i + (mean (i + 1) - mean i) * f

/-- R192: the 16 test angles of the blind phase search, within ±π/16 of the pilot estimate, in turns. -/
def bpsAngles : List ℚ := (List.range 16).map fun (k : Nat) => (2 * (k : ℚ) - 15) / 15 / 32

/-- R192: the test angle of least cost over a block of 32 symbols, 0 without blind phase search. -/
def bpsBest (en : Bool) (cost : ℚ → ℚ) : ℚ :=
  if en then bpsAngles.foldl (fun a x => if cost x < cost a then x else a) (bpsAngles.headD 0) else 0

/-- R191: LOCKED tracks the common offset within ±3.6 GHz (how it moves, the signal decides). -/
def trackCommon (le : Nat) (s : State) : State :=
  if s.g (F.LE_RX_STATE_state le) = 5 then
    let (v, s) := s.draw 32
    s.setF (F.LE_RX_CR_COMMON_offset le) (unsigned 32 (clampI (-3600000) 3600000 (signed 32 v)))
  else s

/-! ## Chromatic dispersion (R186 to R188) -/

/-- R186: D_max for a symbol rate in 0.25 GBd units. -/
def cdMax (baud : Nat) : Nat := if baud = 0 then 600000 else min 600000 (180000000 / baud) / 1000 * 1000

/-- CD_TRACK_STEP. R187: with track set in AUTO, a mean residual beyond 500 ps/nm moves into the bulk filter in steps of
at most 200 ps/nm. -/
def execCdTrackStep (le : Fin 2) (residual : Int) (s : State) : Host.Outcome State Fault Refusal :=
  let le := le.val
  if s.curOn (F.LE_RX_CD_CTRL_track le) && !s.curOn (F.LE_RX_CD_CTRL_cd_mode le) && s.g (F.LE_RX_STATE_state le) == 5
      && decide (500 < residual.natAbs) then
    .next (s.setF (F.LE_RX_CD_EST_cd le) (unsigned 21 (signed 21 (s.g (F.LE_RX_CD_EST_cd le)) + clampI (-200) 200 residual)))
  else .next s

/-! ## Following the far end (R168, R169) -/

/-- R168: the staged and the in-force entropy both take a value. -/
def takeEntropy (le v : Nat) (s : State) : State :=
  (((s.stage (F.LE_RX_PLAN_entropy le) v).force (F.LE_RX_PLAN_entropy le) v).setF (F.LE_RX_PLAN_STAT_entropy_active le) v)

/-- R168, R270: some stream of the engine is in frame. -/
def anyInFrame (s : State) (le : Nat) : Bool := (List.range 32).any fun k => decide (2 ≤ Tbl.get 0 (s.eng le).glf.frame k)

/-- R168: the receive frame count of a stream in frame reaches `fc` with the frame that comes next. -/
def frameDue (s : State) (le fc : Nat) : Bool :=
  (List.range 32).any fun k => decide (2 ≤ Tbl.get 0 (s.eng le).glf.frame k) && Tbl.get 0 (s.eng le).glf.pred k == fc

/-- ENTROPY_ANN. R168, R273: an announcement received in frame whose CRC passes is loaded; with follow = 1 the change becomes pending. -/
def execEntropyAnn (le : Fin 2) (body : List Byte) (s : State) : Host.Outcome State Fault Refusal :=
  let le := le.val
  if anyInFrame s le && body.length == 12 && leNat body 8 4 == crc32c (body.take 8) then
    let s := s.setF (F.LE_RX_FOLLOW_STAT_entropy_announced le) (byteAt body 0)
    if s.curOn (F.LE_RX_PLAN_follow le) then
      .next ((s.setF (F.LE_RX_FOLLOW_AT_frame le) (leNat body 4 4)).setB (F.LE_RX_PLAN_STAT_follow_pending le) true)
    else .next s
  else .next s

/-- FOLLOW_APPLY. R168: the receive frame count reaches LEn_RX_FOLLOW_AT. -/
def execFollowApply (le : Fin 2) (s : State) : Host.Outcome State Fault Refusal :=
  let le := le.val
  if s.on (F.LE_RX_PLAN_STAT_follow_pending le) && frameDue s le (s.g (F.LE_RX_FOLLOW_AT_frame le)) then
    let s := takeEntropy le (s.g (F.LE_RX_FOLLOW_STAT_entropy_announced le)) s
    let s := s.setB (F.LE_RX_PLAN_STAT_follow_pending le) false
    .next (fecReport le (State.evt (lep le 0x18) 3 (s.incWrap (F.LE_RX_FOLLOW_STAT_follows_applied le) 1)))
  else .next s

/-- FOLLOW_ALTERNATE. R169: every 2 ms the demapper takes the other entropy. -/
def execFollowAlternate (le : Fin 2) (s : State) : Host.Outcome State Fault Refusal :=
  let le := le.val
  if (s.eng le).rx.alternating then
    let ann := !(s.eng le).rx.usesAnnounced
    let s := s.modRx le fun r => { r with usesAnnounced := ann }
    .next (s.setF (F.LE_RX_PLAN_STAT_entropy_active le)
      (if ann then s.g (F.LE_RX_FOLLOW_STAT_entropy_announced le) else s.cur (F.LE_RX_PLAN_entropy le)))
  else .next s

/-- FOLLOW_GIVE_UP. R169: alternation stops on the entropy in force. -/
def execFollowGiveUp (le : Fin 2) (s : State) : Host.Outcome State Fault Refusal :=
  let le := le.val
  if (s.eng le).rx.alternating then
    .next ((s.modRx le fun r => { r with alternating := false, usesAnnounced := false }).setF
      (F.LE_RX_PLAN_STAT_entropy_active le) (s.cur (F.LE_RX_PLAN_entropy le)))
  else .next s

/-- R169: the framer is in frame while the demapper alternates: the entropy in use becomes the one in force. -/
def followInFrame (le : Nat) (s : State) : State :=
  if (s.eng le).rx.alternating then
    let ann := (s.eng le).rx.usesAnnounced
    let s := s.modRx le fun r => { r with alternating := false, usesAnnounced := false }
    if ann then
      (takeEntropy le (s.g (F.LE_RX_FOLLOW_STAT_entropy_announced le)) s).incWrap (F.LE_RX_FOLLOW_STAT_follows_applied le) 1
    else takeEntropy le (s.cur (F.LE_RX_PLAN_entropy le)) s
  else s

/-! ## Reflections (R179 to R185) -/

/-- R181: J_r · (h_r * x)(t − d_r): the echo of one slot at sample `t`, from the transmit waveform `x` of X and Y, which is regenerated
from the history with the filters and frequency shifts of stage 5. -/
def echoAt (e : Echo) (d : Nat) (x : Int → (Int × Int) × (Int × Int)) (t : Int) : (Int × Int) × (Int × Int) :=
  let win := (List.range 48).map fun (k : Nat) => x (t - d - k)
  let a := firAt e.h (win.map Prod.fst)
  let b := firAt e.h (win.map Prod.snd)
  let j (i : Nat) := e.j.getD i (0, 0)
  (cAdd (cMul (j 0) a) (cMul (j 1) b), cAdd (cMul (j 2) a) (cMul (j 3) b))

/-- R181: the echo model of a slot after adaptation: 48 taps and a 2×2 matrix. -/
def echoAdapted (seed : Nat) : Echo := { h := (Config.adapted seed 0).take 48, j := (Config.adapted seed 1).take 4 }

/-- R182: the taps of a slot shift with its delay: a tap that comes in is 0. -/
def echoShift (offset : Int) (e : Echo) : Echo :=
  { e with h := (List.range e.h.length).map fun (k : Nat) =>
      let i := (k : Int) + offset
      if i < 0 then (0, 0) else e.h.getD i.toNat (0, 0) }

/-- R181: gives a slot its echo model. -/
def setEcho (le r : Nat) (e : Echo) (s : State) : State := s.modRx le fun x => { x with echo := Tbl.set {} x.echo r e }

/-- R181: the models adapt while the far-end signal is present, and in SIGNAL_WAIT. -/
def echoAdapts (s : State) (le : Nat) : Bool :=
  s.g (F.LE_RX_STATE_state le) == 1 || (s.g (F.LE_RX_STATE_state le) != 0 && !s.on (F.LE_RX_STATE_los_raw le))

/-- R182: a slot's state and delay; REFL_SUM.slots counts those not EMPTY. -/
def reflSet (le r v d : Nat) (s : State) : State :=
  let s := (s.setF (F.LE_RX_REFL_STAT_state le r) v).setF (F.LE_RX_REFL_STAT_delay le r) d
  s.setF (F.LE_RX_REFL_SUM_slots le) ((List.range 8).filter fun i => s.g (F.LE_RX_REFL_STAT_state le i) != 0).length

/-- 10^(x/100) in fixed point, for a power of x tenths of a dB. -/
def fxPower (x : Int) : Nat := fxAmp (40 * x)

/-- The least x in [lo, lo + 2^k) tenths of a dB with sum ≤ 10^((x + 1/2)/100): the sum rounded to 0.1 dB. -/
def dbSearch (sum : Nat) : Nat → Int → Int
  | 0, lo => lo
  | k + 1, lo =>
    let mid := lo + (2 : Int) ^ k - 1
    if sum ≤ fxAmp (20 * (2 * mid + 1)) then dbSearch sum k lo else dbSearch sum k (mid + 1)

/-- R185: the total residual echo: the sum of level − suppression over the ACTIVE and PINNED slots, in 0.1 dB. -/
def reflResidual (le : Nat) (s : State) : State :=
  let on := (List.range 8).filter fun i => decide (2 ≤ s.g (F.LE_RX_REFL_STAT_state le i))
  let sum := on.foldl (fun a i => a + fxPower
    (signed 16 (s.g (F.LE_RX_REFL_LVL_level le i)) - (s.g (F.LE_RX_REFL_LVL_suppression le i) : Int))) 0
  s.setF (F.LE_RX_REFL_SUM_residual le) (if on.isEmpty then 0 else unsigned 16 (dbSearch sum 12 (-2048)))

/-- R182, R184: the canceller searches: single-fibre operation with mode AUTO. -/
def reflAuto (s : State) (le : Nat) : Bool :=
  s.on (F.LE_ROLE_STAT_single_fibre_active le) && s.cur (F.LE_RX_REFL_CTRL_mode le) == 1

/-- Samples at Fs in 10 ns: Fs = 1.2 Rs (R142, R184). -/
def samplesPer10ns (s : State) (le : Nat) : Nat := 3 * s.cur (F.LE_TX_PLAN_baud le)

/-- REFL_CANDIDATE. R182, R183: a peak (samples; level in 0.1 dB) above −threshold in the window; near a slot in use it is
absorbed, else it takes the lowest EMPTY slot, else the weakest ACTIVE slot it exceeds by 3 dB, else it is refused. -/
def execReflCandidate (le : Fin 2) (peak : Nat) (level : Int) (s : State) : Host.Outcome State Fault Refusal :=
  let le := le.val
  let u := samplesPer10ns s le
  let d (r : Nat) := s.g (F.LE_RX_REFL_STAT_delay le r)
  let st (r : Nat) := s.g (F.LE_RX_REFL_STAT_state le r)
  let slots := List.range (s.cur (F.LE_RX_REFL_CTRL_max_refl le) + 1)
  if reflAuto s le && decide (u * s.cur (F.LE_RX_REFL_WIN_win_min le) ≤ peak) &&
      decide (peak ≤ u * s.cur (F.LE_RX_REFL_WIN_win_max le)) &&
      decide (-(5 * (s.cur (F.LE_RX_REFL_CTRL_threshold le) : Int)) < level) then
    if slots.any fun r => decide (2 ≤ st r) && decide (d r ≤ peak + 48) && decide (peak ≤ d r + 47 + 48) then .next s
    else
      match slots.find? fun r => st r == 0 with
      | some r => .next (reflSet le r 1 (peak - 24) s)
      | none =>
        let lvl (r : Nat) := signed 16 (s.g (F.LE_RX_REFL_LVL_level le r))
        match leastBy (fun r => (lvl r + 32768).toNat) (slots.filter fun r => st r == 2) with
        | some r =>
          if lvl r + 30 < level then .next (reflResidual le (reflSet le r 1 (peak - 24) s))
          else .next (State.evt (lep le 0x1A) 2 (s.bump (F.LE_RX_REFL_OVF_count le) 1))
        | none => .next (State.evt (lep le 0x1A) 2 (s.bump (F.LE_RX_REFL_OVF_count le) 1))
  else .next s

/-- REFL_CANDIDATE_END. R182: after 1 ms of adaptation (level and suppression in 0.1 dB). -/
def execReflCandidateEnd (le : Fin 2) (r : Fin 8) (level suppression : Int) (s : State) :
    Host.Outcome State Fault Refusal :=
  let le := le.val
  if s.g (F.LE_RX_REFL_STAT_state le r.val) = 1 then
    if 60 ≤ suppression then
      let s := s.setF (F.LE_RX_REFL_LVL_level le r.val) (unsigned 16 level)
      let s := s.setF (F.LE_RX_REFL_LVL_suppression le r.val) (unsigned 16 suppression)
      let s := setEcho le r.val (echoAdapted s.drawn) { s with drawn := s.drawn + 1 }
      .next (State.evt (lep le 0x1A) 0
        (reflResidual le (reflSet le r.val 2 (s.g (F.LE_RX_REFL_STAT_delay le r.val)) s)))
    else .next (reflSet le r.val 0 0 (setEcho le r.val {} s))
  else .next s

/-- REFL_LOST. R182: an ACTIVE reflection has stayed below its release level for 100 ms. -/
def execReflLost (le : Fin 2) (r : Fin 8) (s : State) : Host.Outcome State Fault Refusal :=
  let le := le.val
  if s.g (F.LE_RX_REFL_STAT_state le r.val) = 2 then
    .next (State.evt (lep le 0x1A) 1 (reflResidual le (reflSet le r.val 0 0 (setEcho le r.val {} s))))
  else .next s

/-- REFL_DELAY_MOVE. R182: the tap energy centroid lies more than 8 taps from tap 24: d_r moves by the offset. -/
def execReflDelayMove (le : Fin 2) (r : Fin 8) (offset : Int) (s : State) : Host.Outcome State Fault Refusal :=
  let le := le.val
  if s.g (F.LE_RX_REFL_STAT_state le r.val) = 2 ∧ 8 < offset.natAbs then
    let s := setEcho le r.val (echoShift offset (Tbl.get {} (s.eng le).rx.echo r.val)) s
    .next (s.setF (F.LE_RX_REFL_STAT_delay le r.val) ((s.g (F.LE_RX_REFL_STAT_delay le r.val) : Int) + offset).toNat)
  else .next s

/-- R183: the transmit side reloads: every slot keeps its delay, and the history is written anew. -/
def histInvalid (le : Nat) (s : State) : State :=
  if s.on (F.LE_ROLE_STAT_single_fibre_active le) then
    State.evt (lep le 0x1A) 3 ((s.modRx le fun r => { r with histFrom := s.now }).modTx le fun t => { t with hist := [] })
  else s

/-- R179, R183, R185: the canceller subtracts its estimate: single-fibre operation, mode not OFF, 10 µs of history. -/
def cancelling (s : State) (le : Nat) : Bool :=
  s.on (F.LE_ROLE_STAT_single_fibre_active le) && s.cur (F.LE_RX_REFL_CTRL_mode le) != 0 &&
  decide ((s.eng le).rx.histFrom + 10000 ≤ s.now)

/-- R181, R182, R185: in each 1 ms the models of the slots in use adapt, and their level and suppression are measured anew (0.1 dB;
free values). -/
def echoTrack (le : Nat) (s : State) : State :=
  if echoAdapts s le then
    reflResidual le (s.forEach (List.range 8) fun r s =>
      if s.g (F.LE_RX_REFL_STAT_state le r) = 0 then s
      else
        let s := setEcho le r (echoAdapted s.drawn) { s with drawn := s.drawn + 1 }
        if s.g (F.LE_RX_REFL_STAT_state le r) = 1 then s
        else
          let (a, s) := s.draw 16
          let (b, s) := s.draw 16
          (s.setF (F.LE_RX_REFL_LVL_level le r) a).setF (F.LE_RX_REFL_LVL_suppression le r) b)
  else s

/-- R182: the slots after a committed change of the reflection settings: pins taken up or released. -/
def reflCommit (le : Nat) (s : State) : State :=
  let pinned := s.on (F.LE_ROLE_STAT_single_fibre_active le) && s.cur (F.LE_RX_REFL_CTRL_mode le) == 2
  reflResidual le <| s.forEach (List.range 8) fun r s =>
    let st := s.g (F.LE_RX_REFL_STAT_state le r)
    let pin := pinned && s.curOn (F.LE_RX_REFL_PIN_valid le r)
    if pin && (st == 0 || st == 3) then reflSet le r 3 (s.cur (F.LE_RX_REFL_PIN_delay le r)) s
    else if st = 3 && !pin then reflSet le r 0 0 s
    else s

/-! ## The checks of the receive set (R166, R185, R188, R193) -/

/-- R185: what REFL_CONFIG rejects. -/
def reflOk (t : Tbl Nat) (le : Nat) : Bool :=
  let u := 3 * look t (F.LE_TX_PLAN_baud le)
  let lo := look t (F.LE_RX_REFL_WIN_win_min le)
  let hi := look t (F.LE_RX_REFL_WIN_win_max le)
  let pins := (List.range 8).filter fun r => look t (F.LE_RX_REFL_PIN_valid le r) == 1
  let d (r : Nat) := look t (F.LE_RX_REFL_PIN_delay le r)
  decide (lo < hi) &&
  pins.all (fun r => decide (u * lo ≤ d r) && decide (d r ≤ u * hi) && decide (r ≤ look t (F.LE_RX_REFL_CTRL_max_refl le))) &&
  pins.all fun r => pins.all fun q => r == q || decide (48 < d r - d q) || decide (48 < d q - d r)

/-- R184, R188 to R194: the ranges of the receive registers. -/
def rxRangesOk (t : Tbl Nat) (le : Nat) : Bool :=
  let between (f : Field) (lo hi : Nat) := decide (lo ≤ look t f) && decide (look t f ≤ hi)
  let dmax : Int := cdMax (rxBaud t le)
  between (F.LE_RX_LOS_CTRL_los_level le) 40 200 && between (F.LE_RX_REFL_CTRL_mu le) 0 12 &&
  between (F.LE_RX_REFL_CTRL_threshold le) 0 80 && between (F.LE_RX_REFL_WIN_win_min le) 0 1000 &&
  between (F.LE_RX_REFL_WIN_win_max le) 0 1000 && between (F.LE_RX_EQ_CTRL_singular_thr le) 128 255 &&
  between (F.LE_RX_EQ_CTRL_mu_cma le) 0 12 && between (F.LE_RX_EQ_CTRL_mu_dd le) 0 12 &&
  between (F.LE_RX_CR_CTRL_freq_bw le) 0 10 && between (F.LE_RX_NLC_CTRL_memory le) 8 63 &&
  between (F.LE_RX_NLC_CTRL_scale le) 0 128 && between (F.LE_RX_NLC_CTRL_spans le) 1 100 &&
  between (F.LE_RX_DEMAP_CTRL_llr_scale le) 1 255 && between (F.LE_FEC_CTRL_max_iter le) 2 16 &&
  decide (-50 ≤ lookI t (F.LE_FEC_DEFECT_deg_margin le)) && decide (lookI t (F.LE_FEC_DEFECT_deg_margin le) ≤ 100) &&
  decide (-50 ≤ lookI t (F.LE_FEC_DEFECT_exc_margin le)) && decide (lookI t (F.LE_FEC_DEFECT_exc_margin le) ≤ 100) &&
  allBelow 4 (fun l => decide ((lookI t (F.LE_RX_LANE_SKEW_skew le l)).natAbs ≤ 4000)) &&
  decide (clampI (-dmax) dmax (lookI t (F.LE_RX_CD_MIN_cd_min le)) ≤ clampI (-dmax) dmax (lookI t (F.LE_RX_CD_MAX_cd_max le))) &&
  !(look t (F.LE_RX_CD_CTRL_cd_mode le) == 1 && decide (dmax < (lookI t (F.LE_RX_CD_SET_cd_set le)).natAbs))

/-- R193: the conditions of NLC. -/
def nlcOk (t : Tbl Nat) (le : Nat) : Bool :=
  look t (F.LE_RX_NLC_CTRL_en le) == 0 ||
  (look t (F.LE_ROLE_line_mode le) == 0 && decide (look t (F.LE_RX_PLAN_sc_count le) ≤ 2) &&
   decide (240 ≤ look t (F.LE_RX_PLAN_baud le)) &&
   (look t (F.LE_ROLE_role le) == 1 || look t (F.LE_ROLE_role le) == 4 || look t (F.LE_ROLE_role le) == 5))

/-- R166: single-fibre plans of both directions agree, on opposite parities. -/
def sfOk (t : Tbl Nat) (le : Nat) : Bool :=
  look t (F.LE_ROLE_single_fibre le) == 0 ||
  (look t (F.LE_RX_PLAN_baud le) == look t (F.LE_TX_PLAN_baud le) &&
   look t (F.LE_RX_PLAN_sc_count le) == look t (F.LE_TX_PLAN_sc_count le) &&
   (let n := 2 ^ look t (F.LE_RX_PLAN_sc_count le)
    let tx := look t (F.LE_TX_SC_EN_en le)
    let rx := look t (F.LE_RX_SC_EN_en le)
    allBelow n fun i => allBelow n fun j => !(tx.testBit i && rx.testBit j) || i % 2 != j % 2))

/-- The fields of the receive plan (R164). -/
def rxPlanFields (le : Nat) : List Field :=
  [F.LE_RX_PLAN_fec_oh le, F.LE_RX_PLAN_sc_count le, F.LE_RX_PLAN_modulation le, F.LE_RX_PLAN_entropy le,
   F.LE_RX_PLAN_follow le, F.LE_RX_PLAN_baud le, F.LE_RX_SC_EN_en le]

/-- The CD fields whose change restarts the search (R167). -/
def rxCdFields (le : Nat) : List Field :=
  [F.LE_RX_CD_CTRL_cd_mode le, F.LE_RX_CD_MIN_cd_min le, F.LE_RX_CD_MAX_cd_max le]

/-- R166: the reason a receive set is rejected with, 0 when accepted. -/
def rxCheck (inUse t : Tbl Nat) (le tiles baudMax : Nat) (following : Bool) : Nat :=
  let native := look t (F.LE_ROLE_line_mode le) == 0
  let role := look t (F.LE_ROLE_role le)
  let baud := look t (F.LE_RX_PLAN_baud le)
  let ent := look t (F.LE_RX_PLAN_entropy le)
  firstFail
    [ (0x01, !native || (decide (120 ≤ baud) && decide (baud ≤ 1120) &&
        (look t (F.LE_RX_PLAN_modulation le) != 3 || (decide (64 ≤ ent) && decide (ent ≤ 184))))),
      (0x01, rxRangesOk t le),
      (0x02, !native || (look t (F.LE_RX_PLAN_fec_oh le) != 3 && decide (look t (F.LE_RX_PLAN_sc_count le) ≤ 5) &&
        decide (look t (F.LE_RX_PLAN_modulation le) ≤ 3))),
      (0x02, look t (F.LE_RX_REFL_CTRL_mode le) != 3),
      (0x03, !(role == 2 || role == 3) || look t (F.LE_RX_PLAN_sc_count le) == 5),
      (0x05, !native || rateOk (look t (F.LE_RX_PLAN_fec_oh le)) tiles (rxCoded t le)),
      (0x0B, !native || decide (baud ≤ baudMax)),
      (0x90, role == 0 || rxEnabled t le != 0),
      (0x94, sfOk t le),
      (0x95, !(following && differ inUse t (rxPlanFields le))),
      (0x96, nlcOk t le),
      (0x97, reflOk t le) ]

/-- R193: the coefficients of the nonlinearity compensation, computed at each COMMIT that enables it from the bulk CD in force. -/
def nlcLoad (le : Nat) (s : State) : State :=
  let c := if s.curOn (F.LE_RX_NLC_CTRL_en le) then
      Config.nlcCoefficients (signed 21 (s.g (F.LE_RX_CD_EST_cd le))) (s.cur (F.LE_RX_NLC_CTRL_spans le))
        (s.cur (F.LE_RX_NLC_CTRL_memory le))
    else []
  s.modRx le fun r => { r with nlc := c }

/-- R193: the perturbation estimate at symbol `n` of a subcarrier: the coefficients (of the triplets m, l within ±memory, in rows of
2 memory + 1) times the products of their triplets of decisions, scaled by scale ÷ 64. -/
def nlcEstimate (memory scale : Nat) (coeff : List (Int × Int)) (x : Int → ℚ × ℚ) (n : Int) : ℚ × ℚ :=
  let w := 2 * memory + 1
  let sum := (List.range (w * w)).foldl (fun (a : ℚ × ℚ) (i : Nat) =>
    let m := (i / w : Nat) - (memory : Int)
    let l := (i % w : Nat) - (memory : Int)
    let c := coeff.getD i (0, 0)
    cAdd a (cMul ((c.1 : ℚ), (c.2 : ℚ)) (cMul (cMul (x (n + m)) (x (n + l))) (cConj (x (n + m + l)))))) (0, 0)
  (sum.1 * scale / 64, sum.2 * scale / 64)

/-- R163, R165, R186, R187: the receive plan status reports the set in force, or the values that the standard sets; with cd_mode FIXED the
bulk filter holds cd_set. -/
def rxReport (le : Nat) (s : State) : State :=
  let t := s.inForce
  let s := s.setF (F.LE_RX_PLAN_STAT_entropy_active le) (entropyOf (rxModulation t le) (look t (F.LE_RX_PLAN_entropy le)))
  let s := s.setF (F.LE_RX_PLAN_STAT_modulation_active le) (rxModulation t le)
  let s := s.setF (F.LE_RX_PLAN_STAT_baud_active le) (rxBaud t le)
  let s := if s.curOn (F.LE_RX_CD_CTRL_cd_mode le) then s.setF (F.LE_RX_CD_EST_cd le) (s.cur (F.LE_RX_CD_SET_cd_set le)) else s
  nlcLoad le (s.setF (F.LE_RX_CD_RANGE_dmax le) (cdMax (rxBaud t le)))

/-- R176: the receive symbol-rate limit: 4.375 GBd × the smallest in_use of the four converters, in 0.25 GBd steps. -/
def rxBaudMax (le : Nat) (s : State) : State :=
  let v := min 1120 (35 * convWorking s le false / 2)
  let old := s.g (F.LE_RX_BAUD_MAX_baud le)
  let active := s.g (F.LE_RX_PLAN_STAT_baud_active le)
  let s := s.setF (F.LE_RX_BAUD_MAX_baud le) v
  if active ≤ old ∧ v < active then State.evt (lep le 0x18) 6 s else s

/-! ## The receive stages (R162, R163, R172, R178, R194, R235) -/

/-- R178: the skew applied to a lane (0.05 ps): the estimate plus the register, with auto_iq 0 the register alone. -/
def appliedSkew (s : State) (le l : Nat) : Int :=
  lookI s.inForce (F.LE_RX_LANE_SKEW_skew le l) +
  if s.curOn (F.LE_RX_FE_CTRL_auto_iq le) then lookI s.fields (F.LE_RX_LANE_SKEW_EST_skew le l) else 0

/-- What a receive stage does, with the settings in force. -/
inductive RxStage where
  /-- 1: the slices interleaved by each ADC, and the faulty ones whose samples their neighbours replace (R176) -/
  | slices (inUse interpolated : List (List Nat))
  /-- 2: the front end: roll-off equalisation, DC removal, applied skews, IQ imbalance (R178) -/
  | frontEnd (equalise dc iq : Bool) (skews : List Int)
  /-- 3: reflection cancellation: delay and model of each slot in use (R181) -/
  | cancel (slots : List (Nat × Echo))
  /-- 4: bulk CD compensation, ps/nm (R187) -/
  | bulkCd (cd : Int)
  /-- 5: common offset (kHz), conjugation, the subcarriers split off; timing recovery over ±100 ppm -/
  | split (offset : Int) (conjugate : Bool) (subs : List Nat)
  /-- 6: the butterfly of each subcarrier (R189) -/
  | equaliser (filters : List Butterfly)
  /-- 7: carrier phase: half-width of the pilot average and blind search (R192) -/
  | phase (w : Nat) (bps : Bool)
  /-- 8: nonlinearity compensation (R193) -/
  | nlc (memory scale : Nat) (coefficients : List (Int × Int))
  /-- 9: pilot removal, soft demapping, reassembly in code-word order (R141, R194) -/
  | demap (modulation entropy : Nat) (auto : Bool) (scale : Nat)
  /-- a stage that follows the standard of an interoperable line mode (R163) -/
  | standard (stage lineMode : Nat)
  deriving DecidableEq, Repr

/-- R168, R169: the entropy that the demapper uses now. -/
def demapEntropy (s : State) (le : Nat) : Nat := s.g (F.LE_RX_PLAN_STAT_entropy_active le)

/-- R162, R163: the stages of the receive DSP in their order; stages 3 and 8, and no others, may be disabled, and a disabled stage passes
its input unchanged. In an interoperable line mode they are, and stages 5 and 9 follow the standard. -/
def rxStages (s : State) (le : Nat) : List RxStage :=
  let t := s.inForce
  let native := lineMode t le == 0
  let subs := rxSubs s le
  [.slices ((List.range 4).map fun l => unitsWhere s le false l fun u => u.st == 3 && !u.lost)
     ((List.range 4).map fun l => unitsWhere s le false l fun u => u.st == 3 && u.faulty),
   .frontEnd (s.curOn (F.LE_RX_FE_CTRL_rolloff_eq le)) (s.curOn (F.LE_RX_FE_CTRL_dc_remove le)) (s.curOn (F.LE_RX_FE_CTRL_auto_iq le))
     ((List.range 4).map (appliedSkew s le))] ++
  (if native && cancelling s le then
    [.cancel (((List.range 8).filter fun r => decide (2 ≤ s.g (F.LE_RX_REFL_STAT_state le r))).map fun r =>
      (s.g (F.LE_RX_REFL_STAT_delay le r), Tbl.get {} (s.eng le).rx.echo r))] else []) ++
  [.bulkCd (signed 21 (s.g (F.LE_RX_CD_EST_cd le))),
   if native then .split (signed 32 (s.g (F.LE_RX_CR_COMMON_offset le))) (s.on (F.LE_RX_PLAN_STAT_spectral_inv le)) subs
   else .standard 5 (lineMode t le),
   .equaliser (subs.map (eqOf s le)), .phase (s.cur (F.LE_RX_CR_CTRL_w le)) (s.curOn (F.LE_RX_CR_CTRL_bps_en le))] ++
  (if native && s.curOn (F.LE_RX_NLC_CTRL_en le) then
    [.nlc (s.cur (F.LE_RX_NLC_CTRL_memory le)) (s.cur (F.LE_RX_NLC_CTRL_scale le)) (s.eng le).rx.nlc] else []) ++
  [if native then .demap (look t (F.LE_RX_PLAN_modulation le)) (demapEntropy s le) (s.curOn (F.LE_RX_DEMAP_CTRL_auto le))
     (s.cur (F.LE_RX_DEMAP_CTRL_llr_scale le))
   else .standard 9 (lineMode t le)]

/-- R141, R162, R172: where stage 9 takes post-pilot symbol `t` of a stream from: the subcarrier and the position in it; none where that
subcarrier is not LOCKED, whose soft bits are erasures. The order does not change with lock. -/
def softPlace (s : State) (le t : Nat) : Option (Nat × Nat) :=
  match dealTo (2 ^ rxScCount s.inForce le) (s.cur (F.LE_RX_SC_EN_en le)) t with
  | some (k, d) => if s.scOf le k = 3 then some (k, dataPosition d) else none
  | none => none

/-- Squared distance of two complex numbers. -/
def dist2 (a b : ℚ × ℚ) : ℚ := (a.1 - b.1) * (a.1 - b.1) + (a.2 - b.2) * (a.2 - b.2)

/-- R194: the max-log LLR of one bit of a received point: the least metric of the points that carry a 1 less that of the points that carry
a 0, where a point's metric is its squared distance over the noise variance less its log prior; rounded to a whole number and
saturated at ±31. A positive value favours 0. Points: the place, the bit's value there, the log prior. -/
def llr (y : ℚ × ℚ) (variance : ℚ) (points : List ((ℚ × ℚ) × Bool × ℚ)) : Int :=
  let best (b : Bool) : ℚ := ((points.filter fun p => p.2.1 == b).map fun p => dist2 y p.1 / variance - p.2.2).foldl
    (fun (a : Option ℚ) x => some (match a with | none => x | some a => min a x)) none |>.getD 0
  clampI (-31) 31 (round (best true - best false))

/-- R172, R194: the LLR that stage 9 delivers: 0 where the subcarrier is not LOCKED. -/
def softBit (locked : Bool) (y : ℚ × ℚ) (variance : ℚ) (points : List ((ℚ × ℚ) × Bool × ℚ)) : Int :=
  if locked then llr y variance points else 0

/-- R194: the noise variance: a subcarrier's pilot error variance over the current 1 ms, or llr_scale ÷ 64 with auto = 0. -/
def noiseVariance (s : State) (le : Nat) (pilotVariance : ℚ) : ℚ :=
  if s.curOn (F.LE_RX_DEMAP_CTRL_auto le) then pilotVariance else (s.cur (F.LE_RX_DEMAP_CTRL_llr_scale le) : ℚ) / 64

/-! ## Quality (R195 to R200, R258) -/

/-- R197: LQ from Q and the reference (0.01 dB) and the cycle slips, where Q is known to 0.01 dB only. -/
def lqOf (q qref : Int) (slips : Nat) : Nat := (clampI 1 255 (128 + roundDivI (16 * (q - qref)) 100 - 32 * slips)).toNat

/-- The least r in [lo, lo + 2^k) with Q < q_ref + (r + 1/2)/16 dB: 16 × (Q − q_ref) rounded to the nearest. -/
def lqSearch (err bits : Nat) (qref : Int) : Nat → Int → Int
  | 0, lo => lo
  | k + 1, lo =>
    let mid := lo + (2 : Int) ^ k - 1
    if 2 * err * fxOne > bits * ber2Fine (32 * qref + 100 * (2 * mid + 1)) then lqSearch err bits qref k lo
    else lqSearch err bits qref k (mid + 1)

/-- R196, R197: LQ from err errored bits among `bits`, by Q in dB before it is rounded for its field. -/
def lqExact (err bits : Nat) (qref : Int) (slips : Nat) : Nat :=
  let e := if err = 0 then 1 else err
  if bits ≤ 2 * e then lqOf (-32768) qref slips
  else (clampI 1 255 (128 + lqSearch e bits qref 14 (-8192) - 32 * slips)).toNat

/-- R197, R199: the reference Q of an engine for the interval that ends. -/
def qRef (s : State) (le : Nat) : Int :=
  if (s.eng le).rx.qctrl.2.1 = 1 then signed 16 (s.eng le).rx.qctrl.2.2.2
  else (qThreshold (s.g (F.LE_ROLE_STAT_line_mode_active le)) (s.cur (F.LE_RX_PLAN_fec_oh le)) : Int)

/-- The fields of the record of subcarrier `k` (R200). -/
def qualFields (le k : Nat) : List Field :=
  [F.LE_RX_QUAL_A_evm le k, F.LE_RX_QUAL_A_gsnr le k, F.LE_RX_QUAL_B_q le k, F.LE_RX_QUAL_B_lq le k,
   F.LE_RX_QUAL_B_valid le k, F.LE_RX_QUAL_B_whole le k, F.LE_RX_QUAL_B_q_bound le k, F.LE_RX_QUAL_BER_ERR_err le k,
   F.LE_RX_QUAL_BER_BITS_bits le k, F.LE_RX_QUAL_CD_cd le k, F.LE_RX_QUAL_PMD_dgd le k, F.LE_RX_QUAL_PMD_sop_rate le k,
   F.LE_RX_QUAL_FREQ_freq le k, F.LE_RX_QUAL_EVT_failed_blocks le k, F.LE_RX_QUAL_EVT_slips le k]

/-- Gives a field of the published records a value. -/
def qualPut (le : Nat) (f : Field) (v : Nat) (s : State) : State :=
  s.modRx le fun r => { r with qual := Tbl.set f.reset r.qual f.key (v % 2 ^ f.width) }

/-- A field of the published records. -/
def qualGet (s : State) (le : Nat) (f : Field) : Nat := look (s.eng le).rx.qual f

/-- R196 to R198: the record of one enabled subcarrier. With no compared bit the spec states no Q: a free value. -/
def qualRecord (le k : Nat) (q : Option Quality) (s : State) : State :=
  match q with
  | none => qualPut le (F.LE_RX_QUAL_B_lq le k) 0
      (qualPut le (F.LE_RX_QUAL_B_valid le k) 0 (qualPut le (F.LE_RX_QUAL_B_whole le k) 0 s))
  | some q =>
    if !q.part then
      qualPut le (F.LE_RX_QUAL_B_lq le k) 0
        (qualPut le (F.LE_RX_QUAL_B_valid le k) 0 (qualPut le (F.LE_RX_QUAL_B_whole le k) 0 s))
    else
      let (fv, s) := if q.bits = 0 then s.draw 16 else (0, s)
      let (qv, bound) := if q.bits = 0 then (signed 16 fv, false) else qOf q.err q.bits
      let slips := Tbl.get 0 (s.eng le).rx.slips k
      let lq := if q.bits = 0 then lqOf qv (qRef s le) slips else lqExact q.err q.bits (qRef s le) slips
      let cd := signed 21 (s.g (F.LE_RX_CD_EST_cd le)) + q.cd
      let freq := signed 32 (s.g (F.LE_RX_CR_COMMON_offset le)) + q.freq
      let s := s.modRx le fun r => { r with residual := Tbl.set 0 r.residual k q.freq }
      let vals := [min q.evm 65535, unsigned 16 (clampI (-32768) 32767 q.gsnr), unsigned 16 qv, lq,
        1, q.whole.toNat, bound.toNat, q.err, q.bits, unsigned 21 cd, min q.dgd 65535, min q.sopRate 65535,
        unsigned 32 freq, min q.failed 65535, min slips 65535]
      s.forEach ((qualFields le k).zip vals) fun e s => qualPut le e.1 e.2 s

/-- R199, R201: the published records become what the registers read. -/
def qualShow (le : Nat) (s : State) : State :=
  let mine (k : Nat) := decide (lep le 0x1D * 0x8000 + 0x800 ≤ k) && decide (k < lep le 0x1E * 0x8000)
  { s with fields := Tbl.overlay mine (s.eng le).rx.qual s.fields }

/-- R258: Q_eng and the raw FEC defects of an interval in which some stream was in SYNC. -/
def fecInterval (le : Nat) (s : State) : State :=
  let f := (s.eng le).fec
  let s := s.modFec le fun f => { f with qCorr := 0, qBits := 0, qFail := 0, qSync := false }
  if !f.qSync then s
  else
    let (fv, s) := if f.qBits = 0 then s.draw 16 else (0, s)
    let q := if f.qBits = 0 then signed 16 fv else (qOf f.qCorr f.qBits).1
    let th : Int := qThreshold (s.g (F.LE_ROLE_STAT_line_mode_active le)) (s.cur (F.LE_RX_PLAN_fec_oh le))
    let ucb := s.cur (F.LE_FEC_DEFECT_exc_ucb le)
    let deg := decide (q < th + 10 * lookI s.inForce (F.LE_FEC_DEFECT_deg_margin le))
    let exc := decide (q < th + 10 * lookI s.inForce (F.LE_FEC_DEFECT_exc_margin le)) || (ucb != 0 && decide (ucb ≤ f.qFail))
    let s := s.setF (F.LE_FEC_QENG_q_eng le) (unsigned 16 q)
    let s := (s.setB (F.LE_FEC_QENG_deg_raw le) deg).setB (F.LE_FEC_QENG_exc_raw le) exc
    State.level (lep le 0x30) 2 exc (State.level (lep le 0x30) 1 deg s)

/-- R177: in each 1 ms of a running converter, samples of each lane reach full scale; how many, the signal decides. -/
def overTake (le : Nat) (s : State) : State :=
  if s.g (F.LE_RX_STATE_state le) = 0 then State.level (lep le 0x19) 2 false s
  else
    let n (l : Nat) := Config.overloads (s.drawn + l)
    let s' := s.forEach (List.range 4) fun l t => t.bump (F.LE_RX_ADC_OVR_count le l) (n l)
    State.level (lep le 0x19) 2 ((List.range 4).any fun l => decide (0 < n l)) { s' with drawn := s.drawn + 4 }

/-- R178: an estimate of the front end reports; its value is free. -/
def estimatePut (f : Field) (s : State) : State :=
  let (v, s) := s.draw f.width
  s.setF f v

/-- R178: the front end's estimates of lane skew and IQ imbalance, measured anew in each 1 ms (free values). -/
def frontEstimate (le : Nat) (s : State) : State :=
  if s.g (F.LE_RX_STATE_state le) = 0 then s
  else
    let s := s.forEach (List.range 4) fun l s => estimatePut (F.LE_RX_LANE_SKEW_EST_skew le l) s
    let s := estimatePut (F.LE_RX_IQ_EST_X_gain le) s
    let s := estimatePut (F.LE_RX_IQ_EST_X_phase le) s
    let s := estimatePut (F.LE_RX_IQ_EST_Y_gain le) s
    estimatePut (F.LE_RX_IQ_EST_Y_phase le) s

/-- R171, R191: a residual offset beyond ±50 MHz counts as loss of pilots. -/
def residualLimit (le : Nat) (s : State) : State :=
  s.forEach (List.range 32) fun k s =>
    if s.scOf le k = 3 ∧ 50000 < (Tbl.get 0 (s.eng le).rx.residual k).natAbs then pilotsLost le k s else s

/-- R208: a leaf shifts its upstream signal by the negative of its tracked common offset, from each quality interval on. -/
def upstreamShift (le : Nat) (s : State) : State :=
  if s.role le = 3 then s.modP2 le fun p => { p with shift := -signed 32 (s.g (F.LE_RX_CR_COMMON_offset le)) } else s

/-- QUAL_INTERVAL. R195 to R199, R258: the records of every subcarrier are published together; settings of LEn_RX_QUAL_CTRL apply from
the next interval. DESIGN CHOICE (log 195): of subcarriers with the same lowest LQ, LEn_RX_LQ_MIN names the lowest. -/
def execQualInterval (le : Fin 2) (q : List (Fin 32 × Quality)) (s : State) : Host.Outcome State Fault Refusal :=
  let le := le.val
  let subs := rxSubs s le
  let s := s.forEach subs fun k s => qualRecord le k ((q.find? fun e => e.1.val == k).map (·.2)) s
  let s := s.forEach ((List.range 32).filter fun k => !subs.contains k) fun k s =>
    s.forEach (qualFields le k) fun f s => qualPut le f 0 s
  let s := s.modRx le fun r => { r with slips := [] }
  let s := s.incWrap (F.LE_RX_QUAL_SEQ_seq le) 1
  let t0 := s.now / 1000000 * 1000000 - 1000000
  let s := (s.setF (F.LE_RX_QUAL_T0_LO_t le) t0).setF (F.LE_RX_QUAL_T0_HI_t le) (t0 / 2 ^ 32)
  let s := match leastBy (fun k => qualGet s le (F.LE_RX_QUAL_B_lq le k)) subs with
    | some k => (s.setF (F.LE_RX_LQ_MIN_index le) k).setF (F.LE_RX_LQ_MIN_lq le) (qualGet s le (F.LE_RX_QUAL_B_lq le k))
    | none => s
  let (hold, _, alarm, _) := (s.eng le).rx.qctrl
  let s := if hold = 1 then s else qualShow le s
  let s := State.evt (lep le 0x1C) 0 s
  let low := subs.any fun k => qualGet s le (F.LE_RX_QUAL_B_valid le k) == 1 &&
    decide (qualGet s le (F.LE_RX_QUAL_B_lq le k) < alarm)
  let s := if low then State.evt (lep le 0x1C) 1 s else s
  let s := s.modRx le fun r => { r with qctrl := (s.g (F.LE_RX_QUAL_CTRL_hold le), s.g (F.LE_RX_QUAL_CTRL_ref_mode le),
    s.g (F.LE_RX_QUAL_CTRL_lq_alarm le), s.g (F.LE_RX_QUAL_CTRL_q_ref le)) }
  let s := upstreamShift le (trackCommon le (frontEstimate le (overTake le (echoTrack le (fecInterval le s)))))
  .next (residualLimit le s)

end Sys2Proof.Machine
end

