-- ==== Sys2Proof/Machine/Framer.lean ====
section
/-! DEFINITION. The Gweano line frame (08_gweano_line_frame.md): header, scrambler, alignment, frame count, overhead
channel, containers and their groups, and cells. The member-state protocol and defects are in Machine/Mapping.lean. -/
namespace Sys2Proof.Machine

/-! ## Check words and the scrambler -/

/-- CRC-16 with the parameters of R211, used by HCS, HEC and burst headers. -/
def crc16 (b : List Byte) : Nat := crcL 16 0x1021 0xFFFF b

/-- CRC-8 of a JC word (R279). -/
def crc8 (b : List Byte) : Nat := crcL 8 0x07 0 b

/-- R267: `k` steps of the scrambler x^31 + x^28 + 1; the byte they give, first bit most significant. -/
def scrByte : Nat → Nat → Nat → Nat × Nat
  | 0, reg, acc => (acc, reg)
  | k + 1, reg, acc => let (b, r) := prbsStep 31 28 reg; scrByte k r (2 * acc + b)

/-- R267: bytes XORed with the PRBS from a register value on. -/
def scramble : Nat → List Byte → List Byte
  | _, [] => []
  | reg, b :: t => let (x, r) := scrByte 8 reg 0; (b ^^^ BitVec.ofNat 8 x) :: scramble r t

/-- R267: the register at byte 6 of every frame. -/
def scrSeed : Nat := 0x7FFFFFFF
/-- R267: the register at byte 66,240, where part B of the overhead channel begins (529,872 steps later). -/
def scrSeedB : Nat := 0x19356191

/-- R266: the alignment word. -/
def faw : List Byte := [0xB4, 0x3D, 0x8E, 0x71, 0x2A, 0xD5]

/-- Bits in which the first six bytes differ from the alignment word. -/
def fawErrors (hdr : List Byte) : Nat :=
  ((hdr.take 6).zip faw).foldl (fun a e => a + popcount 8 (e.1 ^^^ e.2).toNat) 0

/-- R266: the HCS of a descrambled header is right. -/
def hcsOk (h : List Byte) : Bool := beNat h 62 2 == crc16 ((h.drop 6).take 56)

/-- R267: a received header with its scrambling taken off. -/
def descramble (hdr : List Byte) : List Byte := hdr.take 6 ++ scramble scrSeed (hdr.drop 6)

/-! ## Frame rate, overhead capacity (R274, R278) -/

/-- Bits of one GLF frame (R269). -/
def frameBits : Nat := 532480

/-- The frame period of a coded rate in ns, as a fraction (R278: GLF rate ÷ 532,480). -/
def framePeriod (fecOh : Nat) (coded : Nat × Nat) : Nat × Nat :=
  (frameBits * 10 * coded.2 * overhead fecOh, coded.1 * 1000)

/-- R274: SEG_CAP of a stream of one subcarrier of a transmit set. -/
def segCap (t : Tbl Nat) (le : Nat) : Nat :=
  let c := codedRate (look t (F.LE_TX_PLAN_baud le)) (look t (F.LE_TX_PLAN_sc_count le)) 1
    (look t (F.LE_TX_PLAN_modulation le)) (look t (F.LE_TX_PLAN_entropy le))
  let p := framePeriod (look t (F.LE_TX_PLAN_fec_oh le)) c
  let f := if p.1 = 0 then 0 else 125000 * p.2 / p.1
  min 255 (f * 270 / 150)

/-! ## Containers (R276) -/

/-- A slot byte of a transmit (`rx` false) or receive slot map. -/
def slotOf (t : Tbl Nat) (le : Nat) (rx : Bool) (q n : Nat) : Nat :=
  look t (if rx then F.LE_GLF_RX_SLOT_slots le (q / 8) (q % 8) (n / 4) else F.LE_GLF_TX_SLOT_slots le (q / 8) (q % 8) (n / 4))
    / 256 ^ (n % 4) % 256

/-- Slots of container `c` in a map of its stream. -/
def slotsOf (t : Tbl Nat) (le : Nat) (rx : Bool) (c : Nat) : Nat :=
  let q := look t (F.LE_GLF_CONT_CFG_stream le c)
  ((List.range 256).filter fun n => slotOf t le rx q n == c).length

/-- Whether container `c` is valid in given contents. -/
def contValid (t : Tbl Nat) (le c : Nat) : Bool := look t (F.LE_GLF_CONT_CFG_valid le c) == 1

/-- R276: the valid containers of stream `q`, in rank order. -/
def ranked (t : Tbl Nat) (le q : Nat) : List Nat :=
  (List.range 64).filter fun c => contValid t le c && look t (F.LE_GLF_CONT_CFG_stream le c) == q

/-- R276: each container's rank in force is reported. -/
def rankReport (le : Nat) (s : State) : State :=
  s.forEach (List.range 32) fun q s =>
    s.forEach ((ranked s.inForce le q).zipIdx) fun e s => s.setF (F.LE_GLF_CONT_AUX_rank le e.1) e.2

/-- The register word LEn_GLF_CONTc_CFG in force. -/
def cfgWord (t : Tbl Nat) (le c : Nat) : Nat :=
  look t (F.LE_GLF_CONT_CFG_valid le c) * 2 ^ 31 + look t (F.LE_GLF_CONT_CFG_type le c) * 2 ^ 30 +
  look t (F.LE_GLF_CONT_CFG_kind le c) * 2 ^ 29 + look t (F.LE_GLF_CONT_CFG_stream le c) * 2 ^ 24 +
  look t (F.LE_GLF_CONT_CFG_cell_size le c) * 2 ^ 22 + look t (F.LE_GLF_CONT_CFG_port le c) * 2 ^ 16

/-- R277: the digest of a slot map and the CFG words. -/
def mapDigest (t : Tbl Nat) (le : Nat) (rx : Bool) (q : Nat) : Nat :=
  crc32c (((List.range 256).map fun n => BitVec.ofNat 8 (slotOf t le rx q n)) ++
    (List.range 64).flatMap fun c => toLe 4 (cfgWord t le c))

/-- R281: cell_size in bytes. -/
def cellBytes (t : Tbl Nat) (le c : Nat) : Nat := 64 * 2 ^ look t (F.LE_GLF_CONT_CFG_cell_size le c)

/-! ## Overhead channel (R272 to R274) -/

/-- R274: queues an envelope on stream `q` behind those of its own and of higher precedence. -/
def ohPut (le q prec type : Nat) (body : List Byte) (s : State) : State :=
  let e : Env := { prec := prec, bytes := BitVec.ofNat 8 type :: BitVec.ofNat 8 body.length :: body }
  s.modGlf le fun g =>
    let l := Tbl.get [] g.oh q
    { g with oh := Tbl.set [] g.oh q (l.filter (fun x => x.prec ≤ prec) ++ [e] ++ l.filter (fun x => prec < x.prec)) }

/-- R272: the overhead bytes of one frame: the rest of the envelope begun before, then waiting envelopes, padded to 366;
with them the offset of the first envelope that begins (0x1FF for none), what is left, and how many began. -/
def ohFill (rest : List Byte) (q : List Env) : List Byte × Nat × List Byte × List Env :=
  let rec take (acc : List Byte) : List Env → List Byte × List Env
    | [] => (acc, [])
    | e :: t => if 366 ≤ acc.length then (acc, e :: t) else take (acc ++ e.bytes) t
  let (all, left) := take rest q
  let ohp := if rest.length < 366 && left.length < q.length then rest.length else 0x1FF
  (all.take 366 ++ List.replicate (366 - all.length) 0, ohp, all.drop 366, left)

/-- R272: envelopes read from channel bytes: those that end (type, length and body), and the bytes of one that does not. -/
def ohParse : Nat → List Byte → List (List Byte) × List Byte
  | 0, b => ([], b)
  | _, [] => ([], [])
  | _, [b] => if b = 0 then ([], []) else ([], [b])
  | k + 1, b :: l :: t =>
    if b = 0 then ohParse k (l :: t)
    else if t.length < l.toNat then ([], b :: l :: t)
    else let (n, r) := ohParse k (t.drop l.toNat); ((b :: l :: t.take l.toNat) :: n, r)

/-- R274: the place of an envelope type in the order of precedence. -/
def ohPrec (type : Nat) : Nat :=
  match type with
  | 3 => 1 | 4 => 2 | 2 => 3 | 1 => 4 | 5 => 6 | _ => 5

/-- R29: envelope types that REGEN and LOOP forward as addressed to the far end: MEMBER_STATE, SLOT_MAP and key exchange. -/
def ohForwarded (type : Nat) : Bool := type == 4 || type == 5 || (0x10 ≤ type && type ≤ 0x1F)

/-- R29, R36: the engine that sends the frames of engine `r` again: in REGEN the other one, in LOOP itself. -/
def relayTo (s : State) (r : Nat) : Option Nat :=
  match s.role r with
  | 4 => some (1 - r)
  | 5 => some r
  | _ => none

/-- R29: an envelope received by engine `r` joins those its regenerator sends. -/
def ohForward (r : Nat) (e : List Byte) (s : State) : State :=
  match relayTo s r with
  | some le => if ohForwarded (byteAt e 0) then ohPut le 0 (ohPrec (byteAt e 0)) (byteAt e 0) (e.drop 2) s else s
  | none => s

/-- R272: the overhead channel of a received frame: `h` its header when valid. -/
def ohReceive (le k : Nat) (h : Option (List Byte)) (chan : List Byte) (s : State) : State :=
  let part := Tbl.get [] (s.eng le).glf.part k
  let fuel := part.length + chan.length + 1
  let ohp := match h with | some h => leNat h 14 2 % 512 | none => 0x1FF
  let (es, rest, drop) :=
    if ohp ≠ 0x1FF then
      let (n1, left) := if part.isEmpty then ([], []) else ohParse fuel (part ++ chan.take ohp)
      let (n2, r) := ohParse fuel (chan.drop ohp)
      (n1 ++ n2, r, !left.isEmpty)
    else if part.isEmpty then ([], [], false)
    else let (n, r) := ohParse fuel (part ++ chan); (n, r, false)
  let s := s.modGlf le fun g => { g with part := Tbl.set [] g.part k rest }
  let s := if drop then s.bump (F.LE_GLF_CNT_count le 2) 1 else s
  let s := s.forEach es (ohForward le)
  if es.isEmpty then s else State.datapath s (1071 + 48 * le) es.length

/-! ## Transmission of a frame (R265 to R268, R275, R277) -/

/-- A defect of engine `le` is declared for a stream, container or leaf (0 for an engine's defect). -/
def declared (s : State) (le d x : Nat) : Bool := Tbl.get false (s.eng le).glf.declared (d * 1024 + x)

/-- R275, R299: the receive side of stream `k` has LOS, LOL, LOF, LOM or AIS declared, or FEC_EXC where it counts as LOF. -/
def rxDefect (s : State) (le k : Nat) : Bool :=
  declared s le 0 0 || declared s le 1 0 || declared s le 2 k || declared s le 3 k || declared s le 4 k ||
  (declared s le 7 0 && s.on F.DEF_CA_fec_exc_ca)

/-- R36, R268: the engine whose frames engine `le` regenerates, in REGEN and LOOP. -/
def regenSource (s : State) (le : Nat) : Option Nat :=
  match s.role le with
  | 4 => some (1 - le)
  | 5 => some le
  | _ => none

/-- R36: what times the transmitter of an engine: the line-recovered clock of the engine it regenerates, else the DPLL selection. -/
inductive Timing where
  | dpll
  | line (le : Nat)
  deriving DecidableEq, Repr

/-- R36 -/
def txTiming (s : State) (le : Nat) : Timing :=
  match regenSource s le with
  | some r => .line r
  | none => .dpll

/-- The streams on which an engine sends frames: one, 32 in HUB, the continuous upstream of a LEAF (R204, R220). -/
def txStreams (s : State) (le : Nat) : List Nat :=
  match s.role le with
  | 0 => []
  | 2 => (List.range 32).filter fun k => (s.cur (F.LE_TX_SC_EN_en le)).testBit k
  | 3 => if s.g (F.LE_P2MP_LEAF_STAT_state le) = 6 then [s.cur (F.LE_P2MP_LEAF_CTRL_cont_sc le)] else []
  | _ => [0]

/-- R266: the 64 header bytes, before scrambling. -/
def glfHeader (fc gm stat ohp : Nat) (oha : List Byte) : List Byte :=
  let body := toLe 4 fc ++ toLe 2 gm ++ [BitVec.ofNat 8 stat, 0] ++ toLe 2 ohp ++ oha.take 46
  faw ++ body ++ toBe 2 (crc16 body)

/-- R207, R215: a map segment waiting to be sent takes the stamp of the frame that will hold it. -/
def restamp (now : Nat) (e : Env) : Env :=
  if e.prec = 4 then
    let body := (e.bytes.drop 2).take (e.bytes.length - 6)
    let body := body.take 4 ++ toLe 8 now ++ body.drop 12
    { e with bytes := e.bytes.take 2 ++ body ++ toLe 4 (crc32c body) }
  else e

/-- R265 to R268, R272, R275, R277: stream `q` sends the frame of count `fc`. -/
def glfSend (le q fc gm stat : Nat) (aisFrame : Bool) (s : State) : State :=
  let s := if fc % 256 = 0 && !aisFrame && (regenSource s le).isNone then
      let d := mapDigest s.inForce le false q
      ohPut le q 6 0x05 (toLe 4 d ++ toLe 4 (crc32c (toLe 4 d))) s
    else s
  let g := (s.eng le).glf
  let (chan, ohp, rest, left) := if aisFrame then (List.replicate 366 0, 0x1FF, Tbl.get [] g.ohRest q, Tbl.get [] g.oh q)
    else ohFill (Tbl.get [] g.ohRest q) ((Tbl.get [] g.oh q).map (restamp s.now))
  let began := (Tbl.get [] g.oh q).length - left.length
  let h := glfHeader fc gm stat ohp (chan.take 46)
  let bytes := h.take 6 ++ scramble scrSeed (h.drop 6) ++ scramble scrSeedB (chan.drop 46)
  let s := s.modGlf le fun g => { g with
    ohRest := Tbl.set [] g.ohRest q rest, oh := Tbl.set [] g.oh q left, sent := Tbl.set [] g.sent q bytes }
  let s := if began = 0 then s else State.datapath s (1070 + 48 * le) began
  State.datapath s (1064 + 48 * le) 1

/-- R457: the quality level sent in an engine's frames: DNU (DUS) where its own line-recovered clock is selected. -/
def sentQl (s : State) (le : Nat) : Nat :=
  let k := s.g F.SYN_STAT_selected
  if k = 2 + 2 * le ∨ k = 3 + 2 * le then 0xF else s.g F.SYN_STAT_output_ql

/-- R275: the engine whose frames engine `le` regenerates has LOS, LOL or LOF declared: AIS frames take their place. -/
def regenBroken (s : State) (le : Nat) : Bool :=
  match regenSource s le with
  | some r => s.role le == 4 && (declared s r 0 0 || declared s r 1 0 || declared s r 2 0)
  | none => false

/-- R36: the received frame that engine `le` sends next in REGEN or LOOP. -/
def relayHead (s : State) (le : Nat) : Option Relay :=
  if regenBroken s le then none else (s.eng le).glf.relay.head?

/-- R268, R275: the count of the frame sent next. -/
def nextFc (s : State) (le : Nat) : Nat :=
  match relayHead s le with
  | some f => f.fc
  | none => (s.eng le).tx.fc.toNat

/-- R36: a frame is due: in REGEN and LOOP one that has been received, or an AIS frame. -/
def frameReady (s : State) (le : Nat) : Bool :=
  s.runState le == 2 && s.g (F.LE_ROLE_STAT_line_mode_active le) == 0 && !(txStreams s le).isEmpty &&
  ((regenSource s le).isNone || regenBroken s le || (relayHead s le).isSome)

/-- R266, R275: STAT of the frame sent next: the engine's own defects and quality level (R455, R457), or those of the frame that is
regenerated. -/
def nextStat (s : State) (le : Nat) (ais : Bool) : Nat :=
  match relayHead s le with
  | some f => if s.role le = 4 then
        (s.on (F.LE_GLF_CTRL_force_bdi le) || f.stat.testBit 7).toNat * 128 + (ais || f.stat.testBit 6).toNat * 64 + f.stat % 16
      else (s.on (F.LE_GLF_CTRL_force_bdi le) || (List.range 32).any (rxDefect s le)).toNat * 128 + ais.toNat * 64 + sentQl s le
  | none => (s.on (F.LE_GLF_CTRL_force_bdi le) || (List.range 32).any (rxDefect s le)).toNat * 128 + ais.toNat * 64 + sentQl s le

/-- R266, R268, R285: GM of the frame sent next on stream `q`. -/
def nextGm (s : State) (le q : Nat) : Nat :=
  match relayHead s le, regenSource s le with
  | some f, _ => f.gm
  | none, some r => s.g (F.LE_GLF_RX_ID_bundle_id r 0) * 16 + s.g (F.LE_GLF_RX_ID_member_id r 0)
  | none, none => s.cur (F.LE_GLF_ID_bundle_id le q) * 16 + s.cur (F.LE_GLF_ID_member_id le q)

/-- R157: during a reload the frames of the framer are discarded and counted. -/
def discardCount (le n : Nat) (s : State) : State :=
  if s.on (F.LE_TX_PLAN_STAT_reload_busy le) then s.modTx le fun t => { t with discarded := t.discarded + n } else s

/-- R268, R273: every stream of a RUNNING engine in the native line mode sends one frame of the same count; with it go the boundary
effects of R147 and R150. -/
def glfFrameTx (le : Nat) (s : State) : State :=
  if !frameReady s le then s
  else
    let s := trimsTake le true (scaleBoundary le (maskBoundary le s))
    let ais := s.on (F.LE_GLF_CTRL_force_ais le) || regenBroken s le
    let fc := nextFc s le
    let stat := nextStat s le ais
    let gm := nextGm s le
    let ann := s.on (F.LE_TX_PLAN_STAT_timed_pending le) && fc % 16 == 0
    let b := toLe 4 (look s.buffer (F.LE_TX_PLAN_entropy le)) ++ toLe 4 (look s.buffer (F.LE_TX_PLAN_AT_frame le))
    let relayed := (relayHead s le).isSome
    let s := if ann then s.forEach (txStreams s le) fun q t => ohPut le q 1 0x03 (b ++ toLe 4 (crc32c b)) t else s
    let s' := s.forEach (txStreams s le) fun q t => glfSend le q fc (gm q) stat ais t
    let s' := s'.modTx le fun t => { t with fc := BitVec.ofNat 32 (fc + 1) }
    let s' := s'.modGlf le fun g => { g with aisSent := ais }
    let s' := if relayed then s'.modGlf le fun g => { g with relay := g.relay.drop 1 } else s'
    discardCount le (txStreams s le).length (s'.setF (F.LE_GLF_TX_FC_fc le) fc)

/-! ## Alignment (R269 to R271) -/

/-- R269: the candidates after a header at `pos` in HUNT or CONFIRM, and whether one is displaced; `v` its frame count
where the header is valid. -/
def candStep (cs : List Cand) (pos : Nat) (v : Option Nat) : List Cand × Bool :=
  let live := cs.filter fun c => pos ≤ c.pos
  match live.find? (fun c => c.pos == pos), v with
  | some c, none => (live.filter fun x => x != c, false)
  | some c, some fc =>
    let n := if fc = c.fc then c.seen + 1 else 1
    (live.map fun x => if x == c then { pos := pos + frameBits, fc := (fc + 1) % 2 ^ 32, seen := n } else x, false)
  | none, none => (live, false)
  | none, some fc =>
    let new : Cand := { pos := pos + frameBits, fc := (fc + 1) % 2 ^ 32, seen := 1 }
    if 4 ≤ live.length then (live.drop 1 ++ [new], true) else (live ++ [new], false)

/-- R275: a header bit that has differed from the value held in 3 valid headers in a row replaces it. -/
def run3 (held b : Bool) (run : Nat) : Bool × Nat :=
  if b = held then (held, 0) else if run = 2 then (b, 0) else (held, run + 1)

/-- R271: the frame count of a valid header against the predicted one. -/
def fcTrack (le k fc : Nat) (s : State) : State :=
  let g := (s.eng le).glf
  let pred := Tbl.get 0 g.pred k
  let run := Tbl.get 0 g.mfRun k
  let put (p r : Nat) (s : State) := s.modGlf le fun g =>
    { g with pred := Tbl.set 0 g.pred k (p % 2 ^ 32), mfRun := Tbl.set 0 g.mfRun k r }
  match Tbl.get 3 g.mf k with
  | 0 => if fc = pred then put (pred + 1) 0 s else put (pred + 1) 1 (setMf le k 1 false s)
  | 1 => if fc = pred then put (pred + 1) 0 (setMf le k 0 false s)
         else if run = 2 then put (fc + 1) 0 (setMf le k 2 true s) else put (pred + 1) (run + 1) s
  | 2 => if fc = pred then
           (if run = 1 then State.evt (lep le 0x34) 5 ((put (pred + 1) 0 (setMf le k 0 false s)).bump (F.LE_GLF_CNT_count le 10) 1)
            else put (pred + 1) (run + 1) s)
         else put (fc + 1) 0 s
  | _ => s

/-- R266, R275, R286: what a valid header of a stream in frame carries. -/
def headerTake (le k : Nat) (h : List Byte) (s : State) : State :=
  let gm := leNat h 10 2
  let stat := byteAt h 12
  let s := (s.setF (F.LE_GLF_RX_ID_bundle_id le k) (gm / 16)).setF (F.LE_GLF_RX_ID_member_id le k) (gm % 16)
  let idb := s.cur (F.LE_GLF_ID_bundle_id le k)
  let bad := idb != 0 && (gm / 16 != idb || gm % 16 != s.cur (F.LE_GLF_ID_member_id le k))
  let wasBad := Tbl.get false (s.eng le).glf.idBad k
  let g := (s.eng le).glf
  let ql := stat % 16
  let same := ql == Tbl.get 0 g.qlNew k
  let qrun := if ql = Tbl.get 0 g.ql k then 0 else if same then Tbl.get 0 g.qlRun k + 1 else 1
  let newQl := if 3 ≤ qrun then ql else Tbl.get 0 g.ql k
  let (ais, arun) := run3 (Tbl.get false g.ais k) (stat.testBit 6) (Tbl.get 0 g.aisRun k)
  let (bdi, brun) := run3 (Tbl.get false g.bdi k) (stat.testBit 7) (Tbl.get 0 g.bdiRun k)
  let s := s.modGlf le fun g => { g with
    idBad := Tbl.set false g.idBad k bad, ql := Tbl.set 0 g.ql k newQl, qlNew := Tbl.set 0 g.qlNew k ql,
    qlRun := Tbl.set 0 g.qlRun k (if 3 ≤ qrun then 0 else qrun), ais := Tbl.set false g.ais k ais,
    aisRun := Tbl.set 0 g.aisRun k arun, bdi := Tbl.set false g.bdi k bdi, bdiRun := Tbl.set 0 g.bdiRun k brun }
  let s := if k = 0 then
      ((s.setF (F.LE_GLF_STAT_ql le) newQl).setB (F.LE_GLF_STAT_ais le) ais).setB (F.LE_GLF_STAT_bdi le) bdi
    else s
  if bad && !wasBad then State.evt (lep le 0x34) 6 s else s

/-- R279: the JC word's CRC-8 is right. -/
def jcOk (w : Nat) : Bool := crc8 (toBe 3 (w / 256)) == w % 256

/-- R279, R280: Cn and the fraction of a received JC word, after correction of a single bit: none when uncorrectable or with a Cn beyond
the capacity; and whether a bit was corrected. -/
def jcRead (w cap : Nat) : Option (Nat × Nat) × Bool :=
  let cn (w : Nat) := let n := w / 2 ^ 15; if cap < n then none else some (n, w / 256 % 128)
  if jcOk w then (cn w, false)
  else match (List.range 32).find? fun i => jcOk (w ^^^ 2 ^ i) with
    | some i => (cn (w ^^^ 2 ^ i), true)
    | none => (none, false)

/-- What group `g` keeps beside its registers. -/
def grpSt (s : State) (g : Nat) : GrpSt := Tbl.get {} s.grp g
/-- Changes what group `g` keeps. -/
def modGrp (g : Nat) (f : GrpSt → GrpSt) (s : State) : State := { s with grp := Tbl.set {} s.grp g (f (grpSt s g)) }

/-- Group entry `g` is valid in given contents. -/
def grpValid (t : Tbl Nat) (g : Nat) : Bool := look t (F.MAP_GRP_CTRL_valid (g / 32) (g % 32)) == 1
/-- Group entry `g` is a protection pair. -/
def grpPair (t : Tbl Nat) (g : Nat) : Bool := look t (F.MAP_GRP_CTRL_kind (g / 32) (g % 32)) == 1

/-- R287: the engine and container of member `m` of a group, where configured. -/
def grpMember (t : Tbl Nat) (g m : Nat) : Option (Nat × Nat) :=
  let p := g / 32
  let q := g % 32
  if m % 2 = 0 then
    if look t (F.MAP_GRP_MEM_valid0 p q (m / 2)) = 1 then
      some (look t (F.MAP_GRP_MEM_engine0 p q (m / 2)), look t (F.MAP_GRP_MEM_cont0 p q (m / 2)))
    else none
  else if look t (F.MAP_GRP_MEM_valid1 p q (m / 2)) = 1 then
    some (look t (F.MAP_GRP_MEM_engine1 p q (m / 2)), look t (F.MAP_GRP_MEM_cont1 p q (m / 2)))
  else none

/-- The valid group a container belongs to, and its member number. -/
def groupOf (t : Tbl Nat) (le c : Nat) : Option (Nat × Nat) :=
  ((List.range 64).filter (grpValid t)).findSome? fun g =>
    ((List.range 16).find? fun m => grpMember t g m == some (le, c)).map fun m => (g, m)

/-- R276, R292: the slots of a container in a direction; of a CONCAT group, those of its active members. -/
def unitSlots (s : State) (rx : Bool) (le c : Nat) : Nat :=
  match groupOf s.inForce le c with
  | some (g, _) =>
    if grpPair s.inForce g then slotsOf s.inForce le rx c
    else
      let act := if rx then (grpSt s g).sink else (grpSt s g).src
      ((List.range 16).filter (fun m => act.testBit m)).foldl (fun n m => match grpMember s.inForce g m with
        | some (e, c') => n + slotsOf s.inForce e rx c'
        | none => n) 0
  | none => slotsOf s.inForce le rx c

/-- R280: the JC words of a delivered frame, by rank. -/
def jcReceive (le k : Nat) (jc : List (Fin 32 × Word)) (s : State) : State :=
  s.forEach jc fun e s =>
    match (ranked s.inForce le k)[e.1.val]? with
    | none => s
    | some c =>
      if s.cur (F.LE_GLF_CONT_CFG_type le c) ≠ 1 then s
      else
        let (cn, fixed) := jcRead e.2.toNat (unitSlots s true le c * 256)
        let s := if fixed then s.bump (F.LE_GLF_CNT_count le 3) 1 else s
        match cn with
        | some n => s.modGlf le fun g =>
          { g with cont := Tbl.set {} g.cont c { Tbl.get {} g.cont c with cn := n.1, cnr := n.2, jcBad := false } }
        | none =>
          let s := s.modGlf le fun g => { g with cont := Tbl.set {} g.cont c { Tbl.get {} g.cont c with jcBad := true } }
          State.evt (lep le 0x34) 8 (State.loss (F.LE_GLF_CNT_count le 4) 1 s)

/-- R280: a group's Cn: that of the lowest active member whose word passed. -/
def groupCn (s : State) (g : Nat) : Option Nat :=
  (List.range 16).findSome? fun m => match grpMember s.inForce g m with
    | some (e, c) =>
      let k := Tbl.get {} (s.eng e).glf.cont c
      if (grpSt s g).sink.testBit m && !k.jcBad then some k.cn else none
    | none => none

/-- R36, R268: a frame delivered by engine `r` waits for its regenerator; a header that is not valid gives the predicted FC with the
GM and STAT held. -/
def relayPut (r k fc : Nat) (h : Option (List Byte)) (s : State) : State :=
  match relayTo s r with
  | some le =>
    if k ≠ 0 then s
    else
      let g := (s.eng r).glf
      let f : Relay := match h with
        | some h => { fc := fc, gm := leNat h 10 2, stat := byteAt h 12 }
        | none => { fc := fc, gm := s.g (F.LE_GLF_RX_ID_bundle_id r 0) * 16 + s.g (F.LE_GLF_RX_ID_member_id r 0),
                    stat := (Tbl.get false g.bdi 0).toNat * 128 + (Tbl.get false g.ais 0).toNat * 64 + Tbl.get 0 g.ql 0 }
      s.modGlf le fun g => { g with relay := g.relay ++ [f] }
  | none => s

/-- R169, R270: a candidate is confirmed. -/
def inFrame (le k fc : Nat) (s : State) : State :=
  let s := s.modGlf le fun g => { g with
    oof := Tbl.set false g.oof k false, bad := Tbl.set 0 g.bad k 0, cand := Tbl.set [] g.cand k [],
    part := Tbl.set [] g.part k [], pred := Tbl.set 0 g.pred k fc }
  let s := if k = 0 then s.setF (F.LE_GLF_STAT_candidates le) 0 else s
  followInFrame le (setMf le k 0 false (setFrame le k 2 s))

/-- R269 to R271: a header of stream `k` at bit position `pos`, with the frame's part B of the overhead channel
(descrambled) and its JC words. -/
def glfJudge (le k pos : Nat) (hdr partB : List Byte) (jc : List (Fin 32 × Word)) (s : State) : State :=
  let h := descramble hdr
  let fc := leNat h 6 4
  let st := Tbl.get 0 (s.eng le).glf.frame k
  if st ≤ 1 then
    let v := if fawErrors hdr = 0 && hcsOk h then some fc else none
    let (cs, ovf) := candStep (Tbl.get [] (s.eng le).glf.cand k) pos v
    let s := s.modGlf le fun g => { g with cand := Tbl.set [] g.cand k cs }
    let s := if k = 0 then s.setF (F.LE_GLF_STAT_candidates le) cs.length else s
    let s := if ovf then s.bump (F.LE_GLF_CNT_count le 1) 1 else s
    let s := if v.isSome && k = 0 then s.setF (F.LE_GLF_RX_FC_fc le) fc else s
    match cs.find? fun c => 3 ≤ c.seen with
    | some c => relayPut le k c.fc (some h) (inFrame le k c.fc s)
    | none => setFrame le k (if cs.isEmpty then 0 else 1) s
  else if fawErrors hdr ≤ 2 && hcsOk h then
    let s := if k = 0 then trimsTake le false s else s
    let s := if k = 0 then s.setF (F.LE_GLF_RX_FC_fc le) fc else s
    let s := s.modGlf le fun g => { g with bad := Tbl.set 0 g.bad k 0 }
    let s := relayPut le k fc (some h) s
    let s := jcReceive le k jc (headerTake le k h (fcTrack le k fc (setFrame le k 2 s)))
    State.datapath (ohReceive le k (some h) ((h.drop 16).take 46 ++ partB) s) (1065 + 48 * le) 1
  else
    let s := s.bump (F.LE_GLF_CNT_count le 0) 1
    let n := Tbl.get 0 (s.eng le).glf.bad k + 1
    if 5 ≤ n then glfOof le k s
    else
      let s := relayPut le k (Tbl.get 0 (s.eng le).glf.pred k) none s
      let s := s.modGlf le fun g =>
        { g with bad := Tbl.set 0 g.bad k n, pred := Tbl.set 0 g.pred k ((Tbl.get 0 g.pred k + 1) % 2 ^ 32) }
      ohReceive le k none ((h.drop 16).take 46 ++ partB) (jcReceive le k jc (setFrame le k 3 s))

/-! ## Containers in a frame (R24, R265, R279, R281, R284, R292) -/

/-- R281: the header of a cell: kind 0 IDLE or 1 DATA, first and last of its packet, payload bytes, leaf, cell count. -/
def cellHeader (kind : Nat) (sop eop : Bool) (len leaf seq : Nat) : List Byte :=
  let b := toBe 6 ((((((kind * 2 + sop.toNat) * 2 + eop.toNat) * 256 + len) * 1024 + leaf) * 256 + seq) * 2 ^ 18)
  b ++ toBe 2 (crc16 b)

/-- R281: the next cell of a transmit container: of the oldest packet, or IDLE. -/
def cellNext (size : Nat) (x : TxCont) : List Byte × TxCont :=
  let room := size - 8
  match x.packets with
  | [] => (cellHeader 0 false false 0 0x3FF x.seq ++ List.replicate room 0, { x with seq := (x.seq + 1) % 256 })
  | (leaf, p) :: t =>
    let part := (p.drop x.taken).take room
    let last := decide (p.length ≤ x.taken + room)
    (cellHeader 1 (x.taken == 0) last part.length leaf x.seq ++ part ++ List.replicate (room - part.length) 0,
     { x with seq := (x.seq + 1) % 256, packets := if last then t else x.packets, taken := if last then 0 else x.taken + room })

/-- R281: bytes of a container's cells, back to back, until `n` are there; the rest of the last cell waits for the next frame. -/
def cellFill (size n : Nat) : Nat → TxCont → List Byte → List Byte × TxCont
  | 0, x, acc => (acc.take n, { x with rest := acc.drop n })
  | k + 1, x, acc =>
    if n ≤ acc.length then (acc.take n, { x with rest := acc.drop n })
    else let (c, x) := cellNext size x; cellFill size n k x (acc ++ c)

/-- R281: the next `n` bytes of a PACKET container. -/
def cellBytesOf (size n : Nat) (x : TxCont) : List Byte × TxCont := cellFill size n (n / size + 2) { x with rest := [] } x.rest

/-- R279: container byte `i` of a capacity of `cap` bytes carries a client byte when a frame carries `cn`. -/
def carries (cap cn i : Nat) : Bool := decide (i * cn / cap < (i + 1) * cn / cap)

/-- R279: the JC word of a count and a fraction in 1/128 byte. -/
def jcWord (cn cnr : Nat) : Nat :=
  let v := cn % 2 ^ 17 * 2 ^ 15 + cnr % 128 * 256
  v + crc8 (toBe 3 (v / 256))

/-- R316, R319: byte `n` of what port `p` feeds its container: filler of a port that is not valid; in place of the client local-fault
ordered sets of an Ethernet port and all-ones of a FlexO port, while it is not UP or a fault stands. -/
def feedByte (s : State) (p n : Nat) : Byte :=
  let at' (f : Nat → Nat → Field) : Nat := s.g (f (p / 8) (p % 8))
  if s.cur (F.PORT_CFG_valid (p / 8) (p % 8)) = 0 then 0
  else if s.cur (F.PORT_CFG_type (p / 8) (p % 8)) = 1 then
    if at' F.PORT_STAT_state = 4 ∧ at' F.PORT_STAT_flexo_lof = 0 ∧ at' F.PORT_STAT_gid_mismatch = 0 then Config.clientByte p n else 0xFF
  else if at' F.PORT_STAT_state = 4 ∧ at' F.PORT_STAT_rx_local_fault = 0 then Config.clientByte p n else Config.localFaultByte n

/-- R279: the client bytes of a CBR container laid out in its capacity; the others are filler. -/
def cbrBytes (s : State) (port cap : Nat) (x : TxCont) : List Byte :=
  (List.range cap).map fun i => if carries cap x.cn i then feedByte s port (x.clientPos + i * x.cn / cap) else 0

/-- R279: how many client bytes the next frame carries, and the fraction held: the client's rate decides, a free value. -/
def cbrAnnounce (cap : Nat) (x : TxCont) (s : State) : TxCont × Nat × State :=
  let (a, s) := s.draw 17
  let (f, s) := s.draw 7
  let n := a % (cap + 1)
  ({ x with clientPos := x.clientPos + x.cn, cn := n }, jcWord n f, s)

/-- What a transmit container keeps. -/
def txCont (s : State) (le c : Nat) : TxCont := Tbl.get {} (s.eng le).glf.out c
/-- Changes what a transmit container keeps. -/
def modTxCont (le c : Nat) (f : TxCont → TxCont) (s : State) : State :=
  s.modGlf le fun g => { g with out := Tbl.set {} g.out c (f (Tbl.get {} g.out c)) }

/-- R281: the cells of container `c` give the next `n` bytes. -/
def takeCells (le c n : Nat) (s : State) : List Byte × State :=
  let (b, x) := cellBytesOf (cellBytes s.inForce le c) n (txCont s le c)
  (b, modTxCont le c (fun _ => x) s)

/-- R24, R25: the part of a frame that a container without an association fills: cells, or client bytes with their JC word. -/
def plainUnit (le c n : Nat) (s : State) : Nat × List Byte × State :=
  if s.cur (F.LE_GLF_CONT_CFG_type le c) = 1 then
    let x := txCont s le c
    let b := cbrBytes s (s.cur (F.LE_GLF_CONT_CFG_port le c)) n x
    let (x, jc, s) := cbrAnnounce n x s
    (jc, b, modTxCont le c (fun _ => x) s)
  else
    let (b, s) := takeCells le c n s
    (0, b, s)

/-- R292: where the bytes of an active member begin in its group's unit: after those of the active members below it. -/
def memberOffset (s : State) (g m : Nat) : Nat :=
  ((List.range m).filter fun k => (grpSt s g).src.testBit k).foldl (fun n k => match grpMember s.inForce g k with
    | some (e, c) => n + 256 * slotsOf s.inForce e false c
    | none => n) 0

/-- R287, R348: the container that names a unit: that of member 0 for a group or pair, else itself. -/
def unitHome (s : State) (le c : Nat) : Nat × Nat :=
  match groupOf s.inForce le c with
  | some (g, _) => (grpMember s.inForce g 0).getD (le, c)
  | none => (le, c)

/-- R279, R285, R292: the unit that container `c` carries in the frame last sent, cut to its own bytes: of a group an active member has
its share, with the group's JC word and tag (R385), of a pair each member has all of it. -/
def unitOf (s : State) (le c : Nat) : Option TxUnit :=
  let (e, h) := unitHome s le c
  (Tbl.find (s.eng e).glf.units h).bind fun u =>
    match groupOf s.inForce le c with
    | some (g, m) =>
      if grpPair s.inForce g then some u
      else if (grpSt s g).src.testBit m then
        some { u with bytes := (u.bytes.drop (memberOffset s g m)).take (256 * slotsOf s.inForce le false c) }
      else none
    | none => some u

/-- R265, R276: slot `n` of stream `q` in the frame last sent: 256 bytes of its container, filler where it has none. -/
def slotBytes (s : State) (le q n : Nat) : List Byte :=
  let c := slotOf s.inForce le false q n
  let before := ((List.range n).filter fun k => slotOf s.inForce le false q k == c).length
  match unitOf s le c with
  | some u => (u.bytes.drop (256 * before)).take 256
  | none => List.replicate 256 0

/-- R265, R267, R275, R284: the 66,560 bytes of the frame last sent on stream `q`: header, payload slots, JC words, tags and part B; in
an AIS frame ones in place of slots, JC words and tags, with an empty overhead channel (DEDUCED: part B is of that channel). The
payload of a frame that REGEN or LOOP passes on is that of the received frame, which no command carries. -/
def frameLine (s : State) (le q : Nat) : List Byte :=
  let sent := Tbl.get [] (s.eng le).glf.sent q
  let units := (ranked s.inForce le q).map (unitOf s le)
  let at' (r : Nat) : Option TxUnit := (units[r]?).join
  let body : List Byte := if (s.eng le).glf.aisSent then List.replicate 66176 0xFF
    else (List.range 256).flatMap (slotBytes s le q) ++
      ((List.range 32).flatMap fun r => toLe 4 (match at' r with | some u => u.jc | none => 0)) ++
      (List.range 32).flatMap fun r => match at' r with | some u => u.tag | none => List.replicate 16 0
  sent.take 64 ++ scramble (prbsAfter 31 28 464 scrSeed) body ++ sent.drop 64

/-! ## SLOT_MAP and cells (R277, R281, R282) -/

/-- SLOT_MAP. R277: the received digest against that of the local receive map. -/
def execSlotMap (le : Fin 2) (k : Fin 32) (body : List Byte) (s : State) : Host.Outcome State Fault Refusal :=
  let le := le.val
  if s.native le = true ∧ body.length = 8 ∧ leNat body 4 4 = crc32c (body.take 4) then
    if leNat body 0 4 = mapDigest s.inForce le true k.val then .next s
    else .next (State.evt (lep le 0x34) 7 (s.bump (F.LE_GLF_CNT_count le 9) 1))
  else .next s

/-- R281: the HEC of a cell header is right. -/
def hecOk (h : Nat) : Bool := crc16 (toBe 6 (h / 65536)) == h % 65536

/-- R282: a cell header with a single bit corrected. -/
def hecFix (h : Nat) : Option Nat :=
  ((List.range 64).find? fun i => hecOk (h ^^^ 2 ^ i)).map fun i => h ^^^ 2 ^ i

/-- R282: gives a container its cell-delineation state. -/
def cellGo (le c v : Nat) (s : State) : State :=
  let s := s.modGlf le fun g => { g with cont := Tbl.set {} g.cont c { Tbl.get {} g.cont c with cell := v, fails := 0 } }
  let f := if c < 32 then F.LE_GLF_CELL_SYNC_LO_bits le else F.LE_GLF_CELL_SYNC_HI_bits le
  let bit := 2 ^ (c % 32)
  s.setF f (if v = 2 then s.g f ||| bit else s.g f &&& (bit ^^^ 0xFFFFFFFF))

/-- R282: a packet of container `c` is discarded. -/
def pktDrop (le : Nat) (s : State) : State := State.loss (F.LE_GLF_CNT_count le 8) 1 s

/-- R282, R394: an intact cell of container `c` (`failed`: one of its bytes lies in a failed FEC block). The last byte of a packet goes
on once the tags of its frames are known: DATA_RX_UNIT of a frame comes before its cells, so that a packet touching a frame with
TAG_FAIL leaves with its FCS inverted. -/
def cellTake (le c h : Nat) (failed : Bool) (s : State) : State :=
  let k := Tbl.get {} (s.eng le).glf.cont c
  let seq := h / 2 ^ 34 % 256
  let gap := match k.seq with | some e => (seq + 256 - e) % 256 | none => 0
  let s := if gap = 0 then s else State.loss (F.LE_GLF_CNT_count le 7) gap s
  let spoilt := k.isOpen && (k.spoilt || gap != 0)
  let data := h / 2 ^ 62 == 1
  let sop := h.testBit 61
  let eop := h.testBit 60
  let leaf := h / 2 ^ 42 % 1024
  let mine := s.role le != 3 || leaf == 0x3FF || leaf == s.g (F.LE_P2MP_LEAF_STAT_leaf_id le)
  let touch := (k.isOpen && !sop && k.touched) || k.tagFail
  let put (o sp : Bool) (s : State) := s.modGlf le fun g =>
    { g with cont := Tbl.set {} g.cont c { Tbl.get {} g.cont c with
        isOpen := o, spoilt := sp, touched := o && touch, seq := some ((seq + 1) % 256) } }
  let stomp (s : State) := if touch then s.modGlf le fun g =>
      { g with cont := Tbl.set {} g.cont c { Tbl.get {} g.cont c with stomped := k.stomped + 1 } }
    else s
  if !data || !mine then put k.isOpen spoilt s
  else
    let s := State.datapath (State.datapath s (256 + 256 * le + 4 * c + 2) 1) (256 + 256 * le + 4 * c + 3) (h / 2 ^ 52 % 256)
    let s := if sop && k.isOpen then pktDrop le s else s
    let isOpen := sop || k.isOpen
    let bad := failed || (!sop && spoilt) || !isOpen
    if eop then put false false (if bad then pktDrop le s else stomp s)
    else put isOpen (isOpen && bad) s

/-- CELL_RX. R270 (nothing is delivered while the stream is out of frame), R282, R283: a header at the expected position of a receive container (any byte offset in HUNT); an UPSTREAM
container of a HUB takes cells at known positions, and one that overlaps a failed code word is discarded. -/
def execCellRx (le : Fin 2) (c : Fin 64) (hdr : BitVec 64) (failed : Bool) (s : State) :
    Host.Outcome State Fault Refusal :=
  let le := le.val
  let c := c.val
  let h := hdr.toNat
  let k := Tbl.get {} (s.eng le).glf.cont c
  let up := s.cur (F.LE_GLF_CONT_CFG_kind le c) == 1
  let spoil (s : State) := s.modGlf le fun g =>
    { g with cont := Tbl.set {} g.cont c { Tbl.get {} g.cont c with spoilt := k.isOpen } }
  if !s.native le || !contValid s.inForce le c || s.cur (F.LE_GLF_CONT_CFG_type le c) == 1 ||
      (!up && Tbl.get 0 (s.eng le).glf.frame (s.cur (F.LE_GLF_CONT_CFG_stream le c)) < 2) then .next s
  else if up then
    if failed then .next (spoil s)
    else if hecOk h then .next (cellTake le c h false s)
    else match hecFix h with
      | some h => .next (cellTake le c h false (s.bump (F.LE_GLF_CNT_count le 5) 1))
      | none => .next (spoil (State.loss (F.LE_GLF_CNT_count le 6) 1 s))
  else if k.cell = 0 then .next (if hecOk h then cellGo le c 1 s else s)
  else if k.cell = 1 then
    .next (if hecOk h then
        (cellGo le c 2 s).modGlf le fun g =>
          { g with cont := Tbl.set {} g.cont c { Tbl.get {} g.cont c with seq := some ((h / 2 ^ 34 + 1) % 256) } }
      else cellGo le c 0 s)
  else if hecOk h then .next (cellTake le c h failed (cellGo le c 2 s))
  else match hecFix h with
    | some h => .next (cellTake le c h failed ((cellGo le c 2 s).bump (F.LE_GLF_CNT_count le 5) 1))
    | none =>
      let s := spoil (State.loss (F.LE_GLF_CNT_count le 6) 1 s)
      if k.fails = 2 then
        let s := if k.isOpen then pktDrop le s else s
        let s := State.evt (lep le 0x34) 9 (cellGo le c 0 s)
        .next (s.modGlf le fun g =>
          { g with cont := Tbl.set {} g.cont c { Tbl.get {} g.cont c with isOpen := false, spoilt := false, seq := none } })
      else .next (s.modGlf le fun g =>
          { g with cont := Tbl.set {} g.cont c { Tbl.get {} g.cont c with fails := k.fails + 1 } })

end Sys2Proof.Machine
end

