-- ==== Sys2Proof/Machine/Association.lean ====
section
/-! DEFINITION. The cipher's associations (12_cipher.md): key slots,
unit numbers, usage, the state table, the tag of a leaf message, and the start of an in-band exchange. -/
namespace Sys2Proof.Machine

/-! ## Associations (R379 to R381) -/

/-- What association `i` holds. -/
def assoc (s : State) (i : Nat) : Assoc := Tbl.get {} s.cip.sa i
/-- Changes what association `i` holds. -/
def modAssoc (i : Nat) (f : Assoc → Assoc) (s : State) : State :=
  { s with cip := { s.cip with sa := Tbl.set {} s.cip.sa i (f (assoc s i)) } }

/-- Whether association `i` is valid. -/
def saValid (t : Tbl Nat) (i : Nat) : Bool := look t (F.CIP_SA_CFG_valid i) == 1
/-- R379: its type: 0 DATA_TX, 1 DATA_RX, 2 CTRL_TX, 3 CTRL_RX. -/
def saType (t : Tbl Nat) (i : Nat) : Nat := look t (F.CIP_SA_CFG_type i)
/-- Its engine. -/
def saEngine (t : Tbl Nat) (i : Nat) : Nat := look t (F.CIP_SA_CFG_engine i)
/-- Its container. -/
def saCont (t : Tbl Nat) (i : Nat) : Nat := look t (F.CIP_SA_CFG_container i)
/-- Its state: 0 DISABLED, 1 ACTIVE, 2 BLOCKED. -/
def saState (s : State) (i : Nat) : Nat := s.g (F.CIP_SA_ST_state i)

/-- The valid association of a type that meets a condition, lowest index first. -/
def saFind (t : Tbl Nat) (ty : Nat) (p : Nat → Bool) : Option Nat :=
  (List.range 1024).find? fun i => saValid t i && saType t i == ty && p i

/-- The valid association of a type bound to a container. -/
def saOf (t : Tbl Nat) (ty le c : Nat) : Option Nat := saFind t ty fun i => saEngine t i == le && saCont t i == c

/-- R382, R386: the association counts burst-map periods: an UPSTREAM container's or a leaf's. -/
def saUpstream (t : Tbl Nat) (i : Nat) : Bool :=
  2 ≤ saType t i || look t (F.LE_GLF_CONT_CFG_kind (saEngine t i) (saCont t i)) == 1

/-- R386: unit numbers per frame, period or message: a period holds 1,000. -/
def saScale (t : Tbl Nat) (i : Nat) : Nat := if saType t i < 2 && saUpstream t i then 1000 else 1

/-- R381: the key registers of association `i` follow what it holds. -/
def saReport (i : Nat) (s : State) : State :=
  let a := assoc s i
  let s := (s.setB (F.CIP_SA_ST_cur_valid i) a.cur.isSome).setB (F.CIP_SA_ST_next_valid i) a.next.isSome
  let s := s.setB (F.CIP_SA_ST_switch_armed i) a.switch.isSome
  let s := s.setF (F.CIP_SA_SWITCH_AT_at i) (a.switch.getD (s.g (F.CIP_SA_SWITCH_AT_at i)))
  s.setF (F.CIP_SA_USE_use i) (a.units * saScale s.inForce i / 65536)

/-- R391: the association enters BLOCKED for a reason: 1 NO_KEY, 2 ERASED, 3 LIMIT, 4 ZEROISED. -/
def saBlock (i reason : Nat) (s : State) : State :=
  let s := (s.setF (F.CIP_SA_ST_state i) 2).setF (F.CIP_SA_ST_block_reason i) reason
  State.evt 0xC8 1 (s.setB (F.CIP_SA_ST_warn i) false)

/-- R391: the association is ACTIVE under a current key. -/
def saActive (i : Nat) (s : State) : State :=
  let s := (s.setF (F.CIP_SA_ST_state i) 1).setF (F.CIP_SA_ST_block_reason i) 0
  s.setB (F.CIP_SA_ST_warn i) false

/-- R380, R389: the next key becomes current with start point `unit`; the old current key is erased. -/
def saRoll (i unit units : Nat) (s : State) : State :=
  saActive i (modAssoc i (fun a => { a with
    cur := a.next, next := none, odd := !a.odd, start := unit % 2 ^ 32, units := units, switch := none }) s)

/-! ## Charge, cores, shedding (R38, R406 to R408) -/

/-- Adds two fractions. -/
def fracAdd (a b : Nat × Nat) : Nat × Nat := (a.1 * b.2 + b.1 * a.2, a.2 * b.2)

/-- R22: the slot rate of an engine's plan in Gb/s, as a fraction: its net rate ÷ 256. -/
def slotRate (s : State) (le : Nat) (rx : Bool) : Nat × Nat :=
  let t := s.inForce
  let r := if rx then rxCoded t le else txCoded t le
  let o := overhead (look t (if rx then F.LE_RX_PLAN_fec_oh le else F.LE_TX_PLAN_fec_oh le))
  (r.1 * 1000 * 65536, r.2 * o * 66560 * 2560)

/-- R38: the charge in Gb/s of the valid DATA associations below `n` of a set. -/
def chargeBelow (s : State) (t : Tbl Nat) (n : Nat) : Nat × Nat :=
  let slots (le : Nat) (rx : Bool) : Nat :=
    ((List.range n).filter fun i => saValid t i && saType t i == rx.toNat && saEngine t i == le).foldl
      (fun a i => a + unitSlots s rx le (saCont t i)) 0
  let part (le : Nat) (rx : Bool) : Nat × Nat :=
    let k := slots le rx
    if k = 0 then (0, 1) else let r := slotRate s le rx; (k * r.1, r.2)
  fracAdd (fracAdd (part 0 false) (part 0 true)) (fracAdd (part 1 false) (part 1 true))

/-- Cores in a condition. -/
def coresWhere (s : State) (p : Nat → Bool) : Nat := ((List.range 8).filter fun c => p (s.g (F.CIP_CORE_STAT_state c))).length

/-- R406: the limit in Gb/s × 8 with `k` cores. -/
def limit8 (k : Nat) : Nat := 5200 * k

/-- R407, R408: budget, overload and the first association shed; a core in TESTING is absent for shedding. -/
def cipherLoad (s : State) : State :=
  let t := s.inForce
  let q := chargeBelow s t 1024
  let k := coresWhere s (· != 2)
  let lim := limit8 (coresWhere s (· == 0))
  let exceeds (c : Nat × Nat) : Bool := decide (lim * c.2 < 8 * c.1)
  let s := (s.setF F.CIP_STAT_cores k).setF F.CIP_BUDGET_limit (limit8 k / 8)
  let s := s.setF F.CIP_BUDGET_charge ((q.1 + q.2 - 1) / q.2)
  let first := if exceeds q then
      ((List.range 1024).find? fun i => saValid t i && saType t i < 2 && exceeds (chargeBelow s t (i + 1))).getD 0x3FF
    else 0x3FF
  let s := (s.setF F.CIP_STAT_shed_first first).setB F.CIP_STAT_overload (exceeds q)
  State.level 0xC8 6 (exceeds q) s

/-! ## The association set comes into force (R382, R391) -/

/-- The fields of association `i` (R381). -/
def saFields (i : Nat) : List Field :=
  [F.CIP_SA_CFG_valid i, F.CIP_SA_CFG_type i, F.CIP_SA_CFG_engine i, F.CIP_SA_CFG_leaf i, F.CIP_SA_CFG_container i,
   F.CIP_SA_POL_require i, F.CIP_SA_POL_key_source i, F.CIP_SA_POL_auto_rekey i, F.CIP_SA_POL_fcs_stomp i, F.CIP_SA_POL_limit_exp i,
   F.CIP_SA_PIN_pin i]

/-- R391: the associations take a set: a valid one begins BLOCKED without a key, one made invalid loses its keys. -/
def cipApply (old : Tbl Nat) (s : State) : State :=
  let s := s.forEach ((List.range 1024).filter fun i => saValid old i != saValid s.inForce i) fun i s =>
    let s := modAssoc i (fun _ => {}) s
    if saValid s.inForce i then saBlock i 1 (saReport i s)
    else saReport i (((s.setF (F.CIP_SA_ST_state i) 0).setF (F.CIP_SA_ST_block_reason i) 0).setB (F.CIP_SA_ST_warn i) false)
  cipherLoad s

/-- R382: what decides the boundary of association `i`: its binding in force, or the one it takes. -/
def saBinding (s : State) (i : Nat) : Tbl Nat := if saValid s.inForce i then s.inForce else s.buffer

/-- R382: the boundary of association `i` is the burst-map build of its engine. -/
def saPerMap (s : State) (i : Nat) : Bool :=
  let t := saBinding s i
  decide (2 ≤ saType t i) || s.cur (F.LE_GLF_CONT_CFG_kind (saEngine t i) (saCont t i)) == 1

/-- R382: the associations that a pending set of page 0xC8 changes. -/
def saDue (s : State) : List Nat := (List.range 1024).filter fun i => differ s.buffer s.inForce (saFields i)

/-- Whether the bit address `k` is a register of one of the associations `mine`. -/
def saKey (mine : List Nat) (k : Nat) : Bool :=
  decide (0x310000 ≤ k / 8) && decide (k / 8 < 0x314000) && mine.contains ((k / 8 - 0x310000) / 16)

/-- R382: the associations `mine` take their part of the pending set; with the last of them it is in force. -/
def saTake (mine : List Nat) (last : Bool) (s : State) : State :=
  let t := cipApply s.inForce { s with inForce := Tbl.overlay (saKey mine) s.buffer s.inForce }
  if last then commitTaken 0xC8 t else t

/-- R382: at a boundary of the associations `p` those of them that a pending set changes take their part of it; the set is in force once
none is left. -/
def saPart (p : Nat → Bool) (s : State) : State :=
  if s.on (F.PAGE_STAT_commit_pending 0xC8) && !s.on (F.PAGE_STAT_commit_armed 0xC8) then
    let mine := (saDue s).filter p
    if mine.isEmpty then s else saTake mine ((saDue s).length == mine.length) s
  else s

/-! ## In-band exchange: records and start (R396, R399) -/

/-- What exchange record `j` holds. -/
def kxRec (s : State) (j : Nat) : Kx := Tbl.get {} s.cip.kx j
/-- Changes what exchange record `j` holds. -/
def modKx (j : Nat) (f : Kx → Kx) (s : State) : State :=
  { s with cip := { s.cip with kx := Tbl.set {} s.cip.kx j (f (kxRec s j)) } }
/-- The state of record `j`: 0 IDLE, 1 INIT_SENT, 2 RESP_SENT, 3 CONFIRMED, 4 SWITCHING. -/
def kxState (s : State) (j : Nat) : Nat := s.g (F.CIP_KX_STAT_state j)

/-- R399: record `j` returns to IDLE with a result; keys held and the private key go. -/
def kxEnd (j result : Nat) (s : State) : State :=
  let s := modKx j (fun _ => {}) s
  let s := (s.setF (F.CIP_KX_STAT_state j) 0).setF (F.CIP_KX_STAT_result j) result
  if result = 1 then State.evt 0xC8 7 (s.bump (F.CIP_CNT_count 5) 1)
  else State.evt 0xC8 8 (s.bump (F.CIP_CNT_count 6) 1)

/-- R399: an exchange in SWITCHING ends once the own and the peer's switch have applied. -/
def kxCheck (j : Nat) (s : State) : State :=
  if kxState s j = 4 ∧ (kxRec s j).own ∧ (kxRec s j).peer then kxEnd j 1 s else s

/-- R399: association `i` has switched to its next key: the exchange that waits for it sees it. -/
def kxSwitched (i : Nat) (s : State) : State :=
  s.forEach (List.range 16) fun j s =>
    if kxState s j < 3 then s
    else if s.g (F.CIP_KX_STAT_tx j) = i then kxCheck j (modKx j (fun k => { k with own := true }) s)
    else if s.g (F.CIP_KX_STAT_rx j) = i then kxCheck j (modKx j (fun k => { k with peer := true }) s)
    else s

/-- `8 n` random bytes of the TRNG. -/
def drawBytes : Nat → State → List Byte × State
  | 0, s => ([], s)
  | n + 1, s =>
    let (v, s) := s.draw 64
    let (t, s) := drawBytes n s
    (toBe 8 v ++ t, s)

/-- R396: the slot byte of a message: the lowest slot of the sender's transmit container (member 0's for a group). -/
def kxSlot (s : State) (le c : Nat) : Nat :=
  ((List.range 256).find? fun n => slotOf s.inForce le false 0 n == c).getD 0xFF

/-- R272, R399: a key-exchange message is sent on the stream of the associations' container, and kept for repetition. -/
def kxSend (j type : Nat) (body : List Byte) (s : State) : State :=
  let s := modKx j (fun k => { k with last := (type, body), sentAt := s.now }) s
  ohPut (saEngine s.inForce (s.g (F.CIP_KX_STAT_tx j))) 0 5 type body s

/-- Lists of at most `n` bytes. -/
def pieces (n : Nat) : Nat → List Byte → List (List Byte)
  | 0, _ => []
  | k + 1, b => if b.isEmpty then [] else b.take n :: pieces n k (b.drop n)

/-- R396, R399: the own certificate chain precedes each KX_INIT and KX_RESP, in fragments of at most 200 bytes. -/
def kxCerts (j : Nat) (s : State) : State :=
  let ps := pieces 200 (s.enc.chain.length + 1) s.enc.chain
  let le := saEngine s.inForce (s.g (F.CIP_KX_STAT_tx j))
  s.forEach ps.zipIdx fun e s =>
    ohPut le 0 5 0x10 (toBe 2 (kxRec s j).xid ++ [BitVec.ofNat 8 e.2, BitVec.ofNat 8 ps.length] ++ e.1) s

/-- R398: both associations of an exchange are valid, with key source EXCHANGE and equal pins, at a P2P engine (R387), and
no unlock to DATAPATH is in force (R427). -/
def kxPolicy (s : State) (tx rx : Nat) : Bool :=
  let t := s.inForce
  saValid t tx && saValid t rx && saType t tx == 0 && saType t rx == 1 && saEngine t tx == saEngine t rx &&
  saCont t tx == saCont t rx && look t (F.CIP_SA_POL_key_source tx) == 0 && look t (F.CIP_SA_POL_key_source rx) == 0 &&
  look t (F.CIP_SA_PIN_pin tx) == look t (F.CIP_SA_PIN_pin rx) && s.role (saEngine t tx) == 1 &&
  s.g F.ENC_STAT_debug_level != 2 && !s.on F.ENC_STAT_zeroised

/-- R399: either association has a switch armed or an exchange record; R410: or the TRNG gives nothing. -/
def kxBusy (s : State) (tx rx : Nat) : Bool :=
  (assoc s tx).switch.isSome || (assoc s rx).switch.isSome || s.enc.trngBad ||
  (List.range 16).any fun j => kxState s j != 0 &&
    (s.g (F.CIP_KX_STAT_tx j) == tx || s.g (F.CIP_KX_STAT_rx j) == rx)

/-- R399: record `j` sends KX_INIT with a fresh nonce and ephemeral key. -/
def kxInit (j : Nat) (s : State) : State :=
  let tx := s.g (F.CIP_KX_STAT_tx j)
  let le := saEngine s.inForce tx
  let (xid, s) := s.draw 16
  let (nonce, s) := drawBytes 4 s
  let (priv, s) := drawBytes 6 s
  let slot := kxSlot s le (saCont s.inForce tx)
  let body := toBe 2 xid ++ [BitVec.ofNat 8 slot, 0] ++ nonce ++ Config.p384Public priv
  let s := modKx j (fun _ => { xid := xid, priv := priv, init := body, began := s.now }) s
  let s := ((s.setF (F.CIP_KX_STAT_state j) 1).setF (F.CIP_KX_STAT_role j) 0).setF (F.CIP_KX_STAT_result j) 0
  kxSend j 0x11 body (kxCerts j s)

/-- R399, R409: a start: the lowest IDLE record takes it, or its refusal; with none IDLE it is ignored and ERR_CODE takes
KX_FULL. -/
def kxStart (tx rx : Nat) (s : State) : State :=
  match (List.range 16).find? fun j => kxState s j == 0 && !(kxRec s j).again with
  | none => State.err 0xC9 0 0xE1 s
  | some j =>
    let s' := (s.setF (F.CIP_KX_STAT_tx j) tx).setF (F.CIP_KX_STAT_rx j) rx
    if !kxPolicy s tx rx then s'.setF (F.CIP_KX_STAT_result j) 4
    else if kxBusy s tx rx then s'.setF (F.CIP_KX_STAT_result j) 7
    else kxInit j s'

/-! ## Units and the boundary (R386, R389 to R391) -/

/-- R390: the usage limit. -/
def saLimit (t : Tbl Nat) (i : Nat) : Nat := 2 ^ look t (F.CIP_SA_POL_limit_exp i)

/-- R391: n reaches the limit: a rollover to the next key, or BLOCKED. -/
def saAtLimit (i start : Nat) (s : State) : State :=
  let a := assoc s i
  let m := saScale s.inForce i
  let lim := saLimit s.inForce i
  if saState s i = 1 ∧ lim ≤ a.units * m + start then
    if a.next.isSome then kxSwitched i (State.evt 0xC8 3 (saRoll i (a.start + lim / m) (a.units - lim / m) s))
    else saBlock i 3 (modAssoc i (fun a => { a with cur := none }) s)
  else s

/-- R389, R391: the boundary of association `i` before a unit with count `unit` (FC or period): `units` are those since S,
`start` the burst's start unit. The events apply in the order of the table of R391. -/
def saBoundary (i unit units start : Nat) (s : State) : State :=
  if !saValid s.inForce i || s.g (F.CIP_SA_ST_block_reason i) == 4 then s
  else
    let s := modAssoc i (fun a => { a with units := units }) s
    let a := assoc s i
    -- a pending load of CURRENT
    let s := match a.shadow with
      | some k =>
        let was := saState s i
        let s := modAssoc i (fun a => { a with cur := some k, shadow := none, start := unit % 2 ^ 32, units := 0 }) s
        State.when (was == 2) (State.evt 0xC8 4) (saActive i s)
      | none => s
    -- the usage limit, and once more for the key rolled to
    let s := saAtLimit i start (saAtLimit i start s)
    -- an armed switch
    let s := match (assoc s i).switch with
      | some w =>
        if (unit + 2 ^ 32 - w) % 2 ^ 32 < 2 ^ 31 && (assoc s i).next.isSome then
          kxSwitched i (State.evt 0xC8 4 (saRoll i w ((unit + 2 ^ 32 - w) % 2 ^ 32) s))
        else s
      | none => s
    -- the warning point
    let n := (assoc s i).units * saScale s.inForce i + start
    let s :=
      if saState s i = 1 ∧ (9 * saLimit s.inForce i + 9) / 10 ≤ n ∧ ¬ s.on (F.CIP_SA_ST_warn i) then
        let s := State.evt 0xC8 2 (s.setB (F.CIP_SA_ST_warn i) true)
        if s.cur (F.CIP_SA_POL_key_source i) = 0 ∧ s.cur (F.CIP_SA_POL_auto_rekey i) = 1 then
          let peer := saOf s.inForce (1 - saType s.inForce i) (saEngine s.inForce i) (saCont s.inForce i)
          match peer, saType s.inForce i with
          | some p, 0 => kxStart i p s
          | some p, 1 => kxStart p i s
          | _, _ => s
        else s
      else s
    -- erasures
    let a := assoc s i
    let s := if a.eraseCur then
        let s := modAssoc i (fun a => { a with cur := none, eraseCur := false }) s
        if saState s i = 1 then saBlock i 2 s else s
      else s
    let s := if a.eraseNext then modAssoc i (fun a => { a with next := none, eraseNext := false }) s else s
    saReport i s

/-- R386: frames or periods since S of a transmitted unit: the transmitter counts exactly. -/
def txUnits (a : Assoc) (unit : Nat) : Nat := a.units + (unit + 2 ^ 33 - a.start - a.units % 2 ^ 32) % 2 ^ 32

/-- The frame period of an engine's stream in ns, as a fraction: one subcarrier a stream downstream of a hub. -/
def streamPeriod (s : State) (le : Nat) (rx : Bool) : Nat × Nat :=
  let t := s.inForce
  if rx then
    let c := if s.role le = 3 then codedRate (look t (F.LE_RX_PLAN_baud le)) (look t (F.LE_RX_PLAN_sc_count le)) 1
        (look t (F.LE_RX_PLAN_modulation le)) (look t (F.LE_RX_PLAN_entropy le)) else rxCoded t le
    framePeriod (look t (F.LE_RX_PLAN_fec_oh le)) c
  else
    let c := if s.role le = 2 then codedRate (look t (F.LE_TX_PLAN_baud le)) (look t (F.LE_TX_PLAN_sc_count le)) 1
        (look t (F.LE_TX_PLAN_modulation le)) (look t (F.LE_TX_PLAN_entropy le)) else txCoded t le
    framePeriod (look t (F.LE_TX_PLAN_fec_oh le)) c

/-- R386: frames or periods since S of a received unit: the value congruent to the received one nearest to the last plus
those elapsed since; it is below 0 where the unit precedes S. -/
def rxUnits (s : State) (i unit : Nat) : Int :=
  let a := assoc s i
  let p := if saUpstream s.inForce i then (125000, 1) else streamPeriod s (saEngine s.inForce i) true
  let el := if p.1 = 0 then 0 else (s.now - a.seenAt) * p.2 / p.1
  let e : Int := ((a.units + el : Nat) : Int)
  e + signed 32 (((unit : Int) - a.start - e) % 2 ^ 32).toNat

/-- R384: the IV: salt, then the unit number, 8 bytes big-endian. -/
def saIv (k : List Byte) (n : Int) : List Byte := k.drop 32 ++ toBe 8 (unsigned 64 n)

/-! ## Leaf messages (R384, R386, R392, R395) -/

/-- R206, R207: hub device time now, as a hub counts it and as a leaf estimates it. -/
def hubNow (s : State) (le : Nat) : Nat :=
  let p := (s.eng le).p2mp
  if s.role le = 3 then s.now - p.latch + p.stamp else s.now

/-- R206: the burst-map period now. -/
def periodNow (s : State) (le : Nat) : Nat := hubNow s le / 125000

/-- The tag a hub sends with a leaf message, under the leaf's CTRL_TX association where that holds a key. -/
def ctrlTag (le leaf : Nat) (msg : List Byte) (s : State) : List Byte × State :=
  match saFind s.inForce 2 fun i => saEngine s.inForce i == le && look s.inForce (F.CIP_SA_CFG_leaf i) == leaf with
  | none => ([], s)
  | some i =>
    let s := saBoundary i (periodNow s le) (assoc s i).units 0 s
    match saState s i, (assoc s i).cur with
    | 1, some k =>
      let n := (assoc s i).units + 1
      let s := saReport i (modAssoc i (fun a => { a with units := n }) s)
      ((Config.gcm (k.take 32) (saIv k n) msg []).2, s)
    | _, _ => ([], s)

/-- R386: the first of the 64 message counts after the last under which a tag verifies. -/
def ctrlMatch (k msg tag : List Byte) (last : Nat) : Option Nat :=
  ((List.range 64).map (last + 1 + ·)).find? fun n => (Config.gcm (k.take 32) (saIv k n) msg []).2 == tag

/-- What becomes of a leaf message at a leaf. -/
inductive MsgFate where
  | taken | authFail | discarded
  deriving DecidableEq, Repr

/-- R219, R392, R395: a leaf message with its tag (none: untagged): one that does not verify is taken only where `auth` is
0; a BLOCKED association discards every message, an untagged one as a failure to authenticate where `auth` is 1. -/
def ctrlAccept (le : Nat) (auth : Bool) (msg tag : List Byte) (s : State) : MsgFate × State :=
  let fail : MsgFate := if auth then .authFail else .taken
  match saFind s.inForce 3 fun i => saEngine s.inForce i == le with
  | none => (fail, s)
  | some i =>
    let s := saBoundary i (periodNow s le) (assoc s i).units 0 s
    match saState s i, (assoc s i).cur with
    | 1, some k =>
      match ctrlMatch k msg tag (assoc s i).units with
      | some n => (.taken, saReport i (modAssoc i (fun a => { a with units := n }) s))
      | none => (fail, s)
    | _, _ => (if auth && tag.isEmpty then .authFail else .discarded, State.loss (F.CIP_SA_VOID_count i) 1 s)

/-- R382: the burst-map build is the boundary of the UPSTREAM containers' associations of an engine and of its CTRL_TX (hub) or CTRL_RX
(leaf) ones. -/
def ctrlBoundary (le ty p : Nat) (s : State) : State :=
  let s := saPart (fun i => saPerMap s i && saEngine (saBinding s i) i == le) s
  s.forEach ((List.range 1024).filter fun i => saValid s.inForce i && saType s.inForce i == ty && saEngine s.inForce i == le)
    fun i s => saBoundary i p (assoc s i).units 0 s

end Sys2Proof.Machine
end

