-- ==== Sys2Proof/Machine/P2mp.lean ====
section
/-! DEFINITION. Point-to-multipoint hub and leaf (06_point_to_multipoint.md): burst maps, leaf messages, the leaf's states,
Lookout, rogue leaves, power levelling, and the checks of a HUB or LEAF set. -/
namespace Sys2Proof.Machine

/-! ## Grants (R209, R213, R214) -/

/-- R214: fields of a grant word. -/
def gLeaf (g : Nat) : Nat := g / 2 ^ 54
/-- R214 -/ def gType (g : Nat) : Nat := g / 2 ^ 51 % 8
/-- R214 -/ def gSc (g : Nat) : Nat := g / 2 ^ 46 % 32
/-- R214 -/ def gWidth (g : Nat) : Nat := g / 2 ^ 44 % 4
/-- R214 -/ def gBand (g : Nat) : Nat := g / 2 ^ 42 % 4
/-- R214 -/ def gMod (g : Nat) : Nat := g / 2 ^ 40 % 4
/-- R214 -/ def gStart (g : Nat) : Nat := g / 2 ^ 30 % 1024
/-- R214 -/ def gLen (g : Nat) : Nat := g / 2 ^ 20 % 1024
/-- R214 -/ def gRoPre (g : Nat) : Nat := g / 2 ^ 10 % 1024
/-- R214 -/ def gJitter (g : Nat) : Nat := g % 1024

/-- R213: the symbols a grant of `units` offers at a symbol rate in 0.25 GBd units and a width class. -/
def grantSymbols (baud w units : Nat) : Nat := units * 125 * baud / (128 * 2 ^ w)

/-- R212: payload positions of `cw` code words with 4, 6 or 8 bits a symbol. -/
def payloadSymbols (modulation cw : Nat) : Nat :=
  let bits := 4 + 2 * modulation
  let d := (cw * 4096 + bits - 1) / bits
  d + (d + 30) / 31

/-- R213: the largest code-word count that fits a DATA grant. -/
def cwFit (baud g : Nat) : Nat :=
  let room := grantSymbols baud (gWidth g) (gLen g)
  ((List.range 1024).filter fun cw => 368 + payloadSymbols (gMod g) cw ≤ room).length - 1

/-- R218: the shortest RANGING grant in units: ⌈368 / Rb / 125 ns⌉. -/
def bareUnits (baud w : Nat) : Nat := (368 * 128 * 2 ^ w + baud * 125 - 1) / (baud * 125)

/-- The duration of `t` symbols in ns, rounded up (R210). -/
def symbolsNs (baud w t : Nat) : Nat := if baud = 0 then 0 else (t * 128 * 2 ^ w + baud - 1) / baud

/-- R209: two bands of one subcarrier cover a common part. -/
def bandsOverlap (w1 b1 w2 b2 : Nat) : Bool :=
  let lo (w b : Nat) := b * 2 ^ (2 - w)
  let hi (w b : Nat) := (b + 1) * 2 ^ (2 - w)
  decide (lo w1 b1 < hi w2 b2) && decide (lo w2 b2 < hi w1 b1)

/-- The grant table of given contents. -/
def grants (t : Tbl Nat) (le : Nat) : List Nat :=
  (List.range (look t (F.LE_P2MP_GRANT_COUNT_count le))).map fun g =>
    look t (F.LE_P2MP_GRANT_LO_bits le (g / 256) (g % 256)) +
      2 ^ 32 * look t (F.LE_P2MP_GRANT_HI_bits le (g / 256) (g % 256))

/-- Fields of leaf-table entry `i` in given contents. -/
def leafValid (t : Tbl Nat) (le i : Nat) : Bool := look t (F.LE_P2MP_LEAF_CFG_valid le (i / 256) (i % 256)) == 1
/-- R238 -/ def leafHome (t : Tbl Nat) (le i : Nat) : Nat := look t (F.LE_P2MP_LEAF_CFG_home le (i / 256) (i % 256))
/-- R238 -/ def leafTagOf (t : Tbl Nat) (le i : Nat) : Nat := look t (F.LE_P2MP_LEAF_CFG_tag le (i / 256) (i % 256))
/-- R238 -/ def leafRo (t : Tbl Nat) (le i : Nat) : Nat := look t (F.LE_P2MP_LEAF_ROC_ro le (i / 256) (i % 256))
/-! ## The checks of a set (R203, R218, R236 to R239) -/

/-- R218: a grant's fields lie in their ranges. -/
def grantRangeOk (t : Tbl Nat) (le g : Nat) : Bool :=
  let ty := gType g
  let wide := ty == 2 || ty == 3
  let tx := look t (F.LE_TX_SC_EN_en le)
  ty ≤ 3 && gWidth g != 3 && gBand g < 2 ^ gWidth g && (ty != 0 || gMod g != 3) && gStart g ≤ 999 &&
  16 ≤ gLen g && gLen g ≤ (if wide then 1000 else 512) && gStart g + gLen g ≤ 1000 &&
  (if ty == 2 then gLeaf g == 0x3FF && gRoPre g ≤ 500 else gRoPre g == 0 && gJitter g == 0 && gLeaf g ≤ 511) &&
  upMode t le (gSc g) == 1 &&
  !(look t (F.LE_ROLE_single_fibre le) == 1 && (List.range 32).any fun k => tx.testBit k && k % 2 == gSc g % 2)

/-- R218: two grants keep `guard` units between them. -/
def apart (guard a b : Nat) : Bool :=
  gStart a + gLen a + guard ≤ gStart b || gStart b + gLen b + guard ≤ gStart a

/-- R218: no two grants that overlap in band, nor two of one leaf, come closer than guard units. -/
def grantsApart (guard : Nat) : List Nat → Bool
  | [] => true
  | a :: t => (t.all fun b =>
      let clash := (gSc a == gSc b && bandsOverlap (gWidth a) (gBand a) (gWidth b) (gBand b)) ||
        (gType a ≤ 1 && gType b ≤ 1 && gLeaf a == gLeaf b)
      !clash || apart guard a b) && grantsApart guard t

/-- R216: the grants that stream `k` carries. -/
def streamGrants (t : Tbl Nat) (le k : Nat) (gs : List Nat) : List Nat :=
  gs.filter fun g => gType g == 2 || (gType g ≤ 1 && leafHome t le (gLeaf g) == k)

/-- R218: the lead suffices for the largest staged leaf RO, RO in force or ro_pre. -/
def leadOk (t : Tbl Nat) (le : Nat) (roActive : Nat → Nat) : Bool :=
  let ros := (List.range 512).map fun i => max (leafRo t le i) (roActive i)
  let pre := (grants t le).map fun g => if gType g = 2 then gRoPre g * 1000 else 0
  let x := (ros ++ pre).foldl max 0
  3 * x + 80000 ≤ (look t (F.LE_P2MP_HUB_CTRL_map_lead le) - 1) * 250000

/-- R218: two valid entries with one tag, or a home that is not enabled. -/
def leafTableOk (t : Tbl Nat) (le : Nat) : Bool :=
  let v := (List.range 512).filter (leafValid t le)
  v.all fun i => (look t (F.LE_TX_SC_EN_en le)).testBit (leafHome t le i) &&
    v.all fun j => i == j || leafTagOf t le i / 4 != leafTagOf t le j / 4

/-- R236, R239: ranges of the fields on pages 0x20 to 0x2B. -/
def p2mpRangesOk (t : Tbl Nat) (le : Nat) : Bool :=
  let between (f : Field) (lo hi : Nat) := decide (lo ≤ look t f) && decide (look t f ≤ hi)
  between (F.LE_P2MP_HUB_CTRL_map_lead le) 2 8 && between (F.LE_P2MP_HUB_CTRL_guard le) 1 15 &&
  between (F.LE_P2MP_LOOKOUT_det_thr le) 16 240 && between (F.LE_P2MP_ROGUE_threshold le) 1 255 &&
  between (F.LE_P2MP_ROGUE_decay le) 1 65535 && between (F.LE_P2MP_LEVEL_target le) 20 160 &&
  between (F.LE_P2MP_LEVEL_idle_thr le) 20 160 && between (F.LE_P2MP_GRANT_COUNT_count le) 0 1024 &&
  between (F.LE_P2MP_LEAF_CTRL_backoff le) 0 6 &&
  (List.range 512).all fun i => leafTagOf t le i % 4 == 0

/-- R203, R218, R239: the reason a set is rejected with on behalf of pages 0x20 to 0x2B, 0 when accepted. -/
def p2mpCheck (t : Tbl Nat) (le : Nat) (roActive : Nat → Nat) : Nat :=
  let role := look t (F.LE_ROLE_role le)
  let hub := role == 2
  let gs := if hub then grants t le else []
  let baud := look t (F.LE_TX_PLAN_baud le)
  firstFail
    [ (0x02, look t (F.LE_P2MP_ROGUE_action le) != 3 && (List.range 32).all fun k => upMode t le k != 3),
      (0x01, p2mpRangesOk t le),
      (0x03, !(hub || role == 3) || look t (F.LE_TX_PLAN_baud le) == look t (F.LE_RX_PLAN_baud le)),
      (0x03, !(role == 3 && look t (F.LE_P2MP_LEAF_CTRL_cont_en le) == 1) ||
        (look t (F.LE_TX_SC_EN_en le)).testBit (look t (F.LE_P2MP_LEAF_CTRL_cont_sc le))),
      (0x98, gs.all (grantRangeOk t le)),
      (0x99, grantsApart (look t (F.LE_P2MP_HUB_CTRL_guard le)) gs),
      (0x9A, gs.all fun g => match gType g with
        | 0 => cwFit baud g != 0
        | 1 => bareUnits baud (gWidth g) ≤ gLen g
        | 2 => gJitter g + bareUnits baud (gWidth g) ≤ gLen g
        | _ => true),
      (0x9B, gs.all fun g => 2 ≤ gType g || leafValid t le (gLeaf g)),
      (0x9C, !hub || (List.range 32).all fun k => ((streamGrants t le k gs).length + 15) / 16 ≤ segCap t le),
      (0x9D, !hub || leadOk t le roActive),
      (0x9E, !hub || leafTableOk t le) ]

/-! ## Hub: leaves and messages (R219, R223) -/

/-- The engine is a HUB that runs. -/
def isHub (s : State) (le : Nat) : Bool := s.role le == 2 && s.runState le == 2
/-- The engine is a LEAF that runs. -/
def isLeaf (s : State) (le : Nat) : Bool := s.role le == 3 && s.runState le == 2

/-- R223: the hub state of leaf `i`: 0 FREE, 1 ASSIGNING, 2 RANGING, 3 ACTIVE, 4 QUIESCED, 5 LOST. -/
def leafSt (s : State) (le i : Nat) : Nat := s.g (F.LE_P2MP_LEAF_ST_state le (i / 256) (i % 256))

/-- What the hub keeps about leaf `i`. -/
def leafHub (s : State) (le i : Nat) : LeafHub := Tbl.get {} (s.eng le).p2mp.leaf i

/-- Changes what the hub keeps about leaf `i`. -/
def modLeafHub (le i : Nat) (f : LeafHub → LeafHub) (s : State) : State :=
  s.modP2 le fun p => { p with leaf := Tbl.set {} p.leaf i (f (Tbl.get {} p.leaf i)) }

/-- R223: leaf `i` takes a hub state; BURST_LOSS is raw while some leaf is LOST. Grants are counted anew from ACTIVE on. -/
def leafStGo (le i v : Nat) (s : State) : State :=
  let s := if v = 3 then modLeafHub le i (fun h => { h with lastOk := s.now }) s else s
  let s := s.setF (F.LE_P2MP_LEAF_ST_state le (i / 256) (i % 256)) v
  State.level (lep le 0x20) 4 ((List.range 512).any fun j => leafSt s le j == 5) s

/-- R219, R237: queues a leaf message; a full queue takes none. Whether it was taken. -/
def msgPut (le type leaf tag arg : Nat) (s : State) : Bool × State :=
  let p := (s.eng le).p2mp
  if 32 ≤ p.msgs.length then (false, s)
  else
    let m : LeafMsg := { type := type, leaf := leaf, tag := tag, arg := arg, seq := p.msgSeq }
    let s := s.modP2 le fun p => { p with msgs := p.msgs ++ [m], msgSeq := (p.msgSeq + 1) % 65536 }
    (true, s.setF (F.LE_P2MP_LMSG_STAT_queued le) (p.msgs.length + 1))

/-- R219: the 16 bytes of a leaf message. -/
def msgBytes (m : LeafMsg) : List Byte :=
  let b := BitVec.ofNat 8 m.type :: (toLe 2 m.leaf ++ toLe 3 m.tag ++ toLe 4 m.arg ++ toLe 2 m.seq)
  b ++ toLe 4 (crc32c b)

/-- R219, R223: ASSIGN of leaf `i`. -/
def sendAssign (le i : Nat) (s : State) : State :=
  (msgPut le 1 i (leafTagOf s.inForce le i) (leafHome s.inForce le i * 2 ^ 24 + leafRo s.inForce le i) s).2

/-- R223: RANGE_ADJ moves the RO in force by the change it carries; with done a RANGING leaf becomes ACTIVE. -/
def roMove (le i : Nat) (change : Int) (done : Bool) (s : State) : State :=
  let f := F.LE_P2MP_LEAF_ST_ro_active le (i / 256) (i % 256)
  let s := s.setF f (unsigned 20 ((s.g f : Int) + change))
  if done && leafSt s le i == 2 then State.evt (lep le 0x20) 2 (leafStGo le i 3 s) else s

/-- R223, R224: the hub sends RANGE_ADJ itself. -/
def sendRangeAdj (le i : Nat) (change : Int) (done : Bool) (s : State) : State :=
  let (ok, s) := msgPut le 2 i 0 (done.toNat * 2 ^ 31 + unsigned 16 change) s
  if ok then roMove le i change done s else s

/-- R223: a leaf is quiesced. -/
def leafQuiesce (le i : Nat) (s : State) : State :=
  if leafSt s le i = 1 ∨ leafSt s le i = 2 ∨ leafSt s le i = 3 ∨ leafSt s le i = 5 then
    leafStGo le i 4 (modLeafHub le i (fun h => { h with quiesce := true, sentAt := s.now }) s)
  else s

/-- R223: a quiesced leaf is released. -/
def leafRelease (le i : Nat) (s : State) : State :=
  if leafSt s le i = 4 then leafStGo le i 2 (modLeafHub le i (fun h => { h with quiesce := false, okPrev := false }) s) else s

/-- R223: the leaf table after a COMMIT: entries made valid or cleared. -/
def leafCommit (le : Nat) (old : Tbl Nat) (s : State) : State :=
  s.forEach (List.range 512) fun i s =>
    let now := leafValid s.inForce le i
    if now && leafSt s le i == 0 then
      let s := s.setF (F.LE_P2MP_LEAF_ST_ro_active le (i / 256) (i % 256)) (leafRo s.inForce le i)
      let s := s.setF (F.LE_P2MP_LEAF_CD_cd le (i / 256) (i % 256)) (s.cur (F.LE_P2MP_DISC_CD_cd le))
      let s := modLeafHub le i (fun _ => { sends := 1, sentAt := s.now }) s
      sendAssign le i (leafStGo le i 1 s)
    else if !now && leafValid old le i && leafSt s le i != 0 then
      let s := modLeafHub le i (fun _ => { dereg := 2, sentAt := s.now }) (leafStGo le i 0 s)
      (msgPut le 6 i 0 0 s).2
    else if leafSt s le i = 4 then modLeafHub le i (fun h => { h with quiesce := false }) s
    else s

/-- LEAF_MSG_REPEAT. R223: a repetition timer of leaf `i` runs out: ASSIGN and QUIESCE every 8 periods, ASSIGN every 64
after 64 sends, DEREGISTER 3 times. -/
def execLeafMsgRepeat (le : Fin 2) (i : Fin 512) (s : State) : Host.Outcome State Fault Refusal :=
  let le := le.val
  let i := i.val
  let h := leafHub s le i
  let again (n : Nat) (s : State) : State :=
    let s := s.reach (h.sentAt + n * 125000)
    modLeafHub le i (fun h => { h with sentAt := s.now }) s
  if !isHub s le then .next s
  else if leafSt s le i = 1 then
    let s := again (if h.sends ≤ 64 then 8 else 64) s
    let s := sendAssign le i (modLeafHub le i (fun h => { h with sends := h.sends + 1 }) s)
    .next (if h.sends = 64 then State.evt (lep le 0x20) 7 s else s)
  else if leafSt s le i = 4 && h.quiesce then .next (msgPut le 4 i 0 0 (again 8 s)).2
  else if leafSt s le i = 0 && h.dereg != 0 then
    .next (msgPut le 6 i 0 0 (modLeafHub le i (fun h => { h with dereg := h.dereg - 1 }) (again 8 s))).2
  else .next s

/-- R219, R237: a write of LMSG_GO queues the message of LMSG_0 to LMSG_2: only ASSIGN carries the tag, and QUIESCE, RELEASE and
DEREGISTER carry the argument zero; QUIESCE, RELEASE and RANGE_ADJ move the entry's state (R223). -/
def lmsgGo (m : Master) (le : Nat) (s : State) : State :=
  s.goWrite m (lep le 0x21 * 0x1000 + 0x90) false fun s =>
    let ty := s.g (F.LE_P2MP_LMSG_0_type le)
    let i := s.g (F.LE_P2MP_LMSG_0_leaf_id le)
    let arg := if 4 ≤ ty ∧ ty ≤ 6 then 0 else s.g (F.LE_P2MP_LMSG_2_arg le)
    let (ok, s) := msgPut le ty i (if ty = 1 then s.g (F.LE_P2MP_LMSG_1_tag le) else 0) arg s
    if !ok then s.setB (F.LE_P2MP_LMSG_STAT_overrun le) true
    else if 512 ≤ i then s
    else match ty with
      | 2 => roMove le i (signed 16 (arg % 65536)) (arg.testBit 31) s
      | 4 => leafQuiesce le i s
      | 5 => leafRelease le i s
      | _ => s

/-- LMSG_GO -/
def execLmsgGo (m : Master) (le : Fin 2) (s : State) : Host.Outcome State Fault Refusal := .next (lmsgGo m le.val s)

/-! ## Hub: the burst map (R215 to R217) -/

/-- R217: whether a grant is withheld from the map. -/
def withheld (s : State) (le g : Nat) : Bool :=
  match gType g with
  | 0 => !(leafSt s le (gLeaf g) == 3 || leafSt s le (gLeaf g) == 5)
  | 1 => !(leafSt s le (gLeaf g) == 1 || leafSt s le (gLeaf g) == 2 || leafSt s le (gLeaf g) == 3)
  | _ => false

/-- Insertion by start and then by subcarrier (R216). -/
def grantInsert (g : Nat) : List Nat → List Nat
  | [] => [g]
  | x :: t => if gStart g * 32 + gSc g ≤ gStart x * 32 + gSc x then g :: x :: t else x :: grantInsert g t

/-- The parts of a list, 16 elements each. -/
def chunks16 : Nat → List Nat → List (List Nat)
  | 0, _ => []
  | k + 1, l => if l.length ≤ 16 then [l] else l.take 16 :: chunks16 k (l.drop 16)

/-- R215: the body of a map segment; its stamp is set when it is sent. -/
def segmentBytes (period idx count : Nat) (gs : List Nat) : List Byte :=
  let b := toLe 4 period ++ toLe 8 0 ++
    [BitVec.ofNat 8 idx, BitVec.ofNat 8 count, BitVec.ofNat 8 gs.length, 0] ++ gs.flatMap (toLe 8)
  b ++ toLe 4 (crc32c b)

/-- R216, R217: the hub builds the map of period `p` + map_lead and sends its segments on the downstream streams. -/
def mapBuild (le p : Nat) (s : State) : State :=
  let target := p + s.cur (F.LE_P2MP_HUB_CTRL_map_lead le)
  let all := grants s.inForce le
  let out := all.filter (withheld s le)
  let gs := (all.filter fun g => !withheld s le g).foldr grantInsert []
  let s := s.bump (F.LE_P2MP_CNT_count le 9) out.length
  let s := s.modP2 le fun q => { q with lastBuilt := some p, built := (q.built ++ [(target, gs)]).drop (q.built.length - 15) }
  s.forEach (txStreams s le) fun k s =>
    let parts := chunks16 65 (streamGrants s.inForce le k gs)
    s.forEach parts.zipIdx fun e s =>
      ohPut le k 4 0x01 (segmentBytes (target % 2 ^ 32) e.2 parts.length e.1) s

/-- R217: the start of the next period whose map is not built yet. -/
def nextBuild (s : State) (le : Nat) : Nat :=
  let p := (s.now + 124999) / 125000
  match (s.eng le).p2mp.lastBuilt with
  | some q => max p (q + 1)
  | none => p

/-- MAP_BUILD -/
def execMapBuild (le : Fin 2) (s : State) : Host.Outcome State Fault Refusal :=
  let le := le.val
  if !isHub s le then .next s
  else
    let p := nextBuild s le
    .next (ctrlBoundary le 2 p (mapBuild le p (s.reach (p * 125000))))

/-! ## Leaf (R207, R220 to R225) -/

/-- R220: the leaf's state: 0 IDLE, 1 LISTEN, 2 DISCOVER, 3 ASSIGNED, 4 RANGED, 5 QUIESCED, 6 CONTINUOUS. -/
def leafState (s : State) (le : Nat) : Nat := s.g (F.LE_P2MP_LEAF_STAT_state le)

/-- R222: a new number of DISCOVERY windows to let pass, drawn uniformly. -/
def drawBackoff (le : Nat) (s : State) : State :=
  let (v, s) := s.draw (s.cur (F.LE_P2MP_LEAF_CTRL_backoff le))
  s.modP2 le fun p => { p with skip := v, skipFrom := hubNow s le, waiting := none }

/-- R220: the leaf takes a state. -/
def leafGo (le v : Nat) (s : State) : State :=
  let s := s.setF (F.LE_P2MP_LEAF_STAT_state le) v
  let s := txEval le s
  match v with
  | 1 => s.modP2 le fun p => { p with segs := 0, held := [], waiting := none, heldSince := s.now }
  | 2 => drawBackoff le s
  | _ => s

/-- R220: id and RO are dropped. -/
def leafForget (le : Nat) (s : State) : State :=
  (s.setF (F.LE_P2MP_LEAF_STAT_leaf_id le) 0x3FF).setF (F.LE_P2MP_LEAF_RO_ro le) 0

/-- R220: run_state leaves RUNNING. -/
def leafIdle (le : Nat) (s : State) : State :=
  if leafState s le = 0 then s else leafForget le (leafGo le 0 s)

/-- R207, R220: stream `k` is LOCKED and in frame. -/
def leafReady (s : State) (le k : Nat) : Bool :=
  s.scOf le k == 3 && 2 ≤ Tbl.get 0 (s.eng le).glf.frame k

/-- R220: what takes a leaf out of LISTEN; where both rows apply at once, the continuous upstream (DESIGN CHOICE). -/
def leafEval (le : Nat) (s : State) : State :=
  if !isLeaf s le || leafState s le != 1 then s
  else if s.curOn (F.LE_P2MP_LEAF_CTRL_cont_en le) && leafReady s le (s.cur (F.LE_P2MP_LEAF_CTRL_cont_sc le)) then leafGo le 6 s
  else if 2 ≤ (s.eng le).p2mp.segs && (rxSubs s le).any (leafReady s le) then
    if s.g (F.LE_P2MP_LEAF_STAT_leaf_id le) ≠ 0x3FF ∧ s.now < (s.eng le).p2mp.heldSince + 1000000000 then leafGo le 4 s
    else leafGo le 2 (leafForget le s)
  else s

/-- R382: the boundary of association `i` is a frame boundary of stream `k` of engine `le`: type 0 in transmit, 1 in receive. -/
def saAtFrame (s : State) (ty le k i : Nat) : Bool :=
  let t := saBinding s i
  !saPerMap s i && saType t i == ty && saEngine t i == le && s.cur (F.LE_GLF_CONT_CFG_stream le (saCont t i)) == k

/-- GLF_HEADER_RX. R269 to R271 in the native line mode (R28), and R220 for a leaf that comes in frame. -/
def execGlfHeaderRx (le : Fin 2) (k : Fin 32) (pos : Nat) (hdr partB : List Byte) (jc : List (Fin 32 × Word)) (s : State) :
    Host.Outcome State Fault Refusal :=
  if s.native le.val = true ∧ s.syncOf le.val k.val = 2 then
    .next (leafEval le.val (glfJudge le.val k.val pos hdr partB jc (saPart (saAtFrame s 1 le.val k.val) s)))
  else .next s

/-- R221: whether the leaf may use a grant's subcarrier. -/
def txEnabledSc (s : State) (le k : Nat) : Bool := (s.cur (F.LE_TX_SC_EN_en le)).testBit k

/-- MAP_SEGMENT. R207, R216, R220, R221: a segment whose CRC passes sets the hub-time estimate (`latch`: the leaf's device
time at the first symbol of the frame that holds it) and gives the leaf its grants. -/
def execMapSegment (le : Fin 2) (k : Fin 32) (latch : BitVec 64) (seg : List Byte) (s : State) :
    Host.Outcome State Fault Refusal :=
  let le := le.val
  let n := seg.length
  let g := byteAt seg 14
  if !isLeaf s le || Tbl.get 0 (s.eng le).glf.frame k.val < 2 || n != 20 + 8 * g || 16 < g ||
      leNat seg (n - 4) 4 != crc32c (seg.take (n - 4)) then .next s
  else
    let stamp := leNat seg 4 8
    let base := stamp / 125000
    let period := base + (leNat seg 0 4 + 2 ^ 32 - base % 2 ^ 32) % 2 ^ 32
    let all := (List.range g).map fun j => leNat seg (16 + 8 * j) 8
    let id := s.g (F.LE_P2MP_LEAF_STAT_leaf_id le)
    let mine := all.filter fun g => (gLeaf g == id && gType g ≤ 1) || gType g == 2
    let (ok, no) := mine.partition fun g => txEnabledSc s le (gSc g)
    let refused := no.filter fun g => gType g != 2 || leafState s le == 2
    let s := if refused.isEmpty then s
      else State.evt (lep le 0x22) 5 (s.bump (F.LE_P2MP_LEAF_CNT_count le 1) refused.length)
    let s := s.modP2 le fun p => { p with
      segs := p.segs + 1, lastSeg := s.now, segDark := false, stamp := stamp, latch := latch.toNat,
      held := p.held ++ ok.map fun g => (period * 125000 + gStart g * 125, g) }
    .next (leafEval le (ctrlBoundary le 3 period (txEval le s)))

/-- R207: the leaf's device time at which the hub-time estimate reaches `e`. -/
def leafTime (s : State) (le : Nat) (e : Int) : Nat :=
  (e - (s.eng le).p2mp.stamp + (s.eng le).p2mp.latch).toNat

/-- R225, R234: the device times between which a burst of `t` symbols from `at'` on may put out codes: to T/Rb + 32 ns, and in RAMP
from t_lead before to t_lag + t_down after it. -/
def burstSpan (s : State) (le g t at' : Nat) : Nat × Nat :=
  let fin := at' + symbolsNs (s.cur (F.LE_TX_PLAN_baud le)) (gWidth g) t
  if s.cur (F.LE_TX_ENV_CTRL_env_mode le) = 2 then
    (at' - 10 * s.cur (F.LE_TX_ENV_TIME_t_lead le), fin + 10 * (s.cur (F.LE_TX_ENV_TIME_t_lag le) + s.cur (F.LE_TX_ENV_TIME_t_down le)) + 32)
  else (at', fin + 32)

/-- R210, R211: a burst leaves: it is counted, the envelope follows, and its header and the bytes of its code words are kept. -/
def burstOut (le hdr g t at' : Nat) (bytes : List Byte) (s : State) : State :=
  let s := s.reach (at' + symbolsNs (s.cur (F.LE_TX_PLAN_baud le)) (gWidth g) t)
  let s := envBurst le at' (at' + symbolsNs (s.cur (F.LE_TX_PLAN_baud le)) (gWidth g) t) s
  State.datapath (s.modP2 le fun p => { p with
    sent := some (hdr, g, t), sentBytes := bytes, span := some (burstSpan s le g t at'),
    burstSeq := (p.burstSeq + 1) % 256 }) (1069 + 48 * le) 1

/-- R211: header bits 63:16 followed by the HCS. -/
def burstHeader (hi : Nat) : Nat := hi * 65536 + crc16 (toBe 6 hi)

/-- R154, R210, R225: whether a leaf can send a burst: RUNNING, its transmitter enabled, no reload, segments still arriving. -/
def burstReady (s : State) (le : Nat) : Bool :=
  isLeaf s le && s.on (F.UBH_STAT_tx_enabled le) && !s.on (F.LE_TX_PLAN_STAT_reload_busy le) && !(s.eng le).p2mp.segDark

/-! ## The symbols of a burst (R209 to R212, R233) -/

/-- R210: symbol `i` of preamble A (16 symbols) or B (128 symbols) of polarisation `x` on band `j` of width class `c`. -/
def preambleSym (second : Bool) (c j x i : Nat) : Sym :=
  qpskOf (prbsBits 15 14 2 (prbsAfter 15 14 (2 * i) ((if second then 0x0300 else 0x0200) + 8 * c + 2 * j + x)))

/-- R211: header symbol `n` of polarisation `x`: coded bits 4n to 4n + 3 are the signs of I and Q on X, then on Y; coded bit i is header
bit 63 − (i mod 64). -/
def headerSym (hdr x n : Nat) : Sym :=
  let c (i : Nat) : Bool := hdr.testBit (63 - i % 64)
  { i := signed1 (c (4 * n + 2 * x)) 1, q := signed1 (c (4 * n + 2 * x + 1)) 1 }

/-- R212: payload symbol `j` of polarisation `x` of a burst of a modulation on subcarrier `sc`: a pilot where j ≡ 0 (mod 32), its
sequence restarted at the burst, else a data symbol of the code-word bits in the order I of X, Q of X, I of Y, Q of Y; bits beyond the
last code word are zero. -/
def payloadSym (sc md boost x : Nat) (bits : Nat → Bool) (j : Nat) : Sym :=
  if isPilot j then pilotSym sc x (j / 32) boost
  else
    let b := bitsPer2D md
    mapPoint md ((List.range b).map fun i => bits (b * (2 * dataIndex j + x) + i))

/-- R255: bit `i` of the code words of a burst that carries these bytes. -/
def burstBit (bytes : List Byte) (i : Nat) : Bool :=
  let w := i / 4096
  if 416 * w < bytes.length then ((burstWord (bytes.drop (416 * w))).getD (i % 4096 / 64) 0).getLsbD (i % 64) else false

/-- R210, R233: symbol `n` of a burst of `t` symbols: ramp-up (the end of preamble A), preamble A, preamble B, header, payload, tail,
ramp-down (the tail again). In RAMP the ramp symbols leave at full amplitude (R159). -/
def burstSym (hdr g t boost : Nat) (ramp : Bool) (bytes : List Byte) (x n : Nat) : Sym :=
  let c := gWidth g
  let j := gBand g
  if n < 16 then { preambleSym false c j x n with ramp := if ramp then none else some (rampFactor false n) }
  else if n < 144 then preambleSym false c j x (n % 16)
  else if n < 272 then preambleSym true c j x (n - 144)
  else if n < 336 then headerSym hdr x (n - 272)
  else if n < t - 32 then payloadSym (gSc g) (hdr / 2 ^ 48 % 4) boost x (burstBit bytes) (n - 336)
  else if n < t - 16 then preambleSym true c j x (n - (t - 32))
  else { preambleSym true c j x (n - (t - 16)) with ramp := if ramp then none else some (rampFactor true (n - (t - 16))) }

/-- R210: symbol `n` of polarisation `x` of the burst last sent by a leaf. -/
def sentSym (s : State) (le x n : Nat) : Sym :=
  match (s.eng le).p2mp.sent with
  | some (hdr, g, t) => burstSym hdr g t (s.cur (F.LE_TX_SHAPE_pilot_boost le)) (s.cur (F.LE_TX_ENV_CTRL_env_mode le) == 2)
      (s.eng le).p2mp.sentBytes x n
  | none => Sym.zero

/-- R235: in LEAF, receive stage `k` (of R162) runs on a subcarrier: stages 5 to 9 only where it is enabled. -/
def rxStageRuns (s : State) (le k sc : Nat) : Bool :=
  s.role le != 3 || !(5 ≤ k && k ≤ 9) || (s.cur (F.LE_RX_SC_EN_en le)).testBit sc

/-- R235: in LEAF, transmit stage `k` (of R128) runs on a subcarrier: stages 1 to 5 only for the burst in progress (or the continuous
upstream). -/
def txStageRuns (s : State) (le k sc : Nat) : Bool :=
  s.role le != 3 || !(1 ≤ k && k ≤ 5) || (leafState s le == 6 && s.cur (F.LE_P2MP_LEAF_CTRL_cont_sc le) == sc) ||
  (match (s.eng le).p2mp.sent, (s.eng le).p2mp.span with
   | some (_, g, _), some (a, b) => gSc g == sc && decide (a ≤ s.now) && decide (s.now ≤ b)
   | _, _ => false)

/-! ## What a burst carries (R283, R385) -/

/-- R283: the UPSTREAM container whose cells fill a leaf's bursts: the lowest-numbered valid one (DESIGN CHOICE). -/
def upContainer (s : State) (le : Nat) : Option Nat :=
  (List.range 64).find? fun c => contValid s.inForce le c && s.cur (F.LE_GLF_CONT_CFG_kind le c) == 1

/-- R283, R384, R385: the information bytes of a burst of `cw` code words: cells, or the unit that the cipher has made of them with its
tag in the last 16 bytes. -/
def burstBytes (le cw : Nat) (s : State) : List Byte × State :=
  match upContainer s le with
  | none => (List.replicate (416 * cw) 0, s)
  | some c =>
    match saOf s.inForce 0 le c with
    | some i =>
      let u := (Tbl.find s.cip.sent i).getD ([], [])
      ((u.1 ++ List.replicate (416 * cw - 16 - u.1.length) 0 ++ u.2).take (416 * cw),
       { s with cip := { s.cip with sent := Tbl.erase s.cip.sent i } })
    | none => takeCells le c (416 * cw) s

/-- BURST_TRANSMIT. R207, R213, R221: the burst of a held DATA or RANGING grant. -/
def execBurstTransmit (le : Fin 2) (g : BitVec 64) (s : State) : Host.Outcome State Fault Refusal :=
  let le := le.val
  let g := g.toNat
  match (s.eng le).p2mp.held.find? fun e => e.2 == g with
  | none => .next s
  | some (start, _) =>
    let id := s.g (F.LE_P2MP_LEAF_STAT_leaf_id le)
    if !burstReady s le || gLeaf g != id || !((leafState s le == 4 && gType g ≤ 1) || (leafState s le == 3 && gType g == 1)) then
      .next s
    else
      let cw := if gType g = 0 then cwFit (s.cur (F.LE_TX_PLAN_baud le)) g else 0
      let t := 368 + (if gType g = 0 then payloadSymbols (gMod g) cw else 0)
      let md := if gType g = 0 then gMod g else 0
      let hi := ((((id * 16 + gType g) * 4 + md) * 256 + (s.eng le).p2mp.burstSeq) * 1024 + cw) * 16384
      let at' := leafTime s le ((start : Int) - s.g (F.LE_P2MP_LEAF_RO_ro le))
      let s := s.modP2 le fun p => { p with held := p.held.filter fun e => start < e.1 || (e.1 == start && e.2 != g) }
      let (bytes, s) := burstBytes le cw s
      .next (burstOut le (burstHeader hi) g t at' bytes (s.bump (F.LE_P2MP_LEAF_CNT_count le 0) 1))

/-- R222: puts a window among others by its start and subcarrier; one that several streams carried counts once. -/
def windowInsert (e : Nat × Nat) : List (Nat × Nat) → List (Nat × Nat)
  | [] => [e]
  | x :: t => if e = x then x :: t else if e.1 * 32 + gSc e.2 ≤ x.1 * 32 + gSc x.2 then e :: x :: t else x :: windowInsert e t

/-- R222: the usable DISCOVERY windows since the backoff was drawn, in their order. -/
def windows (s : State) (le : Nat) : List (Nat × Nat) :=
  let p := (s.eng le).p2mp
  (p.held.filter fun e => gType e.2 == 2 && decide (p.skipFrom ≤ e.1)).foldr windowInsert []

/-- R222: the window that the backoff leads to. -/
def chosenWindow (s : State) (le : Nat) : Option (Nat × Nat) := (windows s le)[(s.eng le).p2mp.skip]?

/-- DISCOVERY_BURST. R222: the window the backoff leads to: the bare burst carries the tag and a random delay. -/
def execDiscoveryBurst (le : Fin 2) (g : BitVec 64) (s : State) : Host.Outcome State Fault Refusal :=
  let le := le.val
  let g := g.toNat
  match chosenWindow s le with
  | none => .next s
  | some (start, w) =>
    if w != g || !burstReady s le || leafState s le != 2 || (s.eng le).p2mp.waiting.isSome then .next s
    else
      let (v, s) := s.draw 64
      let delay := v % (gJitter g + 1)
      let tag := s.g F.ENC_SERIAL_LO_serial % 2 ^ 24
      let hi := ((((((0x3FF * 16 + 2) * 4) * 64 + tag / 2 ^ 18) * 4 + delay / 256) * 4 + tag / 2 ^ 16 % 4) * 256 +
        delay % 256) * 16384 + tag / 4 % 2 ^ 14
      let at' := leafTime s le ((start : Int) + delay * 125 - gRoPre g * 1000)
      let s := s.modP2 le fun p => { p with
        held := p.held.filter (fun e => decide (start < e.1)), skip := 0, waiting := some s.now }
      .next (burstOut le (burstHeader hi) g 368 at' [] (s.bump (F.LE_P2MP_LEAF_CNT_count le 3) 1))

/-- DISCOVERY_WAIT_EXPIRY. R220: 64 periods pass without ASSIGN. -/
def execDiscoveryWaitExpiry (le : Fin 2) (s : State) : Host.Outcome State Fault Refusal :=
  let le := le.val
  match (s.eng le).p2mp.waiting with
  | some t => if leafState s le = 2 then .next (drawBackoff le (s.reach (t + 8000000))) else .next s
  | none => .next s

/-- ASSIGN. R211, R220: the ASSIGN of the leaf's own tag (bits 23:2 compared). -/
def execAssign (le : Fin 2) (id : Fin 512) (tag : BitVec 24) (home : Fin 32) (ro : BitVec 20) (s : State) :
    Host.Outcome State Fault Refusal :=
  let le := le.val
  if isLeaf s le && leafState s le == 2 && tag.toNat / 4 == s.g F.ENC_SERIAL_LO_serial % 2 ^ 24 / 4 then
    if (s.cur (F.LE_RX_SC_EN_en le)).testBit home.val then
      let s := leafGo le 3 (s.modP2 le fun p => { p with waiting := none })
      let s := (s.setF (F.LE_P2MP_LEAF_STAT_leaf_id le) id.val).setF (F.LE_P2MP_LEAF_STAT_home le) home.val
      .next (State.evt (lep le 0x22) 0 (s.setF (F.LE_P2MP_LEAF_RO_ro le) ro.toNat))
    else .next (State.evt (lep le 0x22) 5 (s.bump (F.LE_P2MP_LEAF_CNT_count le 1) 1))
  else .next s

/-- R219, R395: a leaf message of a type for this leaf, with its sequence and its tag (empty: untagged): one that is not
authentic where it must be is discarded and counted. -/
def leafMsg (le type id arg seq : Nat) (tag : List Byte) (f : State → State) (s : State) : State :=
  if !isLeaf s le || s.g (F.LE_P2MP_LEAF_STAT_leaf_id le) != id then s
  else
    let m : LeafMsg := { type := type, leaf := id, tag := 0, arg := arg, seq := seq }
    match ctrlAccept le (s.curOn (F.LE_P2MP_LEAF_CTRL_ctrl_auth le)) (msgBytes m) tag s with
    | (.taken, s) => f s
    | (.authFail, s) => State.evt (lep le 0x22) 6 (s.bump (F.LE_P2MP_LEAF_CNT_count le 2) 1)
    | (.discarded, s) => s

/-- RANGE_ADJ. R220: the RO changes; done makes an ASSIGNED leaf RANGED. -/
def execRangeAdj (le : Fin 2) (id : Fin 512) (done : Bool) (change seq : BitVec 16) (tag : List Byte) (s : State) :
    Host.Outcome State Fault Refusal :=
  let le := le.val
  .next (leafMsg le 2 id.val (done.toNat * 2 ^ 31 + change.toNat) seq.toNat tag (fun s =>
    if leafState s le = 3 ∨ leafState s le = 4 then
      let f := F.LE_P2MP_LEAF_RO_ro le
      let s := s.setF f (unsigned 20 ((s.g f : Int) + change.toInt))
      if leafState s le = 3 ∧ done = true then State.evt (lep le 0x22) 1 (leafGo le 4 s) else s
    else s) s)

/-- POWER_ADJ. R232: the gain takes the change, clamped to −12.00 to +6.00 dB. -/
def execPowerAdj (le : Fin 2) (id : Fin 512) (change seq : BitVec 16) (tag : List Byte) (s : State) :
    Host.Outcome State Fault Refusal :=
  let le := le.val
  .next (leafMsg le 3 id.val change.toNat seq.toNat tag (fun s =>
    if leafState s le = 4 then
      let f := F.LE_P2MP_LEAF_GAIN_gain le
      s.setF f (unsigned 9 (clampI (-240) 120 (signed 9 (s.g f) + change.toInt)))
    else s) s)

/-- QUIESCE. R220. -/
def execQuiesce (le : Fin 2) (id : Fin 512) (seq : BitVec 16) (tag : List Byte) (s : State) : Host.Outcome State Fault Refusal :=
  let le := le.val
  .next (leafMsg le 4 id.val 0 seq.toNat tag (fun s =>
    if leafState s le = 3 ∨ leafState s le = 4 then State.evt (lep le 0x22) 2 (leafGo le 5 s) else s) s)

/-- R220: a quiesced leaf returns to ASSIGNED; a transmitter disabled by self-guard is enabled again. -/
def leafUnquiesce (le : Nat) (s : State) : State :=
  if isLeaf s le && leafState s le == 5 then leafGo le 3 (s.modP2 le fun p => { p with selfOff := false }) else s

/-- RELEASE -/
def execRelease (le : Fin 2) (id : Fin 512) (seq : BitVec 16) (tag : List Byte) (s : State) : Host.Outcome State Fault Refusal :=
  .next (leafMsg le.val 5 id.val 0 seq.toNat tag (leafUnquiesce le.val) s)

/-- DEREGISTER. R220: any state but IDLE: the id is cleared. -/
def execDeregister (le : Fin 2) (id : Fin 512) (seq : BitVec 16) (tag : List Byte) (s : State) : Host.Outcome State Fault Refusal :=
  let le := le.val
  .next (leafMsg le 6 id.val 0 seq.toNat tag (fun s => if leafState s le = 0 then s
    else leafGo le 2 (s.setF (F.LE_P2MP_LEAF_STAT_leaf_id le) 0x3FF)) s)

/-- R220: LEAF_CLR.go. -/
def leafClr (m : Master) (le : Nat) (s : State) : State :=
  s.goWrite m (lep le 0x22 * 0x1000 + 0x54) false (leafUnquiesce le)

/-- LEAF_CLR -/
def execLeafClr (m : Master) (le : Fin 2) (s : State) : Host.Outcome State Fault Refusal := .next (leafClr m le.val s)

/-- R225: the output now lies within a usable grant: that of the last burst, or one held whose transmit instant has come. -/
def inGrant (s : State) (le : Nat) : Bool :=
  let p := (s.eng le).p2mp
  let within (a : Nat × Nat) : Bool := decide (a.1 ≤ s.now) && decide (s.now ≤ a.2)
  (match p.span with | some a => within a | none => false) ||
  p.held.any fun e =>
    gType e.2 ≤ 1 && gLeaf e.2 == s.g (F.LE_P2MP_LEAF_STAT_leaf_id le) &&
      (leafState s le == 4 || (leafState s le == 3 && gType e.2 == 1)) &&
      (let cw := if gType e.2 = 0 then cwFit (s.cur (F.LE_TX_PLAN_baud le)) e.2 else 0
       let t := 368 + (if gType e.2 = 0 then payloadSymbols (gMod e.2) cw else 0)
       within (burstSpan s le e.2 t (leafTime s le ((e.1 : Int) - s.g (F.LE_P2MP_LEAF_RO_ro le)))))

/-- SELF_GUARD_TRIP. R220, R225: output codes that are not zero outside every usable grant. -/
def execSelfGuardTrip (le : Fin 2) (s : State) : Host.Outcome State Fault Refusal :=
  let le := le.val
  if isLeaf s le && s.curOn (F.LE_P2MP_LEAF_CTRL_self_guard le) && leafState s le != 0 && !inGrant s le then
    let s := leafGo le 5 (s.modP2 le fun p => { p with selfOff := true })
    .next (State.evt (lep le 0x22) 4 (State.evt (lep le 0x22) 2 s))
  else .next s

/-- SEGMENT_LOSS_DARK. R225: 1 ms without a valid segment. -/
def execSegmentLossDark (le : Fin 2) (s : State) : Host.Outcome State Fault Refusal :=
  let le := le.val
  if isLeaf s le then
    .next (txEval le ((s.reach ((s.eng le).p2mp.lastSeg + 1000000)).modP2 le fun p => { p with segDark := true }))
  else .next s

/-- MAP_LOST. R220: the home subcarrier is not LOCKED or not in frame, or 8 periods pass without a valid segment. -/
def execMapLost (le : Fin 2) (s : State) : Host.Outcome State Fault Refusal :=
  let le := le.val
  if isLeaf s le && 2 ≤ leafState s le then
    let home := if leafState s le = 6 then s.cur (F.LE_P2MP_LEAF_CTRL_cont_sc le) else s.g (F.LE_P2MP_LEAF_STAT_home le)
    let s := if leafReady s le home then s.reach ((s.eng le).p2mp.lastSeg + 1000000) else s
    .next (State.evt (lep le 0x22) 3 (leafGo le 1 s))
  else .next s

/-- LEAF_ID_EXPIRE. R220: after 1 s in LISTEN. -/
def execLeafIdExpire (le : Fin 2) (s : State) : Host.Outcome State Fault Refusal :=
  let le := le.val
  if isLeaf s le && leafState s le == 1 && s.g (F.LE_P2MP_LEAF_STAT_leaf_id le) != 0x3FF then
    .next (leafForget le (s.reach ((s.eng le).p2mp.heldSince + 1000000000)))
  else .next s

/-! ## Lookout (R226 to R231) -/

/-- R227: the reception on the same burst. -/
def findRecv (s : State) (le sc w band : Nat) (live : Recv → Bool) : Option Recv :=
  (s.eng le).p2mp.recv.find? fun r => r.sc == sc && r.w == w && r.band == band && live r

/-- Replaces the receptions of an engine. -/
def setRecv (le : Nat) (f : List Recv → List Recv) (s : State) : State := s.modP2 le fun p => { p with recv := f p.recv }

/-- Counter `c` of page 0x20 (R236). -/
def p2Count (le c : Nat) (s : State) : State := s.bump (F.LE_P2MP_CNT_count le c) 1

/-- R237: a burst record is queued, where its mode asks for it; a full FIFO drops it. -/
def brecPut (le : Nat) (r : Recv) (w1 w2 w3 : Nat) (allOk captured : Bool) (s : State) : State :=
  let leaf := r.hdr / 2 ^ 54
  let ty := r.hdr / 2 ^ 50 % 16
  let w0 := leaf * 2 ^ 22 + r.sc * 2 ^ 17 + r.w * 2 ^ 15 + r.band * 2 ^ 13 + ty % 8 * 2 ^ 10 + 16 + allOk.toNat * 8 +
    captured.toNat * 4 + r.ungranted.toNat * 2 + r.misaligned.toNat
  if s.on (F.LE_P2MP_BREC_CTRL_mode le) && !(ty == 2 || captured || r.ungranted || r.misaligned) then s
  else if 4096 ≤ (s.eng le).p2mp.brec.length then State.evt (lep le 0x20) 6 s
  else
    let s := s.modP2 le fun p => { p with brec := p.brec ++ [(w0, w1, w2, w3)] }
    s.setF (F.LE_P2MP_BREC_COUNT_count le) (s.eng le).p2mp.brec.length

/-- R222, R237: words 1 and 3 of a record; a burst that answers no grant has no S, so ε (and RTT) is a free value. -/
def recordWords (r : Recv) (failed : Nat) (s : State) : Nat × Nat × State :=
  let (fv, s) := if r.start.isSome then (0, s) else s.draw 32
  if r.hdr / 2 ^ 50 % 16 = 2 then
    let tag : Nat := r.hdr / 2 ^ 42 % 64 * 2 ^ 18 + r.hdr / 2 ^ 38 % 4 * 2 ^ 16 + r.hdr / 2 ^ 16 % 2 ^ 14 * 4
    let delay : Nat := r.hdr / 2 ^ 40 % 4 * 256 + r.hdr / 2 ^ 30 % 256
    let rtt : Nat := match r.start with
      | some sw => unsigned 32 ((r.arrival : Int) - sw - (delay * 125 : Nat) + (gRoPre r.grant * 1000 : Nat))
      | none => fv
    (rtt, tag * 256, s)
  else
    let eps := match r.start with
      | some st => unsigned 16 ((r.arrival : Int) - st)
      | none => fv % 65536
    (r.arrival % 2 ^ 32, eps * 65536 + min failed 255 * 256 + min r.rho 255, s)

/-- R226: of the detectors that fired on nested bands, those whose autocorrelation reaches det_thr/256 take part; the preamble B
correlator with the highest peak gives the band (of equal peaks the first listed). -/
def bestDetector (thr : Nat) (fired : List ((Fin 3 × Fin 4) × BitVec 9 × BitVec 16)) : Option (Fin 3 × Fin 4) :=
  ((fired.filter fun d => decide (thr ≤ d.2.1.toNat)).foldl (fun (b : Option ((Fin 3 × Fin 4) × BitVec 9 × BitVec 16)) d => match b with
    | some x => if x.2.2 < d.2.2 then some d else some x
    | none => some d) none).map (·.1)

/-- R229: the start and word of the grant of a map that covers an arrival on a band within `tol` half nanoseconds and meets a test. -/
def coveringGrant (s : State) (le sc w band arrival tol : Nat) (p : Nat → Bool) : Option (Nat × Nat) :=
  let all := (s.eng le).p2mp.built.flatMap fun e => e.2.map fun g => (e.1 * 125000 + gStart g * 125, g)
  all.find? fun e =>
    p e.2 && gSc e.2 == sc && gWidth e.2 == w && gBand e.2 == band &&
    decide (2 * e.1 ≤ 2 * arrival + tol) && decide (2 * arrival ≤ 2 * (e.1 + gLen e.2 * 125) + tol)

/-- R227: the CD a reception assumes: that of the leaf whose grant covers the arrival, DISC_CD for a DISCOVERY window (and where no
grant covers it, DESIGN CHOICE). -/
def burstCd (s : State) (le sc w band arrival : Nat) : Int :=
  match coveringGrant s le sc w band arrival (s.cur (F.LE_P2MP_HUB_CTRL_guard le) * 125) fun g => gType g ≤ 2 with
  | some (_, g) =>
    if gType g ≤ 1 then signed 21 (s.g (F.LE_P2MP_LEAF_CD_cd le (gLeaf g / 256) (gLeaf g % 256)))
    else signed 21 (s.cur (F.LE_P2MP_DISC_CD_cd le))
  | none => signed 21 (s.cur (F.LE_P2MP_DISC_CD_cd le))

/-- PREAMBLE_DETECT. R226, R227: a valid preamble with metric ρ (0.25 dB) whose first ramp symbol arrived at `arrival`. -/
def execPreambleDetect (le : Fin 2) (sc : Fin 32) (bands : List (Fin 3 × Fin 4)) (found : List (BitVec 9 × BitVec 16)) (rho : BitVec 8)
    (arrival : BitVec 64) (s : State) : Host.Outcome State Fault Refusal :=
  if !firedOk bands found then .fault .illFormed else
  let le := le.val
  if !isHub s le || upMode s.inForce le sc.val != 1 then .next s
  else match bestDetector (s.cur (F.LE_P2MP_LOOKOUT_det_thr le)) (bands.zip found) with
  | none => .next s
  | some (w, band) =>
    let rivals := (s.eng le).p2mp.recv.filter fun r =>
      r.mode ≤ 1 && r.sc == sc.val && bandsOverlap w.val band.val r.w r.band
    let margin := 4 * s.cur (F.LE_P2MP_LOOKOUT_capture_margin le)
    let wins := rivals.all fun r => r.mode == 0 || r.rho + margin ≤ rho.toNat
    let new : Recv := { sc := sc.val, w := w.val, band := band.val, rho := rho.toNat, arrival := arrival.toNat,
                        mode := if wins then 0 else 2, cd := burstCd s le sc.val w.val band.val arrival.toNat }
    if wins then
      let s := s.forEach rivals fun r s =>
        if r.mode = 0 then p2Count le 5 s
        else
          let (fv, s) := s.draw 32
          let (w1, w3, s) := recordWords r 0 s
          brecPut le r w1 fv w3 false true (p2Count le 2 s)
      .next (setRecv le (fun l => (l.filter fun r => !(rivals.contains r && r.mode == 1)).map
        (fun r => if rivals.contains r then { r with mode := 3 } else r) ++ [new]) s)
    else
      let lost := (rivals.filter fun r => r.mode == 1 && decide (rho.toNat < r.rho + margin)).length
      .next (setRecv le (fun l => l ++ [new]) (s.bump (F.LE_P2MP_CNT_count le 3) lost))

/-- R229: the grant of a map that a burst of `leaf` and `ty` on a band answers within `tol` half nanoseconds. -/
def answering (s : State) (le leaf ty sc w band arrival tol : Nat) : Option (Nat × Nat) :=
  coveringGrant s le sc w band arrival tol fun g => gType g == ty && (ty == 2 || gLeaf g == leaf)

/-- R230: a rogue event is charged to leaf `i`. -/
def rogueCharge (le i : Nat) (s : State) : State :=
  let f := F.LE_P2MP_LEAF_ST_score le (i / 256) (i % 256)
  let fr := F.LE_P2MP_LEAF_ST_rogue le (i / 256) (i % 256)
  let s := s.bump f 1
  let act := s.cur (F.LE_P2MP_ROGUE_action le)
  if act ≠ 0 ∧ s.cur (F.LE_P2MP_ROGUE_threshold le) ≤ s.g f ∧ s.on fr = false then
    let s := State.evt (lep le 0x20) 3 (s.setB fr true)
    if act = 2 ∧ leafSt s le i ≠ 0 ∧ leafSt s le i ≠ 4 then
      let s := leafQuiesce le i s
      (msgPut le 4 i 0 0 s).2
    else s
  else s

/-- R227, R229: a validated header: its burst is attributed; LOST ends with a CONFIRMED burst (R223). -/
def attributeBurst (le : Nat) (r : Recv) (hdr : Nat) (s : State) : Recv × State :=
  let leaf := hdr / 2 ^ 54
  let ty := hdr / 2 ^ 50 % 16
  let tol := s.cur (F.LE_P2MP_HUB_CTRL_guard le) * 125
  let a := answering s le leaf ty r.sc r.w r.band r.arrival tol
  let un := ty != 2 && a.isNone
  let mis := match a with
    | some (st, _) => ty != 2 && decide (tol < 2 * ((r.arrival : Int) - st).natAbs)
    | none => false
  let r := { r with hdr := hdr, ungranted := un, misaligned := mis, start := a.map (·.1), grant := (a.map (·.2)).getD 0 }
  let s := if un then p2Count le 6 s else s
  let s := if mis then p2Count le 7 s else s
  (r, if un || mis then rogueCharge le leaf s else s)

/-- R227: whether a header is validated. -/
def hdrValid (s : State) (le hdr : Nat) : Bool :=
  hecOk hdr &&
  (let leaf := hdr / 2 ^ 54
   let ty := hdr / 2 ^ 50 % 16
   (ty ≤ 1 && leaf < 512 && leafValid s.inForce le leaf) || (ty == 2 && leaf == 0x3FF))

/-- BURST_HEADER_DECODE. R227, R229: the header of a burst that Lookout follows. -/
def execBurstHeaderDecode (le : Fin 2) (sc : Fin 32) (w : Fin 3) (band : Fin 4) (hdr : BitVec 64) (s : State) :
    Host.Outcome State Fault Refusal :=
  if !bandOk w band then .fault .illFormed else
  let le := le.val
  match findRecv s le sc.val w.val band.val fun r => r.mode != 1 with
  | none => .next s
  | some r =>
    if hdrValid s le hdr.toNat then
      let (r', s) := attributeBurst le r hdr.toNat s
      let leaf := hdr.toNat / 2 ^ 54
      if r.mode = 0 then
        let s := setRecv le (fun l => l.map fun x => if x == r then { r' with mode := 1 } else x) s
        let s := if leaf < 512 then modLeafHub le leaf (fun h => { h with lastOk := max h.lastOk (r'.start.getD 0) }) s else s
        .next (if leaf < 512 && leafSt s le leaf == 5 then leafStGo le leaf 3 s else s)
      else .next (setRecv le (fun l => l.erase r) s)
    else
      let s := setRecv le (fun l => l.erase r) s
      .next (if r.mode = 2 then p2Count le 8 s else p2Count le 4 s)

/-- R232: a burst's deviation from the level target of its band, 0.05 dB (power in 0.1 dB relative to full scale). -/
def powerDev (s : State) (le w : Nat) (power : Int) : Int :=
  2 * power + 5 * (s.cur (F.LE_P2MP_LEVEL_target le) : Int) + 60 * w

/-- Sum of a list. -/
def sumI (l : List Int) : Int := l.foldl (fun a b => a + b) 0

/-- R223, R224: the arrival error of a burst from leaf `i`. -/
def rangeTrack (le i ty : Nat) (eps : Int) (s : State) : State :=
  let auto := s.curOn (F.LE_P2MP_HUB_CTRL_auto_range le)
  let st := leafSt s le i
  if ty = 1 ∧ (st = 1 ∨ st = 2) then
    let ok := decide (eps.natAbs ≤ 16)
    let done := ok && st == 2 && (leafHub s le i).okPrev
    let s := modLeafHub le i (fun h => { h with okPrev := ok, eps := [], pows := [] }) (leafStGo le i 2 s)
    if auto then sendRangeAdj le i eps done s else s
  else if st = 3 then
    let l := (leafHub s le i).eps ++ [eps]
    let l := l.drop (l.length - 16)
    if auto ∧ l.length = 16 ∧ 128 < (sumI l).natAbs then
      sendRangeAdj le i (roundDivI (sumI l) 16) true (modLeafHub le i (fun h => { h with eps := [] }) s)
    else modLeafHub le i (fun h => { h with eps := l }) s
  else s

/-- R232: the power of a burst from leaf `i`; with auto_level a mean deviation of 8 bursts beyond 1 dB is corrected. -/
def powerTrack (le i w : Nat) (power : Int) (s : State) : State :=
  let l := (leafHub s le i).pows ++ [powerDev s le w power]
  let l := l.drop (l.length - 8)
  let s := modLeafHub le i (fun h => { h with pows := l }) s
  let s := s.setF (F.LE_P2MP_LEAF_CD_level_dev le (i / 256) (i % 256))
    (unsigned 8 (clampI (-128) 127 (roundDivI (sumI l) (5 * l.length))))
  if s.curOn (F.LE_P2MP_HUB_CTRL_auto_level le) ∧ leafSt s le i = 3 ∧ l.length = 8 ∧ 160 < (sumI l).natAbs then
    (msgPut le 3 i 0 (unsigned 16 (roundDivI (-(sumI l)) 8)) s).2
  else s

/-- BURST_RX_DONE. R227, R228: the code words and tail of a CONFIRMED burst are in: EVM in 0.01 %, power in 0.1 dB, code
words failed, and the CD estimate of its preamble. -/
def execBurstRxDone (le : Fin 2) (sc : Fin 32) (w : Fin 3) (band : Fin 4) (evm : BitVec 16) (power : Int) (failed : Nat)
    (cd : Int) (s : State) : Host.Outcome State Fault Refusal :=
  if !bandOk w band then .fault .illFormed else
  let le := le.val
  match findRecv s le sc.val w.val band.val fun r => r.mode == 1 with
  | none => .next s
  | some r =>
    let leaf := r.hdr / 2 ^ 54
    let ty := r.hdr / 2 ^ 50 % 16
    let s := setRecv le (fun l => l.erase r) s
    let (w1, w3, s) := recordWords r failed s
    let s := brecPut le r w1 (evm.toNat * 65536 + unsigned 16 power) w3 (failed == 0) false s
    let s := State.datapath (p2Count le (if failed = 0 then 0 else 1) s) (1068 + 48 * le) 1
    if ty = 2 then .next (State.evt (lep le 0x20) 1 (p2Count le 10 s))
    else
      let fcd := F.LE_P2MP_LEAF_CD_cd le (leaf / 256) (leaf % 256)
      let old := signed 21 (s.g fcd)
      let s := s.setF fcd (unsigned 21 (old + clampI (-200) 200 (cd - old)))
      let s := powerTrack le leaf w.val power s
      .next (match r.start with
        | some st => rangeTrack le leaf ty ((r.arrival : Int) - st) s
        | none => s)

/-- R223: the ends of the DATA and RANGING grants of leaf `i` since the last one that a CONFIRMED burst answered, in their order (of the
maps built last). -/
def missedGrants (s : State) (le i : Nat) : List Nat :=
  ((s.eng le).p2mp.built.flatMap fun e => (e.2.filter fun g =>
    gType g ≤ 1 && gLeaf g == i && decide ((leafHub s le i).lastOk < e.1 * 125000 + gStart g * 125)).map fun g =>
      e.1 * 125000 + (gStart g + gLen g) * 125)

/-- BURST_LOSS_DETECT. R223: no CONFIRMED burst in 4 consecutive grants of an ACTIVE leaf: at the end of the fourth. -/
def execBurstLossDetect (le : Fin 2) (i : Fin 512) (s : State) : Host.Outcome State Fault Refusal :=
  match (missedGrants s le.val i.val)[3]? with
  | some fin => if isHub s le.val && leafSt s le.val i.val == 3 then .next (leafStGo le.val i.val 5 (s.reach fin)) else .next s
  | none => .next s

/-- ROGUE_DECAY. R230: every decay periods the score of leaf `i` falls by 1; at 0 its flag clears. -/
def execRogueDecay (le : Fin 2) (i : Fin 512) (s : State) : Host.Outcome State Fault Refusal :=
  let le := le.val
  let s := s.reach ((leafHub s le i.val).decayAt + s.cur (F.LE_P2MP_ROGUE_decay le) * 125000)
  let s := modLeafHub le i.val (fun h => { h with decayAt := s.now }) s
  let f := F.LE_P2MP_LEAF_ST_score le (i.val / 256) (i.val % 256)
  let s := s.setF f (s.g f - 1)
  .next (if s.g f = 0 then s.setB (F.LE_P2MP_LEAF_ST_rogue le (i.val / 256) (i.val % 256)) false else s)

/-- IDLE_MEASURE. R231: the mean power of the window (0.1 dB relative to full scale). -/
def execIdleMeasure (le : Fin 2) (sc : Fin 32) (w : Fin 3) (band : Fin 4) (power : Int) (s : State) :
    Host.Outcome State Fault Refusal :=
  if !bandOk w band then .fault .illFormed else
  let le := le.val
  if !isHub s le then .next s
  else
    let key := sc.val * 16 + w.val * 4 + band.val
    let exceeds := decide (-(5 * (s.cur (F.LE_P2MP_LEVEL_idle_thr le) : Int)) < powerDev s le w.val power)
    let n := if exceeds then min 9 (Tbl.get 0 (s.eng le).p2mp.idle key + 1) else 0
    let s := s.modP2 le fun p => { p with idle := Tbl.set 0 p.idle key n }
    if n = 8 then
      let s := s.setF (F.LE_P2MP_IDLE_BAND_sc le) sc.val
      let s := (s.setF (F.LE_P2MP_IDLE_BAND_width le) w.val).setF (F.LE_P2MP_IDLE_BAND_band le) band.val
      .next (State.evt (lep le 0x20) 5 s)
    else .next s

/-- R237: BREC_CTRL.pop moves the oldest record into BREC_0 to BREC_3; an empty FIFO leaves them. -/
def brecPopDo (le : Nat) (s : State) : State :=
  match (s.eng le).p2mp.brec with
  | [] => s
  | (a, b, c, d) :: t =>
    let s := s.modP2 le fun p => { p with brec := t }
    let s := s.setF (F.LE_P2MP_BREC_COUNT_count le) t.length
    let s := s.setF (F.LE_P2MP_BREC_0_leaf_id le) (a / 2 ^ 22)
    let s := s.setF (F.LE_P2MP_BREC_0_sc le) (a / 2 ^ 17)
    let s := s.setF (F.LE_P2MP_BREC_0_width le) (a / 2 ^ 15)
    let s := s.setF (F.LE_P2MP_BREC_0_band le) (a / 2 ^ 13)
    let s := s.setF (F.LE_P2MP_BREC_0_type le) (a / 2 ^ 10)
    let s := s.setF (F.LE_P2MP_BREC_0_hdr_valid le) (a / 16)
    let s := s.setF (F.LE_P2MP_BREC_0_all_decoded le) (a / 8)
    let s := s.setF (F.LE_P2MP_BREC_0_captured le) (a / 4)
    let s := s.setF (F.LE_P2MP_BREC_0_ungranted le) (a / 2)
    let s := s.setF (F.LE_P2MP_BREC_0_misaligned le) a
    let s := s.setF (F.LE_P2MP_BREC_1_arrival le) b
    let s := (s.setF (F.LE_P2MP_BREC_2_evm le) (c / 65536)).setF (F.LE_P2MP_BREC_2_power le) c
    s.setF (F.LE_P2MP_BREC_3_bits le) d

/-- R237: a write of BREC_CTRL.pop. -/
def brecPop (m : Master) (le : Nat) (s : State) : State :=
  s.goWrite m (lep le 0x21 * 0x1000 + 0x40) false (brecPopDo le)

/-- BREC_POP -/
def execBrecPop (m : Master) (le : Fin 2) (s : State) : Host.Outcome State Fault Refusal := .next (brecPop m le.val s)

end Sys2Proof.Machine
end

