-- ==== Sys2Proof/Machine/HostLanes.lean ====
section
/-! DEFINITION. Host lanes and client ports (09_host_lanes_and_clients.md): lane bring-up, port states, the Sprinica link,
lane sparing, sleep, and the checks of group and port sets. -/
namespace Sys2Proof.Machine

/-! ## Settings of ports and lanes -/

/-- R314: the lane group of port `p`. -/
def portGroup (t : Tbl Nat) (p : Nat) : Nat := look t (F.PORT_CFG_group (p / 8) (p % 8))
/-- R314 -/ def portFirst (t : Tbl Nat) (p : Nat) : Nat := look t (F.PORT_CFG_first_lane (p / 8) (p % 8))
/-- R314: how many lanes the port has. -/
def portWidth (t : Tbl Nat) (p : Nat) : Nat := 2 ^ look t (F.PORT_CFG_lanes (p / 8) (p % 8))
/-- R314 -/ def portValid (t : Tbl Nat) (p : Nat) : Bool := look t (F.PORT_CFG_valid (p / 8) (p % 8)) == 1
/-- R314: 0 PACKET, 1 CBR. -/
def portCbr (t : Tbl Nat) (p : Nat) : Bool := look t (F.PORT_CFG_mapping (p / 8) (p % 8)) == 1
/-- R314: 0 ETHERNET, 1 FLEXO. -/
def portFlexo (t : Tbl Nat) (p : Nat) : Bool := look t (F.PORT_CFG_type (p / 8) (p % 8)) == 1
/-- R314 -/ def portSlm (t : Tbl Nat) (p : Nat) : Nat := look t (F.PORT_CFG_slm (p / 8) (p % 8))
/-- R314 -/ def portSpareEn (t : Tbl Nat) (p : Nat) : Bool := look t (F.PORT_CFG_spare_en (p / 8) (p % 8)) == 1
/-- R314 -/ def portPass (t : Tbl Nat) (p : Nat) : Bool := look t (F.PORT_CFG_rs_fec (p / 8) (p % 8)) == 1

/-- The positions of a port's lanes within its group (R314). -/
def portPositions (t : Tbl Nat) (p : Nat) : List Nat := (List.range (portWidth t p)).map (portFirst t p + ·)

/-- R311, R312: the port-logic rate in units of 1 kb/s. -/
def portRate (t : Tbl Nat) (p : Nat) : Nat :=
  let size := look t (F.PORT_CFG_size (p / 8) (p % 8))
  (if portFlexo t p then 105258000 else if portPass t p then 106250000 else 100390625) * 2 ^ size

/-- R301: a port that needs its own timing. -/
def ownTiming (t : Tbl Nat) (p : Nat) : Bool := portFlexo t p || portPass t p

/-- The state of the lane at position `j` of group `g` (R305). -/
def laneState (s : State) (g j : Nat) : Nat := s.g (F.HL_LANE_STAT_state g j)

/-- R82: the ports whose lanes a clock domain of the host lanes serves: clk_crxk its lane, clk_ctxg its group. -/
def domainPorts (t : Tbl Nat) (dom : Nat) : List Nat :=
  (List.range 32).filter fun p => portValid t p &&
    (if 32 ≤ dom then portGroup t p == (dom - 32) / 8 && (portPositions t p).contains ((dom - 32) % 8)
     else 28 ≤ dom && portGroup t p == dom - 28)

/-- R82: words dropped by a resynchronisation are also lost frames of the port that owns the FIFO, the lowest that the domains serve. -/
def resyncLost (a b dropped : Nat) (s : State) : State :=
  match (domainPorts s.inForce a ++ domainPorts s.inForce b).head? with
  | some p => s.bump (F.PORT_CNT_count (p / 8) (p % 8) 5) dropped
  | none => s

/-- FIFO_RESYNC -/
def execFifoResync (a b : Fin 64) (pa pb : Fin 256) (dropped : Nat) (s : State) : Host.Outcome State Fault Refusal :=
  .next (resyncLost a.val b.val dropped (fifoResync a.val b.val pa.val pb.val dropped s))

/-- R317: a port's state: 0 DOWN, 1 LANE_WAIT, 2 EXCHANGE, 3 ALIGN, 4 UP. -/
def portState (s : State) (p : Nat) : Nat := s.g (F.PORT_STAT_state (p / 8) (p % 8))

/-- What a port keeps. -/
def portSt (s : State) (p : Nat) : PortSt := Tbl.get {} s.lanes.port p

/-- Changes what a port keeps. -/
def modPort (p : Nat) (f : PortSt → PortSt) (s : State) : State :=
  { s with lanes := { s.lanes with port := Tbl.set {} s.lanes.port p (f (Tbl.get {} s.lanes.port p)) } }

/-- Counter `c` of port `p` (R314). -/
def portCount (p c n : Nat) (s : State) : State := s.bump (F.PORT_CNT_count (p / 8) (p % 8) c) n

/-- Event `b` of port `p`: 0 PORT_STATE, 1 PORT_FAULT, 2 SLM_EVENT (R314). -/
def portEvt (p b : Nat) (s : State) : State := State.evt (0xA0 + p / 8) (3 * (p % 8) + b) s

/-- The positions of a port's current lanes: those LANEMAP names once it has been up, else those configured. -/
def portLanes (s : State) (p : Nat) : List Nat :=
  let m := s.g (F.PORT_LANEMAP_map (p / 8) (p % 8))
  let n := portWidth s.inForce p
  let l := (List.range n).map fun j => m / 16 ^ j % 16
  if l.all (· < 8) then l else portPositions s.inForce p

/-- The position of a port's spare lane, if it holds one. -/
def portSpare (s : State) (p : Nat) : Option Nat :=
  match (portSt s p).spare with
  | some j => some j
  | none => if portSpareEn s.inForce p then some (s.cur (F.PORT_CFG_spare_lane (p / 8) (p % 8))) else none

/-- The port that uses the lane at position `j` of group `g`, as a port lane or as its spare. -/
def portOf (s : State) (g j : Nat) : Option Nat :=
  (List.range 32).find? fun p => portValid s.inForce p && portGroup s.inForce p == g &&
    ((portLanes s p).contains j || portSpare s p == some j)

/-! ## Lanes and ports together (R305, R317) -/

/-- R305: a lane takes a state; the bits that go with it are cleared when it starts anew. -/
def laneGo (g j v : Nat) (s : State) : State :=
  let s := s.setF (F.HL_LANE_STAT_state g j) v
  if v ≤ 1 then
    ((s.setB (F.HL_LANE_STAT_cdr_lock g j) false).setB (F.HL_LANE_STAT_sig_det g j) false).setB (F.HL_LANE_STAT_spare g j) false
  else s.setB (F.HL_LANE_STAT_spare g j) (v == 6)

/-- R317: a port takes a state; PORT_STATE is raised. -/
def portGo (p v : Nat) (s : State) : State :=
  if portState s p = v then s else portEvt p 0 (s.setF (F.PORT_STAT_state (p / 8) (p % 8)) v)

/-- spare_ready follows the spare lane (R314, R323). -/
def spareReady (p : Nat) (s : State) : State :=
  let g := portGroup s.inForce p
  let ready := (portSpare s p).any fun j => laneState s g j == 6
  let s := modPort p (fun x => { x with bareAt := if ready then none else some (x.bareAt.getD s.now) }) s
  s.setB (F.PORT_STAT_spare_ready (p / 8) (p % 8)) ready

/-- R320: a new exchange window opens. -/
def openWindow (p : Nat) (s : State) : State :=
  let g := portGroup s.inForce p
  let s := modPort p (fun q => { q with anyValid := false, badVersion := false, badLanes := false }) s
  s.forEach (portLanes s p ++ (portSpare s p).toList) fun j s =>
    { s with lanes := { s.lanes with exch := Tbl.set {} s.lanes.exch (8 * g + j) {} } }

/-- R317, R323: a port whose lanes are READY leaves LANE_WAIT; a lane that regains READY while the port is UP becomes its
spare. -/
def portEval (p : Nat) (s : State) : State :=
  let g := portGroup s.inForce p
  if portState s p = 1 then
    if (portLanes s p).all fun j => laneState s g j == 4 then
      if portSlm s.inForce p = 0 then portGo p 3 s else openWindow p (portGo p 2 s)
    else s
  else if portState s p = 4 then
    match portSpare s p with
    | some j => if laneState s g j = 4 && (portSt s p).features.testBit 0 then spareReady p (laneGo g j 6 s) else s
    | none => s
  else s

/-- R305: the port's receive side finds alignment again or loses it; a FlexO port shows it in flexo_lof. -/
def flexoLof (p : Nat) (b : Bool) (s : State) : State :=
  s.setB (F.PORT_STAT_flexo_lof (p / 8) (p % 8)) (b && portFlexo s.inForce p)

/-- A lane has become READY. -/
def laneReady (g j : Nat) (s : State) : State :=
  let s := laneGo g j 4 s
  let k := 8 * g + j
  let s := if Tbl.get false s.lanes.retrain k && s.cur (F.HL_GRP_CTRL_iface g) == 1 then State.evt (0x90 + g) 2 s else s
  let s := { s with lanes := { s.lanes with retrain := Tbl.set false s.lanes.retrain k false } }
  match portOf s g j with
  | some p => portEval p s
  | none => s

/-- R305, R317, R318: a port leaves UP for a cause that spares the lanes other than `except`: they return to READY. -/
def portLeaveUp (p v : Nat) (s : State) : State :=
  let g := portGroup s.inForce p
  let s := portEvt p 1 (portCount p 11 1 (flexoLof p true (portGo p v s)))
  let s := modPort p (fun q => { q with request := none, acked := false }) s
  s.forEach (portLanes s p) fun j s => if laneState s g j = 5 then laneGo g j 4 s else s

/-! ## Lane commands -/

/-- LANE_SIGNAL_DETECT. R305. -/
def execLaneSignalDetect (k : Fin 32) (s : State) : Host.Outcome State Fault Refusal :=
  let g := k.val / 8
  let j := k.val % 8
  if laneState s g j = 1 then .next ((laneGo g j 2 s).setB (F.HL_LANE_STAT_sig_det g j) true) else .next s

/-- R308: an inverted receive pair is corrected under AUTO and reported; INVERTED corrects it by setting. -/
def polarity (g j : Nat) (inverted : Bool) (s : State) : State :=
  match s.cur (F.HL_LANE_CTRL_rx_pol g j) with
  | 0 => if inverted then State.evt (0x90 + g) 3 (s.setB (F.HL_LANE_STAT_rx_inverted g j) true)
         else s.setB (F.HL_LANE_STAT_rx_inverted g j) false
  | 2 => s.setB (F.HL_LANE_STAT_rx_inverted g j) true
  | _ => s.setB (F.HL_LANE_STAT_rx_inverted g j) false

/-- CDR_CONVERGED. R305, R308: the receiver has converged with an SNR estimate (0.25 dB). -/
def execCdrConverged (k : Fin 32) (inverted : Bool) (snr : Byte) (s : State) : Host.Outcome State Fault Refusal :=
  let g := k.val / 8
  let j := k.val % 8
  if laneState s g j = 2 then
    let s := (s.setB (F.HL_LANE_STAT_cdr_lock g j) true).setF (F.HL_LANE_STAT_snr g j) snr.toNat
    let s := polarity g j inverted s
    .next (if s.cur (F.HL_GRP_CTRL_iface g) = 1 then (laneGo g j 3 s).setB (F.HL_LANE_STAT_sig_det g j) true
           else laneReady g j s)
  else .next s

/-- CDR_TIMEOUT. R305. -/
def execCdrTimeout (k : Fin 32) (s : State) : Host.Outcome State Fault Refusal :=
  if laneState s (k.val / 8) (k.val % 8) = 2 then .next (laneGo (k.val / 8) (k.val % 8) 1 s) else .next s

/-- TRAINING_COMPLETE. R305, R307: with the taps that training has reached. -/
def execTrainingComplete (k : Fin 32) (taps : Word) (s : State) : Host.Outcome State Fault Refusal :=
  if !tapsOk taps then .fault .illFormed else
  let g := k.val / 8
  let j := k.val % 8
  if laneState s g j = 3 then .next (laneReady g j (s.setF (F.HL_LANE_TXFFE_ACT_taps g j) taps.toNat)) else .next s

/-- TRAIN_FAIL. R305. -/
def execTrainFail (k : Fin 32) (s : State) : Host.Outcome State Fault Refusal :=
  let g := k.val / 8
  let j := k.val % 8
  if laneState s g j = 3 then .next (State.evt (0x90 + g) 1 (laneGo g j 1 s)) else .next s

/-- R322: the spare takes the place of logical lane `f`. -/
def substitute (p f : Nat) (s : State) : State :=
  let g := portGroup s.inForce p
  match portSpare s p with
  | none => s
  | some sp =>
    let m := s.g (F.PORT_LANEMAP_map (p / 8) (p % 8))
    let old := m / 16 ^ f % 16
    let s := s.setF (F.PORT_LANEMAP_map (p / 8) (p % 8)) (m - old * 16 ^ f + sp * 16 ^ f)
    let s := (laneGo g sp 5 s).setF (F.HL_LANE_STAT_far_lane g sp) f
    let s := modPort p (fun q => { q with spare := some old, request := none, acked := false }) s
    let s := s.setB (F.PORT_STAT_spare_used (p / 8) (p % 8)) true
    State.evt (0x90 + g) 4 (portEval p (spareReady p s))

/-- R321, R324: message `msg` goes out as an ordered-set pair with sequence `seq`; a direction that sleeps sends WAKE first. -/
def sendWith (p msg lane seq : Nat) (s : State) : State :=
  let asleep := s.on (F.PORT_STAT_tx_asleep (p / 8) (p % 8))
  let s := s.setB (F.PORT_STAT_tx_asleep (p / 8) (p % 8)) (msg == 3)
  if asleep ∧ msg < 3 then
    modPort p (fun q => { q with sent := [(4, 0, (q.seq + 1) % 256), (msg, lane, seq)], seq := (q.seq + 1) % 256 }) s
  else modPort p (fun q => { q with sent := [(msg, lane, seq)] }) s

/-- R321: a message with the port's own sequence. -/
def sendSet (p msg lane : Nat) (s : State) : State :=
  let s := modPort p (fun q => { q with seq := (q.seq + 1) % 256 }) s
  sendWith p msg lane (portSt s p).seq s

/-- R318, R323: the lanes of a port no longer carry it: it leaves UP, and `lost` frames straddle the fault. -/
def portFails (p lost : Nat) (s : State) : State :=
  let s := State.loss (F.PORT_CNT_count (p / 8) (p % 8) 5) lost (portLeaveUp p 1 s)
  if portFlexo s.inForce p then s else s.setB (F.PORT_STAT_rx_local_fault (p / 8) (p % 8)) true

/-- R318, R319: the port sends remote fault toward the host; an Ethernet CBR port never does of itself. -/
def sendsRemoteFault (s : State) (p : Nat) : Bool :=
  portValid s.inForce p && !portFlexo s.inForce p && !portCbr s.inForce p && s.on (F.PORT_STAT_rx_local_fault (p / 8) (p % 8))

/-- LANE_FAULT. R305, R306, R318, R322, R323: `lost` frames straddle the fault when the port leaves UP. -/
def execLaneFault (k : Fin 32) (lost : Nat) (s : State) : Host.Outcome State Fault Refusal :=
  let g := k.val / 8
  let j := k.val % 8
  let st := laneState s g j
  if 4 ≤ st then
    let s := s.incWrap (F.HL_LANE_STAT_retrains g j) 1
    let s := (s.bump (F.HL_LANE_CNT_count g j 2) 1).bump (F.HL_LANE_CNT_count g j 3) 1
    let s := { s with lanes := { s.lanes with retrain := Tbl.set false s.lanes.retrain k.val true } }
    let s := State.evt (0x90 + g) 0 (laneGo g j 1 s)
    match portOf s g j with
    | none => .next s
    | some p =>
      if portSpare s p = some j ∧ !(portLanes s p).contains j then
        .next (if portState s p = 4 ∧ (portSt s p).request.isSome then portFails p lost (spareReady p s) else spareReady p s)
      else if portState s p ≠ 4 then .next s
      else
        let ready := (portSt s p).features.testBit 0 && s.on (F.PORT_STAT_spare_ready (p / 8) (p % 8)) &&
          (portSt s p).request.isNone
        let reverse := !s.on (F.PORT_STAT_rx_remote_fault (p / 8) (p % 8))
        let f := (List.range 8).find? fun l => s.g (F.PORT_LANEMAP_map (p / 8) (p % 8)) / 16 ^ l % 16 == j
        match f with
        | some f =>
          if ready ∧ f = 0 then .next (State.loss (F.PORT_CNT_count (p / 8) (p % 8) 5) lost (substitute p 0 s))
          else if ready ∧ reverse then
            let s := sendSet p 1 f s
            .next (modPort p (fun q => { q with request := some f, reqSeq := q.seq, acked := false }) s)
          else .next (portFails p lost s)
        | none => .next s
  else .next s

/-! ## Capability exchange (R320) -/

/-- The flags a port offers: sparing, fast-wake idle, direction sleep (R320). -/
def offered (t : Tbl Nat) (p : Nat) : Nat :=
  (portSpareEn t p).toNat + 6 * look t (F.PORT_CFG_sleep_en (p / 8) (p % 8))

/-- R317, R320: every lane has exchanged acknowledged frames: the link is agreed and the port aligns. -/
def exchEval (p : Nat) (s : State) : State :=
  let g := portGroup s.inForce p
  let lanes := portLanes s p ++ (portSpare s p).toList
  if portState s p == 2 && lanes.all fun j =>
      let e := Tbl.get {} s.lanes.exch (8 * g + j)
      decide (3 ≤ e.acked) && decide (16 ≤ e.sent) then
    let s := modPort p (fun q => { q with features := q.partner &&& offered s.inForce p &&& 7 }) s
    let s := (s.setB (F.PORT_STAT_slm_active (p / 8) (p % 8)) true).setF (F.PORT_STAT_exch_result (p / 8) (p % 8)) 1
    portGo p 3 (portEvt p 2 s)
  else s

/-- R320: the marker of a capability frame. -/
def capMarker : Nat := 0x7E31C6A9

/-- R320: the 16 bytes of a received frame whose marker and CRC are right, and whether every bit came inverted. -/
def capRead (frame : BitVec 128) : Option (Bool × List Byte) :=
  let good (b : List Byte) := beNat b 0 4 == capMarker && crc16 ((b.drop 4).take 10) == beNat b 14 2
  let b := toBe 16 frame.toNat
  let i := toBe 16 (~~~frame).toNat
  if good b then some (false, b) else if good i then some (true, i) else none

/-- R320: the frame that port `p` sends on a lane of logical index `l` (0x0F the spare), with ack once three valid ones have come. -/
def capSent (s : State) (p l : Nat) (ack : Bool) : List Byte :=
  let body := toBe 1 1 ++ toBe 1 l ++ toBe 1 (offered s.inForce p + 8 * ack.toNat) ++ toBe 1 (portWidth s.inForce p) ++
    toBe 3 (s.g F.ENC_SERIAL_LO_serial % 2 ^ 24) ++ toBe 1 p ++ toBe 2 0
  toBe 4 capMarker ++ body ++ toBe 2 (crc16 body)

/-- R320: what lane `k` has received in an exchange. -/
def setExch (k : Nat) (e : LaneExch) (s : State) : State :=
  { s with lanes := { s.lanes with exch := Tbl.set {} s.lanes.exch k e } }

/-- R320: a capability frame of port `p` that is not valid ends the row of valid ones of lane `k`. -/
def capBroken (k : Nat) (s : State) : State := setExch k { Tbl.get {} s.lanes.exch k with valid := 0, acked := 0 } s

/-- R303, R309, R320: a valid capability frame with bytes `b` on lane `k` of port `p`. -/
def capValid (k p : Nat) (b : List Byte) (s : State) : State :=
  let g := k / 8
  let j := k % 8
  let e := Tbl.get {} s.lanes.exch k
  let lane := byteAt b 5
  let s := setExch k { valid := e.valid + 1, acked := if (byteAt b 6).testBit 3 then e.acked + 1 else 0,
                       sent := if 3 ≤ e.valid then e.sent + 1 else e.sent } s
  let s := if lane < 8 then
      let m := s.g (F.PORT_LANEMAP_map (p / 8) (p % 8))
      let sh := 16 ^ lane
      (s.setF (F.PORT_LANEMAP_map (p / 8) (p % 8)) (m - m / sh % 16 * sh + j * sh)).setF (F.HL_LANE_STAT_far_lane g j) lane
    else s
  let s := (s.setF (F.PORT_PARTNER_tag (p / 8) (p % 8)) (beNat b 8 3)).setF (F.PORT_PARTNER_port (p / 8) (p % 8)) (byteAt b 11)
  exchEval p s

/-- R308, R320: the bytes `b` of a capability frame whose marker was found on lane `k` of port `p`. -/
def capTake (k p : Nat) (inverted : Bool) (b : List Byte) (s : State) : State :=
  let version := byteAt b 4
  let lanes := byteAt b 7
  let s := if inverted then polarity (k / 8) (k % 8) true s else s
  let s := modPort p (fun q => { q with
    anyValid := true, badVersion := q.badVersion || version != 1,
    badLanes := q.badLanes || lanes != portWidth s.inForce p, partner := byteAt b 6 }) s
  if version == 1 && lanes == portWidth s.inForce p then capValid k p b s else capBroken k s

/-- R320: the 128 bits of a capability frame, the first one sent highest. -/
def capBits (marker : Word) (version lane flags lanes : Byte) (tag : BitVec 24) (port : Byte) (tail : Word) : BitVec 128 :=
  marker ++ version ++ lane ++ flags ++ lanes ++ tag ++ port ++ tail

/-- CAPABILITY_FRAME. R308, R320: 128 bits arrive on a lane in EXCHANGE. Frames go both ways back to back: with each one received one has
been sent. -/
def execCapabilityFrame (k : Fin 32) (marker : Word) (version lane flags lanes : Byte) (tag : BitVec 24) (port : Byte) (tail : Word) (s : State) : Host.Outcome State Fault Refusal :=
  let k := k.val
  match portOf s (k / 8) (k % 8) with
  | none => .next s
  | some p =>
    if portState s p ≠ 2 then .next s
    else
      match capRead (capBits marker version lane flags lanes tag port tail) with
      | none => .next (capBroken k s)
      | some c => .next (capTake k p c.1 c.2 s)

/-- EXCHANGE_WINDOW_EXPIRY. R317, R320. -/
def execExchangeWindowExpiry (p : Fin 32) (s : State) : Host.Outcome State Fault Refusal :=
  let p := p.val
  if portState s p = 2 then
    let q := portSt s p
    let res := if !q.anyValid then 2 else if q.badVersion then 4 else if q.badLanes then 3
      else s.g (F.PORT_STAT_exch_result (p / 8) (p % 8))
    let s := portEvt p 2 (portCount p 12 1 (s.setF (F.PORT_STAT_exch_result (p / 8) (p % 8)) res))
    if portSlm s.inForce p = 2 then .next (openWindow p s)
    else
      let s := modPort p (fun q => { q with features := 0 }) s
      let s := s.setF (F.PORT_PARTNER_tag (p / 8) (p % 8)) 0
      .next (portGo p 3 ((s.setF (F.PORT_PARTNER_port (p / 8) (p % 8)) 0xFF).setB (F.PORT_STAT_slm_active (p / 8) (p % 8)) false))
  else .next s

/-! ## Ports -/

/-- R303, R309: each physical lane of a port shows the logical lane that it carries. -/
def farLanes (p : Nat) (s : State) : State :=
  let g := portGroup s.inForce p
  s.forEach (portLanes s p).zipIdx fun e s => s.setF (F.HL_LANE_STAT_far_lane g e.1) e.2

/-- R327: the GID of a FlexO port's received frames against the one it expects. -/
def gidCheck (p : Nat) (gid : BitVec 20) (s : State) : State :=
  s.setB (F.PORT_STAT_gid_mismatch (p / 8) (p % 8)) (portFlexo s.inForce p && gid.toNat != s.cur (F.PORT_GID_gid (p / 8) (p % 8)))

/-- PORT_ALIGNED. R309, R317, R327: lane alignment and deskew; on a standard port the markers name each lane's position, on a FlexO
port the frame brings its GID. -/
def execPortAligned (p : Fin 32) (found : PortAlignment) (s : State) : Host.Outcome State Fault Refusal :=
  let p := p.val
  let g := portGroup s.inForce p
  if portState s p = 3 ∧ ((portLanes s p).all fun j => decide (4 ≤ laneState s g j)) = true then
    let s := if s.on (F.PORT_STAT_slm_active (p / 8) (p % 8)) then s
      else
        let n := portWidth s.inForce p
        let m := (List.range 8).foldl (fun a l =>
          a + (if l < n then (found.order[l]?.map (·.val)).getD (portFirst s.inForce p + l) else 15) * 16 ^ l) 0
        farLanes p (s.setF (F.PORT_LANEMAP_map (p / 8) (p % 8)) m)
    let s := gidCheck p found.gid (flexoLof p false s)
    let s := s.forEach (portLanes s p) fun j s => laneGo g j 5 s
    let s := (s.setB (F.PORT_STAT_spare_used (p / 8) (p % 8)) false).setB (F.PORT_STAT_rx_local_fault (p / 8) (p % 8)) false
    .next (spareReady p (portEval p (portGo p 4 s)))
  else .next s

/-- ALIGNMENT_LOST. R317. -/
def execAlignmentLost (p : Fin 32) (s : State) : Host.Outcome State Fault Refusal :=
  if portState s p.val = 4 then .next (portLeaveUp p.val 3 s) else .next s

/-- R322, R323: the position whose transmitter carries a copy of logical lane 0 after the moves `ms`: the configured spare, then each
lane given up. -/
def copyLane (s : State) (p : Nat) (ms : List Nat) : Nat :=
  match ms.getLast? with
  | some l => portFirst s.inForce p + l
  | none => s.cur (F.PORT_CFG_spare_lane (p / 8) (p % 8))

/-- R322, R323: the position whose transmitter carries logical lane `l` after the moves of the port. -/
def txLane (s : State) (p l : Nat) : Nat :=
  let ms := (portSt s p).moved
  if ms.contains l then copyLane s p (ms.takeWhile (· != l)) else portFirst s.inForce p + l

/-- SPARE_REQ. R321 to R323: a pair is received: it is acknowledged, and the spare's transmitter takes that lane, unless it has taken it
already. -/
def execSpareReq (p : Fin 32) (lane : Fin 8) (seq : Byte) (s : State) : Host.Outcome State Fault Refusal :=
  let p := p.val
  if portState s p = 4 && (portSt s p).features.testBit 0 then
    .next (modPort p (fun q => { q with moved := if q.moved.contains lane.val then q.moved else q.moved ++ [lane.val] })
      (sendWith p 2 lane.val seq.toNat s))
  else .next s

/-- SPARE_ACK. R322. -/
def execSpareAck (p : Fin 32) (lane : Fin 8) (seq : Byte) (s : State) : Host.Outcome State Fault Refusal :=
  let q := portSt s p.val
  if q.request = some lane.val ∧ q.reqSeq = seq.toNat then .next (modPort p.val (fun q => { q with acked := true }) s) else .next s

/-- SPARE_REQ_REPEAT. R321: every 1 µs until SPARE_ACK arrives. -/
def execSpareReqRepeat (p : Fin 32) (s : State) : Host.Outcome State Fault Refusal :=
  match (portSt s p.val).request with
  | some f => if (portSt s p.val).acked then .next s else .next (sendWith p.val 1 f (portSt s p.val).reqSeq s)
  | none => .next s

/-- SPARE_SWITCH. R322: the spare's data stops matching lane 0; `lost` frames lay in code words that could not be
corrected. -/
def execSpareSwitch (p : Fin 32) (lost : Nat) (s : State) : Host.Outcome State Fault Refusal :=
  match (portSt s p.val).request with
  | some f => .next (State.loss (F.PORT_CNT_count (p.val / 8) (p.val % 8) 5) lost (substitute p.val f s))
  | none => .next s

/-- SLEEP. R324. -/
def execSleep (p : Fin 32) (s : State) : Host.Outcome State Fault Refusal :=
  if portState s p.val = 4 && (portSt s p.val).features.testBit 2 then
    .next (s.setB (F.PORT_STAT_rx_asleep (p.val / 8) (p.val % 8)) true)
  else .next s

/-- WAKE. R324. -/
def execWake (p : Fin 32) (s : State) : Host.Outcome State Fault Refusal :=
  .next (s.setB (F.PORT_STAT_rx_asleep (p.val / 8) (p.val % 8)) false)

/-- SLEEP_ENTRY. R324: only idle for sleep_delay. -/
def execSleepEntry (p : Fin 32) (s : State) : Host.Outcome State Fault Refusal :=
  let p := p.val
  if portState s p == 4 && (portSt s p).features.testBit 2 && s.curOn (F.PORT_CFG_sleep_en (p / 8) (p % 8)) &&
      !portCbr s.inForce p && !s.on (F.PORT_STAT_tx_asleep (p / 8) (p % 8)) then
    .next (portCount p 6 1 (sendSet p 3 0 s))
  else .next s

/-- R325: the egress of an Ethernet CBR port with TERMINATE, in a group timed from the DPLL, inserts and deletes idle blocks. -/
def idlesAdjusted (s : State) (p : Nat) : Bool :=
  portCbr s.inForce p && !portFlexo s.inForce p && !portPass s.inForce p && !s.curOn (F.HL_GRP_CTRL_tx_timing (portGroup s.inForce p))

/-- EGRESS_FRAME. R324, R325, R327: a frame or block of `len` bytes reaches egress with `queued` bytes already in the
group's wake buffer; on Ethernet CBR ports with RS-FEC terminated in a DPLL-timed group idle blocks may be adjusted, and a FlexO frame
may slip. -/
def execEgressFrame (p : Fin 32) (len queued idleAdj : Nat) (slip : Bool) (s : State) : Host.Outcome State Fault Refusal :=
  let p := p.val
  if portState s p ≠ 4 then .next s
  else if portCbr s.inForce p then
    let s := State.smpPass 1 p true len (State.datapath (State.datapath s (8 * p + 2) 1) (8 * p + 3) len)
    let s := if idlesAdjusted s p then portCount p 8 idleAdj s else s
    .next (if slip && portFlexo s.inForce p then portCount p 10 1 s else s)
  else
    let asleep := s.on (F.PORT_STAT_tx_asleep (p / 8) (p % 8))
    if asleep && decide (262144 < queued + len) then .next (State.datapath (portCount p 7 1 s) (8 * p + 5) 1)
    else
      let s := if asleep then sendSet p 4 0 s else s
      .next (State.smpPass 1 p false len (State.datapath (State.datapath s (8 * p + 2) 1) (8 * p + 3) len))

/-- R303, R314, R325: what RS-FEC decoding found is counted; a PASS port carries its code words uncorrected and counts none. -/
def fecFound (p : Nat) (x : PortLine) (s : State) : State :=
  if portPass s.inForce p then s
  else
    let g := portGroup s.inForce p
    let s := portCount p 4 x.uncorrected (portCount p 3 x.corrected s)
    s.forEach ((portLanes s p).zip x.symbols) fun e s => s.bump (F.HL_LANE_CNT_count g e.1 0) e.2

/-- R314, R318, R327: the faults that the received signal shows; a fault that comes up raises PORT_FAULT. -/
def faultsFound (p : Nat) (x : PortLine) (s : State) : State :=
  let at' (f : Nat → Nat → Field) : Nat := s.g (f (p / 8) (p % 8))
  let faults (s : State) : List Nat :=
    [F.PORT_STAT_rx_local_fault, F.PORT_STAT_rx_remote_fault, F.PORT_STAT_gid_mismatch].map fun f => s.g (f (p / 8) (p % 8))
  let was := [at' F.PORT_STAT_rx_local_fault, at' F.PORT_STAT_rx_remote_fault, at' F.PORT_STAT_gid_mismatch]
  let eth := !portFlexo s.inForce p
  let s := s.setB (F.PORT_STAT_rx_local_fault (p / 8) (p % 8)) (eth && x.localFault)
  let s := gidCheck p x.gid (s.setB (F.PORT_STAT_rx_remote_fault (p / 8) (p % 8)) (eth && x.remoteFault))
  if (was.zip (faults s)).any fun e => e.1 < e.2 then portEvt p 1 s else s

/-- R303: bit errors of a lane that receives a test pattern, over the 1 µs of a tick: a free value. -/
def patternErrors (k : Nat) (s : State) : State :=
  let g := k / 8
  let j := k % 8
  let (n, s) := s.draw 16
  if n = 0 then s else State.evt (0x90 + g) 5 (s.bump (F.HL_LANE_CNT_count g j 1) n)

/-- R303: the lanes whose checker runs: a pattern is selected and the receiver is READY or beyond. -/
def patternLanes (s : State) : List Nat :=
  (List.range 32).filter fun k => s.cur (F.HL_LANE_CTRL_pattern (k / 8) (k % 8)) != 0 && 4 ≤ laneState s (k / 8) (k % 8)

/-- R325: the MAC's checks of an ingress frame on a PACKET port: the port's counters; whether it goes on. -/
def ingressCheck (p len : Nat) (fcsOk : Bool) (s : State) : Bool × State :=
  let drop (c : Nat) (s : State) := (false, State.datapath (portCount p c 1 s) (8 * p + 4) 1)
  let s := State.datapath (State.datapath s (8 * p) 1) (8 * p + 1) len
  if len < 64 then drop 1 s
  else if s.cur (F.PORT_FRAME_max_frame (p / 8) (p % 8)) < len then drop 2 s
  else if !fcsOk then
    if s.curOn (F.PORT_CFG_fcs_bad (p / 8) (p % 8)) then (true, portCount p 0 1 s) else drop 0 s
  else (true, s)

/-! ## Commits (R304, R315) -/

/-- The fields of one lane (R303). -/
def laneFields (g j : Nat) : List Field :=
  [F.HL_LANE_CTRL_pattern g j, F.HL_LANE_CTRL_rx_pol g j, F.HL_LANE_CTRL_tx_inv g j, F.HL_LANE_CTRL_enable g j,
   F.HL_LANE_TXFFE_pre3 g j, F.HL_LANE_TXFFE_pre2 g j, F.HL_LANE_TXFFE_pre1 g j, F.HL_LANE_TXFFE_main g j,
   F.HL_LANE_TXFFE_post1 g j, F.HL_LANE_TXFFE_post2 g j]

/-- R303: the sum of the magnitudes of the taps of given contents. -/
def tapSum (t : Tbl Nat) (g j : Nat) : Nat :=
  look t (F.HL_LANE_TXFFE_main g j) + (lookI t (F.HL_LANE_TXFFE_pre3 g j)).natAbs + (lookI t (F.HL_LANE_TXFFE_pre2 g j)).natAbs +
  (lookI t (F.HL_LANE_TXFFE_pre1 g j)).natAbs + (lookI t (F.HL_LANE_TXFFE_post1 g j)).natAbs + (lookI t (F.HL_LANE_TXFFE_post2 g j)).natAbs

/-- R304: the reason a set of group `g` is rejected with; `t` the set, `s` the state with the sets in force. -/
def groupCheck (t : Tbl Nat) (g : Nat) (s : State) : Nat :=
  let used := (List.range 32).filter fun p => portValid s.inForce p && portGroup s.inForce p == g
  let fixed := [F.HL_GRP_CTRL_rate_class g, F.HL_GRP_CTRL_iface g, F.HL_GRP_CTRL_flexo_rate g, F.HL_GRP_CTRL_tx_timing g]
  firstFail
    [ (0x01, 100 ≤ look t (F.HL_GRP_TRAIN_train_timeout g) && look t (F.HL_GRP_TRAIN_train_timeout g) ≤ 3000 &&
        allBelow 8 fun j => tapSum t g j ≤ 63),
      (0x02, look t (F.HL_GRP_CTRL_iface g) ≤ 1 && look t (F.HL_GRP_CTRL_rate_class g) != 3 &&
        allBelow 8 fun j => look t (F.HL_LANE_CTRL_pattern g j) ≤ 3 && look t (F.HL_LANE_CTRL_rx_pol g j) != 3),
      (0xB0, used.isEmpty || fixed.all fun f => look t f == look s.inForce f),
      (0xB0, allBelow 8 fun j => look t (F.HL_LANE_CTRL_enable g j) == 1 || (portOf s g j).isNone) ]

/-- R305: the transmitter's starting taps of a lane: those of TXFFE (R303, R307). -/
def laneStart (g j : Nat) (s : State) : State :=
  let t := s.inForce
  let w := look t (F.HL_LANE_TXFFE_pre3 g j) * 2 ^ 27 + look t (F.HL_LANE_TXFFE_pre2 g j) * 2 ^ 22 +
    look t (F.HL_LANE_TXFFE_pre1 g j) * 2 ^ 16 + look t (F.HL_LANE_TXFFE_main g j) * 2 ^ 10 +
    look t (F.HL_LANE_TXFFE_post1 g j) * 2 ^ 5 + look t (F.HL_LANE_TXFFE_post2 g j)
  laneGo g j 1 (s.setF (F.HL_LANE_TXFFE_ACT_taps g j) w)

/-- R304: an accepted change of group `g` applies to the lanes whose fields changed. -/
def groupApply (old : Tbl Nat) (g : Nat) (s : State) : State :=
  s.forEach (List.range 8) fun j s =>
    let s := s.setF (F.HL_LANE_STAT_retrains g j) 0
    if differ old s.inForce (laneFields g j) then
      match portOf s g j with
      | none => laneGo g j 0 s
      | some p =>
        let s := if portState s p = 4 then portLeaveUp p 1 s else s
        if s.inService then laneStart g j s else s
    else s

/-- R317: a port goes DOWN; its lanes fall OFF. -/
def portDown (old : Tbl Nat) (p : Nat) (s : State) : State :=
  let g := portGroup old p
  let lanes := (List.range (portWidth old p)).map (portFirst old p + ·) ++
    (if portSpareEn old p then [look old (F.PORT_CFG_spare_lane (p / 8) (p % 8))] else [])
  let s := if portValid old p then s.forEach lanes fun j s => laneGo g j 0 s else s
  let s := modPort p (fun _ => {}) (portGo p 0 s)
  let s := s.forEach [F.PORT_STAT_slm_active, F.PORT_STAT_spare_ready, F.PORT_STAT_spare_used, F.PORT_STAT_tx_asleep,
    F.PORT_STAT_rx_asleep, F.PORT_STAT_rx_local_fault, F.PORT_STAT_rx_remote_fault, F.PORT_STAT_flexo_lof,
    F.PORT_STAT_gid_mismatch, F.PORT_STAT_exch_result] fun f s => s.setF (f (p / 8) (p % 8)) 0
  let s := s.setF (F.PORT_LANEMAP_map (p / 8) (p % 8)) 0xFFFFFFFF
  (s.setF (F.PORT_PARTNER_tag (p / 8) (p % 8)) 0).setF (F.PORT_PARTNER_port (p / 8) (p % 8)) 0xFF

/-- R305, R310, R317: a valid port brings up: LANE_WAIT, and its lanes go to DETECT. -/
def portStart (p : Nat) (s : State) : State :=
  if portValid s.inForce p && portState s p == 0 then
    let g := portGroup s.inForce p
    let s := s.forEach (portPositions s.inForce p ++ (portSpare s p).toList) fun j s =>
      if s.curOn (F.HL_LANE_CTRL_enable g j) then laneStart g j s else s
    portGo p 1 s
  else s

/-- The fields of one port (R314). -/
def portFields (p : Nat) : List Field :=
  [F.PORT_CFG_valid, F.PORT_CFG_type, F.PORT_CFG_size, F.PORT_CFG_mapping, F.PORT_CFG_rs_fec, F.PORT_CFG_group,
   F.PORT_CFG_first_lane, F.PORT_CFG_lanes, F.PORT_CFG_slm, F.PORT_CFG_spare_en, F.PORT_CFG_spare_lane,
   F.PORT_CFG_sleep_en, F.PORT_CFG_fcs_bad, F.PORT_FRAME_sleep_delay, F.PORT_FRAME_max_frame, F.PORT_GID_gid,
   F.PORT_EXCH_window].map fun f => f (p / 8) (p % 8)

/-- R315: an accepted port set: a port whose fields change returns to DOWN and brings up again. -/
def portsApply (old : Tbl Nat) (s : State) : State :=
  s.forEach (List.range 32) fun p s =>
    if differ old s.inForce (portFields p) then
      let s := portDown old p s
      if s.inService then portStart p s else s
    else s

/-- R314, R315: each field of a port lies in its range, and has no reserved encoding. -/
def portRangeOk (t : Tbl Nat) (p : Nat) : Bool :=
  let sd := look t (F.PORT_FRAME_sleep_delay (p / 8) (p % 8))
  let mf := look t (F.PORT_FRAME_max_frame (p / 8) (p % 8))
  1 ≤ sd && sd ≤ 1000 && 64 ≤ mf && mf ≤ 16000 && 2 ≤ look t (F.PORT_EXCH_window (p / 8) (p % 8))

/-- R311, R312, R315: the shape of a valid port. -/
def portShapeOk (t : Tbl Nat) (p : Nat) : Bool :=
  let size := look t (F.PORT_CFG_size (p / 8) (p % 8))
  let cls := look t (F.HL_GRP_CTRL_rate_class (portGroup t p))
  look t (F.PORT_CFG_lanes (p / 8) (p % 8)) + cls == size + 1 &&
  !(portFlexo t p && (size == 4 || !portCbr t p)) &&
  !(portPass t p && (size == 4 || portFlexo t p || !portCbr t p)) &&
  !(look t (F.PORT_CFG_sleep_en (p / 8) (p % 8)) == 1 && portCbr t p) &&
  !(portSpareEn t p && portSlm t p == 0)

/-- The lanes a port of a set takes, with its spare. -/
def portTakes (t : Tbl Nat) (p : Nat) : List Nat :=
  portPositions t p ++ (if portSpareEn t p then [look t (F.PORT_CFG_spare_lane (p / 8) (p % 8))] else [])

/-- No element twice. -/
def noRepeat : List Nat → Bool
  | [] => true
  | a :: t => !t.contains a && noRepeat t

/-- R315: the reason a port set is rejected with; `t` holds the port set over the group sets in force, `old` the port set in
force; `named` the ports that valid containers name. -/
def portsCheck (old t : Tbl Nat) (named : List Nat) : Nat :=
  let v := (List.range 32).filter (portValid t)
  firstFail
    [ (0x01, allBelow 32 fun p => portRangeOk t p),
      (0x02, allBelow 32 fun p => look t (F.PORT_CFG_type (p / 8) (p % 8)) ≤ 1 &&
        look t (F.PORT_CFG_size (p / 8) (p % 8)) ≤ 4 && portSlm t p != 3),
      (0xB1, v.all (portShapeOk t)),
      (0xB2, allBelow 4 fun g =>
        let ls := (v.filter fun p => portGroup t p == g).flatMap (portTakes t)
        ls.all (fun j => j < 8 && look t (F.HL_LANE_CTRL_enable g j) == 1) && noRepeat ls),
      (0xB3, v.all fun p => portFlexo t p == (look t (F.HL_GRP_CTRL_flexo_rate (portGroup t p)) == 1)),
      (0xB4, allBelow 4 fun g =>
        ((v.filter fun p => portGroup t p == g).foldl (fun a p => a + portRate t p) 0) ≤ 1638400000),
      (0xB5, allBelow 4 fun g =>
        match v.filter fun p => portGroup t p == g && ownTiming t p with
        | [] => true
        | [p] => look t (F.HL_GRP_CTRL_tx_timing g) == 1 && look t (F.HL_GRP_CTRL_timing_port g) == p
        | _ => false),
      (0xB6, named.all fun p => !portValid old p || (portValid t p && portCbr t p == portCbr old p)) ]

/-- R94, R305: the ports come up when the datapath powers up, or go DOWN when it stops. -/
def portsAll (up : Bool) (s : State) : State :=
  s.forEach (List.range 32) fun p s => if up then portStart p s else if portState s p = 0 then s else portDown s.inForce p s

end Sys2Proof.Machine
end

