-- ==== Sys2Proof/Machine/Classifier.lean ====
section
/-! DEFINITION. The packet classifier (10_classifier.md): passes and keys, rules and actions, recirculation, banks, pipes.
The release of a packet, which asks the cipher's associations, is in Machine/Cipher.lean. -/
namespace Sys2Proof.Machine

/-! ## Bank memory (R342) -/

/-- The word at an offset of bank `b`. -/
def bankWord (s : State) (b off : Nat) : Nat := Tbl.get 0 s.cls.mem (b * 2 ^ 22 + off / 4)

/-- Four words from an offset as a 128-bit number, the first lowest. -/
def bank128 (s : State) (b off : Nat) : Nat :=
  bankWord s b off + 2 ^ 32 * bankWord s b (off + 4) + 2 ^ 64 * bankWord s b (off + 8) + 2 ^ 96 * bankWord s b (off + 12)

/-- Byte `k` counted from an offset. -/
def bankByte (s : State) (b off k : Nat) : Nat := bankWord s b (off + k / 4 * 4) / 256 ^ (k % 4) % 256

/-- R342: where field descriptor `f` of set `n` lies. -/
def fdOff (n f : Nat) : Nat := 0x900000 + 0x100 * n + 4 * f
/-- R342 -/ def lenOff (n c : Nat) : Nat := 0x900000 + 0x100 * n + 0x40 + 4 * c
/-- R342 -/ def patOff (i : Nat) : Nat := 0x901000 + 0x40 * i
/-- R342 -/ def portOff (p : Nat) : Nat := 0x902000 + 0x20 * p
/-- R342 -/ def policyOff : Nat := 0x903000

/-- The width in bytes a field descriptor word gives (R342). -/
def fdWidth (w : Nat) : Nat := 2 ^ (w / 256 % 8)

/-- R342: which bits of the word at an offset can be written: entries with their reserved bits taken out. -/
def winMask (off : Nat) : Nat :=
  if off < 0x800000 then 0xFFFFFFFF
  else if 0x900000 ≤ off && off < 0x900400 then
    let r := off % 0x100
    if r < 0x40 then 0x80FF0700 else if r < 0x48 then 0xFF80FFFF else 0
  else if 0x901000 ≤ off && off < 0x902000 then
    let r := off % 0x40
    if r = 0 then 0x9F0001FF else if r = 4 ∨ 0x20 ≤ r then 0xFFFFFFFF else 0
  else if 0x902000 ≤ off && off < 0x902400 then
    let r := off % 0x20
    if r = 0 then 3 else if 0x10 ≤ r then 0xFFFFFFFF else 0
  else if off = 0x903000 then 0x83000000
  else if 0x903010 ≤ off && off < 0x903020 then 0xFFFFFFFF
  else 0

/-! ## Bad entries (R346) -/

/-- R337, R346: an action with a reserved verdict or non-zero bits 57:0. -/
def actionBad (a : Nat) : Bool := 4 ≤ a / 2 ^ 124 % 8 || a % 2 ^ 58 != 0

/-- R346: a default or bank action: also verdict RECIRCULATE or DEFAULT. -/
def finalBad (a : Nat) : Bool := actionBad a || 2 ≤ a / 2 ^ 124 % 8

/-- The entry that a word belongs to (R342, R346). -/
def entryOf (off : Nat) : Option Nat :=
  if off < 0x800000 then some (off / 0x80 * 0x80)
  else if 0x900000 ≤ off && off < 0x900400 then some off
  else if 0x901000 ≤ off && off < 0x902000 then some (off / 0x40 * 0x40)
  else if 0x902000 ≤ off && off < 0x902400 then some (off / 0x20 * 0x20)
  else if 0x903000 ≤ off && off < 0x903020 then some 0x903000
  else none

/-- R346: whether the entry at an offset holds a reserved encoding or poison. -/
def entryBad (s : State) (b e : Nat) : Bool :=
  let poisoned (n : Nat) := (List.range (n / 8)).any fun k => Tbl.get false s.cls.poison (b * 2 ^ 21 + e / 8 + k)
  if e < 0x800000 then
    poisoned 0x80 || bankWord s b (e + 0x2C) != 0 || bankWord s b (e + 0x5C) != 0 || bank128 s b (e + 0x70) != 0 ||
      actionBad (bank128 s b (e + 0x60))
  else if e < 0x900400 then
    poisoned 8 ||
    (let w := bankWord s b e
     let r := e % 0x100
     if r < 0x40 then 5 ≤ w / 256 % 8 || 256 < w / 65536 % 256 + fdWidth w
     else
       let fd := bankWord s b (fdOff (e % 0x1000 / 0x100) (w / 2 ^ 24 % 16))
       w.testBit 31 && (!fd.testBit 31 || 2 ≤ fd / 256 % 8))
  else if e < 0x902000 then
    let w := bankWord s b e
    poisoned 0x40 || 511 < w % 512 + w / 2 ^ 24 % 32
  else if e < 0x903000 then poisoned 0x20 || finalBad (bank128 s b (e + 0x10))
  else poisoned 0x20 || finalBad (bank128 s b (e + 0x10))

/-- R346: the enabled widths of field set `n` sum to more than 32 bytes. -/
def setTooWide (s : State) (b n : Nat) : Bool :=
  32 < ((List.range 16).filter fun f => (bankWord s b (fdOff n f)).testBit 31).foldl
    (fun a f => a + fdWidth (bankWord s b (fdOff n f))) 0

/-- The last of each run of equal numbers removed. -/
def dedup : List Nat → List Nat
  | a :: b :: t => if a = b then dedup (b :: t) else a :: dedup (b :: t)
  | l => l

/-- R346: the offsets of the bad entries of bank `b`, lowest first within rules and tables. -/
def badEntries (s : State) (b : Nat) : List Nat :=
  let words := (s.cls.mem.filter fun e => e.1 / 2 ^ 22 == b).map fun e => e.1 % 2 ^ 22 * 4
  let pois := (s.cls.poison.filter fun e => e.1 / 2 ^ 21 == b).map fun e => e.1 % 2 ^ 21 * 8
  let es := dedup (words.filterMap entryOf)
  let more := (dedup (pois.filterMap entryOf)).filter fun e => !es.contains e
  (es ++ more).filter (entryBad s b) ++ ((List.range 4).filter (setTooWide s b)).map fun n => fdOff n 0

/-- R346: CLS_BANK_BADb and CLS_BANK_FIRST_BADb follow every write. -/
def badUpdate (b : Nat) (s : State) : State :=
  let l := badEntries s b
  (s.setF (F.CLS_BANK_BAD_bad b) l.length).setF (F.CLS_BANK_FIRST_BAD_offset b) (l.foldl min 0xFFFFFF)

/-! ## Keys (R330 to R335) -/

/-- R331: the fields of a pass in ascending f: number, width, bytes present?, value bytes. -/
def passFields (s : State) (b n base : Nat) (fr : List Byte) : List (Nat × Bool × List Byte) :=
  (List.range 16).filterMap fun f =>
    let w := bankWord s b (fdOff n f)
    if w.testBit 31 then
      let o := base + w / 65536 % 256
      let k := fdWidth w
      if o + k ≤ fr.length - 4 then some (f, true, (fr.drop o).take k) else some (f, false, List.replicate k 0)
    else none

/-- R331: the value of field `f` as an unsigned big-endian number, when it is enabled and present. -/
def fieldValue (fs : List (Nat × Bool × List Byte)) (f : Nat) : Option Nat :=
  match fs.find? fun e => e.1 == f with
  | some (_, true, b) => some (beNat b 0 b.length)
  | _ => none

/-- R334: length conflict by the two checks of set `n`. -/
def lenConflict (s : State) (b n base : Nat) (fr : List Byte) (fs : List (Nat × Bool × List Byte)) : Bool :=
  let remaining : Int := (fr.length : Int) - 4 - base
  (fr.length ≤ base + 4) || (List.range 2).any fun c =>
    let w := bankWord s b (lenOff n c)
    w.testBit 31 && (match fieldValue fs (w / 2 ^ 24 % 16) with
      | none => true
      | some v =>
        let v := if w.testBit 23 then v % 16 else v
        let r : Int := (v : Int) * (2 : Int) ^ (w / 2 ^ 28 % 4) + signed 16 (w % 65536)
        if w.testBit 30 then decide (remaining < r) else r != remaining)

/-- R332: whether pattern `i` hits. -/
def patHit (s : State) (b i base : Nat) (fr : List Byte) : Bool :=
  let w := bankWord s b (patOff i)
  let care := bankWord s b (patOff i + 4)
  let len := w / 2 ^ 24 % 32 + 1
  let area := ((fr.take (fr.length - 4)).drop base).take 512
  w.testBit 31 && (List.range (area.length + 1)).any fun st =>
    w % 512 ≤ st && st + len ≤ area.length &&
      (List.range len).all fun k => !care.testBit k || byteAt area (st + k) == bankByte s b (patOff i + 0x20) k

/-- R333: the key's twelve words, byte 0 of the key in the low byte of the first. -/
def keyWords (s : State) (p b n base : Nat) (second fcsBad conflict : Bool) (fr : List Byte)
    (fs : List (Nat × Bool × List Byte)) : List Nat :=
  let area := (fs.flatMap fun e => e.2.2) ++ List.replicate 32 0
  let pats := (List.range 64).foldl (fun a i => if patHit s b i base fr then a + 2 ^ i else a) 0
  let pres := fs.foldl (fun a e => if e.2.1 then a + 2 ^ e.1 else a) 0
  let short := decide (fr.length ≤ base + 255 + 4)
  let k42 := n * 64 + second.toNat * 32 + p
  let k43 := short.toNat * 4 + fcsBad.toNat * 2 + conflict.toNat
  ((List.range 8).map fun i => leNat area (4 * i) 4) ++
    [pats % 2 ^ 32, pats / 2 ^ 32, pres + k42 * 65536 + k43 * 2 ^ 24, 0]

/-! ## Lookup (R336) -/

/-- R336: the lowest-numbered rule that matches a key. -/
def lookupRule (s : State) (b : Nat) (key : List Nat) : Option Nat :=
  (s.cls.mem.find? fun e =>
    e.1 / 2 ^ 22 == b && e.1 % 2 ^ 22 < 0x200000 && e.1 % 0x20 == 0x1B && 2 ^ 31 ≤ e.2 &&
      (let o := e.1 % 2 ^ 22 * 4 / 0x80 * 0x80
       (key.zipIdx).all fun kw =>
         (kw.1 ^^^ bankWord s b (o + 4 * kw.2)) &&& bankWord s b (o + 0x30 + 4 * kw.2) == 0)).map
    fun e => e.1 % 2 ^ 22 / 0x20

/-- R353: the lowest offset of an uncorrectable word at one of the offsets `ue`, or poison, in what a pass with set `n` on port `p` reads: field,
pattern and port entries, and the rules up to the winner. -/
def passUe (s : State) (b n p : Nat) (win : Option Nat) (ue : List Nat) : Option Nat :=
  let pois := (s.cls.poison.filter fun e => e.1 / 2 ^ 21 == b).map fun e => e.1 % 2 ^ 21 * 8
  leastBy id <| (ue ++ pois).filter fun o =>
    (o < 0x800000 && (match win with | some i => o / 0x80 ≤ i | none => true)) ||
    (fdOff n 0 ≤ o && o < fdOff n 0 + 0x48) || (0x901000 ≤ o && o < 0x902000) || (o / 0x20 * 0x20 == portOff p)

/-- Counter `c` of port `p` (R355). -/
def clsCount (p c : Nat) (s : State) : State := s.bump (F.CLS_PORT_CNT_count (p / 8) (p % 8) c) 1
/-- A counter of port `p` marked LOSS (R527). -/
def clsLoss (p c : Nat) (s : State) : State := State.loss (F.CLS_PORT_CNT_count (p / 8) (p % 8) c) 1 s

/-- R354: the shadow mismatches of pipe `q` within the last 10 s. -/
def mismatchesNow (s : State) (q : Nat) : List Nat := (Tbl.get [] s.cls.mismatch q).filter fun x => s.now < x + 10000000000

/-- R352: pipe `q` is suspect after a shadow mismatch. -/
def pipeSuspect (q : Nat) (s : State) : State :=
  let l := mismatchesNow s q ++ [s.now]
  let s := { s with cls := { s.cls with mismatch := Tbl.set [] s.cls.mismatch q l } }
  (s.setB (F.CLS_PIPE_STAT_suspect q) true).setF (F.CLS_PIPE_STAT_mismatches q) (min l.length 255)

/-- What a pass decides: drop (already counted), an action that applies, or a second pass. -/
inductive Verdict where
  | drop
  | final (action : Nat)
  | again (action : Nat)
  deriving DecidableEq, Repr

/-- R336, R338: an action that ends the search: the port default where asked for, DROP, else FORWARD. -/
def finish (p b : Nat) (dflt : Bool) (a : Nat) (s : State) : Verdict × State :=
  let a := if dflt then bank128 s b (portOff p + 0x10) else a
  if a / 2 ^ 127 = 0 ∨ a / 2 ^ 124 % 8 ≠ 0 then (.drop, clsCount p 3 s) else (.final a, s)

/-- R330 to R338, R352, R353: one pass on pipe `pipe`; `ue` and `ce` are what the memory showed, `differs` a shadow check
with another result. With the verdict come the length conflict and the fields. -/
def pass (p b n base : Nat) (second fcsBad conflictIn : Bool) (fr : List Byte) (pipe : Nat) (ue : List Nat) (ce : Nat)
    (differs : Bool) (s : State) : Verdict × List (Nat × Bool × List Byte) × State :=
  let fs := passFields s b n base fr
  let conflict := conflictIn || lenConflict s b n base fr fs
  let key := keyWords s p b n base second fcsBad conflict fr fs
  let win := lookupRule s b key
  let s := State.datapath (State.datapath s (768 + pipe) 1) (if second then 775 else 774) 1
  let s := clsCount p (if second then 1 else 0) s
  let s := if ce = 0 then s else State.evt 0xB0 4 (s.bump (F.CLS_CNT_count 0) ce)
  let s := if conflict then State.evt 0xB0 8 (clsCount p 5 s) else s
  if differs then
    let next := ((List.range 6).map fun k => (pipe + 1 + k) % 6).find? fun q => s.g (F.CLS_PIPE_STAT_state q) == 0
    let s := pipeSuspect pipe s
    let s := match next with | some q => if q = pipe then s else pipeSuspect q s | none => s
    (.drop, fs, State.loss (F.CLS_CNT_count 1) 1 s)
  else if let some o := passUe s b n p win ue then
    (.drop, fs, State.err 0xB0 b 0xC3 (State.evt 0xB0 5 (clsLoss p 10 s)) o)
  else if conflict && (bankWord s b policyOff).testBit 31 then (.drop, fs, s)
  else match win with
    | none =>
      let (v, s) := finish p b true 0 (State.datapath (clsCount p 2 s) 776 1)
      (v, fs, s)
    | some i =>
      let k := b * 2 ^ 22 + 0x200000 + i
      let s := { s with cls := { s.cls with mem := Tbl.set 0 s.cls.mem k (min (Tbl.get 0 s.cls.mem k + 1) 0xFFFFFFFF) } }
      let a := bank128 s b (0x80 * i + 0x60)
      match a / 2 ^ 124 % 8 with
      | 2 => (.again a, fs, s)
      | 3 => let (v, s) := finish p b true 0 s; (v, fs, s)
      | _ => let (v, s) := finish p b false a s; (v, fs, s)

/-! ## Packets in the classifier (R339 to R341, R347) -/

/-- R347: packets that have their decision wait behind an earlier packet of their flow. -/
def waits (l : List Pkt) (q : Pkt) : Bool :=
  q.second.isNone && l.any fun r => r.id < q.id && r.port == q.port && r.flow == q.flow

/-- R344, R354: drain count, recirculation and reorder levels. -/
def clsLevels (s : State) : State :=
  let l := s.cls.pkts
  let draining (b : Nat) := s.g (if b = 0 then F.CLS_STAT_bank0_state else F.CLS_STAT_bank1_state) == 2
  let show' (e : Nat) (f : Field) (v : Nat) (s : State) : State := if s.g f = v then s else (s.noteWas e (s.g f)).setF f v
  let s := show' 779 F.CLS_BANK_DRAIN_count (l.filter fun q => q.second.isSome && draining q.bank).length s
  let s := show' 777 F.CLS_RECIRC_LEVEL_recirc (l.filter fun q => q.second.isSome).length s
  show' 778 F.CLS_RECIRC_LEVEL_reorder (l.filter (waits l)).length s

/-- Replaces the packets in the classifier. -/
def setPkts (l : List Pkt) (s : State) : State := clsLevels { s with cls := { s.cls with pkts := l } }

/-- R347: a decided packet takes its place in its flow, unless the reorder window or the buffer is full. -/
def place (q : Pkt) (rest : List Pkt) (s : State) : State :=
  let l := (rest.filter fun r => r.id < q.id) ++ [q] ++ (rest.filter fun r => q.id < r.id)
  if waits l q && (16384 ≤ (rest.filter (waits rest)).length ||
      256 ≤ (rest.filter fun r => waits rest r && r.port == q.port && r.flow == q.flow).length) then
    setPkts rest (State.evt 0xB0 9 (clsLoss q.port 6 s))
  else setPkts l s

/-- The bank that first passes are tagged with (R343). -/
def activeBank (s : State) : Nat := if s.g F.CLS_STAT_bank1_state = 1 then 1 else 0

/-- FIRST_PASS. R330, R338, R340: the first pass of a frame from a PACKET port. -/
def execFirstPass (p : Fin 32) (frame : List Byte) (fcsBad : Bool) (pipe : Fin 6) (ue : List Nat) (ce : Nat)
    (differs : Bool) (s : State) : Host.Outcome State Fault Refusal :=
  let p := p.val
  if portState s p ≠ 4 ∨ portCbr s.inForce p = true ∨ s.g (F.CLS_PIPE_STAT_state pipe.val) ≠ 0 then .next s
  else
    let b := activeBank s
    let n := bankWord s b (portOff p) % 4
    let (v, fs, s) := pass p b n 0 false fcsBad false frame pipe.val ue ce differs s
    let q (a : Nat) : Pkt := { id := s.cls.nextId, port := p, flow := a / 2 ^ 76 % 2 ^ 20, bank := b, frame := frame,
                               fcsBad := fcsBad, second := none, action := a, queued := s.now }
    let s' := { s with cls := { s.cls with nextId := s.cls.nextId + 1 } }
    match v with
    | .drop => .next s
    | .final a => .next (place (q a) s.cls.pkts s')
    | .again a =>
      if 1024 ≤ (s.cls.pkts.filter fun r => r.second.isSome).length then .next (State.evt 0xB0 10 (clsLoss p 7 s))
      else
        let var := a.testBit 65
        let val := fieldValue fs (a / 2 ^ 61 % 16)
        let v := match val with | some v => if a.testBit 58 then v % 16 else v | none => 0
        let base := a / 2 ^ 68 % 256 + (if var then v * 2 ^ (a / 2 ^ 59 % 4) else 0)
        .next (setPkts (s.cls.pkts ++ [{ q a with second := some (base, a / 2 ^ 66 % 4, var && val.isNone) }]) s')

/-- SECOND_PASS. R338, R340, R341, R343: the second pass of a queued packet, on the bank it is tagged with. -/
def execSecondPass (id : Nat) (pipe : Fin 6) (ue : List Nat) (ce : Nat) (differs : Bool) (s : State) :
    Host.Outcome State Fault Refusal :=
  match s.cls.pkts.find? fun q => q.id == id && q.second.isSome with
  | none => .next s
  | some q =>
    let rest := s.cls.pkts.filter fun r => r.id != id
    match q.second with
    | none => .next s
    | some (base, n, absent) =>
      if s.g (F.CLS_PIPE_STAT_state pipe.val) ≠ 0 then .next s
      else
        let (v, _, s) := pass q.port q.bank n base true q.fcsBad absent q.frame pipe.val ue ce differs s
        match v with
        | .drop => .next (setPkts rest s)
        | .final a => .next (place { q with second := none, action := a } rest s)
        | .again _ =>
          let s := State.evt 0xB0 7 (clsLoss q.port 4 s)
          let depth := bankWord s q.bank policyOff / 2 ^ 24 % 4
          let (v, s) := match depth with
            | 0 => finish q.port q.bank true 0 s
            | 1 => finish q.port q.bank false (bank128 s q.bank (policyOff + 0x10)) s
            | _ => (.drop, s)
          match v with
          | .final a => .next (place { q with second := none, action := a } rest s)
          | _ => .next (setPkts rest s)

/-- RECIRC_TIMEOUT. R340: a second pass has not started within 20 µs. -/
def execRecircTimeout (id : Nat) (s : State) : Host.Outcome State Fault Refusal :=
  match s.cls.pkts.find? fun q => q.id == id && q.second.isSome with
  | none => .next s
  | some q =>
    .next (setPkts (s.cls.pkts.filter fun r => r.id != id) (State.evt 0xB0 10 (clsLoss q.port 7 (s.reach (q.queued + 20000)))))

/-- INGRESS_FRAME. R319, R325, R349: a port receives a frame or block of `len` bytes; `line`: what its receive side finds; `overload`:
first passes cannot keep up and the port logic drops it. A PACKET port that receives local fault passes nothing on. -/
def execIngressFrame (p : Fin 32) (len : Nat) (overload : Bool) (line : PortLine) (s : State) : Host.Outcome State Fault Refusal :=
  let p := p.val
  if portState s p ≠ 4 then .next s
  else
  let s := faultsFound p line (fecFound p line s)
  if portCbr s.inForce p then .next (State.smpPass 0 p true len (State.datapath (State.datapath s (8 * p) 1) (8 * p + 1) len))
  else if s.on (F.PORT_STAT_rx_local_fault (p / 8) (p % 8)) then .next s
  else
    let (ok, s) := ingressCheck p len line.fcsOk s
    let s := State.smpPass 0 p false len s
    if ok && overload then .next (State.datapath (State.evt 0xB0 11 (clsLoss p 11 s)) (8 * p + 4) 1) else .next s

/-! ## Banks (R344, R345) -/

/-- The state field of bank `b` (R354). -/
def bankSt (b : Nat) : Field := if b = 0 then F.CLS_STAT_bank0_state else F.CLS_STAT_bank1_state

/-- R346: the reason a classifier set is rejected with. -/
def clsCheck (t : Tbl Nat) (s : State) : Nat :=
  let b := look t F.CLS_CTRL_active_bank
  firstFail
    [ (0x0C, s.g (bankSt b) != 2),
      (0xC0, s.g (bankSt b) != 3),
      (0xC2, s.g (bankSt b) == 1 || s.g (F.CLS_BANK_BAD_bad b) == 0) ]

/-- R344: a COMMIT that names the other bank swaps banks at its safe boundary. -/
def clsApply (s : State) : State :=
  let b := s.cur F.CLS_CTRL_active_bank
  if s.g (bankSt b) = 1 then s
  else
    let s := (s.setF (bankSt b) 1).setF (bankSt (1 - b)) 2
    clsLevels (State.evt 0xB0 0 (s.bump (F.CLS_CNT_count 3) 1))

/-- BANK_DRAIN_DONE. R344: no packet tagged with the DRAINING bank remains in a pass or in the recirculation queue. -/
def execBankDrainDone (s : State) : Host.Outcome State Fault Refusal :=
  let b := 1 - activeBank s
  if s.g (bankSt b) = 2 ∧ (s.cls.pkts.all fun q => q.second.isNone || q.bank != b) = true then
    .next (clsLevels (State.evt 0xB0 1 (s.setF (bankSt b) 0)))
  else .next s

/-- R344, R345: a write of CLS_BANK_COPY.go. -/
def bankCopy (m : Master) (s : State) : State :=
  s.goWrite m 0xB004C false fun s =>
    let b := 1 - activeBank s
    if s.g (bankSt b) = 0 then s.setF (bankSt b) 3 else State.err 0xB0 0 0xC1 s

/-- CLS_BANK_COPY -/
def execClsBankCopy (m : Master) (s : State) : Host.Outcome State Fault Refusal := .next (bankCopy m s)

/-- COPY_DONE. R344, R353: the target holds the active bank with its HIT counters zero; source words at the offsets `ue` were
uncorrectable and become poison. -/
def execCopyDone (ue : List (Fin 0x1000000)) (s : State) : Host.Outcome State Fault Refusal :=
  let a := activeBank s
  let b := 1 - a
  if s.g (bankSt b) = 3 then
    let move (w : Nat) (k : Nat) := b * 2 ^ w + k % 2 ^ w
    let keep := s.cls.mem.filter fun e => e.1 / 2 ^ 22 == a
    let hit (k : Nat) := 0x200000 ≤ k % 2 ^ 22 && k % 2 ^ 22 < 0x240000
    let mem := (keep.filter fun e => !hit e.1).foldl (fun t e => Tbl.set 0 t (move 22 e.1) e.2) keep
    let pk := s.cls.poison.filter fun e => e.1 / 2 ^ 21 == a
    let pois := pk.foldl (fun t e => Tbl.set false t (move 21 e.1) e.2) pk
    let pois := ue.foldl (fun t o => Tbl.set false t (b * 2 ^ 21 + o.val / 8) true) pois
    let s := { s with cls := { s.cls with mem := mem, poison := pois } }
    .next (badUpdate b (State.evt 0xB0 2 (s.setF (bankSt b) 0)))
  else .next s

/-- R342, R345: a write into a bank window. -/
def winWrite (m : Master) (addr value : Nat) (s : State) : State :=
  s.goWrite m addr false fun s =>
    let b := addr / 2 ^ 24 - 1
    let off := addr % 2 ^ 24 / 4 * 4
    if s.g (bankSt b) ≠ 0 then
      State.evt 0xB0 6 ((s.refuse (mcode m) .denied addr).bump (F.CLS_CNT_count 2) 1)
    else if winMask off = 0 then s
    else
      let s := { s with cls := { s.cls with
        mem := Tbl.set 0 s.cls.mem (b * 2 ^ 22 + off / 4) (value &&& winMask off),
        poison := Tbl.set false s.cls.poison (b * 2 ^ 21 + off / 8) false } }
      badUpdate b s

/-- R342, R345: a read of a bank window; reading a HIT counter clears it. -/
def winRead (addr : Nat) (s : State) : Nat × State :=
  let b := addr / 2 ^ 24 - 1
  let off := addr % 2 ^ 24 / 4 * 4
  let v := bankWord s b off
  if 0x800000 ≤ off && off < 0x840000 then
    (v, { s with cls := { s.cls with mem := Tbl.set 0 s.cls.mem (b * 2 ^ 22 + off / 4) 0 } })
  else (v, s)

/-- CLS_WIN_WRITE: bank `b`, byte offset `off`. -/
def execClsWinWrite (m : Master) (b : Fin 2) (off : BitVec 24) (value : Word) (s : State) :
    Host.Outcome State Fault Refusal :=
  .next (winWrite m ((b.val + 1) * 2 ^ 24 + off.toNat) value.toNat s)

/-! ## Pipes (R351) -/

/-- The number of ACTIVE pipes is reported (R354). -/
def pipesActive (s : State) : State :=
  s.setF F.CLS_STAT_pipes_active ((List.range 6).filter fun p => s.g (F.CLS_PIPE_STAT_state p) == 0).length

/-- R351, R352: pipe `p` is taken for test with all six ACTIVE; suspect pipes come first. -/
def pipeTestStart (p : Nat) (s : State) : State :=
  if (allBelow 6 fun q => s.g (F.CLS_PIPE_STAT_state q) == 0) &&
      (s.on (F.CLS_PIPE_STAT_suspect p) || allBelow 6 fun q => !s.on (F.CLS_PIPE_STAT_suspect q)) then
    pipesActive (s.setF (F.CLS_PIPE_STAT_state p) 1)
  else s

/-- PIPE_TEST_START -/
def execPipeTestStart (p : Fin 6) (s : State) : Host.Outcome State Fault Refusal := .next (pipeTestStart p.val s)

/-- PIPE_TEST_DONE. R351: the stored vectors pass, or one fails. -/
def execPipeTestDone (p : Fin 6) (ok : Bool) (s : State) : Host.Outcome State Fault Refusal :=
  if s.g (F.CLS_PIPE_STAT_state p.val) = 1 then
    let s := s.setB (F.CLS_PIPE_STAT_suspect p.val) false
    .next (if ok then pipesActive (s.setF (F.CLS_PIPE_STAT_state p.val) 0)
      else State.evt 0xB0 3 (pipesActive (s.setF (F.CLS_PIPE_STAT_state p.val) 2)))
  else .next s

end Sys2Proof.Machine
end

