-- ==== Sys2Proof/Machine/PackageMemory.lean ====
section
/-! DEFINITION. Package memory and buffer manager (11_package_memory.md): the ECC word, reads and writes, scrubber, CE
tracker, injection, error records, page retirement, row repair, the host window, and the region checks. -/
namespace Sys2Proof.Machine

/-! ## The ECC word (R362 to R364) -/

/-- Multiplication by x in GF(2^8) with 0x11D. -/
def gfX (a : Nat) : Nat := if 128 ≤ a then (2 * a) ^^^ 0x11D else 2 * a

/-- Multiplication in GF(2^8), `k` bits of the second factor. -/
def gfMul : Nat → Nat → Nat → Nat
  | 0, _, _ => 0
  | k + 1, a, b => (if b % 2 = 1 then a else 0) ^^^ gfMul k (gfX a) (b / 2)

/-- α^k. -/
def gfPow : Nat → Nat
  | 0 => 1
  | k + 1 => gfX (gfPow k)

/-- R362: one message symbol taken into the remainder c3 … c0 modulo (x + 1)(x + α)(x + α^2)(x + α^3) =
x^4 + 0x0F x^3 + 0x36 x^2 + 0x78 x + 0x40. -/
def rsStep (r : Nat × Nat × Nat × Nat) (d : Nat) : Nat × Nat × Nat × Nat :=
  let (c3, c2, c1, c0) := r
  let f := d ^^^ c3
  (c2 ^^^ gfMul 8 f 0x0F, c1 ^^^ gfMul 8 f 0x36, c0 ^^^ gfMul 8 f 0x78, gfMul 8 f 0x40)

/-- Byte `i` of a number. -/
def symOf (w i : Nat) : Nat := w / 256 ^ i % 256

/-- R362: a word of data encoded with the folded address `a` (0 for the word's own address, see Buf.mem): C0 is the x^3
coefficient. -/
def eccEncode (a data : Nat) : Nat :=
  let d := data % 256 ^ 32
  let msg := [symOf a 3, symOf a 2, symOf a 1, symOf a 0] ++ (List.range 32).map (symOf d)
  let (c0, c1, c2, c3) := msg.foldl rsStep (0, 0, 0, 0)
  d + 256 ^ 32 * (c0 + 256 * c1 + 256 ^ 2 * c2 + 256 ^ 3 * c3)

/-- The 40 symbols of a stored word as coefficients, x^39 first, the folded address being its own. -/
def codeWord (w : Nat) : List Nat := [0, 0, 0, 0] ++ (List.range 36).map (symOf w)

/-- The syndrome S_j = r(α^j) by Horner's rule. -/
def syndrome (w j : Nat) : Nat := (codeWord w).foldl (fun a c => gfMul 8 a (gfPow j) ^^^ c) 0

/-- R364: data with C0 and C2 each XORed with 0xFF. -/
def poisoned (data : Nat) : Nat := eccEncode 0 data ^^^ (256 ^ 32 * 0xFF00FF)

/-- What a read finds (R363). -/
inductive Ecc where
  | good
  | ce (symbol : Nat)
  | addrErr
  | poison
  | ue
  deriving DecidableEq, Repr

/-- R363: the result of decoding a stored word, with the corrected word where there is one. -/
def eccDecode (w : Nat) : Ecc × Nat :=
  let s0 := syndrome w 0
  let s1 := syndrome w 1
  let s2 := syndrome w 2
  let s3 := syndrome w 3
  if s0 = 0 ∧ s1 = 0 ∧ s2 = 0 ∧ s3 = 0 then (.good, w)
  else
    match (List.range 40).find? fun p =>
        s0 != 0 && s1 == gfMul 8 s0 (gfPow p) && s2 == gfMul 8 s1 (gfPow p) && s3 == gfMul 8 s2 (gfPow p) with
    | some p => if 36 ≤ p then (.addrErr, w) else (.ce (35 - p), w ^^^ (256 ^ (35 - p) * s0))
    | none =>
      let pw := poisoned 0
      if s0 = syndrome pw 0 ∧ s1 = syndrome pw 1 ∧ s2 = syndrome pw 2 ∧ s3 = syndrome pw 3 then (.poison, w) else (.ue, w)

/-! ## Where a word lies (R356 to R358) -/

/-- R357: the place of data offset `o` of a page: pseudo-channel, group position in its row, word of the group. -/
def placeOf (o : Nat) : Nat × Nat × Nat := (o / 512 % 32, o / 512 / 32, o % 512 / 32)

/-- R357: the burst of a group and the first of the four beats that carry data word `w`. -/
def dataBurst (w : Nat) : Nat × Nat := (w / 2, w % 2 * 4)

/-- R357: the pair of DQ pins that carries symbol `s` of a data word. -/
def dataPins (s : Nat) : Nat × Nat := (2 * s, 2 * s + 1)

/-- R357: in burst 8, the first beat and the pair of DQ pins of check symbol `c` of word `w`. -/
def checkPins (w c : Nat) : Nat × Nat × Nat := (w / 8 * 4, 2 * (4 * (w % 8) + c), 2 * (4 * (w % 8) + c) + 1)

/-- R361: the classes of requests that a pseudo-channel controller serves, in strict priority. -/
inductive MemClass where
  | deskew | mirror | window | capture | retire | scrub
  deriving DecidableEq, Repr

/-- R361: a class's priority, 1 the highest. -/
def MemClass.priority : MemClass → Nat
  | .deskew => 1 | .mirror => 2 | .window => 3 | .capture => 4 | .retire => 5 | .scrub => 6

/-- The pseudo-channel of a physical word address. -/
def pcOf (a : Nat) : Nat := a % 2048 / 16 % 32
/-- The bank of a physical word address. -/
def bankOf (a : Nat) : Nat := a / 2048 % 16

/-- The stored word at a physical word address. -/
def memWord (s : State) (a : Nat) : Nat := Tbl.get 0 s.buf.mem a
/-- Changes package-memory storage. -/
def modBuf (f : Buf → Buf) (s : State) : State := { s with buf := f s.buf }
/-- Stores a word at a physical word address. -/
def memPut (a w : Nat) (s : State) : State := modBuf (fun b => { b with mem := Tbl.set 0 b.mem a w }) s

/-- R374: the physical page of a logical page now. -/
def physPage (s : State) (p : Nat) : Nat :=
  match s.buf.remap.find? fun e => e.2.1 == 1 && e.2.2 == p && (match s.buf.ret with
      | some r => !(r.entry == e.1 && !r.restore)
      | none => true) with
  | some e => 258048 + e.1
  | none => p

/-- R374: the second physical page that writes to a logical page go to while it is copied. -/
def mirrorPage (s : State) (p : Nat) : Option Nat :=
  match s.buf.ret with
  | some r =>
    if r.page = p ∧ 2 ≤ s.g F.BUF_RETIRE_STAT_state then some (if r.restore then p else 258048 + r.entry) else none
  | none => none

/-! ## Records and counters (R371, R373) -/

/-- Counter `c` of page 0xC1 (R378). -/
def bufCount (c : Nat) (s : State) : State := s.bump (F.BUF_CNT_count c) 1

/-- R373: a record is queued and reaches the event log; a full FIFO drops it. -/
def bufRecord (type source addr symbol : Nat) (s : State) : State :=
  let s := s.logPlain 0xC2 type 3 addr
  if 256 ≤ s.buf.log.length then State.evt 0xC2 0 (s.bump F.BUF_LOG_CTRL_ovf 1)
  else
    let w0 := type * 2 ^ 28 + source * 2 ^ 24 + pcOf addr * 2 ^ 18 + bankOf addr * 2 ^ 14 + symbol
    let s := modBuf (fun b => { b with log := b.log ++ [(w0, addr, s.now % 2 ^ 32, s.now / 2 ^ 32)] }) s
    s.setF F.BUF_LOG_CTRL_queued s.buf.log.length

/-- R373: UE, ADDR_ERR and POISON records of one address at most once per second. -/
def bufRecordSlow (type source addr : Nat) (s : State) : State :=
  let again := match Tbl.find s.buf.lastRec addr with
    | some t => decide (s.now < t + 1000000000)
    | none => false
  if again then s
  else bufRecord type source addr 63 (modBuf (fun b => { b with lastRec := Tbl.insert b.lastRec addr s.now }) s)

/-- R371: correction write-back to an address has stopped. -/
def wbStopped (s : State) (a : Nat) : Bool :=
  !s.on F.BUF_ECC_CTRL_wb_en || s.buf.track.any fun e => e.addr == a && e.hard

/-- R375, R376: the FREE and IN_USE entries are reported; POOL_LOW and POOL_EMPTY follow. -/
def poolReport (s : State) : State :=
  let used := (s.buf.remap.filter fun e => e.2.1 == 1).length
  let dead := (s.buf.remap.filter fun e => e.2.1 == 2).length
  let free := 4096 - used - dead
  let s := (s.setF F.BUF_POOL_free free).setF F.BUF_POOL_in_use used
  State.level 0xC0 1 (free == 0) (State.level 0xC0 0 (decide (free < s.g F.BUF_POOL_CTRL_pool_warn)) s)

/-- R376: a remap entry takes a state. -/
def remapSet (i : Nat) (v : Nat × Nat) (s : State) : State :=
  poolReport (modBuf (fun b => { b with remap := Tbl.set (0, 0) b.remap i v }) s)

/-- R371, R376: an address becomes HARD; a FREE spare page that collects one becomes UNUSABLE. -/
def becomeHard (a source symbol : Nat) (s : State) : State :=
  let hards := (s.buf.track.filter fun e => e.hard).length
  let s := State.evt 0xC1 4 (bufCount 7 (bufRecord 5 source a symbol s))
  if hards < 32 then
    let s := modBuf (fun b => { b with track := b.track.map fun e => if e.addr = a then { e with hard := true } else e }) s
    let page := a / 2048
    if 258048 ≤ page ∧ (Tbl.get (0, 0) s.buf.remap (page - 258048)).1 = 0 then remapSet (page - 258048) (2, 0) s else s
  else bufCount 8 s

/-- R370, R371, R373: a CE at an address passes the tracker. -/
def ceTrack (a source symbol : Nat) (s : State) : State :=
  let window := s.g F.BUF_ECC_CTRL_ce_window * 1000000000
  match s.buf.track.find? fun e => e.addr == a with
  | some e =>
    if e.hard then s
    else if e.first + window < s.now then
      modBuf (fun b => { b with track := (b.track.filter fun x => x.addr != a) ++ [{ e with count := 1, first := s.now }] }) s
    else
      let s := modBuf (fun b => { b with track := b.track.map fun x => if x.addr = a then { x with count := x.count + 1 } else x }) s
      if e.count + 1 = s.g F.BUF_ECC_CTRL_ce_repeat then becomeHard a source symbol s else s
  | none =>
    let new : CeTrack := { addr := a, count := 1, first := s.now, hard := false }
    if s.buf.track.length < 64 then
      bufRecord 1 source a symbol (modBuf (fun b => { b with track := b.track ++ [new] }) s)
    else
      match s.buf.track.find? fun e => !e.hard with
      | some old => bufCount 8 (bufRecord 1 source a symbol
          (modBuf (fun b => { b with track := (b.track.filter fun e => e.addr != old.addr) ++ [new] }) s))
      | none => bufCount 8 s

/-- R363: a read of the word at a physical word address, for a source: what it finds, the data delivered, and what the
buffer manager does about it. -/
def memTreat (a source : Nat) (s : State) : Ecc × Nat × State :=
  let w := memWord s a
  let (r, v) := eccDecode w
  let data := v % 256 ^ 32
  match r with
  | .good => (r, data, s)
  | .ce sym =>
    let s := (bufCount 0 s).bump (F.BUF_PC_CE_count (pcOf a)) 1
    let s := State.evt 0xC1 0 (ceTrack a source sym s)
    (r, data, if wbStopped s a then s else memPut a v s)
  | .addrErr =>
    let s := (bufCount 2 s).bump (F.BUF_PC_UE_count (pcOf a)) 1
    (r, data, State.evt 0xC1 2 (bufRecordSlow 3 source a s))
  | .poison =>
    let s := (bufCount 3 s).bump (F.BUF_PC_UE_count (pcOf a)) 1
    (r, data, State.evt 0xC1 3 (bufRecordSlow 4 source a s))
  | .ue =>
    let s := (bufCount 1 s).bump (F.BUF_PC_UE_count (pcOf a)) 1
    let s := State.evt 0xC1 1 (bufRecordSlow 2 source a s)
    (r, data, if wbStopped s a then s else memPut a (poisoned data) s)

/-! ## Writes (R365) -/

/-- The bytes of `new` where the mask has a 1, else those of `old`. -/
def mergeBytes (mask new old : Nat) : Nat :=
  (List.range 32).foldl (fun v i => v + 256 ^ i * symOf (if mask.testBit i then new else old) i) 0

/-- R365: a write of the masked bytes to one physical word. -/
def physWrite (a mask data source : Nat) (s : State) : State :=
  if mask % 2 ^ 32 = 2 ^ 32 - 1 then memPut a (eccEncode 0 data) s
  else
    let (r, v) := eccDecode (memWord s a)
    let merged := mergeBytes mask data (v % 256 ^ 32)
    match r with
    | .good => memPut a (eccEncode 0 merged) s
    | .ce sym => memPut a (eccEncode 0 merged) (bufRecord 6 source a sym (bufCount 4 s))
    | .poison => memPut a (poisoned merged) (bufCount 6 s)
    | _ => memPut a (poisoned merged) (bufRecord 7 source a 63 (bufCount 5 s))

/-- R365, R374: a write to logical word `n`, to both pages while its page is copied. -/
def logicalWrite (n mask data source : Nat) (s : State) : State :=
  let p := n / 2048
  let mirror := mirrorPage s p
  let s := physWrite (physPage s p * 2048 + n % 2048) mask data source s
  match mirror with
  | some q => physWrite (q * 2048 + n % 2048) mask data source s
  | none => s

/-- R96, R369, R378: package memory answers. -/
def memUp (s : State) : Bool := s.inService && s.on F.DEV_STATUS_mem_trained

/-- Upsets: symbols of a stored word XORed with a byte since it was written. -/
def upsetWord (a : Nat) (ups : List (Fin 36 × Byte)) (s : State) : State :=
  if ups.isEmpty then s
  else memPut a (ups.foldl (fun w u => w ^^^ (256 ^ u.1.val * u.2.toNat)) (memWord s a)) s

/-- R367: a deskew read that finds an uncorrectable word makes the member frame bad: the member whose region holds logical page `p`. -/
def deskewBad (p : Nat) (s : State) : State :=
  match s.buf.alloc.find? fun e => e.2.contains p with
  | some (k, _) => modGrp (k / 16) (fun x => { x with memBad := x.memBad ||| 2 ^ (k % 16) }) s
  | none => s

/-- BUF_MEM_READ. R363, R367: the word at a logical word address is read for `source` (0 deskew read, 1 capture) after the upsets
that have struck it. -/
def execBufMemRead (n : Fin 528482304) (source : Fin 6) (ups : List (Fin 36 × Byte)) (s : State) :
    Host.Outcome State Fault Refusal :=
  if memUp s then
    let a := physPage s (n.val / 2048) * 2048 + n.val % 2048
    let (r, _, s) := memTreat a source.val (upsetWord a ups s)
    let lost := match r with | .good => false | .ce _ => false | _ => true
    let s := if lost && source.val == 0 then deskewBad (n.val / 2048) s else s
    .next (State.datapath s (832 + 4 * pcOf a) 1)
  else .next s

/-- BUF_MEM_WRITE. R365: bytes with their mask bit set are written to a logical word. -/
def execBufMemWrite (n : Fin 528482304) (mask : Word) (data : BitVec 256) (source : Fin 6) (s : State) :
    Host.Outcome State Fault Refusal :=
  if memUp s then
    let pc := pcOf n.val
    let s := logicalWrite n.val mask.toNat data.toNat source.val s
    .next (State.datapath s (832 + 4 * pc + (if mask.toNat = 2 ^ 32 - 1 then 1 else 2)) 1)
  else .next s

/-! ## Scrubber (R368, R369) -/

/-- R368: the scrubber covers a physical page: mapped, a FREE spare, or one that holds a logical page. -/
def scrubbed (s : State) (q : Nat) : Bool :=
  if 258048 ≤ q then (Tbl.get (0, 0) s.buf.remap (q - 258048)).1 != 2 else physPage s q == q

/-- The first covered physical page from `q` on. -/
def nextScrub (s : State) : Nat → Nat → Nat
  | 0, q => q
  | k + 1, q => if scrubbed s (q % 262144) then q else nextScrub s k (q + 1)

/-- SCRUB_READ. R368, R369: the next word in address order; `late`: the pass is behind its pace by more than 1 %. -/
def execScrubRead (ups : List (Fin 36 × Byte)) (late : Bool) (s : State) : Host.Outcome State Fault Refusal :=
  if memUp s && s.on F.BUF_SCRUB_CTRL_en then
    let from' := s.buf.scrubNext
    let q := nextScrub s 8200 (from' / 2048)
    let a := if q = from' / 2048 then from' else q * 2048
    let wrapped := decide (2 ^ 29 ≤ a)
    let a := a % 2 ^ 29
    let was := s.on F.BUF_SCRUB_STAT_late
    let s := s.setB F.BUF_SCRUB_STAT_late late
    let s := if late && !was then State.evt 0xC0 2 s else s
    let s := if wrapped then State.evt 0xC4 0 (s.incWrap F.BUF_SCRUB_PASSES_passes 1) else s
    let (_, _, s) := memTreat a 3 (upsetWord a ups s)
    let s := s.setF F.BUF_SCRUB_STAT_addr a
    let s := modBuf (fun b => { b with scrubNext := a + 1 }) s
    .next s
  else .next s

/-- R371: hard_clr frees every HARD entry. -/
def hardClr (s : State) : State := modBuf (fun b => { b with track := b.track.filter fun e => !e.hard }) s

/-- HARD_CLR -/
def execHardClr (m : Master) (s : State) : Host.Outcome State Fault Refusal := .next (s.goWrite m 0xC1040 false hardClr)

/-! ## Injection (R372) -/

/-- The logical page lies in the region whose base and size are in force. -/
def inRegion (s : State) (base size : Field) (p : Nat) : Bool := s.cur base ≤ p && p < s.cur base + s.cur size

/-- R372: BUF_INJ_CTRL.go. -/
def injGo (s : State) : State :=
  let n := s.g F.BUF_INJ_ADDR_addr
  if !inRegion s F.BUF_TEST_BASE_page F.BUF_TEST_SIZE_pages (n / 2048) || s.buf.inj.isSome then State.err 0xC1 0 0xD5 s
  else
    let sym (f x : Field) := let i := s.g f; if i < 36 then 256 ^ i * s.g x else 0
    let flip := sym F.BUF_INJ_CTRL_sym_a F.BUF_INJ_XOR_xor_a ^^^ sym F.BUF_INJ_CTRL_sym_b F.BUF_INJ_XOR_xor_b ^^^
      sym F.BUF_INJ_CTRL_sym_c F.BUF_INJ_XOR_xor_c
    let a := physPage s (n / 2048) * 2048 + n % 2048
    (modBuf (fun b => { b with inj := some { addr := a, flip := flip, addrXor := s.g F.BUF_INJ_ADDR_XOR_addr_xor } }) s).setB
      F.BUF_INJ_CTRL_busy true

/-- INJ_GO -/
def execInjGo (m : Master) (s : State) : Host.Outcome State Fault Refusal := .next (s.goWrite m 0xC10C4 false injGo)

/-- INJ_DONE. R372: the word is read and treated, its check symbols are made for the changed address, the XORs go in, and
it is written. -/
def execInjDone (s : State) : Host.Outcome State Fault Refusal :=
  match s.buf.inj with
  | none => .next s
  | some i =>
    let (_, data, s) := memTreat i.addr 5 s
    let s := memPut i.addr (eccEncode i.addrXor data ^^^ i.flip) s
    .next (State.evt 0xC1 5 ((modBuf (fun b => { b with inj := none }) s).setB F.BUF_INJ_CTRL_busy false))

/-- R373: BUF_LOG_CTRL.pop moves the oldest record out; an empty FIFO leaves the words. -/
def bufLogPop (s : State) : State :=
  match s.buf.log with
  | [] => s
  | (a, b, c, d) :: t =>
    let s := (modBuf (fun x => { x with log := t }) s).setF F.BUF_LOG_CTRL_queued t.length
    (((s.setF (F.BUF_LOG_bits 0) a).setF (F.BUF_LOG_bits 1) b).setF (F.BUF_LOG_bits 2) c).setF (F.BUF_LOG_bits 3) d

/-- BUF_LOG_POP -/
def execBufLogPop (m : Master) (s : State) : Host.Outcome State Fault Refusal := .next (s.goWrite m 0xC2040 false bufLogPop)

/-! ## Retirement and restore (R374 to R376) -/

/-- The result of a go (R376). -/
def retResult (r page : Nat) (s : State) : State :=
  (s.setF F.BUF_RETIRE_STAT_result r).setF F.BUF_RETIRE_STAT_page page

/-- R374: BUF_RETIRE_GO.go. -/
def retireGo (s : State) : State :=
  let p := s.g F.BUF_RETIRE_page
  let restore := s.on F.BUF_RETIRE_op
  let mapped := s.buf.remap.find? fun e => e.2.1 == 1 && e.2.2 == p
  if !s.on F.DEV_STATUS_mem_trained then retResult 8 p s
  else if s.g F.BUF_RETIRE_STAT_state ≠ 0 then retResult 1 p s
  else if 258047 < p then retResult 2 p s
  else if restore then
    match mapped with
    | none => retResult 3 p s
    | some e =>
      (retResult 0 p (modBuf (fun b => { b with ret := some { restore := true, page := p, entry := e.1 } }) s)).setF
        F.BUF_RETIRE_STAT_state 1
  else if mapped.isSome then retResult 3 p s
  else match (List.range 4096).find? fun i => (Tbl.get (0, 0) s.buf.remap i).1 == 0 with
    | none => retResult 4 p s
    | some i =>
      let s := modBuf (fun b => { b with ret := some { restore := false, page := p, entry := i } }) s
      (retResult 0 p (remapSet i (1, p) s)).setF F.BUF_RETIRE_STAT_state 2

/-- RETIRE_GO. The write of BUF_RETIRE_GO.go with op RETIRE. -/
def execRetireGo (m : Master) (s : State) : Host.Outcome State Fault Refusal :=
  .next (if s.on F.BUF_RETIRE_op then s else s.goWrite m 0xC3044 false retireGo)

/-- RESTORE_GO. The write of BUF_RETIRE_GO.go with op RESTORE. -/
def execRestoreGo (m : Master) (s : State) : Host.Outcome State Fault Refusal :=
  .next (if s.on F.BUF_RETIRE_op then s.goWrite m 0xC3044 false retireGo else s)

/-- MARCH_TEST_DONE. R374: the march test of the page being restored passes or finds an error. -/
def execMarchTestDone (ok : Bool) (s : State) : Host.Outcome State Fault Refusal :=
  if s.g F.BUF_RETIRE_STAT_state = 1 then
    if ok then .next (s.setF F.BUF_RETIRE_STAT_state 2)
    else
      let s := (modBuf (fun b => { b with ret := none }) s).setF F.BUF_RETIRE_STAT_state 0
      .next (State.evt 0xC3 1 (s.setF F.BUF_RETIRE_STAT_result 7))
  else .next s

/-- R374: one word of the copy: read by R363, an uncorrectable one written poisoned at the target. -/
def copyWord (src dst : Nat) (s : State) : State :=
  let (r, data, s) := memTreat src 4 s
  match r with
  | .good => memPut dst (eccEncode 0 data) s
  | .ce _ => memPut dst (eccEncode 0 data) s
  | _ => memPut dst (poisoned data) s

/-- RETIRE_COPY_DONE. R374: all 2,048 words are copied. -/
def execRetireCopyDone (s : State) : Host.Outcome State Fault Refusal :=
  match s.buf.ret with
  | none => .next s
  | some r =>
    if s.g F.BUF_RETIRE_STAT_state = 2 then
      let src := if r.restore then 258048 + r.entry else r.page
      let dst := if r.restore then r.page else 258048 + r.entry
      let words := s.buf.mem.filter fun e => e.1 / 2048 == src
      let s := modBuf (fun b => { b with mem := b.mem.filter fun e => e.1 / 2048 != dst }) s
      let s := s.forEach words fun e s => copyWord e.1 (dst * 2048 + e.1 % 2048) s
      .next (s.setF F.BUF_RETIRE_STAT_state 3)
    else .next s

/-- RETIRE_SWITCH. R374: between two accesses the remap switches. A spare page that has collected a HARD entry while it was in use
becomes UNUSABLE when it is given back (R376, DEDUCED). -/
def execRetireSwitch (s : State) : Host.Outcome State Fault Refusal :=
  match s.buf.ret with
  | none => .next s
  | some r =>
    if s.g F.BUF_RETIRE_STAT_state = 3 then
      let s := (modBuf (fun b => { b with ret := none }) s).setF F.BUF_RETIRE_STAT_state 0
      let dead := s.buf.track.any fun e => e.hard && e.addr / 2048 == 258048 + r.entry
      let s := if r.restore then bufRecord 9 4 (r.page * 2048) 63 (remapSet r.entry (if dead then (2, 0) else (0, 0)) s)
        else bufRecord 8 4 (r.page * 2048) 63
          (modBuf (fun b => { b with track := b.track.filter fun e => !(e.hard && e.addr / 2048 == r.page) }) s)
      .next (State.evt 0xC3 0 (s.setF F.BUF_RETIRE_STAT_result 0))
    else .next s

/-! ## Row repair (R377) -/

/-- R377: the result of a row-repair go. -/
def rowResult (r : Nat) (s : State) : State := s.setF F.BUF_ROWREP_STAT_result r

/-- R377: the spare rows left are reported for a bank. -/
def rowReport (pc bank : Nat) (s : State) : State :=
  let used := s.buf.rowUsed.foldl (fun a e => a + e.2) 0
  (s.setF F.BUF_ROWREP_STAT_bank_spares (4 - Tbl.get 0 s.buf.rowUsed (pc * 16 + bank))).setF
    F.BUF_ROWREP_STAT_device_spares (2048 - used)

/-- R377: BUF_ROWREP_GO.go. -/
def rowrepGo (s : State) : State :=
  let pc := s.g F.BUF_ROWREP_pc
  let bank := s.g F.BUF_ROWREP_bank
  let row := s.g F.BUF_ROWREP_row
  let q := 16 * row + bank
  let mapped := if 258048 ≤ q then (Tbl.get (0, 0) s.buf.remap (q - 258048)).1 == 1 else physPage s q == q
  if !s.on F.DEV_STATUS_mem_trained then rowResult 8 s
  else if s.buf.rowOp.isSome then rowResult 1 s
  else if mapped then rowResult 5 s
  else if 4 ≤ Tbl.get 0 s.buf.rowUsed (pc * 16 + bank) then rowReport pc bank (rowResult 6 s)
  else
    let s := modBuf (fun b => { b with rowOp := some (pc, bank, row), rowSteps := 0 }) s
    rowReport pc bank ((rowResult 0 s).setF F.BUF_ROWREP_STAT_state 1)

/-- ROWREP_GO -/
def execRowrepGo (m : Master) (s : State) : Host.Outcome State Fault Refusal := .next (s.goWrite m 0xC3064 false rowrepGo)

/-- ROWREP_STEP. R377: one of 64 programming steps. -/
def execRowrepStep (s : State) : Host.Outcome State Fault Refusal :=
  if s.g F.BUF_ROWREP_STAT_state = 1 then
    let n := s.buf.rowSteps + 1
    let s := modBuf (fun b => { b with rowSteps := n }) s
    .next (if n = 64 then s.setF F.BUF_ROWREP_STAT_state 2 else s)
  else .next s

/-- ROWREP_TEST_DONE. R377: the march test of the repaired row passes or fails; the spare row is used either way. -/
def execRowrepTestDone (ok : Bool) (s : State) : Host.Outcome State Fault Refusal :=
  match s.buf.rowOp with
  | none => .next s
  | some (pc, bank, row) =>
    if s.g F.BUF_ROWREP_STAT_state = 2 then
      let q := 16 * row + bank
      let k := pc * 16 + bank
      let s := modBuf (fun b => { b with rowOp := none, rowUsed := Tbl.set 0 b.rowUsed k (Tbl.get 0 b.rowUsed k + 1) }) s
      let s := rowReport pc bank (s.setF F.BUF_ROWREP_STAT_state 0)
      let addr := q * 2048 + pc * 16
      if ok then
        let s := if 258048 ≤ q ∧ (Tbl.get (0, 0) s.buf.remap (q - 258048)).1 = 2 then remapSet (q - 258048) (0, 0) s else s
        .next (State.evt 0xC3 2 (bufRecord 10 4 addr 63 (rowResult 0 s)))
      else .next (State.evt 0xC3 3 (bufRecord 11 4 addr 63 (rowResult 7 s)))
    else .next s

/-! ## Host window (R378) -/

/-- A monitor capture runs into package memory (R360, R378). -/
def captureRuns (s : State) : Bool :=
  (List.range 2).any fun le => s.cur (F.MON_CAP_dest le) == 1 && s.g (F.MON_STAT_state le) == 2

/-- R378: a window access is refused for master `m`. -/
def windowDenied (s : State) (write : Bool) (p : Nat) : Bool :=
  inRegion s F.BUF_DESKEW_BASE_page F.BUF_DESKEW_SIZE_pages p ||
  (write && captureRuns s && inRegion s F.BUF_CAPTURE_BASE_page F.BUF_CAPTURE_SIZE_pages p)

/-- R363, R378: a 32-bit read of the window at byte offset `off`. -/
def windowRead (m : Master) (off : Nat) (s : State) : Nat × State :=
  let s := s.access m
  let p := s.g F.BUF_WIN_PAGE_page
  if !memUp s then (0xFFFFFFFF, s)
  else if windowDenied s false p then (0xFFFFFFFF, s.fabErr (mcode m) .denied (0x300000 + off))
  else
    let a := physPage s p * 2048 + off / 32
    let (r, data, s) := memTreat a 2 s
    let s := State.datapath s (832 + 4 * pcOf a) 1
    match r with
    | .addrErr => (0xFFFFFFFF, s.setF F.BUF_WIN_STAT_result 3)
    | .poison => (0xFFFFFFFF, s.setF F.BUF_WIN_STAT_result 4)
    | .ue => (0xFFFFFFFF, s.setF F.BUF_WIN_STAT_result 2)
    | _ => (data / 256 ^ (off % 32 / 4 * 4) % 2 ^ 32, s)

/-- R365, R378: a 32-bit write of the window. -/
def windowWrite (m : Master) (off value : Nat) (s : State) : State :=
  let addr := 0x300000 + off
  if !s.reaches m 0xC0 then s
  else if !memUp s then (s.access m).refuse (mcode m) .domainDown addr
  else if s.lockedOut (mcode m) 0xC0 then (s.access m).refuse (mcode m) .denied addr
  else
    let s := s.access m
    let p := s.g F.BUF_WIN_PAGE_page
    if windowDenied s true p then s.refuse (mcode m) .denied addr
    else
      let k := off % 32 / 4 * 4
      let s := State.datapath s (832 + 4 * pcOf (off / 32) + 2) 1
      logicalWrite (p * 2048 + off / 32) (15 * 2 ^ k) (value * 256 ^ k) 2 s

/-- HOST_WIN_READ -/
def execHostWinRead (m : Master) (off : Fin 65536) (s : State) : Host.Outcome State Fault Refusal :=
  if !s.reaches m 0xC0 then .next { s with fab := { s.fab with readData := 0xFFFFFFFF } }
  else
    let (d, s) := windowRead m off.val s
    .next { s with fab := { s.fab with readData := d } }

/-- HOST_WIN_WRITE -/
def execHostWinWrite (m : Master) (off : Fin 65536) (value : Word) (s : State) : Host.Outcome State Fault Refusal :=
  .next (windowWrite m off.val value.toNat s)

/-! ## Regions and deskew pages (R359, R360, R290) -/

/-- R360: the reason a region set is rejected with. -/
def bufCheck (t : Tbl Nat) (s : State) : Nat :=
  let r (b z : Field) := (look t b, look t z)
  let d := r F.BUF_DESKEW_BASE_page F.BUF_DESKEW_SIZE_pages
  let c := r F.BUF_CAPTURE_BASE_page F.BUF_CAPTURE_SIZE_pages
  let x := r F.BUF_TEST_BASE_page F.BUF_TEST_SIZE_pages
  let fits (a : Nat × Nat) := decide (a.1 + a.2 ≤ 258048)
  let clear (a b : Nat × Nat) := a.2 == 0 || b.2 == 0 || a.1 + a.2 ≤ b.1 || b.1 + b.2 ≤ a.1
  firstFail
    [ (0x01, fits d && fits c && fits x && d.2 != 0 && c.2 != 0),
      (0xD0, clear d c && clear d x && clear c x),
      (0xD1, (s.buf.alloc.all fun e => e.2.all fun p => d.1 ≤ p && p < d.1 + d.2) &&
        (!captureRuns s || (c == r' s))) ]
where
  /-- The capture region in force. -/
  r' (s : State) : Nat × Nat := (s.cur F.BUF_CAPTURE_BASE_page, s.cur F.BUF_CAPTURE_SIZE_pages)

/-- The deskew pages in use are reported (R360). -/
def deskewUsed (s : State) : State :=
  s.setF F.BUF_DESKEW_USED_pages (s.buf.alloc.foldl (fun a e => a + e.2.length) 0)

/-- The `n` lowest pages from `p` on that are not in `used`, with `k` pages to look at. -/
def freePages (used : List Nat) : Nat → Nat → Nat → List Nat
  | 0, _, _ => []
  | _, _, 0 => []
  | k + 1, p, n + 1 => if used.contains p then freePages used k (p + 1) (n + 1) else p :: freePages used k (p + 1) n

end Sys2Proof.Machine
end

