-- ==== Sys2Proof/Machine/Cipher.lean ====
section
/-! DEFINITION. The cipher engine (12_cipher.md): checks and boundary of the association set, protection of units, key
commands, the in-band exchange, and the cores; with them the release of a packet into its container and the sending of a
line frame with the leaf messages it carries. -/
namespace Sys2Proof.Machine

/-! ## Shedding, cores (R401, R404, R407) -/

/-- R407: a DATA association is shed. -/
def saShed (s : State) (i : Nat) : Bool := s.on F.CIP_STAT_overload && s.g F.CIP_STAT_shed_first ≤ i

/-- R408: the shadow mismatches of core `c` within the last 10 s. -/
def coreMismatches (s : State) (c : Nat) : List Nat := (Tbl.get [] s.cip.mism c).filter fun t => s.now < t + 10000000000

/-- R404: a chunk of core `c` was computed with another result by the next ACTIVE core: both are suspect. -/
def shadowMismatch (c : Nat) (s : State) : State :=
  let other := ((List.range 8).map fun k => (c + 1 + k) % 8).find? fun k => k != c && s.g (F.CIP_CORE_STAT_state k) == 0
  let mark (k : Nat) (s : State) : State :=
    let l := coreMismatches s k ++ [s.now]
    let s := { s with cip := { s.cip with mism := Tbl.set [] s.cip.mism k l } }
    (s.setB (F.CIP_CORE_STAT_suspect k) true).setF (F.CIP_CORE_STAT_mismatches k) (min 255 l.length)
  let s := State.loss (F.CIP_CNT_count 0) 1 s
  match other with
  | some d => mark d (mark c s)
  | none => mark c s

/-- R401, R405: the chunks of a unit are dealt to the ACTIVE cores that are not suspect, in rotation; blocks and dummy round pairs are counted (R531). -/
def dealChunks : Nat → Nat → State → State
  | 0, _, s => s
  | k + 1, len, s =>
    match ((List.range 8).map fun d => (s.cip.lastCore + 1 + d) % 8).find? fun c =>
        s.g (F.CIP_CORE_STAT_state c) == 0 && !s.on (F.CIP_CORE_STAT_suspect c) with
    | none => s
    | some c =>
      let blocks := (min len 2048 + 15) / 16
      let (d, s) := s.draw 32
      let s := State.datapath (State.datapath s (800 + 4 * c) blocks) (801 + 4 * c) (d % (3 * blocks + 1))
      dealChunks k (len - 2048) { s with cip := { s.cip with lastCore := c } }

/-! ## The association set (R382, R383) -/

/-- R379, R381: every field in its range. -/
def saRangesOk (t : Tbl Nat) : Bool :=
  (List.range 1024).all fun i =>
    let e := look t (F.CIP_SA_POL_limit_exp i)
    20 ≤ e && e ≤ 48 && (!saValid t i ||
      (if saType t i = 2 then decide (look t (F.CIP_SA_CFG_leaf i) < 512) else look t (F.CIP_SA_CFG_leaf i) == 0x3FF))

/-- R382: every association is bound to what exists, once. -/
def saBindOk (t : Tbl Nat) (s : State) : Bool :=
  ((List.range 1024).filter (saValid t)).all fun i =>
    let le := saEngine t i
    let c := saCont t i
    if saType t i < 2 then
      contValid s.inForce le c &&
      ((List.range i).all fun j => !(saValid t j && saType t j == saType t i && saEngine t j == le && saCont t j == c)) &&
      (match groupOf s.inForce le c with | some (_, m) => m == 0 | none => true)
    else s.role le == 2 || s.role le == 3

/-- R382: whether a set changes what only the enclave may change. -/
def saProtected (old t : Tbl Nat) : Bool :=
  (List.range 1024).any fun i =>
    differ old t [F.CIP_SA_POL_require i, F.CIP_SA_POL_key_source i, F.CIP_SA_POL_auto_rekey i, F.CIP_SA_POL_fcs_stomp i,
      F.CIP_SA_POL_limit_exp i, F.CIP_SA_PIN_pin i] ||
    (look old (F.CIP_SA_POL_require i) == 1 &&
      differ old t [F.CIP_SA_CFG_valid i, F.CIP_SA_CFG_type i, F.CIP_SA_CFG_engine i, F.CIP_SA_CFG_leaf i,
        F.CIP_SA_CFG_container i])

/-- R382: the checks of the 0xC8 domain on a set of master `m`. -/
def cipCheck (m : Nat) (t : Tbl Nat) (s : State) : Nat :=
  let valid := (List.range 1024).filter (saValid t)
  let new := chargeBelow s t 1024
  let old := chargeBelow s s.inForce 1024
  firstFail [
    (0x01, saRangesOk t),
    (0xE0, saBindOk t s),
    (0x03, valid.all fun i => look t (F.CIP_SA_POL_fcs_stomp i) == 0 ||
      (saType t i == 1 && look s.inForce (F.LE_GLF_CONT_CFG_type (saEngine t i) (saCont t i)) == 0)),
    (0x03, valid.all fun i => look t (F.CIP_SA_POL_key_source i) == 1 || !(s.role (saEngine t i) == 2 || s.role (saEngine t i) == 3)),
    (0x06, decide (8 * new.1 ≤ limit8 (coresWhere s (· != 2)) * new.2) || decide (new.1 * old.2 ≤ old.1 * new.2)),
    (0x09, m == 1 || !saProtected s.inForce t)]

/-- R383: the checks the associations make on an engine set, and the association set's answer. -/
def cipEngineCheck (le : Nat) (t : Tbl Nat) (s : State) : Nat :=
  let o := s.inForce
  let mine := (List.range 1024).filter fun i => saValid o i && saType o i < 2 && saEngine o i == le
  let noSlots (c : Nat) : Bool := slotsOf t le false c == 0 && slotsOf t le true c == 0 &&
    !(slotsOf o le false c == 0 && slotsOf o le true c == 0)
  firstFail [
    (0x09, mine.all fun i =>
      let c := saCont o i
      s.cur (F.CIP_SA_POL_require i) == 0 ||
        (contValid t le c && !noSlots c &&
          !differ o t [F.LE_GLF_CONT_CFG_type le c, F.LE_GLF_CONT_CFG_kind le c, F.LE_GLF_CONT_CFG_stream le c])),
    (0x03, (List.range 32).all fun q =>
      !differ o t [F.LE_GLF_ID_bundle_id le q, F.LE_GLF_ID_member_id le q] ||
        mine.all fun i => look o (F.LE_GLF_CONT_CFG_stream le (saCont o i)) != q)]

/-! ## Protection of one unit (R384 to R386, R392, R393) -/

/-- R392: the void indication. -/
def voidTag : List Byte := List.replicate 16 0xFF

/-- R384: the AAD of a container unit: `hdr` the JC word of the container's rank, or the burst header. -/
def unitAad (s : State) (i : Nat) (hdr : Nat) : List Byte :=
  let t := s.inForce
  let le := saEngine t i
  let c := saCont t i
  if saUpstream t i then toBe 6 (hdr / 65536) ++ [0, 0]
  else
    let jc := if look t (F.LE_GLF_CONT_CFG_type le c) = 1 then hdr % 2 ^ 32 else 0
    toBe 4 jc ++ toBe 2 (unitSlots s (saType t i == 1) le c) ++ [0, 0]

/-- R404: what a shadow check found in this unit: the core and whether two results agreed in time. -/
def unitShadow (x : Option (Fin 8 × Bool)) (s : State) : Bool × State :=
  match x with
  | some (c, agreed) => (!agreed, shadowMismatch c.val s)
  | none => (false, s)

/-- The count of the unit a transmit association sends now: the frame built next, or the burst's period. -/
def txUnit (s : State) (i period : Nat) : Nat :=
  if saUpstream s.inForce i then period else (s.eng (saEngine s.inForce i)).tx.fc.toNat

/-- R392, R407: a unit of a DATA_TX association in a frame: its bytes and tag, or filler and the void indication. -/
def dataTxUnit (i period start hdr : Nat) (plain : List Byte) (mism : Option (Fin 8 × Bool)) (s : State) : State :=
  let up := saUpstream s.inForce i
  let st := if up then start else 0
  let unit := txUnit s i period
  let s := saBoundary i unit (txUnits (assoc s i) unit) st s
  let s := modAssoc i (fun a => { a with seenAt := s.now }) s
  let (lost, s) := unitShadow mism s
  let put (v : List Byte × List Byte) (s : State) : State :=
    { s with cip := { s.cip with sent := Tbl.insert s.cip.sent i v } }
  let shed := lost || saShed s i
  let s := if shed then State.loss (F.CIP_CNT_count 4) 1 s else s
  match saState s i, (assoc s i).cur with
  | 1, some k =>
    if shed then put (plain.map fun _ => 0, voidTag) s
    else
      let n := (assoc s i).units * saScale s.inForce i + st
      let s := dealChunks ((plain.length + 2047) / 2048) plain.length s
      put (Config.gcm (k.take 32) (saIv k n) (unitAad s i hdr) plain) s
  | _, _ => put (plain.map fun _ => 0, voidTag) s

/-- R384, R385: the length of the plaintext of a unit: the container's capacity in a frame, or the information bytes of a burst with
`hdr`'s cw_count code words but the last 16. -/
def unitLength (s : State) (i hdr : Nat) : Nat :=
  if saUpstream s.inForce i then 416 * (hdr / 2 ^ 30 % 1024) - 16
  else 256 * unitSlots s false (saEngine s.inForce i) (saCont s.inForce i)

/-- R24, R384: the plaintext of a unit: a PACKET container's next cells; of a CBR container the bytes `plain` that its mapper gives. -/
def unitPlain (i hdr : Nat) (plain : List Byte) (s : State) : List Byte × State :=
  let le := saEngine s.inForce i
  let c := saCont s.inForce i
  if s.cur (F.LE_GLF_CONT_CFG_type le c) = 1 then (plain, modTxCont le c (fun x => { x with jc := some (hdr % 2 ^ 32) }) s)
  else takeCells le c (unitLength s i hdr) s

/-- R28: the cipher is in the path of an association's engine: native line mode, and no REGEN or LOOP (R385). -/
def cipherInPath (s : State) (i : Nat) : Bool :=
  let le := saEngine s.inForce i
  s.native le && s.role le != 4 && s.role le != 5

/-- DATA_TX_UNIT -/
def execDataTxUnit (i : Fin 1024) (period : BitVec 32) (start : Fin 1000) (hdr : BitVec 64) (plain : List Byte)
    (mism : Option (Fin 8 × Bool)) (s : State) : Host.Outcome State Fault Refusal :=
  if saValid s.inForce i.val && saType s.inForce i.val == 0 && cipherInPath s i.val then
    let (p, s) := unitPlain i.val hdr.toNat plain s
    .next (dataTxUnit i.val period.toNat start.val hdr.toNat p mism s)
  else .next s

/-- R393, R394: TAG_FAIL of a frame goes with it to the demapper; with fcs_stomp it marks the packets that touch the frame. -/
def tagMark (i : Nat) (bad : Bool) (s : State) : State :=
  let le := saEngine s.inForce i
  let c := saCont s.inForce i
  let mark := bad && s.curOn (F.CIP_SA_POL_fcs_stomp i)
  s.modGlf le fun g => { g with cont := Tbl.set {} g.cont c { Tbl.get {} g.cont c with tagFail := mark } }

/-- R392, R393: a received unit with count `unit`: discarded, or deciphered and its tag checked unless R41 replaced it. -/
def dataRxUnit (i unit start hdr : Nat) (text tag : List Byte) (replaced : Bool) (mism : Option (Fin 8 × Bool))
    (s : State) : State :=
  let st := if saUpstream s.inForce i then start else 0
  let u := rxUnits s i unit
  let s := if u < 0 then s
    else modAssoc i (fun a => { a with seenAt := s.now }) (saBoundary i unit u.toNat st s)
  let (lost, s) := unitShadow mism s
  let shed := lost || saShed s i
  let s := if shed then State.loss (F.CIP_CNT_count 4) 1 s else s
  let drop (s : State) : State :=
    State.loss (F.CIP_SA_VOID_count i) 1 { s with cip := { s.cip with got := Tbl.erase s.cip.got i } }
  if tag = voidTag then drop (State.evt 0xC8 9 (s.setB (F.CIP_SA_ST_void_rx i) true))
  else
    let s := s.setB (F.CIP_SA_ST_void_rx i) false
    match saState s i, (assoc s i).cur with
    | 1, some k =>
      if shed then drop s
      else
        let n : Int := if u < 0 then u * saScale s.inForce i + st else ((assoc s i).units * saScale s.inForce i + st : Nat)
        let aad := unitAad s i hdr
        let plain := (Config.gcm (k.take 32) (saIv k n) aad text).1
        let bad := !replaced && (Config.gcm (k.take 32) (saIv k n) aad plain).2 != tag
        let s := dealChunks ((text.length + 2047) / 2048) text.length s
        let s := if bad then State.evt 0xC8 0 (State.loss (F.CIP_SA_TAGFAIL_count i) 1 s) else s
        tagMark i bad { s with cip := { s.cip with got := Tbl.insert s.cip.got i (plain, bad) } }
    | _, _ => drop s

/-- DATA_RX_UNIT -/
def execDataRxUnit (i : Fin 1024) (unit : BitVec 32) (start : Fin 1000) (hdr : BitVec 64) (text : List Byte)
    (tag : BitVec 128) (replaced : Bool) (mism : Option (Fin 8 × Bool)) (s : State) : Host.Outcome State Fault Refusal :=
  if saValid s.inForce i.val && saType s.inForce i.val == 1 && cipherInPath s i.val then
    .next (dataRxUnit i.val unit.toNat start.val hdr.toNat text (toBe 16 tag.toNat) replaced mism s)
  else .next s

/-! ## Key commands (R387 to R389) -/

/-- R388: the reply word on mailbox direction 3; a refused command counts in LOAD_REFUSED. -/
def keyReply (op status id : Nat) (s : State) : State :=
  let s := if status = 0 then s else s.bump (F.CIP_CNT_count 8) 1
  replySend 3 [(op + 0x80) * 2 ^ 24 + status * 2 ^ 16 + id] s

/-- R387, R388, R427: what refuses every key command: malformed, zeroised, association, key source. -/
def keyRefuse (words : List Word) (count : Nat) (s : State) : Nat :=
  let i := (words.getD 0 0).toNat % 1024
  firstFail [(7, words.length == count), (6, !s.on F.ENC_STAT_zeroised), (1, saValid s.inForce i),
    (2, s.cur (F.CIP_SA_POL_key_source i) == 1 && s.g F.ENC_STAT_debug_level != 2)]

/-- R388: whether a key is held in any slot. -/
def keyHeld (s : State) (k : List Byte) : Bool :=
  s.cip.sa.any fun e => (e.2.cur.any fun x => x.take 32 == k.take 32) || (e.2.next.any fun x => x.take 32 == k.take 32)

/-- KEY_LOAD. R388, R389: request id and the words after word 0. -/
def execKeyLoad (id : BitVec 16) (words : List Word) (s : State) : Host.Outcome State Fault Refusal :=
  if !enclaveServes s then .next s else
  let w1 := (words.getD 0 0).toNat
  let i := w1 % 1024
  let next := w1 / 2 ^ 31 == 1
  let reply (st : Nat) (s : State) := keyReply 0x21 st id.toNat s
  let r := keyRefuse words 13 s
  if r ≠ 0 then .next (reply r s)
  else if next && (assoc s i).switch.isSome then .next (reply 5 s)
  else
    let blob := (words.drop 1).flatMap fun w => toLe 4 w.toNat
    match s.enc.klk.bind fun k => Config.kwpUnwrap k blob with
    | none => .next (reply 3 s)
    | some k =>
      if k.length ≠ 36 then .next (reply 3 s)
      else if keyHeld s k then .next (reply 4 s)
      else if next then .next (reply 0 (saReport i (modAssoc i (fun a => { a with next := some k }) s)))
      else .next (reply 0 (modAssoc i (fun a => { a with shadow := some k }) s))

/-- KEY_ERASE. R388. -/
def execKeyErase (id : BitVec 16) (words : List Word) (s : State) : Host.Outcome State Fault Refusal :=
  if !enclaveServes s then .next s else
  let w1 := (words.getD 0 0).toNat
  let i := w1 % 1024
  let next := w1 / 2 ^ 31 == 1
  let r := keyRefuse words 1 s
  let r := if r = 0 ∧ next ∧ (assoc s i).switch.isSome then 5 else r
  let s := if r ≠ 0 then s
    else modAssoc i (fun a => if next then { a with eraseNext := true } else { a with eraseCur := true }) s
  .next (keyReply 0x22 r id.toNat s)

/-- R389: the unit an association transmits or receives now. -/
def unitNow (s : State) (i : Nat) : Nat :=
  let t := s.inForce
  let le := saEngine t i
  if saUpstream t i then periodNow s le % 2 ^ 32
  else if saType t i = 0 then s.g (F.LE_GLF_TX_FC_fc le)
  else (Tbl.get 0 (s.eng le).glf.pred (look t (F.LE_GLF_CONT_CFG_stream le (saCont t i))) + 2 ^ 32 - 1) % 2 ^ 32

/-- KEY_ACTIVATE. R388, R389. -/
def execKeyActivate (id : BitVec 16) (words : List Word) (s : State) : Host.Outcome State Fault Refusal :=
  if !enclaveServes s then .next s else
  let i := (words.getD 0 0).toNat % 1024
  let now := unitNow s i
  let soon := (words.getD 2 0).toNat % 2 == 1
  let at' := if soon then (now + 1) % 2 ^ 32 else (words.getD 1 0).toNat
  let ahead := (at' + 2 ^ 32 - now) % 2 ^ 32
  let r := keyRefuse words 3 s
  let r := if r ≠ 0 then r else firstFail [
    (1, !(soon && saType s.inForce i % 2 == 1 && (assoc s i).switch.isSome)),
    (8, (assoc s i).next.isSome),
    (9, soon || (1024 ≤ ahead && ahead ≤ 2 ^ 20))]
  let s := if r ≠ 0 then s else saReport i (modAssoc i (fun a => { a with switch := some at' }) s)
  .next (keyReply 0x23 r id.toNat s)

/-! ## In-band exchange (R396 to R400) -/

/-- R396: the associations of the receive container a message's slot names, DATA_TX and DATA_RX. -/
def kxAssocs (s : State) (le : Nat) (body : List Byte) : Option (Nat × Nat) :=
  let c := slotOf s.inForce le true 0 (byteAt body 2)
  let (e, c) := match groupOf s.inForce le c with
    | some (g, _) => (grpMember s.inForce g 0).getD (le, c)
    | none => (le, c)
  match saOf s.inForce 0 e c, saOf s.inForce 1 e c with
  | some tx, some rx => some (tx, rx)
  | _, _ => none

/-- The record of an exchange by its associations, not IDLE. -/
def kxBy (s : State) (rx : Nat) : Option Nat :=
  (List.range 16).find? fun j => kxState s j != 0 && s.g (F.CIP_KX_STAT_rx j) == rx

/-- R396: the peer's certificate chain received for an exchange id, once every fragment is there. -/
def kxChain (s : State) (le xid : Nat) : Option (List Byte) :=
  let fs := Tbl.get [] s.cip.certs (le * 65536 + xid)
  match fs.head? with
  | none => none
  | some (_, n, _) =>
    let parts := (List.range n).map fun k => fs.find? fun f => f.1 == k && f.2.1 == n
    if n = 0 ∨ parts.any Option.isNone then none else some (parts.flatMap fun f => (f.map fun x => x.2.2).getD [])

/-- R398: the peer's public key, where its chain verifies and the pin admits it. -/
def kxPeer (s : State) (le xid rx : Nat) : Option (List Byte) :=
  match (kxChain s le xid).bind Config.chainKey with
  | none => none
  | some k =>
    let pin := s.cur (F.CIP_SA_PIN_pin rx)
    if pin = 0 ∨ beNat (Config.sha384 k) 0 4 = pin then some k else none

/-- R395: a message of an exchange that fails authentication is discarded and counted. -/
def kxAuthFail (j : Option Nat) (s : State) : State :=
  let s := s.bump (F.CIP_CNT_count 7) 1
  match j with
  | some j => modKx j (fun k => { k with authBad := true }) s
  | none => s

/-- R397: K_ir and K_ri, each with its salt. -/
def kxKeys (priv peerQ init resp : List Byte) : List Byte × List Byte :=
  let nonces := (init.drop 4).take 32 ++ (resp.drop 4).take 32
  let info := [0x53, 0x58, 0x34, 0x38, 0x30, 0x30, 0x20, 0x47, 0x4C, 0x46, 0x20, 0x4B, 0x58] ++ init.take 2 ++
    (init.drop 2).take 1 ++ (resp.drop 2).take 1
  let okm := Config.hkdf (Config.ecdh priv peerQ) nonces info 72
  (okm.take 36, (okm.drop 36).take 36)

/-- R399: next keys are installed. -/
def kxInstall (tx rx : Nat) (kt kr : List Byte) (s : State) : State :=
  let s := saReport tx (modAssoc tx (fun a => { a with next := some kt }) s)
  saReport rx (modAssoc rx (fun a => { a with next := some kr }) s)

/-- R397: the GMAC of KX_ACK (`last` 0xFF) or KX_SWITCH (0xFE) under a key. -/
def kxGmac (k : List Byte) (last : Byte) (aad : List Byte) : List Byte :=
  (Config.gcm (k.take 32) (k.drop 32 ++ List.replicate 7 0xFF ++ [last]) aad []).2

/-- The first 4 bytes of a message of record `j`: xid, own slot, zero. -/
def kxHead (s : State) (j : Nat) : List Byte :=
  let t := s.inForce
  let tx := s.g (F.CIP_KX_STAT_tx j)
  toBe 2 (kxRec s j).xid ++ [BitVec.ofNat 8 (kxSlot s (saEngine t tx) (saCont t tx)), 0]

/-- R399, R400: KX_SWITCH for the transmit direction: the own DATA_TX is armed. -/
def kxSwitchSend (j : Nat) (s : State) : State :=
  let tx := s.g (F.CIP_KX_STAT_tx j)
  let fc := (s.g (F.LE_GLF_TX_FC_fc (saEngine s.inForce tx)) + s.g F.CIP_KX_TIME_kx_lead) % 2 ^ 32
  let head := kxHead s j ++ toLe 4 fc
  let tag := kxGmac ((assoc s tx).next.getD []) 0xFE head
  let s := s.setF (F.CIP_KX_STAT_state j) 4
  let s := saReport tx (modAssoc tx (fun a => { a with switch := some fc }) s)
  kxCheck j (kxSend j 0x15 (head ++ tag) s)

/-- R399: KX_ACK of record `j`, beside the message it repeats. -/
def kxAckSend (j : Nat) (s : State) : State :=
  let tx := s.g (F.CIP_KX_STAT_tx j)
  let head := kxHead s j
  ohPut (saEngine s.inForce tx) 0 5 0x14 (head ++ kxGmac ((assoc s tx).next.getD []) 0xFF head) s

/-- R398: a KX_ABORT answers a message; its reason replaces the zero byte. -/
def kxAbortSend (le reason : Nat) (body : List Byte) (s : State) : State :=
  let c := slotOf s.inForce le true 0 (byteAt body 2)
  ohPut le 0 5 0x16 (body.take 2 ++ [BitVec.ofNat 8 (kxSlot s le c), BitVec.ofNat 8 reason]) s

/-- KX_START -/
def execKxStart (m : Master) (tx rx : Fin 1024) (s : State) : Host.Outcome State Fault Refusal :=
  .next (s.goWrite m 0xC9044 false (kxStart tx.val rx.val))

/-- KX_CERT. R396: a fragment of the peer's chain. -/
def execKxCert (le : Fin 2) (body : List Byte) (s : State) : Host.Outcome State Fault Refusal :=
  let key := le.val * 65536 + beNat body 0 2
  let i := byteAt body 2
  let l := (Tbl.get [] s.cip.certs key).filter fun f => f.1 != i
  .next { s with cip := { s.cip with certs := Tbl.set [] s.cip.certs key ((i, byteAt body 3, body.drop 4) :: l) } }

/-- R399: record `j` answers a KX_INIT for associations `tx` and `rx`: derive, hold the keys, KX_RESP. -/
def kxRespond (j tx rx : Nat) (body : List Byte) (s : State) : State :=
  let s := (s.setF (F.CIP_KX_STAT_tx j) tx).setF (F.CIP_KX_STAT_rx j) rx
  let s := ((s.setF (F.CIP_KX_STAT_state j) 2).setF (F.CIP_KX_STAT_role j) 1).setF (F.CIP_KX_STAT_result j) 0
  let s := modKx j (fun _ => { xid := beNat body 0 2, init := body, began := s.now }) s
  let (nonce, s) := drawBytes 4 s
  let (priv, s) := drawBytes 6 s
  let (k, s) := drawBytes 6 s
  let resp := toBe 2 (beNat body 0 2) ++ [BitVec.ofNat 8 (kxSlot s (saEngine s.inForce tx) (saCont s.inForce tx)), 0] ++
    nonce ++ Config.p384Public priv
  let keys := kxKeys priv ((body.drop 36).take 97) body resp
  let s := modKx j (fun r => { r with resp := resp, held := some keys }) s
  kxSend j 0x12 (resp ++ Config.ecdsaSign s.enc.idKey k (body ++ resp)) (kxCerts j s)

/-- KX_INIT. R398, R399. -/
def execKxInit (le : Fin 2) (body : List Byte) (s : State) : Host.Outcome State Fault Refusal :=
  let le := le.val
  let xid := beNat body 0 2
  match kxAssocs s le body with
  | none => .next s
  | some (tx, rx) =>
    match kxBy s rx with
    | some j =>
      if kxState s j = 1 then
        let own := beNat (kxRec s j).init 4 32
        let his := beNat body 4 32
        if his = own then
          let (d, s) := s.draw 16
          .next (modKx j (fun _ => { again := true, began := s.now + (1 + d % 16) * 1000000 }) (s.setF (F.CIP_KX_STAT_state j) 0))
        else if own < his then .next s
        else if !kxPolicy s tx rx then .next (kxAbortSend le 1 body (kxEnd j 4 s))
        else if (kxPeer s le xid rx).isNone then .next (kxAuthFail (some j) s)
        else if s.enc.trngBad then .next (kxAbortSend le 3 body s)
        else .next (kxRespond j tx rx body s)
      else if (kxRec s j).xid = xid then .next s
      else .next (kxAbortSend le 3 body s)
    | none =>
      if !kxPolicy s tx rx then .next (kxAbortSend le 1 body s)
      else if kxBusy s tx rx then .next (kxAbortSend le 3 body s)
      else match (List.range 16).find? fun j => kxState s j == 0 && !(kxRec s j).again with
        | none => .next (kxAbortSend le 3 body s)
        | some j =>
          if (kxPeer s le xid rx).isNone then .next (kxAuthFail none s)
          else .next (kxRespond j tx rx body s)

/-- KX_RESP. R397 to R399: the initiator installs its next keys and confirms. -/
def execKxResp (le : Fin 2) (body : List Byte) (s : State) : Host.Outcome State Fault Refusal :=
  match (kxAssocs s le.val body).bind fun a => (kxBy s a.2).map fun j => (a.1, a.2, j) with
  | none => .next s
  | some (tx, rx, j) =>
    let r := kxRec s j
    if kxState s j ≠ 1 ∨ r.xid ≠ beNat body 0 2 then .next s
    else
      let resp := body.take 133
      match kxPeer s le.val r.xid rx with
      | none => .next (kxAuthFail (some j) s)
      | some pub =>
        if !Config.ecdsaVerify pub (r.init ++ resp) (body.drop 133) then .next (kxAuthFail (some j) s)
        else
          let (ir, ri) := kxKeys r.priv ((body.drop 36).take 97) r.init resp
          let s := modKx j (fun k => { k with priv := [], resp := resp }) (kxInstall tx rx ir ri s)
          let s := s.setF (F.CIP_KX_STAT_state j) 3
          let (k, s) := drawBytes 6 s
          let head := kxHead s j
          .next (kxSend j 0x13 (head ++ Config.ecdsaSign s.enc.idKey k (r.init ++ resp ++ head)) s)

/-- KX_CONFIRM. R399: the responder installs its next keys, acknowledges and switches; a repeated one is acknowledged again. -/
def execKxConfirm (le : Fin 2) (body : List Byte) (s : State) : Host.Outcome State Fault Refusal :=
  match (kxAssocs s le.val body).bind fun a => (kxBy s a.2).map fun j => (a.1, a.2, j) with
  | none => .next s
  | some (tx, rx, j) =>
    let r := kxRec s j
    if r.xid ≠ beNat body 0 2 ∨ s.g (F.CIP_KX_STAT_role j) ≠ 1 then .next s
    else if kxState s j = 4 then .next (kxAckSend j s)
    else if kxState s j ≠ 2 then .next s
    else
      let ok := match kxPeer s le.val r.xid rx with
        | some pub => Config.ecdsaVerify pub (r.init ++ r.resp ++ body.take 4) (body.drop 4)
        | none => false
      match ok, r.held with
      | true, some (ir, ri) =>
        .next (kxSwitchSend j (kxAckSend j (modKx j (fun k => { k with held := none }) (kxInstall tx rx ri ir s))))
      | _, _ => .next (kxAuthFail (some j) s)

/-- KX_ACK. R397, R399. -/
def execKxAck (le : Fin 2) (body : List Byte) (s : State) : Host.Outcome State Fault Refusal :=
  match (kxAssocs s le.val body).bind fun a => (kxBy s a.2).map fun j => (a.2, j) with
  | none => .next s
  | some (rx, j) =>
    if kxState s j ≠ 3 ∨ (kxRec s j).xid ≠ beNat body 0 2 then .next s
    else
      let k := if (kxRec s j).peer then (assoc s rx).cur else (assoc s rx).next
      if kxGmac (k.getD []) 0xFF (body.take 4) = body.drop 4 then .next (kxSwitchSend j s)
      else .next (kxAuthFail (some j) s)

/-- KX_SWITCH. R400: the receive association is armed where the GMAC verifies under its next key. -/
def execKxSwitch (le : Fin 2) (body : List Byte) (s : State) : Host.Outcome State Fault Refusal :=
  match kxAssocs s le.val body with
  | none => .next s
  | some (_, rx) =>
    match (assoc s rx).next with
    | none => .next s
    | some k =>
      if kxGmac k 0xFE (body.take 8) = body.drop 8 then
        .next (saReport rx (modAssoc rx (fun a => { a with switch := some (leNat body 4 4) }) s))
      else .next (kxAuthFail (kxBy s rx) s)

/-- KX_ABORT. R399. -/
def execKxAbort (le : Fin 2) (body : List Byte) (s : State) : Host.Outcome State Fault Refusal :=
  match (kxAssocs s le.val body).bind fun a => kxBy s a.2 with
  | none => .next s
  | some j =>
    if (kxRec s j).xid = beNat body 0 2 ∧ (kxState s j = 1 ∨ kxState s j = 2) then .next (kxEnd j 5 s) else .next s

/-- KX_REPEAT. R399: every 1 ms. -/
def execKxRepeat (j : Fin 16) (s : State) : Host.Outcome State Fault Refusal :=
  if kxState s j.val = 0 then .next s
  else
    let (ty, body) := (kxRec s j.val).last
    let s := s.reach ((kxRec s j.val).sentAt + 1000000)
    let s := modKx j.val (fun k => { k with sentAt := s.now }) s
    .next (ohPut (saEngine s.inForce (s.g (F.CIP_KX_STAT_tx j.val))) 0 5 ty body s)

/-- KX_TIMEOUT. R399: kx_timeout since the start. -/
def execKxTimeout (j : Fin 16) (s : State) : Host.Outcome State Fault Refusal :=
  let j := j.val
  let r := kxRec s j
  if kxState s j = 0 then .next s
  else
    let s := s.reach (r.began + s.g F.CIP_KX_TIME_kx_timeout * 1000000)
    let res := if 3 ≤ kxState s j then (if r.own ∨ r.peer then 6 else 2) else if r.authBad then 3 else 2
    .next (kxEnd j res s)

/-- KX_RESTART. R399: the delay after an equal nonce has run out. -/
def execKxRestart (j : Fin 16) (s : State) : Host.Outcome State Fault Refusal :=
  let j := j.val
  if kxState s j = 0 ∧ (kxRec s j).again then
    let tx := s.g (F.CIP_KX_STAT_tx j)
    let rx := s.g (F.CIP_KX_STAT_rx j)
    let s := modKx j (fun _ => {}) (s.reach (kxRec s j).began)
    if !kxPolicy s tx rx then .next (s.setF (F.CIP_KX_STAT_result j) 4)
    else if kxBusy s tx rx then .next (s.setF (F.CIP_KX_STAT_result j) 7)
    else .next (kxInit j s)
  else .next s

/-! ## Cores (R405, R406) -/

/-- CORE_TEST_START. R405: a suspect or due core leaves dispatch; `chunks` in flight are dealt again. -/
def execCoreTestStart (c : Fin 8) (chunks : Nat) (s : State) : Host.Outcome State Fault Refusal :=
  let c := c.val
  let q := chargeBelow s s.inForce 1024
  let due := coresWhere s (· == 1) == 0 && decide (8 * q.1 ≤ limit8 7 * q.2)
  if s.g (F.CIP_CORE_STAT_state c) = 0 ∧ (s.on (F.CIP_CORE_STAT_suspect c) ∨ due) then
    let s := if s.on (F.CIP_CORE_STAT_suspect c) then s else s.reach (Tbl.get 0 s.cip.tested c + 60000000000)
    let s := s.setF (F.CIP_CORE_STAT_state c) 1
    let s := (s.bump (F.CIP_CNT_count 1) chunks).bump (F.CIP_CNT_count 2) 1
    let s := if chunks = 0 then s else State.datapath s (802 + 4 * c) chunks
    .next (cipherLoad { s with cip := { s.cip with tested := Tbl.set 0 s.cip.tested c s.now } })
  else .next s

/-- CORE_TEST_DONE. R405, R406. -/
def execCoreTestDone (c : Fin 8) (ok : Bool) (s : State) : Host.Outcome State Fault Refusal :=
  let c := c.val
  if s.g (F.CIP_CORE_STAT_state c) = 1 then
    let s := s.reach (Tbl.get 0 s.cip.tested c + 50000)
    if ok then .next (cipherLoad ((s.setF (F.CIP_CORE_STAT_state c) 0).setB (F.CIP_CORE_STAT_suspect c) false))
    else .next (cipherLoad (State.evt 0xC8 5 ((s.setF (F.CIP_CORE_STAT_state c) 2).bump (F.CIP_CNT_count 3) 1)))
  else .next s

/-- R391, R425: every key slot is overwritten, exchanges end, and every valid association is BLOCKED for `reason`. -/
def cipErase (reason : Nat) (s : State) : State :=
  let s := { s with cip := { s.cip with sa := [], kx := [], certs := [] } }
  let s := s.forEach (List.range 16) fun j s => s.setF (F.CIP_KX_STAT_state j) 0
  s.forEach ((List.range 1024).filter (saValid s.inForce)) fun i s => saReport i (saBlock i reason s)

/-! ## Release of a packet (R347, R348) -/

/-- R35, R281: a packet enters its container, with the leaf its cells name (R348); a container of a STOPPING or STOPPED engine admits
nothing. -/
def queuePacket (le c leaf : Nat) (frame : List Byte) (s : State) : State :=
  let (e, h) := unitHome s le c
  modTxCont e h (fun x => { x with packets := x.packets ++ [(leaf, frame)] }) s

/-- PACKET_RELEASE -/
def execPacketRelease (id : Nat) (s : State) : Host.Outcome State Fault Refusal :=
  match s.cls.pkts.find? fun q => q.id == id with
  | none => .next s
  | some q =>
    if q.second.isSome || waits s.cls.pkts q then .next s
    else
      let t := s.inForce
      let le := q.action / 2 ^ 123 % 2
      let c := q.action / 2 ^ 117 % 64
      let exists' := contValid t le c && look t (F.LE_GLF_CONT_CFG_type le c) == 0 &&
        (look t (F.LE_GLF_CONT_CFG_kind le c) == 0 || s.role le == 3)
      let bound := saOf t 0 le c
      let open' := s.native le && s.role le != 4 && s.role le != 5 && (s.runState le == 1 || s.runState le == 2)
      let leaf := if s.role le = 2 then q.action / 2 ^ 107 % 1024
        else if s.role le = 3 ∧ look t (F.LE_GLF_CONT_CFG_kind le c) = 1 then s.g (F.LE_P2MP_LEAF_STAT_leaf_id le) else 0x3FF
      let saOk := if (q.action / 2 ^ 106).testBit 0 then bound.isNone else bound == some (q.action / 2 ^ 96 % 1024)
      let s := setPkts (s.cls.pkts.filter fun r => r.id != id) s
      if !exists' || !open' then .next (clsCount q.port 8 s)
      else if !saOk then .next (clsCount q.port 9 s)
      else
        let room := cellBytes t le c - 8
        let s := State.datapath s (256 + 256 * le + 4 * c) ((q.frame.length + room - 1) / room)
        .next (queuePacket le c leaf q.frame (State.datapath s (257 + 256 * le + 4 * c) q.frame.length))

/-! ## A line frame with its leaf messages (R219, R268, R274) -/

/-- R219: a hub's waiting messages enter the overhead channel: ASSIGN on every stream, any other on its leaf's home
stream, followed by its tag where ctrl_auth asks for one. -/
def sendMsgs (le : Nat) (s : State) : State :=
  let msgs := (s.eng le).p2mp.msgs
  let s := s.forEach msgs fun m s =>
    if m.type = 1 then s.forEach (txStreams s le) fun q s => ohPut le q 3 0x02 (msgBytes m) s
    else
      let home := leafHome s.inForce le m.leaf
      let (tag, s) := if s.curOn (F.LE_P2MP_HUB_CTRL_ctrl_auth le) then ctrlTag le m.leaf (msgBytes m) s else ([], s)
      ohPut le home 3 0x02 (msgBytes m ++ tag) s
  (s.modP2 le fun p => { p with msgs := [] }).setF (F.LE_P2MP_LMSG_STAT_queued le) 0

/-- R284: a unit is ready for the frame. -/
def unitPut (le c : Nat) (u : TxUnit) (s : State) : State :=
  s.modGlf le fun g => { g with units := Tbl.insert g.units c u }

/-- R25, R385: the unit that the cipher holds for association `i`, with its tag, goes to frame `fc`. -/
def unitSealed (le c fc i jc : Nat) (s : State) : State :=
  let u := (Tbl.find s.cip.sent i).getD ([], [])
  unitPut le c { fc := fc, jc := jc, bytes := u.1, tag := u.2 } { s with cip := { s.cip with sent := Tbl.erase s.cip.sent i } }

/-- R24, R25: container `c` through the cipher under association `i`: the unit that DATA_TX_UNIT made, or one made now. -/
def unitSecured (le c fc i : Nat) (s : State) : State :=
  if (Tbl.find s.cip.sent i).isSome then unitSealed le c fc i ((txCont s le c).jc.getD 0) s
  else
    let (jc, b, s) := plainUnit le c (256 * unitSlots s false le c) s
    unitSealed le c fc i jc (dataTxUnit i 0 0 jc b none s)

/-- R24, R284: a container that no association protects: the unit as the mapper gives it. -/
def unitBare (le c fc : Nat) (s : State) : State :=
  let (jc, b, s) := plainUnit le c (256 * unitSlots s false le c) s
  unitPut le c { fc := fc, jc := jc, bytes := b, tag := List.replicate 16 0 } s

/-- R24, R25, R284: the unit of container `c` in frame `fc`. -/
def makeUnit (le c fc : Nat) (s : State) : State :=
  match saOf s.inForce 0 le c with
  | some i => unitSecured le c fc i s
  | none => unitBare le c fc s

/-- R24, R292: the units of the frame that engine `le` sends: of each SLOTTED container of its streams; a group's or pair's unit is made
once for a frame count, on whichever member's engine sends that frame first. -/
def makeUnits (le fc : Nat) (s : State) : State :=
  s.forEach ((List.range 64).filter fun c => contValid s.inForce le c && s.cur (F.LE_GLF_CONT_CFG_kind le c) == 0 &&
      (txStreams s le).contains (s.cur (F.LE_GLF_CONT_CFG_stream le c))) fun c s =>
    let (e, h) := unitHome s le c
    match Tbl.find (s.eng e).glf.units h with
    | some u => if u.fc = fc ∧ (groupOf s.inForce le c).isSome then s else makeUnit e h fc s
    | none => makeUnit e h fc s

/-- GLF_FRAME_TX: containers, cipher, framer (R24); in REGEN and LOOP there are no containers (R29). Its end is the frame boundary of the
transmit associations (R382). -/
def execGlfFrameTx (le : Fin 2) (s : State) : Host.Outcome State Fault Refusal :=
  let s := if s.role le.val = 2 ∧ s.runState le.val = 2 then sendMsgs le.val s else s
  let s := if frameReady s le.val && (regenSource s le.val).isNone then makeUnits le.val (nextFc s le.val) s else s
  let sent := frameReady s le.val
  let s := glfFrameTx le.val s
  .next (if sent then saPart (fun i => (txStreams s le.val).any fun q => saAtFrame s 0 le.val q i) s else s)

end Sys2Proof.Machine
end

