-- ==== Sys2Proof/Machine/Mapping.lean ====
section
/-! DEFINITION. Groups, deskew, the member-state protocol and the defects (08_gweano_line_frame.md, R276 to R299), with
the checks of the framer's and the mapping function's sets. -/
namespace Sys2Proof.Machine

/-! ## Checks of an engine's framer set (R276, R278, R285, R288) -/

/-- R278: a client of `kbps` fits `slots` slots at a frame period (ns, as a fraction). -/
def cbrFits (kbps slots : Nat) (p : Nat × Nat) : Bool :=
  decide (kbps * 1000 * 10002 * p.1 ≤ slots * 2048 * 1000000000 * p.2 * 10000)

/-- R278: the frame period of a set: transmit plan for the transmit direction, receive plan for the receive direction. -/
def setPeriod (t : Tbl Nat) (le : Nat) (rx : Bool) : Nat × Nat :=
  if rx then framePeriod (look t (F.LE_RX_PLAN_fec_oh le)) (rxCoded t le)
  else framePeriod (look t (F.LE_TX_PLAN_fec_oh le)) (txCoded t le)

/-- R278: container `c` of a set fits its client in each direction in which it has slots. -/
def contFits (t o : Tbl Nat) (le c : Nat) : Bool :=
  let rate := portRate o (look t (F.LE_GLF_CONT_CFG_port le c))
  [false, true].all fun rx =>
    let n := slotsOf t le rx c
    n == 0 || cbrFits rate n (setPeriod t le rx)

/-- R278: a CONCAT group of CBR members fits its client over the active members, engine `le` under a set and the other as
in force. -/
def groupFits (t : Tbl Nat) (s : State) (le g : Nat) : Bool :=
  let o := s.inForce
  match (List.range 16).findSome? (grpMember o g) with
  | none => true
  | some (e0, c0) =>
    let tab (e : Nat) : Tbl Nat := if e = le then t else o
    if look (tab e0) (F.LE_GLF_CONT_CFG_type e0 c0) ≠ 1 then true
    else
      let rate := portRate o (look (tab e0) (F.LE_GLF_CONT_CFG_port e0 c0))
      [false, true].all fun rx =>
        let act := if rx then (grpSt s g).sink else (grpSt s g).src
        let n := ((List.range 16).filter (fun m => act.testBit m)).foldl (fun a m => match grpMember o g m with
          | some (e, c) => a + slotsOf (tab e) e rx c
          | none => a) 0
        n == 0 || cbrFits rate n (setPeriod (tab e0) e0 rx)

/-- R276: a slot names a valid container of its stream. -/
def slotOk (t : Tbl Nat) (le : Nat) (rx : Bool) (q n : Nat) : Bool :=
  let b := slotOf t le rx q n
  b == 0xFF || (contValid t le b && look t (F.LE_GLF_CONT_CFG_stream le b) == q)

/-- Every slot byte of both maps of every stream, under a test. -/
def allSlots (p : Bool → Nat → Nat → Bool) : Bool :=
  [false, true].all fun rx => (List.range 32).all fun q => (List.range 256).all fun n => p rx q n

/-- R285: the GLF rate of an engine's streams, as a fraction. -/
def glfRate (t : Tbl Nat) (le : Nat) : Nat × Nat :=
  let c := txCoded t le
  (c.1, c.2 * overhead (look t (F.LE_TX_PLAN_fec_oh le)))

/-- R285: the bundles of an engine's streams in a set; identity 0 names no bundle. -/
def bundles (t : Tbl Nat) (le : Nat) : List Nat :=
  let qs := if look t (F.LE_ROLE_role le) = 2 ∨ look t (F.LE_ROLE_role le) = 3 then List.range 32 else [0]
  (qs.map fun q => look t (F.LE_GLF_ID_bundle_id le q)).filter (· != 0)

/-- R285: streams of one bundle are timed from the DPLL and have equal GLF rates; a timed entropy change may not touch a
bundle shared with the other engine. -/
def bundleOk (t : Tbl Nat) (le : Nat) (s : State) : Bool :=
  let o := s.inForce
  let mine := bundles t le
  let shared := (bundles o (1 - le)).any fun b => mine.contains b
  let r := glfRate t le
  let r' := glfRate o (1 - le)
  let dpll (x : Nat) := x != 4 && x != 5
  (mine.isEmpty || dpll (look t (F.LE_ROLE_role le))) &&
  (!shared || (dpll (look o (F.LE_ROLE_role (1 - le))) && r.1 * r'.2 == r'.1 * r.2 &&
    !(s.runState le == 2 && txTimed o t le)))

/-- R285: within one bundle, member numbers are distinct. -/
def membersDistinct (t : Tbl Nat) (le : Nat) (s : State) : Bool :=
  let ids (t : Tbl Nat) (e : Nat) : List Nat := (List.range 32).filterMap fun q =>
    let b := look t (F.LE_GLF_ID_bundle_id e q)
    if b = 0 then none else some (b * 16 + look t (F.LE_GLF_ID_member_id e q))
  noRepeat (ids t le ++ ids s.inForce (1 - le))

/-- R276, R278, R285, R288: the reason an engine's framer set is rejected with. -/
def glfCheck (t : Tbl Nat) (le : Nat) (s : State) : Nat :=
  let role := look t (F.LE_ROLE_role le)
  let conts := (List.range 64).filter (contValid t le)
  let slotted (c : Nat) : Bool := look t (F.LE_GLF_CONT_CFG_kind le c) == 0
  let has (rx : Bool) (c : Nat) : Bool := slotsOf t le rx c != 0
  let changed := !differ s.inForce t ((List.range 4).flatMap fun a => (List.range 8).flatMap fun b => (List.range 64).flatMap fun w =>
    [F.LE_GLF_TX_SLOT_slots le a b w, F.LE_GLF_RX_SLOT_slots le a b w])
  firstFail [
    (0x01, conts.all fun c =>
      (role == 2 || role == 3 || look t (F.LE_GLF_CONT_CFG_stream le c) == 0) &&
      (slotted c || role != 2 || decide (look t (F.LE_GLF_CONT_AUX_leaf le c) < 512))),
    (0x02, (List.range 64).all fun c => look t (F.LE_GLF_CONT_CFG_cell_size le c) != 3),
    (0x02, changed || allSlots fun rx q n => let b := slotOf t le rx q n; decide (b < 0x40) || b == 0xFF),
    (0xA0, allSlots (slotOk t le)),
    (0xA1, (List.range 32).all fun q => decide ((ranked t le q).length ≤ 32)),
    (0x03, conts.all fun c => !slotted c || has false c || has true c),
    (0x03, membersDistinct t le s),
    (0x91, conts.all fun c => look t (F.LE_GLF_CONT_CFG_type le c) == 0 || (groupOf s.inForce le c).isSome ||
      (slotted c && contFits t s.inForce le c)),
    (0x91, (List.range 64).all fun g => !grpValid s.inForce g || grpPair s.inForce g || groupFits t s le g),
    (0xA2, bundleOk t le s),
    (0xA3, (List.range 64).all fun c => contValid t le c || (groupOf s.inForce le c).isNone)]

/-- R285: a stream that joins a bundle in which another stream runs takes its FC. -/
def joinBundle (le : Nat) (old : Tbl Nat) (s : State) : State :=
  let joined := (bundles s.inForce le).any fun b => !(bundles old le).contains b && (bundles s.inForce (1 - le)).contains b
  if joined ∧ s.runState (1 - le) = 2 then
    s.modTx le fun t => { t with fc := (s.eng (1 - le)).tx.fc }
  else s

/-! ## Deskew regions (R290) -/

/-- R290: the pages of a member's region. -/
def deskewPages (t : Tbl Nat) (s : State) (g le c : Nat) : Nat :=
  let p := streamPeriod s le true
  let dd := look t (F.MAP_GRP_CTRL_dd_max (g / 32) (g % 32)) * 10000
  let d := (if p.1 = 0 then 0 else (dd * p.2 + p.1 - 1) / p.1) + 4
  (d * slotsOf s.inForce le true c * 256 + 65535) / 65536

/-- The configured members of the valid groups of a set: group, member, engine, container. -/
def members (t : Tbl Nat) : List (Nat × Nat × Nat × Nat) :=
  ((List.range 64).filter (grpValid t)).flatMap fun g => (List.range 16).filterMap fun m =>
    (grpMember t g m).map fun e => (g, m, e.1, e.2)

/-- R290, R360: regions of members no longer configured are freed, and new members take the lowest free pages. -/
def deskewAlloc (s : State) : State :=
  let ms := members s.inForce
  let s := modBuf (fun b => { b with alloc := Tbl.keep (fun k => ms.any fun e => e.1 * 16 + e.2.1 == k) b.alloc }) s
  let s := s.forEach ms fun e s =>
    let k := e.1 * 16 + e.2.1
    if (Tbl.find s.buf.alloc k).isSome then s
    else
      let used := s.buf.alloc.flatMap fun x => x.2
      let n := deskewPages s.inForce s e.1 e.2.2.1 e.2.2.2
      let ps := freePages used (s.cur F.BUF_DESKEW_SIZE_pages) (s.cur F.BUF_DESKEW_BASE_page) n
      modBuf (fun b => { b with alloc := Tbl.insert b.alloc k ps }) s
  let s := s.forEach (List.range 64) fun g s =>
    s.setF (F.MAP_GRP_PAGES_pages (g / 32) (g % 32))
      ((List.range 16).foldl (fun a m => a + ((Tbl.find s.buf.alloc (g * 16 + m)).map List.length).getD 0) 0)
  deskewUsed s

/-! ## The mapping set (R287 to R289) -/

/-- The register fields of a group entry. -/
def grpFields (g : Nat) : List Field :=
  let p := g / 32
  let q := g % 32
  [F.MAP_GRP_CTRL_valid p q, F.MAP_GRP_CTRL_kind p q, F.MAP_GRP_CTRL_auto_remove p q, F.MAP_GRP_CTRL_bundle_id p q,
    F.MAP_GRP_CTRL_dd_max p q, F.MAP_GRP_TARGET_target_set p q] ++
  (List.range 8).flatMap fun i => [F.MAP_GRP_MEM_valid0 p q i, F.MAP_GRP_MEM_engine0 p q i, F.MAP_GRP_MEM_cont0 p q i,
    F.MAP_GRP_MEM_valid1 p q i, F.MAP_GRP_MEM_engine1 p q i, F.MAP_GRP_MEM_cont1 p q i]

/-- The target set of a group. -/
def target (t : Tbl Nat) (g : Nat) : Nat := look t (F.MAP_GRP_TARGET_target_set (g / 32) (g % 32))
/-- R295: a group's source state: 0 STABLE, 1 PROPOSING, 2 ARMED. -/
def mspState (s : State) (g : Nat) : Nat := s.g (F.MAP_GRP_ST_msp_state (g / 32) (g % 32))
/-- R296: a group's sink state: 0 STABLE, 1 READY, 2 ARMED. -/
def sinkState (s : State) (g : Nat) : Nat := s.g (F.MAP_GRP_ST_sink_state (g / 32) (g % 32))

/-- R288: the reason a mapping set is rejected with. -/
def mapCheck (t : Tbl Nat) (s : State) : Nat :=
  let o := s.inForce
  let gs := (List.range 64).filter (grpValid t)
  let ms := members t
  let conf (g : Nat) : Nat := (List.range 16).foldl (fun a m => if (grpMember t g m).isSome then a + 2 ^ m else a) 0
  let pages := ms.foldl (fun a e =>
    a + (match Tbl.find s.buf.alloc (e.1 * 16 + e.2.1) with
      | some l => if grpMember o e.1 e.2.1 == some (e.2.2.1, e.2.2.2) && grpValid o e.1 then l.length
          else deskewPages t s e.1 e.2.2.1 e.2.2.2
      | none => deskewPages t s e.1 e.2.2.1 e.2.2.2)) 0
  firstFail [
    (0x01, gs.all fun g => look t (F.MAP_GRP_CTRL_bundle_id (g / 32) (g % 32)) != 0 &&
      (let d := look t (F.MAP_GRP_CTRL_dd_max (g / 32) (g % 32)); 1 ≤ d && d ≤ 1000)),
    (0xA3, ms.all fun e => contValid o e.2.2.1 e.2.2.2 &&
      look o (F.LE_GLF_ID_bundle_id e.2.2.1 (look o (F.LE_GLF_CONT_CFG_stream e.2.2.1 e.2.2.2))) ==
        look t (F.MAP_GRP_CTRL_bundle_id (e.1 / 32) (e.1 % 32))),
    (0xA3, noRepeat (ms.map fun e => e.2.2.1 * 64 + e.2.2.2)),
    (0xA3, gs.all fun g => !grpPair t g || conf g == 3),
    (0xA3, gs.all fun g =>
      let l := ms.filter fun e => e.1 == g
      let key (e : Nat × Nat × Nat × Nat) := (look o (F.LE_GLF_CONT_CFG_type e.2.2.1 e.2.2.2),
        look o (F.LE_GLF_CONT_CFG_cell_size e.2.2.1 e.2.2.2))
      !(l.any fun e => (key e).1 == 1) || (l.all fun e => l.all fun f => key e == key f)),
    (0xA4, decide (pages ≤ s.cur F.BUF_DESKEW_SIZE_pages)),
    (0xA5, (List.range 64).all fun g => (mspState s g == 0 && sinkState s g == 0) || !differ o t (grpFields g)),
    (0x03, gs.all fun g => grpPair t g || (target t g != 0 && target t g &&& conf g == target t g))]

/-! ## Member-state protocol (R294 to R297) -/

/-- R294: the body of a MEMBER_STATE message. -/
def mspBody (g dir msg active next fc seq reason : Nat) : List Byte :=
  let b : List Byte := [BitVec.ofNat 8 g, BitVec.ofNat 8 (dir * 128 + msg)] ++ toLe 2 active ++ toLe 2 next ++ toLe 4 fc ++
    [BitVec.ofNat 8 seq, BitVec.ofNat 8 reason]
  b ++ toLe 4 (crc32c b)

/-- R294: a message is sent on every stream that carries a configured member. -/
def mspSend (g dir msg active next fc reason : Nat) (s : State) : State :=
  let b := mspBody g dir msg active next fc (grpSt s g).seq reason
  let qs := (members s.inForce).filterMap fun e =>
    if e.1 = g then some (e.2.2.1 * 32 + look s.inForce (F.LE_GLF_CONT_CFG_stream e.2.2.1 e.2.2.2)) else none
  let s := s.forEach (dedup qs) fun q s => ohPut (q / 32) (q % 32) 2 0x04 b s
  modGrp g (fun x => { x with seq := (x.seq + 1) % 256 }) s

/-- R295: the source's message of its state. -/
def mspSource (g : Nat) (s : State) : State :=
  let x := grpSt s g
  match mspState s g with
  | 1 => mspSend g 0 1 x.src x.srcNext 0 0 s
  | 2 => mspSend g 0 2 x.src x.srcNext x.srcFc 0 s
  | _ => mspSend g 0 0 x.src x.src x.lastFc 0 s

/-- R287: the source's or sink's active set changes and is reported. -/
def setActive (g : Nat) (sink : Bool) (v : Nat) (s : State) : State :=
  (modGrp g (fun x => if sink then { x with sink := v } else { x with src := v }) s).setF
    (F.MAP_GRP_ST_active_set (g / 32) (g % 32)) v

/-- R295: the source goes to a state. -/
def mspGo (g v : Nat) (s : State) : State := s.setF (F.MAP_GRP_ST_msp_state (g / 32) (g % 32)) v
/-- R296: the sink goes to a state. -/
def sinkGo (g v : Nat) (s : State) : State := s.setF (F.MAP_GRP_ST_sink_state (g / 32) (g % 32)) v

/-- R295: the source proposes a set. -/
def propose (g set' : Nat) (s : State) : State :=
  mspSource g (mspGo g 1 (modGrp g (fun x => { x with srcNext := set', propAt := s.now }) s))

/-- R289, R295: the mapping set in force takes effect, `old` the set before. -/
def mapApply (old : Tbl Nat) (s : State) : State :=
  let s := s.forEach (List.range 64) fun g s =>
    let was := grpValid old g
    let is := grpValid s.inForce g
    if is && !was then
      let v := if grpPair s.inForce g then 3 else target s.inForce g
      setActive g false v (setActive g true v (modGrp g (fun _ => {}) s))
    else if was && !is then
      let s := mspGo g 0 (sinkGo g 0 (modGrp g (fun _ => {}) s))
      (s.setF (F.MAP_GRP_ST_active_set (g / 32) (g % 32)) 0).setF (F.MAP_GRP_ST_sel (g / 32) (g % 32)) 0
    else if is && !grpPair s.inForce g && mspState s g == 0 && target s.inForce g != (grpSt s g).src then
      propose g (target s.inForce g) s
    else s
  deskewAlloc s

/-- R294: a received MEMBER_STATE body for a valid CONCAT group: whole, its CRC right, its direction and message as given. -/
def mspGroup (s : State) (dir msg : Nat) (b : List Byte) : Option Nat :=
  let g := byteAt b 0
  if b.length = 16 ∧ leNat b 12 4 = crc32c (b.take 12) ∧ g < 64 ∧ grpValid s.inForce g ∧ ¬ grpPair s.inForce g ∧
      byteAt b 1 / 128 = dir ∧ byteAt b 1 % 8 = msg then some g else none

/-- The engine of a group's lowest configured member. -/
def grpEngine (s : State) (g : Nat) : Nat := (((List.range 16).findSome? (grpMember s.inForce g)).map (·.1)).getD 0

/-- PROPOSE. R296; `fits`: every member of the proposed set arrives within dd_max. -/
def execPropose (body : List Byte) (fits : Bool) (s : State) : Host.Outcome State Fault Refusal :=
  match mspGroup s 0 1 body with
  | none => .next s
  | some g =>
    let next := leNat body 4 2
    let ms := (List.range 16).filter fun m => next.testBit m
    let r := if sinkState s g ≠ 0 then 4 else firstFail [
      (1, ms.all fun m => (grpMember s.inForce g m).isSome),
      (2, ms.all fun m => match grpMember s.inForce g m with
        | some (e, c) => Tbl.get 0 (s.eng e).glf.frame (s.cur (F.LE_GLF_CONT_CFG_stream e c)) == 2
        | none => false),
      (3, fits)]
    if sinkState s g ≠ 0 ∧ (grpSt s g).sinkNext = next then .next s
    else if r ≠ 0 then .next (mspSend g 1 4 (grpSt s g).sink next 0 r s)
    else
      let s := sinkGo g 1 (modGrp g (fun x => { x with sinkNext := next, readyAt := s.now }) s)
      .next (mspSend g 1 3 (grpSt s g).sink next 0 0 s)

/-- ACCEPT. R295. -/
def execAccept (body : List Byte) (s : State) : Host.Outcome State Fault Refusal :=
  match mspGroup s 1 3 body with
  | none => .next s
  | some g =>
    let x := grpSt s g
    if mspState s g ≠ 1 ∨ leNat body 4 2 ≠ x.srcNext then .next s
    else
      let le := grpEngine s g
      let p := streamPeriod s le false
      let rtt := s.now - x.propAt
      let frames := if p.1 = 0 then 0 else (rtt * p.2 + p.1 - 1) / p.1
      let fc := (s.g (F.LE_GLF_TX_FC_fc le) + s.g F.MAP_MSP_CTRL_msp_lead + frames) % 2 ^ 32
      .next (mspSource g (mspGo g 2 (modGrp g (fun x => { x with srcFc := fc }) s)))

/-- R299: MAP_MSP_STAT names a group and a reason. -/
def mspReason (g r : Nat) (s : State) : State := (s.setF F.MAP_MSP_STAT_group g).setF F.MAP_MSP_STAT_reason r

/-- REJECT. R295. -/
def execReject (body : List Byte) (s : State) : Host.Outcome State Fault Refusal :=
  match mspGroup s 1 4 body with
  | none => .next s
  | some g =>
    if mspState s g = 1 then .next (State.evt 0xAA 3 (mspReason g (byteAt body 11) (mspGo g 0 s))) else .next s

/-- MSP_PROPOSE_TIMEOUT. R295: 100 ms since the first PROPOSE; the spec gives its reason no code. -/
def execMspProposeTimeout (g : Fin 64) (s : State) : Host.Outcome State Fault Refusal :=
  let g := g.val
  if mspState s g = 1 then
    let s := s.reach ((grpSt s g).propAt + 100000000)
    let (r, s) := s.draw 8
    .next (State.evt 0xAA 4 (mspReason g r (mspGo g 0 s)))
  else .next s

/-- R297: the sink takes the source's set. -/
def mspResync (g set' : Nat) (s : State) : State :=
  let s := setActive g true set' (sinkGo g 0 (modGrp g (fun x => { x with differ := 0 }) s))
  State.evt 0xAA 5 (s.bump (F.LE_GLF_CNT_count (grpEngine s g) 11) 1)

/-- ARM. R296, R297. -/
def execArm (body : List Byte) (s : State) : Host.Outcome State Fault Refusal :=
  match mspGroup s 0 2 body with
  | none => .next s
  | some g =>
    let fc := leNat body 6 4
    let next := leNat body 4 2
    if sinkState s g ≠ 1 then .next s
    else match (grpSt s g).released with
      | some r =>
        if (r + 2 ^ 32 - fc) % 2 ^ 32 < 2 ^ 31 then .next (mspResync g next s)
        else .next (sinkGo g 2 (modGrp g (fun x => { x with sinkNext := next, sinkFc := fc }) s))
      | none => .next (sinkGo g 2 (modGrp g (fun x => { x with sinkNext := next, sinkFc := fc }) s))

/-- MSP_READY_TIMEOUT. R296: 100 ms in READY. -/
def execMspReadyTimeout (g : Fin 64) (s : State) : Host.Outcome State Fault Refusal :=
  let g := g.val
  if sinkState s g = 1 then .next (sinkGo g 0 (s.reach ((grpSt s g).readyAt + 100000000))) else .next s

/-- REQ_REMOVE. R295: the source proposes the active set without the member; target_set follows, in force and staged. -/
def execReqRemove (body : List Byte) (s : State) : Host.Outcome State Fault Refusal :=
  match mspGroup s 1 5 body with
  | none => .next s
  | some g =>
    let m := leNat body 4 2
    let act := (grpSt s g).src
    let f := F.MAP_GRP_TARGET_target_set (g / 32) (g % 32)
    if mspState s g = 0 ∧ s.curOn (F.MAP_GRP_CTRL_auto_remove (g / 32) (g % 32)) ∧ m < 16 ∧ act.testBit m then
      let v := act - 2 ^ m
      .next (propose g v ((s.force f v).stage f v))
    else .next s

/-- MSP_SWITCH. R295: the next transmit frame is switch_fc. -/
def execMspSwitch (g : Fin 64) (s : State) : Host.Outcome State Fault Refusal :=
  let g := g.val
  let x := grpSt s g
  let fc := (s.eng (grpEngine s g)).tx.fc.toNat
  if mspState s g = 2 ∧ (fc + 2 ^ 32 - x.srcFc) % 2 ^ 32 < 2 ^ 31 then
    let s := modGrp g (fun x => { x with lastFc := x.srcFc }) (setActive g false x.srcNext s)
    .next (State.evt 0xAA 2 (mspGo g 0 s))
  else .next s

/-- MSP_STATUS. R297: three in a row with another set than the sink's. -/
def execMspStatus (body : List Byte) (s : State) : Host.Outcome State Fault Refusal :=
  match mspGroup s 0 0 body with
  | none => .next s
  | some g =>
    let set' := leNat body 2 2
    let x := grpSt s g
    if sinkState s g ≠ 0 then .next s
    else if set' = x.sink then .next (modGrp g (fun x => { x with differ := 0 }) s)
    else if x.differ = 2 then .next (mspResync g set' s)
    else .next (modGrp g (fun x => { x with differ := x.differ + 1 }) s)

/-! ## Defects (R298, R299) -/

/-- The group and member key under which group defects are declared. -/
def scopeKey : DefScope → Nat × Nat
  | .engine le => (le.val, 0)
  | .stream le k => (le.val, k.val)
  | .group g => (0, g.val)
  | .member g m => (0, g.val * 16 + m.val)
  | .container le c => (le.val, c.val)
  | .leaf le i => (le.val, i.val)

/-- R298: defect `d` is declared on a scope. -/
def isDeclared (s : State) (d : Nat) (x : DefScope) : Bool := declared s (scopeKey x).1 d (scopeKey x).2

/-- R286, R298: what makes member `m` of a group lost, but for frames that do not arrive. -/
def memberRaw (s : State) (g m : Nat) : Bool :=
  match grpMember s.inForce g m with
  | none => false
  | some (le, c) =>
    let k := s.cur (F.LE_GLF_CONT_CFG_stream le c)
    let x := (s.eng le).glf
    s.on (F.LE_RX_STATE_los_raw le) || s.on (F.LE_RX_STATE_lol_raw le) || Tbl.get false x.oof k || Tbl.get false x.lom k ||
      Tbl.get false x.ais k || Tbl.get false x.idBad k || rxDefect s le k

/-- R35: defects are reported of engines that are RUNNING. -/
def scopeRuns (s : State) : DefScope → Bool
  | .engine le => s.runState le.val == 2
  | .stream le _ => s.runState le.val == 2
  | .container le _ => s.runState le.val == 2
  | .leaf le _ => s.runState le.val == 2
  | .member g m => match grpMember s.inForce g.val m.val with
    | some (e, _) => s.runState e == 2
    | none => false
  | .group g => s.runState (grpEngine s g.val) == 2

/-- R298: the raw condition of defect `d` on a scope. -/
def defRaw (s : State) (d : Nat) (x : DefScope) : Bool :=
  scopeRuns s x && match x with
  | .engine le =>
    let le := le.val
    if d = 0 then s.on (F.LE_RX_STATE_los_raw le) else if d = 1 then s.on (F.LE_RX_STATE_lol_raw le)
    else if d = 6 then s.on (F.LE_FEC_QENG_deg_raw le) else s.on (F.LE_FEC_QENG_exc_raw le)
  | .stream le k =>
    let g := (s.eng le.val).glf
    if d = 2 then Tbl.get false g.oof k.val else if d = 3 then Tbl.get false g.lom k.val
    else if d = 4 then Tbl.get false g.ais k.val else Tbl.get false g.bdi k.val
  | .group g => !(grpSt s g.val).excluded.isEmpty
  | .member g m => memberRaw s g.val m.val
  | .container le c =>
    match saOf s.inForce 1 le.val c.val with
    | some i => saState s i == 2 || s.on (F.CIP_SA_ST_void_rx i) || saShed s i
    | none => false
  | .leaf le i => leafSt s le.val i.val == 5

/-- R41, R280, R292, R293: the client data of the frame a container carries now is replaced: its JC word was uncorrectable, or of its
group a CBR client misses bytes of an active member, or of its pair neither copy was good. -/
def frameReplaced (s : State) (le c : Nat) : Bool :=
  let cbr := look s.inForce (F.LE_GLF_CONT_CFG_type le c) == 1
  match groupOf s.inForce le c with
  | none => cbr && (Tbl.get {} (s.eng le).glf.cont c).jcBad
  | some (g, _) =>
    if grpPair s.inForce g then s.g (F.MAP_GRP_ST_sel (g / 32) (g % 32)) == 2
    else cbr && ((grpSt s g).missing != 0 || (groupCn s g).isNone)

/-- R299: a receive container's client is under a consequent action. -/
def contReplaced (s : State) (le c : Nat) : Bool :=
  frameReplaced s le c || declared s le 10 c ||
  (look s.inForce (F.LE_GLF_CONT_CFG_kind le c) == 1 && s.role le == 2 &&
    declared s le 11 (look s.inForce (F.LE_GLF_CONT_AUX_leaf le c))) ||
  (match groupOf s.inForce le c with
   | none => rxDefect s le (look s.inForce (F.LE_GLF_CONT_CFG_stream le c))
   | some (g, _) =>
     let lost (m : Nat) : Bool := declared s 0 9 (g * 16 + m)
     if grpPair s.inForce g then lost 0 && lost 1
     else declared s 0 8 g || (look s.inForce (F.LE_GLF_CONT_CFG_type le c) == 1 &&
       (List.range 16).any fun m => (grpSt s g).sink.testBit m && lost m))

/-- R299: a port's client is replaced while every container that names the port is under a consequent action. -/
def replacePorts (s : State) : State :=
  let cs := (List.range 128).filter fun x => contValid s.inForce (x / 64) (x % 64)
  let rep := (List.range 32).foldl (fun t p =>
    let mine := cs.filter fun x => look s.inForce (F.LE_GLF_CONT_CFG_port (x / 64) (x % 64)) == p
    Tbl.set false t p (!mine.isEmpty && mine.all fun x => contReplaced s (x / 64) (x % 64))) []
  { s with lanes := { s.lanes with replaced := rep } }

/-- R41: what replaces a client. -/
inductive Fill where
  | allOnes | localFault
  deriving DecidableEq, Repr

/-- R41, R299: what a port's transmitter sends in place of its client, none while the client passes: all-ones of an OTN client,
local-fault ordered sets of an Ethernet client. -/
def portFill (s : State) (p : Nat) : Option Fill :=
  if Tbl.get false s.lanes.replaced p then some (if portFlexo s.inForce p then .allOnes else .localFault) else none

/-- R299: registers and events that follow the declared defects of an engine and of the groups. -/
def defReport (le : Nat) (s : State) : State :=
  let s := s.setF (F.LE_GLF_DEF_def le)
    ((List.range 8).foldl (fun a d => if declared s le d 0 then a + 2 ^ d else a) 0)
  let s := s.forEach (List.range 4) fun k s =>
    let v := (List.range 32).foldl (fun a q => if declared s le (k + 2) q then a + 2 ^ q else a) 0
    State.level (lep le 0x34) (k + 1) (v != 0) (s.setF (F.LE_GLF_VEC_bits le k) v)
  let lost := s.le0.glf.declared.any fun e => e.1 / 1024 == 9 && e.2
  replacePorts (State.level 0xAA 1 lost s)

/-- R298: a defect's declaration is set or cleared. -/
def setDeclared (d : Nat) (x : DefScope) (v : Bool) (s : State) : State :=
  let (le, k) := scopeKey x
  let s := s.modGlf le fun g => { g with declared := Tbl.set false g.declared (d * 1024 + k) v }
  defReport le s

/-- DEFECT_DECLARE. R298, R299; `noFrame`: for MEMBER_LOSS, no frame of the member arrives within dd_max. -/
def execDefectDeclare (d : Fin 12) (x : DefScope) (noFrame : Bool) (s : State) : Host.Outcome State Fault Refusal :=
  if !scopeOk d x then .fault .illFormed else
  let d := d.val
  if isDeclared s d x || !(defRaw s d x || (d == 9 && noFrame && scopeRuns s x)) then .next s
  else
    let s := setDeclared d x true s
    match d, x with
    | 9, .member g m =>
      let g := g.val
      if grpValid s.inForce g && !grpPair s.inForce g && sinkState s g == 0 && (grpSt s g).sink.testBit m.val then
        .next (mspSend g 1 5 (grpSt s g).sink m.val 0 0 s)
      else .next s
    | _, _ => .next s

/-- DEFECT_CLEAR. R298. -/
def execDefectClear (d : Fin 12) (x : DefScope) (s : State) : Host.Outcome State Fault Refusal :=
  if !scopeOk d x then .fault .illFormed
  else if isDeclared s d.val x && !defRaw s d.val x then .next (setDeclared d.val x false s) else .next s

/-- MSP_MSG_REPEAT. R294: the source's message, or the sink's: ACCEPT while READY, REQ_REMOVE while an active member is
lost. -/
def execMspMsgRepeat (g : Fin 64) (sink : Bool) (s : State) : Host.Outcome State Fault Refusal :=
  let g := g.val
  if !grpValid s.inForce g || grpPair s.inForce g then .next s
  else if !sink then .next (mspSource g s)
  else
    let x := grpSt s g
    if sinkState s g = 1 then .next (mspSend g 1 3 x.sink x.sinkNext 0 0 s)
    else if sinkState s g = 0 then
      match (List.range 16).find? fun m => x.sink.testBit m && declared s 0 9 (g * 16 + m) with
      | some m => .next (mspSend g 1 5 x.sink m 0 0 s)
      | none => .next s
    else .next s

/-- DESKEW_RELEASE. R291 to R293, R296: the group frame of count `fc`; `late` the members whose frame comes later than dd_max
after the earliest, `bad` those whose frame was bad, `dd` the mean arrival spread and `last` the member that arrives last. -/
def execDeskewRelease (g : Fin 64) (fc : BitVec 32) (late bad : List (Fin 16)) (dd : BitVec 20) (last : Fin 16)
    (s : State) : Host.Outcome State Fault Refusal :=
  let g := g.val
  if !grpValid s.inForce g then .next s
  else
    let p := g / 32
    let q := g % 32
    let x := grpSt s g
    let s := if sinkState s g = 2 ∧ (fc.toNat + 2 ^ 32 - x.sinkFc) % 2 ^ 32 < 2 ^ 31 then
        setActive g true x.sinkNext (sinkGo g 0 s)
      else s
    let act := (grpSt s g).sink
    let ex := (late.map Fin.val).filter fun m => act.testBit m
    let gone (m : Nat) : Bool := ex.contains m || (grpSt s g).memBad.testBit m || declared s 0 9 (g * 16 + m)
    let missing := (List.range 16).foldl (fun a m => if act.testBit m && gone m then a + 2 ^ m else a) 0
    let memBad := (grpSt s g).memBad
    let s := modGrp g (fun x => { x with excluded := ex, released := some fc.toNat, missing := missing, memBad := 0 }) s
    let s := (s.setF (F.MAP_GRP_DD_dd p q) dd.toNat).setF (F.MAP_GRP_DD_late_member p q) last.val
    let s := if grpPair s.inForce g then
        let good (m : Nat) : Bool := !ex.contains m && !(bad.any fun b => b.val == m) && !memBad.testBit m &&
          !declared s 0 9 (g * 16 + m)
        let sel := if good 0 then 0 else if good 1 then 1 else 2
        let was := s.g (F.MAP_GRP_ST_sel p q)
        let s := if sel ≤ 1 ∧ was ≤ 1 ∧ sel ≠ was then s.bump (F.MAP_GRP_SWITCHES_switches p q) 1 else s
        s.setF (F.MAP_GRP_ST_sel p q) sel
      else s
    .next (replacePorts (State.level 0xAA 0 ((List.range 64).any fun h => !(grpSt s h).excluded.isEmpty) s))

/-- R295: a soft reset of the mapping domain cancels what is proposed or armed, with reason CANCELLED. -/
def mspCancel (s : State) : State :=
  s.forEach (List.range 64) fun g s =>
    if mspState s g = 0 ∧ sinkState s g = 0 then s else mspReason g 0x0E (mspGo g 0 (sinkGo g 0 s))

end Sys2Proof.Machine
end

