-- ==== Sys2Proof/Machine/Ubholt.lean ====
section
/-! DEFINITION. The Ubholt link to an optical engine (14_optical_engine_and_ubholt.md): frames, commands and responses,
authentication and session, transmit enable, alerts, life data; with them the stop of an engine that a changed optical
engine causes. -/
namespace Sys2Proof.Machine

/-! ## An engine leaves RUNNING (R35, R60, R156, R220) -/

/-- R58, R156: a pending or armed set of commit domain `d` is dropped with CANCELLED. -/
def commitCancel (d : Nat) (s : State) : State :=
  if s.on (F.PAGE_STAT_commit_pending d) || s.on (F.PAGE_STAT_commit_armed d) then
    let s := (s.setB (F.PAGE_STAT_commit_pending d) false).setB (F.PAGE_STAT_commit_armed d) false
    let s := (s.setB (F.PAGE_STAT_commit_err d) true).setF (F.PAGE_STAT_commit_reason d) 0x0E
    State.evt (Tbl.get d s.fab.commitPage d) 30 s
  else s

/-- R35, R156, R170: an engine goes to STOPPING: the transmitter goes dark, a pending timed change is cancelled, a reload is
abandoned, reception is IDLE, a leaf is IDLE. -/
def engineStopping (le : Nat) (s : State) : State :=
  if s.runState le = 1 ∨ s.runState le = 2 then
    let s := leafIdle le (rxGo le 0 (s.setF (F.LE_ROLE_STAT_run_state le) 3))
    let s := s.setB (F.LE_TX_PLAN_STAT_reload_busy le) false
    let s := if s.on (F.LE_TX_PLAN_STAT_timed_pending le) then
        commitCancel (lep le 0x10) (s.setB (F.LE_TX_PLAN_STAT_timed_pending le) false)
      else s
    txReport le (txEval le s)
  else s

/-! ## Frames (R432, R434, R438) -/

/-- What engine `le`'s link keeps. -/
def ubh (s : State) (le : Nat) : Ubh := (s.eng le).ubh
/-- Changes what engine `le`'s link keeps. -/
def modUbh (le : Nat) (f : Ubh → Ubh) (s : State) : State := s.modEng le fun e => { e with ubh := f e.ubh }
/-- R439: link state: 0 DOWN, 1 IDENT, 2 SESSION, 3 OPEN, 4 HOLD. -/
def linkOf (s : State) (le : Nat) : Nat := s.g (F.UBH_STAT_link le)
/-- A counter of page 0xD8: 0 CRC_ERR, 1 TIMEOUT, 2 RESEND, 3 TAG_FAIL, 4 LINK_LOST_CNT, 5 BREAK_CNT. -/
def ubhCount (le c : Nat) (s : State) : State := s.bump (F.UBH_CNT_count le c) 1

/-- R434: the commands sent authenticated while a session exists. -/
def authCode (code : Nat) : Bool := 5 ≤ code && code ≤ 10

/-- R438: the tag of frame bytes 1 to 7 + L under a direction's key and salt. -/
def ubhTag (k : List Byte) (ctr : Nat) (aad : List Byte) : List Byte :=
  (Config.gcm (k.take 32) (k.drop 32 ++ [0, 0, 0, 0] ++ toBe 4 ctr) aad []).2

/-- R432: the bytes of a frame from SOF to CRC. -/
def ubhFrame (type seq : Nat) (ctr : Option Nat) (payload : List Byte) (key : List Byte) : List Byte :=
  let body : List Byte := [BitVec.ofNat 8 type, BitVec.ofNat 8 seq, BitVec.ofNat 8 payload.length] ++
    (match ctr with | some c => toLe 4 c | none => []) ++ payload
  let body := match ctr with | some c => body ++ ubhTag key c body | none => body
  0x5A :: (body ++ toLe 4 (crc32c body))

/-- R432, R433, R438: a new command frame; `false` for the slot of a TX_DISABLE beside another command. -/
def ubhCmd (le code : Nat) (payload : List Byte) (s : State) : UbhCmd × State :=
  let u := ubh s le
  let seq := u.seq
  match u.session, authCode code with
  | some (de, _), true =>
    let ctr := u.ctrTx + 1
    ({ code := code, auth := true, seq := seq, ctr := ctr, payload := payload,
       frame := ubhFrame (64 + code) seq (some ctr) payload de, tries := 0, sentAt := s.now },
     modUbh le (fun u => { u with seq := (seq + 1) % 256, ctrTx := ctr }) s)
  | _, _ =>
    ({ code := code, auth := false, seq := seq, ctr := 0, payload := payload,
       frame := ubhFrame code seq none payload [], tries := 0, sentAt := s.now },
     modUbh le (fun u => { u with seq := (seq + 1) % 256 }) s)

/-- R432, R442: a frame carries the type and the sequence number of a command's response. -/
def answers (c : UbhCmd) (r : List Byte) : Bool := byteAt r 1 == 128 + c.auth.toNat * 64 + c.code && byteAt r 2 == c.seq

/-- R432, R433, R438: the payload of a response frame to a command: its CRC, type, sequence, counter and tag right; what is
wrong is counted. -/
def ubhTake (le : Nat) (c : UbhCmd) (r : List Byte) (s : State) : Option (List Byte) × State :=
  let n := r.length
  if r.isEmpty then (none, s)
  else if n < 8 || byteAt r 0 != 0x5A || leNat r (n - 4) 4 != crc32c ((r.drop 1).take (n - 5)) then (none, ubhCount le 0 s)
  else
    let len := byteAt r 3
    if !answers c r || 232 < len then (none, s)
    else if c.auth then
      match (ubh s le).session with
      | none => (none, s)
      | some (_, ed) =>
        let ctr := leNat r 4 4
        let last := (ubh s le).ctrRx
        let tag := (r.drop (8 + len)).take 16
        if n = 28 + len ∧ (ctr = last + 1 ∨ (ctr = last ∧ c.tries ≠ 0)) ∧ ubhTag ed ctr ((r.drop 1).take (7 + len)) = tag then
          (some ((r.drop 8).take len), modUbh le (fun u => { u with ctrRx := ctr }) s)
        else (none, ubhCount le 3 s)
    else if n = 8 + len then (some ((r.drop 4).take len), s) else (none, s)

/-! ## Link states and transmit enable (R439, R441, R443, R450) -/

/-- The identity prefix in force (R437), byte 0 in bits 7:0. -/
def ubhId (s : State) (le : Nat) : Nat := s.g (F.UBH_ID_LO_id le) + 2 ^ 32 * s.g (F.UBH_ID_HI_id le)

/-- R443: an override is in force. -/
def overrideOn (s : State) (le : Nat) : Bool :=
  match Tbl.find s.enc.overrides le with
  | some (p, _) => p == 0 || p == ubhId s le
  | none => false

/-- R447: UBH_STAT shows whether an override is in force. -/
def ovReport (le : Nat) (s : State) : State := s.setB (F.UBH_STAT_override le) (overrideOn s le)

/-- R441: the conditions under which the transmitter may be enabled. -/
def txAllowed (s : State) (le : Nat) : Bool :=
  (s.runState le == 2 || (s.runState le == 1 && 3 ≤ s.g (F.LE_ROLE_STAT_start_step le))) &&
  (linkOf s le == 2 || (linkOf s le == 3 && overrideOn s le)) && s.on (F.UBH_CTRL_tx_allow le) &&
  !(s.mode == 7 && !s.dev.keepClear) && !(s.role le == 3 && (s.eng le).p2mp.selfOff) && !(ubh s le).fault

/-- R441, R447: the transmitter is enabled or disabled; TX_STATE tells of a change. -/
def setTx (le : Nat) (b : Bool) (s : State) : State :=
  if s.on (F.UBH_STAT_tx_enabled le) = b then s
  else State.evt (0xD8 + le) 3 (txEval le (s.setB (F.UBH_STAT_tx_enabled le) b))

/-- R437 to R439: the link takes a state in which there is no session. -/
def linkClear (le link : Nat) (s : State) : State :=
  let was := linkOf s le
  let lost := if (was = 2 ∨ was = 3) ∧ s.runState le = 2 then some (ubhId s le) else (ubh s le).lostId
  let owed := s.on (F.UBH_STAT_tx_enabled le)
  let s := modUbh le (fun u => { u with
    out := none, txd := none, queue := [], session := none, ctrTx := 0, ctrRx := 0, chain := [], noCert := false, nonce := [],
    priv := [], fault := false, mirrored := false, alertDue := false, owed := u.owed || owed, lostId := lost,
    issued := u.issued.filter fun e => e.1 == 1 }) s
  let s := (s.setF (F.UBH_STAT_link le) link).setF (F.UBH_STAT_auth le) 0
  setTx le false (s.setB (F.UBH_STAT_tx_ready le) false)

/-- R447: a passthrough under way ends with a status. -/
def ptEnd (le st : Nat) (s : State) : State :=
  if s.on (F.UBH_PT_STAT_busy le) then (s.setB (F.UBH_PT_STAT_busy le) false).setF (F.UBH_PT_STAT_status le) st else s

/-- R439: the link is lost. -/
def linkLost (le : Nat) (s : State) : State :=
  if linkOf s le = 0 ∨ linkOf s le = 4 then s
  else State.evt (0xD8 + le) 1 (ubhCount le 4 (linkClear le 0 (ptEnd le 0xF1 s)))

/-- R431, R439: BREAK is driven and the link takes a state. -/
def ubhBreak (le link : Nat) (s : State) : State :=
  let s := if (ubh s le).brk then s else ubhCount le 5 s
  modUbh le (fun u => { u with brk := true, owed := false, issued := [] }) (linkClear le link (ptEnd le 0xF1 s))

/-- R439: UBH_CK runs. -/
def ubhRun (le : Nat) (s : State) : State := modUbh le (fun u => { u with brk := false }) s

/-- R437, R450: the identity prefix of a link that has come up; another than before in RUNNING stops the engine. -/
def setIdentity (le : Nat) (id : List Byte) (s : State) : State :=
  let s := (s.setF (F.UBH_ID_LO_id le) (leNat id 0 4)).setF (F.UBH_ID_HI_id le) (leNat id 4 4)
  let lost := (ubh s le).lostId
  let s := ovReport le (modUbh le (fun u => { u with lostId := none }) s)
  match lost with
  | some p => if s.runState le = 2 ∧ p ≠ ubhId s le then engineStopping le (State.err (lep le 0x10) 0 0x8A s) else s
  | none => s

/-- The declaration block stored (R436). -/
def declBlock (s : State) (le : Nat) : List Byte := (List.range 12).flatMap fun w => toLe 4 (s.g (F.UBH_DECL_bytes le w))

/-- R437, R439: authentication ends with 1 OK, 2 NONE or 3 FAIL. -/
def authEnd (le result : Nat) (s : State) : State :=
  let u := ubh s le
  let id := match u.noCert, Config.certKey u.chain with
    | false, some k => if u.chain.isEmpty then (declBlock s le).drop 16 |>.take 8 else (Config.sha384 k).take 8
    | _, _ => (declBlock s le).drop 16 |>.take 8
  let s := modUbh le (fun u => { u with priv := [] }) ((s.setF (F.UBH_STAT_auth le) result).setF (F.UBH_STAT_link le) (if result = 1 then 2 else 3))
  let s := setIdentity le id s
  if result = 1 then s else State.evt (0xD8 + le) 2 s

/-! ## Responses -/

/-- R439: HELLO's response. -/
def onHello (le : Nat) (p : List Byte) (s : State) : State :=
  let d := p.drop 1
  if p.length ≠ 49 ∨ byteAt p 0 ≠ 0 then s
  else if linkOf s le = 0 then
    let s := s.forEach (List.range 12) fun w s => s.setF (F.UBH_DECL_bytes le w) (leNat d (4 * w) 4)
    let s := State.evt (0xD8 + le) 0 ((s.setF (F.UBH_STAT_link le) 1).setB (F.UBH_STAT_present le) true)
    if byteAt d 1 % 2 = 0 then authEnd le 2 s else s
  else if declBlock s le = d then s
  else linkLost le s

/-- R437: CERT_READ's response: the next bytes of the chain, or none to be had. -/
def onCert (le : Nat) (p : List Byte) (s : State) : State :=
  if linkOf s le ≠ 1 then s
  else if byteAt p 0 = 1 then authEnd le 2 (modUbh le (fun u => { u with noCert := true, chain := [] }) s)
  else if byteAt p 0 = 0 then modUbh le (fun u => { u with chain := (u.chain ++ p.drop 1).take 2048 }) s
  else s

/-- The 16 upper-case hexadecimal digits of a serial number, most significant first. -/
def hexDigits (n : Nat) : List Byte :=
  ((List.range 16).map fun i =>
    let d := n / 16 ^ (15 - i) % 16
    BitVec.ofNat 8 (if d < 10 then 48 + d else 55 + d))

/-- R437, R438: AUTH's response: the signature, then the session keys. -/
def onAuth (le : Nat) (p : List Byte) (s : State) : State :=
  let u := ubh s le
  let qe := (p.drop 1).take 97
  let serial := ((declBlock s le).drop 16).take 8
  if linkOf s le ≠ 1 then s
  else match Config.chainKey u.chain with
    | none => authEnd le 3 s
    | some k =>
      if byteAt p 0 = 0 ∧ p.length = 194 ∧
          Config.ecdsaVerify k (u.nonce ++ Config.p384Public u.priv ++ qe ++ serial) (p.drop 98) then
        let info : List Byte := [0x53, 0x58, 0x34, 0x38, 0x30, 0x30, 0x20, 0x55, 0x42, 0x48]
        let okm := Config.hkdf (Config.ecdh u.priv qe) u.nonce (info ++ serial) 72
        let keys := (okm.take 36, (okm.drop 36).take 36)
        authEnd le 1 (modUbh le (fun u => { u with session := some keys, ctrTx := 0, ctrRx := 0 }) s)
      else authEnd le 3 s

/-- R444: the optical engine's indication of lost light. -/
def setRxLos (le : Nat) (b : Bool) (s : State) : State :=
  losEval le ((s.setB (F.UBH_STAT_rx_los le) b).modRx le fun r => { r with optLos := b })

/-- R434, R441: STATUS's response. -/
def onStatus (le : Nat) (p : List Byte) (s : State) : State :=
  if byteAt p 0 ≠ 0 ∨ p.length ≠ 5 then s
  else
    let w := leNat p 1 4
    let s := (s.setB (F.UBH_STAT_tx_ready le) (w.testBit 0)).setF (F.UBH_STAT_case_temp le) (w / 256 % 256)
    setRxLos le (w.testBit 2) (modUbh le (fun u => { u with fault := w.testBit 3 }) s)

/-- R444: ALERT_READ's response. -/
def onAlert (le : Nat) (p : List Byte) (s : State) : State :=
  if byteAt p 0 ≠ 0 ∨ p.length ≠ 5 then s
  else
    let w := leNat p 1 4
    let s := modUbh le (fun u => { u with alertDue := false, fault := u.fault || w.testBit 1 || w.testBit 3 }) s
    let s := State.evt (0xD8 + le) 4 (s.setF (F.UBH_STAT_alerts le) w)
    if w.testBit 0 then setRxLos le true s else s

/-- R446: drift, the hours left and ENGINE_EOL, from the mirrored record. -/
def eolUpdate (le : Nat) (p : List Byte) (s : State) : State :=
  let bol := leNat p 4 2
  let now := leNat p 6 2
  let ref := leNat p 14 2
  let bl := byteAt (declBlock s le) 8
  let l0 := s.g (F.UBH_EOL_CTRL_eol_limit le)
  let l := if bl ≠ 0 ∧ bl < l0 then bl else l0
  let up := now - bol
  let raw := bol != 0 && decide (l * s.g (F.UBH_EOL_CTRL_eol_warn le) * bol ≤ 10000 * up) && decide (bol ≤ now)
  let drift := if bol = 0 then 0 else min 1000 (roundDiv (1000 * up) bol)
  let hours :=
    if bol ≠ 0 ∧ l * bol ≤ 100 * up then 0
    else if bol ≠ 0 ∧ ref ≠ 0 ∧ ref < now then
      min 65534 ((((l * bol : Nat) : Int) + 100 * bol - 100 * now).toNat * 1000 / (100 * (now - ref)))
    else 0xFFFF
  let s := (s.setF (F.UBH_EOL_STAT_drift le) drift).setF (F.UBH_EOL_STAT_hours_to_limit le) hours
  State.level (0xD8 + le) 6 raw (s.setB (F.UBH_EOL_STAT_eol le) raw)

/-- R445, R446: LIFE_READ's response. -/
def onLife (le : Nat) (p : List Byte) (s : State) : State :=
  if byteAt p 0 ≠ 0 ∨ p.length ≠ 33 then s
  else
    let r := p.drop 1
    let (m, q) := (leNat r 0 4, leNat r 16 4)
    let back := match Tbl.find (ubh s le).life (ubhId s le) with
      | some (m0, q0) => decide (m < m0) || decide (q < q0)
      | none => false
    let s := s.forEach (List.range 8) fun w s => s.setF (F.UBH_LIFE_bytes le w) (leNat r (4 * w) 4)
    let s := modUbh le (fun u => { u with life := Tbl.insert u.life (ubhId s le) (m, q), mirrored := true }) s
    eolUpdate le r (if back then State.evt (0xD8 + le) 7 s else s)

/-- R447: the response to a passthrough. -/
def onMem (le code : Nat) (p : List Byte) (s : State) : State :=
  if !s.on (F.UBH_PT_STAT_busy le) then s
  else
    let s := if code = 9 ∧ byteAt p 0 = 0 then
        s.forEach (List.range ((p.length + 2) / 4)) fun w s =>
          if w < 50 then s.setF (F.UBH_PT_DATA_bytes le w) (leNat p (1 + 4 * w) 4) else s
      else s
    ptEnd le (byteAt p 0) s

/-- What a command's response does. -/
def onResponse (le code : Nat) (p : List Byte) (s : State) : State :=
  match code with
  | 1 => onHello le p s
  | 2 => onCert le p s
  | 3 => onAuth le p s
  | 5 => if byteAt p 0 = 0 then setTx le true s else s
  | 6 => onStatus le p s
  | 7 => onAlert le p s
  | 8 => onLife le p s
  | 9 => onMem le 9 p s
  | 10 => onMem le 10 p s
  | _ => s

/-! ## One command outstanding (R433, R442) -/

/-- R442: the next queued command leaves, when neither a command nor a TX_DISABLE waits for its response. -/
def ubhNext (le : Nat) (s : State) : State :=
  match (ubh s le).out, (ubh s le).txd, (ubh s le).queue with
  | none, none, (code, p) :: t =>
    let (c, s) := ubhCmd le code p s
    modUbh le (fun u => { u with out := some c, queue := t }) s
  | _, _, _ => s

/-- R433: a frame comes back for the command outstanding: a valid response completes it. -/
def ubhDeliver (le : Nat) (r : List Byte) (s : State) : State :=
  match (ubh s le).out with
  | none => s
  | some c =>
    match ubhTake le c r s with
    | (some p, s) => ubhNext le (onResponse le c.code p (modUbh le (fun u => { u with out := none }) s))
    | (none, s) => s

/-- R442: a frame comes back while TX_DISABLE `c` waits for its response: the earlier command's response is accepted meanwhile;
with its own response TX_DISABLE has completed, and an earlier command still unanswered is resent unchanged. -/
def txdDeliver (le : Nat) (c : UbhCmd) (r : List Byte) (s : State) : State :=
  if (ubh s le).out.any fun d => answers d r then ubhDeliver le r s
  else match ubhTake le c r s with
    | (some _, s) =>
      let s := modUbh le (fun u => { u with txd := none, out := u.out.map fun d => { d with sentAt := s.now } }) s
      if (ubh s le).out.isSome then ubhCount le 2 s else ubhNext le s
    | (none, s) => s

/-- R433, R438, R442: a command is sent and `r` comes back; it is queued while another is outstanding. A session whose counter
is used up ends with its link. -/
def ubhExchange (le code : Nat) (p r : List Byte) (s : State) : State :=
  let u := ubh s le
  if u.brk then s
  else if authCode code && u.session.isSome && 2 ^ 32 - 1 ≤ u.ctrTx then linkLost le s
  else match u.out with
    | some c =>
      if c.code = code ∧ c.tries = 0 then ubhDeliver le r s
      else modUbh le (fun u => { u with queue := u.queue ++ [(code, p)] }) s
    | none =>
      if u.txd.isSome then modUbh le (fun u => { u with queue := u.queue ++ [(code, p)] }) s
      else
        let (c, s) := ubhCmd le code p s
        ubhDeliver le r (modUbh le (fun u => { u with out := some c }) s)

/-- R439, R441, R445: a command that is issued every `period` ns; the response to one under way comes without a new one. -/
def ubhPoll (le code period : Nat) (r : List Byte) (s : State) : State :=
  let u := ubh s le
  if u.brk || (u.out.any fun c => c.code == code && c.tries == 0) then ubhExchange le code [] r s
  else
    let s := match Tbl.find u.issued code with | some t => s.reach (t + period) | none => s
    ubhExchange le code [] r (modUbh le (fun u => { u with issued := Tbl.insert u.issued code s.now }) s)

/-- HELLO. R439: every 10 ms in DOWN, every second once the optical engine has answered. -/
def execHello (le : Fin 2) (r : List Byte) (s : State) : Host.Outcome State Fault Refusal :=
  .next (ubhPoll le.val 1 (if linkOf s le.val = 0 then 10000000 else 1000000000) r s)

/-- CERT_READ. R437: the next 200 bytes of the chain, while the link is in IDENT. -/
def execCertRead (le : Fin 2) (r : List Byte) (s : State) : Host.Outcome State Fault Refusal :=
  let le := le.val
  if linkOf s le = 1 then .next (ubhExchange le 2 (toLe 2 (ubh s le).chain.length ++ [200]) r s) else .next s

/-- AUTH. R437: chain and serial number first; then a nonce and an ephemeral point of the enclave. -/
def execAuth (le : Fin 2) (r : List Byte) (s : State) : Host.Outcome State Fault Refusal :=
  let le := le.val
  if linkOf s le ≠ 1 then .next s
  else
    let u := ubh s le
    let serial := leNat (declBlock s le) 16 8
    if (Config.chainKey u.chain).isNone || Config.chainSerial u.chain != hexDigits serial then .next (authEnd le 3 s)
    else
      let (nonce, s) := drawBytes 4 s
      let (priv, s) := drawBytes 6 s
      let s := if u.out.isNone then modUbh le (fun u => { u with nonce := nonce, priv := priv }) s else s
      .next (ubhExchange le 3 (nonce ++ Config.p384Public priv) r s)

/-- TX_DISABLE. R441, R442: ahead of every queued command, and a queued TX_ENABLE is cancelled. -/
def execTxDisable (le : Fin 2) (r : List Byte) (s : State) : Host.Outcome State Fault Refusal :=
  let le := le.val
  let u := ubh s le
  let due := s.on (F.UBH_STAT_tx_enabled le) || u.owed || (u.queue.any fun c => c.1 == 5) || (u.out.any fun c => c.code == 5)
  if u.brk || u.txd.isSome || txAllowed s le || !due then .next s
  else
    let (c, s) := ubhCmd le 4 [] s
    let s := modUbh le (fun u => { u with txd := some c, owed := false, queue := u.queue.filter fun c => c.1 != 5 }) s
    .next (txdDeliver le c r (setTx le false s))

/-- TX_ENABLE. R441. -/
def execTxEnable (le : Fin 2) (r : List Byte) (s : State) : Host.Outcome State Fault Refusal :=
  let le := le.val
  if txAllowed s le && !s.on (F.UBH_STAT_tx_enabled le) then .next (ubhExchange le 5 [] r s) else .next s

/-- STATUS. R441: every 10 ms. -/
def execStatus (le : Fin 2) (r : List Byte) (s : State) : Host.Outcome State Fault Refusal :=
  let le := le.val
  if linkOf s le = 2 ∨ linkOf s le = 3 then .next (ubhPoll le 6 10000000 r s) else .next s

/-- ALERT_READ. R444: after UBH_ALERT_N has fallen. -/
def execAlertRead (le : Fin 2) (r : List Byte) (s : State) : Host.Outcome State Fault Refusal :=
  let le := le.val
  if (linkOf s le = 2 ∨ linkOf s le = 3) ∧ (ubh s le).alertDue then .next (ubhExchange le 7 [] r s) else .next s

/-- LIFE_READ. R445: at link-up and every 60 s. -/
def execLifeRead (le : Fin 2) (r : List Byte) (s : State) : Host.Outcome State Fault Refusal :=
  let le := le.val
  if linkOf s le = 2 ∨ linkOf s le = 3 then .next (ubhPoll le 8 60000000000 r s) else .next s

/-- MEM_READ. R434: for firmware, or the passthrough outstanding. -/
def execMemRead (le : Fin 2) (addr : BitVec 16) (len : Byte) (r : List Byte) (s : State) : Host.Outcome State Fault Refusal :=
  let le := le.val
  if linkOf s le = 2 ∨ linkOf s le = 3 then .next (ubhExchange le 9 (toLe 2 addr.toNat ++ [len]) r s) else .next s

/-- MEM_WRITE. R434, R442: for firmware, or the passthrough outstanding. -/
def execMemWrite (le : Fin 2) (addr : BitVec 16) (data r : List Byte) (s : State) : Host.Outcome State Fault Refusal :=
  let le := le.val
  if linkOf s le = 2 ∨ linkOf s le = 3 then .next (ubhExchange le 10 (toLe 2 addr.toNat ++ data.take 200) r s) else .next s

/-- UBH_RESEND. R433: 100 µs without a valid response: the same bytes again, `r` coming back, and after three the link is
lost. -/
def execUbhResend (le : Fin 2) (r : List Byte) (s : State) : Host.Outcome State Fault Refusal :=
  let le := le.val
  let u := ubh s le
  match u.txd, u.out with
  | some c, _ =>
    let s := ubhCount le 1 (s.reach (c.sentAt + 100000))
    if c.tries < 3 then
      let c := { c with tries := c.tries + 1, sentAt := s.now }
      .next (txdDeliver le c r (modUbh le (fun u => { u with txd := some c }) (ubhCount le 2 s)))
    else if linkOf s le = 0 then .next (ubhNext le (modUbh le (fun u => { u with txd := none, out := none }) s))
    else .next (linkLost le s)
  | none, some c =>
    let s := ubhCount le 1 (s.reach (c.sentAt + 100000))
    if c.tries < 3 then
      let c := { c with tries := c.tries + 1, sentAt := s.now }
      .next (ubhDeliver le r (modUbh le (fun u => { u with out := some c }) (ubhCount le 2 s)))
    else if linkOf s le = 0 then .next (ubhNext le (modUbh le (fun u => { u with out := none }) s))
    else .next (linkLost le s)
  | none, none => .next s

/-- UBH_ABSENT. R431, R439. -/
def execUbhAbsent (le : Fin 2) (s : State) : Host.Outcome State Fault Refusal :=
  let le := le.val
  if (ubh s le).brk then .next s else .next (linkLost le (s.setB (F.UBH_STAT_present le) false))

/-- UBH_ALERT_FALL. R444. -/
def execUbhAlertFall (le : Fin 2) (s : State) : Host.Outcome State Fault Refusal :=
  .next (modUbh le.val (fun u => { u with alertDue := true }) s)

/-- R439, R447: a write of UBH_CTRL. -/
def ubhCtrl (le : Nat) (hold allow : Bool) (s : State) : State :=
  let s := (s.setB (F.UBH_CTRL_hold le) hold).setB (F.UBH_CTRL_tx_allow le) allow
  if hold && linkOf s le != 4 then ubhBreak le 4 s
  else if !hold && linkOf s le == 4 then ubhRun le (linkClear le 0 s)
  else s

/-- UBH_HOLD -/
def execUbhHold (m : Master) (le : Fin 2) (hold allow : Bool) (s : State) : Host.Outcome State Fault Refusal :=
  .next (s.goWrite m (0xD8040 + 0x1000 * le.val) false (ubhCtrl le.val hold allow))

/-- R442, R447: a write of UBH_PT_CMD with go; a go while busy changes nothing. -/
def ptGo (le : Nat) (write : Bool) (len addr : Nat) (s : State) : State :=
  if s.on (F.UBH_PT_STAT_busy le) then s
  else
    let s := ((s.setB (F.UBH_PT_CMD_write le) write).setF (F.UBH_PT_CMD_length le) len).setF (F.UBH_PT_CMD_address le) addr
    if linkOf s le ≠ 2 ∧ linkOf s le ≠ 3 then s.setF (F.UBH_PT_STAT_status le) 0xF1
    else if write && s.runState le != 0 then s.setF (F.UBH_PT_STAT_status le) 0xF0
    else
      let data := ((List.range 50).flatMap fun w => toLe 4 (s.g (F.UBH_PT_DATA_bytes le w))).take len
      let c := if write then (10, toLe 2 addr ++ data) else (9, toLe 2 addr ++ [BitVec.ofNat 8 len])
      ubhNext le (modUbh le (fun u => { u with queue := u.queue ++ [c] }) (s.setB (F.UBH_PT_STAT_busy le) true))

/-- UBH_PT_GO -/
def execUbhPtGo (m : Master) (le : Fin 2) (write : Bool) (len : Byte) (addr : BitVec 16) (s : State) :
    Host.Outcome State Fault Refusal :=
  .next (s.goWrite m (0xD8100 + 0x1000 * le.val) false (ptGo le.val write len.toNat addr.toNat))

/-- R443: an override ends: on an OPEN link OVERRIDE_END rises and the transmitter is no longer allowed. -/
def overrideEnd (le : Nat) (s : State) : State :=
  let was := overrideOn s le && linkOf s le == 3
  let s := ovReport le { s with enc := { s.enc with overrides := Tbl.erase s.enc.overrides le } }
  if was then State.evt (0xD8 + le) 5 s else s

/-- OVERRIDE_END. R443: hours that are counted down run out. -/
def execOverrideEnd (le : Fin 2) (s : State) : Host.Outcome State Fault Refusal :=
  match Tbl.find s.enc.overrides le.val with
  | some (_, h) => if h = 0 then .next s else .next (overrideEnd le.val s)
  | none => .next s

end Sys2Proof.Machine
end

