-- ==== Sys2Proof/Machine/Sync.lean ====
section
/-! DEFINITION. Reference selection, holdover, device time and PPS (15_synchronisation.md). -/
namespace Sys2Proof.Machine

/-- Changes synchronisation storage. -/
def modSyn (f : Syn → Syn) (s : State) : State := { s with syn := f s.syn }

/-- R454: quality levels best to worst in the option selected. -/
def qlOrder (s : State) : List Nat :=
  if s.curOn F.SYN_CTRL_ql_option then [0x1, 0x0, 0x7, 0x4, 0xD, 0xA, 0xC, 0xE, 0xF] else [0x2, 0x4, 0x8, 0xB, 0xF]

/-- R454: the rank of a code; one the option does not list counts as DNU (DUS). -/
def qlRank (s : State) (q : Nat) : Nat :=
  let l := qlOrder s
  min (l.length - 1) ((l.findIdx? (· == q)).getD (l.length - 1))

/-- R451: the engine of a line-recovered clock (indices 2 to 5). -/
def clockEngine (k : Nat) : Nat := (k - 2) / 2

/-- The port whose lane client slot `k` (6 to 13) names. -/
def slotPort (s : State) (k : Nat) : Option Nat :=
  let l := s.cur (F.SYN_IN_CFG_source k)
  portOf s (l / 8) (l % 8)

/-- R455: the received QL of input `k`: none is QL-FAILED. -/
def inputQl (s : State) (k : Nat) : Option Nat :=
  if s.curOn (F.SYN_IN_CFG_ql_force k) || k < 2 || k == 14 then some (s.cur (F.SYN_IN_CFG_ql_value k))
  else if k < 6 then
    let le := clockEngine k
    let src := s.cur (F.SYN_IN_CFG_source k)
    let q := if s.role le = 3 then s.g (F.LE_P2MP_LEAF_STAT_home le) else if s.role le = 2 ∧ src < 32 then src else 0
    if 2 ≤ Tbl.get 0 (s.eng le).glf.frame q then some (Tbl.get 0 (s.eng le).glf.ql q) else none
  else match slotPort s k with
    | some p => if s.on (F.SYN_ESMC_rx_failed p) then none else some (s.g (F.SYN_ESMC_rx_ql p))
    | none => none

/-- R452, R470: the frequency fault of input `k` follows its offset, in 0.01 ppm units, with freq_lim in 0.1 ppm units. -/
def offsetJudge (k : Nat) (off : Int) (s : State) : State :=
  let lim := s.cur (F.SYN_IN_CFG_freq_lim k) * 10
  if lim < off.natAbs then modSyn (fun y => { y with offBad := if y.offBad.contains k then y.offBad else k :: y.offBad }) s
  else if 10 * off.natAbs < 8 * lim then modSyn (fun y => { y with offBad := y.offBad.filter (· != k) }) s
  else s

/-- R452: faults of an input that the device sees in its own blocks and in its measured offset. -/
def inputFaulty (s : State) (k : Nat) : Bool :=
  s.syn.offBad.contains k ||
  if 2 ≤ k && k < 6 then
    let le := clockEngine k
    let src := s.cur (F.SYN_IN_CFG_source k)
    let q := if s.role le = 3 then s.g (F.LE_P2MP_LEAF_STAT_home le) else if s.role le = 2 ∧ src < 32 then src else 0
    s.runState le != 2 || declared s le 0 0 || declared s le 1 0 || declared s le 2 q ||
      (s.role le == 2 && (s.scOf le q != 3 || upMode s.inForce le q != 2))
  else if 6 ≤ k && k < 14 then
    match slotPort s k with
    | some p => portState s p != 4 || s.on (F.PORT_STAT_rx_local_fault (p / 8) (p % 8))
    | none => true
  else k == 14 && !s.on F.SYN_PPS_STAT_present

/-- R453: the state of input `k`: 0 DISABLED, 1 QUALIFYING, 2 WTR, 3 VALID, 4 FAILED. -/
def inputState (s : State) (k : Nat) : Nat := s.g (F.SYN_IN_STAT_state k)

/-- R458: whether input `k` is eligible. -/
def eligible (s : State) (k : Nat) : Bool :=
  inputState s k == 3 && s.cur (F.SYN_IN_CFG_priority k) != 0 &&
  (!s.curOn F.SYN_CTRL_ql_mode ||
    (match inputQl s k with | some q => decide (qlRank s q + 1 < (qlOrder s).length) | none => false))

/-- R458: the QL part of an input's rank. -/
def rankQl (s : State) (k : Nat) : Nat :=
  if s.curOn F.SYN_CTRL_ql_mode then (match inputQl s k with | some q => qlRank s q | none => 15) else 0

/-- R458: an input's rank as one number, lower is better. -/
def rankOf (s : State) (k : Nat) : Nat := rankQl s k * 16 + s.cur (F.SYN_IN_CFG_priority k)

/-- R461: DPLL states 0 FREERUN, 1 ACQUIRING, 2 LOCKED, 3 HOLDOVER, 4 TEST. -/
def dpll (s : State) : Nat := s.g F.SYN_STAT_state

/-- R457: the output QL. -/
def outputQl (s : State) : Nat :=
  match dpll s with
  | 1 | 2 => (inputQl s (s.g F.SYN_STAT_selected)).getD 0xF
  | 3 => if s.on F.SYN_STAT_oos then s.cur F.SYN_CTRL_oos_ql else s.cur F.SYN_CTRL_own_ql
  | _ => s.cur F.SYN_CTRL_own_ql

/-- R457: the code a port's ESMC carries: DNU (DUS) where its lane is the selected client slot's. -/
def esmcCode (s : State) (p : Nat) : Nat :=
  let k := s.g F.SYN_STAT_selected
  if 6 ≤ k ∧ k < 14 ∧ slotPort s k = some p then 0xF else s.g F.SYN_STAT_output_ql

/-- R456, R471: the source address of a port's PDUs. -/
def esmcSource (s : State) (p : Nat) : Nat := (s.g F.SYN_ESMC_MAC_LO_mac + 2 ^ 32 * s.g F.SYN_ESMC_MAC_HI_mac + p) % 2 ^ 48

/-- R456, R471: ESMC is sent on a port: an Ethernet port with tx_en = 1. -/
def esmcSends (s : State) (p : Nat) : Bool := s.curOn (F.SYN_ESMC_tx_en p) && !portFlexo s.inForce p

/-- R455 to R457, R467, R470: received and output QL are reported; a change of the output QL is an event and of a code sent
an ESMC event PDU. Nothing changes during a self-test (R461). -/
def synReport (s : State) : State :=
  if dpll s = 4 then s
  else
    let s := s.forEach (List.range 15) fun k s =>
      match inputQl s k with
      | some q => (s.setB (F.SYN_IN_STAT_ql_failed k) false).setF (F.SYN_IN_STAT_ql_rx k) q
      | none => (s.setB (F.SYN_IN_STAT_ql_failed k) true).setF (F.SYN_IN_STAT_ql_rx k) 0
    let q := outputQl s
    let s := if q = s.g F.SYN_STAT_output_ql then s else State.evt 0xD0 7 (s.setF F.SYN_STAT_output_ql q)
    let s := s.forEach (List.range 32) fun p s =>
      let c := if esmcSends s p then esmcCode s p else 0
      if c = s.g (F.SYN_ESMC_tx_ql p) then s
      else
        let s := s.setF (F.SYN_ESMC_tx_ql p) c
        if esmcSends s p then modSyn (fun y => { y with esmc := Tbl.insert y.esmc p (c, true, esmcSource s p) }) s else s
    let own (le : Nat) : Bool :=
      let k := s.g F.SYN_STAT_selected
      (k == 2 + 2 * le || k == 3 + 2 * le) && s.cur (F.SYN_IN_CFG_source k) == 0x1F
    State.level 0xD0 8 ([0, 1].any fun le => isLeaf s le && !own le) s

/-- R462: the samples of the holdover estimate: the last second left out, then at most hold_avg seconds. -/
def holdSamples (s : State) : List Int := (s.syn.hist.drop 1000).take (s.cur F.SYN_HOLD_hold_avg * 1000)

/-- R462: the holdover estimate in 10^-12 units, and hold_valid. -/
def holdUpdate (s : State) : State :=
  let l := holdSamples s
  let s := s.setF F.SYN_HOLD_FREQ_estimate (unsigned 32 (roundDivI (l.foldl (· + ·) 0) l.length))
  if 10000 ≤ s.syn.hist.length - 1000 then s.setB F.SYN_STAT_hold_valid true else s

/-- Sets a bit of SYN_HIST, given as a one-bit field. -/
def synHist (f : Field) (s : State) : State := s.setF f 1

/-- R459, R461: no input is chosen: HOLDOVER, or FREERUN without a valid estimate. -/
def synLose (s : State) : State :=
  let s := (s.setF F.SYN_STAT_selected 0xF).setB F.SYN_STAT_switching false
  if dpll s = 1 ∨ dpll s = 2 then
    if s.on F.SYN_STAT_hold_valid then
      let s := (s.setF F.SYN_STAT_state 3).setF F.SYN_FREQ_offset (s.g F.SYN_HOLD_FREQ_estimate)
      let s := (s.setF F.SYN_HOLD_ELAPSED_seconds 0).setB F.SYN_STAT_oos false
      State.evt 0xD0 1 (synHist F.SYN_HIST_holdover (modSyn (fun y => { y with holdAt := s.now }) s))
    else
      let s := (s.setF F.SYN_STAT_state 0).setF F.SYN_FREQ_offset 0
      State.evt 0xD0 2 (synHist F.SYN_HIST_freerun s)
  else s

/-- R461: the loop bandwidth in use, 0.1 mHz units: bw_acq until locked, then bw_track, with PPS at most 0.1 Hz. -/
def dpllBandwidth (s : State) : Nat :=
  if s.g F.SYN_STAT_selected = 14 then min (s.cur F.SYN_BW_bw_track) 1000
  else if dpll s = 1 then s.cur F.SYN_BW_ACQ_bw_acq else s.cur F.SYN_BW_bw_track

/-- R459, R461, R463: input `k` is chosen and a switch begins; Δ, the phase between input and output, is a free value. -/
def synChoose (k : Nat) (s : State) : State :=
  let (d, s) := s.draw 32
  let s := modSyn (fun y => { y with switchAt := s.now, delta := signed 32 d }) s
  let s := (s.setF F.SYN_STAT_selected k).setB F.SYN_STAT_switching true
  if dpll s = 0 ∨ dpll s = 3 then
    ((s.setF F.SYN_STAT_state 1).setF F.SYN_HOLD_ELAPSED_seconds 0).setB F.SYN_STAT_oos false
  else s

/-- R459: the input an evaluation chooses: none for no selection, else the input (the current one to stay). -/
def synSelect (s : State) : Option Nat :=
  let forced := s.cur F.SYN_CTRL_force_sel
  let sel := s.g F.SYN_STAT_selected
  let els := (List.range 15).filter (eligible s)
  if forced ≠ 0xF then (if eligible s forced then some forced else none)
  else if sel ≠ 0xF ∧ eligible s sel then
    if s.on F.SYN_STAT_switching then some sel
    else match leastBy (rankOf s) els with
      | none => some sel
      | some k =>
        if (s.curOn F.SYN_CTRL_ql_mode && decide (rankQl s k < rankQl s sel)) ||
            (s.curOn F.SYN_CTRL_revertive && decide (rankOf s k < rankOf s sel)) then some k else some sel
  else leastBy (rankOf s) els

/-- R460: an eligible input of the selection's rank differs from it by more than disagree_ppm. -/
def excessNow (s : State) : Bool :=
  let sel := s.g F.SYN_STAT_selected
  let off (k : Nat) : Int := signed 16 (s.g (F.SYN_IN_STAT_offset k))
  decide (sel < 15) && (List.range 15).any fun k => k != sel && eligible s k && rankOf s k == rankOf s sel &&
    decide (s.cur F.SYN_DISAGREE_disagree_ppm * 10 < (off k - off sel).natAbs)

/-- R460: REF_DISAGREE clears after disagree_time without excess. -/
def disagreeEval (s : State) : State :=
  match s.syn.excessAt with
  | none => s
  | some t =>
    if excessNow s then modSyn (fun y => { y with excessAt := some s.now }) s
    else if t + s.cur F.SYN_DISAGREE_disagree_time * 1000000000 ≤ s.now then
      State.level 0xD0 4 false (modSyn (fun y => { y with excessAt := none }) s)
    else s

/-- R463: phase build-out: 1 ms after its choice Δ is stored. -/
def buildOut (s : State) : State :=
  if s.on F.SYN_STAT_switching && !s.curOn F.SYN_CTRL_switch_type && decide (s.syn.switchAt + 1000000 ≤ s.now) then
    modSyn (fun y => { y with buildOut := y.delta }) s
  else s

/-- SELECTION_EVAL. R459 to R463: every 1 ms; the measured DPLL frequency, and frequency offsets of inputs. -/
def execSelectionEval (freq : BitVec 32) (offs : List (Fin 15 × BitVec 16)) (s : State) : Host.Outcome State Fault Refusal :=
  if dpll s = 4 then .next s
  else
    let s := s.reach (s.syn.evalAt + 1000000)
    let s := modSyn (fun y => { y with evalAt := s.now }) s
    let s := s.forEach offs fun e s => offsetJudge e.1.val e.2.toInt (s.setF (F.SYN_IN_STAT_offset e.1.val) e.2.toNat)
    let s := if dpll s = 1 ∨ dpll s = 2 then s.setF F.SYN_FREQ_offset freq.toNat else s
    let s := if dpll s = 2 ∧ ¬ s.on F.SYN_STAT_switching then
        modSyn (fun y => { y with hist := (freq.toInt :: y.hist).take ((s.cur F.SYN_HOLD_hold_avg + 1) * 1000 + 10000) }) s
      else s
    let s := holdUpdate s
    let s := if dpll s = 3 then s.setF F.SYN_HOLD_ELAPSED_seconds ((s.now - s.syn.holdAt) / 1000000000) else s
    let s := match synSelect s with
      | none => synLose s
      | some k => if k = s.g F.SYN_STAT_selected then s else synChoose k s
    .next (synReport (disagreeEval (buildOut s)))

/-- R453: input `k` fails: FAILED, its SYN_HIST bit and INPUT_FAIL. -/
def inputFail (k : Nat) (s : State) : State :=
  if inputState s k = 1 ∨ inputState s k = 2 ∨ inputState s k = 3 then
    let s := (s.setF (F.SYN_IN_STAT_state k) 4).setF (F.SYN_IN_WTR_remaining k) 0
    let s := s.setF F.SYN_HIST_inputs (s.g F.SYN_HIST_inputs ||| 2 ^ k)
    synReport (State.evt 0xD0 6 s)
  else s

/-- R453: the fault of a FAILED input is gone: its wait-to-restore starts. -/
def inputClear (k : Nat) (s : State) : State :=
  if inputState s k = 4 then
    let w := max (s.cur F.SYN_TIMERS_wtr) (s.cur F.SYN_TIMERS_qualify_time)
    let s := modSyn (fun y => { y with due := Tbl.insert y.due k (s.now + w * 1000000000) }) s
    synReport ((s.setF (F.SYN_IN_STAT_state k) 2).setF (F.SYN_IN_WTR_remaining k) w)
  else s

/-- R453, R470: the seconds left of input `k`'s wait-to-restore. -/
def wtrLeft (s : State) (k : Nat) : Nat :=
  if inputState s k = 2 then (Tbl.get 0 s.syn.due k - s.now + 999999999) / 1000000000 else 0

/-- INPUT_FAULT. R452, R453; during a self-test it waits for the end (R461). -/
def execInputFault (k : Fin 15) (s : State) : Host.Outcome State Fault Refusal :=
  if dpll s = 4 then .next (modSyn (fun y => { y with waiting := y.waiting ++ [(k.val, true)] }) s)
  else .next (inputFail k.val s)

/-- INPUT_FAULT_CLEAR. R453. -/
def execInputFaultClear (k : Fin 15) (s : State) : Host.Outcome State Fault Refusal :=
  if dpll s = 4 then .next (modSyn (fun y => { y with waiting := y.waiting ++ [(k.val, false)] }) s)
  else if inputFaulty s k.val then .next s
  else .next (inputClear k.val s)

/-- INPUT_QUALIFIED. R453: qualify_time, or the wait-to-restore, has passed without a fault. -/
def execInputQualified (k : Fin 15) (s : State) : Host.Outcome State Fault Refusal :=
  let k := k.val
  if (inputState s k = 1 ∨ inputState s k = 2) ∧ ¬ inputFaulty s k then
    let s := s.reach (Tbl.get 0 s.syn.due k)
    .next (synReport ((s.setF (F.SYN_IN_STAT_state k) 3).setF (F.SYN_IN_WTR_remaining k) 0))
  else .next s

/-- DPLL_LOCKED. R461. -/
def execDpllLocked (s : State) : Host.Outcome State Fault Refusal :=
  if dpll s = 1 then .next (synReport (State.evt 0xD0 3 (s.setF F.SYN_STAT_state 2))) else .next s

/-- HOLDOVER_OOS. R461: oos_time in HOLDOVER. -/
def execHoldoverOos (s : State) : Host.Outcome State Fault Refusal :=
  if dpll s = 3 ∧ ¬ s.on F.SYN_STAT_oos then
    let secs := s.cur F.SYN_HOLD_oos_time * 60
    let s := s.reach (s.syn.holdAt + secs * 1000000000)
    let s := (s.setF F.SYN_HOLD_ELAPSED_seconds ((s.now - s.syn.holdAt) / 1000000000)).setB F.SYN_STAT_oos true
    .next (synReport (State.evt 0xD0 5 (synHist F.SYN_HIST_oos s)))
  else .next s

/-- R461, R509: the self-test starts, with the holdover estimate applied. -/
def dpllTest (s : State) : State :=
  if dpll s = 4 then s
  else
    let s := modSyn (fun y => { y with before := dpll s, waiting := [] }) ({ s with rep := { s.rep with dpllDue := false } }.setB F.REP_STAT_dpll_test_busy true)
    synHist F.SYN_HIST_self_test ((s.setF F.SYN_STAT_state 4).setF F.SYN_FREQ_offset (s.g F.SYN_HOLD_FREQ_estimate))

/-- DPLL_TEST_START. R461, R509: LOCKED, a valid estimate, no switch. -/
def execDpllTestStart (s : State) : Host.Outcome State Fault Refusal :=
  if dpll s = 2 ∧ s.on F.SYN_STAT_hold_valid ∧ ¬ s.on F.SYN_STAT_switching then .next (dpllTest s) else .next s

/-- DPLL_TEST_END. R461, R509: back to the state before; inputs that failed meanwhile are handled now. -/
def execDpllTestEnd (ok : Bool) (s : State) : Host.Outcome State Fault Refusal :=
  if dpll s = 4 then
    let l := s.syn.waiting
    let s := s.setF F.SYN_STAT_state s.syn.before
    let s := modSyn (fun y => { y with waiting := [] }) s
    let s := s.forEach l fun e s => if e.2 then inputFail e.1 s else if inputFaulty s e.1 then s else inputClear e.1 s
    let s := s.setB F.REP_STAT_dpll_test_busy false
    .next (synReport (if ok then s else State.evt 0xF0 6 s))
  else .next s

/-- R463: the earliest instant at which a switch has applied its phase: 1 ms after its choice, with SLEW the time that Δ takes at
slew_rate down to 1 ns. -/
def switchEnds (s : State) : Nat :=
  s.syn.switchAt + 1000000 +
    (if s.curOn F.SYN_CTRL_switch_type then (s.syn.delta.natAbs - 1) * 1000000000 / max 1 (s.cur F.SYN_CTRL_slew_rate) else 0)

/-- SWITCH_COMPLETE. R463. -/
def execSwitchComplete (s : State) : Host.Outcome State Fault Refusal :=
  if s.on F.SYN_STAT_switching ∧ dpll s ≠ 4 then
    let s := buildOut (s.reach (switchEnds s))
    .next (State.evt 0xD0 0 (synHist F.SYN_HIST_switched (s.setB F.SYN_STAT_switching false)))
  else .next s

/-- REF_DISAGREE. R460: an eligible input of the selection's rank, and the difference in 0.01 ppm, above disagree_ppm for
disagree_time. -/
def execRefDisagree (k : Fin 15) (diff : BitVec 16) (s : State) : Host.Outcome State Fault Refusal :=
  let k := k.val
  let sel := s.g F.SYN_STAT_selected
  if sel ≠ 0xF ∧ k ≠ sel ∧ eligible s k ∧ rankOf s k = rankOf s sel ∧ s.cur F.SYN_DISAGREE_disagree_ppm * 10 < diff.toNat then
    let s := modSyn (fun y => { y with excessAt := some s.now }) s
    let s := ((s.setF F.SYN_DISAGREE_STAT_difference diff.toNat).setF F.SYN_DISAGREE_STAT_input_a sel).setF
      F.SYN_DISAGREE_STAT_input_b k
    .next (State.level 0xD0 4 true (synHist F.SYN_HIST_disagree s))
  else .next s

/-! ## ESMC (R455, R456) -/

/-- ESMC_PDU_RX: the SSM code, or none for a malformed PDU. -/
def execEsmcPduRx (p : Fin 32) (code : Option (BitVec 4)) (s : State) : Host.Outcome State Fault Refusal :=
  let p := p.val
  if portState s p ≠ 4 ∨ portFlexo s.inForce p then .next s
  else
    let s := portCount p 9 1 s
    match code with
    | none => .next (s.bump F.ESMC_BAD_count 1)
    | some c =>
      let s := modSyn (fun y => { y with rxAt := Tbl.insert y.rxAt p s.now }) s
      .next (synReport ((s.setF (F.SYN_ESMC_rx_ql p) c.toNat).setB (F.SYN_ESMC_rx_failed p) false))

/-- ESMC_INFO_TX: every 1 s an information PDU on each port with tx_en = 1. -/
def execEsmcInfoTx (s : State) : Host.Outcome State Fault Refusal :=
  let s := s.reach (s.syn.infoAt + 1000000000)
  let s := modSyn (fun y => { y with infoAt := s.now }) s
  .next (s.forEach (List.range 32) fun p s =>
    if esmcSends s p then
      let c := esmcCode s p
      modSyn (fun y => { y with esmc := Tbl.insert y.esmc p (c, false, esmcSource s p) }) (s.setF (F.SYN_ESMC_tx_ql p) c)
    else s)

/-- ESMC_QL_TIMEOUT: no PDU for 5 s. -/
def execEsmcQlTimeout (p : Fin 32) (s : State) : Host.Outcome State Fault Refusal :=
  let s := match Tbl.find s.syn.rxAt p.val with | some t => s.reach (t + 5000000000) | none => s
  .next (synReport (s.setB (F.SYN_ESMC_rx_failed p.val) true))

/-! ## Device time (R464 to R466) -/

/-- R466: the next instant at which device time plus pps_out_delay is a whole second. -/
def nextPps (s : State) : Nat :=
  let d := signed 32 (s.g F.SYN_PPS_OUT_DELAY_delay)
  let x : Int := (s.now : Int) + 1 + d
  (((x + 999999999) / 1000000000) * 1000000000 - d).toNat

/-- R464: an ADJUST starts. -/
def adjustStart (off : Int) (s : State) : State :=
  modSyn (fun y => { y with adjust := some (s.now, s.g F.SYN_TIME_CTRL_adj_rate, off) }) (s.setB F.SYN_TIME_CTRL_busy true)

/-- R464: a write of SYN_TIME_CTRL: op and adj_rate, and with go the operation. -/
def timeCtrl (go op : Bool) (rate : Nat) (s : State) : State :=
  let s := (s.setB F.SYN_TIME_CTRL_op op).setF F.SYN_TIME_CTRL_adj_rate rate
  if !go then s
  else if s.on F.SYN_TIME_CTRL_busy then State.err 0xD3 0 0x82 s
  else if op then adjustStart (signed 32 (s.g F.SYN_TIME_ADJ_offset)) s
  else
    let v := s.g F.SYN_TIME_SET_LO_time + 2 ^ 32 * s.g F.SYN_TIME_SET_HI_time
    if v % 1000000000 ≠ 0 ∨ v ≤ nextPps s then State.err 0xD3 0 0x81 s
    else modSyn (fun y => { y with setWaits := true }) (s.setB F.SYN_TIME_CTRL_busy true)

/-- SET_AT_PPS -/
def execSetAtPps (m : Master) (rate : BitVec 10) (s : State) : Host.Outcome State Fault Refusal :=
  .next (s.goWrite m 0xD3058 false (timeCtrl true false rate.toNat))

/-- ADJUST -/
def execAdjust (m : Master) (rate : BitVec 10) (s : State) : Host.Outcome State Fault Refusal :=
  .next (s.goWrite m 0xD3058 false (timeCtrl true true rate.toNat))

/-- ADJUST_COMPLETE. R464: device time has run at 1 ± adj_rate until the offset is used up. -/
def execAdjustComplete (s : State) : Host.Outcome State Fault Refusal :=
  match s.syn.adjust with
  | none => .next s
  | some (t0, rate, off) =>
    let run := off.natAbs * 1000000 / max 1 rate
    let s := s.reach (((t0 + run : Nat) : Int) + off).toNat
    .next (modSyn (fun y => { y with adjust := none }) (s.setB F.SYN_TIME_CTRL_busy false))

/-- PPS_IN_EDGE. R465: an edge at device time `t`. -/
def execPpsInEdge (t : BitVec 64) (s : State) : Host.Outcome State Fault Refusal :=
  let s := s.reach t.toNat
  let s := modSyn (fun y => { y with edgeAt := s.now }) s
  let ts : Int := (t.toNat : Int) - signed 32 (s.g F.SYN_PPS_IN_DELAY_delay)
  let r := ts % 1000000000
  let e : Int := if 500000000 ≤ r then r - 1000000000 else r
  let appeared := !s.on F.SYN_PPS_STAT_present
  let s := (s.setF F.SYN_PPS_IN_TS_LO_time (unsigned 64 ts)).setF F.SYN_PPS_IN_TS_HI_time (unsigned 64 ts / 2 ^ 32)
  let s := (s.setB F.SYN_PPS_STAT_present true).setF F.SYN_PPS_STAT_e (unsigned 30 (clampI (-(2 ^ 29)) (2 ^ 29 - 1) e))
  let s := if appeared then modSyn (fun y => { y with aligned := false }) s else s
  if !s.on F.SYN_PPS_CTRL_align || s.on F.SYN_TIME_CTRL_busy then .next s
  else
    let first := !s.syn.aligned
    let s := modSyn (fun y => { y with aligned := true }) s
    if first && decide (e < -1000000) then
      .next (State.evt 0xD0 10 { s with time := s.time + BitVec.ofInt 64 (-e) })
    else if 1000 < e.natAbs then .next (adjustStart (-e) s)
    else .next s

/-- PPS_IN_LOSS. R465: no edge for 1.1 s. -/
def execPpsInLoss (s : State) : Host.Outcome State Fault Refusal :=
  if s.on F.SYN_PPS_STAT_present then
    .next (State.evt 0xD0 9 ((s.reach (s.syn.edgeAt + 1100000000)).setB F.SYN_PPS_STAT_present false))
  else .next s

/-- PPS_OUT. R464, R466: a waiting SET_AT_PPS loads device time at this instant. -/
def execPpsOut (s : State) : Host.Outcome State Fault Refusal :=
  let s := s.reach (nextPps s)
  let s := if s.on F.SYN_PPS_CTRL_out_en then modSyn (fun y => { y with ppsOut := some s.now }) s else s
  if s.syn.setWaits then
    let v := s.g F.SYN_TIME_SET_LO_time + 2 ^ 32 * s.g F.SYN_TIME_SET_HI_time
    let s := modSyn (fun y => { y with setWaits := false }) (s.setB F.SYN_TIME_CTRL_busy false)
    if s.now < v then .next (State.evt 0xD0 10 { s with time := BitVec.ofNat 64 v }) else .next s
  else .next s

/-- R466: PPS_OUT is high for width µs after each of its rises while out_en is 1. -/
def ppsHigh (s : State) : Bool :=
  s.on F.SYN_PPS_CTRL_out_en &&
  (match s.syn.ppsOut with | some t => decide (s.now < t + s.g F.SYN_PPS_CTRL_width * 1000) | none => false)

/-- R466: SYNCOUTm carries the DPLL output (it is held low otherwise). -/
def syncoutLive (s : State) (m : Nat) : Bool :=
  s.on (F.SYN_OUT_CFG_en m) && !(dpll s == 0 && s.on (F.SYN_OUT_CFG_squelch_freerun m)) &&
  (s.g (F.SYN_OUT_CFG_squelch_ql m) == 0xF || !decide (qlRank s (s.g (F.SYN_OUT_CFG_squelch_ql m)) < qlRank s (s.g F.SYN_STAT_output_ql)))

/-! ## The 0xD0 set (R453, R468) -/

/-- R468: the reason a set is rejected with. -/
def synCheck (t : Tbl Nat) : Nat :=
  let rng (f : Field) (lo hi : Nat) : Bool := lo ≤ look t f && look t f ≤ hi
  let slots := ((List.range 8).map (· + 6)).filter fun k => look t (F.SYN_IN_CFG_en k) == 1
  let forced := look t F.SYN_CTRL_force_sel
  firstFail [
    (0x01, rng F.SYN_CTRL_slew_rate 1 10000 && rng F.SYN_BW_bw_track 1 1000000 && rng F.SYN_BW_ACQ_bw_acq 1 1000000 &&
      rng F.SYN_TIMERS_wtr 0 720 && rng F.SYN_TIMERS_qualify_time 1 600 && rng F.SYN_DISAGREE_disagree_ppm 1 255 &&
      rng F.SYN_DISAGREE_disagree_time 1 3600 && rng F.SYN_HOLD_hold_avg 1 3600 && rng F.SYN_HOLD_oos_time 1 65535 &&
      (List.range 15).all fun k => rng (F.SYN_IN_CFG_freq_lim k) 1 255),
    (0x03, forced == 0xF || look t (F.SYN_IN_CFG_en forced) == 1),
    (0x03, noRepeat (slots.map fun k => look t (F.SYN_IN_CFG_source k)))]

/-- R453: the set takes effect: inputs are enabled and disabled. -/
def synApply (old : Tbl Nat) (s : State) : State :=
  synReport (s.forEach (List.range 15) fun k s =>
    let was := look old (F.SYN_IN_CFG_en k) == 1
    let is := s.curOn (F.SYN_IN_CFG_en k)
    if is && !was then
      let s := modSyn (fun y => { y with due := Tbl.insert y.due k (s.now + s.cur F.SYN_TIMERS_qualify_time * 1000000000) }) s
      s.setF (F.SYN_IN_STAT_state k) 1
    else if was && !is then (s.setF (F.SYN_IN_STAT_state k) 0).setF (F.SYN_IN_WTR_remaining k) 0
    else s)

end Sys2Proof.Machine
end

