-- ==== Sys2Proof/Machine/Monitor.lean ====
section
/-! DEFINITION. The monitor chains (16_housekeeping_and_monitoring.md). -/
namespace Sys2Proof.Machine

/-- Page 0xE8 or 0xEA of a chain. -/
def monPage (le : Nat) : Nat := 0xE8 + 2 * le

/-- R126: clk_mon runs. -/
def monUp (s : State) (le : Nat) : Bool := s.domainUp (monPage le)

/-- R494: the capture state takes a value; leaving POST drops what was pending. -/
def monTo (le st : Nat) (s : State) : State :=
  (s.setF (F.MON_STAT_state le) st).setB (F.MON_STAT_pending le) false

/-! ## The chain (R490 to R493) -/

/-- R491: half-band stages and FIR taps of a set. -/
def monPreset (t : Tbl Nat) (le : Nat) : Nat × Nat :=
  match look t (F.MON_CTRL_preset le) with
  | 0 => (4, 64) | 1 => (7, 128) | 2 => (10, 256) | 3 => (13, 384)
  | _ => (look t (F.MON_CTRL_s le), look t (F.MON_CTRL_taps le))

/-- R490: the tap's stream is complex; RAW_LANE is real. -/
def monComplex (s : State) (le : Nat) : Bool := s.cur (F.MON_CTRL_tap le) != 0

/-- R492: Q1.15, rounded half to even and saturated at ±(1 − 2^−15). -/
def q15 (n : Int) (d : Nat) : Int := clampI (-32767) 32767 (roundEven n d)

/-- R491, R492: a filter of Q1.17 taps at sample `n` of a stream; complex streams filter I and Q alike. -/
def monFilter (taps : List Int) (x : Nat → Int × Int) (n : Nat) : Int × Int :=
  let l := taps.zipIdx.filter fun c => c.2 ≤ n
  (q15 (l.foldl (fun a c => a + c.1 * (x (n - c.2)).1) 0) (2 ^ 17), q15 (l.foldl (fun a c => a + c.1 * (x (n - c.2)).2) 0) (2 ^ 17))

/-- R491: `k` half-band stages, each of which decimates by 2. -/
def halfBands (x : Nat → Int × Int) : Nat → Nat → Int × Int
  | 0 => x
  | k + 1 => fun n => monFilter Config.halfBand (halfBands x k) (2 * n)

/-- R491: the taps of the FIR, built in or MON_COEFi. -/
def monTaps (s : State) (le : Nat) : List Int :=
  let n := (monPreset s.inForce le).2
  if s.curOn (F.MON_CTRL_coef_src le) then (List.range n).map fun i => lookI s.inForce (F.MON_COEF_coef le i) else Config.lowPass n

/-- R490, R491: the output of the chain's FIR, sample by sample since the chain took its set. -/
def monOut (s : State) (le : Nat) : Nat → Int × Int :=
  monFilter (monTaps s le) (halfBands (Config.tapSample (s.eng le).mon.key) (monPreset s.inForce le).1)

/-- R490, R491: output samples since the chain took its set. Fs is 1.2 × Rs; a subcarrier's stream runs at Rs ÷ N. -/
def monCount (s : State) (le : Nat) : Nat :=
  let x := (s.now - (s.eng le).mon.since) * rxBaud s.inForce le
  let n := 2 ^ s.cur (F.LE_RX_PLAN_sc_count le)
  (if s.cur (F.MON_CTRL_tap le) = 2 then x / (4 * n) else x * 3 / 10) / 2 ^ (monPreset s.inForce le).1

/-- A square root to the nearest integer. -/
def sqrtNear (n : Nat) : Nat := let r := Nat.sqrt n; if r < n - r * r then r + 1 else r

/-- R493: |x| of a sample, Q1.15. -/
def monAbs (x : Int × Int) : Nat := min 32767 (sqrtNear (x.1.natAbs ^ 2 + x.2.natAbs ^ 2))

/-- R493: the peak held after sample `n`: it decays by 2^−k of itself after each sample; with k = 0 it does not. -/
def peakHeld (k : Nat) (mag : Nat → Nat) : Nat → Nat
  | 0 => mag 0
  | n + 1 =>
    let v := peakHeld k mag n
    max (mag (n + 1)) (if k = 0 then v else (roundEven (v * (2 ^ k - 1)) (2 ^ k)).toNat)

/-- R493: the RMS of the last whole block of 2^k samples among the first `n`. -/
def rmsBlock (k : Nat) (mag : Nat → Nat) (n : Nat) : Nat :=
  let b := n / 2 ^ k
  if b = 0 then 0
  else sqrtNear (((List.range (2 ^ k)).foldl (fun a i => a + mag ((b - 1) * 2 ^ k + i) ^ 2) 0) / 2 ^ k)

/-- R493: the analytic signal: a complex stream as it is, a real one with the Hilbert transformer of 31 taps. -/
def analytic (cplx : Bool) (x : Nat → Int × Int) (n : Nat) : Int × Int :=
  if cplx then x n else ((x (n - 15)).1, (monFilter Config.hilbert x n).1)

/-- R493: what detector 0 peak, 1 RMS, 2 envelope shows, Q0.16. -/
def monDetector (s : State) (le d : Nat) : Nat :=
  let n := monCount s le
  let x := monOut s le
  let mag (i : Nat) : Nat := monAbs (x i)
  if n = 0 then 0
  else 2 * match d with
    | 0 => peakHeld (s.cur (F.MON_DET_decay_k le)) mag (n - 1)
    | 1 => rmsBlock (s.cur (F.MON_DET_rms_k le)) mag n
    | _ => monAbs (analytic (monComplex s le) x (n - 1))

/-! ## Captures (R494, R495) -/

/-- R494: MON_CMD.abort, a COMMIT with en = 0, or clk_mon stops. -/
def monAbort (le : Nat) (s : State) : State := monTo le 0 s

/-- R494, R497: the chain takes the set in force. -/
def monTake (le : Nat) (s : State) : State :=
  let s := monAbort le s
  if s.curOn (F.MON_CTRL_en le) then
    let (k, s) := s.draw 64
    monTo le 1 (s.modEng le fun e => { e with mon := { e.mon with key := k, since := s.now } })
  else s

/-- R494: device time is stamped for a trigger that starts a capture or waits for one. -/
def monStamp (le : Nat) (s : State) : State :=
  (s.setF (F.MON_TRIG_T_LO_time le) s.now).setF (F.MON_TRIG_T_HI_time le) (s.now / 2 ^ 32)

/-- R494: the pre-trigger part of a capture in 64-byte units: `pre` × len ÷ 256, none for one from a pending trigger. -/
def monPre (le : Nat) (armed : Bool) (s : State) : State :=
  let n := if armed then s.cur (F.MON_CAP_pre le) * s.cur (F.MON_CAP_LEN_len le) / 256 else 0
  s.modEng le fun e => { e with mon := { e.mon with pre := n } }

/-- R494, R496: the engine condition chosen by MON_CAP.evt: los_raw, lol_raw, a subcarrier not LOCKED, oof_raw of stream 0. -/
def monCondition (s : State) (le : Nat) : Bool :=
  match s.cur (F.MON_CAP_evt le) with
  | 0 => s.on (F.LE_RX_STATE_los_raw le)
  | 1 => s.on (F.LE_RX_STATE_lol_raw le)
  | 2 => s.scOf le (s.cur (F.MON_CTRL_sc le)) != 3
  | _ => Tbl.get 0 (s.eng le).glf.frame 0 != 2

/-- R494: a trigger. -/
def monTrigger (le : Nat) (s : State) : State :=
  let drop (s : State) := State.evt (monPage le) 1 (s.bump (F.MON_TRIG_OVL_count le) 1)
  match s.g (F.MON_STAT_state le) with
  | 1 => monPre le true (monStamp le (s.setF (F.MON_STAT_state le) 2))
  | 2 => if s.on (F.MON_STAT_pending le) then drop s else monStamp le (s.setB (F.MON_STAT_pending le) true)
  | 3 => s.bump (F.MON_TRIG_OVL_count le) 1
  | _ => s

/-- R494: MON_CMD.trig_go, where the host is the trigger source in force. -/
def monTrigGo (le : Nat) (s : State) : State := if s.cur (F.MON_CAP_trig_src le) = 0 then monTrigger le s else s
/-- R494: MON_CMD.rearm. -/
def monRearm (le : Nat) (s : State) : State := if s.g (F.MON_STAT_state le) = 3 then monTo le 1 s else s

/-- The address of MON_CMD. -/
def monCmd (le : Nat) : Nat := 0xE8058 + 0x2000 * le

/-- MON_TRIG_GO -/
def execMonTrigGo (m : Master) (le : Fin 2) (s : State) : Host.Outcome State Fault Refusal :=
  .next (s.goWrite m (monCmd le.val) false (monTrigGo le.val))

/-- MON_ABORT -/
def execMonAbort (m : Master) (le : Fin 2) (s : State) : Host.Outcome State Fault Refusal :=
  .next (s.goWrite m (monCmd le.val) false (monAbort le.val))

/-- MON_REARM -/
def execMonRearm (m : Master) (le : Fin 2) (s : State) : Host.Outcome State Fault Refusal :=
  .next (s.goWrite m (monCmd le.val) false (monRearm le.val))

/-- R492: values saturated in the chain. -/
def monSat (le : Nat) (n : Nat) (s : State) : State :=
  if n = 0 then s else State.evt (monPage le) 3 (s.bump (F.MON_SAT_count le) n)

/-- MON_TRIGGER. R494: the chosen detector crosses its threshold or the chosen engine condition rises; `sat` values have been
saturated since the chain's last command. -/
def execMonTrigger (le : Fin 2) (sat : Word) (s : State) : Host.Outcome State Fault Refusal :=
  if monUp s le.val ∧ s.curOn (F.MON_CTRL_en le.val) then
    let src := s.cur (F.MON_CAP_trig_src le.val)
    let s := monSat le.val sat.toNat s
    .next (if src = 1 ∨ src = 2 ∧ monCondition s le.val then monTrigger le.val s else s)
  else .next s

/-- CAP_DONE. R494, R495: a capture of `units` × 64 bytes ends: its length reached, or short with the staging FIFO full
(dest MEMORY, whose samples are BUF_MEM_WRITE commands of source 1); an on-chip capture is the words given. -/
def execCapDone (le : Fin 2) (units : BitVec 28) (sat : Word) (words : List Word) (s : State) :
    Host.Outcome State Fault Refusal :=
  let le := le.val
  let len := s.cur (F.MON_CAP_LEN_len le)
  let chip := s.cur (F.MON_CAP_dest le) == 0
  if monUp s le ∧ s.g (F.MON_STAT_state le) = 2 ∧ units.toNat ≤ len ∧
      (chip → units.toNat = len ∧ words.length = 16 * len) then
    let short := decide (units.toNat < len)
    let s := monSat le sat.toNat s
    let s := if chip then s.modEng le fun e =>
        { e with mon := { e.mon with buffer :=
            (words.zipIdx.foldl (fun b w => Tbl.set 0 b (w.2 % 16384) w.1.toNat) e.mon.buffer) } }
      else s
    let s := (s.setF (F.MON_STAT_length le) units.toNat).setB (F.MON_STAT_overrun le) short
    let s := State.evt (monPage le) 0 (s.incWrap (F.MON_CAP_SEQ_count le) 1)
    let s := if short then State.evt (monPage le) 2 s else s
    .next (if s.on (F.MON_STAT_pending le) then monPre le false (s.setB (F.MON_STAT_pending le) false)
      else if s.curOn (F.MON_CAP_one_shot le) then monTo le 3 s else monTo le 1 s)
  else .next s

/-! ## The monitor set (R491, R497) -/

/-- R491, R497: taps × output rate is at most 1.4 × 10^12 per second. Fs is 1.2 × Rs; a subcarrier's stream runs at Rs ÷ N. -/
def monRateOk (t : Tbl Nat) (s : State) (le : Nat) : Bool :=
  let (st, taps) := monPreset t le
  let rs := rxBaud s.inForce le * 250000000
  if look t (F.MON_CTRL_tap le) = 2 then decide (taps * rs ≤ 1400000000000 * 2 ^ st * 2 ^ s.cur (F.LE_RX_PLAN_sc_count le))
  else decide (taps * rs * 6 ≤ 1400000000000 * 2 ^ st * 5)

/-- R495, R497: the pages of a memory capture: first page within the capture region and their number. -/
def monArea (t : Tbl Nat) (le : Nat) : Nat × Nat :=
  (look t (F.MON_CAP_AREA_page le), (look t (F.MON_CAP_LEN_len le) + 1023) / 1024)

/-- R497: the reason a monitor set is rejected with. -/
def monCheck (le : Nat) (t : Tbl Nat) (s : State) : Nat :=
  let v (f : Nat → Field) := look t (f le)
  let mem := v F.MON_CAP_dest == 1
  let (a, n) := monArea t le
  let (b, m) := monArea s.inForce (1 - le)
  firstFail
    [ (0x01, 4 ≤ v F.MON_CTRL_s && v F.MON_CTRL_s ≤ 13 && 1 ≤ v F.MON_CTRL_taps && v F.MON_CTRL_taps ≤ 384 &&
        4 ≤ v F.MON_DET_rms_k && v F.MON_DET_rms_k ≤ 20 && v F.MON_DET_decay_k ≤ 24 &&
        (v F.MON_CTRL_tap == 0 || v F.MON_CTRL_sel ≤ 1)),
      (0x02, v F.MON_CTRL_preset ≤ 4 && v F.MON_CTRL_tap != 3 && v F.MON_CAP_trig_src != 3 && v F.MON_CAP_trig_det != 3),
      (0xEA, monRateOk t s le),
      (0xEB, !mem || (a + n ≤ s.cur F.BUF_CAPTURE_SIZE_pages &&
        (s.cur (F.MON_CAP_dest (1 - le)) == 0 || a + n ≤ b || b + m ≤ a))),
      (0x03, (v F.MON_CTRL_tap != 2 || ((s.cur (F.LE_RX_SC_EN_en le)).testBit (v F.MON_CTRL_sc) &&
          v F.MON_CTRL_sc < 2 ^ s.cur (F.LE_RX_PLAN_sc_count le))) &&
        (mem || v F.MON_CAP_LEN_len ≤ 1024)) ]

/-- R497: the set has come into force. -/
def monApply (le : Nat) (s : State) : State := if monUp s le then monTake le s else s

end Sys2Proof.Machine
end

