-- ==== Sys2Proof/Machine/Repair.lean ====
section
/-! DEFINITION. The repair manager: trim sets, converter spares, periodic tests, resource classes
(17_calibration_and_repair.md). Repair swaps and start steps, which can stop an engine, are in Engine.lean. -/
namespace Sys2Proof.Machine

/-- Changes repair-manager storage. -/
def modRep (f : Rep → Rep) (s : State) : State := { s with rep := f s.rep }

/-! ## Trim sets (R498 to R502) -/

/-- The trim points, °C. -/
def trimPoint (i : Nat) : Int := ([-40, 0, 25, 55, 85, 110] : List Int).getD i 110

/-- The lower of the trim points that bracket a temperature in 0.125 °C. -/
def trimLower (t : Int) : Nat := ((List.range 5).filter fun i => 8 * trimPoint i ≤ t).foldl max 0

/-- The engine temperature read last, 0.125 °C (R500, R517). -/
def engineTemp (s : State) (le : Nat) : Int := signed 16 (s.g (F.CAL_ENG_STAT_die_temp le))

/-- A trim field of the set of point `t`: gain, offset and skew of a unit, or swing and peaking of a lane (position 127). -/
def trimField (le : Nat) (dac : Bool) (lane pos t c : Nat) : Field :=
  if pos = 127 then (if c = 0 then F.TRIM_LANE_swing le t lane else F.TRIM_LANE_peaking le t lane)
  else if dac then
    match c with
    | 0 => F.TRIM_DAC_gain le t (34 * lane + pos)
    | 1 => F.TRIM_DAC_offset le t (34 * lane + pos)
    | _ => F.TRIM_DAC_skew le t (34 * lane + pos)
  else
    match c with
    | 0 => F.TRIM_ADC_gain le t (68 * lane + pos)
    | 1 => F.TRIM_ADC_offset le t (68 * lane + pos)
    | _ => F.TRIM_ADC_skew le t (68 * lane + pos)

/-- A trim value; lane settings are unsigned. -/
def trimValue (s : State) (le : Nat) (dac : Bool) (lane pos t c : Nat) : Int :=
  let f := trimField le dac lane pos t c
  if pos = 127 then (s.g f : Int) else signed f.width (s.g f)

/-- R500: the interpolated value at a temperature, × 4,800. -/
def interpolated (s : State) (le : Nat) (dac : Bool) (lane pos c : Nat) (t : Int) : Int :=
  let v i := trimValue s le dac lane pos i c
  let i := trimLower t
  let a := 8 * trimPoint i
  let b := 8 * trimPoint (i + 1)
  if t < a then v 0 * 4800 else if b < t then v 5 * 4800
  else v i * 4800 + (v (i + 1) - v i) * (t - a) * (4800 / (b - a))

/-- Component `c` of a triple. -/
def comp (v : Int × Int × Int) (c : Nat) : Int := if c = 0 then v.1 else if c = 1 then v.2.1 else v.2.2

/-- R153, R176: the unit stays interleaved although it is faulty; its calibration is frozen. -/
def unitFrozen (s : State) (le : Nat) (dac : Bool) (lane pos : Nat) : Bool :=
  pos != 127 && (repUnit s le dac lane pos).lost && Tbl.get false s.rep.kept (convKey le dac lane)

/-- R500: the working values of an entry. -/
def workSet (le : Nat) (dac : Bool) (lane pos : Nat) (s : State) : State :=
  if unitFrozen s le dac lane pos then s else
  let k := convKey le dac lane * 128 + pos
  let t := engineTemp s le
  let d := Tbl.get (0, 0, 0) s.rep.live k
  let w c := roundEven (interpolated s le dac lane pos c t + comp d c) 4800
  modRep (fun r => { r with work := Tbl.set (0, 0, 0) r.work k (w 0, w 1, if pos = 127 then 0 else w 2) }) s

/-- R500: every working value of an engine. -/
def workAll (le : Nat) (s : State) : State :=
  let s := s.forEach (List.range 272) fun i => workSet le false (i / 68) (i % 68)
  let s := s.forEach (List.range 136) fun i => workSet le true (i / 34) (i % 34)
  s.forEach (List.range 4) fun l => workSet le true l 127

/-- R501: the trim point within 3 °C of the engine temperature, with learn_en. -/
def learnPoint (s : State) (le : Nat) : Option Nat :=
  let t := engineTemp s le
  if s.on (F.CAL_ENG_CTRL_learn_en le) then
    (List.range 6).find? fun i => 8 * trimPoint i - 24 ≤ t && t ≤ 8 * trimPoint i + 24
  else none

/-- R501: component `c` of an entry is measured at the engine temperature: the live correction takes the difference, or the
trim point within 3 °C absorbs it. -/
def learn (le : Nat) (dac : Bool) (lane pos c : Nat) (measured : Int) (s : State) : State :=
  let k := convKey le dac lane * 128 + pos
  let t := engineTemp s le
  let d := measured * 4800 - interpolated s le dac lane pos c t
  let keep (d : Int) (s : State) : State :=
    let v := Tbl.get (0, 0, 0) s.rep.live k
    let n := if c = 0 then (d, v.2.1, v.2.2) else if c = 1 then (v.1, d, v.2.2) else (v.1, v.2.1, d)
    modRep (fun r => { r with live := Tbl.set (0, 0, 0) r.live k n }) s
  match learnPoint s le with
  | some i =>
    let lo := trimLower t
    let span := 8 * (trimPoint (lo + 1) - trimPoint lo)
    let w := if t < 8 * trimPoint 0 ∨ 8 * trimPoint 5 < t then span
      else if i = lo then 8 * trimPoint (lo + 1) - t else t - 8 * trimPoint lo
    let f := trimField le dac lane pos i c
    let v := roundEven (trimValue s le dac lane pos i c * (4800 * w) + d * span) (4800 * w.toNat)
    let m := (2 : Int) ^ (f.width - 1)
    keep 0 (s.setF f (if pos = 127 then (clampI 0 255 v).toNat else unsigned f.width (clampI (-m) (m - 1) v)))
  | none => keep d s

/-- R501: a calibration has measured an entry; its working value follows. -/
def trimLearn (le : Nat) (dac : Bool) (c : UnitCal) (s : State) : State :=
  let l := c.lane.val
  let p := c.pos.val
  let point := learnPoint s le
  let s := workSet le dac l p (learn le dac l p 2 c.newSkew (learn le dac l p 1 c.newOffset (learn le dac l p 0 c.newGain s)))
  match point with
  | some i => State.evt 0xF0 3 (s.setF (F.CAL_ENG_STAT_learned le) (s.g (F.CAL_ENG_STAT_learned le) ||| 2 ^ i))
  | none => s

/-- TRIM_WRITE. R502: word `w` of a trim set is written, while the engine is STOPPED. -/
def trimWrite (m : Master) (le t w value : Nat) (s : State) : State :=
  let addr := 0x320000 + 0x4000 * le + 0x800 * t + 4 * w
  s.goWrite m addr true fun s =>
    if s.runState le ≠ 0 then s.refuse (mcode m) .denied addr
    else
      let put (dac : Bool) (lane pos : Nat) (s : State) : State :=
        ((s.setF (trimField le dac lane pos t 0) (value / 2 ^ 20)).setF (trimField le dac lane pos t 1) (value / 2 ^ 10)).setF
          (trimField le dac lane pos t 2) value
      if w < 272 then put false (w / 68) (w % 68) s
      else if w < 408 then put true ((w - 272) / 34) ((w - 272) % 34) s
      else if w < 412 then
        (s.setF (F.TRIM_LANE_swing le t (w - 408)) (value / 256)).setF (F.TRIM_LANE_peaking le t (w - 408)) value
      else s

/-- TRIM_WRITE -/
def execTrimWrite (m : Master) (le : Fin 2) (t : Fin 6) (w : Fin 512) (value : Word) (s : State) :
    Host.Outcome State Fault Refusal :=
  .next (trimWrite m le.val t.val w.val value.toNat s)

/-! ## Converter units (R503 to R506) -/

/-- Gives a unit a state. -/
def setUnit (le : Nat) (dac : Bool) (lane pos : Nat) (u : RepUnit) (s : State) : State :=
  modRep (fun r => { r with units := Tbl.set (unitAtWake dac pos) r.units (convKey le dac lane * 128 + pos) u }) s

/-- Units interleaved: ACTIVE, less those counted out unless the committed baud keeps them in (R153, R176). -/
def unitsInUse (s : State) (le : Nat) (dac : Bool) (lane : Nat) : List Nat :=
  let kept := Tbl.get false s.rep.kept (convKey le dac lane)
  unitsWhere s le dac lane fun u => u.st == 3 && (!u.lost || kept)

/-- The spares of a converter: IDLE, CAL or READY (R512). -/
def convSpares (s : State) (le : Nat) (dac : Bool) (lane : Nat) : List Nat :=
  unitsWhere s le dac lane fun u => u.st ≤ 2

/-- R151, R177: the maps of a converter follow its units; an ADC's read as at reset while its engine is STOPPED. -/
def convMap (le : Nat) (dac : Bool) (lane : Nat) (s : State) : State :=
  let n := (unitsInUse s le dac lane).length
  let sp := convSpares s le dac lane
  if dac then
    let s := s.setF (F.LE_TX_DAC_MAP_in_use le lane) n
    let s := s.setF (F.LE_TX_DAC_MAP_spare_a le lane) (sp.getD 0 0x3F)
    s.setF (F.LE_TX_DAC_MAP_spare_b le lane) (sp.getD 1 0x3F)
  else
    let run := s.runState le != 0
    let sp := if run then sp else []
    let s := s.setF (F.LE_RX_ADC_MAP_in_use le lane) (if run then n else 0)
    let s := s.setF (F.LE_RX_ADC_MAP_spares le lane) sp.length
    let s := s.setF (F.LE_RX_ADC_MAP_calibrating le lane)
      (if run then (unitsWhere s le dac lane fun u => u.st == 1).getD 0 0x7F else 0x7F)
    let s := (s.setF (F.LE_RX_ADC_SPARE_spare3 le lane) (sp.getD 0 0x7F)).setF (F.LE_RX_ADC_SPARE_spare2 le lane) (sp.getD 1 0x7F)
    (s.setF (F.LE_RX_ADC_SPARE_spare1 le lane) (sp.getD 2 0x7F)).setF (F.LE_RX_ADC_SPARE_spare0 le lane) (sp.getD 3 0x7F)

/-- R153, R176: fewer units are interleaved on a lane than an engine can run with. -/
def convStarved (s : State) (le : Nat) (dac : Bool) (lane : Nat) : Bool :=
  (unitsInUse s le dac lane).length < (if dac then 24 else 48)

/-- The maps and the symbol-rate limit follow a converter's units. -/
def convReport (le : Nat) (dac : Bool) (lane : Nat) (s : State) : State :=
  let s := convMap le dac lane s
  if dac then txBaudMax le s else rxBaudMax le s

/-- The page and event of a converter's swap and fault: SLICE_SWAP, SLICE_FAULT, SUBDAC_SWAP, SUBDAC_FAULT. -/
def convEvent (le : Nat) (dac fault : Bool) (s : State) : State :=
  if dac then State.evt (lep le 0x16) (if fault then 5 else 4) s else State.evt (lep le 0x19) fault.toNat s

/-- R504, R506: residuals within `k` times the calibration limits. -/
def calWithin (dac : Bool) (k : Int) (c : UnitCal) : Bool :=
  let lim (x l : Int) := decide (-(k * l) ≤ x) && decide (x ≤ k * l)
  if dac then lim c.gain 15 && lim c.offset 128 && lim c.skew 40 else lim c.gain 10 && lim c.offset 64 && lim c.skew 20

/-- R506: residuals beyond the fault limits of an active unit. -/
def calFault (dac : Bool) (c : UnitCal) : Bool :=
  if dac then !calWithin true 8 c
  else
    let lim (x l : Int) := decide (-l ≤ x) && decide (x ≤ l)
    !(lim c.gain 200 && lim c.offset 2048 && lim c.skew 200)

/-- R503: the spare to calibrate next: the IDLE unit whose last calibration lies longest back; an ADC spare without its pilot
step counts once the engine is LOCKED (R507). -/
def calCandidate (s : State) (le : Nat) (dac : Bool) (lane : Nat) : Option Nat :=
  let locked := s.g (F.LE_RX_STATE_state le) == 5
  leastBy (fun p => (repUnit s le dac lane p).calAt)
    (unitsWhere s le dac lane fun u => u.st == 0 || (u.st == 2 && !dac && !u.pilot && locked))

/-- SPARE_CAL_START. R503: one unit of a converter at a time. -/
def execSpareCalStart (le : Fin 2) (dac : Bool) (lane : Fin 4) (s : State) : Host.Outcome State Fault Refusal :=
  let le := le.val
  let lane := lane.val
  if s.runState le = 0 ∨ unitsWhere s le dac lane (fun u => u.st == 1) ≠ [] then .next s
  else
    match calCandidate s le dac lane with
    | none => .next s
    | some p => .next (convMap le dac lane (setUnit le dac lane p { repUnit s le dac lane p with st := 1, tries := 0 } s))

/-- SPARE_CAL_END. R503, R506: an attempt on the unit in CAL ends; `pilot`: the pilot step ran, as an ADC slice's can while the engine is
LOCKED. -/
def execSpareCalEnd (le : Fin 2) (dac : Bool) (c : UnitCal) (pilot : Bool) (s : State) : Host.Outcome State Fault Refusal :=
  let le := le.val
  let lane := c.lane.val
  let p := c.pos.val
  let u := repUnit s le dac lane p
  if p < convSize dac ∧ u.st = 1 then
    if calFault dac c then
      .next (convReport le dac lane (setUnit le dac lane p { u with st := 4 } s))
    else if calWithin dac 1 c then
      let s := setUnit le dac lane p
        { u with st := 2, tries := 0, calAt := s.now, calTemp := engineTemp s le, pilot := pilot && !dac && s.g (F.LE_RX_STATE_state le) == 5 } s
      .next (convReport le dac lane (trimLearn le dac c s))
    else if u.tries + 1 < 3 then .next (setUnit le dac lane p { u with tries := u.tries + 1 } s)
    else .next (State.evt 0xF0 2 (convReport le dac lane (setUnit le dac lane p { u with st := 4 } s)))
  else .next s

/-- R505: the rotation timers of an engine start, those of the converters of a kind a quarter of the interval apart. -/
def rotationStart (le : Nat) (s : State) : State :=
  s.forEach (List.range 8) fun i s =>
    let dac := i / 4 == 1
    let ms := if dac then s.g (F.CAL_ENG_ROT_dac_rot_ms le) else s.g (F.CAL_ENG_ROT_adc_rot_ms le)
    modRep (fun r => { r with swapAt := Tbl.set 0 r.swapAt (convKey le dac (i % 4)) (s.now + i % 4 * ms * 250000) }) s

/-- ROTATION_SWAP. R505: at a swap boundary the spare takes the place of the unit active longest since its calibration. -/
def execRotationSwap (le : Fin 2) (dac : Bool) (lane : Fin 4) (s : State) : Host.Outcome State Fault Refusal :=
  let le := le.val
  let lane := lane.val
  let k := convKey le dac lane
  let en := if dac then s.on (F.CAL_ENG_CTRL_dac_rot_en le) else s.on (F.CAL_ENG_CTRL_adc_rot_en le)
  let ms := if dac then s.g (F.CAL_ENG_ROT_dac_rot_ms le) else s.g (F.CAL_ENG_ROT_adc_rot_ms le)
  let ready := unitsWhere s le dac lane fun u => u.st == 2 && (dac || u.pilot)
  let out := leastBy (fun p => (repUnit s le dac lane p).since) (unitsWhere s le dac lane fun u => u.st == 3)
  match ready, out with
  | sp :: _, some old =>
    if en ∧ s.runState le = 2 ∧ ¬ s.on (F.LE_TX_PLAN_STAT_reload_busy le) ∧
        (dac ∨ s.g (F.LE_RX_STATE_state le) = 5) ∧ unitsWhere s le dac lane (fun u => u.faulty) = [] then
      let s := s.reach (Tbl.get 0 s.rep.swapAt k + ms * 1000000)
      let s := modRep (fun r => { r with swapAt := Tbl.set 0 r.swapAt k s.now }) s
      let s := setUnit le dac lane sp { repUnit s le dac lane sp with st := 3, since := s.now } s
      let s := setUnit le dac lane old { repUnit s le dac lane old with st := 0, pilot := false } s
      let s := if dac then s else s.bump (F.LE_RX_ADC_ROT_CNT_count le) 1
      .next (trimsTake le dac (convReport le dac lane (convEvent le dac false s)))
    else .next s
  | _, _ => .next s

/-- UNIT_FAULT. R506: a unit is declared faulty; one in CAL fails at once, other units out of service are judged only by their
calibration. -/
def execUnitFault (le : Fin 2) (dac : Bool) (lane : Fin 4) (pos : Fin 68) (s : State) : Host.Outcome State Fault Refusal :=
  let le := le.val
  let lane := lane.val
  let p := pos.val
  let u := repUnit s le dac lane p
  if p < convSize dac ∧ s.runState le ≠ 0 then
    if u.st = 3 ∧ ¬ u.faulty then .next (convEvent le dac true (setUnit le dac lane p { u with faulty := true } s))
    else if u.st = 1 then .next (convReport le dac lane (setUnit le dac lane p { u with st := 4 } s))
    else .next s
  else .next s

/-- The resource class of a converter (R512). -/
def convClass (le : Nat) (dac : Bool) : Nat := 3 * le + dac.toNat

/-- R506: a READY spare takes the place of a faulty unit. -/
def repairUnit (le : Nat) (dac : Bool) (lane old sp : Nat) (s : State) : State :=
  let s := setUnit le dac lane sp { repUnit s le dac lane sp with st := 3, since := s.now } s
  let s := setUnit le dac lane old { repUnit s le dac lane old with st := 4, faulty := false, lost := false } s
  let s := s.bump (F.REP_CLASS_SWAPS_count (convClass le dac)) 1
  let s := if dac then s else s.bump (F.LE_RX_ADC_REP_CNT_count le) 1
  let s := modRep (fun r => { r with swapAt := Tbl.set 0 r.swapAt (convKey le dac lane) s.now }) s
  convEvent le dac false s

/-- R153, R176, R506: at a swap boundary each faulty unit is replaced by the lowest READY spare; with no spare of any kind it is
counted out of the converter. -/
def repairFaulty (le : Nat) (dac : Bool) (lane : Nat) (s : State) : State :=
  s.forEach (unitsWhere s le dac lane fun u => u.faulty) fun p s =>
    match unitsWhere s le dac lane fun u => u.st == 2 with
    | sp :: _ => repairUnit le dac lane p sp s
    | [] => if convSpares s le dac lane = [] then setUnit le dac lane p { repUnit s le dac lane p with lost := true } s else s

/-- R153, R176: units counted out stay interleaved while the committed baud exceeds the limit that is left. -/
def repairKeep (le : Nat) (dac : Bool) (lane : Nat) (s : State) : State :=
  let baud := if dac then txBaud s.inForce le else rxBaud s.inForce le
  let limit := min 1120 (35 * convWorking s le dac / (if dac then 1 else 2))
  let kept := decide (limit < baud) && unitsWhere s le dac lane (fun u => u.lost) != []
  modRep (fun r => { r with kept := Tbl.set false r.kept (convKey le dac lane) kept }) s

/-- R506: as an engine reaches STOPPED, pending repair swaps are made and units still marked faulty become FAILED. -/
def repairStopped (le : Nat) (s : State) : State :=
  s.forEach (List.range 8) fun i s =>
    let dac := i / 4 == 1
    let lane := i % 4
    let s := repairFaulty le dac lane s
    let s := s.forEach (unitsWhere s le dac lane fun u => u.faulty) fun p s =>
      setUnit le dac lane p { repUnit s le dac lane p with st := 4, faulty := false, lost := false } s
    convReport le dac lane (repairKeep le dac lane s)

/-! ## Start steps and foreground calibration (R113, R507) -/

/-- R507: the first `n` units that passed and are not active fill the empty places; the rest become READY. -/
def placeUnits (le : Nat) (dac : Bool) (lane : Nat) (passed : List Nat) (s : State) : State :=
  let now := s.now
  let places := if dac then 32 else 64
  let need := places - (unitsWhere s le dac lane fun u => u.st == 3).length
  let temp := engineTemp s le
  let s := s.forEach (passed.take need) fun p s =>
    setUnit le dac lane p { st := 3, calAt := now, since := now, calTemp := temp } s
  s.forEach (passed.drop need) fun p s => setUnit le dac lane p { st := 2, calAt := now, since := now, calTemp := temp } s

/-- R113, R507: every unit of a kind is calibrated (FAILED ones only in a foreground calibration); `cals` gives what was
measured, a unit not listed passes as it is. Answers the units tested that failed. -/
def calibrate (le : Nat) (dac fg : Bool) (cals : List UnitCal) (s : State) : Nat × State :=
  let bad (lane p : Nat) := cals.any fun c => c.lane.val == lane && c.pos.val == p && !calWithin dac 1 c
  let (n, s) := (List.range 4).foldl (fun (a : Nat × State) lane =>
    let (n, s) := a
    let tested := unitsWhere s le dac lane fun u => fg || u.st != 4
    let fails := tested.filter fun p => bad lane p || (repUnit s le dac lane p).faulty
    let passes := tested.filter fun p => !fails.contains p
    let now := s.now
    let temp := engineTemp s le
    let waiting := passes.filter fun p => (repUnit s le dac lane p).st != 3
    let s := s.forEach passes fun p s =>
      let u := repUnit s le dac lane p
      if u.st = 3 then setUnit le dac lane p { u with calAt := now, since := now, calTemp := temp } s else s
    let s := s.forEach fails fun p s => setUnit le dac lane p { repUnit s le dac lane p with st := 4, faulty := false, lost := false } s
    let s := placeUnits le dac lane waiting s
    (n + fails.length, convReport le dac lane (repairKeep le dac lane s))) (0, s)
  (n, s.forEach (cals.filter fun c => c.pos.val < convSize dac && calWithin dac 1 c) (trimLearn le dac))

/-- R113, R153: every converter of a kind has its full number of working units. -/
def calEnough (s : State) (le : Nat) (dac : Bool) : Bool :=
  allBelow 4 fun l => (if dac then 32 else 64) ≤ (unitsWhere s le dac l fun u => u.st == 3).length

/-- R507, R251: every FEC tile is tested; answers the tiles that failed. -/
def tileTest (le : Nat) (fg : Bool) (fails : List (Fin 26)) (s : State) : Nat × State :=
  let st (t : Nat) := s.g (F.LE_FEC_TILE_STAT_state le t)
  let tested := (List.range 26).filter fun t => fg || st t != 3
  let bad := tested.filter fun t => fails.any fun f => f.val == t
  let ok := tested.filter fun t => !bad.contains t
  let map := s.g (F.LE_FEC_TILE_MAP_map le)
  let active := ok.filter fun t => map.testBit t && st t != 3
  let isSpare (t : Nat) := !map.testBit t && st t != 3
  let waiting := (ok.filter isSpare) ++ (ok.filter fun t => st t == 3)
  let taken := waiting.take (24 - active.length)
  let rest := ((waiting.drop (24 - active.length)).mergeSort (fun a b => decide (a ≤ b)))
  let s := s.setF (F.LE_FEC_TILE_MAP_map le) ((active ++ taken).foldl (fun a t => a + 2 ^ t) 0)
  let s := (s.setF (F.LE_FEC_TILE_SPARE_spare_a le) (rest.getD 0 0x1F)).setF (F.LE_FEC_TILE_SPARE_spare_b le) (rest.getD 1 0x1F)
  let s := s.forEach (List.range 26) fun t s =>
    let s := s.setF (F.LE_FEC_TILE_STAT_marks le t) 0
    s.setF (F.LE_FEC_TILE_STAT_state le t)
      (if (active ++ taken).contains t then 0 else if rest.contains t then 1 else 3)
  (bad.length, fecReport le (s.modFec le fun f => { f with marks := [], waiting := [] }))

/-- R507: a write of CAL_FG.go: a MAINTENANCE target in force with role OFF, nothing running. -/
def fgGo (le kinds : Nat) (s : State) : State :=
  if s.mode = 6 ∧ s.dev.maint.testBit le ∧ s.role le = 0 ∧ s.runState le = 0 ∧ ¬ s.on F.CAL_FG_busy then
    let s := s.setB F.CAL_FG_busy true
    let s := ((s.setF F.CAL_FG_STAT_slices 0).setF F.CAL_FG_STAT_subdacs 0).setF F.CAL_FG_STAT_tiles 0
    modRep (fun r => { r with fgKinds := kinds + 8 * le }) s
  else State.err 0xF2 0 0xF5 s

/-- FG_CAL_GO: a write of CAL_FG with go, which also sets the engine and the kinds. -/
def execFgCalGo (m : Master) (le : Fin 2) (adc dac fec : Bool) (s : State) : Host.Outcome State Fault Refusal :=
  .next (s.goWrite m 0xF2080 false fun s =>
    let s := ((s.setF F.CAL_FG_engine le.val).setB F.CAL_FG_adc adc).setB F.CAL_FG_dac dac
    fgGo le.val (adc.toNat + 2 * dac.toNat + 4 * fec.toNat) (s.setB F.CAL_FG_fec fec))

/-- FG_DONE. R507, R517: the kinds selected have been calibrated and tested. -/
def execFgDone (adc dac : List UnitCal) (tiles : List (Fin 26)) (s : State) : Host.Outcome State Fault Refusal :=
  if s.on F.CAL_FG_busy then
    let k := s.rep.fgKinds
    let le := k / 8
    let s := if k.testBit 0 then
        let (n, s) := calibrate le false true adc s
        s.setF F.CAL_FG_STAT_slices (min n 255)
      else s
    let s := if k.testBit 1 then
        let (n, s) := calibrate le true true dac s
        s.setF F.CAL_FG_STAT_subdacs (min n 255)
      else s
    let s := if k.testBit 2 then
        let (n, s) := tileTest le true tiles s
        s.setF F.CAL_FG_STAT_tiles n
      else s
    let s := modRep (fun r => { r with fgKinds := 0 }) s
    .next (State.evt 0xF0 5 (s.setB F.CAL_FG_busy false))
  else .next s

/-! ## Temperature, loop calibration (R500, R503, R508) -/

/-- R500: an engine's temperature is read. -/
def tempRead (le : Nat) (t : Int) (s : State) : State :=
  let out := decide (t < -320) || decide (880 < t)
  let s := s.setF (F.CAL_ENG_STAT_die_temp le) (unsigned 16 t)
  let s := s.setF (F.CAL_ENG_STAT_lower le) (trimLower t)
  let was := s.on (F.CAL_ENG_STAT_clamped le)
  let s := s.setB (F.CAL_ENG_STAT_clamped le) out
  if out && !was then State.evt 0xF0 4 s else s

/-- TRIM_UPDATE. R500, R503: every 10 ms; `t` in 0.125 °C. A READY unit more than 5 °C from its calibration becomes IDLE. -/
def execTrimUpdate (le : Fin 2) (t : BitVec 16) (s : State) : Host.Outcome State Fault Refusal :=
  let le := le.val
  if s.domainUp 0xF2 then
    let s := s.reach (Tbl.get 0 s.rep.trimAt le + 10000000)
    let s := modRep (fun r => { r with trimAt := Tbl.set 0 r.trimAt le s.now }) s
    let s := tempRead le t.toInt s
    let s := if s.on (F.CAL_ENG_CTRL_interp_en le) then workAll le s else s
    let s := if s.runState le = 2 then s else trimsTake le true s
    let s := if Tbl.get 0 (s.eng le).glf.frame 0 = 2 then s else trimsTake le false s
    .next (s.forEach (List.range 8) fun i s =>
      let dac := i / 4 == 1
      let lane := i % 4
      let stale := unitsWhere s le dac lane fun u =>
        u.st == 2 && (decide (40 < t.toInt - u.calTemp) || decide (40 < u.calTemp - t.toInt))
      if stale = [] then s
      else convMap le dac lane (s.forEach stale fun p s => setUnit le dac lane p { repUnit s le dac lane p with st := 0 } s))
  else .next s

/-- LOOP_CAL_STEP. R429, R508: where the optical engine declares the monitor pairs, a step of at most one code of a lane's swing
and peaking toward the target, or (`inGap`: the reference burst was sent in a gap) what the receive side measured of slices. -/
def execLoopCalStep (le : Fin 2) (lane : Fin 4) (swing peaking : Fin 3) (inGap : Bool) (cals : List UnitCal) (s : State) :
    Host.Outcome State Fault Refusal :=
  let le := le.val
  let lane := lane.val
  let flags := s.g (F.UBH_DECL_bytes le 0) / 256
  let runs := s.on (F.CAL_ENG_CTRL_loop_en le) && s.runState le == 2 && flags.testBit 2 && flags.testBit 3
  let gap := s.g (F.LE_RX_STATE_state le) != 5 || s.role le == 2
  if runs then
    let s := if swing.val = 1 ∧ peaking.val = 1 then s
      else
        let s := s.reach (Tbl.get 0 s.rep.loopAt (4 * le + lane) + 100000000)
        modRep (fun r => { r with loopAt := Tbl.set 0 r.loopAt (4 * le + lane) s.now }) s
    let k := convKey le true lane * 128 + 127
    let v := Tbl.get (0, 0, 0) s.rep.live k
    let step (x : Fin 3) : Int := ((x.val : Int) - 1) * 4800
    let s := modRep (fun r => { r with live := Tbl.set (0, 0, 0) r.live k (v.1 + step swing, v.2.1 + step peaking, 0) }) s
    let s := workSet le true lane 127 s
    .next (if inGap && gap then s.forEach (cals.filter fun c => c.lane.val == lane) (trimLearn le false) else s)
  else .next s

/-! ## Periodic tests (R509 to R511) -/

/-- R509, R352: the next classifier pipe is tested, a suspect one first. -/
def nextPipeTest (s : State) : State :=
  let p := ((List.range 6).find? fun q => s.on (F.CLS_PIPE_STAT_suspect q)).getD s.rep.nextPipe
  if allBelow 6 fun q => s.g (F.CLS_PIPE_STAT_state q) == 0 then
    pipeTestStart p (modRep (fun r => { r with nextPipe := (p + 1) % 6 }) s)
  else s

/-- R461, R509: the DPLL self-test may run now. -/
def dpllTestOk (s : State) : Bool := dpll s == 2 && s.on F.SYN_STAT_hold_valid && !s.on F.SYN_STAT_switching

/-- R374, R509: the march test of the FREE pool entry longest untested; an error makes its page HARD and the entry UNUSABLE. -/
def pageTest (error : Option (Fin 2048)) (s : State) : State :=
  let free := (List.range 4096).filter fun e => (Tbl.get (0, 0) s.buf.remap e).1 == 0
  match leastBy (fun e => Tbl.get 0 s.rep.pageAt e) free with
  | none => s
  | some e =>
    let s := modRep (fun r => { r with pageAt := Tbl.set 0 r.pageAt e s.now }) s
    match error with
    | none => s
    | some w =>
      let a := (258048 + e) * 2048 + w.val
      let s := if s.buf.track.any (fun x => x.addr == a) ∨ 64 ≤ s.buf.track.length then s
        else modBuf (fun b => { b with track := b.track ++ [{ addr := a, count := 1, first := s.now, hard := false }] }) s
      becomeHard a 4 63 s

/-- R509: periodic test `k` is due after an interval (ns) from the last one, or when it was deferred to. -/
def testRun (k interval : Nat) (s : State) : State :=
  let s := s.reach (Tbl.get interval s.rep.testDue k)
  modRep (fun r => { r with testDue := Tbl.insert r.testDue k (s.now + interval) }) s

/-- PERIODIC_TEST. R509: an interval has passed; a DPLL self-test that may not run now is retried after 60 s. -/
def execPeriodicTest (t : Periodic) (s : State) : Host.Outcome State Fault Refusal :=
  if s.on F.REP_CTRL_test_en then
    match t with
    | .pipe => .next (if s.inService then nextPipeTest (testRun 0 (s.g F.REP_TEST_pipe_interval * 1000000000) s) else s)
    | .core c n => execCoreTestStart c n s
    | .page e =>
      .next (if memUp s ∧ s.buf.ret = none then pageTest e (testRun 1 (s.g F.REP_TEST_page_interval * 1000000000) s) else s)
    | .dpll =>
      let s := testRun 2 (s.g F.REP_TEST_dpll_interval * 60000000000) s
      .next (if dpllTestOk s then dpllTest s
        else modRep (fun r => { r with testDue := Tbl.insert r.testDue 2 (s.now + 60000000000) }) s)
  else .next s

/-- REP_PIPE_TEST -/
def execRepPipeTest (m : Master) (s : State) : Host.Outcome State Fault Refusal :=
  .next (s.goWrite m 0xF0048 false nextPipeTest)

/-- R509: a write of REP_CMD.dpll_test: now, or at the next permitted instant (DPLL_TEST_START). -/
def repDpllTest (s : State) : State :=
  if dpllTestOk s then dpllTest s else modRep (fun r => { r with dpllDue := true }) s

/-- REP_DPLL_TEST -/
def execRepDpllTest (m : Master) (s : State) : Host.Outcome State Fault Refusal :=
  .next (s.goWrite m 0xF0048 false repDpllTest)

/-- R509, R511: a write of REP_CMD.mon_test_le0 or mon_test_le1; the test waits while the chain is enabled. -/
def monTestGo (le : Nat) (s : State) : State := modRep (fun r => { r with monTest := Tbl.set false r.monTest le true }) s

/-- MON_TEST -/
def execMonTest (m : Master) (le : Fin 2) (s : State) : Host.Outcome State Fault Refusal :=
  .next (s.goWrite m 0xF0048 false (monTestGo le.val))

/-- MON_TEST_DONE. R511: the RMS detector lies `dev` × 0.01 dB from the expected value. -/
def execMonTestDone (le : Fin 2) (dev : Int) (s : State) : Host.Outcome State Fault Refusal :=
  let le := le.val
  if Tbl.get false s.rep.monTest le ∧ monUp s le ∧ ¬ s.curOn (F.MON_CTRL_en le) then
    let s := modRep (fun r => { r with monTest := Tbl.set false r.monTest le false }) (s.reach (s.now + 10000000))
    let bad := decide (dev < -10) || decide (10 < dev)
    .next (State.evt 0xF0 8 (if le = 0 then s.setB F.REP_STAT_mon_fail_le0 bad else s.setB F.REP_STAT_mon_fail_le1 bad))
  else .next s

/-- PATH_TEST. R509, R510: every hour a 20 ms window of the internal reference through channel `k`, and the tag 51 result of the same sequence. -/
def execPathTest (k : Fin 48) (seen ref : BitVec 24) (s : State) : Host.Outcome State Fault Refusal :=
  if s.on F.REP_CTRL_test_en ∧ s.on F.REP_CTRL_thm_test_en ∧ s.on F.THM_STAT_seq_busy ∧ s.curOn (F.THM_CH_CFG_en k.val) then
    let s := testRun (16 + k.val) 3600000000000 s
    let s := s.reach (s.now + 20000000)
    let bad := decide (ref.toInt.natAbs < (seen.toInt - ref.toInt).natAbs * 1000)
    let f := if k.val < 32 then F.REP_THM_FAIL_LO_bits else F.REP_THM_FAIL_HI_bits
    let b := 2 ^ (k.val % 32)
    let v := s.g f
    let s := s.setF f (if bad then v ||| b else if v.testBit (k.val % 32) then v - b else v)
    .next (if bad then State.evt 0xF0 7 s else s)
  else .next s

/-! ## Resource classes (R512, R513, R516) -/

/-- R304, R323: the lane that is a port's spare is in SPARE. -/
def portSpareReady (s : State) (p : Nat) : Bool := s.on (F.PORT_STAT_spare_ready (p / 8) (p % 8))

/-- Ports that have agreed on sparing (R320). -/
def sparingPorts (s : State) : List Nat :=
  (List.range 32).filter fun p => ((Tbl.get {} s.lanes.port p).features).testBit 0

/-- R512, R516: a class's spares left, units in service and capacity. -/
def classFigures (s : State) (c : Nat) : Nat × Nat × Nat :=
  let conv (le : Nat) (dac : Bool) : Nat × Nat × Nat :=
    let l := (leastBy (fun l => (convSpares s le dac l).length) (List.range 4)).getD 0
    ((convSpares s le dac l).length, (unitsInUse s le dac l).length,
      if dac then s.g (F.LE_TX_BAUD_MAX_baud le) else s.g (F.LE_RX_BAUD_MAX_baud le))
  let tile (le : Nat) : Nat × Nat × Nat :=
    let n := (liveTiles s le).length
    ((if s.g (F.LE_FEC_TILE_SPARE_spare_a le) = 0x1F then 0 else 1) +
      (if s.g (F.LE_FEC_TILE_SPARE_spare_b le) = 0x1F then 0 else 1), n, 118 * n)
  match c with
  | 0 => conv 0 false
  | 1 => conv 0 true
  | 2 => tile 0
  | 3 => conv 1 false
  | 4 => conv 1 true
  | 5 => tile 1
  | 6 => (if allBelow 8 fun k => s.g (F.CIP_CORE_STAT_state k) != 2 then 1 else 0, coresWhere s (· == 0), s.g F.CIP_BUDGET_limit)
  | 7 =>
    let n := ((List.range 6).filter fun p => s.g (F.CLS_PIPE_STAT_state p) == 0).length
    (if allBelow 6 fun p => s.g (F.CLS_PIPE_STAT_state p) != 2 then 1 else 0, n, 16 * n)
  | 8 => (s.g F.BUF_POOL_free, 258048, s.g F.BUF_POOL_free)
  | _ =>
    let ports := sparingPorts s
    let ready := ports.filter (portSpareReady s)
    if ports = [] then (0, 0, 0)
    else
      let p := ((ports.filter fun p => !ready.contains p) ++ ready).headD 0
      ((if ready.length = ports.length then 1 else 0),
        ((List.range 8).filter fun k => s.g (F.HL_LANE_STAT_state (p / 8) k) == 5).length, ready.length)

/-- R512: a class is exhausted. -/
def classExhausted (s : State) (c : Nat) : Bool :=
  if c = 9 then sparingPorts s != [] && (classFigures s 9).1 == 0 else (classFigures s c).1 == 0

/-- R516: a class's registers report its figures and whether it has been reported exhausted. -/
def classStat (s : State) (c : Nat) : Nat × Nat × Nat :=
  let (a, b, v) := classFigures s c
  (min a 127, min b 255, v % 65536)

/-- R91, R98: a mode transition completes. -/
def modeTo (new : Nat) (s : State) : State :=
  let old := s.mode
  let s := if old = new then s else s.setF F.DEV_MODE_mode_prev old
  State.evt 0x00 0 (s.setF F.DEV_MODE_mode new)

/-- R91, R92, R99, R513: the exhausted classes have been reported anew: the status, and SERVICE and DEGRADED. -/
def sparesReport (s : State) : State :=
  let ex := s.g F.REP_STAT_exhausted != 0
  let s := State.level 0x00 4 ex (s.setB F.DEV_STATUS_spares_exhausted ex)
  if s.on F.DEV_MODE_transition then s
  else if s.mode = 4 ∧ ex then modeTo 5 s
  else if s.mode = 5 ∧ ¬ ex then modeTo 4 s
  else s

/-- R512: the host class is exhausted once a port with sparing agreed has had no lane in SPARE for 1 s. -/
def exhaustedAt (s : State) (c : Nat) : Nat :=
  if c = 9 then
    let l := (sparingPorts s).filterMap fun p => (Tbl.get {} s.lanes.port p).bareAt
    match leastBy id l with | some t => t + 1000000000 | none => 0
  else 0

/-- CLASS_EXHAUSTED. R513. -/
def execClassExhausted (c : Fin 10) (s : State) : Host.Outcome State Fault Refusal :=
  let c := c.val
  if s.domainUp 0xF1 ∧ classExhausted s c ∧ ¬ s.on (F.REP_CLASS_STAT_exhausted c) then
    let s := s.reach (exhaustedAt s c)
    let s := (s.setB (F.REP_CLASS_STAT_exhausted c) true).setF F.REP_STAT_exhausted (s.g F.REP_STAT_exhausted ||| 2 ^ c)
    .next (sparesReport (State.evt 0xF0 0 (s.setB F.REP_STAT_degraded_reported true)))
  else .next s

/-- CLASS_RESTORED. R513. -/
def execClassRestored (c : Fin 10) (s : State) : Host.Outcome State Fault Refusal :=
  let c := c.val
  if s.domainUp 0xF1 ∧ ¬ classExhausted s c ∧ s.on (F.REP_CLASS_STAT_exhausted c) then
    let s := (s.setB (F.REP_CLASS_STAT_exhausted c) false).setF F.REP_STAT_exhausted (s.g F.REP_STAT_exhausted - 2 ^ c)
    .next (sparesReport (State.evt 0xF0 1 s))
  else .next s

end Sys2Proof.Machine
end

