-- ==== Sys2Proof/Machine/Counters.lean ====
section
/-! DEFINITION. The event log, the performance counters, freezes and the precise sampler
(18_errors_ordering_and_counters.md). -/
namespace Sys2Proof.Machine

/-! ## Event log (R519 to R524) -/

/-- Changes event-log storage. -/
def modEvl (f : EvLog → EvLog) (s : State) : State := { s with evl := f s.evl }

/-- R522, R523: entries written and not yet consumed. -/
def evlHeld (s : State) : Nat := (s.g F.EVL_HEAD_count + 2 ^ 32 - s.g F.EVL_TAIL_count) % 2 ^ 32

/-- R525: EVL_NEAR_FULL is raw while 768 entries or more are held. -/
def evlNear (s : State) : State := State.level 0xFA 0 (decide (768 ≤ evlHeld s)) s

/-- R522: an entry dropped, overwritten or removed. -/
def evlDrop (s : State) : State := modEvl (fun e => { e with gap := true }) (State.evt 0xFA 1 (s.bump F.EVL_DROP_count 1))

/-- R522: the entry that leaves a full log, as places after the oldest: the oldest EVENT entry under KEEP_ERRORS. -/
def evlVictim (s : State) : Nat :=
  let t := s.g F.EVL_TAIL_count
  if s.g F.EVL_CTRL_policy = 0 then 0
  else ((List.range 1024).find? fun i => match Tbl.find s.evl.slots ((t + i) % 1024) with
    | some e => e.kind == 0
    | none => false).getD 0

/-- R522: the oldest or the chosen entry leaves; those older than it move one place toward the head. -/
def evlRemove (s : State) : State :=
  let t := s.g F.EVL_TAIL_count
  let j := evlVictim s
  let move (sl : Tbl LogEntry) (i : Nat) : Tbl LogEntry := match Tbl.find sl ((t + i) % 1024) with
    | some x => Tbl.insert sl ((t + i + 1) % 1024) x
    | none => sl
  let s := modEvl (fun e => { e with slots := (List.range j).reverse.foldl move e.slots }) (evlDrop s)
  let s := if s.evl.wrapped then s else State.evt 0xFA 2 (modEvl (fun e => { e with wrapped := true }) s)
  s.incWrap F.EVL_TAIL_count 1

/-- R519, R522, R523: an entry is written at the head. -/
def evlWrite (x : LogEntry) (s : State) : State :=
  let full := decide (1024 ≤ evlHeld s)
  let policy := s.g F.EVL_CTRL_policy
  if full && (policy == 1 || (policy != 0 && x.kind == 0)) then evlDrop s
  else
    let s := if full then evlRemove s else s
    let n := Tbl.get 0 s.evl.seqs x.page
    let y := { x with seq := n % 256, gap := s.evl.gap }
    let h := s.g F.EVL_HEAD_count
    let s := modEvl (fun e => { e with
      slots := Tbl.insert e.slots (h % 1024) y, seqs := Tbl.set 0 e.seqs x.page (n + 1), gap := false, last := some x.stamp }) s
    evlNear (State.datapath (s.incWrap F.EVL_HEAD_count 1) 1180 1)

/-- R44, R520: the entry of the sorter that is written next: least stamp, then least page, then first of its page. -/
def evlNext : List LogEntry → Option LogEntry
  | [] => none
  | a :: t => match evlNext t with
    | none => some a
    | some b => if b.stamp < a.stamp ∨ (b.stamp = a.stamp ∧ b.page < a.page) then some b else some a

/-- R520: the next entry leaves the sorter. -/
def evlRelease (s : State) : State :=
  match evlNext s.evl.sorter with
  | none => s
  | some x => evlWrite x (modEvl (fun e => { e with sorter := e.sorter.erase x }) s)

/-- R520: an entry earlier than the last one written takes its stamp. -/
def evlLate (x : LogEntry) (s : State) : LogEntry × State :=
  match s.evl.last with
  | some l => if x.stamp < l then ({ x with stamp := l, late := true }, s.bump F.EVL_LATE_count 1) else (x, s)
  | none => (x, s)

/-- R520: an entry enters the sorter; a full sorter writes its oldest at once. -/
def evlArrive (x : LogEntry) (s : State) : State :=
  let s := if 64 ≤ s.evl.sorter.length then evlRelease s else s
  let (x, s) := evlLate x s
  modEvl (fun e => { e with sorter := e.sorter ++ [x] }) s

/-- EVL_ENTRY. R518, R520: the oldest entry that source page `p` has made reaches the sorter. -/
def execEvlEntry (p : Fin 256) (s : State) : Host.Outcome State Fault Refusal :=
  match s.ev.made.find? fun e => e.page == p.val with
  | none => .next s
  | some x => .next (evlArrive x { s with ev := { s.ev with made := s.ev.made.erase x } })

/-- SORTER_RELEASE. R520: the stamp of the next entry lies 20 µs back, or the sorter is full. -/
def execSorterRelease (s : State) : Host.Outcome State Fault Refusal :=
  match evlNext s.evl.sorter with
  | none => .next s
  | some x => .next (evlRelease (if 64 ≤ s.evl.sorter.length then s else s.reach (x.stamp + 20000)))

/-- FOLD_WINDOW_END. R521: the window of a page, kind (0 EVENT, 2 LOSS) and code ends; what it has folded makes an entry, which
opens a new window. -/
def execFoldWindowEnd (p : Fin 256) (loss : Bool) (code : Byte) (s : State) : Host.Outcome State Fault Refusal :=
  let kind := if loss then 2 else 0
  let k := (p.val * 4 + kind) * 256 + code.toNat
  match Tbl.find s.ev.fold k with
  | none => .next s
  | some w =>
    let s := s.reach w.ends
    let low := if loss then 0 else if code.toNat = 30 then s.g (F.PAGE_STAT_commit_reason (domainOf p.val))
      else if code.toNat = 25 then s.g (F.ERR_code p.val) else 0
    .next (if s.logRuns then s.foldEnd p.val code.toNat kind low w else { s with ev := { s.ev with fold := Tbl.erase s.ev.fold k } })

/-- R523, R525: a write of EVL_TAIL; a value beyond EVL_HEAD or behind EVL_TAIL is ignored. -/
def evlTail (v : Nat) (s : State) : State :=
  if (v + 2 ^ 32 - s.g F.EVL_TAIL_count) % 2 ^ 32 ≤ evlHeld s then
    evlNear (modEvl (fun e => { e with wrapped := false }) (s.setF F.EVL_TAIL_count v))
  else s

/-- EVL_TAIL_WRITE -/
def execEvlTailWrite (m : Master) (value : Word) (s : State) : Host.Outcome State Fault Refusal :=
  .next (s.goWrite m 0xFA048 false (evlTail value.toNat))

/-- R519: word `w` of an entry. -/
def entryWord (e : LogEntry) (w : Nat) : Nat :=
  match w with
  | 0 => e.stamp % 2 ^ 32
  | 1 => e.stamp / 2 ^ 32 % 2 ^ 32
  | 2 => e.page * 2 ^ 24 + e.seq * 65536 + e.code * 256 + e.kind * 64 + e.late.toNat * 32 + e.gap.toNat * 16
  | _ => e.arg % 2 ^ 32

/-- R523: a word of the event-log window. -/
def evlWindow (s : State) (off : Nat) : Nat :=
  match Tbl.find s.evl.slots (off / 16) with
  | some e => entryWord e (off / 4 % 4)
  | none => 0

/-- R524: the log is emptied. -/
def evlWipe (s : State) : State :=
  let s := { s with evl := {}, ev := { s.ev with made := [], fold := [] } }
  (s.setF F.EVL_HEAD_count 0).setF F.EVL_TAIL_count 0

/-- Everything the sorter holds is written (with the entries on their way to it). -/
def evlFlush (s : State) : State :=
  let s := { s with ev := { s.ev with made := [] } }.forEach s.ev.made evlArrive
  s.forEach (List.range 64) fun _ s => evlRelease s

/-- R524: the reset marker, stamped with the instant at which the reset began. -/
def evlMarker (cause : Nat) (s : State) : State :=
  let (x, s) := evlLate { stamp := s.now, page := 0, code := 0xFE, kind := 3, arg := cause } s
  evlWrite x s

/-! ## Performance counters (R529 to R533) -/

/-- Changes counter storage. -/
def modCnt (f : Cnt → Cnt) (s : State) : State := { s with cnt := f s.cnt }

/-- The value of counter `n`. -/
def cntValue (s : State) (n : Nat) : Nat := s.g (F.CNT_LO_value n) + 2 ^ 32 * s.g (F.CNT_HI_value n)

/-- R532, R533: counter `n` adds; a wrap carries into a chained successor or sets its overflow bit. -/
def cntAdd : Nat → Nat → Nat → State → State
  | 0, _, _, s => s
  | fuel + 1, n, inc, s =>
    let v := cntValue s n + inc
    let s := (s.setF (F.CNT_LO_value n) v).setF (F.CNT_HI_value n) (v / 2 ^ 32)
    let wraps := v / 2 ^ 48
    if wraps = 0 then s
    else if n < 511 ∧ s.on (F.CNT_SEL_chain_in (n + 1)) then
      if s.on (F.CNT_SEL_en (n + 1)) then cntAdd fuel (n + 1) wraps s else s
    else State.evt 0xF8 0 (s.setF (F.CNT_OVF_bits (n / 32)) (s.g (F.CNT_OVF_bits (n / 32)) ||| 2 ^ (n % 32)))

/-- R531: the numbers that are occupancy events. -/
def occupancyEvent (e : Nat) : Bool :=
  (decide (e < 256) && decide (6 ≤ e % 8)) || (decide (777 ≤ e) && decide (e ≤ 779)) ||
  (decide (800 ≤ e) && decide (e < 960) && decide (e % 4 = 3)) ||
  (decide (1064 ≤ e) && decide (e < 1160) && decide (16 ≤ (e - 1064) % 48))

/-- R300: the lane rate of host-lane group `g`, kb/s. -/
def laneRate (s : State) (g : Nat) : Nat :=
  let c := s.cur (F.HL_GRP_CTRL_rate_class g)
  if s.curOn (F.HL_GRP_CTRL_flexo_rate g) then Config.flexoLaneRate c
  else match c with | 0 => 53125000 | 1 => 106250000 | _ => 212500000

/-- R279, R301: the rate of the CBR client of port `p` as the justification of its container reproduces it, kb/s, as a fraction; none
without a container. -/
def clientRate (s : State) (p : Nat) : Option (Nat × Nat) :=
  ((List.range 128).find? fun x => contValid s.inForce (x / 64) (x % 64) && s.cur (F.LE_GLF_CONT_CFG_type (x / 64) (x % 64)) == 1 &&
      s.cur (F.LE_GLF_CONT_CFG_port (x / 64) (x % 64)) == p).map fun x =>
    let k := Tbl.get {} (s.eng (x / 64)).glf.cont (x % 64)
    let r := slotRate s (x / 64) true
    (r.1 * 1000000 * (128 * k.cn + k.cnr), r.2 * 256 * 128)

/-- R301: what times a lane group: its nominal rate `n` from the DPLL, or the client of timing_port within ±200 ppm of it. -/
def groupRate (s : State) (g n : Nat) : Nat :=
  let p := s.cur (F.HL_GRP_CTRL_timing_port g)
  if s.curOn (F.HL_GRP_CTRL_tx_timing g) then
    match clientRate s p with
    | some c =>
      let r := portRate s.inForce p
      let k := n * c.1 / (c.2 * max r 1)
      max (n - n / 5000) (min (n + n / 5000) k)
    | none => n
  else n

/-- R79, R470: the frequency that SYN_INk_CFG.freq names, kHz. -/
def refinClock (s : State) (k : Nat) : Nat :=
  [8, 1544, 2048, 10000, 19440, 25000, 125000, 156250].getD (s.cur (F.SYN_IN_CFG_freq k)) 0

/-- R79: the frequency of an engine's clock domain, in kHz ÷ 128: adc, dac, dsp, fec, lfr, ubh, mon in that order. The converters run
at Fs = 1.2 × Rs divided by the units in use. -/
def engineClock (s : State) (le i : Nat) : Nat :=
  let share (baud n : Nat) : Nat := if n = 0 then 0 else baud * 300000 * 128 / n
  match i with
  | 0 => share (s.g (F.LE_RX_PLAN_STAT_baud_active le)) (s.g (F.LE_RX_ADC_MAP_in_use le 0))
  | 1 => share (s.g (F.LE_TX_PLAN_STAT_baud_active le)) (s.g (F.LE_TX_DAC_MAP_in_use le 0))
  | 3 => 1500000 * 128
  | 4 => 1250000 * 128
  | 5 => 200000 * 128
  | _ => 1750000 * 128

/-- R79: the frequency of clock domain `k`, in kHz ÷ 128 (a lane clock is the lane rate ÷ 128). -/
def domainClock (s : State) (k : Nat) : Nat :=
  if 32 ≤ k then laneRate s ((k - 32) / 8)
  else if 28 ≤ k then groupRate s (k - 28) (laneRate s (k - 28))
  else if 12 ≤ k ∧ k ≤ 25 then engineClock s ((k - 12) / 7) ((k - 12) % 7)
  else 128 * match k with
    | 0 => 2048
    | 1 => 400000
    | 2 => 800000
    | 3 => 1200000
    | 4 => 1000000
    | 5 => if s.mode = 0 then 2048 else 200000
    | 6 => 100000
    | 7 => min 25000 Config.tck
    | 8 => 156250
    | 9 => 1000000
    | 10 => refinClock s 0
    | 11 => refinClock s 1
    | 26 => 1600000
    | _ => 2000000

/-- R531: the clock domain of a datapath event. -/
def eventDomain (e : Nat) : Nat :=
  if e < 832 then 26 else if e < 960 then 27 else if e < 1064 then 15 + 7 * ((e - 960) / 52)
  else if e < 1160 then (if 16 ≤ (e - 1064) % 48 then 14 else 16) + 7 * ((e - 1064) / 48) else 2

/-- R21, R79: the clock domain that page `p` counts in. -/
def pageDomain (p : Nat) : Nat :=
  let le := if 0x50 ≤ p ∧ p ≤ 0x8F then 1 else 0
  let q := p - 0x40 * le
  if 0x14 ≤ q ∧ q ≤ 0x22 then 14 + 7 * le
  else if 0x30 ≤ q ∧ q ≤ 0x32 then 15 + 7 * le
  else if 0x24 ≤ q ∧ q ≤ 0x47 then 16 + 7 * le
  else if 0x90 ≤ p ∧ p ≤ 0x97 then 28 + p % 4
  else if 0xA0 ≤ p ∧ p ≤ 0xBF then 26
  else if 0xC0 ≤ p ∧ p ≤ 0xC7 then 27
  else if 0xC8 ≤ p ∧ p ≤ 0xCF then 26
  else if 0xD0 ≤ p ∧ p ≤ 0xD7 then 9
  else if p = 0xD8 then 17
  else if p = 0xD9 then 24
  else if 0xE0 ≤ p ∧ p ≤ 0xE7 then 0
  else if 0xE8 ≤ p ∧ p ≤ 0xE9 then 18
  else if 0xEA ≤ p ∧ p ≤ 0xEB then 25
  else if 0xFC ≤ p then 1 else 2

/-- Cycles of a clock (in kHz ÷ 128) between two device times (ns). -/
def cyclesBetween (f a b : Nat) : Nat := b * f / 128000000 - a * f / 128000000

/-- Cycles between two device times in which a level hit: it shows `cur` now and showed the values of `l` until the times of `l`. -/
def cyclesWhere (f since now : Nat) (hit : Nat → Bool) (cur : Nat) (l : List (Nat × Nat)) : Nat :=
  let (n, t) := l.foldl (fun a c => (a.1 + (if hit c.2 then cyclesBetween f a.2 (max a.2 c.1) else 0), max a.2 c.1)) (0, since)
  n + (if hit cur then cyclesBetween f t now else 0)

/-- R531: the occupancy an occupancy event shows now: 0 or 1 for SC LOCKED, the packets waiting in the classifier; the depth of
other queues is not fixed by the spec's rules and is a free value. -/
def occupancy (e : Nat) (s : State) : Nat × State :=
  if 1064 ≤ e ∧ e < 1160 then
    ((((s.g (F.LE_RX_SC_LOCK_lock ((e - 1064) / 48))).testBit ((e - 1064) % 48 - 16)).toNat), s)
  else if e = 777 then (s.g F.CLS_RECIRC_LEVEL_recirc, s)
  else if e = 778 then (s.g F.CLS_RECIRC_LEVEL_reorder, s)
  else if e = 779 then (s.g F.CLS_BANK_DRAIN_count, s)
  else s.draw 24

/-- R530: what a running, unchained counter adds for what has occurred since device time `since`. -/
def cntIncrement (since n : Nat) (s : State) : Nat × State :=
  let mode := s.g (F.CNT_SEL_mode n)
  let sel := s.g (F.CNT_SEL_sel n)
  let thr := s.g (F.CNT_THR_thr n)
  if s.on (F.CNT_SEL_src n) then
    let p := sel / 32
    if ¬ definedPage p then (0, s)
    else if mode = 0 then (Tbl.get 0 s.ev.edges sel, s)
    else if mode = 1 then
      (cyclesWhere (domainClock s (pageDomain p)) since s.now (· != 0) ((s.g (F.EVT_RAW p)).testBit (sel % 32)).toNat
        (Tbl.get [] s.ev.was (2048 + sel)), s)
    else (0, s)
  else if occupancyEvent sel then
    if mode = 0 ∨ mode = 3 then (0, s)
    else
      let (o, s) := occupancy sel s
      (cyclesWhere (domainClock s (eventDomain sel)) since s.now (fun o => if mode = 1 then o != 0 else decide (thr < o)) o
        (Tbl.get [] s.ev.was sel), s)
  else
    let l := Tbl.get [] s.ev.incs sel
    match mode with
    | 0 => (l.foldl (· + ·) 0, s)
    | 1 => ((l.filter fun i => i != 0).length, s)
    | 2 => ((l.filter fun i => decide (thr < i)).length, s)
    | _ => (0, s)

/-- R81, R532: the next requests carry the pending pulse counts, and the counters they feed add them. -/
def pulsesTake (s : State) : State :=
  let s := s.forEach s.fab.pulses fun e s =>
    let c := e.1 % 1024
    if c ≠ 0 ∧ s.pageOn 0xF8 ∧ s.on (F.CNT_SEL_en (c - 1)) ∧ ¬ s.on (F.CNT_SEL_chain_in (c - 1)) then cntAdd 512 (c - 1) e.2 s else s
  { s with fab := { s.fab with pulses := [] } }

/-- R530, R532: every running counter takes what its source has accumulated. -/
def cntTake (s : State) : State :=
  let s := pulsesTake s
  let since := s.cnt.takenAt
  let run := (List.range 512).filter fun n => s.pageOn 0xF8 && s.on (F.CNT_SEL_en n) && !s.on (F.CNT_SEL_chain_in n)
  let s := s.forEach run fun n s =>
    let (i, s) := cntIncrement since n s
    if i = 0 then s else cntAdd 512 n i s
  let now := s.now
  modCnt (fun c => { c with takenAt := now }) { s with ev := { s.ev with edges := [], incs := [], was := [] } }

/-- R535: whether page `p` holds its counters' visible values. -/
def pageFrozen (s : State) (p : Nat) : Bool := s.cnt.frozen || Tbl.get false s.cnt.pages p

/-- R529: a write of CNT_SELn: the value stays. -/
def cntSel (n value : Nat) (s : State) : State :=
  let s := cntTake s
  let s := (s.setF (F.CNT_SEL_en n) (value / 2 ^ 31)).setF (F.CNT_SEL_mode n) (value / 2 ^ 29)
  let s := (s.setF (F.CNT_SEL_chain_in n) (value / 2 ^ 28)).setF (F.CNT_SEL_src n) (value / 2 ^ 27)
  s.setF (F.CNT_SEL_sel n) (value / 2 ^ 13)

/-- CNT_SEL_WRITE -/
def execCntSelWrite (m : Master) (n : Fin 512) (value : Word) (s : State) : Host.Outcome State Fault Refusal :=
  .next (s.goWrite m (0x330000 + 0x20 * n.val) false (cntSel n.val value.toNat))

/-- R529: a write of CNT_LOn stages the low word; R535: refused during a freeze. -/
def cntLo (m : Master) (n value : Nat) (s : State) : State :=
  if pageFrozen s 0xF8 then s.refuse (mcode m) .denied (0x330008 + 0x20 * n)
  else modCnt (fun c => { c with stagedLo := Tbl.set 0 c.stagedLo n value }) s

/-- R529, R532: a write of CNT_HIn loads both words and clears sat; R535: refused during a freeze. -/
def cntHi (m : Master) (n value : Nat) (s : State) : State :=
  if pageFrozen s 0xF8 then s.refuse (mcode m) .denied (0x33000C + 0x20 * n)
  else
    let s := cntTake s
    let s := (s.setF (F.CNT_LO_value n) (Tbl.get 0 s.cnt.stagedLo n)).setF (F.CNT_HI_value n) value
    s.setB (F.CNT_SEL_sat n) false

/-- CNT_HI_WRITE -/
def execCntHiWrite (m : Master) (n : Fin 512) (value : Word) (s : State) : Host.Outcome State Fault Refusal :=
  .next (s.goWrite m (0x33000C + 0x20 * n.val) false (cntHi m n.val value.toNat))

/-- CNT_WRAP. R532, R533: an accumulator of `inc` reaches running counter `n` and takes it past 2^48 − 1. -/
def execCntWrap (n : Fin 512) (inc : BitVec 48) (s : State) : Host.Outcome State Fault Refusal :=
  let n := n.val
  if s.on (F.CNT_SEL_en n) ∧ ¬ s.on (F.CNT_SEL_chain_in n) ∧ 2 ^ 48 ≤ cntValue s n + inc.toNat then
    .next (cntAdd 512 n inc.toNat s)
  else .next s

/-! ## Freeze and snapshots (R534 to R536) -/

/-- The instant T is set, `lead` µs ahead. -/
def cntInstant (s : State) : Nat × State :=
  let t := s.now + 1000 * s.g F.CNT_FREEZE_lead
  (t, (s.setF F.CNT_FREEZE_T_LO_value t).setF F.CNT_FREEZE_T_HI_value (t / 2 ^ 32))

/-- R534: a freeze or release begins where the one asked for differs from the one in force and none is in progress. -/
def freezeBegin (s : State) : State :=
  if s.on F.CNT_FREEZE_freeze = s.cnt.frozen ∨ s.on F.CNT_FREEZE_busy then s
  else (cntInstant s).2.setB F.CNT_FREEZE_busy true

/-- R534: a write of CNT_FREEZE. -/
def freezeWrite (v : Nat) (s : State) : State :=
  freezeBegin ((s.setF F.CNT_FREEZE_freeze (v / 2 ^ 31)).setF F.CNT_FREEZE_lead v)

/-- FREEZE_REQUEST -/
def execFreezeRequest (m : Master) (freeze : Bool) (lead : BitVec 16) (s : State) : Host.Outcome State Fault Refusal :=
  .next (s.goWrite m 0xF8040 false (freezeWrite (freeze.toNat * 2 ^ 31 + lead.toNat)))

/-- The page whose counters a field's bit address belongs to. -/
def counterPage (key : Nat) : Nat := pageOf (key / 8)

/-- R53, R534, R535: pages chosen by `p`, not held so far, hold their fields and their snapshot sources (the quality records published
last, device time). -/
def holdPages (p : Nat → Bool) (s : State) : State :=
  let new (k : Nat) : Bool := p (counterPage k) && !pageFrozen s (counterPage k)
  let live := Tbl.overlay (fun k => counterPage k == 0x1D) s.le0.rx.qual
    (Tbl.overlay (fun k => counterPage k == 0x5D) s.le1.rx.qual s.fields)
  let at' := if p 0xD3 && !pageFrozen s 0xD3 then s.now else s.cnt.heldTime
  modCnt (fun c => { c with
    held := Tbl.overlay new live c.held, owed := Tbl.keep (fun k => !new k) c.owed, heldTime := at' }) s

/-- R53, R535: the value of a counter or of a snapshot source: live, or held while its page is frozen. -/
def heldOr (s : State) (f : Field) : Nat := if pageFrozen s (counterPage f.key) then look s.cnt.held f else s.g f

/-- R535: pages chosen by `p` show their live values, less what reads have taken. -/
def releasePages (p : Nat → Bool) (s : State) : State :=
  let mine (k : Nat) : Bool := p (counterPage k)
  let owed := s.cnt.owed.filter fun e => mine e.1
  let s := { s with fields := owed.foldl (fun t e => Tbl.set 0 t e.1 (Tbl.get 0 t e.1 - e.2)) s.fields }
  modCnt (fun c => { c with held := Tbl.keep (fun k => !mine k) c.held, owed := Tbl.keep (fun k => !mine k) c.owed }) s

/-- FREEZE_INSTANT. R534: device time reaches T. -/
def execFreezeInstant (s : State) : Host.Outcome State Fault Refusal :=
  if s.on F.CNT_FREEZE_busy then
    let s := cntTake (s.reach (s.g F.CNT_FREEZE_T_LO_value + 2 ^ 32 * s.g F.CNT_FREEZE_T_HI_value))
    let s := if s.cnt.frozen then
        let s := modCnt (fun c => { c with frozen := false }) s
        let still := s.cnt.pages
        State.evt 0xF8 2 (releasePages (fun p => !Tbl.get false still p) s)
      else
        let s := holdPages (fun _ => true) s
        State.evt 0xF8 1 (modCnt (fun c => { c with frozen := true }) s)
    .next (freezeBegin (s.setB F.CNT_FREEZE_busy false))
  else .next s

/-- R53, R535: PAGE_CTRL.freeze of a page. -/
def pageFreeze (p : Nat) (v : Bool) (s : State) : State :=
  if Tbl.get false s.cnt.pages p = v then s
  else if v then
    let s := holdPages (· == p) (cntTake s)
    modCnt (fun c => { c with pages := Tbl.set false c.pages p true }) s
  else
    let s := modCnt (fun c => { c with pages := Tbl.set false c.pages p false }) (cntTake s)
    if s.cnt.frozen then s else releasePages (· == p) s

/-- R536: PAGE_SNAP.go on page 0xF8 sets the instant of the snapshot. -/
def cntSnapGo (s : State) : State :=
  let (t, s) := cntInstant s
  modCnt (fun c => { c with snapAt := t }) (s.setB (F.PAGE_STAT_snap_busy 0xF8) true)

/-- CNT_SNAPSHOT. R536: at T the live values of the 512 counters are captured. -/
def execCntSnapshot (s : State) : Host.Outcome State Fault Refusal :=
  if s.on (F.PAGE_STAT_snap_busy 0xF8) then
    let s := cntTake (s.reach s.cnt.snapAt)
    let s := s.forEach (List.range 512) fun n s =>
      (s.setF (F.CNT_SNAP_LO_value n) (s.g (F.CNT_LO_value n))).setF (F.CNT_SNAP_HI_value n) (s.g (F.CNT_HI_value n))
    let s := (s.setB (F.PAGE_STAT_snap_busy 0xF8) false).incWrap (F.SNAP_seq 0xF8) 1
    .next (State.evt 0xF8 24 s)
  else .next s

/-! ## Precise sampling (R538 to R541) -/

/-- Changes sampler storage. -/
def modSmp (f : Smp → Smp) (s : State) : State := { s with smp := f s.smp }

/-- Units in flight on a path, oldest first. -/
def smpFlight (s : State) (path : Nat) : List (Nat × Nat) := Tbl.get [] s.smp.flight path

/-- R542: SMP_STAT shows the larger path. -/
def smpReport (s : State) : State :=
  s.setF F.SMP_STAT_inflight (max (smpFlight s 0).length (smpFlight s 1).length)

/-- R538: the countdown reloads. -/
def smpReload (path : Nat) (s : State) : State :=
  let k := s.g F.SMP_CTRL_k
  let j := min (s.g F.SMP_CTRL_j) k
  let put (v : Nat) (s : State) : State := modSmp (fun m => { m with countdown := Tbl.set 0 m.countdown path v }) s
  if j = 0 then put (2 ^ k) s
  else
    let (r, s) := s.draw j
    put (2 ^ k - 2 ^ (j - 1) + r) s

/-- SAMPLE_CHOOSE. R538: the countdown of a path (0 transmit, 1 receive) expires at a unit of a port. -/
def execSampleChoose (path : Fin 2) (port : Fin 32) (s : State) : Host.Outcome State Fault Refusal :=
  if smpOn s path.val port.val ∧ s.inService ∧ Tbl.get 0 s.smp.countdown path.val = 0 then
    let l := smpFlight s path.val
    let s := if 16 ≤ l.length then State.evt 0xF9 1 (s.bump F.SMP_SKIP_count 1)
      else smpReport (modSmp (fun m => { m with flight := Tbl.set [] m.flight path.val (l ++ [(s.now, port.val)]) }) s)
    .next (smpReload path.val s)
  else .next s

/-- R540: the words of a record. -/
def smpWords (path tIn tOut port : Nat) (u : Sampled) : List Nat :=
  let b (x : Bool) (k : Nat) : Nat := x.toNat * 2 ^ k
  let (page, reason) := match u.drop with | some (p, o) => (p.toNat, o.toNat) | none => (0, 0)
  [tIn % 2 ^ 32, tIn / 2 ^ 32, tOut % 2 ^ 32, tOut / 2 ^ 32, min (tOut - tIn) (2 ^ 32 - 1), u.deskew.toNat,
   path * 2 ^ 31 + b u.cbr 30 + (if u.cbr ∨ path = 1 then 0 else u.passes.val) * 2 ^ 28 + u.core.val * 2 ^ 24 + port * 2 ^ 19 +
     u.engine.val * 2 ^ 18 + u.container.val * 2 ^ 12 + u.sa.val,
   (if u.miss1 then 0 else u.rule1.toNat) * 65536 + (if u.miss2 then 0 else u.rule2.toNat),
   (if path = 1 then 0 else u.flow.toNat) * 4096 + b u.bank 11 + b u.miss1 10 + b u.miss2 9 + b (u.tagFail && path == 1) 8 +
     b u.drop.isSome 7,
   reason * 2 ^ 24 + page * 2 ^ 16 + u.length.toNat, u.fc.toNat, u.leaf.val * 65536]

/-- SAMPLE_RECORD. R539 to R541: the unit in flight at place `i` of a path leaves or is dropped. -/
def execSampleRecord (path : Fin 2) (i : Fin 16) (u : Sampled) (s : State) : Host.Outcome State Fault Refusal :=
  match (smpFlight s path.val)[i.val]? with
  | none => .next s
  | some (tIn, port) =>
    let s := smpReport (modSmp (fun m => { m with
      flight := Tbl.set [] m.flight path.val ((Tbl.get [] m.flight path.val).eraseIdx i.val) }) s)
    if s.on F.SMP_STAT_full then .next s
    else
      let base := s.g F.SMP_WR_COUNT_count % 8192 * 16
      let ws := smpWords path.val tIn s.now port u
      let put (t : Tbl Nat) (w : Nat) : Tbl Nat := Tbl.set 0 t (base + w) (ws.getD w 0)
      let s := modSmp (fun m => { m with words := (List.range 16).foldl put m.words }) s
      let s := State.datapath (s.incWrap F.SMP_WR_COUNT_count 1) 1181 1
      let held := min 8192 (s.g F.SMP_STAT_held + 1)
      let s := s.setF F.SMP_STAT_held held
      .next (if s.on F.SMP_CTRL_stop ∧ held = 8192 then State.evt 0xF9 0 (s.setB F.SMP_STAT_full true) else s)

/-- R541: a write of SMP_CTRL with restart. -/
def smpRestart (s : State) : State := (s.setF F.SMP_STAT_held 0).setB F.SMP_STAT_full false

/-- A write of SMP_CTRL. -/
def smpCtrl (v : Nat) (s : State) : State :=
  let s := (s.setF F.SMP_CTRL_en (v / 2 ^ 31)).setF F.SMP_CTRL_stop (v / 2 ^ 30)
  let s := ((s.setF F.SMP_CTRL_path (v / 2 ^ 28)).setF F.SMP_CTRL_k (v / 2 ^ 23)).setF F.SMP_CTRL_j (v / 2 ^ 18)
  let s := (s.setF F.SMP_CTRL_port (v / 2 ^ 13)).setF F.SMP_CTRL_port_en (v / 2 ^ 12)
  if v.testBit 0 then smpRestart s else s

/-- SMP_RESTART: a write of SMP_CTRL with bit 0 set and the other bits as given. -/
def execSmpRestart (m : Master) (value : BitVec 31) (s : State) : Host.Outcome State Fault Refusal :=
  .next (s.goWrite m 0xF9040 false (smpCtrl (2 * value.toNat + 1)))

end Sys2Proof.Machine
end

