-- ==== Sys2Proof/Machine/Engine.lean ====
section
/-! DEFINITION. The run states of a line engine (R35, R112, R113, R157), with what can take an engine out of RUNNING. -/
namespace Sys2Proof.Machine

/-- R35, R506: an engine reaches STOPPED: its pipes power down, its role becomes OFF, its monitor chain stops. -/
def engineStopped (le : Nat) (s : State) : State :=
  let s := (s.setF (F.LE_ROLE_STAT_run_state le) 0).setF (F.LE_ROLE_STAT_role_active le) 0
  let s := (s.setF (F.LE_ROLE_STAT_line_mode_active le) 0).setF (F.LE_ROLE_STAT_single_fibre_active le) 0
  let s := monAbort le (repairStopped le s)
  cipherLoad (txReport le (txEval le (s.modTx le fun t => { t with skip := false })))

/-- R34, R486: with REGEN in force both engines stop. -/
def engineOff (le : Nat) (s : State) : State :=
  if s.role le = 4 then engineStopping 1 (engineStopping 0 s) else engineStopping le s

/-- R35, R55, R112: an engine fails with a step and a code: back to STOPPED, from RUNNING through STOPPING. -/
def engineFail (le step code : Nat) (s : State) : State :=
  if s.runState le = 1 then
    let regen := s.role le = 4
    let s := State.err (lep le 0x10) step code s
    let s := engineStopped le (leafIdle le (s.setF (F.LE_ROLE_STAT_start_step le) step))
    if regen then engineStopping (1 - le) s else s
  else if s.runState le = 2 then engineStopping le (State.err (lep le 0x10) step code s)
  else s

/-- R35: an engine goes from STOPPED to STARTING with the role in force. -/
def engineStart (le : Nat) (s : State) : State :=
  let s := (s.setF (F.LE_ROLE_STAT_run_state le) 1).setF (F.LE_ROLE_STAT_start_step le) 0
  let s := s.setF (F.LE_ROLE_STAT_role_active le) (s.cur (F.LE_ROLE_role le))
  let s := s.setF (F.LE_ROLE_STAT_line_mode_active le) (s.cur (F.LE_ROLE_line_mode le))
  let s := s.setF (F.LE_ROLE_STAT_single_fibre_active le) (s.cur (F.LE_ROLE_single_fibre le))
  let s := s.forEach (List.range 8) fun i s => convReport le (i / 4 == 1) (i % 4) s
  cipherLoad (monTake le s)

/-- R35, R170, R217, R220: the last start step completes: RUNNING. A hub's first map is that of its next build. -/
def engineRun (le : Nat) (s : State) : State :=
  let s := (s.setF (F.LE_ROLE_STAT_run_state le) 2).setF (F.LE_ROLE_STAT_start_step le) 10
  let s := rotationStart le s
  let s := rxGo le 1 (txEval le (fecReport le (rxReport le (txReport le s))))
  let s := losEval le s
  if s.role le = 3 then leafGo le 1 s
  else if s.role le = 2 then s.setF (F.LE_P2MP_APPLY_PN_period le) (nextBuild s le + s.cur (F.LE_P2MP_HUB_CTRL_map_lead le))
  else s

/-- R440: the optical engine does not fit the set in force. -/
def engineUnfit (s : State) (le : Nat) : Bool :=
  let d := declBlock s le
  let flags := byteAt d 1
  let baud := txBaud s.inForce le
  let ramp := s.cur (F.LE_TX_ENV_CTRL_env_mode le) == 2
  let p2mp := s.role le == 2 || s.role le == 3
  !(leNat d 2 2 ≤ baud && baud ≤ leNat d 4 2) || (p2mp && !ramp && (byteAt d 6 < 40 || !flags.testBit 5)) ||
  (s.on (F.LE_ROLE_STAT_single_fibre_active le) && !flags.testBit 4) || (flags.testBit 1 && !ramp)

/-- R112: every member region that the mapping set in force gives the engine's group and pair containers is there. -/
def regionsPresent (s : State) (le : Nat) : Bool :=
  (members s.inForce).all fun e => e.2.2.1 != le || (Tbl.find s.buf.alloc (e.1 * 16 + e.2.1)).isSome

/-- R112: start step `n` is complete. -/
def stepDone (le n : Nat) (s : State) : State := s.setF (F.LE_ROLE_STAT_start_step le) n

/-- R112, R113, R440, R507: the next start step of an engine ends. `ok`: the step's own work succeeded (steps 1, 7 for the
encoder, 8) or its time is not up (steps 2, 10); `cals`, `bad`: what calibration measured and the tiles that fail. -/
def startStep (le : Nat) (ok : Bool) (cals : List UnitCal) (bad : List (Fin 26)) (s : State) : State :=
  match s.g (F.LE_ROLE_STAT_start_step le) with
  | 0 => if ok then stepDone le 1 s else engineFail le 1 0x81 s
  | 1 =>
    if (linkOf s le = 2 ∨ linkOf s le = 3) ∧ (ubh s le).mirrored then
      if engineUnfit s le then engineFail le 2 0x8B s else stepDone le 2 s
    else if ok then s else engineFail le 2 0x82 s
  | 2 =>
    let t := engineTemp s le
    if t < -320 ∨ 880 < t then engineFail le 3 0x83 s else stepDone le 3 (trimsTake le false (trimsTake le true (workAll le s)))
  | 3 => stepDone le 4 (s.modTx le fun t => { t with skip := !txAllowed s le })
  | 4 =>
    let s := (calibrate le false false cals s).2
    if calEnough s le false then stepDone le 5 s else engineFail le 5 0x84 s
  | 5 =>
    let s := (calibrate le true false cals s).2
    if calEnough s le true then stepDone le 6 s else engineFail le 6 0x85 s
  | 6 =>
    let s := (tileTest le false bad s).2
    if ok ∧ 12 ≤ (liveTiles s le).length then stepDone le 7 s else engineFail le 7 0x86 s
  | 7 => if ok then stepDone le 8 s else engineFail le 8 0x87 s
  | 8 => if s.on F.DEV_STATUS_mem_trained ∧ regionsPresent s le then stepDone le 9 s else engineFail le 9 0x88 s
  | _ =>
    if (s.eng le).tx.skip ∨ s.on (F.UBH_STAT_tx_ready le) then engineRun le s
    else if ok then s else engineFail le 10 0x89 s

/-- ENGINE_START_STEP -/
def execEngineStartStep (le : Fin 2) (ok : Bool) (cals : List UnitCal) (bad : List (Fin 26)) (s : State) :
    Host.Outcome State Fault Refusal :=
  .next (if s.runState le.val = 1 then startStep le.val ok cals bad s else s)

/-- ENGINE_STOP_COMPLETE. R35: the last frame in flight is done and the DAC outputs are at zero. -/
def execEngineStopComplete (le : Fin 2) (s : State) : Host.Outcome State Fault Refusal :=
  .next (if s.runState le.val = 3 then engineStopped le.val s else s)

/-! ## Reload (R157, R167) -/

/-- R157, R167: a committed change takes the reload path: DARK, and reception restarts where it shares the clock. -/
def reloadStart (le : Nat) (s : State) : State :=
  let s := histInvalid le (txEval le (s.setB (F.LE_TX_PLAN_STAT_reload_busy le) true))
  let shared := s.on (F.LE_ROLE_STAT_single_fibre_active le) ||
    (s.role le == 1 && txBaud s.inForce le == rxBaud s.inForce le)
  if shared then rxMove le 1 s else s

/-- RELOAD_DONE. R157: the first frame of the new plan leaves, or sub-DAC calibration (`some true`) or the table load (`some
false`) fails. -/
def execReloadDone (le : Fin 2) (fail : Option Bool) (s : State) : Host.Outcome State Fault Refusal :=
  let le := le.val
  if s.on (F.LE_TX_PLAN_STAT_reload_busy le) then
    match fail with
    | some true => .next (engineFail le 6 0x85 s)
    | some false => .next (engineFail le 8 0x87 s)
    | none =>
      let s := s.setB (F.LE_TX_PLAN_STAT_reload_busy le) false
      .next (State.evt (lep le 0x14) 0 (State.evt (lep le 0x14) 1 (txEval le (txReport le s))))
  else .next s

/-! ## Repair swaps, decoder words (R153, R176, R253) -/

/-- REPAIR_SWAP. R153, R176, R506: a swap boundary of a converter with a faulty unit. -/
def execRepairSwap (le : Fin 2) (dac : Bool) (lane : Fin 4) (s : State) : Host.Outcome State Fault Refusal :=
  let le := le.val
  let lane := lane.val
  if unitsWhere s le dac lane (fun u => u.faulty) = [] then .next s
  else
    let s := trimsTake le dac (convReport le dac lane (repairKeep le dac lane (repairFaulty le dac lane s)))
    if s.runState le ≠ 0 ∧ convStarved s le dac lane then
      .next (if dac then engineFail le 6 0x85 s else engineFail le 5 0x84 s)
    else .next s

/-- FEC_BLOCK_DECODE. R247 to R249, R253: a word of stream `k` (or of a burst) leaves a tile; with fewer than 12 tiles active the
engine fails. -/
def execFecBlockDecode (le : Fin 2) (k : Fin 32) (burst : Bool) (d : Decoded) (s : State) : Host.Outcome State Fault Refusal :=
  let le := le.val
  if s.runState le = 2 ∧ (burst ∨ s.syncOf le k.val ≠ 0) then
    let s := fecWord le k.val burst d s
    .next (if (liveTiles s le).length < 12 then engineFail le 7 0x86 s else s)
  else .next s

end Sys2Proof.Machine
end

