-- ==== Sys2Proof/Machine/Thermos.lean ====
section
/-! DEFINITION. Thermos, the Hamper converter (16_housekeeping_and_monitoring.md, R474 to R482), the checks of the Hamper and
Thermos sets, and the step by which an accepted set comes into force (R58). -/
namespace Sys2Proof.Machine

/-! ## A set comes into force (R58 steps 5 and 6) -/

/-- R58: the whole buffered set of commit domain `d` replaces the set in force. -/
def commitTake (d : Nat) (s : State) : State :=
  commitTaken d { s with inForce := Tbl.overlay (inDomain d) s.buffer s.inForce }

/-! ## The Thermos set (R482) -/

/-- Rule `r` of given contents is valid and reads Thermos channel `t`. -/
def ruleReads (c : Tbl Nat) (r t : Nat) : Bool :=
  look c (F.HMP_RULE_CFG_en r) == 1 && look c (F.HMP_RULE_CFG_src r) == 0 && look c (F.HMP_RULE_CFG_index r) == t

/-- The zeroise action of rule `r` (R485 bit 4). -/
def ruleZero (c : Tbl Nat) (r : Nat) : Bool := (look c (F.HMP_RULE_CFG_actions r)).testBit 4

/-- R482, R489: a rule with the zeroise action, in force or staged, reads channel `t`. -/
def zeroReads (s : State) (t : Nat) : Bool :=
  (List.range 32).any fun r => [s.inForce, s.staged].any fun c =>
    ruleZero c r && look c (F.HMP_RULE_CFG_src r) == 0 && look c (F.HMP_RULE_CFG_index r) == t

/-- The configuration fields of channel `t`. -/
def chFields (t : Nat) : List Field :=
  [F.THM_CH_CFG_en t, F.THM_CH_CFG_win t, F.THM_CH_CFG_win_ms t, F.THM_CH_CFG_avg_n t, F.THM_CH_CFG_filt_k t, F.THM_CH_CFG_queue t]

/-- R482: the reason a Thermos set is rejected with. -/
def thmCheck (t : Tbl Nat) (s : State) : Nat :=
  let p := look t F.THM_SEQ_period
  firstFail
    [ (0x01, (p == 0 || 10 ≤ p) && allBelow 52 fun k =>
        1 ≤ look t (F.THM_CH_CFG_win_ms k) && look t (F.THM_CH_CFG_win_ms k) ≤ 1000 &&
        1 ≤ look t (F.THM_CH_CFG_avg_n k) && look t (F.THM_CH_CFG_avg_n k) ≤ 8),
      (0xE8, allBelow 52 fun k => look t (F.THM_CH_CFG_en k) == 1 || (List.range 32).all fun r => !ruleReads s.inForce r k),
      (0x09, allBelow 52 fun k => !differ s.inForce t (chFields k) || !zeroReads s k || Tbl.get false s.thm.sealOk k) ]

/-- R476, R482: a Thermos set has come into force: a newly enabled channel starts its filter anew. -/
def thmApply (old : Tbl Nat) (s : State) : State :=
  let keep (k : Nat) : Bool := look old (F.THM_CH_CFG_en k) == 1
  let at' := if look old F.THM_SEQ_period = s.cur F.THM_SEQ_period then s.thm.timerAt else s.now
  { s with thm := { s.thm with accepted := Tbl.keep keep s.thm.accepted, timerAt := at' } }

/-! ## Sequences and calibration (R477 to R479) -/

/-- Changes Thermos storage. -/
def modThm (f : Thm → Thm) (s : State) : State := { s with thm := f s.thm }

/-- THM_STAT shows the tag converted now; a conversion begins, without REF_READY or with it (R478). -/
def thmConvert (s : State) : State :=
  modThm (fun t => { t with gap := !s.on F.THM_STAT_ref_ready, convAt := s.now }) (s.setF F.THM_STAT_tag (s.thm.todo.headD 0))

/-- R475: how long a channel's result takes, ns: 2^avg_n windows of clk_aon cycles. -/
def thmSpan (s : State) (tag : Nat) : Nat :=
  let cycles := match s.cur (F.THM_CH_CFG_win tag) with
    | 0 => 40960
    | 1 => 34134
    | 2 => 204800
    | _ => 2048 * s.cur (F.THM_CH_CFG_win_ms tag)
  cycles * 2 ^ s.cur (F.THM_CH_CFG_avg_n tag) * 15625 / 32

/-- R477, R482: a sequence starts; a set that waits for it comes into force first. One with no channel completes at once. -/
def seqStart (s : State) : State :=
  let s := if s.on (F.PAGE_STAT_commit_pending 0xE4) && !s.on (F.PAGE_STAT_commit_armed 0xE4) then
      thmApply s.inForce (commitTake 0xE4 s) else s
  let todo := (List.range 52).filter fun k => s.curOn (F.THM_CH_CFG_en k)
  if todo.isEmpty then State.evt 0xE4 0 s
  else thmConvert (modThm (fun t => { t with todo := todo }) (s.setB F.THM_STAT_seq_busy true))

/-- R477: a pending trigger starts its sequence. -/
def seqPending (s : State) : State :=
  if s.on F.THM_STAT_trig_pending then seqStart (s.setB F.THM_STAT_trig_pending false) else s

/-- R477: a trigger. -/
def thmTrigger (s : State) : State :=
  if s.on F.THM_STAT_seq_busy || s.on F.THM_STAT_cal_busy then
    if s.on F.THM_STAT_trig_pending then State.evt 0xE4 1 (s.bump F.THM_TRIG_OVL_count 1)
    else s.setB F.THM_STAT_trig_pending true
  else seqStart s

/-- R479: a calibration starts; without REF_READY it fails at once. -/
def calStart (s : State) : State :=
  if s.on F.THM_STAT_ref_ready then modThm (fun t => { t with calAt := s.now }) (s.setB F.THM_STAT_cal_busy true)
  else seqPending (State.evt 0xE4 3 s)

/-- R479: THM_CMD.cal_go. -/
def calGo (s : State) : State :=
  if s.on F.THM_STAT_cal_busy || s.on F.THM_STAT_cal_queued then State.err 0xE4 0 0xE2 s
  else if s.on F.THM_STAT_seq_busy then s.setB F.THM_STAT_cal_queued true
  else calStart s

/-- R478: ref_en is written; REF_READY falls as soon as it is cleared. -/
def refEnable (v : Bool) (s : State) : State :=
  let rise := v && !s.on F.THM_CTRL_ref_en
  let s := s.setB F.THM_CTRL_ref_en v
  if rise then modThm (fun t => { t with refAt := s.now }) s
  else if v then s else modThm (fun t => { t with gap := true }) (State.level 0xE4 6 false (s.setB F.THM_STAT_ref_ready false))

/-- REF_READY. R107, R478, R479: 20 ms after ref_en was set; the first one since VAON power-on starts the self-calibration. -/
def execRefReady (s : State) : Host.Outcome State Fault Refusal :=
  if s.on F.THM_CTRL_ref_en && s.dev.vaon && !s.on F.THM_STAT_ref_ready then
    let s := State.level 0xE4 6 true ((s.reach (s.thm.refAt + 20000000)).setB F.THM_STAT_ref_ready true)
    if s.thm.first then
      let s := modThm (fun t => { t with first := false }) s
      .next (if s.on F.THM_STAT_cal_busy || s.on F.THM_STAT_cal_queued then s else calGo s)
    else .next s
  else .next s

/-- THM_TIMER_TRIGGER. R477: every period ms. -/
def execThmTimerTrigger (s : State) : Host.Outcome State Fault Refusal :=
  if s.cur F.THM_SEQ_period = 0 ∨ ¬ s.dev.vaon then .next s
  else
    let s := s.reach (s.thm.timerAt + s.cur F.THM_SEQ_period * 1000000)
    .next (thmTrigger (modThm (fun t => { t with timerAt := s.now }) s))

/-- THM_TRIG_GO. R477: a write of THM_CMD with trig_go alone. -/
def execThmTrigGo (m : Master) (s : State) : Host.Outcome State Fault Refusal :=
  .next (s.goWrite m 0xE4048 true thmTrigger)

/-- THM_CAL_GO. R479: a write of THM_CMD with cal_go, and trig_go or not: the trigger then comes behind the calibration. -/
def execThmCalGo (m : Master) (trig : Bool) (s : State) : Host.Outcome State Fault Refusal :=
  .next (s.goWrite m 0xE4048 true fun s => if trig then thmTrigger (calGo s) else calGo s)

/-- R475: window results summed and shifted right by `n`. -/
def windowSum (n : Nat) (w : List (BitVec 24)) : Int :=
  (w.foldl (fun a x => a + x.toInt) 0) / (2 : Int) ^ n

/-- THM_CAL_DONE. R479: the four windows of tag 50 and of tag 51; 840 ms after the start. -/
def execThmCalDone (zero ref : List (BitVec 24)) (s : State) : Host.Outcome State Fault Refusal :=
  if !s.on F.THM_STAT_cal_busy then .next s
  else
    let z := windowSum 2 (zero.take 4)
    let d := windowSum 2 (ref.take 4) - z
    let gain := if d ≤ 0 then 0 else roundEven (4194304 * 6710886) d.toNat
    let s := (s.reach (s.thm.calAt + 840000000)).setB F.THM_STAT_cal_busy false
    let s :=
      if gain < 3774874 ∨ 4613734 < gain then State.evt 0xE4 3 s
      else
        let s := (s.setF F.THM_OFFSET_offset (unsigned 24 z)).setF F.THM_GAIN_gain gain.toNat
        State.evt 0xE4 2 ((modThm (fun t => { t with passed := true }) s).setB F.DEV_STATUS_thm_cal_done true)
    .next (seqPending s)

/-- SEQ_DONE. R477, R479: every channel of the sequence is converted; a queued calibration precedes a pending trigger. -/
def execSeqDone (s : State) : Host.Outcome State Fault Refusal :=
  if s.on F.THM_STAT_seq_busy ∧ s.thm.todo.isEmpty then
    let s := State.evt 0xE4 0 ((s.setB F.THM_STAT_seq_busy false).setF F.THM_STAT_tag 0)
    if s.on F.THM_STAT_cal_queued then .next (calStart (s.setB F.THM_STAT_cal_queued false)) else .next (seqPending s)
  else .next s

/-! ## Results (R475, R476, R480) -/

/-- R480: a result enters the queue. -/
def thmPush (tag flags raw : Nat) (s : State) : State :=
  let q := s.thm.queue
  let n := s.thm.seq
  let s := modThm (fun t => { t with seq := (n + 1) % 256 }) s
  if 128 ≤ q.length then State.evt 0xE4 4 (s.bump F.THM_Q_CTRL_ovf 1)
  else (modThm (fun t => { t with queue := q ++ [(tag, n, flags, raw)] }) s).setF F.THM_Q_CTRL_queued (q.length + 1)

/-- R480: THM_Q_CTRL.pop. -/
def thmPop (s : State) : State :=
  match s.thm.queue with
  | [] => s
  | (tag, n, flags, raw) :: q =>
    let s := (modThm (fun t => { t with queue := q }) s).setF F.THM_Q_CTRL_queued q.length
    (((s.setF F.THM_Q_0_tag tag).setF F.THM_Q_0_seq n).setF F.THM_Q_0_flags flags).setF F.THM_Q_1_raw raw

/-- THM_Q_POP -/
def execThmQPop (m : Master) (s : State) : Host.Outcome State Fault Refusal := .next (s.goWrite m 0xE6040 true thmPop)

/-- R475: a raw result: the windows averaged, or the 24-bit limit for an input above +1.300 V (`some true`) or below
−0.050 V (`some false`). -/
def thmRaw (s : State) (tag : Nat) (w : List (BitVec 24)) (outside : Option Bool) : Int :=
  match outside with
  | some true => 8388607
  | some false => -8388608
  | none =>
    let n := s.cur (F.THM_CH_CFG_avg_n tag)
    windowSum n (w.take (2 ^ n))

/-- R475: the corrected value; the manual states none that 24 bits do not hold, which is left free. -/
def thmCorrect (raw : Int) (s : State) : Int × State :=
  let c := roundEven ((raw - signed 24 (s.g F.THM_OFFSET_offset)) * (s.g F.THM_GAIN_gain : Int)) 4194304
  if -8388608 ≤ c ∧ c ≤ 8388607 then (c, s)
  else
    let (v, s) := s.draw 24
    (signed 24 v, s)

/-- R475, R476, R480: a channel's conversion ends: queue, last result, filter. Answers the filtered value that the rules see:
none for a result flagged REF_NR or UNCAL. -/
def thmResult (tag : Nat) (w : List (BitVec 24)) (outside : Option Bool) (s : State) : Option Int × State :=
  let s := s.reach (s.thm.convAt + thmSpan s tag)
  let raw := thmRaw s tag w outside
  let flags := s.thm.gap.toNat + 2 * outside.isSome.toNat + 4 * (!s.thm.passed).toNat + 8 * (!s.on F.HMP_STAT_aon_xtal_lock).toNat
  let (c, s) := thmCorrect raw s
  let s := (s.setF (F.THM_CH_LAST_flags tag) flags).setF (F.THM_CH_LAST_value tag) (unsigned 24 c)
  let s := if s.curOn (F.THM_CH_CFG_queue tag) then thmPush tag flags (unsigned 32 raw) s else s
  let s := if outside.isSome then State.evt 0xE4 5 s else s
  let s := thmConvert (modThm (fun t => { t with todo := t.todo.drop 1 }) s)
  if flags % 2 = 1 ∨ flags / 4 % 2 = 1 then (none, s)
  else
    let f := signed 24 (s.g (F.THM_CH_FILT_value tag))
    let k := s.cur (F.THM_CH_CFG_filt_k tag)
    let f := if Tbl.get false s.thm.accepted tag then roundEven (f * 2 ^ k + (c - f)) (2 ^ k) else c
    (some f, modThm (fun t => { t with accepted := Tbl.set false t.accepted tag true }) (s.setF (F.THM_CH_FILT_value tag) (unsigned 24 f)))

/-! ## The Hamper set (R487) -/

/-- The fields of rule `r`. -/
def ruleFields (r : Nat) : List Field :=
  [F.HMP_RULE_CFG_en r, F.HMP_RULE_CFG_src r, F.HMP_RULE_CFG_index r, F.HMP_RULE_CFG_below r, F.HMP_RULE_CFG_in_dormant r,
   F.HMP_RULE_CFG_in_awake r, F.HMP_RULE_CFG_persist r, F.HMP_RULE_CFG_actions r, F.HMP_RULE_THR_thr r, F.HMP_RULE_HYST_hyst r]

/-- R483, R487: index and persist of rule `r` within their ranges. -/
def ruleRangeOk (t : Tbl Nat) (r : Nat) : Bool :=
  let i := look t (F.HMP_RULE_CFG_index r)
  look t (F.HMP_RULE_CFG_persist r) != 0 &&
  (match look t (F.HMP_RULE_CFG_src r) with
    | 0 => decide (i ≤ 51)
    | 1 => decide (i ≤ 5)
    | 2 => decide (i ≤ 1)
    | _ => true)

/-- R487: the reason a Hamper set is rejected with. -/
def hmpCheck (t : Tbl Nat) (s : State) : Nat :=
  let valid := (List.range 32).filter fun r => look t (F.HMP_RULE_CFG_en r) == 1
  firstFail
    [ (0x01, allBelow 32 (ruleRangeOk t)),
      (0x02, allBelow 32 fun r => look t (F.HMP_RULE_CFG_src r) != 3),
      (0xE8, valid.all fun r => look t (F.HMP_RULE_CFG_src r) != 0 || s.curOn (F.THM_CH_CFG_en (look t (F.HMP_RULE_CFG_index r)))),
      (0xE9, valid.all fun r => look t (F.HMP_RULE_CFG_in_dormant r) == 1 || look t (F.HMP_RULE_CFG_in_awake r) == 1) ]

/-- R488: HMP_STAT counts the rules FIRED. -/
def firedReport (s : State) : State :=
  s.setF F.HMP_STAT_fired ((List.range 32).filter fun r => s.g (F.HMP_RULE_STAT_state r) == 2).length

/-- R484: a rule takes a state and a count. -/
def ruleGo (r st count : Nat) (s : State) : State :=
  firedReport ((s.setF (F.HMP_RULE_STAT_state r) st).setF (F.HMP_RULE_STAT_count r) count)

/-- R484, R487: a rule whose fields have changed is CLEAR. -/
def hmpApply (old : Tbl Nat) (s : State) : State :=
  s.forEach (List.range 32) fun r s => if differ old s.inForce (ruleFields r) then ruleGo r 0 0 s else s

/-- R484: the device enters or leaves DORMANT: rules whose flag excludes the mode are CLEAR. -/
def rulesMode (s : State) : State :=
  s.forEach (List.range 32) fun r s =>
    if s.curOn (if s.mode = 0 then F.HMP_RULE_CFG_in_dormant r else F.HMP_RULE_CFG_in_awake r) then s else ruleGo r 0 0 s

end Sys2Proof.Machine
end

