-- ==== Sys2Proof/Machine/Commit.lean ====
section
/-! DEFINITION. Staged sets and COMMIT (R56 to R64), soft resets (R53) and snapshots (R83), over the checks and the application
of every commit domain. -/
namespace Sys2Proof.Machine

/-! ## The check of an engine set (R32 to R35, R93, R94, R486) -/

/-- The rate plan of an engine (04_line_transmit.md, Rate plan): what REGEN shares between the engines (R32). -/
def ratePlan (le : Nat) : List Field :=
  [F.LE_TX_PLAN_baud le, F.LE_TX_PLAN_modulation le, F.LE_TX_PLAN_entropy le, F.LE_TX_PLAN_fec_oh le, F.LE_TX_PLAN_sc_count le]

/-- R34, R57: a set of LE0 with LE1's staged set, as the check has read it, in its place. -/
def regenTable (t : Tbl Nat) (s : State) : Tbl Nat := Tbl.overlay (inDomain 0x50) s.fab.regenSet t

/-- R32: LE1's side of a REGEN committed through LE0. In an interoperable line mode the standard sets the rate plan (R136). -/
def regenOk (t : Tbl Nat) (s : State) : Bool :=
  let u := regenTable t s
  let lm := look t (F.LE_ROLE_line_mode 0)
  look u (F.LE_ROLE_role 1) == 4 && look u (F.LE_ROLE_line_mode 1) == lm && look u (F.LE_ROLE_single_fibre 1) == 0 && s.role 1 == 0 &&
  s.runState 1 == 0 &&
  (lm != 0 || ((ratePlan 0).zip (ratePlan 1)).all fun f => look t f.1 == look u f.2)

/-- R32: the combinations of role, line mode and single-fibre operation. -/
def roleOk (le : Nat) (t : Tbl Nat) (s : State) : Bool :=
  let lm := look t (F.LE_ROLE_line_mode le)
  let sf := look t (F.LE_ROLE_single_fibre le)
  match look t (F.LE_ROLE_role le) with
  | 0 => sf == 0
  | 1 => sf == 0 || lm == 0
  | 2 => lm == 0
  | 3 => lm == 0
  | 4 => sf == 0 && le == 0 && regenOk t s
  | _ => sf == 0 || lm == 0

/-- R34: a REGEN accepted on LE0 waits for its boundary. -/
def regenPending (s : State) : Bool :=
  s.on (F.PAGE_STAT_commit_pending 0x10) && look s.buffer (F.LE_ROLE_role 0) == 4 && s.role 0 != 4

/-- R33 to R35: role, line mode and single-fibre operation change only through OFF, and not in STARTING or STOPPING; LE1 takes
no REGEN, and nothing while REGEN is in force or waits on LE0. -/
def roleMoves (le : Nat) (t : Tbl Nat) (s : State) : Bool :=
  let r := look t (F.LE_ROLE_role le)
  !(le == 1 && (r == 4 || s.role 0 == 4 || s.role 1 == 4 || regenPending s)) &&
  (r == 0 || ((s.runState le == 0 || s.runState le == 2) &&
    (s.role le == 0 || (r == s.role le && look t (F.LE_ROLE_line_mode le) == s.g (F.LE_ROLE_STAT_line_mode_active le) &&
      look t (F.LE_ROLE_single_fibre le) == s.g (F.LE_ROLE_STAT_single_fibre_active le)))))

/-- The HMP_PD bit of engine `le` (R486). -/
def pdOf (s : State) (le : Nat) : Bool := if le = 0 then s.on F.HMP_PD_le0 else s.on F.HMP_PD_le1

/-- R93, R94, R486: the device mode permits the role; in a transition to STANDBY or MAINTENANCE the mode entered decides. -/
def roleMode (le : Nat) (t : Tbl Nat) (s : State) : Bool :=
  let r := look t (F.LE_ROLE_role le)
  r == 0 || (s.inService && s.dev.req != some 3 && (if r = 4 then [0, 1] else [le]).all fun e =>
    !pdOf s e && !((s.mode == 6 || s.dev.req == some 6) && s.dev.maint.testBit e && r != 5))

/-- The first reason other than 0 of an ordered list. -/
def firstReason : List Nat → Nat
  | [] => 0
  | r :: l => if r = 0 then firstReason l else r

/-- R136, R166, R203, R218, R276, R383: the reason the settings of engine `le` are rejected with, whatever its role may be. -/
def settingsCheck (le : Nat) (t : Tbl Nat) (s : State) : Nat :=
  let tiles := (liveTiles s le).length
  firstReason
    [ txCheck s.inForce t le tiles (s.g (F.LE_TX_BAUD_MAX_baud le)) (s.g (F.LE_GLF_TX_FC_fc le)) (s.runState le == 2),
      rxCheck s.inForce t le tiles (s.g (F.LE_RX_BAUD_MAX_baud le)) (s.on (F.LE_RX_PLAN_STAT_follow_pending le)),
      p2mpCheck t le fun i => s.g (F.LE_P2MP_LEAF_ST_ro_active le (i / 256) (i % 256)),
      glfCheck t le s,
      cipEngineCheck le t s ]

/-- R32 to R34, R93, R136, R166, R203, R218, R276, R383: the reason a set of engine `le` is rejected with; a REGEN is checked with
LE1's staged set (R34, R57). -/
def engineCheck (le : Nat) (t : Tbl Nat) (s : State) : Nat :=
  firstReason
    [ firstFail
        [ (0x02, look t (F.LE_ROLE_role le) ≤ 5 && look t (F.LE_ROLE_line_mode le) ≤ 3),
          (0x04, roleMoves le t s && roleOk le t s),
          (0x07, roleMode le t s) ],
      settingsCheck le t s,
      if look t (F.LE_ROLE_role le) = 4 then settingsCheck 1 (regenTable t s) s else 0 ]

/-! ## The checks by domain -/

/-- The ports that valid containers name (R315). -/
def namedPorts (t : Tbl Nat) : List Nat :=
  [0, 1].flatMap fun le => ((List.range 64).filter (contValid t le)).map fun c => look t (F.LE_GLF_CONT_CFG_port le c)

/-- R58 step 3: the reason the set `t` (the domain's buffered set over the sets in force) of master `m` is rejected with. -/
def domCheck (m d : Nat) (t : Tbl Nat) (s : State) : Nat :=
  if d = 0x10 then engineCheck 0 t s
  else if d = 0x50 then engineCheck 1 t s
  else if 0x90 ≤ d ∧ d ≤ 0x93 then groupCheck t (d - 0x90) s
  else if d = 0xA0 then portsCheck s.inForce t (namedPorts s.inForce)
  else if d = 0xA8 then mapCheck t s
  else if d = 0xB0 then clsCheck t s
  else if d = 0xC0 then bufCheck t s
  else if d = 0xC8 then cipCheck m t s
  else if d = 0xD0 then synCheck t
  else if d = 0xE0 then hmpCheck t s
  else if d = 0xE4 then thmCheck t s
  else if d = 0xE8 then monCheck 0 t s
  else if d = 0xEA then monCheck 1 t s
  else 0

/-! ## Application (R58 step 5) -/

/-- Pages `lo` to `hi` differ between two sets. -/
def pagesDiffer (lo hi : Nat) (a b : Tbl Nat) : Bool :=
  let k (t : Tbl Nat) := Tbl.keep (fun x => lo ≤ pageOf (x / 8) && pageOf (x / 8) ≤ hi) t
  k a != k b

/-- What follows from an engine's set in force (R134, R153, R165, R176, R182, R253, R276, R285, R407). -/
def engineReport (le : Nat) (old : Tbl Nat) (s : State) : State :=
  let s := envLevel le (reflCommit le (fecReport le (rxReport le (txReport le s))))
  let s := s.forEach (List.range 8) fun i s =>
    convReport le (i / 4 == 1) (i % 4) (repairKeep le (i / 4 == 1) (i % 4) s)
  let s := joinBundle le old (rankReport le s)
  let s := if s.role le = 2 then leafCommit le old s else s
  cipherLoad (defReport le s)

/-- R167: what a changed receive set does to reception. -/
def rxChange (le : Nat) (old : Tbl Nat) (s : State) : State :=
  if s.g (F.LE_RX_STATE_state le) = 0 then s
  else losEval le (if differ old s.inForce (rxPlanFields le) then rxMove le 1 s
    else if differ old s.inForce (rxCdFields le) then rxMove le (acqStart s le) s
    else s)

/-- R153, R176: with a set in force that counts units out, a lane may hold too few for its engine to run. -/
def convJudge (le : Nat) (s : State) : State :=
  if allBelow 4 fun l => !convStarved s le true l then
    if allBelow 4 fun l => !convStarved s le false l then s else engineFail le 5 0x84 s
  else engineFail le 6 0x85 s

/-- R34, R35, R155, R157: engine `le` takes its set; `old` the one before. A REGEN brings LE1's set into force as its check has read
it (R57). -/
def engineApply (le : Nat) (old : Tbl Nat) (s : State) : State :=
  let role := s.cur (F.LE_ROLE_role le)
  match s.runState le with
  | 0 =>
    if role = 0 then engineReport le old s
    else if role = 4 then
      let s := { s with inForce := regenTable s.inForce s }
      engineReport 1 old (engineReport 0 old (engineStart 1 (engineStart 0 s)))
    else engineReport le old (engineStart le s)
  | 2 =>
    if role = 0 then engineOff le s
    else
      let s := engineReport le old s
      convJudge le (if txReload old s.inForce le then rxChange le old (reloadStart le s) else rxChange le old s)
  | _ => if role = 0 then engineOff le s else s

/-- R217: a set of a running hub that changes pages 0x20 to 0x2B comes into force with the build of the next map. -/
def hubBoundary (le : Nat) (s : State) : Bool :=
  isHub s le && pagesDiffer (lep le 0x20) (lep le 0x2B) s.inForce (Tbl.overlay (inDomain (lep le 0x10)) s.buffer s.inForce) &&
  look s.buffer (F.LE_ROLE_role le) != 0

/-- R35, R93, R94: the set that waits for engine `le` is no longer permitted at its boundary: a role other than OFF in a mode that
bars it, or in STARTING or STOPPING. -/
def engineBarred (le : Nat) (s : State) : Bool :=
  look s.buffer (F.LE_ROLE_role le) != 0 && (!roleMode le s.buffer s || s.runState le == 1 || s.runState le == 3)

/-- R58 step 5: the buffered set of domain `d` comes into force. -/
def domApply (d : Nat) (s : State) : State :=
  let old := s.inForce
  if d = 0x10 ∨ d = 0x50 then
    let le := if d = 0x10 then 0 else 1
    if engineBarred le s then commitCancel d s
    else if hubBoundary le s then
      let p := nextBuild s le
      let s := engineApply le old (commitTake d (s.reach (p * 125000)))
      let s := s.setF (F.LE_P2MP_APPLY_PN_period le) (p + s.cur (F.LE_P2MP_HUB_CTRL_map_lead le))
      ctrlBoundary le 2 p (mapBuild le p (State.evt (lep le 0x20) 0 s))
    else engineApply le old (commitTake d s)
  else
    let s := commitTake d s
    if 0x90 ≤ d ∧ d ≤ 0x93 then groupApply old (d - 0x90) s
    else if d = 0xA0 then portsApply old s
    else if d = 0xA8 then mapApply old s
    else if d = 0xB0 then clsApply s
    else if d = 0xC8 then cipApply old s
    else if d = 0xD0 then synApply old s
    else if d = 0xE0 then hmpApply old s
    else if d = 0xE4 then thmApply old s
    else if d = 0xE8 then monApply 0 s
    else if d = 0xEA then monApply 1 s
    else s

/-! ## COMMIT (R56, R58 to R62) -/

/-- R58, R60, R63: a COMMIT or check written on page `p` is rejected. -/
def commitReject (p reason : Nat) (s : State) : State :=
  let d := domainOf p
  State.evt p 30 ((s.setB (F.PAGE_STAT_commit_err d) true).setF (F.PAGE_STAT_commit_reason d) reason)

/-- R58 step 1: the domain's staged set is copied into the commit buffer, for a set of LE0 LE1's staged set with it (R57). -/
def commitCopy (p : Nat) (s : State) : State :=
  let d := domainOf p
  let other := if d = 0x10 then Tbl.keep (inDomain 0x50) s.staged else s.fab.regenSet
  { s with
    buffer := Tbl.overlay (inDomain d) s.staged s.buffer,
    fab := { s.fab with commitPage := Tbl.insert s.fab.commitPage d p, regenSet := other } }

/-- The sets in force with the domain's buffered set in its place. -/
def commitSet (d : Nat) (s : State) : Tbl Nat := Tbl.overlay (inDomain d) s.buffer s.inForce

/-- R60, R61: why a go or check on page `p` is rejected before its set is checked, 0 when it is not. -/
def commitBar (s : State) (p : Nat) : Nat :=
  let d := domainOf p
  if s.on (F.PAGE_STAT_commit_pending d) then 0x0A
  else if !s.domainUp d && !fabHeld d then 0x0D
  else 0

/-- R165: an accepted COMMIT of an engine starts its count of acquisitions; a REGEN that of both. -/
def acqReset (d : Nat) (s : State) : State :=
  let le := if d = 0x10 then 0 else 1
  let s := s.setF (F.LE_RX_STATE_acquisitions le) 0
  if look s.buffer (F.LE_ROLE_role le) = 4 then s.setF (F.LE_RX_STATE_acquisitions 1) 0 else s

/-- R58 step 4, R61, R156: an accepted go: armed, or waiting for the safe boundary, or in force at once where the configuration is
held in clk_fab and the block's domain is stopped. -/
def commitAccept (d : Nat) (s : State) : State :=
  let s := s.setB (F.PAGE_STAT_commit_pending d) true
  let s := if d = 0x10 ∨ d = 0x50 then
      let le := if d = 0x10 then 0 else 1
      let s := acqReset d s
      if s.runState le = 2 ∧ txTimed s.inForce (commitSet d s) le then s.setB (F.LE_TX_PLAN_STAT_timed_pending le) true else s
    else s
  if s.on (F.PAGE_CTRL_commit_sync d) then s.setB (F.PAGE_STAT_commit_armed d) true
  else if !s.domainUp d && fabHeld d then domApply d s
  else s

/-- R58 to R61: COMMIT.go on page `p`. -/
def commitGo (m p : Nat) (s : State) : State :=
  let d := domainOf p
  let bar := commitBar s p
  if bar ≠ 0 then commitReject p bar s
  else
    let s := commitCopy p s
    let r := domCheck m d (commitSet d s) s
    if r ≠ 0 then commitReject p r s else commitAccept d s

/-- R59: COMMIT.check on page `p`. -/
def commitCheck (m p : Nat) (s : State) : State :=
  let d := domainOf p
  let bar := commitBar s p
  if bar ≠ 0 then commitReject p bar s
  else
    let s := commitCopy p s
    let r := domCheck m d (commitSet d s) s
    if r ≠ 0 then commitReject p r s else State.evt p 31 (s.setB (F.PAGE_STAT_commit_err d) false)

/-- The pending set of engine domain `d` is a timed change (R156). -/
def timedOf (s : State) (d : Nat) : Bool :=
  (d == 0x10 && s.on (F.LE_TX_PLAN_STAT_timed_pending 0)) || (d == 0x50 && s.on (F.LE_TX_PLAN_STAT_timed_pending 1))

/-- R53, R60, R156: COMMIT.discard: the staged set becomes the set in force; an armed set is cancelled, a timed change is not. -/
def commitDiscard (p : Nat) (s : State) : State :=
  let d := domainOf p
  let s := if s.on (F.PAGE_STAT_commit_armed d) && !timedOf s d then commitCancel d s else s
  { s with staged := Tbl.overlay (inDomain d) s.inForce s.staged }

/-- R56, R68: a write of `value` to the COMMIT register of page `p`: one refused by the page LOCK is also rejected with LOCKED. -/
def commitWrite (m : Master) (p value : Nat) (s : State) : State :=
  let a := p * 0x1000 + 0x20
  let locked := value % 4 != 0 && s.reaches m p && definedPage p && s.lockedOut (mcode m) p
  let s' := s.goWrite m a true fun s =>
    match value % 8 with
    | 0 => s
    | 1 => commitGo (mcode m) p s
    | 2 => commitCheck (mcode m) p s
    | 4 => commitDiscard p s
    | _ => s.refuse (mcode m) .multiCmd a
  if locked then commitReject p 0x08 s' else s'

/-- COMMIT_GO -/
def execCommitGo (m : Master) (p : Fin 256) (s : State) : Host.Outcome State Fault Refusal := .next (commitWrite m p.val 1 s)

/-- COMMIT_CHECK -/
def execCommitCheck (m : Master) (p : Fin 256) (s : State) : Host.Outcome State Fault Refusal := .next (commitWrite m p.val 2 s)

/-- COMMIT_DISCARD -/
def execCommitDiscard (m : Master) (p : Fin 256) (s : State) : Host.Outcome State Fault Refusal := .next (commitWrite m p.val 4 s)

/-- R58 step 5: the safe boundary of domain `d`: a set that is pending, not armed, no timed change and not the Thermos set (which
comes into force with the next sequence, R482). -/
def commitBoundary (d : Nat) (s : State) : State :=
  if s.on (F.PAGE_STAT_commit_pending d) && !s.on (F.PAGE_STAT_commit_armed d) && !timedOf s d && d != 0xE4 then domApply d s else s

/-- R156: the frame of a timed change. -/
def timedApply (le : Nat) (s : State) : State :=
  let d := lep le 0x10
  if s.on (F.LE_TX_PLAN_STAT_timed_pending le) && s.on (F.PAGE_STAT_commit_pending d) && !s.on (F.PAGE_STAT_commit_armed d) &&
      s.runState le == 2 then
    let fc := look s.buffer (F.LE_TX_PLAN_AT_frame le)
    let s := s.modTx le fun t => { t with fc := BitVec.ofNat 32 fc }
    let s := domApply d (s.setB (F.LE_TX_PLAN_STAT_timed_pending le) false)
    State.evt (lep le 0x14) 0 s
  else s

/-- R64: every armed domain fires; one held in clk_fab whose own domain is stopped takes its set at once (R61). -/
def syncFire (s : State) : State :=
  let s := s.incWrap F.DEV_COMMIT_SYNC_sync_seq 1
  s.forEach ((List.range 256).filter fun d => domainOf d == d) fun d s =>
    if s.on (F.PAGE_STAT_commit_armed d) then
      let s := s.setB (F.PAGE_STAT_commit_armed d) false
      if !s.domainUp d && fabHeld d then domApply d s else s
    else s

/-- R62: COMMIT writes of several masters to the domain of page `p` in one fabric cycle: taken in priority order, each further one
rejected with BUSY. -/
def commitsTogether (p : Nat) (l : List (Master × Nat)) (s : State) : State :=
  match inPriority l with
  | [] => s
  | (m, v) :: rest => (commitWrite m p v s).forEach rest fun _ s => commitReject p 0x0A s

/-- DEV_COMMIT_SYNC -/
def execDevCommitSync (m : Master) (s : State) : Host.Outcome State Fault Refusal := .next (s.goWrite m 0x60 true syncFire)

/-! ## Soft reset (R53, R60, R156, R295) -/

/-- R53: the block logic of commit domain `d` is reset: an engine that runs acquires anew and its mask checker starts its counts
again, a monitor capture ends, the member-state protocol's proposals and switches are cancelled (R295). -/
def softLogic (d : Nat) (s : State) : State :=
  let engine (le : Nat) : State :=
    if s.runState le = 2 then rxGo le 1 (s.modTx le fun t => { t with maskRun := [], maskClean := 0 }) else s
  if d = 0x10 then engine 0
  else if d = 0x50 then engine 1
  else if d = 0xA8 then mspCancel s
  else if d = 0xE8 then monAbort 0 s
  else if d = 0xEA then monAbort 1 s
  else s

/-- R53, R60, R156, R295: a soft reset of a commit domain: its block logic is reset, and a pending set, a timed change included, is
cancelled. -/
def softReset (p : Nat) (s : State) : State :=
  let d := domainOf p
  let s := if d = 0x10 then s.setB (F.LE_TX_PLAN_STAT_timed_pending 0) false
    else if d = 0x50 then s.setB (F.LE_TX_PLAN_STAT_timed_pending 1) false else s
  softLogic d (commitCancel d s)

/-- SOFT_RESET -/
def execSoftReset (m : Master) (p : Fin 256) (s : State) : Host.Outcome State Fault Refusal :=
  .next (s.goWrite m (p.val * 0x1000 + 8) true (softReset p.val))

/-! ## Snapshots (R83, R260, R472, R536) -/

/-- The …_SNAP fields of a page, each with the field whose value it captures; page 0xD3 captures device time, page 0xF8 at an
instant ahead, page 0x1D (0x5D) the records published last while hold is set (R199, R201). -/
def snapFields (p : Nat) : List (Field × Field) :=
  if p = 0x31 ∨ p = 0x71 then
    let le := if p = 0x31 then 0 else 1
    (List.range 6).flatMap fun c =>
      [(F.LE_FEC_CNT_LO_SNAP_lo le c, F.LE_FEC_CNT_LO_lo le c), (F.LE_FEC_CNT_HI_SNAP_hi le c, F.LE_FEC_CNT_HI_hi le c)]
  else []

/-- R45, R53, R83: PAGE_SNAP.go: the sources, those of a frozen page as held, are captured at one instant; a go during a snapshot is
ignored. -/
def pageSnap (p : Nat) (s : State) : State :=
  if s.on (F.PAGE_STAT_snap_busy p) || !s.domainUp p then s
  else if p = 0xF8 then cntSnapGo s
  else
    let s := s.setB (F.PAGE_STAT_snap_busy p) true
    let snap := (snapFields p).foldl (fun t e => Tbl.insert t e.1.key (heldOr s e.2)) s.fab.snap
    let now := if pageFrozen s 0xD3 then s.cnt.heldTime else s.now
    let snap := if p = 0xD3 then
        Tbl.insert (Tbl.insert snap F.SYN_TIME_SNAP_LO_time.key (now % 2 ^ 32)) F.SYN_TIME_SNAP_HI_time.key (now / 2 ^ 32)
      else snap
    let le := if p = 0x1D then 0 else 1
    let snap := if (p = 0x1D ∨ p = 0x5D) ∧ s.on (F.LE_RX_QUAL_CTRL_hold le) then
        ((List.range 32).flatMap (qualFields le)).foldl (fun t f => Tbl.insert t f.key (if pageFrozen s p then look s.cnt.held f else qualGet s le f)) snap
      else snap
    { s with fab := { s.fab with snap := snap } }

/-- PAGE_SNAP -/
def execPageSnap (m : Master) (p : Fin 256) (s : State) : Host.Outcome State Fault Refusal :=
  .next (s.goWrite m (p.val * 0x1000 + 0x2C) true (pageSnap p.val))

/-- SNAP_DONE. R83: the captured values are delivered; page 0xF8 ends with CNT_SNAPSHOT. -/
def execSnapDone (p : Fin 256) (s : State) : Host.Outcome State Fault Refusal :=
  let p := p.val
  if s.on (F.PAGE_STAT_snap_busy p) ∧ p ≠ 0xF8 then
    let mine := s.fab.snap.filter fun e => pageOf (e.1 / 8) == p
    let s := s.forEach mine fun e s => s.setF { key := e.1, width := 32, reset := 0 } e.2
    let s := { s with fab := { s.fab with snap := s.fab.snap.filter fun e => pageOf (e.1 / 8) != p } }
    .next (State.evt p 24 ((s.setB (F.PAGE_STAT_snap_busy p) false).incWrap (F.SNAP_seq p) 1))
  else .next s

end Sys2Proof.Machine
end

