-- ==== Sys2Proof/Machine/Modes.lean ====
section
/-! DEFINITION. Device modes (03_modes_and_startup.md): resets and what survives them, mode requests and transitions, and the
tamper response (R425). -/
namespace Sys2Proof.Machine

/-! ## What survives a reset -/

/-- R100, R101, R425, R473: fields held in Hamper: pages 0xE0 to 0xE7, DEV_WAKE_SRC, DEV_RESET_CAUSE, TMP_STAT, TMP_CFG, TMP_LIGHT. -/
def aonKey (k : Nat) : Bool :=
  let a := k / 8
  (0xE0000 ≤ a && a < 0xE8000) || (0x48 ≤ a && a < 0x50) || (0xFD040 ≤ a && a < 0xFD04C)

/-- R410, R412, R413, R548: non-volatile fields of the enclave, the tamper policy and the fused set-point code; debug_level and
pending of ENC_STAT are volatile. -/
def nvKey (k : Nat) : Bool :=
  let a := k / 8
  (a / 4 * 4 == 0xFC040 && 20 ≤ k % 32) || (0xFC044 ≤ a && a < 0xFC058) || a / 4 * 4 == 0xFD044 || a / 4 * 4 == 0xFE040 ||
  (0xFE100 ≤ a && a < 0xFE900) || k == F.DEV_AVS_fused_code.key

/-- R513: FAILED decoder tiles come back by foreground calibration alone: the tile map, the spares and the tiles' states. -/
def tileKey (k : Nat) : Bool :=
  let a := k / 8
  (a / 0x1000 == 0x32 || a / 0x1000 == 0x72) && ((0x40 ≤ a % 0x1000 && a % 0x1000 < 0x48) || (0x80 ≤ a % 0x1000 && k % 32 == 0))

/-- R524: EVL_HEAD and EVL_TAIL. -/
def evlKey (k : Nat) : Bool := k == F.EVL_HEAD_count.key || k == F.EVL_TAIL_count.key

/-- R445, R513: what an engine keeps over a reset: its FAILED tiles that wait for a spare, and its optical engine's last mirror in
this power cycle. -/
def engineKept (powered : Bool) (e : Engine) : Engine :=
  { fec := { waiting := e.fec.waiting }, ubh := { life := if powered then e.ubh.life else [] } }

/-- R410: what the enclave keeps over a reset. -/
def enclaveKept (e : Enc) : Enc :=
  { e with handles := [], trngBad := false, fwVersion := 0, fwDigest := [], bcrVersion := 0, bcrDigest := [] }

/-- R513: FAILED slices and sub-DACs stay FAILED. -/
def failedUnits (s : State) : Tbl RepUnit :=
  (s.rep.units.filter fun e => e.2.st == 4).map fun e => (e.1, { st := 4, faulty := e.2.faulty })

/-- The reports that follow what survived: converters, spare rows, DEV_STATUS. -/
def keptReport (s : State) : State :=
  let s := s.forEach (List.range 2) fun le s => s.forEach (List.range 8) fun i s => convReport le (i / 4 == 1) (i % 4) s
  let used := s.buf.rowUsed.foldl (fun a e => a + e.2) 0
  let s := s.setF F.BUF_ROWREP_STAT_device_spares (2048 - used)
  let s := s.setB F.DEV_STATUS_tamper_latched (s.on F.TMP_STAT_latched)
  let s := s.setB F.DEV_STATUS_zeroise_record (s.on F.ENC_ZREC_active)
  let s := s.setB F.DEV_STATUS_aon_xtal_lock (s.on F.HMP_STAT_aon_xtal_lock)
  let s := s.setB F.DEV_STATUS_thm_cal_done s.thm.passed
  s.setF F.DEV_STATUS_rollback_count s.enc.rollback

/-- R69: the masters that a device reset resets hold no LOCK of pages 0xE0 to 0xE7 any more. -/
def aonLocks (s : State) : State :=
  s.forEach (List.range 8) fun i s =>
    let f := F.LOCK_owner (0xE0 + i)
    if s.g f = 1 ∨ s.g f = 3 ∨ s.g f = 4 then s.setF f 0 else s

/-- R91, R106, R121: every domain except Hamper is reset. `log`: the event log survives (R524); `mem`: package memory keeps its
contents. -/
def resetBlocks (log mem : Bool) (s : State) : State :=
  let z := State.reset
  let keep (k : Nat) : Bool := aonKey k || nvKey k || tileKey k || (log && evlKey k)
  let page (d : Nat) : Bool := d == 0xE0 || d == 0xE4
  keptReport (aonLocks { z with
    pending := s.pending, time := s.time, drawn := s.drawn,
    fields := Tbl.overlay keep s.fields z.fields,
    staged := Tbl.overlay aonKey s.staged z.staged,
    buffer := Tbl.overlay aonKey s.buffer z.buffer,
    inForce := Tbl.overlay aonKey s.inForce z.inForce,
    fab := { z.fab with commitPage := Tbl.keep page s.fab.commitPage },
    dev := { vaon := s.dev.vaon, held := s.dev.held, woken := s.dev.woken, flash := s.dev.flash, flashDead := s.dev.flashDead,
             tripped := s.dev.tripped, bootPending := false },
    le0 := engineKept true s.le0, le1 := engineKept true s.le1,
    buf := { z.buf with rowUsed := s.buf.rowUsed, mem := if mem then s.buf.mem else [] },
    enc := enclaveKept s.enc, rep := { z.rep with units := failedUnits s },
    evl := if log then s.evl else {}, thm := s.thm, hmpLog := s.hmpLog })

/-! ## WAKE (R91, R100, R108, R488, R524) -/

/-- DEV_RESET_CAUSE as a word (R567). -/
def causeWord (s : State) : Nat :=
  s.g F.DEV_RESET_CAUSE_vaon_por * 128 + s.g F.DEV_RESET_CAUSE_porst * 64 + s.g F.DEV_RESET_CAUSE_reset_cmd * 32 +
  s.g F.DEV_RESET_CAUSE_safe_cmd * 16 + s.g F.DEV_RESET_CAUSE_enclave_fault * 8 + s.g F.DEV_RESET_CAUSE_dormant_exit * 4 +
  s.g F.DEV_RESET_CAUSE_reprovision * 2

/-- R567: the event-log entry of a rule-log entry. -/
def ruleEntry (l : RuleLog) : LogEntry := { stamp := l.time, page := 0xE2, code := l.w0 / 2 ^ 27, kind := 3, arg := l.f }

/-- R488: rule-log entries the event log has not had are delivered, in order, with their own stamps. -/
def deliverRules (s : State) : State :=
  let due := (s.hmpLog.filter fun l => l.waits).map ruleEntry
  let log := s.hmpLog.map fun l => { l with waits := false }
  { s with ev := { s.ev with made := s.ev.made ++ due }, hmpLog := log }

/-- R488, R489: HMP_SEAL.sealed takes a value. -/
def sealSet (b : Bool) (s : State) : State := (s.setB F.HMP_SEAL_sealed b).setB F.HMP_STAT_sealed b

/-- R91, R100, R108 step 3: the device enters WAKE from mode `old`, with wake source and rule; the boot follows. -/
def wakeBegin (old src rule : Nat) (s : State) : State :=
  let s := if old = 1 then s else s.setF F.DEV_MODE_mode_prev old
  let s := (s.setF F.DEV_MODE_mode 1).setB F.DEV_MODE_transition true
  let s := (s.setF F.DEV_WAKE_SRC_source src).setF F.DEV_WAKE_SRC_rule rule
  let s := deliverRules (sealSet false s)
  let s := if old = 0 then rulesMode s else s
  let s := s.forEach (List.range 2) fun le s => modUbh le (fun u => { u with owed := true }) (ubhRun le s)
  { s with dev := { s.dev with bootPending := true, woken := true } }

/-- R91, R102, R103, R426: a device reset with its cause already recorded; `skip`: the BCR is skipped. -/
def deviceReset (src : Nat) (skip : Bool) (s : State) : State :=
  let debug := s.g F.ENC_STAT_debug_level != 0
  let old := s.mode
  let s := resetBlocks true true (evlFlush s)
  let s := evlMarker (causeWord s) s
  let s := wakeBegin old src 0 s
  let s := if debug then State.evt 0xFC 6 s else s
  { s with dev := { s.dev with skipBcr := skip } }

/-- R91, R124: a wake source takes the device out of DORMANT; ignored while PORST_N is low. -/
def dormantWake (src rule : Nat) (s : State) : State :=
  if s.mode = 0 ∧ s.dev.vaon ∧ ¬ s.dev.held then
    wakeBegin 0 src rule (s.setB F.DEV_RESET_CAUSE_dormant_exit true)
  else s

/-! ## Pins (R91, R106, R107) -/

/-- VAON_LOSS. R106: the whole device, Hamper included; what is non-volatile stays. -/
def execVaonLoss (s : State) : Host.Outcome State Fault Refusal :=
  if s.dev.vaon then
    let z := State.reset
    .next (keptReport { z with
      pending := s.pending, drawn := s.drawn,
      fields := Tbl.overlay (fun k => nvKey k || tileKey k) s.fields z.fields,
      dev := { vaon := false, held := true, woken := false, bootPending := false,
               flash := s.dev.flash, flashDead := s.dev.flashDead },
      le0 := engineKept false s.le0, le1 := engineKept false s.le1,
      buf := { z.buf with rowUsed := s.buf.rowUsed },
      enc := { enclaveKept s.enc with eraseDue := false }, rep := { z.rep with units := failedUnits s } })
  else .next s

/-- VAON_POWER_ON. R91, R106, R107: Hamper starts; every other domain stays in reset until PORST_N is released. -/
def execVaonPowerOn (s : State) : Host.Outcome State Fault Refusal :=
  if s.dev.vaon then .next s
  else .next { s with time := 0, dev := { s.dev with vaon := true, held := true, woken := false } }

/-- XTAL_LOCK. R107. -/
def execXtalLock (s : State) : Host.Outcome State Fault Refusal :=
  if s.dev.vaon then .next ((s.setB F.HMP_STAT_aon_xtal_lock true).setB F.DEV_STATUS_aon_xtal_lock true) else .next s

/-- PORST_ASSERT. R91: in DORMANT the device stays DORMANT and is held; else it is reset and held in reset. -/
def execPorstAssert (s : State) : Host.Outcome State Fault Refusal :=
  if ¬ s.dev.vaon ∨ s.dev.held then .next s
  else
    let old := s.mode
    let s := s.setB F.DEV_RESET_CAUSE_porst true
    if old = 0 then .next { s with dev := { s.dev with held := true } }
    else
      let s := resetBlocks false false s
      let s := if old = 1 then s else s.setF F.DEV_MODE_mode_prev old
      .next { s with dev := { s.dev with held := true } }

/-- R91, R100: PORST_N is released. -/
def porstRelease (s : State) : State :=
  if ¬ s.dev.vaon ∨ ¬ s.dev.held then s
  else
    let old := s.mode
    let src := if s.dev.woken then 5 else 0
    let s := if old = 0 then s.setB F.DEV_RESET_CAUSE_dormant_exit true else s
    wakeBegin old src 0 { s with dev := { s.dev with held := false } }

/-! ## Resets by command (R102, R103) -/

/-- R102: a write of DEV_RESET with go and a key. -/
def resetWrite (m : Master) (key : Nat) (s : State) : State :=
  s.goWrite m 0x58 true fun s =>
    if key = 0xA5C3 then deviceReset 6 false (s.setB F.DEV_RESET_CAUSE_reset_cmd true)
    else s.refuse (mcode m) .denied 0x58

/-! ## Requests (R91 to R98) -/

/-- R98: a request completes with a result. -/
def reqResult (r : Nat) (s : State) : State := State.evt 0x00 1 (s.setF F.DEV_MODE_req_result r)

/-- The pending request is answered. -/
def reqDone (r : Nat) (s : State) : State := reqResult r { s with dev := { s.dev with req := none } }

/-- R91, R513: SERVICE, or DEGRADED while a class is out of spares. -/
def serviceMode (s : State) : Nat := if s.g F.REP_STAT_exhausted = 0 then 4 else 5

/-- A transition ends in mode `new` and answers its request. -/
def transitionTo (new r : Nat) (s : State) : State :=
  reqDone r (modeTo new (s.setB F.DEV_MODE_transition false))

/-- R82, R114: the FIFOs of the datapath whose pipes were gated resynchronise: domain, domain, page, page. -/
def warmFifos : List (Nat × Nat × Nat × Nat) :=
  [(14, 15, 0x10, 0x10), (15, 16, 0x10, 0x10), (16, 26, 0x10, 0xA0), (21, 22, 0x50, 0x50), (22, 23, 0x50, 0x50), (23, 26, 0x50, 0xA0),
   (26, 27, 0xA0, 0xC0)]

/-- R114: the warm start: memory out of self-refresh with its training restored, FIFOs resynchronised, host lanes bring up; the
self-tests of classifier, cipher and buffer manager pass. -/
def warmStart (new : Nat) (s : State) : State :=
  let s := (s.setB F.DEV_MODE_transition true).setB F.DEV_STATUS_mem_trained true
  let s := s.forEach warmFifos fun e s => fifoResync e.1 e.2.1 e.2.2.1 e.2.2.2 0 s
  portsAll true (transitionTo new 1 s)

/-- The MAINTENANCE targets that DEV_MODE holds (R98). -/
def maintBits (s : State) : Nat := s.g F.DEV_MODE_maint_le0 + 2 * s.g F.DEV_MODE_maint_le1

/-- R94: the MAINTENANCE targets in force. -/
def setMaint (t : Nat) (s : State) : State := { s with dev := { s.dev with maint := t } }

/-- R94: a MAINTENANCE request. -/
def maintRequest (s : State) : State :=
  let t := maintBits s
  let mode := s.mode
  let was := s.dev.maint
  if t = 0 ∨ (s.role 0 = 4 ∧ t ≠ 3) ∨ (s.role 1 = 4 ∧ t ≠ 3) then reqResult 3 s
  else
    let fresh := (List.range 2).filter fun le => t.testBit le && !(mode == 6 && was.testBit le)
    let s := (setMaint t s).forEach fresh engineOff
    if mode = 6 then reqResult 1 s
    else if mode = 3 then warmStart 6 s
    else { s.setB F.DEV_MODE_transition true with dev := { s.dev with req := some 6 } }

/-- R96: a STANDBY request. -/
def standbyRequest (s : State) : State :=
  let s := portsAll false (s.forEach (List.range 2) engineOff)
  { s.setB F.DEV_MODE_transition true with dev := { s.dev with req := some 3 } }

/-- R121: DORMANT is entered: key slots erased, memory powered down, every register outside Hamper lost. -/
def dormantEnter (s : State) : State :=
  let old := s.mode
  let s := resetBlocks false false s
  let s := ((s.setF F.DEV_MODE_mode_prev old).setF F.DEV_MODE_mode 0).setB F.DEV_MODE_transition false
  rulesMode (s.setF F.DEV_MODE_req_result 1)

/-- R91, R92, R98: a request for the mode of a code. -/
def modeRequest (code : Nat) (s : State) : State :=
  let mode := s.mode
  if s.on F.DEV_MODE_transition then reqResult 2 s
  else if 8 ≤ code then reqResult 4 s
  else if code = 2 ∧ mode ≠ 7 then
    let s := deviceReset 7 true (s.setB F.DEV_RESET_CAUSE_safe_cmd true)
    { s with dev := { s.dev with req := some 2 } }
  else if code = 4 ∧ mode = 3 then warmStart (serviceMode s) s
  else if code = 4 ∧ mode = 6 then transitionTo (serviceMode s) 1 (setMaint 0 s)
  else if code = 6 ∧ (mode = 3 ∨ mode = 4 ∨ mode = 5 ∨ mode = 6) then maintRequest s
  else if code = 3 ∧ (mode = 4 ∨ mode = 5 ∨ mode = 6) then standbyRequest s
  else if code = 0 ∧ (mode = 2 ∨ mode = 3 ∨ mode = 7) then dormantEnter s
  else reqResult 3 s

/-- R98: every write of DEV_MODE stores the MAINTENANCE targets. -/
def storeMaint (v : Nat) (s : State) : State := (s.setF F.DEV_MODE_maint_le0 (v / 256)).setF F.DEV_MODE_maint_le1 (v / 512)

/-- R123, R124: in DORMANT the mirror of DEV_MODE takes a request from SPI: STANDBY or SERVICE wake where spi_req enables it. -/
def mirrorRequest (code : Nat) (s : State) : State :=
  if (code = 3 ∨ code = 4) ∧ s.on F.HMP_WAKE_EN_spi_req ∧ ¬ s.dev.held then
    let s := dormantWake 3 0 s
    { s with dev := { s.dev with spiWake := some code } }
  else s.setF F.DEV_MODE_req_result (if 8 ≤ code then 4 else 3)

/-- R98: a write of DEV_MODE: the targets are stored and the mode is requested. -/
def modeWrite (m : Master) (v : Nat) (s : State) : State :=
  if s.dev.vaon && s.mode == 0 && m == .spi then mirrorRequest (v % 16) (storeMaint v s)
  else s.goWrite m 0x40 true fun s => modeRequest (v % 16) (storeMaint v s)

/-- R92: the first of several requests written in one fabric cycle starts its transition, and each further one completes with BUSY. -/
def modesTogether (l : List (Master × Nat)) (s : State) : State :=
  match inPriority l with
  | [] => s
  | (m, v) :: rest => (modeWrite m v s).forEach rest fun e s => s.goWrite e.1 0x40 true fun s => reqResult 2 (storeMaint e.2 s)

/-- STANDBY_ENTRY_DONE. R96: both engines STOPPED. -/
def execStandbyEntryDone (s : State) : Host.Outcome State Fault Refusal :=
  if s.dev.req = some 3 ∧ s.runState 0 = 0 ∧ s.runState 1 = 0 then .next (transitionTo 3 1 (setMaint 0 s)) else .next s

/-- MAINT_ENTRY_DONE. R94: every targeted engine STOPPED. -/
def execMaintEntryDone (s : State) : Host.Outcome State Fault Refusal :=
  if s.dev.req = some 6 ∧ (List.range 2).all (fun le => !s.dev.maint.testBit le || s.runState le == 0) then
    .next (transitionTo 6 1 s)
  else .next s

/-! ## Adaptive supply (R548, R549) -/

/-- R548: firmware commands the fused set point; SUPPLY_SLOW's range takes in the set point left as well. -/
def avsCommand (s : State) : State :=
  let old := s.g F.DEV_AVS_setpoint_code
  let s := (s.setB F.DEV_AVS_avs_busy true).setB F.DEV_AVS_avs_fail false
  { s with dev := { s.dev with avsFrom := some old, avsEnd := none } }

/-- AVS_CONFIRMED. R548: the regulator reports completion. -/
def execAvsConfirmed (s : State) : Host.Outcome State Fault Refusal :=
  if s.on F.DEV_AVS_avs_busy then
    let s := (s.setB F.DEV_AVS_avs_busy false).setF F.DEV_AVS_setpoint_code (s.g F.DEV_AVS_fused_code)
    let t := s.now + 1000000
    .next { s with dev := { s.dev with avsEnd := some t } }
  else .next s

/-- AVS_FAIL. R549: no confirmation within 10 ms. -/
def execAvsFail (s : State) : Host.Outcome State Fault Refusal :=
  if s.on F.DEV_AVS_avs_busy then
    .next (State.err 0x00 0 0x8C ((s.setB F.DEV_AVS_avs_busy false).setB F.DEV_AVS_avs_fail true))
  else .next s

/-! ## Tamper (R91, R97, R425) -/

/-- R427: a debug unlock ends. -/
def debugClose (s : State) : State :=
  if s.g F.ENC_STAT_debug_level = 0 then s
  else
    let s := ((s.setF F.ENC_STAT_debug_level 0).setF F.ENC_DBG_EXPIRE_LO_expire 0).setF F.ENC_DBG_EXPIRE_HI_expire 0
    State.evt 0xFC 6 { s with dev := { s.dev with debugUp := false } }

/-- R425 step 3: KLK, agreement pair, handles and debug unlock are destroyed and the zeroise record is written. -/
def zeroiseRecord (s : State) : State :=
  let s := { s with enc := { s.enc with klk := none, agree := none, agreePub := [], handles := [], eraseDue := false } }
  let s := debugClose ((s.setB F.ENC_STAT_klk_valid false).setF F.ENC_STAT_pending 0)
  let s := (s.setB F.ENC_ZREC_active true).bump F.ENC_ZREC_count 1
  let s := s.setF F.ENC_ZREC_causes (s.g F.TMP_STAT_latched_causes)
  let s := (s.setF F.ENC_ZREC_TIME_LO_time s.now).setF F.ENC_ZREC_TIME_HI_time (s.now / 2 ^ 32)
  (s.setB F.ENC_STAT_zeroised true).setB F.DEV_STATUS_zeroise_record true

/-- R425 step 5, R567: the tamper entry of the event log. -/
def tamperRecord (s : State) : State :=
  let s := s.logPlain 0xFD 0 3 (s.g F.TMP_STAT_latched_causes * 256 + s.dev.tripped)
  { s with dev := { s.dev with tripped := 0 } }

/-- R91, R97, R425 step 4: ZEROISED is entered: a request in progress is abandoned, an SPI request whose WAKE ends here is refused
(R124); under STOP the engines go to OFF. -/
def zeroisedEnter (s : State) : State :=
  let spi := s.mode == 1 && s.dev.spiWake.isSome
  let asked := s.dev.req.isSome || s.dev.spiWake.isSome
  let s := if s.dev.bcr.isSome then sealSet true s else s
  let keep := s.on F.TMP_CFG_response
  let s := { s with dev := { s.dev with req := none, spiWake := none, bcr := none, keepClear := keep } }
  let s := if asked then reqResult (if spi then 3 else 5) s else s
  let s := modeTo 7 (s.setB F.DEV_MODE_transition false)
  let s := if keep then s else portsAll false (s.forEach (List.range 2) engineOff)
  if s.dev.tripped = 0 then s else tamperRecord (State.evt 0xFC 1 (State.evt 0xFC 0 s))

/-- R425: sensor `c` trips; `lights` are the light sensors above threshold at a LIGHT trip. -/
def tamperTrip (c lights : Nat) (s : State) : State :=
  let s := (s.setB F.TMP_STAT_latched true).setF F.TMP_STAT_latched_causes (s.g F.TMP_STAT_latched_causes ||| 2 ^ c)
  let s := s.setB F.DEV_STATUS_tamper_latched true
  let s := if c = 5 then s.setF F.TMP_LIGHT_sensors lights else s
  let s := { s with dev := { s.dev with tripped := s.dev.tripped ||| 2 ^ c } }
  if ¬ enclaveUp s ∨ s.dev.bootPending then { s with enc := { s.enc with eraseDue := true } }
  else
    let s := zeroiseRecord (cipErase 4 s)
    if s.mode = 7 then tamperRecord (State.evt 0xFC 0 s) else zeroisedEnter s

/-- R424, R425: TAMPER_POLICY.enables has the sensor's bit. -/
def sensorOn (s : State) (c : Nat) : Bool := (s.g F.TMP_CFG_enables).testBit c

/-- TAMPER_TRIP. R424, R425: a sensor of bits 0 to 5 trips; a masked one is shown in raw only. -/
def execTamperTrip (c : Fin 6) (lights : BitVec 16) (s : State) : Host.Outcome State Fault Refusal :=
  if s.dev.vaon then
    let s := s.setF F.TMP_STAT_raw (s.g F.TMP_STAT_raw ||| 2 ^ c.val)
    .next (if sensorOn s c.val then tamperTrip c.val lights.toNat s else s)
  else .next s

end Sys2Proof.Machine
end

