-- ==== Sys2Proof/Machine/Hamper.lean ====
section
/-! DEFINITION. The rule engine of Hamper (16_housekeeping_and_monitoring.md, R483 to R489). -/
namespace Sys2Proof.Machine

/-! ## Evaluation (R483, R484) -/

/-- R483, R484: rule `r` is valid and the present mode is one it names. -/
def ruleLive (s : State) (r : Nat) : Bool :=
  s.curOn (F.HMP_RULE_CFG_en r) && s.curOn (if s.mode = 0 then F.HMP_RULE_CFG_in_dormant r else F.HMP_RULE_CFG_in_awake r)

/-- R484: rule `r` reaches FIRED. -/
def ruleFire (r : Nat) (s : State) : State :=
  (ruleGo r 2 (s.g (F.HMP_RULE_STAT_count r)) s).bump (F.HMP_RULE_STAT_entries r) 1

/-- R484: one evaluation of rule `r`; answers whether it has reached FIRED. -/
def ruleEval (r : Nat) (cond release : Bool) (s : State) : Bool × State :=
  let n := s.g (F.HMP_RULE_STAT_count r)
  let persist := s.cur (F.HMP_RULE_CFG_persist r)
  match s.g (F.HMP_RULE_STAT_state r) with
  | 0 =>
    if !cond then (false, s)
    else if persist ≤ 1 then (true, ruleFire r s)
    else (false, ruleGo r 1 1 s)
  | 1 =>
    if !cond then (false, ruleGo r 0 0 s)
    else if persist ≤ n + 1 then (true, ruleFire r s)
    else (false, ruleGo r 1 (n + 1) s)
  | _ => (false, if release then ruleGo r 0 n s else s)

/-- Evaluates the rules of a list by their conditions and releases; answers those that have reached FIRED. -/
def rulesEval (cond : Nat → Bool × Bool) : List Nat → State → List Nat × State
  | [], s => ([], s)
  | r :: rs, s =>
    let (hit, s) := ruleEval r (cond r).1 (cond r).2 s
    let (fired, s) := rulesEval cond rs s
    (if hit then r :: fired else fired, s)

/-! ## Actions (R485 to R488) -/

/-- R485: rule `r` in force has action bit `b`. -/
def ruleAct (s : State) (b r : Nat) : Bool := (s.cur (F.HMP_RULE_CFG_actions r)).testBit b

/-- R488: rule `r` adds a rule-log entry, delivered to the event log at once while that runs. -/
def ruleLog (f : Int) (r : Nat) (s : State) : State :=
  if 32 ≤ s.hmpLog.length then State.evt 0xE0 4 (s.bump F.HMP_LOG_CTRL_dropped 1)
  else
    let w0 := r * 2 ^ 27 + s.cur (F.HMP_RULE_CFG_src r) * 2 ^ 25 + s.cur (F.HMP_RULE_CFG_index r) * 2 ^ 19 +
      s.cur (F.HMP_RULE_CFG_actions r)
    let runs := s.logRuns
    let entry : RuleLog := { w0 := w0, f := unsigned 24 f, time := s.now, waits := !runs }
    let log := s.hmpLog ++ [entry]
    let s := { s with hmpLog := log }.setF F.HMP_LOG_CTRL_held log.length
    s.logPlain 0xE2 r 3 (unsigned 24 f)

/-- R486: Hamper powers down engine `le`: in DORMANT its bit alone is set. -/
def powerDown (le : Nat) (s : State) : State :=
  let s := if le = 0 then s.setB F.HMP_PD_le0 true else s.setB F.HMP_PD_le1 true
  let s := State.evt 0xE0 (2 + le) s
  if s.mode = 0 ∨ s.dev.held then s
  else
    let s := commitCancel (lep le 0x10) (s.setB (F.LE_TX_PLAN_STAT_timed_pending le) false)
    engineOff le s

/-- R485: the rules that reached FIRED in one evaluation take their actions: log, alarm, zeroise, power down, wake. -/
def ruleActions (f : Int) (fired : List Nat) (s : State) : State :=
  if fired = [] then s
  else
    let has (b : Nat) : List Nat := fired.filter (ruleAct s b)
    let logs := has 5
    let alarms := has 1
    let zero := (has 4).isEmpty
    let down0 := (has 2).isEmpty
    let down1 := (has 3).isEmpty
    let wakes := has 0
    let s := (State.evt 0xE0 0 s).forEach logs (ruleLog f)
    let s := if alarms = [] then s
      else State.evt 0xE0 1 (s.setF F.HMP_ALARM_alarm (alarms.foldl (fun v r => v ||| 2 ^ r) (s.g F.HMP_ALARM_alarm)))
    let s := if !zero && sensorOn s 6 then tamperTrip 6 0 s else s
    let s := if down0 then s else powerDown 0 s
    let s := if down1 then s else powerDown 1 s
    match wakes with
    | [] => s
    | r :: _ => dormantWake 1 r s

/-- R483, R484: the filtered value `f` of channel `tag` goes to the rules that read it. -/
def rulesThermos (tag : Nat) (f : Int) (s : State) : State :=
  let cond (r : Nat) : Bool × Bool :=
    let thr := lookI s.inForce (F.HMP_RULE_THR_thr r)
    let hyst : Int := s.cur (F.HMP_RULE_HYST_hyst r)
    if s.curOn (F.HMP_RULE_CFG_below r) then (decide (f < thr), decide (thr + hyst ≤ f))
    else (decide (thr < f), decide (f ≤ thr - hyst))
  let rules := (List.range 32).filter fun r => ruleReads s.inForce r tag && ruleLive s r
  let (fired, s) := rulesEval cond rules s
  ruleActions f fired s

/-- R483, R484: every 1 ms, the tamper bits and the alert balls (`alerts`: bit n for a low UBH_ALERT_N of engine n). -/
def rulesTick (alerts : Nat) (s : State) : State :=
  let cond (r : Nat) : Bool × Bool :=
    let i := s.cur (F.HMP_RULE_CFG_index r)
    let c := if s.cur (F.HMP_RULE_CFG_src r) = 1 then (s.g F.TMP_STAT_raw).testBit i else alerts.testBit i
    (c, !c)
  let rules := (List.range 32).filter fun r =>
    ruleLive s r && (s.cur (F.HMP_RULE_CFG_src r) == 1 || s.cur (F.HMP_RULE_CFG_src r) == 2)
  let (fired, s) := rulesEval cond rules s
  ruleActions 0 fired s

/-! ## Registers (R485, R486, R488) -/

/-- R485: a write of HMP_ALARM: a bit of a FIRED rule stays. -/
def alarmWrite (v : Nat) (s : State) : State :=
  let clear := (List.range 32).filter fun r => v.testBit r && s.g (F.HMP_RULE_STAT_state r) != 2
  s.setF F.HMP_ALARM_alarm (clear.foldl (fun a r => if a.testBit r then a - 2 ^ r else a) (s.g F.HMP_ALARM_alarm))

/-- R488: HMP_LOG_CTRL.pop: the oldest entry moves into HMP_LOG_0 to HMP_LOG_3. -/
def logPop (s : State) : State :=
  match s.hmpLog with
  | [] => s
  | l :: rest =>
    let s := { s with hmpLog := rest }.setF F.HMP_LOG_CTRL_held rest.length
    (((s.setF (F.HMP_LOG_bits 0) l.w0).setF (F.HMP_LOG_bits 1) l.f).setF (F.HMP_LOG_bits 2) l.time).setF
      (F.HMP_LOG_bits 3) (l.time / 2 ^ 32)

/-- R488: a write of HMP_SEAL. -/
def sealWrite (m : Master) (v : Nat) (s : State) : State :=
  if m ≠ .mgmt then s.refuse (mcode m) .denied 0xE004C
  else if v.testBit 0 then sealSet true s else s

/-- HMP_SEAL -/
def execHmpSeal (m : Master) (s : State) : Host.Outcome State Fault Refusal := .next (s.goWrite m 0xE004C true (sealWrite m 1))

/-- HMP_LOG_POP -/
def execHmpLogPop (m : Master) (s : State) : Host.Outcome State Fault Refusal := .next (s.goWrite m 0xE2040 true logPop)

end Sys2Proof.Machine
end

