-- ==== Sys2Proof/Machine/Bus.lean ====
section
/-! DEFINITION. Accesses of the register fabric by address (R13, R15, R50, R51, R53, R68): the register map with its access
codes, the common header, the registers whose access has an effect, and the values formed at a read. -/
namespace Sys2Proof.Machine

/-! ## The register map (R15) -/

/-- Whether an offset from an array's base is that of an instance, by the array's dimensions. -/
def rowHits : Nat → List (Nat × Nat) → Bool
  | off, [] => off == 0
  | off, (stride, n) :: ds => decide (off / stride < n) && rowHits (off % stride) ds

/-- The fields of the register at a bus address, if some chapter documents one there. -/
def regAt (addr : Nat) : Option (List FSpec) :=
  (regMap.find? fun r => decide (r.base ≤ addr) && rowHits (addr - r.base) r.dims).map (·.fields)

/-- The field of a register at `addr`. -/
def fieldAt (addr : Nat) (f : FSpec) : Field := { key := addr * 8 + f.lo, width := f.hi - f.lo + 1, reset := f.reset }

/-- The bits of a written word that fall on a field. -/
def fieldBits (v : Nat) (f : FSpec) : Nat := v / 2 ^ f.lo % 2 ^ (f.hi - f.lo + 1)

/-- R68: a page LOCK of another master refuses writes of the field. -/
def refusable (a : Acc) : Bool := a == .rw || a == .rws || a == .wo || a == .w1s

/-- R68: a write would change a refused field. -/
def wouldChange (s : State) (addr v : Nat) (f : FSpec) : Bool :=
  let b := fieldBits v f
  match f.acc with
  | .rw => b != s.g (fieldAt addr f)
  | .rws => b != s.stg (fieldAt addr f)
  | .w1s => b != 0
  | .wo => f.lo != f.hi || b == 1
  | _ => false

/-- R15: a write takes effect on one field by its access code. -/
def fieldWrite (addr v : Nat) (locked : Bool) (f : FSpec) (s : State) : State :=
  let b := fieldBits v f
  let x := fieldAt addr f
  if locked && refusable f.acc then s
  else match f.acc with
  | .rw => s.setF x b
  | .rws => s.stage x b
  | .w1c => s.setF x (s.g x &&& (b ^^^ (2 ^ x.width - 1)))
  | .w1s => s.setF x (s.g x ||| b)
  | _ => s

/-- R68: the access error of a write under a LOCK of another master. -/
def lockRefusal (m : Master) (addr v : Nat) (fs : List FSpec) (s : State) : State :=
  if (fs.any fun f => refusable f.acc) && (!(fs.any fun f => f.acc == .w1c) || fs.any (wouldChange s addr v)) then
    s.refuse (mcode m) .denied addr
  else s

/-- R51, R127, R134, R165: the register answers in clk_fab while the block's own domain is stopped: the configuration fields of pages
whose configuration is held there, the rates in force and the symbol-rate limits of an engine. -/
def answersInFab (addr : Nat) (fs : List FSpec) : Bool :=
  let a := if 0x50000 ≤ addr && addr < 0x90000 then addr - 0x40000 else addr
  (fabHeld (pageOf addr) && fs.any fun f => f.acc == .rws || f.acc == .rw) || (0x14054 ≤ a && a < 0x14060) || a == 0x18054

/-- R15, R18, R51, R68: a write to a register whose fields do no more than their access codes state; an undocumented offset
ignores it. -/
def plainWrite (m : Master) (addr v : Nat) (s : State) : State :=
  let fs := (regAt addr).getD []
  let locked := s.lockedOut (mcode m) (pageOf addr)
  if !s.domainUp (pageOf addr) && !answersInFab addr fs then s.refuse (mcode m) .domainDown addr
  else
    let s := if locked then lockRefusal m addr v fs s else s
    s.forEach fs (fieldWrite addr v locked)

/-! ## Pins of the interrupt roll-up (R84, R86) and clock domains (R79, R126) -/

/-- R86: the fabric runs, so that page summaries drive the pins. -/
def fabricUp (s : State) : Bool := s.mode != 0 && !s.dev.held && s.dev.vaon

/-- R86: IRQ_N is asserted. -/
def irqPin (s : State) : Bool := fabricUp s && (List.range 256).any fun p => s.on (F.DEV_PAGE_ROUTE_to_irq p) && s.summary p

/-- R86, R425, R485: ALARM_N is asserted. -/
def alarmPin (s : State) : Bool :=
  s.g F.HMP_ALARM_alarm != 0 || s.on F.TMP_STAT_latched ||
  (fabricUp s && (List.range 256).any fun p => s.on (F.DEV_PAGE_ROUTE_to_alarm p) && s.summary p)

/-- R79, R82, R126: clock domain `k` is in reset or stopped, while the fabric runs. -/
def domainStopped (s : State) (k : Nat) : Bool :=
  let roles (le : Nat) : Bool := !s.domainUp (0xE8 + 2 * le)
  let wake := s.mode == 1
  if k = 3 then wake && s.dev.bootPending
  else if k = 7 then !s.dev.debugUp
  else if 9 ≤ k ∧ k ≤ 11 then wake
  else if 12 ≤ k ∧ k ≤ 25 then
    match (k - 12) % 7 with
    | 0 => roles ((k - 12) / 7)
    | 1 => roles ((k - 12) / 7)
    | 6 => roles ((k - 12) / 7)
    | 5 => false
    | _ => wake
  else if k = 26 then wake
  else if k = 27 then !s.domainUp 0xC0
  else if 28 ≤ k ∧ k ≤ 31 then !s.domainUp (0x90 + (k - 28))
  else if 32 ≤ k then !(s.inService && s.g (F.HL_LANE_STAT_state ((k - 32) / 8) ((k - 32) % 8)) != 0)
  else false

/-- R82: the writing side of a FIFO between domains `a` and `b` sees it full, the reading side empty: until both are out of reset (the
handshake then lies within FIFO_RESYNC). -/
def fifoBlocked (s : State) (a b : Nat) : Bool := domainStopped s a || domainStopped s b

/-- A word whose bit i is `p i`. -/
def wordOf (n : Nat) (p : Nat → Bool) : Nat := (List.range n).foldl (fun v i => if p i then v + 2 ^ i else v) 0

/-! ## The common page header (R53 to R56) -/

/-- R49: block type, first page and instance of page `p`. -/
def pageBlock (p : Nat) : Nat × Nat × Nat :=
  if p ≤ 0x0A then (p + 1, p, 0)
  else if p ≤ 0x4F then (0x100, 0x10, 0)
  else if p ≤ 0x8F then (0x100, 0x50, 1)
  else if p ≤ 0x9F then (0x200, 0x90, 0)
  else if p ≤ 0xAF then (0x300, 0xA0, 0)
  else if p ≤ 0xBF then (0x400, 0xB0, 0)
  else if p ≤ 0xC7 then (0x500, 0xC0, 0)
  else if p ≤ 0xCF then (0x600, 0xC8, 0)
  else if p ≤ 0xD7 then (0x700, 0xD0, 0)
  else if p ≤ 0xDF then (0x800, 0xD8, 0)
  else if p ≤ 0xE7 then (0x900, 0xE0, 0)
  else if p ≤ 0xEF then (0xA00, 0xE8, 0)
  else if p ≤ 0xF7 then (0xB00, 0xF0, 0)
  else if p ≤ 0xFB then (0xC00, 0xF8, 0)
  else (0xD00, 0xFC, 0)

/-- R53: PAGE_STAT.staged_dirty of domain `d`. -/
def stagedDirty (s : State) (d : Nat) : Bool := Tbl.keep (inDomain d) s.staged != Tbl.keep (inDomain d) s.inForce

/-- R53: PAGE_STAT. -/
def pageStat (s : State) (p : Nat) : Nat :=
  let d := domainOf p
  d * 2 ^ 24 + s.g (F.PAGE_STAT_commit_reason d) * 2 ^ 16 + s.g (F.PAGE_STAT_commit_err d) * 2 ^ 15 +
  s.g (F.PAGE_STAT_commit_pending d) * 2 ^ 14 + s.g (F.PAGE_STAT_commit_armed d) * 2 ^ 13 + (stagedDirty s d).toNat * 2 ^ 12 +
  s.g (F.PAGE_STAT_snap_busy p) * 2 ^ 11 + (pageFrozen s p).toNat * 2 ^ 9 + (s.domainUp p).toNat * 2 ^ 8

/-- R53: a read in the common header. -/
def headerRead (m : Master) (p off : Nat) (s : State) : Nat × State :=
  if off = 0x24 then lockRead m (.page (Fin.ofNat 256 p)) s
  else
    let s := s.access m
    let (ty, first, inst) := pageBlock p
    let v := match off with
      | 0x00 => ty * 2 ^ 16 + inst * 2 ^ 8 + (p - first)
      | 0x04 => 0x01000000
      | 0x08 => s.g (F.PAGE_CTRL_commit_sync p) * 8 + s.g (F.PAGE_CTRL_freeze p) * 4 + s.g (F.PAGE_CTRL_enable p)
      | 0x0C => pageStat s p
      | 0x10 => s.g (F.EVT_RAW p)
      | 0x14 => s.g (F.EVT_STICKY p)
      | 0x18 => s.g (F.EVT_EN p)
      | 0x20 => s.g (F.COMMIT_seq (domainOf p)) * 256
      | 0x28 => s.g (F.ERR_valid p) * 2 ^ 31 + s.g (F.ERR_lost p) * 2 ^ 30 + s.g (F.ERR_step p) * 256 + s.g (F.ERR_code p)
      | 0x2C => s.g (F.SNAP_seq p) * 256
      | _ => 0
    (v, s)

/-- R53: a page whose block function becomes held idle, or is so no more: the transmit output goes DARK, reception is IDLE, a monitor
capture ends. -/
def pageIdle (p : Nat) (s : State) : State :=
  let le := if 0x50 ≤ p ∧ p ≤ 0x8F then 1 else 0
  match p - 0x40 * le with
  | 0x14 => txEval le s
  | 0x18 => if s.pageOn p && s.runState le == 2 then losEval le (rxGo le 1 s) else rxGo le 0 s
  | 0xE8 => if s.pageOn p then s else monAbort 0 s
  | 0xEA => if s.pageOn p then s else monAbort 1 s
  | _ => s

/-- R53: a write of PAGE_CTRL. -/
def pageCtrl (p v : Nat) (s : State) : State :=
  let was := s.pageOn p
  let s := (s.setF (F.PAGE_CTRL_commit_sync p) (v / 8)).setF (F.PAGE_CTRL_enable p) v
  let s := if s.pageOn p = was then s else pageIdle p s
  let s := pageFreeze p (v.testBit 2) (s.setB (F.PAGE_CTRL_freeze p) (v.testBit 2))
  if v.testBit 1 then softReset p s else s

/-- R53, R54, R55: a write in the common header; the W1C registers are refused by no LOCK (R54, R68). -/
def headerWrite (m : Master) (p off v : Nat) (s : State) : State :=
  let a := p * 0x1000 + off
  match off with
  | 0x08 => s.goWrite m a true (pageCtrl p v)
  | 0x14 => (s.access m).setF (F.EVT_STICKY p) (s.g (F.EVT_STICKY p) &&& (v ^^^ 0xFFFFFFFF))
  | 0x18 => s.goWrite m a true fun s => State.msiRise s p (s.setF (F.EVT_EN p) v)
  | 0x1C => evtForce m p v s
  | 0x20 => commitWrite m p v s
  | 0x24 => lockWrite m (.page (Fin.ofNat 256 p)) v s
  | 0x28 =>
    let s := s.access m
    if v.testBit 31 then
      (((s.setB (F.ERR_valid p) false).setB (F.ERR_lost p) false).setF (F.ERR_step p) 0).setF (F.ERR_code p) 0
    else s
  | 0x2C => s.goWrite m a true fun s => if v.testBit 0 then pageSnap p s else s
  | _ => s.access m

/-! ## GPIO (R562) -/

/-- R562: ball `n` takes a level; an enabled edge raises the event. -/
def gpioLevel (n : Nat) (v : Bool) (s : State) : State :=
  let w := s.g F.GPIO_IN_in
  if w.testBit n = v then s
  else
    let s := s.setF F.GPIO_IN_in (w ^^^ 2 ^ n)
    let on := if v then (s.g F.GPIO_EDGE_rising).testBit n else (s.g F.GPIO_EDGE_falling).testBit n
    if on then State.evt 0x06 n s else s

/-- R562: the driven balls take their output values. -/
def gpioDrive (s : State) : State :=
  s.forEach ((List.range 16).filter fun n => (s.g F.GPIO_DIR_dir).testBit n) fun n s =>
    gpioLevel n ((s.g F.GPIO_OUT_out).testBit n) s

/-- GPIO_EDGE. R562: ball `n`, not driven by the device, changes. -/
def execGpioEdge (n : Fin 16) (rising : Bool) (s : State) : Host.Outcome State Fault Refusal :=
  .next (if (s.g F.GPIO_DIR_dir).testBit n.val ∨ ¬ s.domainUp 0x06 then s else gpioLevel n.val rising s)

/-! ## Writes with an effect of their own -/

/-- R71, R74, R75: a write of a mailbox register. -/
def mbxWrite (m : Master) (n r v : Nat) (s : State) : State :=
  let a := 0x9040 + 0x20 * n + r
  let mine := endpoint m == (mbxEnds n).1
  match r with
  | 0 => mbxTx m n v s
  | 8 =>
    let s := s.access m
    if !mine then s.refuse (mcode m) .denied a
    else
      let s := if v.testBit 17 then s.setB (F.MBX_STAT_overrun n) false else s
      let s := if v.testBit 16 then s.setB (F.MBX_STAT_timeout n) false else s
      if v.testBit 15 then (s.setB (F.MBX_STAT_discarded n) false).setF (F.MBX_STAT_discard_cnt n) 0 else s
  | 12 => s.goWrite m a true fun s =>
      if mine then mbxConfig n v s else s.refuse (mcode m) .denied a
  | 4 => (s.access m).refuse (mcode m) .denied a
  | _ => s.access m

/-- R87, R88: a write of the MSI-X table: message words are kept; a vector unmasked with its pending bit set sends where the
function can. -/
def msixWrite (addr v : Nat) (s : State) : State :=
  let n := (addr - 0x3FF0000) / 16
  if 0x3FF0400 ≤ addr then s
  else if addr % 16 ≠ 12 then s.setF { key := addr * 8, width := 32, reset := 0 } v
  else
    let s := { s with ev := { s.ev with msiUnmasked := Tbl.set false s.ev.msiUnmasked n (!v.testBit 0) } }
    if Tbl.get false s.ev.msiPend n && s.ev.canSend n then
      let up := s.vecSummary n
      let s := { s with ev := { s.ev with msiPend := Tbl.set false s.ev.msiPend n false } }
      if up then s.msiSend n else s
    else s

/-- R489: a write is seal-guarded. -/
def sealGuarded (addr v : Nat) (s : State) : Bool :=
  if 0xE1040 ≤ addr ∧ addr < 0xE1240 ∧ addr % 16 ≠ 12 then
    let r := (addr - 0xE1040) / 16
    ruleZero s.staged r || ruleZero s.inForce r || (addr % 16 == 0 && v.testBit 4)
  else if 0xE5040 ≤ addr ∧ addr < 0xE5110 then zeroReads s ((addr - 0xE5040) / 4)
  else false

/-- R482, R489: a write of a rule or a Thermos channel: a seal-guarded one is accepted only from MGMT while not sealed; for a
channel the device records whether its staged configuration was last written so. -/
def guardedWrite (m : Master) (addr v : Nat) (s : State) : State :=
  let guarded := sealGuarded addr v s
  if guarded && (m != .mgmt || s.on F.HMP_SEAL_sealed) then s.refuse (mcode m) .denied addr
  else
    let locked := s.lockedOut (mcode m) (pageOf addr)
    let s := plainWrite m addr v s
    if 0xE5040 ≤ addr ∧ addr < 0xE5110 ∧ ¬ locked then
      modThm (fun t => { t with sealOk := Tbl.set false t.sealOk ((addr - 0xE5040) / 4) guarded }) s
    else s

/-- A command bit 0 of a register: the gate of a command write, then the command where the bit is 1. -/
def bitGo (m : Master) (addr v : Nat) (f : State → State) (s : State) : State :=
  s.goWrite m addr false fun s => if v.testBit 0 then f s else s

/-- Writes to an engine's pages that have an effect of their own; `q` is the page as LE0 numbers it. -/
def engineWrite (m : Master) (le q addr v : Nat) : Option (State → State) :=
  match q, addr % 0x1000 with
  | 0x15, 0x48 => some (maskUnmute m le v)
  | 0x21, 0x40 => some fun s => s.goWrite m addr false fun s =>
      let s := s.setF (F.LE_P2MP_BREC_CTRL_mode le) (v / 256)
      if v.testBit 0 then brecPopDo le s else s
  | 0x21, 0x90 => some fun s => if v.testBit 0 then lmsgGo m le s else s.goWrite m addr false id
  | 0x22, 0x54 => some (bitGo m addr v (leafUnquiesce le))
  | _, _ => none

/-- R372: a write of BUF_INJ_CTRL: the symbols, then go. -/
def injWrite (v : Nat) (s : State) : State :=
  let s := ((s.setF F.BUF_INJ_CTRL_sym_c (v / 2 ^ 24)).setF F.BUF_INJ_CTRL_sym_b (v / 2 ^ 16)).setF F.BUF_INJ_CTRL_sym_a (v / 2 ^ 8)
  if v.testBit 0 then injGo s else s

/-- R371: a write of BUF_ECC_CTRL. -/
def eccWrite (v : Nat) (s : State) : State :=
  let s := ((s.setF F.BUF_ECC_CTRL_ce_repeat (v / 2 ^ 28)).setF F.BUF_ECC_CTRL_ce_window (v / 2 ^ 16)).setF F.BUF_ECC_CTRL_wb_en v
  if v.testBit 1 then hardClr s else s

/-- R447: a write of UBH_PT_CMD. -/
def ptWrite (le v : Nat) (s : State) : State :=
  if v.testBit 31 then ptGo le (v.testBit 24) (v / 2 ^ 16 % 256) (v % 2 ^ 16) s
  else ((s.setF (F.UBH_PT_CMD_write le) (v / 2 ^ 24)).setF (F.UBH_PT_CMD_length le) (v / 2 ^ 16)).setF (F.UBH_PT_CMD_address le) v

/-- R494: a write of MON_CMD: abort, then rearm, then trigger. -/
def monCmdWrite (le v : Nat) (s : State) : State :=
  let s := if v.testBit 1 then monAbort le s else s
  let s := if v.testBit 2 then monRearm le s else s
  if v.testBit 0 then monTrigGo le s else s

/-- R509: a write of REP_CMD. -/
def repCmdWrite (v : Nat) (s : State) : State :=
  let s := if v.testBit 0 then repDpllTest s else s
  let s := if v.testBit 1 then nextPipeTest s else s
  let s := if v.testBit 2 then monTestGo 0 s else s
  if v.testBit 3 then monTestGo 1 s else s

/-- R507, R517: a write of CAL_FG. -/
def calFgWrite (v : Nat) (s : State) : State :=
  let s := (s.setF F.CAL_FG_engine (v / 256)).setF F.CAL_FG_fec (v / 4)
  let s := (s.setF F.CAL_FG_dac (v / 2)).setF F.CAL_FG_adc v
  if v.testBit 31 then fgGo (v / 256 % 2) (v % 8) s else s

/-- R477, R479: a write of THM_CMD. -/
def thmCmdWrite (v : Nat) (s : State) : State :=
  let s := if v.testBit 1 then calGo s else s
  if v.testBit 0 then thmTrigger s else s

/-- Writes to the device's other pages that have an effect of their own. -/
def blockWrite (m : Master) (addr v : Nat) : Option (State → State) :=
  let go (f : State → State) : Option (State → State) := some fun s => s.goWrite m addr false f
  match addr / 0x1000, addr % 0x1000 with
  | 0x00, 0x40 => some (modeWrite m v)
  | 0x00, 0x58 => some fun s => if v.testBit 0 then resetWrite m (v / 2 ^ 16 % 2 ^ 16) s else s.goWrite m addr true id
  | 0x00, 0x60 => some (bitGo m addr v syncFire)
  | 0x01, 0x80 => some (vecEoi m (v % 64))
  | 0x06, 0x40 => some fun s => gpioDrive (plainWrite m addr v (s.access m))
  | 0x06, 0x44 => some fun s => gpioDrive (plainWrite m addr v (s.access m))
  | 0x09, 0x200 => some fun s => if v.testBit 0 || endpoint m != 0 then mbxHostReset m s else s.goWrite m addr true id
  | 0xB0, 0x4C => some fun s => if v.testBit 0 then bankCopy m s else s.goWrite m addr false id
  | 0xC1, 0x40 => go (eccWrite v)
  | 0xC1, 0xC4 => go (injWrite v)
  | 0xC2, 0x40 => some (bitGo m addr v bufLogPop)
  | 0xC3, 0x44 => some (bitGo m addr v retireGo)
  | 0xC3, 0x50 => some fun s => poolReport (plainWrite m addr v (s.access m))
  | 0xC3, 0x64 => some (bitGo m addr v rowrepGo)
  | 0xC9, 0x44 => go fun s => if v.testBit 31 then kxStart (v % 1024) (v / 2 ^ 16 % 1024) s else s
  | 0xD3, 0x58 => go (timeCtrl (v.testBit 31) (v.testBit 29) (v % 1024))
  | 0xD8, 0x40 => go (ubhCtrl 0 (v.testBit 31) (v.testBit 8))
  | 0xD9, 0x40 => go (ubhCtrl 1 (v.testBit 31) (v.testBit 8))
  | 0xD8, 0x100 => go (ptWrite 0 v)
  | 0xD9, 0x100 => go (ptWrite 1 v)
  | 0xE0, 0x48 => some fun s => alarmWrite v (s.access m)
  | 0xE0, 0x4C => go (sealWrite m v)
  | 0xE2, 0x40 => some (bitGo m addr v logPop)
  | 0xE4, 0x40 => go (refEnable (v.testBit 0))
  | 0xE4, 0x48 => go (thmCmdWrite v)
  | 0xE6, 0x40 => some (bitGo m addr v thmPop)
  | 0xE8, 0x58 => go (monCmdWrite 0 v)
  | 0xEA, 0x58 => go (monCmdWrite 1 v)
  | 0xF0, 0x48 => go (repCmdWrite v)
  | 0xF2, 0x80 => go (calFgWrite v)
  | 0xF8, 0x40 => go (freezeWrite v)
  | 0xF9, 0x40 => go (smpCtrl v)
  | 0xFA, 0x48 => go (evlTail v)
  | _, _ => none

/-- Writes above the pages: the table windows. -/
def windowWrites (m : Master) (addr v : Nat) : Option (State → State) :=
  if 0x300000 ≤ addr ∧ addr < 0x310000 then some (windowWrite m (addr - 0x300000) v)
  else if 0x320000 ≤ addr ∧ addr < 0x328000 then
    let le := (addr - 0x320000) / 0x4000
    let t := addr % 0x4000 / 0x800
    if t < 6 then some (trimWrite m le t (addr % 0x800 / 4) v) else none
  else if 0x330000 ≤ addr ∧ addr < 0x334000 then
    let n := (addr - 0x330000) / 0x20
    match addr % 0x20 with
    | 0 => some fun s => s.goWrite m addr false (cntSel n v)
    | 4 => some fun s => plainWrite m addr v (cntTake (s.access m))
    | 8 => some fun s => s.goWrite m addr false (cntLo m n v)
    | 12 => some fun s => s.goWrite m addr false (cntHi m n v)
    | _ => none
  else if 0x1000000 ≤ addr ∧ addr < 0x3000000 then some (winWrite m addr v)
  else if 0x3FF0000 ≤ addr then some fun s => s.goWrite m addr true (msixWrite addr v)
  else none

/-- R413: the exchange buffer takes writes of MGMT, PCIE and SPI. -/
def xbufWrite (m : Master) (addr v : Nat) (s : State) : State :=
  if m = .mgmt ∨ m = .pcie ∨ m = .spi then plainWrite m addr v s else s

/-- R13, R50: a 32-bit write by a master at a bus address. -/
def busWrite (m : Master) (addr v : Nat) (s : State) : State :=
  let p := pageOf addr
  if addr = 0x40 then modeWrite m v s
  else if !s.reaches m p then s
  else if !definedPage p then (s.access m).refuse (mcode m) .unmapped addr
  else if 0x100000 ≤ addr then
    match windowWrites m addr v with
    | some f => f s
    | none => plainWrite m addr v (s.access m)
  else if addr % 0x1000 < 0x40 then headerWrite m p (addr % 0x1000) v s
  else
    let special := if 0x10 ≤ p ∧ p ≤ 0x8F then
        let le := if p < 0x50 then 0 else 1
        engineWrite m le (p - 0x40 * le) addr v
      else blockWrite m addr v
    match special with
    | some f => f s
    | none =>
      if p = 0x08 ∧ addr < 0x8140 then lockWrite m (.general (Fin.ofNat 64 ((addr - 0x8040) / 4))) v s
      else if p = 0x09 ∧ addr < 0x91C0 then mbxWrite m ((addr - 0x9040) / 0x20) (addr % 0x20) v s
      else
        let a := s.access m
        if p = 0xE1 ∨ p = 0xE5 then guardedWrite m addr v a
        else if 0xFEA00 ≤ addr ∧ addr < 0xFF000 then xbufWrite m addr v a
        else if 0x1400 ≤ addr ∧ addr < 0x1800 then State.msiRise s ((addr - 0x1400) / 4) (plainWrite m addr v a)
        else plainWrite m addr v a

/-! ## Reads -/

/-- R535: what a field reads as: its live value, or the value a freeze holds; the read of an RC field clears it, or under a freeze
what is left of the held value, which the release then takes from the live count. -/
def countRead (addr : Nat) (f : FSpec) (s : State) : Nat × State :=
  let x := fieldAt addr f
  let rc := f.acc == .rc
  if pageFrozen s (pageOf addr) then
    let v := look s.cnt.held x
    if rc then
      (v, modCnt (fun c => { c with held := Tbl.set 0 c.held x.key 0, owed := Tbl.set 0 c.owed x.key (Tbl.get 0 c.owed x.key + v) }) s)
    else (v, s)
  else (s.g x, if rc then s.setF x 0 else s)

/-- R53, R534: a field that is a counter and is not cleared by its read: the 512 counters, those of page 0x31, MON_CAP_SEQ, the
acquisitions of LEn_RX_STATE. -/
def counterAt (addr : Nat) (f : FSpec) : Bool :=
  let le := if 0x50000 ≤ addr then 1 else 0
  (0x330000 ≤ addr && addr < 0x334000 && 8 ≤ addr % 0x20 && addr % 0x20 < 16) ||
  (0x31040 + 0x40000 * le ≤ addr && addr < 0x31070 + 0x40000 * le) || addr == 0xE8074 || addr == 0xEA074 ||
  addr * 8 + f.lo == (F.LE_RX_STATE_acquisitions le).key

/-- R15: one field of a read. -/
def fieldRead (addr : Nat) (f : FSpec) (s : State) : Nat × State :=
  match f.acc with
  | .rws => (s.stg (fieldAt addr f), s)
  | .rc => countRead addr f s
  | .wo => (0, s)
  | .ra => (0, s)
  | _ => if counterAt addr f then countRead addr f s
         else (s.g (fieldAt addr f), s)

/-- R15: the fields of a register, read one after another. -/
def fieldsRead (addr : Nat) : List FSpec → State → Nat × State
  | [], s => (0, s)
  | f :: fs, s =>
    let (v, s) := fieldRead addr f s
    let (w, s) := fieldsRead addr fs s
    (v * 2 ^ f.lo + w, s)

/-- The registers that show what was measured and no command brings: the detectors of a chain that is not enabled (R493), the memory
bandwidth used (R361). -/
def measured (addr : Nat) : Bool :=
  let is (f : Field) : Bool := f.key / 8 == addr
  ((List.range 2).any fun le =>
    is (F.MON_PEAK_value le) || is (F.MON_RMS_value le) || is (F.MON_ENV_value le)) ||
  is F.BUF_BW_share

/-- A measured register reads as a free value of its fields while the block it measures is in service. -/
def measuredRead (fs : List FSpec) (s : State) : Nat × State :=
  fs.foldl (fun a f =>
    let (v, s) := a.2.draw (f.hi - f.lo + 1)
    (a.1 + v * 2 ^ f.lo, s)) (0, s)

/-- The length of a queue of direction `n` and the writer of its oldest word (R71). -/
def mbxStat (s : State) (n : Nat) : Nat :=
  let q := s.mbxQ n
  let w := match q with | [] => 0 | x :: _ => x.writer
  w * 2 ^ 24 + q.length * 2 ^ 20 + (decide (q.length = 8)).toNat * 2 ^ 19 + q.isEmpty.toNat * 2 ^ 18 +
  s.g (F.MBX_STAT_overrun n) * 2 ^ 17 + s.g (F.MBX_STAT_timeout n) * 2 ^ 16 + s.g (F.MBX_STAT_discarded n) * 2 ^ 15 +
  s.g (F.MBX_STAT_rx_in_reset n) * 2 ^ 14 + heldOr s (F.MBX_STAT_discard_cnt n)

/-- R8, R198: the register of a subcarrier at or above the N of the running engine, or a record of one that is not enabled: its transmit
gain, a word of its quality record. -/
def inactiveSc (s : State) (le q off : Nat) : Bool :=
  s.runState le != 0 &&
  ((q == 0x14 && 0x80 ≤ off && off < 0x100 && 2 ^ txScCount s.inForce le ≤ (off - 0x80) / 4) ||
   (q == 0x1D && 0x100 ≤ off && off < 0x900 &&
    (2 ^ rxScCount s.inForce le ≤ (off - 0x100) / 0x40 || !(s.cur (F.LE_RX_SC_EN_en le)).testBit ((off - 0x100) / 0x40))))

/-- R8, R206, R216, R239, R261: what some of an engine's registers show: those of inactive subcarriers their reset value 0; the period,
the segment capacity, the device tag, a tile's marks of the last 10 s. -/
def engineShows (s : State) (le q off : Nat) : Option Nat :=
  if inactiveSc s le q off then some 0
  else match q, off with
  | 0x20, 0x60 => some (if s.role le = 2 ∨ s.role le = 3 then periodNow s le % 2 ^ 32 else 0)
  | 0x20, 0x68 => some (if s.role le = 2 then segCap s.inForce le else 0)
  | 0x22, 0x50 => some (s.g F.ENC_SERIAL_LO_serial % 2 ^ 24)
  | 0x17, 0x48 => some ((envAbove s le).toNat * 2 ^ 31)
  | 0x32, _ =>
    if 0x80 ≤ off ∧ off < 0xE8 then
      let t := (off - 0x80) / 4
      some (min (marksNow s le t).length 255 * 256 + s.g (F.LE_FEC_TILE_STAT_state le t))
    else none
  | _, _ => none

/-- Registers that show other state: the value formed at a read. -/
def blockShows (s : State) (addr : Nat) : Option Nat :=
  if 0x1040 ≤ addr ∧ addr < 0x1060 then
    some (wordOf 32 fun j => s.summary ((addr - 0x1040) * 8 + j))
  else match addr with
  | 0x1088 => some (wordOf 32 s.vecSummary)
  | 0x108C => some (wordOf 32 fun v => s.vecSummary (32 + v))
  | 0x1090 => some ((alarmPin s).toNat * 2 + (irqPin s).toNat)
  | 0x8148 => some (wordOf 32 fun n => s.g (F.LOCKN_owner n) != 0)
  | 0x814C => some (wordOf 32 fun n => s.g (F.LOCKN_owner (32 + n)) != 0)
  | 0xA040 => some (wordOf 32 (domainStopped s))
  | 0xA044 => some (wordOf 32 fun k => domainStopped s (32 + k))
  | 0xC3058 =>
    let e := Tbl.get (0, 0) s.buf.remap (s.g F.BUF_REMAP_IDX_idx)
    some (e.1 * 2 ^ 30 + e.2)
  | 0xB0080 | 0xB0084 | 0xB0088 | 0xB008C | 0xB0090 | 0xB0094 =>
    let q := (addr - 0xB0080) / 4
    some (s.g (F.CLS_PIPE_STAT_state q) * 2 ^ 16 + s.g (F.CLS_PIPE_STAT_suspect q) * 2 ^ 9 + min (mismatchesNow s q).length 255)
  | 0xC8080 | 0xC8084 | 0xC8088 | 0xC808C | 0xC8090 | 0xC8094 | 0xC8098 | 0xC809C =>
    let c := (addr - 0xC8080) / 4
    some (s.g (F.CIP_CORE_STAT_state c) * 2 ^ 16 + s.g (F.CIP_CORE_STAT_suspect c) * 2 ^ 9 + min (coreMismatches s c).length 255)
  | 0xC8040 =>
    some (s.g F.ENC_STAT_zeroised * 2 ^ 31 + s.g F.CIP_STAT_overload * 2 ^ 30 + s.g F.CIP_STAT_cores * 2 ^ 16 +
      s.g F.CIP_STAT_shed_first)
  | _ =>
    if 0xF1040 ≤ addr ∧ addr < 0xF1068 then
      let c := (addr - 0xF1040) / 4
      let (a, b, v) := classStat s c
      some (s.g (F.REP_CLASS_STAT_exhausted c) * 2 ^ 31 + a * 2 ^ 24 + b * 2 ^ 16 + v)
    else if (0xE8060 ≤ addr ∧ addr < 0xE806C ∨ 0xEA060 ≤ addr ∧ addr < 0xEA06C) ∧ addr % 4 = 0 ∧
        s.curOn (F.MON_CTRL_en ((addr - 0xE8000) / 0x2000)) then
      some (monDetector s ((addr - 0xE8000) / 0x2000) (addr % 0x100 / 4 - 24))
    else if 0xD1040 ≤ addr ∧ addr < 0xD1130 ∧ addr % 16 = 8 then some (wtrLeft s ((addr - 0xD1040) / 16))
    else none

/-- R83, R494, R495, R523, R540: words of the read-only windows. -/
def windowShows (s : State) (addr : Nat) : Option Nat :=
  if 0x200000 ≤ addr ∧ addr < 0x220000 then
    some (Tbl.get 0 (s.eng ((addr - 0x200000) / 0x10000)).mon.buffer (addr % 0x10000 / 4))
  else if 0x334000 ≤ addr ∧ addr < 0x338000 then some (evlWindow s (addr - 0x334000))
  else if 0x340000 ≤ addr ∧ addr < 0x3C0000 then some (Tbl.get 0 s.smp.words ((addr - 0x340000) / 4))
  else if 0x3FF8000 ≤ addr ∧ addr < 0x3FF8008 then
    some (wordOf 32 fun v => Tbl.get false s.ev.msiPend ((addr - 0x3FF8000) * 8 + v))
  else if 0x3FF0000 ≤ addr ∧ addr < 0x3FF0400 then
    if addr % 16 = 12 then some (!Tbl.get false s.ev.msiUnmasked ((addr - 0x3FF0000) / 16)).toNat
    else some (s.g { key := addr * 8, width := 32, reset := 0 })
  else none

/-- R51: a read of a register or window word outside the common headers. -/
def blockRead (addr : Nat) (s : State) : Nat × State :=
  let p := pageOf addr
  let fs := (regAt addr).getD []
  if !s.domainUp p && !answersInFab addr fs then (0xFFFFFFFF, s)
  else
    let le := if p < 0x50 then 0 else 1
    let shown :=
      if 0x100000 ≤ addr then windowShows s addr
      else if 0x10 ≤ p ∧ p ≤ 0x8F then engineShows s le (p - 0x40 * le) (addr % 0x1000)
      else blockShows s addr
    match shown with
    | some v => (v, s)
    | none => if measured addr && s.inService then measuredRead fs s else fieldsRead addr fs s

/-- R13, R50, R51: a 32-bit read by a master at a bus address. -/
def busRead (m : Master) (addr : Nat) (s : State) : Nat × State :=
  let p := pageOf addr
  if !s.reaches m p then (0xFFFFFFFF, s)
  else if !definedPage p then (0, s.access m)
  else if addr < 0x100000 ∧ addr % 0x1000 < 0x40 then headerRead m p (addr % 0x1000) s
  else if 0x8040 ≤ addr ∧ addr < 0x8140 then lockRead m (.general (Fin.ofNat 64 ((addr - 0x8040) / 4))) s
  else if 0x9040 ≤ addr ∧ addr < 0x91C0 then
    let n := (addr - 0x9040) / 0x20
    match addr % 0x20 with
    | 4 => mbxRx m n s
    | 8 => (mbxStat s n, s.access m)
    | 12 => (s.g (F.MBX_CFG_timeout_us n), s.access m)
    | _ => (0, s.access m)
  else if 0x300000 ≤ addr ∧ addr < 0x310000 then windowRead m (addr - 0x300000) s
  else if 0x1000000 ≤ addr ∧ addr < 0x3000000 then
    let s := s.access m
    if s.domainUp 0xB0 then winRead addr s else (0xFFFFFFFF, s)
  else blockRead addr (s.access m)

end Sys2Proof.Machine
end

