-- ==== Sys2Proof/Machine/Trust.lean ====
section
/-! DEFINITION. Root of trust (13_trust_and_dual_control.md): the enclave's commands, the settings digest, cosigned changes and
their application, attestation, the key-loading key, debug unlock. -/
namespace Sys2Proof.Machine

/-! ## Requests and replies (R388, R413, R414) -/

/-- R388, R414: a reply on mailbox direction 3, or 7 for firmware: word 0, then the further words. -/
def enclaveReply (fw : Bool) (op status id : Nat) (more : List Nat) (s : State) : State :=
  replySend (if fw then 7 else 3) (((op + 0x80) * 2 ^ 24 + status * 2 ^ 16 + id) :: more) s

/-- The further words of a reply that has nothing to say in them: free values. -/
def openWords : Nat → State → List Nat × State
  | 0, s => ([], s)
  | n + 1, s =>
    let (v, s) := s.draw 32
    let (t, s) := openWords n s
    (v :: t, s)

/-- A reply of a refused request whose further words hold nothing. -/
def enclaveRefuse (fw : Bool) (op status id n : Nat) (s : State) : State :=
  let (ws, s) := openWords n s
  enclaveReply fw op status id ws s

/-- R414: bytes as words, the first byte in bits 7:0. -/
def wordsOf : Nat → List Byte → List Nat
  | 0, _ => []
  | n + 1, b => leNat b 0 4 :: wordsOf n (b.drop 4)

/-- R413: the first `len` bytes of the exchange buffer. -/
def xbufBytes (s : State) (len : Nat) : List Byte :=
  ((List.range ((len + 3) / 4)).flatMap fun k => toLe 4 (s.g (F.ENC_XBUF_bytes k))).take len

/-- R413: bytes are written to the exchange buffer from its start; a last word is filled up by what it held. -/
def xbufPut (b : List Byte) (s : State) : State :=
  s.forEach (List.range ((b.length + 3) / 4)) fun k s =>
    let part := (b.drop (4 * k)).take 4
    let old := (toLe 4 (s.g (F.ENC_XBUF_bytes k))).drop part.length
    s.setF (F.ENC_XBUF_bytes k) (leNat (part ++ old) 0 4)

/-- The enclave's storage changed. -/
def modEnc (f : Enc → Enc) (s : State) : State := { s with enc := f s.enc }

/-- R412: ENC_STAT and ENC_CHG's reports follow what the enclave holds. -/
def encReport (s : State) : State :=
  let e := s.enc
  let s := (s.setB F.ENC_STAT_claimed (!e.officers.isEmpty)).setF F.ENC_STAT_officers e.officers.length
  let s := (s.setB F.ENC_STAT_klk_valid e.klk.isSome).setB F.ENC_STAT_response (s.on F.TMP_CFG_response)
  let s := s.setF F.ENC_STAT_bcr_keys (wordOf 4 fun k => (Tbl.find e.bcrKeys k).isSome)
  s.setF F.ENC_STAT_pending (wordOf 4 fun h => (Tbl.find e.handles h).isSome)

/-- R419: a handle becomes FREE; its nonce is destroyed. -/
def handleFree (h : Nat) (s : State) : State := encReport (modEnc (fun e => { e with handles := Tbl.erase e.handles h }) s)

/-! ## Settings digest (R420) -/

/-- R420: the canonical record of the protected settings. -/
def settingsRecord (s : State) : List Byte :=
  let e := s.enc
  let officers := e.officers.flatMap fun o => toLe 1 o.1 ++ toLe 2 o.2.id ++ toLe 1 o.2.roles ++ o.2.key
  let keys := e.bcrKeys.flatMap fun k => toLe 1 k.1 ++ k.2
  let tamper := toLe 1 (s.g F.TMP_CFG_response) ++ toLe 1 (s.g F.TMP_CFG_enables) ++ toLe 1 (s.g F.TMP_CFG_temp_low) ++
    toLe 1 (s.g F.TMP_CFG_temp_high)
  let policies := e.policy.flatMap fun p =>
    toLe 2 p.1 ++ toLe 4 p.2.2.1 ++ toLe 4 p.2.2.2 ++ (if 2 ^ 31 ≤ p.2.2.1 then toLe 4 p.2.1 else [])
  let overrides := e.overrides.flatMap fun o => toLe 1 o.1 ++ toLe 8 o.2.1 ++ toLe 4 o.2.2
  let debug := toLe 1 (s.g F.ENC_STAT_debug_level) ++ toLe 4 (s.g F.ENC_DBG_EXPIRE_LO_expire) ++ toLe 4 (s.g F.ENC_DBG_EXPIRE_HI_expire)
  toLe 1 e.officers.length ++ officers ++ toLe 1 e.bcrKeys.length ++ keys ++ tamper ++ toLe 2 e.policy.length ++ policies ++
    toLe 1 e.overrides.length ++ overrides ++ debug ++ toLe 1 e.rollback ++ e.agreePub

/-- R420: the settings digest. -/
def settingsDigest (s : State) : List Byte := Config.sha384 (settingsRecord s)

/-! ## NONCE_GET, CHG_ABORT, CHG_EXPIRY (R414, R419) -/

/-- NONCE_GET. R414, R419. -/
def execNonceGet (fw : Bool) (id : BitVec 16) (words : List Word) (s : State) : Host.Outcome State Fault Refusal :=
  if !enclaveServes s then .next s
  else
    let id := id.toNat
    if words.length ≠ 0 then .next (enclaveRefuse fw 0x01 7 id 13 s)
    else if s.enc.trngBad then .next (enclaveRefuse fw 0x01 5 id 13 s)
    else match (List.range 4).find? fun h => (Tbl.find s.enc.handles h).isNone with
      | none => .next (enclaveRefuse fw 0x01 5 id 13 s)
      | some h =>
        let (nonce, s) := drawBytes 4 s
        let handle : Handle := { nonce := nonce, issued := s.now }
        let s := encReport (modEnc (fun e => { e with handles := Tbl.insert e.handles h handle }) s)
        .next (enclaveReply fw 0x01 0 id (h :: (wordsOf 8 nonce ++ wordsOf 4 (settingsDigest s))) s)

/-- CHG_ABORT. R414, R419. -/
def execChgAbort (fw : Bool) (id : BitVec 16) (words : List Word) (s : State) : Host.Outcome State Fault Refusal :=
  if !enclaveServes s then .next s
  else match words with
    | [w] => .next (enclaveReply fw 0x04 0 id.toNat [] (handleFree (w.toNat % 4) s))
    | _ => .next (enclaveReply fw 0x04 7 id.toNat [] s)

/-- CHG_EXPIRY. R419: device time reaches 600 s after the issue of handle `h`'s nonce. -/
def execChgExpiry (h : Fin 4) (s : State) : Host.Outcome State Fault Refusal :=
  match Tbl.find s.enc.handles h.val with
  | none => .next s
  | some x => .next (State.evt 0xFC 4 (handleFree h.val (s.reach (x.issued + 600000000000))))

/-! ## The checks of a change (R418, R419, R421) -/

/-- R418: a request as the exchange buffer holds it, and its signature records: officer slot and signature. -/
structure Change where
  request : List Byte
  op : Nat
  payload : List Byte
  records : List (Nat × List Byte)
  deriving DecidableEq, Repr

/-- All bytes are zero. -/
def allZero (b : List Byte) : Bool := b.all fun x => x == 0

/-- R418, R419 step 3: the request of `b`, if its format is right. -/
def changeParse (b : List Byte) : Option Change :=
  let len := leNat b 8 2
  let rest := b.drop (68 + len)
  let recs := if rest.length = 100 then [rest] else [rest.take 100, rest.drop 100]
  let op := leNat b 6 2
  if 68 ≤ b.length ∧ b.take 4 = [0x58, 0x43, 0x43, 0x52] ∧ leNat b 4 2 = 1 ∧ len ≤ 1024 ∧ leNat b 10 2 = 0 ∧
      (b.length = 68 + len + 100 ∨ b.length = 68 + len + 200) ∧ recs.all (fun r => leNat r 2 2 == 0) ∧ 1 ≤ op ∧ op ≤ 10 then
    some { request := b.take (68 + len), op := op, payload := (b.drop 68).take len, records := recs.map fun r => (leNat r 0 2, r.drop 4) }
  else none

/-- R421: the role bit an op needs; none where any role will do. -/
def opRole : Nat → Option Nat
  | 1 => some 3
  | 2 => some 3
  | 3 => some 1
  | 4 => some 1
  | 5 => some 1
  | 6 => some 2
  | 7 => some 0
  | 8 => some 1
  | 9 => some 3
  | _ => none

/-- R421: an officer holds the role of an op. -/
def holdsRole (op : Nat) (o : Officer) : Bool :=
  match opRole op with
  | some b => o.roles.testBit b
  | none => o.roles % 16 != 0

/-- R421: the ops that ZEROISED does not refuse. -/
def opInZeroised (op : Nat) : Bool := op == 1 || op == 2 || op == 3 || op == 8 || op == 9 || op == 10

/-- R421: the entries of an OFFICER_SET payload, by slot. -/
def officerEntries (p : List Byte) : Tbl Officer :=
  (List.range ((p.length - 4) / 104)).map fun k =>
    let e := p.drop (4 + 104 * k)
    (k, { id := leNat e 0 2, roles := byteAt e 2, key := (e.drop 4).take 97 })

/-- A public key of 97 bytes in uncompressed form. -/
def pubKeyOk (k : List Byte) : Bool := k.length == 97 && byteAt k 0 == 4

/-- R421: an OFFICER_SET payload is valid. -/
def officersOk (p : List Byte) : Bool :=
  let n := byteAt p 0
  let es := officerEntries p
  2 ≤ n && n ≤ 8 && p.length == 4 + 104 * n && allZero ((p.drop 1).take 3) &&
  ((List.range n).all fun k => byteAt p (4 + 104 * k + 3) == 0 && allZero ((p.drop (4 + 104 * k + 101)).take 3)) &&
  (es.all fun a => pubKeyOk a.2.key && es.all fun b => a.1 == b.1 || (a.2.key != b.2.key && a.2.id != b.2.id)) &&
  decide (2 ≤ (es.filter fun e => e.2.roles.testBit 1 && e.2.roles.testBit 3).length)

/-- R421, R425, R416: the payload of an op is valid. -/
def payloadOk (op : Nat) (p : List Byte) (s : State) : Bool :=
  let b := byteAt p
  match op with
  | 1 => officersOk p
  | 2 => p.length == 101 && b 0 < 4 && b 1 < 2 && allZero ((p.drop 2).take 2) && (b 1 == 0 || pubKeyOk (p.drop 4))
  | 3 => p.length == 16 && b 0 < 2 && b 1 &&& 0xA6 == 0xA6 && decide (-60 ≤ signed 8 (b 2)) && decide (signed 8 (b 2) ≤ -41) &&
      decide (111 ≤ signed 8 (b 3)) && allZero (p.drop 4)
  | 4 => p.length == 16 && leNat p 0 2 < 1024 && leNat p 2 2 == 0
  | 5 => p.length == 16 && b 0 < 2 && b 1 < 2 && leNat p 2 2 == 0 && leNat p 12 4 ≤ 8760
  | 6 => p.length == 8 && (b 0 == 1 || b 0 == 2) && allZero ((p.drop 1).take 3) && 1 ≤ leNat p 4 4 && leNat p 4 4 ≤ 1440
  | 7 => p.length == 100 && pubKeyOk (p.take 97) && allZero (p.drop 97) && s.enc.agree.isSome
  | 9 => p.length == 4 && allZero (p.drop 1) && b 0 ≤ 64 && b 0 ≤ s.enc.fwVersion &&
      (s.on F.DEV_STATUS_cfg_default || b 0 ≤ s.enc.bcrVersion)
  | _ => p.length == 0

/-- R421: the officers whose signatures count: the set in force, or while it is empty the payload of an OFFICER_SET. -/
def signersOf (c : Change) (s : State) : Tbl Officer :=
  if s.enc.officers.isEmpty then officerEntries c.payload else s.enc.officers

/-- R419 step 6: a record names an occupied slot and its signature verifies. -/
def recordOk (c : Change) (os : Tbl Officer) (r : Nat × List Byte) : Bool :=
  match Tbl.find os r.1 with
  | some o => Config.ecdsaVerify o.key c.request r.2
  | none => false

/-- R419 step 7: two slots are those of two officers. -/
def twoOfficers (os : Tbl Officer) (a b : Nat) : Bool :=
  a != b && (match Tbl.find os a, Tbl.find os b with
    | some x, some y => x.key != y.key
    | _, _ => false)

/-- R419 step 7: distinct officers: the two records, or the one record and the signer held. -/
def distinctOk (c : Change) (os : Tbl Officer) (held : Option Nat) : Bool :=
  match c.records, held with
  | [a, b], _ => twoOfficers os a.1 b.1
  | [a], some h => twoOfficers os a.1 h
  | _, _ => true

/-- The slot of the officer concerned (R414): that of the first record that fails a test, else that of the last. -/
def slotOfRecord (c : Change) (bad : Nat × List Byte → Bool) : Option Nat :=
  match c.records.find? bad with
  | some r => some r.1
  | none => c.records.getLast?.map (·.1)

/-- R419 steps 4 to 10: the status, 0 when all pass, and the slot of the officer concerned. -/
def changeCheck (c : Change) (x : Handle) (s : State) : Nat × Option Nat :=
  let os := signersOf c s
  let bad (r : Nat × List Byte) : Bool := !recordOk c os r
  let noRole (r : Nat × List Byte) : Bool := match Tbl.find os r.1 with
    | some o => !holdsRole c.op o
    | none => true
  let serial := s.g F.ENC_SERIAL_LO_serial + 2 ^ 32 * s.g F.ENC_SERIAL_HI_serial
  if leNat c.request 12 8 ≠ serial ∨ (c.request.drop 20).take 32 ≠ x.nonce then (0x14, none)
  else if (x.signed.any fun h => h.1 != c.request) then (0x1E, none)
  else if s.enc.officers.isEmpty ∧ c.op ≠ 1 then (0x1A, none)
  else if c.records.any bad then (0x15, slotOfRecord c bad)
  else if c.records.any noRole then (0x17, slotOfRecord c noRole)
  else if !distinctOk c os (x.signed.map (·.2)) then (0x16, slotOfRecord c fun _ => false)
  else
    let slot := slotOfRecord c fun _ => false
    if (c.request.drop 52).take 16 ≠ (settingsDigest s).take 16 then (0x18, slot)
    else if s.mode = 7 ∧ !opInZeroised c.op then (6, slot)
    else if !payloadOk c.op c.payload s then (0x19, slot)
    else (0, slot)

/-! ## Application (R416, R422, R423, R426, R427) -/

/-- R422: SA_POLICY: the status and the detail byte. -/
def saPolicy (p : List Byte) (s : State) : (Nat × Nat) × State :=
  let i := leNat p 0 2
  let at' := 0x310000 + 16 * i
  let free (s : State) : State := lockWrite .enclave (.page 0xC8) 1 s
  if s.g (F.LOCK_owner 0xC8) ≠ 0 then ((0x1C, 0), s)
  else
    let s := (lockRead .enclave (.page 0xC8) s).2
    if stagedDirty s 0xC8 then ((0x1B, 0), free s)
    else
      let s := busWrite .enclave at' (leNat p 4 4) s
      let s := busWrite .enclave (at' + 4) (leNat p 8 4) s
      let s := busWrite .enclave (at' + 8) (leNat p 12 4) s
      let s := commitWrite .enclave 0xC8 1 (s.setB (F.PAGE_STAT_commit_err 0xC8) false)
      if s.on (F.PAGE_STAT_commit_err 0xC8) then
        let r := s.g (F.PAGE_STAT_commit_reason 0xC8)
        ((0x19, r), free (commitWrite .enclave 0xC8 4 s))
      else
        let s := commitBoundary 0xC8 (s.setB (F.PAGE_STAT_commit_armed 0xC8) false)
        let s := modEnc (fun e => { e with policy := Tbl.insert e.policy i (leNat p 4 4, leNat p 8 4, leNat p 12 4) }) s
        ((0, 0), free s)

/-- R422, R443: an override is set or cleared. -/
def overrideSet (p : List Byte) (s : State) : State :=
  let le := byteAt p 0
  if byteAt p 1 = 0 then overrideEnd le s
  else
    let was := overrideOn s le && linkOf s le == 3
    let s := modEnc (fun e => { e with overrides := Tbl.insert e.overrides le (leNat p 4 8, leNat p 12 4) }) s
    let s := ovReport le s
    if was && !overrideOn s le then State.evt (0xD8 + le) 5 s else s

/-- R427: a debug unlock. -/
def debugUnlock (level minutes : Nat) (s : State) : State :=
  let s := if level = 2 then cipErase 2 s else s
  let t := s.now + minutes * 60000000000
  let s := (s.setF F.ENC_STAT_debug_level level).setF F.ENC_DBG_EXPIRE_LO_expire t
  let s := s.setF F.ENC_DBG_EXPIRE_HI_expire (t / 2 ^ 32)
  State.evt 0xFC 5 { s with dev := { s.dev with debugUp := true } }

/-- R426: an enabled sensor of bits 0 to 5 trips now. -/
def sensorActive (s : State) : Bool := (List.range 6).any fun c => sensorOn s c && (s.g F.TMP_STAT_raw).testBit c

/-- R426: the record's active flag and the latch are cleared, then the device is reset. -/
def reprovision (s : State) : State :=
  let s := (s.setB F.ENC_ZREC_active false).setB F.ENC_STAT_zeroised false
  let s := (s.setB F.TMP_STAT_latched false).setF F.TMP_STAT_latched_causes 0
  let s := { s with enc := { s.enc with eraseDue := false }, dev := { s.dev with tripped := 0 } }
  deviceReset 8 false (s.setB F.DEV_RESET_CAUSE_reprovision true)

/-- R416, R422: what an applied change does at once; the status, with the detail byte. REPROVISION and ZEROISE act once the change has
been answered. -/
def changeApply (op : Nat) (p nonce : List Byte) (s : State) : (Nat × Nat) × State :=
  let done (s : State) : (Nat × Nat) × State := ((0, 0), s)
  match op with
  | 1 => done (modEnc (fun e => { e with officers := officerEntries p }) s)
  | 2 =>
    let k := byteAt p 0
    done (modEnc (fun e => { e with bcrKeys := if byteAt p 1 = 1 then Tbl.insert e.bcrKeys k (p.drop 4) else Tbl.erase e.bcrKeys k }) s)
  | 3 =>
    let s := (s.setF F.TMP_CFG_response (byteAt p 0)).setF F.TMP_CFG_enables (byteAt p 1)
    done ((s.setF F.TMP_CFG_temp_low (byteAt p 2)).setF F.TMP_CFG_temp_high (byteAt p 3))
  | 4 => saPolicy p s
  | 5 => done (overrideSet p s)
  | 6 => done (debugUnlock (byteAt p 0) (leNat p 4 4) s)
  | 7 =>
    let pub := p.take 97
    let klk := s.enc.agree.map fun a => Config.hkdf (Config.ecdh a pub) nonce ("SX4800 KLK".toList.map fun c => BitVec.ofNat 8 c.toNat) 32
    done (modEnc (fun e => { e with klk := klk }) s)
  | 8 => if sensorActive s then ((0x1D, 0), s) else done s
  | 9 =>
    let t := byteAt p 0
    if t ≤ s.enc.rollback then done s
    else done (State.evt 0xFC 7 ((modEnc (fun e => { e with rollback := t }) s).setF F.DEV_STATUS_rollback_count t))
  | _ => done s

/-- R422, R425, R426: what follows the answer of an applied change. -/
def changeAfter (op : Nat) (s : State) : State :=
  match op with
  | 8 => reprovision s
  | 10 => tamperTrip 7 0 s
  | _ => s

/-- R412, R414, R419: a submission is answered and recorded in ENC_CHG_LAST. -/
def changeAnswer (fw : Bool) (id h op status detail : Nat) (slot : Option Nat) (held : Nat) (s : State) : State :=
  let s := encReport ((s.setF F.ENC_CHG_LAST_handle h).setF F.ENC_CHG_LAST_op op)
  let s := (s.setF F.ENC_CHG_LAST_detail detail).setF F.ENC_CHG_LAST_result status
  let (slot, s) := match slot with
    | some k => (k, s)
    | none => s.draw 8
  let s := if status = 0 then State.evt 0xFC 2 s else if status = 0x10 then s else State.evt 0xFC 3 s
  enclaveReply fw 0x02 status id [detail * 2 ^ 24 + slot % 256 * 2 ^ 8 + held] s

/-- R419: a submission to handle `h` that holds `x`. -/
def changeSubmit (fw : Bool) (id h len : Nat) (x : Handle) (s : State) : State :=
  let b := xbufBytes s (min len 1536)
  let op := leNat b 6 2 % 2 ^ 12
  let held := if x.signed.isSome then 1 else 0
  let answer := changeAnswer fw id h op
  if x.issued + 600000000000 ≤ s.now then answer 0x11 0 none held s
  else match (if len ≤ 1536 then changeParse b else none) with
    | none => answer 0x13 0 none held s
    | some c =>
      let (st, slot) := changeCheck c x s
      if st = 0x14 ∨ st = 0x1E ∨ st = 0x15 ∨ st = 0x17 ∨ st = 0x16 then answer st 0 slot held s
      else if st ≠ 0 then answer st 0 slot 0 (handleFree h s)
      else
        match c.records, x.signed with
        | [r], none =>
          let x := { x with signed := some (c.request, r.1) }
          answer 0x10 0 slot 1 (modEnc (fun e => { e with handles := Tbl.insert e.handles h x }) s)
        | _, _ =>
          let ((st, detail), s) := changeApply c.op c.payload x.nonce s
          if st = 0x19 then answer st detail slot 0 (handleFree h s)
          else if st ≠ 0 then answer st detail slot held s
          else changeAfter c.op (answer 0 0 slot 0 (handleFree h s))

/-- R414, R419: CHG_SUBMIT as the enclave executes it. -/
def chgSubmit (fw : Bool) (id : Nat) (words : List Word) (s : State) : State :=
  if !enclaveServes s then s
  else match words with
    | [w] =>
      let h := w.toNat % 4
      let len := w.toNat / 2 ^ 16 % 2 ^ 12
      match Tbl.find s.enc.handles h with
      | none => changeAnswer fw id h (leNat (xbufBytes s 8) 6 2 % 2 ^ 12) 0x12 0 none 0 s
      | some x => changeSubmit fw id h len x s
    | _ => enclaveRefuse fw 0x02 7 id 1 s

/-! ## Attestation (R417) -/

/-- R417: the first 216 bytes of the report. -/
def attestReport (nonce : List Byte) (s : State) : List Byte :=
  let dflt := s.on F.DEV_STATUS_cfg_default
  let pad (n : Nat) (b : List Byte) : List Byte := (b ++ List.replicate n 0).take n
  let serial := s.g F.ENC_SERIAL_LO_serial + 2 ^ 32 * s.g F.ENC_SERIAL_HI_serial
  [0x58, 0x41, 0x54, 0x52] ++ toLe 2 1 ++ toLe 2 312 ++ toLe 8 serial ++ pad 32 nonce ++ toLe 8 s.now ++
  toLe 1 s.mode ++ toLe 1 s.enc.rollback ++ toLe 1 s.enc.fwVersion ++ toLe 1 (if dflt then 0xFF else s.enc.bcrVersion) ++
  toLe 4 (fieldsRead 0x44 ((regAt 0x44).getD []) s).1 ++ pad 48 s.enc.fwDigest ++ pad 48 (if dflt then [] else s.enc.bcrDigest) ++
  pad 48 (settingsDigest s) ++ toLe 2 (s.g F.ENC_ZREC_count) ++ toLe 1 (s.g F.ENC_STAT_debug_level) ++
  toLe 1 ((s.on F.TMP_STAT_latched).toNat + 2 * (s.on F.ENC_ZREC_active).toNat) ++ toLe 1 s.enc.officers.length ++ toLe 3 0

/-- ATTEST. R414, R417: the request's words are the requester's nonce. -/
def execAttest (fw : Bool) (id : BitVec 16) (words : List Word) (s : State) : Host.Outcome State Fault Refusal :=
  let id := id.toNat
  if !enclaveServes s then .next s
  else if words.length ≠ 8 then .next (enclaveRefuse fw 0x03 7 id 1 s)
  else if s.enc.trngBad then .next (enclaveRefuse fw 0x03 5 id 1 s)
  else
    let body := attestReport (words.flatMap fun w => toLe 4 w.toNat) s
    let (k, s) := drawBytes 6 s
    let report := body ++ Config.ecdsaSign s.enc.idKey k body
    .next (enclaveReply fw 0x03 0 id [312] (xbufPut (report.take 312) s))

/-! ## Key-loading key, debug unlock, TRNG (R410, R423, R427) -/

/-- KLK_PUB. R414, R423. -/
def execKlkPub (fw : Bool) (id : BitVec 16) (words : List Word) (s : State) : Host.Outcome State Fault Refusal :=
  let id := id.toNat
  if !enclaveServes s then .next s
  else if words.length ≠ 0 then .next (enclaveRefuse fw 0x05 7 id 1 s)
  else if s.mode = 7 then .next (enclaveRefuse fw 0x05 6 id 1 s)
  else if s.enc.trngBad then .next (enclaveRefuse fw 0x05 5 id 1 s)
  else
    let (priv, s) := drawBytes 6 s
    let pub := Config.p384Public priv
    let s := modEnc (fun e => { e with agree := some priv, agreePub := pub }) s
    .next (enclaveReply fw 0x05 0 id [97] (xbufPut (pub.take 97) s))

/-- DEBUG_EXPIRE. R427: device time reaches ENC_DBG_EXPIRE. -/
def execDebugExpire (s : State) : Host.Outcome State Fault Refusal :=
  if s.g F.ENC_STAT_debug_level = 0 then .next s
  else .next (debugClose (s.reach (s.g F.ENC_DBG_EXPIRE_LO_expire + 2 ^ 32 * s.g F.ENC_DBG_EXPIRE_HI_expire)))

/-- TRNG_HEALTH_TEST. R410: the test of a block of 1,024 output bits passes or fails. -/
def execTrngHealthTest (pass : Bool) (s : State) : Host.Outcome State Fault Refusal :=
  if enclaveUp s then .next (modEnc (fun e => { e with trngBad := !pass }) s) else .next s

end Sys2Proof.Machine
end

