-- ==== Sys2Proof/Machine/Boot.lean ====
section
/-! DEFINITION. The run of a WAKE (R108, R110, R116 to R120, R415, R548), the commands that can begin one, the safe boundaries of
commit domains, and the accesses by address: REGISTER_WRITE and the SPI slave (R561). -/
namespace Sys2Proof.Machine

/-! ## The flash (R116, R117, R415) -/

/-- `n` bytes of the flash from `a`; an unlisted byte is erased (R116). -/
def flashBytes (s : State) (a n : Nat) : List Byte := (List.range n).map fun i => Tbl.get 0xFF s.dev.flash (a + i)

/-- R117: where the BCR begins. -/
def bcrBase : Nat := 0x10000

/-- R117, R118: the BCR's first check, of its header: 0, or the bcr_fail code. -/
def bcrHeader (h : List Byte) : Nat :=
  if h.take 4 = [0xFF, 0xFF, 0xFF, 0xFF] then 1
  else if h.take 4 = [0x58, 0x42, 0x43, 0x52] ∧ leNat h 4 2 = 1 ∧ leNat h 6 2 = 0x40 ∧ leNat h 0x14 4 < 2 ∧ allZero ((h.drop 0x18).take 40)
    then 0
  else 2

/-- R118: the check of the BCR: 0, or the bcr_fail code of the first failure; a region that cannot be read is absent. -/
def bcrCheck (s : State) : Nat :=
  let h := flashBytes s bcrBase 64
  let r := if s.dev.flashDead then 1 else bcrHeader h
  if r ≠ 0 then r
  else
    let n := leNat h 0x12 2
    let len := 168 + 8 * n
    if n = 0 ∨ 8171 < n ∨ leNat h 8 4 ≠ len then 3
    else
      let b := flashBytes s bcrBase len
      if leNat b (len - 100) 4 ≠ 0 then 2
      else if leNat b (len - 104) 4 ≠ crc32c (b.take (len - 104)) then 4
      else if !((Tbl.find s.enc.bcrKeys (byteAt b 0x11)).any fun k => Config.ecdsaVerify k (b.take (len - 96)) (b.drop (len - 96))) then 5
      else if byteAt b 0x10 < s.enc.rollback then 6
      else 0

/-- R117: the entries of a BCR. -/
def bcrEntries (s : State) : List (Nat × Nat) :=
  let h := flashBytes s bcrBase 64
  let n := leNat h 0x12 2
  let b := flashBytes s (bcrBase + 0x40) (8 * n)
  (List.range n).map fun i => (leNat b (8 * i) 4, leNat b (8 * i + 4) 4)

/-- R116: where firmware slot `k` begins. -/
def slotBase (k : Nat) : Nat := if k = 0 then 0x100000 else 0x600000

/-- R415: the check of a firmware image. -/
def imageOk (s : State) (k : Nat) : Bool :=
  let h := flashBytes s (slotBase k) 256
  let len := leNat h 8 4
  !s.dev.flashDead && h.take 4 == [0x58, 0x46, 0x57, 0x49] && leNat h 4 2 == 1 && leNat h 6 2 == 0x100 && 1 ≤ len && len ≤ 5 * 2 ^ 20 - 256 &&
  allZero ((h.drop 0x0E).take 2) && allZero ((h.drop 0x14).take 44) && allZero ((h.drop 0x70).take 48) && byteAt h 0x0D < 4 &&
  s.enc.rollback ≤ byteAt h 0x0C && Config.ecdsaVerify (Config.firmwareKey (byteAt h 0x0D)) (h.take 0xA0) ((h.drop 0xA0).take 96) &&
  Config.sha384 (flashBytes s (slotBase k + 0x100) len) == (h.drop 0x40).take 48

/-- R110: the slot used: the preferred one, else the other. -/
def slotChoice (s : State) (pref : Nat) : Option Nat :=
  if imageOk s pref then some pref else if imageOk s (1 - pref) then some (1 - pref) else none

/-! ## Application of the BCR (R119, R120, R489) -/

/-- The BCR's cursor changed. -/
def modBcr (f : Bcr → Bcr) (s : State) : State := { s with dev := { s.dev with bcr := s.dev.bcr.map f } }

/-- R124: the SPI request that woke the device is continued from STANDBY, or refused. -/
def spiContinue (s : State) : State :=
  match s.dev.spiWake with
  | none => s
  | some code =>
    let s := { s with dev := { s.dev with spiWake := none } }
    if s.mode = 3 ∧ code = 4 then warmStart (serviceMode s) s
    else if s.mode = 3 ∨ s.mode = 4 ∨ s.mode = 5 then reqResult 1 s
    else reqResult 3 s

/-- R489: firmware seals once it has finished applying the BCR. -/
def bcrDone (s : State) : State := spiContinue (sealSet true { s with dev := { s.dev with bcr := none } })

/-- R120: the application stops at the entry of the cursor. -/
def bcrStop (b : Bcr) (reason : Nat) (s : State) : State :=
  let s := (s.setB F.DEV_BCR_STAT_apply_err true).setF F.DEV_BCR_STAT_entry b.idx
  bcrDone (State.evt 0x00 3 (s.setF F.DEV_BCR_STAT_reason reason))

/-- R99: every entry has been applied. -/
def bcrEnd (s : State) : State := bcrDone (s.setB F.DEV_STATUS_bcr_applied true)

/-- R120: the pages a BCR may not write. -/
def bcrForbidden (addr : Nat) : Bool :=
  let p := addr / 0x1000
  addr < 0x100000 && (p == 0x05 || p == 0x08 || p == 0x09 || 0xFC ≤ p)

/-- An access, and whether the fabric recorded an error at it (R89): a saturated counter is watched from one below. -/
def watched (f : State → State) (s : State) : Bool × State :=
  let x := F.FAB_ERR_CNT_count
  let top := 2 ^ x.width - 1
  let c := s.g x
  let t := f (if c = top then s.setF x (top - 1) else s)
  let n := t.g x
  (decide (min c (top - 1) < n), if c = top ∧ n = top - 1 then t.setF x top else t)

/-- R58, R119, R120: a WRITE entry to the COMMIT register of page `p`: the reason of a rejection or a cancellation, none while all is
well. The safe boundary of the domain comes at once where nothing else is waited for. -/
def bcrCommit (p v : Nat) (s : State) : Option Nat × State :=
  let d := domainOf p
  let err := F.PAGE_STAT_commit_err d
  let was := s.on err
  let s := commitWrite .mgmt p v (s.setB err false)
  if s.on err then (some (s.g (F.PAGE_STAT_commit_reason d)), s)
  else if s.on (F.PAGE_STAT_commit_pending d) then (none, commitBoundary d (s.setB err was))
  else if v % 8 = 1 ∨ v % 8 = 2 then (none, s)
  else (none, s.setB err was)

/-- R119, R120: a WRITE entry; the reason it stops at, if it does. One whose address is no multiple of 4 is refused as an access
narrower than a register (DESIGN CHOICE, as for REGISTER_WRITE). -/
def bcrWrite (addr v : Nat) (s : State) : Option Nat × State :=
  if bcrForbidden addr then (some 0xF1, s)
  else if addr % 4 ≠ 0 then (some 0xF2, s.refuse (mcode .mgmt) .narrow addr)
  else if addr < 0x100000 ∧ addr % 0x1000 = 0x20 ∧ definedPage (addr / 0x1000) then
    let r := (bcrCommit (addr / 0x1000) v s).1
    let (bad, s) := watched (fun s => (bcrCommit (addr / 0x1000) v s).2) s
    (if bad then some 0xF2 else r, s)
  else
    let (bad, s) := watched (busWrite .mgmt addr v) s
    (if bad then some 0xF2 else none, s)

/-- R119, R120: entries are applied in order from the cursor, at most `n` of them. -/
def bcrRun : Nat → State → State
  | 0, s => s
  | n + 1, s =>
    match s.dev.bcr with
    | none => s
    | some b =>
      match b.entries.drop b.idx with
      | [] => bcrEnd s
      | (w0, w1) :: _ =>
        let op := w0 / 2 ^ 28
        let addr := w0 % 2 ^ 26
        if w0 / 2 ^ 26 % 4 ≠ 0 then bcrStop b 0xF3 s
        else match op with
        | 1 =>
          let (r, s) := bcrWrite addr w1 s
          if s.dev.bcr.isNone then s
          else match r with
          | some r => bcrStop b r s
          | none =>
            let p := addr / 0x1000
            if addr < 0x100000 ∧ addr % 0x1000 = 0x20 ∧ s.on (F.PAGE_STAT_commit_pending (domainOf p)) then
              modBcr (fun b => { b with wait := 2, page := p }) s
            else bcrRun n (modBcr (fun b => { b with idx := b.idx + 1 }) s)
        | 2 =>
          if addr ≠ 0 ∨ 1000000 < w1 then bcrStop b 0xF3 s
          else
            let s := modBcr (fun b => { b with idx := b.idx + 1 }) s
            if w1 = 0 then bcrRun n s else modBcr (fun b => { b with wait := 1, page := w1 }) s
        | 3 =>
          if b.service then bcrStop b 0xF3 s
          else
            let s := modBcr (fun b => { b with service := true }) s
            let s := modeRequest 4 s
            if s.g F.DEV_MODE_req_result = 1 ∧ (s.mode = 4 ∨ s.mode = 5) then
              bcrRun n (modBcr (fun b => { b with idx := b.idx + 1 }) s)
            else bcrStop b 0xF4 s
        | _ => bcrStop b 0xF3 s

/-- The BCR goes on: a wait of kind `k` has ended. -/
def bcrResume (k : Nat) (s : State) : State :=
  match s.dev.bcr with
  | none => s
  | some b =>
    if b.wait ≠ k then s
    else if k = 1 then
      bcrRun (b.entries.length + 1) (modBcr (fun b => { b with wait := 0, page := 0 }) (s.reach (s.now + b.page * 1000)))
    else
      let d := domainOf b.page
      if s.on (F.PAGE_STAT_commit_pending d) then s
      else if s.on (F.PAGE_STAT_commit_err d) then bcrStop { b with wait := 0 } (s.g (F.PAGE_STAT_commit_reason d)) s
      else bcrRun (b.entries.length + 1) (modBcr (fun b => { b with idx := b.idx + 1, wait := 0, page := 0 }) s)

/-! ## The run of a WAKE (R91, R108, R110, R118) -/

/-- R91, R489: SAFE is entered; a SAFE request, or an SPI request, gets its answer. -/
def safeEnter (s : State) : State :=
  let asked := s.dev.req.isSome
  let s := modeTo 2 (s.setB F.DEV_MODE_transition false)
  let s := if asked then reqDone 1 s else s
  spiContinue (sealSet true s)

/-- R108 steps 6 and 7: STANDBY is entered from WAKE and the BCR's entries are applied. -/
def standbyEnter (s : State) : State :=
  let entries := bcrEntries s
  let s := modeTo 3 ((avsCommand (s.setB F.DEV_STATUS_mem_trained true)).setB F.DEV_MODE_transition false)
  let s := s.setF F.DEV_BCR_STAT_sequence (leNat (flashBytes s bcrBase 64) 0x0C 4)
  let s := s.setB F.DEV_STATUS_service_op (entries.any fun e => e.1 / 2 ^ 28 == 3)
  let s := if s.dev.req.isSome then reqDone 3 s else s
  bcrRun (entries.length + 1) { s with dev := { s.dev with bcr := some { entries := entries } } }

/-- R425: the boot ROM does steps 2 and 3 of a tamper that the enclave was not running for. -/
def bootErase (s : State) : State :=
  if s.enc.eraseDue || (s.on F.TMP_STAT_latched && !s.on F.ENC_ZREC_active) then zeroiseRecord (cipErase 4 s) else s

/-- R110, R118, R415: what the boot ROM finds: the bcr_fail code and the firmware slot; status and measurements. -/
def bootVerify (s : State) : Nat × Option Nat × State :=
  let fail := if s.dev.skipBcr then 7 else bcrCheck s
  let h := flashBytes s bcrBase 64
  let pref := if fail = 0 then leNat h 0x14 4 % 2 else 0
  let slot := slotChoice s pref
  let f := flashBytes s (slotBase (slot.getD 0)) 256
  let ver := if slot.isSome then byteAt f 0x0C else 0
  let len := leNat h 8 4
  let e := { s.enc with
    fwVersion := ver, fwDigest := if slot.isSome then (f.drop 0x40).take 48 else [],
    bcrVersion := if fail = 0 then byteAt h 0x10 else 0,
    bcrDigest := if fail = 0 then Config.sha384 (flashBytes s bcrBase (len - 96)) else [] }
  let s := { s with enc := e }
  let s := (s.setF F.DEV_STATUS_bcr_fail fail).setB F.DEV_STATUS_cfg_default (fail != 0 || slot.isNone)
  let s := (s.setB F.DEV_STATUS_fw_none slot.isNone).setF F.DEV_STATUS_fw_slot (slot.getD 0)
  let s := (s.setF F.DEV_STATUS_fw_sec_version ver).setF F.DEV_STATUS_rollback_count s.enc.rollback
  let s := if fail ≠ 0 ∧ fail ≠ 7 then State.evt 0x00 2 s else s
  (fail, slot, s)

/-- R91, R108: the run of a WAKE. -/
def bootRun (s : State) : State :=
  let s := { s with dev := { s.dev with bootPending := false } }.setB F.DEV_STATUS_refclk_ok true
  let s := bootErase s
  let (fail, slot, s) := bootVerify s
  let s := encReport s
  if slot.isNone then safeEnter s
  else if s.on F.TMP_STAT_latched || s.on F.ENC_ZREC_active then zeroisedEnter s
  else if fail ≠ 0 then safeEnter s
  else standbyEnter s

/-- The WAKE begun by a command runs; one that its BCR begins anew runs at the next tick. -/
def boot (s : State) : State :=
  if s.dev.bootPending && s.mode == 1 && !s.dev.held && s.dev.vaon then bootRun s else s

/-! ## The recovery service (R110) -/

/-- R110: one operation of the recovery service on the flash (R116: an erased byte is 0xFF), or a device reset by the boot ROM. -/
def recoveryDo (r : Recovery) (s : State) : State :=
  match r with
  | .erase a n => { s with dev := { s.dev with flash := s.dev.flash.filter fun c => c.1 < a || a + n ≤ c.1 } }
  | .write a bs =>
    { s with dev := { s.dev with flash := bs.zipIdx.foldl (fun f b => Tbl.set 0xFF f (a + b.2) b.1) s.dev.flash } }
  | .reset => resetWrite .mgmt 0xA5C3 s

/-- R110: the service takes a word of direction 0; a complete request is answered on direction 1 and carried out. -/
def recoveryWord (s : State) : State :=
  let (w, s) := mbxRx .mgmt 0 s
  let ws := s.dev.recovery ++ [w]
  match Config.recovery ws with
  | none => { s with dev := { s.dev with recovery := ws } }
  | some (r, reply) => recoveryDo r ({ s with dev := { s.dev with recovery := [] } }.forEach reply fun w s => mbxTx .mgmt 1 w s)

/-- R110: in SAFE with no firmware the recovery service serves the words that wait for it. -/
def recoveryServe (s : State) : State :=
  if s.mode = 2 ∧ s.on F.DEV_STATUS_fw_none then
    s.forEach (s.mbxQ 0) fun _ s => if s.mode = 2 then recoveryWord s else s
  else s

/-! ## Commands that begin a WAKE (R91, R102, R103, R108, R124) -/

/-- PORST_RELEASE -/
def execPorstRelease (s : State) : Host.Outcome State Fault Refusal := .next (boot (porstRelease s))

/-- BCR_WAIT_US. R119. -/
def execBcrWaitUs (s : State) : Host.Outcome State Fault Refusal := .next (boot (bcrResume 1 s))

/-- DEV_RESET -/
def execDevReset (m : Master) (key : BitVec 16) (s : State) : Host.Outcome State Fault Refusal := .next (boot (resetWrite m key.toNat s))

/-- ENCLAVE_WATCHDOG_EXPIRY. R103. -/
def execEnclaveWatchdogExpiry (s : State) : Host.Outcome State Fault Refusal :=
  .next (if enclaveUp s then boot (deviceReset 9 false (s.setB F.DEV_RESET_CAUSE_enclave_fault true)) else s)

/-- WAKE_N_WAKE. R124. -/
def execWakeNWake (s : State) : Host.Outcome State Fault Refusal :=
  .next (if s.on F.HMP_WAKE_EN_wake_n then boot (dormantWake 2 0 s) else s)

/-- R124: an SPI access outside the pages served in DORMANT. -/
def spiAnyWake (s : State) : State := if s.on F.HMP_WAKE_EN_spi_any then dormantWake 4 0 s else s

/-- SPI_ACCESS_WAKE. R124. -/
def execSpiAccessWake (s : State) : Host.Outcome State Fault Refusal := .next (boot (spiAnyWake s))

/-- R98: DEV_MODE written with a request code and the MAINTENANCE targets. -/
def modeCommand (m : Master) (code maint : Nat) (s : State) : State := boot (modeWrite m (code + 256 * maint) s)

/-- MODE_REQ_SAFE -/
def execModeReqSafe (m : Master) (maint : BitVec 2) (s : State) : Host.Outcome State Fault Refusal := .next (modeCommand m 2 maint.toNat s)

/-- MODE_REQ_SERVICE -/
def execModeReqService (m : Master) (maint : BitVec 2) (s : State) : Host.Outcome State Fault Refusal :=
  .next (modeCommand m 4 maint.toNat s)

/-- MODE_REQ_STANDBY -/
def execModeReqStandby (m : Master) (maint : BitVec 2) (s : State) : Host.Outcome State Fault Refusal :=
  .next (modeCommand m 3 maint.toNat s)

/-- MODE_REQ_DORMANT -/
def execModeReqDormant (m : Master) (maint : BitVec 2) (s : State) : Host.Outcome State Fault Refusal :=
  .next (modeCommand m 0 maint.toNat s)

/-- MODE_REQ_MAINTENANCE -/
def execModeReqMaintenance (m : Master) (maint : BitVec 2) (s : State) : Host.Outcome State Fault Refusal :=
  .next (modeCommand m 6 maint.toNat s)

/-- MODE_REQ_NOT_ALLOWED. R98: WAKE, DEGRADED, ZEROISED and reserved codes. -/
def execModeReqNotAllowed (m : Master) (code : BitVec 4) (maint : BitVec 2) (s : State) : Host.Outcome State Fault Refusal :=
  if codeRefused code then .next (modeCommand m code.toNat maint.toNat s) else .fault .illFormed

/-- CHG_SUBMIT -/
def execChgSubmit (fw : Bool) (id : BitVec 16) (words : List Word) (s : State) : Host.Outcome State Fault Refusal :=
  .next (boot (chgSubmit fw id.toNat words s))

/-! ## Thermos results and rules (R475, R483, R486) -/

/-- THM_RESULT. R475, R483: the running sequence converts `tag` next. -/
def execThmResult (tag : Fin 52) (windows : List (BitVec 24)) (outside : Option Bool) (s : State) : Host.Outcome State Fault Refusal :=
  if s.dev.vaon ∧ s.on F.THM_STAT_seq_busy ∧ s.thm.todo.head? = some tag.val then
    let (f, s) := thmResult tag.val windows outside s
    .next (match f with
      | some f => boot (rulesThermos tag.val f s)
      | none => s)
  else .next s

/-- RULE_TICK. R483: every 1 ms; `still` are the sensors that still trip, `alerts` the low UBH_ALERT_N balls. -/
def execRuleTick (still : BitVec 6) (alerts : BitVec 2) (s : State) : Host.Outcome State Fault Refusal :=
  if s.dev.vaon then
    let s := s.reach (s.thm.tickAt + 1000000)
    let s := modThm (fun t => { t with tickAt := s.now }) s
    .next (boot (rulesTick alerts.toNat (s.setF F.TMP_STAT_raw (s.g F.TMP_STAT_raw &&& still.toNat))))
  else .next s

/-! ## Safe boundaries (R58, R156) -/

/-- COMMIT_APPLY. R58 step 5, R119. -/
def execCommitApply (p : Fin 256) (s : State) : Host.Outcome State Fault Refusal :=
  .next (boot (bcrResume 2 (commitBoundary (domainOf p.val) s)))

/-- TIMED_CHANGE_APPLY. R156. -/
def execTimedChangeApply (le : Fin 2) (s : State) : Host.Outcome State Fault Refusal :=
  .next (boot (bcrResume 2 (timedApply le.val s)))

/-! ## Accesses by address (R13, R15, R486, R561) -/

/-- REGISTER_WRITE. R13, R89: an access narrower than 32 bits is refused; one at an address that is no multiple of 4 likewise, with its
own address recorded (DESIGN CHOICE: the spec gives no such access a meaning). -/
def execRegisterWrite (m : Master) (addr : Addr) (value : Word) (narrow : Bool) (s : State) : Host.Outcome State Fault Refusal :=
  let a := addr.toNat / 4 * 4
  if narrow ∨ addr.toNat % 4 ≠ 0 then
    .next (if s.reaches m (pageOf a) then (s.access m).refuse (mcode m) .narrow addr.toNat else s)
  else .next (boot (busWrite m a value.toNat s))

/-- HMP_PD_RELEASE. R486. -/
def execHmpPdRelease (m : Master) (bits : BitVec 2) (s : State) : Host.Outcome State Fault Refusal :=
  .next (busWrite m 0xE0050 bits.toNat s)

/-- R123: the SPI slave is served by the Hamper front end. -/
def frontEnd (s : State) : Bool := s.mode == 0 && s.dev.vaon

/-- R123: the pages the front end serves. -/
def frontPage (addr : Nat) : Bool := 0xE0000 ≤ addr && addr < 0xE8000

/-- R123: the registers of page 0x00 that the front end mirrors. -/
def frontMirror (addr : Nat) : Bool := addr == 0x40 || addr == 0x44 || addr == 0x48 || addr == 0x4C

/-- R123, R561: one word written over SPI. -/
def spiWriteWord (addr v : Nat) (s : State) : State :=
  if frontEnd s && addr != 0x40 && !frontPage addr then (if frontMirror addr then s else spiAnyWake s)
  else
    let (bad, s) := watched (busWrite .spi addr v) s
    { s with spi := { s.spi with err := bad } }

/-- R88: a write of several words over PCIe is applied as 32-bit writes in ascending address order. -/
def pcieWords : Nat → List Nat → State → State
  | _, [], s => s
  | addr, w :: ws, s => pcieWords (addr + 4) ws (busWrite .pcie (addr % 2 ^ 26) w s)

/-- R561: the words of a WRITE go to ascending addresses; those that find 16 pending are dropped. -/
def spiWords : Nat → Nat → List Nat → State → State
  | _, _, [], s => s
  | addr, room, w :: ws, s =>
    if room = 0 then
      spiWords (addr + 4) 0 ws ({ s with spi := { s.spi with err := true } }.refuse 5 .denied (addr % 2 ^ 26))
    else spiWords (addr + 4) (room - 1) ws (spiWriteWord (addr % 2 ^ 26) w s)

/-- SPI_WRITE. R561: `waiting` words are pending when the first word comes. -/
def execSpiWrite (addr : Addr) (words : List Word) (waiting : Fin 17) (s : State) : Host.Outcome State Fault Refusal :=
  .next (boot (spiWords (addr.toNat / 4 * 4) (16 - waiting.val) ((words.take 16).map fun w => w.toNat) s))

/-- R123, R561: one word read over SPI. -/
def spiReadWord (addr : Nat) (s : State) : Nat × State :=
  if frontEnd s && !frontPage addr then
    if frontMirror addr then fieldsRead addr ((regAt addr).getD []) s else (0xFFFFFFFF, spiAnyWake s)
  else
    let v := (busRead .spi addr s).1
    let (bad, s) := watched (fun s => (busRead .spi addr s).2) s
    (v, { s with spi := { s.spi with err := bad } })

/-- The words of a READ from ascending addresses. -/
def spiReads : Nat → Nat → State → List Nat × State
  | 0, _, s => ([], s)
  | n + 1, addr, s =>
    let (v, s) := spiReadWord (addr % 2 ^ 26) s
    let (vs, s) := spiReads n (addr + 4) s
    (v :: vs, s)

/-- SPI_READ. R561. -/
def execSpiRead (addr : Addr) (n : Nat) (s : State) : Host.Outcome State Fault Refusal :=
  let (ws, s) := spiReads n (addr.toNat / 4 * 4) s
  .next (boot { s with spi := { s.spi with words := ws } })

/-- SPI_STATUS. R561: the byte returned; `waiting` says whether writes are pending. -/
def execSpiStatus (waiting : Bool) (s : State) : Host.Outcome State Fault Refusal :=
  .next { s with spi := { s.spi with words := [waiting.toNat + 2 * s.spi.err.toNat + 4 * (frontEnd s).toNat] } }

end Sys2Proof.Machine
end

