-- ==== Sys2Proof/Machine/Clock.lean ====
section
/-! DEFINITION. The tick: what happens while no command waits. -/
namespace Sys2Proof.Machine

/-- R12, R125: device time goes on by 1 µs while VAON is in range. -/
def timePasses (s : State) : State := if s.dev.vaon then { s with time := s.time + 1000 } else s

/-- What passing time does without a command: device time, lanes that check a pattern (R303), the running counters (R530), a boot still to run, a BCR that waits for
commit_pending (R119), the recovery service (R110). -/
def tick (s : State) : State :=
  let s := timePasses s
  let s := if s.dev.vaon then s.forEach (patternLanes s) patternErrors else s
  let s := if s.logRuns then cntTake s else s
  boot (recoveryServe (bcrResume 2 s))

end Sys2Proof.Machine
end

