-- ==== Sys2Proof/Machine/Dispatch.lean ====
section
/-! DEFINITION. One arm per command: each is one direct call of its meaning. -/
namespace Sys2Proof.Machine
open Sys2Proof

/-- The effect of command `i` on everything but the queue. -/
def exec (i : Instr) (s : State) : Host.Outcome State Fault Refusal :=
  match i with
  | .registerWrite m addr value narrow => Sys2Proof.Machine.execRegisterWrite m addr value narrow s
  | .commitGo m p => Sys2Proof.Machine.execCommitGo m p s
  | .commitCheck m p => Sys2Proof.Machine.execCommitCheck m p s
  | .commitDiscard m p => Sys2Proof.Machine.execCommitDiscard m p s
  | .commitApply p => Sys2Proof.Machine.execCommitApply p s
  | .devCommitSync m => Sys2Proof.Machine.execDevCommitSync m s
  | .softReset m p => Sys2Proof.Machine.execSoftReset m p s
  | .evtForce m p bits => Sys2Proof.Machine.execEvtForce m p bits s
  | .pageSnap m p => Sys2Proof.Machine.execPageSnap m p s
  | .snapDone p => Sys2Proof.Machine.execSnapDone p s
  | .lockAcquire m l => Sys2Proof.Machine.execLockAcquire m l s
  | .lockRelease m l value => Sys2Proof.Machine.execLockRelease m l value s
  | .masterReset m stays => Sys2Proof.Machine.execMasterReset m stays s
  | .mbxTx m n value => Sys2Proof.Machine.execMbxTx m n value s
  | .mbxRx m n => Sys2Proof.Machine.execMbxRx m n s
  | .mbxTimeout n => Sys2Proof.Machine.execMbxTimeout n s
  | .mbxHostReset m => Sys2Proof.Machine.execMbxHostReset m s
  | .pulseSat dom p counter => Sys2Proof.Machine.execPulseSat dom p counter s
  | .fifoResync a b pa pb dropped => Sys2Proof.Machine.execFifoResync a b pa pb dropped s
  | .vecEoi m v => Sys2Proof.Machine.execVecEoi m v s
  | .msixPendingSend v => Sys2Proof.Machine.execMsixPendingSend v s
  | .vaonPowerOn => Sys2Proof.Machine.execVaonPowerOn s
  | .vaonLoss => Sys2Proof.Machine.execVaonLoss s
  | .xtalLock => Sys2Proof.Machine.execXtalLock s
  | .porstAssert => Sys2Proof.Machine.execPorstAssert s
  | .porstRelease => Sys2Proof.Machine.execPorstRelease s
  | .bcrWaitUs => Sys2Proof.Machine.execBcrWaitUs s
  | .avsFail => Sys2Proof.Machine.execAvsFail s
  | .devReset m key => Sys2Proof.Machine.execDevReset m key s
  | .enclaveWatchdogExpiry => Sys2Proof.Machine.execEnclaveWatchdogExpiry s
  | .wakeNWake => Sys2Proof.Machine.execWakeNWake s
  | .spiAccessWake => Sys2Proof.Machine.execSpiAccessWake s
  | .modeReqDormant m maint => Sys2Proof.Machine.execModeReqDormant m maint s
  | .modeReqSafe m maint => Sys2Proof.Machine.execModeReqSafe m maint s
  | .modeReqStandby m maint => Sys2Proof.Machine.execModeReqStandby m maint s
  | .modeReqService m maint => Sys2Proof.Machine.execModeReqService m maint s
  | .modeReqMaintenance m maint => Sys2Proof.Machine.execModeReqMaintenance m maint s
  | .modeReqNotAllowed m code maint => Sys2Proof.Machine.execModeReqNotAllowed m code maint s
  | .standbyEntryDone => Sys2Proof.Machine.execStandbyEntryDone s
  | .maintEntryDone => Sys2Proof.Machine.execMaintEntryDone s
  | .engineStartStep le ok cals bad => Sys2Proof.Machine.execEngineStartStep le ok cals bad s
  | .engineStopComplete le => Sys2Proof.Machine.execEngineStopComplete le s
  | .reloadDone le fail => Sys2Proof.Machine.execReloadDone le fail s
  | .timedChangeApply le => Sys2Proof.Machine.execTimedChangeApply le s
  | .maskMeasurement le psd => Sys2Proof.Machine.execMaskMeasurement le psd s
  | .maskUnmute m le bits => Sys2Proof.Machine.execMaskUnmute m le bits s
  | .losRawSet le optical => Sys2Proof.Machine.execLosRawSet le optical s
  | .signalDetected le => Sys2Proof.Machine.execSignalDetected le s
  | .cdScanEnd le peak => Sys2Proof.Machine.execCdScanEnd le peak s
  | .freqOffsetFound le kHz => Sys2Proof.Machine.execFreqOffsetFound le kHz s
  | .freqAcqTimeout le => Sys2Proof.Machine.execFreqAcqTimeout le s
  | .scAcqTimeout le => Sys2Proof.Machine.execScAcqTimeout le s
  | .engineLockLoss le => Sys2Proof.Machine.execEngineLockLoss le s
  | .freqLimitExceeded le => Sys2Proof.Machine.execFreqLimitExceeded le s
  | .scConverged le k => Sys2Proof.Machine.execScConverged le k s
  | .scConvergeTimeout le k => Sys2Proof.Machine.execScConvergeTimeout le k s
  | .pilotSyncFound le k conjugate => Sys2Proof.Machine.execPilotSyncFound le k conjugate s
  | .pilotSyncTimeout le k => Sys2Proof.Machine.execPilotSyncTimeout le k s
  | .scLockLost le k => Sys2Proof.Machine.execScLockLost le k s
  | .singular le k => Sys2Proof.Machine.execSingular le k s
  | .cycleSlip le k => Sys2Proof.Machine.execCycleSlip le k s
  | .cdTrackStep le residual => Sys2Proof.Machine.execCdTrackStep le residual s
  | .entropyAnn le body => Sys2Proof.Machine.execEntropyAnn le body s
  | .followApply le => Sys2Proof.Machine.execFollowApply le s
  | .followAlternate le => Sys2Proof.Machine.execFollowAlternate le s
  | .followGiveUp le => Sys2Proof.Machine.execFollowGiveUp le s
  | .reflCandidate le peak level => Sys2Proof.Machine.execReflCandidate le peak level s
  | .reflCandidateEnd le r level suppression => Sys2Proof.Machine.execReflCandidateEnd le r level suppression s
  | .reflLost le r => Sys2Proof.Machine.execReflLost le r s
  | .reflDelayMove le r offset => Sys2Proof.Machine.execReflDelayMove le r offset s
  | .qualInterval le q => Sys2Proof.Machine.execQualInterval le q s
  | .mapBuild le => Sys2Proof.Machine.execMapBuild le s
  | .mapSegment le k latch seg => Sys2Proof.Machine.execMapSegment le k latch seg s
  | .assign le id tag home ro => Sys2Proof.Machine.execAssign le id tag home ro s
  | .rangeAdj le id done change seq tag => Sys2Proof.Machine.execRangeAdj le id done change seq tag s
  | .powerAdj le id change seq tag => Sys2Proof.Machine.execPowerAdj le id change seq tag s
  | .quiesce le id seq tag => Sys2Proof.Machine.execQuiesce le id seq tag s
  | .release le id seq tag => Sys2Proof.Machine.execRelease le id seq tag s
  | .deregister le id seq tag => Sys2Proof.Machine.execDeregister le id seq tag s
  | .lmsgGo m le => Sys2Proof.Machine.execLmsgGo m le s
  | .leafMsgRepeat le j => Sys2Proof.Machine.execLeafMsgRepeat le j s
  | .burstTransmit le g => Sys2Proof.Machine.execBurstTransmit le g s
  | .discoveryBurst le g => Sys2Proof.Machine.execDiscoveryBurst le g s
  | .discoveryWaitExpiry le => Sys2Proof.Machine.execDiscoveryWaitExpiry le s
  | .selfGuardTrip le => Sys2Proof.Machine.execSelfGuardTrip le s
  | .segmentLossDark le => Sys2Proof.Machine.execSegmentLossDark le s
  | .mapLost le => Sys2Proof.Machine.execMapLost le s
  | .leafIdExpire le => Sys2Proof.Machine.execLeafIdExpire le s
  | .leafClr m le => Sys2Proof.Machine.execLeafClr m le s
  | .preambleDetect le sc bands found rho arrival => Sys2Proof.Machine.execPreambleDetect le sc bands found rho arrival s
  | .burstHeaderDecode le sc w band hdr => Sys2Proof.Machine.execBurstHeaderDecode le sc w band hdr s
  | .rogueDecay le j => Sys2Proof.Machine.execRogueDecay le j s
  | .burstRxDone le sc w band evm power failed cd => Sys2Proof.Machine.execBurstRxDone le sc w band evm power failed cd s
  | .burstLossDetect le j => Sys2Proof.Machine.execBurstLossDetect le j s
  | .idleMeasure le sc w band power => Sys2Proof.Machine.execIdleMeasure le sc w band power s
  | .brecPop m le => Sys2Proof.Machine.execBrecPop m le s
  | .fecBlockDecode le k burst d => Sys2Proof.Machine.execFecBlockDecode le k burst d s
  | .cwCandidateFound le k => Sys2Proof.Machine.execCwCandidateFound le k s
  | .tileSwap le inFlight => Sys2Proof.Machine.execTileSwap le inFlight s
  | .fecEncode le info faults => Sys2Proof.Machine.execFecEncode le info faults s
  | .glfFrameTx le => Sys2Proof.Machine.execGlfFrameTx le s
  | .glfHeaderRx le k pos hdr partB jc => Sys2Proof.Machine.execGlfHeaderRx le k pos hdr partB jc s
  | .slotMap le k body => Sys2Proof.Machine.execSlotMap le k body s
  | .cellRx le c hdr failed => Sys2Proof.Machine.execCellRx le c hdr failed s
  | .deskewRelease g fc late bad dd last => Sys2Proof.Machine.execDeskewRelease g fc late bad dd last s
  | .defectDeclare d x noFrame => Sys2Proof.Machine.execDefectDeclare d x noFrame s
  | .defectClear d x => Sys2Proof.Machine.execDefectClear d x s
  | .mspStatus body => Sys2Proof.Machine.execMspStatus body s
  | .propose body fits => Sys2Proof.Machine.execPropose body fits s
  | .accept body => Sys2Proof.Machine.execAccept body s
  | .reject body => Sys2Proof.Machine.execReject body s
  | .arm body => Sys2Proof.Machine.execArm body s
  | .reqRemove body => Sys2Proof.Machine.execReqRemove body s
  | .mspMsgRepeat g sink => Sys2Proof.Machine.execMspMsgRepeat g sink s
  | .mspProposeTimeout g => Sys2Proof.Machine.execMspProposeTimeout g s
  | .mspReadyTimeout g => Sys2Proof.Machine.execMspReadyTimeout g s
  | .mspSwitch g => Sys2Proof.Machine.execMspSwitch g s
  | .laneSignalDetect k => Sys2Proof.Machine.execLaneSignalDetect k s
  | .cdrConverged k inverted snr => Sys2Proof.Machine.execCdrConverged k inverted snr s
  | .cdrTimeout k => Sys2Proof.Machine.execCdrTimeout k s
  | .trainingComplete k taps => Sys2Proof.Machine.execTrainingComplete k taps s
  | .trainFail k => Sys2Proof.Machine.execTrainFail k s
  | .laneFault k lost => Sys2Proof.Machine.execLaneFault k lost s
  | .capabilityFrame k marker version lane flags lanes tag port tail => Sys2Proof.Machine.execCapabilityFrame k marker version lane flags lanes tag port tail s
  | .exchangeWindowExpiry p => Sys2Proof.Machine.execExchangeWindowExpiry p s
  | .portAligned p found => Sys2Proof.Machine.execPortAligned p found s
  | .alignmentLost p => Sys2Proof.Machine.execAlignmentLost p s
  | .spareReq p lane seq => Sys2Proof.Machine.execSpareReq p lane seq s
  | .spareAck p lane seq => Sys2Proof.Machine.execSpareAck p lane seq s
  | .spareReqRepeat p => Sys2Proof.Machine.execSpareReqRepeat p s
  | .spareSwitch p lost => Sys2Proof.Machine.execSpareSwitch p lost s
  | .sleep p => Sys2Proof.Machine.execSleep p s
  | .wake p => Sys2Proof.Machine.execWake p s
  | .sleepEntry p => Sys2Proof.Machine.execSleepEntry p s
  | .ingressFrame p len overload line => Sys2Proof.Machine.execIngressFrame p len overload line s
  | .egressFrame p len queued idleAdj slip => Sys2Proof.Machine.execEgressFrame p len queued idleAdj slip s
  | .esmcPduRx p code => Sys2Proof.Machine.execEsmcPduRx p code s
  | .esmcInfoTx => Sys2Proof.Machine.execEsmcInfoTx s
  | .esmcQlTimeout p => Sys2Proof.Machine.execEsmcQlTimeout p s
  | .firstPass p frame fcsBad pipe ue ce differs => Sys2Proof.Machine.execFirstPass p frame fcsBad pipe ue ce differs s
  | .secondPass id pipe ue ce differs => Sys2Proof.Machine.execSecondPass id pipe ue ce differs s
  | .recircTimeout id => Sys2Proof.Machine.execRecircTimeout id s
  | .packetRelease id => Sys2Proof.Machine.execPacketRelease id s
  | .bankDrainDone => Sys2Proof.Machine.execBankDrainDone s
  | .clsBankCopy m => Sys2Proof.Machine.execClsBankCopy m s
  | .copyDone ue => Sys2Proof.Machine.execCopyDone ue s
  | .clsWinWrite m b off value => Sys2Proof.Machine.execClsWinWrite m b off value s
  | .pipeTestStart p => Sys2Proof.Machine.execPipeTestStart p s
  | .pipeTestDone p ok => Sys2Proof.Machine.execPipeTestDone p ok s
  | .bufMemRead n source ups => Sys2Proof.Machine.execBufMemRead n source ups s
  | .bufMemWrite n mask data source => Sys2Proof.Machine.execBufMemWrite n mask data source s
  | .scrubRead ups late => Sys2Proof.Machine.execScrubRead ups late s
  | .hardClr m => Sys2Proof.Machine.execHardClr m s
  | .injGo m => Sys2Proof.Machine.execInjGo m s
  | .injDone => Sys2Proof.Machine.execInjDone s
  | .bufLogPop m => Sys2Proof.Machine.execBufLogPop m s
  | .retireGo m => Sys2Proof.Machine.execRetireGo m s
  | .restoreGo m => Sys2Proof.Machine.execRestoreGo m s
  | .marchTestDone ok => Sys2Proof.Machine.execMarchTestDone ok s
  | .retireCopyDone => Sys2Proof.Machine.execRetireCopyDone s
  | .retireSwitch => Sys2Proof.Machine.execRetireSwitch s
  | .rowrepGo m => Sys2Proof.Machine.execRowrepGo m s
  | .rowrepStep => Sys2Proof.Machine.execRowrepStep s
  | .rowrepTestDone ok => Sys2Proof.Machine.execRowrepTestDone ok s
  | .hostWinRead m off => Sys2Proof.Machine.execHostWinRead m off s
  | .hostWinWrite m off value => Sys2Proof.Machine.execHostWinWrite m off value s
  | .dataTxUnit j period start hdr plain mism => Sys2Proof.Machine.execDataTxUnit j period start hdr plain mism s
  | .dataRxUnit j unit start hdr text tag replaced mism => Sys2Proof.Machine.execDataRxUnit j unit start hdr text tag replaced mism s
  | .keyLoad id words => Sys2Proof.Machine.execKeyLoad id words s
  | .keyErase id words => Sys2Proof.Machine.execKeyErase id words s
  | .keyActivate id words => Sys2Proof.Machine.execKeyActivate id words s
  | .kxStart m tx rx => Sys2Proof.Machine.execKxStart m tx rx s
  | .kxCert le body => Sys2Proof.Machine.execKxCert le body s
  | .kxInit le body => Sys2Proof.Machine.execKxInit le body s
  | .kxResp le body => Sys2Proof.Machine.execKxResp le body s
  | .kxConfirm le body => Sys2Proof.Machine.execKxConfirm le body s
  | .kxAck le body => Sys2Proof.Machine.execKxAck le body s
  | .kxSwitch le body => Sys2Proof.Machine.execKxSwitch le body s
  | .kxAbort le body => Sys2Proof.Machine.execKxAbort le body s
  | .kxRepeat j => Sys2Proof.Machine.execKxRepeat j s
  | .kxTimeout j => Sys2Proof.Machine.execKxTimeout j s
  | .coreTestStart c chunks => Sys2Proof.Machine.execCoreTestStart c chunks s
  | .coreTestDone c ok => Sys2Proof.Machine.execCoreTestDone c ok s
  | .nonceGet fw id words => Sys2Proof.Machine.execNonceGet fw id words s
  | .chgSubmit fw id words => Sys2Proof.Machine.execChgSubmit fw id words s
  | .attest fw id words => Sys2Proof.Machine.execAttest fw id words s
  | .chgAbort fw id words => Sys2Proof.Machine.execChgAbort fw id words s
  | .klkPub fw id words => Sys2Proof.Machine.execKlkPub fw id words s
  | .chgExpiry h => Sys2Proof.Machine.execChgExpiry h s
  | .debugExpire => Sys2Proof.Machine.execDebugExpire s
  | .overrideEnd le => Sys2Proof.Machine.execOverrideEnd le s
  | .tamperTrip c lights => Sys2Proof.Machine.execTamperTrip c lights s
  | .hello le r => Sys2Proof.Machine.execHello le r s
  | .certRead le r => Sys2Proof.Machine.execCertRead le r s
  | .auth le r => Sys2Proof.Machine.execAuth le r s
  | .txDisable le r => Sys2Proof.Machine.execTxDisable le r s
  | .txEnable le r => Sys2Proof.Machine.execTxEnable le r s
  | .status le r => Sys2Proof.Machine.execStatus le r s
  | .alertRead le r => Sys2Proof.Machine.execAlertRead le r s
  | .lifeRead le r => Sys2Proof.Machine.execLifeRead le r s
  | .memRead le addr len r => Sys2Proof.Machine.execMemRead le addr len r s
  | .memWrite le addr data r => Sys2Proof.Machine.execMemWrite le addr data r s
  | .ubhResend le r => Sys2Proof.Machine.execUbhResend le r s
  | .ubhAbsent le => Sys2Proof.Machine.execUbhAbsent le s
  | .ubhAlertFall le => Sys2Proof.Machine.execUbhAlertFall le s
  | .ubhHold m le hold allow => Sys2Proof.Machine.execUbhHold m le hold allow s
  | .ubhPtGo m le write len addr => Sys2Proof.Machine.execUbhPtGo m le write len addr s
  | .inputFault k => Sys2Proof.Machine.execInputFault k s
  | .inputFaultClear k => Sys2Proof.Machine.execInputFaultClear k s
  | .inputQualified k => Sys2Proof.Machine.execInputQualified k s
  | .selectionEval freq offs => Sys2Proof.Machine.execSelectionEval freq offs s
  | .dpllLocked => Sys2Proof.Machine.execDpllLocked s
  | .holdoverOos => Sys2Proof.Machine.execHoldoverOos s
  | .dpllTestStart => Sys2Proof.Machine.execDpllTestStart s
  | .dpllTestEnd ok => Sys2Proof.Machine.execDpllTestEnd ok s
  | .switchComplete => Sys2Proof.Machine.execSwitchComplete s
  | .refDisagree k diff => Sys2Proof.Machine.execRefDisagree k diff s
  | .setAtPps m rate => Sys2Proof.Machine.execSetAtPps m rate s
  | .adjust m rate => Sys2Proof.Machine.execAdjust m rate s
  | .adjustComplete => Sys2Proof.Machine.execAdjustComplete s
  | .ppsInEdge t => Sys2Proof.Machine.execPpsInEdge t s
  | .ppsInLoss => Sys2Proof.Machine.execPpsInLoss s
  | .ppsOut => Sys2Proof.Machine.execPpsOut s
  | .refReady => Sys2Proof.Machine.execRefReady s
  | .thmTimerTrigger => Sys2Proof.Machine.execThmTimerTrigger s
  | .thmTrigGo m => Sys2Proof.Machine.execThmTrigGo m s
  | .thmCalGo m trig => Sys2Proof.Machine.execThmCalGo m trig s
  | .thmCalDone zero ref => Sys2Proof.Machine.execThmCalDone zero ref s
  | .thmResult tag windows outside => Sys2Proof.Machine.execThmResult tag windows outside s
  | .seqDone => Sys2Proof.Machine.execSeqDone s
  | .thmQPop m => Sys2Proof.Machine.execThmQPop m s
  | .pathTest k seen ref => Sys2Proof.Machine.execPathTest k seen ref s
  | .ruleTick still alerts => Sys2Proof.Machine.execRuleTick still alerts s
  | .hmpPdRelease m bits => Sys2Proof.Machine.execHmpPdRelease m bits s
  | .hmpSeal m => Sys2Proof.Machine.execHmpSeal m s
  | .hmpLogPop m => Sys2Proof.Machine.execHmpLogPop m s
  | .monTrigGo m le => Sys2Proof.Machine.execMonTrigGo m le s
  | .monAbort m le => Sys2Proof.Machine.execMonAbort m le s
  | .monRearm m le => Sys2Proof.Machine.execMonRearm m le s
  | .monTrigger le sat => Sys2Proof.Machine.execMonTrigger le sat s
  | .capDone le units sat words => Sys2Proof.Machine.execCapDone le units sat words s
  | .trimUpdate le t => Sys2Proof.Machine.execTrimUpdate le t s
  | .spareCalStart le dac lane => Sys2Proof.Machine.execSpareCalStart le dac lane s
  | .spareCalEnd le dac c pilot => Sys2Proof.Machine.execSpareCalEnd le dac c pilot s
  | .rotationSwap le dac lane => Sys2Proof.Machine.execRotationSwap le dac lane s
  | .unitFault le dac lane pos => Sys2Proof.Machine.execUnitFault le dac lane pos s
  | .repairSwap le dac lane => Sys2Proof.Machine.execRepairSwap le dac lane s
  | .fgCalGo m le adc dac fec => Sys2Proof.Machine.execFgCalGo m le adc dac fec s
  | .fgDone adc dac tiles => Sys2Proof.Machine.execFgDone adc dac tiles s
  | .loopCalStep le lane swing peaking inGap cals => Sys2Proof.Machine.execLoopCalStep le lane swing peaking inGap cals s
  | .periodicTest t => Sys2Proof.Machine.execPeriodicTest t s
  | .repPipeTest m => Sys2Proof.Machine.execRepPipeTest m s
  | .repDpllTest m => Sys2Proof.Machine.execRepDpllTest m s
  | .monTest m le => Sys2Proof.Machine.execMonTest m le s
  | .monTestDone le dev => Sys2Proof.Machine.execMonTestDone le dev s
  | .trimWrite m le t w value => Sys2Proof.Machine.execTrimWrite m le t w value s
  | .classExhausted c => Sys2Proof.Machine.execClassExhausted c s
  | .classRestored c => Sys2Proof.Machine.execClassRestored c s
  | .evlEntry p => Sys2Proof.Machine.execEvlEntry p s
  | .sorterRelease => Sys2Proof.Machine.execSorterRelease s
  | .foldWindowEnd p loss code => Sys2Proof.Machine.execFoldWindowEnd p loss code s
  | .evlTailWrite m value => Sys2Proof.Machine.execEvlTailWrite m value s
  | .cntSelWrite m n value => Sys2Proof.Machine.execCntSelWrite m n value s
  | .cntHiWrite m n value => Sys2Proof.Machine.execCntHiWrite m n value s
  | .cntWrap n inc => Sys2Proof.Machine.execCntWrap n inc s
  | .freezeRequest m freeze lead => Sys2Proof.Machine.execFreezeRequest m freeze lead s
  | .freezeInstant => Sys2Proof.Machine.execFreezeInstant s
  | .cntSnapshot => Sys2Proof.Machine.execCntSnapshot s
  | .sampleChoose path port => Sys2Proof.Machine.execSampleChoose path port s
  | .sampleRecord path j u => Sys2Proof.Machine.execSampleRecord path j u s
  | .smpRestart m value => Sys2Proof.Machine.execSmpRestart m value s
  | .spiWrite addr words waiting => Sys2Proof.Machine.execSpiWrite addr words waiting s
  | .spiRead addr n => Sys2Proof.Machine.execSpiRead addr n s
  | .spiStatus waiting => Sys2Proof.Machine.execSpiStatus waiting s
  | .gpioEdge n rising => Sys2Proof.Machine.execGpioEdge n rising s
  | .kxRestart j => Sys2Proof.Machine.execKxRestart j s
  | .avsConfirmed => Sys2Proof.Machine.execAvsConfirmed s
  | .trngHealthTest pass => Sys2Proof.Machine.execTrngHealthTest pass s

end Sys2Proof.Machine
end

