-- ==== Sys2Proof/Safety.lean ====
section
/-! DEFINITION. What counts as a safe run; the parts of the state that frames are stated over; the invariant of the model. -/
namespace Sys2Proof

open Machine

/-- The outcome is a next state. -/
def Machine.goesOn (o : Host.Outcome State Fault Refusal) : Bool :=
  match o with
  | .next _ => true
  | _ => false

namespace Machine

/-- Bit `b` of EVT_STICKY of page `p` reads 1. -/
def State.sticky (s : State) (p b : Nat) : Prop := (s.g (F.EVT_STICKY p)).testBit b = true

/-- R50, R51, R68: a command write of master `m` to page `p` is taken: the fabric takes it to the page, some chapter defines the page,
the block's clock domain runs (or the register answers in clk_fab) and no other master holds the page LOCK. -/
def State.admits (s : State) (m : Master) (p : Nat) (inFab : Bool) : Prop :=
  s.reaches m p = true ∧ definedPage p = true ∧ (inFab = true ∨ s.domainUp p = true) ∧ s.lockedOut (mcode m) p = false

/-- The parts of the state: each register field by its bit address (what it reads as; staged values, the commit buffer and values in
force of RWS fields are parts of their own), the storage of each chapter, and, apart from the storage around them, the words of package memory and of rule memory. Storage of a line engine is
named with the engine (false LE0, true LE1). -/
inductive Part where
  | reg (key : Nat) | pending | time | drawn | staged | buffer | inForce | ev | fab | dev
  | tx (le1 : Bool) | rx (le1 : Bool) | fec (le1 : Bool) | glf (le1 : Bool) | p2mp (le1 : Bool) | ubh (le1 : Bool) | mon (le1 : Bool)
  | lanes | cls | clsMem | buf | bufMem | grp | cip | enc | syn | rep | evl | cnt | smp | thm | hmpLog | spi
  deriving DecidableEq, Repr

/-- What line engine LE0 (false) or LE1 (true) holds. -/
def engOf (s : State) (le1 : Bool) : Engine := if le1 then s.le1 else s.le0

/-- A part holds in `t` what it holds in `s`. -/
def Part.same (s t : State) : Part → Prop
  | .reg k => Tbl.find t.fields k = Tbl.find s.fields k
  | .pending => t.pending = s.pending
  | .time => t.time = s.time
  | .drawn => t.drawn = s.drawn
  | .staged => t.staged = s.staged
  | .buffer => t.buffer = s.buffer
  | .inForce => t.inForce = s.inForce
  | .ev => t.ev = s.ev
  | .fab => t.fab = s.fab
  | .dev => t.dev = s.dev
  | .tx n => (engOf t n).tx = (engOf s n).tx
  | .rx n => (engOf t n).rx = (engOf s n).rx
  | .fec n => (engOf t n).fec = (engOf s n).fec
  | .glf n => (engOf t n).glf = (engOf s n).glf
  | .p2mp n => (engOf t n).p2mp = (engOf s n).p2mp
  | .ubh n => (engOf t n).ubh = (engOf s n).ubh
  | .mon n => (engOf t n).mon = (engOf s n).mon
  | .lanes => t.lanes = s.lanes
  | .cls => t.cls.pkts = s.cls.pkts ∧ t.cls.nextId = s.cls.nextId ∧ t.cls.mismatch = s.cls.mismatch
  | .clsMem => t.cls.mem = s.cls.mem ∧ t.cls.poison = s.cls.poison
  | .buf => { t.buf with mem := s.buf.mem } = s.buf
  | .bufMem => t.buf.mem = s.buf.mem
  | .grp => t.grp = s.grp
  | .cip => t.cip = s.cip
  | .enc => t.enc = s.enc
  | .syn => t.syn = s.syn
  | .rep => t.rep = s.rep
  | .evl => t.evl = s.evl
  | .cnt => t.cnt = s.cnt
  | .smp => t.smp = s.smp
  | .thm => t.thm = s.thm
  | .hmpLog => t.hmpLog = s.hmpLog
  | .spi => t.spi = s.spi

/-- Between `s` and `t` nothing has changed but parts that `allowed` names. -/
def Within (allowed : Part → Prop) (s t : State) : Prop := ∀ p, ¬ allowed p → Part.same s t p

/-- The canonical form of the sparse contents: register contents, staged sets, commit buffer, values in force and event-log places with
strictly rising keys; the words of package memory, rule memory, the monitor chains and the sampling buffer with strictly rising
keys and no entry listed that reads as an unlisted word does (0). -/
structure State.tidy (s : State) : Prop where
  fields : Tbl.rising s.fields = true
  staged : Tbl.rising s.staged = true
  buffer : Tbl.rising s.buffer = true
  inForce : Tbl.rising s.inForce = true
  slots : Tbl.rising s.evl.slots = true
  bufMem : Tbl.wf 0 s.buf.mem = true
  clsMem : Tbl.wf 0 s.cls.mem = true
  mon0 : Tbl.wf 0 s.le0.mon.buffer = true
  mon1 : Tbl.wf 0 s.le1.mon.buffer = true
  words : Tbl.wf 0 s.smp.words = true

end Machine

end Sys2Proof
end

