-- ==== Sys2Proof/Certificates/Slice0/Obligations.lean ====
section
/-! DEFINITION. The statements about the block, and the words they are stated in: the frame of every command (what it may change)
and a few properties of states. Each statement's docstring names the rules of the spec it comes from and, where a value or a
behaviour in it is the model's own choice, the log entries that say so. -/
open Sys2Proof Sys2Proof.Machine

/-! ## What each command may change -/

/-- A set of register fields, by bit address. -/
abbrev Regs := Nat → Prop

/-- The field `f`. -/
def one (f : Field) : Regs := fun k => k = f.key
/-- The union over an index. -/
def any {α : Type} (f : α → Regs) : Regs := fun k => ∃ a, f a k
/-- A field of every index. -/
def any1 (f : Nat → Field) : Regs := any fun a => one (f a)
/-- A field of every pair of indexes. -/
def any2 (f : Nat → Nat → Field) : Regs := any fun a => any1 (f a)
/-- A field of every triple of indexes. -/
def any3 (f : Nat → Nat → Nat → Field) : Regs := any fun a => any2 (f a)
/-- The union of a list of sets. -/
def regs (l : List Regs) : Regs := fun k => ∃ r ∈ l, r k
/-- EVT_STICKY of the pages named. -/
def events (pages : List Nat) : Regs := fun k => ∃ p ∈ pages, k = (F.EVT_STICKY p).key
/-- EVT_RAW of the pages named. -/
def levels (pages : List Nat) : Regs := fun k => ∃ p ∈ pages, k = (F.EVT_RAW p).key
/-- Every field. -/
def anyReg : Regs := fun _ => True
/-- The quality words of engine `le` (page 0x1D from offset 0x100). -/
def qualRegs (le : Nat) : Regs := fun k => lep le 0x1D * 0x8000 + 0x800 ≤ k ∧ k < lep le 0x1E * 0x8000
/-- The fields of page `p`. -/
def pageRegs (p : Nat) : Regs := fun k => pageOf (k / 8) = p
/-- R89: where a refused access is recorded. -/
def fabricErrorRegs : Regs :=
  regs [one F.FAB_ERR_CNT_count, one F.FAB_ERR_LAST_ADDR_addr, one F.FAB_ERR_LAST_INFO_reason, one F.FAB_ERR_LAST_INFO_master]

/-- The parts named and the fields named. -/
def only (parts : List Part) (fields : List Regs) : Part → Prop
  | .reg k => regs fields k
  | p => p ∈ parts

/-- Everything but the queue. -/
def device : Part → Prop := only
  [.time, .drawn, .staged, .buffer, .inForce, .ev, .fab, .dev, .tx false, .tx true, .rx false, .rx true, .fec false, .fec true,
   .glf false, .glf true, .p2mp false, .p2mp true, .ubh false, .ubh true, .mon false, .mon true, .lanes, .cls, .clsMem, .buf, .bufMem,
   .grp, .cip, .enc, .syn, .rep, .evl, .cnt, .smp, .thm, .hmpLog, .spi] [anyReg]

/-- The state of host lane `j` of group `g`. -/
def laneStateRegs (g : Nat) (j : Nat) : Regs :=
  regs [one (F.HL_LANE_STAT_cdr_lock g j), one (F.HL_LANE_STAT_sig_det g j), one (F.HL_LANE_STAT_spare g j), one (F.HL_LANE_STAT_state g j)]

/-- The page pool. -/
def poolRegs : Regs :=
  regs [one F.BUF_POOL_free, one F.BUF_POOL_in_use, events [0xC0], levels [0xC0]]

/-- R81: what held pulses add to. -/
def pulseRegs : Regs :=
  regs [any1 F.CNT_HI_value, any1 F.CNT_LO_value, any1 F.CNT_OVF_bits, events [0xF8]]

/-- R55: what an error code on page `p` sets. -/
def errorRegs (p : Nat) : Regs :=
  regs [one (F.ERR_code p), one (F.ERR_lost p), one (F.ERR_step p), one (F.ERR_valid p), events [p]]

/-- R58: what the end of a COMMIT of domain `d` sets. -/
def commitTakenRegs (d : Nat) : Regs :=
  regs [one (F.COMMIT_seq d), any1 F.EVT_STICKY, one (F.PAGE_STAT_commit_armed d), one (F.PAGE_STAT_commit_err d), one (F.PAGE_STAT_commit_pending d)]

/-- What association `i` reports. -/
def associationRegs (i : Nat) : Regs :=
  regs [one (F.CIP_SA_ST_cur_valid i), one (F.CIP_SA_ST_next_valid i), one (F.CIP_SA_ST_switch_armed i), one (F.CIP_SA_SWITCH_AT_at i),
    one (F.CIP_SA_USE_use i)]

/-- What the decoder of engine `le` reports. -/
def decoderRegs (le : Nat) : Regs :=
  regs [one (F.LE_FEC_STAT_iter_cap le), one (F.LE_FEC_STAT_q_th le), one (F.LE_FEC_STAT_tiles_active le), events [lep le 0x30], levels [lep le 0x30]]

/-- What the end of key exchange `j` sets. -/
def exchangeEndRegs (j : Nat) : Regs :=
  regs [one (F.CIP_CNT_count 5), one (F.CIP_CNT_count 6), one (F.CIP_KX_STAT_result j), one (F.CIP_KX_STAT_state j), events [0xC8]]

/-- R82: what a resynchronisation sets. -/
def resyncRegs (pa : Nat) (pb : Nat) : Regs :=
  regs [one F.XS_DROP_CNT_count, one F.XS_RESYNC_HI_bits, one F.XS_RESYNC_LO_bits, events [pa, pb]]

/-- R58: what cancelling the COMMIT of domain `d` sets. -/
def commitCancelRegs (d : Nat) : Regs :=
  regs [any1 F.EVT_STICKY, one (F.PAGE_STAT_commit_armed d), one (F.PAGE_STAT_commit_err d), one (F.PAGE_STAT_commit_pending d),
    one (F.PAGE_STAT_commit_reason d)]

/-- The quality levels that are reported. -/
def qualityRegs : Regs :=
  regs [any1 F.SYN_ESMC_tx_ql, any1 F.SYN_IN_STAT_ql_failed, any1 F.SYN_IN_STAT_ql_rx, one F.SYN_STAT_output_ql, events [0xD0], levels [0xD0]]

/-- What the enclave reports. -/
def handleRegs : Regs :=
  regs [one F.ENC_STAT_bcr_keys, one F.ENC_STAT_claimed, one F.ENC_STAT_klk_valid, one F.ENC_STAT_officers, one F.ENC_STAT_pending,
    one F.ENC_STAT_response]

/-- The load of the cipher cores. -/
def cipherLoadRegs : Regs :=
  regs [one F.CIP_BUDGET_charge, one F.CIP_BUDGET_limit, one F.CIP_STAT_cores, one F.CIP_STAT_overload, one F.CIP_STAT_shed_first,
    events [0xC8], levels [0xC8]]

/-- R245, R279: what a change of FEC alignment of engine `le` sets. -/
def framerSyncRegs (le : Nat) : Regs :=
  regs [one (F.LE_FEC_SC_SYNC_sc_sync le), one (F.LE_FEC_STAT_sync le), one (F.LE_GLF_STAT_candidates le), one (F.LE_GLF_STAT_frame_state le),
    one (F.LE_GLF_STAT_mf_state le), one (F.LE_RX_FOLLOW_STAT_follows_lost le), one (F.LE_RX_PLAN_STAT_follow_pending le),
    events [lep le 0x18, lep le 0x34]]

/-- What a test of a package-memory page sets. -/
def pageTestRegs : Regs :=
  regs [poolRegs, one (F.BUF_CNT_count 7), one (F.BUF_CNT_count 8), one F.BUF_LOG_CTRL_ovf, one F.BUF_LOG_CTRL_queued, events [0xC1, 0xC2]]

/-- The unit maps of lane `lane` of engine `le`. -/
def converterMapRegs (le : Nat) (lane : Nat) : Regs :=
  regs [one (F.LE_RX_ADC_MAP_calibrating le lane), one (F.LE_RX_ADC_MAP_in_use le lane), one (F.LE_RX_ADC_MAP_spares le lane),
    one (F.LE_RX_ADC_SPARE_spare0 le lane), one (F.LE_RX_ADC_SPARE_spare1 le lane), one (F.LE_RX_ADC_SPARE_spare2 le lane),
    one (F.LE_RX_ADC_SPARE_spare3 le lane), one (F.LE_TX_DAC_MAP_in_use le lane), one (F.LE_TX_DAC_MAP_spare_a le lane),
    one (F.LE_TX_DAC_MAP_spare_b le lane)]

/-- What a message into mailbox `n` sets. -/
def replyRegs (n : Nat) : Regs :=
  regs [fabricErrorRegs, one (F.MBX_STAT_discard_cnt n), one (F.MBX_STAT_discarded n), one (F.MBX_STAT_overrun n), events [0x09,
    pageOf (0x9040 + 0x20 * n)], levels [0x09]]

/-- R170: what a state change of the receiver of engine `le` sets. -/
def receiverMoveRegs (le : Nat) : Regs :=
  regs [framerSyncRegs le, one (F.LE_RX_CD_EST_cd le), one (F.LE_RX_PLAN_STAT_sc_locked le), one (F.LE_RX_SC_LOCK_LOST_lost le),
    one (F.LE_RX_SC_LOCK_lock le), one (F.LE_RX_STATE_lol_raw le), one (F.LE_RX_STATE_state le), levels [lep le 0x18]]

/-- What restarting host ports sets. -/
def portRegs : Regs :=
  regs [any fun g => any fun j => laneStateRegs g j, any1 F.EVT_STICKY, any2 F.HL_LANE_TXFFE_ACT_taps, any2 F.PORT_LANEMAP_map,
    any2 F.PORT_PARTNER_port, any2 F.PORT_PARTNER_tag, any2 F.PORT_STAT_exch_result, any2 F.PORT_STAT_flexo_lof,
    any2 F.PORT_STAT_gid_mismatch, any2 F.PORT_STAT_rx_asleep, any2 F.PORT_STAT_rx_local_fault, any2 F.PORT_STAT_rx_remote_fault,
    any2 F.PORT_STAT_slm_active, any2 F.PORT_STAT_spare_ready, any2 F.PORT_STAT_spare_used, any2 F.PORT_STAT_state,
    any2 F.PORT_STAT_tx_asleep]

/-- What the boundary of association `i` sets. -/
def boundaryRegs (i : Nat) : Regs :=
  regs [errorRegs 0xC9, associationRegs i, any fun j => exchangeEndRegs j, any1 F.CIP_KX_STAT_role, any1 F.CIP_KX_STAT_rx,
    any1 F.CIP_KX_STAT_tx, one (F.CIP_SA_ST_block_reason i), one (F.CIP_SA_ST_state i), one (F.CIP_SA_ST_warn i)]

/-- R107, R108: what stopping engine `le` sets. -/
def engineDownRegs (le : Nat) : Regs :=
  regs [commitCancelRegs (lep le 0x10), one (F.LE_FEC_SC_SYNC_sc_sync le), one (F.LE_FEC_STAT_sync le), one (F.LE_GLF_STAT_candidates le),
    one (F.LE_GLF_STAT_frame_state le), one (F.LE_GLF_STAT_mf_state le), one (F.LE_P2MP_LEAF_RO_ro le),
    one (F.LE_P2MP_LEAF_STAT_leaf_id le), one (F.LE_P2MP_LEAF_STAT_state le), one (F.LE_ROLE_STAT_run_state le), one (F.LE_RX_CD_EST_cd le),
    one (F.LE_RX_FOLLOW_STAT_follows_lost le), one (F.LE_RX_PLAN_STAT_follow_pending le), one (F.LE_RX_PLAN_STAT_sc_locked le),
    one (F.LE_RX_SC_LOCK_LOST_lost le), one (F.LE_RX_SC_LOCK_lock le), one (F.LE_RX_STATE_lol_raw le), one (F.LE_RX_STATE_state le),
    one (F.LE_TX_CODED_RATE_rate le), one (F.LE_TX_ENV_STAT_above le), one (F.LE_TX_NET_RATE_rate le),
    one (F.LE_TX_PLAN_STAT_baud_active le), one (F.LE_TX_PLAN_STAT_entropy_active le), one (F.LE_TX_PLAN_STAT_modulation_active le),
    one (F.LE_TX_PLAN_STAT_reload_busy le), one (F.LE_TX_PLAN_STAT_sc_enabled le), one (F.LE_TX_PLAN_STAT_timed_pending le),
    levels [lep le 0x18]]

/-- What engine `le` reaching STOPPED sets. -/
def engineStoppedRegs (le : Nat) : Regs :=
  regs [any fun lane => converterMapRegs le lane, cipherLoadRegs, one (F.LE_ROLE_STAT_line_mode_active le),
    one (F.LE_ROLE_STAT_role_active le), one (F.LE_ROLE_STAT_run_state le), one (F.LE_ROLE_STAT_single_fibre_active le),
    one (F.LE_RX_ADC_REP_CNT_count le), one (F.LE_RX_BAUD_MAX_baud le), one (F.LE_TX_BAUD_MAX_baud le), one (F.LE_TX_CODED_RATE_rate le),
    one (F.LE_TX_ENV_STAT_above le), one (F.LE_TX_NET_RATE_rate le), one (F.LE_TX_PLAN_STAT_baud_active le),
    one (F.LE_TX_PLAN_STAT_entropy_active le), one (F.LE_TX_PLAN_STAT_modulation_active le), one (F.LE_TX_PLAN_STAT_sc_enabled le),
    one (F.MON_STAT_pending le), one (F.MON_STAT_state le), any1 F.REP_CLASS_SWAPS_count, events [lep le 0x14, lep le 0x16, lep le 0x18,
    lep le 0x19]]

/-- R433 to R437: what commands to the module of engine `le` set. -/
def ubholtRegs (le : Nat) : Regs :=
  regs [engineDownRegs le, one (F.ERR_code (lep le 0x10)), one (F.ERR_lost (lep le 0x10)), one (F.ERR_step (lep le 0x10)),
    one (F.ERR_valid (lep le 0x10)), one (F.LE_RX_STATE_los_raw le), one (F.UBH_CNT_count le 0), one (F.UBH_CNT_count le 3),
    one (F.UBH_CNT_count le 4), any1 (F.UBH_DECL_bytes le), one (F.UBH_EOL_STAT_drift le), one (F.UBH_EOL_STAT_eol le),
    one (F.UBH_EOL_STAT_hours_to_limit le), one (F.UBH_ID_HI_id le), one (F.UBH_ID_LO_id le), any1 (F.UBH_LIFE_bytes le),
    any1 (F.UBH_PT_DATA_bytes le), one (F.UBH_PT_STAT_busy le), one (F.UBH_PT_STAT_status le), one (F.UBH_STAT_alerts le),
    one (F.UBH_STAT_auth le), one (F.UBH_STAT_case_temp le), one (F.UBH_STAT_link le), one (F.UBH_STAT_override le),
    one (F.UBH_STAT_present le), one (F.UBH_STAT_rx_los le), one (F.UBH_STAT_tx_enabled le), one (F.UBH_STAT_tx_ready le),
    levels [0xD8 + le]]

/-- The parts and the fields that a command may change. -/
def frame (i : Instr) : Part → Prop :=
  match i with
  | .registerWrite _ _ _ _ => device
  | .commitGo _ p =>
    only [.buf, .buffer, .cip, .drawn, .ev, .fab, .grp, .inForce, .lanes, .rep, .staged, .syn, .thm, .time, .fec false, .fec true, .glf false,
      .glf true, .mon false, .mon true, .p2mp false, .p2mp true, .rx false, .rx true, .tx false, .tx true] [fabricErrorRegs,
      any fun le => engineDownRegs le, any fun i => boundaryRegs i, any fun le => engineStoppedRegs le, any fun p => errorRegs p,
      qualityRegs, portRegs, any fun le => decoderRegs le, any fun d => commitCancelRegs d, any fun (a : Nat) => one (bankSt a),
      one F.BUF_DESKEW_USED_pages, one F.CLS_BANK_DRAIN_count, one (F.CLS_CNT_count 3), one F.CLS_RECIRC_LEVEL_recirc,
      one F.CLS_RECIRC_LEVEL_reorder, one (F.COMMIT_seq 0xC8), one (F.COMMIT_seq (domainOf p.val)), any1 F.EVT_RAW,
      any1 (F.HL_LANE_STAT_retrains ((domainOf p.val) - 0x90)), any1 F.HMP_RULE_STAT_count, any1 F.HMP_RULE_STAT_state,
      one F.HMP_STAT_fired, any2 F.LE_GLF_CONT_AUX_rank, any1 F.LE_GLF_DEF_def, any2 F.LE_GLF_VEC_bits, any1 F.LE_P2MP_APPLY_PN_period,
      any fun (a : Nat) => one (F.LE_P2MP_CNT_count a 9), any3 F.LE_P2MP_LEAF_CD_cd, any3 F.LE_P2MP_LEAF_ST_ro_active,
      any3 F.LE_P2MP_LEAF_ST_state, any1 F.LE_P2MP_LMSG_STAT_queued, any1 F.LE_ROLE_STAT_start_step, any1 F.LE_RX_CD_RANGE_dmax,
      any1 F.LE_RX_PLAN_STAT_baud_active, any1 F.LE_RX_PLAN_STAT_entropy_active, any1 F.LE_RX_PLAN_STAT_modulation_active,
      any2 F.LE_RX_REFL_STAT_delay, any2 F.LE_RX_REFL_STAT_state, any1 F.LE_RX_REFL_SUM_residual, any1 F.LE_RX_REFL_SUM_slots,
      any1 F.LE_RX_STATE_acquisitions, any1 F.LE_RX_STATE_los_raw, any2 F.MAP_GRP_PAGES_pages, any2 F.MAP_GRP_ST_active_set,
      any2 F.MAP_GRP_ST_msp_state, any2 F.MAP_GRP_ST_sel, any2 F.MAP_GRP_ST_sink_state,
      any fun (a : Nat) => any fun (b : Nat) => one (F.PORT_CNT_count a b 11), any1 F.SYN_IN_STAT_state, any1 F.SYN_IN_WTR_remaining]
  | .commitCheck _ p =>
    only [.buffer, .ev, .fab] [fabricErrorRegs, one (F.PAGE_STAT_commit_err (domainOf p.val)), one (F.PAGE_STAT_commit_reason (domainOf p.val)),
      events [p.val, pageOf (p.val * 0x1000 + 0x20)]]
  | .commitDiscard _ p => only [.ev, .staged] [fabricErrorRegs, commitCancelRegs (domainOf p.val)]
  | .commitApply _ => device
  | .devCommitSync _ =>
    only [.buf, .cip, .drawn, .ev, .grp, .inForce, .lanes, .rep, .syn, .thm, .time, .fec false, .fec true, .glf false, .glf true, .mon false,
      .mon true, .p2mp false, .p2mp true, .rx false, .rx true, .tx false, .tx true] [fabricErrorRegs, any fun le => engineDownRegs le,
      any fun i => boundaryRegs i, any fun le => engineStoppedRegs le, any fun p => errorRegs p, qualityRegs,
      any fun d => commitTakenRegs d, portRegs, any fun le => decoderRegs le, any fun (a : Nat) => one (bankSt a),
      one F.BUF_DESKEW_USED_pages, one F.CLS_BANK_DRAIN_count, one (F.CLS_CNT_count 3), one F.CLS_RECIRC_LEVEL_recirc,
      one F.CLS_RECIRC_LEVEL_reorder, one F.DEV_COMMIT_SYNC_sync_seq, any1 F.EVT_RAW, any2 F.HL_LANE_STAT_retrains,
      any1 F.HMP_RULE_STAT_count, any1 F.HMP_RULE_STAT_state, one F.HMP_STAT_fired, any2 F.LE_GLF_CONT_AUX_rank, any1 F.LE_GLF_DEF_def,
      any2 F.LE_GLF_VEC_bits, any1 F.LE_P2MP_APPLY_PN_period, any fun (a : Nat) => one (F.LE_P2MP_CNT_count a 9), any3 F.LE_P2MP_LEAF_CD_cd,
      any3 F.LE_P2MP_LEAF_ST_ro_active, any3 F.LE_P2MP_LEAF_ST_state, any1 F.LE_P2MP_LMSG_STAT_queued, any1 F.LE_ROLE_STAT_start_step,
      any1 F.LE_RX_CD_RANGE_dmax, any1 F.LE_RX_PLAN_STAT_baud_active, any1 F.LE_RX_PLAN_STAT_entropy_active,
      any1 F.LE_RX_PLAN_STAT_modulation_active, any2 F.LE_RX_REFL_STAT_delay, any2 F.LE_RX_REFL_STAT_state, any1 F.LE_RX_REFL_SUM_residual,
      any1 F.LE_RX_REFL_SUM_slots, any1 F.LE_RX_STATE_los_raw, any2 F.MAP_GRP_PAGES_pages, any2 F.MAP_GRP_ST_active_set,
      any2 F.MAP_GRP_ST_msp_state, any2 F.MAP_GRP_ST_sel, any2 F.MAP_GRP_ST_sink_state, any1 F.PAGE_STAT_commit_reason,
      any fun (a : Nat) => any fun (b : Nat) => one (F.PORT_CNT_count a b 11), any1 F.SYN_IN_STAT_state, any1 F.SYN_IN_WTR_remaining]
  | .softReset _ p =>
    only [.ev, .fec false, .fec true, .glf false, .glf true, .rx false, .rx true, .tx false, .tx true] [fabricErrorRegs,
      any fun le => receiverMoveRegs le, commitCancelRegs (domainOf p.val), one (F.LE_TX_PLAN_STAT_timed_pending 0),
      one (F.LE_TX_PLAN_STAT_timed_pending 1), any2 F.MAP_GRP_ST_msp_state, any2 F.MAP_GRP_ST_sink_state, one F.MAP_MSP_STAT_group,
      one F.MAP_MSP_STAT_reason, one (F.MON_STAT_pending 0), one (F.MON_STAT_pending 1), one (F.MON_STAT_state 0), one (F.MON_STAT_state 1)]
  | .evtForce _ p _ => only [.ev] [fabricErrorRegs, events [p.val, pageOf (p.val * 0x1000 + 0x1C)]]
  | .pageSnap _ p =>
    only [.cnt, .ev, .fab] [fabricErrorRegs, one F.CNT_FREEZE_T_HI_value, one F.CNT_FREEZE_T_LO_value, one (F.PAGE_STAT_snap_busy 0xF8),
      one (F.PAGE_STAT_snap_busy p.val), events [pageOf (p.val * 0x1000 + 0x2C)]]
  | .snapDone p => only [.ev, .fab] [pageRegs p.val, one (F.PAGE_STAT_snap_busy p.val), one (F.SNAP_seq p.val), events [p.val]]
  | .lockAcquire _ l => only [.ev, .fab] [one (ownerField l)]
  | .lockRelease _ l _ =>
    only [.ev] [fabricErrorRegs, one (ownerField l), one F.LOCK_ERR_count, one F.LOCK_ERR_last_index, one F.LOCK_ERR_last_master,
      one F.LOCK_ERR_last_page, events [lockPage l, pageOf (lockPage l * 0x1000 + 0x24)]]
  | .masterReset _ _ =>
    only [.ev, .fab] [fabricErrorRegs, replyRegs 3, any1 F.LOCKN_owner, one F.LOCK_ORPHAN_count, one F.LOCK_ORPHAN_last_master,
      any1 F.LOCK_owner, any1 F.MBX_STAT_discard_cnt, any1 F.MBX_STAT_discarded, one (F.MBX_STAT_overrun 7), any1 F.MBX_STAT_rx_in_reset,
      events [pageOf (0x9040 + 0x20 * 7)]]
  | .mbxTx _ n _ => only [.ev, .fab] [fabricErrorRegs, replyRegs n.val]
  | .mbxRx _ n => only [.ev, .fab] [fabricErrorRegs, replyRegs n.val]
  | .mbxTimeout n => only [.ev, .fab, .time] [one (F.MBX_STAT_timeout n.val), events [0x09]]
  | .mbxHostReset _ => only [.ev, .fab] [fabricErrorRegs, replyRegs 3, any1 F.MBX_STAT_discard_cnt, any1 F.MBX_STAT_discarded]
  | .pulseSat _ p _ => only [.ev, .fab] [any1 F.CNT_SEL_sat, one F.XS_PULSE_SAT_HI_bits, one F.XS_PULSE_SAT_LO_bits, events [0xF8, p.val]]
  | .fifoResync a b pa pb _ =>
    only [.ev] [resyncRegs pa.val pa.val, any fun (a : Nat) => any fun (b : Nat) => one (F.PORT_CNT_count a b 5), events [pb.val]]
  | .vecEoi _ _ => only [.ev] [fabricErrorRegs, events [0x01]]
  | .msixPendingSend _ => only [.ev] []
  | .vaonPowerOn => only [.dev, .time] []
  | .vaonLoss => device
  | .xtalLock => only [] [one F.DEV_STATUS_aon_xtal_lock, one F.HMP_STAT_aon_xtal_lock]
  | .porstAssert => device
  | .porstRelease => device
  | .bcrWaitUs => device
  | .avsFail => only [.ev] [errorRegs 0x00, one F.DEV_AVS_avs_busy, one F.DEV_AVS_avs_fail]
  | .devReset _ _ => device
  | .enclaveWatchdogExpiry => device
  | .wakeNWake => device
  | .spiAccessWake => device
  | .modeReqDormant _ _ => device
  | .modeReqSafe _ _ => device
  | .modeReqStandby _ _ => device
  | .modeReqService _ _ => device
  | .modeReqMaintenance _ _ => device
  | .modeReqNotAllowed _ _ _ => device
  | .standbyEntryDone =>
    only [.dev, .ev] [one F.DEV_MODE_mode, one F.DEV_MODE_mode_prev, one F.DEV_MODE_req_result, one F.DEV_MODE_transition, events [0x00]]
  | .maintEntryDone =>
    only [.dev, .ev] [one F.DEV_MODE_mode, one F.DEV_MODE_mode_prev, one F.DEV_MODE_req_result, one F.DEV_MODE_transition, events [0x00]]
  | .engineStartStep le _ _ _ =>
    only [.drawn, .ev, .rep, .fec ((1 - le.val) != 0), .fec (le.val != 0), .glf ((1 - le.val) != 0), .glf (le.val != 0),
      .p2mp ((1 - le.val) != 0), .p2mp (le.val != 0), .rx ((1 - le.val) != 0), .rx (le.val != 0), .tx ((1 - le.val) != 0),
      .tx (le.val != 0)] [engineDownRegs (1 - le.val), engineDownRegs le.val, engineStoppedRegs le.val, errorRegs (lep le.val 0x10),
      decoderRegs le.val, any fun (c : Nat) => any fun (d : Nat) => any fun (e : Nat) => one (trimField le.val false c d e 0),
      any fun (c : Nat) => any fun (d : Nat) => any fun (e : Nat) => one (trimField le.val false c d e 1),
      any fun (c : Nat) => any fun (d : Nat) => any fun (e : Nat) => one (trimField le.val false c d e 2),
      any fun (c : Nat) => any fun (d : Nat) => any fun (e : Nat) => one (trimField le.val true c d e 0),
      any fun (c : Nat) => any fun (d : Nat) => any fun (e : Nat) => one (trimField le.val true c d e 1),
      any fun (c : Nat) => any fun (d : Nat) => any fun (e : Nat) => one (trimField le.val true c d e 2),
      one (F.CAL_ENG_STAT_learned le.val), one (F.LE_FEC_TILE_MAP_map le.val), one (F.LE_FEC_TILE_SPARE_spare_a le.val),
      one (F.LE_FEC_TILE_SPARE_spare_b le.val), any1 (F.LE_FEC_TILE_STAT_marks le.val), any1 (F.LE_FEC_TILE_STAT_state le.val),
      one (F.LE_P2MP_APPLY_PN_period le.val), one (F.LE_ROLE_STAT_start_step le.val), one (F.LE_RX_CD_RANGE_dmax le.val),
      one (F.LE_RX_PLAN_STAT_baud_active le.val), one (F.LE_RX_PLAN_STAT_entropy_active le.val),
      one (F.LE_RX_PLAN_STAT_modulation_active le.val), one (F.LE_RX_STATE_los_raw le.val)]
  | .engineStopComplete le => only [.ev, .rep, .tx (le.val != 0)] [engineStoppedRegs le.val]
  | .reloadDone le _ =>
    only [.drawn, .ev, .rep, .fec ((1 - le.val) != 0), .fec (le.val != 0), .glf ((1 - le.val) != 0), .glf (le.val != 0),
      .p2mp ((1 - le.val) != 0), .p2mp (le.val != 0), .rx ((1 - le.val) != 0), .rx (le.val != 0), .tx ((1 - le.val) != 0),
      .tx (le.val != 0)] [engineDownRegs (1 - le.val), engineDownRegs le.val, engineStoppedRegs le.val, errorRegs (lep le.val 0x10),
      one (F.LE_ROLE_STAT_start_step le.val)]
  | .timedChangeApply _ => device
  | .maskMeasurement le _ =>
    only [.drawn, .ev, .tx (le.val != 0)] [any1 (F.LE_TX_CLIP_CNT_count le.val), one (F.LE_TX_MASK_STAT_bins_over le.val),
      one (F.LE_TX_MASK_STAT_violation le.val), one (F.LE_TX_MASK_STAT_worst_bin le.val), one (F.LE_TX_MASK_STAT_worst_excess le.val),
      one (F.LE_TX_MASK_VIOL_CNT_count le.val), events [lep le.val 0x15, lep le.val 0x16], levels [lep le.val 0x15, lep le.val 0x16]]
  | .maskUnmute _ le _ =>
    only [.ev, .tx (le.val != 0)] [fabricErrorRegs, one (F.LE_TX_MASK_MUTED_muted le.val), one (F.LE_TX_MASK_STAT_muted le.val),
      events [pageOf (((lep le.val 0x15) * 0x1000 + 0x48))]]
  | .losRawSet le _ =>
    only [.ev, .fec (le.val != 0), .glf (le.val != 0), .rx (le.val != 0)] [receiverMoveRegs le.val, one (F.LE_RX_STATE_los_raw le.val)]
  | .signalDetected le =>
    only [.ev, .fec (le.val != 0), .glf (le.val != 0), .rx (le.val != 0)] [receiverMoveRegs le.val, one (F.LE_RX_STATE_acquisitions le.val),
      one (F.LE_RX_STATE_los_raw le.val)]
  | .cdScanEnd le _ =>
    only [.ev, .fec (le.val != 0), .glf (le.val != 0), .rx (le.val != 0)] [receiverMoveRegs le.val, events [lep le.val 0x1B]]
  | .freqOffsetFound le _ =>
    only [.ev, .fec (le.val != 0), .glf (le.val != 0), .rx (le.val != 0)] [receiverMoveRegs le.val, one (F.LE_RX_CR_COMMON_offset le.val)]
  | .freqAcqTimeout le =>
    only [.ev, .fec (le.val != 0), .glf (le.val != 0), .rx (le.val != 0)] [receiverMoveRegs le.val, events [lep le.val 0x1B]]
  | .scAcqTimeout le => only [.ev, .fec (le.val != 0), .glf (le.val != 0), .rx (le.val != 0)] [receiverMoveRegs le.val]
  | .engineLockLoss le => only [.ev, .fec (le.val != 0), .glf (le.val != 0), .rx (le.val != 0)] [receiverMoveRegs le.val]
  | .freqLimitExceeded le =>
    only [.ev, .fec (le.val != 0), .glf (le.val != 0), .rx (le.val != 0)] [receiverMoveRegs le.val, events [lep le.val 0x1B]]
  | .scConverged le _ =>
    only [.drawn, .ev, .rx (le.val != 0)] [one (F.LE_RX_PLAN_STAT_sc_locked le.val), one (F.LE_RX_SC_LOCK_LOST_lost le.val),
      one (F.LE_RX_SC_LOCK_lock le.val)]
  | .scConvergeTimeout le _ =>
    only [.ev, .rx (le.val != 0)] [one (F.LE_RX_PLAN_STAT_sc_locked le.val), one (F.LE_RX_SC_LOCK_LOST_lost le.val), one (F.LE_RX_SC_LOCK_lock le.val)]
  | .pilotSyncFound le _ _ =>
    only [.drawn, .ev, .fec (le.val != 0), .glf (le.val != 0), .rx (le.val != 0)] [receiverMoveRegs le.val, one (F.LE_RX_PLAN_STAT_spectral_inv le.val)]
  | .pilotSyncTimeout le _ =>
    only [.ev, .rx (le.val != 0)] [one (F.LE_RX_PLAN_STAT_sc_locked le.val), one (F.LE_RX_SC_LOCK_LOST_lost le.val), one (F.LE_RX_SC_LOCK_lock le.val)]
  | .scLockLost le _ =>
    only [.ev, .fec (le.val != 0), .glf (le.val != 0), .rx (le.val != 0)] [framerSyncRegs le.val, one (F.LE_RX_PLAN_STAT_sc_locked le.val),
      one (F.LE_RX_SC_LOCK_LOST_lost le.val), one (F.LE_RX_SC_LOCK_lock le.val)]
  | .singular le _ => only [.ev, .rx (le.val != 0)] [events [lep le.val 0x1B]]
  | .cycleSlip le _ => only [.ev, .rx (le.val != 0)] [events [lep le.val 0x1B]]
  | .cdTrackStep le _ => only [] [one (F.LE_RX_CD_EST_cd le.val)]
  | .entropyAnn le _ =>
    only [] [one (F.LE_RX_FOLLOW_AT_frame le.val), one (F.LE_RX_FOLLOW_STAT_entropy_announced le.val), one (F.LE_RX_PLAN_STAT_follow_pending le.val)]
  | .followApply le =>
    only [.ev, .inForce, .staged] [decoderRegs le.val, one (F.LE_RX_FOLLOW_STAT_follows_applied le.val),
      one (F.LE_RX_PLAN_STAT_entropy_active le.val), one (F.LE_RX_PLAN_STAT_follow_pending le.val), events [lep le.val 0x18]]
  | .followAlternate le => only [.rx (le.val != 0)] [one (F.LE_RX_PLAN_STAT_entropy_active le.val)]
  | .followGiveUp le => only [.rx (le.val != 0)] [one (F.LE_RX_PLAN_STAT_entropy_active le.val)]
  | .reflCandidate le _ _ =>
    only [.ev] [one (F.LE_RX_REFL_OVF_count le.val), any1 (F.LE_RX_REFL_STAT_delay le.val), any1 (F.LE_RX_REFL_STAT_state le.val),
      one (F.LE_RX_REFL_SUM_residual le.val), one (F.LE_RX_REFL_SUM_slots le.val), events [lep le.val 0x1A]]
  | .reflCandidateEnd le r _ _ =>
    only [.drawn, .ev, .rx (le.val != 0)] [one (F.LE_RX_REFL_LVL_level le.val r.val), one (F.LE_RX_REFL_LVL_suppression le.val r.val),
      one (F.LE_RX_REFL_STAT_delay le.val r.val), one (F.LE_RX_REFL_STAT_state le.val r.val), one (F.LE_RX_REFL_SUM_residual le.val),
      one (F.LE_RX_REFL_SUM_slots le.val), events [lep le.val 0x1A]]
  | .reflLost le r =>
    only [.ev, .rx (le.val != 0)] [one (F.LE_RX_REFL_STAT_delay le.val r.val), one (F.LE_RX_REFL_STAT_state le.val r.val),
      one (F.LE_RX_REFL_SUM_residual le.val), one (F.LE_RX_REFL_SUM_slots le.val), events [lep le.val 0x1A]]
  | .reflDelayMove le r _ => only [.rx (le.val != 0)] [one (F.LE_RX_REFL_STAT_delay le.val r.val)]
  | .qualInterval le _ =>
    only [.drawn, .ev, .fec (le.val != 0), .glf (le.val != 0), .p2mp (le.val != 0), .rx (le.val != 0)] [framerSyncRegs le.val, qualRegs le.val,
      one (F.LE_FEC_QENG_deg_raw le.val), one (F.LE_FEC_QENG_exc_raw le.val), one (F.LE_FEC_QENG_q_eng le.val),
      any1 (F.LE_RX_ADC_OVR_count le.val), one (F.LE_RX_CR_COMMON_offset le.val), one (F.LE_RX_IQ_EST_X_gain le.val),
      one (F.LE_RX_IQ_EST_X_phase le.val), one (F.LE_RX_IQ_EST_Y_gain le.val), one (F.LE_RX_IQ_EST_Y_phase le.val),
      any1 (F.LE_RX_LANE_SKEW_EST_skew le.val), one (F.LE_RX_LQ_MIN_index le.val), one (F.LE_RX_LQ_MIN_lq le.val),
      one (F.LE_RX_PLAN_STAT_sc_locked le.val), one (F.LE_RX_QUAL_SEQ_seq le.val), one (F.LE_RX_QUAL_T0_HI_t le.val),
      one (F.LE_RX_QUAL_T0_LO_t le.val), any1 (F.LE_RX_REFL_LVL_level le.val), any1 (F.LE_RX_REFL_LVL_suppression le.val),
      one (F.LE_RX_REFL_SUM_residual le.val), one (F.LE_RX_SC_LOCK_LOST_lost le.val), one (F.LE_RX_SC_LOCK_lock le.val),
      events [lep le.val 0x19, lep le.val 0x1C, lep le.val 0x30], levels [lep le.val 0x19, lep le.val 0x30]]
  | .mapBuild le =>
    only [.cip, .drawn, .ev, .inForce, .time, .glf false, .glf true, .p2mp (le.val != 0)] [any fun i => boundaryRegs i, commitTakenRegs 0xC8,
      cipherLoadRegs, one (F.LE_P2MP_CNT_count le.val 9)]
  | .mapSegment le _ _ _ =>
    only [.cip, .drawn, .ev, .inForce, .glf false, .glf true, .p2mp (le.val != 0), .tx (le.val != 0)] [any fun i => boundaryRegs i,
      commitTakenRegs 0xC8, cipherLoadRegs, one (F.LE_P2MP_LEAF_CNT_count le.val 1), one (F.LE_P2MP_LEAF_RO_ro le.val),
      one (F.LE_P2MP_LEAF_STAT_leaf_id le.val), one (F.LE_P2MP_LEAF_STAT_state le.val), one (F.LE_TX_ENV_STAT_above le.val)]
  | .assign le _ _ _ _ =>
    only [.drawn, .ev, .p2mp (le.val != 0), .tx (le.val != 0)] [one (F.LE_P2MP_LEAF_CNT_count le.val 1), one (F.LE_P2MP_LEAF_RO_ro le.val),
      one (F.LE_P2MP_LEAF_STAT_home le.val), one (F.LE_P2MP_LEAF_STAT_leaf_id le.val), one (F.LE_P2MP_LEAF_STAT_state le.val),
      one (F.LE_TX_ENV_STAT_above le.val), events [lep le.val 0x22]]
  | .rangeAdj le _ _ _ _ _ =>
    only [.cip, .drawn, .ev, .glf false, .glf true, .p2mp (le.val != 0), .tx (le.val != 0)] [any fun i => boundaryRegs i,
      any1 F.CIP_SA_VOID_count, one (F.LE_P2MP_LEAF_CNT_count le.val 2), one (F.LE_P2MP_LEAF_RO_ro le.val),
      one (F.LE_P2MP_LEAF_STAT_state le.val), one (F.LE_TX_ENV_STAT_above le.val), events [lep le.val 0x22]]
  | .powerAdj le _ _ _ _ =>
    only [.cip, .drawn, .ev, .glf false, .glf true] [any fun i => boundaryRegs i, any1 F.CIP_SA_VOID_count,
      one (F.LE_P2MP_LEAF_CNT_count le.val 2), one (F.LE_P2MP_LEAF_GAIN_gain le.val), events [lep le.val 0x22]]
  | .quiesce le _ _ _ =>
    only [.cip, .drawn, .ev, .glf false, .glf true, .p2mp (le.val != 0), .tx (le.val != 0)] [any fun i => boundaryRegs i,
      any1 F.CIP_SA_VOID_count, one (F.LE_P2MP_LEAF_CNT_count le.val 2), one (F.LE_P2MP_LEAF_STAT_state le.val),
      one (F.LE_TX_ENV_STAT_above le.val), events [lep le.val 0x22]]
  | .release le _ _ _ =>
    only [.cip, .drawn, .ev, .glf false, .glf true, .p2mp (le.val != 0), .tx (le.val != 0)] [any fun i => boundaryRegs i,
      any1 F.CIP_SA_VOID_count, one (F.LE_P2MP_LEAF_CNT_count le.val 2), one (F.LE_P2MP_LEAF_STAT_state le.val),
      one (F.LE_TX_ENV_STAT_above le.val), events [lep le.val 0x22]]
  | .deregister le _ _ _ =>
    only [.cip, .drawn, .ev, .glf false, .glf true, .p2mp (le.val != 0), .tx (le.val != 0)] [any fun i => boundaryRegs i,
      any1 F.CIP_SA_VOID_count, one (F.LE_P2MP_LEAF_CNT_count le.val 2), one (F.LE_P2MP_LEAF_STAT_leaf_id le.val),
      one (F.LE_P2MP_LEAF_STAT_state le.val), one (F.LE_TX_ENV_STAT_above le.val), events [lep le.val 0x22]]
  | .lmsgGo _ le =>
    only [.ev, .p2mp (le.val != 0)] [fabricErrorRegs, any2 (F.LE_P2MP_LEAF_ST_ro_active le.val), any2 (F.LE_P2MP_LEAF_ST_state le.val),
      one (F.LE_P2MP_LMSG_STAT_overrun le.val), one (F.LE_P2MP_LMSG_STAT_queued le.val), events [lep le.val 0x20,
      pageOf (lep le.val 0x21 * 0x1000 + 0x90)], levels [lep le.val 0x20]]
  | .leafMsgRepeat le _ => only [.ev, .time, .p2mp (le.val != 0)] [one (F.LE_P2MP_LMSG_STAT_queued le.val), events [lep le.val 0x20]]
  | .burstTransmit le _ =>
    only [.cip, .ev, .time, .glf (le.val != 0), .p2mp (le.val != 0), .tx (le.val != 0)] [one (F.LE_P2MP_LEAF_CNT_count le.val 0),
      one (F.LE_TX_ENV_MERGE_CNT_count le.val), events [lep le.val 0x17]]
  | .discoveryBurst le _ =>
    only [.drawn, .ev, .time, .p2mp (le.val != 0), .tx (le.val != 0)] [one (F.LE_P2MP_LEAF_CNT_count le.val 3),
      one (F.LE_TX_ENV_MERGE_CNT_count le.val), events [lep le.val 0x17]]
  | .discoveryWaitExpiry le => only [.drawn, .time, .p2mp (le.val != 0)] []
  | .selfGuardTrip le =>
    only [.drawn, .ev, .p2mp (le.val != 0), .tx (le.val != 0)] [one (F.LE_P2MP_LEAF_STAT_state le.val), one (F.LE_TX_ENV_STAT_above le.val),
      events [lep le.val 0x22]]
  | .segmentLossDark le => only [.time, .p2mp (le.val != 0), .tx (le.val != 0)] [one (F.LE_TX_ENV_STAT_above le.val)]
  | .mapLost le =>
    only [.drawn, .ev, .time, .p2mp (le.val != 0), .tx (le.val != 0)] [one (F.LE_P2MP_LEAF_STAT_state le.val),
      one (F.LE_TX_ENV_STAT_above le.val), events [lep le.val 0x22]]
  | .leafIdExpire le => only [.time] [one (F.LE_P2MP_LEAF_RO_ro le.val), one (F.LE_P2MP_LEAF_STAT_leaf_id le.val)]
  | .leafClr _ le =>
    only [.drawn, .ev, .p2mp (le.val != 0), .tx (le.val != 0)] [fabricErrorRegs, one (F.LE_P2MP_LEAF_STAT_state le.val),
      one (F.LE_TX_ENV_STAT_above le.val), events [pageOf (lep le.val 0x22 * 0x1000 + 0x54)]]
  | .preambleDetect _ _ _ _ _ _ =>
    only [.drawn, .ev, .p2mp false, .p2mp true] [any1 F.EVT_STICKY, any1 F.LE_P2MP_BREC_COUNT_count,
      any fun (a : Nat) => one (F.LE_P2MP_CNT_count a 2), any fun (a : Nat) => one (F.LE_P2MP_CNT_count a 3),
      any fun (a : Nat) => one (F.LE_P2MP_CNT_count a 5)]
  | .burstHeaderDecode _ _ _ _ hdr =>
    only [.ev, .p2mp false, .p2mp true] [any1 F.EVT_RAW, any1 F.EVT_STICKY, any fun (a : Nat) => one (F.LE_P2MP_CNT_count a 4),
      any fun (a : Nat) => one (F.LE_P2MP_CNT_count a 6), any fun (a : Nat) => one (F.LE_P2MP_CNT_count a 7),
      any fun (a : Nat) => one (F.LE_P2MP_CNT_count a 8),
      any fun (a : Nat) => one (F.LE_P2MP_LEAF_ST_rogue a ((hdr.toNat / 2 ^ 54) / 256) ((hdr.toNat / 2 ^ 54) % 256)),
      any fun (a : Nat) => one (F.LE_P2MP_LEAF_ST_score a ((hdr.toNat / 2 ^ 54) / 256) ((hdr.toNat / 2 ^ 54) % 256)),
      any fun (a : Nat) => one (F.LE_P2MP_LEAF_ST_state a ((hdr.toNat / 2 ^ 54) / 256) ((hdr.toNat / 2 ^ 54) % 256)),
      any1 F.LE_P2MP_LMSG_STAT_queued]
  | .rogueDecay le i =>
    only [.time, .p2mp (le.val != 0)] [one (F.LE_P2MP_LEAF_ST_rogue le.val (i.val / 256) (i.val % 256)),
      one (F.LE_P2MP_LEAF_ST_score le.val (i.val / 256) (i.val % 256))]
  | .burstRxDone _ _ _ _ _ _ _ _ =>
    only [.drawn, .ev, .p2mp false, .p2mp true] [any1 F.EVT_RAW, any1 F.EVT_STICKY, any1 F.LE_P2MP_BREC_COUNT_count, any2 F.LE_P2MP_CNT_count,
      any3 F.LE_P2MP_LEAF_CD_cd, any3 F.LE_P2MP_LEAF_CD_level_dev, any3 F.LE_P2MP_LEAF_ST_ro_active, any3 F.LE_P2MP_LEAF_ST_state,
      any1 F.LE_P2MP_LMSG_STAT_queued]
  | .burstLossDetect le i =>
    only [.ev, .time, .p2mp (le.val != 0)] [one (F.LE_P2MP_LEAF_ST_state le.val (i.val / 256) (i.val % 256)), events [lep le.val 0x20],
      levels [lep le.val 0x20]]
  | .idleMeasure _ _ _ _ _ =>
    only [.ev, .p2mp false, .p2mp true] [any1 F.EVT_STICKY, any1 F.LE_P2MP_IDLE_BAND_band, any1 F.LE_P2MP_IDLE_BAND_sc, any1 F.LE_P2MP_IDLE_BAND_width]
  | .brecPop _ le =>
    only [.ev, .p2mp (le.val != 0)] [fabricErrorRegs, one (F.LE_P2MP_BREC_0_all_decoded le.val), one (F.LE_P2MP_BREC_0_band le.val),
      one (F.LE_P2MP_BREC_0_captured le.val), one (F.LE_P2MP_BREC_0_hdr_valid le.val), one (F.LE_P2MP_BREC_0_leaf_id le.val),
      one (F.LE_P2MP_BREC_0_misaligned le.val), one (F.LE_P2MP_BREC_0_sc le.val), one (F.LE_P2MP_BREC_0_type le.val),
      one (F.LE_P2MP_BREC_0_ungranted le.val), one (F.LE_P2MP_BREC_0_width le.val), one (F.LE_P2MP_BREC_1_arrival le.val),
      one (F.LE_P2MP_BREC_2_evm le.val), one (F.LE_P2MP_BREC_2_power le.val), one (F.LE_P2MP_BREC_3_bits le.val),
      one (F.LE_P2MP_BREC_COUNT_count le.val), events [pageOf (lep le.val 0x21 * 0x1000 + 0x40)]]
  | .fecBlockDecode le _ _ _ =>
    only [.drawn, .ev, .rep, .fec ((1 - le.val) != 0), .fec (le.val != 0), .glf ((1 - le.val) != 0), .glf (le.val != 0),
      .p2mp ((1 - le.val) != 0), .p2mp (le.val != 0), .rx ((1 - le.val) != 0), .rx (le.val != 0), .tx ((1 - le.val) != 0),
      .tx (le.val != 0)] [engineDownRegs (1 - le.val), engineDownRegs le.val, engineStoppedRegs le.val, errorRegs (lep le.val 0x10),
      decoderRegs le.val, one (F.LE_FEC_AMBIG_CNT_count le.val), one (F.LE_FEC_CNT_HI_hi le.val 0), one (F.LE_FEC_CNT_HI_hi le.val 1),
      one (F.LE_FEC_CNT_HI_hi le.val 2), one (F.LE_FEC_CNT_HI_hi le.val 3), one (F.LE_FEC_CNT_HI_hi le.val 4),
      one (F.LE_FEC_CNT_HI_hi le.val 5), one (F.LE_FEC_CNT_LO_lo le.val 0), one (F.LE_FEC_CNT_LO_lo le.val 1),
      one (F.LE_FEC_CNT_LO_lo le.val 2), one (F.LE_FEC_CNT_LO_lo le.val 3), one (F.LE_FEC_CNT_LO_lo le.val 4),
      one (F.LE_FEC_CNT_LO_lo le.val 5), one (F.LE_FEC_TILE_MAP_map le.val), any1 (F.LE_FEC_TILE_STAT_marks le.val),
      any1 (F.LE_FEC_TILE_STAT_state le.val), one (F.LE_ROLE_STAT_start_step le.val)]
  | .cwCandidateFound le _ => only [.ev, .fec (le.val != 0), .glf (le.val != 0), .rx (le.val != 0)] [framerSyncRegs le.val]
  | .tileSwap le _ =>
    only [.ev, .fec (le.val != 0)] [decoderRegs le.val, one (F.LE_FEC_REDEC_CNT_count le.val), one (F.LE_FEC_TILE_MAP_map le.val),
      one (F.LE_FEC_TILE_SPARE_spare_a le.val), one (F.LE_FEC_TILE_SPARE_spare_b le.val), any1 (F.LE_FEC_TILE_STAT_marks le.val),
      any1 (F.LE_FEC_TILE_STAT_state le.val)]
  | .fecEncode le _ _ => only [.ev, .fec (le.val != 0), .tx (le.val != 0)] [events [lep le.val 0x30]]
  | .glfFrameTx le =>
    only [.cip, .drawn, .ev, .inForce, .rep, .glf false, .glf true, .p2mp (le.val != 0), .tx (le.val != 0)] [any fun i => boundaryRegs i,
      commitTakenRegs 0xC8, cipherLoadRegs, one (F.CIP_CNT_count 0), one (F.CIP_CNT_count 4), any1 F.CIP_CORE_STAT_mismatches,
      any1 F.CIP_CORE_STAT_suspect, one (F.LE_GLF_TX_FC_fc le.val), one (F.LE_P2MP_LMSG_STAT_queued le.val),
      one (F.LE_TX_MASK_MUTED_muted le.val), one (F.LE_TX_MASK_STAT_muted le.val)]
  | .glfHeaderRx le k _ _ _ _ =>
    only [.cip, .drawn, .ev, .inForce, .rep, .staged, .glf false, .glf true, .p2mp (le.val != 0), .rx (le.val != 0),
      .tx (le.val != 0)] [commitTakenRegs 0xC8, cipherLoadRegs, any fun i => associationRegs i, any1 F.CIP_SA_ST_block_reason,
      any1 F.CIP_SA_ST_state, any1 F.CIP_SA_ST_warn, one (F.LE_GLF_CNT_count le.val 0), one (F.LE_GLF_CNT_count le.val 1),
      one (F.LE_GLF_CNT_count le.val 10), one (F.LE_GLF_CNT_count le.val 2), one (F.LE_GLF_CNT_count le.val 3),
      one (F.LE_GLF_CNT_count le.val 4), one (F.LE_GLF_RX_FC_fc le.val), one (F.LE_GLF_RX_ID_bundle_id le.val k.val),
      one (F.LE_GLF_RX_ID_member_id le.val k.val), one (F.LE_GLF_STAT_ais le.val), one (F.LE_GLF_STAT_bdi le.val),
      one (F.LE_GLF_STAT_candidates le.val), one (F.LE_GLF_STAT_frame_state le.val), one (F.LE_GLF_STAT_mf_state le.val),
      one (F.LE_GLF_STAT_ql le.val), one (F.LE_P2MP_LEAF_RO_ro le.val), one (F.LE_P2MP_LEAF_STAT_leaf_id le.val),
      one (F.LE_P2MP_LEAF_STAT_state le.val), one (F.LE_RX_FOLLOW_STAT_follows_applied le.val),
      one (F.LE_RX_FOLLOW_STAT_follows_lost le.val), one (F.LE_RX_PLAN_STAT_entropy_active le.val),
      one (F.LE_RX_PLAN_STAT_follow_pending le.val), one (F.LE_TX_ENV_STAT_above le.val)]
  | .slotMap le _ _ => only [.ev] [one (F.LE_GLF_CNT_count le.val 9), events [lep le.val 0x34]]
  | .cellRx le _ _ _ =>
    only [.ev, .glf (le.val != 0)] [one (F.LE_GLF_CELL_SYNC_HI_bits le.val), one (F.LE_GLF_CELL_SYNC_LO_bits le.val),
      one (F.LE_GLF_CNT_count le.val 5), one (F.LE_GLF_CNT_count le.val 6), one (F.LE_GLF_CNT_count le.val 7),
      one (F.LE_GLF_CNT_count le.val 8), events [lep le.val 0x34]]
  | .deskewRelease g _ _ _ _ _ =>
    only [.ev, .grp, .lanes] [one (F.MAP_GRP_DD_dd (g.val / 32) (g.val % 32)), one (F.MAP_GRP_DD_late_member (g.val / 32) (g.val % 32)),
      one (F.MAP_GRP_ST_active_set (g.val / 32) (g.val % 32)), one (F.MAP_GRP_ST_sel (g.val / 32) (g.val % 32)),
      one (F.MAP_GRP_ST_sink_state (g.val / 32) (g.val % 32)), one (F.MAP_GRP_SWITCHES_switches (g.val / 32) (g.val % 32)), events [0xAA],
      levels [0xAA]]
  | .defectDeclare _ _ _ =>
    only [.ev, .grp, .lanes, .glf false, .glf true] [any1 F.EVT_RAW, any1 F.EVT_STICKY, any1 F.LE_GLF_DEF_def, any2 F.LE_GLF_VEC_bits]
  | .defectClear _ _ =>
    only [.ev, .lanes, .glf false, .glf true] [any1 F.EVT_RAW, any1 F.EVT_STICKY, any1 F.LE_GLF_DEF_def, any2 F.LE_GLF_VEC_bits]
  | .mspStatus _ =>
    only [.ev, .grp] [any fun (a : Nat) => one (F.LE_GLF_CNT_count a 11), any2 F.MAP_GRP_ST_active_set, any2 F.MAP_GRP_ST_sink_state, events [0xAA]]
  | .propose _ _ => only [.grp, .glf false, .glf true] [any2 F.MAP_GRP_ST_sink_state]
  | .accept _ => only [.grp, .glf false, .glf true] [any2 F.MAP_GRP_ST_msp_state]
  | .reject _ => only [.ev] [any2 F.MAP_GRP_ST_msp_state, one F.MAP_MSP_STAT_group, one F.MAP_MSP_STAT_reason, events [0xAA]]
  | .arm _ =>
    only [.ev, .grp] [any fun (a : Nat) => one (F.LE_GLF_CNT_count a 11), any2 F.MAP_GRP_ST_active_set, any2 F.MAP_GRP_ST_sink_state, events [0xAA]]
  | .reqRemove _ => only [.grp, .inForce, .staged, .glf false, .glf true] [any2 F.MAP_GRP_ST_msp_state]
  | .mspMsgRepeat _ _ => only [.grp, .glf false, .glf true] []
  | .mspProposeTimeout g =>
    only [.drawn, .ev, .time] [one (F.MAP_GRP_ST_msp_state (g.val / 32) (g.val % 32)), one F.MAP_MSP_STAT_group, one F.MAP_MSP_STAT_reason, events [0xAA]]
  | .mspReadyTimeout g => only [.time] [one (F.MAP_GRP_ST_sink_state (g.val / 32) (g.val % 32))]
  | .mspSwitch g =>
    only [.ev, .grp] [one (F.MAP_GRP_ST_active_set (g.val / 32) (g.val % 32)), one (F.MAP_GRP_ST_msp_state (g.val / 32) (g.val % 32)), events [0xAA]]
  | .laneSignalDetect k => only [] [laneStateRegs (k.val / 8) (k.val % 8)]
  | .cdrConverged k _ _ =>
    only [.ev, .lanes] [any fun g => any fun j => laneStateRegs g j, any1 F.EVT_STICKY,
      one (F.HL_LANE_STAT_rx_inverted (k.val / 8) (k.val % 8)), one (F.HL_LANE_STAT_snr (k.val / 8) (k.val % 8)),
      any2 F.PORT_STAT_spare_ready, any2 F.PORT_STAT_state]
  | .cdrTimeout k => only [] [laneStateRegs (k.val / 8) (k.val % 8)]
  | .trainingComplete k _ =>
    only [.ev, .lanes] [any fun g => any fun j => laneStateRegs g j, any1 F.EVT_STICKY, one (F.HL_LANE_TXFFE_ACT_taps (k.val / 8) (k.val % 8)),
      any2 F.PORT_STAT_spare_ready, any2 F.PORT_STAT_state]
  | .trainFail k => only [.ev] [laneStateRegs (k.val / 8) (k.val % 8), events [0x90 + (k.val / 8)]]
  | .laneFault k _ =>
    only [.ev, .lanes] [any fun g => any fun j => laneStateRegs g j, any1 F.EVT_STICKY, one (F.HL_LANE_CNT_count (k.val / 8) (k.val % 8) 2),
      one (F.HL_LANE_CNT_count (k.val / 8) (k.val % 8) 3), any2 F.HL_LANE_STAT_far_lane,
      one (F.HL_LANE_STAT_retrains (k.val / 8) (k.val % 8)), any fun (a : Nat) => any fun (b : Nat) => one (F.PORT_CNT_count a b 11),
      any fun (a : Nat) => any fun (b : Nat) => one (F.PORT_CNT_count a b 5), any2 F.PORT_LANEMAP_map, any2 F.PORT_STAT_flexo_lof,
      any2 F.PORT_STAT_rx_local_fault, any2 F.PORT_STAT_spare_ready, any2 F.PORT_STAT_spare_used, any2 F.PORT_STAT_state,
      any2 F.PORT_STAT_tx_asleep]
  | .capabilityFrame k _ _ _ _ _ _ _ _ =>
    only [.ev, .lanes] [any1 F.EVT_STICKY, one (F.HL_LANE_STAT_far_lane (k.val / 8) (k.val % 8)),
      one (F.HL_LANE_STAT_rx_inverted (k.val / 8) (k.val % 8)), any2 F.PORT_LANEMAP_map, any2 F.PORT_PARTNER_port, any2 F.PORT_PARTNER_tag,
      any2 F.PORT_STAT_exch_result, any2 F.PORT_STAT_slm_active, any2 F.PORT_STAT_state]
  | .exchangeWindowExpiry p =>
    only [.ev, .lanes] [one (F.PORT_CNT_count (p.val / 8) (p.val % 8) 12), one (F.PORT_PARTNER_port (p.val / 8) (p.val % 8)),
      one (F.PORT_PARTNER_tag (p.val / 8) (p.val % 8)), one (F.PORT_STAT_exch_result (p.val / 8) (p.val % 8)),
      one (F.PORT_STAT_slm_active (p.val / 8) (p.val % 8)), one (F.PORT_STAT_state (p.val / 8) (p.val % 8)), events [0xA0 + p.val / 8]]
  | .portAligned p _ =>
    only [.ev, .lanes] [any fun g => any fun j => laneStateRegs g j, any2 F.HL_LANE_STAT_far_lane,
      one (F.PORT_LANEMAP_map (p.val / 8) (p.val % 8)), one (F.PORT_STAT_flexo_lof (p.val / 8) (p.val % 8)),
      one (F.PORT_STAT_gid_mismatch (p.val / 8) (p.val % 8)), one (F.PORT_STAT_rx_local_fault (p.val / 8) (p.val % 8)),
      one (F.PORT_STAT_spare_ready (p.val / 8) (p.val % 8)), one (F.PORT_STAT_spare_used (p.val / 8) (p.val % 8)),
      one (F.PORT_STAT_state (p.val / 8) (p.val % 8)), events [0xA0 + p.val / 8]]
  | .alignmentLost p =>
    only [.ev, .lanes] [any fun g => any fun j => laneStateRegs g j, one (F.PORT_CNT_count (p.val / 8) (p.val % 8) 11),
      one (F.PORT_STAT_flexo_lof (p.val / 8) (p.val % 8)), one (F.PORT_STAT_state (p.val / 8) (p.val % 8)), events [0xA0 + p.val / 8]]
  | .spareReq p _ _ => only [.lanes] [one (F.PORT_STAT_tx_asleep (p.val / 8) (p.val % 8))]
  | .spareAck _ _ _ => only [.lanes] []
  | .spareReqRepeat p => only [.lanes] [one (F.PORT_STAT_tx_asleep (p.val / 8) (p.val % 8))]
  | .spareSwitch p _ =>
    only [.ev, .lanes] [any fun g => any fun j => laneStateRegs g j, any1 F.EVT_STICKY, any2 F.HL_LANE_STAT_far_lane,
      one (F.PORT_CNT_count (p.val / 8) (p.val % 8) 5), one (F.PORT_LANEMAP_map (p.val / 8) (p.val % 8)),
      one (F.PORT_STAT_spare_ready (p.val / 8) (p.val % 8)), one (F.PORT_STAT_spare_used (p.val / 8) (p.val % 8)),
      one (F.PORT_STAT_state (p.val / 8) (p.val % 8))]
  | .sleep p => only [] [one (F.PORT_STAT_rx_asleep (p.val / 8) (p.val % 8))]
  | .wake p => only [] [one (F.PORT_STAT_rx_asleep (p.val / 8) (p.val % 8))]
  | .sleepEntry p => only [.lanes] [one (F.PORT_CNT_count (p.val / 8) (p.val % 8) 6), one (F.PORT_STAT_tx_asleep (p.val / 8) (p.val % 8))]
  | .ingressFrame p _ _ _ =>
    only [.ev, .smp] [one (F.CLS_PORT_CNT_count (p.val / 8) (p.val % 8) 11),
      any fun (a : Nat) => any fun (b : Nat) => one (F.HL_LANE_CNT_count a b 0), any1 (F.PORT_CNT_count (p.val / 8) (p.val % 8)),
      any2 F.PORT_STAT_gid_mismatch, any2 F.PORT_STAT_rx_local_fault, any2 F.PORT_STAT_rx_remote_fault, events [0xA0 + p.val / 8, 0xB0]]
  | .egressFrame p _ _ _ _ =>
    only [.ev, .lanes, .smp] [one (F.PORT_CNT_count (p.val / 8) (p.val % 8) 10), one (F.PORT_CNT_count (p.val / 8) (p.val % 8) 7),
      one (F.PORT_CNT_count (p.val / 8) (p.val % 8) 8), one (F.PORT_STAT_tx_asleep (p.val / 8) (p.val % 8))]
  | .esmcPduRx p _ =>
    only [.ev, .syn] [qualityRegs, one F.ESMC_BAD_count, one (F.PORT_CNT_count (p.val / 8) (p.val % 8) 9), one (F.SYN_ESMC_rx_failed p.val),
      one (F.SYN_ESMC_rx_ql p.val)]
  | .esmcInfoTx => only [.syn, .time] [any1 F.SYN_ESMC_tx_ql]
  | .esmcQlTimeout p => only [.ev, .syn, .time] [qualityRegs, one (F.SYN_ESMC_rx_failed p.val)]
  | .firstPass p _ _ _ _ _ _ =>
    only [.cls, .clsMem, .ev] [errorRegs 0xB0, one F.CLS_BANK_DRAIN_count, one (F.CLS_CNT_count 0), one (F.CLS_CNT_count 1),
      any1 F.CLS_PIPE_STAT_mismatches, any1 F.CLS_PIPE_STAT_suspect, any1 (F.CLS_PORT_CNT_count (p.val / 8) (p.val % 8)),
      any fun (a : Nat) => any fun (b : Nat) => one (F.CLS_PORT_CNT_count a b 6), one F.CLS_RECIRC_LEVEL_recirc,
      one F.CLS_RECIRC_LEVEL_reorder]
  | .secondPass _ _ _ _ _ =>
    only [.cls, .clsMem, .ev] [errorRegs 0xB0, one F.CLS_BANK_DRAIN_count, one (F.CLS_CNT_count 0), one (F.CLS_CNT_count 1),
      any1 F.CLS_PIPE_STAT_mismatches, any1 F.CLS_PIPE_STAT_suspect, any3 F.CLS_PORT_CNT_count, one F.CLS_RECIRC_LEVEL_recirc,
      one F.CLS_RECIRC_LEVEL_reorder]
  | .recircTimeout _ =>
    only [.cls, .ev, .time] [one F.CLS_BANK_DRAIN_count, any fun (a : Nat) => any fun (b : Nat) => one (F.CLS_PORT_CNT_count a b 7),
      one F.CLS_RECIRC_LEVEL_recirc, one F.CLS_RECIRC_LEVEL_reorder, events [0xB0]]
  | .packetRelease _ =>
    only [.cls, .ev, .glf false, .glf true] [one F.CLS_BANK_DRAIN_count,
      any fun (a : Nat) => any fun (b : Nat) => one (F.CLS_PORT_CNT_count a b 8),
      any fun (a : Nat) => any fun (b : Nat) => one (F.CLS_PORT_CNT_count a b 9), one F.CLS_RECIRC_LEVEL_recirc,
      one F.CLS_RECIRC_LEVEL_reorder]
  | .bankDrainDone =>
    only [.ev] [any fun (a : Nat) => one (bankSt a), one F.CLS_BANK_DRAIN_count, one F.CLS_RECIRC_LEVEL_recirc, one F.CLS_RECIRC_LEVEL_reorder,
      events [0xB0]]
  | .clsBankCopy _ => only [.ev] [fabricErrorRegs, errorRegs 0xB0, any fun (a : Nat) => one (bankSt a)]
  | .copyDone _ =>
    only [.clsMem, .ev] [any fun (a : Nat) => one (bankSt a), any1 F.CLS_BANK_BAD_bad, any1 F.CLS_BANK_FIRST_BAD_offset, events [0xB0]]
  | .clsWinWrite _ b off _ =>
    only [.clsMem, .ev] [fabricErrorRegs, one (F.CLS_BANK_BAD_bad ((((b.val + 1) * 2 ^ 24 + off.toNat)) / 2 ^ 24 - 1)),
      one (F.CLS_BANK_FIRST_BAD_offset ((((b.val + 1) * 2 ^ 24 + off.toNat)) / 2 ^ 24 - 1)), one (F.CLS_CNT_count 2), events [0xB0,
      pageOf (((b.val + 1) * 2 ^ 24 + off.toNat))]]
  | .pipeTestStart p => only [] [one (F.CLS_PIPE_STAT_state p.val), one F.CLS_STAT_pipes_active]
  | .pipeTestDone p _ =>
    only [.ev] [one (F.CLS_PIPE_STAT_state p.val), one (F.CLS_PIPE_STAT_suspect p.val), one F.CLS_STAT_pipes_active, events [0xB0]]
  | .bufMemRead _ _ _ =>
    only [.buf, .bufMem, .ev, .grp] [pageTestRegs, one (F.BUF_CNT_count 0), one (F.BUF_CNT_count 1), one (F.BUF_CNT_count 2),
      one (F.BUF_CNT_count 3), any1 F.BUF_PC_CE_count, any1 F.BUF_PC_UE_count]
  | .bufMemWrite _ _ _ _ =>
    only [.buf, .bufMem, .ev] [one (F.BUF_CNT_count 4), one (F.BUF_CNT_count 5), one (F.BUF_CNT_count 6), one F.BUF_LOG_CTRL_ovf,
      one F.BUF_LOG_CTRL_queued, events [0xC2]]
  | .scrubRead _ _ =>
    only [.buf, .bufMem, .ev] [pageTestRegs, one (F.BUF_CNT_count 0), one (F.BUF_CNT_count 1), one (F.BUF_CNT_count 2), one (F.BUF_CNT_count 3),
      any1 F.BUF_PC_CE_count, any1 F.BUF_PC_UE_count, one F.BUF_SCRUB_PASSES_passes, one F.BUF_SCRUB_STAT_addr, one F.BUF_SCRUB_STAT_late,
      events [0xC4]]
  | .hardClr _ => only [.buf, .ev] [fabricErrorRegs, events [0xC1]]
  | .injGo _ => only [.buf, .ev] [fabricErrorRegs, errorRegs 0xC1, one F.BUF_INJ_CTRL_busy]
  | .injDone =>
    only [.buf, .bufMem, .ev] [pageTestRegs, one (F.BUF_CNT_count 0), one (F.BUF_CNT_count 1), one (F.BUF_CNT_count 2), one (F.BUF_CNT_count 3),
      one F.BUF_INJ_CTRL_busy, any1 F.BUF_PC_CE_count, any1 F.BUF_PC_UE_count]
  | .bufLogPop _ =>
    only [.buf, .ev] [fabricErrorRegs, one F.BUF_LOG_CTRL_queued, one (F.BUF_LOG_bits 0), one (F.BUF_LOG_bits 1), one (F.BUF_LOG_bits 2),
      one (F.BUF_LOG_bits 3), events [0xC2]]
  | .retireGo _ =>
    only [.buf, .ev] [fabricErrorRegs, poolRegs, one F.BUF_RETIRE_STAT_page, one F.BUF_RETIRE_STAT_result, one F.BUF_RETIRE_STAT_state, events [0xC3]]
  | .restoreGo _ =>
    only [.buf, .ev] [fabricErrorRegs, poolRegs, one F.BUF_RETIRE_STAT_page, one F.BUF_RETIRE_STAT_result, one F.BUF_RETIRE_STAT_state, events [0xC3]]
  | .marchTestDone _ => only [.buf, .ev] [one F.BUF_RETIRE_STAT_result, one F.BUF_RETIRE_STAT_state, events [0xC3]]
  | .retireCopyDone =>
    only [.buf, .bufMem, .ev] [pageTestRegs, one (F.BUF_CNT_count 0), one (F.BUF_CNT_count 1), one (F.BUF_CNT_count 2), one (F.BUF_CNT_count 3),
      any1 F.BUF_PC_CE_count, any1 F.BUF_PC_UE_count, one F.BUF_RETIRE_STAT_state]
  | .retireSwitch =>
    only [.buf, .ev] [poolRegs, one F.BUF_LOG_CTRL_ovf, one F.BUF_LOG_CTRL_queued, one F.BUF_RETIRE_STAT_result, one F.BUF_RETIRE_STAT_state,
      events [0xC2, 0xC3]]
  | .rowrepGo _ =>
    only [.buf, .ev] [fabricErrorRegs, one F.BUF_ROWREP_STAT_bank_spares, one F.BUF_ROWREP_STAT_device_spares, one F.BUF_ROWREP_STAT_result,
      one F.BUF_ROWREP_STAT_state, events [0xC3]]
  | .rowrepStep => only [.buf] [one F.BUF_ROWREP_STAT_state]
  | .rowrepTestDone _ =>
    only [.buf, .ev] [poolRegs, one F.BUF_LOG_CTRL_ovf, one F.BUF_LOG_CTRL_queued, one F.BUF_ROWREP_STAT_bank_spares,
      one F.BUF_ROWREP_STAT_device_spares, one F.BUF_ROWREP_STAT_result, one F.BUF_ROWREP_STAT_state, events [0xC2, 0xC3]]
  | .hostWinRead _ _ =>
    only [.buf, .bufMem, .ev, .fab] [fabricErrorRegs, pageTestRegs, one (F.BUF_CNT_count 0), one (F.BUF_CNT_count 1), one (F.BUF_CNT_count 2),
      one (F.BUF_CNT_count 3), any1 F.BUF_PC_CE_count, any1 F.BUF_PC_UE_count, one F.BUF_WIN_STAT_result]
  | .hostWinWrite _ off _ =>
    only [.buf, .bufMem, .ev] [fabricErrorRegs, one (F.BUF_CNT_count 4), one (F.BUF_CNT_count 5), one (F.BUF_CNT_count 6),
      one F.BUF_LOG_CTRL_ovf, one F.BUF_LOG_CTRL_queued, events [0xC2, pageOf (0x300000 + off.val)]]
  | .dataTxUnit i _ _ _ _ _ =>
    only [.cip, .drawn, .ev, .glf false, .glf true] [boundaryRegs i.val, one (F.CIP_CNT_count 0), one (F.CIP_CNT_count 4),
      any1 F.CIP_CORE_STAT_mismatches, any1 F.CIP_CORE_STAT_suspect]
  | .dataRxUnit i _ _ _ _ _ _ _ =>
    only [.cip, .drawn, .ev, .glf false, .glf true] [boundaryRegs i.val, one (F.CIP_CNT_count 0), one (F.CIP_CNT_count 4),
      any1 F.CIP_CORE_STAT_mismatches, any1 F.CIP_CORE_STAT_suspect, one (F.CIP_SA_ST_void_rx i.val), one (F.CIP_SA_TAGFAIL_count i.val),
      one (F.CIP_SA_VOID_count i.val)]
  | .keyLoad _ _ => only [.cip, .ev, .fab] [fabricErrorRegs, replyRegs 3, any fun i => associationRegs i, one (F.CIP_CNT_count 8)]
  | .keyErase _ _ => only [.cip, .ev, .fab] [fabricErrorRegs, replyRegs 3, one (F.CIP_CNT_count 8)]
  | .keyActivate _ _ => only [.cip, .ev, .fab] [fabricErrorRegs, replyRegs 3, any fun i => associationRegs i, one (F.CIP_CNT_count 8)]
  | .kxStart _ _ _ =>
    only [.cip, .drawn, .ev, .glf false, .glf true] [fabricErrorRegs, errorRegs 0xC9, any1 F.CIP_KX_STAT_result, any1 F.CIP_KX_STAT_role,
      any1 F.CIP_KX_STAT_rx, any1 F.CIP_KX_STAT_state, any1 F.CIP_KX_STAT_tx]
  | .kxCert _ _ => only [.cip] []
  | .kxInit _ _ =>
    only [.cip, .drawn, .ev, .glf false, .glf true] [any fun j => exchangeEndRegs j, one (F.CIP_CNT_count 7), any1 F.CIP_KX_STAT_role,
      any1 F.CIP_KX_STAT_rx, any1 F.CIP_KX_STAT_tx]
  | .kxResp _ _ =>
    only [.cip, .drawn, .glf false, .glf true] [any fun i => associationRegs i, one (F.CIP_CNT_count 7), any1 F.CIP_KX_STAT_state]
  | .kxConfirm _ _ =>
    only [.cip, .ev, .glf false, .glf true] [any fun i => associationRegs i, any fun j => exchangeEndRegs j, one (F.CIP_CNT_count 7)]
  | .kxAck _ _ =>
    only [.cip, .ev, .glf false, .glf true] [any fun i => associationRegs i, any fun j => exchangeEndRegs j, one (F.CIP_CNT_count 7)]
  | .kxSwitch _ _ => only [.cip] [any fun i => associationRegs i, one (F.CIP_CNT_count 7)]
  | .kxAbort _ _ => only [.cip, .ev] [any fun j => exchangeEndRegs j]
  | .kxRepeat _ => only [.cip, .time, .glf false, .glf true] []
  | .kxTimeout j => only [.cip, .ev, .time] [exchangeEndRegs j.val]
  | .coreTestStart c _ =>
    only [.cip, .ev, .time] [cipherLoadRegs, one (F.CIP_CNT_count 1), one (F.CIP_CNT_count 2), one (F.CIP_CORE_STAT_state c.val)]
  | .coreTestDone c _ =>
    only [.ev, .time] [cipherLoadRegs, one (F.CIP_CNT_count 3), one (F.CIP_CORE_STAT_state c.val), one (F.CIP_CORE_STAT_suspect c.val)]
  | .nonceGet _ _ _ => only [.drawn, .enc, .ev, .fab] [fabricErrorRegs, any fun n => replyRegs n, handleRegs]
  | .chgSubmit _ _ _ => device
  | .attest _ _ _ => only [.drawn, .ev, .fab] [fabricErrorRegs, any fun n => replyRegs n, any1 F.ENC_XBUF_bytes]
  | .chgAbort _ _ _ => only [.enc, .ev, .fab] [fabricErrorRegs, any fun n => replyRegs n, handleRegs]
  | .klkPub _ _ _ => only [.drawn, .enc, .ev, .fab] [fabricErrorRegs, any fun n => replyRegs n, any1 F.ENC_XBUF_bytes]
  | .chgExpiry _ => only [.enc, .ev, .time] [handleRegs, events [0xFC]]
  | .debugExpire =>
    only [.dev, .ev, .time] [one F.ENC_DBG_EXPIRE_HI_expire, one F.ENC_DBG_EXPIRE_LO_expire, one F.ENC_STAT_debug_level, events [0xFC]]
  | .overrideEnd le => only [.enc, .ev] [one (F.UBH_STAT_override le.val), events [0xD8 + le.val]]
  | .tamperTrip _ _ =>
    only [.cip, .dev, .drawn, .enc, .ev, .lanes, .fec false, .fec true, .glf false, .glf true, .p2mp false, .p2mp true, .rx false, .rx true,
      .tx false, .tx true] [any fun le => engineDownRegs le, portRegs, any fun i => associationRegs i, any1 F.CIP_KX_STAT_state,
      any1 F.CIP_SA_ST_block_reason, any1 F.CIP_SA_ST_state, any1 F.CIP_SA_ST_warn, one F.DEV_MODE_mode, one F.DEV_MODE_mode_prev,
      one F.DEV_MODE_req_result, one F.DEV_MODE_transition, one F.DEV_STATUS_tamper_latched, one F.DEV_STATUS_zeroise_record,
      one F.ENC_DBG_EXPIRE_HI_expire, one F.ENC_DBG_EXPIRE_LO_expire, one F.ENC_STAT_debug_level, one F.ENC_STAT_klk_valid,
      one F.ENC_STAT_pending, one F.ENC_STAT_zeroised, one F.ENC_ZREC_TIME_HI_time, one F.ENC_ZREC_TIME_LO_time, one F.ENC_ZREC_active,
      one F.ENC_ZREC_causes, one F.ENC_ZREC_count, one F.HMP_SEAL_sealed, one F.HMP_STAT_sealed, one F.TMP_LIGHT_sensors,
      one F.TMP_STAT_latched, one F.TMP_STAT_latched_causes, one F.TMP_STAT_raw]
  | .hello le _ =>
    only [.drawn, .ev, .time, .fec (le.val != 0), .glf (le.val != 0), .p2mp (le.val != 0), .rx (le.val != 0), .tx (le.val != 0),
      .ubh (le.val != 0)] [engineDownRegs le.val, ubholtRegs le.val]
  | .certRead le _ =>
    only [.drawn, .ev, .fec (le.val != 0), .glf (le.val != 0), .p2mp (le.val != 0), .rx (le.val != 0), .tx (le.val != 0),
      .ubh (le.val != 0)] [engineDownRegs le.val, ubholtRegs le.val]
  | .auth le _ =>
    only [.drawn, .ev, .fec (le.val != 0), .glf (le.val != 0), .p2mp (le.val != 0), .rx (le.val != 0), .tx (le.val != 0),
      .ubh (le.val != 0)] [engineDownRegs le.val, ubholtRegs le.val]
  | .txDisable le _ =>
    only [.drawn, .ev, .fec (le.val != 0), .glf (le.val != 0), .p2mp (le.val != 0), .rx (le.val != 0), .tx (le.val != 0),
      .ubh (le.val != 0)] [engineDownRegs le.val, ubholtRegs le.val, one (F.UBH_CNT_count le.val 2)]
  | .txEnable le _ =>
    only [.drawn, .ev, .fec (le.val != 0), .glf (le.val != 0), .p2mp (le.val != 0), .rx (le.val != 0), .tx (le.val != 0),
      .ubh (le.val != 0)] [engineDownRegs le.val, ubholtRegs le.val]
  | .status le _ =>
    only [.drawn, .ev, .time, .fec (le.val != 0), .glf (le.val != 0), .p2mp (le.val != 0), .rx (le.val != 0), .tx (le.val != 0),
      .ubh (le.val != 0)] [engineDownRegs le.val, ubholtRegs le.val]
  | .alertRead le _ =>
    only [.drawn, .ev, .fec (le.val != 0), .glf (le.val != 0), .p2mp (le.val != 0), .rx (le.val != 0), .tx (le.val != 0),
      .ubh (le.val != 0)] [engineDownRegs le.val, ubholtRegs le.val]
  | .lifeRead le _ =>
    only [.drawn, .ev, .time, .fec (le.val != 0), .glf (le.val != 0), .p2mp (le.val != 0), .rx (le.val != 0), .tx (le.val != 0),
      .ubh (le.val != 0)] [engineDownRegs le.val, ubholtRegs le.val]
  | .memRead le _ _ _ =>
    only [.drawn, .ev, .fec (le.val != 0), .glf (le.val != 0), .p2mp (le.val != 0), .rx (le.val != 0), .tx (le.val != 0),
      .ubh (le.val != 0)] [engineDownRegs le.val, ubholtRegs le.val]
  | .memWrite le _ _ _ =>
    only [.drawn, .ev, .fec (le.val != 0), .glf (le.val != 0), .p2mp (le.val != 0), .rx (le.val != 0), .tx (le.val != 0),
      .ubh (le.val != 0)] [engineDownRegs le.val, ubholtRegs le.val]
  | .ubhResend le _ =>
    only [.drawn, .ev, .time, .fec (le.val != 0), .glf (le.val != 0), .p2mp (le.val != 0), .rx (le.val != 0), .tx (le.val != 0),
      .ubh (le.val != 0)] [engineDownRegs le.val, ubholtRegs le.val, one (F.UBH_CNT_count le.val 1), one (F.UBH_CNT_count le.val 2)]
  | .ubhAbsent le =>
    only [.ev, .tx (le.val != 0), .ubh (le.val != 0)] [one (F.LE_TX_ENV_STAT_above le.val), one (F.UBH_CNT_count le.val 4),
      one (F.UBH_PT_STAT_busy le.val), one (F.UBH_PT_STAT_status le.val), one (F.UBH_STAT_auth le.val), one (F.UBH_STAT_link le.val),
      one (F.UBH_STAT_present le.val), one (F.UBH_STAT_tx_enabled le.val), one (F.UBH_STAT_tx_ready le.val), events [0xD8 + le.val]]
  | .ubhAlertFall le => only [.ubh (le.val != 0)] []
  | .ubhHold _ le _ _ =>
    only [.ev, .tx (le.val != 0), .ubh (le.val != 0)] [fabricErrorRegs, one (F.LE_TX_ENV_STAT_above le.val), one (F.UBH_CNT_count le.val 5),
      one (F.UBH_CTRL_hold le.val), one (F.UBH_CTRL_tx_allow le.val), one (F.UBH_PT_STAT_busy le.val), one (F.UBH_PT_STAT_status le.val),
      one (F.UBH_STAT_auth le.val), one (F.UBH_STAT_link le.val), one (F.UBH_STAT_tx_enabled le.val), one (F.UBH_STAT_tx_ready le.val),
      events [0xD8 + le.val, pageOf (0xD8040 + 0x1000 * le.val)]]
  | .ubhPtGo _ le _ _ _ =>
    only [.ev, .ubh (le.val != 0)] [fabricErrorRegs, one (F.UBH_PT_CMD_address le.val), one (F.UBH_PT_CMD_length le.val),
      one (F.UBH_PT_CMD_write le.val), one (F.UBH_PT_STAT_busy le.val), one (F.UBH_PT_STAT_status le.val),
      events [pageOf (0xD8100 + 0x1000 * le.val)]]
  | .inputFault k =>
    only [.ev, .syn] [qualityRegs, one F.SYN_HIST_inputs, one (F.SYN_IN_STAT_state k.val), one (F.SYN_IN_WTR_remaining k.val)]
  | .inputFaultClear k => only [.ev, .syn] [qualityRegs, one (F.SYN_IN_STAT_state k.val), one (F.SYN_IN_WTR_remaining k.val)]
  | .inputQualified k => only [.ev, .syn, .time] [qualityRegs, one (F.SYN_IN_STAT_state k.val), one (F.SYN_IN_WTR_remaining k.val)]
  | .selectionEval _ _ =>
    only [.drawn, .ev, .syn, .time] [qualityRegs, one F.SYN_FREQ_offset, one F.SYN_HIST_freerun, one F.SYN_HIST_holdover,
      one F.SYN_HOLD_ELAPSED_seconds, one F.SYN_HOLD_FREQ_estimate, any1 F.SYN_IN_STAT_offset, one F.SYN_STAT_hold_valid,
      one F.SYN_STAT_oos, one F.SYN_STAT_selected, one F.SYN_STAT_state, one F.SYN_STAT_switching]
  | .dpllLocked => only [.ev, .syn] [qualityRegs, one F.SYN_STAT_state]
  | .holdoverOos => only [.ev, .syn, .time] [qualityRegs, one F.SYN_HIST_oos, one F.SYN_HOLD_ELAPSED_seconds, one F.SYN_STAT_oos]
  | .dpllTestStart =>
    only [.rep, .syn] [one F.REP_STAT_dpll_test_busy, one F.SYN_FREQ_offset, one F.SYN_HIST_self_test, one F.SYN_STAT_state]
  | .dpllTestEnd _ =>
    only [.ev, .syn] [qualityRegs, one F.REP_STAT_dpll_test_busy, one F.SYN_HIST_inputs, any1 F.SYN_IN_STAT_state, any1 F.SYN_IN_WTR_remaining,
      one F.SYN_STAT_state, events [0xF0]]
  | .switchComplete => only [.ev, .syn, .time] [one F.SYN_HIST_switched, one F.SYN_STAT_switching, events [0xD0]]
  | .refDisagree _ _ =>
    only [.ev, .syn] [one F.SYN_DISAGREE_STAT_difference, one F.SYN_DISAGREE_STAT_input_a, one F.SYN_DISAGREE_STAT_input_b,
      one F.SYN_HIST_disagree, events [0xD0], levels [0xD0]]
  | .setAtPps _ _ =>
    only [.ev, .syn] [fabricErrorRegs, errorRegs 0xD3, one F.SYN_TIME_CTRL_adj_rate, one F.SYN_TIME_CTRL_busy, one F.SYN_TIME_CTRL_op]
  | .adjust _ _ =>
    only [.ev, .syn] [fabricErrorRegs, errorRegs 0xD3, one F.SYN_TIME_CTRL_adj_rate, one F.SYN_TIME_CTRL_busy, one F.SYN_TIME_CTRL_op]
  | .adjustComplete => only [.syn, .time] [one F.SYN_TIME_CTRL_busy]
  | .ppsInEdge _ =>
    only [.ev, .syn, .time] [one F.SYN_PPS_IN_TS_HI_time, one F.SYN_PPS_IN_TS_LO_time, one F.SYN_PPS_STAT_e, one F.SYN_PPS_STAT_present,
      one F.SYN_TIME_CTRL_busy, events [0xD0]]
  | .ppsInLoss => only [.ev, .time] [one F.SYN_PPS_STAT_present, events [0xD0]]
  | .ppsOut => only [.ev, .syn, .time] [one F.SYN_TIME_CTRL_busy, events [0xD0]]
  | .refReady =>
    only [.ev, .inForce, .thm, .time] [errorRegs 0xE4, commitTakenRegs 0xE4, one F.THM_STAT_cal_busy, one F.THM_STAT_cal_queued,
      one F.THM_STAT_ref_ready, one F.THM_STAT_seq_busy, one F.THM_STAT_tag, one F.THM_STAT_trig_pending, levels [0xE4]]
  | .thmTimerTrigger =>
    only [.ev, .inForce, .thm, .time] [commitTakenRegs 0xE4, one F.THM_STAT_seq_busy, one F.THM_STAT_tag, one F.THM_STAT_trig_pending,
      one F.THM_TRIG_OVL_count]
  | .thmTrigGo _ =>
    only [.ev, .inForce, .thm] [fabricErrorRegs, commitTakenRegs 0xE4, one F.THM_STAT_seq_busy, one F.THM_STAT_tag, one F.THM_STAT_trig_pending,
      one F.THM_TRIG_OVL_count]
  | .thmCalGo _ _ =>
    only [.ev, .inForce, .thm] [fabricErrorRegs, errorRegs 0xE4, commitTakenRegs 0xE4, one F.THM_STAT_cal_busy, one F.THM_STAT_cal_queued,
      one F.THM_STAT_seq_busy, one F.THM_STAT_tag, one F.THM_STAT_trig_pending, one F.THM_TRIG_OVL_count]
  | .thmCalDone _ _ =>
    only [.ev, .inForce, .thm, .time] [commitTakenRegs 0xE4, one F.DEV_STATUS_thm_cal_done, one F.THM_GAIN_gain, one F.THM_OFFSET_offset,
      one F.THM_STAT_cal_busy, one F.THM_STAT_seq_busy, one F.THM_STAT_tag, one F.THM_STAT_trig_pending]
  | .thmResult _ _ _ => device
  | .seqDone =>
    only [.ev, .inForce, .thm] [commitTakenRegs 0xE4, one F.THM_STAT_cal_busy, one F.THM_STAT_cal_queued, one F.THM_STAT_seq_busy,
      one F.THM_STAT_tag, one F.THM_STAT_trig_pending]
  | .thmQPop _ =>
    only [.ev, .thm] [fabricErrorRegs, one F.THM_Q_0_flags, one F.THM_Q_0_seq, one F.THM_Q_0_tag, one F.THM_Q_1_raw, one F.THM_Q_CTRL_queued,
      events [0xE6]]
  | .pathTest _ _ _ => only [.ev, .rep, .time] [one F.REP_THM_FAIL_HI_bits, one F.REP_THM_FAIL_LO_bits, events [0xF0]]
  | .ruleTick _ _ => device
  | .hmpPdRelease _ _ => device
  | .hmpSeal _ => only [.ev] [fabricErrorRegs, one F.HMP_SEAL_sealed, one F.HMP_STAT_sealed, events [0xE0]]
  | .hmpLogPop _ =>
    only [.ev, .hmpLog] [fabricErrorRegs, one F.HMP_LOG_CTRL_held, one (F.HMP_LOG_bits 0), one (F.HMP_LOG_bits 1), one (F.HMP_LOG_bits 2),
      one (F.HMP_LOG_bits 3), events [0xE2]]
  | .monTrigGo _ le =>
    only [.ev, .mon (le.val != 0)] [fabricErrorRegs, one (F.MON_STAT_pending le.val), one (F.MON_STAT_state le.val),
      one (F.MON_TRIG_OVL_count le.val), one (F.MON_TRIG_T_HI_time le.val), one (F.MON_TRIG_T_LO_time le.val), events [monPage le.val,
      pageOf (monCmd le.val)]]
  | .monAbort _ le =>
    only [.ev] [fabricErrorRegs, one (F.MON_STAT_pending le.val), one (F.MON_STAT_state le.val), events [pageOf (monCmd le.val)]]
  | .monRearm _ le =>
    only [.ev] [fabricErrorRegs, one (F.MON_STAT_pending le.val), one (F.MON_STAT_state le.val), events [pageOf (monCmd le.val)]]
  | .monTrigger le _ =>
    only [.ev, .mon (le.val != 0)] [one (F.MON_SAT_count le.val), one (F.MON_STAT_pending le.val), one (F.MON_STAT_state le.val),
      one (F.MON_TRIG_OVL_count le.val), one (F.MON_TRIG_T_HI_time le.val), one (F.MON_TRIG_T_LO_time le.val), events [monPage le.val]]
  | .capDone le _ _ _ =>
    only [.ev, .mon (le.val != 0)] [one (F.MON_CAP_SEQ_count le.val), one (F.MON_SAT_count le.val), one (F.MON_STAT_length le.val),
      one (F.MON_STAT_overrun le.val), one (F.MON_STAT_pending le.val), one (F.MON_STAT_state le.val), events [monPage le.val]]
  | .trimUpdate le _ =>
    only [.ev, .rep, .time] [any fun lane => converterMapRegs le.val lane, one (F.CAL_ENG_STAT_clamped le.val),
      one (F.CAL_ENG_STAT_die_temp le.val), one (F.CAL_ENG_STAT_lower le.val), events [0xF0]]
  | .spareCalStart le _ lane => only [.rep] [converterMapRegs le.val lane.val]
  | .spareCalEnd le dac c _ =>
    only [.ev, .rep] [converterMapRegs le.val c.lane.val, any fun (e : Nat) => one (trimField le.val dac c.lane.val c.pos.val e 0),
      any fun (e : Nat) => one (trimField le.val dac c.lane.val c.pos.val e 1),
      any fun (e : Nat) => one (trimField le.val dac c.lane.val c.pos.val e 2), one (F.CAL_ENG_STAT_learned le.val),
      one (F.LE_RX_BAUD_MAX_baud le.val), one (F.LE_TX_BAUD_MAX_baud le.val), events [0xF0, lep le.val 0x14, lep le.val 0x18]]
  | .rotationSwap le _ lane =>
    only [.ev, .rep, .time] [converterMapRegs le.val lane.val, one (F.LE_RX_ADC_ROT_CNT_count le.val), one (F.LE_RX_BAUD_MAX_baud le.val),
      one (F.LE_TX_BAUD_MAX_baud le.val), events [lep le.val 0x14, lep le.val 0x16, lep le.val 0x18, lep le.val 0x19]]
  | .unitFault le _ lane _ =>
    only [.ev, .rep] [converterMapRegs le.val lane.val, one (F.LE_RX_BAUD_MAX_baud le.val), one (F.LE_TX_BAUD_MAX_baud le.val),
      events [lep le.val 0x14, lep le.val 0x16, lep le.val 0x18, lep le.val 0x19]]
  | .repairSwap le _ _ =>
    only [.drawn, .ev, .rep, .fec ((1 - le.val) != 0), .fec (le.val != 0), .glf ((1 - le.val) != 0), .glf (le.val != 0),
      .p2mp ((1 - le.val) != 0), .p2mp (le.val != 0), .rx ((1 - le.val) != 0), .rx (le.val != 0), .tx ((1 - le.val) != 0),
      .tx (le.val != 0)] [engineDownRegs (1 - le.val), engineDownRegs le.val, engineStoppedRegs le.val, errorRegs (lep le.val 0x10),
      one (F.LE_ROLE_STAT_start_step le.val)]
  | .fgCalGo _ _ _ _ _ =>
    only [.ev, .rep] [fabricErrorRegs, errorRegs 0xF2, one F.CAL_FG_STAT_slices, one F.CAL_FG_STAT_subdacs, one F.CAL_FG_STAT_tiles,
      one F.CAL_FG_adc, one F.CAL_FG_busy, one F.CAL_FG_dac, one F.CAL_FG_engine, one F.CAL_FG_fec]
  | .fgDone _ _ _ =>
    only [.ev, .rep, .fec false, .fec true] [any fun le => any fun lane => converterMapRegs le lane, any fun le => decoderRegs le,
      any fun (a : Nat) => any fun (c : Nat) => any fun (d : Nat) => any fun (e : Nat) => one (trimField a false c d e 0),
      any fun (a : Nat) => any fun (c : Nat) => any fun (d : Nat) => any fun (e : Nat) => one (trimField a false c d e 1),
      any fun (a : Nat) => any fun (c : Nat) => any fun (d : Nat) => any fun (e : Nat) => one (trimField a false c d e 2),
      any fun (a : Nat) => any fun (c : Nat) => any fun (d : Nat) => any fun (e : Nat) => one (trimField a true c d e 0),
      any fun (a : Nat) => any fun (c : Nat) => any fun (d : Nat) => any fun (e : Nat) => one (trimField a true c d e 1),
      any fun (a : Nat) => any fun (c : Nat) => any fun (d : Nat) => any fun (e : Nat) => one (trimField a true c d e 2),
      any1 F.CAL_ENG_STAT_learned, one F.CAL_FG_STAT_slices, one F.CAL_FG_STAT_subdacs, one F.CAL_FG_STAT_tiles, one F.CAL_FG_busy,
      any1 F.LE_FEC_TILE_MAP_map, any1 F.LE_FEC_TILE_SPARE_spare_a, any1 F.LE_FEC_TILE_SPARE_spare_b,
      any2 F.LE_FEC_TILE_STAT_marks, any2 F.LE_FEC_TILE_STAT_state, any1 F.LE_RX_BAUD_MAX_baud, any1 F.LE_TX_BAUD_MAX_baud,
      any fun (le : Nat) => events [lep le 0x14, lep le 0x18], events [0xF0]]
  | .loopCalStep le _ _ _ _ _ =>
    only [.ev, .rep, .time] [any fun (c : Nat) => any fun (d : Nat) => any fun (e : Nat) => one (trimField le.val false c d e 0),
      any fun (c : Nat) => any fun (d : Nat) => any fun (e : Nat) => one (trimField le.val false c d e 1),
      any fun (c : Nat) => any fun (d : Nat) => any fun (e : Nat) => one (trimField le.val false c d e 2),
      one (F.CAL_ENG_STAT_learned le.val), events [0xF0]]
  | .periodicTest _ =>
    only [.buf, .cip, .ev, .rep, .syn, .time] [pageTestRegs, cipherLoadRegs, one (F.CIP_CNT_count 1), one (F.CIP_CNT_count 2),
      any1 F.CIP_CORE_STAT_state, any1 F.CLS_PIPE_STAT_state, one F.CLS_STAT_pipes_active, one F.REP_STAT_dpll_test_busy,
      one F.SYN_FREQ_offset, one F.SYN_HIST_self_test, one F.SYN_STAT_state]
  | .repPipeTest _ => only [.ev, .rep] [fabricErrorRegs, any1 F.CLS_PIPE_STAT_state, one F.CLS_STAT_pipes_active, events [0xF0]]
  | .repDpllTest _ =>
    only [.ev, .rep, .syn] [fabricErrorRegs, one F.REP_STAT_dpll_test_busy, one F.SYN_FREQ_offset, one F.SYN_HIST_self_test,
      one F.SYN_STAT_state, events [0xF0]]
  | .monTest _ _ => only [.ev, .rep] [fabricErrorRegs, events [0xF0]]
  | .monTestDone _ _ => only [.ev, .rep, .time] [one F.REP_STAT_mon_fail_le0, one F.REP_STAT_mon_fail_le1, events [0xF0]]
  | .trimWrite _ le t w _ =>
    only [.ev] [fabricErrorRegs, any fun (b : Bool) => any fun (c : Nat) => any fun (d : Nat) => one (trimField le.val b c d t.val 0),
      any fun (b : Bool) => any fun (c : Nat) => any fun (d : Nat) => one (trimField le.val b c d t.val 1),
      any fun (b : Bool) => any fun (c : Nat) => any fun (d : Nat) => one (trimField le.val b c d t.val 2),
      one (F.TRIM_LANE_peaking le.val t.val (w.val - 408)), one (F.TRIM_LANE_swing le.val t.val (w.val - 408)),
      events [pageOf (0x320000 + 0x4000 * le.val + 0x800 * t.val + 4 * w.val)]]
  | .classExhausted c =>
    only [.ev, .time] [one F.DEV_MODE_mode, one F.DEV_MODE_mode_prev, one F.DEV_STATUS_spares_exhausted, one (F.REP_CLASS_STAT_exhausted c.val),
      one F.REP_STAT_degraded_reported, one F.REP_STAT_exhausted, events [0x00, 0xF0], levels [0x00]]
  | .classRestored c =>
    only [.ev] [one F.DEV_MODE_mode, one F.DEV_MODE_mode_prev, one F.DEV_STATUS_spares_exhausted, one (F.REP_CLASS_STAT_exhausted c.val),
      one F.REP_STAT_exhausted, events [0x00, 0xF0], levels [0x00]]
  | .evlEntry _ =>
    only [.ev, .evl] [one F.EVL_DROP_count, one F.EVL_HEAD_count, one F.EVL_LATE_count, one F.EVL_TAIL_count, events [0xFA], levels [0xFA]]
  | .sorterRelease =>
    only [.ev, .evl, .time] [one F.EVL_DROP_count, one F.EVL_HEAD_count, one F.EVL_TAIL_count, events [0xFA], levels [0xFA]]
  | .foldWindowEnd _ _ _ => only [.ev, .time] []
  | .evlTailWrite _ _ => only [.ev, .evl] [fabricErrorRegs, one F.EVL_TAIL_count, events [0xFA], levels [0xFA]]
  | .cntSelWrite _ n _ =>
    only [.cnt, .drawn, .ev, .fab] [fabricErrorRegs, pulseRegs, one (F.CNT_SEL_chain_in n.val), one (F.CNT_SEL_en n.val),
      one (F.CNT_SEL_mode n.val), one (F.CNT_SEL_sel n.val), one (F.CNT_SEL_src n.val), events [pageOf (0x330000 + 0x20 * n.val)]]
  | .cntHiWrite _ n _ =>
    only [.cnt, .drawn, .ev, .fab] [fabricErrorRegs, pulseRegs, one (F.CNT_SEL_sat n.val), events [pageOf (0x33000C + 0x20 * n.val)]]
  | .cntWrap _ _ => only [.ev] [pulseRegs]
  | .freezeRequest _ _ _ =>
    only [.ev] [fabricErrorRegs, one F.CNT_FREEZE_T_HI_value, one F.CNT_FREEZE_T_LO_value, one F.CNT_FREEZE_busy, one F.CNT_FREEZE_freeze,
      one F.CNT_FREEZE_lead, events [0xF8]]
  | .freezeInstant => only [.cnt, .drawn, .ev, .fab, .time] [anyReg]
  | .cntSnapshot =>
    only [.cnt, .drawn, .ev, .fab, .time] [pulseRegs, any1 F.CNT_SNAP_HI_value, any1 F.CNT_SNAP_LO_value, one (F.PAGE_STAT_snap_busy 0xF8),
      one (F.SNAP_seq 0xF8)]
  | .sampleChoose _ _ => only [.drawn, .ev, .smp] [one F.SMP_SKIP_count, one F.SMP_STAT_inflight, events [0xF9]]
  | .sampleRecord _ _ _ =>
    only [.ev, .smp] [one F.SMP_STAT_full, one F.SMP_STAT_held, one F.SMP_STAT_inflight, one F.SMP_WR_COUNT_count, events [0xF9]]
  | .smpRestart _ _ =>
    only [.ev] [fabricErrorRegs, one F.SMP_CTRL_en, one F.SMP_CTRL_j, one F.SMP_CTRL_k, one F.SMP_CTRL_path, one F.SMP_CTRL_port,
      one F.SMP_CTRL_port_en, one F.SMP_CTRL_stop, one F.SMP_STAT_full, one F.SMP_STAT_held, events [0xF9]]
  | .spiWrite _ _ _ => device
  | .spiRead _ _ => device
  | .spiStatus _ => only [.spi] []
  | .gpioEdge _ _ => only [.ev] [one F.GPIO_IN_in, events [0x06]]
  | .kxRestart j =>
    only [.cip, .drawn, .time, .glf false, .glf true] [one (F.CIP_KX_STAT_result j.val), one (F.CIP_KX_STAT_role j.val), one (F.CIP_KX_STAT_state j.val)]
  | .avsConfirmed => only [.dev] [one F.DEV_AVS_avs_busy, one F.DEV_AVS_setpoint_code]
  | .trngHealthTest _ => only [.enc] []

/-! ## Words of the statements -/

/-- No WAKE is due and no BCR is being applied (R108, R119). -/
def settled (s : State) : Prop := s.dev.bootPending = false ∧ s.dev.bcr = none

/-- The commit domain's set as a COMMIT of page `p` checks it: the staged set of the domain over the sets in force. -/
def checkedOk (m : Master) (p : Nat) (s : State) : Prop :=
  let u := commitCopy p (State.access m s)
  domCheck (mcode m) (domainOf p) (commitSet (domainOf p) u) u = 0

/-- How many of the 64 general and 256 page locks master `m` holds. -/
def locksHeld (m : Master) (s : State) : Nat :=
  (((List.range 64).map F.LOCKN_owner ++ (List.range 256).map F.LOCK_owner).filter fun f => s.g f == mcode m).length

/-- The receive state of line engine `le` (R170). -/
def rxState (le : Fin 2) (s : State) : Nat := s.g (F.LE_RX_STATE_state le.val)

/-- The receive pages of line engine `le` are enabled (R53). -/
abbrev rxOn (le : Fin 2) (s : State) : Prop := s.pageOn (lep le.val 0x18) = true

/-- R219, R220, R395: a running leaf takes a message for `id` (no CTRL_RX association, which would authenticate it, is set up). -/
abbrev hears (le : Fin 2) (id : Fin 512) (auth : Bool) (s : State) : Prop :=
  isLeaf s le.val = true ∧ s.g (F.LE_P2MP_LEAF_STAT_leaf_id le.val) = id.val ∧ s.curOn (F.LE_P2MP_LEAF_CTRL_ctrl_auth le.val) = auth ∧
  saFind s.inForce 3 (fun i => saEngine s.inForce i == le.val) = none

/-- A member of a group that is configured and whose stream is in frame. -/
abbrev memberInFrame (s : State) (g m : Nat) : Bool :=
  match grpMember s.inForce g m with
  | some (e, c) => Tbl.get 0 (s.eng e).glf.frame (s.cur (F.LE_GLF_CONT_CFG_stream e c)) == 2
  | none => false

/-- The state of host lane `k` (R305). -/
abbrev laneOf (s : State) (k : Fin 32) : Nat := laneState s (k.val / 8) (k.val % 8)

/-- R363: what a read of the word at physical address `a` finds. -/
abbrev found (s : State) (a : Nat) : Ecc := (eccDecode (memWord s a)).1

/-- The data of the word at physical address `a` after correction. -/
abbrev dataAt (s : State) (a : Nat) : Nat := (eccDecode (memWord s a)).2 % 256 ^ 32

/-- R374: the physical address of logical word `n`. -/
abbrev physAddr (s : State) (n : Nat) : Nat := physPage s (n / 2048) * 2048 + n % 2048

/-- R365: the word that a write of the masked bytes leaves where `w` stood. -/
def writtenWord (mask data w : Nat) : Nat :=
  let merged := mergeBytes mask data ((eccDecode w).2 % 256 ^ 32)
  if mask % 2 ^ 32 = 2 ^ 32 - 1 then eccEncode 0 data
  else match (eccDecode w).1 with
    | .good => eccEncode 0 merged
    | .ce _ => eccEncode 0 merged
    | _ => poisoned merged

/-- R374: the second physical address that a write to logical word `n` goes to while its page is copied. -/
abbrev mirrorAddr (s : State) (n : Nat) : Option Nat := (mirrorPage s (n / 2048)).map fun q => q * 2048 + n % 2048

/-- R371, R378: the number of the event and of the counter of what a read finds. -/
def readEvent (r : Ecc) : Option Nat :=
  match r with
  | .good => none
  | .ce _ => some 0
  | .ue => some 1
  | .addrErr => some 2
  | .poison => some 3

/-- R378: BUF_WIN_STAT.result of a window read that delivers no data. -/
def windowFailure (r : Ecc) : Option Nat :=
  match r with
  | .ue => some 2
  | .addrErr => some 3
  | .poison => some 4
  | _ => none

/-- R365, R371: the word that a read leaves where `w` stood: a correctable one is written back, an uncorrectable one poisoned, unless
write-back to the address has stopped. -/
def readLeaves (stopped : Bool) (w : Nat) : Nat :=
  match (eccDecode w).1 with
  | .ce _ => if stopped then w else (eccDecode w).2
  | .ue => if stopped then w else poisoned ((eccDecode w).2 % 256 ^ 32)
  | _ => w

/-- What a read of the word at physical address `a` of `s` does to reach `t`: the word it leaves there and at no other place, its event
and its count. -/
def wordRead (a : Nat) (s t : State) : Prop :=
  memWord t a = readLeaves (wbStopped t a) (memWord s a) ∧ (∀ b, b ≠ a → memWord t b = memWord s b) ∧
  ∀ e, readEvent (found s a) = some e → t.sticky 0xC1 e ∧ t.g (F.BUF_CNT_count e) = min (s.g (F.BUF_CNT_count e) + 1) 0xFFFFFFFF

/-- What a write of the masked bytes to logical word `n` of `s` does to reach `t`: to the word and, while its page is copied, to the
second one (R374), and to no other. -/
def wordWritten (n mask data : Nat) (s t : State) : Prop :=
  (mirrorAddr s n ≠ some (physAddr s n) → memWord t (physAddr s n) = writtenWord mask data (memWord s (physAddr s n)) ∧
    ∀ b, mirrorAddr s n = some b → memWord t b = writtenWord mask data (memWord s b)) ∧
  ∀ a, a ≠ physAddr s n → mirrorAddr s n ≠ some a → memWord t a = memWord s a

/-- Mailbox direction `n` out of the enclave is empty, nothing waits behind it, its receiver is not in reset and no other master locks the
mailbox page. -/
def boxQuiet (s : State) (n : Nat) : Prop :=
  s.mbxQ n = [] ∧ Tbl.get [] s.fab.replies n = [] ∧ s.on (F.MBX_STAT_rx_in_reset n) = false ∧ s.admits .enclave 0x09 true

/-- The first word in mailbox direction `n` is the word 0 of an enclave reply (R388, R414). -/
def repliedWith (t : State) (n op status id : Nat) : Prop :=
  (t.mbxQ n).head? = some { word := BitVec.ofNat 32 ((op + 0x80) * 2 ^ 24 + status * 2 ^ 16 + id), writer := 1 }

/-- Two results of a shadow check agreed in time, or none was made (R404). -/
def agreed (mism : Option (Fin 8 × Bool)) : Bool :=
  match mism with
  | some (_, ok) => ok
  | none => true

/-- The key of association `i` that protects the unit at whose boundary the state is `t`: it is ACTIVE and its unit is not lost to a
shadow check or shed. -/
def unitKey (mism : Option (Fin 8 × Bool)) (i : Nat) (t : State) : Option (List Byte) :=
  if saState t i = 1 ∧ agreed mism = true ∧ saShed t i = false then (assoc t i).cur else none

/-- The start unit that counts in an association's unit: of a burst. -/
def startOf (s : State) (i start : Nat) : Nat := if saUpstream s.inForce i then start else 0

/-- An envelope of the overhead channel as it waits (R272, R274). -/
def envelope (prec type : Nat) (body : List Byte) : Env :=
  { prec := prec, bytes := BitVec.ofNat 8 type :: BitVec.ofNat 8 body.length :: body }

/-- The record that a start or a KX_INIT takes: the lowest IDLE one that no restart waits for. -/
def kxFree (s : State) : Option Nat := (List.range 16).find? fun j => kxState s j == 0 && !(kxRec s j).again

/-- R396 to R398: the signature of a message verifies under the peer's key. -/
def kxSigned (s : State) (le rx xid : Nat) (msg sig : List Byte) : Bool :=
  match kxPeer s le xid rx with
  | some pub => Config.ecdsaVerify pub msg sig
  | none => false

/-- A message of type `type` waits in the overhead channel of engine `le`. -/
def sends (le type : Nat) (body : List Byte) (t : State) : Prop :=
  envelope 5 type body ∈ Tbl.get [] (t.eng le).glf.oh 0

/-- R398: a KX_ABORT with a reason answers the message of bytes `body`. -/
def aborts (le reason : Nat) (body : List Byte) (s t : State) : Prop :=
  sends le 0x16 (body.take 2 ++ [BitVec.ofNat 8 (kxSlot s le (slotOf s.inForce le true 0 (byteAt body 2))), BitVec.ofNat 8 reason]) t

/-- A message whose authentication failed is counted (R395). -/
def unproven (s t : State) : Prop := t.g (F.CIP_CNT_count 7) = min (s.g (F.CIP_CNT_count 7) + 1) 0xFFFFFFFF

/-- R399: record `j` has answered a KX_INIT: RESP_SENT, its message kept for repetition. -/
def responded (j tx rx : Nat) (body : List Byte) (t : State) : Prop :=
  kxState t j = 2 ∧ t.g (F.CIP_KX_STAT_role j) = 1 ∧ t.g (F.CIP_KX_STAT_tx j) = tx ∧ t.g (F.CIP_KX_STAT_rx j) = rx ∧
  (kxRec t j).init = body ∧ (kxRec t j).last.1 = 0x12

/-- R399, R400: record `j` has sent KX_SWITCH and armed its transmit association; where both switches have applied, it has ended. -/
def switching (j : Nat) (s t : State) : Prop :=
  (assoc t (s.g (F.CIP_KX_STAT_tx j))).switch =
    some ((s.g (F.LE_GLF_TX_FC_fc (saEngine s.inForce (s.g (F.CIP_KX_STAT_tx j)))) + s.g F.CIP_KX_TIME_kx_lead) % 2 ^ 32) ∧
  (if ((kxRec s j).own && (kxRec s j).peer) = true then kxState t j = 0 ∧ t.g (F.CIP_KX_STAT_result j) = 1
   else kxState t j = 4 ∧ (kxRec t j).last.1 = 0x15)

/-- A change submitted to handle `h`: the handle's nonce has not expired and the exchange buffer holds request `c` of `len` bytes. -/
def submits (s : State) (w : Word) (x : Handle) (c : Change) : Prop :=
  Tbl.find s.enc.handles (w.toNat % 4) = some x ∧ s.now < x.issued + 600000000000 ∧ w.toNat / 2 ^ 16 % 2 ^ 12 ≤ 1536 ∧
  changeParse (xbufBytes s (w.toNat / 2 ^ 16 % 2 ^ 12)) = some c

/-- Engine `le`'s link carries no command, holds no session and is not in BREAK. -/
def linkIdle (s : State) (le : Nat) : Prop :=
  (ubh s le).brk = false ∧ (ubh s le).out = none ∧ (ubh s le).txd = none ∧ (ubh s le).queue = [] ∧ (ubh s le).session = none ∧ (ubh s le).seq < 256

/-- The bytes of a valid response, with payload `p`, to the next command of engine `le`'s link outside a session (R432, R433). -/
def response (s : State) (le code : Nat) (p : List Byte) : List Byte := ubhFrame (128 + code) (ubh s le).seq none p []

/-- The register at `a` does no more than the access codes of its fields state (R15): it lies in the control pages, behind the page header,
and no command bit, guard, lock, mailbox, routing or exchange buffer stands behind it. -/
def plainRegister (m : Master) (a v : Nat) : Prop :=
  a % 4 = 0 ∧ a < 0xFEA00 ∧ 0x40 ≤ a % 0x1000 ∧ a ≠ 0x40 ∧ pageOf a ∉ [0x08, 0x09, 0xE1, 0xE5] ∧ ¬ (0x1400 ≤ a ∧ a < 0x1800) ∧
  (if 0x10 ≤ pageOf a ∧ pageOf a ≤ 0x8F then
    (engineWrite m (if pageOf a < 0x50 then 0 else 1) (pageOf a - 0x40 * (if pageOf a < 0x50 then 0 else 1)) a v).isNone
    else (blockWrite m a v).isNone) = true

/-! ## The statements -/

/-- INDEX: a step takes the command at the front of the queue and runs it on the queue's rest. On an empty queue a step is a tick: the
model's choice.
Log entry 78: the model's choices in it. -/
def Obligations.StepRunsFront : Prop :=
  (∀ (c : Instr) (q : List Instr) (s : State), step { s with pending := c :: q } = exec c { s with pending := q }) ∧
  (∀ s : State, s.pending = [] → step s = .next (tick s))

/-- R16, R67: the state after reset is in canonical form, with no command waiting, no lock held and no event sticky.
Log entries 80, 83: the model's choices in it. -/
def Obligations.ResetIsTidy : Prop :=
  State.reset.tidy ∧ State.reset.pending = [] ∧ (∀ l, State.reset.g (ownerField l) = 0) ∧
    (∀ p : Fin 256, State.reset.g (F.EVT_STICKY p.val) = 0) ∧ State.reset.inForce = [] ∧ State.reset.staged = []

/-- Every step keeps the canonical form of the sparse contents, from any state that has it (not only from those a run reaches).
Log entry 177: the model's choices in it. -/
def Obligations.StepsKeepTidy : Prop :=
  ∀ s t : State, s.tidy → step s = .next t → t.tidy

/-- Every well-formed command answers a next state in every state; one whose operands no occurrence of it has is a fault of that name. -/
def Obligations.WellFormedCommandsRun : Prop :=
  ∀ (i : Instr) (s : State), (wellFormed i = true → ∃ t, exec i s = .next t) ∧
    (wellFormed i = false → exec i s = .fault .illFormed)

/-- The frame of every command: what `frame` does not name for it and its operands holds after it what it held before. -/
def Obligations.CommandsKeepTheirFrame : Prop :=
  ∀ (i : Instr) (s t : State), exec i s = .next t → Within (frame i) s t

/-- R54: EVT_FORCE sets the written bits of EVT_STICKY and leaves EVT_RAW as it was. -/
def Obligations.EventForceSetsSticky : Prop :=
  ∀ (m : Master) (p : Fin 256) (bits : Word) (s : State), s.admits m p.val true →
    ∃ t, exec (.evtForce m p bits) s = .next t ∧
      t.g (F.EVT_STICKY p.val) = (s.g (F.EVT_STICKY p.val) ||| bits.toNat) % 2 ^ 32 ∧
      t.g (F.EVT_RAW p.val) = s.g (F.EVT_RAW p.val)

/-- R55: ERR_CODE holds the first error after err_valid was cleared; a later one sets err_lost and makes an ERROR entry of the event log
(while the log runs), and overwrites neither step nor code. -/
def Obligations.ErrorCodeHoldsFirst : Prop :=
  ∀ (p step code : Nat) (s : State),
    (s.on (F.ERR_valid p) = false →
      (State.err p step code s).on (F.ERR_valid p) = true ∧ (State.err p step code s).g (F.ERR_step p) = step % 256 ∧
      (State.err p step code s).g (F.ERR_code p) = code % 256) ∧
    (s.on (F.ERR_valid p) = true →
      (State.err p step code s).on (F.ERR_valid p) = true ∧ (State.err p step code s).on (F.ERR_lost p) = true ∧
      (State.err p step code s).g (F.ERR_step p) = s.g (F.ERR_step p) ∧ (State.err p step code s).g (F.ERR_code p) = s.g (F.ERR_code p) ∧
      (s.logRuns = true → ∃ e, (State.err p step code s).ev.made = s.ev.made ++ [e] ∧ e.page = p ∧ e.code = code ∧ e.kind = 1))

/-- R15, R53, R54: what a write does to an RW, a W1C and an RWS register: EVT_EN takes the word, EVT_STICKY loses the bits written with 1
whether or not a LOCK is held, LEn_ROLE is staged and the set in force is not touched. R13, R15: at a register behind which only the
access codes of its fields stand, each field does what its code says and nothing else changes. R51, R89: a narrow or misaligned access is
recorded with its reason and its master.
Log entries 182, 188: the model's choices in it. -/
def Obligations.RegisterWriteByAccessCode : Prop :=
  (∀ (m : Master) (p : Fin 256) (v : Word) (s : State), s.admits m p.val true → settled s →
    ∃ t, exec (.registerWrite m (BitVec.ofNat 26 (p.val * 0x1000 + 0x18)) v false) s = .next t ∧ t.g (F.EVT_EN p.val) = v.toNat) ∧
  (∀ (m : Master) (p : Fin 256) (v : Word) (s : State), s.reaches m p.val = true → definedPage p.val = true → settled s →
    ∃ t, exec (.registerWrite m (BitVec.ofNat 26 (p.val * 0x1000 + 0x14)) v false) s = .next t ∧
      t.g (F.EVT_STICKY p.val) = (s.g (F.EVT_STICKY p.val) &&& (v.toNat ^^^ 0xFFFFFFFF)) % 2 ^ 32) ∧
  (∀ (m : Master) (le : Fin 2) (v : Word) (s : State), s.admits m (0x10 + 0x40 * le.val) false → settled s →
    ∃ t, exec (.registerWrite m (BitVec.ofNat 26 (0x10040 + 0x40000 * le.val)) v false) s = .next t ∧ t.inForce = s.inForce ∧
      t.stg (F.LE_ROLE_role le.val) = v.toNat % 8 ∧ t.stg (F.LE_ROLE_single_fibre le.val) = v.toNat / 256 % 2 ∧
      t.stg (F.LE_ROLE_line_mode le.val) = v.toNat / 4096 % 16) ∧
  (∀ (m : Master) (a : Addr) (v : Word) (fs : List FSpec) (s : State), plainRegister m a.toNat v.toNat → regAt a.toNat = some fs →
    s.admits m (pageOf a.toNat) false → settled s →
    ∃ t, exec (.registerWrite m a v false) s = .next t ∧ Within (only [.staged, .ev] [fun k => k / 32 = a.toNat / 4]) s t ∧
      ∀ f ∈ fs, (f.acc = .rw → t.g (fieldAt a.toNat f) = fieldBits v.toNat f) ∧
        (f.acc = .rws → t.stg (fieldAt a.toNat f) = fieldBits v.toNat f) ∧
        (f.acc = .w1c → t.g (fieldAt a.toNat f) =
          (s.g (fieldAt a.toNat f) &&& (fieldBits v.toNat f ^^^ (2 ^ (fieldAt a.toNat f).width - 1))) % 2 ^ (fieldAt a.toNat f).width) ∧
        (f.acc = .ro → t.g (fieldAt a.toNat f) = s.g (fieldAt a.toNat f))) ∧
  (∀ (m : Master) (a : Addr) (v : Word) (narrow : Bool) (s : State), s.reaches m (pageOf a.toNat) = true → s.logRuns = true →
    narrow = true ∨ a.toNat % 4 ≠ 0 →
    ∃ t, exec (.registerWrite m a v narrow) s = .next t ∧ t.g F.FAB_ERR_LAST_INFO_reason = 1 ∧ t.g F.FAB_ERR_LAST_INFO_master = mcode m)

/-- R67: the rows of the lock table. R69: a master reset frees every lock the master holds, leaves the others, and counts the releases.
Log entries 89, 95: the model's choices in it. -/
def Obligations.LocksBehave : Prop :=
  (∀ (m : Master) (l : LockId) (s : State), s.reaches m (lockPage l) = true → definedPage (lockPage l) = true →
    ∃ t, exec (.lockAcquire m l) s = .next t ∧
      (s.g (ownerField l) = 0 → t.g (ownerField l) = mcode m ∧ t.fab.readData = 0) ∧
      (s.g (ownerField l) ≠ 0 → t.fields = s.fields ∧ t.fab.readData = 0x80000000 + s.g (ownerField l))) ∧
  (∀ (m : Master) (l : LockId) (v : Word) (s : State), s.reaches m (lockPage l) = true → definedPage (lockPage l) = true →
    ∃ t, exec (.lockRelease m l v) s = .next t ∧
      (s.g (ownerField l) = mcode m → v.toNat % 16 = mcode m → t.g (ownerField l) = 0 ∧ t.g F.LOCK_ERR_count = s.g F.LOCK_ERR_count) ∧
      (s.g (ownerField l) ≠ mcode m ∨ v.toNat % 16 ≠ mcode m →
        t.g (ownerField l) = s.g (ownerField l) ∧ t.g F.LOCK_ERR_count = min (s.g F.LOCK_ERR_count + 1) 16383 ∧
        t.g F.LOCK_ERR_last_page = lockPage l ∧ t.g F.LOCK_ERR_last_master = mcode m ∧
        (s.g (ownerField l) ≠ 0 → t.sticky (lockPage l) 27))) ∧
  (∀ (m : Master) (stays : Bool) (s : State), ∃ t, exec (.masterReset m stays) s = .next t ∧
     (∀ l, t.g (ownerField l) = if s.g (ownerField l) = mcode m then 0 else s.g (ownerField l)) ∧
     t.g F.LOCK_ORPHAN_count = (if locksHeld m s = 0 then s.g F.LOCK_ORPHAN_count
       else min (s.g F.LOCK_ORPHAN_count + locksHeld m s) 65535))

/-- R72: an empty mailbox reads 0 and keeps its queue. -/
def Obligations.EmptyMailboxReadsZero : Prop :=
  ∀ (m : Master) (n : Fin 12) (s : State), s.reaches m 0x09 = true → s.mbxQ n.val = [] →
    ∃ t, exec (.mbxRx m n) s = .next t ∧ t.fab.readData = 0 ∧ ∀ k, t.mbxQ k = s.mbxQ k

/-- R73: a word written to a full mailbox is dropped. -/
def Obligations.FullMailboxDropsWord : Prop :=
  ∀ (m : Master) (n : Fin 12) (v : Word) (s : State), s.admits m 0x09 true → endpoint m = (mbxEnds n.val).1 →
    s.on (F.MBX_STAT_rx_in_reset n.val) = false → 8 ≤ (s.mbxQ n.val).length →
    ∃ t, exec (.mbxTx m n v) s = .next t ∧ t.on (F.MBX_STAT_overrun n.val) = true ∧ ∀ k, t.mbxQ k = s.mbxQ k

/-- R71 to R75: the other rows of the mailboxes.
Log entries 94, 95, 96: the model's choices in it. -/
def Obligations.MailboxCommandsRun : Prop :=
  (∀ (m : Master) (n : Fin 12) (v : Word) (s : State), s.admits m 0x09 true → endpoint m = (mbxEnds n.val).1 →
    s.on (F.MBX_STAT_rx_in_reset n.val) = false → (s.mbxQ n.val).length < 8 →
    ∃ t, exec (.mbxTx m n v) s = .next t ∧ t.mbxQ n.val = s.mbxQ n.val ++ [{ word := v, writer := mcode m }]) ∧
  (∀ (m : Master) (n : Fin 12) (w : MbxWord) (q : List MbxWord) (s : State), s.reaches m 0x09 = true →
    endpoint m = (mbxEnds n.val).2 → s.mbxQ n.val = w :: q → Tbl.get [] s.fab.replies n.val = [] →
    ∃ t, exec (.mbxRx m n) s = .next t ∧ t.fab.readData = w.word.toNat ∧ t.mbxQ n.val = q) ∧
  (∀ (n : Fin 12) (s : State), s.mbxQ n.val ≠ [] → Tbl.get false s.fab.mbxTimed n.val = false →
    ∃ t, exec (.mbxTimeout n) s = .next t ∧ t.on (F.MBX_STAT_timeout n.val) = true ∧ t.sticky 0x09 (12 + n.val) ∧
      ∀ k, t.mbxQ k = s.mbxQ k) ∧
  (∀ (m : Master) (n : Fin 12) (s : State), s.admits m 0x09 true → endpoint m = 0 → (mbxEnds n.val).2 = 0 →
    Tbl.get [] s.fab.replies 3 = [] →
    ∃ t, exec (.mbxHostReset m) s = .next t ∧ t.mbxQ n.val = [] ∧
      (s.mbxQ n.val ≠ [] → t.on (F.MBX_STAT_discarded n.val) = true ∧ t.sticky 0x09 (12 + n.val)))

/-- R81, R82: the crossings.
Log entry 196: the model's choices in it. -/
def Obligations.CrossingsReport : Prop :=
  (∀ (dom : Fin 64) (p : Fin 256) (c : Option (Fin 512)) (s : State), ∃ t, exec (.pulseSat dom p c) s = .next t ∧
    t.sticky p.val 29 ∧ (dom.val < 32 → (t.g F.XS_PULSE_SAT_LO_bits).testBit dom.val = true) ∧
    (32 ≤ dom.val → (t.g F.XS_PULSE_SAT_HI_bits).testBit (dom.val - 32) = true) ∧
    ∀ n, c = some n → t.on (F.CNT_SEL_sat n.val) = true) ∧
  (∀ (a b : Fin 64) (pa pb : Fin 256) (d : Nat) (s : State),
    ∃ t, exec (.fifoResync a b pa pb d) s = .next t ∧
    t.sticky pa.val 28 ∧ t.sticky pb.val 28 ∧ t.g F.XS_DROP_CNT_count = (if d = 0 then s.g F.XS_DROP_CNT_count else min (s.g F.XS_DROP_CNT_count + d) 0xFFFFFFFF) ∧
    ∀ k ∈ [a.val, b.val], (k < 32 → (t.g F.XS_RESYNC_LO_bits).testBit k = true) ∧
      (32 ≤ k → (t.g F.XS_RESYNC_HI_bits).testBit (k - 32) = true))

/-- R87: messages of the vectors.
Log entry 98: the model's choices in it. -/
def Obligations.VectorsSend : Prop :=
  (∀ (m : Master) (v : Fin 64) (s : State), s.admits m 0x01 true → s.vecSummary v.val = true →
    ∃ t, exec (.vecEoi m v) s = .next t ∧
      (s.ev.canSend v.val = true → Tbl.get 0 t.ev.msiSent v.val = Tbl.get 0 s.ev.msiSent v.val + 1) ∧
      (s.ev.canSend v.val = false → Tbl.get false t.ev.msiPend v.val = true)) ∧
  (∀ (v : Fin 64) (s : State), Tbl.get false s.ev.msiPend v.val = true → ∃ t, exec (.msixPendingSend v) s = .next t ∧
    Tbl.get false t.ev.msiPend v.val = false ∧
    Tbl.get 0 t.ev.msiSent v.val = Tbl.get 0 s.ev.msiSent v.val + (s.vecSummary v.val).toNat)

/-- R123, R561: the words of the SPI slave. R562: an input ball takes its level and raises its event where the edge is enabled.
Log entries 159, 160: the model's choices in it. -/
def Obligations.PinAccessesRun : Prop :=
  (∀ (p : Fin 256) (v : Word) (s : State), s.admits .spi p.val true → s.mode ≠ 0 → settled s →
    ∃ t, exec (.spiWrite (BitVec.ofNat 26 (p.val * 0x1000 + 0x18)) [v] 0) s = .next t ∧ t.g (F.EVT_EN p.val) = v.toNat) ∧
  (∀ (p : Fin 256) (s : State), s.reaches .spi p.val = true → definedPage p.val = true → s.mode ≠ 0 → settled s →
    ∃ t, exec (.spiRead (BitVec.ofNat 26 (p.val * 0x1000 + 0x14)) 1) s = .next t ∧ t.spi.words = [s.g (F.EVT_STICKY p.val)]) ∧
  (∀ (waiting : Bool) (s : State), ∃ t, exec (.spiStatus waiting) s = .next t ∧
    t.spi.words = [waiting.toNat + 2 * s.spi.err.toNat + 4 * (s.mode == 0 && s.dev.vaon).toNat]) ∧
  (∀ (n : Fin 16) (rising : Bool) (s : State), (s.g F.GPIO_DIR_dir).testBit n.val = false → s.domainUp 0x06 = true →
     (s.g F.GPIO_IN_in).testBit n.val = !rising →
     ∃ t, exec (.gpioEdge n rising) s = .next t ∧ (t.g F.GPIO_IN_in).testBit n.val = rising ∧
       ((if rising then s.g F.GPIO_EDGE_rising else s.g F.GPIO_EDGE_falling).testBit n.val = true → t.sticky 0x06 n.val))

/-- R58 steps 1 to 4, R59, R60, R61: an accepted COMMIT is pending, and armed under commit_sync; an accepted check reports; neither
touches the set in force. A discard gives the staged set the values in force and cancels an armed COMMIT.
Log entries 91, 105, 184: the model's choices in it. -/
def Obligations.CommitCommandsRun : Prop :=
  (∀ (m : Master) (p : Fin 256) (s : State), s.admits m p.val true → s.domainUp (domainOf p.val) = true →
    s.on (F.PAGE_STAT_commit_pending (domainOf p.val)) = false → checkedOk m p.val s →
    ∃ t, exec (.commitGo m p) s = .next t ∧ t.inForce = s.inForce ∧
      t.buffer = Tbl.overlay (inDomain (domainOf p.val)) s.staged s.buffer ∧
      t.on (F.PAGE_STAT_commit_pending (domainOf p.val)) = true ∧
      t.on (F.PAGE_STAT_commit_armed (domainOf p.val)) =
        (s.on (F.PAGE_CTRL_commit_sync (domainOf p.val)) || s.on (F.PAGE_STAT_commit_armed (domainOf p.val)))) ∧
  (∀ (m : Master) (p : Fin 256) (s : State), s.admits m p.val true → s.domainUp (domainOf p.val) = true →
    s.on (F.PAGE_STAT_commit_pending (domainOf p.val)) = false → checkedOk m p.val s →
    ∃ t, exec (.commitCheck m p) s = .next t ∧ t.inForce = s.inForce ∧ t.sticky p.val 31 ∧
      t.on (F.PAGE_STAT_commit_err (domainOf p.val)) = false ∧ t.g (F.COMMIT_seq (domainOf p.val)) = s.g (F.COMMIT_seq (domainOf p.val))) ∧
  (∀ (m : Master) (p : Fin 256) (s : State), s.admits m p.val true →
    ∃ t, exec (.commitDiscard m p) s = .next t ∧ t.inForce = s.inForce ∧
      t.staged = Tbl.overlay (inDomain (domainOf p.val)) s.inForce s.staged ∧
      (s.on (F.PAGE_STAT_commit_armed (domainOf p.val)) = true → timedOf s (domainOf p.val) = false →
        t.on (F.PAGE_STAT_commit_armed (domainOf p.val)) = false ∧ t.on (F.PAGE_STAT_commit_pending (domainOf p.val)) = false ∧
        t.g (F.PAGE_STAT_commit_reason (domainOf p.val)) = 0x0E))

/-- R60: while a COMMIT is pending, a further go or check is rejected with BUSY and the pending one is kept. -/
def Obligations.PendingCommitIsBusy : Prop :=
  ∀ (m : Master) (p : Fin 256) (s : State) (c : Instr), s.admits m p.val true →
    s.on (F.PAGE_STAT_commit_pending (domainOf p.val)) = true → c = .commitGo m p ∨ c = .commitCheck m p →
    ∃ t, exec c s = .next t ∧ t.inForce = s.inForce ∧ t.buffer = s.buffer ∧
      t.on (F.PAGE_STAT_commit_pending (domainOf p.val)) = true ∧ t.on (F.PAGE_STAT_commit_err (domainOf p.val)) = true ∧
      t.g (F.PAGE_STAT_commit_reason (domainOf p.val)) = 0x0A ∧ t.sticky p.val 30

/-- R58 step 5, R42: at the safe boundary the whole pending set of the domain comes into force; the sequence count rises and the COMMIT
is pending no more. (The engines' own sets change more than the set in force: of them the count is stated; one that the device mode or
its engine's run state bars by then is cancelled.)
Log entries 104, 107, 191: the model's choices in it. -/
def Obligations.CommitAppliesWholeSet : Prop :=
  ∀ (p : Fin 256) (s : State), settled s → domainOf p.val ≠ 0xE4 → s.on (F.PAGE_STAT_commit_pending (domainOf p.val)) = true →
    s.on (F.PAGE_STAT_commit_armed (domainOf p.val)) = false → timedOf s (domainOf p.val) = false →
    ∃ t, exec (.commitApply p) s = .next t ∧
      ((∀ le : Fin 2, domainOf p.val = lep le.val 0x10 → engineBarred le.val s = false) →
        t.g (F.COMMIT_seq (domainOf p.val)) = (s.g (F.COMMIT_seq (domainOf p.val)) + 1) % 256) ∧
      (∀ le : Fin 2, domainOf p.val = lep le.val 0x10 → engineBarred le.val s = true → t.inForce = s.inForce ∧
        t.on (F.PAGE_STAT_commit_pending (domainOf p.val)) = false ∧ t.g (F.PAGE_STAT_commit_reason (domainOf p.val)) = 0x0E) ∧
      (domainOf p.val ≠ 0x10 → domainOf p.val ≠ 0x50 →
        t.inForce = Tbl.overlay (inDomain (domainOf p.val)) s.buffer s.inForce ∧
        t.on (F.PAGE_STAT_commit_pending (domainOf p.val)) = false)

/-- R83, R536: a snapshot begins (on page 0xF8 at an instant ahead), one in progress is kept, and its end delivers, counts and reports. R64:
DEV_COMMIT_SYNC counts and fires every armed domain. R53, R60: a soft reset cancels a pending or armed COMMIT and resets its block.
Log entries 87, 92: the model's choices in it. -/
def Obligations.SnapshotsSyncAndReset : Prop :=
  (∀ (m : Master) (p : Fin 256) (s : State), s.admits m p.val true → s.domainUp p.val = true → p.val ≠ 0xF8 →
    s.on (F.PAGE_STAT_snap_busy p.val) = false →
    ∃ t, exec (.pageSnap m p) s = .next t ∧ t.on (F.PAGE_STAT_snap_busy p.val) = true ∧
      (∀ e ∈ snapFields p.val, Tbl.find t.fab.snap e.1.key = some (heldOr s e.2)) ∧
      (p.val = 0xD3 → pageFrozen s 0xD3 = false → Tbl.find t.fab.snap F.SYN_TIME_SNAP_LO_time.key = some (s.now % 2 ^ 32) ∧
        Tbl.find t.fab.snap F.SYN_TIME_SNAP_HI_time.key = some (s.now / 2 ^ 32))) ∧
  (∀ (m : Master) (s : State), s.admits m 0xF8 true → s.domainUp 0xF8 = true → s.on (F.PAGE_STAT_snap_busy 0xF8) = false →
    ∃ t, exec (.pageSnap m 0xF8) s = .next t ∧ t.on (F.PAGE_STAT_snap_busy 0xF8) = true ∧
      t.cnt.snapAt = s.now + 1000 * s.g F.CNT_FREEZE_lead) ∧
  (∀ (m : Master) (p : Fin 256) (s : State), s.admits m p.val true →
    s.on (F.PAGE_STAT_snap_busy p.val) = true ∨ s.domainUp p.val = false →
    ∃ t, exec (.pageSnap m p) s = .next t ∧ t.on (F.PAGE_STAT_snap_busy p.val) = s.on (F.PAGE_STAT_snap_busy p.val) ∧
      t.fab.snap = s.fab.snap ∧ t.cnt.snapAt = s.cnt.snapAt) ∧
  (∀ (p : Fin 256) (s : State), s.on (F.PAGE_STAT_snap_busy p.val) = true → p.val ≠ 0xF8 →
    ∃ t, exec (.snapDone p) s = .next t ∧ t.on (F.PAGE_STAT_snap_busy p.val) = false ∧ t.sticky p.val 24 ∧
      (∀ e ∈ t.fab.snap, pageOf (e.1 / 8) ≠ p.val) ∧
      ((∀ e ∈ s.fab.snap, e.1 ≠ (F.SNAP_seq p.val).key) →
        t.g (F.SNAP_seq p.val) = (s.g (F.SNAP_seq p.val) + 1) % 2 ^ (F.SNAP_seq p.val).width)) ∧
  (∀ (p : Fin 256) (s : State), p.val = 0xF8 ∨ s.on (F.PAGE_STAT_snap_busy p.val) = false → exec (.snapDone p) s = .next s) ∧
  (∀ (m : Master) (s : State), s.admits m 0x00 true →
    ∃ t, exec (.devCommitSync m) s = .next t ∧
      t.g F.DEV_COMMIT_SYNC_sync_seq = (s.g F.DEV_COMMIT_SYNC_sync_seq + 1) % 256 ∧
      (∀ d, d < 256 → domainOf d = d → t.on (F.PAGE_STAT_commit_armed d) = false) ∧
      ((∀ d, d < 256 → fabHeld d = true → s.domainUp d = false → s.on (F.PAGE_STAT_commit_armed d) = false) →
        t.inForce = s.inForce ∧ ∀ d, d < 256 → t.g (F.PAGE_STAT_commit_pending d) = s.g (F.PAGE_STAT_commit_pending d))) ∧
  (∀ (m : Master) (p : Fin 256) (s : State), s.admits m p.val true →
    ∃ t, exec (.softReset m p) s = .next t ∧ t.inForce = s.inForce ∧ t.on (F.PAGE_STAT_commit_pending (domainOf p.val)) = false ∧
      t.on (F.PAGE_STAT_commit_armed (domainOf p.val)) = false ∧
      (s.on (F.PAGE_STAT_commit_pending (domainOf p.val)) = true ∨ s.on (F.PAGE_STAT_commit_armed (domainOf p.val)) = true →
        t.g (F.PAGE_STAT_commit_reason (domainOf p.val)) = 0x0E ∧ t.on (F.PAGE_STAT_commit_err (domainOf p.val)) = true) ∧
      (∀ le : Fin 2, domainOf p.val = lep le.val 0x10 → t.on (F.LE_TX_PLAN_STAT_timed_pending le.val) = false ∧
        (s.runState le.val = 2 → t.g (F.LE_RX_STATE_state le.val) = 1)) ∧
      (∀ le : Fin 2, domainOf p.val = monPage le.val → t.g (F.MON_STAT_state le.val) = 0))

/-- R91, R106, R107: the pins. Without an image in flash (R110) a WAKE ends in SAFE.
Log entries 48, 112, 117, 189, 190: the model's choices in it. -/
def Obligations.PinsAndPower : Prop :=
  (∀ s : State, s.dev.vaon = false → ∃ t, exec .vaonPowerOn s = .next t ∧ t.dev.vaon = true ∧ t.dev.held = true ∧ t.time = 0 ∧
    t.fields = s.fields) ∧
  (∀ s : State, s.dev.vaon = true → ∃ t, exec .vaonLoss s = .next t ∧ t.dev.vaon = false ∧ t.dev.held = true ∧ t.buf.mem = [] ∧
    t.cip.sa = [] ∧ t.dev.flash = s.dev.flash ∧ t.enc.officers = s.enc.officers ∧ t.enc.klk = s.enc.klk) ∧
  (∀ s : State, s.dev.vaon = true → ∃ t, exec .xtalLock s = .next t ∧ t.on F.HMP_STAT_aon_xtal_lock = true ∧
    t.on F.DEV_STATUS_aon_xtal_lock = true) ∧
  (∀ s : State, s.dev.vaon = true → s.dev.held = false → ∃ t, exec .porstAssert s = .next t ∧ t.dev.held = true ∧
    t.on F.DEV_RESET_CAUSE_porst = true ∧ t.hmpLog = s.hmpLog ∧ (s.mode = 0 → t.mode = 0) ∧ (s.mode ≠ 0 → t.mode = 1 ∧ t.buf.mem = [])) ∧
  (∀ s : State, s.dev.vaon = true → s.dev.held = true → s.dev.flash = [] → ∃ t, exec .porstRelease s = .next t ∧ t.dev.held = false ∧
    t.mode = 2 ∧ t.g F.DEV_WAKE_SRC_source = (if s.dev.woken then 5 else 0))

/-- R102, R103, R124: the resets and wakes that a command, the enclave's watchdog and Hamper begin; the flash holds nothing, so that the
WAKE ends in SAFE (R110). A write of DEV_RESET with another key resets nothing and is recorded as denied.
Log entries 112, 117, 126: the model's choices in it. -/
def Obligations.ResetsAndWakes : Prop :=
  (∀ (m : Master) (s : State), s.admits m 0x00 true → s.dev.flash = [] → s.dev.vaon = true → ∃ t, exec (.devReset m 0xA5C3) s = .next t ∧ t.mode = 2 ∧
    t.g F.DEV_WAKE_SRC_source = 6 ∧ t.on F.DEV_RESET_CAUSE_reset_cmd = true ∧ t.buf.mem = s.buf.mem) ∧
  (∀ (m : Master) (key : BitVec 16) (s : State), s.admits m 0x00 true → key ≠ 0xA5C3 → settled s → ∃ t, exec (.devReset m key) s = .next t ∧
    t.mode = s.mode ∧ t.g F.DEV_WAKE_SRC_source = s.g F.DEV_WAKE_SRC_source ∧ (s.logRuns = true → t.g F.FAB_ERR_LAST_INFO_reason = 4)) ∧
  (∀ s : State, enclaveUp s = true → s.dev.flash = [] → ∃ t, exec .enclaveWatchdogExpiry s = .next t ∧ t.mode = 2 ∧
    t.g F.DEV_WAKE_SRC_source = 9 ∧ t.on F.DEV_RESET_CAUSE_enclave_fault = true) ∧
  (∀ s : State, s.mode = 0 → s.dev.vaon = true → s.dev.held = false → s.dev.flash = [] → s.on F.HMP_WAKE_EN_wake_n = true →
    ∃ t, exec .wakeNWake s = .next t ∧ t.mode = 2 ∧ t.g F.DEV_WAKE_SRC_source = 2 ∧ t.on F.DEV_RESET_CAUSE_dormant_exit = true) ∧
  (∀ s : State, s.mode = 0 → s.dev.vaon = true → s.dev.held = false → s.dev.flash = [] → s.on F.HMP_WAKE_EN_spi_any = true →
    ∃ t, exec .spiAccessWake s = .next t ∧ t.mode = 2 ∧ t.g F.DEV_WAKE_SRC_source = 4 ∧ t.on F.DEV_RESET_CAUSE_dormant_exit = true)

/-- R91 to R98, R114, R121: what each mode request does from a mode that takes it, and how a request in progress ends.
Log entries 108, 109, 111, 112, 121: the model's choices in it. -/
def Obligations.ModeRequestsAnswered : Prop :=
  (∀ (m : Master) (maint : BitVec 2) (s : State), s.admits m 0x00 true → s.on F.DEV_MODE_transition = false → s.mode ≠ 7 →
    s.dev.flash = [] → s.dev.held = false → ∃ t, exec (.modeReqSafe m maint) s = .next t ∧ t.mode = 2 ∧ t.g F.DEV_MODE_req_result = 1 ∧
    t.g F.DEV_WAKE_SRC_source = 7 ∧ t.on F.DEV_RESET_CAUSE_safe_cmd = true) ∧
  (∀ (m : Master) (maint : BitVec 2) (s : State), s.admits m 0x00 true → s.on F.DEV_MODE_transition = false → s.mode = 3 →
    settled s → ∃ t, exec (.modeReqService m maint) s = .next t ∧ t.mode = serviceMode s ∧ t.g F.DEV_MODE_req_result = 1) ∧
  (∀ (m : Master) (maint : BitVec 2) (s : State), s.admits m 0x00 true → s.on F.DEV_MODE_transition = false →
    s.mode = 4 ∨ s.mode = 5 ∨ s.mode = 6 → settled s → ∃ t, exec (.modeReqStandby m maint) s = .next t ∧
    t.on F.DEV_MODE_transition = true ∧ t.dev.req = some 3) ∧
  (∀ (m : Master) (maint : BitVec 2) (s : State), s.admits m 0x00 true → s.on F.DEV_MODE_transition = false →
    s.mode = 2 ∨ s.mode = 3 ∨ s.mode = 7 → settled s → ∃ t, exec (.modeReqDormant m maint) s = .next t ∧
    t.mode = 0 ∧ t.g F.DEV_MODE_mode_prev = s.mode ∧ t.g F.DEV_MODE_req_result = 1 ∧ t.cip.sa = [] ∧ t.buf.mem = []) ∧
  (∀ (m : Master) (maint : BitVec 2) (s : State), s.admits m 0x00 true → s.on F.DEV_MODE_transition = false →
    s.mode = 3 → maint ≠ 0 → s.role 0 ≠ 4 → s.role 1 ≠ 4 → settled s → ∃ t, exec (.modeReqMaintenance m maint) s = .next t ∧
    t.mode = 6 ∧ t.dev.maint = maint.toNat ∧ t.g F.DEV_MODE_req_result = 1) ∧
  (∀ (m : Master) (code : BitVec 4) (maint : BitVec 2) (s : State), s.admits m 0x00 true → s.on F.DEV_MODE_transition = false →
    codeRefused code = true → settled s → ∃ t, exec (.modeReqNotAllowed m code maint) s = .next t ∧ t.mode = s.mode ∧
    t.g F.DEV_MODE_req_result = if code.toNat < 8 then 3 else 4) ∧
  (∀ s : State, s.dev.req = some 3 → s.runState 0 = 0 → s.runState 1 = 0 → ∃ t, exec .standbyEntryDone s = .next t ∧ t.mode = 3 ∧
    t.g F.DEV_MODE_req_result = 1 ∧ t.on F.DEV_MODE_transition = false ∧ t.dev.maint = 0 ∧ t.dev.req = none) ∧
  (∀ s : State, s.dev.req = some 6 → s.runState 0 = 0 → s.runState 1 = 0 → ∃ t, exec .maintEntryDone s = .next t ∧ t.mode = 6 ∧
    t.g F.DEV_MODE_req_result = 1 ∧ t.on F.DEV_MODE_transition = false ∧ t.dev.maint = s.dev.maint ∧ t.dev.req = none)

/-- R119, R425, R485, R486, R488, R489, R548, R549: Hamper, the supply, the end of a BCR.
Log entries 83, 125, 129, 130, 131: the model's choices in it. -/
def Obligations.HamperAndSupplyRun : Prop :=
  (∀ (b : Bcr) (s : State), s.dev.bcr = some b → b.wait = 1 → b.entries.length ≤ b.idx → s.dev.spiWake = none → s.dev.bootPending = false →
    ∃ t, exec .bcrWaitUs s = .next t ∧ t.dev.bcr = none ∧ t.on F.DEV_STATUS_bcr_applied = true ∧ t.on F.HMP_SEAL_sealed = true) ∧
  (∀ s : State, s.on F.DEV_AVS_avs_busy = true → ∃ t, exec .avsConfirmed s = .next t ∧ t.on F.DEV_AVS_avs_busy = false ∧
    t.g F.DEV_AVS_setpoint_code = s.g F.DEV_AVS_fused_code % 256) ∧
  (∀ s : State, s.on F.DEV_AVS_avs_busy = true → ∃ t, exec .avsFail s = .next t ∧ t.on F.DEV_AVS_avs_busy = false ∧
    t.on F.DEV_AVS_avs_fail = true ∧ t.g F.DEV_AVS_setpoint_code = s.g F.DEV_AVS_setpoint_code ∧
    (s.on (F.ERR_valid 0) = false → t.on (F.ERR_valid 0) = true ∧ t.g (F.ERR_code 0) = 0x8C)) ∧
  (∀ (c : Fin 6) (lights : BitVec 16) (s : State), s.dev.vaon = true → sensorOn s c.val = true → ∃ t, exec (.tamperTrip c lights) s = .next t ∧
    t.on F.TMP_STAT_latched = true ∧ (t.g F.TMP_STAT_latched_causes).testBit c.val = true ∧
    (enclaveUp s = true → s.dev.bootPending = false → t.enc.klk = none ∧ t.enc.agree = none ∧ t.on F.ENC_ZREC_active = true ∧ t.mode = 7) ∧
    (enclaveUp s = false ∨ s.dev.bootPending = true → t.enc.eraseDue = true)) ∧
  (∀ (c : Fin 6) (lights : BitVec 16) (s : State), s.dev.vaon = true → sensorOn s c.val = false → ∃ t, exec (.tamperTrip c lights) s = .next t ∧
    (t.g F.TMP_STAT_raw).testBit c.val = true ∧ t.enc = s.enc ∧ t.mode = s.mode ∧ t.on F.TMP_STAT_latched = s.on F.TMP_STAT_latched) ∧
  (∀ (m : Master) (s : State), s.admits m 0xE0 true →
    ∃ t, exec (.hmpSeal m) s = .next t ∧ (m = .mgmt → t.on F.HMP_SEAL_sealed = true) ∧
      (m ≠ .mgmt → t.on F.HMP_SEAL_sealed = s.on F.HMP_SEAL_sealed ∧ t.sticky 0xE0 26)) ∧
  (∀ (m : Master) (l : RuleLog) (rest : List RuleLog) (s : State), s.admits m 0xE2 true → s.hmpLog = l :: rest →
    ∃ t, exec (.hmpLogPop m) s = .next t ∧ t.hmpLog = rest ∧ t.g (F.HMP_LOG_bits 0) = l.w0 % 2 ^ 32 ∧ t.g (F.HMP_LOG_bits 1) = l.f % 2 ^ 32 ∧
      t.g (F.HMP_LOG_bits 2) = l.time % 2 ^ 32 ∧ t.g (F.HMP_LOG_bits 3) = l.time / 2 ^ 32 % 2 ^ 32) ∧
  (∀ (m : Master) (bits : BitVec 2) (s : State), s.admits m 0xE0 true → ∃ t, exec (.hmpPdRelease m bits) s = .next t ∧
      (bits.getLsbD 0 = true → t.on F.HMP_PD_le0 = false) ∧ (bits.getLsbD 0 = false → s.on F.HMP_PD_le0 = true → t.on F.HMP_PD_le0 = true) ∧
      (bits.getLsbD 1 = true → t.on F.HMP_PD_le1 = false) ∧ (bits.getLsbD 1 = false → s.on F.HMP_PD_le1 = true → t.on F.HMP_PD_le1 = true))

/-- R35, R112, R113, R157: an engine starts, fails, runs, stops and ends a reload.
Log entries 69, 73, 74, 106, 191: the model's choices in it. -/
def Obligations.EnginesStartAndStop : Prop :=
  (∀ (le : Fin 2) (ok : Bool) (cals : List UnitCal) (bad : List (Fin 26)) (s : State), s.runState le.val = 1 → s.g (F.LE_ROLE_STAT_start_step le.val) = 0 →
    ∃ t, exec (.engineStartStep le ok cals bad) s = .next t ∧ t.g (F.LE_ROLE_STAT_start_step le.val) = 1 ∧
      t.runState le.val = (if ok then 1 else 0) ∧
      (ok = false → t.on (F.ERR_valid (lep le.val 0x10)) = true ∧
        (s.on (F.ERR_valid (lep le.val 0x10)) = false → t.g (F.ERR_code (lep le.val 0x10)) = 0x81))) ∧
  (∀ (le : Fin 2) (cals : List UnitCal) (bad : List (Fin 26)) (s : State), s.runState le.val = 1 → s.g (F.LE_ROLE_STAT_start_step le.val) = 9 →
    s.on (F.UBH_STAT_tx_ready le.val) = true →
    ∃ t, exec (.engineStartStep le true cals bad) s = .next t ∧ t.runState le.val = 2 ∧ t.g (F.LE_ROLE_STAT_start_step le.val) = 10) ∧
  (∀ (le : Fin 2) (s : State), s.runState le.val = 3 → ∃ t, exec (.engineStopComplete le) s = .next t ∧ t.runState le.val = 0 ∧ t.role le.val = 0) ∧
  (∀ (le : Fin 2) (s : State), s.on (F.LE_TX_PLAN_STAT_reload_busy le.val) = true → ∃ t, exec (.reloadDone le none) s = .next t ∧
    t.on (F.LE_TX_PLAN_STAT_reload_busy le.val) = false ∧ t.sticky (lep le.val 0x14) 0 ∧ t.sticky (lep le.val 0x14) 1) ∧
  (∀ (le : Fin 2) (dac : Bool) (s : State), s.on (F.LE_TX_PLAN_STAT_reload_busy le.val) = true → s.runState le.val = 2 →
    s.on (F.ERR_valid (lep le.val 0x10)) = false → ∃ t, exec (.reloadDone le (some dac)) s = .next t ∧ t.runState le.val = 3 ∧
      t.g (F.ERR_code (lep le.val 0x10)) = if dac then 0x85 else 0x87) ∧
  (∀ (le : Fin 2) (s : State), settled s → s.runState le.val = 2 → s.on (F.LE_TX_PLAN_STAT_timed_pending le.val) = true →
    s.on (F.PAGE_STAT_commit_pending (lep le.val 0x10)) = true → s.on (F.PAGE_STAT_commit_armed (lep le.val 0x10)) = false → engineBarred le.val s = false →
    ∃ t, exec (.timedChangeApply le) s = .next t ∧ t.on (F.LE_TX_PLAN_STAT_timed_pending le.val) = false ∧
      t.g (F.COMMIT_seq (lep le.val 0x10)) = (s.g (F.COMMIT_seq (lep le.val 0x10)) + 1) % 256 ∧ t.sticky (lep le.val 0x14) 0)

/-- R144 to R147: a measurement counts the bins over their limits; a persistent one violates the mask; writing 1s to the muted bits frees
those subcarriers.
Log entry 194: the model's choices in it. -/
def Obligations.MaskCommandsRun : Prop :=
  (∀ (le : Fin 2) (psd : List (Fin 256 × Int)) (s : State), s.runState le.val = 2 → s.pageOn (lep le.val 0x15) = true →
    s.cur (F.LE_TX_MASK_CTRL_action le.val) ≠ 0 →
    ∃ t, exec (.maskMeasurement le psd) s = .next t ∧
      t.g (F.LE_TX_MASK_STAT_bins_over le.val) = (psd.filter fun e => maskExcess s le.val e.1.val e.2 ≠ 0).length % 512 ∧
      ((∃ e ∈ psd, maskExcess s le.val e.1.val e.2 ≠ 0) → s.cur (F.LE_TX_MASK_CTRL_persist le.val) ≤ 1 →
        t.on (F.LE_TX_MASK_STAT_violation le.val) = true)) ∧
  (∀ (m : Master) (le : Fin 2) (bits : Word) (s : State), s.reaches m (lep le.val 0x15) = true → s.domainUp (lep le.val 0x15) = true →
    ∃ t, exec (.maskUnmute m le bits) s = .next t ∧
      t.g (F.LE_TX_MASK_MUTED_muted le.val) = (s.g (F.LE_TX_MASK_MUTED_muted le.val) &&& (bits.toNat ^^^ 0xFFFFFFFF)) % 2 ^ 32)

/-- R170, R173, R187, R191, R205: the events that move an engine's receive state.
Log entry 209: the model's choices in it. -/
def Obligations.AcquisitionMovesStates : Prop :=
  (∀ (le : Fin 2) (optical : Bool) (s : State), rxOn le s → s.runState le.val = 2 → s.role le.val ≠ 2 → (optical = true → s.curOn (F.LE_RX_LOS_CTRL_los_opt le.val) = true) →
    ∃ t, exec (.losRawSet le optical) s = .next t ∧ t.on (F.LE_RX_STATE_los_raw le.val) = true ∧ rxState le t = min 1 (rxState le s)) ∧
  (∀ (le : Fin 2) (s : State), rxOn le s → rxState le s = 1 → s.role le.val = 2 ∨
    (s.on (F.LE_RX_STATE_los_raw le.val) = false ∧ s.curOn (F.LE_RX_LOS_CTRL_los_opt le.val) = false) →
    ∃ t, exec (.signalDetected le) s = .next t ∧ rxState le t = if s.role le.val = 2 then 3 else acqStart s le.val) ∧
  (∀ (le : Fin 2) (cd : Int) (s : State), rxOn le s → rxState le s = 2 → ∃ t, exec (.cdScanEnd le (some cd)) s = .next t ∧ rxState le t = 3 ∧
    t.sticky (lep le.val 0x1B) 0 ∧ t.g (F.LE_RX_CD_EST_cd le.val) =
      (if s.curOn (F.LE_RX_CD_CTRL_cd_mode le.val) then s.cur (F.LE_RX_CD_SET_cd_set le.val) % 2 ^ 21 else unsigned 21 cd)) ∧
  (∀ (le : Fin 2) (s : State), rxState le s = 2 → ∃ t, exec (.cdScanEnd le none) s = .next t ∧ rxState le t = 2 ∧ t.sticky (lep le.val 0x1B) 1 ∧
    t.sticky (lep le.val 0x18) 7) ∧
  (∀ (le : Fin 2) (kHz : Int) (s : State), rxOn le s → rxState le s = 3 → s.role le.val ≠ 2 → kHz.natAbs ≤ 3000000 →
    ∃ t, exec (.freqOffsetFound le kHz) s = .next t ∧ rxState le t = 4 ∧ t.g (F.LE_RX_CR_COMMON_offset le.val) = unsigned 32 kHz) ∧
  (∀ (le : Fin 2) (kHz : Int) (s : State), rxOn le s → rxState le s = 3 → s.role le.val = 2 →
    ∃ t, exec (.freqOffsetFound le kHz) s = .next t ∧ rxState le t = 6 ∧ t.g (F.LE_RX_CR_COMMON_offset le.val) = 0) ∧
  (∀ (le : Fin 2) (s : State), rxOn le s → rxState le s = 3 → ∃ t, exec (.freqAcqTimeout le) s = .next t ∧ rxState le t = acqStart s le.val ∧
    t.sticky (lep le.val 0x1B) 4 ∧ t.sticky (lep le.val 0x18) 7) ∧
  (∀ (le : Fin 2) (s : State), rxOn le s → rxState le s = 4 → ∃ t, exec (.scAcqTimeout le) s = .next t ∧ rxState le t = acqStart s le.val) ∧
  (∀ (le : Fin 2) (s : State), rxOn le s → rxState le s = 5 → s.g (F.LE_RX_SC_LOCK_lock le.val) = 0 → ∃ t, exec (.engineLockLoss le) s = .next t ∧
    rxState le t = 3 ∧
    (s.curOn (F.LE_RX_CD_CTRL_cd_mode le.val) = false → t.g (F.LE_RX_CD_EST_cd le.val) = s.g (F.LE_RX_CD_EST_cd le.val))) ∧
  (∀ (le : Fin 2) (s : State), rxOn le s → rxState le s = 5 → ∃ t, exec (.freqLimitExceeded le) s = .next t ∧ rxState le t = 3 ∧ t.sticky (lep le.val 0x1B) 4)

/-- R171, R172, R187, R190, R192: the events of one subcarrier, and CD tracking.
Log entries 164, 206, 209: the model's choices in it. -/
def Obligations.SubcarriersMoveStates : Prop :=
  (∀ (le : Fin 2) (k : Fin 32) (s : State), s.scOf le.val k.val = 1 → ∃ t, exec (.scConverged le k) s = .next t ∧ t.scOf le.val k.val = 2) ∧
  (∀ (le : Fin 2) (k : Fin 32) (s : State), s.scOf le.val k.val = 1 → ∃ t, exec (.scConvergeTimeout le k) s = .next t ∧
    t.scOf le.val k.val = 1 ∧ Tbl.get none (t.eng le.val).rx.eq k.val = some (centreSpike (eqTaps (rxScCount s.inForce le.val)))) ∧
  (∀ (le : Fin 2) (k : Fin 32) (conjugate : Bool) (s : State), rxOn le s → s.scOf le.val k.val = 2 → ∃ t, exec (.pilotSyncFound le k conjugate) s = .next t ∧
    t.scOf le.val k.val = 3 ∧ (t.g (F.LE_RX_SC_LOCK_lock le.val)).testBit k.val = true ∧
    rxState le t = (if rxState le s = 4 then 5 else rxState le s)) ∧
  (∀ (le : Fin 2) (k : Fin 32) (s : State), s.scOf le.val k.val = 2 → ∃ t, exec (.pilotSyncTimeout le k) s = .next t ∧ t.scOf le.val k.val = 1) ∧
  (∀ (le : Fin 2) (k : Fin 32) (s : State), s.scOf le.val k.val = 3 → ∃ t, exec (.scLockLost le k) s = .next t ∧ t.scOf le.val k.val = 1 ∧
    (t.g (F.LE_RX_SC_LOCK_lock le.val)).testBit k.val = false ∧ (t.g (F.LE_RX_SC_LOCK_LOST_lost le.val)).testBit k.val = true ∧
    t.sticky (lep le.val 0x18) 2) ∧
  (∀ (le : Fin 2) (k : Fin 32) (s : State), s.scOf le.val k.val ≠ 0 → ∃ t, exec (.singular le k) s = .next t ∧ t.sticky (lep le.val 0x1B) 2 ∧
    t.scOf le.val k.val = s.scOf le.val k.val) ∧
  (∀ (le : Fin 2) (k : Fin 32) (s : State), s.scOf le.val k.val = 3 → ∃ t, exec (.cycleSlip le k) s = .next t ∧ t.sticky (lep le.val 0x1B) 3 ∧
    t.scOf le.val k.val = 3 ∧
    Tbl.get 0 (t.eng le.val).rx.slips k.val = Tbl.get 0 (s.eng le.val).rx.slips k.val + 1) ∧
  (∀ (le : Fin 2) (residual : Int) (s : State), s.curOn (F.LE_RX_CD_CTRL_track le.val) = true → s.curOn (F.LE_RX_CD_CTRL_cd_mode le.val) = false →
    rxState le s = 5 → 500 < residual.natAbs → ∃ t, exec (.cdTrackStep le residual) s = .next t ∧
    t.g (F.LE_RX_CD_EST_cd le.val) = unsigned 21 (signed 21 (s.g (F.LE_RX_CD_EST_cd le.val)) + if 0 < residual then 200 else -200))

/-- R168, R169, R179 to R185, R195 to R199: announced entropy, reflections, quality.
Log entries 195, 205: the model's choices in it. -/
def Obligations.FollowReflectionQualityRun : Prop :=
  (∀ (le : Fin 2) (body : List Byte) (s : State), anyInFrame s le.val = true → body.length = 12 →
    leNat body 8 4 = crc32c (body.take 8) → ∃ t, exec (.entropyAnn le body) s = .next t ∧
    t.g (F.LE_RX_FOLLOW_STAT_entropy_announced le.val) = byteAt body 0 ∧
    (s.curOn (F.LE_RX_PLAN_follow le.val) = true → t.on (F.LE_RX_PLAN_STAT_follow_pending le.val) = true ∧
      t.g (F.LE_RX_FOLLOW_AT_frame le.val) = leNat body 4 4)) ∧
  (∀ (le : Fin 2) (s : State), s.on (F.LE_RX_PLAN_STAT_follow_pending le.val) = true →
    frameDue s le.val (s.g (F.LE_RX_FOLLOW_AT_frame le.val)) = true → ∃ t, exec (.followApply le) s = .next t ∧
    t.cur (F.LE_RX_PLAN_entropy le.val) = s.g (F.LE_RX_FOLLOW_STAT_entropy_announced le.val) % 256 ∧
    t.stg (F.LE_RX_PLAN_entropy le.val) = s.g (F.LE_RX_FOLLOW_STAT_entropy_announced le.val) % 256 ∧
    t.on (F.LE_RX_PLAN_STAT_follow_pending le.val) = false ∧ t.sticky (lep le.val 0x18) 3) ∧
  (∀ (le : Fin 2) (s : State), (s.eng le.val).rx.alternating = true → ∃ t, exec (.followAlternate le) s = .next t ∧
    (t.eng le.val).rx.usesAnnounced = !(s.eng le.val).rx.usesAnnounced ∧
    t.g (F.LE_RX_PLAN_STAT_entropy_active le.val) = (if (s.eng le.val).rx.usesAnnounced then s.cur (F.LE_RX_PLAN_entropy le.val)
      else s.g (F.LE_RX_FOLLOW_STAT_entropy_announced le.val)) % 256) ∧
  (∀ (le : Fin 2) (s : State), (s.eng le.val).rx.alternating = true → ∃ t, exec (.followGiveUp le) s = .next t ∧
    (t.eng le.val).rx.alternating = false ∧ t.g (F.LE_RX_PLAN_STAT_entropy_active le.val) = s.cur (F.LE_RX_PLAN_entropy le.val) % 256) ∧
  (∀ (le : Fin 2) (r : Fin 8) (peak : Nat) (level : Int) (s : State), reflAuto s le.val = true →
    samplesPer10ns s le.val * s.cur (F.LE_RX_REFL_WIN_win_min le.val) ≤ peak → peak ≤ samplesPer10ns s le.val * s.cur (F.LE_RX_REFL_WIN_win_max le.val) →
    -(5 * (s.cur (F.LE_RX_REFL_CTRL_threshold le.val) : Int)) < level → r.val ≤ s.cur (F.LE_RX_REFL_CTRL_max_refl le.val) →
    (∀ i, i ≤ s.cur (F.LE_RX_REFL_CTRL_max_refl le.val) → s.g (F.LE_RX_REFL_STAT_state le.val i) < 2) → s.g (F.LE_RX_REFL_STAT_state le.val r.val) = 0 →
    (∀ i, i < r.val → s.g (F.LE_RX_REFL_STAT_state le.val i) ≠ 0) → ∃ t, exec (.reflCandidate le peak level) s = .next t ∧
      t.g (F.LE_RX_REFL_STAT_state le.val r.val) = 1 ∧ t.g (F.LE_RX_REFL_STAT_delay le.val r.val) = (peak - 24) % 2 ^ 22) ∧
  (∀ (le : Fin 2) (r : Fin 8) (level suppression : Int) (s : State), s.g (F.LE_RX_REFL_STAT_state le.val r.val) = 1 →
    ∃ t, exec (.reflCandidateEnd le r level suppression) s = .next t ∧
      t.g (F.LE_RX_REFL_STAT_state le.val r.val) = (if 60 ≤ suppression then 2 else 0) ∧
      (60 ≤ suppression → t.g (F.LE_RX_REFL_LVL_level le.val r.val) = unsigned 16 level ∧ t.sticky (lep le.val 0x1A) 0)) ∧
  (∀ (le : Fin 2) (r : Fin 8) (s : State), s.g (F.LE_RX_REFL_STAT_state le.val r.val) = 2 → ∃ t, exec (.reflLost le r) s = .next t ∧
    t.g (F.LE_RX_REFL_STAT_state le.val r.val) = 0 ∧ t.sticky (lep le.val 0x1A) 1) ∧
  (∀ (le : Fin 2) (r : Fin 8) (offset : Int) (s : State), s.g (F.LE_RX_REFL_STAT_state le.val r.val) = 2 → 8 < offset.natAbs →
    ∃ t, exec (.reflDelayMove le r offset) s = .next t ∧ t.g (F.LE_RX_REFL_STAT_delay le.val r.val) =
      ((s.g (F.LE_RX_REFL_STAT_delay le.val r.val) : Int) + offset).toNat % 2 ^ 22) ∧
  (∀ (le : Fin 2) (q : List (Fin 32 × Quality)) (s : State), ∃ t, exec (.qualInterval le q) s = .next t ∧ (t.eng le.val).rx.slips = [] ∧
    t.sticky (lep le.val 0x1C) 0 ∧ t.g (F.LE_RX_QUAL_SEQ_seq le.val) = (s.g (F.LE_RX_QUAL_SEQ_seq le.val) + 1) % 2 ^ 32)

/-- R211, R219, R220, R225, R232: what a leaf does with the messages of its hub, with LEAF_CLR and with a trip of its self-guard.
Log entries 166, 214, 216: the model's choices in it. -/
def Obligations.LeafMessagesTaken : Prop :=
  (∀ (le : Fin 2) (id : Fin 512) (tag : BitVec 24) (home : Fin 32) (ro : BitVec 20) (s : State), isLeaf s le.val = true → leafState s le.val = 2 →
    tag.toNat / 4 = s.g F.ENC_SERIAL_LO_serial % 2 ^ 24 / 4 → (s.cur (F.LE_RX_SC_EN_en le.val)).testBit home.val = true →
    ∃ t, exec (.assign le id tag home ro) s = .next t ∧ leafState t le.val = 3 ∧ t.g (F.LE_P2MP_LEAF_STAT_leaf_id le.val) = id.val ∧
      t.g (F.LE_P2MP_LEAF_STAT_home le.val) = home.val ∧ t.g (F.LE_P2MP_LEAF_RO_ro le.val) = ro.toNat ∧ t.sticky (lep le.val 0x22) 0) ∧
  (∀ (le : Fin 2) (id : Fin 512) (done : Bool) (change seq : BitVec 16) (tag : List Byte) (s : State), hears le id false s → leafState s le.val = 3 →
    ∃ t, exec (.rangeAdj le id done change seq tag) s = .next t ∧ leafState t le.val = (if done then 4 else 3) ∧
      t.g (F.LE_P2MP_LEAF_RO_ro le.val) = unsigned 20 ((s.g (F.LE_P2MP_LEAF_RO_ro le.val) : Int) + change.toInt)) ∧
  (∀ (le : Fin 2) (id : Fin 512) (change seq : BitVec 16) (tag : List Byte) (s : State), hears le id false s → leafState s le.val = 4 →
    ∃ t, exec (.powerAdj le id change seq tag) s = .next t ∧ leafState t le.val = 4 ∧ t.g (F.LE_P2MP_LEAF_GAIN_gain le.val) =
      unsigned 9 (clampI (-240) 120 (signed 9 (s.g (F.LE_P2MP_LEAF_GAIN_gain le.val)) + change.toInt))) ∧
  (∀ (le : Fin 2) (id : Fin 512) (seq : BitVec 16) (tag : List Byte) (s : State), hears le id false s → leafState s le.val = 3 ∨ leafState s le.val = 4 →
    ∃ t, exec (.quiesce le id seq tag) s = .next t ∧ leafState t le.val = 5 ∧ t.sticky (lep le.val 0x22) 2) ∧
  (∀ (le : Fin 2) (id : Fin 512) (seq : BitVec 16) (tag : List Byte) (s : State), hears le id false s → leafState s le.val = 5 →
    ∃ t, exec (.release le id seq tag) s = .next t ∧ leafState t le.val = 3) ∧
  (∀ (le : Fin 2) (id : Fin 512) (seq : BitVec 16) (tag : List Byte) (s : State), hears le id false s → leafState s le.val ≠ 0 →
    ∃ t, exec (.deregister le id seq tag) s = .next t ∧ leafState t le.val = 2 ∧ t.g (F.LE_P2MP_LEAF_STAT_leaf_id le.val) = 0x3FF ∧
      t.g (F.LE_P2MP_LEAF_RO_ro le.val) = s.g (F.LE_P2MP_LEAF_RO_ro le.val) ∧ t.g (F.LE_P2MP_LEAF_STAT_home le.val) = s.g (F.LE_P2MP_LEAF_STAT_home le.val)) ∧
  (∀ (le : Fin 2) (id : Fin 512) (seq : BitVec 16) (tag : List Byte) (s : State), hears le id true s →
    ∃ t, exec (.deregister le id seq tag) s = .next t ∧ leafState t le.val = leafState s le.val ∧ t.sticky (lep le.val 0x22) 6) ∧
  (∀ (m : Master) (le : Fin 2) (s : State), s.admits m (lep le.val 0x22) false → isLeaf s le.val = true → leafState s le.val = 5 →
    ∃ t, exec (.leafClr m le) s = .next t ∧ leafState t le.val = 3 ∧ (t.eng le.val).p2mp.selfOff = false) ∧
  (∀ (le : Fin 2) (s : State), isLeaf s le.val = true → s.curOn (F.LE_P2MP_LEAF_CTRL_self_guard le.val) = true → leafState s le.val ≠ 0 →
    inGrant s le.val = false → ∃ t, exec (.selfGuardTrip le) s = .next t ∧ leafState t le.val = 5 ∧ (t.eng le.val).p2mp.selfOff = true ∧ t.sticky (lep le.val 0x22) 4)

/-- R207, R210, R213, R216, R220 to R222, R225: the map, the bursts and the timers of a leaf.
Log entries 211, 212: the model's choices in it. -/
def Obligations.LeafBurstsAndTimers : Prop :=
  (∀ (le : Fin 2) (k : Fin 32) (latch : BitVec 64) (seg : List Byte) (s : State), isLeaf s le.val = true → 2 ≤ Tbl.get 0 (s.eng le.val).glf.frame k.val →
    seg.length = 20 + 8 * byteAt seg 14 → byteAt seg 14 ≤ 16 → leNat seg (seg.length - 4) 4 = crc32c (seg.take (seg.length - 4)) →
    ∃ t, exec (.mapSegment le k latch seg) s = .next t ∧ (t.eng le.val).p2mp.segs = (s.eng le.val).p2mp.segs + 1 ∧
      (t.eng le.val).p2mp.stamp = leNat seg 4 8 ∧ (t.eng le.val).p2mp.latch = latch.toNat) ∧
  (∀ (le : Fin 2) (g : BitVec 64) (start : Nat) (s : State), (s.eng le.val).p2mp.held.find? (fun e => e.2 == g.toNat) = some (start, g.toNat) →
    burstReady s le.val = true → gLeaf g.toNat = s.g (F.LE_P2MP_LEAF_STAT_leaf_id le.val) →
    leafState s le.val = 4 → gType g.toNat ≤ 1 → ∃ t, exec (.burstTransmit le g) s = .next t ∧
      (t.eng le.val).p2mp.burstSeq = ((s.eng le.val).p2mp.burstSeq + 1) % 256 ∧
      ((t.eng le.val).p2mp.sent.map fun x => x.2.1) = some g.toNat ∧
      t.g (F.LE_P2MP_LEAF_CNT_count le.val 0) = min (s.g (F.LE_P2MP_LEAF_CNT_count le.val 0) + 1) 0xFFFFFFFF) ∧
  (∀ (le : Fin 2) (g : BitVec 64) (start : Nat) (s : State), chosenWindow s le.val = some (start, g.toNat) → burstReady s le.val = true → leafState s le.val = 2 →
    (s.eng le.val).p2mp.waiting = none → ∃ t, exec (.discoveryBurst le g) s = .next t ∧ (t.eng le.val).p2mp.waiting = some s.now ∧
      t.g (F.LE_P2MP_LEAF_CNT_count le.val 3) = min (s.g (F.LE_P2MP_LEAF_CNT_count le.val 3) + 1) 0xFFFFFFFF) ∧
  (∀ (le : Fin 2) (since : Nat) (s : State), (s.eng le.val).p2mp.waiting = some since → leafState s le.val = 2 →
    ∃ t, exec (.discoveryWaitExpiry le) s = .next t ∧ (t.eng le.val).p2mp.waiting = none ∧ leafState t le.val = 2) ∧
  (∀ (le : Fin 2) (s : State), isLeaf s le.val = true → ∃ t, exec (.segmentLossDark le) s = .next t ∧ (t.eng le.val).tx.live = false ∧ (t.eng le.val).p2mp.segDark = true) ∧
  (∀ (le : Fin 2) (s : State), isLeaf s le.val = true → 2 ≤ leafState s le.val → ∃ t, exec (.mapLost le) s = .next t ∧ leafState t le.val = 1 ∧
    (t.eng le.val).p2mp.held = [] ∧ t.sticky (lep le.val 0x22) 3) ∧
  (∀ (le : Fin 2) (s : State), isLeaf s le.val = true → leafState s le.val = 1 → s.g (F.LE_P2MP_LEAF_STAT_leaf_id le.val) ≠ 0x3FF →
    ∃ t, exec (.leafIdExpire le) s = .next t ∧ leafState t le.val = 1 ∧ t.g (F.LE_P2MP_LEAF_STAT_leaf_id le.val) = 0x3FF ∧
      t.g (F.LE_P2MP_LEAF_RO_ro le.val) = 0)

/-- R216, R217, R219, R223, R230, R231, R237: the hub's map, leaf messages, leaf states and records.
Log entries 165, 169, 171, 215: the model's choices in it. -/
def Obligations.HubCommandsRun : Prop :=
  (∀ (le : Fin 2) (s : State), isHub s le.val = true → ∃ t, exec (.mapBuild le) s = .next t ∧
    (t.eng le.val).p2mp.lastBuilt = some (nextBuild s le.val) ∧
    ((t.eng le.val).p2mp.built.getLast?.map fun e => e.1) = some (nextBuild s le.val + s.cur (F.LE_P2MP_HUB_CTRL_map_lead le.val))) ∧
  (∀ (m : Master) (le : Fin 2) (s : State), s.admits m (lep le.val 0x21) false → (s.eng le.val).p2mp.msgs.length < 32 →
    ∃ t, exec (.lmsgGo m le) s = .next t ∧ (t.eng le.val).p2mp.msgs = (s.eng le.val).p2mp.msgs ++
      [{ type := s.g (F.LE_P2MP_LMSG_0_type le.val), leaf := s.g (F.LE_P2MP_LMSG_0_leaf_id le.val), tag := (if s.g (F.LE_P2MP_LMSG_0_type le.val) = 1 then s.g (F.LE_P2MP_LMSG_1_tag le.val) else 0),
         arg := (if 4 ≤ s.g (F.LE_P2MP_LMSG_0_type le.val) ∧ s.g (F.LE_P2MP_LMSG_0_type le.val) ≤ 6 then 0 else s.g (F.LE_P2MP_LMSG_2_arg le.val)), seq := (s.eng le.val).p2mp.msgSeq }]) ∧
  (∀ (m : Master) (le : Fin 2) (s : State), s.admits m (lep le.val 0x21) false → 32 ≤ (s.eng le.val).p2mp.msgs.length →
    ∃ t, exec (.lmsgGo m le) s = .next t ∧ (t.eng le.val).p2mp.msgs = (s.eng le.val).p2mp.msgs ∧ t.on (F.LE_P2MP_LMSG_STAT_overrun le.val) = true) ∧
  (∀ (le : Fin 2) (i : Fin 512) (s : State), isHub s le.val = true → leafSt s le.val i.val = 1 → (s.eng le.val).p2mp.msgs.length < 32 →
    ∃ t, exec (.leafMsgRepeat le i) s = .next t ∧ (leafHub t le.val i.val).sends = (leafHub s le.val i.val).sends + 1 ∧
      ((t.eng le.val).p2mp.msgs.map fun m => (m.type, m.leaf)) = ((s.eng le.val).p2mp.msgs.map fun m => (m.type, m.leaf)) ++ [(1, i.val)]) ∧
  (∀ (le : Fin 2) (i : Fin 512) (s : State), isHub s le.val = true → leafSt s le.val i.val = 3 → 4 ≤ (missedGrants s le.val i.val).length →
    ∃ t, exec (.burstLossDetect le i) s = .next t ∧
    leafSt t le.val i.val = 5 ∧ (t.g (F.EVT_RAW (lep le.val 0x20))).testBit 4 = true) ∧
  (∀ (le : Fin 2) (i : Fin 512) (s : State), ∃ t, exec (.rogueDecay le i) s = .next t ∧
    t.g (F.LE_P2MP_LEAF_ST_score le.val (i.val / 256) (i.val % 256)) = (s.g (F.LE_P2MP_LEAF_ST_score le.val (i.val / 256) (i.val % 256)) - 1) % 256 ∧
    (s.g (F.LE_P2MP_LEAF_ST_score le.val (i.val / 256) (i.val % 256)) ≤ 1 →
      t.on (F.LE_P2MP_LEAF_ST_rogue le.val (i.val / 256) (i.val % 256)) = false)) ∧
  (∀ (m : Master) (le : Fin 2) (a b c d : Nat) (rest : List (Nat × Nat × Nat × Nat)) (s : State), s.admits m (lep le.val 0x21) false →
    (s.eng le.val).p2mp.brec = (a, b, c, d) :: rest → ∃ t, exec (.brecPop m le) s = .next t ∧ (t.eng le.val).p2mp.brec = rest ∧
      t.g (F.LE_P2MP_BREC_1_arrival le.val) = b % 2 ^ 32 ∧ t.g (F.LE_P2MP_BREC_3_bits le.val) = d % 2 ^ 32)

/-- R226 to R229, R231: Lookout follows a burst from its preamble over its header to its end, and watches idle bands.
Log entries 168, 213: the model's choices in it. -/
def Obligations.LookoutFollowsBursts : Prop :=
  (∀ (le : Fin 2) (sc : Fin 32) (bands : List (Fin 3 × Fin 4)) (found : List (BitVec 9 × BitVec 16)) (w : Fin 3) (band : Fin 4) (rho : BitVec 8)
    (arrival : BitVec 64) (s : State), firedOk bands found = true →
    bestDetector (s.cur (F.LE_P2MP_LOOKOUT_det_thr le.val)) (bands.zip found) = some (w, band) → isHub s le.val = true → upMode s.inForce le.val sc.val = 1 →
    (∀ r ∈ (s.eng le.val).p2mp.recv, r.mode ≤ 1 → r.sc = sc.val → bandsOverlap w.val band.val r.w r.band = false) →
    ∃ t, exec (.preambleDetect le sc bands found rho arrival) s = .next t ∧ (t.eng le.val).p2mp.recv = (s.eng le.val).p2mp.recv ++
      [{ sc := sc.val, w := w.val, band := band.val, rho := rho.toNat, arrival := arrival.toNat, mode := 0,
         cd := burstCd s le.val sc.val w.val band.val arrival.toNat }]) ∧
  (∀ (le : Fin 2) (sc : Fin 32) (w : Fin 3) (band : Fin 4) (hdr : BitVec 64) (r : Recv) (s : State), bandOk w band = true →
    findRecv s le.val sc.val w.val band.val (fun r => r.mode != 1) = some r → r.mode = 0 → hdrValid s le.val hdr.toNat = true →
    ∃ t, exec (.burstHeaderDecode le sc w band hdr) s = .next t ∧
      ∃ x ∈ (t.eng le.val).p2mp.recv, x.mode = 1 ∧ x.hdr = hdr.toNat ∧ x.sc = sc.val ∧ x.w = w.val ∧ x.band = band.val) ∧
  (∀ (le : Fin 2) (sc : Fin 32) (w : Fin 3) (band : Fin 4) (hdr : BitVec 64) (r : Recv) (s : State), bandOk w band = true →
    findRecv s le.val sc.val w.val band.val (fun r => r.mode != 1) = some r → r.mode = 0 → hdrValid s le.val hdr.toNat = false →
    ∃ t, exec (.burstHeaderDecode le sc w band hdr) s = .next t ∧ (t.eng le.val).p2mp.recv = (s.eng le.val).p2mp.recv.erase r ∧
      t.g (F.LE_P2MP_CNT_count le.val 4) = min (s.g (F.LE_P2MP_CNT_count le.val 4) + 1) 0xFFFFFFFF) ∧
  (∀ (le : Fin 2) (sc : Fin 32) (w : Fin 3) (band : Fin 4) (evm : BitVec 16) (power : Int) (failed : Nat) (cd : Int) (r : Recv) (s : State),
    bandOk w band = true → findRecv s le.val sc.val w.val band.val (fun r => r.mode == 1) = some r →
    ∃ t, exec (.burstRxDone le sc w band evm power failed cd) s = .next t ∧ (t.eng le.val).p2mp.recv = (s.eng le.val).p2mp.recv.erase r ∧
      (failed = 0 → t.g (F.LE_P2MP_CNT_count le.val 0) = min (s.g (F.LE_P2MP_CNT_count le.val 0) + 1) 0xFFFFFFFF) ∧
      (failed ≠ 0 → t.g (F.LE_P2MP_CNT_count le.val 1) = min (s.g (F.LE_P2MP_CNT_count le.val 1) + 1) 0xFFFFFFFF)) ∧
  (∀ (le : Fin 2) (sc : Fin 32) (w : Fin 3) (band : Fin 4) (power : Int) (s : State), bandOk w band = true → isHub s le.val = true →
    -(5 * (s.cur (F.LE_P2MP_LEVEL_idle_thr le.val) : Int)) < powerDev s le.val w.val power →
    Tbl.get 0 (s.eng le.val).p2mp.idle (sc.val * 16 + w.val * 4 + band.val) = 7 →
    ∃ t, exec (.idleMeasure le sc w band power) s = .next t ∧ t.g (F.LE_P2MP_IDLE_BAND_sc le.val) = sc.val ∧
      t.g (F.LE_P2MP_IDLE_BAND_width le.val) = w.val ∧ t.g (F.LE_P2MP_IDLE_BAND_band le.val) = band.val ∧ t.sticky (lep le.val 0x20) 5) ∧
  (∀ (le : Fin 2) (sc : Fin 32) (w : Fin 3) (band : Fin 4) (power : Int) (s : State), bandOk w band = true → isHub s le.val = true →
    powerDev s le.val w.val power ≤ -(5 * (s.cur (F.LE_P2MP_LEVEL_idle_thr le.val) : Int)) →
    ∃ t, exec (.idleMeasure le sc w band power) s = .next t ∧ Tbl.get 0 (t.eng le.val).p2mp.idle (sc.val * 16 + w.val * 4 + band.val) = 0)

/-- R243, R247 to R249, R252 to R254: code words and decoder tiles.
Log entries 204, 208: the model's choices in it. -/
def Obligations.FecCommandsRun : Prop :=
  (∀ (le : Fin 2) (k : Fin 32) (s : State), s.syncOf le.val k.val = 0 → canHunt s le.val k.val = true →
    ∃ t, exec (.cwCandidateFound le k) s = .next t ∧
      t.syncOf le.val k.val = if s.native le.val then 1 else 2) ∧
  (∀ (le : Fin 2) (k : Fin 32) (d : Decoded) (s : State), s.native le.val = true → s.runState le.val = 2 → s.syncOf le.val k.val = 1 →
    12 ≤ (liveTiles s le.val).length →
    d.shadow = none → ∃ t, exec (.fecBlockDecode le k false d) s = .next t ∧ (t.eng le.val).fec.seq = (s.eng le.val).fec.seq + 1 ∧
      t.syncOf le.val k.val = (if d.unsatisfied && d.outerBad then 0 else if Tbl.get 0 (s.eng le.val).fec.good k.val = 1 then 2 else 1)) ∧
  (∀ (le : Fin 2) (k : Fin 32) (d : Decoded) (s : State), s.native le.val = true → s.runState le.val = 2 → s.syncOf le.val k.val = 2 →
    12 ≤ (liveTiles s le.val).length →
    d.shadow = none → ∃ t, exec (.fecBlockDecode le k false d) s = .next t ∧
      t.syncOf le.val k.val = (if (d.unsatisfied && d.outerBad) = true ∧ Tbl.get 0 (s.eng le.val).fec.bad k.val = 7 then 0 else 2) ∧
      ((d.unsatisfied && d.outerBad) = true → t.sticky (lep le.val 0x30) 3)) ∧
  (∀ (le : Fin 2) (k : Fin 32) (d : Decoded) (s : State), s.native le.val = false → s.runState le.val = 2 → s.syncOf le.val k.val ≠ 0 →
    12 ≤ (liveTiles s le.val).length → d.shadow = none → ∃ t, exec (.fecBlockDecode le k false d) s = .next t ∧
      (t.eng le.val).fec.seq = (s.eng le.val).fec.seq + 1 ∧ t.syncOf le.val k.val = s.syncOf le.val k.val) ∧
  (∀ (le : Fin 2) (inFlight : Fin 3) (tile : Nat) (rest : List Nat) (s : State), (s.eng le.val).fec.waiting = tile :: rest →
    s.g (F.LE_FEC_TILE_SPARE_spare_a le.val) < 26 → tile ≠ s.g (F.LE_FEC_TILE_SPARE_spare_a le.val) →
    ∃ t, exec (.tileSwap le inFlight) s = .next t ∧ (t.eng le.val).fec.waiting = rest ∧
      (t.g (F.LE_FEC_TILE_MAP_map le.val)).testBit (s.g (F.LE_FEC_TILE_SPARE_spare_a le.val)) = true ∧
      (t.g (F.LE_FEC_TILE_MAP_map le.val)).testBit tile = false ∧ t.g (F.LE_FEC_TILE_SPARE_spare_a le.val) = 0x1F ∧
      t.sticky (lep le.val 0x30) 4) ∧
  (∀ (le : Fin 2) (info : List Word) (faults : List Nat) (s : State), s.native le.val = true → ∃ t, exec (.fecEncode le info faults) s = .next t ∧
    (t.eng le.val).fec.lastWord = blocksToNat (faults.foldl flipBit ((fecEncode (s.cur (F.LE_TX_PLAN_fec_oh le.val)) (blocksOf 1000 info)).1 ++
      (fecEncode (s.cur (F.LE_TX_PLAN_fec_oh le.val)) (blocksOf 1000 info)).2))) ∧
  (∀ (le : Fin 2) (info : List Word) (faults : List Nat) (s : State), s.native le.val = false → ∃ t, exec (.fecEncode le info faults) s = .next t ∧
    (t.eng le.val).fec.lastWord = faults.foldl (fun x i => x ^^^ 2 ^ i)
      (Config.standardCode (s.g (F.LE_ROLE_STAT_line_mode_active le.val)) (info.map BitVec.toNat)))

/-- R265, R268 to R270, R277, R281, R282: frames sent and received, slot maps, cells.
Log entries 75, 174, 217, 220: the model's choices in it. -/
def Obligations.FramerCommandsRun : Prop :=
  (∀ (le : Fin 2) (s : State), s.runState le.val = 2 → s.g (F.LE_ROLE_STAT_line_mode_active le.val) = 0 → txStreams s le.val ≠ [] →
    s.role le.val ≠ 4 → s.role le.val ≠ 5 → ∃ t, exec (.glfFrameTx le) s = .next t ∧
      t.g (F.LE_GLF_TX_FC_fc le.val) = (s.eng le.val).tx.fc.toNat ∧ (t.eng le.val).tx.fc = (s.eng le.val).tx.fc + 1) ∧
  (∀ (le : Fin 2) (r : Nat) (f : Relay) (rest : List Relay) (s : State), s.runState le.val = 2 → s.g (F.LE_ROLE_STAT_line_mode_active le.val) = 0 →
    regenSource s le.val = some r → regenBroken s le.val = false → (s.eng le.val).glf.relay = f :: rest →
    ∃ t, exec (.glfFrameTx le) s = .next t ∧ t.g (F.LE_GLF_TX_FC_fc le.val) = f.fc % 2 ^ 32 ∧ (t.eng le.val).glf.relay = rest) ∧
  (∀ (le : Fin 2) (k : Fin 32) (pos : Nat) (hdr partB : List Byte) (jc : List (Fin 32 × Word)) (s : State), s.native le.val = true →
    s.syncOf le.val k.val = 2 →
    Tbl.get 0 (s.eng le.val).glf.frame k.val = 0 → Tbl.get [] (s.eng le.val).glf.cand k.val = [] → fawErrors hdr = 0 → hcsOk (descramble hdr) = true →
    ∃ t, exec (.glfHeaderRx le k pos hdr partB jc) s = .next t ∧ Tbl.get 0 (t.eng le.val).glf.frame k.val = 1 ∧
      Tbl.get [] (t.eng le.val).glf.cand k.val = [{ pos := pos + frameBits, fc := (leNat (descramble hdr) 6 4 + 1) % 2 ^ 32, seen := 1 }]) ∧
  (∀ (le : Fin 2) (k : Fin 32) (pos : Nat) (hdr partB : List Byte) (jc : List (Fin 32 × Word)) (s : State), s.native le.val = true →
    s.syncOf le.val k.val = 2 →
    2 ≤ Tbl.get 0 (s.eng le.val).glf.frame k.val → 3 ≤ fawErrors hdr → ∃ t, exec (.glfHeaderRx le k pos hdr partB jc) s = .next t ∧
      Tbl.get 0 (t.eng le.val).glf.frame k.val = (if 4 ≤ Tbl.get 0 (s.eng le.val).glf.bad k.val then 0 else 3) ∧
      t.g (F.LE_GLF_CNT_count le.val 0) = min (s.g (F.LE_GLF_CNT_count le.val 0) + 1) 0xFFFFFFFF) ∧
  (∀ (le : Fin 2) (k : Fin 32) (body : List Byte) (s : State), s.native le.val = true → body.length = 8 → leNat body 4 4 = crc32c (body.take 4) →
    leNat body 0 4 ≠ mapDigest s.inForce le.val true k.val → ∃ t, exec (.slotMap le k body) s = .next t ∧ t.sticky (lep le.val 0x34) 7 ∧
      t.g (F.LE_GLF_CNT_count le.val 9) = min (s.g (F.LE_GLF_CNT_count le.val 9) + 1) 0xFFFFFFFF) ∧
  (∀ (le : Fin 2) (c : Fin 64) (hdr : BitVec 64) (failed : Bool) (s : State), s.native le.val = true → contValid s.inForce le.val c.val = true →
    s.cur (F.LE_GLF_CONT_CFG_type le.val c.val) ≠ 1 → s.cur (F.LE_GLF_CONT_CFG_kind le.val c.val) ≠ 1 →
    2 ≤ Tbl.get 0 (s.eng le.val).glf.frame (s.cur (F.LE_GLF_CONT_CFG_stream le.val c.val)) →
    (Tbl.get {} (s.eng le.val).glf.cont c.val).cell ≤ 1 → ∃ t, exec (.cellRx le c hdr failed) s = .next t ∧
      (Tbl.get {} (t.eng le.val).glf.cont c.val).cell =
        if hecOk hdr.toNat then (Tbl.get {} (s.eng le.val).glf.cont c.val).cell + 1 else 0)

/-- R294 to R297: what each message and each timer of the member-state protocol does to the group it names.
Log entries 16, 21, 23: the model's choices in it. -/
def Obligations.MemberStateProtocolRuns : Prop :=
  (∀ (body : List Byte) (fits : Bool) (g : Nat) (s : State), mspGroup s 0 1 body = some g → sinkState s g = 0 →
    (∀ m, m < 16 → (leNat body 4 2).testBit m = true → memberInFrame s g m = true) → ∃ t, exec (.propose body fits) s = .next t ∧
      sinkState t g = (if fits then 1 else 0) ∧ (fits = true → (grpSt t g).sinkNext = leNat body 4 2)) ∧
  (∀ (body : List Byte) (g : Nat) (s : State), mspGroup s 1 3 body = some g → mspState s g = 1 → leNat body 4 2 = (grpSt s g).srcNext →
    ∃ t, exec (.accept body) s = .next t ∧ mspState t g = 2 ∧ (grpSt t g).srcNext = (grpSt s g).srcNext) ∧
  (∀ (body : List Byte) (g : Nat) (s : State), mspGroup s 1 4 body = some g → mspState s g = 1 → ∃ t, exec (.reject body) s = .next t ∧
    mspState t g = 0 ∧ t.g F.MAP_MSP_STAT_reason = byteAt body 11 ∧ t.g F.MAP_MSP_STAT_group = g % 64 ∧ t.sticky 0xAA 3) ∧
  (∀ (g : Fin 64) (s : State), mspState s g.val = 1 → ∃ t, exec (.mspProposeTimeout g) s = .next t ∧ mspState t g.val = 0 ∧
    t.g F.MAP_MSP_STAT_group = g.val ∧ t.sticky 0xAA 4) ∧
  (∀ (body : List Byte) (g : Nat) (s : State), mspGroup s 0 2 body = some g → sinkState s g = 1 → (grpSt s g).released = none →
    ∃ t, exec (.arm body) s = .next t ∧ sinkState t g = 2 ∧ (grpSt t g).sinkNext = leNat body 4 2 ∧ (grpSt t g).sinkFc = leNat body 6 4) ∧
  (∀ (g : Fin 64) (s : State), sinkState s g.val = 1 → ∃ t, exec (.mspReadyTimeout g) s = .next t ∧ sinkState t g.val = 0) ∧
  (∀ (body : List Byte) (g : Nat) (s : State), mspGroup s 1 5 body = some g → mspState s g = 0 →
    s.curOn (F.MAP_GRP_CTRL_auto_remove (g / 32) (g % 32)) = true → leNat body 4 2 < 16 → (grpSt s g).src.testBit (leNat body 4 2) = true →
    ∃ t, exec (.reqRemove body) s = .next t ∧ mspState t g = 1 ∧ (grpSt t g).srcNext = (grpSt s g).src - 2 ^ leNat body 4 2 ∧
      target t.inForce g = ((grpSt s g).src - 2 ^ leNat body 4 2) % 65536) ∧
  (∀ (g : Fin 64) (s : State), mspState s g.val = 2 → (s.eng (grpEngine s g.val)).tx.fc.toNat = (grpSt s g.val).srcFc →
    ∃ t, exec (.mspSwitch g) s = .next t ∧ mspState t g.val = 0 ∧ (grpSt t g.val).src = (grpSt s g.val).srcNext ∧ t.sticky 0xAA 2) ∧
  (∀ (body : List Byte) (g : Nat) (s : State), mspGroup s 0 0 body = some g → sinkState s g = 0 → leNat body 2 2 ≠ (grpSt s g).sink →
    ∃ t, exec (.mspStatus body) s = .next t ∧ ((grpSt s g).differ = 2 → (grpSt t g).sink = leNat body 2 2 ∧ t.sticky 0xAA 5) ∧
      ((grpSt s g).differ ≠ 2 → (grpSt t g).differ = (grpSt s g).differ + 1 ∧ (grpSt t g).sink = (grpSt s g).sink)) ∧
  (∀ (g : Fin 64) (s : State), grpValid s.inForce g.val = true → grpPair s.inForce g.val = false → ∃ t, exec (.mspMsgRepeat g false) s = .next t ∧
    (grpSt t g.val).seq = ((grpSt s g.val).seq + 1) % 256 ∧ mspState t g.val = mspState s g.val)

/-- R291 to R293, R298, R299: a group frame is released; defects are declared and cleared with their raw conditions.
Log entry 20: the model's choices in it. -/
def Obligations.DefectsAndDeskewRun : Prop :=
  (∀ (g : Fin 64) (fc : BitVec 32) (late bad : List (Fin 16)) (dd : BitVec 20) (last : Fin 16) (s : State), grpValid s.inForce g.val = true →
    ∃ t, exec (.deskewRelease g fc late bad dd last) s = .next t ∧ (grpSt t g.val).released = some fc.toNat ∧
      t.g (F.MAP_GRP_DD_dd (g.val / 32) (g.val % 32)) = dd.toNat ∧ t.g (F.MAP_GRP_DD_late_member (g.val / 32) (g.val % 32)) = last.val) ∧
  (∀ (d : Fin 12) (x : DefScope) (noFrame : Bool) (s : State), scopeOk d x = true → isDeclared s d.val x = false → defRaw s d.val x = true →
    ∃ t, exec (.defectDeclare d x noFrame) s = .next t ∧ isDeclared t d.val x = true) ∧
  (∀ (d : Fin 12) (x : DefScope) (s : State), scopeOk d x = true → isDeclared s d.val x = true → defRaw s d.val x = false →
    ∃ t, exec (.defectClear d x) s = .next t ∧ isDeclared t d.val x = false)

/-- R305 to R308: what brings a host lane up, and what takes it back to DETECT.
Log entries 175, 225, 226: the model's choices in it. -/
def Obligations.LanesMoveStates : Prop :=
  (∀ (k : Fin 32) (s : State), laneOf s k = 1 → ∃ t, exec (.laneSignalDetect k) s = .next t ∧ laneOf t k = 2 ∧
    t.on (F.HL_LANE_STAT_sig_det (k.val / 8) (k.val % 8)) = true) ∧
  (∀ (k : Fin 32) (inverted : Bool) (snr : Byte) (s : State), laneOf s k = 2 → ∃ t, exec (.cdrConverged k inverted snr) s = .next t ∧
    (s.cur (F.HL_GRP_CTRL_iface (k.val / 8)) = 1 → laneOf t k = 3) ∧
    (s.cur (F.HL_GRP_CTRL_iface (k.val / 8)) ≠ 1 → laneOf t k = 4 ∨ laneOf t k = 6) ∧
    t.on (F.HL_LANE_STAT_cdr_lock (k.val / 8) (k.val % 8)) = true ∧ t.g (F.HL_LANE_STAT_snr (k.val / 8) (k.val % 8)) = snr.toNat) ∧
  (∀ (k : Fin 32) (s : State), laneOf s k = 2 → ∃ t, exec (.cdrTimeout k) s = .next t ∧ laneOf t k = 1) ∧
  (∀ (k : Fin 32) (taps : Word) (s : State), tapsOk taps = true → laneOf s k = 3 → ∃ t, exec (.trainingComplete k taps) s = .next t ∧
    (laneOf t k = 4 ∨ laneOf t k = 6) ∧ t.g (F.HL_LANE_TXFFE_ACT_taps (k.val / 8) (k.val % 8)) = taps.toNat) ∧
  (∀ (k : Fin 32) (s : State), laneOf s k = 3 → ∃ t, exec (.trainFail k) s = .next t ∧ laneOf t k = 1 ∧ t.sticky (0x90 + k.val / 8) 1) ∧
  (∀ (k : Fin 32) (lost : Nat) (s : State), 4 ≤ laneOf s k → ∃ t, exec (.laneFault k lost) s = .next t ∧
    t.g (F.HL_LANE_STAT_retrains (k.val / 8) (k.val % 8)) = (s.g (F.HL_LANE_STAT_retrains (k.val / 8) (k.val % 8)) + 1) % 256 ∧
    t.sticky (0x90 + k.val / 8) 0 ∧ (portOf s (k.val / 8) (k.val % 8) = none → laneOf t k = 1)) ∧
  (∀ (k : Fin 32) (marker : Word) (version lane flags lanes : Byte) (tag : BitVec 24) (port : Byte) (tail : Word) (inverted : Bool)
    (b : List Byte) (p : Nat) (s : State),
    portOf s (k.val / 8) (k.val % 8) = some p → portState s p = 2 →
    capRead (capBits marker version lane flags lanes tag port tail) = some (inverted, b) →
    byteAt b 4 = 1 → byteAt b 7 = portWidth s.inForce p →
    ∃ t, exec (.capabilityFrame k marker version lane flags lanes tag port tail) s = .next t ∧
      (Tbl.get {} t.lanes.exch k.val).valid = (Tbl.get {} s.lanes.exch k.val).valid + 1 ∧
      t.g (F.PORT_PARTNER_tag (p / 8) (p % 8)) = beNat b 8 3 ∧ t.g (F.PORT_PARTNER_port (p / 8) (p % 8)) = byteAt b 11) ∧
  (∀ (k : Fin 32) (marker : Word) (version lane flags lanes : Byte) (tag : BitVec 24) (port : Byte) (tail : Word) (p : Nat) (s : State),
    portOf s (k.val / 8) (k.val % 8) = some p → portState s p = 2 →
    capRead (capBits marker version lane flags lanes tag port tail) = none →
    ∃ t, exec (.capabilityFrame k marker version lane flags lanes tag port tail) s = .next t ∧ (Tbl.get {} t.lanes.exch k.val).valid = 0 ∧ t.fields = s.fields)

/-- R317, R320 to R324: the states of a port, lane sparing and sleep.
Log entries 175, 228: the model's choices in it. -/
def Obligations.PortsMoveStates : Prop :=
  (∀ (p : Fin 32) (s : State), portState s p.val = 2 → ∃ t, exec (.exchangeWindowExpiry p) s = .next t ∧
    portState t p.val = (if portSlm s.inForce p.val = 2 then 2 else 3) ∧
    ((portSt s p.val).anyValid = false → t.g (F.PORT_STAT_exch_result (p.val / 8) (p.val % 8)) = 2) ∧
    t.sticky (0xA0 + p.val / 8) (3 * (p.val % 8) + 2)) ∧
  (∀ (p : Fin 32) (found : PortAlignment) (s : State), portState s p.val = 3 →
    (∀ j ∈ portLanes s p.val, 4 ≤ laneState s (portGroup s.inForce p.val) j) → ∃ t, exec (.portAligned p found) s = .next t ∧
      portState t p.val = 4 ∧ t.sticky (0xA0 + p.val / 8) (3 * (p.val % 8)) ∧ t.on (F.PORT_STAT_spare_used (p.val / 8) (p.val % 8)) = false ∧
      t.on (F.PORT_STAT_gid_mismatch (p.val / 8) (p.val % 8)) =
        (portFlexo s.inForce p.val && found.gid.toNat != s.cur (F.PORT_GID_gid (p.val / 8) (p.val % 8)))) ∧
  (∀ (p : Fin 32) (s : State), portState s p.val = 4 → ∃ t, exec (.alignmentLost p) s = .next t ∧ portState t p.val = 3 ∧
    t.sticky (0xA0 + p.val / 8) (3 * (p.val % 8) + 1) ∧ t.g (F.PORT_CNT_count (p.val / 8) (p.val % 8) 11) =
      min (s.g (F.PORT_CNT_count (p.val / 8) (p.val % 8) 11) + 1) 0xFFFFFFFF) ∧
  (∀ (p : Fin 32) (lane : Fin 8) (seq : Byte) (s : State), portState s p.val = 4 → (portSt s p.val).features.testBit 0 = true →
    ∃ t, exec (.spareReq p lane seq) s = .next t ∧ lane.val ∈ (portSt t p.val).moved ∧ (portSt t p.val).sent.getLast? = some (2, lane.val, seq.toNat)) ∧
  (∀ (p : Fin 32) (lane : Fin 8) (seq : Byte) (s : State), (portSt s p.val).request = some lane.val → (portSt s p.val).reqSeq = seq.toNat →
    ∃ t, exec (.spareAck p lane seq) s = .next t ∧ (portSt t p.val).acked = true ∧ (portSt t p.val).request = some lane.val) ∧
  (∀ (p : Fin 32) (f : Nat) (s : State), (portSt s p.val).request = some f → (portSt s p.val).acked = false →
    ∃ t, exec (.spareReqRepeat p) s = .next t ∧ (portSt t p.val).sent.getLast? = some (1, f, (portSt s p.val).reqSeq)) ∧
  (∀ (p : Fin 32) (lost f sp : Nat) (s : State), (portSt s p.val).request = some f → portSpare s p.val = some sp →
    ∃ t, exec (.spareSwitch p lost) s = .next t ∧ (portSt t p.val).request = none ∧ t.on (F.PORT_STAT_spare_used (p.val / 8) (p.val % 8)) = true ∧
      (portSt t p.val).spare = some (s.g (F.PORT_LANEMAP_map (p.val / 8) (p.val % 8)) / 16 ^ f % 16)) ∧
  (∀ (p : Fin 32) (s : State), portState s p.val = 4 → (portSt s p.val).features.testBit 2 = true → ∃ t, exec (.sleep p) s = .next t ∧
    t.on (F.PORT_STAT_rx_asleep (p.val / 8) (p.val % 8)) = true) ∧
  (∀ (p : Fin 32) (s : State), ∃ t, exec (.wake p) s = .next t ∧ t.on (F.PORT_STAT_rx_asleep (p.val / 8) (p.val % 8)) = false) ∧
  (∀ (p : Fin 32) (s : State), portState s p.val = 4 → (portSt s p.val).features.testBit 2 = true → portCbr s.inForce p.val = false →
    s.curOn (F.PORT_CFG_sleep_en (p.val / 8) (p.val % 8)) = true → s.on (F.PORT_STAT_tx_asleep (p.val / 8) (p.val % 8)) = false →
    ∃ t, exec (.sleepEntry p) s = .next t ∧ t.on (F.PORT_STAT_tx_asleep (p.val / 8) (p.val % 8)) = true ∧
      (portSt t p.val).sent = [(3, 0, ((portSt s p.val).seq + 1) % 256)])

/-- R324, R325, R327, R349, R531: frames at a port that is UP: each adds its bytes to the port's datapath event, or is counted where it is
refused.
Log entry 174: the model's choices in it. -/
def Obligations.PortFramesCounted : Prop :=
  (∀ (p : Fin 32) (len : Nat) (overload : Bool) (line : PortLine) (s : State), portState s p.val = 4 →
    portCbr s.inForce p.val = true ∨ portFlexo s.inForce p.val = true ∨ line.localFault = false →
    ∃ t, exec (.ingressFrame p len overload line) s = .next t ∧
    Tbl.get [] t.ev.incs (8 * p.val + 1) = Tbl.get [] s.ev.incs (8 * p.val + 1) ++ [len] ∧
    (portCbr s.inForce p.val = false → len < 64 → t.g (F.PORT_CNT_count (p.val / 8) (p.val % 8) 1) =
      min (s.g (F.PORT_CNT_count (p.val / 8) (p.val % 8) 1) + 1) 0xFFFFFFFF) ∧
    (portCbr s.inForce p.val = false → 64 ≤ len → s.cur (F.PORT_FRAME_max_frame (p.val / 8) (p.val % 8)) < len →
      t.g (F.PORT_CNT_count (p.val / 8) (p.val % 8) 2) = min (s.g (F.PORT_CNT_count (p.val / 8) (p.val % 8) 2) + 1) 0xFFFFFFFF)) ∧
  (∀ (p : Fin 32) (len : Nat) (overload : Bool) (line : PortLine) (s : State), portState s p.val = 4 → portCbr s.inForce p.val = false →
    portFlexo s.inForce p.val = false → line.localFault = true → ∃ t, exec (.ingressFrame p len overload line) s = .next t ∧
      t.on (F.PORT_STAT_rx_local_fault (p.val / 8) (p.val % 8)) = true ∧
      Tbl.get [] t.ev.incs (8 * p.val + 1) = Tbl.get [] s.ev.incs (8 * p.val + 1)) ∧
  (∀ (p : Fin 32) (len queued idleAdj : Nat) (slip : Bool) (s : State), portState s p.val = 4 → ∃ t, exec (.egressFrame p len queued idleAdj slip) s = .next t ∧
    (portCbr s.inForce p.val = true → Tbl.get [] t.ev.incs (8 * p.val + 3) = Tbl.get [] s.ev.incs (8 * p.val + 3) ++ [len]) ∧
    (idlesAdjusted s p.val = true → t.g (F.PORT_CNT_count (p.val / 8) (p.val % 8) 8) =
      min (s.g (F.PORT_CNT_count (p.val / 8) (p.val % 8) 8) + idleAdj) 0xFFFFFFFF) ∧
    (portCbr s.inForce p.val = false → s.on (F.PORT_STAT_tx_asleep (p.val / 8) (p.val % 8)) = true → 262144 < queued + len →
      t.g (F.PORT_CNT_count (p.val / 8) (p.val % 8) 7) = min (s.g (F.PORT_CNT_count (p.val / 8) (p.val % 8) 7) + 1) 0xFFFFFFFF ∧
      Tbl.get [] t.ev.incs (8 * p.val + 3) = Tbl.get [] s.ev.incs (8 * p.val + 3)) ∧
    (portCbr s.inForce p.val = false → s.on (F.PORT_STAT_tx_asleep (p.val / 8) (p.val % 8)) = false ∨ queued + len ≤ 262144 →
      Tbl.get [] t.ev.incs (8 * p.val + 3) = Tbl.get [] s.ev.incs (8 * p.val + 3) ++ [len] ∧
      t.on (F.PORT_STAT_tx_asleep (p.val / 8) (p.val % 8)) = false))

/-- R330, R338 to R340, R347, R348: passes of a packet, and its way out of the classifier.
Log entries 174, 176: the model's choices in it. -/
def Obligations.PacketsMoveThroughClassifier : Prop :=
  (∀ (p : Fin 32) (frame : List Byte) (fcsBad : Bool) (pipe : Fin 6) (ue : List Nat) (ce : Nat) (differs : Bool) (s : State), portState s p.val = 4 →
    portCbr s.inForce p.val = false → s.g (F.CLS_PIPE_STAT_state pipe.val) = 0 → ∃ t, exec (.firstPass p frame fcsBad pipe ue ce differs) s = .next t ∧
      t.g (F.CLS_PORT_CNT_count (p.val / 8) (p.val % 8) 0) = min (s.g (F.CLS_PORT_CNT_count (p.val / 8) (p.val % 8) 0) + 1) 0xFFFFFFFF ∧
      (differs = true → t.cls.pkts = s.cls.pkts ∧ t.g (F.CLS_CNT_count 1) = min (s.g (F.CLS_CNT_count 1) + 1) 0xFFFFFFFF)) ∧
  (∀ (id : Nat) (pipe : Fin 6) (ue : List Nat) (ce : Nat) (differs : Bool) (q : Pkt) (s : State),
    s.cls.pkts.find? (fun q => q.id == id && q.second.isSome) = some q → s.g (F.CLS_PIPE_STAT_state pipe.val) = 0 →
    ∃ t, exec (.secondPass id pipe ue ce differs) s = .next t ∧ (∀ r ∈ t.cls.pkts, r.id = id → r.second = none) ∧
      t.g (F.CLS_PORT_CNT_count (q.port / 8) (q.port % 8) 1) = min (s.g (F.CLS_PORT_CNT_count (q.port / 8) (q.port % 8) 1) + 1) 0xFFFFFFFF) ∧
  (∀ (id : Nat) (q : Pkt) (s : State), s.cls.pkts.find? (fun q => q.id == id && q.second.isSome) = some q →
    ∃ t, exec (.recircTimeout id) s = .next t ∧ t.cls.pkts = s.cls.pkts.filter (fun r => r.id != id) ∧ t.sticky 0xB0 10 ∧
      t.g (F.CLS_PORT_CNT_count (q.port / 8) (q.port % 8) 7) = min (s.g (F.CLS_PORT_CNT_count (q.port / 8) (q.port % 8) 7) + 1) 0xFFFFFFFF) ∧
  (∀ (id : Nat) (q : Pkt) (s : State), s.cls.pkts.find? (fun q => q.id == id) = some q → q.second = none → waits s.cls.pkts q = false →
    ∃ t, exec (.packetRelease id) s = .next t ∧ t.cls.pkts = s.cls.pkts.filter (fun r => r.id != id) ∧
      (contValid s.inForce (q.action / 2 ^ 123 % 2) (q.action / 2 ^ 117 % 64) = false → t.g (F.CLS_PORT_CNT_count (q.port / 8) (q.port % 8) 8) =
        min (s.g (F.CLS_PORT_CNT_count (q.port / 8) (q.port % 8) 8) + 1) 0xFFFFFFFF))

/-- R342, R344, R345, R351, R352: the rule banks and the pipes. -/
def Obligations.BanksAndPipesRun : Prop :=
  (∀ s : State, s.g (bankSt (1 - activeBank s)) = 2 → (∀ q ∈ s.cls.pkts, q.second = none ∨ q.bank ≠ 1 - activeBank s) →
    ∃ t, exec .bankDrainDone s = .next t ∧ t.g (bankSt (1 - activeBank s)) = 0 ∧ t.sticky 0xB0 1) ∧
  (∀ (m : Master) (s : State), s.admits m 0xB0 false → s.g (bankSt (1 - activeBank s)) = 0 → ∃ t, exec (.clsBankCopy m) s = .next t ∧
    t.g (bankSt (1 - activeBank s)) = 3) ∧
  (∀ (m : Master) (s : State), s.admits m 0xB0 false → s.g (bankSt (1 - activeBank s)) ≠ 0 → s.on (F.ERR_valid 0xB0) = false →
    ∃ t, exec (.clsBankCopy m) s = .next t ∧ t.g (bankSt (1 - activeBank s)) = s.g (bankSt (1 - activeBank s)) ∧ t.g (F.ERR_code 0xB0) = 0xC1) ∧
  (∀ (ue : List (Fin 0x1000000)) (s : State), s.g (bankSt (1 - activeBank s)) = 3 → ∃ t, exec (.copyDone ue) s = .next t ∧
    t.g (bankSt (1 - activeBank s)) = 0 ∧ t.sticky 0xB0 2) ∧
  (∀ (m : Master) (b : Fin 2) (off : BitVec 24) (v : Word) (s : State), s.admits m 0xB0 false → s.g (bankSt b.val) = 0 →
    winMask (off.toNat / 4 * 4) ≠ 0 → ∃ t, exec (.clsWinWrite m b off v) s = .next t ∧
      bankWord t b.val (off.toNat / 4 * 4) = v.toNat &&& winMask (off.toNat / 4 * 4)) ∧
  (∀ (m : Master) (b : Fin 2) (off : BitVec 24) (v : Word) (s : State), s.admits m 0xB0 false → s.g (bankSt b.val) ≠ 0 →
    ∃ t, exec (.clsWinWrite m b off v) s = .next t ∧ t.cls.mem = s.cls.mem ∧ t.sticky 0xB0 6) ∧
  (∀ (p : Fin 6) (s : State), (∀ q, q < 6 → s.g (F.CLS_PIPE_STAT_state q) = 0 ∧ s.on (F.CLS_PIPE_STAT_suspect q) = false) →
    ∃ t, exec (.pipeTestStart p) s = .next t ∧ t.g (F.CLS_PIPE_STAT_state p.val) = 1 ∧ t.g F.CLS_STAT_pipes_active = 5) ∧
  (∀ (p : Fin 6) (ok : Bool) (s : State), s.g (F.CLS_PIPE_STAT_state p.val) = 1 → ∃ t, exec (.pipeTestDone p ok) s = .next t ∧
    t.g (F.CLS_PIPE_STAT_state p.val) = (if ok then 0 else 2) ∧ t.on (F.CLS_PIPE_STAT_suspect p.val) = false ∧ (ok = false → t.sticky 0xB0 3))

/-- R363, R365, R367, R368, R371, R374, R378: words read, written and scrubbed, and the host window, wherever package memory answers.
Log entries 177, 223: the model's choices in it. -/
def Obligations.MemoryWordsMove : Prop :=
  (∀ (n : Fin 528482304) (source : Fin 6) (ups : List (Fin 36 × Byte)) (s : State), memUp s = true →
    ∃ t, exec (.bufMemRead n source ups) s = .next t ∧ wordRead (physAddr s n.val) (upsetWord (physAddr s n.val) ups s) t) ∧
  (∀ (n : Fin 528482304) (mask : Word) (data : BitVec 256) (source : Fin 6) (s : State), memUp s = true →
    ∃ t, exec (.bufMemWrite n mask data source) s = .next t ∧ wordWritten n.val mask.toNat data.toNat s t) ∧
  (∀ (ups : List (Fin 36 × Byte)) (late : Bool) (s : State), memUp s = true → s.on F.BUF_SCRUB_CTRL_en = true →
    ∃ t, exec (.scrubRead ups late) s = .next t ∧ t.buf.scrubNext = t.g F.BUF_SCRUB_STAT_addr + 1 ∧
      t.on F.BUF_SCRUB_STAT_late = late ∧ wordRead (t.g F.BUF_SCRUB_STAT_addr) (upsetWord (t.g F.BUF_SCRUB_STAT_addr) ups s) t) ∧
  (∀ (m : Master) (off : Fin 65536) (s : State), s.reaches m 0xC0 = true → memUp s = true →
    ∃ t, exec (.hostWinRead m off) s = .next t ∧
      let a := physAddr s (s.g F.BUF_WIN_PAGE_page * 2048 + off.val / 32)
      (windowDenied s false (s.g F.BUF_WIN_PAGE_page) = true → t.fab.readData = 0xFFFFFFFF ∧ t.buf = s.buf) ∧
      (windowDenied s false (s.g F.BUF_WIN_PAGE_page) = false → wordRead a s t ∧
        (∀ x, windowFailure (found s a) = some x → t.fab.readData = 0xFFFFFFFF ∧ t.g F.BUF_WIN_STAT_result = x) ∧
        (windowFailure (found s a) = none → t.fab.readData = dataAt s a / 256 ^ (off.val % 32 / 4 * 4) % 2 ^ 32))) ∧
  (∀ (m : Master) (off : Fin 65536) (v : Word) (s : State), s.admits m 0xC0 true → memUp s = true →
    ∃ t, exec (.hostWinWrite m off v) s = .next t ∧
      (windowDenied s true (s.g F.BUF_WIN_PAGE_page) = true → t.buf = s.buf ∧ t.sticky 0xC0 26) ∧
      (windowDenied s true (s.g F.BUF_WIN_PAGE_page) = false → wordWritten (s.g F.BUF_WIN_PAGE_page * 2048 + off.val / 32)
        (15 * 2 ^ (off.val % 32 / 4 * 4)) (v.toNat * 256 ^ (off.val % 32 / 4 * 4)) s t))

/-- R371 to R377: the tracker, injection, error records, retirement, restoring and row repair.
Log entry 178: the model's choices in it. -/
def Obligations.MemoryRepairRuns : Prop :=
  (∀ (m : Master) (s : State), s.admits m 0xC1 false → ∃ t, exec (.hardClr m) s = .next t ∧ t.buf.track = s.buf.track.filter fun e => !e.hard) ∧
  (∀ (m : Master) (s : State), s.admits m 0xC1 false → inRegion s F.BUF_TEST_BASE_page F.BUF_TEST_SIZE_pages (s.g F.BUF_INJ_ADDR_addr / 2048) = true →
    s.buf.inj = none → ∃ t, exec (.injGo m) s = .next t ∧ t.on F.BUF_INJ_CTRL_busy = true ∧ (t.buf.inj.map fun i => i.addr) =
      some (physAddr s (s.g F.BUF_INJ_ADDR_addr))) ∧
  (∀ (i : Inject) (s : State), s.buf.inj = some i → ∃ t, exec .injDone s = .next t ∧ t.buf.inj = none ∧ t.on F.BUF_INJ_CTRL_busy = false ∧
    t.sticky 0xC1 5 ∧ memWord t i.addr = eccEncode i.addrXor (dataAt s i.addr) ^^^ i.flip) ∧
  (∀ (m : Master) (a b c d : Nat) (rest : List (Nat × Nat × Nat × Nat)) (s : State), s.admits m 0xC2 false → s.buf.log = (a, b, c, d) :: rest →
    ∃ t, exec (.bufLogPop m) s = .next t ∧ t.buf.log = rest ∧ t.g (F.BUF_LOG_bits 0) = a % 2 ^ 32 ∧ t.g (F.BUF_LOG_bits 1) = b % 2 ^ 32 ∧
      t.g (F.BUF_LOG_bits 2) = c % 2 ^ 32 ∧ t.g (F.BUF_LOG_bits 3) = d % 2 ^ 32) ∧
  (∀ (m : Master) (i : Nat) (s : State), s.admits m 0xC3 false → s.on F.BUF_RETIRE_op = false → s.on F.DEV_STATUS_mem_trained = true →
    s.g F.BUF_RETIRE_STAT_state = 0 → s.g F.BUF_RETIRE_page ≤ 258047 →
    s.buf.remap.find? (fun e => e.2.1 == 1 && e.2.2 == s.g F.BUF_RETIRE_page) = none →
    (List.range 4096).find? (fun i => (Tbl.get (0, 0) s.buf.remap i).1 == 0) = some i → ∃ t, exec (.retireGo m) s = .next t ∧
      t.g F.BUF_RETIRE_STAT_state = 2 ∧ t.g F.BUF_RETIRE_STAT_result = 0 ∧
      t.buf.ret = some { restore := false, page := s.g F.BUF_RETIRE_page, entry := i } ∧
      Tbl.get (0, 0) t.buf.remap i = (1, s.g F.BUF_RETIRE_page)) ∧
  (∀ (m : Master) (s : State), s.admits m 0xC3 false → s.on F.BUF_RETIRE_op = false → s.on F.DEV_STATUS_mem_trained = true →
    s.g F.BUF_RETIRE_STAT_state ≠ 0 → ∃ t, exec (.retireGo m) s = .next t ∧ t.g F.BUF_RETIRE_STAT_result = 1 ∧ t.buf = s.buf) ∧
  (∀ (m : Master) (e : Nat × Nat × Nat) (s : State), s.admits m 0xC3 false → s.on F.BUF_RETIRE_op = true → s.on F.DEV_STATUS_mem_trained = true →
    s.g F.BUF_RETIRE_STAT_state = 0 → s.g F.BUF_RETIRE_page ≤ 258047 →
    s.buf.remap.find? (fun e => e.2.1 == 1 && e.2.2 == s.g F.BUF_RETIRE_page) = some e → ∃ t, exec (.restoreGo m) s = .next t ∧
      t.g F.BUF_RETIRE_STAT_state = 1 ∧ t.g F.BUF_RETIRE_STAT_result = 0 ∧
      t.buf.ret = some { restore := true, page := s.g F.BUF_RETIRE_page, entry := e.1 }) ∧
  (∀ (ok : Bool) (s : State), s.g F.BUF_RETIRE_STAT_state = 1 → ∃ t, exec (.marchTestDone ok) s = .next t ∧
    t.g F.BUF_RETIRE_STAT_state = (if ok then 2 else 0) ∧ (ok = false → t.g F.BUF_RETIRE_STAT_result = 7 ∧ t.buf.ret = none ∧ t.sticky 0xC3 1)) ∧
  (∀ (r : RetOp) (s : State), s.buf.ret = some r → s.g F.BUF_RETIRE_STAT_state = 2 → ∃ t, exec .retireCopyDone s = .next t ∧
    t.g F.BUF_RETIRE_STAT_state = 3 ∧ t.buf.ret = some r) ∧
  (∀ (r : RetOp) (s : State), s.buf.ret = some r → s.g F.BUF_RETIRE_STAT_state = 3 → ∃ t, exec .retireSwitch s = .next t ∧
    t.g F.BUF_RETIRE_STAT_state = 0 ∧ t.buf.ret = none ∧ t.g F.BUF_RETIRE_STAT_result = 0 ∧ t.sticky 0xC3 0) ∧
  (∀ (m : Master) (s : State), s.admits m 0xC3 false → s.on F.DEV_STATUS_mem_trained = true → s.buf.rowOp = none →
    16 * s.g F.BUF_ROWREP_row + s.g F.BUF_ROWREP_bank < 258048 →
    physPage s (16 * s.g F.BUF_ROWREP_row + s.g F.BUF_ROWREP_bank) ≠ 16 * s.g F.BUF_ROWREP_row + s.g F.BUF_ROWREP_bank →
    Tbl.get 0 s.buf.rowUsed (s.g F.BUF_ROWREP_pc * 16 + s.g F.BUF_ROWREP_bank) < 4 → ∃ t, exec (.rowrepGo m) s = .next t ∧
      t.g F.BUF_ROWREP_STAT_state = 1 ∧ t.g F.BUF_ROWREP_STAT_result = 0 ∧
      t.buf.rowOp = some (s.g F.BUF_ROWREP_pc, s.g F.BUF_ROWREP_bank, s.g F.BUF_ROWREP_row)) ∧
  (∀ s : State, s.g F.BUF_ROWREP_STAT_state = 1 → ∃ t, exec .rowrepStep s = .next t ∧ t.buf.rowSteps = s.buf.rowSteps + 1 ∧
    t.g F.BUF_ROWREP_STAT_state = if s.buf.rowSteps = 63 then 2 else 1) ∧
  (∀ (ok : Bool) (pc bank row : Nat) (s : State), s.buf.rowOp = some (pc, bank, row) → s.g F.BUF_ROWREP_STAT_state = 2 →
    ∃ t, exec (.rowrepTestDone ok) s = .next t ∧ t.g F.BUF_ROWREP_STAT_state = 0 ∧ t.buf.rowOp = none ∧
      Tbl.get 0 t.buf.rowUsed (pc * 16 + bank) = Tbl.get 0 s.buf.rowUsed (pc * 16 + bank) + 1 ∧
      t.g F.BUF_ROWREP_STAT_result = (if ok then 0 else 7) ∧ t.sticky 0xC3 (if ok then 2 else 3))

/-- R384 to R386, R391 to R393: units of a data association whose engine has the cipher in its path. The boundary comes first: `t` tells
the state of the association, its key and its unit after it.
Log entries 7, 8, 11, 218, 230: the model's choices in it. -/
def Obligations.DataUnitsProtected : Prop :=
  (∀ (i : Fin 1024) (period : BitVec 32) (start : Fin 1000) (hdr : BitVec 64) (plain : List Byte) (mism : Option (Fin 8 × Bool)) (s : State),
    saValid s.inForce i.val = true → saType s.inForce i.val = 0 → cipherInPath s i.val = true →
    ∃ t, exec (.dataTxUnit i period start hdr plain mism) s = .next t ∧
      Tbl.find t.cip.sent i.val = some (match unitKey mism i.val t with
        | some k => Config.gcm (k.take 32) (saIv k ((assoc t i.val).units * saScale s.inForce i.val + startOf s i.val start.val : Nat))
            (unitAad s i.val hdr.toNat) (unitPlain i.val hdr.toNat plain s).1
        | none => ((unitPlain i.val hdr.toNat plain s).1.map fun _ => 0, voidTag))) ∧
  (∀ (i : Fin 1024) (unit : BitVec 32) (start : Fin 1000) (hdr : BitVec 64) (text : List Byte) (tag : BitVec 128) (replaced : Bool)
    (mism : Option (Fin 8 × Bool)) (s : State), saValid s.inForce i.val = true → saType s.inForce i.val = 1 → cipherInPath s i.val = true →
    ∃ t, exec (.dataRxUnit i unit start hdr text tag replaced mism) s = .next t ∧
      let n : Int := (if rxUnits s i.val unit.toNat < 0 then rxUnits s i.val unit.toNat else ((assoc t i.val).units : Int)) *
        saScale s.inForce i.val + startOf s i.val start.val
      let clear (k : List Byte) : List Byte := (Config.gcm (k.take 32) (saIv k n) (unitAad s i.val hdr.toNat) text).1
      (tag = BitVec.allOnes 128 → t.on (F.CIP_SA_ST_void_rx i.val) = true ∧ t.sticky 0xC8 9) ∧
      (tag ≠ BitVec.allOnes 128 → t.on (F.CIP_SA_ST_void_rx i.val) = false) ∧
      (tag = BitVec.allOnes 128 ∨ unitKey mism i.val t = none → Tbl.find t.cip.got i.val = none ∧
        t.g (F.CIP_SA_VOID_count i.val) = min (s.g (F.CIP_SA_VOID_count i.val) + 1) 0xFFFFFFFF) ∧
      ∀ k, unitKey mism i.val t = some k → tag ≠ BitVec.allOnes 128 →
        Tbl.find t.cip.got i.val = some (clear k, !replaced &&
          (Config.gcm (k.take 32) (saIv k n) (unitAad s i.val hdr.toNat) (clear k)).2 != toBe 16 tag.toNat))

/-- R388, R389, R405: key commands of the enclave's queue and the tests of the cores.
Log entries 5, 6, 11, 12: the model's choices in it. -/
def Obligations.KeysAndCoresRun : Prop :=
  (∀ (id : BitVec 16) (words : List Word) (q : List Byte) (s : State), enclaveServes s = true → boxQuiet s 3 → keyRefuse words 13 s = 0 →
    2 ^ 31 ≤ (words.getD 0 0).toNat → (assoc s ((words.getD 0 0).toNat % 1024)).switch = none → s.enc.klk = some q →
    ∃ t, exec (.keyLoad id words) s = .next t ∧
      (∀ k, Config.kwpUnwrap q ((words.drop 1).flatMap fun w => toLe 4 w.toNat) = some k → k.length = 36 → keyHeld s k = false →
        (assoc t ((words.getD 0 0).toNat % 1024)).next = some k ∧ repliedWith t 3 0x21 0 id.toNat) ∧
      (Config.kwpUnwrap q ((words.drop 1).flatMap fun w => toLe 4 w.toNat) = none → t.cip = s.cip ∧ repliedWith t 3 0x21 3 id.toNat)) ∧
  (∀ (id : BitVec 16) (words : List Word) (q : List Byte) (s : State), enclaveServes s = true → boxQuiet s 3 → keyRefuse words 13 s = 0 →
    (words.getD 0 0).toNat < 2 ^ 31 → s.enc.klk = some q →
    ∃ t, exec (.keyLoad id words) s = .next t ∧ (assoc t ((words.getD 0 0).toNat % 1024)).next = (assoc s ((words.getD 0 0).toNat % 1024)).next ∧
      (∀ k, Config.kwpUnwrap q ((words.drop 1).flatMap fun w => toLe 4 w.toNat) = some k → k.length = 36 → keyHeld s k = false →
        (assoc t ((words.getD 0 0).toNat % 1024)).shadow = some k ∧ repliedWith t 3 0x21 0 id.toNat) ∧
      (Config.kwpUnwrap q ((words.drop 1).flatMap fun w => toLe 4 w.toNat) = none → t.cip = s.cip ∧ repliedWith t 3 0x21 3 id.toNat)) ∧
  (∀ (id : BitVec 16) (words : List Word) (s : State), enclaveServes s = true → boxQuiet s 3 → keyRefuse words 1 s = 0 →
    (2 ^ 31 ≤ (words.getD 0 0).toNat → (assoc s ((words.getD 0 0).toNat % 1024)).switch = none) →
    ∃ t, exec (.keyErase id words) s = .next t ∧ repliedWith t 3 0x22 0 id.toNat ∧
      (if 2 ^ 31 ≤ (words.getD 0 0).toNat then (assoc t ((words.getD 0 0).toNat % 1024)).eraseNext = true
        else (assoc t ((words.getD 0 0).toNat % 1024)).eraseCur = true)) ∧
  (∀ (id : BitVec 16) (i at' w2 : Word) (s : State), enclaveServes s = true → boxQuiet s 3 → keyRefuse [i, at', w2] 3 s = 0 →
    w2.toNat % 2 = 0 → (assoc s (i.toNat % 1024)).next ≠ none →
    1024 ≤ (at'.toNat + 2 ^ 32 - unitNow s (i.toNat % 1024)) % 2 ^ 32 → (at'.toNat + 2 ^ 32 - unitNow s (i.toNat % 1024)) % 2 ^ 32 ≤ 2 ^ 20 →
    ∃ t, exec (.keyActivate id [i, at', w2]) s = .next t ∧ repliedWith t 3 0x23 0 id.toNat ∧ (assoc t (i.toNat % 1024)).switch = some at'.toNat ∧
      t.on (F.CIP_SA_ST_switch_armed (i.toNat % 1024)) = true ∧ t.g (F.CIP_SA_SWITCH_AT_at (i.toNat % 1024)) = at'.toNat) ∧
  (∀ (id : BitVec 16) (words : List Word) (s : State), enclaveServes s = true → boxQuiet s 3 → keyRefuse words 3 s = 0 →
    (assoc s ((words.getD 0 0).toNat % 1024)).next = none → (assoc s ((words.getD 0 0).toNat % 1024)).switch = none →
    ∃ t, exec (.keyActivate id words) s = .next t ∧ repliedWith t 3 0x23 8 id.toNat ∧ t.cip = s.cip ∧
      t.g (F.CIP_CNT_count 8) = min (s.g (F.CIP_CNT_count 8) + 1) 0xFFFFFFFF) ∧
  (∀ (c : Fin 8) (chunks : Nat) (s : State), s.g (F.CIP_CORE_STAT_state c.val) = 0 → s.on (F.CIP_CORE_STAT_suspect c.val) = true →
    ∃ t, exec (.coreTestStart c chunks) s = .next t ∧ t.g (F.CIP_CORE_STAT_state c.val) = 1 ∧
      t.g (F.CIP_CNT_count 1) = min (s.g (F.CIP_CNT_count 1) + chunks) 0xFFFFFFFF ∧
      t.g (F.CIP_CNT_count 2) = min (s.g (F.CIP_CNT_count 2) + 1) 0xFFFFFFFF) ∧
  (∀ (c : Fin 8) (s : State), s.g (F.CIP_CORE_STAT_state c.val) = 1 → ∃ t, exec (.coreTestDone c true) s = .next t ∧
    t.g (F.CIP_CORE_STAT_state c.val) = 0 ∧ t.on (F.CIP_CORE_STAT_suspect c.val) = false) ∧
  (∀ (c : Fin 8) (s : State), s.g (F.CIP_CORE_STAT_state c.val) = 1 → ∃ t, exec (.coreTestDone c false) s = .next t ∧
    t.g (F.CIP_CORE_STAT_state c.val) = 2 ∧ t.sticky 0xC8 5 ∧ t.g (F.CIP_CNT_count 3) = min (s.g (F.CIP_CNT_count 3) + 1) 0xFFFFFFFF)

/-- R395 to R400: the in-band exchange: each message and each timer in every state of the record it concerns; one that concerns none
changes nothing.
Log entries 2, 3, 9, 11: the model's choices in it. -/
def Obligations.KeyExchangeRuns : Prop :=
  (∀ (m : Master) (tx rx : Fin 1024) (s : State), s.admits m 0xC9 false → ∃ t, exec (.kxStart m tx rx) s = .next t ∧
    (kxFree s = none → t.cip = s.cip ∧ t.on (F.ERR_valid 0xC9) = true ∧ (s.on (F.ERR_valid 0xC9) = false → t.g (F.ERR_code 0xC9) = 0xE1)) ∧
    ∀ j, kxFree s = some j → t.g (F.CIP_KX_STAT_tx j) = tx.val ∧ t.g (F.CIP_KX_STAT_rx j) = rx.val ∧
      (if kxPolicy s tx.val rx.val && !kxBusy s tx.val rx.val then
        kxState t j = 1 ∧ t.g (F.CIP_KX_STAT_role j) = 0 ∧ t.g (F.CIP_KX_STAT_result j) = 0 ∧ (kxRec t j).last.1 = 0x11
       else kxState t j = 0 ∧ t.g (F.CIP_KX_STAT_result j) = if kxPolicy s tx.val rx.val then 7 else 4)) ∧
  (∀ (le : Fin 2) (body : List Byte) (s : State), ∃ t, exec (.kxCert le body) s = .next t ∧
    (Tbl.get [] t.cip.certs (le.val * 65536 + beNat body 0 2)).head? = some (byteAt body 2, byteAt body 3, body.drop 4) ∧ t.fields = s.fields) ∧
  (∀ (le : Fin 2) (body : List Byte) (s : State), ∃ t, exec (.kxInit le body) s = .next t ∧
    (kxAssocs s le.val body = none → t = s) ∧
    ∀ tx rx, kxAssocs s le.val body = some (tx, rx) →
      (kxBy s rx = none →
        (kxPolicy s tx rx = false → t.cip = s.cip ∧ aborts le.val 1 body s t) ∧
        (kxPolicy s tx rx = true → kxBusy s tx rx = true ∨ kxFree s = none → t.cip = s.cip ∧ aborts le.val 3 body s t) ∧
        (kxPolicy s tx rx = true → kxBusy s tx rx = false → ∀ j, kxFree s = some j →
          if (kxPeer s le.val (beNat body 0 2) rx).isSome then responded j tx rx body t else t.cip = s.cip ∧ unproven s t)) ∧
      (∀ j, kxBy s rx = some j → kxState s j ≠ 1 →
        if (kxRec s j).xid = beNat body 0 2 then t = s else t.cip = s.cip ∧ aborts le.val 3 body s t) ∧
      (∀ j, kxBy s rx = some j → kxState s j = 1 →
        (beNat body 4 32 = beNat (kxRec s j).init 4 32 → kxState t j = 0 ∧ (kxRec t j).again = true) ∧
        (beNat (kxRec s j).init 4 32 < beNat body 4 32 → t = s) ∧
        (beNat body 4 32 < beNat (kxRec s j).init 4 32 →
          (kxPolicy s tx rx = false → kxState t j = 0 ∧ t.g (F.CIP_KX_STAT_result j) = 4 ∧ aborts le.val 1 body s t) ∧
          (kxPolicy s tx rx = true → kxPeer s le.val (beNat body 0 2) rx = none → kxState t j = 1 ∧ (kxRec t j).authBad = true ∧ unproven s t) ∧
          (kxPolicy s tx rx = true → (kxPeer s le.val (beNat body 0 2) rx).isSome = true →
            if s.enc.trngBad then t.cip = s.cip ∧ aborts le.val 3 body s t else responded j tx rx body t)))) ∧
  (∀ (le : Fin 2) (body : List Byte) (s : State), ∃ t, exec (.kxResp le body) s = .next t ∧
    (kxAssocs s le.val body = none → t = s) ∧
    ∀ tx rx, kxAssocs s le.val body = some (tx, rx) → (kxBy s rx = none → t = s) ∧ ∀ j, kxBy s rx = some j →
      (kxState s j ≠ 1 ∨ (kxRec s j).xid ≠ beNat body 0 2 → t = s) ∧
      (kxState s j = 1 → (kxRec s j).xid = beNat body 0 2 →
        if kxSigned s le.val rx (beNat body 0 2) ((kxRec s j).init ++ body.take 133) (body.drop 133) then
          kxState t j = 3 ∧ (kxRec t j).priv = [] ∧ (kxRec t j).last.1 = 0x13 ∧
          ((assoc t tx).next, (assoc t rx).next) = (fun k : List Byte × List Byte => (some k.1, some k.2))
            (kxKeys (kxRec s j).priv ((body.drop 36).take 97) (kxRec s j).init (body.take 133))
        else kxState t j = 1 ∧ (kxRec t j).authBad = true ∧ unproven s t)) ∧
  (∀ (le : Fin 2) (body : List Byte) (s : State), ∃ t, exec (.kxConfirm le body) s = .next t ∧
    (kxAssocs s le.val body = none → t = s) ∧
    ∀ tx rx, kxAssocs s le.val body = some (tx, rx) → (kxBy s rx = none → t = s) ∧ ∀ j, kxBy s rx = some j →
      ((kxRec s j).xid ≠ beNat body 0 2 ∨ s.g (F.CIP_KX_STAT_role j) ≠ 1 ∨ (kxState s j ≠ 2 ∧ kxState s j ≠ 4) → t = s) ∧
      ((kxRec s j).xid = beNat body 0 2 → s.g (F.CIP_KX_STAT_role j) = 1 → kxState s j = 4 → t.cip = s.cip ∧
        sends (saEngine s.inForce (s.g (F.CIP_KX_STAT_tx j))) 0x14
          (kxHead s j ++ kxGmac ((assoc s (s.g (F.CIP_KX_STAT_tx j))).next.getD []) 0xFF (kxHead s j)) t) ∧
      ((kxRec s j).xid = beNat body 0 2 → s.g (F.CIP_KX_STAT_role j) = 1 → kxState s j = 2 →
        (∀ ir ri, (kxRec s j).held = some (ir, ri) →
          kxSigned s le.val rx (beNat body 0 2) ((kxRec s j).init ++ (kxRec s j).resp ++ body.take 4) (body.drop 4) = true →
          switching j s t ∧ (kxRec t j).held = none ∧ (assoc t tx).next = some ri ∧ (assoc t rx).next = some ir) ∧
        ((kxRec s j).held = none ∨
            kxSigned s le.val rx (beNat body 0 2) ((kxRec s j).init ++ (kxRec s j).resp ++ body.take 4) (body.drop 4) = false →
          kxState t j = 2 ∧ (kxRec t j).authBad = true ∧ unproven s t))) ∧
  (∀ (le : Fin 2) (body : List Byte) (s : State), ∃ t, exec (.kxAck le body) s = .next t ∧
    (kxAssocs s le.val body = none → t = s) ∧
    ∀ tx rx, kxAssocs s le.val body = some (tx, rx) → (kxBy s rx = none → t = s) ∧ ∀ j, kxBy s rx = some j →
      (kxState s j ≠ 3 ∨ (kxRec s j).xid ≠ beNat body 0 2 → t = s) ∧
      (kxState s j = 3 → (kxRec s j).xid = beNat body 0 2 →
        if kxGmac ((if (kxRec s j).peer then (assoc s rx).cur else (assoc s rx).next).getD []) 0xFF (body.take 4) = body.drop 4 then switching j s t
        else kxState t j = 3 ∧ (kxRec t j).authBad = true ∧ unproven s t)) ∧
  (∀ (le : Fin 2) (body : List Byte) (s : State), ∃ t, exec (.kxSwitch le body) s = .next t ∧
    (kxAssocs s le.val body = none → t = s) ∧
    ∀ tx rx, kxAssocs s le.val body = some (tx, rx) → ((assoc s rx).next = none → t = s) ∧ ∀ k, (assoc s rx).next = some k →
      if kxGmac k 0xFE (body.take 8) = body.drop 8 then (assoc t rx).switch = some (leNat body 4 4)
      else assoc t rx = assoc s rx ∧ unproven s t) ∧
  (∀ (le : Fin 2) (body : List Byte) (s : State), ∃ t, exec (.kxAbort le body) s = .next t ∧
    (kxAssocs s le.val body = none → t = s) ∧
    ∀ tx rx, kxAssocs s le.val body = some (tx, rx) → (kxBy s rx = none → t = s) ∧ ∀ j, kxBy s rx = some j →
      if (kxState s j = 1 ∨ kxState s j = 2) ∧ (kxRec s j).xid = beNat body 0 2 then
        kxState t j = 0 ∧ t.g (F.CIP_KX_STAT_result j) = 5 ∧ kxRec t j = {} ∧ t.sticky 0xC8 8
      else t = s) ∧
  (∀ (j : Fin 16) (s : State), ∃ t, exec (.kxRepeat j) s = .next t ∧ kxState t j.val = kxState s j.val ∧ (kxState s j.val = 0 → t = s) ∧
    (kxState s j.val ≠ 0 → sends (saEngine s.inForce (s.g (F.CIP_KX_STAT_tx j.val))) (kxRec s j.val).last.1 (kxRec s j.val).last.2 t)) ∧
  (∀ (j : Fin 16) (s : State), ∃ t, exec (.kxTimeout j) s = .next t ∧ kxState t j.val = 0 ∧ (kxState s j.val = 0 → t = s) ∧
    (kxState s j.val ≠ 0 → kxRec t j.val = {} ∧ t.sticky 0xC8 8 ∧ t.g (F.CIP_KX_STAT_result j.val) = (if 3 ≤ kxState s j.val then
      (if (kxRec s j.val).own ∨ (kxRec s j.val).peer then 6 else 2) else if (kxRec s j.val).authBad then 3 else 2))) ∧
  (∀ (j : Fin 16) (s : State), ∃ t, exec (.kxRestart j) s = .next t ∧
    (kxState s j.val ≠ 0 ∨ (kxRec s j.val).again = false → t = s) ∧
    (kxState s j.val = 0 → (kxRec s j.val).again = true → (kxRec t j.val).again = false ∧
      (if kxPolicy s (s.g (F.CIP_KX_STAT_tx j.val)) (s.g (F.CIP_KX_STAT_rx j.val)) &&
          !kxBusy s (s.g (F.CIP_KX_STAT_tx j.val)) (s.g (F.CIP_KX_STAT_rx j.val)) then kxState t j.val = 1 ∧ (kxRec t j.val).last.1 = 0x11
       else kxState t j.val = 0 ∧ t.g (F.CIP_KX_STAT_result j.val) =
         if kxPolicy s (s.g (F.CIP_KX_STAT_tx j.val)) (s.g (F.CIP_KX_STAT_rx j.val)) then 7 else 4)))

/-- R417, R419, R423: requests to the enclave that are answered at once.
Log entries 135, 145, 147: the model's choices in it. -/
def Obligations.EnclaveAnswers : Prop :=
  (∀ (fw : Bool) (id : BitVec 16) (h : Nat) (s : State), enclaveServes s = true → boxQuiet s (if fw then 7 else 3) → s.enc.trngBad = false →
    ((List.range 4).find? fun h => (Tbl.find s.enc.handles h).isNone) = some h →
    ∃ t, exec (.nonceGet fw id []) s = .next t ∧ repliedWith t (if fw then 7 else 3) 0x01 0 id.toNat ∧
      (Tbl.find t.enc.handles h).map (fun x => (x.nonce.length, x.issued, x.signed)) = some (32, s.now, none) ∧
      (t.g F.ENC_STAT_pending).testBit h = true ∧ ∀ k, k ≠ h → Tbl.find t.enc.handles k = Tbl.find s.enc.handles k) ∧
  (∀ (fw : Bool) (id : BitVec 16) (s : State), enclaveServes s = true → boxQuiet s (if fw then 7 else 3) →
    (∀ h, h < 4 → Tbl.find s.enc.handles h ≠ none) →
    ∃ t, exec (.nonceGet fw id []) s = .next t ∧ repliedWith t (if fw then 7 else 3) 0x01 5 id.toNat ∧ t.enc = s.enc) ∧
  (∀ (fw : Bool) (id : BitVec 16) (words : List Word) (s : State), enclaveServes s = true → boxQuiet s (if fw then 7 else 3) →
    words.length = 8 → s.enc.trngBad = false →
    ∃ t, exec (.attest fw id words) s = .next t ∧ repliedWith t (if fw then 7 else 3) 0x03 0 id.toNat ∧ t.enc = s.enc ∧
      ∀ k, k < 54 → t.g (F.ENC_XBUF_bytes k) = leNat (attestReport (words.flatMap fun w => toLe 4 w.toNat) s) (4 * k) 4) ∧
  (∀ (fw : Bool) (id : BitVec 16) (w : Word) (s : State), enclaveServes s = true → boxQuiet s (if fw then 7 else 3) →
    ∃ t, exec (.chgAbort fw id [w]) s = .next t ∧ repliedWith t (if fw then 7 else 3) 0x04 0 id.toNat ∧
      t.enc.handles = Tbl.erase s.enc.handles (w.toNat % 4)) ∧
  (∀ (fw : Bool) (id : BitVec 16) (s : State), enclaveServes s = true → boxQuiet s (if fw then 7 else 3) → s.mode ≠ 7 → s.enc.trngBad = false →
    ∃ t, exec (.klkPub fw id []) s = .next t ∧ repliedWith t (if fw then 7 else 3) 0x05 0 id.toNat ∧ t.enc.klk = s.enc.klk ∧
      ∃ priv, t.enc.agree = some priv ∧ t.enc.agreePub = Config.p384Public priv) ∧
  (∀ (fw : Bool) (id : BitVec 16) (s : State), enclaveServes s = true → boxQuiet s (if fw then 7 else 3) → s.mode = 7 →
    ∃ t, exec (.klkPub fw id []) s = .next t ∧ repliedWith t (if fw then 7 else 3) 0x05 6 id.toNat ∧ t.enc = s.enc) ∧
  (∀ (h : Fin 4) (x : Handle) (s : State), Tbl.find s.enc.handles h.val = some x →
    ∃ t, exec (.chgExpiry h) s = .next t ∧ t.enc.handles = Tbl.erase s.enc.handles h.val ∧ t.sticky 0xFC 4) ∧
  (∀ s : State, s.g F.ENC_STAT_debug_level ≠ 0 → ∃ t, exec .debugExpire s = .next t ∧ t.g F.ENC_STAT_debug_level = 0 ∧
    t.g F.ENC_DBG_EXPIRE_LO_expire = 0 ∧ t.g F.ENC_DBG_EXPIRE_HI_expire = 0 ∧ t.sticky 0xFC 6) ∧
  (∀ (le : Fin 2) (p h : Nat) (s : State), Tbl.find s.enc.overrides le.val = some (p, h) → h ≠ 0 →
    ∃ t, exec (.overrideEnd le) s = .next t ∧ t.enc.overrides = Tbl.erase s.enc.overrides le.val ∧
      (overrideOn s le.val = true → linkOf s le.val = 3 → t.sticky (0xD8 + le.val) 5)) ∧
  (∀ (pass : Bool) (s : State), enclaveUp s = true → ∃ t, exec (.trngHealthTest pass) s = .next t ∧ t.enc.trngBad = !pass ∧ t.fields = s.fields)

/-- R416, R419, R421, R422: CHG_SUBMIT, from a FREE handle to a change applied.
Log entries 134, 137, 138, 139, 142: the model's choices in it. -/
def Obligations.ChangesAreCosigned : Prop :=
  (∀ (fw : Bool) (id : BitVec 16) (w : Word) (s : State), enclaveServes s = true → settled s → boxQuiet s (if fw then 7 else 3) →
    Tbl.find s.enc.handles (w.toNat % 4) = none →
    ∃ t, exec (.chgSubmit fw id [w]) s = .next t ∧ repliedWith t (if fw then 7 else 3) 0x02 0x12 id.toNat ∧
      t.g F.ENC_CHG_LAST_result = 0x12 ∧ t.sticky 0xFC 3 ∧ t.enc = s.enc) ∧
  (∀ (fw : Bool) (id : BitVec 16) (w : Word) (x : Handle) (s : State), enclaveServes s = true → settled s → boxQuiet s (if fw then 7 else 3) →
    Tbl.find s.enc.handles (w.toNat % 4) = some x → x.issued + 600000000000 ≤ s.now →
    ∃ t, exec (.chgSubmit fw id [w]) s = .next t ∧ repliedWith t (if fw then 7 else 3) 0x02 0x11 id.toNat ∧
      t.g F.ENC_CHG_LAST_result = 0x11 ∧ t.enc = s.enc) ∧
  (∀ (fw : Bool) (id : BitVec 16) (w : Word) (x : Handle) (s : State), enclaveServes s = true → settled s → boxQuiet s (if fw then 7 else 3) →
    Tbl.find s.enc.handles (w.toNat % 4) = some x → s.now < x.issued + 600000000000 →
    (1536 < w.toNat / 2 ^ 16 % 2 ^ 12 ∨ changeParse (xbufBytes s (w.toNat / 2 ^ 16 % 2 ^ 12)) = none) →
    ∃ t, exec (.chgSubmit fw id [w]) s = .next t ∧ repliedWith t (if fw then 7 else 3) 0x02 0x13 id.toNat ∧
      t.g F.ENC_CHG_LAST_result = 0x13 ∧ t.enc = s.enc) ∧
  (∀ (fw : Bool) (id : BitVec 16) (w : Word) (x : Handle) (c : Change) (s : State), enclaveServes s = true → settled s →
    boxQuiet s (if fw then 7 else 3) → submits s w x c → (changeCheck c x s).1 ≠ 0 →
    ∃ t, exec (.chgSubmit fw id [w]) s = .next t ∧ repliedWith t (if fw then 7 else 3) 0x02 (changeCheck c x s).1 id.toNat ∧
      t.g F.ENC_CHG_LAST_result = (changeCheck c x s).1 ∧ t.sticky 0xFC 3 ∧ t.enc.officers = s.enc.officers ∧
      (((changeCheck c x s).1 = 0x18 ∨ (changeCheck c x s).1 = 6 ∨ (changeCheck c x s).1 = 0x19) →
        t.enc.handles = Tbl.erase s.enc.handles (w.toNat % 4))) ∧
  (∀ (fw : Bool) (id : BitVec 16) (w : Word) (x : Handle) (c : Change) (r : Nat × List Byte) (s : State), enclaveServes s = true → settled s →
    boxQuiet s (if fw then 7 else 3) → submits s w x c → c.records = [r] → x.signed = none →
    ∃ t, exec (.chgSubmit fw id [w]) s = .next t ∧ t.g F.ENC_CHG_LAST_op = c.op ∧
      ((changeCheck c x s).1 = 0 → t.g F.ENC_CHG_LAST_result = 0x10 ∧ repliedWith t (if fw then 7 else 3) 0x02 0x10 id.toNat ∧
        t.enc.officers = s.enc.officers ∧
        Tbl.find t.enc.handles (w.toNat % 4) = some { x with signed := some (c.request, r.1) })) ∧
  (∀ (fw : Bool) (id : BitVec 16) (w : Word) (x : Handle) (c : Change) (s : State), enclaveServes s = true → settled s →
    boxQuiet s (if fw then 7 else 3) → submits s w x c → (c.records.length ≠ 1 ∨ x.signed ≠ none) →
    c.op = 1 ∨ c.op = 3 ∨ c.op = 6 ∨ c.op = 9 →
    ∃ t, exec (.chgSubmit fw id [w]) s = .next t ∧ t.g F.ENC_CHG_LAST_op = c.op ∧
      ((changeCheck c x s).1 = 0 → t.g F.ENC_CHG_LAST_result = 0 ∧ t.sticky 0xFC 2 ∧ repliedWith t (if fw then 7 else 3) 0x02 0 id.toNat ∧
        t.enc.handles = Tbl.erase s.enc.handles (w.toNat % 4) ∧
        t.enc.officers = (if c.op = 1 then officerEntries c.payload else s.enc.officers) ∧
        (c.op = 3 → t.g F.TMP_CFG_enables = byteAt c.payload 1) ∧
        (c.op = 6 → t.g F.ENC_STAT_debug_level = byteAt c.payload 0 % 4) ∧
        (c.op = 9 → t.enc.rollback = max s.enc.rollback (byteAt c.payload 0))))

/-- R437, R439, R441, R442: a link comes up, and its transmitter is enabled and disabled.
Log entries 24, 25, 26, 27: the model's choices in it. -/
def Obligations.OpticalLinkComesUp : Prop :=
  (∀ (le : Fin 2) (p : List Byte) (s : State), linkIdle s le.val → linkOf s le.val = 0 → p.length = 49 → byteAt p 0 = 0 →
    ∃ t, exec (.hello le (response s le.val 1 p)) s = .next t ∧ t.on (F.UBH_STAT_present le.val) = true ∧ t.sticky (0xD8 + le.val) 0 ∧
      linkOf t le.val = (if byteAt p 2 % 2 = 0 then 3 else 1) ∧ (∀ w, w < 12 → t.g (F.UBH_DECL_bytes le.val w) = leNat p (1 + 4 * w) 4) ∧
      (byteAt p 2 % 2 = 0 → t.g (F.UBH_STAT_auth le.val) = 2 ∧ t.sticky (0xD8 + le.val) 2)) ∧
  (∀ (le : Fin 2) (s : State), linkIdle s le.val → linkOf s le.val = 0 →
    ∃ t, exec (.hello le []) s = .next t ∧ linkOf t le.val = 0 ∧
      (ubh t le.val).out.map (fun c => c.frame) = some (ubhFrame 1 (ubh s le.val).seq none [] [])) ∧
  (∀ (le : Fin 2) (p : List Byte) (s : State), linkIdle s le.val → linkOf s le.val = 1 → p.length ≤ 201 → p ≠ [] → byteAt p 0 = 0 →
    ∃ t, exec (.certRead le (response s le.val 2 p)) s = .next t ∧ linkOf t le.val = 1 ∧
      (ubh t le.val).chain = ((ubh s le.val).chain ++ p.drop 1).take 2048) ∧
  (∀ (le : Fin 2) (s : State), linkIdle s le.val → linkOf s le.val = 1 →
    ∃ t, exec (.certRead le (response s le.val 2 [1])) s = .next t ∧ linkOf t le.val = 3 ∧ t.g (F.UBH_STAT_auth le.val) = 2 ∧
      t.sticky (0xD8 + le.val) 2) ∧
  (∀ (le : Fin 2) (p : List Byte) (s : State), linkIdle s le.val → linkOf s le.val = 1 → p.length = 194 →
    ∃ t, exec (.auth le (response s le.val 3 p)) s = .next t ∧
      ((linkOf t le.val = 2 ∧ t.g (F.UBH_STAT_auth le.val) = 1 ∧ (ubh t le.val).session ≠ none ∧ Config.chainKey (ubh s le.val).chain ≠ none) ∨
        (linkOf t le.val = 3 ∧ t.g (F.UBH_STAT_auth le.val) = 3 ∧ (ubh t le.val).session = none ∧ t.sticky (0xD8 + le.val) 2))) ∧
  (∀ (le : Fin 2) (p : List Byte) (s : State), linkIdle s le.val → txAllowed s le.val = true → s.on (F.UBH_STAT_tx_enabled le.val) = false →
    p ≠ [] → p.length ≤ 232 → byteAt p 0 = 0 →
    ∃ t, exec (.txEnable le (response s le.val 5 p)) s = .next t ∧ t.on (F.UBH_STAT_tx_enabled le.val) = true ∧ t.sticky (0xD8 + le.val) 3) ∧
  (∀ (le : Fin 2) (s : State), (ubh s le.val).brk = false → (ubh s le.val).txd = none → txAllowed s le.val = false →
    s.on (F.UBH_STAT_tx_enabled le.val) = true →
    ∃ t, exec (.txDisable le []) s = .next t ∧ t.on (F.UBH_STAT_tx_enabled le.val) = false ∧ t.sticky (0xD8 + le.val) 3 ∧
      (ubh t le.val).txd.map (fun c => c.frame) = some (ubhFrame 4 (ubh s le.val).seq none [] []) ∧
      ∀ c ∈ (ubh t le.val).queue, c.1 ≠ 5) ∧
  (∀ (m : Master) (le : Fin 2) (allow : Bool) (s : State), s.admits m (0xD8 + le.val) false → linkOf s le.val ≠ 4 →
    ∃ t, exec (.ubhHold m le true allow) s = .next t ∧ linkOf t le.val = 4 ∧ (ubh t le.val).brk = true ∧ (ubh t le.val).session = none ∧
      t.on (F.UBH_STAT_tx_enabled le.val) = false) ∧
  (∀ (m : Master) (le : Fin 2) (allow : Bool) (s : State), s.admits m (0xD8 + le.val) false → linkOf s le.val = 4 →
    ∃ t, exec (.ubhHold m le false allow) s = .next t ∧ linkOf t le.val = 0 ∧ (ubh t le.val).brk = false ∧
      t.on (F.UBH_CTRL_tx_allow le.val) = allow) ∧
  (∀ (le : Fin 2) (s : State), (ubh s le.val).brk = false → linkOf s le.val = 1 ∨ linkOf s le.val = 2 ∨ linkOf s le.val = 3 →
    ∃ t, exec (.ubhAbsent le) s = .next t ∧ t.on (F.UBH_STAT_present le.val) = false ∧ linkOf t le.val = 0 ∧ t.sticky (0xD8 + le.val) 1 ∧
      t.g (F.UBH_CNT_count le.val 4) = min (s.g (F.UBH_CNT_count le.val 4) + 1) 0xFFFFFFFF)

/-- R433, R441, R444, R445, R447: polls, alerts, life data, passthrough, repetition, and the frames of a session.
Log entries 25, 30, 31, 232, 233: the model's choices in it. -/
def Obligations.OpticalLinkServes : Prop :=
  (∀ (le : Fin 2) (w : Word) (s : State), linkIdle s le.val → linkOf s le.val = 3 →
    ∃ t, exec (.status le (response s le.val 6 (0 :: toLe 4 w.toNat))) s = .next t ∧ t.on (F.UBH_STAT_tx_ready le.val) = w.getLsbD 0 ∧
      t.on (F.UBH_STAT_rx_los le.val) = w.getLsbD 2 ∧ t.g (F.UBH_STAT_case_temp le.val) = w.toNat / 256 % 256 ∧
      (ubh t le.val).fault = w.getLsbD 3) ∧
  (∀ (le : Fin 2) (k ed : List Byte) (s : State), linkOf s le.val = 2 → (ubh s le.val).session = some (k, ed) → (ubh s le.val).brk = false →
    (ubh s le.val).out = none → (ubh s le.val).txd = none → (ubh s le.val).ctrTx < 2 ^ 32 - 1 →
    ∃ t, exec (.status le []) s = .next t ∧ (ubh t le.val).ctrTx = (ubh s le.val).ctrTx + 1 ∧
      (ubh t le.val).out.map (fun c => c.frame) = some (ubhFrame 0x46 (ubh s le.val).seq (some ((ubh s le.val).ctrTx + 1)) [] k)) ∧
  (∀ (le : Fin 2) (s : State), ∃ t, exec (.ubhAlertFall le) s = .next t ∧ (ubh t le.val).alertDue = true ∧ t.fields = s.fields) ∧
  (∀ (le : Fin 2) (w : Word) (s : State), linkIdle s le.val → linkOf s le.val = 3 → (ubh s le.val).alertDue = true →
    ∃ t, exec (.alertRead le (response s le.val 7 (0 :: toLe 4 w.toNat))) s = .next t ∧ (ubh t le.val).alertDue = false ∧
      t.sticky (0xD8 + le.val) 4 ∧ t.g (F.UBH_STAT_alerts le.val) = w.toNat % 2 ^ (F.UBH_STAT_alerts le.val).width ∧
      (w.getLsbD 0 = true → t.on (F.UBH_STAT_rx_los le.val) = true)) ∧
  (∀ (le : Fin 2) (r : List Byte) (s : State), linkIdle s le.val → linkOf s le.val = 3 → r.length = 32 →
    ∃ t, exec (.lifeRead le (response s le.val 8 (0 :: r))) s = .next t ∧ (ubh t le.val).mirrored = true ∧
      Tbl.find (ubh t le.val).life (ubhId s le.val) = some (leNat r 0 4, leNat r 16 4) ∧ ∀ w, w < 8 → t.g (F.UBH_LIFE_bytes le.val w) = leNat r (4 * w) 4) ∧
  (∀ (le : Fin 2) (addr : BitVec 16) (len : Byte) (d : List Byte) (s : State), linkIdle s le.val → linkOf s le.val = 3 →
    s.on (F.UBH_PT_STAT_busy le.val) = true → d.length ≤ 200 →
    ∃ t, exec (.memRead le addr len (response s le.val 9 (0 :: d))) s = .next t ∧ t.on (F.UBH_PT_STAT_busy le.val) = false ∧
      t.g (F.UBH_PT_STAT_status le.val) = 0 ∧ ∀ w, 4 * w < d.length → t.g (F.UBH_PT_DATA_bytes le.val w) = leNat d (4 * w) 4) ∧
  (∀ (le : Fin 2) (addr : BitVec 16) (data : List Byte) (e : Byte) (s : State), linkIdle s le.val → linkOf s le.val = 3 →
    s.on (F.UBH_PT_STAT_busy le.val) = true →
    ∃ t, exec (.memWrite le addr data (response s le.val 10 [e])) s = .next t ∧ t.on (F.UBH_PT_STAT_busy le.val) = false ∧
      t.g (F.UBH_PT_STAT_status le.val) = e.toNat) ∧
  (∀ (le : Fin 2) (c : UbhCmd) (s : State), (ubh s le.val).txd = none → (ubh s le.val).out = some c → c.tries < 3 →
    ∃ t, exec (.ubhResend le []) s = .next t ∧ (ubh t le.val).out.map (fun c => (c.frame, c.tries)) = some (c.frame, c.tries + 1) ∧
      t.g (F.UBH_CNT_count le.val 1) = min (s.g (F.UBH_CNT_count le.val 1) + 1) 0xFFFFFFFF ∧
      t.g (F.UBH_CNT_count le.val 2) = min (s.g (F.UBH_CNT_count le.val 2) + 1) 0xFFFFFFFF) ∧
  (∀ (le : Fin 2) (c : UbhCmd) (r : List Byte) (s : State), (ubh s le.val).txd = none → (ubh s le.val).out = some c → 3 ≤ c.tries →
    linkOf s le.val = 1 ∨ linkOf s le.val = 2 ∨ linkOf s le.val = 3 →
    ∃ t, exec (.ubhResend le r) s = .next t ∧ (ubh t le.val).out = none ∧ linkOf t le.val = 0 ∧ t.sticky (0xD8 + le.val) 1) ∧
  (∀ (m : Master) (le : Fin 2) (write : Bool) (len : Byte) (addr : BitVec 16) (s : State), s.admits m (0xD8 + le.val) false →
    s.on (F.UBH_PT_STAT_busy le.val) = false → linkOf s le.val = 2 ∨ linkOf s le.val = 3 → (write = true → s.runState le.val = 0) →
    ∃ t, exec (.ubhPtGo m le write len addr) s = .next t ∧ t.on (F.UBH_PT_STAT_busy le.val) = true ∧
      t.g (F.UBH_PT_CMD_address le.val) = addr.toNat ∧ t.on (F.UBH_PT_CMD_write le.val) = write) ∧
  (∀ (m : Master) (le : Fin 2) (len : Byte) (addr : BitVec 16) (s : State), s.admits m (0xD8 + le.val) false →
    s.on (F.UBH_PT_STAT_busy le.val) = false → linkOf s le.val = 2 ∨ linkOf s le.val = 3 → s.runState le.val ≠ 0 →
    ∃ t, exec (.ubhPtGo m le true len addr) s = .next t ∧ t.on (F.UBH_PT_STAT_busy le.val) = false ∧
      t.g (F.UBH_PT_STAT_status le.val) = 0xF0)

/-- R452 to R463: inputs fail and come back, the selection follows, the DPLL holds over and tests itself.
Log entries 35, 36, 37, 235, 236: the model's choices in it. -/
def Obligations.ReferencesAreSelected : Prop :=
  (∀ (k : Fin 15) (s : State), dpll s ≠ 4 → inputState s k.val = 1 ∨ inputState s k.val = 2 ∨ inputState s k.val = 3 →
    ∃ t, exec (.inputFault k) s = .next t ∧ inputState t k.val = 4 ∧ t.g (F.SYN_IN_WTR_remaining k.val) = 0 ∧
      (t.g F.SYN_HIST_inputs).testBit k.val = true ∧ t.sticky 0xD0 6) ∧
  (∀ (k : Fin 15) (s : State), dpll s = 4 → ∃ t, exec (.inputFault k) s = .next t ∧ t.syn.waiting = s.syn.waiting ++ [(k.val, true)] ∧
    t.fields = s.fields) ∧
  (∀ (k : Fin 15) (s : State), dpll s ≠ 4 → inputState s k.val = 4 → inputFaulty s k.val = false →
    ∃ t, exec (.inputFaultClear k) s = .next t ∧ inputState t k.val = 2 ∧
      t.g (F.SYN_IN_WTR_remaining k.val) = max (s.cur F.SYN_TIMERS_wtr) (s.cur F.SYN_TIMERS_qualify_time) % 2 ^ 10) ∧
  (∀ (k : Fin 15) (s : State), inputState s k.val = 1 ∨ inputState s k.val = 2 → inputFaulty s k.val = false →
    ∃ t, exec (.inputQualified k) s = .next t ∧ inputState t k.val = 3 ∧ t.g (F.SYN_IN_WTR_remaining k.val) = 0) ∧
  (∀ (freq : BitVec 32) (offs : List (Fin 15 × BitVec 16)) (k : Nat) (s : State), dpll s ≠ 4 → synSelect s = some k → k < 15 →
    k ≠ s.g F.SYN_STAT_selected → ∃ t, exec (.selectionEval freq offs) s = .next t ∧ t.g F.SYN_STAT_selected = k ∧
      t.on F.SYN_STAT_switching = true ∧ dpll t = (if dpll s = 0 ∨ dpll s = 3 then 1 else dpll s)) ∧
  (∀ (freq : BitVec 32) (offs : List (Fin 15 × BitVec 16)) (s : State), dpll s ≠ 4 → synSelect s = some (s.g F.SYN_STAT_selected) →
    ∃ t, exec (.selectionEval freq offs) s = .next t ∧ t.g F.SYN_STAT_selected = s.g F.SYN_STAT_selected ∧
      t.on F.SYN_STAT_switching = s.on F.SYN_STAT_switching ∧ dpll t = dpll s ∧
      (dpll s = 1 ∨ dpll s = 2 → t.g F.SYN_FREQ_offset = freq.toNat)) ∧
  (∀ (freq : BitVec 32) (offs : List (Fin 15 × BitVec 16)) (s : State), dpll s = 1 ∨ dpll s = 2 → synSelect s = none →
    s.on F.SYN_STAT_hold_valid = true →
    ∃ t, exec (.selectionEval freq offs) s = .next t ∧ dpll t = 3 ∧ t.g F.SYN_STAT_selected = 0xF ∧ t.sticky 0xD0 1 ∧
      t.g F.SYN_FREQ_offset = t.g F.SYN_HOLD_FREQ_estimate ∧ t.syn.holdAt = t.now ∧ s.now ≤ t.now ∧ t.on F.SYN_HIST_holdover = true) ∧
  (∀ (freq : BitVec 32) (offs : List (Fin 15 × BitVec 16)) (s : State), dpll s = 1 ∨ dpll s = 2 → synSelect s = none →
    s.on F.SYN_STAT_hold_valid = false → s.syn.hist.length < 10999 →
    ∃ t, exec (.selectionEval freq offs) s = .next t ∧ dpll t = 0 ∧ t.g F.SYN_STAT_selected = 0xF ∧ t.sticky 0xD0 2 ∧
      t.g F.SYN_FREQ_offset = 0 ∧ t.on F.SYN_HIST_freerun = true) ∧
  (∀ s : State, dpll s = 1 → ∃ t, exec .dpllLocked s = .next t ∧ dpll t = 2 ∧ t.sticky 0xD0 3) ∧
  (∀ s : State, dpll s = 3 → s.on F.SYN_STAT_oos = false → ∃ t, exec .holdoverOos s = .next t ∧ dpll t = 3 ∧ t.on F.SYN_STAT_oos = true ∧
    t.sticky 0xD0 5 ∧ t.on F.SYN_HIST_oos = true) ∧
  (∀ s : State, dpll s = 2 → s.on F.SYN_STAT_hold_valid = true → s.on F.SYN_STAT_switching = false →
    ∃ t, exec .dpllTestStart s = .next t ∧ dpll t = 4 ∧ t.syn.before = 2 ∧ t.on F.SYN_HIST_self_test = true ∧
      t.g F.SYN_FREQ_offset = s.g F.SYN_HOLD_FREQ_estimate) ∧
  (∀ (ok : Bool) (s : State), dpll s = 4 → s.syn.before < 4 → ∃ t, exec (.dpllTestEnd ok) s = .next t ∧ dpll t = s.syn.before ∧
    t.syn.waiting = [] ∧ t.on F.REP_STAT_dpll_test_busy = false ∧ (ok = false → t.sticky 0xF0 6) ∧
    ∀ k, (k, true) ∈ s.syn.waiting → k < 15 → inputState s k = 3 → (k, false) ∉ s.syn.waiting → inputState t k = 4) ∧
  (∀ s : State, dpll s ≠ 4 → s.on F.SYN_STAT_switching = true → ∃ t, exec .switchComplete s = .next t ∧
    t.on F.SYN_STAT_switching = false ∧ t.sticky 0xD0 0 ∧ t.on F.SYN_HIST_switched = true) ∧
  (∀ (k : Fin 15) (diff : BitVec 16) (s : State), s.g F.SYN_STAT_selected ≠ 0xF → k.val ≠ s.g F.SYN_STAT_selected → eligible s k.val = true →
    rankOf s k.val = rankOf s (s.g F.SYN_STAT_selected) → s.cur F.SYN_DISAGREE_disagree_ppm * 10 < diff.toNat →
    ∃ t, exec (.refDisagree k diff) s = .next t ∧ (t.g (F.EVT_RAW 0xD0)).testBit 4 = true ∧
      ((s.g (F.EVT_RAW 0xD0)).testBit 4 = false → t.sticky 0xD0 4) ∧
      t.g F.SYN_DISAGREE_STAT_difference = diff.toNat ∧ t.g F.SYN_DISAGREE_STAT_input_b = k.val ∧ t.on F.SYN_HIST_disagree = true ∧
      t.g F.SYN_STAT_selected = s.g F.SYN_STAT_selected) ∧
  (∀ (k : Fin 15) (diff : BitVec 16) (s : State), diff.toNat ≤ s.cur F.SYN_DISAGREE_disagree_ppm * 10 → exec (.refDisagree k diff) s = .next s)

/-- R455, R456, R464 to R466, R478: ESMC, device time and PPS, and the reference of the on-chip sensors.
Log entries 38, 39, 79, 234: the model's choices in it. -/
def Obligations.TimeAndQualityCarried : Prop :=
  (∀ (p : Fin 32) (c : BitVec 4) (s : State), portState s p.val = 4 → portFlexo s.inForce p.val = false →
    ∃ t, exec (.esmcPduRx p (some c)) s = .next t ∧ t.g (F.SYN_ESMC_rx_ql p.val) = c.toNat ∧ t.on (F.SYN_ESMC_rx_failed p.val) = false) ∧
  (∀ (p : Fin 32) (s : State), portState s p.val = 4 → portFlexo s.inForce p.val = false →
    ∃ t, exec (.esmcPduRx p none) s = .next t ∧ t.g (F.SYN_ESMC_rx_ql p.val) = s.g (F.SYN_ESMC_rx_ql p.val) ∧
      t.g F.ESMC_BAD_count = min (s.g F.ESMC_BAD_count + 1) (2 ^ F.ESMC_BAD_count.width - 1)) ∧
  (∀ s : State, ∃ t, exec .esmcInfoTx s = .next t ∧ ∀ p, p < 32 → esmcSends s p = true →
    Tbl.find t.syn.esmc p = some (esmcCode s p, false, esmcSource s p) ∧ t.g (F.SYN_ESMC_tx_ql p) = esmcCode s p % 16) ∧
  (∀ (p : Fin 32) (s : State), ∃ t, exec (.esmcQlTimeout p) s = .next t ∧ t.on (F.SYN_ESMC_rx_failed p.val) = true) ∧
  (∀ (m : Master) (rate : BitVec 10) (s : State), s.admits m 0xD3 false → s.on F.SYN_TIME_CTRL_busy = false →
    (s.g F.SYN_TIME_SET_LO_time + 2 ^ 32 * s.g F.SYN_TIME_SET_HI_time) % 1000000000 = 0 →
    nextPps s < s.g F.SYN_TIME_SET_LO_time + 2 ^ 32 * s.g F.SYN_TIME_SET_HI_time →
    ∃ t, exec (.setAtPps m rate) s = .next t ∧ t.on F.SYN_TIME_CTRL_busy = true ∧ t.syn.setWaits = true ∧ t.time = s.time) ∧
  (∀ (m : Master) (rate : BitVec 10) (s : State), s.admits m 0xD3 false → s.on F.SYN_TIME_CTRL_busy = false →
    (s.g F.SYN_TIME_SET_LO_time + 2 ^ 32 * s.g F.SYN_TIME_SET_HI_time) % 1000000000 ≠ 0 ∨
      s.g F.SYN_TIME_SET_LO_time + 2 ^ 32 * s.g F.SYN_TIME_SET_HI_time ≤ nextPps s → s.on (F.ERR_valid 0xD3) = false →
    ∃ t, exec (.setAtPps m rate) s = .next t ∧ t.on F.SYN_TIME_CTRL_busy = false ∧ t.syn = s.syn ∧ t.g (F.ERR_code 0xD3) = 0x81) ∧
  (∀ (m : Master) (rate : BitVec 10) (s : State), s.admits m 0xD3 false → s.on F.SYN_TIME_CTRL_busy = true → s.on (F.ERR_valid 0xD3) = false →
    ∃ t, exec (.adjust m rate) s = .next t ∧ t.syn = s.syn ∧ t.g (F.ERR_code 0xD3) = 0x82) ∧
  (∀ (m : Master) (rate : BitVec 10) (s : State), s.admits m 0xD3 false → s.on F.SYN_TIME_CTRL_busy = false →
    ∃ t, exec (.adjust m rate) s = .next t ∧ t.on F.SYN_TIME_CTRL_busy = true ∧
      t.syn.adjust = some (s.now, rate.toNat, signed 32 (s.g F.SYN_TIME_ADJ_offset))) ∧
  (∀ (t0 rate : Nat) (off : Int) (s : State), s.syn.adjust = some (t0, rate, off) → 0 < rate → t0 + off.natAbs * 1000001 < 2 ^ 64 →
    ∃ t, exec .adjustComplete s = .next t ∧ t.syn.adjust = none ∧ t.on F.SYN_TIME_CTRL_busy = false ∧
      t.now = max s.now ((t0 + off.natAbs * 1000000 / rate : Nat) + off).toNat) ∧
  (∀ (x : BitVec 64) (s : State), s.on F.SYN_PPS_CTRL_align = false → ∃ t, exec (.ppsInEdge x) s = .next t ∧
    t.on F.SYN_PPS_STAT_present = true ∧ t.now = max s.now x.toNat ∧
    t.g F.SYN_PPS_IN_TS_LO_time + 2 ^ 32 * t.g F.SYN_PPS_IN_TS_HI_time = unsigned 64 ((x.toNat : Int) - signed 32 (s.g F.SYN_PPS_IN_DELAY_delay))) ∧
  (∀ (x : BitVec 64) (s : State), s.on F.SYN_PPS_CTRL_align = true → s.on F.SYN_TIME_CTRL_busy = false → s.on F.SYN_PPS_STAT_present = true →
    s.syn.aligned = true → s.g F.SYN_PPS_IN_DELAY_delay = 0 → 1000 < x.toNat % 1000000000 → x.toNat % 1000000000 < 500000000 →
    ∃ t, exec (.ppsInEdge x) s = .next t ∧ t.on F.SYN_TIME_CTRL_busy = true ∧
      t.syn.adjust = some (max s.now x.toNat, s.g F.SYN_TIME_CTRL_adj_rate, -((x.toNat % 1000000000 : Nat) : Int))) ∧
  (∀ s : State, s.on F.SYN_PPS_STAT_present = true → ∃ t, exec .ppsInLoss s = .next t ∧ t.on F.SYN_PPS_STAT_present = false ∧
    t.sticky 0xD0 9 ∧ s.now ≤ t.now) ∧
  (∀ s : State, s.syn.setWaits = true → max s.now (nextPps s) < s.g F.SYN_TIME_SET_LO_time + 2 ^ 32 * s.g F.SYN_TIME_SET_HI_time →
    s.g F.SYN_TIME_SET_LO_time + 2 ^ 32 * s.g F.SYN_TIME_SET_HI_time < 2 ^ 64 → ∃ t, exec .ppsOut s = .next t ∧ t.syn.setWaits = false ∧
      t.now = s.g F.SYN_TIME_SET_LO_time + 2 ^ 32 * s.g F.SYN_TIME_SET_HI_time ∧ t.on F.SYN_TIME_CTRL_busy = false ∧ t.sticky 0xD0 10) ∧
  (∀ s : State, s.syn.setWaits = false → s.on F.SYN_PPS_CTRL_out_en = true → nextPps s < 2 ^ 64 → ∃ t, exec .ppsOut s = .next t ∧
    t.now = max s.now (nextPps s) ∧ t.syn.ppsOut = some t.now) ∧
  (∀ s : State, s.on F.THM_CTRL_ref_en = true → s.dev.vaon = true → s.on F.THM_STAT_ref_ready = false →
    ∃ t, exec .refReady s = .next t ∧ t.on F.THM_STAT_ref_ready = true ∧ t.thm.first = false)

/-- R475 to R480: triggers, calibrations, results and the result queue of Thermos.
Log entries 154, 155, 239: the model's choices in it. -/
def Obligations.ThermosConverts : Prop :=
  (∀ s : State, s.cur F.THM_SEQ_period ≠ 0 → s.dev.vaon = true → s.on F.THM_STAT_seq_busy = false → s.on F.THM_STAT_cal_busy = false →
    s.on (F.PAGE_STAT_commit_pending 0xE4) = false → (∃ k, k < 52 ∧ s.curOn (F.THM_CH_CFG_en k) = true) →
    ∃ t, exec .thmTimerTrigger s = .next t ∧ t.on F.THM_STAT_seq_busy = true ∧
      t.thm.todo = (List.range 52).filter fun k => s.curOn (F.THM_CH_CFG_en k)) ∧
  (∀ s : State, s.cur F.THM_SEQ_period ≠ 0 → s.dev.vaon = true → s.on F.THM_STAT_seq_busy = true → s.on F.THM_STAT_trig_pending = false →
    ∃ t, exec .thmTimerTrigger s = .next t ∧ t.on F.THM_STAT_trig_pending = true ∧ t.thm.todo = s.thm.todo ∧ t.thm.queue = s.thm.queue) ∧
  (∀ (m : Master) (s : State), s.admits m 0xE4 true → s.on F.THM_STAT_seq_busy = true → s.on F.THM_STAT_trig_pending = true →
    ∃ t, exec (.thmTrigGo m) s = .next t ∧ t.thm = s.thm ∧ t.sticky 0xE4 1 ∧
      t.g F.THM_TRIG_OVL_count = min (s.g F.THM_TRIG_OVL_count + 1) 0xFFFFFFFF) ∧
  (∀ (m : Master) (s : State), s.admits m 0xE4 true → s.on F.THM_STAT_seq_busy = false → s.on F.THM_STAT_cal_busy = false →
    s.on (F.PAGE_STAT_commit_pending 0xE4) = false → (∃ k, k < 52 ∧ s.curOn (F.THM_CH_CFG_en k) = true) →
    ∃ t, exec (.thmTrigGo m) s = .next t ∧ t.on F.THM_STAT_seq_busy = true ∧
      t.thm.todo = (List.range 52).filter fun k => s.curOn (F.THM_CH_CFG_en k)) ∧
  (∀ (m : Master) (s : State), s.admits m 0xE4 true → s.on F.THM_STAT_cal_busy = false → s.on F.THM_STAT_cal_queued = false →
    ∃ t, exec (.thmCalGo m false) s = .next t ∧
      (s.on F.THM_STAT_seq_busy = true → t.on F.THM_STAT_cal_queued = true) ∧
      (s.on F.THM_STAT_seq_busy = false → s.on F.THM_STAT_ref_ready = true → t.on F.THM_STAT_cal_busy = true) ∧
      (s.on F.THM_STAT_seq_busy = false → s.on F.THM_STAT_ref_ready = false → t.on F.THM_STAT_cal_busy = false ∧ t.sticky 0xE4 3)) ∧
  (∀ (m : Master) (s : State), s.admits m 0xE4 true → s.on F.THM_STAT_cal_busy = true ∨ s.on F.THM_STAT_cal_queued = true →
    s.on (F.ERR_valid 0xE4) = false → ∃ t, exec (.thmCalGo m false) s = .next t ∧ t.g (F.ERR_code 0xE4) = 0xE2) ∧
  (∀ (zero ref : List (BitVec 24)) (z : Int) (d : Nat) (s : State), s.on F.THM_STAT_cal_busy = true → s.on F.THM_STAT_trig_pending = false →
    windowSum 2 (zero.take 4) = z → windowSum 2 (ref.take 4) = z + d → 0 < d → 3774874 ≤ roundEven (4194304 * 6710886) d →
    roundEven (4194304 * 6710886) d ≤ 4613734 →
    ∃ t, exec (.thmCalDone zero ref) s = .next t ∧ t.on F.THM_STAT_cal_busy = false ∧ t.g F.THM_OFFSET_offset = unsigned 24 z ∧
      (t.g F.THM_GAIN_gain : Int) = roundEven (4194304 * 6710886) d ∧ t.thm.passed = true ∧ t.sticky 0xE4 2 ∧
      t.on F.DEV_STATUS_thm_cal_done = true) ∧
  (∀ (zero ref : List (BitVec 24)) (s : State), s.on F.THM_STAT_cal_busy = true → s.on F.THM_STAT_trig_pending = false →
    windowSum 2 (ref.take 4) ≤ windowSum 2 (zero.take 4) →
    ∃ t, exec (.thmCalDone zero ref) s = .next t ∧ t.on F.THM_STAT_cal_busy = false ∧ t.g F.THM_OFFSET_offset = s.g F.THM_OFFSET_offset ∧
      t.g F.THM_GAIN_gain = s.g F.THM_GAIN_gain ∧ t.thm.passed = s.thm.passed ∧ t.sticky 0xE4 3) ∧
  (∀ (tag : Fin 52) (w : List (BitVec 24)) (s : State), s.dev.vaon = true → s.on F.THM_STAT_seq_busy = true → s.thm.todo.head? = some tag.val →
    s.thm.passed = false → s.curOn (F.THM_CH_CFG_queue tag.val) = true → s.thm.queue.length < 128 →
    ∃ t, exec (.thmResult tag w none) s = .next t ∧ t.thm.todo = s.thm.todo.drop 1 ∧ t.thm.seq = (s.thm.seq + 1) % 256 ∧
      t.thm.queue = s.thm.queue ++ [(tag.val, s.thm.seq, t.g (F.THM_CH_LAST_flags tag.val),
        unsigned 32 (windowSum (s.cur (F.THM_CH_CFG_avg_n tag.val)) (w.take (2 ^ s.cur (F.THM_CH_CFG_avg_n tag.val)))))] ∧
      t.g (F.THM_CH_LAST_flags tag.val) = s.thm.gap.toNat + 4 + 8 * (!s.on F.HMP_STAT_aon_xtal_lock).toNat ∧
      t.g (F.THM_CH_FILT_value tag.val) = s.g (F.THM_CH_FILT_value tag.val)) ∧
  (∀ (tag : Fin 52) (w : List (BitVec 24)) (c : Int) (s : State), s.dev.vaon = true → settled s → s.on F.THM_STAT_seq_busy = true →
    s.thm.todo.head? = some tag.val → s.thm.passed = true → s.thm.gap = false → (∀ r, r < 32 → ruleReads s.inForce r tag.val = false) →
    Tbl.get false s.thm.accepted tag.val = false → -8388608 ≤ c → c ≤ 8388607 →
    roundEven ((windowSum (s.cur (F.THM_CH_CFG_avg_n tag.val)) (w.take (2 ^ s.cur (F.THM_CH_CFG_avg_n tag.val))) -
      signed 24 (s.g F.THM_OFFSET_offset)) * (s.g F.THM_GAIN_gain : Int)) 4194304 = c →
    ∃ t, exec (.thmResult tag w none) s = .next t ∧ t.g (F.THM_CH_LAST_value tag.val) = unsigned 24 c ∧
      t.g (F.THM_CH_FILT_value tag.val) = unsigned 24 c ∧ Tbl.get false t.thm.accepted tag.val = true) ∧
  (∀ s : State, s.on F.THM_STAT_seq_busy = true → s.thm.todo = [] → s.on F.THM_STAT_cal_queued = false → s.on F.THM_STAT_trig_pending = false →
    ∃ t, exec .seqDone s = .next t ∧ t.on F.THM_STAT_seq_busy = false ∧ t.g F.THM_STAT_tag = 0 ∧ t.sticky 0xE4 0) ∧
  (∀ s : State, s.on F.THM_STAT_seq_busy = true → s.thm.todo = [] → s.on F.THM_STAT_cal_queued = true → s.on F.THM_STAT_ref_ready = true →
    ∃ t, exec .seqDone s = .next t ∧ t.on F.THM_STAT_seq_busy = false ∧ t.on F.THM_STAT_cal_queued = false ∧
      t.on F.THM_STAT_cal_busy = true) ∧
  (∀ (m : Master) (tag n fl raw : Nat) (q : List (Nat × Nat × Nat × Nat)) (s : State), s.admits m 0xE6 true →
    s.thm.queue = (tag, n, fl, raw) :: q → ∃ t, exec (.thmQPop m) s = .next t ∧ t.thm.queue = q ∧ t.g F.THM_Q_0_tag = tag % 64 ∧
      t.g F.THM_Q_0_seq = n % 256 ∧ t.g F.THM_Q_0_flags = fl % 64 ∧ t.g F.THM_Q_1_raw = raw % 2 ^ 32) ∧
  (∀ (k : Fin 48) (seen ref : BitVec 24) (s : State), s.on F.REP_CTRL_test_en = true → s.on F.REP_CTRL_thm_test_en = true →
    s.on F.THM_STAT_seq_busy = true → s.curOn (F.THM_CH_CFG_en k.val) = true →
    ∃ t, exec (.pathTest k seen ref) s = .next t ∧
      (t.g (if k.val < 32 then F.REP_THM_FAIL_LO_bits else F.REP_THM_FAIL_HI_bits)).testBit (k.val % 32) =
        decide (ref.toInt.natAbs < (seen.toInt - ref.toInt).natAbs * 1000) ∧
      (ref.toInt.natAbs < (seen.toInt - ref.toInt).natAbs * 1000 → t.sticky 0xF0 7))

/-- R483, R484, R494, R495: rules at their 1 ms tick, and captures of the monitor chains.
Log entries 40, 41, 43, 131, 150, 237, 238: the model's choices in it. -/
def Obligations.RulesAndCapturesRun : Prop :=
  (∀ (still : BitVec 6) (alerts : BitVec 2) (s : State), s.dev.vaon = true → settled s →
    (∀ r, r < 32 → s.g (F.HMP_RULE_STAT_state r) = 0 ∧ 2 ≤ s.cur (F.HMP_RULE_CFG_persist r)) →
    ∃ t, exec (.ruleTick still alerts) s = .next t ∧ t.g F.TMP_STAT_raw = s.g F.TMP_STAT_raw &&& still.toNat ∧
      ∀ r, r < 32 → ruleLive s r = true →
        (s.cur (F.HMP_RULE_CFG_src r) = 1 → (t.g F.TMP_STAT_raw).testBit (s.cur (F.HMP_RULE_CFG_index r)) = true →
          t.g (F.HMP_RULE_STAT_state r) = 1 ∧ t.g (F.HMP_RULE_STAT_count r) = 1) ∧
        (s.cur (F.HMP_RULE_CFG_src r) = 2 → alerts.toNat.testBit (s.cur (F.HMP_RULE_CFG_index r)) = false →
          t.g (F.HMP_RULE_STAT_state r) = 0)) ∧
  (∀ (r : Nat) (still : BitVec 6) (alerts : BitVec 2) (s : State), s.dev.vaon = true → settled s → r < 32 →
    (∀ q, q < 32 → q ≠ r → s.curOn (F.HMP_RULE_CFG_en q) = false) → ruleLive s r = true → s.cur (F.HMP_RULE_CFG_src r) = 2 →
    alerts.toNat.testBit (s.cur (F.HMP_RULE_CFG_index r)) = true → s.g (F.HMP_RULE_STAT_state r) = 0 → s.cur (F.HMP_RULE_CFG_persist r) = 1 →
    s.cur (F.HMP_RULE_CFG_actions r) = 2 → ∃ t, exec (.ruleTick still alerts) s = .next t ∧ t.g (F.HMP_RULE_STAT_state r) = 2 ∧
      t.sticky 0xE0 0 ∧ t.sticky 0xE0 1 ∧ (t.g F.HMP_ALARM_alarm).testBit r = true ∧ t.mode = s.mode) ∧
  (∀ (m : Master) (le : Fin 2) (s : State), s.admits m (monPage le.val) false → s.cur (F.MON_CAP_trig_src le.val) = 0 →
    s.g (F.MON_STAT_state le.val) = 1 → ∃ t, exec (.monTrigGo m le) s = .next t ∧ t.g (F.MON_STAT_state le.val) = 2 ∧
      t.g (F.MON_TRIG_T_LO_time le.val) + 2 ^ 32 * t.g (F.MON_TRIG_T_HI_time le.val) = s.now) ∧
  (∀ (m : Master) (le : Fin 2) (s : State), s.admits m (monPage le.val) false → s.cur (F.MON_CAP_trig_src le.val) = 0 →
    s.g (F.MON_STAT_state le.val) = 2 → s.on (F.MON_STAT_pending le.val) = true →
    ∃ t, exec (.monTrigGo m le) s = .next t ∧ t.g (F.MON_STAT_state le.val) = 2 ∧ t.sticky (monPage le.val) 1 ∧
      t.g (F.MON_TRIG_OVL_count le.val) = min (s.g (F.MON_TRIG_OVL_count le.val) + 1) 0xFFFFFFFF) ∧
  (∀ (m : Master) (le : Fin 2) (s : State), s.admits m (monPage le.val) false → ∃ t, exec (.monAbort m le) s = .next t ∧
    t.g (F.MON_STAT_state le.val) = 0 ∧ t.on (F.MON_STAT_pending le.val) = false) ∧
  (∀ (m : Master) (le : Fin 2) (s : State), s.admits m (monPage le.val) false → s.g (F.MON_STAT_state le.val) = 3 →
    ∃ t, exec (.monRearm m le) s = .next t ∧ t.g (F.MON_STAT_state le.val) = 1) ∧
  (∀ (le : Fin 2) (sat : Word) (s : State), monUp s le.val = true → s.curOn (F.MON_CTRL_en le.val) = true →
    s.cur (F.MON_CAP_trig_src le.val) = 1 → s.g (F.MON_STAT_state le.val) = 1 →
    ∃ t, exec (.monTrigger le sat) s = .next t ∧ t.g (F.MON_STAT_state le.val) = 2 ∧
      t.g (F.MON_SAT_count le.val) = min (s.g (F.MON_SAT_count le.val) + sat.toNat) 0xFFFFFFFF ∧
      (sat ≠ 0 → t.sticky (monPage le.val) 3)) ∧
  (∀ (le : Fin 2) (units : BitVec 28) (sat : Word) (s : State), monUp s le.val = true → s.g (F.MON_STAT_state le.val) = 2 →
    s.cur (F.MON_CAP_dest le.val) = 1 → units.toNat ≤ s.cur (F.MON_CAP_LEN_len le.val) → s.on (F.MON_STAT_pending le.val) = false →
    ∃ t, exec (.capDone le units sat []) s = .next t ∧
      t.g (F.MON_STAT_state le.val) = (if s.curOn (F.MON_CAP_one_shot le.val) then 3 else 1) ∧ t.sticky (monPage le.val) 0 ∧
      t.g (F.MON_STAT_length le.val) = units.toNat ∧
      t.on (F.MON_STAT_overrun le.val) = decide (units.toNat < s.cur (F.MON_CAP_LEN_len le.val)) ∧
      t.g (F.MON_CAP_SEQ_count le.val) = (s.g (F.MON_CAP_SEQ_count le.val) + 1) % 2 ^ 32) ∧
  (∀ (le : Fin 2) (units : BitVec 28) (sat : Word) (words : List Word) (s : State), monUp s le.val = true → s.g (F.MON_STAT_state le.val) = 2 →
    s.cur (F.MON_CAP_dest le.val) = 0 → units.toNat = s.cur (F.MON_CAP_LEN_len le.val) → words.length = 16 * units.toNat → units.toNat ≤ 1024 →
    ∃ t, exec (.capDone le units sat words) s = .next t ∧ t.sticky (monPage le.val) 0 ∧ t.on (F.MON_STAT_overrun le.val) = false ∧
      ∀ k, k < words.length → Tbl.get 0 (t.eng le.val).mon.buffer k = (words.getD k 0).toNat)

/-- R429, R500, R502, R507, R508: trim sets, foreground and loop calibration.
Log entries 46, 47, 52, 55, 240, 242: the model's choices in it. -/
def Obligations.CalibrationRuns : Prop :=
  (∀ (m : Master) (le : Fin 2) (p : Fin 6) (w : Fin 512) (v : Word) (s : State), s.admits m 0xF1 true → s.runState le.val = 0 → w.val < 272 →
    ∃ t, exec (.trimWrite m le p w v) s = .next t ∧ t.g (F.TRIM_ADC_gain le.val p.val w.val) = v.toNat / 2 ^ 20 % 2 ^ (F.TRIM_ADC_gain le.val p.val w.val).width ∧
      t.g (F.TRIM_ADC_offset le.val p.val w.val) = v.toNat / 2 ^ 10 % 2 ^ (F.TRIM_ADC_offset le.val p.val w.val).width ∧
      t.g (F.TRIM_ADC_skew le.val p.val w.val) = v.toNat % 2 ^ (F.TRIM_ADC_skew le.val p.val w.val).width) ∧
  (∀ (m : Master) (le : Fin 2) (p : Fin 6) (w : Fin 512) (v : Word) (s : State), s.admits m 0xF1 true → s.runState le.val = 0 → 408 ≤ w.val →
    w.val < 412 → ∃ t, exec (.trimWrite m le p w v) s = .next t ∧ t.g (F.TRIM_LANE_swing le.val p.val (w.val - 408)) = v.toNat / 256 % 256 ∧
      t.g (F.TRIM_LANE_peaking le.val p.val (w.val - 408)) = v.toNat % 256) ∧
  (∀ (m : Master) (le : Fin 2) (p : Fin 6) (w : Fin 512) (v : Word) (s : State), s.admits m 0xF1 true → s.runState le.val ≠ 0 →
    ∃ t, exec (.trimWrite m le p w v) s = .next t ∧ t.sticky 0xF1 26 ∧ ∀ k, k < 272 →
      t.g (F.TRIM_ADC_gain le.val p.val k) = s.g (F.TRIM_ADC_gain le.val p.val k)) ∧
  (∀ (le : Fin 2) (x : BitVec 16) (s : State), s.domainUp 0xF2 = true → ∃ t, exec (.trimUpdate le x) s = .next t ∧
    t.g (F.CAL_ENG_STAT_die_temp le.val) = x.toNat ∧ t.g (F.CAL_ENG_STAT_lower le.val) = trimLower x.toInt ∧
    t.on (F.CAL_ENG_STAT_clamped le.val) = (decide (x.toInt < -320) || decide (880 < x.toInt)) ∧
    (∀ dac lane pos, lane < 4 → pos < convSize dac → (repUnit s le.val dac lane pos).st = 2 →
      40 < (x.toInt - (repUnit s le.val dac lane pos).calTemp).natAbs → (repUnit t le.val dac lane pos).st = 0)) ∧
  (∀ (m : Master) (le : Fin 2) (adc dac fec : Bool) (s : State), s.admits m 0xF2 false → s.mode = 6 → s.dev.maint.testBit le.val = true →
    s.role le.val = 0 → s.runState le.val = 0 → s.on F.CAL_FG_busy = false → ∃ t, exec (.fgCalGo m le adc dac fec) s = .next t ∧
      t.on F.CAL_FG_busy = true ∧ t.on F.CAL_FG_adc = adc ∧ t.on F.CAL_FG_dac = dac ∧ t.on F.CAL_FG_fec = fec ∧ t.g F.CAL_FG_STAT_slices = 0) ∧
  (∀ (m : Master) (le : Fin 2) (adc dac fec : Bool) (s : State), s.admits m 0xF2 false → s.mode ≠ 6 ∨ s.on F.CAL_FG_busy = true →
    s.on (F.ERR_valid 0xF2) = false → ∃ t, exec (.fgCalGo m le adc dac fec) s = .next t ∧ t.on F.CAL_FG_busy = s.on F.CAL_FG_busy ∧
      t.g (F.ERR_code 0xF2) = 0xF5) ∧
  (∀ (adc dac : List UnitCal) (tiles : List (Fin 26)) (s : State), s.on F.CAL_FG_busy = true →
    ∃ t, exec (.fgDone adc dac tiles) s = .next t ∧ t.on F.CAL_FG_busy = false ∧ t.sticky 0xF0 5 ∧ t.rep.fgKinds = 0) ∧
  (∀ (le : Fin 2) (lane : Fin 4) (swing peaking : Fin 3) (cals : List UnitCal) (s : State), s.on (F.CAL_ENG_CTRL_loop_en le.val) = true →
    s.runState le.val = 2 → (s.g (F.UBH_DECL_bytes le.val 0)).testBit 10 = true → (s.g (F.UBH_DECL_bytes le.val 0)).testBit 11 = true →
    ∃ t, exec (.loopCalStep le lane swing peaking false cals) s = .next t ∧
      Tbl.get (0, 0, 0) t.rep.live (convKey le.val true lane.val * 128 + 127) =
        ((Tbl.get (0, 0, 0) s.rep.live (convKey le.val true lane.val * 128 + 127)).1 + ((swing.val : Int) - 1) * 4800,
          (Tbl.get (0, 0, 0) s.rep.live (convKey le.val true lane.val * 128 + 127)).2.1 + ((peaking.val : Int) - 1) * 4800, 0))

/-- R503 to R506, R512, R513: converter units, their spares, and exhausted classes.
Log entries 47, 49, 50, 54, 241: the model's choices in it. -/
def Obligations.SparesTakeOver : Prop :=
  (∀ (le : Fin 2) (dac : Bool) (lane : Fin 4) (p : Nat) (s : State), s.runState le.val ≠ 0 → unitsWhere s le.val dac lane.val (fun u => u.st == 1) = [] →
    calCandidate s le.val dac lane.val = some p → ∃ t, exec (.spareCalStart le dac lane) s = .next t ∧
      (repUnit t le.val dac lane.val p).st = 1 ∧ ∀ q, q < convSize dac → q ≠ p → repUnit t le.val dac lane.val q = repUnit s le.val dac lane.val q) ∧
  (∀ (le : Fin 2) (dac pilot : Bool) (c : UnitCal) (s : State), c.pos.val < convSize dac → (repUnit s le.val dac c.lane.val c.pos.val).st = 1 →
    calWithin dac 1 c = true → ∃ t, exec (.spareCalEnd le dac c pilot) s = .next t ∧ (repUnit t le.val dac c.lane.val c.pos.val).st = 2 ∧
      (repUnit t le.val dac c.lane.val c.pos.val).calAt = s.now ∧ (repUnit t le.val dac c.lane.val c.pos.val).pilot = (pilot && !dac && s.g (F.LE_RX_STATE_state le.val) == 5)) ∧
  (∀ (le : Fin 2) (dac pilot : Bool) (c : UnitCal) (s : State), c.pos.val < convSize dac → (repUnit s le.val dac c.lane.val c.pos.val).st = 1 →
    calWithin dac 1 c = false → calFault dac c = false → ∃ t, exec (.spareCalEnd le dac c pilot) s = .next t ∧
      (if (repUnit s le.val dac c.lane.val c.pos.val).tries < 2 then (repUnit t le.val dac c.lane.val c.pos.val).st = 1 ∧
          (repUnit t le.val dac c.lane.val c.pos.val).tries = (repUnit s le.val dac c.lane.val c.pos.val).tries + 1
        else (repUnit t le.val dac c.lane.val c.pos.val).st = 4 ∧ t.sticky 0xF0 2)) ∧
  (∀ (le : Fin 2) (lane : Fin 4) (sp old : Nat) (rest : List Nat) (s : State), s.on (F.CAL_ENG_CTRL_dac_rot_en le.val) = true → s.runState le.val = 2 →
    s.on (F.LE_TX_PLAN_STAT_reload_busy le.val) = false → unitsWhere s le.val true lane.val (fun u => u.faulty) = [] →
    unitsWhere s le.val true lane.val (fun u => u.st == 2) = sp :: rest →
    leastBy (fun p => (repUnit s le.val true lane.val p).since) (unitsWhere s le.val true lane.val fun u => u.st == 3) = some old →
    ∃ t, exec (.rotationSwap le true lane) s = .next t ∧ (repUnit t le.val true lane.val sp).st = 3 ∧ (repUnit t le.val true lane.val old).st = 0 ∧
      t.sticky (lep le.val 0x16) 4) ∧
  (∀ (le : Fin 2) (dac : Bool) (lane : Fin 4) (p : Fin 68) (s : State), p.val < convSize dac → s.runState le.val ≠ 0 →
    (repUnit s le.val dac lane.val p.val).st = 3 → (repUnit s le.val dac lane.val p.val).faulty = false →
    ∃ t, exec (.unitFault le dac lane p) s = .next t ∧ repUnit t le.val dac lane.val p.val = { repUnit s le.val dac lane.val p.val with faulty := true } ∧
      t.sticky (lep le.val (if dac then 0x16 else 0x19)) (if dac then 5 else 1)) ∧
  (∀ (le : Fin 2) (dac : Bool) (lane : Fin 4) (p sp : Nat) (rest : List Nat) (s : State), unitsWhere s le.val dac lane.val (fun u => u.faulty) = [p] →
    unitsWhere s le.val dac lane.val (fun u => u.st == 2) = sp :: rest → sp ≠ p → ∃ t, exec (.repairSwap le dac lane) s = .next t ∧
      (repUnit t le.val dac lane.val sp).st = 3 ∧ (repUnit t le.val dac lane.val p).st = 4 ∧ (repUnit t le.val dac lane.val p).faulty = false ∧
      t.g (F.REP_CLASS_SWAPS_count (convClass le.val dac)) = min (s.g (F.REP_CLASS_SWAPS_count (convClass le.val dac)) + 1) 0xFFFFFFFF) ∧
  (∀ (c : Fin 10) (s : State), s.domainUp 0xF1 = true → classExhausted s c.val = true → s.on (F.REP_CLASS_STAT_exhausted c.val) = false →
    ∃ t, exec (.classExhausted c) s = .next t ∧ t.on (F.REP_CLASS_STAT_exhausted c.val) = true ∧
      (t.g F.REP_STAT_exhausted).testBit c.val = true ∧ t.on F.REP_STAT_degraded_reported = true ∧ t.on F.DEV_STATUS_spares_exhausted = true ∧
      t.sticky 0xF0 0 ∧ (s.mode = 4 → s.on F.DEV_MODE_transition = false → t.mode = 5)) ∧
  (∀ (c : Fin 10) (s : State), s.domainUp 0xF1 = true → classExhausted s c.val = false → s.on (F.REP_CLASS_STAT_exhausted c.val) = true →
    s.g F.REP_STAT_exhausted = 2 ^ c.val → ∃ t, exec (.classRestored c) s = .next t ∧ t.on (F.REP_CLASS_STAT_exhausted c.val) = false ∧
      t.g F.REP_STAT_exhausted = 0 ∧ t.on F.DEV_STATUS_spares_exhausted = false ∧ t.sticky 0xF0 1 ∧
      (s.mode = 5 → s.on F.DEV_MODE_transition = false → t.mode = 4))

/-- R509, R511: periodic tests and the tests asked for.
Log entries 53, 233: the model's choices in it. -/
def Obligations.SelfTestsRun : Prop :=
  (∀ s : State, s.on F.REP_CTRL_test_en = true → dpll s = 2 → s.on F.SYN_STAT_hold_valid = true → s.on F.SYN_STAT_switching = false →
    ∃ t, exec (.periodicTest .dpll) s = .next t ∧ dpll t = 4 ∧ t.on F.REP_STAT_dpll_test_busy = true) ∧
  (∀ s : State, s.on F.REP_CTRL_test_en = true → s.inService = true → s.rep.nextPipe < 6 →
    (∀ q, q < 6 → s.g (F.CLS_PIPE_STAT_state q) = 0 ∧ s.on (F.CLS_PIPE_STAT_suspect q) = false) →
    ∃ t, exec (.periodicTest .pipe) s = .next t ∧ t.g (F.CLS_PIPE_STAT_state s.rep.nextPipe) = 1 ∧ t.rep.nextPipe = (s.rep.nextPipe + 1) % 6) ∧
  (∀ (c : Fin 8) (n : Nat) (s : State), s.on F.REP_CTRL_test_en = true → s.g (F.CIP_CORE_STAT_state c.val) = 0 →
    s.on (F.CIP_CORE_STAT_suspect c.val) = true → ∃ t, exec (.periodicTest (.core c n)) s = .next t ∧ t.g (F.CIP_CORE_STAT_state c.val) = 1) ∧
  (∀ (e : Nat) (s : State), s.on F.REP_CTRL_test_en = true → memUp s = true → s.buf.ret = none →
    leastBy (fun e => Tbl.get 0 s.rep.pageAt e) ((List.range 4096).filter fun e => (Tbl.get (0, 0) s.buf.remap e).1 == 0) = some e →
    ∃ t, exec (.periodicTest (.page none)) s = .next t ∧ Tbl.get 0 t.rep.pageAt e = t.now ∧ s.now ≤ t.now ∧ t.buf = s.buf) ∧
  (∀ (t' : Periodic) (s : State), s.on F.REP_CTRL_test_en = false → exec (.periodicTest t') s = .next s) ∧
  (∀ (m : Master) (p : Nat) (s : State), s.admits m 0xF0 false → p < 6 →
    (∀ q, q < 6 → s.g (F.CLS_PIPE_STAT_state q) = 0 ∧ (s.on (F.CLS_PIPE_STAT_suspect q) = true ↔ q = p)) →
    ∃ t, exec (.repPipeTest m) s = .next t ∧ t.g (F.CLS_PIPE_STAT_state p) = 1 ∧ t.g F.CLS_STAT_pipes_active = 5) ∧
  (∀ (m : Master) (s : State), s.admits m 0xF0 false → dpll s = 2 → s.on F.SYN_STAT_hold_valid = true → s.on F.SYN_STAT_switching = false →
    ∃ t, exec (.repDpllTest m) s = .next t ∧ dpll t = 4 ∧ t.rep.dpllDue = false) ∧
  (∀ (m : Master) (s : State), s.admits m 0xF0 false → dpll s ≠ 2 → ∃ t, exec (.repDpllTest m) s = .next t ∧ dpll t = dpll s ∧
    t.rep.dpllDue = true) ∧
  (∀ (m : Master) (le : Fin 2) (s : State), s.admits m 0xF0 false → ∃ t, exec (.monTest m le) s = .next t ∧
    Tbl.get false t.rep.monTest le.val = true) ∧
  (∀ (le : Fin 2) (dev : Int) (s : State), Tbl.get false s.rep.monTest le.val = true → monUp s le.val = true →
    s.curOn (F.MON_CTRL_en le.val) = false → ∃ t, exec (.monTestDone le dev) s = .next t ∧ Tbl.get false t.rep.monTest le.val = false ∧
      t.sticky 0xF0 8 ∧ t.on (if le.val = 0 then F.REP_STAT_mon_fail_le0 else F.REP_STAT_mon_fail_le1) = decide (10 < dev.natAbs))

/-- R518 to R523: entries on their way into the event log, and out of it.
Log entries 56, 57, 58, 60: the model's choices in it. -/
def Obligations.EventLogFills : Prop :=
  (∀ (p : Fin 256) (x : LogEntry) (s : State), s.ev.made.find? (fun e => e.page == p.val) = some x → s.evl.sorter.length < 64 →
    ∃ t, exec (.evlEntry p) s = .next t ∧ t.ev.made = s.ev.made.erase x ∧
      (s.evl.last = none → t.evl.sorter = s.evl.sorter ++ [x]) ∧
      (∀ l, s.evl.last = some l → (l ≤ x.stamp → t.evl.sorter = s.evl.sorter ++ [x]) ∧
        (x.stamp < l → t.evl.sorter = s.evl.sorter ++ [{ x with stamp := l, late := true }] ∧
          t.g F.EVL_LATE_count = min (s.g F.EVL_LATE_count + 1) 0xFFFFFFFF))) ∧
  (∀ (x : LogEntry) (s : State), evlNext s.evl.sorter = some x → evlHeld s < 1024 →
    ∃ t, exec .sorterRelease s = .next t ∧ t.evl.sorter = s.evl.sorter.erase x ∧
      t.g F.EVL_HEAD_count = (s.g F.EVL_HEAD_count + 1) % 2 ^ 32 ∧ t.evl.last = some x.stamp ∧ t.evl.gap = false ∧
      Tbl.find t.evl.slots (s.g F.EVL_HEAD_count % 1024) = some { x with seq := Tbl.get 0 s.evl.seqs x.page % 256, gap := s.evl.gap } ∧
      (s.evl.sorter.length < 64 → x.stamp + 20000 < 2 ^ 64 → x.stamp + 20000 ≤ t.now)) ∧
  (∀ (x : LogEntry) (s : State), evlNext s.evl.sorter = some x → 1024 ≤ evlHeld s → s.g F.EVL_CTRL_policy = 1 →
    ∃ t, exec .sorterRelease s = .next t ∧ t.evl.sorter = s.evl.sorter.erase x ∧ t.evl.slots = s.evl.slots ∧ t.evl.gap = true ∧
      t.g F.EVL_HEAD_count = s.g F.EVL_HEAD_count ∧ t.g F.EVL_DROP_count = min (s.g F.EVL_DROP_count + 1) 0xFFFFFFFF ∧ t.sticky 0xFA 1) ∧
  (∀ (x : LogEntry) (s : State), evlNext s.evl.sorter = some x → 1024 ≤ evlHeld s → s.g F.EVL_CTRL_policy = 0 →
    ∃ t, exec .sorterRelease s = .next t ∧ t.evl.sorter = s.evl.sorter.erase x ∧ t.g F.EVL_TAIL_count = (s.g F.EVL_TAIL_count + 1) % 2 ^ 32 ∧
      t.g F.EVL_HEAD_count = (s.g F.EVL_HEAD_count + 1) % 2 ^ 32 ∧ t.g F.EVL_DROP_count = min (s.g F.EVL_DROP_count + 1) 0xFFFFFFFF ∧
      (Tbl.find t.evl.slots (s.g F.EVL_HEAD_count % 1024)).map (fun y => (y.stamp, y.page, y.gap)) = some (x.stamp, x.page, true)) ∧
  (∀ (p : Fin 256) (loss : Bool) (code : Byte) (w : FoldWin) (s : State), s.logRuns = true →
    Tbl.find s.ev.fold ((p.val * 4 + (if loss then 2 else 0)) * 256 + code.toNat) = some w → w.folded ≠ 0 →
    ∃ t, exec (.foldWindowEnd p loss code) s = .next t ∧
      (t.ev.made.getLast?).map (fun e => (e.stamp, e.page, e.code, e.kind)) = some (w.ends, p.val, code.toNat, if loss then 2 else 0) ∧
      t.ev.made.length = s.ev.made.length + 1 ∧
      Tbl.find t.ev.fold ((p.val * 4 + (if loss then 2 else 0)) * 256 + code.toNat) =
        some { ends := w.ends + s.g F.EVL_CTRL_fold_us * 1000, folded := 0 }) ∧
  (∀ (p : Fin 256) (loss : Bool) (code : Byte) (w : FoldWin) (s : State),
    Tbl.find s.ev.fold ((p.val * 4 + (if loss then 2 else 0)) * 256 + code.toNat) = some w → w.folded = 0 →
    ∃ t, exec (.foldWindowEnd p loss code) s = .next t ∧ t.ev.made = s.ev.made ∧
      Tbl.find t.ev.fold ((p.val * 4 + (if loss then 2 else 0)) * 256 + code.toNat) = none) ∧
  (∀ (m : Master) (v : Word) (s : State), s.admits m 0xFA false → (v.toNat + 2 ^ 32 - s.g F.EVL_TAIL_count) % 2 ^ 32 ≤ evlHeld s →
    ∃ t, exec (.evlTailWrite m v) s = .next t ∧ t.g F.EVL_TAIL_count = v.toNat ∧ t.evl.wrapped = false ∧ t.evl.slots = s.evl.slots) ∧
  (∀ (m : Master) (v : Word) (s : State), s.admits m 0xFA false → evlHeld s < (v.toNat + 2 ^ 32 - s.g F.EVL_TAIL_count) % 2 ^ 32 →
    ∃ t, exec (.evlTailWrite m v) s = .next t ∧ t.g F.EVL_TAIL_count = s.g F.EVL_TAIL_count ∧ t.evl = s.evl)

/-- R529 to R536: performance counters, their freeze and their snapshot.
Log entries 61, 64, 65, 67: the model's choices in it. -/
def Obligations.CountersRun : Prop :=
  (∀ (m : Master) (n : Fin 512) (v : Word) (s : State), s.admits m 0xF8 false → ∃ t, exec (.cntSelWrite m n v) s = .next t ∧
    t.on (F.CNT_SEL_en n.val) = v.getLsbD 31 ∧ t.g (F.CNT_SEL_mode n.val) = v.toNat / 2 ^ 29 % 4 ∧ t.on (F.CNT_SEL_chain_in n.val) = v.getLsbD 28 ∧
    t.on (F.CNT_SEL_src n.val) = v.getLsbD 27 ∧ t.g (F.CNT_SEL_sel n.val) = v.toNat / 2 ^ 13 % 2 ^ (F.CNT_SEL_sel n.val).width) ∧
  (∀ (m : Master) (n : Fin 512) (v : Word) (s : State), s.admits m 0xF8 false → pageFrozen s 0xF8 = false →
    ∃ t, exec (.cntHiWrite m n v) s = .next t ∧ t.g (F.CNT_LO_value n.val) = Tbl.get 0 s.cnt.stagedLo n.val % 2 ^ 32 ∧
      t.g (F.CNT_HI_value n.val) = v.toNat % 2 ^ (F.CNT_HI_value n.val).width ∧ t.on (F.CNT_SEL_sat n.val) = false) ∧
  (∀ (m : Master) (n : Fin 512) (v : Word) (s : State), s.admits m 0xF8 false → pageFrozen s 0xF8 = true →
    ∃ t, exec (.cntHiWrite m n v) s = .next t ∧ cntValue t n.val = cntValue s n.val ∧ t.sticky 0xF8 26) ∧
  (∀ (n : Fin 512) (inc : BitVec 48) (s : State), s.on (F.CNT_SEL_en n.val) = true → s.on (F.CNT_SEL_chain_in n.val) = false →
    2 ^ 48 ≤ cntValue s n.val + inc.toNat → (n.val = 511 ∨ s.on (F.CNT_SEL_chain_in (n.val + 1)) = false) →
    ∃ t, exec (.cntWrap n inc) s = .next t ∧ cntValue t n.val = (cntValue s n.val + inc.toNat) % 2 ^ 48 ∧
      (t.g (F.CNT_OVF_bits (n.val / 32))).testBit (n.val % 32) = true ∧ t.sticky 0xF8 0) ∧
  (∀ (n : Fin 512) (inc : BitVec 48) (s : State), s.on (F.CNT_SEL_en n.val) = true → s.on (F.CNT_SEL_chain_in n.val) = false → n.val < 511 →
    s.on (F.CNT_SEL_en (n.val + 1)) = true → s.on (F.CNT_SEL_chain_in (n.val + 1)) = true → 2 ^ 48 ≤ cntValue s n.val + inc.toNat →
    cntValue s n.val < 2 ^ 48 → cntValue s (n.val + 1) + 1 < 2 ^ 48 →
    ∃ t, exec (.cntWrap n inc) s = .next t ∧ cntValue t n.val = cntValue s n.val + inc.toNat - 2 ^ 48 ∧
      cntValue t (n.val + 1) = cntValue s (n.val + 1) + 1) ∧
  (∀ (m : Master) (b : Bool) (lead : BitVec 16) (s : State), s.admits m 0xF8 false → s.on F.CNT_FREEZE_busy = false → s.cnt.frozen ≠ b →
    ∃ t, exec (.freezeRequest m b lead) s = .next t ∧ t.on F.CNT_FREEZE_freeze = b ∧ t.on F.CNT_FREEZE_busy = true ∧
      t.g F.CNT_FREEZE_T_LO_value + 2 ^ 32 * t.g F.CNT_FREEZE_T_HI_value =
        (s.now + 1000 * (lead.toNat % 2 ^ F.CNT_FREEZE_lead.width)) % 2 ^ 64 ∧ t.cnt.frozen = s.cnt.frozen) ∧
  (∀ s : State, s.on F.CNT_FREEZE_busy = true → s.cnt.frozen = false → s.on F.CNT_FREEZE_freeze = true →
    ∃ t, exec .freezeInstant s = .next t ∧ t.cnt.frozen = true ∧ t.on F.CNT_FREEZE_busy = false ∧ t.sticky 0xF8 1) ∧
  (∀ s : State, s.on F.CNT_FREEZE_busy = true → s.cnt.frozen = true → s.on F.CNT_FREEZE_freeze = false →
    ∃ t, exec .freezeInstant s = .next t ∧ t.cnt.frozen = false ∧ t.on F.CNT_FREEZE_busy = false ∧ t.sticky 0xF8 2) ∧
  (∀ s : State, s.on (F.PAGE_STAT_snap_busy 0xF8) = true → ∃ t, exec .cntSnapshot s = .next t ∧
    t.on (F.PAGE_STAT_snap_busy 0xF8) = false ∧ t.sticky 0xF8 24 ∧ t.g (F.SNAP_seq 0xF8) = (s.g (F.SNAP_seq 0xF8) + 1) % 2 ^ (F.SNAP_seq 0xF8).width ∧
    ∀ n, n < 512 → t.g (F.CNT_SNAP_LO_value n) = t.g (F.CNT_LO_value n) % 2 ^ 32)

/-- R538 to R541: units chosen by the sampler and their records.
Log entries 68, 243: the model's choices in it. -/
def Obligations.SamplerRecords : Prop :=
  (∀ (path : Fin 2) (port : Fin 32) (s : State), smpOn s path.val port.val = true → s.inService = true → Tbl.get 0 s.smp.countdown path.val = 0 →
    (smpFlight s path.val).length < 16 →
    ∃ t, exec (.sampleChoose path port) s = .next t ∧ smpFlight t path.val = smpFlight s path.val ++ [(s.now, port.val)] ∧
      t.g F.SMP_STAT_inflight = max (smpFlight t 0).length (smpFlight t 1).length % 2 ^ F.SMP_STAT_inflight.width ∧
      (min (s.g F.SMP_CTRL_j) (s.g F.SMP_CTRL_k) = 0 → Tbl.get 0 t.smp.countdown path.val = 2 ^ s.g F.SMP_CTRL_k)) ∧
  (∀ (path : Fin 2) (port : Fin 32) (s : State), smpOn s path.val port.val = true → s.inService = true → Tbl.get 0 s.smp.countdown path.val = 0 →
    16 ≤ (smpFlight s path.val).length →
    ∃ t, exec (.sampleChoose path port) s = .next t ∧ smpFlight t path.val = smpFlight s path.val ∧ t.sticky 0xF9 1 ∧
      t.g F.SMP_SKIP_count = min (s.g F.SMP_SKIP_count + 1) 0xFFFFFFFF) ∧
  (∀ (path : Fin 2) (i : Fin 16) (u : Sampled) (tIn port : Nat) (s : State), (smpFlight s path.val)[i.val]? = some (tIn, port) →
    s.on F.SMP_STAT_full = false → ∃ t, exec (.sampleRecord path i u) s = .next t ∧
      smpFlight t path.val = (smpFlight s path.val).eraseIdx i.val ∧ t.g F.SMP_WR_COUNT_count = (s.g F.SMP_WR_COUNT_count + 1) % 2 ^ 32 ∧
      t.g F.SMP_STAT_held = min 8192 (s.g F.SMP_STAT_held + 1) ∧
      (∀ w, w < 16 → Tbl.get 0 t.smp.words (s.g F.SMP_WR_COUNT_count % 8192 * 16 + w) = (smpWords path.val tIn s.now port u).getD w 0) ∧
      (s.on F.SMP_CTRL_stop = true → 8191 ≤ s.g F.SMP_STAT_held → t.on F.SMP_STAT_full = true ∧ t.sticky 0xF9 0)) ∧
  (∀ (path : Fin 2) (i : Fin 16) (u : Sampled) (x : Nat × Nat) (s : State), (smpFlight s path.val)[i.val]? = some x → s.on F.SMP_STAT_full = true →
    ∃ t, exec (.sampleRecord path i u) s = .next t ∧ smpFlight t path.val = (smpFlight s path.val).eraseIdx i.val ∧ t.smp.words = s.smp.words ∧
      t.g F.SMP_WR_COUNT_count = s.g F.SMP_WR_COUNT_count) ∧
  (∀ (m : Master) (v : BitVec 31) (s : State), s.admits m 0xF9 false → ∃ t, exec (.smpRestart m v) s = .next t ∧ t.g F.SMP_STAT_held = 0 ∧
    t.on F.SMP_STAT_full = false ∧ t.on F.SMP_CTRL_en = v.getLsbD 30 ∧ t.g F.SMP_WR_COUNT_count = s.g F.SMP_WR_COUNT_count ∧ t.smp = s.smp)
end

