-- ==== Sys2Proof/Laws/Exec.lean ====
section
/-! SUPPORT. The meaning of each command, one lemma per arm of the dispatch. -/
namespace Sys2Proof.Machine

@[simp] theorem exec_registerWrite (m : Master) (addr : Addr) (value : Word) (narrow : Bool) (s : State) : exec (.registerWrite m addr value narrow) s = execRegisterWrite m addr value narrow s := rfl
@[simp] theorem exec_commitGo (m : Master) (p : Fin 256) (s : State) : exec (.commitGo m p) s = execCommitGo m p s := rfl
@[simp] theorem exec_commitCheck (m : Master) (p : Fin 256) (s : State) : exec (.commitCheck m p) s = execCommitCheck m p s := rfl
@[simp] theorem exec_commitDiscard (m : Master) (p : Fin 256) (s : State) : exec (.commitDiscard m p) s = execCommitDiscard m p s := rfl
@[simp] theorem exec_commitApply (p : Fin 256) (s : State) : exec (.commitApply p) s = execCommitApply p s := rfl
@[simp] theorem exec_devCommitSync (m : Master) (s : State) : exec (.devCommitSync m) s = execDevCommitSync m s := rfl
@[simp] theorem exec_softReset (m : Master) (p : Fin 256) (s : State) : exec (.softReset m p) s = execSoftReset m p s := rfl
@[simp] theorem exec_evtForce (m : Master) (p : Fin 256) (bits : Word) (s : State) : exec (.evtForce m p bits) s = execEvtForce m p bits s := rfl
@[simp] theorem exec_pageSnap (m : Master) (p : Fin 256) (s : State) : exec (.pageSnap m p) s = execPageSnap m p s := rfl
@[simp] theorem exec_snapDone (p : Fin 256) (s : State) : exec (.snapDone p) s = execSnapDone p s := rfl
@[simp] theorem exec_lockAcquire (m : Master) (l : LockId) (s : State) : exec (.lockAcquire m l) s = execLockAcquire m l s := rfl
@[simp] theorem exec_lockRelease (m : Master) (l : LockId) (value : Word) (s : State) : exec (.lockRelease m l value) s = execLockRelease m l value s := rfl
@[simp] theorem exec_masterReset (m : Master) (stays : Bool) (s : State) : exec (.masterReset m stays) s = execMasterReset m stays s := rfl
@[simp] theorem exec_mbxTx (m : Master) (n : Fin 12) (value : Word) (s : State) : exec (.mbxTx m n value) s = execMbxTx m n value s := rfl
@[simp] theorem exec_mbxRx (m : Master) (n : Fin 12) (s : State) : exec (.mbxRx m n) s = execMbxRx m n s := rfl
@[simp] theorem exec_mbxTimeout (n : Fin 12) (s : State) : exec (.mbxTimeout n) s = execMbxTimeout n s := rfl
@[simp] theorem exec_mbxHostReset (m : Master) (s : State) : exec (.mbxHostReset m) s = execMbxHostReset m s := rfl
@[simp] theorem exec_pulseSat (dom : Fin 64) (p : Fin 256) (counter : Option (Fin 512)) (s : State) : exec (.pulseSat dom p counter) s = execPulseSat dom p counter s := rfl
@[simp] theorem exec_fifoResync (a b : Fin 64) (pa pb : Fin 256) (dropped : Nat) (s : State) : exec (.fifoResync a b pa pb dropped) s = execFifoResync a b pa pb dropped s := rfl
@[simp] theorem exec_vecEoi (m : Master) (v : Fin 64) (s : State) : exec (.vecEoi m v) s = execVecEoi m v s := rfl
@[simp] theorem exec_msixPendingSend (v : Fin 64) (s : State) : exec (.msixPendingSend v) s = execMsixPendingSend v s := rfl
@[simp] theorem exec_vaonPowerOn (s : State) : exec (.vaonPowerOn) s = execVaonPowerOn s := rfl
@[simp] theorem exec_vaonLoss (s : State) : exec (.vaonLoss) s = execVaonLoss s := rfl
@[simp] theorem exec_xtalLock (s : State) : exec (.xtalLock) s = execXtalLock s := rfl
@[simp] theorem exec_porstAssert (s : State) : exec (.porstAssert) s = execPorstAssert s := rfl
@[simp] theorem exec_porstRelease (s : State) : exec (.porstRelease) s = execPorstRelease s := rfl
@[simp] theorem exec_bcrWaitUs (s : State) : exec (.bcrWaitUs) s = execBcrWaitUs s := rfl
@[simp] theorem exec_avsFail (s : State) : exec (.avsFail) s = execAvsFail s := rfl
@[simp] theorem exec_devReset (m : Master) (key : BitVec 16) (s : State) : exec (.devReset m key) s = execDevReset m key s := rfl
@[simp] theorem exec_enclaveWatchdogExpiry (s : State) : exec (.enclaveWatchdogExpiry) s = execEnclaveWatchdogExpiry s := rfl
@[simp] theorem exec_wakeNWake (s : State) : exec (.wakeNWake) s = execWakeNWake s := rfl
@[simp] theorem exec_spiAccessWake (s : State) : exec (.spiAccessWake) s = execSpiAccessWake s := rfl
@[simp] theorem exec_modeReqDormant (m : Master) (maint : BitVec 2) (s : State) : exec (.modeReqDormant m maint) s = execModeReqDormant m maint s := rfl
@[simp] theorem exec_modeReqSafe (m : Master) (maint : BitVec 2) (s : State) : exec (.modeReqSafe m maint) s = execModeReqSafe m maint s := rfl
@[simp] theorem exec_modeReqStandby (m : Master) (maint : BitVec 2) (s : State) : exec (.modeReqStandby m maint) s = execModeReqStandby m maint s := rfl
@[simp] theorem exec_modeReqService (m : Master) (maint : BitVec 2) (s : State) : exec (.modeReqService m maint) s = execModeReqService m maint s := rfl
@[simp] theorem exec_modeReqMaintenance (m : Master) (maint : BitVec 2) (s : State) : exec (.modeReqMaintenance m maint) s = execModeReqMaintenance m maint s := rfl
@[simp] theorem exec_modeReqNotAllowed (m : Master) (code : BitVec 4) (maint : BitVec 2) (s : State) : exec (.modeReqNotAllowed m code maint) s = execModeReqNotAllowed m code maint s := rfl
@[simp] theorem exec_standbyEntryDone (s : State) : exec (.standbyEntryDone) s = execStandbyEntryDone s := rfl
@[simp] theorem exec_maintEntryDone (s : State) : exec (.maintEntryDone) s = execMaintEntryDone s := rfl
@[simp] theorem exec_engineStartStep (le : Fin 2) (ok : Bool) (cals : List UnitCal) (bad : List (Fin 26)) (s : State) : exec (.engineStartStep le ok cals bad) s = execEngineStartStep le ok cals bad s := rfl
@[simp] theorem exec_engineStopComplete (le : Fin 2) (s : State) : exec (.engineStopComplete le) s = execEngineStopComplete le s := rfl
@[simp] theorem exec_reloadDone (le : Fin 2) (fail : Option Bool) (s : State) : exec (.reloadDone le fail) s = execReloadDone le fail s := rfl
@[simp] theorem exec_timedChangeApply (le : Fin 2) (s : State) : exec (.timedChangeApply le) s = execTimedChangeApply le s := rfl
@[simp] theorem exec_maskMeasurement (le : Fin 2) (psd : List (Fin 256 × Int)) (s : State) : exec (.maskMeasurement le psd) s = execMaskMeasurement le psd s := rfl
@[simp] theorem exec_maskUnmute (m : Master) (le : Fin 2) (bits : Word) (s : State) : exec (.maskUnmute m le bits) s = execMaskUnmute m le bits s := rfl
@[simp] theorem exec_losRawSet (le : Fin 2) (optical : Bool) (s : State) : exec (.losRawSet le optical) s = execLosRawSet le optical s := rfl
@[simp] theorem exec_signalDetected (le : Fin 2) (s : State) : exec (.signalDetected le) s = execSignalDetected le s := rfl
@[simp] theorem exec_cdScanEnd (le : Fin 2) (peak : Option Int) (s : State) : exec (.cdScanEnd le peak) s = execCdScanEnd le peak s := rfl
@[simp] theorem exec_freqOffsetFound (le : Fin 2) (kHz : Int) (s : State) : exec (.freqOffsetFound le kHz) s = execFreqOffsetFound le kHz s := rfl
@[simp] theorem exec_freqAcqTimeout (le : Fin 2) (s : State) : exec (.freqAcqTimeout le) s = execFreqAcqTimeout le s := rfl
@[simp] theorem exec_scAcqTimeout (le : Fin 2) (s : State) : exec (.scAcqTimeout le) s = execScAcqTimeout le s := rfl
@[simp] theorem exec_engineLockLoss (le : Fin 2) (s : State) : exec (.engineLockLoss le) s = execEngineLockLoss le s := rfl
@[simp] theorem exec_freqLimitExceeded (le : Fin 2) (s : State) : exec (.freqLimitExceeded le) s = execFreqLimitExceeded le s := rfl
@[simp] theorem exec_scConverged (le : Fin 2) (k : Fin 32) (s : State) : exec (.scConverged le k) s = execScConverged le k s := rfl
@[simp] theorem exec_scConvergeTimeout (le : Fin 2) (k : Fin 32) (s : State) : exec (.scConvergeTimeout le k) s = execScConvergeTimeout le k s := rfl
@[simp] theorem exec_pilotSyncFound (le : Fin 2) (k : Fin 32) (conjugate : Bool) (s : State) : exec (.pilotSyncFound le k conjugate) s = execPilotSyncFound le k conjugate s := rfl
@[simp] theorem exec_pilotSyncTimeout (le : Fin 2) (k : Fin 32) (s : State) : exec (.pilotSyncTimeout le k) s = execPilotSyncTimeout le k s := rfl
@[simp] theorem exec_scLockLost (le : Fin 2) (k : Fin 32) (s : State) : exec (.scLockLost le k) s = execScLockLost le k s := rfl
@[simp] theorem exec_singular (le : Fin 2) (k : Fin 32) (s : State) : exec (.singular le k) s = execSingular le k s := rfl
@[simp] theorem exec_cycleSlip (le : Fin 2) (k : Fin 32) (s : State) : exec (.cycleSlip le k) s = execCycleSlip le k s := rfl
@[simp] theorem exec_cdTrackStep (le : Fin 2) (residual : Int) (s : State) : exec (.cdTrackStep le residual) s = execCdTrackStep le residual s := rfl
@[simp] theorem exec_entropyAnn (le : Fin 2) (body : List Byte) (s : State) : exec (.entropyAnn le body) s = execEntropyAnn le body s := rfl
@[simp] theorem exec_followApply (le : Fin 2) (s : State) : exec (.followApply le) s = execFollowApply le s := rfl
@[simp] theorem exec_followAlternate (le : Fin 2) (s : State) : exec (.followAlternate le) s = execFollowAlternate le s := rfl
@[simp] theorem exec_followGiveUp (le : Fin 2) (s : State) : exec (.followGiveUp le) s = execFollowGiveUp le s := rfl
@[simp] theorem exec_reflCandidate (le : Fin 2) (peak : Nat) (level : Int) (s : State) : exec (.reflCandidate le peak level) s = execReflCandidate le peak level s := rfl
@[simp] theorem exec_reflCandidateEnd (le : Fin 2) (r : Fin 8) (level : Int) (suppression : Int) (s : State) : exec (.reflCandidateEnd le r level suppression) s = execReflCandidateEnd le r level suppression s := rfl
@[simp] theorem exec_reflLost (le : Fin 2) (r : Fin 8) (s : State) : exec (.reflLost le r) s = execReflLost le r s := rfl
@[simp] theorem exec_reflDelayMove (le : Fin 2) (r : Fin 8) (offset : Int) (s : State) : exec (.reflDelayMove le r offset) s = execReflDelayMove le r offset s := rfl
@[simp] theorem exec_qualInterval (le : Fin 2) (q : List (Fin 32 × Quality)) (s : State) : exec (.qualInterval le q) s = execQualInterval le q s := rfl
@[simp] theorem exec_mapBuild (le : Fin 2) (s : State) : exec (.mapBuild le) s = execMapBuild le s := rfl
@[simp] theorem exec_mapSegment (le : Fin 2) (k : Fin 32) (latch : BitVec 64) (seg : List Byte) (s : State) : exec (.mapSegment le k latch seg) s = execMapSegment le k latch seg s := rfl
@[simp] theorem exec_assign (le : Fin 2) (id : Fin 512) (tag : BitVec 24) (home : Fin 32) (ro : BitVec 20) (s : State) : exec (.assign le id tag home ro) s = execAssign le id tag home ro s := rfl
@[simp] theorem exec_rangeAdj (le : Fin 2) (id : Fin 512) (done : Bool) (change seq : BitVec 16) (tag : List Byte) (s : State) : exec (.rangeAdj le id done change seq tag) s = execRangeAdj le id done change seq tag s := rfl
@[simp] theorem exec_powerAdj (le : Fin 2) (id : Fin 512) (change seq : BitVec 16) (tag : List Byte) (s : State) : exec (.powerAdj le id change seq tag) s = execPowerAdj le id change seq tag s := rfl
@[simp] theorem exec_quiesce (le : Fin 2) (id : Fin 512) (seq : BitVec 16) (tag : List Byte) (s : State) : exec (.quiesce le id seq tag) s = execQuiesce le id seq tag s := rfl
@[simp] theorem exec_release (le : Fin 2) (id : Fin 512) (seq : BitVec 16) (tag : List Byte) (s : State) : exec (.release le id seq tag) s = execRelease le id seq tag s := rfl
@[simp] theorem exec_deregister (le : Fin 2) (id : Fin 512) (seq : BitVec 16) (tag : List Byte) (s : State) : exec (.deregister le id seq tag) s = execDeregister le id seq tag s := rfl
@[simp] theorem exec_lmsgGo (m : Master) (le : Fin 2) (s : State) : exec (.lmsgGo m le) s = execLmsgGo m le s := rfl
@[simp] theorem exec_leafMsgRepeat (le : Fin 2) (i : Fin 512) (s : State) : exec (.leafMsgRepeat le i) s = execLeafMsgRepeat le i s := rfl
@[simp] theorem exec_burstTransmit (le : Fin 2) (g : BitVec 64) (s : State) : exec (.burstTransmit le g) s = execBurstTransmit le g s := rfl
@[simp] theorem exec_discoveryBurst (le : Fin 2) (g : BitVec 64) (s : State) : exec (.discoveryBurst le g) s = execDiscoveryBurst le g s := rfl
@[simp] theorem exec_discoveryWaitExpiry (le : Fin 2) (s : State) : exec (.discoveryWaitExpiry le) s = execDiscoveryWaitExpiry le s := rfl
@[simp] theorem exec_selfGuardTrip (le : Fin 2) (s : State) : exec (.selfGuardTrip le) s = execSelfGuardTrip le s := rfl
@[simp] theorem exec_segmentLossDark (le : Fin 2) (s : State) : exec (.segmentLossDark le) s = execSegmentLossDark le s := rfl
@[simp] theorem exec_mapLost (le : Fin 2) (s : State) : exec (.mapLost le) s = execMapLost le s := rfl
@[simp] theorem exec_leafIdExpire (le : Fin 2) (s : State) : exec (.leafIdExpire le) s = execLeafIdExpire le s := rfl
@[simp] theorem exec_leafClr (m : Master) (le : Fin 2) (s : State) : exec (.leafClr m le) s = execLeafClr m le s := rfl
@[simp] theorem exec_preambleDetect (le : Fin 2) (sc : Fin 32) (bands : List (Fin 3 × Fin 4)) (found : List (BitVec 9 × BitVec 16)) (rho : BitVec 8) (arrival : BitVec 64) (s : State) : exec (.preambleDetect le sc bands found rho arrival) s = execPreambleDetect le sc bands found rho arrival s := rfl
@[simp] theorem exec_burstHeaderDecode (le : Fin 2) (sc : Fin 32) (w : Fin 3) (band : Fin 4) (hdr : BitVec 64) (s : State) : exec (.burstHeaderDecode le sc w band hdr) s = execBurstHeaderDecode le sc w band hdr s := rfl
@[simp] theorem exec_rogueDecay (le : Fin 2) (i : Fin 512) (s : State) : exec (.rogueDecay le i) s = execRogueDecay le i s := rfl
@[simp] theorem exec_burstRxDone (le : Fin 2) (sc : Fin 32) (w : Fin 3) (band : Fin 4) (evm : BitVec 16) (power : Int) (failed : Nat) (cd : Int) (s : State) : exec (.burstRxDone le sc w band evm power failed cd) s = execBurstRxDone le sc w band evm power failed cd s := rfl
@[simp] theorem exec_burstLossDetect (le : Fin 2) (i : Fin 512) (s : State) : exec (.burstLossDetect le i) s = execBurstLossDetect le i s := rfl
@[simp] theorem exec_idleMeasure (le : Fin 2) (sc : Fin 32) (w : Fin 3) (band : Fin 4) (power : Int) (s : State) : exec (.idleMeasure le sc w band power) s = execIdleMeasure le sc w band power s := rfl
@[simp] theorem exec_brecPop (m : Master) (le : Fin 2) (s : State) : exec (.brecPop m le) s = execBrecPop m le s := rfl
@[simp] theorem exec_fecBlockDecode (le : Fin 2) (k : Fin 32) (burst : Bool) (d : Decoded) (s : State) : exec (.fecBlockDecode le k burst d) s = execFecBlockDecode le k burst d s := rfl
@[simp] theorem exec_cwCandidateFound (le : Fin 2) (k : Fin 32) (s : State) : exec (.cwCandidateFound le k) s = execCwCandidateFound le k s := rfl
@[simp] theorem exec_tileSwap (le : Fin 2) (inFlight : Fin 3) (s : State) : exec (.tileSwap le inFlight) s = execTileSwap le inFlight s := rfl
@[simp] theorem exec_fecEncode (le : Fin 2) (info : List Word) (faults : List Nat) (s : State) : exec (.fecEncode le info faults) s = execFecEncode le info faults s := rfl
@[simp] theorem exec_glfFrameTx (le : Fin 2) (s : State) : exec (.glfFrameTx le) s = execGlfFrameTx le s := rfl
@[simp] theorem exec_glfHeaderRx (le : Fin 2) (k : Fin 32) (pos : Nat) (hdr partB : List Byte) (jc : List (Fin 32 × Word)) (s : State) : exec (.glfHeaderRx le k pos hdr partB jc) s = execGlfHeaderRx le k pos hdr partB jc s := rfl
@[simp] theorem exec_slotMap (le : Fin 2) (k : Fin 32) (body : List Byte) (s : State) : exec (.slotMap le k body) s = execSlotMap le k body s := rfl
@[simp] theorem exec_cellRx (le : Fin 2) (c : Fin 64) (hdr : BitVec 64) (failed : Bool) (s : State) : exec (.cellRx le c hdr failed) s = execCellRx le c hdr failed s := rfl
@[simp] theorem exec_deskewRelease (g : Fin 64) (fc : BitVec 32) (late bad : List (Fin 16)) (dd : BitVec 20) (last : Fin 16) (s : State) : exec (.deskewRelease g fc late bad dd last) s = execDeskewRelease g fc late bad dd last s := rfl
@[simp] theorem exec_defectDeclare (d : Fin 12) (x : DefScope) (noFrame : Bool) (s : State) : exec (.defectDeclare d x noFrame) s = execDefectDeclare d x noFrame s := rfl
@[simp] theorem exec_defectClear (d : Fin 12) (x : DefScope) (s : State) : exec (.defectClear d x) s = execDefectClear d x s := rfl
@[simp] theorem exec_mspStatus (body : List Byte) (s : State) : exec (.mspStatus body) s = execMspStatus body s := rfl
@[simp] theorem exec_propose (body : List Byte) (fits : Bool) (s : State) : exec (.propose body fits) s = execPropose body fits s := rfl
@[simp] theorem exec_accept (body : List Byte) (s : State) : exec (.accept body) s = execAccept body s := rfl
@[simp] theorem exec_reject (body : List Byte) (s : State) : exec (.reject body) s = execReject body s := rfl
@[simp] theorem exec_arm (body : List Byte) (s : State) : exec (.arm body) s = execArm body s := rfl
@[simp] theorem exec_reqRemove (body : List Byte) (s : State) : exec (.reqRemove body) s = execReqRemove body s := rfl
@[simp] theorem exec_mspMsgRepeat (g : Fin 64) (sink : Bool) (s : State) : exec (.mspMsgRepeat g sink) s = execMspMsgRepeat g sink s := rfl
@[simp] theorem exec_mspProposeTimeout (g : Fin 64) (s : State) : exec (.mspProposeTimeout g) s = execMspProposeTimeout g s := rfl
@[simp] theorem exec_mspReadyTimeout (g : Fin 64) (s : State) : exec (.mspReadyTimeout g) s = execMspReadyTimeout g s := rfl
@[simp] theorem exec_mspSwitch (g : Fin 64) (s : State) : exec (.mspSwitch g) s = execMspSwitch g s := rfl
@[simp] theorem exec_laneSignalDetect (k : Fin 32) (s : State) : exec (.laneSignalDetect k) s = execLaneSignalDetect k s := rfl
@[simp] theorem exec_cdrConverged (k : Fin 32) (inverted : Bool) (snr : Byte) (s : State) : exec (.cdrConverged k inverted snr) s = execCdrConverged k inverted snr s := rfl
@[simp] theorem exec_cdrTimeout (k : Fin 32) (s : State) : exec (.cdrTimeout k) s = execCdrTimeout k s := rfl
@[simp] theorem exec_trainingComplete (k : Fin 32) (taps : Word) (s : State) : exec (.trainingComplete k taps) s = execTrainingComplete k taps s := rfl
@[simp] theorem exec_trainFail (k : Fin 32) (s : State) : exec (.trainFail k) s = execTrainFail k s := rfl
@[simp] theorem exec_laneFault (k : Fin 32) (lost : Nat) (s : State) : exec (.laneFault k lost) s = execLaneFault k lost s := rfl
@[simp] theorem exec_capabilityFrame (k : Fin 32) (marker : Word) (version lane flags lanes : Byte) (tag : BitVec 24) (port : Byte) (tail : Word) (s : State) : exec (.capabilityFrame k marker version lane flags lanes tag port tail) s = execCapabilityFrame k marker version lane flags lanes tag port tail s := rfl
@[simp] theorem exec_exchangeWindowExpiry (p : Fin 32) (s : State) : exec (.exchangeWindowExpiry p) s = execExchangeWindowExpiry p s := rfl
@[simp] theorem exec_portAligned (p : Fin 32) (found : PortAlignment) (s : State) : exec (.portAligned p found) s = execPortAligned p found s := rfl
@[simp] theorem exec_alignmentLost (p : Fin 32) (s : State) : exec (.alignmentLost p) s = execAlignmentLost p s := rfl
@[simp] theorem exec_spareReq (p : Fin 32) (lane : Fin 8) (seq : Byte) (s : State) : exec (.spareReq p lane seq) s = execSpareReq p lane seq s := rfl
@[simp] theorem exec_spareAck (p : Fin 32) (lane : Fin 8) (seq : Byte) (s : State) : exec (.spareAck p lane seq) s = execSpareAck p lane seq s := rfl
@[simp] theorem exec_spareReqRepeat (p : Fin 32) (s : State) : exec (.spareReqRepeat p) s = execSpareReqRepeat p s := rfl
@[simp] theorem exec_spareSwitch (p : Fin 32) (lost : Nat) (s : State) : exec (.spareSwitch p lost) s = execSpareSwitch p lost s := rfl
@[simp] theorem exec_sleep (p : Fin 32) (s : State) : exec (.sleep p) s = execSleep p s := rfl
@[simp] theorem exec_wake (p : Fin 32) (s : State) : exec (.wake p) s = execWake p s := rfl
@[simp] theorem exec_sleepEntry (p : Fin 32) (s : State) : exec (.sleepEntry p) s = execSleepEntry p s := rfl
@[simp] theorem exec_ingressFrame (p : Fin 32) (len : Nat) (overload : Bool) (line : PortLine) (s : State) : exec (.ingressFrame p len overload line) s = execIngressFrame p len overload line s := rfl
@[simp] theorem exec_egressFrame (p : Fin 32) (len queued idleAdj : Nat) (slip : Bool) (s : State) : exec (.egressFrame p len queued idleAdj slip) s = execEgressFrame p len queued idleAdj slip s := rfl
@[simp] theorem exec_esmcPduRx (p : Fin 32) (code : Option (BitVec 4)) (s : State) : exec (.esmcPduRx p code) s = execEsmcPduRx p code s := rfl
@[simp] theorem exec_esmcInfoTx (s : State) : exec (.esmcInfoTx) s = execEsmcInfoTx s := rfl
@[simp] theorem exec_esmcQlTimeout (p : Fin 32) (s : State) : exec (.esmcQlTimeout p) s = execEsmcQlTimeout p s := rfl
@[simp] theorem exec_firstPass (p : Fin 32) (frame : List Byte) (fcsBad : Bool) (pipe : Fin 6) (ue : List Nat) (ce : Nat) (differs : Bool) (s : State) : exec (.firstPass p frame fcsBad pipe ue ce differs) s = execFirstPass p frame fcsBad pipe ue ce differs s := rfl
@[simp] theorem exec_secondPass (id : Nat) (pipe : Fin 6) (ue : List Nat) (ce : Nat) (differs : Bool) (s : State) : exec (.secondPass id pipe ue ce differs) s = execSecondPass id pipe ue ce differs s := rfl
@[simp] theorem exec_recircTimeout (id : Nat) (s : State) : exec (.recircTimeout id) s = execRecircTimeout id s := rfl
@[simp] theorem exec_packetRelease (id : Nat) (s : State) : exec (.packetRelease id) s = execPacketRelease id s := rfl
@[simp] theorem exec_bankDrainDone (s : State) : exec (.bankDrainDone) s = execBankDrainDone s := rfl
@[simp] theorem exec_clsBankCopy (m : Master) (s : State) : exec (.clsBankCopy m) s = execClsBankCopy m s := rfl
@[simp] theorem exec_copyDone (ue : List (Fin 0x1000000)) (s : State) : exec (.copyDone ue) s = execCopyDone ue s := rfl
@[simp] theorem exec_clsWinWrite (m : Master) (b : Fin 2) (off : BitVec 24) (value : Word) (s : State) : exec (.clsWinWrite m b off value) s = execClsWinWrite m b off value s := rfl
@[simp] theorem exec_pipeTestStart (p : Fin 6) (s : State) : exec (.pipeTestStart p) s = execPipeTestStart p s := rfl
@[simp] theorem exec_pipeTestDone (p : Fin 6) (ok : Bool) (s : State) : exec (.pipeTestDone p ok) s = execPipeTestDone p ok s := rfl
@[simp] theorem exec_bufMemRead (n : Fin 528482304) (source : Fin 6) (ups : List (Fin 36 × Byte)) (s : State) : exec (.bufMemRead n source ups) s = execBufMemRead n source ups s := rfl
@[simp] theorem exec_bufMemWrite (n : Fin 528482304) (mask : Word) (data : BitVec 256) (source : Fin 6) (s : State) : exec (.bufMemWrite n mask data source) s = execBufMemWrite n mask data source s := rfl
@[simp] theorem exec_scrubRead (ups : List (Fin 36 × Byte)) (late : Bool) (s : State) : exec (.scrubRead ups late) s = execScrubRead ups late s := rfl
@[simp] theorem exec_hardClr (m : Master) (s : State) : exec (.hardClr m) s = execHardClr m s := rfl
@[simp] theorem exec_injGo (m : Master) (s : State) : exec (.injGo m) s = execInjGo m s := rfl
@[simp] theorem exec_injDone (s : State) : exec (.injDone) s = execInjDone s := rfl
@[simp] theorem exec_bufLogPop (m : Master) (s : State) : exec (.bufLogPop m) s = execBufLogPop m s := rfl
@[simp] theorem exec_retireGo (m : Master) (s : State) : exec (.retireGo m) s = execRetireGo m s := rfl
@[simp] theorem exec_restoreGo (m : Master) (s : State) : exec (.restoreGo m) s = execRestoreGo m s := rfl
@[simp] theorem exec_marchTestDone (ok : Bool) (s : State) : exec (.marchTestDone ok) s = execMarchTestDone ok s := rfl
@[simp] theorem exec_retireCopyDone (s : State) : exec (.retireCopyDone) s = execRetireCopyDone s := rfl
@[simp] theorem exec_retireSwitch (s : State) : exec (.retireSwitch) s = execRetireSwitch s := rfl
@[simp] theorem exec_rowrepGo (m : Master) (s : State) : exec (.rowrepGo m) s = execRowrepGo m s := rfl
@[simp] theorem exec_rowrepStep (s : State) : exec (.rowrepStep) s = execRowrepStep s := rfl
@[simp] theorem exec_rowrepTestDone (ok : Bool) (s : State) : exec (.rowrepTestDone ok) s = execRowrepTestDone ok s := rfl
@[simp] theorem exec_hostWinRead (m : Master) (off : Fin 65536) (s : State) : exec (.hostWinRead m off) s = execHostWinRead m off s := rfl
@[simp] theorem exec_hostWinWrite (m : Master) (off : Fin 65536) (value : Word) (s : State) : exec (.hostWinWrite m off value) s = execHostWinWrite m off value s := rfl
@[simp] theorem exec_dataTxUnit (i : Fin 1024) (period : BitVec 32) (start : Fin 1000) (hdr : BitVec 64) (plain : List Byte) (mism : Option (Fin 8 × Bool)) (s : State) : exec (.dataTxUnit i period start hdr plain mism) s = execDataTxUnit i period start hdr plain mism s := rfl
@[simp] theorem exec_dataRxUnit (i : Fin 1024) (unit : BitVec 32) (start : Fin 1000) (hdr : BitVec 64) (text : List Byte) (tag : BitVec 128) (replaced : Bool) (mism : Option (Fin 8 × Bool)) (s : State) : exec (.dataRxUnit i unit start hdr text tag replaced mism) s = execDataRxUnit i unit start hdr text tag replaced mism s := rfl
@[simp] theorem exec_keyLoad (id : BitVec 16) (words : List Word) (s : State) : exec (.keyLoad id words) s = execKeyLoad id words s := rfl
@[simp] theorem exec_keyErase (id : BitVec 16) (words : List Word) (s : State) : exec (.keyErase id words) s = execKeyErase id words s := rfl
@[simp] theorem exec_keyActivate (id : BitVec 16) (words : List Word) (s : State) : exec (.keyActivate id words) s = execKeyActivate id words s := rfl
@[simp] theorem exec_kxStart (m : Master) (tx rx : Fin 1024) (s : State) : exec (.kxStart m tx rx) s = execKxStart m tx rx s := rfl
@[simp] theorem exec_kxCert (le : Fin 2) (body : List Byte) (s : State) : exec (.kxCert le body) s = execKxCert le body s := rfl
@[simp] theorem exec_kxInit (le : Fin 2) (body : List Byte) (s : State) : exec (.kxInit le body) s = execKxInit le body s := rfl
@[simp] theorem exec_kxResp (le : Fin 2) (body : List Byte) (s : State) : exec (.kxResp le body) s = execKxResp le body s := rfl
@[simp] theorem exec_kxConfirm (le : Fin 2) (body : List Byte) (s : State) : exec (.kxConfirm le body) s = execKxConfirm le body s := rfl
@[simp] theorem exec_kxAck (le : Fin 2) (body : List Byte) (s : State) : exec (.kxAck le body) s = execKxAck le body s := rfl
@[simp] theorem exec_kxSwitch (le : Fin 2) (body : List Byte) (s : State) : exec (.kxSwitch le body) s = execKxSwitch le body s := rfl
@[simp] theorem exec_kxAbort (le : Fin 2) (body : List Byte) (s : State) : exec (.kxAbort le body) s = execKxAbort le body s := rfl
@[simp] theorem exec_kxRepeat (j : Fin 16) (s : State) : exec (.kxRepeat j) s = execKxRepeat j s := rfl
@[simp] theorem exec_kxTimeout (j : Fin 16) (s : State) : exec (.kxTimeout j) s = execKxTimeout j s := rfl
@[simp] theorem exec_coreTestStart (c : Fin 8) (chunks : Nat) (s : State) : exec (.coreTestStart c chunks) s = execCoreTestStart c chunks s := rfl
@[simp] theorem exec_coreTestDone (c : Fin 8) (ok : Bool) (s : State) : exec (.coreTestDone c ok) s = execCoreTestDone c ok s := rfl
@[simp] theorem exec_nonceGet (fw : Bool) (id : BitVec 16) (words : List Word) (s : State) : exec (.nonceGet fw id words) s = execNonceGet fw id words s := rfl
@[simp] theorem exec_chgSubmit (fw : Bool) (id : BitVec 16) (words : List Word) (s : State) : exec (.chgSubmit fw id words) s = execChgSubmit fw id words s := rfl
@[simp] theorem exec_attest (fw : Bool) (id : BitVec 16) (words : List Word) (s : State) : exec (.attest fw id words) s = execAttest fw id words s := rfl
@[simp] theorem exec_chgAbort (fw : Bool) (id : BitVec 16) (words : List Word) (s : State) : exec (.chgAbort fw id words) s = execChgAbort fw id words s := rfl
@[simp] theorem exec_klkPub (fw : Bool) (id : BitVec 16) (words : List Word) (s : State) : exec (.klkPub fw id words) s = execKlkPub fw id words s := rfl
@[simp] theorem exec_chgExpiry (h : Fin 4) (s : State) : exec (.chgExpiry h) s = execChgExpiry h s := rfl
@[simp] theorem exec_debugExpire (s : State) : exec (.debugExpire) s = execDebugExpire s := rfl
@[simp] theorem exec_overrideEnd (le : Fin 2) (s : State) : exec (.overrideEnd le) s = execOverrideEnd le s := rfl
@[simp] theorem exec_tamperTrip (c : Fin 6) (lights : BitVec 16) (s : State) : exec (.tamperTrip c lights) s = execTamperTrip c lights s := rfl
@[simp] theorem exec_hello (le : Fin 2) (r : List Byte) (s : State) : exec (.hello le r) s = execHello le r s := rfl
@[simp] theorem exec_certRead (le : Fin 2) (r : List Byte) (s : State) : exec (.certRead le r) s = execCertRead le r s := rfl
@[simp] theorem exec_auth (le : Fin 2) (r : List Byte) (s : State) : exec (.auth le r) s = execAuth le r s := rfl
@[simp] theorem exec_txDisable (le : Fin 2) (r : List Byte) (s : State) : exec (.txDisable le r) s = execTxDisable le r s := rfl
@[simp] theorem exec_txEnable (le : Fin 2) (r : List Byte) (s : State) : exec (.txEnable le r) s = execTxEnable le r s := rfl
@[simp] theorem exec_status (le : Fin 2) (r : List Byte) (s : State) : exec (.status le r) s = execStatus le r s := rfl
@[simp] theorem exec_alertRead (le : Fin 2) (r : List Byte) (s : State) : exec (.alertRead le r) s = execAlertRead le r s := rfl
@[simp] theorem exec_lifeRead (le : Fin 2) (r : List Byte) (s : State) : exec (.lifeRead le r) s = execLifeRead le r s := rfl
@[simp] theorem exec_memRead (le : Fin 2) (addr : BitVec 16) (len : Byte) (r : List Byte) (s : State) : exec (.memRead le addr len r) s = execMemRead le addr len r s := rfl
@[simp] theorem exec_memWrite (le : Fin 2) (addr : BitVec 16) (data r : List Byte) (s : State) : exec (.memWrite le addr data r) s = execMemWrite le addr data r s := rfl
@[simp] theorem exec_ubhResend (le : Fin 2) (r : List Byte) (s : State) : exec (.ubhResend le r) s = execUbhResend le r s := rfl
@[simp] theorem exec_ubhAbsent (le : Fin 2) (s : State) : exec (.ubhAbsent le) s = execUbhAbsent le s := rfl
@[simp] theorem exec_ubhAlertFall (le : Fin 2) (s : State) : exec (.ubhAlertFall le) s = execUbhAlertFall le s := rfl
@[simp] theorem exec_ubhHold (m : Master) (le : Fin 2) (hold allow : Bool) (s : State) : exec (.ubhHold m le hold allow) s = execUbhHold m le hold allow s := rfl
@[simp] theorem exec_ubhPtGo (m : Master) (le : Fin 2) (write : Bool) (len : Byte) (addr : BitVec 16) (s : State) : exec (.ubhPtGo m le write len addr) s = execUbhPtGo m le write len addr s := rfl
@[simp] theorem exec_inputFault (k : Fin 15) (s : State) : exec (.inputFault k) s = execInputFault k s := rfl
@[simp] theorem exec_inputFaultClear (k : Fin 15) (s : State) : exec (.inputFaultClear k) s = execInputFaultClear k s := rfl
@[simp] theorem exec_inputQualified (k : Fin 15) (s : State) : exec (.inputQualified k) s = execInputQualified k s := rfl
@[simp] theorem exec_selectionEval (freq : BitVec 32) (offs : List (Fin 15 × BitVec 16)) (s : State) : exec (.selectionEval freq offs) s = execSelectionEval freq offs s := rfl
@[simp] theorem exec_dpllLocked (s : State) : exec (.dpllLocked) s = execDpllLocked s := rfl
@[simp] theorem exec_holdoverOos (s : State) : exec (.holdoverOos) s = execHoldoverOos s := rfl
@[simp] theorem exec_dpllTestStart (s : State) : exec (.dpllTestStart) s = execDpllTestStart s := rfl
@[simp] theorem exec_dpllTestEnd (ok : Bool) (s : State) : exec (.dpllTestEnd ok) s = execDpllTestEnd ok s := rfl
@[simp] theorem exec_switchComplete (s : State) : exec (.switchComplete) s = execSwitchComplete s := rfl
@[simp] theorem exec_refDisagree (k : Fin 15) (diff : BitVec 16) (s : State) : exec (.refDisagree k diff) s = execRefDisagree k diff s := rfl
@[simp] theorem exec_setAtPps (m : Master) (rate : BitVec 10) (s : State) : exec (.setAtPps m rate) s = execSetAtPps m rate s := rfl
@[simp] theorem exec_adjust (m : Master) (rate : BitVec 10) (s : State) : exec (.adjust m rate) s = execAdjust m rate s := rfl
@[simp] theorem exec_adjustComplete (s : State) : exec (.adjustComplete) s = execAdjustComplete s := rfl
@[simp] theorem exec_ppsInEdge (t : BitVec 64) (s : State) : exec (.ppsInEdge t) s = execPpsInEdge t s := rfl
@[simp] theorem exec_ppsInLoss (s : State) : exec (.ppsInLoss) s = execPpsInLoss s := rfl
@[simp] theorem exec_ppsOut (s : State) : exec (.ppsOut) s = execPpsOut s := rfl
@[simp] theorem exec_refReady (s : State) : exec (.refReady) s = execRefReady s := rfl
@[simp] theorem exec_thmTimerTrigger (s : State) : exec (.thmTimerTrigger) s = execThmTimerTrigger s := rfl
@[simp] theorem exec_thmTrigGo (m : Master) (s : State) : exec (.thmTrigGo m) s = execThmTrigGo m s := rfl
@[simp] theorem exec_thmCalGo (m : Master) (trig : Bool) (s : State) : exec (.thmCalGo m trig) s = execThmCalGo m trig s := rfl
@[simp] theorem exec_thmCalDone (zero ref : List (BitVec 24)) (s : State) : exec (.thmCalDone zero ref) s = execThmCalDone zero ref s := rfl
@[simp] theorem exec_thmResult (tag : Fin 52) (windows : List (BitVec 24)) (outside : Option Bool) (s : State) : exec (.thmResult tag windows outside) s = execThmResult tag windows outside s := rfl
@[simp] theorem exec_seqDone (s : State) : exec (.seqDone) s = execSeqDone s := rfl
@[simp] theorem exec_thmQPop (m : Master) (s : State) : exec (.thmQPop m) s = execThmQPop m s := rfl
@[simp] theorem exec_pathTest (k : Fin 48) (seen ref : BitVec 24) (s : State) : exec (.pathTest k seen ref) s = execPathTest k seen ref s := rfl
@[simp] theorem exec_ruleTick (still : BitVec 6) (alerts : BitVec 2) (s : State) : exec (.ruleTick still alerts) s = execRuleTick still alerts s := rfl
@[simp] theorem exec_hmpPdRelease (m : Master) (bits : BitVec 2) (s : State) : exec (.hmpPdRelease m bits) s = execHmpPdRelease m bits s := rfl
@[simp] theorem exec_hmpSeal (m : Master) (s : State) : exec (.hmpSeal m) s = execHmpSeal m s := rfl
@[simp] theorem exec_hmpLogPop (m : Master) (s : State) : exec (.hmpLogPop m) s = execHmpLogPop m s := rfl
@[simp] theorem exec_monTrigGo (m : Master) (le : Fin 2) (s : State) : exec (.monTrigGo m le) s = execMonTrigGo m le s := rfl
@[simp] theorem exec_monAbort (m : Master) (le : Fin 2) (s : State) : exec (.monAbort m le) s = execMonAbort m le s := rfl
@[simp] theorem exec_monRearm (m : Master) (le : Fin 2) (s : State) : exec (.monRearm m le) s = execMonRearm m le s := rfl
@[simp] theorem exec_monTrigger (le : Fin 2) (sat : Word) (s : State) : exec (.monTrigger le sat) s = execMonTrigger le sat s := rfl
@[simp] theorem exec_capDone (le : Fin 2) (units : BitVec 28) (sat : Word) (words : List Word) (s : State) : exec (.capDone le units sat words) s = execCapDone le units sat words s := rfl
@[simp] theorem exec_trimUpdate (le : Fin 2) (t : BitVec 16) (s : State) : exec (.trimUpdate le t) s = execTrimUpdate le t s := rfl
@[simp] theorem exec_spareCalStart (le : Fin 2) (dac : Bool) (lane : Fin 4) (s : State) : exec (.spareCalStart le dac lane) s = execSpareCalStart le dac lane s := rfl
@[simp] theorem exec_spareCalEnd (le : Fin 2) (dac : Bool) (c : UnitCal) (pilot : Bool) (s : State) : exec (.spareCalEnd le dac c pilot) s = execSpareCalEnd le dac c pilot s := rfl
@[simp] theorem exec_rotationSwap (le : Fin 2) (dac : Bool) (lane : Fin 4) (s : State) : exec (.rotationSwap le dac lane) s = execRotationSwap le dac lane s := rfl
@[simp] theorem exec_unitFault (le : Fin 2) (dac : Bool) (lane : Fin 4) (pos : Fin 68) (s : State) : exec (.unitFault le dac lane pos) s = execUnitFault le dac lane pos s := rfl
@[simp] theorem exec_repairSwap (le : Fin 2) (dac : Bool) (lane : Fin 4) (s : State) : exec (.repairSwap le dac lane) s = execRepairSwap le dac lane s := rfl
@[simp] theorem exec_fgCalGo (m : Master) (le : Fin 2) (adc dac fec : Bool) (s : State) : exec (.fgCalGo m le adc dac fec) s = execFgCalGo m le adc dac fec s := rfl
@[simp] theorem exec_fgDone (adc dac : List UnitCal) (tiles : List (Fin 26)) (s : State) : exec (.fgDone adc dac tiles) s = execFgDone adc dac tiles s := rfl
@[simp] theorem exec_loopCalStep (le : Fin 2) (lane : Fin 4) (swing peaking : Fin 3) (inGap : Bool) (cals : List UnitCal) (s : State) : exec (.loopCalStep le lane swing peaking inGap cals) s = execLoopCalStep le lane swing peaking inGap cals s := rfl
@[simp] theorem exec_periodicTest (t : Periodic) (s : State) : exec (.periodicTest t) s = execPeriodicTest t s := rfl
@[simp] theorem exec_repPipeTest (m : Master) (s : State) : exec (.repPipeTest m) s = execRepPipeTest m s := rfl
@[simp] theorem exec_repDpllTest (m : Master) (s : State) : exec (.repDpllTest m) s = execRepDpllTest m s := rfl
@[simp] theorem exec_monTest (m : Master) (le : Fin 2) (s : State) : exec (.monTest m le) s = execMonTest m le s := rfl
@[simp] theorem exec_monTestDone (le : Fin 2) (dev : Int) (s : State) : exec (.monTestDone le dev) s = execMonTestDone le dev s := rfl
@[simp] theorem exec_trimWrite (m : Master) (le : Fin 2) (t : Fin 6) (w : Fin 512) (value : Word) (s : State) : exec (.trimWrite m le t w value) s = execTrimWrite m le t w value s := rfl
@[simp] theorem exec_classExhausted (c : Fin 10) (s : State) : exec (.classExhausted c) s = execClassExhausted c s := rfl
@[simp] theorem exec_classRestored (c : Fin 10) (s : State) : exec (.classRestored c) s = execClassRestored c s := rfl
@[simp] theorem exec_evlEntry (p : Fin 256) (s : State) : exec (.evlEntry p) s = execEvlEntry p s := rfl
@[simp] theorem exec_sorterRelease (s : State) : exec (.sorterRelease) s = execSorterRelease s := rfl
@[simp] theorem exec_foldWindowEnd (p : Fin 256) (loss : Bool) (code : Byte) (s : State) : exec (.foldWindowEnd p loss code) s = execFoldWindowEnd p loss code s := rfl
@[simp] theorem exec_evlTailWrite (m : Master) (value : Word) (s : State) : exec (.evlTailWrite m value) s = execEvlTailWrite m value s := rfl
@[simp] theorem exec_cntSelWrite (m : Master) (n : Fin 512) (value : Word) (s : State) : exec (.cntSelWrite m n value) s = execCntSelWrite m n value s := rfl
@[simp] theorem exec_cntHiWrite (m : Master) (n : Fin 512) (value : Word) (s : State) : exec (.cntHiWrite m n value) s = execCntHiWrite m n value s := rfl
@[simp] theorem exec_cntWrap (n : Fin 512) (inc : BitVec 48) (s : State) : exec (.cntWrap n inc) s = execCntWrap n inc s := rfl
@[simp] theorem exec_freezeRequest (m : Master) (freeze : Bool) (lead : BitVec 16) (s : State) : exec (.freezeRequest m freeze lead) s = execFreezeRequest m freeze lead s := rfl
@[simp] theorem exec_freezeInstant (s : State) : exec (.freezeInstant) s = execFreezeInstant s := rfl
@[simp] theorem exec_cntSnapshot (s : State) : exec (.cntSnapshot) s = execCntSnapshot s := rfl
@[simp] theorem exec_sampleChoose (path : Fin 2) (port : Fin 32) (s : State) : exec (.sampleChoose path port) s = execSampleChoose path port s := rfl
@[simp] theorem exec_sampleRecord (path : Fin 2) (i : Fin 16) (u : Sampled) (s : State) : exec (.sampleRecord path i u) s = execSampleRecord path i u s := rfl
@[simp] theorem exec_smpRestart (m : Master) (value : BitVec 31) (s : State) : exec (.smpRestart m value) s = execSmpRestart m value s := rfl
@[simp] theorem exec_spiWrite (addr : Addr) (words : List Word) (waiting : Fin 17) (s : State) : exec (.spiWrite addr words waiting) s = execSpiWrite addr words waiting s := rfl
@[simp] theorem exec_spiRead (addr : Addr) (n : Nat) (s : State) : exec (.spiRead addr n) s = execSpiRead addr n s := rfl
@[simp] theorem exec_spiStatus (waiting : Bool) (s : State) : exec (.spiStatus waiting) s = execSpiStatus waiting s := rfl
@[simp] theorem exec_gpioEdge (n : Fin 16) (rising : Bool) (s : State) : exec (.gpioEdge n rising) s = execGpioEdge n rising s := rfl
@[simp] theorem exec_kxRestart (j : Fin 16) (s : State) : exec (.kxRestart j) s = execKxRestart j s := rfl
@[simp] theorem exec_avsConfirmed (s : State) : exec (.avsConfirmed) s = execAvsConfirmed s := rfl
@[simp] theorem exec_trngHealthTest (pass : Bool) (s : State) : exec (.trngHealthTest pass) s = execTrngHealthTest pass s := rfl

end Sys2Proof.Machine
end

