-- ==== Sys2Proof/Laws/Tbl.lean ====
section
/-! SUPPORT. Sparse contents: what a key reads as after each operation, and that each keeps keys rising and the canonical form. -/
namespace Sys2Proof.Machine

variable {α : Type}

/-! ## Reads after writes -/

@[simp] theorem Tbl.find_insert_same (t : Tbl α) (k : Nat) (v : α) : Tbl.find (Tbl.insert t k v) k = some v := by
  induction t with
  | nil => simp [Tbl.insert, Tbl.find]
  | cons e t ih =>
    obtain ⟨k', v'⟩ := e
    by_cases h1 : k < k'
    · simp [Tbl.insert, Tbl.find, h1]
    · by_cases h2 : k = k'
      · simp [Tbl.insert, Tbl.find, h2]
      · simp [Tbl.insert, Tbl.find, h1, h2, Ne.symm h2, ih]

theorem Tbl.find_insert_other (t : Tbl α) {k j : Nat} (v : α) (h : j ≠ k) :
    Tbl.find (Tbl.insert t k v) j = Tbl.find t j := by
  induction t with
  | nil => simp [Tbl.insert, Tbl.find, Ne.symm h]
  | cons e t ih =>
    obtain ⟨k', v'⟩ := e
    by_cases h1 : k < k'
    · simp [Tbl.insert, Tbl.find, h1, Ne.symm h]
    · by_cases h2 : k = k'
      · subst h2; simp [Tbl.insert, Tbl.find, Ne.symm h]
      · simp [Tbl.insert, Tbl.find, h1, h2, ih]

@[simp] theorem Tbl.find_erase_same (t : Tbl α) (k : Nat) : Tbl.find (Tbl.erase t k) k = none := by
  induction t with
  | nil => rfl
  | cons e t ih =>
    obtain ⟨k', v'⟩ := e
    by_cases h : k' = k
    · simpa [Tbl.erase, h] using ih
    · simpa [Tbl.erase, Tbl.find, h] using ih

theorem Tbl.find_filter (t : Tbl α) (p : Nat → Bool) (k : Nat) :
    Tbl.find (t.filter fun e => p e.1) k = if p k then Tbl.find t k else none := by
  induction t with
  | nil => simp [Tbl.find]
  | cons e t ih =>
    obtain ⟨k', v'⟩ := e
    by_cases hk : k' = k
    · subst hk
      by_cases hp : p k' = true
      · simp [Tbl.find, hp]
      · simpa [Tbl.find, hp] using ih
    · by_cases hp : p k' = true
      · simpa [Tbl.find, hp, hk] using ih
      · simpa [Tbl.find, hp, hk] using ih

theorem Tbl.find_erase_other (t : Tbl α) {k j : Nat} (h : j ≠ k) : Tbl.find (Tbl.erase t k) j = Tbl.find t j := by
  have := Tbl.find_filter t (fun i => i != k) j
  simpa [Tbl.erase, h] using this

@[simp] theorem Tbl.get_set_same [DecidableEq α] (d : α) (t : Tbl α) (k : Nat) (v : α) : Tbl.get d (Tbl.set d t k v) k = v := by
  by_cases h : v = d <;> simp [Tbl.get, Tbl.set, h]

theorem Tbl.get_set_other [DecidableEq α] (d d' : α) (t : Tbl α) {k j : Nat} (v : α) (h : j ≠ k) :
    Tbl.get d' (Tbl.set d t k v) j = Tbl.get d' t j := by
  by_cases hv : v = d <;> simp [Tbl.get, Tbl.set, hv, Tbl.find_insert_other _ _ h, Tbl.find_erase_other _ h]

theorem Tbl.find_set_other [DecidableEq α] (d : α) (t : Tbl α) {k j : Nat} (v : α) (h : j ≠ k) :
    Tbl.find (Tbl.set d t k v) j = Tbl.find t j := by
  by_cases hv : v = d <;> simp [Tbl.set, hv, Tbl.find_insert_other _ _ h, Tbl.find_erase_other _ h]

theorem Tbl.find_overlay_other (p : Nat → Bool) (src dst : Tbl α) {k : Nat} (h : p k = false) :
    Tbl.find (Tbl.overlay p src dst) k = Tbl.find dst k := by
  unfold Tbl.overlay
  have hs : ∀ e ∈ src.filter (fun e => p e.1), k ≠ e.1 := fun e he hk => by
    have := (List.mem_filter.1 he).2
    rw [← hk, h] at this
    cases this
  generalize src.filter (fun e => p e.1) = l at hs ⊢
  induction l with
  | nil => simp [Tbl.find_filter dst (fun i => !p i) k, h]
  | cons e l ih =>
    rw [List.foldr_cons, Tbl.find_insert_other _ _ (hs e (by simp))]
    exact ih fun e he => hs e (by simp [he])

@[simp] theorem Tbl.get_nil (d : α) (k : Nat) : Tbl.get d [] k = d := rfl

/-! ## Rising keys and the canonical form -/

theorem Tbl.rising_tail {e : Nat × α} {t : Tbl α} (h : Tbl.rising (e :: t) = true) : Tbl.rising t = true := by
  cases t with
  | nil => rfl
  | cons e' t => simp only [Tbl.rising, Bool.and_eq_true] at h; exact h.2

theorem Tbl.rising_head_lt {e : Nat × α} {t : Tbl α} (h : Tbl.rising (e :: t) = true) : ∀ x ∈ t, e.1 < x.1 := by
  induction t generalizing e with
  | nil => simp
  | cons e' t ih =>
    simp only [Tbl.rising, Bool.and_eq_true, decide_eq_true_eq] at h
    intro x hx
    rcases List.mem_cons.1 hx with rfl | hx
    · exact h.1
    · exact Nat.lt_trans h.1 (ih h.2 x hx)

theorem Tbl.rising_cons {e : Nat × α} {t : Tbl α} (ht : Tbl.rising t = true) (h : ∀ x ∈ t, e.1 < x.1) :
    Tbl.rising (e :: t) = true := by
  cases t with
  | nil => rfl
  | cons e' t =>
    simp only [Tbl.rising, Bool.and_eq_true, decide_eq_true_eq]
    exact ⟨h e' (by simp), ht⟩

theorem Tbl.mem_insert {t : Tbl α} {k : Nat} {v : α} {x : Nat × α} (h : x ∈ Tbl.insert t k v) : x = (k, v) ∨ x ∈ t := by
  induction t with
  | nil => simpa [Tbl.insert] using h
  | cons e t ih =>
    obtain ⟨k', v'⟩ := e
    unfold Tbl.insert at h
    split at h
    · simpa using h
    · split at h
      · rcases List.mem_cons.1 h with h | h
        · exact .inl h
        · exact .inr (by simp [h])
      · rcases List.mem_cons.1 h with h | h
        · exact .inr (by simp [h])
        · rcases ih h with h | h
          · exact .inl h
          · exact .inr (by simp [h])

theorem Tbl.rising_insert {t : Tbl α} (h : Tbl.rising t = true) (k : Nat) (v : α) : Tbl.rising (Tbl.insert t k v) = true := by
  induction t with
  | nil => rfl
  | cons e t ih =>
    obtain ⟨k', v'⟩ := e
    unfold Tbl.insert
    split
    next h1 =>
      refine Tbl.rising_cons h fun x hx => ?_
      rcases List.mem_cons.1 hx with rfl | hx
      · exact h1
      · exact Nat.lt_trans h1 (Tbl.rising_head_lt h x hx)
    next h1 =>
      split
      next h2 => subst h2; exact Tbl.rising_cons (Tbl.rising_tail h) fun x hx => Tbl.rising_head_lt h x hx
      next h2 =>
        refine Tbl.rising_cons (ih (Tbl.rising_tail h)) fun x hx => ?_
        rcases Tbl.mem_insert hx with rfl | hx
        · simp only; omega
        · exact Tbl.rising_head_lt h x hx

theorem Tbl.rising_filter {t : Tbl α} (h : Tbl.rising t = true) (p : Nat × α → Bool) : Tbl.rising (t.filter p) = true := by
  induction t with
  | nil => rfl
  | cons e t ih =>
    by_cases hp : p e = true
    · rw [List.filter_cons_of_pos hp]
      exact Tbl.rising_cons (ih (Tbl.rising_tail h)) fun x hx => Tbl.rising_head_lt h x (List.mem_filter.1 hx).1
    · rw [List.filter_cons_of_neg hp]
      exact ih (Tbl.rising_tail h)

theorem Tbl.rising_set [DecidableEq α] {t : Tbl α} (h : Tbl.rising t = true) (d : α) (k : Nat) (v : α) :
    Tbl.rising (Tbl.set d t k v) = true := by
  unfold Tbl.set
  split
  · exact Tbl.rising_filter h _
  · exact Tbl.rising_insert h k v

theorem Tbl.rising_overlay {src dst : Tbl α} (h : Tbl.rising dst = true) (p : Nat → Bool) :
    Tbl.rising (Tbl.overlay p src dst) = true := by
  unfold Tbl.overlay
  induction src.filter (fun e => p e.1) with
  | nil => exact Tbl.rising_filter h _
  | cons e l ih => exact Tbl.rising_insert ih _ _

theorem Tbl.wf_iff [DecidableEq α] {d : α} {t : Tbl α} : Tbl.wf d t = true ↔ Tbl.rising t = true ∧ ∀ e ∈ t, e.2 ≠ d := by
  simp [Tbl.wf]

theorem Tbl.wf_filter [DecidableEq α] {d : α} {t : Tbl α} (h : Tbl.wf d t = true) (p : Nat × α → Bool) :
    Tbl.wf d (t.filter p) = true := by
  rw [Tbl.wf_iff] at h ⊢
  exact ⟨Tbl.rising_filter h.1 p, fun e he => h.2 e (List.mem_filter.1 he).1⟩

theorem Tbl.wf_set [DecidableEq α] {d : α} {t : Tbl α} (h : Tbl.wf d t = true) (k : Nat) (v : α) :
    Tbl.wf d (Tbl.set d t k v) = true := by
  unfold Tbl.set
  split
  · exact Tbl.wf_filter h _
  next hv =>
    rw [Tbl.wf_iff] at h ⊢
    refine ⟨Tbl.rising_insert h.1 k v, fun e he => ?_⟩
    rcases Tbl.mem_insert he with rfl | he
    · exact hv
    · exact h.2 e he

theorem Tbl.wf_foldl_set [DecidableEq α] {β : Type} {d : α} (k : β → Nat) (v : β → α) (l : List β) {t : Tbl α}
    (h : Tbl.wf d t = true) : Tbl.wf d (l.foldl (fun t b => Tbl.set d t (k b) (v b)) t) = true := by
  induction l generalizing t with
  | nil => exact h
  | cons b l ih => exact ih (Tbl.wf_set h _ _)

theorem Tbl.rising_foldl_set [DecidableEq α] {β : Type} {d : α} (k : β → Nat) (v : Tbl α → β → α) (l : List β) {t : Tbl α}
    (h : Tbl.rising t = true) : Tbl.rising (l.foldl (fun t b => Tbl.set d t (k b) (v t b)) t) = true := by
  induction l generalizing t with
  | nil => exact h
  | cons b l ih => exact ih (Tbl.rising_set h _ _ _)

theorem Tbl.rising_foldl {β : Type} (f : Tbl α → β → Tbl α) (l : List β) {t : Tbl α}
    (hf : ∀ t b, Tbl.rising t = true → Tbl.rising (f t b) = true) (h : Tbl.rising t = true) :
    Tbl.rising (l.foldl f t) = true := by
  induction l generalizing t with
  | nil => exact h
  | cons b l ih => exact ih (hf t b h)

theorem Tbl.wf_foldl [DecidableEq α] {β : Type} {d : α} (f : Tbl α → β → Tbl α) (l : List β) {t : Tbl α}
    (hf : ∀ t b, Tbl.wf d t = true → Tbl.wf d (f t b) = true) (h : Tbl.wf d t = true) : Tbl.wf d (l.foldl f t) = true := by
  induction l generalizing t with
  | nil => exact h
  | cons b l ih => exact ih (hf t b h)

end Sys2Proof.Machine
end

