-- ==== Sys2Proof/Laws/Fits.lean ====
section
/-! SUPPORT. What a change of the state may touch, and that it keeps the canonical form: the relation every operation's lemma is stated
in, with one lemma per update of a field of State. -/
namespace Sys2Proof.Machine

/-- From `s` to `t` nothing but allowed parts has changed, and the canonical form is kept. -/
structure Fits (allowed : Part → Prop) (s t : State) : Prop where
  within : Within allowed s t
  tidy : s.tidy → t.tidy

/-- An outcome that is a next state fits. -/
def FitsOut (allowed : Part → Prop) (s : State) : Host.Outcome State Fault Refusal → Prop
  | .next t => Fits allowed s t
  | .fault _ => True
  | .refused _ => True

variable {N : Part → Prop} {s0 s : State}

theorem Fits.refl (N : Part → Prop) (s : State) : Fits N s s :=
  ⟨fun p _ => by cases p <;> first | rfl | exact ⟨rfl, rfl⟩ | exact ⟨rfl, rfl, rfl⟩, id⟩

theorem Part.same_trans {s t u : State} {p : Part} (h : Part.same s t p) (h' : Part.same t u p) : Part.same s u p := by
  cases p <;> simp_all [Part.same]
  rw [← h]; rw [← h']

theorem Fits.trans {s t u : State} (h : Fits N s t) (h' : Fits N t u) : Fits N s u :=
  ⟨fun p hp => Part.same_trans (h.within p hp) (h'.within p hp), fun ht => h'.tidy (h.tidy ht)⟩

/-- A change that leaves every part as it is but those allowed. -/
theorem Fits.leaf {t : State} (h : Fits N s0 s) (hw : ∀ p, ¬ N p → Part.same s t p) (ht : s.tidy → t.tidy) : Fits N s0 t :=
  h.trans ⟨hw, ht⟩

theorem Fits.pair {α : Type} {g : α × State} {x : α} {t : State} (e : g = (x, t)) (h : Fits N s0 g.2) : Fits N s0 t := by
  rw [e] at h; exact h

theorem Fits.ite {c : Prop} [Decidable c] {a b : State} (ha : c → Fits N s0 a) (hb : ¬ c → Fits N s0 b) :
    Fits N s0 (if c then a else b) := by
  split
  next hc => exact ha hc
  next hc => exact hb hc

theorem Fits.pair2 {α β : Type} {g : α × β × State} {x : α} {y : β} {t : State} (e : g = (x, y, t)) (h : Fits N s0 g.2.2) :
    Fits N s0 t := by
  rw [e] at h; exact h

theorem FitsOut.fault {r : Fault} : FitsOut N s0 (.fault r) := True.intro

theorem FitsOut.ite {c : Prop} [Decidable c] {a b : Host.Outcome State Fault Refusal} (ha : c → FitsOut N s0 a)
    (hb : ¬ c → FitsOut N s0 b) : FitsOut N s0 (if c then a else b) := by
  split
  next hc => exact ha hc
  next hc => exact hb hc

theorem FitsOut.next {t : State} (h : Fits N s0 t) : FitsOut N s0 (.next t) := h

theorem Fits.forEach {α : Type} (l : List α) (f : α → State → State) (h : Fits N s0 s)
    (hf : ∀ a t, Fits N s0 t → Fits N s0 (f a t)) : Fits N s0 (s.forEach l f) := by
  unfold State.forEach
  induction l generalizing s with
  | nil => exact h
  | cons a l ih => exact ih (hf a s h)

theorem Fits.forEachMem {α : Type} (l : List α) (f : α → State → State) (h : Fits N s0 s)
    (hf : ∀ a ∈ l, ∀ t, Fits N s0 t → Fits N s0 (f a t)) : Fits N s0 (s.forEach l f) := by
  unfold State.forEach
  induction l generalizing s with
  | nil => exact h
  | cons a l ih => exact ih (hf a (by simp) s h) fun b hb => hf b (by simp [hb])

theorem Fits.foldl {α : Type} (l : List α) (f : State → α → State) (h : Fits N s0 s)
    (hf : ∀ t a, Fits N s0 t → Fits N s0 (f t a)) : Fits N s0 (l.foldl f s) := by
  induction l generalizing s with
  | nil => exact h
  | cons a l ih => exact ih (hf s a h)

theorem Fits.foldlPair {α β : Type} (l : List α) (f : β × State → α → β × State) (a : β × State) (h : Fits N s0 a.2)
    (hf : ∀ b x, Fits N s0 b.2 → Fits N s0 (f b x).2) : Fits N s0 (l.foldl f a).2 := by
  induction l generalizing a with
  | nil => exact h
  | cons x l ih => exact ih (f a x) (hf a x h)

/-- A write that a table of addresses may give. -/
structure FitsSome (N : Part → Prop) (s0 : State) (o : Option (State → State)) : Prop where
  fits : ∀ f, o = some f → ∀ t, Fits N s0 t → Fits N s0 (f t)

theorem FitsSome.none : FitsSome N s0 none := ⟨fun _ h => nomatch h⟩

theorem FitsSome.some {f : State → State} (h : ∀ t, Fits N s0 t → Fits N s0 (f t)) : FitsSome N s0 (some f) :=
  ⟨fun _ e t => Option.some.inj e ▸ h t⟩

theorem FitsSome.ite {c : Prop} [Decidable c] {a b : Option (State → State)} (ha : c → FitsSome N s0 a)
    (hb : ¬ c → FitsSome N s0 b) : FitsSome N s0 (if c then a else b) := by
  split
  next hc => exact ha hc
  next hc => exact hb hc

theorem Fits.idem (h : Fits N s0 s) : Fits N s0 (id s) := h

/-! ## One lemma per field -/

theorem Fits.upd_time (h : Fits N s0 s) (hN : N .time) (v) : Fits N s0 { s with time := v } :=
  h.leaf (fun p hp => by cases p <;> first | exact absurd hN hp | rfl | exact ⟨rfl, rfl⟩ | exact ⟨rfl, rfl, rfl⟩)
    fun t => ⟨t.1, t.2, t.3, t.4, t.5, t.6, t.7, t.8, t.9, t.10⟩
theorem Fits.upd_pending (h : Fits N s0 s) (hN : N .pending) (v) : Fits N s0 { s with pending := v } :=
  h.leaf (fun p hp => by cases p <;> first | exact absurd hN hp | rfl | exact ⟨rfl, rfl⟩ | exact ⟨rfl, rfl, rfl⟩)
    fun t => ⟨t.1, t.2, t.3, t.4, t.5, t.6, t.7, t.8, t.9, t.10⟩
theorem Fits.upd_drawn (h : Fits N s0 s) (hN : N .drawn) (v) : Fits N s0 { s with drawn := v } :=
  h.leaf (fun p hp => by cases p <;> first | exact absurd hN hp | rfl | exact ⟨rfl, rfl⟩ | exact ⟨rfl, rfl, rfl⟩)
    fun t => ⟨t.1, t.2, t.3, t.4, t.5, t.6, t.7, t.8, t.9, t.10⟩
theorem Fits.upd_ev (h : Fits N s0 s) (hN : N .ev) (v) : Fits N s0 { s with ev := v } :=
  h.leaf (fun p hp => by cases p <;> first | exact absurd hN hp | rfl | exact ⟨rfl, rfl⟩ | exact ⟨rfl, rfl, rfl⟩)
    fun t => ⟨t.1, t.2, t.3, t.4, t.5, t.6, t.7, t.8, t.9, t.10⟩
theorem Fits.upd_fab (h : Fits N s0 s) (hN : N .fab) (v) : Fits N s0 { s with fab := v } :=
  h.leaf (fun p hp => by cases p <;> first | exact absurd hN hp | rfl | exact ⟨rfl, rfl⟩ | exact ⟨rfl, rfl, rfl⟩)
    fun t => ⟨t.1, t.2, t.3, t.4, t.5, t.6, t.7, t.8, t.9, t.10⟩
theorem Fits.upd_dev (h : Fits N s0 s) (hN : N .dev) (v) : Fits N s0 { s with dev := v } :=
  h.leaf (fun p hp => by cases p <;> first | exact absurd hN hp | rfl | exact ⟨rfl, rfl⟩ | exact ⟨rfl, rfl, rfl⟩)
    fun t => ⟨t.1, t.2, t.3, t.4, t.5, t.6, t.7, t.8, t.9, t.10⟩
theorem Fits.upd_lanes (h : Fits N s0 s) (hN : N .lanes) (v) : Fits N s0 { s with lanes := v } :=
  h.leaf (fun p hp => by cases p <;> first | exact absurd hN hp | rfl | exact ⟨rfl, rfl⟩ | exact ⟨rfl, rfl, rfl⟩)
    fun t => ⟨t.1, t.2, t.3, t.4, t.5, t.6, t.7, t.8, t.9, t.10⟩
theorem Fits.upd_grp (h : Fits N s0 s) (hN : N .grp) (v) : Fits N s0 { s with grp := v } :=
  h.leaf (fun p hp => by cases p <;> first | exact absurd hN hp | rfl | exact ⟨rfl, rfl⟩ | exact ⟨rfl, rfl, rfl⟩)
    fun t => ⟨t.1, t.2, t.3, t.4, t.5, t.6, t.7, t.8, t.9, t.10⟩
theorem Fits.upd_cip (h : Fits N s0 s) (hN : N .cip) (v) : Fits N s0 { s with cip := v } :=
  h.leaf (fun p hp => by cases p <;> first | exact absurd hN hp | rfl | exact ⟨rfl, rfl⟩ | exact ⟨rfl, rfl, rfl⟩)
    fun t => ⟨t.1, t.2, t.3, t.4, t.5, t.6, t.7, t.8, t.9, t.10⟩
theorem Fits.upd_enc (h : Fits N s0 s) (hN : N .enc) (v) : Fits N s0 { s with enc := v } :=
  h.leaf (fun p hp => by cases p <;> first | exact absurd hN hp | rfl | exact ⟨rfl, rfl⟩ | exact ⟨rfl, rfl, rfl⟩)
    fun t => ⟨t.1, t.2, t.3, t.4, t.5, t.6, t.7, t.8, t.9, t.10⟩
theorem Fits.upd_syn (h : Fits N s0 s) (hN : N .syn) (v) : Fits N s0 { s with syn := v } :=
  h.leaf (fun p hp => by cases p <;> first | exact absurd hN hp | rfl | exact ⟨rfl, rfl⟩ | exact ⟨rfl, rfl, rfl⟩)
    fun t => ⟨t.1, t.2, t.3, t.4, t.5, t.6, t.7, t.8, t.9, t.10⟩
theorem Fits.upd_rep (h : Fits N s0 s) (hN : N .rep) (v) : Fits N s0 { s with rep := v } :=
  h.leaf (fun p hp => by cases p <;> first | exact absurd hN hp | rfl | exact ⟨rfl, rfl⟩ | exact ⟨rfl, rfl, rfl⟩)
    fun t => ⟨t.1, t.2, t.3, t.4, t.5, t.6, t.7, t.8, t.9, t.10⟩
theorem Fits.upd_cnt (h : Fits N s0 s) (hN : N .cnt) (v) : Fits N s0 { s with cnt := v } :=
  h.leaf (fun p hp => by cases p <;> first | exact absurd hN hp | rfl | exact ⟨rfl, rfl⟩ | exact ⟨rfl, rfl, rfl⟩)
    fun t => ⟨t.1, t.2, t.3, t.4, t.5, t.6, t.7, t.8, t.9, t.10⟩
theorem Fits.upd_thm (h : Fits N s0 s) (hN : N .thm) (v) : Fits N s0 { s with thm := v } :=
  h.leaf (fun p hp => by cases p <;> first | exact absurd hN hp | rfl | exact ⟨rfl, rfl⟩ | exact ⟨rfl, rfl, rfl⟩)
    fun t => ⟨t.1, t.2, t.3, t.4, t.5, t.6, t.7, t.8, t.9, t.10⟩
theorem Fits.upd_hmpLog (h : Fits N s0 s) (hN : N .hmpLog) (v) : Fits N s0 { s with hmpLog := v } :=
  h.leaf (fun p hp => by cases p <;> first | exact absurd hN hp | rfl | exact ⟨rfl, rfl⟩ | exact ⟨rfl, rfl, rfl⟩)
    fun t => ⟨t.1, t.2, t.3, t.4, t.5, t.6, t.7, t.8, t.9, t.10⟩
theorem Fits.upd_spi (h : Fits N s0 s) (hN : N .spi) (v) : Fits N s0 { s with spi := v } :=
  h.leaf (fun p hp => by cases p <;> first | exact absurd hN hp | rfl | exact ⟨rfl, rfl⟩ | exact ⟨rfl, rfl, rfl⟩)
    fun t => ⟨t.1, t.2, t.3, t.4, t.5, t.6, t.7, t.8, t.9, t.10⟩
theorem Fits.upd_fields (h : Fits N s0 s) (v) (hk : ∀ k, ¬ N (.reg k) → Tbl.find v k = Tbl.find s.fields k)
    (hv : Tbl.rising s.fields = true → Tbl.rising v = true) : Fits N s0 { s with fields := v } :=
  h.leaf (fun p hp => by cases p <;> first | rfl | exact ⟨rfl, rfl⟩ | exact ⟨rfl, rfl, rfl⟩ | exact hk _ hp)
    fun t => ⟨hv t.1, t.2, t.3, t.4, t.5, t.6, t.7, t.8, t.9, t.10⟩
theorem Fits.upd_staged (h : Fits N s0 s) (hN : N .staged) (v) (hv : Tbl.rising s.staged = true → Tbl.rising v = true) :
    Fits N s0 { s with staged := v } :=
  h.leaf (fun p hp => by cases p <;> first | exact absurd hN hp | rfl | exact ⟨rfl, rfl⟩ | exact ⟨rfl, rfl, rfl⟩)
    fun t => ⟨t.1, hv t.2, t.3, t.4, t.5, t.6, t.7, t.8, t.9, t.10⟩
theorem Fits.upd_buffer (h : Fits N s0 s) (hN : N .buffer) (v) (hv : Tbl.rising s.buffer = true → Tbl.rising v = true) :
    Fits N s0 { s with buffer := v } :=
  h.leaf (fun p hp => by cases p <;> first | exact absurd hN hp | rfl | exact ⟨rfl, rfl⟩ | exact ⟨rfl, rfl, rfl⟩)
    fun t => ⟨t.1, t.2, hv t.3, t.4, t.5, t.6, t.7, t.8, t.9, t.10⟩
theorem Fits.upd_inForce (h : Fits N s0 s) (hN : N .inForce) (v) (hv : Tbl.rising s.inForce = true → Tbl.rising v = true) :
    Fits N s0 { s with inForce := v } :=
  h.leaf (fun p hp => by cases p <;> first | exact absurd hN hp | rfl | exact ⟨rfl, rfl⟩ | exact ⟨rfl, rfl, rfl⟩)
    fun t => ⟨t.1, t.2, t.3, hv t.4, t.5, t.6, t.7, t.8, t.9, t.10⟩
theorem Fits.upd_evl (h : Fits N s0 s) (hN : N .evl) (v) (hv : Tbl.rising s.evl.slots = true → Tbl.rising v.slots = true) :
    Fits N s0 { s with evl := v } :=
  h.leaf (fun p hp => by cases p <;> first | exact absurd hN hp | rfl | exact ⟨rfl, rfl⟩ | exact ⟨rfl, rfl, rfl⟩)
    fun t => ⟨t.1, t.2, t.3, t.4, hv t.5, t.6, t.7, t.8, t.9, t.10⟩
theorem Fits.upd_smp (h : Fits N s0 s) (hN : N .smp) (v) (hv : Tbl.wf 0 s.smp.words = true → Tbl.wf 0 v.words = true) :
    Fits N s0 { s with smp := v } :=
  h.leaf (fun p hp => by cases p <;> first | exact absurd hN hp | rfl | exact ⟨rfl, rfl⟩ | exact ⟨rfl, rfl, rfl⟩)
    fun t => ⟨t.1, t.2, t.3, t.4, t.5, t.6, t.7, t.8, t.9, hv t.10⟩
theorem Fits.upd_cls (h : Fits N s0 s) (hN : N .cls) (v) (hm : v.mem = s.cls.mem ∧ v.poison = s.cls.poison) :
    Fits N s0 { s with cls := v } :=
  h.leaf (fun p hp => by cases p <;> first | exact absurd hN hp | rfl | exact ⟨rfl, rfl⟩ | exact ⟨rfl, rfl, rfl⟩ | exact hm)
    fun t => ⟨t.1, t.2, t.3, t.4, t.5, t.6, hm.1 ▸ t.7, t.8, t.9, t.10⟩
theorem Fits.upd_clsMem (h : Fits N s0 s) (hN : N .clsMem) (v) (hc : v.pkts = s.cls.pkts ∧ v.nextId = s.cls.nextId ∧ v.mismatch = s.cls.mismatch)
    (hm : Tbl.wf 0 s.cls.mem = true → Tbl.wf 0 v.mem = true) : Fits N s0 { s with cls := v } :=
  h.leaf (fun p hp => by cases p <;> first | exact absurd hN hp | rfl | exact ⟨rfl, rfl⟩ | exact ⟨rfl, rfl, rfl⟩ | exact hc)
    fun t => ⟨t.1, t.2, t.3, t.4, t.5, t.6, hm t.7, t.8, t.9, t.10⟩
theorem Fits.upd_buf (h : Fits N s0 s) (hN : N .buf) (v) (hm : v.mem = s.buf.mem) : Fits N s0 { s with buf := v } :=
  h.leaf (fun p hp => by cases p <;> first | exact absurd hN hp | rfl | exact ⟨rfl, rfl⟩ | exact ⟨rfl, rfl, rfl⟩ | exact hm)
    fun t => ⟨t.1, t.2, t.3, t.4, t.5, hm ▸ t.6, t.7, t.8, t.9, t.10⟩
theorem Fits.upd_bufMem (h : Fits N s0 s) (hN : N .bufMem) (v) (hb : { v with mem := s.buf.mem } = s.buf)
    (hm : Tbl.wf 0 s.buf.mem = true → Tbl.wf 0 v.mem = true) : Fits N s0 { s with buf := v } :=
  h.leaf (fun p hp => by cases p <;> first | exact absurd hN hp | rfl | exact ⟨rfl, rfl⟩ | exact ⟨rfl, rfl, rfl⟩ | exact hb)
    fun t => ⟨t.1, t.2, t.3, t.4, t.5, hm t.6, t.7, t.8, t.9, t.10⟩

theorem Fits.upd_ev_fab (h : Fits N s0 s) (hN : N .ev) (hN' : N .fab) (v w) : Fits N s0 { s with ev := v, fab := w } :=
  (h.upd_ev hN v).upd_fab hN' w
theorem Fits.upd_ev_hmpLog (h : Fits N s0 s) (hN : N .ev) (hN' : N .hmpLog) (v w) :
    Fits N s0 { s with ev := v, hmpLog := w } :=
  (h.upd_ev hN v).upd_hmpLog hN' w
theorem Fits.upd_time_dev (h : Fits N s0 s) (hN : N .time) (hN' : N .dev) (v w) : Fits N s0 { s with time := v, dev := w } :=
  (h.upd_time hN v).upd_dev hN' w
theorem Fits.upd_enc_dev (h : Fits N s0 s) (hN : N .enc) (hN' : N .dev) (v w) : Fits N s0 { s with enc := v, dev := w } :=
  (h.upd_enc hN v).upd_dev hN' w

theorem Fits.upd_evl_ev (h : Fits N s0 s) (hN : N .evl) (hN' : N .ev) (v w)
    (hv : Tbl.rising s.evl.slots = true → Tbl.rising v.slots = true) : Fits N s0 { s with evl := v, ev := w } :=
  (h.upd_evl hN v hv).upd_ev hN' w
theorem Fits.upd_buffer_fab (h : Fits N s0 s) (hN : N .buffer) (hN' : N .fab) (v w)
    (hv : Tbl.rising s.buffer = true → Tbl.rising v = true) : Fits N s0 { s with buffer := v, fab := w } :=
  (h.upd_buffer hN v hv).upd_fab hN' w

/-! ## Storage of an engine -/

theorem Fits.eng_tx (h : Fits N s0 s) (le : Nat) (f : Tx → Tx) (hN : N (.tx (le != 0))) :
    Fits N s0 (s.modEng le fun e => { e with tx := f e.tx }) := by
  unfold State.modEng
  split
  next hl =>
    subst hl
    refine h.leaf (fun p hp => ?_) fun t => ⟨t.1, t.2, t.3, t.4, t.5, t.6, t.7, t.8, t.9, t.10⟩
    cases p <;> first | rfl | exact ⟨rfl, rfl⟩ | exact ⟨rfl, rfl, rfl⟩ | (next b => cases b <;> first | rfl | exact absurd hN hp)
  next hl =>
    have hb : (le != 0) = true := by simp [hl]
    rw [hb] at hN
    refine h.leaf (fun p hp => ?_) fun t => ⟨t.1, t.2, t.3, t.4, t.5, t.6, t.7, t.8, t.9, t.10⟩
    cases p <;> first | rfl | exact ⟨rfl, rfl⟩ | exact ⟨rfl, rfl, rfl⟩ | (next b => cases b <;> first | rfl | exact absurd hN hp)
theorem Fits.eng_rx (h : Fits N s0 s) (le : Nat) (f : Rx → Rx) (hN : N (.rx (le != 0))) :
    Fits N s0 (s.modEng le fun e => { e with rx := f e.rx }) := by
  unfold State.modEng
  split
  next hl =>
    subst hl
    refine h.leaf (fun p hp => ?_) fun t => ⟨t.1, t.2, t.3, t.4, t.5, t.6, t.7, t.8, t.9, t.10⟩
    cases p <;> first | rfl | exact ⟨rfl, rfl⟩ | exact ⟨rfl, rfl, rfl⟩ | (next b => cases b <;> first | rfl | exact absurd hN hp)
  next hl =>
    have hb : (le != 0) = true := by simp [hl]
    rw [hb] at hN
    refine h.leaf (fun p hp => ?_) fun t => ⟨t.1, t.2, t.3, t.4, t.5, t.6, t.7, t.8, t.9, t.10⟩
    cases p <;> first | rfl | exact ⟨rfl, rfl⟩ | exact ⟨rfl, rfl, rfl⟩ | (next b => cases b <;> first | rfl | exact absurd hN hp)
theorem Fits.eng_fec (h : Fits N s0 s) (le : Nat) (f : Fec → Fec) (hN : N (.fec (le != 0))) :
    Fits N s0 (s.modEng le fun e => { e with fec := f e.fec }) := by
  unfold State.modEng
  split
  next hl =>
    subst hl
    refine h.leaf (fun p hp => ?_) fun t => ⟨t.1, t.2, t.3, t.4, t.5, t.6, t.7, t.8, t.9, t.10⟩
    cases p <;> first | rfl | exact ⟨rfl, rfl⟩ | exact ⟨rfl, rfl, rfl⟩ | (next b => cases b <;> first | rfl | exact absurd hN hp)
  next hl =>
    have hb : (le != 0) = true := by simp [hl]
    rw [hb] at hN
    refine h.leaf (fun p hp => ?_) fun t => ⟨t.1, t.2, t.3, t.4, t.5, t.6, t.7, t.8, t.9, t.10⟩
    cases p <;> first | rfl | exact ⟨rfl, rfl⟩ | exact ⟨rfl, rfl, rfl⟩ | (next b => cases b <;> first | rfl | exact absurd hN hp)
theorem Fits.eng_glf (h : Fits N s0 s) (le : Nat) (f : Glf → Glf) (hN : N (.glf (le != 0))) :
    Fits N s0 (s.modEng le fun e => { e with glf := f e.glf }) := by
  unfold State.modEng
  split
  next hl =>
    subst hl
    refine h.leaf (fun p hp => ?_) fun t => ⟨t.1, t.2, t.3, t.4, t.5, t.6, t.7, t.8, t.9, t.10⟩
    cases p <;> first | rfl | exact ⟨rfl, rfl⟩ | exact ⟨rfl, rfl, rfl⟩ | (next b => cases b <;> first | rfl | exact absurd hN hp)
  next hl =>
    have hb : (le != 0) = true := by simp [hl]
    rw [hb] at hN
    refine h.leaf (fun p hp => ?_) fun t => ⟨t.1, t.2, t.3, t.4, t.5, t.6, t.7, t.8, t.9, t.10⟩
    cases p <;> first | rfl | exact ⟨rfl, rfl⟩ | exact ⟨rfl, rfl, rfl⟩ | (next b => cases b <;> first | rfl | exact absurd hN hp)
theorem Fits.eng_p2mp (h : Fits N s0 s) (le : Nat) (f : P2mp → P2mp) (hN : N (.p2mp (le != 0))) :
    Fits N s0 (s.modEng le fun e => { e with p2mp := f e.p2mp }) := by
  unfold State.modEng
  split
  next hl =>
    subst hl
    refine h.leaf (fun p hp => ?_) fun t => ⟨t.1, t.2, t.3, t.4, t.5, t.6, t.7, t.8, t.9, t.10⟩
    cases p <;> first | rfl | exact ⟨rfl, rfl⟩ | exact ⟨rfl, rfl, rfl⟩ | (next b => cases b <;> first | rfl | exact absurd hN hp)
  next hl =>
    have hb : (le != 0) = true := by simp [hl]
    rw [hb] at hN
    refine h.leaf (fun p hp => ?_) fun t => ⟨t.1, t.2, t.3, t.4, t.5, t.6, t.7, t.8, t.9, t.10⟩
    cases p <;> first | rfl | exact ⟨rfl, rfl⟩ | exact ⟨rfl, rfl, rfl⟩ | (next b => cases b <;> first | rfl | exact absurd hN hp)
theorem Fits.eng_ubh (h : Fits N s0 s) (le : Nat) (f : Ubh → Ubh) (hN : N (.ubh (le != 0))) :
    Fits N s0 (s.modEng le fun e => { e with ubh := f e.ubh }) := by
  unfold State.modEng
  split
  next hl =>
    subst hl
    refine h.leaf (fun p hp => ?_) fun t => ⟨t.1, t.2, t.3, t.4, t.5, t.6, t.7, t.8, t.9, t.10⟩
    cases p <;> first | rfl | exact ⟨rfl, rfl⟩ | exact ⟨rfl, rfl, rfl⟩ | (next b => cases b <;> first | rfl | exact absurd hN hp)
  next hl =>
    have hb : (le != 0) = true := by simp [hl]
    rw [hb] at hN
    refine h.leaf (fun p hp => ?_) fun t => ⟨t.1, t.2, t.3, t.4, t.5, t.6, t.7, t.8, t.9, t.10⟩
    cases p <;> first | rfl | exact ⟨rfl, rfl⟩ | exact ⟨rfl, rfl, rfl⟩ | (next b => cases b <;> first | rfl | exact absurd hN hp)
theorem Fits.eng_mon (h : Fits N s0 s) (le : Nat) (f : Mon → Mon) (hN : N (.mon (le != 0)))
    (hv : ∀ m, Tbl.wf 0 m.buffer = true → Tbl.wf 0 (f m).buffer = true) :
    Fits N s0 (s.modEng le fun e => { e with mon := f e.mon }) := by
  unfold State.modEng
  split
  next hl =>
    subst hl
    refine h.leaf (fun p hp => ?_) fun t => ⟨t.1, t.2, t.3, t.4, t.5, t.6, t.7, hv _ t.8, t.9, t.10⟩
    cases p <;> first | rfl | exact ⟨rfl, rfl⟩ | exact ⟨rfl, rfl, rfl⟩ | (next b => cases b <;> first | rfl | exact absurd hN hp)
  next hl =>
    have hb : (le != 0) = true := by simp [hl]
    rw [hb] at hN
    refine h.leaf (fun p hp => ?_) fun t => ⟨t.1, t.2, t.3, t.4, t.5, t.6, t.7, t.8, hv _ t.9, t.10⟩
    cases p <;> first | rfl | exact ⟨rfl, rfl⟩ | exact ⟨rfl, rfl, rfl⟩ | (next b => cases b <;> first | rfl | exact absurd hN hp)

end Sys2Proof.Machine
end

