-- ==== Sys2Proof/Laws/Keys.lean ====
section
/-! SUPPORT. The bit address and the width of every register field of Machine/Fields.lean. -/
namespace Sys2Proof.Machine

@[simp] theorem hdr_key (p off lo width reset : Nat) : (hdr p off lo width reset).key = (p * 0x1000 + off) * 8 + lo := rfl
@[simp] theorem hdr_width (p off lo width reset : Nat) : (hdr p off lo width reset).width = width := rfl
@[simp] theorem F.PAGE_CTRL_commit_sync_key (p : Nat) : (F.PAGE_CTRL_commit_sync p).key = (p * 0x1000 + 0x008) * 8 + 3 := rfl
@[simp] theorem F.PAGE_CTRL_commit_sync_width (p : Nat) : (F.PAGE_CTRL_commit_sync p).width = 1 := rfl
@[simp] theorem F.PAGE_CTRL_freeze_key (p : Nat) : (F.PAGE_CTRL_freeze p).key = (p * 0x1000 + 0x008) * 8 + 2 := rfl
@[simp] theorem F.PAGE_CTRL_freeze_width (p : Nat) : (F.PAGE_CTRL_freeze p).width = 1 := rfl
@[simp] theorem F.PAGE_CTRL_enable_key (p : Nat) : (F.PAGE_CTRL_enable p).key = (p * 0x1000 + 0x008) * 8 + 0 := rfl
@[simp] theorem F.PAGE_CTRL_enable_width (p : Nat) : (F.PAGE_CTRL_enable p).width = 1 := rfl
@[simp] theorem F.PAGE_STAT_commit_reason_key (p : Nat) : (F.PAGE_STAT_commit_reason p).key = (p * 0x1000 + 0x00C) * 8 + 16 := rfl
@[simp] theorem F.PAGE_STAT_commit_reason_width (p : Nat) : (F.PAGE_STAT_commit_reason p).width = 8 := rfl
@[simp] theorem F.PAGE_STAT_commit_err_key (p : Nat) : (F.PAGE_STAT_commit_err p).key = (p * 0x1000 + 0x00C) * 8 + 15 := rfl
@[simp] theorem F.PAGE_STAT_commit_err_width (p : Nat) : (F.PAGE_STAT_commit_err p).width = 1 := rfl
@[simp] theorem F.PAGE_STAT_commit_pending_key (p : Nat) : (F.PAGE_STAT_commit_pending p).key = (p * 0x1000 + 0x00C) * 8 + 14 := rfl
@[simp] theorem F.PAGE_STAT_commit_pending_width (p : Nat) : (F.PAGE_STAT_commit_pending p).width = 1 := rfl
@[simp] theorem F.PAGE_STAT_commit_armed_key (p : Nat) : (F.PAGE_STAT_commit_armed p).key = (p * 0x1000 + 0x00C) * 8 + 13 := rfl
@[simp] theorem F.PAGE_STAT_commit_armed_width (p : Nat) : (F.PAGE_STAT_commit_armed p).width = 1 := rfl
@[simp] theorem F.PAGE_STAT_snap_busy_key (p : Nat) : (F.PAGE_STAT_snap_busy p).key = (p * 0x1000 + 0x00C) * 8 + 11 := rfl
@[simp] theorem F.PAGE_STAT_snap_busy_width (p : Nat) : (F.PAGE_STAT_snap_busy p).width = 1 := rfl
@[simp] theorem F.EVT_RAW_key (p : Nat) : (F.EVT_RAW p).key = (p * 0x1000 + 0x010) * 8 + 0 := rfl
@[simp] theorem F.EVT_RAW_width (p : Nat) : (F.EVT_RAW p).width = 32 := rfl
@[simp] theorem F.EVT_STICKY_key (p : Nat) : (F.EVT_STICKY p).key = (p * 0x1000 + 0x014) * 8 + 0 := rfl
@[simp] theorem F.EVT_STICKY_width (p : Nat) : (F.EVT_STICKY p).width = 32 := rfl
@[simp] theorem F.EVT_EN_key (p : Nat) : (F.EVT_EN p).key = (p * 0x1000 + 0x018) * 8 + 0 := rfl
@[simp] theorem F.EVT_EN_width (p : Nat) : (F.EVT_EN p).width = 32 := rfl
@[simp] theorem F.COMMIT_seq_key (p : Nat) : (F.COMMIT_seq p).key = (p * 0x1000 + 0x020) * 8 + 8 := rfl
@[simp] theorem F.COMMIT_seq_width (p : Nat) : (F.COMMIT_seq p).width = 8 := rfl
@[simp] theorem F.LOCK_owner_key (p : Nat) : (F.LOCK_owner p).key = (p * 0x1000 + 0x024) * 8 + 0 := rfl
@[simp] theorem F.LOCK_owner_width (p : Nat) : (F.LOCK_owner p).width = 4 := rfl
@[simp] theorem F.ERR_valid_key (p : Nat) : (F.ERR_valid p).key = (p * 0x1000 + 0x028) * 8 + 31 := rfl
@[simp] theorem F.ERR_valid_width (p : Nat) : (F.ERR_valid p).width = 1 := rfl
@[simp] theorem F.ERR_lost_key (p : Nat) : (F.ERR_lost p).key = (p * 0x1000 + 0x028) * 8 + 30 := rfl
@[simp] theorem F.ERR_lost_width (p : Nat) : (F.ERR_lost p).width = 1 := rfl
@[simp] theorem F.ERR_step_key (p : Nat) : (F.ERR_step p).key = (p * 0x1000 + 0x028) * 8 + 8 := rfl
@[simp] theorem F.ERR_step_width (p : Nat) : (F.ERR_step p).width = 8 := rfl
@[simp] theorem F.ERR_code_key (p : Nat) : (F.ERR_code p).key = (p * 0x1000 + 0x028) * 8 + 0 := rfl
@[simp] theorem F.ERR_code_width (p : Nat) : (F.ERR_code p).width = 8 := rfl
@[simp] theorem F.SNAP_seq_key (p : Nat) : (F.SNAP_seq p).key = (p * 0x1000 + 0x02C) * 8 + 8 := rfl
@[simp] theorem F.SNAP_seq_width (p : Nat) : (F.SNAP_seq p).width = 8 := rfl
@[simp] theorem F.LE_ROLE_line_mode_key (i : Nat) : (F.LE_ROLE_line_mode i).key = (0x10040 + 0x40000 * i) * 8 + 12 := rfl
@[simp] theorem F.LE_ROLE_line_mode_width (i : Nat) : (F.LE_ROLE_line_mode i).width = 4 := rfl
@[simp] theorem F.LE_ROLE_single_fibre_key (i : Nat) : (F.LE_ROLE_single_fibre i).key = (0x10040 + 0x40000 * i) * 8 + 8 := rfl
@[simp] theorem F.LE_ROLE_single_fibre_width (i : Nat) : (F.LE_ROLE_single_fibre i).width = 1 := rfl
@[simp] theorem F.LE_ROLE_role_key (i : Nat) : (F.LE_ROLE_role i).key = (0x10040 + 0x40000 * i) * 8 + 0 := rfl
@[simp] theorem F.LE_ROLE_role_width (i : Nat) : (F.LE_ROLE_role i).width = 3 := rfl
@[simp] theorem F.LE_ROLE_STAT_run_state_key (i : Nat) : (F.LE_ROLE_STAT_run_state i).key = (0x10044 + 0x40000 * i) * 8 + 18 := rfl
@[simp] theorem F.LE_ROLE_STAT_run_state_width (i : Nat) : (F.LE_ROLE_STAT_run_state i).width = 2 := rfl
@[simp] theorem F.LE_ROLE_STAT_line_mode_active_key (i : Nat) : (F.LE_ROLE_STAT_line_mode_active i).key = (0x10044 + 0x40000 * i) * 8 + 12 := rfl
@[simp] theorem F.LE_ROLE_STAT_line_mode_active_width (i : Nat) : (F.LE_ROLE_STAT_line_mode_active i).width = 4 := rfl
@[simp] theorem F.LE_ROLE_STAT_single_fibre_active_key (i : Nat) : (F.LE_ROLE_STAT_single_fibre_active i).key = (0x10044 + 0x40000 * i) * 8 + 8 := rfl
@[simp] theorem F.LE_ROLE_STAT_single_fibre_active_width (i : Nat) : (F.LE_ROLE_STAT_single_fibre_active i).width = 1 := rfl
@[simp] theorem F.LE_ROLE_STAT_start_step_key (i : Nat) : (F.LE_ROLE_STAT_start_step i).key = (0x10044 + 0x40000 * i) * 8 + 3 := rfl
@[simp] theorem F.LE_ROLE_STAT_start_step_width (i : Nat) : (F.LE_ROLE_STAT_start_step i).width = 5 := rfl
@[simp] theorem F.LE_ROLE_STAT_role_active_key (i : Nat) : (F.LE_ROLE_STAT_role_active i).key = (0x10044 + 0x40000 * i) * 8 + 0 := rfl
@[simp] theorem F.LE_ROLE_STAT_role_active_width (i : Nat) : (F.LE_ROLE_STAT_role_active i).width = 3 := rfl
@[simp] theorem F.DEV_COMMIT_SYNC_sync_seq_key : F.DEV_COMMIT_SYNC_sync_seq.key = 0x60 * 8 + 8 := rfl
@[simp] theorem F.DEV_COMMIT_SYNC_sync_seq_width : F.DEV_COMMIT_SYNC_sync_seq.width = 8 := rfl
@[simp] theorem F.DEV_PAGE_ROUTE_to_alarm_key (i : Nat) : (F.DEV_PAGE_ROUTE_to_alarm i).key = (0x1400 + 0x4 * i) * 8 + 10 := rfl
@[simp] theorem F.DEV_PAGE_ROUTE_to_alarm_width (i : Nat) : (F.DEV_PAGE_ROUTE_to_alarm i).width = 1 := rfl
@[simp] theorem F.DEV_PAGE_ROUTE_to_irq_key (i : Nat) : (F.DEV_PAGE_ROUTE_to_irq i).key = (0x1400 + 0x4 * i) * 8 + 9 := rfl
@[simp] theorem F.DEV_PAGE_ROUTE_to_irq_width (i : Nat) : (F.DEV_PAGE_ROUTE_to_irq i).width = 1 := rfl
@[simp] theorem F.DEV_PAGE_ROUTE_to_msix_key (i : Nat) : (F.DEV_PAGE_ROUTE_to_msix i).key = (0x1400 + 0x4 * i) * 8 + 8 := rfl
@[simp] theorem F.DEV_PAGE_ROUTE_to_msix_width (i : Nat) : (F.DEV_PAGE_ROUTE_to_msix i).width = 1 := rfl
@[simp] theorem F.DEV_PAGE_ROUTE_vector_key (i : Nat) : (F.DEV_PAGE_ROUTE_vector i).key = (0x1400 + 0x4 * i) * 8 + 0 := rfl
@[simp] theorem F.DEV_PAGE_ROUTE_vector_width (i : Nat) : (F.DEV_PAGE_ROUTE_vector i).width = 6 := rfl
@[simp] theorem F.FAB_ERR_CNT_count_key : F.FAB_ERR_CNT_count.key = 0x7040 * 8 + 0 := rfl
@[simp] theorem F.FAB_ERR_CNT_count_width : F.FAB_ERR_CNT_count.width = 32 := rfl
@[simp] theorem F.FAB_ERR_LAST_ADDR_addr_key : F.FAB_ERR_LAST_ADDR_addr.key = 0x7044 * 8 + 0 := rfl
@[simp] theorem F.FAB_ERR_LAST_ADDR_addr_width : F.FAB_ERR_LAST_ADDR_addr.width = 32 := rfl
@[simp] theorem F.FAB_ERR_LAST_INFO_reason_key : F.FAB_ERR_LAST_INFO_reason.key = 0x7048 * 8 + 8 := rfl
@[simp] theorem F.FAB_ERR_LAST_INFO_reason_width : F.FAB_ERR_LAST_INFO_reason.width = 4 := rfl
@[simp] theorem F.FAB_ERR_LAST_INFO_master_key : F.FAB_ERR_LAST_INFO_master.key = 0x7048 * 8 + 0 := rfl
@[simp] theorem F.FAB_ERR_LAST_INFO_master_width : F.FAB_ERR_LAST_INFO_master.width = 4 := rfl
@[simp] theorem F.LOCKN_owner_key (i : Nat) : (F.LOCKN_owner i).key = (0x8040 + 0x4 * i) * 8 + 0 := rfl
@[simp] theorem F.LOCKN_owner_width (i : Nat) : (F.LOCKN_owner i).width = 4 := rfl
@[simp] theorem F.LOCK_ERR_last_page_key : F.LOCK_ERR_last_page.key = 0x8140 * 8 + 24 := rfl
@[simp] theorem F.LOCK_ERR_last_page_width : F.LOCK_ERR_last_page.width = 8 := rfl
@[simp] theorem F.LOCK_ERR_last_index_key : F.LOCK_ERR_last_index.key = 0x8140 * 8 + 18 := rfl
@[simp] theorem F.LOCK_ERR_last_index_width : F.LOCK_ERR_last_index.width = 6 := rfl
@[simp] theorem F.LOCK_ERR_last_master_key : F.LOCK_ERR_last_master.key = 0x8140 * 8 + 14 := rfl
@[simp] theorem F.LOCK_ERR_last_master_width : F.LOCK_ERR_last_master.width = 4 := rfl
@[simp] theorem F.LOCK_ERR_count_key : F.LOCK_ERR_count.key = 0x8140 * 8 + 0 := rfl
@[simp] theorem F.LOCK_ERR_count_width : F.LOCK_ERR_count.width = 14 := rfl
@[simp] theorem F.LOCK_ORPHAN_last_master_key : F.LOCK_ORPHAN_last_master.key = 0x8144 * 8 + 16 := rfl
@[simp] theorem F.LOCK_ORPHAN_last_master_width : F.LOCK_ORPHAN_last_master.width = 4 := rfl
@[simp] theorem F.LOCK_ORPHAN_count_key : F.LOCK_ORPHAN_count.key = 0x8144 * 8 + 0 := rfl
@[simp] theorem F.LOCK_ORPHAN_count_width : F.LOCK_ORPHAN_count.width = 16 := rfl
@[simp] theorem F.MBX_STAT_overrun_key (i : Nat) : (F.MBX_STAT_overrun i).key = (0x9048 + 0x20 * i) * 8 + 17 := rfl
@[simp] theorem F.MBX_STAT_overrun_width (i : Nat) : (F.MBX_STAT_overrun i).width = 1 := rfl
@[simp] theorem F.MBX_STAT_timeout_key (i : Nat) : (F.MBX_STAT_timeout i).key = (0x9048 + 0x20 * i) * 8 + 16 := rfl
@[simp] theorem F.MBX_STAT_timeout_width (i : Nat) : (F.MBX_STAT_timeout i).width = 1 := rfl
@[simp] theorem F.MBX_STAT_discarded_key (i : Nat) : (F.MBX_STAT_discarded i).key = (0x9048 + 0x20 * i) * 8 + 15 := rfl
@[simp] theorem F.MBX_STAT_discarded_width (i : Nat) : (F.MBX_STAT_discarded i).width = 1 := rfl
@[simp] theorem F.MBX_STAT_rx_in_reset_key (i : Nat) : (F.MBX_STAT_rx_in_reset i).key = (0x9048 + 0x20 * i) * 8 + 14 := rfl
@[simp] theorem F.MBX_STAT_rx_in_reset_width (i : Nat) : (F.MBX_STAT_rx_in_reset i).width = 1 := rfl
@[simp] theorem F.MBX_STAT_discard_cnt_key (i : Nat) : (F.MBX_STAT_discard_cnt i).key = (0x9048 + 0x20 * i) * 8 + 0 := rfl
@[simp] theorem F.MBX_STAT_discard_cnt_width (i : Nat) : (F.MBX_STAT_discard_cnt i).width = 8 := rfl
@[simp] theorem F.MBX_CFG_timeout_us_key (i : Nat) : (F.MBX_CFG_timeout_us i).key = (0x904C + 0x20 * i) * 8 + 0 := rfl
@[simp] theorem F.MBX_CFG_timeout_us_width (i : Nat) : (F.MBX_CFG_timeout_us i).width = 20 := rfl
@[simp] theorem F.XS_RESYNC_LO_bits_key : F.XS_RESYNC_LO_bits.key = 0xA048 * 8 + 0 := rfl
@[simp] theorem F.XS_RESYNC_LO_bits_width : F.XS_RESYNC_LO_bits.width = 32 := rfl
@[simp] theorem F.XS_RESYNC_HI_bits_key : F.XS_RESYNC_HI_bits.key = 0xA04C * 8 + 0 := rfl
@[simp] theorem F.XS_RESYNC_HI_bits_width : F.XS_RESYNC_HI_bits.width = 32 := rfl
@[simp] theorem F.XS_PULSE_SAT_LO_bits_key : F.XS_PULSE_SAT_LO_bits.key = 0xA050 * 8 + 0 := rfl
@[simp] theorem F.XS_PULSE_SAT_LO_bits_width : F.XS_PULSE_SAT_LO_bits.width = 32 := rfl
@[simp] theorem F.XS_PULSE_SAT_HI_bits_key : F.XS_PULSE_SAT_HI_bits.key = 0xA054 * 8 + 0 := rfl
@[simp] theorem F.XS_PULSE_SAT_HI_bits_width : F.XS_PULSE_SAT_HI_bits.width = 32 := rfl
@[simp] theorem F.XS_DROP_CNT_count_key : F.XS_DROP_CNT_count.key = 0xA058 * 8 + 0 := rfl
@[simp] theorem F.XS_DROP_CNT_count_width : F.XS_DROP_CNT_count.width = 32 := rfl
@[simp] theorem F.DEV_MODE_transition_key : F.DEV_MODE_transition.key = 0x40 * 8 + 31 := rfl
@[simp] theorem F.DEV_MODE_transition_width : F.DEV_MODE_transition.width = 1 := rfl
@[simp] theorem F.DEV_MODE_req_result_key : F.DEV_MODE_req_result.key = 0x40 * 8 + 24 := rfl
@[simp] theorem F.DEV_MODE_req_result_width : F.DEV_MODE_req_result.width = 4 := rfl
@[simp] theorem F.DEV_MODE_mode_prev_key : F.DEV_MODE_mode_prev.key = 0x40 * 8 + 20 := rfl
@[simp] theorem F.DEV_MODE_mode_prev_width : F.DEV_MODE_mode_prev.width = 4 := rfl
@[simp] theorem F.DEV_MODE_mode_key : F.DEV_MODE_mode.key = 0x40 * 8 + 16 := rfl
@[simp] theorem F.DEV_MODE_mode_width : F.DEV_MODE_mode.width = 4 := rfl
@[simp] theorem F.DEV_MODE_maint_le1_key : F.DEV_MODE_maint_le1.key = 0x40 * 8 + 9 := rfl
@[simp] theorem F.DEV_MODE_maint_le1_width : F.DEV_MODE_maint_le1.width = 1 := rfl
@[simp] theorem F.DEV_MODE_maint_le0_key : F.DEV_MODE_maint_le0.key = 0x40 * 8 + 8 := rfl
@[simp] theorem F.DEV_MODE_maint_le0_width : F.DEV_MODE_maint_le0.width = 1 := rfl
@[simp] theorem F.DEV_STATUS_cfg_default_key : F.DEV_STATUS_cfg_default.key = 0x44 * 8 + 31 := rfl
@[simp] theorem F.DEV_STATUS_cfg_default_width : F.DEV_STATUS_cfg_default.width = 1 := rfl
@[simp] theorem F.DEV_STATUS_fw_none_key : F.DEV_STATUS_fw_none.key = 0x44 * 8 + 30 := rfl
@[simp] theorem F.DEV_STATUS_fw_none_width : F.DEV_STATUS_fw_none.width = 1 := rfl
@[simp] theorem F.DEV_STATUS_fw_slot_key : F.DEV_STATUS_fw_slot.key = 0x44 * 8 + 29 := rfl
@[simp] theorem F.DEV_STATUS_fw_slot_width : F.DEV_STATUS_fw_slot.width = 1 := rfl
@[simp] theorem F.DEV_STATUS_spares_exhausted_key : F.DEV_STATUS_spares_exhausted.key = 0x44 * 8 + 28 := rfl
@[simp] theorem F.DEV_STATUS_spares_exhausted_width : F.DEV_STATUS_spares_exhausted.width = 1 := rfl
@[simp] theorem F.DEV_STATUS_tamper_latched_key : F.DEV_STATUS_tamper_latched.key = 0x44 * 8 + 27 := rfl
@[simp] theorem F.DEV_STATUS_tamper_latched_width : F.DEV_STATUS_tamper_latched.width = 1 := rfl
@[simp] theorem F.DEV_STATUS_zeroise_record_key : F.DEV_STATUS_zeroise_record.key = 0x44 * 8 + 26 := rfl
@[simp] theorem F.DEV_STATUS_zeroise_record_width : F.DEV_STATUS_zeroise_record.width = 1 := rfl
@[simp] theorem F.DEV_STATUS_refclk_ok_key : F.DEV_STATUS_refclk_ok.key = 0x44 * 8 + 25 := rfl
@[simp] theorem F.DEV_STATUS_refclk_ok_width : F.DEV_STATUS_refclk_ok.width = 1 := rfl
@[simp] theorem F.DEV_STATUS_aon_xtal_lock_key : F.DEV_STATUS_aon_xtal_lock.key = 0x44 * 8 + 24 := rfl
@[simp] theorem F.DEV_STATUS_aon_xtal_lock_width : F.DEV_STATUS_aon_xtal_lock.width = 1 := rfl
@[simp] theorem F.DEV_STATUS_mem_trained_key : F.DEV_STATUS_mem_trained.key = 0x44 * 8 + 23 := rfl
@[simp] theorem F.DEV_STATUS_mem_trained_width : F.DEV_STATUS_mem_trained.width = 1 := rfl
@[simp] theorem F.DEV_STATUS_thm_cal_done_key : F.DEV_STATUS_thm_cal_done.key = 0x44 * 8 + 22 := rfl
@[simp] theorem F.DEV_STATUS_thm_cal_done_width : F.DEV_STATUS_thm_cal_done.width = 1 := rfl
@[simp] theorem F.DEV_STATUS_bcr_applied_key : F.DEV_STATUS_bcr_applied.key = 0x44 * 8 + 21 := rfl
@[simp] theorem F.DEV_STATUS_bcr_applied_width : F.DEV_STATUS_bcr_applied.width = 1 := rfl
@[simp] theorem F.DEV_STATUS_service_op_key : F.DEV_STATUS_service_op.key = 0x44 * 8 + 20 := rfl
@[simp] theorem F.DEV_STATUS_service_op_width : F.DEV_STATUS_service_op.width = 1 := rfl
@[simp] theorem F.DEV_STATUS_bcr_fail_key : F.DEV_STATUS_bcr_fail.key = 0x44 * 8 + 16 := rfl
@[simp] theorem F.DEV_STATUS_bcr_fail_width : F.DEV_STATUS_bcr_fail.width = 4 := rfl
@[simp] theorem F.DEV_STATUS_fw_sec_version_key : F.DEV_STATUS_fw_sec_version.key = 0x44 * 8 + 8 := rfl
@[simp] theorem F.DEV_STATUS_fw_sec_version_width : F.DEV_STATUS_fw_sec_version.width = 8 := rfl
@[simp] theorem F.DEV_STATUS_rollback_count_key : F.DEV_STATUS_rollback_count.key = 0x44 * 8 + 0 := rfl
@[simp] theorem F.DEV_STATUS_rollback_count_width : F.DEV_STATUS_rollback_count.width = 8 := rfl
@[simp] theorem F.DEV_WAKE_SRC_rule_key : F.DEV_WAKE_SRC_rule.key = 0x48 * 8 + 8 := rfl
@[simp] theorem F.DEV_WAKE_SRC_rule_width : F.DEV_WAKE_SRC_rule.width = 5 := rfl
@[simp] theorem F.DEV_WAKE_SRC_source_key : F.DEV_WAKE_SRC_source.key = 0x48 * 8 + 0 := rfl
@[simp] theorem F.DEV_WAKE_SRC_source_width : F.DEV_WAKE_SRC_source.width = 4 := rfl
@[simp] theorem F.DEV_RESET_CAUSE_vaon_por_key : F.DEV_RESET_CAUSE_vaon_por.key = 0x4C * 8 + 7 := rfl
@[simp] theorem F.DEV_RESET_CAUSE_vaon_por_width : F.DEV_RESET_CAUSE_vaon_por.width = 1 := rfl
@[simp] theorem F.DEV_RESET_CAUSE_porst_key : F.DEV_RESET_CAUSE_porst.key = 0x4C * 8 + 6 := rfl
@[simp] theorem F.DEV_RESET_CAUSE_porst_width : F.DEV_RESET_CAUSE_porst.width = 1 := rfl
@[simp] theorem F.DEV_RESET_CAUSE_reset_cmd_key : F.DEV_RESET_CAUSE_reset_cmd.key = 0x4C * 8 + 5 := rfl
@[simp] theorem F.DEV_RESET_CAUSE_reset_cmd_width : F.DEV_RESET_CAUSE_reset_cmd.width = 1 := rfl
@[simp] theorem F.DEV_RESET_CAUSE_safe_cmd_key : F.DEV_RESET_CAUSE_safe_cmd.key = 0x4C * 8 + 4 := rfl
@[simp] theorem F.DEV_RESET_CAUSE_safe_cmd_width : F.DEV_RESET_CAUSE_safe_cmd.width = 1 := rfl
@[simp] theorem F.DEV_RESET_CAUSE_enclave_fault_key : F.DEV_RESET_CAUSE_enclave_fault.key = 0x4C * 8 + 3 := rfl
@[simp] theorem F.DEV_RESET_CAUSE_enclave_fault_width : F.DEV_RESET_CAUSE_enclave_fault.width = 1 := rfl
@[simp] theorem F.DEV_RESET_CAUSE_dormant_exit_key : F.DEV_RESET_CAUSE_dormant_exit.key = 0x4C * 8 + 2 := rfl
@[simp] theorem F.DEV_RESET_CAUSE_dormant_exit_width : F.DEV_RESET_CAUSE_dormant_exit.width = 1 := rfl
@[simp] theorem F.DEV_RESET_CAUSE_reprovision_key : F.DEV_RESET_CAUSE_reprovision.key = 0x4C * 8 + 1 := rfl
@[simp] theorem F.DEV_RESET_CAUSE_reprovision_width : F.DEV_RESET_CAUSE_reprovision.width = 1 := rfl
@[simp] theorem F.DEV_BCR_STAT_apply_err_key : F.DEV_BCR_STAT_apply_err.key = 0x50 * 8 + 31 := rfl
@[simp] theorem F.DEV_BCR_STAT_apply_err_width : F.DEV_BCR_STAT_apply_err.width = 1 := rfl
@[simp] theorem F.DEV_BCR_STAT_entry_key : F.DEV_BCR_STAT_entry.key = 0x50 * 8 + 16 := rfl
@[simp] theorem F.DEV_BCR_STAT_entry_width : F.DEV_BCR_STAT_entry.width = 13 := rfl
@[simp] theorem F.DEV_BCR_STAT_reason_key : F.DEV_BCR_STAT_reason.key = 0x50 * 8 + 8 := rfl
@[simp] theorem F.DEV_BCR_STAT_reason_width : F.DEV_BCR_STAT_reason.width = 8 := rfl
@[simp] theorem F.DEV_BCR_STAT_sequence_key : F.DEV_BCR_STAT_sequence.key = 0x50 * 8 + 0 := rfl
@[simp] theorem F.DEV_BCR_STAT_sequence_width : F.DEV_BCR_STAT_sequence.width = 8 := rfl
@[simp] theorem F.HMP_WAKE_EN_spi_any_key : F.HMP_WAKE_EN_spi_any.key = 0xE0040 * 8 + 2 := rfl
@[simp] theorem F.HMP_WAKE_EN_spi_any_width : F.HMP_WAKE_EN_spi_any.width = 1 := rfl
@[simp] theorem F.HMP_WAKE_EN_spi_req_key : F.HMP_WAKE_EN_spi_req.key = 0xE0040 * 8 + 1 := rfl
@[simp] theorem F.HMP_WAKE_EN_spi_req_width : F.HMP_WAKE_EN_spi_req.width = 1 := rfl
@[simp] theorem F.HMP_WAKE_EN_wake_n_key : F.HMP_WAKE_EN_wake_n.key = 0xE0040 * 8 + 0 := rfl
@[simp] theorem F.HMP_WAKE_EN_wake_n_width : F.HMP_WAKE_EN_wake_n.width = 1 := rfl
@[simp] theorem F.LE_TX_PLAN_fec_oh_key (i : Nat) : (F.LE_TX_PLAN_fec_oh i).key = (0x14040 + 0x40000 * i) * 8 + 30 := rfl
@[simp] theorem F.LE_TX_PLAN_fec_oh_width (i : Nat) : (F.LE_TX_PLAN_fec_oh i).width = 2 := rfl
@[simp] theorem F.LE_TX_PLAN_sc_count_key (i : Nat) : (F.LE_TX_PLAN_sc_count i).key = (0x14040 + 0x40000 * i) * 8 + 26 := rfl
@[simp] theorem F.LE_TX_PLAN_sc_count_width (i : Nat) : (F.LE_TX_PLAN_sc_count i).width = 3 := rfl
@[simp] theorem F.LE_TX_PLAN_modulation_key (i : Nat) : (F.LE_TX_PLAN_modulation i).key = (0x14040 + 0x40000 * i) * 8 + 23 := rfl
@[simp] theorem F.LE_TX_PLAN_modulation_width (i : Nat) : (F.LE_TX_PLAN_modulation i).width = 3 := rfl
@[simp] theorem F.LE_TX_PLAN_entropy_key (i : Nat) : (F.LE_TX_PLAN_entropy i).key = (0x14040 + 0x40000 * i) * 8 + 15 := rfl
@[simp] theorem F.LE_TX_PLAN_entropy_width (i : Nat) : (F.LE_TX_PLAN_entropy i).width = 8 := rfl
@[simp] theorem F.LE_TX_PLAN_baud_key (i : Nat) : (F.LE_TX_PLAN_baud i).key = (0x14040 + 0x40000 * i) * 8 + 0 := rfl
@[simp] theorem F.LE_TX_PLAN_baud_width (i : Nat) : (F.LE_TX_PLAN_baud i).width = 11 := rfl
@[simp] theorem F.LE_TX_SHAPE_timed_change_key (i : Nat) : (F.LE_TX_SHAPE_timed_change i).key = (0x14044 + 0x40000 * i) * 8 + 31 := rfl
@[simp] theorem F.LE_TX_SHAPE_timed_change_width (i : Nat) : (F.LE_TX_SHAPE_timed_change i).width = 1 := rfl
@[simp] theorem F.LE_TX_SHAPE_pilot_boost_key (i : Nat) : (F.LE_TX_SHAPE_pilot_boost i).key = (0x14044 + 0x40000 * i) * 8 + 8 := rfl
@[simp] theorem F.LE_TX_SHAPE_pilot_boost_width (i : Nat) : (F.LE_TX_SHAPE_pilot_boost i).width = 4 := rfl
@[simp] theorem F.LE_TX_SHAPE_rolloff_key (i : Nat) : (F.LE_TX_SHAPE_rolloff i).key = (0x14044 + 0x40000 * i) * 8 + 0 := rfl
@[simp] theorem F.LE_TX_SHAPE_rolloff_width (i : Nat) : (F.LE_TX_SHAPE_rolloff i).width = 8 := rfl
@[simp] theorem F.LE_TX_PLAN_AT_frame_key (i : Nat) : (F.LE_TX_PLAN_AT_frame i).key = (0x14048 + 0x40000 * i) * 8 + 0 := rfl
@[simp] theorem F.LE_TX_PLAN_AT_frame_width (i : Nat) : (F.LE_TX_PLAN_AT_frame i).width = 32 := rfl
@[simp] theorem F.LE_TX_SC_EN_en_key (i : Nat) : (F.LE_TX_SC_EN_en i).key = (0x1404C + 0x40000 * i) * 8 + 0 := rfl
@[simp] theorem F.LE_TX_SC_EN_en_width (i : Nat) : (F.LE_TX_SC_EN_en i).width = 32 := rfl
@[simp] theorem F.LE_TX_SC_GAIN_gain_key (i j : Nat) : (F.LE_TX_SC_GAIN_gain i j).key = (0x14080 + 0x40000 * i + 0x4 * j) * 8 + 0 := rfl
@[simp] theorem F.LE_TX_SC_GAIN_gain_width (i j : Nat) : (F.LE_TX_SC_GAIN_gain i j).width = 9 := rfl
@[simp] theorem F.LE_TX_PLAN_STAT_reload_busy_key (i : Nat) : (F.LE_TX_PLAN_STAT_reload_busy i).key = (0x14050 + 0x40000 * i) * 8 + 31 := rfl
@[simp] theorem F.LE_TX_PLAN_STAT_reload_busy_width (i : Nat) : (F.LE_TX_PLAN_STAT_reload_busy i).width = 1 := rfl
@[simp] theorem F.LE_TX_PLAN_STAT_timed_pending_key (i : Nat) : (F.LE_TX_PLAN_STAT_timed_pending i).key = (0x14050 + 0x40000 * i) * 8 + 30 := rfl
@[simp] theorem F.LE_TX_PLAN_STAT_timed_pending_width (i : Nat) : (F.LE_TX_PLAN_STAT_timed_pending i).width = 1 := rfl
@[simp] theorem F.LE_TX_PLAN_STAT_sc_enabled_key (i : Nat) : (F.LE_TX_PLAN_STAT_sc_enabled i).key = (0x14050 + 0x40000 * i) * 8 + 24 := rfl
@[simp] theorem F.LE_TX_PLAN_STAT_sc_enabled_width (i : Nat) : (F.LE_TX_PLAN_STAT_sc_enabled i).width = 6 := rfl
@[simp] theorem F.LE_TX_PLAN_STAT_entropy_active_key (i : Nat) : (F.LE_TX_PLAN_STAT_entropy_active i).key = (0x14050 + 0x40000 * i) * 8 + 16 := rfl
@[simp] theorem F.LE_TX_PLAN_STAT_entropy_active_width (i : Nat) : (F.LE_TX_PLAN_STAT_entropy_active i).width = 8 := rfl
@[simp] theorem F.LE_TX_PLAN_STAT_modulation_active_key (i : Nat) : (F.LE_TX_PLAN_STAT_modulation_active i).key = (0x14050 + 0x40000 * i) * 8 + 12 := rfl
@[simp] theorem F.LE_TX_PLAN_STAT_modulation_active_width (i : Nat) : (F.LE_TX_PLAN_STAT_modulation_active i).width = 3 := rfl
@[simp] theorem F.LE_TX_PLAN_STAT_baud_active_key (i : Nat) : (F.LE_TX_PLAN_STAT_baud_active i).key = (0x14050 + 0x40000 * i) * 8 + 0 := rfl
@[simp] theorem F.LE_TX_PLAN_STAT_baud_active_width (i : Nat) : (F.LE_TX_PLAN_STAT_baud_active i).width = 11 := rfl
@[simp] theorem F.LE_TX_CODED_RATE_rate_key (i : Nat) : (F.LE_TX_CODED_RATE_rate i).key = (0x14054 + 0x40000 * i) * 8 + 0 := rfl
@[simp] theorem F.LE_TX_CODED_RATE_rate_width (i : Nat) : (F.LE_TX_CODED_RATE_rate i).width = 20 := rfl
@[simp] theorem F.LE_TX_NET_RATE_rate_key (i : Nat) : (F.LE_TX_NET_RATE_rate i).key = (0x14058 + 0x40000 * i) * 8 + 0 := rfl
@[simp] theorem F.LE_TX_NET_RATE_rate_width (i : Nat) : (F.LE_TX_NET_RATE_rate i).width = 20 := rfl
@[simp] theorem F.LE_TX_BAUD_MAX_baud_key (i : Nat) : (F.LE_TX_BAUD_MAX_baud i).key = (0x1405C + 0x40000 * i) * 8 + 0 := rfl
@[simp] theorem F.LE_TX_BAUD_MAX_baud_width (i : Nat) : (F.LE_TX_BAUD_MAX_baud i).width = 11 := rfl
@[simp] theorem F.LE_TX_SHAPE_GAIN_gain_key (i j : Nat) : (F.LE_TX_SHAPE_GAIN_gain i j).key = (0x15200 + 0x40000 * i + 0x4 * j) * 8 + 0 := rfl
@[simp] theorem F.LE_TX_SHAPE_GAIN_gain_width (i j : Nat) : (F.LE_TX_SHAPE_GAIN_gain i j).width = 10 := rfl
@[simp] theorem F.LE_TX_MASK_LIMIT_limits_key (i j : Nat) : (F.LE_TX_MASK_LIMIT_limits i j).key = (0x15100 + 0x40000 * i + 0x4 * j) * 8 + 0 := rfl
@[simp] theorem F.LE_TX_MASK_LIMIT_limits_width (i j : Nat) : (F.LE_TX_MASK_LIMIT_limits i j).width = 32 := rfl
@[simp] theorem F.LE_TX_MASK_CTRL_persist_key (i : Nat) : (F.LE_TX_MASK_CTRL_persist i).key = (0x15040 + 0x40000 * i) * 8 + 4 := rfl
@[simp] theorem F.LE_TX_MASK_CTRL_persist_width (i : Nat) : (F.LE_TX_MASK_CTRL_persist i).width = 8 := rfl
@[simp] theorem F.LE_TX_MASK_CTRL_action_key (i : Nat) : (F.LE_TX_MASK_CTRL_action i).key = (0x15040 + 0x40000 * i) * 8 + 0 := rfl
@[simp] theorem F.LE_TX_MASK_CTRL_action_width (i : Nat) : (F.LE_TX_MASK_CTRL_action i).width = 2 := rfl
@[simp] theorem F.LE_TX_MASK_STAT_violation_key (i : Nat) : (F.LE_TX_MASK_STAT_violation i).key = (0x15044 + 0x40000 * i) * 8 + 31 := rfl
@[simp] theorem F.LE_TX_MASK_STAT_violation_width (i : Nat) : (F.LE_TX_MASK_STAT_violation i).width = 1 := rfl
@[simp] theorem F.LE_TX_MASK_STAT_muted_key (i : Nat) : (F.LE_TX_MASK_STAT_muted i).key = (0x15044 + 0x40000 * i) * 8 + 30 := rfl
@[simp] theorem F.LE_TX_MASK_STAT_muted_width (i : Nat) : (F.LE_TX_MASK_STAT_muted i).width = 1 := rfl
@[simp] theorem F.LE_TX_MASK_STAT_worst_bin_key (i : Nat) : (F.LE_TX_MASK_STAT_worst_bin i).key = (0x15044 + 0x40000 * i) * 8 + 18 := rfl
@[simp] theorem F.LE_TX_MASK_STAT_worst_bin_width (i : Nat) : (F.LE_TX_MASK_STAT_worst_bin i).width = 8 := rfl
@[simp] theorem F.LE_TX_MASK_STAT_worst_excess_key (i : Nat) : (F.LE_TX_MASK_STAT_worst_excess i).key = (0x15044 + 0x40000 * i) * 8 + 9 := rfl
@[simp] theorem F.LE_TX_MASK_STAT_worst_excess_width (i : Nat) : (F.LE_TX_MASK_STAT_worst_excess i).width = 9 := rfl
@[simp] theorem F.LE_TX_MASK_STAT_bins_over_key (i : Nat) : (F.LE_TX_MASK_STAT_bins_over i).key = (0x15044 + 0x40000 * i) * 8 + 0 := rfl
@[simp] theorem F.LE_TX_MASK_STAT_bins_over_width (i : Nat) : (F.LE_TX_MASK_STAT_bins_over i).width = 9 := rfl
@[simp] theorem F.LE_TX_MASK_MUTED_muted_key (i : Nat) : (F.LE_TX_MASK_MUTED_muted i).key = (0x15048 + 0x40000 * i) * 8 + 0 := rfl
@[simp] theorem F.LE_TX_MASK_MUTED_muted_width (i : Nat) : (F.LE_TX_MASK_MUTED_muted i).width = 32 := rfl
@[simp] theorem F.LE_TX_MASK_VIOL_CNT_count_key (i : Nat) : (F.LE_TX_MASK_VIOL_CNT_count i).key = (0x1504C + 0x40000 * i) * 8 + 0 := rfl
@[simp] theorem F.LE_TX_MASK_VIOL_CNT_count_width (i : Nat) : (F.LE_TX_MASK_VIOL_CNT_count i).width = 32 := rfl
@[simp] theorem F.LE_TX_LANE_GAIN_gain_key (i j : Nat) : (F.LE_TX_LANE_GAIN_gain i j).key = (0x16040 + 0x40000 * i + 0x10 * j) * 8 + 0 := rfl
@[simp] theorem F.LE_TX_LANE_GAIN_gain_width (i j : Nat) : (F.LE_TX_LANE_GAIN_gain i j).width = 11 := rfl
@[simp] theorem F.LE_TX_LANE_SKEW_skew_key (i j : Nat) : (F.LE_TX_LANE_SKEW_skew i j).key = (0x16044 + 0x40000 * i + 0x10 * j) * 8 + 0 := rfl
@[simp] theorem F.LE_TX_LANE_SKEW_skew_width (i j : Nat) : (F.LE_TX_LANE_SKEW_skew i j).width = 13 := rfl
@[simp] theorem F.LE_TX_CLIP_CNT_count_key (i j : Nat) : (F.LE_TX_CLIP_CNT_count i j).key = (0x16048 + 0x40000 * i + 0x10 * j) * 8 + 0 := rfl
@[simp] theorem F.LE_TX_CLIP_CNT_count_width (i j : Nat) : (F.LE_TX_CLIP_CNT_count i j).width = 32 := rfl
@[simp] theorem F.LE_TX_IQ_PHASE_X_phase_key (i : Nat) : (F.LE_TX_IQ_PHASE_X_phase i).key = (0x16080 + 0x40000 * i) * 8 + 0 := rfl
@[simp] theorem F.LE_TX_IQ_PHASE_X_phase_width (i : Nat) : (F.LE_TX_IQ_PHASE_X_phase i).width = 11 := rfl
@[simp] theorem F.LE_TX_IQ_PHASE_Y_phase_key (i : Nat) : (F.LE_TX_IQ_PHASE_Y_phase i).key = (0x16084 + 0x40000 * i) * 8 + 0 := rfl
@[simp] theorem F.LE_TX_IQ_PHASE_Y_phase_width (i : Nat) : (F.LE_TX_IQ_PHASE_Y_phase i).width = 11 := rfl
@[simp] theorem F.LE_TX_PREEMP_gain_key (i j k : Nat) : (F.LE_TX_PREEMP_gain i j k).key = (0x16100 + 0x40000 * i + 0x80 * j + 0x4 * k) * 8 + 0 := rfl
@[simp] theorem F.LE_TX_PREEMP_gain_width (i j k : Nat) : (F.LE_TX_PREEMP_gain i j k).width = 10 := rfl
@[simp] theorem F.LE_TX_CLIP_backoff_key (i : Nat) : (F.LE_TX_CLIP_backoff i).key = (0x16088 + 0x40000 * i) * 8 + 0 := rfl
@[simp] theorem F.LE_TX_CLIP_backoff_width (i : Nat) : (F.LE_TX_CLIP_backoff i).width = 8 := rfl
@[simp] theorem F.LE_TX_DAC_MAP_in_use_key (i j : Nat) : (F.LE_TX_DAC_MAP_in_use i j).key = (0x16300 + 0x40000 * i + 0x4 * j) * 8 + 16 := rfl
@[simp] theorem F.LE_TX_DAC_MAP_in_use_width (i j : Nat) : (F.LE_TX_DAC_MAP_in_use i j).width = 6 := rfl
@[simp] theorem F.LE_TX_DAC_MAP_spare_b_key (i j : Nat) : (F.LE_TX_DAC_MAP_spare_b i j).key = (0x16300 + 0x40000 * i + 0x4 * j) * 8 + 8 := rfl
@[simp] theorem F.LE_TX_DAC_MAP_spare_b_width (i j : Nat) : (F.LE_TX_DAC_MAP_spare_b i j).width = 6 := rfl
@[simp] theorem F.LE_TX_DAC_MAP_spare_a_key (i j : Nat) : (F.LE_TX_DAC_MAP_spare_a i j).key = (0x16300 + 0x40000 * i + 0x4 * j) * 8 + 0 := rfl
@[simp] theorem F.LE_TX_DAC_MAP_spare_a_width (i j : Nat) : (F.LE_TX_DAC_MAP_spare_a i j).width = 6 := rfl
@[simp] theorem F.LE_TX_ENV_CTRL_env_mode_key (i : Nat) : (F.LE_TX_ENV_CTRL_env_mode i).key = (0x17040 + 0x40000 * i) * 8 + 24 := rfl
@[simp] theorem F.LE_TX_ENV_CTRL_env_mode_width (i : Nat) : (F.LE_TX_ENV_CTRL_env_mode i).width = 2 := rfl
@[simp] theorem F.LE_TX_ENV_CTRL_shape_key (i : Nat) : (F.LE_TX_ENV_CTRL_shape i).key = (0x17040 + 0x40000 * i) * 8 + 20 := rfl
@[simp] theorem F.LE_TX_ENV_CTRL_shape_width (i : Nat) : (F.LE_TX_ENV_CTRL_shape i).width = 1 := rfl
@[simp] theorem F.LE_TX_ENV_CTRL_v_on_key (i : Nat) : (F.LE_TX_ENV_CTRL_v_on i).key = (0x17040 + 0x40000 * i) * 8 + 10 := rfl
@[simp] theorem F.LE_TX_ENV_CTRL_v_on_width (i : Nat) : (F.LE_TX_ENV_CTRL_v_on i).width = 10 := rfl
@[simp] theorem F.LE_TX_ENV_CTRL_v_off_key (i : Nat) : (F.LE_TX_ENV_CTRL_v_off i).key = (0x17040 + 0x40000 * i) * 8 + 0 := rfl
@[simp] theorem F.LE_TX_ENV_CTRL_v_off_width (i : Nat) : (F.LE_TX_ENV_CTRL_v_off i).width = 10 := rfl
@[simp] theorem F.LE_TX_ENV_TIME_t_lag_key (i : Nat) : (F.LE_TX_ENV_TIME_t_lag i).key = (0x17044 + 0x40000 * i) * 8 + 24 := rfl
@[simp] theorem F.LE_TX_ENV_TIME_t_lag_width (i : Nat) : (F.LE_TX_ENV_TIME_t_lag i).width = 8 := rfl
@[simp] theorem F.LE_TX_ENV_TIME_t_lead_key (i : Nat) : (F.LE_TX_ENV_TIME_t_lead i).key = (0x17044 + 0x40000 * i) * 8 + 16 := rfl
@[simp] theorem F.LE_TX_ENV_TIME_t_lead_width (i : Nat) : (F.LE_TX_ENV_TIME_t_lead i).width = 8 := rfl
@[simp] theorem F.LE_TX_ENV_TIME_t_down_key (i : Nat) : (F.LE_TX_ENV_TIME_t_down i).key = (0x17044 + 0x40000 * i) * 8 + 8 := rfl
@[simp] theorem F.LE_TX_ENV_TIME_t_down_width (i : Nat) : (F.LE_TX_ENV_TIME_t_down i).width = 8 := rfl
@[simp] theorem F.LE_TX_ENV_TIME_t_up_key (i : Nat) : (F.LE_TX_ENV_TIME_t_up i).key = (0x17044 + 0x40000 * i) * 8 + 0 := rfl
@[simp] theorem F.LE_TX_ENV_TIME_t_up_width (i : Nat) : (F.LE_TX_ENV_TIME_t_up i).width = 8 := rfl
@[simp] theorem F.LE_TX_ENV_STAT_above_key (i : Nat) : (F.LE_TX_ENV_STAT_above i).key = (0x17048 + 0x40000 * i) * 8 + 31 := rfl
@[simp] theorem F.LE_TX_ENV_STAT_above_width (i : Nat) : (F.LE_TX_ENV_STAT_above i).width = 1 := rfl
@[simp] theorem F.LE_TX_ENV_MERGE_CNT_count_key (i : Nat) : (F.LE_TX_ENV_MERGE_CNT_count i).key = (0x1704C + 0x40000 * i) * 8 + 0 := rfl
@[simp] theorem F.LE_TX_ENV_MERGE_CNT_count_width (i : Nat) : (F.LE_TX_ENV_MERGE_CNT_count i).width = 32 := rfl
@[simp] theorem F.LE_RX_PLAN_fec_oh_key (i : Nat) : (F.LE_RX_PLAN_fec_oh i).key = (0x18040 + 0x40000 * i) * 8 + 30 := rfl
@[simp] theorem F.LE_RX_PLAN_fec_oh_width (i : Nat) : (F.LE_RX_PLAN_fec_oh i).width = 2 := rfl
@[simp] theorem F.LE_RX_PLAN_sc_count_key (i : Nat) : (F.LE_RX_PLAN_sc_count i).key = (0x18040 + 0x40000 * i) * 8 + 26 := rfl
@[simp] theorem F.LE_RX_PLAN_sc_count_width (i : Nat) : (F.LE_RX_PLAN_sc_count i).width = 3 := rfl
@[simp] theorem F.LE_RX_PLAN_modulation_key (i : Nat) : (F.LE_RX_PLAN_modulation i).key = (0x18040 + 0x40000 * i) * 8 + 23 := rfl
@[simp] theorem F.LE_RX_PLAN_modulation_width (i : Nat) : (F.LE_RX_PLAN_modulation i).width = 3 := rfl
@[simp] theorem F.LE_RX_PLAN_entropy_key (i : Nat) : (F.LE_RX_PLAN_entropy i).key = (0x18040 + 0x40000 * i) * 8 + 15 := rfl
@[simp] theorem F.LE_RX_PLAN_entropy_width (i : Nat) : (F.LE_RX_PLAN_entropy i).width = 8 := rfl
@[simp] theorem F.LE_RX_PLAN_follow_key (i : Nat) : (F.LE_RX_PLAN_follow i).key = (0x18040 + 0x40000 * i) * 8 + 14 := rfl
@[simp] theorem F.LE_RX_PLAN_follow_width (i : Nat) : (F.LE_RX_PLAN_follow i).width = 1 := rfl
@[simp] theorem F.LE_RX_PLAN_baud_key (i : Nat) : (F.LE_RX_PLAN_baud i).key = (0x18040 + 0x40000 * i) * 8 + 0 := rfl
@[simp] theorem F.LE_RX_PLAN_baud_width (i : Nat) : (F.LE_RX_PLAN_baud i).width = 11 := rfl
@[simp] theorem F.LE_RX_SC_EN_en_key (i : Nat) : (F.LE_RX_SC_EN_en i).key = (0x18044 + 0x40000 * i) * 8 + 0 := rfl
@[simp] theorem F.LE_RX_SC_EN_en_width (i : Nat) : (F.LE_RX_SC_EN_en i).width = 32 := rfl
@[simp] theorem F.LE_RX_PLAN_STAT_follow_pending_key (i : Nat) : (F.LE_RX_PLAN_STAT_follow_pending i).key = (0x18048 + 0x40000 * i) * 8 + 31 := rfl
@[simp] theorem F.LE_RX_PLAN_STAT_follow_pending_width (i : Nat) : (F.LE_RX_PLAN_STAT_follow_pending i).width = 1 := rfl
@[simp] theorem F.LE_RX_PLAN_STAT_spectral_inv_key (i : Nat) : (F.LE_RX_PLAN_STAT_spectral_inv i).key = (0x18048 + 0x40000 * i) * 8 + 30 := rfl
@[simp] theorem F.LE_RX_PLAN_STAT_spectral_inv_width (i : Nat) : (F.LE_RX_PLAN_STAT_spectral_inv i).width = 1 := rfl
@[simp] theorem F.LE_RX_PLAN_STAT_sc_locked_key (i : Nat) : (F.LE_RX_PLAN_STAT_sc_locked i).key = (0x18048 + 0x40000 * i) * 8 + 24 := rfl
@[simp] theorem F.LE_RX_PLAN_STAT_sc_locked_width (i : Nat) : (F.LE_RX_PLAN_STAT_sc_locked i).width = 6 := rfl
@[simp] theorem F.LE_RX_PLAN_STAT_entropy_active_key (i : Nat) : (F.LE_RX_PLAN_STAT_entropy_active i).key = (0x18048 + 0x40000 * i) * 8 + 16 := rfl
@[simp] theorem F.LE_RX_PLAN_STAT_entropy_active_width (i : Nat) : (F.LE_RX_PLAN_STAT_entropy_active i).width = 8 := rfl
@[simp] theorem F.LE_RX_PLAN_STAT_modulation_active_key (i : Nat) : (F.LE_RX_PLAN_STAT_modulation_active i).key = (0x18048 + 0x40000 * i) * 8 + 12 := rfl
@[simp] theorem F.LE_RX_PLAN_STAT_modulation_active_width (i : Nat) : (F.LE_RX_PLAN_STAT_modulation_active i).width = 3 := rfl
@[simp] theorem F.LE_RX_PLAN_STAT_baud_active_key (i : Nat) : (F.LE_RX_PLAN_STAT_baud_active i).key = (0x18048 + 0x40000 * i) * 8 + 0 := rfl
@[simp] theorem F.LE_RX_PLAN_STAT_baud_active_width (i : Nat) : (F.LE_RX_PLAN_STAT_baud_active i).width = 11 := rfl
@[simp] theorem F.LE_RX_FOLLOW_AT_frame_key (i : Nat) : (F.LE_RX_FOLLOW_AT_frame i).key = (0x1804C + 0x40000 * i) * 8 + 0 := rfl
@[simp] theorem F.LE_RX_FOLLOW_AT_frame_width (i : Nat) : (F.LE_RX_FOLLOW_AT_frame i).width = 32 := rfl
@[simp] theorem F.LE_RX_FOLLOW_STAT_entropy_announced_key (i : Nat) : (F.LE_RX_FOLLOW_STAT_entropy_announced i).key = (0x18050 + 0x40000 * i) * 8 + 16 := rfl
@[simp] theorem F.LE_RX_FOLLOW_STAT_entropy_announced_width (i : Nat) : (F.LE_RX_FOLLOW_STAT_entropy_announced i).width = 8 := rfl
@[simp] theorem F.LE_RX_FOLLOW_STAT_follows_lost_key (i : Nat) : (F.LE_RX_FOLLOW_STAT_follows_lost i).key = (0x18050 + 0x40000 * i) * 8 + 8 := rfl
@[simp] theorem F.LE_RX_FOLLOW_STAT_follows_lost_width (i : Nat) : (F.LE_RX_FOLLOW_STAT_follows_lost i).width = 8 := rfl
@[simp] theorem F.LE_RX_FOLLOW_STAT_follows_applied_key (i : Nat) : (F.LE_RX_FOLLOW_STAT_follows_applied i).key = (0x18050 + 0x40000 * i) * 8 + 0 := rfl
@[simp] theorem F.LE_RX_FOLLOW_STAT_follows_applied_width (i : Nat) : (F.LE_RX_FOLLOW_STAT_follows_applied i).width = 8 := rfl
@[simp] theorem F.LE_RX_BAUD_MAX_baud_key (i : Nat) : (F.LE_RX_BAUD_MAX_baud i).key = (0x18054 + 0x40000 * i) * 8 + 0 := rfl
@[simp] theorem F.LE_RX_BAUD_MAX_baud_width (i : Nat) : (F.LE_RX_BAUD_MAX_baud i).width = 11 := rfl
@[simp] theorem F.LE_RX_STATE_acquisitions_key (i : Nat) : (F.LE_RX_STATE_acquisitions i).key = (0x18058 + 0x40000 * i) * 8 + 16 := rfl
@[simp] theorem F.LE_RX_STATE_acquisitions_width (i : Nat) : (F.LE_RX_STATE_acquisitions i).width = 16 := rfl
@[simp] theorem F.LE_RX_STATE_lol_raw_key (i : Nat) : (F.LE_RX_STATE_lol_raw i).key = (0x18058 + 0x40000 * i) * 8 + 9 := rfl
@[simp] theorem F.LE_RX_STATE_lol_raw_width (i : Nat) : (F.LE_RX_STATE_lol_raw i).width = 1 := rfl
@[simp] theorem F.LE_RX_STATE_los_raw_key (i : Nat) : (F.LE_RX_STATE_los_raw i).key = (0x18058 + 0x40000 * i) * 8 + 8 := rfl
@[simp] theorem F.LE_RX_STATE_los_raw_width (i : Nat) : (F.LE_RX_STATE_los_raw i).width = 1 := rfl
@[simp] theorem F.LE_RX_STATE_state_key (i : Nat) : (F.LE_RX_STATE_state i).key = (0x18058 + 0x40000 * i) * 8 + 0 := rfl
@[simp] theorem F.LE_RX_STATE_state_width (i : Nat) : (F.LE_RX_STATE_state i).width = 3 := rfl
@[simp] theorem F.LE_RX_SC_LOCK_lock_key (i : Nat) : (F.LE_RX_SC_LOCK_lock i).key = (0x1805C + 0x40000 * i) * 8 + 0 := rfl
@[simp] theorem F.LE_RX_SC_LOCK_lock_width (i : Nat) : (F.LE_RX_SC_LOCK_lock i).width = 32 := rfl
@[simp] theorem F.LE_RX_SC_LOCK_LOST_lost_key (i : Nat) : (F.LE_RX_SC_LOCK_LOST_lost i).key = (0x18060 + 0x40000 * i) * 8 + 0 := rfl
@[simp] theorem F.LE_RX_SC_LOCK_LOST_lost_width (i : Nat) : (F.LE_RX_SC_LOCK_LOST_lost i).width = 32 := rfl
@[simp] theorem F.LE_RX_LOS_CTRL_los_opt_key (i : Nat) : (F.LE_RX_LOS_CTRL_los_opt i).key = (0x18064 + 0x40000 * i) * 8 + 8 := rfl
@[simp] theorem F.LE_RX_LOS_CTRL_los_opt_width (i : Nat) : (F.LE_RX_LOS_CTRL_los_opt i).width = 1 := rfl
@[simp] theorem F.LE_RX_LOS_CTRL_los_level_key (i : Nat) : (F.LE_RX_LOS_CTRL_los_level i).key = (0x18064 + 0x40000 * i) * 8 + 0 := rfl
@[simp] theorem F.LE_RX_LOS_CTRL_los_level_width (i : Nat) : (F.LE_RX_LOS_CTRL_los_level i).width = 8 := rfl
@[simp] theorem F.LE_RX_ADC_MAP_in_use_key (i j : Nat) : (F.LE_RX_ADC_MAP_in_use i j).key = (0x19040 + 0x40000 * i + 0x8 * j) * 8 + 24 := rfl
@[simp] theorem F.LE_RX_ADC_MAP_in_use_width (i j : Nat) : (F.LE_RX_ADC_MAP_in_use i j).width = 7 := rfl
@[simp] theorem F.LE_RX_ADC_MAP_spares_key (i j : Nat) : (F.LE_RX_ADC_MAP_spares i j).key = (0x19040 + 0x40000 * i + 0x8 * j) * 8 + 16 := rfl
@[simp] theorem F.LE_RX_ADC_MAP_spares_width (i j : Nat) : (F.LE_RX_ADC_MAP_spares i j).width = 3 := rfl
@[simp] theorem F.LE_RX_ADC_MAP_calibrating_key (i j : Nat) : (F.LE_RX_ADC_MAP_calibrating i j).key = (0x19040 + 0x40000 * i + 0x8 * j) * 8 + 0 := rfl
@[simp] theorem F.LE_RX_ADC_MAP_calibrating_width (i j : Nat) : (F.LE_RX_ADC_MAP_calibrating i j).width = 7 := rfl
@[simp] theorem F.LE_RX_ADC_SPARE_spare3_key (i j : Nat) : (F.LE_RX_ADC_SPARE_spare3 i j).key = (0x19044 + 0x40000 * i + 0x8 * j) * 8 + 24 := rfl
@[simp] theorem F.LE_RX_ADC_SPARE_spare3_width (i j : Nat) : (F.LE_RX_ADC_SPARE_spare3 i j).width = 7 := rfl
@[simp] theorem F.LE_RX_ADC_SPARE_spare2_key (i j : Nat) : (F.LE_RX_ADC_SPARE_spare2 i j).key = (0x19044 + 0x40000 * i + 0x8 * j) * 8 + 16 := rfl
@[simp] theorem F.LE_RX_ADC_SPARE_spare2_width (i j : Nat) : (F.LE_RX_ADC_SPARE_spare2 i j).width = 7 := rfl
@[simp] theorem F.LE_RX_ADC_SPARE_spare1_key (i j : Nat) : (F.LE_RX_ADC_SPARE_spare1 i j).key = (0x19044 + 0x40000 * i + 0x8 * j) * 8 + 8 := rfl
@[simp] theorem F.LE_RX_ADC_SPARE_spare1_width (i j : Nat) : (F.LE_RX_ADC_SPARE_spare1 i j).width = 7 := rfl
@[simp] theorem F.LE_RX_ADC_SPARE_spare0_key (i j : Nat) : (F.LE_RX_ADC_SPARE_spare0 i j).key = (0x19044 + 0x40000 * i + 0x8 * j) * 8 + 0 := rfl
@[simp] theorem F.LE_RX_ADC_SPARE_spare0_width (i j : Nat) : (F.LE_RX_ADC_SPARE_spare0 i j).width = 7 := rfl
@[simp] theorem F.LE_RX_ADC_ROT_CNT_count_key (i : Nat) : (F.LE_RX_ADC_ROT_CNT_count i).key = (0x19060 + 0x40000 * i) * 8 + 0 := rfl
@[simp] theorem F.LE_RX_ADC_ROT_CNT_count_width (i : Nat) : (F.LE_RX_ADC_ROT_CNT_count i).width = 32 := rfl
@[simp] theorem F.LE_RX_ADC_REP_CNT_count_key (i : Nat) : (F.LE_RX_ADC_REP_CNT_count i).key = (0x19064 + 0x40000 * i) * 8 + 0 := rfl
@[simp] theorem F.LE_RX_ADC_REP_CNT_count_width (i : Nat) : (F.LE_RX_ADC_REP_CNT_count i).width = 32 := rfl
@[simp] theorem F.LE_RX_ADC_OVR_count_key (i j : Nat) : (F.LE_RX_ADC_OVR_count i j).key = (0x19100 + 0x40000 * i + 0x4 * j) * 8 + 0 := rfl
@[simp] theorem F.LE_RX_ADC_OVR_count_width (i j : Nat) : (F.LE_RX_ADC_OVR_count i j).width = 32 := rfl
@[simp] theorem F.LE_RX_FE_CTRL_rolloff_eq_key (i : Nat) : (F.LE_RX_FE_CTRL_rolloff_eq i).key = (0x19080 + 0x40000 * i) * 8 + 2 := rfl
@[simp] theorem F.LE_RX_FE_CTRL_rolloff_eq_width (i : Nat) : (F.LE_RX_FE_CTRL_rolloff_eq i).width = 1 := rfl
@[simp] theorem F.LE_RX_FE_CTRL_dc_remove_key (i : Nat) : (F.LE_RX_FE_CTRL_dc_remove i).key = (0x19080 + 0x40000 * i) * 8 + 1 := rfl
@[simp] theorem F.LE_RX_FE_CTRL_dc_remove_width (i : Nat) : (F.LE_RX_FE_CTRL_dc_remove i).width = 1 := rfl
@[simp] theorem F.LE_RX_FE_CTRL_auto_iq_key (i : Nat) : (F.LE_RX_FE_CTRL_auto_iq i).key = (0x19080 + 0x40000 * i) * 8 + 0 := rfl
@[simp] theorem F.LE_RX_FE_CTRL_auto_iq_width (i : Nat) : (F.LE_RX_FE_CTRL_auto_iq i).width = 1 := rfl
@[simp] theorem F.LE_RX_LANE_SKEW_skew_key (i j : Nat) : (F.LE_RX_LANE_SKEW_skew i j).key = (0x190A0 + 0x40000 * i + 0x4 * j) * 8 + 0 := rfl
@[simp] theorem F.LE_RX_LANE_SKEW_skew_width (i j : Nat) : (F.LE_RX_LANE_SKEW_skew i j).width = 13 := rfl
@[simp] theorem F.LE_RX_LANE_SKEW_EST_skew_key (i j : Nat) : (F.LE_RX_LANE_SKEW_EST_skew i j).key = (0x190C0 + 0x40000 * i + 0x4 * j) * 8 + 0 := rfl
@[simp] theorem F.LE_RX_LANE_SKEW_EST_skew_width (i j : Nat) : (F.LE_RX_LANE_SKEW_EST_skew i j).width = 13 := rfl
@[simp] theorem F.LE_RX_IQ_EST_X_gain_key (i : Nat) : (F.LE_RX_IQ_EST_X_gain i).key = (0x190E0 + 0x40000 * i) * 8 + 16 := rfl
@[simp] theorem F.LE_RX_IQ_EST_X_gain_width (i : Nat) : (F.LE_RX_IQ_EST_X_gain i).width = 16 := rfl
@[simp] theorem F.LE_RX_IQ_EST_X_phase_key (i : Nat) : (F.LE_RX_IQ_EST_X_phase i).key = (0x190E0 + 0x40000 * i) * 8 + 0 := rfl
@[simp] theorem F.LE_RX_IQ_EST_X_phase_width (i : Nat) : (F.LE_RX_IQ_EST_X_phase i).width = 16 := rfl
@[simp] theorem F.LE_RX_IQ_EST_Y_gain_key (i : Nat) : (F.LE_RX_IQ_EST_Y_gain i).key = (0x190E4 + 0x40000 * i) * 8 + 16 := rfl
@[simp] theorem F.LE_RX_IQ_EST_Y_gain_width (i : Nat) : (F.LE_RX_IQ_EST_Y_gain i).width = 16 := rfl
@[simp] theorem F.LE_RX_IQ_EST_Y_phase_key (i : Nat) : (F.LE_RX_IQ_EST_Y_phase i).key = (0x190E4 + 0x40000 * i) * 8 + 0 := rfl
@[simp] theorem F.LE_RX_IQ_EST_Y_phase_width (i : Nat) : (F.LE_RX_IQ_EST_Y_phase i).width = 16 := rfl
@[simp] theorem F.LE_RX_REFL_CTRL_mu_key (i : Nat) : (F.LE_RX_REFL_CTRL_mu i).key = (0x1A040 + 0x40000 * i) * 8 + 16 := rfl
@[simp] theorem F.LE_RX_REFL_CTRL_mu_width (i : Nat) : (F.LE_RX_REFL_CTRL_mu i).width = 4 := rfl
@[simp] theorem F.LE_RX_REFL_CTRL_threshold_key (i : Nat) : (F.LE_RX_REFL_CTRL_threshold i).key = (0x1A040 + 0x40000 * i) * 8 + 8 := rfl
@[simp] theorem F.LE_RX_REFL_CTRL_threshold_width (i : Nat) : (F.LE_RX_REFL_CTRL_threshold i).width = 8 := rfl
@[simp] theorem F.LE_RX_REFL_CTRL_max_refl_key (i : Nat) : (F.LE_RX_REFL_CTRL_max_refl i).key = (0x1A040 + 0x40000 * i) * 8 + 4 := rfl
@[simp] theorem F.LE_RX_REFL_CTRL_max_refl_width (i : Nat) : (F.LE_RX_REFL_CTRL_max_refl i).width = 3 := rfl
@[simp] theorem F.LE_RX_REFL_CTRL_mode_key (i : Nat) : (F.LE_RX_REFL_CTRL_mode i).key = (0x1A040 + 0x40000 * i) * 8 + 0 := rfl
@[simp] theorem F.LE_RX_REFL_CTRL_mode_width (i : Nat) : (F.LE_RX_REFL_CTRL_mode i).width = 2 := rfl
@[simp] theorem F.LE_RX_REFL_WIN_win_max_key (i : Nat) : (F.LE_RX_REFL_WIN_win_max i).key = (0x1A044 + 0x40000 * i) * 8 + 16 := rfl
@[simp] theorem F.LE_RX_REFL_WIN_win_max_width (i : Nat) : (F.LE_RX_REFL_WIN_win_max i).width = 10 := rfl
@[simp] theorem F.LE_RX_REFL_WIN_win_min_key (i : Nat) : (F.LE_RX_REFL_WIN_win_min i).key = (0x1A044 + 0x40000 * i) * 8 + 0 := rfl
@[simp] theorem F.LE_RX_REFL_WIN_win_min_width (i : Nat) : (F.LE_RX_REFL_WIN_win_min i).width = 10 := rfl
@[simp] theorem F.LE_RX_REFL_PIN_valid_key (i j : Nat) : (F.LE_RX_REFL_PIN_valid i j).key = (0x1A080 + 0x40000 * i + 0x4 * j) * 8 + 31 := rfl
@[simp] theorem F.LE_RX_REFL_PIN_valid_width (i j : Nat) : (F.LE_RX_REFL_PIN_valid i j).width = 1 := rfl
@[simp] theorem F.LE_RX_REFL_PIN_delay_key (i j : Nat) : (F.LE_RX_REFL_PIN_delay i j).key = (0x1A080 + 0x40000 * i + 0x4 * j) * 8 + 0 := rfl
@[simp] theorem F.LE_RX_REFL_PIN_delay_width (i j : Nat) : (F.LE_RX_REFL_PIN_delay i j).width = 22 := rfl
@[simp] theorem F.LE_RX_REFL_SUM_residual_key (i : Nat) : (F.LE_RX_REFL_SUM_residual i).key = (0x1A048 + 0x40000 * i) * 8 + 16 := rfl
@[simp] theorem F.LE_RX_REFL_SUM_residual_width (i : Nat) : (F.LE_RX_REFL_SUM_residual i).width = 16 := rfl
@[simp] theorem F.LE_RX_REFL_SUM_slots_key (i : Nat) : (F.LE_RX_REFL_SUM_slots i).key = (0x1A048 + 0x40000 * i) * 8 + 0 := rfl
@[simp] theorem F.LE_RX_REFL_SUM_slots_width (i : Nat) : (F.LE_RX_REFL_SUM_slots i).width = 4 := rfl
@[simp] theorem F.LE_RX_REFL_OVF_count_key (i : Nat) : (F.LE_RX_REFL_OVF_count i).key = (0x1A04C + 0x40000 * i) * 8 + 0 := rfl
@[simp] theorem F.LE_RX_REFL_OVF_count_width (i : Nat) : (F.LE_RX_REFL_OVF_count i).width = 32 := rfl
@[simp] theorem F.LE_RX_REFL_STAT_state_key (i j : Nat) : (F.LE_RX_REFL_STAT_state i j).key = (0x1A100 + 0x40000 * i + 0x8 * j) * 8 + 30 := rfl
@[simp] theorem F.LE_RX_REFL_STAT_state_width (i j : Nat) : (F.LE_RX_REFL_STAT_state i j).width = 2 := rfl
@[simp] theorem F.LE_RX_REFL_STAT_delay_key (i j : Nat) : (F.LE_RX_REFL_STAT_delay i j).key = (0x1A100 + 0x40000 * i + 0x8 * j) * 8 + 0 := rfl
@[simp] theorem F.LE_RX_REFL_STAT_delay_width (i j : Nat) : (F.LE_RX_REFL_STAT_delay i j).width = 22 := rfl
@[simp] theorem F.LE_RX_REFL_LVL_level_key (i j : Nat) : (F.LE_RX_REFL_LVL_level i j).key = (0x1A104 + 0x40000 * i + 0x8 * j) * 8 + 16 := rfl
@[simp] theorem F.LE_RX_REFL_LVL_level_width (i j : Nat) : (F.LE_RX_REFL_LVL_level i j).width = 16 := rfl
@[simp] theorem F.LE_RX_REFL_LVL_suppression_key (i j : Nat) : (F.LE_RX_REFL_LVL_suppression i j).key = (0x1A104 + 0x40000 * i + 0x8 * j) * 8 + 0 := rfl
@[simp] theorem F.LE_RX_REFL_LVL_suppression_width (i j : Nat) : (F.LE_RX_REFL_LVL_suppression i j).width = 16 := rfl
@[simp] theorem F.LE_RX_CD_RANGE_dmax_key (i : Nat) : (F.LE_RX_CD_RANGE_dmax i).key = (0x1B054 + 0x40000 * i) * 8 + 0 := rfl
@[simp] theorem F.LE_RX_CD_RANGE_dmax_width (i : Nat) : (F.LE_RX_CD_RANGE_dmax i).width = 21 := rfl
@[simp] theorem F.LE_RX_CD_CTRL_track_key (i : Nat) : (F.LE_RX_CD_CTRL_track i).key = (0x1B040 + 0x40000 * i) * 8 + 8 := rfl
@[simp] theorem F.LE_RX_CD_CTRL_track_width (i : Nat) : (F.LE_RX_CD_CTRL_track i).width = 1 := rfl
@[simp] theorem F.LE_RX_CD_CTRL_cd_mode_key (i : Nat) : (F.LE_RX_CD_CTRL_cd_mode i).key = (0x1B040 + 0x40000 * i) * 8 + 0 := rfl
@[simp] theorem F.LE_RX_CD_CTRL_cd_mode_width (i : Nat) : (F.LE_RX_CD_CTRL_cd_mode i).width = 1 := rfl
@[simp] theorem F.LE_RX_CD_SET_cd_set_key (i : Nat) : (F.LE_RX_CD_SET_cd_set i).key = (0x1B044 + 0x40000 * i) * 8 + 0 := rfl
@[simp] theorem F.LE_RX_CD_SET_cd_set_width (i : Nat) : (F.LE_RX_CD_SET_cd_set i).width = 21 := rfl
@[simp] theorem F.LE_RX_CD_MIN_cd_min_key (i : Nat) : (F.LE_RX_CD_MIN_cd_min i).key = (0x1B048 + 0x40000 * i) * 8 + 0 := rfl
@[simp] theorem F.LE_RX_CD_MIN_cd_min_width (i : Nat) : (F.LE_RX_CD_MIN_cd_min i).width = 21 := rfl
@[simp] theorem F.LE_RX_CD_MAX_cd_max_key (i : Nat) : (F.LE_RX_CD_MAX_cd_max i).key = (0x1B04C + 0x40000 * i) * 8 + 0 := rfl
@[simp] theorem F.LE_RX_CD_MAX_cd_max_width (i : Nat) : (F.LE_RX_CD_MAX_cd_max i).width = 21 := rfl
@[simp] theorem F.LE_RX_CD_EST_cd_key (i : Nat) : (F.LE_RX_CD_EST_cd i).key = (0x1B050 + 0x40000 * i) * 8 + 0 := rfl
@[simp] theorem F.LE_RX_CD_EST_cd_width (i : Nat) : (F.LE_RX_CD_EST_cd i).width = 21 := rfl
@[simp] theorem F.LE_RX_EQ_CTRL_singular_thr_key (i : Nat) : (F.LE_RX_EQ_CTRL_singular_thr i).key = (0x1B060 + 0x40000 * i) * 8 + 8 := rfl
@[simp] theorem F.LE_RX_EQ_CTRL_singular_thr_width (i : Nat) : (F.LE_RX_EQ_CTRL_singular_thr i).width = 8 := rfl
@[simp] theorem F.LE_RX_EQ_CTRL_mu_cma_key (i : Nat) : (F.LE_RX_EQ_CTRL_mu_cma i).key = (0x1B060 + 0x40000 * i) * 8 + 4 := rfl
@[simp] theorem F.LE_RX_EQ_CTRL_mu_cma_width (i : Nat) : (F.LE_RX_EQ_CTRL_mu_cma i).width = 4 := rfl
@[simp] theorem F.LE_RX_EQ_CTRL_mu_dd_key (i : Nat) : (F.LE_RX_EQ_CTRL_mu_dd i).key = (0x1B060 + 0x40000 * i) * 8 + 0 := rfl
@[simp] theorem F.LE_RX_EQ_CTRL_mu_dd_width (i : Nat) : (F.LE_RX_EQ_CTRL_mu_dd i).width = 4 := rfl
@[simp] theorem F.LE_RX_CR_CTRL_freq_bw_key (i : Nat) : (F.LE_RX_CR_CTRL_freq_bw i).key = (0x1B080 + 0x40000 * i) * 8 + 8 := rfl
@[simp] theorem F.LE_RX_CR_CTRL_freq_bw_width (i : Nat) : (F.LE_RX_CR_CTRL_freq_bw i).width = 4 := rfl
@[simp] theorem F.LE_RX_CR_CTRL_bps_en_key (i : Nat) : (F.LE_RX_CR_CTRL_bps_en i).key = (0x1B080 + 0x40000 * i) * 8 + 4 := rfl
@[simp] theorem F.LE_RX_CR_CTRL_bps_en_width (i : Nat) : (F.LE_RX_CR_CTRL_bps_en i).width = 1 := rfl
@[simp] theorem F.LE_RX_CR_CTRL_w_key (i : Nat) : (F.LE_RX_CR_CTRL_w i).key = (0x1B080 + 0x40000 * i) * 8 + 0 := rfl
@[simp] theorem F.LE_RX_CR_CTRL_w_width (i : Nat) : (F.LE_RX_CR_CTRL_w i).width = 4 := rfl
@[simp] theorem F.LE_RX_CR_COMMON_offset_key (i : Nat) : (F.LE_RX_CR_COMMON_offset i).key = (0x1B084 + 0x40000 * i) * 8 + 0 := rfl
@[simp] theorem F.LE_RX_CR_COMMON_offset_width (i : Nat) : (F.LE_RX_CR_COMMON_offset i).width = 32 := rfl
@[simp] theorem F.LE_RX_NLC_CTRL_memory_key (i : Nat) : (F.LE_RX_NLC_CTRL_memory i).key = (0x1B0A0 + 0x40000 * i) * 8 + 24 := rfl
@[simp] theorem F.LE_RX_NLC_CTRL_memory_width (i : Nat) : (F.LE_RX_NLC_CTRL_memory i).width = 6 := rfl
@[simp] theorem F.LE_RX_NLC_CTRL_scale_key (i : Nat) : (F.LE_RX_NLC_CTRL_scale i).key = (0x1B0A0 + 0x40000 * i) * 8 + 16 := rfl
@[simp] theorem F.LE_RX_NLC_CTRL_scale_width (i : Nat) : (F.LE_RX_NLC_CTRL_scale i).width = 8 := rfl
@[simp] theorem F.LE_RX_NLC_CTRL_spans_key (i : Nat) : (F.LE_RX_NLC_CTRL_spans i).key = (0x1B0A0 + 0x40000 * i) * 8 + 8 := rfl
@[simp] theorem F.LE_RX_NLC_CTRL_spans_width (i : Nat) : (F.LE_RX_NLC_CTRL_spans i).width = 8 := rfl
@[simp] theorem F.LE_RX_NLC_CTRL_en_key (i : Nat) : (F.LE_RX_NLC_CTRL_en i).key = (0x1B0A0 + 0x40000 * i) * 8 + 0 := rfl
@[simp] theorem F.LE_RX_NLC_CTRL_en_width (i : Nat) : (F.LE_RX_NLC_CTRL_en i).width = 1 := rfl
@[simp] theorem F.LE_RX_DEMAP_CTRL_auto_key (i : Nat) : (F.LE_RX_DEMAP_CTRL_auto i).key = (0x1B0C0 + 0x40000 * i) * 8 + 8 := rfl
@[simp] theorem F.LE_RX_DEMAP_CTRL_auto_width (i : Nat) : (F.LE_RX_DEMAP_CTRL_auto i).width = 1 := rfl
@[simp] theorem F.LE_RX_DEMAP_CTRL_llr_scale_key (i : Nat) : (F.LE_RX_DEMAP_CTRL_llr_scale i).key = (0x1B0C0 + 0x40000 * i) * 8 + 0 := rfl
@[simp] theorem F.LE_RX_DEMAP_CTRL_llr_scale_width (i : Nat) : (F.LE_RX_DEMAP_CTRL_llr_scale i).width = 8 := rfl
@[simp] theorem F.LE_RX_QUAL_CTRL_hold_key (i : Nat) : (F.LE_RX_QUAL_CTRL_hold i).key = (0x1C040 + 0x40000 * i) * 8 + 31 := rfl
@[simp] theorem F.LE_RX_QUAL_CTRL_hold_width (i : Nat) : (F.LE_RX_QUAL_CTRL_hold i).width = 1 := rfl
@[simp] theorem F.LE_RX_QUAL_CTRL_ref_mode_key (i : Nat) : (F.LE_RX_QUAL_CTRL_ref_mode i).key = (0x1C040 + 0x40000 * i) * 8 + 30 := rfl
@[simp] theorem F.LE_RX_QUAL_CTRL_ref_mode_width (i : Nat) : (F.LE_RX_QUAL_CTRL_ref_mode i).width = 1 := rfl
@[simp] theorem F.LE_RX_QUAL_CTRL_lq_alarm_key (i : Nat) : (F.LE_RX_QUAL_CTRL_lq_alarm i).key = (0x1C040 + 0x40000 * i) * 8 + 16 := rfl
@[simp] theorem F.LE_RX_QUAL_CTRL_lq_alarm_width (i : Nat) : (F.LE_RX_QUAL_CTRL_lq_alarm i).width = 8 := rfl
@[simp] theorem F.LE_RX_QUAL_CTRL_q_ref_key (i : Nat) : (F.LE_RX_QUAL_CTRL_q_ref i).key = (0x1C040 + 0x40000 * i) * 8 + 0 := rfl
@[simp] theorem F.LE_RX_QUAL_CTRL_q_ref_width (i : Nat) : (F.LE_RX_QUAL_CTRL_q_ref i).width = 16 := rfl
@[simp] theorem F.LE_RX_QUAL_SEQ_seq_key (i : Nat) : (F.LE_RX_QUAL_SEQ_seq i).key = (0x1C044 + 0x40000 * i) * 8 + 0 := rfl
@[simp] theorem F.LE_RX_QUAL_SEQ_seq_width (i : Nat) : (F.LE_RX_QUAL_SEQ_seq i).width = 32 := rfl
@[simp] theorem F.LE_RX_QUAL_T0_LO_t_key (i : Nat) : (F.LE_RX_QUAL_T0_LO_t i).key = (0x1C048 + 0x40000 * i) * 8 + 0 := rfl
@[simp] theorem F.LE_RX_QUAL_T0_LO_t_width (i : Nat) : (F.LE_RX_QUAL_T0_LO_t i).width = 32 := rfl
@[simp] theorem F.LE_RX_QUAL_T0_HI_t_key (i : Nat) : (F.LE_RX_QUAL_T0_HI_t i).key = (0x1C04C + 0x40000 * i) * 8 + 0 := rfl
@[simp] theorem F.LE_RX_QUAL_T0_HI_t_width (i : Nat) : (F.LE_RX_QUAL_T0_HI_t i).width = 32 := rfl
@[simp] theorem F.LE_RX_LQ_MIN_index_key (i : Nat) : (F.LE_RX_LQ_MIN_index i).key = (0x1C050 + 0x40000 * i) * 8 + 8 := rfl
@[simp] theorem F.LE_RX_LQ_MIN_index_width (i : Nat) : (F.LE_RX_LQ_MIN_index i).width = 5 := rfl
@[simp] theorem F.LE_RX_LQ_MIN_lq_key (i : Nat) : (F.LE_RX_LQ_MIN_lq i).key = (0x1C050 + 0x40000 * i) * 8 + 0 := rfl
@[simp] theorem F.LE_RX_LQ_MIN_lq_width (i : Nat) : (F.LE_RX_LQ_MIN_lq i).width = 8 := rfl
@[simp] theorem F.LE_RX_QUAL_A_evm_key (i j : Nat) : (F.LE_RX_QUAL_A_evm i j).key = (0x1D100 + 0x40000 * i + 0x40 * j) * 8 + 16 := rfl
@[simp] theorem F.LE_RX_QUAL_A_evm_width (i j : Nat) : (F.LE_RX_QUAL_A_evm i j).width = 16 := rfl
@[simp] theorem F.LE_RX_QUAL_A_gsnr_key (i j : Nat) : (F.LE_RX_QUAL_A_gsnr i j).key = (0x1D100 + 0x40000 * i + 0x40 * j) * 8 + 0 := rfl
@[simp] theorem F.LE_RX_QUAL_A_gsnr_width (i j : Nat) : (F.LE_RX_QUAL_A_gsnr i j).width = 16 := rfl
@[simp] theorem F.LE_RX_QUAL_B_q_key (i j : Nat) : (F.LE_RX_QUAL_B_q i j).key = (0x1D104 + 0x40000 * i + 0x40 * j) * 8 + 16 := rfl
@[simp] theorem F.LE_RX_QUAL_B_q_width (i j : Nat) : (F.LE_RX_QUAL_B_q i j).width = 16 := rfl
@[simp] theorem F.LE_RX_QUAL_B_lq_key (i j : Nat) : (F.LE_RX_QUAL_B_lq i j).key = (0x1D104 + 0x40000 * i + 0x40 * j) * 8 + 8 := rfl
@[simp] theorem F.LE_RX_QUAL_B_lq_width (i j : Nat) : (F.LE_RX_QUAL_B_lq i j).width = 8 := rfl
@[simp] theorem F.LE_RX_QUAL_B_valid_key (i j : Nat) : (F.LE_RX_QUAL_B_valid i j).key = (0x1D104 + 0x40000 * i + 0x40 * j) * 8 + 7 := rfl
@[simp] theorem F.LE_RX_QUAL_B_valid_width (i j : Nat) : (F.LE_RX_QUAL_B_valid i j).width = 1 := rfl
@[simp] theorem F.LE_RX_QUAL_B_whole_key (i j : Nat) : (F.LE_RX_QUAL_B_whole i j).key = (0x1D104 + 0x40000 * i + 0x40 * j) * 8 + 6 := rfl
@[simp] theorem F.LE_RX_QUAL_B_whole_width (i j : Nat) : (F.LE_RX_QUAL_B_whole i j).width = 1 := rfl
@[simp] theorem F.LE_RX_QUAL_B_q_bound_key (i j : Nat) : (F.LE_RX_QUAL_B_q_bound i j).key = (0x1D104 + 0x40000 * i + 0x40 * j) * 8 + 5 := rfl
@[simp] theorem F.LE_RX_QUAL_B_q_bound_width (i j : Nat) : (F.LE_RX_QUAL_B_q_bound i j).width = 1 := rfl
@[simp] theorem F.LE_RX_QUAL_BER_ERR_err_key (i j : Nat) : (F.LE_RX_QUAL_BER_ERR_err i j).key = (0x1D108 + 0x40000 * i + 0x40 * j) * 8 + 0 := rfl
@[simp] theorem F.LE_RX_QUAL_BER_ERR_err_width (i j : Nat) : (F.LE_RX_QUAL_BER_ERR_err i j).width = 32 := rfl
@[simp] theorem F.LE_RX_QUAL_BER_BITS_bits_key (i j : Nat) : (F.LE_RX_QUAL_BER_BITS_bits i j).key = (0x1D10C + 0x40000 * i + 0x40 * j) * 8 + 0 := rfl
@[simp] theorem F.LE_RX_QUAL_BER_BITS_bits_width (i j : Nat) : (F.LE_RX_QUAL_BER_BITS_bits i j).width = 32 := rfl
@[simp] theorem F.LE_RX_QUAL_CD_cd_key (i j : Nat) : (F.LE_RX_QUAL_CD_cd i j).key = (0x1D110 + 0x40000 * i + 0x40 * j) * 8 + 0 := rfl
@[simp] theorem F.LE_RX_QUAL_CD_cd_width (i j : Nat) : (F.LE_RX_QUAL_CD_cd i j).width = 21 := rfl
@[simp] theorem F.LE_RX_QUAL_PMD_dgd_key (i j : Nat) : (F.LE_RX_QUAL_PMD_dgd i j).key = (0x1D114 + 0x40000 * i + 0x40 * j) * 8 + 16 := rfl
@[simp] theorem F.LE_RX_QUAL_PMD_dgd_width (i j : Nat) : (F.LE_RX_QUAL_PMD_dgd i j).width = 16 := rfl
@[simp] theorem F.LE_RX_QUAL_PMD_sop_rate_key (i j : Nat) : (F.LE_RX_QUAL_PMD_sop_rate i j).key = (0x1D114 + 0x40000 * i + 0x40 * j) * 8 + 0 := rfl
@[simp] theorem F.LE_RX_QUAL_PMD_sop_rate_width (i j : Nat) : (F.LE_RX_QUAL_PMD_sop_rate i j).width = 16 := rfl
@[simp] theorem F.LE_RX_QUAL_FREQ_freq_key (i j : Nat) : (F.LE_RX_QUAL_FREQ_freq i j).key = (0x1D118 + 0x40000 * i + 0x40 * j) * 8 + 0 := rfl
@[simp] theorem F.LE_RX_QUAL_FREQ_freq_width (i j : Nat) : (F.LE_RX_QUAL_FREQ_freq i j).width = 32 := rfl
@[simp] theorem F.LE_RX_QUAL_EVT_failed_blocks_key (i j : Nat) : (F.LE_RX_QUAL_EVT_failed_blocks i j).key = (0x1D11C + 0x40000 * i + 0x40 * j) * 8 + 16 := rfl
@[simp] theorem F.LE_RX_QUAL_EVT_failed_blocks_width (i j : Nat) : (F.LE_RX_QUAL_EVT_failed_blocks i j).width = 16 := rfl
@[simp] theorem F.LE_RX_QUAL_EVT_slips_key (i j : Nat) : (F.LE_RX_QUAL_EVT_slips i j).key = (0x1D11C + 0x40000 * i + 0x40 * j) * 8 + 0 := rfl
@[simp] theorem F.LE_RX_QUAL_EVT_slips_width (i j : Nat) : (F.LE_RX_QUAL_EVT_slips i j).width = 16 := rfl
@[simp] theorem F.LE_P2MP_HUB_CTRL_map_lead_key (i : Nat) : (F.LE_P2MP_HUB_CTRL_map_lead i).key = (0x20040 + 0x40000 * i) * 8 + 24 := rfl
@[simp] theorem F.LE_P2MP_HUB_CTRL_map_lead_width (i : Nat) : (F.LE_P2MP_HUB_CTRL_map_lead i).width = 4 := rfl
@[simp] theorem F.LE_P2MP_HUB_CTRL_guard_key (i : Nat) : (F.LE_P2MP_HUB_CTRL_guard i).key = (0x20040 + 0x40000 * i) * 8 + 20 := rfl
@[simp] theorem F.LE_P2MP_HUB_CTRL_guard_width (i : Nat) : (F.LE_P2MP_HUB_CTRL_guard i).width = 4 := rfl
@[simp] theorem F.LE_P2MP_HUB_CTRL_ctrl_auth_key (i : Nat) : (F.LE_P2MP_HUB_CTRL_ctrl_auth i).key = (0x20040 + 0x40000 * i) * 8 + 10 := rfl
@[simp] theorem F.LE_P2MP_HUB_CTRL_ctrl_auth_width (i : Nat) : (F.LE_P2MP_HUB_CTRL_ctrl_auth i).width = 1 := rfl
@[simp] theorem F.LE_P2MP_HUB_CTRL_auto_range_key (i : Nat) : (F.LE_P2MP_HUB_CTRL_auto_range i).key = (0x20040 + 0x40000 * i) * 8 + 9 := rfl
@[simp] theorem F.LE_P2MP_HUB_CTRL_auto_range_width (i : Nat) : (F.LE_P2MP_HUB_CTRL_auto_range i).width = 1 := rfl
@[simp] theorem F.LE_P2MP_HUB_CTRL_auto_level_key (i : Nat) : (F.LE_P2MP_HUB_CTRL_auto_level i).key = (0x20040 + 0x40000 * i) * 8 + 8 := rfl
@[simp] theorem F.LE_P2MP_HUB_CTRL_auto_level_width (i : Nat) : (F.LE_P2MP_HUB_CTRL_auto_level i).width = 1 := rfl
@[simp] theorem F.LE_P2MP_LOOKOUT_det_thr_key (i : Nat) : (F.LE_P2MP_LOOKOUT_det_thr i).key = (0x20044 + 0x40000 * i) * 8 + 16 := rfl
@[simp] theorem F.LE_P2MP_LOOKOUT_det_thr_width (i : Nat) : (F.LE_P2MP_LOOKOUT_det_thr i).width = 8 := rfl
@[simp] theorem F.LE_P2MP_LOOKOUT_capture_margin_key (i : Nat) : (F.LE_P2MP_LOOKOUT_capture_margin i).key = (0x20044 + 0x40000 * i) * 8 + 8 := rfl
@[simp] theorem F.LE_P2MP_LOOKOUT_capture_margin_width (i : Nat) : (F.LE_P2MP_LOOKOUT_capture_margin i).width = 4 := rfl
@[simp] theorem F.LE_P2MP_ROGUE_action_key (i : Nat) : (F.LE_P2MP_ROGUE_action i).key = (0x20048 + 0x40000 * i) * 8 + 28 := rfl
@[simp] theorem F.LE_P2MP_ROGUE_action_width (i : Nat) : (F.LE_P2MP_ROGUE_action i).width = 2 := rfl
@[simp] theorem F.LE_P2MP_ROGUE_threshold_key (i : Nat) : (F.LE_P2MP_ROGUE_threshold i).key = (0x20048 + 0x40000 * i) * 8 + 16 := rfl
@[simp] theorem F.LE_P2MP_ROGUE_threshold_width (i : Nat) : (F.LE_P2MP_ROGUE_threshold i).width = 8 := rfl
@[simp] theorem F.LE_P2MP_ROGUE_decay_key (i : Nat) : (F.LE_P2MP_ROGUE_decay i).key = (0x20048 + 0x40000 * i) * 8 + 0 := rfl
@[simp] theorem F.LE_P2MP_ROGUE_decay_width (i : Nat) : (F.LE_P2MP_ROGUE_decay i).width = 16 := rfl
@[simp] theorem F.LE_P2MP_LEVEL_target_key (i : Nat) : (F.LE_P2MP_LEVEL_target i).key = (0x20054 + 0x40000 * i) * 8 + 8 := rfl
@[simp] theorem F.LE_P2MP_LEVEL_target_width (i : Nat) : (F.LE_P2MP_LEVEL_target i).width = 8 := rfl
@[simp] theorem F.LE_P2MP_LEVEL_idle_thr_key (i : Nat) : (F.LE_P2MP_LEVEL_idle_thr i).key = (0x20054 + 0x40000 * i) * 8 + 0 := rfl
@[simp] theorem F.LE_P2MP_LEVEL_idle_thr_width (i : Nat) : (F.LE_P2MP_LEVEL_idle_thr i).width = 8 := rfl
@[simp] theorem F.LE_P2MP_UP_MODE_LO_modes_key (i : Nat) : (F.LE_P2MP_UP_MODE_LO_modes i).key = (0x2004C + 0x40000 * i) * 8 + 0 := rfl
@[simp] theorem F.LE_P2MP_UP_MODE_LO_modes_width (i : Nat) : (F.LE_P2MP_UP_MODE_LO_modes i).width = 32 := rfl
@[simp] theorem F.LE_P2MP_UP_MODE_HI_modes_key (i : Nat) : (F.LE_P2MP_UP_MODE_HI_modes i).key = (0x20050 + 0x40000 * i) * 8 + 0 := rfl
@[simp] theorem F.LE_P2MP_UP_MODE_HI_modes_width (i : Nat) : (F.LE_P2MP_UP_MODE_HI_modes i).width = 32 := rfl
@[simp] theorem F.LE_P2MP_DISC_CD_cd_key (i : Nat) : (F.LE_P2MP_DISC_CD_cd i).key = (0x20058 + 0x40000 * i) * 8 + 0 := rfl
@[simp] theorem F.LE_P2MP_DISC_CD_cd_width (i : Nat) : (F.LE_P2MP_DISC_CD_cd i).width = 21 := rfl
@[simp] theorem F.LE_P2MP_GRANT_COUNT_count_key (i : Nat) : (F.LE_P2MP_GRANT_COUNT_count i).key = (0x2005C + 0x40000 * i) * 8 + 0 := rfl
@[simp] theorem F.LE_P2MP_GRANT_COUNT_count_width (i : Nat) : (F.LE_P2MP_GRANT_COUNT_count i).width = 11 := rfl
@[simp] theorem F.LE_P2MP_APPLY_PN_period_key (i : Nat) : (F.LE_P2MP_APPLY_PN_period i).key = (0x20064 + 0x40000 * i) * 8 + 0 := rfl
@[simp] theorem F.LE_P2MP_APPLY_PN_period_width (i : Nat) : (F.LE_P2MP_APPLY_PN_period i).width = 32 := rfl
@[simp] theorem F.LE_P2MP_IDLE_BAND_sc_key (i : Nat) : (F.LE_P2MP_IDLE_BAND_sc i).key = (0x2006C + 0x40000 * i) * 8 + 4 := rfl
@[simp] theorem F.LE_P2MP_IDLE_BAND_sc_width (i : Nat) : (F.LE_P2MP_IDLE_BAND_sc i).width = 5 := rfl
@[simp] theorem F.LE_P2MP_IDLE_BAND_width_key (i : Nat) : (F.LE_P2MP_IDLE_BAND_width i).key = (0x2006C + 0x40000 * i) * 8 + 2 := rfl
@[simp] theorem F.LE_P2MP_IDLE_BAND_width_width (i : Nat) : (F.LE_P2MP_IDLE_BAND_width i).width = 2 := rfl
@[simp] theorem F.LE_P2MP_IDLE_BAND_band_key (i : Nat) : (F.LE_P2MP_IDLE_BAND_band i).key = (0x2006C + 0x40000 * i) * 8 + 0 := rfl
@[simp] theorem F.LE_P2MP_IDLE_BAND_band_width (i : Nat) : (F.LE_P2MP_IDLE_BAND_band i).width = 2 := rfl
@[simp] theorem F.LE_P2MP_CNT_count_key (i j : Nat) : (F.LE_P2MP_CNT_count i j).key = (0x20080 + 0x40000 * i + 0x4 * j) * 8 + 0 := rfl
@[simp] theorem F.LE_P2MP_CNT_count_width (i j : Nat) : (F.LE_P2MP_CNT_count i j).width = 32 := rfl
@[simp] theorem F.LE_P2MP_BREC_CTRL_mode_key (i : Nat) : (F.LE_P2MP_BREC_CTRL_mode i).key = (0x21040 + 0x40000 * i) * 8 + 8 := rfl
@[simp] theorem F.LE_P2MP_BREC_CTRL_mode_width (i : Nat) : (F.LE_P2MP_BREC_CTRL_mode i).width = 1 := rfl
@[simp] theorem F.LE_P2MP_BREC_COUNT_count_key (i : Nat) : (F.LE_P2MP_BREC_COUNT_count i).key = (0x21044 + 0x40000 * i) * 8 + 0 := rfl
@[simp] theorem F.LE_P2MP_BREC_COUNT_count_width (i : Nat) : (F.LE_P2MP_BREC_COUNT_count i).width = 13 := rfl
@[simp] theorem F.LE_P2MP_BREC_0_leaf_id_key (i : Nat) : (F.LE_P2MP_BREC_0_leaf_id i).key = (0x21050 + 0x40000 * i) * 8 + 22 := rfl
@[simp] theorem F.LE_P2MP_BREC_0_leaf_id_width (i : Nat) : (F.LE_P2MP_BREC_0_leaf_id i).width = 10 := rfl
@[simp] theorem F.LE_P2MP_BREC_0_sc_key (i : Nat) : (F.LE_P2MP_BREC_0_sc i).key = (0x21050 + 0x40000 * i) * 8 + 17 := rfl
@[simp] theorem F.LE_P2MP_BREC_0_sc_width (i : Nat) : (F.LE_P2MP_BREC_0_sc i).width = 5 := rfl
@[simp] theorem F.LE_P2MP_BREC_0_width_key (i : Nat) : (F.LE_P2MP_BREC_0_width i).key = (0x21050 + 0x40000 * i) * 8 + 15 := rfl
@[simp] theorem F.LE_P2MP_BREC_0_width_width (i : Nat) : (F.LE_P2MP_BREC_0_width i).width = 2 := rfl
@[simp] theorem F.LE_P2MP_BREC_0_band_key (i : Nat) : (F.LE_P2MP_BREC_0_band i).key = (0x21050 + 0x40000 * i) * 8 + 13 := rfl
@[simp] theorem F.LE_P2MP_BREC_0_band_width (i : Nat) : (F.LE_P2MP_BREC_0_band i).width = 2 := rfl
@[simp] theorem F.LE_P2MP_BREC_0_type_key (i : Nat) : (F.LE_P2MP_BREC_0_type i).key = (0x21050 + 0x40000 * i) * 8 + 10 := rfl
@[simp] theorem F.LE_P2MP_BREC_0_type_width (i : Nat) : (F.LE_P2MP_BREC_0_type i).width = 3 := rfl
@[simp] theorem F.LE_P2MP_BREC_0_hdr_valid_key (i : Nat) : (F.LE_P2MP_BREC_0_hdr_valid i).key = (0x21050 + 0x40000 * i) * 8 + 4 := rfl
@[simp] theorem F.LE_P2MP_BREC_0_hdr_valid_width (i : Nat) : (F.LE_P2MP_BREC_0_hdr_valid i).width = 1 := rfl
@[simp] theorem F.LE_P2MP_BREC_0_all_decoded_key (i : Nat) : (F.LE_P2MP_BREC_0_all_decoded i).key = (0x21050 + 0x40000 * i) * 8 + 3 := rfl
@[simp] theorem F.LE_P2MP_BREC_0_all_decoded_width (i : Nat) : (F.LE_P2MP_BREC_0_all_decoded i).width = 1 := rfl
@[simp] theorem F.LE_P2MP_BREC_0_captured_key (i : Nat) : (F.LE_P2MP_BREC_0_captured i).key = (0x21050 + 0x40000 * i) * 8 + 2 := rfl
@[simp] theorem F.LE_P2MP_BREC_0_captured_width (i : Nat) : (F.LE_P2MP_BREC_0_captured i).width = 1 := rfl
@[simp] theorem F.LE_P2MP_BREC_0_ungranted_key (i : Nat) : (F.LE_P2MP_BREC_0_ungranted i).key = (0x21050 + 0x40000 * i) * 8 + 1 := rfl
@[simp] theorem F.LE_P2MP_BREC_0_ungranted_width (i : Nat) : (F.LE_P2MP_BREC_0_ungranted i).width = 1 := rfl
@[simp] theorem F.LE_P2MP_BREC_0_misaligned_key (i : Nat) : (F.LE_P2MP_BREC_0_misaligned i).key = (0x21050 + 0x40000 * i) * 8 + 0 := rfl
@[simp] theorem F.LE_P2MP_BREC_0_misaligned_width (i : Nat) : (F.LE_P2MP_BREC_0_misaligned i).width = 1 := rfl
@[simp] theorem F.LE_P2MP_BREC_1_arrival_key (i : Nat) : (F.LE_P2MP_BREC_1_arrival i).key = (0x21054 + 0x40000 * i) * 8 + 0 := rfl
@[simp] theorem F.LE_P2MP_BREC_1_arrival_width (i : Nat) : (F.LE_P2MP_BREC_1_arrival i).width = 32 := rfl
@[simp] theorem F.LE_P2MP_BREC_2_evm_key (i : Nat) : (F.LE_P2MP_BREC_2_evm i).key = (0x21058 + 0x40000 * i) * 8 + 16 := rfl
@[simp] theorem F.LE_P2MP_BREC_2_evm_width (i : Nat) : (F.LE_P2MP_BREC_2_evm i).width = 16 := rfl
@[simp] theorem F.LE_P2MP_BREC_2_power_key (i : Nat) : (F.LE_P2MP_BREC_2_power i).key = (0x21058 + 0x40000 * i) * 8 + 0 := rfl
@[simp] theorem F.LE_P2MP_BREC_2_power_width (i : Nat) : (F.LE_P2MP_BREC_2_power i).width = 16 := rfl
@[simp] theorem F.LE_P2MP_BREC_3_bits_key (i : Nat) : (F.LE_P2MP_BREC_3_bits i).key = (0x2105C + 0x40000 * i) * 8 + 0 := rfl
@[simp] theorem F.LE_P2MP_BREC_3_bits_width (i : Nat) : (F.LE_P2MP_BREC_3_bits i).width = 32 := rfl
@[simp] theorem F.LE_P2MP_LMSG_0_type_key (i : Nat) : (F.LE_P2MP_LMSG_0_type i).key = (0x21080 + 0x40000 * i) * 8 + 24 := rfl
@[simp] theorem F.LE_P2MP_LMSG_0_type_width (i : Nat) : (F.LE_P2MP_LMSG_0_type i).width = 8 := rfl
@[simp] theorem F.LE_P2MP_LMSG_0_leaf_id_key (i : Nat) : (F.LE_P2MP_LMSG_0_leaf_id i).key = (0x21080 + 0x40000 * i) * 8 + 0 := rfl
@[simp] theorem F.LE_P2MP_LMSG_0_leaf_id_width (i : Nat) : (F.LE_P2MP_LMSG_0_leaf_id i).width = 10 := rfl
@[simp] theorem F.LE_P2MP_LMSG_1_tag_key (i : Nat) : (F.LE_P2MP_LMSG_1_tag i).key = (0x21084 + 0x40000 * i) * 8 + 0 := rfl
@[simp] theorem F.LE_P2MP_LMSG_1_tag_width (i : Nat) : (F.LE_P2MP_LMSG_1_tag i).width = 24 := rfl
@[simp] theorem F.LE_P2MP_LMSG_2_arg_key (i : Nat) : (F.LE_P2MP_LMSG_2_arg i).key = (0x21088 + 0x40000 * i) * 8 + 0 := rfl
@[simp] theorem F.LE_P2MP_LMSG_2_arg_width (i : Nat) : (F.LE_P2MP_LMSG_2_arg i).width = 32 := rfl
@[simp] theorem F.LE_P2MP_LMSG_STAT_overrun_key (i : Nat) : (F.LE_P2MP_LMSG_STAT_overrun i).key = (0x21094 + 0x40000 * i) * 8 + 16 := rfl
@[simp] theorem F.LE_P2MP_LMSG_STAT_overrun_width (i : Nat) : (F.LE_P2MP_LMSG_STAT_overrun i).width = 1 := rfl
@[simp] theorem F.LE_P2MP_LMSG_STAT_queued_key (i : Nat) : (F.LE_P2MP_LMSG_STAT_queued i).key = (0x21094 + 0x40000 * i) * 8 + 0 := rfl
@[simp] theorem F.LE_P2MP_LMSG_STAT_queued_width (i : Nat) : (F.LE_P2MP_LMSG_STAT_queued i).width = 6 := rfl
@[simp] theorem F.LE_P2MP_LEAF_CFG_valid_key (i j k : Nat) : (F.LE_P2MP_LEAF_CFG_valid i j k).key = (0x24800 + 0x40000 * i + 0x1000 * j + 0x8 * k) * 8 + 31 := rfl
@[simp] theorem F.LE_P2MP_LEAF_CFG_valid_width (i j k : Nat) : (F.LE_P2MP_LEAF_CFG_valid i j k).width = 1 := rfl
@[simp] theorem F.LE_P2MP_LEAF_CFG_home_key (i j k : Nat) : (F.LE_P2MP_LEAF_CFG_home i j k).key = (0x24800 + 0x40000 * i + 0x1000 * j + 0x8 * k) * 8 + 24 := rfl
@[simp] theorem F.LE_P2MP_LEAF_CFG_home_width (i j k : Nat) : (F.LE_P2MP_LEAF_CFG_home i j k).width = 5 := rfl
@[simp] theorem F.LE_P2MP_LEAF_CFG_tag_key (i j k : Nat) : (F.LE_P2MP_LEAF_CFG_tag i j k).key = (0x24800 + 0x40000 * i + 0x1000 * j + 0x8 * k) * 8 + 0 := rfl
@[simp] theorem F.LE_P2MP_LEAF_CFG_tag_width (i j k : Nat) : (F.LE_P2MP_LEAF_CFG_tag i j k).width = 24 := rfl
@[simp] theorem F.LE_P2MP_LEAF_ROC_ro_key (i j k : Nat) : (F.LE_P2MP_LEAF_ROC_ro i j k).key = (0x24804 + 0x40000 * i + 0x1000 * j + 0x8 * k) * 8 + 0 := rfl
@[simp] theorem F.LE_P2MP_LEAF_ROC_ro_width (i j k : Nat) : (F.LE_P2MP_LEAF_ROC_ro i j k).width = 20 := rfl
@[simp] theorem F.LE_P2MP_LEAF_ST_state_key (i j k : Nat) : (F.LE_P2MP_LEAF_ST_state i j k).key = (0x26800 + 0x40000 * i + 0x1000 * j + 0x8 * k) * 8 + 29 := rfl
@[simp] theorem F.LE_P2MP_LEAF_ST_state_width (i j k : Nat) : (F.LE_P2MP_LEAF_ST_state i j k).width = 3 := rfl
@[simp] theorem F.LE_P2MP_LEAF_ST_rogue_key (i j k : Nat) : (F.LE_P2MP_LEAF_ST_rogue i j k).key = (0x26800 + 0x40000 * i + 0x1000 * j + 0x8 * k) * 8 + 28 := rfl
@[simp] theorem F.LE_P2MP_LEAF_ST_rogue_width (i j k : Nat) : (F.LE_P2MP_LEAF_ST_rogue i j k).width = 1 := rfl
@[simp] theorem F.LE_P2MP_LEAF_ST_score_key (i j k : Nat) : (F.LE_P2MP_LEAF_ST_score i j k).key = (0x26800 + 0x40000 * i + 0x1000 * j + 0x8 * k) * 8 + 20 := rfl
@[simp] theorem F.LE_P2MP_LEAF_ST_score_width (i j k : Nat) : (F.LE_P2MP_LEAF_ST_score i j k).width = 8 := rfl
@[simp] theorem F.LE_P2MP_LEAF_ST_ro_active_key (i j k : Nat) : (F.LE_P2MP_LEAF_ST_ro_active i j k).key = (0x26800 + 0x40000 * i + 0x1000 * j + 0x8 * k) * 8 + 0 := rfl
@[simp] theorem F.LE_P2MP_LEAF_ST_ro_active_width (i j k : Nat) : (F.LE_P2MP_LEAF_ST_ro_active i j k).width = 20 := rfl
@[simp] theorem F.LE_P2MP_LEAF_CD_level_dev_key (i j k : Nat) : (F.LE_P2MP_LEAF_CD_level_dev i j k).key = (0x26804 + 0x40000 * i + 0x1000 * j + 0x8 * k) * 8 + 21 := rfl
@[simp] theorem F.LE_P2MP_LEAF_CD_level_dev_width (i j k : Nat) : (F.LE_P2MP_LEAF_CD_level_dev i j k).width = 8 := rfl
@[simp] theorem F.LE_P2MP_LEAF_CD_cd_key (i j k : Nat) : (F.LE_P2MP_LEAF_CD_cd i j k).key = (0x26804 + 0x40000 * i + 0x1000 * j + 0x8 * k) * 8 + 0 := rfl
@[simp] theorem F.LE_P2MP_LEAF_CD_cd_width (i j k : Nat) : (F.LE_P2MP_LEAF_CD_cd i j k).width = 21 := rfl
@[simp] theorem F.LE_P2MP_GRANT_LO_bits_key (i j k : Nat) : (F.LE_P2MP_GRANT_LO_bits i j k).key = (0x28800 + 0x40000 * i + 0x1000 * j + 0x8 * k) * 8 + 0 := rfl
@[simp] theorem F.LE_P2MP_GRANT_LO_bits_width (i j k : Nat) : (F.LE_P2MP_GRANT_LO_bits i j k).width = 32 := rfl
@[simp] theorem F.LE_P2MP_GRANT_HI_bits_key (i j k : Nat) : (F.LE_P2MP_GRANT_HI_bits i j k).key = (0x28804 + 0x40000 * i + 0x1000 * j + 0x8 * k) * 8 + 0 := rfl
@[simp] theorem F.LE_P2MP_GRANT_HI_bits_width (i j k : Nat) : (F.LE_P2MP_GRANT_HI_bits i j k).width = 32 := rfl
@[simp] theorem F.LE_P2MP_LEAF_CTRL_self_guard_key (i : Nat) : (F.LE_P2MP_LEAF_CTRL_self_guard i).key = (0x22040 + 0x40000 * i) * 8 + 31 := rfl
@[simp] theorem F.LE_P2MP_LEAF_CTRL_self_guard_width (i : Nat) : (F.LE_P2MP_LEAF_CTRL_self_guard i).width = 1 := rfl
@[simp] theorem F.LE_P2MP_LEAF_CTRL_ctrl_auth_key (i : Nat) : (F.LE_P2MP_LEAF_CTRL_ctrl_auth i).key = (0x22040 + 0x40000 * i) * 8 + 30 := rfl
@[simp] theorem F.LE_P2MP_LEAF_CTRL_ctrl_auth_width (i : Nat) : (F.LE_P2MP_LEAF_CTRL_ctrl_auth i).width = 1 := rfl
@[simp] theorem F.LE_P2MP_LEAF_CTRL_cont_en_key (i : Nat) : (F.LE_P2MP_LEAF_CTRL_cont_en i).key = (0x22040 + 0x40000 * i) * 8 + 21 := rfl
@[simp] theorem F.LE_P2MP_LEAF_CTRL_cont_en_width (i : Nat) : (F.LE_P2MP_LEAF_CTRL_cont_en i).width = 1 := rfl
@[simp] theorem F.LE_P2MP_LEAF_CTRL_cont_sc_key (i : Nat) : (F.LE_P2MP_LEAF_CTRL_cont_sc i).key = (0x22040 + 0x40000 * i) * 8 + 16 := rfl
@[simp] theorem F.LE_P2MP_LEAF_CTRL_cont_sc_width (i : Nat) : (F.LE_P2MP_LEAF_CTRL_cont_sc i).width = 5 := rfl
@[simp] theorem F.LE_P2MP_LEAF_CTRL_backoff_key (i : Nat) : (F.LE_P2MP_LEAF_CTRL_backoff i).key = (0x22040 + 0x40000 * i) * 8 + 0 := rfl
@[simp] theorem F.LE_P2MP_LEAF_CTRL_backoff_width (i : Nat) : (F.LE_P2MP_LEAF_CTRL_backoff i).width = 4 := rfl
@[simp] theorem F.LE_P2MP_LEAF_STAT_state_key (i : Nat) : (F.LE_P2MP_LEAF_STAT_state i).key = (0x22044 + 0x40000 * i) * 8 + 29 := rfl
@[simp] theorem F.LE_P2MP_LEAF_STAT_state_width (i : Nat) : (F.LE_P2MP_LEAF_STAT_state i).width = 3 := rfl
@[simp] theorem F.LE_P2MP_LEAF_STAT_home_key (i : Nat) : (F.LE_P2MP_LEAF_STAT_home i).key = (0x22044 + 0x40000 * i) * 8 + 24 := rfl
@[simp] theorem F.LE_P2MP_LEAF_STAT_home_width (i : Nat) : (F.LE_P2MP_LEAF_STAT_home i).width = 5 := rfl
@[simp] theorem F.LE_P2MP_LEAF_STAT_leaf_id_key (i : Nat) : (F.LE_P2MP_LEAF_STAT_leaf_id i).key = (0x22044 + 0x40000 * i) * 8 + 0 := rfl
@[simp] theorem F.LE_P2MP_LEAF_STAT_leaf_id_width (i : Nat) : (F.LE_P2MP_LEAF_STAT_leaf_id i).width = 10 := rfl
@[simp] theorem F.LE_P2MP_LEAF_RO_ro_key (i : Nat) : (F.LE_P2MP_LEAF_RO_ro i).key = (0x22048 + 0x40000 * i) * 8 + 0 := rfl
@[simp] theorem F.LE_P2MP_LEAF_RO_ro_width (i : Nat) : (F.LE_P2MP_LEAF_RO_ro i).width = 20 := rfl
@[simp] theorem F.LE_P2MP_LEAF_GAIN_gain_key (i : Nat) : (F.LE_P2MP_LEAF_GAIN_gain i).key = (0x2204C + 0x40000 * i) * 8 + 0 := rfl
@[simp] theorem F.LE_P2MP_LEAF_GAIN_gain_width (i : Nat) : (F.LE_P2MP_LEAF_GAIN_gain i).width = 9 := rfl
@[simp] theorem F.LE_P2MP_LEAF_CNT_count_key (i j : Nat) : (F.LE_P2MP_LEAF_CNT_count i j).key = (0x22080 + 0x40000 * i + 0x4 * j) * 8 + 0 := rfl
@[simp] theorem F.LE_P2MP_LEAF_CNT_count_width (i j : Nat) : (F.LE_P2MP_LEAF_CNT_count i j).width = 32 := rfl
@[simp] theorem F.LE_FEC_CTRL_early_stop_key (i : Nat) : (F.LE_FEC_CTRL_early_stop i).key = (0x30040 + 0x40000 * i) * 8 + 8 := rfl
@[simp] theorem F.LE_FEC_CTRL_early_stop_width (i : Nat) : (F.LE_FEC_CTRL_early_stop i).width = 1 := rfl
@[simp] theorem F.LE_FEC_CTRL_max_iter_key (i : Nat) : (F.LE_FEC_CTRL_max_iter i).key = (0x30040 + 0x40000 * i) * 8 + 0 := rfl
@[simp] theorem F.LE_FEC_CTRL_max_iter_width (i : Nat) : (F.LE_FEC_CTRL_max_iter i).width = 5 := rfl
@[simp] theorem F.LE_FEC_ILM_zrp_rate_key (i : Nat) : (F.LE_FEC_ILM_zrp_rate i).key = (0x30060 + 0x40000 * i) * 8 + 0 := rfl
@[simp] theorem F.LE_FEC_ILM_zrp_rate_width (i : Nat) : (F.LE_FEC_ILM_zrp_rate i).width = 2 := rfl
@[simp] theorem F.LE_FEC_DEFECT_deg_margin_key (i : Nat) : (F.LE_FEC_DEFECT_deg_margin i).key = (0x30044 + 0x40000 * i) * 8 + 16 := rfl
@[simp] theorem F.LE_FEC_DEFECT_deg_margin_width (i : Nat) : (F.LE_FEC_DEFECT_deg_margin i).width = 8 := rfl
@[simp] theorem F.LE_FEC_DEFECT_exc_margin_key (i : Nat) : (F.LE_FEC_DEFECT_exc_margin i).key = (0x30044 + 0x40000 * i) * 8 + 8 := rfl
@[simp] theorem F.LE_FEC_DEFECT_exc_margin_width (i : Nat) : (F.LE_FEC_DEFECT_exc_margin i).width = 8 := rfl
@[simp] theorem F.LE_FEC_DEFECT_exc_ucb_key (i : Nat) : (F.LE_FEC_DEFECT_exc_ucb i).key = (0x30044 + 0x40000 * i) * 8 + 0 := rfl
@[simp] theorem F.LE_FEC_DEFECT_exc_ucb_width (i : Nat) : (F.LE_FEC_DEFECT_exc_ucb i).width = 8 := rfl
@[simp] theorem F.LE_FEC_STAT_q_th_key (i : Nat) : (F.LE_FEC_STAT_q_th i).key = (0x30048 + 0x40000 * i) * 8 + 16 := rfl
@[simp] theorem F.LE_FEC_STAT_q_th_width (i : Nat) : (F.LE_FEC_STAT_q_th i).width = 16 := rfl
@[simp] theorem F.LE_FEC_STAT_tiles_active_key (i : Nat) : (F.LE_FEC_STAT_tiles_active i).key = (0x30048 + 0x40000 * i) * 8 + 11 := rfl
@[simp] theorem F.LE_FEC_STAT_tiles_active_width (i : Nat) : (F.LE_FEC_STAT_tiles_active i).width = 5 := rfl
@[simp] theorem F.LE_FEC_STAT_iter_cap_key (i : Nat) : (F.LE_FEC_STAT_iter_cap i).key = (0x30048 + 0x40000 * i) * 8 + 6 := rfl
@[simp] theorem F.LE_FEC_STAT_iter_cap_width (i : Nat) : (F.LE_FEC_STAT_iter_cap i).width = 5 := rfl
@[simp] theorem F.LE_FEC_STAT_sync_key (i : Nat) : (F.LE_FEC_STAT_sync i).key = (0x30048 + 0x40000 * i) * 8 + 0 := rfl
@[simp] theorem F.LE_FEC_STAT_sync_width (i : Nat) : (F.LE_FEC_STAT_sync i).width = 2 := rfl
@[simp] theorem F.LE_FEC_QENG_exc_raw_key (i : Nat) : (F.LE_FEC_QENG_exc_raw i).key = (0x3004C + 0x40000 * i) * 8 + 17 := rfl
@[simp] theorem F.LE_FEC_QENG_exc_raw_width (i : Nat) : (F.LE_FEC_QENG_exc_raw i).width = 1 := rfl
@[simp] theorem F.LE_FEC_QENG_deg_raw_key (i : Nat) : (F.LE_FEC_QENG_deg_raw i).key = (0x3004C + 0x40000 * i) * 8 + 16 := rfl
@[simp] theorem F.LE_FEC_QENG_deg_raw_width (i : Nat) : (F.LE_FEC_QENG_deg_raw i).width = 1 := rfl
@[simp] theorem F.LE_FEC_QENG_q_eng_key (i : Nat) : (F.LE_FEC_QENG_q_eng i).key = (0x3004C + 0x40000 * i) * 8 + 0 := rfl
@[simp] theorem F.LE_FEC_QENG_q_eng_width (i : Nat) : (F.LE_FEC_QENG_q_eng i).width = 16 := rfl
@[simp] theorem F.LE_FEC_SC_SYNC_sc_sync_key (i : Nat) : (F.LE_FEC_SC_SYNC_sc_sync i).key = (0x30050 + 0x40000 * i) * 8 + 0 := rfl
@[simp] theorem F.LE_FEC_SC_SYNC_sc_sync_width (i : Nat) : (F.LE_FEC_SC_SYNC_sc_sync i).width = 32 := rfl
@[simp] theorem F.LE_FEC_CNT_LO_lo_key (i j : Nat) : (F.LE_FEC_CNT_LO_lo i j).key = (0x31040 + 0x40000 * i + 0x8 * j) * 8 + 0 := rfl
@[simp] theorem F.LE_FEC_CNT_LO_lo_width (i j : Nat) : (F.LE_FEC_CNT_LO_lo i j).width = 32 := rfl
@[simp] theorem F.LE_FEC_CNT_HI_hi_key (i j : Nat) : (F.LE_FEC_CNT_HI_hi i j).key = (0x31044 + 0x40000 * i + 0x8 * j) * 8 + 0 := rfl
@[simp] theorem F.LE_FEC_CNT_HI_hi_width (i j : Nat) : (F.LE_FEC_CNT_HI_hi i j).width = 16 := rfl
@[simp] theorem F.LE_FEC_CNT_LO_SNAP_lo_key (i j : Nat) : (F.LE_FEC_CNT_LO_SNAP_lo i j).key = (0x31100 + 0x40000 * i + 0x8 * j) * 8 + 0 := rfl
@[simp] theorem F.LE_FEC_CNT_LO_SNAP_lo_width (i j : Nat) : (F.LE_FEC_CNT_LO_SNAP_lo i j).width = 32 := rfl
@[simp] theorem F.LE_FEC_CNT_HI_SNAP_hi_key (i j : Nat) : (F.LE_FEC_CNT_HI_SNAP_hi i j).key = (0x31104 + 0x40000 * i + 0x8 * j) * 8 + 0 := rfl
@[simp] theorem F.LE_FEC_CNT_HI_SNAP_hi_width (i j : Nat) : (F.LE_FEC_CNT_HI_SNAP_hi i j).width = 16 := rfl
@[simp] theorem F.LE_FEC_TILE_MAP_map_key (i : Nat) : (F.LE_FEC_TILE_MAP_map i).key = (0x32040 + 0x40000 * i) * 8 + 0 := rfl
@[simp] theorem F.LE_FEC_TILE_MAP_map_width (i : Nat) : (F.LE_FEC_TILE_MAP_map i).width = 26 := rfl
@[simp] theorem F.LE_FEC_TILE_SPARE_spare_b_key (i : Nat) : (F.LE_FEC_TILE_SPARE_spare_b i).key = (0x32044 + 0x40000 * i) * 8 + 8 := rfl
@[simp] theorem F.LE_FEC_TILE_SPARE_spare_b_width (i : Nat) : (F.LE_FEC_TILE_SPARE_spare_b i).width = 5 := rfl
@[simp] theorem F.LE_FEC_TILE_SPARE_spare_a_key (i : Nat) : (F.LE_FEC_TILE_SPARE_spare_a i).key = (0x32044 + 0x40000 * i) * 8 + 0 := rfl
@[simp] theorem F.LE_FEC_TILE_SPARE_spare_a_width (i : Nat) : (F.LE_FEC_TILE_SPARE_spare_a i).width = 5 := rfl
@[simp] theorem F.LE_FEC_REDEC_CNT_count_key (i : Nat) : (F.LE_FEC_REDEC_CNT_count i).key = (0x32048 + 0x40000 * i) * 8 + 0 := rfl
@[simp] theorem F.LE_FEC_REDEC_CNT_count_width (i : Nat) : (F.LE_FEC_REDEC_CNT_count i).width = 32 := rfl
@[simp] theorem F.LE_FEC_AMBIG_CNT_count_key (i : Nat) : (F.LE_FEC_AMBIG_CNT_count i).key = (0x3204C + 0x40000 * i) * 8 + 0 := rfl
@[simp] theorem F.LE_FEC_AMBIG_CNT_count_width (i : Nat) : (F.LE_FEC_AMBIG_CNT_count i).width = 32 := rfl
@[simp] theorem F.LE_FEC_TILE_STAT_marks_key (i j : Nat) : (F.LE_FEC_TILE_STAT_marks i j).key = (0x32080 + 0x40000 * i + 0x4 * j) * 8 + 8 := rfl
@[simp] theorem F.LE_FEC_TILE_STAT_marks_width (i j : Nat) : (F.LE_FEC_TILE_STAT_marks i j).width = 8 := rfl
@[simp] theorem F.LE_FEC_TILE_STAT_state_key (i j : Nat) : (F.LE_FEC_TILE_STAT_state i j).key = (0x32080 + 0x40000 * i + 0x4 * j) * 8 + 0 := rfl
@[simp] theorem F.LE_FEC_TILE_STAT_state_width (i j : Nat) : (F.LE_FEC_TILE_STAT_state i j).width = 2 := rfl
@[simp] theorem F.LE_GLF_CONT_CFG_valid_key (i j : Nat) : (F.LE_GLF_CONT_CFG_valid i j).key = (0x38100 + 0x40000 * i + 0x8 * j) * 8 + 31 := rfl
@[simp] theorem F.LE_GLF_CONT_CFG_valid_width (i j : Nat) : (F.LE_GLF_CONT_CFG_valid i j).width = 1 := rfl
@[simp] theorem F.LE_GLF_CONT_CFG_type_key (i j : Nat) : (F.LE_GLF_CONT_CFG_type i j).key = (0x38100 + 0x40000 * i + 0x8 * j) * 8 + 30 := rfl
@[simp] theorem F.LE_GLF_CONT_CFG_type_width (i j : Nat) : (F.LE_GLF_CONT_CFG_type i j).width = 1 := rfl
@[simp] theorem F.LE_GLF_CONT_CFG_kind_key (i j : Nat) : (F.LE_GLF_CONT_CFG_kind i j).key = (0x38100 + 0x40000 * i + 0x8 * j) * 8 + 29 := rfl
@[simp] theorem F.LE_GLF_CONT_CFG_kind_width (i j : Nat) : (F.LE_GLF_CONT_CFG_kind i j).width = 1 := rfl
@[simp] theorem F.LE_GLF_CONT_CFG_stream_key (i j : Nat) : (F.LE_GLF_CONT_CFG_stream i j).key = (0x38100 + 0x40000 * i + 0x8 * j) * 8 + 24 := rfl
@[simp] theorem F.LE_GLF_CONT_CFG_stream_width (i j : Nat) : (F.LE_GLF_CONT_CFG_stream i j).width = 5 := rfl
@[simp] theorem F.LE_GLF_CONT_CFG_cell_size_key (i j : Nat) : (F.LE_GLF_CONT_CFG_cell_size i j).key = (0x38100 + 0x40000 * i + 0x8 * j) * 8 + 22 := rfl
@[simp] theorem F.LE_GLF_CONT_CFG_cell_size_width (i j : Nat) : (F.LE_GLF_CONT_CFG_cell_size i j).width = 2 := rfl
@[simp] theorem F.LE_GLF_CONT_CFG_port_key (i j : Nat) : (F.LE_GLF_CONT_CFG_port i j).key = (0x38100 + 0x40000 * i + 0x8 * j) * 8 + 16 := rfl
@[simp] theorem F.LE_GLF_CONT_CFG_port_width (i j : Nat) : (F.LE_GLF_CONT_CFG_port i j).width = 5 := rfl
@[simp] theorem F.LE_GLF_CONT_AUX_leaf_key (i j : Nat) : (F.LE_GLF_CONT_AUX_leaf i j).key = (0x38104 + 0x40000 * i + 0x8 * j) * 8 + 16 := rfl
@[simp] theorem F.LE_GLF_CONT_AUX_leaf_width (i j : Nat) : (F.LE_GLF_CONT_AUX_leaf i j).width = 10 := rfl
@[simp] theorem F.LE_GLF_CONT_AUX_rank_key (i j : Nat) : (F.LE_GLF_CONT_AUX_rank i j).key = (0x38104 + 0x40000 * i + 0x8 * j) * 8 + 0 := rfl
@[simp] theorem F.LE_GLF_CONT_AUX_rank_width (i j : Nat) : (F.LE_GLF_CONT_AUX_rank i j).width = 6 := rfl
@[simp] theorem F.LE_GLF_CELL_SYNC_LO_bits_key (i : Nat) : (F.LE_GLF_CELL_SYNC_LO_bits i).key = (0x38040 + 0x40000 * i) * 8 + 0 := rfl
@[simp] theorem F.LE_GLF_CELL_SYNC_LO_bits_width (i : Nat) : (F.LE_GLF_CELL_SYNC_LO_bits i).width = 32 := rfl
@[simp] theorem F.LE_GLF_CELL_SYNC_HI_bits_key (i : Nat) : (F.LE_GLF_CELL_SYNC_HI_bits i).key = (0x38044 + 0x40000 * i) * 8 + 0 := rfl
@[simp] theorem F.LE_GLF_CELL_SYNC_HI_bits_width (i : Nat) : (F.LE_GLF_CELL_SYNC_HI_bits i).width = 32 := rfl
@[simp] theorem F.LE_GLF_TX_SLOT_slots_key (i j k l : Nat) : (F.LE_GLF_TX_SLOT_slots i j k l).key = (0x40800 + 0x40000 * i + 0x1000 * j + 0x100 * k + 0x4 * l) * 8 + 0 := rfl
@[simp] theorem F.LE_GLF_TX_SLOT_slots_width (i j k l : Nat) : (F.LE_GLF_TX_SLOT_slots i j k l).width = 32 := rfl
@[simp] theorem F.LE_GLF_RX_SLOT_slots_key (i j k l : Nat) : (F.LE_GLF_RX_SLOT_slots i j k l).key = (0x44800 + 0x40000 * i + 0x1000 * j + 0x100 * k + 0x4 * l) * 8 + 0 := rfl
@[simp] theorem F.LE_GLF_RX_SLOT_slots_width (i j k l : Nat) : (F.LE_GLF_RX_SLOT_slots i j k l).width = 32 := rfl
@[simp] theorem F.LE_GLF_ID_bundle_id_key (i j : Nat) : (F.LE_GLF_ID_bundle_id i j).key = (0x34100 + 0x40000 * i + 0x4 * j) * 8 + 16 := rfl
@[simp] theorem F.LE_GLF_ID_bundle_id_width (i j : Nat) : (F.LE_GLF_ID_bundle_id i j).width = 12 := rfl
@[simp] theorem F.LE_GLF_ID_member_id_key (i j : Nat) : (F.LE_GLF_ID_member_id i j).key = (0x34100 + 0x40000 * i + 0x4 * j) * 8 + 0 := rfl
@[simp] theorem F.LE_GLF_ID_member_id_width (i j : Nat) : (F.LE_GLF_ID_member_id i j).width = 4 := rfl
@[simp] theorem F.LE_GLF_RX_ID_bundle_id_key (i j : Nat) : (F.LE_GLF_RX_ID_bundle_id i j).key = (0x34180 + 0x40000 * i + 0x4 * j) * 8 + 16 := rfl
@[simp] theorem F.LE_GLF_RX_ID_bundle_id_width (i j : Nat) : (F.LE_GLF_RX_ID_bundle_id i j).width = 12 := rfl
@[simp] theorem F.LE_GLF_RX_ID_member_id_key (i j : Nat) : (F.LE_GLF_RX_ID_member_id i j).key = (0x34180 + 0x40000 * i + 0x4 * j) * 8 + 0 := rfl
@[simp] theorem F.LE_GLF_RX_ID_member_id_width (i j : Nat) : (F.LE_GLF_RX_ID_member_id i j).width = 4 := rfl
@[simp] theorem F.MAP_GRP_CTRL_valid_key (i j : Nat) : (F.MAP_GRP_CTRL_valid i j).key = (0xA8800 + 0x1000 * i + 0x40 * j) * 8 + 31 := rfl
@[simp] theorem F.MAP_GRP_CTRL_valid_width (i j : Nat) : (F.MAP_GRP_CTRL_valid i j).width = 1 := rfl
@[simp] theorem F.MAP_GRP_CTRL_kind_key (i j : Nat) : (F.MAP_GRP_CTRL_kind i j).key = (0xA8800 + 0x1000 * i + 0x40 * j) * 8 + 30 := rfl
@[simp] theorem F.MAP_GRP_CTRL_kind_width (i j : Nat) : (F.MAP_GRP_CTRL_kind i j).width = 1 := rfl
@[simp] theorem F.MAP_GRP_CTRL_auto_remove_key (i j : Nat) : (F.MAP_GRP_CTRL_auto_remove i j).key = (0xA8800 + 0x1000 * i + 0x40 * j) * 8 + 29 := rfl
@[simp] theorem F.MAP_GRP_CTRL_auto_remove_width (i j : Nat) : (F.MAP_GRP_CTRL_auto_remove i j).width = 1 := rfl
@[simp] theorem F.MAP_GRP_CTRL_bundle_id_key (i j : Nat) : (F.MAP_GRP_CTRL_bundle_id i j).key = (0xA8800 + 0x1000 * i + 0x40 * j) * 8 + 12 := rfl
@[simp] theorem F.MAP_GRP_CTRL_bundle_id_width (i j : Nat) : (F.MAP_GRP_CTRL_bundle_id i j).width = 12 := rfl
@[simp] theorem F.MAP_GRP_CTRL_dd_max_key (i j : Nat) : (F.MAP_GRP_CTRL_dd_max i j).key = (0xA8800 + 0x1000 * i + 0x40 * j) * 8 + 0 := rfl
@[simp] theorem F.MAP_GRP_CTRL_dd_max_width (i j : Nat) : (F.MAP_GRP_CTRL_dd_max i j).width = 10 := rfl
@[simp] theorem F.MAP_GRP_TARGET_target_set_key (i j : Nat) : (F.MAP_GRP_TARGET_target_set i j).key = (0xA8804 + 0x1000 * i + 0x40 * j) * 8 + 0 := rfl
@[simp] theorem F.MAP_GRP_TARGET_target_set_width (i j : Nat) : (F.MAP_GRP_TARGET_target_set i j).width = 16 := rfl
@[simp] theorem F.MAP_GRP_MEM_valid1_key (i j k : Nat) : (F.MAP_GRP_MEM_valid1 i j k).key = (0xA8808 + 0x1000 * i + 0x40 * j + 0x4 * k) * 8 + 31 := rfl
@[simp] theorem F.MAP_GRP_MEM_valid1_width (i j k : Nat) : (F.MAP_GRP_MEM_valid1 i j k).width = 1 := rfl
@[simp] theorem F.MAP_GRP_MEM_engine1_key (i j k : Nat) : (F.MAP_GRP_MEM_engine1 i j k).key = (0xA8808 + 0x1000 * i + 0x40 * j + 0x4 * k) * 8 + 30 := rfl
@[simp] theorem F.MAP_GRP_MEM_engine1_width (i j k : Nat) : (F.MAP_GRP_MEM_engine1 i j k).width = 1 := rfl
@[simp] theorem F.MAP_GRP_MEM_cont1_key (i j k : Nat) : (F.MAP_GRP_MEM_cont1 i j k).key = (0xA8808 + 0x1000 * i + 0x40 * j + 0x4 * k) * 8 + 24 := rfl
@[simp] theorem F.MAP_GRP_MEM_cont1_width (i j k : Nat) : (F.MAP_GRP_MEM_cont1 i j k).width = 6 := rfl
@[simp] theorem F.MAP_GRP_MEM_valid0_key (i j k : Nat) : (F.MAP_GRP_MEM_valid0 i j k).key = (0xA8808 + 0x1000 * i + 0x40 * j + 0x4 * k) * 8 + 15 := rfl
@[simp] theorem F.MAP_GRP_MEM_valid0_width (i j k : Nat) : (F.MAP_GRP_MEM_valid0 i j k).width = 1 := rfl
@[simp] theorem F.MAP_GRP_MEM_engine0_key (i j k : Nat) : (F.MAP_GRP_MEM_engine0 i j k).key = (0xA8808 + 0x1000 * i + 0x40 * j + 0x4 * k) * 8 + 14 := rfl
@[simp] theorem F.MAP_GRP_MEM_engine0_width (i j k : Nat) : (F.MAP_GRP_MEM_engine0 i j k).width = 1 := rfl
@[simp] theorem F.MAP_GRP_MEM_cont0_key (i j k : Nat) : (F.MAP_GRP_MEM_cont0 i j k).key = (0xA8808 + 0x1000 * i + 0x40 * j + 0x4 * k) * 8 + 8 := rfl
@[simp] theorem F.MAP_GRP_MEM_cont0_width (i j k : Nat) : (F.MAP_GRP_MEM_cont0 i j k).width = 6 := rfl
@[simp] theorem F.MAP_GRP_ST_msp_state_key (i j : Nat) : (F.MAP_GRP_ST_msp_state i j).key = (0xA8828 + 0x1000 * i + 0x40 * j) * 8 + 29 := rfl
@[simp] theorem F.MAP_GRP_ST_msp_state_width (i j : Nat) : (F.MAP_GRP_ST_msp_state i j).width = 3 := rfl
@[simp] theorem F.MAP_GRP_ST_sink_state_key (i j : Nat) : (F.MAP_GRP_ST_sink_state i j).key = (0xA8828 + 0x1000 * i + 0x40 * j) * 8 + 26 := rfl
@[simp] theorem F.MAP_GRP_ST_sink_state_width (i j : Nat) : (F.MAP_GRP_ST_sink_state i j).width = 3 := rfl
@[simp] theorem F.MAP_GRP_ST_sel_key (i j : Nat) : (F.MAP_GRP_ST_sel i j).key = (0xA8828 + 0x1000 * i + 0x40 * j) * 8 + 24 := rfl
@[simp] theorem F.MAP_GRP_ST_sel_width (i j : Nat) : (F.MAP_GRP_ST_sel i j).width = 2 := rfl
@[simp] theorem F.MAP_GRP_ST_active_set_key (i j : Nat) : (F.MAP_GRP_ST_active_set i j).key = (0xA8828 + 0x1000 * i + 0x40 * j) * 8 + 0 := rfl
@[simp] theorem F.MAP_GRP_ST_active_set_width (i j : Nat) : (F.MAP_GRP_ST_active_set i j).width = 16 := rfl
@[simp] theorem F.MAP_GRP_DD_late_member_key (i j : Nat) : (F.MAP_GRP_DD_late_member i j).key = (0xA882C + 0x1000 * i + 0x40 * j) * 8 + 28 := rfl
@[simp] theorem F.MAP_GRP_DD_late_member_width (i j : Nat) : (F.MAP_GRP_DD_late_member i j).width = 4 := rfl
@[simp] theorem F.MAP_GRP_DD_dd_key (i j : Nat) : (F.MAP_GRP_DD_dd i j).key = (0xA882C + 0x1000 * i + 0x40 * j) * 8 + 0 := rfl
@[simp] theorem F.MAP_GRP_DD_dd_width (i j : Nat) : (F.MAP_GRP_DD_dd i j).width = 20 := rfl
@[simp] theorem F.MAP_GRP_PAGES_pages_key (i j : Nat) : (F.MAP_GRP_PAGES_pages i j).key = (0xA8830 + 0x1000 * i + 0x40 * j) * 8 + 0 := rfl
@[simp] theorem F.MAP_GRP_PAGES_pages_width (i j : Nat) : (F.MAP_GRP_PAGES_pages i j).width = 32 := rfl
@[simp] theorem F.MAP_GRP_SWITCHES_switches_key (i j : Nat) : (F.MAP_GRP_SWITCHES_switches i j).key = (0xA8834 + 0x1000 * i + 0x40 * j) * 8 + 0 := rfl
@[simp] theorem F.MAP_GRP_SWITCHES_switches_width (i j : Nat) : (F.MAP_GRP_SWITCHES_switches i j).width = 32 := rfl
@[simp] theorem F.MAP_MSP_CTRL_msp_lead_key : F.MAP_MSP_CTRL_msp_lead.key = 0xAA0C0 * 8 + 0 := rfl
@[simp] theorem F.MAP_MSP_CTRL_msp_lead_width : F.MAP_MSP_CTRL_msp_lead.width = 16 := rfl
@[simp] theorem F.MAP_MSP_STAT_group_key : F.MAP_MSP_STAT_group.key = 0xAA0C4 * 8 + 8 := rfl
@[simp] theorem F.MAP_MSP_STAT_group_width : F.MAP_MSP_STAT_group.width = 6 := rfl
@[simp] theorem F.MAP_MSP_STAT_reason_key : F.MAP_MSP_STAT_reason.key = 0xAA0C4 * 8 + 0 := rfl
@[simp] theorem F.MAP_MSP_STAT_reason_width : F.MAP_MSP_STAT_reason.width = 8 := rfl
@[simp] theorem F.DEF_CA_fec_exc_ca_key : F.DEF_CA_fec_exc_ca.key = 0xAA080 * 8 + 0 := rfl
@[simp] theorem F.DEF_CA_fec_exc_ca_width : F.DEF_CA_fec_exc_ca.width = 1 := rfl
@[simp] theorem F.LE_GLF_CTRL_force_ais_key (i : Nat) : (F.LE_GLF_CTRL_force_ais i).key = (0x34040 + 0x40000 * i) * 8 + 1 := rfl
@[simp] theorem F.LE_GLF_CTRL_force_ais_width (i : Nat) : (F.LE_GLF_CTRL_force_ais i).width = 1 := rfl
@[simp] theorem F.LE_GLF_CTRL_force_bdi_key (i : Nat) : (F.LE_GLF_CTRL_force_bdi i).key = (0x34040 + 0x40000 * i) * 8 + 0 := rfl
@[simp] theorem F.LE_GLF_CTRL_force_bdi_width (i : Nat) : (F.LE_GLF_CTRL_force_bdi i).width = 1 := rfl
@[simp] theorem F.LE_GLF_STAT_frame_state_key (i : Nat) : (F.LE_GLF_STAT_frame_state i).key = (0x34044 + 0x40000 * i) * 8 + 30 := rfl
@[simp] theorem F.LE_GLF_STAT_frame_state_width (i : Nat) : (F.LE_GLF_STAT_frame_state i).width = 2 := rfl
@[simp] theorem F.LE_GLF_STAT_mf_state_key (i : Nat) : (F.LE_GLF_STAT_mf_state i).key = (0x34044 + 0x40000 * i) * 8 + 28 := rfl
@[simp] theorem F.LE_GLF_STAT_mf_state_width (i : Nat) : (F.LE_GLF_STAT_mf_state i).width = 2 := rfl
@[simp] theorem F.LE_GLF_STAT_ql_key (i : Nat) : (F.LE_GLF_STAT_ql i).key = (0x34044 + 0x40000 * i) * 8 + 24 := rfl
@[simp] theorem F.LE_GLF_STAT_ql_width (i : Nat) : (F.LE_GLF_STAT_ql i).width = 4 := rfl
@[simp] theorem F.LE_GLF_STAT_bdi_key (i : Nat) : (F.LE_GLF_STAT_bdi i).key = (0x34044 + 0x40000 * i) * 8 + 23 := rfl
@[simp] theorem F.LE_GLF_STAT_bdi_width (i : Nat) : (F.LE_GLF_STAT_bdi i).width = 1 := rfl
@[simp] theorem F.LE_GLF_STAT_ais_key (i : Nat) : (F.LE_GLF_STAT_ais i).key = (0x34044 + 0x40000 * i) * 8 + 22 := rfl
@[simp] theorem F.LE_GLF_STAT_ais_width (i : Nat) : (F.LE_GLF_STAT_ais i).width = 1 := rfl
@[simp] theorem F.LE_GLF_STAT_candidates_key (i : Nat) : (F.LE_GLF_STAT_candidates i).key = (0x34044 + 0x40000 * i) * 8 + 19 := rfl
@[simp] theorem F.LE_GLF_STAT_candidates_width (i : Nat) : (F.LE_GLF_STAT_candidates i).width = 3 := rfl
@[simp] theorem F.LE_GLF_RX_FC_fc_key (i : Nat) : (F.LE_GLF_RX_FC_fc i).key = (0x34048 + 0x40000 * i) * 8 + 0 := rfl
@[simp] theorem F.LE_GLF_RX_FC_fc_width (i : Nat) : (F.LE_GLF_RX_FC_fc i).width = 32 := rfl
@[simp] theorem F.LE_GLF_TX_FC_fc_key (i : Nat) : (F.LE_GLF_TX_FC_fc i).key = (0x3404C + 0x40000 * i) * 8 + 0 := rfl
@[simp] theorem F.LE_GLF_TX_FC_fc_width (i : Nat) : (F.LE_GLF_TX_FC_fc i).width = 32 := rfl
@[simp] theorem F.LE_GLF_DEF_def_key (i : Nat) : (F.LE_GLF_DEF_def i).key = (0x3A040 + 0x40000 * i) * 8 + 0 := rfl
@[simp] theorem F.LE_GLF_DEF_def_width (i : Nat) : (F.LE_GLF_DEF_def i).width = 32 := rfl
@[simp] theorem F.LE_GLF_VEC_bits_key (i j : Nat) : (F.LE_GLF_VEC_bits i j).key = (0x3A044 + 0x40000 * i + 0x4 * j) * 8 + 0 := rfl
@[simp] theorem F.LE_GLF_VEC_bits_width (i j : Nat) : (F.LE_GLF_VEC_bits i j).width = 32 := rfl
@[simp] theorem F.LE_GLF_CNT_count_key (i j : Nat) : (F.LE_GLF_CNT_count i j).key = (0x35040 + 0x40000 * i + 0x4 * j) * 8 + 0 := rfl
@[simp] theorem F.LE_GLF_CNT_count_width (i j : Nat) : (F.LE_GLF_CNT_count i j).width = 32 := rfl
@[simp] theorem F.HL_GRP_CTRL_tx_timing_key (i : Nat) : (F.HL_GRP_CTRL_tx_timing i).key = (0x90040 + 0x1000 * i) * 8 + 21 := rfl
@[simp] theorem F.HL_GRP_CTRL_tx_timing_width (i : Nat) : (F.HL_GRP_CTRL_tx_timing i).width = 1 := rfl
@[simp] theorem F.HL_GRP_CTRL_timing_port_key (i : Nat) : (F.HL_GRP_CTRL_timing_port i).key = (0x90040 + 0x1000 * i) * 8 + 16 := rfl
@[simp] theorem F.HL_GRP_CTRL_timing_port_width (i : Nat) : (F.HL_GRP_CTRL_timing_port i).width = 5 := rfl
@[simp] theorem F.HL_GRP_CTRL_iface_key (i : Nat) : (F.HL_GRP_CTRL_iface i).key = (0x90040 + 0x1000 * i) * 8 + 8 := rfl
@[simp] theorem F.HL_GRP_CTRL_iface_width (i : Nat) : (F.HL_GRP_CTRL_iface i).width = 2 := rfl
@[simp] theorem F.HL_GRP_CTRL_rate_class_key (i : Nat) : (F.HL_GRP_CTRL_rate_class i).key = (0x90040 + 0x1000 * i) * 8 + 4 := rfl
@[simp] theorem F.HL_GRP_CTRL_rate_class_width (i : Nat) : (F.HL_GRP_CTRL_rate_class i).width = 2 := rfl
@[simp] theorem F.HL_GRP_CTRL_flexo_rate_key (i : Nat) : (F.HL_GRP_CTRL_flexo_rate i).key = (0x90040 + 0x1000 * i) * 8 + 0 := rfl
@[simp] theorem F.HL_GRP_CTRL_flexo_rate_width (i : Nat) : (F.HL_GRP_CTRL_flexo_rate i).width = 1 := rfl
@[simp] theorem F.HL_GRP_TRAIN_train_timeout_key (i : Nat) : (F.HL_GRP_TRAIN_train_timeout i).key = (0x90044 + 0x1000 * i) * 8 + 0 := rfl
@[simp] theorem F.HL_GRP_TRAIN_train_timeout_width (i : Nat) : (F.HL_GRP_TRAIN_train_timeout i).width = 12 := rfl
@[simp] theorem F.HL_LANE_CTRL_pattern_key (i j : Nat) : (F.HL_LANE_CTRL_pattern i j).key = (0x90100 + 0x1000 * i + 0x20 * j) * 8 + 12 := rfl
@[simp] theorem F.HL_LANE_CTRL_pattern_width (i j : Nat) : (F.HL_LANE_CTRL_pattern i j).width = 4 := rfl
@[simp] theorem F.HL_LANE_CTRL_rx_pol_key (i j : Nat) : (F.HL_LANE_CTRL_rx_pol i j).key = (0x90100 + 0x1000 * i + 0x20 * j) * 8 + 8 := rfl
@[simp] theorem F.HL_LANE_CTRL_rx_pol_width (i j : Nat) : (F.HL_LANE_CTRL_rx_pol i j).width = 2 := rfl
@[simp] theorem F.HL_LANE_CTRL_tx_inv_key (i j : Nat) : (F.HL_LANE_CTRL_tx_inv i j).key = (0x90100 + 0x1000 * i + 0x20 * j) * 8 + 4 := rfl
@[simp] theorem F.HL_LANE_CTRL_tx_inv_width (i j : Nat) : (F.HL_LANE_CTRL_tx_inv i j).width = 1 := rfl
@[simp] theorem F.HL_LANE_CTRL_enable_key (i j : Nat) : (F.HL_LANE_CTRL_enable i j).key = (0x90100 + 0x1000 * i + 0x20 * j) * 8 + 0 := rfl
@[simp] theorem F.HL_LANE_CTRL_enable_width (i j : Nat) : (F.HL_LANE_CTRL_enable i j).width = 1 := rfl
@[simp] theorem F.HL_LANE_TXFFE_pre3_key (i j : Nat) : (F.HL_LANE_TXFFE_pre3 i j).key = (0x90104 + 0x1000 * i + 0x20 * j) * 8 + 27 := rfl
@[simp] theorem F.HL_LANE_TXFFE_pre3_width (i j : Nat) : (F.HL_LANE_TXFFE_pre3 i j).width = 5 := rfl
@[simp] theorem F.HL_LANE_TXFFE_pre2_key (i j : Nat) : (F.HL_LANE_TXFFE_pre2 i j).key = (0x90104 + 0x1000 * i + 0x20 * j) * 8 + 22 := rfl
@[simp] theorem F.HL_LANE_TXFFE_pre2_width (i j : Nat) : (F.HL_LANE_TXFFE_pre2 i j).width = 5 := rfl
@[simp] theorem F.HL_LANE_TXFFE_pre1_key (i j : Nat) : (F.HL_LANE_TXFFE_pre1 i j).key = (0x90104 + 0x1000 * i + 0x20 * j) * 8 + 16 := rfl
@[simp] theorem F.HL_LANE_TXFFE_pre1_width (i j : Nat) : (F.HL_LANE_TXFFE_pre1 i j).width = 6 := rfl
@[simp] theorem F.HL_LANE_TXFFE_main_key (i j : Nat) : (F.HL_LANE_TXFFE_main i j).key = (0x90104 + 0x1000 * i + 0x20 * j) * 8 + 10 := rfl
@[simp] theorem F.HL_LANE_TXFFE_main_width (i j : Nat) : (F.HL_LANE_TXFFE_main i j).width = 6 := rfl
@[simp] theorem F.HL_LANE_TXFFE_post1_key (i j : Nat) : (F.HL_LANE_TXFFE_post1 i j).key = (0x90104 + 0x1000 * i + 0x20 * j) * 8 + 5 := rfl
@[simp] theorem F.HL_LANE_TXFFE_post1_width (i j : Nat) : (F.HL_LANE_TXFFE_post1 i j).width = 5 := rfl
@[simp] theorem F.HL_LANE_TXFFE_post2_key (i j : Nat) : (F.HL_LANE_TXFFE_post2 i j).key = (0x90104 + 0x1000 * i + 0x20 * j) * 8 + 0 := rfl
@[simp] theorem F.HL_LANE_TXFFE_post2_width (i j : Nat) : (F.HL_LANE_TXFFE_post2 i j).width = 5 := rfl
@[simp] theorem F.HL_LANE_STAT_state_key (i j : Nat) : (F.HL_LANE_STAT_state i j).key = (0x90108 + 0x1000 * i + 0x20 * j) * 8 + 29 := rfl
@[simp] theorem F.HL_LANE_STAT_state_width (i j : Nat) : (F.HL_LANE_STAT_state i j).width = 3 := rfl
@[simp] theorem F.HL_LANE_STAT_cdr_lock_key (i j : Nat) : (F.HL_LANE_STAT_cdr_lock i j).key = (0x90108 + 0x1000 * i + 0x20 * j) * 8 + 28 := rfl
@[simp] theorem F.HL_LANE_STAT_cdr_lock_width (i j : Nat) : (F.HL_LANE_STAT_cdr_lock i j).width = 1 := rfl
@[simp] theorem F.HL_LANE_STAT_sig_det_key (i j : Nat) : (F.HL_LANE_STAT_sig_det i j).key = (0x90108 + 0x1000 * i + 0x20 * j) * 8 + 27 := rfl
@[simp] theorem F.HL_LANE_STAT_sig_det_width (i j : Nat) : (F.HL_LANE_STAT_sig_det i j).width = 1 := rfl
@[simp] theorem F.HL_LANE_STAT_rx_inverted_key (i j : Nat) : (F.HL_LANE_STAT_rx_inverted i j).key = (0x90108 + 0x1000 * i + 0x20 * j) * 8 + 26 := rfl
@[simp] theorem F.HL_LANE_STAT_rx_inverted_width (i j : Nat) : (F.HL_LANE_STAT_rx_inverted i j).width = 1 := rfl
@[simp] theorem F.HL_LANE_STAT_far_lane_key (i j : Nat) : (F.HL_LANE_STAT_far_lane i j).key = (0x90108 + 0x1000 * i + 0x20 * j) * 8 + 23 := rfl
@[simp] theorem F.HL_LANE_STAT_far_lane_width (i j : Nat) : (F.HL_LANE_STAT_far_lane i j).width = 3 := rfl
@[simp] theorem F.HL_LANE_STAT_spare_key (i j : Nat) : (F.HL_LANE_STAT_spare i j).key = (0x90108 + 0x1000 * i + 0x20 * j) * 8 + 22 := rfl
@[simp] theorem F.HL_LANE_STAT_spare_width (i j : Nat) : (F.HL_LANE_STAT_spare i j).width = 1 := rfl
@[simp] theorem F.HL_LANE_STAT_snr_key (i j : Nat) : (F.HL_LANE_STAT_snr i j).key = (0x90108 + 0x1000 * i + 0x20 * j) * 8 + 8 := rfl
@[simp] theorem F.HL_LANE_STAT_snr_width (i j : Nat) : (F.HL_LANE_STAT_snr i j).width = 8 := rfl
@[simp] theorem F.HL_LANE_STAT_retrains_key (i j : Nat) : (F.HL_LANE_STAT_retrains i j).key = (0x90108 + 0x1000 * i + 0x20 * j) * 8 + 0 := rfl
@[simp] theorem F.HL_LANE_STAT_retrains_width (i j : Nat) : (F.HL_LANE_STAT_retrains i j).width = 8 := rfl
@[simp] theorem F.HL_LANE_TXFFE_ACT_taps_key (i j : Nat) : (F.HL_LANE_TXFFE_ACT_taps i j).key = (0x9010C + 0x1000 * i + 0x20 * j) * 8 + 0 := rfl
@[simp] theorem F.HL_LANE_TXFFE_ACT_taps_width (i j : Nat) : (F.HL_LANE_TXFFE_ACT_taps i j).width = 32 := rfl
@[simp] theorem F.HL_LANE_CNT_count_key (i j k : Nat) : (F.HL_LANE_CNT_count i j k).key = (0x94100 + 0x1000 * i + 0x20 * j + 0x4 * k) * 8 + 0 := rfl
@[simp] theorem F.HL_LANE_CNT_count_width (i j k : Nat) : (F.HL_LANE_CNT_count i j k).width = 32 := rfl
@[simp] theorem F.PORT_CFG_valid_key (i j : Nat) : (F.PORT_CFG_valid i j).key = (0xA0100 + 0x1000 * i + 0x40 * j) * 8 + 31 := rfl
@[simp] theorem F.PORT_CFG_valid_width (i j : Nat) : (F.PORT_CFG_valid i j).width = 1 := rfl
@[simp] theorem F.PORT_CFG_type_key (i j : Nat) : (F.PORT_CFG_type i j).key = (0xA0100 + 0x1000 * i + 0x40 * j) * 8 + 29 := rfl
@[simp] theorem F.PORT_CFG_type_width (i j : Nat) : (F.PORT_CFG_type i j).width = 2 := rfl
@[simp] theorem F.PORT_CFG_size_key (i j : Nat) : (F.PORT_CFG_size i j).key = (0xA0100 + 0x1000 * i + 0x40 * j) * 8 + 26 := rfl
@[simp] theorem F.PORT_CFG_size_width (i j : Nat) : (F.PORT_CFG_size i j).width = 3 := rfl
@[simp] theorem F.PORT_CFG_mapping_key (i j : Nat) : (F.PORT_CFG_mapping i j).key = (0xA0100 + 0x1000 * i + 0x40 * j) * 8 + 25 := rfl
@[simp] theorem F.PORT_CFG_mapping_width (i j : Nat) : (F.PORT_CFG_mapping i j).width = 1 := rfl
@[simp] theorem F.PORT_CFG_rs_fec_key (i j : Nat) : (F.PORT_CFG_rs_fec i j).key = (0xA0100 + 0x1000 * i + 0x40 * j) * 8 + 24 := rfl
@[simp] theorem F.PORT_CFG_rs_fec_width (i j : Nat) : (F.PORT_CFG_rs_fec i j).width = 1 := rfl
@[simp] theorem F.PORT_CFG_group_key (i j : Nat) : (F.PORT_CFG_group i j).key = (0xA0100 + 0x1000 * i + 0x40 * j) * 8 + 22 := rfl
@[simp] theorem F.PORT_CFG_group_width (i j : Nat) : (F.PORT_CFG_group i j).width = 2 := rfl
@[simp] theorem F.PORT_CFG_first_lane_key (i j : Nat) : (F.PORT_CFG_first_lane i j).key = (0xA0100 + 0x1000 * i + 0x40 * j) * 8 + 19 := rfl
@[simp] theorem F.PORT_CFG_first_lane_width (i j : Nat) : (F.PORT_CFG_first_lane i j).width = 3 := rfl
@[simp] theorem F.PORT_CFG_lanes_key (i j : Nat) : (F.PORT_CFG_lanes i j).key = (0xA0100 + 0x1000 * i + 0x40 * j) * 8 + 16 := rfl
@[simp] theorem F.PORT_CFG_lanes_width (i j : Nat) : (F.PORT_CFG_lanes i j).width = 2 := rfl
@[simp] theorem F.PORT_CFG_slm_key (i j : Nat) : (F.PORT_CFG_slm i j).key = (0xA0100 + 0x1000 * i + 0x40 * j) * 8 + 14 := rfl
@[simp] theorem F.PORT_CFG_slm_width (i j : Nat) : (F.PORT_CFG_slm i j).width = 2 := rfl
@[simp] theorem F.PORT_CFG_spare_en_key (i j : Nat) : (F.PORT_CFG_spare_en i j).key = (0xA0100 + 0x1000 * i + 0x40 * j) * 8 + 13 := rfl
@[simp] theorem F.PORT_CFG_spare_en_width (i j : Nat) : (F.PORT_CFG_spare_en i j).width = 1 := rfl
@[simp] theorem F.PORT_CFG_spare_lane_key (i j : Nat) : (F.PORT_CFG_spare_lane i j).key = (0xA0100 + 0x1000 * i + 0x40 * j) * 8 + 10 := rfl
@[simp] theorem F.PORT_CFG_spare_lane_width (i j : Nat) : (F.PORT_CFG_spare_lane i j).width = 3 := rfl
@[simp] theorem F.PORT_CFG_sleep_en_key (i j : Nat) : (F.PORT_CFG_sleep_en i j).key = (0xA0100 + 0x1000 * i + 0x40 * j) * 8 + 9 := rfl
@[simp] theorem F.PORT_CFG_sleep_en_width (i j : Nat) : (F.PORT_CFG_sleep_en i j).width = 1 := rfl
@[simp] theorem F.PORT_CFG_fcs_bad_key (i j : Nat) : (F.PORT_CFG_fcs_bad i j).key = (0xA0100 + 0x1000 * i + 0x40 * j) * 8 + 8 := rfl
@[simp] theorem F.PORT_CFG_fcs_bad_width (i j : Nat) : (F.PORT_CFG_fcs_bad i j).width = 1 := rfl
@[simp] theorem F.PORT_FRAME_sleep_delay_key (i j : Nat) : (F.PORT_FRAME_sleep_delay i j).key = (0xA0104 + 0x1000 * i + 0x40 * j) * 8 + 16 := rfl
@[simp] theorem F.PORT_FRAME_sleep_delay_width (i j : Nat) : (F.PORT_FRAME_sleep_delay i j).width = 10 := rfl
@[simp] theorem F.PORT_FRAME_max_frame_key (i j : Nat) : (F.PORT_FRAME_max_frame i j).key = (0xA0104 + 0x1000 * i + 0x40 * j) * 8 + 0 := rfl
@[simp] theorem F.PORT_FRAME_max_frame_width (i j : Nat) : (F.PORT_FRAME_max_frame i j).width = 14 := rfl
@[simp] theorem F.PORT_GID_gid_key (i j : Nat) : (F.PORT_GID_gid i j).key = (0xA0108 + 0x1000 * i + 0x40 * j) * 8 + 0 := rfl
@[simp] theorem F.PORT_GID_gid_width (i j : Nat) : (F.PORT_GID_gid i j).width = 20 := rfl
@[simp] theorem F.PORT_EXCH_window_key (i j : Nat) : (F.PORT_EXCH_window i j).key = (0xA010C + 0x1000 * i + 0x40 * j) * 8 + 0 := rfl
@[simp] theorem F.PORT_EXCH_window_width (i j : Nat) : (F.PORT_EXCH_window i j).width = 8 := rfl
@[simp] theorem F.PORT_STAT_state_key (i j : Nat) : (F.PORT_STAT_state i j).key = (0xA0110 + 0x1000 * i + 0x40 * j) * 8 + 29 := rfl
@[simp] theorem F.PORT_STAT_state_width (i j : Nat) : (F.PORT_STAT_state i j).width = 3 := rfl
@[simp] theorem F.PORT_STAT_slm_active_key (i j : Nat) : (F.PORT_STAT_slm_active i j).key = (0xA0110 + 0x1000 * i + 0x40 * j) * 8 + 28 := rfl
@[simp] theorem F.PORT_STAT_slm_active_width (i j : Nat) : (F.PORT_STAT_slm_active i j).width = 1 := rfl
@[simp] theorem F.PORT_STAT_spare_ready_key (i j : Nat) : (F.PORT_STAT_spare_ready i j).key = (0xA0110 + 0x1000 * i + 0x40 * j) * 8 + 27 := rfl
@[simp] theorem F.PORT_STAT_spare_ready_width (i j : Nat) : (F.PORT_STAT_spare_ready i j).width = 1 := rfl
@[simp] theorem F.PORT_STAT_spare_used_key (i j : Nat) : (F.PORT_STAT_spare_used i j).key = (0xA0110 + 0x1000 * i + 0x40 * j) * 8 + 26 := rfl
@[simp] theorem F.PORT_STAT_spare_used_width (i j : Nat) : (F.PORT_STAT_spare_used i j).width = 1 := rfl
@[simp] theorem F.PORT_STAT_tx_asleep_key (i j : Nat) : (F.PORT_STAT_tx_asleep i j).key = (0xA0110 + 0x1000 * i + 0x40 * j) * 8 + 25 := rfl
@[simp] theorem F.PORT_STAT_tx_asleep_width (i j : Nat) : (F.PORT_STAT_tx_asleep i j).width = 1 := rfl
@[simp] theorem F.PORT_STAT_rx_asleep_key (i j : Nat) : (F.PORT_STAT_rx_asleep i j).key = (0xA0110 + 0x1000 * i + 0x40 * j) * 8 + 24 := rfl
@[simp] theorem F.PORT_STAT_rx_asleep_width (i j : Nat) : (F.PORT_STAT_rx_asleep i j).width = 1 := rfl
@[simp] theorem F.PORT_STAT_rx_local_fault_key (i j : Nat) : (F.PORT_STAT_rx_local_fault i j).key = (0xA0110 + 0x1000 * i + 0x40 * j) * 8 + 23 := rfl
@[simp] theorem F.PORT_STAT_rx_local_fault_width (i j : Nat) : (F.PORT_STAT_rx_local_fault i j).width = 1 := rfl
@[simp] theorem F.PORT_STAT_rx_remote_fault_key (i j : Nat) : (F.PORT_STAT_rx_remote_fault i j).key = (0xA0110 + 0x1000 * i + 0x40 * j) * 8 + 22 := rfl
@[simp] theorem F.PORT_STAT_rx_remote_fault_width (i j : Nat) : (F.PORT_STAT_rx_remote_fault i j).width = 1 := rfl
@[simp] theorem F.PORT_STAT_flexo_lof_key (i j : Nat) : (F.PORT_STAT_flexo_lof i j).key = (0xA0110 + 0x1000 * i + 0x40 * j) * 8 + 21 := rfl
@[simp] theorem F.PORT_STAT_flexo_lof_width (i j : Nat) : (F.PORT_STAT_flexo_lof i j).width = 1 := rfl
@[simp] theorem F.PORT_STAT_gid_mismatch_key (i j : Nat) : (F.PORT_STAT_gid_mismatch i j).key = (0xA0110 + 0x1000 * i + 0x40 * j) * 8 + 20 := rfl
@[simp] theorem F.PORT_STAT_gid_mismatch_width (i j : Nat) : (F.PORT_STAT_gid_mismatch i j).width = 1 := rfl
@[simp] theorem F.PORT_STAT_exch_result_key (i j : Nat) : (F.PORT_STAT_exch_result i j).key = (0xA0110 + 0x1000 * i + 0x40 * j) * 8 + 16 := rfl
@[simp] theorem F.PORT_STAT_exch_result_width (i j : Nat) : (F.PORT_STAT_exch_result i j).width = 4 := rfl
@[simp] theorem F.PORT_LANEMAP_map_key (i j : Nat) : (F.PORT_LANEMAP_map i j).key = (0xA0114 + 0x1000 * i + 0x40 * j) * 8 + 0 := rfl
@[simp] theorem F.PORT_LANEMAP_map_width (i j : Nat) : (F.PORT_LANEMAP_map i j).width = 32 := rfl
@[simp] theorem F.PORT_PARTNER_tag_key (i j : Nat) : (F.PORT_PARTNER_tag i j).key = (0xA0118 + 0x1000 * i + 0x40 * j) * 8 + 8 := rfl
@[simp] theorem F.PORT_PARTNER_tag_width (i j : Nat) : (F.PORT_PARTNER_tag i j).width = 24 := rfl
@[simp] theorem F.PORT_PARTNER_port_key (i j : Nat) : (F.PORT_PARTNER_port i j).key = (0xA0118 + 0x1000 * i + 0x40 * j) * 8 + 0 := rfl
@[simp] theorem F.PORT_PARTNER_port_width (i j : Nat) : (F.PORT_PARTNER_port i j).width = 8 := rfl
@[simp] theorem F.PORT_CNT_count_key (i j k : Nat) : (F.PORT_CNT_count i j k).key = (0xA4100 + 0x1000 * i + 0x40 * j + 0x4 * k) * 8 + 0 := rfl
@[simp] theorem F.PORT_CNT_count_width (i j k : Nat) : (F.PORT_CNT_count i j k).width = 32 := rfl
@[simp] theorem F.CLS_CTRL_active_bank_key : F.CLS_CTRL_active_bank.key = 0xB0040 * 8 + 0 := rfl
@[simp] theorem F.CLS_CTRL_active_bank_width : F.CLS_CTRL_active_bank.width = 1 := rfl
@[simp] theorem F.CLS_STAT_bank1_state_key : F.CLS_STAT_bank1_state.key = 0xB0044 * 8 + 30 := rfl
@[simp] theorem F.CLS_STAT_bank1_state_width : F.CLS_STAT_bank1_state.width = 2 := rfl
@[simp] theorem F.CLS_STAT_bank0_state_key : F.CLS_STAT_bank0_state.key = 0xB0044 * 8 + 28 := rfl
@[simp] theorem F.CLS_STAT_bank0_state_width : F.CLS_STAT_bank0_state.width = 2 := rfl
@[simp] theorem F.CLS_STAT_pipes_active_key : F.CLS_STAT_pipes_active.key = 0xB0044 * 8 + 8 := rfl
@[simp] theorem F.CLS_STAT_pipes_active_width : F.CLS_STAT_pipes_active.width = 3 := rfl
@[simp] theorem F.CLS_BANK_DRAIN_count_key : F.CLS_BANK_DRAIN_count.key = 0xB0048 * 8 + 0 := rfl
@[simp] theorem F.CLS_BANK_DRAIN_count_width : F.CLS_BANK_DRAIN_count.width = 16 := rfl
@[simp] theorem F.CLS_BANK_BAD_bad_key (i : Nat) : (F.CLS_BANK_BAD_bad i).key = (0xB0050 + 0x4 * i) * 8 + 0 := rfl
@[simp] theorem F.CLS_BANK_BAD_bad_width (i : Nat) : (F.CLS_BANK_BAD_bad i).width = 18 := rfl
@[simp] theorem F.CLS_BANK_FIRST_BAD_offset_key (i : Nat) : (F.CLS_BANK_FIRST_BAD_offset i).key = (0xB0058 + 0x4 * i) * 8 + 0 := rfl
@[simp] theorem F.CLS_BANK_FIRST_BAD_offset_width (i : Nat) : (F.CLS_BANK_FIRST_BAD_offset i).width = 24 := rfl
@[simp] theorem F.CLS_RECIRC_LEVEL_reorder_key : F.CLS_RECIRC_LEVEL_reorder.key = 0xB0060 * 8 + 16 := rfl
@[simp] theorem F.CLS_RECIRC_LEVEL_reorder_width : F.CLS_RECIRC_LEVEL_reorder.width = 14 := rfl
@[simp] theorem F.CLS_RECIRC_LEVEL_recirc_key : F.CLS_RECIRC_LEVEL_recirc.key = 0xB0060 * 8 + 0 := rfl
@[simp] theorem F.CLS_RECIRC_LEVEL_recirc_width : F.CLS_RECIRC_LEVEL_recirc.width = 11 := rfl
@[simp] theorem F.CLS_PIPE_STAT_state_key (i : Nat) : (F.CLS_PIPE_STAT_state i).key = (0xB0080 + 0x4 * i) * 8 + 16 := rfl
@[simp] theorem F.CLS_PIPE_STAT_state_width (i : Nat) : (F.CLS_PIPE_STAT_state i).width = 2 := rfl
@[simp] theorem F.CLS_PIPE_STAT_suspect_key (i : Nat) : (F.CLS_PIPE_STAT_suspect i).key = (0xB0080 + 0x4 * i) * 8 + 9 := rfl
@[simp] theorem F.CLS_PIPE_STAT_suspect_width (i : Nat) : (F.CLS_PIPE_STAT_suspect i).width = 1 := rfl
@[simp] theorem F.CLS_PIPE_STAT_mismatches_key (i : Nat) : (F.CLS_PIPE_STAT_mismatches i).key = (0xB0080 + 0x4 * i) * 8 + 0 := rfl
@[simp] theorem F.CLS_PIPE_STAT_mismatches_width (i : Nat) : (F.CLS_PIPE_STAT_mismatches i).width = 8 := rfl
@[simp] theorem F.CLS_CNT_count_key (i : Nat) : (F.CLS_CNT_count i).key = (0xB00C0 + 0x4 * i) * 8 + 0 := rfl
@[simp] theorem F.CLS_CNT_count_width (i : Nat) : (F.CLS_CNT_count i).width = 32 := rfl
@[simp] theorem F.CLS_PORT_CNT_count_key (i j k : Nat) : (F.CLS_PORT_CNT_count i j k).key = (0xB4100 + 0x1000 * i + 0x40 * j + 0x4 * k) * 8 + 0 := rfl
@[simp] theorem F.CLS_PORT_CNT_count_width (i j k : Nat) : (F.CLS_PORT_CNT_count i j k).width = 32 := rfl
@[simp] theorem F.BUF_DESKEW_BASE_page_key : F.BUF_DESKEW_BASE_page.key = 0xC0040 * 8 + 0 := rfl
@[simp] theorem F.BUF_DESKEW_BASE_page_width : F.BUF_DESKEW_BASE_page.width = 18 := rfl
@[simp] theorem F.BUF_DESKEW_SIZE_pages_key : F.BUF_DESKEW_SIZE_pages.key = 0xC0044 * 8 + 0 := rfl
@[simp] theorem F.BUF_DESKEW_SIZE_pages_width : F.BUF_DESKEW_SIZE_pages.width = 18 := rfl
@[simp] theorem F.BUF_CAPTURE_BASE_page_key : F.BUF_CAPTURE_BASE_page.key = 0xC0048 * 8 + 0 := rfl
@[simp] theorem F.BUF_CAPTURE_BASE_page_width : F.BUF_CAPTURE_BASE_page.width = 18 := rfl
@[simp] theorem F.BUF_CAPTURE_SIZE_pages_key : F.BUF_CAPTURE_SIZE_pages.key = 0xC004C * 8 + 0 := rfl
@[simp] theorem F.BUF_CAPTURE_SIZE_pages_width : F.BUF_CAPTURE_SIZE_pages.width = 18 := rfl
@[simp] theorem F.BUF_TEST_BASE_page_key : F.BUF_TEST_BASE_page.key = 0xC0050 * 8 + 0 := rfl
@[simp] theorem F.BUF_TEST_BASE_page_width : F.BUF_TEST_BASE_page.width = 18 := rfl
@[simp] theorem F.BUF_TEST_SIZE_pages_key : F.BUF_TEST_SIZE_pages.key = 0xC0054 * 8 + 0 := rfl
@[simp] theorem F.BUF_TEST_SIZE_pages_width : F.BUF_TEST_SIZE_pages.width = 18 := rfl
@[simp] theorem F.BUF_DESKEW_USED_pages_key : F.BUF_DESKEW_USED_pages.key = 0xC0058 * 8 + 0 := rfl
@[simp] theorem F.BUF_DESKEW_USED_pages_width : F.BUF_DESKEW_USED_pages.width = 18 := rfl
@[simp] theorem F.BUF_BW_share_key : F.BUF_BW_share.key = 0xC005C * 8 + 0 := rfl
@[simp] theorem F.BUF_BW_share_width : F.BUF_BW_share.width = 10 := rfl
@[simp] theorem F.BUF_SCRUB_CTRL_en_key : F.BUF_SCRUB_CTRL_en.key = 0xC4040 * 8 + 31 := rfl
@[simp] theorem F.BUF_SCRUB_CTRL_en_width : F.BUF_SCRUB_CTRL_en.width = 1 := rfl
@[simp] theorem F.BUF_SCRUB_STAT_late_key : F.BUF_SCRUB_STAT_late.key = 0xC4044 * 8 + 31 := rfl
@[simp] theorem F.BUF_SCRUB_STAT_late_width : F.BUF_SCRUB_STAT_late.width = 1 := rfl
@[simp] theorem F.BUF_SCRUB_STAT_addr_key : F.BUF_SCRUB_STAT_addr.key = 0xC4044 * 8 + 0 := rfl
@[simp] theorem F.BUF_SCRUB_STAT_addr_width : F.BUF_SCRUB_STAT_addr.width = 29 := rfl
@[simp] theorem F.BUF_SCRUB_PASSES_passes_key : F.BUF_SCRUB_PASSES_passes.key = 0xC4048 * 8 + 0 := rfl
@[simp] theorem F.BUF_SCRUB_PASSES_passes_width : F.BUF_SCRUB_PASSES_passes.width = 32 := rfl
@[simp] theorem F.BUF_ECC_CTRL_ce_repeat_key : F.BUF_ECC_CTRL_ce_repeat.key = 0xC1040 * 8 + 28 := rfl
@[simp] theorem F.BUF_ECC_CTRL_ce_repeat_width : F.BUF_ECC_CTRL_ce_repeat.width = 4 := rfl
@[simp] theorem F.BUF_ECC_CTRL_ce_window_key : F.BUF_ECC_CTRL_ce_window.key = 0xC1040 * 8 + 16 := rfl
@[simp] theorem F.BUF_ECC_CTRL_ce_window_width : F.BUF_ECC_CTRL_ce_window.width = 12 := rfl
@[simp] theorem F.BUF_ECC_CTRL_wb_en_key : F.BUF_ECC_CTRL_wb_en.key = 0xC1040 * 8 + 0 := rfl
@[simp] theorem F.BUF_ECC_CTRL_wb_en_width : F.BUF_ECC_CTRL_wb_en.width = 1 := rfl
@[simp] theorem F.BUF_INJ_ADDR_addr_key : F.BUF_INJ_ADDR_addr.key = 0xC10C0 * 8 + 0 := rfl
@[simp] theorem F.BUF_INJ_ADDR_addr_width : F.BUF_INJ_ADDR_addr.width = 29 := rfl
@[simp] theorem F.BUF_INJ_CTRL_busy_key : F.BUF_INJ_CTRL_busy.key = 0xC10C4 * 8 + 31 := rfl
@[simp] theorem F.BUF_INJ_CTRL_busy_width : F.BUF_INJ_CTRL_busy.width = 1 := rfl
@[simp] theorem F.BUF_INJ_CTRL_sym_c_key : F.BUF_INJ_CTRL_sym_c.key = 0xC10C4 * 8 + 24 := rfl
@[simp] theorem F.BUF_INJ_CTRL_sym_c_width : F.BUF_INJ_CTRL_sym_c.width = 6 := rfl
@[simp] theorem F.BUF_INJ_CTRL_sym_b_key : F.BUF_INJ_CTRL_sym_b.key = 0xC10C4 * 8 + 16 := rfl
@[simp] theorem F.BUF_INJ_CTRL_sym_b_width : F.BUF_INJ_CTRL_sym_b.width = 6 := rfl
@[simp] theorem F.BUF_INJ_CTRL_sym_a_key : F.BUF_INJ_CTRL_sym_a.key = 0xC10C4 * 8 + 8 := rfl
@[simp] theorem F.BUF_INJ_CTRL_sym_a_width : F.BUF_INJ_CTRL_sym_a.width = 6 := rfl
@[simp] theorem F.BUF_INJ_XOR_xor_c_key : F.BUF_INJ_XOR_xor_c.key = 0xC10C8 * 8 + 16 := rfl
@[simp] theorem F.BUF_INJ_XOR_xor_c_width : F.BUF_INJ_XOR_xor_c.width = 8 := rfl
@[simp] theorem F.BUF_INJ_XOR_xor_b_key : F.BUF_INJ_XOR_xor_b.key = 0xC10C8 * 8 + 8 := rfl
@[simp] theorem F.BUF_INJ_XOR_xor_b_width : F.BUF_INJ_XOR_xor_b.width = 8 := rfl
@[simp] theorem F.BUF_INJ_XOR_xor_a_key : F.BUF_INJ_XOR_xor_a.key = 0xC10C8 * 8 + 0 := rfl
@[simp] theorem F.BUF_INJ_XOR_xor_a_width : F.BUF_INJ_XOR_xor_a.width = 8 := rfl
@[simp] theorem F.BUF_INJ_ADDR_XOR_addr_xor_key : F.BUF_INJ_ADDR_XOR_addr_xor.key = 0xC10CC * 8 + 0 := rfl
@[simp] theorem F.BUF_INJ_ADDR_XOR_addr_xor_width : F.BUF_INJ_ADDR_XOR_addr_xor.width = 29 := rfl
@[simp] theorem F.BUF_LOG_CTRL_queued_key : F.BUF_LOG_CTRL_queued.key = 0xC2040 * 8 + 16 := rfl
@[simp] theorem F.BUF_LOG_CTRL_queued_width : F.BUF_LOG_CTRL_queued.width = 9 := rfl
@[simp] theorem F.BUF_LOG_CTRL_ovf_key : F.BUF_LOG_CTRL_ovf.key = 0xC2040 * 8 + 0 := rfl
@[simp] theorem F.BUF_LOG_CTRL_ovf_width : F.BUF_LOG_CTRL_ovf.width = 16 := rfl
@[simp] theorem F.BUF_LOG_bits_key (i : Nat) : (F.BUF_LOG_bits i).key = (0xC2050 + 0x4 * i) * 8 + 0 := rfl
@[simp] theorem F.BUF_LOG_bits_width (i : Nat) : (F.BUF_LOG_bits i).width = 32 := rfl
@[simp] theorem F.BUF_RETIRE_op_key : F.BUF_RETIRE_op.key = 0xC3040 * 8 + 31 := rfl
@[simp] theorem F.BUF_RETIRE_op_width : F.BUF_RETIRE_op.width = 1 := rfl
@[simp] theorem F.BUF_RETIRE_page_key : F.BUF_RETIRE_page.key = 0xC3040 * 8 + 0 := rfl
@[simp] theorem F.BUF_RETIRE_page_width : F.BUF_RETIRE_page.width = 18 := rfl
@[simp] theorem F.BUF_RETIRE_STAT_state_key : F.BUF_RETIRE_STAT_state.key = 0xC3048 * 8 + 30 := rfl
@[simp] theorem F.BUF_RETIRE_STAT_state_width : F.BUF_RETIRE_STAT_state.width = 2 := rfl
@[simp] theorem F.BUF_RETIRE_STAT_result_key : F.BUF_RETIRE_STAT_result.key = 0xC3048 * 8 + 24 := rfl
@[simp] theorem F.BUF_RETIRE_STAT_result_width : F.BUF_RETIRE_STAT_result.width = 6 := rfl
@[simp] theorem F.BUF_RETIRE_STAT_page_key : F.BUF_RETIRE_STAT_page.key = 0xC3048 * 8 + 0 := rfl
@[simp] theorem F.BUF_RETIRE_STAT_page_width : F.BUF_RETIRE_STAT_page.width = 18 := rfl
@[simp] theorem F.BUF_POOL_free_key : F.BUF_POOL_free.key = 0xC304C * 8 + 16 := rfl
@[simp] theorem F.BUF_POOL_free_width : F.BUF_POOL_free.width = 13 := rfl
@[simp] theorem F.BUF_POOL_in_use_key : F.BUF_POOL_in_use.key = 0xC304C * 8 + 0 := rfl
@[simp] theorem F.BUF_POOL_in_use_width : F.BUF_POOL_in_use.width = 13 := rfl
@[simp] theorem F.BUF_POOL_CTRL_pool_warn_key : F.BUF_POOL_CTRL_pool_warn.key = 0xC3050 * 8 + 0 := rfl
@[simp] theorem F.BUF_POOL_CTRL_pool_warn_width : F.BUF_POOL_CTRL_pool_warn.width = 13 := rfl
@[simp] theorem F.BUF_REMAP_IDX_idx_key : F.BUF_REMAP_IDX_idx.key = 0xC3054 * 8 + 0 := rfl
@[simp] theorem F.BUF_REMAP_IDX_idx_width : F.BUF_REMAP_IDX_idx.width = 12 := rfl
@[simp] theorem F.BUF_ROWREP_pc_key : F.BUF_ROWREP_pc.key = 0xC3060 * 8 + 18 := rfl
@[simp] theorem F.BUF_ROWREP_pc_width : F.BUF_ROWREP_pc.width = 5 := rfl
@[simp] theorem F.BUF_ROWREP_bank_key : F.BUF_ROWREP_bank.key = 0xC3060 * 8 + 14 := rfl
@[simp] theorem F.BUF_ROWREP_bank_width : F.BUF_ROWREP_bank.width = 4 := rfl
@[simp] theorem F.BUF_ROWREP_row_key : F.BUF_ROWREP_row.key = 0xC3060 * 8 + 0 := rfl
@[simp] theorem F.BUF_ROWREP_row_width : F.BUF_ROWREP_row.width = 14 := rfl
@[simp] theorem F.BUF_ROWREP_STAT_state_key : F.BUF_ROWREP_STAT_state.key = 0xC3068 * 8 + 30 := rfl
@[simp] theorem F.BUF_ROWREP_STAT_state_width : F.BUF_ROWREP_STAT_state.width = 2 := rfl
@[simp] theorem F.BUF_ROWREP_STAT_result_key : F.BUF_ROWREP_STAT_result.key = 0xC3068 * 8 + 24 := rfl
@[simp] theorem F.BUF_ROWREP_STAT_result_width : F.BUF_ROWREP_STAT_result.width = 6 := rfl
@[simp] theorem F.BUF_ROWREP_STAT_bank_spares_key : F.BUF_ROWREP_STAT_bank_spares.key = 0xC3068 * 8 + 16 := rfl
@[simp] theorem F.BUF_ROWREP_STAT_bank_spares_width : F.BUF_ROWREP_STAT_bank_spares.width = 3 := rfl
@[simp] theorem F.BUF_ROWREP_STAT_device_spares_key : F.BUF_ROWREP_STAT_device_spares.key = 0xC3068 * 8 + 0 := rfl
@[simp] theorem F.BUF_ROWREP_STAT_device_spares_width : F.BUF_ROWREP_STAT_device_spares.width = 12 := rfl
@[simp] theorem F.BUF_WIN_PAGE_page_key : F.BUF_WIN_PAGE_page.key = 0xC5040 * 8 + 0 := rfl
@[simp] theorem F.BUF_WIN_PAGE_page_width : F.BUF_WIN_PAGE_page.width = 18 := rfl
@[simp] theorem F.BUF_WIN_STAT_result_key : F.BUF_WIN_STAT_result.key = 0xC5044 * 8 + 0 := rfl
@[simp] theorem F.BUF_WIN_STAT_result_width : F.BUF_WIN_STAT_result.width = 4 := rfl
@[simp] theorem F.BUF_CNT_count_key (i : Nat) : (F.BUF_CNT_count i).key = (0xC1080 + 0x4 * i) * 8 + 0 := rfl
@[simp] theorem F.BUF_CNT_count_width (i : Nat) : (F.BUF_CNT_count i).width = 32 := rfl
@[simp] theorem F.BUF_PC_CE_count_key (i : Nat) : (F.BUF_PC_CE_count i).key = (0xC6100 + 0x8 * i) * 8 + 0 := rfl
@[simp] theorem F.BUF_PC_CE_count_width (i : Nat) : (F.BUF_PC_CE_count i).width = 32 := rfl
@[simp] theorem F.BUF_PC_UE_count_key (i : Nat) : (F.BUF_PC_UE_count i).key = (0xC6104 + 0x8 * i) * 8 + 0 := rfl
@[simp] theorem F.BUF_PC_UE_count_width (i : Nat) : (F.BUF_PC_UE_count i).width = 32 := rfl
@[simp] theorem F.CIP_SA_CFG_valid_key (i : Nat) : (F.CIP_SA_CFG_valid i).key = (0x310000 + 0x10 * i) * 8 + 31 := rfl
@[simp] theorem F.CIP_SA_CFG_valid_width (i : Nat) : (F.CIP_SA_CFG_valid i).width = 1 := rfl
@[simp] theorem F.CIP_SA_CFG_type_key (i : Nat) : (F.CIP_SA_CFG_type i).key = (0x310000 + 0x10 * i) * 8 + 29 := rfl
@[simp] theorem F.CIP_SA_CFG_type_width (i : Nat) : (F.CIP_SA_CFG_type i).width = 2 := rfl
@[simp] theorem F.CIP_SA_CFG_engine_key (i : Nat) : (F.CIP_SA_CFG_engine i).key = (0x310000 + 0x10 * i) * 8 + 28 := rfl
@[simp] theorem F.CIP_SA_CFG_engine_width (i : Nat) : (F.CIP_SA_CFG_engine i).width = 1 := rfl
@[simp] theorem F.CIP_SA_CFG_leaf_key (i : Nat) : (F.CIP_SA_CFG_leaf i).key = (0x310000 + 0x10 * i) * 8 + 16 := rfl
@[simp] theorem F.CIP_SA_CFG_leaf_width (i : Nat) : (F.CIP_SA_CFG_leaf i).width = 10 := rfl
@[simp] theorem F.CIP_SA_CFG_container_key (i : Nat) : (F.CIP_SA_CFG_container i).key = (0x310000 + 0x10 * i) * 8 + 0 := rfl
@[simp] theorem F.CIP_SA_CFG_container_width (i : Nat) : (F.CIP_SA_CFG_container i).width = 6 := rfl
@[simp] theorem F.CIP_SA_POL_require_key (i : Nat) : (F.CIP_SA_POL_require i).key = (0x310004 + 0x10 * i) * 8 + 31 := rfl
@[simp] theorem F.CIP_SA_POL_require_width (i : Nat) : (F.CIP_SA_POL_require i).width = 1 := rfl
@[simp] theorem F.CIP_SA_POL_key_source_key (i : Nat) : (F.CIP_SA_POL_key_source i).key = (0x310004 + 0x10 * i) * 8 + 30 := rfl
@[simp] theorem F.CIP_SA_POL_key_source_width (i : Nat) : (F.CIP_SA_POL_key_source i).width = 1 := rfl
@[simp] theorem F.CIP_SA_POL_auto_rekey_key (i : Nat) : (F.CIP_SA_POL_auto_rekey i).key = (0x310004 + 0x10 * i) * 8 + 29 := rfl
@[simp] theorem F.CIP_SA_POL_auto_rekey_width (i : Nat) : (F.CIP_SA_POL_auto_rekey i).width = 1 := rfl
@[simp] theorem F.CIP_SA_POL_fcs_stomp_key (i : Nat) : (F.CIP_SA_POL_fcs_stomp i).key = (0x310004 + 0x10 * i) * 8 + 28 := rfl
@[simp] theorem F.CIP_SA_POL_fcs_stomp_width (i : Nat) : (F.CIP_SA_POL_fcs_stomp i).width = 1 := rfl
@[simp] theorem F.CIP_SA_POL_limit_exp_key (i : Nat) : (F.CIP_SA_POL_limit_exp i).key = (0x310004 + 0x10 * i) * 8 + 8 := rfl
@[simp] theorem F.CIP_SA_POL_limit_exp_width (i : Nat) : (F.CIP_SA_POL_limit_exp i).width = 6 := rfl
@[simp] theorem F.CIP_SA_PIN_pin_key (i : Nat) : (F.CIP_SA_PIN_pin i).key = (0x310008 + 0x10 * i) * 8 + 0 := rfl
@[simp] theorem F.CIP_SA_PIN_pin_width (i : Nat) : (F.CIP_SA_PIN_pin i).width = 32 := rfl
@[simp] theorem F.CIP_SA_ST_state_key (i : Nat) : (F.CIP_SA_ST_state i).key = (0x31000C + 0x10 * i) * 8 + 30 := rfl
@[simp] theorem F.CIP_SA_ST_state_width (i : Nat) : (F.CIP_SA_ST_state i).width = 2 := rfl
@[simp] theorem F.CIP_SA_ST_block_reason_key (i : Nat) : (F.CIP_SA_ST_block_reason i).key = (0x31000C + 0x10 * i) * 8 + 27 := rfl
@[simp] theorem F.CIP_SA_ST_block_reason_width (i : Nat) : (F.CIP_SA_ST_block_reason i).width = 3 := rfl
@[simp] theorem F.CIP_SA_ST_cur_valid_key (i : Nat) : (F.CIP_SA_ST_cur_valid i).key = (0x31000C + 0x10 * i) * 8 + 26 := rfl
@[simp] theorem F.CIP_SA_ST_cur_valid_width (i : Nat) : (F.CIP_SA_ST_cur_valid i).width = 1 := rfl
@[simp] theorem F.CIP_SA_ST_next_valid_key (i : Nat) : (F.CIP_SA_ST_next_valid i).key = (0x31000C + 0x10 * i) * 8 + 25 := rfl
@[simp] theorem F.CIP_SA_ST_next_valid_width (i : Nat) : (F.CIP_SA_ST_next_valid i).width = 1 := rfl
@[simp] theorem F.CIP_SA_ST_switch_armed_key (i : Nat) : (F.CIP_SA_ST_switch_armed i).key = (0x31000C + 0x10 * i) * 8 + 24 := rfl
@[simp] theorem F.CIP_SA_ST_switch_armed_width (i : Nat) : (F.CIP_SA_ST_switch_armed i).width = 1 := rfl
@[simp] theorem F.CIP_SA_ST_warn_key (i : Nat) : (F.CIP_SA_ST_warn i).key = (0x31000C + 0x10 * i) * 8 + 23 := rfl
@[simp] theorem F.CIP_SA_ST_warn_width (i : Nat) : (F.CIP_SA_ST_warn i).width = 1 := rfl
@[simp] theorem F.CIP_SA_ST_void_rx_key (i : Nat) : (F.CIP_SA_ST_void_rx i).key = (0x31000C + 0x10 * i) * 8 + 22 := rfl
@[simp] theorem F.CIP_SA_ST_void_rx_width (i : Nat) : (F.CIP_SA_ST_void_rx i).width = 1 := rfl
@[simp] theorem F.CIP_SA_USE_use_key (i : Nat) : (F.CIP_SA_USE_use i).key = (0x314000 + 0x10 * i) * 8 + 0 := rfl
@[simp] theorem F.CIP_SA_USE_use_width (i : Nat) : (F.CIP_SA_USE_use i).width = 32 := rfl
@[simp] theorem F.CIP_SA_SWITCH_AT_at_key (i : Nat) : (F.CIP_SA_SWITCH_AT_at i).key = (0x314004 + 0x10 * i) * 8 + 0 := rfl
@[simp] theorem F.CIP_SA_SWITCH_AT_at_width (i : Nat) : (F.CIP_SA_SWITCH_AT_at i).width = 32 := rfl
@[simp] theorem F.CIP_SA_TAGFAIL_count_key (i : Nat) : (F.CIP_SA_TAGFAIL_count i).key = (0x314008 + 0x10 * i) * 8 + 0 := rfl
@[simp] theorem F.CIP_SA_TAGFAIL_count_width (i : Nat) : (F.CIP_SA_TAGFAIL_count i).width = 32 := rfl
@[simp] theorem F.CIP_SA_VOID_count_key (i : Nat) : (F.CIP_SA_VOID_count i).key = (0x31400C + 0x10 * i) * 8 + 0 := rfl
@[simp] theorem F.CIP_SA_VOID_count_width (i : Nat) : (F.CIP_SA_VOID_count i).width = 32 := rfl
@[simp] theorem F.CIP_STAT_overload_key : F.CIP_STAT_overload.key = 0xC8040 * 8 + 30 := rfl
@[simp] theorem F.CIP_STAT_overload_width : F.CIP_STAT_overload.width = 1 := rfl
@[simp] theorem F.CIP_STAT_cores_key : F.CIP_STAT_cores.key = 0xC8040 * 8 + 16 := rfl
@[simp] theorem F.CIP_STAT_cores_width : F.CIP_STAT_cores.width = 4 := rfl
@[simp] theorem F.CIP_STAT_shed_first_key : F.CIP_STAT_shed_first.key = 0xC8040 * 8 + 0 := rfl
@[simp] theorem F.CIP_STAT_shed_first_width : F.CIP_STAT_shed_first.width = 10 := rfl
@[simp] theorem F.CIP_BUDGET_limit_key : F.CIP_BUDGET_limit.key = 0xC8044 * 8 + 16 := rfl
@[simp] theorem F.CIP_BUDGET_limit_width : F.CIP_BUDGET_limit.width = 14 := rfl
@[simp] theorem F.CIP_BUDGET_charge_key : F.CIP_BUDGET_charge.key = 0xC8044 * 8 + 0 := rfl
@[simp] theorem F.CIP_BUDGET_charge_width : F.CIP_BUDGET_charge.width = 14 := rfl
@[simp] theorem F.CIP_CORE_STAT_state_key (i : Nat) : (F.CIP_CORE_STAT_state i).key = (0xC8080 + 0x4 * i) * 8 + 16 := rfl
@[simp] theorem F.CIP_CORE_STAT_state_width (i : Nat) : (F.CIP_CORE_STAT_state i).width = 2 := rfl
@[simp] theorem F.CIP_CORE_STAT_suspect_key (i : Nat) : (F.CIP_CORE_STAT_suspect i).key = (0xC8080 + 0x4 * i) * 8 + 9 := rfl
@[simp] theorem F.CIP_CORE_STAT_suspect_width (i : Nat) : (F.CIP_CORE_STAT_suspect i).width = 1 := rfl
@[simp] theorem F.CIP_CORE_STAT_mismatches_key (i : Nat) : (F.CIP_CORE_STAT_mismatches i).key = (0xC8080 + 0x4 * i) * 8 + 0 := rfl
@[simp] theorem F.CIP_CORE_STAT_mismatches_width (i : Nat) : (F.CIP_CORE_STAT_mismatches i).width = 8 := rfl
@[simp] theorem F.CIP_CNT_count_key (i : Nat) : (F.CIP_CNT_count i).key = (0xC80C0 + 0x4 * i) * 8 + 0 := rfl
@[simp] theorem F.CIP_CNT_count_width (i : Nat) : (F.CIP_CNT_count i).width = 32 := rfl
@[simp] theorem F.CIP_KX_TIME_kx_lead_key : F.CIP_KX_TIME_kx_lead.key = 0xC9040 * 8 + 12 := rfl
@[simp] theorem F.CIP_KX_TIME_kx_lead_width : F.CIP_KX_TIME_kx_lead.width = 20 := rfl
@[simp] theorem F.CIP_KX_TIME_kx_timeout_key : F.CIP_KX_TIME_kx_timeout.key = 0xC9040 * 8 + 0 := rfl
@[simp] theorem F.CIP_KX_TIME_kx_timeout_width : F.CIP_KX_TIME_kx_timeout.width = 12 := rfl
@[simp] theorem F.CIP_KX_STAT_state_key (i : Nat) : (F.CIP_KX_STAT_state i).key = (0xC9080 + 0x4 * i) * 8 + 29 := rfl
@[simp] theorem F.CIP_KX_STAT_state_width (i : Nat) : (F.CIP_KX_STAT_state i).width = 3 := rfl
@[simp] theorem F.CIP_KX_STAT_role_key (i : Nat) : (F.CIP_KX_STAT_role i).key = (0xC9080 + 0x4 * i) * 8 + 28 := rfl
@[simp] theorem F.CIP_KX_STAT_role_width (i : Nat) : (F.CIP_KX_STAT_role i).width = 1 := rfl
@[simp] theorem F.CIP_KX_STAT_result_key (i : Nat) : (F.CIP_KX_STAT_result i).key = (0xC9080 + 0x4 * i) * 8 + 24 := rfl
@[simp] theorem F.CIP_KX_STAT_result_width (i : Nat) : (F.CIP_KX_STAT_result i).width = 4 := rfl
@[simp] theorem F.CIP_KX_STAT_rx_key (i : Nat) : (F.CIP_KX_STAT_rx i).key = (0xC9080 + 0x4 * i) * 8 + 10 := rfl
@[simp] theorem F.CIP_KX_STAT_rx_width (i : Nat) : (F.CIP_KX_STAT_rx i).width = 10 := rfl
@[simp] theorem F.CIP_KX_STAT_tx_key (i : Nat) : (F.CIP_KX_STAT_tx i).key = (0xC9080 + 0x4 * i) * 8 + 0 := rfl
@[simp] theorem F.CIP_KX_STAT_tx_width (i : Nat) : (F.CIP_KX_STAT_tx i).width = 10 := rfl
@[simp] theorem F.ENC_STAT_claimed_key : F.ENC_STAT_claimed.key = 0xFC040 * 8 + 31 := rfl
@[simp] theorem F.ENC_STAT_claimed_width : F.ENC_STAT_claimed.width = 1 := rfl
@[simp] theorem F.ENC_STAT_klk_valid_key : F.ENC_STAT_klk_valid.key = 0xFC040 * 8 + 30 := rfl
@[simp] theorem F.ENC_STAT_klk_valid_width : F.ENC_STAT_klk_valid.width = 1 := rfl
@[simp] theorem F.ENC_STAT_zeroised_key : F.ENC_STAT_zeroised.key = 0xFC040 * 8 + 29 := rfl
@[simp] theorem F.ENC_STAT_zeroised_width : F.ENC_STAT_zeroised.width = 1 := rfl
@[simp] theorem F.ENC_STAT_response_key : F.ENC_STAT_response.key = 0xFC040 * 8 + 28 := rfl
@[simp] theorem F.ENC_STAT_response_width : F.ENC_STAT_response.width = 1 := rfl
@[simp] theorem F.ENC_STAT_bcr_keys_key : F.ENC_STAT_bcr_keys.key = 0xFC040 * 8 + 24 := rfl
@[simp] theorem F.ENC_STAT_bcr_keys_width : F.ENC_STAT_bcr_keys.width = 4 := rfl
@[simp] theorem F.ENC_STAT_officers_key : F.ENC_STAT_officers.key = 0xFC040 * 8 + 20 := rfl
@[simp] theorem F.ENC_STAT_officers_width : F.ENC_STAT_officers.width = 4 := rfl
@[simp] theorem F.ENC_STAT_debug_level_key : F.ENC_STAT_debug_level.key = 0xFC040 * 8 + 18 := rfl
@[simp] theorem F.ENC_STAT_debug_level_width : F.ENC_STAT_debug_level.width = 2 := rfl
@[simp] theorem F.ENC_STAT_pending_key : F.ENC_STAT_pending.key = 0xFC040 * 8 + 12 := rfl
@[simp] theorem F.ENC_STAT_pending_width : F.ENC_STAT_pending.width = 4 := rfl
@[simp] theorem F.ENC_SERIAL_LO_serial_key : F.ENC_SERIAL_LO_serial.key = 0xFC044 * 8 + 0 := rfl
@[simp] theorem F.ENC_SERIAL_LO_serial_width : F.ENC_SERIAL_LO_serial.width = 32 := rfl
@[simp] theorem F.ENC_SERIAL_HI_serial_key : F.ENC_SERIAL_HI_serial.key = 0xFC048 * 8 + 0 := rfl
@[simp] theorem F.ENC_SERIAL_HI_serial_width : F.ENC_SERIAL_HI_serial.width = 32 := rfl
@[simp] theorem F.ENC_ZREC_active_key : F.ENC_ZREC_active.key = 0xFC04C * 8 + 31 := rfl
@[simp] theorem F.ENC_ZREC_active_width : F.ENC_ZREC_active.width = 1 := rfl
@[simp] theorem F.ENC_ZREC_causes_key : F.ENC_ZREC_causes.key = 0xFC04C * 8 + 16 := rfl
@[simp] theorem F.ENC_ZREC_causes_width : F.ENC_ZREC_causes.width = 8 := rfl
@[simp] theorem F.ENC_ZREC_count_key : F.ENC_ZREC_count.key = 0xFC04C * 8 + 0 := rfl
@[simp] theorem F.ENC_ZREC_count_width : F.ENC_ZREC_count.width = 16 := rfl
@[simp] theorem F.ENC_ZREC_TIME_LO_time_key : F.ENC_ZREC_TIME_LO_time.key = 0xFC050 * 8 + 0 := rfl
@[simp] theorem F.ENC_ZREC_TIME_LO_time_width : F.ENC_ZREC_TIME_LO_time.width = 32 := rfl
@[simp] theorem F.ENC_ZREC_TIME_HI_time_key : F.ENC_ZREC_TIME_HI_time.key = 0xFC054 * 8 + 0 := rfl
@[simp] theorem F.ENC_ZREC_TIME_HI_time_width : F.ENC_ZREC_TIME_HI_time.width = 32 := rfl
@[simp] theorem F.ENC_DBG_EXPIRE_LO_expire_key : F.ENC_DBG_EXPIRE_LO_expire.key = 0xFC058 * 8 + 0 := rfl
@[simp] theorem F.ENC_DBG_EXPIRE_LO_expire_width : F.ENC_DBG_EXPIRE_LO_expire.width = 32 := rfl
@[simp] theorem F.ENC_DBG_EXPIRE_HI_expire_key : F.ENC_DBG_EXPIRE_HI_expire.key = 0xFC05C * 8 + 0 := rfl
@[simp] theorem F.ENC_DBG_EXPIRE_HI_expire_width : F.ENC_DBG_EXPIRE_HI_expire.width = 32 := rfl
@[simp] theorem F.ENC_CHG_LAST_handle_key : F.ENC_CHG_LAST_handle.key = 0xFC060 * 8 + 28 := rfl
@[simp] theorem F.ENC_CHG_LAST_handle_width : F.ENC_CHG_LAST_handle.width = 2 := rfl
@[simp] theorem F.ENC_CHG_LAST_op_key : F.ENC_CHG_LAST_op.key = 0xFC060 * 8 + 16 := rfl
@[simp] theorem F.ENC_CHG_LAST_op_width : F.ENC_CHG_LAST_op.width = 12 := rfl
@[simp] theorem F.ENC_CHG_LAST_detail_key : F.ENC_CHG_LAST_detail.key = 0xFC060 * 8 + 8 := rfl
@[simp] theorem F.ENC_CHG_LAST_detail_width : F.ENC_CHG_LAST_detail.width = 8 := rfl
@[simp] theorem F.ENC_CHG_LAST_result_key : F.ENC_CHG_LAST_result.key = 0xFC060 * 8 + 0 := rfl
@[simp] theorem F.ENC_CHG_LAST_result_width : F.ENC_CHG_LAST_result.width = 8 := rfl
@[simp] theorem F.ENC_XBUF_bytes_key (i : Nat) : (F.ENC_XBUF_bytes i).key = (0xFEA00 + 0x4 * i) * 8 + 0 := rfl
@[simp] theorem F.ENC_XBUF_bytes_width (i : Nat) : (F.ENC_XBUF_bytes i).width = 32 := rfl
@[simp] theorem F.TMP_STAT_latched_key : F.TMP_STAT_latched.key = 0xFD040 * 8 + 31 := rfl
@[simp] theorem F.TMP_STAT_latched_width : F.TMP_STAT_latched.width = 1 := rfl
@[simp] theorem F.TMP_STAT_latched_causes_key : F.TMP_STAT_latched_causes.key = 0xFD040 * 8 + 8 := rfl
@[simp] theorem F.TMP_STAT_latched_causes_width : F.TMP_STAT_latched_causes.width = 8 := rfl
@[simp] theorem F.TMP_STAT_raw_key : F.TMP_STAT_raw.key = 0xFD040 * 8 + 0 := rfl
@[simp] theorem F.TMP_STAT_raw_width : F.TMP_STAT_raw.width = 8 := rfl
@[simp] theorem F.TMP_CFG_response_key : F.TMP_CFG_response.key = 0xFD044 * 8 + 31 := rfl
@[simp] theorem F.TMP_CFG_response_width : F.TMP_CFG_response.width = 1 := rfl
@[simp] theorem F.TMP_CFG_temp_high_key : F.TMP_CFG_temp_high.key = 0xFD044 * 8 + 16 := rfl
@[simp] theorem F.TMP_CFG_temp_high_width : F.TMP_CFG_temp_high.width = 8 := rfl
@[simp] theorem F.TMP_CFG_temp_low_key : F.TMP_CFG_temp_low.key = 0xFD044 * 8 + 8 := rfl
@[simp] theorem F.TMP_CFG_temp_low_width : F.TMP_CFG_temp_low.width = 8 := rfl
@[simp] theorem F.TMP_CFG_enables_key : F.TMP_CFG_enables.key = 0xFD044 * 8 + 0 := rfl
@[simp] theorem F.TMP_CFG_enables_width : F.TMP_CFG_enables.width = 8 := rfl
@[simp] theorem F.TMP_LIGHT_sensors_key : F.TMP_LIGHT_sensors.key = 0xFD048 * 8 + 0 := rfl
@[simp] theorem F.TMP_LIGHT_sensors_width : F.TMP_LIGHT_sensors.width = 16 := rfl
@[simp] theorem F.UBH_CTRL_hold_key (i : Nat) : (F.UBH_CTRL_hold i).key = (0xD8040 + 0x1000 * i) * 8 + 31 := rfl
@[simp] theorem F.UBH_CTRL_hold_width (i : Nat) : (F.UBH_CTRL_hold i).width = 1 := rfl
@[simp] theorem F.UBH_CTRL_tx_allow_key (i : Nat) : (F.UBH_CTRL_tx_allow i).key = (0xD8040 + 0x1000 * i) * 8 + 8 := rfl
@[simp] theorem F.UBH_CTRL_tx_allow_width (i : Nat) : (F.UBH_CTRL_tx_allow i).width = 1 := rfl
@[simp] theorem F.UBH_STAT_link_key (i : Nat) : (F.UBH_STAT_link i).key = (0xD8044 + 0x1000 * i) * 8 + 29 := rfl
@[simp] theorem F.UBH_STAT_link_width (i : Nat) : (F.UBH_STAT_link i).width = 3 := rfl
@[simp] theorem F.UBH_STAT_auth_key (i : Nat) : (F.UBH_STAT_auth i).key = (0xD8044 + 0x1000 * i) * 8 + 27 := rfl
@[simp] theorem F.UBH_STAT_auth_width (i : Nat) : (F.UBH_STAT_auth i).width = 2 := rfl
@[simp] theorem F.UBH_STAT_override_key (i : Nat) : (F.UBH_STAT_override i).key = (0xD8044 + 0x1000 * i) * 8 + 26 := rfl
@[simp] theorem F.UBH_STAT_override_width (i : Nat) : (F.UBH_STAT_override i).width = 1 := rfl
@[simp] theorem F.UBH_STAT_tx_enabled_key (i : Nat) : (F.UBH_STAT_tx_enabled i).key = (0xD8044 + 0x1000 * i) * 8 + 25 := rfl
@[simp] theorem F.UBH_STAT_tx_enabled_width (i : Nat) : (F.UBH_STAT_tx_enabled i).width = 1 := rfl
@[simp] theorem F.UBH_STAT_tx_ready_key (i : Nat) : (F.UBH_STAT_tx_ready i).key = (0xD8044 + 0x1000 * i) * 8 + 24 := rfl
@[simp] theorem F.UBH_STAT_tx_ready_width (i : Nat) : (F.UBH_STAT_tx_ready i).width = 1 := rfl
@[simp] theorem F.UBH_STAT_rx_los_key (i : Nat) : (F.UBH_STAT_rx_los i).key = (0xD8044 + 0x1000 * i) * 8 + 23 := rfl
@[simp] theorem F.UBH_STAT_rx_los_width (i : Nat) : (F.UBH_STAT_rx_los i).width = 1 := rfl
@[simp] theorem F.UBH_STAT_present_key (i : Nat) : (F.UBH_STAT_present i).key = (0xD8044 + 0x1000 * i) * 8 + 22 := rfl
@[simp] theorem F.UBH_STAT_present_width (i : Nat) : (F.UBH_STAT_present i).width = 1 := rfl
@[simp] theorem F.UBH_STAT_case_temp_key (i : Nat) : (F.UBH_STAT_case_temp i).key = (0xD8044 + 0x1000 * i) * 8 + 8 := rfl
@[simp] theorem F.UBH_STAT_case_temp_width (i : Nat) : (F.UBH_STAT_case_temp i).width = 8 := rfl
@[simp] theorem F.UBH_STAT_alerts_key (i : Nat) : (F.UBH_STAT_alerts i).key = (0xD8044 + 0x1000 * i) * 8 + 0 := rfl
@[simp] theorem F.UBH_STAT_alerts_width (i : Nat) : (F.UBH_STAT_alerts i).width = 5 := rfl
@[simp] theorem F.UBH_ID_LO_id_key (i : Nat) : (F.UBH_ID_LO_id i).key = (0xD8048 + 0x1000 * i) * 8 + 0 := rfl
@[simp] theorem F.UBH_ID_LO_id_width (i : Nat) : (F.UBH_ID_LO_id i).width = 32 := rfl
@[simp] theorem F.UBH_ID_HI_id_key (i : Nat) : (F.UBH_ID_HI_id i).key = (0xD804C + 0x1000 * i) * 8 + 0 := rfl
@[simp] theorem F.UBH_ID_HI_id_width (i : Nat) : (F.UBH_ID_HI_id i).width = 32 := rfl
@[simp] theorem F.UBH_DECL_bytes_key (i j : Nat) : (F.UBH_DECL_bytes i j).key = (0xD8080 + 0x1000 * i + 0x4 * j) * 8 + 0 := rfl
@[simp] theorem F.UBH_DECL_bytes_width (i j : Nat) : (F.UBH_DECL_bytes i j).width = 32 := rfl
@[simp] theorem F.UBH_CNT_count_key (i j : Nat) : (F.UBH_CNT_count i j).key = (0xD80C0 + 0x1000 * i + 0x4 * j) * 8 + 0 := rfl
@[simp] theorem F.UBH_CNT_count_width (i j : Nat) : (F.UBH_CNT_count i j).width = 32 := rfl
@[simp] theorem F.UBH_PT_CMD_write_key (i : Nat) : (F.UBH_PT_CMD_write i).key = (0xD8100 + 0x1000 * i) * 8 + 24 := rfl
@[simp] theorem F.UBH_PT_CMD_write_width (i : Nat) : (F.UBH_PT_CMD_write i).width = 1 := rfl
@[simp] theorem F.UBH_PT_CMD_length_key (i : Nat) : (F.UBH_PT_CMD_length i).key = (0xD8100 + 0x1000 * i) * 8 + 16 := rfl
@[simp] theorem F.UBH_PT_CMD_length_width (i : Nat) : (F.UBH_PT_CMD_length i).width = 8 := rfl
@[simp] theorem F.UBH_PT_CMD_address_key (i : Nat) : (F.UBH_PT_CMD_address i).key = (0xD8100 + 0x1000 * i) * 8 + 0 := rfl
@[simp] theorem F.UBH_PT_CMD_address_width (i : Nat) : (F.UBH_PT_CMD_address i).width = 16 := rfl
@[simp] theorem F.UBH_PT_STAT_busy_key (i : Nat) : (F.UBH_PT_STAT_busy i).key = (0xD8104 + 0x1000 * i) * 8 + 31 := rfl
@[simp] theorem F.UBH_PT_STAT_busy_width (i : Nat) : (F.UBH_PT_STAT_busy i).width = 1 := rfl
@[simp] theorem F.UBH_PT_STAT_status_key (i : Nat) : (F.UBH_PT_STAT_status i).key = (0xD8104 + 0x1000 * i) * 8 + 0 := rfl
@[simp] theorem F.UBH_PT_STAT_status_width (i : Nat) : (F.UBH_PT_STAT_status i).width = 8 := rfl
@[simp] theorem F.UBH_PT_DATA_bytes_key (i j : Nat) : (F.UBH_PT_DATA_bytes i j).key = (0xD8140 + 0x1000 * i + 0x4 * j) * 8 + 0 := rfl
@[simp] theorem F.UBH_PT_DATA_bytes_width (i j : Nat) : (F.UBH_PT_DATA_bytes i j).width = 32 := rfl
@[simp] theorem F.UBH_LIFE_bytes_key (i j : Nat) : (F.UBH_LIFE_bytes i j).key = (0xDA040 + 0x1000 * i + 0x4 * j) * 8 + 0 := rfl
@[simp] theorem F.UBH_LIFE_bytes_width (i j : Nat) : (F.UBH_LIFE_bytes i j).width = 32 := rfl
@[simp] theorem F.UBH_EOL_CTRL_eol_limit_key (i : Nat) : (F.UBH_EOL_CTRL_eol_limit i).key = (0xDA060 + 0x1000 * i) * 8 + 8 := rfl
@[simp] theorem F.UBH_EOL_CTRL_eol_limit_width (i : Nat) : (F.UBH_EOL_CTRL_eol_limit i).width = 8 := rfl
@[simp] theorem F.UBH_EOL_CTRL_eol_warn_key (i : Nat) : (F.UBH_EOL_CTRL_eol_warn i).key = (0xDA060 + 0x1000 * i) * 8 + 0 := rfl
@[simp] theorem F.UBH_EOL_CTRL_eol_warn_width (i : Nat) : (F.UBH_EOL_CTRL_eol_warn i).width = 8 := rfl
@[simp] theorem F.UBH_EOL_STAT_eol_key (i : Nat) : (F.UBH_EOL_STAT_eol i).key = (0xDA064 + 0x1000 * i) * 8 + 31 := rfl
@[simp] theorem F.UBH_EOL_STAT_eol_width (i : Nat) : (F.UBH_EOL_STAT_eol i).width = 1 := rfl
@[simp] theorem F.UBH_EOL_STAT_drift_key (i : Nat) : (F.UBH_EOL_STAT_drift i).key = (0xDA064 + 0x1000 * i) * 8 + 16 := rfl
@[simp] theorem F.UBH_EOL_STAT_drift_width (i : Nat) : (F.UBH_EOL_STAT_drift i).width = 10 := rfl
@[simp] theorem F.UBH_EOL_STAT_hours_to_limit_key (i : Nat) : (F.UBH_EOL_STAT_hours_to_limit i).key = (0xDA064 + 0x1000 * i) * 8 + 0 := rfl
@[simp] theorem F.UBH_EOL_STAT_hours_to_limit_width (i : Nat) : (F.UBH_EOL_STAT_hours_to_limit i).width = 16 := rfl
@[simp] theorem F.SYN_CTRL_revertive_key : F.SYN_CTRL_revertive.key = 0xD0040 * 8 + 31 := rfl
@[simp] theorem F.SYN_CTRL_revertive_width : F.SYN_CTRL_revertive.width = 1 := rfl
@[simp] theorem F.SYN_CTRL_ql_mode_key : F.SYN_CTRL_ql_mode.key = 0xD0040 * 8 + 30 := rfl
@[simp] theorem F.SYN_CTRL_ql_mode_width : F.SYN_CTRL_ql_mode.width = 1 := rfl
@[simp] theorem F.SYN_CTRL_ql_option_key : F.SYN_CTRL_ql_option.key = 0xD0040 * 8 + 29 := rfl
@[simp] theorem F.SYN_CTRL_ql_option_width : F.SYN_CTRL_ql_option.width = 1 := rfl
@[simp] theorem F.SYN_CTRL_force_sel_key : F.SYN_CTRL_force_sel.key = 0xD0040 * 8 + 24 := rfl
@[simp] theorem F.SYN_CTRL_force_sel_width : F.SYN_CTRL_force_sel.width = 4 := rfl
@[simp] theorem F.SYN_CTRL_own_ql_key : F.SYN_CTRL_own_ql.key = 0xD0040 * 8 + 20 := rfl
@[simp] theorem F.SYN_CTRL_own_ql_width : F.SYN_CTRL_own_ql.width = 4 := rfl
@[simp] theorem F.SYN_CTRL_oos_ql_key : F.SYN_CTRL_oos_ql.key = 0xD0040 * 8 + 16 := rfl
@[simp] theorem F.SYN_CTRL_oos_ql_width : F.SYN_CTRL_oos_ql.width = 4 := rfl
@[simp] theorem F.SYN_CTRL_switch_type_key : F.SYN_CTRL_switch_type.key = 0xD0040 * 8 + 28 := rfl
@[simp] theorem F.SYN_CTRL_switch_type_width : F.SYN_CTRL_switch_type.width = 1 := rfl
@[simp] theorem F.SYN_CTRL_slew_rate_key : F.SYN_CTRL_slew_rate.key = 0xD0040 * 8 + 0 := rfl
@[simp] theorem F.SYN_CTRL_slew_rate_width : F.SYN_CTRL_slew_rate.width = 16 := rfl
@[simp] theorem F.SYN_BW_bw_track_key : F.SYN_BW_bw_track.key = 0xD0044 * 8 + 0 := rfl
@[simp] theorem F.SYN_BW_bw_track_width : F.SYN_BW_bw_track.width = 20 := rfl
@[simp] theorem F.SYN_BW_ACQ_bw_acq_key : F.SYN_BW_ACQ_bw_acq.key = 0xD0048 * 8 + 0 := rfl
@[simp] theorem F.SYN_BW_ACQ_bw_acq_width : F.SYN_BW_ACQ_bw_acq.width = 20 := rfl
@[simp] theorem F.SYN_TIMERS_wtr_key : F.SYN_TIMERS_wtr.key = 0xD004C * 8 + 16 := rfl
@[simp] theorem F.SYN_TIMERS_wtr_width : F.SYN_TIMERS_wtr.width = 10 := rfl
@[simp] theorem F.SYN_TIMERS_qualify_time_key : F.SYN_TIMERS_qualify_time.key = 0xD004C * 8 + 0 := rfl
@[simp] theorem F.SYN_TIMERS_qualify_time_width : F.SYN_TIMERS_qualify_time.width = 10 := rfl
@[simp] theorem F.SYN_ESMC_MAC_LO_mac_key : F.SYN_ESMC_MAC_LO_mac.key = 0xD2040 * 8 + 0 := rfl
@[simp] theorem F.SYN_ESMC_MAC_LO_mac_width : F.SYN_ESMC_MAC_LO_mac.width = 32 := rfl
@[simp] theorem F.SYN_ESMC_MAC_HI_mac_key : F.SYN_ESMC_MAC_HI_mac.key = 0xD2044 * 8 + 0 := rfl
@[simp] theorem F.SYN_ESMC_MAC_HI_mac_width : F.SYN_ESMC_MAC_HI_mac.width = 16 := rfl
@[simp] theorem F.SYN_PPS_CTRL_width_key : F.SYN_PPS_CTRL_width.key = 0xD3060 * 8 + 0 := rfl
@[simp] theorem F.SYN_PPS_CTRL_width_width : F.SYN_PPS_CTRL_width.width = 20 := rfl
@[simp] theorem F.SYN_DISAGREE_disagree_ppm_key : F.SYN_DISAGREE_disagree_ppm.key = 0xD0050 * 8 + 16 := rfl
@[simp] theorem F.SYN_DISAGREE_disagree_ppm_width : F.SYN_DISAGREE_disagree_ppm.width = 8 := rfl
@[simp] theorem F.SYN_DISAGREE_disagree_time_key : F.SYN_DISAGREE_disagree_time.key = 0xD0050 * 8 + 0 := rfl
@[simp] theorem F.SYN_DISAGREE_disagree_time_width : F.SYN_DISAGREE_disagree_time.width = 16 := rfl
@[simp] theorem F.SYN_HOLD_hold_avg_key : F.SYN_HOLD_hold_avg.key = 0xD0054 * 8 + 16 := rfl
@[simp] theorem F.SYN_HOLD_hold_avg_width : F.SYN_HOLD_hold_avg.width = 12 := rfl
@[simp] theorem F.SYN_HOLD_oos_time_key : F.SYN_HOLD_oos_time.key = 0xD0054 * 8 + 0 := rfl
@[simp] theorem F.SYN_HOLD_oos_time_width : F.SYN_HOLD_oos_time.width = 16 := rfl
@[simp] theorem F.SYN_STAT_state_key : F.SYN_STAT_state.key = 0xD0060 * 8 + 29 := rfl
@[simp] theorem F.SYN_STAT_state_width : F.SYN_STAT_state.width = 3 := rfl
@[simp] theorem F.SYN_STAT_switching_key : F.SYN_STAT_switching.key = 0xD0060 * 8 + 28 := rfl
@[simp] theorem F.SYN_STAT_switching_width : F.SYN_STAT_switching.width = 1 := rfl
@[simp] theorem F.SYN_STAT_output_ql_key : F.SYN_STAT_output_ql.key = 0xD0060 * 8 + 24 := rfl
@[simp] theorem F.SYN_STAT_output_ql_width : F.SYN_STAT_output_ql.width = 4 := rfl
@[simp] theorem F.SYN_STAT_selected_key : F.SYN_STAT_selected.key = 0xD0060 * 8 + 20 := rfl
@[simp] theorem F.SYN_STAT_selected_width : F.SYN_STAT_selected.width = 4 := rfl
@[simp] theorem F.SYN_STAT_hold_valid_key : F.SYN_STAT_hold_valid.key = 0xD0060 * 8 + 19 := rfl
@[simp] theorem F.SYN_STAT_hold_valid_width : F.SYN_STAT_hold_valid.width = 1 := rfl
@[simp] theorem F.SYN_STAT_oos_key : F.SYN_STAT_oos.key = 0xD0060 * 8 + 18 := rfl
@[simp] theorem F.SYN_STAT_oos_width : F.SYN_STAT_oos.width = 1 := rfl
@[simp] theorem F.SYN_FREQ_offset_key : F.SYN_FREQ_offset.key = 0xD0064 * 8 + 0 := rfl
@[simp] theorem F.SYN_FREQ_offset_width : F.SYN_FREQ_offset.width = 32 := rfl
@[simp] theorem F.SYN_HOLD_FREQ_estimate_key : F.SYN_HOLD_FREQ_estimate.key = 0xD0068 * 8 + 0 := rfl
@[simp] theorem F.SYN_HOLD_FREQ_estimate_width : F.SYN_HOLD_FREQ_estimate.width = 32 := rfl
@[simp] theorem F.SYN_HOLD_ELAPSED_seconds_key : F.SYN_HOLD_ELAPSED_seconds.key = 0xD006C * 8 + 0 := rfl
@[simp] theorem F.SYN_HOLD_ELAPSED_seconds_width : F.SYN_HOLD_ELAPSED_seconds.width = 32 := rfl
@[simp] theorem F.SYN_HIST_self_test_key : F.SYN_HIST_self_test.key = 0xD0070 * 8 + 21 := rfl
@[simp] theorem F.SYN_HIST_self_test_width : F.SYN_HIST_self_test.width = 1 := rfl
@[simp] theorem F.SYN_HIST_oos_key : F.SYN_HIST_oos.key = 0xD0070 * 8 + 20 := rfl
@[simp] theorem F.SYN_HIST_oos_width : F.SYN_HIST_oos.width = 1 := rfl
@[simp] theorem F.SYN_HIST_disagree_key : F.SYN_HIST_disagree.key = 0xD0070 * 8 + 19 := rfl
@[simp] theorem F.SYN_HIST_disagree_width : F.SYN_HIST_disagree.width = 1 := rfl
@[simp] theorem F.SYN_HIST_switched_key : F.SYN_HIST_switched.key = 0xD0070 * 8 + 18 := rfl
@[simp] theorem F.SYN_HIST_switched_width : F.SYN_HIST_switched.width = 1 := rfl
@[simp] theorem F.SYN_HIST_freerun_key : F.SYN_HIST_freerun.key = 0xD0070 * 8 + 17 := rfl
@[simp] theorem F.SYN_HIST_freerun_width : F.SYN_HIST_freerun.width = 1 := rfl
@[simp] theorem F.SYN_HIST_holdover_key : F.SYN_HIST_holdover.key = 0xD0070 * 8 + 16 := rfl
@[simp] theorem F.SYN_HIST_holdover_width : F.SYN_HIST_holdover.width = 1 := rfl
@[simp] theorem F.SYN_HIST_inputs_key : F.SYN_HIST_inputs.key = 0xD0070 * 8 + 0 := rfl
@[simp] theorem F.SYN_HIST_inputs_width : F.SYN_HIST_inputs.width = 15 := rfl
@[simp] theorem F.SYN_DISAGREE_STAT_difference_key : F.SYN_DISAGREE_STAT_difference.key = 0xD0074 * 8 + 16 := rfl
@[simp] theorem F.SYN_DISAGREE_STAT_difference_width : F.SYN_DISAGREE_STAT_difference.width = 16 := rfl
@[simp] theorem F.SYN_DISAGREE_STAT_input_b_key : F.SYN_DISAGREE_STAT_input_b.key = 0xD0074 * 8 + 4 := rfl
@[simp] theorem F.SYN_DISAGREE_STAT_input_b_width : F.SYN_DISAGREE_STAT_input_b.width = 4 := rfl
@[simp] theorem F.SYN_DISAGREE_STAT_input_a_key : F.SYN_DISAGREE_STAT_input_a.key = 0xD0074 * 8 + 0 := rfl
@[simp] theorem F.SYN_DISAGREE_STAT_input_a_width : F.SYN_DISAGREE_STAT_input_a.width = 4 := rfl
@[simp] theorem F.SYN_IN_CFG_en_key (i : Nat) : (F.SYN_IN_CFG_en i).key = (0xD1040 + 0x10 * i) * 8 + 31 := rfl
@[simp] theorem F.SYN_IN_CFG_en_width (i : Nat) : (F.SYN_IN_CFG_en i).width = 1 := rfl
@[simp] theorem F.SYN_IN_CFG_priority_key (i : Nat) : (F.SYN_IN_CFG_priority i).key = (0xD1040 + 0x10 * i) * 8 + 24 := rfl
@[simp] theorem F.SYN_IN_CFG_priority_width (i : Nat) : (F.SYN_IN_CFG_priority i).width = 4 := rfl
@[simp] theorem F.SYN_IN_CFG_ql_value_key (i : Nat) : (F.SYN_IN_CFG_ql_value i).key = (0xD1040 + 0x10 * i) * 8 + 20 := rfl
@[simp] theorem F.SYN_IN_CFG_ql_value_width (i : Nat) : (F.SYN_IN_CFG_ql_value i).width = 4 := rfl
@[simp] theorem F.SYN_IN_CFG_ql_force_key (i : Nat) : (F.SYN_IN_CFG_ql_force i).key = (0xD1040 + 0x10 * i) * 8 + 19 := rfl
@[simp] theorem F.SYN_IN_CFG_ql_force_width (i : Nat) : (F.SYN_IN_CFG_ql_force i).width = 1 := rfl
@[simp] theorem F.SYN_IN_CFG_freq_key (i : Nat) : (F.SYN_IN_CFG_freq i).key = (0xD1040 + 0x10 * i) * 8 + 16 := rfl
@[simp] theorem F.SYN_IN_CFG_freq_width (i : Nat) : (F.SYN_IN_CFG_freq i).width = 3 := rfl
@[simp] theorem F.SYN_IN_CFG_source_key (i : Nat) : (F.SYN_IN_CFG_source i).key = (0xD1040 + 0x10 * i) * 8 + 8 := rfl
@[simp] theorem F.SYN_IN_CFG_source_width (i : Nat) : (F.SYN_IN_CFG_source i).width = 5 := rfl
@[simp] theorem F.SYN_IN_CFG_freq_lim_key (i : Nat) : (F.SYN_IN_CFG_freq_lim i).key = (0xD1040 + 0x10 * i) * 8 + 0 := rfl
@[simp] theorem F.SYN_IN_CFG_freq_lim_width (i : Nat) : (F.SYN_IN_CFG_freq_lim i).width = 8 := rfl
@[simp] theorem F.SYN_IN_STAT_state_key (i : Nat) : (F.SYN_IN_STAT_state i).key = (0xD1044 + 0x10 * i) * 8 + 29 := rfl
@[simp] theorem F.SYN_IN_STAT_state_width (i : Nat) : (F.SYN_IN_STAT_state i).width = 3 := rfl
@[simp] theorem F.SYN_IN_STAT_ql_failed_key (i : Nat) : (F.SYN_IN_STAT_ql_failed i).key = (0xD1044 + 0x10 * i) * 8 + 28 := rfl
@[simp] theorem F.SYN_IN_STAT_ql_failed_width (i : Nat) : (F.SYN_IN_STAT_ql_failed i).width = 1 := rfl
@[simp] theorem F.SYN_IN_STAT_ql_rx_key (i : Nat) : (F.SYN_IN_STAT_ql_rx i).key = (0xD1044 + 0x10 * i) * 8 + 24 := rfl
@[simp] theorem F.SYN_IN_STAT_ql_rx_width (i : Nat) : (F.SYN_IN_STAT_ql_rx i).width = 4 := rfl
@[simp] theorem F.SYN_IN_STAT_offset_key (i : Nat) : (F.SYN_IN_STAT_offset i).key = (0xD1044 + 0x10 * i) * 8 + 0 := rfl
@[simp] theorem F.SYN_IN_STAT_offset_width (i : Nat) : (F.SYN_IN_STAT_offset i).width = 16 := rfl
@[simp] theorem F.SYN_IN_WTR_remaining_key (i : Nat) : (F.SYN_IN_WTR_remaining i).key = (0xD1048 + 0x10 * i) * 8 + 0 := rfl
@[simp] theorem F.SYN_IN_WTR_remaining_width (i : Nat) : (F.SYN_IN_WTR_remaining i).width = 10 := rfl
@[simp] theorem F.ESMC_BAD_count_key : F.ESMC_BAD_count.key = 0xD2048 * 8 + 0 := rfl
@[simp] theorem F.ESMC_BAD_count_width : F.ESMC_BAD_count.width = 32 := rfl
@[simp] theorem F.SYN_ESMC_tx_en_key (i : Nat) : (F.SYN_ESMC_tx_en i).key = (0xD2100 + 0x4 * i) * 8 + 31 := rfl
@[simp] theorem F.SYN_ESMC_tx_en_width (i : Nat) : (F.SYN_ESMC_tx_en i).width = 1 := rfl
@[simp] theorem F.SYN_ESMC_rx_ql_key (i : Nat) : (F.SYN_ESMC_rx_ql i).key = (0xD2100 + 0x4 * i) * 8 + 24 := rfl
@[simp] theorem F.SYN_ESMC_rx_ql_width (i : Nat) : (F.SYN_ESMC_rx_ql i).width = 4 := rfl
@[simp] theorem F.SYN_ESMC_rx_failed_key (i : Nat) : (F.SYN_ESMC_rx_failed i).key = (0xD2100 + 0x4 * i) * 8 + 23 := rfl
@[simp] theorem F.SYN_ESMC_rx_failed_width (i : Nat) : (F.SYN_ESMC_rx_failed i).width = 1 := rfl
@[simp] theorem F.SYN_ESMC_tx_ql_key (i : Nat) : (F.SYN_ESMC_tx_ql i).key = (0xD2100 + 0x4 * i) * 8 + 16 := rfl
@[simp] theorem F.SYN_ESMC_tx_ql_width (i : Nat) : (F.SYN_ESMC_tx_ql i).width = 4 := rfl
@[simp] theorem F.SYN_TIME_SNAP_LO_time_key : F.SYN_TIME_SNAP_LO_time.key = 0xD3048 * 8 + 0 := rfl
@[simp] theorem F.SYN_TIME_SNAP_LO_time_width : F.SYN_TIME_SNAP_LO_time.width = 32 := rfl
@[simp] theorem F.SYN_TIME_SNAP_HI_time_key : F.SYN_TIME_SNAP_HI_time.key = 0xD304C * 8 + 0 := rfl
@[simp] theorem F.SYN_TIME_SNAP_HI_time_width : F.SYN_TIME_SNAP_HI_time.width = 32 := rfl
@[simp] theorem F.SYN_TIME_SET_LO_time_key : F.SYN_TIME_SET_LO_time.key = 0xD3050 * 8 + 0 := rfl
@[simp] theorem F.SYN_TIME_SET_LO_time_width : F.SYN_TIME_SET_LO_time.width = 32 := rfl
@[simp] theorem F.SYN_TIME_SET_HI_time_key : F.SYN_TIME_SET_HI_time.key = 0xD3054 * 8 + 0 := rfl
@[simp] theorem F.SYN_TIME_SET_HI_time_width : F.SYN_TIME_SET_HI_time.width = 32 := rfl
@[simp] theorem F.SYN_TIME_CTRL_busy_key : F.SYN_TIME_CTRL_busy.key = 0xD3058 * 8 + 30 := rfl
@[simp] theorem F.SYN_TIME_CTRL_busy_width : F.SYN_TIME_CTRL_busy.width = 1 := rfl
@[simp] theorem F.SYN_TIME_CTRL_op_key : F.SYN_TIME_CTRL_op.key = 0xD3058 * 8 + 29 := rfl
@[simp] theorem F.SYN_TIME_CTRL_op_width : F.SYN_TIME_CTRL_op.width = 1 := rfl
@[simp] theorem F.SYN_TIME_CTRL_adj_rate_key : F.SYN_TIME_CTRL_adj_rate.key = 0xD3058 * 8 + 0 := rfl
@[simp] theorem F.SYN_TIME_CTRL_adj_rate_width : F.SYN_TIME_CTRL_adj_rate.width = 10 := rfl
@[simp] theorem F.SYN_TIME_ADJ_offset_key : F.SYN_TIME_ADJ_offset.key = 0xD305C * 8 + 0 := rfl
@[simp] theorem F.SYN_TIME_ADJ_offset_width : F.SYN_TIME_ADJ_offset.width = 32 := rfl
@[simp] theorem F.SYN_PPS_CTRL_out_en_key : F.SYN_PPS_CTRL_out_en.key = 0xD3060 * 8 + 31 := rfl
@[simp] theorem F.SYN_PPS_CTRL_out_en_width : F.SYN_PPS_CTRL_out_en.width = 1 := rfl
@[simp] theorem F.SYN_PPS_CTRL_align_key : F.SYN_PPS_CTRL_align.key = 0xD3060 * 8 + 30 := rfl
@[simp] theorem F.SYN_PPS_CTRL_align_width : F.SYN_PPS_CTRL_align.width = 1 := rfl
@[simp] theorem F.SYN_PPS_IN_DELAY_delay_key : F.SYN_PPS_IN_DELAY_delay.key = 0xD3064 * 8 + 0 := rfl
@[simp] theorem F.SYN_PPS_IN_DELAY_delay_width : F.SYN_PPS_IN_DELAY_delay.width = 32 := rfl
@[simp] theorem F.SYN_PPS_OUT_DELAY_delay_key : F.SYN_PPS_OUT_DELAY_delay.key = 0xD3068 * 8 + 0 := rfl
@[simp] theorem F.SYN_PPS_OUT_DELAY_delay_width : F.SYN_PPS_OUT_DELAY_delay.width = 32 := rfl
@[simp] theorem F.SYN_PPS_IN_TS_LO_time_key : F.SYN_PPS_IN_TS_LO_time.key = 0xD3070 * 8 + 0 := rfl
@[simp] theorem F.SYN_PPS_IN_TS_LO_time_width : F.SYN_PPS_IN_TS_LO_time.width = 32 := rfl
@[simp] theorem F.SYN_PPS_IN_TS_HI_time_key : F.SYN_PPS_IN_TS_HI_time.key = 0xD3074 * 8 + 0 := rfl
@[simp] theorem F.SYN_PPS_IN_TS_HI_time_width : F.SYN_PPS_IN_TS_HI_time.width = 32 := rfl
@[simp] theorem F.SYN_PPS_STAT_present_key : F.SYN_PPS_STAT_present.key = 0xD3078 * 8 + 31 := rfl
@[simp] theorem F.SYN_PPS_STAT_present_width : F.SYN_PPS_STAT_present.width = 1 := rfl
@[simp] theorem F.SYN_PPS_STAT_e_key : F.SYN_PPS_STAT_e.key = 0xD3078 * 8 + 0 := rfl
@[simp] theorem F.SYN_PPS_STAT_e_width : F.SYN_PPS_STAT_e.width = 30 := rfl
@[simp] theorem F.SYN_OUT_CFG_en_key (i : Nat) : (F.SYN_OUT_CFG_en i).key = (0xD4040 + 0x4 * i) * 8 + 31 := rfl
@[simp] theorem F.SYN_OUT_CFG_en_width (i : Nat) : (F.SYN_OUT_CFG_en i).width = 1 := rfl
@[simp] theorem F.SYN_OUT_CFG_squelch_freerun_key (i : Nat) : (F.SYN_OUT_CFG_squelch_freerun i).key = (0xD4040 + 0x4 * i) * 8 + 30 := rfl
@[simp] theorem F.SYN_OUT_CFG_squelch_freerun_width (i : Nat) : (F.SYN_OUT_CFG_squelch_freerun i).width = 1 := rfl
@[simp] theorem F.SYN_OUT_CFG_squelch_ql_key (i : Nat) : (F.SYN_OUT_CFG_squelch_ql i).key = (0xD4040 + 0x4 * i) * 8 + 24 := rfl
@[simp] theorem F.SYN_OUT_CFG_squelch_ql_width (i : Nat) : (F.SYN_OUT_CFG_squelch_ql i).width = 4 := rfl
@[simp] theorem F.HMP_STAT_aon_xtal_lock_key : F.HMP_STAT_aon_xtal_lock.key = 0xE0044 * 8 + 31 := rfl
@[simp] theorem F.HMP_STAT_aon_xtal_lock_width : F.HMP_STAT_aon_xtal_lock.width = 1 := rfl
@[simp] theorem F.HMP_STAT_sealed_key : F.HMP_STAT_sealed.key = 0xE0044 * 8 + 30 := rfl
@[simp] theorem F.HMP_STAT_sealed_width : F.HMP_STAT_sealed.width = 1 := rfl
@[simp] theorem F.HMP_STAT_fired_key : F.HMP_STAT_fired.key = 0xE0044 * 8 + 24 := rfl
@[simp] theorem F.HMP_STAT_fired_width : F.HMP_STAT_fired.width = 6 := rfl
@[simp] theorem F.HMP_ALARM_alarm_key : F.HMP_ALARM_alarm.key = 0xE0048 * 8 + 0 := rfl
@[simp] theorem F.HMP_ALARM_alarm_width : F.HMP_ALARM_alarm.width = 32 := rfl
@[simp] theorem F.HMP_SEAL_sealed_key : F.HMP_SEAL_sealed.key = 0xE004C * 8 + 0 := rfl
@[simp] theorem F.HMP_SEAL_sealed_width : F.HMP_SEAL_sealed.width = 1 := rfl
@[simp] theorem F.HMP_PD_le1_key : F.HMP_PD_le1.key = 0xE0050 * 8 + 1 := rfl
@[simp] theorem F.HMP_PD_le1_width : F.HMP_PD_le1.width = 1 := rfl
@[simp] theorem F.HMP_PD_le0_key : F.HMP_PD_le0.key = 0xE0050 * 8 + 0 := rfl
@[simp] theorem F.HMP_PD_le0_width : F.HMP_PD_le0.width = 1 := rfl
@[simp] theorem F.HMP_RULE_CFG_en_key (i : Nat) : (F.HMP_RULE_CFG_en i).key = (0xE1040 + 0x10 * i) * 8 + 31 := rfl
@[simp] theorem F.HMP_RULE_CFG_en_width (i : Nat) : (F.HMP_RULE_CFG_en i).width = 1 := rfl
@[simp] theorem F.HMP_RULE_CFG_src_key (i : Nat) : (F.HMP_RULE_CFG_src i).key = (0xE1040 + 0x10 * i) * 8 + 29 := rfl
@[simp] theorem F.HMP_RULE_CFG_src_width (i : Nat) : (F.HMP_RULE_CFG_src i).width = 2 := rfl
@[simp] theorem F.HMP_RULE_CFG_index_key (i : Nat) : (F.HMP_RULE_CFG_index i).key = (0xE1040 + 0x10 * i) * 8 + 23 := rfl
@[simp] theorem F.HMP_RULE_CFG_index_width (i : Nat) : (F.HMP_RULE_CFG_index i).width = 6 := rfl
@[simp] theorem F.HMP_RULE_CFG_below_key (i : Nat) : (F.HMP_RULE_CFG_below i).key = (0xE1040 + 0x10 * i) * 8 + 22 := rfl
@[simp] theorem F.HMP_RULE_CFG_below_width (i : Nat) : (F.HMP_RULE_CFG_below i).width = 1 := rfl
@[simp] theorem F.HMP_RULE_CFG_in_dormant_key (i : Nat) : (F.HMP_RULE_CFG_in_dormant i).key = (0xE1040 + 0x10 * i) * 8 + 21 := rfl
@[simp] theorem F.HMP_RULE_CFG_in_dormant_width (i : Nat) : (F.HMP_RULE_CFG_in_dormant i).width = 1 := rfl
@[simp] theorem F.HMP_RULE_CFG_in_awake_key (i : Nat) : (F.HMP_RULE_CFG_in_awake i).key = (0xE1040 + 0x10 * i) * 8 + 20 := rfl
@[simp] theorem F.HMP_RULE_CFG_in_awake_width (i : Nat) : (F.HMP_RULE_CFG_in_awake i).width = 1 := rfl
@[simp] theorem F.HMP_RULE_CFG_persist_key (i : Nat) : (F.HMP_RULE_CFG_persist i).key = (0xE1040 + 0x10 * i) * 8 + 12 := rfl
@[simp] theorem F.HMP_RULE_CFG_persist_width (i : Nat) : (F.HMP_RULE_CFG_persist i).width = 8 := rfl
@[simp] theorem F.HMP_RULE_CFG_actions_key (i : Nat) : (F.HMP_RULE_CFG_actions i).key = (0xE1040 + 0x10 * i) * 8 + 0 := rfl
@[simp] theorem F.HMP_RULE_CFG_actions_width (i : Nat) : (F.HMP_RULE_CFG_actions i).width = 6 := rfl
@[simp] theorem F.HMP_RULE_THR_thr_key (i : Nat) : (F.HMP_RULE_THR_thr i).key = (0xE1044 + 0x10 * i) * 8 + 0 := rfl
@[simp] theorem F.HMP_RULE_THR_thr_width (i : Nat) : (F.HMP_RULE_THR_thr i).width = 24 := rfl
@[simp] theorem F.HMP_RULE_HYST_hyst_key (i : Nat) : (F.HMP_RULE_HYST_hyst i).key = (0xE1048 + 0x10 * i) * 8 + 0 := rfl
@[simp] theorem F.HMP_RULE_HYST_hyst_width (i : Nat) : (F.HMP_RULE_HYST_hyst i).width = 24 := rfl
@[simp] theorem F.HMP_RULE_STAT_state_key (i : Nat) : (F.HMP_RULE_STAT_state i).key = (0xE104C + 0x10 * i) * 8 + 30 := rfl
@[simp] theorem F.HMP_RULE_STAT_state_width (i : Nat) : (F.HMP_RULE_STAT_state i).width = 2 := rfl
@[simp] theorem F.HMP_RULE_STAT_count_key (i : Nat) : (F.HMP_RULE_STAT_count i).key = (0xE104C + 0x10 * i) * 8 + 16 := rfl
@[simp] theorem F.HMP_RULE_STAT_count_width (i : Nat) : (F.HMP_RULE_STAT_count i).width = 8 := rfl
@[simp] theorem F.HMP_RULE_STAT_entries_key (i : Nat) : (F.HMP_RULE_STAT_entries i).key = (0xE104C + 0x10 * i) * 8 + 0 := rfl
@[simp] theorem F.HMP_RULE_STAT_entries_width (i : Nat) : (F.HMP_RULE_STAT_entries i).width = 16 := rfl
@[simp] theorem F.HMP_LOG_CTRL_held_key : F.HMP_LOG_CTRL_held.key = 0xE2040 * 8 + 16 := rfl
@[simp] theorem F.HMP_LOG_CTRL_held_width : F.HMP_LOG_CTRL_held.width = 6 := rfl
@[simp] theorem F.HMP_LOG_CTRL_dropped_key : F.HMP_LOG_CTRL_dropped.key = 0xE2040 * 8 + 0 := rfl
@[simp] theorem F.HMP_LOG_CTRL_dropped_width : F.HMP_LOG_CTRL_dropped.width = 16 := rfl
@[simp] theorem F.HMP_LOG_bits_key (i : Nat) : (F.HMP_LOG_bits i).key = (0xE2050 + 0x4 * i) * 8 + 0 := rfl
@[simp] theorem F.HMP_LOG_bits_width (i : Nat) : (F.HMP_LOG_bits i).width = 32 := rfl
@[simp] theorem F.THM_CTRL_ref_en_key : F.THM_CTRL_ref_en.key = 0xE4040 * 8 + 0 := rfl
@[simp] theorem F.THM_CTRL_ref_en_width : F.THM_CTRL_ref_en.width = 1 := rfl
@[simp] theorem F.THM_SEQ_period_key : F.THM_SEQ_period.key = 0xE4044 * 8 + 0 := rfl
@[simp] theorem F.THM_SEQ_period_width : F.THM_SEQ_period.width = 24 := rfl
@[simp] theorem F.THM_STAT_ref_ready_key : F.THM_STAT_ref_ready.key = 0xE404C * 8 + 31 := rfl
@[simp] theorem F.THM_STAT_ref_ready_width : F.THM_STAT_ref_ready.width = 1 := rfl
@[simp] theorem F.THM_STAT_seq_busy_key : F.THM_STAT_seq_busy.key = 0xE404C * 8 + 30 := rfl
@[simp] theorem F.THM_STAT_seq_busy_width : F.THM_STAT_seq_busy.width = 1 := rfl
@[simp] theorem F.THM_STAT_trig_pending_key : F.THM_STAT_trig_pending.key = 0xE404C * 8 + 29 := rfl
@[simp] theorem F.THM_STAT_trig_pending_width : F.THM_STAT_trig_pending.width = 1 := rfl
@[simp] theorem F.THM_STAT_cal_busy_key : F.THM_STAT_cal_busy.key = 0xE404C * 8 + 28 := rfl
@[simp] theorem F.THM_STAT_cal_busy_width : F.THM_STAT_cal_busy.width = 1 := rfl
@[simp] theorem F.THM_STAT_cal_queued_key : F.THM_STAT_cal_queued.key = 0xE404C * 8 + 27 := rfl
@[simp] theorem F.THM_STAT_cal_queued_width : F.THM_STAT_cal_queued.width = 1 := rfl
@[simp] theorem F.THM_STAT_tag_key : F.THM_STAT_tag.key = 0xE404C * 8 + 21 := rfl
@[simp] theorem F.THM_STAT_tag_width : F.THM_STAT_tag.width = 6 := rfl
@[simp] theorem F.THM_TRIG_OVL_count_key : F.THM_TRIG_OVL_count.key = 0xE4050 * 8 + 0 := rfl
@[simp] theorem F.THM_TRIG_OVL_count_width : F.THM_TRIG_OVL_count.width = 32 := rfl
@[simp] theorem F.THM_GAIN_gain_key : F.THM_GAIN_gain.key = 0xE4054 * 8 + 0 := rfl
@[simp] theorem F.THM_GAIN_gain_width : F.THM_GAIN_gain.width = 24 := rfl
@[simp] theorem F.THM_OFFSET_offset_key : F.THM_OFFSET_offset.key = 0xE4058 * 8 + 0 := rfl
@[simp] theorem F.THM_OFFSET_offset_width : F.THM_OFFSET_offset.width = 24 := rfl
@[simp] theorem F.THM_CH_CFG_en_key (i : Nat) : (F.THM_CH_CFG_en i).key = (0xE5040 + 0x4 * i) * 8 + 31 := rfl
@[simp] theorem F.THM_CH_CFG_en_width (i : Nat) : (F.THM_CH_CFG_en i).width = 1 := rfl
@[simp] theorem F.THM_CH_CFG_win_key (i : Nat) : (F.THM_CH_CFG_win i).key = (0xE5040 + 0x4 * i) * 8 + 29 := rfl
@[simp] theorem F.THM_CH_CFG_win_width (i : Nat) : (F.THM_CH_CFG_win i).width = 2 := rfl
@[simp] theorem F.THM_CH_CFG_win_ms_key (i : Nat) : (F.THM_CH_CFG_win_ms i).key = (0xE5040 + 0x4 * i) * 8 + 19 := rfl
@[simp] theorem F.THM_CH_CFG_win_ms_width (i : Nat) : (F.THM_CH_CFG_win_ms i).width = 10 := rfl
@[simp] theorem F.THM_CH_CFG_avg_n_key (i : Nat) : (F.THM_CH_CFG_avg_n i).key = (0xE5040 + 0x4 * i) * 8 + 15 := rfl
@[simp] theorem F.THM_CH_CFG_avg_n_width (i : Nat) : (F.THM_CH_CFG_avg_n i).width = 4 := rfl
@[simp] theorem F.THM_CH_CFG_filt_k_key (i : Nat) : (F.THM_CH_CFG_filt_k i).key = (0xE5040 + 0x4 * i) * 8 + 12 := rfl
@[simp] theorem F.THM_CH_CFG_filt_k_width (i : Nat) : (F.THM_CH_CFG_filt_k i).width = 3 := rfl
@[simp] theorem F.THM_CH_CFG_queue_key (i : Nat) : (F.THM_CH_CFG_queue i).key = (0xE5040 + 0x4 * i) * 8 + 11 := rfl
@[simp] theorem F.THM_CH_CFG_queue_width (i : Nat) : (F.THM_CH_CFG_queue i).width = 1 := rfl
@[simp] theorem F.THM_CH_LAST_flags_key (i : Nat) : (F.THM_CH_LAST_flags i).key = (0xE5200 + 0x8 * i) * 8 + 26 := rfl
@[simp] theorem F.THM_CH_LAST_flags_width (i : Nat) : (F.THM_CH_LAST_flags i).width = 6 := rfl
@[simp] theorem F.THM_CH_LAST_value_key (i : Nat) : (F.THM_CH_LAST_value i).key = (0xE5200 + 0x8 * i) * 8 + 0 := rfl
@[simp] theorem F.THM_CH_LAST_value_width (i : Nat) : (F.THM_CH_LAST_value i).width = 24 := rfl
@[simp] theorem F.THM_CH_FILT_value_key (i : Nat) : (F.THM_CH_FILT_value i).key = (0xE5204 + 0x8 * i) * 8 + 0 := rfl
@[simp] theorem F.THM_CH_FILT_value_width (i : Nat) : (F.THM_CH_FILT_value i).width = 24 := rfl
@[simp] theorem F.THM_Q_CTRL_queued_key : F.THM_Q_CTRL_queued.key = 0xE6040 * 8 + 16 := rfl
@[simp] theorem F.THM_Q_CTRL_queued_width : F.THM_Q_CTRL_queued.width = 8 := rfl
@[simp] theorem F.THM_Q_CTRL_ovf_key : F.THM_Q_CTRL_ovf.key = 0xE6040 * 8 + 0 := rfl
@[simp] theorem F.THM_Q_CTRL_ovf_width : F.THM_Q_CTRL_ovf.width = 16 := rfl
@[simp] theorem F.THM_Q_0_tag_key : F.THM_Q_0_tag.key = 0xE6050 * 8 + 26 := rfl
@[simp] theorem F.THM_Q_0_tag_width : F.THM_Q_0_tag.width = 6 := rfl
@[simp] theorem F.THM_Q_0_seq_key : F.THM_Q_0_seq.key = 0xE6050 * 8 + 18 := rfl
@[simp] theorem F.THM_Q_0_seq_width : F.THM_Q_0_seq.width = 8 := rfl
@[simp] theorem F.THM_Q_0_flags_key : F.THM_Q_0_flags.key = 0xE6050 * 8 + 12 := rfl
@[simp] theorem F.THM_Q_0_flags_width : F.THM_Q_0_flags.width = 6 := rfl
@[simp] theorem F.THM_Q_1_raw_key : F.THM_Q_1_raw.key = 0xE6054 * 8 + 0 := rfl
@[simp] theorem F.THM_Q_1_raw_width : F.THM_Q_1_raw.width = 32 := rfl
@[simp] theorem F.MON_CTRL_en_key (i : Nat) : (F.MON_CTRL_en i).key = (0xE8040 + 0x2000 * i) * 8 + 31 := rfl
@[simp] theorem F.MON_CTRL_en_width (i : Nat) : (F.MON_CTRL_en i).width = 1 := rfl
@[simp] theorem F.MON_CTRL_preset_key (i : Nat) : (F.MON_CTRL_preset i).key = (0xE8040 + 0x2000 * i) * 8 + 28 := rfl
@[simp] theorem F.MON_CTRL_preset_width (i : Nat) : (F.MON_CTRL_preset i).width = 3 := rfl
@[simp] theorem F.MON_CTRL_tap_key (i : Nat) : (F.MON_CTRL_tap i).key = (0xE8040 + 0x2000 * i) * 8 + 26 := rfl
@[simp] theorem F.MON_CTRL_tap_width (i : Nat) : (F.MON_CTRL_tap i).width = 2 := rfl
@[simp] theorem F.MON_CTRL_sel_key (i : Nat) : (F.MON_CTRL_sel i).key = (0xE8040 + 0x2000 * i) * 8 + 24 := rfl
@[simp] theorem F.MON_CTRL_sel_width (i : Nat) : (F.MON_CTRL_sel i).width = 2 := rfl
@[simp] theorem F.MON_CTRL_sc_key (i : Nat) : (F.MON_CTRL_sc i).key = (0xE8040 + 0x2000 * i) * 8 + 19 := rfl
@[simp] theorem F.MON_CTRL_sc_width (i : Nat) : (F.MON_CTRL_sc i).width = 5 := rfl
@[simp] theorem F.MON_CTRL_s_key (i : Nat) : (F.MON_CTRL_s i).key = (0xE8040 + 0x2000 * i) * 8 + 15 := rfl
@[simp] theorem F.MON_CTRL_s_width (i : Nat) : (F.MON_CTRL_s i).width = 4 := rfl
@[simp] theorem F.MON_CTRL_taps_key (i : Nat) : (F.MON_CTRL_taps i).key = (0xE8040 + 0x2000 * i) * 8 + 6 := rfl
@[simp] theorem F.MON_CTRL_taps_width (i : Nat) : (F.MON_CTRL_taps i).width = 9 := rfl
@[simp] theorem F.MON_CTRL_coef_src_key (i : Nat) : (F.MON_CTRL_coef_src i).key = (0xE8040 + 0x2000 * i) * 8 + 5 := rfl
@[simp] theorem F.MON_CTRL_coef_src_width (i : Nat) : (F.MON_CTRL_coef_src i).width = 1 := rfl
@[simp] theorem F.MON_COEF_coef_key (i j : Nat) : (F.MON_COEF_coef i j).key = (0xE9040 + 0x2000 * i + 0x4 * j) * 8 + 0 := rfl
@[simp] theorem F.MON_COEF_coef_width (i j : Nat) : (F.MON_COEF_coef i j).width = 18 := rfl
@[simp] theorem F.MON_DET_rms_k_key (i : Nat) : (F.MON_DET_rms_k i).key = (0xE8044 + 0x2000 * i) * 8 + 27 := rfl
@[simp] theorem F.MON_DET_rms_k_width (i : Nat) : (F.MON_DET_rms_k i).width = 5 := rfl
@[simp] theorem F.MON_DET_decay_k_key (i : Nat) : (F.MON_DET_decay_k i).key = (0xE8044 + 0x2000 * i) * 8 + 22 := rfl
@[simp] theorem F.MON_DET_decay_k_width (i : Nat) : (F.MON_DET_decay_k i).width = 5 := rfl
@[simp] theorem F.MON_CAP_dest_key (i : Nat) : (F.MON_CAP_dest i).key = (0xE8048 + 0x2000 * i) * 8 + 31 := rfl
@[simp] theorem F.MON_CAP_dest_width (i : Nat) : (F.MON_CAP_dest i).width = 1 := rfl
@[simp] theorem F.MON_CAP_trig_src_key (i : Nat) : (F.MON_CAP_trig_src i).key = (0xE8048 + 0x2000 * i) * 8 + 28 := rfl
@[simp] theorem F.MON_CAP_trig_src_width (i : Nat) : (F.MON_CAP_trig_src i).width = 2 := rfl
@[simp] theorem F.MON_CAP_trig_det_key (i : Nat) : (F.MON_CAP_trig_det i).key = (0xE8048 + 0x2000 * i) * 8 + 26 := rfl
@[simp] theorem F.MON_CAP_trig_det_width (i : Nat) : (F.MON_CAP_trig_det i).width = 2 := rfl
@[simp] theorem F.MON_CAP_evt_key (i : Nat) : (F.MON_CAP_evt i).key = (0xE8048 + 0x2000 * i) * 8 + 24 := rfl
@[simp] theorem F.MON_CAP_evt_width (i : Nat) : (F.MON_CAP_evt i).width = 2 := rfl
@[simp] theorem F.MON_CAP_pre_key (i : Nat) : (F.MON_CAP_pre i).key = (0xE8048 + 0x2000 * i) * 8 + 16 := rfl
@[simp] theorem F.MON_CAP_pre_width (i : Nat) : (F.MON_CAP_pre i).width = 8 := rfl
@[simp] theorem F.MON_CAP_one_shot_key (i : Nat) : (F.MON_CAP_one_shot i).key = (0xE8048 + 0x2000 * i) * 8 + 15 := rfl
@[simp] theorem F.MON_CAP_one_shot_width (i : Nat) : (F.MON_CAP_one_shot i).width = 1 := rfl
@[simp] theorem F.MON_CAP_LEN_len_key (i : Nat) : (F.MON_CAP_LEN_len i).key = (0xE804C + 0x2000 * i) * 8 + 0 := rfl
@[simp] theorem F.MON_CAP_LEN_len_width (i : Nat) : (F.MON_CAP_LEN_len i).width = 28 := rfl
@[simp] theorem F.MON_CAP_AREA_page_key (i : Nat) : (F.MON_CAP_AREA_page i).key = (0xE8050 + 0x2000 * i) * 8 + 0 := rfl
@[simp] theorem F.MON_CAP_AREA_page_width (i : Nat) : (F.MON_CAP_AREA_page i).width = 18 := rfl
@[simp] theorem F.MON_STAT_state_key (i : Nat) : (F.MON_STAT_state i).key = (0xE805C + 0x2000 * i) * 8 + 30 := rfl
@[simp] theorem F.MON_STAT_state_width (i : Nat) : (F.MON_STAT_state i).width = 2 := rfl
@[simp] theorem F.MON_STAT_pending_key (i : Nat) : (F.MON_STAT_pending i).key = (0xE805C + 0x2000 * i) * 8 + 29 := rfl
@[simp] theorem F.MON_STAT_pending_width (i : Nat) : (F.MON_STAT_pending i).width = 1 := rfl
@[simp] theorem F.MON_STAT_overrun_key (i : Nat) : (F.MON_STAT_overrun i).key = (0xE805C + 0x2000 * i) * 8 + 28 := rfl
@[simp] theorem F.MON_STAT_overrun_width (i : Nat) : (F.MON_STAT_overrun i).width = 1 := rfl
@[simp] theorem F.MON_STAT_length_key (i : Nat) : (F.MON_STAT_length i).key = (0xE805C + 0x2000 * i) * 8 + 0 := rfl
@[simp] theorem F.MON_STAT_length_width (i : Nat) : (F.MON_STAT_length i).width = 28 := rfl
@[simp] theorem F.MON_PEAK_value_key (i : Nat) : (F.MON_PEAK_value i).key = (0xE8060 + 0x2000 * i) * 8 + 0 := rfl
@[simp] theorem F.MON_PEAK_value_width (i : Nat) : (F.MON_PEAK_value i).width = 16 := rfl
@[simp] theorem F.MON_RMS_value_key (i : Nat) : (F.MON_RMS_value i).key = (0xE8064 + 0x2000 * i) * 8 + 0 := rfl
@[simp] theorem F.MON_RMS_value_width (i : Nat) : (F.MON_RMS_value i).width = 16 := rfl
@[simp] theorem F.MON_ENV_value_key (i : Nat) : (F.MON_ENV_value i).key = (0xE8068 + 0x2000 * i) * 8 + 0 := rfl
@[simp] theorem F.MON_ENV_value_width (i : Nat) : (F.MON_ENV_value i).width = 16 := rfl
@[simp] theorem F.MON_TRIG_OVL_count_key (i : Nat) : (F.MON_TRIG_OVL_count i).key = (0xE806C + 0x2000 * i) * 8 + 0 := rfl
@[simp] theorem F.MON_TRIG_OVL_count_width (i : Nat) : (F.MON_TRIG_OVL_count i).width = 32 := rfl
@[simp] theorem F.MON_SAT_count_key (i : Nat) : (F.MON_SAT_count i).key = (0xE8070 + 0x2000 * i) * 8 + 0 := rfl
@[simp] theorem F.MON_SAT_count_width (i : Nat) : (F.MON_SAT_count i).width = 32 := rfl
@[simp] theorem F.MON_CAP_SEQ_count_key (i : Nat) : (F.MON_CAP_SEQ_count i).key = (0xE8074 + 0x2000 * i) * 8 + 0 := rfl
@[simp] theorem F.MON_CAP_SEQ_count_width (i : Nat) : (F.MON_CAP_SEQ_count i).width = 32 := rfl
@[simp] theorem F.MON_TRIG_T_LO_time_key (i : Nat) : (F.MON_TRIG_T_LO_time i).key = (0xE8078 + 0x2000 * i) * 8 + 0 := rfl
@[simp] theorem F.MON_TRIG_T_LO_time_width (i : Nat) : (F.MON_TRIG_T_LO_time i).width = 32 := rfl
@[simp] theorem F.MON_TRIG_T_HI_time_key (i : Nat) : (F.MON_TRIG_T_HI_time i).key = (0xE807C + 0x2000 * i) * 8 + 0 := rfl
@[simp] theorem F.MON_TRIG_T_HI_time_width (i : Nat) : (F.MON_TRIG_T_HI_time i).width = 32 := rfl
@[simp] theorem F.TRIM_ADC_gain_key (i j k : Nat) : (F.TRIM_ADC_gain i j k).key = (0x320000 + 0x4000 * i + 0x800 * j + 0x4 * k) * 8 + 20 := rfl
@[simp] theorem F.TRIM_ADC_gain_width (i j k : Nat) : (F.TRIM_ADC_gain i j k).width = 12 := rfl
@[simp] theorem F.TRIM_ADC_offset_key (i j k : Nat) : (F.TRIM_ADC_offset i j k).key = (0x320000 + 0x4000 * i + 0x800 * j + 0x4 * k) * 8 + 10 := rfl
@[simp] theorem F.TRIM_ADC_offset_width (i j k : Nat) : (F.TRIM_ADC_offset i j k).width = 10 := rfl
@[simp] theorem F.TRIM_ADC_skew_key (i j k : Nat) : (F.TRIM_ADC_skew i j k).key = (0x320000 + 0x4000 * i + 0x800 * j + 0x4 * k) * 8 + 0 := rfl
@[simp] theorem F.TRIM_ADC_skew_width (i j k : Nat) : (F.TRIM_ADC_skew i j k).width = 10 := rfl
@[simp] theorem F.TRIM_DAC_gain_key (i j k : Nat) : (F.TRIM_DAC_gain i j k).key = (0x320440 + 0x4000 * i + 0x800 * j + 0x4 * k) * 8 + 20 := rfl
@[simp] theorem F.TRIM_DAC_gain_width (i j k : Nat) : (F.TRIM_DAC_gain i j k).width = 12 := rfl
@[simp] theorem F.TRIM_DAC_offset_key (i j k : Nat) : (F.TRIM_DAC_offset i j k).key = (0x320440 + 0x4000 * i + 0x800 * j + 0x4 * k) * 8 + 10 := rfl
@[simp] theorem F.TRIM_DAC_offset_width (i j k : Nat) : (F.TRIM_DAC_offset i j k).width = 10 := rfl
@[simp] theorem F.TRIM_DAC_skew_key (i j k : Nat) : (F.TRIM_DAC_skew i j k).key = (0x320440 + 0x4000 * i + 0x800 * j + 0x4 * k) * 8 + 0 := rfl
@[simp] theorem F.TRIM_DAC_skew_width (i j k : Nat) : (F.TRIM_DAC_skew i j k).width = 10 := rfl
@[simp] theorem F.TRIM_LANE_swing_key (i j k : Nat) : (F.TRIM_LANE_swing i j k).key = (0x320660 + 0x4000 * i + 0x800 * j + 0x4 * k) * 8 + 8 := rfl
@[simp] theorem F.TRIM_LANE_swing_width (i j k : Nat) : (F.TRIM_LANE_swing i j k).width = 8 := rfl
@[simp] theorem F.TRIM_LANE_peaking_key (i j k : Nat) : (F.TRIM_LANE_peaking i j k).key = (0x320660 + 0x4000 * i + 0x800 * j + 0x4 * k) * 8 + 0 := rfl
@[simp] theorem F.TRIM_LANE_peaking_width (i j k : Nat) : (F.TRIM_LANE_peaking i j k).width = 8 := rfl
@[simp] theorem F.REP_TEST_pipe_interval_key : F.REP_TEST_pipe_interval.key = 0xF0044 * 8 + 24 := rfl
@[simp] theorem F.REP_TEST_pipe_interval_width : F.REP_TEST_pipe_interval.width = 8 := rfl
@[simp] theorem F.REP_TEST_page_interval_key : F.REP_TEST_page_interval.key = 0xF0044 * 8 + 16 := rfl
@[simp] theorem F.REP_TEST_page_interval_width : F.REP_TEST_page_interval.width = 8 := rfl
@[simp] theorem F.REP_TEST_dpll_interval_key : F.REP_TEST_dpll_interval.key = 0xF0044 * 8 + 0 := rfl
@[simp] theorem F.REP_TEST_dpll_interval_width : F.REP_TEST_dpll_interval.width = 16 := rfl
@[simp] theorem F.REP_CTRL_test_en_key : F.REP_CTRL_test_en.key = 0xF0040 * 8 + 31 := rfl
@[simp] theorem F.REP_CTRL_test_en_width : F.REP_CTRL_test_en.width = 1 := rfl
@[simp] theorem F.REP_CTRL_thm_test_en_key : F.REP_CTRL_thm_test_en.key = 0xF0040 * 8 + 30 := rfl
@[simp] theorem F.REP_CTRL_thm_test_en_width : F.REP_CTRL_thm_test_en.width = 1 := rfl
@[simp] theorem F.REP_STAT_degraded_reported_key : F.REP_STAT_degraded_reported.key = 0xF004C * 8 + 31 := rfl
@[simp] theorem F.REP_STAT_degraded_reported_width : F.REP_STAT_degraded_reported.width = 1 := rfl
@[simp] theorem F.REP_STAT_exhausted_key : F.REP_STAT_exhausted.key = 0xF004C * 8 + 16 := rfl
@[simp] theorem F.REP_STAT_exhausted_width : F.REP_STAT_exhausted.width = 10 := rfl
@[simp] theorem F.REP_STAT_dpll_test_busy_key : F.REP_STAT_dpll_test_busy.key = 0xF004C * 8 + 8 := rfl
@[simp] theorem F.REP_STAT_dpll_test_busy_width : F.REP_STAT_dpll_test_busy.width = 1 := rfl
@[simp] theorem F.REP_STAT_mon_fail_le1_key : F.REP_STAT_mon_fail_le1.key = 0xF004C * 8 + 3 := rfl
@[simp] theorem F.REP_STAT_mon_fail_le1_width : F.REP_STAT_mon_fail_le1.width = 1 := rfl
@[simp] theorem F.REP_STAT_mon_fail_le0_key : F.REP_STAT_mon_fail_le0.key = 0xF004C * 8 + 2 := rfl
@[simp] theorem F.REP_STAT_mon_fail_le0_width : F.REP_STAT_mon_fail_le0.width = 1 := rfl
@[simp] theorem F.REP_THM_FAIL_LO_bits_key : F.REP_THM_FAIL_LO_bits.key = 0xF0050 * 8 + 0 := rfl
@[simp] theorem F.REP_THM_FAIL_LO_bits_width : F.REP_THM_FAIL_LO_bits.width = 32 := rfl
@[simp] theorem F.REP_THM_FAIL_HI_bits_key : F.REP_THM_FAIL_HI_bits.key = 0xF0054 * 8 + 0 := rfl
@[simp] theorem F.REP_THM_FAIL_HI_bits_width : F.REP_THM_FAIL_HI_bits.width = 16 := rfl
@[simp] theorem F.REP_CLASS_STAT_exhausted_key (i : Nat) : (F.REP_CLASS_STAT_exhausted i).key = (0xF1040 + 0x4 * i) * 8 + 31 := rfl
@[simp] theorem F.REP_CLASS_STAT_exhausted_width (i : Nat) : (F.REP_CLASS_STAT_exhausted i).width = 1 := rfl
@[simp] theorem F.REP_CLASS_SWAPS_count_key (i : Nat) : (F.REP_CLASS_SWAPS_count i).key = (0xF1080 + 0x4 * i) * 8 + 0 := rfl
@[simp] theorem F.REP_CLASS_SWAPS_count_width (i : Nat) : (F.REP_CLASS_SWAPS_count i).width = 32 := rfl
@[simp] theorem F.CAL_ENG_CTRL_interp_en_key (i : Nat) : (F.CAL_ENG_CTRL_interp_en i).key = (0xF2040 + 0x20 * i) * 8 + 31 := rfl
@[simp] theorem F.CAL_ENG_CTRL_interp_en_width (i : Nat) : (F.CAL_ENG_CTRL_interp_en i).width = 1 := rfl
@[simp] theorem F.CAL_ENG_CTRL_learn_en_key (i : Nat) : (F.CAL_ENG_CTRL_learn_en i).key = (0xF2040 + 0x20 * i) * 8 + 30 := rfl
@[simp] theorem F.CAL_ENG_CTRL_learn_en_width (i : Nat) : (F.CAL_ENG_CTRL_learn_en i).width = 1 := rfl
@[simp] theorem F.CAL_ENG_CTRL_adc_rot_en_key (i : Nat) : (F.CAL_ENG_CTRL_adc_rot_en i).key = (0xF2040 + 0x20 * i) * 8 + 29 := rfl
@[simp] theorem F.CAL_ENG_CTRL_adc_rot_en_width (i : Nat) : (F.CAL_ENG_CTRL_adc_rot_en i).width = 1 := rfl
@[simp] theorem F.CAL_ENG_CTRL_dac_rot_en_key (i : Nat) : (F.CAL_ENG_CTRL_dac_rot_en i).key = (0xF2040 + 0x20 * i) * 8 + 28 := rfl
@[simp] theorem F.CAL_ENG_CTRL_dac_rot_en_width (i : Nat) : (F.CAL_ENG_CTRL_dac_rot_en i).width = 1 := rfl
@[simp] theorem F.CAL_ENG_CTRL_loop_en_key (i : Nat) : (F.CAL_ENG_CTRL_loop_en i).key = (0xF2040 + 0x20 * i) * 8 + 27 := rfl
@[simp] theorem F.CAL_ENG_CTRL_loop_en_width (i : Nat) : (F.CAL_ENG_CTRL_loop_en i).width = 1 := rfl
@[simp] theorem F.CAL_ENG_STAT_clamped_key (i : Nat) : (F.CAL_ENG_STAT_clamped i).key = (0xF2044 + 0x20 * i) * 8 + 31 := rfl
@[simp] theorem F.CAL_ENG_STAT_clamped_width (i : Nat) : (F.CAL_ENG_STAT_clamped i).width = 1 := rfl
@[simp] theorem F.CAL_ENG_STAT_learned_key (i : Nat) : (F.CAL_ENG_STAT_learned i).key = (0xF2044 + 0x20 * i) * 8 + 24 := rfl
@[simp] theorem F.CAL_ENG_STAT_learned_width (i : Nat) : (F.CAL_ENG_STAT_learned i).width = 6 := rfl
@[simp] theorem F.CAL_ENG_STAT_lower_key (i : Nat) : (F.CAL_ENG_STAT_lower i).key = (0xF2044 + 0x20 * i) * 8 + 21 := rfl
@[simp] theorem F.CAL_ENG_STAT_lower_width (i : Nat) : (F.CAL_ENG_STAT_lower i).width = 3 := rfl
@[simp] theorem F.CAL_ENG_STAT_die_temp_key (i : Nat) : (F.CAL_ENG_STAT_die_temp i).key = (0xF2044 + 0x20 * i) * 8 + 0 := rfl
@[simp] theorem F.CAL_ENG_STAT_die_temp_width (i : Nat) : (F.CAL_ENG_STAT_die_temp i).width = 16 := rfl
@[simp] theorem F.CAL_ENG_ROT_dac_rot_ms_key (i : Nat) : (F.CAL_ENG_ROT_dac_rot_ms i).key = (0xF2048 + 0x20 * i) * 8 + 16 := rfl
@[simp] theorem F.CAL_ENG_ROT_dac_rot_ms_width (i : Nat) : (F.CAL_ENG_ROT_dac_rot_ms i).width = 16 := rfl
@[simp] theorem F.CAL_ENG_ROT_adc_rot_ms_key (i : Nat) : (F.CAL_ENG_ROT_adc_rot_ms i).key = (0xF2048 + 0x20 * i) * 8 + 0 := rfl
@[simp] theorem F.CAL_ENG_ROT_adc_rot_ms_width (i : Nat) : (F.CAL_ENG_ROT_adc_rot_ms i).width = 16 := rfl
@[simp] theorem F.CAL_FG_busy_key : F.CAL_FG_busy.key = 0xF2080 * 8 + 30 := rfl
@[simp] theorem F.CAL_FG_busy_width : F.CAL_FG_busy.width = 1 := rfl
@[simp] theorem F.CAL_FG_engine_key : F.CAL_FG_engine.key = 0xF2080 * 8 + 8 := rfl
@[simp] theorem F.CAL_FG_engine_width : F.CAL_FG_engine.width = 1 := rfl
@[simp] theorem F.CAL_FG_fec_key : F.CAL_FG_fec.key = 0xF2080 * 8 + 2 := rfl
@[simp] theorem F.CAL_FG_fec_width : F.CAL_FG_fec.width = 1 := rfl
@[simp] theorem F.CAL_FG_dac_key : F.CAL_FG_dac.key = 0xF2080 * 8 + 1 := rfl
@[simp] theorem F.CAL_FG_dac_width : F.CAL_FG_dac.width = 1 := rfl
@[simp] theorem F.CAL_FG_adc_key : F.CAL_FG_adc.key = 0xF2080 * 8 + 0 := rfl
@[simp] theorem F.CAL_FG_adc_width : F.CAL_FG_adc.width = 1 := rfl
@[simp] theorem F.CAL_FG_STAT_slices_key : F.CAL_FG_STAT_slices.key = 0xF2084 * 8 + 16 := rfl
@[simp] theorem F.CAL_FG_STAT_slices_width : F.CAL_FG_STAT_slices.width = 8 := rfl
@[simp] theorem F.CAL_FG_STAT_subdacs_key : F.CAL_FG_STAT_subdacs.key = 0xF2084 * 8 + 8 := rfl
@[simp] theorem F.CAL_FG_STAT_subdacs_width : F.CAL_FG_STAT_subdacs.width = 8 := rfl
@[simp] theorem F.CAL_FG_STAT_tiles_key : F.CAL_FG_STAT_tiles.key = 0xF2084 * 8 + 0 := rfl
@[simp] theorem F.CAL_FG_STAT_tiles_width : F.CAL_FG_STAT_tiles.width = 8 := rfl
@[simp] theorem F.CNT_SEL_en_key (i : Nat) : (F.CNT_SEL_en i).key = (0x330000 + 0x20 * i) * 8 + 31 := rfl
@[simp] theorem F.CNT_SEL_en_width (i : Nat) : (F.CNT_SEL_en i).width = 1 := rfl
@[simp] theorem F.CNT_SEL_mode_key (i : Nat) : (F.CNT_SEL_mode i).key = (0x330000 + 0x20 * i) * 8 + 29 := rfl
@[simp] theorem F.CNT_SEL_mode_width (i : Nat) : (F.CNT_SEL_mode i).width = 2 := rfl
@[simp] theorem F.CNT_SEL_chain_in_key (i : Nat) : (F.CNT_SEL_chain_in i).key = (0x330000 + 0x20 * i) * 8 + 28 := rfl
@[simp] theorem F.CNT_SEL_chain_in_width (i : Nat) : (F.CNT_SEL_chain_in i).width = 1 := rfl
@[simp] theorem F.CNT_SEL_src_key (i : Nat) : (F.CNT_SEL_src i).key = (0x330000 + 0x20 * i) * 8 + 27 := rfl
@[simp] theorem F.CNT_SEL_src_width (i : Nat) : (F.CNT_SEL_src i).width = 1 := rfl
@[simp] theorem F.CNT_SEL_sat_key (i : Nat) : (F.CNT_SEL_sat i).key = (0x330000 + 0x20 * i) * 8 + 26 := rfl
@[simp] theorem F.CNT_SEL_sat_width (i : Nat) : (F.CNT_SEL_sat i).width = 1 := rfl
@[simp] theorem F.CNT_SEL_sel_key (i : Nat) : (F.CNT_SEL_sel i).key = (0x330000 + 0x20 * i) * 8 + 13 := rfl
@[simp] theorem F.CNT_SEL_sel_width (i : Nat) : (F.CNT_SEL_sel i).width = 13 := rfl
@[simp] theorem F.CNT_THR_thr_key (i : Nat) : (F.CNT_THR_thr i).key = (0x330004 + 0x20 * i) * 8 + 0 := rfl
@[simp] theorem F.CNT_THR_thr_width (i : Nat) : (F.CNT_THR_thr i).width = 32 := rfl
@[simp] theorem F.CNT_LO_value_key (i : Nat) : (F.CNT_LO_value i).key = (0x330008 + 0x20 * i) * 8 + 0 := rfl
@[simp] theorem F.CNT_LO_value_width (i : Nat) : (F.CNT_LO_value i).width = 32 := rfl
@[simp] theorem F.CNT_HI_value_key (i : Nat) : (F.CNT_HI_value i).key = (0x33000C + 0x20 * i) * 8 + 0 := rfl
@[simp] theorem F.CNT_HI_value_width (i : Nat) : (F.CNT_HI_value i).width = 16 := rfl
@[simp] theorem F.CNT_SNAP_LO_value_key (i : Nat) : (F.CNT_SNAP_LO_value i).key = (0x330010 + 0x20 * i) * 8 + 0 := rfl
@[simp] theorem F.CNT_SNAP_LO_value_width (i : Nat) : (F.CNT_SNAP_LO_value i).width = 32 := rfl
@[simp] theorem F.CNT_SNAP_HI_value_key (i : Nat) : (F.CNT_SNAP_HI_value i).key = (0x330014 + 0x20 * i) * 8 + 0 := rfl
@[simp] theorem F.CNT_SNAP_HI_value_width (i : Nat) : (F.CNT_SNAP_HI_value i).width = 16 := rfl
@[simp] theorem F.EVL_CTRL_policy_key : F.EVL_CTRL_policy.key = 0xFA040 * 8 + 30 := rfl
@[simp] theorem F.EVL_CTRL_policy_width : F.EVL_CTRL_policy.width = 2 := rfl
@[simp] theorem F.EVL_CTRL_fold_us_key : F.EVL_CTRL_fold_us.key = 0xFA040 * 8 + 0 := rfl
@[simp] theorem F.EVL_CTRL_fold_us_width : F.EVL_CTRL_fold_us.width = 16 := rfl
@[simp] theorem F.EVL_HEAD_count_key : F.EVL_HEAD_count.key = 0xFA044 * 8 + 0 := rfl
@[simp] theorem F.EVL_HEAD_count_width : F.EVL_HEAD_count.width = 32 := rfl
@[simp] theorem F.EVL_TAIL_count_key : F.EVL_TAIL_count.key = 0xFA048 * 8 + 0 := rfl
@[simp] theorem F.EVL_TAIL_count_width : F.EVL_TAIL_count.width = 32 := rfl
@[simp] theorem F.EVL_DROP_count_key : F.EVL_DROP_count.key = 0xFA04C * 8 + 0 := rfl
@[simp] theorem F.EVL_DROP_count_width : F.EVL_DROP_count.width = 32 := rfl
@[simp] theorem F.EVL_LATE_count_key : F.EVL_LATE_count.key = 0xFA050 * 8 + 0 := rfl
@[simp] theorem F.EVL_LATE_count_width : F.EVL_LATE_count.width = 32 := rfl
@[simp] theorem F.EVL_MASK_mask_key (i : Nat) : (F.EVL_MASK_mask i).key = (0xFB400 + 0x4 * i) * 8 + 0 := rfl
@[simp] theorem F.EVL_MASK_mask_width (i : Nat) : (F.EVL_MASK_mask i).width = 32 := rfl
@[simp] theorem F.CNT_FREEZE_freeze_key : F.CNT_FREEZE_freeze.key = 0xF8040 * 8 + 31 := rfl
@[simp] theorem F.CNT_FREEZE_freeze_width : F.CNT_FREEZE_freeze.width = 1 := rfl
@[simp] theorem F.CNT_FREEZE_busy_key : F.CNT_FREEZE_busy.key = 0xF8040 * 8 + 30 := rfl
@[simp] theorem F.CNT_FREEZE_busy_width : F.CNT_FREEZE_busy.width = 1 := rfl
@[simp] theorem F.CNT_FREEZE_lead_key : F.CNT_FREEZE_lead.key = 0xF8040 * 8 + 0 := rfl
@[simp] theorem F.CNT_FREEZE_lead_width : F.CNT_FREEZE_lead.width = 16 := rfl
@[simp] theorem F.CNT_FREEZE_T_LO_value_key : F.CNT_FREEZE_T_LO_value.key = 0xF8044 * 8 + 0 := rfl
@[simp] theorem F.CNT_FREEZE_T_LO_value_width : F.CNT_FREEZE_T_LO_value.width = 32 := rfl
@[simp] theorem F.CNT_FREEZE_T_HI_value_key : F.CNT_FREEZE_T_HI_value.key = 0xF8048 * 8 + 0 := rfl
@[simp] theorem F.CNT_FREEZE_T_HI_value_width : F.CNT_FREEZE_T_HI_value.width = 32 := rfl
@[simp] theorem F.CNT_OVF_bits_key (i : Nat) : (F.CNT_OVF_bits i).key = (0xF8080 + 0x4 * i) * 8 + 0 := rfl
@[simp] theorem F.CNT_OVF_bits_width (i : Nat) : (F.CNT_OVF_bits i).width = 32 := rfl
@[simp] theorem F.SMP_CTRL_en_key : F.SMP_CTRL_en.key = 0xF9040 * 8 + 31 := rfl
@[simp] theorem F.SMP_CTRL_en_width : F.SMP_CTRL_en.width = 1 := rfl
@[simp] theorem F.SMP_CTRL_stop_key : F.SMP_CTRL_stop.key = 0xF9040 * 8 + 30 := rfl
@[simp] theorem F.SMP_CTRL_stop_width : F.SMP_CTRL_stop.width = 1 := rfl
@[simp] theorem F.SMP_CTRL_path_key : F.SMP_CTRL_path.key = 0xF9040 * 8 + 28 := rfl
@[simp] theorem F.SMP_CTRL_path_width : F.SMP_CTRL_path.width = 2 := rfl
@[simp] theorem F.SMP_CTRL_k_key : F.SMP_CTRL_k.key = 0xF9040 * 8 + 23 := rfl
@[simp] theorem F.SMP_CTRL_k_width : F.SMP_CTRL_k.width = 5 := rfl
@[simp] theorem F.SMP_CTRL_j_key : F.SMP_CTRL_j.key = 0xF9040 * 8 + 18 := rfl
@[simp] theorem F.SMP_CTRL_j_width : F.SMP_CTRL_j.width = 5 := rfl
@[simp] theorem F.SMP_CTRL_port_key : F.SMP_CTRL_port.key = 0xF9040 * 8 + 13 := rfl
@[simp] theorem F.SMP_CTRL_port_width : F.SMP_CTRL_port.width = 5 := rfl
@[simp] theorem F.SMP_CTRL_port_en_key : F.SMP_CTRL_port_en.key = 0xF9040 * 8 + 12 := rfl
@[simp] theorem F.SMP_CTRL_port_en_width : F.SMP_CTRL_port_en.width = 1 := rfl
@[simp] theorem F.SMP_STAT_full_key : F.SMP_STAT_full.key = 0xF9044 * 8 + 31 := rfl
@[simp] theorem F.SMP_STAT_full_width : F.SMP_STAT_full.width = 1 := rfl
@[simp] theorem F.SMP_STAT_inflight_key : F.SMP_STAT_inflight.key = 0xF9044 * 8 + 16 := rfl
@[simp] theorem F.SMP_STAT_inflight_width : F.SMP_STAT_inflight.width = 5 := rfl
@[simp] theorem F.SMP_STAT_held_key : F.SMP_STAT_held.key = 0xF9044 * 8 + 0 := rfl
@[simp] theorem F.SMP_STAT_held_width : F.SMP_STAT_held.width = 14 := rfl
@[simp] theorem F.SMP_WR_COUNT_count_key : F.SMP_WR_COUNT_count.key = 0xF9048 * 8 + 0 := rfl
@[simp] theorem F.SMP_WR_COUNT_count_width : F.SMP_WR_COUNT_count.width = 32 := rfl
@[simp] theorem F.SMP_SKIP_count_key : F.SMP_SKIP_count.key = 0xF904C * 8 + 0 := rfl
@[simp] theorem F.SMP_SKIP_count_width : F.SMP_SKIP_count.width = 32 := rfl
@[simp] theorem F.DEV_AVS_avs_fail_key : F.DEV_AVS_avs_fail.key = 0x5C * 8 + 31 := rfl
@[simp] theorem F.DEV_AVS_avs_fail_width : F.DEV_AVS_avs_fail.width = 1 := rfl
@[simp] theorem F.DEV_AVS_avs_busy_key : F.DEV_AVS_avs_busy.key = 0x5C * 8 + 30 := rfl
@[simp] theorem F.DEV_AVS_avs_busy_width : F.DEV_AVS_avs_busy.width = 1 := rfl
@[simp] theorem F.DEV_AVS_fused_code_key : F.DEV_AVS_fused_code.key = 0x5C * 8 + 16 := rfl
@[simp] theorem F.DEV_AVS_fused_code_width : F.DEV_AVS_fused_code.width = 8 := rfl
@[simp] theorem F.DEV_AVS_setpoint_code_key : F.DEV_AVS_setpoint_code.key = 0x5C * 8 + 0 := rfl
@[simp] theorem F.DEV_AVS_setpoint_code_width : F.DEV_AVS_setpoint_code.width = 8 := rfl
@[simp] theorem F.GPIO_DIR_dir_key : F.GPIO_DIR_dir.key = 0x6040 * 8 + 0 := rfl
@[simp] theorem F.GPIO_DIR_dir_width : F.GPIO_DIR_dir.width = 16 := rfl
@[simp] theorem F.GPIO_OUT_out_key : F.GPIO_OUT_out.key = 0x6044 * 8 + 0 := rfl
@[simp] theorem F.GPIO_OUT_out_width : F.GPIO_OUT_out.width = 16 := rfl
@[simp] theorem F.GPIO_IN_in_key : F.GPIO_IN_in.key = 0x6048 * 8 + 0 := rfl
@[simp] theorem F.GPIO_IN_in_width : F.GPIO_IN_in.width = 16 := rfl
@[simp] theorem F.GPIO_EDGE_falling_key : F.GPIO_EDGE_falling.key = 0x604C * 8 + 16 := rfl
@[simp] theorem F.GPIO_EDGE_falling_width : F.GPIO_EDGE_falling.width = 16 := rfl
@[simp] theorem F.GPIO_EDGE_rising_key : F.GPIO_EDGE_rising.key = 0x604C * 8 + 0 := rfl
@[simp] theorem F.GPIO_EDGE_rising_width : F.GPIO_EDGE_rising.width = 16 := rfl

end Sys2Proof.Machine
end

