-- ==== Sys2Proof/Laws/State.lean ====
section
/-! SUPPORT. What each named operation leaves of the state's fields, one lemma per field, and what register fields read as after it. -/
namespace Sys2Proof.Machine

/-! ## Operations on register fields, time, free values and engines -/

@[simp] theorem State.setF_pending (s : State) (f : Field) (v : Nat) : (s.setF f v).pending = s.pending := rfl
@[simp] theorem State.setF_time (s : State) (f : Field) (v : Nat) : (s.setF f v).time = s.time := rfl
@[simp] theorem State.setF_drawn (s : State) (f : Field) (v : Nat) : (s.setF f v).drawn = s.drawn := rfl
@[simp] theorem State.setF_staged (s : State) (f : Field) (v : Nat) : (s.setF f v).staged = s.staged := rfl
@[simp] theorem State.setF_buffer (s : State) (f : Field) (v : Nat) : (s.setF f v).buffer = s.buffer := rfl
@[simp] theorem State.setF_inForce (s : State) (f : Field) (v : Nat) : (s.setF f v).inForce = s.inForce := rfl
@[simp] theorem State.setF_ev (s : State) (f : Field) (v : Nat) : (s.setF f v).ev = s.ev := rfl
@[simp] theorem State.setF_fab (s : State) (f : Field) (v : Nat) : (s.setF f v).fab = s.fab := rfl
@[simp] theorem State.setF_dev (s : State) (f : Field) (v : Nat) : (s.setF f v).dev = s.dev := rfl
@[simp] theorem State.setF_le0 (s : State) (f : Field) (v : Nat) : (s.setF f v).le0 = s.le0 := rfl
@[simp] theorem State.setF_le1 (s : State) (f : Field) (v : Nat) : (s.setF f v).le1 = s.le1 := rfl
@[simp] theorem State.setF_lanes (s : State) (f : Field) (v : Nat) : (s.setF f v).lanes = s.lanes := rfl
@[simp] theorem State.setF_cls (s : State) (f : Field) (v : Nat) : (s.setF f v).cls = s.cls := rfl
@[simp] theorem State.setF_buf (s : State) (f : Field) (v : Nat) : (s.setF f v).buf = s.buf := rfl
@[simp] theorem State.setF_grp (s : State) (f : Field) (v : Nat) : (s.setF f v).grp = s.grp := rfl
@[simp] theorem State.setF_cip (s : State) (f : Field) (v : Nat) : (s.setF f v).cip = s.cip := rfl
@[simp] theorem State.setF_enc (s : State) (f : Field) (v : Nat) : (s.setF f v).enc = s.enc := rfl
@[simp] theorem State.setF_syn (s : State) (f : Field) (v : Nat) : (s.setF f v).syn = s.syn := rfl
@[simp] theorem State.setF_rep (s : State) (f : Field) (v : Nat) : (s.setF f v).rep = s.rep := rfl
@[simp] theorem State.setF_evl (s : State) (f : Field) (v : Nat) : (s.setF f v).evl = s.evl := rfl
@[simp] theorem State.setF_cnt (s : State) (f : Field) (v : Nat) : (s.setF f v).cnt = s.cnt := rfl
@[simp] theorem State.setF_smp (s : State) (f : Field) (v : Nat) : (s.setF f v).smp = s.smp := rfl
@[simp] theorem State.setF_thm (s : State) (f : Field) (v : Nat) : (s.setF f v).thm = s.thm := rfl
@[simp] theorem State.setF_hmpLog (s : State) (f : Field) (v : Nat) : (s.setF f v).hmpLog = s.hmpLog := rfl
@[simp] theorem State.setF_spi (s : State) (f : Field) (v : Nat) : (s.setF f v).spi = s.spi := rfl

@[simp] theorem State.setB_pending (s : State) (f : Field) (b : Bool) : (s.setB f b).pending = s.pending := rfl
@[simp] theorem State.setB_time (s : State) (f : Field) (b : Bool) : (s.setB f b).time = s.time := rfl
@[simp] theorem State.setB_drawn (s : State) (f : Field) (b : Bool) : (s.setB f b).drawn = s.drawn := rfl
@[simp] theorem State.setB_staged (s : State) (f : Field) (b : Bool) : (s.setB f b).staged = s.staged := rfl
@[simp] theorem State.setB_buffer (s : State) (f : Field) (b : Bool) : (s.setB f b).buffer = s.buffer := rfl
@[simp] theorem State.setB_inForce (s : State) (f : Field) (b : Bool) : (s.setB f b).inForce = s.inForce := rfl
@[simp] theorem State.setB_ev (s : State) (f : Field) (b : Bool) : (s.setB f b).ev = s.ev := rfl
@[simp] theorem State.setB_fab (s : State) (f : Field) (b : Bool) : (s.setB f b).fab = s.fab := rfl
@[simp] theorem State.setB_dev (s : State) (f : Field) (b : Bool) : (s.setB f b).dev = s.dev := rfl
@[simp] theorem State.setB_le0 (s : State) (f : Field) (b : Bool) : (s.setB f b).le0 = s.le0 := rfl
@[simp] theorem State.setB_le1 (s : State) (f : Field) (b : Bool) : (s.setB f b).le1 = s.le1 := rfl
@[simp] theorem State.setB_lanes (s : State) (f : Field) (b : Bool) : (s.setB f b).lanes = s.lanes := rfl
@[simp] theorem State.setB_cls (s : State) (f : Field) (b : Bool) : (s.setB f b).cls = s.cls := rfl
@[simp] theorem State.setB_buf (s : State) (f : Field) (b : Bool) : (s.setB f b).buf = s.buf := rfl
@[simp] theorem State.setB_grp (s : State) (f : Field) (b : Bool) : (s.setB f b).grp = s.grp := rfl
@[simp] theorem State.setB_cip (s : State) (f : Field) (b : Bool) : (s.setB f b).cip = s.cip := rfl
@[simp] theorem State.setB_enc (s : State) (f : Field) (b : Bool) : (s.setB f b).enc = s.enc := rfl
@[simp] theorem State.setB_syn (s : State) (f : Field) (b : Bool) : (s.setB f b).syn = s.syn := rfl
@[simp] theorem State.setB_rep (s : State) (f : Field) (b : Bool) : (s.setB f b).rep = s.rep := rfl
@[simp] theorem State.setB_evl (s : State) (f : Field) (b : Bool) : (s.setB f b).evl = s.evl := rfl
@[simp] theorem State.setB_cnt (s : State) (f : Field) (b : Bool) : (s.setB f b).cnt = s.cnt := rfl
@[simp] theorem State.setB_smp (s : State) (f : Field) (b : Bool) : (s.setB f b).smp = s.smp := rfl
@[simp] theorem State.setB_thm (s : State) (f : Field) (b : Bool) : (s.setB f b).thm = s.thm := rfl
@[simp] theorem State.setB_hmpLog (s : State) (f : Field) (b : Bool) : (s.setB f b).hmpLog = s.hmpLog := rfl
@[simp] theorem State.setB_spi (s : State) (f : Field) (b : Bool) : (s.setB f b).spi = s.spi := rfl

@[simp] theorem State.bump_pending (s : State) (f : Field) (n : Nat) : (s.bump f n).pending = s.pending := rfl
@[simp] theorem State.bump_time (s : State) (f : Field) (n : Nat) : (s.bump f n).time = s.time := rfl
@[simp] theorem State.bump_drawn (s : State) (f : Field) (n : Nat) : (s.bump f n).drawn = s.drawn := rfl
@[simp] theorem State.bump_staged (s : State) (f : Field) (n : Nat) : (s.bump f n).staged = s.staged := rfl
@[simp] theorem State.bump_buffer (s : State) (f : Field) (n : Nat) : (s.bump f n).buffer = s.buffer := rfl
@[simp] theorem State.bump_inForce (s : State) (f : Field) (n : Nat) : (s.bump f n).inForce = s.inForce := rfl
@[simp] theorem State.bump_ev (s : State) (f : Field) (n : Nat) : (s.bump f n).ev = s.ev := rfl
@[simp] theorem State.bump_fab (s : State) (f : Field) (n : Nat) : (s.bump f n).fab = s.fab := rfl
@[simp] theorem State.bump_dev (s : State) (f : Field) (n : Nat) : (s.bump f n).dev = s.dev := rfl
@[simp] theorem State.bump_le0 (s : State) (f : Field) (n : Nat) : (s.bump f n).le0 = s.le0 := rfl
@[simp] theorem State.bump_le1 (s : State) (f : Field) (n : Nat) : (s.bump f n).le1 = s.le1 := rfl
@[simp] theorem State.bump_lanes (s : State) (f : Field) (n : Nat) : (s.bump f n).lanes = s.lanes := rfl
@[simp] theorem State.bump_cls (s : State) (f : Field) (n : Nat) : (s.bump f n).cls = s.cls := rfl
@[simp] theorem State.bump_buf (s : State) (f : Field) (n : Nat) : (s.bump f n).buf = s.buf := rfl
@[simp] theorem State.bump_grp (s : State) (f : Field) (n : Nat) : (s.bump f n).grp = s.grp := rfl
@[simp] theorem State.bump_cip (s : State) (f : Field) (n : Nat) : (s.bump f n).cip = s.cip := rfl
@[simp] theorem State.bump_enc (s : State) (f : Field) (n : Nat) : (s.bump f n).enc = s.enc := rfl
@[simp] theorem State.bump_syn (s : State) (f : Field) (n : Nat) : (s.bump f n).syn = s.syn := rfl
@[simp] theorem State.bump_rep (s : State) (f : Field) (n : Nat) : (s.bump f n).rep = s.rep := rfl
@[simp] theorem State.bump_evl (s : State) (f : Field) (n : Nat) : (s.bump f n).evl = s.evl := rfl
@[simp] theorem State.bump_cnt (s : State) (f : Field) (n : Nat) : (s.bump f n).cnt = s.cnt := rfl
@[simp] theorem State.bump_smp (s : State) (f : Field) (n : Nat) : (s.bump f n).smp = s.smp := rfl
@[simp] theorem State.bump_thm (s : State) (f : Field) (n : Nat) : (s.bump f n).thm = s.thm := rfl
@[simp] theorem State.bump_hmpLog (s : State) (f : Field) (n : Nat) : (s.bump f n).hmpLog = s.hmpLog := rfl
@[simp] theorem State.bump_spi (s : State) (f : Field) (n : Nat) : (s.bump f n).spi = s.spi := rfl

@[simp] theorem State.incWrap_pending (s : State) (f : Field) (n : Nat) : (s.incWrap f n).pending = s.pending := rfl
@[simp] theorem State.incWrap_time (s : State) (f : Field) (n : Nat) : (s.incWrap f n).time = s.time := rfl
@[simp] theorem State.incWrap_drawn (s : State) (f : Field) (n : Nat) : (s.incWrap f n).drawn = s.drawn := rfl
@[simp] theorem State.incWrap_staged (s : State) (f : Field) (n : Nat) : (s.incWrap f n).staged = s.staged := rfl
@[simp] theorem State.incWrap_buffer (s : State) (f : Field) (n : Nat) : (s.incWrap f n).buffer = s.buffer := rfl
@[simp] theorem State.incWrap_inForce (s : State) (f : Field) (n : Nat) : (s.incWrap f n).inForce = s.inForce := rfl
@[simp] theorem State.incWrap_ev (s : State) (f : Field) (n : Nat) : (s.incWrap f n).ev = s.ev := rfl
@[simp] theorem State.incWrap_fab (s : State) (f : Field) (n : Nat) : (s.incWrap f n).fab = s.fab := rfl
@[simp] theorem State.incWrap_dev (s : State) (f : Field) (n : Nat) : (s.incWrap f n).dev = s.dev := rfl
@[simp] theorem State.incWrap_le0 (s : State) (f : Field) (n : Nat) : (s.incWrap f n).le0 = s.le0 := rfl
@[simp] theorem State.incWrap_le1 (s : State) (f : Field) (n : Nat) : (s.incWrap f n).le1 = s.le1 := rfl
@[simp] theorem State.incWrap_lanes (s : State) (f : Field) (n : Nat) : (s.incWrap f n).lanes = s.lanes := rfl
@[simp] theorem State.incWrap_cls (s : State) (f : Field) (n : Nat) : (s.incWrap f n).cls = s.cls := rfl
@[simp] theorem State.incWrap_buf (s : State) (f : Field) (n : Nat) : (s.incWrap f n).buf = s.buf := rfl
@[simp] theorem State.incWrap_grp (s : State) (f : Field) (n : Nat) : (s.incWrap f n).grp = s.grp := rfl
@[simp] theorem State.incWrap_cip (s : State) (f : Field) (n : Nat) : (s.incWrap f n).cip = s.cip := rfl
@[simp] theorem State.incWrap_enc (s : State) (f : Field) (n : Nat) : (s.incWrap f n).enc = s.enc := rfl
@[simp] theorem State.incWrap_syn (s : State) (f : Field) (n : Nat) : (s.incWrap f n).syn = s.syn := rfl
@[simp] theorem State.incWrap_rep (s : State) (f : Field) (n : Nat) : (s.incWrap f n).rep = s.rep := rfl
@[simp] theorem State.incWrap_evl (s : State) (f : Field) (n : Nat) : (s.incWrap f n).evl = s.evl := rfl
@[simp] theorem State.incWrap_cnt (s : State) (f : Field) (n : Nat) : (s.incWrap f n).cnt = s.cnt := rfl
@[simp] theorem State.incWrap_smp (s : State) (f : Field) (n : Nat) : (s.incWrap f n).smp = s.smp := rfl
@[simp] theorem State.incWrap_thm (s : State) (f : Field) (n : Nat) : (s.incWrap f n).thm = s.thm := rfl
@[simp] theorem State.incWrap_hmpLog (s : State) (f : Field) (n : Nat) : (s.incWrap f n).hmpLog = s.hmpLog := rfl
@[simp] theorem State.incWrap_spi (s : State) (f : Field) (n : Nat) : (s.incWrap f n).spi = s.spi := rfl

@[simp] theorem State.bump64_pending (s : State) (lo hi : Field) (n : Nat) : (s.bump64 lo hi n).pending = s.pending := rfl
@[simp] theorem State.bump64_time (s : State) (lo hi : Field) (n : Nat) : (s.bump64 lo hi n).time = s.time := rfl
@[simp] theorem State.bump64_drawn (s : State) (lo hi : Field) (n : Nat) : (s.bump64 lo hi n).drawn = s.drawn := rfl
@[simp] theorem State.bump64_staged (s : State) (lo hi : Field) (n : Nat) : (s.bump64 lo hi n).staged = s.staged := rfl
@[simp] theorem State.bump64_buffer (s : State) (lo hi : Field) (n : Nat) : (s.bump64 lo hi n).buffer = s.buffer := rfl
@[simp] theorem State.bump64_inForce (s : State) (lo hi : Field) (n : Nat) : (s.bump64 lo hi n).inForce = s.inForce := rfl
@[simp] theorem State.bump64_ev (s : State) (lo hi : Field) (n : Nat) : (s.bump64 lo hi n).ev = s.ev := rfl
@[simp] theorem State.bump64_fab (s : State) (lo hi : Field) (n : Nat) : (s.bump64 lo hi n).fab = s.fab := rfl
@[simp] theorem State.bump64_dev (s : State) (lo hi : Field) (n : Nat) : (s.bump64 lo hi n).dev = s.dev := rfl
@[simp] theorem State.bump64_le0 (s : State) (lo hi : Field) (n : Nat) : (s.bump64 lo hi n).le0 = s.le0 := rfl
@[simp] theorem State.bump64_le1 (s : State) (lo hi : Field) (n : Nat) : (s.bump64 lo hi n).le1 = s.le1 := rfl
@[simp] theorem State.bump64_lanes (s : State) (lo hi : Field) (n : Nat) : (s.bump64 lo hi n).lanes = s.lanes := rfl
@[simp] theorem State.bump64_cls (s : State) (lo hi : Field) (n : Nat) : (s.bump64 lo hi n).cls = s.cls := rfl
@[simp] theorem State.bump64_buf (s : State) (lo hi : Field) (n : Nat) : (s.bump64 lo hi n).buf = s.buf := rfl
@[simp] theorem State.bump64_grp (s : State) (lo hi : Field) (n : Nat) : (s.bump64 lo hi n).grp = s.grp := rfl
@[simp] theorem State.bump64_cip (s : State) (lo hi : Field) (n : Nat) : (s.bump64 lo hi n).cip = s.cip := rfl
@[simp] theorem State.bump64_enc (s : State) (lo hi : Field) (n : Nat) : (s.bump64 lo hi n).enc = s.enc := rfl
@[simp] theorem State.bump64_syn (s : State) (lo hi : Field) (n : Nat) : (s.bump64 lo hi n).syn = s.syn := rfl
@[simp] theorem State.bump64_rep (s : State) (lo hi : Field) (n : Nat) : (s.bump64 lo hi n).rep = s.rep := rfl
@[simp] theorem State.bump64_evl (s : State) (lo hi : Field) (n : Nat) : (s.bump64 lo hi n).evl = s.evl := rfl
@[simp] theorem State.bump64_cnt (s : State) (lo hi : Field) (n : Nat) : (s.bump64 lo hi n).cnt = s.cnt := rfl
@[simp] theorem State.bump64_smp (s : State) (lo hi : Field) (n : Nat) : (s.bump64 lo hi n).smp = s.smp := rfl
@[simp] theorem State.bump64_thm (s : State) (lo hi : Field) (n : Nat) : (s.bump64 lo hi n).thm = s.thm := rfl
@[simp] theorem State.bump64_hmpLog (s : State) (lo hi : Field) (n : Nat) : (s.bump64 lo hi n).hmpLog = s.hmpLog := rfl
@[simp] theorem State.bump64_spi (s : State) (lo hi : Field) (n : Nat) : (s.bump64 lo hi n).spi = s.spi := rfl

@[simp] theorem State.stage_pending (s : State) (f : Field) (v : Nat) : (s.stage f v).pending = s.pending := rfl
@[simp] theorem State.stage_time (s : State) (f : Field) (v : Nat) : (s.stage f v).time = s.time := rfl
@[simp] theorem State.stage_drawn (s : State) (f : Field) (v : Nat) : (s.stage f v).drawn = s.drawn := rfl
@[simp] theorem State.stage_fields (s : State) (f : Field) (v : Nat) : (s.stage f v).fields = s.fields := rfl
@[simp] theorem State.stage_buffer (s : State) (f : Field) (v : Nat) : (s.stage f v).buffer = s.buffer := rfl
@[simp] theorem State.stage_inForce (s : State) (f : Field) (v : Nat) : (s.stage f v).inForce = s.inForce := rfl
@[simp] theorem State.stage_ev (s : State) (f : Field) (v : Nat) : (s.stage f v).ev = s.ev := rfl
@[simp] theorem State.stage_fab (s : State) (f : Field) (v : Nat) : (s.stage f v).fab = s.fab := rfl
@[simp] theorem State.stage_dev (s : State) (f : Field) (v : Nat) : (s.stage f v).dev = s.dev := rfl
@[simp] theorem State.stage_le0 (s : State) (f : Field) (v : Nat) : (s.stage f v).le0 = s.le0 := rfl
@[simp] theorem State.stage_le1 (s : State) (f : Field) (v : Nat) : (s.stage f v).le1 = s.le1 := rfl
@[simp] theorem State.stage_lanes (s : State) (f : Field) (v : Nat) : (s.stage f v).lanes = s.lanes := rfl
@[simp] theorem State.stage_cls (s : State) (f : Field) (v : Nat) : (s.stage f v).cls = s.cls := rfl
@[simp] theorem State.stage_buf (s : State) (f : Field) (v : Nat) : (s.stage f v).buf = s.buf := rfl
@[simp] theorem State.stage_grp (s : State) (f : Field) (v : Nat) : (s.stage f v).grp = s.grp := rfl
@[simp] theorem State.stage_cip (s : State) (f : Field) (v : Nat) : (s.stage f v).cip = s.cip := rfl
@[simp] theorem State.stage_enc (s : State) (f : Field) (v : Nat) : (s.stage f v).enc = s.enc := rfl
@[simp] theorem State.stage_syn (s : State) (f : Field) (v : Nat) : (s.stage f v).syn = s.syn := rfl
@[simp] theorem State.stage_rep (s : State) (f : Field) (v : Nat) : (s.stage f v).rep = s.rep := rfl
@[simp] theorem State.stage_evl (s : State) (f : Field) (v : Nat) : (s.stage f v).evl = s.evl := rfl
@[simp] theorem State.stage_cnt (s : State) (f : Field) (v : Nat) : (s.stage f v).cnt = s.cnt := rfl
@[simp] theorem State.stage_smp (s : State) (f : Field) (v : Nat) : (s.stage f v).smp = s.smp := rfl
@[simp] theorem State.stage_thm (s : State) (f : Field) (v : Nat) : (s.stage f v).thm = s.thm := rfl
@[simp] theorem State.stage_hmpLog (s : State) (f : Field) (v : Nat) : (s.stage f v).hmpLog = s.hmpLog := rfl
@[simp] theorem State.stage_spi (s : State) (f : Field) (v : Nat) : (s.stage f v).spi = s.spi := rfl

@[simp] theorem State.force_pending (s : State) (f : Field) (v : Nat) : (s.force f v).pending = s.pending := rfl
@[simp] theorem State.force_time (s : State) (f : Field) (v : Nat) : (s.force f v).time = s.time := rfl
@[simp] theorem State.force_drawn (s : State) (f : Field) (v : Nat) : (s.force f v).drawn = s.drawn := rfl
@[simp] theorem State.force_fields (s : State) (f : Field) (v : Nat) : (s.force f v).fields = s.fields := rfl
@[simp] theorem State.force_staged (s : State) (f : Field) (v : Nat) : (s.force f v).staged = s.staged := rfl
@[simp] theorem State.force_buffer (s : State) (f : Field) (v : Nat) : (s.force f v).buffer = s.buffer := rfl
@[simp] theorem State.force_ev (s : State) (f : Field) (v : Nat) : (s.force f v).ev = s.ev := rfl
@[simp] theorem State.force_fab (s : State) (f : Field) (v : Nat) : (s.force f v).fab = s.fab := rfl
@[simp] theorem State.force_dev (s : State) (f : Field) (v : Nat) : (s.force f v).dev = s.dev := rfl
@[simp] theorem State.force_le0 (s : State) (f : Field) (v : Nat) : (s.force f v).le0 = s.le0 := rfl
@[simp] theorem State.force_le1 (s : State) (f : Field) (v : Nat) : (s.force f v).le1 = s.le1 := rfl
@[simp] theorem State.force_lanes (s : State) (f : Field) (v : Nat) : (s.force f v).lanes = s.lanes := rfl
@[simp] theorem State.force_cls (s : State) (f : Field) (v : Nat) : (s.force f v).cls = s.cls := rfl
@[simp] theorem State.force_buf (s : State) (f : Field) (v : Nat) : (s.force f v).buf = s.buf := rfl
@[simp] theorem State.force_grp (s : State) (f : Field) (v : Nat) : (s.force f v).grp = s.grp := rfl
@[simp] theorem State.force_cip (s : State) (f : Field) (v : Nat) : (s.force f v).cip = s.cip := rfl
@[simp] theorem State.force_enc (s : State) (f : Field) (v : Nat) : (s.force f v).enc = s.enc := rfl
@[simp] theorem State.force_syn (s : State) (f : Field) (v : Nat) : (s.force f v).syn = s.syn := rfl
@[simp] theorem State.force_rep (s : State) (f : Field) (v : Nat) : (s.force f v).rep = s.rep := rfl
@[simp] theorem State.force_evl (s : State) (f : Field) (v : Nat) : (s.force f v).evl = s.evl := rfl
@[simp] theorem State.force_cnt (s : State) (f : Field) (v : Nat) : (s.force f v).cnt = s.cnt := rfl
@[simp] theorem State.force_smp (s : State) (f : Field) (v : Nat) : (s.force f v).smp = s.smp := rfl
@[simp] theorem State.force_thm (s : State) (f : Field) (v : Nat) : (s.force f v).thm = s.thm := rfl
@[simp] theorem State.force_hmpLog (s : State) (f : Field) (v : Nat) : (s.force f v).hmpLog = s.hmpLog := rfl
@[simp] theorem State.force_spi (s : State) (f : Field) (v : Nat) : (s.force f v).spi = s.spi := rfl

@[simp] theorem State.draw_pending (s : State) (w : Nat) : ((s.draw w).2).pending = s.pending := rfl
@[simp] theorem State.draw_time (s : State) (w : Nat) : ((s.draw w).2).time = s.time := rfl
@[simp] theorem State.draw_fields (s : State) (w : Nat) : ((s.draw w).2).fields = s.fields := rfl
@[simp] theorem State.draw_staged (s : State) (w : Nat) : ((s.draw w).2).staged = s.staged := rfl
@[simp] theorem State.draw_buffer (s : State) (w : Nat) : ((s.draw w).2).buffer = s.buffer := rfl
@[simp] theorem State.draw_inForce (s : State) (w : Nat) : ((s.draw w).2).inForce = s.inForce := rfl
@[simp] theorem State.draw_ev (s : State) (w : Nat) : ((s.draw w).2).ev = s.ev := rfl
@[simp] theorem State.draw_fab (s : State) (w : Nat) : ((s.draw w).2).fab = s.fab := rfl
@[simp] theorem State.draw_dev (s : State) (w : Nat) : ((s.draw w).2).dev = s.dev := rfl
@[simp] theorem State.draw_le0 (s : State) (w : Nat) : ((s.draw w).2).le0 = s.le0 := rfl
@[simp] theorem State.draw_le1 (s : State) (w : Nat) : ((s.draw w).2).le1 = s.le1 := rfl
@[simp] theorem State.draw_lanes (s : State) (w : Nat) : ((s.draw w).2).lanes = s.lanes := rfl
@[simp] theorem State.draw_cls (s : State) (w : Nat) : ((s.draw w).2).cls = s.cls := rfl
@[simp] theorem State.draw_buf (s : State) (w : Nat) : ((s.draw w).2).buf = s.buf := rfl
@[simp] theorem State.draw_grp (s : State) (w : Nat) : ((s.draw w).2).grp = s.grp := rfl
@[simp] theorem State.draw_cip (s : State) (w : Nat) : ((s.draw w).2).cip = s.cip := rfl
@[simp] theorem State.draw_enc (s : State) (w : Nat) : ((s.draw w).2).enc = s.enc := rfl
@[simp] theorem State.draw_syn (s : State) (w : Nat) : ((s.draw w).2).syn = s.syn := rfl
@[simp] theorem State.draw_rep (s : State) (w : Nat) : ((s.draw w).2).rep = s.rep := rfl
@[simp] theorem State.draw_evl (s : State) (w : Nat) : ((s.draw w).2).evl = s.evl := rfl
@[simp] theorem State.draw_cnt (s : State) (w : Nat) : ((s.draw w).2).cnt = s.cnt := rfl
@[simp] theorem State.draw_smp (s : State) (w : Nat) : ((s.draw w).2).smp = s.smp := rfl
@[simp] theorem State.draw_thm (s : State) (w : Nat) : ((s.draw w).2).thm = s.thm := rfl
@[simp] theorem State.draw_hmpLog (s : State) (w : Nat) : ((s.draw w).2).hmpLog = s.hmpLog := rfl
@[simp] theorem State.draw_spi (s : State) (w : Nat) : ((s.draw w).2).spi = s.spi := rfl

@[simp] theorem State.reach_pending (s : State) (t : Nat) : (s.reach t).pending = s.pending := by unfold State.reach; split <;> rfl
@[simp] theorem State.reach_drawn (s : State) (t : Nat) : (s.reach t).drawn = s.drawn := by unfold State.reach; split <;> rfl
@[simp] theorem State.reach_fields (s : State) (t : Nat) : (s.reach t).fields = s.fields := by unfold State.reach; split <;> rfl
@[simp] theorem State.reach_staged (s : State) (t : Nat) : (s.reach t).staged = s.staged := by unfold State.reach; split <;> rfl
@[simp] theorem State.reach_buffer (s : State) (t : Nat) : (s.reach t).buffer = s.buffer := by unfold State.reach; split <;> rfl
@[simp] theorem State.reach_inForce (s : State) (t : Nat) : (s.reach t).inForce = s.inForce := by unfold State.reach; split <;> rfl
@[simp] theorem State.reach_ev (s : State) (t : Nat) : (s.reach t).ev = s.ev := by unfold State.reach; split <;> rfl
@[simp] theorem State.reach_fab (s : State) (t : Nat) : (s.reach t).fab = s.fab := by unfold State.reach; split <;> rfl
@[simp] theorem State.reach_dev (s : State) (t : Nat) : (s.reach t).dev = s.dev := by unfold State.reach; split <;> rfl
@[simp] theorem State.reach_le0 (s : State) (t : Nat) : (s.reach t).le0 = s.le0 := by unfold State.reach; split <;> rfl
@[simp] theorem State.reach_le1 (s : State) (t : Nat) : (s.reach t).le1 = s.le1 := by unfold State.reach; split <;> rfl
@[simp] theorem State.reach_lanes (s : State) (t : Nat) : (s.reach t).lanes = s.lanes := by unfold State.reach; split <;> rfl
@[simp] theorem State.reach_cls (s : State) (t : Nat) : (s.reach t).cls = s.cls := by unfold State.reach; split <;> rfl
@[simp] theorem State.reach_buf (s : State) (t : Nat) : (s.reach t).buf = s.buf := by unfold State.reach; split <;> rfl
@[simp] theorem State.reach_grp (s : State) (t : Nat) : (s.reach t).grp = s.grp := by unfold State.reach; split <;> rfl
@[simp] theorem State.reach_cip (s : State) (t : Nat) : (s.reach t).cip = s.cip := by unfold State.reach; split <;> rfl
@[simp] theorem State.reach_enc (s : State) (t : Nat) : (s.reach t).enc = s.enc := by unfold State.reach; split <;> rfl
@[simp] theorem State.reach_syn (s : State) (t : Nat) : (s.reach t).syn = s.syn := by unfold State.reach; split <;> rfl
@[simp] theorem State.reach_rep (s : State) (t : Nat) : (s.reach t).rep = s.rep := by unfold State.reach; split <;> rfl
@[simp] theorem State.reach_evl (s : State) (t : Nat) : (s.reach t).evl = s.evl := by unfold State.reach; split <;> rfl
@[simp] theorem State.reach_cnt (s : State) (t : Nat) : (s.reach t).cnt = s.cnt := by unfold State.reach; split <;> rfl
@[simp] theorem State.reach_smp (s : State) (t : Nat) : (s.reach t).smp = s.smp := by unfold State.reach; split <;> rfl
@[simp] theorem State.reach_thm (s : State) (t : Nat) : (s.reach t).thm = s.thm := by unfold State.reach; split <;> rfl
@[simp] theorem State.reach_hmpLog (s : State) (t : Nat) : (s.reach t).hmpLog = s.hmpLog := by unfold State.reach; split <;> rfl
@[simp] theorem State.reach_spi (s : State) (t : Nat) : (s.reach t).spi = s.spi := by unfold State.reach; split <;> rfl

@[simp] theorem State.modEng_pending (s : State) (le : Nat) (f : Engine → Engine) : (s.modEng le f).pending = s.pending := by unfold State.modEng; split <;> rfl
@[simp] theorem State.modEng_time (s : State) (le : Nat) (f : Engine → Engine) : (s.modEng le f).time = s.time := by unfold State.modEng; split <;> rfl
@[simp] theorem State.modEng_drawn (s : State) (le : Nat) (f : Engine → Engine) : (s.modEng le f).drawn = s.drawn := by unfold State.modEng; split <;> rfl
@[simp] theorem State.modEng_fields (s : State) (le : Nat) (f : Engine → Engine) : (s.modEng le f).fields = s.fields := by unfold State.modEng; split <;> rfl
@[simp] theorem State.modEng_staged (s : State) (le : Nat) (f : Engine → Engine) : (s.modEng le f).staged = s.staged := by unfold State.modEng; split <;> rfl
@[simp] theorem State.modEng_buffer (s : State) (le : Nat) (f : Engine → Engine) : (s.modEng le f).buffer = s.buffer := by unfold State.modEng; split <;> rfl
@[simp] theorem State.modEng_inForce (s : State) (le : Nat) (f : Engine → Engine) : (s.modEng le f).inForce = s.inForce := by unfold State.modEng; split <;> rfl
@[simp] theorem State.modEng_ev (s : State) (le : Nat) (f : Engine → Engine) : (s.modEng le f).ev = s.ev := by unfold State.modEng; split <;> rfl
@[simp] theorem State.modEng_fab (s : State) (le : Nat) (f : Engine → Engine) : (s.modEng le f).fab = s.fab := by unfold State.modEng; split <;> rfl
@[simp] theorem State.modEng_dev (s : State) (le : Nat) (f : Engine → Engine) : (s.modEng le f).dev = s.dev := by unfold State.modEng; split <;> rfl
@[simp] theorem State.modEng_lanes (s : State) (le : Nat) (f : Engine → Engine) : (s.modEng le f).lanes = s.lanes := by unfold State.modEng; split <;> rfl
@[simp] theorem State.modEng_cls (s : State) (le : Nat) (f : Engine → Engine) : (s.modEng le f).cls = s.cls := by unfold State.modEng; split <;> rfl
@[simp] theorem State.modEng_buf (s : State) (le : Nat) (f : Engine → Engine) : (s.modEng le f).buf = s.buf := by unfold State.modEng; split <;> rfl
@[simp] theorem State.modEng_grp (s : State) (le : Nat) (f : Engine → Engine) : (s.modEng le f).grp = s.grp := by unfold State.modEng; split <;> rfl
@[simp] theorem State.modEng_cip (s : State) (le : Nat) (f : Engine → Engine) : (s.modEng le f).cip = s.cip := by unfold State.modEng; split <;> rfl
@[simp] theorem State.modEng_enc (s : State) (le : Nat) (f : Engine → Engine) : (s.modEng le f).enc = s.enc := by unfold State.modEng; split <;> rfl
@[simp] theorem State.modEng_syn (s : State) (le : Nat) (f : Engine → Engine) : (s.modEng le f).syn = s.syn := by unfold State.modEng; split <;> rfl
@[simp] theorem State.modEng_rep (s : State) (le : Nat) (f : Engine → Engine) : (s.modEng le f).rep = s.rep := by unfold State.modEng; split <;> rfl
@[simp] theorem State.modEng_evl (s : State) (le : Nat) (f : Engine → Engine) : (s.modEng le f).evl = s.evl := by unfold State.modEng; split <;> rfl
@[simp] theorem State.modEng_cnt (s : State) (le : Nat) (f : Engine → Engine) : (s.modEng le f).cnt = s.cnt := by unfold State.modEng; split <;> rfl
@[simp] theorem State.modEng_smp (s : State) (le : Nat) (f : Engine → Engine) : (s.modEng le f).smp = s.smp := by unfold State.modEng; split <;> rfl
@[simp] theorem State.modEng_thm (s : State) (le : Nat) (f : Engine → Engine) : (s.modEng le f).thm = s.thm := by unfold State.modEng; split <;> rfl
@[simp] theorem State.modEng_hmpLog (s : State) (le : Nat) (f : Engine → Engine) : (s.modEng le f).hmpLog = s.hmpLog := by unfold State.modEng; split <;> rfl
@[simp] theorem State.modEng_spi (s : State) (le : Nat) (f : Engine → Engine) : (s.modEng le f).spi = s.spi := by unfold State.modEng; split <;> rfl

@[simp] theorem State.modTx_pending (s : State) (le : Nat) (f : Tx → Tx) : (s.modTx le f).pending = s.pending := by simp [State.modTx]
@[simp] theorem State.modTx_time (s : State) (le : Nat) (f : Tx → Tx) : (s.modTx le f).time = s.time := by simp [State.modTx]
@[simp] theorem State.modTx_drawn (s : State) (le : Nat) (f : Tx → Tx) : (s.modTx le f).drawn = s.drawn := by simp [State.modTx]
@[simp] theorem State.modTx_fields (s : State) (le : Nat) (f : Tx → Tx) : (s.modTx le f).fields = s.fields := by simp [State.modTx]
@[simp] theorem State.modTx_staged (s : State) (le : Nat) (f : Tx → Tx) : (s.modTx le f).staged = s.staged := by simp [State.modTx]
@[simp] theorem State.modTx_buffer (s : State) (le : Nat) (f : Tx → Tx) : (s.modTx le f).buffer = s.buffer := by simp [State.modTx]
@[simp] theorem State.modTx_inForce (s : State) (le : Nat) (f : Tx → Tx) : (s.modTx le f).inForce = s.inForce := by simp [State.modTx]
@[simp] theorem State.modTx_ev (s : State) (le : Nat) (f : Tx → Tx) : (s.modTx le f).ev = s.ev := by simp [State.modTx]
@[simp] theorem State.modTx_fab (s : State) (le : Nat) (f : Tx → Tx) : (s.modTx le f).fab = s.fab := by simp [State.modTx]
@[simp] theorem State.modTx_dev (s : State) (le : Nat) (f : Tx → Tx) : (s.modTx le f).dev = s.dev := by simp [State.modTx]
@[simp] theorem State.modTx_lanes (s : State) (le : Nat) (f : Tx → Tx) : (s.modTx le f).lanes = s.lanes := by simp [State.modTx]
@[simp] theorem State.modTx_cls (s : State) (le : Nat) (f : Tx → Tx) : (s.modTx le f).cls = s.cls := by simp [State.modTx]
@[simp] theorem State.modTx_buf (s : State) (le : Nat) (f : Tx → Tx) : (s.modTx le f).buf = s.buf := by simp [State.modTx]
@[simp] theorem State.modTx_grp (s : State) (le : Nat) (f : Tx → Tx) : (s.modTx le f).grp = s.grp := by simp [State.modTx]
@[simp] theorem State.modTx_cip (s : State) (le : Nat) (f : Tx → Tx) : (s.modTx le f).cip = s.cip := by simp [State.modTx]
@[simp] theorem State.modTx_enc (s : State) (le : Nat) (f : Tx → Tx) : (s.modTx le f).enc = s.enc := by simp [State.modTx]
@[simp] theorem State.modTx_syn (s : State) (le : Nat) (f : Tx → Tx) : (s.modTx le f).syn = s.syn := by simp [State.modTx]
@[simp] theorem State.modTx_rep (s : State) (le : Nat) (f : Tx → Tx) : (s.modTx le f).rep = s.rep := by simp [State.modTx]
@[simp] theorem State.modTx_evl (s : State) (le : Nat) (f : Tx → Tx) : (s.modTx le f).evl = s.evl := by simp [State.modTx]
@[simp] theorem State.modTx_cnt (s : State) (le : Nat) (f : Tx → Tx) : (s.modTx le f).cnt = s.cnt := by simp [State.modTx]
@[simp] theorem State.modTx_smp (s : State) (le : Nat) (f : Tx → Tx) : (s.modTx le f).smp = s.smp := by simp [State.modTx]
@[simp] theorem State.modTx_thm (s : State) (le : Nat) (f : Tx → Tx) : (s.modTx le f).thm = s.thm := by simp [State.modTx]
@[simp] theorem State.modTx_hmpLog (s : State) (le : Nat) (f : Tx → Tx) : (s.modTx le f).hmpLog = s.hmpLog := by simp [State.modTx]
@[simp] theorem State.modTx_spi (s : State) (le : Nat) (f : Tx → Tx) : (s.modTx le f).spi = s.spi := by simp [State.modTx]

@[simp] theorem State.modRx_pending (s : State) (le : Nat) (f : Rx → Rx) : (s.modRx le f).pending = s.pending := by simp [State.modRx]
@[simp] theorem State.modRx_time (s : State) (le : Nat) (f : Rx → Rx) : (s.modRx le f).time = s.time := by simp [State.modRx]
@[simp] theorem State.modRx_drawn (s : State) (le : Nat) (f : Rx → Rx) : (s.modRx le f).drawn = s.drawn := by simp [State.modRx]
@[simp] theorem State.modRx_fields (s : State) (le : Nat) (f : Rx → Rx) : (s.modRx le f).fields = s.fields := by simp [State.modRx]
@[simp] theorem State.modRx_staged (s : State) (le : Nat) (f : Rx → Rx) : (s.modRx le f).staged = s.staged := by simp [State.modRx]
@[simp] theorem State.modRx_buffer (s : State) (le : Nat) (f : Rx → Rx) : (s.modRx le f).buffer = s.buffer := by simp [State.modRx]
@[simp] theorem State.modRx_inForce (s : State) (le : Nat) (f : Rx → Rx) : (s.modRx le f).inForce = s.inForce := by simp [State.modRx]
@[simp] theorem State.modRx_ev (s : State) (le : Nat) (f : Rx → Rx) : (s.modRx le f).ev = s.ev := by simp [State.modRx]
@[simp] theorem State.modRx_fab (s : State) (le : Nat) (f : Rx → Rx) : (s.modRx le f).fab = s.fab := by simp [State.modRx]
@[simp] theorem State.modRx_dev (s : State) (le : Nat) (f : Rx → Rx) : (s.modRx le f).dev = s.dev := by simp [State.modRx]
@[simp] theorem State.modRx_lanes (s : State) (le : Nat) (f : Rx → Rx) : (s.modRx le f).lanes = s.lanes := by simp [State.modRx]
@[simp] theorem State.modRx_cls (s : State) (le : Nat) (f : Rx → Rx) : (s.modRx le f).cls = s.cls := by simp [State.modRx]
@[simp] theorem State.modRx_buf (s : State) (le : Nat) (f : Rx → Rx) : (s.modRx le f).buf = s.buf := by simp [State.modRx]
@[simp] theorem State.modRx_grp (s : State) (le : Nat) (f : Rx → Rx) : (s.modRx le f).grp = s.grp := by simp [State.modRx]
@[simp] theorem State.modRx_cip (s : State) (le : Nat) (f : Rx → Rx) : (s.modRx le f).cip = s.cip := by simp [State.modRx]
@[simp] theorem State.modRx_enc (s : State) (le : Nat) (f : Rx → Rx) : (s.modRx le f).enc = s.enc := by simp [State.modRx]
@[simp] theorem State.modRx_syn (s : State) (le : Nat) (f : Rx → Rx) : (s.modRx le f).syn = s.syn := by simp [State.modRx]
@[simp] theorem State.modRx_rep (s : State) (le : Nat) (f : Rx → Rx) : (s.modRx le f).rep = s.rep := by simp [State.modRx]
@[simp] theorem State.modRx_evl (s : State) (le : Nat) (f : Rx → Rx) : (s.modRx le f).evl = s.evl := by simp [State.modRx]
@[simp] theorem State.modRx_cnt (s : State) (le : Nat) (f : Rx → Rx) : (s.modRx le f).cnt = s.cnt := by simp [State.modRx]
@[simp] theorem State.modRx_smp (s : State) (le : Nat) (f : Rx → Rx) : (s.modRx le f).smp = s.smp := by simp [State.modRx]
@[simp] theorem State.modRx_thm (s : State) (le : Nat) (f : Rx → Rx) : (s.modRx le f).thm = s.thm := by simp [State.modRx]
@[simp] theorem State.modRx_hmpLog (s : State) (le : Nat) (f : Rx → Rx) : (s.modRx le f).hmpLog = s.hmpLog := by simp [State.modRx]
@[simp] theorem State.modRx_spi (s : State) (le : Nat) (f : Rx → Rx) : (s.modRx le f).spi = s.spi := by simp [State.modRx]

@[simp] theorem State.modFec_pending (s : State) (le : Nat) (f : Fec → Fec) : (s.modFec le f).pending = s.pending := by simp [State.modFec]
@[simp] theorem State.modFec_time (s : State) (le : Nat) (f : Fec → Fec) : (s.modFec le f).time = s.time := by simp [State.modFec]
@[simp] theorem State.modFec_drawn (s : State) (le : Nat) (f : Fec → Fec) : (s.modFec le f).drawn = s.drawn := by simp [State.modFec]
@[simp] theorem State.modFec_fields (s : State) (le : Nat) (f : Fec → Fec) : (s.modFec le f).fields = s.fields := by simp [State.modFec]
@[simp] theorem State.modFec_staged (s : State) (le : Nat) (f : Fec → Fec) : (s.modFec le f).staged = s.staged := by simp [State.modFec]
@[simp] theorem State.modFec_buffer (s : State) (le : Nat) (f : Fec → Fec) : (s.modFec le f).buffer = s.buffer := by simp [State.modFec]
@[simp] theorem State.modFec_inForce (s : State) (le : Nat) (f : Fec → Fec) : (s.modFec le f).inForce = s.inForce := by simp [State.modFec]
@[simp] theorem State.modFec_ev (s : State) (le : Nat) (f : Fec → Fec) : (s.modFec le f).ev = s.ev := by simp [State.modFec]
@[simp] theorem State.modFec_fab (s : State) (le : Nat) (f : Fec → Fec) : (s.modFec le f).fab = s.fab := by simp [State.modFec]
@[simp] theorem State.modFec_dev (s : State) (le : Nat) (f : Fec → Fec) : (s.modFec le f).dev = s.dev := by simp [State.modFec]
@[simp] theorem State.modFec_lanes (s : State) (le : Nat) (f : Fec → Fec) : (s.modFec le f).lanes = s.lanes := by simp [State.modFec]
@[simp] theorem State.modFec_cls (s : State) (le : Nat) (f : Fec → Fec) : (s.modFec le f).cls = s.cls := by simp [State.modFec]
@[simp] theorem State.modFec_buf (s : State) (le : Nat) (f : Fec → Fec) : (s.modFec le f).buf = s.buf := by simp [State.modFec]
@[simp] theorem State.modFec_grp (s : State) (le : Nat) (f : Fec → Fec) : (s.modFec le f).grp = s.grp := by simp [State.modFec]
@[simp] theorem State.modFec_cip (s : State) (le : Nat) (f : Fec → Fec) : (s.modFec le f).cip = s.cip := by simp [State.modFec]
@[simp] theorem State.modFec_enc (s : State) (le : Nat) (f : Fec → Fec) : (s.modFec le f).enc = s.enc := by simp [State.modFec]
@[simp] theorem State.modFec_syn (s : State) (le : Nat) (f : Fec → Fec) : (s.modFec le f).syn = s.syn := by simp [State.modFec]
@[simp] theorem State.modFec_rep (s : State) (le : Nat) (f : Fec → Fec) : (s.modFec le f).rep = s.rep := by simp [State.modFec]
@[simp] theorem State.modFec_evl (s : State) (le : Nat) (f : Fec → Fec) : (s.modFec le f).evl = s.evl := by simp [State.modFec]
@[simp] theorem State.modFec_cnt (s : State) (le : Nat) (f : Fec → Fec) : (s.modFec le f).cnt = s.cnt := by simp [State.modFec]
@[simp] theorem State.modFec_smp (s : State) (le : Nat) (f : Fec → Fec) : (s.modFec le f).smp = s.smp := by simp [State.modFec]
@[simp] theorem State.modFec_thm (s : State) (le : Nat) (f : Fec → Fec) : (s.modFec le f).thm = s.thm := by simp [State.modFec]
@[simp] theorem State.modFec_hmpLog (s : State) (le : Nat) (f : Fec → Fec) : (s.modFec le f).hmpLog = s.hmpLog := by simp [State.modFec]
@[simp] theorem State.modFec_spi (s : State) (le : Nat) (f : Fec → Fec) : (s.modFec le f).spi = s.spi := by simp [State.modFec]

@[simp] theorem State.modGlf_pending (s : State) (le : Nat) (f : Glf → Glf) : (s.modGlf le f).pending = s.pending := by simp [State.modGlf]
@[simp] theorem State.modGlf_time (s : State) (le : Nat) (f : Glf → Glf) : (s.modGlf le f).time = s.time := by simp [State.modGlf]
@[simp] theorem State.modGlf_drawn (s : State) (le : Nat) (f : Glf → Glf) : (s.modGlf le f).drawn = s.drawn := by simp [State.modGlf]
@[simp] theorem State.modGlf_fields (s : State) (le : Nat) (f : Glf → Glf) : (s.modGlf le f).fields = s.fields := by simp [State.modGlf]
@[simp] theorem State.modGlf_staged (s : State) (le : Nat) (f : Glf → Glf) : (s.modGlf le f).staged = s.staged := by simp [State.modGlf]
@[simp] theorem State.modGlf_buffer (s : State) (le : Nat) (f : Glf → Glf) : (s.modGlf le f).buffer = s.buffer := by simp [State.modGlf]
@[simp] theorem State.modGlf_inForce (s : State) (le : Nat) (f : Glf → Glf) : (s.modGlf le f).inForce = s.inForce := by simp [State.modGlf]
@[simp] theorem State.modGlf_ev (s : State) (le : Nat) (f : Glf → Glf) : (s.modGlf le f).ev = s.ev := by simp [State.modGlf]
@[simp] theorem State.modGlf_fab (s : State) (le : Nat) (f : Glf → Glf) : (s.modGlf le f).fab = s.fab := by simp [State.modGlf]
@[simp] theorem State.modGlf_dev (s : State) (le : Nat) (f : Glf → Glf) : (s.modGlf le f).dev = s.dev := by simp [State.modGlf]
@[simp] theorem State.modGlf_lanes (s : State) (le : Nat) (f : Glf → Glf) : (s.modGlf le f).lanes = s.lanes := by simp [State.modGlf]
@[simp] theorem State.modGlf_cls (s : State) (le : Nat) (f : Glf → Glf) : (s.modGlf le f).cls = s.cls := by simp [State.modGlf]
@[simp] theorem State.modGlf_buf (s : State) (le : Nat) (f : Glf → Glf) : (s.modGlf le f).buf = s.buf := by simp [State.modGlf]
@[simp] theorem State.modGlf_grp (s : State) (le : Nat) (f : Glf → Glf) : (s.modGlf le f).grp = s.grp := by simp [State.modGlf]
@[simp] theorem State.modGlf_cip (s : State) (le : Nat) (f : Glf → Glf) : (s.modGlf le f).cip = s.cip := by simp [State.modGlf]
@[simp] theorem State.modGlf_enc (s : State) (le : Nat) (f : Glf → Glf) : (s.modGlf le f).enc = s.enc := by simp [State.modGlf]
@[simp] theorem State.modGlf_syn (s : State) (le : Nat) (f : Glf → Glf) : (s.modGlf le f).syn = s.syn := by simp [State.modGlf]
@[simp] theorem State.modGlf_rep (s : State) (le : Nat) (f : Glf → Glf) : (s.modGlf le f).rep = s.rep := by simp [State.modGlf]
@[simp] theorem State.modGlf_evl (s : State) (le : Nat) (f : Glf → Glf) : (s.modGlf le f).evl = s.evl := by simp [State.modGlf]
@[simp] theorem State.modGlf_cnt (s : State) (le : Nat) (f : Glf → Glf) : (s.modGlf le f).cnt = s.cnt := by simp [State.modGlf]
@[simp] theorem State.modGlf_smp (s : State) (le : Nat) (f : Glf → Glf) : (s.modGlf le f).smp = s.smp := by simp [State.modGlf]
@[simp] theorem State.modGlf_thm (s : State) (le : Nat) (f : Glf → Glf) : (s.modGlf le f).thm = s.thm := by simp [State.modGlf]
@[simp] theorem State.modGlf_hmpLog (s : State) (le : Nat) (f : Glf → Glf) : (s.modGlf le f).hmpLog = s.hmpLog := by simp [State.modGlf]
@[simp] theorem State.modGlf_spi (s : State) (le : Nat) (f : Glf → Glf) : (s.modGlf le f).spi = s.spi := by simp [State.modGlf]

@[simp] theorem State.modP2_pending (s : State) (le : Nat) (f : P2mp → P2mp) : (s.modP2 le f).pending = s.pending := by simp [State.modP2]
@[simp] theorem State.modP2_time (s : State) (le : Nat) (f : P2mp → P2mp) : (s.modP2 le f).time = s.time := by simp [State.modP2]
@[simp] theorem State.modP2_drawn (s : State) (le : Nat) (f : P2mp → P2mp) : (s.modP2 le f).drawn = s.drawn := by simp [State.modP2]
@[simp] theorem State.modP2_fields (s : State) (le : Nat) (f : P2mp → P2mp) : (s.modP2 le f).fields = s.fields := by simp [State.modP2]
@[simp] theorem State.modP2_staged (s : State) (le : Nat) (f : P2mp → P2mp) : (s.modP2 le f).staged = s.staged := by simp [State.modP2]
@[simp] theorem State.modP2_buffer (s : State) (le : Nat) (f : P2mp → P2mp) : (s.modP2 le f).buffer = s.buffer := by simp [State.modP2]
@[simp] theorem State.modP2_inForce (s : State) (le : Nat) (f : P2mp → P2mp) : (s.modP2 le f).inForce = s.inForce := by simp [State.modP2]
@[simp] theorem State.modP2_ev (s : State) (le : Nat) (f : P2mp → P2mp) : (s.modP2 le f).ev = s.ev := by simp [State.modP2]
@[simp] theorem State.modP2_fab (s : State) (le : Nat) (f : P2mp → P2mp) : (s.modP2 le f).fab = s.fab := by simp [State.modP2]
@[simp] theorem State.modP2_dev (s : State) (le : Nat) (f : P2mp → P2mp) : (s.modP2 le f).dev = s.dev := by simp [State.modP2]
@[simp] theorem State.modP2_lanes (s : State) (le : Nat) (f : P2mp → P2mp) : (s.modP2 le f).lanes = s.lanes := by simp [State.modP2]
@[simp] theorem State.modP2_cls (s : State) (le : Nat) (f : P2mp → P2mp) : (s.modP2 le f).cls = s.cls := by simp [State.modP2]
@[simp] theorem State.modP2_buf (s : State) (le : Nat) (f : P2mp → P2mp) : (s.modP2 le f).buf = s.buf := by simp [State.modP2]
@[simp] theorem State.modP2_grp (s : State) (le : Nat) (f : P2mp → P2mp) : (s.modP2 le f).grp = s.grp := by simp [State.modP2]
@[simp] theorem State.modP2_cip (s : State) (le : Nat) (f : P2mp → P2mp) : (s.modP2 le f).cip = s.cip := by simp [State.modP2]
@[simp] theorem State.modP2_enc (s : State) (le : Nat) (f : P2mp → P2mp) : (s.modP2 le f).enc = s.enc := by simp [State.modP2]
@[simp] theorem State.modP2_syn (s : State) (le : Nat) (f : P2mp → P2mp) : (s.modP2 le f).syn = s.syn := by simp [State.modP2]
@[simp] theorem State.modP2_rep (s : State) (le : Nat) (f : P2mp → P2mp) : (s.modP2 le f).rep = s.rep := by simp [State.modP2]
@[simp] theorem State.modP2_evl (s : State) (le : Nat) (f : P2mp → P2mp) : (s.modP2 le f).evl = s.evl := by simp [State.modP2]
@[simp] theorem State.modP2_cnt (s : State) (le : Nat) (f : P2mp → P2mp) : (s.modP2 le f).cnt = s.cnt := by simp [State.modP2]
@[simp] theorem State.modP2_smp (s : State) (le : Nat) (f : P2mp → P2mp) : (s.modP2 le f).smp = s.smp := by simp [State.modP2]
@[simp] theorem State.modP2_thm (s : State) (le : Nat) (f : P2mp → P2mp) : (s.modP2 le f).thm = s.thm := by simp [State.modP2]
@[simp] theorem State.modP2_hmpLog (s : State) (le : Nat) (f : P2mp → P2mp) : (s.modP2 le f).hmpLog = s.hmpLog := by simp [State.modP2]
@[simp] theorem State.modP2_spi (s : State) (le : Nat) (f : P2mp → P2mp) : (s.modP2 le f).spi = s.spi := by simp [State.modP2]

/-! ## Events, log entries, errors, losses and refused accesses -/

@[simp] theorem State.msiSend_pending (s : State) (v : Nat) : (s.msiSend v).pending = s.pending := by unfold State.msiSend; split <;> rfl
@[simp] theorem State.msiSend_time (s : State) (v : Nat) : (s.msiSend v).time = s.time := by unfold State.msiSend; split <;> rfl
@[simp] theorem State.msiSend_drawn (s : State) (v : Nat) : (s.msiSend v).drawn = s.drawn := by unfold State.msiSend; split <;> rfl
@[simp] theorem State.msiSend_fields (s : State) (v : Nat) : (s.msiSend v).fields = s.fields := by unfold State.msiSend; split <;> rfl
@[simp] theorem State.msiSend_staged (s : State) (v : Nat) : (s.msiSend v).staged = s.staged := by unfold State.msiSend; split <;> rfl
@[simp] theorem State.msiSend_buffer (s : State) (v : Nat) : (s.msiSend v).buffer = s.buffer := by unfold State.msiSend; split <;> rfl
@[simp] theorem State.msiSend_inForce (s : State) (v : Nat) : (s.msiSend v).inForce = s.inForce := by unfold State.msiSend; split <;> rfl
@[simp] theorem State.msiSend_fab (s : State) (v : Nat) : (s.msiSend v).fab = s.fab := by unfold State.msiSend; split <;> rfl
@[simp] theorem State.msiSend_dev (s : State) (v : Nat) : (s.msiSend v).dev = s.dev := by unfold State.msiSend; split <;> rfl
@[simp] theorem State.msiSend_le0 (s : State) (v : Nat) : (s.msiSend v).le0 = s.le0 := by unfold State.msiSend; split <;> rfl
@[simp] theorem State.msiSend_le1 (s : State) (v : Nat) : (s.msiSend v).le1 = s.le1 := by unfold State.msiSend; split <;> rfl
@[simp] theorem State.msiSend_lanes (s : State) (v : Nat) : (s.msiSend v).lanes = s.lanes := by unfold State.msiSend; split <;> rfl
@[simp] theorem State.msiSend_cls (s : State) (v : Nat) : (s.msiSend v).cls = s.cls := by unfold State.msiSend; split <;> rfl
@[simp] theorem State.msiSend_buf (s : State) (v : Nat) : (s.msiSend v).buf = s.buf := by unfold State.msiSend; split <;> rfl
@[simp] theorem State.msiSend_grp (s : State) (v : Nat) : (s.msiSend v).grp = s.grp := by unfold State.msiSend; split <;> rfl
@[simp] theorem State.msiSend_cip (s : State) (v : Nat) : (s.msiSend v).cip = s.cip := by unfold State.msiSend; split <;> rfl
@[simp] theorem State.msiSend_enc (s : State) (v : Nat) : (s.msiSend v).enc = s.enc := by unfold State.msiSend; split <;> rfl
@[simp] theorem State.msiSend_syn (s : State) (v : Nat) : (s.msiSend v).syn = s.syn := by unfold State.msiSend; split <;> rfl
@[simp] theorem State.msiSend_rep (s : State) (v : Nat) : (s.msiSend v).rep = s.rep := by unfold State.msiSend; split <;> rfl
@[simp] theorem State.msiSend_evl (s : State) (v : Nat) : (s.msiSend v).evl = s.evl := by unfold State.msiSend; split <;> rfl
@[simp] theorem State.msiSend_cnt (s : State) (v : Nat) : (s.msiSend v).cnt = s.cnt := by unfold State.msiSend; split <;> rfl
@[simp] theorem State.msiSend_smp (s : State) (v : Nat) : (s.msiSend v).smp = s.smp := by unfold State.msiSend; split <;> rfl
@[simp] theorem State.msiSend_thm (s : State) (v : Nat) : (s.msiSend v).thm = s.thm := by unfold State.msiSend; split <;> rfl
@[simp] theorem State.msiSend_hmpLog (s : State) (v : Nat) : (s.msiSend v).hmpLog = s.hmpLog := by unfold State.msiSend; split <;> rfl
@[simp] theorem State.msiSend_spi (s : State) (v : Nat) : (s.msiSend v).spi = s.spi := by unfold State.msiSend; split <;> rfl

@[simp] theorem State.msiRise_pending (s0 s : State) (p : Nat) : (State.msiRise s0 p s).pending = s.pending := by unfold State.msiRise; dsimp only; (repeat' split) <;> simp
@[simp] theorem State.msiRise_time (s0 s : State) (p : Nat) : (State.msiRise s0 p s).time = s.time := by unfold State.msiRise; dsimp only; (repeat' split) <;> simp
@[simp] theorem State.msiRise_drawn (s0 s : State) (p : Nat) : (State.msiRise s0 p s).drawn = s.drawn := by unfold State.msiRise; dsimp only; (repeat' split) <;> simp
@[simp] theorem State.msiRise_fields (s0 s : State) (p : Nat) : (State.msiRise s0 p s).fields = s.fields := by unfold State.msiRise; dsimp only; (repeat' split) <;> simp
@[simp] theorem State.msiRise_staged (s0 s : State) (p : Nat) : (State.msiRise s0 p s).staged = s.staged := by unfold State.msiRise; dsimp only; (repeat' split) <;> simp
@[simp] theorem State.msiRise_buffer (s0 s : State) (p : Nat) : (State.msiRise s0 p s).buffer = s.buffer := by unfold State.msiRise; dsimp only; (repeat' split) <;> simp
@[simp] theorem State.msiRise_inForce (s0 s : State) (p : Nat) : (State.msiRise s0 p s).inForce = s.inForce := by unfold State.msiRise; dsimp only; (repeat' split) <;> simp
@[simp] theorem State.msiRise_fab (s0 s : State) (p : Nat) : (State.msiRise s0 p s).fab = s.fab := by unfold State.msiRise; dsimp only; (repeat' split) <;> simp
@[simp] theorem State.msiRise_dev (s0 s : State) (p : Nat) : (State.msiRise s0 p s).dev = s.dev := by unfold State.msiRise; dsimp only; (repeat' split) <;> simp
@[simp] theorem State.msiRise_le0 (s0 s : State) (p : Nat) : (State.msiRise s0 p s).le0 = s.le0 := by unfold State.msiRise; dsimp only; (repeat' split) <;> simp
@[simp] theorem State.msiRise_le1 (s0 s : State) (p : Nat) : (State.msiRise s0 p s).le1 = s.le1 := by unfold State.msiRise; dsimp only; (repeat' split) <;> simp
@[simp] theorem State.msiRise_lanes (s0 s : State) (p : Nat) : (State.msiRise s0 p s).lanes = s.lanes := by unfold State.msiRise; dsimp only; (repeat' split) <;> simp
@[simp] theorem State.msiRise_cls (s0 s : State) (p : Nat) : (State.msiRise s0 p s).cls = s.cls := by unfold State.msiRise; dsimp only; (repeat' split) <;> simp
@[simp] theorem State.msiRise_buf (s0 s : State) (p : Nat) : (State.msiRise s0 p s).buf = s.buf := by unfold State.msiRise; dsimp only; (repeat' split) <;> simp
@[simp] theorem State.msiRise_grp (s0 s : State) (p : Nat) : (State.msiRise s0 p s).grp = s.grp := by unfold State.msiRise; dsimp only; (repeat' split) <;> simp
@[simp] theorem State.msiRise_cip (s0 s : State) (p : Nat) : (State.msiRise s0 p s).cip = s.cip := by unfold State.msiRise; dsimp only; (repeat' split) <;> simp
@[simp] theorem State.msiRise_enc (s0 s : State) (p : Nat) : (State.msiRise s0 p s).enc = s.enc := by unfold State.msiRise; dsimp only; (repeat' split) <;> simp
@[simp] theorem State.msiRise_syn (s0 s : State) (p : Nat) : (State.msiRise s0 p s).syn = s.syn := by unfold State.msiRise; dsimp only; (repeat' split) <;> simp
@[simp] theorem State.msiRise_rep (s0 s : State) (p : Nat) : (State.msiRise s0 p s).rep = s.rep := by unfold State.msiRise; dsimp only; (repeat' split) <;> simp
@[simp] theorem State.msiRise_evl (s0 s : State) (p : Nat) : (State.msiRise s0 p s).evl = s.evl := by unfold State.msiRise; dsimp only; (repeat' split) <;> simp
@[simp] theorem State.msiRise_cnt (s0 s : State) (p : Nat) : (State.msiRise s0 p s).cnt = s.cnt := by unfold State.msiRise; dsimp only; (repeat' split) <;> simp
@[simp] theorem State.msiRise_smp (s0 s : State) (p : Nat) : (State.msiRise s0 p s).smp = s.smp := by unfold State.msiRise; dsimp only; (repeat' split) <;> simp
@[simp] theorem State.msiRise_thm (s0 s : State) (p : Nat) : (State.msiRise s0 p s).thm = s.thm := by unfold State.msiRise; dsimp only; (repeat' split) <;> simp
@[simp] theorem State.msiRise_hmpLog (s0 s : State) (p : Nat) : (State.msiRise s0 p s).hmpLog = s.hmpLog := by unfold State.msiRise; dsimp only; (repeat' split) <;> simp
@[simp] theorem State.msiRise_spi (s0 s : State) (p : Nat) : (State.msiRise s0 p s).spi = s.spi := by unfold State.msiRise; dsimp only; (repeat' split) <;> simp

@[simp] theorem State.foldEntry_pending (s : State) (p code kind n arg t : Nat) : (s.foldEntry p code kind n arg t).pending = s.pending := rfl
@[simp] theorem State.foldEntry_time (s : State) (p code kind n arg t : Nat) : (s.foldEntry p code kind n arg t).time = s.time := rfl
@[simp] theorem State.foldEntry_drawn (s : State) (p code kind n arg t : Nat) : (s.foldEntry p code kind n arg t).drawn = s.drawn := rfl
@[simp] theorem State.foldEntry_fields (s : State) (p code kind n arg t : Nat) : (s.foldEntry p code kind n arg t).fields = s.fields := rfl
@[simp] theorem State.foldEntry_staged (s : State) (p code kind n arg t : Nat) : (s.foldEntry p code kind n arg t).staged = s.staged := rfl
@[simp] theorem State.foldEntry_buffer (s : State) (p code kind n arg t : Nat) : (s.foldEntry p code kind n arg t).buffer = s.buffer := rfl
@[simp] theorem State.foldEntry_inForce (s : State) (p code kind n arg t : Nat) : (s.foldEntry p code kind n arg t).inForce = s.inForce := rfl
@[simp] theorem State.foldEntry_fab (s : State) (p code kind n arg t : Nat) : (s.foldEntry p code kind n arg t).fab = s.fab := rfl
@[simp] theorem State.foldEntry_dev (s : State) (p code kind n arg t : Nat) : (s.foldEntry p code kind n arg t).dev = s.dev := rfl
@[simp] theorem State.foldEntry_le0 (s : State) (p code kind n arg t : Nat) : (s.foldEntry p code kind n arg t).le0 = s.le0 := rfl
@[simp] theorem State.foldEntry_le1 (s : State) (p code kind n arg t : Nat) : (s.foldEntry p code kind n arg t).le1 = s.le1 := rfl
@[simp] theorem State.foldEntry_lanes (s : State) (p code kind n arg t : Nat) : (s.foldEntry p code kind n arg t).lanes = s.lanes := rfl
@[simp] theorem State.foldEntry_cls (s : State) (p code kind n arg t : Nat) : (s.foldEntry p code kind n arg t).cls = s.cls := rfl
@[simp] theorem State.foldEntry_buf (s : State) (p code kind n arg t : Nat) : (s.foldEntry p code kind n arg t).buf = s.buf := rfl
@[simp] theorem State.foldEntry_grp (s : State) (p code kind n arg t : Nat) : (s.foldEntry p code kind n arg t).grp = s.grp := rfl
@[simp] theorem State.foldEntry_cip (s : State) (p code kind n arg t : Nat) : (s.foldEntry p code kind n arg t).cip = s.cip := rfl
@[simp] theorem State.foldEntry_enc (s : State) (p code kind n arg t : Nat) : (s.foldEntry p code kind n arg t).enc = s.enc := rfl
@[simp] theorem State.foldEntry_syn (s : State) (p code kind n arg t : Nat) : (s.foldEntry p code kind n arg t).syn = s.syn := rfl
@[simp] theorem State.foldEntry_rep (s : State) (p code kind n arg t : Nat) : (s.foldEntry p code kind n arg t).rep = s.rep := rfl
@[simp] theorem State.foldEntry_evl (s : State) (p code kind n arg t : Nat) : (s.foldEntry p code kind n arg t).evl = s.evl := rfl
@[simp] theorem State.foldEntry_cnt (s : State) (p code kind n arg t : Nat) : (s.foldEntry p code kind n arg t).cnt = s.cnt := rfl
@[simp] theorem State.foldEntry_smp (s : State) (p code kind n arg t : Nat) : (s.foldEntry p code kind n arg t).smp = s.smp := rfl
@[simp] theorem State.foldEntry_thm (s : State) (p code kind n arg t : Nat) : (s.foldEntry p code kind n arg t).thm = s.thm := rfl
@[simp] theorem State.foldEntry_hmpLog (s : State) (p code kind n arg t : Nat) : (s.foldEntry p code kind n arg t).hmpLog = s.hmpLog := rfl
@[simp] theorem State.foldEntry_spi (s : State) (p code kind n arg t : Nat) : (s.foldEntry p code kind n arg t).spi = s.spi := rfl

@[simp] theorem State.foldEnd_pending (s : State) (p code kind arg : Nat) (w : FoldWin) : (s.foldEnd p code kind arg w).pending = s.pending := by unfold State.foldEnd; split <;> rfl
@[simp] theorem State.foldEnd_time (s : State) (p code kind arg : Nat) (w : FoldWin) : (s.foldEnd p code kind arg w).time = s.time := by unfold State.foldEnd; split <;> rfl
@[simp] theorem State.foldEnd_drawn (s : State) (p code kind arg : Nat) (w : FoldWin) : (s.foldEnd p code kind arg w).drawn = s.drawn := by unfold State.foldEnd; split <;> rfl
@[simp] theorem State.foldEnd_fields (s : State) (p code kind arg : Nat) (w : FoldWin) : (s.foldEnd p code kind arg w).fields = s.fields := by unfold State.foldEnd; split <;> rfl
@[simp] theorem State.foldEnd_staged (s : State) (p code kind arg : Nat) (w : FoldWin) : (s.foldEnd p code kind arg w).staged = s.staged := by unfold State.foldEnd; split <;> rfl
@[simp] theorem State.foldEnd_buffer (s : State) (p code kind arg : Nat) (w : FoldWin) : (s.foldEnd p code kind arg w).buffer = s.buffer := by unfold State.foldEnd; split <;> rfl
@[simp] theorem State.foldEnd_inForce (s : State) (p code kind arg : Nat) (w : FoldWin) : (s.foldEnd p code kind arg w).inForce = s.inForce := by unfold State.foldEnd; split <;> rfl
@[simp] theorem State.foldEnd_fab (s : State) (p code kind arg : Nat) (w : FoldWin) : (s.foldEnd p code kind arg w).fab = s.fab := by unfold State.foldEnd; split <;> rfl
@[simp] theorem State.foldEnd_dev (s : State) (p code kind arg : Nat) (w : FoldWin) : (s.foldEnd p code kind arg w).dev = s.dev := by unfold State.foldEnd; split <;> rfl
@[simp] theorem State.foldEnd_le0 (s : State) (p code kind arg : Nat) (w : FoldWin) : (s.foldEnd p code kind arg w).le0 = s.le0 := by unfold State.foldEnd; split <;> rfl
@[simp] theorem State.foldEnd_le1 (s : State) (p code kind arg : Nat) (w : FoldWin) : (s.foldEnd p code kind arg w).le1 = s.le1 := by unfold State.foldEnd; split <;> rfl
@[simp] theorem State.foldEnd_lanes (s : State) (p code kind arg : Nat) (w : FoldWin) : (s.foldEnd p code kind arg w).lanes = s.lanes := by unfold State.foldEnd; split <;> rfl
@[simp] theorem State.foldEnd_cls (s : State) (p code kind arg : Nat) (w : FoldWin) : (s.foldEnd p code kind arg w).cls = s.cls := by unfold State.foldEnd; split <;> rfl
@[simp] theorem State.foldEnd_buf (s : State) (p code kind arg : Nat) (w : FoldWin) : (s.foldEnd p code kind arg w).buf = s.buf := by unfold State.foldEnd; split <;> rfl
@[simp] theorem State.foldEnd_grp (s : State) (p code kind arg : Nat) (w : FoldWin) : (s.foldEnd p code kind arg w).grp = s.grp := by unfold State.foldEnd; split <;> rfl
@[simp] theorem State.foldEnd_cip (s : State) (p code kind arg : Nat) (w : FoldWin) : (s.foldEnd p code kind arg w).cip = s.cip := by unfold State.foldEnd; split <;> rfl
@[simp] theorem State.foldEnd_enc (s : State) (p code kind arg : Nat) (w : FoldWin) : (s.foldEnd p code kind arg w).enc = s.enc := by unfold State.foldEnd; split <;> rfl
@[simp] theorem State.foldEnd_syn (s : State) (p code kind arg : Nat) (w : FoldWin) : (s.foldEnd p code kind arg w).syn = s.syn := by unfold State.foldEnd; split <;> rfl
@[simp] theorem State.foldEnd_rep (s : State) (p code kind arg : Nat) (w : FoldWin) : (s.foldEnd p code kind arg w).rep = s.rep := by unfold State.foldEnd; split <;> rfl
@[simp] theorem State.foldEnd_evl (s : State) (p code kind arg : Nat) (w : FoldWin) : (s.foldEnd p code kind arg w).evl = s.evl := by unfold State.foldEnd; split <;> rfl
@[simp] theorem State.foldEnd_cnt (s : State) (p code kind arg : Nat) (w : FoldWin) : (s.foldEnd p code kind arg w).cnt = s.cnt := by unfold State.foldEnd; split <;> rfl
@[simp] theorem State.foldEnd_smp (s : State) (p code kind arg : Nat) (w : FoldWin) : (s.foldEnd p code kind arg w).smp = s.smp := by unfold State.foldEnd; split <;> rfl
@[simp] theorem State.foldEnd_thm (s : State) (p code kind arg : Nat) (w : FoldWin) : (s.foldEnd p code kind arg w).thm = s.thm := by unfold State.foldEnd; split <;> rfl
@[simp] theorem State.foldEnd_hmpLog (s : State) (p code kind arg : Nat) (w : FoldWin) : (s.foldEnd p code kind arg w).hmpLog = s.hmpLog := by unfold State.foldEnd; split <;> rfl
@[simp] theorem State.foldEnd_spi (s : State) (p code kind arg : Nat) (w : FoldWin) : (s.foldEnd p code kind arg w).spi = s.spi := by unfold State.foldEnd; split <;> rfl

@[simp] theorem State.foldClose_pending (s : State) (p code kind arg : Nat) : (s.foldClose p code kind arg).pending = s.pending := by unfold State.foldClose; dsimp only; (repeat' split) <;> simp
@[simp] theorem State.foldClose_time (s : State) (p code kind arg : Nat) : (s.foldClose p code kind arg).time = s.time := by unfold State.foldClose; dsimp only; (repeat' split) <;> simp
@[simp] theorem State.foldClose_drawn (s : State) (p code kind arg : Nat) : (s.foldClose p code kind arg).drawn = s.drawn := by unfold State.foldClose; dsimp only; (repeat' split) <;> simp
@[simp] theorem State.foldClose_fields (s : State) (p code kind arg : Nat) : (s.foldClose p code kind arg).fields = s.fields := by unfold State.foldClose; dsimp only; (repeat' split) <;> simp
@[simp] theorem State.foldClose_staged (s : State) (p code kind arg : Nat) : (s.foldClose p code kind arg).staged = s.staged := by unfold State.foldClose; dsimp only; (repeat' split) <;> simp
@[simp] theorem State.foldClose_buffer (s : State) (p code kind arg : Nat) : (s.foldClose p code kind arg).buffer = s.buffer := by unfold State.foldClose; dsimp only; (repeat' split) <;> simp
@[simp] theorem State.foldClose_inForce (s : State) (p code kind arg : Nat) : (s.foldClose p code kind arg).inForce = s.inForce := by unfold State.foldClose; dsimp only; (repeat' split) <;> simp
@[simp] theorem State.foldClose_fab (s : State) (p code kind arg : Nat) : (s.foldClose p code kind arg).fab = s.fab := by unfold State.foldClose; dsimp only; (repeat' split) <;> simp
@[simp] theorem State.foldClose_dev (s : State) (p code kind arg : Nat) : (s.foldClose p code kind arg).dev = s.dev := by unfold State.foldClose; dsimp only; (repeat' split) <;> simp
@[simp] theorem State.foldClose_le0 (s : State) (p code kind arg : Nat) : (s.foldClose p code kind arg).le0 = s.le0 := by unfold State.foldClose; dsimp only; (repeat' split) <;> simp
@[simp] theorem State.foldClose_le1 (s : State) (p code kind arg : Nat) : (s.foldClose p code kind arg).le1 = s.le1 := by unfold State.foldClose; dsimp only; (repeat' split) <;> simp
@[simp] theorem State.foldClose_lanes (s : State) (p code kind arg : Nat) : (s.foldClose p code kind arg).lanes = s.lanes := by unfold State.foldClose; dsimp only; (repeat' split) <;> simp
@[simp] theorem State.foldClose_cls (s : State) (p code kind arg : Nat) : (s.foldClose p code kind arg).cls = s.cls := by unfold State.foldClose; dsimp only; (repeat' split) <;> simp
@[simp] theorem State.foldClose_buf (s : State) (p code kind arg : Nat) : (s.foldClose p code kind arg).buf = s.buf := by unfold State.foldClose; dsimp only; (repeat' split) <;> simp
@[simp] theorem State.foldClose_grp (s : State) (p code kind arg : Nat) : (s.foldClose p code kind arg).grp = s.grp := by unfold State.foldClose; dsimp only; (repeat' split) <;> simp
@[simp] theorem State.foldClose_cip (s : State) (p code kind arg : Nat) : (s.foldClose p code kind arg).cip = s.cip := by unfold State.foldClose; dsimp only; (repeat' split) <;> simp
@[simp] theorem State.foldClose_enc (s : State) (p code kind arg : Nat) : (s.foldClose p code kind arg).enc = s.enc := by unfold State.foldClose; dsimp only; (repeat' split) <;> simp
@[simp] theorem State.foldClose_syn (s : State) (p code kind arg : Nat) : (s.foldClose p code kind arg).syn = s.syn := by unfold State.foldClose; dsimp only; (repeat' split) <;> simp
@[simp] theorem State.foldClose_rep (s : State) (p code kind arg : Nat) : (s.foldClose p code kind arg).rep = s.rep := by unfold State.foldClose; dsimp only; (repeat' split) <;> simp
@[simp] theorem State.foldClose_evl (s : State) (p code kind arg : Nat) : (s.foldClose p code kind arg).evl = s.evl := by unfold State.foldClose; dsimp only; (repeat' split) <;> simp
@[simp] theorem State.foldClose_cnt (s : State) (p code kind arg : Nat) : (s.foldClose p code kind arg).cnt = s.cnt := by unfold State.foldClose; dsimp only; (repeat' split) <;> simp
@[simp] theorem State.foldClose_smp (s : State) (p code kind arg : Nat) : (s.foldClose p code kind arg).smp = s.smp := by unfold State.foldClose; dsimp only; (repeat' split) <;> simp
@[simp] theorem State.foldClose_thm (s : State) (p code kind arg : Nat) : (s.foldClose p code kind arg).thm = s.thm := by unfold State.foldClose; dsimp only; (repeat' split) <;> simp
@[simp] theorem State.foldClose_hmpLog (s : State) (p code kind arg : Nat) : (s.foldClose p code kind arg).hmpLog = s.hmpLog := by unfold State.foldClose; dsimp only; (repeat' split) <;> simp
@[simp] theorem State.foldClose_spi (s : State) (p code kind arg : Nat) : (s.foldClose p code kind arg).spi = s.spi := by unfold State.foldClose; dsimp only; (repeat' split) <;> simp

@[simp] theorem State.logFold_pending (s : State) (p code kind n arg : Nat) : (s.logFold p code kind n arg).pending = s.pending := by unfold State.logFold; dsimp only; (repeat' split) <;> simp
@[simp] theorem State.logFold_time (s : State) (p code kind n arg : Nat) : (s.logFold p code kind n arg).time = s.time := by unfold State.logFold; dsimp only; (repeat' split) <;> simp
@[simp] theorem State.logFold_drawn (s : State) (p code kind n arg : Nat) : (s.logFold p code kind n arg).drawn = s.drawn := by unfold State.logFold; dsimp only; (repeat' split) <;> simp
@[simp] theorem State.logFold_fields (s : State) (p code kind n arg : Nat) : (s.logFold p code kind n arg).fields = s.fields := by unfold State.logFold; dsimp only; (repeat' split) <;> simp
@[simp] theorem State.logFold_staged (s : State) (p code kind n arg : Nat) : (s.logFold p code kind n arg).staged = s.staged := by unfold State.logFold; dsimp only; (repeat' split) <;> simp
@[simp] theorem State.logFold_buffer (s : State) (p code kind n arg : Nat) : (s.logFold p code kind n arg).buffer = s.buffer := by unfold State.logFold; dsimp only; (repeat' split) <;> simp
@[simp] theorem State.logFold_inForce (s : State) (p code kind n arg : Nat) : (s.logFold p code kind n arg).inForce = s.inForce := by unfold State.logFold; dsimp only; (repeat' split) <;> simp
@[simp] theorem State.logFold_fab (s : State) (p code kind n arg : Nat) : (s.logFold p code kind n arg).fab = s.fab := by unfold State.logFold; dsimp only; (repeat' split) <;> simp
@[simp] theorem State.logFold_dev (s : State) (p code kind n arg : Nat) : (s.logFold p code kind n arg).dev = s.dev := by unfold State.logFold; dsimp only; (repeat' split) <;> simp
@[simp] theorem State.logFold_le0 (s : State) (p code kind n arg : Nat) : (s.logFold p code kind n arg).le0 = s.le0 := by unfold State.logFold; dsimp only; (repeat' split) <;> simp
@[simp] theorem State.logFold_le1 (s : State) (p code kind n arg : Nat) : (s.logFold p code kind n arg).le1 = s.le1 := by unfold State.logFold; dsimp only; (repeat' split) <;> simp
@[simp] theorem State.logFold_lanes (s : State) (p code kind n arg : Nat) : (s.logFold p code kind n arg).lanes = s.lanes := by unfold State.logFold; dsimp only; (repeat' split) <;> simp
@[simp] theorem State.logFold_cls (s : State) (p code kind n arg : Nat) : (s.logFold p code kind n arg).cls = s.cls := by unfold State.logFold; dsimp only; (repeat' split) <;> simp
@[simp] theorem State.logFold_buf (s : State) (p code kind n arg : Nat) : (s.logFold p code kind n arg).buf = s.buf := by unfold State.logFold; dsimp only; (repeat' split) <;> simp
@[simp] theorem State.logFold_grp (s : State) (p code kind n arg : Nat) : (s.logFold p code kind n arg).grp = s.grp := by unfold State.logFold; dsimp only; (repeat' split) <;> simp
@[simp] theorem State.logFold_cip (s : State) (p code kind n arg : Nat) : (s.logFold p code kind n arg).cip = s.cip := by unfold State.logFold; dsimp only; (repeat' split) <;> simp
@[simp] theorem State.logFold_enc (s : State) (p code kind n arg : Nat) : (s.logFold p code kind n arg).enc = s.enc := by unfold State.logFold; dsimp only; (repeat' split) <;> simp
@[simp] theorem State.logFold_syn (s : State) (p code kind n arg : Nat) : (s.logFold p code kind n arg).syn = s.syn := by unfold State.logFold; dsimp only; (repeat' split) <;> simp
@[simp] theorem State.logFold_rep (s : State) (p code kind n arg : Nat) : (s.logFold p code kind n arg).rep = s.rep := by unfold State.logFold; dsimp only; (repeat' split) <;> simp
@[simp] theorem State.logFold_evl (s : State) (p code kind n arg : Nat) : (s.logFold p code kind n arg).evl = s.evl := by unfold State.logFold; dsimp only; (repeat' split) <;> simp
@[simp] theorem State.logFold_cnt (s : State) (p code kind n arg : Nat) : (s.logFold p code kind n arg).cnt = s.cnt := by unfold State.logFold; dsimp only; (repeat' split) <;> simp
@[simp] theorem State.logFold_smp (s : State) (p code kind n arg : Nat) : (s.logFold p code kind n arg).smp = s.smp := by unfold State.logFold; dsimp only; (repeat' split) <;> simp
@[simp] theorem State.logFold_thm (s : State) (p code kind n arg : Nat) : (s.logFold p code kind n arg).thm = s.thm := by unfold State.logFold; dsimp only; (repeat' split) <;> simp
@[simp] theorem State.logFold_hmpLog (s : State) (p code kind n arg : Nat) : (s.logFold p code kind n arg).hmpLog = s.hmpLog := by unfold State.logFold; dsimp only; (repeat' split) <;> simp
@[simp] theorem State.logFold_spi (s : State) (p code kind n arg : Nat) : (s.logFold p code kind n arg).spi = s.spi := by unfold State.logFold; dsimp only; (repeat' split) <;> simp

@[simp] theorem State.logPlain_pending (s : State) (p code kind arg : Nat) : (s.logPlain p code kind arg).pending = s.pending := by unfold State.logPlain; split <;> rfl
@[simp] theorem State.logPlain_time (s : State) (p code kind arg : Nat) : (s.logPlain p code kind arg).time = s.time := by unfold State.logPlain; split <;> rfl
@[simp] theorem State.logPlain_drawn (s : State) (p code kind arg : Nat) : (s.logPlain p code kind arg).drawn = s.drawn := by unfold State.logPlain; split <;> rfl
@[simp] theorem State.logPlain_fields (s : State) (p code kind arg : Nat) : (s.logPlain p code kind arg).fields = s.fields := by unfold State.logPlain; split <;> rfl
@[simp] theorem State.logPlain_staged (s : State) (p code kind arg : Nat) : (s.logPlain p code kind arg).staged = s.staged := by unfold State.logPlain; split <;> rfl
@[simp] theorem State.logPlain_buffer (s : State) (p code kind arg : Nat) : (s.logPlain p code kind arg).buffer = s.buffer := by unfold State.logPlain; split <;> rfl
@[simp] theorem State.logPlain_inForce (s : State) (p code kind arg : Nat) : (s.logPlain p code kind arg).inForce = s.inForce := by unfold State.logPlain; split <;> rfl
@[simp] theorem State.logPlain_fab (s : State) (p code kind arg : Nat) : (s.logPlain p code kind arg).fab = s.fab := by unfold State.logPlain; split <;> rfl
@[simp] theorem State.logPlain_dev (s : State) (p code kind arg : Nat) : (s.logPlain p code kind arg).dev = s.dev := by unfold State.logPlain; split <;> rfl
@[simp] theorem State.logPlain_le0 (s : State) (p code kind arg : Nat) : (s.logPlain p code kind arg).le0 = s.le0 := by unfold State.logPlain; split <;> rfl
@[simp] theorem State.logPlain_le1 (s : State) (p code kind arg : Nat) : (s.logPlain p code kind arg).le1 = s.le1 := by unfold State.logPlain; split <;> rfl
@[simp] theorem State.logPlain_lanes (s : State) (p code kind arg : Nat) : (s.logPlain p code kind arg).lanes = s.lanes := by unfold State.logPlain; split <;> rfl
@[simp] theorem State.logPlain_cls (s : State) (p code kind arg : Nat) : (s.logPlain p code kind arg).cls = s.cls := by unfold State.logPlain; split <;> rfl
@[simp] theorem State.logPlain_buf (s : State) (p code kind arg : Nat) : (s.logPlain p code kind arg).buf = s.buf := by unfold State.logPlain; split <;> rfl
@[simp] theorem State.logPlain_grp (s : State) (p code kind arg : Nat) : (s.logPlain p code kind arg).grp = s.grp := by unfold State.logPlain; split <;> rfl
@[simp] theorem State.logPlain_cip (s : State) (p code kind arg : Nat) : (s.logPlain p code kind arg).cip = s.cip := by unfold State.logPlain; split <;> rfl
@[simp] theorem State.logPlain_enc (s : State) (p code kind arg : Nat) : (s.logPlain p code kind arg).enc = s.enc := by unfold State.logPlain; split <;> rfl
@[simp] theorem State.logPlain_syn (s : State) (p code kind arg : Nat) : (s.logPlain p code kind arg).syn = s.syn := by unfold State.logPlain; split <;> rfl
@[simp] theorem State.logPlain_rep (s : State) (p code kind arg : Nat) : (s.logPlain p code kind arg).rep = s.rep := by unfold State.logPlain; split <;> rfl
@[simp] theorem State.logPlain_evl (s : State) (p code kind arg : Nat) : (s.logPlain p code kind arg).evl = s.evl := by unfold State.logPlain; split <;> rfl
@[simp] theorem State.logPlain_cnt (s : State) (p code kind arg : Nat) : (s.logPlain p code kind arg).cnt = s.cnt := by unfold State.logPlain; split <;> rfl
@[simp] theorem State.logPlain_smp (s : State) (p code kind arg : Nat) : (s.logPlain p code kind arg).smp = s.smp := by unfold State.logPlain; split <;> rfl
@[simp] theorem State.logPlain_thm (s : State) (p code kind arg : Nat) : (s.logPlain p code kind arg).thm = s.thm := by unfold State.logPlain; split <;> rfl
@[simp] theorem State.logPlain_hmpLog (s : State) (p code kind arg : Nat) : (s.logPlain p code kind arg).hmpLog = s.hmpLog := by unfold State.logPlain; split <;> rfl
@[simp] theorem State.logPlain_spi (s : State) (p code kind arg : Nat) : (s.logPlain p code kind arg).spi = s.spi := by unfold State.logPlain; split <;> rfl

@[simp] theorem State.logEdge_pending (s : State) (p b : Nat) : (s.logEdge p b).pending = s.pending := by unfold State.logEdge; split <;> simp
@[simp] theorem State.logEdge_time (s : State) (p b : Nat) : (s.logEdge p b).time = s.time := by unfold State.logEdge; split <;> simp
@[simp] theorem State.logEdge_drawn (s : State) (p b : Nat) : (s.logEdge p b).drawn = s.drawn := by unfold State.logEdge; split <;> simp
@[simp] theorem State.logEdge_fields (s : State) (p b : Nat) : (s.logEdge p b).fields = s.fields := by unfold State.logEdge; split <;> simp
@[simp] theorem State.logEdge_staged (s : State) (p b : Nat) : (s.logEdge p b).staged = s.staged := by unfold State.logEdge; split <;> simp
@[simp] theorem State.logEdge_buffer (s : State) (p b : Nat) : (s.logEdge p b).buffer = s.buffer := by unfold State.logEdge; split <;> simp
@[simp] theorem State.logEdge_inForce (s : State) (p b : Nat) : (s.logEdge p b).inForce = s.inForce := by unfold State.logEdge; split <;> simp
@[simp] theorem State.logEdge_fab (s : State) (p b : Nat) : (s.logEdge p b).fab = s.fab := by unfold State.logEdge; split <;> simp
@[simp] theorem State.logEdge_dev (s : State) (p b : Nat) : (s.logEdge p b).dev = s.dev := by unfold State.logEdge; split <;> simp
@[simp] theorem State.logEdge_le0 (s : State) (p b : Nat) : (s.logEdge p b).le0 = s.le0 := by unfold State.logEdge; split <;> simp
@[simp] theorem State.logEdge_le1 (s : State) (p b : Nat) : (s.logEdge p b).le1 = s.le1 := by unfold State.logEdge; split <;> simp
@[simp] theorem State.logEdge_lanes (s : State) (p b : Nat) : (s.logEdge p b).lanes = s.lanes := by unfold State.logEdge; split <;> simp
@[simp] theorem State.logEdge_cls (s : State) (p b : Nat) : (s.logEdge p b).cls = s.cls := by unfold State.logEdge; split <;> simp
@[simp] theorem State.logEdge_buf (s : State) (p b : Nat) : (s.logEdge p b).buf = s.buf := by unfold State.logEdge; split <;> simp
@[simp] theorem State.logEdge_grp (s : State) (p b : Nat) : (s.logEdge p b).grp = s.grp := by unfold State.logEdge; split <;> simp
@[simp] theorem State.logEdge_cip (s : State) (p b : Nat) : (s.logEdge p b).cip = s.cip := by unfold State.logEdge; split <;> simp
@[simp] theorem State.logEdge_enc (s : State) (p b : Nat) : (s.logEdge p b).enc = s.enc := by unfold State.logEdge; split <;> simp
@[simp] theorem State.logEdge_syn (s : State) (p b : Nat) : (s.logEdge p b).syn = s.syn := by unfold State.logEdge; split <;> simp
@[simp] theorem State.logEdge_rep (s : State) (p b : Nat) : (s.logEdge p b).rep = s.rep := by unfold State.logEdge; split <;> simp
@[simp] theorem State.logEdge_evl (s : State) (p b : Nat) : (s.logEdge p b).evl = s.evl := by unfold State.logEdge; split <;> simp
@[simp] theorem State.logEdge_cnt (s : State) (p b : Nat) : (s.logEdge p b).cnt = s.cnt := by unfold State.logEdge; split <;> simp
@[simp] theorem State.logEdge_smp (s : State) (p b : Nat) : (s.logEdge p b).smp = s.smp := by unfold State.logEdge; split <;> simp
@[simp] theorem State.logEdge_thm (s : State) (p b : Nat) : (s.logEdge p b).thm = s.thm := by unfold State.logEdge; split <;> simp
@[simp] theorem State.logEdge_hmpLog (s : State) (p b : Nat) : (s.logEdge p b).hmpLog = s.hmpLog := by unfold State.logEdge; split <;> simp
@[simp] theorem State.logEdge_spi (s : State) (p b : Nat) : (s.logEdge p b).spi = s.spi := by unfold State.logEdge; split <;> simp

@[simp] theorem State.countEdge_pending (s : State) (p b : Nat) : (s.countEdge p b).pending = s.pending := rfl
@[simp] theorem State.countEdge_time (s : State) (p b : Nat) : (s.countEdge p b).time = s.time := rfl
@[simp] theorem State.countEdge_drawn (s : State) (p b : Nat) : (s.countEdge p b).drawn = s.drawn := rfl
@[simp] theorem State.countEdge_fields (s : State) (p b : Nat) : (s.countEdge p b).fields = s.fields := rfl
@[simp] theorem State.countEdge_staged (s : State) (p b : Nat) : (s.countEdge p b).staged = s.staged := rfl
@[simp] theorem State.countEdge_buffer (s : State) (p b : Nat) : (s.countEdge p b).buffer = s.buffer := rfl
@[simp] theorem State.countEdge_inForce (s : State) (p b : Nat) : (s.countEdge p b).inForce = s.inForce := rfl
@[simp] theorem State.countEdge_fab (s : State) (p b : Nat) : (s.countEdge p b).fab = s.fab := rfl
@[simp] theorem State.countEdge_dev (s : State) (p b : Nat) : (s.countEdge p b).dev = s.dev := rfl
@[simp] theorem State.countEdge_le0 (s : State) (p b : Nat) : (s.countEdge p b).le0 = s.le0 := rfl
@[simp] theorem State.countEdge_le1 (s : State) (p b : Nat) : (s.countEdge p b).le1 = s.le1 := rfl
@[simp] theorem State.countEdge_lanes (s : State) (p b : Nat) : (s.countEdge p b).lanes = s.lanes := rfl
@[simp] theorem State.countEdge_cls (s : State) (p b : Nat) : (s.countEdge p b).cls = s.cls := rfl
@[simp] theorem State.countEdge_buf (s : State) (p b : Nat) : (s.countEdge p b).buf = s.buf := rfl
@[simp] theorem State.countEdge_grp (s : State) (p b : Nat) : (s.countEdge p b).grp = s.grp := rfl
@[simp] theorem State.countEdge_cip (s : State) (p b : Nat) : (s.countEdge p b).cip = s.cip := rfl
@[simp] theorem State.countEdge_enc (s : State) (p b : Nat) : (s.countEdge p b).enc = s.enc := rfl
@[simp] theorem State.countEdge_syn (s : State) (p b : Nat) : (s.countEdge p b).syn = s.syn := rfl
@[simp] theorem State.countEdge_rep (s : State) (p b : Nat) : (s.countEdge p b).rep = s.rep := rfl
@[simp] theorem State.countEdge_evl (s : State) (p b : Nat) : (s.countEdge p b).evl = s.evl := rfl
@[simp] theorem State.countEdge_cnt (s : State) (p b : Nat) : (s.countEdge p b).cnt = s.cnt := rfl
@[simp] theorem State.countEdge_smp (s : State) (p b : Nat) : (s.countEdge p b).smp = s.smp := rfl
@[simp] theorem State.countEdge_thm (s : State) (p b : Nat) : (s.countEdge p b).thm = s.thm := rfl
@[simp] theorem State.countEdge_hmpLog (s : State) (p b : Nat) : (s.countEdge p b).hmpLog = s.hmpLog := rfl
@[simp] theorem State.countEdge_spi (s : State) (p b : Nat) : (s.countEdge p b).spi = s.spi := rfl

@[simp] theorem State.datapath_pending (s : State) (n inc : Nat) : (s.datapath n inc).pending = s.pending := rfl
@[simp] theorem State.datapath_time (s : State) (n inc : Nat) : (s.datapath n inc).time = s.time := rfl
@[simp] theorem State.datapath_drawn (s : State) (n inc : Nat) : (s.datapath n inc).drawn = s.drawn := rfl
@[simp] theorem State.datapath_fields (s : State) (n inc : Nat) : (s.datapath n inc).fields = s.fields := rfl
@[simp] theorem State.datapath_staged (s : State) (n inc : Nat) : (s.datapath n inc).staged = s.staged := rfl
@[simp] theorem State.datapath_buffer (s : State) (n inc : Nat) : (s.datapath n inc).buffer = s.buffer := rfl
@[simp] theorem State.datapath_inForce (s : State) (n inc : Nat) : (s.datapath n inc).inForce = s.inForce := rfl
@[simp] theorem State.datapath_fab (s : State) (n inc : Nat) : (s.datapath n inc).fab = s.fab := rfl
@[simp] theorem State.datapath_dev (s : State) (n inc : Nat) : (s.datapath n inc).dev = s.dev := rfl
@[simp] theorem State.datapath_le0 (s : State) (n inc : Nat) : (s.datapath n inc).le0 = s.le0 := rfl
@[simp] theorem State.datapath_le1 (s : State) (n inc : Nat) : (s.datapath n inc).le1 = s.le1 := rfl
@[simp] theorem State.datapath_lanes (s : State) (n inc : Nat) : (s.datapath n inc).lanes = s.lanes := rfl
@[simp] theorem State.datapath_cls (s : State) (n inc : Nat) : (s.datapath n inc).cls = s.cls := rfl
@[simp] theorem State.datapath_buf (s : State) (n inc : Nat) : (s.datapath n inc).buf = s.buf := rfl
@[simp] theorem State.datapath_grp (s : State) (n inc : Nat) : (s.datapath n inc).grp = s.grp := rfl
@[simp] theorem State.datapath_cip (s : State) (n inc : Nat) : (s.datapath n inc).cip = s.cip := rfl
@[simp] theorem State.datapath_enc (s : State) (n inc : Nat) : (s.datapath n inc).enc = s.enc := rfl
@[simp] theorem State.datapath_syn (s : State) (n inc : Nat) : (s.datapath n inc).syn = s.syn := rfl
@[simp] theorem State.datapath_rep (s : State) (n inc : Nat) : (s.datapath n inc).rep = s.rep := rfl
@[simp] theorem State.datapath_evl (s : State) (n inc : Nat) : (s.datapath n inc).evl = s.evl := rfl
@[simp] theorem State.datapath_cnt (s : State) (n inc : Nat) : (s.datapath n inc).cnt = s.cnt := rfl
@[simp] theorem State.datapath_smp (s : State) (n inc : Nat) : (s.datapath n inc).smp = s.smp := rfl
@[simp] theorem State.datapath_thm (s : State) (n inc : Nat) : (s.datapath n inc).thm = s.thm := rfl
@[simp] theorem State.datapath_hmpLog (s : State) (n inc : Nat) : (s.datapath n inc).hmpLog = s.hmpLog := rfl
@[simp] theorem State.datapath_spi (s : State) (n inc : Nat) : (s.datapath n inc).spi = s.spi := rfl

@[simp] theorem State.setSticky_pending (s : State) (p b : Nat) : (s.setSticky p b).pending = s.pending := rfl
@[simp] theorem State.setSticky_time (s : State) (p b : Nat) : (s.setSticky p b).time = s.time := rfl
@[simp] theorem State.setSticky_drawn (s : State) (p b : Nat) : (s.setSticky p b).drawn = s.drawn := rfl
@[simp] theorem State.setSticky_staged (s : State) (p b : Nat) : (s.setSticky p b).staged = s.staged := rfl
@[simp] theorem State.setSticky_buffer (s : State) (p b : Nat) : (s.setSticky p b).buffer = s.buffer := rfl
@[simp] theorem State.setSticky_inForce (s : State) (p b : Nat) : (s.setSticky p b).inForce = s.inForce := rfl
@[simp] theorem State.setSticky_ev (s : State) (p b : Nat) : (s.setSticky p b).ev = s.ev := rfl
@[simp] theorem State.setSticky_fab (s : State) (p b : Nat) : (s.setSticky p b).fab = s.fab := rfl
@[simp] theorem State.setSticky_dev (s : State) (p b : Nat) : (s.setSticky p b).dev = s.dev := rfl
@[simp] theorem State.setSticky_le0 (s : State) (p b : Nat) : (s.setSticky p b).le0 = s.le0 := rfl
@[simp] theorem State.setSticky_le1 (s : State) (p b : Nat) : (s.setSticky p b).le1 = s.le1 := rfl
@[simp] theorem State.setSticky_lanes (s : State) (p b : Nat) : (s.setSticky p b).lanes = s.lanes := rfl
@[simp] theorem State.setSticky_cls (s : State) (p b : Nat) : (s.setSticky p b).cls = s.cls := rfl
@[simp] theorem State.setSticky_buf (s : State) (p b : Nat) : (s.setSticky p b).buf = s.buf := rfl
@[simp] theorem State.setSticky_grp (s : State) (p b : Nat) : (s.setSticky p b).grp = s.grp := rfl
@[simp] theorem State.setSticky_cip (s : State) (p b : Nat) : (s.setSticky p b).cip = s.cip := rfl
@[simp] theorem State.setSticky_enc (s : State) (p b : Nat) : (s.setSticky p b).enc = s.enc := rfl
@[simp] theorem State.setSticky_syn (s : State) (p b : Nat) : (s.setSticky p b).syn = s.syn := rfl
@[simp] theorem State.setSticky_rep (s : State) (p b : Nat) : (s.setSticky p b).rep = s.rep := rfl
@[simp] theorem State.setSticky_evl (s : State) (p b : Nat) : (s.setSticky p b).evl = s.evl := rfl
@[simp] theorem State.setSticky_cnt (s : State) (p b : Nat) : (s.setSticky p b).cnt = s.cnt := rfl
@[simp] theorem State.setSticky_smp (s : State) (p b : Nat) : (s.setSticky p b).smp = s.smp := rfl
@[simp] theorem State.setSticky_thm (s : State) (p b : Nat) : (s.setSticky p b).thm = s.thm := rfl
@[simp] theorem State.setSticky_hmpLog (s : State) (p b : Nat) : (s.setSticky p b).hmpLog = s.hmpLog := rfl
@[simp] theorem State.setSticky_spi (s : State) (p b : Nat) : (s.setSticky p b).spi = s.spi := rfl

@[simp] theorem State.evt_pending (p b : Nat) (s : State) : (State.evt p b s).pending = s.pending := by simp [State.evt]
@[simp] theorem State.evt_time (p b : Nat) (s : State) : (State.evt p b s).time = s.time := by simp [State.evt]
@[simp] theorem State.evt_drawn (p b : Nat) (s : State) : (State.evt p b s).drawn = s.drawn := by simp [State.evt]
@[simp] theorem State.evt_staged (p b : Nat) (s : State) : (State.evt p b s).staged = s.staged := by simp [State.evt]
@[simp] theorem State.evt_buffer (p b : Nat) (s : State) : (State.evt p b s).buffer = s.buffer := by simp [State.evt]
@[simp] theorem State.evt_inForce (p b : Nat) (s : State) : (State.evt p b s).inForce = s.inForce := by simp [State.evt]
@[simp] theorem State.evt_fab (p b : Nat) (s : State) : (State.evt p b s).fab = s.fab := by simp [State.evt]
@[simp] theorem State.evt_dev (p b : Nat) (s : State) : (State.evt p b s).dev = s.dev := by simp [State.evt]
@[simp] theorem State.evt_le0 (p b : Nat) (s : State) : (State.evt p b s).le0 = s.le0 := by simp [State.evt]
@[simp] theorem State.evt_le1 (p b : Nat) (s : State) : (State.evt p b s).le1 = s.le1 := by simp [State.evt]
@[simp] theorem State.evt_lanes (p b : Nat) (s : State) : (State.evt p b s).lanes = s.lanes := by simp [State.evt]
@[simp] theorem State.evt_cls (p b : Nat) (s : State) : (State.evt p b s).cls = s.cls := by simp [State.evt]
@[simp] theorem State.evt_buf (p b : Nat) (s : State) : (State.evt p b s).buf = s.buf := by simp [State.evt]
@[simp] theorem State.evt_grp (p b : Nat) (s : State) : (State.evt p b s).grp = s.grp := by simp [State.evt]
@[simp] theorem State.evt_cip (p b : Nat) (s : State) : (State.evt p b s).cip = s.cip := by simp [State.evt]
@[simp] theorem State.evt_enc (p b : Nat) (s : State) : (State.evt p b s).enc = s.enc := by simp [State.evt]
@[simp] theorem State.evt_syn (p b : Nat) (s : State) : (State.evt p b s).syn = s.syn := by simp [State.evt]
@[simp] theorem State.evt_rep (p b : Nat) (s : State) : (State.evt p b s).rep = s.rep := by simp [State.evt]
@[simp] theorem State.evt_evl (p b : Nat) (s : State) : (State.evt p b s).evl = s.evl := by simp [State.evt]
@[simp] theorem State.evt_cnt (p b : Nat) (s : State) : (State.evt p b s).cnt = s.cnt := by simp [State.evt]
@[simp] theorem State.evt_smp (p b : Nat) (s : State) : (State.evt p b s).smp = s.smp := by simp [State.evt]
@[simp] theorem State.evt_thm (p b : Nat) (s : State) : (State.evt p b s).thm = s.thm := by simp [State.evt]
@[simp] theorem State.evt_hmpLog (p b : Nat) (s : State) : (State.evt p b s).hmpLog = s.hmpLog := by simp [State.evt]
@[simp] theorem State.evt_spi (p b : Nat) (s : State) : (State.evt p b s).spi = s.spi := by simp [State.evt]

@[simp] theorem State.noteWas_pending (s : State) (k old : Nat) : (s.noteWas k old).pending = s.pending := rfl
@[simp] theorem State.noteWas_time (s : State) (k old : Nat) : (s.noteWas k old).time = s.time := rfl
@[simp] theorem State.noteWas_drawn (s : State) (k old : Nat) : (s.noteWas k old).drawn = s.drawn := rfl
@[simp] theorem State.noteWas_fields (s : State) (k old : Nat) : (s.noteWas k old).fields = s.fields := rfl
@[simp] theorem State.noteWas_staged (s : State) (k old : Nat) : (s.noteWas k old).staged = s.staged := rfl
@[simp] theorem State.noteWas_buffer (s : State) (k old : Nat) : (s.noteWas k old).buffer = s.buffer := rfl
@[simp] theorem State.noteWas_inForce (s : State) (k old : Nat) : (s.noteWas k old).inForce = s.inForce := rfl
@[simp] theorem State.noteWas_fab (s : State) (k old : Nat) : (s.noteWas k old).fab = s.fab := rfl
@[simp] theorem State.noteWas_dev (s : State) (k old : Nat) : (s.noteWas k old).dev = s.dev := rfl
@[simp] theorem State.noteWas_le0 (s : State) (k old : Nat) : (s.noteWas k old).le0 = s.le0 := rfl
@[simp] theorem State.noteWas_le1 (s : State) (k old : Nat) : (s.noteWas k old).le1 = s.le1 := rfl
@[simp] theorem State.noteWas_lanes (s : State) (k old : Nat) : (s.noteWas k old).lanes = s.lanes := rfl
@[simp] theorem State.noteWas_cls (s : State) (k old : Nat) : (s.noteWas k old).cls = s.cls := rfl
@[simp] theorem State.noteWas_buf (s : State) (k old : Nat) : (s.noteWas k old).buf = s.buf := rfl
@[simp] theorem State.noteWas_grp (s : State) (k old : Nat) : (s.noteWas k old).grp = s.grp := rfl
@[simp] theorem State.noteWas_cip (s : State) (k old : Nat) : (s.noteWas k old).cip = s.cip := rfl
@[simp] theorem State.noteWas_enc (s : State) (k old : Nat) : (s.noteWas k old).enc = s.enc := rfl
@[simp] theorem State.noteWas_syn (s : State) (k old : Nat) : (s.noteWas k old).syn = s.syn := rfl
@[simp] theorem State.noteWas_rep (s : State) (k old : Nat) : (s.noteWas k old).rep = s.rep := rfl
@[simp] theorem State.noteWas_evl (s : State) (k old : Nat) : (s.noteWas k old).evl = s.evl := rfl
@[simp] theorem State.noteWas_cnt (s : State) (k old : Nat) : (s.noteWas k old).cnt = s.cnt := rfl
@[simp] theorem State.noteWas_smp (s : State) (k old : Nat) : (s.noteWas k old).smp = s.smp := rfl
@[simp] theorem State.noteWas_thm (s : State) (k old : Nat) : (s.noteWas k old).thm = s.thm := rfl
@[simp] theorem State.noteWas_hmpLog (s : State) (k old : Nat) : (s.noteWas k old).hmpLog = s.hmpLog := rfl
@[simp] theorem State.noteWas_spi (s : State) (k old : Nat) : (s.noteWas k old).spi = s.spi := rfl

@[simp] theorem State.level_pending (p b : Nat) (v : Bool) (s : State) : (State.level p b v s).pending = s.pending := by unfold State.level; dsimp only; (repeat' split) <;> simp
@[simp] theorem State.level_time (p b : Nat) (v : Bool) (s : State) : (State.level p b v s).time = s.time := by unfold State.level; dsimp only; (repeat' split) <;> simp
@[simp] theorem State.level_drawn (p b : Nat) (v : Bool) (s : State) : (State.level p b v s).drawn = s.drawn := by unfold State.level; dsimp only; (repeat' split) <;> simp
@[simp] theorem State.level_staged (p b : Nat) (v : Bool) (s : State) : (State.level p b v s).staged = s.staged := by unfold State.level; dsimp only; (repeat' split) <;> simp
@[simp] theorem State.level_buffer (p b : Nat) (v : Bool) (s : State) : (State.level p b v s).buffer = s.buffer := by unfold State.level; dsimp only; (repeat' split) <;> simp
@[simp] theorem State.level_inForce (p b : Nat) (v : Bool) (s : State) : (State.level p b v s).inForce = s.inForce := by unfold State.level; dsimp only; (repeat' split) <;> simp
@[simp] theorem State.level_fab (p b : Nat) (v : Bool) (s : State) : (State.level p b v s).fab = s.fab := by unfold State.level; dsimp only; (repeat' split) <;> simp
@[simp] theorem State.level_dev (p b : Nat) (v : Bool) (s : State) : (State.level p b v s).dev = s.dev := by unfold State.level; dsimp only; (repeat' split) <;> simp
@[simp] theorem State.level_le0 (p b : Nat) (v : Bool) (s : State) : (State.level p b v s).le0 = s.le0 := by unfold State.level; dsimp only; (repeat' split) <;> simp
@[simp] theorem State.level_le1 (p b : Nat) (v : Bool) (s : State) : (State.level p b v s).le1 = s.le1 := by unfold State.level; dsimp only; (repeat' split) <;> simp
@[simp] theorem State.level_lanes (p b : Nat) (v : Bool) (s : State) : (State.level p b v s).lanes = s.lanes := by unfold State.level; dsimp only; (repeat' split) <;> simp
@[simp] theorem State.level_cls (p b : Nat) (v : Bool) (s : State) : (State.level p b v s).cls = s.cls := by unfold State.level; dsimp only; (repeat' split) <;> simp
@[simp] theorem State.level_buf (p b : Nat) (v : Bool) (s : State) : (State.level p b v s).buf = s.buf := by unfold State.level; dsimp only; (repeat' split) <;> simp
@[simp] theorem State.level_grp (p b : Nat) (v : Bool) (s : State) : (State.level p b v s).grp = s.grp := by unfold State.level; dsimp only; (repeat' split) <;> simp
@[simp] theorem State.level_cip (p b : Nat) (v : Bool) (s : State) : (State.level p b v s).cip = s.cip := by unfold State.level; dsimp only; (repeat' split) <;> simp
@[simp] theorem State.level_enc (p b : Nat) (v : Bool) (s : State) : (State.level p b v s).enc = s.enc := by unfold State.level; dsimp only; (repeat' split) <;> simp
@[simp] theorem State.level_syn (p b : Nat) (v : Bool) (s : State) : (State.level p b v s).syn = s.syn := by unfold State.level; dsimp only; (repeat' split) <;> simp
@[simp] theorem State.level_rep (p b : Nat) (v : Bool) (s : State) : (State.level p b v s).rep = s.rep := by unfold State.level; dsimp only; (repeat' split) <;> simp
@[simp] theorem State.level_evl (p b : Nat) (v : Bool) (s : State) : (State.level p b v s).evl = s.evl := by unfold State.level; dsimp only; (repeat' split) <;> simp
@[simp] theorem State.level_cnt (p b : Nat) (v : Bool) (s : State) : (State.level p b v s).cnt = s.cnt := by unfold State.level; dsimp only; (repeat' split) <;> simp
@[simp] theorem State.level_smp (p b : Nat) (v : Bool) (s : State) : (State.level p b v s).smp = s.smp := by unfold State.level; dsimp only; (repeat' split) <;> simp
@[simp] theorem State.level_thm (p b : Nat) (v : Bool) (s : State) : (State.level p b v s).thm = s.thm := by unfold State.level; dsimp only; (repeat' split) <;> simp
@[simp] theorem State.level_hmpLog (p b : Nat) (v : Bool) (s : State) : (State.level p b v s).hmpLog = s.hmpLog := by unfold State.level; dsimp only; (repeat' split) <;> simp
@[simp] theorem State.level_spi (p b : Nat) (v : Bool) (s : State) : (State.level p b v s).spi = s.spi := by unfold State.level; dsimp only; (repeat' split) <;> simp

@[simp] theorem State.err_pending (p step code off : Nat) (s : State) : (State.err p step code s off).pending = s.pending := by unfold State.err; dsimp only; split <;> simp
@[simp] theorem State.err_time (p step code off : Nat) (s : State) : (State.err p step code s off).time = s.time := by unfold State.err; dsimp only; split <;> simp
@[simp] theorem State.err_drawn (p step code off : Nat) (s : State) : (State.err p step code s off).drawn = s.drawn := by unfold State.err; dsimp only; split <;> simp
@[simp] theorem State.err_staged (p step code off : Nat) (s : State) : (State.err p step code s off).staged = s.staged := by unfold State.err; dsimp only; split <;> simp
@[simp] theorem State.err_buffer (p step code off : Nat) (s : State) : (State.err p step code s off).buffer = s.buffer := by unfold State.err; dsimp only; split <;> simp
@[simp] theorem State.err_inForce (p step code off : Nat) (s : State) : (State.err p step code s off).inForce = s.inForce := by unfold State.err; dsimp only; split <;> simp
@[simp] theorem State.err_fab (p step code off : Nat) (s : State) : (State.err p step code s off).fab = s.fab := by unfold State.err; dsimp only; split <;> simp
@[simp] theorem State.err_dev (p step code off : Nat) (s : State) : (State.err p step code s off).dev = s.dev := by unfold State.err; dsimp only; split <;> simp
@[simp] theorem State.err_le0 (p step code off : Nat) (s : State) : (State.err p step code s off).le0 = s.le0 := by unfold State.err; dsimp only; split <;> simp
@[simp] theorem State.err_le1 (p step code off : Nat) (s : State) : (State.err p step code s off).le1 = s.le1 := by unfold State.err; dsimp only; split <;> simp
@[simp] theorem State.err_lanes (p step code off : Nat) (s : State) : (State.err p step code s off).lanes = s.lanes := by unfold State.err; dsimp only; split <;> simp
@[simp] theorem State.err_cls (p step code off : Nat) (s : State) : (State.err p step code s off).cls = s.cls := by unfold State.err; dsimp only; split <;> simp
@[simp] theorem State.err_buf (p step code off : Nat) (s : State) : (State.err p step code s off).buf = s.buf := by unfold State.err; dsimp only; split <;> simp
@[simp] theorem State.err_grp (p step code off : Nat) (s : State) : (State.err p step code s off).grp = s.grp := by unfold State.err; dsimp only; split <;> simp
@[simp] theorem State.err_cip (p step code off : Nat) (s : State) : (State.err p step code s off).cip = s.cip := by unfold State.err; dsimp only; split <;> simp
@[simp] theorem State.err_enc (p step code off : Nat) (s : State) : (State.err p step code s off).enc = s.enc := by unfold State.err; dsimp only; split <;> simp
@[simp] theorem State.err_syn (p step code off : Nat) (s : State) : (State.err p step code s off).syn = s.syn := by unfold State.err; dsimp only; split <;> simp
@[simp] theorem State.err_rep (p step code off : Nat) (s : State) : (State.err p step code s off).rep = s.rep := by unfold State.err; dsimp only; split <;> simp
@[simp] theorem State.err_evl (p step code off : Nat) (s : State) : (State.err p step code s off).evl = s.evl := by unfold State.err; dsimp only; split <;> simp
@[simp] theorem State.err_cnt (p step code off : Nat) (s : State) : (State.err p step code s off).cnt = s.cnt := by unfold State.err; dsimp only; split <;> simp
@[simp] theorem State.err_smp (p step code off : Nat) (s : State) : (State.err p step code s off).smp = s.smp := by unfold State.err; dsimp only; split <;> simp
@[simp] theorem State.err_thm (p step code off : Nat) (s : State) : (State.err p step code s off).thm = s.thm := by unfold State.err; dsimp only; split <;> simp
@[simp] theorem State.err_hmpLog (p step code off : Nat) (s : State) : (State.err p step code s off).hmpLog = s.hmpLog := by unfold State.err; dsimp only; split <;> simp
@[simp] theorem State.err_spi (p step code off : Nat) (s : State) : (State.err p step code s off).spi = s.spi := by unfold State.err; dsimp only; split <;> simp

@[simp] theorem State.loss_pending (f : Field) (n : Nat) (s : State) : (State.loss f n s).pending = s.pending := by unfold State.loss; split <;> simp
@[simp] theorem State.loss_time (f : Field) (n : Nat) (s : State) : (State.loss f n s).time = s.time := by unfold State.loss; split <;> simp
@[simp] theorem State.loss_drawn (f : Field) (n : Nat) (s : State) : (State.loss f n s).drawn = s.drawn := by unfold State.loss; split <;> simp
@[simp] theorem State.loss_staged (f : Field) (n : Nat) (s : State) : (State.loss f n s).staged = s.staged := by unfold State.loss; split <;> simp
@[simp] theorem State.loss_buffer (f : Field) (n : Nat) (s : State) : (State.loss f n s).buffer = s.buffer := by unfold State.loss; split <;> simp
@[simp] theorem State.loss_inForce (f : Field) (n : Nat) (s : State) : (State.loss f n s).inForce = s.inForce := by unfold State.loss; split <;> simp
@[simp] theorem State.loss_fab (f : Field) (n : Nat) (s : State) : (State.loss f n s).fab = s.fab := by unfold State.loss; split <;> simp
@[simp] theorem State.loss_dev (f : Field) (n : Nat) (s : State) : (State.loss f n s).dev = s.dev := by unfold State.loss; split <;> simp
@[simp] theorem State.loss_le0 (f : Field) (n : Nat) (s : State) : (State.loss f n s).le0 = s.le0 := by unfold State.loss; split <;> simp
@[simp] theorem State.loss_le1 (f : Field) (n : Nat) (s : State) : (State.loss f n s).le1 = s.le1 := by unfold State.loss; split <;> simp
@[simp] theorem State.loss_lanes (f : Field) (n : Nat) (s : State) : (State.loss f n s).lanes = s.lanes := by unfold State.loss; split <;> simp
@[simp] theorem State.loss_cls (f : Field) (n : Nat) (s : State) : (State.loss f n s).cls = s.cls := by unfold State.loss; split <;> simp
@[simp] theorem State.loss_buf (f : Field) (n : Nat) (s : State) : (State.loss f n s).buf = s.buf := by unfold State.loss; split <;> simp
@[simp] theorem State.loss_grp (f : Field) (n : Nat) (s : State) : (State.loss f n s).grp = s.grp := by unfold State.loss; split <;> simp
@[simp] theorem State.loss_cip (f : Field) (n : Nat) (s : State) : (State.loss f n s).cip = s.cip := by unfold State.loss; split <;> simp
@[simp] theorem State.loss_enc (f : Field) (n : Nat) (s : State) : (State.loss f n s).enc = s.enc := by unfold State.loss; split <;> simp
@[simp] theorem State.loss_syn (f : Field) (n : Nat) (s : State) : (State.loss f n s).syn = s.syn := by unfold State.loss; split <;> simp
@[simp] theorem State.loss_rep (f : Field) (n : Nat) (s : State) : (State.loss f n s).rep = s.rep := by unfold State.loss; split <;> simp
@[simp] theorem State.loss_evl (f : Field) (n : Nat) (s : State) : (State.loss f n s).evl = s.evl := by unfold State.loss; split <;> simp
@[simp] theorem State.loss_cnt (f : Field) (n : Nat) (s : State) : (State.loss f n s).cnt = s.cnt := by unfold State.loss; split <;> simp
@[simp] theorem State.loss_smp (f : Field) (n : Nat) (s : State) : (State.loss f n s).smp = s.smp := by unfold State.loss; split <;> simp
@[simp] theorem State.loss_thm (f : Field) (n : Nat) (s : State) : (State.loss f n s).thm = s.thm := by unfold State.loss; split <;> simp
@[simp] theorem State.loss_hmpLog (f : Field) (n : Nat) (s : State) : (State.loss f n s).hmpLog = s.hmpLog := by unfold State.loss; split <;> simp
@[simp] theorem State.loss_spi (f : Field) (n : Nat) (s : State) : (State.loss f n s).spi = s.spi := by unfold State.loss; split <;> simp

@[simp] theorem State.fabErr_pending (m : Nat) (r : FabReason) (a : Nat) (s : State) : (State.fabErr m r a s).pending = s.pending := by unfold State.fabErr; split <;> simp
@[simp] theorem State.fabErr_time (m : Nat) (r : FabReason) (a : Nat) (s : State) : (State.fabErr m r a s).time = s.time := by unfold State.fabErr; split <;> simp
@[simp] theorem State.fabErr_drawn (m : Nat) (r : FabReason) (a : Nat) (s : State) : (State.fabErr m r a s).drawn = s.drawn := by unfold State.fabErr; split <;> simp
@[simp] theorem State.fabErr_staged (m : Nat) (r : FabReason) (a : Nat) (s : State) : (State.fabErr m r a s).staged = s.staged := by unfold State.fabErr; split <;> simp
@[simp] theorem State.fabErr_buffer (m : Nat) (r : FabReason) (a : Nat) (s : State) : (State.fabErr m r a s).buffer = s.buffer := by unfold State.fabErr; split <;> simp
@[simp] theorem State.fabErr_inForce (m : Nat) (r : FabReason) (a : Nat) (s : State) : (State.fabErr m r a s).inForce = s.inForce := by unfold State.fabErr; split <;> simp
@[simp] theorem State.fabErr_fab (m : Nat) (r : FabReason) (a : Nat) (s : State) : (State.fabErr m r a s).fab = s.fab := by unfold State.fabErr; split <;> simp
@[simp] theorem State.fabErr_dev (m : Nat) (r : FabReason) (a : Nat) (s : State) : (State.fabErr m r a s).dev = s.dev := by unfold State.fabErr; split <;> simp
@[simp] theorem State.fabErr_le0 (m : Nat) (r : FabReason) (a : Nat) (s : State) : (State.fabErr m r a s).le0 = s.le0 := by unfold State.fabErr; split <;> simp
@[simp] theorem State.fabErr_le1 (m : Nat) (r : FabReason) (a : Nat) (s : State) : (State.fabErr m r a s).le1 = s.le1 := by unfold State.fabErr; split <;> simp
@[simp] theorem State.fabErr_lanes (m : Nat) (r : FabReason) (a : Nat) (s : State) : (State.fabErr m r a s).lanes = s.lanes := by unfold State.fabErr; split <;> simp
@[simp] theorem State.fabErr_cls (m : Nat) (r : FabReason) (a : Nat) (s : State) : (State.fabErr m r a s).cls = s.cls := by unfold State.fabErr; split <;> simp
@[simp] theorem State.fabErr_buf (m : Nat) (r : FabReason) (a : Nat) (s : State) : (State.fabErr m r a s).buf = s.buf := by unfold State.fabErr; split <;> simp
@[simp] theorem State.fabErr_grp (m : Nat) (r : FabReason) (a : Nat) (s : State) : (State.fabErr m r a s).grp = s.grp := by unfold State.fabErr; split <;> simp
@[simp] theorem State.fabErr_cip (m : Nat) (r : FabReason) (a : Nat) (s : State) : (State.fabErr m r a s).cip = s.cip := by unfold State.fabErr; split <;> simp
@[simp] theorem State.fabErr_enc (m : Nat) (r : FabReason) (a : Nat) (s : State) : (State.fabErr m r a s).enc = s.enc := by unfold State.fabErr; split <;> simp
@[simp] theorem State.fabErr_syn (m : Nat) (r : FabReason) (a : Nat) (s : State) : (State.fabErr m r a s).syn = s.syn := by unfold State.fabErr; split <;> simp
@[simp] theorem State.fabErr_rep (m : Nat) (r : FabReason) (a : Nat) (s : State) : (State.fabErr m r a s).rep = s.rep := by unfold State.fabErr; split <;> simp
@[simp] theorem State.fabErr_evl (m : Nat) (r : FabReason) (a : Nat) (s : State) : (State.fabErr m r a s).evl = s.evl := by unfold State.fabErr; split <;> simp
@[simp] theorem State.fabErr_cnt (m : Nat) (r : FabReason) (a : Nat) (s : State) : (State.fabErr m r a s).cnt = s.cnt := by unfold State.fabErr; split <;> simp
@[simp] theorem State.fabErr_smp (m : Nat) (r : FabReason) (a : Nat) (s : State) : (State.fabErr m r a s).smp = s.smp := by unfold State.fabErr; split <;> simp
@[simp] theorem State.fabErr_thm (m : Nat) (r : FabReason) (a : Nat) (s : State) : (State.fabErr m r a s).thm = s.thm := by unfold State.fabErr; split <;> simp
@[simp] theorem State.fabErr_hmpLog (m : Nat) (r : FabReason) (a : Nat) (s : State) : (State.fabErr m r a s).hmpLog = s.hmpLog := by unfold State.fabErr; split <;> simp
@[simp] theorem State.fabErr_spi (m : Nat) (r : FabReason) (a : Nat) (s : State) : (State.fabErr m r a s).spi = s.spi := by unfold State.fabErr; split <;> simp

@[simp] theorem State.refuse_pending (m : Nat) (r : FabReason) (a : Nat) (s : State) : (State.refuse m r a s).pending = s.pending := by unfold State.refuse; dsimp only; split <;> simp
@[simp] theorem State.refuse_time (m : Nat) (r : FabReason) (a : Nat) (s : State) : (State.refuse m r a s).time = s.time := by unfold State.refuse; dsimp only; split <;> simp
@[simp] theorem State.refuse_drawn (m : Nat) (r : FabReason) (a : Nat) (s : State) : (State.refuse m r a s).drawn = s.drawn := by unfold State.refuse; dsimp only; split <;> simp
@[simp] theorem State.refuse_staged (m : Nat) (r : FabReason) (a : Nat) (s : State) : (State.refuse m r a s).staged = s.staged := by unfold State.refuse; dsimp only; split <;> simp
@[simp] theorem State.refuse_buffer (m : Nat) (r : FabReason) (a : Nat) (s : State) : (State.refuse m r a s).buffer = s.buffer := by unfold State.refuse; dsimp only; split <;> simp
@[simp] theorem State.refuse_inForce (m : Nat) (r : FabReason) (a : Nat) (s : State) : (State.refuse m r a s).inForce = s.inForce := by unfold State.refuse; dsimp only; split <;> simp
@[simp] theorem State.refuse_fab (m : Nat) (r : FabReason) (a : Nat) (s : State) : (State.refuse m r a s).fab = s.fab := by unfold State.refuse; dsimp only; split <;> simp
@[simp] theorem State.refuse_dev (m : Nat) (r : FabReason) (a : Nat) (s : State) : (State.refuse m r a s).dev = s.dev := by unfold State.refuse; dsimp only; split <;> simp
@[simp] theorem State.refuse_le0 (m : Nat) (r : FabReason) (a : Nat) (s : State) : (State.refuse m r a s).le0 = s.le0 := by unfold State.refuse; dsimp only; split <;> simp
@[simp] theorem State.refuse_le1 (m : Nat) (r : FabReason) (a : Nat) (s : State) : (State.refuse m r a s).le1 = s.le1 := by unfold State.refuse; dsimp only; split <;> simp
@[simp] theorem State.refuse_lanes (m : Nat) (r : FabReason) (a : Nat) (s : State) : (State.refuse m r a s).lanes = s.lanes := by unfold State.refuse; dsimp only; split <;> simp
@[simp] theorem State.refuse_cls (m : Nat) (r : FabReason) (a : Nat) (s : State) : (State.refuse m r a s).cls = s.cls := by unfold State.refuse; dsimp only; split <;> simp
@[simp] theorem State.refuse_buf (m : Nat) (r : FabReason) (a : Nat) (s : State) : (State.refuse m r a s).buf = s.buf := by unfold State.refuse; dsimp only; split <;> simp
@[simp] theorem State.refuse_grp (m : Nat) (r : FabReason) (a : Nat) (s : State) : (State.refuse m r a s).grp = s.grp := by unfold State.refuse; dsimp only; split <;> simp
@[simp] theorem State.refuse_cip (m : Nat) (r : FabReason) (a : Nat) (s : State) : (State.refuse m r a s).cip = s.cip := by unfold State.refuse; dsimp only; split <;> simp
@[simp] theorem State.refuse_enc (m : Nat) (r : FabReason) (a : Nat) (s : State) : (State.refuse m r a s).enc = s.enc := by unfold State.refuse; dsimp only; split <;> simp
@[simp] theorem State.refuse_syn (m : Nat) (r : FabReason) (a : Nat) (s : State) : (State.refuse m r a s).syn = s.syn := by unfold State.refuse; dsimp only; split <;> simp
@[simp] theorem State.refuse_rep (m : Nat) (r : FabReason) (a : Nat) (s : State) : (State.refuse m r a s).rep = s.rep := by unfold State.refuse; dsimp only; split <;> simp
@[simp] theorem State.refuse_evl (m : Nat) (r : FabReason) (a : Nat) (s : State) : (State.refuse m r a s).evl = s.evl := by unfold State.refuse; dsimp only; split <;> simp
@[simp] theorem State.refuse_cnt (m : Nat) (r : FabReason) (a : Nat) (s : State) : (State.refuse m r a s).cnt = s.cnt := by unfold State.refuse; dsimp only; split <;> simp
@[simp] theorem State.refuse_smp (m : Nat) (r : FabReason) (a : Nat) (s : State) : (State.refuse m r a s).smp = s.smp := by unfold State.refuse; dsimp only; split <;> simp
@[simp] theorem State.refuse_thm (m : Nat) (r : FabReason) (a : Nat) (s : State) : (State.refuse m r a s).thm = s.thm := by unfold State.refuse; dsimp only; split <;> simp
@[simp] theorem State.refuse_hmpLog (m : Nat) (r : FabReason) (a : Nat) (s : State) : (State.refuse m r a s).hmpLog = s.hmpLog := by unfold State.refuse; dsimp only; split <;> simp
@[simp] theorem State.refuse_spi (m : Nat) (r : FabReason) (a : Nat) (s : State) : (State.refuse m r a s).spi = s.spi := by unfold State.refuse; dsimp only; split <;> simp

@[simp] theorem State.access_pending (m : Master) (s : State) : (State.access m s).pending = s.pending := by unfold State.access; split <;> simp
@[simp] theorem State.access_time (m : Master) (s : State) : (State.access m s).time = s.time := by unfold State.access; split <;> simp
@[simp] theorem State.access_drawn (m : Master) (s : State) : (State.access m s).drawn = s.drawn := by unfold State.access; split <;> simp
@[simp] theorem State.access_fields (m : Master) (s : State) : (State.access m s).fields = s.fields := by unfold State.access; split <;> simp
@[simp] theorem State.access_staged (m : Master) (s : State) : (State.access m s).staged = s.staged := by unfold State.access; split <;> simp
@[simp] theorem State.access_buffer (m : Master) (s : State) : (State.access m s).buffer = s.buffer := by unfold State.access; split <;> simp
@[simp] theorem State.access_inForce (m : Master) (s : State) : (State.access m s).inForce = s.inForce := by unfold State.access; split <;> simp
@[simp] theorem State.access_fab (m : Master) (s : State) : (State.access m s).fab = s.fab := by unfold State.access; split <;> simp
@[simp] theorem State.access_dev (m : Master) (s : State) : (State.access m s).dev = s.dev := by unfold State.access; split <;> simp
@[simp] theorem State.access_le0 (m : Master) (s : State) : (State.access m s).le0 = s.le0 := by unfold State.access; split <;> simp
@[simp] theorem State.access_le1 (m : Master) (s : State) : (State.access m s).le1 = s.le1 := by unfold State.access; split <;> simp
@[simp] theorem State.access_lanes (m : Master) (s : State) : (State.access m s).lanes = s.lanes := by unfold State.access; split <;> simp
@[simp] theorem State.access_cls (m : Master) (s : State) : (State.access m s).cls = s.cls := by unfold State.access; split <;> simp
@[simp] theorem State.access_buf (m : Master) (s : State) : (State.access m s).buf = s.buf := by unfold State.access; split <;> simp
@[simp] theorem State.access_grp (m : Master) (s : State) : (State.access m s).grp = s.grp := by unfold State.access; split <;> simp
@[simp] theorem State.access_cip (m : Master) (s : State) : (State.access m s).cip = s.cip := by unfold State.access; split <;> simp
@[simp] theorem State.access_enc (m : Master) (s : State) : (State.access m s).enc = s.enc := by unfold State.access; split <;> simp
@[simp] theorem State.access_syn (m : Master) (s : State) : (State.access m s).syn = s.syn := by unfold State.access; split <;> simp
@[simp] theorem State.access_rep (m : Master) (s : State) : (State.access m s).rep = s.rep := by unfold State.access; split <;> simp
@[simp] theorem State.access_evl (m : Master) (s : State) : (State.access m s).evl = s.evl := by unfold State.access; split <;> simp
@[simp] theorem State.access_cnt (m : Master) (s : State) : (State.access m s).cnt = s.cnt := by unfold State.access; split <;> simp
@[simp] theorem State.access_smp (m : Master) (s : State) : (State.access m s).smp = s.smp := by unfold State.access; split <;> simp
@[simp] theorem State.access_thm (m : Master) (s : State) : (State.access m s).thm = s.thm := by unfold State.access; split <;> simp
@[simp] theorem State.access_hmpLog (m : Master) (s : State) : (State.access m s).hmpLog = s.hmpLog := by unfold State.access; split <;> simp
@[simp] theorem State.access_spi (m : Master) (s : State) : (State.access m s).spi = s.spi := by unfold State.access; split <;> simp

/-! ## What a register field reads as -/

@[simp] theorem g_setF_same (s : State) (f : Field) (v : Nat) : (s.setF f v).g f = v % 2 ^ f.width := by
  simp [State.g, look, State.setF]

theorem g_setF_other (s : State) {f f' : Field} (v : Nat) (h : f'.key ≠ f.key) : (s.setF f v).g f' = s.g f' := by
  simp [State.g, look, State.setF, Tbl.get_set_other _ _ _ _ h]

theorem find_setF_other (s : State) (f : Field) (v : Nat) {k : Nat} (h : k ≠ f.key) :
    Tbl.find (s.setF f v).fields k = Tbl.find s.fields k := Tbl.find_set_other _ _ _ h

@[simp] theorem g_setB_same (s : State) (f : Field) (b : Bool) (h : 0 < f.width) : (s.setB f b).g f = b.toNat := by
  rw [State.setB, g_setF_same, Nat.mod_eq_of_lt]
  exact Nat.lt_of_le_of_lt (by cases b <;> simp) (Nat.one_lt_two_pow (Nat.ne_of_gt h))

theorem g_setB_other (s : State) {f f' : Field} (b : Bool) (h : f'.key ≠ f.key) : (s.setB f b).g f' = s.g f' :=
  g_setF_other s _ h

theorem g_bump_other (s : State) {f f' : Field} (n : Nat) (h : f'.key ≠ f.key) : (s.bump f n).g f' = s.g f' :=
  g_setF_other s _ h

@[simp] theorem g_bump_same (s : State) (f : Field) (n : Nat) : (s.bump f n).g f = min (s.g f + n) (2 ^ f.width - 1) := by
  rw [State.bump, g_setF_same, Nat.mod_eq_of_lt]
  exact Nat.lt_of_le_of_lt (Nat.min_le_right _ _) (Nat.sub_lt (Nat.two_pow_pos _) Nat.one_pos)

theorem g_incWrap_other (s : State) {f f' : Field} (n : Nat) (h : f'.key ≠ f.key) : (s.incWrap f n).g f' = s.g f' :=
  g_setF_other s _ h

@[simp] theorem g_incWrap_same (s : State) (f : Field) (n : Nat) : (s.incWrap f n).g f = (s.g f + n) % 2 ^ f.width := by
  rw [State.incWrap, g_setF_same]

@[simp] theorem stg_stage_same (s : State) (f : Field) (v : Nat) : (s.stage f v).stg f = v % 2 ^ f.width := by
  simp [State.stg, look, State.stage]

theorem stg_stage_other (s : State) {f f' : Field} (v : Nat) (h : f'.key ≠ f.key) : (s.stage f v).stg f' = s.stg f' := by
  simp [State.stg, look, State.stage, Tbl.get_set_other _ _ _ _ h]

/-- Register contents alone decide what a field reads as. -/
theorem g_of_fields {s t : State} (h : t.fields = s.fields) (f : Field) : t.g f = s.g f := by rw [State.g, h, State.g]

/-- Register contents alone decide what a one-bit field reads as. -/
theorem on_of_fields {s t : State} (h : t.fields = s.fields) (f : Field) : t.on f = s.on f := by rw [State.on, State.on, g_of_fields h]

@[simp] theorem g_access (m : Master) (s : State) (f : Field) : (State.access m s).g f = s.g f := g_of_fields (by simp) f
@[simp] theorem on_access (m : Master) (s : State) (f : Field) : (State.access m s).on f = s.on f := on_of_fields (by simp) f
@[simp] theorem g_datapath (s : State) (n inc : Nat) (f : Field) : (s.datapath n inc).g f = s.g f := rfl
@[simp] theorem g_logFold (s : State) (p code kind n arg : Nat) (f : Field) : (s.logFold p code kind n arg).g f = s.g f :=
  g_of_fields (by simp) f
@[simp] theorem g_logPlain (s : State) (p code kind arg : Nat) (f : Field) : (s.logPlain p code kind arg).g f = s.g f :=
  g_of_fields (by simp) f
@[simp] theorem g_logEdge (s : State) (p b : Nat) (f : Field) : (s.logEdge p b).g f = s.g f := g_of_fields (by simp) f
@[simp] theorem g_noteWas (s : State) (k old : Nat) (f : Field) : (s.noteWas k old).g f = s.g f := rfl
@[simp] theorem g_countEdge (s : State) (p b : Nat) (f : Field) : (s.countEdge p b).g f = s.g f := rfl
@[simp] theorem g_msiRise (s0 s : State) (p : Nat) (f : Field) : (State.msiRise s0 p s).g f = s.g f := g_of_fields (by simp) f
@[simp] theorem g_draw (s : State) (w : Nat) (f : Field) : (s.draw w).2.g f = s.g f := rfl
@[simp] theorem g_reach (s : State) (t : Nat) (f : Field) : (s.reach t).g f = s.g f := g_of_fields (by simp) f
@[simp] theorem g_stage (s : State) (f' : Field) (v : Nat) (f : Field) : (s.stage f' v).g f = s.g f := rfl
@[simp] theorem g_force (s : State) (f' : Field) (v : Nat) (f : Field) : (s.force f' v).g f = s.g f := rfl
@[simp] theorem g_modEng (s : State) (le : Nat) (e : Engine → Engine) (f : Field) : (s.modEng le e).g f = s.g f :=
  g_of_fields (by simp) f
@[simp] theorem g_modTx (s : State) (le : Nat) (e : Tx → Tx) (f : Field) : (s.modTx le e).g f = s.g f := g_of_fields (by simp) f
@[simp] theorem g_modRx (s : State) (le : Nat) (e : Rx → Rx) (f : Field) : (s.modRx le e).g f = s.g f := g_of_fields (by simp) f
@[simp] theorem g_modFec (s : State) (le : Nat) (e : Fec → Fec) (f : Field) : (s.modFec le e).g f = s.g f := g_of_fields (by simp) f
@[simp] theorem g_modGlf (s : State) (le : Nat) (e : Glf → Glf) (f : Field) : (s.modGlf le e).g f = s.g f := g_of_fields (by simp) f
@[simp] theorem g_modP2 (s : State) (le : Nat) (e : P2mp → P2mp) (f : Field) : (s.modP2 le e).g f = s.g f := g_of_fields (by simp) f

/-- An event changes no register but EVT_STICKY of its page. -/
theorem g_evt_other (p b : Nat) (s : State) {f : Field} (h : f.key ≠ (F.EVT_STICKY p).key) : (State.evt p b s).g f = s.g f := by
  simp [State.evt, State.setSticky, g_setF_other _ _ h]

/-- An event sets its bit of EVT_STICKY and keeps the others. -/
theorem g_evt_sticky (p b : Nat) (s : State) :
    (State.evt p b s).g (F.EVT_STICKY p) = (s.g (F.EVT_STICKY p) ||| 2 ^ b) % 2 ^ 32 := by
  simp [State.evt, State.setSticky, F.EVT_STICKY, hdr]

/-- After an event its sticky bit is 1. -/
theorem testBit_evt (p b : Nat) (s : State) (hb : b < 32) : ((State.evt p b s).g (F.EVT_STICKY p)).testBit b = true := by
  rw [g_evt_sticky, Nat.testBit_mod_two_pow]
  simp [hb, Nat.testBit_two_pow_self]

/-- Sticky bits that are set stay set through an event of any page. -/
theorem testBit_evt_of (p b q c : Nat) (s : State) (hc : c < 32) (h : (s.g (F.EVT_STICKY q)).testBit c = true) :
    ((State.evt p b s).g (F.EVT_STICKY q)).testBit c = true := by
  by_cases e : q = p
  · subst e
    rw [g_evt_sticky, Nat.testBit_mod_two_pow]
    simp [hc, h]
  · rw [g_evt_other]
    · exact h
    · simp only [F.EVT_STICKY, hdr]; omega

/-- A raw level other than EVT_RAW and EVT_STICKY of its page is left alone. -/
theorem g_level_other (p b : Nat) (v : Bool) (s : State) {f : Field} (h : f.key ≠ (F.EVT_STICKY p).key)
    (h' : f.key ≠ (F.EVT_RAW p).key) : (State.level p b v s).g f = s.g f := by
  unfold State.level
  dsimp only
  split
  · split
    · rfl
    · rw [g_evt_other _ _ _ h, g_setF_other _ _ h', g_noteWas]
  · split
    · rw [g_setF_other _ _ h', g_noteWas]
    · rfl

/-- A write that reaches an up, unlocked page of the map takes effect (R50, R51, R68). -/
theorem goWrite_runs (s : State) (m : Master) (addr : Nat) (inFab : Bool) (f : State → State)
    (h1 : s.reaches m (pageOf addr) = true) (h2 : definedPage (pageOf addr) = true)
    (h3 : inFab = true ∨ s.domainUp (pageOf addr) = true) (h4 : s.lockedOut (mcode m) (pageOf addr) = false) :
    s.goWrite m addr inFab f = f (State.access m s) := by
  have hu : (State.access m s).domainUp (pageOf addr) = s.domainUp (pageOf addr) := by
    unfold State.domainUp State.inService State.inStandby State.mode State.runState
    simp
  have hl : (State.access m s).lockedOut (mcode m) (pageOf addr) = s.lockedOut (mcode m) (pageOf addr) := by
    simp [State.lockedOut]
  unfold State.goWrite
  dsimp only
  rw [if_neg (by simp [h1]), if_neg (by simp [h2]), hu, if_neg (by rcases h3 with h | h <;> simp [h]), hl, if_neg (by simp [h4])]

/-! ## What the engines hold -/

@[simp] theorem eng_setF (s : State) (f : Field) (v : Nat) (le : Nat) : (s.setF f v).eng le = s.eng le := by simp [State.eng]
@[simp] theorem eng_setB (s : State) (f : Field) (b : Bool) (le : Nat) : (s.setB f b).eng le = s.eng le := by simp [State.eng]
@[simp] theorem eng_bump (s : State) (f : Field) (n : Nat) (le : Nat) : (s.bump f n).eng le = s.eng le := by simp [State.eng]
@[simp] theorem eng_incWrap (s : State) (f : Field) (n : Nat) (le : Nat) : (s.incWrap f n).eng le = s.eng le := by simp [State.eng]
@[simp] theorem eng_stage (s : State) (f : Field) (v : Nat) (le : Nat) : (s.stage f v).eng le = s.eng le := by simp [State.eng]
@[simp] theorem eng_force (s : State) (f : Field) (v : Nat) (le : Nat) : (s.force f v).eng le = s.eng le := by simp [State.eng]
@[simp] theorem eng_draw (s : State) (w : Nat) (le : Nat) : ((s.draw w).2).eng le = s.eng le := by simp [State.eng]
@[simp] theorem eng_reach (s : State) (t : Nat) (le : Nat) : (s.reach t).eng le = s.eng le := by simp [State.eng]
@[simp] theorem eng_datapath (s : State) (n inc : Nat) (le : Nat) : (s.datapath n inc).eng le = s.eng le := by simp [State.eng]
@[simp] theorem eng_evt (p b : Nat) (s : State) (le : Nat) : (State.evt p b s).eng le = s.eng le := by simp [State.eng]
@[simp] theorem eng_level (p b : Nat) (v : Bool) (s : State) (le : Nat) : (State.level p b v s).eng le = s.eng le := by simp [State.eng]
@[simp] theorem eng_err (p step code : Nat) (s : State) (le : Nat) : (State.err p step code s).eng le = s.eng le := by simp [State.eng]
@[simp] theorem eng_loss (f : Field) (n : Nat) (s : State) (le : Nat) : (State.loss f n s).eng le = s.eng le := by simp [State.eng]
@[simp] theorem eng_access (m : Master) (s : State) (le : Nat) : (State.access m s).eng le = s.eng le := by simp [State.eng]
@[simp] theorem eng_msiRise (s0 s : State) (p : Nat) (le : Nat) : (State.msiRise s0 p s).eng le = s.eng le := by simp [State.eng]

@[simp] theorem eng_modEng_same (s : State) (le : Nat) (f : Engine → Engine) : (s.modEng le f).eng le = f (s.eng le) := by
  unfold State.modEng State.eng
  split <;> simp
@[simp] theorem eng_modTx_same (s : State) (le : Nat) (f : Tx → Tx) :
    (s.modTx le f).eng le = { s.eng le with tx := f (s.eng le).tx } := by simp [State.modTx]
@[simp] theorem eng_modRx_same (s : State) (le : Nat) (f : Rx → Rx) :
    (s.modRx le f).eng le = { s.eng le with rx := f (s.eng le).rx } := by simp [State.modRx]
@[simp] theorem eng_modFec_same (s : State) (le : Nat) (f : Fec → Fec) :
    (s.modFec le f).eng le = { s.eng le with fec := f (s.eng le).fec } := by simp [State.modFec]
@[simp] theorem eng_modGlf_same (s : State) (le : Nat) (f : Glf → Glf) :
    (s.modGlf le f).eng le = { s.eng le with glf := f (s.eng le).glf } := by simp [State.modGlf]
@[simp] theorem eng_modP2_same (s : State) (le : Nat) (f : P2mp → P2mp) :
    (s.modP2 le f).eng le = { s.eng le with p2mp := f (s.eng le).p2mp } := by simp [State.modP2]

/-! ## Events, errors and losses: other registers -/

@[simp] theorem g_loss_other (f : Field) (n : Nat) (s : State) {f' : Field} (h : f'.key ≠ f.key) : (State.loss f n s).g f' = s.g f' := by
  unfold State.loss
  split
  · rfl
  · rw [g_logFold, g_bump_other _ _ h]

/-- A loss adds to its counter, which saturates. -/
theorem g_loss_same (f : Field) (n : Nat) (s : State) (h : s.g f < 2 ^ f.width) :
    (State.loss f n s).g f = min (s.g f + n) (2 ^ f.width - 1) := by
  unfold State.loss
  split
  next hn => subst hn; rw [Nat.add_zero, Nat.min_eq_left (by omega)]
  · rw [g_logFold, g_bump_same]

/-- A loss of at least one unit adds to its counter, which saturates. -/
theorem g_loss_pos (f : Field) (n : Nat) (s : State) (h : n ≠ 0) :
    (State.loss f n s).g f = min (s.g f + n) (2 ^ f.width - 1) := by
  unfold State.loss
  rw [if_neg h, g_logFold, g_bump_same]

/-- An error touches its page's ERR_CODE and EVT_STICKY, no other register. -/
theorem g_err_other (p step code : Nat) (s : State) {f : Field} (h1 : f.key ≠ (F.EVT_STICKY p).key)
    (h2 : f.key ≠ (F.ERR_valid p).key) (h3 : f.key ≠ (F.ERR_lost p).key) (h4 : f.key ≠ (F.ERR_step p).key)
    (h5 : f.key ≠ (F.ERR_code p).key) : (State.err p step code s).g f = s.g f := by
  unfold State.err
  dsimp only
  split
  · rw [g_setB_other _ _ h3, g_logPlain]
  · rw [g_evt_other _ _ _ h1, g_setF_other _ _ h5, g_setF_other _ _ h4, g_setB_other _ _ h2, g_logPlain]

/-- R89: a fabric error touches no register but those of page 0x07. -/
theorem g_fabErr_other (m : Nat) (r : FabReason) (a : Nat) (s : State) {f : Field} (h1 : f.key ≠ F.FAB_ERR_CNT_count.key)
    (h2 : f.key ≠ F.FAB_ERR_LAST_ADDR_addr.key) (h3 : f.key ≠ F.FAB_ERR_LAST_INFO_reason.key)
    (h4 : f.key ≠ F.FAB_ERR_LAST_INFO_master.key) : (State.fabErr m r a s).g f = s.g f := by
  unfold State.fabErr
  split
  · rfl
  · dsimp only
    rw [g_setF_other _ _ h4, g_setF_other _ _ h3, g_setF_other _ _ h2, g_bump_other _ _ h1, g_datapath]

/-- R89: a refused write touches no register but those of page 0x07 and EVT_STICKY of its own page. -/
theorem g_refuse_other (m : Nat) (r : FabReason) (a : Nat) (s : State) {f : Field} (h0 : f.key ≠ (F.EVT_STICKY (pageOf a)).key)
    (h1 : f.key ≠ F.FAB_ERR_CNT_count.key) (h2 : f.key ≠ F.FAB_ERR_LAST_ADDR_addr.key)
    (h3 : f.key ≠ F.FAB_ERR_LAST_INFO_reason.key) (h4 : f.key ≠ F.FAB_ERR_LAST_INFO_master.key) :
    (State.refuse m r a s).g f = s.g f := by
  unfold State.refuse
  dsimp only
  split
  · rw [g_evt_other _ _ _ h0, g_fabErr_other _ _ _ _ h1 h2 h3 h4]
  · rw [g_fabErr_other _ _ _ _ h1 h2 h3 h4]


end Sys2Proof.Machine
end

