-- ==== Sys2Proof/Laws/Claims.lean ====
section
/-! SUPPORT. What the words of the claims come to: sticky events, writes that are admitted, registers outside a frame. -/
namespace Sys2Proof.Machine

/-- Registers outside a frame read as before. -/
theorem Fits.g {N : Part → Prop} {s t : State} (h : Fits N s t) {f : Field} (hn : ¬ N (.reg f.key)) : t.g f = s.g f := by
  have hf : Tbl.find t.fields f.key = Tbl.find s.fields f.key := h.within (.reg f.key) hn
  unfold State.g look Tbl.get
  rw [hf]

/-- A command write that is admitted takes effect. -/
theorem State.admits.runs {s : State} {m : Master} {p addr : Nat} {inFab : Bool} (h : s.admits m p inFab) (e : pageOf addr = p)
    (f : State → State) : s.goWrite m addr inFab f = f (State.access m s) := by
  subst e
  exact goWrite_runs s m addr inFab f h.1 h.2.1 h.2.2.1 h.2.2.2

/-- A register offset lies in its page. -/
theorem pageOf_hdr (p off : Nat) (hp : p < 256) (ho : off < 0x1000) : pageOf (p * 0x1000 + off) = p := by
  unfold pageOf
  split
  · omega
  · omega

theorem sticky_of_g {s t : State} {p b : Nat} (h : s.sticky p b) (e : t.g (F.EVT_STICKY p) = s.g (F.EVT_STICKY p)) :
    t.sticky p b := by
  unfold State.sticky
  rw [e]
  exact h

/-- After an event its sticky bit reads 1. -/
theorem sticky_evt (p b : Nat) (s : State) (h : b < 32) : (State.evt p b s).sticky p b := testBit_evt p b s h

/-- An event clears no sticky bit. -/
theorem sticky_evt_of (p b : Nat) {q c : Nat} {s : State} (hc : c < 32) (h : s.sticky q c) : (State.evt p b s).sticky q c :=
  testBit_evt_of p b q c s hc h

/-- A write of another register clears no sticky bit. -/
theorem sticky_setF {s : State} {q c : Nat} {f : Field} (v : Nat) (hf : (F.EVT_STICKY q).key ≠ f.key) (h : s.sticky q c) :
    (s.setF f v).sticky q c := sticky_of_g h (g_setF_other s v hf)

/-- Register contents alone decide the sticky bits. -/
theorem sticky_of_fields {s t : State} {p b : Nat} (h : s.sticky p b) (e : t.fields = s.fields) : t.sticky p b :=
  sticky_of_g h (g_of_fields e _)

/-- A field that reads a number below 2 to its width reads it. -/
theorem on_setB (s : State) (f : Field) (b : Bool) (h : f.width = 1) : (s.setB f b).on f = b := by
  unfold State.on
  rw [g_setB_same _ _ _ (by omega)]
  cases b <;> rfl

/-- A write of another register leaves a one-bit field. -/
theorem on_setF_other (s : State) {f f' : Field} (v : Nat) (h : f'.key ≠ f.key) : (s.setF f v).on f' = s.on f' := by
  unfold State.on
  rw [g_setF_other s v h]

/-- A raised level is kept in EVT_RAW. -/
theorem raw_level_true (p b : Nat) (s : State) (hb : b < 32) :
    ((State.level p b true s).g (F.EVT_RAW p)).testBit b = true := by
  unfold State.level
  dsimp only
  rw [if_pos rfl]
  split
  next h => exact h
  next h =>
    rw [g_evt_other _ _ _ (by simp), g_setF_same, show (F.EVT_RAW p).width = 32 from rfl, Nat.testBit_mod_two_pow]
    simp [hb, Nat.testBit_two_pow_self]

/-- A lowered level is cleared in EVT_RAW. -/
theorem raw_level_false (p b : Nat) (s : State) : ((State.level p b false s).g (F.EVT_RAW p)).testBit b = false := by
  unfold State.level
  dsimp only
  rw [if_neg (by simp)]
  split
  next h =>
    rw [g_setF_same, Nat.testBit_mod_two_pow]
    simp [h, Nat.testBit_two_pow_self]
  next h => simpa using h

end Sys2Proof.Machine
end

