-- ==== Sys2Proof/Laws/FitsOps.lean ====
section
/-! SUPPORT. What the operations of Machine/Ops.lean touch (a structure of parts for each, over those of the operations it calls), and
that each keeps the canonical form. -/
set_option linter.unusedTactic false
set_option linter.unreachableTactic false
namespace Sys2Proof.Machine

variable {N : Part → Prop} {s0 : State}

theorem Fits.setF (s : State) (f : Field) (v : Nat) (h : Fits N s0 s) (k_f : N (.reg f.key)) :
    Fits N s0 (State.setF s f v) := by
  exact Fits.upd_fields h _ (fun k hk => Tbl.find_set_other _ _ _ fun e => hk (by rw [e]; exact k_f))
    fun t => Tbl.rising_set t _ _ _

theorem Fits.setB (s : State) (f : Field) (b : Bool) (h : Fits N s0 s) (k_f : N (.reg f.key)) :
    Fits N s0 (State.setB s f b) := by
  unfold Sys2Proof.Machine.State.setB
  repeat' first
    | with_reducible assumption
    | with_reducible exact k_f
    | with_reducible apply Fits.setF
    | (intro _)
    | with_reducible apply Fits.ite
    | dsimp only
    | split
    | (refine Fits.pair ‹_ = (_, _)› ?_)
    | (refine Fits.pair2 ‹_ = (_, _, _)› ?_)

theorem Fits.stage (s : State) (f : Field) (v : Nat) (h : Fits N s0 s) (h_staged : N .staged) :
    Fits N s0 (State.stage s f v) := by
  exact Fits.upd_staged h h_staged _ fun t => Tbl.rising_set t _ _ _

theorem Fits.force (s : State) (f : Field) (v : Nat) (h : Fits N s0 s) (h_inForce : N .inForce) :
    Fits N s0 (State.force s f v) := by
  exact Fits.upd_inForce h h_inForce _ fun t => Tbl.rising_set t _ _ _

theorem Fits.bump (s : State) (f : Field) (n : Nat) (h : Fits N s0 s) (k_f : N (.reg f.key)) :
    Fits N s0 (State.bump s f n) := by
  unfold Sys2Proof.Machine.State.bump
  repeat' first
    | with_reducible assumption
    | with_reducible exact k_f
    | with_reducible apply Fits.setF
    | (intro _)
    | with_reducible apply Fits.ite
    | dsimp only
    | split
    | (refine Fits.pair ‹_ = (_, _)› ?_)
    | (refine Fits.pair2 ‹_ = (_, _, _)› ?_)

theorem Fits.incWrap (s : State) (f : Field) (n : Nat) (h : Fits N s0 s) (k_f : N (.reg f.key)) :
    Fits N s0 (State.incWrap s f n) := by
  unfold Sys2Proof.Machine.State.incWrap
  repeat' first
    | with_reducible assumption
    | with_reducible exact k_f
    | with_reducible apply Fits.setF
    | (intro _)
    | with_reducible apply Fits.ite
    | dsimp only
    | split
    | (refine Fits.pair ‹_ = (_, _)› ?_)
    | (refine Fits.pair2 ‹_ = (_, _, _)› ?_)

theorem Fits.bump64 (s : State) (lo : Field) (hi : Field) (n : Nat) (h : Fits N s0 s) (k_lo : N (.reg lo.key)) (k_hi : N (.reg hi.key)) :
    Fits N s0 (State.bump64 s lo hi n) := by
  unfold Sys2Proof.Machine.State.bump64
  repeat' first
    | with_reducible assumption
    | with_reducible exact k_lo
    | with_reducible exact k_hi
    | with_reducible apply Fits.setF
    | (intro _)
    | with_reducible apply Fits.ite
    | dsimp only
    | split
    | (refine Fits.pair ‹_ = (_, _)› ?_)
    | (refine Fits.pair2 ‹_ = (_, _, _)› ?_)


theorem Fits.when (c : Bool) (f : State → State) (s : State) (h : Fits N s0 s) (h_f : ∀ t, Fits N s0 t → Fits N s0 (f t)) :
    Fits N s0 (State.when c f s) := by
  unfold Sys2Proof.Machine.State.when
  repeat' first
    | with_reducible assumption
    | with_reducible apply h_f
    | (intro _)
    | with_reducible apply Fits.ite
    | dsimp only
    | split
    | (refine Fits.pair ‹_ = (_, _)› ?_)
    | (refine Fits.pair2 ‹_ = (_, _, _)› ?_)

theorem Fits.draw (s : State) (w : Nat) (h : Fits N s0 s) (h_drawn : N .drawn) :
    Fits N s0 (State.draw s w).2 := by
  exact Fits.upd_drawn h h_drawn _

theorem Fits.reach (s : State) (t : Nat) (h : Fits N s0 s) (h_time : N .time) :
    Fits N s0 (State.reach s t) := by
  unfold Sys2Proof.Machine.State.reach
  repeat' first
    | with_reducible assumption
    | (intro _)
    | with_reducible apply Fits.ite
    | dsimp only
    | split
    | (refine Fits.pair ‹_ = (_, _)› ?_)
    | (refine Fits.pair2 ‹_ = (_, _, _)› ?_)
    | with_reducible apply Fits.upd_time

end Sys2Proof.Machine
end

