-- ==== Sys2Proof/Laws/FitsFlags.lean ====
section
/-! SUPPORT. What the operations of Machine/Flags.lean touch (a structure of parts for each, over those of the operations it calls), and
that each keeps the canonical form. -/
set_option linter.unusedTactic false
set_option linter.unreachableTactic false
namespace Sys2Proof.Machine

variable {N : Part → Prop} {s0 : State}

theorem Fits.msiSend (s : State) (v : Nat) (h : Fits N s0 s) (h_ev : N .ev) :
    Fits N s0 (State.msiSend s v) := by
  unfold Sys2Proof.Machine.State.msiSend
  repeat' first
    | with_reducible assumption
    | (intro _)
    | with_reducible apply Fits.ite
    | dsimp only
    | split
    | (refine Fits.pair ‹_ = (_, _)› ?_)
    | (refine Fits.pair2 ‹_ = (_, _, _)› ?_)
    | with_reducible apply Fits.upd_ev

theorem Fits.msiRise (s1 : State) (p : Nat) (s : State) (h : Fits N s0 s) (h_ev : N .ev) :
    Fits N s0 (State.msiRise s1 p s) := by
  unfold Sys2Proof.Machine.State.msiRise
  repeat' first
    | with_reducible assumption
    | with_reducible apply Fits.msiSend
    | (intro _)
    | with_reducible apply Fits.ite
    | dsimp only
    | split
    | (refine Fits.pair ‹_ = (_, _)› ?_)
    | (refine Fits.pair2 ‹_ = (_, _, _)› ?_)

theorem Fits.foldEntry (s : State) (p : Nat) (code : Nat) (kind : Nat) (n : Nat) (arg : Nat) (t : Nat) (h : Fits N s0 s) (h_ev : N .ev) :
    Fits N s0 (State.foldEntry s p code kind n arg t) := by
  unfold Sys2Proof.Machine.State.foldEntry
  repeat' first
    | with_reducible assumption
    | (intro _)
    | with_reducible apply Fits.ite
    | dsimp only
    | split
    | (refine Fits.pair ‹_ = (_, _)› ?_)
    | (refine Fits.pair2 ‹_ = (_, _, _)› ?_)
    | with_reducible apply Fits.upd_ev

theorem Fits.foldEnd (s : State) (p : Nat) (code : Nat) (kind : Nat) (arg : Nat) (w : FoldWin) (h : Fits N s0 s) (h_ev : N .ev) :
    Fits N s0 (State.foldEnd s p code kind arg w) := by
  unfold Sys2Proof.Machine.State.foldEnd
  repeat' first
    | with_reducible assumption
    | with_reducible apply Fits.foldEntry
    | (intro _)
    | with_reducible apply Fits.ite
    | dsimp only
    | split
    | (refine Fits.pair ‹_ = (_, _)› ?_)
    | (refine Fits.pair2 ‹_ = (_, _, _)› ?_)
    | with_reducible apply Fits.upd_ev

theorem Fits.foldClose (s : State) (p : Nat) (code : Nat) (kind : Nat) (arg : Nat) (h : Fits N s0 s) (h_ev : N .ev) :
    Fits N s0 (State.foldClose s p code kind arg) := by
  unfold Sys2Proof.Machine.State.foldClose
  repeat' first
    | with_reducible assumption
    | with_reducible apply Fits.foldEnd
    | (intro _)
    | with_reducible apply Fits.ite
    | dsimp only
    | split
    | (refine Fits.pair ‹_ = (_, _)› ?_)
    | (refine Fits.pair2 ‹_ = (_, _, _)› ?_)

theorem Fits.logFold (s : State) (p : Nat) (code : Nat) (kind : Nat) (n : Nat) (arg : Nat) (h : Fits N s0 s) (h_ev : N .ev) :
    Fits N s0 (State.logFold s p code kind n arg) := by
  unfold Sys2Proof.Machine.State.logFold
  repeat' first
    | with_reducible assumption
    | with_reducible apply Fits.foldEntry
    | with_reducible apply Fits.foldClose
    | (intro _)
    | with_reducible apply Fits.ite
    | dsimp only
    | split
    | (refine Fits.pair ‹_ = (_, _)› ?_)
    | (refine Fits.pair2 ‹_ = (_, _, _)› ?_)
    | with_reducible apply Fits.upd_ev

theorem Fits.logPlain (s : State) (p : Nat) (code : Nat) (kind : Nat) (arg : Nat) (h : Fits N s0 s) (h_ev : N .ev) :
    Fits N s0 (State.logPlain s p code kind arg) := by
  unfold Sys2Proof.Machine.State.logPlain
  repeat' first
    | with_reducible assumption
    | (intro _)
    | with_reducible apply Fits.ite
    | dsimp only
    | split
    | (refine Fits.pair ‹_ = (_, _)› ?_)
    | (refine Fits.pair2 ‹_ = (_, _, _)› ?_)
    | with_reducible apply Fits.upd_ev

theorem Fits.logEdge (s : State) (p : Nat) (b : Nat) (h : Fits N s0 s) (h_ev : N .ev) :
    Fits N s0 (State.logEdge s p b) := by
  unfold Sys2Proof.Machine.State.logEdge
  repeat' first
    | with_reducible assumption
    | with_reducible apply Fits.logFold
    | (intro _)
    | with_reducible apply Fits.ite
    | dsimp only
    | split
    | (refine Fits.pair ‹_ = (_, _)› ?_)
    | (refine Fits.pair2 ‹_ = (_, _, _)› ?_)

theorem Fits.countEdge (s : State) (p : Nat) (b : Nat) (h : Fits N s0 s) (h_ev : N .ev) :
    Fits N s0 (State.countEdge s p b) := by
  unfold Sys2Proof.Machine.State.countEdge
  repeat' first
    | with_reducible assumption
    | (intro _)
    | with_reducible apply Fits.ite
    | dsimp only
    | split
    | (refine Fits.pair ‹_ = (_, _)› ?_)
    | (refine Fits.pair2 ‹_ = (_, _, _)› ?_)
    | with_reducible apply Fits.upd_ev

theorem Fits.datapath (s : State) (n : Nat) (inc : Nat) (h : Fits N s0 s) (h_ev : N .ev) :
    Fits N s0 (State.datapath s n inc) := by
  unfold Sys2Proof.Machine.State.datapath
  repeat' first
    | with_reducible assumption
    | (intro _)
    | with_reducible apply Fits.ite
    | dsimp only
    | split
    | (refine Fits.pair ‹_ = (_, _)› ?_)
    | (refine Fits.pair2 ‹_ = (_, _, _)› ?_)
    | with_reducible apply Fits.upd_ev

structure Touches.setSticky (N : Part → Prop) (p : Nat) : Prop where
  k_EVT_STICKY : N (.reg (F.EVT_STICKY p).key)

theorem Fits.setSticky (s : State) (p : Nat) (b : Nat) (h : Fits N s0 s) (tch : Touches.setSticky N p) :
    Fits N s0 (State.setSticky s p b) := by
  obtain ⟨k_EVT_STICKY⟩ := tch
  unfold Sys2Proof.Machine.State.setSticky
  repeat' first
    | with_reducible assumption
    | with_reducible apply k_EVT_STICKY
    | with_reducible apply Fits.setF
    | (intro _)
    | with_reducible apply Fits.ite
    | dsimp only
    | split
    | (refine Fits.pair ‹_ = (_, _)› ?_)
    | (refine Fits.pair2 ‹_ = (_, _, _)› ?_)

structure Touches.evt (N : Part → Prop) (p : Nat) : Prop where
  h_ev : N .ev
  c_setSticky : Touches.setSticky N p

theorem Fits.evt (p : Nat) (b : Nat) (s : State) (h : Fits N s0 s) (tch : Touches.evt N p) :
    Fits N s0 (State.evt p b s) := by
  obtain ⟨h_ev, c_setSticky⟩ := tch
  unfold Sys2Proof.Machine.State.evt
  repeat' first
    | with_reducible assumption
    | with_reducible apply Fits.msiRise
    | with_reducible apply Fits.logEdge
    | with_reducible apply Fits.countEdge
    | with_reducible apply Fits.setSticky
    | (intro _)
    | with_reducible apply Fits.ite
    | dsimp only
    | split
    | (refine Fits.pair ‹_ = (_, _)› ?_)
    | (refine Fits.pair2 ‹_ = (_, _, _)› ?_)

theorem Fits.noteWas (s : State) (k : Nat) (old : Nat) (h : Fits N s0 s) (h_ev : N .ev) :
    Fits N s0 (State.noteWas s k old) := by
  unfold Sys2Proof.Machine.State.noteWas
  repeat' first
    | with_reducible assumption
    | (intro _)
    | with_reducible apply Fits.ite
    | dsimp only
    | split
    | (refine Fits.pair ‹_ = (_, _)› ?_)
    | (refine Fits.pair2 ‹_ = (_, _, _)› ?_)
    | with_reducible apply Fits.upd_ev

structure Touches.level (N : Part → Prop) (p : Nat) : Prop where
  h_ev : N .ev
  k_EVT_RAW : N (.reg (F.EVT_RAW p).key)
  c_evt : Touches.evt N p

theorem Fits.level (p : Nat) (b : Nat) (v : Bool) (s : State) (h : Fits N s0 s) (tch : Touches.level N p) :
    Fits N s0 (State.level p b v s) := by
  obtain ⟨h_ev, k_EVT_RAW, c_evt⟩ := tch
  unfold Sys2Proof.Machine.State.level
  repeat' first
    | with_reducible assumption
    | with_reducible apply k_EVT_RAW
    | with_reducible apply Fits.setF
    | with_reducible apply Fits.evt
    | with_reducible apply Fits.noteWas
    | (intro _)
    | with_reducible apply Fits.ite
    | dsimp only
    | split
    | (refine Fits.pair ‹_ = (_, _)› ?_)
    | (refine Fits.pair2 ‹_ = (_, _, _)› ?_)

structure Touches.err (N : Part → Prop) (p : Nat) : Prop where
  h_ev : N .ev
  k_ERR_code : N (.reg (F.ERR_code p).key)
  k_ERR_lost : N (.reg (F.ERR_lost p).key)
  k_ERR_step : N (.reg (F.ERR_step p).key)
  k_ERR_valid : N (.reg (F.ERR_valid p).key)
  c_evt : Touches.evt N p

theorem Fits.err (p : Nat) (step : Nat) (code : Nat) (s : State) (off : Nat := 0) (h : Fits N s0 s) (tch : Touches.err N p) :
    Fits N s0 (State.err p step code s off) := by
  obtain ⟨h_ev, k_ERR_code, k_ERR_lost, k_ERR_step, k_ERR_valid, c_evt⟩ := tch
  unfold Sys2Proof.Machine.State.err
  repeat' first
    | with_reducible assumption
    | with_reducible apply k_ERR_code
    | with_reducible apply k_ERR_lost
    | with_reducible apply k_ERR_step
    | with_reducible apply k_ERR_valid
    | with_reducible apply Fits.setF
    | with_reducible apply Fits.setB
    | with_reducible apply Fits.logPlain
    | with_reducible apply Fits.evt
    | (intro _)
    | with_reducible apply Fits.ite
    | dsimp only
    | split
    | (refine Fits.pair ‹_ = (_, _)› ?_)
    | (refine Fits.pair2 ‹_ = (_, _, _)› ?_)

theorem Fits.loss (f : Field) (n : Nat) (s : State) (h : Fits N s0 s) (h_ev : N .ev) (k_f : N (.reg f.key)) :
    Fits N s0 (State.loss f n s) := by
  unfold Sys2Proof.Machine.State.loss
  repeat' first
    | with_reducible assumption
    | with_reducible exact k_f
    | with_reducible apply Fits.bump
    | with_reducible apply Fits.logFold
    | (intro _)
    | with_reducible apply Fits.ite
    | dsimp only
    | split
    | (refine Fits.pair ‹_ = (_, _)› ?_)
    | (refine Fits.pair2 ‹_ = (_, _, _)› ?_)

structure Touches.fabErr (N : Part → Prop) : Prop where
  h_ev : N .ev
  k_FAB_ERR_CNT_count : N (.reg F.FAB_ERR_CNT_count.key)
  k_FAB_ERR_LAST_ADDR_addr : N (.reg F.FAB_ERR_LAST_ADDR_addr.key)
  k_FAB_ERR_LAST_INFO_master : N (.reg F.FAB_ERR_LAST_INFO_master.key)
  k_FAB_ERR_LAST_INFO_reason : N (.reg F.FAB_ERR_LAST_INFO_reason.key)

theorem Fits.fabErr (m : Nat) (r : FabReason) (addr : Nat) (s : State) (h : Fits N s0 s) (tch : Touches.fabErr N) :
    Fits N s0 (State.fabErr m r addr s) := by
  obtain ⟨h_ev, k_FAB_ERR_CNT_count, k_FAB_ERR_LAST_ADDR_addr, k_FAB_ERR_LAST_INFO_master, k_FAB_ERR_LAST_INFO_reason⟩ := tch
  unfold Sys2Proof.Machine.State.fabErr
  repeat' first
    | with_reducible assumption
    | with_reducible apply k_FAB_ERR_CNT_count
    | with_reducible apply k_FAB_ERR_LAST_ADDR_addr
    | with_reducible apply k_FAB_ERR_LAST_INFO_master
    | with_reducible apply k_FAB_ERR_LAST_INFO_reason
    | with_reducible apply Fits.setF
    | with_reducible apply Fits.bump
    | with_reducible apply Fits.datapath
    | (intro _)
    | with_reducible apply Fits.ite
    | dsimp only
    | split
    | (refine Fits.pair ‹_ = (_, _)› ?_)
    | (refine Fits.pair2 ‹_ = (_, _, _)› ?_)

structure Touches.refuse (N : Part → Prop) (addr : Nat) : Prop where
  c_evt : Touches.evt N (pageOf addr)
  c_fabErr : Touches.fabErr N

theorem Fits.refuse (m : Nat) (r : FabReason) (addr : Nat) (s : State) (h : Fits N s0 s) (tch : Touches.refuse N addr) :
    Fits N s0 (State.refuse m r addr s) := by
  obtain ⟨c_evt, c_fabErr⟩ := tch
  unfold Sys2Proof.Machine.State.refuse
  repeat' first
    | with_reducible assumption
    | with_reducible apply Fits.evt
    | with_reducible apply Fits.fabErr
    | (intro _)
    | with_reducible apply Fits.ite
    | dsimp only
    | split
    | (refine Fits.pair ‹_ = (_, _)› ?_)
    | (refine Fits.pair2 ‹_ = (_, _, _)› ?_)

structure Touches.lockErr (N : Part → Prop) : Prop where
  k_LOCK_ERR_count : N (.reg F.LOCK_ERR_count.key)
  k_LOCK_ERR_last_index : N (.reg F.LOCK_ERR_last_index.key)
  k_LOCK_ERR_last_master : N (.reg F.LOCK_ERR_last_master.key)
  k_LOCK_ERR_last_page : N (.reg F.LOCK_ERR_last_page.key)

theorem Fits.lockErr (m : Nat) (l : LockId) (s : State) (h : Fits N s0 s) (tch : Touches.lockErr N) :
    Fits N s0 (State.lockErr m l s) := by
  obtain ⟨k_LOCK_ERR_count, k_LOCK_ERR_last_index, k_LOCK_ERR_last_master, k_LOCK_ERR_last_page⟩ := tch
  unfold Sys2Proof.Machine.State.lockErr
  repeat' first
    | with_reducible assumption
    | with_reducible apply k_LOCK_ERR_count
    | with_reducible apply k_LOCK_ERR_last_index
    | with_reducible apply k_LOCK_ERR_last_master
    | with_reducible apply k_LOCK_ERR_last_page
    | with_reducible apply Fits.setF
    | with_reducible apply Fits.bump
    | (intro _)
    | with_reducible apply Fits.ite
    | dsimp only
    | split
    | (refine Fits.pair ‹_ = (_, _)› ?_)
    | (refine Fits.pair2 ‹_ = (_, _, _)› ?_)

theorem Fits.modTx (s : State) (le : Nat) (f : Tx → Tx) (h : Fits N s0 s) (h_tx : N (.tx ((le : Nat) != 0))) :
    Fits N s0 (State.modTx s le f) := by
  unfold Sys2Proof.Machine.State.modTx
  repeat' first
    | with_reducible assumption
    | with_reducible apply Fits.modEng
    | with_reducible apply Fits.eng_tx
    | (intro _)
    | with_reducible apply Fits.ite
    | dsimp only
    | split
    | (refine Fits.pair ‹_ = (_, _)› ?_)
    | (refine Fits.pair2 ‹_ = (_, _, _)› ?_)

theorem Fits.modRx (s : State) (le : Nat) (f : Rx → Rx) (h : Fits N s0 s) (h_rx : N (.rx ((le : Nat) != 0))) :
    Fits N s0 (State.modRx s le f) := by
  unfold Sys2Proof.Machine.State.modRx
  repeat' first
    | with_reducible assumption
    | with_reducible apply Fits.modEng
    | with_reducible apply Fits.eng_rx
    | (intro _)
    | with_reducible apply Fits.ite
    | dsimp only
    | split
    | (refine Fits.pair ‹_ = (_, _)› ?_)
    | (refine Fits.pair2 ‹_ = (_, _, _)› ?_)

theorem Fits.modFec (s : State) (le : Nat) (f : Fec → Fec) (h : Fits N s0 s) (h_fec : N (.fec ((le : Nat) != 0))) :
    Fits N s0 (State.modFec s le f) := by
  unfold Sys2Proof.Machine.State.modFec
  repeat' first
    | with_reducible assumption
    | with_reducible apply Fits.modEng
    | with_reducible apply Fits.eng_fec
    | (intro _)
    | with_reducible apply Fits.ite
    | dsimp only
    | split
    | (refine Fits.pair ‹_ = (_, _)› ?_)
    | (refine Fits.pair2 ‹_ = (_, _, _)› ?_)

theorem Fits.modGlf (s : State) (le : Nat) (f : Glf → Glf) (h : Fits N s0 s) (h_glf : N (.glf ((le : Nat) != 0))) :
    Fits N s0 (State.modGlf s le f) := by
  unfold Sys2Proof.Machine.State.modGlf
  repeat' first
    | with_reducible assumption
    | with_reducible apply Fits.modEng
    | with_reducible apply Fits.eng_glf
    | (intro _)
    | with_reducible apply Fits.ite
    | dsimp only
    | split
    | (refine Fits.pair ‹_ = (_, _)› ?_)
    | (refine Fits.pair2 ‹_ = (_, _, _)› ?_)

theorem Fits.modP2 (s : State) (le : Nat) (f : P2mp → P2mp) (h : Fits N s0 s) (h_p2mp : N (.p2mp ((le : Nat) != 0))) :
    Fits N s0 (State.modP2 s le f) := by
  unfold Sys2Proof.Machine.State.modP2
  repeat' first
    | with_reducible assumption
    | with_reducible apply Fits.modEng
    | with_reducible apply Fits.eng_p2mp
    | (intro _)
    | with_reducible apply Fits.ite
    | dsimp only
    | split
    | (refine Fits.pair ‹_ = (_, _)› ?_)
    | (refine Fits.pair2 ‹_ = (_, _, _)› ?_)

theorem Fits.smpPass (path : Nat) (port : Nat) (cbr : Bool) (len : Nat) (s : State) (h : Fits N s0 s) (h_smp : N .smp) :
    Fits N s0 (State.smpPass path port cbr len s) := by
  unfold Sys2Proof.Machine.State.smpPass
  repeat' first
    | with_reducible assumption
    | (intro _)
    | with_reducible apply Fits.ite
    | dsimp only
    | split
    | (refine Fits.pair ‹_ = (_, _)› ?_)
    | (refine Fits.pair2 ‹_ = (_, _, _)› ?_)
    | (with_reducible refine Fits.upd_smp ?_ ‹_› _ (fun t => t))

theorem Fits.access (m : Master) (s : State) (h : Fits N s0 s) (h_ev : N .ev) :
    Fits N s0 (State.access m s) := by
  unfold Sys2Proof.Machine.State.access
  repeat' first
    | with_reducible assumption
    | with_reducible apply Fits.datapath
    | (intro _)
    | with_reducible apply Fits.ite
    | dsimp only
    | split
    | (refine Fits.pair ‹_ = (_, _)› ?_)
    | (refine Fits.pair2 ‹_ = (_, _, _)› ?_)

structure Touches.goWrite (N : Part → Prop) (addr : Nat) : Prop where
  h_ev : N .ev
  c_refuse : Touches.refuse N addr

theorem Fits.goWrite (s : State) (m : Master) (addr : Nat) (inFab : Bool) (f : State → State) (h : Fits N s0 s) (h_f : ∀ t, Fits N s0 t → Fits N s0 (f t)) (tch : Touches.goWrite N addr) :
    Fits N s0 (State.goWrite s m addr inFab f) := by
  obtain ⟨h_ev, c_refuse⟩ := tch
  unfold Sys2Proof.Machine.State.goWrite
  repeat' first
    | with_reducible assumption
    | with_reducible apply h_f
    | with_reducible apply Fits.refuse
    | with_reducible apply Fits.access
    | (intro _)
    | with_reducible apply Fits.ite
    | dsimp only
    | split
    | (refine Fits.pair ‹_ = (_, _)› ?_)
    | (refine Fits.pair2 ‹_ = (_, _, _)› ?_)

end Sys2Proof.Machine
end

