-- ==== Sys2Proof/Laws/FitsFabric.lean ====
section
/-! SUPPORT. What the operations of Machine/Fabric.lean touch (a structure of parts for each, over those of the operations it calls), and
that each keeps the canonical form. -/
set_option linter.unusedTactic false
set_option linter.unreachableTactic false
namespace Sys2Proof.Machine

variable {N : Part → Prop} {s0 : State}

structure Touches.evtForce (N : Part → Prop) (p : Nat) : Prop where
  h_ev : N .ev
  k_EVT_STICKY : N (.reg (F.EVT_STICKY p).key)
  c_goWrite : Touches.goWrite N (p * 0x1000 + 0x1C)

theorem Fits.evtForce (m : Master) (p : Nat) (bits : Nat) (s : State) (h : Fits N s0 s) (tch : Touches.evtForce N p) :
    Fits N s0 (evtForce m p bits s) := by
  obtain ⟨h_ev, k_EVT_STICKY, c_goWrite⟩ := tch
  unfold Sys2Proof.Machine.evtForce
  repeat' first
    | with_reducible assumption
    | with_reducible apply k_EVT_STICKY
    | with_reducible apply Fits.setF
    | with_reducible apply Fits.msiRise
    | with_reducible apply Fits.goWrite
    | (intro _)
    | with_reducible apply Fits.ite
    | dsimp only
    | split
    | (refine Fits.pair ‹_ = (_, _)› ?_)
    | (refine Fits.pair2 ‹_ = (_, _, _)› ?_)

structure Touches.execEvtForce (N : Part → Prop) (p : Fin 256) : Prop where
  c_evtForce : Touches.evtForce N p.val

theorem FitsOut.execEvtForce (m : Master) (p : Fin 256) (bits : Word) (s : State) (h : Fits N s0 s) (tch : Touches.execEvtForce N p) :
    FitsOut N s0 (execEvtForce m p bits s) := by
  obtain ⟨c_evtForce⟩ := tch
  unfold Sys2Proof.Machine.execEvtForce
  repeat' first
    | with_reducible assumption
    | with_reducible apply Fits.evtForce
    | with_reducible apply FitsOut.ite
    | with_reducible apply FitsOut.next
    | with_reducible apply FitsOut.fault
    | (intro _)
    | with_reducible apply Fits.ite
    | dsimp only
    | split
    | (refine Fits.pair ‹_ = (_, _)› ?_)
    | (refine Fits.pair2 ‹_ = (_, _, _)› ?_)

theorem Fits.issue (l : List (Master × Instr)) (s : State) (h : Fits N s0 s) (h_pending : N .pending) :
    Fits N s0 (State.issue l s) := by
  unfold Sys2Proof.Machine.State.issue
  repeat' first
    | with_reducible assumption
    | (intro _)
    | with_reducible apply Fits.ite
    | dsimp only
    | split
    | (refine Fits.pair ‹_ = (_, _)› ?_)
    | (refine Fits.pair2 ‹_ = (_, _, _)› ?_)
    | with_reducible apply Fits.upd_pending

structure Touches.lockRead (N : Part → Prop) (l : LockId) : Prop where
  h_ev : N .ev
  k_ownerField : N (.reg (ownerField l).key)

theorem Fits.lockRead (m : Master) (l : LockId) (s : State) (h : Fits N s0 s) (tch : Touches.lockRead N l) :
    Fits N s0 (lockRead m l s).2 := by
  obtain ⟨h_ev, k_ownerField⟩ := tch
  unfold Sys2Proof.Machine.lockRead
  repeat' first
    | with_reducible assumption
    | with_reducible apply k_ownerField
    | with_reducible apply Fits.setF
    | with_reducible apply Fits.access
    | (intro _)
    | with_reducible apply Fits.ite
    | dsimp only
    | split
    | (refine Fits.pair ‹_ = (_, _)› ?_)
    | (refine Fits.pair2 ‹_ = (_, _, _)› ?_)

structure Touches.lockWrite (N : Part → Prop) (l : LockId) : Prop where
  h_ev : N .ev
  k_ownerField : N (.reg (ownerField l).key)
  c_evt : Touches.evt N (lockPage l)
  c_lockErr : Touches.lockErr N

theorem Fits.lockWrite (m : Master) (l : LockId) (value : Nat) (s : State) (h : Fits N s0 s) (tch : Touches.lockWrite N l) :
    Fits N s0 (lockWrite m l value s) := by
  obtain ⟨h_ev, k_ownerField, c_evt, c_lockErr⟩ := tch
  unfold Sys2Proof.Machine.lockWrite
  repeat' first
    | with_reducible assumption
    | with_reducible apply k_ownerField
    | with_reducible apply Fits.setF
    | with_reducible apply Fits.evt
    | with_reducible apply Fits.lockErr
    | with_reducible apply Fits.access
    | (intro _)
    | with_reducible apply Fits.ite
    | dsimp only
    | split
    | (refine Fits.pair ‹_ = (_, _)› ?_)
    | (refine Fits.pair2 ‹_ = (_, _, _)› ?_)

structure Touches.execLockAcquire (N : Part → Prop) (l : LockId) : Prop where
  h_fab : N .fab
  c_lockRead : Touches.lockRead N l

theorem FitsOut.execLockAcquire (m : Master) (l : LockId) (s : State) (h : Fits N s0 s) (tch : Touches.execLockAcquire N l) :
    FitsOut N s0 (execLockAcquire m l s) := by
  obtain ⟨h_fab, c_lockRead⟩ := tch
  unfold Sys2Proof.Machine.execLockAcquire
  repeat' first
    | with_reducible assumption
    | with_reducible apply Fits.lockRead
    | with_reducible apply FitsOut.ite
    | with_reducible apply FitsOut.next
    | with_reducible apply FitsOut.fault
    | (intro _)
    | with_reducible apply Fits.ite
    | dsimp only
    | split
    | (refine Fits.pair ‹_ = (_, _)› ?_)
    | (refine Fits.pair2 ‹_ = (_, _, _)› ?_)
    | with_reducible apply Fits.upd_fab

structure Touches.execLockRelease (N : Part → Prop) (l : LockId) : Prop where
  c_refuse : Touches.refuse N (lockPage l * 0x1000 + 0x24)
  c_lockWrite : Touches.lockWrite N l

theorem FitsOut.execLockRelease (m : Master) (l : LockId) (value : Word) (s : State) (h : Fits N s0 s) (tch : Touches.execLockRelease N l) :
    FitsOut N s0 (execLockRelease m l value s) := by
  obtain ⟨c_refuse, c_lockWrite⟩ := tch
  unfold Sys2Proof.Machine.execLockRelease
  repeat' first
    | with_reducible assumption
    | with_reducible apply Fits.refuse
    | with_reducible apply Fits.lockWrite
    | with_reducible apply FitsOut.ite
    | with_reducible apply FitsOut.next
    | with_reducible apply FitsOut.fault
    | (intro _)
    | with_reducible apply Fits.ite
    | dsimp only
    | split
    | (refine Fits.pair ‹_ = (_, _)› ?_)
    | (refine Fits.pair2 ‹_ = (_, _, _)› ?_)

structure Touches.orphan (N : Part → Prop) : Prop where
  k_LOCK_ORPHAN_count : N (.reg F.LOCK_ORPHAN_count.key)
  k_LOCK_ORPHAN_last_master : N (.reg F.LOCK_ORPHAN_last_master.key)

theorem Fits.orphan (m : Nat) (f : Field) (s : State) (h : Fits N s0 s) (k_f : N (.reg f.key)) (tch : Touches.orphan N) :
    Fits N s0 (orphan m f s) := by
  obtain ⟨k_LOCK_ORPHAN_count, k_LOCK_ORPHAN_last_master⟩ := tch
  unfold Sys2Proof.Machine.orphan
  repeat' first
    | with_reducible assumption
    | with_reducible exact k_f
    | with_reducible apply k_LOCK_ORPHAN_count
    | with_reducible apply k_LOCK_ORPHAN_last_master
    | with_reducible apply Fits.setF
    | with_reducible apply Fits.bump
    | (intro _)
    | with_reducible apply Fits.ite
    | dsimp only
    | split
    | (refine Fits.pair ‹_ = (_, _)› ?_)
    | (refine Fits.pair2 ‹_ = (_, _, _)› ?_)

structure Touches.commitTaken (N : Part → Prop) (d : Nat) : Prop where
  h_ev : N .ev
  k_COMMIT_seq : N (.reg (F.COMMIT_seq d).key)
  k_PAGE_STAT_commit_armed : N (.reg (F.PAGE_STAT_commit_armed d).key)
  k_PAGE_STAT_commit_err : N (.reg (F.PAGE_STAT_commit_err d).key)
  k_PAGE_STAT_commit_pending : N (.reg (F.PAGE_STAT_commit_pending d).key)
  c_evt : ∀ (a0 : Nat), Touches.evt N a0

theorem Fits.commitTaken (d : Nat) (s : State) (h : Fits N s0 s) (tch : Touches.commitTaken N d) :
    Fits N s0 (commitTaken d s) := by
  obtain ⟨h_ev, k_COMMIT_seq, k_PAGE_STAT_commit_armed, k_PAGE_STAT_commit_err, k_PAGE_STAT_commit_pending, c_evt⟩ := tch
  unfold Sys2Proof.Machine.commitTaken
  repeat' first
    | with_reducible assumption
    | with_reducible apply k_COMMIT_seq
    | with_reducible apply k_PAGE_STAT_commit_armed
    | with_reducible apply k_PAGE_STAT_commit_err
    | with_reducible apply k_PAGE_STAT_commit_pending
    | with_reducible exact c_evt _
    | with_reducible apply Fits.setB
    | with_reducible apply Fits.incWrap
    | with_reducible apply Fits.datapath
    | with_reducible apply Fits.evt
    | (intro _)
    | with_reducible apply Fits.ite
    | dsimp only
    | split
    | (refine Fits.pair ‹_ = (_, _)› ?_)
    | (refine Fits.pair2 ‹_ = (_, _, _)› ?_)

theorem Fits.irqInput (e : Nat) (bit : Nat) (f : Nat → Nat) (s : State) (h : Fits N s0 s) (h_fab : N .fab) :
    Fits N s0 (irqInput e bit f s) := by
  unfold Sys2Proof.Machine.irqInput
  repeat' first
    | with_reducible assumption
    | (intro _)
    | with_reducible apply Fits.ite
    | dsimp only
    | split
    | (refine Fits.pair ‹_ = (_, _)› ?_)
    | (refine Fits.pair2 ‹_ = (_, _, _)› ?_)
    | with_reducible apply Fits.upd_fab

structure Touches.rxPending (N : Part → Prop) : Prop where
  h_fab : N .fab
  c_level : Touches.level N 0x09

theorem Fits.rxPending (n : Nat) (b : Bool) (s : State) (h : Fits N s0 s) (tch : Touches.rxPending N) :
    Fits N s0 (rxPending n b s) := by
  obtain ⟨h_fab, c_level⟩ := tch
  unfold Sys2Proof.Machine.rxPending
  repeat' first
    | with_reducible assumption
    | with_reducible apply Fits.level
    | with_reducible apply Fits.irqInput
    | (intro _)
    | with_reducible apply Fits.ite
    | dsimp only
    | split
    | (refine Fits.pair ‹_ = (_, _)› ?_)
    | (refine Fits.pair2 ‹_ = (_, _, _)› ?_)

structure Touches.txAttn (N : Part → Prop) : Prop where
  h_fab : N .fab
  c_evt : Touches.evt N 0x09

theorem Fits.txAttn (n : Nat) (s : State) (h : Fits N s0 s) (tch : Touches.txAttn N) :
    Fits N s0 (txAttn n s) := by
  obtain ⟨h_fab, c_evt⟩ := tch
  unfold Sys2Proof.Machine.txAttn
  repeat' first
    | with_reducible assumption
    | with_reducible apply Fits.evt
    | with_reducible apply Fits.irqInput
    | (intro _)
    | with_reducible apply Fits.ite
    | dsimp only
    | split
    | (refine Fits.pair ‹_ = (_, _)› ?_)
    | (refine Fits.pair2 ‹_ = (_, _, _)› ?_)

structure Touches.setMbxQ (N : Part → Prop) : Prop where
  h_fab : N .fab
  c_rxPending : Touches.rxPending N

theorem Fits.setMbxQ (n : Nat) (q : List MbxWord) (s : State) (h : Fits N s0 s) (tch : Touches.setMbxQ N) :
    Fits N s0 (setMbxQ n q s) := by
  obtain ⟨h_fab, c_rxPending⟩ := tch
  unfold Sys2Proof.Machine.setMbxQ
  repeat' first
    | with_reducible assumption
    | with_reducible apply Fits.rxPending
    | (intro _)
    | with_reducible apply Fits.ite
    | dsimp only
    | split
    | (refine Fits.pair ‹_ = (_, _)› ?_)
    | (refine Fits.pair2 ‹_ = (_, _, _)› ?_)
    | with_reducible apply Fits.upd_fab

theorem Fits.mbxTiming (n : Nat) (s : State) (h : Fits N s0 s) (h_fab : N .fab) :
    Fits N s0 (mbxTiming n s) := by
  unfold Sys2Proof.Machine.mbxTiming
  repeat' first
    | with_reducible assumption
    | (intro _)
    | with_reducible apply Fits.ite
    | dsimp only
    | split
    | (refine Fits.pair ‹_ = (_, _)› ?_)
    | (refine Fits.pair2 ‹_ = (_, _, _)› ?_)
    | with_reducible apply Fits.upd_fab

theorem Fits.setMbxTimed (n : Nat) (b : Bool) (s : State) (h : Fits N s0 s) (h_fab : N .fab) :
    Fits N s0 (setMbxTimed n b s) := by
  unfold Sys2Proof.Machine.setMbxTimed
  repeat' first
    | with_reducible assumption
    | (intro _)
    | with_reducible apply Fits.ite
    | dsimp only
    | split
    | (refine Fits.pair ‹_ = (_, _)› ?_)
    | (refine Fits.pair2 ‹_ = (_, _, _)› ?_)
    | with_reducible apply Fits.upd_fab

structure Touches.mbxDiscard (N : Part → Prop) (n : Nat) : Prop where
  h_ev : N .ev
  k_MBX_STAT_discard_cnt : N (.reg (F.MBX_STAT_discard_cnt n).key)
  k_MBX_STAT_discarded : N (.reg (F.MBX_STAT_discarded n).key)
  c_txAttn : Touches.txAttn N

theorem Fits.mbxDiscard (n : Nat) (k : Nat) (s : State) (h : Fits N s0 s) (tch : Touches.mbxDiscard N n) :
    Fits N s0 (mbxDiscard n k s) := by
  obtain ⟨h_ev, k_MBX_STAT_discard_cnt, k_MBX_STAT_discarded, c_txAttn⟩ := tch
  unfold Sys2Proof.Machine.mbxDiscard
  repeat' first
    | with_reducible assumption
    | with_reducible apply k_MBX_STAT_discard_cnt
    | with_reducible apply k_MBX_STAT_discarded
    | with_reducible apply Fits.setB
    | with_reducible apply Fits.loss
    | with_reducible apply Fits.txAttn
    | (intro _)
    | with_reducible apply Fits.ite
    | dsimp only
    | split
    | (refine Fits.pair ‹_ = (_, _)› ?_)
    | (refine Fits.pair2 ‹_ = (_, _, _)› ?_)

structure Touches.mbxTx (N : Part → Prop) (n : Nat) : Prop where
  h_ev : N .ev
  h_fab : N .fab
  k_MBX_STAT_overrun : N (.reg (F.MBX_STAT_overrun n).key)
  c_refuse : Touches.refuse N (0x9040 + 0x20 * n)
  c_goWrite : Touches.goWrite N (0x9040 + 0x20 * n)
  c_txAttn : Touches.txAttn N
  c_setMbxQ : Touches.setMbxQ N
  c_mbxDiscard : Touches.mbxDiscard N n

theorem Fits.mbxTx (m : Master) (n : Nat) (value : Nat) (s : State) (h : Fits N s0 s) (tch : Touches.mbxTx N n) :
    Fits N s0 (mbxTx m n value s) := by
  obtain ⟨h_ev, h_fab, k_MBX_STAT_overrun, c_refuse, c_goWrite, c_txAttn, c_setMbxQ, c_mbxDiscard⟩ := tch
  unfold Sys2Proof.Machine.mbxTx
  repeat' first
    | with_reducible assumption
    | with_reducible apply k_MBX_STAT_overrun
    | with_reducible apply Fits.setB
    | with_reducible apply Fits.datapath
    | with_reducible apply Fits.refuse
    | with_reducible apply Fits.txAttn
    | with_reducible apply Fits.setMbxQ
    | with_reducible apply Fits.mbxTiming
    | with_reducible apply Fits.mbxDiscard
    | with_reducible apply Fits.goWrite
    | (intro _)
    | with_reducible apply Fits.ite
    | dsimp only
    | split
    | (refine Fits.pair ‹_ = (_, _)› ?_)
    | (refine Fits.pair2 ‹_ = (_, _, _)› ?_)

structure Touches.replyPump (N : Part → Prop) (n : Nat) : Prop where
  c_mbxTx : Touches.mbxTx N n

theorem Fits.replyPump (n : Nat) (x0 : List Nat) (s : State) (h : Fits N s0 s) (tch : Touches.replyPump N n) :
    Fits N s0 (replyPump n x0 s).2 := by
  obtain ⟨c_mbxTx⟩ := tch
  induction x0 generalizing s with
  | nil =>
    unfold Sys2Proof.Machine.replyPump
    repeat' first
      | with_reducible assumption
      | with_reducible apply Fits.mbxTx
      | (intro _)
      | with_reducible apply Fits.ite
      | dsimp only
      | split
      | (refine Fits.pair ‹_ = (_, _)› ?_)
      | (refine Fits.pair2 ‹_ = (_, _, _)› ?_)
  | cons w ws ih =>
    unfold Sys2Proof.Machine.replyPump
    repeat' first
      | with_reducible apply ih
      | with_reducible assumption
      | with_reducible apply Fits.mbxTx
      | (intro _)
      | with_reducible apply Fits.ite
      | dsimp only
      | split
      | (refine Fits.pair ‹_ = (_, _)› ?_)
      | (refine Fits.pair2 ‹_ = (_, _, _)› ?_)

structure Touches.replySend (N : Part → Prop) (n : Nat) : Prop where
  h_fab : N .fab
  c_replyPump : Touches.replyPump N n

theorem Fits.replySend (n : Nat) (ws : List Nat) (s : State) (h : Fits N s0 s) (tch : Touches.replySend N n) :
    Fits N s0 (replySend n ws s) := by
  obtain ⟨h_fab, c_replyPump⟩ := tch
  unfold Sys2Proof.Machine.replySend
  repeat' first
    | with_reducible assumption
    | with_reducible apply Fits.replyPump
    | (intro _)
    | with_reducible apply Fits.ite
    | dsimp only
    | split
    | (refine Fits.pair ‹_ = (_, _)› ?_)
    | (refine Fits.pair2 ‹_ = (_, _, _)› ?_)
    | with_reducible apply Fits.upd_fab

structure Touches.mbxRx (N : Part → Prop) (n : Nat) : Prop where
  h_ev : N .ev
  h_fab : N .fab
  c_fabErr : Touches.fabErr N
  c_txAttn : Touches.txAttn N
  c_setMbxQ : Touches.setMbxQ N
  c_replySend : Touches.replySend N n

theorem Fits.mbxRx (m : Master) (n : Nat) (s : State) (h : Fits N s0 s) (tch : Touches.mbxRx N n) :
    Fits N s0 (mbxRx m n s).2 := by
  obtain ⟨h_ev, h_fab, c_fabErr, c_txAttn, c_setMbxQ, c_replySend⟩ := tch
  unfold Sys2Proof.Machine.mbxRx
  repeat' first
    | with_reducible assumption
    | with_reducible apply Fits.fabErr
    | with_reducible apply Fits.access
    | with_reducible apply Fits.txAttn
    | with_reducible apply Fits.setMbxQ
    | with_reducible apply Fits.mbxTiming
    | with_reducible apply Fits.setMbxTimed
    | with_reducible apply Fits.replySend
    | (intro _)
    | with_reducible apply Fits.ite
    | dsimp only
    | split
    | (refine Fits.pair ‹_ = (_, _)› ?_)
    | (refine Fits.pair2 ‹_ = (_, _, _)› ?_)

structure Touches.mbxTimeout (N : Part → Prop) (n : Nat) : Prop where
  h_fab : N .fab
  k_MBX_STAT_timeout : N (.reg (F.MBX_STAT_timeout n).key)
  c_txAttn : Touches.txAttn N

theorem Fits.mbxTimeout (n : Nat) (s : State) (h : Fits N s0 s) (tch : Touches.mbxTimeout N n) :
    Fits N s0 (mbxTimeout n s) := by
  obtain ⟨h_fab, k_MBX_STAT_timeout, c_txAttn⟩ := tch
  unfold Sys2Proof.Machine.mbxTimeout
  repeat' first
    | with_reducible assumption
    | with_reducible apply k_MBX_STAT_timeout
    | with_reducible apply Fits.setB
    | with_reducible apply Fits.txAttn
    | with_reducible apply Fits.setMbxTimed
    | (intro _)
    | with_reducible apply Fits.ite
    | dsimp only
    | split
    | (refine Fits.pair ‹_ = (_, _)› ?_)
    | (refine Fits.pair2 ‹_ = (_, _, _)› ?_)

structure Touches.mbxConfig (N : Part → Prop) (n : Nat) : Prop where
  k_MBX_CFG_timeout_us : N (.reg (F.MBX_CFG_timeout_us n).key)
  c_mbxTimeout : Touches.mbxTimeout N n

theorem Fits.mbxConfig (n : Nat) (v : Nat) (s : State) (h : Fits N s0 s) (tch : Touches.mbxConfig N n) :
    Fits N s0 (mbxConfig n v s) := by
  obtain ⟨k_MBX_CFG_timeout_us, c_mbxTimeout⟩ := tch
  unfold Sys2Proof.Machine.mbxConfig
  repeat' first
    | with_reducible assumption
    | with_reducible apply k_MBX_CFG_timeout_us
    | with_reducible apply Fits.setF
    | with_reducible apply Fits.mbxTimeout
    | (intro _)
    | with_reducible apply Fits.ite
    | dsimp only
    | split
    | (refine Fits.pair ‹_ = (_, _)› ?_)
    | (refine Fits.pair2 ‹_ = (_, _, _)› ?_)

structure Touches.mbxReset (N : Part → Prop) : Prop where
  h_fab : N .fab
  c_setMbxQ : Touches.setMbxQ N
  c_mbxDiscard : ∀ (a0 : Nat), Touches.mbxDiscard N a0

theorem Fits.mbxReset (e : Nat) (s : State) (h : Fits N s0 s) (tch : Touches.mbxReset N) :
    Fits N s0 (mbxReset e s) := by
  obtain ⟨h_fab, c_setMbxQ, c_mbxDiscard⟩ := tch
  unfold Sys2Proof.Machine.mbxReset
  repeat' first
    | with_reducible assumption
    | with_reducible exact c_mbxDiscard _
    | with_reducible apply Fits.setMbxQ
    | with_reducible apply Fits.mbxTiming
    | with_reducible apply Fits.setMbxTimed
    | with_reducible apply Fits.mbxDiscard
    | with_reducible apply Fits.forEach
    | (intro _)
    | with_reducible apply Fits.ite
    | dsimp only
    | split
    | (refine Fits.pair ‹_ = (_, _)› ?_)
    | (refine Fits.pair2 ‹_ = (_, _, _)› ?_)

structure Touches.mbxHostReset (N : Part → Prop) : Prop where
  c_refuse : Touches.refuse N 0x9200
  c_goWrite : Touches.goWrite N 0x9200
  c_replySend : Touches.replySend N 3
  c_mbxReset : Touches.mbxReset N

theorem Fits.mbxHostReset (m : Master) (s : State) (h : Fits N s0 s) (tch : Touches.mbxHostReset N) :
    Fits N s0 (mbxHostReset m s) := by
  obtain ⟨c_refuse, c_goWrite, c_replySend, c_mbxReset⟩ := tch
  unfold Sys2Proof.Machine.mbxHostReset
  repeat' first
    | with_reducible assumption
    | with_reducible apply Fits.refuse
    | with_reducible apply Fits.replySend
    | with_reducible apply Fits.mbxReset
    | with_reducible apply Fits.goWrite
    | (intro _)
    | with_reducible apply Fits.ite
    | dsimp only
    | split
    | (refine Fits.pair ‹_ = (_, _)› ?_)
    | (refine Fits.pair2 ‹_ = (_, _, _)› ?_)

structure Touches.execMbxTx (N : Part → Prop) (n : Fin 12) : Prop where
  c_mbxTx : Touches.mbxTx N n.val

theorem FitsOut.execMbxTx (m : Master) (n : Fin 12) (value : Word) (s : State) (h : Fits N s0 s) (tch : Touches.execMbxTx N n) :
    FitsOut N s0 (execMbxTx m n value s) := by
  obtain ⟨c_mbxTx⟩ := tch
  unfold Sys2Proof.Machine.execMbxTx
  repeat' first
    | with_reducible assumption
    | with_reducible apply Fits.mbxTx
    | with_reducible apply FitsOut.ite
    | with_reducible apply FitsOut.next
    | with_reducible apply FitsOut.fault
    | (intro _)
    | with_reducible apply Fits.ite
    | dsimp only
    | split
    | (refine Fits.pair ‹_ = (_, _)› ?_)
    | (refine Fits.pair2 ‹_ = (_, _, _)› ?_)

structure Touches.execMbxRx (N : Part → Prop) (n : Fin 12) : Prop where
  h_fab : N .fab
  c_mbxRx : Touches.mbxRx N n.val

theorem FitsOut.execMbxRx (m : Master) (n : Fin 12) (s : State) (h : Fits N s0 s) (tch : Touches.execMbxRx N n) :
    FitsOut N s0 (execMbxRx m n s) := by
  obtain ⟨h_fab, c_mbxRx⟩ := tch
  unfold Sys2Proof.Machine.execMbxRx
  repeat' first
    | with_reducible assumption
    | with_reducible apply Fits.mbxRx
    | with_reducible apply FitsOut.ite
    | with_reducible apply FitsOut.next
    | with_reducible apply FitsOut.fault
    | (intro _)
    | with_reducible apply Fits.ite
    | dsimp only
    | split
    | (refine Fits.pair ‹_ = (_, _)› ?_)
    | (refine Fits.pair2 ‹_ = (_, _, _)› ?_)
    | with_reducible apply Fits.upd_fab

structure Touches.execMbxTimeout (N : Part → Prop) (n : Fin 12) : Prop where
  h_time : N .time
  c_mbxTimeout : Touches.mbxTimeout N n.val

theorem FitsOut.execMbxTimeout (n : Fin 12) (s : State) (h : Fits N s0 s) (tch : Touches.execMbxTimeout N n) :
    FitsOut N s0 (execMbxTimeout n s) := by
  obtain ⟨h_time, c_mbxTimeout⟩ := tch
  unfold Sys2Proof.Machine.execMbxTimeout
  repeat' first
    | with_reducible assumption
    | with_reducible apply Fits.reach
    | with_reducible apply Fits.mbxTimeout
    | with_reducible apply FitsOut.ite
    | with_reducible apply FitsOut.next
    | with_reducible apply FitsOut.fault
    | (intro _)
    | with_reducible apply Fits.ite
    | dsimp only
    | split
    | (refine Fits.pair ‹_ = (_, _)› ?_)
    | (refine Fits.pair2 ‹_ = (_, _, _)› ?_)

structure Touches.execMbxHostReset (N : Part → Prop) : Prop where
  c_mbxHostReset : Touches.mbxHostReset N

theorem FitsOut.execMbxHostReset (m : Master) (s : State) (h : Fits N s0 s) (tch : Touches.execMbxHostReset N) :
    FitsOut N s0 (execMbxHostReset m s) := by
  obtain ⟨c_mbxHostReset⟩ := tch
  unfold Sys2Proof.Machine.execMbxHostReset
  repeat' first
    | with_reducible assumption
    | with_reducible apply Fits.mbxHostReset
    | with_reducible apply FitsOut.ite
    | with_reducible apply FitsOut.next
    | with_reducible apply FitsOut.fault
    | (intro _)
    | with_reducible apply Fits.ite
    | dsimp only
    | split
    | (refine Fits.pair ‹_ = (_, _)› ?_)
    | (refine Fits.pair2 ‹_ = (_, _, _)› ?_)

structure Touches.masterReset (N : Part → Prop) : Prop where
  h_ev : N .ev
  h_fab : N .fab
  k_LOCKN_owner : ∀ (a0 : Nat), N (.reg (F.LOCKN_owner a0).key)
  k_LOCK_owner : ∀ (a0 : Nat), N (.reg (F.LOCK_owner a0).key)
  k_MBX_STAT_rx_in_reset : ∀ (a0 : Nat), N (.reg (F.MBX_STAT_rx_in_reset a0).key)
  c_orphan : Touches.orphan N
  c_replySend : Touches.replySend N 3
  c_replySend_1 : Touches.replySend N 7
  c_mbxReset : Touches.mbxReset N

theorem Fits.masterReset (m : Master) (stays : Bool) (s : State) (h : Fits N s0 s) (tch : Touches.masterReset N) :
    Fits N s0 (masterReset m stays s) := by
  obtain ⟨h_ev, h_fab, k_LOCKN_owner, k_LOCK_owner, k_MBX_STAT_rx_in_reset, c_orphan, c_replySend, c_replySend_1, c_mbxReset⟩ := tch
  have own : ∀ f ∈ (List.range 64).map F.LOCKN_owner ++ (List.range 256).map F.LOCK_owner, N (.reg f.key) := fun f hf => by
    simp only [List.mem_append, List.mem_map] at hf
    rcases hf with ⟨a, _, rfl⟩ | ⟨a, _, rfl⟩
    · exact k_LOCKN_owner a
    · exact k_LOCK_owner a
  unfold Sys2Proof.Machine.masterReset
  repeat' first
    | with_reducible assumption
    | (with_reducible refine Fits.forEachMem (List.map F.LOCKN_owner _ ++ _) _ ?_ fun f hf t ht => Fits.orphan _ f t ht (own f hf) c_orphan)
    | with_reducible apply k_LOCKN_owner
    | with_reducible apply k_LOCK_owner
    | with_reducible apply k_MBX_STAT_rx_in_reset
    | with_reducible apply Fits.setB
    | with_reducible apply Fits.orphan
    | with_reducible apply Fits.replySend
    | with_reducible apply Fits.mbxReset
    | with_reducible apply Fits.forEach
    | (intro _)
    | with_reducible apply Fits.ite
    | dsimp only
    | split
    | (refine Fits.pair ‹_ = (_, _)› ?_)
    | (refine Fits.pair2 ‹_ = (_, _, _)› ?_)
    | with_reducible apply Fits.upd_ev_fab

structure Touches.execMasterReset (N : Part → Prop) : Prop where
  c_masterReset : Touches.masterReset N

theorem FitsOut.execMasterReset (m : Master) (stays : Bool) (s : State) (h : Fits N s0 s) (tch : Touches.execMasterReset N) :
    FitsOut N s0 (execMasterReset m stays s) := by
  obtain ⟨c_masterReset⟩ := tch
  unfold Sys2Proof.Machine.execMasterReset
  repeat' first
    | with_reducible assumption
    | with_reducible apply Fits.masterReset
    | with_reducible apply FitsOut.ite
    | with_reducible apply FitsOut.next
    | with_reducible apply FitsOut.fault
    | (intro _)
    | with_reducible apply Fits.ite
    | dsimp only
    | split
    | (refine Fits.pair ‹_ = (_, _)› ?_)
    | (refine Fits.pair2 ‹_ = (_, _, _)› ?_)

theorem Fits.setDomBit (lo : Field) (hi : Field) (d : Nat) (s : State) (h : Fits N s0 s) (k_lo : N (.reg lo.key)) (k_hi : N (.reg hi.key)) :
    Fits N s0 (setDomBit lo hi d s) := by
  unfold Sys2Proof.Machine.setDomBit
  repeat' first
    | with_reducible assumption
    | with_reducible exact k_lo
    | with_reducible exact k_hi
    | with_reducible apply Fits.setF
    | (intro _)
    | with_reducible apply Fits.ite
    | dsimp only
    | split
    | (refine Fits.pair ‹_ = (_, _)› ?_)
    | (refine Fits.pair2 ‹_ = (_, _, _)› ?_)

structure Touches.execPulseSat (N : Part → Prop) (p : Fin 256) : Prop where
  h_fab : N .fab
  k_CNT_SEL_sat : ∀ (a0 : Nat), N (.reg (F.CNT_SEL_sat a0).key)
  k_XS_PULSE_SAT_HI_bits : N (.reg F.XS_PULSE_SAT_HI_bits.key)
  k_XS_PULSE_SAT_LO_bits : N (.reg F.XS_PULSE_SAT_LO_bits.key)
  c_evt : Touches.evt N 0xF8
  c_evt_1 : Touches.evt N p.val

theorem FitsOut.execPulseSat (dom : Fin 64) (p : Fin 256) (counter : Option (Fin 512)) (s : State) (h : Fits N s0 s) (tch : Touches.execPulseSat N p) :
    FitsOut N s0 (execPulseSat dom p counter s) := by
  obtain ⟨h_fab, k_CNT_SEL_sat, k_XS_PULSE_SAT_HI_bits, k_XS_PULSE_SAT_LO_bits, c_evt, c_evt_1⟩ := tch
  unfold Sys2Proof.Machine.execPulseSat
  repeat' first
    | with_reducible assumption
    | with_reducible apply k_CNT_SEL_sat
    | with_reducible apply k_XS_PULSE_SAT_HI_bits
    | with_reducible apply k_XS_PULSE_SAT_LO_bits
    | with_reducible apply Fits.setB
    | with_reducible apply Fits.evt
    | with_reducible apply Fits.setDomBit
    | with_reducible apply FitsOut.ite
    | with_reducible apply FitsOut.next
    | with_reducible apply FitsOut.fault
    | (intro _)
    | with_reducible apply Fits.ite
    | dsimp only
    | split
    | (refine Fits.pair ‹_ = (_, _)› ?_)
    | (refine Fits.pair2 ‹_ = (_, _, _)› ?_)
    | with_reducible apply Fits.upd_fab

structure Touches.fifoResync (N : Part → Prop) (pa : Nat) (pb : Nat) : Prop where
  h_ev : N .ev
  k_XS_DROP_CNT_count : N (.reg F.XS_DROP_CNT_count.key)
  k_XS_RESYNC_HI_bits : N (.reg F.XS_RESYNC_HI_bits.key)
  k_XS_RESYNC_LO_bits : N (.reg F.XS_RESYNC_LO_bits.key)
  c_evt : Touches.evt N pa
  c_evt_1 : Touches.evt N pb

theorem Fits.fifoResync (a : Nat) (b : Nat) (pa : Nat) (pb : Nat) (dropped : Nat) (s : State) (h : Fits N s0 s) (tch : Touches.fifoResync N pa pb) :
    Fits N s0 (fifoResync a b pa pb dropped s) := by
  obtain ⟨h_ev, k_XS_DROP_CNT_count, k_XS_RESYNC_HI_bits, k_XS_RESYNC_LO_bits, c_evt, c_evt_1⟩ := tch
  unfold Sys2Proof.Machine.fifoResync
  repeat' first
    | with_reducible assumption
    | with_reducible apply k_XS_DROP_CNT_count
    | with_reducible apply k_XS_RESYNC_HI_bits
    | with_reducible apply k_XS_RESYNC_LO_bits
    | with_reducible apply Fits.evt
    | with_reducible apply Fits.loss
    | with_reducible apply Fits.setDomBit
    | (intro _)
    | with_reducible apply Fits.ite
    | dsimp only
    | split
    | (refine Fits.pair ‹_ = (_, _)› ?_)
    | (refine Fits.pair2 ‹_ = (_, _, _)› ?_)

structure Touches.vecEoi (N : Part → Prop) : Prop where
  h_ev : N .ev
  c_goWrite : Touches.goWrite N 0x1080

theorem Fits.vecEoi (m : Master) (v : Nat) (s : State) (h : Fits N s0 s) (tch : Touches.vecEoi N) :
    Fits N s0 (vecEoi m v s) := by
  obtain ⟨h_ev, c_goWrite⟩ := tch
  unfold Sys2Proof.Machine.vecEoi
  repeat' first
    | with_reducible assumption
    | with_reducible apply Fits.msiSend
    | with_reducible apply Fits.goWrite
    | (intro _)
    | with_reducible apply Fits.ite
    | dsimp only
    | split
    | (refine Fits.pair ‹_ = (_, _)› ?_)
    | (refine Fits.pair2 ‹_ = (_, _, _)› ?_)

structure Touches.execVecEoi (N : Part → Prop) : Prop where
  c_vecEoi : Touches.vecEoi N

theorem FitsOut.execVecEoi (m : Master) (v : Fin 64) (s : State) (h : Fits N s0 s) (tch : Touches.execVecEoi N) :
    FitsOut N s0 (execVecEoi m v s) := by
  obtain ⟨c_vecEoi⟩ := tch
  unfold Sys2Proof.Machine.execVecEoi
  repeat' first
    | with_reducible assumption
    | with_reducible apply Fits.vecEoi
    | with_reducible apply FitsOut.ite
    | with_reducible apply FitsOut.next
    | with_reducible apply FitsOut.fault
    | (intro _)
    | with_reducible apply Fits.ite
    | dsimp only
    | split
    | (refine Fits.pair ‹_ = (_, _)› ?_)
    | (refine Fits.pair2 ‹_ = (_, _, _)› ?_)

theorem FitsOut.execMsixPendingSend (v : Fin 64) (s : State) (h : Fits N s0 s) (h_ev : N .ev) :
    FitsOut N s0 (execMsixPendingSend v s) := by
  unfold Sys2Proof.Machine.execMsixPendingSend
  repeat' first
    | with_reducible assumption
    | with_reducible apply Fits.msiSend
    | with_reducible apply FitsOut.ite
    | with_reducible apply FitsOut.next
    | with_reducible apply FitsOut.fault
    | (intro _)
    | with_reducible apply Fits.ite
    | dsimp only
    | split
    | (refine Fits.pair ‹_ = (_, _)› ?_)
    | (refine Fits.pair2 ‹_ = (_, _, _)› ?_)
    | with_reducible apply Fits.upd_ev

end Sys2Proof.Machine
end

