-- ==== Sys2Proof/Laws/FitsTransmit.lean ====
section
/-! SUPPORT. What the operations of Machine/Transmit.lean touch (a structure of parts for each, over those of the operations it calls), and
that each keeps the canonical form. -/
set_option linter.unusedTactic false
set_option linter.unreachableTactic false
namespace Sys2Proof.Machine

variable {N : Part → Prop} {s0 : State}

structure Touches.txReport (N : Part → Prop) (le : Nat) : Prop where
  k_LE_TX_CODED_RATE_rate : N (.reg (F.LE_TX_CODED_RATE_rate le).key)
  k_LE_TX_NET_RATE_rate : N (.reg (F.LE_TX_NET_RATE_rate le).key)
  k_LE_TX_PLAN_STAT_baud_active : N (.reg (F.LE_TX_PLAN_STAT_baud_active le).key)
  k_LE_TX_PLAN_STAT_entropy_active : N (.reg (F.LE_TX_PLAN_STAT_entropy_active le).key)
  k_LE_TX_PLAN_STAT_modulation_active : N (.reg (F.LE_TX_PLAN_STAT_modulation_active le).key)
  k_LE_TX_PLAN_STAT_sc_enabled : N (.reg (F.LE_TX_PLAN_STAT_sc_enabled le).key)

theorem Fits.txReport (le : Nat) (s : State) (h : Fits N s0 s) (tch : Touches.txReport N le) :
    Fits N s0 (txReport le s) := by
  obtain ⟨k_LE_TX_CODED_RATE_rate, k_LE_TX_NET_RATE_rate, k_LE_TX_PLAN_STAT_baud_active, k_LE_TX_PLAN_STAT_entropy_active, k_LE_TX_PLAN_STAT_modulation_active, k_LE_TX_PLAN_STAT_sc_enabled⟩ := tch
  unfold Sys2Proof.Machine.txReport
  repeat' first
    | with_reducible assumption
    | with_reducible apply k_LE_TX_CODED_RATE_rate
    | with_reducible apply k_LE_TX_NET_RATE_rate
    | with_reducible apply k_LE_TX_PLAN_STAT_baud_active
    | with_reducible apply k_LE_TX_PLAN_STAT_entropy_active
    | with_reducible apply k_LE_TX_PLAN_STAT_modulation_active
    | with_reducible apply k_LE_TX_PLAN_STAT_sc_enabled
    | with_reducible apply Fits.setF
    | (intro _)
    | with_reducible apply Fits.ite
    | dsimp only
    | split
    | (refine Fits.pair ‹_ = (_, _)› ?_)
    | (refine Fits.pair2 ‹_ = (_, _, _)› ?_)

theorem Fits.trimsTake (le : Nat) (dac : Bool) (s : State) (h : Fits N s0 s) (h_rep : N .rep) :
    Fits N s0 (trimsTake le dac s) := by
  unfold Sys2Proof.Machine.trimsTake
  repeat' first
    | with_reducible assumption
    | (intro _)
    | with_reducible apply Fits.ite
    | dsimp only
    | split
    | (refine Fits.pair ‹_ = (_, _)› ?_)
    | (refine Fits.pair2 ‹_ = (_, _, _)› ?_)
    | with_reducible apply Fits.upd_rep

structure Touches.txBaudMax (N : Part → Prop) (le : Nat) : Prop where
  k_LE_TX_BAUD_MAX_baud : N (.reg (F.LE_TX_BAUD_MAX_baud le).key)
  c_evt : Touches.evt N (lep le 0x14)

theorem Fits.txBaudMax (le : Nat) (s : State) (h : Fits N s0 s) (tch : Touches.txBaudMax N le) :
    Fits N s0 (txBaudMax le s) := by
  obtain ⟨k_LE_TX_BAUD_MAX_baud, c_evt⟩ := tch
  unfold Sys2Proof.Machine.txBaudMax
  repeat' first
    | with_reducible assumption
    | with_reducible apply k_LE_TX_BAUD_MAX_baud
    | with_reducible apply Fits.setF
    | with_reducible apply Fits.evt
    | (intro _)
    | with_reducible apply Fits.ite
    | dsimp only
    | split
    | (refine Fits.pair ‹_ = (_, _)› ?_)
    | (refine Fits.pair2 ‹_ = (_, _, _)› ?_)

structure Touches.maskMeasure (N : Part → Prop) (le : Nat) : Prop where
  k_LE_TX_MASK_STAT_bins_over : N (.reg (F.LE_TX_MASK_STAT_bins_over le).key)
  k_LE_TX_MASK_STAT_violation : N (.reg (F.LE_TX_MASK_STAT_violation le).key)
  k_LE_TX_MASK_STAT_worst_bin : N (.reg (F.LE_TX_MASK_STAT_worst_bin le).key)
  k_LE_TX_MASK_STAT_worst_excess : N (.reg (F.LE_TX_MASK_STAT_worst_excess le).key)
  k_LE_TX_MASK_VIOL_CNT_count : N (.reg (F.LE_TX_MASK_VIOL_CNT_count le).key)
  h_tx : N (.tx ((le : Nat) != 0))
  c_level : Touches.level N (lep le 0x15)

theorem Fits.maskMeasure (le : Nat) (psd : List (Fin 256 × Int)) (s : State) (h : Fits N s0 s) (tch : Touches.maskMeasure N le) :
    Fits N s0 (maskMeasure le psd s) := by
  obtain ⟨k_LE_TX_MASK_STAT_bins_over, k_LE_TX_MASK_STAT_violation, k_LE_TX_MASK_STAT_worst_bin, k_LE_TX_MASK_STAT_worst_excess, k_LE_TX_MASK_VIOL_CNT_count, h_tx, c_level⟩ := tch
  unfold Sys2Proof.Machine.maskMeasure
  repeat' first
    | with_reducible assumption
    | with_reducible apply k_LE_TX_MASK_STAT_bins_over
    | with_reducible apply k_LE_TX_MASK_STAT_violation
    | with_reducible apply k_LE_TX_MASK_STAT_worst_bin
    | with_reducible apply k_LE_TX_MASK_STAT_worst_excess
    | with_reducible apply k_LE_TX_MASK_VIOL_CNT_count
    | with_reducible apply Fits.setF
    | with_reducible apply Fits.setB
    | with_reducible apply Fits.bump
    | with_reducible apply Fits.level
    | with_reducible apply Fits.modTx
    | with_reducible apply Fits.foldlPair
    | with_reducible apply Fits.foldl
    | (intro _)
    | with_reducible apply Fits.ite
    | dsimp only
    | split
    | (refine Fits.pair ‹_ = (_, _)› ?_)
    | (refine Fits.pair2 ‹_ = (_, _, _)› ?_)

structure Touches.maskBoundary (N : Part → Prop) (le : Nat) : Prop where
  k_LE_TX_MASK_MUTED_muted : N (.reg (F.LE_TX_MASK_MUTED_muted le).key)
  k_LE_TX_MASK_STAT_muted : N (.reg (F.LE_TX_MASK_STAT_muted le).key)
  h_tx : N (.tx ((le : Nat) != 0))
  c_evt : Touches.evt N (lep le 0x15)

theorem Fits.maskBoundary (le : Nat) (s : State) (h : Fits N s0 s) (tch : Touches.maskBoundary N le) :
    Fits N s0 (maskBoundary le s) := by
  obtain ⟨k_LE_TX_MASK_MUTED_muted, k_LE_TX_MASK_STAT_muted, h_tx, c_evt⟩ := tch
  unfold Sys2Proof.Machine.maskBoundary
  repeat' first
    | with_reducible assumption
    | with_reducible apply k_LE_TX_MASK_MUTED_muted
    | with_reducible apply k_LE_TX_MASK_STAT_muted
    | with_reducible apply Fits.setF
    | with_reducible apply Fits.setB
    | with_reducible apply Fits.evt
    | with_reducible apply Fits.modTx
    | (intro _)
    | with_reducible apply Fits.ite
    | dsimp only
    | split
    | (refine Fits.pair ‹_ = (_, _)› ?_)
    | (refine Fits.pair2 ‹_ = (_, _, _)› ?_)

structure Touches.clipTake (N : Part → Prop) (le : Nat) : Prop where
  h_drawn : N .drawn
  k_LE_TX_CLIP_CNT_count : ∀ (a1 : Nat), N (.reg (F.LE_TX_CLIP_CNT_count le a1).key)
  h_tx : N (.tx ((le : Nat) != 0))
  c_level : Touches.level N (lep le 0x16)

theorem Fits.clipTake (le : Nat) (s : State) (h : Fits N s0 s) (tch : Touches.clipTake N le) :
    Fits N s0 (clipTake le s) := by
  obtain ⟨h_drawn, k_LE_TX_CLIP_CNT_count, h_tx, c_level⟩ := tch
  unfold Sys2Proof.Machine.clipTake
  repeat' first
    | with_reducible assumption
    | with_reducible apply k_LE_TX_CLIP_CNT_count
    | with_reducible apply Fits.bump
    | with_reducible apply Fits.draw
    | with_reducible apply Fits.level
    | with_reducible apply Fits.modTx
    | with_reducible apply Fits.forEach
    | (intro _)
    | with_reducible apply Fits.ite
    | dsimp only
    | split
    | (refine Fits.pair ‹_ = (_, _)› ?_)
    | (refine Fits.pair2 ‹_ = (_, _, _)› ?_)
    | with_reducible apply Fits.upd_drawn

structure Touches.scaleBoundary (N : Part → Prop) (le : Nat) : Prop where
  h_tx : N (.tx ((le : Nat) != 0))

theorem Fits.scaleBoundary (le : Nat) (s : State) (h : Fits N s0 s) (tch : Touches.scaleBoundary N le) :
    Fits N s0 (scaleBoundary le s) := by
  obtain ⟨h_tx⟩ := tch
  unfold Sys2Proof.Machine.scaleBoundary
  repeat' first
    | with_reducible assumption
    | with_reducible apply Fits.modTx
    | with_reducible apply Fits.foldlPair
    | with_reducible apply Fits.foldl
    | (intro _)
    | with_reducible apply Fits.ite
    | dsimp only
    | split
    | (refine Fits.pair ‹_ = (_, _)› ?_)
    | (refine Fits.pair2 ‹_ = (_, _, _)› ?_)

structure Touches.execMaskMeasurement (N : Part → Prop) (le : Fin 2) : Prop where
  c_maskMeasure : Touches.maskMeasure N le.val
  c_clipTake : Touches.clipTake N le.val

theorem FitsOut.execMaskMeasurement (le : Fin 2) (psd : List (Fin 256 × Int)) (s : State) (h : Fits N s0 s) (tch : Touches.execMaskMeasurement N le) :
    FitsOut N s0 (execMaskMeasurement le psd s) := by
  obtain ⟨c_maskMeasure, c_clipTake⟩ := tch
  unfold Sys2Proof.Machine.execMaskMeasurement
  repeat' first
    | with_reducible assumption
    | with_reducible apply Fits.maskMeasure
    | with_reducible apply Fits.clipTake
    | with_reducible apply FitsOut.ite
    | with_reducible apply FitsOut.next
    | with_reducible apply FitsOut.fault
    | (intro _)
    | with_reducible apply Fits.ite
    | dsimp only
    | split
    | (refine Fits.pair ‹_ = (_, _)› ?_)
    | (refine Fits.pair2 ‹_ = (_, _, _)› ?_)

structure Touches.maskUnmute (N : Part → Prop) (le : Nat) : Prop where
  h_ev : N .ev
  k_LE_TX_MASK_MUTED_muted : N (.reg (F.LE_TX_MASK_MUTED_muted le).key)
  k_LE_TX_MASK_STAT_muted : N (.reg (F.LE_TX_MASK_STAT_muted le).key)
  h_tx : N (.tx ((le : Nat) != 0))
  c_refuse : Touches.refuse N ((lep le 0x15) * 0x1000 + 0x48)

theorem Fits.maskUnmute (m : Master) (le : Nat) (bits : Nat) (s : State) (h : Fits N s0 s) (tch : Touches.maskUnmute N le) :
    Fits N s0 (maskUnmute m le bits s) := by
  obtain ⟨h_ev, k_LE_TX_MASK_MUTED_muted, k_LE_TX_MASK_STAT_muted, h_tx, c_refuse⟩ := tch
  unfold Sys2Proof.Machine.maskUnmute
  repeat' first
    | with_reducible assumption
    | with_reducible apply k_LE_TX_MASK_MUTED_muted
    | with_reducible apply k_LE_TX_MASK_STAT_muted
    | with_reducible apply Fits.setF
    | with_reducible apply Fits.setB
    | with_reducible apply Fits.refuse
    | with_reducible apply Fits.modTx
    | with_reducible apply Fits.access
    | (intro _)
    | with_reducible apply Fits.ite
    | dsimp only
    | split
    | (refine Fits.pair ‹_ = (_, _)› ?_)
    | (refine Fits.pair2 ‹_ = (_, _, _)› ?_)

structure Touches.execMaskUnmute (N : Part → Prop) (le : Fin 2) : Prop where
  c_maskUnmute : Touches.maskUnmute N le.val

theorem FitsOut.execMaskUnmute (m : Master) (le : Fin 2) (bits : Word) (s : State) (h : Fits N s0 s) (tch : Touches.execMaskUnmute N le) :
    FitsOut N s0 (execMaskUnmute m le bits s) := by
  obtain ⟨c_maskUnmute⟩ := tch
  unfold Sys2Proof.Machine.execMaskUnmute
  repeat' first
    | with_reducible assumption
    | with_reducible apply Fits.maskUnmute
    | with_reducible apply FitsOut.ite
    | with_reducible apply FitsOut.next
    | with_reducible apply FitsOut.fault
    | (intro _)
    | with_reducible apply Fits.ite
    | dsimp only
    | split
    | (refine Fits.pair ‹_ = (_, _)› ?_)
    | (refine Fits.pair2 ‹_ = (_, _, _)› ?_)

structure Touches.histWord (N : Part → Prop) (le : Nat) : Prop where
  h_tx : N (.tx ((le : Nat) != 0))

theorem Fits.histWord (le : Nat) (q : Nat) (bits : Nat) (len : Nat) (s : State) (h : Fits N s0 s) (tch : Touches.histWord N le) :
    Fits N s0 (histWord le q bits len s) := by
  obtain ⟨h_tx⟩ := tch
  unfold Sys2Proof.Machine.histWord
  repeat' first
    | with_reducible assumption
    | with_reducible apply Fits.modTx
    | (intro _)
    | with_reducible apply Fits.ite
    | dsimp only
    | split
    | (refine Fits.pair ‹_ = (_, _)› ?_)
    | (refine Fits.pair2 ‹_ = (_, _, _)› ?_)

structure Touches.envLevel (N : Part → Prop) (le : Nat) : Prop where
  k_LE_TX_ENV_STAT_above : N (.reg (F.LE_TX_ENV_STAT_above le).key)

theorem Fits.envLevel (le : Nat) (s : State) (h : Fits N s0 s) (tch : Touches.envLevel N le) :
    Fits N s0 (envLevel le s) := by
  obtain ⟨k_LE_TX_ENV_STAT_above⟩ := tch
  unfold Sys2Proof.Machine.envLevel
  repeat' first
    | with_reducible assumption
    | with_reducible apply k_LE_TX_ENV_STAT_above
    | with_reducible apply Fits.setB
    | (intro _)
    | with_reducible apply Fits.ite
    | dsimp only
    | split
    | (refine Fits.pair ‹_ = (_, _)› ?_)
    | (refine Fits.pair2 ‹_ = (_, _, _)› ?_)

structure Touches.envDrop (N : Part → Prop) (le : Nat) : Prop where
  h_tx : N (.tx ((le : Nat) != 0))

theorem Fits.envDrop (le : Nat) (s : State) (h : Fits N s0 s) (tch : Touches.envDrop N le) :
    Fits N s0 (envDrop le s) := by
  obtain ⟨h_tx⟩ := tch
  unfold Sys2Proof.Machine.envDrop
  repeat' first
    | with_reducible assumption
    | with_reducible apply Fits.modTx
    | (intro _)
    | with_reducible apply Fits.ite
    | dsimp only
    | split
    | (refine Fits.pair ‹_ = (_, _)› ?_)
    | (refine Fits.pair2 ‹_ = (_, _, _)› ?_)

structure Touches.setLive (N : Part → Prop) (le : Nat) : Prop where
  h_tx : N (.tx ((le : Nat) != 0))
  c_envLevel : Touches.envLevel N le

theorem Fits.setLive (le : Nat) (b : Bool) (s : State) (h : Fits N s0 s) (tch : Touches.setLive N le) :
    Fits N s0 (setLive le b s) := by
  obtain ⟨h_tx, c_envLevel⟩ := tch
  unfold Sys2Proof.Machine.setLive
  repeat' first
    | with_reducible assumption
    | with_reducible apply Fits.modTx
    | with_reducible apply Fits.envLevel
    | (intro _)
    | with_reducible apply Fits.ite
    | dsimp only
    | split
    | (refine Fits.pair ‹_ = (_, _)› ?_)
    | (refine Fits.pair2 ‹_ = (_, _, _)› ?_)

structure Touches.txEval (N : Part → Prop) (le : Nat) : Prop where
  c_envDrop : Touches.envDrop N le
  c_setLive : Touches.setLive N le

theorem Fits.txEval (le : Nat) (s : State) (h : Fits N s0 s) (tch : Touches.txEval N le) :
    Fits N s0 (txEval le s) := by
  obtain ⟨c_envDrop, c_setLive⟩ := tch
  unfold Sys2Proof.Machine.txEval
  repeat' first
    | with_reducible assumption
    | with_reducible apply Fits.envDrop
    | with_reducible apply Fits.setLive
    | (intro _)
    | with_reducible apply Fits.ite
    | dsimp only
    | split
    | (refine Fits.pair ‹_ = (_, _)› ?_)
    | (refine Fits.pair2 ‹_ = (_, _, _)› ?_)

structure Touches.envBurst (N : Part → Prop) (le : Nat) : Prop where
  k_LE_TX_ENV_MERGE_CNT_count : N (.reg (F.LE_TX_ENV_MERGE_CNT_count le).key)
  h_tx : N (.tx ((le : Nat) != 0))
  c_evt : Touches.evt N (lep le 0x17)

theorem Fits.envBurst (le : Nat) (tb : Nat) (te : Nat) (s : State) (h : Fits N s0 s) (tch : Touches.envBurst N le) :
    Fits N s0 (envBurst le tb te s) := by
  obtain ⟨k_LE_TX_ENV_MERGE_CNT_count, h_tx, c_evt⟩ := tch
  unfold Sys2Proof.Machine.envBurst
  repeat' first
    | with_reducible assumption
    | with_reducible apply k_LE_TX_ENV_MERGE_CNT_count
    | with_reducible apply Fits.bump
    | with_reducible apply Fits.evt
    | with_reducible apply Fits.modTx
    | (intro _)
    | with_reducible apply Fits.ite
    | dsimp only
    | split
    | (refine Fits.pair ‹_ = (_, _)› ?_)
    | (refine Fits.pair2 ‹_ = (_, _, _)› ?_)

end Sys2Proof.Machine
end

