-- ==== Sys2Proof/Laws/FitsFec.lean ====
section
/-! SUPPORT. What the operations of Machine/Fec.lean touch (a structure of parts for each, over those of the operations it calls), and
that each keeps the canonical form. -/
set_option linter.unusedTactic false
set_option linter.unreachableTactic false
namespace Sys2Proof.Machine

variable {N : Part → Prop} {s0 : State}

structure Touches.fecReport (N : Part → Prop) (le : Nat) : Prop where
  k_LE_FEC_STAT_iter_cap : N (.reg (F.LE_FEC_STAT_iter_cap le).key)
  k_LE_FEC_STAT_q_th : N (.reg (F.LE_FEC_STAT_q_th le).key)
  k_LE_FEC_STAT_tiles_active : N (.reg (F.LE_FEC_STAT_tiles_active le).key)
  c_level : Touches.level N (lep le 0x30)

theorem Fits.fecReport (le : Nat) (s : State) (h : Fits N s0 s) (tch : Touches.fecReport N le) :
    Fits N s0 (fecReport le s) := by
  obtain ⟨k_LE_FEC_STAT_iter_cap, k_LE_FEC_STAT_q_th, k_LE_FEC_STAT_tiles_active, c_level⟩ := tch
  unfold Sys2Proof.Machine.fecReport
  repeat' first
    | with_reducible assumption
    | with_reducible apply k_LE_FEC_STAT_iter_cap
    | with_reducible apply k_LE_FEC_STAT_q_th
    | with_reducible apply k_LE_FEC_STAT_tiles_active
    | with_reducible apply Fits.setF
    | with_reducible apply Fits.level
    | (intro _)
    | with_reducible apply Fits.ite
    | dsimp only
    | split
    | (refine Fits.pair ‹_ = (_, _)› ?_)
    | (refine Fits.pair2 ‹_ = (_, _, _)› ?_)

structure Touches.tileLeaves (N : Part → Prop) (le : Nat) : Prop where
  k_LE_FEC_TILE_MAP_map : N (.reg (F.LE_FEC_TILE_MAP_map le).key)

theorem Fits.tileLeaves (le : Nat) (t : Nat) (s : State) (h : Fits N s0 s) (tch : Touches.tileLeaves N le) :
    Fits N s0 (tileLeaves le t s) := by
  obtain ⟨k_LE_FEC_TILE_MAP_map⟩ := tch
  unfold Sys2Proof.Machine.tileLeaves
  repeat' first
    | with_reducible assumption
    | with_reducible apply k_LE_FEC_TILE_MAP_map
    | with_reducible apply Fits.setF
    | (intro _)
    | with_reducible apply Fits.ite
    | dsimp only
    | split
    | (refine Fits.pair ‹_ = (_, _)› ?_)
    | (refine Fits.pair2 ‹_ = (_, _, _)› ?_)

structure Touches.tileMark (N : Part → Prop) (le : Nat) (t : Nat) : Prop where
  k_LE_FEC_TILE_STAT_marks : N (.reg (F.LE_FEC_TILE_STAT_marks le t).key)
  k_LE_FEC_TILE_STAT_state : N (.reg (F.LE_FEC_TILE_STAT_state le t).key)
  h_fec : N (.fec ((le : Nat) != 0))
  c_evt : Touches.evt N (lep le 0x30)
  c_fecReport : Touches.fecReport N le
  c_tileLeaves : Touches.tileLeaves N le

theorem Fits.tileMark (le : Nat) (t : Nat) (s : State) (h : Fits N s0 s) (tch : Touches.tileMark N le t) :
    Fits N s0 (tileMark le t s) := by
  obtain ⟨k_LE_FEC_TILE_STAT_marks, k_LE_FEC_TILE_STAT_state, h_fec, c_evt, c_fecReport, c_tileLeaves⟩ := tch
  unfold Sys2Proof.Machine.tileMark
  repeat' first
    | with_reducible assumption
    | with_reducible apply k_LE_FEC_TILE_STAT_marks
    | with_reducible apply k_LE_FEC_TILE_STAT_state
    | with_reducible apply Fits.setF
    | with_reducible apply Fits.evt
    | with_reducible apply Fits.modFec
    | with_reducible apply Fits.fecReport
    | with_reducible apply Fits.tileLeaves
    | (intro _)
    | with_reducible apply Fits.ite
    | dsimp only
    | split
    | (refine Fits.pair ‹_ = (_, _)› ?_)
    | (refine Fits.pair2 ‹_ = (_, _, _)› ?_)

structure Touches.shadowCheck (N : Part → Prop) (le : Nat) : Prop where
  k_LE_FEC_AMBIG_CNT_count : N (.reg (F.LE_FEC_AMBIG_CNT_count le).key)
  c_tileMark : ∀ (a1 : Nat), Touches.tileMark N le a1

theorem Fits.shadowCheck (le : Nat) (t : Nat) (sh : Option (Bool × Bool)) (s : State) (h : Fits N s0 s) (tch : Touches.shadowCheck N le) :
    Fits N s0 (shadowCheck le t sh s) := by
  obtain ⟨k_LE_FEC_AMBIG_CNT_count, c_tileMark⟩ := tch
  unfold Sys2Proof.Machine.shadowCheck
  repeat' first
    | with_reducible assumption
    | with_reducible apply k_LE_FEC_AMBIG_CNT_count
    | with_reducible exact c_tileMark _
    | with_reducible apply Fits.bump
    | with_reducible apply Fits.tileMark
    | (intro _)
    | with_reducible apply Fits.ite
    | dsimp only
    | split
    | (refine Fits.pair ‹_ = (_, _)› ?_)
    | (refine Fits.pair2 ‹_ = (_, _, _)› ?_)

structure Touches.tileSwap (N : Part → Prop) (le : Nat) : Prop where
  k_LE_FEC_REDEC_CNT_count : N (.reg (F.LE_FEC_REDEC_CNT_count le).key)
  k_LE_FEC_TILE_MAP_map : N (.reg (F.LE_FEC_TILE_MAP_map le).key)
  k_LE_FEC_TILE_SPARE_spare_a : N (.reg (F.LE_FEC_TILE_SPARE_spare_a le).key)
  k_LE_FEC_TILE_SPARE_spare_b : N (.reg (F.LE_FEC_TILE_SPARE_spare_b le).key)
  k_LE_FEC_TILE_STAT_marks : ∀ (a1 : Nat), N (.reg (F.LE_FEC_TILE_STAT_marks le a1).key)
  k_LE_FEC_TILE_STAT_state : ∀ (a1 : Nat), N (.reg (F.LE_FEC_TILE_STAT_state le a1).key)
  h_fec : N (.fec ((le : Nat) != 0))
  c_evt : Touches.evt N (lep le 0x30)
  c_fecReport : Touches.fecReport N le
  c_tileLeaves : Touches.tileLeaves N le

theorem Fits.tileSwap (le : Nat) (inFlight : Nat) (s : State) (h : Fits N s0 s) (tch : Touches.tileSwap N le) :
    Fits N s0 (tileSwap le inFlight s) := by
  obtain ⟨k_LE_FEC_REDEC_CNT_count, k_LE_FEC_TILE_MAP_map, k_LE_FEC_TILE_SPARE_spare_a, k_LE_FEC_TILE_SPARE_spare_b, k_LE_FEC_TILE_STAT_marks, k_LE_FEC_TILE_STAT_state, h_fec, c_evt, c_fecReport, c_tileLeaves⟩ := tch
  unfold Sys2Proof.Machine.tileSwap
  repeat' first
    | with_reducible assumption
    | with_reducible apply k_LE_FEC_REDEC_CNT_count
    | with_reducible apply k_LE_FEC_TILE_MAP_map
    | with_reducible apply k_LE_FEC_TILE_SPARE_spare_a
    | with_reducible apply k_LE_FEC_TILE_SPARE_spare_b
    | with_reducible apply k_LE_FEC_TILE_STAT_marks
    | with_reducible apply k_LE_FEC_TILE_STAT_state
    | with_reducible apply Fits.setF
    | with_reducible apply Fits.bump
    | with_reducible apply Fits.evt
    | with_reducible apply Fits.modFec
    | with_reducible apply Fits.fecReport
    | with_reducible apply Fits.tileLeaves
    | (intro _)
    | with_reducible apply Fits.ite
    | dsimp only
    | split
    | (refine Fits.pair ‹_ = (_, _)› ?_)
    | (refine Fits.pair2 ‹_ = (_, _, _)› ?_)

structure Touches.execTileSwap (N : Part → Prop) (le : Fin 2) : Prop where
  c_tileSwap : Touches.tileSwap N le.val

theorem FitsOut.execTileSwap (le : Fin 2) (inFlight : Fin 3) (s : State) (h : Fits N s0 s) (tch : Touches.execTileSwap N le) :
    FitsOut N s0 (execTileSwap le inFlight s) := by
  obtain ⟨c_tileSwap⟩ := tch
  unfold Sys2Proof.Machine.execTileSwap
  repeat' first
    | with_reducible assumption
    | with_reducible apply Fits.tileSwap
    | with_reducible apply FitsOut.ite
    | with_reducible apply FitsOut.next
    | with_reducible apply FitsOut.fault
    | (intro _)
    | with_reducible apply Fits.ite
    | dsimp only
    | split
    | (refine Fits.pair ‹_ = (_, _)› ?_)
    | (refine Fits.pair2 ‹_ = (_, _, _)› ?_)

structure Touches.followLost (N : Part → Prop) (le : Nat) : Prop where
  k_LE_RX_FOLLOW_STAT_follows_lost : N (.reg (F.LE_RX_FOLLOW_STAT_follows_lost le).key)
  k_LE_RX_PLAN_STAT_follow_pending : N (.reg (F.LE_RX_PLAN_STAT_follow_pending le).key)
  h_rx : N (.rx ((le : Nat) != 0))
  c_evt : Touches.evt N (lep le 0x18)

theorem Fits.followLost (le : Nat) (s : State) (h : Fits N s0 s) (tch : Touches.followLost N le) :
    Fits N s0 (followLost le s) := by
  obtain ⟨k_LE_RX_FOLLOW_STAT_follows_lost, k_LE_RX_PLAN_STAT_follow_pending, h_rx, c_evt⟩ := tch
  unfold Sys2Proof.Machine.followLost
  repeat' first
    | with_reducible assumption
    | with_reducible apply k_LE_RX_FOLLOW_STAT_follows_lost
    | with_reducible apply k_LE_RX_PLAN_STAT_follow_pending
    | with_reducible apply Fits.setB
    | with_reducible apply Fits.incWrap
    | with_reducible apply Fits.evt
    | with_reducible apply Fits.modRx
    | (intro _)
    | with_reducible apply Fits.ite
    | dsimp only
    | split
    | (refine Fits.pair ‹_ = (_, _)› ?_)
    | (refine Fits.pair2 ‹_ = (_, _, _)› ?_)

structure Touches.setFrame (N : Part → Prop) (le : Nat) : Prop where
  k_LE_GLF_STAT_frame_state : N (.reg (F.LE_GLF_STAT_frame_state le).key)
  h_glf : N (.glf ((le : Nat) != 0))

theorem Fits.setFrame (le : Nat) (k : Nat) (v : Nat) (s : State) (h : Fits N s0 s) (tch : Touches.setFrame N le) :
    Fits N s0 (setFrame le k v s) := by
  obtain ⟨k_LE_GLF_STAT_frame_state, h_glf⟩ := tch
  unfold Sys2Proof.Machine.setFrame
  repeat' first
    | with_reducible assumption
    | with_reducible apply k_LE_GLF_STAT_frame_state
    | with_reducible apply Fits.setF
    | with_reducible apply Fits.modGlf
    | (intro _)
    | with_reducible apply Fits.ite
    | dsimp only
    | split
    | (refine Fits.pair ‹_ = (_, _)› ?_)
    | (refine Fits.pair2 ‹_ = (_, _, _)› ?_)

structure Touches.setMf (N : Part → Prop) (le : Nat) : Prop where
  k_LE_GLF_STAT_mf_state : N (.reg (F.LE_GLF_STAT_mf_state le).key)
  h_glf : N (.glf ((le : Nat) != 0))

theorem Fits.setMf (le : Nat) (k : Nat) (v : Nat) (lom : Bool) (s : State) (h : Fits N s0 s) (tch : Touches.setMf N le) :
    Fits N s0 (setMf le k v lom s) := by
  obtain ⟨k_LE_GLF_STAT_mf_state, h_glf⟩ := tch
  unfold Sys2Proof.Machine.setMf
  repeat' first
    | with_reducible assumption
    | with_reducible apply k_LE_GLF_STAT_mf_state
    | with_reducible apply Fits.setF
    | with_reducible apply Fits.modGlf
    | (intro _)
    | with_reducible apply Fits.ite
    | dsimp only
    | split
    | (refine Fits.pair ‹_ = (_, _)› ?_)
    | (refine Fits.pair2 ‹_ = (_, _, _)› ?_)

structure Touches.glfOof (N : Part → Prop) (le : Nat) : Prop where
  k_LE_GLF_STAT_candidates : N (.reg (F.LE_GLF_STAT_candidates le).key)
  h_glf : N (.glf ((le : Nat) != 0))
  c_evt : Touches.evt N (lep le 0x34)
  c_followLost : Touches.followLost N le
  c_setFrame : Touches.setFrame N le
  c_setMf : Touches.setMf N le

theorem Fits.glfOof (le : Nat) (k : Nat) (s : State) (h : Fits N s0 s) (tch : Touches.glfOof N le) :
    Fits N s0 (glfOof le k s) := by
  obtain ⟨k_LE_GLF_STAT_candidates, h_glf, c_evt, c_followLost, c_setFrame, c_setMf⟩ := tch
  unfold Sys2Proof.Machine.glfOof
  repeat' first
    | with_reducible assumption
    | with_reducible apply k_LE_GLF_STAT_candidates
    | with_reducible apply Fits.setF
    | with_reducible apply Fits.evt
    | with_reducible apply Fits.modGlf
    | with_reducible apply Fits.followLost
    | with_reducible apply Fits.setFrame
    | with_reducible apply Fits.setMf
    | (intro _)
    | with_reducible apply Fits.ite
    | dsimp only
    | split
    | (refine Fits.pair ‹_ = (_, _)› ?_)
    | (refine Fits.pair2 ‹_ = (_, _, _)› ?_)

structure Touches.setSync (N : Part → Prop) (le : Nat) : Prop where
  k_LE_FEC_SC_SYNC_sc_sync : N (.reg (F.LE_FEC_SC_SYNC_sc_sync le).key)
  k_LE_FEC_STAT_sync : N (.reg (F.LE_FEC_STAT_sync le).key)
  h_fec : N (.fec ((le : Nat) != 0))
  c_glfOof : Touches.glfOof N le

theorem Fits.setSync (le : Nat) (k : Nat) (v : Nat) (s : State) (h : Fits N s0 s) (tch : Touches.setSync N le) :
    Fits N s0 (setSync le k v s) := by
  obtain ⟨k_LE_FEC_SC_SYNC_sc_sync, k_LE_FEC_STAT_sync, h_fec, c_glfOof⟩ := tch
  unfold Sys2Proof.Machine.setSync
  repeat' first
    | with_reducible assumption
    | with_reducible apply k_LE_FEC_SC_SYNC_sc_sync
    | with_reducible apply k_LE_FEC_STAT_sync
    | with_reducible apply Fits.setF
    | with_reducible apply Fits.modFec
    | with_reducible apply Fits.glfOof
    | (intro _)
    | with_reducible apply Fits.ite
    | dsimp only
    | split
    | (refine Fits.pair ‹_ = (_, _)› ?_)
    | (refine Fits.pair2 ‹_ = (_, _, _)› ?_)

structure Touches.cwHunt (N : Part → Prop) (le : Nat) : Prop where
  c_setSync : Touches.setSync N le

theorem Fits.cwHunt (le : Nat) (k : Nat) (s : State) (h : Fits N s0 s) (tch : Touches.cwHunt N le) :
    Fits N s0 (cwHunt le k s) := by
  obtain ⟨c_setSync⟩ := tch
  unfold Sys2Proof.Machine.cwHunt
  repeat' first
    | with_reducible assumption
    | with_reducible apply Fits.setSync
    | (intro _)
    | with_reducible apply Fits.ite
    | dsimp only
    | split
    | (refine Fits.pair ‹_ = (_, _)› ?_)
    | (refine Fits.pair2 ‹_ = (_, _, _)› ?_)

structure Touches.cwHuntAll (N : Part → Prop) (le : Nat) : Prop where
  c_cwHunt : Touches.cwHunt N le

theorem Fits.cwHuntAll (le : Nat) (s : State) (h : Fits N s0 s) (tch : Touches.cwHuntAll N le) :
    Fits N s0 (cwHuntAll le s) := by
  obtain ⟨c_cwHunt⟩ := tch
  unfold Sys2Proof.Machine.cwHuntAll
  repeat' first
    | with_reducible assumption
    | with_reducible apply Fits.cwHunt
    | with_reducible apply Fits.forEach
    | (intro _)
    | with_reducible apply Fits.ite
    | dsimp only
    | split
    | (refine Fits.pair ‹_ = (_, _)› ?_)
    | (refine Fits.pair2 ‹_ = (_, _, _)› ?_)

structure Touches.execCwCandidateFound (N : Part → Prop) (le : Fin 2) : Prop where
  c_setSync : Touches.setSync N le.val

theorem FitsOut.execCwCandidateFound (le : Fin 2) (k : Fin 32) (s : State) (h : Fits N s0 s) (tch : Touches.execCwCandidateFound N le) :
    FitsOut N s0 (execCwCandidateFound le k s) := by
  obtain ⟨c_setSync⟩ := tch
  unfold Sys2Proof.Machine.execCwCandidateFound
  repeat' first
    | with_reducible assumption
    | with_reducible apply Fits.setSync
    | with_reducible apply FitsOut.ite
    | with_reducible apply FitsOut.next
    | with_reducible apply FitsOut.fault
    | (intro _)
    | with_reducible apply Fits.ite
    | dsimp only
    | split
    | (refine Fits.pair ‹_ = (_, _)› ?_)
    | (refine Fits.pair2 ‹_ = (_, _, _)› ?_)

structure Touches.fecCount (N : Part → Prop) (le : Nat) (c : Nat) : Prop where
  k_LE_FEC_CNT_HI_hi : N (.reg (F.LE_FEC_CNT_HI_hi le c).key)
  k_LE_FEC_CNT_LO_lo : N (.reg (F.LE_FEC_CNT_LO_lo le c).key)

theorem Fits.fecCount (le : Nat) (c : Nat) (n : Nat) (s : State) (h : Fits N s0 s) (tch : Touches.fecCount N le c) :
    Fits N s0 (fecCount le c n s) := by
  obtain ⟨k_LE_FEC_CNT_HI_hi, k_LE_FEC_CNT_LO_lo⟩ := tch
  unfold Sys2Proof.Machine.fecCount
  repeat' first
    | with_reducible assumption
    | with_reducible apply k_LE_FEC_CNT_HI_hi
    | with_reducible apply k_LE_FEC_CNT_LO_lo
    | with_reducible apply Fits.bump64
    | (intro _)
    | with_reducible apply Fits.ite
    | dsimp only
    | split
    | (refine Fits.pair ‹_ = (_, _)› ?_)
    | (refine Fits.pair2 ‹_ = (_, _, _)› ?_)

structure Touches.fecWord (N : Part → Prop) (le : Nat) : Prop where
  h_ev : N .ev
  h_fec : N (.fec ((le : Nat) != 0))
  c_evt : Touches.evt N (lep le 0x30)
  c_shadowCheck : Touches.shadowCheck N le
  c_setSync : Touches.setSync N le
  c_fecCount : Touches.fecCount N le 0
  c_fecCount_1 : Touches.fecCount N le 1
  c_fecCount_2 : Touches.fecCount N le 2
  c_fecCount_3 : Touches.fecCount N le 3
  c_fecCount_4 : Touches.fecCount N le 4
  c_fecCount_5 : Touches.fecCount N le 5

theorem Fits.fecWord (le : Nat) (k : Nat) (burst : Bool) (d : Decoded) (s : State) (h : Fits N s0 s) (tch : Touches.fecWord N le) :
    Fits N s0 (fecWord le k burst d s) := by
  obtain ⟨h_ev, h_fec, c_evt, c_shadowCheck, c_setSync, c_fecCount, c_fecCount_1, c_fecCount_2, c_fecCount_3, c_fecCount_4, c_fecCount_5⟩ := tch
  unfold Sys2Proof.Machine.fecWord
  repeat' first
    | with_reducible assumption
    | with_reducible apply Fits.logFold
    | with_reducible apply Fits.datapath
    | with_reducible apply Fits.evt
    | with_reducible apply Fits.modFec
    | with_reducible apply Fits.shadowCheck
    | with_reducible apply Fits.setSync
    | with_reducible apply Fits.fecCount
    | (intro _)
    | with_reducible apply Fits.ite
    | dsimp only
    | split
    | (refine Fits.pair ‹_ = (_, _)› ?_)
    | (refine Fits.pair2 ‹_ = (_, _, _)› ?_)

structure Touches.wordOut (N : Part → Prop) (le : Nat) : Prop where
  h_fec : N (.fec ((le : Nat) != 0))
  c_histWord : Touches.histWord N le

theorem Fits.wordOut (le : Nat) (bits : Nat) (len : Nat) (s : State) (h : Fits N s0 s) (tch : Touches.wordOut N le) :
    Fits N s0 (wordOut le bits len s) := by
  obtain ⟨h_fec, c_histWord⟩ := tch
  unfold Sys2Proof.Machine.wordOut
  repeat' first
    | with_reducible assumption
    | with_reducible apply Fits.modFec
    | with_reducible apply Fits.histWord
    | (intro _)
    | with_reducible apply Fits.ite
    | dsimp only
    | split
    | (refine Fits.pair ‹_ = (_, _)› ?_)
    | (refine Fits.pair2 ‹_ = (_, _, _)› ?_)

structure Touches.encErr (N : Part → Prop) (le : Nat) : Prop where
  h_fec : N (.fec ((le : Nat) != 0))
  c_evt : Touches.evt N (lep le 0x30)

theorem Fits.encErr (le : Nat) (s : State) (h : Fits N s0 s) (tch : Touches.encErr N le) :
    Fits N s0 (encErr le s) := by
  obtain ⟨h_fec, c_evt⟩ := tch
  unfold Sys2Proof.Machine.encErr
  repeat' first
    | with_reducible assumption
    | with_reducible apply Fits.evt
    | with_reducible apply Fits.modFec
    | (intro _)
    | with_reducible apply Fits.ite
    | dsimp only
    | split
    | (refine Fits.pair ‹_ = (_, _)› ?_)
    | (refine Fits.pair2 ‹_ = (_, _, _)› ?_)

structure Touches.execFecEncode (N : Part → Prop) (le : Fin 2) : Prop where
  h_ev : N .ev
  c_wordOut : Touches.wordOut N le.val
  c_encErr : Touches.encErr N le.val

theorem FitsOut.execFecEncode (le : Fin 2) (info : List Word) (faults : List Nat) (s : State) (h : Fits N s0 s) (tch : Touches.execFecEncode N le) :
    FitsOut N s0 (execFecEncode le info faults s) := by
  obtain ⟨h_ev, c_wordOut, c_encErr⟩ := tch
  unfold Sys2Proof.Machine.execFecEncode
  repeat' first
    | with_reducible assumption
    | with_reducible apply Fits.datapath
    | with_reducible apply Fits.wordOut
    | with_reducible apply Fits.encErr
    | with_reducible apply Fits.foldlPair
    | with_reducible apply Fits.foldl
    | with_reducible apply FitsOut.ite
    | with_reducible apply FitsOut.next
    | with_reducible apply FitsOut.fault
    | (intro _)
    | with_reducible apply Fits.ite
    | dsimp only
    | split
    | (refine Fits.pair ‹_ = (_, _)› ?_)
    | (refine Fits.pair2 ‹_ = (_, _, _)› ?_)

end Sys2Proof.Machine
end

