-- ==== Sys2Proof/Laws/FitsReceive.lean ====
section
/-! SUPPORT. What the operations of Machine/Receive.lean touch (a structure of parts for each, over those of the operations it calls), and
that each keeps the canonical form. -/
set_option linter.unusedTactic false
set_option linter.unreachableTactic false
namespace Sys2Proof.Machine

variable {N : Part → Prop} {s0 : State}

structure Touches.scGo (N : Part → Prop) (le : Nat) : Prop where
  h_ev : N .ev
  k_LE_RX_PLAN_STAT_sc_locked : N (.reg (F.LE_RX_PLAN_STAT_sc_locked le).key)
  k_LE_RX_SC_LOCK_LOST_lost : N (.reg (F.LE_RX_SC_LOCK_LOST_lost le).key)
  k_LE_RX_SC_LOCK_lock : N (.reg (F.LE_RX_SC_LOCK_lock le).key)
  h_rx : N (.rx ((le : Nat) != 0))

theorem Fits.scGo (le : Nat) (k : Nat) (v : Nat) (s : State) (h : Fits N s0 s) (tch : Touches.scGo N le) :
    Fits N s0 (scGo le k v s) := by
  obtain ⟨h_ev, k_LE_RX_PLAN_STAT_sc_locked, k_LE_RX_SC_LOCK_LOST_lost, k_LE_RX_SC_LOCK_lock, h_rx⟩ := tch
  unfold Sys2Proof.Machine.scGo
  repeat' first
    | with_reducible assumption
    | with_reducible apply k_LE_RX_PLAN_STAT_sc_locked
    | with_reducible apply k_LE_RX_SC_LOCK_LOST_lost
    | with_reducible apply k_LE_RX_SC_LOCK_lock
    | with_reducible apply Fits.setF
    | with_reducible apply Fits.noteWas
    | with_reducible apply Fits.modRx
    | (intro _)
    | with_reducible apply Fits.ite
    | dsimp only
    | split
    | (refine Fits.pair ‹_ = (_, _)› ?_)
    | (refine Fits.pair2 ‹_ = (_, _, _)› ?_)

structure Touches.setEq (N : Part → Prop) (le : Nat) : Prop where
  h_rx : N (.rx ((le : Nat) != 0))

theorem Fits.setEq (le : Nat) (k : Nat) (b : Butterfly) (s : State) (h : Fits N s0 s) (tch : Touches.setEq N le) :
    Fits N s0 (setEq le k b s) := by
  obtain ⟨h_rx⟩ := tch
  unfold Sys2Proof.Machine.setEq
  repeat' first
    | with_reducible assumption
    | with_reducible apply Fits.modRx
    | (intro _)
    | with_reducible apply Fits.ite
    | dsimp only
    | split
    | (refine Fits.pair ‹_ = (_, _)› ?_)
    | (refine Fits.pair2 ‹_ = (_, _, _)› ?_)

structure Touches.eqAdapt (N : Part → Prop) (le : Nat) : Prop where
  h_drawn : N .drawn
  c_setEq : Touches.setEq N le

theorem Fits.eqAdapt (le : Nat) (k : Nat) (s : State) (h : Fits N s0 s) (tch : Touches.eqAdapt N le) :
    Fits N s0 (eqAdapt le k s) := by
  obtain ⟨h_drawn, c_setEq⟩ := tch
  unfold Sys2Proof.Machine.eqAdapt
  repeat' first
    | with_reducible assumption
    | with_reducible apply Fits.setEq
    | (intro _)
    | with_reducible apply Fits.ite
    | dsimp only
    | split
    | (refine Fits.pair ‹_ = (_, _)› ?_)
    | (refine Fits.pair2 ‹_ = (_, _, _)› ?_)
    | with_reducible apply Fits.upd_drawn

structure Touches.setLol (N : Part → Prop) (le : Nat) : Prop where
  k_LE_RX_STATE_lol_raw : N (.reg (F.LE_RX_STATE_lol_raw le).key)
  c_level : Touches.level N (lep le 0x18)

theorem Fits.setLol (le : Nat) (b : Bool) (s : State) (h : Fits N s0 s) (tch : Touches.setLol N le) :
    Fits N s0 (setLol le b s) := by
  obtain ⟨k_LE_RX_STATE_lol_raw, c_level⟩ := tch
  unfold Sys2Proof.Machine.setLol
  repeat' first
    | with_reducible assumption
    | with_reducible apply k_LE_RX_STATE_lol_raw
    | with_reducible apply Fits.setB
    | with_reducible apply Fits.level
    | (intro _)
    | with_reducible apply Fits.ite
    | dsimp only
    | split
    | (refine Fits.pair ‹_ = (_, _)› ?_)
    | (refine Fits.pair2 ‹_ = (_, _, _)› ?_)

structure Touches.rxGo (N : Part → Prop) (le : Nat) : Prop where
  k_LE_RX_CD_EST_cd : N (.reg (F.LE_RX_CD_EST_cd le).key)
  k_LE_RX_STATE_state : N (.reg (F.LE_RX_STATE_state le).key)
  c_evt : Touches.evt N (lep le 0x18)
  c_followLost : Touches.followLost N le
  c_cwHuntAll : Touches.cwHuntAll N le
  c_scGo : Touches.scGo N le
  c_setLol : Touches.setLol N le

theorem Fits.rxGo (le : Nat) (v : Nat) (s : State) (h : Fits N s0 s) (tch : Touches.rxGo N le) :
    Fits N s0 (rxGo le v s) := by
  obtain ⟨k_LE_RX_CD_EST_cd, k_LE_RX_STATE_state, c_evt, c_followLost, c_cwHuntAll, c_scGo, c_setLol⟩ := tch
  unfold Sys2Proof.Machine.rxGo
  repeat' first
    | with_reducible assumption
    | with_reducible apply k_LE_RX_CD_EST_cd
    | with_reducible apply k_LE_RX_STATE_state
    | with_reducible apply Fits.setF
    | with_reducible apply Fits.evt
    | with_reducible apply Fits.followLost
    | with_reducible apply Fits.cwHuntAll
    | with_reducible apply Fits.scGo
    | with_reducible apply Fits.setLol
    | with_reducible apply Fits.forEach
    | (intro _)
    | with_reducible apply Fits.ite
    | dsimp only
    | split
    | (refine Fits.pair ‹_ = (_, _)› ?_)
    | (refine Fits.pair2 ‹_ = (_, _, _)› ?_)

structure Touches.rxMove (N : Part → Prop) (le : Nat) : Prop where
  c_evt : Touches.evt N (lep le 0x18)
  c_rxGo : Touches.rxGo N le

theorem Fits.rxMove (le : Nat) (v : Nat) (s : State) (h : Fits N s0 s) (tch : Touches.rxMove N le) :
    Fits N s0 (rxMove le v s) := by
  obtain ⟨c_evt, c_rxGo⟩ := tch
  unfold Sys2Proof.Machine.rxMove
  repeat' first
    | with_reducible assumption
    | with_reducible apply Fits.evt
    | with_reducible apply Fits.rxGo
    | (intro _)
    | with_reducible apply Fits.ite
    | dsimp only
    | split
    | (refine Fits.pair ‹_ = (_, _)› ?_)
    | (refine Fits.pair2 ‹_ = (_, _, _)› ?_)

structure Touches.losEval (N : Part → Prop) (le : Nat) : Prop where
  k_LE_RX_STATE_los_raw : N (.reg (F.LE_RX_STATE_los_raw le).key)
  c_level : Touches.level N (lep le 0x18)
  c_rxGo : Touches.rxGo N le
  c_rxMove : Touches.rxMove N le

theorem Fits.losEval (le : Nat) (s : State) (h : Fits N s0 s) (tch : Touches.losEval N le) :
    Fits N s0 (losEval le s) := by
  obtain ⟨k_LE_RX_STATE_los_raw, c_level, c_rxGo, c_rxMove⟩ := tch
  unfold Sys2Proof.Machine.losEval
  repeat' first
    | with_reducible assumption
    | with_reducible apply k_LE_RX_STATE_los_raw
    | with_reducible apply Fits.setB
    | with_reducible apply Fits.level
    | with_reducible apply Fits.rxGo
    | with_reducible apply Fits.rxMove
    | (intro _)
    | with_reducible apply Fits.ite
    | dsimp only
    | split
    | (refine Fits.pair ‹_ = (_, _)› ?_)
    | (refine Fits.pair2 ‹_ = (_, _, _)› ?_)

structure Touches.execLosRawSet (N : Part → Prop) (le : Fin 2) : Prop where
  h_rx : N (.rx ((le.val : Nat) != 0))
  c_losEval : Touches.losEval N le.val

theorem FitsOut.execLosRawSet (le : Fin 2) (optical : Bool) (s : State) (h : Fits N s0 s) (tch : Touches.execLosRawSet N le) :
    FitsOut N s0 (execLosRawSet le optical s) := by
  obtain ⟨h_rx, c_losEval⟩ := tch
  unfold Sys2Proof.Machine.execLosRawSet
  repeat' first
    | with_reducible assumption
    | with_reducible apply Fits.modRx
    | with_reducible apply Fits.losEval
    | with_reducible apply FitsOut.ite
    | with_reducible apply FitsOut.next
    | with_reducible apply FitsOut.fault
    | (intro _)
    | with_reducible apply Fits.ite
    | dsimp only
    | split
    | (refine Fits.pair ‹_ = (_, _)› ?_)
    | (refine Fits.pair2 ‹_ = (_, _, _)› ?_)

structure Touches.execSignalDetected (N : Part → Prop) (le : Fin 2) : Prop where
  k_LE_RX_STATE_acquisitions : N (.reg (F.LE_RX_STATE_acquisitions le.val).key)
  h_rx : N (.rx ((le.val : Nat) != 0))
  c_rxGo : Touches.rxGo N le.val
  c_losEval : Touches.losEval N le.val

theorem FitsOut.execSignalDetected (le : Fin 2) (s : State) (h : Fits N s0 s) (tch : Touches.execSignalDetected N le) :
    FitsOut N s0 (execSignalDetected le s) := by
  obtain ⟨k_LE_RX_STATE_acquisitions, h_rx, c_rxGo, c_losEval⟩ := tch
  unfold Sys2Proof.Machine.execSignalDetected
  repeat' first
    | with_reducible assumption
    | with_reducible apply k_LE_RX_STATE_acquisitions
    | with_reducible apply Fits.bump
    | with_reducible apply Fits.modRx
    | with_reducible apply Fits.rxGo
    | with_reducible apply Fits.losEval
    | with_reducible apply FitsOut.ite
    | with_reducible apply FitsOut.next
    | with_reducible apply FitsOut.fault
    | (intro _)
    | with_reducible apply Fits.ite
    | dsimp only
    | split
    | (refine Fits.pair ‹_ = (_, _)› ?_)
    | (refine Fits.pair2 ‹_ = (_, _, _)› ?_)

structure Touches.execCdScanEnd (N : Part → Prop) (le : Fin 2) : Prop where
  k_LE_RX_CD_EST_cd : N (.reg (F.LE_RX_CD_EST_cd le.val).key)
  c_evt : Touches.evt N (lep le.val 0x1B)
  c_rxGo : Touches.rxGo N le.val
  c_rxMove : Touches.rxMove N le.val

theorem FitsOut.execCdScanEnd (le : Fin 2) (peak : Option Int) (s : State) (h : Fits N s0 s) (tch : Touches.execCdScanEnd N le) :
    FitsOut N s0 (execCdScanEnd le peak s) := by
  obtain ⟨k_LE_RX_CD_EST_cd, c_evt, c_rxGo, c_rxMove⟩ := tch
  unfold Sys2Proof.Machine.execCdScanEnd
  repeat' first
    | with_reducible assumption
    | with_reducible apply k_LE_RX_CD_EST_cd
    | with_reducible apply Fits.setF
    | with_reducible apply Fits.evt
    | with_reducible apply Fits.rxGo
    | with_reducible apply Fits.rxMove
    | with_reducible apply FitsOut.ite
    | with_reducible apply FitsOut.next
    | with_reducible apply FitsOut.fault
    | (intro _)
    | with_reducible apply Fits.ite
    | dsimp only
    | split
    | (refine Fits.pair ‹_ = (_, _)› ?_)
    | (refine Fits.pair2 ‹_ = (_, _, _)› ?_)

structure Touches.execFreqOffsetFound (N : Part → Prop) (le : Fin 2) : Prop where
  k_LE_RX_CR_COMMON_offset : N (.reg (F.LE_RX_CR_COMMON_offset le.val).key)
  c_rxGo : Touches.rxGo N le.val

theorem FitsOut.execFreqOffsetFound (le : Fin 2) (kHz : Int) (s : State) (h : Fits N s0 s) (tch : Touches.execFreqOffsetFound N le) :
    FitsOut N s0 (execFreqOffsetFound le kHz s) := by
  obtain ⟨k_LE_RX_CR_COMMON_offset, c_rxGo⟩ := tch
  unfold Sys2Proof.Machine.execFreqOffsetFound
  repeat' first
    | with_reducible assumption
    | with_reducible apply k_LE_RX_CR_COMMON_offset
    | with_reducible apply Fits.setF
    | with_reducible apply Fits.rxGo
    | with_reducible apply FitsOut.ite
    | with_reducible apply FitsOut.next
    | with_reducible apply FitsOut.fault
    | (intro _)
    | with_reducible apply Fits.ite
    | dsimp only
    | split
    | (refine Fits.pair ‹_ = (_, _)› ?_)
    | (refine Fits.pair2 ‹_ = (_, _, _)› ?_)

structure Touches.execFreqAcqTimeout (N : Part → Prop) (le : Fin 2) : Prop where
  c_evt : Touches.evt N (lep le.val 0x1B)
  c_rxMove : Touches.rxMove N le.val

theorem FitsOut.execFreqAcqTimeout (le : Fin 2) (s : State) (h : Fits N s0 s) (tch : Touches.execFreqAcqTimeout N le) :
    FitsOut N s0 (execFreqAcqTimeout le s) := by
  obtain ⟨c_evt, c_rxMove⟩ := tch
  unfold Sys2Proof.Machine.execFreqAcqTimeout
  repeat' first
    | with_reducible assumption
    | with_reducible apply Fits.evt
    | with_reducible apply Fits.rxMove
    | with_reducible apply FitsOut.ite
    | with_reducible apply FitsOut.next
    | with_reducible apply FitsOut.fault
    | (intro _)
    | with_reducible apply Fits.ite
    | dsimp only
    | split
    | (refine Fits.pair ‹_ = (_, _)› ?_)
    | (refine Fits.pair2 ‹_ = (_, _, _)› ?_)

structure Touches.execScAcqTimeout (N : Part → Prop) (le : Fin 2) : Prop where
  c_rxGo : Touches.rxGo N le.val

theorem FitsOut.execScAcqTimeout (le : Fin 2) (s : State) (h : Fits N s0 s) (tch : Touches.execScAcqTimeout N le) :
    FitsOut N s0 (execScAcqTimeout le s) := by
  obtain ⟨c_rxGo⟩ := tch
  unfold Sys2Proof.Machine.execScAcqTimeout
  repeat' first
    | with_reducible assumption
    | with_reducible apply Fits.rxGo
    | with_reducible apply FitsOut.ite
    | with_reducible apply FitsOut.next
    | with_reducible apply FitsOut.fault
    | (intro _)
    | with_reducible apply Fits.ite
    | dsimp only
    | split
    | (refine Fits.pair ‹_ = (_, _)› ?_)
    | (refine Fits.pair2 ‹_ = (_, _, _)› ?_)

structure Touches.execEngineLockLoss (N : Part → Prop) (le : Fin 2) : Prop where
  c_rxGo : Touches.rxGo N le.val

theorem FitsOut.execEngineLockLoss (le : Fin 2) (s : State) (h : Fits N s0 s) (tch : Touches.execEngineLockLoss N le) :
    FitsOut N s0 (execEngineLockLoss le s) := by
  obtain ⟨c_rxGo⟩ := tch
  unfold Sys2Proof.Machine.execEngineLockLoss
  repeat' first
    | with_reducible assumption
    | with_reducible apply Fits.rxGo
    | with_reducible apply FitsOut.ite
    | with_reducible apply FitsOut.next
    | with_reducible apply FitsOut.fault
    | (intro _)
    | with_reducible apply Fits.ite
    | dsimp only
    | split
    | (refine Fits.pair ‹_ = (_, _)› ?_)
    | (refine Fits.pair2 ‹_ = (_, _, _)› ?_)

structure Touches.execFreqLimitExceeded (N : Part → Prop) (le : Fin 2) : Prop where
  c_evt : Touches.evt N (lep le.val 0x1B)
  c_rxGo : Touches.rxGo N le.val

theorem FitsOut.execFreqLimitExceeded (le : Fin 2) (s : State) (h : Fits N s0 s) (tch : Touches.execFreqLimitExceeded N le) :
    FitsOut N s0 (execFreqLimitExceeded le s) := by
  obtain ⟨c_evt, c_rxGo⟩ := tch
  unfold Sys2Proof.Machine.execFreqLimitExceeded
  repeat' first
    | with_reducible assumption
    | with_reducible apply Fits.evt
    | with_reducible apply Fits.rxGo
    | with_reducible apply FitsOut.ite
    | with_reducible apply FitsOut.next
    | with_reducible apply FitsOut.fault
    | (intro _)
    | with_reducible apply Fits.ite
    | dsimp only
    | split
    | (refine Fits.pair ‹_ = (_, _)› ?_)
    | (refine Fits.pair2 ‹_ = (_, _, _)› ?_)

structure Touches.execScConverged (N : Part → Prop) (le : Fin 2) : Prop where
  c_scGo : Touches.scGo N le.val
  c_eqAdapt : Touches.eqAdapt N le.val

theorem FitsOut.execScConverged (le : Fin 2) (k : Fin 32) (s : State) (h : Fits N s0 s) (tch : Touches.execScConverged N le) :
    FitsOut N s0 (execScConverged le k s) := by
  obtain ⟨c_scGo, c_eqAdapt⟩ := tch
  unfold Sys2Proof.Machine.execScConverged
  repeat' first
    | with_reducible assumption
    | with_reducible apply Fits.scGo
    | with_reducible apply Fits.eqAdapt
    | with_reducible apply FitsOut.ite
    | with_reducible apply FitsOut.next
    | with_reducible apply FitsOut.fault
    | (intro _)
    | with_reducible apply Fits.ite
    | dsimp only
    | split
    | (refine Fits.pair ‹_ = (_, _)› ?_)
    | (refine Fits.pair2 ‹_ = (_, _, _)› ?_)

structure Touches.execScConvergeTimeout (N : Part → Prop) (le : Fin 2) : Prop where
  c_scGo : Touches.scGo N le.val
  c_setEq : Touches.setEq N le.val

theorem FitsOut.execScConvergeTimeout (le : Fin 2) (k : Fin 32) (s : State) (h : Fits N s0 s) (tch : Touches.execScConvergeTimeout N le) :
    FitsOut N s0 (execScConvergeTimeout le k s) := by
  obtain ⟨c_scGo, c_setEq⟩ := tch
  unfold Sys2Proof.Machine.execScConvergeTimeout
  repeat' first
    | with_reducible assumption
    | with_reducible apply Fits.scGo
    | with_reducible apply Fits.setEq
    | with_reducible apply FitsOut.ite
    | with_reducible apply FitsOut.next
    | with_reducible apply FitsOut.fault
    | (intro _)
    | with_reducible apply Fits.ite
    | dsimp only
    | split
    | (refine Fits.pair ‹_ = (_, _)› ?_)
    | (refine Fits.pair2 ‹_ = (_, _, _)› ?_)

structure Touches.execPilotSyncFound (N : Part → Prop) (le : Fin 2) : Prop where
  h_drawn : N .drawn
  k_LE_RX_PLAN_STAT_spectral_inv : N (.reg (F.LE_RX_PLAN_STAT_spectral_inv le.val).key)
  c_evt : Touches.evt N (lep le.val 0x18)
  c_scGo : Touches.scGo N le.val
  c_setEq : Touches.setEq N le.val
  c_rxGo : Touches.rxGo N le.val

theorem FitsOut.execPilotSyncFound (le : Fin 2) (k : Fin 32) (conjugate : Bool) (s : State) (h : Fits N s0 s) (tch : Touches.execPilotSyncFound N le) :
    FitsOut N s0 (execPilotSyncFound le k conjugate s) := by
  obtain ⟨h_drawn, k_LE_RX_PLAN_STAT_spectral_inv, c_evt, c_scGo, c_setEq, c_rxGo⟩ := tch
  unfold Sys2Proof.Machine.execPilotSyncFound
  repeat' first
    | with_reducible assumption
    | with_reducible apply k_LE_RX_PLAN_STAT_spectral_inv
    | with_reducible apply Fits.setB
    | with_reducible apply Fits.draw
    | with_reducible apply Fits.evt
    | with_reducible apply Fits.scGo
    | with_reducible apply Fits.setEq
    | with_reducible apply Fits.rxGo
    | with_reducible apply FitsOut.ite
    | with_reducible apply FitsOut.next
    | with_reducible apply FitsOut.fault
    | (intro _)
    | with_reducible apply Fits.ite
    | dsimp only
    | split
    | (refine Fits.pair ‹_ = (_, _)› ?_)
    | (refine Fits.pair2 ‹_ = (_, _, _)› ?_)

structure Touches.execPilotSyncTimeout (N : Part → Prop) (le : Fin 2) : Prop where
  c_scGo : Touches.scGo N le.val

theorem FitsOut.execPilotSyncTimeout (le : Fin 2) (k : Fin 32) (s : State) (h : Fits N s0 s) (tch : Touches.execPilotSyncTimeout N le) :
    FitsOut N s0 (execPilotSyncTimeout le k s) := by
  obtain ⟨c_scGo⟩ := tch
  unfold Sys2Proof.Machine.execPilotSyncTimeout
  repeat' first
    | with_reducible assumption
    | with_reducible apply Fits.scGo
    | with_reducible apply FitsOut.ite
    | with_reducible apply FitsOut.next
    | with_reducible apply FitsOut.fault
    | (intro _)
    | with_reducible apply Fits.ite
    | dsimp only
    | split
    | (refine Fits.pair ‹_ = (_, _)› ?_)
    | (refine Fits.pair2 ‹_ = (_, _, _)› ?_)

structure Touches.pilotsLost (N : Part → Prop) (le : Nat) : Prop where
  c_evt : Touches.evt N (lep le 0x18)
  c_cwHunt : Touches.cwHunt N le
  c_scGo : Touches.scGo N le

theorem Fits.pilotsLost (le : Nat) (k : Nat) (s : State) (h : Fits N s0 s) (tch : Touches.pilotsLost N le) :
    Fits N s0 (pilotsLost le k s) := by
  obtain ⟨c_evt, c_cwHunt, c_scGo⟩ := tch
  unfold Sys2Proof.Machine.pilotsLost
  repeat' first
    | with_reducible assumption
    | with_reducible apply Fits.evt
    | with_reducible apply Fits.cwHunt
    | with_reducible apply Fits.scGo
    | (intro _)
    | with_reducible apply Fits.ite
    | dsimp only
    | split
    | (refine Fits.pair ‹_ = (_, _)› ?_)
    | (refine Fits.pair2 ‹_ = (_, _, _)› ?_)

structure Touches.execScLockLost (N : Part → Prop) (le : Fin 2) : Prop where
  c_pilotsLost : Touches.pilotsLost N le.val

theorem FitsOut.execScLockLost (le : Fin 2) (k : Fin 32) (s : State) (h : Fits N s0 s) (tch : Touches.execScLockLost N le) :
    FitsOut N s0 (execScLockLost le k s) := by
  obtain ⟨c_pilotsLost⟩ := tch
  unfold Sys2Proof.Machine.execScLockLost
  repeat' first
    | with_reducible assumption
    | with_reducible apply Fits.pilotsLost
    | with_reducible apply FitsOut.ite
    | with_reducible apply FitsOut.next
    | with_reducible apply FitsOut.fault
    | (intro _)
    | with_reducible apply Fits.ite
    | dsimp only
    | split
    | (refine Fits.pair ‹_ = (_, _)› ?_)
    | (refine Fits.pair2 ‹_ = (_, _, _)› ?_)

structure Touches.execSingular (N : Part → Prop) (le : Fin 2) : Prop where
  c_evt : Touches.evt N (lep le.val 0x1B)
  c_setEq : Touches.setEq N le.val

theorem FitsOut.execSingular (le : Fin 2) (k : Fin 32) (s : State) (h : Fits N s0 s) (tch : Touches.execSingular N le) :
    FitsOut N s0 (execSingular le k s) := by
  obtain ⟨c_evt, c_setEq⟩ := tch
  unfold Sys2Proof.Machine.execSingular
  repeat' first
    | with_reducible assumption
    | with_reducible apply Fits.evt
    | with_reducible apply Fits.setEq
    | with_reducible apply FitsOut.ite
    | with_reducible apply FitsOut.next
    | with_reducible apply FitsOut.fault
    | (intro _)
    | with_reducible apply Fits.ite
    | dsimp only
    | split
    | (refine Fits.pair ‹_ = (_, _)› ?_)
    | (refine Fits.pair2 ‹_ = (_, _, _)› ?_)

structure Touches.execCycleSlip (N : Part → Prop) (le : Fin 2) : Prop where
  h_rx : N (.rx ((le.val : Nat) != 0))
  c_evt : Touches.evt N (lep le.val 0x1B)

theorem FitsOut.execCycleSlip (le : Fin 2) (k : Fin 32) (s : State) (h : Fits N s0 s) (tch : Touches.execCycleSlip N le) :
    FitsOut N s0 (execCycleSlip le k s) := by
  obtain ⟨h_rx, c_evt⟩ := tch
  unfold Sys2Proof.Machine.execCycleSlip
  repeat' first
    | with_reducible assumption
    | with_reducible apply Fits.evt
    | with_reducible apply Fits.modRx
    | with_reducible apply FitsOut.ite
    | with_reducible apply FitsOut.next
    | with_reducible apply FitsOut.fault
    | (intro _)
    | with_reducible apply Fits.ite
    | dsimp only
    | split
    | (refine Fits.pair ‹_ = (_, _)› ?_)
    | (refine Fits.pair2 ‹_ = (_, _, _)› ?_)

structure Touches.trackCommon (N : Part → Prop) (le : Nat) : Prop where
  h_drawn : N .drawn
  k_LE_RX_CR_COMMON_offset : N (.reg (F.LE_RX_CR_COMMON_offset le).key)

theorem Fits.trackCommon (le : Nat) (s : State) (h : Fits N s0 s) (tch : Touches.trackCommon N le) :
    Fits N s0 (trackCommon le s) := by
  obtain ⟨h_drawn, k_LE_RX_CR_COMMON_offset⟩ := tch
  unfold Sys2Proof.Machine.trackCommon
  repeat' first
    | with_reducible assumption
    | with_reducible apply k_LE_RX_CR_COMMON_offset
    | with_reducible apply Fits.setF
    | with_reducible apply Fits.draw
    | (intro _)
    | with_reducible apply Fits.ite
    | dsimp only
    | split
    | (refine Fits.pair ‹_ = (_, _)› ?_)
    | (refine Fits.pair2 ‹_ = (_, _, _)› ?_)

structure Touches.execCdTrackStep (N : Part → Prop) (le : Fin 2) : Prop where
  k_LE_RX_CD_EST_cd : N (.reg (F.LE_RX_CD_EST_cd le.val).key)

theorem FitsOut.execCdTrackStep (le : Fin 2) (residual : Int) (s : State) (h : Fits N s0 s) (tch : Touches.execCdTrackStep N le) :
    FitsOut N s0 (execCdTrackStep le residual s) := by
  obtain ⟨k_LE_RX_CD_EST_cd⟩ := tch
  unfold Sys2Proof.Machine.execCdTrackStep
  repeat' first
    | with_reducible assumption
    | with_reducible apply k_LE_RX_CD_EST_cd
    | with_reducible apply Fits.setF
    | with_reducible apply FitsOut.ite
    | with_reducible apply FitsOut.next
    | with_reducible apply FitsOut.fault
    | (intro _)
    | with_reducible apply Fits.ite
    | dsimp only
    | split
    | (refine Fits.pair ‹_ = (_, _)› ?_)
    | (refine Fits.pair2 ‹_ = (_, _, _)› ?_)

structure Touches.takeEntropy (N : Part → Prop) (le : Nat) : Prop where
  h_inForce : N .inForce
  h_staged : N .staged
  k_LE_RX_PLAN_STAT_entropy_active : N (.reg (F.LE_RX_PLAN_STAT_entropy_active le).key)

theorem Fits.takeEntropy (le : Nat) (v : Nat) (s : State) (h : Fits N s0 s) (tch : Touches.takeEntropy N le) :
    Fits N s0 (takeEntropy le v s) := by
  obtain ⟨h_inForce, h_staged, k_LE_RX_PLAN_STAT_entropy_active⟩ := tch
  unfold Sys2Proof.Machine.takeEntropy
  repeat' first
    | with_reducible assumption
    | with_reducible apply k_LE_RX_PLAN_STAT_entropy_active
    | with_reducible apply Fits.setF
    | with_reducible apply Fits.stage
    | with_reducible apply Fits.force
    | (intro _)
    | with_reducible apply Fits.ite
    | dsimp only
    | split
    | (refine Fits.pair ‹_ = (_, _)› ?_)
    | (refine Fits.pair2 ‹_ = (_, _, _)› ?_)

structure Touches.execEntropyAnn (N : Part → Prop) (le : Fin 2) : Prop where
  k_LE_RX_FOLLOW_AT_frame : N (.reg (F.LE_RX_FOLLOW_AT_frame le.val).key)
  k_LE_RX_FOLLOW_STAT_entropy_announced : N (.reg (F.LE_RX_FOLLOW_STAT_entropy_announced le.val).key)
  k_LE_RX_PLAN_STAT_follow_pending : N (.reg (F.LE_RX_PLAN_STAT_follow_pending le.val).key)

theorem FitsOut.execEntropyAnn (le : Fin 2) (body : List Byte) (s : State) (h : Fits N s0 s) (tch : Touches.execEntropyAnn N le) :
    FitsOut N s0 (execEntropyAnn le body s) := by
  obtain ⟨k_LE_RX_FOLLOW_AT_frame, k_LE_RX_FOLLOW_STAT_entropy_announced, k_LE_RX_PLAN_STAT_follow_pending⟩ := tch
  unfold Sys2Proof.Machine.execEntropyAnn
  repeat' first
    | with_reducible assumption
    | with_reducible apply k_LE_RX_FOLLOW_AT_frame
    | with_reducible apply k_LE_RX_FOLLOW_STAT_entropy_announced
    | with_reducible apply k_LE_RX_PLAN_STAT_follow_pending
    | with_reducible apply Fits.setF
    | with_reducible apply Fits.setB
    | with_reducible apply FitsOut.ite
    | with_reducible apply FitsOut.next
    | with_reducible apply FitsOut.fault
    | (intro _)
    | with_reducible apply Fits.ite
    | dsimp only
    | split
    | (refine Fits.pair ‹_ = (_, _)› ?_)
    | (refine Fits.pair2 ‹_ = (_, _, _)› ?_)

structure Touches.execFollowApply (N : Part → Prop) (le : Fin 2) : Prop where
  k_LE_RX_FOLLOW_STAT_follows_applied : N (.reg (F.LE_RX_FOLLOW_STAT_follows_applied le.val).key)
  k_LE_RX_PLAN_STAT_follow_pending : N (.reg (F.LE_RX_PLAN_STAT_follow_pending le.val).key)
  c_evt : Touches.evt N (lep le.val 0x18)
  c_fecReport : Touches.fecReport N le.val
  c_takeEntropy : Touches.takeEntropy N le.val

theorem FitsOut.execFollowApply (le : Fin 2) (s : State) (h : Fits N s0 s) (tch : Touches.execFollowApply N le) :
    FitsOut N s0 (execFollowApply le s) := by
  obtain ⟨k_LE_RX_FOLLOW_STAT_follows_applied, k_LE_RX_PLAN_STAT_follow_pending, c_evt, c_fecReport, c_takeEntropy⟩ := tch
  unfold Sys2Proof.Machine.execFollowApply
  repeat' first
    | with_reducible assumption
    | with_reducible apply k_LE_RX_FOLLOW_STAT_follows_applied
    | with_reducible apply k_LE_RX_PLAN_STAT_follow_pending
    | with_reducible apply Fits.setB
    | with_reducible apply Fits.incWrap
    | with_reducible apply Fits.evt
    | with_reducible apply Fits.fecReport
    | with_reducible apply Fits.takeEntropy
    | with_reducible apply FitsOut.ite
    | with_reducible apply FitsOut.next
    | with_reducible apply FitsOut.fault
    | (intro _)
    | with_reducible apply Fits.ite
    | dsimp only
    | split
    | (refine Fits.pair ‹_ = (_, _)› ?_)
    | (refine Fits.pair2 ‹_ = (_, _, _)› ?_)

structure Touches.execFollowAlternate (N : Part → Prop) (le : Fin 2) : Prop where
  k_LE_RX_PLAN_STAT_entropy_active : N (.reg (F.LE_RX_PLAN_STAT_entropy_active le.val).key)
  h_rx : N (.rx ((le.val : Nat) != 0))

theorem FitsOut.execFollowAlternate (le : Fin 2) (s : State) (h : Fits N s0 s) (tch : Touches.execFollowAlternate N le) :
    FitsOut N s0 (execFollowAlternate le s) := by
  obtain ⟨k_LE_RX_PLAN_STAT_entropy_active, h_rx⟩ := tch
  unfold Sys2Proof.Machine.execFollowAlternate
  repeat' first
    | with_reducible assumption
    | with_reducible apply k_LE_RX_PLAN_STAT_entropy_active
    | with_reducible apply Fits.setF
    | with_reducible apply Fits.modRx
    | with_reducible apply FitsOut.ite
    | with_reducible apply FitsOut.next
    | with_reducible apply FitsOut.fault
    | (intro _)
    | with_reducible apply Fits.ite
    | dsimp only
    | split
    | (refine Fits.pair ‹_ = (_, _)› ?_)
    | (refine Fits.pair2 ‹_ = (_, _, _)› ?_)

structure Touches.execFollowGiveUp (N : Part → Prop) (le : Fin 2) : Prop where
  k_LE_RX_PLAN_STAT_entropy_active : N (.reg (F.LE_RX_PLAN_STAT_entropy_active le.val).key)
  h_rx : N (.rx ((le.val : Nat) != 0))

theorem FitsOut.execFollowGiveUp (le : Fin 2) (s : State) (h : Fits N s0 s) (tch : Touches.execFollowGiveUp N le) :
    FitsOut N s0 (execFollowGiveUp le s) := by
  obtain ⟨k_LE_RX_PLAN_STAT_entropy_active, h_rx⟩ := tch
  unfold Sys2Proof.Machine.execFollowGiveUp
  repeat' first
    | with_reducible assumption
    | with_reducible apply k_LE_RX_PLAN_STAT_entropy_active
    | with_reducible apply Fits.setF
    | with_reducible apply Fits.modRx
    | with_reducible apply FitsOut.ite
    | with_reducible apply FitsOut.next
    | with_reducible apply FitsOut.fault
    | (intro _)
    | with_reducible apply Fits.ite
    | dsimp only
    | split
    | (refine Fits.pair ‹_ = (_, _)› ?_)
    | (refine Fits.pair2 ‹_ = (_, _, _)› ?_)

structure Touches.followInFrame (N : Part → Prop) (le : Nat) : Prop where
  k_LE_RX_FOLLOW_STAT_follows_applied : N (.reg (F.LE_RX_FOLLOW_STAT_follows_applied le).key)
  h_rx : N (.rx ((le : Nat) != 0))
  c_takeEntropy : Touches.takeEntropy N le

theorem Fits.followInFrame (le : Nat) (s : State) (h : Fits N s0 s) (tch : Touches.followInFrame N le) :
    Fits N s0 (followInFrame le s) := by
  obtain ⟨k_LE_RX_FOLLOW_STAT_follows_applied, h_rx, c_takeEntropy⟩ := tch
  unfold Sys2Proof.Machine.followInFrame
  repeat' first
    | with_reducible assumption
    | with_reducible apply k_LE_RX_FOLLOW_STAT_follows_applied
    | with_reducible apply Fits.incWrap
    | with_reducible apply Fits.modRx
    | with_reducible apply Fits.takeEntropy
    | (intro _)
    | with_reducible apply Fits.ite
    | dsimp only
    | split
    | (refine Fits.pair ‹_ = (_, _)› ?_)
    | (refine Fits.pair2 ‹_ = (_, _, _)› ?_)

structure Touches.setEcho (N : Part → Prop) (le : Nat) : Prop where
  h_rx : N (.rx ((le : Nat) != 0))

theorem Fits.setEcho (le : Nat) (r : Nat) (e : Echo) (s : State) (h : Fits N s0 s) (tch : Touches.setEcho N le) :
    Fits N s0 (setEcho le r e s) := by
  obtain ⟨h_rx⟩ := tch
  unfold Sys2Proof.Machine.setEcho
  repeat' first
    | with_reducible assumption
    | with_reducible apply Fits.modRx
    | (intro _)
    | with_reducible apply Fits.ite
    | dsimp only
    | split
    | (refine Fits.pair ‹_ = (_, _)› ?_)
    | (refine Fits.pair2 ‹_ = (_, _, _)› ?_)

structure Touches.reflSet (N : Part → Prop) (le : Nat) (r : Nat) : Prop where
  k_LE_RX_REFL_STAT_delay : N (.reg (F.LE_RX_REFL_STAT_delay le r).key)
  k_LE_RX_REFL_STAT_state : N (.reg (F.LE_RX_REFL_STAT_state le r).key)
  k_LE_RX_REFL_SUM_slots : N (.reg (F.LE_RX_REFL_SUM_slots le).key)

theorem Fits.reflSet (le : Nat) (r : Nat) (v : Nat) (d : Nat) (s : State) (h : Fits N s0 s) (tch : Touches.reflSet N le r) :
    Fits N s0 (reflSet le r v d s) := by
  obtain ⟨k_LE_RX_REFL_STAT_delay, k_LE_RX_REFL_STAT_state, k_LE_RX_REFL_SUM_slots⟩ := tch
  unfold Sys2Proof.Machine.reflSet
  repeat' first
    | with_reducible assumption
    | with_reducible apply k_LE_RX_REFL_STAT_delay
    | with_reducible apply k_LE_RX_REFL_STAT_state
    | with_reducible apply k_LE_RX_REFL_SUM_slots
    | with_reducible apply Fits.setF
    | (intro _)
    | with_reducible apply Fits.ite
    | dsimp only
    | split
    | (refine Fits.pair ‹_ = (_, _)› ?_)
    | (refine Fits.pair2 ‹_ = (_, _, _)› ?_)

structure Touches.reflResidual (N : Part → Prop) (le : Nat) : Prop where
  k_LE_RX_REFL_SUM_residual : N (.reg (F.LE_RX_REFL_SUM_residual le).key)

theorem Fits.reflResidual (le : Nat) (s : State) (h : Fits N s0 s) (tch : Touches.reflResidual N le) :
    Fits N s0 (reflResidual le s) := by
  obtain ⟨k_LE_RX_REFL_SUM_residual⟩ := tch
  unfold Sys2Proof.Machine.reflResidual
  repeat' first
    | with_reducible assumption
    | with_reducible apply k_LE_RX_REFL_SUM_residual
    | with_reducible apply Fits.setF
    | with_reducible apply Fits.foldlPair
    | with_reducible apply Fits.foldl
    | (intro _)
    | with_reducible apply Fits.ite
    | dsimp only
    | split
    | (refine Fits.pair ‹_ = (_, _)› ?_)
    | (refine Fits.pair2 ‹_ = (_, _, _)› ?_)

structure Touches.execReflCandidate (N : Part → Prop) (le : Fin 2) : Prop where
  k_LE_RX_REFL_OVF_count : N (.reg (F.LE_RX_REFL_OVF_count le.val).key)
  c_evt : Touches.evt N (lep le.val 0x1A)
  c_reflSet : ∀ (a1 : Nat), Touches.reflSet N le.val a1
  c_reflResidual : Touches.reflResidual N le.val

theorem FitsOut.execReflCandidate (le : Fin 2) (peak : Nat) (level : Int) (s : State) (h : Fits N s0 s) (tch : Touches.execReflCandidate N le) :
    FitsOut N s0 (execReflCandidate le peak level s) := by
  obtain ⟨k_LE_RX_REFL_OVF_count, c_evt, c_reflSet, c_reflResidual⟩ := tch
  unfold Sys2Proof.Machine.execReflCandidate
  repeat' first
    | with_reducible assumption
    | with_reducible apply k_LE_RX_REFL_OVF_count
    | with_reducible exact c_reflSet _
    | with_reducible apply Fits.bump
    | with_reducible apply Fits.evt
    | with_reducible apply Fits.reflSet
    | with_reducible apply Fits.reflResidual
    | with_reducible apply FitsOut.ite
    | with_reducible apply FitsOut.next
    | with_reducible apply FitsOut.fault
    | (intro _)
    | with_reducible apply Fits.ite
    | dsimp only
    | split
    | (refine Fits.pair ‹_ = (_, _)› ?_)
    | (refine Fits.pair2 ‹_ = (_, _, _)› ?_)

structure Touches.execReflCandidateEnd (N : Part → Prop) (le : Fin 2) (r : Fin 8) : Prop where
  h_drawn : N .drawn
  k_LE_RX_REFL_LVL_level : N (.reg (F.LE_RX_REFL_LVL_level le.val r.val).key)
  k_LE_RX_REFL_LVL_suppression : N (.reg (F.LE_RX_REFL_LVL_suppression le.val r.val).key)
  c_evt : Touches.evt N (lep le.val 0x1A)
  c_setEcho : Touches.setEcho N le.val
  c_reflSet : Touches.reflSet N le.val r.val
  c_reflResidual : Touches.reflResidual N le.val

theorem FitsOut.execReflCandidateEnd (le : Fin 2) (r : Fin 8) (level : Int) (suppression : Int) (s : State) (h : Fits N s0 s) (tch : Touches.execReflCandidateEnd N le r) :
    FitsOut N s0 (execReflCandidateEnd le r level suppression s) := by
  obtain ⟨h_drawn, k_LE_RX_REFL_LVL_level, k_LE_RX_REFL_LVL_suppression, c_evt, c_setEcho, c_reflSet, c_reflResidual⟩ := tch
  unfold Sys2Proof.Machine.execReflCandidateEnd
  repeat' first
    | with_reducible assumption
    | with_reducible apply k_LE_RX_REFL_LVL_level
    | with_reducible apply k_LE_RX_REFL_LVL_suppression
    | with_reducible apply Fits.setF
    | with_reducible apply Fits.evt
    | with_reducible apply Fits.setEcho
    | with_reducible apply Fits.reflSet
    | with_reducible apply Fits.reflResidual
    | with_reducible apply FitsOut.ite
    | with_reducible apply FitsOut.next
    | with_reducible apply FitsOut.fault
    | (intro _)
    | with_reducible apply Fits.ite
    | dsimp only
    | split
    | (refine Fits.pair ‹_ = (_, _)› ?_)
    | (refine Fits.pair2 ‹_ = (_, _, _)› ?_)
    | with_reducible apply Fits.upd_drawn

structure Touches.execReflLost (N : Part → Prop) (le : Fin 2) (r : Fin 8) : Prop where
  c_evt : Touches.evt N (lep le.val 0x1A)
  c_setEcho : Touches.setEcho N le.val
  c_reflSet : Touches.reflSet N le.val r.val
  c_reflResidual : Touches.reflResidual N le.val

theorem FitsOut.execReflLost (le : Fin 2) (r : Fin 8) (s : State) (h : Fits N s0 s) (tch : Touches.execReflLost N le r) :
    FitsOut N s0 (execReflLost le r s) := by
  obtain ⟨c_evt, c_setEcho, c_reflSet, c_reflResidual⟩ := tch
  unfold Sys2Proof.Machine.execReflLost
  repeat' first
    | with_reducible assumption
    | with_reducible apply Fits.evt
    | with_reducible apply Fits.setEcho
    | with_reducible apply Fits.reflSet
    | with_reducible apply Fits.reflResidual
    | with_reducible apply FitsOut.ite
    | with_reducible apply FitsOut.next
    | with_reducible apply FitsOut.fault
    | (intro _)
    | with_reducible apply Fits.ite
    | dsimp only
    | split
    | (refine Fits.pair ‹_ = (_, _)› ?_)
    | (refine Fits.pair2 ‹_ = (_, _, _)› ?_)

structure Touches.execReflDelayMove (N : Part → Prop) (le : Fin 2) (r : Fin 8) : Prop where
  k_LE_RX_REFL_STAT_delay : N (.reg (F.LE_RX_REFL_STAT_delay le.val r.val).key)
  c_setEcho : Touches.setEcho N le.val

theorem FitsOut.execReflDelayMove (le : Fin 2) (r : Fin 8) (offset : Int) (s : State) (h : Fits N s0 s) (tch : Touches.execReflDelayMove N le r) :
    FitsOut N s0 (execReflDelayMove le r offset s) := by
  obtain ⟨k_LE_RX_REFL_STAT_delay, c_setEcho⟩ := tch
  unfold Sys2Proof.Machine.execReflDelayMove
  repeat' first
    | with_reducible assumption
    | with_reducible apply k_LE_RX_REFL_STAT_delay
    | with_reducible apply Fits.setF
    | with_reducible apply Fits.setEcho
    | with_reducible apply FitsOut.ite
    | with_reducible apply FitsOut.next
    | with_reducible apply FitsOut.fault
    | (intro _)
    | with_reducible apply Fits.ite
    | dsimp only
    | split
    | (refine Fits.pair ‹_ = (_, _)› ?_)
    | (refine Fits.pair2 ‹_ = (_, _, _)› ?_)

structure Touches.histInvalid (N : Part → Prop) (le : Nat) : Prop where
  h_rx : N (.rx ((le : Nat) != 0))
  h_tx : N (.tx ((le : Nat) != 0))
  c_evt : Touches.evt N (lep le 0x1A)

theorem Fits.histInvalid (le : Nat) (s : State) (h : Fits N s0 s) (tch : Touches.histInvalid N le) :
    Fits N s0 (histInvalid le s) := by
  obtain ⟨h_rx, h_tx, c_evt⟩ := tch
  unfold Sys2Proof.Machine.histInvalid
  repeat' first
    | with_reducible assumption
    | with_reducible apply Fits.evt
    | with_reducible apply Fits.modTx
    | with_reducible apply Fits.modRx
    | (intro _)
    | with_reducible apply Fits.ite
    | dsimp only
    | split
    | (refine Fits.pair ‹_ = (_, _)› ?_)
    | (refine Fits.pair2 ‹_ = (_, _, _)› ?_)

structure Touches.echoTrack (N : Part → Prop) (le : Nat) : Prop where
  h_drawn : N .drawn
  k_LE_RX_REFL_LVL_level : ∀ (a1 : Nat), N (.reg (F.LE_RX_REFL_LVL_level le a1).key)
  k_LE_RX_REFL_LVL_suppression : ∀ (a1 : Nat), N (.reg (F.LE_RX_REFL_LVL_suppression le a1).key)
  c_setEcho : Touches.setEcho N le
  c_reflResidual : Touches.reflResidual N le

theorem Fits.echoTrack (le : Nat) (s : State) (h : Fits N s0 s) (tch : Touches.echoTrack N le) :
    Fits N s0 (echoTrack le s) := by
  obtain ⟨h_drawn, k_LE_RX_REFL_LVL_level, k_LE_RX_REFL_LVL_suppression, c_setEcho, c_reflResidual⟩ := tch
  unfold Sys2Proof.Machine.echoTrack
  repeat' first
    | with_reducible assumption
    | with_reducible apply k_LE_RX_REFL_LVL_level
    | with_reducible apply k_LE_RX_REFL_LVL_suppression
    | with_reducible apply Fits.setF
    | with_reducible apply Fits.draw
    | with_reducible apply Fits.setEcho
    | with_reducible apply Fits.reflResidual
    | with_reducible apply Fits.forEach
    | (intro _)
    | with_reducible apply Fits.ite
    | dsimp only
    | split
    | (refine Fits.pair ‹_ = (_, _)› ?_)
    | (refine Fits.pair2 ‹_ = (_, _, _)› ?_)
    | with_reducible apply Fits.upd_drawn

structure Touches.reflCommit (N : Part → Prop) (le : Nat) : Prop where
  c_reflSet : ∀ (a1 : Nat), Touches.reflSet N le a1
  c_reflResidual : Touches.reflResidual N le

theorem Fits.reflCommit (le : Nat) (s : State) (h : Fits N s0 s) (tch : Touches.reflCommit N le) :
    Fits N s0 (reflCommit le s) := by
  obtain ⟨c_reflSet, c_reflResidual⟩ := tch
  unfold Sys2Proof.Machine.reflCommit
  repeat' first
    | with_reducible assumption
    | with_reducible exact c_reflSet _
    | with_reducible apply Fits.reflSet
    | with_reducible apply Fits.reflResidual
    | with_reducible apply Fits.forEach
    | (intro _)
    | with_reducible apply Fits.ite
    | dsimp only
    | split
    | (refine Fits.pair ‹_ = (_, _)› ?_)
    | (refine Fits.pair2 ‹_ = (_, _, _)› ?_)

structure Touches.nlcLoad (N : Part → Prop) (le : Nat) : Prop where
  h_rx : N (.rx ((le : Nat) != 0))

theorem Fits.nlcLoad (le : Nat) (s : State) (h : Fits N s0 s) (tch : Touches.nlcLoad N le) :
    Fits N s0 (nlcLoad le s) := by
  obtain ⟨h_rx⟩ := tch
  unfold Sys2Proof.Machine.nlcLoad
  repeat' first
    | with_reducible assumption
    | with_reducible apply Fits.modRx
    | (intro _)
    | with_reducible apply Fits.ite
    | dsimp only
    | split
    | (refine Fits.pair ‹_ = (_, _)› ?_)
    | (refine Fits.pair2 ‹_ = (_, _, _)› ?_)

structure Touches.rxReport (N : Part → Prop) (le : Nat) : Prop where
  k_LE_RX_CD_EST_cd : N (.reg (F.LE_RX_CD_EST_cd le).key)
  k_LE_RX_CD_RANGE_dmax : N (.reg (F.LE_RX_CD_RANGE_dmax le).key)
  k_LE_RX_PLAN_STAT_baud_active : N (.reg (F.LE_RX_PLAN_STAT_baud_active le).key)
  k_LE_RX_PLAN_STAT_entropy_active : N (.reg (F.LE_RX_PLAN_STAT_entropy_active le).key)
  k_LE_RX_PLAN_STAT_modulation_active : N (.reg (F.LE_RX_PLAN_STAT_modulation_active le).key)
  c_nlcLoad : Touches.nlcLoad N le

theorem Fits.rxReport (le : Nat) (s : State) (h : Fits N s0 s) (tch : Touches.rxReport N le) :
    Fits N s0 (rxReport le s) := by
  obtain ⟨k_LE_RX_CD_EST_cd, k_LE_RX_CD_RANGE_dmax, k_LE_RX_PLAN_STAT_baud_active, k_LE_RX_PLAN_STAT_entropy_active, k_LE_RX_PLAN_STAT_modulation_active, c_nlcLoad⟩ := tch
  unfold Sys2Proof.Machine.rxReport
  repeat' first
    | with_reducible assumption
    | with_reducible apply k_LE_RX_CD_EST_cd
    | with_reducible apply k_LE_RX_CD_RANGE_dmax
    | with_reducible apply k_LE_RX_PLAN_STAT_baud_active
    | with_reducible apply k_LE_RX_PLAN_STAT_entropy_active
    | with_reducible apply k_LE_RX_PLAN_STAT_modulation_active
    | with_reducible apply Fits.setF
    | with_reducible apply Fits.nlcLoad
    | (intro _)
    | with_reducible apply Fits.ite
    | dsimp only
    | split
    | (refine Fits.pair ‹_ = (_, _)› ?_)
    | (refine Fits.pair2 ‹_ = (_, _, _)› ?_)

structure Touches.rxBaudMax (N : Part → Prop) (le : Nat) : Prop where
  k_LE_RX_BAUD_MAX_baud : N (.reg (F.LE_RX_BAUD_MAX_baud le).key)
  c_evt : Touches.evt N (lep le 0x18)

theorem Fits.rxBaudMax (le : Nat) (s : State) (h : Fits N s0 s) (tch : Touches.rxBaudMax N le) :
    Fits N s0 (rxBaudMax le s) := by
  obtain ⟨k_LE_RX_BAUD_MAX_baud, c_evt⟩ := tch
  unfold Sys2Proof.Machine.rxBaudMax
  repeat' first
    | with_reducible assumption
    | with_reducible apply k_LE_RX_BAUD_MAX_baud
    | with_reducible apply Fits.setF
    | with_reducible apply Fits.evt
    | (intro _)
    | with_reducible apply Fits.ite
    | dsimp only
    | split
    | (refine Fits.pair ‹_ = (_, _)› ?_)
    | (refine Fits.pair2 ‹_ = (_, _, _)› ?_)

structure Touches.qualPut (N : Part → Prop) (le : Nat) : Prop where
  h_rx : N (.rx ((le : Nat) != 0))

theorem Fits.qualPut (le : Nat) (f : Field) (v : Nat) (s : State) (h : Fits N s0 s) (tch : Touches.qualPut N le) :
    Fits N s0 (qualPut le f v s) := by
  obtain ⟨h_rx⟩ := tch
  unfold Sys2Proof.Machine.qualPut
  repeat' first
    | with_reducible assumption
    | with_reducible exact k_f
    | with_reducible apply Fits.modRx
    | (intro _)
    | with_reducible apply Fits.ite
    | dsimp only
    | split
    | (refine Fits.pair ‹_ = (_, _)› ?_)
    | (refine Fits.pair2 ‹_ = (_, _, _)› ?_)

structure Touches.qualRecord (N : Part → Prop) (le : Nat) : Prop where
  h_drawn : N .drawn
  h_rx : N (.rx ((le : Nat) != 0))
  c_qualPut : Touches.qualPut N le

theorem Fits.qualRecord (le : Nat) (k : Nat) (q : Option Quality) (s : State) (h : Fits N s0 s) (tch : Touches.qualRecord N le) :
    Fits N s0 (qualRecord le k q s) := by
  obtain ⟨h_drawn, h_rx, c_qualPut⟩ := tch
  unfold Sys2Proof.Machine.qualRecord
  repeat' first
    | with_reducible assumption
    | with_reducible apply Fits.draw
    | with_reducible apply Fits.err
    | with_reducible apply Fits.modRx
    | with_reducible apply Fits.qualPut
    | with_reducible apply Fits.forEach
    | (intro _)
    | with_reducible apply Fits.ite
    | dsimp only
    | split
    | (refine Fits.pair ‹_ = (_, _)› ?_)
    | (refine Fits.pair2 ‹_ = (_, _, _)› ?_)

structure Touches.qualShow (N : Part → Prop) (le : Nat) : Prop where
  k_qual : ∀ k, lep le 0x1D * 0x8000 + 0x800 ≤ k → k < lep le 0x1E * 0x8000 → N (.reg k)

theorem Fits.qualShow (le : Nat) (s : State) (h : Fits N s0 s) (tch : Touches.qualShow N le) :
    Fits N s0 (qualShow le s) := by
  obtain ⟨k_qual⟩ := tch
  refine Fits.upd_fields h _ (fun k hk => Tbl.find_overlay_other _ _ _ ?_) fun t => Tbl.rising_overlay t _
  by_contra hc
  simp only [Bool.not_eq_false, Bool.and_eq_true, decide_eq_true_eq] at hc
  exact hk (k_qual k hc.1 hc.2)

structure Touches.fecInterval (N : Part → Prop) (le : Nat) : Prop where
  h_drawn : N .drawn
  k_LE_FEC_QENG_deg_raw : N (.reg (F.LE_FEC_QENG_deg_raw le).key)
  k_LE_FEC_QENG_exc_raw : N (.reg (F.LE_FEC_QENG_exc_raw le).key)
  k_LE_FEC_QENG_q_eng : N (.reg (F.LE_FEC_QENG_q_eng le).key)
  h_fec : N (.fec ((le : Nat) != 0))
  c_level : Touches.level N (lep le 0x30)

theorem Fits.fecInterval (le : Nat) (s : State) (h : Fits N s0 s) (tch : Touches.fecInterval N le) :
    Fits N s0 (fecInterval le s) := by
  obtain ⟨h_drawn, k_LE_FEC_QENG_deg_raw, k_LE_FEC_QENG_exc_raw, k_LE_FEC_QENG_q_eng, h_fec, c_level⟩ := tch
  unfold Sys2Proof.Machine.fecInterval
  repeat' first
    | with_reducible assumption
    | with_reducible apply k_LE_FEC_QENG_deg_raw
    | with_reducible apply k_LE_FEC_QENG_exc_raw
    | with_reducible apply k_LE_FEC_QENG_q_eng
    | with_reducible apply Fits.setF
    | with_reducible apply Fits.setB
    | with_reducible apply Fits.draw
    | with_reducible apply Fits.level
    | with_reducible apply Fits.modFec
    | (intro _)
    | with_reducible apply Fits.ite
    | dsimp only
    | split
    | (refine Fits.pair ‹_ = (_, _)› ?_)
    | (refine Fits.pair2 ‹_ = (_, _, _)› ?_)

structure Touches.overTake (N : Part → Prop) (le : Nat) : Prop where
  h_drawn : N .drawn
  k_LE_RX_ADC_OVR_count : ∀ (a1 : Nat), N (.reg (F.LE_RX_ADC_OVR_count le a1).key)
  c_level : Touches.level N (lep le 0x19)

theorem Fits.overTake (le : Nat) (s : State) (h : Fits N s0 s) (tch : Touches.overTake N le) :
    Fits N s0 (overTake le s) := by
  obtain ⟨h_drawn, k_LE_RX_ADC_OVR_count, c_level⟩ := tch
  unfold Sys2Proof.Machine.overTake
  repeat' first
    | with_reducible assumption
    | with_reducible apply k_LE_RX_ADC_OVR_count
    | with_reducible apply Fits.bump
    | with_reducible apply Fits.level
    | with_reducible apply Fits.forEach
    | (intro _)
    | with_reducible apply Fits.ite
    | dsimp only
    | split
    | (refine Fits.pair ‹_ = (_, _)› ?_)
    | (refine Fits.pair2 ‹_ = (_, _, _)› ?_)
    | with_reducible apply Fits.upd_drawn

theorem Fits.estimatePut (f : Field) (s : State) (h : Fits N s0 s) (h_drawn : N .drawn) (k_f : N (.reg f.key)) :
    Fits N s0 (estimatePut f s) := by
  unfold Sys2Proof.Machine.estimatePut
  repeat' first
    | with_reducible assumption
    | with_reducible exact k_f
    | with_reducible apply Fits.setF
    | with_reducible apply Fits.draw
    | (intro _)
    | with_reducible apply Fits.ite
    | dsimp only
    | split
    | (refine Fits.pair ‹_ = (_, _)› ?_)
    | (refine Fits.pair2 ‹_ = (_, _, _)› ?_)

structure Touches.frontEstimate (N : Part → Prop) (le : Nat) : Prop where
  h_drawn : N .drawn
  k_LE_RX_IQ_EST_X_gain : N (.reg (F.LE_RX_IQ_EST_X_gain le).key)
  k_LE_RX_IQ_EST_X_phase : N (.reg (F.LE_RX_IQ_EST_X_phase le).key)
  k_LE_RX_IQ_EST_Y_gain : N (.reg (F.LE_RX_IQ_EST_Y_gain le).key)
  k_LE_RX_IQ_EST_Y_phase : N (.reg (F.LE_RX_IQ_EST_Y_phase le).key)
  k_LE_RX_LANE_SKEW_EST_skew : ∀ (a1 : Nat), N (.reg (F.LE_RX_LANE_SKEW_EST_skew le a1).key)

theorem Fits.frontEstimate (le : Nat) (s : State) (h : Fits N s0 s) (tch : Touches.frontEstimate N le) :
    Fits N s0 (frontEstimate le s) := by
  obtain ⟨h_drawn, k_LE_RX_IQ_EST_X_gain, k_LE_RX_IQ_EST_X_phase, k_LE_RX_IQ_EST_Y_gain, k_LE_RX_IQ_EST_Y_phase, k_LE_RX_LANE_SKEW_EST_skew⟩ := tch
  unfold Sys2Proof.Machine.frontEstimate
  repeat' first
    | with_reducible assumption
    | with_reducible apply k_LE_RX_IQ_EST_X_gain
    | with_reducible apply k_LE_RX_IQ_EST_X_phase
    | with_reducible apply k_LE_RX_IQ_EST_Y_gain
    | with_reducible apply k_LE_RX_IQ_EST_Y_phase
    | with_reducible apply k_LE_RX_LANE_SKEW_EST_skew
    | with_reducible apply Fits.estimatePut
    | with_reducible apply Fits.forEach
    | (intro _)
    | with_reducible apply Fits.ite
    | dsimp only
    | split
    | (refine Fits.pair ‹_ = (_, _)› ?_)
    | (refine Fits.pair2 ‹_ = (_, _, _)› ?_)

structure Touches.residualLimit (N : Part → Prop) (le : Nat) : Prop where
  c_pilotsLost : Touches.pilotsLost N le

theorem Fits.residualLimit (le : Nat) (s : State) (h : Fits N s0 s) (tch : Touches.residualLimit N le) :
    Fits N s0 (residualLimit le s) := by
  obtain ⟨c_pilotsLost⟩ := tch
  unfold Sys2Proof.Machine.residualLimit
  repeat' first
    | with_reducible assumption
    | with_reducible apply Fits.pilotsLost
    | with_reducible apply Fits.forEach
    | (intro _)
    | with_reducible apply Fits.ite
    | dsimp only
    | split
    | (refine Fits.pair ‹_ = (_, _)› ?_)
    | (refine Fits.pair2 ‹_ = (_, _, _)› ?_)

structure Touches.upstreamShift (N : Part → Prop) (le : Nat) : Prop where
  h_p2mp : N (.p2mp ((le : Nat) != 0))

theorem Fits.upstreamShift (le : Nat) (s : State) (h : Fits N s0 s) (tch : Touches.upstreamShift N le) :
    Fits N s0 (upstreamShift le s) := by
  obtain ⟨h_p2mp⟩ := tch
  unfold Sys2Proof.Machine.upstreamShift
  repeat' first
    | with_reducible assumption
    | with_reducible apply Fits.modP2
    | (intro _)
    | with_reducible apply Fits.ite
    | dsimp only
    | split
    | (refine Fits.pair ‹_ = (_, _)› ?_)
    | (refine Fits.pair2 ‹_ = (_, _, _)› ?_)

structure Touches.execQualInterval (N : Part → Prop) (le : Fin 2) : Prop where
  k_LE_RX_LQ_MIN_index : N (.reg (F.LE_RX_LQ_MIN_index le.val).key)
  k_LE_RX_LQ_MIN_lq : N (.reg (F.LE_RX_LQ_MIN_lq le.val).key)
  k_LE_RX_QUAL_SEQ_seq : N (.reg (F.LE_RX_QUAL_SEQ_seq le.val).key)
  k_LE_RX_QUAL_T0_HI_t : N (.reg (F.LE_RX_QUAL_T0_HI_t le.val).key)
  k_LE_RX_QUAL_T0_LO_t : N (.reg (F.LE_RX_QUAL_T0_LO_t le.val).key)
  h_rx : N (.rx ((le.val : Nat) != 0))
  c_evt : Touches.evt N (lep le.val 0x1C)
  c_trackCommon : Touches.trackCommon N le.val
  c_echoTrack : Touches.echoTrack N le.val
  c_qualPut : Touches.qualPut N le.val
  c_qualRecord : Touches.qualRecord N le.val
  c_qualShow : Touches.qualShow N le.val
  c_fecInterval : Touches.fecInterval N le.val
  c_overTake : Touches.overTake N le.val
  c_frontEstimate : Touches.frontEstimate N le.val
  c_residualLimit : Touches.residualLimit N le.val
  c_upstreamShift : Touches.upstreamShift N le.val

theorem FitsOut.execQualInterval (le : Fin 2) (q : List (Fin 32 × Quality)) (s : State) (h : Fits N s0 s) (tch : Touches.execQualInterval N le) :
    FitsOut N s0 (execQualInterval le q s) := by
  obtain ⟨k_LE_RX_LQ_MIN_index, k_LE_RX_LQ_MIN_lq, k_LE_RX_QUAL_SEQ_seq, k_LE_RX_QUAL_T0_HI_t, k_LE_RX_QUAL_T0_LO_t, h_rx, c_evt, c_trackCommon, c_echoTrack, c_qualPut, c_qualRecord, c_qualShow, c_fecInterval, c_overTake, c_frontEstimate, c_residualLimit, c_upstreamShift⟩ := tch
  unfold Sys2Proof.Machine.execQualInterval
  repeat' first
    | with_reducible assumption
    | with_reducible apply k_LE_RX_LQ_MIN_index
    | with_reducible apply k_LE_RX_LQ_MIN_lq
    | with_reducible apply k_LE_RX_QUAL_SEQ_seq
    | with_reducible apply k_LE_RX_QUAL_T0_HI_t
    | with_reducible apply k_LE_RX_QUAL_T0_LO_t
    | with_reducible apply Fits.setF
    | with_reducible apply Fits.incWrap
    | with_reducible apply Fits.evt
    | with_reducible apply Fits.modRx
    | with_reducible apply Fits.trackCommon
    | with_reducible apply Fits.echoTrack
    | with_reducible apply Fits.qualPut
    | with_reducible apply Fits.qualRecord
    | with_reducible apply Fits.qualShow
    | with_reducible apply Fits.fecInterval
    | with_reducible apply Fits.overTake
    | with_reducible apply Fits.frontEstimate
    | with_reducible apply Fits.residualLimit
    | with_reducible apply Fits.upstreamShift
    | with_reducible apply Fits.forEach
    | with_reducible apply FitsOut.ite
    | with_reducible apply FitsOut.next
    | with_reducible apply FitsOut.fault
    | (intro _)
    | with_reducible apply Fits.ite
    | dsimp only
    | split
    | (refine Fits.pair ‹_ = (_, _)› ?_)
    | (refine Fits.pair2 ‹_ = (_, _, _)› ?_)

end Sys2Proof.Machine
end

