-- ==== Sys2Proof/Laws/FitsFramer.lean ====
section
/-! SUPPORT. What the operations of Machine/Framer.lean touch (a structure of parts for each, over those of the operations it calls), and
that each keeps the canonical form. -/
set_option linter.unusedTactic false
set_option linter.unreachableTactic false
namespace Sys2Proof.Machine

variable {N : Part → Prop} {s0 : State}

structure Touches.rankReport (N : Part → Prop) (le : Nat) : Prop where
  k_LE_GLF_CONT_AUX_rank : ∀ (a1 : Nat), N (.reg (F.LE_GLF_CONT_AUX_rank le a1).key)

theorem Fits.rankReport (le : Nat) (s : State) (h : Fits N s0 s) (tch : Touches.rankReport N le) :
    Fits N s0 (rankReport le s) := by
  obtain ⟨k_LE_GLF_CONT_AUX_rank⟩ := tch
  unfold Sys2Proof.Machine.rankReport
  repeat' first
    | with_reducible assumption
    | with_reducible apply k_LE_GLF_CONT_AUX_rank
    | with_reducible apply Fits.setF
    | with_reducible apply Fits.forEach
    | (intro _)
    | with_reducible apply Fits.ite
    | dsimp only
    | split
    | (refine Fits.pair ‹_ = (_, _)› ?_)
    | (refine Fits.pair2 ‹_ = (_, _, _)› ?_)

structure Touches.ohPut (N : Part → Prop) (le : Nat) : Prop where
  h_glf : N (.glf ((le : Nat) != 0))

theorem Fits.ohPut (le : Nat) (q : Nat) (prec : Nat) (type : Nat) (body : List Byte) (s : State) (h : Fits N s0 s) (tch : Touches.ohPut N le) :
    Fits N s0 (ohPut le q prec type body s) := by
  obtain ⟨h_glf⟩ := tch
  unfold Sys2Proof.Machine.ohPut
  repeat' first
    | with_reducible assumption
    | with_reducible apply Fits.modGlf
    | (intro _)
    | with_reducible apply Fits.ite
    | dsimp only
    | split
    | (refine Fits.pair ‹_ = (_, _)› ?_)
    | (refine Fits.pair2 ‹_ = (_, _, _)› ?_)

structure Touches.ohForward (N : Part → Prop) : Prop where
  c_ohPut : ∀ (a0 : Nat), Touches.ohPut N a0

theorem Fits.ohForward (r : Nat) (e : List Byte) (s : State) (h : Fits N s0 s) (tch : Touches.ohForward N) :
    Fits N s0 (ohForward r e s) := by
  obtain ⟨c_ohPut⟩ := tch
  unfold Sys2Proof.Machine.ohForward
  repeat' first
    | with_reducible assumption
    | with_reducible exact c_ohPut _
    | with_reducible apply Fits.ohPut
    | (intro _)
    | with_reducible apply Fits.ite
    | dsimp only
    | split
    | (refine Fits.pair ‹_ = (_, _)› ?_)
    | (refine Fits.pair2 ‹_ = (_, _, _)› ?_)

structure Touches.ohReceive (N : Part → Prop) (le : Nat) : Prop where
  h_ev : N .ev
  k_LE_GLF_CNT_count : N (.reg (F.LE_GLF_CNT_count le 2).key)
  h_glf : N (.glf ((le : Nat) != 0))
  c_ohForward : Touches.ohForward N

theorem Fits.ohReceive (le : Nat) (k : Nat) (hh : Option (List Byte)) (chan : List Byte) (s : State) (h : Fits N s0 s) (tch : Touches.ohReceive N le) :
    Fits N s0 (ohReceive le k hh chan s) := by
  obtain ⟨h_ev, k_LE_GLF_CNT_count, h_glf, c_ohForward⟩ := tch
  unfold Sys2Proof.Machine.ohReceive
  repeat' first
    | with_reducible assumption
    | with_reducible apply k_LE_GLF_CNT_count
    | with_reducible apply Fits.bump
    | with_reducible apply Fits.datapath
    | with_reducible apply Fits.modGlf
    | with_reducible apply Fits.ohForward
    | with_reducible apply Fits.forEach
    | (intro _)
    | with_reducible apply Fits.ite
    | dsimp only
    | split
    | (refine Fits.pair ‹_ = (_, _)› ?_)
    | (refine Fits.pair2 ‹_ = (_, _, _)› ?_)

structure Touches.glfSend (N : Part → Prop) (le : Nat) : Prop where
  h_ev : N .ev
  h_glf : N (.glf ((le : Nat) != 0))
  c_ohPut : Touches.ohPut N le

theorem Fits.glfSend (le : Nat) (q : Nat) (fc : Nat) (gm : Nat) (stat : Nat) (aisFrame : Bool) (s : State) (h : Fits N s0 s) (tch : Touches.glfSend N le) :
    Fits N s0 (glfSend le q fc gm stat aisFrame s) := by
  obtain ⟨h_ev, h_glf, c_ohPut⟩ := tch
  unfold Sys2Proof.Machine.glfSend
  repeat' first
    | with_reducible assumption
    | with_reducible apply Fits.datapath
    | with_reducible apply Fits.modGlf
    | with_reducible apply Fits.ohPut
    | (intro _)
    | with_reducible apply Fits.ite
    | dsimp only
    | split
    | (refine Fits.pair ‹_ = (_, _)› ?_)
    | (refine Fits.pair2 ‹_ = (_, _, _)› ?_)

structure Touches.discardCount (N : Part → Prop) (le : Nat) : Prop where
  h_tx : N (.tx ((le : Nat) != 0))

theorem Fits.discardCount (le : Nat) (n : Nat) (s : State) (h : Fits N s0 s) (tch : Touches.discardCount N le) :
    Fits N s0 (discardCount le n s) := by
  obtain ⟨h_tx⟩ := tch
  unfold Sys2Proof.Machine.discardCount
  repeat' first
    | with_reducible assumption
    | with_reducible apply Fits.modTx
    | (intro _)
    | with_reducible apply Fits.ite
    | dsimp only
    | split
    | (refine Fits.pair ‹_ = (_, _)› ?_)
    | (refine Fits.pair2 ‹_ = (_, _, _)› ?_)

structure Touches.glfFrameTx (N : Part → Prop) (le : Nat) : Prop where
  h_rep : N .rep
  k_LE_GLF_TX_FC_fc : N (.reg (F.LE_GLF_TX_FC_fc le).key)
  h_glf : N (.glf ((le : Nat) != 0))
  h_tx : N (.tx ((le : Nat) != 0))
  c_maskBoundary : Touches.maskBoundary N le
  c_scaleBoundary : Touches.scaleBoundary N le
  c_ohPut : Touches.ohPut N le
  c_glfSend : Touches.glfSend N le
  c_discardCount : Touches.discardCount N le

theorem Fits.glfFrameTx (le : Nat) (s : State) (h : Fits N s0 s) (tch : Touches.glfFrameTx N le) :
    Fits N s0 (glfFrameTx le s) := by
  obtain ⟨h_rep, k_LE_GLF_TX_FC_fc, h_glf, h_tx, c_maskBoundary, c_scaleBoundary, c_ohPut, c_glfSend, c_discardCount⟩ := tch
  unfold Sys2Proof.Machine.glfFrameTx
  repeat' first
    | with_reducible assumption
    | with_reducible apply k_LE_GLF_TX_FC_fc
    | with_reducible apply Fits.setF
    | with_reducible apply Fits.modTx
    | with_reducible apply Fits.modGlf
    | with_reducible apply Fits.trimsTake
    | with_reducible apply Fits.maskBoundary
    | with_reducible apply Fits.scaleBoundary
    | with_reducible apply Fits.ohPut
    | with_reducible apply Fits.glfSend
    | with_reducible apply Fits.discardCount
    | with_reducible apply Fits.forEach
    | (intro _)
    | with_reducible apply Fits.ite
    | dsimp only
    | split
    | (refine Fits.pair ‹_ = (_, _)› ?_)
    | (refine Fits.pair2 ‹_ = (_, _, _)› ?_)

structure Touches.fcTrack (N : Part → Prop) (le : Nat) : Prop where
  k_LE_GLF_CNT_count : N (.reg (F.LE_GLF_CNT_count le 10).key)
  h_glf : N (.glf ((le : Nat) != 0))
  c_evt : Touches.evt N (lep le 0x34)
  c_setMf : Touches.setMf N le

theorem Fits.fcTrack (le : Nat) (k : Nat) (fc : Nat) (s : State) (h : Fits N s0 s) (tch : Touches.fcTrack N le) :
    Fits N s0 (fcTrack le k fc s) := by
  obtain ⟨k_LE_GLF_CNT_count, h_glf, c_evt, c_setMf⟩ := tch
  unfold Sys2Proof.Machine.fcTrack
  repeat' first
    | with_reducible assumption
    | with_reducible apply k_LE_GLF_CNT_count
    | with_reducible apply Fits.bump
    | with_reducible apply Fits.evt
    | with_reducible apply Fits.modGlf
    | with_reducible apply Fits.setMf
    | (intro _)
    | with_reducible apply Fits.ite
    | dsimp only
    | split
    | (refine Fits.pair ‹_ = (_, _)› ?_)
    | (refine Fits.pair2 ‹_ = (_, _, _)› ?_)

structure Touches.headerTake (N : Part → Prop) (le : Nat) (k : Nat) : Prop where
  k_LE_GLF_RX_ID_bundle_id : N (.reg (F.LE_GLF_RX_ID_bundle_id le k).key)
  k_LE_GLF_RX_ID_member_id : N (.reg (F.LE_GLF_RX_ID_member_id le k).key)
  k_LE_GLF_STAT_ais : N (.reg (F.LE_GLF_STAT_ais le).key)
  k_LE_GLF_STAT_bdi : N (.reg (F.LE_GLF_STAT_bdi le).key)
  k_LE_GLF_STAT_ql : N (.reg (F.LE_GLF_STAT_ql le).key)
  h_glf : N (.glf ((le : Nat) != 0))
  c_evt : Touches.evt N (lep le 0x34)

theorem Fits.headerTake (le : Nat) (k : Nat) (hh : List Byte) (s : State) (h : Fits N s0 s) (tch : Touches.headerTake N le k) :
    Fits N s0 (headerTake le k hh s) := by
  obtain ⟨k_LE_GLF_RX_ID_bundle_id, k_LE_GLF_RX_ID_member_id, k_LE_GLF_STAT_ais, k_LE_GLF_STAT_bdi, k_LE_GLF_STAT_ql, h_glf, c_evt⟩ := tch
  unfold Sys2Proof.Machine.headerTake
  repeat' first
    | with_reducible assumption
    | with_reducible apply k_LE_GLF_RX_ID_bundle_id
    | with_reducible apply k_LE_GLF_RX_ID_member_id
    | with_reducible apply k_LE_GLF_STAT_ais
    | with_reducible apply k_LE_GLF_STAT_bdi
    | with_reducible apply k_LE_GLF_STAT_ql
    | with_reducible apply Fits.setF
    | with_reducible apply Fits.setB
    | with_reducible apply Fits.evt
    | with_reducible apply Fits.modGlf
    | (intro _)
    | with_reducible apply Fits.ite
    | dsimp only
    | split
    | (refine Fits.pair ‹_ = (_, _)› ?_)
    | (refine Fits.pair2 ‹_ = (_, _, _)› ?_)

theorem Fits.modGrp (g : Nat) (f : GrpSt → GrpSt) (s : State) (h : Fits N s0 s) (h_grp : N .grp) :
    Fits N s0 (modGrp g f s) := by
  unfold Sys2Proof.Machine.modGrp
  repeat' first
    | with_reducible assumption
    | (intro _)
    | with_reducible apply Fits.ite
    | dsimp only
    | split
    | (refine Fits.pair ‹_ = (_, _)› ?_)
    | (refine Fits.pair2 ‹_ = (_, _, _)› ?_)
    | with_reducible apply Fits.upd_grp

structure Touches.jcReceive (N : Part → Prop) (le : Nat) : Prop where
  h_ev : N .ev
  k_LE_GLF_CNT_count : N (.reg (F.LE_GLF_CNT_count le 3).key)
  k_LE_GLF_CNT_count_1 : N (.reg (F.LE_GLF_CNT_count le 4).key)
  h_glf : N (.glf ((le : Nat) != 0))
  c_evt : Touches.evt N (lep le 0x34)

theorem Fits.jcReceive (le : Nat) (k : Nat) (jc : List (Fin 32 × Word)) (s : State) (h : Fits N s0 s) (tch : Touches.jcReceive N le) :
    Fits N s0 (jcReceive le k jc s) := by
  obtain ⟨h_ev, k_LE_GLF_CNT_count, k_LE_GLF_CNT_count_1, h_glf, c_evt⟩ := tch
  unfold Sys2Proof.Machine.jcReceive
  repeat' first
    | with_reducible assumption
    | with_reducible apply k_LE_GLF_CNT_count
    | with_reducible apply k_LE_GLF_CNT_count_1
    | with_reducible apply Fits.bump
    | with_reducible apply Fits.evt
    | with_reducible apply Fits.loss
    | with_reducible apply Fits.modGlf
    | with_reducible apply Fits.forEach
    | (intro _)
    | with_reducible apply Fits.ite
    | dsimp only
    | split
    | (refine Fits.pair ‹_ = (_, _)› ?_)
    | (refine Fits.pair2 ‹_ = (_, _, _)› ?_)

structure Touches.relayPut (N : Part → Prop) : Prop where
  h_glf : ∀ b, N (.glf b)

theorem Fits.relayPut (r : Nat) (k : Nat) (fc : Nat) (hh : Option (List Byte)) (s : State) (h : Fits N s0 s) (tch : Touches.relayPut N) :
    Fits N s0 (relayPut r k fc hh s) := by
  obtain ⟨h_glf⟩ := tch
  unfold Sys2Proof.Machine.relayPut
  repeat' first
    | with_reducible assumption
    | with_reducible exact h_glf _
    | with_reducible apply Fits.modGlf
    | (intro _)
    | with_reducible apply Fits.ite
    | dsimp only
    | split
    | (refine Fits.pair ‹_ = (_, _)› ?_)
    | (refine Fits.pair2 ‹_ = (_, _, _)› ?_)

structure Touches.inFrame (N : Part → Prop) (le : Nat) : Prop where
  k_LE_GLF_STAT_candidates : N (.reg (F.LE_GLF_STAT_candidates le).key)
  h_glf : N (.glf ((le : Nat) != 0))
  c_setFrame : Touches.setFrame N le
  c_setMf : Touches.setMf N le
  c_followInFrame : Touches.followInFrame N le

theorem Fits.inFrame (le : Nat) (k : Nat) (fc : Nat) (s : State) (h : Fits N s0 s) (tch : Touches.inFrame N le) :
    Fits N s0 (inFrame le k fc s) := by
  obtain ⟨k_LE_GLF_STAT_candidates, h_glf, c_setFrame, c_setMf, c_followInFrame⟩ := tch
  unfold Sys2Proof.Machine.inFrame
  repeat' first
    | with_reducible assumption
    | with_reducible apply k_LE_GLF_STAT_candidates
    | with_reducible apply Fits.setF
    | with_reducible apply Fits.modGlf
    | with_reducible apply Fits.setFrame
    | with_reducible apply Fits.setMf
    | with_reducible apply Fits.followInFrame
    | (intro _)
    | with_reducible apply Fits.ite
    | dsimp only
    | split
    | (refine Fits.pair ‹_ = (_, _)› ?_)
    | (refine Fits.pair2 ‹_ = (_, _, _)› ?_)

structure Touches.glfJudge (N : Part → Prop) (le : Nat) (k : Nat) : Prop where
  h_ev : N .ev
  h_rep : N .rep
  k_LE_GLF_CNT_count : N (.reg (F.LE_GLF_CNT_count le 0).key)
  k_LE_GLF_CNT_count_1 : N (.reg (F.LE_GLF_CNT_count le 1).key)
  k_LE_GLF_RX_FC_fc : N (.reg (F.LE_GLF_RX_FC_fc le).key)
  k_LE_GLF_STAT_candidates : N (.reg (F.LE_GLF_STAT_candidates le).key)
  h_glf : N (.glf ((le : Nat) != 0))
  c_setFrame : Touches.setFrame N le
  c_glfOof : Touches.glfOof N le
  c_ohReceive : Touches.ohReceive N le
  c_fcTrack : Touches.fcTrack N le
  c_headerTake : Touches.headerTake N le k
  c_jcReceive : Touches.jcReceive N le
  c_relayPut : Touches.relayPut N
  c_inFrame : Touches.inFrame N le

theorem Fits.glfJudge (le : Nat) (k : Nat) (pos : Nat) (hdr : List Byte) (partB : List Byte) (jc : List (Fin 32 × Word)) (s : State) (h : Fits N s0 s) (tch : Touches.glfJudge N le k) :
    Fits N s0 (glfJudge le k pos hdr partB jc s) := by
  obtain ⟨h_ev, h_rep, k_LE_GLF_CNT_count, k_LE_GLF_CNT_count_1, k_LE_GLF_RX_FC_fc, k_LE_GLF_STAT_candidates, h_glf, c_setFrame, c_glfOof, c_ohReceive, c_fcTrack, c_headerTake, c_jcReceive, c_relayPut, c_inFrame⟩ := tch
  unfold Sys2Proof.Machine.glfJudge
  repeat' first
    | with_reducible assumption
    | with_reducible apply k_LE_GLF_CNT_count
    | with_reducible apply k_LE_GLF_CNT_count_1
    | with_reducible apply k_LE_GLF_RX_FC_fc
    | with_reducible apply k_LE_GLF_STAT_candidates
    | with_reducible apply Fits.setF
    | with_reducible apply Fits.bump
    | with_reducible apply Fits.datapath
    | with_reducible apply Fits.modGlf
    | with_reducible apply Fits.trimsTake
    | with_reducible apply Fits.setFrame
    | with_reducible apply Fits.glfOof
    | with_reducible apply Fits.ohReceive
    | with_reducible apply Fits.fcTrack
    | with_reducible apply Fits.headerTake
    | with_reducible apply Fits.jcReceive
    | with_reducible apply Fits.relayPut
    | with_reducible apply Fits.inFrame
    | (intro _)
    | with_reducible apply Fits.ite
    | dsimp only
    | split
    | (refine Fits.pair ‹_ = (_, _)› ?_)
    | (refine Fits.pair2 ‹_ = (_, _, _)› ?_)

theorem Fits.cbrAnnounce (cap : Nat) (x : TxCont) (s : State) (h : Fits N s0 s) (h_drawn : N .drawn) :
    Fits N s0 (cbrAnnounce cap x s).2.2 := by
  unfold Sys2Proof.Machine.cbrAnnounce
  repeat' first
    | with_reducible assumption
    | with_reducible apply Fits.draw
    | (intro _)
    | with_reducible apply Fits.ite
    | dsimp only
    | split
    | (refine Fits.pair ‹_ = (_, _)› ?_)
    | (refine Fits.pair2 ‹_ = (_, _, _)› ?_)

structure Touches.modTxCont (N : Part → Prop) (le : Nat) : Prop where
  h_glf : N (.glf ((le : Nat) != 0))

theorem Fits.modTxCont (le : Nat) (c : Nat) (f : TxCont → TxCont) (s : State) (h : Fits N s0 s) (tch : Touches.modTxCont N le) :
    Fits N s0 (modTxCont le c f s) := by
  obtain ⟨h_glf⟩ := tch
  unfold Sys2Proof.Machine.modTxCont
  repeat' first
    | with_reducible assumption
    | with_reducible apply Fits.modGlf
    | (intro _)
    | with_reducible apply Fits.ite
    | dsimp only
    | split
    | (refine Fits.pair ‹_ = (_, _)› ?_)
    | (refine Fits.pair2 ‹_ = (_, _, _)› ?_)

structure Touches.takeCells (N : Part → Prop) (le : Nat) : Prop where
  c_modTxCont : Touches.modTxCont N le

theorem Fits.takeCells (le : Nat) (c : Nat) (n : Nat) (s : State) (h : Fits N s0 s) (tch : Touches.takeCells N le) :
    Fits N s0 (takeCells le c n s).2 := by
  obtain ⟨c_modTxCont⟩ := tch
  unfold Sys2Proof.Machine.takeCells
  repeat' first
    | with_reducible assumption
    | with_reducible apply Fits.modTxCont
    | (intro _)
    | with_reducible apply Fits.ite
    | dsimp only
    | split
    | (refine Fits.pair ‹_ = (_, _)› ?_)
    | (refine Fits.pair2 ‹_ = (_, _, _)› ?_)

structure Touches.plainUnit (N : Part → Prop) (le : Nat) : Prop where
  h_drawn : N .drawn
  c_modTxCont : Touches.modTxCont N le
  c_takeCells : Touches.takeCells N le

theorem Fits.plainUnit (le : Nat) (c : Nat) (n : Nat) (s : State) (h : Fits N s0 s) (tch : Touches.plainUnit N le) :
    Fits N s0 (plainUnit le c n s).2.2 := by
  obtain ⟨h_drawn, c_modTxCont, c_takeCells⟩ := tch
  unfold Sys2Proof.Machine.plainUnit
  repeat' first
    | with_reducible assumption
    | with_reducible apply Fits.cbrAnnounce
    | with_reducible apply Fits.modTxCont
    | with_reducible apply Fits.takeCells
    | (intro _)
    | with_reducible apply Fits.ite
    | dsimp only
    | split
    | (refine Fits.pair ‹_ = (_, _)› ?_)
    | (refine Fits.pair2 ‹_ = (_, _, _)› ?_)

structure Touches.execSlotMap (N : Part → Prop) (le : Fin 2) : Prop where
  k_LE_GLF_CNT_count : N (.reg (F.LE_GLF_CNT_count le.val 9).key)
  c_evt : Touches.evt N (lep le.val 0x34)

theorem FitsOut.execSlotMap (le : Fin 2) (k : Fin 32) (body : List Byte) (s : State) (h : Fits N s0 s) (tch : Touches.execSlotMap N le) :
    FitsOut N s0 (execSlotMap le k body s) := by
  obtain ⟨k_LE_GLF_CNT_count, c_evt⟩ := tch
  unfold Sys2Proof.Machine.execSlotMap
  repeat' first
    | with_reducible assumption
    | with_reducible apply k_LE_GLF_CNT_count
    | with_reducible apply Fits.bump
    | with_reducible apply Fits.evt
    | with_reducible apply FitsOut.ite
    | with_reducible apply FitsOut.next
    | with_reducible apply FitsOut.fault
    | (intro _)
    | with_reducible apply Fits.ite
    | dsimp only
    | split
    | (refine Fits.pair ‹_ = (_, _)› ?_)
    | (refine Fits.pair2 ‹_ = (_, _, _)› ?_)

structure Touches.cellGo (N : Part → Prop) (le : Nat) : Prop where
  k_LE_GLF_CELL_SYNC_HI_bits : N (.reg (F.LE_GLF_CELL_SYNC_HI_bits le).key)
  k_LE_GLF_CELL_SYNC_LO_bits : N (.reg (F.LE_GLF_CELL_SYNC_LO_bits le).key)
  h_glf : N (.glf ((le : Nat) != 0))

theorem Fits.cellGo (le : Nat) (c : Nat) (v : Nat) (s : State) (h : Fits N s0 s) (tch : Touches.cellGo N le) :
    Fits N s0 (cellGo le c v s) := by
  obtain ⟨k_LE_GLF_CELL_SYNC_HI_bits, k_LE_GLF_CELL_SYNC_LO_bits, h_glf⟩ := tch
  unfold Sys2Proof.Machine.cellGo
  repeat' first
    | with_reducible assumption
    | with_reducible apply k_LE_GLF_CELL_SYNC_HI_bits
    | with_reducible apply k_LE_GLF_CELL_SYNC_LO_bits
    | with_reducible apply Fits.setF
    | with_reducible apply Fits.modGlf
    | (intro _)
    | with_reducible apply Fits.ite
    | dsimp only
    | split
    | (refine Fits.pair ‹_ = (_, _)› ?_)
    | (refine Fits.pair2 ‹_ = (_, _, _)› ?_)

structure Touches.pktDrop (N : Part → Prop) (le : Nat) : Prop where
  h_ev : N .ev
  k_LE_GLF_CNT_count : N (.reg (F.LE_GLF_CNT_count le 8).key)

theorem Fits.pktDrop (le : Nat) (s : State) (h : Fits N s0 s) (tch : Touches.pktDrop N le) :
    Fits N s0 (pktDrop le s) := by
  obtain ⟨h_ev, k_LE_GLF_CNT_count⟩ := tch
  unfold Sys2Proof.Machine.pktDrop
  repeat' first
    | with_reducible assumption
    | with_reducible apply k_LE_GLF_CNT_count
    | with_reducible apply Fits.loss
    | (intro _)
    | with_reducible apply Fits.ite
    | dsimp only
    | split
    | (refine Fits.pair ‹_ = (_, _)› ?_)
    | (refine Fits.pair2 ‹_ = (_, _, _)› ?_)

structure Touches.cellTake (N : Part → Prop) (le : Nat) : Prop where
  h_ev : N .ev
  k_LE_GLF_CNT_count : N (.reg (F.LE_GLF_CNT_count le 7).key)
  h_glf : N (.glf ((le : Nat) != 0))
  c_pktDrop : Touches.pktDrop N le

theorem Fits.cellTake (le : Nat) (c : Nat) (hh : Nat) (failed : Bool) (s : State) (h : Fits N s0 s) (tch : Touches.cellTake N le) :
    Fits N s0 (cellTake le c hh failed s) := by
  obtain ⟨h_ev, k_LE_GLF_CNT_count, h_glf, c_pktDrop⟩ := tch
  unfold Sys2Proof.Machine.cellTake
  repeat' first
    | with_reducible assumption
    | with_reducible apply k_LE_GLF_CNT_count
    | with_reducible apply Fits.datapath
    | with_reducible apply Fits.loss
    | with_reducible apply Fits.modGlf
    | with_reducible apply Fits.pktDrop
    | (intro _)
    | with_reducible apply Fits.ite
    | dsimp only
    | split
    | (refine Fits.pair ‹_ = (_, _)› ?_)
    | (refine Fits.pair2 ‹_ = (_, _, _)› ?_)

structure Touches.execCellRx (N : Part → Prop) (le : Fin 2) : Prop where
  h_ev : N .ev
  k_LE_GLF_CNT_count : N (.reg (F.LE_GLF_CNT_count le.val 5).key)
  k_LE_GLF_CNT_count_1 : N (.reg (F.LE_GLF_CNT_count le.val 6).key)
  h_glf : N (.glf ((le.val : Nat) != 0))
  c_evt : Touches.evt N (lep le.val 0x34)
  c_cellGo : Touches.cellGo N le.val
  c_pktDrop : Touches.pktDrop N le.val
  c_cellTake : Touches.cellTake N le.val

theorem FitsOut.execCellRx (le : Fin 2) (c : Fin 64) (hdr : BitVec 64) (failed : Bool) (s : State) (h : Fits N s0 s) (tch : Touches.execCellRx N le) :
    FitsOut N s0 (execCellRx le c hdr failed s) := by
  obtain ⟨h_ev, k_LE_GLF_CNT_count, k_LE_GLF_CNT_count_1, h_glf, c_evt, c_cellGo, c_pktDrop, c_cellTake⟩ := tch
  unfold Sys2Proof.Machine.execCellRx
  repeat' first
    | with_reducible assumption
    | with_reducible apply k_LE_GLF_CNT_count
    | with_reducible apply k_LE_GLF_CNT_count_1
    | with_reducible apply Fits.bump
    | with_reducible apply Fits.evt
    | with_reducible apply Fits.loss
    | with_reducible apply Fits.modGlf
    | with_reducible apply Fits.cellGo
    | with_reducible apply Fits.pktDrop
    | with_reducible apply Fits.cellTake
    | with_reducible apply FitsOut.ite
    | with_reducible apply FitsOut.next
    | with_reducible apply FitsOut.fault
    | (intro _)
    | with_reducible apply Fits.ite
    | dsimp only
    | split
    | (refine Fits.pair ‹_ = (_, _)› ?_)
    | (refine Fits.pair2 ‹_ = (_, _, _)› ?_)

end Sys2Proof.Machine
end

