-- ==== Sys2Proof/Laws/FitsAssociation.lean ====
section
/-! SUPPORT. What the operations of Machine/Association.lean touch (a structure of parts for each, over those of the operations it calls), and
that each keeps the canonical form. -/
set_option linter.unusedTactic false
set_option linter.unreachableTactic false
namespace Sys2Proof.Machine

variable {N : Part → Prop} {s0 : State}

theorem Fits.modAssoc (i : Nat) (f : Assoc → Assoc) (s : State) (h : Fits N s0 s) (h_cip : N .cip) :
    Fits N s0 (modAssoc i f s) := by
  unfold Sys2Proof.Machine.modAssoc
  repeat' first
    | with_reducible assumption
    | (intro _)
    | with_reducible apply Fits.ite
    | dsimp only
    | split
    | (refine Fits.pair ‹_ = (_, _)› ?_)
    | (refine Fits.pair2 ‹_ = (_, _, _)› ?_)
    | with_reducible apply Fits.upd_cip

structure Touches.saReport (N : Part → Prop) (i : Nat) : Prop where
  k_CIP_SA_ST_cur_valid : N (.reg (F.CIP_SA_ST_cur_valid i).key)
  k_CIP_SA_ST_next_valid : N (.reg (F.CIP_SA_ST_next_valid i).key)
  k_CIP_SA_ST_switch_armed : N (.reg (F.CIP_SA_ST_switch_armed i).key)
  k_CIP_SA_SWITCH_AT_at : N (.reg (F.CIP_SA_SWITCH_AT_at i).key)
  k_CIP_SA_USE_use : N (.reg (F.CIP_SA_USE_use i).key)

theorem Fits.saReport (i : Nat) (s : State) (h : Fits N s0 s) (tch : Touches.saReport N i) :
    Fits N s0 (saReport i s) := by
  obtain ⟨k_CIP_SA_ST_cur_valid, k_CIP_SA_ST_next_valid, k_CIP_SA_ST_switch_armed, k_CIP_SA_SWITCH_AT_at, k_CIP_SA_USE_use⟩ := tch
  unfold Sys2Proof.Machine.saReport
  repeat' first
    | with_reducible assumption
    | with_reducible apply k_CIP_SA_ST_cur_valid
    | with_reducible apply k_CIP_SA_ST_next_valid
    | with_reducible apply k_CIP_SA_ST_switch_armed
    | with_reducible apply k_CIP_SA_SWITCH_AT_at
    | with_reducible apply k_CIP_SA_USE_use
    | with_reducible apply Fits.setF
    | with_reducible apply Fits.setB
    | (intro _)
    | with_reducible apply Fits.ite
    | dsimp only
    | split
    | (refine Fits.pair ‹_ = (_, _)› ?_)
    | (refine Fits.pair2 ‹_ = (_, _, _)› ?_)

structure Touches.saBlock (N : Part → Prop) (i : Nat) : Prop where
  k_CIP_SA_ST_block_reason : N (.reg (F.CIP_SA_ST_block_reason i).key)
  k_CIP_SA_ST_state : N (.reg (F.CIP_SA_ST_state i).key)
  k_CIP_SA_ST_warn : N (.reg (F.CIP_SA_ST_warn i).key)
  c_evt : Touches.evt N 0xC8

theorem Fits.saBlock (i : Nat) (reason : Nat) (s : State) (h : Fits N s0 s) (tch : Touches.saBlock N i) :
    Fits N s0 (saBlock i reason s) := by
  obtain ⟨k_CIP_SA_ST_block_reason, k_CIP_SA_ST_state, k_CIP_SA_ST_warn, c_evt⟩ := tch
  unfold Sys2Proof.Machine.saBlock
  repeat' first
    | with_reducible assumption
    | with_reducible apply k_CIP_SA_ST_block_reason
    | with_reducible apply k_CIP_SA_ST_state
    | with_reducible apply k_CIP_SA_ST_warn
    | with_reducible apply Fits.setF
    | with_reducible apply Fits.setB
    | with_reducible apply Fits.evt
    | (intro _)
    | with_reducible apply Fits.ite
    | dsimp only
    | split
    | (refine Fits.pair ‹_ = (_, _)› ?_)
    | (refine Fits.pair2 ‹_ = (_, _, _)› ?_)

structure Touches.saActive (N : Part → Prop) (i : Nat) : Prop where
  k_CIP_SA_ST_block_reason : N (.reg (F.CIP_SA_ST_block_reason i).key)
  k_CIP_SA_ST_state : N (.reg (F.CIP_SA_ST_state i).key)
  k_CIP_SA_ST_warn : N (.reg (F.CIP_SA_ST_warn i).key)

theorem Fits.saActive (i : Nat) (s : State) (h : Fits N s0 s) (tch : Touches.saActive N i) :
    Fits N s0 (saActive i s) := by
  obtain ⟨k_CIP_SA_ST_block_reason, k_CIP_SA_ST_state, k_CIP_SA_ST_warn⟩ := tch
  unfold Sys2Proof.Machine.saActive
  repeat' first
    | with_reducible assumption
    | with_reducible apply k_CIP_SA_ST_block_reason
    | with_reducible apply k_CIP_SA_ST_state
    | with_reducible apply k_CIP_SA_ST_warn
    | with_reducible apply Fits.setF
    | with_reducible apply Fits.setB
    | (intro _)
    | with_reducible apply Fits.ite
    | dsimp only
    | split
    | (refine Fits.pair ‹_ = (_, _)› ?_)
    | (refine Fits.pair2 ‹_ = (_, _, _)› ?_)

structure Touches.saRoll (N : Part → Prop) (i : Nat) : Prop where
  h_cip : N .cip
  c_saActive : Touches.saActive N i

theorem Fits.saRoll (i : Nat) (unit : Nat) (units : Nat) (s : State) (h : Fits N s0 s) (tch : Touches.saRoll N i) :
    Fits N s0 (saRoll i unit units s) := by
  obtain ⟨h_cip, c_saActive⟩ := tch
  unfold Sys2Proof.Machine.saRoll
  repeat' first
    | with_reducible assumption
    | with_reducible apply Fits.modAssoc
    | with_reducible apply Fits.saActive
    | (intro _)
    | with_reducible apply Fits.ite
    | dsimp only
    | split
    | (refine Fits.pair ‹_ = (_, _)› ?_)
    | (refine Fits.pair2 ‹_ = (_, _, _)› ?_)

structure Touches.cipherLoad (N : Part → Prop) : Prop where
  k_CIP_BUDGET_charge : N (.reg F.CIP_BUDGET_charge.key)
  k_CIP_BUDGET_limit : N (.reg F.CIP_BUDGET_limit.key)
  k_CIP_STAT_cores : N (.reg F.CIP_STAT_cores.key)
  k_CIP_STAT_overload : N (.reg F.CIP_STAT_overload.key)
  k_CIP_STAT_shed_first : N (.reg F.CIP_STAT_shed_first.key)
  c_level : Touches.level N 0xC8

theorem Fits.cipherLoad (s : State) (h : Fits N s0 s) (tch : Touches.cipherLoad N) :
    Fits N s0 (cipherLoad s) := by
  obtain ⟨k_CIP_BUDGET_charge, k_CIP_BUDGET_limit, k_CIP_STAT_cores, k_CIP_STAT_overload, k_CIP_STAT_shed_first, c_level⟩ := tch
  unfold Sys2Proof.Machine.cipherLoad
  repeat' first
    | with_reducible assumption
    | with_reducible apply k_CIP_BUDGET_charge
    | with_reducible apply k_CIP_BUDGET_limit
    | with_reducible apply k_CIP_STAT_cores
    | with_reducible apply k_CIP_STAT_overload
    | with_reducible apply k_CIP_STAT_shed_first
    | with_reducible apply Fits.setF
    | with_reducible apply Fits.setB
    | with_reducible apply Fits.level
    | (intro _)
    | with_reducible apply Fits.ite
    | dsimp only
    | split
    | (refine Fits.pair ‹_ = (_, _)› ?_)
    | (refine Fits.pair2 ‹_ = (_, _, _)› ?_)

structure Touches.cipApply (N : Part → Prop) : Prop where
  h_cip : N .cip
  k_CIP_SA_ST_block_reason : ∀ (a0 : Nat), N (.reg (F.CIP_SA_ST_block_reason a0).key)
  k_CIP_SA_ST_state : ∀ (a0 : Nat), N (.reg (F.CIP_SA_ST_state a0).key)
  k_CIP_SA_ST_warn : ∀ (a0 : Nat), N (.reg (F.CIP_SA_ST_warn a0).key)
  c_saReport : ∀ (a0 : Nat), Touches.saReport N a0
  c_saBlock : ∀ (a0 : Nat), Touches.saBlock N a0
  c_cipherLoad : Touches.cipherLoad N

theorem Fits.cipApply (old : Tbl Nat) (s : State) (h : Fits N s0 s) (tch : Touches.cipApply N) :
    Fits N s0 (cipApply old s) := by
  obtain ⟨h_cip, k_CIP_SA_ST_block_reason, k_CIP_SA_ST_state, k_CIP_SA_ST_warn, c_saReport, c_saBlock, c_cipherLoad⟩ := tch
  unfold Sys2Proof.Machine.cipApply
  repeat' first
    | with_reducible assumption
    | with_reducible apply k_CIP_SA_ST_block_reason
    | with_reducible apply k_CIP_SA_ST_state
    | with_reducible apply k_CIP_SA_ST_warn
    | with_reducible exact c_saReport _
    | with_reducible exact c_saBlock _
    | with_reducible apply Fits.setF
    | with_reducible apply Fits.setB
    | with_reducible apply Fits.modAssoc
    | with_reducible apply Fits.saReport
    | with_reducible apply Fits.saBlock
    | with_reducible apply Fits.cipherLoad
    | with_reducible apply Fits.forEach
    | (intro _)
    | with_reducible apply Fits.ite
    | dsimp only
    | split
    | (refine Fits.pair ‹_ = (_, _)› ?_)
    | (refine Fits.pair2 ‹_ = (_, _, _)› ?_)

structure Touches.saTake (N : Part → Prop) : Prop where
  h_inForce : N .inForce
  c_commitTaken : Touches.commitTaken N 0xC8
  c_cipApply : Touches.cipApply N

theorem Fits.saTake (mine : List Nat) (last : Bool) (s : State) (h : Fits N s0 s) (tch : Touches.saTake N) :
    Fits N s0 (saTake mine last s) := by
  obtain ⟨h_inForce, c_commitTaken, c_cipApply⟩ := tch
  unfold Sys2Proof.Machine.saTake
  repeat' first
    | with_reducible assumption
    | with_reducible apply Fits.commitTaken
    | with_reducible apply Fits.cipApply
    | (intro _)
    | with_reducible apply Fits.ite
    | dsimp only
    | split
    | (refine Fits.pair ‹_ = (_, _)› ?_)
    | (refine Fits.pair2 ‹_ = (_, _, _)› ?_)
    | (with_reducible refine Fits.upd_inForce ?_ ‹_› _ (fun t => Tbl.rising_overlay t _))

structure Touches.saPart (N : Part → Prop) : Prop where
  c_saTake : Touches.saTake N

theorem Fits.saPart (p : Nat → Bool) (s : State) (h : Fits N s0 s) (tch : Touches.saPart N) :
    Fits N s0 (saPart p s) := by
  obtain ⟨c_saTake⟩ := tch
  unfold Sys2Proof.Machine.saPart
  repeat' first
    | with_reducible assumption
    | with_reducible apply Fits.saTake
    | (intro _)
    | with_reducible apply Fits.ite
    | dsimp only
    | split
    | (refine Fits.pair ‹_ = (_, _)› ?_)
    | (refine Fits.pair2 ‹_ = (_, _, _)› ?_)

theorem Fits.modKx (j : Nat) (f : Kx → Kx) (s : State) (h : Fits N s0 s) (h_cip : N .cip) :
    Fits N s0 (modKx j f s) := by
  unfold Sys2Proof.Machine.modKx
  repeat' first
    | with_reducible assumption
    | (intro _)
    | with_reducible apply Fits.ite
    | dsimp only
    | split
    | (refine Fits.pair ‹_ = (_, _)› ?_)
    | (refine Fits.pair2 ‹_ = (_, _, _)› ?_)
    | with_reducible apply Fits.upd_cip

structure Touches.kxEnd (N : Part → Prop) (j : Nat) : Prop where
  h_cip : N .cip
  k_CIP_CNT_count : N (.reg (F.CIP_CNT_count 5).key)
  k_CIP_CNT_count_1 : N (.reg (F.CIP_CNT_count 6).key)
  k_CIP_KX_STAT_result : N (.reg (F.CIP_KX_STAT_result j).key)
  k_CIP_KX_STAT_state : N (.reg (F.CIP_KX_STAT_state j).key)
  c_evt : Touches.evt N 0xC8

theorem Fits.kxEnd (j : Nat) (result : Nat) (s : State) (h : Fits N s0 s) (tch : Touches.kxEnd N j) :
    Fits N s0 (kxEnd j result s) := by
  obtain ⟨h_cip, k_CIP_CNT_count, k_CIP_CNT_count_1, k_CIP_KX_STAT_result, k_CIP_KX_STAT_state, c_evt⟩ := tch
  unfold Sys2Proof.Machine.kxEnd
  repeat' first
    | with_reducible assumption
    | with_reducible apply k_CIP_CNT_count
    | with_reducible apply k_CIP_CNT_count_1
    | with_reducible apply k_CIP_KX_STAT_result
    | with_reducible apply k_CIP_KX_STAT_state
    | with_reducible apply Fits.setF
    | with_reducible apply Fits.bump
    | with_reducible apply Fits.evt
    | with_reducible apply Fits.modKx
    | (intro _)
    | with_reducible apply Fits.ite
    | dsimp only
    | split
    | (refine Fits.pair ‹_ = (_, _)› ?_)
    | (refine Fits.pair2 ‹_ = (_, _, _)› ?_)

structure Touches.kxCheck (N : Part → Prop) (j : Nat) : Prop where
  c_kxEnd : Touches.kxEnd N j

theorem Fits.kxCheck (j : Nat) (s : State) (h : Fits N s0 s) (tch : Touches.kxCheck N j) :
    Fits N s0 (kxCheck j s) := by
  obtain ⟨c_kxEnd⟩ := tch
  unfold Sys2Proof.Machine.kxCheck
  repeat' first
    | with_reducible assumption
    | with_reducible apply Fits.kxEnd
    | (intro _)
    | with_reducible apply Fits.ite
    | dsimp only
    | split
    | (refine Fits.pair ‹_ = (_, _)› ?_)
    | (refine Fits.pair2 ‹_ = (_, _, _)› ?_)

structure Touches.kxSwitched (N : Part → Prop) : Prop where
  h_cip : N .cip
  c_kxCheck : ∀ (a0 : Nat), Touches.kxCheck N a0

theorem Fits.kxSwitched (i : Nat) (s : State) (h : Fits N s0 s) (tch : Touches.kxSwitched N) :
    Fits N s0 (kxSwitched i s) := by
  obtain ⟨h_cip, c_kxCheck⟩ := tch
  unfold Sys2Proof.Machine.kxSwitched
  repeat' first
    | with_reducible assumption
    | with_reducible exact c_kxCheck _
    | with_reducible apply Fits.modKx
    | with_reducible apply Fits.kxCheck
    | with_reducible apply Fits.forEach
    | (intro _)
    | with_reducible apply Fits.ite
    | dsimp only
    | split
    | (refine Fits.pair ‹_ = (_, _)› ?_)
    | (refine Fits.pair2 ‹_ = (_, _, _)› ?_)

theorem Fits.drawBytes (x0 : Nat) (s : State) (h : Fits N s0 s) (h_drawn : N .drawn) :
    Fits N s0 (drawBytes x0 s).2 := by
  induction x0 generalizing s with
  | zero =>
    unfold Sys2Proof.Machine.drawBytes
    repeat' first
      | with_reducible assumption
      | with_reducible apply Fits.draw
      | (intro _)
      | with_reducible apply Fits.ite
      | dsimp only
      | split
      | (refine Fits.pair ‹_ = (_, _)› ?_)
      | (refine Fits.pair2 ‹_ = (_, _, _)› ?_)
  | succ n ih =>
    unfold Sys2Proof.Machine.drawBytes
    repeat' first
      | with_reducible apply ih
      | with_reducible assumption
      | with_reducible apply Fits.draw
      | (intro _)
      | with_reducible apply Fits.ite
      | dsimp only
      | split
      | (refine Fits.pair ‹_ = (_, _)› ?_)
      | (refine Fits.pair2 ‹_ = (_, _, _)› ?_)

structure Touches.kxSend (N : Part → Prop) : Prop where
  h_cip : N .cip
  c_ohPut : ∀ (a0 : Nat), Touches.ohPut N a0

theorem Fits.kxSend (j : Nat) (type : Nat) (body : List Byte) (s : State) (h : Fits N s0 s) (tch : Touches.kxSend N) :
    Fits N s0 (kxSend j type body s) := by
  obtain ⟨h_cip, c_ohPut⟩ := tch
  unfold Sys2Proof.Machine.kxSend
  repeat' first
    | with_reducible assumption
    | with_reducible exact c_ohPut _
    | with_reducible apply Fits.ohPut
    | with_reducible apply Fits.modKx
    | (intro _)
    | with_reducible apply Fits.ite
    | dsimp only
    | split
    | (refine Fits.pair ‹_ = (_, _)› ?_)
    | (refine Fits.pair2 ‹_ = (_, _, _)› ?_)

structure Touches.kxCerts (N : Part → Prop) : Prop where
  c_ohPut : ∀ (a0 : Nat), Touches.ohPut N a0

theorem Fits.kxCerts (j : Nat) (s : State) (h : Fits N s0 s) (tch : Touches.kxCerts N) :
    Fits N s0 (kxCerts j s) := by
  obtain ⟨c_ohPut⟩ := tch
  unfold Sys2Proof.Machine.kxCerts
  repeat' first
    | with_reducible assumption
    | with_reducible exact c_ohPut _
    | with_reducible apply Fits.ohPut
    | with_reducible apply Fits.forEach
    | (intro _)
    | with_reducible apply Fits.ite
    | dsimp only
    | split
    | (refine Fits.pair ‹_ = (_, _)› ?_)
    | (refine Fits.pair2 ‹_ = (_, _, _)› ?_)

structure Touches.kxInit (N : Part → Prop) (j : Nat) : Prop where
  h_cip : N .cip
  h_drawn : N .drawn
  k_CIP_KX_STAT_result : N (.reg (F.CIP_KX_STAT_result j).key)
  k_CIP_KX_STAT_role : N (.reg (F.CIP_KX_STAT_role j).key)
  k_CIP_KX_STAT_state : N (.reg (F.CIP_KX_STAT_state j).key)
  c_kxSend : Touches.kxSend N
  c_kxCerts : Touches.kxCerts N

theorem Fits.kxInit (j : Nat) (s : State) (h : Fits N s0 s) (tch : Touches.kxInit N j) :
    Fits N s0 (kxInit j s) := by
  obtain ⟨h_cip, h_drawn, k_CIP_KX_STAT_result, k_CIP_KX_STAT_role, k_CIP_KX_STAT_state, c_kxSend, c_kxCerts⟩ := tch
  unfold Sys2Proof.Machine.kxInit
  repeat' first
    | with_reducible assumption
    | with_reducible apply k_CIP_KX_STAT_result
    | with_reducible apply k_CIP_KX_STAT_role
    | with_reducible apply k_CIP_KX_STAT_state
    | with_reducible apply Fits.setF
    | with_reducible apply Fits.draw
    | with_reducible apply Fits.modKx
    | with_reducible apply Fits.drawBytes
    | with_reducible apply Fits.kxSend
    | with_reducible apply Fits.kxCerts
    | (intro _)
    | with_reducible apply Fits.ite
    | dsimp only
    | split
    | (refine Fits.pair ‹_ = (_, _)› ?_)
    | (refine Fits.pair2 ‹_ = (_, _, _)› ?_)

structure Touches.kxStart (N : Part → Prop) : Prop where
  k_CIP_KX_STAT_result : ∀ (a0 : Nat), N (.reg (F.CIP_KX_STAT_result a0).key)
  k_CIP_KX_STAT_rx : ∀ (a0 : Nat), N (.reg (F.CIP_KX_STAT_rx a0).key)
  k_CIP_KX_STAT_tx : ∀ (a0 : Nat), N (.reg (F.CIP_KX_STAT_tx a0).key)
  c_err : Touches.err N 0xC9
  c_kxInit : ∀ (a0 : Nat), Touches.kxInit N a0

theorem Fits.kxStart (tx : Nat) (rx : Nat) (s : State) (h : Fits N s0 s) (tch : Touches.kxStart N) :
    Fits N s0 (kxStart tx rx s) := by
  obtain ⟨k_CIP_KX_STAT_result, k_CIP_KX_STAT_rx, k_CIP_KX_STAT_tx, c_err, c_kxInit⟩ := tch
  unfold Sys2Proof.Machine.kxStart
  repeat' first
    | with_reducible assumption
    | with_reducible apply k_CIP_KX_STAT_result
    | with_reducible apply k_CIP_KX_STAT_rx
    | with_reducible apply k_CIP_KX_STAT_tx
    | with_reducible exact c_kxInit _
    | with_reducible apply Fits.setF
    | with_reducible apply Fits.err
    | with_reducible apply Fits.kxInit
    | (intro _)
    | with_reducible apply Fits.ite
    | dsimp only
    | split
    | (refine Fits.pair ‹_ = (_, _)› ?_)
    | (refine Fits.pair2 ‹_ = (_, _, _)› ?_)

structure Touches.saAtLimit (N : Part → Prop) (i : Nat) : Prop where
  h_cip : N .cip
  c_evt : Touches.evt N 0xC8
  c_saBlock : Touches.saBlock N i
  c_saRoll : Touches.saRoll N i
  c_kxSwitched : Touches.kxSwitched N

theorem Fits.saAtLimit (i : Nat) (start : Nat) (s : State) (h : Fits N s0 s) (tch : Touches.saAtLimit N i) :
    Fits N s0 (saAtLimit i start s) := by
  obtain ⟨h_cip, c_evt, c_saBlock, c_saRoll, c_kxSwitched⟩ := tch
  unfold Sys2Proof.Machine.saAtLimit
  repeat' first
    | with_reducible assumption
    | with_reducible apply Fits.evt
    | with_reducible apply Fits.modAssoc
    | with_reducible apply Fits.saBlock
    | with_reducible apply Fits.saRoll
    | with_reducible apply Fits.kxSwitched
    | (intro _)
    | with_reducible apply Fits.ite
    | dsimp only
    | split
    | (refine Fits.pair ‹_ = (_, _)› ?_)
    | (refine Fits.pair2 ‹_ = (_, _, _)› ?_)

structure Touches.saBoundary (N : Part → Prop) (i : Nat) : Prop where
  h_cip : N .cip
  k_CIP_SA_ST_warn : N (.reg (F.CIP_SA_ST_warn i).key)
  c_evt : Touches.evt N 0xC8
  c_saReport : Touches.saReport N i
  c_saBlock : Touches.saBlock N i
  c_saActive : Touches.saActive N i
  c_saRoll : Touches.saRoll N i
  c_kxSwitched : Touches.kxSwitched N
  c_kxStart : Touches.kxStart N
  c_saAtLimit : Touches.saAtLimit N i

theorem Fits.saBoundary (i : Nat) (unit : Nat) (units : Nat) (start : Nat) (s : State) (h : Fits N s0 s) (tch : Touches.saBoundary N i) :
    Fits N s0 (saBoundary i unit units start s) := by
  obtain ⟨h_cip, k_CIP_SA_ST_warn, c_evt, c_saReport, c_saBlock, c_saActive, c_saRoll, c_kxSwitched, c_kxStart, c_saAtLimit⟩ := tch
  unfold Sys2Proof.Machine.saBoundary
  repeat' first
    | with_reducible assumption
    | with_reducible apply k_CIP_SA_ST_warn
    | with_reducible apply Fits.setB
    | with_reducible apply Fits.evt
    | with_reducible apply Fits.modAssoc
    | with_reducible apply Fits.saReport
    | with_reducible apply Fits.saBlock
    | with_reducible apply Fits.saActive
    | with_reducible apply Fits.saRoll
    | with_reducible apply Fits.kxSwitched
    | with_reducible apply Fits.kxStart
    | with_reducible apply Fits.saAtLimit
    | with_reducible apply Fits.when
    | (intro _)
    | with_reducible apply Fits.ite
    | dsimp only
    | split
    | (refine Fits.pair ‹_ = (_, _)› ?_)
    | (refine Fits.pair2 ‹_ = (_, _, _)› ?_)

structure Touches.ctrlTag (N : Part → Prop) : Prop where
  h_cip : N .cip
  c_saReport : ∀ (a0 : Nat), Touches.saReport N a0
  c_saBoundary : ∀ (a0 : Nat), Touches.saBoundary N a0

theorem Fits.ctrlTag (le : Nat) (leaf : Nat) (msg : List Byte) (s : State) (h : Fits N s0 s) (tch : Touches.ctrlTag N) :
    Fits N s0 (ctrlTag le leaf msg s).2 := by
  obtain ⟨h_cip, c_saReport, c_saBoundary⟩ := tch
  unfold Sys2Proof.Machine.ctrlTag
  repeat' first
    | with_reducible assumption
    | with_reducible exact c_saReport _
    | with_reducible exact c_saBoundary _
    | with_reducible apply Fits.modAssoc
    | with_reducible apply Fits.saReport
    | with_reducible apply Fits.saBoundary
    | (intro _)
    | with_reducible apply Fits.ite
    | dsimp only
    | split
    | (refine Fits.pair ‹_ = (_, _)› ?_)
    | (refine Fits.pair2 ‹_ = (_, _, _)› ?_)

structure Touches.ctrlAccept (N : Part → Prop) : Prop where
  h_cip : N .cip
  h_ev : N .ev
  k_CIP_SA_VOID_count : ∀ (a0 : Nat), N (.reg (F.CIP_SA_VOID_count a0).key)
  c_saReport : ∀ (a0 : Nat), Touches.saReport N a0
  c_saBoundary : ∀ (a0 : Nat), Touches.saBoundary N a0

theorem Fits.ctrlAccept (le : Nat) (auth : Bool) (msg : List Byte) (tag : List Byte) (s : State) (h : Fits N s0 s) (tch : Touches.ctrlAccept N) :
    Fits N s0 (ctrlAccept le auth msg tag s).2 := by
  obtain ⟨h_cip, h_ev, k_CIP_SA_VOID_count, c_saReport, c_saBoundary⟩ := tch
  unfold Sys2Proof.Machine.ctrlAccept
  repeat' first
    | with_reducible assumption
    | with_reducible apply k_CIP_SA_VOID_count
    | with_reducible exact c_saReport _
    | with_reducible exact c_saBoundary _
    | with_reducible apply Fits.loss
    | with_reducible apply Fits.modAssoc
    | with_reducible apply Fits.saReport
    | with_reducible apply Fits.saBoundary
    | (intro _)
    | with_reducible apply Fits.ite
    | dsimp only
    | split
    | (refine Fits.pair ‹_ = (_, _)› ?_)
    | (refine Fits.pair2 ‹_ = (_, _, _)› ?_)

structure Touches.ctrlBoundary (N : Part → Prop) : Prop where
  c_saPart : Touches.saPart N
  c_saBoundary : ∀ (a0 : Nat), Touches.saBoundary N a0

theorem Fits.ctrlBoundary (le : Nat) (ty : Nat) (p : Nat) (s : State) (h : Fits N s0 s) (tch : Touches.ctrlBoundary N) :
    Fits N s0 (ctrlBoundary le ty p s) := by
  obtain ⟨c_saPart, c_saBoundary⟩ := tch
  unfold Sys2Proof.Machine.ctrlBoundary
  repeat' first
    | with_reducible assumption
    | with_reducible exact c_saBoundary _
    | with_reducible apply Fits.saPart
    | with_reducible apply Fits.saBoundary
    | with_reducible apply Fits.forEach
    | (intro _)
    | with_reducible apply Fits.ite
    | dsimp only
    | split
    | (refine Fits.pair ‹_ = (_, _)› ?_)
    | (refine Fits.pair2 ‹_ = (_, _, _)› ?_)

end Sys2Proof.Machine
end

