-- ==== Sys2Proof/Laws/FitsP2mp.lean ====
section
/-! SUPPORT. What the operations of Machine/P2mp.lean touch (a structure of parts for each, over those of the operations it calls), and
that each keeps the canonical form. -/
set_option linter.unusedTactic false
set_option linter.unreachableTactic false
namespace Sys2Proof.Machine

variable {N : Part → Prop} {s0 : State}

structure Touches.modLeafHub (N : Part → Prop) (le : Nat) : Prop where
  h_p2mp : N (.p2mp ((le : Nat) != 0))

theorem Fits.modLeafHub (le : Nat) (i : Nat) (f : LeafHub → LeafHub) (s : State) (h : Fits N s0 s) (tch : Touches.modLeafHub N le) :
    Fits N s0 (modLeafHub le i f s) := by
  obtain ⟨h_p2mp⟩ := tch
  unfold Sys2Proof.Machine.modLeafHub
  repeat' first
    | with_reducible assumption
    | with_reducible apply Fits.modP2
    | (intro _)
    | with_reducible apply Fits.ite
    | dsimp only
    | split
    | (refine Fits.pair ‹_ = (_, _)› ?_)
    | (refine Fits.pair2 ‹_ = (_, _, _)› ?_)

structure Touches.leafStGo (N : Part → Prop) (le : Nat) (i : Nat) : Prop where
  k_LE_P2MP_LEAF_ST_state : N (.reg (F.LE_P2MP_LEAF_ST_state le (i / 256) (i % 256)).key)
  c_level : Touches.level N (lep le 0x20)
  c_modLeafHub : Touches.modLeafHub N le

theorem Fits.leafStGo (le : Nat) (i : Nat) (v : Nat) (s : State) (h : Fits N s0 s) (tch : Touches.leafStGo N le i) :
    Fits N s0 (leafStGo le i v s) := by
  obtain ⟨k_LE_P2MP_LEAF_ST_state, c_level, c_modLeafHub⟩ := tch
  unfold Sys2Proof.Machine.leafStGo
  repeat' first
    | with_reducible assumption
    | with_reducible apply k_LE_P2MP_LEAF_ST_state
    | with_reducible apply Fits.setF
    | with_reducible apply Fits.level
    | with_reducible apply Fits.modLeafHub
    | (intro _)
    | with_reducible apply Fits.ite
    | dsimp only
    | split
    | (refine Fits.pair ‹_ = (_, _)› ?_)
    | (refine Fits.pair2 ‹_ = (_, _, _)› ?_)

structure Touches.msgPut (N : Part → Prop) (le : Nat) : Prop where
  k_LE_P2MP_LMSG_STAT_queued : N (.reg (F.LE_P2MP_LMSG_STAT_queued le).key)
  h_p2mp : N (.p2mp ((le : Nat) != 0))

theorem Fits.msgPut (le : Nat) (type : Nat) (leaf : Nat) (tag : Nat) (arg : Nat) (s : State) (h : Fits N s0 s) (tch : Touches.msgPut N le) :
    Fits N s0 (msgPut le type leaf tag arg s).2 := by
  obtain ⟨k_LE_P2MP_LMSG_STAT_queued, h_p2mp⟩ := tch
  unfold Sys2Proof.Machine.msgPut
  repeat' first
    | with_reducible assumption
    | with_reducible apply k_LE_P2MP_LMSG_STAT_queued
    | with_reducible apply Fits.setF
    | with_reducible apply Fits.modP2
    | (intro _)
    | with_reducible apply Fits.ite
    | dsimp only
    | split
    | (refine Fits.pair ‹_ = (_, _)› ?_)
    | (refine Fits.pair2 ‹_ = (_, _, _)› ?_)

structure Touches.sendAssign (N : Part → Prop) (le : Nat) : Prop where
  c_msgPut : Touches.msgPut N le

theorem Fits.sendAssign (le : Nat) (i : Nat) (s : State) (h : Fits N s0 s) (tch : Touches.sendAssign N le) :
    Fits N s0 (sendAssign le i s) := by
  obtain ⟨c_msgPut⟩ := tch
  unfold Sys2Proof.Machine.sendAssign
  repeat' first
    | with_reducible assumption
    | with_reducible apply Fits.msgPut
    | (intro _)
    | with_reducible apply Fits.ite
    | dsimp only
    | split
    | (refine Fits.pair ‹_ = (_, _)› ?_)
    | (refine Fits.pair2 ‹_ = (_, _, _)› ?_)

structure Touches.roMove (N : Part → Prop) (le : Nat) (i : Nat) : Prop where
  k_LE_P2MP_LEAF_ST_ro_active : N (.reg (F.LE_P2MP_LEAF_ST_ro_active le (i / 256) (i % 256)).key)
  c_evt : Touches.evt N (lep le 0x20)
  c_leafStGo : Touches.leafStGo N le i

theorem Fits.roMove (le : Nat) (i : Nat) (change : Int) (done : Bool) (s : State) (h : Fits N s0 s) (tch : Touches.roMove N le i) :
    Fits N s0 (roMove le i change done s) := by
  obtain ⟨k_LE_P2MP_LEAF_ST_ro_active, c_evt, c_leafStGo⟩ := tch
  unfold Sys2Proof.Machine.roMove
  repeat' first
    | with_reducible assumption
    | with_reducible apply k_LE_P2MP_LEAF_ST_ro_active
    | with_reducible apply Fits.setF
    | with_reducible apply Fits.evt
    | with_reducible apply Fits.leafStGo
    | (intro _)
    | with_reducible apply Fits.ite
    | dsimp only
    | split
    | (refine Fits.pair ‹_ = (_, _)› ?_)
    | (refine Fits.pair2 ‹_ = (_, _, _)› ?_)

structure Touches.sendRangeAdj (N : Part → Prop) (le : Nat) (i : Nat) : Prop where
  c_msgPut : Touches.msgPut N le
  c_roMove : Touches.roMove N le i

theorem Fits.sendRangeAdj (le : Nat) (i : Nat) (change : Int) (done : Bool) (s : State) (h : Fits N s0 s) (tch : Touches.sendRangeAdj N le i) :
    Fits N s0 (sendRangeAdj le i change done s) := by
  obtain ⟨c_msgPut, c_roMove⟩ := tch
  unfold Sys2Proof.Machine.sendRangeAdj
  repeat' first
    | with_reducible assumption
    | with_reducible apply Fits.msgPut
    | with_reducible apply Fits.roMove
    | (intro _)
    | with_reducible apply Fits.ite
    | dsimp only
    | split
    | (refine Fits.pair ‹_ = (_, _)› ?_)
    | (refine Fits.pair2 ‹_ = (_, _, _)› ?_)

structure Touches.leafQuiesce (N : Part → Prop) (le : Nat) (i : Nat) : Prop where
  c_modLeafHub : Touches.modLeafHub N le
  c_leafStGo : Touches.leafStGo N le i

theorem Fits.leafQuiesce (le : Nat) (i : Nat) (s : State) (h : Fits N s0 s) (tch : Touches.leafQuiesce N le i) :
    Fits N s0 (leafQuiesce le i s) := by
  obtain ⟨c_modLeafHub, c_leafStGo⟩ := tch
  unfold Sys2Proof.Machine.leafQuiesce
  repeat' first
    | with_reducible assumption
    | with_reducible apply Fits.modLeafHub
    | with_reducible apply Fits.leafStGo
    | (intro _)
    | with_reducible apply Fits.ite
    | dsimp only
    | split
    | (refine Fits.pair ‹_ = (_, _)› ?_)
    | (refine Fits.pair2 ‹_ = (_, _, _)› ?_)

structure Touches.leafRelease (N : Part → Prop) (le : Nat) (i : Nat) : Prop where
  c_modLeafHub : Touches.modLeafHub N le
  c_leafStGo : Touches.leafStGo N le i

theorem Fits.leafRelease (le : Nat) (i : Nat) (s : State) (h : Fits N s0 s) (tch : Touches.leafRelease N le i) :
    Fits N s0 (leafRelease le i s) := by
  obtain ⟨c_modLeafHub, c_leafStGo⟩ := tch
  unfold Sys2Proof.Machine.leafRelease
  repeat' first
    | with_reducible assumption
    | with_reducible apply Fits.modLeafHub
    | with_reducible apply Fits.leafStGo
    | (intro _)
    | with_reducible apply Fits.ite
    | dsimp only
    | split
    | (refine Fits.pair ‹_ = (_, _)› ?_)
    | (refine Fits.pair2 ‹_ = (_, _, _)› ?_)

structure Touches.leafCommit (N : Part → Prop) (le : Nat) : Prop where
  k_LE_P2MP_LEAF_CD_cd : ∀ (a1 : Nat) (a2 : Nat), N (.reg (F.LE_P2MP_LEAF_CD_cd le a1 a2).key)
  k_LE_P2MP_LEAF_ST_ro_active : ∀ (a1 : Nat) (a2 : Nat), N (.reg (F.LE_P2MP_LEAF_ST_ro_active le a1 a2).key)
  c_modLeafHub : Touches.modLeafHub N le
  c_leafStGo : ∀ (a1 : Nat), Touches.leafStGo N le a1
  c_msgPut : Touches.msgPut N le
  c_sendAssign : Touches.sendAssign N le

theorem Fits.leafCommit (le : Nat) (old : Tbl Nat) (s : State) (h : Fits N s0 s) (tch : Touches.leafCommit N le) :
    Fits N s0 (leafCommit le old s) := by
  obtain ⟨k_LE_P2MP_LEAF_CD_cd, k_LE_P2MP_LEAF_ST_ro_active, c_modLeafHub, c_leafStGo, c_msgPut, c_sendAssign⟩ := tch
  unfold Sys2Proof.Machine.leafCommit
  repeat' first
    | with_reducible assumption
    | with_reducible apply k_LE_P2MP_LEAF_CD_cd
    | with_reducible apply k_LE_P2MP_LEAF_ST_ro_active
    | with_reducible exact c_leafStGo _
    | with_reducible apply Fits.setF
    | with_reducible apply Fits.modLeafHub
    | with_reducible apply Fits.leafStGo
    | with_reducible apply Fits.msgPut
    | with_reducible apply Fits.sendAssign
    | with_reducible apply Fits.forEach
    | (intro _)
    | with_reducible apply Fits.ite
    | dsimp only
    | split
    | (refine Fits.pair ‹_ = (_, _)› ?_)
    | (refine Fits.pair2 ‹_ = (_, _, _)› ?_)

structure Touches.execLeafMsgRepeat (N : Part → Prop) (le : Fin 2) : Prop where
  h_time : N .time
  c_evt : Touches.evt N (lep le.val 0x20)
  c_modLeafHub : Touches.modLeafHub N le.val
  c_msgPut : Touches.msgPut N le.val
  c_sendAssign : Touches.sendAssign N le.val

theorem FitsOut.execLeafMsgRepeat (le : Fin 2) (i : Fin 512) (s : State) (h : Fits N s0 s) (tch : Touches.execLeafMsgRepeat N le) :
    FitsOut N s0 (execLeafMsgRepeat le i s) := by
  obtain ⟨h_time, c_evt, c_modLeafHub, c_msgPut, c_sendAssign⟩ := tch
  unfold Sys2Proof.Machine.execLeafMsgRepeat
  repeat' first
    | with_reducible assumption
    | with_reducible apply Fits.reach
    | with_reducible apply Fits.evt
    | with_reducible apply Fits.modLeafHub
    | with_reducible apply Fits.msgPut
    | with_reducible apply Fits.sendAssign
    | with_reducible apply FitsOut.ite
    | with_reducible apply FitsOut.next
    | with_reducible apply FitsOut.fault
    | (intro _)
    | with_reducible apply Fits.ite
    | dsimp only
    | split
    | (refine Fits.pair ‹_ = (_, _)› ?_)
    | (refine Fits.pair2 ‹_ = (_, _, _)› ?_)

structure Touches.lmsgGo (N : Part → Prop) (le : Nat) : Prop where
  k_LE_P2MP_LMSG_STAT_overrun : N (.reg (F.LE_P2MP_LMSG_STAT_overrun le).key)
  c_goWrite : Touches.goWrite N (lep le 0x21 * 0x1000 + 0x90)
  c_msgPut : Touches.msgPut N le
  c_roMove : ∀ (a1 : Nat), Touches.roMove N le a1
  c_leafQuiesce : ∀ (a1 : Nat), Touches.leafQuiesce N le a1
  c_leafRelease : ∀ (a1 : Nat), Touches.leafRelease N le a1

theorem Fits.lmsgGo (m : Master) (le : Nat) (s : State) (h : Fits N s0 s) (tch : Touches.lmsgGo N le) :
    Fits N s0 (lmsgGo m le s) := by
  obtain ⟨k_LE_P2MP_LMSG_STAT_overrun, c_goWrite, c_msgPut, c_roMove, c_leafQuiesce, c_leafRelease⟩ := tch
  unfold Sys2Proof.Machine.lmsgGo
  repeat' first
    | with_reducible assumption
    | with_reducible apply k_LE_P2MP_LMSG_STAT_overrun
    | with_reducible exact c_roMove _
    | with_reducible exact c_leafQuiesce _
    | with_reducible exact c_leafRelease _
    | with_reducible apply Fits.setB
    | with_reducible apply Fits.msgPut
    | with_reducible apply Fits.roMove
    | with_reducible apply Fits.leafQuiesce
    | with_reducible apply Fits.leafRelease
    | with_reducible apply Fits.goWrite
    | (intro _)
    | with_reducible apply Fits.ite
    | dsimp only
    | split
    | (refine Fits.pair ‹_ = (_, _)› ?_)
    | (refine Fits.pair2 ‹_ = (_, _, _)› ?_)

structure Touches.execLmsgGo (N : Part → Prop) (le : Fin 2) : Prop where
  c_lmsgGo : Touches.lmsgGo N le.val

theorem FitsOut.execLmsgGo (m : Master) (le : Fin 2) (s : State) (h : Fits N s0 s) (tch : Touches.execLmsgGo N le) :
    FitsOut N s0 (execLmsgGo m le s) := by
  obtain ⟨c_lmsgGo⟩ := tch
  unfold Sys2Proof.Machine.execLmsgGo
  repeat' first
    | with_reducible assumption
    | with_reducible apply Fits.lmsgGo
    | with_reducible apply FitsOut.ite
    | with_reducible apply FitsOut.next
    | with_reducible apply FitsOut.fault
    | (intro _)
    | with_reducible apply Fits.ite
    | dsimp only
    | split
    | (refine Fits.pair ‹_ = (_, _)› ?_)
    | (refine Fits.pair2 ‹_ = (_, _, _)› ?_)

structure Touches.mapBuild (N : Part → Prop) (le : Nat) : Prop where
  k_LE_P2MP_CNT_count : N (.reg (F.LE_P2MP_CNT_count le 9).key)
  h_p2mp : N (.p2mp ((le : Nat) != 0))
  c_ohPut : Touches.ohPut N le

theorem Fits.mapBuild (le : Nat) (p : Nat) (s : State) (h : Fits N s0 s) (tch : Touches.mapBuild N le) :
    Fits N s0 (mapBuild le p s) := by
  obtain ⟨k_LE_P2MP_CNT_count, h_p2mp, c_ohPut⟩ := tch
  unfold Sys2Proof.Machine.mapBuild
  repeat' first
    | with_reducible assumption
    | with_reducible apply k_LE_P2MP_CNT_count
    | with_reducible apply Fits.bump
    | with_reducible apply Fits.modP2
    | with_reducible apply Fits.ohPut
    | with_reducible apply Fits.forEach
    | (intro _)
    | with_reducible apply Fits.ite
    | dsimp only
    | split
    | (refine Fits.pair ‹_ = (_, _)› ?_)
    | (refine Fits.pair2 ‹_ = (_, _, _)› ?_)

structure Touches.execMapBuild (N : Part → Prop) (le : Fin 2) : Prop where
  h_time : N .time
  c_ctrlBoundary : Touches.ctrlBoundary N
  c_mapBuild : Touches.mapBuild N le.val

theorem FitsOut.execMapBuild (le : Fin 2) (s : State) (h : Fits N s0 s) (tch : Touches.execMapBuild N le) :
    FitsOut N s0 (execMapBuild le s) := by
  obtain ⟨h_time, c_ctrlBoundary, c_mapBuild⟩ := tch
  unfold Sys2Proof.Machine.execMapBuild
  repeat' first
    | with_reducible assumption
    | with_reducible apply Fits.reach
    | with_reducible apply Fits.ctrlBoundary
    | with_reducible apply Fits.mapBuild
    | with_reducible apply FitsOut.ite
    | with_reducible apply FitsOut.next
    | with_reducible apply FitsOut.fault
    | (intro _)
    | with_reducible apply Fits.ite
    | dsimp only
    | split
    | (refine Fits.pair ‹_ = (_, _)› ?_)
    | (refine Fits.pair2 ‹_ = (_, _, _)› ?_)

structure Touches.drawBackoff (N : Part → Prop) (le : Nat) : Prop where
  h_drawn : N .drawn
  h_p2mp : N (.p2mp ((le : Nat) != 0))

theorem Fits.drawBackoff (le : Nat) (s : State) (h : Fits N s0 s) (tch : Touches.drawBackoff N le) :
    Fits N s0 (drawBackoff le s) := by
  obtain ⟨h_drawn, h_p2mp⟩ := tch
  unfold Sys2Proof.Machine.drawBackoff
  repeat' first
    | with_reducible assumption
    | with_reducible apply Fits.draw
    | with_reducible apply Fits.modP2
    | (intro _)
    | with_reducible apply Fits.ite
    | dsimp only
    | split
    | (refine Fits.pair ‹_ = (_, _)› ?_)
    | (refine Fits.pair2 ‹_ = (_, _, _)› ?_)

structure Touches.leafGo (N : Part → Prop) (le : Nat) : Prop where
  k_LE_P2MP_LEAF_STAT_state : N (.reg (F.LE_P2MP_LEAF_STAT_state le).key)
  h_p2mp : N (.p2mp ((le : Nat) != 0))
  c_txEval : Touches.txEval N le
  c_drawBackoff : Touches.drawBackoff N le

theorem Fits.leafGo (le : Nat) (v : Nat) (s : State) (h : Fits N s0 s) (tch : Touches.leafGo N le) :
    Fits N s0 (leafGo le v s) := by
  obtain ⟨k_LE_P2MP_LEAF_STAT_state, h_p2mp, c_txEval, c_drawBackoff⟩ := tch
  unfold Sys2Proof.Machine.leafGo
  repeat' first
    | with_reducible assumption
    | with_reducible apply k_LE_P2MP_LEAF_STAT_state
    | with_reducible apply Fits.setF
    | with_reducible apply Fits.modP2
    | with_reducible apply Fits.txEval
    | with_reducible apply Fits.drawBackoff
    | (intro _)
    | with_reducible apply Fits.ite
    | dsimp only
    | split
    | (refine Fits.pair ‹_ = (_, _)› ?_)
    | (refine Fits.pair2 ‹_ = (_, _, _)› ?_)

structure Touches.leafForget (N : Part → Prop) (le : Nat) : Prop where
  k_LE_P2MP_LEAF_RO_ro : N (.reg (F.LE_P2MP_LEAF_RO_ro le).key)
  k_LE_P2MP_LEAF_STAT_leaf_id : N (.reg (F.LE_P2MP_LEAF_STAT_leaf_id le).key)

theorem Fits.leafForget (le : Nat) (s : State) (h : Fits N s0 s) (tch : Touches.leafForget N le) :
    Fits N s0 (leafForget le s) := by
  obtain ⟨k_LE_P2MP_LEAF_RO_ro, k_LE_P2MP_LEAF_STAT_leaf_id⟩ := tch
  unfold Sys2Proof.Machine.leafForget
  repeat' first
    | with_reducible assumption
    | with_reducible apply k_LE_P2MP_LEAF_RO_ro
    | with_reducible apply k_LE_P2MP_LEAF_STAT_leaf_id
    | with_reducible apply Fits.setF
    | (intro _)
    | with_reducible apply Fits.ite
    | dsimp only
    | split
    | (refine Fits.pair ‹_ = (_, _)› ?_)
    | (refine Fits.pair2 ‹_ = (_, _, _)› ?_)

structure Touches.leafIdle (N : Part → Prop) (le : Nat) : Prop where
  c_leafGo : Touches.leafGo N le
  c_leafForget : Touches.leafForget N le

theorem Fits.leafIdle (le : Nat) (s : State) (h : Fits N s0 s) (tch : Touches.leafIdle N le) :
    Fits N s0 (leafIdle le s) := by
  obtain ⟨c_leafGo, c_leafForget⟩ := tch
  unfold Sys2Proof.Machine.leafIdle
  repeat' first
    | with_reducible assumption
    | with_reducible apply Fits.leafGo
    | with_reducible apply Fits.leafForget
    | (intro _)
    | with_reducible apply Fits.ite
    | dsimp only
    | split
    | (refine Fits.pair ‹_ = (_, _)› ?_)
    | (refine Fits.pair2 ‹_ = (_, _, _)› ?_)

structure Touches.leafEval (N : Part → Prop) (le : Nat) : Prop where
  c_leafGo : Touches.leafGo N le
  c_leafForget : Touches.leafForget N le

theorem Fits.leafEval (le : Nat) (s : State) (h : Fits N s0 s) (tch : Touches.leafEval N le) :
    Fits N s0 (leafEval le s) := by
  obtain ⟨c_leafGo, c_leafForget⟩ := tch
  unfold Sys2Proof.Machine.leafEval
  repeat' first
    | with_reducible assumption
    | with_reducible apply Fits.leafGo
    | with_reducible apply Fits.leafForget
    | (intro _)
    | with_reducible apply Fits.ite
    | dsimp only
    | split
    | (refine Fits.pair ‹_ = (_, _)› ?_)
    | (refine Fits.pair2 ‹_ = (_, _, _)› ?_)

structure Touches.execGlfHeaderRx (N : Part → Prop) (le : Fin 2) (k : Fin 32) : Prop where
  c_glfJudge : Touches.glfJudge N le.val k.val
  c_saPart : Touches.saPart N
  c_leafEval : Touches.leafEval N le.val

theorem FitsOut.execGlfHeaderRx (le : Fin 2) (k : Fin 32) (pos : Nat) (hdr : List Byte) (partB : List Byte) (jc : List (Fin 32 × Word)) (s : State) (h : Fits N s0 s) (tch : Touches.execGlfHeaderRx N le k) :
    FitsOut N s0 (execGlfHeaderRx le k pos hdr partB jc s) := by
  obtain ⟨c_glfJudge, c_saPart, c_leafEval⟩ := tch
  unfold Sys2Proof.Machine.execGlfHeaderRx
  repeat' first
    | with_reducible assumption
    | with_reducible apply Fits.glfJudge
    | with_reducible apply Fits.saPart
    | with_reducible apply Fits.leafEval
    | with_reducible apply FitsOut.ite
    | with_reducible apply FitsOut.next
    | with_reducible apply FitsOut.fault
    | (intro _)
    | with_reducible apply Fits.ite
    | dsimp only
    | split
    | (refine Fits.pair ‹_ = (_, _)› ?_)
    | (refine Fits.pair2 ‹_ = (_, _, _)› ?_)

structure Touches.execMapSegment (N : Part → Prop) (le : Fin 2) : Prop where
  k_LE_P2MP_LEAF_CNT_count : N (.reg (F.LE_P2MP_LEAF_CNT_count le.val 1).key)
  h_p2mp : N (.p2mp ((le.val : Nat) != 0))
  c_evt : Touches.evt N (lep le.val 0x22)
  c_txEval : Touches.txEval N le.val
  c_ctrlBoundary : Touches.ctrlBoundary N
  c_leafEval : Touches.leafEval N le.val

theorem FitsOut.execMapSegment (le : Fin 2) (k : Fin 32) (latch : BitVec 64) (seg : List Byte) (s : State) (h : Fits N s0 s) (tch : Touches.execMapSegment N le) :
    FitsOut N s0 (execMapSegment le k latch seg s) := by
  obtain ⟨k_LE_P2MP_LEAF_CNT_count, h_p2mp, c_evt, c_txEval, c_ctrlBoundary, c_leafEval⟩ := tch
  unfold Sys2Proof.Machine.execMapSegment
  repeat' first
    | with_reducible assumption
    | with_reducible apply k_LE_P2MP_LEAF_CNT_count
    | with_reducible apply Fits.bump
    | with_reducible apply Fits.evt
    | with_reducible apply Fits.modP2
    | with_reducible apply Fits.txEval
    | with_reducible apply Fits.ctrlBoundary
    | with_reducible apply Fits.leafEval
    | with_reducible apply FitsOut.ite
    | with_reducible apply FitsOut.next
    | with_reducible apply FitsOut.fault
    | (intro _)
    | with_reducible apply Fits.ite
    | dsimp only
    | split
    | (refine Fits.pair ‹_ = (_, _)› ?_)
    | (refine Fits.pair2 ‹_ = (_, _, _)› ?_)

structure Touches.burstOut (N : Part → Prop) (le : Nat) : Prop where
  h_ev : N .ev
  h_time : N .time
  h_p2mp : N (.p2mp ((le : Nat) != 0))
  c_envBurst : Touches.envBurst N le

theorem Fits.burstOut (le : Nat) (hdr : Nat) (g : Nat) (t : Nat) (at' : Nat) (bytes : List Byte) (s : State) (h : Fits N s0 s) (tch : Touches.burstOut N le) :
    Fits N s0 (burstOut le hdr g t at' bytes s) := by
  obtain ⟨h_ev, h_time, h_p2mp, c_envBurst⟩ := tch
  unfold Sys2Proof.Machine.burstOut
  repeat' first
    | with_reducible assumption
    | with_reducible apply Fits.reach
    | with_reducible apply Fits.datapath
    | with_reducible apply Fits.modP2
    | with_reducible apply Fits.envBurst
    | (intro _)
    | with_reducible apply Fits.ite
    | dsimp only
    | split
    | (refine Fits.pair ‹_ = (_, _)› ?_)
    | (refine Fits.pair2 ‹_ = (_, _, _)› ?_)

structure Touches.burstBytes (N : Part → Prop) (le : Nat) : Prop where
  h_cip : N .cip
  c_takeCells : Touches.takeCells N le

theorem Fits.burstBytes (le : Nat) (cw : Nat) (s : State) (h : Fits N s0 s) (tch : Touches.burstBytes N le) :
    Fits N s0 (burstBytes le cw s).2 := by
  obtain ⟨h_cip, c_takeCells⟩ := tch
  unfold Sys2Proof.Machine.burstBytes
  split
  · exact h
  · split
    · exact Fits.upd_cip h h_cip _
    · exact Fits.takeCells _ _ _ _ h c_takeCells

structure Touches.execBurstTransmit (N : Part → Prop) (le : Fin 2) : Prop where
  k_LE_P2MP_LEAF_CNT_count : N (.reg (F.LE_P2MP_LEAF_CNT_count le.val 0).key)
  h_p2mp : N (.p2mp ((le.val : Nat) != 0))
  c_burstOut : Touches.burstOut N le.val
  c_burstBytes : Touches.burstBytes N le.val

theorem FitsOut.execBurstTransmit (le : Fin 2) (g : BitVec 64) (s : State) (h : Fits N s0 s) (tch : Touches.execBurstTransmit N le) :
    FitsOut N s0 (execBurstTransmit le g s) := by
  obtain ⟨k_LE_P2MP_LEAF_CNT_count, h_p2mp, c_burstOut, c_burstBytes⟩ := tch
  unfold Sys2Proof.Machine.execBurstTransmit
  repeat' first
    | with_reducible assumption
    | with_reducible apply k_LE_P2MP_LEAF_CNT_count
    | with_reducible apply Fits.bump
    | with_reducible apply Fits.modP2
    | with_reducible apply Fits.burstOut
    | with_reducible apply Fits.burstBytes
    | with_reducible apply FitsOut.ite
    | with_reducible apply FitsOut.next
    | with_reducible apply FitsOut.fault
    | (intro _)
    | with_reducible apply Fits.ite
    | dsimp only
    | split
    | (refine Fits.pair ‹_ = (_, _)› ?_)
    | (refine Fits.pair2 ‹_ = (_, _, _)› ?_)

structure Touches.execDiscoveryBurst (N : Part → Prop) (le : Fin 2) : Prop where
  h_drawn : N .drawn
  k_LE_P2MP_LEAF_CNT_count : N (.reg (F.LE_P2MP_LEAF_CNT_count le.val 3).key)
  h_p2mp : N (.p2mp ((le.val : Nat) != 0))
  c_burstOut : Touches.burstOut N le.val

theorem FitsOut.execDiscoveryBurst (le : Fin 2) (g : BitVec 64) (s : State) (h : Fits N s0 s) (tch : Touches.execDiscoveryBurst N le) :
    FitsOut N s0 (execDiscoveryBurst le g s) := by
  obtain ⟨h_drawn, k_LE_P2MP_LEAF_CNT_count, h_p2mp, c_burstOut⟩ := tch
  unfold Sys2Proof.Machine.execDiscoveryBurst
  repeat' first
    | with_reducible assumption
    | with_reducible apply k_LE_P2MP_LEAF_CNT_count
    | with_reducible apply Fits.bump
    | with_reducible apply Fits.draw
    | with_reducible apply Fits.modP2
    | with_reducible apply Fits.burstOut
    | with_reducible apply FitsOut.ite
    | with_reducible apply FitsOut.next
    | with_reducible apply FitsOut.fault
    | (intro _)
    | with_reducible apply Fits.ite
    | dsimp only
    | split
    | (refine Fits.pair ‹_ = (_, _)› ?_)
    | (refine Fits.pair2 ‹_ = (_, _, _)› ?_)

structure Touches.execDiscoveryWaitExpiry (N : Part → Prop) (le : Fin 2) : Prop where
  h_time : N .time
  c_drawBackoff : Touches.drawBackoff N le.val

theorem FitsOut.execDiscoveryWaitExpiry (le : Fin 2) (s : State) (h : Fits N s0 s) (tch : Touches.execDiscoveryWaitExpiry N le) :
    FitsOut N s0 (execDiscoveryWaitExpiry le s) := by
  obtain ⟨h_time, c_drawBackoff⟩ := tch
  unfold Sys2Proof.Machine.execDiscoveryWaitExpiry
  repeat' first
    | with_reducible assumption
    | with_reducible apply Fits.reach
    | with_reducible apply Fits.drawBackoff
    | with_reducible apply FitsOut.ite
    | with_reducible apply FitsOut.next
    | with_reducible apply FitsOut.fault
    | (intro _)
    | with_reducible apply Fits.ite
    | dsimp only
    | split
    | (refine Fits.pair ‹_ = (_, _)› ?_)
    | (refine Fits.pair2 ‹_ = (_, _, _)› ?_)

structure Touches.execAssign (N : Part → Prop) (le : Fin 2) : Prop where
  k_LE_P2MP_LEAF_CNT_count : N (.reg (F.LE_P2MP_LEAF_CNT_count le.val 1).key)
  k_LE_P2MP_LEAF_RO_ro : N (.reg (F.LE_P2MP_LEAF_RO_ro le.val).key)
  k_LE_P2MP_LEAF_STAT_home : N (.reg (F.LE_P2MP_LEAF_STAT_home le.val).key)
  k_LE_P2MP_LEAF_STAT_leaf_id : N (.reg (F.LE_P2MP_LEAF_STAT_leaf_id le.val).key)
  h_p2mp : N (.p2mp ((le.val : Nat) != 0))
  c_evt : Touches.evt N (lep le.val 0x22)
  c_leafGo : Touches.leafGo N le.val

theorem FitsOut.execAssign (le : Fin 2) (id : Fin 512) (tag : BitVec 24) (home : Fin 32) (ro : BitVec 20) (s : State) (h : Fits N s0 s) (tch : Touches.execAssign N le) :
    FitsOut N s0 (execAssign le id tag home ro s) := by
  obtain ⟨k_LE_P2MP_LEAF_CNT_count, k_LE_P2MP_LEAF_RO_ro, k_LE_P2MP_LEAF_STAT_home, k_LE_P2MP_LEAF_STAT_leaf_id, h_p2mp, c_evt, c_leafGo⟩ := tch
  unfold Sys2Proof.Machine.execAssign
  repeat' first
    | with_reducible assumption
    | with_reducible apply k_LE_P2MP_LEAF_CNT_count
    | with_reducible apply k_LE_P2MP_LEAF_RO_ro
    | with_reducible apply k_LE_P2MP_LEAF_STAT_home
    | with_reducible apply k_LE_P2MP_LEAF_STAT_leaf_id
    | with_reducible apply Fits.setF
    | with_reducible apply Fits.bump
    | with_reducible apply Fits.evt
    | with_reducible apply Fits.modP2
    | with_reducible apply Fits.leafGo
    | with_reducible apply FitsOut.ite
    | with_reducible apply FitsOut.next
    | with_reducible apply FitsOut.fault
    | (intro _)
    | with_reducible apply Fits.ite
    | dsimp only
    | split
    | (refine Fits.pair ‹_ = (_, _)› ?_)
    | (refine Fits.pair2 ‹_ = (_, _, _)› ?_)

structure Touches.leafMsg (N : Part → Prop) (le : Nat) : Prop where
  k_LE_P2MP_LEAF_CNT_count : N (.reg (F.LE_P2MP_LEAF_CNT_count le 2).key)
  c_evt : Touches.evt N (lep le 0x22)
  c_ctrlAccept : Touches.ctrlAccept N

theorem Fits.leafMsg (le : Nat) (type : Nat) (id : Nat) (arg : Nat) (seq : Nat) (tag : List Byte) (f : State → State) (s : State) (h : Fits N s0 s) (h_f : ∀ t, Fits N s0 t → Fits N s0 (f t)) (tch : Touches.leafMsg N le) :
    Fits N s0 (leafMsg le type id arg seq tag f s) := by
  obtain ⟨k_LE_P2MP_LEAF_CNT_count, c_evt, c_ctrlAccept⟩ := tch
  unfold Sys2Proof.Machine.leafMsg
  repeat' first
    | with_reducible assumption
    | with_reducible apply k_LE_P2MP_LEAF_CNT_count
    | with_reducible apply h_f
    | with_reducible apply Fits.bump
    | with_reducible apply Fits.evt
    | with_reducible apply Fits.ctrlAccept
    | (intro _)
    | with_reducible apply Fits.ite
    | dsimp only
    | split
    | (refine Fits.pair ‹_ = (_, _)› ?_)
    | (refine Fits.pair2 ‹_ = (_, _, _)› ?_)

structure Touches.execRangeAdj (N : Part → Prop) (le : Fin 2) : Prop where
  k_LE_P2MP_LEAF_RO_ro : N (.reg (F.LE_P2MP_LEAF_RO_ro le.val).key)
  c_evt : Touches.evt N (lep le.val 0x22)
  c_leafGo : Touches.leafGo N le.val
  c_leafMsg : Touches.leafMsg N le.val

theorem FitsOut.execRangeAdj (le : Fin 2) (id : Fin 512) (done : Bool) (change : BitVec 16) (seq : BitVec 16) (tag : List Byte) (s : State) (h : Fits N s0 s) (tch : Touches.execRangeAdj N le) :
    FitsOut N s0 (execRangeAdj le id done change seq tag s) := by
  obtain ⟨k_LE_P2MP_LEAF_RO_ro, c_evt, c_leafGo, c_leafMsg⟩ := tch
  unfold Sys2Proof.Machine.execRangeAdj
  repeat' first
    | with_reducible assumption
    | with_reducible apply k_LE_P2MP_LEAF_RO_ro
    | with_reducible apply Fits.setF
    | with_reducible apply Fits.evt
    | with_reducible apply Fits.leafGo
    | with_reducible apply Fits.leafMsg
    | with_reducible apply FitsOut.ite
    | with_reducible apply FitsOut.next
    | with_reducible apply FitsOut.fault
    | (intro _)
    | with_reducible apply Fits.ite
    | dsimp only
    | split
    | (refine Fits.pair ‹_ = (_, _)› ?_)
    | (refine Fits.pair2 ‹_ = (_, _, _)› ?_)

structure Touches.execPowerAdj (N : Part → Prop) (le : Fin 2) : Prop where
  k_LE_P2MP_LEAF_GAIN_gain : N (.reg (F.LE_P2MP_LEAF_GAIN_gain le.val).key)
  c_leafMsg : Touches.leafMsg N le.val

theorem FitsOut.execPowerAdj (le : Fin 2) (id : Fin 512) (change : BitVec 16) (seq : BitVec 16) (tag : List Byte) (s : State) (h : Fits N s0 s) (tch : Touches.execPowerAdj N le) :
    FitsOut N s0 (execPowerAdj le id change seq tag s) := by
  obtain ⟨k_LE_P2MP_LEAF_GAIN_gain, c_leafMsg⟩ := tch
  unfold Sys2Proof.Machine.execPowerAdj
  repeat' first
    | with_reducible assumption
    | with_reducible apply k_LE_P2MP_LEAF_GAIN_gain
    | with_reducible apply Fits.setF
    | with_reducible apply Fits.leafMsg
    | with_reducible apply FitsOut.ite
    | with_reducible apply FitsOut.next
    | with_reducible apply FitsOut.fault
    | (intro _)
    | with_reducible apply Fits.ite
    | dsimp only
    | split
    | (refine Fits.pair ‹_ = (_, _)› ?_)
    | (refine Fits.pair2 ‹_ = (_, _, _)› ?_)

structure Touches.execQuiesce (N : Part → Prop) (le : Fin 2) : Prop where
  c_evt : Touches.evt N (lep le.val 0x22)
  c_leafGo : Touches.leafGo N le.val
  c_leafMsg : Touches.leafMsg N le.val

theorem FitsOut.execQuiesce (le : Fin 2) (id : Fin 512) (seq : BitVec 16) (tag : List Byte) (s : State) (h : Fits N s0 s) (tch : Touches.execQuiesce N le) :
    FitsOut N s0 (execQuiesce le id seq tag s) := by
  obtain ⟨c_evt, c_leafGo, c_leafMsg⟩ := tch
  unfold Sys2Proof.Machine.execQuiesce
  repeat' first
    | with_reducible assumption
    | with_reducible apply Fits.evt
    | with_reducible apply Fits.leafGo
    | with_reducible apply Fits.leafMsg
    | with_reducible apply FitsOut.ite
    | with_reducible apply FitsOut.next
    | with_reducible apply FitsOut.fault
    | (intro _)
    | with_reducible apply Fits.ite
    | dsimp only
    | split
    | (refine Fits.pair ‹_ = (_, _)› ?_)
    | (refine Fits.pair2 ‹_ = (_, _, _)› ?_)

structure Touches.leafUnquiesce (N : Part → Prop) (le : Nat) : Prop where
  h_p2mp : N (.p2mp ((le : Nat) != 0))
  c_leafGo : Touches.leafGo N le

theorem Fits.leafUnquiesce (le : Nat) (s : State) (h : Fits N s0 s) (tch : Touches.leafUnquiesce N le) :
    Fits N s0 (leafUnquiesce le s) := by
  obtain ⟨h_p2mp, c_leafGo⟩ := tch
  unfold Sys2Proof.Machine.leafUnquiesce
  repeat' first
    | with_reducible assumption
    | with_reducible apply Fits.modP2
    | with_reducible apply Fits.leafGo
    | (intro _)
    | with_reducible apply Fits.ite
    | dsimp only
    | split
    | (refine Fits.pair ‹_ = (_, _)› ?_)
    | (refine Fits.pair2 ‹_ = (_, _, _)› ?_)

structure Touches.execRelease (N : Part → Prop) (le : Fin 2) : Prop where
  c_leafMsg : Touches.leafMsg N le.val
  c_leafUnquiesce : Touches.leafUnquiesce N le.val

theorem FitsOut.execRelease (le : Fin 2) (id : Fin 512) (seq : BitVec 16) (tag : List Byte) (s : State) (h : Fits N s0 s) (tch : Touches.execRelease N le) :
    FitsOut N s0 (execRelease le id seq tag s) := by
  obtain ⟨c_leafMsg, c_leafUnquiesce⟩ := tch
  unfold Sys2Proof.Machine.execRelease
  repeat' first
    | with_reducible assumption
    | with_reducible apply Fits.leafMsg
    | with_reducible apply Fits.leafUnquiesce
    | with_reducible apply FitsOut.ite
    | with_reducible apply FitsOut.next
    | with_reducible apply FitsOut.fault
    | (intro _)
    | with_reducible apply Fits.ite
    | dsimp only
    | split
    | (refine Fits.pair ‹_ = (_, _)› ?_)
    | (refine Fits.pair2 ‹_ = (_, _, _)› ?_)

structure Touches.execDeregister (N : Part → Prop) (le : Fin 2) : Prop where
  k_LE_P2MP_LEAF_STAT_leaf_id : N (.reg (F.LE_P2MP_LEAF_STAT_leaf_id le.val).key)
  c_leafGo : Touches.leafGo N le.val
  c_leafMsg : Touches.leafMsg N le.val

theorem FitsOut.execDeregister (le : Fin 2) (id : Fin 512) (seq : BitVec 16) (tag : List Byte) (s : State) (h : Fits N s0 s) (tch : Touches.execDeregister N le) :
    FitsOut N s0 (execDeregister le id seq tag s) := by
  obtain ⟨k_LE_P2MP_LEAF_STAT_leaf_id, c_leafGo, c_leafMsg⟩ := tch
  unfold Sys2Proof.Machine.execDeregister
  repeat' first
    | with_reducible assumption
    | with_reducible apply k_LE_P2MP_LEAF_STAT_leaf_id
    | with_reducible apply Fits.setF
    | with_reducible apply Fits.leafGo
    | with_reducible apply Fits.leafMsg
    | with_reducible apply FitsOut.ite
    | with_reducible apply FitsOut.next
    | with_reducible apply FitsOut.fault
    | (intro _)
    | with_reducible apply Fits.ite
    | dsimp only
    | split
    | (refine Fits.pair ‹_ = (_, _)› ?_)
    | (refine Fits.pair2 ‹_ = (_, _, _)› ?_)

structure Touches.leafClr (N : Part → Prop) (le : Nat) : Prop where
  c_goWrite : Touches.goWrite N (lep le 0x22 * 0x1000 + 0x54)
  c_leafUnquiesce : Touches.leafUnquiesce N le

theorem Fits.leafClr (m : Master) (le : Nat) (s : State) (h : Fits N s0 s) (tch : Touches.leafClr N le) :
    Fits N s0 (leafClr m le s) := by
  obtain ⟨c_goWrite, c_leafUnquiesce⟩ := tch
  unfold Sys2Proof.Machine.leafClr
  repeat' first
    | with_reducible assumption
    | with_reducible apply Fits.leafUnquiesce
    | with_reducible apply Fits.goWrite
    | (intro _)
    | with_reducible apply Fits.ite
    | dsimp only
    | split
    | (refine Fits.pair ‹_ = (_, _)› ?_)
    | (refine Fits.pair2 ‹_ = (_, _, _)› ?_)

structure Touches.execLeafClr (N : Part → Prop) (le : Fin 2) : Prop where
  c_leafClr : Touches.leafClr N le.val

theorem FitsOut.execLeafClr (m : Master) (le : Fin 2) (s : State) (h : Fits N s0 s) (tch : Touches.execLeafClr N le) :
    FitsOut N s0 (execLeafClr m le s) := by
  obtain ⟨c_leafClr⟩ := tch
  unfold Sys2Proof.Machine.execLeafClr
  repeat' first
    | with_reducible assumption
    | with_reducible apply Fits.leafClr
    | with_reducible apply FitsOut.ite
    | with_reducible apply FitsOut.next
    | with_reducible apply FitsOut.fault
    | (intro _)
    | with_reducible apply Fits.ite
    | dsimp only
    | split
    | (refine Fits.pair ‹_ = (_, _)› ?_)
    | (refine Fits.pair2 ‹_ = (_, _, _)› ?_)

structure Touches.execSelfGuardTrip (N : Part → Prop) (le : Fin 2) : Prop where
  h_p2mp : N (.p2mp ((le.val : Nat) != 0))
  c_evt : Touches.evt N (lep le.val 0x22)
  c_leafGo : Touches.leafGo N le.val

theorem FitsOut.execSelfGuardTrip (le : Fin 2) (s : State) (h : Fits N s0 s) (tch : Touches.execSelfGuardTrip N le) :
    FitsOut N s0 (execSelfGuardTrip le s) := by
  obtain ⟨h_p2mp, c_evt, c_leafGo⟩ := tch
  unfold Sys2Proof.Machine.execSelfGuardTrip
  repeat' first
    | with_reducible assumption
    | with_reducible apply Fits.evt
    | with_reducible apply Fits.modP2
    | with_reducible apply Fits.leafGo
    | with_reducible apply FitsOut.ite
    | with_reducible apply FitsOut.next
    | with_reducible apply FitsOut.fault
    | (intro _)
    | with_reducible apply Fits.ite
    | dsimp only
    | split
    | (refine Fits.pair ‹_ = (_, _)› ?_)
    | (refine Fits.pair2 ‹_ = (_, _, _)› ?_)

structure Touches.execSegmentLossDark (N : Part → Prop) (le : Fin 2) : Prop where
  h_time : N .time
  h_p2mp : N (.p2mp ((le.val : Nat) != 0))
  c_txEval : Touches.txEval N le.val

theorem FitsOut.execSegmentLossDark (le : Fin 2) (s : State) (h : Fits N s0 s) (tch : Touches.execSegmentLossDark N le) :
    FitsOut N s0 (execSegmentLossDark le s) := by
  obtain ⟨h_time, h_p2mp, c_txEval⟩ := tch
  unfold Sys2Proof.Machine.execSegmentLossDark
  repeat' first
    | with_reducible assumption
    | with_reducible apply Fits.reach
    | with_reducible apply Fits.modP2
    | with_reducible apply Fits.txEval
    | with_reducible apply FitsOut.ite
    | with_reducible apply FitsOut.next
    | with_reducible apply FitsOut.fault
    | (intro _)
    | with_reducible apply Fits.ite
    | dsimp only
    | split
    | (refine Fits.pair ‹_ = (_, _)› ?_)
    | (refine Fits.pair2 ‹_ = (_, _, _)› ?_)

structure Touches.execMapLost (N : Part → Prop) (le : Fin 2) : Prop where
  h_time : N .time
  c_evt : Touches.evt N (lep le.val 0x22)
  c_leafGo : Touches.leafGo N le.val

theorem FitsOut.execMapLost (le : Fin 2) (s : State) (h : Fits N s0 s) (tch : Touches.execMapLost N le) :
    FitsOut N s0 (execMapLost le s) := by
  obtain ⟨h_time, c_evt, c_leafGo⟩ := tch
  unfold Sys2Proof.Machine.execMapLost
  repeat' first
    | with_reducible assumption
    | with_reducible apply Fits.reach
    | with_reducible apply Fits.evt
    | with_reducible apply Fits.leafGo
    | with_reducible apply FitsOut.ite
    | with_reducible apply FitsOut.next
    | with_reducible apply FitsOut.fault
    | (intro _)
    | with_reducible apply Fits.ite
    | dsimp only
    | split
    | (refine Fits.pair ‹_ = (_, _)› ?_)
    | (refine Fits.pair2 ‹_ = (_, _, _)› ?_)

structure Touches.execLeafIdExpire (N : Part → Prop) (le : Fin 2) : Prop where
  h_time : N .time
  c_leafForget : Touches.leafForget N le.val

theorem FitsOut.execLeafIdExpire (le : Fin 2) (s : State) (h : Fits N s0 s) (tch : Touches.execLeafIdExpire N le) :
    FitsOut N s0 (execLeafIdExpire le s) := by
  obtain ⟨h_time, c_leafForget⟩ := tch
  unfold Sys2Proof.Machine.execLeafIdExpire
  repeat' first
    | with_reducible assumption
    | with_reducible apply Fits.reach
    | with_reducible apply Fits.leafForget
    | with_reducible apply FitsOut.ite
    | with_reducible apply FitsOut.next
    | with_reducible apply FitsOut.fault
    | (intro _)
    | with_reducible apply Fits.ite
    | dsimp only
    | split
    | (refine Fits.pair ‹_ = (_, _)› ?_)
    | (refine Fits.pair2 ‹_ = (_, _, _)› ?_)

structure Touches.setRecv (N : Part → Prop) (le : Nat) : Prop where
  h_p2mp : N (.p2mp ((le : Nat) != 0))

theorem Fits.setRecv (le : Nat) (f : List Recv → List Recv) (s : State) (h : Fits N s0 s) (tch : Touches.setRecv N le) :
    Fits N s0 (setRecv le f s) := by
  obtain ⟨h_p2mp⟩ := tch
  unfold Sys2Proof.Machine.setRecv
  repeat' first
    | with_reducible assumption
    | with_reducible apply Fits.modP2
    | (intro _)
    | with_reducible apply Fits.ite
    | dsimp only
    | split
    | (refine Fits.pair ‹_ = (_, _)› ?_)
    | (refine Fits.pair2 ‹_ = (_, _, _)› ?_)

structure Touches.p2Count (N : Part → Prop) (le : Nat) (c : Nat) : Prop where
  k_LE_P2MP_CNT_count : N (.reg (F.LE_P2MP_CNT_count le c).key)

theorem Fits.p2Count (le : Nat) (c : Nat) (s : State) (h : Fits N s0 s) (tch : Touches.p2Count N le c) :
    Fits N s0 (p2Count le c s) := by
  obtain ⟨k_LE_P2MP_CNT_count⟩ := tch
  unfold Sys2Proof.Machine.p2Count
  repeat' first
    | with_reducible assumption
    | with_reducible apply k_LE_P2MP_CNT_count
    | with_reducible apply Fits.bump
    | (intro _)
    | with_reducible apply Fits.ite
    | dsimp only
    | split
    | (refine Fits.pair ‹_ = (_, _)› ?_)
    | (refine Fits.pair2 ‹_ = (_, _, _)› ?_)

structure Touches.brecPut (N : Part → Prop) (le : Nat) : Prop where
  k_LE_P2MP_BREC_COUNT_count : N (.reg (F.LE_P2MP_BREC_COUNT_count le).key)
  h_p2mp : N (.p2mp ((le : Nat) != 0))
  c_evt : Touches.evt N (lep le 0x20)

theorem Fits.brecPut (le : Nat) (r : Recv) (w1 : Nat) (w2 : Nat) (w3 : Nat) (allOk : Bool) (captured : Bool) (s : State) (h : Fits N s0 s) (tch : Touches.brecPut N le) :
    Fits N s0 (brecPut le r w1 w2 w3 allOk captured s) := by
  obtain ⟨k_LE_P2MP_BREC_COUNT_count, h_p2mp, c_evt⟩ := tch
  unfold Sys2Proof.Machine.brecPut
  repeat' first
    | with_reducible assumption
    | with_reducible apply k_LE_P2MP_BREC_COUNT_count
    | with_reducible apply Fits.setF
    | with_reducible apply Fits.evt
    | with_reducible apply Fits.modP2
    | (intro _)
    | with_reducible apply Fits.ite
    | dsimp only
    | split
    | (refine Fits.pair ‹_ = (_, _)› ?_)
    | (refine Fits.pair2 ‹_ = (_, _, _)› ?_)

theorem Fits.recordWords (r : Recv) (failed : Nat) (s : State) (h : Fits N s0 s) (h_drawn : N .drawn) :
    Fits N s0 (recordWords r failed s).2.2 := by
  unfold Sys2Proof.Machine.recordWords
  have hd : Fits N s0 (if r.start.isSome then (0, s) else s.draw 32).2 := by
    split
    · exact h
    · exact Fits.draw _ _ h h_drawn
  generalize (if r.start.isSome then (0, s) else s.draw 32) = p at hd ⊢
  obtain ⟨fv, s'⟩ := p
  dsimp only at hd ⊢
  generalize r.hdr / 2 ^ 50 % 16 = x
  by_cases hx : x = 2
  · rw [if_pos hx]; exact hd
  · rw [if_neg hx]; exact hd

structure Touches.execPreambleDetect (N : Part → Prop) : Prop where
  h_drawn : N .drawn
  k_LE_P2MP_CNT_count : ∀ (a0 : Nat), N (.reg (F.LE_P2MP_CNT_count a0 3).key)
  c_setRecv : ∀ (a0 : Nat), Touches.setRecv N a0
  c_p2Count : ∀ (a0 : Nat), Touches.p2Count N a0 2
  c_p2Count_1 : ∀ (a0 : Nat), Touches.p2Count N a0 5
  c_brecPut : ∀ (a0 : Nat), Touches.brecPut N a0

theorem FitsOut.execPreambleDetect (le : Fin 2) (sc : Fin 32) (bands : List (Fin 3 × Fin 4)) (found : List (BitVec 9 × BitVec 16)) (rho : BitVec 8) (arrival : BitVec 64) (s : State) (h : Fits N s0 s) (tch : Touches.execPreambleDetect N) :
    FitsOut N s0 (execPreambleDetect le sc bands found rho arrival s) := by
  obtain ⟨h_drawn, k_LE_P2MP_CNT_count, c_setRecv, c_p2Count, c_p2Count_1, c_brecPut⟩ := tch
  unfold Sys2Proof.Machine.execPreambleDetect
  repeat' first
    | with_reducible assumption
    | with_reducible apply k_LE_P2MP_CNT_count
    | with_reducible exact c_setRecv _
    | with_reducible exact c_p2Count _
    | with_reducible exact c_p2Count_1 _
    | with_reducible exact c_brecPut _
    | with_reducible apply Fits.bump
    | with_reducible apply Fits.draw
    | with_reducible apply Fits.setRecv
    | with_reducible apply Fits.p2Count
    | with_reducible apply Fits.brecPut
    | with_reducible apply Fits.recordWords
    | with_reducible apply Fits.forEach
    | with_reducible apply FitsOut.ite
    | with_reducible apply FitsOut.next
    | with_reducible apply FitsOut.fault
    | (intro _)
    | with_reducible apply Fits.ite
    | dsimp only
    | split
    | (refine Fits.pair ‹_ = (_, _)› ?_)
    | (refine Fits.pair2 ‹_ = (_, _, _)› ?_)

structure Touches.rogueCharge (N : Part → Prop) (le : Nat) (i : Nat) : Prop where
  k_LE_P2MP_LEAF_ST_rogue : N (.reg (F.LE_P2MP_LEAF_ST_rogue le (i / 256) (i % 256)).key)
  k_LE_P2MP_LEAF_ST_score : N (.reg (F.LE_P2MP_LEAF_ST_score le (i / 256) (i % 256)).key)
  c_evt : Touches.evt N (lep le 0x20)
  c_msgPut : Touches.msgPut N le
  c_leafQuiesce : Touches.leafQuiesce N le i

theorem Fits.rogueCharge (le : Nat) (i : Nat) (s : State) (h : Fits N s0 s) (tch : Touches.rogueCharge N le i) :
    Fits N s0 (rogueCharge le i s) := by
  obtain ⟨k_LE_P2MP_LEAF_ST_rogue, k_LE_P2MP_LEAF_ST_score, c_evt, c_msgPut, c_leafQuiesce⟩ := tch
  unfold Sys2Proof.Machine.rogueCharge
  repeat' first
    | with_reducible assumption
    | with_reducible apply k_LE_P2MP_LEAF_ST_rogue
    | with_reducible apply k_LE_P2MP_LEAF_ST_score
    | with_reducible apply Fits.setB
    | with_reducible apply Fits.bump
    | with_reducible apply Fits.evt
    | with_reducible apply Fits.msgPut
    | with_reducible apply Fits.leafQuiesce
    | (intro _)
    | with_reducible apply Fits.ite
    | dsimp only
    | split
    | (refine Fits.pair ‹_ = (_, _)› ?_)
    | (refine Fits.pair2 ‹_ = (_, _, _)› ?_)

structure Touches.attributeBurst (N : Part → Prop) (le : Nat) (hdr : Nat) : Prop where
  c_p2Count : Touches.p2Count N le 6
  c_p2Count_1 : Touches.p2Count N le 7
  c_rogueCharge : Touches.rogueCharge N le (hdr / 2 ^ 54)

theorem Fits.attributeBurst (le : Nat) (r : Recv) (hdr : Nat) (s : State) (h : Fits N s0 s) (tch : Touches.attributeBurst N le hdr) :
    Fits N s0 (attributeBurst le r hdr s).2 := by
  obtain ⟨c_p2Count, c_p2Count_1, c_rogueCharge⟩ := tch
  unfold Sys2Proof.Machine.attributeBurst
  repeat' first
    | with_reducible assumption
    | with_reducible apply Fits.p2Count
    | with_reducible apply Fits.rogueCharge
    | (intro _)
    | with_reducible apply Fits.ite
    | dsimp only
    | split
    | (refine Fits.pair ‹_ = (_, _)› ?_)
    | (refine Fits.pair2 ‹_ = (_, _, _)› ?_)

structure Touches.execBurstHeaderDecode (N : Part → Prop) (hdr : BitVec 64) : Prop where
  c_modLeafHub : ∀ (a0 : Nat), Touches.modLeafHub N a0
  c_leafStGo : ∀ (a0 : Nat), Touches.leafStGo N a0 (hdr.toNat / 2 ^ 54)
  c_setRecv : ∀ (a0 : Nat), Touches.setRecv N a0
  c_p2Count : ∀ (a0 : Nat), Touches.p2Count N a0 4
  c_p2Count_1 : ∀ (a0 : Nat), Touches.p2Count N a0 8
  c_attributeBurst : ∀ (a0 : Nat), Touches.attributeBurst N a0 hdr.toNat

theorem FitsOut.execBurstHeaderDecode (le : Fin 2) (sc : Fin 32) (w : Fin 3) (band : Fin 4) (hdr : BitVec 64) (s : State) (h : Fits N s0 s) (tch : Touches.execBurstHeaderDecode N hdr) :
    FitsOut N s0 (execBurstHeaderDecode le sc w band hdr s) := by
  obtain ⟨c_modLeafHub, c_leafStGo, c_setRecv, c_p2Count, c_p2Count_1, c_attributeBurst⟩ := tch
  unfold Sys2Proof.Machine.execBurstHeaderDecode
  repeat' first
    | with_reducible assumption
    | with_reducible exact c_modLeafHub _
    | with_reducible exact c_leafStGo _
    | with_reducible exact c_setRecv _
    | with_reducible exact c_p2Count _
    | with_reducible exact c_p2Count_1 _
    | with_reducible exact c_attributeBurst _
    | with_reducible apply Fits.modLeafHub
    | with_reducible apply Fits.leafStGo
    | with_reducible apply Fits.setRecv
    | with_reducible apply Fits.p2Count
    | with_reducible apply Fits.attributeBurst
    | with_reducible apply FitsOut.ite
    | with_reducible apply FitsOut.next
    | with_reducible apply FitsOut.fault
    | (intro _)
    | with_reducible apply Fits.ite
    | dsimp only
    | split
    | (refine Fits.pair ‹_ = (_, _)› ?_)
    | (refine Fits.pair2 ‹_ = (_, _, _)› ?_)

structure Touches.rangeTrack (N : Part → Prop) (le : Nat) (i : Nat) : Prop where
  c_modLeafHub : Touches.modLeafHub N le
  c_leafStGo : Touches.leafStGo N le i
  c_sendRangeAdj : Touches.sendRangeAdj N le i

theorem Fits.rangeTrack (le : Nat) (i : Nat) (ty : Nat) (eps : Int) (s : State) (h : Fits N s0 s) (tch : Touches.rangeTrack N le i) :
    Fits N s0 (rangeTrack le i ty eps s) := by
  obtain ⟨c_modLeafHub, c_leafStGo, c_sendRangeAdj⟩ := tch
  unfold Sys2Proof.Machine.rangeTrack
  repeat' first
    | with_reducible assumption
    | with_reducible apply Fits.modLeafHub
    | with_reducible apply Fits.leafStGo
    | with_reducible apply Fits.sendRangeAdj
    | (intro _)
    | with_reducible apply Fits.ite
    | dsimp only
    | split
    | (refine Fits.pair ‹_ = (_, _)› ?_)
    | (refine Fits.pair2 ‹_ = (_, _, _)› ?_)

structure Touches.powerTrack (N : Part → Prop) (le : Nat) (i : Nat) : Prop where
  k_LE_P2MP_LEAF_CD_level_dev : N (.reg (F.LE_P2MP_LEAF_CD_level_dev le (i / 256) (i % 256)).key)
  c_modLeafHub : Touches.modLeafHub N le
  c_msgPut : Touches.msgPut N le

theorem Fits.powerTrack (le : Nat) (i : Nat) (w : Nat) (power : Int) (s : State) (h : Fits N s0 s) (tch : Touches.powerTrack N le i) :
    Fits N s0 (powerTrack le i w power s) := by
  obtain ⟨k_LE_P2MP_LEAF_CD_level_dev, c_modLeafHub, c_msgPut⟩ := tch
  unfold Sys2Proof.Machine.powerTrack
  repeat' first
    | with_reducible assumption
    | with_reducible apply k_LE_P2MP_LEAF_CD_level_dev
    | with_reducible apply Fits.setF
    | with_reducible apply Fits.modLeafHub
    | with_reducible apply Fits.msgPut
    | (intro _)
    | with_reducible apply Fits.ite
    | dsimp only
    | split
    | (refine Fits.pair ‹_ = (_, _)› ?_)
    | (refine Fits.pair2 ‹_ = (_, _, _)› ?_)

structure Touches.execBurstRxDone (N : Part → Prop) : Prop where
  h_drawn : N .drawn
  h_ev : N .ev
  k_LE_P2MP_LEAF_CD_cd : ∀ (a0 : Nat) (a1 : Nat) (a2 : Nat), N (.reg (F.LE_P2MP_LEAF_CD_cd a0 a1 a2).key)
  c_evt : ∀ (a0 : Nat), Touches.evt N a0
  c_setRecv : ∀ (a0 : Nat), Touches.setRecv N a0
  c_p2Count : ∀ (a0 : Nat) (a1 : Nat), Touches.p2Count N a0 a1
  c_brecPut : ∀ (a0 : Nat), Touches.brecPut N a0
  c_rangeTrack : ∀ (a0 : Nat) (a1 : Nat), Touches.rangeTrack N a0 a1
  c_powerTrack : ∀ (a0 : Nat) (a1 : Nat), Touches.powerTrack N a0 a1

theorem FitsOut.execBurstRxDone (le : Fin 2) (sc : Fin 32) (w : Fin 3) (band : Fin 4) (evm : BitVec 16) (power : Int) (failed : Nat) (cd : Int) (s : State) (h : Fits N s0 s) (tch : Touches.execBurstRxDone N) :
    FitsOut N s0 (execBurstRxDone le sc w band evm power failed cd s) := by
  obtain ⟨h_drawn, h_ev, k_LE_P2MP_LEAF_CD_cd, c_evt, c_setRecv, c_p2Count, c_brecPut, c_rangeTrack, c_powerTrack⟩ := tch
  unfold Sys2Proof.Machine.execBurstRxDone
  repeat' first
    | with_reducible assumption
    | with_reducible apply k_LE_P2MP_LEAF_CD_cd
    | with_reducible exact c_evt _
    | with_reducible exact c_setRecv _
    | with_reducible exact c_p2Count _ _
    | with_reducible exact c_brecPut _
    | with_reducible exact c_rangeTrack _ _
    | with_reducible exact c_powerTrack _ _
    | with_reducible apply Fits.setF
    | with_reducible apply Fits.datapath
    | with_reducible apply Fits.evt
    | with_reducible apply Fits.setRecv
    | with_reducible apply Fits.p2Count
    | with_reducible apply Fits.brecPut
    | with_reducible apply Fits.recordWords
    | with_reducible apply Fits.rangeTrack
    | with_reducible apply Fits.powerTrack
    | with_reducible apply FitsOut.ite
    | with_reducible apply FitsOut.next
    | with_reducible apply FitsOut.fault
    | (intro _)
    | with_reducible apply Fits.ite
    | dsimp only
    | split
    | (refine Fits.pair ‹_ = (_, _)› ?_)
    | (refine Fits.pair2 ‹_ = (_, _, _)› ?_)

structure Touches.execBurstLossDetect (N : Part → Prop) (le : Fin 2) (i : Fin 512) : Prop where
  h_time : N .time
  c_leafStGo : Touches.leafStGo N le.val i.val

theorem FitsOut.execBurstLossDetect (le : Fin 2) (i : Fin 512) (s : State) (h : Fits N s0 s) (tch : Touches.execBurstLossDetect N le i) :
    FitsOut N s0 (execBurstLossDetect le i s) := by
  obtain ⟨h_time, c_leafStGo⟩ := tch
  unfold Sys2Proof.Machine.execBurstLossDetect
  repeat' first
    | with_reducible assumption
    | with_reducible apply Fits.reach
    | with_reducible apply Fits.leafStGo
    | with_reducible apply FitsOut.ite
    | with_reducible apply FitsOut.next
    | with_reducible apply FitsOut.fault
    | (intro _)
    | with_reducible apply Fits.ite
    | dsimp only
    | split
    | (refine Fits.pair ‹_ = (_, _)› ?_)
    | (refine Fits.pair2 ‹_ = (_, _, _)› ?_)

structure Touches.execRogueDecay (N : Part → Prop) (le : Fin 2) (i : Fin 512) : Prop where
  h_time : N .time
  k_LE_P2MP_LEAF_ST_rogue : N (.reg (F.LE_P2MP_LEAF_ST_rogue le.val (i.val / 256) (i.val % 256)).key)
  k_LE_P2MP_LEAF_ST_score : N (.reg (F.LE_P2MP_LEAF_ST_score le.val (i.val / 256) (i.val % 256)).key)
  c_modLeafHub : Touches.modLeafHub N le.val

theorem FitsOut.execRogueDecay (le : Fin 2) (i : Fin 512) (s : State) (h : Fits N s0 s) (tch : Touches.execRogueDecay N le i) :
    FitsOut N s0 (execRogueDecay le i s) := by
  obtain ⟨h_time, k_LE_P2MP_LEAF_ST_rogue, k_LE_P2MP_LEAF_ST_score, c_modLeafHub⟩ := tch
  unfold Sys2Proof.Machine.execRogueDecay
  repeat' first
    | with_reducible assumption
    | with_reducible apply k_LE_P2MP_LEAF_ST_rogue
    | with_reducible apply k_LE_P2MP_LEAF_ST_score
    | with_reducible apply Fits.setF
    | with_reducible apply Fits.setB
    | with_reducible apply Fits.reach
    | with_reducible apply Fits.modLeafHub
    | with_reducible apply FitsOut.ite
    | with_reducible apply FitsOut.next
    | with_reducible apply FitsOut.fault
    | (intro _)
    | with_reducible apply Fits.ite
    | dsimp only
    | split
    | (refine Fits.pair ‹_ = (_, _)› ?_)
    | (refine Fits.pair2 ‹_ = (_, _, _)› ?_)

structure Touches.execIdleMeasure (N : Part → Prop) : Prop where
  k_LE_P2MP_IDLE_BAND_band : ∀ (a0 : Nat), N (.reg (F.LE_P2MP_IDLE_BAND_band a0).key)
  k_LE_P2MP_IDLE_BAND_sc : ∀ (a0 : Nat), N (.reg (F.LE_P2MP_IDLE_BAND_sc a0).key)
  k_LE_P2MP_IDLE_BAND_width : ∀ (a0 : Nat), N (.reg (F.LE_P2MP_IDLE_BAND_width a0).key)
  h_p2mp : ∀ b, N (.p2mp b)
  c_evt : ∀ (a0 : Nat), Touches.evt N a0

theorem FitsOut.execIdleMeasure (le : Fin 2) (sc : Fin 32) (w : Fin 3) (band : Fin 4) (power : Int) (s : State) (h : Fits N s0 s) (tch : Touches.execIdleMeasure N) :
    FitsOut N s0 (execIdleMeasure le sc w band power s) := by
  obtain ⟨k_LE_P2MP_IDLE_BAND_band, k_LE_P2MP_IDLE_BAND_sc, k_LE_P2MP_IDLE_BAND_width, h_p2mp, c_evt⟩ := tch
  unfold Sys2Proof.Machine.execIdleMeasure
  repeat' first
    | with_reducible assumption
    | with_reducible apply k_LE_P2MP_IDLE_BAND_band
    | with_reducible apply k_LE_P2MP_IDLE_BAND_sc
    | with_reducible apply k_LE_P2MP_IDLE_BAND_width
    | with_reducible exact h_p2mp _
    | with_reducible exact c_evt _
    | with_reducible apply Fits.setF
    | with_reducible apply Fits.evt
    | with_reducible apply Fits.modP2
    | with_reducible apply FitsOut.ite
    | with_reducible apply FitsOut.next
    | with_reducible apply FitsOut.fault
    | (intro _)
    | with_reducible apply Fits.ite
    | dsimp only
    | split
    | (refine Fits.pair ‹_ = (_, _)› ?_)
    | (refine Fits.pair2 ‹_ = (_, _, _)› ?_)

structure Touches.brecPopDo (N : Part → Prop) (le : Nat) : Prop where
  k_LE_P2MP_BREC_0_all_decoded : N (.reg (F.LE_P2MP_BREC_0_all_decoded le).key)
  k_LE_P2MP_BREC_0_band : N (.reg (F.LE_P2MP_BREC_0_band le).key)
  k_LE_P2MP_BREC_0_captured : N (.reg (F.LE_P2MP_BREC_0_captured le).key)
  k_LE_P2MP_BREC_0_hdr_valid : N (.reg (F.LE_P2MP_BREC_0_hdr_valid le).key)
  k_LE_P2MP_BREC_0_leaf_id : N (.reg (F.LE_P2MP_BREC_0_leaf_id le).key)
  k_LE_P2MP_BREC_0_misaligned : N (.reg (F.LE_P2MP_BREC_0_misaligned le).key)
  k_LE_P2MP_BREC_0_sc : N (.reg (F.LE_P2MP_BREC_0_sc le).key)
  k_LE_P2MP_BREC_0_type : N (.reg (F.LE_P2MP_BREC_0_type le).key)
  k_LE_P2MP_BREC_0_ungranted : N (.reg (F.LE_P2MP_BREC_0_ungranted le).key)
  k_LE_P2MP_BREC_0_width : N (.reg (F.LE_P2MP_BREC_0_width le).key)
  k_LE_P2MP_BREC_1_arrival : N (.reg (F.LE_P2MP_BREC_1_arrival le).key)
  k_LE_P2MP_BREC_2_evm : N (.reg (F.LE_P2MP_BREC_2_evm le).key)
  k_LE_P2MP_BREC_2_power : N (.reg (F.LE_P2MP_BREC_2_power le).key)
  k_LE_P2MP_BREC_3_bits : N (.reg (F.LE_P2MP_BREC_3_bits le).key)
  k_LE_P2MP_BREC_COUNT_count : N (.reg (F.LE_P2MP_BREC_COUNT_count le).key)
  h_p2mp : N (.p2mp ((le : Nat) != 0))

theorem Fits.brecPopDo (le : Nat) (s : State) (h : Fits N s0 s) (tch : Touches.brecPopDo N le) :
    Fits N s0 (brecPopDo le s) := by
  obtain ⟨k_LE_P2MP_BREC_0_all_decoded, k_LE_P2MP_BREC_0_band, k_LE_P2MP_BREC_0_captured, k_LE_P2MP_BREC_0_hdr_valid, k_LE_P2MP_BREC_0_leaf_id, k_LE_P2MP_BREC_0_misaligned, k_LE_P2MP_BREC_0_sc, k_LE_P2MP_BREC_0_type, k_LE_P2MP_BREC_0_ungranted, k_LE_P2MP_BREC_0_width, k_LE_P2MP_BREC_1_arrival, k_LE_P2MP_BREC_2_evm, k_LE_P2MP_BREC_2_power, k_LE_P2MP_BREC_3_bits, k_LE_P2MP_BREC_COUNT_count, h_p2mp⟩ := tch
  unfold Sys2Proof.Machine.brecPopDo
  repeat' first
    | with_reducible assumption
    | with_reducible apply k_LE_P2MP_BREC_0_all_decoded
    | with_reducible apply k_LE_P2MP_BREC_0_band
    | with_reducible apply k_LE_P2MP_BREC_0_captured
    | with_reducible apply k_LE_P2MP_BREC_0_hdr_valid
    | with_reducible apply k_LE_P2MP_BREC_0_leaf_id
    | with_reducible apply k_LE_P2MP_BREC_0_misaligned
    | with_reducible apply k_LE_P2MP_BREC_0_sc
    | with_reducible apply k_LE_P2MP_BREC_0_type
    | with_reducible apply k_LE_P2MP_BREC_0_ungranted
    | with_reducible apply k_LE_P2MP_BREC_0_width
    | with_reducible apply k_LE_P2MP_BREC_1_arrival
    | with_reducible apply k_LE_P2MP_BREC_2_evm
    | with_reducible apply k_LE_P2MP_BREC_2_power
    | with_reducible apply k_LE_P2MP_BREC_3_bits
    | with_reducible apply k_LE_P2MP_BREC_COUNT_count
    | with_reducible apply Fits.setF
    | with_reducible apply Fits.modP2
    | (intro _)
    | with_reducible apply Fits.ite
    | dsimp only
    | split
    | (refine Fits.pair ‹_ = (_, _)› ?_)
    | (refine Fits.pair2 ‹_ = (_, _, _)› ?_)

structure Touches.brecPop (N : Part → Prop) (le : Nat) : Prop where
  c_goWrite : Touches.goWrite N (lep le 0x21 * 0x1000 + 0x40)
  c_brecPopDo : Touches.brecPopDo N le

theorem Fits.brecPop (m : Master) (le : Nat) (s : State) (h : Fits N s0 s) (tch : Touches.brecPop N le) :
    Fits N s0 (brecPop m le s) := by
  obtain ⟨c_goWrite, c_brecPopDo⟩ := tch
  unfold Sys2Proof.Machine.brecPop
  repeat' first
    | with_reducible assumption
    | with_reducible apply Fits.brecPopDo
    | with_reducible apply Fits.goWrite
    | (intro _)
    | with_reducible apply Fits.ite
    | dsimp only
    | split
    | (refine Fits.pair ‹_ = (_, _)› ?_)
    | (refine Fits.pair2 ‹_ = (_, _, _)› ?_)

structure Touches.execBrecPop (N : Part → Prop) (le : Fin 2) : Prop where
  c_brecPop : Touches.brecPop N le.val

theorem FitsOut.execBrecPop (m : Master) (le : Fin 2) (s : State) (h : Fits N s0 s) (tch : Touches.execBrecPop N le) :
    FitsOut N s0 (execBrecPop m le s) := by
  obtain ⟨c_brecPop⟩ := tch
  unfold Sys2Proof.Machine.execBrecPop
  repeat' first
    | with_reducible assumption
    | with_reducible apply Fits.brecPop
    | with_reducible apply FitsOut.ite
    | with_reducible apply FitsOut.next
    | with_reducible apply FitsOut.fault
    | (intro _)
    | with_reducible apply Fits.ite
    | dsimp only
    | split
    | (refine Fits.pair ‹_ = (_, _)› ?_)
    | (refine Fits.pair2 ‹_ = (_, _, _)› ?_)

end Sys2Proof.Machine
end

