-- ==== Sys2Proof/Laws/FitsHostLanes.lean ====
section
/-! SUPPORT. What the operations of Machine/HostLanes.lean touch (a structure of parts for each, over those of the operations it calls), and
that each keeps the canonical form. -/
set_option linter.unusedTactic false
set_option linter.unreachableTactic false
namespace Sys2Proof.Machine

variable {N : Part → Prop} {s0 : State}

structure Touches.resyncLost (N : Part → Prop) : Prop where
  k_PORT_CNT_count : ∀ (a0 : Nat) (a1 : Nat), N (.reg (F.PORT_CNT_count a0 a1 5).key)

theorem Fits.resyncLost (a : Nat) (b : Nat) (dropped : Nat) (s : State) (h : Fits N s0 s) (tch : Touches.resyncLost N) :
    Fits N s0 (resyncLost a b dropped s) := by
  obtain ⟨k_PORT_CNT_count⟩ := tch
  unfold Sys2Proof.Machine.resyncLost
  repeat' first
    | with_reducible assumption
    | with_reducible apply k_PORT_CNT_count
    | with_reducible apply Fits.bump
    | (intro _)
    | with_reducible apply Fits.ite
    | dsimp only
    | split
    | (refine Fits.pair ‹_ = (_, _)› ?_)
    | (refine Fits.pair2 ‹_ = (_, _, _)› ?_)

structure Touches.execFifoResync (N : Part → Prop) (pa : Fin 256) (pb : Fin 256) : Prop where
  c_fifoResync : Touches.fifoResync N pa.val pb.val
  c_resyncLost : Touches.resyncLost N

theorem FitsOut.execFifoResync (a : Fin 64) (b : Fin 64) (pa : Fin 256) (pb : Fin 256) (dropped : Nat) (s : State) (h : Fits N s0 s) (tch : Touches.execFifoResync N pa pb) :
    FitsOut N s0 (execFifoResync a b pa pb dropped s) := by
  obtain ⟨c_fifoResync, c_resyncLost⟩ := tch
  unfold Sys2Proof.Machine.execFifoResync
  repeat' first
    | with_reducible assumption
    | with_reducible apply Fits.fifoResync
    | with_reducible apply Fits.resyncLost
    | with_reducible apply FitsOut.ite
    | with_reducible apply FitsOut.next
    | with_reducible apply FitsOut.fault
    | (intro _)
    | with_reducible apply Fits.ite
    | dsimp only
    | split
    | (refine Fits.pair ‹_ = (_, _)› ?_)
    | (refine Fits.pair2 ‹_ = (_, _, _)› ?_)

theorem Fits.modPort (p : Nat) (f : PortSt → PortSt) (s : State) (h : Fits N s0 s) (h_lanes : N .lanes) :
    Fits N s0 (modPort p f s) := by
  unfold Sys2Proof.Machine.modPort
  repeat' first
    | with_reducible assumption
    | (intro _)
    | with_reducible apply Fits.ite
    | dsimp only
    | split
    | (refine Fits.pair ‹_ = (_, _)› ?_)
    | (refine Fits.pair2 ‹_ = (_, _, _)› ?_)
    | with_reducible apply Fits.upd_lanes

structure Touches.portCount (N : Part → Prop) (p : Nat) (c : Nat) : Prop where
  k_PORT_CNT_count : N (.reg (F.PORT_CNT_count (p / 8) (p % 8) c).key)

theorem Fits.portCount (p : Nat) (c : Nat) (n : Nat) (s : State) (h : Fits N s0 s) (tch : Touches.portCount N p c) :
    Fits N s0 (portCount p c n s) := by
  obtain ⟨k_PORT_CNT_count⟩ := tch
  unfold Sys2Proof.Machine.portCount
  repeat' first
    | with_reducible assumption
    | with_reducible apply k_PORT_CNT_count
    | with_reducible apply Fits.bump
    | (intro _)
    | with_reducible apply Fits.ite
    | dsimp only
    | split
    | (refine Fits.pair ‹_ = (_, _)› ?_)
    | (refine Fits.pair2 ‹_ = (_, _, _)› ?_)

structure Touches.portEvt (N : Part → Prop) (p : Nat) : Prop where
  c_evt : Touches.evt N (0xA0 + p / 8)

theorem Fits.portEvt (p : Nat) (b : Nat) (s : State) (h : Fits N s0 s) (tch : Touches.portEvt N p) :
    Fits N s0 (portEvt p b s) := by
  obtain ⟨c_evt⟩ := tch
  unfold Sys2Proof.Machine.portEvt
  repeat' first
    | with_reducible assumption
    | with_reducible apply Fits.evt
    | (intro _)
    | with_reducible apply Fits.ite
    | dsimp only
    | split
    | (refine Fits.pair ‹_ = (_, _)› ?_)
    | (refine Fits.pair2 ‹_ = (_, _, _)› ?_)

structure Touches.laneGo (N : Part → Prop) (g : Nat) (j : Nat) : Prop where
  k_HL_LANE_STAT_cdr_lock : N (.reg (F.HL_LANE_STAT_cdr_lock g j).key)
  k_HL_LANE_STAT_sig_det : N (.reg (F.HL_LANE_STAT_sig_det g j).key)
  k_HL_LANE_STAT_spare : N (.reg (F.HL_LANE_STAT_spare g j).key)
  k_HL_LANE_STAT_state : N (.reg (F.HL_LANE_STAT_state g j).key)

theorem Fits.laneGo (g : Nat) (j : Nat) (v : Nat) (s : State) (h : Fits N s0 s) (tch : Touches.laneGo N g j) :
    Fits N s0 (laneGo g j v s) := by
  obtain ⟨k_HL_LANE_STAT_cdr_lock, k_HL_LANE_STAT_sig_det, k_HL_LANE_STAT_spare, k_HL_LANE_STAT_state⟩ := tch
  unfold Sys2Proof.Machine.laneGo
  repeat' first
    | with_reducible assumption
    | with_reducible apply k_HL_LANE_STAT_cdr_lock
    | with_reducible apply k_HL_LANE_STAT_sig_det
    | with_reducible apply k_HL_LANE_STAT_spare
    | with_reducible apply k_HL_LANE_STAT_state
    | with_reducible apply Fits.setF
    | with_reducible apply Fits.setB
    | (intro _)
    | with_reducible apply Fits.ite
    | dsimp only
    | split
    | (refine Fits.pair ‹_ = (_, _)› ?_)
    | (refine Fits.pair2 ‹_ = (_, _, _)› ?_)

structure Touches.portGo (N : Part → Prop) (p : Nat) : Prop where
  k_PORT_STAT_state : N (.reg (F.PORT_STAT_state (p / 8) (p % 8)).key)
  c_portEvt : Touches.portEvt N p

theorem Fits.portGo (p : Nat) (v : Nat) (s : State) (h : Fits N s0 s) (tch : Touches.portGo N p) :
    Fits N s0 (portGo p v s) := by
  obtain ⟨k_PORT_STAT_state, c_portEvt⟩ := tch
  unfold Sys2Proof.Machine.portGo
  repeat' first
    | with_reducible assumption
    | with_reducible apply k_PORT_STAT_state
    | with_reducible apply Fits.setF
    | with_reducible apply Fits.portEvt
    | (intro _)
    | with_reducible apply Fits.ite
    | dsimp only
    | split
    | (refine Fits.pair ‹_ = (_, _)› ?_)
    | (refine Fits.pair2 ‹_ = (_, _, _)› ?_)

structure Touches.spareReady (N : Part → Prop) (p : Nat) : Prop where
  h_lanes : N .lanes
  k_PORT_STAT_spare_ready : N (.reg (F.PORT_STAT_spare_ready (p / 8) (p % 8)).key)

theorem Fits.spareReady (p : Nat) (s : State) (h : Fits N s0 s) (tch : Touches.spareReady N p) :
    Fits N s0 (spareReady p s) := by
  obtain ⟨h_lanes, k_PORT_STAT_spare_ready⟩ := tch
  unfold Sys2Proof.Machine.spareReady
  repeat' first
    | with_reducible assumption
    | with_reducible apply k_PORT_STAT_spare_ready
    | with_reducible apply Fits.setB
    | with_reducible apply Fits.modPort
    | (intro _)
    | with_reducible apply Fits.ite
    | dsimp only
    | split
    | (refine Fits.pair ‹_ = (_, _)› ?_)
    | (refine Fits.pair2 ‹_ = (_, _, _)› ?_)

theorem Fits.openWindow (p : Nat) (s : State) (h : Fits N s0 s) (h_lanes : N .lanes) :
    Fits N s0 (openWindow p s) := by
  unfold Sys2Proof.Machine.openWindow
  repeat' first
    | with_reducible assumption
    | with_reducible apply Fits.modPort
    | with_reducible apply Fits.forEach
    | (intro _)
    | with_reducible apply Fits.ite
    | dsimp only
    | split
    | (refine Fits.pair ‹_ = (_, _)› ?_)
    | (refine Fits.pair2 ‹_ = (_, _, _)› ?_)
    | with_reducible apply Fits.upd_lanes

structure Touches.portEval (N : Part → Prop) (p : Nat) : Prop where
  h_lanes : N .lanes
  c_laneGo : ∀ (a0 : Nat) (a1 : Nat), Touches.laneGo N a0 a1
  c_portGo : Touches.portGo N p
  c_spareReady : Touches.spareReady N p

theorem Fits.portEval (p : Nat) (s : State) (h : Fits N s0 s) (tch : Touches.portEval N p) :
    Fits N s0 (portEval p s) := by
  obtain ⟨h_lanes, c_laneGo, c_portGo, c_spareReady⟩ := tch
  unfold Sys2Proof.Machine.portEval
  repeat' first
    | with_reducible assumption
    | with_reducible exact c_laneGo _ _
    | with_reducible apply Fits.laneGo
    | with_reducible apply Fits.portGo
    | with_reducible apply Fits.spareReady
    | with_reducible apply Fits.openWindow
    | (intro _)
    | with_reducible apply Fits.ite
    | dsimp only
    | split
    | (refine Fits.pair ‹_ = (_, _)› ?_)
    | (refine Fits.pair2 ‹_ = (_, _, _)› ?_)

structure Touches.flexoLof (N : Part → Prop) (p : Nat) : Prop where
  k_PORT_STAT_flexo_lof : N (.reg (F.PORT_STAT_flexo_lof (p / 8) (p % 8)).key)

theorem Fits.flexoLof (p : Nat) (b : Bool) (s : State) (h : Fits N s0 s) (tch : Touches.flexoLof N p) :
    Fits N s0 (flexoLof p b s) := by
  obtain ⟨k_PORT_STAT_flexo_lof⟩ := tch
  unfold Sys2Proof.Machine.flexoLof
  repeat' first
    | with_reducible assumption
    | with_reducible apply k_PORT_STAT_flexo_lof
    | with_reducible apply Fits.setB
    | (intro _)
    | with_reducible apply Fits.ite
    | dsimp only
    | split
    | (refine Fits.pair ‹_ = (_, _)› ?_)
    | (refine Fits.pair2 ‹_ = (_, _, _)› ?_)

structure Touches.laneReady (N : Part → Prop) (g : Nat) (j : Nat) : Prop where
  h_lanes : N .lanes
  c_evt : Touches.evt N (0x90 + g)
  c_laneGo : Touches.laneGo N g j
  c_portEval : ∀ (a0 : Nat), Touches.portEval N a0

theorem Fits.laneReady (g : Nat) (j : Nat) (s : State) (h : Fits N s0 s) (tch : Touches.laneReady N g j) :
    Fits N s0 (laneReady g j s) := by
  obtain ⟨h_lanes, c_evt, c_laneGo, c_portEval⟩ := tch
  unfold Sys2Proof.Machine.laneReady
  repeat' first
    | with_reducible assumption
    | with_reducible exact c_portEval _
    | with_reducible apply Fits.evt
    | with_reducible apply Fits.laneGo
    | with_reducible apply Fits.portEval
    | (intro _)
    | with_reducible apply Fits.ite
    | dsimp only
    | split
    | (refine Fits.pair ‹_ = (_, _)› ?_)
    | (refine Fits.pair2 ‹_ = (_, _, _)› ?_)
    | with_reducible apply Fits.upd_lanes

structure Touches.portLeaveUp (N : Part → Prop) (p : Nat) : Prop where
  h_lanes : N .lanes
  c_portCount : Touches.portCount N p 11
  c_portEvt : Touches.portEvt N p
  c_laneGo : ∀ (a0 : Nat) (a1 : Nat), Touches.laneGo N a0 a1
  c_portGo : Touches.portGo N p
  c_flexoLof : Touches.flexoLof N p

theorem Fits.portLeaveUp (p : Nat) (v : Nat) (s : State) (h : Fits N s0 s) (tch : Touches.portLeaveUp N p) :
    Fits N s0 (portLeaveUp p v s) := by
  obtain ⟨h_lanes, c_portCount, c_portEvt, c_laneGo, c_portGo, c_flexoLof⟩ := tch
  unfold Sys2Proof.Machine.portLeaveUp
  repeat' first
    | with_reducible assumption
    | with_reducible exact c_laneGo _ _
    | with_reducible apply Fits.modPort
    | with_reducible apply Fits.portCount
    | with_reducible apply Fits.portEvt
    | with_reducible apply Fits.laneGo
    | with_reducible apply Fits.portGo
    | with_reducible apply Fits.flexoLof
    | with_reducible apply Fits.forEach
    | (intro _)
    | with_reducible apply Fits.ite
    | dsimp only
    | split
    | (refine Fits.pair ‹_ = (_, _)› ?_)
    | (refine Fits.pair2 ‹_ = (_, _, _)› ?_)

structure Touches.execLaneSignalDetect (N : Part → Prop) (k : Fin 32) : Prop where
  k_HL_LANE_STAT_sig_det : N (.reg (F.HL_LANE_STAT_sig_det (k.val / 8) (k.val % 8)).key)
  c_laneGo : Touches.laneGo N (k.val / 8) (k.val % 8)

theorem FitsOut.execLaneSignalDetect (k : Fin 32) (s : State) (h : Fits N s0 s) (tch : Touches.execLaneSignalDetect N k) :
    FitsOut N s0 (execLaneSignalDetect k s) := by
  obtain ⟨k_HL_LANE_STAT_sig_det, c_laneGo⟩ := tch
  unfold Sys2Proof.Machine.execLaneSignalDetect
  repeat' first
    | with_reducible assumption
    | with_reducible apply k_HL_LANE_STAT_sig_det
    | with_reducible apply Fits.setB
    | with_reducible apply Fits.laneGo
    | with_reducible apply FitsOut.ite
    | with_reducible apply FitsOut.next
    | with_reducible apply FitsOut.fault
    | (intro _)
    | with_reducible apply Fits.ite
    | dsimp only
    | split
    | (refine Fits.pair ‹_ = (_, _)› ?_)
    | (refine Fits.pair2 ‹_ = (_, _, _)› ?_)

structure Touches.polarity (N : Part → Prop) (g : Nat) (j : Nat) : Prop where
  k_HL_LANE_STAT_rx_inverted : N (.reg (F.HL_LANE_STAT_rx_inverted g j).key)
  c_evt : Touches.evt N (0x90 + g)

theorem Fits.polarity (g : Nat) (j : Nat) (inverted : Bool) (s : State) (h : Fits N s0 s) (tch : Touches.polarity N g j) :
    Fits N s0 (polarity g j inverted s) := by
  obtain ⟨k_HL_LANE_STAT_rx_inverted, c_evt⟩ := tch
  unfold Sys2Proof.Machine.polarity
  repeat' first
    | with_reducible assumption
    | with_reducible apply k_HL_LANE_STAT_rx_inverted
    | with_reducible apply Fits.setB
    | with_reducible apply Fits.evt
    | (intro _)
    | with_reducible apply Fits.ite
    | dsimp only
    | split
    | (refine Fits.pair ‹_ = (_, _)› ?_)
    | (refine Fits.pair2 ‹_ = (_, _, _)› ?_)

structure Touches.execCdrConverged (N : Part → Prop) (k : Fin 32) : Prop where
  k_HL_LANE_STAT_cdr_lock : N (.reg (F.HL_LANE_STAT_cdr_lock (k.val / 8) (k.val % 8)).key)
  k_HL_LANE_STAT_sig_det : N (.reg (F.HL_LANE_STAT_sig_det (k.val / 8) (k.val % 8)).key)
  k_HL_LANE_STAT_snr : N (.reg (F.HL_LANE_STAT_snr (k.val / 8) (k.val % 8)).key)
  c_laneGo : Touches.laneGo N (k.val / 8) (k.val % 8)
  c_laneReady : Touches.laneReady N (k.val / 8) (k.val % 8)
  c_polarity : Touches.polarity N (k.val / 8) (k.val % 8)

theorem FitsOut.execCdrConverged (k : Fin 32) (inverted : Bool) (snr : Byte) (s : State) (h : Fits N s0 s) (tch : Touches.execCdrConverged N k) :
    FitsOut N s0 (execCdrConverged k inverted snr s) := by
  obtain ⟨k_HL_LANE_STAT_cdr_lock, k_HL_LANE_STAT_sig_det, k_HL_LANE_STAT_snr, c_laneGo, c_laneReady, c_polarity⟩ := tch
  unfold Sys2Proof.Machine.execCdrConverged
  repeat' first
    | with_reducible assumption
    | with_reducible apply k_HL_LANE_STAT_cdr_lock
    | with_reducible apply k_HL_LANE_STAT_sig_det
    | with_reducible apply k_HL_LANE_STAT_snr
    | with_reducible apply Fits.setF
    | with_reducible apply Fits.setB
    | with_reducible apply Fits.laneGo
    | with_reducible apply Fits.laneReady
    | with_reducible apply Fits.polarity
    | with_reducible apply FitsOut.ite
    | with_reducible apply FitsOut.next
    | with_reducible apply FitsOut.fault
    | (intro _)
    | with_reducible apply Fits.ite
    | dsimp only
    | split
    | (refine Fits.pair ‹_ = (_, _)› ?_)
    | (refine Fits.pair2 ‹_ = (_, _, _)› ?_)

structure Touches.execCdrTimeout (N : Part → Prop) (k : Fin 32) : Prop where
  c_laneGo : Touches.laneGo N (k.val / 8) (k.val % 8)

theorem FitsOut.execCdrTimeout (k : Fin 32) (s : State) (h : Fits N s0 s) (tch : Touches.execCdrTimeout N k) :
    FitsOut N s0 (execCdrTimeout k s) := by
  obtain ⟨c_laneGo⟩ := tch
  unfold Sys2Proof.Machine.execCdrTimeout
  repeat' first
    | with_reducible assumption
    | with_reducible apply Fits.laneGo
    | with_reducible apply FitsOut.ite
    | with_reducible apply FitsOut.next
    | with_reducible apply FitsOut.fault
    | (intro _)
    | with_reducible apply Fits.ite
    | dsimp only
    | split
    | (refine Fits.pair ‹_ = (_, _)› ?_)
    | (refine Fits.pair2 ‹_ = (_, _, _)› ?_)

structure Touches.execTrainingComplete (N : Part → Prop) (k : Fin 32) : Prop where
  k_HL_LANE_TXFFE_ACT_taps : N (.reg (F.HL_LANE_TXFFE_ACT_taps (k.val / 8) (k.val % 8)).key)
  c_laneReady : Touches.laneReady N (k.val / 8) (k.val % 8)

theorem FitsOut.execTrainingComplete (k : Fin 32) (taps : Word) (s : State) (h : Fits N s0 s) (tch : Touches.execTrainingComplete N k) :
    FitsOut N s0 (execTrainingComplete k taps s) := by
  obtain ⟨k_HL_LANE_TXFFE_ACT_taps, c_laneReady⟩ := tch
  unfold Sys2Proof.Machine.execTrainingComplete
  repeat' first
    | with_reducible assumption
    | with_reducible apply k_HL_LANE_TXFFE_ACT_taps
    | with_reducible apply Fits.setF
    | with_reducible apply Fits.laneReady
    | with_reducible apply FitsOut.ite
    | with_reducible apply FitsOut.next
    | with_reducible apply FitsOut.fault
    | (intro _)
    | with_reducible apply Fits.ite
    | dsimp only
    | split
    | (refine Fits.pair ‹_ = (_, _)› ?_)
    | (refine Fits.pair2 ‹_ = (_, _, _)› ?_)

structure Touches.execTrainFail (N : Part → Prop) (k : Fin 32) : Prop where
  c_evt : Touches.evt N (0x90 + (k.val / 8))
  c_laneGo : Touches.laneGo N (k.val / 8) (k.val % 8)

theorem FitsOut.execTrainFail (k : Fin 32) (s : State) (h : Fits N s0 s) (tch : Touches.execTrainFail N k) :
    FitsOut N s0 (execTrainFail k s) := by
  obtain ⟨c_evt, c_laneGo⟩ := tch
  unfold Sys2Proof.Machine.execTrainFail
  repeat' first
    | with_reducible assumption
    | with_reducible apply Fits.evt
    | with_reducible apply Fits.laneGo
    | with_reducible apply FitsOut.ite
    | with_reducible apply FitsOut.next
    | with_reducible apply FitsOut.fault
    | (intro _)
    | with_reducible apply Fits.ite
    | dsimp only
    | split
    | (refine Fits.pair ‹_ = (_, _)› ?_)
    | (refine Fits.pair2 ‹_ = (_, _, _)› ?_)

structure Touches.substitute (N : Part → Prop) (p : Nat) : Prop where
  h_lanes : N .lanes
  k_HL_LANE_STAT_far_lane : ∀ (a0 : Nat) (a1 : Nat), N (.reg (F.HL_LANE_STAT_far_lane a0 a1).key)
  k_PORT_LANEMAP_map : N (.reg (F.PORT_LANEMAP_map (p / 8) (p % 8)).key)
  k_PORT_STAT_spare_used : N (.reg (F.PORT_STAT_spare_used (p / 8) (p % 8)).key)
  c_evt : ∀ (a0 : Nat), Touches.evt N a0
  c_laneGo : ∀ (a0 : Nat) (a1 : Nat), Touches.laneGo N a0 a1
  c_spareReady : Touches.spareReady N p
  c_portEval : Touches.portEval N p

theorem Fits.substitute (p : Nat) (f : Nat) (s : State) (h : Fits N s0 s) (tch : Touches.substitute N p) :
    Fits N s0 (substitute p f s) := by
  obtain ⟨h_lanes, k_HL_LANE_STAT_far_lane, k_PORT_LANEMAP_map, k_PORT_STAT_spare_used, c_evt, c_laneGo, c_spareReady, c_portEval⟩ := tch
  unfold Sys2Proof.Machine.substitute
  repeat' first
    | with_reducible assumption
    | with_reducible apply k_HL_LANE_STAT_far_lane
    | with_reducible apply k_PORT_LANEMAP_map
    | with_reducible apply k_PORT_STAT_spare_used
    | with_reducible exact c_evt _
    | with_reducible exact c_laneGo _ _
    | with_reducible apply Fits.setF
    | with_reducible apply Fits.setB
    | with_reducible apply Fits.evt
    | with_reducible apply Fits.modPort
    | with_reducible apply Fits.laneGo
    | with_reducible apply Fits.spareReady
    | with_reducible apply Fits.portEval
    | (intro _)
    | with_reducible apply Fits.ite
    | dsimp only
    | split
    | (refine Fits.pair ‹_ = (_, _)› ?_)
    | (refine Fits.pair2 ‹_ = (_, _, _)› ?_)

structure Touches.sendWith (N : Part → Prop) (p : Nat) : Prop where
  h_lanes : N .lanes
  k_PORT_STAT_tx_asleep : N (.reg (F.PORT_STAT_tx_asleep (p / 8) (p % 8)).key)

theorem Fits.sendWith (p : Nat) (msg : Nat) (lane : Nat) (seq : Nat) (s : State) (h : Fits N s0 s) (tch : Touches.sendWith N p) :
    Fits N s0 (sendWith p msg lane seq s) := by
  obtain ⟨h_lanes, k_PORT_STAT_tx_asleep⟩ := tch
  unfold Sys2Proof.Machine.sendWith
  repeat' first
    | with_reducible assumption
    | with_reducible apply k_PORT_STAT_tx_asleep
    | with_reducible apply Fits.setB
    | with_reducible apply Fits.modPort
    | (intro _)
    | with_reducible apply Fits.ite
    | dsimp only
    | split
    | (refine Fits.pair ‹_ = (_, _)› ?_)
    | (refine Fits.pair2 ‹_ = (_, _, _)› ?_)

structure Touches.sendSet (N : Part → Prop) (p : Nat) : Prop where
  h_lanes : N .lanes
  c_sendWith : Touches.sendWith N p

theorem Fits.sendSet (p : Nat) (msg : Nat) (lane : Nat) (s : State) (h : Fits N s0 s) (tch : Touches.sendSet N p) :
    Fits N s0 (sendSet p msg lane s) := by
  obtain ⟨h_lanes, c_sendWith⟩ := tch
  unfold Sys2Proof.Machine.sendSet
  repeat' first
    | with_reducible assumption
    | with_reducible apply Fits.modPort
    | with_reducible apply Fits.sendWith
    | (intro _)
    | with_reducible apply Fits.ite
    | dsimp only
    | split
    | (refine Fits.pair ‹_ = (_, _)› ?_)
    | (refine Fits.pair2 ‹_ = (_, _, _)› ?_)

structure Touches.portFails (N : Part → Prop) (p : Nat) : Prop where
  h_ev : N .ev
  k_PORT_CNT_count : N (.reg (F.PORT_CNT_count (p / 8) (p % 8) 5).key)
  k_PORT_STAT_rx_local_fault : N (.reg (F.PORT_STAT_rx_local_fault (p / 8) (p % 8)).key)
  c_portLeaveUp : Touches.portLeaveUp N p

theorem Fits.portFails (p : Nat) (lost : Nat) (s : State) (h : Fits N s0 s) (tch : Touches.portFails N p) :
    Fits N s0 (portFails p lost s) := by
  obtain ⟨h_ev, k_PORT_CNT_count, k_PORT_STAT_rx_local_fault, c_portLeaveUp⟩ := tch
  unfold Sys2Proof.Machine.portFails
  repeat' first
    | with_reducible assumption
    | with_reducible apply k_PORT_CNT_count
    | with_reducible apply k_PORT_STAT_rx_local_fault
    | with_reducible apply Fits.setB
    | with_reducible apply Fits.loss
    | with_reducible apply Fits.portLeaveUp
    | (intro _)
    | with_reducible apply Fits.ite
    | dsimp only
    | split
    | (refine Fits.pair ‹_ = (_, _)› ?_)
    | (refine Fits.pair2 ‹_ = (_, _, _)› ?_)

structure Touches.execLaneFault (N : Part → Prop) (k : Fin 32) : Prop where
  h_ev : N .ev
  h_lanes : N .lanes
  k_HL_LANE_CNT_count : N (.reg (F.HL_LANE_CNT_count (k.val / 8) (k.val % 8) 2).key)
  k_HL_LANE_CNT_count_1 : N (.reg (F.HL_LANE_CNT_count (k.val / 8) (k.val % 8) 3).key)
  k_HL_LANE_STAT_retrains : N (.reg (F.HL_LANE_STAT_retrains (k.val / 8) (k.val % 8)).key)
  k_PORT_CNT_count : ∀ (a0 : Nat) (a1 : Nat), N (.reg (F.PORT_CNT_count a0 a1 5).key)
  c_evt : Touches.evt N (0x90 + (k.val / 8))
  c_laneGo : Touches.laneGo N (k.val / 8) (k.val % 8)
  c_spareReady : ∀ (a0 : Nat), Touches.spareReady N a0
  c_substitute : ∀ (a0 : Nat), Touches.substitute N a0
  c_sendSet : ∀ (a0 : Nat), Touches.sendSet N a0
  c_portFails : ∀ (a0 : Nat), Touches.portFails N a0

theorem FitsOut.execLaneFault (k : Fin 32) (lost : Nat) (s : State) (h : Fits N s0 s) (tch : Touches.execLaneFault N k) :
    FitsOut N s0 (execLaneFault k lost s) := by
  obtain ⟨h_ev, h_lanes, k_HL_LANE_CNT_count, k_HL_LANE_CNT_count_1, k_HL_LANE_STAT_retrains, k_PORT_CNT_count, c_evt, c_laneGo, c_spareReady, c_substitute, c_sendSet, c_portFails⟩ := tch
  unfold Sys2Proof.Machine.execLaneFault
  repeat' first
    | with_reducible assumption
    | with_reducible apply k_HL_LANE_CNT_count
    | with_reducible apply k_HL_LANE_CNT_count_1
    | with_reducible apply k_HL_LANE_STAT_retrains
    | with_reducible apply k_PORT_CNT_count
    | with_reducible exact c_spareReady _
    | with_reducible exact c_substitute _
    | with_reducible exact c_sendSet _
    | with_reducible exact c_portFails _
    | with_reducible apply Fits.bump
    | with_reducible apply Fits.incWrap
    | with_reducible apply Fits.evt
    | with_reducible apply Fits.loss
    | with_reducible apply Fits.modPort
    | with_reducible apply Fits.laneGo
    | with_reducible apply Fits.spareReady
    | with_reducible apply Fits.substitute
    | with_reducible apply Fits.sendSet
    | with_reducible apply Fits.portFails
    | with_reducible apply FitsOut.ite
    | with_reducible apply FitsOut.next
    | with_reducible apply FitsOut.fault
    | (intro _)
    | with_reducible apply Fits.ite
    | dsimp only
    | split
    | (refine Fits.pair ‹_ = (_, _)› ?_)
    | (refine Fits.pair2 ‹_ = (_, _, _)› ?_)
    | with_reducible apply Fits.upd_lanes

structure Touches.exchEval (N : Part → Prop) (p : Nat) : Prop where
  h_lanes : N .lanes
  k_PORT_STAT_exch_result : N (.reg (F.PORT_STAT_exch_result (p / 8) (p % 8)).key)
  k_PORT_STAT_slm_active : N (.reg (F.PORT_STAT_slm_active (p / 8) (p % 8)).key)
  c_portEvt : Touches.portEvt N p
  c_portGo : Touches.portGo N p

theorem Fits.exchEval (p : Nat) (s : State) (h : Fits N s0 s) (tch : Touches.exchEval N p) :
    Fits N s0 (exchEval p s) := by
  obtain ⟨h_lanes, k_PORT_STAT_exch_result, k_PORT_STAT_slm_active, c_portEvt, c_portGo⟩ := tch
  unfold Sys2Proof.Machine.exchEval
  repeat' first
    | with_reducible assumption
    | with_reducible apply k_PORT_STAT_exch_result
    | with_reducible apply k_PORT_STAT_slm_active
    | with_reducible apply Fits.setF
    | with_reducible apply Fits.setB
    | with_reducible apply Fits.modPort
    | with_reducible apply Fits.portEvt
    | with_reducible apply Fits.portGo
    | (intro _)
    | with_reducible apply Fits.ite
    | dsimp only
    | split
    | (refine Fits.pair ‹_ = (_, _)› ?_)
    | (refine Fits.pair2 ‹_ = (_, _, _)› ?_)

theorem Fits.setExch (k : Nat) (e : LaneExch) (s : State) (h : Fits N s0 s) (h_lanes : N .lanes) :
    Fits N s0 (setExch k e s) := by
  unfold Sys2Proof.Machine.setExch
  repeat' first
    | with_reducible assumption
    | (intro _)
    | with_reducible apply Fits.ite
    | dsimp only
    | split
    | (refine Fits.pair ‹_ = (_, _)› ?_)
    | (refine Fits.pair2 ‹_ = (_, _, _)› ?_)
    | with_reducible apply Fits.upd_lanes

theorem Fits.capBroken (k : Nat) (s : State) (h : Fits N s0 s) (h_lanes : N .lanes) :
    Fits N s0 (capBroken k s) := by
  unfold Sys2Proof.Machine.capBroken
  repeat' first
    | with_reducible assumption
    | with_reducible apply Fits.setExch
    | (intro _)
    | with_reducible apply Fits.ite
    | dsimp only
    | split
    | (refine Fits.pair ‹_ = (_, _)› ?_)
    | (refine Fits.pair2 ‹_ = (_, _, _)› ?_)

structure Touches.capValid (N : Part → Prop) (k : Nat) (p : Nat) : Prop where
  h_lanes : N .lanes
  k_HL_LANE_STAT_far_lane : N (.reg (F.HL_LANE_STAT_far_lane (k / 8) (k % 8)).key)
  k_PORT_LANEMAP_map : N (.reg (F.PORT_LANEMAP_map (p / 8) (p % 8)).key)
  k_PORT_PARTNER_port : N (.reg (F.PORT_PARTNER_port (p / 8) (p % 8)).key)
  k_PORT_PARTNER_tag : N (.reg (F.PORT_PARTNER_tag (p / 8) (p % 8)).key)
  c_exchEval : Touches.exchEval N p

theorem Fits.capValid (k : Nat) (p : Nat) (b : List Byte) (s : State) (h : Fits N s0 s) (tch : Touches.capValid N k p) :
    Fits N s0 (capValid k p b s) := by
  obtain ⟨h_lanes, k_HL_LANE_STAT_far_lane, k_PORT_LANEMAP_map, k_PORT_PARTNER_port, k_PORT_PARTNER_tag, c_exchEval⟩ := tch
  unfold Sys2Proof.Machine.capValid
  repeat' first
    | with_reducible assumption
    | with_reducible apply k_HL_LANE_STAT_far_lane
    | with_reducible apply k_PORT_LANEMAP_map
    | with_reducible apply k_PORT_PARTNER_port
    | with_reducible apply k_PORT_PARTNER_tag
    | with_reducible apply Fits.setF
    | with_reducible apply Fits.exchEval
    | with_reducible apply Fits.setExch
    | (intro _)
    | with_reducible apply Fits.ite
    | dsimp only
    | split
    | (refine Fits.pair ‹_ = (_, _)› ?_)
    | (refine Fits.pair2 ‹_ = (_, _, _)› ?_)

structure Touches.capTake (N : Part → Prop) (k : Nat) (p : Nat) : Prop where
  h_lanes : N .lanes
  c_polarity : Touches.polarity N (k / 8) (k % 8)
  c_capValid : Touches.capValid N k p

theorem Fits.capTake (k : Nat) (p : Nat) (inverted : Bool) (b : List Byte) (s : State) (h : Fits N s0 s) (tch : Touches.capTake N k p) :
    Fits N s0 (capTake k p inverted b s) := by
  obtain ⟨h_lanes, c_polarity, c_capValid⟩ := tch
  unfold Sys2Proof.Machine.capTake
  repeat' first
    | with_reducible assumption
    | with_reducible apply Fits.modPort
    | with_reducible apply Fits.polarity
    | with_reducible apply Fits.capBroken
    | with_reducible apply Fits.capValid
    | (intro _)
    | with_reducible apply Fits.ite
    | dsimp only
    | split
    | (refine Fits.pair ‹_ = (_, _)› ?_)
    | (refine Fits.pair2 ‹_ = (_, _, _)› ?_)

structure Touches.execCapabilityFrame (N : Part → Prop) (k : Fin 32) : Prop where
  h_lanes : N .lanes
  c_capTake : ∀ (a1 : Nat), Touches.capTake N k.val a1

theorem FitsOut.execCapabilityFrame (k : Fin 32) (marker : Word) (version : Byte) (lane : Byte) (flags : Byte) (lanes : Byte) (tag : BitVec 24) (port : Byte) (tail : Word) (s : State) (h : Fits N s0 s) (tch : Touches.execCapabilityFrame N k) :
    FitsOut N s0 (execCapabilityFrame k marker version lane flags lanes tag port tail s) := by
  obtain ⟨h_lanes, c_capTake⟩ := tch
  unfold Sys2Proof.Machine.execCapabilityFrame
  repeat' first
    | with_reducible assumption
    | with_reducible exact c_capTake _
    | with_reducible apply Fits.capBroken
    | with_reducible apply Fits.capTake
    | with_reducible apply FitsOut.ite
    | with_reducible apply FitsOut.next
    | with_reducible apply FitsOut.fault
    | (intro _)
    | with_reducible apply Fits.ite
    | dsimp only
    | split
    | (refine Fits.pair ‹_ = (_, _)› ?_)
    | (refine Fits.pair2 ‹_ = (_, _, _)› ?_)

structure Touches.execExchangeWindowExpiry (N : Part → Prop) (p : Fin 32) : Prop where
  h_lanes : N .lanes
  k_PORT_PARTNER_port : N (.reg (F.PORT_PARTNER_port (p.val / 8) (p.val % 8)).key)
  k_PORT_PARTNER_tag : N (.reg (F.PORT_PARTNER_tag (p.val / 8) (p.val % 8)).key)
  k_PORT_STAT_exch_result : N (.reg (F.PORT_STAT_exch_result (p.val / 8) (p.val % 8)).key)
  k_PORT_STAT_slm_active : N (.reg (F.PORT_STAT_slm_active (p.val / 8) (p.val % 8)).key)
  c_portCount : Touches.portCount N p.val 12
  c_portEvt : Touches.portEvt N p.val
  c_portGo : Touches.portGo N p.val

theorem FitsOut.execExchangeWindowExpiry (p : Fin 32) (s : State) (h : Fits N s0 s) (tch : Touches.execExchangeWindowExpiry N p) :
    FitsOut N s0 (execExchangeWindowExpiry p s) := by
  obtain ⟨h_lanes, k_PORT_PARTNER_port, k_PORT_PARTNER_tag, k_PORT_STAT_exch_result, k_PORT_STAT_slm_active, c_portCount, c_portEvt, c_portGo⟩ := tch
  unfold Sys2Proof.Machine.execExchangeWindowExpiry
  repeat' first
    | with_reducible assumption
    | with_reducible apply k_PORT_PARTNER_port
    | with_reducible apply k_PORT_PARTNER_tag
    | with_reducible apply k_PORT_STAT_exch_result
    | with_reducible apply k_PORT_STAT_slm_active
    | with_reducible apply Fits.setF
    | with_reducible apply Fits.setB
    | with_reducible apply Fits.modPort
    | with_reducible apply Fits.portCount
    | with_reducible apply Fits.portEvt
    | with_reducible apply Fits.portGo
    | with_reducible apply Fits.openWindow
    | with_reducible apply FitsOut.ite
    | with_reducible apply FitsOut.next
    | with_reducible apply FitsOut.fault
    | (intro _)
    | with_reducible apply Fits.ite
    | dsimp only
    | split
    | (refine Fits.pair ‹_ = (_, _)› ?_)
    | (refine Fits.pair2 ‹_ = (_, _, _)› ?_)

structure Touches.farLanes (N : Part → Prop) : Prop where
  k_HL_LANE_STAT_far_lane : ∀ (a0 : Nat) (a1 : Nat), N (.reg (F.HL_LANE_STAT_far_lane a0 a1).key)

theorem Fits.farLanes (p : Nat) (s : State) (h : Fits N s0 s) (tch : Touches.farLanes N) :
    Fits N s0 (farLanes p s) := by
  obtain ⟨k_HL_LANE_STAT_far_lane⟩ := tch
  unfold Sys2Proof.Machine.farLanes
  repeat' first
    | with_reducible assumption
    | with_reducible apply k_HL_LANE_STAT_far_lane
    | with_reducible apply Fits.setF
    | with_reducible apply Fits.forEach
    | (intro _)
    | with_reducible apply Fits.ite
    | dsimp only
    | split
    | (refine Fits.pair ‹_ = (_, _)› ?_)
    | (refine Fits.pair2 ‹_ = (_, _, _)› ?_)

structure Touches.gidCheck (N : Part → Prop) (p : Nat) : Prop where
  k_PORT_STAT_gid_mismatch : N (.reg (F.PORT_STAT_gid_mismatch (p / 8) (p % 8)).key)

theorem Fits.gidCheck (p : Nat) (gid : BitVec 20) (s : State) (h : Fits N s0 s) (tch : Touches.gidCheck N p) :
    Fits N s0 (gidCheck p gid s) := by
  obtain ⟨k_PORT_STAT_gid_mismatch⟩ := tch
  unfold Sys2Proof.Machine.gidCheck
  repeat' first
    | with_reducible assumption
    | with_reducible apply k_PORT_STAT_gid_mismatch
    | with_reducible apply Fits.setB
    | (intro _)
    | with_reducible apply Fits.ite
    | dsimp only
    | split
    | (refine Fits.pair ‹_ = (_, _)› ?_)
    | (refine Fits.pair2 ‹_ = (_, _, _)› ?_)

structure Touches.execPortAligned (N : Part → Prop) (p : Fin 32) : Prop where
  k_PORT_LANEMAP_map : N (.reg (F.PORT_LANEMAP_map (p.val / 8) (p.val % 8)).key)
  k_PORT_STAT_rx_local_fault : N (.reg (F.PORT_STAT_rx_local_fault (p.val / 8) (p.val % 8)).key)
  k_PORT_STAT_spare_used : N (.reg (F.PORT_STAT_spare_used (p.val / 8) (p.val % 8)).key)
  c_laneGo : ∀ (a0 : Nat) (a1 : Nat), Touches.laneGo N a0 a1
  c_portGo : Touches.portGo N p.val
  c_spareReady : Touches.spareReady N p.val
  c_portEval : Touches.portEval N p.val
  c_flexoLof : Touches.flexoLof N p.val
  c_farLanes : Touches.farLanes N
  c_gidCheck : Touches.gidCheck N p.val

theorem FitsOut.execPortAligned (p : Fin 32) (found : PortAlignment) (s : State) (h : Fits N s0 s) (tch : Touches.execPortAligned N p) :
    FitsOut N s0 (execPortAligned p found s) := by
  obtain ⟨k_PORT_LANEMAP_map, k_PORT_STAT_rx_local_fault, k_PORT_STAT_spare_used, c_laneGo, c_portGo, c_spareReady, c_portEval, c_flexoLof, c_farLanes, c_gidCheck⟩ := tch
  unfold Sys2Proof.Machine.execPortAligned
  repeat' first
    | with_reducible assumption
    | with_reducible apply k_PORT_LANEMAP_map
    | with_reducible apply k_PORT_STAT_rx_local_fault
    | with_reducible apply k_PORT_STAT_spare_used
    | with_reducible exact c_laneGo _ _
    | with_reducible apply Fits.setF
    | with_reducible apply Fits.setB
    | with_reducible apply Fits.laneGo
    | with_reducible apply Fits.portGo
    | with_reducible apply Fits.spareReady
    | with_reducible apply Fits.portEval
    | with_reducible apply Fits.flexoLof
    | with_reducible apply Fits.farLanes
    | with_reducible apply Fits.gidCheck
    | with_reducible apply Fits.forEach
    | with_reducible apply Fits.foldlPair
    | with_reducible apply Fits.foldl
    | with_reducible apply FitsOut.ite
    | with_reducible apply FitsOut.next
    | with_reducible apply FitsOut.fault
    | (intro _)
    | with_reducible apply Fits.ite
    | dsimp only
    | split
    | (refine Fits.pair ‹_ = (_, _)› ?_)
    | (refine Fits.pair2 ‹_ = (_, _, _)› ?_)

structure Touches.execAlignmentLost (N : Part → Prop) (p : Fin 32) : Prop where
  c_portLeaveUp : Touches.portLeaveUp N p.val

theorem FitsOut.execAlignmentLost (p : Fin 32) (s : State) (h : Fits N s0 s) (tch : Touches.execAlignmentLost N p) :
    FitsOut N s0 (execAlignmentLost p s) := by
  obtain ⟨c_portLeaveUp⟩ := tch
  unfold Sys2Proof.Machine.execAlignmentLost
  repeat' first
    | with_reducible assumption
    | with_reducible apply Fits.portLeaveUp
    | with_reducible apply FitsOut.ite
    | with_reducible apply FitsOut.next
    | with_reducible apply FitsOut.fault
    | (intro _)
    | with_reducible apply Fits.ite
    | dsimp only
    | split
    | (refine Fits.pair ‹_ = (_, _)› ?_)
    | (refine Fits.pair2 ‹_ = (_, _, _)› ?_)

structure Touches.execSpareReq (N : Part → Prop) (p : Fin 32) : Prop where
  h_lanes : N .lanes
  c_sendWith : Touches.sendWith N p.val

theorem FitsOut.execSpareReq (p : Fin 32) (lane : Fin 8) (seq : Byte) (s : State) (h : Fits N s0 s) (tch : Touches.execSpareReq N p) :
    FitsOut N s0 (execSpareReq p lane seq s) := by
  obtain ⟨h_lanes, c_sendWith⟩ := tch
  unfold Sys2Proof.Machine.execSpareReq
  repeat' first
    | with_reducible assumption
    | with_reducible apply Fits.modPort
    | with_reducible apply Fits.sendWith
    | with_reducible apply FitsOut.ite
    | with_reducible apply FitsOut.next
    | with_reducible apply FitsOut.fault
    | (intro _)
    | with_reducible apply Fits.ite
    | dsimp only
    | split
    | (refine Fits.pair ‹_ = (_, _)› ?_)
    | (refine Fits.pair2 ‹_ = (_, _, _)› ?_)

theorem FitsOut.execSpareAck (p : Fin 32) (lane : Fin 8) (seq : Byte) (s : State) (h : Fits N s0 s) (h_lanes : N .lanes) :
    FitsOut N s0 (execSpareAck p lane seq s) := by
  unfold Sys2Proof.Machine.execSpareAck
  repeat' first
    | with_reducible assumption
    | with_reducible apply Fits.modPort
    | with_reducible apply FitsOut.ite
    | with_reducible apply FitsOut.next
    | with_reducible apply FitsOut.fault
    | (intro _)
    | with_reducible apply Fits.ite
    | dsimp only
    | split
    | (refine Fits.pair ‹_ = (_, _)› ?_)
    | (refine Fits.pair2 ‹_ = (_, _, _)› ?_)

structure Touches.execSpareReqRepeat (N : Part → Prop) (p : Fin 32) : Prop where
  c_sendWith : Touches.sendWith N p.val

theorem FitsOut.execSpareReqRepeat (p : Fin 32) (s : State) (h : Fits N s0 s) (tch : Touches.execSpareReqRepeat N p) :
    FitsOut N s0 (execSpareReqRepeat p s) := by
  obtain ⟨c_sendWith⟩ := tch
  unfold Sys2Proof.Machine.execSpareReqRepeat
  repeat' first
    | with_reducible assumption
    | with_reducible apply Fits.sendWith
    | with_reducible apply FitsOut.ite
    | with_reducible apply FitsOut.next
    | with_reducible apply FitsOut.fault
    | (intro _)
    | with_reducible apply Fits.ite
    | dsimp only
    | split
    | (refine Fits.pair ‹_ = (_, _)› ?_)
    | (refine Fits.pair2 ‹_ = (_, _, _)› ?_)

structure Touches.execSpareSwitch (N : Part → Prop) (p : Fin 32) : Prop where
  h_ev : N .ev
  k_PORT_CNT_count : N (.reg (F.PORT_CNT_count (p.val / 8) (p.val % 8) 5).key)
  c_substitute : Touches.substitute N p.val

theorem FitsOut.execSpareSwitch (p : Fin 32) (lost : Nat) (s : State) (h : Fits N s0 s) (tch : Touches.execSpareSwitch N p) :
    FitsOut N s0 (execSpareSwitch p lost s) := by
  obtain ⟨h_ev, k_PORT_CNT_count, c_substitute⟩ := tch
  unfold Sys2Proof.Machine.execSpareSwitch
  repeat' first
    | with_reducible assumption
    | with_reducible apply k_PORT_CNT_count
    | with_reducible apply Fits.loss
    | with_reducible apply Fits.substitute
    | with_reducible apply FitsOut.ite
    | with_reducible apply FitsOut.next
    | with_reducible apply FitsOut.fault
    | (intro _)
    | with_reducible apply Fits.ite
    | dsimp only
    | split
    | (refine Fits.pair ‹_ = (_, _)› ?_)
    | (refine Fits.pair2 ‹_ = (_, _, _)› ?_)

structure Touches.execSleep (N : Part → Prop) (p : Fin 32) : Prop where
  k_PORT_STAT_rx_asleep : N (.reg (F.PORT_STAT_rx_asleep (p.val / 8) (p.val % 8)).key)

theorem FitsOut.execSleep (p : Fin 32) (s : State) (h : Fits N s0 s) (tch : Touches.execSleep N p) :
    FitsOut N s0 (execSleep p s) := by
  obtain ⟨k_PORT_STAT_rx_asleep⟩ := tch
  unfold Sys2Proof.Machine.execSleep
  repeat' first
    | with_reducible assumption
    | with_reducible apply k_PORT_STAT_rx_asleep
    | with_reducible apply Fits.setB
    | with_reducible apply FitsOut.ite
    | with_reducible apply FitsOut.next
    | with_reducible apply FitsOut.fault
    | (intro _)
    | with_reducible apply Fits.ite
    | dsimp only
    | split
    | (refine Fits.pair ‹_ = (_, _)› ?_)
    | (refine Fits.pair2 ‹_ = (_, _, _)› ?_)

structure Touches.execWake (N : Part → Prop) (p : Fin 32) : Prop where
  k_PORT_STAT_rx_asleep : N (.reg (F.PORT_STAT_rx_asleep (p.val / 8) (p.val % 8)).key)

theorem FitsOut.execWake (p : Fin 32) (s : State) (h : Fits N s0 s) (tch : Touches.execWake N p) :
    FitsOut N s0 (execWake p s) := by
  obtain ⟨k_PORT_STAT_rx_asleep⟩ := tch
  unfold Sys2Proof.Machine.execWake
  repeat' first
    | with_reducible assumption
    | with_reducible apply k_PORT_STAT_rx_asleep
    | with_reducible apply Fits.setB
    | with_reducible apply FitsOut.ite
    | with_reducible apply FitsOut.next
    | with_reducible apply FitsOut.fault
    | (intro _)
    | with_reducible apply Fits.ite
    | dsimp only
    | split
    | (refine Fits.pair ‹_ = (_, _)› ?_)
    | (refine Fits.pair2 ‹_ = (_, _, _)› ?_)

structure Touches.execSleepEntry (N : Part → Prop) (p : Fin 32) : Prop where
  c_portCount : Touches.portCount N p.val 6
  c_sendSet : Touches.sendSet N p.val

theorem FitsOut.execSleepEntry (p : Fin 32) (s : State) (h : Fits N s0 s) (tch : Touches.execSleepEntry N p) :
    FitsOut N s0 (execSleepEntry p s) := by
  obtain ⟨c_portCount, c_sendSet⟩ := tch
  unfold Sys2Proof.Machine.execSleepEntry
  repeat' first
    | with_reducible assumption
    | with_reducible apply Fits.portCount
    | with_reducible apply Fits.sendSet
    | with_reducible apply FitsOut.ite
    | with_reducible apply FitsOut.next
    | with_reducible apply FitsOut.fault
    | (intro _)
    | with_reducible apply Fits.ite
    | dsimp only
    | split
    | (refine Fits.pair ‹_ = (_, _)› ?_)
    | (refine Fits.pair2 ‹_ = (_, _, _)› ?_)

structure Touches.execEgressFrame (N : Part → Prop) (p : Fin 32) : Prop where
  h_ev : N .ev
  h_smp : N .smp
  c_portCount : Touches.portCount N p.val 10
  c_portCount_1 : Touches.portCount N p.val 7
  c_portCount_2 : Touches.portCount N p.val 8
  c_sendSet : Touches.sendSet N p.val

theorem FitsOut.execEgressFrame (p : Fin 32) (len : Nat) (queued : Nat) (idleAdj : Nat) (slip : Bool) (s : State) (h : Fits N s0 s) (tch : Touches.execEgressFrame N p) :
    FitsOut N s0 (execEgressFrame p len queued idleAdj slip s) := by
  obtain ⟨h_ev, h_smp, c_portCount, c_portCount_1, c_portCount_2, c_sendSet⟩ := tch
  unfold Sys2Proof.Machine.execEgressFrame
  repeat' first
    | with_reducible assumption
    | with_reducible apply Fits.datapath
    | with_reducible apply Fits.smpPass
    | with_reducible apply Fits.portCount
    | with_reducible apply Fits.sendSet
    | with_reducible apply FitsOut.ite
    | with_reducible apply FitsOut.next
    | with_reducible apply FitsOut.fault
    | (intro _)
    | with_reducible apply Fits.ite
    | dsimp only
    | split
    | (refine Fits.pair ‹_ = (_, _)› ?_)
    | (refine Fits.pair2 ‹_ = (_, _, _)› ?_)

structure Touches.fecFound (N : Part → Prop) (p : Nat) : Prop where
  k_HL_LANE_CNT_count : ∀ (a0 : Nat) (a1 : Nat), N (.reg (F.HL_LANE_CNT_count a0 a1 0).key)
  c_portCount : Touches.portCount N p 3
  c_portCount_1 : Touches.portCount N p 4

theorem Fits.fecFound (p : Nat) (x : PortLine) (s : State) (h : Fits N s0 s) (tch : Touches.fecFound N p) :
    Fits N s0 (fecFound p x s) := by
  obtain ⟨k_HL_LANE_CNT_count, c_portCount, c_portCount_1⟩ := tch
  unfold Sys2Proof.Machine.fecFound
  repeat' first
    | with_reducible assumption
    | with_reducible apply k_HL_LANE_CNT_count
    | with_reducible apply Fits.bump
    | with_reducible apply Fits.portCount
    | with_reducible apply Fits.forEach
    | (intro _)
    | with_reducible apply Fits.ite
    | dsimp only
    | split
    | (refine Fits.pair ‹_ = (_, _)› ?_)
    | (refine Fits.pair2 ‹_ = (_, _, _)› ?_)

structure Touches.faultsFound (N : Part → Prop) (p : Nat) : Prop where
  k_PORT_STAT_gid_mismatch : ∀ (a0 : Nat) (a1 : Nat), N (.reg (F.PORT_STAT_gid_mismatch a0 a1).key)
  k_PORT_STAT_rx_local_fault : ∀ (a0 : Nat) (a1 : Nat), N (.reg (F.PORT_STAT_rx_local_fault a0 a1).key)
  k_PORT_STAT_rx_remote_fault : ∀ (a0 : Nat) (a1 : Nat), N (.reg (F.PORT_STAT_rx_remote_fault a0 a1).key)
  c_portEvt : Touches.portEvt N p
  c_gidCheck : Touches.gidCheck N p

theorem Fits.faultsFound (p : Nat) (x : PortLine) (s : State) (h : Fits N s0 s) (tch : Touches.faultsFound N p) :
    Fits N s0 (faultsFound p x s) := by
  obtain ⟨k_PORT_STAT_gid_mismatch, k_PORT_STAT_rx_local_fault, k_PORT_STAT_rx_remote_fault, c_portEvt, c_gidCheck⟩ := tch
  unfold Sys2Proof.Machine.faultsFound
  repeat' first
    | with_reducible assumption
    | with_reducible apply k_PORT_STAT_gid_mismatch
    | with_reducible apply k_PORT_STAT_rx_local_fault
    | with_reducible apply k_PORT_STAT_rx_remote_fault
    | with_reducible apply Fits.setB
    | with_reducible apply Fits.portEvt
    | with_reducible apply Fits.gidCheck
    | (intro _)
    | with_reducible apply Fits.ite
    | dsimp only
    | split
    | (refine Fits.pair ‹_ = (_, _)› ?_)
    | (refine Fits.pair2 ‹_ = (_, _, _)› ?_)

structure Touches.patternErrors (N : Part → Prop) (k : Nat) : Prop where
  h_drawn : N .drawn
  k_HL_LANE_CNT_count : N (.reg (F.HL_LANE_CNT_count (k / 8) (k % 8) 1).key)
  c_evt : Touches.evt N (0x90 + (k / 8))

theorem Fits.patternErrors (k : Nat) (s : State) (h : Fits N s0 s) (tch : Touches.patternErrors N k) :
    Fits N s0 (patternErrors k s) := by
  obtain ⟨h_drawn, k_HL_LANE_CNT_count, c_evt⟩ := tch
  unfold Sys2Proof.Machine.patternErrors
  repeat' first
    | with_reducible assumption
    | with_reducible apply k_HL_LANE_CNT_count
    | with_reducible apply Fits.bump
    | with_reducible apply Fits.draw
    | with_reducible apply Fits.evt
    | (intro _)
    | with_reducible apply Fits.ite
    | dsimp only
    | split
    | (refine Fits.pair ‹_ = (_, _)› ?_)
    | (refine Fits.pair2 ‹_ = (_, _, _)› ?_)

structure Touches.ingressCheck (N : Part → Prop) (p : Nat) : Prop where
  h_ev : N .ev
  c_portCount : ∀ (a1 : Nat), Touches.portCount N p a1

theorem Fits.ingressCheck (p : Nat) (len : Nat) (fcsOk : Bool) (s : State) (h : Fits N s0 s) (tch : Touches.ingressCheck N p) :
    Fits N s0 (ingressCheck p len fcsOk s).2 := by
  obtain ⟨h_ev, c_portCount⟩ := tch
  unfold Sys2Proof.Machine.ingressCheck
  repeat' first
    | with_reducible assumption
    | with_reducible exact c_portCount _
    | with_reducible apply Fits.datapath
    | with_reducible apply Fits.portCount
    | (intro _)
    | with_reducible apply Fits.ite
    | dsimp only
    | split
    | (refine Fits.pair ‹_ = (_, _)› ?_)
    | (refine Fits.pair2 ‹_ = (_, _, _)› ?_)

structure Touches.laneStart (N : Part → Prop) (g : Nat) (j : Nat) : Prop where
  k_HL_LANE_TXFFE_ACT_taps : N (.reg (F.HL_LANE_TXFFE_ACT_taps g j).key)
  c_laneGo : Touches.laneGo N g j

theorem Fits.laneStart (g : Nat) (j : Nat) (s : State) (h : Fits N s0 s) (tch : Touches.laneStart N g j) :
    Fits N s0 (laneStart g j s) := by
  obtain ⟨k_HL_LANE_TXFFE_ACT_taps, c_laneGo⟩ := tch
  unfold Sys2Proof.Machine.laneStart
  repeat' first
    | with_reducible assumption
    | with_reducible apply k_HL_LANE_TXFFE_ACT_taps
    | with_reducible apply Fits.setF
    | with_reducible apply Fits.laneGo
    | (intro _)
    | with_reducible apply Fits.ite
    | dsimp only
    | split
    | (refine Fits.pair ‹_ = (_, _)› ?_)
    | (refine Fits.pair2 ‹_ = (_, _, _)› ?_)

structure Touches.groupApply (N : Part → Prop) (g : Nat) : Prop where
  k_HL_LANE_STAT_retrains : ∀ (a1 : Nat), N (.reg (F.HL_LANE_STAT_retrains g a1).key)
  c_laneGo : ∀ (a1 : Nat), Touches.laneGo N g a1
  c_portLeaveUp : ∀ (a0 : Nat), Touches.portLeaveUp N a0
  c_laneStart : ∀ (a1 : Nat), Touches.laneStart N g a1

theorem Fits.groupApply (old : Tbl Nat) (g : Nat) (s : State) (h : Fits N s0 s) (tch : Touches.groupApply N g) :
    Fits N s0 (groupApply old g s) := by
  obtain ⟨k_HL_LANE_STAT_retrains, c_laneGo, c_portLeaveUp, c_laneStart⟩ := tch
  unfold Sys2Proof.Machine.groupApply
  repeat' first
    | with_reducible assumption
    | with_reducible apply k_HL_LANE_STAT_retrains
    | with_reducible exact c_laneGo _
    | with_reducible exact c_portLeaveUp _
    | with_reducible exact c_laneStart _
    | with_reducible apply Fits.setF
    | with_reducible apply Fits.laneGo
    | with_reducible apply Fits.portLeaveUp
    | with_reducible apply Fits.laneStart
    | with_reducible apply Fits.forEach
    | (intro _)
    | with_reducible apply Fits.ite
    | dsimp only
    | split
    | (refine Fits.pair ‹_ = (_, _)› ?_)
    | (refine Fits.pair2 ‹_ = (_, _, _)› ?_)

structure Touches.portDown (N : Part → Prop) (old : Tbl Nat) (p : Nat) : Prop where
  h_lanes : N .lanes
  k_PORT_LANEMAP_map : N (.reg (F.PORT_LANEMAP_map (p / 8) (p % 8)).key)
  k_PORT_PARTNER_port : N (.reg (F.PORT_PARTNER_port (p / 8) (p % 8)).key)
  k_PORT_PARTNER_tag : N (.reg (F.PORT_PARTNER_tag (p / 8) (p % 8)).key)
  k_PORT_STAT_exch_result : ∀ (a0 : Nat) (a1 : Nat), N (.reg (F.PORT_STAT_exch_result a0 a1).key)
  k_PORT_STAT_flexo_lof : ∀ (a0 : Nat) (a1 : Nat), N (.reg (F.PORT_STAT_flexo_lof a0 a1).key)
  k_PORT_STAT_gid_mismatch : ∀ (a0 : Nat) (a1 : Nat), N (.reg (F.PORT_STAT_gid_mismatch a0 a1).key)
  k_PORT_STAT_rx_asleep : ∀ (a0 : Nat) (a1 : Nat), N (.reg (F.PORT_STAT_rx_asleep a0 a1).key)
  k_PORT_STAT_rx_local_fault : ∀ (a0 : Nat) (a1 : Nat), N (.reg (F.PORT_STAT_rx_local_fault a0 a1).key)
  k_PORT_STAT_rx_remote_fault : ∀ (a0 : Nat) (a1 : Nat), N (.reg (F.PORT_STAT_rx_remote_fault a0 a1).key)
  k_PORT_STAT_slm_active : ∀ (a0 : Nat) (a1 : Nat), N (.reg (F.PORT_STAT_slm_active a0 a1).key)
  k_PORT_STAT_spare_ready : ∀ (a0 : Nat) (a1 : Nat), N (.reg (F.PORT_STAT_spare_ready a0 a1).key)
  k_PORT_STAT_spare_used : ∀ (a0 : Nat) (a1 : Nat), N (.reg (F.PORT_STAT_spare_used a0 a1).key)
  k_PORT_STAT_tx_asleep : ∀ (a0 : Nat) (a1 : Nat), N (.reg (F.PORT_STAT_tx_asleep a0 a1).key)
  c_laneGo : ∀ (a1 : Nat), Touches.laneGo N (portGroup old p) a1
  c_portGo : Touches.portGo N p

theorem Fits.portDown (old : Tbl Nat) (p : Nat) (s : State) (h : Fits N s0 s) (tch : Touches.portDown N old p) :
    Fits N s0 (portDown old p s) := by
  obtain ⟨h_lanes, k_PORT_LANEMAP_map, k_PORT_PARTNER_port, k_PORT_PARTNER_tag, k_PORT_STAT_exch_result, k_PORT_STAT_flexo_lof, k_PORT_STAT_gid_mismatch, k_PORT_STAT_rx_asleep, k_PORT_STAT_rx_local_fault, k_PORT_STAT_rx_remote_fault, k_PORT_STAT_slm_active, k_PORT_STAT_spare_ready, k_PORT_STAT_spare_used, k_PORT_STAT_tx_asleep, c_laneGo, c_portGo⟩ := tch
  have ks : ∀ f ∈ [F.PORT_STAT_slm_active, F.PORT_STAT_spare_ready, F.PORT_STAT_spare_used, F.PORT_STAT_tx_asleep, F.PORT_STAT_rx_asleep, F.PORT_STAT_rx_local_fault, F.PORT_STAT_rx_remote_fault, F.PORT_STAT_flexo_lof, F.PORT_STAT_gid_mismatch, F.PORT_STAT_exch_result], ∀ a b, N (.reg (f a b).key) := by
    simp only [List.mem_cons, List.not_mem_nil, or_false, forall_eq_or_imp, forall_eq]
    exact ⟨k_PORT_STAT_slm_active, k_PORT_STAT_spare_ready, k_PORT_STAT_spare_used, k_PORT_STAT_tx_asleep, k_PORT_STAT_rx_asleep, k_PORT_STAT_rx_local_fault, k_PORT_STAT_rx_remote_fault, k_PORT_STAT_flexo_lof, k_PORT_STAT_gid_mismatch, k_PORT_STAT_exch_result⟩
  unfold Sys2Proof.Machine.portDown
  repeat' first
    | with_reducible assumption
    | (with_reducible refine Fits.forEachMem [F.PORT_STAT_slm_active, F.PORT_STAT_spare_ready, F.PORT_STAT_spare_used, F.PORT_STAT_tx_asleep, F.PORT_STAT_rx_asleep, F.PORT_STAT_rx_local_fault, F.PORT_STAT_rx_remote_fault, F.PORT_STAT_flexo_lof, F.PORT_STAT_gid_mismatch, F.PORT_STAT_exch_result] _ ?_ fun f hf t ht => Fits.setF t _ _ ht (ks f hf _ _))
    | with_reducible apply k_PORT_LANEMAP_map
    | with_reducible apply k_PORT_PARTNER_port
    | with_reducible apply k_PORT_PARTNER_tag
    | with_reducible apply k_PORT_STAT_exch_result
    | with_reducible apply k_PORT_STAT_flexo_lof
    | with_reducible apply k_PORT_STAT_gid_mismatch
    | with_reducible apply k_PORT_STAT_rx_asleep
    | with_reducible apply k_PORT_STAT_rx_local_fault
    | with_reducible apply k_PORT_STAT_rx_remote_fault
    | with_reducible apply k_PORT_STAT_slm_active
    | with_reducible apply k_PORT_STAT_spare_ready
    | with_reducible apply k_PORT_STAT_spare_used
    | with_reducible apply k_PORT_STAT_tx_asleep
    | with_reducible exact c_laneGo _
    | with_reducible apply Fits.setF
    | with_reducible apply Fits.modPort
    | with_reducible apply Fits.laneGo
    | with_reducible apply Fits.portGo
    | with_reducible apply Fits.forEach
    | (intro _)
    | with_reducible apply Fits.ite
    | dsimp only
    | split
    | (refine Fits.pair ‹_ = (_, _)› ?_)
    | (refine Fits.pair2 ‹_ = (_, _, _)› ?_)

structure Touches.portStart (N : Part → Prop) (p : Nat) : Prop where
  c_portGo : Touches.portGo N p
  c_laneStart : ∀ (a0 : Nat) (a1 : Nat), Touches.laneStart N a0 a1

theorem Fits.portStart (p : Nat) (s : State) (h : Fits N s0 s) (tch : Touches.portStart N p) :
    Fits N s0 (portStart p s) := by
  obtain ⟨c_portGo, c_laneStart⟩ := tch
  unfold Sys2Proof.Machine.portStart
  repeat' first
    | with_reducible assumption
    | with_reducible exact c_laneStart _ _
    | with_reducible apply Fits.portGo
    | with_reducible apply Fits.laneStart
    | with_reducible apply Fits.forEach
    | (intro _)
    | with_reducible apply Fits.ite
    | dsimp only
    | split
    | (refine Fits.pair ‹_ = (_, _)› ?_)
    | (refine Fits.pair2 ‹_ = (_, _, _)› ?_)

structure Touches.portsApply (N : Part → Prop) (old : Tbl Nat) : Prop where
  c_portDown : ∀ (a1 : Nat), Touches.portDown N old a1
  c_portStart : ∀ (a0 : Nat), Touches.portStart N a0

theorem Fits.portsApply (old : Tbl Nat) (s : State) (h : Fits N s0 s) (tch : Touches.portsApply N old) :
    Fits N s0 (portsApply old s) := by
  obtain ⟨c_portDown, c_portStart⟩ := tch
  unfold Sys2Proof.Machine.portsApply
  repeat' first
    | with_reducible assumption
    | with_reducible exact c_portDown _
    | with_reducible exact c_portStart _
    | with_reducible apply Fits.portDown
    | with_reducible apply Fits.portStart
    | with_reducible apply Fits.forEach
    | (intro _)
    | with_reducible apply Fits.ite
    | dsimp only
    | split
    | (refine Fits.pair ‹_ = (_, _)› ?_)
    | (refine Fits.pair2 ‹_ = (_, _, _)› ?_)

structure Touches.portsAll (N : Part → Prop) : Prop where
  c_portDown : ∀ (a0 : Tbl Nat) (a1 : Nat), Touches.portDown N a0 a1
  c_portStart : ∀ (a0 : Nat), Touches.portStart N a0

theorem Fits.portsAll (up : Bool) (s : State) (h : Fits N s0 s) (tch : Touches.portsAll N) :
    Fits N s0 (portsAll up s) := by
  obtain ⟨c_portDown, c_portStart⟩ := tch
  unfold Sys2Proof.Machine.portsAll
  repeat' first
    | with_reducible assumption
    | with_reducible exact c_portDown _ _
    | with_reducible exact c_portStart _
    | with_reducible apply Fits.portDown
    | with_reducible apply Fits.portStart
    | with_reducible apply Fits.forEach
    | (intro _)
    | with_reducible apply Fits.ite
    | dsimp only
    | split
    | (refine Fits.pair ‹_ = (_, _)› ?_)
    | (refine Fits.pair2 ‹_ = (_, _, _)› ?_)

end Sys2Proof.Machine
end

