-- ==== Sys2Proof/Laws/FitsClassifier.lean ====
section
/-! SUPPORT. What the operations of Machine/Classifier.lean touch (a structure of parts for each, over those of the operations it calls), and
that each keeps the canonical form. -/
set_option linter.unusedTactic false
set_option linter.unreachableTactic false
namespace Sys2Proof.Machine

variable {N : Part → Prop} {s0 : State}

structure Touches.badUpdate (N : Part → Prop) (b : Nat) : Prop where
  k_CLS_BANK_BAD_bad : N (.reg (F.CLS_BANK_BAD_bad b).key)
  k_CLS_BANK_FIRST_BAD_offset : N (.reg (F.CLS_BANK_FIRST_BAD_offset b).key)

theorem Fits.badUpdate (b : Nat) (s : State) (h : Fits N s0 s) (tch : Touches.badUpdate N b) :
    Fits N s0 (badUpdate b s) := by
  obtain ⟨k_CLS_BANK_BAD_bad, k_CLS_BANK_FIRST_BAD_offset⟩ := tch
  unfold Sys2Proof.Machine.badUpdate
  repeat' first
    | with_reducible assumption
    | with_reducible apply k_CLS_BANK_BAD_bad
    | with_reducible apply k_CLS_BANK_FIRST_BAD_offset
    | with_reducible apply Fits.setF
    | with_reducible apply Fits.foldlPair
    | with_reducible apply Fits.foldl
    | (intro _)
    | with_reducible apply Fits.ite
    | dsimp only
    | split
    | (refine Fits.pair ‹_ = (_, _)› ?_)
    | (refine Fits.pair2 ‹_ = (_, _, _)› ?_)

structure Touches.clsCount (N : Part → Prop) (p : Nat) (c : Nat) : Prop where
  k_CLS_PORT_CNT_count : N (.reg (F.CLS_PORT_CNT_count (p / 8) (p % 8) c).key)

theorem Fits.clsCount (p : Nat) (c : Nat) (s : State) (h : Fits N s0 s) (tch : Touches.clsCount N p c) :
    Fits N s0 (clsCount p c s) := by
  obtain ⟨k_CLS_PORT_CNT_count⟩ := tch
  unfold Sys2Proof.Machine.clsCount
  repeat' first
    | with_reducible assumption
    | with_reducible apply k_CLS_PORT_CNT_count
    | with_reducible apply Fits.bump
    | (intro _)
    | with_reducible apply Fits.ite
    | dsimp only
    | split
    | (refine Fits.pair ‹_ = (_, _)› ?_)
    | (refine Fits.pair2 ‹_ = (_, _, _)› ?_)

structure Touches.clsLoss (N : Part → Prop) (p : Nat) (c : Nat) : Prop where
  h_ev : N .ev
  k_CLS_PORT_CNT_count : N (.reg (F.CLS_PORT_CNT_count (p / 8) (p % 8) c).key)

theorem Fits.clsLoss (p : Nat) (c : Nat) (s : State) (h : Fits N s0 s) (tch : Touches.clsLoss N p c) :
    Fits N s0 (clsLoss p c s) := by
  obtain ⟨h_ev, k_CLS_PORT_CNT_count⟩ := tch
  unfold Sys2Proof.Machine.clsLoss
  repeat' first
    | with_reducible assumption
    | with_reducible apply k_CLS_PORT_CNT_count
    | with_reducible apply Fits.loss
    | (intro _)
    | with_reducible apply Fits.ite
    | dsimp only
    | split
    | (refine Fits.pair ‹_ = (_, _)› ?_)
    | (refine Fits.pair2 ‹_ = (_, _, _)› ?_)

structure Touches.pipeSuspect (N : Part → Prop) (q : Nat) : Prop where
  h_cls : N .cls
  k_CLS_PIPE_STAT_mismatches : N (.reg (F.CLS_PIPE_STAT_mismatches q).key)
  k_CLS_PIPE_STAT_suspect : N (.reg (F.CLS_PIPE_STAT_suspect q).key)

theorem Fits.pipeSuspect (q : Nat) (s : State) (h : Fits N s0 s) (tch : Touches.pipeSuspect N q) :
    Fits N s0 (pipeSuspect q s) := by
  obtain ⟨h_cls, k_CLS_PIPE_STAT_mismatches, k_CLS_PIPE_STAT_suspect⟩ := tch
  unfold Sys2Proof.Machine.pipeSuspect
  repeat' first
    | with_reducible assumption
    | with_reducible apply k_CLS_PIPE_STAT_mismatches
    | with_reducible apply k_CLS_PIPE_STAT_suspect
    | with_reducible apply Fits.setF
    | with_reducible apply Fits.setB
    | (intro _)
    | with_reducible apply Fits.ite
    | dsimp only
    | split
    | (refine Fits.pair ‹_ = (_, _)› ?_)
    | (refine Fits.pair2 ‹_ = (_, _, _)› ?_)
    | (with_reducible refine Fits.upd_cls ?_ ‹_› _ ⟨rfl, rfl⟩)

structure Touches.finish (N : Part → Prop) (p : Nat) : Prop where
  c_clsCount : Touches.clsCount N p 3

theorem Fits.finish (p : Nat) (b : Nat) (dflt : Bool) (a : Nat) (s : State) (h : Fits N s0 s) (tch : Touches.finish N p) :
    Fits N s0 (finish p b dflt a s).2 := by
  obtain ⟨c_clsCount⟩ := tch
  unfold Sys2Proof.Machine.finish
  repeat' first
    | with_reducible assumption
    | with_reducible apply Fits.clsCount
    | (intro _)
    | with_reducible apply Fits.ite
    | dsimp only
    | split
    | (refine Fits.pair ‹_ = (_, _)› ?_)
    | (refine Fits.pair2 ‹_ = (_, _, _)› ?_)

structure Touches.pass (N : Part → Prop) (p : Nat) : Prop where
  h_clsMem : N .clsMem
  h_ev : N .ev
  k_CLS_CNT_count : N (.reg (F.CLS_CNT_count 0).key)
  k_CLS_CNT_count_1 : N (.reg (F.CLS_CNT_count 1).key)
  c_evt : Touches.evt N 0xB0
  c_err : Touches.err N 0xB0
  c_clsCount : ∀ (a1 : Nat), Touches.clsCount N p a1
  c_clsLoss : Touches.clsLoss N p 10
  c_pipeSuspect : ∀ (a0 : Nat), Touches.pipeSuspect N a0
  c_finish : Touches.finish N p

theorem Fits.pass (p : Nat) (b : Nat) (n : Nat) (base : Nat) (second : Bool) (fcsBad : Bool) (conflictIn : Bool) (fr : List Byte) (pipe : Nat) (ue : List Nat) (ce : Nat) (differs : Bool) (s : State) (h : Fits N s0 s) (tch : Touches.pass N p) :
    Fits N s0 (pass p b n base second fcsBad conflictIn fr pipe ue ce differs s).2.2 := by
  obtain ⟨h_clsMem, h_ev, k_CLS_CNT_count, k_CLS_CNT_count_1, c_evt, c_err, c_clsCount, c_clsLoss, c_pipeSuspect, c_finish⟩ := tch
  unfold Sys2Proof.Machine.pass
  repeat' first
    | with_reducible assumption
    | with_reducible apply k_CLS_CNT_count
    | with_reducible apply k_CLS_CNT_count_1
    | with_reducible exact c_clsCount _
    | with_reducible exact c_pipeSuspect _
    | with_reducible apply Fits.bump
    | with_reducible apply Fits.datapath
    | with_reducible apply Fits.evt
    | with_reducible apply Fits.err
    | with_reducible apply Fits.loss
    | with_reducible apply Fits.clsCount
    | with_reducible apply Fits.clsLoss
    | with_reducible apply Fits.pipeSuspect
    | with_reducible apply Fits.finish
    | (intro _)
    | with_reducible apply Fits.ite
    | dsimp only
    | split
    | (refine Fits.pair ‹_ = (_, _)› ?_)
    | (refine Fits.pair2 ‹_ = (_, _, _)› ?_)
    | (with_reducible refine Fits.upd_clsMem ?_ ‹_› _ ⟨rfl, rfl, rfl⟩ (fun t => Tbl.wf_set t _ _))

structure Touches.clsLevels (N : Part → Prop) : Prop where
  h_ev : N .ev
  k_CLS_BANK_DRAIN_count : N (.reg F.CLS_BANK_DRAIN_count.key)
  k_CLS_RECIRC_LEVEL_recirc : N (.reg F.CLS_RECIRC_LEVEL_recirc.key)
  k_CLS_RECIRC_LEVEL_reorder : N (.reg F.CLS_RECIRC_LEVEL_reorder.key)

theorem Fits.clsLevels (s : State) (h : Fits N s0 s) (tch : Touches.clsLevels N) :
    Fits N s0 (clsLevels s) := by
  obtain ⟨h_ev, k_CLS_BANK_DRAIN_count, k_CLS_RECIRC_LEVEL_recirc, k_CLS_RECIRC_LEVEL_reorder⟩ := tch
  unfold Sys2Proof.Machine.clsLevels
  repeat' first
    | with_reducible assumption
    | with_reducible apply k_CLS_BANK_DRAIN_count
    | with_reducible apply k_CLS_RECIRC_LEVEL_recirc
    | with_reducible apply k_CLS_RECIRC_LEVEL_reorder
    | with_reducible apply Fits.setF
    | with_reducible apply Fits.noteWas
    | (intro _)
    | with_reducible apply Fits.ite
    | dsimp only
    | split
    | (refine Fits.pair ‹_ = (_, _)› ?_)
    | (refine Fits.pair2 ‹_ = (_, _, _)› ?_)

structure Touches.setPkts (N : Part → Prop) : Prop where
  h_cls : N .cls
  c_clsLevels : Touches.clsLevels N

theorem Fits.setPkts (l : List Pkt) (s : State) (h : Fits N s0 s) (tch : Touches.setPkts N) :
    Fits N s0 (setPkts l s) := by
  obtain ⟨h_cls, c_clsLevels⟩ := tch
  unfold Sys2Proof.Machine.setPkts
  repeat' first
    | with_reducible assumption
    | with_reducible apply Fits.clsLevels
    | (intro _)
    | with_reducible apply Fits.ite
    | dsimp only
    | split
    | (refine Fits.pair ‹_ = (_, _)› ?_)
    | (refine Fits.pair2 ‹_ = (_, _, _)› ?_)
    | (with_reducible refine Fits.upd_cls ?_ ‹_› _ ⟨rfl, rfl⟩)

structure Touches.place (N : Part → Prop) (q : Pkt) : Prop where
  c_evt : Touches.evt N 0xB0
  c_clsLoss : Touches.clsLoss N q.port 6
  c_setPkts : Touches.setPkts N

theorem Fits.place (q : Pkt) (rest : List Pkt) (s : State) (h : Fits N s0 s) (tch : Touches.place N q) :
    Fits N s0 (place q rest s) := by
  obtain ⟨c_evt, c_clsLoss, c_setPkts⟩ := tch
  unfold Sys2Proof.Machine.place
  repeat' first
    | with_reducible assumption
    | with_reducible apply Fits.evt
    | with_reducible apply Fits.clsLoss
    | with_reducible apply Fits.setPkts
    | (intro _)
    | with_reducible apply Fits.ite
    | dsimp only
    | split
    | (refine Fits.pair ‹_ = (_, _)› ?_)
    | (refine Fits.pair2 ‹_ = (_, _, _)› ?_)

structure Touches.execFirstPass (N : Part → Prop) (p : Fin 32) : Prop where
  h_cls : N .cls
  c_evt : Touches.evt N 0xB0
  c_clsLoss : Touches.clsLoss N p.val 7
  c_pass : Touches.pass N p.val
  c_setPkts : Touches.setPkts N
  c_place : ∀ (a0 : Pkt), Touches.place N a0

theorem FitsOut.execFirstPass (p : Fin 32) (frame : List Byte) (fcsBad : Bool) (pipe : Fin 6) (ue : List Nat) (ce : Nat) (differs : Bool) (s : State) (h : Fits N s0 s) (tch : Touches.execFirstPass N p) :
    FitsOut N s0 (execFirstPass p frame fcsBad pipe ue ce differs s) := by
  obtain ⟨h_cls, c_evt, c_clsLoss, c_pass, c_setPkts, c_place⟩ := tch
  unfold Sys2Proof.Machine.execFirstPass
  repeat' first
    | with_reducible assumption
    | with_reducible exact c_place _
    | with_reducible apply Fits.evt
    | with_reducible apply Fits.clsLoss
    | with_reducible apply Fits.pass
    | with_reducible apply Fits.setPkts
    | with_reducible apply Fits.place
    | with_reducible apply FitsOut.ite
    | with_reducible apply FitsOut.next
    | with_reducible apply FitsOut.fault
    | (intro _)
    | with_reducible apply Fits.ite
    | dsimp only
    | split
    | (refine Fits.pair ‹_ = (_, _)› ?_)
    | (refine Fits.pair2 ‹_ = (_, _, _)› ?_)
    | (with_reducible refine Fits.upd_cls ?_ ‹_› _ ⟨rfl, rfl⟩)

structure Touches.execSecondPass (N : Part → Prop) : Prop where
  c_evt : Touches.evt N 0xB0
  c_clsLoss : ∀ (a0 : Nat), Touches.clsLoss N a0 4
  c_finish : ∀ (a0 : Nat), Touches.finish N a0
  c_pass : ∀ (a0 : Nat), Touches.pass N a0
  c_setPkts : Touches.setPkts N
  c_place : ∀ (a0 : Pkt), Touches.place N a0

theorem FitsOut.execSecondPass (id : Nat) (pipe : Fin 6) (ue : List Nat) (ce : Nat) (differs : Bool) (s : State) (h : Fits N s0 s) (tch : Touches.execSecondPass N) :
    FitsOut N s0 (execSecondPass id pipe ue ce differs s) := by
  obtain ⟨c_evt, c_clsLoss, c_finish, c_pass, c_setPkts, c_place⟩ := tch
  unfold Sys2Proof.Machine.execSecondPass
  repeat' first
    | with_reducible assumption
    | with_reducible exact c_clsLoss _
    | with_reducible exact c_finish _
    | with_reducible exact c_pass _
    | with_reducible exact c_place _
    | with_reducible apply Fits.evt
    | with_reducible apply Fits.clsLoss
    | with_reducible apply Fits.finish
    | with_reducible apply Fits.pass
    | with_reducible apply Fits.setPkts
    | with_reducible apply Fits.place
    | with_reducible apply FitsOut.ite
    | with_reducible apply FitsOut.next
    | with_reducible apply FitsOut.fault
    | (intro _)
    | with_reducible apply Fits.ite
    | dsimp only
    | split
    | (refine Fits.pair ‹_ = (_, _)› ?_)
    | (refine Fits.pair2 ‹_ = (_, _, _)› ?_)

structure Touches.execRecircTimeout (N : Part → Prop) : Prop where
  h_time : N .time
  c_evt : Touches.evt N 0xB0
  c_clsLoss : ∀ (a0 : Nat), Touches.clsLoss N a0 7
  c_setPkts : Touches.setPkts N

theorem FitsOut.execRecircTimeout (id : Nat) (s : State) (h : Fits N s0 s) (tch : Touches.execRecircTimeout N) :
    FitsOut N s0 (execRecircTimeout id s) := by
  obtain ⟨h_time, c_evt, c_clsLoss, c_setPkts⟩ := tch
  unfold Sys2Proof.Machine.execRecircTimeout
  repeat' first
    | with_reducible assumption
    | with_reducible exact c_clsLoss _
    | with_reducible apply Fits.reach
    | with_reducible apply Fits.evt
    | with_reducible apply Fits.clsLoss
    | with_reducible apply Fits.setPkts
    | with_reducible apply FitsOut.ite
    | with_reducible apply FitsOut.next
    | with_reducible apply FitsOut.fault
    | (intro _)
    | with_reducible apply Fits.ite
    | dsimp only
    | split
    | (refine Fits.pair ‹_ = (_, _)› ?_)
    | (refine Fits.pair2 ‹_ = (_, _, _)› ?_)

structure Touches.execIngressFrame (N : Part → Prop) (p : Fin 32) : Prop where
  h_ev : N .ev
  h_smp : N .smp
  c_evt : Touches.evt N 0xB0
  c_fecFound : Touches.fecFound N p.val
  c_faultsFound : Touches.faultsFound N p.val
  c_ingressCheck : Touches.ingressCheck N p.val
  c_clsLoss : Touches.clsLoss N p.val 11

theorem FitsOut.execIngressFrame (p : Fin 32) (len : Nat) (overload : Bool) (line : PortLine) (s : State) (h : Fits N s0 s) (tch : Touches.execIngressFrame N p) :
    FitsOut N s0 (execIngressFrame p len overload line s) := by
  obtain ⟨h_ev, h_smp, c_evt, c_fecFound, c_faultsFound, c_ingressCheck, c_clsLoss⟩ := tch
  unfold Sys2Proof.Machine.execIngressFrame
  repeat' first
    | with_reducible assumption
    | with_reducible apply Fits.datapath
    | with_reducible apply Fits.evt
    | with_reducible apply Fits.smpPass
    | with_reducible apply Fits.fecFound
    | with_reducible apply Fits.faultsFound
    | with_reducible apply Fits.ingressCheck
    | with_reducible apply Fits.clsLoss
    | with_reducible apply FitsOut.ite
    | with_reducible apply FitsOut.next
    | with_reducible apply FitsOut.fault
    | (intro _)
    | with_reducible apply Fits.ite
    | dsimp only
    | split
    | (refine Fits.pair ‹_ = (_, _)› ?_)
    | (refine Fits.pair2 ‹_ = (_, _, _)› ?_)

structure Touches.clsApply (N : Part → Prop) : Prop where
  k_bankSt : ∀ (a0 : Nat), N (.reg (bankSt a0).key)
  k_CLS_CNT_count : N (.reg (F.CLS_CNT_count 3).key)
  c_evt : Touches.evt N 0xB0
  c_clsLevels : Touches.clsLevels N

theorem Fits.clsApply (s : State) (h : Fits N s0 s) (tch : Touches.clsApply N) :
    Fits N s0 (clsApply s) := by
  obtain ⟨k_bankSt, k_CLS_CNT_count, c_evt, c_clsLevels⟩ := tch
  unfold Sys2Proof.Machine.clsApply
  repeat' first
    | with_reducible assumption
    | with_reducible apply k_bankSt
    | with_reducible apply k_CLS_CNT_count
    | with_reducible apply Fits.setF
    | with_reducible apply Fits.bump
    | with_reducible apply Fits.evt
    | with_reducible apply Fits.clsLevels
    | (intro _)
    | with_reducible apply Fits.ite
    | dsimp only
    | split
    | (refine Fits.pair ‹_ = (_, _)› ?_)
    | (refine Fits.pair2 ‹_ = (_, _, _)› ?_)

structure Touches.execBankDrainDone (N : Part → Prop) : Prop where
  k_bankSt : ∀ (a0 : Nat), N (.reg (bankSt a0).key)
  c_evt : Touches.evt N 0xB0
  c_clsLevels : Touches.clsLevels N

theorem FitsOut.execBankDrainDone (s : State) (h : Fits N s0 s) (tch : Touches.execBankDrainDone N) :
    FitsOut N s0 (execBankDrainDone s) := by
  obtain ⟨k_bankSt, c_evt, c_clsLevels⟩ := tch
  unfold Sys2Proof.Machine.execBankDrainDone
  repeat' first
    | with_reducible assumption
    | with_reducible apply k_bankSt
    | with_reducible apply Fits.setF
    | with_reducible apply Fits.evt
    | with_reducible apply Fits.clsLevels
    | with_reducible apply FitsOut.ite
    | with_reducible apply FitsOut.next
    | with_reducible apply FitsOut.fault
    | (intro _)
    | with_reducible apply Fits.ite
    | dsimp only
    | split
    | (refine Fits.pair ‹_ = (_, _)› ?_)
    | (refine Fits.pair2 ‹_ = (_, _, _)› ?_)

structure Touches.bankCopy (N : Part → Prop) : Prop where
  k_bankSt : ∀ (a0 : Nat), N (.reg (bankSt a0).key)
  c_err : Touches.err N 0xB0
  c_goWrite : Touches.goWrite N 0xB004C

theorem Fits.bankCopy (m : Master) (s : State) (h : Fits N s0 s) (tch : Touches.bankCopy N) :
    Fits N s0 (bankCopy m s) := by
  obtain ⟨k_bankSt, c_err, c_goWrite⟩ := tch
  unfold Sys2Proof.Machine.bankCopy
  repeat' first
    | with_reducible assumption
    | with_reducible apply k_bankSt
    | with_reducible apply Fits.setF
    | with_reducible apply Fits.err
    | with_reducible apply Fits.goWrite
    | (intro _)
    | with_reducible apply Fits.ite
    | dsimp only
    | split
    | (refine Fits.pair ‹_ = (_, _)› ?_)
    | (refine Fits.pair2 ‹_ = (_, _, _)› ?_)

structure Touches.execClsBankCopy (N : Part → Prop) : Prop where
  c_bankCopy : Touches.bankCopy N

theorem FitsOut.execClsBankCopy (m : Master) (s : State) (h : Fits N s0 s) (tch : Touches.execClsBankCopy N) :
    FitsOut N s0 (execClsBankCopy m s) := by
  obtain ⟨c_bankCopy⟩ := tch
  unfold Sys2Proof.Machine.execClsBankCopy
  repeat' first
    | with_reducible assumption
    | with_reducible apply Fits.bankCopy
    | with_reducible apply FitsOut.ite
    | with_reducible apply FitsOut.next
    | with_reducible apply FitsOut.fault
    | (intro _)
    | with_reducible apply Fits.ite
    | dsimp only
    | split
    | (refine Fits.pair ‹_ = (_, _)› ?_)
    | (refine Fits.pair2 ‹_ = (_, _, _)› ?_)

structure Touches.execCopyDone (N : Part → Prop) : Prop where
  h_clsMem : N .clsMem
  k_bankSt : ∀ (a0 : Nat), N (.reg (bankSt a0).key)
  c_evt : Touches.evt N 0xB0
  c_badUpdate : ∀ (a0 : Nat), Touches.badUpdate N a0

theorem FitsOut.execCopyDone (ue : List (Fin 0x1000000)) (s : State) (h : Fits N s0 s) (tch : Touches.execCopyDone N) :
    FitsOut N s0 (execCopyDone ue s) := by
  obtain ⟨h_clsMem, k_bankSt, c_evt, c_badUpdate⟩ := tch
  unfold Sys2Proof.Machine.execCopyDone
  repeat' first
    | with_reducible assumption
    | with_reducible apply k_bankSt
    | with_reducible exact c_badUpdate _
    | with_reducible apply Fits.setF
    | with_reducible apply Fits.evt
    | with_reducible apply Fits.badUpdate
    | with_reducible apply Fits.foldlPair
    | with_reducible apply Fits.foldl
    | with_reducible apply FitsOut.ite
    | with_reducible apply FitsOut.next
    | with_reducible apply FitsOut.fault
    | (intro _)
    | with_reducible apply Fits.ite
    | dsimp only
    | split
    | (refine Fits.pair ‹_ = (_, _)› ?_)
    | (refine Fits.pair2 ‹_ = (_, _, _)› ?_)
    | (with_reducible refine Fits.upd_clsMem ?_ ‹_› _ ⟨rfl, rfl, rfl⟩ (fun t => Tbl.wf_foldl_set (fun e : Nat × Nat => _) (fun e => e.2) _ (Tbl.wf_filter t _)))

structure Touches.winWrite (N : Part → Prop) (addr : Nat) : Prop where
  h_clsMem : N .clsMem
  k_CLS_CNT_count : N (.reg (F.CLS_CNT_count 2).key)
  c_evt : Touches.evt N 0xB0
  c_refuse : Touches.refuse N addr
  c_goWrite : Touches.goWrite N addr
  c_badUpdate : Touches.badUpdate N (addr / 2 ^ 24 - 1)

theorem Fits.winWrite (m : Master) (addr : Nat) (value : Nat) (s : State) (h : Fits N s0 s) (tch : Touches.winWrite N addr) :
    Fits N s0 (winWrite m addr value s) := by
  obtain ⟨h_clsMem, k_CLS_CNT_count, c_evt, c_refuse, c_goWrite, c_badUpdate⟩ := tch
  unfold Sys2Proof.Machine.winWrite
  repeat' first
    | with_reducible assumption
    | with_reducible apply k_CLS_CNT_count
    | with_reducible apply Fits.bump
    | with_reducible apply Fits.evt
    | with_reducible apply Fits.refuse
    | with_reducible apply Fits.badUpdate
    | with_reducible apply Fits.goWrite
    | (intro _)
    | with_reducible apply Fits.ite
    | dsimp only
    | split
    | (refine Fits.pair ‹_ = (_, _)› ?_)
    | (refine Fits.pair2 ‹_ = (_, _, _)› ?_)
    | (with_reducible refine Fits.upd_clsMem ?_ ‹_› _ ⟨rfl, rfl, rfl⟩ (fun t => Tbl.wf_set t _ _))

theorem Fits.winRead (addr : Nat) (s : State) (h : Fits N s0 s) (h_clsMem : N .clsMem) :
    Fits N s0 (winRead addr s).2 := by
  unfold Sys2Proof.Machine.winRead
  repeat' first
    | with_reducible assumption
    | (intro _)
    | with_reducible apply Fits.ite
    | dsimp only
    | split
    | (refine Fits.pair ‹_ = (_, _)› ?_)
    | (refine Fits.pair2 ‹_ = (_, _, _)› ?_)
    | (with_reducible refine Fits.upd_clsMem ?_ ‹_› _ ⟨rfl, rfl, rfl⟩ (fun t => Tbl.wf_set t _ _))

structure Touches.execClsWinWrite (N : Part → Prop) (b : Fin 2) (off : BitVec 24) : Prop where
  c_winWrite : Touches.winWrite N ((b.val + 1) * 2 ^ 24 + off.toNat)

theorem FitsOut.execClsWinWrite (m : Master) (b : Fin 2) (off : BitVec 24) (value : Word) (s : State) (h : Fits N s0 s) (tch : Touches.execClsWinWrite N b off) :
    FitsOut N s0 (execClsWinWrite m b off value s) := by
  obtain ⟨c_winWrite⟩ := tch
  unfold Sys2Proof.Machine.execClsWinWrite
  repeat' first
    | with_reducible assumption
    | with_reducible apply Fits.winWrite
    | with_reducible apply FitsOut.ite
    | with_reducible apply FitsOut.next
    | with_reducible apply FitsOut.fault
    | (intro _)
    | with_reducible apply Fits.ite
    | dsimp only
    | split
    | (refine Fits.pair ‹_ = (_, _)› ?_)
    | (refine Fits.pair2 ‹_ = (_, _, _)› ?_)

structure Touches.pipesActive (N : Part → Prop) : Prop where
  k_CLS_STAT_pipes_active : N (.reg F.CLS_STAT_pipes_active.key)

theorem Fits.pipesActive (s : State) (h : Fits N s0 s) (tch : Touches.pipesActive N) :
    Fits N s0 (pipesActive s) := by
  obtain ⟨k_CLS_STAT_pipes_active⟩ := tch
  unfold Sys2Proof.Machine.pipesActive
  repeat' first
    | with_reducible assumption
    | with_reducible apply k_CLS_STAT_pipes_active
    | with_reducible apply Fits.setF
    | (intro _)
    | with_reducible apply Fits.ite
    | dsimp only
    | split
    | (refine Fits.pair ‹_ = (_, _)› ?_)
    | (refine Fits.pair2 ‹_ = (_, _, _)› ?_)

structure Touches.pipeTestStart (N : Part → Prop) (p : Nat) : Prop where
  k_CLS_PIPE_STAT_state : N (.reg (F.CLS_PIPE_STAT_state p).key)
  c_pipesActive : Touches.pipesActive N

theorem Fits.pipeTestStart (p : Nat) (s : State) (h : Fits N s0 s) (tch : Touches.pipeTestStart N p) :
    Fits N s0 (pipeTestStart p s) := by
  obtain ⟨k_CLS_PIPE_STAT_state, c_pipesActive⟩ := tch
  unfold Sys2Proof.Machine.pipeTestStart
  repeat' first
    | with_reducible assumption
    | with_reducible apply k_CLS_PIPE_STAT_state
    | with_reducible apply Fits.setF
    | with_reducible apply Fits.pipesActive
    | (intro _)
    | with_reducible apply Fits.ite
    | dsimp only
    | split
    | (refine Fits.pair ‹_ = (_, _)› ?_)
    | (refine Fits.pair2 ‹_ = (_, _, _)› ?_)

structure Touches.execPipeTestStart (N : Part → Prop) (p : Fin 6) : Prop where
  c_pipeTestStart : Touches.pipeTestStart N p.val

theorem FitsOut.execPipeTestStart (p : Fin 6) (s : State) (h : Fits N s0 s) (tch : Touches.execPipeTestStart N p) :
    FitsOut N s0 (execPipeTestStart p s) := by
  obtain ⟨c_pipeTestStart⟩ := tch
  unfold Sys2Proof.Machine.execPipeTestStart
  repeat' first
    | with_reducible assumption
    | with_reducible apply Fits.pipeTestStart
    | with_reducible apply FitsOut.ite
    | with_reducible apply FitsOut.next
    | with_reducible apply FitsOut.fault
    | (intro _)
    | with_reducible apply Fits.ite
    | dsimp only
    | split
    | (refine Fits.pair ‹_ = (_, _)› ?_)
    | (refine Fits.pair2 ‹_ = (_, _, _)› ?_)

structure Touches.execPipeTestDone (N : Part → Prop) (p : Fin 6) : Prop where
  k_CLS_PIPE_STAT_state : N (.reg (F.CLS_PIPE_STAT_state p.val).key)
  k_CLS_PIPE_STAT_suspect : N (.reg (F.CLS_PIPE_STAT_suspect p.val).key)
  c_evt : Touches.evt N 0xB0
  c_pipesActive : Touches.pipesActive N

theorem FitsOut.execPipeTestDone (p : Fin 6) (ok : Bool) (s : State) (h : Fits N s0 s) (tch : Touches.execPipeTestDone N p) :
    FitsOut N s0 (execPipeTestDone p ok s) := by
  obtain ⟨k_CLS_PIPE_STAT_state, k_CLS_PIPE_STAT_suspect, c_evt, c_pipesActive⟩ := tch
  unfold Sys2Proof.Machine.execPipeTestDone
  repeat' first
    | with_reducible assumption
    | with_reducible apply k_CLS_PIPE_STAT_state
    | with_reducible apply k_CLS_PIPE_STAT_suspect
    | with_reducible apply Fits.setF
    | with_reducible apply Fits.setB
    | with_reducible apply Fits.evt
    | with_reducible apply Fits.pipesActive
    | with_reducible apply FitsOut.ite
    | with_reducible apply FitsOut.next
    | with_reducible apply FitsOut.fault
    | (intro _)
    | with_reducible apply Fits.ite
    | dsimp only
    | split
    | (refine Fits.pair ‹_ = (_, _)› ?_)
    | (refine Fits.pair2 ‹_ = (_, _, _)› ?_)

end Sys2Proof.Machine
end

