-- ==== Sys2Proof/Laws/FitsPackageMemory.lean ====
section
/-! SUPPORT. What the operations of Machine/PackageMemory.lean touch (a structure of parts for each, over those of the operations it calls), and
that each keeps the canonical form. -/
set_option linter.unusedTactic false
set_option linter.unreachableTactic false
namespace Sys2Proof.Machine

variable {N : Part → Prop} {s0 : State}

theorem Fits.modBuf (f : Buf → Buf) (s : State) (h : Fits N s0 s) (hN : N .buf) (hf : ∀ b, (f b).mem = b.mem) :
    Fits N s0 (Machine.modBuf f s) := h.upd_buf hN _ (hf _)

theorem Fits.modBufMem (f : Buf → Buf) (s : State) (h : Fits N s0 s) (hN : N .bufMem)
    (hb : ∀ b, { f b with mem := b.mem } = b) (hf : ∀ b, Tbl.wf 0 b.mem = true → Tbl.wf 0 (f b).mem = true) :
    Fits N s0 (Machine.modBuf f s) := h.upd_bufMem hN _ (hb _) (hf _)

theorem Fits.memPut (a : Nat) (w : Nat) (s : State) (h : Fits N s0 s) (h_bufMem : N .bufMem) :
    Fits N s0 (memPut a w s) := by
  exact Fits.modBufMem _ _ h h_bufMem (fun _ => rfl) fun _ t => Tbl.wf_set t a w

structure Touches.bufCount (N : Part → Prop) (c : Nat) : Prop where
  k_BUF_CNT_count : N (.reg (F.BUF_CNT_count c).key)

theorem Fits.bufCount (c : Nat) (s : State) (h : Fits N s0 s) (tch : Touches.bufCount N c) :
    Fits N s0 (bufCount c s) := by
  obtain ⟨k_BUF_CNT_count⟩ := tch
  unfold Sys2Proof.Machine.bufCount
  repeat' first
    | with_reducible assumption
    | with_reducible apply k_BUF_CNT_count
    | with_reducible apply Fits.bump
    | (intro _)
    | with_reducible apply Fits.ite
    | dsimp only
    | split
    | (refine Fits.pair ‹_ = (_, _)› ?_)
    | (refine Fits.pair2 ‹_ = (_, _, _)› ?_)

structure Touches.bufRecord (N : Part → Prop) : Prop where
  h_buf : N .buf
  h_ev : N .ev
  k_BUF_LOG_CTRL_ovf : N (.reg F.BUF_LOG_CTRL_ovf.key)
  k_BUF_LOG_CTRL_queued : N (.reg F.BUF_LOG_CTRL_queued.key)
  c_evt : Touches.evt N 0xC2

theorem Fits.bufRecord (type : Nat) (source : Nat) (addr : Nat) (symbol : Nat) (s : State) (h : Fits N s0 s) (tch : Touches.bufRecord N) :
    Fits N s0 (bufRecord type source addr symbol s) := by
  obtain ⟨h_buf, h_ev, k_BUF_LOG_CTRL_ovf, k_BUF_LOG_CTRL_queued, c_evt⟩ := tch
  unfold Sys2Proof.Machine.bufRecord
  repeat' first
    | with_reducible assumption
    | with_reducible apply k_BUF_LOG_CTRL_ovf
    | with_reducible apply k_BUF_LOG_CTRL_queued
    | with_reducible apply Fits.setF
    | with_reducible apply Fits.bump
    | with_reducible apply Fits.logPlain
    | with_reducible apply Fits.evt
    | (with_reducible refine Fits.modBuf _ _ ?_ ‹_› fun _ => rfl)
    | (intro _)
    | with_reducible apply Fits.ite
    | dsimp only
    | split
    | (refine Fits.pair ‹_ = (_, _)› ?_)
    | (refine Fits.pair2 ‹_ = (_, _, _)› ?_)

structure Touches.bufRecordSlow (N : Part → Prop) : Prop where
  h_buf : N .buf
  c_bufRecord : Touches.bufRecord N

theorem Fits.bufRecordSlow (type : Nat) (source : Nat) (addr : Nat) (s : State) (h : Fits N s0 s) (tch : Touches.bufRecordSlow N) :
    Fits N s0 (bufRecordSlow type source addr s) := by
  obtain ⟨h_buf, c_bufRecord⟩ := tch
  unfold Sys2Proof.Machine.bufRecordSlow
  repeat' first
    | with_reducible assumption
    | (with_reducible refine Fits.modBuf _ _ ?_ ‹_› fun _ => rfl)
    | with_reducible apply Fits.bufRecord
    | (intro _)
    | with_reducible apply Fits.ite
    | dsimp only
    | split
    | (refine Fits.pair ‹_ = (_, _)› ?_)
    | (refine Fits.pair2 ‹_ = (_, _, _)› ?_)

structure Touches.poolReport (N : Part → Prop) : Prop where
  k_BUF_POOL_free : N (.reg F.BUF_POOL_free.key)
  k_BUF_POOL_in_use : N (.reg F.BUF_POOL_in_use.key)
  c_level : Touches.level N 0xC0

theorem Fits.poolReport (s : State) (h : Fits N s0 s) (tch : Touches.poolReport N) :
    Fits N s0 (poolReport s) := by
  obtain ⟨k_BUF_POOL_free, k_BUF_POOL_in_use, c_level⟩ := tch
  unfold Sys2Proof.Machine.poolReport
  repeat' first
    | with_reducible assumption
    | with_reducible apply k_BUF_POOL_free
    | with_reducible apply k_BUF_POOL_in_use
    | with_reducible apply Fits.setF
    | with_reducible apply Fits.level
    | (intro _)
    | with_reducible apply Fits.ite
    | dsimp only
    | split
    | (refine Fits.pair ‹_ = (_, _)› ?_)
    | (refine Fits.pair2 ‹_ = (_, _, _)› ?_)

structure Touches.remapSet (N : Part → Prop) : Prop where
  h_buf : N .buf
  c_poolReport : Touches.poolReport N

theorem Fits.remapSet (i : Nat) (v : Nat × Nat) (s : State) (h : Fits N s0 s) (tch : Touches.remapSet N) :
    Fits N s0 (remapSet i v s) := by
  obtain ⟨h_buf, c_poolReport⟩ := tch
  unfold Sys2Proof.Machine.remapSet
  repeat' first
    | with_reducible assumption
    | (with_reducible refine Fits.modBuf _ _ ?_ ‹_› fun _ => rfl)
    | with_reducible apply Fits.poolReport
    | (intro _)
    | with_reducible apply Fits.ite
    | dsimp only
    | split
    | (refine Fits.pair ‹_ = (_, _)› ?_)
    | (refine Fits.pair2 ‹_ = (_, _, _)› ?_)

structure Touches.becomeHard (N : Part → Prop) : Prop where
  h_buf : N .buf
  c_evt : Touches.evt N 0xC1
  c_bufCount : Touches.bufCount N 7
  c_bufCount_1 : Touches.bufCount N 8
  c_bufRecord : Touches.bufRecord N
  c_remapSet : Touches.remapSet N

theorem Fits.becomeHard (a : Nat) (source : Nat) (symbol : Nat) (s : State) (h : Fits N s0 s) (tch : Touches.becomeHard N) :
    Fits N s0 (becomeHard a source symbol s) := by
  obtain ⟨h_buf, c_evt, c_bufCount, c_bufCount_1, c_bufRecord, c_remapSet⟩ := tch
  unfold Sys2Proof.Machine.becomeHard
  repeat' first
    | with_reducible assumption
    | with_reducible apply Fits.evt
    | (with_reducible refine Fits.modBuf _ _ ?_ ‹_› fun _ => rfl)
    | with_reducible apply Fits.bufCount
    | with_reducible apply Fits.bufRecord
    | with_reducible apply Fits.remapSet
    | (intro _)
    | with_reducible apply Fits.ite
    | dsimp only
    | split
    | (refine Fits.pair ‹_ = (_, _)› ?_)
    | (refine Fits.pair2 ‹_ = (_, _, _)› ?_)

structure Touches.ceTrack (N : Part → Prop) : Prop where
  h_buf : N .buf
  c_bufCount : Touches.bufCount N 8
  c_bufRecord : Touches.bufRecord N
  c_becomeHard : Touches.becomeHard N

theorem Fits.ceTrack (a : Nat) (source : Nat) (symbol : Nat) (s : State) (h : Fits N s0 s) (tch : Touches.ceTrack N) :
    Fits N s0 (ceTrack a source symbol s) := by
  obtain ⟨h_buf, c_bufCount, c_bufRecord, c_becomeHard⟩ := tch
  unfold Sys2Proof.Machine.ceTrack
  repeat' first
    | with_reducible assumption
    | (with_reducible refine Fits.modBuf _ _ ?_ ‹_› fun _ => rfl)
    | with_reducible apply Fits.bufCount
    | with_reducible apply Fits.bufRecord
    | with_reducible apply Fits.becomeHard
    | (intro _)
    | with_reducible apply Fits.ite
    | dsimp only
    | split
    | (refine Fits.pair ‹_ = (_, _)› ?_)
    | (refine Fits.pair2 ‹_ = (_, _, _)› ?_)

structure Touches.memTreat (N : Part → Prop) (a : Nat) : Prop where
  h_bufMem : N .bufMem
  k_BUF_PC_CE_count : N (.reg (F.BUF_PC_CE_count (pcOf a)).key)
  k_BUF_PC_UE_count : N (.reg (F.BUF_PC_UE_count (pcOf a)).key)
  c_evt : Touches.evt N 0xC1
  c_bufCount : Touches.bufCount N 0
  c_bufCount_1 : Touches.bufCount N 1
  c_bufCount_2 : Touches.bufCount N 2
  c_bufCount_3 : Touches.bufCount N 3
  c_bufRecordSlow : Touches.bufRecordSlow N
  c_ceTrack : Touches.ceTrack N

theorem Fits.memTreat (a : Nat) (source : Nat) (s : State) (h : Fits N s0 s) (tch : Touches.memTreat N a) :
    Fits N s0 (memTreat a source s).2.2 := by
  obtain ⟨h_bufMem, k_BUF_PC_CE_count, k_BUF_PC_UE_count, c_evt, c_bufCount, c_bufCount_1, c_bufCount_2, c_bufCount_3, c_bufRecordSlow, c_ceTrack⟩ := tch
  unfold Sys2Proof.Machine.memTreat
  repeat' first
    | with_reducible assumption
    | with_reducible apply k_BUF_PC_CE_count
    | with_reducible apply k_BUF_PC_UE_count
    | with_reducible apply Fits.bump
    | with_reducible apply Fits.evt
    | with_reducible apply Fits.memPut
    | with_reducible apply Fits.bufCount
    | with_reducible apply Fits.bufRecordSlow
    | with_reducible apply Fits.ceTrack
    | (intro _)
    | with_reducible apply Fits.ite
    | dsimp only
    | split
    | (refine Fits.pair ‹_ = (_, _)› ?_)
    | (refine Fits.pair2 ‹_ = (_, _, _)› ?_)

structure Touches.physWrite (N : Part → Prop) : Prop where
  h_bufMem : N .bufMem
  c_bufCount : Touches.bufCount N 4
  c_bufCount_1 : Touches.bufCount N 5
  c_bufCount_2 : Touches.bufCount N 6
  c_bufRecord : Touches.bufRecord N

theorem Fits.physWrite (a : Nat) (mask : Nat) (data : Nat) (source : Nat) (s : State) (h : Fits N s0 s) (tch : Touches.physWrite N) :
    Fits N s0 (physWrite a mask data source s) := by
  obtain ⟨h_bufMem, c_bufCount, c_bufCount_1, c_bufCount_2, c_bufRecord⟩ := tch
  unfold Sys2Proof.Machine.physWrite
  repeat' first
    | with_reducible assumption
    | with_reducible apply Fits.memPut
    | with_reducible apply Fits.bufCount
    | with_reducible apply Fits.bufRecord
    | (intro _)
    | with_reducible apply Fits.ite
    | dsimp only
    | split
    | (refine Fits.pair ‹_ = (_, _)› ?_)
    | (refine Fits.pair2 ‹_ = (_, _, _)› ?_)

structure Touches.logicalWrite (N : Part → Prop) : Prop where
  c_physWrite : Touches.physWrite N

theorem Fits.logicalWrite (n : Nat) (mask : Nat) (data : Nat) (source : Nat) (s : State) (h : Fits N s0 s) (tch : Touches.logicalWrite N) :
    Fits N s0 (logicalWrite n mask data source s) := by
  obtain ⟨c_physWrite⟩ := tch
  unfold Sys2Proof.Machine.logicalWrite
  repeat' first
    | with_reducible assumption
    | with_reducible apply Fits.physWrite
    | (intro _)
    | with_reducible apply Fits.ite
    | dsimp only
    | split
    | (refine Fits.pair ‹_ = (_, _)› ?_)
    | (refine Fits.pair2 ‹_ = (_, _, _)› ?_)

theorem Fits.upsetWord (a : Nat) (ups : List (Fin 36 × Byte)) (s : State) (h : Fits N s0 s) (h_bufMem : N .bufMem) :
    Fits N s0 (upsetWord a ups s) := by
  unfold Sys2Proof.Machine.upsetWord
  repeat' first
    | with_reducible assumption
    | with_reducible apply Fits.memPut
    | with_reducible apply Fits.foldlPair
    | with_reducible apply Fits.foldl
    | (intro _)
    | with_reducible apply Fits.ite
    | dsimp only
    | split
    | (refine Fits.pair ‹_ = (_, _)› ?_)
    | (refine Fits.pair2 ‹_ = (_, _, _)› ?_)

theorem Fits.deskewBad (p : Nat) (s : State) (h : Fits N s0 s) (h_grp : N .grp) :
    Fits N s0 (deskewBad p s) := by
  unfold Sys2Proof.Machine.deskewBad
  repeat' first
    | with_reducible assumption
    | with_reducible apply Fits.modGrp
    | (intro _)
    | with_reducible apply Fits.ite
    | dsimp only
    | split
    | (refine Fits.pair ‹_ = (_, _)› ?_)
    | (refine Fits.pair2 ‹_ = (_, _, _)› ?_)

structure Touches.execBufMemRead (N : Part → Prop) : Prop where
  h_bufMem : N .bufMem
  h_ev : N .ev
  h_grp : N .grp
  c_memTreat : ∀ (a0 : Nat), Touches.memTreat N a0

theorem FitsOut.execBufMemRead (n : Fin 528482304) (source : Fin 6) (ups : List (Fin 36 × Byte)) (s : State) (h : Fits N s0 s) (tch : Touches.execBufMemRead N) :
    FitsOut N s0 (execBufMemRead n source ups s) := by
  obtain ⟨h_bufMem, h_ev, h_grp, c_memTreat⟩ := tch
  unfold Sys2Proof.Machine.execBufMemRead
  repeat' first
    | with_reducible assumption
    | with_reducible exact c_memTreat _
    | with_reducible apply Fits.datapath
    | with_reducible apply Fits.memTreat
    | with_reducible apply Fits.upsetWord
    | with_reducible apply Fits.deskewBad
    | with_reducible apply FitsOut.ite
    | with_reducible apply FitsOut.next
    | with_reducible apply FitsOut.fault
    | (intro _)
    | with_reducible apply Fits.ite
    | dsimp only
    | split
    | (refine Fits.pair ‹_ = (_, _)› ?_)
    | (refine Fits.pair2 ‹_ = (_, _, _)› ?_)

structure Touches.execBufMemWrite (N : Part → Prop) : Prop where
  h_ev : N .ev
  c_logicalWrite : Touches.logicalWrite N

theorem FitsOut.execBufMemWrite (n : Fin 528482304) (mask : Word) (data : BitVec 256) (source : Fin 6) (s : State) (h : Fits N s0 s) (tch : Touches.execBufMemWrite N) :
    FitsOut N s0 (execBufMemWrite n mask data source s) := by
  obtain ⟨h_ev, c_logicalWrite⟩ := tch
  unfold Sys2Proof.Machine.execBufMemWrite
  repeat' first
    | with_reducible assumption
    | with_reducible apply Fits.datapath
    | with_reducible apply Fits.logicalWrite
    | with_reducible apply FitsOut.ite
    | with_reducible apply FitsOut.next
    | with_reducible apply FitsOut.fault
    | (intro _)
    | with_reducible apply Fits.ite
    | dsimp only
    | split
    | (refine Fits.pair ‹_ = (_, _)› ?_)
    | (refine Fits.pair2 ‹_ = (_, _, _)› ?_)

structure Touches.execScrubRead (N : Part → Prop) : Prop where
  h_buf : N .buf
  h_bufMem : N .bufMem
  k_BUF_SCRUB_PASSES_passes : N (.reg F.BUF_SCRUB_PASSES_passes.key)
  k_BUF_SCRUB_STAT_addr : N (.reg F.BUF_SCRUB_STAT_addr.key)
  k_BUF_SCRUB_STAT_late : N (.reg F.BUF_SCRUB_STAT_late.key)
  c_evt : Touches.evt N 0xC0
  c_evt_1 : Touches.evt N 0xC4
  c_memTreat : ∀ (a0 : Nat), Touches.memTreat N a0

theorem FitsOut.execScrubRead (ups : List (Fin 36 × Byte)) (late : Bool) (s : State) (h : Fits N s0 s) (tch : Touches.execScrubRead N) :
    FitsOut N s0 (execScrubRead ups late s) := by
  obtain ⟨h_buf, h_bufMem, k_BUF_SCRUB_PASSES_passes, k_BUF_SCRUB_STAT_addr, k_BUF_SCRUB_STAT_late, c_evt, c_evt_1, c_memTreat⟩ := tch
  unfold Sys2Proof.Machine.execScrubRead
  repeat' first
    | with_reducible assumption
    | with_reducible apply k_BUF_SCRUB_PASSES_passes
    | with_reducible apply k_BUF_SCRUB_STAT_addr
    | with_reducible apply k_BUF_SCRUB_STAT_late
    | with_reducible exact c_memTreat _
    | with_reducible apply Fits.setF
    | with_reducible apply Fits.setB
    | with_reducible apply Fits.incWrap
    | with_reducible apply Fits.evt
    | (with_reducible refine Fits.modBuf _ _ ?_ ‹_› fun _ => rfl)
    | with_reducible apply Fits.memTreat
    | with_reducible apply Fits.upsetWord
    | with_reducible apply FitsOut.ite
    | with_reducible apply FitsOut.next
    | with_reducible apply FitsOut.fault
    | (intro _)
    | with_reducible apply Fits.ite
    | dsimp only
    | split
    | (refine Fits.pair ‹_ = (_, _)› ?_)
    | (refine Fits.pair2 ‹_ = (_, _, _)› ?_)

theorem Fits.hardClr (s : State) (h : Fits N s0 s) (h_buf : N .buf) :
    Fits N s0 (hardClr s) := by
  unfold Sys2Proof.Machine.hardClr
  repeat' first
    | with_reducible assumption
    | (with_reducible refine Fits.modBuf _ _ ?_ ‹_› fun _ => rfl)
    | (intro _)
    | with_reducible apply Fits.ite
    | dsimp only
    | split
    | (refine Fits.pair ‹_ = (_, _)› ?_)
    | (refine Fits.pair2 ‹_ = (_, _, _)› ?_)

structure Touches.execHardClr (N : Part → Prop) : Prop where
  h_buf : N .buf
  c_goWrite : Touches.goWrite N 0xC1040

theorem FitsOut.execHardClr (m : Master) (s : State) (h : Fits N s0 s) (tch : Touches.execHardClr N) :
    FitsOut N s0 (execHardClr m s) := by
  obtain ⟨h_buf, c_goWrite⟩ := tch
  unfold Sys2Proof.Machine.execHardClr
  repeat' first
    | with_reducible assumption
    | with_reducible apply Fits.hardClr
    | with_reducible apply Fits.goWrite
    | with_reducible apply FitsOut.ite
    | with_reducible apply FitsOut.next
    | with_reducible apply FitsOut.fault
    | (intro _)
    | with_reducible apply Fits.ite
    | dsimp only
    | split
    | (refine Fits.pair ‹_ = (_, _)› ?_)
    | (refine Fits.pair2 ‹_ = (_, _, _)› ?_)

structure Touches.injGo (N : Part → Prop) : Prop where
  h_buf : N .buf
  k_BUF_INJ_CTRL_busy : N (.reg F.BUF_INJ_CTRL_busy.key)
  c_err : Touches.err N 0xC1

theorem Fits.injGo (s : State) (h : Fits N s0 s) (tch : Touches.injGo N) :
    Fits N s0 (injGo s) := by
  obtain ⟨h_buf, k_BUF_INJ_CTRL_busy, c_err⟩ := tch
  unfold Sys2Proof.Machine.injGo
  repeat' first
    | with_reducible assumption
    | with_reducible apply k_BUF_INJ_CTRL_busy
    | with_reducible apply Fits.setB
    | with_reducible apply Fits.err
    | (with_reducible refine Fits.modBuf _ _ ?_ ‹_› fun _ => rfl)
    | (intro _)
    | with_reducible apply Fits.ite
    | dsimp only
    | split
    | (refine Fits.pair ‹_ = (_, _)› ?_)
    | (refine Fits.pair2 ‹_ = (_, _, _)› ?_)

structure Touches.execInjGo (N : Part → Prop) : Prop where
  c_goWrite : Touches.goWrite N 0xC10C4
  c_injGo : Touches.injGo N

theorem FitsOut.execInjGo (m : Master) (s : State) (h : Fits N s0 s) (tch : Touches.execInjGo N) :
    FitsOut N s0 (execInjGo m s) := by
  obtain ⟨c_goWrite, c_injGo⟩ := tch
  unfold Sys2Proof.Machine.execInjGo
  repeat' first
    | with_reducible assumption
    | with_reducible apply Fits.injGo
    | with_reducible apply Fits.goWrite
    | with_reducible apply FitsOut.ite
    | with_reducible apply FitsOut.next
    | with_reducible apply FitsOut.fault
    | (intro _)
    | with_reducible apply Fits.ite
    | dsimp only
    | split
    | (refine Fits.pair ‹_ = (_, _)› ?_)
    | (refine Fits.pair2 ‹_ = (_, _, _)› ?_)

structure Touches.execInjDone (N : Part → Prop) : Prop where
  h_buf : N .buf
  h_bufMem : N .bufMem
  k_BUF_INJ_CTRL_busy : N (.reg F.BUF_INJ_CTRL_busy.key)
  c_evt : Touches.evt N 0xC1
  c_memTreat : ∀ (a0 : Nat), Touches.memTreat N a0

theorem FitsOut.execInjDone (s : State) (h : Fits N s0 s) (tch : Touches.execInjDone N) :
    FitsOut N s0 (execInjDone s) := by
  obtain ⟨h_buf, h_bufMem, k_BUF_INJ_CTRL_busy, c_evt, c_memTreat⟩ := tch
  unfold Sys2Proof.Machine.execInjDone
  repeat' first
    | with_reducible assumption
    | with_reducible apply k_BUF_INJ_CTRL_busy
    | with_reducible exact c_memTreat _
    | with_reducible apply Fits.setB
    | with_reducible apply Fits.evt
    | (with_reducible refine Fits.modBuf _ _ ?_ ‹_› fun _ => rfl)
    | with_reducible apply Fits.memPut
    | with_reducible apply Fits.memTreat
    | with_reducible apply FitsOut.ite
    | with_reducible apply FitsOut.next
    | with_reducible apply FitsOut.fault
    | (intro _)
    | with_reducible apply Fits.ite
    | dsimp only
    | split
    | (refine Fits.pair ‹_ = (_, _)› ?_)
    | (refine Fits.pair2 ‹_ = (_, _, _)› ?_)

structure Touches.bufLogPop (N : Part → Prop) : Prop where
  h_buf : N .buf
  k_BUF_LOG_CTRL_queued : N (.reg F.BUF_LOG_CTRL_queued.key)
  k_BUF_LOG_bits : N (.reg (F.BUF_LOG_bits 0).key)
  k_BUF_LOG_bits_1 : N (.reg (F.BUF_LOG_bits 1).key)
  k_BUF_LOG_bits_2 : N (.reg (F.BUF_LOG_bits 2).key)
  k_BUF_LOG_bits_3 : N (.reg (F.BUF_LOG_bits 3).key)

theorem Fits.bufLogPop (s : State) (h : Fits N s0 s) (tch : Touches.bufLogPop N) :
    Fits N s0 (bufLogPop s) := by
  obtain ⟨h_buf, k_BUF_LOG_CTRL_queued, k_BUF_LOG_bits, k_BUF_LOG_bits_1, k_BUF_LOG_bits_2, k_BUF_LOG_bits_3⟩ := tch
  unfold Sys2Proof.Machine.bufLogPop
  repeat' first
    | with_reducible assumption
    | with_reducible apply k_BUF_LOG_CTRL_queued
    | with_reducible apply k_BUF_LOG_bits
    | with_reducible apply k_BUF_LOG_bits_1
    | with_reducible apply k_BUF_LOG_bits_2
    | with_reducible apply k_BUF_LOG_bits_3
    | with_reducible apply Fits.setF
    | (with_reducible refine Fits.modBuf _ _ ?_ ‹_› fun _ => rfl)
    | (intro _)
    | with_reducible apply Fits.ite
    | dsimp only
    | split
    | (refine Fits.pair ‹_ = (_, _)› ?_)
    | (refine Fits.pair2 ‹_ = (_, _, _)› ?_)

structure Touches.execBufLogPop (N : Part → Prop) : Prop where
  c_goWrite : Touches.goWrite N 0xC2040
  c_bufLogPop : Touches.bufLogPop N

theorem FitsOut.execBufLogPop (m : Master) (s : State) (h : Fits N s0 s) (tch : Touches.execBufLogPop N) :
    FitsOut N s0 (execBufLogPop m s) := by
  obtain ⟨c_goWrite, c_bufLogPop⟩ := tch
  unfold Sys2Proof.Machine.execBufLogPop
  repeat' first
    | with_reducible assumption
    | with_reducible apply Fits.bufLogPop
    | with_reducible apply Fits.goWrite
    | with_reducible apply FitsOut.ite
    | with_reducible apply FitsOut.next
    | with_reducible apply FitsOut.fault
    | (intro _)
    | with_reducible apply Fits.ite
    | dsimp only
    | split
    | (refine Fits.pair ‹_ = (_, _)› ?_)
    | (refine Fits.pair2 ‹_ = (_, _, _)› ?_)

structure Touches.retResult (N : Part → Prop) : Prop where
  k_BUF_RETIRE_STAT_page : N (.reg F.BUF_RETIRE_STAT_page.key)
  k_BUF_RETIRE_STAT_result : N (.reg F.BUF_RETIRE_STAT_result.key)

theorem Fits.retResult (r : Nat) (page : Nat) (s : State) (h : Fits N s0 s) (tch : Touches.retResult N) :
    Fits N s0 (retResult r page s) := by
  obtain ⟨k_BUF_RETIRE_STAT_page, k_BUF_RETIRE_STAT_result⟩ := tch
  unfold Sys2Proof.Machine.retResult
  repeat' first
    | with_reducible assumption
    | with_reducible apply k_BUF_RETIRE_STAT_page
    | with_reducible apply k_BUF_RETIRE_STAT_result
    | with_reducible apply Fits.setF
    | (intro _)
    | with_reducible apply Fits.ite
    | dsimp only
    | split
    | (refine Fits.pair ‹_ = (_, _)› ?_)
    | (refine Fits.pair2 ‹_ = (_, _, _)› ?_)

structure Touches.retireGo (N : Part → Prop) : Prop where
  h_buf : N .buf
  k_BUF_RETIRE_STAT_state : N (.reg F.BUF_RETIRE_STAT_state.key)
  c_remapSet : Touches.remapSet N
  c_retResult : Touches.retResult N

theorem Fits.retireGo (s : State) (h : Fits N s0 s) (tch : Touches.retireGo N) :
    Fits N s0 (retireGo s) := by
  obtain ⟨h_buf, k_BUF_RETIRE_STAT_state, c_remapSet, c_retResult⟩ := tch
  unfold Sys2Proof.Machine.retireGo
  repeat' first
    | with_reducible assumption
    | with_reducible apply k_BUF_RETIRE_STAT_state
    | with_reducible apply Fits.setF
    | (with_reducible refine Fits.modBuf _ _ ?_ ‹_› fun _ => rfl)
    | with_reducible apply Fits.remapSet
    | with_reducible apply Fits.retResult
    | (intro _)
    | with_reducible apply Fits.ite
    | dsimp only
    | split
    | (refine Fits.pair ‹_ = (_, _)› ?_)
    | (refine Fits.pair2 ‹_ = (_, _, _)› ?_)

structure Touches.execRetireGo (N : Part → Prop) : Prop where
  c_goWrite : Touches.goWrite N 0xC3044
  c_retireGo : Touches.retireGo N

theorem FitsOut.execRetireGo (m : Master) (s : State) (h : Fits N s0 s) (tch : Touches.execRetireGo N) :
    FitsOut N s0 (execRetireGo m s) := by
  obtain ⟨c_goWrite, c_retireGo⟩ := tch
  unfold Sys2Proof.Machine.execRetireGo
  repeat' first
    | with_reducible assumption
    | with_reducible apply Fits.retireGo
    | with_reducible apply Fits.goWrite
    | with_reducible apply FitsOut.ite
    | with_reducible apply FitsOut.next
    | with_reducible apply FitsOut.fault
    | (intro _)
    | with_reducible apply Fits.ite
    | dsimp only
    | split
    | (refine Fits.pair ‹_ = (_, _)› ?_)
    | (refine Fits.pair2 ‹_ = (_, _, _)› ?_)

structure Touches.execRestoreGo (N : Part → Prop) : Prop where
  c_goWrite : Touches.goWrite N 0xC3044
  c_retireGo : Touches.retireGo N

theorem FitsOut.execRestoreGo (m : Master) (s : State) (h : Fits N s0 s) (tch : Touches.execRestoreGo N) :
    FitsOut N s0 (execRestoreGo m s) := by
  obtain ⟨c_goWrite, c_retireGo⟩ := tch
  unfold Sys2Proof.Machine.execRestoreGo
  repeat' first
    | with_reducible assumption
    | with_reducible apply Fits.retireGo
    | with_reducible apply Fits.goWrite
    | with_reducible apply FitsOut.ite
    | with_reducible apply FitsOut.next
    | with_reducible apply FitsOut.fault
    | (intro _)
    | with_reducible apply Fits.ite
    | dsimp only
    | split
    | (refine Fits.pair ‹_ = (_, _)› ?_)
    | (refine Fits.pair2 ‹_ = (_, _, _)› ?_)

structure Touches.execMarchTestDone (N : Part → Prop) : Prop where
  h_buf : N .buf
  k_BUF_RETIRE_STAT_result : N (.reg F.BUF_RETIRE_STAT_result.key)
  k_BUF_RETIRE_STAT_state : N (.reg F.BUF_RETIRE_STAT_state.key)
  c_evt : Touches.evt N 0xC3

theorem FitsOut.execMarchTestDone (ok : Bool) (s : State) (h : Fits N s0 s) (tch : Touches.execMarchTestDone N) :
    FitsOut N s0 (execMarchTestDone ok s) := by
  obtain ⟨h_buf, k_BUF_RETIRE_STAT_result, k_BUF_RETIRE_STAT_state, c_evt⟩ := tch
  unfold Sys2Proof.Machine.execMarchTestDone
  repeat' first
    | with_reducible assumption
    | with_reducible apply k_BUF_RETIRE_STAT_result
    | with_reducible apply k_BUF_RETIRE_STAT_state
    | with_reducible apply Fits.setF
    | with_reducible apply Fits.evt
    | (with_reducible refine Fits.modBuf _ _ ?_ ‹_› fun _ => rfl)
    | with_reducible apply FitsOut.ite
    | with_reducible apply FitsOut.next
    | with_reducible apply FitsOut.fault
    | (intro _)
    | with_reducible apply Fits.ite
    | dsimp only
    | split
    | (refine Fits.pair ‹_ = (_, _)› ?_)
    | (refine Fits.pair2 ‹_ = (_, _, _)› ?_)

structure Touches.copyWord (N : Part → Prop) (src : Nat) : Prop where
  h_bufMem : N .bufMem
  c_memTreat : Touches.memTreat N src

theorem Fits.copyWord (src : Nat) (dst : Nat) (s : State) (h : Fits N s0 s) (tch : Touches.copyWord N src) :
    Fits N s0 (copyWord src dst s) := by
  obtain ⟨h_bufMem, c_memTreat⟩ := tch
  unfold Sys2Proof.Machine.copyWord
  repeat' first
    | with_reducible assumption
    | with_reducible apply Fits.memPut
    | with_reducible apply Fits.memTreat
    | (intro _)
    | with_reducible apply Fits.ite
    | dsimp only
    | split
    | (refine Fits.pair ‹_ = (_, _)› ?_)
    | (refine Fits.pair2 ‹_ = (_, _, _)› ?_)

structure Touches.execRetireCopyDone (N : Part → Prop) : Prop where
  h_bufMem : N .bufMem
  k_BUF_RETIRE_STAT_state : N (.reg F.BUF_RETIRE_STAT_state.key)
  c_copyWord : ∀ (a0 : Nat), Touches.copyWord N a0

theorem FitsOut.execRetireCopyDone (s : State) (h : Fits N s0 s) (tch : Touches.execRetireCopyDone N) :
    FitsOut N s0 (execRetireCopyDone s) := by
  obtain ⟨h_bufMem, k_BUF_RETIRE_STAT_state, c_copyWord⟩ := tch
  unfold Sys2Proof.Machine.execRetireCopyDone
  repeat' first
    | with_reducible assumption
    | with_reducible apply k_BUF_RETIRE_STAT_state
    | with_reducible exact c_copyWord _
    | with_reducible apply Fits.setF
    | with_reducible apply Fits.copyWord
    | with_reducible apply Fits.forEach
    | (with_reducible refine Fits.modBufMem _ _ ?_ ‹_› (fun _ => rfl) fun _ t => Tbl.wf_filter t (fun e => _))
    | with_reducible apply FitsOut.ite
    | with_reducible apply FitsOut.next
    | with_reducible apply FitsOut.fault
    | (intro _)
    | with_reducible apply Fits.ite
    | dsimp only
    | split
    | (refine Fits.pair ‹_ = (_, _)› ?_)
    | (refine Fits.pair2 ‹_ = (_, _, _)› ?_)

structure Touches.execRetireSwitch (N : Part → Prop) : Prop where
  h_buf : N .buf
  k_BUF_RETIRE_STAT_result : N (.reg F.BUF_RETIRE_STAT_result.key)
  k_BUF_RETIRE_STAT_state : N (.reg F.BUF_RETIRE_STAT_state.key)
  c_evt : Touches.evt N 0xC3
  c_bufRecord : Touches.bufRecord N
  c_remapSet : Touches.remapSet N

theorem FitsOut.execRetireSwitch (s : State) (h : Fits N s0 s) (tch : Touches.execRetireSwitch N) :
    FitsOut N s0 (execRetireSwitch s) := by
  obtain ⟨h_buf, k_BUF_RETIRE_STAT_result, k_BUF_RETIRE_STAT_state, c_evt, c_bufRecord, c_remapSet⟩ := tch
  unfold Sys2Proof.Machine.execRetireSwitch
  repeat' first
    | with_reducible assumption
    | with_reducible apply k_BUF_RETIRE_STAT_result
    | with_reducible apply k_BUF_RETIRE_STAT_state
    | with_reducible apply Fits.setF
    | with_reducible apply Fits.evt
    | (with_reducible refine Fits.modBuf _ _ ?_ ‹_› fun _ => rfl)
    | with_reducible apply Fits.bufRecord
    | with_reducible apply Fits.remapSet
    | with_reducible apply FitsOut.ite
    | with_reducible apply FitsOut.next
    | with_reducible apply FitsOut.fault
    | (intro _)
    | with_reducible apply Fits.ite
    | dsimp only
    | split
    | (refine Fits.pair ‹_ = (_, _)› ?_)
    | (refine Fits.pair2 ‹_ = (_, _, _)› ?_)

structure Touches.rowResult (N : Part → Prop) : Prop where
  k_BUF_ROWREP_STAT_result : N (.reg F.BUF_ROWREP_STAT_result.key)

theorem Fits.rowResult (r : Nat) (s : State) (h : Fits N s0 s) (tch : Touches.rowResult N) :
    Fits N s0 (rowResult r s) := by
  obtain ⟨k_BUF_ROWREP_STAT_result⟩ := tch
  unfold Sys2Proof.Machine.rowResult
  repeat' first
    | with_reducible assumption
    | with_reducible apply k_BUF_ROWREP_STAT_result
    | with_reducible apply Fits.setF
    | (intro _)
    | with_reducible apply Fits.ite
    | dsimp only
    | split
    | (refine Fits.pair ‹_ = (_, _)› ?_)
    | (refine Fits.pair2 ‹_ = (_, _, _)› ?_)

structure Touches.rowReport (N : Part → Prop) : Prop where
  k_BUF_ROWREP_STAT_bank_spares : N (.reg F.BUF_ROWREP_STAT_bank_spares.key)
  k_BUF_ROWREP_STAT_device_spares : N (.reg F.BUF_ROWREP_STAT_device_spares.key)

theorem Fits.rowReport (pc : Nat) (bank : Nat) (s : State) (h : Fits N s0 s) (tch : Touches.rowReport N) :
    Fits N s0 (rowReport pc bank s) := by
  obtain ⟨k_BUF_ROWREP_STAT_bank_spares, k_BUF_ROWREP_STAT_device_spares⟩ := tch
  unfold Sys2Proof.Machine.rowReport
  repeat' first
    | with_reducible assumption
    | with_reducible apply k_BUF_ROWREP_STAT_bank_spares
    | with_reducible apply k_BUF_ROWREP_STAT_device_spares
    | with_reducible apply Fits.setF
    | with_reducible apply Fits.foldlPair
    | with_reducible apply Fits.foldl
    | (intro _)
    | with_reducible apply Fits.ite
    | dsimp only
    | split
    | (refine Fits.pair ‹_ = (_, _)› ?_)
    | (refine Fits.pair2 ‹_ = (_, _, _)› ?_)

structure Touches.rowrepGo (N : Part → Prop) : Prop where
  h_buf : N .buf
  k_BUF_ROWREP_STAT_state : N (.reg F.BUF_ROWREP_STAT_state.key)
  c_rowResult : Touches.rowResult N
  c_rowReport : Touches.rowReport N

theorem Fits.rowrepGo (s : State) (h : Fits N s0 s) (tch : Touches.rowrepGo N) :
    Fits N s0 (rowrepGo s) := by
  obtain ⟨h_buf, k_BUF_ROWREP_STAT_state, c_rowResult, c_rowReport⟩ := tch
  unfold Sys2Proof.Machine.rowrepGo
  repeat' first
    | with_reducible assumption
    | with_reducible apply k_BUF_ROWREP_STAT_state
    | with_reducible apply Fits.setF
    | (with_reducible refine Fits.modBuf _ _ ?_ ‹_› fun _ => rfl)
    | with_reducible apply Fits.rowResult
    | with_reducible apply Fits.rowReport
    | (intro _)
    | with_reducible apply Fits.ite
    | dsimp only
    | split
    | (refine Fits.pair ‹_ = (_, _)› ?_)
    | (refine Fits.pair2 ‹_ = (_, _, _)› ?_)

structure Touches.execRowrepGo (N : Part → Prop) : Prop where
  c_goWrite : Touches.goWrite N 0xC3064
  c_rowrepGo : Touches.rowrepGo N

theorem FitsOut.execRowrepGo (m : Master) (s : State) (h : Fits N s0 s) (tch : Touches.execRowrepGo N) :
    FitsOut N s0 (execRowrepGo m s) := by
  obtain ⟨c_goWrite, c_rowrepGo⟩ := tch
  unfold Sys2Proof.Machine.execRowrepGo
  repeat' first
    | with_reducible assumption
    | with_reducible apply Fits.rowrepGo
    | with_reducible apply Fits.goWrite
    | with_reducible apply FitsOut.ite
    | with_reducible apply FitsOut.next
    | with_reducible apply FitsOut.fault
    | (intro _)
    | with_reducible apply Fits.ite
    | dsimp only
    | split
    | (refine Fits.pair ‹_ = (_, _)› ?_)
    | (refine Fits.pair2 ‹_ = (_, _, _)› ?_)

structure Touches.execRowrepStep (N : Part → Prop) : Prop where
  h_buf : N .buf
  k_BUF_ROWREP_STAT_state : N (.reg F.BUF_ROWREP_STAT_state.key)

theorem FitsOut.execRowrepStep (s : State) (h : Fits N s0 s) (tch : Touches.execRowrepStep N) :
    FitsOut N s0 (execRowrepStep s) := by
  obtain ⟨h_buf, k_BUF_ROWREP_STAT_state⟩ := tch
  unfold Sys2Proof.Machine.execRowrepStep
  repeat' first
    | with_reducible assumption
    | with_reducible apply k_BUF_ROWREP_STAT_state
    | with_reducible apply Fits.setF
    | (with_reducible refine Fits.modBuf _ _ ?_ ‹_› fun _ => rfl)
    | with_reducible apply FitsOut.ite
    | with_reducible apply FitsOut.next
    | with_reducible apply FitsOut.fault
    | (intro _)
    | with_reducible apply Fits.ite
    | dsimp only
    | split
    | (refine Fits.pair ‹_ = (_, _)› ?_)
    | (refine Fits.pair2 ‹_ = (_, _, _)› ?_)

structure Touches.execRowrepTestDone (N : Part → Prop) : Prop where
  h_buf : N .buf
  k_BUF_ROWREP_STAT_state : N (.reg F.BUF_ROWREP_STAT_state.key)
  c_evt : Touches.evt N 0xC3
  c_bufRecord : Touches.bufRecord N
  c_remapSet : Touches.remapSet N
  c_rowResult : Touches.rowResult N
  c_rowReport : Touches.rowReport N

theorem FitsOut.execRowrepTestDone (ok : Bool) (s : State) (h : Fits N s0 s) (tch : Touches.execRowrepTestDone N) :
    FitsOut N s0 (execRowrepTestDone ok s) := by
  obtain ⟨h_buf, k_BUF_ROWREP_STAT_state, c_evt, c_bufRecord, c_remapSet, c_rowResult, c_rowReport⟩ := tch
  unfold Sys2Proof.Machine.execRowrepTestDone
  repeat' first
    | with_reducible assumption
    | with_reducible apply k_BUF_ROWREP_STAT_state
    | with_reducible apply Fits.setF
    | with_reducible apply Fits.evt
    | (with_reducible refine Fits.modBuf _ _ ?_ ‹_› fun _ => rfl)
    | with_reducible apply Fits.bufRecord
    | with_reducible apply Fits.remapSet
    | with_reducible apply Fits.rowResult
    | with_reducible apply Fits.rowReport
    | with_reducible apply FitsOut.ite
    | with_reducible apply FitsOut.next
    | with_reducible apply FitsOut.fault
    | (intro _)
    | with_reducible apply Fits.ite
    | dsimp only
    | split
    | (refine Fits.pair ‹_ = (_, _)› ?_)
    | (refine Fits.pair2 ‹_ = (_, _, _)› ?_)

structure Touches.windowRead (N : Part → Prop) : Prop where
  h_ev : N .ev
  k_BUF_WIN_STAT_result : N (.reg F.BUF_WIN_STAT_result.key)
  c_fabErr : Touches.fabErr N
  c_memTreat : ∀ (a0 : Nat), Touches.memTreat N a0

theorem Fits.windowRead (m : Master) (off : Nat) (s : State) (h : Fits N s0 s) (tch : Touches.windowRead N) :
    Fits N s0 (windowRead m off s).2 := by
  obtain ⟨h_ev, k_BUF_WIN_STAT_result, c_fabErr, c_memTreat⟩ := tch
  unfold Sys2Proof.Machine.windowRead
  repeat' first
    | with_reducible assumption
    | with_reducible apply k_BUF_WIN_STAT_result
    | with_reducible exact c_memTreat _
    | with_reducible apply Fits.setF
    | with_reducible apply Fits.datapath
    | with_reducible apply Fits.fabErr
    | with_reducible apply Fits.access
    | with_reducible apply Fits.memTreat
    | (intro _)
    | with_reducible apply Fits.ite
    | dsimp only
    | split
    | (refine Fits.pair ‹_ = (_, _)› ?_)
    | (refine Fits.pair2 ‹_ = (_, _, _)› ?_)

structure Touches.windowWrite (N : Part → Prop) (off : Nat) : Prop where
  h_ev : N .ev
  c_refuse : Touches.refuse N (0x300000 + off)
  c_logicalWrite : Touches.logicalWrite N

theorem Fits.windowWrite (m : Master) (off : Nat) (value : Nat) (s : State) (h : Fits N s0 s) (tch : Touches.windowWrite N off) :
    Fits N s0 (windowWrite m off value s) := by
  obtain ⟨h_ev, c_refuse, c_logicalWrite⟩ := tch
  unfold Sys2Proof.Machine.windowWrite
  repeat' first
    | with_reducible assumption
    | with_reducible apply Fits.datapath
    | with_reducible apply Fits.refuse
    | with_reducible apply Fits.access
    | with_reducible apply Fits.logicalWrite
    | (intro _)
    | with_reducible apply Fits.ite
    | dsimp only
    | split
    | (refine Fits.pair ‹_ = (_, _)› ?_)
    | (refine Fits.pair2 ‹_ = (_, _, _)› ?_)

structure Touches.execHostWinRead (N : Part → Prop) : Prop where
  h_fab : N .fab
  c_windowRead : Touches.windowRead N

theorem FitsOut.execHostWinRead (m : Master) (off : Fin 65536) (s : State) (h : Fits N s0 s) (tch : Touches.execHostWinRead N) :
    FitsOut N s0 (execHostWinRead m off s) := by
  obtain ⟨h_fab, c_windowRead⟩ := tch
  unfold Sys2Proof.Machine.execHostWinRead
  repeat' first
    | with_reducible assumption
    | with_reducible apply Fits.windowRead
    | with_reducible apply FitsOut.ite
    | with_reducible apply FitsOut.next
    | with_reducible apply FitsOut.fault
    | (intro _)
    | with_reducible apply Fits.ite
    | dsimp only
    | split
    | (refine Fits.pair ‹_ = (_, _)› ?_)
    | (refine Fits.pair2 ‹_ = (_, _, _)› ?_)
    | with_reducible apply Fits.upd_fab

structure Touches.execHostWinWrite (N : Part → Prop) (off : Fin 65536) : Prop where
  c_windowWrite : Touches.windowWrite N off.val

theorem FitsOut.execHostWinWrite (m : Master) (off : Fin 65536) (value : Word) (s : State) (h : Fits N s0 s) (tch : Touches.execHostWinWrite N off) :
    FitsOut N s0 (execHostWinWrite m off value s) := by
  obtain ⟨c_windowWrite⟩ := tch
  unfold Sys2Proof.Machine.execHostWinWrite
  repeat' first
    | with_reducible assumption
    | with_reducible apply Fits.windowWrite
    | with_reducible apply FitsOut.ite
    | with_reducible apply FitsOut.next
    | with_reducible apply FitsOut.fault
    | (intro _)
    | with_reducible apply Fits.ite
    | dsimp only
    | split
    | (refine Fits.pair ‹_ = (_, _)› ?_)
    | (refine Fits.pair2 ‹_ = (_, _, _)› ?_)

structure Touches.deskewUsed (N : Part → Prop) : Prop where
  k_BUF_DESKEW_USED_pages : N (.reg F.BUF_DESKEW_USED_pages.key)

theorem Fits.deskewUsed (s : State) (h : Fits N s0 s) (tch : Touches.deskewUsed N) :
    Fits N s0 (deskewUsed s) := by
  obtain ⟨k_BUF_DESKEW_USED_pages⟩ := tch
  unfold Sys2Proof.Machine.deskewUsed
  repeat' first
    | with_reducible assumption
    | with_reducible apply k_BUF_DESKEW_USED_pages
    | with_reducible apply Fits.setF
    | with_reducible apply Fits.foldlPair
    | with_reducible apply Fits.foldl
    | (intro _)
    | with_reducible apply Fits.ite
    | dsimp only
    | split
    | (refine Fits.pair ‹_ = (_, _)› ?_)
    | (refine Fits.pair2 ‹_ = (_, _, _)› ?_)

end Sys2Proof.Machine
end

