-- ==== Sys2Proof/Laws/FitsCipher.lean ====
section
/-! SUPPORT. What the operations of Machine/Cipher.lean touch (a structure of parts for each, over those of the operations it calls), and
that each keeps the canonical form. -/
set_option linter.unusedTactic false
set_option linter.unreachableTactic false
namespace Sys2Proof.Machine

variable {N : Part → Prop} {s0 : State}

structure Touches.shadowMismatch (N : Part → Prop) : Prop where
  h_cip : N .cip
  h_ev : N .ev
  k_CIP_CNT_count : N (.reg (F.CIP_CNT_count 0).key)
  k_CIP_CORE_STAT_mismatches : ∀ (a0 : Nat), N (.reg (F.CIP_CORE_STAT_mismatches a0).key)
  k_CIP_CORE_STAT_suspect : ∀ (a0 : Nat), N (.reg (F.CIP_CORE_STAT_suspect a0).key)

theorem Fits.shadowMismatch (c : Nat) (s : State) (h : Fits N s0 s) (tch : Touches.shadowMismatch N) :
    Fits N s0 (shadowMismatch c s) := by
  obtain ⟨h_cip, h_ev, k_CIP_CNT_count, k_CIP_CORE_STAT_mismatches, k_CIP_CORE_STAT_suspect⟩ := tch
  unfold Sys2Proof.Machine.shadowMismatch
  repeat' first
    | with_reducible assumption
    | with_reducible apply k_CIP_CNT_count
    | with_reducible apply k_CIP_CORE_STAT_mismatches
    | with_reducible apply k_CIP_CORE_STAT_suspect
    | with_reducible apply Fits.setF
    | with_reducible apply Fits.setB
    | with_reducible apply Fits.loss
    | (intro _)
    | with_reducible apply Fits.ite
    | dsimp only
    | split
    | (refine Fits.pair ‹_ = (_, _)› ?_)
    | (refine Fits.pair2 ‹_ = (_, _, _)› ?_)
    | with_reducible apply Fits.upd_cip

structure Touches.dealChunks (N : Part → Prop) : Prop where
  h_cip : N .cip
  h_drawn : N .drawn
  h_ev : N .ev

theorem Fits.dealChunks (x0 : Nat) (x1 : Nat) (s : State) (h : Fits N s0 s) (tch : Touches.dealChunks N) :
    Fits N s0 (dealChunks x0 x1 s) := by
  obtain ⟨h_cip, h_drawn, h_ev⟩ := tch
  induction x0 generalizing x1 s with
  | zero =>
    unfold Sys2Proof.Machine.dealChunks
    repeat' first
      | with_reducible assumption
      | with_reducible apply Fits.draw
      | with_reducible apply Fits.datapath
      | (intro _)
      | with_reducible apply Fits.ite
      | dsimp only
      | split
      | (refine Fits.pair ‹_ = (_, _)› ?_)
      | (refine Fits.pair2 ‹_ = (_, _, _)› ?_)
      | with_reducible apply Fits.upd_cip
  | succ k ih =>
    unfold Sys2Proof.Machine.dealChunks
    repeat' first
      | with_reducible apply ih
      | with_reducible assumption
      | with_reducible apply Fits.draw
      | with_reducible apply Fits.datapath
      | (intro _)
      | with_reducible apply Fits.ite
      | dsimp only
      | split
      | (refine Fits.pair ‹_ = (_, _)› ?_)
      | (refine Fits.pair2 ‹_ = (_, _, _)› ?_)
      | with_reducible apply Fits.upd_cip

structure Touches.unitShadow (N : Part → Prop) : Prop where
  c_shadowMismatch : Touches.shadowMismatch N

theorem Fits.unitShadow (x : Option (Fin 8 × Bool)) (s : State) (h : Fits N s0 s) (tch : Touches.unitShadow N) :
    Fits N s0 (unitShadow x s).2 := by
  obtain ⟨c_shadowMismatch⟩ := tch
  unfold Sys2Proof.Machine.unitShadow
  repeat' first
    | with_reducible assumption
    | with_reducible apply Fits.shadowMismatch
    | (intro _)
    | with_reducible apply Fits.ite
    | dsimp only
    | split
    | (refine Fits.pair ‹_ = (_, _)› ?_)
    | (refine Fits.pair2 ‹_ = (_, _, _)› ?_)

structure Touches.dataTxUnit (N : Part → Prop) (i : Nat) : Prop where
  h_cip : N .cip
  h_ev : N .ev
  k_CIP_CNT_count : N (.reg (F.CIP_CNT_count 4).key)
  c_saBoundary : Touches.saBoundary N i
  c_dealChunks : Touches.dealChunks N
  c_unitShadow : Touches.unitShadow N

theorem Fits.dataTxUnit (i : Nat) (period : Nat) (start : Nat) (hdr : Nat) (plain : List Byte) (mism : Option (Fin 8 × Bool)) (s : State) (h : Fits N s0 s) (tch : Touches.dataTxUnit N i) :
    Fits N s0 (dataTxUnit i period start hdr plain mism s) := by
  obtain ⟨h_cip, h_ev, k_CIP_CNT_count, c_saBoundary, c_dealChunks, c_unitShadow⟩ := tch
  unfold Sys2Proof.Machine.dataTxUnit
  repeat' first
    | with_reducible assumption
    | with_reducible apply k_CIP_CNT_count
    | with_reducible apply Fits.loss
    | with_reducible apply Fits.modAssoc
    | with_reducible apply Fits.saBoundary
    | with_reducible apply Fits.dealChunks
    | with_reducible apply Fits.unitShadow
    | (intro _)
    | with_reducible apply Fits.ite
    | dsimp only
    | split
    | (refine Fits.pair ‹_ = (_, _)› ?_)
    | (refine Fits.pair2 ‹_ = (_, _, _)› ?_)
    | with_reducible apply Fits.upd_cip

structure Touches.unitPlain (N : Part → Prop) : Prop where
  c_modTxCont : ∀ (a0 : Nat), Touches.modTxCont N a0
  c_takeCells : ∀ (a0 : Nat), Touches.takeCells N a0

theorem Fits.unitPlain (i : Nat) (hdr : Nat) (plain : List Byte) (s : State) (h : Fits N s0 s) (tch : Touches.unitPlain N) :
    Fits N s0 (unitPlain i hdr plain s).2 := by
  obtain ⟨c_modTxCont, c_takeCells⟩ := tch
  unfold Sys2Proof.Machine.unitPlain
  repeat' first
    | with_reducible assumption
    | with_reducible exact c_modTxCont _
    | with_reducible exact c_takeCells _
    | with_reducible apply Fits.modTxCont
    | with_reducible apply Fits.takeCells
    | (intro _)
    | with_reducible apply Fits.ite
    | dsimp only
    | split
    | (refine Fits.pair ‹_ = (_, _)› ?_)
    | (refine Fits.pair2 ‹_ = (_, _, _)› ?_)

structure Touches.execDataTxUnit (N : Part → Prop) (i : Fin 1024) : Prop where
  c_dataTxUnit : Touches.dataTxUnit N i.val
  c_unitPlain : Touches.unitPlain N

theorem FitsOut.execDataTxUnit (i : Fin 1024) (period : BitVec 32) (start : Fin 1000) (hdr : BitVec 64) (plain : List Byte) (mism : Option (Fin 8 × Bool)) (s : State) (h : Fits N s0 s) (tch : Touches.execDataTxUnit N i) :
    FitsOut N s0 (execDataTxUnit i period start hdr plain mism s) := by
  obtain ⟨c_dataTxUnit, c_unitPlain⟩ := tch
  unfold Sys2Proof.Machine.execDataTxUnit
  repeat' first
    | with_reducible assumption
    | with_reducible apply Fits.dataTxUnit
    | with_reducible apply Fits.unitPlain
    | with_reducible apply FitsOut.ite
    | with_reducible apply FitsOut.next
    | with_reducible apply FitsOut.fault
    | (intro _)
    | with_reducible apply Fits.ite
    | dsimp only
    | split
    | (refine Fits.pair ‹_ = (_, _)› ?_)
    | (refine Fits.pair2 ‹_ = (_, _, _)› ?_)

structure Touches.tagMark (N : Part → Prop) : Prop where
  h_glf : ∀ b, N (.glf b)

theorem Fits.tagMark (i : Nat) (bad : Bool) (s : State) (h : Fits N s0 s) (tch : Touches.tagMark N) :
    Fits N s0 (tagMark i bad s) := by
  obtain ⟨h_glf⟩ := tch
  unfold Sys2Proof.Machine.tagMark
  repeat' first
    | with_reducible assumption
    | with_reducible exact h_glf _
    | with_reducible apply Fits.modGlf
    | (intro _)
    | with_reducible apply Fits.ite
    | dsimp only
    | split
    | (refine Fits.pair ‹_ = (_, _)› ?_)
    | (refine Fits.pair2 ‹_ = (_, _, _)› ?_)

structure Touches.dataRxUnit (N : Part → Prop) (i : Nat) : Prop where
  h_cip : N .cip
  h_ev : N .ev
  k_CIP_CNT_count : N (.reg (F.CIP_CNT_count 4).key)
  k_CIP_SA_ST_void_rx : N (.reg (F.CIP_SA_ST_void_rx i).key)
  k_CIP_SA_TAGFAIL_count : N (.reg (F.CIP_SA_TAGFAIL_count i).key)
  k_CIP_SA_VOID_count : N (.reg (F.CIP_SA_VOID_count i).key)
  c_evt : Touches.evt N 0xC8
  c_saBoundary : Touches.saBoundary N i
  c_dealChunks : Touches.dealChunks N
  c_unitShadow : Touches.unitShadow N
  c_tagMark : Touches.tagMark N

theorem Fits.dataRxUnit (i : Nat) (unit : Nat) (start : Nat) (hdr : Nat) (text : List Byte) (tag : List Byte) (replaced : Bool) (mism : Option (Fin 8 × Bool)) (s : State) (h : Fits N s0 s) (tch : Touches.dataRxUnit N i) :
    Fits N s0 (dataRxUnit i unit start hdr text tag replaced mism s) := by
  obtain ⟨h_cip, h_ev, k_CIP_CNT_count, k_CIP_SA_ST_void_rx, k_CIP_SA_TAGFAIL_count, k_CIP_SA_VOID_count, c_evt, c_saBoundary, c_dealChunks, c_unitShadow, c_tagMark⟩ := tch
  unfold Sys2Proof.Machine.dataRxUnit
  repeat' first
    | with_reducible assumption
    | with_reducible apply k_CIP_CNT_count
    | with_reducible apply k_CIP_SA_ST_void_rx
    | with_reducible apply k_CIP_SA_TAGFAIL_count
    | with_reducible apply k_CIP_SA_VOID_count
    | with_reducible apply Fits.setB
    | with_reducible apply Fits.evt
    | with_reducible apply Fits.loss
    | with_reducible apply Fits.modAssoc
    | with_reducible apply Fits.saBoundary
    | with_reducible apply Fits.dealChunks
    | with_reducible apply Fits.unitShadow
    | with_reducible apply Fits.tagMark
    | (intro _)
    | with_reducible apply Fits.ite
    | dsimp only
    | split
    | (refine Fits.pair ‹_ = (_, _)› ?_)
    | (refine Fits.pair2 ‹_ = (_, _, _)› ?_)
    | with_reducible apply Fits.upd_cip

structure Touches.execDataRxUnit (N : Part → Prop) (i : Fin 1024) : Prop where
  c_dataRxUnit : Touches.dataRxUnit N i.val

theorem FitsOut.execDataRxUnit (i : Fin 1024) (unit : BitVec 32) (start : Fin 1000) (hdr : BitVec 64) (text : List Byte) (tag : BitVec 128) (replaced : Bool) (mism : Option (Fin 8 × Bool)) (s : State) (h : Fits N s0 s) (tch : Touches.execDataRxUnit N i) :
    FitsOut N s0 (execDataRxUnit i unit start hdr text tag replaced mism s) := by
  obtain ⟨c_dataRxUnit⟩ := tch
  unfold Sys2Proof.Machine.execDataRxUnit
  repeat' first
    | with_reducible assumption
    | with_reducible apply Fits.dataRxUnit
    | with_reducible apply FitsOut.ite
    | with_reducible apply FitsOut.next
    | with_reducible apply FitsOut.fault
    | (intro _)
    | with_reducible apply Fits.ite
    | dsimp only
    | split
    | (refine Fits.pair ‹_ = (_, _)› ?_)
    | (refine Fits.pair2 ‹_ = (_, _, _)› ?_)

structure Touches.keyReply (N : Part → Prop) : Prop where
  k_CIP_CNT_count : N (.reg (F.CIP_CNT_count 8).key)
  c_replySend : Touches.replySend N 3

theorem Fits.keyReply (op : Nat) (status : Nat) (id : Nat) (s : State) (h : Fits N s0 s) (tch : Touches.keyReply N) :
    Fits N s0 (keyReply op status id s) := by
  obtain ⟨k_CIP_CNT_count, c_replySend⟩ := tch
  unfold Sys2Proof.Machine.keyReply
  repeat' first
    | with_reducible assumption
    | with_reducible apply k_CIP_CNT_count
    | with_reducible apply Fits.bump
    | with_reducible apply Fits.replySend
    | (intro _)
    | with_reducible apply Fits.ite
    | dsimp only
    | split
    | (refine Fits.pair ‹_ = (_, _)› ?_)
    | (refine Fits.pair2 ‹_ = (_, _, _)› ?_)

structure Touches.execKeyLoad (N : Part → Prop) : Prop where
  h_cip : N .cip
  c_saReport : ∀ (a0 : Nat), Touches.saReport N a0
  c_keyReply : Touches.keyReply N

theorem FitsOut.execKeyLoad (id : BitVec 16) (words : List Word) (s : State) (h : Fits N s0 s) (tch : Touches.execKeyLoad N) :
    FitsOut N s0 (execKeyLoad id words s) := by
  obtain ⟨h_cip, c_saReport, c_keyReply⟩ := tch
  unfold Sys2Proof.Machine.execKeyLoad
  repeat' first
    | with_reducible assumption
    | with_reducible exact c_saReport _
    | with_reducible apply Fits.modAssoc
    | with_reducible apply Fits.saReport
    | with_reducible apply Fits.keyReply
    | with_reducible apply FitsOut.ite
    | with_reducible apply FitsOut.next
    | with_reducible apply FitsOut.fault
    | (intro _)
    | with_reducible apply Fits.ite
    | dsimp only
    | split
    | (refine Fits.pair ‹_ = (_, _)› ?_)
    | (refine Fits.pair2 ‹_ = (_, _, _)› ?_)

structure Touches.execKeyErase (N : Part → Prop) : Prop where
  h_cip : N .cip
  c_keyReply : Touches.keyReply N

theorem FitsOut.execKeyErase (id : BitVec 16) (words : List Word) (s : State) (h : Fits N s0 s) (tch : Touches.execKeyErase N) :
    FitsOut N s0 (execKeyErase id words s) := by
  obtain ⟨h_cip, c_keyReply⟩ := tch
  unfold Sys2Proof.Machine.execKeyErase
  repeat' first
    | with_reducible assumption
    | with_reducible apply Fits.modAssoc
    | with_reducible apply Fits.keyReply
    | with_reducible apply FitsOut.ite
    | with_reducible apply FitsOut.next
    | with_reducible apply FitsOut.fault
    | (intro _)
    | with_reducible apply Fits.ite
    | dsimp only
    | split
    | (refine Fits.pair ‹_ = (_, _)› ?_)
    | (refine Fits.pair2 ‹_ = (_, _, _)› ?_)

structure Touches.execKeyActivate (N : Part → Prop) : Prop where
  h_cip : N .cip
  c_saReport : ∀ (a0 : Nat), Touches.saReport N a0
  c_keyReply : Touches.keyReply N

theorem FitsOut.execKeyActivate (id : BitVec 16) (words : List Word) (s : State) (h : Fits N s0 s) (tch : Touches.execKeyActivate N) :
    FitsOut N s0 (execKeyActivate id words s) := by
  obtain ⟨h_cip, c_saReport, c_keyReply⟩ := tch
  unfold Sys2Proof.Machine.execKeyActivate
  repeat' first
    | with_reducible assumption
    | with_reducible exact c_saReport _
    | with_reducible apply Fits.modAssoc
    | with_reducible apply Fits.saReport
    | with_reducible apply Fits.keyReply
    | with_reducible apply FitsOut.ite
    | with_reducible apply FitsOut.next
    | with_reducible apply FitsOut.fault
    | (intro _)
    | with_reducible apply Fits.ite
    | dsimp only
    | split
    | (refine Fits.pair ‹_ = (_, _)› ?_)
    | (refine Fits.pair2 ‹_ = (_, _, _)› ?_)

structure Touches.kxAuthFail (N : Part → Prop) : Prop where
  h_cip : N .cip
  k_CIP_CNT_count : N (.reg (F.CIP_CNT_count 7).key)

theorem Fits.kxAuthFail (j : Option Nat) (s : State) (h : Fits N s0 s) (tch : Touches.kxAuthFail N) :
    Fits N s0 (kxAuthFail j s) := by
  obtain ⟨h_cip, k_CIP_CNT_count⟩ := tch
  unfold Sys2Proof.Machine.kxAuthFail
  repeat' first
    | with_reducible assumption
    | with_reducible apply k_CIP_CNT_count
    | with_reducible apply Fits.bump
    | with_reducible apply Fits.modKx
    | (intro _)
    | with_reducible apply Fits.ite
    | dsimp only
    | split
    | (refine Fits.pair ‹_ = (_, _)› ?_)
    | (refine Fits.pair2 ‹_ = (_, _, _)› ?_)

structure Touches.kxInstall (N : Part → Prop) (tx : Nat) (rx : Nat) : Prop where
  h_cip : N .cip
  c_saReport : Touches.saReport N rx
  c_saReport_1 : Touches.saReport N tx

theorem Fits.kxInstall (tx : Nat) (rx : Nat) (kt : List Byte) (kr : List Byte) (s : State) (h : Fits N s0 s) (tch : Touches.kxInstall N tx rx) :
    Fits N s0 (kxInstall tx rx kt kr s) := by
  obtain ⟨h_cip, c_saReport, c_saReport_1⟩ := tch
  unfold Sys2Proof.Machine.kxInstall
  repeat' first
    | with_reducible assumption
    | with_reducible apply Fits.modAssoc
    | with_reducible apply Fits.saReport
    | (intro _)
    | with_reducible apply Fits.ite
    | dsimp only
    | split
    | (refine Fits.pair ‹_ = (_, _)› ?_)
    | (refine Fits.pair2 ‹_ = (_, _, _)› ?_)

structure Touches.kxSwitchSend (N : Part → Prop) (j : Nat) : Prop where
  h_cip : N .cip
  k_CIP_KX_STAT_state : N (.reg (F.CIP_KX_STAT_state j).key)
  c_saReport : ∀ (a0 : Nat), Touches.saReport N a0
  c_kxCheck : Touches.kxCheck N j
  c_kxSend : Touches.kxSend N

theorem Fits.kxSwitchSend (j : Nat) (s : State) (h : Fits N s0 s) (tch : Touches.kxSwitchSend N j) :
    Fits N s0 (kxSwitchSend j s) := by
  obtain ⟨h_cip, k_CIP_KX_STAT_state, c_saReport, c_kxCheck, c_kxSend⟩ := tch
  unfold Sys2Proof.Machine.kxSwitchSend
  repeat' first
    | with_reducible assumption
    | with_reducible apply k_CIP_KX_STAT_state
    | with_reducible exact c_saReport _
    | with_reducible apply Fits.setF
    | with_reducible apply Fits.modAssoc
    | with_reducible apply Fits.saReport
    | with_reducible apply Fits.kxCheck
    | with_reducible apply Fits.kxSend
    | (intro _)
    | with_reducible apply Fits.ite
    | dsimp only
    | split
    | (refine Fits.pair ‹_ = (_, _)› ?_)
    | (refine Fits.pair2 ‹_ = (_, _, _)› ?_)

structure Touches.kxAckSend (N : Part → Prop) : Prop where
  c_ohPut : ∀ (a0 : Nat), Touches.ohPut N a0

theorem Fits.kxAckSend (j : Nat) (s : State) (h : Fits N s0 s) (tch : Touches.kxAckSend N) :
    Fits N s0 (kxAckSend j s) := by
  obtain ⟨c_ohPut⟩ := tch
  unfold Sys2Proof.Machine.kxAckSend
  repeat' first
    | with_reducible assumption
    | with_reducible exact c_ohPut _
    | with_reducible apply Fits.ohPut
    | (intro _)
    | with_reducible apply Fits.ite
    | dsimp only
    | split
    | (refine Fits.pair ‹_ = (_, _)› ?_)
    | (refine Fits.pair2 ‹_ = (_, _, _)› ?_)

structure Touches.kxAbortSend (N : Part → Prop) (le : Nat) : Prop where
  c_ohPut : Touches.ohPut N le

theorem Fits.kxAbortSend (le : Nat) (reason : Nat) (body : List Byte) (s : State) (h : Fits N s0 s) (tch : Touches.kxAbortSend N le) :
    Fits N s0 (kxAbortSend le reason body s) := by
  obtain ⟨c_ohPut⟩ := tch
  unfold Sys2Proof.Machine.kxAbortSend
  repeat' first
    | with_reducible assumption
    | with_reducible apply Fits.ohPut
    | (intro _)
    | with_reducible apply Fits.ite
    | dsimp only
    | split
    | (refine Fits.pair ‹_ = (_, _)› ?_)
    | (refine Fits.pair2 ‹_ = (_, _, _)› ?_)

structure Touches.execKxStart (N : Part → Prop) : Prop where
  c_goWrite : Touches.goWrite N 0xC9044
  c_kxStart : Touches.kxStart N

theorem FitsOut.execKxStart (m : Master) (tx : Fin 1024) (rx : Fin 1024) (s : State) (h : Fits N s0 s) (tch : Touches.execKxStart N) :
    FitsOut N s0 (execKxStart m tx rx s) := by
  have c_goWrite := tch.c_goWrite
  have c_kxStart := tch.c_kxStart
  clear tch
  unfold Sys2Proof.Machine.execKxStart
  repeat' first
    | with_reducible assumption
    | with_reducible apply Fits.kxStart
    | with_reducible apply Fits.goWrite
    | with_reducible apply FitsOut.ite
    | with_reducible apply FitsOut.next
    | with_reducible apply FitsOut.fault
    | (intro _)
    | with_reducible apply Fits.ite
    | dsimp only
    | split
    | (refine Fits.pair ‹_ = (_, _)› ?_)
    | (refine Fits.pair2 ‹_ = (_, _, _)› ?_)

theorem FitsOut.execKxCert (le : Fin 2) (body : List Byte) (s : State) (h : Fits N s0 s) (h_cip : N .cip) :
    FitsOut N s0 (execKxCert le body s) := by
  unfold Sys2Proof.Machine.execKxCert
  repeat' first
    | with_reducible assumption
    | with_reducible apply FitsOut.ite
    | with_reducible apply FitsOut.next
    | with_reducible apply FitsOut.fault
    | (intro _)
    | with_reducible apply Fits.ite
    | dsimp only
    | split
    | (refine Fits.pair ‹_ = (_, _)› ?_)
    | (refine Fits.pair2 ‹_ = (_, _, _)› ?_)
    | with_reducible apply Fits.upd_cip

structure Touches.kxRespond (N : Part → Prop) (j : Nat) : Prop where
  h_cip : N .cip
  h_drawn : N .drawn
  k_CIP_KX_STAT_result : N (.reg (F.CIP_KX_STAT_result j).key)
  k_CIP_KX_STAT_role : N (.reg (F.CIP_KX_STAT_role j).key)
  k_CIP_KX_STAT_rx : N (.reg (F.CIP_KX_STAT_rx j).key)
  k_CIP_KX_STAT_state : N (.reg (F.CIP_KX_STAT_state j).key)
  k_CIP_KX_STAT_tx : N (.reg (F.CIP_KX_STAT_tx j).key)
  c_kxSend : Touches.kxSend N
  c_kxCerts : Touches.kxCerts N

theorem Fits.kxRespond (j : Nat) (tx : Nat) (rx : Nat) (body : List Byte) (s : State) (h : Fits N s0 s) (tch : Touches.kxRespond N j) :
    Fits N s0 (kxRespond j tx rx body s) := by
  obtain ⟨h_cip, h_drawn, k_CIP_KX_STAT_result, k_CIP_KX_STAT_role, k_CIP_KX_STAT_rx, k_CIP_KX_STAT_state, k_CIP_KX_STAT_tx, c_kxSend, c_kxCerts⟩ := tch
  unfold Sys2Proof.Machine.kxRespond
  repeat' first
    | with_reducible assumption
    | with_reducible apply k_CIP_KX_STAT_result
    | with_reducible apply k_CIP_KX_STAT_role
    | with_reducible apply k_CIP_KX_STAT_rx
    | with_reducible apply k_CIP_KX_STAT_state
    | with_reducible apply k_CIP_KX_STAT_tx
    | with_reducible apply Fits.setF
    | with_reducible apply Fits.modKx
    | with_reducible apply Fits.drawBytes
    | with_reducible apply Fits.kxSend
    | with_reducible apply Fits.kxCerts
    | (intro _)
    | with_reducible apply Fits.ite
    | dsimp only
    | split
    | (refine Fits.pair ‹_ = (_, _)› ?_)
    | (refine Fits.pair2 ‹_ = (_, _, _)› ?_)

structure Touches.execKxInit (N : Part → Prop) (le : Fin 2) : Prop where
  h_cip : N .cip
  h_drawn : N .drawn
  k_CIP_KX_STAT_state : ∀ (a0 : Nat), N (.reg (F.CIP_KX_STAT_state a0).key)
  c_kxEnd : ∀ (a0 : Nat), Touches.kxEnd N a0
  c_kxAuthFail : Touches.kxAuthFail N
  c_kxAbortSend : Touches.kxAbortSend N le.val
  c_kxRespond : ∀ (a0 : Nat), Touches.kxRespond N a0

theorem FitsOut.execKxInit (le : Fin 2) (body : List Byte) (s : State) (h : Fits N s0 s) (tch : Touches.execKxInit N le) :
    FitsOut N s0 (execKxInit le body s) := by
  have h_cip := tch.h_cip
  have h_drawn := tch.h_drawn
  have k_CIP_KX_STAT_state := tch.k_CIP_KX_STAT_state
  have c_kxEnd := tch.c_kxEnd
  have c_kxAuthFail := tch.c_kxAuthFail
  have c_kxAbortSend := tch.c_kxAbortSend
  have c_kxRespond := tch.c_kxRespond
  clear tch
  unfold Sys2Proof.Machine.execKxInit
  generalize (List.range 16).find? _ = free
  generalize beNat body 4 32 = his
  dsimp only
  split
  · exact FitsOut.next h
  · generalize kxBy s _ = j
    cases j with
    | none =>
      dsimp only
      repeat' first
        | with_reducible assumption
        | with_reducible apply Fits.setF
        | with_reducible apply Fits.kxEnd
        | with_reducible apply Fits.draw
        | with_reducible apply Fits.modKx
        | with_reducible apply Fits.kxAuthFail
        | with_reducible apply Fits.kxAbortSend
        | with_reducible apply Fits.kxRespond
        | with_reducible apply FitsOut.ite
        | with_reducible apply FitsOut.next
        | with_reducible apply k_CIP_KX_STAT_state
        | with_reducible exact c_kxEnd _
        | with_reducible exact c_kxRespond _
        | (intro _)
        | split
    | some j =>
      dsimp only
      generalize beNat (kxRec s j).init 4 32 = own
      repeat' first
        | with_reducible assumption
        | with_reducible apply Fits.setF
        | with_reducible apply Fits.kxEnd
        | with_reducible apply Fits.draw
        | with_reducible apply Fits.modKx
        | with_reducible apply Fits.kxAuthFail
        | with_reducible apply Fits.kxAbortSend
        | with_reducible apply Fits.kxRespond
        | with_reducible apply FitsOut.ite
        | with_reducible apply FitsOut.next
        | with_reducible apply k_CIP_KX_STAT_state
        | with_reducible exact c_kxEnd _
        | with_reducible exact c_kxRespond _
        | (intro _)
        | split

structure Touches.execKxResp (N : Part → Prop) : Prop where
  h_cip : N .cip
  h_drawn : N .drawn
  k_CIP_KX_STAT_state : ∀ (a0 : Nat), N (.reg (F.CIP_KX_STAT_state a0).key)
  c_kxSend : Touches.kxSend N
  c_kxAuthFail : Touches.kxAuthFail N
  c_kxInstall : ∀ (a0 : Nat) (a1 : Nat), Touches.kxInstall N a0 a1

theorem FitsOut.execKxResp (le : Fin 2) (body : List Byte) (s : State) (h : Fits N s0 s) (tch : Touches.execKxResp N) :
    FitsOut N s0 (execKxResp le body s) := by
  have h_cip := tch.h_cip
  have h_drawn := tch.h_drawn
  have k_CIP_KX_STAT_state := tch.k_CIP_KX_STAT_state
  have c_kxSend := tch.c_kxSend
  have c_kxAuthFail := tch.c_kxAuthFail
  have c_kxInstall := tch.c_kxInstall
  clear tch
  unfold Sys2Proof.Machine.execKxResp
  repeat' first
    | with_reducible assumption
    | split
    | dsimp only
    | with_reducible apply k_CIP_KX_STAT_state
    | with_reducible exact c_kxInstall _ _
    | with_reducible apply Fits.setF
    | with_reducible apply Fits.modKx
    | with_reducible apply Fits.drawBytes
    | with_reducible apply Fits.kxSend
    | with_reducible apply Fits.kxAuthFail
    | with_reducible apply Fits.kxInstall
    | with_reducible apply FitsOut.ite
    | with_reducible apply FitsOut.next
    | with_reducible apply FitsOut.fault
    | (intro _)
    | with_reducible apply Fits.ite
    | dsimp only
    | split
    | (refine Fits.pair ‹_ = (_, _)› ?_)
    | (refine Fits.pair2 ‹_ = (_, _, _)› ?_)

structure Touches.execKxConfirm (N : Part → Prop) : Prop where
  h_cip : N .cip
  c_kxAuthFail : Touches.kxAuthFail N
  c_kxInstall : ∀ (a0 : Nat) (a1 : Nat), Touches.kxInstall N a0 a1
  c_kxSwitchSend : ∀ (a0 : Nat), Touches.kxSwitchSend N a0
  c_kxAckSend : Touches.kxAckSend N

theorem FitsOut.execKxConfirm (le : Fin 2) (body : List Byte) (s : State) (h : Fits N s0 s) (tch : Touches.execKxConfirm N) :
    FitsOut N s0 (execKxConfirm le body s) := by
  have h_cip := tch.h_cip
  have c_kxAuthFail := tch.c_kxAuthFail
  have c_kxInstall := tch.c_kxInstall
  have c_kxSwitchSend := tch.c_kxSwitchSend
  have c_kxAckSend := tch.c_kxAckSend
  clear tch
  unfold Sys2Proof.Machine.execKxConfirm
  repeat' first
    | with_reducible assumption
    | split
    | dsimp only
    | with_reducible exact c_kxInstall _ _
    | with_reducible exact c_kxSwitchSend _
    | with_reducible apply Fits.modKx
    | with_reducible apply Fits.kxAuthFail
    | with_reducible apply Fits.kxInstall
    | with_reducible apply Fits.kxSwitchSend
    | with_reducible apply Fits.kxAckSend
    | with_reducible apply FitsOut.ite
    | with_reducible apply FitsOut.next
    | with_reducible apply FitsOut.fault
    | (intro _)
    | with_reducible apply Fits.ite
    | dsimp only
    | split
    | (refine Fits.pair ‹_ = (_, _)› ?_)
    | (refine Fits.pair2 ‹_ = (_, _, _)› ?_)

structure Touches.execKxAck (N : Part → Prop) : Prop where
  c_kxAuthFail : Touches.kxAuthFail N
  c_kxSwitchSend : ∀ (a0 : Nat), Touches.kxSwitchSend N a0

theorem FitsOut.execKxAck (le : Fin 2) (body : List Byte) (s : State) (h : Fits N s0 s) (tch : Touches.execKxAck N) :
    FitsOut N s0 (execKxAck le body s) := by
  have c_kxAuthFail := tch.c_kxAuthFail
  have c_kxSwitchSend := tch.c_kxSwitchSend
  clear tch
  unfold Sys2Proof.Machine.execKxAck
  repeat' first
    | with_reducible assumption
    | split
    | dsimp only
    | with_reducible exact c_kxSwitchSend _
    | with_reducible apply Fits.kxAuthFail
    | with_reducible apply Fits.kxSwitchSend
    | with_reducible apply FitsOut.ite
    | with_reducible apply FitsOut.next
    | with_reducible apply FitsOut.fault
    | (intro _)
    | with_reducible apply Fits.ite
    | dsimp only
    | split
    | (refine Fits.pair ‹_ = (_, _)› ?_)
    | (refine Fits.pair2 ‹_ = (_, _, _)› ?_)

structure Touches.execKxSwitch (N : Part → Prop) : Prop where
  h_cip : N .cip
  c_saReport : ∀ (a0 : Nat), Touches.saReport N a0
  c_kxAuthFail : Touches.kxAuthFail N

theorem FitsOut.execKxSwitch (le : Fin 2) (body : List Byte) (s : State) (h : Fits N s0 s) (tch : Touches.execKxSwitch N) :
    FitsOut N s0 (execKxSwitch le body s) := by
  have h_cip := tch.h_cip
  have c_saReport := tch.c_saReport
  have c_kxAuthFail := tch.c_kxAuthFail
  clear tch
  unfold Sys2Proof.Machine.execKxSwitch
  repeat' first
    | with_reducible assumption
    | split
    | dsimp only
    | with_reducible exact c_saReport _
    | with_reducible apply Fits.modAssoc
    | with_reducible apply Fits.saReport
    | with_reducible apply Fits.kxAuthFail
    | with_reducible apply FitsOut.ite
    | with_reducible apply FitsOut.next
    | with_reducible apply FitsOut.fault
    | (intro _)
    | with_reducible apply Fits.ite
    | dsimp only
    | split
    | (refine Fits.pair ‹_ = (_, _)› ?_)
    | (refine Fits.pair2 ‹_ = (_, _, _)› ?_)

structure Touches.execKxAbort (N : Part → Prop) : Prop where
  c_kxEnd : ∀ (a0 : Nat), Touches.kxEnd N a0

theorem FitsOut.execKxAbort (le : Fin 2) (body : List Byte) (s : State) (h : Fits N s0 s) (tch : Touches.execKxAbort N) :
    FitsOut N s0 (execKxAbort le body s) := by
  have c_kxEnd := tch.c_kxEnd
  clear tch
  unfold Sys2Proof.Machine.execKxAbort
  repeat' first
    | with_reducible assumption
    | split
    | dsimp only
    | with_reducible exact c_kxEnd _
    | with_reducible apply Fits.kxEnd
    | with_reducible apply FitsOut.ite
    | with_reducible apply FitsOut.next
    | with_reducible apply FitsOut.fault
    | (intro _)
    | with_reducible apply Fits.ite
    | dsimp only
    | split
    | (refine Fits.pair ‹_ = (_, _)› ?_)
    | (refine Fits.pair2 ‹_ = (_, _, _)› ?_)

structure Touches.execKxRepeat (N : Part → Prop) : Prop where
  h_cip : N .cip
  h_time : N .time
  c_ohPut : ∀ (a0 : Nat), Touches.ohPut N a0

theorem FitsOut.execKxRepeat (j : Fin 16) (s : State) (h : Fits N s0 s) (tch : Touches.execKxRepeat N) :
    FitsOut N s0 (execKxRepeat j s) := by
  have h_cip := tch.h_cip
  have h_time := tch.h_time
  have c_ohPut := tch.c_ohPut
  clear tch
  unfold Sys2Proof.Machine.execKxRepeat
  repeat' first
    | with_reducible assumption
    | with_reducible exact c_ohPut _
    | with_reducible apply Fits.reach
    | with_reducible apply Fits.ohPut
    | with_reducible apply Fits.modKx
    | with_reducible apply FitsOut.ite
    | with_reducible apply FitsOut.next
    | with_reducible apply FitsOut.fault
    | (intro _)
    | with_reducible apply Fits.ite
    | dsimp only
    | split
    | (refine Fits.pair ‹_ = (_, _)› ?_)
    | (refine Fits.pair2 ‹_ = (_, _, _)› ?_)

structure Touches.execKxTimeout (N : Part → Prop) (j : Fin 16) : Prop where
  h_time : N .time
  c_kxEnd : Touches.kxEnd N j.val

theorem FitsOut.execKxTimeout (j : Fin 16) (s : State) (h : Fits N s0 s) (tch : Touches.execKxTimeout N j) :
    FitsOut N s0 (execKxTimeout j s) := by
  have h_time := tch.h_time
  have c_kxEnd := tch.c_kxEnd
  clear tch
  unfold Sys2Proof.Machine.execKxTimeout
  repeat' first
    | with_reducible assumption
    | with_reducible apply Fits.reach
    | with_reducible apply Fits.kxEnd
    | with_reducible apply FitsOut.ite
    | with_reducible apply FitsOut.next
    | with_reducible apply FitsOut.fault
    | (intro _)
    | with_reducible apply Fits.ite
    | dsimp only
    | split
    | (refine Fits.pair ‹_ = (_, _)› ?_)
    | (refine Fits.pair2 ‹_ = (_, _, _)› ?_)

structure Touches.execKxRestart (N : Part → Prop) (j : Fin 16) : Prop where
  h_cip : N .cip
  h_time : N .time
  k_CIP_KX_STAT_result : N (.reg (F.CIP_KX_STAT_result j.val).key)
  c_kxInit : Touches.kxInit N j.val

theorem FitsOut.execKxRestart (j : Fin 16) (s : State) (h : Fits N s0 s) (tch : Touches.execKxRestart N j) :
    FitsOut N s0 (execKxRestart j s) := by
  have h_cip := tch.h_cip
  have h_time := tch.h_time
  have k_CIP_KX_STAT_result := tch.k_CIP_KX_STAT_result
  have c_kxInit := tch.c_kxInit
  clear tch
  unfold Sys2Proof.Machine.execKxRestart
  repeat' first
    | with_reducible assumption
    | with_reducible apply k_CIP_KX_STAT_result
    | with_reducible apply Fits.setF
    | with_reducible apply Fits.reach
    | with_reducible apply Fits.modKx
    | with_reducible apply Fits.kxInit
    | with_reducible apply FitsOut.ite
    | with_reducible apply FitsOut.next
    | with_reducible apply FitsOut.fault
    | (intro _)
    | with_reducible apply Fits.ite
    | dsimp only
    | split
    | (refine Fits.pair ‹_ = (_, _)› ?_)
    | (refine Fits.pair2 ‹_ = (_, _, _)› ?_)

structure Touches.execCoreTestStart (N : Part → Prop) (c : Fin 8) : Prop where
  h_cip : N .cip
  h_ev : N .ev
  h_time : N .time
  k_CIP_CNT_count : N (.reg (F.CIP_CNT_count 1).key)
  k_CIP_CNT_count_1 : N (.reg (F.CIP_CNT_count 2).key)
  k_CIP_CORE_STAT_state : N (.reg (F.CIP_CORE_STAT_state c.val).key)
  c_cipherLoad : Touches.cipherLoad N

theorem FitsOut.execCoreTestStart (c : Fin 8) (chunks : Nat) (s : State) (h : Fits N s0 s) (tch : Touches.execCoreTestStart N c) :
    FitsOut N s0 (execCoreTestStart c chunks s) := by
  obtain ⟨h_cip, h_ev, h_time, k_CIP_CNT_count, k_CIP_CNT_count_1, k_CIP_CORE_STAT_state, c_cipherLoad⟩ := tch
  unfold Sys2Proof.Machine.execCoreTestStart
  repeat' first
    | with_reducible assumption
    | with_reducible apply k_CIP_CNT_count
    | with_reducible apply k_CIP_CNT_count_1
    | with_reducible apply k_CIP_CORE_STAT_state
    | with_reducible apply Fits.setF
    | with_reducible apply Fits.bump
    | with_reducible apply Fits.reach
    | with_reducible apply Fits.datapath
    | with_reducible apply Fits.cipherLoad
    | with_reducible apply FitsOut.ite
    | with_reducible apply FitsOut.next
    | with_reducible apply FitsOut.fault
    | (intro _)
    | with_reducible apply Fits.ite
    | dsimp only
    | split
    | (refine Fits.pair ‹_ = (_, _)› ?_)
    | (refine Fits.pair2 ‹_ = (_, _, _)› ?_)
    | with_reducible apply Fits.upd_cip

structure Touches.execCoreTestDone (N : Part → Prop) (c : Fin 8) : Prop where
  h_time : N .time
  k_CIP_CNT_count : N (.reg (F.CIP_CNT_count 3).key)
  k_CIP_CORE_STAT_state : N (.reg (F.CIP_CORE_STAT_state c.val).key)
  k_CIP_CORE_STAT_suspect : N (.reg (F.CIP_CORE_STAT_suspect c.val).key)
  c_evt : Touches.evt N 0xC8
  c_cipherLoad : Touches.cipherLoad N

theorem FitsOut.execCoreTestDone (c : Fin 8) (ok : Bool) (s : State) (h : Fits N s0 s) (tch : Touches.execCoreTestDone N c) :
    FitsOut N s0 (execCoreTestDone c ok s) := by
  obtain ⟨h_time, k_CIP_CNT_count, k_CIP_CORE_STAT_state, k_CIP_CORE_STAT_suspect, c_evt, c_cipherLoad⟩ := tch
  unfold Sys2Proof.Machine.execCoreTestDone
  repeat' first
    | with_reducible assumption
    | with_reducible apply k_CIP_CNT_count
    | with_reducible apply k_CIP_CORE_STAT_state
    | with_reducible apply k_CIP_CORE_STAT_suspect
    | with_reducible apply Fits.setF
    | with_reducible apply Fits.setB
    | with_reducible apply Fits.bump
    | with_reducible apply Fits.reach
    | with_reducible apply Fits.evt
    | with_reducible apply Fits.cipherLoad
    | with_reducible apply FitsOut.ite
    | with_reducible apply FitsOut.next
    | with_reducible apply FitsOut.fault
    | (intro _)
    | with_reducible apply Fits.ite
    | dsimp only
    | split
    | (refine Fits.pair ‹_ = (_, _)› ?_)
    | (refine Fits.pair2 ‹_ = (_, _, _)› ?_)

structure Touches.cipErase (N : Part → Prop) : Prop where
  h_cip : N .cip
  k_CIP_KX_STAT_state : ∀ (a0 : Nat), N (.reg (F.CIP_KX_STAT_state a0).key)
  c_saReport : ∀ (a0 : Nat), Touches.saReport N a0
  c_saBlock : ∀ (a0 : Nat), Touches.saBlock N a0

theorem Fits.cipErase (reason : Nat) (s : State) (h : Fits N s0 s) (tch : Touches.cipErase N) :
    Fits N s0 (cipErase reason s) := by
  obtain ⟨h_cip, k_CIP_KX_STAT_state, c_saReport, c_saBlock⟩ := tch
  unfold Sys2Proof.Machine.cipErase
  repeat' first
    | with_reducible assumption
    | with_reducible apply k_CIP_KX_STAT_state
    | with_reducible exact c_saReport _
    | with_reducible exact c_saBlock _
    | with_reducible apply Fits.setF
    | with_reducible apply Fits.saReport
    | with_reducible apply Fits.saBlock
    | with_reducible apply Fits.forEach
    | (intro _)
    | with_reducible apply Fits.ite
    | dsimp only
    | split
    | (refine Fits.pair ‹_ = (_, _)› ?_)
    | (refine Fits.pair2 ‹_ = (_, _, _)› ?_)
    | with_reducible apply Fits.upd_cip

structure Touches.queuePacket (N : Part → Prop) : Prop where
  c_modTxCont : ∀ (a0 : Nat), Touches.modTxCont N a0

theorem Fits.queuePacket (le : Nat) (c : Nat) (leaf : Nat) (frame : List Byte) (s : State) (h : Fits N s0 s) (tch : Touches.queuePacket N) :
    Fits N s0 (queuePacket le c leaf frame s) := by
  obtain ⟨c_modTxCont⟩ := tch
  unfold Sys2Proof.Machine.queuePacket
  repeat' first
    | with_reducible assumption
    | with_reducible exact c_modTxCont _
    | with_reducible apply Fits.modTxCont
    | (intro _)
    | with_reducible apply Fits.ite
    | dsimp only
    | split
    | (refine Fits.pair ‹_ = (_, _)› ?_)
    | (refine Fits.pair2 ‹_ = (_, _, _)› ?_)

structure Touches.execPacketRelease (N : Part → Prop) : Prop where
  h_ev : N .ev
  c_clsCount : ∀ (a0 : Nat), Touches.clsCount N a0 8
  c_clsCount_1 : ∀ (a0 : Nat), Touches.clsCount N a0 9
  c_setPkts : Touches.setPkts N
  c_queuePacket : Touches.queuePacket N

theorem FitsOut.execPacketRelease (id : Nat) (s : State) (h : Fits N s0 s) (tch : Touches.execPacketRelease N) :
    FitsOut N s0 (execPacketRelease id s) := by
  obtain ⟨h_ev, c_clsCount, c_clsCount_1, c_setPkts, c_queuePacket⟩ := tch
  unfold Sys2Proof.Machine.execPacketRelease
  repeat' first
    | with_reducible assumption
    | with_reducible exact c_clsCount _
    | with_reducible exact c_clsCount_1 _
    | with_reducible apply Fits.datapath
    | with_reducible apply Fits.clsCount
    | with_reducible apply Fits.setPkts
    | with_reducible apply Fits.queuePacket
    | with_reducible apply FitsOut.ite
    | with_reducible apply FitsOut.next
    | with_reducible apply FitsOut.fault
    | (intro _)
    | with_reducible apply Fits.ite
    | dsimp only
    | split
    | (refine Fits.pair ‹_ = (_, _)› ?_)
    | (refine Fits.pair2 ‹_ = (_, _, _)› ?_)

structure Touches.sendMsgs (N : Part → Prop) (le : Nat) : Prop where
  k_LE_P2MP_LMSG_STAT_queued : N (.reg (F.LE_P2MP_LMSG_STAT_queued le).key)
  h_p2mp : N (.p2mp ((le : Nat) != 0))
  c_ohPut : Touches.ohPut N le
  c_ctrlTag : Touches.ctrlTag N

theorem Fits.sendMsgs (le : Nat) (s : State) (h : Fits N s0 s) (tch : Touches.sendMsgs N le) :
    Fits N s0 (sendMsgs le s) := by
  obtain ⟨k_LE_P2MP_LMSG_STAT_queued, h_p2mp, c_ohPut, c_ctrlTag⟩ := tch
  unfold Sys2Proof.Machine.sendMsgs
  repeat' first
    | with_reducible assumption
    | with_reducible apply k_LE_P2MP_LMSG_STAT_queued
    | with_reducible apply Fits.setF
    | with_reducible apply Fits.modP2
    | with_reducible apply Fits.ohPut
    | with_reducible apply Fits.ctrlTag
    | with_reducible apply Fits.forEach
    | (intro _)
    | with_reducible apply Fits.ite
    | dsimp only
    | split
    | (refine Fits.pair ‹_ = (_, _)› ?_)
    | (refine Fits.pair2 ‹_ = (_, _, _)› ?_)

structure Touches.unitPut (N : Part → Prop) (le : Nat) : Prop where
  h_glf : N (.glf ((le : Nat) != 0))

theorem Fits.unitPut (le : Nat) (c : Nat) (u : TxUnit) (s : State) (h : Fits N s0 s) (tch : Touches.unitPut N le) :
    Fits N s0 (unitPut le c u s) := by
  obtain ⟨h_glf⟩ := tch
  unfold Sys2Proof.Machine.unitPut
  repeat' first
    | with_reducible assumption
    | with_reducible apply Fits.modGlf
    | (intro _)
    | with_reducible apply Fits.ite
    | dsimp only
    | split
    | (refine Fits.pair ‹_ = (_, _)› ?_)
    | (refine Fits.pair2 ‹_ = (_, _, _)› ?_)

structure Touches.unitSealed (N : Part → Prop) (le : Nat) : Prop where
  h_cip : N .cip
  c_unitPut : Touches.unitPut N le

theorem Fits.unitSealed (le : Nat) (c : Nat) (fc : Nat) (i : Nat) (jc : Nat) (s : State) (h : Fits N s0 s) (tch : Touches.unitSealed N le) :
    Fits N s0 (unitSealed le c fc i jc s) := by
  obtain ⟨h_cip, c_unitPut⟩ := tch
  unfold Sys2Proof.Machine.unitSealed
  repeat' first
    | with_reducible assumption
    | with_reducible apply Fits.unitPut
    | (intro _)
    | with_reducible apply Fits.ite
    | dsimp only
    | split
    | (refine Fits.pair ‹_ = (_, _)› ?_)
    | (refine Fits.pair2 ‹_ = (_, _, _)› ?_)
    | with_reducible apply Fits.upd_cip

structure Touches.unitSecured (N : Part → Prop) (le : Nat) (i : Nat) : Prop where
  c_plainUnit : Touches.plainUnit N le
  c_dataTxUnit : Touches.dataTxUnit N i
  c_unitSealed : Touches.unitSealed N le

theorem Fits.unitSecured (le : Nat) (c : Nat) (fc : Nat) (i : Nat) (s : State) (h : Fits N s0 s) (tch : Touches.unitSecured N le i) :
    Fits N s0 (unitSecured le c fc i s) := by
  obtain ⟨c_plainUnit, c_dataTxUnit, c_unitSealed⟩ := tch
  unfold Sys2Proof.Machine.unitSecured
  repeat' first
    | with_reducible assumption
    | with_reducible apply Fits.plainUnit
    | with_reducible apply Fits.dataTxUnit
    | with_reducible apply Fits.unitSealed
    | (intro _)
    | with_reducible apply Fits.ite
    | dsimp only
    | split
    | (refine Fits.pair ‹_ = (_, _)› ?_)
    | (refine Fits.pair2 ‹_ = (_, _, _)› ?_)

structure Touches.unitBare (N : Part → Prop) (le : Nat) : Prop where
  c_plainUnit : Touches.plainUnit N le
  c_unitPut : Touches.unitPut N le

theorem Fits.unitBare (le : Nat) (c : Nat) (fc : Nat) (s : State) (h : Fits N s0 s) (tch : Touches.unitBare N le) :
    Fits N s0 (unitBare le c fc s) := by
  obtain ⟨c_plainUnit, c_unitPut⟩ := tch
  unfold Sys2Proof.Machine.unitBare
  repeat' first
    | with_reducible assumption
    | with_reducible apply Fits.plainUnit
    | with_reducible apply Fits.unitPut
    | (intro _)
    | with_reducible apply Fits.ite
    | dsimp only
    | split
    | (refine Fits.pair ‹_ = (_, _)› ?_)
    | (refine Fits.pair2 ‹_ = (_, _, _)› ?_)

structure Touches.makeUnit (N : Part → Prop) (le : Nat) : Prop where
  c_unitSecured : ∀ (a1 : Nat), Touches.unitSecured N le a1
  c_unitBare : Touches.unitBare N le

theorem Fits.makeUnit (le : Nat) (c : Nat) (fc : Nat) (s : State) (h : Fits N s0 s) (tch : Touches.makeUnit N le) :
    Fits N s0 (makeUnit le c fc s) := by
  obtain ⟨c_unitSecured, c_unitBare⟩ := tch
  unfold Sys2Proof.Machine.makeUnit
  repeat' first
    | with_reducible assumption
    | with_reducible exact c_unitSecured _
    | with_reducible apply Fits.unitSecured
    | with_reducible apply Fits.unitBare
    | (intro _)
    | with_reducible apply Fits.ite
    | dsimp only
    | split
    | (refine Fits.pair ‹_ = (_, _)› ?_)
    | (refine Fits.pair2 ‹_ = (_, _, _)› ?_)

structure Touches.makeUnits (N : Part → Prop) : Prop where
  c_makeUnit : ∀ (a0 : Nat), Touches.makeUnit N a0

theorem Fits.makeUnits (le : Nat) (fc : Nat) (s : State) (h : Fits N s0 s) (tch : Touches.makeUnits N) :
    Fits N s0 (makeUnits le fc s) := by
  obtain ⟨c_makeUnit⟩ := tch
  unfold Sys2Proof.Machine.makeUnits
  repeat' first
    | with_reducible assumption
    | with_reducible exact c_makeUnit _
    | with_reducible apply Fits.makeUnit
    | with_reducible apply Fits.forEach
    | (intro _)
    | with_reducible apply Fits.ite
    | dsimp only
    | split
    | (refine Fits.pair ‹_ = (_, _)› ?_)
    | (refine Fits.pair2 ‹_ = (_, _, _)› ?_)

structure Touches.execGlfFrameTx (N : Part → Prop) (le : Fin 2) : Prop where
  c_glfFrameTx : Touches.glfFrameTx N le.val
  c_saPart : Touches.saPart N
  c_sendMsgs : Touches.sendMsgs N le.val
  c_makeUnits : Touches.makeUnits N

theorem FitsOut.execGlfFrameTx (le : Fin 2) (s : State) (h : Fits N s0 s) (tch : Touches.execGlfFrameTx N le) :
    FitsOut N s0 (execGlfFrameTx le s) := by
  obtain ⟨c_glfFrameTx, c_saPart, c_sendMsgs, c_makeUnits⟩ := tch
  unfold Sys2Proof.Machine.execGlfFrameTx
  repeat' first
    | with_reducible assumption
    | with_reducible apply Fits.glfFrameTx
    | with_reducible apply Fits.saPart
    | with_reducible apply Fits.sendMsgs
    | with_reducible apply Fits.makeUnits
    | with_reducible apply FitsOut.ite
    | with_reducible apply FitsOut.next
    | with_reducible apply FitsOut.fault
    | (intro _)
    | with_reducible apply Fits.ite
    | dsimp only
    | split
    | (refine Fits.pair ‹_ = (_, _)› ?_)
    | (refine Fits.pair2 ‹_ = (_, _, _)› ?_)

end Sys2Proof.Machine
end

