-- ==== Sys2Proof/Laws/FitsMapping.lean ====
section
/-! SUPPORT. What the operations of Machine/Mapping.lean touch (a structure of parts for each, over those of the operations it calls), and
that each keeps the canonical form. -/
set_option linter.unusedTactic false
set_option linter.unreachableTactic false
namespace Sys2Proof.Machine

variable {N : Part → Prop} {s0 : State}

structure Touches.joinBundle (N : Part → Prop) (le : Nat) : Prop where
  h_tx : N (.tx ((le : Nat) != 0))

theorem Fits.joinBundle (le : Nat) (old : Tbl Nat) (s : State) (h : Fits N s0 s) (tch : Touches.joinBundle N le) :
    Fits N s0 (joinBundle le old s) := by
  obtain ⟨h_tx⟩ := tch
  unfold Sys2Proof.Machine.joinBundle
  repeat' first
    | with_reducible assumption
    | with_reducible apply Fits.modTx
    | (intro _)
    | with_reducible apply Fits.ite
    | dsimp only
    | split
    | (refine Fits.pair ‹_ = (_, _)› ?_)
    | (refine Fits.pair2 ‹_ = (_, _, _)› ?_)

structure Touches.deskewAlloc (N : Part → Prop) : Prop where
  h_buf : N .buf
  k_MAP_GRP_PAGES_pages : ∀ (a0 : Nat) (a1 : Nat), N (.reg (F.MAP_GRP_PAGES_pages a0 a1).key)
  c_deskewUsed : Touches.deskewUsed N

theorem Fits.deskewAlloc (s : State) (h : Fits N s0 s) (tch : Touches.deskewAlloc N) :
    Fits N s0 (deskewAlloc s) := by
  obtain ⟨h_buf, k_MAP_GRP_PAGES_pages, c_deskewUsed⟩ := tch
  unfold Sys2Proof.Machine.deskewAlloc
  repeat' first
    | with_reducible assumption
    | with_reducible apply k_MAP_GRP_PAGES_pages
    | with_reducible apply Fits.setF
    | (with_reducible refine Fits.modBuf _ _ ?_ ‹_› fun _ => rfl)
    | with_reducible apply Fits.deskewUsed
    | with_reducible apply Fits.forEach
    | with_reducible apply Fits.foldlPair
    | with_reducible apply Fits.foldl
    | (intro _)
    | with_reducible apply Fits.ite
    | dsimp only
    | split
    | (refine Fits.pair ‹_ = (_, _)› ?_)
    | (refine Fits.pair2 ‹_ = (_, _, _)› ?_)

structure Touches.mspSend (N : Part → Prop) : Prop where
  h_grp : N .grp
  c_ohPut : ∀ (a0 : Nat), Touches.ohPut N a0

theorem Fits.mspSend (g : Nat) (dir : Nat) (msg : Nat) (active : Nat) (next : Nat) (fc : Nat) (reason : Nat) (s : State) (h : Fits N s0 s) (tch : Touches.mspSend N) :
    Fits N s0 (mspSend g dir msg active next fc reason s) := by
  obtain ⟨h_grp, c_ohPut⟩ := tch
  unfold Sys2Proof.Machine.mspSend
  repeat' first
    | with_reducible assumption
    | with_reducible exact c_ohPut _
    | with_reducible apply Fits.ohPut
    | with_reducible apply Fits.modGrp
    | with_reducible apply Fits.forEach
    | (intro _)
    | with_reducible apply Fits.ite
    | dsimp only
    | split
    | (refine Fits.pair ‹_ = (_, _)› ?_)
    | (refine Fits.pair2 ‹_ = (_, _, _)› ?_)

structure Touches.mspSource (N : Part → Prop) : Prop where
  c_mspSend : Touches.mspSend N

theorem Fits.mspSource (g : Nat) (s : State) (h : Fits N s0 s) (tch : Touches.mspSource N) :
    Fits N s0 (mspSource g s) := by
  obtain ⟨c_mspSend⟩ := tch
  unfold Sys2Proof.Machine.mspSource
  repeat' first
    | with_reducible assumption
    | with_reducible apply Fits.mspSend
    | (intro _)
    | with_reducible apply Fits.ite
    | dsimp only
    | split
    | (refine Fits.pair ‹_ = (_, _)› ?_)
    | (refine Fits.pair2 ‹_ = (_, _, _)› ?_)

structure Touches.setActive (N : Part → Prop) (g : Nat) : Prop where
  h_grp : N .grp
  k_MAP_GRP_ST_active_set : N (.reg (F.MAP_GRP_ST_active_set (g / 32) (g % 32)).key)

theorem Fits.setActive (g : Nat) (sink : Bool) (v : Nat) (s : State) (h : Fits N s0 s) (tch : Touches.setActive N g) :
    Fits N s0 (setActive g sink v s) := by
  obtain ⟨h_grp, k_MAP_GRP_ST_active_set⟩ := tch
  unfold Sys2Proof.Machine.setActive
  repeat' first
    | with_reducible assumption
    | with_reducible apply k_MAP_GRP_ST_active_set
    | with_reducible apply Fits.setF
    | with_reducible apply Fits.modGrp
    | (intro _)
    | with_reducible apply Fits.ite
    | dsimp only
    | split
    | (refine Fits.pair ‹_ = (_, _)› ?_)
    | (refine Fits.pair2 ‹_ = (_, _, _)› ?_)

structure Touches.mspGo (N : Part → Prop) (g : Nat) : Prop where
  k_MAP_GRP_ST_msp_state : N (.reg (F.MAP_GRP_ST_msp_state (g / 32) (g % 32)).key)

theorem Fits.mspGo (g : Nat) (v : Nat) (s : State) (h : Fits N s0 s) (tch : Touches.mspGo N g) :
    Fits N s0 (mspGo g v s) := by
  obtain ⟨k_MAP_GRP_ST_msp_state⟩ := tch
  unfold Sys2Proof.Machine.mspGo
  repeat' first
    | with_reducible assumption
    | with_reducible apply k_MAP_GRP_ST_msp_state
    | with_reducible apply Fits.setF
    | (intro _)
    | with_reducible apply Fits.ite
    | dsimp only
    | split
    | (refine Fits.pair ‹_ = (_, _)› ?_)
    | (refine Fits.pair2 ‹_ = (_, _, _)› ?_)

structure Touches.sinkGo (N : Part → Prop) (g : Nat) : Prop where
  k_MAP_GRP_ST_sink_state : N (.reg (F.MAP_GRP_ST_sink_state (g / 32) (g % 32)).key)

theorem Fits.sinkGo (g : Nat) (v : Nat) (s : State) (h : Fits N s0 s) (tch : Touches.sinkGo N g) :
    Fits N s0 (sinkGo g v s) := by
  obtain ⟨k_MAP_GRP_ST_sink_state⟩ := tch
  unfold Sys2Proof.Machine.sinkGo
  repeat' first
    | with_reducible assumption
    | with_reducible apply k_MAP_GRP_ST_sink_state
    | with_reducible apply Fits.setF
    | (intro _)
    | with_reducible apply Fits.ite
    | dsimp only
    | split
    | (refine Fits.pair ‹_ = (_, _)› ?_)
    | (refine Fits.pair2 ‹_ = (_, _, _)› ?_)

structure Touches.propose (N : Part → Prop) (g : Nat) : Prop where
  h_grp : N .grp
  c_mspSource : Touches.mspSource N
  c_mspGo : Touches.mspGo N g

theorem Fits.propose (g : Nat) (set' : Nat) (s : State) (h : Fits N s0 s) (tch : Touches.propose N g) :
    Fits N s0 (propose g set' s) := by
  obtain ⟨h_grp, c_mspSource, c_mspGo⟩ := tch
  unfold Sys2Proof.Machine.propose
  repeat' first
    | with_reducible assumption
    | with_reducible apply Fits.modGrp
    | with_reducible apply Fits.mspSource
    | with_reducible apply Fits.mspGo
    | (intro _)
    | with_reducible apply Fits.ite
    | dsimp only
    | split
    | (refine Fits.pair ‹_ = (_, _)› ?_)
    | (refine Fits.pair2 ‹_ = (_, _, _)› ?_)

structure Touches.mapApply (N : Part → Prop) : Prop where
  h_grp : N .grp
  k_MAP_GRP_ST_active_set : ∀ (a0 : Nat) (a1 : Nat), N (.reg (F.MAP_GRP_ST_active_set a0 a1).key)
  k_MAP_GRP_ST_sel : ∀ (a0 : Nat) (a1 : Nat), N (.reg (F.MAP_GRP_ST_sel a0 a1).key)
  c_deskewAlloc : Touches.deskewAlloc N
  c_setActive : ∀ (a0 : Nat), Touches.setActive N a0
  c_mspGo : ∀ (a0 : Nat), Touches.mspGo N a0
  c_sinkGo : ∀ (a0 : Nat), Touches.sinkGo N a0
  c_propose : ∀ (a0 : Nat), Touches.propose N a0

theorem Fits.mapApply (old : Tbl Nat) (s : State) (h : Fits N s0 s) (tch : Touches.mapApply N) :
    Fits N s0 (mapApply old s) := by
  obtain ⟨h_grp, k_MAP_GRP_ST_active_set, k_MAP_GRP_ST_sel, c_deskewAlloc, c_setActive, c_mspGo, c_sinkGo, c_propose⟩ := tch
  unfold Sys2Proof.Machine.mapApply
  repeat' first
    | with_reducible assumption
    | with_reducible apply k_MAP_GRP_ST_active_set
    | with_reducible apply k_MAP_GRP_ST_sel
    | with_reducible exact c_setActive _
    | with_reducible exact c_mspGo _
    | with_reducible exact c_sinkGo _
    | with_reducible exact c_propose _
    | with_reducible apply Fits.setF
    | with_reducible apply Fits.modGrp
    | with_reducible apply Fits.deskewAlloc
    | with_reducible apply Fits.setActive
    | with_reducible apply Fits.mspGo
    | with_reducible apply Fits.sinkGo
    | with_reducible apply Fits.propose
    | with_reducible apply Fits.forEach
    | (intro _)
    | with_reducible apply Fits.ite
    | dsimp only
    | split
    | (refine Fits.pair ‹_ = (_, _)› ?_)
    | (refine Fits.pair2 ‹_ = (_, _, _)› ?_)

structure Touches.execPropose (N : Part → Prop) : Prop where
  h_grp : N .grp
  c_mspSend : Touches.mspSend N
  c_sinkGo : ∀ (a0 : Nat), Touches.sinkGo N a0

theorem FitsOut.execPropose (body : List Byte) (fits : Bool) (s : State) (h : Fits N s0 s) (tch : Touches.execPropose N) :
    FitsOut N s0 (execPropose body fits s) := by
  obtain ⟨h_grp, c_mspSend, c_sinkGo⟩ := tch
  unfold Sys2Proof.Machine.execPropose
  repeat' first
    | with_reducible assumption
    | with_reducible exact c_sinkGo _
    | with_reducible apply Fits.modGrp
    | with_reducible apply Fits.mspSend
    | with_reducible apply Fits.sinkGo
    | with_reducible apply FitsOut.ite
    | with_reducible apply FitsOut.next
    | with_reducible apply FitsOut.fault
    | (intro _)
    | with_reducible apply Fits.ite
    | dsimp only
    | split
    | (refine Fits.pair ‹_ = (_, _)› ?_)
    | (refine Fits.pair2 ‹_ = (_, _, _)› ?_)

structure Touches.execAccept (N : Part → Prop) : Prop where
  h_grp : N .grp
  c_mspSource : Touches.mspSource N
  c_mspGo : ∀ (a0 : Nat), Touches.mspGo N a0

theorem FitsOut.execAccept (body : List Byte) (s : State) (h : Fits N s0 s) (tch : Touches.execAccept N) :
    FitsOut N s0 (execAccept body s) := by
  obtain ⟨h_grp, c_mspSource, c_mspGo⟩ := tch
  unfold Sys2Proof.Machine.execAccept
  repeat' first
    | with_reducible assumption
    | with_reducible exact c_mspGo _
    | with_reducible apply Fits.modGrp
    | with_reducible apply Fits.mspSource
    | with_reducible apply Fits.mspGo
    | with_reducible apply FitsOut.ite
    | with_reducible apply FitsOut.next
    | with_reducible apply FitsOut.fault
    | (intro _)
    | with_reducible apply Fits.ite
    | dsimp only
    | split
    | (refine Fits.pair ‹_ = (_, _)› ?_)
    | (refine Fits.pair2 ‹_ = (_, _, _)› ?_)

structure Touches.mspReason (N : Part → Prop) : Prop where
  k_MAP_MSP_STAT_group : N (.reg F.MAP_MSP_STAT_group.key)
  k_MAP_MSP_STAT_reason : N (.reg F.MAP_MSP_STAT_reason.key)

theorem Fits.mspReason (g : Nat) (r : Nat) (s : State) (h : Fits N s0 s) (tch : Touches.mspReason N) :
    Fits N s0 (mspReason g r s) := by
  obtain ⟨k_MAP_MSP_STAT_group, k_MAP_MSP_STAT_reason⟩ := tch
  unfold Sys2Proof.Machine.mspReason
  repeat' first
    | with_reducible assumption
    | with_reducible apply k_MAP_MSP_STAT_group
    | with_reducible apply k_MAP_MSP_STAT_reason
    | with_reducible apply Fits.setF
    | (intro _)
    | with_reducible apply Fits.ite
    | dsimp only
    | split
    | (refine Fits.pair ‹_ = (_, _)› ?_)
    | (refine Fits.pair2 ‹_ = (_, _, _)› ?_)

structure Touches.execReject (N : Part → Prop) : Prop where
  c_evt : Touches.evt N 0xAA
  c_mspGo : ∀ (a0 : Nat), Touches.mspGo N a0
  c_mspReason : Touches.mspReason N

theorem FitsOut.execReject (body : List Byte) (s : State) (h : Fits N s0 s) (tch : Touches.execReject N) :
    FitsOut N s0 (execReject body s) := by
  obtain ⟨c_evt, c_mspGo, c_mspReason⟩ := tch
  unfold Sys2Proof.Machine.execReject
  repeat' first
    | with_reducible assumption
    | with_reducible exact c_mspGo _
    | with_reducible apply Fits.evt
    | with_reducible apply Fits.mspGo
    | with_reducible apply Fits.mspReason
    | with_reducible apply FitsOut.ite
    | with_reducible apply FitsOut.next
    | with_reducible apply FitsOut.fault
    | (intro _)
    | with_reducible apply Fits.ite
    | dsimp only
    | split
    | (refine Fits.pair ‹_ = (_, _)› ?_)
    | (refine Fits.pair2 ‹_ = (_, _, _)› ?_)

structure Touches.execMspProposeTimeout (N : Part → Prop) (g : Fin 64) : Prop where
  h_drawn : N .drawn
  h_time : N .time
  c_evt : Touches.evt N 0xAA
  c_mspGo : Touches.mspGo N g.val
  c_mspReason : Touches.mspReason N

theorem FitsOut.execMspProposeTimeout (g : Fin 64) (s : State) (h : Fits N s0 s) (tch : Touches.execMspProposeTimeout N g) :
    FitsOut N s0 (execMspProposeTimeout g s) := by
  obtain ⟨h_drawn, h_time, c_evt, c_mspGo, c_mspReason⟩ := tch
  unfold Sys2Proof.Machine.execMspProposeTimeout
  repeat' first
    | with_reducible assumption
    | with_reducible apply Fits.draw
    | with_reducible apply Fits.reach
    | with_reducible apply Fits.evt
    | with_reducible apply Fits.mspGo
    | with_reducible apply Fits.mspReason
    | with_reducible apply FitsOut.ite
    | with_reducible apply FitsOut.next
    | with_reducible apply FitsOut.fault
    | (intro _)
    | with_reducible apply Fits.ite
    | dsimp only
    | split
    | (refine Fits.pair ‹_ = (_, _)› ?_)
    | (refine Fits.pair2 ‹_ = (_, _, _)› ?_)

structure Touches.mspResync (N : Part → Prop) (g : Nat) : Prop where
  h_grp : N .grp
  k_LE_GLF_CNT_count : ∀ (a0 : Nat), N (.reg (F.LE_GLF_CNT_count a0 11).key)
  c_evt : Touches.evt N 0xAA
  c_setActive : Touches.setActive N g
  c_sinkGo : Touches.sinkGo N g

theorem Fits.mspResync (g : Nat) (set' : Nat) (s : State) (h : Fits N s0 s) (tch : Touches.mspResync N g) :
    Fits N s0 (mspResync g set' s) := by
  obtain ⟨h_grp, k_LE_GLF_CNT_count, c_evt, c_setActive, c_sinkGo⟩ := tch
  unfold Sys2Proof.Machine.mspResync
  repeat' first
    | with_reducible assumption
    | with_reducible apply k_LE_GLF_CNT_count
    | with_reducible apply Fits.bump
    | with_reducible apply Fits.evt
    | with_reducible apply Fits.modGrp
    | with_reducible apply Fits.setActive
    | with_reducible apply Fits.sinkGo
    | (intro _)
    | with_reducible apply Fits.ite
    | dsimp only
    | split
    | (refine Fits.pair ‹_ = (_, _)› ?_)
    | (refine Fits.pair2 ‹_ = (_, _, _)› ?_)

structure Touches.execArm (N : Part → Prop) : Prop where
  h_grp : N .grp
  c_sinkGo : ∀ (a0 : Nat), Touches.sinkGo N a0
  c_mspResync : ∀ (a0 : Nat), Touches.mspResync N a0

theorem FitsOut.execArm (body : List Byte) (s : State) (h : Fits N s0 s) (tch : Touches.execArm N) :
    FitsOut N s0 (execArm body s) := by
  obtain ⟨h_grp, c_sinkGo, c_mspResync⟩ := tch
  unfold Sys2Proof.Machine.execArm
  repeat' first
    | with_reducible assumption
    | with_reducible exact c_sinkGo _
    | with_reducible exact c_mspResync _
    | with_reducible apply Fits.modGrp
    | with_reducible apply Fits.sinkGo
    | with_reducible apply Fits.mspResync
    | with_reducible apply FitsOut.ite
    | with_reducible apply FitsOut.next
    | with_reducible apply FitsOut.fault
    | (intro _)
    | with_reducible apply Fits.ite
    | dsimp only
    | split
    | (refine Fits.pair ‹_ = (_, _)› ?_)
    | (refine Fits.pair2 ‹_ = (_, _, _)› ?_)

structure Touches.execMspReadyTimeout (N : Part → Prop) (g : Fin 64) : Prop where
  h_time : N .time
  c_sinkGo : Touches.sinkGo N g.val

theorem FitsOut.execMspReadyTimeout (g : Fin 64) (s : State) (h : Fits N s0 s) (tch : Touches.execMspReadyTimeout N g) :
    FitsOut N s0 (execMspReadyTimeout g s) := by
  obtain ⟨h_time, c_sinkGo⟩ := tch
  unfold Sys2Proof.Machine.execMspReadyTimeout
  repeat' first
    | with_reducible assumption
    | with_reducible apply Fits.reach
    | with_reducible apply Fits.sinkGo
    | with_reducible apply FitsOut.ite
    | with_reducible apply FitsOut.next
    | with_reducible apply FitsOut.fault
    | (intro _)
    | with_reducible apply Fits.ite
    | dsimp only
    | split
    | (refine Fits.pair ‹_ = (_, _)› ?_)
    | (refine Fits.pair2 ‹_ = (_, _, _)› ?_)

structure Touches.execReqRemove (N : Part → Prop) : Prop where
  h_inForce : N .inForce
  h_staged : N .staged
  c_propose : ∀ (a0 : Nat), Touches.propose N a0

theorem FitsOut.execReqRemove (body : List Byte) (s : State) (h : Fits N s0 s) (tch : Touches.execReqRemove N) :
    FitsOut N s0 (execReqRemove body s) := by
  obtain ⟨h_inForce, h_staged, c_propose⟩ := tch
  unfold Sys2Proof.Machine.execReqRemove
  repeat' first
    | with_reducible assumption
    | with_reducible exact c_propose _
    | with_reducible apply Fits.stage
    | with_reducible apply Fits.force
    | with_reducible apply Fits.propose
    | with_reducible apply FitsOut.ite
    | with_reducible apply FitsOut.next
    | with_reducible apply FitsOut.fault
    | (intro _)
    | with_reducible apply Fits.ite
    | dsimp only
    | split
    | (refine Fits.pair ‹_ = (_, _)› ?_)
    | (refine Fits.pair2 ‹_ = (_, _, _)› ?_)

structure Touches.execMspSwitch (N : Part → Prop) (g : Fin 64) : Prop where
  h_grp : N .grp
  c_evt : Touches.evt N 0xAA
  c_setActive : Touches.setActive N g.val
  c_mspGo : Touches.mspGo N g.val

theorem FitsOut.execMspSwitch (g : Fin 64) (s : State) (h : Fits N s0 s) (tch : Touches.execMspSwitch N g) :
    FitsOut N s0 (execMspSwitch g s) := by
  obtain ⟨h_grp, c_evt, c_setActive, c_mspGo⟩ := tch
  unfold Sys2Proof.Machine.execMspSwitch
  repeat' first
    | with_reducible assumption
    | with_reducible apply Fits.evt
    | with_reducible apply Fits.modGrp
    | with_reducible apply Fits.setActive
    | with_reducible apply Fits.mspGo
    | with_reducible apply FitsOut.ite
    | with_reducible apply FitsOut.next
    | with_reducible apply FitsOut.fault
    | (intro _)
    | with_reducible apply Fits.ite
    | dsimp only
    | split
    | (refine Fits.pair ‹_ = (_, _)› ?_)
    | (refine Fits.pair2 ‹_ = (_, _, _)› ?_)

structure Touches.execMspStatus (N : Part → Prop) : Prop where
  h_grp : N .grp
  c_mspResync : ∀ (a0 : Nat), Touches.mspResync N a0

theorem FitsOut.execMspStatus (body : List Byte) (s : State) (h : Fits N s0 s) (tch : Touches.execMspStatus N) :
    FitsOut N s0 (execMspStatus body s) := by
  obtain ⟨h_grp, c_mspResync⟩ := tch
  unfold Sys2Proof.Machine.execMspStatus
  repeat' first
    | with_reducible assumption
    | with_reducible exact c_mspResync _
    | with_reducible apply Fits.modGrp
    | with_reducible apply Fits.mspResync
    | with_reducible apply FitsOut.ite
    | with_reducible apply FitsOut.next
    | with_reducible apply FitsOut.fault
    | (intro _)
    | with_reducible apply Fits.ite
    | dsimp only
    | split
    | (refine Fits.pair ‹_ = (_, _)› ?_)
    | (refine Fits.pair2 ‹_ = (_, _, _)› ?_)

theorem Fits.replacePorts (s : State) (h : Fits N s0 s) (h_lanes : N .lanes) :
    Fits N s0 (replacePorts s) := by
  unfold Sys2Proof.Machine.replacePorts
  repeat' first
    | with_reducible assumption
    | with_reducible apply Fits.foldlPair
    | with_reducible apply Fits.foldl
    | (intro _)
    | with_reducible apply Fits.ite
    | dsimp only
    | split
    | (refine Fits.pair ‹_ = (_, _)› ?_)
    | (refine Fits.pair2 ‹_ = (_, _, _)› ?_)
    | with_reducible apply Fits.upd_lanes

structure Touches.defReport (N : Part → Prop) (le : Nat) : Prop where
  h_lanes : N .lanes
  k_LE_GLF_DEF_def : N (.reg (F.LE_GLF_DEF_def le).key)
  k_LE_GLF_VEC_bits : ∀ (a1 : Nat), N (.reg (F.LE_GLF_VEC_bits le a1).key)
  c_level : Touches.level N (lep le 0x34)
  c_level_1 : Touches.level N 0xAA

theorem Fits.defReport (le : Nat) (s : State) (h : Fits N s0 s) (tch : Touches.defReport N le) :
    Fits N s0 (defReport le s) := by
  obtain ⟨h_lanes, k_LE_GLF_DEF_def, k_LE_GLF_VEC_bits, c_level, c_level_1⟩ := tch
  unfold Sys2Proof.Machine.defReport
  repeat' first
    | with_reducible assumption
    | with_reducible apply k_LE_GLF_DEF_def
    | with_reducible apply k_LE_GLF_VEC_bits
    | with_reducible apply Fits.setF
    | with_reducible apply Fits.level
    | with_reducible apply Fits.replacePorts
    | with_reducible apply Fits.forEach
    | with_reducible apply Fits.foldlPair
    | with_reducible apply Fits.foldl
    | (intro _)
    | with_reducible apply Fits.ite
    | dsimp only
    | split
    | (refine Fits.pair ‹_ = (_, _)› ?_)
    | (refine Fits.pair2 ‹_ = (_, _, _)› ?_)

structure Touches.setDeclared (N : Part → Prop) : Prop where
  h_glf : ∀ b, N (.glf b)
  c_defReport : ∀ (a0 : Nat), Touches.defReport N a0

theorem Fits.setDeclared (d : Nat) (x : DefScope) (v : Bool) (s : State) (h : Fits N s0 s) (tch : Touches.setDeclared N) :
    Fits N s0 (setDeclared d x v s) := by
  obtain ⟨h_glf, c_defReport⟩ := tch
  unfold Sys2Proof.Machine.setDeclared
  repeat' first
    | with_reducible assumption
    | with_reducible exact h_glf _
    | with_reducible exact c_defReport _
    | with_reducible apply Fits.modGlf
    | with_reducible apply Fits.defReport
    | (intro _)
    | with_reducible apply Fits.ite
    | dsimp only
    | split
    | (refine Fits.pair ‹_ = (_, _)› ?_)
    | (refine Fits.pair2 ‹_ = (_, _, _)› ?_)

structure Touches.execDefectDeclare (N : Part → Prop) : Prop where
  c_mspSend : Touches.mspSend N
  c_setDeclared : Touches.setDeclared N

theorem FitsOut.execDefectDeclare (d : Fin 12) (x : DefScope) (noFrame : Bool) (s : State) (h : Fits N s0 s) (tch : Touches.execDefectDeclare N) :
    FitsOut N s0 (execDefectDeclare d x noFrame s) := by
  obtain ⟨c_mspSend, c_setDeclared⟩ := tch
  unfold Sys2Proof.Machine.execDefectDeclare
  refine FitsOut.ite (fun _ => FitsOut.fault) fun _ => ?_
  dsimp only
  refine FitsOut.ite (fun _ => FitsOut.next h) fun _ => ?_
  have ht : Fits N s0 (Machine.setDeclared d.val x true s) := by
    with_reducible apply Fits.setDeclared <;> first | with_reducible assumption
  generalize Machine.setDeclared d.val x true s = t at ht ⊢
  generalize d.val = dv
  split
  · refine FitsOut.ite (fun _ => FitsOut.next ?_) fun _ => FitsOut.next ht
    with_reducible apply Fits.mspSend <;> first | with_reducible assumption
  · exact FitsOut.next ht

structure Touches.execDefectClear (N : Part → Prop) : Prop where
  c_setDeclared : Touches.setDeclared N

theorem FitsOut.execDefectClear (d : Fin 12) (x : DefScope) (s : State) (h : Fits N s0 s) (tch : Touches.execDefectClear N) :
    FitsOut N s0 (execDefectClear d x s) := by
  obtain ⟨c_setDeclared⟩ := tch
  unfold Sys2Proof.Machine.execDefectClear
  repeat' first
    | with_reducible assumption
    | with_reducible apply Fits.setDeclared
    | with_reducible apply FitsOut.ite
    | with_reducible apply FitsOut.next
    | with_reducible apply FitsOut.fault
    | (intro _)
    | with_reducible apply Fits.ite
    | dsimp only
    | split
    | (refine Fits.pair ‹_ = (_, _)› ?_)
    | (refine Fits.pair2 ‹_ = (_, _, _)› ?_)

structure Touches.execMspMsgRepeat (N : Part → Prop) : Prop where
  c_mspSend : Touches.mspSend N
  c_mspSource : Touches.mspSource N

theorem FitsOut.execMspMsgRepeat (g : Fin 64) (sink : Bool) (s : State) (h : Fits N s0 s) (tch : Touches.execMspMsgRepeat N) :
    FitsOut N s0 (execMspMsgRepeat g sink s) := by
  obtain ⟨c_mspSend, c_mspSource⟩ := tch
  unfold Sys2Proof.Machine.execMspMsgRepeat
  repeat' first
    | with_reducible assumption
    | with_reducible apply Fits.mspSend
    | with_reducible apply Fits.mspSource
    | with_reducible apply FitsOut.ite
    | with_reducible apply FitsOut.next
    | with_reducible apply FitsOut.fault
    | (intro _)
    | with_reducible apply Fits.ite
    | dsimp only
    | split
    | (refine Fits.pair ‹_ = (_, _)› ?_)
    | (refine Fits.pair2 ‹_ = (_, _, _)› ?_)

structure Touches.execDeskewRelease (N : Part → Prop) (g : Fin 64) : Prop where
  h_grp : N .grp
  h_lanes : N .lanes
  k_MAP_GRP_DD_dd : N (.reg (F.MAP_GRP_DD_dd (g.val / 32) (g.val % 32)).key)
  k_MAP_GRP_DD_late_member : N (.reg (F.MAP_GRP_DD_late_member (g.val / 32) (g.val % 32)).key)
  k_MAP_GRP_ST_sel : N (.reg (F.MAP_GRP_ST_sel (g.val / 32) (g.val % 32)).key)
  k_MAP_GRP_SWITCHES_switches : N (.reg (F.MAP_GRP_SWITCHES_switches (g.val / 32) (g.val % 32)).key)
  c_level : Touches.level N 0xAA
  c_setActive : Touches.setActive N g.val
  c_sinkGo : Touches.sinkGo N g.val

theorem FitsOut.execDeskewRelease (g : Fin 64) (fc : BitVec 32) (late : List (Fin 16)) (bad : List (Fin 16)) (dd : BitVec 20) (last : Fin 16) (s : State) (h : Fits N s0 s) (tch : Touches.execDeskewRelease N g) :
    FitsOut N s0 (execDeskewRelease g fc late bad dd last s) := by
  obtain ⟨h_grp, h_lanes, k_MAP_GRP_DD_dd, k_MAP_GRP_DD_late_member, k_MAP_GRP_ST_sel, k_MAP_GRP_SWITCHES_switches, c_level, c_setActive, c_sinkGo⟩ := tch
  unfold Sys2Proof.Machine.execDeskewRelease
  repeat' first
    | with_reducible assumption
    | with_reducible apply k_MAP_GRP_DD_dd
    | with_reducible apply k_MAP_GRP_DD_late_member
    | with_reducible apply k_MAP_GRP_ST_sel
    | with_reducible apply k_MAP_GRP_SWITCHES_switches
    | with_reducible apply Fits.setF
    | with_reducible apply Fits.bump
    | with_reducible apply Fits.level
    | with_reducible apply Fits.modGrp
    | with_reducible apply Fits.setActive
    | with_reducible apply Fits.sinkGo
    | with_reducible apply Fits.replacePorts
    | with_reducible apply Fits.foldlPair
    | with_reducible apply Fits.foldl
    | with_reducible apply FitsOut.ite
    | with_reducible apply FitsOut.next
    | with_reducible apply FitsOut.fault
    | (intro _)
    | with_reducible apply Fits.ite
    | dsimp only
    | split
    | (refine Fits.pair ‹_ = (_, _)› ?_)
    | (refine Fits.pair2 ‹_ = (_, _, _)› ?_)

structure Touches.mspCancel (N : Part → Prop) : Prop where
  c_mspGo : ∀ (a0 : Nat), Touches.mspGo N a0
  c_sinkGo : ∀ (a0 : Nat), Touches.sinkGo N a0
  c_mspReason : Touches.mspReason N

theorem Fits.mspCancel (s : State) (h : Fits N s0 s) (tch : Touches.mspCancel N) :
    Fits N s0 (mspCancel s) := by
  obtain ⟨c_mspGo, c_sinkGo, c_mspReason⟩ := tch
  unfold Sys2Proof.Machine.mspCancel
  repeat' first
    | with_reducible assumption
    | with_reducible exact c_mspGo _
    | with_reducible exact c_sinkGo _
    | with_reducible apply Fits.mspGo
    | with_reducible apply Fits.sinkGo
    | with_reducible apply Fits.mspReason
    | with_reducible apply Fits.forEach
    | (intro _)
    | with_reducible apply Fits.ite
    | dsimp only
    | split
    | (refine Fits.pair ‹_ = (_, _)› ?_)
    | (refine Fits.pair2 ‹_ = (_, _, _)› ?_)

end Sys2Proof.Machine
end

