-- ==== Sys2Proof/Laws/FitsUbholt.lean ====
section
/-! SUPPORT. What the operations of Machine/Ubholt.lean touch (a structure of parts for each, over those of the operations it calls), and
that each keeps the canonical form. -/
set_option linter.unusedTactic false
set_option linter.unreachableTactic false
namespace Sys2Proof.Machine

variable {N : Part → Prop} {s0 : State}

structure Touches.commitCancel (N : Part → Prop) (d : Nat) : Prop where
  k_PAGE_STAT_commit_armed : N (.reg (F.PAGE_STAT_commit_armed d).key)
  k_PAGE_STAT_commit_err : N (.reg (F.PAGE_STAT_commit_err d).key)
  k_PAGE_STAT_commit_pending : N (.reg (F.PAGE_STAT_commit_pending d).key)
  k_PAGE_STAT_commit_reason : N (.reg (F.PAGE_STAT_commit_reason d).key)
  c_evt : ∀ (a0 : Nat), Touches.evt N a0

theorem Fits.commitCancel (d : Nat) (s : State) (h : Fits N s0 s) (tch : Touches.commitCancel N d) :
    Fits N s0 (commitCancel d s) := by
  obtain ⟨k_PAGE_STAT_commit_armed, k_PAGE_STAT_commit_err, k_PAGE_STAT_commit_pending, k_PAGE_STAT_commit_reason, c_evt⟩ := tch
  unfold Sys2Proof.Machine.commitCancel
  repeat' first
    | with_reducible assumption
    | with_reducible apply k_PAGE_STAT_commit_armed
    | with_reducible apply k_PAGE_STAT_commit_err
    | with_reducible apply k_PAGE_STAT_commit_pending
    | with_reducible apply k_PAGE_STAT_commit_reason
    | with_reducible exact c_evt _
    | with_reducible apply Fits.setF
    | with_reducible apply Fits.setB
    | with_reducible apply Fits.evt
    | (intro _)
    | with_reducible apply Fits.ite
    | dsimp only
    | split
    | (refine Fits.pair ‹_ = (_, _)› ?_)
    | (refine Fits.pair2 ‹_ = (_, _, _)› ?_)

structure Touches.engineStopping (N : Part → Prop) (le : Nat) : Prop where
  k_LE_ROLE_STAT_run_state : N (.reg (F.LE_ROLE_STAT_run_state le).key)
  k_LE_TX_PLAN_STAT_reload_busy : N (.reg (F.LE_TX_PLAN_STAT_reload_busy le).key)
  k_LE_TX_PLAN_STAT_timed_pending : N (.reg (F.LE_TX_PLAN_STAT_timed_pending le).key)
  c_txReport : Touches.txReport N le
  c_txEval : Touches.txEval N le
  c_rxGo : Touches.rxGo N le
  c_leafIdle : Touches.leafIdle N le
  c_commitCancel : Touches.commitCancel N (lep le 0x10)

theorem Fits.engineStopping (le : Nat) (s : State) (h : Fits N s0 s) (tch : Touches.engineStopping N le) :
    Fits N s0 (engineStopping le s) := by
  obtain ⟨k_LE_ROLE_STAT_run_state, k_LE_TX_PLAN_STAT_reload_busy, k_LE_TX_PLAN_STAT_timed_pending, c_txReport, c_txEval, c_rxGo, c_leafIdle, c_commitCancel⟩ := tch
  unfold Sys2Proof.Machine.engineStopping
  repeat' first
    | with_reducible assumption
    | with_reducible apply k_LE_ROLE_STAT_run_state
    | with_reducible apply k_LE_TX_PLAN_STAT_reload_busy
    | with_reducible apply k_LE_TX_PLAN_STAT_timed_pending
    | with_reducible apply Fits.setF
    | with_reducible apply Fits.setB
    | with_reducible apply Fits.txReport
    | with_reducible apply Fits.txEval
    | with_reducible apply Fits.rxGo
    | with_reducible apply Fits.leafIdle
    | with_reducible apply Fits.commitCancel
    | (intro _)
    | with_reducible apply Fits.ite
    | dsimp only
    | split
    | (refine Fits.pair ‹_ = (_, _)› ?_)
    | (refine Fits.pair2 ‹_ = (_, _, _)› ?_)

structure Touches.modUbh (N : Part → Prop) (le : Nat) : Prop where
  h_ubh : N (.ubh ((le : Nat) != 0))

theorem Fits.modUbh (le : Nat) (f : Ubh → Ubh) (s : State) (h : Fits N s0 s) (tch : Touches.modUbh N le) :
    Fits N s0 (modUbh le f s) := by
  obtain ⟨h_ubh⟩ := tch
  unfold Sys2Proof.Machine.modUbh
  repeat' first
    | with_reducible assumption
    | with_reducible apply Fits.modEng
    | with_reducible apply Fits.eng_ubh
    | (intro _)
    | with_reducible apply Fits.ite
    | dsimp only
    | split
    | (refine Fits.pair ‹_ = (_, _)› ?_)
    | (refine Fits.pair2 ‹_ = (_, _, _)› ?_)

structure Touches.ubhCount (N : Part → Prop) (le : Nat) (c : Nat) : Prop where
  k_UBH_CNT_count : N (.reg (F.UBH_CNT_count le c).key)

theorem Fits.ubhCount (le : Nat) (c : Nat) (s : State) (h : Fits N s0 s) (tch : Touches.ubhCount N le c) :
    Fits N s0 (ubhCount le c s) := by
  obtain ⟨k_UBH_CNT_count⟩ := tch
  unfold Sys2Proof.Machine.ubhCount
  repeat' first
    | with_reducible assumption
    | with_reducible apply k_UBH_CNT_count
    | with_reducible apply Fits.bump
    | (intro _)
    | with_reducible apply Fits.ite
    | dsimp only
    | split
    | (refine Fits.pair ‹_ = (_, _)› ?_)
    | (refine Fits.pair2 ‹_ = (_, _, _)› ?_)

structure Touches.ubhCmd (N : Part → Prop) (le : Nat) : Prop where
  c_modUbh : Touches.modUbh N le

theorem Fits.ubhCmd (le : Nat) (code : Nat) (payload : List Byte) (s : State) (h : Fits N s0 s) (tch : Touches.ubhCmd N le) :
    Fits N s0 (ubhCmd le code payload s).2 := by
  obtain ⟨c_modUbh⟩ := tch
  unfold Sys2Proof.Machine.ubhCmd
  repeat' first
    | with_reducible assumption
    | with_reducible apply Fits.modUbh
    | (intro _)
    | with_reducible apply Fits.ite
    | dsimp only
    | split
    | (refine Fits.pair ‹_ = (_, _)› ?_)
    | (refine Fits.pair2 ‹_ = (_, _, _)› ?_)

structure Touches.ubhTake (N : Part → Prop) (le : Nat) : Prop where
  c_modUbh : Touches.modUbh N le
  c_ubhCount : Touches.ubhCount N le 0
  c_ubhCount_1 : Touches.ubhCount N le 3

theorem Fits.ubhTake (le : Nat) (c : UbhCmd) (r : List Byte) (s : State) (h : Fits N s0 s) (tch : Touches.ubhTake N le) :
    Fits N s0 (ubhTake le c r s).2 := by
  obtain ⟨c_modUbh, c_ubhCount, c_ubhCount_1⟩ := tch
  unfold Sys2Proof.Machine.ubhTake
  repeat' first
    | with_reducible assumption
    | with_reducible apply Fits.modUbh
    | with_reducible apply Fits.ubhCount
    | (intro _)
    | with_reducible apply Fits.ite
    | dsimp only
    | split
    | (refine Fits.pair ‹_ = (_, _)› ?_)
    | (refine Fits.pair2 ‹_ = (_, _, _)› ?_)

structure Touches.ovReport (N : Part → Prop) (le : Nat) : Prop where
  k_UBH_STAT_override : N (.reg (F.UBH_STAT_override le).key)

theorem Fits.ovReport (le : Nat) (s : State) (h : Fits N s0 s) (tch : Touches.ovReport N le) :
    Fits N s0 (ovReport le s) := by
  obtain ⟨k_UBH_STAT_override⟩ := tch
  unfold Sys2Proof.Machine.ovReport
  repeat' first
    | with_reducible assumption
    | with_reducible apply k_UBH_STAT_override
    | with_reducible apply Fits.setB
    | (intro _)
    | with_reducible apply Fits.ite
    | dsimp only
    | split
    | (refine Fits.pair ‹_ = (_, _)› ?_)
    | (refine Fits.pair2 ‹_ = (_, _, _)› ?_)

structure Touches.setTx (N : Part → Prop) (le : Nat) : Prop where
  k_UBH_STAT_tx_enabled : N (.reg (F.UBH_STAT_tx_enabled le).key)
  c_evt : Touches.evt N (0xD8 + le)
  c_txEval : Touches.txEval N le

theorem Fits.setTx (le : Nat) (b : Bool) (s : State) (h : Fits N s0 s) (tch : Touches.setTx N le) :
    Fits N s0 (setTx le b s) := by
  obtain ⟨k_UBH_STAT_tx_enabled, c_evt, c_txEval⟩ := tch
  unfold Sys2Proof.Machine.setTx
  repeat' first
    | with_reducible assumption
    | with_reducible apply k_UBH_STAT_tx_enabled
    | with_reducible apply Fits.setB
    | with_reducible apply Fits.evt
    | with_reducible apply Fits.txEval
    | (intro _)
    | with_reducible apply Fits.ite
    | dsimp only
    | split
    | (refine Fits.pair ‹_ = (_, _)› ?_)
    | (refine Fits.pair2 ‹_ = (_, _, _)› ?_)

structure Touches.linkClear (N : Part → Prop) (le : Nat) : Prop where
  k_UBH_STAT_auth : N (.reg (F.UBH_STAT_auth le).key)
  k_UBH_STAT_link : N (.reg (F.UBH_STAT_link le).key)
  k_UBH_STAT_tx_ready : N (.reg (F.UBH_STAT_tx_ready le).key)
  c_modUbh : Touches.modUbh N le
  c_setTx : Touches.setTx N le

theorem Fits.linkClear (le : Nat) (link : Nat) (s : State) (h : Fits N s0 s) (tch : Touches.linkClear N le) :
    Fits N s0 (linkClear le link s) := by
  obtain ⟨k_UBH_STAT_auth, k_UBH_STAT_link, k_UBH_STAT_tx_ready, c_modUbh, c_setTx⟩ := tch
  unfold Sys2Proof.Machine.linkClear
  repeat' first
    | with_reducible assumption
    | with_reducible apply k_UBH_STAT_auth
    | with_reducible apply k_UBH_STAT_link
    | with_reducible apply k_UBH_STAT_tx_ready
    | with_reducible apply Fits.setF
    | with_reducible apply Fits.setB
    | with_reducible apply Fits.modUbh
    | with_reducible apply Fits.setTx
    | (intro _)
    | with_reducible apply Fits.ite
    | dsimp only
    | split
    | (refine Fits.pair ‹_ = (_, _)› ?_)
    | (refine Fits.pair2 ‹_ = (_, _, _)› ?_)

structure Touches.ptEnd (N : Part → Prop) (le : Nat) : Prop where
  k_UBH_PT_STAT_busy : N (.reg (F.UBH_PT_STAT_busy le).key)
  k_UBH_PT_STAT_status : N (.reg (F.UBH_PT_STAT_status le).key)

theorem Fits.ptEnd (le : Nat) (st : Nat) (s : State) (h : Fits N s0 s) (tch : Touches.ptEnd N le) :
    Fits N s0 (ptEnd le st s) := by
  obtain ⟨k_UBH_PT_STAT_busy, k_UBH_PT_STAT_status⟩ := tch
  unfold Sys2Proof.Machine.ptEnd
  repeat' first
    | with_reducible assumption
    | with_reducible apply k_UBH_PT_STAT_busy
    | with_reducible apply k_UBH_PT_STAT_status
    | with_reducible apply Fits.setF
    | with_reducible apply Fits.setB
    | (intro _)
    | with_reducible apply Fits.ite
    | dsimp only
    | split
    | (refine Fits.pair ‹_ = (_, _)› ?_)
    | (refine Fits.pair2 ‹_ = (_, _, _)› ?_)

structure Touches.linkLost (N : Part → Prop) (le : Nat) : Prop where
  c_evt : Touches.evt N (0xD8 + le)
  c_ubhCount : Touches.ubhCount N le 4
  c_linkClear : Touches.linkClear N le
  c_ptEnd : Touches.ptEnd N le

theorem Fits.linkLost (le : Nat) (s : State) (h : Fits N s0 s) (tch : Touches.linkLost N le) :
    Fits N s0 (linkLost le s) := by
  obtain ⟨c_evt, c_ubhCount, c_linkClear, c_ptEnd⟩ := tch
  unfold Sys2Proof.Machine.linkLost
  repeat' first
    | with_reducible assumption
    | with_reducible apply Fits.evt
    | with_reducible apply Fits.ubhCount
    | with_reducible apply Fits.linkClear
    | with_reducible apply Fits.ptEnd
    | (intro _)
    | with_reducible apply Fits.ite
    | dsimp only
    | split
    | (refine Fits.pair ‹_ = (_, _)› ?_)
    | (refine Fits.pair2 ‹_ = (_, _, _)› ?_)

structure Touches.ubhBreak (N : Part → Prop) (le : Nat) : Prop where
  c_modUbh : Touches.modUbh N le
  c_ubhCount : Touches.ubhCount N le 5
  c_linkClear : Touches.linkClear N le
  c_ptEnd : Touches.ptEnd N le

theorem Fits.ubhBreak (le : Nat) (link : Nat) (s : State) (h : Fits N s0 s) (tch : Touches.ubhBreak N le) :
    Fits N s0 (ubhBreak le link s) := by
  obtain ⟨c_modUbh, c_ubhCount, c_linkClear, c_ptEnd⟩ := tch
  unfold Sys2Proof.Machine.ubhBreak
  repeat' first
    | with_reducible assumption
    | with_reducible apply Fits.modUbh
    | with_reducible apply Fits.ubhCount
    | with_reducible apply Fits.linkClear
    | with_reducible apply Fits.ptEnd
    | (intro _)
    | with_reducible apply Fits.ite
    | dsimp only
    | split
    | (refine Fits.pair ‹_ = (_, _)› ?_)
    | (refine Fits.pair2 ‹_ = (_, _, _)› ?_)

structure Touches.ubhRun (N : Part → Prop) (le : Nat) : Prop where
  c_modUbh : Touches.modUbh N le

theorem Fits.ubhRun (le : Nat) (s : State) (h : Fits N s0 s) (tch : Touches.ubhRun N le) :
    Fits N s0 (ubhRun le s) := by
  obtain ⟨c_modUbh⟩ := tch
  unfold Sys2Proof.Machine.ubhRun
  repeat' first
    | with_reducible assumption
    | with_reducible apply Fits.modUbh
    | (intro _)
    | with_reducible apply Fits.ite
    | dsimp only
    | split
    | (refine Fits.pair ‹_ = (_, _)› ?_)
    | (refine Fits.pair2 ‹_ = (_, _, _)› ?_)

structure Touches.setIdentity (N : Part → Prop) (le : Nat) : Prop where
  k_UBH_ID_HI_id : N (.reg (F.UBH_ID_HI_id le).key)
  k_UBH_ID_LO_id : N (.reg (F.UBH_ID_LO_id le).key)
  c_err : Touches.err N (lep le 0x10)
  c_engineStopping : Touches.engineStopping N le
  c_modUbh : Touches.modUbh N le
  c_ovReport : Touches.ovReport N le

theorem Fits.setIdentity (le : Nat) (id : List Byte) (s : State) (h : Fits N s0 s) (tch : Touches.setIdentity N le) :
    Fits N s0 (setIdentity le id s) := by
  obtain ⟨k_UBH_ID_HI_id, k_UBH_ID_LO_id, c_err, c_engineStopping, c_modUbh, c_ovReport⟩ := tch
  unfold Sys2Proof.Machine.setIdentity
  repeat' first
    | with_reducible assumption
    | with_reducible apply k_UBH_ID_HI_id
    | with_reducible apply k_UBH_ID_LO_id
    | with_reducible apply Fits.setF
    | with_reducible apply Fits.err
    | with_reducible apply Fits.engineStopping
    | with_reducible apply Fits.modUbh
    | with_reducible apply Fits.ovReport
    | (intro _)
    | with_reducible apply Fits.ite
    | dsimp only
    | split
    | (refine Fits.pair ‹_ = (_, _)› ?_)
    | (refine Fits.pair2 ‹_ = (_, _, _)› ?_)

structure Touches.authEnd (N : Part → Prop) (le : Nat) : Prop where
  k_UBH_STAT_auth : N (.reg (F.UBH_STAT_auth le).key)
  k_UBH_STAT_link : N (.reg (F.UBH_STAT_link le).key)
  c_evt : Touches.evt N (0xD8 + le)
  c_modUbh : Touches.modUbh N le
  c_setIdentity : Touches.setIdentity N le

theorem Fits.authEnd (le : Nat) (result : Nat) (s : State) (h : Fits N s0 s) (tch : Touches.authEnd N le) :
    Fits N s0 (authEnd le result s) := by
  obtain ⟨k_UBH_STAT_auth, k_UBH_STAT_link, c_evt, c_modUbh, c_setIdentity⟩ := tch
  unfold Sys2Proof.Machine.authEnd
  repeat' first
    | with_reducible assumption
    | with_reducible apply k_UBH_STAT_auth
    | with_reducible apply k_UBH_STAT_link
    | with_reducible apply Fits.setF
    | with_reducible apply Fits.evt
    | with_reducible apply Fits.modUbh
    | with_reducible apply Fits.setIdentity
    | (intro _)
    | with_reducible apply Fits.ite
    | dsimp only
    | split
    | (refine Fits.pair ‹_ = (_, _)› ?_)
    | (refine Fits.pair2 ‹_ = (_, _, _)› ?_)

structure Touches.onHello (N : Part → Prop) (le : Nat) : Prop where
  k_UBH_DECL_bytes : ∀ (a1 : Nat), N (.reg (F.UBH_DECL_bytes le a1).key)
  k_UBH_STAT_link : N (.reg (F.UBH_STAT_link le).key)
  k_UBH_STAT_present : N (.reg (F.UBH_STAT_present le).key)
  c_evt : Touches.evt N (0xD8 + le)
  c_linkLost : Touches.linkLost N le
  c_authEnd : Touches.authEnd N le

theorem Fits.onHello (le : Nat) (p : List Byte) (s : State) (h : Fits N s0 s) (tch : Touches.onHello N le) :
    Fits N s0 (onHello le p s) := by
  obtain ⟨k_UBH_DECL_bytes, k_UBH_STAT_link, k_UBH_STAT_present, c_evt, c_linkLost, c_authEnd⟩ := tch
  unfold Sys2Proof.Machine.onHello
  repeat' first
    | with_reducible assumption
    | with_reducible apply k_UBH_DECL_bytes
    | with_reducible apply k_UBH_STAT_link
    | with_reducible apply k_UBH_STAT_present
    | with_reducible apply Fits.setF
    | with_reducible apply Fits.setB
    | with_reducible apply Fits.evt
    | with_reducible apply Fits.linkLost
    | with_reducible apply Fits.authEnd
    | with_reducible apply Fits.forEach
    | (intro _)
    | with_reducible apply Fits.ite
    | dsimp only
    | split
    | (refine Fits.pair ‹_ = (_, _)› ?_)
    | (refine Fits.pair2 ‹_ = (_, _, _)› ?_)

structure Touches.onCert (N : Part → Prop) (le : Nat) : Prop where
  c_modUbh : Touches.modUbh N le
  c_authEnd : Touches.authEnd N le

theorem Fits.onCert (le : Nat) (p : List Byte) (s : State) (h : Fits N s0 s) (tch : Touches.onCert N le) :
    Fits N s0 (onCert le p s) := by
  obtain ⟨c_modUbh, c_authEnd⟩ := tch
  unfold Sys2Proof.Machine.onCert
  repeat' first
    | with_reducible assumption
    | with_reducible apply Fits.modUbh
    | with_reducible apply Fits.authEnd
    | (intro _)
    | with_reducible apply Fits.ite
    | dsimp only
    | split
    | (refine Fits.pair ‹_ = (_, _)› ?_)
    | (refine Fits.pair2 ‹_ = (_, _, _)› ?_)

structure Touches.onAuth (N : Part → Prop) (le : Nat) : Prop where
  c_modUbh : Touches.modUbh N le
  c_authEnd : Touches.authEnd N le

theorem Fits.onAuth (le : Nat) (p : List Byte) (s : State) (h : Fits N s0 s) (tch : Touches.onAuth N le) :
    Fits N s0 (onAuth le p s) := by
  obtain ⟨c_modUbh, c_authEnd⟩ := tch
  unfold Sys2Proof.Machine.onAuth
  repeat' first
    | with_reducible assumption
    | with_reducible apply Fits.modUbh
    | with_reducible apply Fits.authEnd
    | (intro _)
    | with_reducible apply Fits.ite
    | dsimp only
    | split
    | (refine Fits.pair ‹_ = (_, _)› ?_)
    | (refine Fits.pair2 ‹_ = (_, _, _)› ?_)

structure Touches.setRxLos (N : Part → Prop) (le : Nat) : Prop where
  h_rx : N (.rx ((le : Nat) != 0))
  k_UBH_STAT_rx_los : N (.reg (F.UBH_STAT_rx_los le).key)
  c_losEval : Touches.losEval N le

theorem Fits.setRxLos (le : Nat) (b : Bool) (s : State) (h : Fits N s0 s) (tch : Touches.setRxLos N le) :
    Fits N s0 (setRxLos le b s) := by
  obtain ⟨h_rx, k_UBH_STAT_rx_los, c_losEval⟩ := tch
  unfold Sys2Proof.Machine.setRxLos
  repeat' first
    | with_reducible assumption
    | with_reducible apply k_UBH_STAT_rx_los
    | with_reducible apply Fits.setB
    | with_reducible apply Fits.modRx
    | with_reducible apply Fits.losEval
    | (intro _)
    | with_reducible apply Fits.ite
    | dsimp only
    | split
    | (refine Fits.pair ‹_ = (_, _)› ?_)
    | (refine Fits.pair2 ‹_ = (_, _, _)› ?_)

structure Touches.onStatus (N : Part → Prop) (le : Nat) : Prop where
  k_UBH_STAT_case_temp : N (.reg (F.UBH_STAT_case_temp le).key)
  k_UBH_STAT_tx_ready : N (.reg (F.UBH_STAT_tx_ready le).key)
  c_modUbh : Touches.modUbh N le
  c_setRxLos : Touches.setRxLos N le

theorem Fits.onStatus (le : Nat) (p : List Byte) (s : State) (h : Fits N s0 s) (tch : Touches.onStatus N le) :
    Fits N s0 (onStatus le p s) := by
  obtain ⟨k_UBH_STAT_case_temp, k_UBH_STAT_tx_ready, c_modUbh, c_setRxLos⟩ := tch
  unfold Sys2Proof.Machine.onStatus
  repeat' first
    | with_reducible assumption
    | with_reducible apply k_UBH_STAT_case_temp
    | with_reducible apply k_UBH_STAT_tx_ready
    | with_reducible apply Fits.setF
    | with_reducible apply Fits.setB
    | with_reducible apply Fits.modUbh
    | with_reducible apply Fits.setRxLos
    | (intro _)
    | with_reducible apply Fits.ite
    | dsimp only
    | split
    | (refine Fits.pair ‹_ = (_, _)› ?_)
    | (refine Fits.pair2 ‹_ = (_, _, _)› ?_)

structure Touches.onAlert (N : Part → Prop) (le : Nat) : Prop where
  k_UBH_STAT_alerts : N (.reg (F.UBH_STAT_alerts le).key)
  c_evt : Touches.evt N (0xD8 + le)
  c_modUbh : Touches.modUbh N le
  c_setRxLos : Touches.setRxLos N le

theorem Fits.onAlert (le : Nat) (p : List Byte) (s : State) (h : Fits N s0 s) (tch : Touches.onAlert N le) :
    Fits N s0 (onAlert le p s) := by
  obtain ⟨k_UBH_STAT_alerts, c_evt, c_modUbh, c_setRxLos⟩ := tch
  unfold Sys2Proof.Machine.onAlert
  repeat' first
    | with_reducible assumption
    | with_reducible apply k_UBH_STAT_alerts
    | with_reducible apply Fits.setF
    | with_reducible apply Fits.evt
    | with_reducible apply Fits.modUbh
    | with_reducible apply Fits.setRxLos
    | (intro _)
    | with_reducible apply Fits.ite
    | dsimp only
    | split
    | (refine Fits.pair ‹_ = (_, _)› ?_)
    | (refine Fits.pair2 ‹_ = (_, _, _)› ?_)

structure Touches.eolUpdate (N : Part → Prop) (le : Nat) : Prop where
  k_UBH_EOL_STAT_drift : N (.reg (F.UBH_EOL_STAT_drift le).key)
  k_UBH_EOL_STAT_eol : N (.reg (F.UBH_EOL_STAT_eol le).key)
  k_UBH_EOL_STAT_hours_to_limit : N (.reg (F.UBH_EOL_STAT_hours_to_limit le).key)
  c_level : Touches.level N (0xD8 + le)

theorem Fits.eolUpdate (le : Nat) (p : List Byte) (s : State) (h : Fits N s0 s) (tch : Touches.eolUpdate N le) :
    Fits N s0 (eolUpdate le p s) := by
  obtain ⟨k_UBH_EOL_STAT_drift, k_UBH_EOL_STAT_eol, k_UBH_EOL_STAT_hours_to_limit, c_level⟩ := tch
  unfold Sys2Proof.Machine.eolUpdate
  repeat' first
    | with_reducible assumption
    | with_reducible apply k_UBH_EOL_STAT_drift
    | with_reducible apply k_UBH_EOL_STAT_eol
    | with_reducible apply k_UBH_EOL_STAT_hours_to_limit
    | with_reducible apply Fits.setF
    | with_reducible apply Fits.setB
    | with_reducible apply Fits.level
    | (intro _)
    | with_reducible apply Fits.ite
    | dsimp only
    | split
    | (refine Fits.pair ‹_ = (_, _)› ?_)
    | (refine Fits.pair2 ‹_ = (_, _, _)› ?_)

structure Touches.onLife (N : Part → Prop) (le : Nat) : Prop where
  k_UBH_LIFE_bytes : ∀ (a1 : Nat), N (.reg (F.UBH_LIFE_bytes le a1).key)
  c_evt : Touches.evt N (0xD8 + le)
  c_modUbh : Touches.modUbh N le
  c_eolUpdate : Touches.eolUpdate N le

theorem Fits.onLife (le : Nat) (p : List Byte) (s : State) (h : Fits N s0 s) (tch : Touches.onLife N le) :
    Fits N s0 (onLife le p s) := by
  obtain ⟨k_UBH_LIFE_bytes, c_evt, c_modUbh, c_eolUpdate⟩ := tch
  unfold Sys2Proof.Machine.onLife
  repeat' first
    | with_reducible assumption
    | with_reducible apply k_UBH_LIFE_bytes
    | with_reducible apply Fits.setF
    | with_reducible apply Fits.evt
    | with_reducible apply Fits.modUbh
    | with_reducible apply Fits.eolUpdate
    | with_reducible apply Fits.forEach
    | (intro _)
    | with_reducible apply Fits.ite
    | dsimp only
    | split
    | (refine Fits.pair ‹_ = (_, _)› ?_)
    | (refine Fits.pair2 ‹_ = (_, _, _)› ?_)

structure Touches.onMem (N : Part → Prop) (le : Nat) : Prop where
  k_UBH_PT_DATA_bytes : ∀ (a1 : Nat), N (.reg (F.UBH_PT_DATA_bytes le a1).key)
  c_ptEnd : Touches.ptEnd N le

theorem Fits.onMem (le : Nat) (code : Nat) (p : List Byte) (s : State) (h : Fits N s0 s) (tch : Touches.onMem N le) :
    Fits N s0 (onMem le code p s) := by
  obtain ⟨k_UBH_PT_DATA_bytes, c_ptEnd⟩ := tch
  unfold Sys2Proof.Machine.onMem
  repeat' first
    | with_reducible assumption
    | with_reducible apply k_UBH_PT_DATA_bytes
    | with_reducible apply Fits.setF
    | with_reducible apply Fits.ptEnd
    | with_reducible apply Fits.forEach
    | (intro _)
    | with_reducible apply Fits.ite
    | dsimp only
    | split
    | (refine Fits.pair ‹_ = (_, _)› ?_)
    | (refine Fits.pair2 ‹_ = (_, _, _)› ?_)

structure Touches.onResponse (N : Part → Prop) (le : Nat) : Prop where
  c_setTx : Touches.setTx N le
  c_onHello : Touches.onHello N le
  c_onCert : Touches.onCert N le
  c_onAuth : Touches.onAuth N le
  c_onStatus : Touches.onStatus N le
  c_onAlert : Touches.onAlert N le
  c_onLife : Touches.onLife N le
  c_onMem : Touches.onMem N le

theorem Fits.onResponse (le : Nat) (code : Nat) (p : List Byte) (s : State) (h : Fits N s0 s) (tch : Touches.onResponse N le) :
    Fits N s0 (onResponse le code p s) := by
  obtain ⟨c_setTx, c_onHello, c_onCert, c_onAuth, c_onStatus, c_onAlert, c_onLife, c_onMem⟩ := tch
  unfold Sys2Proof.Machine.onResponse
  repeat' first
    | with_reducible assumption
    | with_reducible apply Fits.setTx
    | with_reducible apply Fits.onHello
    | with_reducible apply Fits.onCert
    | with_reducible apply Fits.onAuth
    | with_reducible apply Fits.onStatus
    | with_reducible apply Fits.onAlert
    | with_reducible apply Fits.onLife
    | with_reducible apply Fits.onMem
    | (intro _)
    | with_reducible apply Fits.ite
    | dsimp only
    | split
    | (refine Fits.pair ‹_ = (_, _)› ?_)
    | (refine Fits.pair2 ‹_ = (_, _, _)› ?_)

structure Touches.ubhNext (N : Part → Prop) (le : Nat) : Prop where
  c_modUbh : Touches.modUbh N le
  c_ubhCmd : Touches.ubhCmd N le

theorem Fits.ubhNext (le : Nat) (s : State) (h : Fits N s0 s) (tch : Touches.ubhNext N le) :
    Fits N s0 (ubhNext le s) := by
  obtain ⟨c_modUbh, c_ubhCmd⟩ := tch
  unfold Sys2Proof.Machine.ubhNext
  repeat' first
    | with_reducible assumption
    | with_reducible apply Fits.modUbh
    | with_reducible apply Fits.ubhCmd
    | (intro _)
    | with_reducible apply Fits.ite
    | dsimp only
    | split
    | (refine Fits.pair ‹_ = (_, _)› ?_)
    | (refine Fits.pair2 ‹_ = (_, _, _)› ?_)

structure Touches.ubhDeliver (N : Part → Prop) (le : Nat) : Prop where
  c_modUbh : Touches.modUbh N le
  c_ubhTake : Touches.ubhTake N le
  c_onResponse : Touches.onResponse N le
  c_ubhNext : Touches.ubhNext N le

theorem Fits.ubhDeliver (le : Nat) (r : List Byte) (s : State) (h : Fits N s0 s) (tch : Touches.ubhDeliver N le) :
    Fits N s0 (ubhDeliver le r s) := by
  obtain ⟨c_modUbh, c_ubhTake, c_onResponse, c_ubhNext⟩ := tch
  unfold Sys2Proof.Machine.ubhDeliver
  repeat' first
    | with_reducible assumption
    | with_reducible apply Fits.modUbh
    | with_reducible apply Fits.ubhTake
    | with_reducible apply Fits.onResponse
    | with_reducible apply Fits.ubhNext
    | (intro _)
    | with_reducible apply Fits.ite
    | dsimp only
    | split
    | (refine Fits.pair ‹_ = (_, _)› ?_)
    | (refine Fits.pair2 ‹_ = (_, _, _)› ?_)

structure Touches.txdDeliver (N : Part → Prop) (le : Nat) : Prop where
  c_modUbh : Touches.modUbh N le
  c_ubhCount : Touches.ubhCount N le 2
  c_ubhTake : Touches.ubhTake N le
  c_ubhNext : Touches.ubhNext N le
  c_ubhDeliver : Touches.ubhDeliver N le

theorem Fits.txdDeliver (le : Nat) (c : UbhCmd) (r : List Byte) (s : State) (h : Fits N s0 s) (tch : Touches.txdDeliver N le) :
    Fits N s0 (txdDeliver le c r s) := by
  obtain ⟨c_modUbh, c_ubhCount, c_ubhTake, c_ubhNext, c_ubhDeliver⟩ := tch
  unfold Sys2Proof.Machine.txdDeliver
  repeat' first
    | with_reducible assumption
    | with_reducible apply Fits.modUbh
    | with_reducible apply Fits.ubhCount
    | with_reducible apply Fits.ubhTake
    | with_reducible apply Fits.ubhNext
    | with_reducible apply Fits.ubhDeliver
    | (intro _)
    | with_reducible apply Fits.ite
    | dsimp only
    | split
    | (refine Fits.pair ‹_ = (_, _)› ?_)
    | (refine Fits.pair2 ‹_ = (_, _, _)› ?_)

structure Touches.ubhExchange (N : Part → Prop) (le : Nat) : Prop where
  c_modUbh : Touches.modUbh N le
  c_ubhCmd : Touches.ubhCmd N le
  c_linkLost : Touches.linkLost N le
  c_ubhDeliver : Touches.ubhDeliver N le

theorem Fits.ubhExchange (le : Nat) (code : Nat) (p : List Byte) (r : List Byte) (s : State) (h : Fits N s0 s) (tch : Touches.ubhExchange N le) :
    Fits N s0 (ubhExchange le code p r s) := by
  obtain ⟨c_modUbh, c_ubhCmd, c_linkLost, c_ubhDeliver⟩ := tch
  unfold Sys2Proof.Machine.ubhExchange
  repeat' first
    | with_reducible assumption
    | with_reducible apply Fits.modUbh
    | with_reducible apply Fits.ubhCmd
    | with_reducible apply Fits.linkLost
    | with_reducible apply Fits.ubhDeliver
    | (intro _)
    | with_reducible apply Fits.ite
    | dsimp only
    | split
    | (refine Fits.pair ‹_ = (_, _)› ?_)
    | (refine Fits.pair2 ‹_ = (_, _, _)› ?_)

structure Touches.ubhPoll (N : Part → Prop) (le : Nat) : Prop where
  h_time : N .time
  c_modUbh : Touches.modUbh N le
  c_ubhExchange : Touches.ubhExchange N le

theorem Fits.ubhPoll (le : Nat) (code : Nat) (period : Nat) (r : List Byte) (s : State) (h : Fits N s0 s) (tch : Touches.ubhPoll N le) :
    Fits N s0 (ubhPoll le code period r s) := by
  obtain ⟨h_time, c_modUbh, c_ubhExchange⟩ := tch
  unfold Sys2Proof.Machine.ubhPoll
  repeat' first
    | with_reducible assumption
    | with_reducible apply Fits.reach
    | with_reducible apply Fits.modUbh
    | with_reducible apply Fits.ubhExchange
    | (intro _)
    | with_reducible apply Fits.ite
    | dsimp only
    | split
    | (refine Fits.pair ‹_ = (_, _)› ?_)
    | (refine Fits.pair2 ‹_ = (_, _, _)› ?_)

structure Touches.execHello (N : Part → Prop) (le : Fin 2) : Prop where
  c_ubhPoll : Touches.ubhPoll N le.val

theorem FitsOut.execHello (le : Fin 2) (r : List Byte) (s : State) (h : Fits N s0 s) (tch : Touches.execHello N le) :
    FitsOut N s0 (execHello le r s) := by
  obtain ⟨c_ubhPoll⟩ := tch
  unfold Sys2Proof.Machine.execHello
  repeat' first
    | with_reducible assumption
    | with_reducible apply Fits.ubhPoll
    | with_reducible apply FitsOut.ite
    | with_reducible apply FitsOut.next
    | with_reducible apply FitsOut.fault
    | (intro _)
    | with_reducible apply Fits.ite
    | dsimp only
    | split
    | (refine Fits.pair ‹_ = (_, _)› ?_)
    | (refine Fits.pair2 ‹_ = (_, _, _)› ?_)

structure Touches.execCertRead (N : Part → Prop) (le : Fin 2) : Prop where
  c_ubhExchange : Touches.ubhExchange N le.val

theorem FitsOut.execCertRead (le : Fin 2) (r : List Byte) (s : State) (h : Fits N s0 s) (tch : Touches.execCertRead N le) :
    FitsOut N s0 (execCertRead le r s) := by
  obtain ⟨c_ubhExchange⟩ := tch
  unfold Sys2Proof.Machine.execCertRead
  repeat' first
    | with_reducible assumption
    | with_reducible apply Fits.ubhExchange
    | with_reducible apply FitsOut.ite
    | with_reducible apply FitsOut.next
    | with_reducible apply FitsOut.fault
    | (intro _)
    | with_reducible apply Fits.ite
    | dsimp only
    | split
    | (refine Fits.pair ‹_ = (_, _)› ?_)
    | (refine Fits.pair2 ‹_ = (_, _, _)› ?_)

structure Touches.execAuth (N : Part → Prop) (le : Fin 2) : Prop where
  h_drawn : N .drawn
  c_modUbh : Touches.modUbh N le.val
  c_authEnd : Touches.authEnd N le.val
  c_ubhExchange : Touches.ubhExchange N le.val

theorem FitsOut.execAuth (le : Fin 2) (r : List Byte) (s : State) (h : Fits N s0 s) (tch : Touches.execAuth N le) :
    FitsOut N s0 (execAuth le r s) := by
  obtain ⟨h_drawn, c_modUbh, c_authEnd, c_ubhExchange⟩ := tch
  unfold Sys2Proof.Machine.execAuth
  repeat' first
    | with_reducible assumption
    | with_reducible apply Fits.drawBytes
    | with_reducible apply Fits.modUbh
    | with_reducible apply Fits.authEnd
    | with_reducible apply Fits.ubhExchange
    | with_reducible apply FitsOut.ite
    | with_reducible apply FitsOut.next
    | with_reducible apply FitsOut.fault
    | (intro _)
    | with_reducible apply Fits.ite
    | dsimp only
    | split
    | (refine Fits.pair ‹_ = (_, _)› ?_)
    | (refine Fits.pair2 ‹_ = (_, _, _)› ?_)

structure Touches.execTxDisable (N : Part → Prop) (le : Fin 2) : Prop where
  c_modUbh : Touches.modUbh N le.val
  c_ubhCmd : Touches.ubhCmd N le.val
  c_setTx : Touches.setTx N le.val
  c_txdDeliver : Touches.txdDeliver N le.val

theorem FitsOut.execTxDisable (le : Fin 2) (r : List Byte) (s : State) (h : Fits N s0 s) (tch : Touches.execTxDisable N le) :
    FitsOut N s0 (execTxDisable le r s) := by
  obtain ⟨c_modUbh, c_ubhCmd, c_setTx, c_txdDeliver⟩ := tch
  unfold Sys2Proof.Machine.execTxDisable
  repeat' first
    | with_reducible assumption
    | with_reducible apply Fits.modUbh
    | with_reducible apply Fits.ubhCmd
    | with_reducible apply Fits.setTx
    | with_reducible apply Fits.txdDeliver
    | with_reducible apply FitsOut.ite
    | with_reducible apply FitsOut.next
    | with_reducible apply FitsOut.fault
    | (intro _)
    | with_reducible apply Fits.ite
    | dsimp only
    | split
    | (refine Fits.pair ‹_ = (_, _)› ?_)
    | (refine Fits.pair2 ‹_ = (_, _, _)› ?_)

structure Touches.execTxEnable (N : Part → Prop) (le : Fin 2) : Prop where
  c_ubhExchange : Touches.ubhExchange N le.val

theorem FitsOut.execTxEnable (le : Fin 2) (r : List Byte) (s : State) (h : Fits N s0 s) (tch : Touches.execTxEnable N le) :
    FitsOut N s0 (execTxEnable le r s) := by
  obtain ⟨c_ubhExchange⟩ := tch
  unfold Sys2Proof.Machine.execTxEnable
  repeat' first
    | with_reducible assumption
    | with_reducible apply Fits.ubhExchange
    | with_reducible apply FitsOut.ite
    | with_reducible apply FitsOut.next
    | with_reducible apply FitsOut.fault
    | (intro _)
    | with_reducible apply Fits.ite
    | dsimp only
    | split
    | (refine Fits.pair ‹_ = (_, _)› ?_)
    | (refine Fits.pair2 ‹_ = (_, _, _)› ?_)

structure Touches.execStatus (N : Part → Prop) (le : Fin 2) : Prop where
  c_ubhPoll : Touches.ubhPoll N le.val

theorem FitsOut.execStatus (le : Fin 2) (r : List Byte) (s : State) (h : Fits N s0 s) (tch : Touches.execStatus N le) :
    FitsOut N s0 (execStatus le r s) := by
  obtain ⟨c_ubhPoll⟩ := tch
  unfold Sys2Proof.Machine.execStatus
  repeat' first
    | with_reducible assumption
    | with_reducible apply Fits.ubhPoll
    | with_reducible apply FitsOut.ite
    | with_reducible apply FitsOut.next
    | with_reducible apply FitsOut.fault
    | (intro _)
    | with_reducible apply Fits.ite
    | dsimp only
    | split
    | (refine Fits.pair ‹_ = (_, _)› ?_)
    | (refine Fits.pair2 ‹_ = (_, _, _)› ?_)

structure Touches.execAlertRead (N : Part → Prop) (le : Fin 2) : Prop where
  c_ubhExchange : Touches.ubhExchange N le.val

theorem FitsOut.execAlertRead (le : Fin 2) (r : List Byte) (s : State) (h : Fits N s0 s) (tch : Touches.execAlertRead N le) :
    FitsOut N s0 (execAlertRead le r s) := by
  obtain ⟨c_ubhExchange⟩ := tch
  unfold Sys2Proof.Machine.execAlertRead
  repeat' first
    | with_reducible assumption
    | with_reducible apply Fits.ubhExchange
    | with_reducible apply FitsOut.ite
    | with_reducible apply FitsOut.next
    | with_reducible apply FitsOut.fault
    | (intro _)
    | with_reducible apply Fits.ite
    | dsimp only
    | split
    | (refine Fits.pair ‹_ = (_, _)› ?_)
    | (refine Fits.pair2 ‹_ = (_, _, _)› ?_)

structure Touches.execLifeRead (N : Part → Prop) (le : Fin 2) : Prop where
  c_ubhPoll : Touches.ubhPoll N le.val

theorem FitsOut.execLifeRead (le : Fin 2) (r : List Byte) (s : State) (h : Fits N s0 s) (tch : Touches.execLifeRead N le) :
    FitsOut N s0 (execLifeRead le r s) := by
  obtain ⟨c_ubhPoll⟩ := tch
  unfold Sys2Proof.Machine.execLifeRead
  repeat' first
    | with_reducible assumption
    | with_reducible apply Fits.ubhPoll
    | with_reducible apply FitsOut.ite
    | with_reducible apply FitsOut.next
    | with_reducible apply FitsOut.fault
    | (intro _)
    | with_reducible apply Fits.ite
    | dsimp only
    | split
    | (refine Fits.pair ‹_ = (_, _)› ?_)
    | (refine Fits.pair2 ‹_ = (_, _, _)› ?_)

structure Touches.execMemRead (N : Part → Prop) (le : Fin 2) : Prop where
  c_ubhExchange : Touches.ubhExchange N le.val

theorem FitsOut.execMemRead (le : Fin 2) (addr : BitVec 16) (len : Byte) (r : List Byte) (s : State) (h : Fits N s0 s) (tch : Touches.execMemRead N le) :
    FitsOut N s0 (execMemRead le addr len r s) := by
  obtain ⟨c_ubhExchange⟩ := tch
  unfold Sys2Proof.Machine.execMemRead
  repeat' first
    | with_reducible assumption
    | with_reducible apply Fits.ubhExchange
    | with_reducible apply FitsOut.ite
    | with_reducible apply FitsOut.next
    | with_reducible apply FitsOut.fault
    | (intro _)
    | with_reducible apply Fits.ite
    | dsimp only
    | split
    | (refine Fits.pair ‹_ = (_, _)› ?_)
    | (refine Fits.pair2 ‹_ = (_, _, _)› ?_)

structure Touches.execMemWrite (N : Part → Prop) (le : Fin 2) : Prop where
  c_ubhExchange : Touches.ubhExchange N le.val

theorem FitsOut.execMemWrite (le : Fin 2) (addr : BitVec 16) (data : List Byte) (r : List Byte) (s : State) (h : Fits N s0 s) (tch : Touches.execMemWrite N le) :
    FitsOut N s0 (execMemWrite le addr data r s) := by
  obtain ⟨c_ubhExchange⟩ := tch
  unfold Sys2Proof.Machine.execMemWrite
  repeat' first
    | with_reducible assumption
    | with_reducible apply Fits.ubhExchange
    | with_reducible apply FitsOut.ite
    | with_reducible apply FitsOut.next
    | with_reducible apply FitsOut.fault
    | (intro _)
    | with_reducible apply Fits.ite
    | dsimp only
    | split
    | (refine Fits.pair ‹_ = (_, _)› ?_)
    | (refine Fits.pair2 ‹_ = (_, _, _)› ?_)

structure Touches.execUbhResend (N : Part → Prop) (le : Fin 2) : Prop where
  h_time : N .time
  c_modUbh : Touches.modUbh N le.val
  c_ubhCount : Touches.ubhCount N le.val 1
  c_ubhCount_1 : Touches.ubhCount N le.val 2
  c_linkLost : Touches.linkLost N le.val
  c_ubhNext : Touches.ubhNext N le.val
  c_ubhDeliver : Touches.ubhDeliver N le.val
  c_txdDeliver : Touches.txdDeliver N le.val

theorem FitsOut.execUbhResend (le : Fin 2) (r : List Byte) (s : State) (h : Fits N s0 s) (tch : Touches.execUbhResend N le) :
    FitsOut N s0 (execUbhResend le r s) := by
  obtain ⟨h_time, c_modUbh, c_ubhCount, c_ubhCount_1, c_linkLost, c_ubhNext, c_ubhDeliver, c_txdDeliver⟩ := tch
  unfold Sys2Proof.Machine.execUbhResend
  repeat' first
    | with_reducible assumption
    | with_reducible apply Fits.reach
    | with_reducible apply Fits.modUbh
    | with_reducible apply Fits.ubhCount
    | with_reducible apply Fits.linkLost
    | with_reducible apply Fits.ubhNext
    | with_reducible apply Fits.ubhDeliver
    | with_reducible apply Fits.txdDeliver
    | with_reducible apply FitsOut.ite
    | with_reducible apply FitsOut.next
    | with_reducible apply FitsOut.fault
    | (intro _)
    | with_reducible apply Fits.ite
    | dsimp only
    | split
    | (refine Fits.pair ‹_ = (_, _)› ?_)
    | (refine Fits.pair2 ‹_ = (_, _, _)› ?_)

structure Touches.execUbhAbsent (N : Part → Prop) (le : Fin 2) : Prop where
  k_UBH_STAT_present : N (.reg (F.UBH_STAT_present le.val).key)
  c_linkLost : Touches.linkLost N le.val

theorem FitsOut.execUbhAbsent (le : Fin 2) (s : State) (h : Fits N s0 s) (tch : Touches.execUbhAbsent N le) :
    FitsOut N s0 (execUbhAbsent le s) := by
  obtain ⟨k_UBH_STAT_present, c_linkLost⟩ := tch
  unfold Sys2Proof.Machine.execUbhAbsent
  repeat' first
    | with_reducible assumption
    | with_reducible apply k_UBH_STAT_present
    | with_reducible apply Fits.setB
    | with_reducible apply Fits.linkLost
    | with_reducible apply FitsOut.ite
    | with_reducible apply FitsOut.next
    | with_reducible apply FitsOut.fault
    | (intro _)
    | with_reducible apply Fits.ite
    | dsimp only
    | split
    | (refine Fits.pair ‹_ = (_, _)› ?_)
    | (refine Fits.pair2 ‹_ = (_, _, _)› ?_)

structure Touches.execUbhAlertFall (N : Part → Prop) (le : Fin 2) : Prop where
  c_modUbh : Touches.modUbh N le.val

theorem FitsOut.execUbhAlertFall (le : Fin 2) (s : State) (h : Fits N s0 s) (tch : Touches.execUbhAlertFall N le) :
    FitsOut N s0 (execUbhAlertFall le s) := by
  obtain ⟨c_modUbh⟩ := tch
  unfold Sys2Proof.Machine.execUbhAlertFall
  repeat' first
    | with_reducible assumption
    | with_reducible apply Fits.modUbh
    | with_reducible apply FitsOut.ite
    | with_reducible apply FitsOut.next
    | with_reducible apply FitsOut.fault
    | (intro _)
    | with_reducible apply Fits.ite
    | dsimp only
    | split
    | (refine Fits.pair ‹_ = (_, _)› ?_)
    | (refine Fits.pair2 ‹_ = (_, _, _)› ?_)

structure Touches.ubhCtrl (N : Part → Prop) (le : Nat) : Prop where
  k_UBH_CTRL_hold : N (.reg (F.UBH_CTRL_hold le).key)
  k_UBH_CTRL_tx_allow : N (.reg (F.UBH_CTRL_tx_allow le).key)
  c_linkClear : Touches.linkClear N le
  c_ubhBreak : Touches.ubhBreak N le
  c_ubhRun : Touches.ubhRun N le

theorem Fits.ubhCtrl (le : Nat) (hold : Bool) (allow : Bool) (s : State) (h : Fits N s0 s) (tch : Touches.ubhCtrl N le) :
    Fits N s0 (ubhCtrl le hold allow s) := by
  obtain ⟨k_UBH_CTRL_hold, k_UBH_CTRL_tx_allow, c_linkClear, c_ubhBreak, c_ubhRun⟩ := tch
  unfold Sys2Proof.Machine.ubhCtrl
  repeat' first
    | with_reducible assumption
    | with_reducible apply k_UBH_CTRL_hold
    | with_reducible apply k_UBH_CTRL_tx_allow
    | with_reducible apply Fits.setB
    | with_reducible apply Fits.linkClear
    | with_reducible apply Fits.ubhBreak
    | with_reducible apply Fits.ubhRun
    | (intro _)
    | with_reducible apply Fits.ite
    | dsimp only
    | split
    | (refine Fits.pair ‹_ = (_, _)› ?_)
    | (refine Fits.pair2 ‹_ = (_, _, _)› ?_)

structure Touches.execUbhHold (N : Part → Prop) (le : Fin 2) : Prop where
  c_goWrite : Touches.goWrite N (0xD8040 + 0x1000 * le.val)
  c_ubhCtrl : Touches.ubhCtrl N le.val

theorem FitsOut.execUbhHold (m : Master) (le : Fin 2) (hold : Bool) (allow : Bool) (s : State) (h : Fits N s0 s) (tch : Touches.execUbhHold N le) :
    FitsOut N s0 (execUbhHold m le hold allow s) := by
  obtain ⟨c_goWrite, c_ubhCtrl⟩ := tch
  unfold Sys2Proof.Machine.execUbhHold
  repeat' first
    | with_reducible assumption
    | with_reducible apply Fits.ubhCtrl
    | with_reducible apply Fits.goWrite
    | with_reducible apply FitsOut.ite
    | with_reducible apply FitsOut.next
    | with_reducible apply FitsOut.fault
    | (intro _)
    | with_reducible apply Fits.ite
    | dsimp only
    | split
    | (refine Fits.pair ‹_ = (_, _)› ?_)
    | (refine Fits.pair2 ‹_ = (_, _, _)› ?_)

structure Touches.ptGo (N : Part → Prop) (le : Nat) : Prop where
  k_UBH_PT_CMD_address : N (.reg (F.UBH_PT_CMD_address le).key)
  k_UBH_PT_CMD_length : N (.reg (F.UBH_PT_CMD_length le).key)
  k_UBH_PT_CMD_write : N (.reg (F.UBH_PT_CMD_write le).key)
  k_UBH_PT_STAT_busy : N (.reg (F.UBH_PT_STAT_busy le).key)
  k_UBH_PT_STAT_status : N (.reg (F.UBH_PT_STAT_status le).key)
  c_modUbh : Touches.modUbh N le
  c_ubhNext : Touches.ubhNext N le

theorem Fits.ptGo (le : Nat) (write : Bool) (len : Nat) (addr : Nat) (s : State) (h : Fits N s0 s) (tch : Touches.ptGo N le) :
    Fits N s0 (ptGo le write len addr s) := by
  obtain ⟨k_UBH_PT_CMD_address, k_UBH_PT_CMD_length, k_UBH_PT_CMD_write, k_UBH_PT_STAT_busy, k_UBH_PT_STAT_status, c_modUbh, c_ubhNext⟩ := tch
  unfold Sys2Proof.Machine.ptGo
  repeat' first
    | with_reducible assumption
    | with_reducible apply k_UBH_PT_CMD_address
    | with_reducible apply k_UBH_PT_CMD_length
    | with_reducible apply k_UBH_PT_CMD_write
    | with_reducible apply k_UBH_PT_STAT_busy
    | with_reducible apply k_UBH_PT_STAT_status
    | with_reducible apply Fits.setF
    | with_reducible apply Fits.setB
    | with_reducible apply Fits.modUbh
    | with_reducible apply Fits.ubhNext
    | (intro _)
    | with_reducible apply Fits.ite
    | dsimp only
    | split
    | (refine Fits.pair ‹_ = (_, _)› ?_)
    | (refine Fits.pair2 ‹_ = (_, _, _)› ?_)

structure Touches.execUbhPtGo (N : Part → Prop) (le : Fin 2) : Prop where
  c_goWrite : Touches.goWrite N (0xD8100 + 0x1000 * le.val)
  c_ptGo : Touches.ptGo N le.val

theorem FitsOut.execUbhPtGo (m : Master) (le : Fin 2) (write : Bool) (len : Byte) (addr : BitVec 16) (s : State) (h : Fits N s0 s) (tch : Touches.execUbhPtGo N le) :
    FitsOut N s0 (execUbhPtGo m le write len addr s) := by
  obtain ⟨c_goWrite, c_ptGo⟩ := tch
  unfold Sys2Proof.Machine.execUbhPtGo
  repeat' first
    | with_reducible assumption
    | with_reducible apply Fits.ptGo
    | with_reducible apply Fits.goWrite
    | with_reducible apply FitsOut.ite
    | with_reducible apply FitsOut.next
    | with_reducible apply FitsOut.fault
    | (intro _)
    | with_reducible apply Fits.ite
    | dsimp only
    | split
    | (refine Fits.pair ‹_ = (_, _)› ?_)
    | (refine Fits.pair2 ‹_ = (_, _, _)› ?_)

structure Touches.overrideEnd (N : Part → Prop) (le : Nat) : Prop where
  h_enc : N .enc
  c_evt : Touches.evt N (0xD8 + le)
  c_ovReport : Touches.ovReport N le

theorem Fits.overrideEnd (le : Nat) (s : State) (h : Fits N s0 s) (tch : Touches.overrideEnd N le) :
    Fits N s0 (overrideEnd le s) := by
  obtain ⟨h_enc, c_evt, c_ovReport⟩ := tch
  unfold Sys2Proof.Machine.overrideEnd
  repeat' first
    | with_reducible assumption
    | with_reducible apply Fits.evt
    | with_reducible apply Fits.ovReport
    | (intro _)
    | with_reducible apply Fits.ite
    | dsimp only
    | split
    | (refine Fits.pair ‹_ = (_, _)› ?_)
    | (refine Fits.pair2 ‹_ = (_, _, _)› ?_)
    | with_reducible apply Fits.upd_enc

structure Touches.execOverrideEnd (N : Part → Prop) (le : Fin 2) : Prop where
  c_overrideEnd : Touches.overrideEnd N le.val

theorem FitsOut.execOverrideEnd (le : Fin 2) (s : State) (h : Fits N s0 s) (tch : Touches.execOverrideEnd N le) :
    FitsOut N s0 (execOverrideEnd le s) := by
  obtain ⟨c_overrideEnd⟩ := tch
  unfold Sys2Proof.Machine.execOverrideEnd
  repeat' first
    | with_reducible assumption
    | with_reducible apply Fits.overrideEnd
    | with_reducible apply FitsOut.ite
    | with_reducible apply FitsOut.next
    | with_reducible apply FitsOut.fault
    | (intro _)
    | with_reducible apply Fits.ite
    | dsimp only
    | split
    | (refine Fits.pair ‹_ = (_, _)› ?_)
    | (refine Fits.pair2 ‹_ = (_, _, _)› ?_)

end Sys2Proof.Machine
end

