-- ==== Sys2Proof/Laws/FitsSync.lean ====
section
/-! SUPPORT. What the operations of Machine/Sync.lean touch (a structure of parts for each, over those of the operations it calls), and
that each keeps the canonical form. -/
set_option linter.unusedTactic false
set_option linter.unreachableTactic false
namespace Sys2Proof.Machine

variable {N : Part → Prop} {s0 : State}

theorem Fits.modSyn (f : Syn → Syn) (s : State) (h : Fits N s0 s) (h_syn : N .syn) :
    Fits N s0 (modSyn f s) := by
  unfold Sys2Proof.Machine.modSyn
  repeat' first
    | with_reducible assumption
    | (intro _)
    | with_reducible apply Fits.ite
    | dsimp only
    | split
    | (refine Fits.pair ‹_ = (_, _)› ?_)
    | (refine Fits.pair2 ‹_ = (_, _, _)› ?_)
    | with_reducible apply Fits.upd_syn

theorem Fits.offsetJudge (k : Nat) (off : Int) (s : State) (h : Fits N s0 s) (h_syn : N .syn) :
    Fits N s0 (offsetJudge k off s) := by
  unfold Sys2Proof.Machine.offsetJudge
  repeat' first
    | with_reducible assumption
    | with_reducible apply Fits.modSyn
    | (intro _)
    | with_reducible apply Fits.ite
    | dsimp only
    | split
    | (refine Fits.pair ‹_ = (_, _)› ?_)
    | (refine Fits.pair2 ‹_ = (_, _, _)› ?_)

structure Touches.synReport (N : Part → Prop) : Prop where
  h_syn : N .syn
  k_SYN_ESMC_tx_ql : ∀ (a0 : Nat), N (.reg (F.SYN_ESMC_tx_ql a0).key)
  k_SYN_IN_STAT_ql_failed : ∀ (a0 : Nat), N (.reg (F.SYN_IN_STAT_ql_failed a0).key)
  k_SYN_IN_STAT_ql_rx : ∀ (a0 : Nat), N (.reg (F.SYN_IN_STAT_ql_rx a0).key)
  k_SYN_STAT_output_ql : N (.reg F.SYN_STAT_output_ql.key)
  c_evt : Touches.evt N 0xD0
  c_level : Touches.level N 0xD0

theorem Fits.synReport (s : State) (h : Fits N s0 s) (tch : Touches.synReport N) :
    Fits N s0 (synReport s) := by
  obtain ⟨h_syn, k_SYN_ESMC_tx_ql, k_SYN_IN_STAT_ql_failed, k_SYN_IN_STAT_ql_rx, k_SYN_STAT_output_ql, c_evt, c_level⟩ := tch
  unfold Sys2Proof.Machine.synReport
  repeat' first
    | with_reducible assumption
    | with_reducible apply k_SYN_ESMC_tx_ql
    | with_reducible apply k_SYN_IN_STAT_ql_failed
    | with_reducible apply k_SYN_IN_STAT_ql_rx
    | with_reducible apply k_SYN_STAT_output_ql
    | with_reducible apply Fits.setF
    | with_reducible apply Fits.setB
    | with_reducible apply Fits.evt
    | with_reducible apply Fits.level
    | with_reducible apply Fits.modSyn
    | with_reducible apply Fits.forEach
    | (intro _)
    | with_reducible apply Fits.ite
    | dsimp only
    | split
    | (refine Fits.pair ‹_ = (_, _)› ?_)
    | (refine Fits.pair2 ‹_ = (_, _, _)› ?_)

structure Touches.holdUpdate (N : Part → Prop) : Prop where
  k_SYN_HOLD_FREQ_estimate : N (.reg F.SYN_HOLD_FREQ_estimate.key)
  k_SYN_STAT_hold_valid : N (.reg F.SYN_STAT_hold_valid.key)

theorem Fits.holdUpdate (s : State) (h : Fits N s0 s) (tch : Touches.holdUpdate N) :
    Fits N s0 (holdUpdate s) := by
  obtain ⟨k_SYN_HOLD_FREQ_estimate, k_SYN_STAT_hold_valid⟩ := tch
  unfold Sys2Proof.Machine.holdUpdate
  repeat' first
    | with_reducible assumption
    | with_reducible apply k_SYN_HOLD_FREQ_estimate
    | with_reducible apply k_SYN_STAT_hold_valid
    | with_reducible apply Fits.setF
    | with_reducible apply Fits.setB
    | with_reducible apply Fits.foldlPair
    | with_reducible apply Fits.foldl
    | (intro _)
    | with_reducible apply Fits.ite
    | dsimp only
    | split
    | (refine Fits.pair ‹_ = (_, _)› ?_)
    | (refine Fits.pair2 ‹_ = (_, _, _)› ?_)

theorem Fits.synHist (f : Field) (s : State) (h : Fits N s0 s) (k_f : N (.reg f.key)) :
    Fits N s0 (synHist f s) := by
  unfold Sys2Proof.Machine.synHist
  repeat' first
    | with_reducible assumption
    | with_reducible exact k_f
    | with_reducible apply Fits.setF
    | (intro _)
    | with_reducible apply Fits.ite
    | dsimp only
    | split
    | (refine Fits.pair ‹_ = (_, _)› ?_)
    | (refine Fits.pair2 ‹_ = (_, _, _)› ?_)

structure Touches.synLose (N : Part → Prop) : Prop where
  h_syn : N .syn
  k_SYN_FREQ_offset : N (.reg F.SYN_FREQ_offset.key)
  k_SYN_HIST_freerun : N (.reg F.SYN_HIST_freerun.key)
  k_SYN_HIST_holdover : N (.reg F.SYN_HIST_holdover.key)
  k_SYN_HOLD_ELAPSED_seconds : N (.reg F.SYN_HOLD_ELAPSED_seconds.key)
  k_SYN_STAT_oos : N (.reg F.SYN_STAT_oos.key)
  k_SYN_STAT_selected : N (.reg F.SYN_STAT_selected.key)
  k_SYN_STAT_state : N (.reg F.SYN_STAT_state.key)
  k_SYN_STAT_switching : N (.reg F.SYN_STAT_switching.key)
  c_evt : Touches.evt N 0xD0

theorem Fits.synLose (s : State) (h : Fits N s0 s) (tch : Touches.synLose N) :
    Fits N s0 (synLose s) := by
  obtain ⟨h_syn, k_SYN_FREQ_offset, k_SYN_HIST_freerun, k_SYN_HIST_holdover, k_SYN_HOLD_ELAPSED_seconds, k_SYN_STAT_oos, k_SYN_STAT_selected, k_SYN_STAT_state, k_SYN_STAT_switching, c_evt⟩ := tch
  unfold Sys2Proof.Machine.synLose
  repeat' first
    | with_reducible assumption
    | with_reducible apply k_SYN_FREQ_offset
    | with_reducible apply k_SYN_HIST_freerun
    | with_reducible apply k_SYN_HIST_holdover
    | with_reducible apply k_SYN_HOLD_ELAPSED_seconds
    | with_reducible apply k_SYN_STAT_oos
    | with_reducible apply k_SYN_STAT_selected
    | with_reducible apply k_SYN_STAT_state
    | with_reducible apply k_SYN_STAT_switching
    | with_reducible apply Fits.setF
    | with_reducible apply Fits.setB
    | with_reducible apply Fits.evt
    | with_reducible apply Fits.modSyn
    | with_reducible apply Fits.synHist
    | (intro _)
    | with_reducible apply Fits.ite
    | dsimp only
    | split
    | (refine Fits.pair ‹_ = (_, _)› ?_)
    | (refine Fits.pair2 ‹_ = (_, _, _)› ?_)

structure Touches.synChoose (N : Part → Prop) : Prop where
  h_drawn : N .drawn
  h_syn : N .syn
  k_SYN_HOLD_ELAPSED_seconds : N (.reg F.SYN_HOLD_ELAPSED_seconds.key)
  k_SYN_STAT_oos : N (.reg F.SYN_STAT_oos.key)
  k_SYN_STAT_selected : N (.reg F.SYN_STAT_selected.key)
  k_SYN_STAT_state : N (.reg F.SYN_STAT_state.key)
  k_SYN_STAT_switching : N (.reg F.SYN_STAT_switching.key)

theorem Fits.synChoose (k : Nat) (s : State) (h : Fits N s0 s) (tch : Touches.synChoose N) :
    Fits N s0 (synChoose k s) := by
  obtain ⟨h_drawn, h_syn, k_SYN_HOLD_ELAPSED_seconds, k_SYN_STAT_oos, k_SYN_STAT_selected, k_SYN_STAT_state, k_SYN_STAT_switching⟩ := tch
  unfold Sys2Proof.Machine.synChoose
  repeat' first
    | with_reducible assumption
    | with_reducible apply k_SYN_HOLD_ELAPSED_seconds
    | with_reducible apply k_SYN_STAT_oos
    | with_reducible apply k_SYN_STAT_selected
    | with_reducible apply k_SYN_STAT_state
    | with_reducible apply k_SYN_STAT_switching
    | with_reducible apply Fits.setF
    | with_reducible apply Fits.setB
    | with_reducible apply Fits.draw
    | with_reducible apply Fits.modSyn
    | (intro _)
    | with_reducible apply Fits.ite
    | dsimp only
    | split
    | (refine Fits.pair ‹_ = (_, _)› ?_)
    | (refine Fits.pair2 ‹_ = (_, _, _)› ?_)

structure Touches.disagreeEval (N : Part → Prop) : Prop where
  h_syn : N .syn
  c_level : Touches.level N 0xD0

theorem Fits.disagreeEval (s : State) (h : Fits N s0 s) (tch : Touches.disagreeEval N) :
    Fits N s0 (disagreeEval s) := by
  obtain ⟨h_syn, c_level⟩ := tch
  unfold Sys2Proof.Machine.disagreeEval
  repeat' first
    | with_reducible assumption
    | with_reducible apply Fits.level
    | with_reducible apply Fits.modSyn
    | (intro _)
    | with_reducible apply Fits.ite
    | dsimp only
    | split
    | (refine Fits.pair ‹_ = (_, _)› ?_)
    | (refine Fits.pair2 ‹_ = (_, _, _)› ?_)

theorem Fits.buildOut (s : State) (h : Fits N s0 s) (h_syn : N .syn) :
    Fits N s0 (buildOut s) := by
  unfold Sys2Proof.Machine.buildOut
  repeat' first
    | with_reducible assumption
    | with_reducible apply Fits.modSyn
    | (intro _)
    | with_reducible apply Fits.ite
    | dsimp only
    | split
    | (refine Fits.pair ‹_ = (_, _)› ?_)
    | (refine Fits.pair2 ‹_ = (_, _, _)› ?_)

structure Touches.execSelectionEval (N : Part → Prop) : Prop where
  h_syn : N .syn
  h_time : N .time
  k_SYN_FREQ_offset : N (.reg F.SYN_FREQ_offset.key)
  k_SYN_HOLD_ELAPSED_seconds : N (.reg F.SYN_HOLD_ELAPSED_seconds.key)
  k_SYN_IN_STAT_offset : ∀ (a0 : Nat), N (.reg (F.SYN_IN_STAT_offset a0).key)
  c_synReport : Touches.synReport N
  c_holdUpdate : Touches.holdUpdate N
  c_synLose : Touches.synLose N
  c_synChoose : Touches.synChoose N
  c_disagreeEval : Touches.disagreeEval N

theorem FitsOut.execSelectionEval (freq : BitVec 32) (offs : List (Fin 15 × BitVec 16)) (s : State) (h : Fits N s0 s) (tch : Touches.execSelectionEval N) :
    FitsOut N s0 (execSelectionEval freq offs s) := by
  obtain ⟨h_syn, h_time, k_SYN_FREQ_offset, k_SYN_HOLD_ELAPSED_seconds, k_SYN_IN_STAT_offset, c_synReport, c_holdUpdate, c_synLose, c_synChoose, c_disagreeEval⟩ := tch
  unfold Sys2Proof.Machine.execSelectionEval
  repeat' first
    | with_reducible assumption
    | with_reducible apply k_SYN_FREQ_offset
    | with_reducible apply k_SYN_HOLD_ELAPSED_seconds
    | with_reducible apply k_SYN_IN_STAT_offset
    | with_reducible apply Fits.setF
    | with_reducible apply Fits.reach
    | with_reducible apply Fits.modSyn
    | with_reducible apply Fits.offsetJudge
    | with_reducible apply Fits.synReport
    | with_reducible apply Fits.holdUpdate
    | with_reducible apply Fits.synLose
    | with_reducible apply Fits.synChoose
    | with_reducible apply Fits.disagreeEval
    | with_reducible apply Fits.buildOut
    | with_reducible apply Fits.forEach
    | with_reducible apply FitsOut.ite
    | with_reducible apply FitsOut.next
    | with_reducible apply FitsOut.fault
    | (intro _)
    | with_reducible apply Fits.ite
    | dsimp only
    | split
    | (refine Fits.pair ‹_ = (_, _)› ?_)
    | (refine Fits.pair2 ‹_ = (_, _, _)› ?_)

structure Touches.inputFail (N : Part → Prop) (k : Nat) : Prop where
  k_SYN_HIST_inputs : N (.reg F.SYN_HIST_inputs.key)
  k_SYN_IN_STAT_state : N (.reg (F.SYN_IN_STAT_state k).key)
  k_SYN_IN_WTR_remaining : N (.reg (F.SYN_IN_WTR_remaining k).key)
  c_evt : Touches.evt N 0xD0
  c_synReport : Touches.synReport N

theorem Fits.inputFail (k : Nat) (s : State) (h : Fits N s0 s) (tch : Touches.inputFail N k) :
    Fits N s0 (inputFail k s) := by
  obtain ⟨k_SYN_HIST_inputs, k_SYN_IN_STAT_state, k_SYN_IN_WTR_remaining, c_evt, c_synReport⟩ := tch
  unfold Sys2Proof.Machine.inputFail
  repeat' first
    | with_reducible assumption
    | with_reducible apply k_SYN_HIST_inputs
    | with_reducible apply k_SYN_IN_STAT_state
    | with_reducible apply k_SYN_IN_WTR_remaining
    | with_reducible apply Fits.setF
    | with_reducible apply Fits.evt
    | with_reducible apply Fits.synReport
    | (intro _)
    | with_reducible apply Fits.ite
    | dsimp only
    | split
    | (refine Fits.pair ‹_ = (_, _)› ?_)
    | (refine Fits.pair2 ‹_ = (_, _, _)› ?_)

structure Touches.inputClear (N : Part → Prop) (k : Nat) : Prop where
  h_syn : N .syn
  k_SYN_IN_STAT_state : N (.reg (F.SYN_IN_STAT_state k).key)
  k_SYN_IN_WTR_remaining : N (.reg (F.SYN_IN_WTR_remaining k).key)
  c_synReport : Touches.synReport N

theorem Fits.inputClear (k : Nat) (s : State) (h : Fits N s0 s) (tch : Touches.inputClear N k) :
    Fits N s0 (inputClear k s) := by
  obtain ⟨h_syn, k_SYN_IN_STAT_state, k_SYN_IN_WTR_remaining, c_synReport⟩ := tch
  unfold Sys2Proof.Machine.inputClear
  repeat' first
    | with_reducible assumption
    | with_reducible apply k_SYN_IN_STAT_state
    | with_reducible apply k_SYN_IN_WTR_remaining
    | with_reducible apply Fits.setF
    | with_reducible apply Fits.modSyn
    | with_reducible apply Fits.synReport
    | (intro _)
    | with_reducible apply Fits.ite
    | dsimp only
    | split
    | (refine Fits.pair ‹_ = (_, _)› ?_)
    | (refine Fits.pair2 ‹_ = (_, _, _)› ?_)

structure Touches.execInputFault (N : Part → Prop) (k : Fin 15) : Prop where
  h_syn : N .syn
  c_inputFail : Touches.inputFail N k.val

theorem FitsOut.execInputFault (k : Fin 15) (s : State) (h : Fits N s0 s) (tch : Touches.execInputFault N k) :
    FitsOut N s0 (execInputFault k s) := by
  obtain ⟨h_syn, c_inputFail⟩ := tch
  unfold Sys2Proof.Machine.execInputFault
  repeat' first
    | with_reducible assumption
    | with_reducible apply Fits.modSyn
    | with_reducible apply Fits.inputFail
    | with_reducible apply FitsOut.ite
    | with_reducible apply FitsOut.next
    | with_reducible apply FitsOut.fault
    | (intro _)
    | with_reducible apply Fits.ite
    | dsimp only
    | split
    | (refine Fits.pair ‹_ = (_, _)› ?_)
    | (refine Fits.pair2 ‹_ = (_, _, _)› ?_)

structure Touches.execInputFaultClear (N : Part → Prop) (k : Fin 15) : Prop where
  h_syn : N .syn
  c_inputClear : Touches.inputClear N k.val

theorem FitsOut.execInputFaultClear (k : Fin 15) (s : State) (h : Fits N s0 s) (tch : Touches.execInputFaultClear N k) :
    FitsOut N s0 (execInputFaultClear k s) := by
  obtain ⟨h_syn, c_inputClear⟩ := tch
  unfold Sys2Proof.Machine.execInputFaultClear
  repeat' first
    | with_reducible assumption
    | with_reducible apply Fits.modSyn
    | with_reducible apply Fits.inputClear
    | with_reducible apply FitsOut.ite
    | with_reducible apply FitsOut.next
    | with_reducible apply FitsOut.fault
    | (intro _)
    | with_reducible apply Fits.ite
    | dsimp only
    | split
    | (refine Fits.pair ‹_ = (_, _)› ?_)
    | (refine Fits.pair2 ‹_ = (_, _, _)› ?_)

structure Touches.execInputQualified (N : Part → Prop) (k : Fin 15) : Prop where
  h_time : N .time
  k_SYN_IN_STAT_state : N (.reg (F.SYN_IN_STAT_state k.val).key)
  k_SYN_IN_WTR_remaining : N (.reg (F.SYN_IN_WTR_remaining k.val).key)
  c_synReport : Touches.synReport N

theorem FitsOut.execInputQualified (k : Fin 15) (s : State) (h : Fits N s0 s) (tch : Touches.execInputQualified N k) :
    FitsOut N s0 (execInputQualified k s) := by
  obtain ⟨h_time, k_SYN_IN_STAT_state, k_SYN_IN_WTR_remaining, c_synReport⟩ := tch
  unfold Sys2Proof.Machine.execInputQualified
  repeat' first
    | with_reducible assumption
    | with_reducible apply k_SYN_IN_STAT_state
    | with_reducible apply k_SYN_IN_WTR_remaining
    | with_reducible apply Fits.setF
    | with_reducible apply Fits.reach
    | with_reducible apply Fits.synReport
    | with_reducible apply FitsOut.ite
    | with_reducible apply FitsOut.next
    | with_reducible apply FitsOut.fault
    | (intro _)
    | with_reducible apply Fits.ite
    | dsimp only
    | split
    | (refine Fits.pair ‹_ = (_, _)› ?_)
    | (refine Fits.pair2 ‹_ = (_, _, _)› ?_)

structure Touches.execDpllLocked (N : Part → Prop) : Prop where
  k_SYN_STAT_state : N (.reg F.SYN_STAT_state.key)
  c_evt : Touches.evt N 0xD0
  c_synReport : Touches.synReport N

theorem FitsOut.execDpllLocked (s : State) (h : Fits N s0 s) (tch : Touches.execDpllLocked N) :
    FitsOut N s0 (execDpllLocked s) := by
  obtain ⟨k_SYN_STAT_state, c_evt, c_synReport⟩ := tch
  unfold Sys2Proof.Machine.execDpllLocked
  repeat' first
    | with_reducible assumption
    | with_reducible apply k_SYN_STAT_state
    | with_reducible apply Fits.setF
    | with_reducible apply Fits.evt
    | with_reducible apply Fits.synReport
    | with_reducible apply FitsOut.ite
    | with_reducible apply FitsOut.next
    | with_reducible apply FitsOut.fault
    | (intro _)
    | with_reducible apply Fits.ite
    | dsimp only
    | split
    | (refine Fits.pair ‹_ = (_, _)› ?_)
    | (refine Fits.pair2 ‹_ = (_, _, _)› ?_)

structure Touches.execHoldoverOos (N : Part → Prop) : Prop where
  h_time : N .time
  k_SYN_HIST_oos : N (.reg F.SYN_HIST_oos.key)
  k_SYN_HOLD_ELAPSED_seconds : N (.reg F.SYN_HOLD_ELAPSED_seconds.key)
  k_SYN_STAT_oos : N (.reg F.SYN_STAT_oos.key)
  c_evt : Touches.evt N 0xD0
  c_synReport : Touches.synReport N

theorem FitsOut.execHoldoverOos (s : State) (h : Fits N s0 s) (tch : Touches.execHoldoverOos N) :
    FitsOut N s0 (execHoldoverOos s) := by
  obtain ⟨h_time, k_SYN_HIST_oos, k_SYN_HOLD_ELAPSED_seconds, k_SYN_STAT_oos, c_evt, c_synReport⟩ := tch
  unfold Sys2Proof.Machine.execHoldoverOos
  repeat' first
    | with_reducible assumption
    | with_reducible apply k_SYN_HIST_oos
    | with_reducible apply k_SYN_HOLD_ELAPSED_seconds
    | with_reducible apply k_SYN_STAT_oos
    | with_reducible apply Fits.setF
    | with_reducible apply Fits.setB
    | with_reducible apply Fits.reach
    | with_reducible apply Fits.evt
    | with_reducible apply Fits.synReport
    | with_reducible apply Fits.synHist
    | with_reducible apply FitsOut.ite
    | with_reducible apply FitsOut.next
    | with_reducible apply FitsOut.fault
    | (intro _)
    | with_reducible apply Fits.ite
    | dsimp only
    | split
    | (refine Fits.pair ‹_ = (_, _)› ?_)
    | (refine Fits.pair2 ‹_ = (_, _, _)› ?_)

structure Touches.dpllTest (N : Part → Prop) : Prop where
  h_rep : N .rep
  h_syn : N .syn
  k_REP_STAT_dpll_test_busy : N (.reg F.REP_STAT_dpll_test_busy.key)
  k_SYN_FREQ_offset : N (.reg F.SYN_FREQ_offset.key)
  k_SYN_HIST_self_test : N (.reg F.SYN_HIST_self_test.key)
  k_SYN_STAT_state : N (.reg F.SYN_STAT_state.key)

theorem Fits.dpllTest (s : State) (h : Fits N s0 s) (tch : Touches.dpllTest N) :
    Fits N s0 (dpllTest s) := by
  obtain ⟨h_rep, h_syn, k_REP_STAT_dpll_test_busy, k_SYN_FREQ_offset, k_SYN_HIST_self_test, k_SYN_STAT_state⟩ := tch
  unfold Sys2Proof.Machine.dpllTest
  repeat' first
    | with_reducible assumption
    | with_reducible apply k_REP_STAT_dpll_test_busy
    | with_reducible apply k_SYN_FREQ_offset
    | with_reducible apply k_SYN_HIST_self_test
    | with_reducible apply k_SYN_STAT_state
    | with_reducible apply Fits.setF
    | with_reducible apply Fits.setB
    | with_reducible apply Fits.modSyn
    | with_reducible apply Fits.synHist
    | (intro _)
    | with_reducible apply Fits.ite
    | dsimp only
    | split
    | (refine Fits.pair ‹_ = (_, _)› ?_)
    | (refine Fits.pair2 ‹_ = (_, _, _)› ?_)
    | with_reducible apply Fits.upd_rep

structure Touches.execDpllTestStart (N : Part → Prop) : Prop where
  c_dpllTest : Touches.dpllTest N

theorem FitsOut.execDpllTestStart (s : State) (h : Fits N s0 s) (tch : Touches.execDpllTestStart N) :
    FitsOut N s0 (execDpllTestStart s) := by
  obtain ⟨c_dpllTest⟩ := tch
  unfold Sys2Proof.Machine.execDpllTestStart
  repeat' first
    | with_reducible assumption
    | with_reducible apply Fits.dpllTest
    | with_reducible apply FitsOut.ite
    | with_reducible apply FitsOut.next
    | with_reducible apply FitsOut.fault
    | (intro _)
    | with_reducible apply Fits.ite
    | dsimp only
    | split
    | (refine Fits.pair ‹_ = (_, _)› ?_)
    | (refine Fits.pair2 ‹_ = (_, _, _)› ?_)

structure Touches.execDpllTestEnd (N : Part → Prop) : Prop where
  h_syn : N .syn
  k_REP_STAT_dpll_test_busy : N (.reg F.REP_STAT_dpll_test_busy.key)
  k_SYN_STAT_state : N (.reg F.SYN_STAT_state.key)
  c_evt : Touches.evt N 0xF0
  c_synReport : Touches.synReport N
  c_inputFail : ∀ (a0 : Nat), Touches.inputFail N a0
  c_inputClear : ∀ (a0 : Nat), Touches.inputClear N a0

theorem FitsOut.execDpllTestEnd (ok : Bool) (s : State) (h : Fits N s0 s) (tch : Touches.execDpllTestEnd N) :
    FitsOut N s0 (execDpllTestEnd ok s) := by
  obtain ⟨h_syn, k_REP_STAT_dpll_test_busy, k_SYN_STAT_state, c_evt, c_synReport, c_inputFail, c_inputClear⟩ := tch
  unfold Sys2Proof.Machine.execDpllTestEnd
  repeat' first
    | with_reducible assumption
    | with_reducible apply k_REP_STAT_dpll_test_busy
    | with_reducible apply k_SYN_STAT_state
    | with_reducible exact c_inputFail _
    | with_reducible exact c_inputClear _
    | with_reducible apply Fits.setF
    | with_reducible apply Fits.setB
    | with_reducible apply Fits.evt
    | with_reducible apply Fits.modSyn
    | with_reducible apply Fits.synReport
    | with_reducible apply Fits.inputFail
    | with_reducible apply Fits.inputClear
    | with_reducible apply Fits.forEach
    | with_reducible apply FitsOut.ite
    | with_reducible apply FitsOut.next
    | with_reducible apply FitsOut.fault
    | (intro _)
    | with_reducible apply Fits.ite
    | dsimp only
    | split
    | (refine Fits.pair ‹_ = (_, _)› ?_)
    | (refine Fits.pair2 ‹_ = (_, _, _)› ?_)

structure Touches.execSwitchComplete (N : Part → Prop) : Prop where
  h_syn : N .syn
  h_time : N .time
  k_SYN_HIST_switched : N (.reg F.SYN_HIST_switched.key)
  k_SYN_STAT_switching : N (.reg F.SYN_STAT_switching.key)
  c_evt : Touches.evt N 0xD0

theorem FitsOut.execSwitchComplete (s : State) (h : Fits N s0 s) (tch : Touches.execSwitchComplete N) :
    FitsOut N s0 (execSwitchComplete s) := by
  obtain ⟨h_syn, h_time, k_SYN_HIST_switched, k_SYN_STAT_switching, c_evt⟩ := tch
  unfold Sys2Proof.Machine.execSwitchComplete
  repeat' first
    | with_reducible assumption
    | with_reducible apply k_SYN_HIST_switched
    | with_reducible apply k_SYN_STAT_switching
    | with_reducible apply Fits.setB
    | with_reducible apply Fits.reach
    | with_reducible apply Fits.evt
    | with_reducible apply Fits.synHist
    | with_reducible apply Fits.buildOut
    | with_reducible apply FitsOut.ite
    | with_reducible apply FitsOut.next
    | with_reducible apply FitsOut.fault
    | (intro _)
    | with_reducible apply Fits.ite
    | dsimp only
    | split
    | (refine Fits.pair ‹_ = (_, _)› ?_)
    | (refine Fits.pair2 ‹_ = (_, _, _)› ?_)

structure Touches.execRefDisagree (N : Part → Prop) : Prop where
  h_syn : N .syn
  k_SYN_DISAGREE_STAT_difference : N (.reg F.SYN_DISAGREE_STAT_difference.key)
  k_SYN_DISAGREE_STAT_input_a : N (.reg F.SYN_DISAGREE_STAT_input_a.key)
  k_SYN_DISAGREE_STAT_input_b : N (.reg F.SYN_DISAGREE_STAT_input_b.key)
  k_SYN_HIST_disagree : N (.reg F.SYN_HIST_disagree.key)
  c_level : Touches.level N 0xD0

theorem FitsOut.execRefDisagree (k : Fin 15) (diff : BitVec 16) (s : State) (h : Fits N s0 s) (tch : Touches.execRefDisagree N) :
    FitsOut N s0 (execRefDisagree k diff s) := by
  obtain ⟨h_syn, k_SYN_DISAGREE_STAT_difference, k_SYN_DISAGREE_STAT_input_a, k_SYN_DISAGREE_STAT_input_b, k_SYN_HIST_disagree, c_level⟩ := tch
  unfold Sys2Proof.Machine.execRefDisagree
  repeat' first
    | with_reducible assumption
    | with_reducible apply k_SYN_DISAGREE_STAT_difference
    | with_reducible apply k_SYN_DISAGREE_STAT_input_a
    | with_reducible apply k_SYN_DISAGREE_STAT_input_b
    | with_reducible apply k_SYN_HIST_disagree
    | with_reducible apply Fits.setF
    | with_reducible apply Fits.level
    | with_reducible apply Fits.modSyn
    | with_reducible apply Fits.synHist
    | with_reducible apply FitsOut.ite
    | with_reducible apply FitsOut.next
    | with_reducible apply FitsOut.fault
    | (intro _)
    | with_reducible apply Fits.ite
    | dsimp only
    | split
    | (refine Fits.pair ‹_ = (_, _)› ?_)
    | (refine Fits.pair2 ‹_ = (_, _, _)› ?_)

structure Touches.execEsmcPduRx (N : Part → Prop) (p : Fin 32) : Prop where
  h_syn : N .syn
  k_ESMC_BAD_count : N (.reg F.ESMC_BAD_count.key)
  k_SYN_ESMC_rx_failed : N (.reg (F.SYN_ESMC_rx_failed p.val).key)
  k_SYN_ESMC_rx_ql : N (.reg (F.SYN_ESMC_rx_ql p.val).key)
  c_portCount : Touches.portCount N p.val 9
  c_synReport : Touches.synReport N

theorem FitsOut.execEsmcPduRx (p : Fin 32) (code : Option (BitVec 4)) (s : State) (h : Fits N s0 s) (tch : Touches.execEsmcPduRx N p) :
    FitsOut N s0 (execEsmcPduRx p code s) := by
  obtain ⟨h_syn, k_ESMC_BAD_count, k_SYN_ESMC_rx_failed, k_SYN_ESMC_rx_ql, c_portCount, c_synReport⟩ := tch
  unfold Sys2Proof.Machine.execEsmcPduRx
  repeat' first
    | with_reducible assumption
    | with_reducible apply k_ESMC_BAD_count
    | with_reducible apply k_SYN_ESMC_rx_failed
    | with_reducible apply k_SYN_ESMC_rx_ql
    | with_reducible apply Fits.setF
    | with_reducible apply Fits.setB
    | with_reducible apply Fits.bump
    | with_reducible apply Fits.portCount
    | with_reducible apply Fits.modSyn
    | with_reducible apply Fits.synReport
    | with_reducible apply FitsOut.ite
    | with_reducible apply FitsOut.next
    | with_reducible apply FitsOut.fault
    | (intro _)
    | with_reducible apply Fits.ite
    | dsimp only
    | split
    | (refine Fits.pair ‹_ = (_, _)› ?_)
    | (refine Fits.pair2 ‹_ = (_, _, _)› ?_)

structure Touches.execEsmcInfoTx (N : Part → Prop) : Prop where
  h_syn : N .syn
  h_time : N .time
  k_SYN_ESMC_tx_ql : ∀ (a0 : Nat), N (.reg (F.SYN_ESMC_tx_ql a0).key)

theorem FitsOut.execEsmcInfoTx (s : State) (h : Fits N s0 s) (tch : Touches.execEsmcInfoTx N) :
    FitsOut N s0 (execEsmcInfoTx s) := by
  obtain ⟨h_syn, h_time, k_SYN_ESMC_tx_ql⟩ := tch
  unfold Sys2Proof.Machine.execEsmcInfoTx
  repeat' first
    | with_reducible assumption
    | with_reducible apply k_SYN_ESMC_tx_ql
    | with_reducible apply Fits.setF
    | with_reducible apply Fits.reach
    | with_reducible apply Fits.modSyn
    | with_reducible apply Fits.forEach
    | with_reducible apply FitsOut.ite
    | with_reducible apply FitsOut.next
    | with_reducible apply FitsOut.fault
    | (intro _)
    | with_reducible apply Fits.ite
    | dsimp only
    | split
    | (refine Fits.pair ‹_ = (_, _)› ?_)
    | (refine Fits.pair2 ‹_ = (_, _, _)› ?_)

structure Touches.execEsmcQlTimeout (N : Part → Prop) (p : Fin 32) : Prop where
  h_time : N .time
  k_SYN_ESMC_rx_failed : N (.reg (F.SYN_ESMC_rx_failed p.val).key)
  c_synReport : Touches.synReport N

theorem FitsOut.execEsmcQlTimeout (p : Fin 32) (s : State) (h : Fits N s0 s) (tch : Touches.execEsmcQlTimeout N p) :
    FitsOut N s0 (execEsmcQlTimeout p s) := by
  obtain ⟨h_time, k_SYN_ESMC_rx_failed, c_synReport⟩ := tch
  unfold Sys2Proof.Machine.execEsmcQlTimeout
  repeat' first
    | with_reducible assumption
    | with_reducible apply k_SYN_ESMC_rx_failed
    | with_reducible apply Fits.setB
    | with_reducible apply Fits.reach
    | with_reducible apply Fits.synReport
    | with_reducible apply FitsOut.ite
    | with_reducible apply FitsOut.next
    | with_reducible apply FitsOut.fault
    | (intro _)
    | with_reducible apply Fits.ite
    | dsimp only
    | split
    | (refine Fits.pair ‹_ = (_, _)› ?_)
    | (refine Fits.pair2 ‹_ = (_, _, _)› ?_)

structure Touches.adjustStart (N : Part → Prop) : Prop where
  h_syn : N .syn
  k_SYN_TIME_CTRL_busy : N (.reg F.SYN_TIME_CTRL_busy.key)

theorem Fits.adjustStart (off : Int) (s : State) (h : Fits N s0 s) (tch : Touches.adjustStart N) :
    Fits N s0 (adjustStart off s) := by
  obtain ⟨h_syn, k_SYN_TIME_CTRL_busy⟩ := tch
  unfold Sys2Proof.Machine.adjustStart
  repeat' first
    | with_reducible assumption
    | with_reducible apply k_SYN_TIME_CTRL_busy
    | with_reducible apply Fits.setB
    | with_reducible apply Fits.modSyn
    | (intro _)
    | with_reducible apply Fits.ite
    | dsimp only
    | split
    | (refine Fits.pair ‹_ = (_, _)› ?_)
    | (refine Fits.pair2 ‹_ = (_, _, _)› ?_)

structure Touches.timeCtrl (N : Part → Prop) : Prop where
  h_syn : N .syn
  k_SYN_TIME_CTRL_adj_rate : N (.reg F.SYN_TIME_CTRL_adj_rate.key)
  k_SYN_TIME_CTRL_busy : N (.reg F.SYN_TIME_CTRL_busy.key)
  k_SYN_TIME_CTRL_op : N (.reg F.SYN_TIME_CTRL_op.key)
  c_err : Touches.err N 0xD3
  c_adjustStart : Touches.adjustStart N

theorem Fits.timeCtrl (go : Bool) (op : Bool) (rate : Nat) (s : State) (h : Fits N s0 s) (tch : Touches.timeCtrl N) :
    Fits N s0 (timeCtrl go op rate s) := by
  obtain ⟨h_syn, k_SYN_TIME_CTRL_adj_rate, k_SYN_TIME_CTRL_busy, k_SYN_TIME_CTRL_op, c_err, c_adjustStart⟩ := tch
  unfold Sys2Proof.Machine.timeCtrl
  repeat' first
    | with_reducible assumption
    | with_reducible apply k_SYN_TIME_CTRL_adj_rate
    | with_reducible apply k_SYN_TIME_CTRL_busy
    | with_reducible apply k_SYN_TIME_CTRL_op
    | with_reducible apply Fits.setF
    | with_reducible apply Fits.setB
    | with_reducible apply Fits.err
    | with_reducible apply Fits.modSyn
    | with_reducible apply Fits.adjustStart
    | (intro _)
    | with_reducible apply Fits.ite
    | dsimp only
    | split
    | (refine Fits.pair ‹_ = (_, _)› ?_)
    | (refine Fits.pair2 ‹_ = (_, _, _)› ?_)

structure Touches.execSetAtPps (N : Part → Prop) : Prop where
  c_goWrite : Touches.goWrite N 0xD3058
  c_timeCtrl : Touches.timeCtrl N

theorem FitsOut.execSetAtPps (m : Master) (rate : BitVec 10) (s : State) (h : Fits N s0 s) (tch : Touches.execSetAtPps N) :
    FitsOut N s0 (execSetAtPps m rate s) := by
  obtain ⟨c_goWrite, c_timeCtrl⟩ := tch
  unfold Sys2Proof.Machine.execSetAtPps
  repeat' first
    | with_reducible assumption
    | with_reducible apply Fits.timeCtrl
    | with_reducible apply Fits.goWrite
    | with_reducible apply FitsOut.ite
    | with_reducible apply FitsOut.next
    | with_reducible apply FitsOut.fault
    | (intro _)
    | with_reducible apply Fits.ite
    | dsimp only
    | split
    | (refine Fits.pair ‹_ = (_, _)› ?_)
    | (refine Fits.pair2 ‹_ = (_, _, _)› ?_)

structure Touches.execAdjust (N : Part → Prop) : Prop where
  c_goWrite : Touches.goWrite N 0xD3058
  c_timeCtrl : Touches.timeCtrl N

theorem FitsOut.execAdjust (m : Master) (rate : BitVec 10) (s : State) (h : Fits N s0 s) (tch : Touches.execAdjust N) :
    FitsOut N s0 (execAdjust m rate s) := by
  obtain ⟨c_goWrite, c_timeCtrl⟩ := tch
  unfold Sys2Proof.Machine.execAdjust
  repeat' first
    | with_reducible assumption
    | with_reducible apply Fits.timeCtrl
    | with_reducible apply Fits.goWrite
    | with_reducible apply FitsOut.ite
    | with_reducible apply FitsOut.next
    | with_reducible apply FitsOut.fault
    | (intro _)
    | with_reducible apply Fits.ite
    | dsimp only
    | split
    | (refine Fits.pair ‹_ = (_, _)› ?_)
    | (refine Fits.pair2 ‹_ = (_, _, _)› ?_)

structure Touches.execAdjustComplete (N : Part → Prop) : Prop where
  h_syn : N .syn
  h_time : N .time
  k_SYN_TIME_CTRL_busy : N (.reg F.SYN_TIME_CTRL_busy.key)

theorem FitsOut.execAdjustComplete (s : State) (h : Fits N s0 s) (tch : Touches.execAdjustComplete N) :
    FitsOut N s0 (execAdjustComplete s) := by
  obtain ⟨h_syn, h_time, k_SYN_TIME_CTRL_busy⟩ := tch
  unfold Sys2Proof.Machine.execAdjustComplete
  repeat' first
    | with_reducible assumption
    | with_reducible apply k_SYN_TIME_CTRL_busy
    | with_reducible apply Fits.setB
    | with_reducible apply Fits.reach
    | with_reducible apply Fits.modSyn
    | with_reducible apply FitsOut.ite
    | with_reducible apply FitsOut.next
    | with_reducible apply FitsOut.fault
    | (intro _)
    | with_reducible apply Fits.ite
    | dsimp only
    | split
    | (refine Fits.pair ‹_ = (_, _)› ?_)
    | (refine Fits.pair2 ‹_ = (_, _, _)› ?_)

structure Touches.execPpsInEdge (N : Part → Prop) : Prop where
  h_syn : N .syn
  h_time : N .time
  k_SYN_PPS_IN_TS_HI_time : N (.reg F.SYN_PPS_IN_TS_HI_time.key)
  k_SYN_PPS_IN_TS_LO_time : N (.reg F.SYN_PPS_IN_TS_LO_time.key)
  k_SYN_PPS_STAT_e : N (.reg F.SYN_PPS_STAT_e.key)
  k_SYN_PPS_STAT_present : N (.reg F.SYN_PPS_STAT_present.key)
  c_evt : Touches.evt N 0xD0
  c_adjustStart : Touches.adjustStart N

theorem FitsOut.execPpsInEdge (t : BitVec 64) (s : State) (h : Fits N s0 s) (tch : Touches.execPpsInEdge N) :
    FitsOut N s0 (execPpsInEdge t s) := by
  obtain ⟨h_syn, h_time, k_SYN_PPS_IN_TS_HI_time, k_SYN_PPS_IN_TS_LO_time, k_SYN_PPS_STAT_e, k_SYN_PPS_STAT_present, c_evt, c_adjustStart⟩ := tch
  unfold Sys2Proof.Machine.execPpsInEdge
  repeat' first
    | with_reducible assumption
    | with_reducible apply k_SYN_PPS_IN_TS_HI_time
    | with_reducible apply k_SYN_PPS_IN_TS_LO_time
    | with_reducible apply k_SYN_PPS_STAT_e
    | with_reducible apply k_SYN_PPS_STAT_present
    | with_reducible apply Fits.setF
    | with_reducible apply Fits.setB
    | with_reducible apply Fits.reach
    | with_reducible apply Fits.evt
    | with_reducible apply Fits.modSyn
    | with_reducible apply Fits.adjustStart
    | with_reducible apply FitsOut.ite
    | with_reducible apply FitsOut.next
    | with_reducible apply FitsOut.fault
    | (intro _)
    | with_reducible apply Fits.ite
    | dsimp only
    | split
    | (refine Fits.pair ‹_ = (_, _)› ?_)
    | (refine Fits.pair2 ‹_ = (_, _, _)› ?_)
    | with_reducible apply Fits.upd_time

structure Touches.execPpsInLoss (N : Part → Prop) : Prop where
  h_time : N .time
  k_SYN_PPS_STAT_present : N (.reg F.SYN_PPS_STAT_present.key)
  c_evt : Touches.evt N 0xD0

theorem FitsOut.execPpsInLoss (s : State) (h : Fits N s0 s) (tch : Touches.execPpsInLoss N) :
    FitsOut N s0 (execPpsInLoss s) := by
  obtain ⟨h_time, k_SYN_PPS_STAT_present, c_evt⟩ := tch
  unfold Sys2Proof.Machine.execPpsInLoss
  repeat' first
    | with_reducible assumption
    | with_reducible apply k_SYN_PPS_STAT_present
    | with_reducible apply Fits.setB
    | with_reducible apply Fits.reach
    | with_reducible apply Fits.evt
    | with_reducible apply FitsOut.ite
    | with_reducible apply FitsOut.next
    | with_reducible apply FitsOut.fault
    | (intro _)
    | with_reducible apply Fits.ite
    | dsimp only
    | split
    | (refine Fits.pair ‹_ = (_, _)› ?_)
    | (refine Fits.pair2 ‹_ = (_, _, _)› ?_)

structure Touches.execPpsOut (N : Part → Prop) : Prop where
  h_syn : N .syn
  h_time : N .time
  k_SYN_TIME_CTRL_busy : N (.reg F.SYN_TIME_CTRL_busy.key)
  c_evt : Touches.evt N 0xD0

theorem FitsOut.execPpsOut (s : State) (h : Fits N s0 s) (tch : Touches.execPpsOut N) :
    FitsOut N s0 (execPpsOut s) := by
  obtain ⟨h_syn, h_time, k_SYN_TIME_CTRL_busy, c_evt⟩ := tch
  unfold Sys2Proof.Machine.execPpsOut
  repeat' first
    | with_reducible assumption
    | with_reducible apply k_SYN_TIME_CTRL_busy
    | with_reducible apply Fits.setB
    | with_reducible apply Fits.reach
    | with_reducible apply Fits.evt
    | with_reducible apply Fits.modSyn
    | with_reducible apply FitsOut.ite
    | with_reducible apply FitsOut.next
    | with_reducible apply FitsOut.fault
    | (intro _)
    | with_reducible apply Fits.ite
    | dsimp only
    | split
    | (refine Fits.pair ‹_ = (_, _)› ?_)
    | (refine Fits.pair2 ‹_ = (_, _, _)› ?_)
    | with_reducible apply Fits.upd_time

structure Touches.synApply (N : Part → Prop) : Prop where
  h_syn : N .syn
  k_SYN_IN_STAT_state : ∀ (a0 : Nat), N (.reg (F.SYN_IN_STAT_state a0).key)
  k_SYN_IN_WTR_remaining : ∀ (a0 : Nat), N (.reg (F.SYN_IN_WTR_remaining a0).key)
  c_synReport : Touches.synReport N

theorem Fits.synApply (old : Tbl Nat) (s : State) (h : Fits N s0 s) (tch : Touches.synApply N) :
    Fits N s0 (synApply old s) := by
  obtain ⟨h_syn, k_SYN_IN_STAT_state, k_SYN_IN_WTR_remaining, c_synReport⟩ := tch
  unfold Sys2Proof.Machine.synApply
  repeat' first
    | with_reducible assumption
    | with_reducible apply k_SYN_IN_STAT_state
    | with_reducible apply k_SYN_IN_WTR_remaining
    | with_reducible apply Fits.setF
    | with_reducible apply Fits.modSyn
    | with_reducible apply Fits.synReport
    | with_reducible apply Fits.forEach
    | (intro _)
    | with_reducible apply Fits.ite
    | dsimp only
    | split
    | (refine Fits.pair ‹_ = (_, _)› ?_)
    | (refine Fits.pair2 ‹_ = (_, _, _)› ?_)

end Sys2Proof.Machine
end

