-- ==== Sys2Proof/Laws/FitsMonitor.lean ====
section
/-! SUPPORT. What the operations of Machine/Monitor.lean touch (a structure of parts for each, over those of the operations it calls), and
that each keeps the canonical form. -/
set_option linter.unusedTactic false
set_option linter.unreachableTactic false
namespace Sys2Proof.Machine

variable {N : Part → Prop} {s0 : State}

structure Touches.monTo (N : Part → Prop) (le : Nat) : Prop where
  k_MON_STAT_pending : N (.reg (F.MON_STAT_pending le).key)
  k_MON_STAT_state : N (.reg (F.MON_STAT_state le).key)

theorem Fits.monTo (le : Nat) (st : Nat) (s : State) (h : Fits N s0 s) (tch : Touches.monTo N le) :
    Fits N s0 (monTo le st s) := by
  obtain ⟨k_MON_STAT_pending, k_MON_STAT_state⟩ := tch
  unfold Sys2Proof.Machine.monTo
  repeat' first
    | with_reducible assumption
    | with_reducible apply k_MON_STAT_pending
    | with_reducible apply k_MON_STAT_state
    | with_reducible apply Fits.setF
    | with_reducible apply Fits.setB
    | (intro _)
    | with_reducible apply Fits.ite
    | dsimp only
    | split
    | (refine Fits.pair ‹_ = (_, _)› ?_)
    | (refine Fits.pair2 ‹_ = (_, _, _)› ?_)

structure Touches.monAbort (N : Part → Prop) (le : Nat) : Prop where
  c_monTo : Touches.monTo N le

theorem Fits.monAbort (le : Nat) (s : State) (h : Fits N s0 s) (tch : Touches.monAbort N le) :
    Fits N s0 (monAbort le s) := by
  obtain ⟨c_monTo⟩ := tch
  unfold Sys2Proof.Machine.monAbort
  repeat' first
    | with_reducible assumption
    | with_reducible apply Fits.monTo
    | (intro _)
    | with_reducible apply Fits.ite
    | dsimp only
    | split
    | (refine Fits.pair ‹_ = (_, _)› ?_)
    | (refine Fits.pair2 ‹_ = (_, _, _)› ?_)

structure Touches.monTake (N : Part → Prop) (le : Nat) : Prop where
  h_drawn : N .drawn
  h_mon : N (.mon ((le : Nat) != 0))
  c_monTo : Touches.monTo N le
  c_monAbort : Touches.monAbort N le

theorem Fits.monTake (le : Nat) (s : State) (h : Fits N s0 s) (tch : Touches.monTake N le) :
    Fits N s0 (monTake le s) := by
  obtain ⟨h_drawn, h_mon, c_monTo, c_monAbort⟩ := tch
  unfold Sys2Proof.Machine.monTake
  repeat' first
    | with_reducible assumption
    | with_reducible apply Fits.draw
    | with_reducible apply Fits.modEng
    | with_reducible apply Fits.monTo
    | with_reducible apply Fits.monAbort
    | (refine Fits.eng_mon ?_ _ (fun y => { y with key := _, since := _ }) ‹_› (fun _ t => t))
    | (intro _)
    | with_reducible apply Fits.ite
    | dsimp only
    | split
    | (refine Fits.pair ‹_ = (_, _)› ?_)
    | (refine Fits.pair2 ‹_ = (_, _, _)› ?_)

structure Touches.monStamp (N : Part → Prop) (le : Nat) : Prop where
  k_MON_TRIG_T_HI_time : N (.reg (F.MON_TRIG_T_HI_time le).key)
  k_MON_TRIG_T_LO_time : N (.reg (F.MON_TRIG_T_LO_time le).key)

theorem Fits.monStamp (le : Nat) (s : State) (h : Fits N s0 s) (tch : Touches.monStamp N le) :
    Fits N s0 (monStamp le s) := by
  obtain ⟨k_MON_TRIG_T_HI_time, k_MON_TRIG_T_LO_time⟩ := tch
  unfold Sys2Proof.Machine.monStamp
  repeat' first
    | with_reducible assumption
    | with_reducible apply k_MON_TRIG_T_HI_time
    | with_reducible apply k_MON_TRIG_T_LO_time
    | with_reducible apply Fits.setF
    | (intro _)
    | with_reducible apply Fits.ite
    | dsimp only
    | split
    | (refine Fits.pair ‹_ = (_, _)› ?_)
    | (refine Fits.pair2 ‹_ = (_, _, _)› ?_)

structure Touches.monPre (N : Part → Prop) (le : Nat) : Prop where
  h_mon : N (.mon ((le : Nat) != 0))

theorem Fits.monPre (le : Nat) (armed : Bool) (s : State) (h : Fits N s0 s) (tch : Touches.monPre N le) :
    Fits N s0 (monPre le armed s) := by
  obtain ⟨h_mon⟩ := tch
  unfold Sys2Proof.Machine.monPre
  repeat' first
    | with_reducible assumption
    | with_reducible apply Fits.modEng
    | (refine Fits.eng_mon ?_ _ (fun y => { y with pre := _ }) ‹_› (fun _ t => t))
    | (intro _)
    | with_reducible apply Fits.ite
    | dsimp only
    | split
    | (refine Fits.pair ‹_ = (_, _)› ?_)
    | (refine Fits.pair2 ‹_ = (_, _, _)› ?_)

structure Touches.monTrigger (N : Part → Prop) (le : Nat) : Prop where
  k_MON_STAT_pending : N (.reg (F.MON_STAT_pending le).key)
  k_MON_STAT_state : N (.reg (F.MON_STAT_state le).key)
  k_MON_TRIG_OVL_count : N (.reg (F.MON_TRIG_OVL_count le).key)
  c_evt : Touches.evt N (monPage le)
  c_monStamp : Touches.monStamp N le
  c_monPre : Touches.monPre N le

theorem Fits.monTrigger (le : Nat) (s : State) (h : Fits N s0 s) (tch : Touches.monTrigger N le) :
    Fits N s0 (monTrigger le s) := by
  obtain ⟨k_MON_STAT_pending, k_MON_STAT_state, k_MON_TRIG_OVL_count, c_evt, c_monStamp, c_monPre⟩ := tch
  unfold Sys2Proof.Machine.monTrigger
  repeat' first
    | with_reducible assumption
    | with_reducible apply k_MON_STAT_pending
    | with_reducible apply k_MON_STAT_state
    | with_reducible apply k_MON_TRIG_OVL_count
    | with_reducible apply Fits.setF
    | with_reducible apply Fits.setB
    | with_reducible apply Fits.bump
    | with_reducible apply Fits.evt
    | with_reducible apply Fits.monStamp
    | with_reducible apply Fits.monPre
    | (intro _)
    | with_reducible apply Fits.ite
    | dsimp only
    | split
    | (refine Fits.pair ‹_ = (_, _)› ?_)
    | (refine Fits.pair2 ‹_ = (_, _, _)› ?_)

structure Touches.monTrigGo (N : Part → Prop) (le : Nat) : Prop where
  c_monTrigger : Touches.monTrigger N le

theorem Fits.monTrigGo (le : Nat) (s : State) (h : Fits N s0 s) (tch : Touches.monTrigGo N le) :
    Fits N s0 (monTrigGo le s) := by
  obtain ⟨c_monTrigger⟩ := tch
  unfold Sys2Proof.Machine.monTrigGo
  repeat' first
    | with_reducible assumption
    | with_reducible apply Fits.monTrigger
    | (intro _)
    | with_reducible apply Fits.ite
    | dsimp only
    | split
    | (refine Fits.pair ‹_ = (_, _)› ?_)
    | (refine Fits.pair2 ‹_ = (_, _, _)› ?_)

structure Touches.monRearm (N : Part → Prop) (le : Nat) : Prop where
  c_monTo : Touches.monTo N le

theorem Fits.monRearm (le : Nat) (s : State) (h : Fits N s0 s) (tch : Touches.monRearm N le) :
    Fits N s0 (monRearm le s) := by
  obtain ⟨c_monTo⟩ := tch
  unfold Sys2Proof.Machine.monRearm
  repeat' first
    | with_reducible assumption
    | with_reducible apply Fits.monTo
    | (intro _)
    | with_reducible apply Fits.ite
    | dsimp only
    | split
    | (refine Fits.pair ‹_ = (_, _)› ?_)
    | (refine Fits.pair2 ‹_ = (_, _, _)› ?_)

structure Touches.execMonTrigGo (N : Part → Prop) (le : Fin 2) : Prop where
  c_goWrite : Touches.goWrite N (monCmd le.val)
  c_monTrigGo : Touches.monTrigGo N le.val

theorem FitsOut.execMonTrigGo (m : Master) (le : Fin 2) (s : State) (h : Fits N s0 s) (tch : Touches.execMonTrigGo N le) :
    FitsOut N s0 (execMonTrigGo m le s) := by
  obtain ⟨c_goWrite, c_monTrigGo⟩ := tch
  unfold Sys2Proof.Machine.execMonTrigGo
  repeat' first
    | with_reducible assumption
    | with_reducible apply Fits.monTrigGo
    | with_reducible apply Fits.goWrite
    | with_reducible apply FitsOut.ite
    | with_reducible apply FitsOut.next
    | with_reducible apply FitsOut.fault
    | (intro _)
    | with_reducible apply Fits.ite
    | dsimp only
    | split
    | (refine Fits.pair ‹_ = (_, _)› ?_)
    | (refine Fits.pair2 ‹_ = (_, _, _)› ?_)

structure Touches.execMonAbort (N : Part → Prop) (le : Fin 2) : Prop where
  c_goWrite : Touches.goWrite N (monCmd le.val)
  c_monAbort : Touches.monAbort N le.val

theorem FitsOut.execMonAbort (m : Master) (le : Fin 2) (s : State) (h : Fits N s0 s) (tch : Touches.execMonAbort N le) :
    FitsOut N s0 (execMonAbort m le s) := by
  obtain ⟨c_goWrite, c_monAbort⟩ := tch
  unfold Sys2Proof.Machine.execMonAbort
  repeat' first
    | with_reducible assumption
    | with_reducible apply Fits.monAbort
    | with_reducible apply Fits.goWrite
    | with_reducible apply FitsOut.ite
    | with_reducible apply FitsOut.next
    | with_reducible apply FitsOut.fault
    | (intro _)
    | with_reducible apply Fits.ite
    | dsimp only
    | split
    | (refine Fits.pair ‹_ = (_, _)› ?_)
    | (refine Fits.pair2 ‹_ = (_, _, _)› ?_)

structure Touches.execMonRearm (N : Part → Prop) (le : Fin 2) : Prop where
  c_goWrite : Touches.goWrite N (monCmd le.val)
  c_monRearm : Touches.monRearm N le.val

theorem FitsOut.execMonRearm (m : Master) (le : Fin 2) (s : State) (h : Fits N s0 s) (tch : Touches.execMonRearm N le) :
    FitsOut N s0 (execMonRearm m le s) := by
  obtain ⟨c_goWrite, c_monRearm⟩ := tch
  unfold Sys2Proof.Machine.execMonRearm
  repeat' first
    | with_reducible assumption
    | with_reducible apply Fits.monRearm
    | with_reducible apply Fits.goWrite
    | with_reducible apply FitsOut.ite
    | with_reducible apply FitsOut.next
    | with_reducible apply FitsOut.fault
    | (intro _)
    | with_reducible apply Fits.ite
    | dsimp only
    | split
    | (refine Fits.pair ‹_ = (_, _)› ?_)
    | (refine Fits.pair2 ‹_ = (_, _, _)› ?_)

structure Touches.monSat (N : Part → Prop) (le : Nat) : Prop where
  k_MON_SAT_count : N (.reg (F.MON_SAT_count le).key)
  c_evt : Touches.evt N (monPage le)

theorem Fits.monSat (le : Nat) (n : Nat) (s : State) (h : Fits N s0 s) (tch : Touches.monSat N le) :
    Fits N s0 (monSat le n s) := by
  obtain ⟨k_MON_SAT_count, c_evt⟩ := tch
  unfold Sys2Proof.Machine.monSat
  repeat' first
    | with_reducible assumption
    | with_reducible apply k_MON_SAT_count
    | with_reducible apply Fits.bump
    | with_reducible apply Fits.evt
    | (intro _)
    | with_reducible apply Fits.ite
    | dsimp only
    | split
    | (refine Fits.pair ‹_ = (_, _)› ?_)
    | (refine Fits.pair2 ‹_ = (_, _, _)› ?_)

structure Touches.execMonTrigger (N : Part → Prop) (le : Fin 2) : Prop where
  c_monTrigger : Touches.monTrigger N le.val
  c_monSat : Touches.monSat N le.val

theorem FitsOut.execMonTrigger (le : Fin 2) (sat : Word) (s : State) (h : Fits N s0 s) (tch : Touches.execMonTrigger N le) :
    FitsOut N s0 (execMonTrigger le sat s) := by
  obtain ⟨c_monTrigger, c_monSat⟩ := tch
  unfold Sys2Proof.Machine.execMonTrigger
  repeat' first
    | with_reducible assumption
    | with_reducible apply Fits.monTrigger
    | with_reducible apply Fits.monSat
    | with_reducible apply FitsOut.ite
    | with_reducible apply FitsOut.next
    | with_reducible apply FitsOut.fault
    | (intro _)
    | with_reducible apply Fits.ite
    | dsimp only
    | split
    | (refine Fits.pair ‹_ = (_, _)› ?_)
    | (refine Fits.pair2 ‹_ = (_, _, _)› ?_)

structure Touches.execCapDone (N : Part → Prop) (le : Fin 2) : Prop where
  k_MON_CAP_SEQ_count : N (.reg (F.MON_CAP_SEQ_count le.val).key)
  k_MON_STAT_length : N (.reg (F.MON_STAT_length le.val).key)
  k_MON_STAT_overrun : N (.reg (F.MON_STAT_overrun le.val).key)
  k_MON_STAT_pending : N (.reg (F.MON_STAT_pending le.val).key)
  h_mon : N (.mon ((le.val : Nat) != 0))
  c_evt : Touches.evt N (monPage le.val)
  c_monTo : Touches.monTo N le.val
  c_monPre : Touches.monPre N le.val
  c_monSat : Touches.monSat N le.val

theorem FitsOut.execCapDone (le : Fin 2) (units : BitVec 28) (sat : Word) (words : List Word) (s : State) (h : Fits N s0 s) (tch : Touches.execCapDone N le) :
    FitsOut N s0 (execCapDone le units sat words s) := by
  obtain ⟨k_MON_CAP_SEQ_count, k_MON_STAT_length, k_MON_STAT_overrun, k_MON_STAT_pending, h_mon, c_evt, c_monTo, c_monPre, c_monSat⟩ := tch
  unfold Sys2Proof.Machine.execCapDone
  repeat' first
    | with_reducible assumption
    | with_reducible apply k_MON_CAP_SEQ_count
    | with_reducible apply k_MON_STAT_length
    | with_reducible apply k_MON_STAT_overrun
    | with_reducible apply k_MON_STAT_pending
    | with_reducible apply Fits.setF
    | with_reducible apply Fits.setB
    | with_reducible apply Fits.incWrap
    | with_reducible apply Fits.evt
    | with_reducible apply Fits.modEng
    | with_reducible apply Fits.monTo
    | with_reducible apply Fits.monPre
    | with_reducible apply Fits.monSat
    | with_reducible apply Fits.foldlPair
    | with_reducible apply Fits.foldl
    | (with_reducible refine Fits.eng_mon ?_ _ (fun m => { m with buffer := words.zipIdx.foldl (fun b w => Tbl.set 0 b (w.2 % 16384) w.1.toNat) m.buffer }) ‹_› (fun _ t => Tbl.wf_foldl_set (fun w : Word × Nat => w.2 % 16384) (fun w => w.1.toNat) _ t))
    | with_reducible apply FitsOut.ite
    | with_reducible apply FitsOut.next
    | with_reducible apply FitsOut.fault
    | (intro _)
    | with_reducible apply Fits.ite
    | dsimp only
    | split
    | (refine Fits.pair ‹_ = (_, _)› ?_)
    | (refine Fits.pair2 ‹_ = (_, _, _)› ?_)

structure Touches.monApply (N : Part → Prop) (le : Nat) : Prop where
  c_monTake : Touches.monTake N le

theorem Fits.monApply (le : Nat) (s : State) (h : Fits N s0 s) (tch : Touches.monApply N le) :
    Fits N s0 (monApply le s) := by
  obtain ⟨c_monTake⟩ := tch
  unfold Sys2Proof.Machine.monApply
  repeat' first
    | with_reducible assumption
    | with_reducible apply Fits.monTake
    | (intro _)
    | with_reducible apply Fits.ite
    | dsimp only
    | split
    | (refine Fits.pair ‹_ = (_, _)› ?_)
    | (refine Fits.pair2 ‹_ = (_, _, _)› ?_)

end Sys2Proof.Machine
end

