-- ==== Sys2Proof/Laws/FitsRepair.lean ====
section
/-! SUPPORT. What the operations of Machine/Repair.lean touch (a structure of parts for each, over those of the operations it calls), and
that each keeps the canonical form. -/
set_option linter.unusedTactic false
set_option linter.unreachableTactic false
namespace Sys2Proof.Machine

variable {N : Part → Prop} {s0 : State}

theorem Fits.modRep (f : Rep → Rep) (s : State) (h : Fits N s0 s) (h_rep : N .rep) :
    Fits N s0 (modRep f s) := by
  unfold Sys2Proof.Machine.modRep
  repeat' first
    | with_reducible assumption
    | (intro _)
    | with_reducible apply Fits.ite
    | dsimp only
    | split
    | (refine Fits.pair ‹_ = (_, _)› ?_)
    | (refine Fits.pair2 ‹_ = (_, _, _)› ?_)
    | with_reducible apply Fits.upd_rep

theorem Fits.workSet (le : Nat) (dac : Bool) (lane : Nat) (pos : Nat) (s : State) (h : Fits N s0 s) (h_rep : N .rep) :
    Fits N s0 (workSet le dac lane pos s) := by
  unfold Sys2Proof.Machine.workSet
  repeat' first
    | with_reducible assumption
    | with_reducible apply Fits.modRep
    | (intro _)
    | with_reducible apply Fits.ite
    | dsimp only
    | split
    | (refine Fits.pair ‹_ = (_, _)› ?_)
    | (refine Fits.pair2 ‹_ = (_, _, _)› ?_)

theorem Fits.workAll (le : Nat) (s : State) (h : Fits N s0 s) (h_rep : N .rep) :
    Fits N s0 (workAll le s) := by
  unfold Sys2Proof.Machine.workAll
  repeat' first
    | with_reducible assumption
    | with_reducible apply Fits.workSet
    | with_reducible apply Fits.forEach
    | (intro _)
    | with_reducible apply Fits.ite
    | dsimp only
    | split
    | (refine Fits.pair ‹_ = (_, _)› ?_)
    | (refine Fits.pair2 ‹_ = (_, _, _)› ?_)

structure Touches.learn (N : Part → Prop) (le : Nat) (dac : Bool) (lane : Nat) (pos : Nat) (c : Nat) : Prop where
  h_rep : N .rep
  k_trimField : ∀ (a4 : Nat), N (.reg (trimField le dac lane pos a4 c).key)

theorem Fits.learn (le : Nat) (dac : Bool) (lane : Nat) (pos : Nat) (c : Nat) (measured : Int) (s : State) (h : Fits N s0 s) (tch : Touches.learn N le dac lane pos c) :
    Fits N s0 (learn le dac lane pos c measured s) := by
  obtain ⟨h_rep, k_trimField⟩ := tch
  unfold Sys2Proof.Machine.learn
  repeat' first
    | with_reducible assumption
    | with_reducible apply k_trimField
    | with_reducible apply Fits.setF
    | with_reducible apply Fits.modRep
    | (intro _)
    | with_reducible apply Fits.ite
    | dsimp only
    | split
    | (refine Fits.pair ‹_ = (_, _)› ?_)
    | (refine Fits.pair2 ‹_ = (_, _, _)› ?_)

structure Touches.trimLearn (N : Part → Prop) (le : Nat) (dac : Bool) (c : UnitCal) : Prop where
  h_rep : N .rep
  k_CAL_ENG_STAT_learned : N (.reg (F.CAL_ENG_STAT_learned le).key)
  c_evt : Touches.evt N 0xF0
  c_learn : Touches.learn N le dac c.lane.val c.pos.val 0
  c_learn_1 : Touches.learn N le dac c.lane.val c.pos.val 1
  c_learn_2 : Touches.learn N le dac c.lane.val c.pos.val 2

theorem Fits.trimLearn (le : Nat) (dac : Bool) (c : UnitCal) (s : State) (h : Fits N s0 s) (tch : Touches.trimLearn N le dac c) :
    Fits N s0 (trimLearn le dac c s) := by
  obtain ⟨h_rep, k_CAL_ENG_STAT_learned, c_evt, c_learn, c_learn_1, c_learn_2⟩ := tch
  unfold Sys2Proof.Machine.trimLearn
  repeat' first
    | with_reducible assumption
    | with_reducible apply k_CAL_ENG_STAT_learned
    | with_reducible apply Fits.setF
    | with_reducible apply Fits.evt
    | with_reducible apply Fits.workSet
    | with_reducible apply Fits.learn
    | (intro _)
    | with_reducible apply Fits.ite
    | dsimp only
    | split
    | (refine Fits.pair ‹_ = (_, _)› ?_)
    | (refine Fits.pair2 ‹_ = (_, _, _)› ?_)

structure Touches.trimWrite (N : Part → Prop) (le : Nat) (t : Nat) (w : Nat) : Prop where
  k_trimField : ∀ (a1 : Bool) (a2 : Nat) (a3 : Nat), N (.reg (trimField le a1 a2 a3 t 0).key)
  k_trimField_1 : ∀ (a1 : Bool) (a2 : Nat) (a3 : Nat), N (.reg (trimField le a1 a2 a3 t 1).key)
  k_trimField_2 : ∀ (a1 : Bool) (a2 : Nat) (a3 : Nat), N (.reg (trimField le a1 a2 a3 t 2).key)
  k_TRIM_LANE_peaking : N (.reg (F.TRIM_LANE_peaking le t (w - 408)).key)
  k_TRIM_LANE_swing : N (.reg (F.TRIM_LANE_swing le t (w - 408)).key)
  c_refuse : Touches.refuse N (0x320000 + 0x4000 * le + 0x800 * t + 4 * w)
  c_goWrite : Touches.goWrite N (0x320000 + 0x4000 * le + 0x800 * t + 4 * w)

theorem Fits.trimWrite (m : Master) (le : Nat) (t : Nat) (w : Nat) (value : Nat) (s : State) (h : Fits N s0 s) (tch : Touches.trimWrite N le t w) :
    Fits N s0 (trimWrite m le t w value s) := by
  obtain ⟨k_trimField, k_trimField_1, k_trimField_2, k_TRIM_LANE_peaking, k_TRIM_LANE_swing, c_refuse, c_goWrite⟩ := tch
  unfold Sys2Proof.Machine.trimWrite
  repeat' first
    | with_reducible assumption
    | with_reducible apply k_trimField
    | with_reducible apply k_trimField_1
    | with_reducible apply k_trimField_2
    | with_reducible apply k_TRIM_LANE_peaking
    | with_reducible apply k_TRIM_LANE_swing
    | with_reducible apply Fits.setF
    | with_reducible apply Fits.refuse
    | with_reducible apply Fits.goWrite
    | (intro _)
    | with_reducible apply Fits.ite
    | dsimp only
    | split
    | (refine Fits.pair ‹_ = (_, _)› ?_)
    | (refine Fits.pair2 ‹_ = (_, _, _)› ?_)

structure Touches.execTrimWrite (N : Part → Prop) (le : Fin 2) (t : Fin 6) (w : Fin 512) : Prop where
  c_trimWrite : Touches.trimWrite N le.val t.val w.val

theorem FitsOut.execTrimWrite (m : Master) (le : Fin 2) (t : Fin 6) (w : Fin 512) (value : Word) (s : State) (h : Fits N s0 s) (tch : Touches.execTrimWrite N le t w) :
    FitsOut N s0 (execTrimWrite m le t w value s) := by
  obtain ⟨c_trimWrite⟩ := tch
  unfold Sys2Proof.Machine.execTrimWrite
  repeat' first
    | with_reducible assumption
    | with_reducible apply Fits.trimWrite
    | with_reducible apply FitsOut.ite
    | with_reducible apply FitsOut.next
    | with_reducible apply FitsOut.fault
    | (intro _)
    | with_reducible apply Fits.ite
    | dsimp only
    | split
    | (refine Fits.pair ‹_ = (_, _)› ?_)
    | (refine Fits.pair2 ‹_ = (_, _, _)› ?_)

theorem Fits.setUnit (le : Nat) (dac : Bool) (lane : Nat) (pos : Nat) (u : RepUnit) (s : State) (h : Fits N s0 s) (h_rep : N .rep) :
    Fits N s0 (setUnit le dac lane pos u s) := by
  unfold Sys2Proof.Machine.setUnit
  repeat' first
    | with_reducible assumption
    | with_reducible apply Fits.modRep
    | (intro _)
    | with_reducible apply Fits.ite
    | dsimp only
    | split
    | (refine Fits.pair ‹_ = (_, _)› ?_)
    | (refine Fits.pair2 ‹_ = (_, _, _)› ?_)

structure Touches.convMap (N : Part → Prop) (le : Nat) (lane : Nat) : Prop where
  k_LE_RX_ADC_MAP_calibrating : N (.reg (F.LE_RX_ADC_MAP_calibrating le lane).key)
  k_LE_RX_ADC_MAP_in_use : N (.reg (F.LE_RX_ADC_MAP_in_use le lane).key)
  k_LE_RX_ADC_MAP_spares : N (.reg (F.LE_RX_ADC_MAP_spares le lane).key)
  k_LE_RX_ADC_SPARE_spare0 : N (.reg (F.LE_RX_ADC_SPARE_spare0 le lane).key)
  k_LE_RX_ADC_SPARE_spare1 : N (.reg (F.LE_RX_ADC_SPARE_spare1 le lane).key)
  k_LE_RX_ADC_SPARE_spare2 : N (.reg (F.LE_RX_ADC_SPARE_spare2 le lane).key)
  k_LE_RX_ADC_SPARE_spare3 : N (.reg (F.LE_RX_ADC_SPARE_spare3 le lane).key)
  k_LE_TX_DAC_MAP_in_use : N (.reg (F.LE_TX_DAC_MAP_in_use le lane).key)
  k_LE_TX_DAC_MAP_spare_a : N (.reg (F.LE_TX_DAC_MAP_spare_a le lane).key)
  k_LE_TX_DAC_MAP_spare_b : N (.reg (F.LE_TX_DAC_MAP_spare_b le lane).key)

theorem Fits.convMap (le : Nat) (dac : Bool) (lane : Nat) (s : State) (h : Fits N s0 s) (tch : Touches.convMap N le lane) :
    Fits N s0 (convMap le dac lane s) := by
  obtain ⟨k_LE_RX_ADC_MAP_calibrating, k_LE_RX_ADC_MAP_in_use, k_LE_RX_ADC_MAP_spares, k_LE_RX_ADC_SPARE_spare0, k_LE_RX_ADC_SPARE_spare1, k_LE_RX_ADC_SPARE_spare2, k_LE_RX_ADC_SPARE_spare3, k_LE_TX_DAC_MAP_in_use, k_LE_TX_DAC_MAP_spare_a, k_LE_TX_DAC_MAP_spare_b⟩ := tch
  unfold Sys2Proof.Machine.convMap
  repeat' first
    | with_reducible assumption
    | with_reducible apply k_LE_RX_ADC_MAP_calibrating
    | with_reducible apply k_LE_RX_ADC_MAP_in_use
    | with_reducible apply k_LE_RX_ADC_MAP_spares
    | with_reducible apply k_LE_RX_ADC_SPARE_spare0
    | with_reducible apply k_LE_RX_ADC_SPARE_spare1
    | with_reducible apply k_LE_RX_ADC_SPARE_spare2
    | with_reducible apply k_LE_RX_ADC_SPARE_spare3
    | with_reducible apply k_LE_TX_DAC_MAP_in_use
    | with_reducible apply k_LE_TX_DAC_MAP_spare_a
    | with_reducible apply k_LE_TX_DAC_MAP_spare_b
    | with_reducible apply Fits.setF
    | (intro _)
    | with_reducible apply Fits.ite
    | dsimp only
    | split
    | (refine Fits.pair ‹_ = (_, _)› ?_)
    | (refine Fits.pair2 ‹_ = (_, _, _)› ?_)

structure Touches.convReport (N : Part → Prop) (le : Nat) (lane : Nat) : Prop where
  c_txBaudMax : Touches.txBaudMax N le
  c_rxBaudMax : Touches.rxBaudMax N le
  c_convMap : Touches.convMap N le lane

theorem Fits.convReport (le : Nat) (dac : Bool) (lane : Nat) (s : State) (h : Fits N s0 s) (tch : Touches.convReport N le lane) :
    Fits N s0 (convReport le dac lane s) := by
  obtain ⟨c_txBaudMax, c_rxBaudMax, c_convMap⟩ := tch
  unfold Sys2Proof.Machine.convReport
  repeat' first
    | with_reducible assumption
    | with_reducible apply Fits.txBaudMax
    | with_reducible apply Fits.rxBaudMax
    | with_reducible apply Fits.convMap
    | (intro _)
    | with_reducible apply Fits.ite
    | dsimp only
    | split
    | (refine Fits.pair ‹_ = (_, _)› ?_)
    | (refine Fits.pair2 ‹_ = (_, _, _)› ?_)

structure Touches.convEvent (N : Part → Prop) (le : Nat) : Prop where
  c_evt : Touches.evt N (lep le 0x16)
  c_evt_1 : Touches.evt N (lep le 0x19)

theorem Fits.convEvent (le : Nat) (dac : Bool) (fault : Bool) (s : State) (h : Fits N s0 s) (tch : Touches.convEvent N le) :
    Fits N s0 (convEvent le dac fault s) := by
  obtain ⟨c_evt, c_evt_1⟩ := tch
  unfold Sys2Proof.Machine.convEvent
  repeat' first
    | with_reducible assumption
    | with_reducible apply Fits.evt
    | (intro _)
    | with_reducible apply Fits.ite
    | dsimp only
    | split
    | (refine Fits.pair ‹_ = (_, _)› ?_)
    | (refine Fits.pair2 ‹_ = (_, _, _)› ?_)

structure Touches.execSpareCalStart (N : Part → Prop) (le : Fin 2) (lane : Fin 4) : Prop where
  h_rep : N .rep
  c_convMap : Touches.convMap N le.val lane.val

theorem FitsOut.execSpareCalStart (le : Fin 2) (dac : Bool) (lane : Fin 4) (s : State) (h : Fits N s0 s) (tch : Touches.execSpareCalStart N le lane) :
    FitsOut N s0 (execSpareCalStart le dac lane s) := by
  obtain ⟨h_rep, c_convMap⟩ := tch
  unfold Sys2Proof.Machine.execSpareCalStart
  repeat' first
    | with_reducible assumption
    | with_reducible apply Fits.setUnit
    | with_reducible apply Fits.convMap
    | with_reducible apply FitsOut.ite
    | with_reducible apply FitsOut.next
    | with_reducible apply FitsOut.fault
    | (intro _)
    | with_reducible apply Fits.ite
    | dsimp only
    | split
    | (refine Fits.pair ‹_ = (_, _)› ?_)
    | (refine Fits.pair2 ‹_ = (_, _, _)› ?_)

structure Touches.execSpareCalEnd (N : Part → Prop) (le : Fin 2) (dac : Bool) (c : UnitCal) : Prop where
  h_rep : N .rep
  c_evt : Touches.evt N 0xF0
  c_trimLearn : Touches.trimLearn N le.val dac c
  c_convReport : Touches.convReport N le.val c.lane.val

theorem FitsOut.execSpareCalEnd (le : Fin 2) (dac : Bool) (c : UnitCal) (pilot : Bool) (s : State) (h : Fits N s0 s) (tch : Touches.execSpareCalEnd N le dac c) :
    FitsOut N s0 (execSpareCalEnd le dac c pilot s) := by
  obtain ⟨h_rep, c_evt, c_trimLearn, c_convReport⟩ := tch
  unfold Sys2Proof.Machine.execSpareCalEnd
  repeat' first
    | with_reducible assumption
    | with_reducible apply Fits.evt
    | with_reducible apply Fits.trimLearn
    | with_reducible apply Fits.setUnit
    | with_reducible apply Fits.convReport
    | with_reducible apply FitsOut.ite
    | with_reducible apply FitsOut.next
    | with_reducible apply FitsOut.fault
    | (intro _)
    | with_reducible apply Fits.ite
    | dsimp only
    | split
    | (refine Fits.pair ‹_ = (_, _)› ?_)
    | (refine Fits.pair2 ‹_ = (_, _, _)› ?_)

theorem Fits.rotationStart (le : Nat) (s : State) (h : Fits N s0 s) (h_rep : N .rep) :
    Fits N s0 (rotationStart le s) := by
  unfold Sys2Proof.Machine.rotationStart
  repeat' first
    | with_reducible assumption
    | with_reducible apply Fits.modRep
    | with_reducible apply Fits.forEach
    | (intro _)
    | with_reducible apply Fits.ite
    | dsimp only
    | split
    | (refine Fits.pair ‹_ = (_, _)› ?_)
    | (refine Fits.pair2 ‹_ = (_, _, _)› ?_)

structure Touches.execRotationSwap (N : Part → Prop) (le : Fin 2) (lane : Fin 4) : Prop where
  h_rep : N .rep
  h_time : N .time
  k_LE_RX_ADC_ROT_CNT_count : N (.reg (F.LE_RX_ADC_ROT_CNT_count le.val).key)
  c_convReport : Touches.convReport N le.val lane.val
  c_convEvent : Touches.convEvent N le.val

theorem FitsOut.execRotationSwap (le : Fin 2) (dac : Bool) (lane : Fin 4) (s : State) (h : Fits N s0 s) (tch : Touches.execRotationSwap N le lane) :
    FitsOut N s0 (execRotationSwap le dac lane s) := by
  obtain ⟨h_rep, h_time, k_LE_RX_ADC_ROT_CNT_count, c_convReport, c_convEvent⟩ := tch
  unfold Sys2Proof.Machine.execRotationSwap
  repeat' first
    | with_reducible assumption
    | with_reducible apply k_LE_RX_ADC_ROT_CNT_count
    | with_reducible apply Fits.bump
    | with_reducible apply Fits.reach
    | with_reducible apply Fits.trimsTake
    | with_reducible apply Fits.modRep
    | with_reducible apply Fits.setUnit
    | with_reducible apply Fits.convReport
    | with_reducible apply Fits.convEvent
    | with_reducible apply FitsOut.ite
    | with_reducible apply FitsOut.next
    | with_reducible apply FitsOut.fault
    | (intro _)
    | with_reducible apply Fits.ite
    | dsimp only
    | split
    | (refine Fits.pair ‹_ = (_, _)› ?_)
    | (refine Fits.pair2 ‹_ = (_, _, _)› ?_)

structure Touches.execUnitFault (N : Part → Prop) (le : Fin 2) (lane : Fin 4) : Prop where
  h_rep : N .rep
  c_convReport : Touches.convReport N le.val lane.val
  c_convEvent : Touches.convEvent N le.val

theorem FitsOut.execUnitFault (le : Fin 2) (dac : Bool) (lane : Fin 4) (pos : Fin 68) (s : State) (h : Fits N s0 s) (tch : Touches.execUnitFault N le lane) :
    FitsOut N s0 (execUnitFault le dac lane pos s) := by
  obtain ⟨h_rep, c_convReport, c_convEvent⟩ := tch
  unfold Sys2Proof.Machine.execUnitFault
  repeat' first
    | with_reducible assumption
    | with_reducible apply Fits.setUnit
    | with_reducible apply Fits.convReport
    | with_reducible apply Fits.convEvent
    | with_reducible apply FitsOut.ite
    | with_reducible apply FitsOut.next
    | with_reducible apply FitsOut.fault
    | (intro _)
    | with_reducible apply Fits.ite
    | dsimp only
    | split
    | (refine Fits.pair ‹_ = (_, _)› ?_)
    | (refine Fits.pair2 ‹_ = (_, _, _)› ?_)

structure Touches.repairUnit (N : Part → Prop) (le : Nat) (dac : Bool) : Prop where
  h_rep : N .rep
  k_LE_RX_ADC_REP_CNT_count : N (.reg (F.LE_RX_ADC_REP_CNT_count le).key)
  k_REP_CLASS_SWAPS_count : N (.reg (F.REP_CLASS_SWAPS_count (convClass le dac)).key)
  c_convEvent : Touches.convEvent N le

theorem Fits.repairUnit (le : Nat) (dac : Bool) (lane : Nat) (old : Nat) (sp : Nat) (s : State) (h : Fits N s0 s) (tch : Touches.repairUnit N le dac) :
    Fits N s0 (repairUnit le dac lane old sp s) := by
  obtain ⟨h_rep, k_LE_RX_ADC_REP_CNT_count, k_REP_CLASS_SWAPS_count, c_convEvent⟩ := tch
  unfold Sys2Proof.Machine.repairUnit
  repeat' first
    | with_reducible assumption
    | with_reducible apply k_LE_RX_ADC_REP_CNT_count
    | with_reducible apply k_REP_CLASS_SWAPS_count
    | with_reducible apply Fits.bump
    | with_reducible apply Fits.modRep
    | with_reducible apply Fits.setUnit
    | with_reducible apply Fits.convEvent
    | (intro _)
    | with_reducible apply Fits.ite
    | dsimp only
    | split
    | (refine Fits.pair ‹_ = (_, _)› ?_)
    | (refine Fits.pair2 ‹_ = (_, _, _)› ?_)

structure Touches.repairFaulty (N : Part → Prop) (le : Nat) (dac : Bool) : Prop where
  h_rep : N .rep
  c_repairUnit : Touches.repairUnit N le dac

theorem Fits.repairFaulty (le : Nat) (dac : Bool) (lane : Nat) (s : State) (h : Fits N s0 s) (tch : Touches.repairFaulty N le dac) :
    Fits N s0 (repairFaulty le dac lane s) := by
  obtain ⟨h_rep, c_repairUnit⟩ := tch
  unfold Sys2Proof.Machine.repairFaulty
  repeat' first
    | with_reducible assumption
    | with_reducible apply Fits.setUnit
    | with_reducible apply Fits.repairUnit
    | with_reducible apply Fits.forEach
    | (intro _)
    | with_reducible apply Fits.ite
    | dsimp only
    | split
    | (refine Fits.pair ‹_ = (_, _)› ?_)
    | (refine Fits.pair2 ‹_ = (_, _, _)› ?_)

theorem Fits.repairKeep (le : Nat) (dac : Bool) (lane : Nat) (s : State) (h : Fits N s0 s) (h_rep : N .rep) :
    Fits N s0 (repairKeep le dac lane s) := by
  unfold Sys2Proof.Machine.repairKeep
  repeat' first
    | with_reducible assumption
    | with_reducible apply Fits.modRep
    | (intro _)
    | with_reducible apply Fits.ite
    | dsimp only
    | split
    | (refine Fits.pair ‹_ = (_, _)› ?_)
    | (refine Fits.pair2 ‹_ = (_, _, _)› ?_)

structure Touches.repairStopped (N : Part → Prop) (le : Nat) : Prop where
  h_rep : N .rep
  c_convReport : ∀ (a1 : Nat), Touches.convReport N le a1
  c_repairFaulty : ∀ (a1 : Bool), Touches.repairFaulty N le a1

theorem Fits.repairStopped (le : Nat) (s : State) (h : Fits N s0 s) (tch : Touches.repairStopped N le) :
    Fits N s0 (repairStopped le s) := by
  obtain ⟨h_rep, c_convReport, c_repairFaulty⟩ := tch
  unfold Sys2Proof.Machine.repairStopped
  repeat' first
    | with_reducible assumption
    | with_reducible exact c_convReport _
    | with_reducible exact c_repairFaulty _
    | with_reducible apply Fits.setUnit
    | with_reducible apply Fits.convReport
    | with_reducible apply Fits.repairFaulty
    | with_reducible apply Fits.repairKeep
    | with_reducible apply Fits.forEach
    | (intro _)
    | with_reducible apply Fits.ite
    | dsimp only
    | split
    | (refine Fits.pair ‹_ = (_, _)› ?_)
    | (refine Fits.pair2 ‹_ = (_, _, _)› ?_)

theorem Fits.placeUnits (le : Nat) (dac : Bool) (lane : Nat) (passed : List Nat) (s : State) (h : Fits N s0 s) (h_rep : N .rep) :
    Fits N s0 (placeUnits le dac lane passed s) := by
  unfold Sys2Proof.Machine.placeUnits
  repeat' first
    | with_reducible assumption
    | with_reducible apply Fits.setUnit
    | with_reducible apply Fits.forEach
    | (intro _)
    | with_reducible apply Fits.ite
    | dsimp only
    | split
    | (refine Fits.pair ‹_ = (_, _)› ?_)
    | (refine Fits.pair2 ‹_ = (_, _, _)› ?_)

structure Touches.calibrate (N : Part → Prop) (le : Nat) (dac : Bool) : Prop where
  h_rep : N .rep
  c_trimLearn : ∀ (a2 : UnitCal), Touches.trimLearn N le dac a2
  c_convReport : ∀ (a1 : Nat), Touches.convReport N le a1

theorem Fits.calibrate (le : Nat) (dac : Bool) (fg : Bool) (cals : List UnitCal) (s : State) (h : Fits N s0 s) (tch : Touches.calibrate N le dac) :
    Fits N s0 (calibrate le dac fg cals s).2 := by
  obtain ⟨h_rep, c_trimLearn, c_convReport⟩ := tch
  unfold Sys2Proof.Machine.calibrate
  repeat' first
    | with_reducible assumption
    | with_reducible exact c_trimLearn _
    | with_reducible exact c_convReport _
    | with_reducible apply Fits.trimLearn
    | with_reducible apply Fits.setUnit
    | with_reducible apply Fits.convReport
    | with_reducible apply Fits.repairKeep
    | with_reducible apply Fits.placeUnits
    | with_reducible apply Fits.forEach
    | with_reducible apply Fits.foldlPair
    | with_reducible apply Fits.foldl
    | (intro _)
    | with_reducible apply Fits.ite
    | dsimp only
    | split
    | (refine Fits.pair ‹_ = (_, _)› ?_)
    | (refine Fits.pair2 ‹_ = (_, _, _)› ?_)

structure Touches.tileTest (N : Part → Prop) (le : Nat) : Prop where
  k_LE_FEC_TILE_MAP_map : N (.reg (F.LE_FEC_TILE_MAP_map le).key)
  k_LE_FEC_TILE_SPARE_spare_a : N (.reg (F.LE_FEC_TILE_SPARE_spare_a le).key)
  k_LE_FEC_TILE_SPARE_spare_b : N (.reg (F.LE_FEC_TILE_SPARE_spare_b le).key)
  k_LE_FEC_TILE_STAT_marks : ∀ (a1 : Nat), N (.reg (F.LE_FEC_TILE_STAT_marks le a1).key)
  k_LE_FEC_TILE_STAT_state : ∀ (a1 : Nat), N (.reg (F.LE_FEC_TILE_STAT_state le a1).key)
  h_fec : N (.fec ((le : Nat) != 0))
  c_fecReport : Touches.fecReport N le

theorem Fits.tileTest (le : Nat) (fg : Bool) (fails : List (Fin 26)) (s : State) (h : Fits N s0 s) (tch : Touches.tileTest N le) :
    Fits N s0 (tileTest le fg fails s).2 := by
  obtain ⟨k_LE_FEC_TILE_MAP_map, k_LE_FEC_TILE_SPARE_spare_a, k_LE_FEC_TILE_SPARE_spare_b, k_LE_FEC_TILE_STAT_marks, k_LE_FEC_TILE_STAT_state, h_fec, c_fecReport⟩ := tch
  unfold Sys2Proof.Machine.tileTest
  repeat' first
    | with_reducible assumption
    | with_reducible apply k_LE_FEC_TILE_MAP_map
    | with_reducible apply k_LE_FEC_TILE_SPARE_spare_a
    | with_reducible apply k_LE_FEC_TILE_SPARE_spare_b
    | with_reducible apply k_LE_FEC_TILE_STAT_marks
    | with_reducible apply k_LE_FEC_TILE_STAT_state
    | with_reducible apply Fits.setF
    | with_reducible apply Fits.modFec
    | with_reducible apply Fits.fecReport
    | with_reducible apply Fits.forEach
    | with_reducible apply Fits.foldlPair
    | with_reducible apply Fits.foldl
    | (intro _)
    | with_reducible apply Fits.ite
    | dsimp only
    | split
    | (refine Fits.pair ‹_ = (_, _)› ?_)
    | (refine Fits.pair2 ‹_ = (_, _, _)› ?_)

structure Touches.fgGo (N : Part → Prop) : Prop where
  h_rep : N .rep
  k_CAL_FG_STAT_slices : N (.reg F.CAL_FG_STAT_slices.key)
  k_CAL_FG_STAT_subdacs : N (.reg F.CAL_FG_STAT_subdacs.key)
  k_CAL_FG_STAT_tiles : N (.reg F.CAL_FG_STAT_tiles.key)
  k_CAL_FG_busy : N (.reg F.CAL_FG_busy.key)
  c_err : Touches.err N 0xF2

theorem Fits.fgGo (le : Nat) (kinds : Nat) (s : State) (h : Fits N s0 s) (tch : Touches.fgGo N) :
    Fits N s0 (fgGo le kinds s) := by
  obtain ⟨h_rep, k_CAL_FG_STAT_slices, k_CAL_FG_STAT_subdacs, k_CAL_FG_STAT_tiles, k_CAL_FG_busy, c_err⟩ := tch
  unfold Sys2Proof.Machine.fgGo
  repeat' first
    | with_reducible assumption
    | with_reducible apply k_CAL_FG_STAT_slices
    | with_reducible apply k_CAL_FG_STAT_subdacs
    | with_reducible apply k_CAL_FG_STAT_tiles
    | with_reducible apply k_CAL_FG_busy
    | with_reducible apply Fits.setF
    | with_reducible apply Fits.setB
    | with_reducible apply Fits.err
    | with_reducible apply Fits.modRep
    | (intro _)
    | with_reducible apply Fits.ite
    | dsimp only
    | split
    | (refine Fits.pair ‹_ = (_, _)› ?_)
    | (refine Fits.pair2 ‹_ = (_, _, _)› ?_)

structure Touches.execFgCalGo (N : Part → Prop) : Prop where
  k_CAL_FG_adc : N (.reg F.CAL_FG_adc.key)
  k_CAL_FG_dac : N (.reg F.CAL_FG_dac.key)
  k_CAL_FG_engine : N (.reg F.CAL_FG_engine.key)
  k_CAL_FG_fec : N (.reg F.CAL_FG_fec.key)
  c_goWrite : Touches.goWrite N 0xF2080
  c_fgGo : Touches.fgGo N

theorem FitsOut.execFgCalGo (m : Master) (le : Fin 2) (adc : Bool) (dac : Bool) (fec : Bool) (s : State) (h : Fits N s0 s) (tch : Touches.execFgCalGo N) :
    FitsOut N s0 (execFgCalGo m le adc dac fec s) := by
  obtain ⟨k_CAL_FG_adc, k_CAL_FG_dac, k_CAL_FG_engine, k_CAL_FG_fec, c_goWrite, c_fgGo⟩ := tch
  unfold Sys2Proof.Machine.execFgCalGo
  repeat' first
    | with_reducible assumption
    | with_reducible apply k_CAL_FG_adc
    | with_reducible apply k_CAL_FG_dac
    | with_reducible apply k_CAL_FG_engine
    | with_reducible apply k_CAL_FG_fec
    | with_reducible apply Fits.setF
    | with_reducible apply Fits.setB
    | with_reducible apply Fits.fgGo
    | with_reducible apply Fits.goWrite
    | with_reducible apply FitsOut.ite
    | with_reducible apply FitsOut.next
    | with_reducible apply FitsOut.fault
    | (intro _)
    | with_reducible apply Fits.ite
    | dsimp only
    | split
    | (refine Fits.pair ‹_ = (_, _)› ?_)
    | (refine Fits.pair2 ‹_ = (_, _, _)› ?_)

structure Touches.execFgDone (N : Part → Prop) : Prop where
  h_rep : N .rep
  k_CAL_FG_STAT_slices : N (.reg F.CAL_FG_STAT_slices.key)
  k_CAL_FG_STAT_subdacs : N (.reg F.CAL_FG_STAT_subdacs.key)
  k_CAL_FG_STAT_tiles : N (.reg F.CAL_FG_STAT_tiles.key)
  k_CAL_FG_busy : N (.reg F.CAL_FG_busy.key)
  c_evt : Touches.evt N 0xF0
  c_calibrate : ∀ (a0 : Nat), Touches.calibrate N a0 false
  c_calibrate_1 : ∀ (a0 : Nat), Touches.calibrate N a0 true
  c_tileTest : ∀ (a0 : Nat), Touches.tileTest N a0

theorem FitsOut.execFgDone (adc : List UnitCal) (dac : List UnitCal) (tiles : List (Fin 26)) (s : State) (h : Fits N s0 s) (tch : Touches.execFgDone N) :
    FitsOut N s0 (execFgDone adc dac tiles s) := by
  obtain ⟨h_rep, k_CAL_FG_STAT_slices, k_CAL_FG_STAT_subdacs, k_CAL_FG_STAT_tiles, k_CAL_FG_busy, c_evt, c_calibrate, c_calibrate_1, c_tileTest⟩ := tch
  unfold Sys2Proof.Machine.execFgDone
  repeat' first
    | with_reducible assumption
    | with_reducible apply k_CAL_FG_STAT_slices
    | with_reducible apply k_CAL_FG_STAT_subdacs
    | with_reducible apply k_CAL_FG_STAT_tiles
    | with_reducible apply k_CAL_FG_busy
    | with_reducible exact c_calibrate _
    | with_reducible exact c_calibrate_1 _
    | with_reducible exact c_tileTest _
    | with_reducible apply Fits.setF
    | with_reducible apply Fits.setB
    | with_reducible apply Fits.evt
    | with_reducible apply Fits.modRep
    | with_reducible apply Fits.calibrate
    | with_reducible apply Fits.tileTest
    | with_reducible apply FitsOut.ite
    | with_reducible apply FitsOut.next
    | with_reducible apply FitsOut.fault
    | (intro _)
    | with_reducible apply Fits.ite
    | dsimp only
    | split
    | (refine Fits.pair ‹_ = (_, _)› ?_)
    | (refine Fits.pair2 ‹_ = (_, _, _)› ?_)

structure Touches.tempRead (N : Part → Prop) (le : Nat) : Prop where
  k_CAL_ENG_STAT_clamped : N (.reg (F.CAL_ENG_STAT_clamped le).key)
  k_CAL_ENG_STAT_die_temp : N (.reg (F.CAL_ENG_STAT_die_temp le).key)
  k_CAL_ENG_STAT_lower : N (.reg (F.CAL_ENG_STAT_lower le).key)
  c_evt : Touches.evt N 0xF0

theorem Fits.tempRead (le : Nat) (t : Int) (s : State) (h : Fits N s0 s) (tch : Touches.tempRead N le) :
    Fits N s0 (tempRead le t s) := by
  obtain ⟨k_CAL_ENG_STAT_clamped, k_CAL_ENG_STAT_die_temp, k_CAL_ENG_STAT_lower, c_evt⟩ := tch
  unfold Sys2Proof.Machine.tempRead
  repeat' first
    | with_reducible assumption
    | with_reducible apply k_CAL_ENG_STAT_clamped
    | with_reducible apply k_CAL_ENG_STAT_die_temp
    | with_reducible apply k_CAL_ENG_STAT_lower
    | with_reducible apply Fits.setF
    | with_reducible apply Fits.setB
    | with_reducible apply Fits.evt
    | (intro _)
    | with_reducible apply Fits.ite
    | dsimp only
    | split
    | (refine Fits.pair ‹_ = (_, _)› ?_)
    | (refine Fits.pair2 ‹_ = (_, _, _)› ?_)

structure Touches.execTrimUpdate (N : Part → Prop) (le : Fin 2) : Prop where
  h_rep : N .rep
  h_time : N .time
  c_convMap : ∀ (a1 : Nat), Touches.convMap N le.val a1
  c_tempRead : Touches.tempRead N le.val

theorem FitsOut.execTrimUpdate (le : Fin 2) (t : BitVec 16) (s : State) (h : Fits N s0 s) (tch : Touches.execTrimUpdate N le) :
    FitsOut N s0 (execTrimUpdate le t s) := by
  obtain ⟨h_rep, h_time, c_convMap, c_tempRead⟩ := tch
  unfold Sys2Proof.Machine.execTrimUpdate
  repeat' first
    | with_reducible assumption
    | with_reducible exact c_convMap _
    | with_reducible apply Fits.reach
    | with_reducible apply Fits.trimsTake
    | with_reducible apply Fits.modRep
    | with_reducible apply Fits.workAll
    | with_reducible apply Fits.setUnit
    | with_reducible apply Fits.convMap
    | with_reducible apply Fits.tempRead
    | with_reducible apply Fits.forEach
    | with_reducible apply FitsOut.ite
    | with_reducible apply FitsOut.next
    | with_reducible apply FitsOut.fault
    | (intro _)
    | with_reducible apply Fits.ite
    | dsimp only
    | split
    | (refine Fits.pair ‹_ = (_, _)› ?_)
    | (refine Fits.pair2 ‹_ = (_, _, _)› ?_)

structure Touches.execLoopCalStep (N : Part → Prop) (le : Fin 2) : Prop where
  h_rep : N .rep
  h_time : N .time
  c_trimLearn : ∀ (a2 : UnitCal), Touches.trimLearn N le.val false a2

theorem FitsOut.execLoopCalStep (le : Fin 2) (lane : Fin 4) (swing : Fin 3) (peaking : Fin 3) (inGap : Bool) (cals : List UnitCal) (s : State) (h : Fits N s0 s) (tch : Touches.execLoopCalStep N le) :
    FitsOut N s0 (execLoopCalStep le lane swing peaking inGap cals s) := by
  obtain ⟨h_rep, h_time, c_trimLearn⟩ := tch
  unfold Sys2Proof.Machine.execLoopCalStep
  repeat' first
    | with_reducible assumption
    | with_reducible exact c_trimLearn _
    | with_reducible apply Fits.reach
    | with_reducible apply Fits.modRep
    | with_reducible apply Fits.workSet
    | with_reducible apply Fits.trimLearn
    | with_reducible apply Fits.forEach
    | with_reducible apply FitsOut.ite
    | with_reducible apply FitsOut.next
    | with_reducible apply FitsOut.fault
    | (intro _)
    | with_reducible apply Fits.ite
    | dsimp only
    | split
    | (refine Fits.pair ‹_ = (_, _)› ?_)
    | (refine Fits.pair2 ‹_ = (_, _, _)› ?_)

structure Touches.nextPipeTest (N : Part → Prop) : Prop where
  h_rep : N .rep
  c_pipeTestStart : ∀ (a0 : Nat), Touches.pipeTestStart N a0

theorem Fits.nextPipeTest (s : State) (h : Fits N s0 s) (tch : Touches.nextPipeTest N) :
    Fits N s0 (nextPipeTest s) := by
  obtain ⟨h_rep, c_pipeTestStart⟩ := tch
  unfold Sys2Proof.Machine.nextPipeTest
  repeat' first
    | with_reducible assumption
    | with_reducible exact c_pipeTestStart _
    | with_reducible apply Fits.pipeTestStart
    | with_reducible apply Fits.modRep
    | (intro _)
    | with_reducible apply Fits.ite
    | dsimp only
    | split
    | (refine Fits.pair ‹_ = (_, _)› ?_)
    | (refine Fits.pair2 ‹_ = (_, _, _)› ?_)

structure Touches.pageTest (N : Part → Prop) : Prop where
  h_buf : N .buf
  h_rep : N .rep
  c_becomeHard : Touches.becomeHard N

theorem Fits.pageTest (error : Option (Fin 2048)) (s : State) (h : Fits N s0 s) (tch : Touches.pageTest N) :
    Fits N s0 (pageTest error s) := by
  obtain ⟨h_buf, h_rep, c_becomeHard⟩ := tch
  unfold Sys2Proof.Machine.pageTest
  repeat' first
    | with_reducible assumption
    | (with_reducible refine Fits.modBuf _ _ ?_ ‹_› fun _ => rfl)
    | with_reducible apply Fits.becomeHard
    | with_reducible apply Fits.modRep
    | (intro _)
    | with_reducible apply Fits.ite
    | dsimp only
    | split
    | (refine Fits.pair ‹_ = (_, _)› ?_)
    | (refine Fits.pair2 ‹_ = (_, _, _)› ?_)

structure Touches.testRun (N : Part → Prop) : Prop where
  h_rep : N .rep
  h_time : N .time

theorem Fits.testRun (k : Nat) (interval : Nat) (s : State) (h : Fits N s0 s) (tch : Touches.testRun N) :
    Fits N s0 (testRun k interval s) := by
  obtain ⟨h_rep, h_time⟩ := tch
  unfold Sys2Proof.Machine.testRun
  repeat' first
    | with_reducible assumption
    | with_reducible apply Fits.reach
    | with_reducible apply Fits.modRep
    | (intro _)
    | with_reducible apply Fits.ite
    | dsimp only
    | split
    | (refine Fits.pair ‹_ = (_, _)› ?_)
    | (refine Fits.pair2 ‹_ = (_, _, _)› ?_)

structure Touches.execPeriodicTest (N : Part → Prop) : Prop where
  h_rep : N .rep
  c_execCoreTestStart : ∀ (a0 : Fin 8), Touches.execCoreTestStart N a0
  c_dpllTest : Touches.dpllTest N
  c_nextPipeTest : Touches.nextPipeTest N
  c_pageTest : Touches.pageTest N
  c_testRun : Touches.testRun N

theorem FitsOut.execPeriodicTest (t : Periodic) (s : State) (h : Fits N s0 s) (tch : Touches.execPeriodicTest N) :
    FitsOut N s0 (execPeriodicTest t s) := by
  obtain ⟨h_rep, c_execCoreTestStart, c_dpllTest, c_nextPipeTest, c_pageTest, c_testRun⟩ := tch
  unfold Sys2Proof.Machine.execPeriodicTest
  repeat' first
    | with_reducible assumption
    | with_reducible exact c_execCoreTestStart _
    | with_reducible apply FitsOut.execCoreTestStart
    | with_reducible apply Fits.dpllTest
    | with_reducible apply Fits.modRep
    | with_reducible apply Fits.nextPipeTest
    | with_reducible apply Fits.pageTest
    | with_reducible apply Fits.testRun
    | with_reducible apply FitsOut.ite
    | with_reducible apply FitsOut.next
    | with_reducible apply FitsOut.fault
    | (intro _)
    | with_reducible apply Fits.ite
    | dsimp only
    | split
    | (refine Fits.pair ‹_ = (_, _)› ?_)
    | (refine Fits.pair2 ‹_ = (_, _, _)› ?_)

structure Touches.execRepPipeTest (N : Part → Prop) : Prop where
  c_goWrite : Touches.goWrite N 0xF0048
  c_nextPipeTest : Touches.nextPipeTest N

theorem FitsOut.execRepPipeTest (m : Master) (s : State) (h : Fits N s0 s) (tch : Touches.execRepPipeTest N) :
    FitsOut N s0 (execRepPipeTest m s) := by
  obtain ⟨c_goWrite, c_nextPipeTest⟩ := tch
  unfold Sys2Proof.Machine.execRepPipeTest
  repeat' first
    | with_reducible assumption
    | with_reducible apply Fits.nextPipeTest
    | with_reducible apply Fits.goWrite
    | with_reducible apply FitsOut.ite
    | with_reducible apply FitsOut.next
    | with_reducible apply FitsOut.fault
    | (intro _)
    | with_reducible apply Fits.ite
    | dsimp only
    | split
    | (refine Fits.pair ‹_ = (_, _)› ?_)
    | (refine Fits.pair2 ‹_ = (_, _, _)› ?_)

structure Touches.repDpllTest (N : Part → Prop) : Prop where
  h_rep : N .rep
  c_dpllTest : Touches.dpllTest N

theorem Fits.repDpllTest (s : State) (h : Fits N s0 s) (tch : Touches.repDpllTest N) :
    Fits N s0 (repDpllTest s) := by
  obtain ⟨h_rep, c_dpllTest⟩ := tch
  unfold Sys2Proof.Machine.repDpllTest
  repeat' first
    | with_reducible assumption
    | with_reducible apply Fits.dpllTest
    | with_reducible apply Fits.modRep
    | (intro _)
    | with_reducible apply Fits.ite
    | dsimp only
    | split
    | (refine Fits.pair ‹_ = (_, _)› ?_)
    | (refine Fits.pair2 ‹_ = (_, _, _)› ?_)

structure Touches.execRepDpllTest (N : Part → Prop) : Prop where
  c_goWrite : Touches.goWrite N 0xF0048
  c_repDpllTest : Touches.repDpllTest N

theorem FitsOut.execRepDpllTest (m : Master) (s : State) (h : Fits N s0 s) (tch : Touches.execRepDpllTest N) :
    FitsOut N s0 (execRepDpllTest m s) := by
  obtain ⟨c_goWrite, c_repDpllTest⟩ := tch
  unfold Sys2Proof.Machine.execRepDpllTest
  repeat' first
    | with_reducible assumption
    | with_reducible apply Fits.repDpllTest
    | with_reducible apply Fits.goWrite
    | with_reducible apply FitsOut.ite
    | with_reducible apply FitsOut.next
    | with_reducible apply FitsOut.fault
    | (intro _)
    | with_reducible apply Fits.ite
    | dsimp only
    | split
    | (refine Fits.pair ‹_ = (_, _)› ?_)
    | (refine Fits.pair2 ‹_ = (_, _, _)› ?_)

theorem Fits.monTestGo (le : Nat) (s : State) (h : Fits N s0 s) (h_rep : N .rep) :
    Fits N s0 (monTestGo le s) := by
  unfold Sys2Proof.Machine.monTestGo
  repeat' first
    | with_reducible assumption
    | with_reducible apply Fits.modRep
    | (intro _)
    | with_reducible apply Fits.ite
    | dsimp only
    | split
    | (refine Fits.pair ‹_ = (_, _)› ?_)
    | (refine Fits.pair2 ‹_ = (_, _, _)› ?_)

structure Touches.execMonTest (N : Part → Prop) : Prop where
  h_rep : N .rep
  c_goWrite : Touches.goWrite N 0xF0048

theorem FitsOut.execMonTest (m : Master) (le : Fin 2) (s : State) (h : Fits N s0 s) (tch : Touches.execMonTest N) :
    FitsOut N s0 (execMonTest m le s) := by
  obtain ⟨h_rep, c_goWrite⟩ := tch
  unfold Sys2Proof.Machine.execMonTest
  repeat' first
    | with_reducible assumption
    | with_reducible apply Fits.monTestGo
    | with_reducible apply Fits.goWrite
    | with_reducible apply FitsOut.ite
    | with_reducible apply FitsOut.next
    | with_reducible apply FitsOut.fault
    | (intro _)
    | with_reducible apply Fits.ite
    | dsimp only
    | split
    | (refine Fits.pair ‹_ = (_, _)› ?_)
    | (refine Fits.pair2 ‹_ = (_, _, _)› ?_)

structure Touches.execMonTestDone (N : Part → Prop) : Prop where
  h_rep : N .rep
  h_time : N .time
  k_REP_STAT_mon_fail_le0 : N (.reg F.REP_STAT_mon_fail_le0.key)
  k_REP_STAT_mon_fail_le1 : N (.reg F.REP_STAT_mon_fail_le1.key)
  c_evt : Touches.evt N 0xF0

theorem FitsOut.execMonTestDone (le : Fin 2) (dev : Int) (s : State) (h : Fits N s0 s) (tch : Touches.execMonTestDone N) :
    FitsOut N s0 (execMonTestDone le dev s) := by
  obtain ⟨h_rep, h_time, k_REP_STAT_mon_fail_le0, k_REP_STAT_mon_fail_le1, c_evt⟩ := tch
  unfold Sys2Proof.Machine.execMonTestDone
  repeat' first
    | with_reducible assumption
    | with_reducible apply k_REP_STAT_mon_fail_le0
    | with_reducible apply k_REP_STAT_mon_fail_le1
    | with_reducible apply Fits.setB
    | with_reducible apply Fits.reach
    | with_reducible apply Fits.evt
    | with_reducible apply Fits.modRep
    | with_reducible apply FitsOut.ite
    | with_reducible apply FitsOut.next
    | with_reducible apply FitsOut.fault
    | (intro _)
    | with_reducible apply Fits.ite
    | dsimp only
    | split
    | (refine Fits.pair ‹_ = (_, _)› ?_)
    | (refine Fits.pair2 ‹_ = (_, _, _)› ?_)

structure Touches.execPathTest (N : Part → Prop) : Prop where
  h_time : N .time
  k_REP_THM_FAIL_HI_bits : N (.reg F.REP_THM_FAIL_HI_bits.key)
  k_REP_THM_FAIL_LO_bits : N (.reg F.REP_THM_FAIL_LO_bits.key)
  c_evt : Touches.evt N 0xF0
  c_testRun : Touches.testRun N

theorem FitsOut.execPathTest (k : Fin 48) (seen : BitVec 24) (ref : BitVec 24) (s : State) (h : Fits N s0 s) (tch : Touches.execPathTest N) :
    FitsOut N s0 (execPathTest k seen ref s) := by
  obtain ⟨h_time, k_REP_THM_FAIL_HI_bits, k_REP_THM_FAIL_LO_bits, c_evt, c_testRun⟩ := tch
  unfold Sys2Proof.Machine.execPathTest
  repeat' first
    | with_reducible assumption
    | with_reducible apply k_REP_THM_FAIL_HI_bits
    | with_reducible apply k_REP_THM_FAIL_LO_bits
    | with_reducible apply Fits.setF
    | with_reducible apply Fits.reach
    | with_reducible apply Fits.evt
    | with_reducible apply Fits.testRun
    | with_reducible apply FitsOut.ite
    | with_reducible apply FitsOut.next
    | with_reducible apply FitsOut.fault
    | (intro _)
    | with_reducible apply Fits.ite
    | dsimp only
    | split
    | (refine Fits.pair ‹_ = (_, _)› ?_)
    | (refine Fits.pair2 ‹_ = (_, _, _)› ?_)

structure Touches.modeTo (N : Part → Prop) : Prop where
  k_DEV_MODE_mode : N (.reg F.DEV_MODE_mode.key)
  k_DEV_MODE_mode_prev : N (.reg F.DEV_MODE_mode_prev.key)
  c_evt : Touches.evt N 0x00

theorem Fits.modeTo (new : Nat) (s : State) (h : Fits N s0 s) (tch : Touches.modeTo N) :
    Fits N s0 (modeTo new s) := by
  obtain ⟨k_DEV_MODE_mode, k_DEV_MODE_mode_prev, c_evt⟩ := tch
  unfold Sys2Proof.Machine.modeTo
  repeat' first
    | with_reducible assumption
    | with_reducible apply k_DEV_MODE_mode
    | with_reducible apply k_DEV_MODE_mode_prev
    | with_reducible apply Fits.setF
    | with_reducible apply Fits.evt
    | (intro _)
    | with_reducible apply Fits.ite
    | dsimp only
    | split
    | (refine Fits.pair ‹_ = (_, _)› ?_)
    | (refine Fits.pair2 ‹_ = (_, _, _)› ?_)

structure Touches.sparesReport (N : Part → Prop) : Prop where
  k_DEV_STATUS_spares_exhausted : N (.reg F.DEV_STATUS_spares_exhausted.key)
  c_level : Touches.level N 0x00
  c_modeTo : Touches.modeTo N

theorem Fits.sparesReport (s : State) (h : Fits N s0 s) (tch : Touches.sparesReport N) :
    Fits N s0 (sparesReport s) := by
  obtain ⟨k_DEV_STATUS_spares_exhausted, c_level, c_modeTo⟩ := tch
  unfold Sys2Proof.Machine.sparesReport
  repeat' first
    | with_reducible assumption
    | with_reducible apply k_DEV_STATUS_spares_exhausted
    | with_reducible apply Fits.setB
    | with_reducible apply Fits.level
    | with_reducible apply Fits.modeTo
    | (intro _)
    | with_reducible apply Fits.ite
    | dsimp only
    | split
    | (refine Fits.pair ‹_ = (_, _)› ?_)
    | (refine Fits.pair2 ‹_ = (_, _, _)› ?_)

structure Touches.execClassExhausted (N : Part → Prop) (c : Fin 10) : Prop where
  h_time : N .time
  k_REP_CLASS_STAT_exhausted : N (.reg (F.REP_CLASS_STAT_exhausted c.val).key)
  k_REP_STAT_degraded_reported : N (.reg F.REP_STAT_degraded_reported.key)
  k_REP_STAT_exhausted : N (.reg F.REP_STAT_exhausted.key)
  c_evt : Touches.evt N 0xF0
  c_sparesReport : Touches.sparesReport N

theorem FitsOut.execClassExhausted (c : Fin 10) (s : State) (h : Fits N s0 s) (tch : Touches.execClassExhausted N c) :
    FitsOut N s0 (execClassExhausted c s) := by
  obtain ⟨h_time, k_REP_CLASS_STAT_exhausted, k_REP_STAT_degraded_reported, k_REP_STAT_exhausted, c_evt, c_sparesReport⟩ := tch
  unfold Sys2Proof.Machine.execClassExhausted
  repeat' first
    | with_reducible assumption
    | with_reducible apply k_REP_CLASS_STAT_exhausted
    | with_reducible apply k_REP_STAT_degraded_reported
    | with_reducible apply k_REP_STAT_exhausted
    | with_reducible apply Fits.setF
    | with_reducible apply Fits.setB
    | with_reducible apply Fits.reach
    | with_reducible apply Fits.evt
    | with_reducible apply Fits.sparesReport
    | with_reducible apply FitsOut.ite
    | with_reducible apply FitsOut.next
    | with_reducible apply FitsOut.fault
    | (intro _)
    | with_reducible apply Fits.ite
    | dsimp only
    | split
    | (refine Fits.pair ‹_ = (_, _)› ?_)
    | (refine Fits.pair2 ‹_ = (_, _, _)› ?_)

structure Touches.execClassRestored (N : Part → Prop) (c : Fin 10) : Prop where
  k_REP_CLASS_STAT_exhausted : N (.reg (F.REP_CLASS_STAT_exhausted c.val).key)
  k_REP_STAT_exhausted : N (.reg F.REP_STAT_exhausted.key)
  c_evt : Touches.evt N 0xF0
  c_sparesReport : Touches.sparesReport N

theorem FitsOut.execClassRestored (c : Fin 10) (s : State) (h : Fits N s0 s) (tch : Touches.execClassRestored N c) :
    FitsOut N s0 (execClassRestored c s) := by
  obtain ⟨k_REP_CLASS_STAT_exhausted, k_REP_STAT_exhausted, c_evt, c_sparesReport⟩ := tch
  unfold Sys2Proof.Machine.execClassRestored
  repeat' first
    | with_reducible assumption
    | with_reducible apply k_REP_CLASS_STAT_exhausted
    | with_reducible apply k_REP_STAT_exhausted
    | with_reducible apply Fits.setF
    | with_reducible apply Fits.setB
    | with_reducible apply Fits.evt
    | with_reducible apply Fits.sparesReport
    | with_reducible apply FitsOut.ite
    | with_reducible apply FitsOut.next
    | with_reducible apply FitsOut.fault
    | (intro _)
    | with_reducible apply Fits.ite
    | dsimp only
    | split
    | (refine Fits.pair ‹_ = (_, _)› ?_)
    | (refine Fits.pair2 ‹_ = (_, _, _)› ?_)

end Sys2Proof.Machine
end

