-- ==== Sys2Proof/Laws/FitsCounters.lean ====
section
/-! SUPPORT. What the operations of Machine/Counters.lean touch (a structure of parts for each, over those of the operations it calls), and
that each keeps the canonical form. -/
set_option linter.unusedTactic false
set_option linter.unreachableTactic false
namespace Sys2Proof.Machine

variable {N : Part → Prop} {s0 : State}

theorem Fits.modEvl (f : EvLog → EvLog) (s : State) (h : Fits N s0 s) (hN : N .evl)
    (hf : ∀ e, Tbl.rising e.slots = true → Tbl.rising (f e).slots = true) : Fits N s0 (Machine.modEvl f s) := h.upd_evl hN _ (hf _)

structure Touches.evlNear (N : Part → Prop) : Prop where
  c_level : Touches.level N 0xFA

theorem Fits.evlNear (s : State) (h : Fits N s0 s) (tch : Touches.evlNear N) :
    Fits N s0 (evlNear s) := by
  obtain ⟨c_level⟩ := tch
  unfold Sys2Proof.Machine.evlNear
  repeat' first
    | with_reducible assumption
    | with_reducible apply Fits.level
    | (intro _)
    | with_reducible apply Fits.ite
    | dsimp only
    | split
    | (refine Fits.pair ‹_ = (_, _)› ?_)
    | (refine Fits.pair2 ‹_ = (_, _, _)› ?_)

structure Touches.evlDrop (N : Part → Prop) : Prop where
  h_evl : N .evl
  k_EVL_DROP_count : N (.reg F.EVL_DROP_count.key)
  c_evt : Touches.evt N 0xFA

theorem Fits.evlDrop (s : State) (h : Fits N s0 s) (tch : Touches.evlDrop N) :
    Fits N s0 (evlDrop s) := by
  obtain ⟨h_evl, k_EVL_DROP_count, c_evt⟩ := tch
  unfold Sys2Proof.Machine.evlDrop
  repeat' first
    | with_reducible assumption
    | with_reducible apply k_EVL_DROP_count
    | with_reducible apply Fits.bump
    | with_reducible apply Fits.evt
    | (with_reducible refine Fits.modEvl _ _ ?_ ‹_› fun _ t => t)
    | (intro _)
    | with_reducible apply Fits.ite
    | dsimp only
    | split
    | (refine Fits.pair ‹_ = (_, _)› ?_)
    | (refine Fits.pair2 ‹_ = (_, _, _)› ?_)

structure Touches.evlRemove (N : Part → Prop) : Prop where
  h_evl : N .evl
  k_EVL_TAIL_count : N (.reg F.EVL_TAIL_count.key)
  c_evt : Touches.evt N 0xFA
  c_evlDrop : Touches.evlDrop N

theorem Fits.evlRemove (s : State) (h : Fits N s0 s) (tch : Touches.evlRemove N) :
    Fits N s0 (evlRemove s) := by
  obtain ⟨h_evl, k_EVL_TAIL_count, c_evt, c_evlDrop⟩ := tch
  unfold Sys2Proof.Machine.evlRemove
  repeat' first
    | with_reducible assumption
    | with_reducible apply k_EVL_TAIL_count
    | with_reducible apply Fits.incWrap
    | with_reducible apply Fits.evt
    | (with_reducible refine Fits.modEvl _ _ ?_ ‹_› fun _ t => t)
    | with_reducible apply Fits.evlDrop
    | with_reducible apply Fits.foldlPair
    | with_reducible apply Fits.foldl
    | (with_reducible refine Fits.modEvl _ _ ?_ ‹_› fun _ t => Tbl.rising_foldl _ _ (fun t b ht => (by split <;> first | exact Tbl.rising_insert ht _ _ | exact ht)) t)
    | (intro _)
    | with_reducible apply Fits.ite
    | dsimp only
    | split
    | (refine Fits.pair ‹_ = (_, _)› ?_)
    | (refine Fits.pair2 ‹_ = (_, _, _)› ?_)

structure Touches.evlWrite (N : Part → Prop) : Prop where
  h_ev : N .ev
  h_evl : N .evl
  k_EVL_HEAD_count : N (.reg F.EVL_HEAD_count.key)
  c_evlNear : Touches.evlNear N
  c_evlDrop : Touches.evlDrop N
  c_evlRemove : Touches.evlRemove N

theorem Fits.evlWrite (x : LogEntry) (s : State) (h : Fits N s0 s) (tch : Touches.evlWrite N) :
    Fits N s0 (evlWrite x s) := by
  obtain ⟨h_ev, h_evl, k_EVL_HEAD_count, c_evlNear, c_evlDrop, c_evlRemove⟩ := tch
  unfold Sys2Proof.Machine.evlWrite
  repeat' first
    | with_reducible assumption
    | with_reducible apply k_EVL_HEAD_count
    | with_reducible apply Fits.incWrap
    | with_reducible apply Fits.datapath
    | (with_reducible refine Fits.modEvl _ _ ?_ ‹_› fun _ t => t)
    | with_reducible apply Fits.evlNear
    | with_reducible apply Fits.evlDrop
    | with_reducible apply Fits.evlRemove
    | (with_reducible refine Fits.modEvl _ _ ?_ ‹_› fun _ t => Tbl.rising_insert t _ _)
    | (intro _)
    | with_reducible apply Fits.ite
    | dsimp only
    | split
    | (refine Fits.pair ‹_ = (_, _)› ?_)
    | (refine Fits.pair2 ‹_ = (_, _, _)› ?_)

structure Touches.evlRelease (N : Part → Prop) : Prop where
  h_evl : N .evl
  c_evlWrite : Touches.evlWrite N

theorem Fits.evlRelease (s : State) (h : Fits N s0 s) (tch : Touches.evlRelease N) :
    Fits N s0 (evlRelease s) := by
  obtain ⟨h_evl, c_evlWrite⟩ := tch
  unfold Sys2Proof.Machine.evlRelease
  repeat' first
    | with_reducible assumption
    | (with_reducible refine Fits.modEvl _ _ ?_ ‹_› fun _ t => t)
    | with_reducible apply Fits.evlWrite
    | (intro _)
    | with_reducible apply Fits.ite
    | dsimp only
    | split
    | (refine Fits.pair ‹_ = (_, _)› ?_)
    | (refine Fits.pair2 ‹_ = (_, _, _)› ?_)

structure Touches.evlLate (N : Part → Prop) : Prop where
  k_EVL_LATE_count : N (.reg F.EVL_LATE_count.key)

theorem Fits.evlLate (x : LogEntry) (s : State) (h : Fits N s0 s) (tch : Touches.evlLate N) :
    Fits N s0 (evlLate x s).2 := by
  obtain ⟨k_EVL_LATE_count⟩ := tch
  unfold Sys2Proof.Machine.evlLate
  repeat' first
    | with_reducible assumption
    | with_reducible apply k_EVL_LATE_count
    | with_reducible apply Fits.bump
    | (intro _)
    | with_reducible apply Fits.ite
    | dsimp only
    | split
    | (refine Fits.pair ‹_ = (_, _)› ?_)
    | (refine Fits.pair2 ‹_ = (_, _, _)› ?_)

structure Touches.evlArrive (N : Part → Prop) : Prop where
  h_evl : N .evl
  c_evlRelease : Touches.evlRelease N
  c_evlLate : Touches.evlLate N

theorem Fits.evlArrive (x : LogEntry) (s : State) (h : Fits N s0 s) (tch : Touches.evlArrive N) :
    Fits N s0 (evlArrive x s) := by
  obtain ⟨h_evl, c_evlRelease, c_evlLate⟩ := tch
  unfold Sys2Proof.Machine.evlArrive
  repeat' first
    | with_reducible assumption
    | (with_reducible refine Fits.modEvl _ _ ?_ ‹_› fun _ t => t)
    | with_reducible apply Fits.evlRelease
    | with_reducible apply Fits.evlLate
    | (intro _)
    | with_reducible apply Fits.ite
    | dsimp only
    | split
    | (refine Fits.pair ‹_ = (_, _)› ?_)
    | (refine Fits.pair2 ‹_ = (_, _, _)› ?_)

structure Touches.execEvlEntry (N : Part → Prop) : Prop where
  h_ev : N .ev
  c_evlArrive : Touches.evlArrive N

theorem FitsOut.execEvlEntry (p : Fin 256) (s : State) (h : Fits N s0 s) (tch : Touches.execEvlEntry N) :
    FitsOut N s0 (execEvlEntry p s) := by
  obtain ⟨h_ev, c_evlArrive⟩ := tch
  unfold Sys2Proof.Machine.execEvlEntry
  repeat' first
    | with_reducible assumption
    | with_reducible apply Fits.evlArrive
    | with_reducible apply FitsOut.ite
    | with_reducible apply FitsOut.next
    | with_reducible apply FitsOut.fault
    | (intro _)
    | with_reducible apply Fits.ite
    | dsimp only
    | split
    | (refine Fits.pair ‹_ = (_, _)› ?_)
    | (refine Fits.pair2 ‹_ = (_, _, _)› ?_)
    | with_reducible apply Fits.upd_ev

structure Touches.execSorterRelease (N : Part → Prop) : Prop where
  h_time : N .time
  c_evlRelease : Touches.evlRelease N

theorem FitsOut.execSorterRelease (s : State) (h : Fits N s0 s) (tch : Touches.execSorterRelease N) :
    FitsOut N s0 (execSorterRelease s) := by
  obtain ⟨h_time, c_evlRelease⟩ := tch
  unfold Sys2Proof.Machine.execSorterRelease
  repeat' first
    | with_reducible assumption
    | with_reducible apply Fits.reach
    | with_reducible apply Fits.evlRelease
    | with_reducible apply FitsOut.ite
    | with_reducible apply FitsOut.next
    | with_reducible apply FitsOut.fault
    | (intro _)
    | with_reducible apply Fits.ite
    | dsimp only
    | split
    | (refine Fits.pair ‹_ = (_, _)› ?_)
    | (refine Fits.pair2 ‹_ = (_, _, _)› ?_)

structure Touches.execFoldWindowEnd (N : Part → Prop) : Prop where
  h_ev : N .ev
  h_time : N .time

theorem FitsOut.execFoldWindowEnd (p : Fin 256) (loss : Bool) (code : Byte) (s : State) (h : Fits N s0 s) (tch : Touches.execFoldWindowEnd N) :
    FitsOut N s0 (execFoldWindowEnd p loss code s) := by
  obtain ⟨h_ev, h_time⟩ := tch
  unfold Sys2Proof.Machine.execFoldWindowEnd
  repeat' first
    | with_reducible assumption
    | with_reducible apply Fits.reach
    | with_reducible apply Fits.foldEnd
    | with_reducible apply FitsOut.ite
    | with_reducible apply FitsOut.next
    | with_reducible apply FitsOut.fault
    | (intro _)
    | with_reducible apply Fits.ite
    | dsimp only
    | split
    | (refine Fits.pair ‹_ = (_, _)› ?_)
    | (refine Fits.pair2 ‹_ = (_, _, _)› ?_)
    | with_reducible apply Fits.upd_ev

structure Touches.evlTail (N : Part → Prop) : Prop where
  h_evl : N .evl
  k_EVL_TAIL_count : N (.reg F.EVL_TAIL_count.key)
  c_evlNear : Touches.evlNear N

theorem Fits.evlTail (v : Nat) (s : State) (h : Fits N s0 s) (tch : Touches.evlTail N) :
    Fits N s0 (evlTail v s) := by
  obtain ⟨h_evl, k_EVL_TAIL_count, c_evlNear⟩ := tch
  unfold Sys2Proof.Machine.evlTail
  repeat' first
    | with_reducible assumption
    | with_reducible apply k_EVL_TAIL_count
    | with_reducible apply Fits.setF
    | (with_reducible refine Fits.modEvl _ _ ?_ ‹_› fun _ t => t)
    | with_reducible apply Fits.evlNear
    | (intro _)
    | with_reducible apply Fits.ite
    | dsimp only
    | split
    | (refine Fits.pair ‹_ = (_, _)› ?_)
    | (refine Fits.pair2 ‹_ = (_, _, _)› ?_)

structure Touches.execEvlTailWrite (N : Part → Prop) : Prop where
  c_goWrite : Touches.goWrite N 0xFA048
  c_evlTail : Touches.evlTail N

theorem FitsOut.execEvlTailWrite (m : Master) (value : Word) (s : State) (h : Fits N s0 s) (tch : Touches.execEvlTailWrite N) :
    FitsOut N s0 (execEvlTailWrite m value s) := by
  obtain ⟨c_goWrite, c_evlTail⟩ := tch
  unfold Sys2Proof.Machine.execEvlTailWrite
  repeat' first
    | with_reducible assumption
    | with_reducible apply Fits.evlTail
    | with_reducible apply Fits.goWrite
    | with_reducible apply FitsOut.ite
    | with_reducible apply FitsOut.next
    | with_reducible apply FitsOut.fault
    | (intro _)
    | with_reducible apply Fits.ite
    | dsimp only
    | split
    | (refine Fits.pair ‹_ = (_, _)› ?_)
    | (refine Fits.pair2 ‹_ = (_, _, _)› ?_)

structure Touches.evlWipe (N : Part → Prop) : Prop where
  h_ev : N .ev
  h_evl : N .evl
  k_EVL_HEAD_count : N (.reg F.EVL_HEAD_count.key)
  k_EVL_TAIL_count : N (.reg F.EVL_TAIL_count.key)

theorem Fits.evlWipe (s : State) (h : Fits N s0 s) (tch : Touches.evlWipe N) :
    Fits N s0 (evlWipe s) := by
  obtain ⟨h_ev, h_evl, k_EVL_HEAD_count, k_EVL_TAIL_count⟩ := tch
  unfold Sys2Proof.Machine.evlWipe
  repeat' first
    | with_reducible assumption
    | with_reducible apply k_EVL_HEAD_count
    | with_reducible apply k_EVL_TAIL_count
    | with_reducible apply Fits.setF
    | (intro _)
    | with_reducible apply Fits.ite
    | dsimp only
    | split
    | (refine Fits.pair ‹_ = (_, _)› ?_)
    | (refine Fits.pair2 ‹_ = (_, _, _)› ?_)
    | (with_reducible refine Fits.upd_evl_ev ?_ ‹_› ‹_› _ _ fun _ => rfl)

structure Touches.evlFlush (N : Part → Prop) : Prop where
  h_ev : N .ev
  c_evlRelease : Touches.evlRelease N
  c_evlArrive : Touches.evlArrive N

theorem Fits.evlFlush (s : State) (h : Fits N s0 s) (tch : Touches.evlFlush N) :
    Fits N s0 (evlFlush s) := by
  obtain ⟨h_ev, c_evlRelease, c_evlArrive⟩ := tch
  unfold Sys2Proof.Machine.evlFlush
  repeat' first
    | with_reducible assumption
    | with_reducible apply Fits.evlRelease
    | with_reducible apply Fits.evlArrive
    | with_reducible apply Fits.forEach
    | (intro _)
    | with_reducible apply Fits.ite
    | dsimp only
    | split
    | (refine Fits.pair ‹_ = (_, _)› ?_)
    | (refine Fits.pair2 ‹_ = (_, _, _)› ?_)
    | with_reducible apply Fits.upd_ev

structure Touches.evlMarker (N : Part → Prop) : Prop where
  c_evlWrite : Touches.evlWrite N
  c_evlLate : Touches.evlLate N

theorem Fits.evlMarker (cause : Nat) (s : State) (h : Fits N s0 s) (tch : Touches.evlMarker N) :
    Fits N s0 (evlMarker cause s) := by
  obtain ⟨c_evlWrite, c_evlLate⟩ := tch
  unfold Sys2Proof.Machine.evlMarker
  repeat' first
    | with_reducible assumption
    | with_reducible apply Fits.evlWrite
    | with_reducible apply Fits.evlLate
    | (intro _)
    | with_reducible apply Fits.ite
    | dsimp only
    | split
    | (refine Fits.pair ‹_ = (_, _)› ?_)
    | (refine Fits.pair2 ‹_ = (_, _, _)› ?_)

theorem Fits.modCnt (f : Cnt → Cnt) (s : State) (h : Fits N s0 s) (h_cnt : N .cnt) :
    Fits N s0 (modCnt f s) := by
  unfold Sys2Proof.Machine.modCnt
  repeat' first
    | with_reducible assumption
    | (intro _)
    | with_reducible apply Fits.ite
    | dsimp only
    | split
    | (refine Fits.pair ‹_ = (_, _)› ?_)
    | (refine Fits.pair2 ‹_ = (_, _, _)› ?_)
    | with_reducible apply Fits.upd_cnt

structure Touches.cntAdd (N : Part → Prop) : Prop where
  k_CNT_HI_value : ∀ (a0 : Nat), N (.reg (F.CNT_HI_value a0).key)
  k_CNT_LO_value : ∀ (a0 : Nat), N (.reg (F.CNT_LO_value a0).key)
  k_CNT_OVF_bits : ∀ (a0 : Nat), N (.reg (F.CNT_OVF_bits a0).key)
  c_evt : Touches.evt N 0xF8

theorem Fits.cntAdd (x0 : Nat) (x1 : Nat) (x2 : Nat) (s : State) (h : Fits N s0 s) (tch : Touches.cntAdd N) :
    Fits N s0 (cntAdd x0 x1 x2 s) := by
  obtain ⟨k_CNT_HI_value, k_CNT_LO_value, k_CNT_OVF_bits, c_evt⟩ := tch
  induction x0 generalizing x1 x2 s with
  | zero =>
    unfold Sys2Proof.Machine.cntAdd
    repeat' first
      | with_reducible assumption
      | with_reducible apply k_CNT_HI_value
      | with_reducible apply k_CNT_LO_value
      | with_reducible apply k_CNT_OVF_bits
      | with_reducible apply Fits.setF
      | with_reducible apply Fits.evt
      | (intro _)
      | with_reducible apply Fits.ite
      | dsimp only
      | split
      | (refine Fits.pair ‹_ = (_, _)› ?_)
      | (refine Fits.pair2 ‹_ = (_, _, _)› ?_)
  | succ k ih =>
    unfold Sys2Proof.Machine.cntAdd
    repeat' first
      | with_reducible apply ih
      | with_reducible assumption
      | with_reducible apply k_CNT_HI_value
      | with_reducible apply k_CNT_LO_value
      | with_reducible apply k_CNT_OVF_bits
      | with_reducible apply Fits.setF
      | with_reducible apply Fits.evt
      | (intro _)
      | with_reducible apply Fits.ite
      | dsimp only
      | split
      | (refine Fits.pair ‹_ = (_, _)› ?_)
      | (refine Fits.pair2 ‹_ = (_, _, _)› ?_)

theorem Fits.occupancy (e : Nat) (s : State) (h : Fits N s0 s) (h_drawn : N .drawn) :
    Fits N s0 (occupancy e s).2 := by
  unfold Sys2Proof.Machine.occupancy
  repeat' first
    | with_reducible assumption
    | with_reducible apply Fits.draw
    | (intro _)
    | with_reducible apply Fits.ite
    | dsimp only
    | split
    | (refine Fits.pair ‹_ = (_, _)› ?_)
    | (refine Fits.pair2 ‹_ = (_, _, _)› ?_)

theorem Fits.cntIncrement (since : Nat) (n : Nat) (s : State) (h : Fits N s0 s) (h_drawn : N .drawn) :
    Fits N s0 (cntIncrement since n s).2 := by
  unfold Sys2Proof.Machine.cntIncrement
  repeat' first
    | with_reducible assumption
    | with_reducible apply Fits.occupancy
    | with_reducible apply Fits.foldlPair
    | with_reducible apply Fits.foldl
    | (intro _)
    | with_reducible apply Fits.ite
    | dsimp only
    | split
    | (refine Fits.pair ‹_ = (_, _)› ?_)
    | (refine Fits.pair2 ‹_ = (_, _, _)› ?_)

structure Touches.pulsesTake (N : Part → Prop) : Prop where
  h_fab : N .fab
  c_cntAdd : Touches.cntAdd N

theorem Fits.pulsesTake (s : State) (h : Fits N s0 s) (tch : Touches.pulsesTake N) :
    Fits N s0 (pulsesTake s) := by
  obtain ⟨h_fab, c_cntAdd⟩ := tch
  unfold Sys2Proof.Machine.pulsesTake
  repeat' first
    | with_reducible assumption
    | with_reducible apply Fits.cntAdd
    | with_reducible apply Fits.forEach
    | (intro _)
    | with_reducible apply Fits.ite
    | dsimp only
    | split
    | (refine Fits.pair ‹_ = (_, _)› ?_)
    | (refine Fits.pair2 ‹_ = (_, _, _)› ?_)
    | with_reducible apply Fits.upd_fab

structure Touches.cntTake (N : Part → Prop) : Prop where
  h_cnt : N .cnt
  h_drawn : N .drawn
  h_ev : N .ev
  c_cntAdd : Touches.cntAdd N
  c_pulsesTake : Touches.pulsesTake N

theorem Fits.cntTake (s : State) (h : Fits N s0 s) (tch : Touches.cntTake N) :
    Fits N s0 (cntTake s) := by
  obtain ⟨h_cnt, h_drawn, h_ev, c_cntAdd, c_pulsesTake⟩ := tch
  unfold Sys2Proof.Machine.cntTake
  repeat' first
    | with_reducible assumption
    | with_reducible apply Fits.modCnt
    | with_reducible apply Fits.cntAdd
    | with_reducible apply Fits.cntIncrement
    | with_reducible apply Fits.pulsesTake
    | with_reducible apply Fits.forEach
    | (intro _)
    | with_reducible apply Fits.ite
    | dsimp only
    | split
    | (refine Fits.pair ‹_ = (_, _)› ?_)
    | (refine Fits.pair2 ‹_ = (_, _, _)› ?_)
    | with_reducible apply Fits.upd_ev

structure Touches.cntSel (N : Part → Prop) (n : Nat) : Prop where
  k_CNT_SEL_chain_in : N (.reg (F.CNT_SEL_chain_in n).key)
  k_CNT_SEL_en : N (.reg (F.CNT_SEL_en n).key)
  k_CNT_SEL_mode : N (.reg (F.CNT_SEL_mode n).key)
  k_CNT_SEL_sel : N (.reg (F.CNT_SEL_sel n).key)
  k_CNT_SEL_src : N (.reg (F.CNT_SEL_src n).key)
  c_cntTake : Touches.cntTake N

theorem Fits.cntSel (n : Nat) (value : Nat) (s : State) (h : Fits N s0 s) (tch : Touches.cntSel N n) :
    Fits N s0 (cntSel n value s) := by
  obtain ⟨k_CNT_SEL_chain_in, k_CNT_SEL_en, k_CNT_SEL_mode, k_CNT_SEL_sel, k_CNT_SEL_src, c_cntTake⟩ := tch
  unfold Sys2Proof.Machine.cntSel
  repeat' first
    | with_reducible assumption
    | with_reducible apply k_CNT_SEL_chain_in
    | with_reducible apply k_CNT_SEL_en
    | with_reducible apply k_CNT_SEL_mode
    | with_reducible apply k_CNT_SEL_sel
    | with_reducible apply k_CNT_SEL_src
    | with_reducible apply Fits.setF
    | with_reducible apply Fits.cntTake
    | (intro _)
    | with_reducible apply Fits.ite
    | dsimp only
    | split
    | (refine Fits.pair ‹_ = (_, _)› ?_)
    | (refine Fits.pair2 ‹_ = (_, _, _)› ?_)

structure Touches.execCntSelWrite (N : Part → Prop) (n : Fin 512) : Prop where
  c_goWrite : Touches.goWrite N (0x330000 + 0x20 * n.val)
  c_cntSel : Touches.cntSel N n.val

theorem FitsOut.execCntSelWrite (m : Master) (n : Fin 512) (value : Word) (s : State) (h : Fits N s0 s) (tch : Touches.execCntSelWrite N n) :
    FitsOut N s0 (execCntSelWrite m n value s) := by
  obtain ⟨c_goWrite, c_cntSel⟩ := tch
  unfold Sys2Proof.Machine.execCntSelWrite
  repeat' first
    | with_reducible assumption
    | with_reducible apply Fits.cntSel
    | with_reducible apply Fits.goWrite
    | with_reducible apply FitsOut.ite
    | with_reducible apply FitsOut.next
    | with_reducible apply FitsOut.fault
    | (intro _)
    | with_reducible apply Fits.ite
    | dsimp only
    | split
    | (refine Fits.pair ‹_ = (_, _)› ?_)
    | (refine Fits.pair2 ‹_ = (_, _, _)› ?_)

structure Touches.cntLo (N : Part → Prop) (n : Nat) : Prop where
  h_cnt : N .cnt
  c_refuse : Touches.refuse N (0x330008 + 0x20 * n)

theorem Fits.cntLo (m : Master) (n : Nat) (value : Nat) (s : State) (h : Fits N s0 s) (tch : Touches.cntLo N n) :
    Fits N s0 (cntLo m n value s) := by
  obtain ⟨h_cnt, c_refuse⟩ := tch
  unfold Sys2Proof.Machine.cntLo
  repeat' first
    | with_reducible assumption
    | with_reducible apply Fits.refuse
    | with_reducible apply Fits.modCnt
    | (intro _)
    | with_reducible apply Fits.ite
    | dsimp only
    | split
    | (refine Fits.pair ‹_ = (_, _)› ?_)
    | (refine Fits.pair2 ‹_ = (_, _, _)› ?_)

structure Touches.cntHi (N : Part → Prop) (n : Nat) : Prop where
  k_CNT_HI_value : N (.reg (F.CNT_HI_value n).key)
  k_CNT_LO_value : N (.reg (F.CNT_LO_value n).key)
  k_CNT_SEL_sat : N (.reg (F.CNT_SEL_sat n).key)
  c_refuse : Touches.refuse N (0x33000C + 0x20 * n)
  c_cntTake : Touches.cntTake N

theorem Fits.cntHi (m : Master) (n : Nat) (value : Nat) (s : State) (h : Fits N s0 s) (tch : Touches.cntHi N n) :
    Fits N s0 (cntHi m n value s) := by
  obtain ⟨k_CNT_HI_value, k_CNT_LO_value, k_CNT_SEL_sat, c_refuse, c_cntTake⟩ := tch
  unfold Sys2Proof.Machine.cntHi
  repeat' first
    | with_reducible assumption
    | with_reducible apply k_CNT_HI_value
    | with_reducible apply k_CNT_LO_value
    | with_reducible apply k_CNT_SEL_sat
    | with_reducible apply Fits.setF
    | with_reducible apply Fits.setB
    | with_reducible apply Fits.refuse
    | with_reducible apply Fits.cntTake
    | (intro _)
    | with_reducible apply Fits.ite
    | dsimp only
    | split
    | (refine Fits.pair ‹_ = (_, _)› ?_)
    | (refine Fits.pair2 ‹_ = (_, _, _)› ?_)

structure Touches.execCntHiWrite (N : Part → Prop) (n : Fin 512) : Prop where
  c_goWrite : Touches.goWrite N (0x33000C + 0x20 * n.val)
  c_cntHi : Touches.cntHi N n.val

theorem FitsOut.execCntHiWrite (m : Master) (n : Fin 512) (value : Word) (s : State) (h : Fits N s0 s) (tch : Touches.execCntHiWrite N n) :
    FitsOut N s0 (execCntHiWrite m n value s) := by
  obtain ⟨c_goWrite, c_cntHi⟩ := tch
  unfold Sys2Proof.Machine.execCntHiWrite
  repeat' first
    | with_reducible assumption
    | with_reducible apply Fits.cntHi
    | with_reducible apply Fits.goWrite
    | with_reducible apply FitsOut.ite
    | with_reducible apply FitsOut.next
    | with_reducible apply FitsOut.fault
    | (intro _)
    | with_reducible apply Fits.ite
    | dsimp only
    | split
    | (refine Fits.pair ‹_ = (_, _)› ?_)
    | (refine Fits.pair2 ‹_ = (_, _, _)› ?_)

structure Touches.execCntWrap (N : Part → Prop) : Prop where
  c_cntAdd : Touches.cntAdd N

theorem FitsOut.execCntWrap (n : Fin 512) (inc : BitVec 48) (s : State) (h : Fits N s0 s) (tch : Touches.execCntWrap N) :
    FitsOut N s0 (execCntWrap n inc s) := by
  obtain ⟨c_cntAdd⟩ := tch
  unfold Sys2Proof.Machine.execCntWrap
  repeat' first
    | with_reducible assumption
    | with_reducible apply Fits.cntAdd
    | with_reducible apply FitsOut.ite
    | with_reducible apply FitsOut.next
    | with_reducible apply FitsOut.fault
    | (intro _)
    | with_reducible apply Fits.ite
    | dsimp only
    | split
    | (refine Fits.pair ‹_ = (_, _)› ?_)
    | (refine Fits.pair2 ‹_ = (_, _, _)› ?_)

structure Touches.cntInstant (N : Part → Prop) : Prop where
  k_CNT_FREEZE_T_HI_value : N (.reg F.CNT_FREEZE_T_HI_value.key)
  k_CNT_FREEZE_T_LO_value : N (.reg F.CNT_FREEZE_T_LO_value.key)

theorem Fits.cntInstant (s : State) (h : Fits N s0 s) (tch : Touches.cntInstant N) :
    Fits N s0 (cntInstant s).2 := by
  obtain ⟨k_CNT_FREEZE_T_HI_value, k_CNT_FREEZE_T_LO_value⟩ := tch
  unfold Sys2Proof.Machine.cntInstant
  repeat' first
    | with_reducible assumption
    | with_reducible apply k_CNT_FREEZE_T_HI_value
    | with_reducible apply k_CNT_FREEZE_T_LO_value
    | with_reducible apply Fits.setF
    | (intro _)
    | with_reducible apply Fits.ite
    | dsimp only
    | split
    | (refine Fits.pair ‹_ = (_, _)› ?_)
    | (refine Fits.pair2 ‹_ = (_, _, _)› ?_)

structure Touches.freezeBegin (N : Part → Prop) : Prop where
  k_CNT_FREEZE_busy : N (.reg F.CNT_FREEZE_busy.key)
  c_cntInstant : Touches.cntInstant N

theorem Fits.freezeBegin (s : State) (h : Fits N s0 s) (tch : Touches.freezeBegin N) :
    Fits N s0 (freezeBegin s) := by
  obtain ⟨k_CNT_FREEZE_busy, c_cntInstant⟩ := tch
  unfold Sys2Proof.Machine.freezeBegin
  repeat' first
    | with_reducible assumption
    | with_reducible apply k_CNT_FREEZE_busy
    | with_reducible apply Fits.setB
    | with_reducible apply Fits.cntInstant
    | (intro _)
    | with_reducible apply Fits.ite
    | dsimp only
    | split
    | (refine Fits.pair ‹_ = (_, _)› ?_)
    | (refine Fits.pair2 ‹_ = (_, _, _)› ?_)

structure Touches.freezeWrite (N : Part → Prop) : Prop where
  k_CNT_FREEZE_freeze : N (.reg F.CNT_FREEZE_freeze.key)
  k_CNT_FREEZE_lead : N (.reg F.CNT_FREEZE_lead.key)
  c_freezeBegin : Touches.freezeBegin N

theorem Fits.freezeWrite (v : Nat) (s : State) (h : Fits N s0 s) (tch : Touches.freezeWrite N) :
    Fits N s0 (freezeWrite v s) := by
  obtain ⟨k_CNT_FREEZE_freeze, k_CNT_FREEZE_lead, c_freezeBegin⟩ := tch
  unfold Sys2Proof.Machine.freezeWrite
  repeat' first
    | with_reducible assumption
    | with_reducible apply k_CNT_FREEZE_freeze
    | with_reducible apply k_CNT_FREEZE_lead
    | with_reducible apply Fits.setF
    | with_reducible apply Fits.freezeBegin
    | (intro _)
    | with_reducible apply Fits.ite
    | dsimp only
    | split
    | (refine Fits.pair ‹_ = (_, _)› ?_)
    | (refine Fits.pair2 ‹_ = (_, _, _)› ?_)

structure Touches.execFreezeRequest (N : Part → Prop) : Prop where
  c_goWrite : Touches.goWrite N 0xF8040
  c_freezeWrite : Touches.freezeWrite N

theorem FitsOut.execFreezeRequest (m : Master) (freeze : Bool) (lead : BitVec 16) (s : State) (h : Fits N s0 s) (tch : Touches.execFreezeRequest N) :
    FitsOut N s0 (execFreezeRequest m freeze lead s) := by
  obtain ⟨c_goWrite, c_freezeWrite⟩ := tch
  unfold Sys2Proof.Machine.execFreezeRequest
  repeat' first
    | with_reducible assumption
    | with_reducible apply Fits.freezeWrite
    | with_reducible apply Fits.goWrite
    | with_reducible apply FitsOut.ite
    | with_reducible apply FitsOut.next
    | with_reducible apply FitsOut.fault
    | (intro _)
    | with_reducible apply Fits.ite
    | dsimp only
    | split
    | (refine Fits.pair ‹_ = (_, _)› ?_)
    | (refine Fits.pair2 ‹_ = (_, _, _)› ?_)

theorem Fits.holdPages (p : Nat → Bool) (s : State) (h : Fits N s0 s) (h_cnt : N .cnt) :
    Fits N s0 (holdPages p s) := by
  unfold Sys2Proof.Machine.holdPages
  repeat' first
    | with_reducible assumption
    | with_reducible apply Fits.modCnt
    | (intro _)
    | with_reducible apply Fits.ite
    | dsimp only
    | split
    | (refine Fits.pair ‹_ = (_, _)› ?_)
    | (refine Fits.pair2 ‹_ = (_, _, _)› ?_)

structure Touches.releasePages (N : Part → Prop) : Prop where
  h_cnt : N .cnt
  k_any : ∀ k, N (.reg k)

theorem Fits.releasePages (p : Nat → Bool) (s : State) (h : Fits N s0 s) (tch : Touches.releasePages N) :
    Fits N s0 (releasePages p s) := by
  obtain ⟨h_cnt, k_any⟩ := tch
  unfold Sys2Proof.Machine.releasePages
  repeat' first
    | with_reducible assumption
    | with_reducible apply k_any
    | with_reducible apply Fits.modCnt
    | with_reducible apply Fits.foldlPair
    | with_reducible apply Fits.foldl
    | (intro _)
    | with_reducible apply Fits.ite
    | dsimp only
    | split
    | (refine Fits.pair ‹_ = (_, _)› ?_)
    | (refine Fits.pair2 ‹_ = (_, _, _)› ?_)
    | (with_reducible refine Fits.upd_fields ?_ _ (fun k hk => absurd (k_any k) hk) fun t => Tbl.rising_foldl _ _ (fun t b ht => Tbl.rising_set ht _ _ _) t)

structure Touches.execFreezeInstant (N : Part → Prop) : Prop where
  h_cnt : N .cnt
  h_time : N .time
  k_CNT_FREEZE_busy : N (.reg F.CNT_FREEZE_busy.key)
  c_evt : Touches.evt N 0xF8
  c_cntTake : Touches.cntTake N
  c_freezeBegin : Touches.freezeBegin N
  c_releasePages : Touches.releasePages N

theorem FitsOut.execFreezeInstant (s : State) (h : Fits N s0 s) (tch : Touches.execFreezeInstant N) :
    FitsOut N s0 (execFreezeInstant s) := by
  obtain ⟨h_cnt, h_time, k_CNT_FREEZE_busy, c_evt, c_cntTake, c_freezeBegin, c_releasePages⟩ := tch
  unfold Sys2Proof.Machine.execFreezeInstant
  repeat' first
    | with_reducible assumption
    | with_reducible apply k_CNT_FREEZE_busy
    | with_reducible apply Fits.setB
    | with_reducible apply Fits.reach
    | with_reducible apply Fits.evt
    | with_reducible apply Fits.modCnt
    | with_reducible apply Fits.cntTake
    | with_reducible apply Fits.freezeBegin
    | with_reducible apply Fits.holdPages
    | with_reducible apply Fits.releasePages
    | with_reducible apply FitsOut.ite
    | with_reducible apply FitsOut.next
    | with_reducible apply FitsOut.fault
    | (intro _)
    | with_reducible apply Fits.ite
    | dsimp only
    | split
    | (refine Fits.pair ‹_ = (_, _)› ?_)
    | (refine Fits.pair2 ‹_ = (_, _, _)› ?_)

structure Touches.pageFreeze (N : Part → Prop) : Prop where
  h_cnt : N .cnt
  c_cntTake : Touches.cntTake N
  c_releasePages : Touches.releasePages N

theorem Fits.pageFreeze (p : Nat) (v : Bool) (s : State) (h : Fits N s0 s) (tch : Touches.pageFreeze N) :
    Fits N s0 (pageFreeze p v s) := by
  obtain ⟨h_cnt, c_cntTake, c_releasePages⟩ := tch
  unfold Sys2Proof.Machine.pageFreeze
  repeat' first
    | with_reducible assumption
    | with_reducible apply Fits.modCnt
    | with_reducible apply Fits.cntTake
    | with_reducible apply Fits.holdPages
    | with_reducible apply Fits.releasePages
    | (intro _)
    | with_reducible apply Fits.ite
    | dsimp only
    | split
    | (refine Fits.pair ‹_ = (_, _)› ?_)
    | (refine Fits.pair2 ‹_ = (_, _, _)› ?_)

structure Touches.cntSnapGo (N : Part → Prop) : Prop where
  h_cnt : N .cnt
  k_PAGE_STAT_snap_busy : N (.reg (F.PAGE_STAT_snap_busy 0xF8).key)
  c_cntInstant : Touches.cntInstant N

theorem Fits.cntSnapGo (s : State) (h : Fits N s0 s) (tch : Touches.cntSnapGo N) :
    Fits N s0 (cntSnapGo s) := by
  obtain ⟨h_cnt, k_PAGE_STAT_snap_busy, c_cntInstant⟩ := tch
  unfold Sys2Proof.Machine.cntSnapGo
  repeat' first
    | with_reducible assumption
    | with_reducible apply k_PAGE_STAT_snap_busy
    | with_reducible apply Fits.setB
    | with_reducible apply Fits.modCnt
    | with_reducible apply Fits.cntInstant
    | (intro _)
    | with_reducible apply Fits.ite
    | dsimp only
    | split
    | (refine Fits.pair ‹_ = (_, _)› ?_)
    | (refine Fits.pair2 ‹_ = (_, _, _)› ?_)

structure Touches.execCntSnapshot (N : Part → Prop) : Prop where
  h_time : N .time
  k_CNT_SNAP_HI_value : ∀ (a0 : Nat), N (.reg (F.CNT_SNAP_HI_value a0).key)
  k_CNT_SNAP_LO_value : ∀ (a0 : Nat), N (.reg (F.CNT_SNAP_LO_value a0).key)
  k_PAGE_STAT_snap_busy : N (.reg (F.PAGE_STAT_snap_busy 0xF8).key)
  k_SNAP_seq : N (.reg (F.SNAP_seq 0xF8).key)
  c_evt : Touches.evt N 0xF8
  c_cntTake : Touches.cntTake N

theorem FitsOut.execCntSnapshot (s : State) (h : Fits N s0 s) (tch : Touches.execCntSnapshot N) :
    FitsOut N s0 (execCntSnapshot s) := by
  obtain ⟨h_time, k_CNT_SNAP_HI_value, k_CNT_SNAP_LO_value, k_PAGE_STAT_snap_busy, k_SNAP_seq, c_evt, c_cntTake⟩ := tch
  unfold Sys2Proof.Machine.execCntSnapshot
  repeat' first
    | with_reducible assumption
    | with_reducible apply k_CNT_SNAP_HI_value
    | with_reducible apply k_CNT_SNAP_LO_value
    | with_reducible apply k_PAGE_STAT_snap_busy
    | with_reducible apply k_SNAP_seq
    | with_reducible apply Fits.setF
    | with_reducible apply Fits.setB
    | with_reducible apply Fits.incWrap
    | with_reducible apply Fits.reach
    | with_reducible apply Fits.evt
    | with_reducible apply Fits.cntTake
    | with_reducible apply Fits.forEach
    | with_reducible apply FitsOut.ite
    | with_reducible apply FitsOut.next
    | with_reducible apply FitsOut.fault
    | (intro _)
    | with_reducible apply Fits.ite
    | dsimp only
    | split
    | (refine Fits.pair ‹_ = (_, _)› ?_)
    | (refine Fits.pair2 ‹_ = (_, _, _)› ?_)

theorem Fits.modSmp (f : Smp → Smp) (s : State) (h : Fits N s0 s) (hN : N .smp)
    (hf : ∀ e, Tbl.wf 0 e.words = true → Tbl.wf 0 (f e).words = true) : Fits N s0 (Machine.modSmp f s) := h.upd_smp hN _ (hf _)

structure Touches.smpReport (N : Part → Prop) : Prop where
  k_SMP_STAT_inflight : N (.reg F.SMP_STAT_inflight.key)

theorem Fits.smpReport (s : State) (h : Fits N s0 s) (tch : Touches.smpReport N) :
    Fits N s0 (smpReport s) := by
  obtain ⟨k_SMP_STAT_inflight⟩ := tch
  unfold Sys2Proof.Machine.smpReport
  repeat' first
    | with_reducible assumption
    | with_reducible apply k_SMP_STAT_inflight
    | with_reducible apply Fits.setF
    | (intro _)
    | with_reducible apply Fits.ite
    | dsimp only
    | split
    | (refine Fits.pair ‹_ = (_, _)› ?_)
    | (refine Fits.pair2 ‹_ = (_, _, _)› ?_)

structure Touches.smpReload (N : Part → Prop) : Prop where
  h_drawn : N .drawn
  h_smp : N .smp

theorem Fits.smpReload (path : Nat) (s : State) (h : Fits N s0 s) (tch : Touches.smpReload N) :
    Fits N s0 (smpReload path s) := by
  obtain ⟨h_drawn, h_smp⟩ := tch
  unfold Sys2Proof.Machine.smpReload
  repeat' first
    | with_reducible assumption
    | with_reducible apply Fits.draw
    | (with_reducible refine Fits.modSmp _ _ ?_ ‹_› fun _ t => t)
    | (intro _)
    | with_reducible apply Fits.ite
    | dsimp only
    | split
    | (refine Fits.pair ‹_ = (_, _)› ?_)
    | (refine Fits.pair2 ‹_ = (_, _, _)› ?_)

structure Touches.execSampleChoose (N : Part → Prop) : Prop where
  h_smp : N .smp
  k_SMP_SKIP_count : N (.reg F.SMP_SKIP_count.key)
  c_evt : Touches.evt N 0xF9
  c_smpReport : Touches.smpReport N
  c_smpReload : Touches.smpReload N

theorem FitsOut.execSampleChoose (path : Fin 2) (port : Fin 32) (s : State) (h : Fits N s0 s) (tch : Touches.execSampleChoose N) :
    FitsOut N s0 (execSampleChoose path port s) := by
  obtain ⟨h_smp, k_SMP_SKIP_count, c_evt, c_smpReport, c_smpReload⟩ := tch
  unfold Sys2Proof.Machine.execSampleChoose
  repeat' first
    | with_reducible assumption
    | with_reducible apply k_SMP_SKIP_count
    | with_reducible apply Fits.bump
    | with_reducible apply Fits.evt
    | (with_reducible refine Fits.modSmp _ _ ?_ ‹_› fun _ t => t)
    | with_reducible apply Fits.smpReport
    | with_reducible apply Fits.smpReload
    | with_reducible apply FitsOut.ite
    | with_reducible apply FitsOut.next
    | with_reducible apply FitsOut.fault
    | (intro _)
    | with_reducible apply Fits.ite
    | dsimp only
    | split
    | (refine Fits.pair ‹_ = (_, _)› ?_)
    | (refine Fits.pair2 ‹_ = (_, _, _)› ?_)

structure Touches.execSampleRecord (N : Part → Prop) : Prop where
  h_ev : N .ev
  h_smp : N .smp
  k_SMP_STAT_full : N (.reg F.SMP_STAT_full.key)
  k_SMP_STAT_held : N (.reg F.SMP_STAT_held.key)
  k_SMP_WR_COUNT_count : N (.reg F.SMP_WR_COUNT_count.key)
  c_evt : Touches.evt N 0xF9
  c_smpReport : Touches.smpReport N

theorem FitsOut.execSampleRecord (path : Fin 2) (i : Fin 16) (u : Sampled) (s : State) (h : Fits N s0 s) (tch : Touches.execSampleRecord N) :
    FitsOut N s0 (execSampleRecord path i u s) := by
  obtain ⟨h_ev, h_smp, k_SMP_STAT_full, k_SMP_STAT_held, k_SMP_WR_COUNT_count, c_evt, c_smpReport⟩ := tch
  unfold Sys2Proof.Machine.execSampleRecord
  repeat' first
    | with_reducible assumption
    | with_reducible apply k_SMP_STAT_full
    | with_reducible apply k_SMP_STAT_held
    | with_reducible apply k_SMP_WR_COUNT_count
    | with_reducible apply Fits.setF
    | with_reducible apply Fits.setB
    | with_reducible apply Fits.incWrap
    | with_reducible apply Fits.datapath
    | with_reducible apply Fits.evt
    | (with_reducible refine Fits.modSmp _ _ ?_ ‹_› fun _ t => t)
    | with_reducible apply Fits.smpReport
    | with_reducible apply Fits.foldlPair
    | with_reducible apply Fits.foldl
    | (with_reducible refine Fits.modSmp _ _ ?_ ‹_› fun _ t => Tbl.wf_foldl _ _ (fun t b ht => Tbl.wf_set ht _ _) t)
    | with_reducible apply FitsOut.ite
    | with_reducible apply FitsOut.next
    | with_reducible apply FitsOut.fault
    | (intro _)
    | with_reducible apply Fits.ite
    | dsimp only
    | split
    | (refine Fits.pair ‹_ = (_, _)› ?_)
    | (refine Fits.pair2 ‹_ = (_, _, _)› ?_)

structure Touches.smpRestart (N : Part → Prop) : Prop where
  k_SMP_STAT_full : N (.reg F.SMP_STAT_full.key)
  k_SMP_STAT_held : N (.reg F.SMP_STAT_held.key)

theorem Fits.smpRestart (s : State) (h : Fits N s0 s) (tch : Touches.smpRestart N) :
    Fits N s0 (smpRestart s) := by
  obtain ⟨k_SMP_STAT_full, k_SMP_STAT_held⟩ := tch
  unfold Sys2Proof.Machine.smpRestart
  repeat' first
    | with_reducible assumption
    | with_reducible apply k_SMP_STAT_full
    | with_reducible apply k_SMP_STAT_held
    | with_reducible apply Fits.setF
    | with_reducible apply Fits.setB
    | (intro _)
    | with_reducible apply Fits.ite
    | dsimp only
    | split
    | (refine Fits.pair ‹_ = (_, _)› ?_)
    | (refine Fits.pair2 ‹_ = (_, _, _)› ?_)

structure Touches.smpCtrl (N : Part → Prop) : Prop where
  k_SMP_CTRL_en : N (.reg F.SMP_CTRL_en.key)
  k_SMP_CTRL_j : N (.reg F.SMP_CTRL_j.key)
  k_SMP_CTRL_k : N (.reg F.SMP_CTRL_k.key)
  k_SMP_CTRL_path : N (.reg F.SMP_CTRL_path.key)
  k_SMP_CTRL_port : N (.reg F.SMP_CTRL_port.key)
  k_SMP_CTRL_port_en : N (.reg F.SMP_CTRL_port_en.key)
  k_SMP_CTRL_stop : N (.reg F.SMP_CTRL_stop.key)
  c_smpRestart : Touches.smpRestart N

theorem Fits.smpCtrl (v : Nat) (s : State) (h : Fits N s0 s) (tch : Touches.smpCtrl N) :
    Fits N s0 (smpCtrl v s) := by
  obtain ⟨k_SMP_CTRL_en, k_SMP_CTRL_j, k_SMP_CTRL_k, k_SMP_CTRL_path, k_SMP_CTRL_port, k_SMP_CTRL_port_en, k_SMP_CTRL_stop, c_smpRestart⟩ := tch
  unfold Sys2Proof.Machine.smpCtrl
  repeat' first
    | with_reducible assumption
    | with_reducible apply k_SMP_CTRL_en
    | with_reducible apply k_SMP_CTRL_j
    | with_reducible apply k_SMP_CTRL_k
    | with_reducible apply k_SMP_CTRL_path
    | with_reducible apply k_SMP_CTRL_port
    | with_reducible apply k_SMP_CTRL_port_en
    | with_reducible apply k_SMP_CTRL_stop
    | with_reducible apply Fits.setF
    | with_reducible apply Fits.smpRestart
    | (intro _)
    | with_reducible apply Fits.ite
    | dsimp only
    | split
    | (refine Fits.pair ‹_ = (_, _)› ?_)
    | (refine Fits.pair2 ‹_ = (_, _, _)› ?_)

structure Touches.execSmpRestart (N : Part → Prop) : Prop where
  c_goWrite : Touches.goWrite N 0xF9040
  c_smpCtrl : Touches.smpCtrl N

theorem FitsOut.execSmpRestart (m : Master) (value : BitVec 31) (s : State) (h : Fits N s0 s) (tch : Touches.execSmpRestart N) :
    FitsOut N s0 (execSmpRestart m value s) := by
  obtain ⟨c_goWrite, c_smpCtrl⟩ := tch
  unfold Sys2Proof.Machine.execSmpRestart
  repeat' first
    | with_reducible assumption
    | with_reducible apply Fits.smpCtrl
    | with_reducible apply Fits.goWrite
    | with_reducible apply FitsOut.ite
    | with_reducible apply FitsOut.next
    | with_reducible apply FitsOut.fault
    | (intro _)
    | with_reducible apply Fits.ite
    | dsimp only
    | split
    | (refine Fits.pair ‹_ = (_, _)› ?_)
    | (refine Fits.pair2 ‹_ = (_, _, _)› ?_)

end Sys2Proof.Machine
end

