-- ==== Sys2Proof/Laws/FitsEngine.lean ====
section
/-! SUPPORT. What the operations of Machine/Engine.lean touch (a structure of parts for each, over those of the operations it calls), and
that each keeps the canonical form. -/
set_option linter.unusedTactic false
set_option linter.unreachableTactic false
namespace Sys2Proof.Machine

variable {N : Part → Prop} {s0 : State}

structure Touches.engineStopped (N : Part → Prop) (le : Nat) : Prop where
  k_LE_ROLE_STAT_line_mode_active : N (.reg (F.LE_ROLE_STAT_line_mode_active le).key)
  k_LE_ROLE_STAT_role_active : N (.reg (F.LE_ROLE_STAT_role_active le).key)
  k_LE_ROLE_STAT_run_state : N (.reg (F.LE_ROLE_STAT_run_state le).key)
  k_LE_ROLE_STAT_single_fibre_active : N (.reg (F.LE_ROLE_STAT_single_fibre_active le).key)
  h_tx : N (.tx ((le : Nat) != 0))
  c_txReport : Touches.txReport N le
  c_txEval : Touches.txEval N le
  c_cipherLoad : Touches.cipherLoad N
  c_monAbort : Touches.monAbort N le
  c_repairStopped : Touches.repairStopped N le

theorem Fits.engineStopped (le : Nat) (s : State) (h : Fits N s0 s) (tch : Touches.engineStopped N le) :
    Fits N s0 (engineStopped le s) := by
  obtain ⟨k_LE_ROLE_STAT_line_mode_active, k_LE_ROLE_STAT_role_active, k_LE_ROLE_STAT_run_state, k_LE_ROLE_STAT_single_fibre_active, h_tx, c_txReport, c_txEval, c_cipherLoad, c_monAbort, c_repairStopped⟩ := tch
  unfold Sys2Proof.Machine.engineStopped
  repeat' first
    | with_reducible assumption
    | with_reducible apply k_LE_ROLE_STAT_line_mode_active
    | with_reducible apply k_LE_ROLE_STAT_role_active
    | with_reducible apply k_LE_ROLE_STAT_run_state
    | with_reducible apply k_LE_ROLE_STAT_single_fibre_active
    | with_reducible apply Fits.setF
    | with_reducible apply Fits.modTx
    | with_reducible apply Fits.txReport
    | with_reducible apply Fits.txEval
    | with_reducible apply Fits.cipherLoad
    | with_reducible apply Fits.monAbort
    | with_reducible apply Fits.repairStopped
    | (intro _)
    | with_reducible apply Fits.ite
    | dsimp only
    | split
    | (refine Fits.pair ‹_ = (_, _)› ?_)
    | (refine Fits.pair2 ‹_ = (_, _, _)› ?_)

structure Touches.engineOff (N : Part → Prop) (le : Nat) : Prop where
  c_engineStopping : Touches.engineStopping N 0
  c_engineStopping_1 : Touches.engineStopping N 1
  c_engineStopping_2 : Touches.engineStopping N le

theorem Fits.engineOff (le : Nat) (s : State) (h : Fits N s0 s) (tch : Touches.engineOff N le) :
    Fits N s0 (engineOff le s) := by
  obtain ⟨c_engineStopping, c_engineStopping_1, c_engineStopping_2⟩ := tch
  unfold Sys2Proof.Machine.engineOff
  repeat' first
    | with_reducible assumption
    | with_reducible apply Fits.engineStopping
    | (intro _)
    | with_reducible apply Fits.ite
    | dsimp only
    | split
    | (refine Fits.pair ‹_ = (_, _)› ?_)
    | (refine Fits.pair2 ‹_ = (_, _, _)› ?_)

structure Touches.engineFail (N : Part → Prop) (le : Nat) : Prop where
  k_LE_ROLE_STAT_start_step : N (.reg (F.LE_ROLE_STAT_start_step le).key)
  c_err : Touches.err N (lep le 0x10)
  c_leafIdle : Touches.leafIdle N le
  c_engineStopping : Touches.engineStopping N (1 - le)
  c_engineStopping_1 : Touches.engineStopping N le
  c_engineStopped : Touches.engineStopped N le

theorem Fits.engineFail (le : Nat) (step : Nat) (code : Nat) (s : State) (h : Fits N s0 s) (tch : Touches.engineFail N le) :
    Fits N s0 (engineFail le step code s) := by
  obtain ⟨k_LE_ROLE_STAT_start_step, c_err, c_leafIdle, c_engineStopping, c_engineStopping_1, c_engineStopped⟩ := tch
  unfold Sys2Proof.Machine.engineFail
  repeat' first
    | with_reducible assumption
    | with_reducible apply k_LE_ROLE_STAT_start_step
    | with_reducible apply Fits.setF
    | with_reducible apply Fits.err
    | with_reducible apply Fits.leafIdle
    | with_reducible apply Fits.engineStopping
    | with_reducible apply Fits.engineStopped
    | (intro _)
    | with_reducible apply Fits.ite
    | dsimp only
    | split
    | (refine Fits.pair ‹_ = (_, _)› ?_)
    | (refine Fits.pair2 ‹_ = (_, _, _)› ?_)

structure Touches.engineStart (N : Part → Prop) (le : Nat) : Prop where
  k_LE_ROLE_STAT_line_mode_active : N (.reg (F.LE_ROLE_STAT_line_mode_active le).key)
  k_LE_ROLE_STAT_role_active : N (.reg (F.LE_ROLE_STAT_role_active le).key)
  k_LE_ROLE_STAT_run_state : N (.reg (F.LE_ROLE_STAT_run_state le).key)
  k_LE_ROLE_STAT_single_fibre_active : N (.reg (F.LE_ROLE_STAT_single_fibre_active le).key)
  k_LE_ROLE_STAT_start_step : N (.reg (F.LE_ROLE_STAT_start_step le).key)
  c_cipherLoad : Touches.cipherLoad N
  c_monTake : Touches.monTake N le
  c_convReport : ∀ (a1 : Nat), Touches.convReport N le a1

theorem Fits.engineStart (le : Nat) (s : State) (h : Fits N s0 s) (tch : Touches.engineStart N le) :
    Fits N s0 (engineStart le s) := by
  obtain ⟨k_LE_ROLE_STAT_line_mode_active, k_LE_ROLE_STAT_role_active, k_LE_ROLE_STAT_run_state, k_LE_ROLE_STAT_single_fibre_active, k_LE_ROLE_STAT_start_step, c_cipherLoad, c_monTake, c_convReport⟩ := tch
  unfold Sys2Proof.Machine.engineStart
  repeat' first
    | with_reducible assumption
    | with_reducible apply k_LE_ROLE_STAT_line_mode_active
    | with_reducible apply k_LE_ROLE_STAT_role_active
    | with_reducible apply k_LE_ROLE_STAT_run_state
    | with_reducible apply k_LE_ROLE_STAT_single_fibre_active
    | with_reducible apply k_LE_ROLE_STAT_start_step
    | with_reducible exact c_convReport _
    | with_reducible apply Fits.setF
    | with_reducible apply Fits.cipherLoad
    | with_reducible apply Fits.monTake
    | with_reducible apply Fits.convReport
    | with_reducible apply Fits.forEach
    | (intro _)
    | with_reducible apply Fits.ite
    | dsimp only
    | split
    | (refine Fits.pair ‹_ = (_, _)› ?_)
    | (refine Fits.pair2 ‹_ = (_, _, _)› ?_)

structure Touches.engineRun (N : Part → Prop) (le : Nat) : Prop where
  h_rep : N .rep
  k_LE_P2MP_APPLY_PN_period : N (.reg (F.LE_P2MP_APPLY_PN_period le).key)
  k_LE_ROLE_STAT_run_state : N (.reg (F.LE_ROLE_STAT_run_state le).key)
  k_LE_ROLE_STAT_start_step : N (.reg (F.LE_ROLE_STAT_start_step le).key)
  c_txReport : Touches.txReport N le
  c_txEval : Touches.txEval N le
  c_fecReport : Touches.fecReport N le
  c_rxGo : Touches.rxGo N le
  c_losEval : Touches.losEval N le
  c_rxReport : Touches.rxReport N le
  c_leafGo : Touches.leafGo N le

theorem Fits.engineRun (le : Nat) (s : State) (h : Fits N s0 s) (tch : Touches.engineRun N le) :
    Fits N s0 (engineRun le s) := by
  obtain ⟨h_rep, k_LE_P2MP_APPLY_PN_period, k_LE_ROLE_STAT_run_state, k_LE_ROLE_STAT_start_step, c_txReport, c_txEval, c_fecReport, c_rxGo, c_losEval, c_rxReport, c_leafGo⟩ := tch
  unfold Sys2Proof.Machine.engineRun
  repeat' first
    | with_reducible assumption
    | with_reducible apply k_LE_P2MP_APPLY_PN_period
    | with_reducible apply k_LE_ROLE_STAT_run_state
    | with_reducible apply k_LE_ROLE_STAT_start_step
    | with_reducible apply Fits.setF
    | with_reducible apply Fits.txReport
    | with_reducible apply Fits.txEval
    | with_reducible apply Fits.fecReport
    | with_reducible apply Fits.rxGo
    | with_reducible apply Fits.losEval
    | with_reducible apply Fits.rxReport
    | with_reducible apply Fits.leafGo
    | with_reducible apply Fits.rotationStart
    | (intro _)
    | with_reducible apply Fits.ite
    | dsimp only
    | split
    | (refine Fits.pair ‹_ = (_, _)› ?_)
    | (refine Fits.pair2 ‹_ = (_, _, _)› ?_)

structure Touches.stepDone (N : Part → Prop) (le : Nat) : Prop where
  k_LE_ROLE_STAT_start_step : N (.reg (F.LE_ROLE_STAT_start_step le).key)

theorem Fits.stepDone (le : Nat) (n : Nat) (s : State) (h : Fits N s0 s) (tch : Touches.stepDone N le) :
    Fits N s0 (stepDone le n s) := by
  obtain ⟨k_LE_ROLE_STAT_start_step⟩ := tch
  unfold Sys2Proof.Machine.stepDone
  repeat' first
    | with_reducible assumption
    | with_reducible apply k_LE_ROLE_STAT_start_step
    | with_reducible apply Fits.setF
    | (intro _)
    | with_reducible apply Fits.ite
    | dsimp only
    | split
    | (refine Fits.pair ‹_ = (_, _)› ?_)
    | (refine Fits.pair2 ‹_ = (_, _, _)› ?_)

structure Touches.startStep (N : Part → Prop) (le : Nat) : Prop where
  h_rep : N .rep
  h_tx : N (.tx ((le : Nat) != 0))
  c_calibrate : Touches.calibrate N le false
  c_calibrate_1 : Touches.calibrate N le true
  c_tileTest : Touches.tileTest N le
  c_engineFail : Touches.engineFail N le
  c_engineRun : Touches.engineRun N le
  c_stepDone : Touches.stepDone N le

theorem Fits.startStep (le : Nat) (ok : Bool) (cals : List UnitCal) (bad : List (Fin 26)) (s : State) (h : Fits N s0 s) (tch : Touches.startStep N le) :
    Fits N s0 (startStep le ok cals bad s) := by
  obtain ⟨h_rep, h_tx, c_calibrate, c_calibrate_1, c_tileTest, c_engineFail, c_engineRun, c_stepDone⟩ := tch
  unfold Sys2Proof.Machine.startStep
  repeat' first
    | with_reducible assumption
    | with_reducible apply Fits.modTx
    | with_reducible apply Fits.trimsTake
    | with_reducible apply Fits.workAll
    | with_reducible apply Fits.calibrate
    | with_reducible apply Fits.tileTest
    | with_reducible apply Fits.engineFail
    | with_reducible apply Fits.engineRun
    | with_reducible apply Fits.stepDone
    | (intro _)
    | with_reducible apply Fits.ite
    | dsimp only
    | split
    | (refine Fits.pair ‹_ = (_, _)› ?_)
    | (refine Fits.pair2 ‹_ = (_, _, _)› ?_)

structure Touches.execEngineStartStep (N : Part → Prop) (le : Fin 2) : Prop where
  c_startStep : Touches.startStep N le.val

theorem FitsOut.execEngineStartStep (le : Fin 2) (ok : Bool) (cals : List UnitCal) (bad : List (Fin 26)) (s : State) (h : Fits N s0 s) (tch : Touches.execEngineStartStep N le) :
    FitsOut N s0 (execEngineStartStep le ok cals bad s) := by
  obtain ⟨c_startStep⟩ := tch
  unfold Sys2Proof.Machine.execEngineStartStep
  repeat' first
    | with_reducible assumption
    | with_reducible apply Fits.startStep
    | with_reducible apply FitsOut.ite
    | with_reducible apply FitsOut.next
    | with_reducible apply FitsOut.fault
    | (intro _)
    | with_reducible apply Fits.ite
    | dsimp only
    | split
    | (refine Fits.pair ‹_ = (_, _)› ?_)
    | (refine Fits.pair2 ‹_ = (_, _, _)› ?_)

structure Touches.execEngineStopComplete (N : Part → Prop) (le : Fin 2) : Prop where
  c_engineStopped : Touches.engineStopped N le.val

theorem FitsOut.execEngineStopComplete (le : Fin 2) (s : State) (h : Fits N s0 s) (tch : Touches.execEngineStopComplete N le) :
    FitsOut N s0 (execEngineStopComplete le s) := by
  obtain ⟨c_engineStopped⟩ := tch
  unfold Sys2Proof.Machine.execEngineStopComplete
  repeat' first
    | with_reducible assumption
    | with_reducible apply Fits.engineStopped
    | with_reducible apply FitsOut.ite
    | with_reducible apply FitsOut.next
    | with_reducible apply FitsOut.fault
    | (intro _)
    | with_reducible apply Fits.ite
    | dsimp only
    | split
    | (refine Fits.pair ‹_ = (_, _)› ?_)
    | (refine Fits.pair2 ‹_ = (_, _, _)› ?_)

structure Touches.reloadStart (N : Part → Prop) (le : Nat) : Prop where
  k_LE_TX_PLAN_STAT_reload_busy : N (.reg (F.LE_TX_PLAN_STAT_reload_busy le).key)
  c_txEval : Touches.txEval N le
  c_rxMove : Touches.rxMove N le
  c_histInvalid : Touches.histInvalid N le

theorem Fits.reloadStart (le : Nat) (s : State) (h : Fits N s0 s) (tch : Touches.reloadStart N le) :
    Fits N s0 (reloadStart le s) := by
  obtain ⟨k_LE_TX_PLAN_STAT_reload_busy, c_txEval, c_rxMove, c_histInvalid⟩ := tch
  unfold Sys2Proof.Machine.reloadStart
  repeat' first
    | with_reducible assumption
    | with_reducible apply k_LE_TX_PLAN_STAT_reload_busy
    | with_reducible apply Fits.setB
    | with_reducible apply Fits.txEval
    | with_reducible apply Fits.rxMove
    | with_reducible apply Fits.histInvalid
    | (intro _)
    | with_reducible apply Fits.ite
    | dsimp only
    | split
    | (refine Fits.pair ‹_ = (_, _)› ?_)
    | (refine Fits.pair2 ‹_ = (_, _, _)› ?_)

structure Touches.execReloadDone (N : Part → Prop) (le : Fin 2) : Prop where
  k_LE_TX_PLAN_STAT_reload_busy : N (.reg (F.LE_TX_PLAN_STAT_reload_busy le.val).key)
  c_evt : Touches.evt N (lep le.val 0x14)
  c_txReport : Touches.txReport N le.val
  c_txEval : Touches.txEval N le.val
  c_engineFail : Touches.engineFail N le.val

theorem FitsOut.execReloadDone (le : Fin 2) (fail : Option Bool) (s : State) (h : Fits N s0 s) (tch : Touches.execReloadDone N le) :
    FitsOut N s0 (execReloadDone le fail s) := by
  obtain ⟨k_LE_TX_PLAN_STAT_reload_busy, c_evt, c_txReport, c_txEval, c_engineFail⟩ := tch
  unfold Sys2Proof.Machine.execReloadDone
  repeat' first
    | with_reducible assumption
    | with_reducible apply k_LE_TX_PLAN_STAT_reload_busy
    | with_reducible apply Fits.setB
    | with_reducible apply Fits.evt
    | with_reducible apply Fits.txReport
    | with_reducible apply Fits.txEval
    | with_reducible apply Fits.engineFail
    | with_reducible apply FitsOut.ite
    | with_reducible apply FitsOut.next
    | with_reducible apply FitsOut.fault
    | (intro _)
    | with_reducible apply Fits.ite
    | dsimp only
    | split
    | (refine Fits.pair ‹_ = (_, _)› ?_)
    | (refine Fits.pair2 ‹_ = (_, _, _)› ?_)

structure Touches.execRepairSwap (N : Part → Prop) (le : Fin 2) (dac : Bool) (lane : Fin 4) : Prop where
  h_rep : N .rep
  c_convReport : Touches.convReport N le.val lane.val
  c_repairFaulty : Touches.repairFaulty N le.val dac
  c_engineFail : Touches.engineFail N le.val

theorem FitsOut.execRepairSwap (le : Fin 2) (dac : Bool) (lane : Fin 4) (s : State) (h : Fits N s0 s) (tch : Touches.execRepairSwap N le dac lane) :
    FitsOut N s0 (execRepairSwap le dac lane s) := by
  obtain ⟨h_rep, c_convReport, c_repairFaulty, c_engineFail⟩ := tch
  unfold Sys2Proof.Machine.execRepairSwap
  repeat' first
    | with_reducible assumption
    | with_reducible apply Fits.trimsTake
    | with_reducible apply Fits.convReport
    | with_reducible apply Fits.repairFaulty
    | with_reducible apply Fits.repairKeep
    | with_reducible apply Fits.engineFail
    | with_reducible apply FitsOut.ite
    | with_reducible apply FitsOut.next
    | with_reducible apply FitsOut.fault
    | (intro _)
    | with_reducible apply Fits.ite
    | dsimp only
    | split
    | (refine Fits.pair ‹_ = (_, _)› ?_)
    | (refine Fits.pair2 ‹_ = (_, _, _)› ?_)

structure Touches.execFecBlockDecode (N : Part → Prop) (le : Fin 2) : Prop where
  c_fecWord : Touches.fecWord N le.val
  c_engineFail : Touches.engineFail N le.val

theorem FitsOut.execFecBlockDecode (le : Fin 2) (k : Fin 32) (burst : Bool) (d : Decoded) (s : State) (h : Fits N s0 s) (tch : Touches.execFecBlockDecode N le) :
    FitsOut N s0 (execFecBlockDecode le k burst d s) := by
  obtain ⟨c_fecWord, c_engineFail⟩ := tch
  unfold Sys2Proof.Machine.execFecBlockDecode
  repeat' first
    | with_reducible assumption
    | with_reducible apply Fits.fecWord
    | with_reducible apply Fits.engineFail
    | with_reducible apply FitsOut.ite
    | with_reducible apply FitsOut.next
    | with_reducible apply FitsOut.fault
    | (intro _)
    | with_reducible apply Fits.ite
    | dsimp only
    | split
    | (refine Fits.pair ‹_ = (_, _)› ?_)
    | (refine Fits.pair2 ‹_ = (_, _, _)› ?_)

end Sys2Proof.Machine
end

