-- ==== Sys2Proof/Laws/FitsThermos.lean ====
section
/-! SUPPORT. What the operations of Machine/Thermos.lean touch (a structure of parts for each, over those of the operations it calls), and
that each keeps the canonical form. -/
set_option linter.unusedTactic false
set_option linter.unreachableTactic false
namespace Sys2Proof.Machine

variable {N : Part → Prop} {s0 : State}

structure Touches.commitTake (N : Part → Prop) (d : Nat) : Prop where
  h_inForce : N .inForce
  c_commitTaken : Touches.commitTaken N d

theorem Fits.commitTake (d : Nat) (s : State) (h : Fits N s0 s) (tch : Touches.commitTake N d) :
    Fits N s0 (commitTake d s) := by
  obtain ⟨h_inForce, c_commitTaken⟩ := tch
  unfold Sys2Proof.Machine.commitTake
  repeat' first
    | with_reducible assumption
    | with_reducible apply Fits.commitTaken
    | (intro _)
    | with_reducible apply Fits.ite
    | dsimp only
    | split
    | (refine Fits.pair ‹_ = (_, _)› ?_)
    | (refine Fits.pair2 ‹_ = (_, _, _)› ?_)
    | (with_reducible refine Fits.upd_inForce ?_ ‹_› _ fun t => Tbl.rising_overlay t _)

theorem Fits.thmApply (old : Tbl Nat) (s : State) (h : Fits N s0 s) (h_thm : N .thm) :
    Fits N s0 (thmApply old s) := by
  unfold Sys2Proof.Machine.thmApply
  repeat' first
    | with_reducible assumption
    | (intro _)
    | with_reducible apply Fits.ite
    | dsimp only
    | split
    | (refine Fits.pair ‹_ = (_, _)› ?_)
    | (refine Fits.pair2 ‹_ = (_, _, _)› ?_)
    | with_reducible apply Fits.upd_thm

theorem Fits.modThm (f : Thm → Thm) (s : State) (h : Fits N s0 s) (h_thm : N .thm) :
    Fits N s0 (modThm f s) := by
  unfold Sys2Proof.Machine.modThm
  repeat' first
    | with_reducible assumption
    | (intro _)
    | with_reducible apply Fits.ite
    | dsimp only
    | split
    | (refine Fits.pair ‹_ = (_, _)› ?_)
    | (refine Fits.pair2 ‹_ = (_, _, _)› ?_)
    | with_reducible apply Fits.upd_thm

structure Touches.thmConvert (N : Part → Prop) : Prop where
  h_thm : N .thm
  k_THM_STAT_tag : N (.reg F.THM_STAT_tag.key)

theorem Fits.thmConvert (s : State) (h : Fits N s0 s) (tch : Touches.thmConvert N) :
    Fits N s0 (thmConvert s) := by
  obtain ⟨h_thm, k_THM_STAT_tag⟩ := tch
  unfold Sys2Proof.Machine.thmConvert
  repeat' first
    | with_reducible assumption
    | with_reducible apply k_THM_STAT_tag
    | with_reducible apply Fits.setF
    | with_reducible apply Fits.modThm
    | (intro _)
    | with_reducible apply Fits.ite
    | dsimp only
    | split
    | (refine Fits.pair ‹_ = (_, _)› ?_)
    | (refine Fits.pair2 ‹_ = (_, _, _)› ?_)

structure Touches.seqStart (N : Part → Prop) : Prop where
  h_thm : N .thm
  k_THM_STAT_seq_busy : N (.reg F.THM_STAT_seq_busy.key)
  c_evt : Touches.evt N 0xE4
  c_commitTake : Touches.commitTake N 0xE4
  c_thmConvert : Touches.thmConvert N

theorem Fits.seqStart (s : State) (h : Fits N s0 s) (tch : Touches.seqStart N) :
    Fits N s0 (seqStart s) := by
  obtain ⟨h_thm, k_THM_STAT_seq_busy, c_evt, c_commitTake, c_thmConvert⟩ := tch
  unfold Sys2Proof.Machine.seqStart
  repeat' first
    | with_reducible assumption
    | with_reducible apply k_THM_STAT_seq_busy
    | with_reducible apply Fits.setB
    | with_reducible apply Fits.evt
    | with_reducible apply Fits.commitTake
    | with_reducible apply Fits.thmApply
    | with_reducible apply Fits.modThm
    | with_reducible apply Fits.thmConvert
    | (intro _)
    | with_reducible apply Fits.ite
    | dsimp only
    | split
    | (refine Fits.pair ‹_ = (_, _)› ?_)
    | (refine Fits.pair2 ‹_ = (_, _, _)› ?_)

structure Touches.seqPending (N : Part → Prop) : Prop where
  k_THM_STAT_trig_pending : N (.reg F.THM_STAT_trig_pending.key)
  c_seqStart : Touches.seqStart N

theorem Fits.seqPending (s : State) (h : Fits N s0 s) (tch : Touches.seqPending N) :
    Fits N s0 (seqPending s) := by
  obtain ⟨k_THM_STAT_trig_pending, c_seqStart⟩ := tch
  unfold Sys2Proof.Machine.seqPending
  repeat' first
    | with_reducible assumption
    | with_reducible apply k_THM_STAT_trig_pending
    | with_reducible apply Fits.setB
    | with_reducible apply Fits.seqStart
    | (intro _)
    | with_reducible apply Fits.ite
    | dsimp only
    | split
    | (refine Fits.pair ‹_ = (_, _)› ?_)
    | (refine Fits.pair2 ‹_ = (_, _, _)› ?_)

structure Touches.thmTrigger (N : Part → Prop) : Prop where
  k_THM_STAT_trig_pending : N (.reg F.THM_STAT_trig_pending.key)
  k_THM_TRIG_OVL_count : N (.reg F.THM_TRIG_OVL_count.key)
  c_evt : Touches.evt N 0xE4
  c_seqStart : Touches.seqStart N

theorem Fits.thmTrigger (s : State) (h : Fits N s0 s) (tch : Touches.thmTrigger N) :
    Fits N s0 (thmTrigger s) := by
  obtain ⟨k_THM_STAT_trig_pending, k_THM_TRIG_OVL_count, c_evt, c_seqStart⟩ := tch
  unfold Sys2Proof.Machine.thmTrigger
  repeat' first
    | with_reducible assumption
    | with_reducible apply k_THM_STAT_trig_pending
    | with_reducible apply k_THM_TRIG_OVL_count
    | with_reducible apply Fits.setB
    | with_reducible apply Fits.bump
    | with_reducible apply Fits.evt
    | with_reducible apply Fits.seqStart
    | (intro _)
    | with_reducible apply Fits.ite
    | dsimp only
    | split
    | (refine Fits.pair ‹_ = (_, _)› ?_)
    | (refine Fits.pair2 ‹_ = (_, _, _)› ?_)

structure Touches.calStart (N : Part → Prop) : Prop where
  h_thm : N .thm
  k_THM_STAT_cal_busy : N (.reg F.THM_STAT_cal_busy.key)
  c_evt : Touches.evt N 0xE4
  c_seqPending : Touches.seqPending N

theorem Fits.calStart (s : State) (h : Fits N s0 s) (tch : Touches.calStart N) :
    Fits N s0 (calStart s) := by
  obtain ⟨h_thm, k_THM_STAT_cal_busy, c_evt, c_seqPending⟩ := tch
  unfold Sys2Proof.Machine.calStart
  repeat' first
    | with_reducible assumption
    | with_reducible apply k_THM_STAT_cal_busy
    | with_reducible apply Fits.setB
    | with_reducible apply Fits.evt
    | with_reducible apply Fits.modThm
    | with_reducible apply Fits.seqPending
    | (intro _)
    | with_reducible apply Fits.ite
    | dsimp only
    | split
    | (refine Fits.pair ‹_ = (_, _)› ?_)
    | (refine Fits.pair2 ‹_ = (_, _, _)› ?_)

structure Touches.calGo (N : Part → Prop) : Prop where
  k_THM_STAT_cal_queued : N (.reg F.THM_STAT_cal_queued.key)
  c_err : Touches.err N 0xE4
  c_calStart : Touches.calStart N

theorem Fits.calGo (s : State) (h : Fits N s0 s) (tch : Touches.calGo N) :
    Fits N s0 (calGo s) := by
  obtain ⟨k_THM_STAT_cal_queued, c_err, c_calStart⟩ := tch
  unfold Sys2Proof.Machine.calGo
  repeat' first
    | with_reducible assumption
    | with_reducible apply k_THM_STAT_cal_queued
    | with_reducible apply Fits.setB
    | with_reducible apply Fits.err
    | with_reducible apply Fits.calStart
    | (intro _)
    | with_reducible apply Fits.ite
    | dsimp only
    | split
    | (refine Fits.pair ‹_ = (_, _)› ?_)
    | (refine Fits.pair2 ‹_ = (_, _, _)› ?_)

structure Touches.refEnable (N : Part → Prop) : Prop where
  h_thm : N .thm
  k_THM_CTRL_ref_en : N (.reg F.THM_CTRL_ref_en.key)
  k_THM_STAT_ref_ready : N (.reg F.THM_STAT_ref_ready.key)
  c_level : Touches.level N 0xE4

theorem Fits.refEnable (v : Bool) (s : State) (h : Fits N s0 s) (tch : Touches.refEnable N) :
    Fits N s0 (refEnable v s) := by
  obtain ⟨h_thm, k_THM_CTRL_ref_en, k_THM_STAT_ref_ready, c_level⟩ := tch
  unfold Sys2Proof.Machine.refEnable
  repeat' first
    | with_reducible assumption
    | with_reducible apply k_THM_CTRL_ref_en
    | with_reducible apply k_THM_STAT_ref_ready
    | with_reducible apply Fits.setB
    | with_reducible apply Fits.level
    | with_reducible apply Fits.modThm
    | (intro _)
    | with_reducible apply Fits.ite
    | dsimp only
    | split
    | (refine Fits.pair ‹_ = (_, _)› ?_)
    | (refine Fits.pair2 ‹_ = (_, _, _)› ?_)

structure Touches.execRefReady (N : Part → Prop) : Prop where
  h_thm : N .thm
  h_time : N .time
  k_THM_STAT_ref_ready : N (.reg F.THM_STAT_ref_ready.key)
  c_level : Touches.level N 0xE4
  c_calGo : Touches.calGo N

theorem FitsOut.execRefReady (s : State) (h : Fits N s0 s) (tch : Touches.execRefReady N) :
    FitsOut N s0 (execRefReady s) := by
  obtain ⟨h_thm, h_time, k_THM_STAT_ref_ready, c_level, c_calGo⟩ := tch
  unfold Sys2Proof.Machine.execRefReady
  repeat' first
    | with_reducible assumption
    | with_reducible apply k_THM_STAT_ref_ready
    | with_reducible apply Fits.setB
    | with_reducible apply Fits.reach
    | with_reducible apply Fits.level
    | with_reducible apply Fits.modThm
    | with_reducible apply Fits.calGo
    | with_reducible apply FitsOut.ite
    | with_reducible apply FitsOut.next
    | with_reducible apply FitsOut.fault
    | (intro _)
    | with_reducible apply Fits.ite
    | dsimp only
    | split
    | (refine Fits.pair ‹_ = (_, _)› ?_)
    | (refine Fits.pair2 ‹_ = (_, _, _)› ?_)

structure Touches.execThmTimerTrigger (N : Part → Prop) : Prop where
  h_thm : N .thm
  h_time : N .time
  c_thmTrigger : Touches.thmTrigger N

theorem FitsOut.execThmTimerTrigger (s : State) (h : Fits N s0 s) (tch : Touches.execThmTimerTrigger N) :
    FitsOut N s0 (execThmTimerTrigger s) := by
  obtain ⟨h_thm, h_time, c_thmTrigger⟩ := tch
  unfold Sys2Proof.Machine.execThmTimerTrigger
  repeat' first
    | with_reducible assumption
    | with_reducible apply Fits.reach
    | with_reducible apply Fits.modThm
    | with_reducible apply Fits.thmTrigger
    | with_reducible apply FitsOut.ite
    | with_reducible apply FitsOut.next
    | with_reducible apply FitsOut.fault
    | (intro _)
    | with_reducible apply Fits.ite
    | dsimp only
    | split
    | (refine Fits.pair ‹_ = (_, _)› ?_)
    | (refine Fits.pair2 ‹_ = (_, _, _)› ?_)

structure Touches.execThmTrigGo (N : Part → Prop) : Prop where
  c_goWrite : Touches.goWrite N 0xE4048
  c_thmTrigger : Touches.thmTrigger N

theorem FitsOut.execThmTrigGo (m : Master) (s : State) (h : Fits N s0 s) (tch : Touches.execThmTrigGo N) :
    FitsOut N s0 (execThmTrigGo m s) := by
  obtain ⟨c_goWrite, c_thmTrigger⟩ := tch
  unfold Sys2Proof.Machine.execThmTrigGo
  repeat' first
    | with_reducible assumption
    | with_reducible apply Fits.thmTrigger
    | with_reducible apply Fits.goWrite
    | with_reducible apply FitsOut.ite
    | with_reducible apply FitsOut.next
    | with_reducible apply FitsOut.fault
    | (intro _)
    | with_reducible apply Fits.ite
    | dsimp only
    | split
    | (refine Fits.pair ‹_ = (_, _)› ?_)
    | (refine Fits.pair2 ‹_ = (_, _, _)› ?_)

structure Touches.execThmCalGo (N : Part → Prop) : Prop where
  c_goWrite : Touches.goWrite N 0xE4048
  c_thmTrigger : Touches.thmTrigger N
  c_calGo : Touches.calGo N

theorem FitsOut.execThmCalGo (m : Master) (trig : Bool) (s : State) (h : Fits N s0 s) (tch : Touches.execThmCalGo N) :
    FitsOut N s0 (execThmCalGo m trig s) := by
  obtain ⟨c_goWrite, c_thmTrigger, c_calGo⟩ := tch
  unfold Sys2Proof.Machine.execThmCalGo
  repeat' first
    | with_reducible assumption
    | with_reducible apply Fits.thmTrigger
    | with_reducible apply Fits.calGo
    | with_reducible apply Fits.goWrite
    | with_reducible apply FitsOut.ite
    | with_reducible apply FitsOut.next
    | with_reducible apply FitsOut.fault
    | (intro _)
    | with_reducible apply Fits.ite
    | dsimp only
    | split
    | (refine Fits.pair ‹_ = (_, _)› ?_)
    | (refine Fits.pair2 ‹_ = (_, _, _)› ?_)

structure Touches.execThmCalDone (N : Part → Prop) : Prop where
  h_thm : N .thm
  h_time : N .time
  k_DEV_STATUS_thm_cal_done : N (.reg F.DEV_STATUS_thm_cal_done.key)
  k_THM_GAIN_gain : N (.reg F.THM_GAIN_gain.key)
  k_THM_OFFSET_offset : N (.reg F.THM_OFFSET_offset.key)
  k_THM_STAT_cal_busy : N (.reg F.THM_STAT_cal_busy.key)
  c_evt : Touches.evt N 0xE4
  c_seqPending : Touches.seqPending N

theorem FitsOut.execThmCalDone (zero : List (BitVec 24)) (ref : List (BitVec 24)) (s : State) (h : Fits N s0 s) (tch : Touches.execThmCalDone N) :
    FitsOut N s0 (execThmCalDone zero ref s) := by
  obtain ⟨h_thm, h_time, k_DEV_STATUS_thm_cal_done, k_THM_GAIN_gain, k_THM_OFFSET_offset, k_THM_STAT_cal_busy, c_evt, c_seqPending⟩ := tch
  unfold Sys2Proof.Machine.execThmCalDone
  repeat' first
    | with_reducible assumption
    | with_reducible apply k_DEV_STATUS_thm_cal_done
    | with_reducible apply k_THM_GAIN_gain
    | with_reducible apply k_THM_OFFSET_offset
    | with_reducible apply k_THM_STAT_cal_busy
    | with_reducible apply Fits.setF
    | with_reducible apply Fits.setB
    | with_reducible apply Fits.reach
    | with_reducible apply Fits.evt
    | with_reducible apply Fits.modThm
    | with_reducible apply Fits.seqPending
    | with_reducible apply FitsOut.ite
    | with_reducible apply FitsOut.next
    | with_reducible apply FitsOut.fault
    | (intro _)
    | with_reducible apply Fits.ite
    | dsimp only
    | split
    | (refine Fits.pair ‹_ = (_, _)› ?_)
    | (refine Fits.pair2 ‹_ = (_, _, _)› ?_)

structure Touches.execSeqDone (N : Part → Prop) : Prop where
  k_THM_STAT_cal_queued : N (.reg F.THM_STAT_cal_queued.key)
  k_THM_STAT_seq_busy : N (.reg F.THM_STAT_seq_busy.key)
  k_THM_STAT_tag : N (.reg F.THM_STAT_tag.key)
  c_evt : Touches.evt N 0xE4
  c_seqPending : Touches.seqPending N
  c_calStart : Touches.calStart N

theorem FitsOut.execSeqDone (s : State) (h : Fits N s0 s) (tch : Touches.execSeqDone N) :
    FitsOut N s0 (execSeqDone s) := by
  obtain ⟨k_THM_STAT_cal_queued, k_THM_STAT_seq_busy, k_THM_STAT_tag, c_evt, c_seqPending, c_calStart⟩ := tch
  unfold Sys2Proof.Machine.execSeqDone
  repeat' first
    | with_reducible assumption
    | with_reducible apply k_THM_STAT_cal_queued
    | with_reducible apply k_THM_STAT_seq_busy
    | with_reducible apply k_THM_STAT_tag
    | with_reducible apply Fits.setF
    | with_reducible apply Fits.setB
    | with_reducible apply Fits.evt
    | with_reducible apply Fits.seqPending
    | with_reducible apply Fits.calStart
    | with_reducible apply FitsOut.ite
    | with_reducible apply FitsOut.next
    | with_reducible apply FitsOut.fault
    | (intro _)
    | with_reducible apply Fits.ite
    | dsimp only
    | split
    | (refine Fits.pair ‹_ = (_, _)› ?_)
    | (refine Fits.pair2 ‹_ = (_, _, _)› ?_)

structure Touches.thmPush (N : Part → Prop) : Prop where
  h_thm : N .thm
  k_THM_Q_CTRL_ovf : N (.reg F.THM_Q_CTRL_ovf.key)
  k_THM_Q_CTRL_queued : N (.reg F.THM_Q_CTRL_queued.key)
  c_evt : Touches.evt N 0xE4

theorem Fits.thmPush (tag : Nat) (flags : Nat) (raw : Nat) (s : State) (h : Fits N s0 s) (tch : Touches.thmPush N) :
    Fits N s0 (thmPush tag flags raw s) := by
  obtain ⟨h_thm, k_THM_Q_CTRL_ovf, k_THM_Q_CTRL_queued, c_evt⟩ := tch
  unfold Sys2Proof.Machine.thmPush
  repeat' first
    | with_reducible assumption
    | with_reducible apply k_THM_Q_CTRL_ovf
    | with_reducible apply k_THM_Q_CTRL_queued
    | with_reducible apply Fits.setF
    | with_reducible apply Fits.bump
    | with_reducible apply Fits.evt
    | with_reducible apply Fits.modThm
    | (intro _)
    | with_reducible apply Fits.ite
    | dsimp only
    | split
    | (refine Fits.pair ‹_ = (_, _)› ?_)
    | (refine Fits.pair2 ‹_ = (_, _, _)› ?_)

structure Touches.thmPop (N : Part → Prop) : Prop where
  h_thm : N .thm
  k_THM_Q_0_flags : N (.reg F.THM_Q_0_flags.key)
  k_THM_Q_0_seq : N (.reg F.THM_Q_0_seq.key)
  k_THM_Q_0_tag : N (.reg F.THM_Q_0_tag.key)
  k_THM_Q_1_raw : N (.reg F.THM_Q_1_raw.key)
  k_THM_Q_CTRL_queued : N (.reg F.THM_Q_CTRL_queued.key)

theorem Fits.thmPop (s : State) (h : Fits N s0 s) (tch : Touches.thmPop N) :
    Fits N s0 (thmPop s) := by
  obtain ⟨h_thm, k_THM_Q_0_flags, k_THM_Q_0_seq, k_THM_Q_0_tag, k_THM_Q_1_raw, k_THM_Q_CTRL_queued⟩ := tch
  unfold Sys2Proof.Machine.thmPop
  repeat' first
    | with_reducible assumption
    | with_reducible apply k_THM_Q_0_flags
    | with_reducible apply k_THM_Q_0_seq
    | with_reducible apply k_THM_Q_0_tag
    | with_reducible apply k_THM_Q_1_raw
    | with_reducible apply k_THM_Q_CTRL_queued
    | with_reducible apply Fits.setF
    | with_reducible apply Fits.modThm
    | (intro _)
    | with_reducible apply Fits.ite
    | dsimp only
    | split
    | (refine Fits.pair ‹_ = (_, _)› ?_)
    | (refine Fits.pair2 ‹_ = (_, _, _)› ?_)

structure Touches.execThmQPop (N : Part → Prop) : Prop where
  c_goWrite : Touches.goWrite N 0xE6040
  c_thmPop : Touches.thmPop N

theorem FitsOut.execThmQPop (m : Master) (s : State) (h : Fits N s0 s) (tch : Touches.execThmQPop N) :
    FitsOut N s0 (execThmQPop m s) := by
  obtain ⟨c_goWrite, c_thmPop⟩ := tch
  unfold Sys2Proof.Machine.execThmQPop
  repeat' first
    | with_reducible assumption
    | with_reducible apply Fits.thmPop
    | with_reducible apply Fits.goWrite
    | with_reducible apply FitsOut.ite
    | with_reducible apply FitsOut.next
    | with_reducible apply FitsOut.fault
    | (intro _)
    | with_reducible apply Fits.ite
    | dsimp only
    | split
    | (refine Fits.pair ‹_ = (_, _)› ?_)
    | (refine Fits.pair2 ‹_ = (_, _, _)› ?_)

theorem Fits.thmCorrect (raw : Int) (s : State) (h : Fits N s0 s) (h_drawn : N .drawn) :
    Fits N s0 (thmCorrect raw s).2 := by
  unfold Sys2Proof.Machine.thmCorrect
  repeat' first
    | with_reducible assumption
    | with_reducible apply Fits.draw
    | (intro _)
    | with_reducible apply Fits.ite
    | dsimp only
    | split
    | (refine Fits.pair ‹_ = (_, _)› ?_)
    | (refine Fits.pair2 ‹_ = (_, _, _)› ?_)

structure Touches.thmResult (N : Part → Prop) (tag : Nat) : Prop where
  h_drawn : N .drawn
  h_thm : N .thm
  h_time : N .time
  k_THM_CH_FILT_value : N (.reg (F.THM_CH_FILT_value tag).key)
  k_THM_CH_LAST_flags : N (.reg (F.THM_CH_LAST_flags tag).key)
  k_THM_CH_LAST_value : N (.reg (F.THM_CH_LAST_value tag).key)
  c_evt : Touches.evt N 0xE4
  c_thmConvert : Touches.thmConvert N
  c_thmPush : Touches.thmPush N

theorem Fits.thmResult (tag : Nat) (w : List (BitVec 24)) (outside : Option Bool) (s : State) (h : Fits N s0 s) (tch : Touches.thmResult N tag) :
    Fits N s0 (thmResult tag w outside s).2 := by
  obtain ⟨h_drawn, h_thm, h_time, k_THM_CH_FILT_value, k_THM_CH_LAST_flags, k_THM_CH_LAST_value, c_evt, c_thmConvert, c_thmPush⟩ := tch
  unfold Sys2Proof.Machine.thmResult
  repeat' first
    | with_reducible assumption
    | with_reducible apply k_THM_CH_FILT_value
    | with_reducible apply k_THM_CH_LAST_flags
    | with_reducible apply k_THM_CH_LAST_value
    | with_reducible apply Fits.setF
    | with_reducible apply Fits.reach
    | with_reducible apply Fits.evt
    | with_reducible apply Fits.modThm
    | with_reducible apply Fits.thmConvert
    | with_reducible apply Fits.thmPush
    | with_reducible apply Fits.thmCorrect
    | (intro _)
    | with_reducible apply Fits.ite
    | dsimp only
    | split
    | (refine Fits.pair ‹_ = (_, _)› ?_)
    | (refine Fits.pair2 ‹_ = (_, _, _)› ?_)

structure Touches.firedReport (N : Part → Prop) : Prop where
  k_HMP_STAT_fired : N (.reg F.HMP_STAT_fired.key)

theorem Fits.firedReport (s : State) (h : Fits N s0 s) (tch : Touches.firedReport N) :
    Fits N s0 (firedReport s) := by
  obtain ⟨k_HMP_STAT_fired⟩ := tch
  unfold Sys2Proof.Machine.firedReport
  repeat' first
    | with_reducible assumption
    | with_reducible apply k_HMP_STAT_fired
    | with_reducible apply Fits.setF
    | (intro _)
    | with_reducible apply Fits.ite
    | dsimp only
    | split
    | (refine Fits.pair ‹_ = (_, _)› ?_)
    | (refine Fits.pair2 ‹_ = (_, _, _)› ?_)

structure Touches.ruleGo (N : Part → Prop) (r : Nat) : Prop where
  k_HMP_RULE_STAT_count : N (.reg (F.HMP_RULE_STAT_count r).key)
  k_HMP_RULE_STAT_state : N (.reg (F.HMP_RULE_STAT_state r).key)
  c_firedReport : Touches.firedReport N

theorem Fits.ruleGo (r : Nat) (st : Nat) (count : Nat) (s : State) (h : Fits N s0 s) (tch : Touches.ruleGo N r) :
    Fits N s0 (ruleGo r st count s) := by
  obtain ⟨k_HMP_RULE_STAT_count, k_HMP_RULE_STAT_state, c_firedReport⟩ := tch
  unfold Sys2Proof.Machine.ruleGo
  repeat' first
    | with_reducible assumption
    | with_reducible apply k_HMP_RULE_STAT_count
    | with_reducible apply k_HMP_RULE_STAT_state
    | with_reducible apply Fits.setF
    | with_reducible apply Fits.firedReport
    | (intro _)
    | with_reducible apply Fits.ite
    | dsimp only
    | split
    | (refine Fits.pair ‹_ = (_, _)› ?_)
    | (refine Fits.pair2 ‹_ = (_, _, _)› ?_)

structure Touches.hmpApply (N : Part → Prop) : Prop where
  c_ruleGo : ∀ (a0 : Nat), Touches.ruleGo N a0

theorem Fits.hmpApply (old : Tbl Nat) (s : State) (h : Fits N s0 s) (tch : Touches.hmpApply N) :
    Fits N s0 (hmpApply old s) := by
  obtain ⟨c_ruleGo⟩ := tch
  unfold Sys2Proof.Machine.hmpApply
  repeat' first
    | with_reducible assumption
    | with_reducible exact c_ruleGo _
    | with_reducible apply Fits.ruleGo
    | with_reducible apply Fits.forEach
    | (intro _)
    | with_reducible apply Fits.ite
    | dsimp only
    | split
    | (refine Fits.pair ‹_ = (_, _)› ?_)
    | (refine Fits.pair2 ‹_ = (_, _, _)› ?_)

structure Touches.rulesMode (N : Part → Prop) : Prop where
  c_ruleGo : ∀ (a0 : Nat), Touches.ruleGo N a0

theorem Fits.rulesMode (s : State) (h : Fits N s0 s) (tch : Touches.rulesMode N) :
    Fits N s0 (rulesMode s) := by
  obtain ⟨c_ruleGo⟩ := tch
  unfold Sys2Proof.Machine.rulesMode
  repeat' first
    | with_reducible assumption
    | with_reducible exact c_ruleGo _
    | with_reducible apply Fits.ruleGo
    | with_reducible apply Fits.forEach
    | (intro _)
    | with_reducible apply Fits.ite
    | dsimp only
    | split
    | (refine Fits.pair ‹_ = (_, _)› ?_)
    | (refine Fits.pair2 ‹_ = (_, _, _)› ?_)

end Sys2Proof.Machine
end

