-- ==== Sys2Proof/Laws/FitsCommit.lean ====
section
/-! SUPPORT. What the operations of Machine/Commit.lean touch (a structure of parts for each, over those of the operations it calls), and
that each keeps the canonical form. -/
set_option linter.unusedTactic false
set_option linter.unreachableTactic false
namespace Sys2Proof.Machine

variable {N : Part → Prop} {s0 : State}

structure Touches.engineReport (N : Part → Prop) (le : Nat) : Prop where
  h_rep : N .rep
  c_txReport : Touches.txReport N le
  c_envLevel : Touches.envLevel N le
  c_fecReport : Touches.fecReport N le
  c_reflCommit : Touches.reflCommit N le
  c_rxReport : Touches.rxReport N le
  c_rankReport : Touches.rankReport N le
  c_cipherLoad : Touches.cipherLoad N
  c_leafCommit : Touches.leafCommit N le
  c_joinBundle : Touches.joinBundle N le
  c_defReport : Touches.defReport N le
  c_convReport : ∀ (a1 : Nat), Touches.convReport N le a1

theorem Fits.engineReport (le : Nat) (old : Tbl Nat) (s : State) (h : Fits N s0 s) (tch : Touches.engineReport N le) :
    Fits N s0 (engineReport le old s) := by
  obtain ⟨h_rep, c_txReport, c_envLevel, c_fecReport, c_reflCommit, c_rxReport, c_rankReport, c_cipherLoad, c_leafCommit, c_joinBundle, c_defReport, c_convReport⟩ := tch
  unfold Sys2Proof.Machine.engineReport
  repeat' first
    | with_reducible assumption
    | with_reducible exact c_convReport _
    | with_reducible apply Fits.txReport
    | with_reducible apply Fits.envLevel
    | with_reducible apply Fits.fecReport
    | with_reducible apply Fits.reflCommit
    | with_reducible apply Fits.rxReport
    | with_reducible apply Fits.rankReport
    | with_reducible apply Fits.cipherLoad
    | with_reducible apply Fits.leafCommit
    | with_reducible apply Fits.joinBundle
    | with_reducible apply Fits.defReport
    | with_reducible apply Fits.convReport
    | with_reducible apply Fits.repairKeep
    | with_reducible apply Fits.forEach
    | (intro _)
    | with_reducible apply Fits.ite
    | dsimp only
    | split
    | (refine Fits.pair ‹_ = (_, _)› ?_)
    | (refine Fits.pair2 ‹_ = (_, _, _)› ?_)

structure Touches.rxChange (N : Part → Prop) (le : Nat) : Prop where
  c_rxMove : Touches.rxMove N le
  c_losEval : Touches.losEval N le

theorem Fits.rxChange (le : Nat) (old : Tbl Nat) (s : State) (h : Fits N s0 s) (tch : Touches.rxChange N le) :
    Fits N s0 (rxChange le old s) := by
  obtain ⟨c_rxMove, c_losEval⟩ := tch
  unfold Sys2Proof.Machine.rxChange
  repeat' first
    | with_reducible assumption
    | with_reducible apply Fits.rxMove
    | with_reducible apply Fits.losEval
    | (intro _)
    | with_reducible apply Fits.ite
    | dsimp only
    | split
    | (refine Fits.pair ‹_ = (_, _)› ?_)
    | (refine Fits.pair2 ‹_ = (_, _, _)› ?_)

structure Touches.convJudge (N : Part → Prop) (le : Nat) : Prop where
  c_engineFail : Touches.engineFail N le

theorem Fits.convJudge (le : Nat) (s : State) (h : Fits N s0 s) (tch : Touches.convJudge N le) :
    Fits N s0 (convJudge le s) := by
  obtain ⟨c_engineFail⟩ := tch
  unfold Sys2Proof.Machine.convJudge
  repeat' first
    | with_reducible assumption
    | with_reducible apply Fits.engineFail
    | (intro _)
    | with_reducible apply Fits.ite
    | dsimp only
    | split
    | (refine Fits.pair ‹_ = (_, _)› ?_)
    | (refine Fits.pair2 ‹_ = (_, _, _)› ?_)

structure Touches.engineApply (N : Part → Prop) (le : Nat) : Prop where
  h_inForce : N .inForce
  c_engineOff : Touches.engineOff N le
  c_engineStart : Touches.engineStart N 0
  c_engineStart_1 : Touches.engineStart N 1
  c_engineStart_2 : Touches.engineStart N le
  c_reloadStart : Touches.reloadStart N le
  c_engineReport : Touches.engineReport N 0
  c_engineReport_1 : Touches.engineReport N 1
  c_engineReport_2 : Touches.engineReport N le
  c_rxChange : Touches.rxChange N le
  c_convJudge : Touches.convJudge N le

theorem Fits.engineApply (le : Nat) (old : Tbl Nat) (s : State) (h : Fits N s0 s) (tch : Touches.engineApply N le) :
    Fits N s0 (engineApply le old s) := by
  obtain ⟨h_inForce, c_engineOff, c_engineStart, c_engineStart_1, c_engineStart_2, c_reloadStart, c_engineReport, c_engineReport_1, c_engineReport_2, c_rxChange, c_convJudge⟩ := tch
  unfold Sys2Proof.Machine.engineApply
  repeat' first
    | with_reducible assumption
    | with_reducible apply Fits.engineOff
    | with_reducible apply Fits.engineStart
    | with_reducible apply Fits.reloadStart
    | with_reducible apply Fits.engineReport
    | with_reducible apply Fits.rxChange
    | with_reducible apply Fits.convJudge
    | (intro _)
    | with_reducible apply Fits.ite
    | dsimp only
    | split
    | (refine Fits.pair ‹_ = (_, _)› ?_)
    | (refine Fits.pair2 ‹_ = (_, _, _)› ?_)
    | (with_reducible refine Fits.upd_inForce ?_ ‹_› _ fun t => by unfold regenTable; exact Tbl.rising_overlay t _)

structure Touches.domApply (N : Part → Prop) (d : Nat) : Prop where
  h_thm : N .thm
  h_time : N .time
  k_LE_P2MP_APPLY_PN_period : ∀ (a0 : Nat), N (.reg (F.LE_P2MP_APPLY_PN_period a0).key)
  c_evt : ∀ (a0 : Nat), Touches.evt N a0
  c_cipApply : Touches.cipApply N
  c_ctrlBoundary : Touches.ctrlBoundary N
  c_mapBuild : ∀ (a0 : Nat), Touches.mapBuild N a0
  c_groupApply : Touches.groupApply N (d - 0x90)
  c_portsApply : ∀ (a0 : Tbl Nat), Touches.portsApply N a0
  c_clsApply : Touches.clsApply N
  c_mapApply : Touches.mapApply N
  c_commitCancel : Touches.commitCancel N d
  c_synApply : Touches.synApply N
  c_monApply : Touches.monApply N 0
  c_monApply_1 : Touches.monApply N 1
  c_commitTake : Touches.commitTake N d
  c_hmpApply : Touches.hmpApply N
  c_engineApply : ∀ (a0 : Nat), Touches.engineApply N a0

theorem Fits.domApply (d : Nat) (s : State) (h : Fits N s0 s) (tch : Touches.domApply N d) :
    Fits N s0 (domApply d s) := by
  obtain ⟨h_thm, h_time, k_LE_P2MP_APPLY_PN_period, c_evt, c_cipApply, c_ctrlBoundary, c_mapBuild, c_groupApply, c_portsApply, c_clsApply, c_mapApply, c_commitCancel, c_synApply, c_monApply, c_monApply_1, c_commitTake, c_hmpApply, c_engineApply⟩ := tch
  unfold Sys2Proof.Machine.domApply
  repeat' first
    | with_reducible assumption
    | with_reducible apply k_LE_P2MP_APPLY_PN_period
    | with_reducible exact c_evt _
    | with_reducible exact c_mapBuild _
    | with_reducible exact c_portsApply _
    | with_reducible exact c_engineApply _
    | with_reducible apply Fits.setF
    | with_reducible apply Fits.reach
    | with_reducible apply Fits.evt
    | with_reducible apply Fits.cipApply
    | with_reducible apply Fits.ctrlBoundary
    | with_reducible apply Fits.mapBuild
    | with_reducible apply Fits.groupApply
    | with_reducible apply Fits.portsApply
    | with_reducible apply Fits.clsApply
    | with_reducible apply Fits.mapApply
    | with_reducible apply Fits.commitCancel
    | with_reducible apply Fits.synApply
    | with_reducible apply Fits.monApply
    | with_reducible apply Fits.commitTake
    | with_reducible apply Fits.thmApply
    | with_reducible apply Fits.hmpApply
    | with_reducible apply Fits.engineApply
    | (intro _)
    | with_reducible apply Fits.ite
    | dsimp only
    | split
    | (refine Fits.pair ‹_ = (_, _)› ?_)
    | (refine Fits.pair2 ‹_ = (_, _, _)› ?_)

structure Touches.commitReject (N : Part → Prop) (p : Nat) : Prop where
  k_PAGE_STAT_commit_err : N (.reg (F.PAGE_STAT_commit_err (domainOf p)).key)
  k_PAGE_STAT_commit_reason : N (.reg (F.PAGE_STAT_commit_reason (domainOf p)).key)
  c_evt : Touches.evt N p

theorem Fits.commitReject (p : Nat) (reason : Nat) (s : State) (h : Fits N s0 s) (tch : Touches.commitReject N p) :
    Fits N s0 (commitReject p reason s) := by
  obtain ⟨k_PAGE_STAT_commit_err, k_PAGE_STAT_commit_reason, c_evt⟩ := tch
  unfold Sys2Proof.Machine.commitReject
  repeat' first
    | with_reducible assumption
    | with_reducible apply k_PAGE_STAT_commit_err
    | with_reducible apply k_PAGE_STAT_commit_reason
    | with_reducible apply Fits.setF
    | with_reducible apply Fits.setB
    | with_reducible apply Fits.evt
    | (intro _)
    | with_reducible apply Fits.ite
    | dsimp only
    | split
    | (refine Fits.pair ‹_ = (_, _)› ?_)
    | (refine Fits.pair2 ‹_ = (_, _, _)› ?_)

structure Touches.commitCopy (N : Part → Prop) : Prop where
  h_buffer : N .buffer
  h_fab : N .fab

theorem Fits.commitCopy (p : Nat) (s : State) (h : Fits N s0 s) (tch : Touches.commitCopy N) :
    Fits N s0 (commitCopy p s) := by
  obtain ⟨h_buffer, h_fab⟩ := tch
  unfold Sys2Proof.Machine.commitCopy
  repeat' first
    | with_reducible assumption
    | (intro _)
    | with_reducible apply Fits.ite
    | dsimp only
    | split
    | (refine Fits.pair ‹_ = (_, _)› ?_)
    | (refine Fits.pair2 ‹_ = (_, _, _)› ?_)
    | (with_reducible refine Fits.upd_buffer_fab ?_ ‹_› ‹_› _ _ fun t => Tbl.rising_overlay t _)

structure Touches.acqReset (N : Part → Prop) : Prop where
  k_LE_RX_STATE_acquisitions : ∀ (a0 : Nat), N (.reg (F.LE_RX_STATE_acquisitions a0).key)

theorem Fits.acqReset (d : Nat) (s : State) (h : Fits N s0 s) (tch : Touches.acqReset N) :
    Fits N s0 (acqReset d s) := by
  obtain ⟨k_LE_RX_STATE_acquisitions⟩ := tch
  unfold Sys2Proof.Machine.acqReset
  repeat' first
    | with_reducible assumption
    | with_reducible apply k_LE_RX_STATE_acquisitions
    | with_reducible apply Fits.setF
    | (intro _)
    | with_reducible apply Fits.ite
    | dsimp only
    | split
    | (refine Fits.pair ‹_ = (_, _)› ?_)
    | (refine Fits.pair2 ‹_ = (_, _, _)› ?_)

structure Touches.commitAccept (N : Part → Prop) (d : Nat) : Prop where
  k_LE_TX_PLAN_STAT_timed_pending : ∀ (a0 : Nat), N (.reg (F.LE_TX_PLAN_STAT_timed_pending a0).key)
  k_PAGE_STAT_commit_armed : N (.reg (F.PAGE_STAT_commit_armed d).key)
  k_PAGE_STAT_commit_pending : N (.reg (F.PAGE_STAT_commit_pending d).key)
  c_domApply : Touches.domApply N d
  c_acqReset : Touches.acqReset N

theorem Fits.commitAccept (d : Nat) (s : State) (h : Fits N s0 s) (tch : Touches.commitAccept N d) :
    Fits N s0 (commitAccept d s) := by
  obtain ⟨k_LE_TX_PLAN_STAT_timed_pending, k_PAGE_STAT_commit_armed, k_PAGE_STAT_commit_pending, c_domApply, c_acqReset⟩ := tch
  unfold Sys2Proof.Machine.commitAccept
  repeat' first
    | with_reducible assumption
    | with_reducible apply k_LE_TX_PLAN_STAT_timed_pending
    | with_reducible apply k_PAGE_STAT_commit_armed
    | with_reducible apply k_PAGE_STAT_commit_pending
    | with_reducible apply Fits.setB
    | with_reducible apply Fits.domApply
    | with_reducible apply Fits.acqReset
    | (intro _)
    | with_reducible apply Fits.ite
    | dsimp only
    | split
    | (refine Fits.pair ‹_ = (_, _)› ?_)
    | (refine Fits.pair2 ‹_ = (_, _, _)› ?_)

structure Touches.commitGo (N : Part → Prop) (p : Nat) : Prop where
  c_commitReject : Touches.commitReject N p
  c_commitCopy : Touches.commitCopy N
  c_commitAccept : Touches.commitAccept N (domainOf p)

theorem Fits.commitGo (m : Nat) (p : Nat) (s : State) (h : Fits N s0 s) (tch : Touches.commitGo N p) :
    Fits N s0 (commitGo m p s) := by
  obtain ⟨c_commitReject, c_commitCopy, c_commitAccept⟩ := tch
  unfold Sys2Proof.Machine.commitGo
  repeat' first
    | with_reducible assumption
    | with_reducible apply Fits.commitReject
    | with_reducible apply Fits.commitCopy
    | with_reducible apply Fits.commitAccept
    | (intro _)
    | with_reducible apply Fits.ite
    | dsimp only
    | split
    | (refine Fits.pair ‹_ = (_, _)› ?_)
    | (refine Fits.pair2 ‹_ = (_, _, _)› ?_)

structure Touches.commitCheck (N : Part → Prop) (p : Nat) : Prop where
  k_PAGE_STAT_commit_err : N (.reg (F.PAGE_STAT_commit_err (domainOf p)).key)
  c_evt : Touches.evt N p
  c_commitReject : Touches.commitReject N p
  c_commitCopy : Touches.commitCopy N

theorem Fits.commitCheck (m : Nat) (p : Nat) (s : State) (h : Fits N s0 s) (tch : Touches.commitCheck N p) :
    Fits N s0 (commitCheck m p s) := by
  obtain ⟨k_PAGE_STAT_commit_err, c_evt, c_commitReject, c_commitCopy⟩ := tch
  unfold Sys2Proof.Machine.commitCheck
  repeat' first
    | with_reducible assumption
    | with_reducible apply k_PAGE_STAT_commit_err
    | with_reducible apply Fits.setB
    | with_reducible apply Fits.evt
    | with_reducible apply Fits.commitReject
    | with_reducible apply Fits.commitCopy
    | (intro _)
    | with_reducible apply Fits.ite
    | dsimp only
    | split
    | (refine Fits.pair ‹_ = (_, _)› ?_)
    | (refine Fits.pair2 ‹_ = (_, _, _)› ?_)

structure Touches.commitDiscard (N : Part → Prop) (p : Nat) : Prop where
  h_staged : N .staged
  c_commitCancel : Touches.commitCancel N (domainOf p)

theorem Fits.commitDiscard (p : Nat) (s : State) (h : Fits N s0 s) (tch : Touches.commitDiscard N p) :
    Fits N s0 (commitDiscard p s) := by
  obtain ⟨h_staged, c_commitCancel⟩ := tch
  unfold Sys2Proof.Machine.commitDiscard
  repeat' first
    | with_reducible assumption
    | with_reducible apply Fits.commitCancel
    | (intro _)
    | with_reducible apply Fits.ite
    | dsimp only
    | split
    | (refine Fits.pair ‹_ = (_, _)› ?_)
    | (refine Fits.pair2 ‹_ = (_, _, _)› ?_)
    | (with_reducible refine Fits.upd_staged ?_ ‹_› _ fun t => Tbl.rising_overlay t _)

structure Touches.commitWrite (N : Part → Prop) (p : Nat) : Prop where
  c_refuse : Touches.refuse N (p * 0x1000 + 0x20)
  c_goWrite : Touches.goWrite N (p * 0x1000 + 0x20)
  c_commitReject : Touches.commitReject N p
  c_commitGo : Touches.commitGo N p
  c_commitCheck : Touches.commitCheck N p
  c_commitDiscard : Touches.commitDiscard N p

theorem Fits.commitWrite (m : Master) (p : Nat) (value : Nat) (s : State) (h : Fits N s0 s) (tch : Touches.commitWrite N p) :
    Fits N s0 (commitWrite m p value s) := by
  obtain ⟨c_refuse, c_goWrite, c_commitReject, c_commitGo, c_commitCheck, c_commitDiscard⟩ := tch
  unfold Sys2Proof.Machine.commitWrite
  repeat' first
    | with_reducible assumption
    | with_reducible apply Fits.refuse
    | with_reducible apply Fits.commitReject
    | with_reducible apply Fits.commitGo
    | with_reducible apply Fits.commitCheck
    | with_reducible apply Fits.commitDiscard
    | with_reducible apply Fits.goWrite
    | (intro _)
    | with_reducible apply Fits.ite
    | dsimp only
    | split
    | (refine Fits.pair ‹_ = (_, _)› ?_)
    | (refine Fits.pair2 ‹_ = (_, _, _)› ?_)

structure Touches.execCommitGo (N : Part → Prop) (p : Fin 256) : Prop where
  c_commitWrite : Touches.commitWrite N p.val

theorem FitsOut.execCommitGo (m : Master) (p : Fin 256) (s : State) (h : Fits N s0 s) (tch : Touches.execCommitGo N p) :
    FitsOut N s0 (execCommitGo m p s) := by
  obtain ⟨c_commitWrite⟩ := tch
  unfold Sys2Proof.Machine.execCommitGo
  repeat' first
    | with_reducible assumption
    | with_reducible apply Fits.commitWrite
    | with_reducible apply FitsOut.ite
    | with_reducible apply FitsOut.next
    | with_reducible apply FitsOut.fault
    | (intro _)
    | with_reducible apply Fits.ite
    | dsimp only
    | split
    | (refine Fits.pair ‹_ = (_, _)› ?_)
    | (refine Fits.pair2 ‹_ = (_, _, _)› ?_)

structure Touches.execCommitCheck (N : Part → Prop) (p : Fin 256) : Prop where
  c_refuse : Touches.refuse N (p.val * 0x1000 + 0x20)
  c_goWrite : Touches.goWrite N (p.val * 0x1000 + 0x20)
  c_commitReject : Touches.commitReject N p.val
  c_commitCheck : Touches.commitCheck N p.val

theorem FitsOut.execCommitCheck (m : Master) (p : Fin 256) (s : State) (h : Fits N s0 s) (tch : Touches.execCommitCheck N p) :
    FitsOut N s0 (execCommitCheck m p s) := by
  obtain ⟨c_refuse, c_goWrite, c_commitReject, c_commitCheck⟩ := tch
  unfold Sys2Proof.Machine.execCommitCheck Sys2Proof.Machine.commitWrite
  repeat' first
    | with_reducible assumption
    | exact absurd ‹_ % 8 = _› (by decide)
    | with_reducible apply Fits.refuse
    | with_reducible apply Fits.commitReject
    | with_reducible apply Fits.commitCheck
    | with_reducible apply Fits.goWrite
    | with_reducible apply FitsOut.ite
    | with_reducible apply FitsOut.next
    | with_reducible apply FitsOut.fault
    | (intro _)
    | with_reducible apply Fits.ite
    | dsimp only
    | split
    | (refine Fits.pair ‹_ = (_, _)› ?_)
    | (refine Fits.pair2 ‹_ = (_, _, _)› ?_)

structure Touches.execCommitDiscard (N : Part → Prop) (p : Fin 256) : Prop where
  c_refuse : Touches.refuse N (p.val * 0x1000 + 0x20)
  c_goWrite : Touches.goWrite N (p.val * 0x1000 + 0x20)
  c_commitReject : Touches.commitReject N p.val
  c_commitDiscard : Touches.commitDiscard N p.val

theorem FitsOut.execCommitDiscard (m : Master) (p : Fin 256) (s : State) (h : Fits N s0 s) (tch : Touches.execCommitDiscard N p) :
    FitsOut N s0 (execCommitDiscard m p s) := by
  obtain ⟨c_refuse, c_goWrite, c_commitReject, c_commitDiscard⟩ := tch
  unfold Sys2Proof.Machine.execCommitDiscard Sys2Proof.Machine.commitWrite
  repeat' first
    | with_reducible assumption
    | exact absurd ‹_ % 8 = _› (by decide)
    | with_reducible apply Fits.refuse
    | with_reducible apply Fits.commitReject
    | with_reducible apply Fits.commitDiscard
    | with_reducible apply Fits.goWrite
    | with_reducible apply FitsOut.ite
    | with_reducible apply FitsOut.next
    | with_reducible apply FitsOut.fault
    | (intro _)
    | with_reducible apply Fits.ite
    | dsimp only
    | split
    | (refine Fits.pair ‹_ = (_, _)› ?_)
    | (refine Fits.pair2 ‹_ = (_, _, _)› ?_)

structure Touches.commitBoundary (N : Part → Prop) (d : Nat) : Prop where
  c_domApply : Touches.domApply N d

theorem Fits.commitBoundary (d : Nat) (s : State) (h : Fits N s0 s) (tch : Touches.commitBoundary N d) :
    Fits N s0 (commitBoundary d s) := by
  obtain ⟨c_domApply⟩ := tch
  unfold Sys2Proof.Machine.commitBoundary
  repeat' first
    | with_reducible assumption
    | with_reducible apply Fits.domApply
    | (intro _)
    | with_reducible apply Fits.ite
    | dsimp only
    | split
    | (refine Fits.pair ‹_ = (_, _)› ?_)
    | (refine Fits.pair2 ‹_ = (_, _, _)› ?_)

structure Touches.timedApply (N : Part → Prop) (le : Nat) : Prop where
  k_LE_TX_PLAN_STAT_timed_pending : N (.reg (F.LE_TX_PLAN_STAT_timed_pending le).key)
  h_tx : N (.tx ((le : Nat) != 0))
  c_evt : Touches.evt N (lep le 0x14)
  c_domApply : Touches.domApply N (lep le 0x10)

theorem Fits.timedApply (le : Nat) (s : State) (h : Fits N s0 s) (tch : Touches.timedApply N le) :
    Fits N s0 (timedApply le s) := by
  obtain ⟨k_LE_TX_PLAN_STAT_timed_pending, h_tx, c_evt, c_domApply⟩ := tch
  unfold Sys2Proof.Machine.timedApply
  repeat' first
    | with_reducible assumption
    | with_reducible apply k_LE_TX_PLAN_STAT_timed_pending
    | with_reducible apply Fits.setB
    | with_reducible apply Fits.evt
    | with_reducible apply Fits.modTx
    | with_reducible apply Fits.domApply
    | (intro _)
    | with_reducible apply Fits.ite
    | dsimp only
    | split
    | (refine Fits.pair ‹_ = (_, _)› ?_)
    | (refine Fits.pair2 ‹_ = (_, _, _)› ?_)

structure Touches.syncFire (N : Part → Prop) : Prop where
  k_DEV_COMMIT_SYNC_sync_seq : N (.reg F.DEV_COMMIT_SYNC_sync_seq.key)
  k_PAGE_STAT_commit_armed : ∀ (a0 : Nat), N (.reg (F.PAGE_STAT_commit_armed a0).key)
  c_domApply : ∀ (a0 : Nat), Touches.domApply N a0

theorem Fits.syncFire (s : State) (h : Fits N s0 s) (tch : Touches.syncFire N) :
    Fits N s0 (syncFire s) := by
  obtain ⟨k_DEV_COMMIT_SYNC_sync_seq, k_PAGE_STAT_commit_armed, c_domApply⟩ := tch
  unfold Sys2Proof.Machine.syncFire
  repeat' first
    | with_reducible assumption
    | with_reducible apply k_DEV_COMMIT_SYNC_sync_seq
    | with_reducible apply k_PAGE_STAT_commit_armed
    | with_reducible exact c_domApply _
    | with_reducible apply Fits.setB
    | with_reducible apply Fits.incWrap
    | with_reducible apply Fits.domApply
    | with_reducible apply Fits.forEach
    | (intro _)
    | with_reducible apply Fits.ite
    | dsimp only
    | split
    | (refine Fits.pair ‹_ = (_, _)› ?_)
    | (refine Fits.pair2 ‹_ = (_, _, _)› ?_)

structure Touches.commitsTogether (N : Part → Prop) (p : Nat) : Prop where
  c_commitReject : Touches.commitReject N p
  c_commitWrite : Touches.commitWrite N p

theorem Fits.commitsTogether (p : Nat) (l : List (Master × Nat)) (s : State) (h : Fits N s0 s) (tch : Touches.commitsTogether N p) :
    Fits N s0 (commitsTogether p l s) := by
  obtain ⟨c_commitReject, c_commitWrite⟩ := tch
  unfold Sys2Proof.Machine.commitsTogether
  repeat' first
    | with_reducible assumption
    | with_reducible apply Fits.commitReject
    | with_reducible apply Fits.commitWrite
    | with_reducible apply Fits.forEach
    | (intro _)
    | with_reducible apply Fits.ite
    | dsimp only
    | split
    | (refine Fits.pair ‹_ = (_, _)› ?_)
    | (refine Fits.pair2 ‹_ = (_, _, _)› ?_)

structure Touches.execDevCommitSync (N : Part → Prop) : Prop where
  c_goWrite : Touches.goWrite N 0x60
  c_syncFire : Touches.syncFire N

theorem FitsOut.execDevCommitSync (m : Master) (s : State) (h : Fits N s0 s) (tch : Touches.execDevCommitSync N) :
    FitsOut N s0 (execDevCommitSync m s) := by
  obtain ⟨c_goWrite, c_syncFire⟩ := tch
  unfold Sys2Proof.Machine.execDevCommitSync
  repeat' first
    | with_reducible assumption
    | with_reducible apply Fits.syncFire
    | with_reducible apply Fits.goWrite
    | with_reducible apply FitsOut.ite
    | with_reducible apply FitsOut.next
    | with_reducible apply FitsOut.fault
    | (intro _)
    | with_reducible apply Fits.ite
    | dsimp only
    | split
    | (refine Fits.pair ‹_ = (_, _)› ?_)
    | (refine Fits.pair2 ‹_ = (_, _, _)› ?_)

structure Touches.softLogic (N : Part → Prop) : Prop where
  h_tx : ∀ b, N (.tx b)
  c_rxGo : ∀ (a0 : Nat), Touches.rxGo N a0
  c_mspCancel : Touches.mspCancel N
  c_monAbort : Touches.monAbort N 0
  c_monAbort_1 : Touches.monAbort N 1

theorem Fits.softLogic (d : Nat) (s : State) (h : Fits N s0 s) (tch : Touches.softLogic N) :
    Fits N s0 (softLogic d s) := by
  obtain ⟨h_tx, c_rxGo, c_mspCancel, c_monAbort, c_monAbort_1⟩ := tch
  unfold Sys2Proof.Machine.softLogic
  repeat' first
    | with_reducible assumption
    | with_reducible exact h_tx _
    | with_reducible exact c_rxGo _
    | with_reducible apply Fits.modTx
    | with_reducible apply Fits.rxGo
    | with_reducible apply Fits.mspCancel
    | with_reducible apply Fits.monAbort
    | (intro _)
    | with_reducible apply Fits.ite
    | dsimp only
    | split
    | (refine Fits.pair ‹_ = (_, _)› ?_)
    | (refine Fits.pair2 ‹_ = (_, _, _)› ?_)

structure Touches.softReset (N : Part → Prop) (p : Nat) : Prop where
  k_LE_TX_PLAN_STAT_timed_pending : N (.reg (F.LE_TX_PLAN_STAT_timed_pending 0).key)
  k_LE_TX_PLAN_STAT_timed_pending_1 : N (.reg (F.LE_TX_PLAN_STAT_timed_pending 1).key)
  c_commitCancel : Touches.commitCancel N (domainOf p)
  c_softLogic : Touches.softLogic N

theorem Fits.softReset (p : Nat) (s : State) (h : Fits N s0 s) (tch : Touches.softReset N p) :
    Fits N s0 (softReset p s) := by
  obtain ⟨k_LE_TX_PLAN_STAT_timed_pending, k_LE_TX_PLAN_STAT_timed_pending_1, c_commitCancel, c_softLogic⟩ := tch
  unfold Sys2Proof.Machine.softReset
  repeat' first
    | with_reducible assumption
    | with_reducible apply k_LE_TX_PLAN_STAT_timed_pending
    | with_reducible apply k_LE_TX_PLAN_STAT_timed_pending_1
    | with_reducible apply Fits.setB
    | with_reducible apply Fits.commitCancel
    | with_reducible apply Fits.softLogic
    | (intro _)
    | with_reducible apply Fits.ite
    | dsimp only
    | split
    | (refine Fits.pair ‹_ = (_, _)› ?_)
    | (refine Fits.pair2 ‹_ = (_, _, _)› ?_)

structure Touches.execSoftReset (N : Part → Prop) (p : Fin 256) : Prop where
  c_goWrite : Touches.goWrite N (p.val * 0x1000 + 8)
  c_softReset : Touches.softReset N p.val

theorem FitsOut.execSoftReset (m : Master) (p : Fin 256) (s : State) (h : Fits N s0 s) (tch : Touches.execSoftReset N p) :
    FitsOut N s0 (execSoftReset m p s) := by
  obtain ⟨c_goWrite, c_softReset⟩ := tch
  unfold Sys2Proof.Machine.execSoftReset
  repeat' first
    | with_reducible assumption
    | with_reducible apply Fits.softReset
    | with_reducible apply Fits.goWrite
    | with_reducible apply FitsOut.ite
    | with_reducible apply FitsOut.next
    | with_reducible apply FitsOut.fault
    | (intro _)
    | with_reducible apply Fits.ite
    | dsimp only
    | split
    | (refine Fits.pair ‹_ = (_, _)› ?_)
    | (refine Fits.pair2 ‹_ = (_, _, _)› ?_)

structure Touches.pageSnap (N : Part → Prop) (p : Nat) : Prop where
  h_fab : N .fab
  k_PAGE_STAT_snap_busy : N (.reg (F.PAGE_STAT_snap_busy p).key)
  c_cntSnapGo : Touches.cntSnapGo N

theorem Fits.pageSnap (p : Nat) (s : State) (h : Fits N s0 s) (tch : Touches.pageSnap N p) :
    Fits N s0 (pageSnap p s) := by
  obtain ⟨h_fab, k_PAGE_STAT_snap_busy, c_cntSnapGo⟩ := tch
  unfold Sys2Proof.Machine.pageSnap
  repeat' first
    | with_reducible assumption
    | with_reducible apply k_PAGE_STAT_snap_busy
    | with_reducible apply Fits.setB
    | with_reducible apply Fits.cntSnapGo
    | with_reducible apply Fits.foldlPair
    | with_reducible apply Fits.foldl
    | (intro _)
    | with_reducible apply Fits.ite
    | dsimp only
    | split
    | (refine Fits.pair ‹_ = (_, _)› ?_)
    | (refine Fits.pair2 ‹_ = (_, _, _)› ?_)
    | with_reducible apply Fits.upd_fab

structure Touches.execPageSnap (N : Part → Prop) (p : Fin 256) : Prop where
  c_goWrite : Touches.goWrite N (p.val * 0x1000 + 0x2C)
  c_pageSnap : Touches.pageSnap N p.val

theorem FitsOut.execPageSnap (m : Master) (p : Fin 256) (s : State) (h : Fits N s0 s) (tch : Touches.execPageSnap N p) :
    FitsOut N s0 (execPageSnap m p s) := by
  obtain ⟨c_goWrite, c_pageSnap⟩ := tch
  unfold Sys2Proof.Machine.execPageSnap
  repeat' first
    | with_reducible assumption
    | with_reducible apply Fits.pageSnap
    | with_reducible apply Fits.goWrite
    | with_reducible apply FitsOut.ite
    | with_reducible apply FitsOut.next
    | with_reducible apply FitsOut.fault
    | (intro _)
    | with_reducible apply Fits.ite
    | dsimp only
    | split
    | (refine Fits.pair ‹_ = (_, _)› ?_)
    | (refine Fits.pair2 ‹_ = (_, _, _)› ?_)

structure Touches.execSnapDone (N : Part → Prop) (p : Fin 256) : Prop where
  h_fab : N .fab
  k_page : ∀ k, pageOf (k / 8) = p.val → N (.reg k)
  k_PAGE_STAT_snap_busy : N (.reg (F.PAGE_STAT_snap_busy p.val).key)
  k_SNAP_seq : N (.reg (F.SNAP_seq p.val).key)
  c_evt : Touches.evt N p.val

theorem FitsOut.execSnapDone (p : Fin 256) (s : State) (h : Fits N s0 s) (tch : Touches.execSnapDone N p) :
    FitsOut N s0 (execSnapDone p s) := by
  obtain ⟨h_fab, k_page, k_PAGE_STAT_snap_busy, k_SNAP_seq, c_evt⟩ := tch
  unfold Sys2Proof.Machine.execSnapDone
  repeat' first
    | with_reducible assumption
    | (with_reducible refine Fits.forEachMem (List.filter _ _) _ ?_ fun e he t ht => Fits.setF t _ _ ht (k_page _ (by simpa using (List.mem_filter.mp he).2)))
    | with_reducible apply k_page
    | with_reducible apply k_PAGE_STAT_snap_busy
    | with_reducible apply k_SNAP_seq
    | with_reducible apply Fits.setF
    | with_reducible apply Fits.setB
    | with_reducible apply Fits.incWrap
    | with_reducible apply Fits.evt
    | with_reducible apply Fits.forEach
    | with_reducible apply FitsOut.ite
    | with_reducible apply FitsOut.next
    | with_reducible apply FitsOut.fault
    | (intro _)
    | with_reducible apply Fits.ite
    | dsimp only
    | split
    | (refine Fits.pair ‹_ = (_, _)› ?_)
    | (refine Fits.pair2 ‹_ = (_, _, _)› ?_)
    | with_reducible apply Fits.upd_fab

end Sys2Proof.Machine
end

