-- ==== Sys2Proof/Laws/FitsModes.lean ====
section
/-! SUPPORT. What the operations of Machine/Modes.lean touch (a structure of parts for each, over those of the operations it calls), and
that each keeps the canonical form. -/
set_option linter.unusedTactic false
set_option linter.unreachableTactic false
namespace Sys2Proof.Machine

variable {N : Part → Prop} {s0 : State}

structure Touches.keptReport (N : Part → Prop) : Prop where
  k_BUF_ROWREP_STAT_device_spares : N (.reg F.BUF_ROWREP_STAT_device_spares.key)
  k_DEV_STATUS_aon_xtal_lock : N (.reg F.DEV_STATUS_aon_xtal_lock.key)
  k_DEV_STATUS_rollback_count : N (.reg F.DEV_STATUS_rollback_count.key)
  k_DEV_STATUS_tamper_latched : N (.reg F.DEV_STATUS_tamper_latched.key)
  k_DEV_STATUS_thm_cal_done : N (.reg F.DEV_STATUS_thm_cal_done.key)
  k_DEV_STATUS_zeroise_record : N (.reg F.DEV_STATUS_zeroise_record.key)
  c_convReport : ∀ (a0 : Nat) (a1 : Nat), Touches.convReport N a0 a1

theorem Fits.keptReport (s : State) (h : Fits N s0 s) (tch : Touches.keptReport N) :
    Fits N s0 (keptReport s) := by
  obtain ⟨k_BUF_ROWREP_STAT_device_spares, k_DEV_STATUS_aon_xtal_lock, k_DEV_STATUS_rollback_count, k_DEV_STATUS_tamper_latched, k_DEV_STATUS_thm_cal_done, k_DEV_STATUS_zeroise_record, c_convReport⟩ := tch
  unfold Sys2Proof.Machine.keptReport
  repeat' first
    | with_reducible assumption
    | with_reducible apply k_BUF_ROWREP_STAT_device_spares
    | with_reducible apply k_DEV_STATUS_aon_xtal_lock
    | with_reducible apply k_DEV_STATUS_rollback_count
    | with_reducible apply k_DEV_STATUS_tamper_latched
    | with_reducible apply k_DEV_STATUS_thm_cal_done
    | with_reducible apply k_DEV_STATUS_zeroise_record
    | with_reducible exact c_convReport _ _
    | with_reducible apply Fits.setF
    | with_reducible apply Fits.setB
    | with_reducible apply Fits.convReport
    | with_reducible apply Fits.forEach
    | with_reducible apply Fits.foldlPair
    | with_reducible apply Fits.foldl
    | (intro _)
    | with_reducible apply Fits.ite
    | dsimp only
    | split
    | (refine Fits.pair ‹_ = (_, _)› ?_)
    | (refine Fits.pair2 ‹_ = (_, _, _)› ?_)

structure Touches.aonLocks (N : Part → Prop) : Prop where
  k_LOCK_owner : ∀ (a0 : Nat), N (.reg (F.LOCK_owner a0).key)

theorem Fits.aonLocks (s : State) (h : Fits N s0 s) (tch : Touches.aonLocks N) :
    Fits N s0 (aonLocks s) := by
  obtain ⟨k_LOCK_owner⟩ := tch
  unfold Sys2Proof.Machine.aonLocks
  repeat' first
    | with_reducible assumption
    | with_reducible apply k_LOCK_owner
    | with_reducible apply Fits.setF
    | with_reducible apply Fits.forEach
    | (intro _)
    | with_reducible apply Fits.ite
    | dsimp only
    | split
    | (refine Fits.pair ‹_ = (_, _)› ?_)
    | (refine Fits.pair2 ‹_ = (_, _, _)› ?_)

structure Touches.resetBlocks (N : Part → Prop) : Prop where
  h_buf : N .buf
  h_bufMem : N .bufMem
  h_buffer : N .buffer
  h_cip : N .cip
  h_cls : N .cls
  h_clsMem : N .clsMem
  h_cnt : N .cnt
  h_dev : N .dev
  h_enc : N .enc
  h_ev : N .ev
  h_evl : N .evl
  h_fab : N .fab
  h_grp : N .grp
  h_inForce : N .inForce
  h_lanes : N .lanes
  h_rep : N .rep
  h_smp : N .smp
  h_spi : N .spi
  h_staged : N .staged
  h_syn : N .syn
  k_any : ∀ k, N (.reg k)
  h_fec : ∀ b, N (.fec b)
  h_glf : ∀ b, N (.glf b)
  h_mon : ∀ b, N (.mon b)
  h_p2mp : ∀ b, N (.p2mp b)
  h_rx : ∀ b, N (.rx b)
  h_tx : ∀ b, N (.tx b)
  h_ubh : ∀ b, N (.ubh b)
  c_keptReport : Touches.keptReport N
  c_aonLocks : Touches.aonLocks N

theorem Fits.resetBlocks (log : Bool) (mem : Bool) (s : State) (h : Fits N s0 s) (tch : Touches.resetBlocks N) :
    Fits N s0 (resetBlocks log mem s) := by
  obtain ⟨h_buf, h_bufMem, h_buffer, h_cip, h_cls, h_clsMem, h_cnt, h_dev, h_enc, h_ev, h_evl, h_fab, h_grp, h_inForce, h_lanes, h_rep, h_smp, h_spi, h_staged, h_syn, k_any, h_fec, h_glf, h_mon, h_p2mp, h_rx, h_tx, h_ubh, c_keptReport, c_aonLocks⟩ := tch
  unfold Sys2Proof.Machine.resetBlocks
  have hk : Fits N s0 { State.reset with
      pending := s.pending, time := s.time, drawn := s.drawn,
      fields := Tbl.overlay (fun k => aonKey k || nvKey k || tileKey k || (log && evlKey k)) s.fields State.reset.fields,
      staged := Tbl.overlay aonKey s.staged State.reset.staged,
      buffer := Tbl.overlay aonKey s.buffer State.reset.buffer,
      inForce := Tbl.overlay aonKey s.inForce State.reset.inForce,
      fab := { State.reset.fab with commitPage := Tbl.keep (fun d => d == 0xE0 || d == 0xE4) s.fab.commitPage },
      dev := { vaon := s.dev.vaon, held := s.dev.held, woken := s.dev.woken, flash := s.dev.flash, flashDead := s.dev.flashDead, tripped := s.dev.tripped,
               bootPending := false },
      le0 := engineKept true s.le0, le1 := engineKept true s.le1,
      buf := { State.reset.buf with rowUsed := s.buf.rowUsed, mem := if mem then s.buf.mem else [] },
      enc := enclaveKept s.enc, rep := { State.reset.rep with units := failedUnits s },
      evl := if log then s.evl else {}, thm := s.thm, hmpLog := s.hmpLog } := by
    refine h.leaf (fun p hp => ?_) fun t => ⟨?_, ?_, ?_, ?_, ?_, ?_, rfl, rfl, rfl, rfl⟩
    · cases p <;> first
      | rfl | exact ⟨rfl, rfl⟩ | exact ⟨rfl, rfl, rfl⟩ | (exact absurd ‹_› hp) | exact absurd (k_any _) hp
      | exact absurd (h_tx _) hp | exact absurd (h_rx _) hp | exact absurd (h_fec _) hp | exact absurd (h_glf _) hp
      | exact absurd (h_p2mp _) hp | exact absurd (h_ubh _) hp | exact absurd (h_mon _) hp
    · dsimp only; refine Tbl.rising_overlay ?_ _; rfl
    · dsimp only; refine Tbl.rising_overlay ?_ _; rfl
    · dsimp only; refine Tbl.rising_overlay ?_ _; rfl
    · dsimp only; refine Tbl.rising_overlay ?_ _; rfl
    · cases log
      · rfl
      · exact t.slots
    · cases mem
      · rfl
      · exact t.bufMem
  with_reducible apply Fits.keptReport
  · with_reducible apply Fits.aonLocks
    · exact hk
    all_goals first | with_reducible assumption | exact k_any _ | (intros; exact k_any _)
  all_goals first | with_reducible assumption | exact k_any _ | (intros; exact k_any _)

structure Touches.deliverRules (N : Part → Prop) : Prop where
  h_ev : N .ev
  h_hmpLog : N .hmpLog

theorem Fits.deliverRules (s : State) (h : Fits N s0 s) (tch : Touches.deliverRules N) :
    Fits N s0 (deliverRules s) := by
  obtain ⟨h_ev, h_hmpLog⟩ := tch
  unfold Sys2Proof.Machine.deliverRules
  repeat' first
    | with_reducible assumption
    | (intro _)
    | with_reducible apply Fits.ite
    | dsimp only
    | split
    | (refine Fits.pair ‹_ = (_, _)› ?_)
    | (refine Fits.pair2 ‹_ = (_, _, _)› ?_)
    | with_reducible apply Fits.upd_ev_hmpLog

structure Touches.sealSet (N : Part → Prop) : Prop where
  k_HMP_SEAL_sealed : N (.reg F.HMP_SEAL_sealed.key)
  k_HMP_STAT_sealed : N (.reg F.HMP_STAT_sealed.key)

theorem Fits.sealSet (b : Bool) (s : State) (h : Fits N s0 s) (tch : Touches.sealSet N) :
    Fits N s0 (sealSet b s) := by
  obtain ⟨k_HMP_SEAL_sealed, k_HMP_STAT_sealed⟩ := tch
  unfold Sys2Proof.Machine.sealSet
  repeat' first
    | with_reducible assumption
    | with_reducible apply k_HMP_SEAL_sealed
    | with_reducible apply k_HMP_STAT_sealed
    | with_reducible apply Fits.setB
    | (intro _)
    | with_reducible apply Fits.ite
    | dsimp only
    | split
    | (refine Fits.pair ‹_ = (_, _)› ?_)
    | (refine Fits.pair2 ‹_ = (_, _, _)› ?_)

structure Touches.wakeBegin (N : Part → Prop) : Prop where
  h_dev : N .dev
  k_DEV_MODE_mode : N (.reg F.DEV_MODE_mode.key)
  k_DEV_MODE_mode_prev : N (.reg F.DEV_MODE_mode_prev.key)
  k_DEV_MODE_transition : N (.reg F.DEV_MODE_transition.key)
  k_DEV_WAKE_SRC_rule : N (.reg F.DEV_WAKE_SRC_rule.key)
  k_DEV_WAKE_SRC_source : N (.reg F.DEV_WAKE_SRC_source.key)
  c_modUbh : ∀ (a0 : Nat), Touches.modUbh N a0
  c_ubhRun : ∀ (a0 : Nat), Touches.ubhRun N a0
  c_rulesMode : Touches.rulesMode N
  c_deliverRules : Touches.deliverRules N
  c_sealSet : Touches.sealSet N

theorem Fits.wakeBegin (old : Nat) (src : Nat) (rule : Nat) (s : State) (h : Fits N s0 s) (tch : Touches.wakeBegin N) :
    Fits N s0 (wakeBegin old src rule s) := by
  obtain ⟨h_dev, k_DEV_MODE_mode, k_DEV_MODE_mode_prev, k_DEV_MODE_transition, k_DEV_WAKE_SRC_rule, k_DEV_WAKE_SRC_source, c_modUbh, c_ubhRun, c_rulesMode, c_deliverRules, c_sealSet⟩ := tch
  unfold Sys2Proof.Machine.wakeBegin
  repeat' first
    | with_reducible assumption
    | with_reducible apply k_DEV_MODE_mode
    | with_reducible apply k_DEV_MODE_mode_prev
    | with_reducible apply k_DEV_MODE_transition
    | with_reducible apply k_DEV_WAKE_SRC_rule
    | with_reducible apply k_DEV_WAKE_SRC_source
    | with_reducible exact c_modUbh _
    | with_reducible exact c_ubhRun _
    | with_reducible apply Fits.setF
    | with_reducible apply Fits.setB
    | with_reducible apply Fits.modUbh
    | with_reducible apply Fits.ubhRun
    | with_reducible apply Fits.rulesMode
    | with_reducible apply Fits.deliverRules
    | with_reducible apply Fits.sealSet
    | with_reducible apply Fits.forEach
    | (intro _)
    | with_reducible apply Fits.ite
    | dsimp only
    | split
    | (refine Fits.pair ‹_ = (_, _)› ?_)
    | (refine Fits.pair2 ‹_ = (_, _, _)› ?_)
    | with_reducible apply Fits.upd_dev

structure Touches.deviceReset (N : Part → Prop) : Prop where
  h_dev : N .dev
  c_evt : Touches.evt N 0xFC
  c_evlFlush : Touches.evlFlush N
  c_evlMarker : Touches.evlMarker N
  c_resetBlocks : Touches.resetBlocks N
  c_wakeBegin : Touches.wakeBegin N

theorem Fits.deviceReset (src : Nat) (skip : Bool) (s : State) (h : Fits N s0 s) (tch : Touches.deviceReset N) :
    Fits N s0 (deviceReset src skip s) := by
  obtain ⟨h_dev, c_evt, c_evlFlush, c_evlMarker, c_resetBlocks, c_wakeBegin⟩ := tch
  unfold Sys2Proof.Machine.deviceReset
  repeat' first
    | with_reducible assumption
    | with_reducible apply Fits.evt
    | with_reducible apply Fits.evlFlush
    | with_reducible apply Fits.evlMarker
    | with_reducible apply Fits.resetBlocks
    | with_reducible apply Fits.wakeBegin
    | (intro _)
    | with_reducible apply Fits.ite
    | dsimp only
    | split
    | (refine Fits.pair ‹_ = (_, _)› ?_)
    | (refine Fits.pair2 ‹_ = (_, _, _)› ?_)
    | with_reducible apply Fits.upd_dev

structure Touches.dormantWake (N : Part → Prop) : Prop where
  k_DEV_RESET_CAUSE_dormant_exit : N (.reg F.DEV_RESET_CAUSE_dormant_exit.key)
  c_wakeBegin : Touches.wakeBegin N

theorem Fits.dormantWake (src : Nat) (rule : Nat) (s : State) (h : Fits N s0 s) (tch : Touches.dormantWake N) :
    Fits N s0 (dormantWake src rule s) := by
  obtain ⟨k_DEV_RESET_CAUSE_dormant_exit, c_wakeBegin⟩ := tch
  unfold Sys2Proof.Machine.dormantWake
  repeat' first
    | with_reducible assumption
    | with_reducible apply k_DEV_RESET_CAUSE_dormant_exit
    | with_reducible apply Fits.setB
    | with_reducible apply Fits.wakeBegin
    | (intro _)
    | with_reducible apply Fits.ite
    | dsimp only
    | split
    | (refine Fits.pair ‹_ = (_, _)› ?_)
    | (refine Fits.pair2 ‹_ = (_, _, _)› ?_)

structure Touches.execVaonLoss (N : Part → Prop) : Prop where
  h_buf : N .buf
  h_bufMem : N .bufMem
  h_buffer : N .buffer
  h_cip : N .cip
  h_cls : N .cls
  h_clsMem : N .clsMem
  h_cnt : N .cnt
  h_dev : N .dev
  h_enc : N .enc
  h_ev : N .ev
  h_evl : N .evl
  h_fab : N .fab
  h_grp : N .grp
  h_hmpLog : N .hmpLog
  h_inForce : N .inForce
  h_lanes : N .lanes
  h_rep : N .rep
  h_smp : N .smp
  h_spi : N .spi
  h_staged : N .staged
  h_syn : N .syn
  h_thm : N .thm
  h_time : N .time
  k_any : ∀ k, N (.reg k)
  h_fec : ∀ b, N (.fec b)
  h_glf : ∀ b, N (.glf b)
  h_mon : ∀ b, N (.mon b)
  h_p2mp : ∀ b, N (.p2mp b)
  h_rx : ∀ b, N (.rx b)
  h_tx : ∀ b, N (.tx b)
  h_ubh : ∀ b, N (.ubh b)
  c_keptReport : Touches.keptReport N

theorem FitsOut.execVaonLoss (s : State) (h : Fits N s0 s) (tch : Touches.execVaonLoss N) :
    FitsOut N s0 (execVaonLoss s) := by
  obtain ⟨h_buf, h_bufMem, h_buffer, h_cip, h_cls, h_clsMem, h_cnt, h_dev, h_enc, h_ev, h_evl, h_fab, h_grp, h_hmpLog, h_inForce, h_lanes, h_rep, h_smp, h_spi, h_staged, h_syn, h_thm, h_time, k_any, h_fec, h_glf, h_mon, h_p2mp, h_rx, h_tx, h_ubh, c_keptReport⟩ := tch
  unfold Sys2Proof.Machine.execVaonLoss
  have hk : Fits N s0 { State.reset with
      pending := s.pending, drawn := s.drawn,
      fields := Tbl.overlay (fun k => nvKey k || tileKey k) s.fields State.reset.fields,
      dev := { vaon := false, held := true, woken := false, bootPending := false, flash := s.dev.flash, flashDead := s.dev.flashDead },
      le0 := engineKept false s.le0, le1 := engineKept false s.le1,
      buf := { State.reset.buf with rowUsed := s.buf.rowUsed },
      enc := { enclaveKept s.enc with eraseDue := false }, rep := { State.reset.rep with units := failedUnits s } } := by
    refine h.leaf (fun p hp => ?_) fun t => ⟨?_, rfl, rfl, rfl, rfl, rfl, rfl, rfl, rfl, rfl⟩
    · cases p <;> first
      | rfl | exact ⟨rfl, rfl⟩ | exact ⟨rfl, rfl, rfl⟩ | (exact absurd ‹_› hp) | exact absurd (k_any _) hp
      | exact absurd (h_tx _) hp | exact absurd (h_rx _) hp | exact absurd (h_fec _) hp | exact absurd (h_glf _) hp
      | exact absurd (h_p2mp _) hp | exact absurd (h_ubh _) hp | exact absurd (h_mon _) hp
    · dsimp only; refine Tbl.rising_overlay ?_ _; rfl
  refine FitsOut.ite (fun _ => FitsOut.next ?_) fun _ => FitsOut.next h
  with_reducible apply Fits.keptReport
  · exact hk
  all_goals first | with_reducible assumption | exact k_any _ | (intros; exact k_any _)

structure Touches.execVaonPowerOn (N : Part → Prop) : Prop where
  h_dev : N .dev
  h_time : N .time

theorem FitsOut.execVaonPowerOn (s : State) (h : Fits N s0 s) (tch : Touches.execVaonPowerOn N) :
    FitsOut N s0 (execVaonPowerOn s) := by
  obtain ⟨h_dev, h_time⟩ := tch
  unfold Sys2Proof.Machine.execVaonPowerOn
  repeat' first
    | with_reducible assumption
    | with_reducible apply FitsOut.ite
    | with_reducible apply FitsOut.next
    | with_reducible apply FitsOut.fault
    | (intro _)
    | with_reducible apply Fits.ite
    | dsimp only
    | split
    | (refine Fits.pair ‹_ = (_, _)› ?_)
    | (refine Fits.pair2 ‹_ = (_, _, _)› ?_)
    | with_reducible apply Fits.upd_time_dev

structure Touches.execXtalLock (N : Part → Prop) : Prop where
  k_DEV_STATUS_aon_xtal_lock : N (.reg F.DEV_STATUS_aon_xtal_lock.key)
  k_HMP_STAT_aon_xtal_lock : N (.reg F.HMP_STAT_aon_xtal_lock.key)

theorem FitsOut.execXtalLock (s : State) (h : Fits N s0 s) (tch : Touches.execXtalLock N) :
    FitsOut N s0 (execXtalLock s) := by
  obtain ⟨k_DEV_STATUS_aon_xtal_lock, k_HMP_STAT_aon_xtal_lock⟩ := tch
  unfold Sys2Proof.Machine.execXtalLock
  repeat' first
    | with_reducible assumption
    | with_reducible apply k_DEV_STATUS_aon_xtal_lock
    | with_reducible apply k_HMP_STAT_aon_xtal_lock
    | with_reducible apply Fits.setB
    | with_reducible apply FitsOut.ite
    | with_reducible apply FitsOut.next
    | with_reducible apply FitsOut.fault
    | (intro _)
    | with_reducible apply Fits.ite
    | dsimp only
    | split
    | (refine Fits.pair ‹_ = (_, _)› ?_)
    | (refine Fits.pair2 ‹_ = (_, _, _)› ?_)

structure Touches.execPorstAssert (N : Part → Prop) : Prop where
  h_dev : N .dev
  k_DEV_MODE_mode_prev : N (.reg F.DEV_MODE_mode_prev.key)
  k_DEV_RESET_CAUSE_porst : N (.reg F.DEV_RESET_CAUSE_porst.key)
  c_resetBlocks : Touches.resetBlocks N

theorem FitsOut.execPorstAssert (s : State) (h : Fits N s0 s) (tch : Touches.execPorstAssert N) :
    FitsOut N s0 (execPorstAssert s) := by
  obtain ⟨h_dev, k_DEV_MODE_mode_prev, k_DEV_RESET_CAUSE_porst, c_resetBlocks⟩ := tch
  unfold Sys2Proof.Machine.execPorstAssert
  repeat' first
    | with_reducible assumption
    | with_reducible apply k_DEV_MODE_mode_prev
    | with_reducible apply k_DEV_RESET_CAUSE_porst
    | with_reducible apply Fits.setF
    | with_reducible apply Fits.setB
    | with_reducible apply Fits.resetBlocks
    | with_reducible apply FitsOut.ite
    | with_reducible apply FitsOut.next
    | with_reducible apply FitsOut.fault
    | (intro _)
    | with_reducible apply Fits.ite
    | dsimp only
    | split
    | (refine Fits.pair ‹_ = (_, _)› ?_)
    | (refine Fits.pair2 ‹_ = (_, _, _)› ?_)
    | with_reducible apply Fits.upd_dev

structure Touches.porstRelease (N : Part → Prop) : Prop where
  h_dev : N .dev
  k_DEV_RESET_CAUSE_dormant_exit : N (.reg F.DEV_RESET_CAUSE_dormant_exit.key)
  c_wakeBegin : Touches.wakeBegin N

theorem Fits.porstRelease (s : State) (h : Fits N s0 s) (tch : Touches.porstRelease N) :
    Fits N s0 (porstRelease s) := by
  obtain ⟨h_dev, k_DEV_RESET_CAUSE_dormant_exit, c_wakeBegin⟩ := tch
  unfold Sys2Proof.Machine.porstRelease
  repeat' first
    | with_reducible assumption
    | with_reducible apply k_DEV_RESET_CAUSE_dormant_exit
    | with_reducible apply Fits.setB
    | with_reducible apply Fits.wakeBegin
    | (intro _)
    | with_reducible apply Fits.ite
    | dsimp only
    | split
    | (refine Fits.pair ‹_ = (_, _)› ?_)
    | (refine Fits.pair2 ‹_ = (_, _, _)› ?_)
    | with_reducible apply Fits.upd_dev

structure Touches.resetWrite (N : Part → Prop) : Prop where
  k_DEV_RESET_CAUSE_reset_cmd : N (.reg F.DEV_RESET_CAUSE_reset_cmd.key)
  c_refuse : Touches.refuse N 0x58
  c_goWrite : Touches.goWrite N 0x58
  c_deviceReset : Touches.deviceReset N

theorem Fits.resetWrite (m : Master) (key : Nat) (s : State) (h : Fits N s0 s) (tch : Touches.resetWrite N) :
    Fits N s0 (resetWrite m key s) := by
  obtain ⟨k_DEV_RESET_CAUSE_reset_cmd, c_refuse, c_goWrite, c_deviceReset⟩ := tch
  unfold Sys2Proof.Machine.resetWrite
  repeat' first
    | with_reducible assumption
    | with_reducible apply k_DEV_RESET_CAUSE_reset_cmd
    | with_reducible apply Fits.setB
    | with_reducible apply Fits.refuse
    | with_reducible apply Fits.deviceReset
    | with_reducible apply Fits.goWrite
    | (intro _)
    | with_reducible apply Fits.ite
    | dsimp only
    | split
    | (refine Fits.pair ‹_ = (_, _)› ?_)
    | (refine Fits.pair2 ‹_ = (_, _, _)› ?_)

structure Touches.reqResult (N : Part → Prop) : Prop where
  k_DEV_MODE_req_result : N (.reg F.DEV_MODE_req_result.key)
  c_evt : Touches.evt N 0x00

theorem Fits.reqResult (r : Nat) (s : State) (h : Fits N s0 s) (tch : Touches.reqResult N) :
    Fits N s0 (reqResult r s) := by
  obtain ⟨k_DEV_MODE_req_result, c_evt⟩ := tch
  unfold Sys2Proof.Machine.reqResult
  repeat' first
    | with_reducible assumption
    | with_reducible apply k_DEV_MODE_req_result
    | with_reducible apply Fits.setF
    | with_reducible apply Fits.evt
    | (intro _)
    | with_reducible apply Fits.ite
    | dsimp only
    | split
    | (refine Fits.pair ‹_ = (_, _)› ?_)
    | (refine Fits.pair2 ‹_ = (_, _, _)› ?_)

structure Touches.reqDone (N : Part → Prop) : Prop where
  h_dev : N .dev
  c_reqResult : Touches.reqResult N

theorem Fits.reqDone (r : Nat) (s : State) (h : Fits N s0 s) (tch : Touches.reqDone N) :
    Fits N s0 (reqDone r s) := by
  obtain ⟨h_dev, c_reqResult⟩ := tch
  unfold Sys2Proof.Machine.reqDone
  repeat' first
    | with_reducible assumption
    | with_reducible apply Fits.reqResult
    | (intro _)
    | with_reducible apply Fits.ite
    | dsimp only
    | split
    | (refine Fits.pair ‹_ = (_, _)› ?_)
    | (refine Fits.pair2 ‹_ = (_, _, _)› ?_)
    | with_reducible apply Fits.upd_dev

structure Touches.transitionTo (N : Part → Prop) : Prop where
  k_DEV_MODE_transition : N (.reg F.DEV_MODE_transition.key)
  c_modeTo : Touches.modeTo N
  c_reqDone : Touches.reqDone N

theorem Fits.transitionTo (new : Nat) (r : Nat) (s : State) (h : Fits N s0 s) (tch : Touches.transitionTo N) :
    Fits N s0 (transitionTo new r s) := by
  obtain ⟨k_DEV_MODE_transition, c_modeTo, c_reqDone⟩ := tch
  unfold Sys2Proof.Machine.transitionTo
  repeat' first
    | with_reducible assumption
    | with_reducible apply k_DEV_MODE_transition
    | with_reducible apply Fits.setB
    | with_reducible apply Fits.modeTo
    | with_reducible apply Fits.reqDone
    | (intro _)
    | with_reducible apply Fits.ite
    | dsimp only
    | split
    | (refine Fits.pair ‹_ = (_, _)› ?_)
    | (refine Fits.pair2 ‹_ = (_, _, _)› ?_)

structure Touches.warmStart (N : Part → Prop) : Prop where
  k_DEV_MODE_transition : N (.reg F.DEV_MODE_transition.key)
  k_DEV_STATUS_mem_trained : N (.reg F.DEV_STATUS_mem_trained.key)
  c_fifoResync : ∀ (a0 : Nat) (a1 : Nat), Touches.fifoResync N a0 a1
  c_portsAll : Touches.portsAll N
  c_transitionTo : Touches.transitionTo N

theorem Fits.warmStart (new : Nat) (s : State) (h : Fits N s0 s) (tch : Touches.warmStart N) :
    Fits N s0 (warmStart new s) := by
  obtain ⟨k_DEV_MODE_transition, k_DEV_STATUS_mem_trained, c_fifoResync, c_portsAll, c_transitionTo⟩ := tch
  unfold Sys2Proof.Machine.warmStart
  repeat' first
    | with_reducible assumption
    | with_reducible apply k_DEV_MODE_transition
    | with_reducible apply k_DEV_STATUS_mem_trained
    | with_reducible exact c_fifoResync _ _
    | with_reducible apply Fits.setB
    | with_reducible apply Fits.fifoResync
    | with_reducible apply Fits.portsAll
    | with_reducible apply Fits.transitionTo
    | with_reducible apply Fits.forEach
    | (intro _)
    | with_reducible apply Fits.ite
    | dsimp only
    | split
    | (refine Fits.pair ‹_ = (_, _)› ?_)
    | (refine Fits.pair2 ‹_ = (_, _, _)› ?_)

theorem Fits.setMaint (t : Nat) (s : State) (h : Fits N s0 s) (h_dev : N .dev) :
    Fits N s0 (setMaint t s) := by
  unfold Sys2Proof.Machine.setMaint
  repeat' first
    | with_reducible assumption
    | (intro _)
    | with_reducible apply Fits.ite
    | dsimp only
    | split
    | (refine Fits.pair ‹_ = (_, _)› ?_)
    | (refine Fits.pair2 ‹_ = (_, _, _)› ?_)
    | with_reducible apply Fits.upd_dev

structure Touches.maintRequest (N : Part → Prop) : Prop where
  h_dev : N .dev
  k_DEV_MODE_transition : N (.reg F.DEV_MODE_transition.key)
  c_engineOff : ∀ (a0 : Nat), Touches.engineOff N a0
  c_reqResult : Touches.reqResult N
  c_warmStart : Touches.warmStart N

theorem Fits.maintRequest (s : State) (h : Fits N s0 s) (tch : Touches.maintRequest N) :
    Fits N s0 (maintRequest s) := by
  obtain ⟨h_dev, k_DEV_MODE_transition, c_engineOff, c_reqResult, c_warmStart⟩ := tch
  unfold Sys2Proof.Machine.maintRequest
  repeat' first
    | with_reducible assumption
    | with_reducible apply k_DEV_MODE_transition
    | with_reducible exact c_engineOff _
    | with_reducible apply Fits.setB
    | with_reducible apply Fits.engineOff
    | with_reducible apply Fits.reqResult
    | with_reducible apply Fits.warmStart
    | with_reducible apply Fits.setMaint
    | with_reducible apply Fits.forEach
    | (intro _)
    | with_reducible apply Fits.ite
    | dsimp only
    | split
    | (refine Fits.pair ‹_ = (_, _)› ?_)
    | (refine Fits.pair2 ‹_ = (_, _, _)› ?_)
    | with_reducible apply Fits.upd_dev

structure Touches.standbyRequest (N : Part → Prop) : Prop where
  h_dev : N .dev
  k_DEV_MODE_transition : N (.reg F.DEV_MODE_transition.key)
  c_portsAll : Touches.portsAll N
  c_engineOff : ∀ (a0 : Nat), Touches.engineOff N a0

theorem Fits.standbyRequest (s : State) (h : Fits N s0 s) (tch : Touches.standbyRequest N) :
    Fits N s0 (standbyRequest s) := by
  obtain ⟨h_dev, k_DEV_MODE_transition, c_portsAll, c_engineOff⟩ := tch
  unfold Sys2Proof.Machine.standbyRequest
  repeat' first
    | with_reducible assumption
    | with_reducible apply k_DEV_MODE_transition
    | with_reducible exact c_engineOff _
    | with_reducible apply Fits.setB
    | with_reducible apply Fits.portsAll
    | with_reducible apply Fits.engineOff
    | with_reducible apply Fits.forEach
    | (intro _)
    | with_reducible apply Fits.ite
    | dsimp only
    | split
    | (refine Fits.pair ‹_ = (_, _)› ?_)
    | (refine Fits.pair2 ‹_ = (_, _, _)› ?_)
    | with_reducible apply Fits.upd_dev

structure Touches.dormantEnter (N : Part → Prop) : Prop where
  k_DEV_MODE_mode : N (.reg F.DEV_MODE_mode.key)
  k_DEV_MODE_mode_prev : N (.reg F.DEV_MODE_mode_prev.key)
  k_DEV_MODE_req_result : N (.reg F.DEV_MODE_req_result.key)
  k_DEV_MODE_transition : N (.reg F.DEV_MODE_transition.key)
  c_rulesMode : Touches.rulesMode N
  c_resetBlocks : Touches.resetBlocks N

theorem Fits.dormantEnter (s : State) (h : Fits N s0 s) (tch : Touches.dormantEnter N) :
    Fits N s0 (dormantEnter s) := by
  obtain ⟨k_DEV_MODE_mode, k_DEV_MODE_mode_prev, k_DEV_MODE_req_result, k_DEV_MODE_transition, c_rulesMode, c_resetBlocks⟩ := tch
  unfold Sys2Proof.Machine.dormantEnter
  repeat' first
    | with_reducible assumption
    | with_reducible apply k_DEV_MODE_mode
    | with_reducible apply k_DEV_MODE_mode_prev
    | with_reducible apply k_DEV_MODE_req_result
    | with_reducible apply k_DEV_MODE_transition
    | with_reducible apply Fits.setF
    | with_reducible apply Fits.setB
    | with_reducible apply Fits.rulesMode
    | with_reducible apply Fits.resetBlocks
    | (intro _)
    | with_reducible apply Fits.ite
    | dsimp only
    | split
    | (refine Fits.pair ‹_ = (_, _)› ?_)
    | (refine Fits.pair2 ‹_ = (_, _, _)› ?_)

structure Touches.modeRequest (N : Part → Prop) : Prop where
  h_dev : N .dev
  k_DEV_RESET_CAUSE_safe_cmd : N (.reg F.DEV_RESET_CAUSE_safe_cmd.key)
  c_deviceReset : Touches.deviceReset N
  c_reqResult : Touches.reqResult N
  c_transitionTo : Touches.transitionTo N
  c_warmStart : Touches.warmStart N
  c_maintRequest : Touches.maintRequest N
  c_standbyRequest : Touches.standbyRequest N
  c_dormantEnter : Touches.dormantEnter N

theorem Fits.modeRequest (code : Nat) (s : State) (h : Fits N s0 s) (tch : Touches.modeRequest N) :
    Fits N s0 (modeRequest code s) := by
  obtain ⟨h_dev, k_DEV_RESET_CAUSE_safe_cmd, c_deviceReset, c_reqResult, c_transitionTo, c_warmStart, c_maintRequest, c_standbyRequest, c_dormantEnter⟩ := tch
  unfold Sys2Proof.Machine.modeRequest
  repeat' first
    | with_reducible assumption
    | with_reducible apply k_DEV_RESET_CAUSE_safe_cmd
    | with_reducible apply Fits.setB
    | with_reducible apply Fits.deviceReset
    | with_reducible apply Fits.reqResult
    | with_reducible apply Fits.transitionTo
    | with_reducible apply Fits.warmStart
    | with_reducible apply Fits.setMaint
    | with_reducible apply Fits.maintRequest
    | with_reducible apply Fits.standbyRequest
    | with_reducible apply Fits.dormantEnter
    | (intro _)
    | with_reducible apply Fits.ite
    | dsimp only
    | split
    | (refine Fits.pair ‹_ = (_, _)› ?_)
    | (refine Fits.pair2 ‹_ = (_, _, _)› ?_)
    | with_reducible apply Fits.upd_dev

structure Touches.storeMaint (N : Part → Prop) : Prop where
  k_DEV_MODE_maint_le0 : N (.reg F.DEV_MODE_maint_le0.key)
  k_DEV_MODE_maint_le1 : N (.reg F.DEV_MODE_maint_le1.key)

theorem Fits.storeMaint (v : Nat) (s : State) (h : Fits N s0 s) (tch : Touches.storeMaint N) :
    Fits N s0 (storeMaint v s) := by
  obtain ⟨k_DEV_MODE_maint_le0, k_DEV_MODE_maint_le1⟩ := tch
  unfold Sys2Proof.Machine.storeMaint
  repeat' first
    | with_reducible assumption
    | with_reducible apply k_DEV_MODE_maint_le0
    | with_reducible apply k_DEV_MODE_maint_le1
    | with_reducible apply Fits.setF
    | (intro _)
    | with_reducible apply Fits.ite
    | dsimp only
    | split
    | (refine Fits.pair ‹_ = (_, _)› ?_)
    | (refine Fits.pair2 ‹_ = (_, _, _)› ?_)

structure Touches.mirrorRequest (N : Part → Prop) : Prop where
  h_dev : N .dev
  k_DEV_MODE_req_result : N (.reg F.DEV_MODE_req_result.key)
  c_dormantWake : Touches.dormantWake N

theorem Fits.mirrorRequest (code : Nat) (s : State) (h : Fits N s0 s) (tch : Touches.mirrorRequest N) :
    Fits N s0 (mirrorRequest code s) := by
  obtain ⟨h_dev, k_DEV_MODE_req_result, c_dormantWake⟩ := tch
  unfold Sys2Proof.Machine.mirrorRequest
  repeat' first
    | with_reducible assumption
    | with_reducible apply k_DEV_MODE_req_result
    | with_reducible apply Fits.setF
    | with_reducible apply Fits.dormantWake
    | (intro _)
    | with_reducible apply Fits.ite
    | dsimp only
    | split
    | (refine Fits.pair ‹_ = (_, _)› ?_)
    | (refine Fits.pair2 ‹_ = (_, _, _)› ?_)
    | with_reducible apply Fits.upd_dev

structure Touches.modeWrite (N : Part → Prop) : Prop where
  c_goWrite : Touches.goWrite N 0x40
  c_modeRequest : Touches.modeRequest N
  c_storeMaint : Touches.storeMaint N
  c_mirrorRequest : Touches.mirrorRequest N

theorem Fits.modeWrite (m : Master) (v : Nat) (s : State) (h : Fits N s0 s) (tch : Touches.modeWrite N) :
    Fits N s0 (modeWrite m v s) := by
  obtain ⟨c_goWrite, c_modeRequest, c_storeMaint, c_mirrorRequest⟩ := tch
  unfold Sys2Proof.Machine.modeWrite
  repeat' first
    | with_reducible assumption
    | with_reducible apply Fits.modeRequest
    | with_reducible apply Fits.storeMaint
    | with_reducible apply Fits.mirrorRequest
    | with_reducible apply Fits.goWrite
    | (intro _)
    | with_reducible apply Fits.ite
    | dsimp only
    | split
    | (refine Fits.pair ‹_ = (_, _)› ?_)
    | (refine Fits.pair2 ‹_ = (_, _, _)› ?_)

structure Touches.modesTogether (N : Part → Prop) : Prop where
  c_goWrite : Touches.goWrite N 0x40
  c_reqResult : Touches.reqResult N
  c_storeMaint : Touches.storeMaint N
  c_modeWrite : Touches.modeWrite N

theorem Fits.modesTogether (l : List (Master × Nat)) (s : State) (h : Fits N s0 s) (tch : Touches.modesTogether N) :
    Fits N s0 (modesTogether l s) := by
  obtain ⟨c_goWrite, c_reqResult, c_storeMaint, c_modeWrite⟩ := tch
  unfold Sys2Proof.Machine.modesTogether
  repeat' first
    | with_reducible assumption
    | with_reducible apply Fits.reqResult
    | with_reducible apply Fits.storeMaint
    | with_reducible apply Fits.modeWrite
    | with_reducible apply Fits.forEach
    | with_reducible apply Fits.goWrite
    | (intro _)
    | with_reducible apply Fits.ite
    | dsimp only
    | split
    | (refine Fits.pair ‹_ = (_, _)› ?_)
    | (refine Fits.pair2 ‹_ = (_, _, _)› ?_)

structure Touches.execStandbyEntryDone (N : Part → Prop) : Prop where
  h_dev : N .dev
  c_transitionTo : Touches.transitionTo N

theorem FitsOut.execStandbyEntryDone (s : State) (h : Fits N s0 s) (tch : Touches.execStandbyEntryDone N) :
    FitsOut N s0 (execStandbyEntryDone s) := by
  obtain ⟨h_dev, c_transitionTo⟩ := tch
  unfold Sys2Proof.Machine.execStandbyEntryDone
  repeat' first
    | with_reducible assumption
    | with_reducible apply Fits.transitionTo
    | with_reducible apply Fits.setMaint
    | with_reducible apply FitsOut.ite
    | with_reducible apply FitsOut.next
    | with_reducible apply FitsOut.fault
    | (intro _)
    | with_reducible apply Fits.ite
    | dsimp only
    | split
    | (refine Fits.pair ‹_ = (_, _)› ?_)
    | (refine Fits.pair2 ‹_ = (_, _, _)› ?_)

structure Touches.execMaintEntryDone (N : Part → Prop) : Prop where
  c_transitionTo : Touches.transitionTo N

theorem FitsOut.execMaintEntryDone (s : State) (h : Fits N s0 s) (tch : Touches.execMaintEntryDone N) :
    FitsOut N s0 (execMaintEntryDone s) := by
  obtain ⟨c_transitionTo⟩ := tch
  unfold Sys2Proof.Machine.execMaintEntryDone
  repeat' first
    | with_reducible assumption
    | with_reducible apply Fits.transitionTo
    | with_reducible apply FitsOut.ite
    | with_reducible apply FitsOut.next
    | with_reducible apply FitsOut.fault
    | (intro _)
    | with_reducible apply Fits.ite
    | dsimp only
    | split
    | (refine Fits.pair ‹_ = (_, _)› ?_)
    | (refine Fits.pair2 ‹_ = (_, _, _)› ?_)

structure Touches.avsCommand (N : Part → Prop) : Prop where
  h_dev : N .dev
  k_DEV_AVS_avs_busy : N (.reg F.DEV_AVS_avs_busy.key)
  k_DEV_AVS_avs_fail : N (.reg F.DEV_AVS_avs_fail.key)

theorem Fits.avsCommand (s : State) (h : Fits N s0 s) (tch : Touches.avsCommand N) :
    Fits N s0 (avsCommand s) := by
  obtain ⟨h_dev, k_DEV_AVS_avs_busy, k_DEV_AVS_avs_fail⟩ := tch
  unfold Sys2Proof.Machine.avsCommand
  repeat' first
    | with_reducible assumption
    | with_reducible apply k_DEV_AVS_avs_busy
    | with_reducible apply k_DEV_AVS_avs_fail
    | with_reducible apply Fits.setB
    | (intro _)
    | with_reducible apply Fits.ite
    | dsimp only
    | split
    | (refine Fits.pair ‹_ = (_, _)› ?_)
    | (refine Fits.pair2 ‹_ = (_, _, _)› ?_)
    | with_reducible apply Fits.upd_dev

structure Touches.execAvsConfirmed (N : Part → Prop) : Prop where
  h_dev : N .dev
  k_DEV_AVS_avs_busy : N (.reg F.DEV_AVS_avs_busy.key)
  k_DEV_AVS_setpoint_code : N (.reg F.DEV_AVS_setpoint_code.key)

theorem FitsOut.execAvsConfirmed (s : State) (h : Fits N s0 s) (tch : Touches.execAvsConfirmed N) :
    FitsOut N s0 (execAvsConfirmed s) := by
  obtain ⟨h_dev, k_DEV_AVS_avs_busy, k_DEV_AVS_setpoint_code⟩ := tch
  unfold Sys2Proof.Machine.execAvsConfirmed
  repeat' first
    | with_reducible assumption
    | with_reducible apply k_DEV_AVS_avs_busy
    | with_reducible apply k_DEV_AVS_setpoint_code
    | with_reducible apply Fits.setF
    | with_reducible apply Fits.setB
    | with_reducible apply FitsOut.ite
    | with_reducible apply FitsOut.next
    | with_reducible apply FitsOut.fault
    | (intro _)
    | with_reducible apply Fits.ite
    | dsimp only
    | split
    | (refine Fits.pair ‹_ = (_, _)› ?_)
    | (refine Fits.pair2 ‹_ = (_, _, _)› ?_)
    | with_reducible apply Fits.upd_dev

structure Touches.execAvsFail (N : Part → Prop) : Prop where
  k_DEV_AVS_avs_busy : N (.reg F.DEV_AVS_avs_busy.key)
  k_DEV_AVS_avs_fail : N (.reg F.DEV_AVS_avs_fail.key)
  c_err : Touches.err N 0x00

theorem FitsOut.execAvsFail (s : State) (h : Fits N s0 s) (tch : Touches.execAvsFail N) :
    FitsOut N s0 (execAvsFail s) := by
  obtain ⟨k_DEV_AVS_avs_busy, k_DEV_AVS_avs_fail, c_err⟩ := tch
  unfold Sys2Proof.Machine.execAvsFail
  repeat' first
    | with_reducible assumption
    | with_reducible apply k_DEV_AVS_avs_busy
    | with_reducible apply k_DEV_AVS_avs_fail
    | with_reducible apply Fits.setB
    | with_reducible apply Fits.err
    | with_reducible apply FitsOut.ite
    | with_reducible apply FitsOut.next
    | with_reducible apply FitsOut.fault
    | (intro _)
    | with_reducible apply Fits.ite
    | dsimp only
    | split
    | (refine Fits.pair ‹_ = (_, _)› ?_)
    | (refine Fits.pair2 ‹_ = (_, _, _)› ?_)

structure Touches.debugClose (N : Part → Prop) : Prop where
  h_dev : N .dev
  k_ENC_DBG_EXPIRE_HI_expire : N (.reg F.ENC_DBG_EXPIRE_HI_expire.key)
  k_ENC_DBG_EXPIRE_LO_expire : N (.reg F.ENC_DBG_EXPIRE_LO_expire.key)
  k_ENC_STAT_debug_level : N (.reg F.ENC_STAT_debug_level.key)
  c_evt : Touches.evt N 0xFC

theorem Fits.debugClose (s : State) (h : Fits N s0 s) (tch : Touches.debugClose N) :
    Fits N s0 (debugClose s) := by
  obtain ⟨h_dev, k_ENC_DBG_EXPIRE_HI_expire, k_ENC_DBG_EXPIRE_LO_expire, k_ENC_STAT_debug_level, c_evt⟩ := tch
  unfold Sys2Proof.Machine.debugClose
  repeat' first
    | with_reducible assumption
    | with_reducible apply k_ENC_DBG_EXPIRE_HI_expire
    | with_reducible apply k_ENC_DBG_EXPIRE_LO_expire
    | with_reducible apply k_ENC_STAT_debug_level
    | with_reducible apply Fits.setF
    | with_reducible apply Fits.evt
    | (intro _)
    | with_reducible apply Fits.ite
    | dsimp only
    | split
    | (refine Fits.pair ‹_ = (_, _)› ?_)
    | (refine Fits.pair2 ‹_ = (_, _, _)› ?_)
    | with_reducible apply Fits.upd_dev

structure Touches.zeroiseRecord (N : Part → Prop) : Prop where
  h_enc : N .enc
  k_DEV_STATUS_zeroise_record : N (.reg F.DEV_STATUS_zeroise_record.key)
  k_ENC_STAT_klk_valid : N (.reg F.ENC_STAT_klk_valid.key)
  k_ENC_STAT_pending : N (.reg F.ENC_STAT_pending.key)
  k_ENC_STAT_zeroised : N (.reg F.ENC_STAT_zeroised.key)
  k_ENC_ZREC_TIME_HI_time : N (.reg F.ENC_ZREC_TIME_HI_time.key)
  k_ENC_ZREC_TIME_LO_time : N (.reg F.ENC_ZREC_TIME_LO_time.key)
  k_ENC_ZREC_active : N (.reg F.ENC_ZREC_active.key)
  k_ENC_ZREC_causes : N (.reg F.ENC_ZREC_causes.key)
  k_ENC_ZREC_count : N (.reg F.ENC_ZREC_count.key)
  c_debugClose : Touches.debugClose N

theorem Fits.zeroiseRecord (s : State) (h : Fits N s0 s) (tch : Touches.zeroiseRecord N) :
    Fits N s0 (zeroiseRecord s) := by
  obtain ⟨h_enc, k_DEV_STATUS_zeroise_record, k_ENC_STAT_klk_valid, k_ENC_STAT_pending, k_ENC_STAT_zeroised, k_ENC_ZREC_TIME_HI_time, k_ENC_ZREC_TIME_LO_time, k_ENC_ZREC_active, k_ENC_ZREC_causes, k_ENC_ZREC_count, c_debugClose⟩ := tch
  unfold Sys2Proof.Machine.zeroiseRecord
  repeat' first
    | with_reducible assumption
    | with_reducible apply k_DEV_STATUS_zeroise_record
    | with_reducible apply k_ENC_STAT_klk_valid
    | with_reducible apply k_ENC_STAT_pending
    | with_reducible apply k_ENC_STAT_zeroised
    | with_reducible apply k_ENC_ZREC_TIME_HI_time
    | with_reducible apply k_ENC_ZREC_TIME_LO_time
    | with_reducible apply k_ENC_ZREC_active
    | with_reducible apply k_ENC_ZREC_causes
    | with_reducible apply k_ENC_ZREC_count
    | with_reducible apply Fits.setF
    | with_reducible apply Fits.setB
    | with_reducible apply Fits.bump
    | with_reducible apply Fits.debugClose
    | (intro _)
    | with_reducible apply Fits.ite
    | dsimp only
    | split
    | (refine Fits.pair ‹_ = (_, _)› ?_)
    | (refine Fits.pair2 ‹_ = (_, _, _)› ?_)
    | with_reducible apply Fits.upd_enc

structure Touches.tamperRecord (N : Part → Prop) : Prop where
  h_dev : N .dev
  h_ev : N .ev

theorem Fits.tamperRecord (s : State) (h : Fits N s0 s) (tch : Touches.tamperRecord N) :
    Fits N s0 (tamperRecord s) := by
  obtain ⟨h_dev, h_ev⟩ := tch
  unfold Sys2Proof.Machine.tamperRecord
  repeat' first
    | with_reducible assumption
    | with_reducible apply Fits.logPlain
    | (intro _)
    | with_reducible apply Fits.ite
    | dsimp only
    | split
    | (refine Fits.pair ‹_ = (_, _)› ?_)
    | (refine Fits.pair2 ‹_ = (_, _, _)› ?_)
    | with_reducible apply Fits.upd_dev

structure Touches.zeroisedEnter (N : Part → Prop) : Prop where
  h_dev : N .dev
  k_DEV_MODE_transition : N (.reg F.DEV_MODE_transition.key)
  c_evt : Touches.evt N 0xFC
  c_portsAll : Touches.portsAll N
  c_modeTo : Touches.modeTo N
  c_engineOff : ∀ (a0 : Nat), Touches.engineOff N a0
  c_sealSet : Touches.sealSet N
  c_reqResult : Touches.reqResult N
  c_tamperRecord : Touches.tamperRecord N

theorem Fits.zeroisedEnter (s : State) (h : Fits N s0 s) (tch : Touches.zeroisedEnter N) :
    Fits N s0 (zeroisedEnter s) := by
  obtain ⟨h_dev, k_DEV_MODE_transition, c_evt, c_portsAll, c_modeTo, c_engineOff, c_sealSet, c_reqResult, c_tamperRecord⟩ := tch
  unfold Sys2Proof.Machine.zeroisedEnter
  repeat' first
    | with_reducible assumption
    | with_reducible apply k_DEV_MODE_transition
    | with_reducible exact c_engineOff _
    | with_reducible apply Fits.setB
    | with_reducible apply Fits.evt
    | with_reducible apply Fits.portsAll
    | with_reducible apply Fits.modeTo
    | with_reducible apply Fits.engineOff
    | with_reducible apply Fits.sealSet
    | with_reducible apply Fits.reqResult
    | with_reducible apply Fits.tamperRecord
    | with_reducible apply Fits.forEach
    | (intro _)
    | with_reducible apply Fits.ite
    | dsimp only
    | split
    | (refine Fits.pair ‹_ = (_, _)› ?_)
    | (refine Fits.pair2 ‹_ = (_, _, _)› ?_)
    | with_reducible apply Fits.upd_dev

structure Touches.tamperTrip (N : Part → Prop) : Prop where
  h_dev : N .dev
  h_enc : N .enc
  k_DEV_STATUS_tamper_latched : N (.reg F.DEV_STATUS_tamper_latched.key)
  k_TMP_LIGHT_sensors : N (.reg F.TMP_LIGHT_sensors.key)
  k_TMP_STAT_latched : N (.reg F.TMP_STAT_latched.key)
  k_TMP_STAT_latched_causes : N (.reg F.TMP_STAT_latched_causes.key)
  c_evt : Touches.evt N 0xFC
  c_cipErase : Touches.cipErase N
  c_zeroiseRecord : Touches.zeroiseRecord N
  c_tamperRecord : Touches.tamperRecord N
  c_zeroisedEnter : Touches.zeroisedEnter N

theorem Fits.tamperTrip (c : Nat) (lights : Nat) (s : State) (h : Fits N s0 s) (tch : Touches.tamperTrip N) :
    Fits N s0 (tamperTrip c lights s) := by
  obtain ⟨h_dev, h_enc, k_DEV_STATUS_tamper_latched, k_TMP_LIGHT_sensors, k_TMP_STAT_latched, k_TMP_STAT_latched_causes, c_evt, c_cipErase, c_zeroiseRecord, c_tamperRecord, c_zeroisedEnter⟩ := tch
  unfold Sys2Proof.Machine.tamperTrip
  repeat' first
    | with_reducible assumption
    | with_reducible apply k_DEV_STATUS_tamper_latched
    | with_reducible apply k_TMP_LIGHT_sensors
    | with_reducible apply k_TMP_STAT_latched
    | with_reducible apply k_TMP_STAT_latched_causes
    | with_reducible apply Fits.setF
    | with_reducible apply Fits.setB
    | with_reducible apply Fits.evt
    | with_reducible apply Fits.cipErase
    | with_reducible apply Fits.zeroiseRecord
    | with_reducible apply Fits.tamperRecord
    | with_reducible apply Fits.zeroisedEnter
    | (intro _)
    | with_reducible apply Fits.ite
    | dsimp only
    | split
    | (refine Fits.pair ‹_ = (_, _)› ?_)
    | (refine Fits.pair2 ‹_ = (_, _, _)› ?_)
    | with_reducible apply Fits.upd_enc_dev

structure Touches.execTamperTrip (N : Part → Prop) : Prop where
  k_TMP_STAT_raw : N (.reg F.TMP_STAT_raw.key)
  c_tamperTrip : Touches.tamperTrip N

theorem FitsOut.execTamperTrip (c : Fin 6) (lights : BitVec 16) (s : State) (h : Fits N s0 s) (tch : Touches.execTamperTrip N) :
    FitsOut N s0 (execTamperTrip c lights s) := by
  obtain ⟨k_TMP_STAT_raw, c_tamperTrip⟩ := tch
  unfold Sys2Proof.Machine.execTamperTrip
  repeat' first
    | with_reducible assumption
    | with_reducible apply k_TMP_STAT_raw
    | with_reducible apply Fits.setF
    | with_reducible apply Fits.tamperTrip
    | with_reducible apply FitsOut.ite
    | with_reducible apply FitsOut.next
    | with_reducible apply FitsOut.fault
    | (intro _)
    | with_reducible apply Fits.ite
    | dsimp only
    | split
    | (refine Fits.pair ‹_ = (_, _)› ?_)
    | (refine Fits.pair2 ‹_ = (_, _, _)› ?_)

end Sys2Proof.Machine
end

