-- ==== Sys2Proof/Laws/FitsHamper.lean ====
section
/-! SUPPORT. What the operations of Machine/Hamper.lean touch (a structure of parts for each, over those of the operations it calls), and
that each keeps the canonical form. -/
set_option linter.unusedTactic false
set_option linter.unreachableTactic false
namespace Sys2Proof.Machine

variable {N : Part → Prop} {s0 : State}

structure Touches.ruleFire (N : Part → Prop) (r : Nat) : Prop where
  k_HMP_RULE_STAT_entries : N (.reg (F.HMP_RULE_STAT_entries r).key)
  c_ruleGo : Touches.ruleGo N r

theorem Fits.ruleFire (r : Nat) (s : State) (h : Fits N s0 s) (tch : Touches.ruleFire N r) :
    Fits N s0 (ruleFire r s) := by
  obtain ⟨k_HMP_RULE_STAT_entries, c_ruleGo⟩ := tch
  unfold Sys2Proof.Machine.ruleFire
  repeat' first
    | with_reducible assumption
    | with_reducible apply k_HMP_RULE_STAT_entries
    | with_reducible apply Fits.bump
    | with_reducible apply Fits.ruleGo
    | (intro _)
    | with_reducible apply Fits.ite
    | dsimp only
    | split
    | (refine Fits.pair ‹_ = (_, _)› ?_)
    | (refine Fits.pair2 ‹_ = (_, _, _)› ?_)

structure Touches.ruleEval (N : Part → Prop) (r : Nat) : Prop where
  c_ruleGo : Touches.ruleGo N r
  c_ruleFire : Touches.ruleFire N r

theorem Fits.ruleEval (r : Nat) (cond : Bool) (release : Bool) (s : State) (h : Fits N s0 s) (tch : Touches.ruleEval N r) :
    Fits N s0 (ruleEval r cond release s).2 := by
  obtain ⟨c_ruleGo, c_ruleFire⟩ := tch
  unfold Sys2Proof.Machine.ruleEval
  repeat' first
    | with_reducible assumption
    | with_reducible apply Fits.ruleGo
    | with_reducible apply Fits.ruleFire
    | (intro _)
    | with_reducible apply Fits.ite
    | dsimp only
    | split
    | (refine Fits.pair ‹_ = (_, _)› ?_)
    | (refine Fits.pair2 ‹_ = (_, _, _)› ?_)

structure Touches.rulesEval (N : Part → Prop) : Prop where
  c_ruleEval : ∀ (a0 : Nat), Touches.ruleEval N a0

theorem Fits.rulesEval (cond : Nat → Bool × Bool) (x0 : List Nat) (s : State) (h : Fits N s0 s) (tch : Touches.rulesEval N) :
    Fits N s0 (rulesEval cond x0 s).2 := by
  obtain ⟨c_ruleEval⟩ := tch
  induction x0 generalizing s with
  | nil =>
    unfold Sys2Proof.Machine.rulesEval
    repeat' first
      | with_reducible assumption
      | with_reducible exact c_ruleEval _
      | with_reducible apply Fits.ruleEval
      | (intro _)
      | with_reducible apply Fits.ite
      | dsimp only
      | split
      | (refine Fits.pair ‹_ = (_, _)› ?_)
      | (refine Fits.pair2 ‹_ = (_, _, _)› ?_)
  | cons r rs ih =>
    unfold Sys2Proof.Machine.rulesEval
    repeat' first
      | with_reducible apply ih
      | with_reducible assumption
      | with_reducible exact c_ruleEval _
      | with_reducible apply Fits.ruleEval
      | (intro _)
      | with_reducible apply Fits.ite
      | dsimp only
      | split
      | (refine Fits.pair ‹_ = (_, _)› ?_)
      | (refine Fits.pair2 ‹_ = (_, _, _)› ?_)

structure Touches.ruleLog (N : Part → Prop) : Prop where
  h_ev : N .ev
  h_hmpLog : N .hmpLog
  k_HMP_LOG_CTRL_dropped : N (.reg F.HMP_LOG_CTRL_dropped.key)
  k_HMP_LOG_CTRL_held : N (.reg F.HMP_LOG_CTRL_held.key)
  c_evt : Touches.evt N 0xE0

theorem Fits.ruleLog (f : Int) (r : Nat) (s : State) (h : Fits N s0 s) (tch : Touches.ruleLog N) :
    Fits N s0 (ruleLog f r s) := by
  obtain ⟨h_ev, h_hmpLog, k_HMP_LOG_CTRL_dropped, k_HMP_LOG_CTRL_held, c_evt⟩ := tch
  unfold Sys2Proof.Machine.ruleLog
  repeat' first
    | with_reducible assumption
    | with_reducible apply k_HMP_LOG_CTRL_dropped
    | with_reducible apply k_HMP_LOG_CTRL_held
    | with_reducible apply Fits.setF
    | with_reducible apply Fits.bump
    | with_reducible apply Fits.logPlain
    | with_reducible apply Fits.evt
    | (intro _)
    | with_reducible apply Fits.ite
    | dsimp only
    | split
    | (refine Fits.pair ‹_ = (_, _)› ?_)
    | (refine Fits.pair2 ‹_ = (_, _, _)› ?_)
    | with_reducible apply Fits.upd_hmpLog

structure Touches.powerDown (N : Part → Prop) (le : Nat) : Prop where
  k_HMP_PD_le0 : N (.reg F.HMP_PD_le0.key)
  k_HMP_PD_le1 : N (.reg F.HMP_PD_le1.key)
  k_LE_TX_PLAN_STAT_timed_pending : N (.reg (F.LE_TX_PLAN_STAT_timed_pending le).key)
  c_evt : Touches.evt N 0xE0
  c_commitCancel : Touches.commitCancel N (lep le 0x10)
  c_engineOff : Touches.engineOff N le

theorem Fits.powerDown (le : Nat) (s : State) (h : Fits N s0 s) (tch : Touches.powerDown N le) :
    Fits N s0 (powerDown le s) := by
  obtain ⟨k_HMP_PD_le0, k_HMP_PD_le1, k_LE_TX_PLAN_STAT_timed_pending, c_evt, c_commitCancel, c_engineOff⟩ := tch
  unfold Sys2Proof.Machine.powerDown
  repeat' first
    | with_reducible assumption
    | with_reducible apply k_HMP_PD_le0
    | with_reducible apply k_HMP_PD_le1
    | with_reducible apply k_LE_TX_PLAN_STAT_timed_pending
    | with_reducible apply Fits.setB
    | with_reducible apply Fits.evt
    | with_reducible apply Fits.commitCancel
    | with_reducible apply Fits.engineOff
    | (intro _)
    | with_reducible apply Fits.ite
    | dsimp only
    | split
    | (refine Fits.pair ‹_ = (_, _)› ?_)
    | (refine Fits.pair2 ‹_ = (_, _, _)› ?_)

structure Touches.ruleActions (N : Part → Prop) : Prop where
  k_HMP_ALARM_alarm : N (.reg F.HMP_ALARM_alarm.key)
  c_evt : Touches.evt N 0xE0
  c_dormantWake : Touches.dormantWake N
  c_tamperTrip : Touches.tamperTrip N
  c_ruleLog : Touches.ruleLog N
  c_powerDown : Touches.powerDown N 0
  c_powerDown_1 : Touches.powerDown N 1

theorem Fits.ruleActions (f : Int) (fired : List Nat) (s : State) (h : Fits N s0 s) (tch : Touches.ruleActions N) :
    Fits N s0 (ruleActions f fired s) := by
  obtain ⟨k_HMP_ALARM_alarm, c_evt, c_dormantWake, c_tamperTrip, c_ruleLog, c_powerDown, c_powerDown_1⟩ := tch
  unfold Sys2Proof.Machine.ruleActions
  repeat' first
    | with_reducible assumption
    | with_reducible apply k_HMP_ALARM_alarm
    | with_reducible apply Fits.setF
    | with_reducible apply Fits.evt
    | with_reducible apply Fits.dormantWake
    | with_reducible apply Fits.tamperTrip
    | with_reducible apply Fits.ruleLog
    | with_reducible apply Fits.powerDown
    | with_reducible apply Fits.forEach
    | with_reducible apply Fits.foldlPair
    | with_reducible apply Fits.foldl
    | (intro _)
    | with_reducible apply Fits.ite
    | dsimp only
    | split
    | (refine Fits.pair ‹_ = (_, _)› ?_)
    | (refine Fits.pair2 ‹_ = (_, _, _)› ?_)

structure Touches.rulesThermos (N : Part → Prop) : Prop where
  c_rulesEval : Touches.rulesEval N
  c_ruleActions : Touches.ruleActions N

theorem Fits.rulesThermos (tag : Nat) (f : Int) (s : State) (h : Fits N s0 s) (tch : Touches.rulesThermos N) :
    Fits N s0 (rulesThermos tag f s) := by
  obtain ⟨c_rulesEval, c_ruleActions⟩ := tch
  unfold Sys2Proof.Machine.rulesThermos
  repeat' first
    | with_reducible assumption
    | with_reducible apply Fits.rulesEval
    | with_reducible apply Fits.ruleActions
    | (intro _)
    | with_reducible apply Fits.ite
    | dsimp only
    | split
    | (refine Fits.pair ‹_ = (_, _)› ?_)
    | (refine Fits.pair2 ‹_ = (_, _, _)› ?_)

structure Touches.rulesTick (N : Part → Prop) : Prop where
  c_rulesEval : Touches.rulesEval N
  c_ruleActions : Touches.ruleActions N

theorem Fits.rulesTick (alerts : Nat) (s : State) (h : Fits N s0 s) (tch : Touches.rulesTick N) :
    Fits N s0 (rulesTick alerts s) := by
  obtain ⟨c_rulesEval, c_ruleActions⟩ := tch
  unfold Sys2Proof.Machine.rulesTick
  repeat' first
    | with_reducible assumption
    | with_reducible apply Fits.rulesEval
    | with_reducible apply Fits.ruleActions
    | (intro _)
    | with_reducible apply Fits.ite
    | dsimp only
    | split
    | (refine Fits.pair ‹_ = (_, _)› ?_)
    | (refine Fits.pair2 ‹_ = (_, _, _)› ?_)

structure Touches.alarmWrite (N : Part → Prop) : Prop where
  k_HMP_ALARM_alarm : N (.reg F.HMP_ALARM_alarm.key)

theorem Fits.alarmWrite (v : Nat) (s : State) (h : Fits N s0 s) (tch : Touches.alarmWrite N) :
    Fits N s0 (alarmWrite v s) := by
  obtain ⟨k_HMP_ALARM_alarm⟩ := tch
  unfold Sys2Proof.Machine.alarmWrite
  repeat' first
    | with_reducible assumption
    | with_reducible apply k_HMP_ALARM_alarm
    | with_reducible apply Fits.setF
    | with_reducible apply Fits.foldlPair
    | with_reducible apply Fits.foldl
    | (intro _)
    | with_reducible apply Fits.ite
    | dsimp only
    | split
    | (refine Fits.pair ‹_ = (_, _)› ?_)
    | (refine Fits.pair2 ‹_ = (_, _, _)› ?_)

structure Touches.logPop (N : Part → Prop) : Prop where
  h_hmpLog : N .hmpLog
  k_HMP_LOG_CTRL_held : N (.reg F.HMP_LOG_CTRL_held.key)
  k_HMP_LOG_bits : N (.reg (F.HMP_LOG_bits 0).key)
  k_HMP_LOG_bits_1 : N (.reg (F.HMP_LOG_bits 1).key)
  k_HMP_LOG_bits_2 : N (.reg (F.HMP_LOG_bits 2).key)
  k_HMP_LOG_bits_3 : N (.reg (F.HMP_LOG_bits 3).key)

theorem Fits.logPop (s : State) (h : Fits N s0 s) (tch : Touches.logPop N) :
    Fits N s0 (logPop s) := by
  obtain ⟨h_hmpLog, k_HMP_LOG_CTRL_held, k_HMP_LOG_bits, k_HMP_LOG_bits_1, k_HMP_LOG_bits_2, k_HMP_LOG_bits_3⟩ := tch
  unfold Sys2Proof.Machine.logPop
  repeat' first
    | with_reducible assumption
    | with_reducible apply k_HMP_LOG_CTRL_held
    | with_reducible apply k_HMP_LOG_bits
    | with_reducible apply k_HMP_LOG_bits_1
    | with_reducible apply k_HMP_LOG_bits_2
    | with_reducible apply k_HMP_LOG_bits_3
    | with_reducible apply Fits.setF
    | (intro _)
    | with_reducible apply Fits.ite
    | dsimp only
    | split
    | (refine Fits.pair ‹_ = (_, _)› ?_)
    | (refine Fits.pair2 ‹_ = (_, _, _)› ?_)
    | with_reducible apply Fits.upd_hmpLog

structure Touches.sealWrite (N : Part → Prop) : Prop where
  c_refuse : Touches.refuse N 0xE004C
  c_sealSet : Touches.sealSet N

theorem Fits.sealWrite (m : Master) (v : Nat) (s : State) (h : Fits N s0 s) (tch : Touches.sealWrite N) :
    Fits N s0 (sealWrite m v s) := by
  obtain ⟨c_refuse, c_sealSet⟩ := tch
  unfold Sys2Proof.Machine.sealWrite
  repeat' first
    | with_reducible assumption
    | with_reducible apply Fits.refuse
    | with_reducible apply Fits.sealSet
    | (intro _)
    | with_reducible apply Fits.ite
    | dsimp only
    | split
    | (refine Fits.pair ‹_ = (_, _)› ?_)
    | (refine Fits.pair2 ‹_ = (_, _, _)› ?_)

structure Touches.execHmpSeal (N : Part → Prop) : Prop where
  c_goWrite : Touches.goWrite N 0xE004C
  c_sealWrite : Touches.sealWrite N

theorem FitsOut.execHmpSeal (m : Master) (s : State) (h : Fits N s0 s) (tch : Touches.execHmpSeal N) :
    FitsOut N s0 (execHmpSeal m s) := by
  obtain ⟨c_goWrite, c_sealWrite⟩ := tch
  unfold Sys2Proof.Machine.execHmpSeal
  repeat' first
    | with_reducible assumption
    | with_reducible apply Fits.sealWrite
    | with_reducible apply Fits.goWrite
    | with_reducible apply FitsOut.ite
    | with_reducible apply FitsOut.next
    | with_reducible apply FitsOut.fault
    | (intro _)
    | with_reducible apply Fits.ite
    | dsimp only
    | split
    | (refine Fits.pair ‹_ = (_, _)› ?_)
    | (refine Fits.pair2 ‹_ = (_, _, _)› ?_)

structure Touches.execHmpLogPop (N : Part → Prop) : Prop where
  c_goWrite : Touches.goWrite N 0xE2040
  c_logPop : Touches.logPop N

theorem FitsOut.execHmpLogPop (m : Master) (s : State) (h : Fits N s0 s) (tch : Touches.execHmpLogPop N) :
    FitsOut N s0 (execHmpLogPop m s) := by
  obtain ⟨c_goWrite, c_logPop⟩ := tch
  unfold Sys2Proof.Machine.execHmpLogPop
  repeat' first
    | with_reducible assumption
    | with_reducible apply Fits.logPop
    | with_reducible apply Fits.goWrite
    | with_reducible apply FitsOut.ite
    | with_reducible apply FitsOut.next
    | with_reducible apply FitsOut.fault
    | (intro _)
    | with_reducible apply Fits.ite
    | dsimp only
    | split
    | (refine Fits.pair ‹_ = (_, _)› ?_)
    | (refine Fits.pair2 ‹_ = (_, _, _)› ?_)

end Sys2Proof.Machine
end

