-- ==== Sys2Proof/Laws/FitsBus.lean ====
section
/-! SUPPORT. What the operations of Machine/Bus.lean touch (a structure of parts for each, over those of the operations it calls), and
that each keeps the canonical form. -/
set_option linter.unusedTactic false
set_option linter.unreachableTactic false
namespace Sys2Proof.Machine

variable {N : Part → Prop} {s0 : State}

structure Touches.fieldWrite (N : Part → Prop) : Prop where
  h_staged : N .staged
  k_any : ∀ k, N (.reg k)

theorem Fits.fieldWrite (addr : Nat) (v : Nat) (locked : Bool) (f : FSpec) (s : State) (h : Fits N s0 s) (tch : Touches.fieldWrite N) :
    Fits N s0 (fieldWrite addr v locked f s) := by
  obtain ⟨h_staged, k_any⟩ := tch
  unfold Sys2Proof.Machine.fieldWrite
  repeat' first
    | with_reducible assumption
    | with_reducible apply k_any
    | with_reducible apply Fits.setF
    | with_reducible apply Fits.stage
    | (intro _)
    | with_reducible apply Fits.ite
    | dsimp only
    | split
    | (refine Fits.pair ‹_ = (_, _)› ?_)
    | (refine Fits.pair2 ‹_ = (_, _, _)› ?_)

structure Touches.lockRefusal (N : Part → Prop) (addr : Nat) : Prop where
  c_refuse : Touches.refuse N addr

theorem Fits.lockRefusal (m : Master) (addr : Nat) (v : Nat) (fs : List FSpec) (s : State) (h : Fits N s0 s) (tch : Touches.lockRefusal N addr) :
    Fits N s0 (lockRefusal m addr v fs s) := by
  obtain ⟨c_refuse⟩ := tch
  unfold Sys2Proof.Machine.lockRefusal
  repeat' first
    | with_reducible assumption
    | with_reducible apply Fits.refuse
    | (intro _)
    | with_reducible apply Fits.ite
    | dsimp only
    | split
    | (refine Fits.pair ‹_ = (_, _)› ?_)
    | (refine Fits.pair2 ‹_ = (_, _, _)› ?_)

structure Touches.plainWrite (N : Part → Prop) : Prop where
  c_refuse : ∀ (a0 : Nat), Touches.refuse N a0
  c_fieldWrite : Touches.fieldWrite N
  c_lockRefusal : ∀ (a0 : Nat), Touches.lockRefusal N a0

theorem Fits.plainWrite (m : Master) (addr : Nat) (v : Nat) (s : State) (h : Fits N s0 s) (tch : Touches.plainWrite N) :
    Fits N s0 (plainWrite m addr v s) := by
  obtain ⟨c_refuse, c_fieldWrite, c_lockRefusal⟩ := tch
  unfold Sys2Proof.Machine.plainWrite
  repeat' first
    | with_reducible assumption
    | with_reducible exact c_refuse _
    | with_reducible exact c_lockRefusal _
    | with_reducible apply Fits.refuse
    | with_reducible apply Fits.fieldWrite
    | with_reducible apply Fits.lockRefusal
    | with_reducible apply Fits.forEach
    | (intro _)
    | with_reducible apply Fits.ite
    | dsimp only
    | split
    | (refine Fits.pair ‹_ = (_, _)› ?_)
    | (refine Fits.pair2 ‹_ = (_, _, _)› ?_)

structure Touches.headerRead (N : Part → Prop) (p : Nat) : Prop where
  h_ev : N .ev
  c_lockRead : Touches.lockRead N (.page (Fin.ofNat 256 p))

theorem Fits.headerRead (m : Master) (p : Nat) (off : Nat) (s : State) (h : Fits N s0 s) (tch : Touches.headerRead N p) :
    Fits N s0 (headerRead m p off s).2 := by
  obtain ⟨h_ev, c_lockRead⟩ := tch
  unfold Sys2Proof.Machine.headerRead
  repeat' first
    | with_reducible assumption
    | with_reducible apply Fits.access
    | with_reducible apply Fits.lockRead
    | (intro _)
    | with_reducible apply Fits.ite
    | dsimp only
    | split
    | (refine Fits.pair ‹_ = (_, _)› ?_)
    | (refine Fits.pair2 ‹_ = (_, _, _)› ?_)

structure Touches.pageIdle (N : Part → Prop) : Prop where
  c_txEval : ∀ (a0 : Nat), Touches.txEval N a0
  c_rxGo : ∀ (a0 : Nat), Touches.rxGo N a0
  c_losEval : ∀ (a0 : Nat), Touches.losEval N a0
  c_monAbort : Touches.monAbort N 0
  c_monAbort_1 : Touches.monAbort N 1

theorem Fits.pageIdle (p : Nat) (s : State) (h : Fits N s0 s) (tch : Touches.pageIdle N) :
    Fits N s0 (pageIdle p s) := by
  obtain ⟨c_txEval, c_rxGo, c_losEval, c_monAbort, c_monAbort_1⟩ := tch
  unfold Sys2Proof.Machine.pageIdle
  repeat' first
    | with_reducible assumption
    | with_reducible exact c_txEval _
    | with_reducible exact c_rxGo _
    | with_reducible exact c_losEval _
    | with_reducible apply Fits.txEval
    | with_reducible apply Fits.rxGo
    | with_reducible apply Fits.losEval
    | with_reducible apply Fits.monAbort
    | (intro _)
    | with_reducible apply Fits.ite
    | dsimp only
    | split
    | (refine Fits.pair ‹_ = (_, _)› ?_)
    | (refine Fits.pair2 ‹_ = (_, _, _)› ?_)

structure Touches.pageCtrl (N : Part → Prop) : Prop where
  k_PAGE_CTRL_commit_sync : ∀ (a0 : Nat), N (.reg (F.PAGE_CTRL_commit_sync a0).key)
  k_PAGE_CTRL_enable : ∀ (a0 : Nat), N (.reg (F.PAGE_CTRL_enable a0).key)
  k_PAGE_CTRL_freeze : ∀ (a0 : Nat), N (.reg (F.PAGE_CTRL_freeze a0).key)
  c_pageFreeze : Touches.pageFreeze N
  c_softReset : ∀ (a0 : Nat), Touches.softReset N a0
  c_pageIdle : Touches.pageIdle N

theorem Fits.pageCtrl (p : Nat) (v : Nat) (s : State) (h : Fits N s0 s) (tch : Touches.pageCtrl N) :
    Fits N s0 (pageCtrl p v s) := by
  obtain ⟨k_PAGE_CTRL_commit_sync, k_PAGE_CTRL_enable, k_PAGE_CTRL_freeze, c_pageFreeze, c_softReset, c_pageIdle⟩ := tch
  unfold Sys2Proof.Machine.pageCtrl
  repeat' first
    | with_reducible assumption
    | with_reducible apply k_PAGE_CTRL_commit_sync
    | with_reducible apply k_PAGE_CTRL_enable
    | with_reducible apply k_PAGE_CTRL_freeze
    | with_reducible exact c_softReset _
    | with_reducible apply Fits.setF
    | with_reducible apply Fits.setB
    | with_reducible apply Fits.pageFreeze
    | with_reducible apply Fits.softReset
    | with_reducible apply Fits.pageIdle
    | (intro _)
    | with_reducible apply Fits.ite
    | dsimp only
    | split
    | (refine Fits.pair ‹_ = (_, _)› ?_)
    | (refine Fits.pair2 ‹_ = (_, _, _)› ?_)

structure Touches.headerWrite (N : Part → Prop) : Prop where
  h_ev : N .ev
  k_ERR_code : ∀ (a0 : Nat), N (.reg (F.ERR_code a0).key)
  k_ERR_lost : ∀ (a0 : Nat), N (.reg (F.ERR_lost a0).key)
  k_ERR_step : ∀ (a0 : Nat), N (.reg (F.ERR_step a0).key)
  k_ERR_valid : ∀ (a0 : Nat), N (.reg (F.ERR_valid a0).key)
  k_EVT_EN : ∀ (a0 : Nat), N (.reg (F.EVT_EN a0).key)
  k_EVT_STICKY : ∀ (a0 : Nat), N (.reg (F.EVT_STICKY a0).key)
  c_goWrite : ∀ (a0 : Nat), Touches.goWrite N a0
  c_evtForce : ∀ (a0 : Nat), Touches.evtForce N a0
  c_lockWrite : ∀ (a0 : LockId), Touches.lockWrite N a0
  c_commitWrite : ∀ (a0 : Nat), Touches.commitWrite N a0
  c_pageSnap : ∀ (a0 : Nat), Touches.pageSnap N a0
  c_pageCtrl : Touches.pageCtrl N

theorem Fits.headerWrite (m : Master) (p : Nat) (off : Nat) (v : Nat) (s : State) (h : Fits N s0 s) (tch : Touches.headerWrite N) :
    Fits N s0 (headerWrite m p off v s) := by
  obtain ⟨h_ev, k_ERR_code, k_ERR_lost, k_ERR_step, k_ERR_valid, k_EVT_EN, k_EVT_STICKY, c_goWrite, c_evtForce, c_lockWrite, c_commitWrite, c_pageSnap, c_pageCtrl⟩ := tch
  unfold Sys2Proof.Machine.headerWrite
  repeat' first
    | with_reducible assumption
    | with_reducible apply k_ERR_code
    | with_reducible apply k_ERR_lost
    | with_reducible apply k_ERR_step
    | with_reducible apply k_ERR_valid
    | with_reducible apply k_EVT_EN
    | with_reducible apply k_EVT_STICKY
    | with_reducible exact c_goWrite _
    | with_reducible exact c_evtForce _
    | with_reducible exact c_lockWrite _
    | with_reducible exact c_commitWrite _
    | with_reducible exact c_pageSnap _
    | with_reducible apply Fits.setF
    | with_reducible apply Fits.setB
    | with_reducible apply Fits.msiRise
    | with_reducible apply Fits.access
    | with_reducible apply Fits.evtForce
    | with_reducible apply Fits.lockWrite
    | with_reducible apply Fits.commitWrite
    | with_reducible apply Fits.pageSnap
    | with_reducible apply Fits.pageCtrl
    | with_reducible apply Fits.goWrite
    | (intro _)
    | with_reducible apply Fits.ite
    | dsimp only
    | split
    | (refine Fits.pair ‹_ = (_, _)› ?_)
    | (refine Fits.pair2 ‹_ = (_, _, _)› ?_)

structure Touches.gpioLevel (N : Part → Prop) : Prop where
  k_GPIO_IN_in : N (.reg F.GPIO_IN_in.key)
  c_evt : Touches.evt N 0x06

theorem Fits.gpioLevel (n : Nat) (v : Bool) (s : State) (h : Fits N s0 s) (tch : Touches.gpioLevel N) :
    Fits N s0 (gpioLevel n v s) := by
  obtain ⟨k_GPIO_IN_in, c_evt⟩ := tch
  unfold Sys2Proof.Machine.gpioLevel
  repeat' first
    | with_reducible assumption
    | with_reducible apply k_GPIO_IN_in
    | with_reducible apply Fits.setF
    | with_reducible apply Fits.evt
    | (intro _)
    | with_reducible apply Fits.ite
    | dsimp only
    | split
    | (refine Fits.pair ‹_ = (_, _)› ?_)
    | (refine Fits.pair2 ‹_ = (_, _, _)› ?_)

structure Touches.gpioDrive (N : Part → Prop) : Prop where
  c_gpioLevel : Touches.gpioLevel N

theorem Fits.gpioDrive (s : State) (h : Fits N s0 s) (tch : Touches.gpioDrive N) :
    Fits N s0 (gpioDrive s) := by
  obtain ⟨c_gpioLevel⟩ := tch
  unfold Sys2Proof.Machine.gpioDrive
  repeat' first
    | with_reducible assumption
    | with_reducible apply Fits.gpioLevel
    | with_reducible apply Fits.forEach
    | (intro _)
    | with_reducible apply Fits.ite
    | dsimp only
    | split
    | (refine Fits.pair ‹_ = (_, _)› ?_)
    | (refine Fits.pair2 ‹_ = (_, _, _)› ?_)

structure Touches.execGpioEdge (N : Part → Prop) : Prop where
  c_gpioLevel : Touches.gpioLevel N

theorem FitsOut.execGpioEdge (n : Fin 16) (rising : Bool) (s : State) (h : Fits N s0 s) (tch : Touches.execGpioEdge N) :
    FitsOut N s0 (execGpioEdge n rising s) := by
  obtain ⟨c_gpioLevel⟩ := tch
  unfold Sys2Proof.Machine.execGpioEdge
  repeat' first
    | with_reducible assumption
    | with_reducible apply Fits.gpioLevel
    | with_reducible apply FitsOut.ite
    | with_reducible apply FitsOut.next
    | with_reducible apply FitsOut.fault
    | (intro _)
    | with_reducible apply Fits.ite
    | dsimp only
    | split
    | (refine Fits.pair ‹_ = (_, _)› ?_)
    | (refine Fits.pair2 ‹_ = (_, _, _)› ?_)

structure Touches.mbxWrite (N : Part → Prop) (n : Nat) (r : Nat) : Prop where
  h_ev : N .ev
  k_MBX_STAT_discard_cnt : N (.reg (F.MBX_STAT_discard_cnt n).key)
  k_MBX_STAT_discarded : N (.reg (F.MBX_STAT_discarded n).key)
  k_MBX_STAT_overrun : N (.reg (F.MBX_STAT_overrun n).key)
  k_MBX_STAT_timeout : N (.reg (F.MBX_STAT_timeout n).key)
  c_refuse : Touches.refuse N (0x9040 + 0x20 * n + r)
  c_goWrite : Touches.goWrite N (0x9040 + 0x20 * n + r)
  c_mbxTx : Touches.mbxTx N n
  c_mbxConfig : Touches.mbxConfig N n

theorem Fits.mbxWrite (m : Master) (n : Nat) (r : Nat) (v : Nat) (s : State) (h : Fits N s0 s) (tch : Touches.mbxWrite N n r) :
    Fits N s0 (mbxWrite m n r v s) := by
  obtain ⟨h_ev, k_MBX_STAT_discard_cnt, k_MBX_STAT_discarded, k_MBX_STAT_overrun, k_MBX_STAT_timeout, c_refuse, c_goWrite, c_mbxTx, c_mbxConfig⟩ := tch
  unfold Sys2Proof.Machine.mbxWrite
  repeat' first
    | with_reducible assumption
    | with_reducible apply k_MBX_STAT_discard_cnt
    | with_reducible apply k_MBX_STAT_discarded
    | with_reducible apply k_MBX_STAT_overrun
    | with_reducible apply k_MBX_STAT_timeout
    | with_reducible apply Fits.setF
    | with_reducible apply Fits.setB
    | with_reducible apply Fits.refuse
    | with_reducible apply Fits.access
    | with_reducible apply Fits.mbxTx
    | with_reducible apply Fits.mbxConfig
    | with_reducible apply Fits.goWrite
    | (intro _)
    | with_reducible apply Fits.ite
    | dsimp only
    | split
    | (refine Fits.pair ‹_ = (_, _)› ?_)
    | (refine Fits.pair2 ‹_ = (_, _, _)› ?_)

structure Touches.msixWrite (N : Part → Prop) : Prop where
  h_ev : N .ev
  k_any : ∀ k, N (.reg k)

theorem Fits.msixWrite (addr : Nat) (v : Nat) (s : State) (h : Fits N s0 s) (tch : Touches.msixWrite N) :
    Fits N s0 (msixWrite addr v s) := by
  obtain ⟨h_ev, k_any⟩ := tch
  unfold Sys2Proof.Machine.msixWrite
  repeat' first
    | with_reducible assumption
    | with_reducible apply k_any
    | with_reducible apply Fits.setF
    | with_reducible apply Fits.msiSend
    | (intro _)
    | with_reducible apply Fits.ite
    | dsimp only
    | split
    | (refine Fits.pair ‹_ = (_, _)› ?_)
    | (refine Fits.pair2 ‹_ = (_, _, _)› ?_)
    | with_reducible apply Fits.upd_ev

structure Touches.guardedWrite (N : Part → Prop) : Prop where
  h_thm : N .thm
  c_refuse : ∀ (a0 : Nat), Touches.refuse N a0
  c_plainWrite : Touches.plainWrite N

theorem Fits.guardedWrite (m : Master) (addr : Nat) (v : Nat) (s : State) (h : Fits N s0 s) (tch : Touches.guardedWrite N) :
    Fits N s0 (guardedWrite m addr v s) := by
  obtain ⟨h_thm, c_refuse, c_plainWrite⟩ := tch
  unfold Sys2Proof.Machine.guardedWrite
  repeat' first
    | with_reducible assumption
    | with_reducible exact c_refuse _
    | with_reducible apply Fits.refuse
    | with_reducible apply Fits.modThm
    | with_reducible apply Fits.plainWrite
    | (intro _)
    | with_reducible apply Fits.ite
    | dsimp only
    | split
    | (refine Fits.pair ‹_ = (_, _)› ?_)
    | (refine Fits.pair2 ‹_ = (_, _, _)› ?_)

structure Touches.bitGo (N : Part → Prop) (addr : Nat) : Prop where
  c_goWrite : Touches.goWrite N addr

theorem Fits.bitGo (m : Master) (addr : Nat) (v : Nat) (f : State → State) (s : State) (h : Fits N s0 s) (h_f : ∀ t, Fits N s0 t → Fits N s0 (f t)) (tch : Touches.bitGo N addr) :
    Fits N s0 (bitGo m addr v f s) := by
  obtain ⟨c_goWrite⟩ := tch
  unfold Sys2Proof.Machine.bitGo
  repeat' first
    | with_reducible assumption
    | with_reducible apply h_f
    | with_reducible apply Fits.goWrite
    | (intro _)
    | with_reducible apply Fits.ite
    | dsimp only
    | split
    | (refine Fits.pair ‹_ = (_, _)› ?_)
    | (refine Fits.pair2 ‹_ = (_, _, _)› ?_)

structure Touches.engineWrite (N : Part → Prop) (le : Nat) (addr : Nat) : Prop where
  k_LE_P2MP_BREC_CTRL_mode : N (.reg (F.LE_P2MP_BREC_CTRL_mode le).key)
  c_goWrite : Touches.goWrite N addr
  c_maskUnmute : Touches.maskUnmute N le
  c_lmsgGo : Touches.lmsgGo N le
  c_leafUnquiesce : Touches.leafUnquiesce N le
  c_brecPopDo : Touches.brecPopDo N le
  c_bitGo : Touches.bitGo N addr

theorem FitsSome.engineWrite (m : Master) (le : Nat) (q : Nat) (addr : Nat) (v : Nat)  (tch : Touches.engineWrite N le addr) :
    FitsSome N s0 (engineWrite m le q addr v) := by
  obtain ⟨k_LE_P2MP_BREC_CTRL_mode, c_goWrite, c_maskUnmute, c_lmsgGo, c_leafUnquiesce, c_brecPopDo, c_bitGo⟩ := tch
  unfold Sys2Proof.Machine.engineWrite
  repeat' first
    | with_reducible assumption
    | with_reducible apply k_LE_P2MP_BREC_CTRL_mode
    | with_reducible apply Fits.setF
    | with_reducible apply Fits.maskUnmute
    | with_reducible apply Fits.lmsgGo
    | with_reducible apply Fits.leafUnquiesce
    | with_reducible apply Fits.brecPopDo
    | with_reducible apply Fits.bitGo
    | with_reducible apply Fits.goWrite
    | exact (id ‹Fits N s0 _› : Fits N s0 (id _))
    | with_reducible apply FitsSome.none
    | with_reducible apply FitsSome.some
    | with_reducible apply FitsSome.ite
    | (intro _)
    | with_reducible apply Fits.ite
    | dsimp only
    | split
    | (refine Fits.pair ‹_ = (_, _)› ?_)
    | (refine Fits.pair2 ‹_ = (_, _, _)› ?_)

structure Touches.injWrite (N : Part → Prop) : Prop where
  k_BUF_INJ_CTRL_sym_a : N (.reg F.BUF_INJ_CTRL_sym_a.key)
  k_BUF_INJ_CTRL_sym_b : N (.reg F.BUF_INJ_CTRL_sym_b.key)
  k_BUF_INJ_CTRL_sym_c : N (.reg F.BUF_INJ_CTRL_sym_c.key)
  c_injGo : Touches.injGo N

theorem Fits.injWrite (v : Nat) (s : State) (h : Fits N s0 s) (tch : Touches.injWrite N) :
    Fits N s0 (injWrite v s) := by
  obtain ⟨k_BUF_INJ_CTRL_sym_a, k_BUF_INJ_CTRL_sym_b, k_BUF_INJ_CTRL_sym_c, c_injGo⟩ := tch
  unfold Sys2Proof.Machine.injWrite
  repeat' first
    | with_reducible assumption
    | with_reducible apply k_BUF_INJ_CTRL_sym_a
    | with_reducible apply k_BUF_INJ_CTRL_sym_b
    | with_reducible apply k_BUF_INJ_CTRL_sym_c
    | with_reducible apply Fits.setF
    | with_reducible apply Fits.injGo
    | (intro _)
    | with_reducible apply Fits.ite
    | dsimp only
    | split
    | (refine Fits.pair ‹_ = (_, _)› ?_)
    | (refine Fits.pair2 ‹_ = (_, _, _)› ?_)

structure Touches.eccWrite (N : Part → Prop) : Prop where
  h_buf : N .buf
  k_BUF_ECC_CTRL_ce_repeat : N (.reg F.BUF_ECC_CTRL_ce_repeat.key)
  k_BUF_ECC_CTRL_ce_window : N (.reg F.BUF_ECC_CTRL_ce_window.key)
  k_BUF_ECC_CTRL_wb_en : N (.reg F.BUF_ECC_CTRL_wb_en.key)

theorem Fits.eccWrite (v : Nat) (s : State) (h : Fits N s0 s) (tch : Touches.eccWrite N) :
    Fits N s0 (eccWrite v s) := by
  obtain ⟨h_buf, k_BUF_ECC_CTRL_ce_repeat, k_BUF_ECC_CTRL_ce_window, k_BUF_ECC_CTRL_wb_en⟩ := tch
  unfold Sys2Proof.Machine.eccWrite
  repeat' first
    | with_reducible assumption
    | with_reducible apply k_BUF_ECC_CTRL_ce_repeat
    | with_reducible apply k_BUF_ECC_CTRL_ce_window
    | with_reducible apply k_BUF_ECC_CTRL_wb_en
    | with_reducible apply Fits.setF
    | with_reducible apply Fits.hardClr
    | (intro _)
    | with_reducible apply Fits.ite
    | dsimp only
    | split
    | (refine Fits.pair ‹_ = (_, _)› ?_)
    | (refine Fits.pair2 ‹_ = (_, _, _)› ?_)

structure Touches.ptWrite (N : Part → Prop) (le : Nat) : Prop where
  k_UBH_PT_CMD_address : N (.reg (F.UBH_PT_CMD_address le).key)
  k_UBH_PT_CMD_length : N (.reg (F.UBH_PT_CMD_length le).key)
  k_UBH_PT_CMD_write : N (.reg (F.UBH_PT_CMD_write le).key)
  c_ptGo : Touches.ptGo N le

theorem Fits.ptWrite (le : Nat) (v : Nat) (s : State) (h : Fits N s0 s) (tch : Touches.ptWrite N le) :
    Fits N s0 (ptWrite le v s) := by
  obtain ⟨k_UBH_PT_CMD_address, k_UBH_PT_CMD_length, k_UBH_PT_CMD_write, c_ptGo⟩ := tch
  unfold Sys2Proof.Machine.ptWrite
  repeat' first
    | with_reducible assumption
    | with_reducible apply k_UBH_PT_CMD_address
    | with_reducible apply k_UBH_PT_CMD_length
    | with_reducible apply k_UBH_PT_CMD_write
    | with_reducible apply Fits.setF
    | with_reducible apply Fits.ptGo
    | (intro _)
    | with_reducible apply Fits.ite
    | dsimp only
    | split
    | (refine Fits.pair ‹_ = (_, _)› ?_)
    | (refine Fits.pair2 ‹_ = (_, _, _)› ?_)

structure Touches.monCmdWrite (N : Part → Prop) (le : Nat) : Prop where
  c_monAbort : Touches.monAbort N le
  c_monTrigGo : Touches.monTrigGo N le
  c_monRearm : Touches.monRearm N le

theorem Fits.monCmdWrite (le : Nat) (v : Nat) (s : State) (h : Fits N s0 s) (tch : Touches.monCmdWrite N le) :
    Fits N s0 (monCmdWrite le v s) := by
  obtain ⟨c_monAbort, c_monTrigGo, c_monRearm⟩ := tch
  unfold Sys2Proof.Machine.monCmdWrite
  repeat' first
    | with_reducible assumption
    | with_reducible apply Fits.monAbort
    | with_reducible apply Fits.monTrigGo
    | with_reducible apply Fits.monRearm
    | (intro _)
    | with_reducible apply Fits.ite
    | dsimp only
    | split
    | (refine Fits.pair ‹_ = (_, _)› ?_)
    | (refine Fits.pair2 ‹_ = (_, _, _)› ?_)

structure Touches.repCmdWrite (N : Part → Prop) : Prop where
  h_rep : N .rep
  c_nextPipeTest : Touches.nextPipeTest N
  c_repDpllTest : Touches.repDpllTest N

theorem Fits.repCmdWrite (v : Nat) (s : State) (h : Fits N s0 s) (tch : Touches.repCmdWrite N) :
    Fits N s0 (repCmdWrite v s) := by
  obtain ⟨h_rep, c_nextPipeTest, c_repDpllTest⟩ := tch
  unfold Sys2Proof.Machine.repCmdWrite
  repeat' first
    | with_reducible assumption
    | with_reducible apply Fits.nextPipeTest
    | with_reducible apply Fits.repDpllTest
    | with_reducible apply Fits.monTestGo
    | (intro _)
    | with_reducible apply Fits.ite
    | dsimp only
    | split
    | (refine Fits.pair ‹_ = (_, _)› ?_)
    | (refine Fits.pair2 ‹_ = (_, _, _)› ?_)

structure Touches.calFgWrite (N : Part → Prop) : Prop where
  k_CAL_FG_adc : N (.reg F.CAL_FG_adc.key)
  k_CAL_FG_dac : N (.reg F.CAL_FG_dac.key)
  k_CAL_FG_engine : N (.reg F.CAL_FG_engine.key)
  k_CAL_FG_fec : N (.reg F.CAL_FG_fec.key)
  c_fgGo : Touches.fgGo N

theorem Fits.calFgWrite (v : Nat) (s : State) (h : Fits N s0 s) (tch : Touches.calFgWrite N) :
    Fits N s0 (calFgWrite v s) := by
  obtain ⟨k_CAL_FG_adc, k_CAL_FG_dac, k_CAL_FG_engine, k_CAL_FG_fec, c_fgGo⟩ := tch
  unfold Sys2Proof.Machine.calFgWrite
  repeat' first
    | with_reducible assumption
    | with_reducible apply k_CAL_FG_adc
    | with_reducible apply k_CAL_FG_dac
    | with_reducible apply k_CAL_FG_engine
    | with_reducible apply k_CAL_FG_fec
    | with_reducible apply Fits.setF
    | with_reducible apply Fits.fgGo
    | (intro _)
    | with_reducible apply Fits.ite
    | dsimp only
    | split
    | (refine Fits.pair ‹_ = (_, _)› ?_)
    | (refine Fits.pair2 ‹_ = (_, _, _)› ?_)

structure Touches.thmCmdWrite (N : Part → Prop) : Prop where
  c_thmTrigger : Touches.thmTrigger N
  c_calGo : Touches.calGo N

theorem Fits.thmCmdWrite (v : Nat) (s : State) (h : Fits N s0 s) (tch : Touches.thmCmdWrite N) :
    Fits N s0 (thmCmdWrite v s) := by
  obtain ⟨c_thmTrigger, c_calGo⟩ := tch
  unfold Sys2Proof.Machine.thmCmdWrite
  repeat' first
    | with_reducible assumption
    | with_reducible apply Fits.thmTrigger
    | with_reducible apply Fits.calGo
    | (intro _)
    | with_reducible apply Fits.ite
    | dsimp only
    | split
    | (refine Fits.pair ‹_ = (_, _)› ?_)
    | (refine Fits.pair2 ‹_ = (_, _, _)› ?_)

structure Touches.blockWrite (N : Part → Prop) : Prop where
  h_ev : N .ev
  c_goWrite : ∀ (a0 : Nat), Touches.goWrite N a0
  c_mbxHostReset : Touches.mbxHostReset N
  c_vecEoi : Touches.vecEoi N
  c_kxStart : Touches.kxStart N
  c_bankCopy : Touches.bankCopy N
  c_poolReport : Touches.poolReport N
  c_bufLogPop : Touches.bufLogPop N
  c_retireGo : Touches.retireGo N
  c_rowrepGo : Touches.rowrepGo N
  c_ubhCtrl : Touches.ubhCtrl N 0
  c_ubhCtrl_1 : Touches.ubhCtrl N 1
  c_timeCtrl : Touches.timeCtrl N
  c_evlTail : Touches.evlTail N
  c_freezeWrite : Touches.freezeWrite N
  c_smpCtrl : Touches.smpCtrl N
  c_refEnable : Touches.refEnable N
  c_thmPop : Touches.thmPop N
  c_syncFire : Touches.syncFire N
  c_resetWrite : Touches.resetWrite N
  c_modeWrite : Touches.modeWrite N
  c_alarmWrite : Touches.alarmWrite N
  c_logPop : Touches.logPop N
  c_sealWrite : Touches.sealWrite N
  c_plainWrite : Touches.plainWrite N
  c_gpioDrive : Touches.gpioDrive N
  c_bitGo : ∀ (a0 : Nat), Touches.bitGo N a0
  c_injWrite : Touches.injWrite N
  c_eccWrite : Touches.eccWrite N
  c_ptWrite : Touches.ptWrite N 0
  c_ptWrite_1 : Touches.ptWrite N 1
  c_monCmdWrite : Touches.monCmdWrite N 0
  c_monCmdWrite_1 : Touches.monCmdWrite N 1
  c_repCmdWrite : Touches.repCmdWrite N
  c_calFgWrite : Touches.calFgWrite N
  c_thmCmdWrite : Touches.thmCmdWrite N

theorem FitsSome.blockWrite (m : Master) (addr : Nat) (v : Nat)  (tch : Touches.blockWrite N) :
    FitsSome N s0 (blockWrite m addr v) := by
  obtain ⟨h_ev, c_goWrite, c_mbxHostReset, c_vecEoi, c_kxStart, c_bankCopy, c_poolReport, c_bufLogPop, c_retireGo, c_rowrepGo, c_ubhCtrl, c_ubhCtrl_1, c_timeCtrl, c_evlTail, c_freezeWrite, c_smpCtrl, c_refEnable, c_thmPop, c_syncFire, c_resetWrite, c_modeWrite, c_alarmWrite, c_logPop, c_sealWrite, c_plainWrite, c_gpioDrive, c_bitGo, c_injWrite, c_eccWrite, c_ptWrite, c_ptWrite_1, c_monCmdWrite, c_monCmdWrite_1, c_repCmdWrite, c_calFgWrite, c_thmCmdWrite⟩ := tch
  unfold Sys2Proof.Machine.blockWrite
  repeat' first
    | with_reducible assumption
    | with_reducible exact c_goWrite _
    | with_reducible exact c_bitGo _
    | with_reducible apply Fits.access
    | with_reducible apply Fits.mbxHostReset
    | with_reducible apply Fits.vecEoi
    | with_reducible apply Fits.kxStart
    | with_reducible apply Fits.bankCopy
    | with_reducible apply Fits.poolReport
    | with_reducible apply Fits.bufLogPop
    | with_reducible apply Fits.retireGo
    | with_reducible apply Fits.rowrepGo
    | with_reducible apply Fits.ubhCtrl
    | with_reducible apply Fits.timeCtrl
    | with_reducible apply Fits.evlTail
    | with_reducible apply Fits.freezeWrite
    | with_reducible apply Fits.smpCtrl
    | with_reducible apply Fits.refEnable
    | with_reducible apply Fits.thmPop
    | with_reducible apply Fits.syncFire
    | with_reducible apply Fits.resetWrite
    | with_reducible apply Fits.modeWrite
    | with_reducible apply Fits.alarmWrite
    | with_reducible apply Fits.logPop
    | with_reducible apply Fits.sealWrite
    | with_reducible apply Fits.plainWrite
    | with_reducible apply Fits.gpioDrive
    | with_reducible apply Fits.bitGo
    | with_reducible apply Fits.injWrite
    | with_reducible apply Fits.eccWrite
    | with_reducible apply Fits.ptWrite
    | with_reducible apply Fits.monCmdWrite
    | with_reducible apply Fits.repCmdWrite
    | with_reducible apply Fits.calFgWrite
    | with_reducible apply Fits.thmCmdWrite
    | with_reducible apply Fits.goWrite
    | exact (id ‹Fits N s0 _› : Fits N s0 (id _))
    | with_reducible apply FitsSome.none
    | with_reducible apply FitsSome.some
    | with_reducible apply FitsSome.ite
    | (intro _)
    | with_reducible apply Fits.ite
    | dsimp only
    | split
    | (refine Fits.pair ‹_ = (_, _)› ?_)
    | (refine Fits.pair2 ‹_ = (_, _, _)› ?_)

structure Touches.windowWrites (N : Part → Prop) : Prop where
  h_ev : N .ev
  c_goWrite : ∀ (a0 : Nat), Touches.goWrite N a0
  c_winWrite : ∀ (a0 : Nat), Touches.winWrite N a0
  c_windowWrite : ∀ (a0 : Nat), Touches.windowWrite N a0
  c_trimWrite : ∀ (a0 : Nat) (a1 : Nat) (a2 : Nat), Touches.trimWrite N a0 a1 a2
  c_cntTake : Touches.cntTake N
  c_cntSel : ∀ (a0 : Nat), Touches.cntSel N a0
  c_cntLo : ∀ (a0 : Nat), Touches.cntLo N a0
  c_cntHi : ∀ (a0 : Nat), Touches.cntHi N a0
  c_plainWrite : Touches.plainWrite N
  c_msixWrite : Touches.msixWrite N

theorem FitsSome.windowWrites (m : Master) (addr : Nat) (v : Nat)  (tch : Touches.windowWrites N) :
    FitsSome N s0 (windowWrites m addr v) := by
  obtain ⟨h_ev, c_goWrite, c_winWrite, c_windowWrite, c_trimWrite, c_cntTake, c_cntSel, c_cntLo, c_cntHi, c_plainWrite, c_msixWrite⟩ := tch
  unfold Sys2Proof.Machine.windowWrites
  repeat' first
    | with_reducible assumption
    | with_reducible exact c_goWrite _
    | with_reducible exact c_winWrite _
    | with_reducible exact c_windowWrite _
    | with_reducible exact c_trimWrite _ _ _
    | with_reducible exact c_cntSel _
    | with_reducible exact c_cntLo _
    | with_reducible exact c_cntHi _
    | with_reducible apply Fits.access
    | with_reducible apply Fits.winWrite
    | with_reducible apply Fits.windowWrite
    | with_reducible apply Fits.trimWrite
    | with_reducible apply Fits.cntTake
    | with_reducible apply Fits.cntSel
    | with_reducible apply Fits.cntLo
    | with_reducible apply Fits.cntHi
    | with_reducible apply Fits.plainWrite
    | with_reducible apply Fits.msixWrite
    | with_reducible apply Fits.goWrite
    | with_reducible apply FitsSome.none
    | with_reducible apply FitsSome.some
    | with_reducible apply FitsSome.ite
    | (intro _)
    | with_reducible apply Fits.ite
    | dsimp only
    | split
    | (refine Fits.pair ‹_ = (_, _)› ?_)
    | (refine Fits.pair2 ‹_ = (_, _, _)› ?_)

structure Touches.xbufWrite (N : Part → Prop) : Prop where
  c_plainWrite : Touches.plainWrite N

theorem Fits.xbufWrite (m : Master) (addr : Nat) (v : Nat) (s : State) (h : Fits N s0 s) (tch : Touches.xbufWrite N) :
    Fits N s0 (xbufWrite m addr v s) := by
  obtain ⟨c_plainWrite⟩ := tch
  unfold Sys2Proof.Machine.xbufWrite
  repeat' first
    | with_reducible assumption
    | with_reducible apply Fits.plainWrite
    | (intro _)
    | with_reducible apply Fits.ite
    | dsimp only
    | split
    | (refine Fits.pair ‹_ = (_, _)› ?_)
    | (refine Fits.pair2 ‹_ = (_, _, _)› ?_)

structure Touches.busWrite (N : Part → Prop) : Prop where
  h_ev : N .ev
  c_refuse : ∀ (a0 : Nat), Touches.refuse N a0
  c_lockWrite : ∀ (a0 : LockId), Touches.lockWrite N a0
  c_modeWrite : Touches.modeWrite N
  c_plainWrite : Touches.plainWrite N
  c_headerWrite : Touches.headerWrite N
  c_mbxWrite : ∀ (a0 : Nat) (a1 : Nat), Touches.mbxWrite N a0 a1
  c_guardedWrite : Touches.guardedWrite N
  c_engineWrite : ∀ (a0 : Nat) (a1 : Nat), Touches.engineWrite N a0 a1
  c_blockWrite : Touches.blockWrite N
  c_windowWrites : Touches.windowWrites N
  c_xbufWrite : Touches.xbufWrite N

theorem Fits.busWrite (m : Master) (addr : Nat) (v : Nat) (s : State) (h : Fits N s0 s) (tch : Touches.busWrite N) :
    Fits N s0 (busWrite m addr v s) := by
  obtain ⟨h_ev, c_refuse, c_lockWrite, c_modeWrite, c_plainWrite, c_headerWrite, c_mbxWrite, c_guardedWrite, c_engineWrite, c_blockWrite, c_windowWrites, c_xbufWrite⟩ := tch
  unfold Sys2Proof.Machine.busWrite
  have hw : FitsSome N s0 (windowWrites m addr v) := by with_reducible apply FitsSome.windowWrites <;> (first | with_reducible assumption | with_reducible exact c_refuse _ | with_reducible exact c_lockWrite _ | with_reducible exact c_mbxWrite _ _ | with_reducible exact c_engineWrite _ _)
  have hb : FitsSome N s0 (blockWrite m addr v) := by with_reducible apply FitsSome.blockWrite <;> (first | with_reducible assumption | with_reducible exact c_refuse _ | with_reducible exact c_lockWrite _ | with_reducible exact c_mbxWrite _ _ | with_reducible exact c_engineWrite _ _)
  have he : ∀ le q, FitsSome N s0 (engineWrite m le q addr v) := fun le q => by
    with_reducible apply FitsSome.engineWrite <;> (first | with_reducible assumption | with_reducible exact c_refuse _ | with_reducible exact c_lockWrite _ | with_reducible exact c_mbxWrite _ _ | with_reducible exact c_engineWrite _ _)
  generalize windowWrites m addr v = w at hw ⊢
  generalize blockWrite m addr v = b at hb ⊢
  dsimp only
  have ha : Fits N s0 (State.access m s) := by with_reducible apply Fits.access <;> (first | with_reducible assumption | with_reducible exact c_refuse _ | with_reducible exact c_lockWrite _ | with_reducible exact c_mbxWrite _ _ | with_reducible exact c_engineWrite _ _)
  have hp : Fits N s0 (Machine.plainWrite m addr v (State.access m s)) := by with_reducible apply Fits.plainWrite <;> (first | with_reducible assumption | with_reducible exact c_refuse _ | with_reducible exact c_lockWrite _ | with_reducible exact c_mbxWrite _ _ | with_reducible exact c_engineWrite _ _)
  refine Fits.ite (fun _ => ?_) fun _ => Fits.ite (fun _ => h) fun _ => Fits.ite (fun _ => ?_) fun _ =>
    Fits.ite (fun _ => ?_) fun _ => Fits.ite (fun _ => ?_) fun _ => ?_
  · with_reducible apply Fits.modeWrite <;> (first | with_reducible assumption | with_reducible exact c_refuse _ | with_reducible exact c_lockWrite _ | with_reducible exact c_mbxWrite _ _ | with_reducible exact c_engineWrite _ _)
  · with_reducible apply Fits.refuse <;> (first | with_reducible assumption | with_reducible exact c_refuse _ | with_reducible exact c_lockWrite _ | with_reducible exact c_mbxWrite _ _ | with_reducible exact c_engineWrite _ _)
  · cases w with
    | none => exact hp
    | some f => exact hw.fits f rfl s h
  · with_reducible apply Fits.headerWrite <;> (first | with_reducible assumption | with_reducible exact c_refuse _ | with_reducible exact c_lockWrite _ | with_reducible exact c_mbxWrite _ _ | with_reducible exact c_engineWrite _ _)
  · have hs : FitsSome N s0 (if 16 ≤ pageOf addr ∧ pageOf addr ≤ 143 then
        engineWrite m (if pageOf addr < 80 then 0 else 1) (pageOf addr - 64 * if pageOf addr < 80 then 0 else 1) addr v else b) :=
      FitsSome.ite (fun _ => he _ _) fun _ => hb
    generalize (if 16 ≤ pageOf addr ∧ pageOf addr ≤ 143 then
      engineWrite m (if pageOf addr < 80 then 0 else 1) (pageOf addr - 64 * if pageOf addr < 80 then 0 else 1) addr v else b) = o
      at hs ⊢
    cases o with
    | some f => exact hs.fits f rfl s h
    | none =>
      refine Fits.ite (fun _ => ?_) fun _ => Fits.ite (fun _ => ?_) fun _ => Fits.ite (fun _ => ?_) fun _ =>
        Fits.ite (fun _ => ?_) fun _ => Fits.ite (fun _ => ?_) fun _ => hp
      · with_reducible apply Fits.lockWrite <;> (first | with_reducible assumption | with_reducible exact c_refuse _ | with_reducible exact c_lockWrite _ | with_reducible exact c_mbxWrite _ _ | with_reducible exact c_engineWrite _ _)
      · with_reducible apply Fits.mbxWrite <;> (first | with_reducible assumption | with_reducible exact c_refuse _ | with_reducible exact c_lockWrite _ | with_reducible exact c_mbxWrite _ _ | with_reducible exact c_engineWrite _ _)
      · with_reducible apply Fits.guardedWrite <;> (first | with_reducible assumption | with_reducible exact c_refuse _ | with_reducible exact c_lockWrite _ | with_reducible exact c_mbxWrite _ _ | with_reducible exact c_engineWrite _ _)
      · with_reducible apply Fits.xbufWrite <;> (first | with_reducible assumption | with_reducible exact c_refuse _ | with_reducible exact c_lockWrite _ | with_reducible exact c_mbxWrite _ _ | with_reducible exact c_engineWrite _ _)
      · with_reducible apply Fits.msiRise <;> (first | with_reducible assumption | with_reducible exact c_refuse _ | with_reducible exact c_lockWrite _ | with_reducible exact c_mbxWrite _ _ | with_reducible exact c_engineWrite _ _)

structure Touches.countRead (N : Part → Prop) : Prop where
  h_cnt : N .cnt
  k_any : ∀ k, N (.reg k)

theorem Fits.countRead (addr : Nat) (f : FSpec) (s : State) (h : Fits N s0 s) (tch : Touches.countRead N) :
    Fits N s0 (countRead addr f s).2 := by
  obtain ⟨h_cnt, k_any⟩ := tch
  unfold Sys2Proof.Machine.countRead
  repeat' first
    | with_reducible assumption
    | with_reducible apply k_any
    | with_reducible apply Fits.setF
    | with_reducible apply Fits.modCnt
    | (intro _)
    | with_reducible apply Fits.ite
    | dsimp only
    | split
    | (refine Fits.pair ‹_ = (_, _)› ?_)
    | (refine Fits.pair2 ‹_ = (_, _, _)› ?_)

structure Touches.fieldRead (N : Part → Prop) : Prop where
  c_countRead : Touches.countRead N

theorem Fits.fieldRead (addr : Nat) (f : FSpec) (s : State) (h : Fits N s0 s) (tch : Touches.fieldRead N) :
    Fits N s0 (fieldRead addr f s).2 := by
  obtain ⟨c_countRead⟩ := tch
  unfold Sys2Proof.Machine.fieldRead
  repeat' first
    | with_reducible assumption
    | with_reducible apply Fits.countRead
    | (intro _)
    | with_reducible apply Fits.ite
    | dsimp only
    | split
    | (refine Fits.pair ‹_ = (_, _)› ?_)
    | (refine Fits.pair2 ‹_ = (_, _, _)› ?_)

structure Touches.fieldsRead (N : Part → Prop) : Prop where
  c_fieldRead : Touches.fieldRead N

theorem Fits.fieldsRead (addr : Nat) (x0 : List FSpec) (s : State) (h : Fits N s0 s) (tch : Touches.fieldsRead N) :
    Fits N s0 (fieldsRead addr x0 s).2 := by
  obtain ⟨c_fieldRead⟩ := tch
  induction x0 generalizing s with
  | nil =>
    unfold Sys2Proof.Machine.fieldsRead
    repeat' first
      | with_reducible assumption
      | with_reducible apply Fits.fieldRead
      | (intro _)
      | with_reducible apply Fits.ite
      | dsimp only
      | split
      | (refine Fits.pair ‹_ = (_, _)› ?_)
      | (refine Fits.pair2 ‹_ = (_, _, _)› ?_)
  | cons f fs ih =>
    unfold Sys2Proof.Machine.fieldsRead
    repeat' first
      | with_reducible apply ih
      | with_reducible assumption
      | with_reducible apply Fits.fieldRead
      | (intro _)
      | with_reducible apply Fits.ite
      | dsimp only
      | split
      | (refine Fits.pair ‹_ = (_, _)› ?_)
      | (refine Fits.pair2 ‹_ = (_, _, _)› ?_)

theorem Fits.measuredRead (fs : List FSpec) (s : State) (h : Fits N s0 s) (h_drawn : N .drawn) :
    Fits N s0 (measuredRead fs s).2 := by
  unfold Sys2Proof.Machine.measuredRead
  repeat' first
    | with_reducible assumption
    | with_reducible apply Fits.draw
    | with_reducible apply Fits.foldlPair
    | with_reducible apply Fits.foldl
    | (intro _)
    | with_reducible apply Fits.ite
    | dsimp only
    | split
    | (refine Fits.pair ‹_ = (_, _)› ?_)
    | (refine Fits.pair2 ‹_ = (_, _, _)› ?_)

structure Touches.blockRead (N : Part → Prop) : Prop where
  h_drawn : N .drawn
  c_fieldsRead : Touches.fieldsRead N

theorem Fits.blockRead (addr : Nat) (s : State) (h : Fits N s0 s) (tch : Touches.blockRead N) :
    Fits N s0 (blockRead addr s).2 := by
  obtain ⟨h_drawn, c_fieldsRead⟩ := tch
  unfold Sys2Proof.Machine.blockRead
  repeat' first
    | with_reducible assumption
    | with_reducible apply Fits.fieldsRead
    | with_reducible apply Fits.measuredRead
    | (intro _)
    | with_reducible apply Fits.ite
    | dsimp only
    | split
    | (refine Fits.pair ‹_ = (_, _)› ?_)
    | (refine Fits.pair2 ‹_ = (_, _, _)› ?_)

structure Touches.busRead (N : Part → Prop) : Prop where
  h_clsMem : N .clsMem
  h_ev : N .ev
  c_lockRead : ∀ (a0 : LockId), Touches.lockRead N a0
  c_mbxRx : ∀ (a0 : Nat), Touches.mbxRx N a0
  c_windowRead : Touches.windowRead N
  c_headerRead : ∀ (a0 : Nat), Touches.headerRead N a0
  c_blockRead : Touches.blockRead N

theorem Fits.busRead (m : Master) (addr : Nat) (s : State) (h : Fits N s0 s) (tch : Touches.busRead N) :
    Fits N s0 (busRead m addr s).2 := by
  obtain ⟨h_clsMem, h_ev, c_lockRead, c_mbxRx, c_windowRead, c_headerRead, c_blockRead⟩ := tch
  unfold Sys2Proof.Machine.busRead
  repeat' first
    | with_reducible assumption
    | with_reducible exact c_lockRead _
    | with_reducible exact c_mbxRx _
    | with_reducible exact c_headerRead _
    | with_reducible apply Fits.access
    | with_reducible apply Fits.lockRead
    | with_reducible apply Fits.mbxRx
    | with_reducible apply Fits.winRead
    | with_reducible apply Fits.windowRead
    | with_reducible apply Fits.headerRead
    | with_reducible apply Fits.blockRead
    | (intro _)
    | with_reducible apply Fits.ite
    | dsimp only
    | split
    | (refine Fits.pair ‹_ = (_, _)› ?_)
    | (refine Fits.pair2 ‹_ = (_, _, _)› ?_)

end Sys2Proof.Machine
end

