-- ==== Sys2Proof/Laws/FitsTrust.lean ====
section
/-! SUPPORT. What the operations of Machine/Trust.lean touch (a structure of parts for each, over those of the operations it calls), and
that each keeps the canonical form. -/
set_option linter.unusedTactic false
set_option linter.unreachableTactic false
namespace Sys2Proof.Machine

variable {N : Part → Prop} {s0 : State}

structure Touches.enclaveReply (N : Part → Prop) : Prop where
  c_replySend : ∀ (a0 : Nat), Touches.replySend N a0

theorem Fits.enclaveReply (fw : Bool) (op : Nat) (status : Nat) (id : Nat) (more : List Nat) (s : State) (h : Fits N s0 s) (tch : Touches.enclaveReply N) :
    Fits N s0 (enclaveReply fw op status id more s) := by
  obtain ⟨c_replySend⟩ := tch
  unfold Sys2Proof.Machine.enclaveReply
  repeat' first
    | with_reducible assumption
    | with_reducible exact c_replySend _
    | with_reducible apply Fits.replySend
    | (intro _)
    | with_reducible apply Fits.ite
    | dsimp only
    | split
    | (refine Fits.pair ‹_ = (_, _)› ?_)
    | (refine Fits.pair2 ‹_ = (_, _, _)› ?_)

theorem Fits.openWords (x0 : Nat) (s : State) (h : Fits N s0 s) (h_drawn : N .drawn) :
    Fits N s0 (openWords x0 s).2 := by
  induction x0 generalizing s with
  | zero =>
    unfold Sys2Proof.Machine.openWords
    repeat' first
      | with_reducible assumption
      | with_reducible apply Fits.draw
      | (intro _)
      | with_reducible apply Fits.ite
      | dsimp only
      | split
      | (refine Fits.pair ‹_ = (_, _)› ?_)
      | (refine Fits.pair2 ‹_ = (_, _, _)› ?_)
  | succ n ih =>
    unfold Sys2Proof.Machine.openWords
    repeat' first
      | with_reducible apply ih
      | with_reducible assumption
      | with_reducible apply Fits.draw
      | (intro _)
      | with_reducible apply Fits.ite
      | dsimp only
      | split
      | (refine Fits.pair ‹_ = (_, _)› ?_)
      | (refine Fits.pair2 ‹_ = (_, _, _)› ?_)

structure Touches.enclaveRefuse (N : Part → Prop) : Prop where
  h_drawn : N .drawn
  c_enclaveReply : Touches.enclaveReply N

theorem Fits.enclaveRefuse (fw : Bool) (op : Nat) (status : Nat) (id : Nat) (n : Nat) (s : State) (h : Fits N s0 s) (tch : Touches.enclaveRefuse N) :
    Fits N s0 (enclaveRefuse fw op status id n s) := by
  obtain ⟨h_drawn, c_enclaveReply⟩ := tch
  unfold Sys2Proof.Machine.enclaveRefuse
  repeat' first
    | with_reducible assumption
    | with_reducible apply Fits.enclaveReply
    | with_reducible apply Fits.openWords
    | (intro _)
    | with_reducible apply Fits.ite
    | dsimp only
    | split
    | (refine Fits.pair ‹_ = (_, _)› ?_)
    | (refine Fits.pair2 ‹_ = (_, _, _)› ?_)

structure Touches.xbufPut (N : Part → Prop) : Prop where
  k_ENC_XBUF_bytes : ∀ (a0 : Nat), N (.reg (F.ENC_XBUF_bytes a0).key)

theorem Fits.xbufPut (b : List Byte) (s : State) (h : Fits N s0 s) (tch : Touches.xbufPut N) :
    Fits N s0 (xbufPut b s) := by
  obtain ⟨k_ENC_XBUF_bytes⟩ := tch
  unfold Sys2Proof.Machine.xbufPut
  repeat' first
    | with_reducible assumption
    | with_reducible apply k_ENC_XBUF_bytes
    | with_reducible apply Fits.setF
    | with_reducible apply Fits.forEach
    | (intro _)
    | with_reducible apply Fits.ite
    | dsimp only
    | split
    | (refine Fits.pair ‹_ = (_, _)› ?_)
    | (refine Fits.pair2 ‹_ = (_, _, _)› ?_)

theorem Fits.modEnc (f : Enc → Enc) (s : State) (h : Fits N s0 s) (h_enc : N .enc) :
    Fits N s0 (modEnc f s) := by
  unfold Sys2Proof.Machine.modEnc
  repeat' first
    | with_reducible assumption
    | (intro _)
    | with_reducible apply Fits.ite
    | dsimp only
    | split
    | (refine Fits.pair ‹_ = (_, _)› ?_)
    | (refine Fits.pair2 ‹_ = (_, _, _)› ?_)
    | with_reducible apply Fits.upd_enc

structure Touches.encReport (N : Part → Prop) : Prop where
  k_ENC_STAT_bcr_keys : N (.reg F.ENC_STAT_bcr_keys.key)
  k_ENC_STAT_claimed : N (.reg F.ENC_STAT_claimed.key)
  k_ENC_STAT_klk_valid : N (.reg F.ENC_STAT_klk_valid.key)
  k_ENC_STAT_officers : N (.reg F.ENC_STAT_officers.key)
  k_ENC_STAT_pending : N (.reg F.ENC_STAT_pending.key)
  k_ENC_STAT_response : N (.reg F.ENC_STAT_response.key)

theorem Fits.encReport (s : State) (h : Fits N s0 s) (tch : Touches.encReport N) :
    Fits N s0 (encReport s) := by
  obtain ⟨k_ENC_STAT_bcr_keys, k_ENC_STAT_claimed, k_ENC_STAT_klk_valid, k_ENC_STAT_officers, k_ENC_STAT_pending, k_ENC_STAT_response⟩ := tch
  unfold Sys2Proof.Machine.encReport
  repeat' first
    | with_reducible assumption
    | with_reducible apply k_ENC_STAT_bcr_keys
    | with_reducible apply k_ENC_STAT_claimed
    | with_reducible apply k_ENC_STAT_klk_valid
    | with_reducible apply k_ENC_STAT_officers
    | with_reducible apply k_ENC_STAT_pending
    | with_reducible apply k_ENC_STAT_response
    | with_reducible apply Fits.setF
    | with_reducible apply Fits.setB
    | (intro _)
    | with_reducible apply Fits.ite
    | dsimp only
    | split
    | (refine Fits.pair ‹_ = (_, _)› ?_)
    | (refine Fits.pair2 ‹_ = (_, _, _)› ?_)

structure Touches.handleFree (N : Part → Prop) : Prop where
  h_enc : N .enc
  c_encReport : Touches.encReport N

theorem Fits.handleFree (hh : Nat) (s : State) (h : Fits N s0 s) (tch : Touches.handleFree N) :
    Fits N s0 (handleFree hh s) := by
  obtain ⟨h_enc, c_encReport⟩ := tch
  unfold Sys2Proof.Machine.handleFree
  repeat' first
    | with_reducible assumption
    | with_reducible apply Fits.modEnc
    | with_reducible apply Fits.encReport
    | (intro _)
    | with_reducible apply Fits.ite
    | dsimp only
    | split
    | (refine Fits.pair ‹_ = (_, _)› ?_)
    | (refine Fits.pair2 ‹_ = (_, _, _)› ?_)

structure Touches.execNonceGet (N : Part → Prop) : Prop where
  h_drawn : N .drawn
  h_enc : N .enc
  c_enclaveReply : Touches.enclaveReply N
  c_enclaveRefuse : Touches.enclaveRefuse N
  c_encReport : Touches.encReport N

theorem FitsOut.execNonceGet (fw : Bool) (id : BitVec 16) (words : List Word) (s : State) (h : Fits N s0 s) (tch : Touches.execNonceGet N) :
    FitsOut N s0 (execNonceGet fw id words s) := by
  obtain ⟨h_drawn, h_enc, c_enclaveReply, c_enclaveRefuse, c_encReport⟩ := tch
  unfold Sys2Proof.Machine.execNonceGet
  repeat' first
    | with_reducible assumption
    | with_reducible apply Fits.drawBytes
    | with_reducible apply Fits.enclaveReply
    | with_reducible apply Fits.enclaveRefuse
    | with_reducible apply Fits.modEnc
    | with_reducible apply Fits.encReport
    | with_reducible apply FitsOut.ite
    | with_reducible apply FitsOut.next
    | with_reducible apply FitsOut.fault
    | (intro _)
    | with_reducible apply Fits.ite
    | dsimp only
    | split
    | (refine Fits.pair ‹_ = (_, _)› ?_)
    | (refine Fits.pair2 ‹_ = (_, _, _)› ?_)

structure Touches.execChgAbort (N : Part → Prop) : Prop where
  c_enclaveReply : Touches.enclaveReply N
  c_handleFree : Touches.handleFree N

theorem FitsOut.execChgAbort (fw : Bool) (id : BitVec 16) (words : List Word) (s : State) (h : Fits N s0 s) (tch : Touches.execChgAbort N) :
    FitsOut N s0 (execChgAbort fw id words s) := by
  obtain ⟨c_enclaveReply, c_handleFree⟩ := tch
  unfold Sys2Proof.Machine.execChgAbort
  repeat' first
    | with_reducible assumption
    | with_reducible apply Fits.enclaveReply
    | with_reducible apply Fits.handleFree
    | with_reducible apply FitsOut.ite
    | with_reducible apply FitsOut.next
    | with_reducible apply FitsOut.fault
    | (intro _)
    | with_reducible apply Fits.ite
    | dsimp only
    | split
    | (refine Fits.pair ‹_ = (_, _)› ?_)
    | (refine Fits.pair2 ‹_ = (_, _, _)› ?_)

structure Touches.execChgExpiry (N : Part → Prop) : Prop where
  h_time : N .time
  c_evt : Touches.evt N 0xFC
  c_handleFree : Touches.handleFree N

theorem FitsOut.execChgExpiry (hh : Fin 4) (s : State) (h : Fits N s0 s) (tch : Touches.execChgExpiry N) :
    FitsOut N s0 (execChgExpiry hh s) := by
  obtain ⟨h_time, c_evt, c_handleFree⟩ := tch
  unfold Sys2Proof.Machine.execChgExpiry
  repeat' first
    | with_reducible assumption
    | with_reducible apply Fits.reach
    | with_reducible apply Fits.evt
    | with_reducible apply Fits.handleFree
    | with_reducible apply FitsOut.ite
    | with_reducible apply FitsOut.next
    | with_reducible apply FitsOut.fault
    | (intro _)
    | with_reducible apply Fits.ite
    | dsimp only
    | split
    | (refine Fits.pair ‹_ = (_, _)› ?_)
    | (refine Fits.pair2 ‹_ = (_, _, _)› ?_)

structure Touches.saPolicy (N : Part → Prop) : Prop where
  h_enc : N .enc
  k_PAGE_STAT_commit_armed : ∀ (a0 : Nat), N (.reg (F.PAGE_STAT_commit_armed a0).key)
  k_PAGE_STAT_commit_err : ∀ (a0 : Nat), N (.reg (F.PAGE_STAT_commit_err a0).key)
  c_lockRead : Touches.lockRead N (.page 0xC8)
  c_lockWrite : Touches.lockWrite N (.page 0xC8)
  c_commitWrite : Touches.commitWrite N 0xC8
  c_commitBoundary : Touches.commitBoundary N 0xC8
  c_busWrite : Touches.busWrite N

theorem Fits.saPolicy (p : List Byte) (s : State) (h : Fits N s0 s) (tch : Touches.saPolicy N) :
    Fits N s0 (saPolicy p s).2 := by
  obtain ⟨h_enc, k_PAGE_STAT_commit_armed, k_PAGE_STAT_commit_err, c_lockRead, c_lockWrite, c_commitWrite, c_commitBoundary, c_busWrite⟩ := tch
  unfold Sys2Proof.Machine.saPolicy
  repeat' first
    | with_reducible assumption
    | with_reducible apply k_PAGE_STAT_commit_armed
    | with_reducible apply k_PAGE_STAT_commit_err
    | with_reducible apply Fits.setB
    | with_reducible apply Fits.lockRead
    | with_reducible apply Fits.lockWrite
    | with_reducible apply Fits.commitWrite
    | with_reducible apply Fits.commitBoundary
    | with_reducible apply Fits.busWrite
    | with_reducible apply Fits.modEnc
    | (intro _)
    | with_reducible apply Fits.ite
    | dsimp only
    | split
    | (refine Fits.pair ‹_ = (_, _)› ?_)
    | (refine Fits.pair2 ‹_ = (_, _, _)› ?_)

structure Touches.overrideSet (N : Part → Prop) : Prop where
  h_enc : N .enc
  c_evt : ∀ (a0 : Nat), Touches.evt N a0
  c_ovReport : ∀ (a0 : Nat), Touches.ovReport N a0
  c_overrideEnd : ∀ (a0 : Nat), Touches.overrideEnd N a0

theorem Fits.overrideSet (p : List Byte) (s : State) (h : Fits N s0 s) (tch : Touches.overrideSet N) :
    Fits N s0 (overrideSet p s) := by
  obtain ⟨h_enc, c_evt, c_ovReport, c_overrideEnd⟩ := tch
  unfold Sys2Proof.Machine.overrideSet
  repeat' first
    | with_reducible assumption
    | with_reducible exact c_evt _
    | with_reducible exact c_ovReport _
    | with_reducible exact c_overrideEnd _
    | with_reducible apply Fits.evt
    | with_reducible apply Fits.ovReport
    | with_reducible apply Fits.overrideEnd
    | with_reducible apply Fits.modEnc
    | (intro _)
    | with_reducible apply Fits.ite
    | dsimp only
    | split
    | (refine Fits.pair ‹_ = (_, _)› ?_)
    | (refine Fits.pair2 ‹_ = (_, _, _)› ?_)

structure Touches.debugUnlock (N : Part → Prop) : Prop where
  h_dev : N .dev
  k_ENC_DBG_EXPIRE_HI_expire : N (.reg F.ENC_DBG_EXPIRE_HI_expire.key)
  k_ENC_DBG_EXPIRE_LO_expire : N (.reg F.ENC_DBG_EXPIRE_LO_expire.key)
  k_ENC_STAT_debug_level : N (.reg F.ENC_STAT_debug_level.key)
  c_evt : Touches.evt N 0xFC
  c_cipErase : Touches.cipErase N

theorem Fits.debugUnlock (level : Nat) (minutes : Nat) (s : State) (h : Fits N s0 s) (tch : Touches.debugUnlock N) :
    Fits N s0 (debugUnlock level minutes s) := by
  obtain ⟨h_dev, k_ENC_DBG_EXPIRE_HI_expire, k_ENC_DBG_EXPIRE_LO_expire, k_ENC_STAT_debug_level, c_evt, c_cipErase⟩ := tch
  unfold Sys2Proof.Machine.debugUnlock
  repeat' first
    | with_reducible assumption
    | with_reducible apply k_ENC_DBG_EXPIRE_HI_expire
    | with_reducible apply k_ENC_DBG_EXPIRE_LO_expire
    | with_reducible apply k_ENC_STAT_debug_level
    | with_reducible apply Fits.setF
    | with_reducible apply Fits.evt
    | with_reducible apply Fits.cipErase
    | (intro _)
    | with_reducible apply Fits.ite
    | dsimp only
    | split
    | (refine Fits.pair ‹_ = (_, _)› ?_)
    | (refine Fits.pair2 ‹_ = (_, _, _)› ?_)
    | with_reducible apply Fits.upd_dev

structure Touches.reprovision (N : Part → Prop) : Prop where
  h_dev : N .dev
  h_enc : N .enc
  k_DEV_RESET_CAUSE_reprovision : N (.reg F.DEV_RESET_CAUSE_reprovision.key)
  k_ENC_STAT_zeroised : N (.reg F.ENC_STAT_zeroised.key)
  k_ENC_ZREC_active : N (.reg F.ENC_ZREC_active.key)
  k_TMP_STAT_latched : N (.reg F.TMP_STAT_latched.key)
  k_TMP_STAT_latched_causes : N (.reg F.TMP_STAT_latched_causes.key)
  c_deviceReset : Touches.deviceReset N

theorem Fits.reprovision (s : State) (h : Fits N s0 s) (tch : Touches.reprovision N) :
    Fits N s0 (reprovision s) := by
  obtain ⟨h_dev, h_enc, k_DEV_RESET_CAUSE_reprovision, k_ENC_STAT_zeroised, k_ENC_ZREC_active, k_TMP_STAT_latched, k_TMP_STAT_latched_causes, c_deviceReset⟩ := tch
  unfold Sys2Proof.Machine.reprovision
  repeat' first
    | with_reducible assumption
    | with_reducible apply k_DEV_RESET_CAUSE_reprovision
    | with_reducible apply k_ENC_STAT_zeroised
    | with_reducible apply k_ENC_ZREC_active
    | with_reducible apply k_TMP_STAT_latched
    | with_reducible apply k_TMP_STAT_latched_causes
    | with_reducible apply Fits.setF
    | with_reducible apply Fits.setB
    | with_reducible apply Fits.deviceReset
    | (intro _)
    | with_reducible apply Fits.ite
    | dsimp only
    | split
    | (refine Fits.pair ‹_ = (_, _)› ?_)
    | (refine Fits.pair2 ‹_ = (_, _, _)› ?_)
    | with_reducible apply Fits.upd_enc_dev

structure Touches.changeApply (N : Part → Prop) : Prop where
  h_enc : N .enc
  k_DEV_STATUS_rollback_count : N (.reg F.DEV_STATUS_rollback_count.key)
  k_TMP_CFG_enables : N (.reg F.TMP_CFG_enables.key)
  k_TMP_CFG_response : N (.reg F.TMP_CFG_response.key)
  k_TMP_CFG_temp_high : N (.reg F.TMP_CFG_temp_high.key)
  k_TMP_CFG_temp_low : N (.reg F.TMP_CFG_temp_low.key)
  c_evt : Touches.evt N 0xFC
  c_saPolicy : Touches.saPolicy N
  c_overrideSet : Touches.overrideSet N
  c_debugUnlock : Touches.debugUnlock N

theorem Fits.changeApply (op : Nat) (p : List Byte) (nonce : List Byte) (s : State) (h : Fits N s0 s) (tch : Touches.changeApply N) :
    Fits N s0 (changeApply op p nonce s).2 := by
  obtain ⟨h_enc, k_DEV_STATUS_rollback_count, k_TMP_CFG_enables, k_TMP_CFG_response, k_TMP_CFG_temp_high, k_TMP_CFG_temp_low, c_evt, c_saPolicy, c_overrideSet, c_debugUnlock⟩ := tch
  unfold Sys2Proof.Machine.changeApply
  repeat' first
    | with_reducible assumption
    | with_reducible apply k_DEV_STATUS_rollback_count
    | with_reducible apply k_TMP_CFG_enables
    | with_reducible apply k_TMP_CFG_response
    | with_reducible apply k_TMP_CFG_temp_high
    | with_reducible apply k_TMP_CFG_temp_low
    | with_reducible apply Fits.setF
    | with_reducible apply Fits.evt
    | with_reducible apply Fits.modEnc
    | with_reducible apply Fits.saPolicy
    | with_reducible apply Fits.overrideSet
    | with_reducible apply Fits.debugUnlock
    | (intro _)
    | with_reducible apply Fits.ite
    | dsimp only
    | split
    | (refine Fits.pair ‹_ = (_, _)› ?_)
    | (refine Fits.pair2 ‹_ = (_, _, _)› ?_)

structure Touches.changeAfter (N : Part → Prop) : Prop where
  c_tamperTrip : Touches.tamperTrip N
  c_reprovision : Touches.reprovision N

theorem Fits.changeAfter (op : Nat) (s : State) (h : Fits N s0 s) (tch : Touches.changeAfter N) :
    Fits N s0 (changeAfter op s) := by
  obtain ⟨c_tamperTrip, c_reprovision⟩ := tch
  unfold Sys2Proof.Machine.changeAfter
  repeat' first
    | with_reducible assumption
    | with_reducible apply Fits.tamperTrip
    | with_reducible apply Fits.reprovision
    | (intro _)
    | with_reducible apply Fits.ite
    | dsimp only
    | split
    | (refine Fits.pair ‹_ = (_, _)› ?_)
    | (refine Fits.pair2 ‹_ = (_, _, _)› ?_)

structure Touches.changeAnswer (N : Part → Prop) : Prop where
  h_drawn : N .drawn
  k_ENC_CHG_LAST_detail : N (.reg F.ENC_CHG_LAST_detail.key)
  k_ENC_CHG_LAST_handle : N (.reg F.ENC_CHG_LAST_handle.key)
  k_ENC_CHG_LAST_op : N (.reg F.ENC_CHG_LAST_op.key)
  k_ENC_CHG_LAST_result : N (.reg F.ENC_CHG_LAST_result.key)
  c_evt : Touches.evt N 0xFC
  c_enclaveReply : Touches.enclaveReply N
  c_encReport : Touches.encReport N

theorem Fits.changeAnswer (fw : Bool) (id : Nat) (hh : Nat) (op : Nat) (status : Nat) (detail : Nat) (slot : Option Nat) (held : Nat) (s : State) (h : Fits N s0 s) (tch : Touches.changeAnswer N) :
    Fits N s0 (changeAnswer fw id hh op status detail slot held s) := by
  obtain ⟨h_drawn, k_ENC_CHG_LAST_detail, k_ENC_CHG_LAST_handle, k_ENC_CHG_LAST_op, k_ENC_CHG_LAST_result, c_evt, c_enclaveReply, c_encReport⟩ := tch
  unfold Sys2Proof.Machine.changeAnswer
  repeat' first
    | with_reducible assumption
    | with_reducible apply k_ENC_CHG_LAST_detail
    | with_reducible apply k_ENC_CHG_LAST_handle
    | with_reducible apply k_ENC_CHG_LAST_op
    | with_reducible apply k_ENC_CHG_LAST_result
    | with_reducible apply Fits.setF
    | with_reducible apply Fits.draw
    | with_reducible apply Fits.evt
    | with_reducible apply Fits.enclaveReply
    | with_reducible apply Fits.encReport
    | (intro _)
    | with_reducible apply Fits.ite
    | dsimp only
    | split
    | (refine Fits.pair ‹_ = (_, _)› ?_)
    | (refine Fits.pair2 ‹_ = (_, _, _)› ?_)

structure Touches.changeSubmit (N : Part → Prop) : Prop where
  h_enc : N .enc
  c_handleFree : Touches.handleFree N
  c_changeApply : Touches.changeApply N
  c_changeAfter : Touches.changeAfter N
  c_changeAnswer : Touches.changeAnswer N

theorem Fits.changeSubmit (fw : Bool) (id : Nat) (hh : Nat) (len : Nat) (x : Handle) (s : State) (h : Fits N s0 s) (tch : Touches.changeSubmit N) :
    Fits N s0 (changeSubmit fw id hh len x s) := by
  obtain ⟨h_enc, c_handleFree, c_changeApply, c_changeAfter, c_changeAnswer⟩ := tch
  unfold Sys2Proof.Machine.changeSubmit
  repeat' first
    | with_reducible assumption
    | with_reducible apply Fits.modEnc
    | with_reducible apply Fits.handleFree
    | with_reducible apply Fits.changeApply
    | with_reducible apply Fits.changeAfter
    | with_reducible apply Fits.changeAnswer
    | (intro _)
    | with_reducible apply Fits.ite
    | dsimp only
    | split
    | (refine Fits.pair ‹_ = (_, _)› ?_)
    | (refine Fits.pair2 ‹_ = (_, _, _)› ?_)

structure Touches.chgSubmit (N : Part → Prop) : Prop where
  c_enclaveRefuse : Touches.enclaveRefuse N
  c_changeAnswer : Touches.changeAnswer N
  c_changeSubmit : Touches.changeSubmit N

theorem Fits.chgSubmit (fw : Bool) (id : Nat) (words : List Word) (s : State) (h : Fits N s0 s) (tch : Touches.chgSubmit N) :
    Fits N s0 (chgSubmit fw id words s) := by
  obtain ⟨c_enclaveRefuse, c_changeAnswer, c_changeSubmit⟩ := tch
  unfold Sys2Proof.Machine.chgSubmit
  repeat' first
    | with_reducible assumption
    | with_reducible apply Fits.enclaveRefuse
    | with_reducible apply Fits.changeAnswer
    | with_reducible apply Fits.changeSubmit
    | (intro _)
    | with_reducible apply Fits.ite
    | dsimp only
    | split
    | (refine Fits.pair ‹_ = (_, _)› ?_)
    | (refine Fits.pair2 ‹_ = (_, _, _)› ?_)

structure Touches.execAttest (N : Part → Prop) : Prop where
  h_drawn : N .drawn
  c_enclaveReply : Touches.enclaveReply N
  c_enclaveRefuse : Touches.enclaveRefuse N
  c_xbufPut : Touches.xbufPut N

theorem FitsOut.execAttest (fw : Bool) (id : BitVec 16) (words : List Word) (s : State) (h : Fits N s0 s) (tch : Touches.execAttest N) :
    FitsOut N s0 (execAttest fw id words s) := by
  obtain ⟨h_drawn, c_enclaveReply, c_enclaveRefuse, c_xbufPut⟩ := tch
  unfold Sys2Proof.Machine.execAttest
  repeat' first
    | with_reducible assumption
    | with_reducible apply Fits.drawBytes
    | with_reducible apply Fits.enclaveReply
    | with_reducible apply Fits.enclaveRefuse
    | with_reducible apply Fits.xbufPut
    | with_reducible apply FitsOut.ite
    | with_reducible apply FitsOut.next
    | with_reducible apply FitsOut.fault
    | (intro _)
    | with_reducible apply Fits.ite
    | dsimp only
    | split
    | (refine Fits.pair ‹_ = (_, _)› ?_)
    | (refine Fits.pair2 ‹_ = (_, _, _)› ?_)

structure Touches.execKlkPub (N : Part → Prop) : Prop where
  h_drawn : N .drawn
  h_enc : N .enc
  c_enclaveReply : Touches.enclaveReply N
  c_enclaveRefuse : Touches.enclaveRefuse N
  c_xbufPut : Touches.xbufPut N

theorem FitsOut.execKlkPub (fw : Bool) (id : BitVec 16) (words : List Word) (s : State) (h : Fits N s0 s) (tch : Touches.execKlkPub N) :
    FitsOut N s0 (execKlkPub fw id words s) := by
  obtain ⟨h_drawn, h_enc, c_enclaveReply, c_enclaveRefuse, c_xbufPut⟩ := tch
  unfold Sys2Proof.Machine.execKlkPub
  repeat' first
    | with_reducible assumption
    | with_reducible apply Fits.drawBytes
    | with_reducible apply Fits.enclaveReply
    | with_reducible apply Fits.enclaveRefuse
    | with_reducible apply Fits.xbufPut
    | with_reducible apply Fits.modEnc
    | with_reducible apply FitsOut.ite
    | with_reducible apply FitsOut.next
    | with_reducible apply FitsOut.fault
    | (intro _)
    | with_reducible apply Fits.ite
    | dsimp only
    | split
    | (refine Fits.pair ‹_ = (_, _)› ?_)
    | (refine Fits.pair2 ‹_ = (_, _, _)› ?_)

structure Touches.execDebugExpire (N : Part → Prop) : Prop where
  h_time : N .time
  c_debugClose : Touches.debugClose N

theorem FitsOut.execDebugExpire (s : State) (h : Fits N s0 s) (tch : Touches.execDebugExpire N) :
    FitsOut N s0 (execDebugExpire s) := by
  obtain ⟨h_time, c_debugClose⟩ := tch
  unfold Sys2Proof.Machine.execDebugExpire
  repeat' first
    | with_reducible assumption
    | with_reducible apply Fits.reach
    | with_reducible apply Fits.debugClose
    | with_reducible apply FitsOut.ite
    | with_reducible apply FitsOut.next
    | with_reducible apply FitsOut.fault
    | (intro _)
    | with_reducible apply Fits.ite
    | dsimp only
    | split
    | (refine Fits.pair ‹_ = (_, _)› ?_)
    | (refine Fits.pair2 ‹_ = (_, _, _)› ?_)

theorem FitsOut.execTrngHealthTest (pass : Bool) (s : State) (h : Fits N s0 s) (h_enc : N .enc) :
    FitsOut N s0 (execTrngHealthTest pass s) := by
  unfold Sys2Proof.Machine.execTrngHealthTest
  repeat' first
    | with_reducible assumption
    | with_reducible apply Fits.modEnc
    | with_reducible apply FitsOut.ite
    | with_reducible apply FitsOut.next
    | with_reducible apply FitsOut.fault
    | (intro _)
    | with_reducible apply Fits.ite
    | dsimp only
    | split
    | (refine Fits.pair ‹_ = (_, _)› ?_)
    | (refine Fits.pair2 ‹_ = (_, _, _)› ?_)

end Sys2Proof.Machine
end

