-- ==== Sys2Proof/Laws/FitsBoot.lean ====
section
/-! SUPPORT. What the operations of Machine/Boot.lean touch (a structure of parts for each, over those of the operations it calls), and
that each keeps the canonical form. -/
set_option linter.unusedTactic false
set_option linter.unreachableTactic false
namespace Sys2Proof.Machine

variable {N : Part → Prop} {s0 : State}

theorem Fits.modBcr (f : Bcr → Bcr) (s : State) (h : Fits N s0 s) (h_dev : N .dev) :
    Fits N s0 (modBcr f s) := by
  unfold Sys2Proof.Machine.modBcr
  repeat' first
    | with_reducible assumption
    | (intro _)
    | with_reducible apply Fits.ite
    | dsimp only
    | split
    | (refine Fits.pair ‹_ = (_, _)› ?_)
    | (refine Fits.pair2 ‹_ = (_, _, _)› ?_)
    | with_reducible apply Fits.upd_dev

structure Touches.spiContinue (N : Part → Prop) : Prop where
  h_dev : N .dev
  c_reqResult : Touches.reqResult N
  c_warmStart : Touches.warmStart N

theorem Fits.spiContinue (s : State) (h : Fits N s0 s) (tch : Touches.spiContinue N) :
    Fits N s0 (spiContinue s) := by
  obtain ⟨h_dev, c_reqResult, c_warmStart⟩ := tch
  unfold Sys2Proof.Machine.spiContinue
  repeat' first
    | with_reducible assumption
    | with_reducible apply Fits.reqResult
    | with_reducible apply Fits.warmStart
    | (intro _)
    | with_reducible apply Fits.ite
    | dsimp only
    | split
    | (refine Fits.pair ‹_ = (_, _)› ?_)
    | (refine Fits.pair2 ‹_ = (_, _, _)› ?_)
    | with_reducible apply Fits.upd_dev

structure Touches.bcrDone (N : Part → Prop) : Prop where
  h_dev : N .dev
  c_sealSet : Touches.sealSet N
  c_spiContinue : Touches.spiContinue N

theorem Fits.bcrDone (s : State) (h : Fits N s0 s) (tch : Touches.bcrDone N) :
    Fits N s0 (bcrDone s) := by
  obtain ⟨h_dev, c_sealSet, c_spiContinue⟩ := tch
  unfold Sys2Proof.Machine.bcrDone
  repeat' first
    | with_reducible assumption
    | with_reducible apply Fits.sealSet
    | with_reducible apply Fits.spiContinue
    | (intro _)
    | with_reducible apply Fits.ite
    | dsimp only
    | split
    | (refine Fits.pair ‹_ = (_, _)› ?_)
    | (refine Fits.pair2 ‹_ = (_, _, _)› ?_)
    | with_reducible apply Fits.upd_dev

structure Touches.bcrStop (N : Part → Prop) : Prop where
  k_DEV_BCR_STAT_apply_err : N (.reg F.DEV_BCR_STAT_apply_err.key)
  k_DEV_BCR_STAT_entry : N (.reg F.DEV_BCR_STAT_entry.key)
  k_DEV_BCR_STAT_reason : N (.reg F.DEV_BCR_STAT_reason.key)
  c_evt : Touches.evt N 0x00
  c_bcrDone : Touches.bcrDone N

theorem Fits.bcrStop (b : Bcr) (reason : Nat) (s : State) (h : Fits N s0 s) (tch : Touches.bcrStop N) :
    Fits N s0 (bcrStop b reason s) := by
  obtain ⟨k_DEV_BCR_STAT_apply_err, k_DEV_BCR_STAT_entry, k_DEV_BCR_STAT_reason, c_evt, c_bcrDone⟩ := tch
  unfold Sys2Proof.Machine.bcrStop
  repeat' first
    | with_reducible assumption
    | with_reducible apply k_DEV_BCR_STAT_apply_err
    | with_reducible apply k_DEV_BCR_STAT_entry
    | with_reducible apply k_DEV_BCR_STAT_reason
    | with_reducible apply Fits.setF
    | with_reducible apply Fits.setB
    | with_reducible apply Fits.evt
    | with_reducible apply Fits.bcrDone
    | (intro _)
    | with_reducible apply Fits.ite
    | dsimp only
    | split
    | (refine Fits.pair ‹_ = (_, _)› ?_)
    | (refine Fits.pair2 ‹_ = (_, _, _)› ?_)

structure Touches.bcrEnd (N : Part → Prop) : Prop where
  k_DEV_STATUS_bcr_applied : N (.reg F.DEV_STATUS_bcr_applied.key)
  c_bcrDone : Touches.bcrDone N

theorem Fits.bcrEnd (s : State) (h : Fits N s0 s) (tch : Touches.bcrEnd N) :
    Fits N s0 (bcrEnd s) := by
  obtain ⟨k_DEV_STATUS_bcr_applied, c_bcrDone⟩ := tch
  unfold Sys2Proof.Machine.bcrEnd
  repeat' first
    | with_reducible assumption
    | with_reducible apply k_DEV_STATUS_bcr_applied
    | with_reducible apply Fits.setB
    | with_reducible apply Fits.bcrDone
    | (intro _)
    | with_reducible apply Fits.ite
    | dsimp only
    | split
    | (refine Fits.pair ‹_ = (_, _)› ?_)
    | (refine Fits.pair2 ‹_ = (_, _, _)› ?_)

structure Touches.watched (N : Part → Prop) : Prop where
  k_FAB_ERR_CNT_count : N (.reg F.FAB_ERR_CNT_count.key)

theorem Fits.watched (f : State → State) (s : State) (h : Fits N s0 s) (h_f : ∀ t, Fits N s0 t → Fits N s0 (f t)) (tch : Touches.watched N) :
    Fits N s0 (watched f s).2 := by
  obtain ⟨k_FAB_ERR_CNT_count⟩ := tch
  unfold Sys2Proof.Machine.watched
  repeat' first
    | with_reducible assumption
    | with_reducible apply k_FAB_ERR_CNT_count
    | with_reducible apply h_f
    | with_reducible apply Fits.setF
    | (intro _)
    | with_reducible apply Fits.ite
    | dsimp only
    | split
    | (refine Fits.pair ‹_ = (_, _)› ?_)
    | (refine Fits.pair2 ‹_ = (_, _, _)› ?_)

structure Touches.bcrCommit (N : Part → Prop) (p : Nat) : Prop where
  k_PAGE_STAT_commit_err : N (.reg (F.PAGE_STAT_commit_err (domainOf p)).key)
  c_err : ∀ (a0 : Nat), Touches.err N a0
  c_commitWrite : Touches.commitWrite N p
  c_commitBoundary : Touches.commitBoundary N (domainOf p)

theorem Fits.bcrCommit (p : Nat) (v : Nat) (s : State) (h : Fits N s0 s) (tch : Touches.bcrCommit N p) :
    Fits N s0 (bcrCommit p v s).2 := by
  obtain ⟨k_PAGE_STAT_commit_err, c_err, c_commitWrite, c_commitBoundary⟩ := tch
  unfold Sys2Proof.Machine.bcrCommit
  repeat' first
    | with_reducible assumption
    | with_reducible apply k_PAGE_STAT_commit_err
    | with_reducible exact c_err _
    | with_reducible apply Fits.setB
    | with_reducible apply Fits.err
    | with_reducible apply Fits.commitWrite
    | with_reducible apply Fits.commitBoundary
    | (intro _)
    | with_reducible apply Fits.ite
    | dsimp only
    | split
    | (refine Fits.pair ‹_ = (_, _)› ?_)
    | (refine Fits.pair2 ‹_ = (_, _, _)› ?_)

structure Touches.bcrWrite (N : Part → Prop) : Prop where
  c_refuse : ∀ (a0 : Nat), Touches.refuse N a0
  c_busWrite : Touches.busWrite N
  c_watched : Touches.watched N
  c_bcrCommit : ∀ (a0 : Nat), Touches.bcrCommit N a0

theorem Fits.bcrWrite (addr : Nat) (v : Nat) (s : State) (h : Fits N s0 s) (tch : Touches.bcrWrite N) :
    Fits N s0 (bcrWrite addr v s).2 := by
  obtain ⟨c_refuse, c_busWrite, c_watched, c_bcrCommit⟩ := tch
  unfold Sys2Proof.Machine.bcrWrite
  repeat' first
    | with_reducible assumption
    | with_reducible exact c_refuse _
    | with_reducible exact c_bcrCommit _
    | with_reducible apply Fits.refuse
    | with_reducible apply Fits.busWrite
    | with_reducible apply Fits.watched
    | with_reducible apply Fits.bcrCommit
    | (intro _)
    | with_reducible apply Fits.ite
    | dsimp only
    | split
    | (refine Fits.pair ‹_ = (_, _)› ?_)
    | (refine Fits.pair2 ‹_ = (_, _, _)› ?_)

structure Touches.bcrRun (N : Part → Prop) : Prop where
  h_dev : N .dev
  c_modeRequest : Touches.modeRequest N
  c_bcrStop : Touches.bcrStop N
  c_bcrEnd : Touches.bcrEnd N
  c_bcrWrite : Touches.bcrWrite N

theorem Fits.bcrRun (x0 : Nat) (s : State) (h : Fits N s0 s) (tch : Touches.bcrRun N) :
    Fits N s0 (bcrRun x0 s) := by
  obtain ⟨h_dev, c_modeRequest, c_bcrStop, c_bcrEnd, c_bcrWrite⟩ := tch
  induction x0 generalizing s with
  | zero =>
    unfold Sys2Proof.Machine.bcrRun
    repeat' first
      | with_reducible assumption
      | with_reducible apply Fits.modeRequest
      | with_reducible apply Fits.modBcr
      | with_reducible apply Fits.bcrStop
      | with_reducible apply Fits.bcrEnd
      | with_reducible apply Fits.bcrWrite
      | (intro _)
      | with_reducible apply Fits.ite
      | dsimp only
      | split
      | (refine Fits.pair ‹_ = (_, _)› ?_)
      | (refine Fits.pair2 ‹_ = (_, _, _)› ?_)
  | succ n ih =>
    unfold Sys2Proof.Machine.bcrRun
    repeat' first
      | with_reducible apply ih
      | with_reducible assumption
      | with_reducible apply Fits.modeRequest
      | with_reducible apply Fits.modBcr
      | with_reducible apply Fits.bcrStop
      | with_reducible apply Fits.bcrEnd
      | with_reducible apply Fits.bcrWrite
      | (intro _)
      | with_reducible apply Fits.ite
      | dsimp only
      | split
      | (refine Fits.pair ‹_ = (_, _)› ?_)
      | (refine Fits.pair2 ‹_ = (_, _, _)› ?_)

structure Touches.bcrResume (N : Part → Prop) : Prop where
  h_dev : N .dev
  h_time : N .time
  c_bcrStop : Touches.bcrStop N
  c_bcrRun : Touches.bcrRun N

theorem Fits.bcrResume (k : Nat) (s : State) (h : Fits N s0 s) (tch : Touches.bcrResume N) :
    Fits N s0 (bcrResume k s) := by
  obtain ⟨h_dev, h_time, c_bcrStop, c_bcrRun⟩ := tch
  unfold Sys2Proof.Machine.bcrResume
  repeat' first
    | with_reducible assumption
    | with_reducible apply Fits.reach
    | with_reducible apply Fits.modBcr
    | with_reducible apply Fits.bcrStop
    | with_reducible apply Fits.bcrRun
    | (intro _)
    | with_reducible apply Fits.ite
    | dsimp only
    | split
    | (refine Fits.pair ‹_ = (_, _)› ?_)
    | (refine Fits.pair2 ‹_ = (_, _, _)› ?_)

structure Touches.safeEnter (N : Part → Prop) : Prop where
  k_DEV_MODE_transition : N (.reg F.DEV_MODE_transition.key)
  c_modeTo : Touches.modeTo N
  c_sealSet : Touches.sealSet N
  c_reqDone : Touches.reqDone N
  c_spiContinue : Touches.spiContinue N

theorem Fits.safeEnter (s : State) (h : Fits N s0 s) (tch : Touches.safeEnter N) :
    Fits N s0 (safeEnter s) := by
  obtain ⟨k_DEV_MODE_transition, c_modeTo, c_sealSet, c_reqDone, c_spiContinue⟩ := tch
  unfold Sys2Proof.Machine.safeEnter
  repeat' first
    | with_reducible assumption
    | with_reducible apply k_DEV_MODE_transition
    | with_reducible apply Fits.setB
    | with_reducible apply Fits.modeTo
    | with_reducible apply Fits.sealSet
    | with_reducible apply Fits.reqDone
    | with_reducible apply Fits.spiContinue
    | (intro _)
    | with_reducible apply Fits.ite
    | dsimp only
    | split
    | (refine Fits.pair ‹_ = (_, _)› ?_)
    | (refine Fits.pair2 ‹_ = (_, _, _)› ?_)

structure Touches.standbyEnter (N : Part → Prop) : Prop where
  h_dev : N .dev
  k_DEV_BCR_STAT_sequence : N (.reg F.DEV_BCR_STAT_sequence.key)
  k_DEV_MODE_transition : N (.reg F.DEV_MODE_transition.key)
  k_DEV_STATUS_mem_trained : N (.reg F.DEV_STATUS_mem_trained.key)
  k_DEV_STATUS_service_op : N (.reg F.DEV_STATUS_service_op.key)
  c_modeTo : Touches.modeTo N
  c_reqDone : Touches.reqDone N
  c_avsCommand : Touches.avsCommand N
  c_bcrRun : Touches.bcrRun N

theorem Fits.standbyEnter (s : State) (h : Fits N s0 s) (tch : Touches.standbyEnter N) :
    Fits N s0 (standbyEnter s) := by
  obtain ⟨h_dev, k_DEV_BCR_STAT_sequence, k_DEV_MODE_transition, k_DEV_STATUS_mem_trained, k_DEV_STATUS_service_op, c_modeTo, c_reqDone, c_avsCommand, c_bcrRun⟩ := tch
  unfold Sys2Proof.Machine.standbyEnter
  repeat' first
    | with_reducible assumption
    | with_reducible apply k_DEV_BCR_STAT_sequence
    | with_reducible apply k_DEV_MODE_transition
    | with_reducible apply k_DEV_STATUS_mem_trained
    | with_reducible apply k_DEV_STATUS_service_op
    | with_reducible apply Fits.setF
    | with_reducible apply Fits.setB
    | with_reducible apply Fits.modeTo
    | with_reducible apply Fits.reqDone
    | with_reducible apply Fits.avsCommand
    | with_reducible apply Fits.bcrRun
    | (intro _)
    | with_reducible apply Fits.ite
    | dsimp only
    | split
    | (refine Fits.pair ‹_ = (_, _)› ?_)
    | (refine Fits.pair2 ‹_ = (_, _, _)› ?_)
    | with_reducible apply Fits.upd_dev

structure Touches.bootErase (N : Part → Prop) : Prop where
  c_cipErase : Touches.cipErase N
  c_zeroiseRecord : Touches.zeroiseRecord N

theorem Fits.bootErase (s : State) (h : Fits N s0 s) (tch : Touches.bootErase N) :
    Fits N s0 (bootErase s) := by
  obtain ⟨c_cipErase, c_zeroiseRecord⟩ := tch
  unfold Sys2Proof.Machine.bootErase
  repeat' first
    | with_reducible assumption
    | with_reducible apply Fits.cipErase
    | with_reducible apply Fits.zeroiseRecord
    | (intro _)
    | with_reducible apply Fits.ite
    | dsimp only
    | split
    | (refine Fits.pair ‹_ = (_, _)› ?_)
    | (refine Fits.pair2 ‹_ = (_, _, _)› ?_)

structure Touches.bootVerify (N : Part → Prop) : Prop where
  h_enc : N .enc
  k_DEV_STATUS_bcr_fail : N (.reg F.DEV_STATUS_bcr_fail.key)
  k_DEV_STATUS_cfg_default : N (.reg F.DEV_STATUS_cfg_default.key)
  k_DEV_STATUS_fw_none : N (.reg F.DEV_STATUS_fw_none.key)
  k_DEV_STATUS_fw_sec_version : N (.reg F.DEV_STATUS_fw_sec_version.key)
  k_DEV_STATUS_fw_slot : N (.reg F.DEV_STATUS_fw_slot.key)
  k_DEV_STATUS_rollback_count : N (.reg F.DEV_STATUS_rollback_count.key)
  c_evt : Touches.evt N 0x00

theorem Fits.bootVerify (s : State) (h : Fits N s0 s) (tch : Touches.bootVerify N) :
    Fits N s0 (bootVerify s).2.2 := by
  obtain ⟨h_enc, k_DEV_STATUS_bcr_fail, k_DEV_STATUS_cfg_default, k_DEV_STATUS_fw_none, k_DEV_STATUS_fw_sec_version, k_DEV_STATUS_fw_slot, k_DEV_STATUS_rollback_count, c_evt⟩ := tch
  unfold Sys2Proof.Machine.bootVerify
  repeat' first
    | with_reducible assumption
    | with_reducible apply k_DEV_STATUS_bcr_fail
    | with_reducible apply k_DEV_STATUS_cfg_default
    | with_reducible apply k_DEV_STATUS_fw_none
    | with_reducible apply k_DEV_STATUS_fw_sec_version
    | with_reducible apply k_DEV_STATUS_fw_slot
    | with_reducible apply k_DEV_STATUS_rollback_count
    | with_reducible apply Fits.setF
    | with_reducible apply Fits.setB
    | with_reducible apply Fits.evt
    | (intro _)
    | with_reducible apply Fits.ite
    | dsimp only
    | split
    | (refine Fits.pair ‹_ = (_, _)› ?_)
    | (refine Fits.pair2 ‹_ = (_, _, _)› ?_)
    | with_reducible apply Fits.upd_enc

structure Touches.bootRun (N : Part → Prop) : Prop where
  h_dev : N .dev
  k_DEV_STATUS_refclk_ok : N (.reg F.DEV_STATUS_refclk_ok.key)
  c_zeroisedEnter : Touches.zeroisedEnter N
  c_encReport : Touches.encReport N
  c_safeEnter : Touches.safeEnter N
  c_standbyEnter : Touches.standbyEnter N
  c_bootErase : Touches.bootErase N
  c_bootVerify : Touches.bootVerify N

theorem Fits.bootRun (s : State) (h : Fits N s0 s) (tch : Touches.bootRun N) :
    Fits N s0 (bootRun s) := by
  obtain ⟨h_dev, k_DEV_STATUS_refclk_ok, c_zeroisedEnter, c_encReport, c_safeEnter, c_standbyEnter, c_bootErase, c_bootVerify⟩ := tch
  unfold Sys2Proof.Machine.bootRun
  repeat' first
    | with_reducible assumption
    | with_reducible apply k_DEV_STATUS_refclk_ok
    | with_reducible apply Fits.setB
    | with_reducible apply Fits.zeroisedEnter
    | with_reducible apply Fits.encReport
    | with_reducible apply Fits.safeEnter
    | with_reducible apply Fits.standbyEnter
    | with_reducible apply Fits.bootErase
    | with_reducible apply Fits.bootVerify
    | (intro _)
    | with_reducible apply Fits.ite
    | dsimp only
    | split
    | (refine Fits.pair ‹_ = (_, _)› ?_)
    | (refine Fits.pair2 ‹_ = (_, _, _)› ?_)
    | with_reducible apply Fits.upd_dev

structure Touches.boot (N : Part → Prop) : Prop where
  c_bootRun : Touches.bootRun N

theorem Fits.boot (s : State) (h : Fits N s0 s) (tch : Touches.boot N) :
    Fits N s0 (boot s) := by
  obtain ⟨c_bootRun⟩ := tch
  unfold Sys2Proof.Machine.boot
  repeat' first
    | with_reducible assumption
    | with_reducible apply Fits.bootRun
    | (intro _)
    | with_reducible apply Fits.ite
    | dsimp only
    | split
    | (refine Fits.pair ‹_ = (_, _)› ?_)
    | (refine Fits.pair2 ‹_ = (_, _, _)› ?_)

structure Touches.recoveryDo (N : Part → Prop) : Prop where
  h_dev : N .dev
  c_resetWrite : Touches.resetWrite N

theorem Fits.recoveryDo (r : Recovery) (s : State) (h : Fits N s0 s) (tch : Touches.recoveryDo N) :
    Fits N s0 (recoveryDo r s) := by
  obtain ⟨h_dev, c_resetWrite⟩ := tch
  unfold Sys2Proof.Machine.recoveryDo
  repeat' first
    | with_reducible assumption
    | with_reducible apply Fits.resetWrite
    | with_reducible apply Fits.foldlPair
    | with_reducible apply Fits.foldl
    | (intro _)
    | with_reducible apply Fits.ite
    | dsimp only
    | split
    | (refine Fits.pair ‹_ = (_, _)› ?_)
    | (refine Fits.pair2 ‹_ = (_, _, _)› ?_)
    | with_reducible apply Fits.upd_dev

structure Touches.recoveryWord (N : Part → Prop) : Prop where
  h_dev : N .dev
  c_mbxTx : Touches.mbxTx N 1
  c_mbxRx : Touches.mbxRx N 0
  c_recoveryDo : Touches.recoveryDo N

theorem Fits.recoveryWord (s : State) (h : Fits N s0 s) (tch : Touches.recoveryWord N) :
    Fits N s0 (recoveryWord s) := by
  obtain ⟨h_dev, c_mbxTx, c_mbxRx, c_recoveryDo⟩ := tch
  unfold Sys2Proof.Machine.recoveryWord
  repeat' first
    | with_reducible assumption
    | with_reducible apply Fits.mbxTx
    | with_reducible apply Fits.mbxRx
    | with_reducible apply Fits.recoveryDo
    | with_reducible apply Fits.forEach
    | (intro _)
    | with_reducible apply Fits.ite
    | dsimp only
    | split
    | (refine Fits.pair ‹_ = (_, _)› ?_)
    | (refine Fits.pair2 ‹_ = (_, _, _)› ?_)
    | with_reducible apply Fits.upd_dev

structure Touches.recoveryServe (N : Part → Prop) : Prop where
  c_recoveryWord : Touches.recoveryWord N

theorem Fits.recoveryServe (s : State) (h : Fits N s0 s) (tch : Touches.recoveryServe N) :
    Fits N s0 (recoveryServe s) := by
  obtain ⟨c_recoveryWord⟩ := tch
  unfold Sys2Proof.Machine.recoveryServe
  repeat' first
    | with_reducible assumption
    | with_reducible apply Fits.recoveryWord
    | with_reducible apply Fits.forEach
    | (intro _)
    | with_reducible apply Fits.ite
    | dsimp only
    | split
    | (refine Fits.pair ‹_ = (_, _)› ?_)
    | (refine Fits.pair2 ‹_ = (_, _, _)› ?_)

structure Touches.execPorstRelease (N : Part → Prop) : Prop where
  c_porstRelease : Touches.porstRelease N
  c_boot : Touches.boot N

theorem FitsOut.execPorstRelease (s : State) (h : Fits N s0 s) (tch : Touches.execPorstRelease N) :
    FitsOut N s0 (execPorstRelease s) := by
  obtain ⟨c_porstRelease, c_boot⟩ := tch
  unfold Sys2Proof.Machine.execPorstRelease
  repeat' first
    | with_reducible assumption
    | with_reducible apply Fits.porstRelease
    | with_reducible apply Fits.boot
    | with_reducible apply FitsOut.ite
    | with_reducible apply FitsOut.next
    | with_reducible apply FitsOut.fault
    | (intro _)
    | with_reducible apply Fits.ite
    | dsimp only
    | split
    | (refine Fits.pair ‹_ = (_, _)› ?_)
    | (refine Fits.pair2 ‹_ = (_, _, _)› ?_)

structure Touches.execBcrWaitUs (N : Part → Prop) : Prop where
  c_bcrResume : Touches.bcrResume N
  c_boot : Touches.boot N

theorem FitsOut.execBcrWaitUs (s : State) (h : Fits N s0 s) (tch : Touches.execBcrWaitUs N) :
    FitsOut N s0 (execBcrWaitUs s) := by
  obtain ⟨c_bcrResume, c_boot⟩ := tch
  unfold Sys2Proof.Machine.execBcrWaitUs
  repeat' first
    | with_reducible assumption
    | with_reducible apply Fits.bcrResume
    | with_reducible apply Fits.boot
    | with_reducible apply FitsOut.ite
    | with_reducible apply FitsOut.next
    | with_reducible apply FitsOut.fault
    | (intro _)
    | with_reducible apply Fits.ite
    | dsimp only
    | split
    | (refine Fits.pair ‹_ = (_, _)› ?_)
    | (refine Fits.pair2 ‹_ = (_, _, _)› ?_)

structure Touches.execDevReset (N : Part → Prop) : Prop where
  c_resetWrite : Touches.resetWrite N
  c_boot : Touches.boot N

theorem FitsOut.execDevReset (m : Master) (key : BitVec 16) (s : State) (h : Fits N s0 s) (tch : Touches.execDevReset N) :
    FitsOut N s0 (execDevReset m key s) := by
  obtain ⟨c_resetWrite, c_boot⟩ := tch
  unfold Sys2Proof.Machine.execDevReset
  repeat' first
    | with_reducible assumption
    | with_reducible apply Fits.resetWrite
    | with_reducible apply Fits.boot
    | with_reducible apply FitsOut.ite
    | with_reducible apply FitsOut.next
    | with_reducible apply FitsOut.fault
    | (intro _)
    | with_reducible apply Fits.ite
    | dsimp only
    | split
    | (refine Fits.pair ‹_ = (_, _)› ?_)
    | (refine Fits.pair2 ‹_ = (_, _, _)› ?_)

structure Touches.execEnclaveWatchdogExpiry (N : Part → Prop) : Prop where
  k_DEV_RESET_CAUSE_enclave_fault : N (.reg F.DEV_RESET_CAUSE_enclave_fault.key)
  c_deviceReset : Touches.deviceReset N
  c_boot : Touches.boot N

theorem FitsOut.execEnclaveWatchdogExpiry (s : State) (h : Fits N s0 s) (tch : Touches.execEnclaveWatchdogExpiry N) :
    FitsOut N s0 (execEnclaveWatchdogExpiry s) := by
  obtain ⟨k_DEV_RESET_CAUSE_enclave_fault, c_deviceReset, c_boot⟩ := tch
  unfold Sys2Proof.Machine.execEnclaveWatchdogExpiry
  repeat' first
    | with_reducible assumption
    | with_reducible apply k_DEV_RESET_CAUSE_enclave_fault
    | with_reducible apply Fits.setB
    | with_reducible apply Fits.deviceReset
    | with_reducible apply Fits.boot
    | with_reducible apply FitsOut.ite
    | with_reducible apply FitsOut.next
    | with_reducible apply FitsOut.fault
    | (intro _)
    | with_reducible apply Fits.ite
    | dsimp only
    | split
    | (refine Fits.pair ‹_ = (_, _)› ?_)
    | (refine Fits.pair2 ‹_ = (_, _, _)› ?_)

structure Touches.execWakeNWake (N : Part → Prop) : Prop where
  c_dormantWake : Touches.dormantWake N
  c_boot : Touches.boot N

theorem FitsOut.execWakeNWake (s : State) (h : Fits N s0 s) (tch : Touches.execWakeNWake N) :
    FitsOut N s0 (execWakeNWake s) := by
  obtain ⟨c_dormantWake, c_boot⟩ := tch
  unfold Sys2Proof.Machine.execWakeNWake
  repeat' first
    | with_reducible assumption
    | with_reducible apply Fits.dormantWake
    | with_reducible apply Fits.boot
    | with_reducible apply FitsOut.ite
    | with_reducible apply FitsOut.next
    | with_reducible apply FitsOut.fault
    | (intro _)
    | with_reducible apply Fits.ite
    | dsimp only
    | split
    | (refine Fits.pair ‹_ = (_, _)› ?_)
    | (refine Fits.pair2 ‹_ = (_, _, _)› ?_)

structure Touches.spiAnyWake (N : Part → Prop) : Prop where
  c_dormantWake : Touches.dormantWake N

theorem Fits.spiAnyWake (s : State) (h : Fits N s0 s) (tch : Touches.spiAnyWake N) :
    Fits N s0 (spiAnyWake s) := by
  obtain ⟨c_dormantWake⟩ := tch
  unfold Sys2Proof.Machine.spiAnyWake
  repeat' first
    | with_reducible assumption
    | with_reducible apply Fits.dormantWake
    | (intro _)
    | with_reducible apply Fits.ite
    | dsimp only
    | split
    | (refine Fits.pair ‹_ = (_, _)› ?_)
    | (refine Fits.pair2 ‹_ = (_, _, _)› ?_)

structure Touches.execSpiAccessWake (N : Part → Prop) : Prop where
  c_boot : Touches.boot N
  c_spiAnyWake : Touches.spiAnyWake N

theorem FitsOut.execSpiAccessWake (s : State) (h : Fits N s0 s) (tch : Touches.execSpiAccessWake N) :
    FitsOut N s0 (execSpiAccessWake s) := by
  obtain ⟨c_boot, c_spiAnyWake⟩ := tch
  unfold Sys2Proof.Machine.execSpiAccessWake
  repeat' first
    | with_reducible assumption
    | with_reducible apply Fits.boot
    | with_reducible apply Fits.spiAnyWake
    | with_reducible apply FitsOut.ite
    | with_reducible apply FitsOut.next
    | with_reducible apply FitsOut.fault
    | (intro _)
    | with_reducible apply Fits.ite
    | dsimp only
    | split
    | (refine Fits.pair ‹_ = (_, _)› ?_)
    | (refine Fits.pair2 ‹_ = (_, _, _)› ?_)

structure Touches.modeCommand (N : Part → Prop) : Prop where
  c_modeWrite : Touches.modeWrite N
  c_boot : Touches.boot N

theorem Fits.modeCommand (m : Master) (code : Nat) (maint : Nat) (s : State) (h : Fits N s0 s) (tch : Touches.modeCommand N) :
    Fits N s0 (modeCommand m code maint s) := by
  obtain ⟨c_modeWrite, c_boot⟩ := tch
  unfold Sys2Proof.Machine.modeCommand
  repeat' first
    | with_reducible assumption
    | with_reducible apply Fits.modeWrite
    | with_reducible apply Fits.boot
    | (intro _)
    | with_reducible apply Fits.ite
    | dsimp only
    | split
    | (refine Fits.pair ‹_ = (_, _)› ?_)
    | (refine Fits.pair2 ‹_ = (_, _, _)› ?_)

structure Touches.execModeReqSafe (N : Part → Prop) : Prop where
  c_modeCommand : Touches.modeCommand N

theorem FitsOut.execModeReqSafe (m : Master) (maint : BitVec 2) (s : State) (h : Fits N s0 s) (tch : Touches.execModeReqSafe N) :
    FitsOut N s0 (execModeReqSafe m maint s) := by
  obtain ⟨c_modeCommand⟩ := tch
  unfold Sys2Proof.Machine.execModeReqSafe
  repeat' first
    | with_reducible assumption
    | with_reducible apply Fits.modeCommand
    | with_reducible apply FitsOut.ite
    | with_reducible apply FitsOut.next
    | with_reducible apply FitsOut.fault
    | (intro _)
    | with_reducible apply Fits.ite
    | dsimp only
    | split
    | (refine Fits.pair ‹_ = (_, _)› ?_)
    | (refine Fits.pair2 ‹_ = (_, _, _)› ?_)

structure Touches.execModeReqService (N : Part → Prop) : Prop where
  c_modeCommand : Touches.modeCommand N

theorem FitsOut.execModeReqService (m : Master) (maint : BitVec 2) (s : State) (h : Fits N s0 s) (tch : Touches.execModeReqService N) :
    FitsOut N s0 (execModeReqService m maint s) := by
  obtain ⟨c_modeCommand⟩ := tch
  unfold Sys2Proof.Machine.execModeReqService
  repeat' first
    | with_reducible assumption
    | with_reducible apply Fits.modeCommand
    | with_reducible apply FitsOut.ite
    | with_reducible apply FitsOut.next
    | with_reducible apply FitsOut.fault
    | (intro _)
    | with_reducible apply Fits.ite
    | dsimp only
    | split
    | (refine Fits.pair ‹_ = (_, _)› ?_)
    | (refine Fits.pair2 ‹_ = (_, _, _)› ?_)

structure Touches.execModeReqStandby (N : Part → Prop) : Prop where
  c_modeCommand : Touches.modeCommand N

theorem FitsOut.execModeReqStandby (m : Master) (maint : BitVec 2) (s : State) (h : Fits N s0 s) (tch : Touches.execModeReqStandby N) :
    FitsOut N s0 (execModeReqStandby m maint s) := by
  obtain ⟨c_modeCommand⟩ := tch
  unfold Sys2Proof.Machine.execModeReqStandby
  repeat' first
    | with_reducible assumption
    | with_reducible apply Fits.modeCommand
    | with_reducible apply FitsOut.ite
    | with_reducible apply FitsOut.next
    | with_reducible apply FitsOut.fault
    | (intro _)
    | with_reducible apply Fits.ite
    | dsimp only
    | split
    | (refine Fits.pair ‹_ = (_, _)› ?_)
    | (refine Fits.pair2 ‹_ = (_, _, _)› ?_)

structure Touches.execModeReqDormant (N : Part → Prop) : Prop where
  c_modeCommand : Touches.modeCommand N

theorem FitsOut.execModeReqDormant (m : Master) (maint : BitVec 2) (s : State) (h : Fits N s0 s) (tch : Touches.execModeReqDormant N) :
    FitsOut N s0 (execModeReqDormant m maint s) := by
  obtain ⟨c_modeCommand⟩ := tch
  unfold Sys2Proof.Machine.execModeReqDormant
  repeat' first
    | with_reducible assumption
    | with_reducible apply Fits.modeCommand
    | with_reducible apply FitsOut.ite
    | with_reducible apply FitsOut.next
    | with_reducible apply FitsOut.fault
    | (intro _)
    | with_reducible apply Fits.ite
    | dsimp only
    | split
    | (refine Fits.pair ‹_ = (_, _)› ?_)
    | (refine Fits.pair2 ‹_ = (_, _, _)› ?_)

structure Touches.execModeReqMaintenance (N : Part → Prop) : Prop where
  c_modeCommand : Touches.modeCommand N

theorem FitsOut.execModeReqMaintenance (m : Master) (maint : BitVec 2) (s : State) (h : Fits N s0 s) (tch : Touches.execModeReqMaintenance N) :
    FitsOut N s0 (execModeReqMaintenance m maint s) := by
  obtain ⟨c_modeCommand⟩ := tch
  unfold Sys2Proof.Machine.execModeReqMaintenance
  repeat' first
    | with_reducible assumption
    | with_reducible apply Fits.modeCommand
    | with_reducible apply FitsOut.ite
    | with_reducible apply FitsOut.next
    | with_reducible apply FitsOut.fault
    | (intro _)
    | with_reducible apply Fits.ite
    | dsimp only
    | split
    | (refine Fits.pair ‹_ = (_, _)› ?_)
    | (refine Fits.pair2 ‹_ = (_, _, _)› ?_)

structure Touches.execModeReqNotAllowed (N : Part → Prop) : Prop where
  c_modeCommand : Touches.modeCommand N

theorem FitsOut.execModeReqNotAllowed (m : Master) (code : BitVec 4) (maint : BitVec 2) (s : State) (h : Fits N s0 s) (tch : Touches.execModeReqNotAllowed N) :
    FitsOut N s0 (execModeReqNotAllowed m code maint s) := by
  obtain ⟨c_modeCommand⟩ := tch
  unfold Sys2Proof.Machine.execModeReqNotAllowed
  repeat' first
    | with_reducible assumption
    | with_reducible apply Fits.modeCommand
    | with_reducible apply FitsOut.ite
    | with_reducible apply FitsOut.next
    | with_reducible apply FitsOut.fault
    | (intro _)
    | with_reducible apply Fits.ite
    | dsimp only
    | split
    | (refine Fits.pair ‹_ = (_, _)› ?_)
    | (refine Fits.pair2 ‹_ = (_, _, _)› ?_)

structure Touches.execChgSubmit (N : Part → Prop) : Prop where
  c_chgSubmit : Touches.chgSubmit N
  c_boot : Touches.boot N

theorem FitsOut.execChgSubmit (fw : Bool) (id : BitVec 16) (words : List Word) (s : State) (h : Fits N s0 s) (tch : Touches.execChgSubmit N) :
    FitsOut N s0 (execChgSubmit fw id words s) := by
  obtain ⟨c_chgSubmit, c_boot⟩ := tch
  unfold Sys2Proof.Machine.execChgSubmit
  repeat' first
    | with_reducible assumption
    | with_reducible apply Fits.chgSubmit
    | with_reducible apply Fits.boot
    | with_reducible apply FitsOut.ite
    | with_reducible apply FitsOut.next
    | with_reducible apply FitsOut.fault
    | (intro _)
    | with_reducible apply Fits.ite
    | dsimp only
    | split
    | (refine Fits.pair ‹_ = (_, _)› ?_)
    | (refine Fits.pair2 ‹_ = (_, _, _)› ?_)

structure Touches.execThmResult (N : Part → Prop) : Prop where
  c_thmResult : ∀ (a0 : Nat), Touches.thmResult N a0
  c_rulesThermos : Touches.rulesThermos N
  c_boot : Touches.boot N

theorem FitsOut.execThmResult (tag : Fin 52) (windows : List (BitVec 24)) (outside : Option Bool) (s : State) (h : Fits N s0 s) (tch : Touches.execThmResult N) :
    FitsOut N s0 (execThmResult tag windows outside s) := by
  obtain ⟨c_thmResult, c_rulesThermos, c_boot⟩ := tch
  unfold Sys2Proof.Machine.execThmResult
  repeat' first
    | with_reducible assumption
    | with_reducible exact c_thmResult _
    | with_reducible apply Fits.thmResult
    | with_reducible apply Fits.rulesThermos
    | with_reducible apply Fits.boot
    | with_reducible apply FitsOut.ite
    | with_reducible apply FitsOut.next
    | with_reducible apply FitsOut.fault
    | (intro _)
    | with_reducible apply Fits.ite
    | dsimp only
    | split
    | (refine Fits.pair ‹_ = (_, _)› ?_)
    | (refine Fits.pair2 ‹_ = (_, _, _)› ?_)

structure Touches.execRuleTick (N : Part → Prop) : Prop where
  h_thm : N .thm
  h_time : N .time
  k_TMP_STAT_raw : N (.reg F.TMP_STAT_raw.key)
  c_rulesTick : Touches.rulesTick N
  c_boot : Touches.boot N

theorem FitsOut.execRuleTick (still : BitVec 6) (alerts : BitVec 2) (s : State) (h : Fits N s0 s) (tch : Touches.execRuleTick N) :
    FitsOut N s0 (execRuleTick still alerts s) := by
  obtain ⟨h_thm, h_time, k_TMP_STAT_raw, c_rulesTick, c_boot⟩ := tch
  unfold Sys2Proof.Machine.execRuleTick
  repeat' first
    | with_reducible assumption
    | with_reducible apply k_TMP_STAT_raw
    | with_reducible apply Fits.setF
    | with_reducible apply Fits.reach
    | with_reducible apply Fits.modThm
    | with_reducible apply Fits.rulesTick
    | with_reducible apply Fits.boot
    | with_reducible apply FitsOut.ite
    | with_reducible apply FitsOut.next
    | with_reducible apply FitsOut.fault
    | (intro _)
    | with_reducible apply Fits.ite
    | dsimp only
    | split
    | (refine Fits.pair ‹_ = (_, _)› ?_)
    | (refine Fits.pair2 ‹_ = (_, _, _)› ?_)

structure Touches.execCommitApply (N : Part → Prop) : Prop where
  c_commitBoundary : ∀ (a0 : Nat), Touches.commitBoundary N a0
  c_bcrResume : Touches.bcrResume N
  c_boot : Touches.boot N

theorem FitsOut.execCommitApply (p : Fin 256) (s : State) (h : Fits N s0 s) (tch : Touches.execCommitApply N) :
    FitsOut N s0 (execCommitApply p s) := by
  obtain ⟨c_commitBoundary, c_bcrResume, c_boot⟩ := tch
  unfold Sys2Proof.Machine.execCommitApply
  repeat' first
    | with_reducible assumption
    | with_reducible exact c_commitBoundary _
    | with_reducible apply Fits.commitBoundary
    | with_reducible apply Fits.bcrResume
    | with_reducible apply Fits.boot
    | with_reducible apply FitsOut.ite
    | with_reducible apply FitsOut.next
    | with_reducible apply FitsOut.fault
    | (intro _)
    | with_reducible apply Fits.ite
    | dsimp only
    | split
    | (refine Fits.pair ‹_ = (_, _)› ?_)
    | (refine Fits.pair2 ‹_ = (_, _, _)› ?_)

structure Touches.execTimedChangeApply (N : Part → Prop) : Prop where
  c_timedApply : ∀ (a0 : Nat), Touches.timedApply N a0
  c_bcrResume : Touches.bcrResume N
  c_boot : Touches.boot N

theorem FitsOut.execTimedChangeApply (le : Fin 2) (s : State) (h : Fits N s0 s) (tch : Touches.execTimedChangeApply N) :
    FitsOut N s0 (execTimedChangeApply le s) := by
  obtain ⟨c_timedApply, c_bcrResume, c_boot⟩ := tch
  unfold Sys2Proof.Machine.execTimedChangeApply
  repeat' first
    | with_reducible assumption
    | with_reducible exact c_timedApply _
    | with_reducible apply Fits.timedApply
    | with_reducible apply Fits.bcrResume
    | with_reducible apply Fits.boot
    | with_reducible apply FitsOut.ite
    | with_reducible apply FitsOut.next
    | with_reducible apply FitsOut.fault
    | (intro _)
    | with_reducible apply Fits.ite
    | dsimp only
    | split
    | (refine Fits.pair ‹_ = (_, _)› ?_)
    | (refine Fits.pair2 ‹_ = (_, _, _)› ?_)

structure Touches.execRegisterWrite (N : Part → Prop) : Prop where
  h_ev : N .ev
  c_refuse : ∀ (a0 : Nat), Touches.refuse N a0
  c_busWrite : Touches.busWrite N
  c_boot : Touches.boot N

theorem FitsOut.execRegisterWrite (m : Master) (addr : Addr) (value : Word) (narrow : Bool) (s : State) (h : Fits N s0 s) (tch : Touches.execRegisterWrite N) :
    FitsOut N s0 (execRegisterWrite m addr value narrow s) := by
  obtain ⟨h_ev, c_refuse, c_busWrite, c_boot⟩ := tch
  unfold Sys2Proof.Machine.execRegisterWrite
  repeat' first
    | with_reducible assumption
    | with_reducible exact c_refuse _
    | with_reducible apply Fits.refuse
    | with_reducible apply Fits.access
    | with_reducible apply Fits.busWrite
    | with_reducible apply Fits.boot
    | with_reducible apply FitsOut.ite
    | with_reducible apply FitsOut.next
    | with_reducible apply FitsOut.fault
    | (intro _)
    | with_reducible apply Fits.ite
    | dsimp only
    | split
    | (refine Fits.pair ‹_ = (_, _)› ?_)
    | (refine Fits.pair2 ‹_ = (_, _, _)› ?_)

structure Touches.execHmpPdRelease (N : Part → Prop) : Prop where
  c_busWrite : Touches.busWrite N

theorem FitsOut.execHmpPdRelease (m : Master) (bits : BitVec 2) (s : State) (h : Fits N s0 s) (tch : Touches.execHmpPdRelease N) :
    FitsOut N s0 (execHmpPdRelease m bits s) := by
  obtain ⟨c_busWrite⟩ := tch
  unfold Sys2Proof.Machine.execHmpPdRelease
  repeat' first
    | with_reducible assumption
    | with_reducible apply Fits.busWrite
    | with_reducible apply FitsOut.ite
    | with_reducible apply FitsOut.next
    | with_reducible apply FitsOut.fault
    | (intro _)
    | with_reducible apply Fits.ite
    | dsimp only
    | split
    | (refine Fits.pair ‹_ = (_, _)› ?_)
    | (refine Fits.pair2 ‹_ = (_, _, _)› ?_)

structure Touches.spiWriteWord (N : Part → Prop) : Prop where
  h_spi : N .spi
  c_err : ∀ (a0 : Nat), Touches.err N a0
  c_busWrite : Touches.busWrite N
  c_watched : Touches.watched N
  c_spiAnyWake : Touches.spiAnyWake N

theorem Fits.spiWriteWord (addr : Nat) (v : Nat) (s : State) (h : Fits N s0 s) (tch : Touches.spiWriteWord N) :
    Fits N s0 (spiWriteWord addr v s) := by
  obtain ⟨h_spi, c_err, c_busWrite, c_watched, c_spiAnyWake⟩ := tch
  unfold Sys2Proof.Machine.spiWriteWord
  repeat' first
    | with_reducible assumption
    | with_reducible exact c_err _
    | with_reducible apply Fits.err
    | with_reducible apply Fits.busWrite
    | with_reducible apply Fits.watched
    | with_reducible apply Fits.spiAnyWake
    | (intro _)
    | with_reducible apply Fits.ite
    | dsimp only
    | split
    | (refine Fits.pair ‹_ = (_, _)› ?_)
    | (refine Fits.pair2 ‹_ = (_, _, _)› ?_)
    | with_reducible apply Fits.upd_spi

structure Touches.pcieWords (N : Part → Prop) : Prop where
  c_busWrite : Touches.busWrite N

theorem Fits.pcieWords (x0 : Nat) (x1 : List Nat) (s : State) (h : Fits N s0 s) (tch : Touches.pcieWords N) :
    Fits N s0 (pcieWords x0 x1 s) := by
  obtain ⟨c_busWrite⟩ := tch
  induction x1 generalizing x0 s with
  | nil =>
    unfold Sys2Proof.Machine.pcieWords
    repeat' first
      | with_reducible assumption
      | with_reducible apply Fits.busWrite
      | (intro _)
      | with_reducible apply Fits.ite
      | dsimp only
      | split
      | (refine Fits.pair ‹_ = (_, _)› ?_)
      | (refine Fits.pair2 ‹_ = (_, _, _)› ?_)
  | cons w ws ih =>
    unfold Sys2Proof.Machine.pcieWords
    repeat' first
      | with_reducible apply ih
      | with_reducible assumption
      | with_reducible apply Fits.busWrite
      | (intro _)
      | with_reducible apply Fits.ite
      | dsimp only
      | split
      | (refine Fits.pair ‹_ = (_, _)› ?_)
      | (refine Fits.pair2 ‹_ = (_, _, _)› ?_)

structure Touches.spiWords (N : Part → Prop) : Prop where
  h_spi : N .spi
  c_err : ∀ (a0 : Nat), Touches.err N a0
  c_refuse : ∀ (a0 : Nat), Touches.refuse N a0
  c_spiWriteWord : Touches.spiWriteWord N

theorem Fits.spiWords (x0 : Nat) (x1 : Nat) (x2 : List Nat) (s : State) (h : Fits N s0 s) (tch : Touches.spiWords N) :
    Fits N s0 (spiWords x0 x1 x2 s) := by
  obtain ⟨h_spi, c_err, c_refuse, c_spiWriteWord⟩ := tch
  induction x2 generalizing x0 x1 s with
  | nil =>
    unfold Sys2Proof.Machine.spiWords
    repeat' first
      | with_reducible assumption
      | with_reducible exact c_err _
      | with_reducible exact c_refuse _
      | with_reducible apply Fits.err
      | with_reducible apply Fits.refuse
      | with_reducible apply Fits.spiWriteWord
      | (intro _)
      | with_reducible apply Fits.ite
      | dsimp only
      | split
      | (refine Fits.pair ‹_ = (_, _)› ?_)
      | (refine Fits.pair2 ‹_ = (_, _, _)› ?_)
      | with_reducible apply Fits.upd_spi
  | cons w ws ih =>
    unfold Sys2Proof.Machine.spiWords
    repeat' first
      | with_reducible apply ih
      | with_reducible assumption
      | with_reducible exact c_err _
      | with_reducible exact c_refuse _
      | with_reducible apply Fits.err
      | with_reducible apply Fits.refuse
      | with_reducible apply Fits.spiWriteWord
      | (intro _)
      | with_reducible apply Fits.ite
      | dsimp only
      | split
      | (refine Fits.pair ‹_ = (_, _)› ?_)
      | (refine Fits.pair2 ‹_ = (_, _, _)› ?_)
      | with_reducible apply Fits.upd_spi

structure Touches.execSpiWrite (N : Part → Prop) : Prop where
  c_boot : Touches.boot N
  c_spiWords : Touches.spiWords N

theorem FitsOut.execSpiWrite (addr : Addr) (words : List Word) (waiting : Fin 17) (s : State) (h : Fits N s0 s) (tch : Touches.execSpiWrite N) :
    FitsOut N s0 (execSpiWrite addr words waiting s) := by
  obtain ⟨c_boot, c_spiWords⟩ := tch
  unfold Sys2Proof.Machine.execSpiWrite
  repeat' first
    | with_reducible assumption
    | with_reducible apply Fits.boot
    | with_reducible apply Fits.spiWords
    | with_reducible apply FitsOut.ite
    | with_reducible apply FitsOut.next
    | with_reducible apply FitsOut.fault
    | (intro _)
    | with_reducible apply Fits.ite
    | dsimp only
    | split
    | (refine Fits.pair ‹_ = (_, _)› ?_)
    | (refine Fits.pair2 ‹_ = (_, _, _)› ?_)

structure Touches.spiReadWord (N : Part → Prop) : Prop where
  h_spi : N .spi
  c_err : ∀ (a0 : Nat), Touches.err N a0
  c_fieldsRead : Touches.fieldsRead N
  c_busRead : Touches.busRead N
  c_watched : Touches.watched N
  c_spiAnyWake : Touches.spiAnyWake N

theorem Fits.spiReadWord (addr : Nat) (s : State) (h : Fits N s0 s) (tch : Touches.spiReadWord N) :
    Fits N s0 (spiReadWord addr s).2 := by
  obtain ⟨h_spi, c_err, c_fieldsRead, c_busRead, c_watched, c_spiAnyWake⟩ := tch
  unfold Sys2Proof.Machine.spiReadWord
  repeat' first
    | with_reducible assumption
    | with_reducible exact c_err _
    | with_reducible apply Fits.err
    | with_reducible apply Fits.fieldsRead
    | with_reducible apply Fits.busRead
    | with_reducible apply Fits.watched
    | with_reducible apply Fits.spiAnyWake
    | (intro _)
    | with_reducible apply Fits.ite
    | dsimp only
    | split
    | (refine Fits.pair ‹_ = (_, _)› ?_)
    | (refine Fits.pair2 ‹_ = (_, _, _)› ?_)
    | with_reducible apply Fits.upd_spi

structure Touches.spiReads (N : Part → Prop) : Prop where
  c_spiReadWord : Touches.spiReadWord N

theorem Fits.spiReads (x0 : Nat) (x1 : Nat) (s : State) (h : Fits N s0 s) (tch : Touches.spiReads N) :
    Fits N s0 (spiReads x0 x1 s).2 := by
  obtain ⟨c_spiReadWord⟩ := tch
  induction x0 generalizing x1 s with
  | zero =>
    unfold Sys2Proof.Machine.spiReads
    repeat' first
      | with_reducible assumption
      | with_reducible apply Fits.spiReadWord
      | (intro _)
      | with_reducible apply Fits.ite
      | dsimp only
      | split
      | (refine Fits.pair ‹_ = (_, _)› ?_)
      | (refine Fits.pair2 ‹_ = (_, _, _)› ?_)
  | succ n ih =>
    unfold Sys2Proof.Machine.spiReads
    repeat' first
      | with_reducible apply ih
      | with_reducible assumption
      | with_reducible apply Fits.spiReadWord
      | (intro _)
      | with_reducible apply Fits.ite
      | dsimp only
      | split
      | (refine Fits.pair ‹_ = (_, _)› ?_)
      | (refine Fits.pair2 ‹_ = (_, _, _)› ?_)

structure Touches.execSpiRead (N : Part → Prop) : Prop where
  h_spi : N .spi
  c_boot : Touches.boot N
  c_spiReads : Touches.spiReads N

theorem FitsOut.execSpiRead (addr : Addr) (n : Nat) (s : State) (h : Fits N s0 s) (tch : Touches.execSpiRead N) :
    FitsOut N s0 (execSpiRead addr n s) := by
  obtain ⟨h_spi, c_boot, c_spiReads⟩ := tch
  unfold Sys2Proof.Machine.execSpiRead
  repeat' first
    | with_reducible assumption
    | with_reducible apply Fits.boot
    | with_reducible apply Fits.spiReads
    | with_reducible apply FitsOut.ite
    | with_reducible apply FitsOut.next
    | with_reducible apply FitsOut.fault
    | (intro _)
    | with_reducible apply Fits.ite
    | dsimp only
    | split
    | (refine Fits.pair ‹_ = (_, _)› ?_)
    | (refine Fits.pair2 ‹_ = (_, _, _)› ?_)
    | with_reducible apply Fits.upd_spi

theorem FitsOut.execSpiStatus (waiting : Bool) (s : State) (h : Fits N s0 s) (h_spi : N .spi) :
    FitsOut N s0 (execSpiStatus waiting s) := by
  unfold Sys2Proof.Machine.execSpiStatus
  repeat' first
    | with_reducible assumption
    | with_reducible apply Fits.err
    | with_reducible apply FitsOut.ite
    | with_reducible apply FitsOut.next
    | with_reducible apply FitsOut.fault
    | (intro _)
    | with_reducible apply Fits.ite
    | dsimp only
    | split
    | (refine Fits.pair ‹_ = (_, _)› ?_)
    | (refine Fits.pair2 ‹_ = (_, _, _)› ?_)
    | with_reducible apply Fits.upd_spi

end Sys2Proof.Machine
end

