-- ==== Sys2Proof/Laws/FitsClock.lean ====
section
/-! SUPPORT. What the operations of Machine/Clock.lean touch (a structure of parts for each, over those of the operations it calls), and
that each keeps the canonical form. -/
set_option linter.unusedTactic false
set_option linter.unreachableTactic false
namespace Sys2Proof.Machine

variable {N : Part → Prop} {s0 : State}

theorem Fits.timePasses (s : State) (h : Fits N s0 s) (h_time : N .time) :
    Fits N s0 (timePasses s) := by
  unfold Sys2Proof.Machine.timePasses
  repeat' first
    | with_reducible assumption
    | (intro _)
    | with_reducible apply Fits.ite
    | dsimp only
    | split
    | (refine Fits.pair ‹_ = (_, _)› ?_)
    | (refine Fits.pair2 ‹_ = (_, _, _)› ?_)
    | with_reducible apply Fits.upd_time

structure Touches.tick (N : Part → Prop) : Prop where
  h_time : N .time
  c_patternErrors : ∀ (a0 : Nat), Touches.patternErrors N a0
  c_cntTake : Touches.cntTake N
  c_bcrResume : Touches.bcrResume N
  c_boot : Touches.boot N
  c_recoveryServe : Touches.recoveryServe N

theorem Fits.tick (s : State) (h : Fits N s0 s) (tch : Touches.tick N) :
    Fits N s0 (tick s) := by
  obtain ⟨h_time, c_patternErrors, c_cntTake, c_bcrResume, c_boot, c_recoveryServe⟩ := tch
  unfold Sys2Proof.Machine.tick
  repeat' first
    | with_reducible assumption
    | with_reducible exact c_patternErrors _
    | with_reducible apply Fits.patternErrors
    | with_reducible apply Fits.cntTake
    | with_reducible apply Fits.bcrResume
    | with_reducible apply Fits.boot
    | with_reducible apply Fits.recoveryServe
    | with_reducible apply Fits.timePasses
    | with_reducible apply Fits.forEach
    | (intro _)
    | with_reducible apply Fits.ite
    | dsimp only
    | split
    | (refine Fits.pair ‹_ = (_, _)› ?_)
    | (refine Fits.pair2 ‹_ = (_, _, _)› ?_)

end Sys2Proof.Machine
end

