-- ==== Sys2Proof/Machine/Balls.lean ====
section
/-! DEFINITION. The balls (19_electrical_and_package.md): what drives each output in a state, and the levels its codes stand for. -/
namespace Sys2Proof.Machine

/-- The output balls of R564. -/
inductive Ball where
  | dout (le : Fin 2) (lane : Fin 4)
  | dcal (le : Fin 2) (lane : Fin 4)
  | env (le : Fin 2)
  | ubhCk (le : Fin 2)
  | ubhDo (le : Fin 2)
  | htx (lane : Fin 32)
  | pcieTx
  | irqN
  | alarmN
  | spiMiso
  | qspiCsN
  | gpio (n : Fin 16)
  | ppsOut
  | syncout (m : Fin 2)
  | tloopA
  deriving DecidableEq, Repr

/-- What drives a ball: a level, nothing (high impedance, or an open-drain output released), zero differential with the common mode
held, or the signal that the chapter of its interface describes. -/
inductive BallDrive where
  | low
  | high
  | highZ
  | released
  | zero
  | signal
  deriving DecidableEq, Repr

/-- An open-drain output is released unless it is asserted (R560). -/
def openDrain (asserted : Bool) : BallDrive := if asserted then .low else .released

/-- PORST_N is low, or the device is in DORMANT (R564). -/
def ballsQuiet (s : State) : Bool := s.dev.held || !s.dev.vaon || s.mode == 0

/-- R564: what drives a ball; outside PORST_N low and DORMANT as the chapter of its interface says (R86, R154, R431, R466, R562). -/
def ballDrive (s : State) : Ball → BallDrive
  | .dout le _ => if ballsQuiet s || !(s.eng le.val).tx.live then .zero else .signal
  | .dcal _ _ => if ballsQuiet s then .zero else .signal
  | .env _ => if ballsQuiet s then .low else .signal
  | .ubhCk le => if ballsQuiet s || (s.eng le.val).ubh.brk then .low else .signal
  | .ubhDo _ => if ballsQuiet s then .low else .signal
  | .htx _ => if ballsQuiet s then .highZ else .signal
  | .pcieTx => if ballsQuiet s then .highZ else .signal
  | .irqN => openDrain (irqPin s)
  | .alarmN => openDrain (alarmPin s)
  | .spiMiso => if s.dev.held || !s.dev.vaon then .highZ else .signal
  | .qspiCsN => if ballsQuiet s then .high else .signal
  | .gpio n =>
    if ballsQuiet s || !(s.g F.GPIO_DIR_dir).testBit n.val then .highZ
    else if (s.g F.GPIO_OUT_out).testBit n.val then .high else .low
  | .ppsOut => if !ballsQuiet s && ppsHigh s then .high else .low
  | .syncout m => if !ballsQuiet s && syncoutLive s m.val then .signal else .low
  | .tloopA => .signal

/-- R556: the full output of a lane, mV peak to peak differential: its swing code × 4, at most 1,000. -/
def doutSwing (swing : Nat) : Nat := min 1000 (4 * swing)

/-- R557: the level of ENV at a code, µV. -/
def envMicrovolts (code : Nat) : Nat := code * 1200000 / 1023

/-- R548: the VDD set point of a code, mV. -/
def vddSetPoint (code : Nat) : Nat := 600 + 5 * code

end Sys2Proof.Machine
end

