-- ==== Sys2Proof/Tests/Slice0.lean ====
section
/-! SUPPORT. The model's own tests: for every statement with hypotheses a witness that they can be met together (clause by clause), and
small tests of one command on one state. What a test expects is taken from the rule its docstring names. -/
namespace Sys2Proof.Tests

open Machine

set_option Elab.async false

/-- The state after reset in device mode `mode`, with no WAKE due and the register fields given their values. -/
def st (mode : Nat) (regs : List (Field × Nat)) : State :=
  regs.foldl (fun s e => s.setF e.1 e.2) ({ State.reset with dev := { State.reset.dev with bootPending := false } }.setF F.DEV_MODE_mode mode)

/-- The fields given their values in force. -/
def cf (l : List (Field × Nat)) (s : State) : State := l.foldl (fun s e => s.force e.1 e.2) s

/-- The command answers a next state that has the property. -/
def ends (o : Host.Outcome State Fault Refusal) (p : State → Bool) : Bool :=
  match o with
  | .next t => p t
  | _ => false

/-! ## The machine as a whole -/

/-- The hypotheses of StepRunsFront are met. -/
theorem witness_StepRunsFront : ∃ s : State, s.pending = [] := ⟨State.reset, rfl⟩

/-- The hypotheses of StepsKeepTidy are met, by the reset state with a command in its queue. -/
theorem witness_StepsKeepTidy : ∃ s t : State, s.tidy ∧ step s = .next t :=
  ⟨{ State.reset with pending := [.spiStatus false] }, _, by constructor <;> decide +kernel, rfl⟩

/-- Both hypotheses of WellFormedCommandsRun are met, by a band at the end of its width and one beyond it. -/
theorem witness_WellFormedCommandsRun : wellFormed (.idleMeasure 0 0 2 3 0) = true ∧ wellFormed (.idleMeasure 0 0 1 2 0) = false := by
  decide

/-- The hypotheses of CommandsKeepTheirFrame are met. -/
theorem witness_CommandsKeepTheirFrame : ∃ (i : Instr) (s t : State), exec i s = .next t := ⟨.spiStatus false, State.reset, _, rfl⟩

/-- The hypotheses of both clauses of ErrorCodeHoldsFirst are met. -/
theorem witness_ErrorCodeHoldsFirst : (∃ s : State, s.on (F.ERR_valid 0x18) = false) ∧
    (∃ s : State, s.on (F.ERR_valid 0x18) = true ∧ s.logRuns = true) :=
  ⟨⟨st 4 [], by decide +kernel⟩, ⟨st 4 [(F.ERR_valid 0x18, 1)], by decide +kernel⟩⟩

/-- R55: a second error is lost, and the first one stays. -/
theorem test_second_error_is_lost : let s := State.err 0x18 2 0x85 (State.err 0x18 1 0x81 (st 4 []));
    s.g (F.ERR_code 0x18) = 0x81 ∧ s.g (F.ERR_step 0x18) = 1 ∧ s.on (F.ERR_lost 0x18) = true := by decide +kernel

/-- INDEX: no row of the table gives bits, so that no word spells a command. -/
theorem test_no_word_spells_a_command : decodeTableWord 32 0 = none ∧ State.reset.withFetchWord 32 0 = State.reset := by decide +kernel

/-- A step takes the first command and leaves the second in the queue. -/
theorem test_step_takes_the_front : ends (step { State.reset with pending := [.spiStatus true, .xtalLock] })
    (fun t => t.pending == [.xtalLock] && t.spi.words.length == 1) = true := by decide +kernel

/-- R206: a subcarrier splits into 2^w bands. -/
theorem test_wf_bands : wellFormed (.preambleDetect 0 0 [(0, 1)] [(0, 0)] 0 0) = false ∧ wellFormed (.burstHeaderDecode 0 0 1 2 0) = false ∧
    wellFormed (.burstRxDone 0 0 1 3 0 0 0 0) = false ∧ wellFormed (.idleMeasure 0 0 1 2 0) = false := by decide

/-- R298: defect 0 is one of an engine, defect 8 one of a group. -/
theorem test_wf_defects : wellFormed (.defectDeclare 0 (.group 3) false) = false ∧ wellFormed (.defectClear 8 (.engine 0)) = false := by decide

/-- R303: the magnitudes of these taps sum to 64. -/
theorem test_wf_taps : wellFormed (.trainingComplete 0 (63 * 1024 + 1)) = false := by decide

/-- 04_line_transmit.md, option A of the worked case: coded rate 2,291.6 Gb/s and net rate 1,805.1 Gb/s. -/
theorem test_worked_rate : codedTenths (codedRate 1000 3 8 3 152) = 22916 ∧ netTenths 2 (codedRate 1000 3 8 3 152) = 18051 := by decide +kernel

/-- 05_line_receive.md, the worked case of R197: LQ 148, and 116 with one slip. -/
theorem test_worked_quality : lqExact 5729000 286450000 500 0 = 148 ∧ lqExact 5729000 286450000 500 1 = 116 := by decide +kernel

/-- 06_point_to_multipoint.md, grants 0 and 1 of the worked case: G, and T = 368 + P. -/
theorem test_worked_burst : grantSymbols 480 0 240 = 112500 ∧ 368 + payloadSymbols 2 212 = 112414 ∧ grantSymbols 480 1 512 = 120000 ∧
    368 + payloadSymbols 0 113 = 119813 := by decide +kernel

/-- R137: sign 1 and label 10 is the level −7; R139: position 32 carries a pilot, and data symbol 31 stands behind it. -/
theorem test_symbols : dimension [true, true, false] = -7 ∧ isPilot 32 = true ∧ dataPosition 31 = 33 ∧ dataIndex 33 = 31 := by decide

/-- R141: of the enabled subcarriers 1 and 3 of four, symbol 5 of the stream goes to subcarrier 3 as its data symbol 2. -/
theorem test_dealing : dealTo 4 10 5 = some (3, 2) ∧ dealFrom 4 10 3 (dataPosition 2) = some 5 := by decide

/-- R564, R557: in DORMANT (mode 0) ENV is at 0 V and PCIe is not driven, GPIO is not driven before GPIO_DIR says so; code 1,023 is 1.2 V. -/
theorem test_balls : ballDrive (st 0 []) (.env 0) = .low ∧ ballDrive (st 0 []) .pcieTx = .highZ ∧ ballDrive (st 4 []) (.gpio 3) = .highZ ∧
    envMicrovolts 1023 = 1200000 := by decide +kernel

/-- R98: STANDBY (3) has a row of its own. -/
theorem test_wf_mode_code : wellFormed (.modeReqNotAllowed .mgmt 3 0) = false := by decide

namespace Fabric

/-- A word MGMT wrote. -/
def mw : MbxWord := { word := 7, writer := 3 }
/-- Mailbox direction `n` holds `k` words. -/
def mb (n k : Nat) (s : State) : State := { s with fab := { s.fab with mbx := [(n, List.replicate k mw)] } }
/-- Vector 63 pends, unmasked, with the link up or down. -/
def vs (u : Bool) (s : State) : State := { s with ev := { s.ev with linkUp := u, msiEnabled := true, funcUnmasked := true, msiUnmasked := [(63, true)], msiPend := [(63, true)] } }

/-- The hypotheses of EventForceSetsSticky are met together. -/
theorem witness_EventForceSetsSticky : ∃ (m : Master) (p : Fin 256) (s : State), s.admits m p.val true :=
  ⟨.mgmt, 2, (st 4 [(F.LOCK_owner 2, 0)]), by unfold State.admits; decide +kernel⟩

/-- The hypotheses of LocksBehave are met, clause by clause. -/
theorem witness_LocksBehave :
    (∃ (m : Master) (l : LockId) (s : State), s.reaches m (lockPage l) = true ∧ definedPage (lockPage l) = true) ∧
    (∃ (m : Master) (l : LockId) (s : State), s.reaches m (lockPage l) = true ∧ definedPage (lockPage l) = true) :=
  ⟨⟨.pcie, (.page 0xFC), (st 4 [(F.LOCK_owner 0xFC, 0)]), by decide +kernel⟩,
   ⟨.pcie, (.page 0xFC), (st 4 [(F.LOCK_owner 0xFC, 4)]), by decide +kernel⟩⟩

/-- The hypotheses of EmptyMailboxReadsZero are met together. -/
theorem witness_EmptyMailboxReadsZero : ∃ (m : Master) (n : Fin 12) (s : State), s.reaches m 0x09 = true ∧ s.mbxQ n.val = [] :=
  ⟨.pcie, 11, (st 4 []), by decide +kernel⟩

/-- The hypotheses of FullMailboxDropsWord are met together. -/
theorem witness_FullMailboxDropsWord : ∃ (m : Master) (n : Fin 12) (s : State), s.admits m 0x09 true ∧ endpoint m = (mbxEnds n.val).1 ∧ s.on (F.MBX_STAT_rx_in_reset n.val) = false ∧ 8 ≤ (s.mbxQ n.val).length :=
  ⟨.pcie, 0, (mb 0 8 (st 4 [(F.LOCK_owner 9, 0), (F.MBX_STAT_rx_in_reset 0, 0)])), by unfold State.admits; decide +kernel⟩

/-- The hypotheses of MailboxCommandsRun are met, clause by clause. -/
theorem witness_MailboxCommandsRun :
    (∃ (m : Master) (n : Fin 12) (s : State), s.admits m 0x09 true ∧ endpoint m = (mbxEnds n.val).1 ∧ s.on (F.MBX_STAT_rx_in_reset n.val) = false ∧ (s.mbxQ n.val).length < 8) ∧
    (∃ (m : Master) (n : Fin 12) (w : MbxWord) (q : List MbxWord) (s : State), s.reaches m 0x09 = true ∧ endpoint m = (mbxEnds n.val).2 ∧ s.mbxQ n.val = w :: q ∧ Tbl.get [] s.fab.replies n.val = []) ∧
    (∃ (n : Fin 12) (s : State), s.mbxQ n.val ≠ [] ∧ Tbl.get false s.fab.mbxTimed n.val = false) ∧
    (∃ (m : Master) (n : Fin 12) (s : State), s.admits m 0x09 true ∧ endpoint m = 0 ∧ (mbxEnds n.val).2 = 0 ∧ Tbl.get [] s.fab.replies 3 = []) :=
  ⟨⟨.pcie, 0, (mb 0 7 (st 4 [(F.LOCK_owner 9, 0), (F.MBX_STAT_rx_in_reset 0, 0)])), by unfold State.admits; decide +kernel⟩,
   ⟨.pcie, 3, mw, [], (mb 3 1 (st 4 [(F.LOCK_owner 9, 0), (F.MBX_STAT_rx_in_reset 0, 0)])), by decide +kernel⟩,
   ⟨11, (mb 11 1 (st 4 [])), by decide +kernel⟩,
   ⟨.spi, 3, (mb 3 1 (st 4 [(F.LOCK_owner 9, 0)])), by unfold State.admits; decide +kernel⟩⟩

/-- The hypotheses of VectorsSend are met, clause by clause. -/
theorem witness_VectorsSend :
    (∃ (m : Master) (v : Fin 64) (s : State), s.admits m 0x01 true ∧ s.vecSummary v.val = true) ∧
    (∃ (v : Fin 64) (s : State), Tbl.get false s.ev.msiPend v.val = true) :=
  ⟨⟨.mgmt, 63, (vs true (st 4 [(F.LOCK_owner 1, 0), (F.DEV_PAGE_ROUTE_to_msix 6, 1), (F.DEV_PAGE_ROUTE_vector 6, 63), (F.EVT_STICKY 6, 1), (F.EVT_EN 6, 1)])), by unfold State.admits; decide +kernel⟩,
   ⟨63, (vs true (st 4 [(F.DEV_PAGE_ROUTE_to_msix 6, 1), (F.DEV_PAGE_ROUTE_vector 6, 63), (F.EVT_STICKY 6, 1), (F.EVT_EN 6, 1)])), by decide +kernel⟩⟩

/-- R65, R67: a read of a free lock gives it to the reader, whose code is 4 (PCIE), and reads 0. -/
theorem test_lock_taken_by_reader : ends (exec (.lockAcquire .pcie (.page 0xFC)) (st 4 []))
    (fun t => t.g (F.LOCK_owner 0xFC) == 4 && t.fab.readData == 0) = true := by decide +kernel

/-- R67: a read of a lock that SPI (5) holds reads 0x8000_0005 and leaves it. -/
theorem test_lock_held_reads_owner : ends (exec (.lockAcquire .pcie (.general 63)) (st 4 [(F.LOCKN_owner 63, 5)]))
    (fun t => t.g (F.LOCKN_owner 63) == 5 && t.fab.readData == 0x80000005) = true := by decide +kernel

/-- R67: a release by a master that does not hold the lock counts in LOCK_ERR. -/
theorem test_lock_release_by_other : ends (exec (.lockRelease .pcie (.page 0xFC) 4) (st 4 [(F.LOCK_owner 0xFC, 3)]))
    (fun t => t.g (F.LOCK_owner 0xFC) == 3 && t.g F.LOCK_ERR_count == 1 && t.g F.LOCK_ERR_last_master == 4) = true := by decide +kernel

/-- R69: PCIE held two locks, SPI one. -/
theorem test_master_reset_counts_orphans : ends (exec (.masterReset .pcie true) (st 4 [(F.LOCKN_owner 0, 4), (F.LOCK_owner 0xFC, 4), (F.LOCK_owner 2, 5)]))
    (fun t => t.g F.LOCK_ORPHAN_count == 2 && t.g (F.LOCK_owner 2) == 5 && t.g (F.LOCK_owner 0xFC) == 0) = true := by decide +kernel

/-- R73: eight words are held, the ninth is dropped with overrun. -/
theorem test_mailbox_ninth_word_dropped : ends (exec (.mbxTx .pcie 0 9) (mb 0 8 (st 4 [])))
    (fun t => (t.mbxQ 0).length == 8 && t.on (F.MBX_STAT_overrun 0)) = true := by decide +kernel

/-- R71: the eighth word is queued last. -/
theorem test_mailbox_eighth_word_kept : ends (exec (.mbxTx .pcie 0 9) (mb 0 7 (st 4 [])))
    (fun t => (t.mbxQ 0).getLast? == some { word := 9, writer := 4 }) = true := by decide +kernel

/-- R82: the count of dropped words saturates. -/
theorem test_fifo_resync_saturates : ends (exec (.fifoResync 0 63 0 255 5) (st 4 [(F.XS_DROP_CNT_count, 0xFFFFFFFE)]))
    (fun t => t.g F.XS_DROP_CNT_count == 0xFFFFFFFF && t.g F.XS_RESYNC_HI_bits == 0x80000000) = true := by decide +kernel

/-- R54: 5 or 2. -/
theorem test_evt_force_sets : ends (exec (.evtForce .mgmt 2 2) (st 4 [(F.EVT_STICKY 2, 5)]))
    (fun t => t.g (F.EVT_STICKY 2) == 7 && t.g (F.EVT_RAW 2) == 0) = true := by decide +kernel

end Fabric

namespace Commit

/-- Page `p` is not locked. -/
def lo (p : Nat) (r : List (Field × Nat)) (md : Nat := 4) : State := st md ([(F.LOCK_owner p, 0)] ++ r)
/-- Page `p` of domain `d` with no COMMIT pending, under commit_sync. -/
def cm (p d : Nat) (r : List (Field × Nat)) : State := lo p ([(F.PAGE_STAT_commit_pending d, 0), (F.PAGE_CTRL_commit_sync d, 1)] ++ r)

/-- The hypotheses of RegisterWriteByAccessCode are met, clause by clause. -/
theorem witness_RegisterWriteByAccessCode :
    (∃ (m : Master) (p : Fin 256) (s : State), s.admits m p.val true ∧ settled s) ∧
    (∃ (m : Master) (p : Fin 256) (s : State), s.reaches m p.val = true ∧ definedPage p.val = true ∧ settled s) ∧
    (∃ (m : Master) (le : Fin 2) (s : State), s.admits m (0x10 + 0x40 * le.val) false ∧ settled s) ∧
    (∃ (m : Master) (a : Addr) (v : Word) (fs : List FSpec) (s : State), plainRegister m a.toNat v.toNat ∧ regAt a.toNat = some fs ∧ s.admits m (pageOf a.toNat) false ∧ settled s) ∧
    (∃ (m : Master) (a : Addr) (narrow : Bool) (s : State), s.reaches m (pageOf a.toNat) = true ∧ s.logRuns = true ∧ (narrow = true ∨ a.toNat % 4 ≠ 0)) :=
  ⟨⟨.mgmt, 6, (lo 6 []), by unfold settled State.admits; decide +kernel⟩,
   ⟨.mgmt, 6, (lo 6 [(F.EVT_STICKY 6, 0x101), (F.LOCK_owner 6, 5)]), by unfold settled; decide +kernel⟩,
   ⟨.mgmt, 1, (lo 0x50 []), by unfold settled State.admits; decide +kernel⟩,
   ⟨.mgmt, 0x604C, 0xFFFF0000, [⟨31, 16, .rw, 0⟩, ⟨15, 0, .rw, 0⟩], (lo 6 []), by unfold settled plainRegister State.admits; decide +kernel⟩,
   ⟨.pcie, 0x18041, false, (lo 0 []), by decide +kernel⟩⟩

/-- The hypotheses of PinAccessesRun are met, clause by clause. -/
theorem witness_PinAccessesRun :
    (∃ (p : Fin 256) (s : State), s.admits .spi p.val true ∧ s.mode ≠ 0 ∧ settled s) ∧
    (∃ (p : Fin 256) (s : State), s.reaches .spi p.val = true ∧ definedPage p.val = true ∧ s.mode ≠ 0 ∧ settled s) ∧
    (∃ (n : Fin 16) (rising : Bool) (s : State), (s.g F.GPIO_DIR_dir).testBit n.val = false ∧ s.domainUp 0x06 = true ∧ (s.g F.GPIO_IN_in).testBit n.val = !rising) :=
  ⟨⟨6, (lo 6 []), by unfold settled State.admits; decide +kernel⟩,
   ⟨6, (lo 6 [(F.EVT_STICKY 6, 0x101)]), by unfold settled; decide +kernel⟩,
   ⟨15, true, (st 4 [(F.GPIO_DIR_dir, 0), (F.GPIO_IN_in, 0), (F.GPIO_EDGE_rising, 0x8000)]), by decide +kernel⟩⟩

/-- The hypotheses of CommitCommandsRun are met, clause by clause. -/
theorem witness_CommitCommandsRun :
    (∃ (m : Master) (p : Fin 256) (s : State), s.admits m p.val true ∧ s.domainUp (domainOf p.val) = true ∧ s.on (F.PAGE_STAT_commit_pending (domainOf p.val)) = false ∧ checkedOk m p.val s) ∧
    (∃ (m : Master) (p : Fin 256) (s : State), s.admits m p.val true ∧ s.domainUp (domainOf p.val) = true ∧ s.on (F.PAGE_STAT_commit_pending (domainOf p.val)) = false ∧ checkedOk m p.val s) ∧
    (∃ (m : Master) (p : Fin 256) (s : State), s.admits m p.val true) :=
  ⟨⟨.enclave, 0xD0, (cm 0xD0 0xD0 []), by unfold checkedOk State.admits; decide +kernel⟩,
   ⟨.enclave, 0xD0, (cm 0xD0 0xD0 []), by unfold checkedOk State.admits; decide +kernel⟩,
   ⟨.enclave, 0xD0, (cm 0xD0 0xD0 [(F.PAGE_STAT_commit_armed 0xD0, 1), (F.PAGE_STAT_commit_pending 0xD0, 1)]), by unfold State.admits; decide +kernel⟩⟩

/-- The hypotheses of PendingCommitIsBusy are met together. -/
theorem witness_PendingCommitIsBusy : ∃ (m : Master) (p : Fin 256) (s : State) (c : Instr), s.admits m p.val true ∧ s.on (F.PAGE_STAT_commit_pending (domainOf p.val)) = true ∧ (c = .commitGo m p ∨ c = .commitCheck m p) :=
  ⟨.mgmt, 0xD0, (lo 0xD0 [(F.PAGE_STAT_commit_pending 0xD0, 1)]), (.commitGo .mgmt 0xD0), by unfold State.admits; decide +kernel⟩

/-- The hypotheses of CommitAppliesWholeSet are met together. -/
theorem witness_CommitAppliesWholeSet : ∃ (p : Fin 256) (s : State), settled s ∧ domainOf p.val ≠ 0xE4 ∧ s.on (F.PAGE_STAT_commit_pending (domainOf p.val)) = true ∧ s.on (F.PAGE_STAT_commit_armed (domainOf p.val)) = false ∧ timedOf s (domainOf p.val) = false :=
  ⟨0xD0, (lo 0xD0 [(F.PAGE_STAT_commit_pending 0xD0, 1), (F.PAGE_STAT_commit_armed 0xD0, 0)]), by unfold settled; decide +kernel⟩

/-- The hypotheses of SnapshotsSyncAndReset are met, clause by clause. -/
theorem witness_SnapshotsSyncAndReset :
    (∃ (m : Master) (p : Fin 256) (s : State), s.admits m p.val true ∧ s.domainUp p.val = true ∧ p.val ≠ 0xF8 ∧ s.on (F.PAGE_STAT_snap_busy p.val) = false) ∧
    (∃ (m : Master) (s : State), s.admits m 0xF8 true ∧ s.domainUp 0xF8 = true ∧ s.on (F.PAGE_STAT_snap_busy 0xF8) = false) ∧
    (∃ (m : Master) (p : Fin 256) (s : State), s.admits m p.val true ∧ (s.on (F.PAGE_STAT_snap_busy p.val) = true ∨ s.domainUp p.val = false)) ∧
    (∃ (p : Fin 256) (s : State), s.on (F.PAGE_STAT_snap_busy p.val) = true ∧ p.val ≠ 0xF8) ∧
    (∃ (p : Fin 256) (s : State), (p.val = 0xF8 ∨ s.on (F.PAGE_STAT_snap_busy p.val) = false)) ∧
    (∃ (m : Master) (s : State), s.admits m 0x00 true) ∧
    (∃ (m : Master) (p : Fin 256) (s : State), s.admits m p.val true) :=
  ⟨⟨.mgmt, 0xA0, (lo 0xA0 [(F.PAGE_STAT_snap_busy 0xA0, 0)]), by unfold State.admits; decide +kernel⟩,
   ⟨.mgmt, (lo 0xF8 [(F.PAGE_STAT_snap_busy 0xF8, 0), (F.CNT_FREEZE_lead, 65535)]), by unfold State.admits; decide +kernel⟩,
   ⟨.mgmt, 0xF8, (lo 0xF8 [(F.PAGE_STAT_snap_busy 0xF8, 1), (F.CNT_FREEZE_lead, 65535)]), by unfold State.admits; decide +kernel⟩,
   ⟨0xA0, (lo 0xA0 [(F.PAGE_STAT_snap_busy 0xA0, 1)]), by decide +kernel⟩,
   ⟨2, (lo 2 []), by decide +kernel⟩,
   ⟨.mgmt, (lo 0 [(F.PAGE_STAT_commit_armed 0xD0, 1), (F.PAGE_STAT_commit_pending 0xD0, 1)]), by unfold State.admits; decide +kernel⟩,
   ⟨.mgmt, 0xD0, (lo 0xD0 [(F.PAGE_STAT_commit_pending 0xD0, 1)]), by unfold State.admits; decide +kernel⟩⟩

/-- R15, R68: a 1 written to EVT_STICKY clears its bit, whoever holds the LOCK. -/
theorem test_w1c_clears_under_lock : ends (exec (.registerWrite .mgmt 0x6014 0xFFFFFFFE false) (lo 6 [(F.EVT_STICKY 6, 0x101), (F.LOCK_owner 6, 5)]))
    (fun t => t.g (F.EVT_STICKY 6) == 1) = true := by decide +kernel

/-- R68: EVT_EN under the LOCK of SPI keeps its value, and the refusal is recorded with reason DENIED (4). -/
theorem test_rw_refused_under_lock : ends (exec (.registerWrite .mgmt 0x6018 0xFFFFFFFF false) (lo 6 [(F.LOCK_owner 6, 5)]))
    (fun t => t.g (F.EVT_EN 6) == 0 && t.g F.FAB_ERR_LAST_INFO_reason == 4) = true := by decide +kernel

/-- R15: LE1_ROLE takes its fields in the staged set only. -/
theorem test_rws_is_staged : ends (exec (.registerWrite .mgmt 0x50040 0x00003105 false) (lo 0x50 []))
    (fun t => t.stg (F.LE_ROLE_role 1) == 5 && t.stg (F.LE_ROLE_line_mode 1) == 3 && t.inForce == []) = true := by decide +kernel

/-- R562: ball 15 rises with its rising edge enabled. -/
theorem test_gpio_rising_edge : ends (exec (.gpioEdge 15 true) (st 4 [(F.GPIO_EDGE_rising, 0x8000)]))
    (fun t => t.g F.GPIO_IN_in == 0x8000 && t.g (F.EVT_STICKY 6) == 0x8000) = true := by decide +kernel

/-- R58, R64: under commit_sync the COMMIT is pending and armed, and nothing is in force yet. -/
theorem test_commit_pends : ends (exec (.commitGo .mgmt 0xD0) (cm 0xD0 0xD0 []))
    (fun t => t.on (F.PAGE_STAT_commit_pending 0xD0) && t.on (F.PAGE_STAT_commit_armed 0xD0) && t.inForce == []) = true := by decide +kernel

/-- R60: BUSY is reason 0x0A. -/
theorem test_second_commit_is_busy : ends (exec (.commitGo .mgmt 0xD0) (lo 0xD0 [(F.PAGE_STAT_commit_pending 0xD0, 1)]))
    (fun t => t.g (F.PAGE_STAT_commit_reason 0xD0) == 0x0A && t.on (F.PAGE_STAT_commit_pending 0xD0)) = true := by decide +kernel

/-- R58: commit_seq wraps at 8 bits. -/
theorem test_commit_counts : ends (exec (.commitApply 0xD0) (lo 0xD0 [(F.PAGE_STAT_commit_pending 0xD0, 1), (F.COMMIT_seq 0xD0, 255)]))
    (fun t => t.g (F.COMMIT_seq 0xD0) == 0 && !t.on (F.PAGE_STAT_commit_pending 0xD0)) = true := by decide +kernel

end Commit

namespace Modes

/-- The device part changed. -/
def dv (f : Dev → Dev) (s : State) : State := { s with dev := f s.dev }

/-- The hypotheses of PinsAndPower are met, clause by clause. -/
theorem witness_PinsAndPower :
    (∃ (s : State), s.dev.vaon = false) ∧
    (∃ (s : State), s.dev.vaon = true) ∧
    (∃ (s : State), s.dev.vaon = true) ∧
    (∃ (s : State), s.dev.vaon = true ∧ s.dev.held = false) ∧
    (∃ (s : State), s.dev.vaon = true ∧ s.dev.held = true ∧ s.dev.flash = []) :=
  ⟨⟨(dv (fun d => { d with vaon := false }) (st 4 [])), by decide +kernel⟩,
   ⟨(st 4 []), by decide +kernel⟩,
   ⟨(st 4 []), by decide +kernel⟩,
   ⟨(st 4 []), by decide +kernel⟩,
   ⟨(dv (fun d => { d with held := true }) (st 4 [])), by decide +kernel⟩⟩

/-- The hypotheses of ResetsAndWakes are met, clause by clause. -/
theorem witness_ResetsAndWakes :
    (∃ (m : Master) (s : State), s.admits m 0x00 true ∧ s.dev.flash = [] ∧ s.dev.vaon = true) ∧
    (∃ (m : Master) (key : BitVec 16) (s : State), s.admits m 0x00 true ∧ key ≠ 0xA5C3 ∧ settled s) ∧
    (∃ (s : State), enclaveUp s = true ∧ s.dev.flash = []) ∧
    (∃ (s : State), s.mode = 0 ∧ s.dev.vaon = true ∧ s.dev.held = false ∧ s.dev.flash = [] ∧ s.on F.HMP_WAKE_EN_wake_n = true) ∧
    (∃ (s : State), s.mode = 0 ∧ s.dev.vaon = true ∧ s.dev.held = false ∧ s.dev.flash = [] ∧ s.on F.HMP_WAKE_EN_spi_any = true) :=
  ⟨⟨.mgmt, (st 4 [(F.LOCK_owner 0, 0)]), by unfold State.admits; decide +kernel⟩,
   ⟨.mgmt, 3, (st 4 [(F.LOCK_owner 0, 0)]), by unfold settled State.admits; decide +kernel⟩,
   ⟨(st 4 []), by decide +kernel⟩,
   ⟨(st 0 [(F.HMP_WAKE_EN_wake_n, 1)]), by decide +kernel⟩,
   ⟨(st 0 [(F.HMP_WAKE_EN_spi_any, 1)]), by decide +kernel⟩⟩

/-- The hypotheses of ModeRequestsAnswered are met, clause by clause. -/
theorem witness_ModeRequestsAnswered :
    (∃ (m : Master) (s : State), s.admits m 0x00 true ∧ s.on F.DEV_MODE_transition = false ∧ s.mode ≠ 7 ∧ s.dev.flash = [] ∧ s.dev.held = false) ∧
    (∃ (m : Master) (s : State), s.admits m 0x00 true ∧ s.on F.DEV_MODE_transition = false ∧ s.mode = 3 ∧ settled s) ∧
    (∃ (m : Master) (s : State), s.admits m 0x00 true ∧ s.on F.DEV_MODE_transition = false ∧ (s.mode = 4 ∨ s.mode = 5 ∨ s.mode = 6) ∧ settled s) ∧
    (∃ (m : Master) (s : State), s.admits m 0x00 true ∧ s.on F.DEV_MODE_transition = false ∧ (s.mode = 2 ∨ s.mode = 3 ∨ s.mode = 7) ∧ settled s) ∧
    (∃ (m : Master) (maint : BitVec 2) (s : State), s.admits m 0x00 true ∧ s.on F.DEV_MODE_transition = false ∧ s.mode = 3 ∧ maint ≠ 0 ∧ s.role 0 ≠ 4 ∧ s.role 1 ≠ 4 ∧ settled s) ∧
    (∃ (m : Master) (code : BitVec 4) (s : State), s.admits m 0x00 true ∧ s.on F.DEV_MODE_transition = false ∧ codeRefused code = true ∧ settled s) ∧
    (∃ (s : State), s.dev.req = some 3 ∧ s.runState 0 = 0 ∧ s.runState 1 = 0) ∧
    (∃ (s : State), s.dev.req = some 6 ∧ s.runState 0 = 0 ∧ s.runState 1 = 0) :=
  ⟨⟨.pcie, (st 4 [(F.LOCK_owner 0, 0), (F.DEV_MODE_transition, 0)]), by unfold State.admits; decide +kernel⟩,
   ⟨.pcie, (st 3 [(F.LOCK_owner 0, 0), (F.DEV_MODE_transition, 0)]), by unfold settled State.admits; decide +kernel⟩,
   ⟨.pcie, (st 4 [(F.LOCK_owner 0, 0), (F.DEV_MODE_transition, 0)]), by unfold settled State.admits; decide +kernel⟩,
   ⟨.pcie, (st 3 [(F.LOCK_owner 0, 0), (F.DEV_MODE_transition, 0)]), by unfold settled State.admits; decide +kernel⟩,
   ⟨.pcie, 2, (st 3 [(F.LOCK_owner 0, 0), (F.DEV_MODE_transition, 0), (F.LE_ROLE_STAT_role_active 0, 1), (F.LE_ROLE_STAT_role_active 1, 2)]), by unfold settled State.admits; decide +kernel⟩,
   ⟨.pcie, 5, (st 3 [(F.LOCK_owner 0, 0), (F.DEV_MODE_transition, 0)]), by unfold settled State.admits; decide +kernel⟩,
   ⟨(dv (fun d => { d with req := some 3 }) (st 4 [(F.LE_ROLE_STAT_run_state 0, 0), (F.LE_ROLE_STAT_run_state 1, 0)])), by decide +kernel⟩,
   ⟨(dv (fun d => { d with req := some 6 }) (st 4 [(F.LE_ROLE_STAT_run_state 0, 0), (F.LE_ROLE_STAT_run_state 1, 0)])), by decide +kernel⟩⟩

/-- The hypotheses of HamperAndSupplyRun are met, clause by clause. -/
theorem witness_HamperAndSupplyRun :
    (∃ (b : Bcr) (s : State), s.dev.bcr = some b ∧ b.wait = 1 ∧ b.entries.length ≤ b.idx ∧ s.dev.spiWake = none ∧ s.dev.bootPending = false) ∧
    (∃ (s : State), s.on F.DEV_AVS_avs_busy = true) ∧
    (∃ (s : State), s.on F.DEV_AVS_avs_busy = true) ∧
    (∃ (c : Fin 6) (s : State), s.dev.vaon = true ∧ sensorOn s c.val = true) ∧
    (∃ (c : Fin 6) (s : State), s.dev.vaon = true ∧ sensorOn s c.val = false) ∧
    (∃ (m : Master) (s : State), s.admits m 0xE0 true) ∧
    (∃ (m : Master) (l : RuleLog) (rest : List RuleLog) (s : State), s.admits m 0xE2 true ∧ s.hmpLog = l :: rest) ∧
    (∃ (m : Master) (s : State), s.admits m 0xE0 true) :=
  ⟨⟨{ entries := [], wait := 1 }, (dv (fun d => { d with bcr := some { entries := [], wait := 1 } }) (st 4 [])), by decide +kernel⟩,
   ⟨(st 4 [(F.DEV_AVS_avs_busy, 1), (F.DEV_AVS_fused_code, 5)]), by decide +kernel⟩,
   ⟨(st 4 [(F.DEV_AVS_avs_busy, 1)]), by decide +kernel⟩,
   ⟨2, (st 4 [(F.TMP_CFG_enables, 255)]), by decide +kernel⟩,
   ⟨2, (st 0 [(F.TMP_CFG_enables, 2)]), by decide +kernel⟩,
   ⟨.mgmt, (st 4 [(F.LOCK_owner 0xE0, 0)]), by unfold State.admits; decide +kernel⟩,
   ⟨.pcie, {w0 := 3, f := 4, time := 2^33+4, waits := true}, [], {(st 4 [(F.LOCK_owner 0xE2, 0)]) with hmpLog := [{w0 := 3, f := 4, time := 2^33+4, waits := true}]}, by unfold State.admits; decide +kernel⟩,
   ⟨.pcie, (st 4 [(F.LOCK_owner 0xE0, 0), (F.HMP_PD_le0, 1), (F.HMP_PD_le1, 1)]), by unfold State.admits; decide +kernel⟩⟩

/-- R91, R97: DORMANT is mode 0, and mode_prev names STANDBY (3). -/
theorem test_dormant_from_standby : ends (exec (.modeReqDormant .pcie 0) (st 3 [(F.DEV_MODE_transition, 0)]))
    (fun t => t.mode == 0 && t.g F.DEV_MODE_mode_prev == 3 && t.g F.DEV_MODE_req_result == 1) = true := by decide +kernel

/-- R98: code 8 is answered with result 4, and the mode stays. -/
theorem test_mode_code_reserved : ends (exec (.modeReqNotAllowed .pcie 8 0) (st 3 [(F.DEV_MODE_transition, 0)]))
    (fun t => t.mode == 3 && t.g F.DEV_MODE_req_result == 4) = true := by decide +kernel

/-- R98: code 5 (DEGRADED) is answered with result 3. -/
theorem test_mode_code_not_allowed : ends (exec (.modeReqNotAllowed .pcie 5 0) (st 3 [(F.DEV_MODE_transition, 0)]))
    (fun t => t.mode == 3 && t.g F.DEV_MODE_req_result == 3) = true := by decide +kernel

/-- R102: another key than 0xA5C3 resets nothing. -/
theorem test_reset_key_wrong : ends (exec (.devReset .mgmt 0xA5C2) (st 4 []))
    (fun t => t.mode == 4 && !t.on F.DEV_RESET_CAUSE_reset_cmd) = true := by decide +kernel

/-- R102, R110: the reset runs WAKE, which ends in SAFE (2) without an image. -/
theorem test_reset_key_right : ends (exec (.devReset .mgmt 0xA5C3) (st 4 []))
    (fun t => t.mode == 2 && t.on F.DEV_RESET_CAUSE_reset_cmd) = true := by decide +kernel

/-- R425: an enabled sensor erases and ends in ZEROISED (7). -/
theorem test_tamper_erases : ends (exec (.tamperTrip 2 5) (st 4 [(F.TMP_CFG_enables, 4)]))
    (fun t => t.mode == 7 && t.g F.TMP_STAT_latched_causes == 4) = true := by decide +kernel

/-- R549: the setpoint stays and the error is 0x8C. -/
theorem test_avs_fails : ends (exec .avsFail (st 4 [(F.DEV_AVS_avs_busy, 1)]))
    (fun t => t.g F.DEV_AVS_setpoint_code == 0x14 && t.g (F.ERR_code 0) == 0x8C) = true := by decide +kernel

end Modes

namespace Transmit


/-- The hypotheses of EnginesStartAndStop are met, clause by clause. -/
theorem witness_EnginesStartAndStop :
    (∃ (le : Fin 2) (s : State), s.runState le.val = 1 ∧ s.g (F.LE_ROLE_STAT_start_step le.val) = 0) ∧
    (∃ (le : Fin 2) (s : State), s.runState le.val = 1 ∧ s.g (F.LE_ROLE_STAT_start_step le.val) = 9 ∧ s.on (F.UBH_STAT_tx_ready le.val) = true) ∧
    (∃ (le : Fin 2) (s : State), s.runState le.val = 3) ∧
    (∃ (le : Fin 2) (s : State), s.on (F.LE_TX_PLAN_STAT_reload_busy le.val) = true) ∧
    (∃ (le : Fin 2) (s : State), s.on (F.LE_TX_PLAN_STAT_reload_busy le.val) = true ∧ s.runState le.val = 2 ∧ s.on (F.ERR_valid (lep le.val 0x10)) = false) ∧
    (∃ (le : Fin 2) (s : State), settled s ∧ s.runState le.val = 2 ∧ s.on (F.LE_TX_PLAN_STAT_timed_pending le.val) = true ∧ s.on (F.PAGE_STAT_commit_pending (lep le.val 0x10)) = true ∧ s.on (F.PAGE_STAT_commit_armed (lep le.val 0x10)) = false ∧ engineBarred le.val s = false) :=
  ⟨⟨1, (st 4 [(F.LE_ROLE_STAT_run_state 1, 1), (F.LE_ROLE_STAT_start_step 1, 0)]), by decide +kernel⟩,
   ⟨0, (st 4 [(F.LE_ROLE_STAT_run_state 0, 1), (F.LE_ROLE_STAT_start_step 0, 9), (F.UBH_STAT_tx_ready 0, 1)]), by decide +kernel⟩,
   ⟨0, (st 4 [(F.LE_ROLE_STAT_run_state 0, 3)]), by decide +kernel⟩,
   ⟨0, (st 4 [(F.LE_TX_PLAN_STAT_reload_busy 0, 1)]), by decide +kernel⟩,
   ⟨0, (st 4 [(F.LE_TX_PLAN_STAT_reload_busy 0, 1), (F.LE_ROLE_STAT_run_state 0, 2), (F.ERR_valid 0x10, 0)]), by decide +kernel⟩,
   ⟨0, (st 4 [(F.LE_TX_PLAN_STAT_timed_pending 0, 1), (F.LE_ROLE_STAT_run_state 0, 2), (F.PAGE_STAT_commit_pending 0x10, 1), (F.PAGE_STAT_commit_armed 0x10, 0)]), by unfold settled; decide +kernel⟩⟩

/-- The hypotheses of MaskCommandsRun are met, clause by clause. -/
theorem witness_MaskCommandsRun :
    (∃ (le : Fin 2) (s : State), s.runState le.val = 2 ∧ s.pageOn (lep le.val 0x15) = true ∧ s.cur (F.LE_TX_MASK_CTRL_action le.val) ≠ 0) ∧
    (∃ (m : Master) (le : Fin 2) (s : State), s.reaches m (lep le.val 0x15) = true ∧ s.domainUp (lep le.val 0x15) = true) :=
  ⟨⟨0, (cf [(F.LE_TX_MASK_CTRL_action 0, 1), (F.LE_TX_MASK_LIMIT_limits 0 0, 0)] (st 4 [(F.LE_ROLE_STAT_run_state 0, 2)])), by decide +kernel⟩,
   ⟨.pcie, 0, (st 4 [(F.LE_ROLE_STAT_run_state 0, 2)]), by decide +kernel⟩⟩

/-- R112, R113: a failed start step stops the engine with code 0x81. -/
theorem test_start_step_fails : ends (exec (.engineStartStep 1 false [] []) (st 4 [(F.LE_ROLE_STAT_run_state 1, 1)]))
    (fun t => t.runState 1 == 0 && t.g (F.ERR_code 0x50) == 0x81) = true := by decide +kernel

/-- R153, R157: DAC_CAL is code 0x85; STOPPING is 3. -/
theorem test_reload_of_dac_fails : ends (exec (.reloadDone 0 (some true)) (st 4 [(F.LE_TX_PLAN_STAT_reload_busy 0, 1), (F.LE_ROLE_STAT_run_state 0, 2)]))
    (fun t => t.runState 0 == 3 && t.g (F.ERR_code 0x10) == 0x85) = true := by decide +kernel

/-- R146: a W1C register. -/
theorem test_mask_unmute : ends (exec (.maskUnmute .pcie 0 5) (st 4 [(F.LE_ROLE_STAT_run_state 0, 2), (F.LE_TX_MASK_MUTED_muted 0, 7)]))
    (fun t => t.g (F.LE_TX_MASK_MUTED_muted 0) == 2) = true := by decide +kernel

end Transmit

namespace Receive

/-- A stream of engine `le` is in frame. -/
def inF (le : Nat) (s : State) : State := s.modGlf le fun g => { g with frame := [(3,2)], pred := [(3, s.g (F.LE_RX_FOLLOW_AT_frame le))] }
/-- The receiver of engine `le` changed. -/
def rx (le : Nat) (f : Rx → Rx) (s : State) : State := s.modRx le f
/-- Subcarrier `k` of engine `le` is in state `v`. -/
def sc (le k v : Nat) := rx le fun r => { r with sc := [(k, v)] }
/-- An ENTROPY_ANN message with a right checksum. -/
def bd : List Byte := let b : List Byte := [70,0,0,0,1,2,3,4]; b ++ toLe 4 (crc32c b)

/-- The hypotheses of AcquisitionMovesStates are met, clause by clause. -/
theorem witness_AcquisitionMovesStates :
    (∃ (le : Fin 2) (optical : Bool) (s : State), rxOn le s ∧ s.runState le.val = 2 ∧ s.role le.val ≠ 2 ∧ ((optical = true → s.curOn (F.LE_RX_LOS_CTRL_los_opt le.val) = true))) ∧
    (∃ (le : Fin 2) (s : State), rxOn le s ∧ rxState le s = 1 ∧ (s.role le.val = 2 ∨ (s.on (F.LE_RX_STATE_los_raw le.val) = false ∧ s.curOn (F.LE_RX_LOS_CTRL_los_opt le.val) = false))) ∧
    (∃ (le : Fin 2) (s : State), rxOn le s ∧ rxState le s = 2) ∧
    (∃ (le : Fin 2) (s : State), rxState le s = 2) ∧
    (∃ (le : Fin 2) (kHz : Int) (s : State), rxOn le s ∧ rxState le s = 3 ∧ s.role le.val ≠ 2 ∧ kHz.natAbs ≤ 3000000) ∧
    (∃ (le : Fin 2) (s : State), rxOn le s ∧ rxState le s = 3 ∧ s.role le.val = 2) ∧
    (∃ (le : Fin 2) (s : State), rxOn le s ∧ rxState le s = 3) ∧
    (∃ (le : Fin 2) (s : State), rxOn le s ∧ rxState le s = 4) ∧
    (∃ (le : Fin 2) (s : State), rxOn le s ∧ rxState le s = 5 ∧ s.g (F.LE_RX_SC_LOCK_lock le.val) = 0) ∧
    (∃ (le : Fin 2) (s : State), rxOn le s ∧ rxState le s = 5) :=
  ⟨⟨1, false, (st 4 [(F.LE_ROLE_STAT_run_state 1, 2), (F.LE_ROLE_STAT_role_active 1, 1), (F.LE_RX_STATE_state 1, 5)]), by decide +kernel⟩,
   ⟨0, (cf [(F.LE_RX_LOS_CTRL_los_opt 0, 0)] <| st 4 [(F.LE_ROLE_STAT_run_state 0, 2), (F.LE_RX_STATE_state 0, 1), (F.LE_RX_STATE_los_raw 0, 0)]), by decide +kernel⟩,
   ⟨0, (cf [(F.LE_RX_CD_CTRL_cd_mode 0, 0)] <| st 4 [(F.LE_RX_STATE_state 0, 2)]), by decide +kernel⟩,
   ⟨0, (st 4 [(F.LE_RX_STATE_state 0, 2)]), by decide +kernel⟩,
   ⟨0, (-1), (st 4 [(F.LE_RX_STATE_state 0, 3), (F.LE_ROLE_STAT_role_active 0, 1)]), by decide +kernel⟩,
   ⟨0, (st 4 [(F.LE_RX_STATE_state 0, 3), (F.LE_ROLE_STAT_role_active 0, 2)]), by decide +kernel⟩,
   ⟨0, (st 4 [(F.LE_RX_STATE_state 0, 3)]), by decide +kernel⟩,
   ⟨0, (st 4 [(F.LE_RX_STATE_state 0, 4)]), by decide +kernel⟩,
   ⟨0, (cf [(F.LE_RX_CD_CTRL_cd_mode 0, 0)] <| st 4 [(F.LE_RX_STATE_state 0, 5), (F.LE_RX_SC_LOCK_lock 0, 0)]), by decide +kernel⟩,
   ⟨0, (st 4 [(F.LE_RX_STATE_state 0, 5)]), by decide +kernel⟩⟩

/-- The hypotheses of SubcarriersMoveStates are met, clause by clause. -/
theorem witness_SubcarriersMoveStates :
    (∃ (le : Fin 2) (k : Fin 32) (s : State), s.scOf le.val k.val = 1) ∧
    (∃ (le : Fin 2) (k : Fin 32) (s : State), s.scOf le.val k.val = 1) ∧
    (∃ (le : Fin 2) (k : Fin 32) (s : State), rxOn le s ∧ s.scOf le.val k.val = 2) ∧
    (∃ (le : Fin 2) (k : Fin 32) (s : State), s.scOf le.val k.val = 2) ∧
    (∃ (le : Fin 2) (k : Fin 32) (s : State), s.scOf le.val k.val = 3) ∧
    (∃ (le : Fin 2) (k : Fin 32) (s : State), s.scOf le.val k.val ≠ 0) ∧
    (∃ (le : Fin 2) (k : Fin 32) (s : State), s.scOf le.val k.val = 3) ∧
    (∃ (le : Fin 2) (residual : Int) (s : State), s.curOn (F.LE_RX_CD_CTRL_track le.val) = true ∧ s.curOn (F.LE_RX_CD_CTRL_cd_mode le.val) = false ∧ rxState le s = 5 ∧ 500 < residual.natAbs) :=
  ⟨⟨0, 3, (sc 0 3 1 (st 4 [])), by decide +kernel⟩,
   ⟨0, 3, (sc 0 3 1 (st 4 [])), by decide +kernel⟩,
   ⟨0, 3, (sc 0 3 2 (st 4 [])), by decide +kernel⟩,
   ⟨0, 3, (sc 0 3 2 (st 4 [])), by decide +kernel⟩,
   ⟨0, 3, (sc 0 3 3 (st 4 [(F.LE_ROLE_STAT_role_active 0, 3)])), by decide +kernel⟩,
   ⟨0, 3, (sc 0 3 3 (st 4 [])), by decide +kernel⟩,
   ⟨0, 3, (sc 0 3 3 (st 4 [])), by decide +kernel⟩,
   ⟨0, (-600), (cf [(F.LE_RX_CD_CTRL_track 0, 1),(F.LE_RX_CD_CTRL_cd_mode 0, 0)] (st 4 [(F.LE_RX_STATE_state 0, 5)])), by decide +kernel⟩⟩

/-- The hypotheses of FollowReflectionQualityRun are met, clause by clause. -/
theorem witness_FollowReflectionQualityRun :
    (∃ (le : Fin 2) (body : List Byte) (s : State), anyInFrame s le.val = true ∧ body.length = 12 ∧ leNat body 8 4 = crc32c (body.take 8)) ∧
    (∃ (le : Fin 2) (s : State), s.on (F.LE_RX_PLAN_STAT_follow_pending le.val) = true ∧ frameDue s le.val (s.g (F.LE_RX_FOLLOW_AT_frame le.val)) = true) ∧
    (∃ (le : Fin 2) (s : State), (s.eng le.val).rx.alternating = true) ∧
    (∃ (le : Fin 2) (s : State), (s.eng le.val).rx.alternating = true) ∧
    (∃ (le : Fin 2) (r : Fin 8) (peak : Nat) (level : Int) (s : State), reflAuto s le.val = true ∧ samplesPer10ns s le.val * s.cur (F.LE_RX_REFL_WIN_win_min le.val) ≤ peak ∧ peak ≤ samplesPer10ns s le.val * s.cur (F.LE_RX_REFL_WIN_win_max le.val) ∧ -(5 * (s.cur (F.LE_RX_REFL_CTRL_threshold le.val) : Int)) < level ∧ r.val ≤ s.cur (F.LE_RX_REFL_CTRL_max_refl le.val) ∧ ((∀ i, i ≤ s.cur (F.LE_RX_REFL_CTRL_max_refl le.val) → s.g (F.LE_RX_REFL_STAT_state le.val i) < 2)) ∧ s.g (F.LE_RX_REFL_STAT_state le.val r.val) = 0 ∧ ((∀ i, i < r.val → s.g (F.LE_RX_REFL_STAT_state le.val i) ≠ 0))) ∧
    (∃ (le : Fin 2) (r : Fin 8) (s : State), s.g (F.LE_RX_REFL_STAT_state le.val r.val) = 1) ∧
    (∃ (le : Fin 2) (r : Fin 8) (s : State), s.g (F.LE_RX_REFL_STAT_state le.val r.val) = 2) ∧
    (∃ (le : Fin 2) (r : Fin 8) (offset : Int) (s : State), s.g (F.LE_RX_REFL_STAT_state le.val r.val) = 2 ∧ 8 < offset.natAbs) :=
  ⟨⟨0, bd, (inF 0 <| cf [(F.LE_RX_PLAN_follow 0, 1)] (st 4 [])), by decide +kernel⟩,
   ⟨1, (inF 1 <| st 4 [(F.LE_RX_PLAN_STAT_follow_pending 1, 1)]), by decide +kernel⟩,
   ⟨1, (rx 1 (fun r => { r with alternating := true }) (st 4 [])), by decide +kernel⟩,
   ⟨1, (rx 1 (fun r => { r with alternating := true }) (st 4 [])), by decide +kernel⟩,
   ⟨0, 1, 3000, 5, (cf [(F.LE_RX_REFL_CTRL_mode 0, 1), (F.LE_RX_REFL_CTRL_max_refl 0, 7), (F.LE_RX_REFL_WIN_win_max 0, 900), (F.LE_TX_PLAN_baud 0, 120)] (st 4 ([(F.LE_ROLE_STAT_single_fibre_active 0, 1)] ++ (List.range 8).map fun i => (F.LE_RX_REFL_STAT_state 0 i, if i < 1 then 1 else 0)))), by decide +kernel⟩,
   ⟨1, 3, (st 4 [(F.LE_RX_REFL_STAT_state 1 3, 1)]), by decide +kernel⟩,
   ⟨1, 3, (st 4 [(F.LE_RX_REFL_STAT_state 1 3, 2)]), by decide +kernel⟩,
   ⟨1, 3, (-9), (st 4 [(F.LE_RX_REFL_STAT_state 1 3, 2)]), by decide +kernel⟩⟩

/-- R187: an estimate of −5 ps/nm in 21 bits. -/
theorem test_cd_scan_sign : ends (exec (.cdScanEnd 0 (some (-5))) (st 4 [(F.LE_RX_STATE_state 0, 2)]))
    (fun t => t.g (F.LE_RX_CD_EST_cd 0) == 0x1FFFFB && t.g (F.LE_RX_STATE_state 0) == 3) = true := by decide +kernel

/-- R187: a residual of 501 ps/nm moves the estimate by 200. -/
theorem test_cd_tracks_beyond_500 : ends (exec (.cdTrackStep 0 501) (cf [(F.LE_RX_CD_CTRL_track 0, 1), (F.LE_RX_CD_CTRL_cd_mode 0, 0)] (st 4 [(F.LE_RX_STATE_state 0, 5)])))
    (fun t => t.g (F.LE_RX_CD_EST_cd 0) == 200) = true := by decide +kernel

/-- R187: a residual of 500 ps/nm moves nothing. -/
theorem test_cd_rests_at_500 : ends (exec (.cdTrackStep 0 500) (cf [(F.LE_RX_CD_CTRL_track 0, 1), (F.LE_RX_CD_CTRL_cd_mode 0, 0)] (st 4 [(F.LE_RX_STATE_state 0, 5)])))
    (fun t => t.g (F.LE_RX_CD_EST_cd 0) == 0) = true := by decide +kernel

/-- R182: a suppression of 5.9 dB frees the canceller. -/
theorem test_reflection_below_6_dB : ends (exec (.reflCandidateEnd 1 3 5 59) (st 4 [(F.LE_RX_REFL_STAT_state 1 3, 1)]))
    (fun t => t.g (F.LE_RX_REFL_STAT_state 1 3) == 0) = true := by decide +kernel

/-- R171, R172: subcarrier 3 loses lock, subcarrier 0 keeps it. -/
theorem test_lock_loss_of_one_subcarrier : ends (exec (.scLockLost 0 3) (sc 0 3 3 (st 4 [(F.LE_RX_STATE_state 0, 5), (F.LE_RX_SC_LOCK_lock 0, 9)])))
    (fun t => t.g (F.LE_RX_SC_LOCK_lock 0) == 1 && t.g (F.LE_RX_SC_LOCK_LOST_lost 0) == 8) = true := by decide +kernel

end Receive

namespace PointToMultipoint

/-- The point-to-multipoint part of engine `le` changed. -/
def p2 (le : Nat) (f : P2mp → P2mp) (s : State) : State := s.modP2 le f
/-- Engine `le` runs as leaf 5 in leaf state `v`. -/
def leaf (le v : Nat) (r : List (Field × Nat) := []) : State := st 4 ([(F.LE_ROLE_STAT_role_active le, 3), (F.LE_ROLE_STAT_run_state le, 2), (F.LE_P2MP_LEAF_STAT_state le, v), (F.LE_P2MP_LEAF_STAT_leaf_id le, 5)] ++ r)
/-- Engine `le` runs as a hub. -/
def hub (le : Nat) (r : List (Field × Nat) := []) : State := st 4 ([(F.LE_ROLE_STAT_role_active le, 2), (F.LE_ROLE_STAT_run_state le, 2), (F.LOCK_owner 0x21, 0), (F.LOCK_owner 0x61, 0)] ++ r)
/-- A map segment of one grant with a right checksum. -/
def seg0 : List Byte := let b := toLe 4 77 ++ toLe 8 (125000*77) ++ ([0,1,1,0] : List Byte) ++ toLe 8 (5*2^54+2^51); b ++ toLe 4 (crc32c b)
/-- Stream 0 of engine `le` is in frame. -/
def fr (le : Nat) (s : State) := s.modGlf le fun g => { g with frame := [(0, 2)] }
/-- Every subcarrier of engine `le` listens for bursts. -/
def um (le : Nat) (s : State) := cf [(F.LE_P2MP_UP_MODE_LO_modes le, 0x55555555), (F.LE_P2MP_UP_MODE_HI_modes le, 0x55555555)] s

/-- The hypotheses of LeafMessagesTaken are met, clause by clause. -/
theorem witness_LeafMessagesTaken :
    (∃ (le : Fin 2) (tag : BitVec 24) (home : Fin 32) (s : State), isLeaf s le.val = true ∧ leafState s le.val = 2 ∧ tag.toNat / 4 = s.g F.ENC_SERIAL_LO_serial % 2 ^ 24 / 4 ∧ (s.cur (F.LE_RX_SC_EN_en le.val)).testBit home.val = true) ∧
    (∃ (le : Fin 2) (id : Fin 512) (s : State), hears le id false s ∧ leafState s le.val = 3) ∧
    (∃ (le : Fin 2) (id : Fin 512) (s : State), hears le id false s ∧ leafState s le.val = 4) ∧
    (∃ (le : Fin 2) (id : Fin 512) (s : State), hears le id false s ∧ (leafState s le.val = 3 ∨ leafState s le.val = 4)) ∧
    (∃ (le : Fin 2) (id : Fin 512) (s : State), hears le id false s ∧ leafState s le.val = 5) ∧
    (∃ (le : Fin 2) (id : Fin 512) (s : State), hears le id false s ∧ leafState s le.val ≠ 0) ∧
    (∃ (le : Fin 2) (id : Fin 512) (s : State), hears le id true s) ∧
    (∃ (m : Master) (le : Fin 2) (s : State), s.admits m (lep le.val 0x22) false ∧ isLeaf s le.val = true ∧ leafState s le.val = 5) ∧
    (∃ (le : Fin 2) (s : State), isLeaf s le.val = true ∧ s.curOn (F.LE_P2MP_LEAF_CTRL_self_guard le.val) = true ∧ leafState s le.val ≠ 0 ∧ inGrant s le.val = false) :=
  ⟨⟨1, 7, 31, (cf [(F.LE_RX_SC_EN_en 1, 0xFFFFFFFF)] (leaf 1 2 [(F.ENC_SERIAL_LO_serial, 4)])), by decide +kernel⟩,
   ⟨1, 5, (leaf 1 3), by decide +kernel⟩,
   ⟨1, 5, (leaf 1 4), by decide +kernel⟩,
   ⟨1, 5, (leaf 1 4), by decide +kernel⟩,
   ⟨1, 5, (leaf 1 5), by decide +kernel⟩,
   ⟨1, 5, (leaf 1 6), by decide +kernel⟩,
   ⟨1, 5, (cf [(F.LE_P2MP_LEAF_CTRL_ctrl_auth 1, 1)] (leaf 1 6)), by decide +kernel⟩,
   ⟨.mgmt, 1, (leaf 1 5 [(F.LOCK_owner 0x62, 0)]), by unfold State.admits; decide +kernel⟩,
   ⟨1, (cf [(F.LE_P2MP_LEAF_CTRL_self_guard 1, 1)] (leaf 1 1)), by decide +kernel⟩⟩

/-- The hypotheses of LeafBurstsAndTimers are met, clause by clause. -/
theorem witness_LeafBurstsAndTimers :
    (∃ (le : Fin 2) (k : Fin 32) (seg : List Byte) (s : State), isLeaf s le.val = true ∧ 2 ≤ Tbl.get 0 (s.eng le.val).glf.frame k.val ∧ seg.length = 20 + 8 * byteAt seg 14 ∧ byteAt seg 14 ≤ 16 ∧ leNat seg (seg.length - 4) 4 = crc32c (seg.take (seg.length - 4))) ∧
    (∃ (le : Fin 2) (g : BitVec 64) (start : Nat) (s : State), (s.eng le.val).p2mp.held.find? (fun e => e.2 == g.toNat) = some (start, g.toNat) ∧ burstReady s le.val = true ∧ gLeaf g.toNat = s.g (F.LE_P2MP_LEAF_STAT_leaf_id le.val) ∧ leafState s le.val = 4 ∧ gType g.toNat ≤ 1) ∧
    (∃ (le : Fin 2) (g : BitVec 64) (start : Nat) (s : State), chosenWindow s le.val = some (start, g.toNat) ∧ burstReady s le.val = true ∧ leafState s le.val = 2 ∧ (s.eng le.val).p2mp.waiting = none) ∧
    (∃ (le : Fin 2) (since : Nat) (s : State), (s.eng le.val).p2mp.waiting = some since ∧ leafState s le.val = 2) ∧
    (∃ (le : Fin 2) (s : State), isLeaf s le.val = true) ∧
    (∃ (le : Fin 2) (s : State), isLeaf s le.val = true ∧ 2 ≤ leafState s le.val) ∧
    (∃ (le : Fin 2) (s : State), isLeaf s le.val = true ∧ leafState s le.val = 1 ∧ s.g (F.LE_P2MP_LEAF_STAT_leaf_id le.val) ≠ 0x3FF) :=
  ⟨⟨1, 0, seg0, (fr 1 (leaf 1 1)), by decide +kernel⟩,
   ⟨1, (BitVec.ofNat 64 (5*2^54+2^20*16)), 125000, (p2 1 (fun p => { p with held := [(125000, 5*2^54+2^20*16)] }) (leaf 1 4 [(F.UBH_STAT_tx_enabled 1, 1),(F.LE_TX_PLAN_STAT_reload_busy 1,0)])), by decide +kernel⟩,
   ⟨1, (BitVec.ofNat 64 (5*2^54+2^52+2^20*16)), 125000, (p2 1 (fun p => { p with held := [(125000, 5*2^54+2^52+2^20*16)] }) (leaf 1 2 [(F.UBH_STAT_tx_enabled 1, 1),(F.LE_TX_PLAN_STAT_reload_busy 1,0)])), by decide +kernel⟩,
   ⟨0, 5, (p2 0 (fun p => { p with waiting := some 5 }) (leaf 0 2)), by decide +kernel⟩,
   ⟨0, (leaf 0 2), by decide +kernel⟩,
   ⟨0, (leaf 0 2), by decide +kernel⟩,
   ⟨0, (leaf 0 1), by decide +kernel⟩⟩

/-- The hypotheses of HubCommandsRun are met, clause by clause. -/
theorem witness_HubCommandsRun :
    (∃ (le : Fin 2) (s : State), isHub s le.val = true) ∧
    (∃ (m : Master) (le : Fin 2) (s : State), s.admits m (lep le.val 0x21) false ∧ (s.eng le.val).p2mp.msgs.length < 32) ∧
    (∃ (m : Master) (le : Fin 2) (s : State), s.admits m (lep le.val 0x21) false ∧ 32 ≤ (s.eng le.val).p2mp.msgs.length) ∧
    (∃ (le : Fin 2) (i : Fin 512) (s : State), isHub s le.val = true ∧ leafSt s le.val i.val = 1 ∧ (s.eng le.val).p2mp.msgs.length < 32) ∧
    (∃ (le : Fin 2) (i : Fin 512) (s : State), isHub s le.val = true ∧ leafSt s le.val i.val = 3 ∧ 4 ≤ (missedGrants s le.val i.val).length) ∧
    (∃ (m : Master) (le : Fin 2) (a : Nat) (b : Nat) (c : Nat) (d : Nat) (rest : List (Nat × Nat × Nat × Nat)) (s : State), s.admits m (lep le.val 0x21) false ∧ (s.eng le.val).p2mp.brec = (a, b, c, d) :: rest) :=
  ⟨⟨0, (hub 0), by decide +kernel⟩,
   ⟨.mgmt, 1, (hub 1 [(F.LE_P2MP_LMSG_0_type 1, 4)]), by unfold State.admits; decide +kernel⟩,
   ⟨.mgmt, 1, (p2 1 (fun p => { p with msgs := List.replicate 32 ⟨0,0,0,0,0⟩ }) (hub 1)), by unfold State.admits; decide +kernel⟩,
   ⟨1, 300, (hub 1 [(F.LE_P2MP_LEAF_ST_state 1 1 44, 1)]), by decide +kernel⟩,
   ⟨1, 300, (p2 1 (fun p => { p with built := [(5, List.replicate 5 (300*2^54+2^20*16))] }) <| hub 1 [(F.LE_P2MP_LEAF_ST_state 1 1 44, 3)]), by decide +kernel⟩,
   ⟨.pcie, 1, 7, 8, 9, 10, [], (p2 1 (fun p => { p with brec := [(7,8,9,10)] }) (hub 1)), by unfold State.admits; decide +kernel⟩⟩

/-- The hypotheses of LookoutFollowsBursts are met, clause by clause. -/
theorem witness_LookoutFollowsBursts :
    (∃ (le : Fin 2) (sc : Fin 32) (bands : List (Fin 3 × Fin 4)) (found : List (BitVec 9 × BitVec 16)) (w : Fin 3) (band : Fin 4) (s : State), firedOk bands found = true ∧ bestDetector (s.cur (F.LE_P2MP_LOOKOUT_det_thr le.val)) (bands.zip found) = some (w, band) ∧ isHub s le.val = true ∧ upMode s.inForce le.val sc.val = 1 ∧ ((∀ r ∈ (s.eng le.val).p2mp.recv, r.mode ≤ 1 → r.sc = sc.val → bandsOverlap w.val band.val r.w r.band = false))) ∧
    (∃ (le : Fin 2) (sc : Fin 32) (w : Fin 3) (band : Fin 4) (hdr : BitVec 64) (r : Recv) (s : State), bandOk w band = true ∧ findRecv s le.val sc.val w.val band.val (fun r => r.mode != 1) = some r ∧ r.mode = 0 ∧ hdrValid s le.val hdr.toNat = true) ∧
    (∃ (le : Fin 2) (sc : Fin 32) (w : Fin 3) (band : Fin 4) (hdr : BitVec 64) (r : Recv) (s : State), bandOk w band = true ∧ findRecv s le.val sc.val w.val band.val (fun r => r.mode != 1) = some r ∧ r.mode = 0 ∧ hdrValid s le.val hdr.toNat = false) ∧
    (∃ (le : Fin 2) (sc : Fin 32) (w : Fin 3) (band : Fin 4) (r : Recv) (s : State), bandOk w band = true ∧ findRecv s le.val sc.val w.val band.val (fun r => r.mode == 1) = some r) ∧
    (∃ (le : Fin 2) (sc : Fin 32) (w : Fin 3) (band : Fin 4) (power : Int) (s : State), bandOk w band = true ∧ isHub s le.val = true ∧ -(5 * (s.cur (F.LE_P2MP_LEVEL_idle_thr le.val) : Int)) < powerDev s le.val w.val power ∧ Tbl.get 0 (s.eng le.val).p2mp.idle (sc.val * 16 + w.val * 4 + band.val) = 7) ∧
    (∃ (le : Fin 2) (w : Fin 3) (band : Fin 4) (power : Int) (s : State), bandOk w band = true ∧ isHub s le.val = true ∧ powerDev s le.val w.val power ≤ -(5 * (s.cur (F.LE_P2MP_LEVEL_idle_thr le.val) : Int))) :=
  ⟨⟨1, 3, [(0,0),(1,1),(2,1)], [(200,3),(256,9),(400,9)], 1, 1, (um 1 (hub 1)), by decide +kernel⟩,
   ⟨1, 3, 1, 1, (BitVec.ofNat 64 (burstHeader (0x3FF*2^38+2*2^34))), ⟨3,1,1,0,0,0,0,false,false,none,0,0⟩, (p2 1 (fun p => { p with recv := [⟨3,1,1,0,0,0,0,false,false,none,0,0⟩] }) (um 1 (hub 1))), by decide +kernel⟩,
   ⟨1, 3, 1, 1, 1, ⟨3,1,1,0,0,0,0,false,false,none,0,0⟩, (p2 1 (fun p => { p with recv := [⟨3,1,1,0,0,0,0,false,false,none,0,0⟩] }) (um 1 (hub 1))), by decide +kernel⟩,
   ⟨1, 3, 1, 1, ⟨3,1,1,0,0,1,0,false,false,none,0,0⟩, (p2 1 (fun p => { p with recv := [⟨3,1,1,0,0,1,0,false,false,none,0,0⟩] }) (um 1 (hub 1))), by decide +kernel⟩,
   ⟨1, 3, 1, 1, 0, (p2 1 (fun p => { p with idle := [(3*16+5, 7)] }) (um 1 (hub 1))), by decide +kernel⟩,
   ⟨1, 1, 1, (-20000), (p2 1 (fun p => { p with idle := [(3*16+5, 7)] }) (um 1 (hub 1))), by decide +kernel⟩⟩

/-- R230: a score of 1 becomes 0 and rogue is cleared. -/
theorem test_rogue_score_decays : ends (exec (.rogueDecay 1 300) (hub 1 [(F.LE_P2MP_LEAF_ST_score 1 1 44, 1), (F.LE_P2MP_LEAF_ST_rogue 1 1 44, 1)]))
    (fun t => t.g (F.LE_P2MP_LEAF_ST_score 1 1 44) == 0 && !t.on (F.LE_P2MP_LEAF_ST_rogue 1 1 44)) = true := by decide +kernel

/-- R230: a score does not pass below 0. -/
theorem test_rogue_score_stays_at_0 : ends (exec (.rogueDecay 1 300) (hub 1))
    (fun t => t.g (F.LE_P2MP_LEAF_ST_score 1 1 44) == 0) = true := by decide +kernel

/-- R219, R220: −7 from an offset of 3 wraps in 20 bits. -/
theorem test_range_adjust_is_signed : ends (exec (.rangeAdj 1 5 true (-7) 3 []) (leaf 1 3 [(F.LE_P2MP_LEAF_RO_ro 1, 3)]))
    (fun t => t.g (F.LE_P2MP_LEAF_RO_ro 1) == 0xFFFFC && t.g (F.LE_P2MP_LEAF_STAT_state 1) == 4) = true := by decide +kernel

/-- R220: identity 0x3FF, offset 0, state 2. -/
theorem test_deregister_forgets : ends (exec (.deregister 1 5 3 []) (leaf 1 6))
    (fun t => t.g (F.LE_P2MP_LEAF_STAT_leaf_id 1) == 0x3FF && t.g (F.LE_P2MP_LEAF_STAT_state 1) == 2) = true := by decide +kernel

/-- R206: the whole subcarrier has one band: no occurrence of the command. -/
theorem test_preamble_outside_a_band : exec (.preambleDetect 1 3 [(1, 1), (0, 1)] [(5, 0), (7, 0)] 0 8) (st 4 []) = .fault .illFormed := by rfl

end PointToMultipoint

namespace LineFrame

/-- Both engines are RUNNING. -/
def rn (s : State) : State := (s.setF (F.LE_ROLE_STAT_run_state 0) 2).setF (F.LE_ROLE_STAT_run_state 1) 2
/-- Both engines are in the native line mode. -/
def nat0 (s : State) : State := (s.setF (F.LE_ROLE_STAT_line_mode_active 0) 0).setF (F.LE_ROLE_STAT_line_mode_active 1) 0
/-- The decoder of engine `le` changed. -/
def fe (le : Nat) (f : Fec → Fec) (s : State) : State := s.modFec le f
/-- The framer of engine `le` changed. -/
def gl (le : Nat) (f : Glf → Glf) (s : State) : State := s.modGlf le f
/-- 24 live tiles and two spare ones. -/
def tl : List (Field × Nat) := [(F.LE_FEC_TILE_MAP_map 0, 0xFFFFFF)] ++ (List.range 26).map fun i => (F.LE_FEC_TILE_STAT_state 0 i, 0)
/-- A valid header, scrambled. -/
def hdr0 : List Byte := let h := glfHeader 77 0 0 0x1FF (List.replicate 46 0); h.take 6 ++ scramble scrSeed (h.drop 6)
/-- A message of the member-state protocol. -/
def mb (g dir msg act next fc seq rsn : Nat) := mspBody g dir msg act next fc seq rsn
/-- Group `g` with its two ends in the states given. -/
def gst (g msp sink : Nat) (x : GrpSt) : State := { (cf [(F.MAP_GRP_CTRL_valid (g/32) (g%32), 1), (F.MAP_GRP_CTRL_kind (g/32) (g%32), 0), (F.MAP_GRP_CTRL_auto_remove (g/32) (g%32), 1), (F.MAP_GRP_MEM_valid0 (g/32) (g%32) 1, 1)] (st 4 [(F.MAP_GRP_ST_msp_state (g/32) (g%32), msp), (F.MAP_GRP_ST_sink_state (g/32) (g%32), sink)])) with grp := [(g, x)] }

/-- The hypotheses of FecCommandsRun are met, clause by clause. -/
theorem witness_FecCommandsRun :
    (∃ (le : Fin 2) (k : Fin 32) (s : State), s.syncOf le.val k.val = 0 ∧ canHunt s le.val k.val = true) ∧
    (∃ (le : Fin 2) (k : Fin 32) (d : Decoded) (s : State), s.native le.val = true ∧ s.runState le.val = 2 ∧ s.syncOf le.val k.val = 1 ∧ 12 ≤ (liveTiles s le.val).length ∧ d.shadow = none) ∧
    (∃ (le : Fin 2) (k : Fin 32) (d : Decoded) (s : State), s.native le.val = true ∧ s.runState le.val = 2 ∧ s.syncOf le.val k.val = 2 ∧ 12 ≤ (liveTiles s le.val).length ∧ d.shadow = none) ∧
    (∃ (le : Fin 2) (k : Fin 32) (d : Decoded) (s : State), s.native le.val = false ∧ s.runState le.val = 2 ∧ s.syncOf le.val k.val ≠ 0 ∧ 12 ≤ (liveTiles s le.val).length ∧ d.shadow = none) ∧
    (∃ (le : Fin 2) (tile : Nat) (rest : List Nat) (s : State), (s.eng le.val).fec.waiting = tile :: rest ∧ s.g (F.LE_FEC_TILE_SPARE_spare_a le.val) < 26 ∧ tile ≠ s.g (F.LE_FEC_TILE_SPARE_spare_a le.val)) ∧
    (∃ (le : Fin 2) (s : State), s.native le.val = true) ∧
    (∃ (le : Fin 2) (s : State), s.native le.val = false) :=
  ⟨⟨0, 0, (st 4 [(F.LE_RX_STATE_state 0, 5), (F.LE_ROLE_STAT_role_active 0, 1)]), by decide +kernel⟩,
   ⟨0, 3, ⟨true, true, 1, 2, 3, none⟩, (nat0 <| fe 0 (fun f => { f with sync := [(3,1)] }) (st 4 ([(F.LE_ROLE_STAT_run_state 0, 2)] ++ tl))), by decide +kernel⟩,
   ⟨0, 0, ⟨true, true, 1, 2, 3, none⟩, (nat0 <| fe 0 (fun f => { f with sync := [(0,2)], bad := [(0,7)] }) (st 4 ([(F.LE_ROLE_STAT_run_state 0, 2)] ++ tl))), by decide +kernel⟩,
   ⟨0, 3, ⟨true, true, 1, 2, 3, none⟩, (fe 0 (fun f => { f with sync := [(3,2)], bad := [(3,7)] }) (st 4 ([(F.LE_ROLE_STAT_run_state 0, 2),(F.LE_ROLE_STAT_line_mode_active 0, 1)] ++ tl))), by decide +kernel⟩,
   ⟨0, 7, [8], (fe 0 (fun f => { f with waiting := [7,8] }) (st 4 ([(F.LE_FEC_TILE_SPARE_spare_a 0, 24)] ++ tl))), by decide +kernel⟩,
   ⟨0, (nat0 <| st 4 []), by decide +kernel⟩,
   ⟨0, (st 4 [(F.LE_ROLE_STAT_line_mode_active 0, 2)]), by decide +kernel⟩⟩

set_option maxRecDepth 100000 in
/-- The hypotheses of FramerCommandsRun are met, clause by clause. -/
theorem witness_FramerCommandsRun :
    (∃ (le : Fin 2) (s : State), s.runState le.val = 2 ∧ s.g (F.LE_ROLE_STAT_line_mode_active le.val) = 0 ∧ txStreams s le.val ≠ [] ∧ s.role le.val ≠ 4 ∧ s.role le.val ≠ 5) ∧
    (∃ (le : Fin 2) (r : Nat) (f : Relay) (rest : List Relay) (s : State), s.runState le.val = 2 ∧ s.g (F.LE_ROLE_STAT_line_mode_active le.val) = 0 ∧ regenSource s le.val = some r ∧ regenBroken s le.val = false ∧ (s.eng le.val).glf.relay = f :: rest) ∧
    (∃ (le : Fin 2) (k : Fin 32) (hdr : List Byte) (s : State), s.native le.val = true ∧ s.syncOf le.val k.val = 2 ∧ Tbl.get 0 (s.eng le.val).glf.frame k.val = 0 ∧ Tbl.get [] (s.eng le.val).glf.cand k.val = [] ∧ fawErrors hdr = 0 ∧ hcsOk (descramble hdr) = true) ∧
    (∃ (le : Fin 2) (k : Fin 32) (hdr : List Byte) (s : State), s.native le.val = true ∧ s.syncOf le.val k.val = 2 ∧ 2 ≤ Tbl.get 0 (s.eng le.val).glf.frame k.val ∧ 3 ≤ fawErrors hdr) ∧
    (∃ (le : Fin 2) (k : Fin 32) (body : List Byte) (s : State), s.native le.val = true ∧ body.length = 8 ∧ leNat body 4 4 = crc32c (body.take 4) ∧ leNat body 0 4 ≠ mapDigest s.inForce le.val true k.val) ∧
    (∃ (le : Fin 2) (c : Fin 64) (s : State), s.native le.val = true ∧ contValid s.inForce le.val c.val = true ∧ s.cur (F.LE_GLF_CONT_CFG_type le.val c.val) ≠ 1 ∧ s.cur (F.LE_GLF_CONT_CFG_kind le.val c.val) ≠ 1 ∧ 2 ≤ Tbl.get 0 (s.eng le.val).glf.frame (s.cur (F.LE_GLF_CONT_CFG_stream le.val c.val)) ∧ (Tbl.get {} (s.eng le.val).glf.cont c.val).cell ≤ 1) :=
  ⟨⟨0, (cf [(F.LE_TX_SC_EN_en 0, 5)] (st 4 [(F.LE_ROLE_STAT_role_active 0, 2), (F.LE_ROLE_STAT_run_state 0, 2), (F.LE_ROLE_STAT_line_mode_active 0, 0)])), by decide +kernel⟩,
   ⟨0, 0, ⟨700, 3, 0x85⟩, [⟨701,3,4⟩], (gl 0 (fun g => { g with relay := [⟨700, 3, 0x85⟩,⟨701,3,4⟩], declared := [] }) (st 4 [(F.LE_ROLE_STAT_role_active 0, 5), (F.LE_ROLE_STAT_run_state 0, 2), (F.LE_ROLE_STAT_line_mode_active 0, 0)])), by decide +kernel⟩,
   ⟨0, 0, hdr0, (fe 0 (fun f => { f with sync := [(0,2)] }) (nat0 <| st 4 [])), by decide +kernel⟩,
   ⟨0, 0, [0,0,0,0,0,0], (gl 0 (fun g => { g with frame := [(0,2)], bad := [(0,4)] }) <| fe 0 (fun f => { f with sync := [(0,2)] }) (nat0 <| st 4 [])), by decide +kernel⟩,
   ⟨0, 3, (toLe 4 7 ++ toLe 4 (crc32c (toLe 4 7))), (nat0 <| st 4 []), by decide +kernel⟩,
   ⟨0, 3, (gl 0 (fun g => { g with frame := (List.range 32).map fun k => (k,2) }) <| cf [(F.LE_GLF_CONT_CFG_valid 0 3, 1), (F.LE_GLF_CONT_CFG_type 0 3, 0), (F.LE_GLF_CONT_CFG_kind 0 3, 0)] (nat0 <| st 4 [])), by decide +kernel⟩⟩

/-- The hypotheses of MemberStateProtocolRuns are met, clause by clause. -/
theorem witness_MemberStateProtocolRuns :
    (∃ (body : List Byte) (g : Nat) (s : State), mspGroup s 0 1 body = some g ∧ sinkState s g = 0 ∧ ((∀ m, m < 16 → (leNat body 4 2).testBit m = true → memberInFrame s g m = true))) ∧
    (∃ (body : List Byte) (g : Nat) (s : State), mspGroup s 1 3 body = some g ∧ mspState s g = 1 ∧ leNat body 4 2 = (grpSt s g).srcNext) ∧
    (∃ (body : List Byte) (g : Nat) (s : State), mspGroup s 1 4 body = some g ∧ mspState s g = 1) ∧
    (∃ (g : Fin 64) (s : State), mspState s g.val = 1) ∧
    (∃ (body : List Byte) (g : Nat) (s : State), mspGroup s 0 2 body = some g ∧ sinkState s g = 1 ∧ (grpSt s g).released = none) ∧
    (∃ (g : Fin 64) (s : State), sinkState s g.val = 1) ∧
    (∃ (body : List Byte) (g : Nat) (s : State), mspGroup s 1 5 body = some g ∧ mspState s g = 0 ∧ s.curOn (F.MAP_GRP_CTRL_auto_remove (g / 32) (g % 32)) = true ∧ leNat body 4 2 < 16 ∧ (grpSt s g).src.testBit (leNat body 4 2) = true) ∧
    (∃ (g : Fin 64) (s : State), mspState s g.val = 2 ∧ (s.eng (grpEngine s g.val)).tx.fc.toNat = (grpSt s g.val).srcFc) ∧
    (∃ (body : List Byte) (g : Nat) (s : State), mspGroup s 0 0 body = some g ∧ sinkState s g = 0 ∧ leNat body 2 2 ≠ (grpSt s g).sink) ∧
    (∃ (g : Fin 64) (s : State), grpValid s.inForce g.val = true ∧ grpPair s.inForce g.val = false) :=
  ⟨⟨(mb 33 0 1 3 4 0 0 0), 33, (gl 0 (fun g => { g with frame := [(0,2)] }) (gst 33 0 0 {})), by decide +kernel⟩,
   ⟨(mb 33 1 3 3 4 0 0 0), 33, (gst 33 1 0 { srcNext := 4 }), by decide +kernel⟩,
   ⟨(mb 33 1 4 3 4 0 0 9), 33, (gst 33 1 0 { srcNext := 4 }), by decide +kernel⟩,
   ⟨33, (gst 33 1 0 { srcNext := 4 }), by decide +kernel⟩,
   ⟨(mb 33 0 2 3 4 7 0 9), 33, (gst 33 1 1 { srcNext := 4 }), by decide +kernel⟩,
   ⟨33, (gst 33 1 1 { srcNext := 4 }), by decide +kernel⟩,
   ⟨(mb 33 1 5 3 2 7 0 9), 33, (gst 33 0 1 { src := 4 }), by decide +kernel⟩,
   ⟨33, (gst 33 2 1 { srcNext := 4 }), by decide +kernel⟩,
   ⟨(mb 33 0 0 3 2 7 0 9), 33, (gst 33 0 0 { sink := 4, differ := 2 }), by decide +kernel⟩,
   ⟨33, (gst 33 1 0 { sink := 4, differ := 1 }), by decide +kernel⟩⟩

/-- The hypotheses of DefectsAndDeskewRun are met, clause by clause. -/
theorem witness_DefectsAndDeskewRun :
    (∃ (g : Fin 64) (s : State), grpValid s.inForce g.val = true) ∧
    (∃ (d : Fin 12) (x : DefScope) (s : State), scopeOk d x = true ∧ isDeclared s d.val x = false ∧ defRaw s d.val x = true) ∧
    (∃ (d : Fin 12) (x : DefScope) (s : State), scopeOk d x = true ∧ isDeclared s d.val x = true ∧ defRaw s d.val x = false) :=
  ⟨⟨33, (gst 33 1 2 { sink := 0xFF }), by decide +kernel⟩,
   ⟨0, (.engine 1), (rn <| st 4 [(F.LE_RX_STATE_los_raw 1, 1)]), by decide +kernel⟩,
   ⟨9, (.member 33 3), (gl 0 (fun g => { g with declared := [(9*1024+33*16+3, true)] }) (gst 33 0 0 { sink := 0xFF })), by decide +kernel⟩⟩

/-- R249: the eighth uncorrectable block in a row leaves SYNC. -/
theorem test_eighth_bad_block_ends_sync : ends (exec (.fecBlockDecode 0 0 false ⟨true, true, 1, 2, 3, none⟩) (fe 0 (fun f => { f with sync := [(0, 2)], bad := [(0, 7)] }) (st 4 ([(F.LE_ROLE_STAT_run_state 0, 2)] ++ tl))))
    (fun t => t.syncOf 0 0 == 0) = true := by decide +kernel

/-- R249: the seventh does not. -/
theorem test_seventh_bad_block_keeps_sync : ends (exec (.fecBlockDecode 0 0 false ⟨true, true, 1, 2, 3, none⟩) (fe 0 (fun f => { f with sync := [(0, 2)], bad := [(0, 6)] }) (st 4 ([(F.LE_ROLE_STAT_run_state 0, 2)] ++ tl))))
    (fun t => t.syncOf 0 0 == 2) = true := by decide +kernel

/-- R270: the fifth bad header in a row goes to HUNT. -/
theorem test_fifth_bad_header_ends_frame : ends (exec (.glfHeaderRx 0 0 55 [0, 0, 0, 0, 0, 0] [] []) (gl 0 (fun g => { g with frame := [(0, 2)], bad := [(0, 4)] }) <| fe 0 (fun f => { f with sync := [(0, 2)] }) (st 4 [])))
    (fun t => Tbl.get 0 (t.eng 0).glf.frame 0 == 0) = true := by decide +kernel

/-- R270: the fourth leaves it in FLYWHEEL (3). -/
theorem test_fourth_bad_header_degrades : ends (exec (.glfHeaderRx 0 0 55 [0, 0, 0, 0, 0, 0] [] []) (gl 0 (fun g => { g with frame := [(0, 2)], bad := [(0, 3)] }) <| fe 0 (fun f => { f with sync := [(0, 2)] }) (st 4 [])))
    (fun t => Tbl.get 0 (t.eng 0).glf.frame 0 == 3) = true := by decide +kernel

/-- R295: a REJECT ends the change and its reason is reported. -/
theorem test_reject_reports_its_reason : ends (exec (.reject (mb 33 1 4 3 4 0 0 9)) (gst 33 1 0 { srcNext := 4 }))
    (fun t => mspState t 33 == 0 && t.g F.MAP_MSP_STAT_reason == 9 && t.g F.MAP_MSP_STAT_group == 33) = true := by decide +kernel

/-- R298: defect 0 is declared on an engine: no occurrence of the command. -/
theorem test_defect_on_a_wrong_scope : exec (.defectDeclare 0 (.group 3) false) (st 4 []) = .fault .illFormed := by rfl

end LineFrame

namespace HostSide

/-- What a frame brings from its line, the partner signalling a local fault or not. -/
def line0 (lf : Bool) : PortLine := ⟨1, 2, [3,4], lf, false, 7, true⟩
/-- A capability frame of version `v` and width `w`, inverted or not, with a right checksum. -/
def capF (v w : Nat) (inv : Bool) : BitVec 128 := let b := [v, 0, 8, w, 0, 0, 7, 9, 0, 0].map (BitVec.ofNat 8); let l : List Byte := toBe 4 capMarker ++ b ++ toBe 2 (crc16 b); let x := BitVec.ofNat 128 (beNat l 0 16); if inv then ~~~x else x
/-- Lane `k` is in state `v`. -/
def ln (k v : Nat) (r : List (Field × Nat) := []) : State := st 4 ([(F.HL_LANE_STAT_state (k/8) (k%8), v)] ++ r)
/-- Port `p` is in state `state`. -/
def prt (p state : Nat) (q : PortSt) (r : List (Field × Nat) := []) (f : List (Field × Nat) := []) : State :=
  modPort p (fun _ => q) (cf ([(F.PORT_CFG_valid (p/8) (p%8), 1), (F.PORT_CFG_group (p/8) (p%8), 1), (F.PORT_CFG_first_lane (p/8) (p%8), 2), (F.PORT_CFG_lanes (p/8) (p%8), 1)] ++ f)
   (st 4 ([(F.PORT_STAT_state (p/8) (p%8), state), (F.PORT_LANEMAP_map (p/8) (p%8), 0xFFFFFF32), (F.HL_LANE_STAT_state 1 2, 5), (F.HL_LANE_STAT_state 1 3, 5)] ++ r)))
/-- A packet of three bytes. -/
def pk (id : Nat) (sec : Option (Nat × Nat × Bool)) : Pkt := ⟨id, 31, 0, 0, [1,2,3], false, sec, 2^127, 0⟩
/-- The classifier changed. -/
def cl (f : Cls → Cls) (s : State) : State := { s with cls := f s.cls }
/-- The two rule banks in the states given. -/
def bk (a b : Nat) (r : List (Field × Nat) := []) : State := st 4 ([(F.CLS_STAT_bank0_state, a), (F.CLS_STAT_bank1_state, b), (F.LOCK_owner 0xB0, 0)] ++ r)

/-- The hypotheses of LanesMoveStates are met, clause by clause. -/
theorem witness_LanesMoveStates :
    (∃ (k : Fin 32) (s : State), laneOf s k = 1) ∧
    (∃ (k : Fin 32) (s : State), laneOf s k = 2) ∧
    (∃ (k : Fin 32) (s : State), laneOf s k = 2) ∧
    (∃ (k : Fin 32) (taps : Word) (s : State), tapsOk taps = true ∧ laneOf s k = 3) ∧
    (∃ (k : Fin 32) (s : State), laneOf s k = 3) ∧
    (∃ (k : Fin 32) (s : State), 4 ≤ laneOf s k) ∧
    (∃ (k : Fin 32) (marker : Word) (version : Byte) (lane : Byte) (flags : Byte) (lanes : Byte) (tag : BitVec 24) (port : Byte) (tail : Word) (inverted : Bool) (b : List Byte) (p : Nat) (s : State), portOf s (k.val / 8) (k.val % 8) = some p ∧ portState s p = 2 ∧ capRead (capBits marker version lane flags lanes tag port tail) = some (inverted, b) ∧ byteAt b 4 = 1 ∧ byteAt b 7 = portWidth s.inForce p) ∧
    (∃ (k : Fin 32) (marker : Word) (version : Byte) (lane : Byte) (flags : Byte) (lanes : Byte) (tag : BitVec 24) (port : Byte) (tail : Word) (p : Nat) (s : State), portOf s (k.val / 8) (k.val % 8) = some p ∧ portState s p = 2 ∧ capRead (capBits marker version lane flags lanes tag port tail) = none) :=
  ⟨⟨31, (ln 31 1), by decide +kernel⟩,
   ⟨31, (ln 31 2), by decide +kernel⟩,
   ⟨0, (ln 0 2), by decide +kernel⟩,
   ⟨0, (63*1024), (ln 0 3), by decide +kernel⟩,
   ⟨0, (ln 0 3), by decide +kernel⟩,
   ⟨9, (ln 9 4), by decide +kernel⟩,
   ⟨10, ((capF 1 2 true).extractLsb' 96 32), ((capF 1 2 true).extractLsb' 88 8), ((capF 1 2 true).extractLsb' 80 8), ((capF 1 2 true).extractLsb' 72 8), ((capF 1 2 true).extractLsb' 64 8), ((capF 1 2 true).extractLsb' 40 24), ((capF 1 2 true).extractLsb' 32 8), ((capF 1 2 true).extractLsb' 0 32), true, (toBe 16 (~~~(capF 1 2 true)).toNat), 9, (prt 9 2 {}), by decide +kernel⟩,
   ⟨10, 5, 1, 0, 8, 2, 7, 9, 0, 9, (prt 9 2 {}), by decide +kernel⟩⟩

/-- The hypotheses of PortsMoveStates are met, clause by clause. -/
theorem witness_PortsMoveStates :
    (∃ (p : Fin 32) (s : State), portState s p.val = 2) ∧
    (∃ (p : Fin 32) (s : State), portState s p.val = 3 ∧ (∀ j ∈ portLanes s p.val, 4 ≤ laneState s (portGroup s.inForce p.val) j)) ∧
    (∃ (p : Fin 32) (s : State), portState s p.val = 4) ∧
    (∃ (p : Fin 32) (s : State), portState s p.val = 4 ∧ (portSt s p.val).features.testBit 0 = true) ∧
    (∃ (p : Fin 32) (lane : Fin 8) (seq : Byte) (s : State), (portSt s p.val).request = some lane.val ∧ (portSt s p.val).reqSeq = seq.toNat) ∧
    (∃ (p : Fin 32) (f : Nat) (s : State), (portSt s p.val).request = some f ∧ (portSt s p.val).acked = false) ∧
    (∃ (p : Fin 32) (f : Nat) (sp : Nat) (s : State), (portSt s p.val).request = some f ∧ portSpare s p.val = some sp) ∧
    (∃ (p : Fin 32) (s : State), portState s p.val = 4 ∧ (portSt s p.val).features.testBit 2 = true) ∧
    (∃ (p : Fin 32) (s : State), portState s p.val = 4 ∧ (portSt s p.val).features.testBit 2 = true ∧ portCbr s.inForce p.val = false ∧ s.curOn (F.PORT_CFG_sleep_en (p.val / 8) (p.val % 8)) = true ∧ s.on (F.PORT_STAT_tx_asleep (p.val / 8) (p.val % 8)) = false) :=
  ⟨⟨9, (prt 9 2 {}), by decide +kernel⟩,
   ⟨9, (prt 9 3 {anyValid := true} [] [(F.PORT_CFG_slm 1 1, 2)]), by decide +kernel⟩,
   ⟨9, (prt 9 4 {anyValid := true} [] [(F.PORT_CFG_slm 1 1, 2)]), by decide +kernel⟩,
   ⟨31, (prt 31 4 {features := 1, moved := [3]} [(F.PORT_STAT_tx_asleep 3 7, 1)]), by decide +kernel⟩,
   ⟨31, 7, 255, (prt 31 4 {request := some 7, seq := 3, reqSeq := 255}), by decide +kernel⟩,
   ⟨31, 7, (prt 31 4 {request := some 7, seq := 3, reqSeq := 255}), by decide +kernel⟩,
   ⟨31, 1, 5, (prt 31 4 {request := some 1, seq := 255} [] [(F.PORT_CFG_spare_en 3 7, 1), (F.PORT_CFG_spare_lane 3 7, 5)]), by decide +kernel⟩,
   ⟨31, (prt 31 4 {features := 4}), by decide +kernel⟩,
   ⟨31, (prt 31 4 {features := 4} [(F.PORT_STAT_tx_asleep 3 7, 0)] [(F.PORT_CFG_sleep_en 3 7, 1)]), by decide +kernel⟩⟩

/-- The hypotheses of PortFramesCounted are met, clause by clause. -/
theorem witness_PortFramesCounted :
    (∃ (p : Fin 32) (line : PortLine) (s : State), portState s p.val = 4 ∧ (portCbr s.inForce p.val = true ∨ portFlexo s.inForce p.val = true ∨ line.localFault = false)) ∧
    (∃ (p : Fin 32) (line : PortLine) (s : State), portState s p.val = 4 ∧ portCbr s.inForce p.val = false ∧ portFlexo s.inForce p.val = false ∧ line.localFault = true) ∧
    (∃ (p : Fin 32) (s : State), portState s p.val = 4) :=
  ⟨⟨31, (line0 false), (prt 31 4 {}), by decide +kernel⟩,
   ⟨31, (line0 true), (prt 31 4 {} [] [(F.PORT_CFG_mapping 3 7, 0),(F.PORT_CFG_type 3 7, 0)]), by decide +kernel⟩,
   ⟨31, (prt 31 4 {} [] [(F.PORT_CFG_mapping 3 7, 1)]), by decide +kernel⟩⟩

/-- The hypotheses of PacketsMoveThroughClassifier are met, clause by clause. -/
theorem witness_PacketsMoveThroughClassifier :
    (∃ (p : Fin 32) (pipe : Fin 6) (s : State), portState s p.val = 4 ∧ portCbr s.inForce p.val = false ∧ s.g (F.CLS_PIPE_STAT_state pipe.val) = 0) ∧
    (∃ (id : Nat) (pipe : Fin 6) (q : Pkt) (s : State), s.cls.pkts.find? (fun q => q.id == id && q.second.isSome) = some q ∧ s.g (F.CLS_PIPE_STAT_state pipe.val) = 0) ∧
    (∃ (id : Nat) (q : Pkt) (s : State), s.cls.pkts.find? (fun q => q.id == id && q.second.isSome) = some q) ∧
    (∃ (id : Nat) (q : Pkt) (s : State), s.cls.pkts.find? (fun q => q.id == id) = some q ∧ q.second = none ∧ waits s.cls.pkts q = false) :=
  ⟨⟨31, 5, (prt 31 4 {} [(F.CLS_PIPE_STAT_state 5, 0)]), by decide +kernel⟩,
   ⟨7, 5, (pk 7 (some (3,1,false))), (cl (fun c => { c with pkts := [pk 6 none, pk 7 (some (3,1,false))] }) (prt 31 4 {} [(F.CLS_PIPE_STAT_state 5, 0)])), by decide +kernel⟩,
   ⟨7, (pk 7 (some (3,1,false))), (cl (fun c => { c with pkts := [pk 6 none, pk 7 (some (3,1,false))] }) (prt 31 4 {} [(F.CLS_PIPE_STAT_state 5, 0)])), by decide +kernel⟩,
   ⟨6, (pk 6 none), (cl (fun c => { c with pkts := [pk 6 none, pk 7 (some (3,1,false))] }) (prt 31 4 {} [(F.CLS_PIPE_STAT_state 5, 0)])), by decide +kernel⟩⟩

/-- The hypotheses of BanksAndPipesRun are met, clause by clause. -/
theorem witness_BanksAndPipesRun :
    (∃ (s : State), s.g (bankSt (1 - activeBank s)) = 2 ∧ ((∀ q ∈ s.cls.pkts, q.second = none ∨ q.bank ≠ 1 - activeBank s))) ∧
    (∃ (m : Master) (s : State), s.admits m 0xB0 false ∧ s.g (bankSt (1 - activeBank s)) = 0) ∧
    (∃ (m : Master) (s : State), s.admits m 0xB0 false ∧ s.g (bankSt (1 - activeBank s)) ≠ 0 ∧ s.on (F.ERR_valid 0xB0) = false) ∧
    (∃ (s : State), s.g (bankSt (1 - activeBank s)) = 3) ∧
    (∃ (m : Master) (b : Fin 2) (off : BitVec 24) (s : State), s.admits m 0xB0 false ∧ s.g (bankSt b.val) = 0 ∧ winMask (off.toNat / 4 * 4) ≠ 0) ∧
    (∃ (m : Master) (b : Fin 2) (s : State), s.admits m 0xB0 false ∧ s.g (bankSt b.val) ≠ 0) ∧
    (∃ (s : State), ((∀ q, q < 6 → s.g (F.CLS_PIPE_STAT_state q) = 0 ∧ s.on (F.CLS_PIPE_STAT_suspect q) = false))) ∧
    (∃ (p : Fin 6) (s : State), s.g (F.CLS_PIPE_STAT_state p.val) = 1) :=
  ⟨⟨(bk 1 2), by decide +kernel⟩,
   ⟨.mgmt, (bk 0 1), by unfold State.admits; decide +kernel⟩,
   ⟨.mgmt, (bk 3 1 [(F.ERR_valid 0xB0, 0)]), by unfold State.admits; decide +kernel⟩,
   ⟨(bk 3 1), by decide +kernel⟩,
   ⟨.pcie, 1, 5, (bk 1 0), by unfold State.admits; decide +kernel⟩,
   ⟨.pcie, 1, (bk 0 1), by unfold State.admits; decide +kernel⟩,
   ⟨(bk 0 1 ((List.range 6).flatMap fun i => [(F.CLS_PIPE_STAT_state i, 0), (F.CLS_PIPE_STAT_suspect i, 0)])), by decide +kernel⟩,
   ⟨5, (bk 0 1 [(F.CLS_PIPE_STAT_state 5, 1)]), by decide +kernel⟩⟩

/-- R305: a fault of an ACTIVE lane (5) goes back to DETECT (1). -/
theorem test_lane_fault_retrains : ends (exec (.laneFault 9 7) (ln 9 5))
    (fun t => t.g (F.HL_LANE_STAT_state 1 1) == 1) = true := by decide +kernel

/-- R303: the magnitudes of the taps sum to 64: no occurrence of the command. -/
theorem test_taps_beyond_full_swing : exec (.trainingComplete 0 (63 * 1024 + 1)) (ln 0 3) = .fault .illFormed := by rfl

/-- R303, R305: the magnitudes of the taps sum to 63. -/
theorem test_taps_at_full_swing : ends (exec (.trainingComplete 0 (63 * 1024)) (ln 0 3))
    (fun t => t.g (F.HL_LANE_STAT_state 0 0) == 4) = true := by decide +kernel

/-- R345: with no standby bank the copy is refused with code 0xC1. -/
theorem test_bank_copy_from_standby_only : ends (exec (.clsBankCopy .mgmt) (bk 3 1 [(F.ERR_valid 0xB0, 0)]))
    (fun t => t.g (F.ERR_code 0xB0) == 0xC1) = true := by decide +kernel

/-- R347: a release takes the packet away. -/
theorem test_packet_released : ends (exec (.packetRelease 6) (cl (fun c => { c with pkts := [pk 6 none, pk 7 none] }) (st 4 [])))
    (fun t => t.cls.pkts == [pk 7 none]) = true := by decide +kernel

end HostSide

namespace Memory

/-- The buffer manager changed. -/
def bf (f : Buf → Buf) (s : State) : State := { s with buf := f s.buf }
/-- Memory is trained and none of its pages locked. -/
def ms (r : List (Field × Nat) := []) : State := st 4 ([(F.DEV_STATUS_mem_trained, 1), (F.LOCK_owner 0xC0, 0), (F.LOCK_owner 0xC1, 0), (F.LOCK_owner 0xC2, 0), (F.LOCK_owner 0xC3, 0)] ++ r)
/-- A stored word. -/
def w1 := eccEncode 0 (2^200+77)

/-- The hypotheses of MemoryWordsMove are met, clause by clause. -/
theorem witness_MemoryWordsMove :
    (∃ (s : State), memUp s = true) ∧
    (∃ (s : State), memUp s = true) ∧
    (∃ (s : State), memUp s = true ∧ s.on F.BUF_SCRUB_CTRL_en = true) ∧
    (∃ (m : Master) (s : State), s.reaches m 0xC0 = true ∧ memUp s = true) ∧
    (∃ (m : Master) (s : State), s.admits m 0xC0 true ∧ memUp s = true) :=
  ⟨⟨(bf (fun b => { b with mem := [(4099, w1)] }) ms), by decide +kernel⟩,
   ⟨(ms), by decide +kernel⟩,
   ⟨(ms [(F.BUF_SCRUB_CTRL_en, 1)]), by decide +kernel⟩,
   ⟨.mgmt, (bf (fun b => { b with mem := [(4096+2047, w1)] }) (cf [(F.BUF_DESKEW_BASE_page, 100)] (ms [(F.BUF_WIN_PAGE_page, 2)]))), by decide +kernel⟩,
   ⟨.mgmt, (bf (fun b => { b with mem := [(4096+2047, w1)] }) (cf [(F.BUF_DESKEW_BASE_page, 100)] (ms [(F.BUF_WIN_PAGE_page, 2)]))), by unfold State.admits; decide +kernel⟩⟩

/-- The hypotheses of MemoryRepairRuns are met, clause by clause. -/
theorem witness_MemoryRepairRuns :
    (∃ (m : Master) (s : State), s.admits m 0xC1 false) ∧
    (∃ (m : Master) (s : State), s.admits m 0xC1 false ∧ inRegion s F.BUF_TEST_BASE_page F.BUF_TEST_SIZE_pages (s.g F.BUF_INJ_ADDR_addr / 2048) = true ∧ s.buf.inj = none) ∧
    (∃ (i : Inject) (s : State), s.buf.inj = some i) ∧
    (∃ (m : Master) (a : Nat) (b : Nat) (c : Nat) (d : Nat) (rest : List (Nat × Nat × Nat × Nat)) (s : State), s.admits m 0xC2 false ∧ s.buf.log = (a, b, c, d) :: rest) ∧
    (∃ (m : Master) (i : Nat) (s : State), s.admits m 0xC3 false ∧ s.on F.BUF_RETIRE_op = false ∧ s.on F.DEV_STATUS_mem_trained = true ∧ s.g F.BUF_RETIRE_STAT_state = 0 ∧ s.g F.BUF_RETIRE_page ≤ 258047 ∧ s.buf.remap.find? (fun e => e.2.1 == 1 && e.2.2 == s.g F.BUF_RETIRE_page) = none ∧ (List.range 4096).find? (fun i => (Tbl.get (0, 0) s.buf.remap i).1 == 0) = some i) ∧
    (∃ (m : Master) (s : State), s.admits m 0xC3 false ∧ s.on F.BUF_RETIRE_op = false ∧ s.on F.DEV_STATUS_mem_trained = true ∧ s.g F.BUF_RETIRE_STAT_state ≠ 0) ∧
    (∃ (m : Master) (e : Nat × Nat × Nat) (s : State), s.admits m 0xC3 false ∧ s.on F.BUF_RETIRE_op = true ∧ s.on F.DEV_STATUS_mem_trained = true ∧ s.g F.BUF_RETIRE_STAT_state = 0 ∧ s.g F.BUF_RETIRE_page ≤ 258047 ∧ s.buf.remap.find? (fun e => e.2.1 == 1 && e.2.2 == s.g F.BUF_RETIRE_page) = some e) ∧
    (∃ (s : State), s.g F.BUF_RETIRE_STAT_state = 1) ∧
    (∃ (r : RetOp) (s : State), s.buf.ret = some r ∧ s.g F.BUF_RETIRE_STAT_state = 2) ∧
    (∃ (r : RetOp) (s : State), s.buf.ret = some r ∧ s.g F.BUF_RETIRE_STAT_state = 3) ∧
    (∃ (m : Master) (s : State), s.admits m 0xC3 false ∧ s.on F.DEV_STATUS_mem_trained = true ∧ s.buf.rowOp = none ∧ 16 * s.g F.BUF_ROWREP_row + s.g F.BUF_ROWREP_bank < 258048 ∧ physPage s (16 * s.g F.BUF_ROWREP_row + s.g F.BUF_ROWREP_bank) ≠ 16 * s.g F.BUF_ROWREP_row + s.g F.BUF_ROWREP_bank ∧ Tbl.get 0 s.buf.rowUsed (s.g F.BUF_ROWREP_pc * 16 + s.g F.BUF_ROWREP_bank) < 4) ∧
    (∃ (s : State), s.g F.BUF_ROWREP_STAT_state = 1) ∧
    (∃ (pc : Nat) (bank : Nat) (row : Nat) (s : State), s.buf.rowOp = some (pc, bank, row) ∧ s.g F.BUF_ROWREP_STAT_state = 2) :=
  ⟨⟨.mgmt, (bf (fun b => { b with track := [⟨1,2,3,true⟩, ⟨2,2,3,false⟩] }) ms), by unfold State.admits; decide +kernel⟩,
   ⟨.mgmt, (cf [(F.BUF_TEST_BASE_page, 2), (F.BUF_TEST_SIZE_pages, 1)] (ms [(F.BUF_INJ_ADDR_addr, 4097)])), by unfold State.admits; decide +kernel⟩,
   ⟨⟨4099, 5, 1⟩, (bf (fun b => { b with mem := [(4099, w1)], inj := some ⟨4099, 5, 1⟩ }) ms), by decide +kernel⟩,
   ⟨.pcie, 1, 2, 3, 4, [], (bf (fun b => { b with log := [(1,2,3,4)] }) ms), by unfold State.admits; decide +kernel⟩,
   ⟨.pcie, 0, (ms [(F.BUF_RETIRE_op, 0), (F.BUF_RETIRE_STAT_state, 0), (F.BUF_RETIRE_page, 258047)]), by unfold State.admits; decide +kernel⟩,
   ⟨.pcie, (ms [(F.BUF_RETIRE_op, 0), (F.BUF_RETIRE_STAT_state, 1), (F.BUF_RETIRE_page, 258047)]), by unfold State.admits; decide +kernel⟩,
   ⟨.pcie, (3,(1,5)), (bf (fun b => { b with remap := [(3,(1,5))] }) (ms [(F.BUF_RETIRE_op, 1), (F.BUF_RETIRE_STAT_state, 0), (F.BUF_RETIRE_page, 5)])), by unfold State.admits; decide +kernel⟩,
   ⟨(ms [(F.BUF_RETIRE_STAT_state, 1)]), by decide +kernel⟩,
   ⟨⟨false, 2, 3⟩, (bf (fun b => { b with mem := [(4099, w1)], ret := some ⟨false, 2, 3⟩ }) (ms [(F.BUF_RETIRE_STAT_state, 2)])), by decide +kernel⟩,
   ⟨⟨false, 2, 3⟩, (bf (fun b => { b with mem := [(4099, w1)], ret := some ⟨false, 2, 3⟩ }) (ms [(F.BUF_RETIRE_STAT_state, 3)])), by decide +kernel⟩,
   ⟨.mgmt, (bf (fun b => { b with remap := [(3,(1,33))] }) (ms [(F.BUF_ROWREP_row, 2), (F.BUF_ROWREP_bank, 1)])), by unfold State.admits; decide +kernel⟩,
   ⟨(bf (fun b => { b with rowSteps := 63 }) (ms [(F.BUF_ROWREP_STAT_state, 1)])), by decide +kernel⟩,
   ⟨31, 15, 16383, (bf (fun b => { b with rowOp := some (31, 15, 16383), remap := [(4095, (2, 0))] }) (ms [(F.BUF_ROWREP_STAT_state, 2)])), by decide +kernel⟩⟩

/-- R363: the word stands with its check symbols at its own address. -/
theorem test_memory_word_written : ends (exec (.bufMemWrite 528482303 0xFFFFFFFF 5 3) ms)
    (fun t => memWord t (physAddr t 528482303) == eccEncode 0 5) = true := by decide +kernel

/-- R363: one wrong symbol is corrected. -/
theorem test_single_symbol_corrected : ends (exec (.bufMemRead 4099 0 []) (bf (fun b => { b with mem := [(4099, w1 ^^^ 256 ^ 34)] }) ms))
    (fun t => dataAt t 4099 == 2 ^ 200 + 77) = true := by decide +kernel

/-- R374, R376: a go while one runs ends with BUSY (1). -/
theorem test_retire_while_busy : ends (exec (.retireGo .pcie) (ms [(F.BUF_RETIRE_STAT_state, 1), (F.BUF_RETIRE_page, 258047)]))
    (fun t => t.g F.BUF_RETIRE_STAT_state == 1 && t.g F.BUF_RETIRE_STAT_result == 1) = true := by decide +kernel

end Memory

namespace Cipher

/-- A key. -/
def K : List Byte := (List.range 36).map (BitVec.ofNat 8)
/-- The cipher with the enclave up. -/
def ci (r : List (Field × Nat)) (f : List (Field × Nat)) : State := cf (f) (st 4 ([(F.LE_ROLE_STAT_role_active 1, 1), (F.LE_ROLE_STAT_line_mode_active 1, 0), (F.LE_ROLE_STAT_run_state 1, 2), (F.CIP_STAT_overload, 0), (F.ENC_STAT_zeroised, 0), (F.ENC_STAT_debug_level, 0), (F.LOCK_owner 0xC8, 0), (F.LOCK_owner 0xC9, 0),(F.LOCK_owner 9, 0), (F.MBX_STAT_rx_in_reset 3, 0), (F.MBX_STAT_rx_in_reset 7, 0)] ++ (List.range 16).map (fun j => (F.CIP_KX_STAT_state j, 0)) ++ r))
/-- Transmit association `i` holds what `a` says. -/
def tx (i : Nat) (a : Assoc) (s : State) : State := modAssoc i (fun _ => a) (cf [(F.CIP_SA_CFG_valid i, 1), (F.CIP_SA_CFG_type i, 0), (F.CIP_SA_CFG_engine i, 1), (F.CIP_SA_CFG_container i, 5), (F.LE_GLF_CONT_CFG_kind 1 5, 0), (F.CIP_SA_POL_limit_exp i, 30), (F.CIP_SA_POL_key_source i, 1)] s)
/-- Receive association `i` holds what `a` says. -/
def rx (i : Nat) (a : Assoc) (s : State) : State := cf [(F.CIP_SA_CFG_type i, 1)] (tx i a s)
/-- `n` request words that begin with `w`. -/
def wd (w : Word) (n : Nat) : List Word := w :: (List.range (n-1)).map (fun i => BitVec.ofNat 32 (i * 0x1030517 + 4))
/-- The enclave changed. -/
def en (f : Enc → Enc) (s : State) : State := { s with enc := f s.enc }
/-- The enclave holds a KLK. -/
def klk := en (fun e => { e with klk := some [1,2] })
/-- Container 5 of engine 1 has slots. -/
def sl (s : State) : State := cf [(F.LE_GLF_RX_SLOT_slots 1 0 0 0, 0x05050505), (F.LE_GLF_CONT_CFG_valid 1 5, 1)] s
/-- A pair of associations, 3 and 4, with key exchange record 2. -/
def kx (a b : Assoc) (r : List (Field × Nat)) (k : Kx) : State :=
  let s := cf [(F.CIP_SA_POL_key_source 3, 0), (F.CIP_SA_POL_key_source 4, 0), (F.CIP_SA_PIN_pin 3, 0), (F.CIP_SA_PIN_pin 4, 0)] (rx 4 b (tx 3 a (sl (ci ([(F.CIP_KX_STAT_tx 2, 3), (F.CIP_KX_STAT_rx 2, 4)] ++ r) []))))
  let s := { s with inForce := s.inForce.filter fun e => !((List.range 1024).any fun i => i ≠ 3 && i ≠ 4 && e.1 == (F.CIP_SA_CFG_valid i).key) }
  en (fun e => { e with chain := List.replicate 401 5 }) (modKx 2 (fun _ => k) s)

/-- The hypotheses of DataUnitsProtected are met, clause by clause. -/
theorem witness_DataUnitsProtected :
    (∃ (i : Fin 1024) (s : State), saValid s.inForce i.val = true ∧ saType s.inForce i.val = 0 ∧ cipherInPath s i.val = true) ∧
    (∃ (i : Fin 1024) (s : State), saValid s.inForce i.val = true ∧ saType s.inForce i.val = 1 ∧ cipherInPath s i.val = true) :=
  ⟨⟨1023, (tx 1023 {cur := some K} (ci [(F.CIP_SA_ST_state 1023, 1), (F.CIP_SA_ST_block_reason 1023, 0)] [])), by decide +kernel⟩,
   ⟨1023, (rx 1023 {cur := some K} (ci [(F.CIP_SA_ST_state 1023, 1), (F.CIP_SA_ST_block_reason 1023, 0)] [])), by decide +kernel⟩⟩

/-- The hypotheses of KeysAndCoresRun are met, clause by clause. -/
theorem witness_KeysAndCoresRun :
    (∃ (words : List Word) (q : List Byte) (s : State), enclaveServes s = true ∧ boxQuiet s 3 ∧ keyRefuse words 13 s = 0 ∧ 2 ^ 31 ≤ (words.getD 0 0).toNat ∧ (assoc s ((words.getD 0 0).toNat % 1024)).switch = none ∧ s.enc.klk = some q) ∧
    (∃ (words : List Word) (q : List Byte) (s : State), enclaveServes s = true ∧ boxQuiet s 3 ∧ keyRefuse words 13 s = 0 ∧ (words.getD 0 0).toNat < 2 ^ 31 ∧ s.enc.klk = some q) ∧
    (∃ (words : List Word) (s : State), enclaveServes s = true ∧ boxQuiet s 3 ∧ keyRefuse words 1 s = 0 ∧ ((2 ^ 31 ≤ (words.getD 0 0).toNat → (assoc s ((words.getD 0 0).toNat % 1024)).switch = none))) ∧
    (∃ (i : Word) (at' : Word) (w2 : Word) (s : State), enclaveServes s = true ∧ boxQuiet s 3 ∧ keyRefuse [i, at', w2] 3 s = 0 ∧ w2.toNat % 2 = 0 ∧ (assoc s (i.toNat % 1024)).next ≠ none ∧ 1024 ≤ (at'.toNat + 2 ^ 32 - unitNow s (i.toNat % 1024)) % 2 ^ 32 ∧ (at'.toNat + 2 ^ 32 - unitNow s (i.toNat % 1024)) % 2 ^ 32 ≤ 2 ^ 20) ∧
    (∃ (words : List Word) (s : State), enclaveServes s = true ∧ boxQuiet s 3 ∧ keyRefuse words 3 s = 0 ∧ (assoc s ((words.getD 0 0).toNat % 1024)).next = none ∧ (assoc s ((words.getD 0 0).toNat % 1024)).switch = none) ∧
    (∃ (c : Fin 8) (s : State), s.g (F.CIP_CORE_STAT_state c.val) = 0 ∧ s.on (F.CIP_CORE_STAT_suspect c.val) = true) ∧
    (∃ (c : Fin 8) (s : State), s.g (F.CIP_CORE_STAT_state c.val) = 1) ∧
    (∃ (c : Fin 8) (s : State), s.g (F.CIP_CORE_STAT_state c.val) = 1) :=
  ⟨⟨(wd 0x800003FF 13), [1,2], (klk (tx 1023 {} (ci [] []))), by unfold boxQuiet State.admits; decide +kernel⟩,
   ⟨(wd 0x000003FF 13), [1,2], (klk (tx 1023 {next := some K} (ci [] []))), by unfold boxQuiet State.admits; decide +kernel⟩,
   ⟨[0x800003FF], (klk (tx 1023 {next := some K} (ci [] []))), by unfold boxQuiet State.admits; decide +kernel⟩,
   ⟨0x3FF, 1024, 0, (klk (tx 1023 {next := some K} (ci [(F.LE_GLF_TX_FC_fc 1, 0)] []))), by unfold boxQuiet State.admits; decide +kernel⟩,
   ⟨(wd 0x3FF 3), (klk (tx 1023 {} (ci [] []))), by unfold boxQuiet State.admits; decide +kernel⟩,
   ⟨7, (ci [(F.CIP_CORE_STAT_state 7, 0), (F.CIP_CORE_STAT_suspect 7, 1)] []), by decide +kernel⟩,
   ⟨7, (ci [(F.CIP_CORE_STAT_state 7, 1)] []), by decide +kernel⟩,
   ⟨0, (ci [(F.CIP_CORE_STAT_state 0, 1)] []), by decide +kernel⟩⟩

/-- The hypotheses of KeyExchangeRuns are met together. -/
theorem witness_KeyExchangeRuns : ∃ (m : Master) (s : State), s.admits m 0xC9 false :=
  ⟨.mgmt, (kx {} {} [] {}), by unfold State.admits; decide +kernel⟩

/-- R388: bit 31 names the next key, which stays until the boundary of its association. -/
theorem test_key_erase_next : ends (exec (.keyErase 0xFFFF [0x800003FF]) (klk (tx 1023 { next := some K } (ci [] []))))
    (fun t => (assoc t 1023).eraseNext && (assoc t 1023).next == some K) = true := by decide +kernel

/-- R405: FAILED is 2. -/
theorem test_core_test_fails : ends (exec (.coreTestDone 0 false) (ci [(F.CIP_CORE_STAT_state 0, 1)] []))
    (fun t => t.g (F.CIP_CORE_STAT_state 0) == 2) = true := by decide +kernel

/-- R399: the record is IDLE again. -/
theorem test_kx_times_out : ends (exec (.kxTimeout 2) (kx {} {} [(F.CIP_KX_STAT_state 2, 2)] { xid := 0x1122 }))
    (fun t => t.g (F.CIP_KX_STAT_state 2) == 0) = true := by decide +kernel

end Cipher

namespace Trust

/-- The enclave changed. -/
def en (f : Enc → Enc) (s : State) : State := { s with enc := f s.enc }
/-- The mailboxes of the enclave are ready. -/
def tr (r : List (Field × Nat)) (md : Nat := 4) : State := st md ([(F.LOCK_owner 9, 0), (F.LOCK_owner 0xC8, 0), (F.MBX_STAT_rx_in_reset 3, 0), (F.MBX_STAT_rx_in_reset 7, 0)] ++ r)
/-- A change handle. -/
def hd (n : Byte) (t : Nat := 0) (sg : Option (List Byte × Nat) := none) : Handle := ⟨List.replicate 32 n, t, sg⟩
/-- A signature. -/
def sec : List Byte := List.replicate 96 7
/-- A change request. -/
def req (op : Nat) (pl : List Byte) (dg : List Byte) (serial : Nat := 77) : List Byte :=
  [0x58, 0x43, 0x43, 0x52] ++ toLe 2 1 ++ toLe 2 op ++ toLe 2 pl.length ++ toLe 2 0 ++ toLe 8 serial ++ List.replicate 32 9 ++ (dg ++ List.replicate 16 0).take 16 ++ pl
/-- A signature record of an officer. -/
def rec (slot : Nat) (sig : List Byte := sec) : List Byte := toLe 2 slot ++ [0, 0] ++ sig
/-- Handle 2 is in use and two officers are enrolled. -/
def base (r : List (Field × Nat)) : State := en (fun e => { e with handles := [(2, hd 9)], officers := [(0, ⟨1, 15, 4 :: List.replicate 96 1⟩), (1, ⟨2, 15, 4 :: List.replicate 96 2⟩)], overrides := [], policy := [], bcrKeys := [], fwVersion := 9, bcrVersion := 9 }) (tr ([(F.ENC_SERIAL_LO_serial, 77), (F.ENC_SERIAL_HI_serial, 0), (F.DEV_STATUS_cfg_default, 0)] ++ r))
/-- The exchange buffer holds `b`. -/
def put (b : List Byte) (s : State) : State := xbufPut b s
/-- A payload of operation `op`. -/
def pl (op : Nat) : List Byte := match op with
  | 3 => [1, 0xA6 ||| 1, 200, 120] ++ List.replicate 12 0
  | 6 => [2, 0, 0, 0, 5, 0, 0, 0]
  | 9 => [7, 0, 0, 0]
  | 1 => [2, 0, 0, 0] ++ (([5, 0, 15, 0] : List Byte) ++ 4 :: List.replicate 96 5 ++ [0,0,0]) ++ (([6, 0, 15, 0] : List Byte) ++ 4 :: List.replicate 96 6 ++ [0,0,0])
  | _ => []
/-- A submission of operation `op` with `n` signatures (of another device where `bad`): state, word and change. -/
def sub (op n : Nat) (bad : Bool := false) : State × Word × Change :=
  let s := base []
  let q := req op (pl op) (List.replicate 48 5) (if bad then 78 else 77) ++ rec 1 ++ (if n = 2 then rec 0 else [])
  let s := put q s
  (s, BitVec.ofNat 32 (q.length * 65536 + 2), (changeParse q).getD ⟨[], 0, [], []⟩)

/-- The hypotheses of EnclaveAnswers are met, clause by clause. -/
theorem witness_EnclaveAnswers :
    (∃ (fw : Bool) (h : Nat) (s : State), enclaveServes s = true ∧ boxQuiet s (if fw then 7 else 3) ∧ s.enc.trngBad = false ∧ ((List.range 4).find? fun h => (Tbl.find s.enc.handles h).isNone) = some h) ∧
    (∃ (fw : Bool) (s : State), enclaveServes s = true ∧ boxQuiet s (if fw then 7 else 3) ∧ ((∀ h, h < 4 → Tbl.find s.enc.handles h ≠ none))) ∧
    (∃ (fw : Bool) (words : List Word) (s : State), enclaveServes s = true ∧ boxQuiet s (if fw then 7 else 3) ∧ words.length = 8 ∧ s.enc.trngBad = false) ∧
    (∃ (fw : Bool) (s : State), enclaveServes s = true ∧ boxQuiet s (if fw then 7 else 3)) ∧
    (∃ (fw : Bool) (s : State), enclaveServes s = true ∧ boxQuiet s (if fw then 7 else 3) ∧ s.mode ≠ 7 ∧ s.enc.trngBad = false) ∧
    (∃ (fw : Bool) (s : State), enclaveServes s = true ∧ boxQuiet s (if fw then 7 else 3) ∧ s.mode = 7) ∧
    (∃ (h : Fin 4) (x : Handle) (s : State), Tbl.find s.enc.handles h.val = some x) ∧
    (∃ (s : State), s.g F.ENC_STAT_debug_level ≠ 0) ∧
    (∃ (le : Fin 2) (p : Nat) (h : Nat) (s : State), Tbl.find s.enc.overrides le.val = some (p, h) ∧ h ≠ 0) ∧
    (∃ (s : State), enclaveUp s = true) :=
  ⟨⟨true, 3, (en (fun e => { e with handles := [(0, hd 1), (1, hd 2), (2, hd 3)] }) (tr [])), by unfold boxQuiet State.admits; decide +kernel⟩,
   ⟨false, (en (fun e => { e with handles := [(0, hd 1), (1, hd 2), (2, hd 3), (3, hd 3)] }) (tr [])), by unfold boxQuiet State.admits; decide +kernel⟩,
   ⟨true, ((List.range 8).map (BitVec.ofNat 32 <| 0x1234567 * ·)), (tr []), by unfold boxQuiet State.admits; decide +kernel⟩,
   ⟨true, (en (fun e => { e with handles := [(0, hd 1), (1, hd 2), (2, hd 3), (3, hd 3)] }) (tr [])), by unfold boxQuiet State.admits; decide +kernel⟩,
   ⟨true, (tr []), by unfold boxQuiet State.admits; decide +kernel⟩,
   ⟨true, (tr [] 7), by unfold boxQuiet State.admits; decide +kernel⟩,
   ⟨3, (hd 9), (en (fun e => { e with handles := [(3, hd 9)] }) (tr [])), by decide +kernel⟩,
   ⟨(tr [(F.ENC_STAT_debug_level, 2)]), by decide +kernel⟩,
   ⟨1, 0, 5, (en (fun e => { e with overrides := [(1, (0, 5))] }) (tr [(F.UBH_STAT_link 1, 3)])), by decide +kernel⟩,
   ⟨(tr []), by decide +kernel⟩⟩

/-- The hypotheses of ChangesAreCosigned are met, clause by clause. -/
theorem witness_ChangesAreCosigned :
    (∃ (fw : Bool) (w : Word) (s : State), enclaveServes s = true ∧ settled s ∧ boxQuiet s (if fw then 7 else 3) ∧ Tbl.find s.enc.handles (w.toNat % 4) = none) ∧
    (∃ (fw : Bool) (w : Word) (x : Handle) (s : State), enclaveServes s = true ∧ settled s ∧ boxQuiet s (if fw then 7 else 3) ∧ Tbl.find s.enc.handles (w.toNat % 4) = some x ∧ x.issued + 600000000000 ≤ s.now) ∧
    (∃ (fw : Bool) (w : Word) (x : Handle) (s : State), enclaveServes s = true ∧ settled s ∧ boxQuiet s (if fw then 7 else 3) ∧ Tbl.find s.enc.handles (w.toNat % 4) = some x ∧ s.now < x.issued + 600000000000 ∧ ((1536 < w.toNat / 2 ^ 16 % 2 ^ 12 ∨ changeParse (xbufBytes s (w.toNat / 2 ^ 16 % 2 ^ 12)) = none))) ∧
    (∃ (fw : Bool) (w : Word) (x : Handle) (c : Change) (s : State), enclaveServes s = true ∧ settled s ∧ boxQuiet s (if fw then 7 else 3) ∧ submits s w x c ∧ (changeCheck c x s).1 ≠ 0) ∧
    (∃ (fw : Bool) (w : Word) (x : Handle) (c : Change) (r : Nat × List Byte) (s : State), enclaveServes s = true ∧ settled s ∧ boxQuiet s (if fw then 7 else 3) ∧ submits s w x c ∧ c.records = [r] ∧ x.signed = none) ∧
    (∃ (fw : Bool) (w : Word) (x : Handle) (c : Change) (s : State), enclaveServes s = true ∧ settled s ∧ boxQuiet s (if fw then 7 else 3) ∧ submits s w x c ∧ ((c.records.length ≠ 1 ∨ x.signed ≠ none)) ∧ (c.op = 1 ∨ c.op = 3 ∨ c.op = 6 ∨ c.op = 9)) :=
  ⟨⟨true, 0xFFFF, (tr []), by unfold settled boxQuiet State.admits; decide +kernel⟩,
   ⟨true, 0xFFFF, (hd 9), ({ en (fun e => { e with handles := [(3, hd 9)] }) (tr []) with time := 600000000000 }), by unfold settled boxQuiet State.admits; decide +kernel⟩,
   ⟨false, 0xFFFFFFFF, (hd 9), (en (fun e => { e with handles := [(3, hd 9)] }) (tr [])), by unfold settled boxQuiet State.admits; decide +kernel⟩,
   ⟨false, (sub 9 2 true).2.1, (hd 9), (sub 9 2 true).2.2, (sub 9 2 true).1, by unfold settled boxQuiet submits State.admits; decide +kernel⟩,
   ⟨true, (sub 9 1).2.1, (hd 9), (sub 9 1).2.2, (1, sec), (sub 9 1).1, by unfold settled boxQuiet submits State.admits; decide +kernel⟩,
   ⟨true, (sub 9 2).2.1, (hd 9), (sub 9 2).2.2, (sub 9 2).1, by unfold settled boxQuiet submits State.admits; decide +kernel⟩⟩

/-- R414: four handles are in use. -/
theorem test_fifth_handle_refused : ends (exec (.nonceGet false 0xFFFF []) (en (fun e => { e with handles := [(0, hd 1), (1, hd 2), (2, hd 3), (3, hd 3)] }) (tr [])))
    (fun t => t.enc.handles.length == 4) = true := by decide +kernel

/-- R419: an expired handle is FREE. -/
theorem test_handle_expires : ends (exec (.chgExpiry 3) { en (fun e => { e with handles := [(3, hd 9)] }) (tr []) with time := 600000000000 })
    (fun t => t.enc.handles == []) = true := by decide +kernel

/-- R412: LOCKED is 0. -/
theorem test_debug_expires : ends (exec .debugExpire (tr [(F.ENC_STAT_debug_level, 2)]))
    (fun t => t.g F.ENC_STAT_debug_level == 0) = true := by decide +kernel

end Trust

namespace Optical

/-- The optical link of engine `le` changed. -/
def ub (le : Nat) (f : Ubh → Ubh) (s : State) : State := modUbh le (fun u => f { u with brk := false, seq := 255 }) s
/-- The link of engine `le` is in state `l`. -/
def lk (le l : Nat) (r : List (Field × Nat)) (f : Ubh → Ubh := id) : State := ub le f (cf [] (st 4 ([(F.UBH_STAT_link le, l), (F.LOCK_owner 0xD8, 0), (F.LOCK_owner 0xD9, 0)] ++ r)))
/-- `n` bytes that begin with `a` and have `b` third. -/
def bs (n : Nat) (a b : Byte) : List Byte := a :: ((List.range (n-1)).map fun i => if i = 1 then b else BitVec.ofNat 8 (i * 37 + 1))

/-- The hypotheses of OpticalLinkComesUp are met, clause by clause. -/
theorem witness_OpticalLinkComesUp :
    (∃ (le : Fin 2) (p : List Byte) (s : State), linkIdle s le.val ∧ linkOf s le.val = 0 ∧ p.length = 49 ∧ byteAt p 0 = 0) ∧
    (∃ (le : Fin 2) (s : State), linkIdle s le.val ∧ linkOf s le.val = 0) ∧
    (∃ (le : Fin 2) (p : List Byte) (s : State), linkIdle s le.val ∧ linkOf s le.val = 1 ∧ p.length ≤ 201 ∧ p ≠ [] ∧ byteAt p 0 = 0) ∧
    (∃ (le : Fin 2) (s : State), linkIdle s le.val ∧ linkOf s le.val = 1) ∧
    (∃ (le : Fin 2) (p : List Byte) (s : State), linkIdle s le.val ∧ linkOf s le.val = 1 ∧ p.length = 194) ∧
    (∃ (le : Fin 2) (p : List Byte) (s : State), linkIdle s le.val ∧ txAllowed s le.val = true ∧ s.on (F.UBH_STAT_tx_enabled le.val) = false ∧ p ≠ [] ∧ p.length ≤ 232 ∧ byteAt p 0 = 0) ∧
    (∃ (le : Fin 2) (s : State), (ubh s le.val).brk = false ∧ (ubh s le.val).txd = none ∧ txAllowed s le.val = false ∧ s.on (F.UBH_STAT_tx_enabled le.val) = true) ∧
    (∃ (m : Master) (le : Fin 2) (s : State), s.admits m (0xD8 + le.val) false ∧ linkOf s le.val ≠ 4) ∧
    (∃ (m : Master) (le : Fin 2) (s : State), s.admits m (0xD8 + le.val) false ∧ linkOf s le.val = 4) ∧
    (∃ (le : Fin 2) (s : State), (ubh s le.val).brk = false ∧ (linkOf s le.val = 1 ∨ linkOf s le.val = 2 ∨ linkOf s le.val = 3)) :=
  ⟨⟨1, (bs 49 0 6), (lk 1 0 []), by unfold linkIdle; decide +kernel⟩,
   ⟨1, (lk 1 0 []), by unfold linkIdle; decide +kernel⟩,
   ⟨1, (bs 201 0 7), (lk 1 1 [] (fun u => { u with chain := List.replicate 2000 7 })), by unfold linkIdle; decide +kernel⟩,
   ⟨1, (lk 1 1 [] (fun u => { u with chain := List.replicate 2000 7 })), by unfold linkIdle; decide +kernel⟩,
   ⟨1, (0 :: List.replicate 97 4 ++ List.replicate 96 7), (lk 1 1 [] (fun u => { u with chain := List.replicate 2000 7 })), by unfold linkIdle; decide +kernel⟩,
   ⟨1, [0], (lk 1 2 [(F.LE_ROLE_STAT_run_state 1, 2), (F.LE_ROLE_STAT_role_active 1, 1), (F.UBH_CTRL_tx_allow 1, 1), (F.UBH_STAT_tx_enabled 1, 0)]), by unfold linkIdle; decide +kernel⟩,
   ⟨1, (lk 1 2 [(F.LE_ROLE_STAT_run_state 1, 0), (F.LE_ROLE_STAT_role_active 1, 1), (F.UBH_CTRL_tx_allow 1, 1), (F.UBH_STAT_tx_enabled 1, 1)] (fun u => { u with queue := [(5, []), (6, [])] })), by decide +kernel⟩,
   ⟨.mgmt, 1, (lk 1 2 [(F.UBH_STAT_tx_enabled 1, 1)] (fun u => { u with session := some ([1], [2]) })), by unfold State.admits; decide +kernel⟩,
   ⟨.mgmt, 1, (lk 1 4 [] (fun u => { u with brk := true })), by unfold State.admits; decide +kernel⟩,
   ⟨1, (lk 1 1 []), by decide +kernel⟩⟩

/-- The hypotheses of OpticalLinkServes are met, clause by clause. -/
theorem witness_OpticalLinkServes :
    (∃ (le : Fin 2) (s : State), linkIdle s le.val ∧ linkOf s le.val = 3) ∧
    (∃ (le : Fin 2) (k : List Byte) (ed : List Byte) (s : State), linkOf s le.val = 2 ∧ (ubh s le.val).session = some (k, ed) ∧ (ubh s le.val).brk = false ∧ (ubh s le.val).out = none ∧ (ubh s le.val).txd = none ∧ (ubh s le.val).ctrTx < 2 ^ 32 - 1) ∧
    (∃ (le : Fin 2) (s : State), linkIdle s le.val ∧ linkOf s le.val = 3 ∧ (ubh s le.val).alertDue = true) ∧
    (∃ (le : Fin 2) (r : List Byte) (s : State), linkIdle s le.val ∧ linkOf s le.val = 3 ∧ r.length = 32) ∧
    (∃ (le : Fin 2) (d : List Byte) (s : State), linkIdle s le.val ∧ linkOf s le.val = 3 ∧ s.on (F.UBH_PT_STAT_busy le.val) = true ∧ d.length ≤ 200) ∧
    (∃ (le : Fin 2) (s : State), linkIdle s le.val ∧ linkOf s le.val = 3 ∧ s.on (F.UBH_PT_STAT_busy le.val) = true) ∧
    (∃ (le : Fin 2) (c : UbhCmd) (s : State), (ubh s le.val).txd = none ∧ (ubh s le.val).out = some c ∧ c.tries < 3) ∧
    (∃ (le : Fin 2) (c : UbhCmd) (s : State), (ubh s le.val).txd = none ∧ (ubh s le.val).out = some c ∧ 3 ≤ c.tries ∧ (linkOf s le.val = 1 ∨ linkOf s le.val = 2 ∨ linkOf s le.val = 3)) ∧
    (∃ (m : Master) (le : Fin 2) (write : Bool) (s : State), s.admits m (0xD8 + le.val) false ∧ s.on (F.UBH_PT_STAT_busy le.val) = false ∧ (linkOf s le.val = 2 ∨ linkOf s le.val = 3) ∧ ((write = true → s.runState le.val = 0))) ∧
    (∃ (m : Master) (le : Fin 2) (s : State), s.admits m (0xD8 + le.val) false ∧ s.on (F.UBH_PT_STAT_busy le.val) = false ∧ (linkOf s le.val = 2 ∨ linkOf s le.val = 3) ∧ s.runState le.val ≠ 0) :=
  ⟨⟨1, (lk 1 3 []), by unfold linkIdle; decide +kernel⟩,
   ⟨1, [1,2,3], [4], (lk 1 2 [] (fun u => { u with session := some ([1,2,3], [4]), ctrTx := 2^32-2 })), by decide +kernel⟩,
   ⟨1, (lk 1 3 [] (fun u => { u with alertDue := true })), by unfold linkIdle; decide +kernel⟩,
   ⟨1, ((bs 32 7 4)), (lk 1 3 []), by unfold linkIdle; decide +kernel⟩,
   ⟨1, (bs 200 7 4), (lk 1 3 [(F.UBH_PT_STAT_busy 1, 1)]), by unfold linkIdle; decide +kernel⟩,
   ⟨1, (lk 1 3 [(F.UBH_PT_STAT_busy 1, 1)]), by unfold linkIdle; decide +kernel⟩,
   ⟨1, ⟨6, false, 3, 4, [], [], 2, 0⟩, (lk 1 3 [] (fun u => { u with out := some ⟨6, false, 3, 4, [], [], 2, 0⟩ })), by decide +kernel⟩,
   ⟨1, ⟨6, false, 3, 4, [], [], 3, 0⟩, (lk 1 3 [] (fun u => { u with out := some ⟨6, false, 3, 4, [], [], 3, 0⟩ })), by decide +kernel⟩,
   ⟨.pcie, 1, false, (lk 1 3 [(F.UBH_PT_STAT_busy 1, 0)]), by unfold State.admits; decide +kernel⟩,
   ⟨.pcie, 1, (lk 1 2 [(F.UBH_PT_STAT_busy 1, 0), (F.LE_ROLE_STAT_run_state 1, 1)]), by unfold State.admits; decide +kernel⟩⟩

/-- R445: a falling alert line calls for an alert read. -/
theorem test_alert_sets_due : ends (exec (.ubhAlertFall 1) (lk 1 2 []))
    (fun t => (ubh t 1).alertDue) = true := by decide +kernel

/-- R437, R439: no answer leaves the link ABSENT (0). -/
theorem test_hello_unanswered : ends (exec (.hello 1 []) (lk 1 0 []))
    (fun t => t.g (F.UBH_STAT_link 1) == 0) = true := by decide +kernel

end Optical

namespace Sync

/-- Synchronisation with the register fields `r` and the fields in force `c`. -/
def sy (r : List (Field × Nat)) (c : List (Field × Nat) := []) (f : Syn → Syn := id) : State := modSyn f (cf (c ++ [(F.SYN_CTRL_force_sel, 15), (F.SYN_CTRL_ql_mode, 0)]) (st 4 ([(F.LOCK_owner 0xD3, 0)] ++ (List.range 15).map (fun k => (F.SYN_IN_STAT_state k, 0)) ++ r)))

/-- The hypotheses of ReferencesAreSelected are met, clause by clause. -/
theorem witness_ReferencesAreSelected :
    (∃ (k : Fin 15) (s : State), dpll s ≠ 4 ∧ (inputState s k.val = 1 ∨ inputState s k.val = 2 ∨ inputState s k.val = 3)) ∧
    (∃ (s : State), dpll s = 4) ∧
    (∃ (k : Fin 15) (s : State), dpll s ≠ 4 ∧ inputState s k.val = 4 ∧ inputFaulty s k.val = false) ∧
    (∃ (k : Fin 15) (s : State), (inputState s k.val = 1 ∨ inputState s k.val = 2) ∧ inputFaulty s k.val = false) ∧
    (∃ (k : Nat) (s : State), dpll s ≠ 4 ∧ synSelect s = some k ∧ k < 15 ∧ k ≠ s.g F.SYN_STAT_selected) ∧
    (∃ (s : State), dpll s ≠ 4 ∧ synSelect s = some (s.g F.SYN_STAT_selected)) ∧
    (∃ (s : State), (dpll s = 1 ∨ dpll s = 2) ∧ synSelect s = none ∧ s.on F.SYN_STAT_hold_valid = true) ∧
    (∃ (s : State), (dpll s = 1 ∨ dpll s = 2) ∧ synSelect s = none ∧ s.on F.SYN_STAT_hold_valid = false ∧ s.syn.hist.length < 10999) ∧
    (∃ (s : State), dpll s = 1) ∧
    (∃ (s : State), dpll s = 3 ∧ s.on F.SYN_STAT_oos = false) ∧
    (∃ (s : State), dpll s = 2 ∧ s.on F.SYN_STAT_hold_valid = true ∧ s.on F.SYN_STAT_switching = false) ∧
    (∃ (s : State), dpll s = 4 ∧ s.syn.before < 4) ∧
    (∃ (s : State), dpll s ≠ 4 ∧ s.on F.SYN_STAT_switching = true) ∧
    (∃ (k : Fin 15) (diff : BitVec 16) (s : State), s.g F.SYN_STAT_selected ≠ 0xF ∧ k.val ≠ s.g F.SYN_STAT_selected ∧ eligible s k.val = true ∧ rankOf s k.val = rankOf s (s.g F.SYN_STAT_selected) ∧ s.cur F.SYN_DISAGREE_disagree_ppm * 10 < diff.toNat) ∧
    (∃ (diff : BitVec 16) (s : State), diff.toNat ≤ s.cur F.SYN_DISAGREE_disagree_ppm * 10) :=
  ⟨⟨14, (sy [(F.SYN_STAT_state, 2), (F.SYN_IN_STAT_state 14, 3)]), by decide +kernel⟩,
   ⟨(sy [(F.SYN_STAT_state, 4), (F.SYN_IN_STAT_state 14, 3)]), by decide +kernel⟩,
   ⟨14, (sy [(F.SYN_PPS_STAT_present, 1), (F.SYN_STAT_state, 2), (F.SYN_IN_STAT_state 14, 4)]), by decide +kernel⟩,
   ⟨14, (sy [(F.SYN_PPS_STAT_present, 1), (F.SYN_STAT_state, 2), (F.SYN_IN_STAT_state 14, 2)]), by decide +kernel⟩,
   ⟨14, (sy [(F.SYN_STAT_state, 0), (F.SYN_STAT_selected, 15), (F.SYN_IN_STAT_state 14, 3)] [(F.SYN_IN_CFG_priority 14, 1)]), by decide +kernel⟩,
   ⟨(sy [(F.SYN_STAT_state, 2), (F.SYN_STAT_selected, 14), (F.SYN_IN_STAT_state 14, 3)] [(F.SYN_IN_CFG_priority 14, 1), (F.SYN_CTRL_revertive, 0)]), by decide +kernel⟩,
   ⟨(sy [(F.SYN_STAT_state, 2), (F.SYN_STAT_selected, 14), (F.SYN_STAT_hold_valid, 1)] [(F.SYN_IN_CFG_priority 14, 1)]), by decide +kernel⟩,
   ⟨(sy [(F.SYN_STAT_state, 1), (F.SYN_STAT_selected, 14), (F.SYN_STAT_hold_valid, 0)] [(F.SYN_IN_CFG_priority 14, 1)]), by decide +kernel⟩,
   ⟨(sy [(F.SYN_STAT_state, 1)]), by decide +kernel⟩,
   ⟨(sy [(F.SYN_STAT_state, 3), (F.SYN_STAT_oos, 0)]), by decide +kernel⟩,
   ⟨(sy [(F.SYN_STAT_state, 2), (F.SYN_STAT_hold_valid, 1), (F.SYN_STAT_switching, 0)]), by decide +kernel⟩,
   ⟨(sy [(F.SYN_STAT_state, 4), (F.SYN_IN_STAT_state 14, 3)] [] (fun y => { y with before := 2, waiting := [(14, true)] })), by decide +kernel⟩,
   ⟨(sy [(F.SYN_STAT_state, 2), (F.SYN_STAT_switching, 1)]), by decide +kernel⟩,
   ⟨14, 0xFFFF, (sy [(F.SYN_STAT_state, 2), (F.SYN_STAT_selected, 0), (F.SYN_IN_STAT_state 14, 3)] [(F.SYN_IN_CFG_priority 14, 1), (F.SYN_IN_CFG_priority 0, 1)]), by decide +kernel⟩,
   ⟨0, (sy [] []), by decide +kernel⟩⟩

/-- The hypotheses of TimeAndQualityCarried are met, clause by clause. -/
theorem witness_TimeAndQualityCarried :
    (∃ (p : Fin 32) (s : State), portState s p.val = 4 ∧ portFlexo s.inForce p.val = false) ∧
    (∃ (p : Fin 32) (s : State), portState s p.val = 4 ∧ portFlexo s.inForce p.val = false) ∧
    (∃ (m : Master) (s : State), s.admits m 0xD3 false ∧ s.on F.SYN_TIME_CTRL_busy = false ∧ (s.g F.SYN_TIME_SET_LO_time + 2 ^ 32 * s.g F.SYN_TIME_SET_HI_time) % 1000000000 = 0 ∧ nextPps s < s.g F.SYN_TIME_SET_LO_time + 2 ^ 32 * s.g F.SYN_TIME_SET_HI_time) ∧
    (∃ (m : Master) (s : State), s.admits m 0xD3 false ∧ s.on F.SYN_TIME_CTRL_busy = false ∧ ((s.g F.SYN_TIME_SET_LO_time + 2 ^ 32 * s.g F.SYN_TIME_SET_HI_time) % 1000000000 ≠ 0 ∨ s.g F.SYN_TIME_SET_LO_time + 2 ^ 32 * s.g F.SYN_TIME_SET_HI_time ≤ nextPps s) ∧ s.on (F.ERR_valid 0xD3) = false) ∧
    (∃ (m : Master) (s : State), s.admits m 0xD3 false ∧ s.on F.SYN_TIME_CTRL_busy = true ∧ s.on (F.ERR_valid 0xD3) = false) ∧
    (∃ (m : Master) (s : State), s.admits m 0xD3 false ∧ s.on F.SYN_TIME_CTRL_busy = false) ∧
    (∃ (t0 : Nat) (rate : Nat) (off : Int) (s : State), s.syn.adjust = some (t0, rate, off) ∧ 0 < rate ∧ t0 + off.natAbs * 1000001 < 2 ^ 64) ∧
    (∃ (s : State), s.on F.SYN_PPS_CTRL_align = false) ∧
    (∃ (x : BitVec 64) (s : State), s.on F.SYN_PPS_CTRL_align = true ∧ s.on F.SYN_TIME_CTRL_busy = false ∧ s.on F.SYN_PPS_STAT_present = true ∧ s.syn.aligned = true ∧ s.g F.SYN_PPS_IN_DELAY_delay = 0 ∧ 1000 < x.toNat % 1000000000 ∧ x.toNat % 1000000000 < 500000000) ∧
    (∃ (s : State), s.on F.SYN_PPS_STAT_present = true) ∧
    (∃ (s : State), s.syn.setWaits = true ∧ max s.now (nextPps s) < s.g F.SYN_TIME_SET_LO_time + 2 ^ 32 * s.g F.SYN_TIME_SET_HI_time ∧ s.g F.SYN_TIME_SET_LO_time + 2 ^ 32 * s.g F.SYN_TIME_SET_HI_time < 2 ^ 64) ∧
    (∃ (s : State), s.syn.setWaits = false ∧ s.on F.SYN_PPS_CTRL_out_en = true ∧ nextPps s < 2 ^ 64) ∧
    (∃ (s : State), s.on F.THM_CTRL_ref_en = true ∧ s.dev.vaon = true ∧ s.on F.THM_STAT_ref_ready = false) :=
  ⟨⟨31, (cf [(F.PORT_CFG_type 3 7, 0)] (sy [(F.PORT_STAT_state 3 7, 4)])), by decide +kernel⟩,
   ⟨31, (cf [(F.PORT_CFG_type 3 7, 0)] (sy [(F.PORT_STAT_state 3 7, 4)])), by decide +kernel⟩,
   ⟨.pcie, (sy [(F.SYN_TIME_CTRL_busy, 0), (F.SYN_PPS_OUT_DELAY_delay, 0), (F.SYN_TIME_SET_LO_time, 2000000000), (F.SYN_TIME_SET_HI_time, 0)]), by unfold State.admits; decide +kernel⟩,
   ⟨.pcie, (sy [(F.SYN_TIME_CTRL_busy, 0), (F.ERR_valid 0xD3, 0), (F.SYN_PPS_OUT_DELAY_delay, 0), (F.SYN_TIME_SET_LO_time, 2000000001), (F.SYN_TIME_SET_HI_time, 0)]), by unfold State.admits; decide +kernel⟩,
   ⟨.pcie, (sy [(F.SYN_TIME_CTRL_busy, 1), (F.ERR_valid 0xD3, 0)]), by unfold State.admits; decide +kernel⟩,
   ⟨.pcie, (sy [(F.SYN_TIME_CTRL_busy, 0), (F.SYN_TIME_ADJ_offset, 0xFFFFFFFF)]), by unfold State.admits; decide +kernel⟩,
   ⟨1000, 3, (-7), (sy [] [] (fun y => { y with adjust := some (1000, 3, -7) })), by decide +kernel⟩,
   ⟨(sy [(F.SYN_PPS_CTRL_align, 0), (F.SYN_PPS_IN_DELAY_delay, 0xFFFFFFFF)]), by decide +kernel⟩,
   ⟨1000001001, (sy [(F.SYN_PPS_CTRL_align, 1), (F.SYN_TIME_CTRL_busy, 0), (F.SYN_PPS_STAT_present, 1), (F.SYN_PPS_IN_DELAY_delay, 0)] [] (fun y => { y with aligned := true })), by decide +kernel⟩,
   ⟨(sy [(F.SYN_PPS_STAT_present, 1)]), by decide +kernel⟩,
   ⟨(sy [(F.SYN_PPS_OUT_DELAY_delay, 5), (F.SYN_TIME_SET_LO_time, 2000000001), (F.SYN_TIME_SET_HI_time, 0)] [] (fun y => { y with setWaits := true })), by decide +kernel⟩,
   ⟨(sy [(F.SYN_PPS_OUT_DELAY_delay, 0xFFFFFFFF), (F.SYN_PPS_CTRL_out_en, 1)]), by decide +kernel⟩,
   ⟨(sy [(F.THM_CTRL_ref_en, 1), (F.THM_STAT_ref_ready, 0)]), by decide +kernel⟩⟩

/-- R452, R453: a fault of a VALID input makes it FAILED (4). -/
theorem test_fault_of_the_selected_input : ends (exec (.inputFault 14) (sy [(F.SYN_STAT_state, 2), (F.SYN_IN_STAT_state 14, 3)]))
    (fun t => t.g (F.SYN_IN_STAT_state 14) == 4) = true := by decide +kernel

/-- R464: TIME_BUSY is 0x82. -/
theorem test_adjust_while_busy : ends (exec (.adjust .pcie 1023) (sy [(F.SYN_TIME_CTRL_busy, 1)]))
    (fun t => t.on F.SYN_TIME_CTRL_busy && t.g (F.ERR_code 0xD3) == 0x82) = true := by decide +kernel

end Sync

namespace Thermos

/-- Thermos with the register fields `r` and the fields in force `c`. -/
def th (r : List (Field × Nat)) (c : List (Field × Nat) := []) (f : Thm → Thm := id) : State := modThm f (cf c (st 4 ([(F.LOCK_owner 0xE4, 0), (F.LOCK_owner 0xE6, 0), (F.PAGE_STAT_commit_pending 0xE4, 0)] ++ r)))
/-- No rule is enabled but those of `c`. -/
def rl (r : List (Field × Nat)) (c : List (Field × Nat) := []) : State := cf ((List.range 32).map (fun q => (F.HMP_RULE_CFG_en q, 0)) ++ (List.range 32).map (fun q => (F.HMP_RULE_CFG_persist q, 2)) ++ c) (st 4 ((List.range 32).map (fun q => (F.HMP_RULE_STAT_state q, 0)) ++ r))
/-- The monitors with the register fields `r` and the fields in force `c`. -/
def mo (r : List (Field × Nat)) (c : List (Field × Nat) := []) : State := cf c (st 4 ([(F.LOCK_owner 0xE8, 0), (F.LOCK_owner 0xEA, 0), (F.LE_ROLE_STAT_run_state 1, 2), (F.LE_ROLE_STAT_role_active 1, 1)] ++ r))

/-- The hypotheses of ThermosConverts are met, clause by clause. -/
theorem witness_ThermosConverts :
    (∃ (s : State), s.cur F.THM_SEQ_period ≠ 0 ∧ s.dev.vaon = true ∧ s.on F.THM_STAT_seq_busy = false ∧ s.on F.THM_STAT_cal_busy = false ∧ s.on (F.PAGE_STAT_commit_pending 0xE4) = false ∧ (∃ k, k < 52 ∧ s.curOn (F.THM_CH_CFG_en k) = true)) ∧
    (∃ (s : State), s.cur F.THM_SEQ_period ≠ 0 ∧ s.dev.vaon = true ∧ s.on F.THM_STAT_seq_busy = true ∧ s.on F.THM_STAT_trig_pending = false) ∧
    (∃ (m : Master) (s : State), s.admits m 0xE4 true ∧ s.on F.THM_STAT_seq_busy = true ∧ s.on F.THM_STAT_trig_pending = true) ∧
    (∃ (m : Master) (s : State), s.admits m 0xE4 true ∧ s.on F.THM_STAT_seq_busy = false ∧ s.on F.THM_STAT_cal_busy = false ∧ s.on (F.PAGE_STAT_commit_pending 0xE4) = false ∧ (∃ k, k < 52 ∧ s.curOn (F.THM_CH_CFG_en k) = true)) ∧
    (∃ (m : Master) (s : State), s.admits m 0xE4 true ∧ s.on F.THM_STAT_cal_busy = false ∧ s.on F.THM_STAT_cal_queued = false) ∧
    (∃ (m : Master) (s : State), s.admits m 0xE4 true ∧ (s.on F.THM_STAT_cal_busy = true ∨ s.on F.THM_STAT_cal_queued = true) ∧ s.on (F.ERR_valid 0xE4) = false) ∧
    (∃ (zero : List (BitVec 24)) (ref : List (BitVec 24)) (z : Int) (d : Nat) (s : State), s.on F.THM_STAT_cal_busy = true ∧ s.on F.THM_STAT_trig_pending = false ∧ windowSum 2 (zero.take 4) = z ∧ windowSum 2 (ref.take 4) = z + d ∧ 0 < d ∧ 3774874 ≤ roundEven (4194304 * 6710886) d ∧ roundEven (4194304 * 6710886) d ≤ 4613734) ∧
    (∃ (zero : List (BitVec 24)) (ref : List (BitVec 24)) (s : State), s.on F.THM_STAT_cal_busy = true ∧ s.on F.THM_STAT_trig_pending = false ∧ windowSum 2 (ref.take 4) ≤ windowSum 2 (zero.take 4)) ∧
    (∃ (tag : Fin 52) (s : State), s.dev.vaon = true ∧ s.on F.THM_STAT_seq_busy = true ∧ s.thm.todo.head? = some tag.val ∧ s.thm.passed = false ∧ s.curOn (F.THM_CH_CFG_queue tag.val) = true ∧ s.thm.queue.length < 128) ∧
    (∃ (tag : Fin 52) (w : List (BitVec 24)) (c : Int) (s : State), s.dev.vaon = true ∧ settled s ∧ s.on F.THM_STAT_seq_busy = true ∧ s.thm.todo.head? = some tag.val ∧ s.thm.passed = true ∧ s.thm.gap = false ∧ ((∀ r, r < 32 → ruleReads s.inForce r tag.val = false)) ∧ Tbl.get false s.thm.accepted tag.val = false ∧ -8388608 ≤ c ∧ c ≤ 8388607 ∧ roundEven ((windowSum (s.cur (F.THM_CH_CFG_avg_n tag.val)) (w.take (2 ^ s.cur (F.THM_CH_CFG_avg_n tag.val))) - signed 24 (s.g F.THM_OFFSET_offset)) * (s.g F.THM_GAIN_gain : Int)) 4194304 = c) ∧
    (∃ (s : State), s.on F.THM_STAT_seq_busy = true ∧ s.thm.todo = [] ∧ s.on F.THM_STAT_cal_queued = false ∧ s.on F.THM_STAT_trig_pending = false) ∧
    (∃ (s : State), s.on F.THM_STAT_seq_busy = true ∧ s.thm.todo = [] ∧ s.on F.THM_STAT_cal_queued = true ∧ s.on F.THM_STAT_ref_ready = true) ∧
    (∃ (m : Master) (tag : Nat) (n : Nat) (fl : Nat) (raw : Nat) (q : List (Nat × Nat × Nat × Nat)) (s : State), s.admits m 0xE6 true ∧ s.thm.queue = (tag, n, fl, raw) :: q) ∧
    (∃ (k : Fin 48) (s : State), s.on F.REP_CTRL_test_en = true ∧ s.on F.REP_CTRL_thm_test_en = true ∧ s.on F.THM_STAT_seq_busy = true ∧ s.curOn (F.THM_CH_CFG_en k.val) = true) :=
  ⟨⟨(th [(F.THM_STAT_seq_busy, 0), (F.THM_STAT_cal_busy, 0)] [(F.THM_SEQ_period, 1000), (F.THM_CH_CFG_en 51, 1)]), by decide +kernel⟩,
   ⟨(th [(F.THM_STAT_seq_busy, 1), (F.THM_STAT_trig_pending, 0)] [(F.THM_SEQ_period, 1000), (F.THM_CH_CFG_en 51, 1)]), by decide +kernel⟩,
   ⟨.mgmt, (th [(F.THM_STAT_seq_busy, 1), (F.THM_STAT_trig_pending, 1)] [(F.THM_SEQ_period, 1000), (F.THM_CH_CFG_en 51, 1)]), by unfold State.admits; decide +kernel⟩,
   ⟨.mgmt, (th [(F.THM_STAT_seq_busy, 0), (F.THM_STAT_cal_busy, 0)] [(F.THM_SEQ_period, 1000), (F.THM_CH_CFG_en 51, 1)]), by unfold State.admits; decide +kernel⟩,
   ⟨.mgmt, (th [(F.THM_STAT_seq_busy, 0), (F.THM_STAT_ref_ready, 1), (F.THM_STAT_cal_busy, 0), (F.THM_STAT_cal_queued, 0)]), by unfold State.admits; decide +kernel⟩,
   ⟨.mgmt, (th [(F.THM_STAT_cal_busy, 1), (F.THM_STAT_cal_queued, 0), (F.ERR_valid 0xE4, 0)]), by unfold State.admits; decide +kernel⟩,
   ⟨(List.replicate 4 5), (List.replicate 4 (5+6710886)), 5, 6710886, (th [(F.THM_STAT_cal_busy, 1), (F.THM_STAT_trig_pending, 0)]), by decide +kernel⟩,
   ⟨(List.replicate 4 5), (List.replicate 4 (5)), (th [(F.THM_STAT_cal_busy, 1), (F.THM_STAT_trig_pending, 0)]), by decide +kernel⟩,
   ⟨51, (th [(F.THM_STAT_seq_busy, 1)] [(F.THM_CH_CFG_queue 51, 1)] (fun t => { t with todo := [51], gap := true })), by decide +kernel⟩,
   ⟨51, [5, 7, 9], 6, (th [(F.THM_STAT_seq_busy, 1), (F.THM_GAIN_gain, 0x400000), (F.THM_OFFSET_offset, 0)] [(F.THM_CH_CFG_queue 51, 1), (F.THM_CH_CFG_avg_n 51, 1)] (fun t => { t with todo := [51], passed := true })), by unfold settled; decide +kernel⟩,
   ⟨(th [(F.THM_STAT_seq_busy, 1), (F.THM_STAT_cal_queued, 0), (F.THM_STAT_trig_pending, 0)]), by decide +kernel⟩,
   ⟨(th [(F.THM_STAT_seq_busy, 1), (F.THM_STAT_cal_queued, 1), (F.THM_STAT_ref_ready, 1)]), by decide +kernel⟩,
   ⟨.mgmt, 51, 255, 7, (2^32-1), [], (th [] [] (fun t => { t with queue := [(51, 255, 7, 2^32-1)] })), by unfold State.admits; decide +kernel⟩,
   ⟨47, (th [(F.THM_STAT_seq_busy, 1), (F.REP_CTRL_test_en, 1), (F.REP_CTRL_thm_test_en, 1)] [(F.THM_CH_CFG_en 47, 1)]), by decide +kernel⟩⟩

/-- The hypotheses of RulesAndCapturesRun are met, clause by clause. -/
theorem witness_RulesAndCapturesRun :
    (∃ (s : State), s.dev.vaon = true ∧ settled s ∧ ((∀ r, r < 32 → s.g (F.HMP_RULE_STAT_state r) = 0 ∧ 2 ≤ s.cur (F.HMP_RULE_CFG_persist r)))) ∧
    (∃ (r : Nat) (alerts : BitVec 2) (s : State), s.dev.vaon = true ∧ settled s ∧ r < 32 ∧ ((∀ q, q < 32 → q ≠ r → s.curOn (F.HMP_RULE_CFG_en q) = false)) ∧ ruleLive s r = true ∧ s.cur (F.HMP_RULE_CFG_src r) = 2 ∧ alerts.toNat.testBit (s.cur (F.HMP_RULE_CFG_index r)) = true ∧ s.g (F.HMP_RULE_STAT_state r) = 0 ∧ s.cur (F.HMP_RULE_CFG_persist r) = 1 ∧ s.cur (F.HMP_RULE_CFG_actions r) = 2) ∧
    (∃ (m : Master) (le : Fin 2) (s : State), s.admits m (monPage le.val) false ∧ s.cur (F.MON_CAP_trig_src le.val) = 0 ∧ s.g (F.MON_STAT_state le.val) = 1) ∧
    (∃ (m : Master) (le : Fin 2) (s : State), s.admits m (monPage le.val) false ∧ s.cur (F.MON_CAP_trig_src le.val) = 0 ∧ s.g (F.MON_STAT_state le.val) = 2 ∧ s.on (F.MON_STAT_pending le.val) = true) ∧
    (∃ (m : Master) (le : Fin 2) (s : State), s.admits m (monPage le.val) false) ∧
    (∃ (m : Master) (le : Fin 2) (s : State), s.admits m (monPage le.val) false ∧ s.g (F.MON_STAT_state le.val) = 3) ∧
    (∃ (le : Fin 2) (s : State), monUp s le.val = true ∧ s.curOn (F.MON_CTRL_en le.val) = true ∧ s.cur (F.MON_CAP_trig_src le.val) = 1 ∧ s.g (F.MON_STAT_state le.val) = 1) ∧
    (∃ (le : Fin 2) (units : BitVec 28) (s : State), monUp s le.val = true ∧ s.g (F.MON_STAT_state le.val) = 2 ∧ s.cur (F.MON_CAP_dest le.val) = 1 ∧ units.toNat ≤ s.cur (F.MON_CAP_LEN_len le.val) ∧ s.on (F.MON_STAT_pending le.val) = false) ∧
    (∃ (le : Fin 2) (units : BitVec 28) (words : List Word) (s : State), monUp s le.val = true ∧ s.g (F.MON_STAT_state le.val) = 2 ∧ s.cur (F.MON_CAP_dest le.val) = 0 ∧ units.toNat = s.cur (F.MON_CAP_LEN_len le.val) ∧ words.length = 16 * units.toNat ∧ units.toNat ≤ 1024) :=
  ⟨⟨(rl [(F.TMP_STAT_raw, 0x3D)] [(F.HMP_RULE_CFG_en 31, 1), (F.HMP_RULE_CFG_in_awake 31, 1), (F.HMP_RULE_CFG_src 31, 1), (F.HMP_RULE_CFG_index 31, 2), (F.HMP_RULE_CFG_en 3, 1), (F.HMP_RULE_CFG_in_awake 3, 1), (F.HMP_RULE_CFG_src 3, 2), (F.HMP_RULE_CFG_index 3, 0)]), by unfold settled; decide +kernel⟩,
   ⟨31, 2, (rl [(F.TMP_STAT_raw, 0x3D)] [(F.HMP_RULE_CFG_en 31, 1), (F.HMP_RULE_CFG_in_awake 31, 1), (F.HMP_RULE_CFG_src 31, 2), (F.HMP_RULE_CFG_index 31, 1), (F.HMP_RULE_CFG_persist 31, 1), (F.HMP_RULE_CFG_actions 31, 2)]), by unfold settled; decide +kernel⟩,
   ⟨.pcie, 1, (mo [(F.MON_STAT_state 1, 1)]), by unfold State.admits; decide +kernel⟩,
   ⟨.pcie, 1, (mo [(F.MON_STAT_state 1, 2), (F.MON_STAT_pending 1, 1)]), by unfold State.admits; decide +kernel⟩,
   ⟨.pcie, 1, (mo []), by unfold State.admits; decide +kernel⟩,
   ⟨.pcie, 1, (mo [(F.MON_STAT_state 1, 3)]), by unfold State.admits; decide +kernel⟩,
   ⟨1, (mo [(F.MON_STAT_state 1, 1)] [(F.MON_CTRL_en 1, 1), (F.MON_CAP_trig_src 1, 1)]), by decide +kernel⟩,
   ⟨1, 5, (mo [(F.MON_STAT_state 1, 2), (F.MON_STAT_pending 1, 0)] [(F.MON_CAP_dest 1, 1), (F.MON_CAP_LEN_len 1, 6)]), by decide +kernel⟩,
   ⟨1, 2, ((List.range 32).map (BitVec.ofNat 32)), (mo [(F.MON_STAT_state 1, 2), (F.MON_STAT_pending 1, 0)] [(F.MON_CAP_dest 1, 0), (F.MON_CAP_LEN_len 1, 2)]), by decide +kernel⟩⟩

/-- R477: a trigger while a sequence runs pends. -/
theorem test_second_trigger_pends : ends (exec .thmTimerTrigger (th [(F.THM_STAT_seq_busy, 1)] [(F.THM_SEQ_period, 1000), (F.THM_CH_CFG_en 51, 1)]))
    (fun t => t.on F.THM_STAT_trig_pending) = true := by decide +kernel

/-- R477: and one while one pends is counted. -/
theorem test_third_trigger_overflows : ends (exec (.thmTrigGo .mgmt) (th [(F.THM_STAT_seq_busy, 1), (F.THM_STAT_trig_pending, 1)] [(F.THM_SEQ_period, 1000), (F.THM_CH_CFG_en 51, 1)]))
    (fun t => t.g F.THM_TRIG_OVL_count == 1) = true := by decide +kernel

end Thermos

namespace Repair

/-- One converter unit holds `u`. -/
def ru (le : Nat) (dac : Bool) (lane pos : Nat) (u : RepUnit) (s : State) : State := setUnit le dac lane pos u s
/-- The repair pages are not locked. -/
def re (r : List (Field × Nat)) (c : List (Field × Nat) := []) (md : Nat := 4) : State := cf c (st md ([(F.LOCK_owner 0xF1, 0), (F.LOCK_owner 0xF2, 0), (F.LOCK_owner 0xF0, 0)] ++ r))
/-- Lane 0 has no spare left. -/
def noSp (s : State) := ru 0 true 0 32 { st := 4 } (ru 0 true 0 33 { st := 4 } s)
/-- Every pipe is active and none suspect. -/
def pi (r : List (Field × Nat)) : State := re ((List.range 6).map (fun q => (F.CLS_PIPE_STAT_state q, 0)) ++ (List.range 6).map (fun q => (F.CLS_PIPE_STAT_suspect q, 0)) ++ r)

/-- The hypotheses of CalibrationRuns are met, clause by clause. -/
theorem witness_CalibrationRuns :
    (∃ (m : Master) (le : Fin 2) (w : Fin 512) (s : State), s.admits m 0xF1 true ∧ s.runState le.val = 0 ∧ w.val < 272) ∧
    (∃ (m : Master) (le : Fin 2) (w : Fin 512) (s : State), s.admits m 0xF1 true ∧ s.runState le.val = 0 ∧ 408 ≤ w.val ∧ w.val < 412) ∧
    (∃ (m : Master) (le : Fin 2) (s : State), s.admits m 0xF1 true ∧ s.runState le.val ≠ 0) ∧
    (∃ (s : State), s.domainUp 0xF2 = true) ∧
    (∃ (m : Master) (le : Fin 2) (s : State), s.admits m 0xF2 false ∧ s.mode = 6 ∧ s.dev.maint.testBit le.val = true ∧ s.role le.val = 0 ∧ s.runState le.val = 0 ∧ s.on F.CAL_FG_busy = false) ∧
    (∃ (m : Master) (s : State), s.admits m 0xF2 false ∧ (s.mode ≠ 6 ∨ s.on F.CAL_FG_busy = true) ∧ s.on (F.ERR_valid 0xF2) = false) ∧
    (∃ (s : State), s.on F.CAL_FG_busy = true) ∧
    (∃ (le : Fin 2) (s : State), s.on (F.CAL_ENG_CTRL_loop_en le.val) = true ∧ s.runState le.val = 2 ∧ (s.g (F.UBH_DECL_bytes le.val 0)).testBit 10 = true ∧ (s.g (F.UBH_DECL_bytes le.val 0)).testBit 11 = true) :=
  ⟨⟨.mgmt, 1, 271, (re [(F.LE_ROLE_STAT_run_state 1, 0)]), by unfold State.admits; decide +kernel⟩,
   ⟨.mgmt, 1, 411, (re [(F.LE_ROLE_STAT_run_state 1, 0)]), by unfold State.admits; decide +kernel⟩,
   ⟨.mgmt, 1, (re [(F.LE_ROLE_STAT_run_state 1, 2)]), by unfold State.admits; decide +kernel⟩,
   ⟨(ru 1 false 3 67 { st := 2, calTemp := 0 } (ru 1 true 3 33 { st := 2, calTemp := 840 } (re []))), by decide +kernel⟩,
   ⟨.mgmt, 1, ({ re [(F.LE_ROLE_STAT_run_state 1, 0), (F.LE_ROLE_STAT_role_active 1, 0), (F.CAL_FG_busy, 0)] [] 6 with dev := { (re [] [] 6).dev with maint := 2 } }), by unfold State.admits; decide +kernel⟩,
   ⟨.mgmt, (re [(F.ERR_valid 0xF2, 0)]), by unfold State.admits; decide +kernel⟩,
   ⟨(modRep (fun r => { r with fgKinds := 15 }) (re [(F.CAL_FG_busy, 1)] [] 6)), by decide +kernel⟩,
   ⟨1, (re [(F.CAL_ENG_CTRL_loop_en 1, 1), (F.LE_ROLE_STAT_run_state 1, 2), (F.UBH_DECL_bytes 1 0, 0xC00)]), by decide +kernel⟩⟩

/-- The hypotheses of SparesTakeOver are met, clause by clause. -/
theorem witness_SparesTakeOver :
    (∃ (le : Fin 2) (dac : Bool) (lane : Fin 4) (p : Nat) (s : State), s.runState le.val ≠ 0 ∧ unitsWhere s le.val dac lane.val (fun u => u.st == 1) = [] ∧ calCandidate s le.val dac lane.val = some p) ∧
    (∃ (le : Fin 2) (dac : Bool) (c : UnitCal) (s : State), c.pos.val < convSize dac ∧ (repUnit s le.val dac c.lane.val c.pos.val).st = 1 ∧ calWithin dac 1 c = true) ∧
    (∃ (le : Fin 2) (dac : Bool) (c : UnitCal) (s : State), c.pos.val < convSize dac ∧ (repUnit s le.val dac c.lane.val c.pos.val).st = 1 ∧ calWithin dac 1 c = false ∧ calFault dac c = false) ∧
    (∃ (le : Fin 2) (lane : Fin 4) (sp : Nat) (old : Nat) (rest : List Nat) (s : State), s.on (F.CAL_ENG_CTRL_dac_rot_en le.val) = true ∧ s.runState le.val = 2 ∧ s.on (F.LE_TX_PLAN_STAT_reload_busy le.val) = false ∧ unitsWhere s le.val true lane.val (fun u => u.faulty) = [] ∧ unitsWhere s le.val true lane.val (fun u => u.st == 2) = sp :: rest ∧ leastBy (fun p => (repUnit s le.val true lane.val p).since) (unitsWhere s le.val true lane.val fun u => u.st == 3) = some old) ∧
    (∃ (le : Fin 2) (dac : Bool) (lane : Fin 4) (p : Fin 68) (s : State), p.val < convSize dac ∧ s.runState le.val ≠ 0 ∧ (repUnit s le.val dac lane.val p.val).st = 3 ∧ (repUnit s le.val dac lane.val p.val).faulty = false) ∧
    (∃ (le : Fin 2) (dac : Bool) (lane : Fin 4) (p : Nat) (sp : Nat) (rest : List Nat) (s : State), unitsWhere s le.val dac lane.val (fun u => u.faulty) = [p] ∧ unitsWhere s le.val dac lane.val (fun u => u.st == 2) = sp :: rest ∧ sp ≠ p) ∧
    (∃ (c : Fin 10) (s : State), s.domainUp 0xF1 = true ∧ classExhausted s c.val = true ∧ s.on (F.REP_CLASS_STAT_exhausted c.val) = false) ∧
    (∃ (c : Fin 10) (s : State), s.domainUp 0xF1 = true ∧ classExhausted s c.val = false ∧ s.on (F.REP_CLASS_STAT_exhausted c.val) = true ∧ s.g F.REP_STAT_exhausted = 2 ^ c.val) :=
  ⟨⟨1, true, 3, 32, (re [(F.LE_ROLE_STAT_run_state 1, 2)]), by decide +kernel⟩,
   ⟨1, true, ⟨3, 33, -15, 128, -40, 5, 6, 7⟩, (ru 1 true 3 33 { st := 1, tries := 2 } (re [])), by decide +kernel⟩,
   ⟨1, false, ⟨3, 67, 11, -64, 20, 5, 6, 7⟩, (ru 1 false 3 67 { st := 1, tries := 2 } (re [])), by decide +kernel⟩,
   ⟨1, 3, 33, 0, [], (ru 1 true 3 33 { st := 2 } (re [(F.LE_ROLE_STAT_run_state 1, 2), (F.CAL_ENG_CTRL_dac_rot_en 1, 1), (F.LE_TX_PLAN_STAT_reload_busy 1, 0)])), by decide +kernel⟩,
   ⟨1, false, 3, 63, (re [(F.LE_ROLE_STAT_run_state 1, 2)]), by decide +kernel⟩,
   ⟨1, false, 3, 63, 67, [], (ru 1 false 3 63 { st := 3, faulty := true } (ru 1 false 3 67 { st := 2 } (re [(F.LE_ROLE_STAT_run_state 1, 2)]))), by decide +kernel⟩,
   ⟨1, (noSp (re [(F.REP_CLASS_STAT_exhausted 1, 0), (F.DEV_MODE_transition, 0)])), by decide +kernel⟩,
   ⟨1, (re [(F.REP_CLASS_STAT_exhausted 1, 1), (F.REP_STAT_exhausted, 2), (F.DEV_MODE_transition, 0)] [] 5), by decide +kernel⟩⟩

set_option maxRecDepth 100000 in
/-- The hypotheses of SelfTestsRun are met, clause by clause. -/
theorem witness_SelfTestsRun :
    (∃ (s : State), s.on F.REP_CTRL_test_en = true ∧ dpll s = 2 ∧ s.on F.SYN_STAT_hold_valid = true ∧ s.on F.SYN_STAT_switching = false) ∧
    (∃ (s : State), s.on F.REP_CTRL_test_en = true ∧ s.inService = true ∧ s.rep.nextPipe < 6 ∧ ((∀ q, q < 6 → s.g (F.CLS_PIPE_STAT_state q) = 0 ∧ s.on (F.CLS_PIPE_STAT_suspect q) = false))) ∧
    (∃ (c : Fin 8) (s : State), s.on F.REP_CTRL_test_en = true ∧ s.g (F.CIP_CORE_STAT_state c.val) = 0 ∧ s.on (F.CIP_CORE_STAT_suspect c.val) = true) ∧
    (∃ (e : Nat) (s : State), s.on F.REP_CTRL_test_en = true ∧ memUp s = true ∧ s.buf.ret = none ∧ leastBy (fun e => Tbl.get 0 s.rep.pageAt e) ((List.range 4096).filter fun e => (Tbl.get (0, 0) s.buf.remap e).1 == 0) = some e) ∧
    (∃ (s : State), s.on F.REP_CTRL_test_en = false) ∧
    (∃ (m : Master) (p : Nat) (s : State), s.admits m 0xF0 false ∧ p < 6 ∧ ((∀ q, q < 6 → s.g (F.CLS_PIPE_STAT_state q) = 0 ∧ (s.on (F.CLS_PIPE_STAT_suspect q) = true ↔ q = p)))) ∧
    (∃ (m : Master) (s : State), s.admits m 0xF0 false ∧ dpll s = 2 ∧ s.on F.SYN_STAT_hold_valid = true ∧ s.on F.SYN_STAT_switching = false) ∧
    (∃ (m : Master) (s : State), s.admits m 0xF0 false ∧ dpll s ≠ 2) ∧
    (∃ (m : Master) (s : State), s.admits m 0xF0 false) ∧
    (∃ (le : Fin 2) (s : State), Tbl.get false s.rep.monTest le.val = true ∧ monUp s le.val = true ∧ s.curOn (F.MON_CTRL_en le.val) = false) :=
  ⟨⟨(re [(F.REP_CTRL_test_en, 1), (F.SYN_STAT_state, 2), (F.SYN_STAT_hold_valid, 1), (F.SYN_STAT_switching, 0)]), by decide +kernel⟩,
   ⟨(modRep (fun r => { r with nextPipe := 5 }) (pi [(F.REP_CTRL_test_en, 1)])), by decide +kernel⟩,
   ⟨7, (re [(F.REP_CTRL_test_en, 1), (F.CIP_CORE_STAT_state 7, 0), (F.CIP_CORE_STAT_suspect 7, 1)]), by decide +kernel⟩,
   ⟨1, (modRep (fun r => { r with pageAt := [(0, 5)] }) (re [(F.REP_CTRL_test_en, 1), (F.DEV_STATUS_mem_trained, 1)])), by decide +kernel⟩,
   ⟨(re [(F.REP_CTRL_test_en, 0)]), by decide +kernel⟩,
   ⟨.mgmt, 5, (pi [(F.CLS_PIPE_STAT_suspect 5, 1)]), by unfold State.admits; decide +kernel⟩,
   ⟨.mgmt, (re [(F.SYN_STAT_state, 2), (F.SYN_STAT_hold_valid, 1), (F.SYN_STAT_switching, 0)]), by unfold State.admits; decide +kernel⟩,
   ⟨.mgmt, (re [(F.SYN_STAT_state, 3), (F.SYN_STAT_hold_valid, 1), (F.SYN_STAT_switching, 0)]), by unfold State.admits; decide +kernel⟩,
   ⟨.mgmt, (re []), by unfold State.admits; decide +kernel⟩,
   ⟨1, (modRep (fun r => { r with monTest := [(1, true)] }) (re [(F.LE_ROLE_STAT_run_state 1, 2), (F.LE_ROLE_STAT_role_active 1, 1)] [(F.MON_CTRL_en 1, 0)])), by decide +kernel⟩⟩

/-- R502: refused while the engine runs. -/
theorem test_trim_of_a_running_engine : ends (exec (.trimWrite .mgmt 1 5 271 0xFEDCBA98) (re [(F.LE_ROLE_STAT_run_state 1, 2)]))
    (fun t => (re [(F.LE_ROLE_STAT_run_state 1, 2)]).rep == t.rep && t.on F.FAB_ERR_CNT_count) = true := by decide +kernel

/-- R512: a unit that fails is marked. -/
theorem test_converter_fault : ends (exec (.unitFault 1 false 3 63) (re [(F.LE_ROLE_STAT_run_state 1, 2)]))
    (fun t => (repUnit t 1 false 3 63).faulty) = true := by decide +kernel

end Repair

namespace Counters

/-- The log runs and its pages are not locked. -/
def ev (r : List (Field × Nat)) (f : EvLog → EvLog := id) (g : Events → Events := id) : State := let s := st 4 ([(F.LOCK_owner 0xFA, 0), (F.LOCK_owner 0xF8, 0), (F.LOCK_owner 0xF9, 0)] ++ r); { s with evl := f s.evl, ev := g s.ev, dev := { s.dev with held := false } }
/-- An entry. -/
def X1 : LogEntry := ⟨500, 7, 8, 0, 9, 0, false, false⟩
/-- An entry of the same stamp and a lower page. -/
def X2 : LogEntry := ⟨500, 6, 8, 1, 9, 0, false, false⟩
/-- The counters changed. -/
def cn (f : Cnt → Cnt) (s : State) : State := modCnt f s
/-- `n` units are in flight on path 1. -/
def fl (n : Nat) (s : State) : State := modSmp (fun m => { m with flight := [(1, (List.range n).map fun i => (i * 100, i))], words := [(7, 8), (131071, 3)] }) s

/-- The hypotheses of EventLogFills are met, clause by clause. -/
theorem witness_EventLogFills :
    (∃ (p : Fin 256) (x : LogEntry) (s : State), s.ev.made.find? (fun e => e.page == p.val) = some x ∧ s.evl.sorter.length < 64) ∧
    (∃ (x : LogEntry) (s : State), evlNext s.evl.sorter = some x ∧ evlHeld s < 1024) ∧
    (∃ (x : LogEntry) (s : State), evlNext s.evl.sorter = some x ∧ 1024 ≤ evlHeld s ∧ s.g F.EVL_CTRL_policy = 1) ∧
    (∃ (x : LogEntry) (s : State), evlNext s.evl.sorter = some x ∧ 1024 ≤ evlHeld s ∧ s.g F.EVL_CTRL_policy = 0) ∧
    (∃ (p : Fin 256) (loss : Bool) (code : Byte) (w : FoldWin) (s : State), s.logRuns = true ∧ Tbl.find s.ev.fold ((p.val * 4 + (if loss then 2 else 0)) * 256 + code.toNat) = some w ∧ w.folded ≠ 0) ∧
    (∃ (p : Fin 256) (loss : Bool) (code : Byte) (w : FoldWin) (s : State), Tbl.find s.ev.fold ((p.val * 4 + (if loss then 2 else 0)) * 256 + code.toNat) = some w ∧ w.folded = 0) ∧
    (∃ (m : Master) (v : Word) (s : State), s.admits m 0xFA false ∧ (v.toNat + 2 ^ 32 - s.g F.EVL_TAIL_count) % 2 ^ 32 ≤ evlHeld s) ∧
    (∃ (m : Master) (v : Word) (s : State), s.admits m 0xFA false ∧ evlHeld s < (v.toNat + 2 ^ 32 - s.g F.EVL_TAIL_count) % 2 ^ 32) :=
  ⟨⟨7, X1, (ev [] (fun e => { e with last := some 501 }) (fun e => { e with made := [X2, X1] })), by decide +kernel⟩,
   ⟨X2, (ev [(F.EVL_TAIL_count, 0xFFFFFF00), (F.EVL_HEAD_count, 0xFFFFFFFF)] (fun e => { e with gap := true, sorter := [X1, X2] })), by decide +kernel⟩,
   ⟨X2, (ev [(F.EVL_TAIL_count, 0), (F.EVL_HEAD_count, 1024), (F.EVL_CTRL_policy, 1)] (fun e => { e with gap := false, sorter := [X1, X2] })), by decide +kernel⟩,
   ⟨X2, (ev [(F.EVL_TAIL_count, 0), (F.EVL_HEAD_count, 1024), (F.EVL_CTRL_policy, 0)] (fun e => { e with gap := false, sorter := [X1, X2] })), by decide +kernel⟩,
   ⟨255, true, 9, ⟨700, 3⟩, (ev [] id (fun e => { e with fold := [((255*4+2)*256+9, ⟨700, 3⟩)] })), by decide +kernel⟩,
   ⟨254, false, 30, ⟨700, 0⟩, (ev [] id (fun e => { e with fold := [((254*4)*256+30, ⟨700, 0⟩)] })), by decide +kernel⟩,
   ⟨.mgmt, 5, (ev [(F.EVL_TAIL_count, 0xFFFFFFFF), (F.EVL_HEAD_count, 5)]), by unfold State.admits; decide +kernel⟩,
   ⟨.mgmt, 6, (ev [(F.EVL_TAIL_count, 0xFFFFFFFF), (F.EVL_HEAD_count, 5)]), by unfold State.admits; decide +kernel⟩⟩

/-- The hypotheses of CountersRun are met, clause by clause. -/
theorem witness_CountersRun :
    (∃ (m : Master) (s : State), s.admits m 0xF8 false) ∧
    (∃ (m : Master) (s : State), s.admits m 0xF8 false ∧ pageFrozen s 0xF8 = false) ∧
    (∃ (m : Master) (s : State), s.admits m 0xF8 false ∧ pageFrozen s 0xF8 = true) ∧
    (∃ (n : Fin 512) (inc : BitVec 48) (s : State), s.on (F.CNT_SEL_en n.val) = true ∧ s.on (F.CNT_SEL_chain_in n.val) = false ∧ 2 ^ 48 ≤ cntValue s n.val + inc.toNat ∧ ((n.val = 511 ∨ s.on (F.CNT_SEL_chain_in (n.val + 1)) = false))) ∧
    (∃ (n : Fin 512) (inc : BitVec 48) (s : State), s.on (F.CNT_SEL_en n.val) = true ∧ s.on (F.CNT_SEL_chain_in n.val) = false ∧ n.val < 511 ∧ s.on (F.CNT_SEL_en (n.val + 1)) = true ∧ s.on (F.CNT_SEL_chain_in (n.val + 1)) = true ∧ 2 ^ 48 ≤ cntValue s n.val + inc.toNat ∧ cntValue s n.val < 2 ^ 48 ∧ cntValue s (n.val + 1) + 1 < 2 ^ 48) ∧
    (∃ (m : Master) (b : Bool) (s : State), s.admits m 0xF8 false ∧ s.on F.CNT_FREEZE_busy = false ∧ s.cnt.frozen ≠ b) ∧
    (∃ (s : State), s.on F.CNT_FREEZE_busy = true ∧ s.cnt.frozen = false ∧ s.on F.CNT_FREEZE_freeze = true) ∧
    (∃ (s : State), s.on F.CNT_FREEZE_busy = true ∧ s.cnt.frozen = true ∧ s.on F.CNT_FREEZE_freeze = false) ∧
    (∃ (s : State), s.on (F.PAGE_STAT_snap_busy 0xF8) = true) :=
  ⟨⟨.mgmt, (ev []), by unfold State.admits; decide +kernel⟩,
   ⟨.mgmt, (cn (fun c => { c with stagedLo := [(511, 7)] }) (ev [])), by unfold State.admits; decide +kernel⟩,
   ⟨.mgmt, (cn (fun c => { c with frozen := true }) (ev [])), by unfold State.admits; decide +kernel⟩,
   ⟨511, 1, (ev [(F.CNT_SEL_en 511, 1), (F.CNT_SEL_chain_in 511, 0), (F.CNT_LO_value 511, 0xFFFFFFFF), (F.CNT_HI_value 511, 0xFFFF)]), by decide +kernel⟩,
   ⟨510, 0xFFFFFFFFFFFF, (ev [(F.CNT_SEL_en 510, 1), (F.CNT_SEL_chain_in 510, 0), (F.CNT_SEL_en 511, 1), (F.CNT_SEL_chain_in 511, 1), (F.CNT_LO_value 510, 0xFFFFFFFF), (F.CNT_HI_value 510, 0xFFFF),(F.CNT_LO_value 511, 0xFFFFFFFF), (F.CNT_HI_value 511, 0xFF)]), by decide +kernel⟩,
   ⟨.mgmt, true, (ev [(F.CNT_FREEZE_busy, 0)]), by unfold State.admits; decide +kernel⟩,
   ⟨(ev [(F.CNT_FREEZE_busy, 1), (F.CNT_FREEZE_freeze, 1)]), by decide +kernel⟩,
   ⟨(cn (fun c => { c with frozen := true }) (ev [(F.CNT_FREEZE_busy, 1), (F.CNT_FREEZE_freeze, 0)])), by decide +kernel⟩,
   ⟨(ev [(F.PAGE_STAT_snap_busy 0xF8, 1)]), by decide +kernel⟩⟩

/-- The hypotheses of SamplerRecords are met, clause by clause. -/
theorem witness_SamplerRecords :
    (∃ (path : Fin 2) (port : Fin 32) (s : State), smpOn s path.val port.val = true ∧ s.inService = true ∧ Tbl.get 0 s.smp.countdown path.val = 0 ∧ (smpFlight s path.val).length < 16) ∧
    (∃ (path : Fin 2) (port : Fin 32) (s : State), smpOn s path.val port.val = true ∧ s.inService = true ∧ Tbl.get 0 s.smp.countdown path.val = 0 ∧ 16 ≤ (smpFlight s path.val).length) ∧
    (∃ (path : Fin 2) (i : Fin 16) (tIn : Nat) (port : Nat) (s : State), (smpFlight s path.val)[i.val]? = some (tIn, port) ∧ s.on F.SMP_STAT_full = false) ∧
    (∃ (path : Fin 2) (i : Fin 16) (x : Nat × Nat) (s : State), (smpFlight s path.val)[i.val]? = some x ∧ s.on F.SMP_STAT_full = true) ∧
    (∃ (m : Master) (s : State), s.admits m 0xF9 false) :=
  ⟨⟨1, 31, (fl 15 (ev [(F.SMP_CTRL_en, 1), (F.SMP_CTRL_path, 2), (F.SMP_STAT_full, 0), (F.SMP_CTRL_port_en, 1), (F.SMP_CTRL_port, 31), (F.SMP_CTRL_j, 0)])), by decide +kernel⟩,
   ⟨1, 31, (fl 16 (ev [(F.SMP_CTRL_en, 1), (F.SMP_CTRL_path, 2), (F.SMP_STAT_full, 0), (F.SMP_CTRL_port_en, 1), (F.SMP_CTRL_port, 31), (F.SMP_CTRL_j, 0)])), by decide +kernel⟩,
   ⟨1, 15, 1500, 15, (fl 16 (ev [(F.SMP_STAT_full, 0), (F.SMP_CTRL_stop, 1), (F.SMP_STAT_held, 8191), (F.SMP_WR_COUNT_count, 0xFFFFFFFF)])), by decide +kernel⟩,
   ⟨1, 0, (0,0), (fl 16 (ev [(F.SMP_STAT_full, 1), (F.SMP_CTRL_stop, 0), (F.SMP_STAT_held, 8192), (F.SMP_WR_COUNT_count, 0)])), by decide +kernel⟩,
   ⟨.mgmt, (fl 16 (ev [])), by unfold State.admits; decide +kernel⟩⟩

/-- R529: 2^48 − 1 and 1 is 0, and the wrap is marked. -/
theorem test_counter_wraps : ends (exec (.cntWrap 511 1) (ev [(F.CNT_SEL_en 511, 1), (F.CNT_LO_value 511, 0xFFFFFFFF), (F.CNT_HI_value 511, 0xFFFF)]))
    (fun t => t.g (F.CNT_LO_value 511) == 0 && t.g (F.CNT_HI_value 511) == 0 && t.g (F.CNT_OVF_bits 15) == 0x80000000) = true := by decide +kernel

/-- R533: the next counter of a chain adds 1. -/
theorem test_counter_chains : ends (exec (.cntWrap 510 1) (ev [(F.CNT_SEL_en 510, 1), (F.CNT_SEL_en 511, 1), (F.CNT_SEL_chain_in 511, 1), (F.CNT_LO_value 510, 0xFFFFFFFF), (F.CNT_HI_value 510, 0xFFFF), (F.CNT_LO_value 511, 0xFFFFFFFF)]))
    (fun t => t.g (F.CNT_LO_value 511) == 0 && t.g (F.CNT_HI_value 511) == 1) = true := by decide +kernel

/-- R538: a choice that finds 16 in flight. -/
theorem test_seventeenth_unit_skipped : ends (exec (.sampleChoose 1 31) (fl 16 (ev [(F.SMP_CTRL_en, 1), (F.SMP_CTRL_path, 2), (F.SMP_CTRL_port_en, 1), (F.SMP_CTRL_port, 31), (F.SMP_CTRL_j, 0)])))
    (fun t => t.g F.SMP_SKIP_count == 1) = true := by decide +kernel

/-- R525: the tail does not pass what is held. -/
theorem test_tail_past_head : ends (exec (.evlTailWrite .mgmt 6) (ev [(F.EVL_TAIL_count, 0xFFFFFFFF), (F.EVL_HEAD_count, 5)]))
    (fun t => t.g F.EVL_TAIL_count == 0xFFFFFFFF) = true := by decide +kernel

/-- R525: the counts wrap. -/
theorem test_tail_wraps : ends (exec (.evlTailWrite .mgmt 5) (ev [(F.EVL_TAIL_count, 0xFFFFFFFF), (F.EVL_HEAD_count, 5)]))
    (fun t => t.g F.EVL_TAIL_count == 5) = true := by decide +kernel

end Counters

end Sys2Proof.Tests
end

/-! The state right after reset (O2), and the write of a register by the access codes of its fields (O8). -/

namespace Sys2Proof.Machine

/-! ## The state after reset (R16, R67) -/

/-- R16, R85: right after reset every field reads the reset value of its table, but for two routes to the alarm pin. -/
theorem g_reset {f : Field} (hE0 : f.key ≠ (F.DEV_PAGE_ROUTE_to_alarm 0xE0).key)
    (hFC : f.key ≠ (F.DEV_PAGE_ROUTE_to_alarm 0xFC).key) : State.reset.g f = f.reset := by
  simp only [F.DEV_PAGE_ROUTE_to_alarm_key] at hE0 hFC
  simp [State.g, look, Tbl.get, Tbl.find, State.reset, Ne.symm hE0, Ne.symm hFC]

/-- A field that begins at the lowest bit of its word is no route to the alarm pin: it reads its reset value after reset. -/
theorem g_reset_of_lowest_bit {f : Field} (h : f.key % 32 = 0) : State.reset.g f = f.reset := by
  apply g_reset <;> simp only [F.DEV_PAGE_ROUTE_to_alarm_key] <;> omega

/-- R67: no lock is held right after reset. -/
theorem g_reset_ownerField (l : LockId) : State.reset.g (ownerField l) = 0 := by
  cases l with
  | general n => exact g_reset_of_lowest_bit (by simp only [ownerField, F.LOCKN_owner_key]; omega)
  | page p => exact g_reset_of_lowest_bit (by simp only [ownerField, F.LOCK_owner_key]; omega)

/-- The contents listed after reset are in canonical form: the two routes stand in rising order, and nothing else is listed. -/
theorem reset_tidy : State.reset.tidy where
  fields := by decide
  staged := rfl
  buffer := rfl
  inForce := rfl
  slots := rfl
  bufMem := rfl
  clsMem := rfl
  mon0 := rfl
  mon1 := rfl
  words := rfl

/-- Settles O2: what is listed after reset is in order, and every field asked about reads its table's reset value. -/
theorem resetIsTidy : Obligations.ResetIsTidy :=
  ⟨reset_tidy, rfl, g_reset_ownerField,
    fun p => g_reset_of_lowest_bit (by simp only [F.EVT_STICKY_key]; omega), rfl, rfl⟩

/-! ## One field of a write (R15) -/

/-- R15: what a field that is not staged reads as after a write of `v` that no lock refuses, having read as `old`. -/
def writtenField (addr v : Nat) (f : FSpec) (old : Nat) : Nat :=
  match f.acc with
  | .rw => fieldBits v f
  | .w1c => (old &&& (fieldBits v f ^^^ (2 ^ (fieldAt addr f).width - 1))) % 2 ^ (fieldAt addr f).width
  | .w1s => (old ||| fieldBits v f) % 2 ^ (fieldAt addr f).width
  | _ => old

/-- R15, R17: the staged value of a field after a write of `v` that no lock refuses, `old` before it. -/
def stagedField (v : Nat) (f : FSpec) (old : Nat) : Nat :=
  if f.acc = .rws then fieldBits v f else old

@[simp] theorem fieldAt_width (addr : Nat) (f : FSpec) : (fieldAt addr f).width = f.hi - f.lo + 1 := rfl

/-- The bits of a word that fall on a field fit it. -/
@[simp] theorem fieldBits_mod (v : Nat) (f : FSpec) : fieldBits v f % 2 ^ (f.hi - f.lo + 1) = fieldBits v f := Nat.mod_mod _ _

@[simp] theorem stg_setF (s : State) (f f' : Field) (v : Nat) : (s.setF f v).stg f' = s.stg f' := rfl

theorem g_fieldWrite_same (addr v : Nat) (f : FSpec) (s : State) :
    (fieldWrite addr v false f s).g (fieldAt addr f) = writtenField addr v f (s.g (fieldAt addr f)) := by
  unfold fieldWrite writtenField
  cases f.acc <;> simp

theorem stg_fieldWrite_same (addr v : Nat) (f : FSpec) (s : State) :
    (fieldWrite addr v false f s).stg (fieldAt addr f) = stagedField v f (s.stg (fieldAt addr f)) := by
  unfold fieldWrite stagedField
  cases f.acc <;> simp

/-- A write of one field leaves a field of the same register that begins at another bit. -/
theorem g_fieldWrite_other (addr v : Nat) (locked : Bool) {f f' : FSpec} (s : State) (h : f.lo ≠ f'.lo) :
    (fieldWrite addr v locked f' s).g (fieldAt addr f) = s.g (fieldAt addr f) := by
  have hk : (fieldAt addr f).key ≠ (fieldAt addr f').key := by simp only [fieldAt]; omega
  unfold fieldWrite
  dsimp only
  split
  · rfl
  · cases f'.acc <;> simp [g_setF_other _ _ hk]

theorem stg_fieldWrite_other (addr v : Nat) (locked : Bool) {f f' : FSpec} (s : State) (h : f.lo ≠ f'.lo) :
    (fieldWrite addr v locked f' s).stg (fieldAt addr f) = s.stg (fieldAt addr f) := by
  have hk : (fieldAt addr f).key ≠ (fieldAt addr f').key := by simp only [fieldAt]; omega
  unfold fieldWrite
  dsimp only
  split
  · rfl
  · cases f'.acc <;> simp [stg_stage_other _ _ hk]

/-! ## The fields of a register, one after another -/

/-- A view of the state that no change of the list touches is left alone. -/
theorem forEach_view_unchanged {α β : Type} (view : State → β) (g : α → State → State) {l : List α}
    (h : ∀ y ∈ l, ∀ s, view (g y s) = view s) (s : State) : view (s.forEach l g) = view s := by
  induction l generalizing s with
  | nil => rfl
  | cons y l ih =>
    calc view (s.forEach (y :: l) g) = view (g y s) := ih (fun z hz => h z (by simp [hz])) _
      _ = view s := h y (by simp) s

/-- A view of the state that one change of the list touches is changed once, by that one. -/
theorem forEach_view_once {α β : Type} (view : State → β) (g : α → State → State) (φ : β → β) {l : List α} {x : α}
    (hx : x ∈ l) (hl : l.Nodup) (hsame : ∀ s, view (g x s) = φ (view s))
    (hother : ∀ y ∈ l, y ≠ x → ∀ s, view (g y s) = view s) (s : State) : view (s.forEach l g) = φ (view s) := by
  induction l generalizing s with
  | nil => exact absurd hx (by simp)
  | cons y l ih =>
    obtain ⟨hy, hl⟩ := List.nodup_cons.1 hl
    change view ((g y s).forEach l g) = φ (view s)
    by_cases e : y = x
    · subst e
      rw [forEach_view_unchanged view g (fun z hz => hother z (by simp [hz]) (ne_of_mem_of_not_mem hz hy)), hsame]
    · have hx : x ∈ l := (List.mem_cons.1 hx).resolve_left (Ne.symm e)
      rw [ih hx hl fun z hz => hother z (by simp [hz]), hother y (by simp) e]

/-- R13, R15: in every row of the register map the fields begin at different bits of the 32-bit word. -/
theorem regMap_fields_apart : ∀ r ∈ regMap, (r.fields.map FSpec.lo).Nodup ∧ ∀ f ∈ r.fields, f.lo < 32 := by
  decide +kernel

theorem regAt_fields_apart {addr : Nat} {fs : List FSpec} (h : regAt addr = some fs) :
    (fs.map FSpec.lo).Nodup ∧ ∀ f ∈ fs, f.lo < 32 := by
  obtain ⟨r, hr, rfl⟩ := Option.map_eq_some_iff.1 h
  exact regMap_fields_apart r (List.mem_of_find?_eq_some hr)

/-! ## A register behind which only access codes stand (R15, R18, R51, R68) -/

@[simp] theorem domainUp_access (m : Master) (s : State) (p : Nat) : (State.access m s).domainUp p = s.domainUp p := by
  simp [State.domainUp, State.inService, State.inStandby, State.mode, State.runState]

@[simp] theorem lockedOut_access (m : Master) (s : State) (w p : Nat) :
    (State.access m s).lockedOut w p = s.lockedOut w p := by
  simp [State.lockedOut]

@[simp] theorem logRuns_access (m : Master) (s : State) : (State.access m s).logRuns = s.logRuns := by
  simp [State.logRuns]

section PlainWrite

variable {m : Master} {addr v : Nat} {fs : List FSpec} {s : State}

/-- Where the block's domain runs and no other master holds the page LOCK, each field takes the write by its code. -/
theorem plainWrite_admitted (hfs : regAt addr = some fs) (hup : s.domainUp (pageOf addr) = true)
    (hlock : s.lockedOut (mcode m) (pageOf addr) = false) :
    plainWrite m addr v s = s.forEach fs (fieldWrite addr v false) := by
  simp [plainWrite, hfs, hup, hlock]

theorem g_forEach_fieldWrite (hfs : regAt addr = some fs) {f : FSpec} (hf : f ∈ fs) :
    (s.forEach fs (fieldWrite addr v false)).g (fieldAt addr f) = writtenField addr v f (s.g (fieldAt addr f)) :=
  have hlo := (regAt_fields_apart hfs).1
  forEach_view_once (·.g (fieldAt addr f)) _ (writtenField addr v f) hf hlo.of_map (g_fieldWrite_same addr v f)
    (fun _ hy hne s => g_fieldWrite_other addr v false s fun e => hne (List.inj_on_of_nodup_map hlo hy hf e.symm)) s

theorem stg_forEach_fieldWrite (hfs : regAt addr = some fs) {f : FSpec} (hf : f ∈ fs) :
    (s.forEach fs (fieldWrite addr v false)).stg (fieldAt addr f) = stagedField v f (s.stg (fieldAt addr f)) :=
  have hlo := (regAt_fields_apart hfs).1
  forEach_view_once (·.stg (fieldAt addr f)) _ (stagedField v f) hf hlo.of_map (stg_fieldWrite_same addr v f)
    (fun _ hy hne s => stg_fieldWrite_other addr v false s fun e => hne (List.inj_on_of_nodup_map hlo hy hf e.symm)) s

/-- A write of one field touches that field and the staged sets. -/
theorem fits_fieldWrite {N : Part → Prop} {s0 : State} (locked : Bool) (f : FSpec) (h : Fits N s0 s)
    (h_staged : N .staged) (k_field : N (.reg (fieldAt addr f).key)) : Fits N s0 (fieldWrite addr v locked f s) := by
  unfold fieldWrite
  dsimp only
  split
  · exact h
  · cases f.acc with
    | rws => exact Fits.stage _ _ _ h h_staged
    | rw | w1c | w1s => exact Fits.setF _ _ _ h k_field
    | ro | wo | rc | ra => exact h

/-- The fields of one register lie in its word. -/
theorem fits_forEach_fieldWrite (hfs : regAt addr = some fs) (ha : addr % 4 = 0) {s0 : State}
    (h : Fits (only [.staged, .ev] [fun k => k / 32 = addr / 4]) s0 s) :
    Fits (only [.staged, .ev] [fun k => k / 32 = addr / 4]) s0 (s.forEach fs (fieldWrite addr v false)) := by
  refine Fits.forEachMem _ _ h fun f hf t ht => fits_fieldWrite false f ht (by simp [only]) ?_
  have hlo := (regAt_fields_apart hfs).2 f hf
  refine ⟨_, List.mem_singleton.2 rfl, ?_⟩
  simp only [fieldAt]
  omega

/-- R13, R50: a plain register of a page that answers takes the write as its fields' codes say. -/
theorem busWrite_plain (h : plainRegister m addr v) (hreach : s.reaches m (pageOf addr) = true)
    (hpage : definedPage (pageOf addr) = true) : busWrite m addr v s = plainWrite m addr v (s.access m) := by
  obtain ⟨-, hlt, hoff, hmode, hpages, hroute, hspecial⟩ := h
  simp only [List.mem_cons, List.not_mem_nil, or_false, not_or] at hpages
  obtain ⟨h8, h9, hE1, hE5⟩ := hpages
  have hnone : (if 0x10 ≤ pageOf addr ∧ pageOf addr ≤ 0x8F then
      engineWrite m (if pageOf addr < 0x50 then 0 else 1) (pageOf addr - 0x40 * (if pageOf addr < 0x50 then 0 else 1)) addr v
      else blockWrite m addr v) = none := by
    split at hspecial
    next hp => rw [if_pos hp]; exact Option.isNone_iff_eq_none.1 hspecial
    next hp => rw [if_neg hp]; exact Option.isNone_iff_eq_none.1 hspecial
  have hwin : ¬ 0x100000 ≤ addr := by omega
  have hhdr : ¬ addr % 0x1000 < 0x40 := by omega
  have hbox : ¬ (0xFEA00 ≤ addr ∧ addr < 0xFF000) := by omega
  unfold busWrite
  dsimp only
  rw [if_neg hmode, if_neg (by simp [hreach]), if_neg (by simp [hpage]), if_neg hwin, if_neg hhdr, hnone]
  simp [h8, h9, hE1, hE5, hbox, hroute]

end PlainWrite

/-! ## REGISTER_WRITE -/

/-- R108: no WAKE runs where none is due. -/
theorem boot_of_not_pending {s : State} (h : s.dev.bootPending = false) : boot s = s := by simp [boot, h]

/-- A full-width write at a multiple of 4 is a write of the bus, and no WAKE follows one that leaves the device storage settled. -/
theorem exec_registerWrite_aligned {m : Master} {a : Addr} {v : Word} {s t : State} (ha : a.toNat % 4 = 0)
    (hs : settled s) (ht : busWrite m a.toNat v.toNat s = t) (hdev : t.dev = s.dev) :
    exec (.registerWrite m a v false) s = .next t := by
  have hbase : a.toNat / 4 * 4 = a.toNat := by omega
  have hboot : boot t = t := boot_of_not_pending (by rw [hdev]; exact hs.1)
  simp [execRegisterWrite, ha, hbase, ht, hboot]

/-- R53: a write in the common header of a defined page that answers. -/
theorem busWrite_header {m : Master} {p off v : Nat} {s : State} (hp : p < 256) (hoff : off < 0x40)
    (hreach : s.reaches m p = true) (hpage : definedPage p = true) :
    busWrite m (p * 0x1000 + off) v s = headerWrite m p off v s := by
  have hof : pageOf (p * 0x1000 + off) = p := pageOf_hdr p off hp (by omega)
  have hmode : p * 0x1000 + off ≠ 0x40 := by omega
  have hwin : ¬ 0x100000 ≤ p * 0x1000 + off := by omega
  have hmod : (p * 0x1000 + off) % 0x1000 = off := by omega
  unfold busWrite
  simp only [hof, hmod]
  simp [hmode, hreach, hpage, hwin, hoff]

/-- R14: an address of the control pages is a bus address. -/
theorem toNat_ofNat_addr {n : Nat} (h : n < 0x100000) : (BitVec.ofNat 26 n : Addr).toNat = n := by
  rw [BitVec.toNat_ofNat, Nat.mod_eq_of_lt (by omega)]

/-- A write in the common header, as the command. -/
theorem exec_registerWrite_header {m : Master} {p : Fin 256} {off : Nat} {v : Word} {s t : State} (hoff : off < 0x40)
    (h4 : off % 4 = 0) (hreach : s.reaches m p.val = true) (hpage : definedPage p.val = true) (hs : settled s)
    (ht : headerWrite m p.val off v.toNat s = t) (hdev : t.dev = s.dev) :
    exec (.registerWrite m (BitVec.ofNat 26 (p.val * 0x1000 + off)) v false) s = .next t := by
  have hp := p.isLt
  have hto : (BitVec.ofNat 26 (p.val * 0x1000 + off) : Addr).toNat = p.val * 0x1000 + off := toNat_ofNat_addr (by omega)
  refine exec_registerWrite_aligned (by omega) hs ?_ hdev
  rw [hto, busWrite_header hp hoff hreach hpage, ht]

/-- R53: EVT_EN takes the word written. -/
theorem registerWrite_evtEn (m : Master) (p : Fin 256) (v : Word) (s : State) (h : s.admits m p.val true) (hs : settled s) :
    ∃ t, exec (.registerWrite m (BitVec.ofNat 26 (p.val * 0x1000 + 0x18)) v false) s = .next t ∧
      t.g (F.EVT_EN p.val) = v.toNat := by
  have hrun : headerWrite m p.val 0x18 v.toNat s =
      State.msiRise (s.access m) p.val ((s.access m).setF (F.EVT_EN p.val) v.toNat) :=
    h.runs (pageOf_hdr p.val 0x18 p.isLt (by omega)) fun s => State.msiRise s p.val (s.setF (F.EVT_EN p.val) v.toNat)
  refine ⟨_, exec_registerWrite_header (by omega) (by omega) h.1 h.2.1 hs hrun (by simp), ?_⟩
  rw [g_msiRise, g_setF_same]
  exact Nat.mod_eq_of_lt v.isLt

/-- R53, R54: EVT_STICKY loses the bits written with 1; no LOCK refuses it. -/
theorem registerWrite_evtSticky (m : Master) (p : Fin 256) (v : Word) (s : State) (hreach : s.reaches m p.val = true)
    (hpage : definedPage p.val = true) (hs : settled s) :
    ∃ t, exec (.registerWrite m (BitVec.ofNat 26 (p.val * 0x1000 + 0x14)) v false) s = .next t ∧
      t.g (F.EVT_STICKY p.val) = (s.g (F.EVT_STICKY p.val) &&& (v.toNat ^^^ 0xFFFFFFFF)) % 2 ^ 32 := by
  refine ⟨_, exec_registerWrite_header (by omega) (by omega) hreach hpage hs rfl (by simp [headerWrite]), ?_⟩
  simp [headerWrite]

/-- R13, R15: what a write does at a plain register, in the words of `writtenField` and `stagedField`. -/
theorem registerWrite_plain {m : Master} {a : Addr} {v : Word} {fs : List FSpec} {s : State}
    (h : plainRegister m a.toNat v.toNat) (hfs : regAt a.toNat = some fs) (hadm : s.admits m (pageOf a.toNat) false)
    (hs : settled s) :
    ∃ t, exec (.registerWrite m a v false) s = .next t ∧
      Within (only [.staged, .ev] [fun k => k / 32 = a.toNat / 4]) s t ∧
      ∀ f ∈ fs, t.g (fieldAt a.toNat f) = writtenField a.toNat v.toNat f (s.g (fieldAt a.toNat f)) ∧
        t.stg (fieldAt a.toNat f) = stagedField v.toNat f (s.stg (fieldAt a.toNat f)) := by
  obtain ⟨hreach, hpage, hup, hlock⟩ := hadm
  have hbus : busWrite m a.toNat v.toNat s = (s.access m).forEach fs (fieldWrite a.toNat v.toNat false) := by
    rw [busWrite_plain h hreach hpage, plainWrite_admitted hfs (by simpa using hup) (by simpa using hlock)]
  have hfit : Fits (only [.staged, .ev] [fun k => k / 32 = a.toNat / 4]) s
      ((s.access m).forEach fs (fieldWrite a.toNat v.toNat false)) :=
    fits_forEach_fieldWrite hfs h.1 (Fits.access m s (Fits.refl _ s) (by simp [only]))
  refine ⟨_, exec_registerWrite_aligned h.1 hs hbus (hfit.within .dev (by simp [only])), hfit.within, fun f hf => ⟨?_, ?_⟩⟩
  · rw [g_forEach_fieldWrite hfs hf, g_access]
  · rw [stg_forEach_fieldWrite hfs hf]
    simp [State.stg]

/-- R30: the fields of LEn_ROLE: line_mode, single_fibre and role, all staged. -/
def roleFields : List FSpec := [⟨15, 12, .rws, 0⟩, ⟨8, 8, .rws, 0⟩, ⟨2, 0, .rws, 0⟩]

theorem regAt_role (le : Fin 2) : regAt (0x10040 + 0x40000 * le.val) = some roleFields := by
  match le with
  | 0 => rfl
  | 1 => rfl

/-- R30: nothing but its fields' codes stands behind LEn_ROLE. -/
theorem plainRegister_role (m : Master) (le : Fin 2) (v : Nat) : plainRegister m (0x10040 + 0x40000 * le.val) v := by
  match le with
  | 0 => exact ⟨by decide, by decide, by decide, by decide, by decide, by decide, rfl⟩
  | 1 => exact ⟨by decide, by decide, by decide, by decide, by decide, by decide, rfl⟩

theorem pageOf_role (le : Fin 2) : pageOf (0x10040 + 0x40000 * le.val) = 0x10 + 0x40 * le.val := by
  match le with
  | 0 => rfl
  | 1 => rfl

/-- R15, R17, R30: a write of LEn_ROLE stages its three fields and leaves the sets in force. -/
theorem registerWrite_role (m : Master) (le : Fin 2) (v : Word) (s : State)
    (h : s.admits m (0x10 + 0x40 * le.val) false) (hs : settled s) :
    ∃ t, exec (.registerWrite m (BitVec.ofNat 26 (0x10040 + 0x40000 * le.val)) v false) s = .next t ∧ t.inForce = s.inForce ∧
      t.stg (F.LE_ROLE_role le.val) = v.toNat % 8 ∧ t.stg (F.LE_ROLE_single_fibre le.val) = v.toNat / 256 % 2 ∧
      t.stg (F.LE_ROLE_line_mode le.val) = v.toNat / 4096 % 16 := by
  have hto : (BitVec.ofNat 26 (0x10040 + 0x40000 * le.val) : Addr).toNat = 0x10040 + 0x40000 * le.val :=
    toNat_ofNat_addr (by omega)
  have hplain := plainRegister_role m le v.toNat
  have hfs := regAt_role le
  rw [← pageOf_role] at h
  rw [← hto] at h hplain hfs
  obtain ⟨t, ht, hwithin, hfields⟩ := registerWrite_plain hplain hfs h hs
  rw [hto] at hfields
  refine ⟨t, ht, hwithin .inForce (by simp [only]), ?_, ?_, ?_⟩
  · exact (hfields ⟨2, 0, .rws, 0⟩ (by simp [roleFields])).2.trans (by simp [stagedField, fieldBits])
  · exact (hfields ⟨8, 8, .rws, 0⟩ (by simp [roleFields])).2.trans (by simp [stagedField, fieldBits])
  · exact (hfields ⟨15, 12, .rws, 0⟩ (by simp [roleFields])).2.trans (by simp [stagedField, fieldBits])

/-- R51: the word that an unaligned address falls in belongs to the same page or window. -/
theorem pageOf_word (a : Nat) : pageOf (a / 4 * 4) = pageOf a := by
  have hlt {c : Nat} (hc : c % 4 = 0) : (a / 4 * 4 < c) = (a < c) := by rw [eq_iff_iff]; omega
  have hle {c : Nat} (hc : c % 4 = 0) : (c ≤ a / 4 * 4) = (c ≤ a) := by rw [eq_iff_iff]; omega
  have hpage : a / 4 * 4 / 0x1000 = a / 0x1000 := by omega
  simp only [pageOf, hpage, hlt, hle]

/-- R89: while the fabric runs a fabric error leaves its reason. -/
theorem g_fabErr_reason (m : Nat) (r : FabReason) (addr : Nat) {s : State} (hlog : s.logRuns = true) :
    (State.fabErr m r addr s).g F.FAB_ERR_LAST_INFO_reason = r.code := by
  have hlt : r.code < 2 ^ 4 := by cases r <;> decide
  unfold State.fabErr
  rw [if_neg (by simp [hlog])]
  dsimp only
  rw [g_setF_other _ _ (by simp), g_setF_same, F.FAB_ERR_LAST_INFO_reason_width, Nat.mod_eq_of_lt hlt]

/-- R89: while the fabric runs a fabric error leaves the code of its master. -/
theorem g_fabErr_master (m : Nat) (r : FabReason) (addr : Nat) {s : State} (hlog : s.logRuns = true) (hm : m < 2 ^ 4) :
    (State.fabErr m r addr s).g F.FAB_ERR_LAST_INFO_master = m := by
  unfold State.fabErr
  rw [if_neg (by simp [hlog])]
  dsimp only
  rw [g_setF_same, F.FAB_ERR_LAST_INFO_master_width, Nat.mod_eq_of_lt hm]

/-- A refused write raises an event of its page besides the fabric error, which no register but EVT_STICKY shows. -/
theorem g_refuse_of_not_sticky (m : Nat) (r : FabReason) (addr : Nat) (s : State) {f : Field}
    (h : f.key ≠ (F.EVT_STICKY (pageOf addr)).key) : (State.refuse m r addr s).g f = (State.fabErr m r addr s).g f := by
  unfold State.refuse
  dsimp only
  split
  · exact g_evt_other _ _ _ h
  · rfl

/-- R65: a master's code fits the field that names it. -/
theorem mcode_lt (m : Master) : mcode m < 2 ^ 4 := by cases m <;> decide

/-- R13, R89: a narrow access and one at no multiple of 4 are refused as NARROW, in the name of their master. -/
theorem registerWrite_narrow (m : Master) (a : Addr) (v : Word) (narrow : Bool) (s : State)
    (hreach : s.reaches m (pageOf a.toNat) = true) (hlog : s.logRuns = true) (hbad : narrow = true ∨ a.toNat % 4 ≠ 0) :
    ∃ t, exec (.registerWrite m a v narrow) s = .next t ∧ t.g F.FAB_ERR_LAST_INFO_reason = 1 ∧
      t.g F.FAB_ERR_LAST_INFO_master = mcode m := by
  have hlog' : (s.access m).logRuns = true := by simpa using hlog
  refine ⟨(s.access m).refuse (mcode m) .narrow a.toNat, ?_, ?_, ?_⟩
  · simp [execRegisterWrite, hbad, pageOf_word, hreach]
  · rw [g_refuse_of_not_sticky _ _ _ _ (by simp; omega), g_fabErr_reason _ _ _ hlog']
    rfl
  · rw [g_refuse_of_not_sticky _ _ _ _ (by simp; omega), g_fabErr_master _ _ _ hlog' (mcode_lt m)]

/-- Settles O8: the header registers by their row of `headerWrite`, LEn_ROLE and every other plain register by what each field
takes of the word by its code, and the narrow access by the fabric error it records. -/
theorem registerWriteByAccessCode : Obligations.RegisterWriteByAccessCode := by
  refine ⟨registerWrite_evtEn, registerWrite_evtSticky, registerWrite_role, ?_, registerWrite_narrow⟩
  intro m a v fs s hplain hfs hadm hs
  obtain ⟨t, ht, hwithin, hfields⟩ := registerWrite_plain hplain hfs hadm hs
  refine ⟨t, ht, hwithin, fun f hf => ?_⟩
  obtain ⟨hg, hstg⟩ := hfields f hf
  exact ⟨fun h => by simpa [writtenField, h] using hg, fun h => by simpa [stagedField, h] using hstg,
    fun h => by simpa [writtenField, h] using hg, fun h => by simpa [writtenField, h] using hg⟩

end Sys2Proof.Machine

/-! COMMIT at the safe boundary (O18), and the start, stop, failure and reload of a line engine (O24). -/

namespace Sys2Proof.Machine

/-! ## Parts that a change spares -/

/-- Every part of the state but those listed. That an operation stays within it (the lemmas named `_sparing`) is shown by going down
the structure of what it touches to the bit addresses, which differ by page, register or bit. -/
def Sparing (ps : List Part) : Part → Prop := fun p => p ∉ ps

section Spared

variable {ps : List Part} {s t : State}

theorem Fits.g_spared (h : Fits (Sparing ps) s t) {f : Field} (hf : Part.reg f.key ∈ ps) : t.g f = s.g f :=
  h.g (not_not_intro hf)

theorem Fits.on_spared (h : Fits (Sparing ps) s t) {f : Field} (hf : Part.reg f.key ∈ ps) : t.on f = s.on f := by
  rw [State.on, h.g_spared hf, State.on]

theorem Fits.dev_spared (h : Fits (Sparing ps) s t) (hd : Part.dev ∈ ps) : t.dev = s.dev :=
  h.within .dev (not_not_intro hd)

theorem Fits.inForce_spared (h : Fits (Sparing ps) s t) (hd : Part.inForce ∈ ps) : t.inForce = s.inForce :=
  h.within .inForce (not_not_intro hd)

end Spared

theorem on_evt_other (p b : Nat) (s : State) {f : Field} (h : f.key ≠ (F.EVT_STICKY p).key) :
    (State.evt p b s).on f = s.on f := by
  rw [State.on, g_evt_other _ _ _ h, State.on]

theorem on_setB_other (s : State) {f f' : Field} (b : Bool) (h : f'.key ≠ f.key) : (s.setB f b).on f' = s.on f' :=
  on_setF_other s _ h

@[simp] theorem on_datapath (s : State) (n inc : Nat) (f : Field) : (s.datapath n inc).on f = s.on f := rfl

/-! ## A COMMIT taken or cancelled (R58, R60) -/

theorem commitTaken_g_seq (d : Nat) (s : State) :
    (commitTaken d s).g (F.COMMIT_seq d) = (s.g (F.COMMIT_seq d) + 1) % 256 := by
  simp (disch := (simp <;> omega)) [commitTaken, g_evt_other, g_setB_other]

theorem commitTaken_not_pending (d : Nat) (s : State) : (commitTaken d s).on (F.PAGE_STAT_commit_pending d) = false := by
  unfold commitTaken
  dsimp only
  rw [on_datapath, on_evt_other _ _ _ (by simp; omega), on_setB_other _ _ (by simp), on_setB_other _ _ (by simp),
    on_setB _ _ _ rfl]

theorem commitTake_g_seq (d : Nat) (s : State) :
    (commitTake d s).g (F.COMMIT_seq d) = (s.g (F.COMMIT_seq d) + 1) % 256 := commitTaken_g_seq d _

theorem commitTake_not_pending (d : Nat) (s : State) : (commitTake d s).on (F.PAGE_STAT_commit_pending d) = false :=
  commitTaken_not_pending d _

theorem commitTake_inForce (d : Nat) (s : State) :
    (commitTake d s).inForce = Tbl.overlay (inDomain d) s.buffer s.inForce := by
  simp [commitTake, commitTaken]

/-- R58: the end of a COMMIT leaves the registers above the page header. -/
theorem commitTake_g_block (d : Nat) (s : State) {f : Field} (hf : 0x200 ≤ f.key % 0x8000) : (commitTake d s).g f = s.g f := by
  unfold commitTake commitTaken
  dsimp only
  rw [g_datapath, g_evt_other _ _ _ (by simp; omega), g_setB_other _ _ (by simp; omega), g_setB_other _ _ (by simp; omega),
    g_setB_other _ _ (by simp; omega), g_incWrap_other _ _ (by simp; omega)]
  rfl

/-- R60: a pending COMMIT that is cancelled leaves the set in force and answers CANCELLED. -/
theorem commitCancel_of_pending (d : Nat) (s : State) (h : s.on (F.PAGE_STAT_commit_pending d) = true) :
    (commitCancel d s).inForce = s.inForce ∧ (commitCancel d s).on (F.PAGE_STAT_commit_pending d) = false ∧
      (commitCancel d s).g (F.PAGE_STAT_commit_reason d) = 0x0E := by
  refine ⟨by simp [commitCancel, h], ?_, ?_⟩ <;> simp only [commitCancel, h, Bool.true_or, if_true]
  · rw [on_evt_other _ _ _ (by simp; omega), on_setF_other _ _ (by simp), on_setB_other _ _ (by simp),
      on_setB_other _ _ (by simp), on_setB _ _ _ rfl]
  · rw [g_evt_other _ _ _ (by simp; omega), g_setF_same]
    rfl

/-! ## Domains other than the engines' (R58) -/

/-- What the end of a COMMIT of domain `d` is seen by (R53, R58). -/
def commitParts (d : Nat) : List Part := [.inForce, .reg (F.COMMIT_seq d).key, .reg (F.PAGE_STAT_commit_pending d).key]

/-- What the rules of every domain but the engines' touch once its set is in force. -/
structure Touches.blockRules (N : Part → Prop) : Prop where
  c_groupApply : ∀ g, Touches.groupApply N g
  c_portsApply : ∀ old, Touches.portsApply N old
  c_mapApply : Touches.mapApply N
  c_clsApply : Touches.clsApply N
  c_cipApply : Touches.cipApply N
  c_synApply : Touches.synApply N
  c_hmpApply : Touches.hmpApply N
  h_thm : N .thm
  c_monApply : ∀ le, Touches.monApply N le

theorem bankSt_key (b : Nat) : (bankSt b).key = F.CLS_STAT_bank0_state.key ∨ (bankSt b).key = F.CLS_STAT_bank1_state.key := by
  unfold bankSt
  split <;> simp

theorem blockRules_sparing (d : Nat) : Touches.blockRules (Sparing (commitParts d)) := by
  have hbank := bankSt_key
  simp only [F.CLS_STAT_bank0_state_key, F.CLS_STAT_bank1_state_key] at hbank
  repeat' first
    | with_reducible intro _
    | constructor
    | (simp [Sparing, commitParts] <;> omega)
    | (have := hbank ‹_›; simp [Sparing, commitParts]; omega)

/-- R58 step 5: past the set in force a domain's own rules change neither it nor the COMMIT's flag and count. -/
theorem domApply_fits {d : Nat} (s : State) (h0 : d ≠ 0x10) (h1 : d ≠ 0x50) :
    Fits (Sparing (commitParts d)) (commitTake d s) (domApply d s) := by
  have h := Fits.refl (Sparing (commitParts d)) (commitTake d s)
  have tch := blockRules_sparing d
  unfold domApply
  rw [if_neg (by omega)]
  refine .ite (fun _ => h.groupApply _ _ _ (tch.c_groupApply _)) fun _ => ?_
  refine .ite (fun _ => h.portsApply _ _ (tch.c_portsApply _)) fun _ => ?_
  refine .ite (fun _ => h.mapApply _ _ tch.c_mapApply) fun _ => ?_
  refine .ite (fun _ => h.clsApply _ tch.c_clsApply) fun _ => ?_
  refine .ite (fun _ => h.cipApply _ _ tch.c_cipApply) fun _ => ?_
  refine .ite (fun _ => h.synApply _ _ tch.c_synApply) fun _ => ?_
  refine .ite (fun _ => h.hmpApply _ _ tch.c_hmpApply) fun _ => ?_
  refine .ite (fun _ => h.thmApply _ _ tch.h_thm) fun _ => ?_
  refine .ite (fun _ => h.monApply _ _ (tch.c_monApply 0)) fun _ => ?_
  exact .ite (fun _ => h.monApply _ _ (tch.c_monApply 1)) fun _ => h

/-- No COMMIT changes what the device itself holds: no WAKE or BCR begins with it. -/
theorem domApply_dev (d : Nat) (s : State) : (domApply d s).dev = s.dev := by
  have tch : Touches.domApply (Sparing [.dev]) d := by
    repeat' first | with_reducible intro _ | constructor | simp [Sparing]
  exact (Fits.domApply d s (Fits.refl _ s) tch).dev_spared (by simp)

/-- R108, R119: where no WAKE is due and no BCR is being applied, none resumes at a safe boundary. -/
theorem boot_bcrResume {s : State} (h : settled s) (k : Nat) : boot (bcrResume k s) = s := by
  obtain ⟨hboot, hbcr⟩ := h
  simp [bcrResume, hbcr, boot_of_not_pending hboot]

/-- R58: the safe boundary of a domain with a pending COMMIT that is neither armed nor timed. -/
theorem exec_commitApply_due {p : Fin 256} {s : State} (hs : settled s) (h4 : domainOf p.val ≠ 0xE4)
    (hpend : s.on (F.PAGE_STAT_commit_pending (domainOf p.val)) = true)
    (harmed : s.on (F.PAGE_STAT_commit_armed (domainOf p.val)) = false) (htimed : timedOf s (domainOf p.val) = false) :
    exec (.commitApply p) s = .next (domApply (domainOf p.val) s) := by
  have hset : settled (domApply (domainOf p.val) s) := by rwa [settled, domApply_dev]
  simp [execCommitApply, commitBoundary, hpend, harmed, htimed, h4, boot_bcrResume hset]

/-! ## What engine `le` does beside its own moves (R31, R35, R55, R134) -/

/-- The run of engine `le` as its registers show it, its error code, the count of its COMMITs. -/
def runParts (le : Nat) : List Part :=
  [.reg (F.LE_ROLE_STAT_run_state le).key, .reg (F.LE_ROLE_STAT_start_step le).key, .reg (F.LE_ROLE_STAT_role_active le).key,
   .reg (F.LE_TX_PLAN_STAT_reload_busy le).key, .reg (F.LE_TX_PLAN_STAT_timed_pending le).key,
   .reg (F.ERR_valid (lep le 0x10)).key, .reg (F.ERR_code (lep le 0x10)).key, .reg (F.COMMIT_seq (lep le 0x10)).key]

/-- What the reports, lock states and converters of engine `le` touch, whichever way its run state moves. -/
structure Touches.engineAsides (N : Part → Prop) (le : Nat) : Prop where
  h_rep : N .rep
  h_tx : N (.tx (le != 0))
  k_period : N (.reg (F.LE_P2MP_APPLY_PN_period le).key)
  c_txReport : Touches.txReport N le
  c_txEval : Touches.txEval N le
  c_fecReport : Touches.fecReport N le
  c_rxReport : Touches.rxReport N le
  c_rxGo : Touches.rxGo N le
  c_losEval : Touches.losEval N le
  c_leafGo : Touches.leafGo N le
  c_leafIdle : Touches.leafIdle N le
  c_cipherLoad : Touches.cipherLoad N
  c_monAbort : Touches.monAbort N le
  c_repairStopped : Touches.repairStopped N le
  c_commitCancel : ∀ d, Touches.commitCancel N d

section Engine

variable {le : Nat} (hle : le < 2)
include hle

omit hle in
theorem level_sparing (p : Nat) : Touches.level (Sparing (runParts le)) p := by
  repeat' first | constructor | (simp [Sparing, runParts, lep] <;> omega)

omit hle in
theorem rxGo_sparing : Touches.rxGo (Sparing (runParts le)) le := by
  have hlevel := level_sparing (le := le)
  repeat' first | with_reducible intro _ | with_reducible exact hlevel _ | constructor | (simp [Sparing, runParts, lep] <;> omega)

theorem engineAsides_sparing : Touches.engineAsides (Sparing (runParts le)) le := by
  have hlevel := level_sparing (le := le)
  have hevt (p : Nat) : Touches.evt (Sparing (runParts le)) p := (hlevel p).c_evt
  have hrx := rxGo_sparing (le := le)
  repeat' first
    | with_reducible intro _
    | with_reducible exact hevt _
    | with_reducible exact hlevel _
    | with_reducible exact hrx
    | constructor
    | (simp [Sparing, runParts, lep] <;> omega)

/-- The stop of one engine, which a failed REGEN brings on the other (R34), leaves the other's own registers. -/
theorem engineStopping_other_sparing : Touches.engineStopping (Sparing (runParts le)) (1 - le) := by
  repeat' first | with_reducible intro _ | constructor | (simp [Sparing, runParts, lep] <;> omega)

/-! ## An engine that stops or fails (R34, R35, R55) -/

/-- R35: beside what it sets an engine that reaches STOPPED keeps its own registers. -/
theorem engineStopped_g (s : State) {f : Field} (hf : Part.reg f.key ∈ runParts le) :
    (engineStopped le s).g f = ((((s.setF (F.LE_ROLE_STAT_run_state le) 0).setF (F.LE_ROLE_STAT_role_active le) 0).setF
      (F.LE_ROLE_STAT_line_mode_active le) 0).setF (F.LE_ROLE_STAT_single_fibre_active le) 0).g f := by
  have tch := engineAsides_sparing hle
  unfold engineStopped
  refine Fits.g_spared (ps := runParts le) ?_ hf
  refine .cipherLoad _ (.txReport _ _ (.txEval _ _ (.modTx _ _ _ ?_ tch.h_tx) tch.c_txEval) tch.c_txReport) tch.c_cipherLoad
  exact .monAbort _ _ (.repairStopped _ _ (.refl _ _) tch.c_repairStopped) tch.c_monAbort

theorem engineStopped_runState (s : State) : (engineStopped le s).runState le = 0 := by
  rw [State.runState, engineStopped_g hle s (by simp [runParts]), g_setF_other _ _ (by simp), g_setF_other _ _ (by simp),
    g_setF_other _ _ (by simp), g_setF_same, Nat.zero_mod]

theorem engineStopped_role (s : State) : (engineStopped le s).role le = 0 := by
  rw [State.role, engineStopped_g hle s (by simp [runParts]), g_setF_other _ _ (by simp), g_setF_other _ _ (by simp),
    g_setF_same, Nat.zero_mod]

/-- R35: an engine that reaches STOPPED keeps its start step, its error code, its pending changes and its COMMIT count. -/
theorem engineStopped_g_other (s : State) {f : Field} (hf : Part.reg f.key ∈ runParts le)
    (hrun : f.key ≠ (F.LE_ROLE_STAT_run_state le).key) (hrole : f.key ≠ (F.LE_ROLE_STAT_role_active le).key) :
    (engineStopped le s).g f = s.g f := by
  have hkeys : f.key ≠ (F.LE_ROLE_STAT_single_fibre_active le).key ∧ f.key ≠ (F.LE_ROLE_STAT_line_mode_active le).key := by
    simp [runParts, lep] at hf ⊢
    omega
  rw [engineStopped_g hle s hf, g_setF_other _ _ hkeys.1, g_setF_other _ _ hkeys.2, g_setF_other _ _ hrole, g_setF_other _ _ hrun]

theorem txReport_txEval_g (s : State) {f : Field} (hf : Part.reg f.key ∈ runParts le) :
    (txReport le (txEval le s)).g f = s.g f := by
  have tch := engineAsides_sparing hle
  exact Fits.g_spared (ps := runParts le) (.txReport _ _ (.txEval _ _ (.refl _ _) tch.c_txEval) tch.c_txReport) hf

theorem leafIdle_rxGo_g (s : State) {f : Field} (hf : Part.reg f.key ∈ runParts le) :
    (leafIdle le (rxGo le 0 s)).g f = s.g f := by
  have tch := engineAsides_sparing hle
  exact Fits.g_spared (ps := runParts le) (.leafIdle _ _ (.rxGo _ _ _ (.refl _ _) tch.c_rxGo) tch.c_leafIdle) hf

theorem commitCancel_g (d : Nat) (s : State) {f : Field} (hf : Part.reg f.key ∈ runParts le) :
    (commitCancel d s).g f = s.g f :=
  (Fits.commitCancel d s (.refl _ _) ((engineAsides_sparing hle).c_commitCancel d)).g_spared hf

/-- R35: an engine on its way to STOPPING keeps its start step, its role, its error code and its COMMIT count. -/
theorem engineStopping_g (s : State) {f : Field} (hf : Part.reg f.key ∈ runParts le)
    (hbusy : f.key ≠ (F.LE_TX_PLAN_STAT_reload_busy le).key) (htimed : f.key ≠ (F.LE_TX_PLAN_STAT_timed_pending le).key)
    (hrun : s.runState le = 1 ∨ s.runState le = 2) :
    (engineStopping le s).g f = (s.setF (F.LE_ROLE_STAT_run_state le) 3).g f := by
  unfold engineStopping
  rw [if_pos hrun, txReport_txEval_g hle _ hf]
  split
  · rw [commitCancel_g hle _ _ hf, g_setB_other _ _ htimed, g_setB_other _ _ hbusy, leafIdle_rxGo_g hle _ hf]
  · rw [g_setB_other _ _ hbusy, leafIdle_rxGo_g hle _ hf]

theorem engineStopping_runState (s : State) (hrun : s.runState le = 1 ∨ s.runState le = 2) :
    (engineStopping le s).runState le = 3 := by
  rw [State.runState, engineStopping_g hle s (by simp [runParts]) (by simp; omega) (by simp; omega) hrun, g_setF_same]
  rfl

/-- R35, R156: with an engine on its way to STOPPING no timed change of it waits. -/
theorem engineStopping_timed_off (s : State) (h : s.on (F.LE_TX_PLAN_STAT_timed_pending le) = false) :
    (engineStopping le s).on (F.LE_TX_PLAN_STAT_timed_pending le) = false := by
  have hf : Part.reg (F.LE_TX_PLAN_STAT_timed_pending le).key ∈ runParts le := by simp [runParts]
  unfold engineStopping
  split
  · rw [State.on, txReport_txEval_g hle _ hf]
    split
    · rw [commitCancel_g hle _ _ hf, g_setB_same _ _ _ (by simp)]
      rfl
    next hon => exact (Bool.not_eq_true _).mp hon
  · exact h

/-! ## Errors (R55) -/

omit hle in
theorem err_on_valid (p step code : Nat) (s : State) : (State.err p step code s).on (F.ERR_valid p) = true := by
  unfold State.err
  dsimp only
  split
  next h => rwa [on_setB_other _ _ (by simp)]
  · rw [on_evt_other _ _ _ (by simp; omega), on_setF_other _ _ (by simp), on_setF_other _ _ (by simp), on_setB _ _ _ rfl]

omit hle in
/-- R55: the first error of a page is held. -/
theorem err_g_code (p step code : Nat) (s : State) (h : s.on (F.ERR_valid p) = false) :
    (State.err p step code s).g (F.ERR_code p) = code % 256 := by
  unfold State.err
  dsimp only
  rw [if_neg (by simpa [State.on] using h), g_evt_other _ _ _ (by simp), g_setF_same]
  rfl

omit hle in
/-- R55: an error leaves the registers above the page header. -/
theorem err_g_block (p step code : Nat) (s : State) {f : Field} (hf : 0x200 ≤ f.key % 0x8000) :
    (State.err p step code s).g f = s.g f := by
  refine g_err_other _ _ _ _ ?_ ?_ ?_ ?_ ?_ <;> simp <;> omega

/-! ## A failed start, a failed run (R35, R112) -/

/-- R34, R35, R112: an engine that fails on its way to RUNNING is stopped, whatever becomes of the other engine of a REGEN. -/
theorem engineFail_starting_g (step code : Nat) (s : State) (hrun : s.runState le = 1) {f : Field}
    (hf : Part.reg f.key ∈ runParts le) :
    (engineFail le step code s).g f = (engineStopped le (leafIdle le
      ((State.err (lep le 0x10) step code s).setF (F.LE_ROLE_STAT_start_step le) step))).g f := by
  unfold engineFail
  rw [if_pos hrun]
  dsimp only
  split
  · exact (Fits.engineStopping _ _ (.refl _ _) (engineStopping_other_sparing hle)).g_spared hf
  · rfl

theorem engineFail_starting (step code : Nat) (s : State) (hrun : s.runState le = 1) :
    (engineFail le step code s).g (F.LE_ROLE_STAT_start_step le) = step % 32 ∧ (engineFail le step code s).runState le = 0 ∧
      (engineFail le step code s).on (F.ERR_valid (lep le 0x10)) = true ∧
      (s.on (F.ERR_valid (lep le 0x10)) = false → (engineFail le step code s).g (F.ERR_code (lep le 0x10)) = code % 256) := by
  have hidle (u : State) {f : Field} (hf : Part.reg f.key ∈ runParts le) : (leafIdle le u).g f = u.g f :=
    (Fits.leafIdle _ _ (.refl _ _) (engineAsides_sparing hle).c_leafIdle).g_spared hf
  have hother {f : Field} (hf : Part.reg f.key ∈ runParts le) (h1 : f.key ≠ (F.LE_ROLE_STAT_run_state le).key)
      (h2 : f.key ≠ (F.LE_ROLE_STAT_role_active le).key) : (engineFail le step code s).g f =
        ((State.err (lep le 0x10) step code s).setF (F.LE_ROLE_STAT_start_step le) step).g f := by
    rw [engineFail_starting_g hle _ _ _ hrun hf, engineStopped_g_other hle _ hf h1 h2, hidle _ hf]
  refine ⟨?_, ?_, ?_, fun hfirst => ?_⟩
  · rw [hother (by simp [runParts]) (by simp) (by simp), g_setF_same]
    rfl
  · rw [State.runState, engineFail_starting_g hle _ _ _ hrun (by simp [runParts])]
    exact engineStopped_runState hle _
  · rw [State.on, hother (by simp [runParts]) (by simp [lep]; omega) (by simp [lep]; omega), g_setF_other _ _ (by simp [lep]; omega)]
    exact err_on_valid _ _ _ _
  · rw [hother (by simp [runParts]) (by simp [lep]; omega) (by simp [lep]; omega), g_setF_other _ _ (by simp [lep]; omega),
      err_g_code _ _ _ _ hfirst]

omit hle in
theorem engineFail_running (step code : Nat) (s : State) (hrun : s.runState le = 2) :
    engineFail le step code s = engineStopping le (State.err (lep le 0x10) step code s) := by
  simp [engineFail, hrun]

/-- R55: a running engine that fails is on its way to STOPPING, its error code held. -/
theorem engineFail_running_stopping (step code : Nat) (s : State) (hrun : s.runState le = 2)
    (hfirst : s.on (F.ERR_valid (lep le 0x10)) = false) :
    (engineFail le step code s).runState le = 3 ∧ (engineFail le step code s).g (F.ERR_code (lep le 0x10)) = code % 256 := by
  have herr : (State.err (lep le 0x10) step code s).runState le = 2 := by
    rw [State.runState, err_g_block _ _ _ _ (by simp; omega)]
    exact hrun
  rw [engineFail_running step code s hrun]
  refine ⟨engineStopping_runState hle _ (.inr herr), ?_⟩
  rw [engineStopping_g hle _ (by simp [runParts]) (by simp [lep]; omega) (by simp [lep]; omega) (.inr herr),
    g_setF_other _ _ (by simp [lep]; omega), err_g_code _ _ _ _ hfirst]

/-! ## An engine that runs (R35, R157) -/

/-- R35: beside what it sets an engine that reaches RUNNING keeps its own registers. -/
theorem engineRun_g (s : State) {f : Field} (hf : Part.reg f.key ∈ runParts le) :
    (engineRun le s).g f = ((s.setF (F.LE_ROLE_STAT_run_state le) 2).setF (F.LE_ROLE_STAT_start_step le) 10).g f := by
  have tch := engineAsides_sparing hle
  unfold engineRun
  refine Fits.g_spared (ps := runParts le) ?_ hf
  have hlos (u : State) : Fits (Sparing (runParts le)) u
      (losEval le (rxGo le 1 (txEval le (fecReport le (rxReport le (txReport le (rotationStart le u))))))) :=
    .losEval _ _ (.rxGo _ _ _ (.txEval _ _ (.fecReport _ _ (.rxReport _ _ (.txReport _ _ (.rotationStart _ _ (.refl _ _)
      tch.h_rep) tch.c_txReport) tch.c_rxReport) tch.c_fecReport) tch.c_txEval) tch.c_rxGo) tch.c_losEval
  exact .ite (fun _ => .leafGo _ _ _ (hlos _) tch.c_leafGo)
    fun _ => .ite (fun _ => .setF _ _ _ (hlos _) tch.k_period) fun _ => hlos _

theorem engineStartStep_first (ok : Bool) (cals : List UnitCal) (bad : List (Fin 26)) (s : State) (hrun : s.runState le = 1)
    (hstep : s.g (F.LE_ROLE_STAT_start_step le) = 0) :
    (startStep le ok cals bad s).g (F.LE_ROLE_STAT_start_step le) = 1 ∧
      (startStep le ok cals bad s).runState le = (if ok then 1 else 0) ∧
      (ok = false → (startStep le ok cals bad s).on (F.ERR_valid (lep le 0x10)) = true ∧
        (s.on (F.ERR_valid (lep le 0x10)) = false → (startStep le ok cals bad s).g (F.ERR_code (lep le 0x10)) = 0x81)) := by
  cases ok with
  | true =>
    have hend : startStep le true cals bad s = s.setF (F.LE_ROLE_STAT_start_step le) 1 := by simp [startStep, hstep, stepDone]
    rw [hend]
    exact ⟨by simp, by rw [State.runState, g_setF_other _ _ (by simp)]; exact hrun, nofun⟩
  | false =>
    have hend : startStep le false cals bad s = engineFail le 1 0x81 s := by simp [startStep, hstep]
    obtain ⟨h1, h2, h3, h4⟩ := engineFail_starting hle 1 0x81 s hrun
    rw [hend]
    exact ⟨h1, h2, fun _ => ⟨h3, h4⟩⟩

theorem engineStartStep_last (cals : List UnitCal) (bad : List (Fin 26)) (s : State)
    (hstep : s.g (F.LE_ROLE_STAT_start_step le) = 9) (hready : s.on (F.UBH_STAT_tx_ready le) = true) :
    (startStep le true cals bad s).runState le = 2 ∧ (startStep le true cals bad s).g (F.LE_ROLE_STAT_start_step le) = 10 := by
  have hend : startStep le true cals bad s = engineRun le s := by simp [startStep, hstep, hready]
  rw [hend]
  constructor
  · rw [State.runState, engineRun_g hle s (by simp [runParts]), g_setF_other _ _ (by simp), g_setF_same]
    rfl
  · rw [engineRun_g hle s (by simp [runParts]), g_setF_same]
    rfl

/-! ## The set of an engine comes into force (R35, R58, R156, R157) -/

/-- R58, R156: the COMMIT count of domain `d` and the pending timed change of engine `le`. -/
def timedParts (d le : Nat) : List Part := [.reg (F.COMMIT_seq d).key, .reg (F.LE_TX_PLAN_STAT_timed_pending le).key]

omit hle in
/-- A converter lane of either engine lies in no page header. -/
theorem convReport_sparing (d : Nat) {lane : Nat} (hlane : lane < 4) : Touches.convReport (Sparing (timedParts d le)) le lane := by
  repeat' first | constructor | (simp [Sparing, timedParts] <;> omega)

/-- What the set of engine `le` in force brings with it, the report of its converters aside. -/
structure Touches.engineRules (N : Part → Prop) (le : Nat) : Prop where
  h_rep : N .rep
  k_start_step : N (.reg (F.LE_ROLE_STAT_start_step le).key)
  k_run_state : N (.reg (F.LE_ROLE_STAT_run_state le).key)
  k_role_active : N (.reg (F.LE_ROLE_STAT_role_active le).key)
  k_line_mode_active : N (.reg (F.LE_ROLE_STAT_line_mode_active le).key)
  k_single_fibre_active : N (.reg (F.LE_ROLE_STAT_single_fibre_active le).key)
  k_period : N (.reg (F.LE_P2MP_APPLY_PN_period le).key)
  c_evt : ∀ p, Touches.evt N p
  c_txReport : Touches.txReport N le
  c_rxReport : Touches.rxReport N le
  c_fecReport : Touches.fecReport N le
  c_reflCommit : Touches.reflCommit N le
  c_envLevel : Touches.envLevel N le
  c_rankReport : Touches.rankReport N le
  c_joinBundle : Touches.joinBundle N le
  c_leafCommit : Touches.leafCommit N le
  c_defReport : Touches.defReport N le
  c_cipherLoad : Touches.cipherLoad N
  c_monTake : Touches.monTake N le
  c_reloadStart : Touches.reloadStart N le
  c_rxChange : Touches.rxChange N le
  c_mapBuild : Touches.mapBuild N le

theorem engineRules_sparing (d : Nat) : Touches.engineRules (Sparing (timedParts d le)) le := by
  repeat' first | with_reducible intro _ | constructor | (simp [Sparing, timedParts, lep] <;> omega)

theorem engineStart_fits (d : Nat) (s : State) : Fits (Sparing (timedParts d le)) s (engineStart le s) := by
  have tch := engineRules_sparing hle d
  unfold engineStart
  refine .cipherLoad _ (.monTake _ _ (.forEach _ _ ?_ fun i t ht => ?_) tch.c_monTake) tch.c_cipherLoad
  · refine .setF _ _ _ (.setF _ _ _ (.setF _ _ _ ?_ tch.k_role_active) tch.k_line_mode_active) tch.k_single_fibre_active
    exact .setF _ _ _ (.setF _ _ _ (.refl _ _) tch.k_run_state) tch.k_start_step
  · exact .convReport _ _ _ _ ht (convReport_sparing d (Nat.mod_lt _ (by decide)))

theorem engineReport_fits (d : Nat) (old : Tbl Nat) (s : State) :
    Fits (Sparing (timedParts d le)) s (engineReport le old s) := by
  have tch := engineRules_sparing hle d
  have hlevel := Fits.envLevel le _ (.reflCommit le _ (.fecReport le _ (.rxReport le _ (.txReport le s (.refl _ _)
    tch.c_txReport) tch.c_rxReport) tch.c_fecReport) tch.c_reflCommit) tch.c_envLevel
  have hconv := Fits.forEach (List.range 8) (fun i s => convReport le (i / 4 == 1) (i % 4) (repairKeep le (i / 4 == 1) (i % 4) s))
    hlevel fun i t ht => .convReport _ _ _ _ (.repairKeep _ _ _ _ ht tch.h_rep) (convReport_sparing d (Nat.mod_lt _ (by decide)))
  have hjoin := Fits.joinBundle le old _ (.rankReport le _ hconv tch.c_rankReport) tch.c_joinBundle
  unfold engineReport
  refine .cipherLoad _ (.defReport _ _ (.ite (fun _ => ?_) fun _ => hjoin) tch.c_defReport) tch.c_cipherLoad
  exact .leafCommit _ _ _ hjoin tch.c_leafCommit

/-- R157: the reload path and what it does to reception. -/
theorem reload_fits (d : Nat) (old : Tbl Nat) (s : State) :
    Fits (Sparing (timedParts d le)) s
      (if txReload old s.inForce le then rxChange le old (reloadStart le s) else rxChange le old s) := by
  have tch := engineRules_sparing hle d
  exact .ite (fun _ => .rxChange _ _ _ (.reloadStart _ _ (.refl _ _) tch.c_reloadStart) tch.c_rxChange)
    fun _ => .rxChange _ _ _ (.refl _ _) tch.c_rxChange

omit hle in
/-- The stop of an engine counts no COMMIT (R58, R60). -/
theorem engineOff_sparing (d : Nat) : Touches.engineOff (Sparing [.reg (F.COMMIT_seq d).key]) le := by
  repeat' first | with_reducible intro _ | constructor | (simp [Sparing, lep] <;> omega)

/-- A failed engine counts no COMMIT (R55, R58). -/
theorem convJudge_sparing : Touches.convJudge (Sparing [.reg (F.COMMIT_seq (lep le 0x10)).key]) le := by
  repeat' first | with_reducible intro _ | constructor | (simp [Sparing, lep] <;> omega)

/-- R35, R58: whatever an engine's set makes of its run state, its COMMIT is counted by `commitTake` alone. -/
theorem engineApply_g_seq (old : Tbl Nat) (s : State) :
    (engineApply le old s).g (F.COMMIT_seq (lep le 0x10)) = s.g (F.COMMIT_seq (lep le 0x10)) := by
  have hmem (e : Nat) : Part.reg (F.COMMIT_seq (lep le 0x10)).key ∈ timedParts (lep le 0x10) e := by simp [timedParts]
  have hreport {e : Nat} (he : e < 2) (u : State) := (engineReport_fits he (lep le 0x10) old u).g_spared (hmem e)
  have hstart {e : Nat} (he : e < 2) (u : State) := (engineStart_fits he (lep le 0x10) u).g_spared (hmem e)
  have hoff := (Fits.engineOff le s (.refl _ _) (engineOff_sparing (lep le 0x10))).g_spared (List.mem_singleton.2 rfl)
  have hjudge (u : State) := (Fits.convJudge le u (.refl _ _) (convJudge_sparing hle)).g_spared (List.mem_singleton.2 rfl)
  unfold engineApply
  dsimp only
  split
  · split
    · exact hreport hle s
    · split
      · rw [hreport (by decide), hreport (by decide), hstart (by decide), hstart (by decide)]
        rfl
      · rw [hreport hle, hstart hle]
  · split
    · exact hoff
    · rw [hjudge, (reload_fits hle (lep le 0x10) old _).g_spared (hmem le), hreport hle]
  · split
    · exact hoff
    · rfl

/-- R34, R156: no stop of either engine, alone or with its REGEN, sets a timed change of engine `le`. -/
theorem engineStopping_either_timed_off {e : Nat} (he : e < 2) (s : State)
    (h : s.on (F.LE_TX_PLAN_STAT_timed_pending le) = false) :
    (engineStopping e s).on (F.LE_TX_PLAN_STAT_timed_pending le) = false := by
  by_cases heq : e = le
  · exact heq ▸ engineStopping_timed_off hle s h
  · have hother : e = 1 - le := by omega
    rw [hother, (Fits.engineStopping _ _ (.refl _ _) (engineStopping_other_sparing hle)).on_spared (by simp [runParts]), h]

theorem engineOff_timed_off (s : State) (h : s.on (F.LE_TX_PLAN_STAT_timed_pending le) = false) :
    (engineOff le s).on (F.LE_TX_PLAN_STAT_timed_pending le) = false := by
  unfold engineOff
  split
  · exact engineStopping_either_timed_off hle (by decide) _ (engineStopping_either_timed_off hle (by decide) s h)
  · exact engineStopping_timed_off hle s h

theorem engineFail_timed_off (step code : Nat) (s : State) (h : s.on (F.LE_TX_PLAN_STAT_timed_pending le) = false) :
    (engineFail le step code s).on (F.LE_TX_PLAN_STAT_timed_pending le) = false := by
  have hf : Part.reg (F.LE_TX_PLAN_STAT_timed_pending le).key ∈ runParts le := by simp [runParts]
  have herr : (State.err (lep le 0x10) step code s).on (F.LE_TX_PLAN_STAT_timed_pending le) = false := by
    rwa [State.on, err_g_block _ _ _ _ (by simp; omega)]
  by_cases h1 : s.runState le = 1
  · rw [State.on, engineFail_starting_g hle _ _ _ h1 hf, engineStopped_g_other hle _ hf (by simp; omega) (by simp; omega),
      (Fits.leafIdle _ _ (.refl _ _) (engineAsides_sparing hle).c_leafIdle).g_spared hf, g_setF_other _ _ (by simp; omega)]
    exact herr
  by_cases h2 : s.runState le = 2
  · rw [engineFail_running _ _ _ h2]
    exact engineStopping_timed_off hle _ herr
  · simpa [engineFail, h1, h2] using h

theorem convJudge_timed_off (s : State) (h : s.on (F.LE_TX_PLAN_STAT_timed_pending le) = false) :
    (convJudge le s).on (F.LE_TX_PLAN_STAT_timed_pending le) = false := by
  unfold convJudge
  split
  · split
    · exact h
    · exact engineFail_timed_off hle _ _ s h
  · exact engineFail_timed_off hle _ _ s h

/-- R156: the set of a running engine that comes into force makes no further timed change of it. -/
theorem engineApply_timed_off (old : Tbl Nat) (s : State) (hrun : s.runState le = 2)
    (h : s.on (F.LE_TX_PLAN_STAT_timed_pending le) = false) :
    (engineApply le old s).on (F.LE_TX_PLAN_STAT_timed_pending le) = false := by
  have hf : Part.reg (F.LE_TX_PLAN_STAT_timed_pending le).key ∈ timedParts 0 le := by simp [timedParts]
  simp only [engineApply, hrun]
  split
  · exact engineOff_timed_off hle s h
  · refine convJudge_timed_off hle _ ?_
    rw [(reload_fits hle 0 old _).on_spared hf, (engineReport_fits hle 0 old s).on_spared hf, h]

theorem engine_of_domain :
    (lep le 0x10 = 0x10 ∨ lep le 0x10 = 0x50) ∧ (if lep le 0x10 = 0x10 then 0 else 1) = le := by
  match le, hle with
  | 0, _ => decide
  | 1, _ => decide

/-- R58, R217: an engine's set comes into force by `engineApply`, for a hub that changes its maps at the build of the next map. -/
theorem domApply_engine_fits (s : State) (hbar : engineBarred le s = false) :
    ∃ n, Fits (Sparing (timedParts (lep le 0x10) le))
      (engineApply le s.inForce (commitTake (lep le 0x10) (s.reach n))) (domApply (lep le 0x10) s) := by
  have tch := engineRules_sparing hle (lep le 0x10)
  have hctrl : Touches.ctrlBoundary (Sparing (timedParts (lep le 0x10) le)) := by
    repeat' first | with_reducible intro _ | constructor | (simp [Sparing, timedParts, lep] <;> omega)
  obtain ⟨hdom, hengine⟩ := engine_of_domain hle
  unfold domApply
  rw [if_pos hdom]
  simp only [hengine]
  rw [if_neg (by simp [hbar])]
  split
  · exact ⟨_, .ctrlBoundary _ _ _ _ (.mapBuild _ _ _ (.evt _ _ _ (.setF _ _ _ (.refl _ _) tch.k_period) (tch.c_evt _))
      tch.c_mapBuild) hctrl⟩
  · exact ⟨0, .refl _ _⟩

theorem domApply_engine_g_seq (s : State) (hbar : engineBarred le s = false) :
    (domApply (lep le 0x10) s).g (F.COMMIT_seq (lep le 0x10)) = (s.g (F.COMMIT_seq (lep le 0x10)) + 1) % 256 := by
  obtain ⟨n, hfits⟩ := domApply_engine_fits hle s hbar
  rw [hfits.g_spared (by simp [timedParts]), engineApply_g_seq hle, commitTake_g_seq, g_reach]

theorem domApply_engine_timed_off (s : State) (hbar : engineBarred le s = false) (hrun : s.runState le = 2)
    (h : s.on (F.LE_TX_PLAN_STAT_timed_pending le) = false) :
    (domApply (lep le 0x10) s).on (F.LE_TX_PLAN_STAT_timed_pending le) = false := by
  obtain ⟨n, hfits⟩ := domApply_engine_fits hle s hbar
  rw [hfits.on_spared (by simp [timedParts])]
  refine engineApply_timed_off hle _ _ ?_ ?_
  · rwa [State.runState, commitTake_g_block _ _ (by simp; omega), g_reach]
  · rwa [State.on, commitTake_g_block _ _ (by simp; omega), g_reach]

/-- R60, R93: a set that is no longer permitted at its boundary is cancelled. -/
theorem domApply_engine_barred (s : State) (hbar : engineBarred le s = true) :
    domApply (lep le 0x10) s = commitCancel (lep le 0x10) s := by
  obtain ⟨hdom, hengine⟩ := engine_of_domain hle
  unfold domApply
  rw [if_pos hdom]
  simp only [hengine]
  rw [if_pos hbar]

end Engine

/-- Settles O18: `domApply` takes the buffered set by `commitTake`, and the rules of the domain that run after it change neither
the count nor, outside the engines, the set in force. -/
theorem commitAppliesWholeSet : Obligations.CommitAppliesWholeSet := by
  intro p s hs h4 hpend harmed htimed
  have hexec := exec_commitApply_due hs h4 hpend harmed htimed
  generalize domainOf p.val = d at *
  refine ⟨_, hexec, fun hfree => ?_, fun le hd hbar => ?_, fun h0 h1 => ?_⟩
  · by_cases hengine : d = 0x10 ∨ d = 0x50
    · obtain ⟨le, rfl⟩ : ∃ le : Fin 2, d = lep le.val 0x10 := hengine.elim (fun h => ⟨0, h⟩) fun h => ⟨1, h⟩
      exact domApply_engine_g_seq le.isLt s (hfree le rfl)
    · rw [(domApply_fits s (by omega) (by omega)).g_spared (by simp [commitParts]), commitTake_g_seq]
  · subst hd
    rw [domApply_engine_barred le.isLt s hbar]
    exact commitCancel_of_pending _ s hpend
  · have hfits := domApply_fits s h0 h1
    rw [hfits.inForce_spared (by simp [commitParts]), hfits.on_spared (by simp [commitParts])]
    exact ⟨commitTake_inForce d s, commitTake_not_pending d s⟩

/-! ## The commands of an engine's run (R35, R112, R156, R157) -/

theorem exec_reloadDone_ok (le : Fin 2) (s : State) (hbusy : s.on (F.LE_TX_PLAN_STAT_reload_busy le.val) = true) :
    ∃ t, exec (.reloadDone le none) s = .next t ∧ t.on (F.LE_TX_PLAN_STAT_reload_busy le.val) = false ∧
      t.sticky (lep le.val 0x14) 0 ∧ t.sticky (lep le.val 0x14) 1 := by
  have tch := engineAsides_sparing le.isLt
  have hreport (u : State) : Fits (Sparing (runParts le.val)) u (txEval le.val (txReport le.val u)) :=
    .txEval _ _ (.txReport _ _ (.refl _ _) tch.c_txReport) tch.c_txEval
  have hexec : exec (.reloadDone le none) s = .next (State.evt (lep le.val 0x14) 0 (State.evt (lep le.val 0x14) 1
      (txEval le.val (txReport le.val (s.setB (F.LE_TX_PLAN_STAT_reload_busy le.val) false))))) := by
    simp only [exec_reloadDone, execReloadDone, hbusy, if_true]
  refine ⟨_, hexec, ?_, sticky_evt _ _ _ (by decide),
    sticky_evt_of _ _ (by decide) (sticky_evt _ _ _ (by decide))⟩
  rw [on_evt_other _ _ _ (by simp; omega), on_evt_other _ _ _ (by simp; omega), (hreport _).on_spared (by simp [runParts]),
    on_setB _ _ _ rfl]

theorem exec_reloadDone_failed (le : Fin 2) (dac : Bool) (s : State)
    (hbusy : s.on (F.LE_TX_PLAN_STAT_reload_busy le.val) = true) (hrun : s.runState le.val = 2)
    (hfirst : s.on (F.ERR_valid (lep le.val 0x10)) = false) :
    ∃ t, exec (.reloadDone le (some dac)) s = .next t ∧ t.runState le.val = 3 ∧
      t.g (F.ERR_code (lep le.val 0x10)) = if dac then 0x85 else 0x87 := by
  cases dac with
  | true =>
    exact ⟨_, by rw [exec_reloadDone, execReloadDone, if_pos hbusy], engineFail_running_stopping le.isLt 6 0x85 s hrun hfirst⟩
  | false =>
    exact ⟨_, by rw [exec_reloadDone, execReloadDone, if_pos hbusy], engineFail_running_stopping le.isLt 8 0x87 s hrun hfirst⟩

/-- R156: at its frame a pending timed change leads to the safe boundary of its engine's domain. -/
def timedStart (le : Nat) (s : State) : State :=
  (s.modTx le fun t => { t with fc := BitVec.ofNat 32 (look s.buffer (F.LE_TX_PLAN_AT_frame le)) }).setB
    (F.LE_TX_PLAN_STAT_timed_pending le) false

theorem timedStart_g (le : Nat) (s : State) {f : Field} (h : f.key ≠ (F.LE_TX_PLAN_STAT_timed_pending le).key) :
    (timedStart le s).g f = s.g f := by
  rw [timedStart, g_setB_other _ _ h, g_modTx]

/-- The frame of a timed change bars no set that was not barred before. -/
theorem engineBarred_timedStart (le : Nat) (s : State) : engineBarred le (timedStart le s) = engineBarred le s := by
  have hmode : (timedStart le s).mode = s.mode := timedStart_g le s (by simp; omega)
  have hrun : (timedStart le s).runState le = s.runState le := timedStart_g le s (by simp; omega)
  have hpd (e : Nat) : pdOf (timedStart le s) e = pdOf s e := by
    simp only [pdOf, State.on]
    rw [timedStart_g le s (by simp; omega), timedStart_g le s (by simp; omega)]
  have hbuffer : (timedStart le s).buffer = s.buffer := by simp [timedStart]
  have hdev : (timedStart le s).dev = s.dev := by simp [timedStart]
  simp only [engineBarred, roleMode, State.inService, hmode, hrun, hpd, hbuffer, hdev]

theorem exec_timedChangeApply_due (le : Fin 2) (s : State) (hs : settled s) (hrun : s.runState le.val = 2)
    (htimed : s.on (F.LE_TX_PLAN_STAT_timed_pending le.val) = true)
    (hpend : s.on (F.PAGE_STAT_commit_pending (lep le.val 0x10)) = true)
    (harmed : s.on (F.PAGE_STAT_commit_armed (lep le.val 0x10)) = false) :
    exec (.timedChangeApply le) s =
      .next (State.evt (lep le.val 0x14) 0 (domApply (lep le.val 0x10) (timedStart le.val s))) := by
  have happly : timedApply le.val s = State.evt (lep le.val 0x14) 0 (domApply (lep le.val 0x10) (timedStart le.val s)) := by
    simp [timedApply, timedStart, htimed, hpend, harmed, hrun]
  have hset : settled (timedApply le.val s) := by
    rw [settled, happly, State.evt_dev, domApply_dev, timedStart, State.setB_dev, State.modTx_dev]
    exact hs
  rw [exec_timedChangeApply, execTimedChangeApply, boot_bcrResume hset, happly]

theorem exec_timedChangeApply_applies (le : Fin 2) (s : State) (hs : settled s) (hrun : s.runState le.val = 2)
    (htimed : s.on (F.LE_TX_PLAN_STAT_timed_pending le.val) = true)
    (hpend : s.on (F.PAGE_STAT_commit_pending (lep le.val 0x10)) = true)
    (harmed : s.on (F.PAGE_STAT_commit_armed (lep le.val 0x10)) = false) (hbar : engineBarred le.val s = false) :
    ∃ t, exec (.timedChangeApply le) s = .next t ∧ t.on (F.LE_TX_PLAN_STAT_timed_pending le.val) = false ∧
      t.g (F.COMMIT_seq (lep le.val 0x10)) = (s.g (F.COMMIT_seq (lep le.val 0x10)) + 1) % 256 ∧ t.sticky (lep le.val 0x14) 0 := by
  have hfree : engineBarred le.val (timedStart le.val s) = false := by rw [engineBarred_timedStart, hbar]
  refine ⟨_, exec_timedChangeApply_due le s hs hrun htimed hpend harmed, ?_, ?_, sticky_evt _ _ _ (by decide)⟩
  · rw [on_evt_other _ _ _ (by simp; omega)]
    refine domApply_engine_timed_off le.isLt _ hfree ?_ (on_setB _ _ _ rfl)
    rwa [State.runState, timedStart_g _ _ (by simp; omega)]
  · rw [g_evt_other _ _ _ (by simp; omega), domApply_engine_g_seq le.isLt _ hfree, timedStart_g _ _ (by simp [lep]; omega)]

/-- Settles O24: each clause is one command, led back to what `startStep`, `engineStopped`, `engineFail` and `domApply` leave in the
engine's own registers. -/
theorem enginesStartAndStop : Obligations.EnginesStartAndStop := by
  refine ⟨fun le ok cals bad s hrun hstep => ?_, fun le cals bad s hrun hstep hready => ?_, fun le s hrun => ?_,
    exec_reloadDone_ok, exec_reloadDone_failed, exec_timedChangeApply_applies⟩
  · exact ⟨_, by rw [exec_engineStartStep, execEngineStartStep, if_pos hrun], engineStartStep_first le.isLt ok cals bad s hrun hstep⟩
  · exact ⟨_, by rw [exec_engineStartStep, execEngineStartStep, if_pos hrun], engineStartStep_last le.isLt cals bad s hstep hready⟩
  · exact ⟨_, by rw [exec_engineStopComplete, execEngineStopComplete, if_pos hrun], engineStopped_runState le.isLt s,
      engineStopped_role le.isLt s⟩

end Sys2Proof.Machine

/-! The register fabric: events and errors (O6, O7), locks (O9). -/

namespace Sys2Proof.Machine

/-! ## EVT_FORCE and ERR_CODE (R54, R55) -/

theorem evtForce_admitted {m : Master} {p : Fin 256} {s : State} (h : s.admits m p.val true) (bits : Nat) :
    evtForce m p.val bits s = State.msiRise (s.access m) p.val
      ((s.access m).setF (F.EVT_STICKY p.val) (s.g (F.EVT_STICKY p.val) ||| bits)) := by
  rw [← g_access m s]
  exact h.runs (pageOf_hdr p.val 0x1C p.isLt (by omega))
    fun u => State.msiRise u p.val (u.setF (F.EVT_STICKY p.val) (u.g (F.EVT_STICKY p.val) ||| bits))

/-- Settles O6: of the registers EVT_FORCE writes EVT_STICKY alone, which takes the OR. -/
theorem eventForceSetsSticky : Obligations.EventForceSetsSticky := by
  intro m p bits s h
  refine ⟨_, by rw [exec_evtForce, execEvtForce, evtForce_admitted h], ?_, ?_⟩
  · rw [g_msiRise, g_setF_same, F.EVT_STICKY_width]
  · rw [g_msiRise, g_setF_other _ _ (by simp), g_access]

/-- R55: the first error of a page holds the step it was met in. -/
theorem err_g_step (p step code : Nat) (s : State) (h : s.on (F.ERR_valid p) = false) :
    (State.err p step code s).g (F.ERR_step p) = step % 256 := by
  unfold State.err
  dsimp only
  rw [if_neg (by simpa [State.on] using h), g_evt_other _ _ _ (by simp; omega), g_setF_other _ _ (by simp), g_setF_same]
  rfl

/-- R55: a later error makes its entry of the log and sets err_lost, no more. -/
theorem err_of_valid (p step code : Nat) {s : State} (h : s.on (F.ERR_valid p) = true) :
    State.err p step code s = (s.logPlain p code 1 (step * 256)).setB (F.ERR_lost p) true := by
  unfold State.err
  dsimp only
  rw [if_pos (by simpa [State.on] using h)]
  simp

/-- R518: while the log runs an ERROR or RECORD entry is made behind those there are. -/
theorem logPlain_made (p code kind arg : Nat) {s : State} (h : s.logRuns = true) :
    (s.logPlain p code kind arg).ev.made =
      s.ev.made ++ [{ stamp := s.now, page := p, code := code, kind := kind, arg := arg }] := by
  simp [State.logPlain, h]

/-- Settles O7: the first error by what it writes of ERR_CODE, a later one by `err_of_valid`. -/
theorem errorCodeHoldsFirst : Obligations.ErrorCodeHoldsFirst := by
  intro p step code s
  refine ⟨fun hfirst => ⟨err_on_valid p step code s, err_g_step p step code s hfirst, err_g_code p step code s hfirst⟩,
    fun hlater => ⟨err_on_valid p step code s, ?_⟩⟩
  rw [err_of_valid p step code hlater]
  refine ⟨on_setB _ _ _ rfl, ?_, ?_, fun hlog => ⟨_, logPlain_made p code 1 _ hlog, rfl, rfl, rfl⟩⟩
  · rw [g_setB_other _ _ (by simp), g_logPlain]
  · rw [g_setB_other _ _ (by simp), g_logPlain]

/-! ## One lock (R67) -/

/-- R67: where the owners of the locks lie: that of a page in its header, those of the general locks on page 0x08. -/
theorem ownerField_key (l : LockId) : (ownerField l).key % 0x8000 = 0x120 ∨
    0x40200 ≤ (ownerField l).key ∧ (ownerField l).key < 0x40A00 := by
  cases l with
  | general n => exact .inr (by simp [ownerField]; omega)
  | page p => exact .inl (by simp [ownerField]; omega)

@[simp] theorem ownerField_width (l : LockId) : (ownerField l).width = 4 := by cases l <;> rfl

theorem mcode_ne_zero (m : Master) : mcode m ≠ 0 := by cases m <;> decide

theorem lockRead_free {m : Master} {l : LockId} {s : State} (h : s.g (ownerField l) = 0) :
    lockRead m l s = (0, (s.access m).setF (ownerField l) (mcode m)) := by
  simp [lockRead, h]

theorem lockRead_held {m : Master} {l : LockId} {s : State} (h : s.g (ownerField l) ≠ 0) :
    lockRead m l s = (0x80000000 + s.g (ownerField l), s.access m) := by
  simp [lockRead, h]

theorem exec_lockAcquire_taken {m : Master} {l : LockId} {s : State} (hreach : s.reaches m (lockPage l) = true)
    (hpage : definedPage (lockPage l) = true) : exec (.lockAcquire m l) s =
      .next { (lockRead m l s).2 with fab := { (lockRead m l s).2.fab with readData := (lockRead m l s).1 } } := by
  simp [execLockAcquire, hreach, hpage]

theorem exec_lockRelease_taken {m : Master} {l : LockId} (v : Word) {s : State} (hreach : s.reaches m (lockPage l) = true)
    (hpage : definedPage (lockPage l) = true) : exec (.lockRelease m l v) s = .next (lockWrite m l v.toNat s) := by
  simp [execLockRelease, hreach, hpage]

theorem exec_lockAcquire_answers (m : Master) (l : LockId) (s : State) (hreach : s.reaches m (lockPage l) = true)
    (hpage : definedPage (lockPage l) = true) :
    ∃ t, exec (.lockAcquire m l) s = .next t ∧
      (s.g (ownerField l) = 0 → t.g (ownerField l) = mcode m ∧ t.fab.readData = 0) ∧
      (s.g (ownerField l) ≠ 0 → t.fields = s.fields ∧ t.fab.readData = 0x80000000 + s.g (ownerField l)) := by
  refine ⟨_, exec_lockAcquire_taken hreach hpage, fun hfree => ?_, fun hheld => ?_⟩
  · rw [lockRead_free hfree]
    refine ⟨(g_setF_same _ _ _).trans ?_, rfl⟩
    rw [ownerField_width, Nat.mod_eq_of_lt (mcode_lt m)]
  · rw [lockRead_held hheld]
    exact ⟨State.access_fields m s, rfl⟩

/-- R67: LOCK_ERR takes the page, an index and the master of an erroneous write, which it counts. -/
theorem lockErr_eq (m : Nat) (l : LockId) (s : State) : ∃ ix, State.lockErr m l s =
    (((s.bump F.LOCK_ERR_count 1).setF F.LOCK_ERR_last_page (lockPage l)).setF F.LOCK_ERR_last_index ix).setF
      F.LOCK_ERR_last_master m := by
  cases l with
  | general n => exact ⟨n.val, rfl⟩
  | page p => exact ⟨0, rfl⟩

theorem lockPage_lt (l : LockId) : lockPage l < 256 := by
  cases l with
  | general n => exact (by decide : 8 < 256)
  | page p => exact p.isLt

/-- R67: an erroneous write of a lock leaves its owner, counts, and leaves its page and its master in LOCK_ERR. -/
theorem lockErr_reports (m : Master) (l : LockId) (s : State) :
    (State.lockErr (mcode m) l s).g (ownerField l) = s.g (ownerField l) ∧
      (State.lockErr (mcode m) l s).g F.LOCK_ERR_count = min (s.g F.LOCK_ERR_count + 1) 16383 ∧
      (State.lockErr (mcode m) l s).g F.LOCK_ERR_last_page = lockPage l ∧
      (State.lockErr (mcode m) l s).g F.LOCK_ERR_last_master = mcode m := by
  obtain ⟨ix, h⟩ := lockErr_eq (mcode m) l s
  have hkey := ownerField_key l
  rw [h]
  refine ⟨?_, ?_, ?_, ?_⟩
  · rw [g_setF_other _ _ (by simp; omega), g_setF_other _ _ (by simp; omega), g_setF_other _ _ (by simp; omega),
      g_bump_other _ _ (by simp; omega)]
  · rw [g_setF_other _ _ (by simp), g_setF_other _ _ (by simp), g_setF_other _ _ (by simp), g_bump_same]
    rfl
  · rw [g_setF_other _ _ (by simp), g_setF_other _ _ (by simp), g_setF_same]
    exact Nat.mod_eq_of_lt (lockPage_lt l)
  · rw [g_setF_same]
    exact Nat.mod_eq_of_lt (mcode_lt m)

theorem lockWrite_owner {m : Master} {l : LockId} {v : Nat} {s : State} (hown : s.g (ownerField l) = mcode m)
    (hv : v % 16 = mcode m) : lockWrite m l v s = (s.access m).setF (ownerField l) 0 := by
  simp [lockWrite, hown, hv, mcode_ne_zero]

/-- R67: any write but the owner's with its own code is an error, which raises lock_err where the lock is held. -/
theorem lockWrite_error {m : Master} {l : LockId} {v : Nat} {s : State}
    (h : s.g (ownerField l) ≠ mcode m ∨ v % 16 ≠ mcode m) :
    lockWrite m l v s = if s.g (ownerField l) = 0 then (s.access m).lockErr (mcode m) l
      else State.evt (lockPage l) 27 ((s.access m).lockErr (mcode m) l) := by
  unfold lockWrite
  simp only [g_access]
  rw [if_neg (c := _ ∧ _) (by tauto)]

/-- Of the registers named here none is an EVT_STICKY, so the event of a refused write leaves them. -/
theorem lockWrite_error_g {m : Master} {l : LockId} {v : Nat} {s : State}
    (h : s.g (ownerField l) ≠ mcode m ∨ v % 16 ≠ mcode m) {f : Field} (hf : f.key ≠ (F.EVT_STICKY (lockPage l)).key) :
    (lockWrite m l v s).g f = ((s.access m).lockErr (mcode m) l).g f := by
  rw [lockWrite_error h]
  split
  · rfl
  · rw [g_evt_other _ _ _ hf]

theorem exec_lockRelease_answers (m : Master) (l : LockId) (v : Word) (s : State)
    (hreach : s.reaches m (lockPage l) = true) (hpage : definedPage (lockPage l) = true) :
    ∃ t, exec (.lockRelease m l v) s = .next t ∧
      (s.g (ownerField l) = mcode m → v.toNat % 16 = mcode m →
        t.g (ownerField l) = 0 ∧ t.g F.LOCK_ERR_count = s.g F.LOCK_ERR_count) ∧
      (s.g (ownerField l) ≠ mcode m ∨ v.toNat % 16 ≠ mcode m →
        t.g (ownerField l) = s.g (ownerField l) ∧ t.g F.LOCK_ERR_count = min (s.g F.LOCK_ERR_count + 1) 16383 ∧
        t.g F.LOCK_ERR_last_page = lockPage l ∧ t.g F.LOCK_ERR_last_master = mcode m ∧
        (s.g (ownerField l) ≠ 0 → t.sticky (lockPage l) 27)) := by
  have hkey := ownerField_key l
  refine ⟨_, exec_lockRelease_taken v hreach hpage, fun hown hv => ?_, fun herr => ?_⟩
  · rw [lockWrite_owner hown hv, g_setF_same, g_setF_other _ _ (by simp; omega), g_access]
    exact ⟨Nat.zero_mod _, rfl⟩
  · obtain ⟨howner, hcount, hwhere, hwho⟩ := lockErr_reports m l (s.access m)
    simp only [g_access] at howner hcount
    refine ⟨?_, ?_, ?_, ?_, fun hheld => ?_⟩
    · rw [lockWrite_error_g herr (by simp; omega), howner]
    · rw [lockWrite_error_g herr (by simp; omega), hcount]
    · rw [lockWrite_error_g herr (by simp; omega), hwhere]
    · rw [lockWrite_error_g herr (by simp; omega), hwho]
    · rw [lockWrite_error herr, if_neg hheld]
      exact sticky_evt _ _ _ (by decide)

/-! ## The locks of a master that is reset (R69) -/

/-- Every lock's owner, in the order in which a master reset goes through them. -/
def lockFields : List Field := (List.range 64).map F.LOCKN_owner ++ (List.range 256).map F.LOCK_owner

theorem mem_lockFields {f : Field} : f ∈ lockFields ↔ ∃ l, f = ownerField l := by
  simp only [lockFields, List.mem_append, List.mem_map, List.mem_range]
  constructor
  · rintro (⟨n, hn, rfl⟩ | ⟨p, hp, rfl⟩)
    · exact ⟨.general ⟨n, hn⟩, rfl⟩
    · exact ⟨.page ⟨p, hp⟩, rfl⟩
  · rintro ⟨n | p, rfl⟩
    · exact .inl ⟨n.val, n.isLt, rfl⟩
    · exact .inr ⟨p.val, p.isLt, rfl⟩

/-- R67: no two locks keep their owner at the same place. -/
theorem lockFields_apart : (lockFields.map Field.key).Nodup := by
  simp only [lockFields, List.map_append, List.map_map]
  refine List.Nodup.append (List.nodup_range.map ?_) (List.nodup_range.map ?_) ?_
  · intro a b h
    simp only [Function.comp_apply, F.LOCKN_owner_key] at h
    omega
  · intro a b h
    simp only [Function.comp_apply, F.LOCK_owner_key] at h
    omega
  · intro k hn hp
    simp only [List.mem_map, List.mem_range, Function.comp_apply, F.LOCKN_owner_key, F.LOCK_owner_key] at hn hp
    omega

/-- The owners of locks lie apart from LOCK_ORPHAN. -/
theorem lockFields_ne_orphan {f : Field} (hf : f ∈ lockFields) :
    f.key ≠ F.LOCK_ORPHAN_count.key ∧ f.key ≠ F.LOCK_ORPHAN_last_master.key := by
  obtain ⟨l, rfl⟩ := mem_lockFields.1 hf
  have hkey := ownerField_key l
  constructor <;> simp <;> omega

theorem g_orphan_same (m : Nat) {f : Field} (hf : f ∈ lockFields) (s : State) :
    (orphan m f s).g f = if s.g f = m then 0 else s.g f := by
  obtain ⟨hcount, hlast⟩ := lockFields_ne_orphan hf
  unfold orphan
  split
  · rw [g_setF_other _ _ hlast, g_bump_other _ _ hcount, g_setF_same, Nat.zero_mod]
  · rfl

theorem g_orphan_other (m : Nat) {f f' : Field} (hf : f ∈ lockFields) (h : f.key ≠ f'.key) (s : State) :
    (orphan m f' s).g f = s.g f := by
  obtain ⟨hcount, hlast⟩ := lockFields_ne_orphan hf
  unfold orphan
  split
  · rw [g_setF_other _ _ hlast, g_bump_other _ _ hcount, g_setF_other _ _ h]
  · rfl

theorem g_orphan_count (m : Nat) {f : Field} (hf : f ∈ lockFields) (s : State) :
    (orphan m f s).g F.LOCK_ORPHAN_count =
      if s.g f = m then min (s.g F.LOCK_ORPHAN_count + 1) 65535 else s.g F.LOCK_ORPHAN_count := by
  unfold orphan
  split
  · rw [g_setF_other _ _ (by simp), g_bump_same, g_setF_other _ _ (lockFields_ne_orphan hf).1.symm]
    rfl
  · rfl

theorem g_forEach_orphan_owner (m : Nat) {f : Field} (hf : f ∈ lockFields) (s : State) :
    (s.forEach lockFields (orphan m)).g f = if s.g f = m then 0 else s.g f :=
  forEach_view_once (·.g f) _ (fun w => if w = m then 0 else w) hf lockFields_apart.of_map (g_orphan_same m hf)
    (fun _ hy hne => g_orphan_other m hf fun e => hne (List.inj_on_of_nodup_map lockFields_apart hy hf e.symm)) s

/-- R69: LOCK_ORPHAN counts one for every lock released, and saturates. -/
theorem g_forEach_orphan_count (m : Nat) {l : List Field} (hl : l ⊆ lockFields) (hapart : (l.map Field.key).Nodup) (s : State) :
    (s.forEach l (orphan m)).g F.LOCK_ORPHAN_count =
      if (l.filter fun f => s.g f == m).length = 0 then s.g F.LOCK_ORPHAN_count
      else min (s.g F.LOCK_ORPHAN_count + (l.filter fun f => s.g f == m).length) 65535 := by
  induction l generalizing s with
  | nil => rfl
  | cons f l ih =>
    obtain ⟨hf, hl⟩ := List.cons_subset.1 hl
    obtain ⟨hfresh, hapart⟩ := List.nodup_cons.1 hapart
    have hrest : (l.filter fun f' => (orphan m f s).g f' == m) = l.filter fun f' => s.g f' == m :=
      List.filter_congr fun f' hf' => by
        rw [g_orphan_other m (hl hf') fun e => hfresh (e ▸ List.mem_map_of_mem hf')]
    change ((orphan m f s).forEach l (orphan m)).g F.LOCK_ORPHAN_count = _
    rw [ih hl hapart, hrest, g_orphan_count m hf]
    by_cases hm : s.g f = m
    · simp only [hm, if_true, List.filter_cons, beq_self_eq_true, List.length_cons]
      rw [if_neg (Nat.succ_ne_zero _)]
      split <;> omega
    · simp [hm]

/-- R67, R69: the bit addresses of the locks' owners and of LOCK_ORPHAN. -/
def lockRegs (k : Nat) : Prop := k % 0x8000 = 0x120 ∨ 0x40200 ≤ k ∧ k < 0x40A40

/-- R69, R75: past the locks a master reset touches nothing of them. -/
theorem masterReset_fits {f : Field} (hf : lockRegs f.key) (m : Master) (stays : Bool) (s : State) :
    Fits (Sparing [.reg f.key]) (s.forEach lockFields (orphan (mcode m))) (masterReset m stays s) := by
  unfold lockRegs at hf
  have hreset : Touches.mbxReset (Sparing [.reg f.key]) := by
    repeat' first | with_reducible intro _ | constructor | (simp [Sparing] <;> omega)
  have hreply {n : Nat} (hn : n < 12) : Touches.replySend (Sparing [.reg f.key]) n := by
    have hpage : pageOf (0x9040 + 0x20 * n) = 0x09 := by unfold pageOf; split <;> omega
    repeat' first | with_reducible intro _ | constructor | (simp [Sparing, hpage] <;> omega)
  have hmbx (u : State) (l : List Nat) : Fits (Sparing [.reg f.key]) u
      ((mbxReset (endpoint m) u).forEach l fun n s => s.setB (F.MBX_STAT_rx_in_reset n) stays) :=
    .forEach _ _ (.mbxReset _ _ (.refl _ _) hreset) fun n t ht => .setB _ _ _ ht (by simp [Sparing]; omega)
  unfold masterReset
  refine .ite (fun _ => .refl _ _) fun _ => ?_
  have hanswers (u : State) : Fits (Sparing [.reg f.key]) u
      (if m = .enclave then { u with fab := { u.fab with replies := [] } } else replySend 7 [] (replySend 3 [] u)) :=
    .ite (fun _ => .upd_fab (.refl _ _) (by simp [Sparing]) _)
      fun _ => .replySend _ _ _ (.replySend _ _ _ (.refl _ _) (hreply (by decide))) (hreply (by decide))
  refine .ite (fun _ => .upd_ev ?_ (by simp [Sparing]) _) fun _ => ?_
  · exact (hmbx _ _).trans (hanswers _)
  · exact (hmbx _ _).trans (hanswers _)

theorem g_masterReset_owner (m : Master) (stays : Bool) (s : State) (l : LockId) :
    (masterReset m stays s).g (ownerField l) = if s.g (ownerField l) = mcode m then 0 else s.g (ownerField l) := by
  have hkey := ownerField_key l
  rw [(masterReset_fits (f := ownerField l) (by unfold lockRegs; omega) m stays s).g_spared (by simp)]
  exact g_forEach_orphan_owner _ (mem_lockFields.2 ⟨l, rfl⟩) s

theorem g_masterReset_count (m : Master) (stays : Bool) (s : State) :
    (masterReset m stays s).g F.LOCK_ORPHAN_count = if locksHeld m s = 0 then s.g F.LOCK_ORPHAN_count
      else min (s.g F.LOCK_ORPHAN_count + locksHeld m s) 65535 := by
  rw [(masterReset_fits (f := F.LOCK_ORPHAN_count) (by simp [lockRegs]) m stays s).g_spared (by simp)]
  exact g_forEach_orphan_count _ (List.Subset.refl _) lockFields_apart s

/-- Settles O9: a read and a write of a lock by its owner before it, a master reset by what it does to one lock after another. -/
theorem locksBehave : Obligations.LocksBehave :=
  ⟨exec_lockAcquire_answers, exec_lockRelease_answers, fun m stays s =>
    ⟨_, by rw [exec_masterReset, execMasterReset], g_masterReset_owner m stays s, g_masterReset_count m stays s⟩⟩

end Sys2Proof.Machine

/-! Mailboxes (O10 to O12), crossings (O13) and MSI-X vectors (O14). -/

namespace Sys2Proof.Machine

/-! ## What an operation leaves of the mailboxes (R70 to R77) -/

/-- The fabric's storage alone decides what the mailboxes hold. -/
theorem mbxQ_of_fab {s t : State} (h : t.fab = s.fab) (k : Nat) : t.mbxQ k = s.mbxQ k := by rw [State.mbxQ, h, State.mbxQ]

@[simp] theorem irqInput_fields (e b : Nat) (f : Nat → Nat) (s : State) : (irqInput e b f s).fields = s.fields := by
  unfold irqInput; split <;> rfl
@[simp] theorem irqInput_mbx (e b : Nat) (f : Nat → Nat) (s : State) : (irqInput e b f s).fab.mbx = s.fab.mbx := by
  unfold irqInput; split <;> rfl
@[simp] theorem irqInput_replies (e b : Nat) (f : Nat → Nat) (s : State) : (irqInput e b f s).fab.replies = s.fab.replies := by
  unfold irqInput; split <;> rfl

@[simp] theorem txAttn_mbx (n : Nat) (s : State) : (txAttn n s).fab.mbx = s.fab.mbx := by simp [txAttn]
@[simp] theorem txAttn_replies (n : Nat) (s : State) : (txAttn n s).fab.replies = s.fab.replies := by simp [txAttn]
@[simp] theorem mbxQ_txAttn (n k : Nat) (s : State) : (txAttn n s).mbxQ k = s.mbxQ k := by simp [State.mbxQ]

@[simp] theorem setMbxQ_mbx (n : Nat) (q : List MbxWord) (s : State) :
    (setMbxQ n q s).fab.mbx = Tbl.set [] s.fab.mbx n q := by simp [setMbxQ, rxPending]
@[simp] theorem setMbxQ_replies (n : Nat) (q : List MbxWord) (s : State) : (setMbxQ n q s).fab.replies = s.fab.replies := by
  simp [setMbxQ, rxPending]
@[simp] theorem mbxQ_setMbxQ_same (n : Nat) (q : List MbxWord) (s : State) : (setMbxQ n q s).mbxQ n = q := by
  simp [State.mbxQ]
theorem mbxQ_setMbxQ_other {n k : Nat} (q : List MbxWord) (s : State) (h : k ≠ n) : (setMbxQ n q s).mbxQ k = s.mbxQ k := by
  simp [State.mbxQ, Tbl.get_set_other _ _ _ _ h]

@[simp] theorem mbxTiming_fields (n : Nat) (s : State) : (mbxTiming n s).fields = s.fields := rfl
@[simp] theorem mbxTiming_replies (n : Nat) (s : State) : (mbxTiming n s).fab.replies = s.fab.replies := rfl
@[simp] theorem mbxQ_mbxTiming (n k : Nat) (s : State) : (mbxTiming n s).mbxQ k = s.mbxQ k := rfl
@[simp] theorem setMbxTimed_fields (n : Nat) (b : Bool) (s : State) : (setMbxTimed n b s).fields = s.fields := rfl
@[simp] theorem setMbxTimed_replies (n : Nat) (b : Bool) (s : State) : (setMbxTimed n b s).fab.replies = s.fab.replies := rfl
@[simp] theorem mbxQ_setMbxTimed (n k : Nat) (b : Bool) (s : State) : (setMbxTimed n b s).mbxQ k = s.mbxQ k := rfl
@[simp] theorem mbxQ_setB (s : State) (f : Field) (b : Bool) (k : Nat) : (s.setB f b).mbxQ k = s.mbxQ k := rfl
@[simp] theorem mbxQ_access (m : Master) (s : State) (k : Nat) : (s.access m).mbxQ k = s.mbxQ k := mbxQ_of_fab (by simp) k
@[simp] theorem mbxQ_datapath (s : State) (n inc k : Nat) : (s.datapath n inc).mbxQ k = s.mbxQ k := rfl

@[simp] theorem mbxDiscard_replies (n k : Nat) (s : State) : (mbxDiscard n k s).fab.replies = s.fab.replies := by
  simp [mbxDiscard]
@[simp] theorem mbxQ_mbxDiscard (n k j : Nat) (s : State) : (mbxDiscard n k s).mbxQ j = s.mbxQ j := by
  rw [mbxDiscard, mbxQ_txAttn]
  exact mbxQ_of_fab (by simp) j

/-- R414: with no reply word kept back for direction `n` nothing is sent on it. -/
theorem replySend_of_none {n : Nat} {s : State} (h : Tbl.get [] s.fab.replies n = []) :
    (replySend n [] s).fields = s.fields ∧ ∀ k, (replySend n [] s).mbxQ k = s.mbxQ k := by
  have hsend : replySend n [] s = { s with fab := { s.fab with replies := Tbl.set [] s.fab.replies n [] } } := by
    simp [replySend, h, replyPump]
  rw [hsend]
  exact ⟨rfl, fun k => rfl⟩

/-! ## The flags of a mailbox (R71, R76) -/

/-- R76: TX_ATTN touches of the registers EVT_STICKY of page 0x09 alone. -/
theorem on_txAttn (n : Nat) (s : State) {f : Field} (h : f.key ≠ (F.EVT_STICKY 0x09).key) : (txAttn n s).on f = s.on f := by
  rw [txAttn, on_of_fields (irqInput_fields _ _ _ _), on_evt_other _ _ _ h]

theorem sticky_txAttn {n : Nat} (hn : n < 12) (s : State) : (txAttn n s).sticky 0x09 (12 + n) :=
  sticky_of_fields (sticky_evt _ _ _ (by omega)) (irqInput_fields _ _ _ _)

theorem sticky_txAttn_of (n : Nat) {q c : Nat} {s : State} (hc : c < 32) (h : s.sticky q c) : (txAttn n s).sticky q c :=
  sticky_of_fields (sticky_evt_of _ _ hc h) (irqInput_fields _ _ _ _)

/-- A level clears no sticky bit. -/
theorem sticky_level_of (p b : Nat) (v : Bool) {q c : Nat} {s : State} (hc : c < 32) (h : s.sticky q c) :
    (State.level p b v s).sticky q c := by
  have hset (k old w : Nat) : ((s.noteWas k old).setF (F.EVT_RAW p) w).sticky q c :=
    sticky_setF _ (by simp; omega) (sticky_of_fields h rfl)
  unfold State.level
  dsimp only
  split
  · split
    · exact h
    · exact sticky_evt_of _ _ hc (hset _ _ _)
  · split
    · exact hset _ _ _
    · exact h

theorem sticky_setMbxQ_of (n : Nat) (l : List MbxWord) {q c : Nat} {s : State} (hc : c < 32) (h : s.sticky q c) :
    (setMbxQ n l s).sticky q c :=
  have hlevel : (State.level 0x09 n (!l.isEmpty) { s with fab := { s.fab with mbx := Tbl.set [] s.fab.mbx n l } }).sticky q c :=
    sticky_level_of _ _ _ hc (sticky_of_fields h rfl)
  sticky_of_fields hlevel (irqInput_fields _ _ _ _)

theorem on_setMbxQ (n : Nat) (l : List MbxWord) (s : State) {f : Field} (h : f.key ≠ (F.EVT_STICKY 0x09).key)
    (h' : f.key ≠ (F.EVT_RAW 0x09).key) : (setMbxQ n l s).on f = s.on f := by
  rw [setMbxQ, rxPending, on_of_fields (irqInput_fields _ _ _ _), State.on, g_level_other _ _ _ _ h h']
  rfl

theorem on_mbxDiscard_same (n k : Nat) (s : State) : (mbxDiscard n k s).on (F.MBX_STAT_discarded n) = true := by
  rw [mbxDiscard, on_txAttn _ _ (by simp; omega), State.on, g_loss_other _ _ _ (by simp)]
  exact on_setB _ _ _ rfl

theorem on_mbxDiscard_other {n j : Nat} (k : Nat) (s : State) (h : j ≠ n) :
    (mbxDiscard n k s).on (F.MBX_STAT_discarded j) = s.on (F.MBX_STAT_discarded j) := by
  rw [mbxDiscard, on_txAttn _ _ (by simp; omega), State.on, g_loss_other _ _ _ (by simp; omega),
    g_setB_other _ _ (by simp; omega), State.on]

theorem sticky_mbxDiscard_of (n k : Nat) {q c : Nat} {s : State} (hc : c < 32) (h : s.sticky q c) :
    (mbxDiscard n k s).sticky q c := by
  refine sticky_txAttn_of n hc (sticky_of_g h ?_)
  rw [g_loss_other _ _ _ (by simp; omega), g_setB_other _ _ (by simp; omega)]

/-! ## MBX_TX and MBX_RX (R71 to R73) -/

theorem pageOf_mbxTx {n : Nat} (h : n < 12) : pageOf (0x9040 + 0x20 * n) = 0x09 :=
  (congrArg pageOf (by omega)).trans (pageOf_hdr 0x09 (0x40 + 0x20 * n) (by decide) (by omega))

section Send

variable {m : Master} {n : Fin 12} {v : Word} {s : State} (hadm : s.admits m 0x09 true)
  (hend : endpoint m = (mbxEnds n.val).1) (hready : s.on (F.MBX_STAT_rx_in_reset n.val) = false)
include hadm hend hready

/-- R73: with 8 words queued the word is dropped. -/
theorem mbxTx_full (hfull : 8 ≤ (s.mbxQ n.val).length) :
    mbxTx m n.val v.toNat s = txAttn n.val ((s.access m).setB (F.MBX_STAT_overrun n.val) true) := by
  unfold mbxTx
  rw [hadm.runs (pageOf_mbxTx n.isLt)]
  simp [hend, hready, hfull]

/-- R71: with room the word is queued last, with the code of its writer. -/
theorem mbxQ_mbxTx_room (hroom : (s.mbxQ n.val).length < 8) :
    (mbxTx m n.val v.toNat s).mbxQ n.val = s.mbxQ n.val ++ [{ word := v, writer := mcode m }] := by
  unfold mbxTx
  rw [hadm.runs (pageOf_mbxTx n.isLt)]
  have hfull : ¬ 8 ≤ (s.mbxQ n.val).length := by omega
  simp only [on_access, mbxQ_access, hend, hready, hfull, ne_eq, not_true_eq_false, if_false, Bool.false_eq_true, mbxQ_datapath]
  split <;> simp

end Send

/-- Settles O11: a full direction drops the word with overrun. -/
theorem fullMailboxDropsWord : Obligations.FullMailboxDropsWord := by
  intro m n v s hadm hend hready hfull
  refine ⟨_, by rw [exec_mbxTx, execMbxTx, mbxTx_full hadm hend hready hfull], ?_, fun k => by simp⟩
  rw [on_txAttn _ _ (by simp; omega)]
  exact on_setB _ _ _ rfl

/-- R72: a read of an empty mailbox reads 0, by whichever master, and leaves the fabric's storage. -/
theorem mbxRx_empty {m : Master} {n : Nat} {s : State} (hreach : s.reaches m 0x09 = true) (hempty : s.mbxQ n = []) :
    (mbxRx m n s).1 = 0 ∧ (mbxRx m n s).2.fab = s.fab := by
  unfold mbxRx
  rw [if_neg (by simp [hreach])]
  dsimp only
  split
  · exact ⟨rfl, by simp⟩
  · rw [mbxQ_access, hempty]
    exact ⟨rfl, by simp⟩

/-- MBX_RX returns what the read of the mailbox delivers. -/
theorem exec_mbxRx_eq (m : Master) (n : Fin 12) (s : State) : exec (.mbxRx m n) s =
    .next { (mbxRx m n.val s).2 with fab := { (mbxRx m n.val s).2.fab with readData := (mbxRx m n.val s).1 } } := rfl

/-- Settles O10: neither the refused read nor the receiver's takes anything from the queues. -/
theorem emptyMailboxReadsZero : Obligations.EmptyMailboxReadsZero := by
  intro m n s hreach hempty
  obtain ⟨hread, hfab⟩ := mbxRx_empty (m := m) hreach hempty
  exact ⟨_, exec_mbxRx_eq m n s, hread, fun k => mbxQ_of_fab (s := s) (t := (mbxRx m n.val s).2) hfab k⟩

/-- R71: the receiver takes the oldest word, and with no reply word kept back the others stay. -/
theorem mbxRx_front {m : Master} {n : Nat} {w : MbxWord} {q : List MbxWord} {s : State} (hreach : s.reaches m 0x09 = true)
    (hend : endpoint m = (mbxEnds n).2) (hq : s.mbxQ n = w :: q) (hnone : Tbl.get [] s.fab.replies n = []) :
    (mbxRx m n s).1 = w.word.toNat ∧ (mbxRx m n s).2.mbxQ n = q := by
  have hsend (u : State) (hu : u.fab.replies = s.fab.replies) : (replySend n [] u).mbxQ n = u.mbxQ n :=
    (replySend_of_none (by rw [hu, hnone])).2 n
  unfold mbxRx
  rw [if_neg (by simp [hreach])]
  dsimp only
  rw [if_neg (by simp [hend]), mbxQ_access, hq]
  refine ⟨rfl, ?_⟩
  dsimp only
  rw [hsend]
  · split <;> simp
  · split <;> simp

theorem exec_mbxRx_front (m : Master) (n : Fin 12) (w : MbxWord) (q : List MbxWord) (s : State)
    (hreach : s.reaches m 0x09 = true) (hend : endpoint m = (mbxEnds n.val).2) (hq : s.mbxQ n.val = w :: q)
    (hnone : Tbl.get [] s.fab.replies n.val = []) :
    ∃ t, exec (.mbxRx m n) s = .next t ∧ t.fab.readData = w.word.toNat ∧ t.mbxQ n.val = q :=
  have hfront := mbxRx_front hreach hend hq hnone
  ⟨_, exec_mbxRx_eq m n s, hfront.1, hfront.2⟩

/-! ## MBX_TIMEOUT (R74) -/

theorem exec_mbxTimeout_due (n : Fin 12) (s : State) (hq : s.mbxQ n.val ≠ [])
    (htimed : Tbl.get false s.fab.mbxTimed n.val = false) :
    ∃ t, exec (.mbxTimeout n) s = .next t ∧ t.on (F.MBX_STAT_timeout n.val) = true ∧ t.sticky 0x09 (12 + n.val) ∧
      ∀ k, t.mbxQ k = s.mbxQ k := by
  have hq' (i : Nat) (k : Nat) : (s.reach i).mbxQ k = s.mbxQ k := mbxQ_of_fab (by simp) k
  have hexec : exec (.mbxTimeout n) s = .next (txAttn n.val (setMbxTimed n.val true
      ((s.reach (mbxDue s n.val)).setB (F.MBX_STAT_timeout n.val) true))) := by
    simp [execMbxTimeout, mbxTimeout, hq, hq', htimed]
  refine ⟨_, hexec, ?_, sticky_txAttn n.isLt _, fun k => by simp [hq']⟩
  rw [on_txAttn _ _ (by simp; omega), on_of_fields (setMbxTimed_fields _ _ _)]
  exact on_setB _ _ _ rfl

/-! ## MBX_HOST_RESET (R75) -/

/-- R75: what the reset of its receiver does to direction `n` where words are queued. -/
def mbxEmpty (n : Nat) (s : State) : State :=
  mbxTiming n (setMbxTimed n false (setMbxQ n [] (mbxDiscard n (s.mbxQ n).length s)))

/-- R75: the reset of an endpoint goes through the directions, in their order. -/
theorem mbxReset_eq (e : Nat) (s : State) : mbxReset e s = s.forEach (List.range 12) fun n s =>
    if (mbxEnds n).2 = e && !(s.mbxQ n).isEmpty then mbxEmpty n s else s := rfl

theorem mbxQ_mbxEmpty_same (n : Nat) (s : State) : (mbxEmpty n s).mbxQ n = [] := by simp [mbxEmpty]

theorem mbxQ_mbxEmpty_other {n k : Nat} (s : State) (h : k ≠ n) : (mbxEmpty n s).mbxQ k = s.mbxQ k := by
  simp [mbxEmpty, mbxQ_setMbxQ_other _ _ h]

/-- R75: direction `n` has been emptied: its words are marked as discarded, with the event at its sender. -/
def Discarded (n : Nat) (s : State) : Prop :=
  s.on (F.MBX_STAT_discarded n) = true ∧ s.sticky 0x09 (12 + n)

theorem discarded_mbxEmpty_same {n : Nat} (hn : n < 12) (s : State) : Discarded n (mbxEmpty n s) := by
  constructor
  · rw [mbxEmpty, on_of_fields (mbxTiming_fields _ _), on_of_fields (setMbxTimed_fields _ _ _),
      on_setMbxQ _ _ _ (by simp; omega) (by simp; omega)]
    exact on_mbxDiscard_same _ _ _
  · exact sticky_of_fields (sticky_setMbxQ_of _ _ (by omega) (sticky_txAttn hn _)) rfl

theorem discarded_mbxEmpty_other {n k : Nat} (hk : k < 12) {s : State} (h : k ≠ n) (hd : Discarded k s) :
    Discarded k (mbxEmpty n s) := by
  obtain ⟨hflag, hevent⟩ := hd
  constructor
  · rw [mbxEmpty, on_of_fields (mbxTiming_fields _ _), on_of_fields (setMbxTimed_fields _ _ _),
      on_setMbxQ _ _ _ (by simp; omega) (by simp; omega), on_mbxDiscard_other _ _ h, hflag]
  · exact sticky_of_fields (sticky_setMbxQ_of _ _ (by omega) (sticky_mbxDiscard_of _ _ (by omega) hevent)) rfl

/-- A property that each change of the list keeps holds after them all. -/
theorem forEach_keeps {α : Type} {P : State → Prop} {g : α → State → State} {l : List α} {s : State}
    (hstep : ∀ x ∈ l, ∀ s, P s → P (g x s)) (h : P s) : P (s.forEach l g) := by
  induction l generalizing s with
  | nil => exact h
  | cons x l ih => exact ih (fun y hy => hstep y (by simp [hy])) (hstep x (by simp) s h)

/-- R75: the reset of an endpoint empties the directions to it. -/
theorem mbxQ_mbxReset {e n : Nat} (hn : n < 12) (he : (mbxEnds n).2 = e) (s : State) : (mbxReset e s).mbxQ n = [] := by
  rw [mbxReset_eq]
  refine forEach_view_once (·.mbxQ n) _ (fun _ => []) (List.mem_range.2 hn) List.nodup_range (fun s => ?_)
    (fun k _ hk s => ?_) s
  · split
    · exact mbxQ_mbxEmpty_same n s
    next hempty => simpa [he] using hempty
  · split
    · exact mbxQ_mbxEmpty_other s hk.symm
    · rfl

/-- R75: words that the reset of an endpoint has taken from a direction are marked as discarded. -/
theorem discarded_mbxReset {n : Nat} (hn : n < 12) (e : Nat) {s : State} (hq : s.mbxQ n ≠ []) :
    (mbxReset e s).mbxQ n = [] → Discarded n (mbxReset e s) := by
  rw [mbxReset_eq]
  refine forEach_keeps (P := fun t => t.mbxQ n = [] → Discarded n t) (fun k _ t ht => ?_) fun h => absurd h hq
  split
  · by_cases hk : n = k
    · exact fun _ => hk ▸ discarded_mbxEmpty_same hn t
    · rw [mbxQ_mbxEmpty_other t hk]
      exact fun h => discarded_mbxEmpty_other hn hk (ht h)
  · exact ht

theorem mbxReset_replies (e : Nat) (s : State) : (mbxReset e s).fab.replies = s.fab.replies := by
  rw [mbxReset_eq]
  refine forEach_view_unchanged (·.fab.replies) _ (fun n _ s => ?_) s
  split
  · simp [mbxEmpty]
  · rfl

theorem exec_mbxHostReset_host (m : Master) (n : Fin 12) (s : State) (hadm : s.admits m 0x09 true) (hhost : endpoint m = 0)
    (hto : (mbxEnds n.val).2 = 0) (hnone : Tbl.get [] s.fab.replies 3 = []) :
    ∃ t, exec (.mbxHostReset m) s = .next t ∧ t.mbxQ n.val = [] ∧
      (s.mbxQ n.val ≠ [] → t.on (F.MBX_STAT_discarded n.val) = true ∧ t.sticky 0x09 (12 + n.val)) := by
  have hnone' : Tbl.get [] (mbxReset 0 (s.access m)).fab.replies 3 = [] := by
    rw [mbxReset_replies, State.access_fab, hnone]
  have hempty := mbxQ_mbxReset n.isLt hto (s.access m)
  have hrun : mbxHostReset m s = replySend 3 [] (mbxReset 0 (s.access m)) := by
    unfold mbxHostReset
    rw [hadm.runs (by decide)]
    simp [hhost]
  obtain ⟨hfields, hqueues⟩ := replySend_of_none hnone'
  refine ⟨_, by rw [exec_mbxHostReset, execMbxHostReset, hrun], (hqueues _).trans hempty, fun hq => ?_⟩
  obtain ⟨hflag, hevent⟩ := discarded_mbxReset n.isLt 0 (s := s.access m) (by simpa using hq) hempty
  exact ⟨(on_of_fields hfields _).trans hflag, sticky_of_fields hevent hfields⟩

/-- Settles O12: each clause is one command, by what it leaves of the queue it works on. -/
theorem mailboxCommandsRun : Obligations.MailboxCommandsRun :=
  ⟨fun m n _ _ hadm hend hready hroom =>
      ⟨_, by rw [exec_mbxTx, execMbxTx], mbxQ_mbxTx_room hadm hend hready hroom⟩,
    exec_mbxRx_front, exec_mbxTimeout_due, exec_mbxHostReset_host⟩

/-! ## Crossings (R81, R82) -/

/-- R82: crossing `d` is marked in a pair of registers of 32 bits each. -/
def Marked (lo hi : Field) (d : Nat) (s : State) : Prop :=
  (d < 32 → (s.g lo).testBit d = true) ∧ (32 ≤ d → (s.g hi).testBit (d - 32) = true)

section Marks

variable {lo hi : Field}

theorem Marked.of_g {d : Nat} {s t : State} (h : Marked lo hi d s) (hlo : t.g lo = s.g lo) (hhi : t.g hi = s.g hi) :
    Marked lo hi d t := by
  rwa [Marked, hlo, hhi]

variable (wlo : lo.width = 32) (whi : hi.width = 32)
include wlo whi

theorem marked_setDomBit {d : Nat} (hd : d < 64) (s : State) : Marked lo hi d (setDomBit lo hi d s) := by
  unfold setDomBit
  split
  next h =>
    refine ⟨fun _ => ?_, fun h' => by omega⟩
    rw [g_setF_same, wlo, Nat.testBit_mod_two_pow]
    simp [h]
  next h =>
    refine ⟨fun h' => absurd h' h, fun _ => ?_⟩
    rw [g_setF_same, whi, Nat.testBit_mod_two_pow]
    simp
    omega

/-- A crossing that is marked stays marked with any other. -/
theorem marked_setDomBit_of (hapart : lo.key ≠ hi.key) (d : Nat) {c : Nat} (hc : c < 64) {s : State} (h : Marked lo hi c s) :
    Marked lo hi c (setDomBit lo hi d s) := by
  obtain ⟨hlow, hhigh⟩ := h
  unfold setDomBit
  split
  · refine ⟨fun h => ?_, fun h => ?_⟩
    · rw [g_setF_same, wlo, Nat.testBit_mod_two_pow]
      simp [h, hlow h]
    · rw [g_setF_other _ _ hapart.symm, hhigh h]
  · refine ⟨fun h => ?_, fun h => ?_⟩
    · rw [g_setF_other _ _ hapart, hlow h]
    · rw [g_setF_same, whi, Nat.testBit_mod_two_pow]
      simp [hhigh h]
      omega

end Marks

theorem setDomBit_g_other {lo hi f : Field} (hlo : f.key ≠ lo.key) (hhi : f.key ≠ hi.key) (d : Nat) (s : State) :
    (setDomBit lo hi d s).g f = s.g f := by
  unfold setDomBit
  split
  · exact g_setF_other _ _ hlo
  · exact g_setF_other _ _ hhi

/-- R81: the crossing is marked, and the event of the destination's page raised, before a counter is. -/
def pulseMark (dom p : Nat) (counter : Option (Fin 512)) (s : State) : State :=
  State.evt p 29 (setDomBit F.XS_PULSE_SAT_LO_bits F.XS_PULSE_SAT_HI_bits dom
    { s with fab := { s.fab with pulses := Tbl.set 0 s.fab.pulses (pulseKey dom p counter) 65535 } })

theorem exec_pulseSat_none (dom : Fin 64) (p : Fin 256) (s : State) :
    exec (.pulseSat dom p none) s = .next (pulseMark dom.val p.val none s) := rfl

theorem exec_pulseSat_some (dom : Fin 64) (p : Fin 256) (n : Fin 512) (s : State) : exec (.pulseSat dom p (some n)) s =
    .next (State.evt 0xF8 3 ((pulseMark dom.val p.val (some n) s).setB (F.CNT_SEL_sat n.val) true)) := rfl

theorem pulseMark_reports {dom : Nat} (hd : dom < 64) (p : Nat) (c : Option (Fin 512)) (s : State) :
    (pulseMark dom p c s).sticky p 29 ∧ Marked F.XS_PULSE_SAT_LO_bits F.XS_PULSE_SAT_HI_bits dom (pulseMark dom p c s) :=
  ⟨sticky_evt _ _ _ (by decide),
    (marked_setDomBit rfl rfl hd _).of_g (g_evt_other _ _ _ (by simp; omega)) (g_evt_other _ _ _ (by simp; omega))⟩

theorem exec_pulseSat_reports (dom : Fin 64) (p : Fin 256) (c : Option (Fin 512)) (s : State) :
    ∃ t, exec (.pulseSat dom p c) s = .next t ∧ t.sticky p.val 29 ∧
      (dom.val < 32 → (t.g F.XS_PULSE_SAT_LO_bits).testBit dom.val = true) ∧
      (32 ≤ dom.val → (t.g F.XS_PULSE_SAT_HI_bits).testBit (dom.val - 32) = true) ∧
      ∀ n, c = some n → t.on (F.CNT_SEL_sat n.val) = true := by
  obtain ⟨hevent, hmark⟩ := pulseMark_reports dom.isLt p.val c s
  cases c with
  | none => exact ⟨_, exec_pulseSat_none dom p s, hevent, hmark.1, hmark.2, nofun⟩
  | some n =>
    have hother {f : Field} (h : f.key ≠ (F.EVT_STICKY 0xF8).key) (h' : f.key ≠ (F.CNT_SEL_sat n.val).key) (u : State) :
        (State.evt 0xF8 3 (u.setB (F.CNT_SEL_sat n.val) true)).g f = u.g f := by
      rw [g_evt_other _ _ _ h, g_setB_other _ _ h']
    obtain ⟨hlo, hhi⟩ := hmark.of_g (hother (by simp) (by simp; omega) _) (hother (by simp) (by simp; omega) _)
    refine ⟨_, exec_pulseSat_some dom p n s, ?_, hlo, hhi, ?_⟩
    · exact sticky_evt_of _ _ (by decide) (sticky_setF _ (by simp; omega) hevent)
    · intro _ heq
      obtain rfl := Option.some.inj heq
      rw [on_evt_other _ _ _ (by simp; omega), on_setB _ _ _ rfl]

/-- R82: of the registers the loss count and the two events of a resynchronisation touch three. -/
theorem fifoResync_g_other (a b pa pb d : Nat) (s : State) {f : Field} (ha : f.key ≠ (F.EVT_STICKY pa).key)
    (hb : f.key ≠ (F.EVT_STICKY pb).key) (hcount : f.key ≠ F.XS_DROP_CNT_count.key) :
    (fifoResync a b pa pb d s).g f = (setDomBit F.XS_RESYNC_LO_bits F.XS_RESYNC_HI_bits b
      (setDomBit F.XS_RESYNC_LO_bits F.XS_RESYNC_HI_bits a s)).g f := by
  rw [fifoResync, g_evt_other _ _ _ hb, g_evt_other _ _ _ ha, g_loss_other _ _ _ hcount]

theorem fifoResync_g_dropped (a b pa pb d : Nat) (s : State) : (fifoResync a b pa pb d s).g F.XS_DROP_CNT_count =
    if d = 0 then s.g F.XS_DROP_CNT_count else min (s.g F.XS_DROP_CNT_count + d) 0xFFFFFFFF := by
  have hmarks (u : State) (k : Nat) : (setDomBit F.XS_RESYNC_LO_bits F.XS_RESYNC_HI_bits k u).g F.XS_DROP_CNT_count =
      u.g F.XS_DROP_CNT_count := setDomBit_g_other (by simp) (by simp) k u
  rw [fifoResync, g_evt_other _ _ _ (by simp; omega), g_evt_other _ _ _ (by simp; omega)]
  split
  next h => rw [State.loss, if_pos h, hmarks, hmarks]
  next h =>
    rw [g_loss_pos _ _ _ h, hmarks, hmarks]
    rfl

theorem fifoResync_marks {a b : Nat} (ha : a < 64) (hb : b < 64) (pa pb d : Nat) (s : State) {k : Nat} (hk : k ∈ [a, b]) :
    Marked F.XS_RESYNC_LO_bits F.XS_RESYNC_HI_bits k (fifoResync a b pa pb d s) := by
  have hboth : Marked F.XS_RESYNC_LO_bits F.XS_RESYNC_HI_bits k (setDomBit F.XS_RESYNC_LO_bits F.XS_RESYNC_HI_bits b
      (setDomBit F.XS_RESYNC_LO_bits F.XS_RESYNC_HI_bits a s)) := by
    obtain rfl | rfl : k = a ∨ k = b := by simpa using hk
    · exact marked_setDomBit_of rfl rfl (by simp) b ha (marked_setDomBit rfl rfl ha s)
    · exact marked_setDomBit rfl rfl hb _
  exact hboth.of_g (fifoResync_g_other _ _ _ _ _ _ (by simp; omega) (by simp; omega) (by simp))
    (fifoResync_g_other _ _ _ _ _ _ (by simp; omega) (by simp; omega) (by simp))

/-- R82: the lost frames of a port lie behind its page's header and the marks of the crossings. -/
theorem resyncLost_g (a b d : Nat) (s : State) {f : Field} (hf : f.key % 0x8000 < 0x800) :
    (resyncLost a b d s).g f = s.g f := by
  unfold resyncLost
  split
  · exact g_bump_other _ _ (by simp; omega)
  · rfl

/-- Settles O13: each report by the operation that makes it, which the events and counts after it leave. -/
theorem crossingsReport : Obligations.CrossingsReport := by
  refine ⟨exec_pulseSat_reports, fun a b pa pb d s => ⟨_, by rw [exec_fifoResync, execFifoResync], ?_, ?_, ?_, fun k hk => ?_⟩⟩
  · exact sticky_of_g (sticky_evt_of _ _ (by decide) (sticky_evt _ _ _ (by decide))) (resyncLost_g _ _ _ _ (by simp; omega))
  · exact sticky_of_g (sticky_evt _ _ _ (by decide)) (resyncLost_g _ _ _ _ (by simp; omega))
  · rw [resyncLost_g _ _ _ _ (by simp), fifoResync_g_dropped]
  · exact (fifoResync_marks a.isLt b.isLt _ _ d s hk).of_g (resyncLost_g _ _ _ _ (by simp)) (resyncLost_g _ _ _ _ (by simp))

/-! ## Vectors (R87) -/

/-- R84, R87: register contents alone decide a vector's summary. -/
theorem vecSummary_of_fields {s t : State} (h : t.fields = s.fields) (v : Nat) : t.vecSummary v = s.vecSummary v := by
  simp only [State.vecSummary, State.summary, on_of_fields h, g_of_fields h]

theorem msiSend_sends {s : State} {v : Nat} (h : s.ev.canSend v = true) :
    Tbl.get 0 (s.msiSend v).ev.msiSent v = Tbl.get 0 s.ev.msiSent v + 1 ∧
      (s.msiSend v).ev.msiPend = s.ev.msiPend := by
  simp [State.msiSend, h]

theorem msiSend_pends {s : State} {v : Nat} (h : s.ev.canSend v = false) :
    Tbl.get false (s.msiSend v).ev.msiPend v = true := by
  rw [State.msiSend, if_neg (by simp [h])]
  exact Tbl.get_set_same false s.ev.msiPend v true

/-- R531: an access is counted, and nothing of the vectors changes. -/
theorem access_ev (m : Master) (s : State) : ∃ incs, (s.access m).ev = { s.ev with incs := incs } := by
  unfold State.access
  split
  · exact ⟨_, rfl⟩
  · exact ⟨_, rfl⟩

theorem exec_vecEoi_answers (m : Master) (v : Fin 64) (s : State) (hadm : s.admits m 0x01 true)
    (hsum : s.vecSummary v.val = true) :
    ∃ t, exec (.vecEoi m v) s = .next t ∧
      (s.ev.canSend v.val = true → Tbl.get 0 t.ev.msiSent v.val = Tbl.get 0 s.ev.msiSent v.val + 1) ∧
      (s.ev.canSend v.val = false → Tbl.get false t.ev.msiPend v.val = true) := by
  obtain ⟨incs, hev⟩ := access_ev m s
  have hcan : (s.access m).ev.canSend v.val = s.ev.canSend v.val := by rw [hev]; rfl
  have hsent : (s.access m).ev.msiSent = s.ev.msiSent := by rw [hev]
  have hrun : vecEoi m v.val s = (s.access m).msiSend v.val := by
    unfold vecEoi
    rw [hadm.runs (by decide), if_pos (by rw [vecSummary_of_fields (State.access_fields m s), hsum])]
  refine ⟨_, by rw [exec_vecEoi, execVecEoi, hrun], fun h => ?_, fun h => msiSend_pends (hcan.trans h)⟩
  rw [(msiSend_sends (hcan.trans h)).1, hsent]

/-- R87: the function can send again, vector `v` is unmasked and pends no more. -/
def unpend (v : Nat) (s : State) : State :=
  { s with ev := { s.ev with linkUp := true, msiEnabled := true, funcUnmasked := true, d3hot := false,
                             msiUnmasked := Tbl.set false s.ev.msiUnmasked v true,
                             msiPend := Tbl.set false s.ev.msiPend v false } }

theorem exec_msixPendingSend_pending {v : Fin 64} {s : State} (h : Tbl.get false s.ev.msiPend v.val = true) :
    exec (.msixPendingSend v) s =
      .next (if s.vecSummary v.val then (unpend v.val s).msiSend v.val else unpend v.val s) := by
  simp [execMsixPendingSend, h, unpend]

theorem unpend_canSend (v : Nat) (s : State) : (unpend v s).ev.canSend v = true := by
  simp [unpend, Events.canSend]

theorem unpend_msiPend (v : Nat) (s : State) : Tbl.get false (unpend v s).ev.msiPend v = false :=
  Tbl.get_set_same false s.ev.msiPend v false

/-- Settles O14: both commands end in `msiSend`, which sends where the vector can and pends where it cannot. -/
theorem vectorsSend : Obligations.VectorsSend := by
  refine ⟨exec_vecEoi_answers, fun v s hpend => ⟨_, exec_msixPendingSend_pending hpend, ?_⟩⟩
  split
  next hsum =>
    obtain ⟨hsent, hpend'⟩ := msiSend_sends (unpend_canSend v.val s)
    refine ⟨by rw [hpend', unpend_msiPend], ?_⟩
    rw [hsent, hsum]
    rfl
  next hsum =>
    refine ⟨unpend_msiPend v.val s, ?_⟩
    rw [(Bool.not_eq_true _).mp hsum]
    rfl

end Sys2Proof.Machine

/-! COMMIT: go, check, discard (O16, O17); a soft reset of an engine whose receive page is held idle (O19). -/

namespace Sys2Proof.Machine

/-! ## A write of COMMIT (R56, R68) -/

/-- R56: under no LOCK of another master each command bit of COMMIT runs its command. -/
theorem commitWrite_runs {m : Master} {p : Fin 256} {s : State} (h : s.admits m p.val true) :
    commitWrite m p.val 1 s = commitGo (mcode m) p.val (s.access m) ∧
      commitWrite m p.val 2 s = commitCheck (mcode m) p.val (s.access m) ∧
      commitWrite m p.val 4 s = commitDiscard p.val (s.access m) := by
  have hlock : s.lockedOut (mcode m) p.val = false := h.2.2.2
  have hpage : pageOf (p.val * 0x1000 + 0x20) = p.val := pageOf_hdr p.val 0x20 p.isLt (by omega)
  refine ⟨?_, ?_, ?_⟩ <;> (unfold commitWrite; rw [if_neg (by simp [hlock])]; exact h.runs hpage _)

/-! ## A COMMIT rejected (R58, R60, R63) -/

section Reject

variable (p r : Nat) (s : State)

@[simp] theorem commitReject_inForce : (commitReject p r s).inForce = s.inForce := by simp [commitReject]
@[simp] theorem commitReject_buffer : (commitReject p r s).buffer = s.buffer := by simp [commitReject]

/-- R63: a rejection raises its event on the page written, sets commit_err and leaves its reason; a pending COMMIT stays so. -/
theorem commitReject_reports :
    (commitReject p r s).on (F.PAGE_STAT_commit_pending (domainOf p)) = s.on (F.PAGE_STAT_commit_pending (domainOf p)) ∧
      (commitReject p r s).on (F.PAGE_STAT_commit_err (domainOf p)) = true ∧
      (commitReject p r s).g (F.PAGE_STAT_commit_reason (domainOf p)) = r % 256 ∧ (commitReject p r s).sticky p 30 := by
  refine ⟨?_, ?_, ?_, sticky_evt _ _ _ (by decide)⟩ <;> unfold commitReject
  · rw [on_evt_other _ _ _ (by simp; omega), on_setF_other _ _ (by simp), on_setB_other _ _ (by simp)]
  · rw [on_evt_other _ _ _ (by simp; omega), on_setF_other _ _ (by simp), on_setB _ _ _ rfl]
  · rw [g_evt_other _ _ _ (by simp; omega), g_setF_same]
    rfl

end Reject

theorem commitBar_of_pending {p : Nat} {s : State} (h : s.on (F.PAGE_STAT_commit_pending (domainOf p)) = true) :
    commitBar s p = 0x0A := by
  simp [commitBar, h]

theorem commitBar_of_up {p : Nat} {s : State} (h : s.on (F.PAGE_STAT_commit_pending (domainOf p)) = false)
    (hup : s.domainUp (domainOf p) = true) : commitBar s p = 0 := by
  simp [commitBar, h, hup]

/-- R60: while a COMMIT is pending, a go and a check alike are rejected with BUSY. -/
theorem commit_busy (m : Nat) {p : Nat} {s : State} (h : s.on (F.PAGE_STAT_commit_pending (domainOf p)) = true) :
    commitGo m p s = commitReject p 0x0A s ∧ commitCheck m p s = commitReject p 0x0A s := by
  constructor
  · simp [commitGo, commitBar_of_pending h]
  · simp [commitCheck, commitBar_of_pending h]

/-- Settles O17: both commands end in the same rejection, which keeps all of the COMMIT that is pending. -/
theorem pendingCommitIsBusy : Obligations.PendingCommitIsBusy := by
  intro m p s c hadm hpend hc
  obtain ⟨hgo, hcheck, -⟩ := commitWrite_runs hadm
  obtain ⟨hbusyGo, hbusyCheck⟩ := commit_busy (mcode m) (s := s.access m) ((on_access m s _).trans hpend)
  have hexec : exec c s = .next (commitReject p.val 0x0A (s.access m)) := by
    obtain rfl | rfl := hc
    · rw [exec_commitGo, execCommitGo, hgo, hbusyGo]
    · rw [exec_commitCheck, execCommitCheck, hcheck, hbusyCheck]
  obtain ⟨hkept, herr, hreason, hevent⟩ := commitReject_reports p.val 0x0A (s.access m)
  exact ⟨_, hexec, by simp, by simp, hkept.trans ((on_access m s _).trans hpend), herr, hreason, hevent⟩

/-! ## An accepted go (R58, R61, R156) -/

/-- R58, R156, R165: where in their pages commit_pending, acquisitions and timed_pending lie, which an accepted go writes. -/
def acceptBits : List Nat := [0x6E, 0x2D0, 0x29E]

/-- R156, R165: what an accepted go does in an engine's own registers. -/
def acceptEngine (d : Nat) (s : State) : State :=
  if d = 0x10 ∨ d = 0x50 then
    let le := if d = 0x10 then 0 else 1
    let s := acqReset d s
    if s.runState le = 2 ∧ txTimed s.inForce (commitSet d s) le then s.setB (F.LE_TX_PLAN_STAT_timed_pending le) true else s
  else s

/-- R58 step 4: the COMMIT of domain `d` is pending. -/
def acceptPending (d : Nat) (s : State) : State := acceptEngine d (s.setB (F.PAGE_STAT_commit_pending d) true)

theorem commitAccept_eq (d : Nat) (s : State) : commitAccept d s =
    if (acceptPending d s).on (F.PAGE_CTRL_commit_sync d) then (acceptPending d s).setB (F.PAGE_STAT_commit_armed d) true
    else if !(acceptPending d s).domainUp d && fabHeld d then domApply d (acceptPending d s) else acceptPending d s := rfl

theorem acceptEngine_fits (d : Nat) (s : State) :
    Fits (only [] [fun k => k % 0x8000 = 0x2D0 ∨ k % 0x8000 = 0x29E]) s (acceptEngine d s) := by
  have hreset := Fits.acqReset (N := only [] [fun k => k % 0x8000 = 0x2D0 ∨ k % 0x8000 = 0x29E]) d s (.refl _ _)
    ⟨fun le => by simp [only, regs]; omega⟩
  have htimed (le : Nat) : only [] [fun k => k % 0x8000 = 0x2D0 ∨ k % 0x8000 = 0x29E]
      (.reg (F.LE_TX_PLAN_STAT_timed_pending le).key) := by simp [only, regs]; omega
  unfold acceptEngine
  exact .ite (fun _ => .ite (fun _ => .setB _ _ _ hreset (htimed _)) fun _ => hreset) fun _ => .refl _ _

section Accept

variable (d : Nat) (s : State)

theorem acceptPending_g {f : Field} (hf : f.key % 0x8000 ∉ acceptBits) : (acceptPending d s).g f = s.g f := by
  simp only [acceptBits, List.mem_cons, List.not_mem_nil, or_false, not_or] at hf
  rw [acceptPending, (acceptEngine_fits d _).g (by simp [only, regs, hf]), g_setB_other _ _ (by simp; omega)]

theorem acceptPending_on_pending : (acceptPending d s).on (F.PAGE_STAT_commit_pending d) = true := by
  rw [acceptPending, State.on, (acceptEngine_fits d _).g (by simp [only, regs]; omega)]
  exact on_setB _ _ _ rfl

theorem acceptPending_dev : (acceptPending d s).dev = s.dev := (acceptEngine_fits d _).within .dev (by simp [only])

theorem acceptPending_inForce : (acceptPending d s).inForce = s.inForce :=
  (acceptEngine_fits d _).within .inForce (by simp [only])

theorem acceptPending_buffer : (acceptPending d s).buffer = s.buffer :=
  (acceptEngine_fits d _).within .buffer (by simp [only])

/-- R126: an accepted go starts and stops no clock domain. -/
theorem acceptPending_domainUp (p : Nat) : (acceptPending d s).domainUp p = s.domainUp p := by
  have hmode := acceptPending_g d s (f := F.DEV_MODE_mode) (by simp [acceptBits])
  have hlane (i k : Nat) := acceptPending_g d s (f := F.HL_LANE_STAT_state i k) (by simp [acceptBits]; omega)
  have hrun (le : Nat) := acceptPending_g d s (f := F.LE_ROLE_STAT_run_state le) (by simp [acceptBits]; omega)
  have hbusy := acceptPending_g d s (f := F.CAL_FG_busy) (by simp [acceptBits])
  have hengine := acceptPending_g d s (f := F.CAL_FG_engine) (by simp [acceptBits])
  simp [State.domainUp, State.inService, State.inStandby, State.mode, State.runState, State.on, acceptPending_dev, hmode, hlane,
    hrun, hbusy, hengine]

/-- R58 step 4: where the block's domain runs, an accepted go is pending, and armed besides under commit_sync. -/
theorem commitAccept_of_up (hup : s.domainUp d = true) : commitAccept d s =
    if s.on (F.PAGE_CTRL_commit_sync d) then (acceptPending d s).setB (F.PAGE_STAT_commit_armed d) true else acceptPending d s := by
  have hsync : (acceptPending d s).on (F.PAGE_CTRL_commit_sync d) = s.on (F.PAGE_CTRL_commit_sync d) := by
    rw [State.on, acceptPending_g d s (by simp [acceptBits]; omega), State.on]
  rw [commitAccept_eq, hsync, acceptPending_domainUp, hup]
  simp

theorem commitAccept_reports (hup : s.domainUp d = true) :
    (commitAccept d s).inForce = s.inForce ∧ (commitAccept d s).buffer = s.buffer ∧
      (commitAccept d s).on (F.PAGE_STAT_commit_pending d) = true ∧ (commitAccept d s).on (F.PAGE_STAT_commit_armed d) =
        (s.on (F.PAGE_CTRL_commit_sync d) || s.on (F.PAGE_STAT_commit_armed d)) := by
  rw [commitAccept_of_up d s hup]
  split
  next hsync =>
    refine ⟨acceptPending_inForce d s, acceptPending_buffer d s, ?_, ?_⟩
    · rw [on_setB_other _ _ (by simp), acceptPending_on_pending]
    · rw [on_setB _ _ _ rfl, hsync, Bool.true_or]
  next hsync =>
    refine ⟨acceptPending_inForce d s, acceptPending_buffer d s, acceptPending_on_pending d s, ?_⟩
    rw [(Bool.not_eq_true _).mp hsync, Bool.false_or, State.on, acceptPending_g d s (by simp [acceptBits]; omega), State.on]

end Accept

/-! ## Go, check and discard (R58, R59, R60) -/

/-- R58 step 1: the copy of a staged set writes no register. -/
@[simp] theorem commitCopy_fields (p : Nat) (s : State) : (commitCopy p s).fields = s.fields := rfl
@[simp] theorem commitCopy_inForce (p : Nat) (s : State) : (commitCopy p s).inForce = s.inForce := rfl

theorem domainUp_commitCopy (p q : Nat) (s : State) : (commitCopy p s).domainUp q = s.domainUp q := rfl

section Admitted

variable {m : Master} {p : Fin 256} {s : State} (hadm : s.admits m p.val true)
include hadm

section Checked

variable (hup : s.domainUp (domainOf p.val) = true) (hfree : s.on (F.PAGE_STAT_commit_pending (domainOf p.val)) = false)
  (hok : checkedOk m p.val s)
include hup hfree hok

theorem exec_commitGo_accepted :
    exec (.commitGo m p) s = .next (commitAccept (domainOf p.val) (commitCopy p.val (s.access m))) := by
  have hbar : commitBar (s.access m) p.val = 0 := commitBar_of_up (by simpa using hfree) (by simpa using hup)
  have hcheck : domCheck (mcode m) (domainOf p.val) (commitSet (domainOf p.val) (commitCopy p.val (s.access m)))
      (commitCopy p.val (s.access m)) = 0 := hok
  rw [exec_commitGo, execCommitGo, (commitWrite_runs hadm).1]
  simp [commitGo, hbar, hcheck]

theorem exec_commitCheck_accepted : exec (.commitCheck m p) s = .next (State.evt p.val 31
    ((commitCopy p.val (s.access m)).setB (F.PAGE_STAT_commit_err (domainOf p.val)) false)) := by
  have hbar : commitBar (s.access m) p.val = 0 := commitBar_of_up (by simpa using hfree) (by simpa using hup)
  have hcheck : domCheck (mcode m) (domainOf p.val) (commitSet (domainOf p.val) (commitCopy p.val (s.access m)))
      (commitCopy p.val (s.access m)) = 0 := hok
  rw [exec_commitCheck, execCommitCheck, (commitWrite_runs hadm).2.1]
  simp [commitCheck, hbar, hcheck]

theorem exec_commitGo_reports : ∃ t, exec (.commitGo m p) s = .next t ∧ t.inForce = s.inForce ∧
    t.buffer = Tbl.overlay (inDomain (domainOf p.val)) s.staged s.buffer ∧
    t.on (F.PAGE_STAT_commit_pending (domainOf p.val)) = true ∧
    t.on (F.PAGE_STAT_commit_armed (domainOf p.val)) =
      (s.on (F.PAGE_CTRL_commit_sync (domainOf p.val)) || s.on (F.PAGE_STAT_commit_armed (domainOf p.val))) := by
  have hup' : (commitCopy p.val (s.access m)).domainUp (domainOf p.val) = true := by rw [domainUp_commitCopy, domainUp_access, hup]
  have hon (f : Field) : (commitCopy p.val (s.access m)).on f = s.on f := on_of_fields (by simp) f
  obtain ⟨hforce, hbuffer, hpend, harmed⟩ := commitAccept_reports _ _ hup'
  refine ⟨_, exec_commitGo_accepted hadm hup hfree hok, by simp [hforce], ?_, hpend, by rw [harmed, hon, hon]⟩
  rw [hbuffer, commitCopy, State.access_staged, State.access_buffer]

theorem exec_commitCheck_reports : ∃ t, exec (.commitCheck m p) s = .next t ∧ t.inForce = s.inForce ∧ t.sticky p.val 31 ∧
    t.on (F.PAGE_STAT_commit_err (domainOf p.val)) = false ∧
    t.g (F.COMMIT_seq (domainOf p.val)) = s.g (F.COMMIT_seq (domainOf p.val)) := by
  refine ⟨_, exec_commitCheck_accepted hadm hup hfree hok, by simp, sticky_evt _ _ _ (by decide), ?_, ?_⟩
  · rw [on_evt_other _ _ _ (by simp; omega), on_setB _ _ _ rfl]
  · rw [g_evt_other _ _ _ (by simp; omega), g_setB_other _ _ (by simp; omega), g_of_fields (commitCopy_fields _ _), g_access]

end Checked

omit hadm in
/-- R60: a COMMIT that is armed is cancelled whether or not it is pending. -/
theorem commitCancel_of_armed (d : Nat) (h : s.on (F.PAGE_STAT_commit_armed d) = true) :
    (commitCancel d s).on (F.PAGE_STAT_commit_armed d) = false ∧ (commitCancel d s).on (F.PAGE_STAT_commit_pending d) = false ∧
      (commitCancel d s).g (F.PAGE_STAT_commit_reason d) = 0x0E := by
  refine ⟨?_, ?_, ?_⟩ <;> simp only [commitCancel, h, Bool.or_true, if_true]
  · rw [on_evt_other _ _ _ (by simp; omega), on_setF_other _ _ (by simp), on_setB_other _ _ (by simp), on_setB _ _ _ rfl]
  · rw [on_evt_other _ _ _ (by simp; omega), on_setF_other _ _ (by simp), on_setB_other _ _ (by simp),
      on_setB_other _ _ (by simp), on_setB _ _ _ rfl]
  · rw [g_evt_other _ _ _ (by simp; omega), g_setF_same]
    rfl

omit hadm in
@[simp] theorem commitCancel_inForce (d : Nat) : (commitCancel d s).inForce = s.inForce := by
  unfold commitCancel; split <;> simp
omit hadm in
@[simp] theorem commitCancel_staged (d : Nat) : (commitCancel d s).staged = s.staged := by
  unfold commitCancel; split <;> simp

omit hadm in
theorem commitDiscard_sets (q : Nat) : (commitDiscard q s).inForce = s.inForce ∧
    (commitDiscard q s).staged = Tbl.overlay (inDomain (domainOf q)) s.inForce s.staged := by
  unfold commitDiscard
  dsimp only
  split <;> simp

omit hadm in
theorem commitDiscard_fields {q : Nat} (harmed : s.on (F.PAGE_STAT_commit_armed (domainOf q)) = true)
    (htimed : timedOf s (domainOf q) = false) : (commitDiscard q s).fields = (commitCancel (domainOf q) s).fields := by
  simp [commitDiscard, harmed, htimed]

theorem exec_commitDiscard_reports : ∃ t, exec (.commitDiscard m p) s = .next t ∧ t.inForce = s.inForce ∧
    t.staged = Tbl.overlay (inDomain (domainOf p.val)) s.inForce s.staged ∧
    (s.on (F.PAGE_STAT_commit_armed (domainOf p.val)) = true → timedOf s (domainOf p.val) = false →
      t.on (F.PAGE_STAT_commit_armed (domainOf p.val)) = false ∧ t.on (F.PAGE_STAT_commit_pending (domainOf p.val)) = false ∧
      t.g (F.PAGE_STAT_commit_reason (domainOf p.val)) = 0x0E) := by
  obtain ⟨hforce, hstaged⟩ := commitDiscard_sets (s := s.access m) p.val
  refine ⟨_, by rw [exec_commitDiscard, execCommitDiscard, (commitWrite_runs hadm).2.2], by simp [hforce], by simp [hstaged],
    fun harmed htimed => ?_⟩
  have harmed' : (s.access m).on (F.PAGE_STAT_commit_armed (domainOf p.val)) = true := by rw [on_access, harmed]
  have hfields := commitDiscard_fields harmed' (by simpa [timedOf] using htimed)
  rw [on_of_fields hfields, on_of_fields hfields, g_of_fields hfields]
  exact commitCancel_of_armed _ harmed'

end Admitted

/-- Settles O16: an accepted go by `commitAccept`, which leaves the set in force while the block's domain runs, a check by the event it
ends in, a discard by the two sets and the COMMIT it may cancel. -/
theorem commitCommandsRun : Obligations.CommitCommandsRun :=
  ⟨fun _ _ _ => exec_commitGo_reports, fun _ _ _ => exec_commitCheck_reports, fun _ _ _ => exec_commitDiscard_reports⟩

/-! ## A soft reset (R53) -/

/-- R60: a cancelled COMMIT leaves the registers outside PAGE_STAT and EVT_STICKY. -/
theorem commitCancel_g_outside (d : Nat) (s : State) {f : Field} (hf : f.key % 0x8000 < 0x60 ∨ 0xC0 ≤ f.key % 0x8000) :
    (commitCancel d s).g f = s.g f := by
  unfold commitCancel
  dsimp only
  split
  · rw [g_evt_other _ _ _ (by simp; omega), g_setF_other _ _ (by simp; omega), g_setB_other _ _ (by simp; omega),
      g_setB_other _ _ (by simp; omega), g_setB_other _ _ (by simp; omega)]
  · rfl

/-- R53, R170: while its receive page is held idle an engine stays in IDLE, whatever state it is taken to. -/
theorem rxGo_of_page_off {le v : Nat} {s : State} (hoff : s.pageOn (lep le 0x18) = false)
    (hidle : s.g (F.LE_RX_STATE_state le) = 0) : rxGo le v s = s := by
  simp [rxGo, hoff, hidle]

theorem softLogic_of_page_off {s : State} (hrun : s.runState 0 = 2) (hoff : s.pageOn 0x18 = false)
    (hidle : s.g (F.LE_RX_STATE_state 0) = 0) : (softLogic 0x10 s).g (F.LE_RX_STATE_state 0) = 0 := by
  unfold softLogic
  dsimp only
  rw [if_pos rfl, if_pos hrun, rxGo_of_page_off, g_modTx, hidle]
  · rwa [State.pageOn, State.on, g_modTx]
  · rw [g_modTx, hidle]

/-- R53: a soft reset of LE0 leaves a receiver that is held idle in IDLE, though the engine runs. -/
theorem softReset_of_page_off {s : State} (hrun : s.runState 0 = 2) (hoff : s.pageOn 0x18 = false)
    (hidle : s.g (F.LE_RX_STATE_state 0) = 0) : (softReset 0x10 s).g (F.LE_RX_STATE_state 0) = 0 := by
  have hcancel {f : Field} (hf : f.key % 0x8000 < 0x60 ∨ 0xC0 ≤ f.key % 0x8000)
      (ht : f.key ≠ (F.LE_TX_PLAN_STAT_timed_pending 0).key) :
      (commitCancel 0x10 (s.setB (F.LE_TX_PLAN_STAT_timed_pending 0) false)).g f = s.g f := by
    rw [commitCancel_g_outside _ _ hf, g_setB_other _ _ ht]
  have hreset : softReset 0x10 s = softLogic 0x10 (commitCancel 0x10 (s.setB (F.LE_TX_PLAN_STAT_timed_pending 0) false)) := rfl
  rw [hreset]
  refine softLogic_of_page_off ?_ ?_ ?_
  · rwa [State.runState, hcancel (by simp) (by simp)]
  · rwa [State.pageOn, State.on, hcancel (by simp) (by simp)]
  · rw [hcancel (by simp) (by simp), hidle]

/-- LE0 runs, in SERVICE, with its receive page held idle (PAGE_CTRL.enable of page 0x18 is 0). -/
def receiveHeldIdle : State :=
  ((State.reset.setF F.DEV_MODE_mode 4).setF (F.LE_ROLE_STAT_run_state 0) 2).setF (F.PAGE_CTRL_enable 0x18) 0

/-- Refutes O19: a soft reset takes the receiver of a running engine to SIGNAL_WAIT only where its receive page is enabled; with
PAGE_CTRL.enable of page 0x18 at 0 it stays in IDLE. -/
theorem not_snapshotsSyncAndReset : ¬ Obligations.SnapshotsSyncAndReset := by
  intro h
  obtain ⟨-, -, -, -, -, -, hreset⟩ := h
  have hadm : receiveHeldIdle.admits .mgmt 0x10 true := by unfold State.admits; decide +kernel
  obtain ⟨t, ht, -, -, -, -, hengine, -⟩ := hreset .mgmt 0x10 receiveHeldIdle hadm
  have hwait : t.g (F.LE_RX_STATE_state 0) = 1 := (hengine 0 (by decide)).2 (by decide +kernel)
  have hidle : (softReset 0x10 (receiveHeldIdle.access .mgmt)).g (F.LE_RX_STATE_state 0) = 0 :=
    softReset_of_page_off (by decide +kernel) (by decide +kernel) (by decide +kernel)
  have hexec : exec (.softReset .mgmt 0x10) receiveHeldIdle = .next (softReset 0x10 (receiveHeldIdle.access .mgmt)) :=
    congrArg Host.Outcome.next (hadm.runs (by decide) _)
  obtain rfl : softReset 0x10 (receiveHeldIdle.access .mgmt) = t := Host.Outcome.next.inj (hexec.symm.trans ht)
  omega

end Sys2Proof.Machine

/-! Every command answers (O4). -/

namespace Sys2Proof.Machine

/-- The outcome is a next state, as `goesOn` tests it. -/
def Answers (o : Host.Outcome State Fault Refusal) : Prop := ∃ t, o = .next t

theorem Answers.next (t : State) : Answers (.next t) := ⟨t, rfl⟩

theorem Answers.ite {c : Prop} [Decidable c] {a b : Host.Outcome State Fault Refusal} (ha : c → Answers a)
    (hb : ¬ c → Answers b) : Answers (if c then a else b) := by
  split
  next h => exact ha h
  next h => exact hb h

/-- A command that is well formed ends each of its branches in a next state. The meanings named are those that branch over what a table
or a list holds before anything else; the others are seen to be a next state, or a choice between two. -/
theorem exec_answers {i : Instr} (s : State) (h : wellFormed i = true) : Answers (exec i s) := by
  cases i
  all_goals first
    | dsimp only [exec_pulseSat, execPulseSat, exec_burstTransmit, execBurstTransmit, exec_discoveryBurst,
    execDiscoveryBurst, exec_discoveryWaitExpiry, execDiscoveryWaitExpiry, exec_burstLossDetect, execBurstLossDetect, exec_mspStatus,
    execMspStatus, exec_propose, execPropose, exec_accept, execAccept, exec_reject, execReject, exec_arm, execArm, exec_reqRemove,
    execReqRemove, exec_capabilityFrame, execCapabilityFrame, exec_spareReqRepeat, execSpareReqRepeat, exec_spareSwitch,
    execSpareSwitch, exec_secondPass, execSecondPass, exec_recircTimeout, execRecircTimeout, exec_packetRelease, execPacketRelease,
    exec_injDone, execInjDone, exec_retireCopyDone, execRetireCopyDone, exec_retireSwitch, execRetireSwitch, exec_rowrepTestDone,
    execRowrepTestDone, exec_kxInit, execKxInit, exec_kxResp, execKxResp, exec_kxConfirm, execKxConfirm, exec_kxAck, execKxAck,
    exec_kxSwitch, execKxSwitch, exec_kxAbort, execKxAbort, exec_chgExpiry, execChgExpiry, exec_overrideEnd, execOverrideEnd,
    exec_ubhResend, execUbhResend, exec_adjustComplete, execAdjustComplete, exec_rotationSwap, execRotationSwap, exec_evlEntry,
    execEvlEntry, exec_sorterRelease, execSorterRelease, exec_foldWindowEnd, execFoldWindowEnd, exec_sampleRecord, execSampleRecord,
    exec_periodicTest, execPeriodicTest, execCoreTestStart]
    | exact .next _
    | refine .ite (fun _ => ?_) fun _ => ?_
  all_goals repeat' first
    | with_reducible exact .next _
    | with_reducible refine .ite (fun _ => ?_) fun _ => ?_
    | split
    | dsimp only
  all_goals simp_all [wellFormed]

/-- A command that is not well formed is one of the eight whose meaning begins with its own check. -/
theorem exec_illFormed {i : Instr} (s : State) (h : wellFormed i = false) : exec i s = .fault .illFormed := by
  cases i with
  | preambleDetect le sc bands found rho arrival => exact if_pos (by simpa [wellFormed] using h)
  | burstHeaderDecode le sc w band hdr => exact if_pos (by simpa [wellFormed] using h)
  | burstRxDone le sc w band evm power failed cd => exact if_pos (by simpa [wellFormed] using h)
  | idleMeasure le sc w band power => exact if_pos (by simpa [wellFormed] using h)
  | defectDeclare d x far => exact if_pos (by simpa [wellFormed] using h)
  | defectClear d x => exact if_pos (by simpa [wellFormed] using h)
  | trainingComplete k taps => exact if_pos (by simpa [wellFormed] using h)
  | modeReqNotAllowed m code maint => exact if_neg (by simpa [wellFormed] using h)
  | _ => nomatch h

/-- Settles O4: `exec_answers` for the commands that are well formed, `exec_illFormed` for the others. -/
theorem wellFormedCommandsRun : Obligations.WellFormedCommandsRun :=
  fun _ s => ⟨exec_answers s, exec_illFormed s⟩

end Sys2Proof.Machine

/-! The SPI slave and the GPIO balls (O15). -/

namespace Sys2Proof.Machine

/-! ## A watched access (R89, R561) -/

/-- R561: the state in which a watched access begins: a full count of fabric errors leaves room for one more. -/
def watchedStart (s : State) : State :=
  if s.g F.FAB_ERR_CNT_count = 2 ^ F.FAB_ERR_CNT_count.width - 1 then
    s.setF F.FAB_ERR_CNT_count (2 ^ F.FAB_ERR_CNT_count.width - 1 - 1)
  else s

/-- What the watch does after the access is a write of the count of fabric errors, if anything. -/
theorem watched_cases (f : State → State) (s : State) : (watched f s).2 = f (watchedStart s) ∨
    ∃ v, (watched f s).2 = (f (watchedStart s)).setF F.FAB_ERR_CNT_count v := by
  unfold watched watchedStart
  dsimp only
  generalize f _ = t
  split
  · exact .inr ⟨_, rfl⟩
  · exact .inl rfl

theorem watched_g (f : State → State) (s : State) {x : Field} (hx : x.key ≠ F.FAB_ERR_CNT_count.key) :
    (watched f s).2.g x = (f (watchedStart s)).g x := by
  obtain h | ⟨v, h⟩ := watched_cases f s
  · rw [h]
  · rw [h, g_setF_other _ _ hx]

theorem watched_dev (f : State → State) (s : State) : (watched f s).2.dev = (f (watchedStart s)).dev := by
  obtain h | ⟨v, h⟩ := watched_cases f s
  · rw [h]
  · rw [h, State.setF_dev]

theorem watchedStart_g (s : State) {x : Field} (hx : x.key ≠ F.FAB_ERR_CNT_count.key) : (watchedStart s).g x = s.g x := by
  unfold watchedStart
  split
  · exact g_setF_other _ _ hx
  · rfl

@[simp] theorem watchedStart_dev (s : State) : (watchedStart s).dev = s.dev := by unfold watchedStart; split <;> rfl

theorem watchedStart_reaches (s : State) (m : Master) (p : Nat) : (watchedStart s).reaches m p = s.reaches m p := by
  have hmode : (watchedStart s).mode = s.mode := watchedStart_g s (by simp)
  unfold State.reaches
  rw [hmode, watchedStart_dev]

/-- R50, R51: a write that a page takes in clk_fab it takes from the state a watch begins in. -/
theorem State.admits.watchedStart {s : State} {m : Master} {p : Nat} (h : s.admits m p true) :
    (Machine.watchedStart s).admits m p true := by
  obtain ⟨hreach, hpage, -, hlock⟩ := h
  refine ⟨by rwa [watchedStart_reaches], hpage, .inl rfl, ?_⟩
  rwa [State.lockedOut, watchedStart_g _ (by simp; omega)]

/-! ## The words of the SPI slave (R123, R561) -/

theorem frontEnd_of_mode {s : State} (h : s.mode ≠ 0) : frontEnd s = false := by simp [frontEnd, h]

/-- R53: EVT_EN takes the word that a master writes at its address. -/
theorem busWrite_evtEn {m : Master} {p : Fin 256} {s : State} (h : s.admits m p.val true) (v : Nat) :
    busWrite m (p.val * 0x1000 + 0x18) v s =
      State.msiRise (s.access m) p.val ((s.access m).setF (F.EVT_EN p.val) v) := by
  rw [busWrite_header p.isLt (by decide) h.1 h.2.1]
  exact h.runs (pageOf_hdr p.val 0x18 p.isLt (by decide)) fun s => State.msiRise s p.val (s.setF (F.EVT_EN p.val) v)

/-- R123, R561: outside DORMANT one word written over SPI is a write of the bus that is watched. -/
theorem exec_spiWrite_one {p : Fin 256} {off : Nat} (hoff : off < 0x1000) (h4 : off % 4 = 0) (v : Word) {s : State}
    (hmode : s.mode ≠ 0) : exec (.spiWrite (BitVec.ofNat 26 (p.val * 0x1000 + off)) [v] 0) s = .next (boot
      { (watched (busWrite .spi (p.val * 0x1000 + off) v.toNat) s).2 with
        spi := { (watched (busWrite .spi (p.val * 0x1000 + off) v.toNat) s).2.spi with
          err := (watched (busWrite .spi (p.val * 0x1000 + off) v.toNat) s).1 } }) := by
  have hp := p.isLt
  have hto : (BitVec.ofNat 26 (p.val * 0x1000 + off) : Addr).toNat / 4 * 4 = p.val * 0x1000 + off := by
    rw [toNat_ofNat_addr (by omega)]
    omega
  have hmod : (p.val * 0x1000 + off) % 2 ^ 26 = p.val * 0x1000 + off := Nat.mod_eq_of_lt (by omega)
  rw [exec_spiWrite, execSpiWrite, hto]
  simp only [List.take, List.map, spiWords, spiWriteWord, frontEnd_of_mode hmode, hmod]
  simp

theorem exec_spiWrite_evtEn (p : Fin 256) (v : Word) (s : State) (h : s.admits .spi p.val true) (hmode : s.mode ≠ 0)
    (hs : settled s) : ∃ t, exec (.spiWrite (BitVec.ofNat 26 (p.val * 0x1000 + 0x18)) [v] 0) s = .next t ∧
      t.g (F.EVT_EN p.val) = v.toNat := by
  have hbus := busWrite_evtEn h.watchedStart v.toNat
  refine ⟨_, exec_spiWrite_one (by decide) (by decide) v hmode, ?_⟩
  rw [boot_of_not_pending (by simp only [watched_dev, hbus]; simpa using hs.1)]
  change (watched _ s).2.g _ = _
  rw [watched_g _ _ (by simp; omega), hbus, g_msiRise, g_setF_same]
  exact Nat.mod_eq_of_lt v.isLt

/-- R53: EVT_STICKY as a read of it shows it. -/
theorem busRead_evtSticky {m : Master} {p : Fin 256} {s : State} (hreach : s.reaches m p.val = true)
    (hpage : definedPage p.val = true) :
    busRead m (p.val * 0x1000 + 0x14) s = (s.g (F.EVT_STICKY p.val), s.access m) := by
  have hp := p.isLt
  have hof : pageOf (p.val * 0x1000 + 0x14) = p.val := pageOf_hdr p.val 0x14 hp (by decide)
  have hmod : (p.val * 0x1000 + 0x14) % 0x1000 = 0x14 := by omega
  have hlow : p.val * 0x1000 + 0x14 < 0x100000 := by omega
  unfold busRead
  simp [hof, hreach, hpage, hmod, hlow, headerRead]

/-- R123, R561: outside DORMANT one word read over SPI is what the bus reads. -/
theorem spiReadWord_of_mode (addr : Nat) {s : State} (hmode : s.mode ≠ 0) : spiReadWord addr s =
    ((busRead .spi addr s).1, { (watched (fun s => (busRead .spi addr s).2) s).2 with
      spi := { (watched (fun s => (busRead .spi addr s).2) s).2.spi with
        err := (watched (fun s => (busRead .spi addr s).2) s).1 } }) := by
  simp [spiReadWord, frontEnd_of_mode hmode]

theorem exec_spiRead_evtSticky (p : Fin 256) (s : State) (hreach : s.reaches .spi p.val = true)
    (hpage : definedPage p.val = true) (hmode : s.mode ≠ 0) (hs : settled s) :
    ∃ t, exec (.spiRead (BitVec.ofNat 26 (p.val * 0x1000 + 0x14)) 1) s = .next t ∧
      t.spi.words = [s.g (F.EVT_STICKY p.val)] := by
  have hp := p.isLt
  have hto : (BitVec.ofNat 26 (p.val * 0x1000 + 0x14) : Addr).toNat / 4 * 4 = p.val * 0x1000 + 0x14 := by
    rw [toNat_ofNat_addr (by omega)]
    omega
  have hmod : (p.val * 0x1000 + 0x14) % 2 ^ 26 = p.val * 0x1000 + 0x14 := Nat.mod_eq_of_lt (by omega)
  have hword := spiReadWord_of_mode (p.val * 0x1000 + 0x14) hmode
  rw [busRead_evtSticky hreach hpage] at hword
  rw [exec_spiRead, execSpiRead, hto]
  simp only [spiReads, hmod, hword]
  refine ⟨_, rfl, ?_⟩
  rw [boot_of_not_pending]
  rw [watched_dev, busRead_evtSticky (by rwa [watchedStart_reaches]) hpage]
  simpa using hs.1

theorem exec_spiStatus_word (waiting : Bool) (s : State) : ∃ t, exec (.spiStatus waiting) s = .next t ∧
    t.spi.words = [waiting.toNat + 2 * s.spi.err.toNat + 4 * (s.mode == 0 && s.dev.vaon).toNat] :=
  ⟨_, rfl, rfl⟩

/-! ## The GPIO balls (R562) -/

/-- R562: a ball that changes takes the level. -/
theorem gpioLevel_in {n : Nat} (hn : n < 16) (v : Bool) {s : State} (h : (s.g F.GPIO_IN_in).testBit n = !v) :
    ((gpioLevel n v s).g F.GPIO_IN_in).testBit n = v := by
  have hset : ((s.setF F.GPIO_IN_in (s.g F.GPIO_IN_in ^^^ 2 ^ n)).g F.GPIO_IN_in).testBit n = v := by
    rw [g_setF_same, F.GPIO_IN_in_width, Nat.testBit_mod_two_pow, Nat.testBit_xor, h, Nat.testBit_two_pow_self]
    simp [hn]
  unfold gpioLevel
  dsimp only
  rw [if_neg (by simp [h])]
  split
  · split
    · rwa [g_evt_other _ _ _ (by simp)]
    · exact hset
  · split
    · rwa [g_evt_other _ _ _ (by simp)]
    · exact hset

/-- R562: the change of a ball raises its event where that edge is enabled. -/
theorem gpioLevel_sticky {n : Nat} (hn : n < 16) (v : Bool) {s : State} (h : (s.g F.GPIO_IN_in).testBit n = !v)
    (hedge : (if v then s.g F.GPIO_EDGE_rising else s.g F.GPIO_EDGE_falling).testBit n = true) :
    (gpioLevel n v s).sticky 0x06 n := by
  unfold gpioLevel
  dsimp only
  rw [if_neg (by simp [h])]
  cases v <;> simp only [Bool.false_eq_true, if_true, if_false] at hedge ⊢ <;>
    rw [g_setF_other _ _ (by simp), if_pos hedge] <;> exact sticky_evt _ _ _ (by omega)

theorem exec_gpioEdge_input (n : Fin 16) (rising : Bool) (s : State) (hdir : (s.g F.GPIO_DIR_dir).testBit n.val = false)
    (hup : s.domainUp 0x06 = true) (h : (s.g F.GPIO_IN_in).testBit n.val = !rising) :
    ∃ t, exec (.gpioEdge n rising) s = .next t ∧ (t.g F.GPIO_IN_in).testBit n.val = rising ∧
      ((if rising then s.g F.GPIO_EDGE_rising else s.g F.GPIO_EDGE_falling).testBit n.val = true → t.sticky 0x06 n.val) :=
  ⟨_, by rw [exec_gpioEdge, execGpioEdge, if_neg (by simp [hdir, hup])], gpioLevel_in n.isLt rising h,
    gpioLevel_sticky n.isLt rising h⟩

/-- Settles O15: the words by what the bus does with them under the watch, the balls by `gpioLevel`. -/
theorem pinAccessesRun : Obligations.PinAccessesRun :=
  ⟨exec_spiWrite_evtEn, exec_spiRead_evtSticky, exec_spiStatus_word, exec_gpioEdge_input⟩

end Sys2Proof.Machine

/-! What the device modes leave as it is: the frame of everything a reset, a WAKE or a request does beside the mode. -/

namespace Sys2Proof.Machine

/-! ## The registers of the modes (R91, R98, R100, R101) -/

/-- What is said of a change of mode is read from these: DEV_MODE, DEV_WAKE_SRC, the causes of a reset and of a zeroisation. -/
def modeFields : List Field :=
  [F.DEV_MODE_mode, F.DEV_MODE_mode_prev, F.DEV_MODE_transition, F.DEV_MODE_req_result, F.DEV_WAKE_SRC_source,
   F.DEV_RESET_CAUSE_porst, F.DEV_RESET_CAUSE_reset_cmd, F.DEV_RESET_CAUSE_safe_cmd, F.DEV_RESET_CAUSE_enclave_fault,
   F.DEV_RESET_CAUSE_dormant_exit, F.TMP_STAT_latched, F.TMP_STAT_latched_causes, F.ENC_ZREC_active]

/-- The registers of the modes, the storage of device and enclave, and package memory. -/
def modeParts : List Part := .dev :: .enc :: .bufMem :: modeFields.map fun f => .reg f.key

/-- The bit addresses of the registers of the modes. -/
theorem sparing_modeParts_reg {k : Nat} : Sparing modeParts (.reg k) ↔
    k ∉ [0x210, 0x214, 0x21F, 0x218, 0x240, 0x266, 0x265, 0x264, 0x263, 0x262, 0x7E821F, 0x7E8208, 0x7E027F] := by
  simp [Sparing, modeParts, modeFields]

/-- What a change of mode brings with it in the other blocks. -/
structure Touches.modeAsides (N : Part → Prop) : Prop where
  h_ev : N .ev
  c_evt : ∀ p, Touches.evt N p
  c_portsAll : Touches.portsAll N
  c_engineOff0 : Touches.engineOff N 0
  c_engineOff1 : Touches.engineOff N 1
  c_cipErase : Touches.cipErase N
  c_evlFlush : Touches.evlFlush N
  c_evlMarker : Touches.evlMarker N
  c_rulesMode : Touches.rulesMode N
  c_aonLocks : Touches.aonLocks N
  c_deliverRules : Touches.deliverRules N
  c_encReport : Touches.encReport N
  c_modUbh : ∀ le, Touches.modUbh N le
  c_ubhRun : ∀ le, Touches.ubhRun N le

theorem modeAsides_sparing : Touches.modeAsides (Sparing modeParts) := by
  have hevt (p : Nat) : Touches.evt (Sparing modeParts) p :=
    ⟨by simp [Sparing, modeParts, modeFields], ⟨sparing_modeParts_reg.2 (by simp; omega)⟩⟩
  repeat' first
    | with_reducible intro _
    | with_reducible exact hevt _
    | constructor
    | (simp [sparing_modeParts_reg, lep] <;> omega)
    | simp [Sparing, modeParts, modeFields]

end Sys2Proof.Machine

/-! What a reset, a WAKE and its boot make of the registers of the modes, package memory and the device storage. -/

namespace Sys2Proof.Machine

/-! ## A change that keeps the modes -/

/-- The registers of the modes, the storage of device and enclave, and package memory stay as they are. -/
abbrev ModesKept (s t : State) : Prop := Fits (Sparing modeParts) s t

theorem ModesKept.mode_g {s t : State} (h : ModesKept s t) {f : Field} (hf : f ∈ modeFields) : t.g f = s.g f :=
  h.g_spared (by simp only [modeParts, List.mem_cons, List.mem_map]; exact .inr (.inr (.inr ⟨f, hf, rfl⟩)))

theorem ModesKept.mode {s t : State} (h : ModesKept s t) : t.mode = s.mode := h.mode_g (by simp [modeFields])

theorem ModesKept.dev {s t : State} (h : ModesKept s t) : t.dev = s.dev := h.dev_spared (by simp [modeParts])

theorem ModesKept.enc {s t : State} (h : ModesKept s t) : t.enc = s.enc := h.within .enc (by simp [Sparing, modeParts])

theorem ModesKept.mem {s t : State} (h : ModesKept s t) : t.buf.mem = s.buf.mem :=
  h.within .bufMem (by simp [Sparing, modeParts])

theorem modesKept_evt (p b : Nat) (s : State) : ModesKept s (State.evt p b s) := .evt _ _ _ (.refl _ _) (modeAsides_sparing.c_evt p)

theorem modesKept_enginesOff (s : State) : ModesKept s (s.forEach (List.range 2) engineOff) :=
  .engineOff 1 _ (.engineOff 0 s (.refl _ _) modeAsides_sparing.c_engineOff0) modeAsides_sparing.c_engineOff1

/-! ## The reports after a reset -/

theorem convReport_sparing_modes {le lane : Nat} (hle : le < 2) (hlane : lane < 4) :
    Touches.convReport (Sparing modeParts) le lane := by
  repeat' first
    | constructor
    | (simp [sparing_modeParts_reg] <;> omega)
    | simp [Sparing, modeParts, modeFields]

theorem modesKept_keptReport (s : State) : ModesKept s (keptReport s) := by
  have hconv : ModesKept s (s.forEach (List.range 2) fun le s =>
      s.forEach (List.range 8) fun i s => convReport le (i / 4 == 1) (i % 4) s) :=
    .forEachMem _ _ (.refl _ _) fun le hle t ht => .forEach _ _ ht fun i u hu =>
      .convReport _ _ _ _ hu (convReport_sparing_modes (List.mem_range.1 hle) (Nat.mod_lt _ (by decide)))
  refine .setF _ _ _ (.setB _ _ _ (.setB _ _ _ (.setB _ _ _ (.setB _ _ _ (.setF _ _ _ hconv ?_) ?_) ?_) ?_) ?_) ?_ <;>
    simp [sparing_modeParts_reg]

/-- A field of the modes that Hamper or the enclave holds over a reset (R100, R101, R410, R425). -/
def heldField (f : Field) : Bool := aonKey f.key || nvKey f.key

theorem Tbl.find_overlay_chosen {α : Type} (p : Nat → Bool) (src dst : Tbl α) {k : Nat} (h : p k = true) :
    Tbl.find (Tbl.overlay p src dst) k = Tbl.find src k := by
  unfold Tbl.overlay
  induction src with
  | nil => simp [Tbl.find, Tbl.find_filter dst (fun i => !p i) k, h]
  | cons e src ih =>
    by_cases hk : e.1 = k
    · simp [Tbl.find, hk, h]
    · by_cases hp : p e.1 = true
      · simp [Tbl.find, hk, hp, Tbl.find_insert_other _ _ (Ne.symm hk), ih]
      · simp [Tbl.find, hk, hp, ih]

theorem modesKept_aonLocks (s : State) : ModesKept s (aonLocks s) := .aonLocks _ (.refl _ _) modeAsides_sparing.c_aonLocks

/-- R91, R106, R121: a reset leaves the fields of the modes that Hamper or the enclave holds. -/
theorem resetBlocks_g_held (log mem : Bool) (s : State) {f : Field} (hf : f ∈ modeFields) (hk : heldField f = true) :
    (resetBlocks log mem s).g f = s.g f := by
  unfold resetBlocks
  rw [(modesKept_keptReport _).mode_g hf, (modesKept_aonLocks _).mode_g hf]
  simp only [heldField, Bool.or_eq_true] at hk
  simp only [State.g, look, Tbl.get]
  rw [Tbl.find_overlay_chosen _ _ _ (by simp; tauto)]

theorem resetBlocks_mode (log mem : Bool) (s : State) : (resetBlocks log mem s).mode = 1 := by
  unfold resetBlocks
  rw [(modesKept_keptReport _).mode, (modesKept_aonLocks _).mode]
  simp only [State.mode, State.g, look, Tbl.get]
  rw [Tbl.find_overlay_other _ _ _ (by cases log <;> decide)]
  rfl

theorem resetBlocks_dev (log mem : Bool) (s : State) : (resetBlocks log mem s).dev =
    { vaon := s.dev.vaon, held := s.dev.held, woken := s.dev.woken, flash := s.dev.flash, flashDead := s.dev.flashDead,
      tripped := s.dev.tripped, bootPending := false } := by
  unfold resetBlocks
  rw [(modesKept_keptReport _).dev, (modesKept_aonLocks _).dev]

theorem resetBlocks_mem (log mem : Bool) (s : State) :
    (resetBlocks log mem s).buf.mem = if mem then s.buf.mem else [] := by
  unfold resetBlocks
  rw [(modesKept_keptReport _).mem, (modesKept_aonLocks _).mem]

theorem keptReport_store (s : State) : (keptReport s).hmpLog = s.hmpLog ∧ (keptReport s).cip = s.cip := by
  have tch : Touches.keptReport (Sparing [.hmpLog, .cip]) := by
    repeat' first | with_reducible intro _ | constructor | simp [Sparing]
  have h := Fits.keptReport s (.refl _ s) tch
  exact ⟨h.within .hmpLog (by simp [Sparing]), h.within .cip (by simp [Sparing])⟩

theorem aonLocks_store (s : State) : (aonLocks s).hmpLog = s.hmpLog ∧ (aonLocks s).cip = s.cip := by
  have tch : Touches.aonLocks (Sparing [.hmpLog, .cip]) := by
    repeat' first | with_reducible intro _ | constructor | simp [Sparing]
  have h := Fits.aonLocks s (.refl _ s) tch
  exact ⟨h.within .hmpLog (by simp [Sparing]), h.within .cip (by simp [Sparing])⟩

/-- R91, R391: Hamper's log survives a reset; key slots do not. -/
theorem resetBlocks_store (log mem : Bool) (s : State) :
    (resetBlocks log mem s).hmpLog = s.hmpLog ∧ (resetBlocks log mem s).cip.sa = [] := by
  unfold resetBlocks
  rw [(keptReport_store _).1, (aonLocks_store _).1, (keptReport_store _).2, (aonLocks_store _).2]
  exact ⟨rfl, rfl⟩

/-! ## WAKE begins (R91, R100) -/

/-- R91, R100: what the entry into WAKE writes in the registers of the modes. -/
def wakeMarks (old src rule : Nat) (s : State) : State :=
  let s := if old = 1 then s else s.setF F.DEV_MODE_mode_prev old
  let s := (s.setF F.DEV_MODE_mode 1).setB F.DEV_MODE_transition true
  (s.setF F.DEV_WAKE_SRC_source src).setF F.DEV_WAKE_SRC_rule rule

theorem modesKept_sealSet (b : Bool) (s : State) : ModesKept s (sealSet b s) :=
  .setB _ _ _ (.setB _ _ _ (.refl _ _) (by simp [sparing_modeParts_reg])) (by simp [sparing_modeParts_reg])

theorem modesKept_rulesMode (s : State) : ModesKept s (rulesMode s) := .rulesMode _ (.refl _ _) modeAsides_sparing.c_rulesMode

theorem modesKept_deliverRules (s : State) : ModesKept s (deliverRules s) :=
  .deliverRules _ (.refl _ _) modeAsides_sparing.c_deliverRules

/-- R91: apart from its marks a WAKE that begins changes of the modes only that its boot is due. -/
theorem wakeBegin_of_marks (old src rule : Nat) (s : State) : ∃ t, ModesKept (wakeMarks old src rule s) t ∧
    wakeBegin old src rule s = { t with dev := { t.dev with bootPending := true, woken := true } } := by
  have hseal := (modesKept_sealSet false (wakeMarks old src rule s)).trans (modesKept_deliverRules _)
  have hrules := Fits.ite (c := old = 0) (fun _ => hseal.trans (modesKept_rulesMode _)) fun _ => hseal
  refine ⟨_, .forEach (List.range 2) _ hrules fun le t ht => ?_, rfl⟩
  exact .modUbh _ _ _ (.ubhRun _ _ ht (modeAsides_sparing.c_ubhRun le)) (modeAsides_sparing.c_modUbh le)

theorem wakeBegin_g (old src rule : Nat) (s : State) {f : Field} (hf : f ∈ modeFields) :
    (wakeBegin old src rule s).g f = (wakeMarks old src rule s).g f := by
  obtain ⟨t, ht, e⟩ := wakeBegin_of_marks old src rule s
  rw [e]
  exact ht.mode_g hf

theorem wakeMarks_dev (old src rule : Nat) (s : State) : (wakeMarks old src rule s).dev = s.dev := by
  unfold wakeMarks
  split <;> rfl

theorem wakeBegin_dev (old src rule : Nat) (s : State) :
    (wakeBegin old src rule s).dev = { s.dev with bootPending := true, woken := true } := by
  obtain ⟨t, ht, e⟩ := wakeBegin_of_marks old src rule s
  rw [e, ht.dev, wakeMarks_dev]

theorem wakeBegin_mem (old src rule : Nat) (s : State) : (wakeBegin old src rule s).buf.mem = s.buf.mem := by
  obtain ⟨t, ht, e⟩ := wakeBegin_of_marks old src rule s
  rw [e]
  refine ht.mem.trans ?_
  unfold wakeMarks
  split <;> rfl

theorem wakeBegin_mode (old src rule : Nat) (s : State) : (wakeBegin old src rule s).mode = 1 := by
  rw [State.mode, wakeBegin_g _ _ _ _ (by simp [modeFields]), wakeMarks, g_setF_other _ _ (by simp), g_setF_other _ _ (by simp),
    g_setB_other _ _ (by simp), g_setF_same]
  rfl

theorem wakeBegin_source (old src rule : Nat) (s : State) :
    (wakeBegin old src rule s).g F.DEV_WAKE_SRC_source = src % 16 := by
  rw [wakeBegin_g _ _ _ _ (by simp [modeFields]), wakeMarks, g_setF_other _ _ (by simp), g_setF_same]
  rfl

/-- The causes of resets (R101): every WAKE and every reset keeps them. -/
def causeFields : List Field :=
  [F.DEV_RESET_CAUSE_porst, F.DEV_RESET_CAUSE_reset_cmd, F.DEV_RESET_CAUSE_safe_cmd, F.DEV_RESET_CAUSE_enclave_fault,
   F.DEV_RESET_CAUSE_dormant_exit]

theorem causeFields_apart {f : Field} (hf : f ∈ causeFields) :
    f ∈ modeFields ∧ heldField f = true ∧ 0x262 ≤ f.key ∧ f.key ≤ 0x266 := by
  revert f
  decide

theorem wakeBegin_cause (old src rule : Nat) (s : State) {f : Field} (hf : f ∈ causeFields) :
    (wakeBegin old src rule s).g f = s.g f := by
  obtain ⟨hmode, -, hlow, hhigh⟩ := causeFields_apart hf
  rw [wakeBegin_g _ _ _ _ hmode, wakeMarks, g_setF_other _ _ (by simp; omega), g_setF_other _ _ (by simp; omega),
    g_setB_other _ _ (by simp; omega), g_setF_other _ _ (by simp; omega)]
  split
  · rfl
  · rw [g_setF_other _ _ (by simp; omega)]

/-! ## A device reset (R91, R102) -/

/-- R102, R524: a device reset beginning with the event log's last entries. -/
theorem deviceReset_of_wake (src : Nat) (skip : Bool) (s : State) : ∃ t u, ModesKept s t ∧ ModesKept (resetBlocks true true t) u ∧
    ∃ v, ModesKept (wakeBegin s.mode src 0 u) v ∧ deviceReset src skip s = { v with dev := { v.dev with skipBcr := skip } } := by
  refine ⟨_, _, .evlFlush s (.refl _ _) modeAsides_sparing.c_evlFlush,
    .evlMarker (causeWord (resetBlocks true true (evlFlush s))) _ (.refl _ _) modeAsides_sparing.c_evlMarker, _, ?_, rfl⟩
  exact .ite (fun _ => modesKept_evt _ _ _) fun _ => .refl _ _

/-- R91, R102: what a device reset leaves: WAKE with its source, the causes, package memory, and a boot that is due. -/
theorem deviceReset_wakes (src : Nat) (skip : Bool) (s : State) :
    (deviceReset src skip s).mode = 1 ∧ (deviceReset src skip s).g F.DEV_WAKE_SRC_source = src % 16 ∧
    (∀ f ∈ causeFields, (deviceReset src skip s).g f = s.g f) ∧ (deviceReset src skip s).buf.mem = s.buf.mem ∧
    (deviceReset src skip s).dev =
      { vaon := s.dev.vaon, held := s.dev.held, woken := true, flash := s.dev.flash, flashDead := s.dev.flashDead,
        tripped := s.dev.tripped, bootPending := true, skipBcr := skip } := by
  obtain ⟨t, u, ht, hu, v, hv, e⟩ := deviceReset_of_wake src skip s
  rw [e]
  refine ⟨hv.mode.trans (wakeBegin_mode _ _ _ _), (hv.mode_g (by simp [modeFields])).trans (wakeBegin_source _ _ _ _), fun f hf => ?_,
    ?_, ?_⟩
  · obtain ⟨hmode, hheld, -⟩ := causeFields_apart hf
    refine (hv.mode_g hmode).trans ?_
    rw [wakeBegin_cause _ _ _ _ hf, hu.mode_g hmode, resetBlocks_g_held _ _ _ hmode hheld, ht.mode_g hmode]
  · refine hv.mem.trans ?_
    rw [wakeBegin_mem, hu.mem, resetBlocks_mem, if_pos rfl, ht.mem]
  · rw [hv.dev, wakeBegin_dev, hu.dev, resetBlocks_dev, ht.dev]

end Sys2Proof.Machine

/-! The boot of a WAKE without a firmware image (R108, R110). -/

namespace Sys2Proof.Machine

/-! ## No image (R110, R116) -/

/-- R116: an empty flash reads as erased. -/
theorem flashBytes_erased {s : State} (h : s.dev.flash = []) (a n : Nat) : flashBytes s a n = List.replicate n 0xFF := by
  simp [flashBytes, h, List.map_const']

/-- R110, R415: an empty flash holds no image, in neither slot. -/
theorem slotChoice_erased {s : State} (h : s.dev.flash = []) (pref : Nat) : slotChoice s pref = none := by
  have hmagic (k : Nat) : ((flashBytes s (slotBase k) 256).take 4 == [0x58, 0x46, 0x57, 0x49]) = false := by
    rw [flashBytes_erased h, List.take_replicate]
    decide
  have himage (k : Nat) : imageOk s k = false := by simp only [imageOk, hmagic, Bool.and_false, Bool.false_and]
  simp [slotChoice, himage]

/-! ## What the boot ROM does before it chooses a mode (R108, R425) -/

/-- R108, R415, R425: the boot as far as the choice of the mode. -/
def bootChecked (s : State) : State :=
  encReport (bootVerify (bootErase ({ s with dev := { s.dev with bootPending := false } }.setB F.DEV_STATUS_refclk_ok true))).2.2

theorem modesKept_cipErase (reason : Nat) (s : State) : ModesKept s (cipErase reason s) :=
  .cipErase _ _ (.refl _ _) modeAsides_sparing.c_cipErase

theorem debugClose_dev (s : State) : ∃ b, (debugClose s).dev = { s.dev with debugUp := b } := by
  unfold debugClose
  split
  · exact ⟨_, rfl⟩
  · exact ⟨false, State.evt_dev _ _ _⟩

theorem zeroiseRecord_dev (s : State) : ∃ b, (zeroiseRecord s).dev = { s.dev with debugUp := b } := by
  unfold zeroiseRecord
  simp only [State.setB_dev, State.setF_dev, State.bump_dev]
  exact debugClose_dev _

/-- R425: what is left of a tamper is done at boot; of the device storage it ends a debug unlock alone. -/
theorem bootErase_dev (s : State) : ∃ b, (bootErase s).dev = { s.dev with debugUp := b } := by
  unfold bootErase
  split
  · obtain ⟨b, hb⟩ := zeroiseRecord_dev (cipErase 4 s)
    exact ⟨b, by rw [hb, (modesKept_cipErase 4 s).dev]⟩
  · exact ⟨_, rfl⟩

theorem bootVerify_dev (s : State) : (bootVerify s).2.2.dev = s.dev := by
  have tch : Touches.bootVerify (Sparing [.dev]) := by repeat' first | constructor | simp [Sparing]
  exact (Fits.bootVerify s (.refl _ s) tch).dev_spared (by simp)

theorem bootChecked_dev (s : State) : ∃ b, (bootChecked s).dev = { s.dev with bootPending := false, debugUp := b } := by
  obtain ⟨b, hb⟩ := bootErase_dev ({ s with dev := { s.dev with bootPending := false } }.setB F.DEV_STATUS_refclk_ok true)
  refine ⟨b, ?_⟩
  unfold bootChecked
  rw [Fits.dev_spared (.encReport _ (.refl _ _) modeAsides_sparing.c_encReport) (by simp [modeParts]), bootVerify_dev, hb]
  rfl

/-- R110: without an image the boot ends in SAFE. -/
theorem bootRun_erased {s : State} (h : s.dev.flash = []) : bootRun s = safeEnter (bootChecked s) := by
  have hslot (u : State) (hu : u.dev.flash = []) : (bootVerify u).2.1 = none := slotChoice_erased hu _
  unfold bootRun bootChecked
  dsimp only
  rw [hslot]
  · rfl
  · obtain ⟨b, hb⟩ := bootErase_dev ({ s with dev := { s.dev with bootPending := false } }.setB F.DEV_STATUS_refclk_ok true)
    rw [hb]
    exact h

/-! ## The boot leaves wake source, causes and package memory -/

/-- DEV_WAKE_SRC.source, the causes and package memory. -/
def bootParts : List Part := .bufMem :: .reg F.DEV_WAKE_SRC_source.key :: causeFields.map fun f => .reg f.key

theorem bootChecked_touches : Touches.bootErase (Sparing bootParts) ∧ Touches.bootVerify (Sparing bootParts) ∧
    Touches.encReport (Sparing bootParts) := by
  refine ⟨?_, ?_, ?_⟩
  all_goals repeat' first
    | with_reducible intro _
    | constructor
    | (simp [Sparing, bootParts, causeFields] <;> omega)

theorem safeEnter_sparing : Touches.safeEnter (Sparing bootParts) := by
  have hevt (p : Nat) : Touches.evt (Sparing bootParts) p := by
    repeat' first | constructor | (simp [Sparing, bootParts, causeFields] <;> omega)
  repeat' first
    | with_reducible intro _
    | with_reducible exact hevt _
    | constructor
    | (simp [Sparing, bootParts, causeFields] <;> omega)

theorem bootRun_fits {s : State} (h : s.dev.flash = []) : Fits (Sparing bootParts) s (bootRun s) := by
  obtain ⟨herase, hverify, hreport⟩ := bootChecked_touches
  rw [bootRun_erased h]
  refine .safeEnter _ (.encReport _ (.bootVerify _ (.bootErase _ (.setB _ _ _ (.upd_dev (.refl _ _) ?_ _) ?_) herase) hverify) hreport)
    safeEnter_sparing <;> simp [Sparing, bootParts, causeFields]

/-! ## SAFE (R91, R98, R124) -/

theorem modeTo_mode (new : Nat) (s : State) : (modeTo new s).mode = new % 16 := by
  rw [State.mode, modeTo, g_evt_other _ _ _ (by simp), g_setF_same]
  rfl

@[simp] theorem modeTo_dev (new : Nat) (s : State) : (modeTo new s).dev = s.dev := by
  unfold modeTo
  dsimp only
  split <;> simp

theorem reqResult_g_other (r : Nat) (s : State) {f : Field} (h : f.key ≠ (F.EVT_STICKY 0).key)
    (hf : f.key ≠ F.DEV_MODE_req_result.key) : (reqResult r s).g f = s.g f := by
  rw [reqResult, g_evt_other _ _ _ h, g_setF_other _ _ hf]

theorem reqResult_result (r : Nat) (s : State) : (reqResult r s).g F.DEV_MODE_req_result = r % 16 := by
  rw [reqResult, g_evt_other _ _ _ (by simp), g_setF_same]
  rfl

@[simp] theorem reqResult_dev (r : Nat) (s : State) : (reqResult r s).dev = s.dev := by simp [reqResult]

theorem reqResult_mode (r : Nat) (s : State) : (reqResult r s).mode = s.mode := reqResult_g_other r s (by simp) (by simp)

theorem spiContinue_none {s : State} (h : s.dev.spiWake = none) : spiContinue s = s := by simp [spiContinue, h]

/-- R124: an SPI request whose WAKE ends in SAFE is refused. -/
theorem spiContinue_safe {s : State} (h : s.mode = 2) :
    spiContinue s = s ∨ spiContinue s = reqResult 3 { s with dev := { s.dev with spiWake := none } } := by
  unfold spiContinue
  split
  · exact .inl rfl
  · have h2 : ({ s with dev := { s.dev with spiWake := none } } : State).mode = 2 := h
    right
    dsimp only
    simp [h2]

theorem spiContinue_safe_mode {s : State} (h : s.mode = 2) : (spiContinue s).mode = 2 ∧ (spiContinue s).dev.held = s.dev.held := by
  obtain e | e := spiContinue_safe h
  · rw [e]
    exact ⟨h, rfl⟩
  · rw [e]
    exact ⟨(reqResult_mode _ _).trans h, by rw [reqResult_dev]⟩

/-- R91, R98: SAFE with its answer to a request, before Hamper is sealed. -/
def safeAnswered (s : State) : State :=
  if s.dev.req.isSome then reqDone 1 (modeTo 2 (s.setB F.DEV_MODE_transition false)) else modeTo 2 (s.setB F.DEV_MODE_transition false)

theorem safeAnswered_mode (s : State) : (safeAnswered s).mode = 2 := by
  unfold safeAnswered
  split
  · exact (reqResult_mode _ _).trans (modeTo_mode _ _)
  · exact modeTo_mode _ _

theorem safeAnswered_dev (s : State) : ∃ q, (safeAnswered s).dev = { s.dev with req := q } := by
  unfold safeAnswered
  split
  · exact ⟨none, by rw [reqDone, reqResult_dev, modeTo_dev]; rfl⟩
  · exact ⟨s.dev.req, modeTo_dev _ _⟩

theorem safeEnter_mode (s : State) : (safeEnter s).mode = 2 ∧ (safeEnter s).dev.held = s.dev.held := by
  have hseal : (sealSet true (safeAnswered s)).mode = 2 := (modesKept_sealSet true _).mode.trans (safeAnswered_mode s)
  obtain ⟨hmode, hheld⟩ := spiContinue_safe_mode hseal
  obtain ⟨q, hq⟩ := safeAnswered_dev s
  exact ⟨hmode, hheld.trans (by rw [(modesKept_sealSet true _).dev, hq])⟩

/-- R91, R98: a request whose WAKE ends in SAFE is answered with DONE. -/
theorem safeEnter_result {s : State} (hreq : s.dev.req.isSome = true) (hspi : s.dev.spiWake = none) :
    (safeEnter s).g F.DEV_MODE_req_result = 1 := by
  obtain ⟨q, hq⟩ := safeAnswered_dev s
  have hnone : (sealSet true (safeAnswered s)).dev.spiWake = none := by
    rw [(modesKept_sealSet true _).dev, hq]
    exact hspi
  change (spiContinue (sealSet true (safeAnswered s))).g _ = 1
  rw [spiContinue_none hnone, (modesKept_sealSet true _).mode_g (by simp [modeFields]), safeAnswered, if_pos hreq]
  exact reqResult_result 1 _

/-! ## The WAKE of an empty device (R91, R110) -/

/-- A boot is due and runs: WAKE, out of reset, on an empty flash. -/
structure WakesEmpty (s : State) : Prop where
  mode : s.mode = 1
  pending : s.dev.bootPending = true
  held : s.dev.held = false
  vaon : s.dev.vaon = true
  flash : s.dev.flash = []

theorem WakesEmpty.boot {s : State} (h : WakesEmpty s) : boot s = safeEnter (bootChecked s) := by
  rw [← bootRun_erased h.flash, Machine.boot, if_pos (by simp [h.mode, h.pending, h.held, h.vaon])]

theorem WakesEmpty.mode_boot {s : State} (h : WakesEmpty s) : (Machine.boot s).mode = 2 := by
  rw [h.boot]
  exact (safeEnter_mode _).1

theorem WakesEmpty.held_boot {s : State} (h : WakesEmpty s) : (Machine.boot s).dev.held = false := by
  obtain ⟨b, hb⟩ := bootChecked_dev s
  rw [h.boot, (safeEnter_mode _).2, hb]
  exact h.held

theorem WakesEmpty.fits_boot {s : State} (h : WakesEmpty s) : Fits (Sparing bootParts) s (Machine.boot s) := by
  rw [h.boot, ← bootRun_erased h.flash]
  exact bootRun_fits h.flash

theorem WakesEmpty.source_boot {s : State} (h : WakesEmpty s) :
    (Machine.boot s).g F.DEV_WAKE_SRC_source = s.g F.DEV_WAKE_SRC_source := h.fits_boot.g_spared (by simp [bootParts])

theorem WakesEmpty.cause_boot {s : State} (h : WakesEmpty s) {f : Field} (hf : f ∈ causeFields) :
    (Machine.boot s).on f = s.on f :=
  h.fits_boot.on_spared (List.mem_cons_of_mem _ (List.mem_cons_of_mem _ (List.mem_map.2 ⟨f, hf, rfl⟩)))

theorem WakesEmpty.mem_boot {s : State} (h : WakesEmpty s) : (Machine.boot s).buf.mem = s.buf.mem :=
  h.fits_boot.within .bufMem (by simp [Sparing, bootParts])

theorem WakesEmpty.result_boot {s : State} (h : WakesEmpty s) (hreq : s.dev.req.isSome = true) (hspi : s.dev.spiWake = none) :
    (Machine.boot s).g F.DEV_MODE_req_result = 1 := by
  obtain ⟨b, hb⟩ := bootChecked_dev s
  rw [h.boot]
  exact safeEnter_result (by rw [hb]; exact hreq) (by rw [hb]; exact hspi)

theorem wakesEmpty_wakeBegin (old src rule : Nat) {s : State} (hheld : s.dev.held = false) (hvaon : s.dev.vaon = true)
    (hflash : s.dev.flash = []) : WakesEmpty (wakeBegin old src rule s) := by
  have hdev := wakeBegin_dev old src rule s
  exact ⟨wakeBegin_mode _ _ _ _, by rw [hdev], by rw [hdev]; exact hheld, by rw [hdev]; exact hvaon, by rw [hdev]; exact hflash⟩

theorem wakesEmpty_deviceReset (src : Nat) (skip : Bool) {s : State} (hheld : s.dev.held = false) (hvaon : s.dev.vaon = true)
    (hflash : s.dev.flash = []) : WakesEmpty (deviceReset src skip s) := by
  obtain ⟨hmode, -, -, -, hdev⟩ := deviceReset_wakes src skip s
  exact ⟨hmode, by rw [hdev], by rw [hdev]; exact hheld, by rw [hdev]; exact hvaon, by rw [hdev]; exact hflash⟩

end Sys2Proof.Machine

/-! VAON, crystal and PORST_N (O20). -/

namespace Sys2Proof.Machine

theorem execVaonPowerOn_off {s : State} (h : s.dev.vaon = false) : execVaonPowerOn s =
    .next { s with time := 0, dev := { s.dev with vaon := true, held := true, woken := false } } := by simp [execVaonPowerOn, h]

/-- R106: without VAON package memory and associations are lost; flash, officers and the key-loading key are not. -/
theorem exec_vaonLoss_loses {s : State} (h : s.dev.vaon = true) : ∃ t, exec .vaonLoss s = .next t ∧ t.dev.vaon = false ∧
    t.dev.held = true ∧ t.buf.mem = [] ∧ t.cip.sa = [] ∧ t.dev.flash = s.dev.flash ∧ t.enc.officers = s.enc.officers ∧
    t.enc.klk = s.enc.klk := by
  refine ⟨_, by rw [exec_vaonLoss, execVaonLoss, if_pos h], ?_⟩
  rw [(modesKept_keptReport _).dev, (modesKept_keptReport _).mem, (modesKept_keptReport _).enc, (keptReport_store _).2]
  exact ⟨rfl, rfl, rfl, rfl, rfl, rfl, rfl⟩

theorem exec_xtalLock_shows {s : State} (h : s.dev.vaon = true) : ∃ t, exec .xtalLock s = .next t ∧
    t.on F.HMP_STAT_aon_xtal_lock = true ∧ t.on F.DEV_STATUS_aon_xtal_lock = true := by
  refine ⟨_, by rw [exec_xtalLock, execXtalLock, if_pos h], ?_, on_setB _ _ _ rfl⟩
  rw [on_setB_other _ _ (by simp), on_setB _ _ _ rfl]

/-- R91: what PORST_N low makes of the device out of DORMANT, before it is held. -/
def porstReset (s : State) : State :=
  let t := resetBlocks false false (s.setB F.DEV_RESET_CAUSE_porst true)
  if s.mode = 1 then t else t.setF F.DEV_MODE_mode_prev s.mode

theorem porstReset_g (s : State) {f : Field} (hf : f.key ≠ F.DEV_MODE_mode_prev.key) :
    (porstReset s).g f = (resetBlocks false false (s.setB F.DEV_RESET_CAUSE_porst true)).g f := by
  unfold porstReset
  dsimp only
  split
  · rfl
  · exact g_setF_other _ _ hf

theorem porstReset_store (s : State) : (porstReset s).hmpLog = s.hmpLog ∧ (porstReset s).buf.mem = [] := by
  have hlog : _ = s.hmpLog := (resetBlocks_store false false (s.setB F.DEV_RESET_CAUSE_porst true)).1
  have hmem : _ = [] := resetBlocks_mem false false (s.setB F.DEV_RESET_CAUSE_porst true)
  unfold porstReset
  dsimp only
  split
  · exact ⟨hlog, hmem⟩
  · rw [State.setF_hmpLog, State.setF_buf]
    exact ⟨hlog, hmem⟩

/-- R91: PORST_N low holds the device; in DORMANT that is all. -/
theorem execPorstAssert_released {s : State} (hvaon : s.dev.vaon = true) (hheld : s.dev.held = false) : execPorstAssert s =
    .next (if s.mode = 0 then { s.setB F.DEV_RESET_CAUSE_porst true with dev := { s.dev with held := true } }
      else { porstReset s with dev := { (porstReset s).dev with held := true } }) := by
  unfold execPorstAssert
  dsimp only
  rw [if_neg (by simp [hvaon, hheld])]
  split <;> rfl

theorem exec_porstAssert_holds {s : State} (hvaon : s.dev.vaon = true) (hheld : s.dev.held = false) :
    ∃ t, exec .porstAssert s = .next t ∧ t.dev.held = true ∧ t.on F.DEV_RESET_CAUSE_porst = true ∧ t.hmpLog = s.hmpLog ∧
      (s.mode = 0 → t.mode = 0) ∧ (s.mode ≠ 0 → t.mode = 1 ∧ t.buf.mem = []) := by
  have hcause : (s.setB F.DEV_RESET_CAUSE_porst true).on F.DEV_RESET_CAUSE_porst = true := on_setB _ _ _ rfl
  have hsame : (s.setB F.DEV_RESET_CAUSE_porst true).mode = s.mode := g_setB_other s _ (by simp)
  refine ⟨_, by rw [exec_porstAssert, execPorstAssert_released hvaon hheld], ?_⟩
  split
  next h0 => exact ⟨rfl, hcause, rfl, fun _ => hsame.trans h0, fun h => absurd h0 h⟩
  next h0 =>
    obtain ⟨hlog, hmem⟩ := porstReset_store s
    have hporst : (porstReset s).on F.DEV_RESET_CAUSE_porst = true := by
      rw [State.on, porstReset_g _ (by simp), resetBlocks_g_held _ _ _ (by simp [modeFields]) (by decide)]
      exact hcause
    have hmode : (porstReset s).mode = 1 := (porstReset_g s (by simp)).trans (resetBlocks_mode _ _ _)
    exact ⟨rfl, hporst, hlog, fun h => absurd h h0, fun _ => ⟨hmode, hmem⟩⟩

/-- R91, R100, R110: PORST_N high begins a WAKE, which without an image ends in SAFE. -/
theorem exec_porstRelease_erased {s : State} (hvaon : s.dev.vaon = true) (hheld : s.dev.held = true) (hflash : s.dev.flash = []) :
    ∃ t, exec .porstRelease s = .next t ∧ t.dev.held = false ∧ t.mode = 2 ∧
      t.g F.DEV_WAKE_SRC_source = (if s.dev.woken then 5 else 0) := by
  have hwake : ∃ u : State, u.dev = s.dev ∧ porstRelease s = wakeBegin s.mode (if s.dev.woken then 5 else 0) 0
      { u with dev := { u.dev with held := false } } := by
    refine ⟨if s.mode = 0 then s.setB F.DEV_RESET_CAUSE_dormant_exit true else s, by split <;> rfl, ?_⟩
    rw [porstRelease, if_neg (by simp [hvaon, hheld])]
  obtain ⟨u, hu, e⟩ := hwake
  have hempty := wakesEmpty_wakeBegin s.mode (if s.dev.woken then 5 else 0) 0
    (s := { u with dev := { u.dev with held := false } }) rfl (by rw [hu]; exact hvaon) (by rw [hu]; exact hflash)
  refine ⟨_, exec_porstRelease s, ?_⟩
  rw [e]
  refine ⟨hempty.held_boot, hempty.mode_boot, ?_⟩
  rw [hempty.source_boot, wakeBegin_source]
  split <;> rfl

/-- Settles O20, pin by pin: the resets by what `resetBlocks` keeps, the release by the WAKE of an empty device. -/
theorem pinsAndPower : Obligations.PinsAndPower :=
  ⟨fun s h => ⟨_, (exec_vaonPowerOn s).trans (execVaonPowerOn_off h), rfl, rfl, rfl, rfl⟩, fun _ => exec_vaonLoss_loses,
    fun _ => exec_xtalLock_shows, fun _ => exec_porstAssert_holds, fun _ => exec_porstRelease_erased⟩

end Sys2Proof.Machine

/-! Resets and wakes (O21). -/

namespace Sys2Proof.Machine

/-! ## A device that answers (R50, R91) -/

/-- R50, R51: a device that takes an access outside Hamper's pages is awake and out of reset. -/
theorem State.admits.awake {s : State} {m : Master} {p : Nat} {inFab : Bool} (h : s.admits m p inFab)
    (hp : p < 0xE0 ∨ 0xE7 < p) : s.dev.vaon = true ∧ s.mode ≠ 0 ∧ s.dev.held = false := by
  have hreach := h.1
  unfold State.reaches at hreach
  cases hv : s.dev.vaon <;> cases hh : s.dev.held <;> simp [hv, hh] at hreach ⊢ <;> omega

theorem access_mode (m : Master) (s : State) : (s.access m).mode = s.mode := g_access m s _

/-! ## Device resets (R102, R103) -/

theorem causeFields_width {f : Field} (hf : f ∈ causeFields) : f.width = 1 := by
  revert f
  decide

/-- R101, R110: a device reset of an empty device, its cause `f` recorded, ends in SAFE. -/
theorem deviceReset_ends_safe (src : Nat) (skip : Bool) {f : Field} (hf : f ∈ causeFields) {s : State} (hheld : s.dev.held = false)
    (hvaon : s.dev.vaon = true) (hflash : s.dev.flash = []) :
    (boot (deviceReset src skip (s.setB f true))).mode = 2 ∧
    (boot (deviceReset src skip (s.setB f true))).g F.DEV_WAKE_SRC_source = src % 16 ∧
    (boot (deviceReset src skip (s.setB f true))).on f = true ∧
    (boot (deviceReset src skip (s.setB f true))).buf.mem = s.buf.mem := by
  have hempty := wakesEmpty_deviceReset src skip (s := s.setB f true) hheld hvaon hflash
  obtain ⟨-, hsource, hcause, hmem, -⟩ := deviceReset_wakes src skip (s.setB f true)
  refine ⟨hempty.mode_boot, hempty.source_boot.trans hsource, ?_, hempty.mem_boot.trans hmem⟩
  rw [hempty.cause_boot hf, State.on, hcause f hf]
  exact on_setB s f true (causeFields_width hf)

theorem exec_devReset_key {m : Master} {s : State} (h : s.admits m 0x00 true) (hflash : s.dev.flash = []) :
    ∃ t, exec (.devReset m 0xA5C3) s = .next t ∧ t.mode = 2 ∧ t.g F.DEV_WAKE_SRC_source = 6 ∧
      t.on F.DEV_RESET_CAUSE_reset_cmd = true ∧ t.buf.mem = s.buf.mem := by
  obtain ⟨hvaon, -, hheld⟩ := h.awake (.inl (by decide))
  have hrun : resetWrite m (0xA5C3 : BitVec 16).toNat s =
      deviceReset 6 false ((s.access m).setB F.DEV_RESET_CAUSE_reset_cmd true) := by
    rw [resetWrite, h.runs rfl]
    rfl
  refine ⟨_, by rw [exec_devReset, execDevReset, hrun], ?_⟩
  have hend := deviceReset_ends_safe 6 false (f := F.DEV_RESET_CAUSE_reset_cmd) (by simp [causeFields]) (s := s.access m)
    (by simpa using hheld) (by simpa using hvaon) (by simpa using hflash)
  rwa [State.access_buf] at hend

/-- R102: a write of DEV_RESET with another key is refused. -/
theorem exec_devReset_denied {m : Master} {key : BitVec 16} {s : State} (h : s.admits m 0x00 true) (hkey : key ≠ 0xA5C3)
    (hs : settled s) : ∃ t, exec (.devReset m key) s = .next t ∧ t.mode = s.mode ∧
      t.g F.DEV_WAKE_SRC_source = s.g F.DEV_WAKE_SRC_source ∧ (s.logRuns = true → t.g F.FAB_ERR_LAST_INFO_reason = 4) := by
  have hne : key.toNat ≠ 0xA5C3 := fun e => hkey (BitVec.eq_of_toNat_eq e)
  have hrun : resetWrite m key.toNat s = (s.access m).refuse (mcode m) .denied 0x58 := by
    rw [resetWrite, h.runs rfl]
    exact if_neg hne
  refine ⟨_, by rw [exec_devReset, execDevReset, hrun, boot_of_not_pending (by simpa using hs.1)], ?_, ?_, fun hlog => ?_⟩
  · exact (g_refuse_other _ _ _ _ (by decide) (by simp) (by simp) (by simp) (by simp)).trans (access_mode m s)
  · rw [g_refuse_other _ _ _ _ (by decide) (by simp) (by simp) (by simp) (by simp), g_access]
  · rw [g_refuse_of_not_sticky _ _ _ _ (by decide), g_fabErr_reason _ _ _ (by simpa using hlog)]
    rfl

theorem exec_enclaveWatchdogExpiry_resets {s : State} (h : enclaveUp s = true) (hflash : s.dev.flash = []) :
    ∃ t, exec .enclaveWatchdogExpiry s = .next t ∧ t.mode = 2 ∧ t.g F.DEV_WAKE_SRC_source = 9 ∧
      t.on F.DEV_RESET_CAUSE_enclave_fault = true := by
  have hup : (s.mode ≠ 0 ∧ s.dev.held = false) ∧ s.dev.vaon = true := by simpa [enclaveUp] using h
  obtain ⟨⟨-, hheld⟩, hvaon⟩ := hup
  obtain ⟨hmode, hsource, hcause, -⟩ := deviceReset_ends_safe 9 false (f := F.DEV_RESET_CAUSE_enclave_fault) (by simp [causeFields])
    hheld hvaon hflash
  exact ⟨_, by rw [exec_enclaveWatchdogExpiry, execEnclaveWatchdogExpiry, if_pos h], hmode, hsource, hcause⟩

/-! ## Wakes out of DORMANT (R124) -/

/-- R110, R124: a wake of an empty device out of DORMANT ends in SAFE. -/
theorem dormantWake_ends_safe (src rule : Nat) {s : State} (hmode : s.mode = 0) (hvaon : s.dev.vaon = true)
    (hheld : s.dev.held = false) (hflash : s.dev.flash = []) : (boot (dormantWake src rule s)).mode = 2 ∧
      (boot (dormantWake src rule s)).g F.DEV_WAKE_SRC_source = src % 16 ∧
      (boot (dormantWake src rule s)).on F.DEV_RESET_CAUSE_dormant_exit = true := by
  have hcause : F.DEV_RESET_CAUSE_dormant_exit ∈ causeFields := by simp [causeFields]
  have hempty := wakesEmpty_wakeBegin 0 src rule (s := s.setB F.DEV_RESET_CAUSE_dormant_exit true) hheld hvaon hflash
  rw [dormantWake, if_pos ⟨hmode, hvaon, by simp [hheld]⟩]
  refine ⟨hempty.mode_boot, hempty.source_boot.trans (wakeBegin_source _ _ _ _), ?_⟩
  rw [hempty.cause_boot hcause, State.on, wakeBegin_cause _ _ _ _ hcause]
  exact on_setB s _ true rfl

/-- Settles O21: the resets by `deviceReset`, the wakes by `dormantWake`, each run to SAFE by the boot of an empty device. -/
theorem resetsAndWakes : Obligations.ResetsAndWakes := by
  refine ⟨fun m s h hflash _ => exec_devReset_key h hflash, fun m key s => exec_devReset_denied,
    fun s => exec_enclaveWatchdogExpiry_resets, fun s hmode hvaon hheld hflash hen => ?_, fun s hmode hvaon hheld hflash hen => ?_⟩
  · exact ⟨_, by rw [exec_wakeNWake, execWakeNWake, if_pos hen], dormantWake_ends_safe 2 0 hmode hvaon hheld hflash⟩
  · exact ⟨_, by rw [exec_spiAccessWake, execSpiAccessWake, spiAnyWake, if_pos hen],
      dormantWake_ends_safe 4 0 hmode hvaon hheld hflash⟩

end Sys2Proof.Machine

/-! Mode requests (O22). -/

namespace Sys2Proof.Machine

/-! ## A write of DEV_MODE (R98) -/

/-- The state in which a write of DEV_MODE asks for its mode: the MAINTENANCE targets are stored. -/
def modeAsked (m : Master) (v : Nat) (s : State) : State := storeMaint v (s.access m)

theorem modeAsked_g (m : Master) (v : Nat) (s : State) {f : Field} (h0 : f.key ≠ F.DEV_MODE_maint_le0.key)
    (h1 : f.key ≠ F.DEV_MODE_maint_le1.key) : (modeAsked m v s).g f = s.g f := by
  rw [modeAsked, storeMaint, g_setF_other _ _ h1, g_setF_other _ _ h0, g_access]

theorem modeAsked_mode (m : Master) (v : Nat) (s : State) : (modeAsked m v s).mode = s.mode := modeAsked_g m v s (by simp) (by simp)

@[simp] theorem modeAsked_dev (m : Master) (v : Nat) (s : State) : (modeAsked m v s).dev = s.dev := by simp [modeAsked, storeMaint]

theorem modeAsked_idle {m : Master} {v : Nat} {s : State} (h : s.on F.DEV_MODE_transition = false) :
    ¬ (modeAsked m v s).on F.DEV_MODE_transition = true := by
  rw [State.on, modeAsked_g m v s (by simp) (by simp)]
  simpa [State.on] using h

/-- R91, R98: out of DORMANT the request of a write is answered by `modeRequest`. -/
theorem modeCommand_runs {m : Master} {s : State} (h : s.admits m 0x00 true) {code : Nat} (hcode : code < 16) (maint : Nat) :
    modeCommand m code maint s = boot (modeRequest code (modeAsked m (code + 256 * maint) s)) := by
  obtain ⟨-, hmode, -⟩ := h.awake (.inl (by decide))
  have hmod : (code + 256 * maint) % 16 = code := by omega
  rw [modeCommand, modeWrite, if_neg (by simp [hmode]), h.runs rfl, hmod]
  rfl

/-! ## The end of a transition (R98, R114) -/

theorem transitionTo_mode (new r : Nat) (s : State) : (transitionTo new r s).mode = new % 16 :=
  (reqResult_mode _ _).trans (modeTo_mode _ _)

theorem transitionTo_result (new r : Nat) (s : State) : (transitionTo new r s).g F.DEV_MODE_req_result = r % 16 :=
  reqResult_result _ _

theorem modeTo_transition (new : Nat) (s : State) : (modeTo new s).on F.DEV_MODE_transition = s.on F.DEV_MODE_transition := by
  unfold modeTo
  dsimp only
  rw [on_evt_other _ _ _ (by simp), on_setF_other _ _ (by simp)]
  split
  · rfl
  · exact on_setF_other _ _ (by simp)

theorem transitionTo_ends (new r : Nat) (s : State) : (transitionTo new r s).on F.DEV_MODE_transition = false := by
  rw [State.on, transitionTo, reqDone, reqResult_g_other _ _ (by simp) (by simp)]
  exact (modeTo_transition _ _).trans (on_setB _ _ _ rfl)

theorem transitionTo_dev (new r : Nat) (s : State) : (transitionTo new r s).dev = { s.dev with req := none } := by
  rw [transitionTo, reqDone, reqResult_dev, modeTo_dev]
  rfl

theorem modesKept_fifoResync (a b pa pb dropped : Nat) (s : State) : ModesKept s (fifoResync a b pa pb dropped s) := by
  have hevt := modeAsides_sparing.c_evt
  refine .fifoResync _ _ _ _ _ _ (.refl _ _) ⟨modeAsides_sparing.h_ev, ?_, ?_, ?_, hevt _, hevt _⟩ <;> simp [sparing_modeParts_reg]

theorem modesKept_portsAll (up : Bool) (s : State) : ModesKept s (portsAll up s) :=
  .portsAll _ _ (.refl _ _) modeAsides_sparing.c_portsAll

/-- R114: the warm start ends in its mode and answers with DONE. -/
theorem warmStart_ends (new : Nat) (s : State) : (warmStart new s).mode = new % 16 ∧
    (warmStart new s).g F.DEV_MODE_req_result = 1 ∧ (warmStart new s).dev = { s.dev with req := none } := by
  have hfifo (u : State) : ModesKept u (u.forEach warmFifos fun e s => fifoResync e.1 e.2.1 e.2.2.1 e.2.2.2 0 s) :=
    .forEach _ _ (.refl _ _) fun e t ht => ht.trans (modesKept_fifoResync _ _ _ _ _ _)
  unfold warmStart
  dsimp only
  rw [(modesKept_portsAll _ _).mode, (modesKept_portsAll _ _).mode_g (by simp [modeFields]), (modesKept_portsAll _ _).dev,
    transitionTo_mode, transitionTo_result, transitionTo_dev, (hfifo _).dev]
  exact ⟨rfl, rfl, rfl⟩

/-! ## The requests (R91 to R98) -/

theorem exec_modeReqSafe_resets {m : Master} (maint : BitVec 2) {s : State} (h : s.admits m 0x00 true)
    (hidle : s.on F.DEV_MODE_transition = false) (h7 : s.mode ≠ 7) (hflash : s.dev.flash = []) :
    ∃ t, exec (.modeReqSafe m maint) s = .next t ∧ t.mode = 2 ∧ t.g F.DEV_MODE_req_result = 1 ∧
      t.g F.DEV_WAKE_SRC_source = 7 ∧ t.on F.DEV_RESET_CAUSE_safe_cmd = true := by
  obtain ⟨hvaon, -, hheld⟩ := h.awake (.inl (by decide))
  obtain ⟨u, hu⟩ : ∃ u, u = (modeAsked m (2 + 256 * maint.toNat) s).setB F.DEV_RESET_CAUSE_safe_cmd true := ⟨_, rfl⟩
  have hdev : u.dev = s.dev := by simp [hu]
  have hrun : modeRequest 2 (modeAsked m (2 + 256 * maint.toNat) s) =
      { deviceReset 7 true u with dev := { (deviceReset 7 true u).dev with req := some 2 } } := by
    rw [modeRequest, modeAsked_mode, if_neg (modeAsked_idle hidle), if_neg (by decide), if_pos ⟨rfl, h7⟩, hu]
  have hempty := wakesEmpty_deviceReset 7 true (by rw [hdev, hheld]) (by rw [hdev, hvaon]) (by rw [hdev, hflash])
  obtain ⟨-, hsource, hcause, -, hafter⟩ := deviceReset_wakes 7 true u
  have hasked : WakesEmpty { deviceReset 7 true u with dev := { (deviceReset 7 true u).dev with req := some 2 } } :=
    ⟨hempty.mode, hempty.pending, hempty.held, hempty.vaon, hempty.flash⟩
  refine ⟨_, by rw [exec_modeReqSafe, execModeReqSafe, modeCommand_runs h (by decide), hrun], hasked.mode_boot,
    hasked.result_boot rfl (by rw [hafter]), hasked.source_boot.trans hsource, ?_⟩
  rw [hasked.cause_boot (by simp [causeFields])]
  change (deviceReset 7 true u).on _ = true
  rw [State.on, hcause _ (by simp [causeFields]), hu]
  exact on_setB _ _ _ rfl

theorem exec_modeReqService_standby {m : Master} (maint : BitVec 2) {s : State} (h : s.admits m 0x00 true)
    (hidle : s.on F.DEV_MODE_transition = false) (h3 : s.mode = 3) (hs : settled s) :
    ∃ t, exec (.modeReqService m maint) s = .next t ∧ t.mode = serviceMode s ∧ t.g F.DEV_MODE_req_result = 1 := by
  have hrun : modeRequest 4 (modeAsked m (4 + 256 * maint.toNat) s) =
      warmStart (serviceMode s) (modeAsked m (4 + 256 * maint.toNat) s) := by
    rw [modeRequest, modeAsked_mode, if_neg (modeAsked_idle hidle), if_neg (by decide), if_neg (by simp), if_pos ⟨rfl, h3⟩]
    rw [serviceMode, modeAsked_g _ _ _ (by simp) (by simp), serviceMode]
  obtain ⟨hmode, hresult, hdev⟩ := warmStart_ends (serviceMode s) (modeAsked m (4 + 256 * maint.toNat) s)
  have hlt : serviceMode s < 16 := by
    unfold serviceMode
    split <;> decide
  refine ⟨_, by rw [exec_modeReqService, execModeReqService, modeCommand_runs h (by decide), hrun,
    boot_of_not_pending (by rw [hdev, modeAsked_dev]; exact hs.1)], hmode.trans (Nat.mod_eq_of_lt hlt), hresult⟩

/-- R96: STANDBY is asked for: the ports go down, the engines are on their way to OFF, and the request is in progress. -/
theorem standbyRequest_begins (s : State) : (standbyRequest s).on F.DEV_MODE_transition = true ∧
    (standbyRequest s).dev = { s.dev with req := some 3 } := by
  obtain ⟨u, hu⟩ : ∃ u, u = portsAll false (s.forEach (List.range 2) engineOff) := ⟨_, rfl⟩
  have hdev : u.dev = s.dev := hu ▸ ModesKept.dev ((modesKept_enginesOff s).trans (modesKept_portsAll _ _))
  have hbegin : standbyRequest s = { u.setB F.DEV_MODE_transition true with dev := { u.dev with req := some 3 } } := by rw [hu]; rfl
  rw [hbegin, hdev]
  exact ⟨on_setB u _ true rfl, rfl⟩

theorem exec_modeReqStandby_begins {m : Master} (maint : BitVec 2) {s : State} (h : s.admits m 0x00 true)
    (hidle : s.on F.DEV_MODE_transition = false) (hmode : s.mode = 4 ∨ s.mode = 5 ∨ s.mode = 6) (hs : settled s) :
    ∃ t, exec (.modeReqStandby m maint) s = .next t ∧ t.on F.DEV_MODE_transition = true ∧ t.dev.req = some 3 := by
  have hrun : modeRequest 3 (modeAsked m (3 + 256 * maint.toNat) s) = standbyRequest (modeAsked m (3 + 256 * maint.toNat) s) := by
    rw [modeRequest, modeAsked_mode, if_neg (modeAsked_idle hidle)]
    simp [hmode]
  obtain ⟨hon, hdev⟩ := standbyRequest_begins (modeAsked m (3 + 256 * maint.toNat) s)
  refine ⟨_, by rw [exec_modeReqStandby, execModeReqStandby, modeCommand_runs h (by decide), hrun,
    boot_of_not_pending (by rw [hdev, modeAsked_dev]; exact hs.1)], hon, by rw [hdev]⟩

theorem rulesMode_sa (s : State) : (rulesMode s).cip.sa = s.cip.sa := by
  have tch : Touches.rulesMode (Sparing [.cip]) := by
    repeat' first | with_reducible intro _ | constructor | simp [Sparing]
  have hcip : (rulesMode s).cip = s.cip := (Fits.rulesMode s (.refl _ s) tch).within .cip (by simp [Sparing])
  rw [hcip]

/-- R121: what DORMANT leaves of the modes, of keys and of package memory. -/
theorem dormantEnter_enters {s : State} (hlt : s.mode < 16) : (dormantEnter s).mode = 0 ∧
    (dormantEnter s).g F.DEV_MODE_mode_prev = s.mode ∧ (dormantEnter s).g F.DEV_MODE_req_result = 1 ∧
    (dormantEnter s).cip.sa = [] ∧ (dormantEnter s).buf.mem = [] ∧ (dormantEnter s).dev.bootPending = false := by
  have hmem : _ = [] := resetBlocks_mem false false s
  have hsa := (resetBlocks_store false false s).2
  have hdev := resetBlocks_dev false false s
  unfold dormantEnter
  dsimp only
  rw [(modesKept_rulesMode _).mode, (modesKept_rulesMode _).mode_g (by simp [modeFields]),
    (modesKept_rulesMode _).mode_g (by simp [modeFields]), (modesKept_rulesMode _).mem, (modesKept_rulesMode _).dev, rulesMode_sa]
  simp only [State.setF_cip, State.setB_cip, State.setF_buf, State.setB_buf, State.setF_dev, State.setB_dev, hsa, hmem, hdev,
    and_true]
  refine ⟨?_, ?_, ?_⟩
  · rw [State.mode, g_setF_other _ _ (by simp), g_setB_other _ _ (by simp), g_setF_same]
    rfl
  · rw [g_setF_other _ _ (by simp), g_setB_other _ _ (by simp), g_setF_other _ _ (by simp), g_setF_same]
    exact Nat.mod_eq_of_lt hlt
  · rw [g_setF_same]
    rfl

theorem exec_modeReqDormant_enters {m : Master} (maint : BitVec 2) {s : State} (h : s.admits m 0x00 true)
    (hidle : s.on F.DEV_MODE_transition = false) (hmode : s.mode = 2 ∨ s.mode = 3 ∨ s.mode = 7) :
    ∃ t, exec (.modeReqDormant m maint) s = .next t ∧ t.mode = 0 ∧ t.g F.DEV_MODE_mode_prev = s.mode ∧
      t.g F.DEV_MODE_req_result = 1 ∧ t.cip.sa = [] ∧ t.buf.mem = [] := by
  have hrun : modeRequest 0 (modeAsked m (0 + 256 * maint.toNat) s) = dormantEnter (modeAsked m (0 + 256 * maint.toNat) s) := by
    rw [modeRequest, modeAsked_mode, if_neg (modeAsked_idle hidle)]
    simp [hmode]
  have hsame := modeAsked_mode m (0 + 256 * maint.toNat) s
  obtain ⟨h0, hprev, hresult, hsa, hmem, hpending⟩ := dormantEnter_enters (s := modeAsked m (0 + 256 * maint.toNat) s) (by omega)
  exact ⟨_, by rw [exec_modeReqDormant, execModeReqDormant, modeCommand_runs h (by decide), hrun, boot_of_not_pending hpending],
    h0, hprev.trans hsame, hresult, hsa, hmem⟩

/-- R98: the targets that a write of DEV_MODE stores. -/
theorem maintBits_modeAsked (m : Master) (code : Nat) (hcode : code < 16) (maint : BitVec 2) (s : State) :
    maintBits (modeAsked m (code + 256 * maint.toNat) s) = maint.toNat := by
  have hlt := maint.isLt
  rw [maintBits, modeAsked, storeMaint, g_setF_other _ _ (by simp), g_setF_same, g_setF_same, F.DEV_MODE_maint_le0_width,
    F.DEV_MODE_maint_le1_width]
  omega

theorem modesKept_someOff (p : Nat → Bool) (s : State) : ModesKept s (s.forEach ((List.range 2).filter p) engineOff) := by
  refine .forEachMem _ _ (.refl _ _) fun le hle t ht => ?_
  have hlt : le = 0 ∨ le = 1 := by
    have := List.mem_range.1 (List.mem_filter.1 hle).1
    omega
  obtain rfl | rfl := hlt
  · exact .engineOff _ _ ht modeAsides_sparing.c_engineOff0
  · exact .engineOff _ _ ht modeAsides_sparing.c_engineOff1

/-- R94: from STANDBY a MAINTENANCE request with a target stops the targeted engines and starts warm. -/
theorem maintRequest_standby {s : State} (h3 : s.mode = 3) (ht : maintBits s ≠ 0) (h0 : s.role 0 ≠ 4) (h1 : s.role 1 ≠ 4) :
    ∃ u, ModesKept (setMaint (maintBits s) s) u ∧ maintRequest s = warmStart 6 u := by
  refine ⟨_, modesKept_someOff (fun le => (maintBits s).testBit le && !(s.mode == 6 && s.dev.maint.testBit le)) _, ?_⟩
  rw [maintRequest, if_neg (by simp [ht, h0, h1]), if_neg (by omega), if_pos h3]

theorem exec_modeReqMaintenance_standby {m : Master} {maint : BitVec 2} {s : State} (h : s.admits m 0x00 true)
    (hidle : s.on F.DEV_MODE_transition = false) (h3 : s.mode = 3) (hmaint : maint ≠ 0) (h0 : s.role 0 ≠ 4) (h1 : s.role 1 ≠ 4)
    (hs : settled s) : ∃ t, exec (.modeReqMaintenance m maint) s = .next t ∧ t.mode = 6 ∧ t.dev.maint = maint.toNat ∧
      t.g F.DEV_MODE_req_result = 1 := by
  have hbits := maintBits_modeAsked m 6 (by decide) maint s
  have hne : maint.toNat ≠ 0 := fun e => hmaint (BitVec.eq_of_toNat_eq e)
  have hrole (le : Nat) : (modeAsked m (6 + 256 * maint.toNat) s).role le = s.role le :=
    modeAsked_g _ _ _ (by simp; omega) (by simp; omega)
  obtain ⟨u, hu, hwarm⟩ := maintRequest_standby (s := modeAsked m (6 + 256 * maint.toNat) s) ((modeAsked_mode _ _ _).trans h3)
    (by rwa [hbits]) (by rwa [hrole]) (by rwa [hrole])
  have hrun : modeRequest 6 (modeAsked m (6 + 256 * maint.toNat) s) = warmStart 6 u := by
    rw [modeRequest, modeAsked_mode, if_neg (modeAsked_idle hidle), ← hwarm]
    simp [h3]
  obtain ⟨hmode, hresult, hdev⟩ := warmStart_ends 6 u
  rw [hu.dev] at hdev
  exact ⟨_, by rw [exec_modeReqMaintenance, execModeReqMaintenance, modeCommand_runs h (by decide), hrun,
    boot_of_not_pending (by rw [hdev]; exact (congrArg Dev.bootPending (modeAsked_dev _ _ _)).trans hs.1)], hmode,
    by rw [hdev]; exact hbits, hresult⟩

/-- R91, R98: no mode takes WAKE, DEGRADED, ZEROISED or a reserved code. -/
theorem modeRequest_refused {code : BitVec 4} (hcode : codeRefused code = true) {s : State} (hidle : ¬ s.on F.DEV_MODE_transition = true) :
    modeRequest code.toNat s = reqResult (if code.toNat < 8 then 3 else 4) s := by
  unfold modeRequest
  dsimp only
  rw [if_neg hidle]
  by_cases h8 : 8 ≤ code.toNat
  · rw [if_pos h8, if_neg (by omega)]
  · have hne : code.toNat ≠ 2 ∧ code.toNat ≠ 4 ∧ code.toNat ≠ 6 ∧ code.toNat ≠ 3 ∧ code.toNat ≠ 0 := by
      revert code
      decide
    simp [hne, h8, Nat.lt_of_not_le h8]

theorem exec_modeReqNotAllowed_refused {m : Master} {code : BitVec 4} (maint : BitVec 2) {s : State} (h : s.admits m 0x00 true)
    (hidle : s.on F.DEV_MODE_transition = false) (hcode : codeRefused code = true) (hs : settled s) :
    ∃ t, exec (.modeReqNotAllowed m code maint) s = .next t ∧ t.mode = s.mode ∧
      t.g F.DEV_MODE_req_result = if code.toNat < 8 then 3 else 4 := by
  refine ⟨_, by rw [exec_modeReqNotAllowed, execModeReqNotAllowed, if_pos hcode, modeCommand_runs h code.isLt,
    modeRequest_refused hcode (modeAsked_idle hidle), boot_of_not_pending (by rw [reqResult_dev, modeAsked_dev]; exact hs.1)],
    (reqResult_mode _ _).trans (modeAsked_mode _ _ _), (reqResult_result _ _).trans ?_⟩
  split <;> rfl

/-- Settles O22: each request by `modeRequest`, the ends of a transition by `transitionTo`. -/
theorem modeRequestsAnswered : Obligations.ModeRequestsAnswered := by
  refine ⟨fun m maint s h hidle h7 hflash _ => exec_modeReqSafe_resets maint h hidle h7 hflash,
    fun m maint s => exec_modeReqService_standby maint, fun m maint s => exec_modeReqStandby_begins maint,
    fun m maint s h hidle hmode _ => exec_modeReqDormant_enters maint h hidle hmode,
    fun m maint s => exec_modeReqMaintenance_standby, fun m code maint s => exec_modeReqNotAllowed_refused maint,
    fun s hreq h0 h1 => ?_, fun s hreq h0 h1 => ?_⟩
  · exact ⟨_, by rw [exec_standbyEntryDone, execStandbyEntryDone, if_pos ⟨hreq, h0, h1⟩], transitionTo_mode _ _ _,
      transitionTo_result _ _ _, transitionTo_ends _ _ _, by rw [transitionTo_dev]; rfl, by rw [transitionTo_dev]⟩
  · have hall : ((List.range 2).all fun le => !s.dev.maint.testBit le || s.runState le == 0) = true := by
      simp [List.range_succ, h0, h1]
    exact ⟨_, by rw [exec_maintEntryDone, execMaintEntryDone, if_pos ⟨hreq, hall⟩], transitionTo_mode _ _ _,
      transitionTo_result _ _ _, transitionTo_ends _ _ _, by rw [transitionTo_dev], by rw [transitionTo_dev]⟩

end Sys2Proof.Machine

/-! Hamper, the adaptive supply, tamper and the end of a BCR (O23). -/

namespace Sys2Proof.Machine

/-! ## The end of a BCR (R99, R119, R489) -/

theorem bcrRun_end {n : Nat} {b : Bcr} {s : State} (hb : s.dev.bcr = some b) (hend : b.entries.length ≤ b.idx) :
    bcrRun (n + 1) s = bcrEnd s := by
  rw [bcrRun, hb]
  simp only [List.drop_eq_nil_of_le hend]

theorem bcrEnd_of_no_spi {s : State} (h : s.dev.spiWake = none) :
    bcrEnd s = sealSet true { s.setB F.DEV_STATUS_bcr_applied true with dev := { s.dev with bcr := none } } :=
  spiContinue_none (s := sealSet true { s.setB F.DEV_STATUS_bcr_applied true with dev := { s.dev with bcr := none } }) h

theorem sealSet_sealed (b : Bool) (s : State) : (sealSet b s).on F.HMP_SEAL_sealed = b := by
  rw [sealSet, on_setB_other _ _ (by simp), on_setB _ _ _ rfl]

theorem bcrEnd_ends {s : State} (h : s.dev.spiWake = none) : (bcrEnd s).dev = { s.dev with bcr := none } ∧
    (bcrEnd s).on F.DEV_STATUS_bcr_applied = true ∧ (bcrEnd s).on F.HMP_SEAL_sealed = true := by
  rw [bcrEnd_of_no_spi h]
  refine ⟨rfl, ?_, sealSet_sealed _ _⟩
  rw [sealSet, on_setB_other _ _ (by simp), on_setB_other _ _ (by simp)]
  exact on_setB s _ true rfl

/-- R119: a delay that no entry follows ends the BCR. -/
theorem exec_bcrWaitUs_ends {b : Bcr} {s : State} (hb : s.dev.bcr = some b) (hwait : b.wait = 1)
    (hend : b.entries.length ≤ b.idx) (hspi : s.dev.spiWake = none) (hpending : s.dev.bootPending = false) :
    ∃ t, exec .bcrWaitUs s = .next t ∧ t.dev.bcr = none ∧ t.on F.DEV_STATUS_bcr_applied = true ∧ t.on F.HMP_SEAL_sealed = true := by
  obtain ⟨u, hu⟩ : ∃ u, u = modBcr (fun b => { b with wait := 0, page := 0 }) (s.reach (s.now + b.page * 1000)) := ⟨_, rfl⟩
  have hdev : u.dev = { s.dev with bcr := some { b with wait := 0, page := 0 } } := by simp [hu, modBcr, hb]
  have hresume : bcrResume 1 s = bcrEnd u := by
    rw [bcrResume, hb, hu]
    simp only [hwait, ne_eq, not_true, if_true, if_false]
    exact bcrRun_end (b := { b with wait := 0, page := 0 }) (by rw [← hu, hdev]) hend
  obtain ⟨hafter, happlied, hsealed⟩ := bcrEnd_ends (s := u) (by rw [hdev]; exact hspi)
  refine ⟨_, by rw [exec_bcrWaitUs, execBcrWaitUs, hresume, boot_of_not_pending (by rw [hafter, hdev]; exact hpending)], ?_, happlied,
    hsealed⟩
  rw [hafter]

/-! ## The adaptive supply (R548, R549) -/

theorem exec_avsConfirmed_takes {s : State} (h : s.on F.DEV_AVS_avs_busy = true) : ∃ t, exec .avsConfirmed s = .next t ∧
    t.on F.DEV_AVS_avs_busy = false ∧ t.g F.DEV_AVS_setpoint_code = s.g F.DEV_AVS_fused_code % 256 := by
  refine ⟨_, by rw [exec_avsConfirmed, execAvsConfirmed, if_pos h], ?_, ?_⟩
  · refine (on_setF_other (s.setB F.DEV_AVS_avs_busy false) _ ?_).trans (on_setB _ _ _ rfl)
    simp
  · exact g_setF_same (s.setB F.DEV_AVS_avs_busy false) F.DEV_AVS_setpoint_code _

/-- R549: the set point stays where it is. -/
theorem exec_avsFail_fails {s : State} (h : s.on F.DEV_AVS_avs_busy = true) : ∃ t, exec .avsFail s = .next t ∧
    t.on F.DEV_AVS_avs_busy = false ∧ t.on F.DEV_AVS_avs_fail = true ∧
    t.g F.DEV_AVS_setpoint_code = s.g F.DEV_AVS_setpoint_code ∧
    (s.on (F.ERR_valid 0) = false → t.on (F.ERR_valid 0) = true ∧ t.g (F.ERR_code 0) = 0x8C) := by
  refine ⟨_, by rw [exec_avsFail, execAvsFail, if_pos h], ?_, ?_, ?_, fun hfirst => ⟨err_on_valid _ _ _ _, ?_⟩⟩
  · rw [State.on, err_g_block _ _ _ _ (by simp)]
    exact (on_setB_other _ _ (by simp)).trans (on_setB _ _ _ rfl)
  · rw [State.on, err_g_block _ _ _ _ (by simp)]
    exact on_setB _ _ _ rfl
  · rw [err_g_block _ _ _ _ (by simp), g_setB_other _ _ (by simp), g_setB_other _ _ (by simp)]
  · exact err_g_code _ _ _ _ (by rwa [on_setB_other _ _ (by simp), on_setB_other _ _ (by simp)])

/-! ## Tamper (R424, R425) -/

/-- TMP_STAT's latch with its causes, and the zeroise record. -/
def tamperFields : List Field := [F.TMP_STAT_latched, F.TMP_STAT_latched_causes, F.ENC_ZREC_active]

/-- What a tamper leaves behind: its latch, its causes, the zeroise record and the erased enclave. -/
def tamperParts : List Part := .enc :: tamperFields.map fun f => .reg f.key

theorem Fits.tamper_g {s t : State} (h : Fits (Sparing tamperParts) s t) {f : Field} (hf : f ∈ tamperFields) : t.g f = s.g f :=
  h.g_spared (List.mem_cons_of_mem _ (List.mem_map.2 ⟨f, hf, rfl⟩))

theorem Fits.tamper_enc {s t : State} (h : Fits (Sparing tamperParts) s t) : t.enc = s.enc :=
  h.within .enc (by simp [Sparing, tamperParts])

theorem zeroisedEnter_sparing : Touches.zeroisedEnter (Sparing tamperParts) := by
  have hevt (p : Nat) : Touches.evt (Sparing tamperParts) p := by
    repeat' first | constructor | (simp [Sparing, tamperParts, tamperFields] <;> omega)
  repeat' first
    | with_reducible intro _
    | with_reducible exact hevt _
    | constructor
    | (simp [Sparing, tamperParts, tamperFields, lep] <;> omega)

theorem tamperRecord_mode (s : State) : (tamperRecord s).mode = s.mode := by
  have tch : Touches.tamperRecord (Sparing [.reg F.DEV_MODE_mode.key]) := by repeat' first | constructor | simp [Sparing]
  exact (Fits.tamperRecord s (.refl _ s) tch).g_spared (List.mem_singleton.2 rfl)

theorem zeroisedEnter_mode (s : State) : (zeroisedEnter s).mode = 7 := by
  have hrecord (u : State) : (if u.dev.tripped = 0 then u else tamperRecord (State.evt 0xFC 1 (State.evt 0xFC 0 u))).mode = u.mode := by
    split
    · rfl
    · rw [tamperRecord_mode, (modesKept_evt _ _ _).mode, (modesKept_evt _ _ _).mode]
  have hstop (keep : Prop) [Decidable keep] (u : State) :
      (if keep then u else portsAll false (u.forEach (List.range 2) engineOff)).mode = u.mode := by
    split
    · rfl
    · rw [(modesKept_portsAll _ _).mode, (modesKept_enginesOff _).mode]
  unfold zeroisedEnter
  dsimp only
  rw [hrecord, hstop, modeTo_mode]

/-- R425 step 3: the key-loading key and the agreement pair are destroyed, and the record is written. -/
theorem zeroiseRecord_destroys (s : State) : (zeroiseRecord s).enc.klk = none ∧ (zeroiseRecord s).enc.agree = none ∧
    (zeroiseRecord s).on F.ENC_ZREC_active = true := by
  have tch : Touches.debugClose (Sparing [.enc]) := by repeat' first | constructor | simp [Sparing]
  have hclose (u : State) : (debugClose u).enc = u.enc :=
    (Fits.debugClose u (.refl _ u) tch).within .enc (by simp [Sparing])
  unfold zeroiseRecord
  simp only [State.setB_enc, State.setF_enc, State.bump_enc, hclose, true_and]
  rw [on_setB_other _ _ (by simp), on_setB_other _ _ (by simp), on_setF_other _ _ (by simp), on_setF_other _ _ (by simp),
    on_setF_other _ _ (by simp), State.bump, on_setF_other _ _ (by simp), on_setB _ _ _ rfl]

/-- R425: the zeroise record leaves mode, latch and causes. -/
theorem zeroiseRecord_g (s : State) {f : Field} (hf : f ∈ [F.DEV_MODE_mode, F.TMP_STAT_latched, F.TMP_STAT_latched_causes]) :
    (zeroiseRecord s).g f = s.g f := by
  have tch : Touches.zeroiseRecord
      (Sparing ([F.DEV_MODE_mode, F.TMP_STAT_latched, F.TMP_STAT_latched_causes].map fun f => .reg f.key)) := by
    repeat' first | constructor | simp [Sparing]
  exact (Fits.zeroiseRecord s (.refl _ s) tch).g_spared (List.mem_map.2 ⟨f, hf, rfl⟩)

/-- R425: what a trip of sensor `c` writes in the registers. -/
def tamperMarks (c lights : Nat) (s : State) : State :=
  let s := (s.setB F.TMP_STAT_latched true).setF F.TMP_STAT_latched_causes (s.g F.TMP_STAT_latched_causes ||| 2 ^ c)
  let s := s.setB F.DEV_STATUS_tamper_latched true
  if c = 5 then s.setF F.TMP_LIGHT_sensors lights else s

/-- R425: the latch of a trip of sensor `c`, before the enclave acts on it. -/
def tamperLatch (c lights : Nat) (s : State) : State :=
  { tamperMarks c lights s with dev := { s.dev with tripped := s.dev.tripped ||| 2 ^ c } }

theorem tamperMarks_dev (c lights : Nat) (s : State) : (tamperMarks c lights s).dev = s.dev := by
  unfold tamperMarks
  dsimp only
  split <;> rfl

/-- R425: the response of the enclave to a latched trip. -/
def tamperResponse (s : State) : State :=
  let s := zeroiseRecord (cipErase 4 s)
  if s.mode = 7 then tamperRecord (State.evt 0xFC 0 s) else zeroisedEnter s

theorem tamperTrip_eq (c lights : Nat) (s : State) : tamperTrip c lights s =
    if ¬ enclaveUp (tamperLatch c lights s) ∨ (tamperLatch c lights s).dev.bootPending then
      { tamperLatch c lights s with enc := { (tamperLatch c lights s).enc with eraseDue := true } }
    else tamperResponse (tamperLatch c lights s) := by
  rw [tamperLatch, ← tamperMarks_dev c lights s]
  rfl

theorem tamperLatch_g (c lights : Nat) (s : State) {f : Field} (hl : f.key ≠ F.TMP_LIGHT_sensors.key)
    (hd : f.key ≠ F.DEV_STATUS_tamper_latched.key) : (tamperLatch c lights s).g f =
      ((s.setB F.TMP_STAT_latched true).setF F.TMP_STAT_latched_causes (s.g F.TMP_STAT_latched_causes ||| 2 ^ c)).g f := by
  change (tamperMarks c lights s).g f = _
  unfold tamperMarks
  dsimp only
  split
  · rw [g_setF_other _ _ hl, g_setB_other _ _ hd]
  · rw [g_setB_other _ _ hd]

theorem tamperLatch_latches {c : Nat} (hc : c < 6) (lights : Nat) (s : State) :
    (tamperLatch c lights s).on F.TMP_STAT_latched = true ∧
    ((tamperLatch c lights s).g F.TMP_STAT_latched_causes).testBit c = true := by
  rw [State.on, tamperLatch_g _ _ _ (by simp) (by simp), tamperLatch_g _ _ _ (by simp) (by simp), g_setF_other _ _ (by simp),
    g_setF_same, Nat.testBit_mod_two_pow, Nat.testBit_or, Nat.testBit_two_pow_self]
  exact ⟨on_setB s _ true rfl, by simp [Nat.lt_trans hc]⟩

theorem tamperLatch_enclaveUp (c lights : Nat) (s : State) : enclaveUp (tamperLatch c lights s) = enclaveUp s := by
  have hmode : (tamperLatch c lights s).mode = s.mode := by
    rw [State.mode, tamperLatch_g _ _ _ (by simp) (by simp), g_setF_other _ _ (by simp), g_setB_other _ _ (by simp), State.mode]
  rw [enclaveUp, hmode]
  rfl

/-- R97, R425: whatever the mode, the response keeps the latch and its causes, destroys the keys and ends in ZEROISED. -/
theorem tamperResponse_zeroises (s : State) : (tamperResponse s).enc.klk = none ∧ (tamperResponse s).enc.agree = none ∧
    (tamperResponse s).on F.ENC_ZREC_active = true ∧ (tamperResponse s).mode = 7 ∧
    (tamperResponse s).g F.TMP_STAT_latched = s.g F.TMP_STAT_latched ∧
    (tamperResponse s).g F.TMP_STAT_latched_causes = s.g F.TMP_STAT_latched_causes := by
  obtain ⟨hklk, hagree, hrecord⟩ := zeroiseRecord_destroys (cipErase 4 s)
  have hlatch {f : Field} (hf : f ∈ [F.DEV_MODE_mode, F.TMP_STAT_latched, F.TMP_STAT_latched_causes]) (hm : f ∈ modeFields) :
      (zeroiseRecord (cipErase 4 s)).g f = s.g f := (zeroiseRecord_g _ hf).trans ((modesKept_cipErase 4 s).mode_g hm)
  have hend : Fits (Sparing tamperParts) (zeroiseRecord (cipErase 4 s)) (tamperResponse s) :=
    .ite (fun _ => .tamperRecord _ (.evt _ _ _ (.refl _ _) zeroisedEnter_sparing.c_evt) zeroisedEnter_sparing.c_tamperRecord)
      fun _ => .zeroisedEnter _ (.refl _ _) zeroisedEnter_sparing
  have hmode : (tamperResponse s).mode = 7 := by
    unfold tamperResponse
    dsimp only
    split
    next h7 => rw [tamperRecord_mode, (modesKept_evt _ _ _).mode, h7]
    · exact zeroisedEnter_mode _
  have hkept {f : Field} (hf : f ∈ tamperFields) := hend.tamper_g hf
  rw [hend.tamper_enc, State.on, hkept (f := F.ENC_ZREC_active) (by simp [tamperFields]),
    hkept (f := F.TMP_STAT_latched) (by simp [tamperFields]), hkept (f := F.TMP_STAT_latched_causes) (by simp [tamperFields]),
    hlatch (f := F.TMP_STAT_latched) (by simp) (by simp [modeFields]),
    hlatch (f := F.TMP_STAT_latched_causes) (by simp) (by simp [modeFields])]
  exact ⟨hklk, hagree, hrecord, hmode, rfl, rfl⟩

theorem tamperTrip_trips {c : Nat} (hc : c < 6) (lights : Nat) (s : State) :
    (tamperTrip c lights s).on F.TMP_STAT_latched = true ∧
    ((tamperTrip c lights s).g F.TMP_STAT_latched_causes).testBit c = true ∧
    (enclaveUp s = true → s.dev.bootPending = false → (tamperTrip c lights s).enc.klk = none ∧
      (tamperTrip c lights s).enc.agree = none ∧ (tamperTrip c lights s).on F.ENC_ZREC_active = true ∧
      (tamperTrip c lights s).mode = 7) ∧
    (enclaveUp s = false ∨ s.dev.bootPending = true → (tamperTrip c lights s).enc.eraseDue = true) := by
  obtain ⟨hlatched, hcauses⟩ := tamperLatch_latches hc lights s
  have hpending : (tamperLatch c lights s).dev.bootPending = s.dev.bootPending := rfl
  rw [tamperTrip_eq, tamperLatch_enclaveUp, hpending]
  split
  next h => exact ⟨hlatched, hcauses, fun h1 h2 => absurd h (by simp [h1, h2]), fun _ => rfl⟩
  next h =>
    obtain ⟨hklk, hagree, hrecord, hmode, hl, hcs⟩ := tamperResponse_zeroises (tamperLatch c lights s)
    rw [State.on, hl, hcs]
    exact ⟨hlatched, hcauses, fun _ _ => ⟨hklk, hagree, hrecord, hmode⟩, fun h' => absurd (by simpa using h') h⟩

/-- R424: the raw report of sensor `c`. -/
def tamperRaw (c : Nat) (s : State) : State := s.setF F.TMP_STAT_raw (s.g F.TMP_STAT_raw ||| 2 ^ c)

theorem tamperRaw_g (c : Nat) (s : State) {f : Field} (hf : f.key ≠ F.TMP_STAT_raw.key) : (tamperRaw c s).g f = s.g f :=
  g_setF_other _ _ hf

theorem tamperRaw_enclaveUp (c : Nat) (s : State) : enclaveUp (tamperRaw c s) = enclaveUp s := by
  have hmode : (tamperRaw c s).mode = s.mode := tamperRaw_g c s (by simp)
  rw [enclaveUp, hmode]
  rfl

theorem execTamperTrip_on {c : Fin 6} (lights : BitVec 16) {s : State} (hvaon : s.dev.vaon = true) :
    execTamperTrip c lights s =
      .next (if sensorOn s c.val then tamperTrip c.val lights.toNat (tamperRaw c.val s) else tamperRaw c.val s) := by
  have hsensor : sensorOn (tamperRaw c.val s) c.val = sensorOn s c.val := by rw [sensorOn, tamperRaw_g _ _ (by simp), sensorOn]
  rw [execTamperTrip, if_pos hvaon, ← hsensor]
  rfl

theorem exec_tamperTrip_enabled {c : Fin 6} (lights : BitVec 16) {s : State} (hvaon : s.dev.vaon = true)
    (hsensor : sensorOn s c.val = true) : ∃ t, exec (.tamperTrip c lights) s = .next t ∧
    t.on F.TMP_STAT_latched = true ∧ (t.g F.TMP_STAT_latched_causes).testBit c.val = true ∧
    (enclaveUp s = true → s.dev.bootPending = false → t.enc.klk = none ∧ t.enc.agree = none ∧ t.on F.ENC_ZREC_active = true ∧
      t.mode = 7) ∧
    (enclaveUp s = false ∨ s.dev.bootPending = true → t.enc.eraseDue = true) := by
  have htrip := tamperTrip_trips c.isLt lights.toNat (tamperRaw c.val s)
  rw [tamperRaw_enclaveUp] at htrip
  exact ⟨_, by rw [exec_tamperTrip, execTamperTrip_on lights hvaon, if_pos hsensor], htrip⟩

/-- R424: a sensor that is off shows in raw alone. -/
theorem exec_tamperTrip_masked {c : Fin 6} (lights : BitVec 16) {s : State} (hvaon : s.dev.vaon = true)
    (hsensor : sensorOn s c.val = false) : ∃ t, exec (.tamperTrip c lights) s = .next t ∧
    (t.g F.TMP_STAT_raw).testBit c.val = true ∧ t.enc = s.enc ∧ t.mode = s.mode ∧
    t.on F.TMP_STAT_latched = s.on F.TMP_STAT_latched := by
  refine ⟨tamperRaw c.val s, by rw [exec_tamperTrip, execTamperTrip_on lights hvaon, if_neg (by simp [hsensor])], ?_, rfl,
    tamperRaw_g _ _ (by simp), congrArg (· == 1) (tamperRaw_g _ _ (by simp))⟩
  rw [tamperRaw, g_setF_same, Nat.testBit_mod_two_pow, Nat.testBit_or, Nat.testBit_two_pow_self]
  simp [Nat.lt_trans c.isLt]

/-! ## Hamper's registers (R486, R488) -/

theorem refuse_sticky (m : Nat) (r : FabReason) (addr : Nat) (s : State) (h : definedPage (pageOf addr) = true) :
    (State.refuse m r addr s).sticky (pageOf addr) 26 := by
  rw [State.refuse, if_pos h]
  exact sticky_evt _ _ _ (by decide)

theorem exec_hmpSeal_seals {m : Master} {s : State} (h : s.admits m 0xE0 true) : ∃ t, exec (.hmpSeal m) s = .next t ∧
    (m = .mgmt → t.on F.HMP_SEAL_sealed = true) ∧
    (m ≠ .mgmt → t.on F.HMP_SEAL_sealed = s.on F.HMP_SEAL_sealed ∧ t.sticky 0xE0 26) := by
  refine ⟨_, by rw [exec_hmpSeal, execHmpSeal, h.runs rfl], fun hm => ?_, fun hm => ?_⟩
  · rw [sealWrite, if_neg (by simp [hm]), if_pos (by decide)]
    exact sealSet_sealed _ _
  · rw [sealWrite, if_pos hm]
    refine ⟨?_, refuse_sticky _ _ 0xE004C _ h.2.1⟩
    rw [State.on, g_refuse_other _ _ _ _ (by decide) (by simp) (by simp) (by simp) (by simp), g_access, State.on]

theorem exec_hmpLogPop_front {m : Master} {l : RuleLog} {rest : List RuleLog} {s : State} (h : s.admits m 0xE2 true)
    (hlog : s.hmpLog = l :: rest) : ∃ t, exec (.hmpLogPop m) s = .next t ∧ t.hmpLog = rest ∧
    t.g (F.HMP_LOG_bits 0) = l.w0 % 2 ^ 32 ∧ t.g (F.HMP_LOG_bits 1) = l.f % 2 ^ 32 ∧
    t.g (F.HMP_LOG_bits 2) = l.time % 2 ^ 32 ∧ t.g (F.HMP_LOG_bits 3) = l.time / 2 ^ 32 % 2 ^ 32 := by
  have haccess : (s.access m).hmpLog = l :: rest := by simpa using hlog
  refine ⟨_, by rw [exec_hmpLogPop, execHmpLogPop, h.runs rfl], ?_⟩
  rw [logPop, haccess]
  refine ⟨rfl, ?_, ?_, ?_, g_setF_same _ _ _⟩
  · rw [g_setF_other _ _ (by simp), g_setF_other _ _ (by simp), g_setF_other _ _ (by simp), g_setF_same]
    rfl
  · rw [g_setF_other _ _ (by simp), g_setF_other _ _ (by simp), g_setF_same]
    rfl
  · rw [g_setF_other _ _ (by simp), g_setF_same]
    rfl

/-- R486: the fields of HMP_PD. -/
def pdFields : List FSpec := [⟨1, 1, .w1c, 0⟩, ⟨0, 0, .w1c, 0⟩]

theorem plainRegister_pd (m : Master) (v : Nat) : plainRegister m 0xE0050 v :=
  ⟨by decide, by decide, by decide, by decide, by decide, by decide, rfl⟩

/-- R15: a bit cleared by writing 1. -/
theorem writtenField_w1c_bit (addr v lo reset old : Nat) :
    writtenField addr v ⟨lo, lo, .w1c, reset⟩ old = if v.testBit lo then 0 else old % 2 := by
  have hbits : fieldBits v ⟨lo, lo, .w1c, reset⟩ = (v.testBit lo).toNat := by
    simp [fieldBits, Nat.toNat_testBit]
  rw [writtenField]
  simp only [hbits, fieldAt_width]
  cases v.testBit lo <;> simp

/-- R486: a write of HMP_PD takes its bits by their codes. -/
theorem pdWrite_g {m : Master} {s : State} (h : s.admits m 0xE0 true) (v : Nat) {f : FSpec} (hf : f ∈ pdFields) :
    (busWrite m 0xE0050 v s).g (fieldAt 0xE0050 f) = writtenField 0xE0050 v f (s.g (fieldAt 0xE0050 f)) := by
  obtain ⟨hreach, hpage, -, hlock⟩ := h
  have hvaon : s.dev.vaon = true := by
    by_contra hv
    simp [State.reaches, hv] at hreach
  have hreg : regAt 0xE0050 = some pdFields := rfl
  rw [busWrite_plain (plainRegister_pd m v) hreach hpage,
    plainWrite_admitted hreg (by rw [domainUp_access]; exact hvaon) (by rw [lockedOut_access]; exact hlock), g_forEach_fieldWrite hreg hf,
    g_access]

/-- R486: of a power-down bit `f` of HMP_PD a 1 written clears it and a 0 leaves it. -/
theorem pdWrite_bit {m : Master} {s : State} (h : s.admits m 0xE0 true) (bits : BitVec 2) {lo : Nat}
    (hf : ⟨lo, lo, .w1c, 0⟩ ∈ pdFields) :
    (bits.getLsbD lo = true → (busWrite m 0xE0050 bits.toNat s).on (fieldAt 0xE0050 ⟨lo, lo, .w1c, 0⟩) = false) ∧
    (bits.getLsbD lo = false → s.on (fieldAt 0xE0050 ⟨lo, lo, .w1c, 0⟩) = true →
      (busWrite m 0xE0050 bits.toNat s).on (fieldAt 0xE0050 ⟨lo, lo, .w1c, 0⟩) = true) := by
  have hwrite := pdWrite_g h bits.toNat hf
  rw [writtenField_w1c_bit, BitVec.testBit_toNat] at hwrite
  refine ⟨fun hb => ?_, fun hb hon => ?_⟩
  · rw [State.on, hwrite, if_pos hb]
    rfl
  · have hold : s.g (fieldAt 0xE0050 ⟨lo, lo, .w1c, 0⟩) = 1 := by simpa [State.on] using hon
    rw [State.on, hwrite, if_neg (by simp [hb]), hold]
    rfl

theorem exec_hmpPdRelease_clears {m : Master} (bits : BitVec 2) {s : State} (h : s.admits m 0xE0 true) :
    ∃ t, exec (.hmpPdRelease m bits) s = .next t ∧
      (bits.getLsbD 0 = true → t.on F.HMP_PD_le0 = false) ∧
      (bits.getLsbD 0 = false → s.on F.HMP_PD_le0 = true → t.on F.HMP_PD_le0 = true) ∧
      (bits.getLsbD 1 = true → t.on F.HMP_PD_le1 = false) ∧
      (bits.getLsbD 1 = false → s.on F.HMP_PD_le1 = true → t.on F.HMP_PD_le1 = true) := by
  obtain ⟨hset0, hkept0⟩ := pdWrite_bit h bits (lo := 0) (by simp [pdFields])
  obtain ⟨hset1, hkept1⟩ := pdWrite_bit h bits (lo := 1) (by simp [pdFields])
  exact ⟨_, exec_hmpPdRelease m bits s, hset0, hkept0, hset1, hkept1⟩

/-- Settles O23, command by command. -/
theorem hamperAndSupplyRun : Obligations.HamperAndSupplyRun :=
  ⟨fun _ _ => exec_bcrWaitUs_ends, fun _ => exec_avsConfirmed_takes, fun _ => exec_avsFail_fails,
    fun _ lights _ => exec_tamperTrip_enabled lights, fun _ lights _ => exec_tamperTrip_masked lights, fun _ _ => exec_hmpSeal_seals,
    fun _ _ _ _ => exec_hmpLogPop_front, fun _ bits _ => exec_hmpPdRelease_clears bits⟩

end Sys2Proof.Machine

/-! The transmit mask (O25). -/

namespace Sys2Proof.Machine

/-! ## The bins over their limits (R144, R145, R146) -/

/-- R144, R145: the bins of a measurement that lie over their limits, with their excess. -/
def maskOver (s : State) (le : Nat) (psd : List (Fin 256 × Int)) : List (Nat × Nat) :=
  (psd.map fun e => (e.1.val, maskExcess s le e.1.val e.2)).filter fun e => e.2 != 0

/-- R146: how many measurements in a row each of the bins `ex` has exceeded, this one included. -/
def maskRuns (s : State) (le : Nat) (ex : List (Nat × Nat)) : Tbl Nat :=
  ex.foldl (fun t e => Tbl.set 0 t e.1 (Tbl.get 0 (s.eng le).tx.maskRun e.1 + 1)) []

theorem length_maskOver (s : State) (le : Nat) (psd : List (Fin 256 × Int)) :
    (maskOver s le psd).length = (psd.filter fun e => maskExcess s le e.1.val e.2 ≠ 0).length := by
  rw [maskOver, List.filter_map, List.length_map]
  congr 2
  funext e
  exact (decide_not (p := maskExcess s le e.1.val e.2 = 0)).symm

theorem maskOver_ne_nil {s : State} {le : Nat} {psd : List (Fin 256 × Int)}
    (h : ∃ e ∈ psd, maskExcess s le e.1.val e.2 ≠ 0) : maskOver s le psd ≠ [] := by
  obtain ⟨e, hmem, hover⟩ := h
  exact List.ne_nil_of_mem (List.mem_filter.2 ⟨List.mem_map_of_mem hmem, by simpa using hover⟩)

theorem Tbl.insert_ne_nil {α : Type} (t : Tbl α) (k : Nat) (v : α) : Tbl.insert t k v ≠ [] := by
  intro h
  have hfind := Tbl.find_insert_same t k v
  rw [h] at hfind
  cases hfind

/-- The last bin counted is listed, for its count is not the default. -/
theorem maskRuns_ne_nil (s : State) (le : Nat) {ex : List (Nat × Nat)} (h : ex ≠ []) : maskRuns s le ex ≠ [] := by
  rw [maskRuns, ← List.dropLast_append_getLast h, List.foldl_concat, Tbl.set, if_neg (by omega)]
  exact Tbl.insert_ne_nil _ _ _

/-- A bin is listed only with a count of at least 1. -/
theorem one_le_of_mem_maskRuns {s : State} {le : Nat} {ex : List (Nat × Nat)} {e : Nat × Nat} (h : e ∈ maskRuns s le ex) :
    1 ≤ e.2 := by
  have hwf : Tbl.wf 0 (maskRuns s le ex) = true := Tbl.wf_foldl_set _ _ ex rfl
  exact Nat.one_le_iff_ne_zero.2 ((Tbl.wf_iff.1 hwf).2 e h)

/-- R146: at persist 1 every bin over its limit violates the mask in its first measurement. -/
theorem maskRuns_violating_ne_nil (s : State) (le : Nat) {ex : List (Nat × Nat)} (h : ex ≠ []) {persist : Nat}
    (hp : persist ≤ 1) : (maskRuns s le ex).filter (fun e => persist ≤ e.2) ≠ [] := by
  have hall : (maskRuns s le ex).filter (fun e => persist ≤ e.2) = maskRuns s le ex :=
    List.filter_eq_self.2 fun e he => decide_eq_true (hp.trans (one_le_of_mem_maskRuns he))
  rw [hall]
  exact maskRuns_ne_nil s le h

/-! ## A measurement (R144 to R148) -/

/-- The fields of LEn_TX_MASK_STAT that count the bins over their limits and show a violation (R146). -/
def maskParts (le : Nat) : List Part :=
  [.reg (F.LE_TX_MASK_STAT_bins_over le).key, .reg (F.LE_TX_MASK_STAT_violation le).key]

/-- R146, R147: whether a violation is declared after a measurement whose bins over their limits are `ex`. -/
def maskDeclared (s : State) (le : Nat) (ex : List (Nat × Nat)) : Bool :=
  let persist := s.cur (F.LE_TX_MASK_CTRL_persist le)
  !(((maskRuns s le ex).filter fun e => persist ≤ e.2).map (·.1)).isEmpty ||
    (s.on (F.LE_TX_MASK_STAT_violation le) && decide ((if ex.isEmpty then (s.eng le).tx.maskClean + 1 else 0) < persist))

theorem maskDeclared_of_over {s : State} {le : Nat} {ex : List (Nat × Nat)} (h : ex ≠ [])
    (hp : s.cur (F.LE_TX_MASK_CTRL_persist le) ≤ 1) : maskDeclared s le ex = true := by
  simp only [maskDeclared, List.isEmpty_map, Bool.or_eq_true, Bool.not_eq_true', List.isEmpty_eq_false_iff]
  exact .inl (maskRuns_violating_ne_nil s le h hp)

/-- R146, R147: what follows the reports of a measurement leaves them: the event, the count of violations, the subcarriers to be
muted. -/
theorem maskConsequences_fits (le : Nat) (declared : Bool) (f : Tx → Tx) (s : State) :
    Fits (Sparing (maskParts le)) s
      ((if declared then (State.level (lep le 0x15) 0 declared s).bump (F.LE_TX_MASK_VIOL_CNT_count le) 1
        else State.level (lep le 0x15) 0 declared s).modTx le f) := by
  have htx : Sparing (maskParts le) (.tx (le != 0)) := by simp [Sparing, maskParts]
  have hcount : Sparing (maskParts le) (.reg (F.LE_TX_MASK_VIOL_CNT_count le).key) := by simp [Sparing, maskParts]; omega
  have hlevel : Touches.level (Sparing (maskParts le)) (lep le 0x15) := by
    repeat' first | constructor | (simp [Sparing, maskParts, lep] <;> omega)
  have hraised := Fits.level (lep le 0x15) 0 declared s (.refl _ s) hlevel
  exact .modTx _ _ _ (.ite (fun _ => .bump _ _ _ hraised hcount) fun _ => hraised) htx

/-- R146: an evaluated measurement writes the count of the bins over their limits and whether a violation is declared. -/
theorem maskMeasure_fits {le : Nat} (psd : List (Fin 256 × Int)) {s : State} (h : s.cur (F.LE_TX_MASK_CTRL_action le) ≠ 0) :
    ∃ u : State, Fits (Sparing (maskParts le))
      ((u.setF (F.LE_TX_MASK_STAT_bins_over le) (maskOver s le psd).length).setB (F.LE_TX_MASK_STAT_violation le)
        (maskDeclared s le (maskOver s le psd))) (maskMeasure le psd s) := by
  unfold maskMeasure
  rw [if_neg h]
  exact ⟨_, maskConsequences_fits le _ _ _⟩

theorem maskMeasure_g_bins_over (le : Nat) (psd : List (Fin 256 × Int)) {s : State}
    (h : s.cur (F.LE_TX_MASK_CTRL_action le) ≠ 0) :
    (maskMeasure le psd s).g (F.LE_TX_MASK_STAT_bins_over le) =
      (psd.filter fun e => maskExcess s le e.1.val e.2 ≠ 0).length % 512 := by
  obtain ⟨u, hfits⟩ := maskMeasure_fits psd h
  rw [hfits.g_spared (by simp [maskParts]), g_setB_other _ _ (by simp), g_setF_same, length_maskOver]
  rfl

theorem maskMeasure_violation (le : Nat) (psd : List (Fin 256 × Int)) {s : State}
    (h : s.cur (F.LE_TX_MASK_CTRL_action le) ≠ 0) :
    (maskMeasure le psd s).on (F.LE_TX_MASK_STAT_violation le) = maskDeclared s le (maskOver s le psd) := by
  obtain ⟨u, hfits⟩ := maskMeasure_fits psd h
  rw [hfits.on_spared (by simp [maskParts]), on_setB _ _ _ rfl]

/-- R148: the count of clipped samples leaves the reports of the mask. -/
theorem clipTake_fits (le : Nat) (s : State) : Fits (Sparing (maskParts le)) s (clipTake le s) := by
  have tch : Touches.clipTake (Sparing (maskParts le)) le := by
    repeat' first | with_reducible intro _ | constructor | (simp [Sparing, maskParts, lep] <;> omega)
  exact .clipTake _ _ (.refl _ _) tch

theorem exec_maskMeasurement_running (le : Fin 2) (psd : List (Fin 256 × Int)) {s : State} (hrun : s.runState le.val = 2)
    (hpage : s.pageOn (lep le.val 0x15) = true) :
    exec (.maskMeasurement le psd) s = .next (clipTake le.val (maskMeasure le.val psd s)) := by
  rw [exec_maskMeasurement, execMaskMeasurement, if_pos hrun, if_pos hpage]

/-! ## MASK_UNMUTE (R147) -/

/-- R147: a write of LEn_TX_MASK_MUTED that reaches a running page clears the bits written with 1. -/
theorem maskUnmute_g_muted {m : Master} {le : Nat} (bits : Nat) {s : State} (hreach : s.reaches m (lep le 0x15) = true)
    (hup : s.domainUp (lep le 0x15) = true) :
    (maskUnmute m le bits s).g (F.LE_TX_MASK_MUTED_muted le) =
      (s.g (F.LE_TX_MASK_MUTED_muted le) &&& (bits ^^^ 0xFFFFFFFF)) % 2 ^ 32 := by
  unfold maskUnmute
  dsimp only
  rw [if_neg (by simp [hreach]), if_neg (by simp [hup]), g_setB_other _ _ (by simp; omega), g_setF_same, g_access]
  rfl

/-- Settles O25: a measurement reports the bins over their limits, a bin over its limit at persist 1 declares the violation, and
MASK_UNMUTE writes the muted bits back less those written with 1. -/
theorem maskCommandsRun : Obligations.MaskCommandsRun := by
  refine ⟨fun le psd s hrun hpage haction => ⟨_, exec_maskMeasurement_running le psd hrun hpage, ?_, fun hover hpersist => ?_⟩,
    fun m le bits s hreach hup => ⟨_, exec_maskUnmute m le bits s, maskUnmute_g_muted bits.toNat hreach hup⟩⟩
  · rw [(clipTake_fits le.val _).g_spared (by simp [maskParts]), maskMeasure_g_bins_over _ _ haction]
  · rw [(clipTake_fits le.val _).on_spared (by simp [maskParts]), maskMeasure_violation _ _ haction]
    exact maskDeclared_of_over (maskOver_ne_nil hover) hpersist

end Sys2Proof.Machine

/-! The receiver of a line engine moves from state to state (O26). -/

namespace Sys2Proof.Machine

/-! ## What a move of the receiver leaves (R170, R171) -/

theorem curOn_of_inForce {s t : State} (h : t.inForce = s.inForce) (f : Field) : t.curOn f = s.curOn f := by
  rw [State.curOn, State.cur, h, State.curOn, State.cur]

theorem curOn_modRx (s : State) (le : Nat) (e : Rx → Rx) (f : Field) : (s.modRx le e).curOn f = s.curOn f :=
  curOn_of_inForce (by simp) f

/-- What a move of the receiver of engine `le` never touches: the settings in force, the role, whether the receive pages are enabled,
the loss of signal, the common offset, the events of page 0x1B. -/
def rxKept (le : Nat) : List Part :=
  [.inForce, .reg (F.LE_ROLE_STAT_role_active le).key, .reg (F.PAGE_CTRL_enable (lep le 0x18)).key,
   .reg (F.LE_RX_STATE_los_raw le).key, .reg (F.LE_RX_CR_COMMON_offset le).key, .reg (F.EVT_STICKY (lep le 0x1B)).key]

/-- What the locks, the frames and the followed change of engine `le` do not touch while the receiver moves: beside `rxKept` its state
and the CD estimate. -/
def rxMoved (le : Nat) : List Part := .reg (F.LE_RX_STATE_state le).key :: .reg (F.LE_RX_CD_EST_cd le).key :: rxKept le

theorem rxGo_sparing_rxKept (le : Nat) : Touches.rxGo (Sparing (rxKept le)) le := by
  repeat' first | with_reducible intro _ | constructor | (simp [Sparing, rxKept, lep] <;> omega)

/-- What follows a move of the receiver of engine `le`: locks of the subcarriers, code-word states, a lost follow, lol_raw. -/
structure Touches.rxFollows (N : Part → Prop) (le : Nat) : Prop where
  c_followLost : Touches.followLost N le
  c_cwHuntAll : Touches.cwHuntAll N le
  c_scGo : Touches.scGo N le
  c_setLol : Touches.setLol N le

theorem rxFollows_sparing (le : Nat) : Touches.rxFollows (Sparing (rxMoved le)) le := by
  repeat' first | with_reducible intro _ | constructor | (simp [Sparing, rxMoved, rxKept, lep] <;> omega)

theorem rxGo_fits (le v : Nat) (s : State) : Fits (Sparing (rxKept le)) s (rxGo le v s) :=
  .rxGo _ _ _ (.refl _ _) (rxGo_sparing_rxKept le)

/-- R171: with the receiver of engine `le` gone from state `was` to state `v` its subcarriers start, go on or return to SEARCH. -/
def subsFollow (le was v : Nat) (s : State) : State :=
  let runs (x : Nat) := x == 4 || x == 5 || x == 6
  if runs v then
    (if runs was then s else s.forEach (lockSubs s le) (fun k s => if s.scOf le k = 0 then scGo le k 1 s else s))
  else s.forEach (List.range 32) (fun k s => if s.scOf le k = 0 then s else scGo le k 0 s)

/-- R170, R171, R249: what follows the move of the receiver of engine `le` from state `was` to state `v`, which it has taken. -/
def rxFollow (le was v : Nat) (s : State) : State :=
  let s := subsFollow le was v (setLol le (v != 5) s)
  if was = 5 ∨ was = 6 then cwHuntAll le (followLost le s) else s

theorem subsFollow_fits (le was v : Nat) (s : State) : Fits (Sparing (rxMoved le)) s (subsFollow le was v s) := by
  have tch := (rxFollows_sparing le).c_scGo
  have hs := Fits.refl (Sparing (rxMoved le)) s
  refine .ite (fun _ => .ite (fun _ => hs) fun _ => ?_) fun _ => ?_
  · exact .forEach _ _ hs fun k t ht => .ite (fun _ => .scGo _ _ _ _ ht tch) fun _ => ht
  · exact .forEach _ _ hs fun k t ht => .ite (fun _ => ht) fun _ => .scGo _ _ _ _ ht tch

theorem rxFollow_fits (le was v : Nat) (s : State) : Fits (Sparing (rxMoved le)) s (rxFollow le was v s) := by
  have tch := rxFollows_sparing le
  have hsubs := (Fits.setLol le (v != 5) s (.refl _ s) tch.c_setLol).trans (subsFollow_fits le was v _)
  exact .ite (fun _ => .cwHuntAll _ _ (.followLost _ _ hsubs tch.c_followLost) tch.c_cwHuntAll) fun _ => hsubs

/-- R170: a receiver that changes its state takes it, does what follows, loads the CD filter with a fixed set where acquisition of the
frequency begins, and raises STATE_CHANGE. -/
theorem rxGo_moves {le v : Nat} {s : State} (hon : s.pageOn (lep le 0x18) = true) (hv : s.g (F.LE_RX_STATE_state le) ≠ v) :
    ∃ u, Fits (Sparing (rxMoved le)) (s.setF (F.LE_RX_STATE_state le) v) u ∧
      rxGo le v s = State.evt (lep le 0x18) 7 (if v = 3 && s.curOn (F.LE_RX_CD_CTRL_cd_mode le) then
        u.setF (F.LE_RX_CD_EST_cd le) (s.cur (F.LE_RX_CD_SET_cd_set le)) else u) := by
  obtain ⟨u, hu⟩ : ∃ u, u = rxFollow le (s.g (F.LE_RX_STATE_state le)) v (s.setF (F.LE_RX_STATE_state le) v) := ⟨_, rfl⟩
  have hfits : Fits (Sparing (rxMoved le)) (s.setF (F.LE_RX_STATE_state le) v) u := hu ▸ rxFollow_fits _ _ _ _
  have hforce : u.inForce = s.inForce := hfits.inForce_spared (by simp [rxMoved, rxKept])
  have hmode := curOn_of_inForce hforce (F.LE_RX_CD_CTRL_cd_mode le)
  have hset : u.cur (F.LE_RX_CD_SET_cd_set le) = s.cur (F.LE_RX_CD_SET_cd_set le) := by rw [State.cur, hforce, State.cur]
  refine ⟨u, hfits, ?_⟩
  rw [← hmode, ← hset, hu]
  unfold rxGo
  dsimp only
  rw [if_pos hon, if_neg hv]
  rfl

theorem rxGo_of_same {le v : Nat} {s : State} (hon : s.pageOn (lep le 0x18) = true) (hv : s.g (F.LE_RX_STATE_state le) = v) :
    rxGo le v s = s := by
  simp [rxGo, hon, hv]

/-- R53, R170: with its pages enabled the receiver is in the state it goes to. -/
theorem rxGo_state {le v : Nat} {s : State} (hon : s.pageOn (lep le 0x18) = true) (h8 : v < 8) :
    (rxGo le v s).g (F.LE_RX_STATE_state le) = v := by
  by_cases hv : s.g (F.LE_RX_STATE_state le) = v
  · rw [rxGo_of_same hon hv, hv]
  · obtain ⟨u, hfits, e⟩ := rxGo_moves hon hv
    have hu : u.g (F.LE_RX_STATE_state le) = v := by
      rw [hfits.g_spared (by simp [rxMoved]), g_setF_same]
      exact Nat.mod_eq_of_lt h8
    rw [e, g_evt_other _ _ _ (by simp [lep]; omega)]
    split
    · rw [g_setF_other _ _ (by simp), hu]
    · exact hu

/-- R187: where acquisition of the frequency begins a fixed set is loaded; otherwise the estimate is kept. -/
theorem rxGo_cd {le : Nat} {s : State} (hon : s.pageOn (lep le 0x18) = true) (hv : s.g (F.LE_RX_STATE_state le) ≠ 3) :
    (rxGo le 3 s).g (F.LE_RX_CD_EST_cd le) = if s.curOn (F.LE_RX_CD_CTRL_cd_mode le) then
      s.cur (F.LE_RX_CD_SET_cd_set le) % 2 ^ 21 else s.g (F.LE_RX_CD_EST_cd le) := by
  obtain ⟨u, hfits, e⟩ := rxGo_moves hon hv
  have hu : u.g (F.LE_RX_CD_EST_cd le) = s.g (F.LE_RX_CD_EST_cd le) := by
    rw [hfits.g_spared (by simp [rxMoved]), g_setF_other _ _ (by simp)]
  rw [e, g_evt_other _ _ _ (by simp [lep]; omega)]
  cases s.curOn (F.LE_RX_CD_CTRL_cd_mode le) with
  | false => exact hu
  | true => exact g_setF_same u _ _

theorem rxGo_sticky {le v : Nat} {s : State} (hon : s.pageOn (lep le 0x18) = true) (hv : s.g (F.LE_RX_STATE_state le) ≠ v) :
    (rxGo le v s).sticky (lep le 0x18) 7 := by
  obtain ⟨u, -, e⟩ := rxGo_moves hon hv
  rw [e]
  exact sticky_evt _ _ _ (by omega)

/-! ## A transition of the table (R170) -/

theorem rxMove_fits (le v : Nat) (s : State) : Fits (Sparing (rxKept le)) s (rxMove le v s) :=
  .ite (fun _ => .evt _ _ _ (.refl _ _) (rxGo_sparing_rxKept le).c_evt) fun _ => rxGo_fits le v s

/-- R170: a transition back to the state it left raises STATE_CHANGE too. -/
theorem rxMove_of_same {le v : Nat} {s : State} (hv : s.g (F.LE_RX_STATE_state le) = v) :
    (rxMove le v s).g (F.LE_RX_STATE_state le) = v ∧ (rxMove le v s).sticky (lep le 0x18) 7 := by
  rw [rxMove, if_pos hv]
  exact ⟨(g_evt_other _ _ _ (by simp [lep]; omega)).trans hv, sticky_evt _ _ _ (by omega)⟩

theorem rxMove_state_sticky {le v : Nat} {s : State} (hon : s.pageOn (lep le 0x18) = true) (h8 : v < 8) :
    (rxMove le v s).g (F.LE_RX_STATE_state le) = v ∧ (rxMove le v s).sticky (lep le 0x18) 7 := by
  by_cases hv : s.g (F.LE_RX_STATE_state le) = v
  · exact rxMove_of_same hv
  · rw [rxMove, if_neg hv]
    exact ⟨rxGo_state hon h8, rxGo_sticky hon hv⟩

/-! ## Loss of signal (R173, R205) -/

/-- R173: los_raw of engine `le` takes a value, and its level with it. -/
def losMark (le : Nat) (b : Bool) (s : State) : State := State.level (lep le 0x18) 0 b (s.setB (F.LE_RX_STATE_los_raw le) b)

theorem losMark_los_raw (le : Nat) (b : Bool) (s : State) : (losMark le b s).on (F.LE_RX_STATE_los_raw le) = b := by
  rw [State.on, losMark, g_level_other _ _ _ _ (by simp [lep]; omega) (by simp [lep]; omega)]
  exact on_setB s _ b rfl

theorem losMark_g_other (le : Nat) (b : Bool) (s : State) {f : Field} (h : f.key ≠ (F.LE_RX_STATE_los_raw le).key)
    (hsticky : f.key ≠ (F.EVT_STICKY (lep le 0x18)).key) (hraw : f.key ≠ (F.EVT_RAW (lep le 0x18)).key) :
    (losMark le b s).g f = s.g f := by
  rw [losMark, g_level_other _ _ _ _ hsticky hraw, g_setB_other _ _ h]

theorem losMark_state (le : Nat) (b : Bool) (s : State) :
    (losMark le b s).g (F.LE_RX_STATE_state le) = s.g (F.LE_RX_STATE_state le) :=
  losMark_g_other le b s (by simp) (by simp [lep]; omega) (by simp [lep]; omega)

theorem losMark_pageOn {le : Nat} (b : Bool) {s : State} (hon : s.pageOn (lep le 0x18) = true) :
    (losMark le b s).pageOn (lep le 0x18) = true := by
  rwa [State.pageOn, State.on, losMark_g_other le b s (by simp [lep]; omega) (by simp) (by simp)]

/-- R173: the loss of signal an engine that is no hub evaluates: the rms level, and the optical engine's report under los_opt. -/
def losSeen (s : State) (le : Nat) : Bool :=
  (s.eng le).rx.rmsLow || (s.curOn (F.LE_RX_LOS_CTRL_los_opt le) && (s.eng le).rx.optLos)

/-- R170, R173: a running engine that is no hub marks what it sees, and with a loss its receiver returns to SIGNAL_WAIT. -/
theorem losEval_running {le : Nat} {s : State} (hrun : s.runState le = 2) (hrole : s.role le ≠ 2) : losEval le s =
    if losSeen s le && (losMark le (losSeen s le) s).g (F.LE_RX_STATE_state le) != 0 then
      (if s.on (F.LE_RX_STATE_los_raw le) then rxGo le 1 (losMark le (losSeen s le) s) else rxMove le 1 (losMark le (losSeen s le) s))
    else losMark le (losSeen s le) s := by
  unfold losEval
  rw [if_neg (by simp [hrun]), if_neg hrole]
  rfl

/-- R173: with a loss seen los_raw is 1, and the receiver waits for a signal unless it is idle. -/
theorem losEval_of_loss {le : Nat} {s : State} (hon : s.pageOn (lep le 0x18) = true) (hrun : s.runState le = 2)
    (hrole : s.role le ≠ 2) (hlos : losSeen s le = true) : (losEval le s).on (F.LE_RX_STATE_los_raw le) = true ∧
      (losEval le s).g (F.LE_RX_STATE_state le) = min 1 (s.g (F.LE_RX_STATE_state le)) := by
  have hmark := losMark_pageOn true hon
  have hraw := losMark_los_raw le true s
  rw [losEval_running hrun hrole, hlos, losMark_state]
  by_cases hidle : s.g (F.LE_RX_STATE_state le) = 0
  · rw [if_neg (by simp [hidle]), losMark_state, hidle]
    exact ⟨hraw, rfl⟩
  · rw [if_pos (by simp [hidle]), Nat.min_eq_left (by omega)]
    split
    · exact ⟨((rxGo_fits le 1 _).on_spared (by simp [rxKept])).trans hraw, rxGo_state hmark (by omega)⟩
    · exact ⟨((rxMove_fits le 1 _).on_spared (by simp [rxKept])).trans hraw, (rxMove_state_sticky hmark (by omega)).1⟩

/-- A receiver that waits for a signal goes on waiting, whatever is evaluated. -/
theorem losEval_of_waiting {le : Nat} {s : State} (hon : s.pageOn (lep le 0x18) = true)
    (hwait : s.g (F.LE_RX_STATE_state le) = 1) : (losEval le s).g (F.LE_RX_STATE_state le) = 1 := by
  have hmark (b : Bool) := losMark_pageOn b hon
  have hstate (b : Bool) := (losMark_state le b s).trans hwait
  by_cases hrun : s.runState le = 2
  · by_cases hrole : s.role le = 2
    · rw [losEval, if_neg (by simp [hrun]), if_pos hrole]
      exact hstate false
    · rw [losEval_running hrun hrole]
      split
      · split
        · exact rxGo_state (hmark _) (by omega)
        · exact (rxMove_of_same (hstate _)).1
      · exact hstate _
  · rwa [losEval, if_pos hrun]

/-- R173: without a loss seen los_raw stays 0. -/
theorem losEval_of_light {le : Nat} {s : State} (hrole : s.role le ≠ 2) (hraw : s.on (F.LE_RX_STATE_los_raw le) = false)
    (hlos : losSeen s le = false) : (losEval le s).on (F.LE_RX_STATE_los_raw le) = false := by
  by_cases hrun : s.runState le = 2
  · rw [losEval_running hrun hrole, hlos]
    exact losMark_los_raw le false s
  · rwa [losEval, if_pos hrun]

/-- What an evaluation of the loss of signal leaves: the settings in force, the role, whether the receive pages are enabled. -/
def losKept (le : Nat) : List Part :=
  [.inForce, .reg (F.LE_ROLE_STAT_role_active le).key, .reg (F.PAGE_CTRL_enable (lep le 0x18)).key]

theorem losEval_fits (le : Nat) (s : State) : Fits (Sparing (losKept le)) s (losEval le s) := by
  have tch : Touches.losEval (Sparing (losKept le)) le := by
    repeat' first | with_reducible intro _ | constructor | (simp [Sparing, losKept, lep] <;> omega)
  exact .losEval _ _ (.refl _ _) tch

/-! ## The commands of acquisition (R170, R173, R187, R191, R205) -/

theorem unsigned_mod (w : Nat) (i : Int) : unsigned w i % 2 ^ w = unsigned w i := by
  have hpos : (0 : Int) < 2 ^ w := by positivity
  have hlt : i % (2 : Int) ^ w < ((2 ^ w : Nat) : Int) := by simpa using Int.emod_lt_of_pos i hpos
  exact Nat.mod_eq_of_lt ((Int.toNat_lt (Int.emod_nonneg i hpos.ne')).2 hlt)

theorem acqStart_lt (s : State) (le : Nat) : acqStart s le < 8 := by
  unfold acqStart
  split <;> omega

/-- Neither an event nor the write of a register above the page header disables the receive pages. -/
theorem pageOn_evt {le p : Nat} (b : Nat) {s : State} (hon : s.pageOn (lep le 0x18) = true) :
    (State.evt p b s).pageOn (lep le 0x18) = true := by
  rwa [State.pageOn, on_evt_other _ _ _ (by simp; omega)]

theorem pageOn_setF {le : Nat} {f : Field} (v : Nat) {s : State} (hon : s.pageOn (lep le 0x18) = true)
    (hf : 0x200 ≤ f.key % 0x8000) : (s.setF f v).pageOn (lep le 0x18) = true := by
  rwa [State.pageOn, on_setF_other _ _ (by simp; omega)]

theorem state_evt (le p b : Nat) (s : State) :
    (State.evt p b s).g (F.LE_RX_STATE_state le) = s.g (F.LE_RX_STATE_state le) := g_evt_other _ _ _ (by simp; omega)

section Acquisition

variable {le : Fin 2} {s : State}

theorem exec_losRawSet_waits {optical : Bool} (hon : rxOn le s) (hrun : s.runState le.val = 2) (hrole : s.role le.val ≠ 2)
    (hopt : optical = true → s.curOn (F.LE_RX_LOS_CTRL_los_opt le.val) = true) :
    ∃ t, exec (.losRawSet le optical) s = .next t ∧ t.on (F.LE_RX_STATE_los_raw le.val) = true ∧
      t.g (F.LE_RX_STATE_state le.val) = min 1 (s.g (F.LE_RX_STATE_state le.val)) := by
  obtain ⟨u, hu⟩ : ∃ u, u = s.modRx le.val fun r => if optical then { r with optLos := true } else { r with rmsLow := true } :=
    ⟨_, rfl⟩
  have hg (f : Field) : u.g f = s.g f := hu ▸ g_modRx s _ _ f
  have hlos : losSeen u le.val = true := by
    rw [hu, losSeen, curOn_modRx, eng_modRx_same]
    cases optical with
    | false => simp
    | true => simp [hopt]
  refine ⟨_, by rw [exec_losRawSet, execLosRawSet, ← hu], ?_⟩
  rw [← hg (F.LE_RX_STATE_state le.val)]
  exact losEval_of_loss (by rwa [State.pageOn, State.on, hg]) (by rwa [State.runState, hg]) (by rwa [State.role, hg]) hlos

theorem exec_signalDetected_starts (hon : rxOn le s) (hwait : s.g (F.LE_RX_STATE_state le.val) = 1)
    (hlight : s.role le.val = 2 ∨
      (s.on (F.LE_RX_STATE_los_raw le.val) = false ∧ s.curOn (F.LE_RX_LOS_CTRL_los_opt le.val) = false)) :
    ∃ t, exec (.signalDetected le) s = .next t ∧
      t.g (F.LE_RX_STATE_state le.val) = if s.role le.val = 2 then 3 else acqStart s le.val := by
  obtain ⟨r, hr⟩ : ∃ r, r = s.modRx le.val fun r => { r with rmsLow := false } := ⟨_, rfl⟩
  obtain ⟨u, hu⟩ : ∃ u, u = losEval le.val r := ⟨_, rfl⟩
  have hg (f : Field) : r.g f = s.g f := hr ▸ g_modRx s _ _ f
  have hcur (f : Field) : r.curOn f = s.curOn f := hr ▸ curOn_modRx s _ _ f
  have hfits : Fits (Sparing (losKept le.val)) r u := hu ▸ losEval_fits le.val r
  have hpage : r.pageOn (lep le.val 0x18) = true := by rwa [State.pageOn, State.on, hg]
  have hrole : u.role le.val = s.role le.val := (hfits.g_spared (by simp [losKept])).trans (hg _)
  have hstart : acqStart u le.val = acqStart s le.val := by
    rw [acqStart, curOn_of_inForce (hfits.inForce_spared (by simp [losKept])), hcur, acqStart]
  have hstate : u.g (F.LE_RX_STATE_state le.val) = 1 := hu ▸ losEval_of_waiting hpage ((hg _).trans hwait)
  have hgo : s.role le.val = 2 ∨ u.on (F.LE_RX_STATE_los_raw le.val) = false := by
    refine or_iff_not_imp_left.2 fun hnot => hu ▸ ?_
    obtain ⟨hraw, hopt⟩ := hlight.resolve_left hnot
    exact losEval_of_light (by rwa [State.role, hg]) (by rwa [State.on, hg])
      (by rw [losSeen, hcur, hopt, hr, eng_modRx_same]; rfl)
  have hexec : exec (.signalDetected le) s = .next (rxGo le.val (if s.role le.val = 2 then 3 else acqStart s le.val)
      (u.bump (F.LE_RX_STATE_acquisitions le.val) 1)) := by
    rw [exec_signalDetected, execSignalDetected, ← hr, ← hu, if_pos (by simpa [hstate, hrole] using hgo), hrole, hstart]
  have hon' : u.pageOn (lep le.val 0x18) = true := (hfits.on_spared (by simp [losKept])).trans hpage
  refine ⟨_, hexec, rxGo_state (pageOn_setF _ hon' (by simp; omega)) ?_⟩
  split
  · omega
  · exact acqStart_lt s le.val

/-- R187: a peak ends the scan with its estimate, or with the fixed set. -/
theorem exec_cdScanEnd_peak {cd : Int} (hon : rxOn le s) (hscan : s.g (F.LE_RX_STATE_state le.val) = 2) :
    ∃ t, exec (.cdScanEnd le (some cd)) s = .next t ∧ t.g (F.LE_RX_STATE_state le.val) = 3 ∧ t.sticky (lep le.val 0x1B) 0 ∧
      t.g (F.LE_RX_CD_EST_cd le.val) = (if s.curOn (F.LE_RX_CD_CTRL_cd_mode le.val) then
        s.cur (F.LE_RX_CD_SET_cd_set le.val) % 2 ^ 21 else unsigned 21 cd) := by
  obtain ⟨u, hu⟩ : ∃ u, u = State.evt (lep le.val 0x1B) 0 (s.setF (F.LE_RX_CD_EST_cd le.val) (unsigned 21 cd)) := ⟨_, rfl⟩
  have hon' : u.pageOn (lep le.val 0x18) = true := hu ▸ pageOn_evt _ (pageOn_setF _ hon (by simp; omega))
  have hstate : u.g (F.LE_RX_STATE_state le.val) = 2 := by rw [hu, state_evt, g_setF_other _ _ (by simp), hscan]
  have hcd : u.g (F.LE_RX_CD_EST_cd le.val) = unsigned 21 cd := by
    rw [hu, g_evt_other _ _ _ (by simp [lep]; omega), g_setF_same]
    exact unsigned_mod 21 cd
  have hforce : u.inForce = s.inForce := by simp [hu]
  refine ⟨_, by rw [exec_cdScanEnd, execCdScanEnd, if_pos hscan, ← hu], rxGo_state hon' (by omega), ?_, ?_⟩
  · exact sticky_of_g (hu ▸ sticky_evt _ _ _ (by omega)) ((rxGo_fits _ _ u).g_spared (by simp [rxKept]))
  · rw [rxGo_cd hon' (by omega), curOn_of_inForce hforce, hcd, State.cur, hforce]
    rfl

/-- R170: without a peak the scan begins again. -/
theorem exec_cdScanEnd_none (hscan : s.g (F.LE_RX_STATE_state le.val) = 2) :
    ∃ t, exec (.cdScanEnd le none) s = .next t ∧ t.g (F.LE_RX_STATE_state le.val) = 2 ∧ t.sticky (lep le.val 0x1B) 1 ∧
      t.sticky (lep le.val 0x18) 7 := by
  obtain ⟨hstate, hchange⟩ := rxMove_of_same (s := State.evt (lep le.val 0x1B) 1 s) ((state_evt _ _ _ s).trans hscan)
  refine ⟨_, by rw [exec_cdScanEnd, execCdScanEnd, if_pos hscan], hstate, ?_, hchange⟩
  exact sticky_of_g (sticky_evt _ _ s (by omega)) ((rxMove_fits _ _ _).g_spared (by simp [rxKept]))

/-- R191: an offset in reach starts the subcarriers. -/
theorem exec_freqOffsetFound_found {kHz : Int} (hon : rxOn le s) (hfreq : s.g (F.LE_RX_STATE_state le.val) = 3)
    (hrole : s.role le.val ≠ 2) (hkHz : kHz.natAbs ≤ 3000000) :
    ∃ t, exec (.freqOffsetFound le kHz) s = .next t ∧ t.g (F.LE_RX_STATE_state le.val) = 4 ∧
      t.g (F.LE_RX_CR_COMMON_offset le.val) = unsigned 32 kHz := by
  refine ⟨_, by rw [exec_freqOffsetFound, execFreqOffsetFound, if_pos hfreq, if_neg hrole, if_pos hkHz],
    rxGo_state (pageOn_setF _ hon (by simp; omega)) (by omega), ?_⟩
  rw [(rxGo_fits _ _ _).g_spared (by simp [rxKept]), g_setF_same]
  exact unsigned_mod 32 kHz

/-- R205: a hub takes the offset as zero and receives bursts. -/
theorem exec_freqOffsetFound_hub {kHz : Int} (hon : rxOn le s) (hfreq : s.g (F.LE_RX_STATE_state le.val) = 3)
    (hrole : s.role le.val = 2) :
    ∃ t, exec (.freqOffsetFound le kHz) s = .next t ∧ t.g (F.LE_RX_STATE_state le.val) = 6 ∧
      t.g (F.LE_RX_CR_COMMON_offset le.val) = 0 := by
  refine ⟨_, by rw [exec_freqOffsetFound, execFreqOffsetFound, if_pos hfreq, if_pos hrole],
    rxGo_state (pageOn_setF _ hon (by simp; omega)) (by omega), ?_⟩
  rw [(rxGo_fits _ _ _).g_spared (by simp [rxKept]), g_setF_same, Nat.zero_mod]

theorem exec_freqAcqTimeout_restarts (hon : rxOn le s) (hfreq : s.g (F.LE_RX_STATE_state le.val) = 3) :
    ∃ t, exec (.freqAcqTimeout le) s = .next t ∧ t.g (F.LE_RX_STATE_state le.val) = acqStart s le.val ∧
      t.sticky (lep le.val 0x1B) 4 ∧ t.sticky (lep le.val 0x18) 7 := by
  obtain ⟨hstate, hchange⟩ := rxMove_state_sticky (pageOn_evt (p := lep le.val 0x1B) 4 hon) (acqStart_lt s le.val)
  refine ⟨_, by rw [exec_freqAcqTimeout, execFreqAcqTimeout, if_pos hfreq], hstate, ?_, hchange⟩
  exact sticky_of_g (sticky_evt _ _ s (by omega)) ((rxMove_fits _ _ _).g_spared (by simp [rxKept]))

theorem exec_scAcqTimeout_restarts (hon : rxOn le s) (hacq : s.g (F.LE_RX_STATE_state le.val) = 4) :
    ∃ t, exec (.scAcqTimeout le) s = .next t ∧ t.g (F.LE_RX_STATE_state le.val) = acqStart s le.val :=
  ⟨_, by rw [exec_scAcqTimeout, execScAcqTimeout, if_pos hacq], rxGo_state hon (acqStart_lt s le.val)⟩

/-- R170: an engine that has lost its last subcarrier searches the frequency again, on the CD estimate it has. -/
theorem exec_engineLockLoss_searches (hon : rxOn le s) (hlocked : s.g (F.LE_RX_STATE_state le.val) = 5)
    (hnone : s.g (F.LE_RX_SC_LOCK_lock le.val) = 0) :
    ∃ t, exec (.engineLockLoss le) s = .next t ∧ t.g (F.LE_RX_STATE_state le.val) = 3 ∧
      (s.curOn (F.LE_RX_CD_CTRL_cd_mode le.val) = false →
        t.g (F.LE_RX_CD_EST_cd le.val) = s.g (F.LE_RX_CD_EST_cd le.val)) := by
  refine ⟨_, by rw [exec_engineLockLoss, execEngineLockLoss, if_pos (by simp [hlocked, hnone])], rxGo_state hon (by omega),
    fun hauto => ?_⟩
  rw [rxGo_cd hon (by omega), if_neg (by simp [hauto])]

theorem exec_freqLimitExceeded_searches (hon : rxOn le s) (hlocked : s.g (F.LE_RX_STATE_state le.val) = 5) :
    ∃ t, exec (.freqLimitExceeded le) s = .next t ∧ t.g (F.LE_RX_STATE_state le.val) = 3 ∧ t.sticky (lep le.val 0x1B) 4 := by
  refine ⟨_, by rw [exec_freqLimitExceeded, execFreqLimitExceeded, if_pos hlocked], rxGo_state (pageOn_evt _ hon) (by omega), ?_⟩
  exact sticky_of_g (sticky_evt _ _ s (by omega)) ((rxGo_fits _ _ _).g_spared (by simp [rxKept]))

end Acquisition

/-- Settles O26, command by command: each takes the receiver to its next state by `rxGo`, `rxMove` or `losEval`, which leave what the
command itself has written. -/
theorem acquisitionMovesStates : Obligations.AcquisitionMovesStates :=
  ⟨fun _ _ _ => exec_losRawSet_waits, fun _ _ => exec_signalDetected_starts, fun _ _ _ => exec_cdScanEnd_peak,
    fun _ _ => exec_cdScanEnd_none, fun _ _ _ => exec_freqOffsetFound_found, fun _ _ _ => exec_freqOffsetFound_hub,
    fun _ _ => exec_freqAcqTimeout_restarts, fun _ _ => exec_scAcqTimeout_restarts, fun _ _ => exec_engineLockLoss_searches,
    fun _ _ => exec_freqLimitExceeded_searches⟩

end Sys2Proof.Machine

/-! The states of a subcarrier, and CD tracking (O27). -/

namespace Sys2Proof.Machine

/-! ## A subcarrier takes a state (R171, R172) -/

/-- R171: of the receive storage only the subcarrier's state changes. -/
theorem scGo_rx (le k v : Nat) (s : State) :
    ((scGo le k v s).eng le).rx = { (s.eng le).rx with sc := Tbl.set 0 (s.eng le).rx.sc k v } := by
  have hwas (c : Prop) [Decidable c] (i old : Nat) (t : State) : ((if c then t else t.noteWas i old).eng le) = t.eng le := by
    split <;> rfl
  unfold scGo
  dsimp only
  split <;> simp only [eng_setF, hwas, eng_modRx_same]

theorem scGo_scOf (le k v : Nat) (s : State) : (scGo le k v s).scOf le k = v := by
  rw [State.scOf, scGo_rx]
  exact Tbl.get_set_same 0 _ k v

/-- R171: what LEn_RX_SC_LOCK reads once subcarrier `k` has taken state `v`. -/
def lockAfter (le k v : Nat) (s : State) : Nat :=
  if v = 3 then s.g (F.LE_RX_SC_LOCK_lock le) ||| 2 ^ k else s.g (F.LE_RX_SC_LOCK_lock le) &&& (2 ^ k ^^^ 0xFFFFFFFF)

theorem scGo_lock (le k v : Nat) (s : State) :
    (scGo le k v s).g (F.LE_RX_SC_LOCK_lock le) = lockAfter le k v s % 2 ^ 32 := by
  unfold scGo
  dsimp only
  split
  · rw [g_setF_other _ _ (by simp), g_setF_other _ _ (by simp; omega), g_setF_same, g_modRx]
    rfl
  · rw [g_setF_other _ _ (by simp; omega), g_setF_same, g_modRx]
    rfl

theorem scGo_lock_bit {k : Nat} (hk : k < 32) (le v : Nat) (s : State) :
    ((scGo le k v s).g (F.LE_RX_SC_LOCK_lock le)).testBit k = decide (v = 3) := by
  rw [scGo_lock, lockAfter, Nat.testBit_mod_two_pow]
  have hall : Nat.testBit 0xFFFFFFFF k = true := by simpa [hk] using Nat.testBit_two_pow_sub_one 32 k
  split
  next hv => simp [hk, hv, Nat.testBit_two_pow_self]
  next hv => simp [hv, hall, Nat.testBit_two_pow_self]

/-- R172: a subcarrier that leaves LOCKED is marked in LEn_RX_SC_LOCK_LOST. -/
theorem scGo_lost_bit {le k v : Nat} {s : State} (hk : k < 32) (hwas : s.scOf le k = 3) (hv : v ≠ 3) :
    ((scGo le k v s).g (F.LE_RX_SC_LOCK_LOST_lost le)).testBit k = true := by
  unfold scGo
  dsimp only
  rw [if_pos ⟨hwas, hv⟩, g_setF_same, F.LE_RX_SC_LOCK_LOST_lost_width, Nat.testBit_mod_two_pow]
  simp [hk, Nat.testBit_two_pow_self]

/-! ## What a stream that returns to HUNT keeps (R169, R249) -/

/-- The states and slips of the subcarriers of engine `le` stay, and no sticky event is cleared. -/
structure HuntKeeps (le : Nat) (s t : State) : Prop where
  sc : (t.eng le).rx.sc = (s.eng le).rx.sc
  slips : (t.eng le).rx.slips = (s.eng le).rx.slips
  sticky : ∀ p b, b < 32 → s.sticky p b → t.sticky p b

section Hunt

variable {le : Nat} {s0 s : State}

theorem HuntKeeps.refl (le : Nat) (s : State) : HuntKeeps le s s := ⟨rfl, rfl, fun _ _ _ h => h⟩

/-- A change of storage that is no register and not the receiver's. -/
theorem HuntKeeps.of_eng {t : State} (h : HuntKeeps le s0 s) (hf : t.fields = s.fields) (hrx : (t.eng le).rx = (s.eng le).rx) :
    HuntKeeps le s0 t :=
  ⟨by rw [hrx, h.sc], by rw [hrx, h.slips], fun p b hb hs => sticky_of_fields (h.sticky p b hb hs) hf⟩

theorem HuntKeeps.setF {f : Field} (v : Nat) (h : HuntKeeps le s0 s) (hf : ∀ p, (F.EVT_STICKY p).key ≠ f.key) :
    HuntKeeps le s0 (s.setF f v) :=
  ⟨by rw [eng_setF, h.sc], by rw [eng_setF, h.slips], fun p b hb hs => sticky_setF v (hf p) (h.sticky p b hb hs)⟩

theorem HuntKeeps.evt (p b : Nat) (h : HuntKeeps le s0 s) : HuntKeeps le s0 (State.evt p b s) :=
  ⟨by rw [eng_evt, h.sc], by rw [eng_evt, h.slips], fun _ _ hc hs => sticky_evt_of p b hc (h.sticky _ _ hc hs)⟩

theorem HuntKeeps.modGlf (f : Glf → Glf) (h : HuntKeeps le s0 s) : HuntKeeps le s0 (s.modGlf le f) :=
  h.of_eng (by simp) (by rw [eng_modGlf_same])

theorem HuntKeeps.modFec (f : Fec → Fec) (h : HuntKeeps le s0 s) : HuntKeeps le s0 (s.modFec le f) :=
  h.of_eng (by simp) (by rw [eng_modFec_same])

theorem HuntKeeps.ite {c : Prop} [Decidable c] {a b : State} (ha : HuntKeeps le s0 a) (hb : HuntKeeps le s0 b) :
    HuntKeeps le s0 (if c then a else b) := by
  split
  · exact ha
  · exact hb

/-- R169: a lost follow only starts the alternation. -/
theorem HuntKeeps.followLost (h : HuntKeeps le s0 s) : HuntKeeps le s0 (followLost le s) := by
  have hdrop : HuntKeeps le s0 ((s.setB (F.LE_RX_PLAN_STAT_follow_pending le) false).incWrap
      (F.LE_RX_FOLLOW_STAT_follows_lost le) 1) :=
    (h.setF _ fun p => by simp; omega).setF _ fun p => by simp; omega
  refine .ite (.evt _ _ ⟨?_, ?_, fun p b hb hs => sticky_of_fields (hdrop.sticky p b hb hs) (by simp)⟩) h
  · rw [eng_modRx_same]
    exact hdrop.sc
  · rw [eng_modRx_same]
    exact hdrop.slips

theorem HuntKeeps.setFrame (k v : Nat) (h : HuntKeeps le s0 s) : HuntKeeps le s0 (setFrame le k v s) :=
  .ite ((h.modGlf _).setF _ fun p => by simp; omega) (h.modGlf _)

theorem HuntKeeps.setMf (k v : Nat) (lom : Bool) (h : HuntKeeps le s0 s) : HuntKeeps le s0 (setMf le k v lom s) :=
  .ite ((h.modGlf _).setF _ fun p => by simp; omega) (h.modGlf _)

theorem HuntKeeps.glfOof (k : Nat) (h : HuntKeeps le s0 s) : HuntKeeps le s0 (glfOof le k s) := by
  unfold Machine.glfOof
  dsimp only
  refine .followLost (.ite ?_ (.evt _ _ ?_)) <;>
    exact .ite (.setF _ (.setMf _ _ _ (.setFrame _ _ (h.modGlf _))) fun p => by simp; omega)
      (.setMf _ _ _ (.setFrame _ _ (h.modGlf _)))

theorem HuntKeeps.setSync (k v : Nat) (h : HuntKeeps le s0 s) : HuntKeeps le s0 (setSync le k v s) := by
  unfold Machine.setSync
  dsimp only
  refine .ite (.setF _ ?_ fun p => by simp; omega) ?_ <;>
    exact .setF _ (.modFec _ (.ite (h.glfOof k) h)) fun p => by simp; omega

theorem HuntKeeps.cwHunt (k : Nat) (h : HuntKeeps le s0 s) : HuntKeeps le s0 (cwHunt le k s) := .ite h (h.setSync k 0)

end Hunt

/-! ## The commands of a subcarrier (R171, R172, R190, R192) -/

theorem Fits.rx_spared {ps : List Part} {s t : State} {le : Nat} (h : Fits (Sparing ps) s t) (hp : Part.rx (le != 0) ∈ ps) :
    (t.eng le).rx = (s.eng le).rx := by
  have hengOf (u : State) : engOf u (le != 0) = u.eng le := by by_cases h0 : le = 0 <;> simp [engOf, State.eng, h0]
  rw [← hengOf, ← hengOf]
  exact h.within (.rx (le != 0)) (not_not_intro hp)

/-- R171, R249: what a subcarrier without pilots leaves once its state is taken and SC_LOCK_LOST raised. -/
theorem pilotsLost_keeps (le k : Nat) (s : State) :
    HuntKeeps le (State.evt (lep le 0x18) 2 (scGo le k 1 s)) (pilotsLost le k s) :=
  .ite (.cwHunt k (.refl _ _)) (.refl _ _)

/-- LEn_RX_SC_LOCK and LEn_RX_SC_LOCK_LOST. -/
def lockParts (le : Nat) : List Part := [.reg (F.LE_RX_SC_LOCK_lock le).key, .reg (F.LE_RX_SC_LOCK_LOST_lost le).key]

theorem pilotsLost_fits (le k : Nat) (s : State) : Fits (Sparing (lockParts le)) (scGo le k 1 s) (pilotsLost le k s) := by
  have tch : Touches.cwHunt (Sparing (lockParts le)) le := by
    repeat' first | constructor | (simp [Sparing, lockParts, lep] <;> omega)
  have hevt : Touches.evt (Sparing (lockParts le)) (lep le 0x18) := by
    repeat' first | constructor | (simp [Sparing, lockParts, lep] <;> omega)
  have h := Fits.evt (lep le 0x18) 2 _ (.refl _ (scGo le k 1 s)) hevt
  exact .ite (fun _ => .cwHunt _ _ _ h tch) fun _ => h

/-- R190: whether a match of the conjugate sequences turns spectral_inv, and its event. -/
def conjugateMatch (le : Nat) (conjugate : Bool) (s : State) : State :=
  if conjugate then
    let u := s.setB (F.LE_RX_PLAN_STAT_spectral_inv le) (!s.on (F.LE_RX_PLAN_STAT_spectral_inv le))
    if s.on (F.LE_RX_PLAN_STAT_spectral_inv le) then u else State.evt (lep le 0x18) 5 u
  else s

/-- What the end of pilot synchronisation leaves of engine `le` after the subcarrier's state. -/
def pilotParts (le : Nat) : List Part :=
  [.rx (le != 0), .reg (F.LE_RX_SC_LOCK_lock le).key, .reg (F.LE_RX_STATE_state le).key,
   .reg (F.PAGE_CTRL_enable (lep le 0x18)).key]

theorem conjugateMatch_fits (le : Nat) (conjugate : Bool) (s : State) :
    Fits (Sparing (pilotParts le)) s (conjugateMatch le conjugate s) := by
  have tch : Touches.evt (Sparing (pilotParts le)) (lep le 0x18) := by
    repeat' first | constructor | (simp [Sparing, pilotParts, lep] <;> omega)
  have h := Fits.setB s (F.LE_RX_PLAN_STAT_spectral_inv le) (!s.on (F.LE_RX_PLAN_STAT_spectral_inv le)) (.refl _ s)
    (show Sparing (pilotParts le) _ by simp [Sparing, pilotParts]; omega)
  exact .ite (fun _ => .ite (fun _ => h) fun _ => .evt _ _ _ h tch) fun _ => .refl _ s

/-- R170: the engine becomes LOCKED with its first subcarrier, which the move leaves as it is. -/
theorem rxGo_locked {le : Nat} {s : State} (hon : s.pageOn (lep le 0x18) = true) (hacq : s.g (F.LE_RX_STATE_state le) = 4) :
    rxGo le 5 s = State.evt (lep le 0x18) 7 (setLol le false (s.setF (F.LE_RX_STATE_state le) 5)) := by
  simp [rxGo, hon, hacq]

theorem rxGo_locked_keeps {le : Nat} {s : State} (hon : s.pageOn (lep le 0x18) = true) (hacq : s.g (F.LE_RX_STATE_state le) = 4) :
    ((rxGo le 5 s).eng le).rx = (s.eng le).rx ∧
      (rxGo le 5 s).g (F.LE_RX_SC_LOCK_lock le) = s.g (F.LE_RX_SC_LOCK_lock le) := by
  rw [rxGo_locked hon hacq]
  constructor
  · simp [setLol]
  · rw [g_evt_other _ _ _ (by simp [lep]; omega), setLol, g_level_other _ _ _ _ (by simp [lep]; omega) (by simp [lep]; omega),
      g_setB_other _ _ (by simp; omega), g_setF_other _ _ (by simp)]

section Subcarrier

variable {le : Fin 2} {k : Fin 32} {s : State}

theorem exec_scConverged_goes (h : s.scOf le.val k.val = 1) :
    ∃ t, exec (.scConverged le k) s = .next t ∧ t.scOf le.val k.val = 2 :=
  ⟨_, by rw [exec_scConverged, execScConverged, if_pos h], scGo_scOf _ _ _ _⟩

theorem setEq_scOf (le k j : Nat) (b : Butterfly) (s : State) : (setEq le k b s).scOf le j = s.scOf le j := by
  rw [State.scOf, setEq, eng_modRx_same, State.scOf]

/-- R171: without convergence the equaliser begins anew from the centre spike. -/
theorem exec_scConvergeTimeout_resets (h : s.scOf le.val k.val = 1) :
    ∃ t, exec (.scConvergeTimeout le k) s = .next t ∧ t.scOf le.val k.val = 1 ∧
      Tbl.get none (t.eng le.val).rx.eq k.val = some (centreSpike (eqTaps (rxScCount s.inForce le.val))) := by
  refine ⟨_, by rw [exec_scConvergeTimeout, execScConvergeTimeout, if_pos h], ?_, ?_⟩
  · rw [setEq_scOf, scGo_scOf]
  · simp [setEq]

/-- R171, R190: which output matches a free value decides; that apart, the subcarrier locks, a conjugate match is taken, and the engine
locks with its first subcarrier. -/
theorem exec_pilotSyncFound_eq (conjugate : Bool) (h : s.scOf le.val k.val = 2) : ∃ u v : State, u.fields = s.fields ∧
    v = conjugateMatch le.val conjugate (scGo le.val k.val 3 u) ∧ exec (.pilotSyncFound le k conjugate) s =
      .next (if v.g (F.LE_RX_STATE_state le.val) = 4 then rxGo le.val 5 v else v) := by
  refine ⟨if (s.draw 1).1 = 1 then setEq le.val k.val (eqOf (s.draw 1).2 le.val k.val).exchange (s.draw 1).2 else (s.draw 1).2, _, ?_,
    rfl, ?_⟩
  · split
    · simp [setEq]
    · simp
  · rw [exec_pilotSyncFound]
    exact if_pos h

/-- R171, R190: pilots found lock the subcarrier, and the first one the engine. -/
theorem exec_pilotSyncFound_locks {conjugate : Bool} (hon : rxOn le s) (h : s.scOf le.val k.val = 2) :
    ∃ t, exec (.pilotSyncFound le k conjugate) s = .next t ∧ t.scOf le.val k.val = 3 ∧
      (t.g (F.LE_RX_SC_LOCK_lock le.val)).testBit k.val = true ∧
      t.g (F.LE_RX_STATE_state le.val) =
        (if s.g (F.LE_RX_STATE_state le.val) = 4 then 5 else s.g (F.LE_RX_STATE_state le.val)) := by
  obtain ⟨u, v, hu, hv, hexec⟩ := exec_pilotSyncFound_eq conjugate h
  have hfits : Fits (Sparing (pilotParts le.val)) (scGo le.val k.val 3 u) v := hv ▸ conjugateMatch_fits _ _ _
  have hrx := hfits.rx_spared (le := le.val) (by simp [pilotParts])
  have hsc : v.scOf le.val k.val = 3 := by
    rw [State.scOf, hrx]
    exact scGo_scOf _ _ _ _
  have hlock : (v.g (F.LE_RX_SC_LOCK_lock le.val)).testBit k.val = true := by
    rw [hfits.g_spared (by simp [pilotParts]), scGo_lock_bit k.isLt]
    rfl
  have hgo := Fits.scGo le.val k.val 3 u (.refl _ u) (rxFollows_sparing le.val).c_scGo
  have hstate : v.g (F.LE_RX_STATE_state le.val) = s.g (F.LE_RX_STATE_state le.val) := by
    rw [hfits.g_spared (by simp [pilotParts]), hgo.g_spared (by simp [rxMoved]), g_of_fields hu]
  have hon' : v.pageOn (lep le.val 0x18) = true := by
    rw [State.pageOn, hfits.on_spared (by simp [pilotParts]), hgo.on_spared (by simp [rxMoved, rxKept]), on_of_fields hu]
    exact hon
  refine ⟨_, hexec, ?_⟩
  rw [hstate]
  split
  next hacq =>
    obtain ⟨hrx', hlock'⟩ := rxGo_locked_keeps hon' (hstate.trans hacq)
    exact ⟨by rw [State.scOf, hrx']; exact hsc, by rw [hlock']; exact hlock, rxGo_state hon' (by omega)⟩
  next => exact ⟨hsc, hlock, hstate⟩

theorem exec_pilotSyncTimeout_converges (h : s.scOf le.val k.val = 2) :
    ∃ t, exec (.pilotSyncTimeout le k) s = .next t ∧ t.scOf le.val k.val = 1 :=
  ⟨_, by rw [exec_pilotSyncTimeout, execPilotSyncTimeout, if_pos h], scGo_scOf _ _ _ _⟩

/-- R171, R172: a subcarrier without pilots converges again, its loss of lock marked. -/
theorem exec_scLockLost_converges (h : s.scOf le.val k.val = 3) :
    ∃ t, exec (.scLockLost le k) s = .next t ∧ t.scOf le.val k.val = 1 ∧
      (t.g (F.LE_RX_SC_LOCK_lock le.val)).testBit k.val = false ∧
      (t.g (F.LE_RX_SC_LOCK_LOST_lost le.val)).testBit k.val = true ∧ t.sticky (lep le.val 0x18) 2 := by
  have hkeeps := pilotsLost_keeps le.val k.val s
  have hfits := pilotsLost_fits le.val k.val s
  refine ⟨_, by rw [exec_scLockLost, execScLockLost, if_pos h], ?_, ?_, ?_, hkeeps.sticky _ _ (by omega) (sticky_evt _ _ _ (by omega))⟩
  · rw [State.scOf, hkeeps.sc, eng_evt]
    exact scGo_scOf _ _ _ _
  · rw [hfits.g_spared (by simp [lockParts]), scGo_lock_bit k.isLt]
    rfl
  · rw [hfits.g_spared (by simp [lockParts])]
    exact scGo_lost_bit k.isLt h (by omega)

/-- R190: a singular equaliser keeps the subcarrier's state. -/
theorem exec_singular_reports (h : s.scOf le.val k.val ≠ 0) :
    ∃ t, exec (.singular le k) s = .next t ∧ t.sticky (lep le.val 0x1B) 2 ∧ t.scOf le.val k.val = s.scOf le.val k.val := by
  refine ⟨_, by rw [exec_singular, execSingular, if_neg h], sticky_evt _ _ _ (by omega), ?_⟩
  rw [State.scOf, eng_evt]
  exact setEq_scOf _ _ _ _ _

/-- R192: a cycle slip is counted. -/
theorem exec_cycleSlip_counts (h : s.scOf le.val k.val = 3) :
    ∃ t, exec (.cycleSlip le k) s = .next t ∧ t.sticky (lep le.val 0x1B) 3 ∧ t.scOf le.val k.val = 3 ∧
      Tbl.get 0 (t.eng le.val).rx.slips k.val = Tbl.get 0 (s.eng le.val).rx.slips k.val + 1 := by
  refine ⟨_, by rw [exec_cycleSlip, execCycleSlip, if_pos h], sticky_evt _ _ _ (by omega), ?_, ?_⟩
  · rw [State.scOf, eng_evt, eng_modRx_same]
    exact h
  · simp

/-! ## CD tracking (R187) -/

theorem clampI_beyond {r : Int} (h : 500 < r.natAbs) : clampI (-200) 200 r = if 0 < r then 200 else -200 := by
  unfold clampI
  split <;> split <;> omega

/-- R187: a residual beyond 500 ps/nm moves the estimate by one step. -/
theorem exec_cdTrackStep_moves {residual : Int} (htrack : s.curOn (F.LE_RX_CD_CTRL_track le.val) = true)
    (hauto : s.curOn (F.LE_RX_CD_CTRL_cd_mode le.val) = false) (hlocked : s.g (F.LE_RX_STATE_state le.val) = 5)
    (hfar : 500 < residual.natAbs) :
    ∃ t, exec (.cdTrackStep le residual) s = .next t ∧ t.g (F.LE_RX_CD_EST_cd le.val) =
      unsigned 21 (signed 21 (s.g (F.LE_RX_CD_EST_cd le.val)) + if 0 < residual then 200 else -200) := by
  refine ⟨_, by rw [exec_cdTrackStep, execCdTrackStep, if_pos (by simp [htrack, hauto, hlocked, hfar])], ?_⟩
  rw [g_setF_same, clampI_beyond hfar]
  exact unsigned_mod 21 _

end Subcarrier

/-- Settles O27, command by command: a subcarrier's state by `scGo`, the engine's by `rxGo`, and what a stream that returns to HUNT
keeps. -/
theorem subcarriersMoveStates : Obligations.SubcarriersMoveStates :=
  ⟨fun _ _ _ => exec_scConverged_goes, fun _ _ _ => exec_scConvergeTimeout_resets, fun _ _ _ _ => exec_pilotSyncFound_locks,
    fun _ _ _ => exec_pilotSyncTimeout_converges, fun _ _ _ => exec_scLockLost_converges, fun _ _ _ => exec_singular_reports,
    fun _ _ _ => exec_cycleSlip_counts, fun _ _ _ => exec_cdTrackStep_moves⟩

end Sys2Proof.Machine

/-! Announced entropy, reflections, quality intervals (O28). -/

namespace Sys2Proof.Machine

/-! ## The announced entropy (R168, R169, R273) -/

theorem byteAt_lt (b : List Byte) (i : Nat) : byteAt b i < 256 := BitVec.isLt _

theorem leNat_lt (b : List Byte) (i n : Nat) : leNat b i n < 256 ^ n := by
  induction n generalizing i with
  | zero => simp [leNat]
  | succ n ih =>
    have hbyte := byteAt_lt b i
    have hrest := ih (i + 1)
    rw [leNat, pow_succ]
    omega

theorem cur_force_same (s : State) (f : Field) (v : Nat) : (s.force f v).cur f = v % 2 ^ f.width := by
  simp [State.cur, look, State.force]

theorem cur_of_inForce {s t : State} (h : t.inForce = s.inForce) (f : Field) : t.cur f = s.cur f := by
  rw [State.cur, h, State.cur]

theorem cur_modRx (s : State) (le : Nat) (e : Rx → Rx) (f : Field) : (s.modRx le e).cur f = s.cur f :=
  cur_of_inForce (by simp) f

theorem stg_of_staged {s t : State} (h : t.staged = s.staged) (f : Field) : t.stg f = s.stg f := by
  rw [State.stg, h, State.stg]

/-- What the report of the decoder leaves of a followed change. -/
def followParts (le : Nat) : List Part :=
  [.inForce, .staged, .reg (F.LE_RX_PLAN_STAT_follow_pending le).key, .reg (F.EVT_STICKY (lep le 0x18)).key]

theorem fecReport_fits (le : Nat) (s : State) : Fits (Sparing (followParts le)) s (fecReport le s) := by
  have tch : Touches.fecReport (Sparing (followParts le)) le := by
    repeat' first | constructor | (simp [Sparing, followParts, lep] <;> omega)
  exact .fecReport _ _ (.refl _ _) tch

section Follow

variable {le : Fin 2} {s : State}

/-- R168, R273: an announcement in frame is taken, and under follow pends for its frame. -/
theorem exec_entropyAnn_taken {body : List Byte} (hframe : anyInFrame s le.val = true) (hlen : body.length = 12)
    (hcrc : leNat body 8 4 = crc32c (body.take 8)) : ∃ t, exec (.entropyAnn le body) s = .next t ∧
      t.g (F.LE_RX_FOLLOW_STAT_entropy_announced le.val) = byteAt body 0 ∧
      (s.curOn (F.LE_RX_PLAN_follow le.val) = true → t.on (F.LE_RX_PLAN_STAT_follow_pending le.val) = true ∧
        t.g (F.LE_RX_FOLLOW_AT_frame le.val) = leNat body 4 4) := by
  obtain ⟨u, hu⟩ : ∃ u, u = s.setF (F.LE_RX_FOLLOW_STAT_entropy_announced le.val) (byteAt body 0) := ⟨_, rfl⟩
  have hann : u.g (F.LE_RX_FOLLOW_STAT_entropy_announced le.val) = byteAt body 0 := by
    rw [hu, g_setF_same]
    exact Nat.mod_eq_of_lt (byteAt_lt body 0)
  have hfollow : u.curOn (F.LE_RX_PLAN_follow le.val) = s.curOn (F.LE_RX_PLAN_follow le.val) :=
    curOn_of_inForce (by rw [hu, State.setF_inForce]) _
  have hexec : exec (.entropyAnn le body) s = if u.curOn (F.LE_RX_PLAN_follow le.val) then
      .next ((u.setF (F.LE_RX_FOLLOW_AT_frame le.val) (leNat body 4 4)).setB (F.LE_RX_PLAN_STAT_follow_pending le.val) true)
      else .next u := by
    rw [exec_entropyAnn, execEntropyAnn, if_pos (by simp [hframe, hlen, hcrc]), hu]
  rw [hexec, hfollow]
  split
  next hon =>
    refine ⟨_, rfl, ?_, fun _ => ⟨on_setB _ _ _ rfl, ?_⟩⟩
    · rw [g_setB_other _ _ (by simp; omega), g_setF_other _ _ (by simp; omega), hann]
    · rw [g_setB_other _ _ (by simp; omega), g_setF_same]
      exact Nat.mod_eq_of_lt (leNat_lt body 4 4)
  next hoff => exact ⟨u, rfl, hann, fun hon => absurd hon hoff⟩

/-- R168: at the frame announced the entropy is staged and in force. -/
theorem exec_followApply_applies (hpend : s.on (F.LE_RX_PLAN_STAT_follow_pending le.val) = true)
    (hdue : frameDue s le.val (s.g (F.LE_RX_FOLLOW_AT_frame le.val)) = true) : ∃ t, exec (.followApply le) s = .next t ∧
      t.cur (F.LE_RX_PLAN_entropy le.val) = s.g (F.LE_RX_FOLLOW_STAT_entropy_announced le.val) % 256 ∧
      t.stg (F.LE_RX_PLAN_entropy le.val) = s.g (F.LE_RX_FOLLOW_STAT_entropy_announced le.val) % 256 ∧
      t.on (F.LE_RX_PLAN_STAT_follow_pending le.val) = false ∧ t.sticky (lep le.val 0x18) 3 := by
  refine ⟨_, by rw [exec_followApply, execFollowApply, if_pos (by simp [hpend, hdue])], ?_, ?_, ?_, ?_⟩
  · rw [cur_of_inForce ((fecReport_fits _ _).inForce_spared (by simp [followParts])), cur_of_inForce (State.evt_inForce _ _ _)]
    exact cur_force_same _ _ _
  · rw [stg_of_staged ((fecReport_fits _ _).within .staged (by simp [Sparing, followParts])), stg_of_staged (State.evt_staged _ _ _)]
    exact stg_stage_same _ _ _
  · rw [(fecReport_fits _ _).on_spared (by simp [followParts]), on_evt_other _ _ _ (by simp [lep]; omega), State.incWrap,
      on_setF_other _ _ (by simp; omega), on_setB _ _ _ rfl]
  · exact sticky_of_g (sticky_evt _ _ _ (by omega)) ((fecReport_fits _ _).g_spared (by simp [followParts]))

/-- R169: the demapper takes the other entropy. -/
theorem exec_followAlternate_alternates (h : (s.eng le.val).rx.alternating = true) :
    ∃ t, exec (.followAlternate le) s = .next t ∧
      (t.eng le.val).rx.usesAnnounced = !(s.eng le.val).rx.usesAnnounced ∧
      t.g (F.LE_RX_PLAN_STAT_entropy_active le.val) = (if (s.eng le.val).rx.usesAnnounced then s.cur (F.LE_RX_PLAN_entropy le.val)
        else s.g (F.LE_RX_FOLLOW_STAT_entropy_announced le.val)) % 256 := by
  refine ⟨_, by rw [exec_followAlternate, execFollowAlternate, if_pos h], by simp, ?_⟩
  rw [g_setF_same, g_modRx, cur_modRx]
  cases (s.eng le.val).rx.usesAnnounced <;> rfl

theorem exec_followGiveUp_stops (h : (s.eng le.val).rx.alternating = true) : ∃ t, exec (.followGiveUp le) s = .next t ∧
    (t.eng le.val).rx.alternating = false ∧
    t.g (F.LE_RX_PLAN_STAT_entropy_active le.val) = s.cur (F.LE_RX_PLAN_entropy le.val) % 256 :=
  ⟨_, by rw [exec_followGiveUp, execFollowGiveUp, if_pos h], by simp, g_setF_same _ _ _⟩

end Follow

/-! ## Reflections (R179 to R185) -/

theorem reflSet_g_other (le r v d : Nat) (s : State) {f : Field} (hstate : f.key ≠ (F.LE_RX_REFL_STAT_state le r).key)
    (hdelay : f.key ≠ (F.LE_RX_REFL_STAT_delay le r).key) (hslots : f.key ≠ (F.LE_RX_REFL_SUM_slots le).key) :
    (reflSet le r v d s).g f = s.g f := by
  rw [reflSet, g_setF_other _ _ hslots, g_setF_other _ _ hdelay, g_setF_other _ _ hstate]

theorem reflSet_state (le r v d : Nat) (s : State) : (reflSet le r v d s).g (F.LE_RX_REFL_STAT_state le r) = v % 4 := by
  rw [reflSet, g_setF_other _ _ (by simp; omega), g_setF_other _ _ (by simp), g_setF_same]
  rfl

theorem reflSet_delay (le r v d : Nat) (s : State) : (reflSet le r v d s).g (F.LE_RX_REFL_STAT_delay le r) = d % 2 ^ 22 := by
  rw [reflSet, g_setF_other _ _ (by simp; omega), g_setF_same]
  rfl

theorem reflResidual_g_other (le : Nat) (s : State) {f : Field} (h : f.key ≠ (F.LE_RX_REFL_SUM_residual le).key) :
    (reflResidual le s).g f = s.g f := g_setF_other _ _ h

section Reflection

variable {le : Fin 2} {s : State}

/-- R182: a candidate away from the slots in use takes the lowest empty one. -/
theorem exec_reflCandidate_placed {r : Fin 8} {peak : Nat} {level : Int} (hauto : reflAuto s le.val = true)
    (hmin : samplesPer10ns s le.val * s.cur (F.LE_RX_REFL_WIN_win_min le.val) ≤ peak)
    (hmax : peak ≤ samplesPer10ns s le.val * s.cur (F.LE_RX_REFL_WIN_win_max le.val))
    (hlevel : -(5 * (s.cur (F.LE_RX_REFL_CTRL_threshold le.val) : Int)) < level)
    (hr : r.val ≤ s.cur (F.LE_RX_REFL_CTRL_max_refl le.val))
    (hnone : ∀ i, i ≤ s.cur (F.LE_RX_REFL_CTRL_max_refl le.val) → s.g (F.LE_RX_REFL_STAT_state le.val i) < 2)
    (hempty : s.g (F.LE_RX_REFL_STAT_state le.val r.val) = 0)
    (hlowest : ∀ i, i < r.val → s.g (F.LE_RX_REFL_STAT_state le.val i) ≠ 0) :
    ∃ t, exec (.reflCandidate le peak level) s = .next t ∧ t.g (F.LE_RX_REFL_STAT_state le.val r.val) = 1 ∧
      t.g (F.LE_RX_REFL_STAT_delay le.val r.val) = (peak - 24) % 2 ^ 22 := by
  have hslot : (List.range (s.cur (F.LE_RX_REFL_CTRL_max_refl le.val) + 1)).find?
      (fun i => s.g (F.LE_RX_REFL_STAT_state le.val i) == 0) = some r.val :=
    List.find?_range_eq_some.2 ⟨by simp [hempty], List.mem_range.2 (by omega), fun i hi => by simp [hlowest i hi]⟩
  refine ⟨reflSet le.val r.val 1 (peak - 24) s, ?_, reflSet_state _ _ _ _ _, reflSet_delay _ _ _ _ _⟩
  have hfree : ((List.range (s.cur (F.LE_RX_REFL_CTRL_max_refl le.val) + 1)).any fun i =>
      decide (2 ≤ s.g (F.LE_RX_REFL_STAT_state le.val i)) && decide (s.g (F.LE_RX_REFL_STAT_delay le.val i) ≤ peak + 48) &&
        decide (peak ≤ s.g (F.LE_RX_REFL_STAT_delay le.val i) + 47 + 48)) = false := by
    refine List.any_eq_false.2 fun i hi => ?_
    have hlt := hnone i (Nat.lt_succ_iff.1 (List.mem_range.1 hi))
    simp [Nat.not_le.2 hlt]
  rw [exec_reflCandidate, execReflCandidate]
  dsimp only
  rw [if_pos (by simp [hauto, hmin, hmax, hlevel]), hfree, hslot]
  rfl

/-- R182: after its 1 ms a candidate of 6 dB or more of suppression is ACTIVE; another frees its slot. -/
theorem exec_reflCandidateEnd_decides {r : Fin 8} {level suppression : Int}
    (hcand : s.g (F.LE_RX_REFL_STAT_state le.val r.val) = 1) : ∃ t, exec (.reflCandidateEnd le r level suppression) s = .next t ∧
      t.g (F.LE_RX_REFL_STAT_state le.val r.val) = (if 60 ≤ suppression then 2 else 0) ∧
      (60 ≤ suppression → t.g (F.LE_RX_REFL_LVL_level le.val r.val) = unsigned 16 level ∧ t.sticky (lep le.val 0x1A) 0) := by
  have hlvl : ((s.setF (F.LE_RX_REFL_LVL_level le.val r.val) (unsigned 16 level)).setF
      (F.LE_RX_REFL_LVL_suppression le.val r.val) (unsigned 16 suppression)).g (F.LE_RX_REFL_LVL_level le.val r.val) =
        unsigned 16 level := by
    rw [g_setF_other _ _ (by simp), g_setF_same]
    exact unsigned_mod 16 level
  rw [exec_reflCandidateEnd, execReflCandidateEnd]
  dsimp only
  rw [if_pos hcand]
  split
  · refine ⟨_, rfl, ?_, fun _ => ⟨?_, sticky_evt _ _ _ (by omega)⟩⟩
    · rw [g_evt_other _ _ _ (by simp [lep]; omega), reflResidual_g_other _ _ (by simp; omega), reflSet_state]
    · rw [g_evt_other _ _ _ (by simp [lep]; omega), reflResidual_g_other _ _ (by simp; omega),
        reflSet_g_other _ _ _ _ _ (by simp; omega) (by simp; omega) (by simp; omega), setEcho, g_modRx]
      exact hlvl
  next hlow => exact ⟨_, rfl, reflSet_state _ _ _ _ _, fun h => absurd h hlow⟩

theorem exec_reflLost_frees {r : Fin 8} (hactive : s.g (F.LE_RX_REFL_STAT_state le.val r.val) = 2) :
    ∃ t, exec (.reflLost le r) s = .next t ∧ t.g (F.LE_RX_REFL_STAT_state le.val r.val) = 0 ∧ t.sticky (lep le.val 0x1A) 1 := by
  refine ⟨_, by rw [exec_reflLost, execReflLost, if_pos hactive], ?_, sticky_evt _ _ _ (by omega)⟩
  rw [g_evt_other _ _ _ (by simp [lep]; omega), reflResidual_g_other _ _ (by simp; omega), reflSet_state]

/-- R182: an ACTIVE slot follows a centroid that has wandered by more than 8 taps. -/
theorem exec_reflDelayMove_follows {r : Fin 8} {offset : Int} (hactive : s.g (F.LE_RX_REFL_STAT_state le.val r.val) = 2)
    (hfar : 8 < offset.natAbs) : ∃ t, exec (.reflDelayMove le r offset) s = .next t ∧
      t.g (F.LE_RX_REFL_STAT_delay le.val r.val) =
        ((s.g (F.LE_RX_REFL_STAT_delay le.val r.val) : Int) + offset).toNat % 2 ^ 22 := by
  refine ⟨_, by rw [exec_reflDelayMove, execReflDelayMove, if_pos ⟨hactive, hfar⟩], ?_⟩
  rw [g_setF_same, setEcho, g_modRx]
  rfl

end Reflection

/-! ## What the end of a quality interval keeps (R195 to R199) -/

/-- The sequence number of the intervals and the events of page 0x1C. -/
def qualParts (le : Nat) : List Part := [.reg (F.LE_RX_QUAL_SEQ_seq le).key, .reg (F.EVT_STICKY (lep le 0x1C)).key]

/-- The sequence number, the events of page 0x1C and the slips of the interval stay. -/
structure QualKeeps (le : Nat) (s t : State) : Prop where
  fits : Fits (Sparing (qualParts le)) s t
  slips : (t.eng le).rx.slips = (s.eng le).rx.slips

theorem QualKeeps.refl (le : Nat) (s : State) : QualKeeps le s s := ⟨.refl _ s, rfl⟩

theorem QualKeeps.trans {le : Nat} {s t u : State} (h : QualKeeps le s t) (h' : QualKeeps le t u) : QualKeeps le s u :=
  ⟨h.fits.trans h'.fits, h'.slips.trans h.slips⟩

theorem QualKeeps.seq {le : Nat} {s t : State} (h : QualKeeps le s t) :
    t.g (F.LE_RX_QUAL_SEQ_seq le) = s.g (F.LE_RX_QUAL_SEQ_seq le) := h.fits.g_spared (by simp [qualParts])

theorem QualKeeps.sticky {le b : Nat} {s t : State} (h : QualKeeps le s t) (hs : s.sticky (lep le 0x1C) b) :
    t.sticky (lep le 0x1C) b := sticky_of_g hs (h.fits.g_spared (by simp [qualParts]))

/-- A change that spares more parts spares fewer. -/
theorem Fits.spared_mono {ps qs : List Part} {s t : State} (h : Fits (Sparing qs) s t) (hsub : ps ⊆ qs) :
    Fits (Sparing ps) s t :=
  ⟨fun p hp => h.within p fun hq => hp fun hps => hq (hsub hps), h.tidy⟩

/-- A change that leaves the receive storage keeps the slips. -/
theorem QualKeeps.of_rx {le : Nat} {s t : State} (h : Fits (Sparing (.rx (le != 0) :: qualParts le)) s t) : QualKeeps le s t :=
  ⟨h.spared_mono (List.subset_cons_self _ _), by rw [h.rx_spared (by simp)]⟩

theorem fecInterval_keeps (le : Nat) (s : State) : QualKeeps le s (fecInterval le s) := by
  have tch : Touches.fecInterval (Sparing (.rx (le != 0) :: qualParts le)) le := by
    repeat' first | constructor | (simp [Sparing, qualParts, lep] <;> omega)
  exact .of_rx (.fecInterval _ _ (.refl _ _) tch)

theorem setEcho_slips (le r : Nat) (e : Echo) (s : State) :
    ((setEcho le r e s).eng le).rx.slips = (s.eng le).rx.slips := by rw [setEcho, eng_modRx_same]

/-- R181, R185: the models and levels of the eight slots. -/
theorem echoTrack_keeps (le : Nat) (s : State) : QualKeeps le s (echoTrack le s) := by
  unfold echoTrack
  split
  · have hsum : Sparing (qualParts le) (.reg (F.LE_RX_REFL_SUM_residual le).key) := by simp [Sparing, qualParts, lep]; omega
    refine ⟨.reflResidual _ _ (.forEachMem _ _ (.refl _ s) fun r hr t ht => ?_) ⟨hsum⟩, ?_⟩
    · have hlt := List.mem_range.1 hr
      have hlvl : Sparing (qualParts le) (.reg (F.LE_RX_REFL_LVL_level le r).key) := by simp [Sparing, qualParts, lep]; omega
      have hsup : Sparing (qualParts le) (.reg (F.LE_RX_REFL_LVL_suppression le r).key) := by
        simp [Sparing, qualParts, lep]; omega
      have hdrawn : Sparing (qualParts le) .drawn := by simp [Sparing, qualParts]
      have hecho := Fits.setEcho le r (echoAdapted t.drawn) _ (ht.upd_drawn hdrawn (t.drawn + 1)) ⟨by simp [Sparing, qualParts]⟩
      refine .ite (fun _ => ht) fun _ => .ite (fun _ => hecho) fun _ => ?_
      exact .setF _ _ _ (.setF _ _ _ (.draw _ 16 (.draw _ 16 hecho hdrawn) hdrawn) hlvl) hsup
    · rw [reflResidual, eng_setF]
      refine forEach_view_unchanged (fun t => (t.eng le).rx.slips) _ (fun r _ t => ?_) s
      dsimp only
      split
      · rfl
      · split <;> exact setEcho_slips le r _ _
  · exact .refl le s

theorem trackCommon_keeps (le : Nat) (s : State) : QualKeeps le s (trackCommon le s) := by
  have tch : Touches.trackCommon (Sparing (.rx (le != 0) :: qualParts le)) le := by
    constructor <;> (simp [Sparing, qualParts, lep] <;> omega)
  exact .of_rx (.trackCommon _ _ (.refl _ _) tch)

theorem upstreamShift_keeps (le : Nat) (s : State) : QualKeeps le s (upstreamShift le s) :=
  .of_rx (.upstreamShift _ _ (.refl _ _) ⟨by simp [Sparing, qualParts]⟩)

/-- R177: the four lanes' counts of overloads. -/
theorem overTake_keeps (le : Nat) (s : State) : QualKeeps le s (overTake le s) := by
  have hlevel : Touches.level (Sparing (.rx (le != 0) :: qualParts le)) (lep le 0x19) := by
    repeat' first | constructor | (simp [Sparing, qualParts, lep] <;> omega)
  have hcounts : Fits (Sparing (.rx (le != 0) :: qualParts le)) s (s.forEach (List.range 4) fun l t =>
      t.bump (F.LE_RX_ADC_OVR_count le l) (Config.overloads (s.drawn + l))) :=
    .forEachMem _ _ (.refl _ s) fun l hl t ht => .bump _ _ _ ht (by
      have hlt := List.mem_range.1 hl
      simp [Sparing, qualParts, lep]
      omega)
  exact .of_rx (.ite (fun _ => .level _ _ _ _ (.refl _ s) hlevel)
    fun _ => .level _ _ _ _ (hcounts.upd_drawn (by simp [Sparing, qualParts]) _) hlevel)

/-- R178: the estimates of the four lanes and of both polarisations. -/
theorem frontEstimate_keeps (le : Nat) (s : State) : QualKeeps le s (frontEstimate le s) := by
  have hdrawn : Sparing (.rx (le != 0) :: qualParts le) .drawn := by simp [Sparing, qualParts]
  have hlanes : Fits (Sparing (.rx (le != 0) :: qualParts le)) s (s.forEach (List.range 4) fun l s =>
      estimatePut (F.LE_RX_LANE_SKEW_EST_skew le l) s) :=
    .forEachMem _ _ (.refl _ s) fun l hl t ht => .estimatePut _ _ ht hdrawn (by
      have hlt := List.mem_range.1 hl
      simp [Sparing, qualParts, lep]
      omega)
  refine .of_rx (.ite (fun _ => .refl _ s) fun _ => ?_)
  refine .estimatePut _ _ (.estimatePut _ _ (.estimatePut _ _ (.estimatePut _ _ hlanes hdrawn ?_) hdrawn ?_) hdrawn ?_) hdrawn ?_ <;>
    (simp [Sparing, qualParts, lep]; omega)

theorem pilotsLost_slips (le k : Nat) (s : State) : ((pilotsLost le k s).eng le).rx.slips = (s.eng le).rx.slips := by
  rw [(pilotsLost_keeps le k s).slips, eng_evt, scGo_rx]

theorem residualLimit_keeps (le : Nat) (s : State) : QualKeeps le s (residualLimit le s) := by
  have tch : Touches.residualLimit (Sparing (qualParts le)) le := by
    repeat' first | constructor | (simp [Sparing, qualParts, lep] <;> omega)
  refine ⟨.residualLimit _ _ (.refl _ _) tch, ?_⟩
  refine forEach_view_unchanged (fun t => (t.eng le).rx.slips) _ (fun k _ t => ?_) s
  split
  · exact pilotsLost_slips le k t
  · rfl

/-! ## QUAL_INTERVAL (R195 to R199) -/

/-- R195, R196, R198: the records of the subcarriers of an interval that ends; the slips begin anew. -/
def qualRecords (le : Nat) (q : List (Fin 32 × Quality)) (s : State) : State :=
  let subs := rxSubs s le
  let s := s.forEach subs fun k s => qualRecord le k ((q.find? fun e => e.1.val == k).map (·.2)) s
  let s := s.forEach ((List.range 32).filter fun k => !subs.contains k) fun k s =>
    s.forEach (qualFields le k) fun f s => qualPut le f 0 s
  s.modRx le fun r => { r with slips := [] }

/-- R195, R199: an interval is counted, with its start and the lowest LQ among `subs`. -/
def qualCount (le : Nat) (subs : List Nat) (s : State) : State :=
  let s := s.incWrap (F.LE_RX_QUAL_SEQ_seq le) 1
  let t0 := s.now / 1000000 * 1000000 - 1000000
  let s := (s.setF (F.LE_RX_QUAL_T0_LO_t le) t0).setF (F.LE_RX_QUAL_T0_HI_t le) (t0 / 2 ^ 32)
  match leastBy (fun k => qualGet s le (F.LE_RX_QUAL_B_lq le k)) subs with
  | some k => (s.setF (F.LE_RX_LQ_MIN_index le) k).setF (F.LE_RX_LQ_MIN_lq le) (qualGet s le (F.LE_RX_QUAL_B_lq le k))
  | none => s

/-- R199: the events of an interval: its end, and an LQ below `alarm` among `subs`. -/
def qualEvents (le : Nat) (subs : List Nat) (alarm : Nat) (s : State) : State :=
  let s := State.evt (lep le 0x1C) 0 s
  if subs.any fun k => qualGet s le (F.LE_RX_QUAL_B_valid le k) == 1 && decide (qualGet s le (F.LE_RX_QUAL_B_lq le k) < alarm) then
    State.evt (lep le 0x1C) 1 s
  else s

/-- R199, R201: the records are shown unless held, the events of the interval raised, and the settings of the next one taken. -/
def qualReport (le : Nat) (subs : List Nat) (s : State) : State :=
  let now := (s.eng le).rx.qctrl
  let s := qualEvents le subs now.2.2.1 (if now.1 = 1 then s else qualShow le s)
  s.modRx le fun r => { r with qctrl := (s.g (F.LE_RX_QUAL_CTRL_hold le), s.g (F.LE_RX_QUAL_CTRL_ref_mode le),
    s.g (F.LE_RX_QUAL_CTRL_lq_alarm le), s.g (F.LE_RX_QUAL_CTRL_q_ref le)) }

/-- R177, R178, R181, R191, R208, R258: what the receiver measures anew with the end of an interval. -/
def qualTrack (le : Nat) (s : State) : State :=
  residualLimit le (upstreamShift le (trackCommon le (frontEstimate le (overTake le (echoTrack le (fecInterval le s))))))

theorem qualTrack_keeps (le : Nat) (s : State) : QualKeeps le s (qualTrack le s) :=
  (fecInterval_keeps le s).trans <| (echoTrack_keeps le _).trans <| (overTake_keeps le _).trans <|
    (frontEstimate_keeps le _).trans <| (trackCommon_keeps le _).trans <| (upstreamShift_keeps le _).trans <|
    residualLimit_keeps le _

theorem qualRecords_slips (le : Nat) (q : List (Fin 32 × Quality)) (s : State) :
    ((qualRecords le q s).eng le).rx.slips = [] := by
  unfold qualRecords
  dsimp only
  rw [eng_modRx_same]

/-- R195: the records are kept apart from the registers. -/
theorem qualRecords_g (le : Nat) (q : List (Fin 32 × Quality)) (s : State) (f : Field) :
    (qualRecords le q s).g f = s.g f := by
  have hrx : Sparing [.reg f.key] (.rx (le != 0)) := by simp [Sparing]
  have hrecords (l : List Nat) : Fits (Sparing [.reg f.key]) s (s.forEach l fun k s =>
      qualRecord le k ((q.find? fun e => e.1.val == k).map (·.2)) s) :=
    .forEach _ _ (.refl _ s) fun k t ht => .qualRecord _ _ _ _ ht ⟨by simp [Sparing], hrx, ⟨hrx⟩⟩
  refine Fits.g_spared (ps := [.reg f.key]) ?_ (List.mem_singleton.2 rfl)
  unfold qualRecords
  refine .modRx _ _ _ (.forEach _ _ (hrecords _) fun k t ht => ?_) hrx
  exact .forEach _ _ ht fun f t ht => .qualPut _ _ _ _ ht ⟨hrx⟩

/-- R199: the interval is counted. -/
theorem qualCount_counts (le : Nat) (subs : List Nat) (s : State) : ((qualCount le subs s).eng le).rx.slips = (s.eng le).rx.slips ∧
    (qualCount le subs s).g (F.LE_RX_QUAL_SEQ_seq le) = (s.g (F.LE_RX_QUAL_SEQ_seq le) + 1) % 2 ^ 32 := by
  unfold qualCount
  dsimp only
  split
  · rw [g_setF_other _ _ (by simp), g_setF_other _ _ (by simp; omega), g_setF_other _ _ (by simp), g_setF_other _ _ (by simp),
      g_incWrap_same]
    exact ⟨by simp, rfl⟩
  · rw [g_setF_other _ _ (by simp), g_setF_other _ _ (by simp), g_incWrap_same]
    exact ⟨by simp, rfl⟩

theorem qualShow_keeps (le : Nat) (s : State) : QualKeeps le s (qualShow le s) :=
  .of_rx (.qualShow _ _ (.refl _ s) ⟨fun k h1 h2 => by simp [Sparing, qualParts, lep] at h1 h2 ⊢; omega⟩)

theorem qualEvents_raises (le : Nat) (subs : List Nat) (alarm : Nat) (s : State) :
    (qualEvents le subs alarm s).eng le = s.eng le ∧
      (qualEvents le subs alarm s).g (F.LE_RX_QUAL_SEQ_seq le) = s.g (F.LE_RX_QUAL_SEQ_seq le) ∧
      (qualEvents le subs alarm s).sticky (lep le 0x1C) 0 := by
  have hevt (b : Nat) (u : State) :
      (State.evt (lep le 0x1C) b u).g (F.LE_RX_QUAL_SEQ_seq le) = u.g (F.LE_RX_QUAL_SEQ_seq le) :=
    g_evt_other _ _ _ (by simp [lep]; omega)
  have hend := sticky_evt (lep le 0x1C) 0 s (by omega)
  unfold qualEvents
  dsimp only
  split
  · exact ⟨by simp, by rw [hevt, hevt], sticky_evt_of _ 1 (by omega) hend⟩
  · exact ⟨by simp, hevt 0 s, hend⟩

/-- R199: the event of an interval, with count and slips kept. -/
theorem qualReport_raises (le : Nat) (subs : List Nat) (s : State) : ((qualReport le subs s).eng le).rx.slips = (s.eng le).rx.slips ∧
    (qualReport le subs s).g (F.LE_RX_QUAL_SEQ_seq le) = s.g (F.LE_RX_QUAL_SEQ_seq le) ∧
    (qualReport le subs s).sticky (lep le 0x1C) 0 := by
  obtain ⟨u, hu⟩ : ∃ u, u = if (s.eng le).rx.qctrl.1 = 1 then s else qualShow le s := ⟨_, rfl⟩
  have hshown : QualKeeps le s u := by
    rw [hu]
    split
    · exact .refl le s
    · exact qualShow_keeps le s
  obtain ⟨heng, hseq, hevent⟩ := qualEvents_raises le subs (s.eng le).rx.qctrl.2.2.1 u
  unfold qualReport
  dsimp only
  rw [← hu]
  refine ⟨?_, ?_, sticky_of_fields hevent (by simp)⟩
  · rw [eng_modRx_same, heng, ← hshown.slips]
  · rw [g_modRx, hseq, hshown.seq]

theorem exec_qualInterval_eq (le : Fin 2) (q : List (Fin 32 × Quality)) (s : State) : exec (.qualInterval le q) s =
    .next (qualTrack le.val (qualReport le.val (rxSubs s le.val) (qualCount le.val (rxSubs s le.val) (qualRecords le.val q s)))) := by
  rw [exec_qualInterval]
  unfold execQualInterval qualTrack qualReport qualEvents qualCount qualRecords
  rfl

/-- R195, R199: an interval is counted and reported, and the slips begin anew. -/
theorem exec_qualInterval_ends (le : Fin 2) (q : List (Fin 32 × Quality)) (s : State) :
    ∃ t, exec (.qualInterval le q) s = .next t ∧ (t.eng le.val).rx.slips = [] ∧ t.sticky (lep le.val 0x1C) 0 ∧
      t.g (F.LE_RX_QUAL_SEQ_seq le.val) = (s.g (F.LE_RX_QUAL_SEQ_seq le.val) + 1) % 2 ^ 32 := by
  have htrack := qualTrack_keeps le.val
    (qualReport le.val (rxSubs s le.val) (qualCount le.val (rxSubs s le.val) (qualRecords le.val q s)))
  obtain ⟨hslips, hseq, hevent⟩ := qualReport_raises le.val (rxSubs s le.val)
    (qualCount le.val (rxSubs s le.val) (qualRecords le.val q s))
  obtain ⟨hslips', hseq'⟩ := qualCount_counts le.val (rxSubs s le.val) (qualRecords le.val q s)
  refine ⟨_, exec_qualInterval_eq le q s, ?_, htrack.sticky hevent, ?_⟩
  · rw [htrack.slips, hslips, hslips', qualRecords_slips]
  · rw [htrack.seq, hseq, hseq', qualRecords_g]

/-- Settles O28, command by command: the followed entropy by what is written and reported of it, the slots by `reflSet`, the interval
by what its measurements keep of its count, its event and its slips. -/
theorem followReflectionQualityRun : Obligations.FollowReflectionQualityRun :=
  ⟨fun _ _ _ => exec_entropyAnn_taken, fun _ _ => exec_followApply_applies, fun _ _ => exec_followAlternate_alternates,
    fun _ _ => exec_followGiveUp_stops, fun _ _ _ _ _ => exec_reflCandidate_placed,
    fun _ _ _ _ _ => exec_reflCandidateEnd_decides, fun _ _ _ => exec_reflLost_frees,
    fun _ _ _ _ => exec_reflDelayMove_follows, exec_qualInterval_ends⟩

end Sys2Proof.Machine

/-! The leaf of a point-to-multipoint engine and the messages of its hub (O29). -/

namespace Sys2Proof.Machine

/-! ## What the states of a leaf leave (R220) -/

theorem engOf_ne_zero (s : State) (le : Nat) : engOf s (le != 0) = s.eng le := by
  by_cases h : le = 0 <;> simp [engOf, State.eng, h]

theorem Fits.p2mp_spared {ps : List Part} {s t : State} {le : Nat} (h : Fits (Sparing ps) s t)
    (hp : Part.p2mp (le != 0) ∈ ps) : (t.eng le).p2mp = (s.eng le).p2mp := by
  rw [← engOf_ne_zero, ← engOf_ne_zero]
  exact h.within (.p2mp (le != 0)) (not_not_intro hp)

/-- The registers of a leaf: its state, identity, home and offset, the counts of its bursts and windows, the events of page 0x22. -/
def leafRegs (le : Nat) : List Part :=
  [.reg (F.LE_P2MP_LEAF_STAT_state le).key, .reg (F.LE_P2MP_LEAF_STAT_leaf_id le).key, .reg (F.LE_P2MP_LEAF_STAT_home le).key,
   .reg (F.LE_P2MP_LEAF_RO_ro le).key, .reg (F.LE_P2MP_LEAF_CNT_count le 0).key, .reg (F.LE_P2MP_LEAF_CNT_count le 3).key,
   .reg (F.EVT_STICKY (lep le 0x22)).key]

/-- The registers of a leaf, what it keeps behind them and the settings in force. -/
def leafParts (le : Nat) : List Part := .inForce :: .p2mp (le != 0) :: leafRegs le

theorem txEval_sparing (le : Nat) : Touches.txEval (Sparing (leafParts le)) le := by
  repeat' first | constructor | (simp [Sparing, leafParts, leafRegs, lep] <;> omega)

/-- R154: an evaluation of the output leaves the leaf. -/
theorem txEval_fits (le : Nat) (s : State) : Fits (Sparing (leafParts le)) s (txEval le s) :=
  .txEval _ _ (.refl _ s) (txEval_sparing le)

theorem leafGo_fits (le v : Nat) (s : State) :
    Fits (Sparing (.inForce :: leafRegs le)) (s.setF (F.LE_P2MP_LEAF_STAT_state le) v) (leafGo le v s) := by
  have hp2 : Sparing (.inForce :: leafRegs le) (.p2mp (le != 0)) := by simp [Sparing, leafRegs]
  have hdrawn : Sparing (.inForce :: leafRegs le) .drawn := by simp [Sparing, leafRegs]
  have htx : Fits (Sparing (.inForce :: leafRegs le)) (s.setF (F.LE_P2MP_LEAF_STAT_state le) v)
      (txEval le (s.setF (F.LE_P2MP_LEAF_STAT_state le) v)) :=
    (txEval_fits le _).spared_mono (by simp [leafParts])
  unfold leafGo
  dsimp only
  split
  · exact .modP2 _ _ _ htx hp2
  · exact .drawBackoff _ _ htx ⟨hdrawn, hp2⟩
  · exact htx

theorem leafGo_state {v : Nat} (hv : v < 8) (le : Nat) (s : State) : leafState (leafGo le v s) le = v := by
  rw [leafState, (leafGo_fits le v s).g_spared (by simp [leafRegs]), g_setF_same]
  exact Nat.mod_eq_of_lt hv

theorem leafGo_g (le v : Nat) (s : State) {f : Field} (hf : Part.reg f.key ∈ leafRegs le)
    (hne : f.key ≠ (F.LE_P2MP_LEAF_STAT_state le).key) : (leafGo le v s).g f = s.g f := by
  rw [(leafGo_fits le v s).g_spared (List.mem_cons_of_mem _ hf), g_setF_other _ _ hne]

theorem txEval_p2mp (le : Nat) (s : State) : ((txEval le s).eng le).p2mp = (s.eng le).p2mp :=
  (txEval_fits le s).p2mp_spared (by simp [leafParts])

/-- Beyond LISTEN and DISCOVER a state of the leaf changes nothing behind its registers. -/
theorem leafGo_p2mp {v : Nat} (h1 : v ≠ 1) (h2 : v ≠ 2) (le : Nat) (s : State) :
    ((leafGo le v s).eng le).p2mp = (s.eng le).p2mp := by
  unfold leafGo
  dsimp only
  split
  · exact absurd rfl h1
  · exact absurd rfl h2
  · rw [txEval_p2mp, eng_setF]

/-! ## A message and the leaf that it names (R219, R395) -/

section Message

variable {le : Fin 2} {id : Fin 512} {s : State}

/-- R395: without a CTRL_RX association a message is taken where none need be authenticated. -/
theorem leafMsg_of_hears (h : hears le id false s) (type arg seq : Nat) (tag : List Byte) (f : State → State) :
    leafMsg le.val type id.val arg seq tag f s = f s := by
  obtain ⟨hleaf, hid, hauth, hnone⟩ := h
  unfold leafMsg ctrlAccept
  rw [if_neg (by simp [hleaf, hid]), hauth, hnone]
  rfl

/-- R395: without a CTRL_RX association no message is authentic; under ctrl_auth it raises its event. -/
theorem leafMsg_of_hears_auth (h : hears le id true s) (type arg seq : Nat) (tag : List Byte) (f : State → State) :
    leafMsg le.val type id.val arg seq tag f s =
      State.evt (lep le.val 0x22) 6 (s.bump (F.LE_P2MP_LEAF_CNT_count le.val 2) 1) := by
  obtain ⟨hleaf, hid, hauth, hnone⟩ := h
  unfold leafMsg ctrlAccept
  rw [if_neg (by simp [hleaf, hid]), hauth, hnone]
  rfl

/-! ## The messages and LEAF_CLR (R211, R220, R232) -/

/-- R14: an address of a page of a line engine lies in that page. -/
theorem pageOf_lep (le : Fin 2) {p off : Nat} (hp : p < 0x80) (ho : off < 0x1000) :
    pageOf (lep le.val p * 0x1000 + off) = lep le.val p := pageOf_hdr _ _ (by simp only [lep]; omega) ho

/-- The registers of page 0x22 above its header read through an event of the page. -/
theorem g_evt_leaf (le b : Nat) (s : State) {f : Field} (hf : 0x200 ≤ f.key % 0x8000) :
    (State.evt (lep le 0x22) b s).g f = s.g f := g_evt_other _ _ _ (by simp; omega)

/-- R211, R220: the leaf takes identity, home and offset of the ASSIGN that carries its tag. -/
theorem exec_assign_takes {tag : BitVec 24} {home : Fin 32} {ro : BitVec 20} (hleaf : isLeaf s le.val = true)
    (hdiscover : leafState s le.val = 2) (htag : tag.toNat / 4 = s.g F.ENC_SERIAL_LO_serial % 2 ^ 24 / 4)
    (hhome : (s.cur (F.LE_RX_SC_EN_en le.val)).testBit home.val = true) :
    ∃ t, exec (.assign le id tag home ro) s = .next t ∧ leafState t le.val = 3 ∧
      t.g (F.LE_P2MP_LEAF_STAT_leaf_id le.val) = id.val ∧ t.g (F.LE_P2MP_LEAF_STAT_home le.val) = home.val ∧
      t.g (F.LE_P2MP_LEAF_RO_ro le.val) = ro.toNat ∧ t.sticky (lep le.val 0x22) 0 := by
  refine ⟨_, by rw [exec_assign, execAssign, if_pos (by simp [hleaf, hdiscover, htag]), if_pos hhome],
    ?_, ?_, ?_, ?_, sticky_evt _ _ _ (by omega)⟩
  · rw [leafState, g_evt_leaf _ _ _ (by simp; omega), g_setF_other _ _ (by simp; omega), g_setF_other _ _ (by simp),
      g_setF_other _ _ (by simp)]
    exact leafGo_state (by omega) _ _
  · rw [g_evt_leaf _ _ _ (by simp; omega), g_setF_other _ _ (by simp), g_setF_other _ _ (by simp), g_setF_same]
    exact Nat.mod_eq_of_lt (id.isLt.trans (by simp))
  · rw [g_evt_leaf _ _ _ (by simp; omega), g_setF_other _ _ (by simp; omega), g_setF_same]
    exact Nat.mod_eq_of_lt home.isLt
  · rw [g_evt_leaf _ _ _ (by simp; omega), g_setF_same]
    exact Nat.mod_eq_of_lt ro.isLt

/-- R220: RANGE_ADJ moves the offset of an ASSIGNED leaf, which done makes RANGED. -/
theorem exec_rangeAdj_moves {done : Bool} {change seq : BitVec 16} {tag : List Byte} (h : hears le id false s)
    (hassigned : leafState s le.val = 3) :
    ∃ t, exec (.rangeAdj le id done change seq tag) s = .next t ∧ leafState t le.val = (if done then 4 else 3) ∧
      t.g (F.LE_P2MP_LEAF_RO_ro le.val) = unsigned 20 ((s.g (F.LE_P2MP_LEAF_RO_ro le.val) : Int) + change.toInt) := by
  obtain ⟨u, hu⟩ : ∃ u, u = s.setF (F.LE_P2MP_LEAF_RO_ro le.val)
      (unsigned 20 ((s.g (F.LE_P2MP_LEAF_RO_ro le.val) : Int) + change.toInt)) := ⟨_, rfl⟩
  have hstate : leafState u le.val = 3 := by rw [hu, leafState, g_setF_other _ _ (by simp; omega)]; exact hassigned
  have hro : u.g (F.LE_P2MP_LEAF_RO_ro le.val) =
      unsigned 20 ((s.g (F.LE_P2MP_LEAF_RO_ro le.val) : Int) + change.toInt) := by
    rw [hu, g_setF_same]
    exact unsigned_mod 20 _
  have hexec : exec (.rangeAdj le id done change seq tag) s =
      .next (if done then State.evt (lep le.val 0x22) 1 (leafGo le.val 4 u) else u) := by
    rw [exec_rangeAdj, execRangeAdj, leafMsg_of_hears h, if_pos (.inl hassigned)]
    dsimp only
    rw [← hu, hstate]
    simp
  refine ⟨_, hexec, ?_⟩
  cases done with
  | false => exact ⟨hstate, hro⟩
  | true =>
    refine ⟨?_, ?_⟩
    · exact (g_evt_leaf _ _ _ (by simp; omega)).trans (leafGo_state (by omega) _ _)
    · exact (g_evt_leaf _ _ _ (by simp; omega)).trans ((leafGo_g _ _ _ (by simp [leafRegs]) (by simp; omega)).trans hro)

/-- R232: POWER_ADJ changes the gain of a RANGED leaf within its limits. -/
theorem exec_powerAdj_changes {change seq : BitVec 16} {tag : List Byte} (h : hears le id false s)
    (hranged : leafState s le.val = 4) :
    ∃ t, exec (.powerAdj le id change seq tag) s = .next t ∧ leafState t le.val = 4 ∧ t.g (F.LE_P2MP_LEAF_GAIN_gain le.val) =
      unsigned 9 (clampI (-240) 120 (signed 9 (s.g (F.LE_P2MP_LEAF_GAIN_gain le.val)) + change.toInt)) := by
  refine ⟨_, by rw [exec_powerAdj, execPowerAdj, leafMsg_of_hears h, if_pos hranged], ?_, ?_⟩
  · rw [leafState, g_setF_other _ _ (by simp; omega)]
    exact hranged
  · rw [g_setF_same]
    exact unsigned_mod 9 _

/-- R220: QUIESCE silences a leaf that is ASSIGNED or RANGED. -/
theorem exec_quiesce_silences {seq : BitVec 16} {tag : List Byte} (h : hears le id false s)
    (hstate : leafState s le.val = 3 ∨ leafState s le.val = 4) :
    ∃ t, exec (.quiesce le id seq tag) s = .next t ∧ leafState t le.val = 5 ∧ t.sticky (lep le.val 0x22) 2 :=
  ⟨_, by rw [exec_quiesce, execQuiesce, leafMsg_of_hears h, if_pos hstate],
    (g_evt_leaf _ _ _ (by simp; omega)).trans (leafGo_state (by omega) _ _), sticky_evt _ _ _ (by omega)⟩

/-- R220: a leaf that is QUIESCED becomes ASSIGNED again, and its transmitter is no longer disabled. -/
theorem leafUnquiesce_returns (hleaf : isLeaf s le.val = true) (hquiet : leafState s le.val = 5) :
    leafState (leafUnquiesce le.val s) le.val = 3 ∧ ((leafUnquiesce le.val s).eng le.val).p2mp.selfOff = false := by
  rw [leafUnquiesce, if_pos (by simp [hleaf, hquiet]), leafGo_p2mp (by omega) (by omega), eng_modP2_same]
  exact ⟨leafGo_state (by omega) _ _, rfl⟩

/-- R220: RELEASE ends the silence of a leaf. -/
theorem exec_release_returns {seq : BitVec 16} {tag : List Byte} (h : hears le id false s) (hquiet : leafState s le.val = 5) :
    ∃ t, exec (.release le id seq tag) s = .next t ∧ leafState t le.val = 3 :=
  ⟨_, by rw [exec_release, execRelease, leafMsg_of_hears h], (leafUnquiesce_returns h.1 hquiet).1⟩

/-- R220: DEREGISTER clears the identity and keeps home and offset. -/
theorem exec_deregister_forgets {seq : BitVec 16} {tag : List Byte} (h : hears le id false s) (hup : leafState s le.val ≠ 0) :
    ∃ t, exec (.deregister le id seq tag) s = .next t ∧ leafState t le.val = 2 ∧
      t.g (F.LE_P2MP_LEAF_STAT_leaf_id le.val) = 0x3FF ∧
      t.g (F.LE_P2MP_LEAF_RO_ro le.val) = s.g (F.LE_P2MP_LEAF_RO_ro le.val) ∧
      t.g (F.LE_P2MP_LEAF_STAT_home le.val) = s.g (F.LE_P2MP_LEAF_STAT_home le.val) := by
  refine ⟨_, by rw [exec_deregister, execDeregister, leafMsg_of_hears h, if_neg hup], leafGo_state (by omega) _ _, ?_, ?_, ?_⟩
  · rw [leafGo_g _ _ _ (by simp [leafRegs]) (by simp), g_setF_same]
    rfl
  · rw [leafGo_g _ _ _ (by simp [leafRegs]) (by simp; omega), g_setF_other _ _ (by simp)]
  · rw [leafGo_g _ _ _ (by simp [leafRegs]) (by simp), g_setF_other _ _ (by simp)]

/-- R395: under ctrl_auth an unauthenticated DEREGISTER leaves the leaf's state. -/
theorem exec_deregister_unauthenticated {seq : BitVec 16} {tag : List Byte} (h : hears le id true s) :
    ∃ t, exec (.deregister le id seq tag) s = .next t ∧ leafState t le.val = leafState s le.val ∧ t.sticky (lep le.val 0x22) 6 := by
  refine ⟨_, by rw [exec_deregister, execDeregister, leafMsg_of_hears_auth h], ?_, sticky_evt _ _ _ (by omega)⟩
  rw [leafState, g_evt_leaf _ _ _ (by simp; omega), g_bump_other _ _ (by simp; omega), leafState]

/-- R220: so does LEAF_CLR. -/
theorem exec_leafClr_returns {m : Master} (h : s.admits m (lep le.val 0x22) false) (hleaf : isLeaf s le.val = true)
    (hquiet : leafState s le.val = 5) :
    ∃ t, exec (.leafClr m le) s = .next t ∧ leafState t le.val = 3 ∧ (t.eng le.val).p2mp.selfOff = false := by
  refine ⟨_, by rw [exec_leafClr, execLeafClr, leafClr, h.runs (pageOf_lep le (by omega) (by omega))], leafUnquiesce_returns ?_ ?_⟩
  · simpa [isLeaf, State.role, State.runState] using hleaf
  · simpa [leafState] using hquiet

/-- R225: codes outside every usable grant disable the transmitter. -/
theorem exec_selfGuardTrip_silences (hleaf : isLeaf s le.val = true) (hguard : s.curOn (F.LE_P2MP_LEAF_CTRL_self_guard le.val) = true)
    (hup : leafState s le.val ≠ 0) (hout : inGrant s le.val = false) :
    ∃ t, exec (.selfGuardTrip le) s = .next t ∧ leafState t le.val = 5 ∧ (t.eng le.val).p2mp.selfOff = true ∧
      t.sticky (lep le.val 0x22) 4 := by
  refine ⟨_, by rw [exec_selfGuardTrip, execSelfGuardTrip, if_pos (by simp [hleaf, hguard, hup, hout])], ?_, ?_,
    sticky_evt _ _ _ (by omega)⟩
  · rw [leafState, g_evt_leaf _ _ _ (by simp; omega), g_evt_leaf _ _ _ (by simp; omega)]
    exact leafGo_state (by omega) _ _
  · rw [eng_evt, eng_evt, leafGo_p2mp (by omega) (by omega), eng_modP2_same]

end Message

/-- Settles O29, message by message: the leaf's states by `leafGo`, which leaves its other registers, and who is heard by `leafMsg`. -/
theorem leafMessagesTaken : Obligations.LeafMessagesTaken :=
  ⟨fun _ _ _ _ _ _ => exec_assign_takes, fun _ _ _ _ _ _ _ => exec_rangeAdj_moves, fun _ _ _ _ _ _ => exec_powerAdj_changes,
    fun _ _ _ _ _ => exec_quiesce_silences, fun _ _ _ _ _ => exec_release_returns, fun _ _ _ _ _ => exec_deregister_forgets,
    fun _ _ _ _ _ => exec_deregister_unauthenticated, fun _ _ _ => exec_leafClr_returns, fun _ _ => exec_selfGuardTrip_silences⟩

end Sys2Proof.Machine

/-! The map, the bursts and the timers of a leaf (O30). -/

namespace Sys2Proof.Machine

/-! ## What a leaf has taken of its hub's map (R207, R216) -/

/-- The segments counted since LISTEN, and stamp and latch of the hub-time estimate. -/
def mapTaken (s : State) (le : Nat) : Nat × Nat × Nat := ((s.eng le).p2mp.segs, (s.eng le).p2mp.stamp, (s.eng le).p2mp.latch)

theorem mapTaken_of_p2mp {s t : State} {le : Nat} (h : (t.eng le).p2mp = (s.eng le).p2mp) : mapTaken t le = mapTaken s le := by
  rw [mapTaken, h, mapTaken]

/-- R222: a draw of the backoff ends the wait for ASSIGN. -/
theorem drawBackoff_waiting (le : Nat) (s : State) : ((drawBackoff le s).eng le).p2mp.waiting = none := by simp [drawBackoff]

theorem drawBackoff_mapTaken (le : Nat) (s : State) : mapTaken (drawBackoff le s) le = mapTaken s le := by
  simp [mapTaken, drawBackoff]

theorem leafGo_discover (le : Nat) (s : State) :
    leafGo le 2 s = drawBackoff le (txEval le (s.setF (F.LE_P2MP_LEAF_STAT_state le) 2)) := rfl

/-- Only a leaf that goes to LISTEN counts its segments anew. -/
theorem leafGo_mapTaken {v : Nat} (h1 : v ≠ 1) (le : Nat) (s : State) : mapTaken (leafGo le v s) le = mapTaken s le := by
  by_cases h2 : v = 2
  · rw [h2, leafGo_discover, drawBackoff_mapTaken]
    exact mapTaken_of_p2mp (by rw [txEval_p2mp, eng_setF])
  · exact mapTaken_of_p2mp (leafGo_p2mp h1 h2 le s)

theorem leafEval_mapTaken (le : Nat) (s : State) : mapTaken (leafEval le s) le = mapTaken s le := by
  unfold leafEval
  split
  · rfl
  · split
    · exact leafGo_mapTaken (by omega) le s
    · split
      · split
        · exact leafGo_mapTaken (by omega) le s
        · rw [leafGo_mapTaken (by omega)]
          exact mapTaken_of_p2mp (by simp [leafForget])
      · rfl

/-- R382: the boundary of a map for the associations leaves what the engines keep of maps and bursts. -/
theorem ctrlBoundary_p2mp (le le' ty p : Nat) (s : State) : ((ctrlBoundary le ty p s).eng le').p2mp = (s.eng le').p2mp := by
  have tch : Touches.ctrlBoundary (Sparing [.p2mp (le' != 0)]) := by
    repeat' first | with_reducible intro _ | constructor | simp [Sparing]
  exact (Fits.ctrlBoundary le ty p s (.refl _ s) tch).p2mp_spared (by simp)

/-! ## Bursts (R210, R213, R222) -/

/-- The state of a leaf's bursts after one of header `hdr` for grant `g` has left: it is counted and kept (R211). -/
theorem burstOut_p2mp (le hdr g t at' : Nat) (bytes : List Byte) (s : State) : ∃ span, ((burstOut le hdr g t at' bytes s).eng le).p2mp =
    { (s.eng le).p2mp with sent := some (hdr, g, t), sentBytes := bytes, span := span,
                           burstSeq := ((s.eng le).p2mp.burstSeq + 1) % 256 } := by
  have tch : Touches.envBurst (Sparing (leafParts le)) le := by
    repeat' first | constructor | (simp [Sparing, leafParts, leafRegs, lep] <;> omega)
  have henv (tb te : Nat) (u : State) : ((envBurst le tb te u).eng le).p2mp = (u.eng le).p2mp :=
    (Fits.envBurst le tb te u (.refl _ u) tch).p2mp_spared (by simp [leafParts])
  unfold burstOut
  dsimp only
  rw [eng_datapath, eng_modP2_same]
  dsimp only
  rw [henv, eng_reach]
  exact ⟨_, rfl⟩

theorem burstOut_burstSeq (le hdr g t at' : Nat) (bytes : List Byte) (s : State) :
    ((burstOut le hdr g t at' bytes s).eng le).p2mp.burstSeq = ((s.eng le).p2mp.burstSeq + 1) % 256 := by
  obtain ⟨_, h⟩ := burstOut_p2mp le hdr g t at' bytes s
  rw [h]

theorem burstOut_sent (le hdr g t at' : Nat) (bytes : List Byte) (s : State) :
    ((burstOut le hdr g t at' bytes s).eng le).p2mp.sent = some (hdr, g, t) := by
  obtain ⟨_, h⟩ := burstOut_p2mp le hdr g t at' bytes s
  rw [h]

theorem burstOut_waiting (le hdr g t at' : Nat) (bytes : List Byte) (s : State) :
    ((burstOut le hdr g t at' bytes s).eng le).p2mp.waiting = (s.eng le).p2mp.waiting := by
  obtain ⟨_, h⟩ := burstOut_p2mp le hdr g t at' bytes s
  rw [h]

/-- A burst that leaves changes none of the leaf's registers. -/
theorem burstOut_g (le hdr g t at' : Nat) (bytes : List Byte) (s : State) {f : Field} (hf : Part.reg f.key ∈ leafRegs le) :
    (burstOut le hdr g t at' bytes s).g f = s.g f := by
  have tch : Touches.burstOut (Sparing (leafRegs le)) le := by
    repeat' first | constructor | (simp [Sparing, leafRegs, lep] <;> omega)
  exact (Fits.burstOut le hdr g t at' bytes s (.refl _ s) tch).g_spared hf

/-- R283, R385: the bytes that a burst carries come out of containers and associations. -/
theorem burstBytes_fits (le cw : Nat) (s : State) : Fits (Sparing (leafParts le)) s (burstBytes le cw s).2 := by
  have tch : Touches.burstBytes (Sparing (leafParts le)) le := by
    repeat' first | constructor | simp [Sparing, leafParts, leafRegs]
  exact .burstBytes _ _ _ (.refl _ s) tch

section MapAndBursts

variable {le : Fin 2} {s : State}

/-- R216: a segment whose checksum is right is counted, and sets the hub-time estimate. -/
theorem exec_mapSegment_takes {k : Fin 32} {latch : BitVec 64} {seg : List Byte} (hleaf : isLeaf s le.val = true)
    (hframe : 2 ≤ Tbl.get 0 (s.eng le.val).glf.frame k.val) (hlen : seg.length = 20 + 8 * byteAt seg 14)
    (hgrants : byteAt seg 14 ≤ 16) (hcrc : leNat seg (seg.length - 4) 4 = crc32c (seg.take (seg.length - 4))) :
    ∃ t, exec (.mapSegment le k latch seg) s = .next t ∧ (t.eng le.val).p2mp.segs = (s.eng le.val).p2mp.segs + 1 ∧
      (t.eng le.val).p2mp.stamp = leNat seg 4 8 ∧ (t.eng le.val).p2mp.latch = latch.toNat := by
  have hguard : ¬ (!isLeaf s le.val || Tbl.get 0 (s.eng le.val).glf.frame k.val < 2 || seg.length != 20 + 8 * byteAt seg 14 ||
      16 < byteAt seg 14 || leNat seg (seg.length - 4) 4 != crc32c (seg.take (seg.length - 4))) = true := by
    rw [← hlen, hcrc]
    simp [hleaf, Nat.not_lt.2 hframe, hgrants]
  refine ⟨_, by rw [exec_mapSegment, execMapSegment]; dsimp only; rw [if_neg hguard], ?_⟩
  simp only [← Prod.mk.injEq]
  change mapTaken _ _ = _
  rw [leafEval_mapTaken, mapTaken_of_p2mp (ctrlBoundary_p2mp _ _ _ _ _), mapTaken_of_p2mp (txEval_p2mp _ _)]
  unfold mapTaken
  rw [eng_modP2_same]
  split <;> simp

/-- R213, R221: the burst of a held grant of a RANGED leaf leaves and is counted. -/
theorem exec_burstTransmit_sends {g : BitVec 64} {start : Nat}
    (hheld : (s.eng le.val).p2mp.held.find? (fun e => e.2 == g.toNat) = some (start, g.toNat))
    (hready : burstReady s le.val = true) (hid : gLeaf g.toNat = s.g (F.LE_P2MP_LEAF_STAT_leaf_id le.val))
    (hranged : leafState s le.val = 4) (htype : gType g.toNat ≤ 1) :
    ∃ t, exec (.burstTransmit le g) s = .next t ∧
      (t.eng le.val).p2mp.burstSeq = ((s.eng le.val).p2mp.burstSeq + 1) % 256 ∧
      ((t.eng le.val).p2mp.sent.map fun x => x.2.1) = some g.toNat ∧
      t.g (F.LE_P2MP_LEAF_CNT_count le.val 0) = min (s.g (F.LE_P2MP_LEAF_CNT_count le.val 0) + 1) 0xFFFFFFFF := by
  have hguard : ¬ (!burstReady s le.val || gLeaf g.toNat != s.g (F.LE_P2MP_LEAF_STAT_leaf_id le.val) ||
      !((leafState s le.val == 4 && gType g.toNat ≤ 1) || (leafState s le.val == 3 && gType g.toNat == 1))) = true := by
    simp [hready, hid, hranged, htype]
  refine ⟨_, by rw [exec_burstTransmit, execBurstTransmit]; dsimp only; rw [hheld]; dsimp only; rw [if_neg hguard], ?_, ?_, ?_⟩
  · rw [burstOut_burstSeq, eng_bump, (burstBytes_fits _ _ _).p2mp_spared (by simp [leafParts]), eng_modP2_same]
  · rw [burstOut_sent]
    rfl
  · rw [burstOut_g _ _ _ _ _ _ _ (by simp [leafRegs]), g_bump_same,
      (burstBytes_fits _ _ _).g_spared (by simp [leafParts, leafRegs]), g_modP2]
    rfl

/-- R222: the burst in the window that the backoff leads to leaves, is counted and begins the wait for ASSIGN. -/
theorem exec_discoveryBurst_sends {g : BitVec 64} {start : Nat} (hchosen : chosenWindow s le.val = some (start, g.toNat))
    (hready : burstReady s le.val = true) (hdiscover : leafState s le.val = 2) (hidle : (s.eng le.val).p2mp.waiting = none) :
    ∃ t, exec (.discoveryBurst le g) s = .next t ∧ (t.eng le.val).p2mp.waiting = some s.now ∧
      t.g (F.LE_P2MP_LEAF_CNT_count le.val 3) = min (s.g (F.LE_P2MP_LEAF_CNT_count le.val 3) + 1) 0xFFFFFFFF := by
  have hguard : ¬ (g.toNat != g.toNat || !burstReady s le.val || leafState s le.val != 2 ||
      (s.eng le.val).p2mp.waiting.isSome) = true := by
    simp [hready, hdiscover, hidle]
  refine ⟨_, by rw [exec_discoveryBurst, execDiscoveryBurst]; dsimp only; rw [hchosen]; dsimp only; rw [if_neg hguard], ?_, ?_⟩
  · rw [burstOut_waiting, eng_bump, eng_modP2_same]
    rfl
  · rw [burstOut_g _ _ _ _ _ _ _ (by simp [leafRegs]), g_bump_same, g_modP2]
    rfl

/-! ## The output of a leaf (R154, R225) -/

theorem setLive_live (le : Nat) (b : Bool) (s : State) : ((setLive le b s).eng le).tx.live = b := by
  unfold setLive envLevel
  dsimp only
  rw [eng_setB, eng_modTx_same]
  dsimp only
  cases b <;> cases (s.eng le).tx.live <;> rfl

/-- R225: without segments the output of a leaf is evaluated DARK, also in CONTINUOUS. -/
theorem txEval_live_of_segDark {le : Nat} {s : State} (hleaf : isLeaf s le = true) (hdark : (s.eng le).p2mp.segDark = true) :
    ((txEval le s).eng le).tx.live = false := by
  obtain ⟨u, hu⟩ : ∃ u, u = if s.runState le = 2 && s.on (F.UBH_STAT_tx_enabled le) then s else envDrop le s := ⟨_, rfl⟩
  have hfits : Fits (Sparing [.p2mp (le != 0), .reg (F.LE_ROLE_STAT_role_active le).key]) s u :=
    hu ▸ .ite (fun _ => .refl _ s) fun _ => .envDrop _ _ (.refl _ s) ⟨by simp [Sparing]⟩
  have hrole : u.role le = 3 := (hfits.g_spared (by simp)).trans (by simp [isLeaf] at hleaf; exact hleaf.1)
  have hsegs : (u.eng le).p2mp.segDark = true := by rw [hfits.p2mp_spared (by simp), hdark]
  unfold txEval
  rw [← hu, setLive_live]
  simp [txLive, hrole, hsegs]

/-! ## Timers of a leaf (R220, R225) -/

/-- R220: 64 periods without ASSIGN end the wait; the leaf goes on discovering. -/
theorem exec_discoveryWaitExpiry_ends {since : Nat} (hwait : (s.eng le.val).p2mp.waiting = some since)
    (hdiscover : leafState s le.val = 2) :
    ∃ t, exec (.discoveryWaitExpiry le) s = .next t ∧ (t.eng le.val).p2mp.waiting = none ∧ leafState t le.val = 2 := by
  refine ⟨_, by rw [exec_discoveryWaitExpiry, execDiscoveryWaitExpiry, hwait]; exact if_pos hdiscover,
    drawBackoff_waiting _ _, ?_⟩
  rw [leafState, drawBackoff, g_modP2, g_draw, g_reach]
  exact hdiscover

/-- R225: the output of a leaf is DARK while segments do not arrive. -/
theorem exec_segmentLossDark_darkens (hleaf : isLeaf s le.val = true) :
    ∃ t, exec (.segmentLossDark le) s = .next t ∧ (t.eng le.val).tx.live = false ∧ (t.eng le.val).p2mp.segDark = true := by
  refine ⟨_, by rw [exec_segmentLossDark, execSegmentLossDark, if_pos hleaf], ?_, ?_⟩
  · refine txEval_live_of_segDark ?_ (by rw [eng_modP2_same])
    simpa [isLeaf, State.role, State.runState] using hleaf
  · rw [txEval_p2mp, eng_modP2_same]

/-- R220: a leaf that loses its map listens anew, with no grant held. -/
theorem exec_mapLost_listens (hleaf : isLeaf s le.val = true) (hstate : 2 ≤ leafState s le.val) :
    ∃ t, exec (.mapLost le) s = .next t ∧ leafState t le.val = 1 ∧ (t.eng le.val).p2mp.held = [] ∧
      t.sticky (lep le.val 0x22) 3 := by
  refine ⟨_, by rw [exec_mapLost, execMapLost, if_pos (by simp [hleaf, hstate])], ?_, ?_, sticky_evt _ _ _ (by omega)⟩
  · exact (g_evt_leaf _ _ _ (by simp; omega)).trans (leafGo_state (by omega) _ _)
  · rw [eng_evt, leafGo, eng_modP2_same]

/-- R220: after its second in LISTEN the identity and the offset are dropped. -/
theorem exec_leafIdExpire_forgets (hleaf : isLeaf s le.val = true) (hlisten : leafState s le.val = 1)
    (hid : s.g (F.LE_P2MP_LEAF_STAT_leaf_id le.val) ≠ 0x3FF) :
    ∃ t, exec (.leafIdExpire le) s = .next t ∧ leafState t le.val = 1 ∧ t.g (F.LE_P2MP_LEAF_STAT_leaf_id le.val) = 0x3FF ∧
      t.g (F.LE_P2MP_LEAF_RO_ro le.val) = 0 := by
  refine ⟨_, by rw [exec_leafIdExpire, execLeafIdExpire, if_pos (by simp [hleaf, hlisten, hid])], ?_, ?_, ?_⟩
  · rw [leafState, leafForget, g_setF_other _ _ (by simp; omega), g_setF_other _ _ (by simp), g_reach]
    exact hlisten
  · rw [leafForget, g_setF_other _ _ (by simp), g_setF_same]
    rfl
  · rw [leafForget, g_setF_same, Nat.zero_mod]

end MapAndBursts

/-- Settles O30, command by command: what is taken of the map by `mapTaken`, a burst by `burstOut`, the leaf's states by `leafGo`. -/
theorem leafBurstsAndTimers : Obligations.LeafBurstsAndTimers :=
  ⟨fun _ _ _ _ _ => exec_mapSegment_takes, fun _ _ _ _ => exec_burstTransmit_sends, fun _ _ _ _ => exec_discoveryBurst_sends,
    fun _ _ _ => exec_discoveryWaitExpiry_ends, fun _ _ => exec_segmentLossDark_darkens, fun _ _ => exec_mapLost_listens,
    fun _ _ => exec_leafIdExpire_forgets⟩

end Sys2Proof.Machine

/-! The hub of a point-to-multipoint engine: its map, leaf messages, leaf states and records (O31). -/

namespace Sys2Proof.Machine

/-! ## What a hub keeps of its leaves and messages (R219, R223) -/

/-- The leaf messages that wait and the bursts that Lookout follows. -/
def hubQueues (s : State) (le : Nat) : List LeafMsg × List Recv := ((s.eng le).p2mp.msgs, (s.eng le).p2mp.recv)

theorem hubQueues_of_eng {s t : State} {le : Nat} (h : t.eng le = s.eng le) : hubQueues t le = hubQueues s le := by
  rw [hubQueues, h, hubQueues]

theorem msgs_of_hubQueues {s t : State} {le : Nat} (h : hubQueues t le = hubQueues s le) :
    (t.eng le).p2mp.msgs = (s.eng le).p2mp.msgs := congrArg Prod.fst h

theorem recv_of_hubQueues {s t : State} {le : Nat} (h : hubQueues t le = hubQueues s le) :
    (t.eng le).p2mp.recv = (s.eng le).p2mp.recv := congrArg Prod.snd h

theorem modLeafHub_hubQueues (le i : Nat) (f : LeafHub → LeafHub) (s : State) :
    hubQueues (modLeafHub le i f s) le = hubQueues s le := by
  simp [hubQueues, modLeafHub]

theorem leafHub_modLeafHub (le i : Nat) (f : LeafHub → LeafHub) (s : State) :
    leafHub (modLeafHub le i f s) le i = f (leafHub s le i) := by
  simp [leafHub, modLeafHub]

theorem leafHub_of_eng {s t : State} {le : Nat} (h : t.eng le = s.eng le) (i : Nat) : leafHub t le i = leafHub s le i := by
  rw [leafHub, h, leafHub]

theorem leafStGo_hubQueues (le i v : Nat) (s : State) : hubQueues (leafStGo le i v s) le = hubQueues s le := by
  unfold leafStGo
  dsimp only
  rw [hubQueues_of_eng (eng_level _ _ _ _ _), hubQueues_of_eng (eng_setF _ _ _ _)]
  split
  · exact modLeafHub_hubQueues _ _ _ _
  · rfl

theorem roMove_hubQueues (le i : Nat) (change : Int) (done : Bool) (s : State) :
    hubQueues (roMove le i change done s) le = hubQueues s le := by
  unfold roMove
  dsimp only
  split
  · rw [hubQueues_of_eng (eng_evt _ _ _ _), leafStGo_hubQueues, hubQueues_of_eng (eng_setF _ _ _ _)]
  · exact hubQueues_of_eng (eng_setF _ _ _ _)

theorem leafQuiesce_hubQueues (le i : Nat) (s : State) : hubQueues (leafQuiesce le i s) le = hubQueues s le := by
  unfold leafQuiesce
  split
  · rw [leafStGo_hubQueues, modLeafHub_hubQueues]
  · rfl

theorem leafRelease_hubQueues (le i : Nat) (s : State) : hubQueues (leafRelease le i s) le = hubQueues s le := by
  unfold leafRelease
  split
  · rw [leafStGo_hubQueues, modLeafHub_hubQueues]
  · rfl

/-! ## Leaf messages queued (R219, R237) -/

/-- R219: the message that takes the next sequence of a hub. -/
def nextMsg (s : State) (le type leaf tag arg : Nat) : LeafMsg :=
  { type := type, leaf := leaf, tag := tag, arg := arg, seq := (s.eng le).p2mp.msgSeq }

theorem msgPut_of_full {le : Nat} {s : State} (h : 32 ≤ (s.eng le).p2mp.msgs.length) (type leaf tag arg : Nat) :
    msgPut le type leaf tag arg s = (false, s) := if_pos h

section Room

variable {le : Nat} {s : State} (h : (s.eng le).p2mp.msgs.length < 32) (type leaf tag arg : Nat)
include h

theorem msgPut_fst_of_room : (msgPut le type leaf tag arg s).1 = true := by
  rw [msgPut, if_neg (by omega)]

theorem msgPut_msgs_of_room : ((msgPut le type leaf tag arg s).2.eng le).p2mp.msgs =
    (s.eng le).p2mp.msgs ++ [nextMsg s le type leaf tag arg] := by
  rw [msgPut, if_neg (by omega), eng_setF, eng_modP2_same]
  rfl

end Room

theorem msgPut_leafHub (le type leaf tag arg i : Nat) (s : State) :
    leafHub (msgPut le type leaf tag arg s).2 le i = leafHub s le i := by
  unfold msgPut
  dsimp only
  split
  · rfl
  · rw [leafHub, eng_setF, eng_modP2_same, leafHub]

/-- R223, R237: what a queued message does to the entry of its leaf: RANGE_ADJ, QUIESCE and RELEASE move it. -/
def lmsgEntry (le type i arg : Nat) (s : State) : State :=
  if 512 ≤ i then s
  else match type with
    | 2 => roMove le i (signed 16 (arg % 65536)) (arg.testBit 31) s
    | 4 => leafQuiesce le i s
    | 5 => leafRelease le i s
    | _ => s

theorem lmsgEntry_hubQueues (le type i arg : Nat) (s : State) : hubQueues (lmsgEntry le type i arg s) le = hubQueues s le := by
  unfold lmsgEntry
  split
  · rfl
  · split
    · exact roMove_hubQueues _ _ _ _ _
    · exact leafQuiesce_hubQueues _ _ _
    · exact leafRelease_hubQueues _ _ _
    · rfl

/-- R219, R237: the argument that the message of LMSG_0 to LMSG_2 carries. -/
def lmsgArg (s : State) (le : Nat) : Nat :=
  if 4 ≤ s.g (F.LE_P2MP_LMSG_0_type le) ∧ s.g (F.LE_P2MP_LMSG_0_type le) ≤ 6 then 0 else s.g (F.LE_P2MP_LMSG_2_arg le)

/-- R219, R237: the tag that it carries. -/
def lmsgTag (s : State) (le : Nat) : Nat :=
  if s.g (F.LE_P2MP_LMSG_0_type le) = 1 then s.g (F.LE_P2MP_LMSG_1_tag le) else 0

/-- R219, R237: what LMSG_GO does with its message: it is queued and moves its leaf's entry, or shows overrun. -/
def lmsgTaken (le type i tag arg : Nat) (s : State) : State :=
  let r := msgPut le type i tag arg s
  if !r.1 then r.2.setB (F.LE_P2MP_LMSG_STAT_overrun le) true else lmsgEntry le type i arg r.2

theorem lmsgTaken_of_room {le : Nat} {s : State} (h : (s.eng le).p2mp.msgs.length < 32) (type i tag arg : Nat) :
    ((lmsgTaken le type i tag arg s).eng le).p2mp.msgs = (s.eng le).p2mp.msgs ++ [nextMsg s le type i tag arg] := by
  unfold lmsgTaken
  dsimp only
  rw [msgPut_fst_of_room h, if_neg (by simp), msgs_of_hubQueues (lmsgEntry_hubQueues _ _ _ _ _), msgPut_msgs_of_room h]

theorem lmsgTaken_of_full {le : Nat} {s : State} (h : 32 ≤ (s.eng le).p2mp.msgs.length) (type i tag arg : Nat) :
    lmsgTaken le type i tag arg s = s.setB (F.LE_P2MP_LMSG_STAT_overrun le) true := by
  unfold lmsgTaken
  rw [msgPut_of_full h]
  rfl

/-! ## The burst map (R216, R217) -/

/-- R216, R217: a map is built for its period beyond the lead, and kept as the newest. -/
theorem mapBuild_p2mp (le p : Nat) (s : State) : ∃ gs, ((mapBuild le p s).eng le).p2mp =
    { (s.eng le).p2mp with
      lastBuilt := some p,
      built := ((s.eng le).p2mp.built ++ [(p + s.cur (F.LE_P2MP_HUB_CTRL_map_lead le), gs)]).drop
        ((s.eng le).p2mp.built.length - 15) } := by
  have hoh (k prec type : Nat) (body : List Byte) (u : State) : ((ohPut le k prec type body u).eng le).p2mp = (u.eng le).p2mp := by
    rw [ohPut, eng_modGlf_same]
  unfold mapBuild
  dsimp only
  rw [forEach_view_unchanged (fun u => (u.eng le).p2mp) _ fun k _ u =>
    forEach_view_unchanged (fun u => (u.eng le).p2mp) _ (fun e _ u => hoh _ _ _ _ u) u]
  rw [eng_modP2_same, eng_bump]
  exact ⟨_, rfl⟩

/-- The newest of the maps kept is the one added last. -/
theorem getLast?_drop_append {α : Type} (l : List α) (x : α) (n : Nat) : ((l ++ [x]).drop (l.length - n)).getLast? = some x := by
  rw [List.drop_append_of_le_length (by omega), List.getLast?_concat]

/-! ## The state of a leaf at the hub (R223) -/

theorem leafSt_leafStGo {v : Nat} (hv : v < 8) (le i : Nat) (s : State) : leafSt (leafStGo le i v s) le i = v := by
  unfold leafSt leafStGo
  dsimp only
  rw [g_level_other _ _ _ _ (by simp [lep]; omega) (by simp [lep]; omega), g_setF_same]
  exact Nat.mod_eq_of_lt hv

/-- R223: while a leaf is LOST the level of BURST_LOSS is raised. -/
theorem raw_leafStGo_lost {i : Nat} (hi : i < 512) (le : Nat) (s : State) :
    ((leafStGo le i 5 s).g (F.EVT_RAW (lep le 0x20))).testBit 4 = true := by
  unfold leafStGo
  dsimp only
  rw [if_neg (by omega)]
  have hlost : ((List.range 512).any fun j =>
      leafSt (s.setF (F.LE_P2MP_LEAF_ST_state le (i / 256) (i % 256)) 5) le j == 5) = true :=
    List.any_eq_true.2 ⟨i, List.mem_range.2 hi, by simp [leafSt]⟩
  rw [hlost]
  exact raw_level_true _ _ _ (by omega)

/-- R230: the score of a leaf falls by 1. -/
def scoreDecayed (le j k : Nat) (s : State) : State :=
  s.setF (F.LE_P2MP_LEAF_ST_score le j k) (s.g (F.LE_P2MP_LEAF_ST_score le j k) - 1)

/-- R230: with its score at 0 a leaf is no longer rogue. -/
def rogueDecayed (le j k : Nat) (s : State) : State :=
  if (scoreDecayed le j k s).g (F.LE_P2MP_LEAF_ST_score le j k) = 0 then
    (scoreDecayed le j k s).setB (F.LE_P2MP_LEAF_ST_rogue le j k) false
  else scoreDecayed le j k s

theorem scoreDecayed_g (le j k : Nat) (s : State) : (scoreDecayed le j k s).g (F.LE_P2MP_LEAF_ST_score le j k) =
    (s.g (F.LE_P2MP_LEAF_ST_score le j k) - 1) % 256 := g_setF_same _ _ _

/-! ## Records (R237) -/

/-- R237: the oldest record leaves the FIFO for BREC_0 to BREC_3. -/
theorem brecPopDo_takes {le a b c d : Nat} {rest : List (Nat × Nat × Nat × Nat)} {s : State}
    (h : (s.eng le).p2mp.brec = (a, b, c, d) :: rest) : ((brecPopDo le s).eng le).p2mp.brec = rest ∧
      (brecPopDo le s).g (F.LE_P2MP_BREC_1_arrival le) = b % 2 ^ 32 ∧
      (brecPopDo le s).g (F.LE_P2MP_BREC_3_bits le) = d % 2 ^ 32 := by
  unfold brecPopDo
  rw [h]
  refine ⟨?_, ?_, g_setF_same _ _ _⟩
  · simp
  · dsimp only
    rw [g_setF_other _ _ (by simp), g_setF_other _ _ (by simp), g_setF_other _ _ (by simp; omega), g_setF_same]
    rfl

section Hub

variable {le : Fin 2} {s : State}

/-- R219, R237: a write of LMSG_GO queues the message and moves the entry of its leaf; a full queue shows overrun. -/
theorem exec_lmsgGo_eq {m : Master} (h : s.admits m (lep le.val 0x21) false) :
    exec (.lmsgGo m le) s = .next (lmsgTaken le.val (s.g (F.LE_P2MP_LMSG_0_type le.val)) (s.g (F.LE_P2MP_LMSG_0_leaf_id le.val))
      (lmsgTag s le.val) (lmsgArg s le.val) (s.access m)) := by
  rw [exec_lmsgGo, execLmsgGo, lmsgGo, h.runs (pageOf_lep le (by omega) (by omega))]
  simp only [g_access]
  rfl

theorem exec_lmsgGo_queues {m : Master} (h : s.admits m (lep le.val 0x21) false) (hroom : (s.eng le.val).p2mp.msgs.length < 32) :
    ∃ t, exec (.lmsgGo m le) s = .next t ∧ (t.eng le.val).p2mp.msgs = (s.eng le.val).p2mp.msgs ++
      [nextMsg s le.val (s.g (F.LE_P2MP_LMSG_0_type le.val)) (s.g (F.LE_P2MP_LMSG_0_leaf_id le.val)) (lmsgTag s le.val)
        (lmsgArg s le.val)] := by
  refine ⟨_, exec_lmsgGo_eq h, ?_⟩
  rw [lmsgTaken_of_room (by rwa [eng_access]), nextMsg, eng_access, nextMsg]

theorem exec_lmsgGo_overruns {m : Master} (h : s.admits m (lep le.val 0x21) false) (hfull : 32 ≤ (s.eng le.val).p2mp.msgs.length) :
    ∃ t, exec (.lmsgGo m le) s = .next t ∧ (t.eng le.val).p2mp.msgs = (s.eng le.val).p2mp.msgs ∧
      t.on (F.LE_P2MP_LMSG_STAT_overrun le.val) = true := by
  refine ⟨_, exec_lmsgGo_eq h, ?_⟩
  rw [lmsgTaken_of_full (by rwa [eng_access]), eng_setB, eng_access]
  exact ⟨rfl, on_setB _ _ _ rfl⟩

/-- R223: a timer that runs out sends ASSIGN again. -/
theorem exec_leafMsgRepeat_assigns {i : Fin 512} (hhub : isHub s le.val = true) (hassigning : leafSt s le.val i.val = 1)
    (hroom : (s.eng le.val).p2mp.msgs.length < 32) :
    ∃ t, exec (.leafMsgRepeat le i) s = .next t ∧ (leafHub t le.val i.val).sends = (leafHub s le.val i.val).sends + 1 ∧
      ((t.eng le.val).p2mp.msgs.map fun m => (m.type, m.leaf)) =
        ((s.eng le.val).p2mp.msgs.map fun m => (m.type, m.leaf)) ++ [(1, i.val)] := by
  obtain ⟨u, hu⟩ : ∃ u, u = s.reach ((leafHub s le.val i.val).sentAt +
      (if (leafHub s le.val i.val).sends ≤ 64 then 8 else 64) * 125000) := ⟨_, rfl⟩
  obtain ⟨v, hv⟩ : ∃ v, v = modLeafHub le.val i.val (fun h => { h with sends := h.sends + 1 })
      (modLeafHub le.val i.val (fun h => { h with sentAt := u.now }) u) := ⟨_, rfl⟩
  have hexec : exec (.leafMsgRepeat le i) s = .next (if (leafHub s le.val i.val).sends = 64 then
      State.evt (lep le.val 0x20) 7 (sendAssign le.val i.val v) else sendAssign le.val i.val v) := by
    rw [exec_leafMsgRepeat, execLeafMsgRepeat]
    dsimp only
    rw [if_neg (by simp [hhub]), if_pos hassigning, ← hu, ← hv]
  have hmsgs : (v.eng le.val).p2mp.msgs = (s.eng le.val).p2mp.msgs := by
    refine msgs_of_hubQueues ?_
    rw [hv, modLeafHub_hubQueues, modLeafHub_hubQueues, hu, hubQueues_of_eng (eng_reach _ _ _)]
  have hsends : (leafHub v le.val i.val).sends = (leafHub s le.val i.val).sends + 1 := by
    rw [hv, leafHub_modLeafHub, leafHub_modLeafHub, hu, leafHub_of_eng (eng_reach _ _ _)]
  have heng : (if (leafHub s le.val i.val).sends = 64 then
      State.evt (lep le.val 0x20) 7 (sendAssign le.val i.val v) else sendAssign le.val i.val v).eng le.val =
        (sendAssign le.val i.val v).eng le.val := by
    split
    · exact eng_evt _ _ _ _
    · rfl
  refine ⟨_, hexec, ?_, ?_⟩
  · rw [leafHub_of_eng heng, sendAssign, msgPut_leafHub, hsends]
  · rw [heng, sendAssign, msgPut_msgs_of_room (by rwa [hmsgs]), hmsgs, List.map_append]
    rfl

/-- R216, R217: the next map is built, for the period beyond the lead. -/
theorem exec_mapBuild_builds (hhub : isHub s le.val = true) : ∃ t, exec (.mapBuild le) s = .next t ∧
    (t.eng le.val).p2mp.lastBuilt = some (nextBuild s le.val) ∧
    ((t.eng le.val).p2mp.built.getLast?.map fun e => e.1) =
      some (nextBuild s le.val + s.cur (F.LE_P2MP_HUB_CTRL_map_lead le.val)) := by
  obtain ⟨gs, hbuilt⟩ := mapBuild_p2mp le.val (nextBuild s le.val) (s.reach (nextBuild s le.val * 125000))
  refine ⟨_, by rw [exec_mapBuild, execMapBuild]; dsimp only; rw [if_neg (by simp [hhub])], ?_⟩
  rw [ctrlBoundary_p2mp, hbuilt]
  refine ⟨rfl, ?_⟩
  rw [getLast?_drop_append, cur_of_inForce (State.reach_inForce _ _)]
  rfl

/-- R223: a leaf without a burst in four grants is LOST. -/
theorem exec_burstLossDetect_loses {i : Fin 512} (hhub : isHub s le.val = true) (hactive : leafSt s le.val i.val = 3)
    (hmissed : 4 ≤ (missedGrants s le.val i.val).length) :
    ∃ t, exec (.burstLossDetect le i) s = .next t ∧ leafSt t le.val i.val = 5 ∧
      (t.g (F.EVT_RAW (lep le.val 0x20))).testBit 4 = true := by
  refine ⟨leafStGo le.val i.val 5 (s.reach ((missedGrants s le.val i.val)[3])), ?_, leafSt_leafStGo (by omega) _ _ _,
    raw_leafStGo_lost i.isLt _ _⟩
  rw [exec_burstLossDetect, execBurstLossDetect, List.getElem?_eq_getElem (by omega)]
  simp [hhub, hactive]

/-- R230: the score of a leaf decays by 1; at 0 its flag clears. -/
theorem exec_rogueDecay_decays (i : Fin 512) : ∃ t, exec (.rogueDecay le i) s = .next t ∧
    t.g (F.LE_P2MP_LEAF_ST_score le.val (i.val / 256) (i.val % 256)) =
      (s.g (F.LE_P2MP_LEAF_ST_score le.val (i.val / 256) (i.val % 256)) - 1) % 256 ∧
    (s.g (F.LE_P2MP_LEAF_ST_score le.val (i.val / 256) (i.val % 256)) ≤ 1 →
      t.on (F.LE_P2MP_LEAF_ST_rogue le.val (i.val / 256) (i.val % 256)) = false) := by
  obtain ⟨u, hu, hexec⟩ : ∃ u : State, (∀ f, u.g f = s.g f) ∧
      exec (.rogueDecay le i) s = .next (rogueDecayed le.val (i.val / 256) (i.val % 256) u) :=
    ⟨_, fun f => by rw [modLeafHub, g_modP2, g_reach], rfl⟩
  have hscore := scoreDecayed_g le.val (i.val / 256) (i.val % 256) u
  rw [hu] at hscore
  refine ⟨_, hexec, ?_, fun hlow => ?_⟩
  · unfold rogueDecayed
    split
    · rw [g_setB_other _ _ (by simp), hscore]
    · exact hscore
  · rw [rogueDecayed, if_pos (by rw [hscore]; omega)]
    exact on_setB _ _ _ rfl

theorem exec_brecPop_takes {m : Master} {a b c d : Nat} {rest : List (Nat × Nat × Nat × Nat)}
    (h : s.admits m (lep le.val 0x21) false) (hrec : (s.eng le.val).p2mp.brec = (a, b, c, d) :: rest) :
    ∃ t, exec (.brecPop m le) s = .next t ∧ (t.eng le.val).p2mp.brec = rest ∧
      t.g (F.LE_P2MP_BREC_1_arrival le.val) = b % 2 ^ 32 ∧ t.g (F.LE_P2MP_BREC_3_bits le.val) = d % 2 ^ 32 := by
  exact ⟨_, by rw [exec_brecPop, execBrecPop, brecPop, h.runs (pageOf_lep le (by omega) (by omega))],
    brecPopDo_takes (by rw [eng_access, hrec])⟩

end Hub

/-- Settles O31, command by command: the map by `mapBuild_p2mp`, a message by `msgPut`, which no move of a leaf's entry disturbs, the
states of a leaf by `leafStGo`. -/
theorem hubCommandsRun : Obligations.HubCommandsRun :=
  ⟨fun _ _ => exec_mapBuild_builds, fun _ _ _ => exec_lmsgGo_queues, fun _ _ _ => exec_lmsgGo_overruns,
    fun _ _ _ => exec_leafMsgRepeat_assigns, fun _ _ _ => exec_burstLossDetect_loses, fun _ i _ => exec_rogueDecay_decays i,
    fun _ _ _ _ _ _ _ _ => exec_brecPop_takes⟩

end Sys2Proof.Machine

/-! Lookout: bursts followed from the preamble to their end, idle bands watched (O32). -/

namespace Sys2Proof.Machine

/-! ## What leaves the receptions (R227 to R230) -/

theorem recv_ite {c : Prop} [Decidable c] {a b : State} {le : Nat} {l : List Recv} (ha : (a.eng le).p2mp.recv = l)
    (hb : (b.eng le).p2mp.recv = l) : ((if c then a else b).eng le).p2mp.recv = l := by
  split
  · exact ha
  · exact hb

theorem p2Count_eng (le c : Nat) (s : State) : (p2Count le c s).eng le = s.eng le := eng_bump _ _ _ _

theorem setRecv_recv (le : Nat) (f : List Recv → List Recv) (s : State) :
    ((setRecv le f s).eng le).p2mp.recv = f (s.eng le).p2mp.recv := by
  rw [setRecv, eng_modP2_same]

theorem modLeafHub_recv (le i : Nat) (f : LeafHub → LeafHub) (s : State) :
    ((modLeafHub le i f s).eng le).p2mp.recv = (s.eng le).p2mp.recv := recv_of_hubQueues (modLeafHub_hubQueues le i f s)

theorem leafStGo_recv (le i v : Nat) (s : State) : ((leafStGo le i v s).eng le).p2mp.recv = (s.eng le).p2mp.recv :=
  recv_of_hubQueues (leafStGo_hubQueues le i v s)

theorem msgPut_recv (le type leaf tag arg : Nat) (s : State) :
    ((msgPut le type leaf tag arg s).2.eng le).p2mp.recv = (s.eng le).p2mp.recv := by
  unfold msgPut
  dsimp only
  split
  · rfl
  · rw [eng_setF, eng_modP2_same]

theorem sendRangeAdj_recv (le i : Nat) (change : Int) (done : Bool) (s : State) :
    ((sendRangeAdj le i change done s).eng le).p2mp.recv = (s.eng le).p2mp.recv := by
  unfold sendRangeAdj
  dsimp only
  split
  · rw [recv_of_hubQueues (roMove_hubQueues _ _ _ _ _), msgPut_recv]
  · exact msgPut_recv _ _ _ _ _ _

theorem rogueCharge_recv (le i : Nat) (s : State) : ((rogueCharge le i s).eng le).p2mp.recv = (s.eng le).p2mp.recv := by
  unfold rogueCharge
  dsimp only
  split
  · split
    · rw [msgPut_recv, recv_of_hubQueues (leafQuiesce_hubQueues _ _ _), eng_evt, eng_setB, eng_bump]
    · rw [eng_evt, eng_setB, eng_bump]
  · rw [eng_bump]

theorem attributeBurst_recv (le : Nat) (r : Recv) (hdr : Nat) (s : State) :
    ((attributeBurst le r hdr s).2.eng le).p2mp.recv = (s.eng le).p2mp.recv := by
  have hcount (n : Nat) {u : State} (hu : (u.eng le).p2mp.recv = (s.eng le).p2mp.recv) :
      ((p2Count le n u).eng le).p2mp.recv = (s.eng le).p2mp.recv := by rw [p2Count_eng, hu]
  have hungranted (c : Prop) [Decidable c] := recv_ite (c := c) (hcount 6 (u := s) rfl) rfl
  have hmisaligned (c c' : Prop) [Decidable c] [Decidable c'] := recv_ite (c := c) (hcount 7 (hungranted c')) (hungranted c')
  exact recv_ite ((rogueCharge_recv _ _ _).trans (hmisaligned _ _)) (hmisaligned _ _)

theorem rangeTrack_recv (le i ty : Nat) (eps : Int) (s : State) :
    ((rangeTrack le i ty eps s).eng le).p2mp.recv = (s.eng le).p2mp.recv := by
  unfold rangeTrack
  dsimp only
  split
  · split
    · rw [sendRangeAdj_recv, modLeafHub_recv, leafStGo_recv]
    · rw [modLeafHub_recv, leafStGo_recv]
  · split
    · split
      · rw [sendRangeAdj_recv, modLeafHub_recv]
      · rw [modLeafHub_recv]
    · rfl

theorem powerTrack_recv (le i w : Nat) (power : Int) (s : State) :
    ((powerTrack le i w power s).eng le).p2mp.recv = (s.eng le).p2mp.recv := by
  unfold powerTrack
  dsimp only
  split
  · rw [msgPut_recv, eng_setF, modLeafHub_recv]
  · rw [eng_setF, modLeafHub_recv]

theorem brecPut_recv (le : Nat) (r : Recv) (w1 w2 w3 : Nat) (allOk captured : Bool) (s : State) :
    ((brecPut le r w1 w2 w3 allOk captured s).eng le).p2mp.recv = (s.eng le).p2mp.recv := by
  unfold brecPut
  dsimp only
  split
  · rfl
  · split
    · rw [eng_evt]
    · rw [eng_setF, eng_modP2_same]

/-- R222: the words of a record draw a free value at most. -/
theorem recordWords_draws (r : Recv) (failed : Nat) (s : State) :
    (recordWords r failed s).2.2 = s ∨ (recordWords r failed s).2.2 = (s.draw 32).2 := by
  unfold recordWords
  cases hstart : r.start with
  | none => exact .inr (by dsimp only; split <;> rfl)
  | some start => exact .inl (by dsimp only; split <;> rfl)

theorem recordWords_eng (r : Recv) (failed : Nat) (s : State) (le : Nat) : (recordWords r failed s).2.2.eng le = s.eng le := by
  rcases recordWords_draws r failed s with h | h <;> rw [h]
  exact eng_draw s 32 le

theorem recordWords_g (r : Recv) (failed : Nat) (s : State) (f : Field) : (recordWords r failed s).2.2.g f = s.g f := by
  rcases recordWords_draws r failed s with h | h <;> rw [h]
  exact g_draw s 32 f

/-! ## The end of a burst (R227, R228) -/

theorem findRecv_some {s : State} {le sc w band : Nat} {live : Recv → Bool} {r : Recv}
    (h : findRecv s le sc w band live = some r) :
    r ∈ (s.eng le).p2mp.recv ∧ r.sc = sc ∧ r.w = w ∧ r.band = band := by
  have hr := List.find?_some h
  simp only [Bool.and_eq_true, beq_iff_eq] at hr
  obtain ⟨⟨⟨hsc, hw⟩, hband⟩, -⟩ := hr
  exact ⟨List.mem_of_find?_eq_some h, hsc, hw, hband⟩

theorem p2Count_g_same (le c : Nat) (s : State) :
    (p2Count le c s).g (F.LE_P2MP_CNT_count le c) = min (s.g (F.LE_P2MP_CNT_count le c) + 1) 0xFFFFFFFF := g_bump_same _ _ _

/-- R223: a CONFIRMED burst that answers the grant from `start` on is noted for its leaf, which is LOST no longer. -/
def headerTaken (le leaf start : Nat) (s : State) : State :=
  let s := if leaf < 512 then modLeafHub le leaf (fun h => { h with lastOk := max h.lastOk start }) s else s
  if leaf < 512 && leafSt s le leaf == 5 then leafStGo le leaf 3 s else s

theorem headerTaken_recv (le leaf start : Nat) (s : State) :
    ((headerTaken le leaf start s).eng le).p2mp.recv = (s.eng le).p2mp.recv := by
  have hnoted := recv_ite (c := leaf < 512) (modLeafHub_recv le leaf (fun h => { h with lastOk := max h.lastOk start }) s) rfl
  exact recv_ite ((leafStGo_recv _ _ _ _).trans hnoted) hnoted

/-- The counts of bursts received and failed (R236). -/
def burstCounts (le : Nat) : List Part := [.reg (F.LE_P2MP_CNT_count le 0).key, .reg (F.LE_P2MP_CNT_count le 1).key]

/-- R223, R224, R227, R232: what the end of a burst brings its leaf: its discovery, or the tracking of CD, power and range. -/
def burstTrack (le w : Nat) (power cd : Int) (r : Recv) (s : State) : State :=
  let leaf := r.hdr / 2 ^ 54
  let ty := r.hdr / 2 ^ 50 % 16
  if ty = 2 then State.evt (lep le 0x20) 1 (p2Count le 10 s)
  else
    let fcd := F.LE_P2MP_LEAF_CD_cd le (leaf / 256) (leaf % 256)
    let old := signed 21 (s.g fcd)
    let s := powerTrack le leaf w power (s.setF fcd (unsigned 21 (old + clampI (-200) 200 (cd - old))))
    match r.start with
    | some st => rangeTrack le leaf ty ((r.arrival : Int) - st) s
    | none => s

theorem burstTrack_recv (le w : Nat) (power cd : Int) (r : Recv) (s : State) :
    ((burstTrack le w power cd r s).eng le).p2mp.recv = (s.eng le).p2mp.recv := by
  unfold burstTrack
  dsimp only
  split
  · rw [eng_evt, p2Count_eng]
  · split
    · rw [rangeTrack_recv, powerTrack_recv, eng_setF]
    · rw [powerTrack_recv, eng_setF]

/-- What a hub touches for a burst apart from its counts. -/
structure Touches.burstAsides (N : Part → Prop) (le i : Nat) : Prop where
  c_evt : Touches.evt N (lep le 0x20)
  c_p2Count : Touches.p2Count N le 10
  k_cd : N (.reg (F.LE_P2MP_LEAF_CD_cd le (i / 256) (i % 256)).key)
  c_powerTrack : Touches.powerTrack N le i
  c_rangeTrack : Touches.rangeTrack N le i
  c_brecPut : Touches.brecPut N le

theorem burstAsides_sparing (le i : Nat) : Touches.burstAsides (Sparing (burstCounts le)) le i := by
  repeat' first | constructor | (simp [Sparing, burstCounts, lep] <;> omega)

theorem burstTrack_fits (le w : Nat) (power cd : Int) (r : Recv) (s : State) :
    Fits (Sparing (burstCounts le)) s (burstTrack le w power cd r s) := by
  have tch := burstAsides_sparing le (r.hdr / 2 ^ 54)
  have hs := Fits.refl (Sparing (burstCounts le)) s
  refine .ite (fun _ => .evt _ _ _ (.p2Count _ _ _ hs tch.c_p2Count) tch.c_evt) fun _ => ?_
  have hpower (v : Nat) := Fits.powerTrack le _ w power _ (.setF _ _ v hs tch.k_cd) tch.c_powerTrack
  split
  · exact .rangeTrack _ _ _ _ _ (hpower _) tch.c_rangeTrack
  · exact hpower _

section Lookout

variable {le : Fin 2} {sc : Fin 32} {w : Fin 3} {band : Fin 4} {s : State}

/-- R226, R227: the best detector's preamble in a free band starts a reception. -/
theorem exec_preambleDetect_starts {bands : List (Fin 3 × Fin 4)} {found : List (BitVec 9 × BitVec 16)} {rho : BitVec 8}
    {arrival : BitVec 64} (hfired : firedOk bands found = true)
    (hbest : bestDetector (s.cur (F.LE_P2MP_LOOKOUT_det_thr le.val)) (bands.zip found) = some (w, band))
    (hhub : isHub s le.val = true) (hmode : upMode s.inForce le.val sc.val = 1)
    (hfree : ∀ r ∈ (s.eng le.val).p2mp.recv, r.mode ≤ 1 → r.sc = sc.val → bandsOverlap w.val band.val r.w r.band = false) :
    ∃ t, exec (.preambleDetect le sc bands found rho arrival) s = .next t ∧
      (t.eng le.val).p2mp.recv = (s.eng le.val).p2mp.recv ++
        [{ sc := sc.val, w := w.val, band := band.val, rho := rho.toNat, arrival := arrival.toNat, mode := 0,
           cd := burstCd s le.val sc.val w.val band.val arrival.toNat }] := by
  have hnone : ((s.eng le.val).p2mp.recv.filter fun r =>
      r.mode ≤ 1 && r.sc == sc.val && bandsOverlap w.val band.val r.w r.band) = [] := by
    refine List.filter_eq_nil_iff.2 fun r hr => ?_
    simp only [Bool.and_eq_true, decide_eq_true_eq, beq_iff_eq]
    rintro ⟨⟨hlive, hsc⟩, hover⟩
    simp [hfree r hr hlive hsc] at hover
  refine ⟨setRecv le.val (fun l => l ++ [_]) s, ?_, setRecv_recv _ _ _⟩
  rw [exec_preambleDetect, execPreambleDetect, if_neg (by simp [hfired])]
  dsimp only
  rw [if_neg (by simp [hhub, hmode]), hbest]
  dsimp only
  rw [hnone]
  simp [State.forEach]

/-- R227: a valid header continues the reception as a burst of the leaf it names. -/
theorem exec_burstHeaderDecode_continues {hdr : BitVec 64} {r : Recv} (hband : bandOk w band = true)
    (hfind : findRecv s le.val sc.val w.val band.val (fun r => r.mode != 1) = some r) (hmode : r.mode = 0)
    (hvalid : hdrValid s le.val hdr.toNat = true) :
    ∃ t, exec (.burstHeaderDecode le sc w band hdr) s = .next t ∧ ∃ x ∈ (t.eng le.val).p2mp.recv,
      x.mode = 1 ∧ x.hdr = hdr.toNat ∧ x.sc = sc.val ∧ x.w = w.val ∧ x.band = band.val := by
  obtain ⟨hmem, hsc, hw, hb⟩ := findRecv_some hfind
  obtain ⟨v, hv⟩ : ∃ v, v = setRecv le.val (fun l => l.map fun x =>
      if x == r then { (attributeBurst le.val r hdr.toNat s).1 with mode := 1 } else x) (attributeBurst le.val r hdr.toNat s).2 :=
    ⟨_, rfl⟩
  refine ⟨headerTaken le.val (hdr.toNat / 2 ^ 54) ((attributeBurst le.val r hdr.toNat s).1.start.getD 0) v, ?_,
    { (attributeBurst le.val r hdr.toNat s).1 with mode := 1 }, ?_, rfl, rfl, hsc, hw, hb⟩
  · rw [exec_burstHeaderDecode, execBurstHeaderDecode, if_neg (by simp [hband])]
    dsimp only
    rw [hfind]
    dsimp only
    rw [if_pos hvalid, if_pos hmode, hv]
    rfl
  · rw [headerTaken_recv, hv, setRecv_recv, attributeBurst_recv]
    exact List.mem_map.2 ⟨r, hmem, if_pos (beq_self_eq_true r)⟩

/-- R227: without a valid header the reception ends, counted. -/
theorem exec_burstHeaderDecode_ends {hdr : BitVec 64} {r : Recv} (hband : bandOk w band = true)
    (hfind : findRecv s le.val sc.val w.val band.val (fun r => r.mode != 1) = some r) (hmode : r.mode = 0)
    (hinvalid : hdrValid s le.val hdr.toNat = false) :
    ∃ t, exec (.burstHeaderDecode le sc w band hdr) s = .next t ∧ (t.eng le.val).p2mp.recv = (s.eng le.val).p2mp.recv.erase r ∧
      t.g (F.LE_P2MP_CNT_count le.val 4) = min (s.g (F.LE_P2MP_CNT_count le.val 4) + 1) 0xFFFFFFFF := by
  refine ⟨p2Count le.val 4 (setRecv le.val (fun l => l.erase r) s), ?_, ?_, ?_⟩
  · rw [exec_burstHeaderDecode, execBurstHeaderDecode, if_neg (by simp [hband])]
    dsimp only
    rw [hfind]
    dsimp only
    rw [if_neg (by simp [hinvalid]), if_neg (by omega)]
  · rw [p2Count_eng, setRecv_recv]
  · rw [p2Count_g_same, setRecv, g_modP2]

/-- R227, R228: the end of a burst ends its reception, and counts it received or failed. -/
theorem exec_burstRxDone_counts {evm : BitVec 16} {power : Int} {failed : Nat} {cd : Int} {r : Recv} (hband : bandOk w band = true)
    (hfind : findRecv s le.val sc.val w.val band.val (fun r => r.mode == 1) = some r) :
    ∃ t, exec (.burstRxDone le sc w band evm power failed cd) s = .next t ∧
      (t.eng le.val).p2mp.recv = (s.eng le.val).p2mp.recv.erase r ∧
      (failed = 0 → t.g (F.LE_P2MP_CNT_count le.val 0) = min (s.g (F.LE_P2MP_CNT_count le.val 0) + 1) 0xFFFFFFFF) ∧
      (failed ≠ 0 → t.g (F.LE_P2MP_CNT_count le.val 1) = min (s.g (F.LE_P2MP_CNT_count le.val 1) + 1) 0xFFFFFFFF) := by
  obtain ⟨u, hu⟩ : ∃ u, u = setRecv le.val (fun l => l.erase r) s := ⟨_, rfl⟩
  obtain ⟨v, hv⟩ : ∃ v, v = brecPut le.val r (recordWords r failed u).1 (evm.toNat * 65536 + unsigned 16 power)
      (recordWords r failed u).2.1 (failed == 0) false (recordWords r failed u).2.2 := ⟨_, rfl⟩
  have hrecv : (v.eng le.val).p2mp.recv = (s.eng le.val).p2mp.recv.erase r := by
    rw [hv, brecPut_recv, recordWords_eng, hu, setRecv_recv]
  have hcount {f : Field} (hf : Part.reg f.key ∈ burstCounts le.val) : v.g f = s.g f := by
    rw [hv, (Fits.brecPut _ _ _ _ _ _ _ _ (.refl _ _) (burstAsides_sparing le.val 0).c_brecPut).g_spared hf, recordWords_g, hu,
      setRecv, g_modP2]
  have hexec : exec (.burstRxDone le sc w band evm power failed cd) s = .next (burstTrack le.val w.val power cd r
      (State.datapath (p2Count le.val (if failed = 0 then 0 else 1) v) (1068 + 48 * le.val) 1)) := by
    rw [exec_burstRxDone, execBurstRxDone, if_neg (by simp [hband])]
    dsimp only
    rw [hfind, hv, hu]
    exact (apply_ite Host.Outcome.next (r.hdr / 2 ^ 50 % 16 = 2) _ _).symm
  refine ⟨_, hexec, ?_, fun hok => ?_, fun hbad => ?_⟩
  · rw [burstTrack_recv, eng_datapath, p2Count_eng, hrecv]
  · rw [(burstTrack_fits _ _ _ _ _ _).g_spared (by simp [burstCounts]), g_datapath, if_pos hok, p2Count_g_same,
      hcount (by simp [burstCounts])]
  · rw [(burstTrack_fits _ _ _ _ _ _).g_spared (by simp [burstCounts]), g_datapath, if_neg hbad, p2Count_g_same,
      hcount (by simp [burstCounts])]

/-! ## Idle bands (R231) -/

/-- R231: after a measurement that is the `n`th in a row over the threshold; the eighth is reported. -/
def idleCounted (le sc w band n : Nat) (s : State) : State :=
  let s := s.modP2 le fun p => { p with idle := Tbl.set 0 p.idle (sc * 16 + w * 4 + band) n }
  if n = 8 then
    State.evt (lep le 0x20) 5 (((s.setF (F.LE_P2MP_IDLE_BAND_sc le) sc).setF (F.LE_P2MP_IDLE_BAND_width le) w).setF
      (F.LE_P2MP_IDLE_BAND_band le) band)
  else s

theorem exec_idleMeasure_counts {power : Int} (hband : bandOk w band = true) (hhub : isHub s le.val = true) :
    exec (.idleMeasure le sc w band power) s = .next (idleCounted le.val sc.val w.val band.val
      (if -(5 * (s.cur (F.LE_P2MP_LEVEL_idle_thr le.val) : Int)) < powerDev s le.val w.val power then
        min 9 (Tbl.get 0 (s.eng le.val).p2mp.idle (sc.val * 16 + w.val * 4 + band.val) + 1) else 0) s) := by
  rw [exec_idleMeasure, execIdleMeasure, if_neg (by simp [hband])]
  dsimp only
  rw [if_neg (by simp [hhub])]
  simp only [decide_eq_true_eq]
  exact (apply_ite Host.Outcome.next _ _ _).symm

/-- R231: the eighth measurement over the threshold reports the band. -/
theorem exec_idleMeasure_reports {power : Int} (hband : bandOk w band = true) (hhub : isHub s le.val = true)
    (hover : -(5 * (s.cur (F.LE_P2MP_LEVEL_idle_thr le.val) : Int)) < powerDev s le.val w.val power)
    (hseven : Tbl.get 0 (s.eng le.val).p2mp.idle (sc.val * 16 + w.val * 4 + band.val) = 7) :
    ∃ t, exec (.idleMeasure le sc w band power) s = .next t ∧ t.g (F.LE_P2MP_IDLE_BAND_sc le.val) = sc.val ∧
      t.g (F.LE_P2MP_IDLE_BAND_width le.val) = w.val ∧ t.g (F.LE_P2MP_IDLE_BAND_band le.val) = band.val ∧
      t.sticky (lep le.val 0x20) 5 := by
  refine ⟨_, exec_idleMeasure_counts hband hhub, ?_⟩
  rw [if_pos hover, hseven, idleCounted, if_pos (by decide)]
  refine ⟨?_, ?_, ?_, sticky_evt _ _ _ (by omega)⟩
  · rw [g_evt_other _ _ _ (by simp [lep]; omega), g_setF_other _ _ (by simp), g_setF_other _ _ (by simp), g_setF_same]
    exact Nat.mod_eq_of_lt sc.isLt
  · rw [g_evt_other _ _ _ (by simp [lep]; omega), g_setF_other _ _ (by simp), g_setF_same]
    exact Nat.mod_eq_of_lt (w.isLt.trans (by simp))
  · rw [g_evt_other _ _ _ (by simp [lep]; omega), g_setF_same]
    exact Nat.mod_eq_of_lt band.isLt

/-- R231: a measurement at the threshold or under it restarts the count of its band. -/
theorem exec_idleMeasure_restarts {power : Int} (hband : bandOk w band = true) (hhub : isHub s le.val = true)
    (hunder : powerDev s le.val w.val power ≤ -(5 * (s.cur (F.LE_P2MP_LEVEL_idle_thr le.val) : Int))) :
    ∃ t, exec (.idleMeasure le sc w band power) s = .next t ∧
      Tbl.get 0 (t.eng le.val).p2mp.idle (sc.val * 16 + w.val * 4 + band.val) = 0 := by
  refine ⟨_, exec_idleMeasure_counts hband hhub, ?_⟩
  rw [if_neg (by omega), idleCounted, if_neg (by decide), eng_modP2_same]
  dsimp only
  rw [Tbl.get_set_same]

end Lookout

/-- Settles O32, command by command: each changes the receptions once, and what follows of records, leaves and counts keeps them. -/
theorem lookoutFollowsBursts : Obligations.LookoutFollowsBursts :=
  ⟨fun _ _ _ _ _ _ _ _ _ => exec_preambleDetect_starts, fun _ _ _ _ _ _ _ => exec_burstHeaderDecode_continues,
    fun _ _ _ _ _ _ _ => exec_burstHeaderDecode_ends, fun _ _ _ _ _ _ _ _ _ _ => exec_burstRxDone_counts,
    fun _ _ _ _ _ _ => exec_idleMeasure_reports, fun _ _ _ _ _ _ => exec_idleMeasure_restarts⟩

end Sys2Proof.Machine

/-! Code words: alignment, delivery, the swap of a tile, the encoder (O33). -/

namespace Sys2Proof.Machine

/-! ## The alignment of a stream (R249) -/

theorem Fits.fec_spared {ps : List Part} {s t : State} {le : Nat} (h : Fits (Sparing ps) s t)
    (hp : Part.fec (le != 0) ∈ ps) : (t.eng le).fec = (s.eng le).fec := by
  rw [← engOf_ne_zero, ← engOf_ne_zero]
  exact h.within (.fec (le != 0)) (not_not_intro hp)

theorem syncOf_of_eng {s t : State} {le : Nat} (h : t.eng le = s.eng le) (k : Nat) : t.syncOf le k = s.syncOf le k := by
  rw [State.syncOf, h, State.syncOf]

/-- R270, R271: a stream that falls out of frame keeps the decoder's storage. -/
theorem glfOof_fec (le k : Nat) (s : State) : ((glfOof le k s).eng le).fec = (s.eng le).fec := by
  have tch : Touches.glfOof (Sparing [.fec (le != 0)]) le := by
    repeat' first | constructor | simp [Sparing]
  exact (Fits.glfOof le k s (.refl _ s) tch).fec_spared (by simp)

/-- R249: of the decoder's storage, the state of the stream is set and its counts restart. -/
theorem setSync_fec (le k v : Nat) (s : State) : ((setSync le k v s).eng le).fec =
    { (s.eng le).fec with
      sync := Tbl.set 0 (s.eng le).fec.sync k v, good := Tbl.set 0 (s.eng le).fec.good k 0,
      bad := Tbl.set 0 (s.eng le).fec.bad k 0, qSync := (s.eng le).fec.qSync || v == 2 } := by
  have hoof (c : Prop) [Decidable c] : ((if c then glfOof le k s else s).eng le).fec = (s.eng le).fec := by
    split
    · exact glfOof_fec le k s
    · rfl
  unfold setSync
  dsimp only
  split <;> simp only [eng_setF, eng_modFec_same, hoof]

@[simp] theorem setSync_syncOf (le k v : Nat) (s : State) : (setSync le k v s).syncOf le k = v := by
  rw [State.syncOf, setSync_fec]
  exact Tbl.get_set_same 0 _ k v

@[simp] theorem setSync_seq (le k v : Nat) (s : State) : ((setSync le k v s).eng le).fec.seq = (s.eng le).fec.seq := by
  rw [setSync_fec]

/-- R249: a candidate ends the hunt: it is verified, or in an interoperable mode taken. -/
theorem exec_cwCandidateFound_takes {le : Fin 2} {k : Fin 32} {s : State} (hhunt : s.syncOf le.val k.val = 0)
    (hmay : canHunt s le.val k.val = true) : ∃ t, exec (.cwCandidateFound le k) s = .next t ∧
      t.syncOf le.val k.val = if s.native le.val then 1 else 2 :=
  ⟨_, by rw [exec_cwCandidateFound, execCwCandidateFound, if_pos (by simp [hhunt, hmay])], setSync_syncOf _ _ _ _⟩

/-- R249: what a word of stream `k` brings its alignment. -/
def wordAligned (le k : Nat) (failed : Bool) (s : State) : State :=
  if s.syncOf le k = 1 then
    if failed then setSync le k 0 s
    else if Tbl.get 0 (s.eng le).fec.good k = 1 then setSync le k 2 s
    else s.modFec le fun f => { f with good := Tbl.set 0 f.good k 1 }
  else if failed then
    if Tbl.get 0 (s.eng le).fec.bad k = 7 then State.evt (lep le 0x30) 0 (setSync le k 0 s)
    else s.modFec le fun f => { f with bad := Tbl.set 0 f.bad k (Tbl.get 0 f.bad k + 1) }
  else s.modFec le fun f => { f with bad := Tbl.set 0 f.bad k 0 }

section Aligned

variable {le k : Nat} {failed : Bool} {s : State}

/-- R249: in PRESYNC the second good word reaches SYNC, and a failed one drops the candidate. -/
theorem wordAligned_syncOf_presync (h : s.syncOf le k = 1) : (wordAligned le k failed s).syncOf le k =
    if failed then 0 else if Tbl.get 0 (s.eng le).fec.good k = 1 then 2 else 1 := by
  rw [wordAligned, if_pos h]
  split
  · exact setSync_syncOf _ _ _ _
  · split
    · exact setSync_syncOf _ _ _ _
    · rw [State.syncOf, eng_modFec_same]
      exact h

/-- R249: in SYNC the eighth failed word in a row ends it. -/
theorem wordAligned_syncOf_sync (h : s.syncOf le k = 2) : (wordAligned le k failed s).syncOf le k =
    if failed = true ∧ Tbl.get 0 (s.eng le).fec.bad k = 7 then 0 else 2 := by
  have hkeep (f : Fec → Fec) (hf : ∀ x, (f x).sync = x.sync) : (s.modFec le f).syncOf le k = 2 := by
    rw [State.syncOf, eng_modFec_same, hf]
    exact h
  rw [wordAligned, if_neg (by omega)]
  split
  next hfail =>
    split
    next hbad => rw [if_pos ⟨hfail, hbad⟩, syncOf_of_eng (eng_evt _ _ _ _), setSync_syncOf]
    next hbad =>
      rw [if_neg fun hall => hbad hall.2]
      exact hkeep _ fun _ => rfl
  next hok =>
    rw [if_neg fun hall => hok hall.1]
    exact hkeep _ fun _ => rfl

/-- R250: the alignment takes no sequence number. -/
theorem wordAligned_seq : ((wordAligned le k failed s).eng le).fec.seq = (s.eng le).fec.seq := by
  unfold wordAligned
  split
  · split
    · exact setSync_seq _ _ _ _
    · split
      · exact setSync_seq _ _ _ _
      · rw [eng_modFec_same]
  · split
    · split
      · rw [eng_evt, setSync_seq]
      · rw [eng_modFec_same]
    · rw [eng_modFec_same]

/-- R54: the alignment clears no sticky event. -/
theorem wordAligned_keeps : HuntKeeps le s (wordAligned le k failed s) :=
  have h := HuntKeeps.refl le s
  .ite (.ite (h.setSync k 0) (.ite (h.setSync k 2) (h.modFec _)))
    (.ite (.ite ((h.setSync k 0).evt _ _) (h.modFec _)) (h.modFec _))

end Aligned

/-! ## The tiles that stay in the rotation (R250) -/

/-- The tile map, the state of tile `i` and the line mode. -/
def tileParts (le i : Nat) : List Part :=
  [.reg (F.LE_FEC_TILE_MAP_map le).key, .reg (F.LE_FEC_TILE_STAT_state le i).key, .reg (F.LE_ROLE_STAT_line_mode_active le).key]

theorem liveTiles_spared {le : Nat} {s t : State} (h : ∀ i < 26, Fits (Sparing (tileParts le i)) s t) :
    liveTiles t le = liveTiles s le := by
  refine List.filter_congr fun i hi => ?_
  have hfits := h i (List.mem_range.1 hi)
  rw [hfits.g_spared (by simp [tileParts]), hfits.g_spared (by simp [tileParts])]

theorem nextTile_of_live {tiles : List Nat} (h : tiles ≠ []) (last : Nat) : ∃ t, nextTile tiles last = some t := by
  unfold nextTile
  split
  next t _ => exact ⟨t, rfl⟩
  · exact ⟨_, List.head?_eq_some_head h⟩

/-- What the delivery of a word touches beside the decoder's storage. -/
structure Touches.wordAsides (N : Part → Prop) (le : Nat) : Prop where
  h_ev : N .ev
  h_fec : N (.fec (le != 0))
  c_evt : Touches.evt N (lep le 0x30)
  c_setSync : Touches.setSync N le
  c_fecCount : ∀ c < 6, Touches.fecCount N le c

theorem wordAsides_sparing (le : Nat) {i : Nat} (hi : i < 26) : Touches.wordAsides (Sparing (tileParts le i)) le := by
  repeat' first | constructor | (intro _ _) | (simp [Sparing, tileParts, lep] <;> omega)

theorem wordAligned_fits (le k : Nat) (failed : Bool) (s : State) {i : Nat} (hi : i < 26) :
    Fits (Sparing (tileParts le i)) s (wordAligned le k failed s) := by
  have tch := wordAsides_sparing le hi
  have hsync (v : Nat) := Fits.setSync le k v s (.refl _ s) tch.c_setSync
  have hfec (f : Fec → Fec) := Fits.modFec s le f (.refl (Sparing (tileParts le i)) s) tch.h_fec
  exact .ite (fun _ => .ite (fun _ => hsync 0) fun _ => .ite (fun _ => hsync 2) fun _ => hfec _)
    fun _ => .ite (fun _ => .ite (fun _ => .evt _ _ _ (hsync 0) tch.c_evt) fun _ => hfec _) fun _ => hfec _

/-! ## The delivery of a word (R247, R248, R260) -/

/-- R248, R260: a failed word is counted, logged and raises its event. -/
def wordFailed (le : Nat) (s : State) : State :=
  State.evt (lep le 0x30) 3 ((fecCount le 1 1 s).logFold (lep le 0x31) ((0x048 / 4) % 256) 2 1 0)

/-- R260: a word is counted, with its corrected bits and its iterations. -/
def wordCounted (le t iters : Nat) (burst failed : Bool) (d : Decoded) (s : State) : State :=
  let s := fecCount le 0 1 s
  let s := if failed then wordFailed le s else s
  let s := if d.outer ≠ 0 ∧ !burst then fecCount le 2 1 s else s
  let s := fecCount le 3 d.inner (fecCount le 4 d.outer (fecCount le 5 iters s))
  let s := State.datapath (State.datapath s (960 + 52 * le + 2 * t) 1) (961 + 52 * le + 2 * t) iters
  State.datapath s (1067 + 48 * le) 1

/-- R247, R255: a word fails where checks and the outer code fail; a burst word, which has no outer code, where checks fail. -/
def wordFails (burst : Bool) (d : Decoded) : Bool := if burst then d.unsatisfied else d.unsatisfied && d.outerBad

/-- R240, R255: the coded bits of a word. -/
def wordBits (s : State) (le : Nat) (burst : Bool) : Nat := if burst then 4096 else blockLength s.inForce le

/-- R247, R253: the iterations that a word takes. -/
def wordIterations (s : State) (le : Nat) (d : Decoded) : Nat :=
  if s.curOn (F.LE_FEC_CTRL_early_stop le) && !d.unsatisfied then min d.iterations (iterCap s le) else iterCap s le

/-- R247, R250, R258: tile `t` delivers a word under the next sequence number, and it is counted. -/
def wordDelivered (le k t : Nat) (burst : Bool) (d : Decoded) (s : State) : State :=
  wordCounted le t (wordIterations s le d) burst (wordFails burst d) d (s.modFec le fun f => { f with
    lastTile := t, seq := f.seq + 1,
    qCorr := if wordFails burst d then f.qCorr else f.qCorr + d.inner + d.outer,
    qBits := if wordFails burst d then f.qBits else f.qBits + wordBits s le burst,
    qFail := if wordFails burst d then f.qFail + 1 else f.qFail,
    qSync := f.qSync || (!burst && Tbl.get 0 f.sync k == 2) })

section Delivered

variable (le k t n iters : Nat) (burst failed : Bool) (d : Decoded) (s : State)

theorem fecCount_eng (c : Nat) : (fecCount le c n s).eng le = s.eng le := by
  rw [fecCount, State.bump64, eng_setF, eng_setF]

theorem fecCount_sticky {c p b : Nat} (hc : c < 6) (h : s.sticky p b) : (fecCount le c n s).sticky p b :=
  sticky_setF _ (by simp; omega) (sticky_setF _ (by simp; omega) h)

theorem wordFailed_eng : (wordFailed le s).eng le = s.eng le := by
  have hlog (u : State) (p code : Nat) : (u.logFold p code 2 1 0).eng le = u.eng le := by simp [State.eng]
  rw [wordFailed, eng_evt, hlog, fecCount_eng]

theorem wordCounted_eng : (wordCounted le t iters burst failed d s).eng le = s.eng le := by
  have hif (c : Prop) [Decidable c] {u v : State} (h : v.eng le = u.eng le) : (if c then v else u).eng le = u.eng le := by
    split
    · exact h
    · rfl
  unfold wordCounted
  dsimp only
  rw [eng_datapath, eng_datapath, eng_datapath, fecCount_eng, fecCount_eng, fecCount_eng, hif _ (fecCount_eng _ _ _ _),
    hif _ (wordFailed_eng _ _), fecCount_eng]

/-- R248: a failed word raises its event. -/
theorem wordCounted_sticky (hfail : failed = true) : (wordCounted le t iters burst failed d s).sticky (lep le 0x30) 3 := by
  have hfailed (u : State) : (wordFailed le u).sticky (lep le 0x30) 3 := sticky_evt _ _ _ (by omega)
  have hpath {u : State} (m inc : Nat) (h : u.sticky (lep le 0x30) 3) : (u.datapath m inc).sticky (lep le 0x30) 3 :=
    sticky_of_g h (g_datapath _ _ _ _)
  unfold wordCounted
  dsimp only
  rw [if_pos hfail]
  refine hpath _ _ (hpath _ _ (hpath _ _ (fecCount_sticky _ _ _ (by omega) (fecCount_sticky _ _ _ (by omega)
    (fecCount_sticky _ _ _ (by omega) ?_)))))
  split
  · exact fecCount_sticky _ _ _ (by omega) (hfailed _)
  · exact hfailed _

theorem wordCounted_fits {i : Nat} (hi : i < 26) : Fits (Sparing (tileParts le i)) s (wordCounted le t iters burst failed d s) := by
  have tch := wordAsides_sparing le hi
  have hcount {c : Nat} (hc : c < 6) (m : Nat) {u : State} (h : Fits (Sparing (tileParts le i)) s u) :
      Fits (Sparing (tileParts le i)) s (fecCount le c m u) := .fecCount _ _ _ _ h (tch.c_fecCount c hc)
  have hpath (m inc : Nat) {u : State} (h : Fits (Sparing (tileParts le i)) s u) :
      Fits (Sparing (tileParts le i)) s (u.datapath m inc) := .datapath _ _ _ h tch.h_ev
  have hfirst := hcount (by omega : 0 < 6) 1 (.refl _ s)
  have hfailed : Fits (Sparing (tileParts le i)) s (if failed then wordFailed le (fecCount le 0 1 s) else fecCount le 0 1 s) :=
    .ite (fun _ => .evt _ _ _ (.logFold _ _ _ _ _ _ (hcount (by omega) 1 hfirst) tch.h_ev) tch.c_evt) fun _ => hfirst
  exact hpath _ _ (hpath _ _ (hpath _ _ (hcount (by omega) _ (hcount (by omega) _ (hcount (by omega) _
    (.ite (fun _ => hcount (by omega) 1 hfailed) fun _ => hfailed))))))

theorem wordDelivered_seq : ((wordDelivered le k t burst d s).eng le).fec.seq = (s.eng le).fec.seq + 1 := by
  rw [wordDelivered, wordCounted_eng, eng_modFec_same]

theorem wordDelivered_good : ((wordDelivered le k t burst d s).eng le).fec.good = (s.eng le).fec.good := by
  rw [wordDelivered, wordCounted_eng, eng_modFec_same]

theorem wordDelivered_bad : ((wordDelivered le k t burst d s).eng le).fec.bad = (s.eng le).fec.bad := by
  rw [wordDelivered, wordCounted_eng, eng_modFec_same]

theorem wordDelivered_syncOf : (wordDelivered le k t burst d s).syncOf le k = s.syncOf le k := by
  rw [State.syncOf, wordDelivered, wordCounted_eng, eng_modFec_same, State.syncOf]

theorem wordDelivered_fits {i : Nat} (hi : i < 26) :
    Fits (Sparing (tileParts le i)) s (wordDelivered le k t burst d s) :=
  (Fits.modFec s le _ (.refl _ s) (wordAsides_sparing le hi).h_fec).trans (wordCounted_fits _ _ _ _ _ _ _ hi)

/-- R263: the delivery of a word leaves the line mode. -/
theorem wordDelivered_native : (wordDelivered le k t burst d s).native le = s.native le := by
  rw [State.native, (wordDelivered_fits le k t burst d s (by omega : 0 < 26)).g_spared (by simp [tileParts]), State.native]

end Delivered

/-! ## The commands of the decoder (R247 to R249, R252) -/

section Decoder

variable {le : Fin 2} {k : Fin 32} {d : Decoded} {s : State}

/-- R247, R250: a word that no shadow check compares is delivered by the next tile; that of a stream in the native mode moves the
alignment. -/
theorem fecWord_of_tile {le k t : Nat} {burst : Bool} (ht : nextTile (liveTiles s le) (s.eng le).fec.lastTile = some t)
    (hshadow : d.shadow = none) : fecWord le k burst d s =
      if burst || !(wordDelivered le k t burst d s).native le then wordDelivered le k t burst d s
      else wordAligned le k (wordFails burst d) (wordDelivered le k t burst d s) := by
  unfold fecWord
  rw [ht, hshadow]
  rfl

theorem fecWord_of_stream {le k : Nat} (htiles : liveTiles s le ≠ []) (hshadow : d.shadow = none) :
    ∃ t, fecWord le k false d s = if s.native le then
        wordAligned le k (d.unsatisfied && d.outerBad) (wordDelivered le k t false d s)
      else wordDelivered le k t false d s := by
  obtain ⟨t, ht⟩ := nextTile_of_live htiles (s.eng le).fec.lastTile
  refine ⟨t, ?_⟩
  rw [fecWord_of_tile ht hshadow, wordDelivered_native]
  cases s.native le <;> rfl

/-- R247, R253: with 12 live tiles and more the engine goes on after a word. -/
theorem exec_fecBlockDecode_delivers (hrun : s.runState le.val = 2) (hsync : s.syncOf le.val k.val ≠ 0)
    (htiles : 12 ≤ (liveTiles s le.val).length) (hshadow : d.shadow = none) :
    ∃ t, exec (.fecBlockDecode le k false d) s = .next (if s.native le.val then
        wordAligned le.val k.val (d.unsatisfied && d.outerBad) (wordDelivered le.val k.val t false d s)
      else wordDelivered le.val k.val t false d s) := by
  have hsome : liveTiles s le.val ≠ [] := List.ne_nil_of_length_pos (by omega)
  obtain ⟨t, hword⟩ := fecWord_of_stream (k := k.val) hsome hshadow
  have hlive : liveTiles (fecWord le.val k.val false d s) le.val = liveTiles s le.val := by
    refine liveTiles_spared fun i hi => ?_
    have hdelivered := wordDelivered_fits le.val k.val t false d s hi
    rw [hword]
    exact .ite (fun _ => hdelivered.trans (wordAligned_fits _ _ _ _ hi)) fun _ => hdelivered
  refine ⟨t, ?_⟩
  rw [exec_fecBlockDecode, execFecBlockDecode, if_pos ⟨hrun, .inr hsync⟩]
  dsimp only
  rw [if_neg (by rw [hlive]; omega), hword]

/-- R249: a word in PRESYNC. -/
theorem exec_fecBlockDecode_presync (hnative : s.native le.val = true) (hrun : s.runState le.val = 2)
    (hsync : s.syncOf le.val k.val = 1) (htiles : 12 ≤ (liveTiles s le.val).length) (hshadow : d.shadow = none) :
    ∃ t, exec (.fecBlockDecode le k false d) s = .next t ∧ (t.eng le.val).fec.seq = (s.eng le.val).fec.seq + 1 ∧
      t.syncOf le.val k.val = (if d.unsatisfied && d.outerBad then 0
        else if Tbl.get 0 (s.eng le.val).fec.good k.val = 1 then 2 else 1) := by
  obtain ⟨t, hexec⟩ := exec_fecBlockDecode_delivers (k := k) hrun (by rw [hsync]; decide) htiles hshadow
  rw [if_pos hnative] at hexec
  refine ⟨_, hexec, by rw [wordAligned_seq, wordDelivered_seq], ?_⟩
  rw [wordAligned_syncOf_presync (by rw [wordDelivered_syncOf, hsync]), wordDelivered_good]

/-- R248, R249: a word in SYNC. -/
theorem exec_fecBlockDecode_sync (hnative : s.native le.val = true) (hrun : s.runState le.val = 2)
    (hsync : s.syncOf le.val k.val = 2) (htiles : 12 ≤ (liveTiles s le.val).length) (hshadow : d.shadow = none) :
    ∃ t, exec (.fecBlockDecode le k false d) s = .next t ∧
      t.syncOf le.val k.val = (if (d.unsatisfied && d.outerBad) = true ∧ Tbl.get 0 (s.eng le.val).fec.bad k.val = 7 then 0 else 2) ∧
      ((d.unsatisfied && d.outerBad) = true → t.sticky (lep le.val 0x30) 3) := by
  obtain ⟨t, hexec⟩ := exec_fecBlockDecode_delivers (k := k) hrun (by rw [hsync]; decide) htiles hshadow
  rw [if_pos hnative] at hexec
  refine ⟨_, hexec, ?_, fun hfail => wordAligned_keeps.sticky _ _ (by omega) (wordCounted_sticky _ _ _ _ _ _ _ hfail)⟩
  rw [wordAligned_syncOf_sync (by rw [wordDelivered_syncOf, hsync]), wordDelivered_bad]

/-- R263: a word of an interoperable mode. -/
theorem exec_fecBlockDecode_interoperable (hmode : s.native le.val = false) (hrun : s.runState le.val = 2)
    (hsync : s.syncOf le.val k.val ≠ 0) (htiles : 12 ≤ (liveTiles s le.val).length) (hshadow : d.shadow = none) :
    ∃ t, exec (.fecBlockDecode le k false d) s = .next t ∧ (t.eng le.val).fec.seq = (s.eng le.val).fec.seq + 1 ∧
      t.syncOf le.val k.val = s.syncOf le.val k.val := by
  obtain ⟨t, hexec⟩ := exec_fecBlockDecode_delivers (k := k) hrun hsync htiles hshadow
  rw [if_neg (by simp [hmode])] at hexec
  exact ⟨_, hexec, wordDelivered_seq _ _ _ _ _ _, wordDelivered_syncOf _ _ _ _ _ _⟩

/-! ## The swap of a tile (R252) -/

/-- R252: spare `sp` takes the place of tile `t`, the first of those that wait, in the map. -/
def tileReplaced (le t sp : Nat) (rest : List Nat) (s : State) : State :=
  let s := s.modFec le fun f => { f with waiting := rest, marks := Tbl.set [] (Tbl.set [] f.marks t []) sp [] }
  let s := tileLeaves le t s
  s.setF (F.LE_FEC_TILE_MAP_map le) (s.g (F.LE_FEC_TILE_MAP_map le) ||| 2 ^ sp)

/-- R252: in the map the spare's bit is set and the failed tile's is cleared. -/
theorem tileReplaced_map (le t sp : Nat) (rest : List Nat) (s : State) :
    (tileReplaced le t sp rest s).g (F.LE_FEC_TILE_MAP_map le) =
      ((s.g (F.LE_FEC_TILE_MAP_map le) &&& (2 ^ t ^^^ 0x3FFFFFF)) % 2 ^ 26 ||| 2 ^ sp) % 2 ^ 26 := by
  rw [tileReplaced, g_setF_same, tileLeaves, g_setF_same, g_modFec]
  rfl

theorem tileReplaced_map_spare {le t sp : Nat} (hsp : sp < 26) (rest : List Nat) (s : State) :
    ((tileReplaced le t sp rest s).g (F.LE_FEC_TILE_MAP_map le)).testBit sp = true := by
  rw [tileReplaced_map, Nat.testBit_mod_two_pow, Nat.testBit_or, Nat.testBit_two_pow_self]
  simp [hsp]

theorem tileReplaced_map_failed {le t sp : Nat} (hne : t ≠ sp) (rest : List Nat) (s : State) :
    ((tileReplaced le t sp rest s).g (F.LE_FEC_TILE_MAP_map le)).testBit t = false := by
  rw [tileReplaced_map, Nat.testBit_mod_two_pow, Nat.testBit_or, Nat.testBit_two_pow_of_ne hne.symm, Nat.testBit_mod_two_pow,
    Nat.testBit_and, Nat.testBit_xor, Nat.testBit_two_pow_self]
  have hall (ht : t < 26) : Nat.testBit 0x3FFFFFF t = true := by simpa [ht] using Nat.testBit_two_pow_sub_one 26 t
  by_cases ht : t < 26
  · simp [hall ht]
  · simp [ht]

theorem tileReplaced_waiting (le t sp : Nat) (rest : List Nat) (s : State) :
    ((tileReplaced le t sp rest s).eng le).fec.waiting = rest := by
  rw [tileReplaced, tileLeaves, eng_setF, eng_setF, eng_modFec_same]

/-- The decoder's storage, the tile map and the first spare. -/
def swapParts (le : Nat) : List Part :=
  [.fec (le != 0), .reg (F.LE_FEC_TILE_MAP_map le).key, .reg (F.LE_FEC_TILE_SPARE_spare_a le).key]

/-- The report of the decoder clears no sticky event. -/
theorem fecReport_sticky {le p b : Nat} {s : State} (hb : b < 32) (h : s.sticky p b) : (fecReport le s).sticky p b :=
  sticky_level_of _ _ _ hb (sticky_setF _ (by simp; omega) (sticky_setF _ (by simp; omega) (sticky_setF _ (by simp; omega) h)))

/-- R252: the spare `sp` starts with no marks. -/
def spareTaken (le sp : Nat) (s : State) : State :=
  (s.setF (F.LE_FEC_TILE_STAT_state le sp) 0).setF (F.LE_FEC_TILE_STAT_marks le sp) 0

theorem spareTaken_fits {le sp : Nat} (hsp : sp < 26) (s : State) : Fits (Sparing (swapParts le)) s (spareTaken le sp s) :=
  .setF _ _ _ (.setF _ _ _ (.refl _ s) (by simp [Sparing, swapParts]; omega)) (by simp [Sparing, swapParts]; omega)

/-- R252, R261: the swap is counted and reported. -/
def swapReported (le inFlight : Nat) (s : State) : State :=
  fecReport le (State.evt (lep le 0x30) 4 (s.bump (F.LE_FEC_REDEC_CNT_count le) inFlight))

theorem swapReported_fits (le inFlight : Nat) (s : State) : Fits (Sparing (swapParts le)) s (swapReported le inFlight s) := by
  have hreport : Touches.fecReport (Sparing (swapParts le)) le := by
    repeat' first | constructor | (simp [Sparing, swapParts, lep] <;> omega)
  have hevt : Touches.evt (Sparing (swapParts le)) (lep le 0x30) := by
    repeat' first | constructor | (simp [Sparing, swapParts, lep] <;> omega)
  exact .fecReport _ _ (.evt _ _ _ (.bump _ _ _ (.refl _ s) (by simp [Sparing, swapParts])) hevt) hreport

theorem swapReported_sticky (le inFlight : Nat) (s : State) : (swapReported le inFlight s).sticky (lep le 0x30) 4 :=
  fecReport_sticky (by omega) (sticky_evt _ _ _ (by omega))

/-- R252: the first spare replaces the tile that has waited longest, and its place is vacant from then on. -/
theorem tileSwap_of_spare {le t inFlight : Nat} {rest : List Nat} {s : State} (hwait : (s.eng le).fec.waiting = t :: rest)
    (hspare : s.g (F.LE_FEC_TILE_SPARE_spare_a le) ≠ 0x1F) : tileSwap le inFlight s = swapReported le inFlight
      ((spareTaken le (s.g (F.LE_FEC_TILE_SPARE_spare_a le)) (tileReplaced le t (s.g (F.LE_FEC_TILE_SPARE_spare_a le)) rest s)).setF
        (F.LE_FEC_TILE_SPARE_spare_a le) 0x1F) := by
  unfold tileSwap
  simp only [hwait, hspare, ne_eq, not_false_eq_true, if_true, if_false]
  rfl

/-- R252: the spare is in the map in the failed tile's place, and the swap raises its event. -/
theorem exec_tileSwap_replaces {inFlight : Fin 3} {tile : Nat} {rest : List Nat} (hwait : (s.eng le.val).fec.waiting = tile :: rest)
    (hspare : s.g (F.LE_FEC_TILE_SPARE_spare_a le.val) < 26) (hne : tile ≠ s.g (F.LE_FEC_TILE_SPARE_spare_a le.val)) :
    ∃ t, exec (.tileSwap le inFlight) s = .next t ∧ (t.eng le.val).fec.waiting = rest ∧
      (t.g (F.LE_FEC_TILE_MAP_map le.val)).testBit (s.g (F.LE_FEC_TILE_SPARE_spare_a le.val)) = true ∧
      (t.g (F.LE_FEC_TILE_MAP_map le.val)).testBit tile = false ∧ t.g (F.LE_FEC_TILE_SPARE_spare_a le.val) = 0x1F ∧
      t.sticky (lep le.val 0x30) 4 := by
  obtain ⟨sp, hsp⟩ : ∃ sp, sp = s.g (F.LE_FEC_TILE_SPARE_spare_a le.val) := ⟨_, rfl⟩
  rw [← hsp] at hspare hne ⊢
  obtain ⟨u, hu⟩ : ∃ u, u = (spareTaken le.val sp (tileReplaced le.val tile sp rest s)).setF (F.LE_FEC_TILE_SPARE_spare_a le.val) 0x1F :=
    ⟨_, rfl⟩
  have hexec : exec (.tileSwap le inFlight) s = .next (swapReported le.val inFlight.val u) := by
    rw [exec_tileSwap, execTileSwap, tileSwap_of_spare hwait (by omega), hu, hsp]
  have hfits := swapReported_fits le.val inFlight.val u
  have htaken := spareTaken_fits (le := le.val) hspare (tileReplaced le.val tile sp rest s)
  have hmap : (swapReported le.val inFlight.val u).g (F.LE_FEC_TILE_MAP_map le.val) =
      (tileReplaced le.val tile sp rest s).g (F.LE_FEC_TILE_MAP_map le.val) := by
    rw [hfits.g_spared (by simp [swapParts]), hu, g_setF_other _ _ (by simp), htaken.g_spared (by simp [swapParts])]
  refine ⟨_, hexec, ?_, ?_, ?_, ?_, swapReported_sticky _ _ _⟩
  · rw [hfits.fec_spared (by simp [swapParts]), hu, eng_setF, htaken.fec_spared (by simp [swapParts]), tileReplaced_waiting]
  · rw [hmap, tileReplaced_map_spare hspare]
  · rw [hmap, tileReplaced_map_failed hne]
  · rw [hfits.g_spared (by simp [swapParts]), hu, g_setF_same]
    rfl

end Decoder

/-! ## The encoder (R243, R254, R263) -/

theorem wordOut_lastWord (le bits len : Nat) (s : State) : ((wordOut le bits len s).eng le).fec.lastWord = bits := by
  unfold wordOut
  dsimp only
  split
  · rw [histWord, eng_modTx_same, eng_modFec_same]
  · rw [eng_modFec_same]

theorem encErr_lastWord (le : Nat) (s : State) : ((encErr le s).eng le).fec.lastWord = (s.eng le).fec.lastWord := by
  rw [encErr, eng_evt, eng_modFec_same]

/-- R254: the word that reached the transmit DSP, whether or not it passed its check. -/
theorem encChecked_lastWord (c : Prop) [Decidable c] (le bits len : Nat) (s : State) :
    ((if c then wordOut le bits len s else encErr le (wordOut le bits len s)).eng le).fec.lastWord = bits := by
  split
  · exact wordOut_lastWord _ _ _ _
  · rw [encErr_lastWord, wordOut_lastWord]

section Encoder

variable {le : Fin 2} {info : List Word} {faults : List Nat} {s : State}

/-- R243, R254: the native code word. -/
theorem exec_fecEncode_native (hnative : s.native le.val = true) : ∃ t, exec (.fecEncode le info faults) s = .next t ∧
    (t.eng le.val).fec.lastWord = blocksToNat (faults.foldl flipBit ((fecEncode (s.cur (F.LE_TX_PLAN_fec_oh le)) (blocksOf 1000 info)).1 ++
      (fecEncode (s.cur (F.LE_TX_PLAN_fec_oh le)) (blocksOf 1000 info)).2)) := by
  have hpath : (State.datapath s (1066 + 48 * le.val) 1).native le.val = true := hnative
  rw [exec_fecEncode]
  unfold execFecEncode
  dsimp only
  rw [if_pos hpath]
  exact ⟨_, rfl, encChecked_lastWord _ _ _ _ _⟩

/-- R254, R263: the block of the standard selected. -/
theorem exec_fecEncode_interoperable (hmode : s.native le.val = false) : ∃ t, exec (.fecEncode le info faults) s = .next t ∧
    (t.eng le.val).fec.lastWord = faults.foldl (fun x i => x ^^^ 2 ^ i)
      (Config.standardCode (s.g (F.LE_ROLE_STAT_line_mode_active le.val)) (info.map BitVec.toNat)) := by
  have hpath : ¬ (State.datapath s (1066 + 48 * le.val) 1).native le.val = true := Bool.eq_false_iff.1 hmode
  rw [exec_fecEncode]
  unfold execFecEncode
  dsimp only
  rw [if_neg hpath]
  exact ⟨_, rfl, encChecked_lastWord _ _ _ _ _⟩

end Encoder

/-- Settles O33, command by command: a stream's state by `setSync` and `wordAligned`, the tiles by `tileReplaced`, and the word sent. -/
theorem fecCommandsRun : Obligations.FecCommandsRun :=
  ⟨fun _ _ _ => exec_cwCandidateFound_takes, fun _ _ _ _ => exec_fecBlockDecode_presync, fun _ _ _ _ => exec_fecBlockDecode_sync,
    fun _ _ _ _ => exec_fecBlockDecode_interoperable, fun _ _ _ _ _ => exec_tileSwap_replaces,
    fun _ _ _ _ => exec_fecEncode_native, fun _ _ _ _ => exec_fecEncode_interoperable⟩

end Sys2Proof.Machine

/-! The count of a frame that is sent (O34). -/

namespace Sys2Proof.Machine

/-- LE0 runs as P2P under the native line mode, its own count at 0; the list of received frames still holds one of count 700, as it does
when the engine ran as REGEN before: no command empties the list when the role changes. -/
def relayLeftOver : State :=
  ((State.reset.setF (F.LE_ROLE_STAT_run_state 0) 2).setF (F.LE_ROLE_STAT_role_active 0) 1).modGlf 0
    fun g => { g with relay := [⟨700, 3, 0x85⟩] }

/-- R268: the frame that is sent shows the count of the one left over. -/
theorem exec_glfFrameTx_relayLeftOver :
    ∃ t, exec (.glfFrameTx 0) relayLeftOver = .next t ∧ t.g (F.LE_GLF_TX_FC_fc 0) = 700 :=
  ⟨_, rfl, by decide +kernel⟩

/-- Refutes O34: `relayHead` gives the oldest received frame in every role, so outside REGEN and LOOP too a frame that is left over
gives its count to the frame sent, in place of the engine's own. -/
theorem not_framerCommandsRun : ¬ Obligations.FramerCommandsRun := by
  intro h
  obtain ⟨hsent, -⟩ := h
  obtain ⟨t, ht, hown, -⟩ := hsent 0 relayLeftOver (by decide +kernel) (by decide +kernel) (by decide +kernel) (by decide +kernel)
    (by decide +kernel)
  obtain ⟨u, hu, hrelayed⟩ := exec_glfFrameTx_relayLeftOver
  obtain rfl : t = u := Host.Outcome.next.inj (ht.symm.trans hu)
  have hzero : (relayLeftOver.eng 0).tx.fc.toNat = 0 := by decide +kernel
  exact absurd (hrelayed.symm.trans (hown.trans hzero)) (by decide)

end Sys2Proof.Machine

/-! Groups: what a group keeps, the messages of the member-state protocol, and the commands that move its two ends (O35). -/

namespace Sys2Proof.Machine

/-! ## What a group keeps (R287, R295, R296) -/

theorem grpSt_of_grp {s t : State} (h : t.grp = s.grp) (g : Nat) : grpSt t g = grpSt s g := by rw [grpSt, h, grpSt]

@[simp] theorem grpSt_modGrp_same (g : Nat) (f : GrpSt → GrpSt) (s : State) : grpSt (modGrp g f s) g = f (grpSt s g) :=
  Tbl.get_set_same _ _ _ _

@[simp] theorem grpSt_setF (s : State) (f : Field) (v g : Nat) : grpSt (s.setF f v) g = grpSt s g := rfl
@[simp] theorem grpSt_bump (s : State) (f : Field) (n g : Nat) : grpSt (s.bump f n) g = grpSt s g := rfl
@[simp] theorem grpSt_evt (p b : Nat) (s : State) (g : Nat) : grpSt (State.evt p b s) g = grpSt s g := grpSt_of_grp (by simp) g
@[simp] theorem grpSt_mspGo (g v : Nat) (s : State) (h : Nat) : grpSt (mspGo g v s) h = grpSt s h := rfl
@[simp] theorem grpSt_sinkGo (g v : Nat) (s : State) (h : Nat) : grpSt (sinkGo g v s) h = grpSt s h := rfl

/-! ## The states of the two ends (R295, R296) -/

theorem mspState_of_fields {s t : State} (h : t.fields = s.fields) (g : Nat) : mspState t g = mspState s g := g_of_fields h _
theorem sinkState_of_fields {s t : State} (h : t.fields = s.fields) (g : Nat) : sinkState t g = sinkState s g := g_of_fields h _

theorem mspState_mspGo {v : Nat} (hv : v < 8) (g : Nat) (s : State) : mspState (mspGo g v s) g = v := by
  rw [mspState, mspGo, g_setF_same]
  exact Nat.mod_eq_of_lt hv

theorem sinkState_sinkGo {v : Nat} (hv : v < 8) (g : Nat) (s : State) : sinkState (sinkGo g v s) g = v := by
  rw [sinkState, sinkGo, g_setF_same]
  exact Nat.mod_eq_of_lt hv

/-- An event leaves the source where it is. -/
theorem mspState_evt (b g : Nat) (s : State) : mspState (State.evt 0xAA b s) g = mspState s g :=
  g_evt_other _ _ _ (by simp; omega)

/-- R299: a report leaves the source where it is. -/
theorem mspState_mspReason (g h r : Nat) (s : State) : mspState (mspReason h r s) g = mspState s g := by
  rw [mspState, mspReason, g_setF_other _ _ (by simp; omega), g_setF_other _ _ (by simp; omega), mspState]

theorem mspReason_group (h r : Nat) (s : State) : (mspReason h r s).g F.MAP_MSP_STAT_group = h % 64 := by
  rw [mspReason, g_setF_other _ _ (by simp), g_setF_same]
  rfl

theorem mspReason_reason {r : Nat} (hr : r < 256) (h : Nat) (s : State) : (mspReason h r s).g F.MAP_MSP_STAT_reason = r := by
  rw [mspReason, g_setF_same]
  exact Nat.mod_eq_of_lt hr

theorem setActive_grpSt (g : Nat) (sink : Bool) (v : Nat) (s : State) : grpSt (setActive g sink v s) g =
    if sink then { grpSt s g with sink := v } else { grpSt s g with src := v } := by
  rw [setActive, grpSt_setF, grpSt_modGrp_same]

/-! ## Messages (R294, R295) -/

/-- R274: what waits in the overhead channel is no part of a view that leaves the framer's storage out. -/
theorem forEach_ohPut_view {β : Type} (view : State → β) (hglf : ∀ u le f, view (State.modGlf u le f) = view u) (qs : List Nat)
    (body : List Byte) (s : State) : view (s.forEach qs fun q t => ohPut (q / 32) (q % 32) 2 0x04 body t) = view s :=
  forEach_view_unchanged view _ (fun _ _ u => by rw [ohPut]; exact hglf u _ _) s

section Messages

variable (g dir msg active next fc reason : Nat) (s : State)

/-- R274, R294: a message changes no register. -/
@[simp] theorem mspSend_fields : (mspSend g dir msg active next fc reason s).fields = s.fields :=
  forEach_ohPut_view State.fields State.modGlf_fields _ _ s

@[simp] theorem mspSend_inForce : (mspSend g dir msg active next fc reason s).inForce = s.inForce :=
  forEach_ohPut_view State.inForce State.modGlf_inForce _ _ s

/-- R294: a message takes the next number of its group. -/
@[simp] theorem mspSend_grpSt : grpSt (mspSend g dir msg active next fc reason s) g =
    { grpSt s g with seq := ((grpSt s g).seq + 1) % 256 } := by
  rw [mspSend, grpSt_modGrp_same, grpSt_of_grp]
  exact forEach_ohPut_view State.grp State.modGlf_grp _ _ s

/-- R295: in every state the source sends one message. -/
theorem mspSource_sends : ∃ msg active next fc, mspSource g s = mspSend g 0 msg active next fc 0 s := by
  unfold mspSource
  dsimp only
  split <;> exact ⟨_, _, _, _, rfl⟩

@[simp] theorem mspSource_fields : (mspSource g s).fields = s.fields := by
  obtain ⟨_, _, _, _, hsend⟩ := mspSource_sends g s
  rw [hsend, mspSend_fields]

@[simp] theorem mspSource_inForce : (mspSource g s).inForce = s.inForce := by
  obtain ⟨_, _, _, _, hsend⟩ := mspSource_sends g s
  rw [hsend, mspSend_inForce]

@[simp] theorem mspSource_grpSt : grpSt (mspSource g s) g = { grpSt s g with seq := ((grpSt s g).seq + 1) % 256 } := by
  obtain ⟨_, _, _, _, hsend⟩ := mspSource_sends g s
  rw [hsend, mspSend_grpSt]

end Messages

/-! ## The source (R294, R295) -/

section Source

variable {body : List Byte} {s : State}

/-- R295: the source that proposes a set is in PROPOSING with it. -/
theorem propose_mspState (g v : Nat) (s : State) : mspState (propose g v s) g = 1 := by
  rw [propose, mspState_of_fields (mspSource_fields _ _), mspState_mspGo (by omega)]

theorem propose_srcNext (g v : Nat) (s : State) : (grpSt (propose g v s) g).srcNext = v := by
  rw [propose, mspSource_grpSt, grpSt_mspGo, grpSt_modGrp_same]

theorem propose_inForce (g v : Nat) (s : State) : (propose g v s).inForce = s.inForce := mspSource_inForce _ _

/-- R295: the ACCEPT of the set proposed arms the source. -/
theorem exec_accept_arms {g : Nat} (hgroup : mspGroup s 1 3 body = some g) (hproposing : mspState s g = 1)
    (hset : leNat body 4 2 = (grpSt s g).srcNext) : ∃ t, exec (.accept body) s = .next t ∧ mspState t g = 2 ∧
      (grpSt t g).srcNext = (grpSt s g).srcNext := by
  have hboth : ¬ (mspState s g ≠ 1 ∨ leNat body 4 2 ≠ (grpSt s g).srcNext) := by simp [hproposing, hset]
  rw [exec_accept, execAccept, hgroup]
  dsimp only
  rw [if_neg hboth]
  refine ⟨_, rfl, ?_, ?_⟩
  · rw [mspState_of_fields (mspSource_fields _ _), mspState_mspGo (by omega)]
  · rw [mspSource_grpSt, grpSt_mspGo, grpSt_modGrp_same]

/-- R295, R299: a change ends with a reason, which is reported with its event. -/
def changeEnded (g r b : Nat) (s : State) : State := State.evt 0xAA b (mspReason g r (mspGo g 0 s))

theorem changeEnded_mspState (g r b : Nat) (s : State) : mspState (changeEnded g r b s) g = 0 := by
  rw [changeEnded, mspState_evt, mspState_mspReason, mspState_mspGo (by omega)]

theorem changeEnded_reason {r : Nat} (hr : r < 256) (g b : Nat) (s : State) :
    (changeEnded g r b s).g F.MAP_MSP_STAT_reason = r := by
  rw [changeEnded, g_evt_other _ _ _ (by simp), mspReason_reason hr]

theorem changeEnded_group (g r b : Nat) (s : State) : (changeEnded g r b s).g F.MAP_MSP_STAT_group = g % 64 := by
  rw [changeEnded, g_evt_other _ _ _ (by simp), mspReason_group]

/-- R295: a REJECT ends the change with the reason it carries. -/
theorem exec_reject_ends {g : Nat} (hgroup : mspGroup s 1 4 body = some g) (hproposing : mspState s g = 1) :
    ∃ t, exec (.reject body) s = .next t ∧ mspState t g = 0 ∧ t.g F.MAP_MSP_STAT_reason = byteAt body 11 ∧
      t.g F.MAP_MSP_STAT_group = g % 64 ∧ t.sticky 0xAA 3 := by
  rw [exec_reject, execReject, hgroup]
  dsimp only
  rw [if_pos hproposing]
  exact ⟨changeEnded g (byteAt body 11) 3 s, rfl, changeEnded_mspState _ _ _ _, changeEnded_reason (byteAt_lt _ _) _ _ _,
    changeEnded_group _ _ _ _, sticky_evt _ _ _ (by omega)⟩

/-- R295: a proposal that is not answered ends. -/
theorem exec_mspProposeTimeout_ends {g : Fin 64} (hproposing : mspState s g.val = 1) : ∃ t, exec (.mspProposeTimeout g) s = .next t ∧
    mspState t g.val = 0 ∧ t.g F.MAP_MSP_STAT_group = g.val ∧ t.sticky 0xAA 4 := by
  obtain ⟨r, u, hdraw⟩ : ∃ r u, (s.reach ((grpSt s g.val).propAt + 100000000)).draw 8 = (r, u) := ⟨_, _, rfl⟩
  rw [exec_mspProposeTimeout, execMspProposeTimeout]
  dsimp only
  rw [if_pos hproposing, hdraw]
  refine ⟨changeEnded g.val r 4 u, rfl, changeEnded_mspState _ _ _ _, ?_, sticky_evt _ _ _ (by omega)⟩
  rw [changeEnded_group, Nat.mod_eq_of_lt g.isLt]

/-- R295: where removal is automatic the source proposes its set without the member, and the target follows. -/
theorem exec_reqRemove_proposes {g : Nat} (hgroup : mspGroup s 1 5 body = some g) (hstable : mspState s g = 0)
    (hauto : s.curOn (F.MAP_GRP_CTRL_auto_remove (g / 32) (g % 32)) = true) (hm : leNat body 4 2 < 16)
    (hactive : (grpSt s g).src.testBit (leNat body 4 2) = true) : ∃ t, exec (.reqRemove body) s = .next t ∧ mspState t g = 1 ∧
      (grpSt t g).srcNext = (grpSt s g).src - 2 ^ leNat body 4 2 ∧
      target t.inForce g = ((grpSt s g).src - 2 ^ leNat body 4 2) % 65536 := by
  rw [exec_reqRemove, execReqRemove, hgroup]
  dsimp only
  rw [if_pos ⟨hstable, hauto, hm, hactive⟩]
  refine ⟨_, rfl, propose_mspState _ _ _, propose_srcNext _ _ _, ?_⟩
  rw [propose_inForce]
  exact Tbl.get_set_same _ _ _ _

/-- R295: at the frame agreed the proposed set becomes active. -/
theorem exec_mspSwitch_switches {g : Fin 64} (harmed : mspState s g.val = 2)
    (hdue : (s.eng (grpEngine s g.val)).tx.fc.toNat = (grpSt s g.val).srcFc) : ∃ t, exec (.mspSwitch g) s = .next t ∧
      mspState t g.val = 0 ∧ (grpSt t g.val).src = (grpSt s g.val).srcNext ∧ t.sticky 0xAA 2 := by
  have hreached : mspState s g.val = 2 ∧
      ((s.eng (grpEngine s g.val)).tx.fc.toNat + 2 ^ 32 - (grpSt s g.val).srcFc) % 2 ^ 32 < 2 ^ 31 := ⟨harmed, by omega⟩
  rw [exec_mspSwitch, execMspSwitch]
  dsimp only
  rw [if_pos hreached]
  refine ⟨_, rfl, ?_, ?_, sticky_evt _ _ _ (by omega)⟩
  · rw [mspState_evt, mspState_mspGo (by omega)]
  · rw [grpSt_evt, grpSt_mspGo, grpSt_modGrp_same, setActive_grpSt]
    rfl

/-- R294: the source repeats its message under the next number. -/
theorem exec_mspMsgRepeat_source {g : Fin 64} (hvalid : grpValid s.inForce g.val = true) (hconcat : grpPair s.inForce g.val = false) :
    ∃ t, exec (.mspMsgRepeat g false) s = .next t ∧ (grpSt t g.val).seq = ((grpSt s g.val).seq + 1) % 256 ∧
      mspState t g.val = mspState s g.val := by
  refine ⟨mspSource g.val s, ?_, ?_, mspState_of_fields (mspSource_fields _ _) _⟩
  · simp [execMspMsgRepeat, hvalid, hconcat]
  · rw [mspSource_grpSt]

end Source

/-! ## The sink (R296, R297) -/

section Sink

variable {body : List Byte} {s : State}

/-- R296: the reason a sink that is STABLE refuses a proposed set with, 0 for none. -/
def proposeReason (s : State) (g next : Nat) (fits : Bool) : Nat :=
  firstFail [
    (1, ((List.range 16).filter fun m => next.testBit m).all fun m => (grpMember s.inForce g m).isSome),
    (2, ((List.range 16).filter fun m => next.testBit m).all fun m => memberInFrame s g m),
    (3, fits)]

/-- R296: a set whose members are in frame is refused only for the arrival times of its members. -/
theorem proposeReason_of_inFrame {g next : Nat} (fits : Bool)
    (hframes : ∀ m, m < 16 → next.testBit m = true → memberInFrame s g m = true) :
    proposeReason s g next fits = if fits then 0 else 3 := by
  have hin : ∀ m ∈ (List.range 16).filter fun m => next.testBit m, memberInFrame s g m = true := fun m hm => by
    obtain ⟨hrange, hset⟩ := List.mem_filter.1 hm
    exact hframes m (List.mem_range.1 hrange) hset
  have hmember : ∀ m ∈ (List.range 16).filter fun m => next.testBit m, (grpMember s.inForce g m).isSome = true := fun m hm => by
    have h := hin m hm
    unfold memberInFrame at h
    split at h
    next hsome => rw [hsome]; rfl
    · cases h
  rw [proposeReason, firstFail, List.all_eq_true.2 hmember, firstFail, List.all_eq_true.2 hin]
  cases fits <;> rfl

/-- R296: the sink is READY for a set. -/
def setAwaited (g next : Nat) (s : State) : State :=
  sinkGo g 1 (modGrp g (fun x => { x with sinkNext := next, readyAt := s.now }) s)

theorem setAwaited_sinkState (g next : Nat) (s : State) : sinkState (setAwaited g next s) g = 1 := sinkState_sinkGo (by omega) _ _

theorem setAwaited_sinkNext (g next : Nat) (s : State) : (grpSt (setAwaited g next s) g).sinkNext = next := by
  rw [setAwaited, grpSt_sinkGo, grpSt_modGrp_same]

/-- R296: a sink that is STABLE answers a proposal with REJECT and a reason, or with ACCEPT in READY. -/
theorem exec_propose_of_stable {fits : Bool} {g : Nat} (hgroup : mspGroup s 0 1 body = some g) (hstable : sinkState s g = 0) :
    exec (.propose body fits) s =
      if proposeReason s g (leNat body 4 2) fits ≠ 0 then
        .next (mspSend g 1 4 (grpSt s g).sink (leNat body 4 2) 0 (proposeReason s g (leNat body 4 2) fits) s)
      else
        .next (mspSend g 1 3 (grpSt (setAwaited g (leNat body 4 2) s) g).sink (leNat body 4 2) 0 0 (setAwaited g (leNat body 4 2) s)) := by
  rw [exec_propose, execPropose, hgroup]
  dsimp only
  rw [if_neg (not_not_intro hstable), if_neg fun h => h.1 hstable]
  unfold proposeReason
  rfl

/-- R296: a proposal whose members are in frame is taken where they arrive in time. -/
theorem exec_propose_answers {fits : Bool} {g : Nat} (hgroup : mspGroup s 0 1 body = some g) (hstable : sinkState s g = 0)
    (hframes : ∀ m, m < 16 → (leNat body 4 2).testBit m = true → memberInFrame s g m = true) :
    ∃ t, exec (.propose body fits) s = .next t ∧ sinkState t g = (if fits then 1 else 0) ∧
      (fits = true → (grpSt t g).sinkNext = leNat body 4 2) := by
  rw [exec_propose_of_stable hgroup hstable, proposeReason_of_inFrame fits hframes]
  cases fits with
  | false => exact ⟨_, rfl, (sinkState_of_fields (mspSend_fields _ _ _ _ _ _ _ _) _).trans hstable, nofun⟩
  | true =>
    refine ⟨_, rfl, (sinkState_of_fields (mspSend_fields _ _ _ _ _ _ _ _) _).trans (setAwaited_sinkState _ _ _), fun _ => ?_⟩
    rw [mspSend_grpSt, setAwaited_sinkNext]

/-- R296: before the first release ARM takes the sink to ARMED with the set and the frame it names. -/
theorem exec_arm_arms {g : Nat} (hgroup : mspGroup s 0 2 body = some g) (hready : sinkState s g = 1)
    (hnone : (grpSt s g).released = none) : ∃ t, exec (.arm body) s = .next t ∧ sinkState t g = 2 ∧
      (grpSt t g).sinkNext = leNat body 4 2 ∧ (grpSt t g).sinkFc = leNat body 6 4 := by
  rw [exec_arm, execArm, hgroup]
  dsimp only
  rw [if_neg (not_not_intro hready), hnone]
  exact ⟨_, rfl, sinkState_sinkGo (by omega) _ _, by rw [grpSt_sinkGo, grpSt_modGrp_same], by rw [grpSt_sinkGo, grpSt_modGrp_same]⟩

/-- R296: a sink that waits for ARM in vain is STABLE again. -/
theorem exec_mspReadyTimeout_returns {g : Fin 64} (hready : sinkState s g.val = 1) :
    ∃ t, exec (.mspReadyTimeout g) s = .next t ∧ sinkState t g.val = 0 :=
  ⟨_, by rw [exec_mspReadyTimeout, execMspReadyTimeout, if_pos hready], sinkState_sinkGo (by omega) _ _⟩

/-- R297: a sink that takes the source's set has it active, and raises its event. -/
theorem mspResync_takes (g v : Nat) (s : State) : (grpSt (mspResync g v s) g).sink = v ∧ (mspResync g v s).sticky 0xAA 5 := by
  refine ⟨?_, sticky_evt _ _ _ (by omega)⟩
  rw [mspResync, grpSt_evt, grpSt_bump, setActive_grpSt]
  rfl

/-- R297: the third STATUS in a row with another set is taken. -/
theorem exec_mspStatus_differs {g : Nat} (hgroup : mspGroup s 0 0 body = some g) (hstable : sinkState s g = 0)
    (hdiffer : leNat body 2 2 ≠ (grpSt s g).sink) : ∃ t, exec (.mspStatus body) s = .next t ∧
      ((grpSt s g).differ = 2 → (grpSt t g).sink = leNat body 2 2 ∧ t.sticky 0xAA 5) ∧
      ((grpSt s g).differ ≠ 2 → (grpSt t g).differ = (grpSt s g).differ + 1 ∧ (grpSt t g).sink = (grpSt s g).sink) := by
  rw [exec_mspStatus, execMspStatus, hgroup]
  dsimp only
  rw [if_neg (not_not_intro hstable), if_neg hdiffer]
  by_cases h2 : (grpSt s g).differ = 2
  · rw [if_pos h2]
    exact ⟨_, rfl, fun _ => mspResync_takes _ _ _, fun hn => absurd h2 hn⟩
  · rw [if_neg h2]
    exact ⟨_, rfl, fun h => absurd h h2, fun _ => by rw [grpSt_modGrp_same]; exact ⟨rfl, rfl⟩⟩

end Sink

/-- Settles O35, message by message and timer by timer: the ends move by `mspGo` and `sinkGo`, what a group keeps by `modGrp`, and a
message that is sent changes neither a register nor more of the group than its number. -/
theorem memberStateProtocolRuns : Obligations.MemberStateProtocolRuns :=
  ⟨fun _ _ _ _ => exec_propose_answers, fun _ _ _ => exec_accept_arms, fun _ _ _ => exec_reject_ends,
    fun _ _ => exec_mspProposeTimeout_ends, fun _ _ _ => exec_arm_arms, fun _ _ => exec_mspReadyTimeout_returns,
    fun _ _ _ => exec_reqRemove_proposes, fun _ _ => exec_mspSwitch_switches, fun _ _ _ => exec_mspStatus_differs,
    fun _ _ => exec_mspMsgRepeat_source⟩

end Sys2Proof.Machine

/-! The release of a group's frames, and the declaration of defects (O36). -/

namespace Sys2Proof.Machine

/-! ## A group frame is released (R291 to R293) -/

/-- What a group keeps, and the registers of its differential delay. -/
def releaseParts (g : Nat) : List Part :=
  [.grp, .reg (F.MAP_GRP_DD_dd (g / 32) (g % 32)).key, .reg (F.MAP_GRP_DD_late_member (g / 32) (g % 32)).key]

/-- R293: a pair takes the copy of a member; a change between its two members is counted. -/
def copyTaken (g sel : Nat) (s : State) : State :=
  (if sel ≤ 1 ∧ s.g (F.MAP_GRP_ST_sel (g / 32) (g % 32)) ≤ 1 ∧ sel ≠ s.g (F.MAP_GRP_ST_sel (g / 32) (g % 32)) then
    s.bump (F.MAP_GRP_SWITCHES_switches (g / 32) (g % 32)) 1 else s).setF (F.MAP_GRP_ST_sel (g / 32) (g % 32)) sel

theorem copyTaken_fits (g sel : Nat) (s : State) : Fits (Sparing (releaseParts g)) s (copyTaken g sel s) :=
  .setF _ _ _ (.ite (fun _ => .bump _ _ _ (.refl _ s) (by simp [Sparing, releaseParts]; omega)) fun _ => .refl _ s)
    (by simp [Sparing, releaseParts]; omega)

/-- R291, R299: the event of late members, and the clients that are replaced. -/
def releaseReported (late : Bool) (s : State) : State := replacePorts (State.level 0xAA 0 late s)

theorem releaseReported_fits (g : Nat) (late : Bool) (s : State) :
    Fits (Sparing (releaseParts g)) s (releaseReported late s) := by
  have tch : Touches.level (Sparing (releaseParts g)) 0xAA := by
    repeat' first | constructor | (simp [Sparing, releaseParts] <;> omega)
  exact .replacePorts _ (.level _ _ _ _ (.refl _ s) tch) (by simp [Sparing, releaseParts])

/-- R291: the frame released, its delay and the member that arrives last. -/
def frameReleased (g fc missing dd last : Nat) (ex : List Nat) (s : State) : State :=
  ((modGrp g (fun x => { x with excluded := ex, released := some fc, missing := missing, memBad := 0 }) s).setF
    (F.MAP_GRP_DD_dd (g / 32) (g % 32)) dd).setF (F.MAP_GRP_DD_late_member (g / 32) (g % 32)) last

section Release

variable (g fc missing dd last : Nat) (ex : List Nat) (s : State)

theorem frameReleased_released : (grpSt (frameReleased g fc missing dd last ex s) g).released = some fc := by
  rw [frameReleased, grpSt_setF, grpSt_setF, grpSt_modGrp_same]

theorem frameReleased_dd (hdd : dd < 2 ^ 20) :
    (frameReleased g fc missing dd last ex s).g (F.MAP_GRP_DD_dd (g / 32) (g % 32)) = dd := by
  rw [frameReleased, g_setF_other _ _ (by simp), g_setF_same]
  exact Nat.mod_eq_of_lt hdd

theorem frameReleased_late_member (hlast : last < 16) :
    (frameReleased g fc missing dd last ex s).g (F.MAP_GRP_DD_late_member (g / 32) (g % 32)) = last := by
  rw [frameReleased, g_setF_same]
  exact Nat.mod_eq_of_lt hlast

end Release

section Deskew

variable {g : Fin 64} {fc : BitVec 32} {late bad : List (Fin 16)} {dd : BitVec 20} {last : Fin 16} {s : State}

/-- R291 to R293: once the frame is released, of a pair a copy is taken, and the release is reported. -/
theorem exec_deskewRelease_of_valid (hvalid : grpValid s.inForce g.val = true) : ∃ (u : State) (missing : Nat) (ex : List Nat)
    (pair : Bool) (sel : Nat) (flag : Bool), exec (.deskewRelease g fc late bad dd last) s = .next (releaseReported flag
      (if pair then copyTaken g.val sel (frameReleased g.val fc.toNat missing dd.toNat last.val ex u)
        else frameReleased g.val fc.toNat missing dd.toNat last.val ex u)) := by
  rw [exec_deskewRelease, execDeskewRelease]
  dsimp only
  rw [if_neg (by simp [hvalid])]
  exact ⟨_, _, _, _, _, _, rfl⟩

/-- R291: the release stands after what follows it. -/
theorem exec_deskewRelease_records (hvalid : grpValid s.inForce g.val = true) :
    ∃ t, exec (.deskewRelease g fc late bad dd last) s = .next t ∧ (grpSt t g.val).released = some fc.toNat ∧
      t.g (F.MAP_GRP_DD_dd (g.val / 32) (g.val % 32)) = dd.toNat ∧
      t.g (F.MAP_GRP_DD_late_member (g.val / 32) (g.val % 32)) = last.val := by
  obtain ⟨u, missing, ex, pair, sel, flag, hexec⟩ := exec_deskewRelease_of_valid (fc := fc) (late := late) (bad := bad) (dd := dd)
    (last := last) hvalid
  have hfits := (Fits.ite (c := pair = true) (fun _ => copyTaken_fits g.val sel _)
    fun _ => .refl _ (frameReleased g.val fc.toNat missing dd.toNat last.val ex u)).trans (releaseReported_fits g.val flag _)
  refine ⟨_, hexec, ?_, ?_, ?_⟩
  · rw [grpSt_of_grp (hfits.within .grp (not_not_intro (by simp [releaseParts]))), frameReleased_released]
  · rw [hfits.g_spared (by simp [releaseParts]), frameReleased_dd _ _ _ _ _ _ _ dd.isLt]
  · rw [hfits.g_spared (by simp [releaseParts]), frameReleased_late_member _ _ _ _ _ _ _ last.isLt]

end Deskew

/-! ## Defects (R298, R299) -/

/-- What makes a defect declared on a scope is in the framer's storage of the scope's engine. -/
theorem isDeclared_of_declared {s t : State} {x : DefScope}
    (h : (t.eng (scopeKey x).1).glf.declared = (s.eng (scopeKey x).1).glf.declared) (d : Nat) :
    isDeclared t d x = isDeclared s d x := by
  rw [isDeclared, declared, h, isDeclared, declared]

/-- R299: the report of the defects leaves them. -/
theorem defReport_eng (le e : Nat) (s : State) : (defReport le s).eng e = s.eng e := by
  have hvec (k v : Nat) (b : Bool) (u : State) :
      (State.level (lep le 0x34) (k + 1) b (u.setF (F.LE_GLF_VEC_bits le k) v)).eng e = u.eng e := by
    rw [eng_level, eng_setF]
  have hreplaced (u : State) : (replacePorts u).eng e = u.eng e := rfl
  unfold defReport
  dsimp only
  rw [hreplaced, eng_level, forEach_view_unchanged (State.eng · e) _ fun _ _ _ => hvec _ _ _ _, eng_setF]

/-- R298: a declaration that is set or cleared stands so. -/
theorem setDeclared_isDeclared (d : Nat) (x : DefScope) (v : Bool) (s : State) : isDeclared (setDeclared d x v s) d x = v := by
  rw [isDeclared, declared, setDeclared, defReport_eng, eng_modGlf_same]
  exact Tbl.get_set_same _ _ _ _

/-- Envelopes that wait change no declaration, whichever engine they wait in. -/
theorem ohPut_declared (le q prec type : Nat) (body : List Byte) (s : State) (e : Nat) :
    ((ohPut le q prec type body s).eng e).glf.declared = (s.eng e).glf.declared := by
  rw [ohPut]
  simp only [State.modGlf, State.modEng, State.eng]
  by_cases hle : le = 0 <;> by_cases he : e = 0 <;> simp [hle, he]

/-- R294: a message leaves the defects. -/
theorem mspSend_isDeclared (g dir msg active next fc reason : Nat) (s : State) (d : Nat) (x : DefScope) :
    isDeclared (mspSend g dir msg active next fc reason s) d x = isDeclared s d x :=
  isDeclared_of_declared (forEach_view_unchanged (fun u => (u.eng (scopeKey x).1).glf.declared) _
    (fun _ _ _ => ohPut_declared _ _ _ _ _ _ _) s) d

section Defects

variable {d : Fin 12} {x : DefScope} {s : State}

/-- R298: a raw condition is declared, and stays so through the REQ_REMOVE of a lost member. -/
theorem exec_defectDeclare_declares {noFrame : Bool} (hscope : scopeOk d x = true) (hnot : isDeclared s d.val x = false)
    (hraw : defRaw s d.val x = true) : ∃ t, exec (.defectDeclare d x noFrame) s = .next t ∧ isDeclared t d.val x = true := by
  have hset := setDeclared_isDeclared d.val x true s
  rw [exec_defectDeclare, execDefectDeclare, if_neg (by simp [hscope])]
  dsimp only
  rw [if_neg (by simp [hnot, hraw])]
  generalize setDeclared d.val x true s = u at hset ⊢
  split
  next g m _ =>
    split
    · exact ⟨_, rfl, by rw [mspSend_isDeclared, hset]⟩
    · exact ⟨_, rfl, hset⟩
  · exact ⟨_, rfl, hset⟩

/-- R298: a defect whose raw condition is gone is cleared. -/
theorem exec_defectClear_clears (hscope : scopeOk d x = true) (hdeclared : isDeclared s d.val x = true)
    (hraw : defRaw s d.val x = false) : ∃ t, exec (.defectClear d x) s = .next t ∧ isDeclared t d.val x = false := by
  refine ⟨setDeclared d.val x false s, ?_, setDeclared_isDeclared _ _ _ _⟩
  rw [exec_defectClear, execDefectClear, if_neg (by simp [hscope]), if_pos (by simp [hdeclared, hraw])]

end Defects

/-- Settles O36: what follows the release of a frame leaves the group and its delay, and what follows a declaration leaves it. -/
theorem defectsAndDeskewRun : Obligations.DefectsAndDeskewRun :=
  ⟨fun _ _ _ _ _ _ _ => exec_deskewRelease_records, fun _ _ _ _ => exec_defectDeclare_declares,
    fun _ _ _ => exec_defectClear_clears⟩

end Sys2Proof.Machine

/-! Host lanes: what lanes and ports keep, how they change state, and the commands of a lane (O37). -/

namespace Sys2Proof.Machine

/-! ## Events that stay sticky (R54) -/

/-- R54: every event that is sticky before a change is sticky after it. -/
def StickyKept (s t : State) : Prop := ∀ q c, c < 32 → s.sticky q c → t.sticky q c

namespace StickyKept

variable {s0 s t : State}

theorem refl (s : State) : StickyKept s s := fun _ _ _ h => h

theorem trans {u : State} (h : StickyKept s t) (h' : StickyKept t u) : StickyKept s u := fun q c hc hs => h' q c hc (h q c hc hs)

theorem of_fields (h : StickyKept s0 s) (e : t.fields = s.fields) : StickyKept s0 t := fun q c hc hs =>
  sticky_of_fields (h q c hc hs) e

theorem setF (h : StickyKept s0 s) {f : Field} (v : Nat) (hf : ∀ q, (F.EVT_STICKY q).key ≠ f.key) : StickyKept s0 (s.setF f v) :=
  fun q c hc hs => sticky_setF v (hf q) (h q c hc hs)

theorem setB (h : StickyKept s0 s) {f : Field} (b : Bool) (hf : ∀ q, (F.EVT_STICKY q).key ≠ f.key) : StickyKept s0 (s.setB f b) :=
  h.setF _ hf

theorem bump (h : StickyKept s0 s) {f : Field} (n : Nat) (hf : ∀ q, (F.EVT_STICKY q).key ≠ f.key) : StickyKept s0 (s.bump f n) :=
  h.setF _ hf

theorem evt (h : StickyKept s0 s) (p b : Nat) : StickyKept s0 (State.evt p b s) := fun q c hc hs =>
  sticky_evt_of p b hc (h q c hc hs)

theorem loss (h : StickyKept s0 s) {f : Field} (n : Nat) (hf : ∀ q, (F.EVT_STICKY q).key ≠ f.key) : StickyKept s0 (State.loss f n s) :=
  fun q c hc hs => sticky_of_g (h q c hc hs) (g_loss_other f n s (hf q))

theorem forEach {α : Type} (h : StickyKept s0 s) (l : List α) (f : α → State → State)
    (hf : ∀ a u, StickyKept s0 u → StickyKept s0 (f a u)) : StickyKept s0 (s.forEach l f) := by
  induction l generalizing s with
  | nil => exact h
  | cons a l ih => exact ih (hf a s h)

end StickyKept

/-! ## What a port keeps (R320 to R324) -/

theorem portSt_of_lanes {s t : State} (h : t.lanes = s.lanes) (p : Nat) : portSt t p = portSt s p := by rw [portSt, h, portSt]

@[simp] theorem portSt_modPort_same (p : Nat) (f : PortSt → PortSt) (s : State) : portSt (modPort p f s) p = f (portSt s p) :=
  Tbl.get_set_same _ _ _ _

@[simp] theorem portSt_setB (s : State) (f : Field) (b : Bool) (p : Nat) : portSt (s.setB f b) p = portSt s p := rfl
@[simp] theorem portSt_bump (s : State) (f : Field) (n p : Nat) : portSt (s.bump f n) p = portSt s p := rfl
@[simp] theorem portSt_evt (q b : Nat) (s : State) (p : Nat) : portSt (State.evt q b s) p = portSt s p := portSt_of_lanes (by simp) p
@[simp] theorem portSt_loss (f : Field) (n : Nat) (s : State) (p : Nat) : portSt (State.loss f n s) p = portSt s p :=
  portSt_of_lanes (by simp) p

@[simp] theorem g_modPort (p : Nat) (f : PortSt → PortSt) (s : State) (x : Field) : (modPort p f s).g x = s.g x := rfl
@[simp] theorem modPort_fields (p : Nat) (f : PortSt → PortSt) (s : State) : (modPort p f s).fields = s.fields := rfl
@[simp] theorem modPort_inForce (p : Nat) (f : PortSt → PortSt) (s : State) : (modPort p f s).inForce = s.inForce := rfl
@[simp] theorem modPort_exch (p : Nat) (f : PortSt → PortSt) (s : State) : (modPort p f s).lanes.exch = s.lanes.exch := rfl

/-! ## The state of a lane (R305) -/

@[simp] theorem laneGo_lanes (g j v : Nat) (s : State) : (laneGo g j v s).lanes = s.lanes := by
  unfold laneGo
  dsimp only
  split <;> rfl

@[simp] theorem laneGo_inForce (g j v : Nat) (s : State) : (laneGo g j v s).inForce = s.inForce := by
  unfold laneGo
  dsimp only
  split <;> rfl

@[simp] theorem portSt_laneGo (g j v : Nat) (s : State) (p : Nat) : portSt (laneGo g j v s) p = portSt s p :=
  portSt_of_lanes (by simp) p

/-- R305: a lane that does not start anew takes its state, and is a spare or none. -/
theorem laneGo_of_started {v : Nat} (hv : 1 < v) (g j : Nat) (s : State) :
    laneGo g j v s = (s.setF (F.HL_LANE_STAT_state g j) v).setB (F.HL_LANE_STAT_spare g j) (v == 6) := by
  simp [laneGo, Nat.not_le.2 hv]

/-- R305: beside the state and the bits that go with it nothing is touched. -/
theorem g_laneGo_other (g j v : Nat) (s : State) {f : Field} (hstate : f.key ≠ (F.HL_LANE_STAT_state g j).key)
    (hlock : f.key ≠ (F.HL_LANE_STAT_cdr_lock g j).key) (hdet : f.key ≠ (F.HL_LANE_STAT_sig_det g j).key)
    (hspare : f.key ≠ (F.HL_LANE_STAT_spare g j).key) : (laneGo g j v s).g f = s.g f := by
  unfold laneGo
  dsimp only
  split
  · rw [g_setB_other _ _ hspare, g_setB_other _ _ hdet, g_setB_other _ _ hlock, g_setF_other _ _ hstate]
  · rw [g_setB_other _ _ hspare, g_setF_other _ _ hstate]

theorem laneState_laneGo_same {v : Nat} (hv : v < 8) (g j : Nat) (s : State) : laneState (laneGo g j v s) g j = v := by
  unfold laneState laneGo
  dsimp only
  split
  · rw [g_setB_other _ _ (by simp), g_setB_other _ _ (by simp), g_setB_other _ _ (by simp), g_setF_same]
    exact Nat.mod_eq_of_lt hv
  · rw [g_setB_other _ _ (by simp), g_setF_same]
    exact Nat.mod_eq_of_lt hv

theorem laneState_laneGo_other {g j g' j' : Nat} (v : Nat) (s : State)
    (h : (F.HL_LANE_STAT_state g' j').key ≠ (F.HL_LANE_STAT_state g j).key) :
    laneState (laneGo g j v s) g' j' = laneState s g' j' :=
  g_laneGo_other _ _ _ _ h (by simp; omega) (by simp; omega) (by simp; omega)

/-- Two lanes whose state lies in one register are in one state. -/
theorem laneState_of_key {g j g' j' : Nat} (h : (F.HL_LANE_STAT_state g' j').key = (F.HL_LANE_STAT_state g j).key) (s : State) :
    laneState s g' j' = laneState s g j := by
  rw [laneState, laneState, State.g, State.g, look, look, h]
  rfl

theorem StickyKept.laneGo {s0 s : State} (h : StickyKept s0 s) (g j v : Nat) : StickyKept s0 (laneGo g j v s) := by
  have hkey (q : Nat) : (F.EVT_STICKY q).key ≠ (F.HL_LANE_STAT_state g j).key ∧ (F.EVT_STICKY q).key ≠ (F.HL_LANE_STAT_cdr_lock g j).key ∧
      (F.EVT_STICKY q).key ≠ (F.HL_LANE_STAT_sig_det g j).key ∧ (F.EVT_STICKY q).key ≠ (F.HL_LANE_STAT_spare g j).key := by
    simp
    omega
  intro q c hc hs
  obtain ⟨hstate, hlock, hdet, hspare⟩ := hkey q
  exact sticky_of_g (h q c hc hs) (g_laneGo_other _ _ _ _ hstate hlock hdet hspare)

/-! ## The state of a port (R317) -/

@[simp] theorem portGo_lanes (p v : Nat) (s : State) : (portGo p v s).lanes = s.lanes := by
  unfold portGo portEvt
  split <;> simp

@[simp] theorem portGo_inForce (p v : Nat) (s : State) : (portGo p v s).inForce = s.inForce := by
  unfold portGo portEvt
  split <;> simp

@[simp] theorem portSt_portGo (p v : Nat) (s : State) (q : Nat) : portSt (portGo p v s) q = portSt s q := portSt_of_lanes (by simp) q

theorem g_portEvt_other (p b : Nat) (s : State) {f : Field} (h : f.key ≠ (F.EVT_STICKY (0xA0 + p / 8)).key) :
    (portEvt p b s).g f = s.g f := g_evt_other _ _ _ h

@[simp] theorem portState_portEvt (p b : Nat) (s : State) : portState (portEvt p b s) p = portState s p :=
  g_portEvt_other _ _ _ (by simp; omega)

theorem portState_portGo {v : Nat} (hv : v < 8) (p : Nat) (s : State) : portState (portGo p v s) p = v := by
  unfold portGo
  split
  next h => exact h
  next h =>
    rw [portState_portEvt, portState, g_setF_same]
    exact Nat.mod_eq_of_lt hv

theorem g_portGo_other (p v : Nat) (s : State) {f : Field} (hstate : f.key ≠ (F.PORT_STAT_state (p / 8) (p % 8)).key)
    (hsticky : f.key ≠ (F.EVT_STICKY (0xA0 + p / 8)).key) : (portGo p v s).g f = s.g f := by
  unfold portGo
  split
  · rfl
  · rw [g_portEvt_other _ _ _ hsticky, g_setF_other _ _ hstate]

/-- R317: a port that changes state raises PORT_STATE. -/
theorem sticky_portGo {p v : Nat} {s : State} (h : portState s p ≠ v) : (portGo p v s).sticky (0xA0 + p / 8) (3 * (p % 8)) := by
  rw [portGo, if_neg h]
  exact sticky_evt _ _ _ (by omega)

theorem StickyKept.portEvt {s0 s : State} (h : StickyKept s0 s) (p b : Nat) : StickyKept s0 (portEvt p b s) := h.evt _ _

theorem StickyKept.portGo {s0 s : State} (h : StickyKept s0 s) (p v : Nat) : StickyKept s0 (portGo p v s) := by
  unfold Sys2Proof.Machine.portGo
  split
  · exact h
  · exact (h.setF v fun q => by simp; omega).portEvt _ _

theorem g_spareReady_other (p : Nat) (s : State) {f : Field} (h : f.key ≠ (F.PORT_STAT_spare_ready (p / 8) (p % 8)).key) :
    (spareReady p s).g f = s.g f := g_setB_other _ _ h

/-- R512: beside its report a port keeps the time since which it has had no spare. -/
theorem portSt_spareReady (p : Nat) (s : State) : ∃ b, portSt (spareReady p s) p = { portSt s p with bareAt := b } :=
  ⟨_, by rw [spareReady, portSt_setB, portSt_modPort_same]⟩

theorem StickyKept.spareReady {s0 s : State} (h : StickyKept s0 s) (p : Nat) : StickyKept s0 (spareReady p s) :=
  (h.of_fields (modPort_fields _ _ _)).setB _ fun q => by simp; omega

/-- R320: a new window changes no register. -/
@[simp] theorem openWindow_fields (p : Nat) (s : State) : (openWindow p s).fields = s.fields := by
  unfold openWindow
  refine (forEach_view_unchanged State.fields _ ?_ _).trans (modPort_fields _ _ _)
  exact fun _ _ _ => rfl

theorem portSt_openWindow (p : Nat) (s : State) :
    portSt (openWindow p s) p = { portSt s p with anyValid := false, badVersion := false, badLanes := false } := by
  unfold openWindow
  refine (forEach_view_unchanged (portSt · p) _ ?_ _).trans (portSt_modPort_same _ _ _)
  exact fun _ _ _ => rfl

/-! ## A port that looks at its lanes (R317, R323) -/

/-- R317, R323: a port leaves LANE_WAIT, or takes a lane that regained READY as its spare, or goes on. -/
theorem portEval_cases (p : Nat) (s : State) : portEval p s = s ∨
    (portState s p = 1 ∧ (portEval p s = portGo p 3 s ∨ portEval p s = openWindow p (portGo p 2 s))) ∨
    (portState s p = 4 ∧ ∃ j, laneState s (portGroup s.inForce p) j = 4 ∧
      portEval p s = spareReady p (laneGo (portGroup s.inForce p) j 6 s)) := by
  unfold portEval
  dsimp only
  split
  next hwait =>
    split
    · split
      · exact .inr (.inl ⟨hwait, .inl rfl⟩)
      · exact .inr (.inl ⟨hwait, .inr rfl⟩)
    · exact .inl rfl
  · split
    next hup =>
      split
      next j hj =>
        split
        next hready =>
          rw [Bool.and_eq_true, decide_eq_true_eq] at hready
          exact .inr (.inr ⟨hup, j, hready.1, rfl⟩)
        · exact .inl rfl
      · exact .inl rfl
    · exact .inl rfl

/-- A register that shows nothing of what a lane changes when it is READY, or goes on from there (R303, R305). -/
structure OffLanes (f : Field) : Prop where
  laneState : ∀ g j, f.key ≠ (F.HL_LANE_STAT_state g j).key
  laneSpare : ∀ g j, f.key ≠ (F.HL_LANE_STAT_spare g j).key

/-- A register that shows neither an event, nor what such a lane changes, nor what its port does (R303, R314). -/
structure OffStates (f : Field) : Prop extends OffLanes f where
  sticky : ∀ q, f.key ≠ (F.EVT_STICKY q).key
  portState : ∀ i j, f.key ≠ (F.PORT_STAT_state i j).key
  spareReady : ∀ i j, f.key ≠ (F.PORT_STAT_spare_ready i j).key

theorem OffLanes.laneGo {f : Field} (h : OffLanes f) {v : Nat} (hv : 1 < v) (g j : Nat) (s : State) :
    (laneGo g j v s).g f = s.g f := by
  rw [laneGo_of_started hv, g_setB_other _ _ (h.laneSpare g j), g_setF_other _ _ (h.laneState g j)]

/-- In every 32 bytes of the register map what makes a register none of these begins at five bits (R53, R303, R314). -/
theorem offStates_of_bits {f : Field} (h : ∀ b ∈ [86, 93, 155, 157, 160], f.key % 256 ≠ b) : OffStates f := by
  simp only [List.forall_mem_cons, List.not_mem_nil, false_implies, implies_true, and_true] at h
  refine ⟨⟨?_, ?_⟩, ?_, ?_, ?_⟩ <;> intros <;> simp <;> omega

theorem offLanes_portState (p : Nat) : OffLanes (F.PORT_STAT_state (p / 8) (p % 8)) := by
  constructor <;> intros <;> simp <;> omega

theorem OffStates.portEval {f : Field} (h : OffStates f) (p : Nat) (s : State) : (portEval p s).g f = s.g f := by
  have hgo (v : Nat) : (portGo p v s).g f = s.g f := g_portGo_other _ _ _ (h.portState _ _) (h.sticky _)
  obtain he | ⟨-, he | he⟩ | ⟨-, j, -, he⟩ := portEval_cases p s <;> rw [he]
  · exact hgo 3
  · rw [g_of_fields (openWindow_fields _ _), hgo]
  · rw [g_spareReady_other _ _ (h.spareReady _ _), h.laneGo (by omega)]

/-- R317: a port that is UP looks at its lanes and stays UP. -/
theorem portState_portEval_of_up {p : Nat} {s : State} (hup : portState s p = 4) : portState (portEval p s) p = 4 := by
  obtain he | ⟨hwait, -⟩ | ⟨-, j, -, he⟩ := portEval_cases p s
  · rw [he, hup]
  · omega
  · rw [he, portState, g_spareReady_other _ _ (by simp), (offLanes_portState p).laneGo (by omega)]
    exact hup

/-- R317, R323: a READY lane stays READY or becomes its port's spare. -/
theorem laneState_portEval_of_ready {g j : Nat} (p : Nat) {s : State} (hready : laneState s g j = 4) :
    laneState (portEval p s) g j = 4 ∨ laneState (portEval p s) g j = 6 := by
  have hgo (v : Nat) : laneState (portGo p v s) g j = 4 := (g_portGo_other _ _ _ (by simp; omega) (by simp; omega)).trans hready
  obtain he | ⟨-, he | he⟩ | ⟨-, i, -, he⟩ := portEval_cases p s <;> rw [he]
  · exact .inl hready
  · exact .inl (hgo 3)
  · exact .inl ((g_of_fields (openWindow_fields _ _) _).trans (hgo 2))
  · have hspared (u : State) : laneState (spareReady p u) g j = laneState u g j := g_spareReady_other _ _ (by simp; omega)
    rw [hspared]
    by_cases hkey : (F.HL_LANE_STAT_state g j).key = (F.HL_LANE_STAT_state (portGroup s.inForce p) i).key
    · exact .inr ((laneState_of_key hkey _).trans (laneState_laneGo_same (by omega) _ _ _))
    · exact .inl ((laneState_laneGo_other _ _ hkey).trans hready)

theorem StickyKept.portEval {s0 s : State} (h : StickyKept s0 s) (p : Nat) : StickyKept s0 (portEval p s) := by
  obtain he | ⟨-, he | he⟩ | ⟨-, j, -, he⟩ := portEval_cases p s <;> rw [he]
  · exact h
  · exact h.portGo _ _
  · exact (h.portGo p 2).of_fields (openWindow_fields _ _)
  · exact (h.laneGo _ _ _).spareReady _

/-- R320, R512: a port that looks at its lanes keeps all but what its window has seen and the time it has had no spare. -/
theorem portSt_portEval (p : Nat) (s : State) : ∃ b v x l,
    portSt (portEval p s) p = { portSt s p with bareAt := b, anyValid := v, badVersion := x, badLanes := l } := by
  obtain he | ⟨-, he | he⟩ | ⟨-, j, -, he⟩ := portEval_cases p s <;> rw [he]
  · exact ⟨_, _, _, _, rfl⟩
  · exact ⟨_, _, _, _, portSt_portGo _ _ _ _⟩
  · exact ⟨_, _, _, _, by rw [portSt_openWindow, portSt_portGo]⟩
  · obtain ⟨b, hb⟩ := portSt_spareReady p (laneGo (portGroup s.inForce p) j 6 s)
    exact ⟨b, _, _, _, by rw [hb, portSt_laneGo]⟩

/-! ## A lane that becomes READY (R305, R308) -/

/-- R305: a lane is READY, and a retrain of it is over, before its port looks at it. -/
def laneReadied (g j : Nat) (s : State) : State :=
  let s := laneGo g j 4 s
  let s := if Tbl.get false s.lanes.retrain (8 * g + j) && s.cur (F.HL_GRP_CTRL_iface g) == 1 then State.evt (0x90 + g) 2 s else s
  { s with lanes := { s.lanes with retrain := Tbl.set false s.lanes.retrain (8 * g + j) false } }

theorem laneReady_cases (g j : Nat) (s : State) :
    laneReady g j s = laneReadied g j s ∨ ∃ p, laneReady g j s = portEval p (laneReadied g j s) := by
  generalize hout : laneReady g j s = out
  unfold laneReady at hout
  extract_lets _ _ _ _ u at hout
  change out = u ∨ ∃ p, out = portEval p u
  clear_value u
  subst hout
  cases portOf u g j with
  | none => exact .inl rfl
  | some p => exact .inr ⟨p, rfl⟩

theorem g_laneReadied (g j : Nat) (s : State) {f : Field} (hsticky : f.key ≠ (F.EVT_STICKY (0x90 + g)).key) :
    (laneReadied g j s).g f = (laneGo g j 4 s).g f := by
  unfold laneReadied
  dsimp only
  split
  · exact g_evt_other _ _ _ hsticky
  · rfl

theorem OffStates.laneReady {f : Field} (h : OffStates f) (g j : Nat) (s : State) : (laneReady g j s).g f = s.g f := by
  have hreadied : (laneReadied g j s).g f = s.g f := (g_laneReadied g j s (h.sticky _)).trans (h.laneGo (by omega) g j s)
  obtain he | ⟨p, he⟩ := laneReady_cases g j s <;> rw [he]
  · exact hreadied
  · rw [h.portEval, hreadied]

/-- R305, R323: a lane that has become READY is READY, or the spare of its port. -/
theorem laneState_laneReady (g j : Nat) (s : State) : laneState (laneReady g j s) g j = 4 ∨ laneState (laneReady g j s) g j = 6 := by
  have hreadied : laneState (laneReadied g j s) g j = 4 :=
    (g_laneReadied g j s (by simp; omega)).trans (laneState_laneGo_same (by omega) g j s)
  obtain he | ⟨p, he⟩ := laneReady_cases g j s <;> rw [he]
  · exact .inl hreadied
  · exact laneState_portEval_of_ready p hreadied

/-! ## The polarity of a receive pair (R308) -/

theorem g_polarity_other (g j : Nat) (inverted : Bool) (s : State) {f : Field}
    (hinv : f.key ≠ (F.HL_LANE_STAT_rx_inverted g j).key) (hsticky : f.key ≠ (F.EVT_STICKY (0x90 + g)).key) :
    (polarity g j inverted s).g f = s.g f := by
  have hset (b : Bool) : (s.setB (F.HL_LANE_STAT_rx_inverted g j) b).g f = s.g f := g_setB_other _ _ hinv
  unfold polarity
  split
  · split
    · rw [g_evt_other _ _ _ hsticky, hset]
    · exact hset _
  · exact hset _
  · exact hset _

@[simp] theorem polarity_inForce (g j : Nat) (inverted : Bool) (s : State) : (polarity g j inverted s).inForce = s.inForce := by
  unfold polarity
  repeat' split
  all_goals simp

@[simp] theorem polarity_lanes (g j : Nat) (inverted : Bool) (s : State) : (polarity g j inverted s).lanes = s.lanes := by
  unfold polarity
  repeat' split
  all_goals simp

/-! ## The commands of a lane (R305 to R308) -/

/-- R305: signal on a lane in DETECT. -/
theorem exec_laneSignalDetect_moves {k : Fin 32} {s : State} (hdetect : laneOf s k = 1) : ∃ t, exec (.laneSignalDetect k) s = .next t ∧
    laneOf t k = 2 ∧ t.on (F.HL_LANE_STAT_sig_det (k.val / 8) (k.val % 8)) = true := by
  refine ⟨_, if_pos hdetect, ?_, on_setB _ _ _ rfl⟩
  rw [laneOf, laneState, g_setB_other _ _ (by simp)]
  exact laneState_laneGo_same (by omega) _ _ _

/-- R305, R308: a receiver that has converged shows its lock, its SNR and its polarity. -/
def converged (g j : Nat) (inverted : Bool) (snr : Byte) (s : State) : State :=
  polarity g j inverted ((s.setB (F.HL_LANE_STAT_cdr_lock g j) true).setF (F.HL_LANE_STAT_snr g j) snr.toNat)

theorem converged_lock (g j : Nat) (inverted : Bool) (snr : Byte) (s : State) :
    (converged g j inverted snr s).g (F.HL_LANE_STAT_cdr_lock g j) = 1 := by
  rw [converged, g_polarity_other _ _ _ _ (by simp) (by simp; omega), g_setF_other _ _ (by simp), g_setB_same _ _ _ (by simp)]
  rfl

theorem converged_snr (g j : Nat) (inverted : Bool) (snr : Byte) (s : State) :
    (converged g j inverted snr s).g (F.HL_LANE_STAT_snr g j) = snr.toNat := by
  rw [converged, g_polarity_other _ _ _ _ (by simp) (by simp; omega), g_setF_same]
  exact Nat.mod_eq_of_lt snr.isLt

theorem offStates_cdr_lock (g j : Nat) : OffStates (F.HL_LANE_STAT_cdr_lock g j) := offStates_of_bits (by simp; omega)

theorem offStates_snr (g j : Nat) : OffStates (F.HL_LANE_STAT_snr g j) := offStates_of_bits (by simp; omega)

theorem offStates_taps (g j : Nat) : OffStates (F.HL_LANE_TXFFE_ACT_taps g j) := offStates_of_bits (by simp; omega)

/-- R305, R308: of the interface it depends whether a lane trains first. -/
theorem exec_cdrConverged_of_cdr {k : Fin 32} {inverted : Bool} {snr : Byte} {s : State} (hcdr : laneOf s k = 2) :
    exec (.cdrConverged k inverted snr) s = .next (if s.cur (F.HL_GRP_CTRL_iface (k.val / 8)) = 1
      then (laneGo (k.val / 8) (k.val % 8) 3 (converged (k.val / 8) (k.val % 8) inverted snr s)).setB
        (F.HL_LANE_STAT_sig_det (k.val / 8) (k.val % 8)) true
      else laneReady (k.val / 8) (k.val % 8) (converged (k.val / 8) (k.val % 8) inverted snr s)) := by
  have hcur : (converged (k.val / 8) (k.val % 8) inverted snr s).cur (F.HL_GRP_CTRL_iface (k.val / 8)) =
      s.cur (F.HL_GRP_CTRL_iface (k.val / 8)) := by
    simp [State.cur, converged]
  rw [exec_cdrConverged, execCdrConverged]
  dsimp only
  rw [if_pos hcdr, ← hcur]
  rfl

theorem exec_cdrConverged_moves {k : Fin 32} {inverted : Bool} {snr : Byte} {s : State} (hcdr : laneOf s k = 2) :
    ∃ t, exec (.cdrConverged k inverted snr) s = .next t ∧
      (s.cur (F.HL_GRP_CTRL_iface (k.val / 8)) = 1 → laneOf t k = 3) ∧
      (s.cur (F.HL_GRP_CTRL_iface (k.val / 8)) ≠ 1 → laneOf t k = 4 ∨ laneOf t k = 6) ∧
      t.on (F.HL_LANE_STAT_cdr_lock (k.val / 8) (k.val % 8)) = true ∧
      t.g (F.HL_LANE_STAT_snr (k.val / 8) (k.val % 8)) = snr.toNat := by
  have hlock := converged_lock (k.val / 8) (k.val % 8) inverted snr s
  have hsnr := converged_snr (k.val / 8) (k.val % 8) inverted snr s
  refine ⟨_, exec_cdrConverged_of_cdr hcdr, ?_⟩
  by_cases hiface : s.cur (F.HL_GRP_CTRL_iface (k.val / 8)) = 1
  · rw [if_pos hiface]
    refine ⟨fun _ => ?_, fun h => absurd hiface h, ?_, ?_⟩
    · rw [laneOf, laneState, g_setB_other _ _ (by simp)]
      exact laneState_laneGo_same (by omega) _ _ _
    · rw [State.on, g_setB_other _ _ (by simp), (offStates_cdr_lock _ _).laneGo (by omega), hlock]
      rfl
    · rw [g_setB_other _ _ (by simp), (offStates_snr _ _).laneGo (by omega), hsnr]
  · rw [if_neg hiface]
    refine ⟨fun h => absurd h hiface, fun _ => laneState_laneReady _ _ _, ?_, ?_⟩
    · rw [State.on, (offStates_cdr_lock _ _).laneReady, hlock]
      rfl
    · rw [(offStates_snr _ _).laneReady, hsnr]

/-- R305: a receiver that does not converge in time. -/
theorem exec_cdrTimeout_moves {k : Fin 32} {s : State} (hcdr : laneOf s k = 2) :
    ∃ t, exec (.cdrTimeout k) s = .next t ∧ laneOf t k = 1 :=
  ⟨_, if_pos hcdr, laneState_laneGo_same (by omega) _ _ _⟩

/-- R305, R307: training that completes leaves its taps. -/
theorem exec_trainingComplete_moves {k : Fin 32} {taps : Word} {s : State} (hok : tapsOk taps = true) (htrain : laneOf s k = 3) :
    ∃ t, exec (.trainingComplete k taps) s = .next t ∧ (laneOf t k = 4 ∨ laneOf t k = 6) ∧
      t.g (F.HL_LANE_TXFFE_ACT_taps (k.val / 8) (k.val % 8)) = taps.toNat := by
  refine ⟨laneReady (k.val / 8) (k.val % 8) (s.setF (F.HL_LANE_TXFFE_ACT_taps (k.val / 8) (k.val % 8)) taps.toNat), ?_,
    laneState_laneReady _ _ _, ?_⟩
  · rw [exec_trainingComplete, execTrainingComplete, if_neg (by simp [hok])]
    exact if_pos htrain
  · rw [(offStates_taps _ _).laneReady, g_setF_same]
    exact Nat.mod_eq_of_lt taps.isLt

/-- R305: training that fails. -/
theorem exec_trainFail_moves {k : Fin 32} {s : State} (htrain : laneOf s k = 3) :
    ∃ t, exec (.trainFail k) s = .next t ∧ laneOf t k = 1 ∧ t.sticky (0x90 + k.val / 8) 1 := by
  refine ⟨_, if_pos htrain, ?_, sticky_evt _ _ _ (by omega)⟩
  rw [laneOf, laneState, g_evt_other _ _ _ (by simp; omega)]
  exact laneState_laneGo_same (by omega) _ _ _

/-! ## What becomes of a port whose lane fails (R318, R321 to R323) -/

/-- R318: a port leaves UP, before its lanes return to READY. -/
def portLeft (p v : Nat) (s : State) : State :=
  modPort p (fun q => { q with request := none, acked := false }) (portEvt p 1 (portCount p 11 1 (flexoLof p true (portGo p v s))))

/-- R305: the lanes of a port that carried data return to READY. -/
def lanesReturned (g : Nat) (l : List Nat) (s : State) : State :=
  s.forEach l fun j s => if laneState s g j = 5 then laneGo g j 4 s else s

theorem portLeaveUp_eq (p v : Nat) (s : State) :
    portLeaveUp p v s = lanesReturned (portGroup s.inForce p) (portLanes (portLeft p v s) p) (portLeft p v s) := rfl

theorem OffLanes.lanesReturned {f : Field} (h : OffLanes f) (g : Nat) (l : List Nat) (s : State) :
    (lanesReturned g l s).g f = s.g f :=
  forEach_view_unchanged (·.g f) _ (fun j _ u => by
    split
    · exact h.laneGo (by omega) g j u
    · rfl) s

theorem StickyKept.portCount {s0 s : State} (h : StickyKept s0 s) (p c n : Nat) (hc : c < 16) : StickyKept s0 (portCount p c n s) :=
  h.bump n fun q => by simp; omega

theorem lanesReturned_stickyKept (g : Nat) (l : List Nat) (s : State) : StickyKept s (lanesReturned g l s) := by
  refine (StickyKept.refl s).forEach _ _ fun j u hu => ?_
  split
  · exact hu.laneGo _ _ _
  · exact hu

theorem StickyKept.portLeaveUp {s0 s : State} (h : StickyKept s0 s) (p v : Nat) : StickyKept s0 (portLeaveUp p v s) := by
  have hleft : StickyKept s0 (portLeft p v s) :=
    ((((h.portGo p v).setB _ fun q => by simp; omega).portCount p 11 1 (by omega)).portEvt p 1).of_fields (modPort_fields _ _ _)
  rw [portLeaveUp_eq]
  exact hleft.trans (lanesReturned_stickyKept _ _ _)

theorem StickyKept.portFails {s0 s : State} (h : StickyKept s0 s) (p lost : Nat) : StickyKept s0 (portFails p lost s) := by
  have hloss := (h.portLeaveUp p 1).loss (f := F.PORT_CNT_count (p / 8) (p % 8) 5) lost fun q => by simp; omega
  unfold Sys2Proof.Machine.portFails
  dsimp only
  split
  · exact hloss
  · exact hloss.setB _ fun q => by simp; omega

theorem sendWith_fields (p msg lane seq : Nat) (s : State) :
    (sendWith p msg lane seq s).fields = (s.setB (F.PORT_STAT_tx_asleep (p / 8) (p % 8)) (msg == 3)).fields := by
  unfold sendWith
  dsimp only
  split <;> rfl

theorem sendSet_fields (p msg lane : Nat) (s : State) :
    (sendSet p msg lane s).fields = (s.setB (F.PORT_STAT_tx_asleep (p / 8) (p % 8)) (msg == 3)).fields := sendWith_fields _ _ _ _ _

theorem StickyKept.sendSet {s0 s : State} (h : StickyKept s0 s) (p msg lane : Nat) : StickyKept s0 (sendSet p msg lane s) :=
  (h.setB _ fun q => by simp; omega).of_fields (sendSet_fields p msg lane s)

/-- R322: the map names the spare for logical lane `f`, and the spare carries data. -/
def spareMapped (p f sp : Nat) (s : State) : State :=
  let g := portGroup s.inForce p
  let m := s.g (F.PORT_LANEMAP_map (p / 8) (p % 8))
  (laneGo g sp 5 (s.setF (F.PORT_LANEMAP_map (p / 8) (p % 8)) (m - m / 16 ^ f % 16 * 16 ^ f + sp * 16 ^ f))).setF
    (F.HL_LANE_STAT_far_lane g sp) f

/-- R322: the lane given up is the port's spare from now on. -/
def laneGivenUp (p old : Nat) (s : State) : State :=
  (modPort p (fun q => { q with spare := some old, request := none, acked := false }) s).setB
    (F.PORT_STAT_spare_used (p / 8) (p % 8)) true

/-- R322: where a port has a spare it takes the place of the lane. -/
theorem substitute_of_spare {p sp : Nat} (f : Nat) {s : State} (hsp : portSpare s p = some sp) :
    substitute p f s = State.evt (0x90 + portGroup s.inForce p) 4 (portEval p (spareReady p
      (laneGivenUp p (s.g (F.PORT_LANEMAP_map (p / 8) (p % 8)) / 16 ^ f % 16) (spareMapped p f sp s)))) := by
  unfold substitute
  rw [hsp]
  rfl

theorem substitute_of_none {p : Nat} (f : Nat) {s : State} (hsp : portSpare s p = none) : substitute p f s = s := by
  unfold substitute
  rw [hsp]

theorem StickyKept.substitute {s0 s : State} (h : StickyKept s0 s) (p f : Nat) : StickyKept s0 (substitute p f s) := by
  cases hsp : portSpare s p with
  | none => rwa [substitute_of_none f hsp]
  | some sp =>
    have hmapped : StickyKept s0 (spareMapped p f sp s) :=
      ((h.setF _ fun q => by simp; omega).laneGo _ _ _).setF _ fun q => by simp; omega
    have hgiven : StickyKept s0 (laneGivenUp p (s.g (F.PORT_LANEMAP_map (p / 8) (p % 8)) / 16 ^ f % 16) (spareMapped p f sp s)) :=
      (hmapped.of_fields (modPort_fields _ _ _)).setB _ fun q => by simp; omega
    rw [substitute_of_spare f hsp]
    exact ((hgiven.spareReady p).portEval p).evt _ _

/-! ## The fault of a lane (R305, R306) -/

/-- R305: the bring-up of lane `k` that follows is a retrain. -/
def retrainNoted (k : Nat) (s : State) : State :=
  { s with lanes := { s.lanes with retrain := Tbl.set false s.lanes.retrain k true } }

@[simp] theorem g_retrainNoted (k : Nat) (s : State) (f : Field) : (retrainNoted k s).g f = s.g f := rfl
@[simp] theorem retrainNoted_inForce (k : Nat) (s : State) : (retrainNoted k s).inForce = s.inForce := rfl
@[simp] theorem retrainNoted_port (k : Nat) (s : State) : (retrainNoted k s).lanes.port = s.lanes.port := rfl

/-- R305, R306: the fault of a lane is counted, and the lane starts anew, before its port is looked at. -/
def laneFaulted (k : Nat) (s : State) : State :=
  State.evt (0x90 + k / 8) 0 (laneGo (k / 8) (k % 8) 1 (retrainNoted k
    (((s.incWrap (F.HL_LANE_STAT_retrains (k / 8) (k % 8)) 1).bump (F.HL_LANE_CNT_count (k / 8) (k % 8) 2) 1).bump
      (F.HL_LANE_CNT_count (k / 8) (k % 8) 3) 1)))

theorem laneFaulted_retrains (k : Nat) (s : State) : (laneFaulted k s).g (F.HL_LANE_STAT_retrains (k / 8) (k % 8)) =
    (s.g (F.HL_LANE_STAT_retrains (k / 8) (k % 8)) + 1) % 256 := by
  rw [laneFaulted, g_evt_other _ _ _ (by simp; omega), g_laneGo_other _ _ _ _ (by simp) (by simp) (by simp) (by simp), g_retrainNoted,
    g_bump_other _ _ (by simp; omega), g_bump_other _ _ (by simp; omega), g_incWrap_same]
  rfl

theorem laneFaulted_sticky (k : Nat) (s : State) : (laneFaulted k s).sticky (0x90 + k / 8) 0 := sticky_evt _ _ _ (by omega)

theorem laneState_laneFaulted (k : Nat) (s : State) : laneState (laneFaulted k s) (k / 8) (k % 8) = 1 := by
  rw [laneFaulted, laneState, g_evt_other _ _ _ (by simp; omega)]
  exact laneState_laneGo_same (by omega) _ _ _

/-- R314: which port has a lane depends on the settings in force, the lane maps and the lanes kept as spares. -/
theorem portOf_congr {s t : State} (hforce : t.inForce = s.inForce) (hport : t.lanes.port = s.lanes.port)
    (hmap : ∀ p, t.g (F.PORT_LANEMAP_map (p / 8) (p % 8)) = s.g (F.PORT_LANEMAP_map (p / 8) (p % 8))) (g j : Nat) :
    portOf t g j = portOf s g j := by
  have hspare (p : Nat) : portSpare t p = portSpare s p := by simp only [portSpare, portSt, State.cur, hforce, hport]
  have hlanes (p : Nat) : portLanes t p = portLanes s p := by simp only [portLanes, hforce, hmap]
  simp only [portOf, hforce, hspare, hlanes]

theorem portOf_laneFaulted (k : Nat) (s : State) (g j : Nat) : portOf (laneFaulted k s) g j = portOf s g j := by
  refine portOf_congr (by simp [laneFaulted]) (by simp [laneFaulted]) (fun p => ?_) g j
  rw [laneFaulted, g_evt_other _ _ _ (by simp; omega), g_laneGo_other _ _ _ _ (by simp; omega) (by simp; omega) (by simp; omega)
    (by simp; omega), g_retrainNoted, g_bump_other _ _ (by simp; omega), g_bump_other _ _ (by simp; omega),
    g_incWrap_other _ _ (by simp; omega)]

/-- R318, R322, R323: what the fault of a lane brings on port `p` that has it: nothing, or another spare_ready, the end of UP, a
substitution at once, or a request for one. -/
inductive FaultBrings (p lost : Nat) (u : State) : State → Prop where
  | nothing : FaultBrings p lost u u
  | spareGone : FaultBrings p lost u (spareReady p u)
  | failsWithoutSpare : FaultBrings p lost u (portFails p lost (spareReady p u))
  | fails : FaultBrings p lost u (portFails p lost u)
  | substitutes : FaultBrings p lost u (State.loss (F.PORT_CNT_count (p / 8) (p % 8) 5) lost (substitute p 0 u))
  | requests (f : Nat) (keep : PortSt → PortSt) : FaultBrings p lost u (modPort p keep (sendSet p 1 f u))

theorem exec_laneFault_brings {k : Fin 32} {lost : Nat} {s : State} (hready : 4 ≤ laneOf s k) : ∃ t, exec (.laneFault k lost) s = .next t ∧
    (portOf s (k.val / 8) (k.val % 8) = none → t = laneFaulted k.val s) ∧ ∃ p, FaultBrings p lost (laneFaulted k.val s) t := by
  rw [exec_laneFault]
  generalize hout : execLaneFault k lost s = out
  unfold execLaneFault at hout
  extract_lets g j _ _ _ _ _ u at hout
  have hport : portOf u g j = portOf s (k.val / 8) (k.val % 8) := portOf_laneFaulted k.val s g j
  change ∃ t, _ ∧ (_ → t = u) ∧ ∃ p, FaultBrings p lost u t
  clear_value u
  rw [if_pos hready, hport] at hout
  subst hout
  cases portOf s (k.val / 8) (k.val % 8) with
  | none => exact ⟨_, rfl, fun _ => rfl, 0, .nothing⟩
  | some p =>
    dsimp only
    split
    · split
      · exact ⟨_, rfl, nofun, p, .failsWithoutSpare⟩
      · exact ⟨_, rfl, nofun, p, .spareGone⟩
    · split
      · exact ⟨_, rfl, nofun, p, .nothing⟩
      · split
        · split
          · exact ⟨_, rfl, nofun, p, .substitutes⟩
          · split
            · exact ⟨_, rfl, nofun, p, .requests _ _⟩
            · exact ⟨_, rfl, nofun, p, .fails⟩
        · exact ⟨_, rfl, nofun, p, .nothing⟩

theorem FaultBrings.stickyKept {p lost : Nat} {u t : State} (h : FaultBrings p lost u t) : StickyKept u t := by
  have hu := StickyKept.refl u
  cases h with
  | nothing => exact hu
  | spareGone => exact hu.spareReady p
  | failsWithoutSpare => exact (hu.spareReady p).portFails p lost
  | fails => exact hu.portFails p lost
  | substitutes => exact (hu.substitute p 0).loss _ fun q => by simp; omega
  | requests f keep => exact (hu.sendSet p 1 f).of_fields (modPort_fields _ _ _)

/-- The count of a lane's retrains. -/
def retrainParts (g j : Nat) : List Part := [.reg (F.HL_LANE_STAT_retrains g j).key]

/-- R306: nothing that the fault of a lane brings on a port counts as a retrain. -/
theorem FaultBrings.retrains {p lost : Nat} {u t : State} (h : FaultBrings p lost u t) (g j : Nat) :
    t.g (F.HL_LANE_STAT_retrains g j) = u.g (F.HL_LANE_STAT_retrains g j) := by
  have hready : Touches.spareReady (Sparing (retrainParts g j)) p := by
    repeat' first | constructor | (simp [Sparing, retrainParts] <;> omega)
  have hsubst : Touches.substitute (Sparing (retrainParts g j)) p := by
    repeat' first | with_reducible intro _ | constructor | (simp [Sparing, retrainParts] <;> omega)
  have hfails : Touches.portFails (Sparing (retrainParts g j)) p := by
    repeat' first | with_reducible intro _ | constructor | (simp [Sparing, retrainParts] <;> omega)
  have hsend : Touches.sendSet (Sparing (retrainParts g j)) p := by
    repeat' first | constructor | (simp [Sparing, retrainParts] <;> omega)
  have hu := Fits.refl (Sparing (retrainParts g j)) u
  have hfits : Fits (Sparing (retrainParts g j)) u t := by
    cases h with
    | nothing => exact hu
    | spareGone => exact hu.spareReady _ _ hready
    | failsWithoutSpare => exact (hu.spareReady _ _ hready).portFails _ _ _ hfails
    | fails => exact hu.portFails _ _ _ hfails
    | substitutes => exact (hu.substitute _ _ _ hsubst).loss _ _ _ hfails.h_ev hfails.k_PORT_CNT_count
    | requests f keep => exact (hu.sendSet _ _ _ _ hsend).modPort _ _ _ hsend.h_lanes
  exact hfits.g_spared (by simp [retrainParts])

/-- R305, R306: the fault of a lane counts a retrain, whatever it brings on the lane's port. -/
theorem exec_laneFault_counts {k : Fin 32} {lost : Nat} {s : State} (hready : 4 ≤ laneOf s k) : ∃ t, exec (.laneFault k lost) s = .next t ∧
    t.g (F.HL_LANE_STAT_retrains (k.val / 8) (k.val % 8)) = (s.g (F.HL_LANE_STAT_retrains (k.val / 8) (k.val % 8)) + 1) % 256 ∧
    t.sticky (0x90 + k.val / 8) 0 ∧ (portOf s (k.val / 8) (k.val % 8) = none → laneOf t k = 1) := by
  obtain ⟨t, hexec, hnone, p, hbrings⟩ := exec_laneFault_brings (lost := lost) hready
  refine ⟨t, hexec, ?_, hbrings.stickyKept _ _ (by omega) (laneFaulted_sticky _ _), fun h => ?_⟩
  · rw [hbrings.retrains, laneFaulted_retrains]
  · rw [hnone h]
    exact laneState_laneFaulted _ _

/-! ## Capability frames (R308, R320) -/

theorem beNat_lt (b : List Byte) (i n : Nat) : beNat b i n < 256 ^ n := by
  induction n generalizing i with
  | zero => simp [beNat]
  | succ n ih =>
    have hbyte : byteAt b i * 256 ^ n ≤ 255 * 256 ^ n := Nat.mul_le_mul_right _ (by have := byteAt_lt b i; omega)
    have hrest := ih (i + 1)
    rw [beNat, Nat.pow_succ]
    omega

/-- R317, R320: the end of the exchange leaves what the lanes have received. -/
theorem exchEval_exch (p : Nat) (s : State) : (exchEval p s).lanes.exch = s.lanes.exch := by
  unfold exchEval portEvt
  dsimp only
  split
  · simp
  · rfl

/-- The partner of port `p` as its register shows it. -/
def partnerParts (p : Nat) : List Part :=
  [.reg (F.PORT_PARTNER_tag (p / 8) (p % 8)).key, .reg (F.PORT_PARTNER_port (p / 8) (p % 8)).key]

theorem exchEval_partner (p : Nat) (s : State) {f : Field} (hf : Part.reg f.key ∈ partnerParts p) : (exchEval p s).g f = s.g f := by
  have tch : Touches.exchEval (Sparing (partnerParts p)) p := by
    repeat' first | constructor | (simp [Sparing, partnerParts] <;> omega)
  exact (Fits.exchEval _ _ (.refl _ s) tch).g_spared hf

/-- R320: a valid frame adds to the row of valid ones of its lane. -/
theorem capValid_valid (k p : Nat) (b : List Byte) (s : State) :
    (Tbl.get {} (capValid k p b s).lanes.exch k).valid = (Tbl.get {} s.lanes.exch k).valid + 1 := by
  unfold capValid
  dsimp only
  rw [exchEval_exch]
  split <;> simp [setExch]

/-- R320: a valid frame shows the partner that sent it. -/
theorem capValid_partner (k p : Nat) (b : List Byte) (s : State) :
    (capValid k p b s).g (F.PORT_PARTNER_tag (p / 8) (p % 8)) = beNat b 8 3 ∧
      (capValid k p b s).g (F.PORT_PARTNER_port (p / 8) (p % 8)) = byteAt b 11 := by
  unfold capValid
  dsimp only
  constructor
  · rw [exchEval_partner _ _ (by simp [partnerParts]), g_setF_other _ _ (by simp), g_setF_same]
    exact Nat.mod_eq_of_lt (beNat_lt b 8 3)
  · rw [exchEval_partner _ _ (by simp [partnerParts]), g_setF_same]
    exact Nat.mod_eq_of_lt (byteAt_lt b 11)

/-- R320: a frame of this version and of the port's width is a valid one. -/
theorem capTake_of_valid {k p : Nat} {inverted : Bool} {b : List Byte} {s : State} (hversion : byteAt b 4 = 1)
    (hlanes : byteAt b 7 = portWidth s.inForce p) : ∃ u, u.lanes.exch = s.lanes.exch ∧ capTake k p inverted b s = capValid k p b u := by
  have hpol : (if inverted then polarity (k / 8) (k % 8) true s else s).lanes = s.lanes ∧
      (if inverted then polarity (k / 8) (k % 8) true s else s).inForce = s.inForce := by
    cases inverted <;> simp
  unfold capTake
  dsimp only
  generalize (if inverted = true then polarity (k / 8) (k % 8) true s else s) = u at hpol ⊢
  obtain ⟨hkept, hforce⟩ := hpol
  rw [modPort_inForce, hforce, if_pos (by simp [hversion, hlanes])]
  exact ⟨_, by rw [modPort_exch, hkept], rfl⟩

section Capability

variable {k : Fin 32} {marker : Word} {version lane flags lanes : Byte} {tag : BitVec 24} {port : Byte} {tail : Word} {p : Nat} {s : State}

/-- R320: a frame that can be read, of this version and of the port's width, is counted and shows the partner. -/
theorem exec_capabilityFrame_counts {inverted : Bool} {b : List Byte} (hport : portOf s (k.val / 8) (k.val % 8) = some p)
    (hexch : portState s p = 2) (hread : capRead (capBits marker version lane flags lanes tag port tail) = some (inverted, b))
    (hversion : byteAt b 4 = 1) (hlanes : byteAt b 7 = portWidth s.inForce p) :
    ∃ t, exec (.capabilityFrame k marker version lane flags lanes tag port tail) s = .next t ∧
      (Tbl.get {} t.lanes.exch k.val).valid = (Tbl.get {} s.lanes.exch k.val).valid + 1 ∧
      t.g (F.PORT_PARTNER_tag (p / 8) (p % 8)) = beNat b 8 3 ∧ t.g (F.PORT_PARTNER_port (p / 8) (p % 8)) = byteAt b 11 := by
  obtain ⟨u, hkept, htake⟩ := capTake_of_valid (k := k.val) (inverted := inverted) hversion hlanes
  refine ⟨capValid k.val p b u, ?_, by rw [capValid_valid, hkept], capValid_partner _ _ _ _⟩
  rw [exec_capabilityFrame, execCapabilityFrame, hport]
  dsimp only
  rw [if_neg (not_not_intro hexch), hread]
  dsimp only
  rw [htake]

/-- R320: a frame that cannot be read ends the row of valid ones and shows nothing. -/
theorem exec_capabilityFrame_restarts (hport : portOf s (k.val / 8) (k.val % 8) = some p) (hexch : portState s p = 2)
    (hread : capRead (capBits marker version lane flags lanes tag port tail) = none) :
    ∃ t, exec (.capabilityFrame k marker version lane flags lanes tag port tail) s = .next t ∧
      (Tbl.get {} t.lanes.exch k.val).valid = 0 ∧ t.fields = s.fields := by
  refine ⟨capBroken k.val s, ?_, by simp [capBroken, setExch], rfl⟩
  rw [exec_capabilityFrame, execCapabilityFrame, hport]
  dsimp only
  rw [if_neg (not_not_intro hexch), hread]

end Capability

/-- Settles O37, command by command: a lane moves by `laneGo`, becomes READY by `laneReady`, and what a port makes of it changes neither
what its registers show of the receiver nor a sticky event. -/
theorem lanesMoveStates : Obligations.LanesMoveStates :=
  ⟨fun _ _ => exec_laneSignalDetect_moves, fun _ _ _ _ => exec_cdrConverged_moves, fun _ _ => exec_cdrTimeout_moves,
    fun _ _ _ => exec_trainingComplete_moves, fun _ _ => exec_trainFail_moves, fun _ _ _ => exec_laneFault_counts,
    fun _ _ _ _ _ _ _ _ _ _ _ _ _ => exec_capabilityFrame_counts, fun _ _ _ _ _ _ _ _ _ _ _ => exec_capabilityFrame_restarts⟩

end Sys2Proof.Machine

/-! The states of a port, lane sparing and sleep (O38). -/

namespace Sys2Proof.Machine

@[simp] theorem portEvt_inForce (p b : Nat) (s : State) : (portEvt p b s).inForce = s.inForce := State.evt_inForce _ _ _

@[simp] theorem portCount_inForce (p c n : Nat) (s : State) : (portCount p c n s).inForce = s.inForce := rfl

theorem g_portCount_other (p c n : Nat) (s : State) {f : Field} (h : f.key ≠ (F.PORT_CNT_count (p / 8) (p % 8) c).key) :
    (portCount p c n s).g f = s.g f := g_bump_other _ _ h

/-- R314: a counter of a port saturates at its 32 bits. -/
theorem g_portCount_same (p c n : Nat) (s : State) : (portCount p c n s).g (F.PORT_CNT_count (p / 8) (p % 8) c) =
    min (s.g (F.PORT_CNT_count (p / 8) (p % 8) c) + n) 0xFFFFFFFF := g_bump_same _ _ _

/-! ## The end of the exchange window (R317, R320) -/

/-- R320: the result that an exchange window ends with. -/
def windowResult (p : Nat) (s : State) : Nat :=
  if !(portSt s p).anyValid then 2 else if (portSt s p).badVersion then 4 else if (portSt s p).badLanes then 3
  else s.g (F.PORT_STAT_exch_result (p / 8) (p % 8))

/-- R320: the end of an exchange window is counted and shown. -/
def windowOver (p : Nat) (s : State) : State :=
  portEvt p 2 (portCount p 12 1 (s.setF (F.PORT_STAT_exch_result (p / 8) (p % 8)) (windowResult p s)))

/-- R320: a port without a partner aligns as a standard one. -/
def standardTaken (p : Nat) (s : State) : State :=
  (((modPort p (fun q => { q with features := 0 }) s).setF (F.PORT_PARTNER_tag (p / 8) (p % 8)) 0).setF
    (F.PORT_PARTNER_port (p / 8) (p % 8)) 0xFF).setB (F.PORT_STAT_slm_active (p / 8) (p % 8)) false

theorem exec_exchangeWindowExpiry_of_exchange {p : Fin 32} {s : State} (hexch : portState s p.val = 2) :
    exec (.exchangeWindowExpiry p) s = .next (if portSlm s.inForce p.val = 2 then openWindow p.val (windowOver p.val s)
      else portGo p.val 3 (standardTaken p.val (windowOver p.val s))) := by
  have hforce : (windowOver p.val s).inForce = s.inForce := by simp [windowOver]
  rw [exec_exchangeWindowExpiry, execExchangeWindowExpiry]
  dsimp only
  rw [if_pos hexch, ← hforce, apply_ite Host.Outcome.next]
  rfl

theorem windowOver_state (p : Nat) (s : State) : portState (windowOver p s) p = portState s p := by
  rw [windowOver, portState_portEvt, portState, g_portCount_other _ _ _ _ (by simp; omega), g_setF_other _ _ (by simp), portState]

theorem windowOver_result (p : Nat) (s : State) (hnone : (portSt s p).anyValid = false) :
    (windowOver p s).g (F.PORT_STAT_exch_result (p / 8) (p % 8)) = 2 := by
  rw [windowOver, g_portEvt_other _ _ _ (by simp; omega), g_portCount_other _ _ _ _ (by simp; omega), g_setF_same]
  simp [windowResult, hnone]

theorem standardTaken_result (p : Nat) (s : State) : (standardTaken p s).g (F.PORT_STAT_exch_result (p / 8) (p % 8)) =
    s.g (F.PORT_STAT_exch_result (p / 8) (p % 8)) := by
  rw [standardTaken, g_setB_other _ _ (by simp), g_setF_other _ _ (by simp; omega), g_setF_other _ _ (by simp; omega),
    g_modPort]

theorem standardTaken_stickyKept (p : Nat) (s : State) : StickyKept s (standardTaken p s) :=
  ((((StickyKept.refl s).of_fields (modPort_fields _ _ _)).setF _ fun q => by simp; omega).setF _ fun q => by simp; omega).setB _
    fun q => by simp; omega

/-- R317, R320: a window that ends opens anew under the setting that waits for the partner, and else the port aligns. -/
theorem exec_exchangeWindowExpiry_moves {p : Fin 32} {s : State} (hexch : portState s p.val = 2) :
    ∃ t, exec (.exchangeWindowExpiry p) s = .next t ∧ portState t p.val = (if portSlm s.inForce p.val = 2 then 2 else 3) ∧
      ((portSt s p.val).anyValid = false → t.g (F.PORT_STAT_exch_result (p.val / 8) (p.val % 8)) = 2) ∧
      t.sticky (0xA0 + p.val / 8) (3 * (p.val % 8) + 2) := by
  have hsticky : (windowOver p.val s).sticky (0xA0 + p.val / 8) (3 * (p.val % 8) + 2) := sticky_evt _ _ _ (by omega)
  refine ⟨_, exec_exchangeWindowExpiry_of_exchange hexch, ?_⟩
  by_cases hwait : portSlm s.inForce p.val = 2
  · rw [if_pos hwait, if_pos hwait]
    refine ⟨?_, fun hnone => ?_, sticky_of_fields hsticky (openWindow_fields _ _)⟩
    · rw [portState, g_of_fields (openWindow_fields _ _)]
      exact (windowOver_state _ _).trans hexch
    · rw [g_of_fields (openWindow_fields _ _), windowOver_result _ _ hnone]
  · rw [if_neg hwait, if_neg hwait]
    refine ⟨portState_portGo (by omega) _ _, fun hnone => ?_, ?_⟩
    · rw [g_portGo_other _ _ _ (by simp) (by simp; omega), standardTaken_result, windowOver_result _ _ hnone]
    · exact (standardTaken_stickyKept _ _).portGo _ _ _ _ (by omega) hsticky

/-! ## Alignment (R309, R317, R327) -/

/-- R327: the check of the GID tells a FlexO frame of another group. -/
theorem on_gidCheck (p : Nat) (gid : BitVec 20) (s : State) : (gidCheck p gid s).on (F.PORT_STAT_gid_mismatch (p / 8) (p % 8)) =
    (portFlexo s.inForce p && gid.toNat != s.cur (F.PORT_GID_gid (p / 8) (p % 8))) := on_setB _ _ _ rfl

/-- R317: lane `j` of group `g` carries data. -/
def lanesCarry (g : Nat) (l : List Nat) (s : State) : State := s.forEach l fun j s => laneGo g j 5 s

theorem OffLanes.lanesCarry {f : Field} (h : OffLanes f) (g : Nat) (l : List Nat) (s : State) : (lanesCarry g l s).g f = s.g f :=
  forEach_view_unchanged (·.g f) _ (fun j _ u => h.laneGo (by omega) g j u) s

/-- R317, R327: a port has found alignment in frames with GID `gid`, before it is UP. -/
def alignmentFound (p g : Nat) (l : List Nat) (gid : BitVec 20) (s : State) : State :=
  ((lanesCarry g l (gidCheck p gid (flexoLof p false s))).setB (F.PORT_STAT_spare_used (p / 8) (p % 8)) false).setB
    (F.PORT_STAT_rx_local_fault (p / 8) (p % 8)) false

section Aligned

variable (p g : Nat) (l : List Nat) (gid : BitVec 20) (s : State)

theorem alignmentFound_state : portState (alignmentFound p g l gid s) p = portState s p := by
  rw [portState, alignmentFound, g_setB_other _ _ (by simp), g_setB_other _ _ (by simp), (offLanes_portState p).lanesCarry,
    gidCheck, g_setB_other _ _ (by simp), flexoLof, g_setB_other _ _ (by simp), portState]

theorem offStates_spare_used : OffStates (F.PORT_STAT_spare_used (p / 8) (p % 8)) := offStates_of_bits (by simp; omega)

theorem offStates_gid_mismatch : OffStates (F.PORT_STAT_gid_mismatch (p / 8) (p % 8)) := offStates_of_bits (by simp; omega)

theorem alignmentFound_spare_used : (alignmentFound p g l gid s).on (F.PORT_STAT_spare_used (p / 8) (p % 8)) = false := by
  rw [alignmentFound, on_setB_other _ _ (by simp), on_setB _ _ _ rfl]

theorem alignmentFound_gid_mismatch : (alignmentFound p g l gid s).on (F.PORT_STAT_gid_mismatch (p / 8) (p % 8)) =
    (portFlexo s.inForce p && gid.toNat != s.cur (F.PORT_GID_gid (p / 8) (p % 8))) := by
  rw [alignmentFound, on_setB_other _ _ (by simp), on_setB_other _ _ (by simp), State.on,
    (offStates_gid_mismatch p).toOffLanes.lanesCarry]
  exact on_gidCheck p gid _

end Aligned

/-- R317, R323: a port that has found alignment is UP and looks at its lanes. -/
def portUp (p : Nat) (s : State) : State := spareReady p (portEval p (portGo p 4 s))

theorem portState_portUp (p : Nat) (s : State) : portState (portUp p s) p = 4 := by
  rw [portUp, portState, g_spareReady_other _ _ (by simp)]
  exact portState_portEval_of_up (portState_portGo (by omega) _ _)

theorem OffStates.portUp {f : Field} (h : OffStates f) (p : Nat) (s : State) : (portUp p s).g f = s.g f := by
  rw [Machine.portUp, g_spareReady_other _ _ (h.spareReady _ _), h.portEval, g_portGo_other _ _ _ (h.portState _ _) (h.sticky _)]

theorem sticky_portUp {p : Nat} {s : State} (h : portState s p ≠ 4) : (portUp p s).sticky (0xA0 + p / 8) (3 * (p % 8)) :=
  (((StickyKept.refl _).portEval p).spareReady p) _ _ (by omega) (sticky_portGo h)

theorem farLanes_g (p : Nat) (s : State) {f : Field} (h : ∀ g j, f.key ≠ (F.HL_LANE_STAT_far_lane g j).key) :
    (farLanes p s).g f = s.g f :=
  forEach_view_unchanged (·.g f) _ (fun _ _ _ => g_setF_other _ _ (h _ _)) s

@[simp] theorem farLanes_inForce (p : Nat) (s : State) : (farLanes p s).inForce = s.inForce := by
  unfold farLanes
  refine forEach_view_unchanged State.inForce _ ?_ s
  exact fun _ _ _ => rfl

/-- R309: a standard port takes the lane map `m` that the markers give. -/
def lanesMapped (p m : Nat) (s : State) : State :=
  if s.on (F.PORT_STAT_slm_active (p / 8) (p % 8)) then s else farLanes p (s.setF (F.PORT_LANEMAP_map (p / 8) (p % 8)) m)

@[simp] theorem lanesMapped_inForce (p m : Nat) (s : State) : (lanesMapped p m s).inForce = s.inForce := by
  unfold lanesMapped
  split
  · rfl
  · exact farLanes_inForce _ _

theorem portState_lanesMapped (p m : Nat) (s : State) : portState (lanesMapped p m s) p = portState s p := by
  unfold lanesMapped
  split
  · rfl
  · rw [portState, farLanes_g _ _ (fun g j => by simp; omega), g_setF_other _ _ (by simp; omega), portState]

/-- R309, R317: whatever the lane map comes to, a port in ALIGN whose lanes are READY finds alignment. -/
theorem exec_portAligned_of_ready {p : Fin 32} {found : PortAlignment} {s : State} (halign : portState s p.val = 3)
    (hready : ∀ j ∈ portLanes s p.val, 4 ≤ laneState s (portGroup s.inForce p.val) j) : ∃ (m g : Nat) (l : List Nat),
      exec (.portAligned p found) s = .next (portUp p.val (alignmentFound p.val g l found.gid (lanesMapped p.val m s))) := by
  rw [exec_portAligned, execPortAligned]
  dsimp only
  rw [if_pos ⟨halign, List.all_eq_true.2 fun j hj => decide_eq_true (hready j hj)⟩]
  exact ⟨_, _, _, rfl⟩

theorem exec_portAligned_moves {p : Fin 32} {found : PortAlignment} {s : State} (halign : portState s p.val = 3)
    (hready : ∀ j ∈ portLanes s p.val, 4 ≤ laneState s (portGroup s.inForce p.val) j) :
    ∃ t, exec (.portAligned p found) s = .next t ∧ portState t p.val = 4 ∧ t.sticky (0xA0 + p.val / 8) (3 * (p.val % 8)) ∧
      t.on (F.PORT_STAT_spare_used (p.val / 8) (p.val % 8)) = false ∧
      t.on (F.PORT_STAT_gid_mismatch (p.val / 8) (p.val % 8)) =
        (portFlexo s.inForce p.val && found.gid.toNat != s.cur (F.PORT_GID_gid (p.val / 8) (p.val % 8))) := by
  obtain ⟨m, g, l, hexec⟩ := exec_portAligned_of_ready (found := found) halign hready
  refine ⟨_, hexec, portState_portUp _ _, sticky_portUp ?_, ?_, ?_⟩
  · rw [alignmentFound_state, portState_lanesMapped, halign]
    omega
  · rw [State.on, (offStates_spare_used _).portUp]
    exact alignmentFound_spare_used _ _ _ _ _
  · rw [State.on, (offStates_gid_mismatch _).portUp, State.cur, ← lanesMapped_inForce p.val m s]
    exact alignmentFound_gid_mismatch _ _ _ _ _

theorem portLeft_state {v : Nat} (hv : v < 8) (p : Nat) (s : State) : portState (portLeft p v s) p = v := by
  rw [portState, portLeft, g_modPort, g_portEvt_other _ _ _ (by simp; omega), g_portCount_other _ _ _ _ (by simp; omega), flexoLof,
    g_setB_other _ _ (by simp)]
  exact portState_portGo hv _ _

theorem portLeft_count (p v : Nat) (s : State) : (portLeft p v s).g (F.PORT_CNT_count (p / 8) (p % 8) 11) =
    min (s.g (F.PORT_CNT_count (p / 8) (p % 8) 11) + 1) 0xFFFFFFFF := by
  rw [portLeft, g_modPort, g_portEvt_other _ _ _ (by simp; omega), g_portCount_same, flexoLof, g_setB_other _ _ (by simp; omega),
    g_portGo_other _ _ _ (by simp; omega) (by simp; omega)]

theorem portLeft_sticky (p v : Nat) (s : State) : (portLeft p v s).sticky (0xA0 + p / 8) (3 * (p % 8) + 1) :=
  sticky_of_fields (s := portEvt p 1 _) (sticky_evt _ _ _ (by omega)) rfl

/-- R317: a port that loses alignment leaves UP for ALIGN. -/
theorem exec_alignmentLost_moves {p : Fin 32} {s : State} (hup : portState s p.val = 4) :
    ∃ t, exec (.alignmentLost p) s = .next t ∧ portState t p.val = 3 ∧ t.sticky (0xA0 + p.val / 8) (3 * (p.val % 8) + 1) ∧
      t.g (F.PORT_CNT_count (p.val / 8) (p.val % 8) 11) = min (s.g (F.PORT_CNT_count (p.val / 8) (p.val % 8) 11) + 1) 0xFFFFFFFF := by
  have hcount : OffLanes (F.PORT_CNT_count (p.val / 8) (p.val % 8) 11) := by
    constructor <;> intros <;> simp <;> omega
  refine ⟨portLeaveUp p.val 3 s, if_pos hup, ?_, ?_, ?_⟩ <;> rw [portLeaveUp_eq]
  · rw [portState, (offLanes_portState _).lanesReturned]
    exact portLeft_state (by omega) _ _
  · exact lanesReturned_stickyKept _ _ _ _ _ (by omega) (portLeft_sticky _ _ _)
  · rw [hcount.lanesReturned, portLeft_count]

/-! ## Messages between ports (R321 to R324) -/

/-- R321, R324: whether a WAKE goes before it or not, the message goes out last. -/
theorem sendWith_sent_last (p msg lane seq : Nat) (s : State) :
    (portSt (sendWith p msg lane seq s) p).sent.getLast? = some (msg, lane, seq) := by
  unfold sendWith
  dsimp only
  split <;> rw [portSt_modPort_same] <;> rfl

/-- R324: no WAKE goes before SLEEP or WAKE itself. -/
theorem sendSet_sent {msg : Nat} (hmsg : 3 ≤ msg) (p lane : Nat) (s : State) :
    (portSt (sendSet p msg lane s) p).sent = [(msg, lane, ((portSt s p).seq + 1) % 256)] := by
  rw [sendSet, sendWith, if_neg (by omega), portSt_modPort_same, portSt_setB, portSt_modPort_same]

theorem sendSet_asleep (p msg lane : Nat) (s : State) :
    (sendSet p msg lane s).on (F.PORT_STAT_tx_asleep (p / 8) (p % 8)) = (msg == 3) := by
  rw [on_of_fields (sendSet_fields _ _ _ _), on_setB _ _ _ rfl]

/-- R321 to R323: SPARE_REQ is acknowledged, and the lane is among those moved. -/
theorem exec_spareReq_answers {p : Fin 32} {lane : Fin 8} {seq : Byte} {s : State} (hup : portState s p.val = 4)
    (hsparing : (portSt s p.val).features.testBit 0 = true) : ∃ t, exec (.spareReq p lane seq) s = .next t ∧
      lane.val ∈ (portSt t p.val).moved ∧ (portSt t p.val).sent.getLast? = some (2, lane.val, seq.toNat) := by
  refine ⟨_, if_pos (by simp [hup, hsparing]), ?_, ?_⟩ <;> rw [portSt_modPort_same]
  · split
    next hmoved => exact List.contains_iff_mem.1 hmoved
    next => simp
  · exact sendWith_sent_last _ _ _ _ _

/-- R322: SPARE_ACK of the request that runs. -/
theorem exec_spareAck_acknowledges {p : Fin 32} {lane : Fin 8} {seq : Byte} {s : State}
    (hrequest : (portSt s p.val).request = some lane.val) (hseq : (portSt s p.val).reqSeq = seq.toNat) :
    ∃ t, exec (.spareAck p lane seq) s = .next t ∧ (portSt t p.val).acked = true ∧ (portSt t p.val).request = some lane.val := by
  refine ⟨_, if_pos ⟨hrequest, hseq⟩, ?_, ?_⟩ <;> rw [portSt_modPort_same]
  exact hrequest

/-- R321: a request that is not acknowledged is repeated under its own sequence. -/
theorem exec_spareReqRepeat_repeats {p : Fin 32} {f : Nat} {s : State} (hrequest : (portSt s p.val).request = some f)
    (hacked : (portSt s p.val).acked = false) : ∃ t, exec (.spareReqRepeat p) s = .next t ∧
      (portSt t p.val).sent.getLast? = some (1, f, (portSt s p.val).reqSeq) := by
  refine ⟨sendWith p.val 1 f (portSt s p.val).reqSeq s, ?_, sendWith_sent_last _ _ _ _ _⟩
  rw [exec_spareReqRepeat, execSpareReqRepeat, hrequest]
  exact if_neg (by simp [hacked])

/-- R322: once the spare has taken the place of a lane no request runs, and the lane given up is the spare. -/
theorem substitute_portSt {p sp : Nat} (f : Nat) {s : State} (hsp : portSpare s p = some sp) :
    (portSt (substitute p f s) p).request = none ∧
      (portSt (substitute p f s) p).spare = some (s.g (F.PORT_LANEMAP_map (p / 8) (p % 8)) / 16 ^ f % 16) := by
  rw [substitute_of_spare f hsp, portSt_evt]
  obtain ⟨b, v, x, l, heval⟩ := portSt_portEval p (spareReady p
    (laneGivenUp p (s.g (F.PORT_LANEMAP_map (p / 8) (p % 8)) / 16 ^ f % 16) (spareMapped p f sp s)))
  obtain ⟨b', hready⟩ := portSt_spareReady p
    (laneGivenUp p (s.g (F.PORT_LANEMAP_map (p / 8) (p % 8)) / 16 ^ f % 16) (spareMapped p f sp s))
  rw [heval, hready, laneGivenUp, portSt_setB, portSt_modPort_same]
  exact ⟨rfl, rfl⟩

theorem substitute_spare_used {p sp : Nat} (f : Nat) {s : State} (hsp : portSpare s p = some sp) :
    (substitute p f s).g (F.PORT_STAT_spare_used (p / 8) (p % 8)) = 1 := by
  rw [substitute_of_spare f hsp, g_evt_other _ _ _ (by simp; omega), (offStates_spare_used p).portEval,
    g_spareReady_other _ _ (by simp), laneGivenUp, g_setB_same _ _ _ (by simp)]
  rfl

/-- R322: the switch takes the spare. -/
theorem exec_spareSwitch_switches {p : Fin 32} {lost f sp : Nat} {s : State} (hrequest : (portSt s p.val).request = some f)
    (hsp : portSpare s p.val = some sp) : ∃ t, exec (.spareSwitch p lost) s = .next t ∧ (portSt t p.val).request = none ∧
      t.on (F.PORT_STAT_spare_used (p.val / 8) (p.val % 8)) = true ∧
      (portSt t p.val).spare = some (s.g (F.PORT_LANEMAP_map (p.val / 8) (p.val % 8)) / 16 ^ f % 16) := by
  obtain ⟨hnone, hspare⟩ := substitute_portSt f hsp
  refine ⟨State.loss (F.PORT_CNT_count (p.val / 8) (p.val % 8) 5) lost (substitute p.val f s), ?_, ?_, ?_, ?_⟩
  · rw [exec_spareSwitch, execSpareSwitch, hrequest]
  · rw [portSt_loss, hnone]
  · rw [State.on, g_loss_other _ _ _ (by simp; omega), substitute_spare_used f hsp]
    rfl
  · rw [portSt_loss, hspare]

/-! ## Sleep (R324) -/

theorem exec_sleep_sleeps {p : Fin 32} {s : State} (hup : portState s p.val = 4)
    (hoffered : (portSt s p.val).features.testBit 2 = true) :
    ∃ t, exec (.sleep p) s = .next t ∧ t.on (F.PORT_STAT_rx_asleep (p.val / 8) (p.val % 8)) = true :=
  ⟨_, if_pos (by simp [hup, hoffered]), on_setB _ _ _ rfl⟩

theorem exec_wake_wakes (p : Fin 32) (s : State) :
    ∃ t, exec (.wake p) s = .next t ∧ t.on (F.PORT_STAT_rx_asleep (p.val / 8) (p.val % 8)) = false :=
  ⟨_, rfl, on_setB _ _ _ rfl⟩

theorem exec_sleepEntry_sleeps {p : Fin 32} {s : State} (hup : portState s p.val = 4)
    (hoffered : (portSt s p.val).features.testBit 2 = true) (hpacket : portCbr s.inForce p.val = false)
    (hen : s.curOn (F.PORT_CFG_sleep_en (p.val / 8) (p.val % 8)) = true)
    (hawake : s.on (F.PORT_STAT_tx_asleep (p.val / 8) (p.val % 8)) = false) :
    ∃ t, exec (.sleepEntry p) s = .next t ∧ t.on (F.PORT_STAT_tx_asleep (p.val / 8) (p.val % 8)) = true ∧
      (portSt t p.val).sent = [(3, 0, ((portSt s p.val).seq + 1) % 256)] := by
  refine ⟨portCount p.val 6 1 (sendSet p.val 3 0 s), if_pos (by simp [hup, hoffered, hpacket, hen, hawake]), ?_, ?_⟩
  · rw [State.on, g_portCount_other _ _ _ _ (by simp; omega)]
    exact sendSet_asleep _ _ _ _
  · rw [portCount, portSt_bump, sendSet_sent (by omega)]

/-- Settles O38, command by command: a port moves by `portGo` and looks at its lanes by `portEval`, messages go by `sendWith`, and the
spare takes a lane by `substitute`. -/
theorem portsMoveStates : Obligations.PortsMoveStates :=
  ⟨fun _ _ => exec_exchangeWindowExpiry_moves, fun _ _ _ => exec_portAligned_moves, fun _ _ => exec_alignmentLost_moves,
    fun _ _ _ _ => exec_spareReq_answers, fun _ _ _ _ => exec_spareAck_acknowledges, fun _ _ _ => exec_spareReqRepeat_repeats,
    fun _ _ _ _ _ => exec_spareSwitch_switches, fun _ _ => exec_sleep_sleeps, exec_wake_wakes, fun _ _ => exec_sleepEntry_sleeps⟩

end Sys2Proof.Machine

/-! Frames in and out of a port that is UP (O39). -/

namespace Sys2Proof.Machine

/-! ## What datapath events add (R531) -/

theorem incs_datapath_same (s : State) (n inc : Nat) :
    Tbl.get [] (s.datapath n inc).ev.incs n = Tbl.get [] s.ev.incs n ++ [inc] := Tbl.get_set_same _ _ _ _

theorem incs_datapath_other (s : State) (inc : Nat) {n m : Nat} (h : m ≠ n) :
    Tbl.get [] (s.datapath n inc).ev.incs m = Tbl.get [] s.ev.incs m := Tbl.get_set_other _ _ _ _ h

@[simp] theorem msiSend_incs (s : State) (v : Nat) : (s.msiSend v).ev.incs = s.ev.incs := by
  unfold State.msiSend
  split <;> rfl

/-- R87: a vector that sends adds to no datapath event. -/
@[simp] theorem msiRise_incs (s0 s : State) (p : Nat) : (State.msiRise s0 p s).ev.incs = s.ev.incs := by
  unfold State.msiRise
  dsimp only
  split
  · split
    · exact msiSend_incs _ _
    · rfl
  · rfl

@[simp] theorem foldEnd_incs (s : State) (p code kind arg : Nat) (w : FoldWin) : (s.foldEnd p code kind arg w).ev.incs = s.ev.incs := by
  unfold State.foldEnd State.foldEntry
  split <;> rfl

@[simp] theorem foldClose_incs (s : State) (p code kind arg : Nat) : (s.foldClose p code kind arg).ev.incs = s.ev.incs := by
  unfold State.foldClose
  extract_lets past
  have hpast (u : State) : (past u).ev.incs = u.ev.incs := by
    dsimp only [past]
    split
    · split
      · exact foldEnd_incs _ _ _ _ _ _
      · rfl
    · rfl
  exact (hpast _).trans (hpast s)

/-- R518: an entry of the event log adds to no datapath event. -/
@[simp] theorem logFold_incs (s : State) (p code kind n arg : Nat) : (s.logFold p code kind n arg).ev.incs = s.ev.incs := by
  unfold State.logFold State.foldEntry
  dsimp only
  split
  · rfl
  · split <;> exact foldClose_incs _ _ _ _ _

@[simp] theorem logEdge_incs (s : State) (p b : Nat) : (s.logEdge p b).ev.incs = s.ev.incs := by
  unfold State.logEdge
  split
  · exact logFold_incs _ _ _ _ _ _
  · rfl

/-- R54: an event adds to no datapath event. -/
@[simp] theorem evt_incs (p b : Nat) (s : State) : (State.evt p b s).ev.incs = s.ev.incs := by
  rw [State.evt, msiRise_incs, logEdge_incs]
  rfl

/-- R518, R527: a loss adds to no datapath event. -/
@[simp] theorem loss_incs (f : Field) (n : Nat) (s : State) : (State.loss f n s).ev.incs = s.ev.incs := by
  unfold State.loss
  split
  · rfl
  · exact logFold_incs _ _ _ _ _ _

@[simp] theorem smpPass_ev (path port : Nat) (cbr : Bool) (len : Nat) (s : State) : (State.smpPass path port cbr len s).ev = s.ev := by
  unfold State.smpPass
  split <;> rfl

@[simp] theorem smpPass_fields (path port : Nat) (cbr : Bool) (len : Nat) (s : State) :
    (State.smpPass path port cbr len s).fields = s.fields := by
  unfold State.smpPass
  split <;> rfl

@[simp] theorem smpPass_inForce (path port : Nat) (cbr : Bool) (len : Nat) (s : State) :
    (State.smpPass path port cbr len s).inForce = s.inForce := by
  unfold State.smpPass
  split <;> rfl

/-- R538: the sampler changes no register. -/
@[simp] theorem g_smpPass (path port : Nat) (cbr : Bool) (len : Nat) (s : State) (f : Field) :
    (State.smpPass path port cbr len s).g f = s.g f := g_of_fields (by simp) f

@[simp] theorem portCount_ev (p c n : Nat) (s : State) : (portCount p c n s).ev = s.ev := rfl

/-- R531: a frame is one unit of datapath event `n`, and its length one of the next. -/
def frameCounted (n len : Nat) (s : State) : State := (s.datapath n 1).datapath (n + 1) len

theorem frameCounted_incs (n len : Nat) (s : State) :
    Tbl.get [] (frameCounted n len s).ev.incs (n + 1) = Tbl.get [] s.ev.incs (n + 1) ++ [len] := by
  rw [frameCounted, incs_datapath_same, incs_datapath_other _ _ (by omega)]

@[simp] theorem g_frameCounted (n len : Nat) (s : State) (f : Field) : (frameCounted n len s).g f = s.g f := rfl
@[simp] theorem frameCounted_inForce (n len : Nat) (s : State) : (frameCounted n len s).inForce = s.inForce := rfl

/-! ## What the receive side finds (R303, R314, R318, R327) -/

/-- R303, R314: what comes with a frame is counted and shown. -/
def lineSeen (p : Nat) (x : PortLine) (s : State) : State := faultsFound p x (fecFound p x s)

/-- The settings in force, and the counts of short and of long frames. -/
def checkParts (p : Nat) : List Part :=
  [.inForce, .reg (F.PORT_CNT_count (p / 8) (p % 8) 1).key, .reg (F.PORT_CNT_count (p / 8) (p % 8) 2).key]

theorem lineSeen_fits (p : Nat) (x : PortLine) (s : State) : Fits (Sparing (checkParts p)) s (lineSeen p x s) := by
  have hfec : Touches.fecFound (Sparing (checkParts p)) p := by
    repeat' first | with_reducible intro _ | constructor | (simp [Sparing, checkParts] <;> omega)
  have hfaults : Touches.faultsFound (Sparing (checkParts p)) p := by
    repeat' first | with_reducible intro _ | constructor | (simp [Sparing, checkParts] <;> omega)
  exact (Fits.fecFound _ _ _ (.refl _ s) hfec).faultsFound _ _ _ hfaults

@[simp] theorem lineSeen_inForce (p : Nat) (x : PortLine) (s : State) : (lineSeen p x s).inForce = s.inForce :=
  (lineSeen_fits p x s).inForce_spared (by simp [checkParts])

@[simp] theorem fecFound_ev (p : Nat) (x : PortLine) (s : State) : (fecFound p x s).ev = s.ev := by
  unfold fecFound
  split
  · rfl
  · refine (forEach_view_unchanged State.ev _ ?_ _).trans (portCount_ev _ _ _ _)
    exact fun _ _ _ => rfl

@[simp] theorem fecFound_inForce (p : Nat) (x : PortLine) (s : State) : (fecFound p x s).inForce = s.inForce := by
  unfold fecFound
  split
  · rfl
  · refine (forEach_view_unchanged State.inForce _ ?_ _).trans (portCount_inForce _ _ _ _)
    exact fun _ _ _ => rfl

/-- R314, R318, R327: the faults are set, and one that comes up is an event. -/
theorem faultsFound_cases (p : Nat) (x : PortLine) (s : State) : ∃ u : State,
    u = gidCheck p x.gid ((s.setB (F.PORT_STAT_rx_local_fault (p / 8) (p % 8)) (!portFlexo s.inForce p && x.localFault)).setB
      (F.PORT_STAT_rx_remote_fault (p / 8) (p % 8)) (!portFlexo s.inForce p && x.remoteFault)) ∧
    (faultsFound p x s = u ∨ faultsFound p x s = portEvt p 1 u) := by
  refine ⟨_, rfl, ?_⟩
  unfold faultsFound
  dsimp only
  split
  · exact .inr rfl
  · exact .inl rfl

@[simp] theorem lineSeen_incs (p : Nat) (x : PortLine) (s : State) : (lineSeen p x s).ev.incs = s.ev.incs := by
  obtain ⟨u, hu, he⟩ := faultsFound_cases p x (fecFound p x s)
  have hev : u.ev = s.ev := by
    rw [hu]
    exact fecFound_ev p x s
  rw [lineSeen]
  obtain he | he := he <;> rw [he]
  · rw [hev]
  · rw [portEvt, evt_incs, hev]

/-- R318: an Ethernet port shows the local fault that its partner signals, a FlexO port none. -/
theorem lineSeen_local_fault (p : Nat) (x : PortLine) (s : State) :
    (lineSeen p x s).on (F.PORT_STAT_rx_local_fault (p / 8) (p % 8)) = (!portFlexo s.inForce p && x.localFault) := by
  obtain ⟨u, hu, he⟩ := faultsFound_cases p x (fecFound p x s)
  have hon : u.on (F.PORT_STAT_rx_local_fault (p / 8) (p % 8)) = (!portFlexo s.inForce p && x.localFault) := by
    rw [hu, gidCheck, on_setB_other _ _ (by simp), on_setB_other _ _ (by simp), on_setB _ _ _ rfl, fecFound_inForce]
  rw [lineSeen]
  obtain he | he := he <;> rw [he]
  · exact hon
  · rw [portEvt, on_evt_other _ _ _ (by simp; omega)]
    exact hon

/-! ## Frames in (R319, R325, R349) -/

section Checked

variable (p len : Nat) (fcsOk : Bool) (s : State)

/-- R325, R531: whatever the MAC finds, the frame has added its length. -/
theorem ingressCheck_incs : Tbl.get [] (ingressCheck p len fcsOk s).2.ev.incs (8 * p + 1) =
    Tbl.get [] s.ev.incs (8 * p + 1) ++ [len] := by
  have hcounted := frameCounted_incs (8 * p) len s
  have hdrop (c : Nat) : Tbl.get [] (State.datapath (portCount p c 1 (frameCounted (8 * p) len s)) (8 * p + 4) 1).ev.incs (8 * p + 1) =
      Tbl.get [] s.ev.incs (8 * p + 1) ++ [len] := by
    rw [incs_datapath_other _ _ (by omega), portCount_ev, hcounted]
  unfold ingressCheck
  dsimp only
  split
  · exact hdrop 1
  · split
    · exact hdrop 2
    · split
      · split
        · exact hcounted
        · exact hdrop 0
      · exact hcounted

/-- R325: a frame below 64 bytes is short. -/
theorem ingressCheck_short (hshort : len < 64) : (ingressCheck p len fcsOk s).2.g (F.PORT_CNT_count (p / 8) (p % 8) 1) =
    min (s.g (F.PORT_CNT_count (p / 8) (p % 8) 1) + 1) 0xFFFFFFFF := by
  unfold ingressCheck
  dsimp only
  rw [if_pos hshort, g_datapath, g_portCount_same]
  rfl

/-- R325: a frame beyond max_frame is long. -/
theorem ingressCheck_long (hlen : 64 ≤ len) (hlong : s.cur (F.PORT_FRAME_max_frame (p / 8) (p % 8)) < len) :
    (ingressCheck p len fcsOk s).2.g (F.PORT_CNT_count (p / 8) (p % 8) 2) =
      min (s.g (F.PORT_CNT_count (p / 8) (p % 8) 2) + 1) 0xFFFFFFFF := by
  have hcur : (State.datapath (State.datapath s (8 * p) 1) (8 * p + 1) len).cur (F.PORT_FRAME_max_frame (p / 8) (p % 8)) < len := hlong
  unfold ingressCheck
  dsimp only
  rw [if_neg (Nat.not_lt.2 hlen), if_pos hcur, g_datapath, g_portCount_same]
  rfl

end Checked

/-- R325, R349: a frame that the MAC has checked goes on, or is dropped where first passes cannot keep up. -/
def ingressTaken (p len : Nat) (overload fcsOk : Bool) (s : State) : State :=
  let c := ingressCheck p len fcsOk s
  let s := State.smpPass 0 p false len c.2
  if c.1 && overload then State.datapath (State.evt 0xB0 11 (clsLoss p 11 s)) (8 * p + 4) 1 else s

theorem ingressTaken_incs (p len : Nat) (overload fcsOk : Bool) (s : State) :
    Tbl.get [] (ingressTaken p len overload fcsOk s).ev.incs (8 * p + 1) = Tbl.get [] s.ev.incs (8 * p + 1) ++ [len] := by
  unfold ingressTaken
  dsimp only
  split
  · rw [incs_datapath_other _ _ (by omega), evt_incs, clsLoss, loss_incs, smpPass_ev, ingressCheck_incs]
  · rw [smpPass_ev, ingressCheck_incs]

/-- A counter of the port shows what the MAC found: a drop of the classifier is counted elsewhere. -/
theorem ingressTaken_count {c : Nat} (hc : c < 16) (p len : Nat) (overload fcsOk : Bool) (s : State) :
    (ingressTaken p len overload fcsOk s).g (F.PORT_CNT_count (p / 8) (p % 8) c) =
      (ingressCheck p len fcsOk s).2.g (F.PORT_CNT_count (p / 8) (p % 8) c) := by
  unfold ingressTaken
  dsimp only
  split
  · rw [g_datapath, g_evt_other _ _ _ (by simp; omega), clsLoss, g_loss_other _ _ _ (by simp; omega), g_smpPass]
  · rw [g_smpPass]

section Ingress

variable {p : Fin 32} {len : Nat} {overload : Bool} {line : PortLine} {s : State}

/-- R319, R325: a CBR port takes every block, a PACKET port that shows a local fault none, and another checks the frame. -/
theorem exec_ingressFrame_of_up (hup : portState s p.val = 4) : exec (.ingressFrame p len overload line) s = .next (
    if portCbr s.inForce p.val then State.smpPass 0 p.val true len (frameCounted (8 * p.val) len (lineSeen p.val line s))
    else if (lineSeen p.val line s).on (F.PORT_STAT_rx_local_fault (p.val / 8) (p.val % 8)) then lineSeen p.val line s
    else ingressTaken p.val len overload line.fcsOk (lineSeen p.val line s)) := by
  rw [exec_ingressFrame, ← lineSeen_inForce p.val line s]
  unfold execIngressFrame
  rw [if_neg (not_not_intro hup), apply_ite Host.Outcome.next, apply_ite Host.Outcome.next, ingressTaken, apply_ite Host.Outcome.next]
  rfl

/-- R325, R531: a frame or block that is taken adds its length, and a short or long frame is counted. -/
theorem exec_ingressFrame_takes (hup : portState s p.val = 4)
    (htaken : portCbr s.inForce p.val = true ∨ portFlexo s.inForce p.val = true ∨ line.localFault = false) :
    ∃ t, exec (.ingressFrame p len overload line) s = .next t ∧
      Tbl.get [] t.ev.incs (8 * p.val + 1) = Tbl.get [] s.ev.incs (8 * p.val + 1) ++ [len] ∧
      (portCbr s.inForce p.val = false → len < 64 → t.g (F.PORT_CNT_count (p.val / 8) (p.val % 8) 1) =
        min (s.g (F.PORT_CNT_count (p.val / 8) (p.val % 8) 1) + 1) 0xFFFFFFFF) ∧
      (portCbr s.inForce p.val = false → 64 ≤ len → s.cur (F.PORT_FRAME_max_frame (p.val / 8) (p.val % 8)) < len →
        t.g (F.PORT_CNT_count (p.val / 8) (p.val % 8) 2) = min (s.g (F.PORT_CNT_count (p.val / 8) (p.val % 8) 2) + 1) 0xFFFFFFFF) := by
  have hfits := lineSeen_fits p.val line s
  refine ⟨_, exec_ingressFrame_of_up hup, ?_⟩
  by_cases hcbr : portCbr s.inForce p.val = true
  · rw [if_pos hcbr]
    refine ⟨?_, fun h => absurd hcbr (by simp [h]), fun h => absurd hcbr (by simp [h])⟩
    rw [smpPass_ev, frameCounted_incs, lineSeen_incs]
  · have hfault : (lineSeen p.val line s).on (F.PORT_STAT_rx_local_fault (p.val / 8) (p.val % 8)) = false := by
      rw [lineSeen_local_fault]
      obtain h | h | h := htaken
      · exact absurd h hcbr
      · simp [h]
      · simp [h]
    rw [if_neg hcbr, if_neg (by simp [hfault])]
    refine ⟨?_, fun _ hshort => ?_, fun _ hlen hlong => ?_⟩
    · rw [ingressTaken_incs, lineSeen_incs]
    · rw [ingressTaken_count (by omega), ingressCheck_short _ _ _ _ hshort, hfits.g_spared (by simp [checkParts])]
    · have hmax : (lineSeen p.val line s).cur (F.PORT_FRAME_max_frame (p.val / 8) (p.val % 8)) < len := by
        rw [State.cur, lineSeen_inForce]
        exact hlong
      rw [ingressTaken_count (by omega), ingressCheck_long _ _ _ _ hlen hmax, hfits.g_spared (by simp [checkParts])]

/-- R319: a PACKET port whose partner signals local fault shows it and takes nothing. -/
theorem exec_ingressFrame_of_local_fault (hup : portState s p.val = 4) (hpacket : portCbr s.inForce p.val = false)
    (heth : portFlexo s.inForce p.val = false) (hlocal : line.localFault = true) :
    ∃ t, exec (.ingressFrame p len overload line) s = .next t ∧
      t.on (F.PORT_STAT_rx_local_fault (p.val / 8) (p.val % 8)) = true ∧
      Tbl.get [] t.ev.incs (8 * p.val + 1) = Tbl.get [] s.ev.incs (8 * p.val + 1) := by
  have hfault : (lineSeen p.val line s).on (F.PORT_STAT_rx_local_fault (p.val / 8) (p.val % 8)) = true := by
    rw [lineSeen_local_fault, heth, hlocal]
    rfl
  refine ⟨lineSeen p.val line s, ?_, hfault, by rw [lineSeen_incs]⟩
  rw [exec_ingressFrame_of_up hup, if_neg (by simp [hpacket]), if_pos hfault]

end Ingress

/-! ## Frames out (R324, R325, R327) -/

/-- R325: whether idle blocks are adjusted depends on the settings in force. -/
theorem idlesAdjusted_of_inForce {s t : State} (h : t.inForce = s.inForce) (p : Nat) : idlesAdjusted t p = idlesAdjusted s p := by
  simp only [idlesAdjusted, State.curOn, State.cur, h]

theorem not_idlesAdjusted_of_packet {s : State} {p : Nat} (h : portCbr s.inForce p = false) : idlesAdjusted s p = false := by
  simp [idlesAdjusted, h]

/-- R325, R327: a block has gone out of a CBR port, its idle blocks adjusted and a slip counted. -/
def blockOut (p len idleAdj : Nat) (idles slips : Bool) (s : State) : State :=
  let s := State.smpPass 1 p true len (frameCounted (8 * p + 2) len s)
  let s := if idles then portCount p 8 idleAdj s else s
  if slips then portCount p 10 1 s else s

theorem blockOut_incs (p len idleAdj : Nat) (idles slips : Bool) (s : State) :
    Tbl.get [] (blockOut p len idleAdj idles slips s).ev.incs (8 * p + 3) = Tbl.get [] s.ev.incs (8 * p + 3) ++ [len] := by
  have hev : (blockOut p len idleAdj idles slips s).ev = (frameCounted (8 * p + 2) len s).ev := by
    rw [← smpPass_ev 1 p true len (frameCounted (8 * p + 2) len s)]
    cases idles <;> cases slips <;> rfl
  rw [hev, frameCounted_incs]

theorem blockOut_idles (p len idleAdj : Nat) (slips : Bool) (s : State) :
    (blockOut p len idleAdj true slips s).g (F.PORT_CNT_count (p / 8) (p % 8) 8) =
      min (s.g (F.PORT_CNT_count (p / 8) (p % 8) 8) + idleAdj) 0xFFFFFFFF := by
  unfold blockOut
  dsimp only
  rw [if_pos rfl]
  split
  · rw [g_portCount_other _ _ _ _ (by simp), g_portCount_same, g_smpPass, g_frameCounted]
  · rw [g_portCount_same, g_smpPass, g_frameCounted]

/-- R324: a frame goes out of a PACKET port, which wakes where it sleeps. -/
def frameOut (p len : Nat) (asleep : Bool) (s : State) : State :=
  State.smpPass 1 p false len (frameCounted (8 * p + 2) len (if asleep then sendSet p 4 0 s else s))

theorem sendSet_ev (p msg lane : Nat) (s : State) : (sendSet p msg lane s).ev = s.ev := by
  unfold sendSet sendWith
  dsimp only
  split <;> rfl

theorem frameOut_incs (p len : Nat) (asleep : Bool) (s : State) :
    Tbl.get [] (frameOut p len asleep s).ev.incs (8 * p + 3) = Tbl.get [] s.ev.incs (8 * p + 3) ++ [len] := by
  rw [frameOut, smpPass_ev, frameCounted_incs]
  cases asleep with
  | false => rfl
  | true => rw [if_pos rfl, sendSet_ev]

/-- R324: once a frame goes out the port is awake. -/
theorem frameOut_awake (p len : Nat) (s : State) :
    (frameOut p len (s.on (F.PORT_STAT_tx_asleep (p / 8) (p % 8))) s).on (F.PORT_STAT_tx_asleep (p / 8) (p % 8)) = false := by
  rw [frameOut, State.on, g_smpPass, g_frameCounted]
  cases hasleep : s.on (F.PORT_STAT_tx_asleep (p / 8) (p % 8)) with
  | false => exact hasleep
  | true => exact sendSet_asleep _ _ _ _

section Egress

variable {p : Fin 32} {len queued idleAdj : Nat} {slip : Bool} {s : State}

theorem exec_egressFrame_of_cbr (hup : portState s p.val = 4) (hcbr : portCbr s.inForce p.val = true) :
    ∃ slips, exec (.egressFrame p len queued idleAdj slip) s = .next (blockOut p.val len idleAdj (idlesAdjusted s p.val) slips s) := by
  have hidles : idlesAdjusted (State.smpPass 1 p.val true len (frameCounted (8 * p.val + 2) len s)) p.val = idlesAdjusted s p.val :=
    idlesAdjusted_of_inForce (by simp) _
  rw [exec_egressFrame, execEgressFrame]
  dsimp only
  rw [if_neg (not_not_intro hup), if_pos hcbr, ← hidles]
  exact ⟨_, rfl⟩

/-- R324: the wake buffer of a sleeping PACKET port overflows, or the frame goes out. -/
theorem exec_egressFrame_of_packet (hup : portState s p.val = 4) (hpacket : portCbr s.inForce p.val = false) :
    exec (.egressFrame p len queued idleAdj slip) s = .next (
      if s.on (F.PORT_STAT_tx_asleep (p.val / 8) (p.val % 8)) = true ∧ 262144 < queued + len then
        State.datapath (portCount p.val 7 1 s) (8 * p.val + 5) 1
      else frameOut p.val len (s.on (F.PORT_STAT_tx_asleep (p.val / 8) (p.val % 8))) s) := by
  rw [exec_egressFrame, execEgressFrame]
  dsimp only
  rw [if_neg (not_not_intro hup), if_neg (by simp [hpacket]), apply_ite Host.Outcome.next]
  simp only [Bool.and_eq_true, decide_eq_true_eq]
  rfl

theorem exec_egressFrame_counts (hup : portState s p.val = 4) : ∃ t, exec (.egressFrame p len queued idleAdj slip) s = .next t ∧
    (portCbr s.inForce p.val = true → Tbl.get [] t.ev.incs (8 * p.val + 3) = Tbl.get [] s.ev.incs (8 * p.val + 3) ++ [len]) ∧
    (idlesAdjusted s p.val = true → t.g (F.PORT_CNT_count (p.val / 8) (p.val % 8) 8) =
      min (s.g (F.PORT_CNT_count (p.val / 8) (p.val % 8) 8) + idleAdj) 0xFFFFFFFF) ∧
    (portCbr s.inForce p.val = false → s.on (F.PORT_STAT_tx_asleep (p.val / 8) (p.val % 8)) = true → 262144 < queued + len →
      t.g (F.PORT_CNT_count (p.val / 8) (p.val % 8) 7) = min (s.g (F.PORT_CNT_count (p.val / 8) (p.val % 8) 7) + 1) 0xFFFFFFFF ∧
      Tbl.get [] t.ev.incs (8 * p.val + 3) = Tbl.get [] s.ev.incs (8 * p.val + 3)) ∧
    (portCbr s.inForce p.val = false → s.on (F.PORT_STAT_tx_asleep (p.val / 8) (p.val % 8)) = false ∨ queued + len ≤ 262144 →
      Tbl.get [] t.ev.incs (8 * p.val + 3) = Tbl.get [] s.ev.incs (8 * p.val + 3) ++ [len] ∧
      t.on (F.PORT_STAT_tx_asleep (p.val / 8) (p.val % 8)) = false) := by
  cases hcbr : portCbr s.inForce p.val with
  | true =>
    obtain ⟨slips, hexec⟩ := exec_egressFrame_of_cbr (len := len) (queued := queued) (idleAdj := idleAdj) (slip := slip) hup hcbr
    refine ⟨_, hexec, fun _ => blockOut_incs _ _ _ _ _ _, fun hidles => ?_, nofun, nofun⟩
    rw [hidles, blockOut_idles]
  | false =>
    have hidles := not_idlesAdjusted_of_packet hcbr
    refine ⟨_, exec_egressFrame_of_packet hup hcbr, nofun, fun h => absurd h (by simp [hidles]), fun _ hasleep hfull => ?_,
      fun _ hgoes => ?_⟩
    · rw [if_pos ⟨hasleep, hfull⟩]
      exact ⟨g_portCount_same _ _ _ _, incs_datapath_other _ _ (by omega)⟩
    · have hroom : ¬ (s.on (F.PORT_STAT_tx_asleep (p.val / 8) (p.val % 8)) = true ∧ 262144 < queued + len) := by
        rintro ⟨hasleep, hfull⟩
        obtain h | h := hgoes
        · simp [hasleep] at h
        · omega
      rw [if_neg hroom]
      exact ⟨frameOut_incs _ _ _ _, frameOut_awake _ _ _⟩

end Egress

/-- Settles O39: what the receive side finds and the MAC checks is counted beside the frame, which adds its length once; a frame out
adds it likewise, unless the wake buffer overflows. -/
theorem portFramesCounted : Obligations.PortFramesCounted :=
  ⟨fun _ _ _ _ _ => exec_ingressFrame_takes, fun _ _ _ _ _ => exec_ingressFrame_of_local_fault,
    fun _ _ _ _ _ _ => exec_egressFrame_counts⟩

end Sys2Proof.Machine

/-! Passes of a packet through the classifier, and its way out (O40). -/

namespace Sys2Proof.Machine

/-! ## Counters and levels of the classifier (R354, R355) -/

@[simp] theorem clsCount_cls (p c : Nat) (s : State) : (clsCount p c s).cls = s.cls := rfl

theorem g_clsCount_same (p c : Nat) (s : State) : (clsCount p c s).g (F.CLS_PORT_CNT_count (p / 8) (p % 8) c) =
    min (s.g (F.CLS_PORT_CNT_count (p / 8) (p % 8) c) + 1) 0xFFFFFFFF := g_bump_same _ _ _

theorem g_clsCount_other (p : Nat) {c d : Nat} (h : d ≠ c) (s : State) :
    (clsCount p c s).g (F.CLS_PORT_CNT_count (p / 8) (p % 8) d) = s.g (F.CLS_PORT_CNT_count (p / 8) (p % 8) d) :=
  g_bump_other _ _ (by simp; omega)

theorem g_clsLoss_same (p c : Nat) (s : State) : (clsLoss p c s).g (F.CLS_PORT_CNT_count (p / 8) (p % 8) c) =
    min (s.g (F.CLS_PORT_CNT_count (p / 8) (p % 8) c) + 1) 0xFFFFFFFF := g_loss_pos _ _ _ one_ne_zero

theorem g_clsLoss_other (p : Nat) {c d : Nat} (h : d ≠ c) (s : State) :
    (clsLoss p c s).g (F.CLS_PORT_CNT_count (p / 8) (p % 8) d) = s.g (F.CLS_PORT_CNT_count (p / 8) (p % 8) d) :=
  g_loss_other _ _ _ (by simp; omega)

/-- An event of page 0xB0 leaves the counters of a port. -/
theorem g_evt_port (b i j c : Nat) (s : State) :
    (State.evt 0xB0 b s).g (F.CLS_PORT_CNT_count i j c) = s.g (F.CLS_PORT_CNT_count i j c) :=
  g_evt_other _ _ _ (by simp; omega)

/-- R354: of the registers the levels of the classifier alone follow its packets. -/
theorem g_clsLevels_other (s : State) {f : Field} (hdrain : f.key ≠ F.CLS_BANK_DRAIN_count.key)
    (hrecirc : f.key ≠ F.CLS_RECIRC_LEVEL_recirc.key) (hreorder : f.key ≠ F.CLS_RECIRC_LEVEL_reorder.key) :
    (clsLevels s).g f = s.g f := by
  have htouch : Touches.clsLevels (Sparing [.reg f.key]) := by
    constructor <;> simp_all [Sparing, Ne.symm]
  exact (Fits.clsLevels s (.refl _ s) htouch).g_spared (by simp)

@[simp] theorem clsLevels_pkts (s : State) : (clsLevels s).cls.pkts = s.cls.pkts := by
  unfold clsLevels
  dsimp only
  split <;> split <;> split <;> rfl

@[simp] theorem setPkts_pkts (l : List Pkt) (s : State) : (setPkts l s).cls.pkts = l := clsLevels_pkts _

theorem g_setPkts_port (l : List Pkt) (s : State) (i j c : Nat) :
    (setPkts l s).g (F.CLS_PORT_CNT_count i j c) = s.g (F.CLS_PORT_CNT_count i j c) :=
  (g_clsLevels_other _ (by simp; omega) (by simp; omega) (by simp; omega)).trans rfl

theorem sticky_clsLevels {p b : Nat} {s : State} (h : s.sticky p b) : (clsLevels s).sticky p b :=
  sticky_of_g h (g_clsLevels_other _ (by simp; omega) (by simp; omega) (by simp; omega))

theorem sticky_setPkts {p b : Nat} {s : State} (l : List Pkt) (h : s.sticky p b) : (setPkts l s).sticky p b :=
  sticky_clsLevels (sticky_of_fields h rfl)

/-! ## What a pass counts and leaves (R330, R336, R352, R353) -/

/-- R330, R335, R353: what a pass counts before it decides: the lookup, corrected words, a length conflict. -/
def passCounted (p : Nat) (second conflict : Bool) (pipe ce : Nat) (s : State) : State :=
  let s := clsCount p (if second then 1 else 0)
    (State.datapath (State.datapath s (768 + pipe) 1) (if second then 775 else 774) 1)
  let s := if ce = 0 then s else State.evt 0xB0 4 (s.bump (F.CLS_CNT_count 0) ce)
  if conflict then State.evt 0xB0 8 (clsCount p 5 s) else s

@[simp] theorem passCounted_cls (p : Nat) (second conflict : Bool) (pipe ce : Nat) (s : State) :
    (passCounted p second conflict pipe ce s).cls = s.cls := by
  unfold passCounted
  dsimp only
  split <;> split <;> simp

theorem g_passCounted_lookups (p : Nat) (second conflict : Bool) (pipe ce : Nat) (s : State) :
    (passCounted p second conflict pipe ce s).g (F.CLS_PORT_CNT_count (p / 8) (p % 8) (if second then 1 else 0)) =
      min (s.g (F.CLS_PORT_CNT_count (p / 8) (p % 8) (if second then 1 else 0)) + 1) 0xFFFFFFFF := by
  have hce (u : State) : (if ce = 0 then u else State.evt 0xB0 4 (u.bump (F.CLS_CNT_count 0) ce)).g
      (F.CLS_PORT_CNT_count (p / 8) (p % 8) (if second then 1 else 0)) =
      u.g (F.CLS_PORT_CNT_count (p / 8) (p % 8) (if second then 1 else 0)) := by
    split
    · rfl
    · rw [g_evt_port, g_bump_other _ _ (by simp; omega)]
  unfold passCounted
  dsimp only
  split
  · rw [g_evt_port, g_clsCount_other _ (by split <;> decide), hce, g_clsCount_same]
    rfl
  · rw [hce, g_clsCount_same]
    rfl

theorem g_passCounted_mismatches (p : Nat) (second conflict : Bool) (pipe ce : Nat) (s : State) :
    (passCounted p second conflict pipe ce s).g (F.CLS_CNT_count 1) = s.g (F.CLS_CNT_count 1) := by
  have hevt (b : Nat) (u : State) : (State.evt 0xB0 b u).g (F.CLS_CNT_count 1) = u.g (F.CLS_CNT_count 1) :=
    g_evt_other _ _ _ (by simp)
  have hcount (c : Nat) (u : State) : (clsCount p c u).g (F.CLS_CNT_count 1) = u.g (F.CLS_CNT_count 1) :=
    g_bump_other _ _ (by simp; omega)
  have hbump (u : State) : (u.bump (F.CLS_CNT_count 0) ce).g (F.CLS_CNT_count 1) = u.g (F.CLS_CNT_count 1) :=
    g_bump_other _ _ (by simp)
  unfold passCounted
  dsimp only
  split <;> split <;> simp only [hevt, hcount, hbump, g_datapath]

/-- R352: a pass whose shadow differs drops the packet, makes one pipe or two suspect and counts the mismatch. -/
theorem pass_of_differs (p b n base : Nat) (second fcsBad conflictIn : Bool) (fr : List Byte) {pipe : Nat} (hpipe : pipe < 6)
    (ue : List Nat) (ce : Nat) (s : State) : ∃ fs conflict pipes, (∀ q ∈ pipes, q < 6) ∧
      pass p b n base second fcsBad conflictIn fr pipe ue ce true s =
        (.drop, fs, State.loss (F.CLS_CNT_count 1) 1 (State.forEach pipes pipeSuspect (passCounted p second conflict pipe ce s))) := by
  unfold pass
  dsimp only
  rw [if_pos rfl]
  split
  next q hnext =>
    obtain ⟨k, -, rfl⟩ := List.mem_map.1 (List.mem_of_find?_eq_some hnext)
    split
    · exact ⟨_, _, [pipe], by simpa using hpipe, rfl⟩
    · exact ⟨_, _, [pipe, (pipe + 1 + k) % 6], by simp; omega, rfl⟩
  · exact ⟨_, _, [pipe], by simpa using hpipe, rfl⟩

section Shadow

variable {pipes : List Nat} (s : State)

theorem shadowDropped_pkts :
    (State.loss (F.CLS_CNT_count 1) 1 (State.forEach pipes pipeSuspect s)).cls.pkts = s.cls.pkts := by
  rw [State.loss_cls]
  exact forEach_view_unchanged (·.cls.pkts) pipeSuspect (fun _ _ _ => rfl) s

variable (hpipes : ∀ q ∈ pipes, q < 6)
include hpipes

/-- R352: pipes that become suspect show it in the registers of their states, below the counters. -/
theorem g_suspects_other {f : Field} (hf : (F.CLS_CNT_count 0).key ≤ f.key) :
    (State.forEach pipes pipeSuspect s).g f = s.g f := by
  refine forEach_view_unchanged (·.g f) pipeSuspect (fun q hq u => ?_) s
  have hq := hpipes q hq
  simp only [F.CLS_CNT_count_key] at hf
  unfold pipeSuspect
  dsimp only
  rw [g_setF_other _ _ (by simp; omega), g_setB_other _ _ (by simp; omega)]
  rfl

theorem g_shadowDropped_mismatches :
    (State.loss (F.CLS_CNT_count 1) 1 (State.forEach pipes pipeSuspect s)).g (F.CLS_CNT_count 1) =
      min (s.g (F.CLS_CNT_count 1) + 1) 0xFFFFFFFF := by
  rw [g_loss_pos _ _ _ one_ne_zero, g_suspects_other s hpipes (by simp)]
  rfl

theorem g_shadowDropped_port (i j c : Nat) :
    (State.loss (F.CLS_CNT_count 1) 1 (State.forEach pipes pipeSuspect s)).g (F.CLS_PORT_CNT_count i j c) =
      s.g (F.CLS_PORT_CNT_count i j c) := by
  rw [g_loss_other _ _ _ (by simp; omega), g_suspects_other s hpipes (by simp; omega)]

end Shadow

/-- R338: the end of a search counts at most a drop by rule. -/
theorem finish_cases (p b : Nat) (dflt : Bool) (a : Nat) (s : State) :
    finish p b dflt a s = (.drop, clsCount p 3 s) ∨ ∃ a', finish p b dflt a s = (.final a', s) := by
  unfold finish
  extract_lets a'
  split
  · exact .inl rfl
  · exact .inr ⟨_, rfl⟩

theorem g_finish_port (p b : Nat) (dflt : Bool) (a : Nat) (s : State) {c : Nat} (hc : c ≠ 3) :
    (finish p b dflt a s).2.g (F.CLS_PORT_CNT_count (p / 8) (p % 8) c) = s.g (F.CLS_PORT_CNT_count (p / 8) (p % 8) c) := by
  obtain h | ⟨a', h⟩ := finish_cases p b dflt a s
  · rw [h, g_clsCount_other _ hc]
  · rw [h]

/-- R55: an error of page 0xB0 leaves the counters of a port, whatever offset it names. -/
theorem g_err_port (step code off i j c : Nat) (s : State) :
    (State.err 0xB0 step code s off).g (F.CLS_PORT_CNT_count i j c) = s.g (F.CLS_PORT_CNT_count i j c) := by
  have htouch : Touches.err (Sparing [.reg (F.CLS_PORT_CNT_count i j c).key]) 0xB0 := by
    repeat' first | constructor | (simp [Sparing] <;> omega)
  exact (Fits.err _ _ _ _ _ (.refl _ s) htouch).g_spared (by simp)

/-- R330: a pass counts its lookup once, whatever it decides. -/
theorem g_pass_lookups (p b n base : Nat) (second fcsBad conflictIn : Bool) (fr : List Byte) {pipe : Nat} (hpipe : pipe < 6)
    (ue : List Nat) (ce : Nat) (differs : Bool) (s : State) :
    (pass p b n base second fcsBad conflictIn fr pipe ue ce differs s).2.2.g
        (F.CLS_PORT_CNT_count (p / 8) (p % 8) (if second then 1 else 0)) =
      min (s.g (F.CLS_PORT_CNT_count (p / 8) (p % 8) (if second then 1 else 0)) + 1) 0xFFFFFFFF := by
  cases differs with
  | true =>
    obtain ⟨fs, conflict, pipes, hpipes, hpass⟩ := pass_of_differs p b n base second fcsBad conflictIn fr hpipe ue ce s
    rw [hpass, g_shadowDropped_port _ hpipes, g_passCounted_lookups]
  | false =>
    have hc : (if second then 1 else 0) < 2 := by split <;> decide
    rw [← g_passCounted_lookups p second (conflictIn || lenConflict s b n base fr (passFields s b n base fr)) pipe ce s]
    unfold pass
    extract_lets fs conflict key win
    rw [if_neg Bool.false_ne_true]
    split
    -- an uncorrectable word drops the packet (R353)
    · exact (g_err_port _ _ _ _ _ _ _).trans ((g_evt_port _ _ _ _ _).trans (g_clsLoss_other _ (by omega) _))
    · split
      -- the length policy drops it (R335)
      · rfl
      · clear_value win
        cases win with
        | none => exact (g_finish_port _ _ _ _ _ (by omega)).trans (g_clsCount_other _ (by omega) _)
        | some i =>
          dsimp only
          split
          · rfl
          · exact g_finish_port _ _ _ _ _ (by omega)
          · exact g_finish_port _ _ _ _ _ (by omega)

/-- R352: the packet is dropped and counted in SHADOW_MISMATCH. -/
theorem pass_drops_of_differs (p b n base : Nat) (second fcsBad conflictIn : Bool) (fr : List Byte) {pipe : Nat} (hpipe : pipe < 6)
    (ue : List Nat) (ce : Nat) (s : State) :
    (pass p b n base second fcsBad conflictIn fr pipe ue ce true s).1 = .drop ∧
      (pass p b n base second fcsBad conflictIn fr pipe ue ce true s).2.2.cls.pkts = s.cls.pkts ∧
      (pass p b n base second fcsBad conflictIn fr pipe ue ce true s).2.2.g (F.CLS_CNT_count 1) =
        min (s.g (F.CLS_CNT_count 1) + 1) 0xFFFFFFFF := by
  obtain ⟨fs, conflict, pipes, hpipes, hpass⟩ := pass_of_differs p b n base second fcsBad conflictIn fr hpipe ue ce s
  rw [hpass]
  refine ⟨rfl, ?_, ?_⟩
  · rw [shadowDropped_pkts, passCounted_cls]
  · rw [g_shadowDropped_mismatches _ hpipes, g_passCounted_mismatches]

/-! ## A decided packet takes its place (R347) -/

theorem mem_place_pkts {q r : Pkt} {rest : List Pkt} {s : State} (h : r ∈ (place q rest s).cls.pkts) : r = q ∨ r ∈ rest := by
  unfold place at h
  dsimp only at h
  split at h
  · exact .inr (by simpa using h)
  · simp only [setPkts_pkts, List.mem_append, List.mem_filter, List.mem_singleton] at h
    tauto

/-- R347: a packet that finds its reorder window full is counted at its port, no other way. -/
theorem g_place_port (q : Pkt) (rest : List Pkt) (s : State) {c : Nat} (hc : c ≠ 6) :
    (place q rest s).g (F.CLS_PORT_CNT_count (q.port / 8) (q.port % 8) c) =
      s.g (F.CLS_PORT_CNT_count (q.port / 8) (q.port % 8) c) := by
  unfold place
  dsimp only
  split
  · rw [g_setPkts_port, g_evt_port, g_clsLoss_other _ hc]
  · rw [g_setPkts_port]

/-! ## FIRST_PASS -/

section First

variable {p : Fin 32} {frame : List Byte} {fcsBad : Bool} {pipe : Fin 6} {ue : List Nat} {ce : Nat} {differs : Bool} {s : State}
  (hup : portState s p.val = 4) (hpacket : portCbr s.inForce p.val = false) (hpipe : s.g (F.CLS_PIPE_STAT_state pipe.val) = 0)
include hup hpacket hpipe

/-- R330, R352: whatever follows the first pass, its lookup stays counted; one whose shadow differs takes its packet no further. -/
theorem exec_firstPass_runs : ∃ t, exec (.firstPass p frame fcsBad pipe ue ce differs) s = .next t ∧
    t.g (F.CLS_PORT_CNT_count (p.val / 8) (p.val % 8) 0) =
      min (s.g (F.CLS_PORT_CNT_count (p.val / 8) (p.val % 8) 0) + 1) 0xFFFFFFFF ∧
    (differs = true → t.cls.pkts = s.cls.pkts ∧ t.g (F.CLS_CNT_count 1) = min (s.g (F.CLS_CNT_count 1) + 1) 0xFFFFFFFF) := by
  have hcount := g_pass_lookups p.val (activeBank s) (bankWord s (activeBank s) (portOff p.val) % 4) 0 false fcsBad false frame
    pipe.isLt ue ce differs s
  have hshadow (h : differs = true) := h ▸ pass_drops_of_differs p.val (activeBank s)
    (bankWord s (activeBank s) (portOff p.val) % 4) 0 false fcsBad false frame pipe.isLt ue ce s
  rw [if_neg Bool.false_ne_true] at hcount
  rw [exec_firstPass]
  unfold execFirstPass
  rw [if_neg (by simp [hup, hpacket, hpipe])]
  dsimp only
  generalize pass p.val (activeBank s) (bankWord s (activeBank s) (portOff p.val) % 4) 0 false fcsBad false frame pipe.val ue ce
    differs s = r at hcount hshadow ⊢
  obtain ⟨v, fs, u⟩ := r
  cases v with
  | drop => exact ⟨_, rfl, hcount, fun h => (hshadow h).2⟩
  | final a => exact ⟨_, rfl, (g_place_port _ _ _ (by decide)).trans hcount, fun h => nomatch (hshadow h).1⟩
  | again a =>
    dsimp only
    split
    · exact ⟨_, rfl, ((g_evt_port _ _ _ _ _).trans (g_clsLoss_other _ (by decide) _)).trans hcount, fun h => nomatch (hshadow h).1⟩
    · exact ⟨_, rfl, (g_setPkts_port _ _ _ _ _).trans hcount, fun h => nomatch (hshadow h).1⟩

end First

/-! ## SECOND_PASS -/

/-- R341: what the bank's depth_action makes of a packet that would need a third pass. -/
def depthAction (q : Pkt) (s : State) : Verdict × State :=
  match bankWord s q.bank policyOff / 2 ^ 24 % 4 with
  | 0 => finish q.port q.bank true 0 s
  | 1 => finish q.port q.bank false (bank128 s q.bank (policyOff + 0x10)) s
  | _ => (.drop, s)

theorem g_depthAction_port (q : Pkt) (s : State) {c : Nat} (hc : c ≠ 3) :
    (depthAction q s).2.g (F.CLS_PORT_CNT_count (q.port / 8) (q.port % 8) c) =
      s.g (F.CLS_PORT_CNT_count (q.port / 8) (q.port % 8) c) := by
  unfold depthAction
  split
  · exact g_finish_port _ _ _ _ _ hc
  · exact g_finish_port _ _ _ _ _ hc
  · rfl

/-- R338, R347: after its last pass a packet takes its place among the others, decided, or is gone. -/
def lastPassed (q : Pkt) (rest : List Pkt) : Verdict × State → State
  | (.final a, s) => place { q with second := none, action := a } rest s
  | (_, s) => setPkts rest s

theorem next_lastPassed (q : Pkt) (rest : List Pkt) (d : Verdict × State) :
    (.next (lastPassed q rest d) : Host.Outcome State Fault Refusal) = match d.1 with
      | .final a => .next (place { q with second := none, action := a } rest d.2)
      | _ => .next (setPkts rest d.2) := by
  obtain ⟨v, s⟩ := d
  cases v <;> rfl

theorem mem_lastPassed_pkts {q r : Pkt} {rest : List Pkt} {d : Verdict × State} (h : r ∈ (lastPassed q rest d).cls.pkts) :
    r.second = none ∨ r ∈ rest := by
  obtain ⟨v, s⟩ := d
  cases v with
  | final a => exact (mem_place_pkts h).imp_left fun e => by rw [e]
  | drop => exact .inr (by simpa [lastPassed] using h)
  | again a => exact .inr (by simpa [lastPassed] using h)

theorem g_lastPassed_port (q : Pkt) (rest : List Pkt) (d : Verdict × State) {c : Nat} (hc : c ≠ 6) :
    (lastPassed q rest d).g (F.CLS_PORT_CNT_count (q.port / 8) (q.port % 8) c) =
      d.2.g (F.CLS_PORT_CNT_count (q.port / 8) (q.port % 8) c) := by
  obtain ⟨v, s⟩ := d
  cases v with
  | final a => exact g_place_port _ _ _ hc
  | drop => exact g_setPkts_port _ _ _ _ _
  | again a => exact g_setPkts_port _ _ _ _ _

section Waiting

variable {id : Nat} {pipe : Fin 6} {ue : List Nat} {ce : Nat} {differs : Bool} {q : Pkt} {s : State}
  (hq : s.cls.pkts.find? (fun q => q.id == id && q.second.isSome) = some q)
include hq

/-- R341: the second pass decides; a verdict that asks for a third leaves it to the bank's depth_action. -/
theorem exec_secondPass_decides (hpipe : s.g (F.CLS_PIPE_STAT_state pipe.val) = 0) : ∃ d : Verdict × State,
    exec (.secondPass id pipe ue ce differs) s = .next (lastPassed q (s.cls.pkts.filter fun r => r.id != id) d) ∧
      d.2.g (F.CLS_PORT_CNT_count (q.port / 8) (q.port % 8) 1) =
        min (s.g (F.CLS_PORT_CNT_count (q.port / 8) (q.port % 8) 1) + 1) 0xFFFFFFFF := by
  have hwaits := List.find?_some hq
  obtain ⟨⟨base, n, absent⟩, hsecond⟩ := Option.isSome_iff_exists.1 (Bool.and_eq_true_iff.1 hwaits).2
  have hcount := g_pass_lookups q.port q.bank n base true q.fcsBad absent q.frame pipe.isLt ue ce differs s
  rw [if_pos rfl] at hcount
  rw [exec_secondPass]
  unfold execSecondPass
  rw [hq]
  dsimp only
  rw [hsecond]
  dsimp only
  rw [if_neg (not_not_intro hpipe)]
  generalize pass q.port q.bank n base true q.fcsBad absent q.frame pipe.val ue ce differs s = r at hcount ⊢
  obtain ⟨v, fs, u⟩ := r
  cases v with
  | drop => exact ⟨(.drop, u), rfl, hcount⟩
  | final a => exact ⟨(.final a, u), rfl, hcount⟩
  | again a =>
    let w := State.evt 0xB0 7 (clsLoss q.port 4 u)
    refine ⟨depthAction q w, (next_lastPassed _ _ _).symm, ?_⟩
    rw [g_depthAction_port _ _ (by decide), g_evt_port, g_clsLoss_other _ (by decide), ← hcount]

theorem exec_secondPass_runs (hpipe : s.g (F.CLS_PIPE_STAT_state pipe.val) = 0) :
    ∃ t, exec (.secondPass id pipe ue ce differs) s = .next t ∧ (∀ r ∈ t.cls.pkts, r.id = id → r.second = none) ∧
      t.g (F.CLS_PORT_CNT_count (q.port / 8) (q.port % 8) 1) =
        min (s.g (F.CLS_PORT_CNT_count (q.port / 8) (q.port % 8) 1) + 1) 0xFFFFFFFF := by
  obtain ⟨d, hexec, hcount⟩ := exec_secondPass_decides (ue := ue) (ce := ce) (differs := differs) hq hpipe
  refine ⟨_, hexec, fun r hr hid => ?_, (g_lastPassed_port _ _ _ (by decide)).trans hcount⟩
  obtain hnone | hrest := mem_lastPassed_pkts hr
  · exact hnone
  · exact absurd hid (by simpa using (List.mem_filter.1 hrest).2)

/-! ## RECIRC_TIMEOUT (R340) -/

theorem exec_recircTimeout_drops : ∃ t, exec (.recircTimeout id) s = .next t ∧
    t.cls.pkts = s.cls.pkts.filter (fun r => r.id != id) ∧ t.sticky 0xB0 10 ∧
      t.g (F.CLS_PORT_CNT_count (q.port / 8) (q.port % 8) 7) =
        min (s.g (F.CLS_PORT_CNT_count (q.port / 8) (q.port % 8) 7) + 1) 0xFFFFFFFF := by
  rw [exec_recircTimeout]
  unfold execRecircTimeout
  rw [hq]
  refine ⟨_, rfl, setPkts_pkts _ _, sticky_setPkts _ (sticky_evt _ _ _ (by decide)), ?_⟩
  rw [g_setPkts_port, g_evt_port, g_clsLoss_same, g_reach]

end Waiting

/-! ## PACKET_RELEASE (R348) -/

@[simp] theorem queuePacket_cls (le c leaf : Nat) (frame : List Byte) (s : State) : (queuePacket le c leaf frame s).cls = s.cls :=
  State.modGlf_cls _ _ _

/-- R348: a packet that is released has left the classifier; one without a container is counted. -/
theorem exec_packetRelease_leaves {id : Nat} {q : Pkt} {s : State} (hq : s.cls.pkts.find? (fun q => q.id == id) = some q)
    (hdecided : q.second = none) (hfirst : waits s.cls.pkts q = false) :
    ∃ t, exec (.packetRelease id) s = .next t ∧ t.cls.pkts = s.cls.pkts.filter (fun r => r.id != id) ∧
      (contValid s.inForce (q.action / 2 ^ 123 % 2) (q.action / 2 ^ 117 % 64) = false →
        t.g (F.CLS_PORT_CNT_count (q.port / 8) (q.port % 8) 8) =
          min (s.g (F.CLS_PORT_CNT_count (q.port / 8) (q.port % 8) 8) + 1) 0xFFFFFFFF) := by
  rw [exec_packetRelease]
  unfold execPacketRelease
  rw [hq]
  dsimp -zeta only
  rw [if_neg (by simp [hdecided, hfirst])]
  extract_lets t le c present
  split
  · refine ⟨_, rfl, setPkts_pkts _ _, fun _ => ?_⟩
    rw [g_clsCount_same, g_setPkts_port]
  next hpresent =>
    have hvalid : contValid s.inForce (q.action / 2 ^ 123 % 2) (q.action / 2 ^ 117 % 64) ≠ false := fun h =>
      hpresent (by simp only [present, t, le, c, h, Bool.false_and, Bool.not_false, Bool.true_or])
    split
    · exact ⟨_, rfl, setPkts_pkts _ _, fun h => absurd h hvalid⟩
    · refine ⟨_, rfl, ?_, fun h => absurd h hvalid⟩
      rw [queuePacket_cls, State.datapath_cls, State.datapath_cls, setPkts_pkts]

/-- Settles O40: a pass counts its lookup whatever it decides; a packet leaves the classifier by `setPkts`. -/
theorem packetsMoveThroughClassifier : Obligations.PacketsMoveThroughClassifier :=
  ⟨fun _ _ _ _ _ _ _ _ => exec_firstPass_runs, fun _ _ _ _ _ _ _ => exec_secondPass_runs,
    fun _ _ _ => exec_recircTimeout_drops, fun _ _ _ => exec_packetRelease_leaves⟩

end Sys2Proof.Machine

/-! The rule banks of the classifier and its pipes (O41). -/

namespace Sys2Proof.Machine

/-! ## Banks (R342, R344, R345) -/

/-- R354: the states of both banks are fields of CLS_STAT. -/
theorem bankSt_key_bounds (b : Nat) : 0xB0044 * 8 + 28 ≤ (bankSt b).key ∧ (bankSt b).key ≤ 0xB0044 * 8 + 30 := by
  obtain h | h := bankSt_key b <;> simp [h]

@[simp] theorem bankSt_width (b : Nat) : (bankSt b).width = 2 := by
  unfold bankSt
  split <;> rfl

theorem g_setF_bankSt {v : Nat} (hv : v < 4) (b : Nat) (s : State) : (s.setF (bankSt b) v).g (bankSt b) = v := by
  rw [g_setF_same, bankSt_width]
  exact Nat.mod_eq_of_lt hv

theorem g_evt_bankSt (p e b : Nat) (s : State) : (State.evt p e s).g (bankSt b) = s.g (bankSt b) :=
  g_evt_other _ _ _ (by have := bankSt_key_bounds b; simp; omega)

/-- R344: the bank that is not active is STANDBY once no packet tagged with it waits for a pass. -/
theorem exec_bankDrainDone_drains {s : State} (hdraining : s.g (bankSt (1 - activeBank s)) = 2)
    (hnone : ∀ q ∈ s.cls.pkts, q.second = none ∨ q.bank ≠ 1 - activeBank s) :
    ∃ t, exec .bankDrainDone s = .next t ∧ t.g (bankSt (1 - activeBank s)) = 0 ∧ t.sticky 0xB0 1 := by
  have hkey := bankSt_key_bounds (1 - activeBank s)
  have hdrained : (s.cls.pkts.all fun q => q.second.isNone || q.bank != 1 - activeBank s) = true := by
    simpa using hnone
  refine ⟨_, if_pos ⟨hdraining, hdrained⟩, ?_, sticky_clsLevels (sticky_evt _ _ _ (by decide))⟩
  rw [g_clsLevels_other _ (by simp; omega) (by simp; omega) (by simp; omega), g_evt_bankSt, g_setF_bankSt (by decide)]

theorem activeBank_access (m : Master) (s : State) : activeBank (s.access m) = activeBank s := by
  rw [activeBank, g_access, activeBank]

/-- R344, R345: what an admitted go finds. -/
theorem bankCopy_admitted {m : Master} {s : State} (h : s.admits m 0xB0 false) : bankCopy m s =
    if s.g (bankSt (1 - activeBank s)) = 0 then (s.access m).setF (bankSt (1 - activeBank s)) 3
    else State.err 0xB0 0 0xC1 (s.access m) := by
  unfold bankCopy
  rw [h.runs (by decide)]
  dsimp only
  rw [activeBank_access, g_access]

theorem exec_clsBankCopy_starts {m : Master} {s : State} (h : s.admits m 0xB0 false)
    (hstandby : s.g (bankSt (1 - activeBank s)) = 0) :
    ∃ t, exec (.clsBankCopy m) s = .next t ∧ t.g (bankSt (1 - activeBank s)) = 3 := by
  refine ⟨_, by rw [exec_clsBankCopy, execClsBankCopy, bankCopy_admitted h, if_pos hstandby], ?_⟩
  exact g_setF_bankSt (by decide) _ _

theorem exec_clsBankCopy_refused {m : Master} {s : State} (h : s.admits m 0xB0 false)
    (hbusy : s.g (bankSt (1 - activeBank s)) ≠ 0) (hfirst : s.on (F.ERR_valid 0xB0) = false) :
    ∃ t, exec (.clsBankCopy m) s = .next t ∧ t.g (bankSt (1 - activeBank s)) = s.g (bankSt (1 - activeBank s)) ∧
      t.g (F.ERR_code 0xB0) = 0xC1 := by
  have hkey := bankSt_key_bounds (1 - activeBank s)
  refine ⟨_, by rw [exec_clsBankCopy, execClsBankCopy, bankCopy_admitted h, if_neg hbusy], ?_, ?_⟩
  · rw [err_g_block _ _ _ _ (by omega), g_access]
  · exact err_g_code _ _ _ _ (by rwa [State.on, g_access])

/-- R346: the bad entries of a bank are shown in registers of their own. -/
theorem g_badUpdate_other {b : Nat} (hb : b < 2) (s : State) {f : Field} (hf : f.key < 0xB0050 * 8 ∨ 0xB0060 * 8 ≤ f.key) :
    (badUpdate b s).g f = s.g f := by
  unfold badUpdate
  dsimp only
  rw [g_setF_other _ _ (by simp; omega), g_setF_other _ _ (by simp; omega)]

theorem exec_copyDone_ends {ue : List (Fin 0x1000000)} {s : State} (hcopy : s.g (bankSt (1 - activeBank s)) = 3) :
    ∃ t, exec (.copyDone ue) s = .next t ∧ t.g (bankSt (1 - activeBank s)) = 0 ∧ t.sticky 0xB0 2 := by
  have hkey := bankSt_key_bounds (1 - activeBank s)
  have hb : 1 - activeBank s < 2 := by omega
  refine ⟨_, if_pos hcopy, ?_, ?_⟩
  · rw [g_badUpdate_other hb _ (by omega), g_evt_bankSt, g_setF_bankSt (by decide)]
  · exact sticky_of_g (sticky_evt _ _ _ (by decide)) (g_badUpdate_other hb _ (by simp))

/-- R342: the windows of the banks belong to page 0xB0. -/
theorem pageOf_window {a : Nat} (hlo : 0x1000000 ≤ a) (hhi : a < 0x3000000) : pageOf a = 0xB0 := by
  unfold pageOf
  simp only [Bool.and_eq_true, decide_eq_true_eq]
  repeat rw [if_neg (by omega)]
  rw [if_pos ⟨hlo, hhi⟩]

section Window

variable {m : Master} {b : Fin 2} {off : BitVec 24} {v : Word} {s : State} (h : s.admits m 0xB0 false)
include h

/-- R342: the address of an offset in a bank's window lies with page 0xB0 and tells the bank and the offset. -/
theorem winWrite_admitted : winWrite m ((b.val + 1) * 2 ^ 24 + off.toNat) v.toNat s =
    if s.g (bankSt b.val) ≠ 0 then
      State.evt 0xB0 6 (((s.access m).refuse (mcode m) .denied ((b.val + 1) * 2 ^ 24 + off.toNat)).bump (F.CLS_CNT_count 2) 1)
    else if winMask (off.toNat / 4 * 4) = 0 then s.access m
    else badUpdate b.val { s.access m with cls := { (s.access m).cls with
      mem := Tbl.set 0 (s.access m).cls.mem (b.val * 2 ^ 22 + off.toNat / 4) (v.toNat &&& winMask (off.toNat / 4 * 4))
      poison := Tbl.set false (s.access m).cls.poison (b.val * 2 ^ 21 + off.toNat / 8) false } } := by
  have hoff := off.isLt
  have hbank : ((b.val + 1) * 2 ^ 24 + off.toNat) / 2 ^ 24 - 1 = b.val := by omega
  have hword : ((b.val + 1) * 2 ^ 24 + off.toNat) % 2 ^ 24 = off.toNat := by omega
  have hpage : pageOf ((b.val + 1) * 2 ^ 24 + off.toNat) = 0xB0 := pageOf_window (by omega) (by omega)
  have hquarter : off.toNat / 4 * 4 / 4 = off.toNat / 4 := by omega
  have heighth : off.toNat / 4 * 4 / 8 = off.toNat / 8 := by omega
  unfold winWrite
  rw [h.runs hpage]
  dsimp only
  rw [hbank, hword, g_access, hquarter, heighth]

theorem exec_clsWinWrite_writes (hstandby : s.g (bankSt b.val) = 0) (hmask : winMask (off.toNat / 4 * 4) ≠ 0) :
    ∃ t, exec (.clsWinWrite m b off v) s = .next t ∧
      bankWord t b.val (off.toNat / 4 * 4) = v.toNat &&& winMask (off.toNat / 4 * 4) := by
  refine ⟨_, by rw [exec_clsWinWrite, execClsWinWrite, winWrite_admitted h, if_neg (not_not_intro hstandby), if_neg hmask], ?_⟩
  have hquarter : off.toNat / 4 * 4 / 4 = off.toNat / 4 := by omega
  unfold bankWord
  rw [hquarter]
  exact Tbl.get_set_same _ _ _ _

theorem exec_clsWinWrite_refused (hbusy : s.g (bankSt b.val) ≠ 0) :
    ∃ t, exec (.clsWinWrite m b off v) s = .next t ∧ t.cls.mem = s.cls.mem ∧ t.sticky 0xB0 6 := by
  refine ⟨_, by rw [exec_clsWinWrite, execClsWinWrite, winWrite_admitted h, if_pos hbusy], ?_, sticky_evt _ _ _ (by decide)⟩
  rw [State.evt_cls, State.bump_cls, State.refuse_cls, State.access_cls]

end Window

/-! ## Pipes (R351, R352) -/

/-- R354: the count of ACTIVE pipes is one register. -/
theorem g_pipesActive_other (s : State) {f : Field} (hf : f.key ≠ F.CLS_STAT_pipes_active.key) :
    (pipesActive s).g f = s.g f := g_setF_other _ _ hf

theorem g_setF_pipe {p v : Nat} (hv : v < 4) (s : State) :
    (s.setF (F.CLS_PIPE_STAT_state p) v).g (F.CLS_PIPE_STAT_state p) = v := by
  rw [g_setF_same]
  exact Nat.mod_eq_of_lt hv

theorem exec_pipeTestStart_takes {p : Fin 6} {s : State}
    (hall : ∀ q, q < 6 → s.g (F.CLS_PIPE_STAT_state q) = 0 ∧ s.on (F.CLS_PIPE_STAT_suspect q) = false) :
    ∃ t, exec (.pipeTestStart p) s = .next t ∧ t.g (F.CLS_PIPE_STAT_state p.val) = 1 ∧ t.g F.CLS_STAT_pipes_active = 5 := by
  have hstart : pipeTestStart p.val s = pipesActive (s.setF (F.CLS_PIPE_STAT_state p.val) 1) := by
    refine if_pos ?_
    simp only [allBelow, Bool.and_eq_true, Bool.or_eq_true, List.all_eq_true, List.mem_range, beq_iff_eq, Bool.not_eq_true']
    exact ⟨fun q hq => (hall q hq).1, .inr fun q hq => (hall q hq).2⟩
  have hleft (q : Nat) (hq : q < 6) : (s.setF (F.CLS_PIPE_STAT_state p.val) 1).g (F.CLS_PIPE_STAT_state q) =
      if q = p.val then 1 else 0 := by
    split
    next e => rw [e, g_setF_pipe (by decide)]
    next e => rw [g_setF_other _ _ (by simp; omega), (hall q hq).1]
  have hactive : ((List.range 6).filter fun q =>
      (s.setF (F.CLS_PIPE_STAT_state p.val) 1).g (F.CLS_PIPE_STAT_state q) == 0).length = 5 := by
    have hothers : ∀ q ∈ List.range 6,
        ((s.setF (F.CLS_PIPE_STAT_state p.val) 1).g (F.CLS_PIPE_STAT_state q) == 0) = (q != p.val) := fun q hq => by
      rw [hleft q (List.mem_range.1 hq)]
      split
      next e => simp [e]
      next e => simp [e]
    rw [List.filter_congr hothers]
    exact (by decide : ∀ p : Fin 6, ((List.range 6).filter fun q => q != p.val).length = 5) p
  refine ⟨_, by rw [exec_pipeTestStart, execPipeTestStart, hstart], ?_, ?_⟩
  · rw [g_pipesActive_other _ (by simp; omega), g_setF_pipe (by decide)]
  · rw [pipesActive, g_setF_same, hactive]
    rfl

theorem exec_pipeTestDone_ends {p : Fin 6} {ok : Bool} {s : State} (htesting : s.g (F.CLS_PIPE_STAT_state p.val) = 1) :
    ∃ t, exec (.pipeTestDone p ok) s = .next t ∧ t.g (F.CLS_PIPE_STAT_state p.val) = (if ok then 0 else 2) ∧
      t.on (F.CLS_PIPE_STAT_suspect p.val) = false ∧ (ok = false → t.sticky 0xB0 3) := by
  refine ⟨_, if_pos htesting, ?_⟩
  have hstate (v : Nat) (hv : v < 4) (u : State) :
      (pipesActive (u.setF (F.CLS_PIPE_STAT_state p.val) v)).g (F.CLS_PIPE_STAT_state p.val) = v := by
    rw [g_pipesActive_other _ (by simp; omega), g_setF_pipe hv]
  have hsuspect (v : Nat) : (pipesActive ((s.setB (F.CLS_PIPE_STAT_suspect p.val) false).setF (F.CLS_PIPE_STAT_state p.val) v)).on
      (F.CLS_PIPE_STAT_suspect p.val) = false := by
    rw [State.on, g_pipesActive_other _ (by simp; omega), g_setF_other _ _ (by simp)]
    exact on_setB _ _ _ rfl
  cases ok with
  | true => exact ⟨hstate 0 (by decide) _, hsuspect 0, nofun⟩
  | false =>
    refine ⟨?_, ?_, fun _ => sticky_evt _ _ _ (by decide)⟩
    · exact (g_evt_other _ _ _ (by simp; omega)).trans (hstate 2 (by decide) _)
    · exact (on_evt_other _ _ _ (by simp; omega)).trans (hsuspect 2)

/-- Settles O41: each clause is one command, by the registers it leaves. -/
theorem banksAndPipesRun : Obligations.BanksAndPipesRun :=
  ⟨fun _ => exec_bankDrainDone_drains, fun _ _ => exec_clsBankCopy_starts, fun _ _ => exec_clsBankCopy_refused,
    fun _ _ => exec_copyDone_ends, fun _ _ _ _ _ => exec_clsWinWrite_writes, fun _ _ _ _ _ => exec_clsWinWrite_refused,
    fun _ _ => exec_pipeTestStart_takes, fun _ _ _ => exec_pipeTestDone_ends⟩

end Sys2Proof.Machine
/-! What each command may change: the parts and fields its operation touches lie in `frame`. -/

namespace Sys2Proof.Machine

/-- The fields `r` are among those that `N` lets change. -/
def Lets (N : Part → Prop) (r : Regs) : Prop := ∀ k, r k → N (.reg k)

/-- The parts `ps` are among those that `N` lets change. -/
def LetsParts (N : Part → Prop) (ps : List Part) : Prop := ∀ p ∈ ps, (∀ k, p ≠ .reg k) → N p

theorem only_lets {N : Part → Prop} {ps : List Part} {fs : List Regs} :
    (∀ p, only ps fs p → N p) ↔ LetsParts N ps ∧ Lets N (regs fs) := by
  refine ⟨fun h => ⟨fun p hp hne => ?_, fun k => h (.reg k)⟩, fun ⟨hp, hr⟩ p h => ?_⟩
  · exact h p (by cases p with | reg k => exact absurd rfl (hne k) | _ => exact hp)
  · cases p with
    | reg k => exact hr k h
    | _ => exact hp _ h nofun

/-- What a frame lets change, one fact for a part or a field and one for all indices of a family. -/
theorem frame_facts {N : Part → Prop} :
    (∀ r l, Lets N (regs (r :: l)) ↔ Lets N r ∧ Lets N (regs l)) ∧ (Lets N (regs []) ↔ True) ∧
    (∀ f, Lets N (one f) ↔ N (.reg f.key)) ∧ (∀ r : Nat → Regs, Lets N (any r) ↔ ∀ a, Lets N (r a)) ∧
    (∀ r : Bool → Regs, Lets N (any r) ↔ ∀ a, Lets N (r a)) ∧ (∀ f, Lets N (any1 f) ↔ ∀ a, N (.reg (f a).key)) ∧
    (∀ f, Lets N (any2 f) ↔ ∀ a b, N (.reg (f a b).key)) ∧ (∀ f, Lets N (any3 f) ↔ ∀ a b c, N (.reg (f a b c).key)) ∧
    (∀ p l, Lets N (events (p :: l)) ↔ N (.reg (F.EVT_STICKY p).key) ∧ Lets N (events l)) ∧ (Lets N (events []) ↔ True) ∧
    (∀ p l, Lets N (levels (p :: l)) ↔ N (.reg (F.EVT_RAW p).key) ∧ Lets N (levels l)) ∧ (Lets N (levels []) ↔ True) ∧
    (∀ p l, LetsParts N (p :: l) ↔ ((∀ k, p ≠ .reg k) → N p) ∧ LetsParts N l) ∧ (LetsParts N [] ↔ True) := by
  refine ⟨by simp [Lets, regs, or_imp, forall_and], by simp [Lets, regs], by simp [Lets, one],
    fun r => ⟨fun h a k hk => h k ⟨a, hk⟩, fun h k ⟨a, hk⟩ => h a k hk⟩,
    fun r => ⟨fun h a k hk => h k ⟨a, hk⟩, fun h k ⟨a, hk⟩ => h a k hk⟩,
    fun f => ⟨fun h a => h _ ⟨a, rfl⟩, fun h k ⟨a, hk⟩ => hk ▸ h a⟩,
    fun f => ⟨fun h a b => h _ ⟨a, b, rfl⟩, fun h k ⟨a, b, hk⟩ => hk ▸ h a b⟩,
    fun f => ⟨fun h a b c => h _ ⟨a, b, c, rfl⟩, fun h k ⟨a, b, c, hk⟩ => hk ▸ h a b c⟩,
    by simp [Lets, events, or_imp, forall_and], by simp [Lets, events], by simp [Lets, levels, or_imp, forall_and], by simp [Lets, levels],
    by simp [LetsParts], by simp [LetsParts]⟩

/-- The logic by which the facts of a frame are split. -/
theorem frame_split :
    (∀ p : Prop, (True ∧ p) = p) ∧ (∀ p : Prop, (p ∧ True) = p) ∧
    (∀ P Q : Nat → Prop, (∀ a, P a ∧ Q a) ↔ (∀ a, P a) ∧ ∀ a, Q a) ∧
    (∀ P Q : Bool → Prop, (∀ a, P a ∧ Q a) ↔ (∀ a, P a) ∧ ∀ a, Q a) ∧ (∀ P : Prop, (∀ _ : Nat, P) ↔ P) ∧
    (∀ P : Prop, (True → P) = P) := by
  simp [forall_and]

/-- A frame that lets both engines change lets each. -/
theorem engine_pairs :
    (∀ N : Part → Prop, N (.tx false) ∧ N (.tx true) ↔ ∀ b, N (.tx b)) ∧
    (∀ (N : Part → Prop) P, N (.tx false) ∧ N (.tx true) ∧ P ↔ (∀ b, N (.tx b)) ∧ P) ∧
    (∀ N : Part → Prop, N (.rx false) ∧ N (.rx true) ↔ ∀ b, N (.rx b)) ∧
    (∀ (N : Part → Prop) P, N (.rx false) ∧ N (.rx true) ∧ P ↔ (∀ b, N (.rx b)) ∧ P) ∧
    (∀ N : Part → Prop, N (.fec false) ∧ N (.fec true) ↔ ∀ b, N (.fec b)) ∧
    (∀ (N : Part → Prop) P, N (.fec false) ∧ N (.fec true) ∧ P ↔ (∀ b, N (.fec b)) ∧ P) ∧
    (∀ N : Part → Prop, N (.glf false) ∧ N (.glf true) ↔ ∀ b, N (.glf b)) ∧
    (∀ (N : Part → Prop) P, N (.glf false) ∧ N (.glf true) ∧ P ↔ (∀ b, N (.glf b)) ∧ P) ∧
    (∀ N : Part → Prop, N (.p2mp false) ∧ N (.p2mp true) ↔ ∀ b, N (.p2mp b)) ∧
    (∀ (N : Part → Prop) P, N (.p2mp false) ∧ N (.p2mp true) ∧ P ↔ (∀ b, N (.p2mp b)) ∧ P) ∧
    (∀ N : Part → Prop, N (.mon false) ∧ N (.mon true) ↔ ∀ b, N (.mon b)) ∧
    (∀ (N : Part → Prop) P, N (.mon false) ∧ N (.mon true) ∧ P ↔ (∀ b, N (.mon b)) ∧ P) := by
  simp [and_assoc]

/-- What fits whatever lets a frame change fits the frame. -/
theorem FitsOut.of_all {i : Instr} {s : State} {o : Host.Outcome State Fault Refusal}
    (h : ∀ N, (∀ p, frame i p → N p) → FitsOut N s o) : FitsOut (frame i) s o := h _ fun _ => id

theorem fits_commitGo (m : Master) (p : Fin 256) (s : State) :
    FitsOut (frame (.commitGo m p)) s (execCommitGo m p s) := by
  with_reducible refine FitsOut.of_all ?_
  intro N h
  with_reducible refine FitsOut.execCommitGo _ _ _ (.refl _ _) ?_
  dsimp only [frame] at h
  delta fabricErrorRegs errorRegs decoderRegs commitCancelRegs qualityRegs portRegs laneStateRegs boundaryRegs associationRegs
      exchangeEndRegs engineDownRegs engineStoppedRegs cipherLoadRegs converterMapRegs at h
  simp only [only_lets, frame_facts, frame_split, ne_eq, reduceCtorEq, not_false_eq_true, engine_pairs] at h
  casesm* _ ∧ _
  have hstop (e : Nat) : Touches.engineStopping N e := by
    repeat' first
      | with_reducible intro _
      | with_reducible constructor
      | simp only [*]
  have hstopped (e : Nat) : Touches.engineStopped N e := by
    repeat' first
      | with_reducible intro _
      | with_reducible constructor
      | simp only [*]
  have hlos (e : Nat) : Touches.losEval N e := by
    repeat' first
      | with_reducible intro _
      | with_reducible constructor
      | simp only [*]
  have hmove (e : Nat) : Touches.rxMove N e := (hlos e).c_rxMove
  have hreport (e : Nat) : Touches.engineReport N e := by
    repeat' first
      | with_reducible intro _
      | with_reducible constructor
      | simp only [*]
  have hstart (e : Nat) : Touches.engineStart N e := by
    repeat' first
      | with_reducible intro _
      | with_reducible constructor
      | simp only [*]
  repeat' first
    | with_reducible exact hstop _
    | with_reducible exact hstopped _
    | with_reducible exact hlos _
    | with_reducible exact hmove _
    | with_reducible exact hreport _
    | with_reducible exact hstart _
    | with_reducible intro _
    | with_reducible constructor
    | with_reducible assumption
    | simp only [*]

theorem fits_commitCheck (m : Master) (p : Fin 256) (s : State) :
    FitsOut (frame (.commitCheck m p)) s (execCommitCheck m p s) := by
  with_reducible refine FitsOut.of_all ?_
  intro N h
  with_reducible refine FitsOut.execCommitCheck _ _ _ (.refl _ _) ?_
  dsimp only [frame] at h
  delta fabricErrorRegs at h
  simp only [only_lets, frame_facts, frame_split, ne_eq, reduceCtorEq, not_false_eq_true] at h
  casesm* _ ∧ _
  repeat' first
    | with_reducible intro _
    | with_reducible constructor
    | with_reducible assumption

theorem fits_commitDiscard (m : Master) (p : Fin 256) (s : State) :
    FitsOut (frame (.commitDiscard m p)) s (execCommitDiscard m p s) := by
  with_reducible refine FitsOut.of_all ?_
  intro N h
  with_reducible refine FitsOut.execCommitDiscard _ _ _ (.refl _ _) ?_
  dsimp only [frame] at h
  delta fabricErrorRegs commitCancelRegs at h
  simp only [only_lets, frame_facts, frame_split, ne_eq, reduceCtorEq, not_false_eq_true] at h
  casesm* _ ∧ _
  repeat' first
    | with_reducible intro _
    | with_reducible constructor
    | with_reducible assumption
    | simp only [*]

theorem fits_devCommitSync (m : Master) (s : State) :
    FitsOut (frame (.devCommitSync m)) s (execDevCommitSync m s) := by
  with_reducible refine FitsOut.of_all ?_
  intro N h
  with_reducible refine FitsOut.execDevCommitSync _ _ (.refl _ _) ?_
  dsimp only [frame] at h
  delta fabricErrorRegs errorRegs commitTakenRegs decoderRegs qualityRegs portRegs laneStateRegs boundaryRegs associationRegs
      exchangeEndRegs engineDownRegs commitCancelRegs engineStoppedRegs cipherLoadRegs converterMapRegs at h
  simp only [only_lets, frame_facts, frame_split, ne_eq, reduceCtorEq, not_false_eq_true, engine_pairs] at h
  casesm* _ ∧ _
  have hstop (e : Nat) : Touches.engineStopping N e := by
    repeat' first
      | with_reducible intro _
      | with_reducible constructor
      | simp only [*]
  have hstopped (e : Nat) : Touches.engineStopped N e := by
    repeat' first
      | with_reducible intro _
      | with_reducible constructor
      | simp only [*]
  have hlos (e : Nat) : Touches.losEval N e := by
    repeat' first
      | with_reducible intro _
      | with_reducible constructor
      | simp only [*]
  have hmove (e : Nat) : Touches.rxMove N e := (hlos e).c_rxMove
  have hreport (e : Nat) : Touches.engineReport N e := by
    repeat' first
      | with_reducible intro _
      | with_reducible constructor
      | simp only [*]
  have hstart (e : Nat) : Touches.engineStart N e := by
    repeat' first
      | with_reducible intro _
      | with_reducible constructor
      | simp only [*]
  repeat' first
    | with_reducible exact hstop _
    | with_reducible exact hstopped _
    | with_reducible exact hlos _
    | with_reducible exact hmove _
    | with_reducible exact hreport _
    | with_reducible exact hstart _
    | with_reducible intro _
    | with_reducible constructor
    | with_reducible assumption
    | simp only [*]

theorem fits_softReset (m : Master) (p : Fin 256) (s : State) :
    FitsOut (frame (.softReset m p)) s (execSoftReset m p s) := by
  with_reducible refine FitsOut.of_all ?_
  intro N h
  with_reducible refine FitsOut.execSoftReset _ _ _ (.refl _ _) ?_
  dsimp only [frame] at h
  delta fabricErrorRegs commitCancelRegs receiverMoveRegs framerSyncRegs at h
  simp only [only_lets, frame_facts, frame_split, ne_eq, reduceCtorEq, not_false_eq_true, engine_pairs] at h
  casesm* _ ∧ _
  repeat' first
    | with_reducible intro _
    | with_reducible constructor
    | with_reducible assumption
    | simp only [*]

theorem fits_evtForce (m : Master) (p : Fin 256) (bits : Word) (s : State) :
    FitsOut (frame (.evtForce m p bits)) s (execEvtForce m p bits s) := by
  with_reducible refine FitsOut.of_all ?_
  intro N h
  with_reducible refine FitsOut.execEvtForce _ _ _ _ (.refl _ _) ?_
  dsimp only [frame] at h
  delta fabricErrorRegs at h
  simp only [only_lets, frame_facts, frame_split, ne_eq, reduceCtorEq, not_false_eq_true] at h
  casesm* _ ∧ _
  repeat' first
    | with_reducible intro _
    | with_reducible constructor
    | with_reducible assumption

theorem fits_pageSnap (m : Master) (p : Fin 256) (s : State) :
    FitsOut (frame (.pageSnap m p)) s (execPageSnap m p s) := by
  with_reducible refine FitsOut.of_all ?_
  intro N h
  with_reducible refine FitsOut.execPageSnap _ _ _ (.refl _ _) ?_
  dsimp only [frame] at h
  delta fabricErrorRegs at h
  simp only [only_lets, frame_facts, frame_split, ne_eq, reduceCtorEq, not_false_eq_true] at h
  casesm* _ ∧ _
  repeat' first
    | with_reducible intro _
    | with_reducible constructor
    | with_reducible assumption

theorem fits_snapDone (p : Fin 256) (s : State) : FitsOut (frame (.snapDone p)) s (execSnapDone p s) := by
  with_reducible refine FitsOut.of_all ?_
  intro N h
  with_reducible refine FitsOut.execSnapDone _ _ (.refl _ _) ?_
  dsimp only [frame] at h
  simp only [only_lets, frame_facts, frame_split, ne_eq, reduceCtorEq, not_false_eq_true] at h
  obtain ⟨hparts, hpage, hfields⟩ := h
  refine ⟨?_, hpage, ?_, ?_, ?_⟩
  repeat' first
    | with_reducible constructor
    | simp only [hparts, hfields]

theorem fits_lockAcquire (m : Master) (l : LockId) (s : State) :
    FitsOut (frame (.lockAcquire m l)) s (execLockAcquire m l s) := by
  with_reducible refine FitsOut.of_all ?_
  intro N h
  with_reducible refine FitsOut.execLockAcquire _ _ _ (.refl _ _) ?_
  dsimp only [frame] at h
  simp only [only_lets, frame_facts, frame_split, ne_eq, reduceCtorEq, not_false_eq_true] at h
  casesm* _ ∧ _
  repeat' first
    | with_reducible intro _
    | with_reducible constructor
    | with_reducible assumption

theorem fits_lockRelease (m : Master) (l : LockId) (value : Word) (s : State) :
    FitsOut (frame (.lockRelease m l value)) s (execLockRelease m l value s) := by
  with_reducible refine FitsOut.of_all ?_
  intro N h
  with_reducible refine FitsOut.execLockRelease _ _ _ _ (.refl _ _) ?_
  dsimp only [frame] at h
  delta fabricErrorRegs at h
  simp only [only_lets, frame_facts, frame_split, ne_eq, reduceCtorEq, not_false_eq_true] at h
  casesm* _ ∧ _
  repeat' first
    | with_reducible intro _
    | with_reducible constructor
    | with_reducible assumption

theorem fits_masterReset (m : Master) (stays : Bool) (s : State) :
    FitsOut (frame (.masterReset m stays)) s (execMasterReset m stays s) := by
  with_reducible refine FitsOut.of_all ?_
  intro N h
  with_reducible refine FitsOut.execMasterReset _ _ _ (.refl _ _) ?_
  dsimp only [frame] at h
  delta fabricErrorRegs replyRegs at h
  simp only [only_lets, frame_facts, frame_split, ne_eq, reduceCtorEq, not_false_eq_true] at h
  casesm* _ ∧ _
  repeat' first
    | with_reducible intro _
    | with_reducible constructor
    | with_reducible assumption
    | simp only [*]

theorem fits_mbxTx (m : Master) (n : Fin 12) (value : Word) (s : State) :
    FitsOut (frame (.mbxTx m n value)) s (execMbxTx m n value s) := by
  with_reducible refine FitsOut.of_all ?_
  intro N h
  with_reducible refine FitsOut.execMbxTx _ _ _ _ (.refl _ _) ?_
  dsimp only [frame] at h
  delta fabricErrorRegs replyRegs at h
  simp only [only_lets, frame_facts, frame_split, ne_eq, reduceCtorEq, not_false_eq_true] at h
  casesm* _ ∧ _
  repeat' first
    | with_reducible intro _
    | with_reducible constructor
    | with_reducible assumption

theorem fits_mbxRx (m : Master) (n : Fin 12) (s : State) :
    FitsOut (frame (.mbxRx m n)) s (execMbxRx m n s) := by
  with_reducible refine FitsOut.of_all ?_
  intro N h
  with_reducible refine FitsOut.execMbxRx _ _ _ (.refl _ _) ?_
  dsimp only [frame] at h
  delta fabricErrorRegs replyRegs at h
  simp only [only_lets, frame_facts, frame_split, ne_eq, reduceCtorEq, not_false_eq_true] at h
  casesm* _ ∧ _
  repeat' first
    | with_reducible intro _
    | with_reducible constructor
    | with_reducible assumption

theorem fits_mbxTimeout (n : Fin 12) (s : State) :
    FitsOut (frame (.mbxTimeout n)) s (execMbxTimeout n s) := by
  with_reducible refine FitsOut.of_all ?_
  intro N h
  with_reducible refine FitsOut.execMbxTimeout _ _ (.refl _ _) ?_
  dsimp only [frame] at h
  simp only [only_lets, frame_facts, frame_split, ne_eq, reduceCtorEq, not_false_eq_true] at h
  casesm* _ ∧ _
  repeat' first
    | with_reducible intro _
    | with_reducible constructor
    | with_reducible assumption

theorem fits_mbxHostReset (m : Master) (s : State) :
    FitsOut (frame (.mbxHostReset m)) s (execMbxHostReset m s) := by
  with_reducible refine FitsOut.of_all ?_
  intro N h
  with_reducible refine FitsOut.execMbxHostReset _ _ (.refl _ _) ?_
  dsimp only [frame] at h
  delta fabricErrorRegs replyRegs at h
  simp only [only_lets, frame_facts, frame_split, ne_eq, reduceCtorEq, not_false_eq_true, pageOf] at h
  repeat' first
    | with_reducible intro _
    | with_reducible constructor
    | simp only [h, pageOf, Nat.reduceLT, Nat.reduceDiv, if_true]

theorem fits_pulseSat (dom : Fin 64) (p : Fin 256) (counter : Option (Fin 512)) (s : State) :
    FitsOut (frame (.pulseSat dom p counter)) s (execPulseSat dom p counter s) := by
  with_reducible refine FitsOut.of_all ?_
  intro N h
  with_reducible refine FitsOut.execPulseSat _ _ _ _ (.refl _ _) ?_
  dsimp only [frame] at h
  simp only [only_lets, frame_facts, frame_split, ne_eq, reduceCtorEq, not_false_eq_true] at h
  casesm* _ ∧ _
  repeat' first
    | with_reducible intro _
    | with_reducible constructor
    | with_reducible assumption
    | simp only [*]

theorem fits_fifoResync (a b : Fin 64) (pa pb : Fin 256) (dropped : Nat) (s : State) :
    FitsOut (frame (.fifoResync a b pa pb dropped)) s (execFifoResync a b pa pb dropped s) := by
  with_reducible refine FitsOut.of_all ?_
  intro N h
  with_reducible refine FitsOut.execFifoResync _ _ _ _ _ _ (.refl _ _) ?_
  dsimp only [frame] at h
  delta resyncRegs at h
  simp only [only_lets, frame_facts, frame_split, ne_eq, reduceCtorEq, not_false_eq_true] at h
  casesm* _ ∧ _
  repeat' first
    | with_reducible intro _
    | with_reducible constructor
    | with_reducible assumption
    | simp only [*]

theorem fits_vecEoi (m : Master) (v : Fin 64) (s : State) :
    FitsOut (frame (.vecEoi m v)) s (execVecEoi m v s) := by
  with_reducible refine FitsOut.of_all ?_
  intro N h
  with_reducible refine FitsOut.execVecEoi _ _ _ (.refl _ _) ?_
  dsimp only [frame] at h
  delta fabricErrorRegs at h
  simp only [only_lets, frame_facts, frame_split, ne_eq, reduceCtorEq, not_false_eq_true] at h
  repeat' first
    | with_reducible intro _
    | with_reducible constructor
    | simp only [h, pageOf, Nat.reduceLT, Nat.reduceDiv, if_true]

theorem fits_msixPendingSend (v : Fin 64) (s : State) :
    FitsOut (frame (.msixPendingSend v)) s (execMsixPendingSend v s) :=  FitsOut.execMsixPendingSend v s (.refl _ _) (.head _)

theorem fits_vaonPowerOn (s : State) :
    FitsOut (frame .vaonPowerOn) s (execVaonPowerOn s) := by
  with_reducible refine FitsOut.of_all ?_
  intro N h
  with_reducible refine FitsOut.execVaonPowerOn _ (.refl _ _) ?_
  dsimp only [frame] at h
  simp only [only_lets, frame_facts, frame_split, ne_eq, reduceCtorEq, not_false_eq_true] at h
  casesm* _ ∧ _
  repeat' first
    | with_reducible intro _
    | with_reducible constructor
    | with_reducible assumption

theorem fits_xtalLock (s : State) :
    FitsOut (frame .xtalLock) s (execXtalLock s) := by
  with_reducible refine FitsOut.of_all ?_
  intro N h
  with_reducible refine FitsOut.execXtalLock _ (.refl _ _) ?_
  dsimp only [frame] at h
  simp only [only_lets, frame_facts, frame_split] at h
  casesm* _ ∧ _
  repeat' first
    | with_reducible intro _
    | with_reducible constructor
    | with_reducible assumption

theorem fits_avsFail (s : State) :
    FitsOut (frame .avsFail) s (execAvsFail s) := by
  with_reducible refine FitsOut.of_all ?_
  intro N h
  with_reducible refine FitsOut.execAvsFail _ (.refl _ _) ?_
  dsimp only [frame] at h
  delta errorRegs at h
  simp only [only_lets, frame_facts, frame_split, ne_eq, reduceCtorEq, not_false_eq_true] at h
  casesm* _ ∧ _
  repeat' first
    | with_reducible intro _
    | with_reducible constructor
    | with_reducible assumption

theorem fits_standbyEntryDone (s : State) :
    FitsOut (frame .standbyEntryDone) s (execStandbyEntryDone s) := by
  with_reducible refine FitsOut.of_all ?_
  intro N h
  with_reducible refine FitsOut.execStandbyEntryDone _ (.refl _ _) ?_
  dsimp only [frame] at h
  simp only [only_lets, frame_facts, frame_split, ne_eq, reduceCtorEq, not_false_eq_true] at h
  casesm* _ ∧ _
  repeat' first
    | with_reducible intro _
    | with_reducible constructor
    | with_reducible assumption

theorem fits_maintEntryDone (s : State) :
    FitsOut (frame .maintEntryDone) s (execMaintEntryDone s) := by
  with_reducible refine FitsOut.of_all ?_
  intro N h
  with_reducible refine FitsOut.execMaintEntryDone _ (.refl _ _) ?_
  dsimp only [frame] at h
  simp only [only_lets, frame_facts, frame_split, ne_eq, reduceCtorEq, not_false_eq_true] at h
  casesm* _ ∧ _
  repeat' first
    | with_reducible intro _
    | with_reducible constructor
    | with_reducible assumption

end Sys2Proof.Machine

/-! Words of package memory read, written and scrubbed, and its host window (R363 to R378). -/

namespace Sys2Proof.Machine

@[simp] theorem memWord_memPut_same (a w : Nat) (s : State) : memWord (memPut a w s) a = w := Tbl.get_set_same 0 _ a w

theorem memWord_memPut_other {a b : Nat} (w : Nat) (s : State) (h : b ≠ a) : memWord (memPut a w s) b = memWord s b :=
  Tbl.get_set_other 0 0 _ w h

theorem memWord_of_mem {s t : State} (h : t.buf.mem = s.buf.mem) (a : Nat) : memWord t a = memWord s a := by
  rw [memWord, h, memWord]

/-- What the statements of a read speak of: the words of package memory, the addresses at which write-back has stopped, the counters
of what was found and the events of page 0xC1. -/
structure SameReads (s t : State) : Prop where
  mem : t.buf.mem = s.buf.mem
  track : t.buf.track = s.buf.track
  wbEn : t.on F.BUF_ECC_CTRL_wb_en = s.on F.BUF_ECC_CTRL_wb_en
  count : ∀ e, e < 4 → t.g (F.BUF_CNT_count e) = s.g (F.BUF_CNT_count e)
  sticky : ∀ e, e < 4 → s.sticky 0xC1 e → t.sticky 0xC1 e

theorem readEvent_lt {r : Ecc} {e : Nat} (h : readEvent r = some e) : e < 4 := by
  cases r <;> simp [readEvent] at h <;> omega

theorem wordRead.later {a : Nat} {s t u : State} (h : wordRead a s t) (same : SameReads t u) : wordRead a s u := by
  obtain ⟨hword, hother, hevent⟩ := h
  refine ⟨?_, fun b hb => ?_, fun e he => ?_⟩
  · rw [memWord_of_mem same.mem, hword, wbStopped, wbStopped, same.track, same.wbEn]
  · rw [memWord_of_mem same.mem, hother b hb]
  · obtain ⟨hsticky, hcount⟩ := hevent e he
    exact ⟨same.sticky e (readEvent_lt he) hsticky, by rw [same.count e (readEvent_lt he), hcount]⟩

theorem wordRead.earlier {a : Nat} {s t u : State} (h : wordRead a t u) (same : SameReads s t) : wordRead a s u := by
  obtain ⟨hword, hother, hevent⟩ := h
  have hmem := memWord_of_mem same.mem
  refine ⟨by rw [hword, hmem], fun b hb => by rw [hother b hb, hmem], fun e he => ?_⟩
  obtain ⟨hsticky, hcount⟩ := hevent e (by rw [found, hmem]; exact he)
  exact ⟨hsticky, by rw [hcount, same.count e (readEvent_lt he)]⟩

/-- A change outside the words, the tracker and the registers of a read. -/
theorem sameReads_of_fits {s t : State} {N : Part → Prop} (h : Fits N s t) (hbuf : ¬ N .buf) (hmem : ¬ N .bufMem)
    (hwb : ¬ N (.reg F.BUF_ECC_CTRL_wb_en.key)) (hcount : ∀ e, e < 4 → ¬ N (.reg (F.BUF_CNT_count e).key))
    (hsticky : ¬ N (.reg (F.EVT_STICKY 0xC1).key)) : SameReads s t where
  mem := h.within .bufMem hmem
  track := by
    have hsame : { t.buf with mem := s.buf.mem } = s.buf := h.within .buf hbuf
    rw [← hsame]
  wbEn := by rw [State.on, h.g hwb, State.on]
  count e he := h.g (hcount e he)
  sticky e _ hs := sticky_of_g hs (h.g hsticky)

/-! ## A read and what it finds (R363, R371) -/

/-- What the tracker and the error log spare: the words, and the counters of what a read found. -/
def readParts (e : Nat) : List Part := [.bufMem, .reg (F.BUF_CNT_count e).key]

theorem bufRecord_sparing {e : Nat} (he : e < 4) : Touches.bufRecord (Sparing (readParts e)) := by
  repeat' first | with_reducible intro _ | constructor | (simp [Sparing, readParts] <;> omega)

theorem ceTrack_sparing {e : Nat} (he : e < 4) : Touches.ceTrack (Sparing (readParts e)) := by
  have hrecord := bufRecord_sparing he
  repeat' first | exact hrecord | with_reducible intro _ | constructor | (simp [Sparing, readParts] <;> omega)

/-- A found error is counted and raises its event, and the record of it changes neither the words nor the counter. -/
theorem counted_spec {e : Nat} (he : e < 4) {f : Field} (hf : (F.BUF_CNT_count e).key ≠ f.key) {s u : State}
    (h : Fits (Sparing (readParts e)) ((bufCount e s).bump f 1) u) :
    (State.evt 0xC1 e u).buf.mem = s.buf.mem ∧ (State.evt 0xC1 e u).sticky 0xC1 e ∧
      (State.evt 0xC1 e u).g (F.BUF_CNT_count e) = min (s.g (F.BUF_CNT_count e) + 1) 0xFFFFFFFF := by
  refine ⟨?_, sticky_evt _ _ _ (by omega), ?_⟩
  · have hmem : u.buf.mem = ((bufCount e s).bump f 1).buf.mem := h.within .bufMem (not_not_intro (.head _))
    simpa [bufCount] using hmem
  · rw [g_evt_other _ _ _ (by simp; omega), h.g_spared (.tail _ (.head _)), g_bump_other _ _ hf, bufCount, g_bump_same]
    rfl

theorem wordRead_of_same {a e : Nat} {s u : State} (he : readEvent (found s a) = some e) (hmem : u.buf.mem = s.buf.mem)
    (hsticky : u.sticky 0xC1 e) (hcount : u.g (F.BUF_CNT_count e) = min (s.g (F.BUF_CNT_count e) + 1) 0xFFFFFFFF)
    (hleft : readLeaves (wbStopped u a) (memWord s a) = memWord s a) : wordRead a s u := by
  refine ⟨by rw [hleft, memWord_of_mem hmem], fun b _ => memWord_of_mem hmem b, fun e' he' => ?_⟩
  rw [he, Option.some.injEq] at he'
  subst he'
  exact ⟨hsticky, hcount⟩

theorem wordRead_of_counted {a e : Nat} {s u : State} (w : Nat) (he : readEvent (found s a) = some e) (hmem : u.buf.mem = s.buf.mem)
    (hsticky : u.sticky 0xC1 e) (hcount : u.g (F.BUF_CNT_count e) = min (s.g (F.BUF_CNT_count e) + 1) 0xFFFFFFFF)
    (hstopped : readLeaves true (memWord s a) = memWord s a) (hwritten : readLeaves false (memWord s a) = w) :
    wordRead a s (if wbStopped u a then u else memPut a w u) := by
  split
  next hw => exact wordRead_of_same he hmem hsticky hcount (by rw [hw, hstopped])
  next hw =>
    refine ⟨?_, fun b hb => by rw [memWord_memPut_other _ _ hb, memWord_of_mem hmem], fun e' he' => ?_⟩
    · rw [memWord_memPut_same, show wbStopped (memPut a w u) a = wbStopped u a from rfl, eq_false_of_ne_true hw, hwritten]
    · rw [he, Option.some.injEq] at he'
      subst he'
      exact ⟨hsticky, hcount⟩

/-- What a read comes to for what it finds. -/
theorem memTreat_state (a source : Nat) (s : State) : (memTreat a source s).2.2 =
    match found s a with
    | .good => s
    | .ce sym =>
      let u := State.evt 0xC1 0 (ceTrack a source sym ((bufCount 0 s).bump (F.BUF_PC_CE_count (pcOf a)) 1))
      if wbStopped u a then u else memPut a (eccDecode (memWord s a)).2 u
    | .addrErr => State.evt 0xC1 2 (bufRecordSlow 3 source a ((bufCount 2 s).bump (F.BUF_PC_UE_count (pcOf a)) 1))
    | .poison => State.evt 0xC1 3 (bufRecordSlow 4 source a ((bufCount 3 s).bump (F.BUF_PC_UE_count (pcOf a)) 1))
    | .ue =>
      let u := State.evt 0xC1 1 (bufRecordSlow 2 source a ((bufCount 1 s).bump (F.BUF_PC_UE_count (pcOf a)) 1))
      if wbStopped u a then u else memPut a (poisoned (dataAt s a)) u := by
  unfold memTreat found dataAt
  dsimp only
  generalize eccDecode (memWord s a) = d
  obtain ⟨r, v⟩ := d
  cases r <;> rfl

theorem slow_counted {e : Nat} (he : e < 4) (type source a : Nat) (s : State) :
    Fits (Sparing (readParts e)) ((bufCount e s).bump (F.BUF_PC_UE_count (pcOf a)) 1)
      (bufRecordSlow type source a ((bufCount e s).bump (F.BUF_PC_UE_count (pcOf a)) 1)) :=
  .bufRecordSlow _ _ _ _ (.refl _ _) ⟨by simp [Sparing, readParts], bufRecord_sparing he⟩

theorem memTreat_wordRead (a source : Nat) (s : State) : wordRead a s (memTreat a source s).2.2 := by
  rw [memTreat_state]
  cases hfound : found s a with
  | good =>
    dsimp only
    refine ⟨by simp [readLeaves, hfound], fun _ _ => rfl, fun e he => ?_⟩
    rw [hfound] at he
    cases he
  | ce sym =>
    obtain ⟨hmem, hsticky, hcount⟩ := counted_spec (e := 0) (s := s) (by omega) (f := F.BUF_PC_CE_count (pcOf a)) (by simp; omega)
      (.ceTrack a source sym _ (.refl _ _) (ceTrack_sparing (by omega)))
    exact wordRead_of_counted _ (by rw [hfound]; rfl) hmem hsticky hcount (by simp [readLeaves, hfound]) (by simp [readLeaves, hfound])
  | addrErr =>
    obtain ⟨hmem, hsticky, hcount⟩ := counted_spec (by omega) (by simp; omega) (slow_counted (e := 2) (by omega) 3 source a s)
    exact wordRead_of_same (by rw [hfound]; rfl) hmem hsticky hcount (by simp [readLeaves, hfound])
  | poison =>
    obtain ⟨hmem, hsticky, hcount⟩ := counted_spec (by omega) (by simp; omega) (slow_counted (e := 3) (by omega) 4 source a s)
    exact wordRead_of_same (by rw [hfound]; rfl) hmem hsticky hcount (by simp [readLeaves, hfound])
  | ue =>
    obtain ⟨hmem, hsticky, hcount⟩ := counted_spec (by omega) (by simp; omega) (slow_counted (e := 1) (by omega) 2 source a s)
    exact wordRead_of_counted _ (by rw [hfound]; rfl) hmem hsticky hcount (by simp [readLeaves, hfound])
      (by simp only [readLeaves, hfound, dataAt, Bool.false_eq_true, if_false])

/-! ## A write (R365, R374) -/

theorem memWord_fits {s t : State} {N : Part → Prop} (h : Fits N s t) (hmem : ¬ N .bufMem) (a : Nat) : memWord t a = memWord s a :=
  memWord_of_mem (h.within .bufMem hmem) a

theorem memWord_bufRecord (type source addr symbol : Nat) (s : State) (a : Nat) :
    memWord (bufRecord type source addr symbol s) a = memWord s a :=
  memWord_fits (.bufRecord type source addr symbol s (.refl _ _) (bufRecord_sparing (e := 0) (by omega))) (by simp [Sparing, readParts]) a

theorem memWord_bufCount (c : Nat) (s : State) (a : Nat) : memWord (bufCount c s) a = memWord s a := rfl

theorem memWord_physWrite_same (a mask data source : Nat) (s : State) :
    memWord (physWrite a mask data source s) a = writtenWord mask data (memWord s a) := by
  unfold physWrite writtenWord
  generalize eccDecode (memWord s a) = d
  obtain ⟨r, v⟩ := d
  split
  · exact memWord_memPut_same ..
  · cases r <;> exact memWord_memPut_same ..

theorem memWord_physWrite_other {a b : Nat} (mask data source : Nat) (s : State) (h : b ≠ a) :
    memWord (physWrite a mask data source s) b = memWord s b := by
  unfold physWrite
  generalize eccDecode (memWord s a) = d
  obtain ⟨r, v⟩ := d
  split
  · exact memWord_memPut_other _ _ h
  · cases r <;> dsimp only <;> rw [memWord_memPut_other _ _ h] <;> simp only [memWord_bufRecord, memWord_bufCount]

theorem logicalWrite_written (n mask data source : Nat) (s : State) : wordWritten n mask data s (logicalWrite n mask data source s) := by
  unfold logicalWrite wordWritten mirrorAddr
  dsimp only
  cases mirrorPage s (n / 2048) with
  | none =>
    refine ⟨fun _ => ⟨memWord_physWrite_same .., fun b hb => ?_⟩, fun a ha _ => memWord_physWrite_other _ _ _ _ ha⟩
    cases hb
  | some q =>
    refine ⟨fun hne => ?_, fun a ha hq => ?_⟩
    · have hdiff : physAddr s n ≠ q * 2048 + n % 2048 := fun e => hne (congrArg some e.symm)
      refine ⟨?_, fun b hb => ?_⟩
      · exact (memWord_physWrite_other _ _ _ _ hdiff).trans (memWord_physWrite_same ..)
      · obtain rfl : q * 2048 + n % 2048 = b := Option.some.inj hb
        exact (memWord_physWrite_same ..).trans (congrArg _ (memWord_physWrite_other _ _ _ _ hdiff.symm))
    · have hq : a ≠ q * 2048 + n % 2048 := fun e => hq (congrArg some e.symm)
      exact (memWord_physWrite_other _ _ _ _ hq).trans (memWord_physWrite_other _ _ _ _ ha)

theorem wordWritten.of_words {n mask data : Nat} {s s' t t' : State} (h : wordWritten n mask data s t)
    (hphys : physAddr s' n = physAddr s n) (hmirror : mirrorAddr s' n = mirrorAddr s n) (hs : ∀ a, memWord s' a = memWord s a)
    (ht : ∀ a, memWord t' a = memWord t a) : wordWritten n mask data s' t' := by
  unfold wordWritten at h ⊢
  rw [hphys, hmirror]
  simpa only [hs, ht] using h

/-! ## The commands -/

/-- A change that keeps to the parts and the fields listed, where neither the words nor what a read counts is among them. -/
theorem sameReads_of_only {s t : State} {ps : List Part} {fs : List Regs} (h : Fits (only ps fs) s t) (hbuf : .buf ∉ ps) (hmem : .bufMem ∉ ps)
    (hfs : ∀ k, regs fs k → k ≠ F.BUF_ECC_CTRL_wb_en.key ∧ k ≠ (F.EVT_STICKY 0xC1).key ∧ ∀ e, e < 4 → k ≠ (F.BUF_CNT_count e).key) :
    SameReads s t :=
  sameReads_of_fits h hbuf hmem (fun hk => (hfs _ hk).1 rfl) (fun e he hk => (hfs _ hk).2.2 e he rfl) (fun hk => (hfs _ hk).2.1 rfl)

theorem regs_nil {k : Nat} : ¬ regs [] k := fun ⟨_, h, _⟩ => absurd h List.not_mem_nil

theorem exec_bufMemRead_reads (n : Fin 528482304) (source : Fin 6) (ups : List (Fin 36 × Byte)) (s : State) (hup : memUp s = true) :
    ∃ t, exec (.bufMemRead n source ups) s = .next t ∧ wordRead (physAddr s n.val) (upsetWord (physAddr s n.val) ups s) t := by
  refine ⟨_, by rw [exec_bufMemRead, execBufMemRead, if_pos hup], wordRead.later (memTreat_wordRead (physAddr s n.val) source.val _) ?_⟩
  refine sameReads_of_only (ps := [.grp, .ev]) (fs := []) ?_ (by simp) (by simp) fun k hk => absurd hk regs_nil
  exact .datapath _ _ _ (.ite (fun _ => .deskewBad _ _ (.refl _ _) (.head _)) fun _ => .refl _ _) (.tail _ (.head _))

theorem exec_bufMemWrite_writes (n : Fin 528482304) (mask : Word) (data : BitVec 256) (source : Fin 6) (s : State) (hup : memUp s = true) :
    ∃ t, exec (.bufMemWrite n mask data source) s = .next t ∧ wordWritten n.val mask.toNat data.toNat s t := by
  refine ⟨_, by rw [exec_bufMemWrite, execBufMemWrite, if_pos hup], ?_⟩
  exact wordWritten.of_words (logicalWrite_written n.val mask.toNat data.toNat source.val s) rfl rfl (fun _ => rfl) fun _ => rfl

theorem SameReads.upset {s t : State} (h : SameReads s t) (a : Nat) (ups : List (Fin 36 × Byte)) :
    SameReads (upsetWord a ups s) (upsetWord a ups t) := by
  unfold upsetWord
  split
  · exact h
  · refine ⟨?_, h.track, h.wbEn, h.count, h.sticky⟩
    simp only [memPut, modBuf, h.mem, memWord_of_mem h.mem]

/-- R368: the word the scrubber reads next, counted on past the end of memory. -/
def scrubWord (s : State) : Nat :=
  if nextScrub s 8200 (s.buf.scrubNext / 2048) = s.buf.scrubNext / 2048 then s.buf.scrubNext
  else nextScrub s 8200 (s.buf.scrubNext / 2048) * 2048

/-- R369: the scrubber's lag and the end of its pass are reported. -/
def scrubReport (late : Bool) (s : State) : State :=
  let t := if late && !s.on F.BUF_SCRUB_STAT_late then State.evt 0xC0 2 (s.setB F.BUF_SCRUB_STAT_late late)
    else s.setB F.BUF_SCRUB_STAT_late late
  if decide (2 ^ 29 ≤ scrubWord s) then State.evt 0xC4 0 (t.incWrap F.BUF_SCRUB_PASSES_passes 1) else t

theorem exec_scrubRead_eq (ups : List (Fin 36 × Byte)) (late : Bool) (s : State) (hup : memUp s = true)
    (hen : s.on F.BUF_SCRUB_CTRL_en = true) :
    exec (.scrubRead ups late) s = .next (modBuf (fun b => { b with scrubNext := scrubWord s % 2 ^ 29 + 1 })
      ((memTreat (scrubWord s % 2 ^ 29) 3 (upsetWord (scrubWord s % 2 ^ 29) ups (scrubReport late s))).2.2.setF F.BUF_SCRUB_STAT_addr
        (scrubWord s % 2 ^ 29))) := by
  rw [exec_scrubRead, execScrubRead, if_pos (by simp [hup, hen])]
  rfl

theorem sameReads_scrubReport (late : Bool) (s : State) : SameReads s (scrubReport late s) := by
  refine sameReads_of_only (ps := [.ev])
    (fs := [one F.BUF_SCRUB_STAT_late, one F.BUF_SCRUB_PASSES_passes, events [0xC0, 0xC4]]) ?_ (by simp) (by simp) fun k hk => ?_
  · have hlag : Fits (only [.ev] [one F.BUF_SCRUB_STAT_late, one F.BUF_SCRUB_PASSES_passes, events [0xC0, 0xC4]]) s
        (s.setB F.BUF_SCRUB_STAT_late late) := .setB _ _ _ (.refl _ _) ⟨_, .head _, rfl⟩
    have hevt (p : Nat) (hp : p ∈ [0xC0, 0xC4]) :
        Touches.evt (only [.ev] [one F.BUF_SCRUB_STAT_late, one F.BUF_SCRUB_PASSES_passes, events [0xC0, 0xC4]]) p :=
      ⟨.head _, ⟨⟨_, .tail _ (.tail _ (.head _)), p, hp, rfl⟩⟩⟩
    have hlate := Fits.ite (c := (late && !s.on F.BUF_SCRUB_STAT_late) = true) (fun _ => .evt 0xC0 2 _ hlag (hevt _ (by simp)))
      fun _ => hlag
    exact .ite (fun _ => .evt _ _ _ (.setF _ _ _ hlate ⟨_, .tail _ (.head _), rfl⟩) (hevt _ (by simp))) fun _ => hlate
  · simp only [regs, one, events, List.mem_cons, List.not_mem_nil, or_false, exists_eq_or_imp, exists_eq_left] at hk
    obtain rfl | rfl | rfl | rfl := hk <;> simp <;> omega

theorem on_scrubReport (late : Bool) (s : State) : (scrubReport late s).on F.BUF_SCRUB_STAT_late = late := by
  unfold scrubReport
  have hlag := on_setB s F.BUF_SCRUB_STAT_late late rfl
  have hlate : (if (late && !s.on F.BUF_SCRUB_STAT_late) = true then State.evt 0xC0 2 (s.setB F.BUF_SCRUB_STAT_late late)
      else s.setB F.BUF_SCRUB_STAT_late late).on F.BUF_SCRUB_STAT_late = late := by
    split
    · rw [on_evt_other _ _ _ (by simp), hlag]
    · exact hlag
  dsimp only
  split
  · rw [on_evt_other _ _ _ (by simp), State.on, g_incWrap_other _ _ (by simp), ← State.on, hlate]
  · exact hlate

theorem pcOf_lt (a : Nat) : pcOf a < 32 := Nat.mod_lt _ (by omega)

theorem memTreat_sparing_late (a : Nat) : Touches.memTreat (Sparing [.reg F.BUF_SCRUB_STAT_late.key]) a := by
  have hpc := pcOf_lt a
  repeat' first | with_reducible intro _ | constructor | (simp [Sparing] <;> omega)

theorem on_upsetWord (a : Nat) (ups : List (Fin 36 × Byte)) (s : State) (f : Field) : (upsetWord a ups s).on f = s.on f := by
  unfold upsetWord
  split <;> rfl

theorem sameReads_scrubEnd (a n : Nat) (s : State) :
    SameReads s (modBuf (fun b => { b with scrubNext := n }) (s.setF F.BUF_SCRUB_STAT_addr a)) :=
  ⟨rfl, rfl, on_setF_other s a (by simp), fun e he => g_setF_other s a (by simp; omega), fun e _ h => sticky_setF a (by simp) h⟩

theorem exec_scrubRead_reads (ups : List (Fin 36 × Byte)) (late : Bool) (s : State) (hup : memUp s = true)
    (hen : s.on F.BUF_SCRUB_CTRL_en = true) :
    ∃ t, exec (.scrubRead ups late) s = .next t ∧ t.buf.scrubNext = t.g F.BUF_SCRUB_STAT_addr + 1 ∧
      t.on F.BUF_SCRUB_STAT_late = late ∧ wordRead (t.g F.BUF_SCRUB_STAT_addr) (upsetWord (t.g F.BUF_SCRUB_STAT_addr) ups s) t := by
  refine ⟨_, exec_scrubRead_eq ups late s hup hen, ?_⟩
  have haddr (v : State) (f : Buf → Buf) :
      (modBuf f (v.setF F.BUF_SCRUB_STAT_addr (scrubWord s % 2 ^ 29))).g F.BUF_SCRUB_STAT_addr = scrubWord s % 2 ^ 29 :=
    (g_setF_same v F.BUF_SCRUB_STAT_addr _).trans (Nat.mod_mod _ _)
  rw [haddr]
  refine ⟨rfl, ?_, wordRead.later (wordRead.earlier (memTreat_wordRead _ 3 _) ((sameReads_scrubReport late s).upset _ ups)) ?_⟩
  · refine (on_setF_other _ _ (by simp)).trans ?_
    rw [(Fits.memTreat _ _ _ (.refl _ _) (memTreat_sparing_late _)).on_spared (.head _), on_upsetWord, on_scrubReport]
  · exact sameReads_scrubEnd _ _ _

/-! ## The host window (R378) -/

@[simp] theorem memUp_access (m : Master) (s : State) : memUp (State.access m s) = memUp s := by
  unfold State.access
  split <;> rfl

@[simp] theorem windowDenied_access (m : Master) (s : State) (write : Bool) (p : Nat) :
    windowDenied (State.access m s) write p = windowDenied s write p := by
  unfold State.access
  split <;> rfl

@[simp] theorem physPage_access (m : Master) (s : State) (p : Nat) : physPage (State.access m s) p = physPage s p := by
  rw [physPage, State.access_buf, physPage]

theorem memWord_access (m : Master) (s : State) (a : Nat) : memWord (State.access m s) a = memWord s a := by
  rw [memWord, State.access_buf, memWord]

theorem memTreat_eq (a source : Nat) (s : State) : memTreat a source s = (found s a, dataAt s a, (memTreat a source s).2.2) := by
  unfold memTreat found dataAt
  dsimp only
  generalize eccDecode (memWord s a) = d
  obtain ⟨r, v⟩ := d
  cases r <;> rfl

theorem sameReads_access (m : Master) (s : State) : SameReads s (State.access m s) :=
  ⟨by simp, by simp, by simp, by simp, fun e _ h => sticky_of_fields h (by simp)⟩

/-- R378: what a window read of the word at `a` answers and leaves, for what it finds. -/
theorem windowRead_eq (m : Master) (off : Nat) (s : State) (hup : memUp s = true)
    (hden : windowDenied s false (s.g F.BUF_WIN_PAGE_page) = false) :
    windowRead m off s =
      let a := physPage s (s.g F.BUF_WIN_PAGE_page) * 2048 + off / 32
      let u := State.datapath (memTreat a 2 (State.access m s)).2.2 (832 + 4 * pcOf a) 1
      match windowFailure (found s a) with
      | some x => (0xFFFFFFFF, u.setF F.BUF_WIN_STAT_result x)
      | none => (dataAt s a / 256 ^ (off % 32 / 4 * 4) % 2 ^ 32, u) := by
  unfold windowRead
  simp only [memUp_access, hup, g_access, windowDenied_access, hden, physPage_access, Bool.not_true, Bool.false_eq_true, if_false]
  rw [memTreat_eq]
  simp only [found, dataAt, memWord_access]
  generalize eccDecode (memWord s (physPage s (s.g F.BUF_WIN_PAGE_page) * 2048 + off / 32)) = d
  obtain ⟨r, v⟩ := d
  cases r <;> rfl

theorem windowRead_denied (m : Master) (off : Nat) (s : State) (hup : memUp s = true)
    (hden : windowDenied s false (s.g F.BUF_WIN_PAGE_page) = true) :
    windowRead m off s = (0xFFFFFFFF, (State.access m s).fabErr (mcode m) .denied (0x300000 + off)) := by
  unfold windowRead
  simp [hup, hden]

/-- The data of a read reach the master. -/
def deliver (d : Nat × State) : State := { d.2 with fab := { d.2.fab with readData := d.1 } }

theorem exec_hostWinRead_eq (m : Master) (off : Fin 65536) (s : State) (hreach : s.reaches m 0xC0 = true) :
    exec (.hostWinRead m off) s = .next (deliver (windowRead m off.val s)) := by
  rw [exec_hostWinRead, execHostWinRead, if_neg (by simp [hreach])]
  rfl

theorem physAddr_window (s : State) (p : Nat) (off : Fin 65536) : physAddr s (p * 2048 + off.val / 32) = physPage s p * 2048 + off.val / 32 := by
  have hoff := off.isLt
  rw [physAddr, show (p * 2048 + off.val / 32) / 2048 = p by omega, show (p * 2048 + off.val / 32) % 2048 = off.val / 32 by omega]

theorem sameReads_delivered (n x : Nat) (d : Nat) (s : State) :
    SameReads s (deliver (d, (State.datapath s n 1).setF F.BUF_WIN_STAT_result x)) :=
  ⟨rfl, rfl, on_setF_other _ x (by simp), fun e he => g_setF_other _ x (by simp; omega), fun e _ h => sticky_setF x (by simp) h⟩

theorem exec_hostWinRead_reads (m : Master) (off : Fin 65536) (s : State) (hreach : s.reaches m 0xC0 = true) (hup : memUp s = true) :
    ∃ t, exec (.hostWinRead m off) s = .next t ∧
      let a := physAddr s (s.g F.BUF_WIN_PAGE_page * 2048 + off.val / 32)
      (windowDenied s false (s.g F.BUF_WIN_PAGE_page) = true → t.fab.readData = 0xFFFFFFFF ∧ t.buf = s.buf) ∧
      (windowDenied s false (s.g F.BUF_WIN_PAGE_page) = false → wordRead a s t ∧
        (∀ x, windowFailure (found s a) = some x → t.fab.readData = 0xFFFFFFFF ∧ t.g F.BUF_WIN_STAT_result = x) ∧
        (windowFailure (found s a) = none → t.fab.readData = dataAt s a / 256 ^ (off.val % 32 / 4 * 4) % 2 ^ 32)) := by
  refine ⟨_, exec_hostWinRead_eq m off s hreach, fun hden => ?_, fun hden => ?_⟩
  · rw [windowRead_denied m off.val s hup hden]
    simp [deliver]
  rw [physAddr_window, windowRead_eq m off.val s hup hden]
  generalize physPage s (s.g F.BUF_WIN_PAGE_page) * 2048 + off.val / 32 = a
  have hread := wordRead.earlier (memTreat_wordRead a 2 (State.access m s)) (sameReads_access m s)
  dsimp only
  generalize (memTreat a 2 (State.access m s)).2.2 = u at hread ⊢
  cases hfail : windowFailure (found s a) with
  | none => exact ⟨wordRead.later hread ⟨rfl, rfl, rfl, fun _ _ => rfl, fun _ _ h => h⟩, nofun, fun _ => rfl⟩
  | some x =>
    refine ⟨wordRead.later hread (sameReads_delivered _ x _ u), fun y hy => ⟨rfl, ?_⟩, nofun⟩
    obtain rfl := Option.some.inj hy
    refine (g_setF_same _ F.BUF_WIN_STAT_result x).trans ?_
    rw [F.BUF_WIN_STAT_result_width]
    have hx : x < 16 := by
      cases hf : found s a <;> simp [windowFailure, hf] at hfail <;> omega
    omega

theorem mirrorPage_access (m : Master) (s : State) (p : Nat) : mirrorPage (State.access m s) p = mirrorPage s p := by
  unfold mirrorPage
  rw [State.access_buf, g_access]

/-- R378: a window write that its page's LOCK admits. -/
theorem windowWrite_eq (m : Master) (off value : Nat) (s : State) (hadm : s.admits m 0xC0 true) (hup : memUp s = true) :
    windowWrite m off value s =
      if windowDenied s true (s.g F.BUF_WIN_PAGE_page) then (State.access m s).refuse (mcode m) .denied (0x300000 + off)
      else logicalWrite (s.g F.BUF_WIN_PAGE_page * 2048 + off / 32) (15 * 2 ^ (off % 32 / 4 * 4)) (value * 256 ^ (off % 32 / 4 * 4)) 2
        (State.datapath (State.access m s) (832 + 4 * pcOf (off / 32) + 2) 1) := by
  obtain ⟨hreach, -, -, hlock⟩ := hadm
  unfold windowWrite
  simp only [hreach, hup, hlock, g_access, windowDenied_access, Bool.not_true, Bool.false_eq_true, if_false]

theorem sticky_refuse (m : Nat) (r : FabReason) (addr p : Nat) (s : State) (hp : pageOf addr = p) (hdef : definedPage p = true) :
    (State.refuse m r addr s).sticky p 26 := by
  unfold State.refuse
  rw [hp]
  dsimp only
  rw [if_pos hdef]
  exact sticky_evt _ _ _ (by omega)

theorem exec_hostWinWrite_writes (m : Master) (off : Fin 65536) (v : Word) (s : State) (hadm : s.admits m 0xC0 true) (hup : memUp s = true) :
    ∃ t, exec (.hostWinWrite m off v) s = .next t ∧
      (windowDenied s true (s.g F.BUF_WIN_PAGE_page) = true → t.buf = s.buf ∧ t.sticky 0xC0 26) ∧
      (windowDenied s true (s.g F.BUF_WIN_PAGE_page) = false → wordWritten (s.g F.BUF_WIN_PAGE_page * 2048 + off.val / 32)
        (15 * 2 ^ (off.val % 32 / 4 * 4)) (v.toNat * 256 ^ (off.val % 32 / 4 * 4)) s t) := by
  refine ⟨_, by rw [exec_hostWinWrite, execHostWinWrite, windowWrite_eq m off.val v.toNat s hadm hup], fun hden => ?_, fun hden => ?_⟩
  · have hoff := off.isLt
    rw [if_pos hden]
    have hpage : pageOf (0x300000 + off.val) = 0xC0 := by
      unfold pageOf
      rw [if_neg (by omega), if_neg (by simp; omega), if_neg (by simp; omega), if_pos (by simp; omega)]
    exact ⟨by simp, sticky_refuse _ _ _ 0xC0 _ hpage (by decide)⟩
  · rw [if_neg (by simp [hden])]
    generalize 832 + 4 * pcOf (off.val / 32) + 2 = event
    have hphys : physAddr s = physAddr (State.datapath (State.access m s) event 1) :=
      funext fun n => congrArg (· * 2048 + n % 2048) (physPage_access m s (n / 2048)).symm
    have hmirror : mirrorAddr s = mirrorAddr (State.datapath (State.access m s) event 1) :=
      funext fun n => congrArg (Option.map fun q => q * 2048 + n % 2048) (mirrorPage_access m s (n / 2048)).symm
    exact wordWritten.of_words (logicalWrite_written _ _ _ _ _) (congrFun hphys _) (congrFun hmirror _)
      (fun a => (memWord_access m s a).symm) fun _ => rfl

/-- Settles O42: each access of package memory by the words it reads and leaves. -/
theorem memoryWordsMove : Obligations.MemoryWordsMove :=
  ⟨exec_bufMemRead_reads, exec_bufMemWrite_writes, exec_scrubRead_reads, exec_hostWinRead_reads, exec_hostWinWrite_writes⟩

end Sys2Proof.Machine

/-! The frames of the line engines, their receivers and bursts: what each command touches lies in `frame`. -/

namespace Sys2Proof.Machine

theorem fits_engineStartStep (le : Fin 2) (ok : Bool) (cals : List UnitCal) (bad : List (Fin 26)) (s : State) :
    FitsOut (frame (.engineStartStep le ok cals bad)) s (execEngineStartStep le ok cals bad s) := by
  with_reducible refine FitsOut.of_all ?_
  intro N h
  with_reducible refine FitsOut.execEngineStartStep _ _ _ _ _ (.refl _ _) ?_
  dsimp only [frame] at h
  delta errorRegs decoderRegs engineDownRegs commitCancelRegs engineStoppedRegs cipherLoadRegs converterMapRegs at h
  simp only [only_lets, frame_facts, frame_split, ne_eq, reduceCtorEq, not_false_eq_true] at h
  casesm* _ ∧ _
  have hstop : Touches.engineStopping N le.val := by
    repeat' first
      | with_reducible intro _
      | with_reducible constructor
      | simp only [*]
  have hlos : Touches.losEval N le.val := by
    repeat' first
      | with_reducible intro _
      | with_reducible constructor
      | simp only [*]
  have hmove : Touches.rxMove N le.val := hlos.c_rxMove
  repeat' first
    | with_reducible exact hstop
    | with_reducible exact hmove
    | with_reducible exact hlos
    | with_reducible intro _
    | with_reducible constructor
    | with_reducible assumption
    | simp only [*]

theorem fits_engineStopComplete (le : Fin 2) (s : State) :
    FitsOut (frame (.engineStopComplete le)) s (execEngineStopComplete le s) := by
  with_reducible refine FitsOut.of_all ?_
  intro N h
  with_reducible refine FitsOut.execEngineStopComplete _ _ (.refl _ _) ?_
  dsimp only [frame] at h
  delta engineStoppedRegs cipherLoadRegs converterMapRegs at h
  simp only [only_lets, frame_facts, frame_split, ne_eq, reduceCtorEq, not_false_eq_true] at h
  casesm* _ ∧ _
  repeat' first
    | with_reducible intro _
    | with_reducible constructor
    | with_reducible assumption
    | simp only [*]

theorem fits_reloadDone (le : Fin 2) (fail : Option Bool) (s : State) :
    FitsOut (frame (.reloadDone le fail)) s (execReloadDone le fail s) := by
  with_reducible refine FitsOut.of_all ?_
  intro N h
  with_reducible refine FitsOut.execReloadDone _ _ _ (.refl _ _) ?_
  dsimp only [frame] at h
  delta errorRegs engineDownRegs commitCancelRegs engineStoppedRegs cipherLoadRegs converterMapRegs at h
  simp only [only_lets, frame_facts, frame_split, ne_eq, reduceCtorEq, not_false_eq_true] at h
  casesm* _ ∧ _
  repeat' first
    | with_reducible intro _
    | with_reducible constructor
    | with_reducible assumption
    | simp only [*]

theorem fits_maskMeasurement (le : Fin 2) (psd : List (Fin 256 × Int)) (s : State) :
    FitsOut (frame (.maskMeasurement le psd)) s (execMaskMeasurement le psd s) := by
  with_reducible refine FitsOut.of_all ?_
  intro N h
  with_reducible refine FitsOut.execMaskMeasurement _ _ _ (.refl _ _) ?_
  dsimp only [frame] at h
  simp only [only_lets, frame_facts, frame_split, ne_eq, reduceCtorEq, not_false_eq_true] at h
  casesm* _ ∧ _
  repeat' first
    | with_reducible intro _
    | with_reducible constructor
    | with_reducible assumption
    | simp only [*]

theorem fits_maskUnmute (m : Master) (le : Fin 2) (bits : Word) (s : State) :
    FitsOut (frame (.maskUnmute m le bits)) s (execMaskUnmute m le bits s) := by
  with_reducible refine FitsOut.of_all ?_
  intro N h
  with_reducible refine FitsOut.execMaskUnmute _ _ _ _ (.refl _ _) ?_
  dsimp only [frame] at h
  delta fabricErrorRegs at h
  simp only [only_lets, frame_facts, frame_split, ne_eq, reduceCtorEq, not_false_eq_true] at h
  casesm* _ ∧ _
  repeat' first
    | with_reducible intro _
    | with_reducible constructor
    | with_reducible assumption

theorem fits_losRawSet (le : Fin 2) (optical : Bool) (s : State) :
    FitsOut (frame (.losRawSet le optical)) s (execLosRawSet le optical s) := by
  with_reducible refine FitsOut.of_all ?_
  intro N h
  with_reducible refine FitsOut.execLosRawSet _ _ _ (.refl _ _) ?_
  dsimp only [frame] at h
  delta receiverMoveRegs framerSyncRegs at h
  simp only [only_lets, frame_facts, frame_split, ne_eq, reduceCtorEq, not_false_eq_true] at h
  casesm* _ ∧ _
  repeat' first
    | with_reducible intro _
    | with_reducible constructor
    | with_reducible assumption

theorem fits_signalDetected (le : Fin 2) (s : State) :
    FitsOut (frame (.signalDetected le)) s (execSignalDetected le s) := by
  with_reducible refine FitsOut.of_all ?_
  intro N h
  with_reducible refine FitsOut.execSignalDetected _ _ (.refl _ _) ?_
  dsimp only [frame] at h
  delta receiverMoveRegs framerSyncRegs at h
  simp only [only_lets, frame_facts, frame_split, ne_eq, reduceCtorEq, not_false_eq_true] at h
  casesm* _ ∧ _
  repeat' first
    | with_reducible intro _
    | with_reducible constructor
    | with_reducible assumption

theorem fits_cdScanEnd (le : Fin 2) (peak : Option Int) (s : State) :
    FitsOut (frame (.cdScanEnd le peak)) s (execCdScanEnd le peak s) := by
  with_reducible refine FitsOut.of_all ?_
  intro N h
  with_reducible refine FitsOut.execCdScanEnd _ _ _ (.refl _ _) ?_
  dsimp only [frame] at h
  delta receiverMoveRegs framerSyncRegs at h
  simp only [only_lets, frame_facts, frame_split, ne_eq, reduceCtorEq, not_false_eq_true] at h
  casesm* _ ∧ _
  repeat' first
    | with_reducible intro _
    | with_reducible constructor
    | with_reducible assumption

theorem fits_freqOffsetFound (le : Fin 2) (kHz : Int) (s : State) :
    FitsOut (frame (.freqOffsetFound le kHz)) s (execFreqOffsetFound le kHz s) := by
  with_reducible refine FitsOut.of_all ?_
  intro N h
  with_reducible refine FitsOut.execFreqOffsetFound _ _ _ (.refl _ _) ?_
  dsimp only [frame] at h
  delta receiverMoveRegs framerSyncRegs at h
  simp only [only_lets, frame_facts, frame_split, ne_eq, reduceCtorEq, not_false_eq_true] at h
  casesm* _ ∧ _
  repeat' first
    | with_reducible intro _
    | with_reducible constructor
    | with_reducible assumption

theorem fits_freqAcqTimeout (le : Fin 2) (s : State) :
    FitsOut (frame (.freqAcqTimeout le)) s (execFreqAcqTimeout le s) := by
  with_reducible refine FitsOut.of_all ?_
  intro N h
  with_reducible refine FitsOut.execFreqAcqTimeout _ _ (.refl _ _) ?_
  dsimp only [frame] at h
  delta receiverMoveRegs framerSyncRegs at h
  simp only [only_lets, frame_facts, frame_split, ne_eq, reduceCtorEq, not_false_eq_true] at h
  casesm* _ ∧ _
  repeat' first
    | with_reducible intro _
    | with_reducible constructor
    | with_reducible assumption

theorem fits_scAcqTimeout (le : Fin 2) (s : State) :
    FitsOut (frame (.scAcqTimeout le)) s (execScAcqTimeout le s) := by
  with_reducible refine FitsOut.of_all ?_
  intro N h
  with_reducible refine FitsOut.execScAcqTimeout _ _ (.refl _ _) ?_
  dsimp only [frame] at h
  delta receiverMoveRegs framerSyncRegs at h
  simp only [only_lets, frame_facts, frame_split, ne_eq, reduceCtorEq, not_false_eq_true] at h
  casesm* _ ∧ _
  repeat' first
    | with_reducible intro _
    | with_reducible constructor
    | with_reducible assumption

theorem fits_engineLockLoss (le : Fin 2) (s : State) :
    FitsOut (frame (.engineLockLoss le)) s (execEngineLockLoss le s) := by
  with_reducible refine FitsOut.of_all ?_
  intro N h
  with_reducible refine FitsOut.execEngineLockLoss _ _ (.refl _ _) ?_
  dsimp only [frame] at h
  delta receiverMoveRegs framerSyncRegs at h
  simp only [only_lets, frame_facts, frame_split, ne_eq, reduceCtorEq, not_false_eq_true] at h
  casesm* _ ∧ _
  repeat' first
    | with_reducible intro _
    | with_reducible constructor
    | with_reducible assumption

theorem fits_freqLimitExceeded (le : Fin 2) (s : State) :
    FitsOut (frame (.freqLimitExceeded le)) s (execFreqLimitExceeded le s) := by
  with_reducible refine FitsOut.of_all ?_
  intro N h
  with_reducible refine FitsOut.execFreqLimitExceeded _ _ (.refl _ _) ?_
  dsimp only [frame] at h
  delta receiverMoveRegs framerSyncRegs at h
  simp only [only_lets, frame_facts, frame_split, ne_eq, reduceCtorEq, not_false_eq_true] at h
  casesm* _ ∧ _
  repeat' first
    | with_reducible intro _
    | with_reducible constructor
    | with_reducible assumption

theorem fits_scConverged (le : Fin 2) (k : Fin 32) (s : State) :
    FitsOut (frame (.scConverged le k)) s (execScConverged le k s) := by
  with_reducible refine FitsOut.of_all ?_
  intro N h
  with_reducible refine FitsOut.execScConverged _ _ _ (.refl _ _) ?_
  dsimp only [frame] at h
  simp only [only_lets, frame_facts, frame_split, ne_eq, reduceCtorEq, not_false_eq_true] at h
  casesm* _ ∧ _
  repeat' first
    | with_reducible intro _
    | with_reducible constructor
    | with_reducible assumption

theorem fits_scConvergeTimeout (le : Fin 2) (k : Fin 32) (s : State) :
    FitsOut (frame (.scConvergeTimeout le k)) s (execScConvergeTimeout le k s) := by
  with_reducible refine FitsOut.of_all ?_
  intro N h
  with_reducible refine FitsOut.execScConvergeTimeout _ _ _ (.refl _ _) ?_
  dsimp only [frame] at h
  simp only [only_lets, frame_facts, frame_split, ne_eq, reduceCtorEq, not_false_eq_true] at h
  casesm* _ ∧ _
  repeat' first
    | with_reducible intro _
    | with_reducible constructor
    | with_reducible assumption

theorem fits_pilotSyncFound (le : Fin 2) (k : Fin 32) (conjugate : Bool) (s : State) :
    FitsOut (frame (.pilotSyncFound le k conjugate)) s (execPilotSyncFound le k conjugate s) := by
  with_reducible refine FitsOut.of_all ?_
  intro N h
  with_reducible refine FitsOut.execPilotSyncFound _ _ _ _ (.refl _ _) ?_
  dsimp only [frame] at h
  delta receiverMoveRegs framerSyncRegs at h
  simp only [only_lets, frame_facts, frame_split, ne_eq, reduceCtorEq, not_false_eq_true] at h
  casesm* _ ∧ _
  repeat' first
    | with_reducible intro _
    | with_reducible constructor
    | with_reducible assumption

theorem fits_pilotSyncTimeout (le : Fin 2) (k : Fin 32) (s : State) :
    FitsOut (frame (.pilotSyncTimeout le k)) s (execPilotSyncTimeout le k s) := by
  with_reducible refine FitsOut.of_all ?_
  intro N h
  with_reducible refine FitsOut.execPilotSyncTimeout _ _ _ (.refl _ _) ?_
  dsimp only [frame] at h
  simp only [only_lets, frame_facts, frame_split, ne_eq, reduceCtorEq, not_false_eq_true] at h
  casesm* _ ∧ _
  repeat' first
    | with_reducible intro _
    | with_reducible constructor
    | with_reducible assumption

theorem fits_scLockLost (le : Fin 2) (k : Fin 32) (s : State) :
    FitsOut (frame (.scLockLost le k)) s (execScLockLost le k s) := by
  with_reducible refine FitsOut.of_all ?_
  intro N h
  with_reducible refine FitsOut.execScLockLost _ _ _ (.refl _ _) ?_
  dsimp only [frame] at h
  delta framerSyncRegs at h
  simp only [only_lets, frame_facts, frame_split, ne_eq, reduceCtorEq, not_false_eq_true] at h
  casesm* _ ∧ _
  repeat' first
    | with_reducible intro _
    | with_reducible constructor
    | with_reducible assumption

theorem fits_singular (le : Fin 2) (k : Fin 32) (s : State) :
    FitsOut (frame (.singular le k)) s (execSingular le k s) := by
  with_reducible refine FitsOut.of_all ?_
  intro N h
  with_reducible refine FitsOut.execSingular _ _ _ (.refl _ _) ?_
  dsimp only [frame] at h
  simp only [only_lets, frame_facts, frame_split, ne_eq, reduceCtorEq, not_false_eq_true] at h
  casesm* _ ∧ _
  repeat' first
    | with_reducible intro _
    | with_reducible constructor
    | with_reducible assumption

theorem fits_cycleSlip (le : Fin 2) (k : Fin 32) (s : State) :
    FitsOut (frame (.cycleSlip le k)) s (execCycleSlip le k s) := by
  with_reducible refine FitsOut.of_all ?_
  intro N h
  with_reducible refine FitsOut.execCycleSlip _ _ _ (.refl _ _) ?_
  dsimp only [frame] at h
  simp only [only_lets, frame_facts, frame_split, ne_eq, reduceCtorEq, not_false_eq_true] at h
  casesm* _ ∧ _
  repeat' first
    | with_reducible intro _
    | with_reducible constructor
    | with_reducible assumption

theorem fits_cdTrackStep (le : Fin 2) (residual : Int) (s : State) :
    FitsOut (frame (.cdTrackStep le residual)) s (execCdTrackStep le residual s) := by
  with_reducible refine FitsOut.of_all ?_
  intro N h
  with_reducible refine FitsOut.execCdTrackStep _ _ _ (.refl _ _) ?_
  dsimp only [frame] at h
  simp only [only_lets, frame_facts, frame_split] at h
  repeat' first
    | with_reducible intro _
    | with_reducible constructor
    | simp only [h]

theorem fits_entropyAnn (le : Fin 2) (body : List Byte) (s : State) :
    FitsOut (frame (.entropyAnn le body)) s (execEntropyAnn le body s) := by
  with_reducible refine FitsOut.of_all ?_
  intro N h
  with_reducible refine FitsOut.execEntropyAnn _ _ _ (.refl _ _) ?_
  dsimp only [frame] at h
  simp only [only_lets, frame_facts, frame_split] at h
  casesm* _ ∧ _
  repeat' first
    | with_reducible intro _
    | with_reducible constructor
    | with_reducible assumption

theorem fits_followApply (le : Fin 2) (s : State) :
    FitsOut (frame (.followApply le)) s (execFollowApply le s) := by
  with_reducible refine FitsOut.of_all ?_
  intro N h
  with_reducible refine FitsOut.execFollowApply _ _ (.refl _ _) ?_
  dsimp only [frame] at h
  delta decoderRegs at h
  simp only [only_lets, frame_facts, frame_split, ne_eq, reduceCtorEq, not_false_eq_true] at h
  casesm* _ ∧ _
  repeat' first
    | with_reducible intro _
    | with_reducible constructor
    | with_reducible assumption

theorem fits_followAlternate (le : Fin 2) (s : State) :
    FitsOut (frame (.followAlternate le)) s (execFollowAlternate le s) := by
  with_reducible refine FitsOut.of_all ?_
  intro N h
  with_reducible refine FitsOut.execFollowAlternate _ _ (.refl _ _) ?_
  dsimp only [frame] at h
  simp only [only_lets, frame_facts, frame_split, ne_eq, reduceCtorEq, not_false_eq_true] at h
  casesm* _ ∧ _
  repeat' first
    | with_reducible intro _
    | with_reducible constructor
    | with_reducible assumption

theorem fits_followGiveUp (le : Fin 2) (s : State) :
    FitsOut (frame (.followGiveUp le)) s (execFollowGiveUp le s) := by
  with_reducible refine FitsOut.of_all ?_
  intro N h
  with_reducible refine FitsOut.execFollowGiveUp _ _ (.refl _ _) ?_
  dsimp only [frame] at h
  simp only [only_lets, frame_facts, frame_split, ne_eq, reduceCtorEq, not_false_eq_true] at h
  casesm* _ ∧ _
  repeat' first
    | with_reducible intro _
    | with_reducible constructor
    | with_reducible assumption

theorem fits_reflCandidate (le : Fin 2) (peak : Nat) (level : Int) (s : State) :
    FitsOut (frame (.reflCandidate le peak level)) s (execReflCandidate le peak level s) := by
  with_reducible refine FitsOut.of_all ?_
  intro N h
  with_reducible refine FitsOut.execReflCandidate _ _ _ _ (.refl _ _) ?_
  dsimp only [frame] at h
  simp only [only_lets, frame_facts, frame_split, ne_eq, reduceCtorEq, not_false_eq_true] at h
  casesm* _ ∧ _
  repeat' first
    | with_reducible intro _
    | with_reducible constructor
    | with_reducible assumption
    | simp only [*]

theorem fits_reflCandidateEnd (le : Fin 2) (r : Fin 8) (level : Int) (suppression : Int) (s : State) :
    FitsOut (frame (.reflCandidateEnd le r level suppression)) s (execReflCandidateEnd le r level suppression s) := by
  with_reducible refine FitsOut.of_all ?_
  intro N h
  with_reducible refine FitsOut.execReflCandidateEnd _ _ _ _ _ (.refl _ _) ?_
  dsimp only [frame] at h
  simp only [only_lets, frame_facts, frame_split, ne_eq, reduceCtorEq, not_false_eq_true] at h
  casesm* _ ∧ _
  repeat' first
    | with_reducible intro _
    | with_reducible constructor
    | with_reducible assumption

theorem fits_reflLost (le : Fin 2) (r : Fin 8) (s : State) :
    FitsOut (frame (.reflLost le r)) s (execReflLost le r s) := by
  with_reducible refine FitsOut.of_all ?_
  intro N h
  with_reducible refine FitsOut.execReflLost _ _ _ (.refl _ _) ?_
  dsimp only [frame] at h
  simp only [only_lets, frame_facts, frame_split, ne_eq, reduceCtorEq, not_false_eq_true] at h
  casesm* _ ∧ _
  repeat' first
    | with_reducible intro _
    | with_reducible constructor
    | with_reducible assumption

theorem fits_reflDelayMove (le : Fin 2) (r : Fin 8) (offset : Int) (s : State) :
    FitsOut (frame (.reflDelayMove le r offset)) s (execReflDelayMove le r offset s) := by
  with_reducible refine FitsOut.of_all ?_
  intro N h
  with_reducible refine FitsOut.execReflDelayMove _ _ _ _ (.refl _ _) ?_
  dsimp only [frame] at h
  simp only [only_lets, frame_facts, frame_split, ne_eq, reduceCtorEq, not_false_eq_true] at h
  casesm* _ ∧ _
  repeat' first
    | with_reducible intro _
    | with_reducible constructor
    | with_reducible assumption

theorem fits_qualInterval (le : Fin 2) (q : List (Fin 32 × Quality)) (s : State) :
    FitsOut (frame (.qualInterval le q)) s (execQualInterval le q s) := by
  with_reducible refine FitsOut.of_all ?_
  intro N h
  with_reducible refine FitsOut.execQualInterval _ _ _ (.refl _ _) ?_
  dsimp only [frame] at h
  delta qualRegs framerSyncRegs at h
  simp only [only_lets, frame_facts, frame_split, ne_eq, reduceCtorEq, not_false_eq_true] at h
  repeat' first
    | with_reducible intro _
    | with_reducible constructor
    | exact h.2.2.1 _ ⟨by assumption, by assumption⟩
    | simp only [h]

theorem fits_mapBuild (le : Fin 2) (s : State) :
    FitsOut (frame (.mapBuild le)) s (execMapBuild le s) := by
  with_reducible refine FitsOut.of_all ?_
  intro N h
  with_reducible refine FitsOut.execMapBuild _ _ (.refl _ _) ?_
  dsimp only [frame] at h
  delta commitTakenRegs cipherLoadRegs boundaryRegs errorRegs associationRegs exchangeEndRegs at h
  simp only [only_lets, frame_facts, frame_split, ne_eq, reduceCtorEq, not_false_eq_true, engine_pairs] at h
  casesm* _ ∧ _
  repeat' first
    | with_reducible intro _
    | with_reducible constructor
    | with_reducible assumption
    | simp only [*]

theorem fits_mapSegment (le : Fin 2) (k : Fin 32) (latch : BitVec 64) (seg : List Byte) (s : State) :
    FitsOut (frame (.mapSegment le k latch seg)) s (execMapSegment le k latch seg s) := by
  with_reducible refine FitsOut.of_all ?_
  intro N h
  with_reducible refine FitsOut.execMapSegment _ _ _ _ _ (.refl _ _) ?_
  dsimp only [frame] at h
  delta commitTakenRegs cipherLoadRegs boundaryRegs errorRegs associationRegs exchangeEndRegs at h
  simp only [only_lets, frame_facts, frame_split, ne_eq, reduceCtorEq, not_false_eq_true, engine_pairs] at h
  casesm* _ ∧ _
  repeat' first
    | with_reducible intro _
    | with_reducible constructor
    | with_reducible assumption
    | simp only [*]

theorem fits_assign (le : Fin 2) (id : Fin 512) (tag : BitVec 24) (home : Fin 32) (ro : BitVec 20) (s : State) :
    FitsOut (frame (.assign le id tag home ro)) s (execAssign le id tag home ro s) := by
  with_reducible refine FitsOut.of_all ?_
  intro N h
  with_reducible refine FitsOut.execAssign _ _ _ _ _ _ (.refl _ _) ?_
  dsimp only [frame] at h
  simp only [only_lets, frame_facts, frame_split, ne_eq, reduceCtorEq, not_false_eq_true] at h
  casesm* _ ∧ _
  repeat' first
    | with_reducible intro _
    | with_reducible constructor
    | with_reducible assumption

theorem fits_rangeAdj (le : Fin 2) (id : Fin 512) (done : Bool) (change seq : BitVec 16) (tag : List Byte) (s : State) :
    FitsOut (frame (.rangeAdj le id done change seq tag)) s (execRangeAdj le id done change seq tag s) := by
  with_reducible refine FitsOut.of_all ?_
  intro N h
  with_reducible refine FitsOut.execRangeAdj _ _ _ _ _ _ _ (.refl _ _) ?_
  dsimp only [frame] at h
  delta boundaryRegs errorRegs associationRegs exchangeEndRegs at h
  simp only [only_lets, frame_facts, frame_split, ne_eq, reduceCtorEq, not_false_eq_true, engine_pairs] at h
  casesm* _ ∧ _
  repeat' first
    | with_reducible intro _
    | with_reducible constructor
    | with_reducible assumption
    | simp only [*]

theorem fits_powerAdj (le : Fin 2) (id : Fin 512) (change seq : BitVec 16) (tag : List Byte) (s : State) :
    FitsOut (frame (.powerAdj le id change seq tag)) s (execPowerAdj le id change seq tag s) := by
  with_reducible refine FitsOut.of_all ?_
  intro N h
  with_reducible refine FitsOut.execPowerAdj _ _ _ _ _ _ (.refl _ _) ?_
  dsimp only [frame] at h
  delta boundaryRegs errorRegs associationRegs exchangeEndRegs at h
  simp only [only_lets, frame_facts, frame_split, ne_eq, reduceCtorEq, not_false_eq_true, engine_pairs] at h
  casesm* _ ∧ _
  repeat' first
    | with_reducible intro _
    | with_reducible constructor
    | with_reducible assumption
    | simp only [*]

theorem fits_quiesce (le : Fin 2) (id : Fin 512) (seq : BitVec 16) (tag : List Byte) (s : State) :
    FitsOut (frame (.quiesce le id seq tag)) s (execQuiesce le id seq tag s) := by
  with_reducible refine FitsOut.of_all ?_
  intro N h
  with_reducible refine FitsOut.execQuiesce _ _ _ _ _ (.refl _ _) ?_
  dsimp only [frame] at h
  delta boundaryRegs errorRegs associationRegs exchangeEndRegs at h
  simp only [only_lets, frame_facts, frame_split, ne_eq, reduceCtorEq, not_false_eq_true, engine_pairs] at h
  casesm* _ ∧ _
  repeat' first
    | with_reducible intro _
    | with_reducible constructor
    | with_reducible assumption
    | simp only [*]

theorem fits_release (le : Fin 2) (id : Fin 512) (seq : BitVec 16) (tag : List Byte) (s : State) :
    FitsOut (frame (.release le id seq tag)) s (execRelease le id seq tag s) := by
  with_reducible refine FitsOut.of_all ?_
  intro N h
  with_reducible refine FitsOut.execRelease _ _ _ _ _ (.refl _ _) ?_
  dsimp only [frame] at h
  delta boundaryRegs errorRegs associationRegs exchangeEndRegs at h
  simp only [only_lets, frame_facts, frame_split, ne_eq, reduceCtorEq, not_false_eq_true, engine_pairs] at h
  casesm* _ ∧ _
  repeat' first
    | with_reducible intro _
    | with_reducible constructor
    | with_reducible assumption
    | simp only [*]

theorem fits_deregister (le : Fin 2) (id : Fin 512) (seq : BitVec 16) (tag : List Byte) (s : State) :
    FitsOut (frame (.deregister le id seq tag)) s (execDeregister le id seq tag s) := by
  with_reducible refine FitsOut.of_all ?_
  intro N h
  with_reducible refine FitsOut.execDeregister _ _ _ _ _ (.refl _ _) ?_
  dsimp only [frame] at h
  delta boundaryRegs errorRegs associationRegs exchangeEndRegs at h
  simp only [only_lets, frame_facts, frame_split, ne_eq, reduceCtorEq, not_false_eq_true, engine_pairs] at h
  casesm* _ ∧ _
  repeat' first
    | with_reducible intro _
    | with_reducible constructor
    | with_reducible assumption
    | simp only [*]

theorem fits_lmsgGo (m : Master) (le : Fin 2) (s : State) :
    FitsOut (frame (.lmsgGo m le)) s (execLmsgGo m le s) := by
  with_reducible refine FitsOut.of_all ?_
  intro N h
  with_reducible refine FitsOut.execLmsgGo _ _ _ (.refl _ _) ?_
  dsimp only [frame] at h
  delta fabricErrorRegs at h
  simp only [only_lets, frame_facts, frame_split, ne_eq, reduceCtorEq, not_false_eq_true] at h
  casesm* _ ∧ _
  repeat' first
    | with_reducible intro _
    | with_reducible constructor
    | with_reducible assumption
    | simp only [*]

theorem fits_leafMsgRepeat (le : Fin 2) (i : Fin 512) (s : State) :
    FitsOut (frame (.leafMsgRepeat le i)) s (execLeafMsgRepeat le i s) := by
  with_reducible refine FitsOut.of_all ?_
  intro N h
  with_reducible refine FitsOut.execLeafMsgRepeat _ _ _ (.refl _ _) ?_
  dsimp only [frame] at h
  simp only [only_lets, frame_facts, frame_split, ne_eq, reduceCtorEq, not_false_eq_true] at h
  casesm* _ ∧ _
  repeat' first
    | with_reducible intro _
    | with_reducible constructor
    | with_reducible assumption

theorem fits_burstTransmit (le : Fin 2) (g : BitVec 64) (s : State) :
    FitsOut (frame (.burstTransmit le g)) s (execBurstTransmit le g s) := by
  with_reducible refine FitsOut.of_all ?_
  intro N h
  with_reducible refine FitsOut.execBurstTransmit _ _ _ (.refl _ _) ?_
  dsimp only [frame] at h
  simp only [only_lets, frame_facts, frame_split, ne_eq, reduceCtorEq, not_false_eq_true] at h
  casesm* _ ∧ _
  repeat' first
    | with_reducible intro _
    | with_reducible constructor
    | with_reducible assumption

theorem fits_discoveryBurst (le : Fin 2) (g : BitVec 64) (s : State) :
    FitsOut (frame (.discoveryBurst le g)) s (execDiscoveryBurst le g s) := by
  with_reducible refine FitsOut.of_all ?_
  intro N h
  with_reducible refine FitsOut.execDiscoveryBurst _ _ _ (.refl _ _) ?_
  dsimp only [frame] at h
  simp only [only_lets, frame_facts, frame_split, ne_eq, reduceCtorEq, not_false_eq_true] at h
  casesm* _ ∧ _
  repeat' first
    | with_reducible intro _
    | with_reducible constructor
    | with_reducible assumption

theorem fits_discoveryWaitExpiry (le : Fin 2) (s : State) :
    FitsOut (frame (.discoveryWaitExpiry le)) s (execDiscoveryWaitExpiry le s) := by
  with_reducible refine FitsOut.of_all ?_
  intro N h
  with_reducible refine FitsOut.execDiscoveryWaitExpiry _ _ (.refl _ _) ?_
  dsimp only [frame] at h
  simp only [only_lets, frame_facts, frame_split, ne_eq, reduceCtorEq, not_false_eq_true] at h
  casesm* _ ∧ _
  repeat' first
    | with_reducible intro _
    | with_reducible constructor
    | with_reducible assumption

theorem fits_selfGuardTrip (le : Fin 2) (s : State) :
    FitsOut (frame (.selfGuardTrip le)) s (execSelfGuardTrip le s) := by
  with_reducible refine FitsOut.of_all ?_
  intro N h
  with_reducible refine FitsOut.execSelfGuardTrip _ _ (.refl _ _) ?_
  dsimp only [frame] at h
  simp only [only_lets, frame_facts, frame_split, ne_eq, reduceCtorEq, not_false_eq_true] at h
  casesm* _ ∧ _
  repeat' first
    | with_reducible intro _
    | with_reducible constructor
    | with_reducible assumption

theorem fits_segmentLossDark (le : Fin 2) (s : State) :
    FitsOut (frame (.segmentLossDark le)) s (execSegmentLossDark le s) := by
  with_reducible refine FitsOut.of_all ?_
  intro N h
  with_reducible refine FitsOut.execSegmentLossDark _ _ (.refl _ _) ?_
  dsimp only [frame] at h
  simp only [only_lets, frame_facts, frame_split, ne_eq, reduceCtorEq, not_false_eq_true] at h
  casesm* _ ∧ _
  repeat' first
    | with_reducible intro _
    | with_reducible constructor
    | with_reducible assumption

theorem fits_mapLost (le : Fin 2) (s : State) :
    FitsOut (frame (.mapLost le)) s (execMapLost le s) := by
  with_reducible refine FitsOut.of_all ?_
  intro N h
  with_reducible refine FitsOut.execMapLost _ _ (.refl _ _) ?_
  dsimp only [frame] at h
  simp only [only_lets, frame_facts, frame_split, ne_eq, reduceCtorEq, not_false_eq_true] at h
  casesm* _ ∧ _
  repeat' first
    | with_reducible intro _
    | with_reducible constructor
    | with_reducible assumption

theorem fits_leafIdExpire (le : Fin 2) (s : State) :
    FitsOut (frame (.leafIdExpire le)) s (execLeafIdExpire le s) := by
  with_reducible refine FitsOut.of_all ?_
  intro N h
  with_reducible refine FitsOut.execLeafIdExpire _ _ (.refl _ _) ?_
  dsimp only [frame] at h
  simp only [only_lets, frame_facts, frame_split, ne_eq, reduceCtorEq, not_false_eq_true] at h
  casesm* _ ∧ _
  repeat' first
    | with_reducible intro _
    | with_reducible constructor
    | with_reducible assumption

theorem fits_leafClr (m : Master) (le : Fin 2) (s : State) :
    FitsOut (frame (.leafClr m le)) s (execLeafClr m le s) := by
  with_reducible refine FitsOut.of_all ?_
  intro N h
  with_reducible refine FitsOut.execLeafClr _ _ _ (.refl _ _) ?_
  dsimp only [frame] at h
  delta fabricErrorRegs at h
  simp only [only_lets, frame_facts, frame_split, ne_eq, reduceCtorEq, not_false_eq_true] at h
  casesm* _ ∧ _
  repeat' first
    | with_reducible intro _
    | with_reducible constructor
    | with_reducible assumption

theorem fits_preambleDetect (le : Fin 2) (sc : Fin 32) (bands : List (Fin 3 × Fin 4)) (found : List (BitVec 9 × BitVec 16))
    (rho : BitVec 8) (arrival : BitVec 64) (s : State) :
    FitsOut (frame (.preambleDetect le sc bands found rho arrival)) s (execPreambleDetect le sc bands found rho arrival s) := by
  with_reducible refine FitsOut.of_all ?_
  intro N h
  with_reducible refine FitsOut.execPreambleDetect _ _ _ _ _ _ _ (.refl _ _) ?_
  dsimp only [frame] at h
  simp only [only_lets, frame_facts, frame_split, ne_eq, reduceCtorEq, not_false_eq_true, engine_pairs] at h
  casesm* _ ∧ _
  repeat' first
    | with_reducible intro _
    | with_reducible constructor
    | with_reducible assumption
    | simp only [*]

theorem fits_burstHeaderDecode (le : Fin 2) (sc : Fin 32) (w : Fin 3) (band : Fin 4) (hdr : BitVec 64) (s : State) :
    FitsOut (frame (.burstHeaderDecode le sc w band hdr)) s (execBurstHeaderDecode le sc w band hdr s) := by
  with_reducible refine FitsOut.of_all ?_
  intro N h
  with_reducible refine FitsOut.execBurstHeaderDecode _ _ _ _ _ _ (.refl _ _) ?_
  dsimp only [frame] at h
  simp only [only_lets, frame_facts, frame_split, ne_eq, reduceCtorEq, not_false_eq_true, engine_pairs] at h
  casesm* _ ∧ _
  repeat' first
    | with_reducible intro _
    | with_reducible constructor
    | with_reducible assumption
    | simp only [*]

theorem fits_rogueDecay (le : Fin 2) (i : Fin 512) (s : State) :
    FitsOut (frame (.rogueDecay le i)) s (execRogueDecay le i s) := by
  with_reducible refine FitsOut.of_all ?_
  intro N h
  with_reducible refine FitsOut.execRogueDecay _ _ _ (.refl _ _) ?_
  dsimp only [frame] at h
  simp only [only_lets, frame_facts, frame_split, ne_eq, reduceCtorEq, not_false_eq_true] at h
  casesm* _ ∧ _
  repeat' first
    | with_reducible intro _
    | with_reducible constructor
    | with_reducible assumption

theorem fits_burstRxDone (le : Fin 2) (sc : Fin 32) (w : Fin 3) (band : Fin 4) (evm : BitVec 16) (power : Int) (failed : Nat)
    (cd : Int) (s : State) :
    FitsOut (frame (.burstRxDone le sc w band evm power failed cd)) s (execBurstRxDone le sc w band evm power failed cd s) := by
  with_reducible refine FitsOut.of_all ?_
  intro N h
  with_reducible refine FitsOut.execBurstRxDone _ _ _ _ _ _ _ _ _ (.refl _ _) ?_
  dsimp only [frame] at h
  simp only [only_lets, frame_facts, frame_split, ne_eq, reduceCtorEq, not_false_eq_true, engine_pairs] at h
  casesm* _ ∧ _
  repeat' first
    | with_reducible intro _
    | with_reducible constructor
    | with_reducible assumption
    | simp only [*]

theorem fits_burstLossDetect (le : Fin 2) (i : Fin 512) (s : State) :
    FitsOut (frame (.burstLossDetect le i)) s (execBurstLossDetect le i s) := by
  with_reducible refine FitsOut.of_all ?_
  intro N h
  with_reducible refine FitsOut.execBurstLossDetect _ _ _ (.refl _ _) ?_
  dsimp only [frame] at h
  simp only [only_lets, frame_facts, frame_split, ne_eq, reduceCtorEq, not_false_eq_true] at h
  casesm* _ ∧ _
  repeat' first
    | with_reducible intro _
    | with_reducible constructor
    | with_reducible assumption

theorem fits_idleMeasure (le : Fin 2) (sc : Fin 32) (w : Fin 3) (band : Fin 4) (power : Int) (s : State) :
    FitsOut (frame (.idleMeasure le sc w band power)) s (execIdleMeasure le sc w band power s) := by
  with_reducible refine FitsOut.of_all ?_
  intro N h
  with_reducible refine FitsOut.execIdleMeasure _ _ _ _ _ _ (.refl _ _) ?_
  dsimp only [frame] at h
  simp only [only_lets, frame_facts, frame_split, ne_eq, reduceCtorEq, not_false_eq_true, engine_pairs] at h
  casesm* _ ∧ _
  repeat' first
    | with_reducible intro _
    | with_reducible constructor
    | with_reducible assumption
    | simp only [*]

theorem fits_brecPop (m : Master) (le : Fin 2) (s : State) :
    FitsOut (frame (.brecPop m le)) s (execBrecPop m le s) := by
  with_reducible refine FitsOut.of_all ?_
  intro N h
  with_reducible refine FitsOut.execBrecPop _ _ _ (.refl _ _) ?_
  dsimp only [frame] at h
  delta fabricErrorRegs at h
  simp only [only_lets, frame_facts, frame_split, ne_eq, reduceCtorEq, not_false_eq_true] at h
  casesm* _ ∧ _
  repeat' first
    | with_reducible intro _
    | with_reducible constructor
    | with_reducible assumption

end Sys2Proof.Machine

/-! Repair of package memory: the tracker, injection, error records, retirement, restoring and row repair (R371 to R377). -/

namespace Sys2Proof.Machine

/-! ## What the records and the pool leave of the buffer manager's storage -/

@[simp] theorem modBuf_g (f : Buf → Buf) (s : State) (x : Field) : (modBuf f s).g x = s.g x := rfl

@[simp] theorem poolReport_buf (s : State) : (poolReport s).buf = s.buf := by simp [poolReport]

@[simp] theorem remapSet_buf (i : Nat) (v : Nat × Nat) (s : State) :
    (remapSet i v s).buf = { s.buf with remap := Tbl.set (0, 0) s.buf.remap i v } := by
  rw [remapSet, poolReport_buf]
  rfl

/-- R373: a record changes the error log only. -/
theorem bufRecord_buf (type source addr symbol : Nat) (s : State) :
    ∃ log, (bufRecord type source addr symbol s).buf = { s.buf with log := log } := by
  unfold bufRecord
  dsimp only
  split
  · exact ⟨s.buf.log, by simp⟩
  · exact ⟨_, by simp [modBuf]; rfl⟩

/-- R371: what a read or a record leaves of the storage: the retirement that runs and the rows repaired. -/
structure SameRepair (s t : State) : Prop where
  ret : t.buf.ret = s.buf.ret
  rowOp : t.buf.rowOp = s.buf.rowOp
  rowUsed : t.buf.rowUsed = s.buf.rowUsed

theorem SameRepair.refl (s : State) : SameRepair s s := ⟨rfl, rfl, rfl⟩

theorem SameRepair.trans {s t u : State} (h : SameRepair s t) (h' : SameRepair t u) : SameRepair s u :=
  ⟨h'.ret.trans h.ret, h'.rowOp.trans h.rowOp, h'.rowUsed.trans h.rowUsed⟩

theorem SameRepair.of_buf {s t : State} (h : t.buf = s.buf) : SameRepair s t := ⟨by rw [h], by rw [h], by rw [h]⟩

theorem SameRepair.modBuf {s u : State} (f : Buf → Buf) (hf : ∀ b, (f b).ret = b.ret ∧ (f b).rowOp = b.rowOp ∧ (f b).rowUsed = b.rowUsed)
    (h : SameRepair (modBuf f s) u) : SameRepair s u :=
  ⟨h.ret.trans (hf _).1, h.rowOp.trans (hf _).2.1, h.rowUsed.trans (hf _).2.2⟩

theorem sameRepair_modBuf {f : Buf → Buf} (hf : ∀ b, (f b).ret = b.ret ∧ (f b).rowOp = b.rowOp ∧ (f b).rowUsed = b.rowUsed) (s : State) :
    SameRepair s (Machine.modBuf f s) := .modBuf f hf (.refl _)

theorem sameRepair_bufRecord (type source addr symbol : Nat) (s : State) : SameRepair s (bufRecord type source addr symbol s) := by
  obtain ⟨log, h⟩ := bufRecord_buf type source addr symbol s
  exact ⟨by rw [h], by rw [h], by rw [h]⟩

theorem sameRepair_remapSet (i : Nat) (v : Nat × Nat) (s : State) : SameRepair s (remapSet i v s) :=
  ⟨by simp, by simp, by simp⟩

theorem sameRepair_bufRecordSlow (type source addr : Nat) (s : State) : SameRepair s (bufRecordSlow type source addr s) := by
  unfold bufRecordSlow
  extract_lets again
  split
  · exact .refl s
  · refine .modBuf _ ?_ (sameRepair_bufRecord ..)
    exact fun _ => ⟨rfl, rfl, rfl⟩

theorem sameRepair_becomeHard (a source symbol : Nat) (s : State) : SameRepair s (becomeHard a source symbol s) := by
  have hrecord : SameRepair s (State.evt 0xC1 4 (bufCount 7 (bufRecord 5 source a symbol s))) :=
    (sameRepair_bufRecord 5 source a symbol s).trans (.of_buf (by simp [bufCount]))
  unfold becomeHard
  dsimp only
  generalize State.evt 0xC1 4 (bufCount 7 (bufRecord 5 source a symbol s)) = u at hrecord ⊢
  refine hrecord.trans ?_
  split
  · split
    · refine .modBuf _ ?_ (sameRepair_remapSet ..)
      exact fun _ => ⟨rfl, rfl, rfl⟩
    · apply sameRepair_modBuf
      exact fun _ => ⟨rfl, rfl, rfl⟩
  · exact .of_buf rfl

theorem sameRepair_ceTrack (a source symbol : Nat) (s : State) : SameRepair s (ceTrack a source symbol s) := by
  unfold ceTrack
  dsimp only
  split
  · split
    · exact .refl s
    · split
      · apply sameRepair_modBuf
        exact fun _ => ⟨rfl, rfl, rfl⟩
      · split
        · refine .modBuf _ ?_ (sameRepair_becomeHard ..)
          exact fun _ => ⟨rfl, rfl, rfl⟩
        · apply sameRepair_modBuf
          exact fun _ => ⟨rfl, rfl, rfl⟩
  · split
    · refine .modBuf _ ?_ (sameRepair_bufRecord ..)
      exact fun _ => ⟨rfl, rfl, rfl⟩
    · split
      · refine .modBuf _ ?_ ((sameRepair_bufRecord ..).trans (.of_buf rfl))
        exact fun _ => ⟨rfl, rfl, rfl⟩
      · exact .of_buf rfl

theorem sameRepair_counted (e : Nat) (f : Field) (s : State) : SameRepair s ((bufCount e s).bump f 1) := .of_buf rfl

theorem sameRepair_memTreat (a source : Nat) (s : State) : SameRepair s (memTreat a source s).2.2 := by
  have hslow (e n : Nat) : SameRepair s (State.evt 0xC1 e (bufRecordSlow n source a ((bufCount e s).bump (F.BUF_PC_UE_count (pcOf a)) 1))) :=
    ((sameRepair_counted e _ s).trans (sameRepair_bufRecordSlow n source a _)).trans (.of_buf (State.evt_buf _ _ _))
  have hput {t : State} (h : SameRepair s t) (w : Nat) : SameRepair s (if wbStopped t a then t else memPut a w t) := by
    split
    · exact h
    · exact h.trans ⟨rfl, rfl, rfl⟩
  rw [memTreat_state]
  cases found s a with
  | good => exact .refl s
  | ce sym => exact hput (((sameRepair_counted 0 _ s).trans (sameRepair_ceTrack a source sym _)).trans (.of_buf (State.evt_buf _ _ _))) _
  | addrErr => exact hslow 2 3
  | poison => exact hslow 3 4
  | ue => exact hput (hslow 1 2) _

theorem sameRepair_copyWord (src dst : Nat) (s : State) : SameRepair s (copyWord src dst s) := by
  unfold copyWord
  rw [memTreat_eq]
  dsimp only
  generalize hu : (memTreat src 4 s).2.2 = u
  have hread : SameRepair s u := hu ▸ sameRepair_memTreat src 4 s
  have hput (w : Nat) : SameRepair s (memPut dst w u) := hread.trans ⟨rfl, rfl, rfl⟩
  cases found s src <;> exact hput _

theorem sameRepair_forEach {α : Type} (l : List α) (f : α → State → State) (hf : ∀ x t, SameRepair t (f x t)) (s : State) :
    SameRepair s (s.forEach l f) := by
  unfold State.forEach
  induction l generalizing s with
  | nil => exact .refl s
  | cons x xs ih => exact (hf x s).trans (ih _)

/-! ## The tracker, injection and the error log -/

theorem exec_hardClr_clears (m : Master) (s : State) (h : s.admits m 0xC1 false) :
    ∃ t, exec (.hardClr m) s = .next t ∧ t.buf.track = s.buf.track.filter fun e => !e.hard := by
  refine ⟨_, by rw [exec_hardClr, execHardClr, h.runs rfl], ?_⟩
  simp [hardClr, modBuf]

theorem inRegion_access (m : Master) (s : State) (b z : Field) (p : Nat) : inRegion (State.access m s) b z p = inRegion s b z p := by
  unfold inRegion State.cur
  rw [State.access_inForce]

theorem exec_injGo_starts (m : Master) (s : State) (h : s.admits m 0xC1 false)
    (hregion : inRegion s F.BUF_TEST_BASE_page F.BUF_TEST_SIZE_pages (s.g F.BUF_INJ_ADDR_addr / 2048) = true) (hinj : s.buf.inj = none) :
    ∃ t, exec (.injGo m) s = .next t ∧ t.on F.BUF_INJ_CTRL_busy = true ∧ (t.buf.inj.map fun i => i.addr) =
      some (physAddr s (s.g F.BUF_INJ_ADDR_addr)) := by
  refine ⟨_, by rw [exec_injGo, execInjGo, h.runs rfl], ?_⟩
  unfold injGo
  simp only [g_access, inRegion_access, hregion, State.access_buf, hinj, Option.isSome_none, Bool.not_true, Bool.or_self,
    Bool.false_eq_true, if_false]
  exact ⟨on_setB _ _ _ rfl, by simp [modBuf]⟩

theorem exec_injDone_ends (i : Inject) (s : State) (hinj : s.buf.inj = some i) :
    ∃ t, exec .injDone s = .next t ∧ t.buf.inj = none ∧ t.on F.BUF_INJ_CTRL_busy = false ∧
      t.sticky 0xC1 5 ∧ memWord t i.addr = eccEncode i.addrXor (dataAt s i.addr) ^^^ i.flip := by
  have hrun : exec .injDone s = .next (State.evt 0xC1 5 ((modBuf (fun b => { b with inj := none })
      (memPut i.addr (eccEncode i.addrXor (dataAt s i.addr) ^^^ i.flip) (memTreat i.addr 5 s).2.2)).setB F.BUF_INJ_CTRL_busy false)) := by
    rw [exec_injDone, execInjDone, hinj]
    dsimp only
    rw [memTreat_eq]
  generalize eccEncode i.addrXor (dataAt s i.addr) ^^^ i.flip = w at hrun ⊢
  generalize (memTreat i.addr 5 s).2.2 = u at hrun
  refine ⟨_, hrun, by simp [modBuf], ?_, sticky_evt _ _ _ (by omega), ?_⟩
  · rw [on_evt_other _ _ _ (by simp), on_setB _ _ _ rfl]
  · rw [memWord_of_mem (s := memPut i.addr w u) (by simp [modBuf]), memWord_memPut_same]

theorem exec_bufLogPop_pops (m : Master) (a b c d : Nat) (rest : List (Nat × Nat × Nat × Nat)) (s : State) (h : s.admits m 0xC2 false)
    (hlog : s.buf.log = (a, b, c, d) :: rest) :
    ∃ t, exec (.bufLogPop m) s = .next t ∧ t.buf.log = rest ∧ t.g (F.BUF_LOG_bits 0) = a % 2 ^ 32 ∧ t.g (F.BUF_LOG_bits 1) = b % 2 ^ 32 ∧
      t.g (F.BUF_LOG_bits 2) = c % 2 ^ 32 ∧ t.g (F.BUF_LOG_bits 3) = d % 2 ^ 32 := by
  refine ⟨_, by rw [exec_bufLogPop, execBufLogPop, h.runs rfl], ?_⟩
  unfold bufLogPop
  rw [State.access_buf, hlog]
  dsimp only
  simp (disch := simp) [g_setF_other, modBuf]

/-! ## Retirement and restoring (R374 to R376) -/

@[simp] theorem retResult_buf (r page : Nat) (s : State) : (retResult r page s).buf = s.buf := rfl

theorem retResult_g (r page : Nat) (s : State) (hr : r < 16) : (retResult r page s).g F.BUF_RETIRE_STAT_result = r := by
  rw [retResult, g_setF_other _ _ (by simp), g_setF_same]
  exact Nat.mod_eq_of_lt (by simp; omega)

theorem remapSet_g_retire (i : Nat) (v : Nat × Nat) (s : State) {f : Field} (hf : f = F.BUF_RETIRE_STAT_result ∨ f = F.BUF_RETIRE_STAT_state) :
    (remapSet i v s).g f = s.g f := by
  have htch : Touches.remapSet (Sparing [.reg F.BUF_RETIRE_STAT_result.key, .reg F.BUF_RETIRE_STAT_state.key]) := by
    repeat' first | with_reducible intro _ | constructor | simp [Sparing]
  exact (Fits.remapSet i v s (.refl _ s) htch).g_spared (by rcases hf with rfl | rfl <;> simp)

theorem bufRecord_g_retire (type source addr symbol : Nat) (s : State) {f : Field}
    (hf : f = F.BUF_RETIRE_STAT_result ∨ f = F.BUF_RETIRE_STAT_state) : (bufRecord type source addr symbol s).g f = s.g f := by
  have htch : Touches.bufRecord (Sparing [.reg F.BUF_RETIRE_STAT_result.key, .reg F.BUF_RETIRE_STAT_state.key]) := by
    repeat' first | with_reducible intro _ | constructor | simp [Sparing]
  exact (Fits.bufRecord type source addr symbol s (.refl _ s) htch).g_spared (by rcases hf with rfl | rfl <;> simp)

theorem exec_retireGo_starts (m : Master) (i : Nat) (s : State) (h : s.admits m 0xC3 false) (hop : s.on F.BUF_RETIRE_op = false)
    (hup : s.on F.DEV_STATUS_mem_trained = true) (hidle : s.g F.BUF_RETIRE_STAT_state = 0) (hpage : s.g F.BUF_RETIRE_page ≤ 258047)
    (hmapped : s.buf.remap.find? (fun e => e.2.1 == 1 && e.2.2 == s.g F.BUF_RETIRE_page) = none)
    (hfree : (List.range 4096).find? (fun i => (Tbl.get (0, 0) s.buf.remap i).1 == 0) = some i) :
    ∃ t, exec (.retireGo m) s = .next t ∧
      t.g F.BUF_RETIRE_STAT_state = 2 ∧ t.g F.BUF_RETIRE_STAT_result = 0 ∧
      t.buf.ret = some { restore := false, page := s.g F.BUF_RETIRE_page, entry := i } ∧
      Tbl.get (0, 0) t.buf.remap i = (1, s.g F.BUF_RETIRE_page) := by
  refine ⟨_, by rw [exec_retireGo, execRetireGo, if_neg (by simp [hop]), h.runs rfl], ?_⟩
  unfold retireGo
  simp only [g_access, on_access, State.access_buf, hop, hup, hidle, hmapped, hfree, Bool.not_true, Bool.false_eq_true, if_false,
    Option.isSome_none, ne_eq, not_true_eq_false, if_neg (show ¬ 258047 < s.g F.BUF_RETIRE_page by omega)]
  refine ⟨g_setF_same .., ?_, ?_, ?_⟩
  · rw [g_setF_other _ _ (by simp), retResult_g _ _ _ (by omega)]
  · simp [modBuf]
  · simp [modBuf]

theorem exec_retireGo_busy (m : Master) (s : State) (h : s.admits m 0xC3 false) (hop : s.on F.BUF_RETIRE_op = false)
    (hup : s.on F.DEV_STATUS_mem_trained = true) (hbusy : s.g F.BUF_RETIRE_STAT_state ≠ 0) :
    ∃ t, exec (.retireGo m) s = .next t ∧ t.g F.BUF_RETIRE_STAT_result = 1 ∧ t.buf = s.buf := by
  refine ⟨_, by rw [exec_retireGo, execRetireGo, if_neg (by simp [hop]), h.runs rfl], ?_⟩
  unfold retireGo
  simp only [g_access, on_access, State.access_buf, hup, Bool.not_true, Bool.false_eq_true, if_false, if_pos hbusy]
  exact ⟨retResult_g _ _ _ (by omega), by simp⟩

theorem exec_restoreGo_starts (m : Master) (e : Nat × Nat × Nat) (s : State) (h : s.admits m 0xC3 false)
    (hop : s.on F.BUF_RETIRE_op = true) (hup : s.on F.DEV_STATUS_mem_trained = true) (hidle : s.g F.BUF_RETIRE_STAT_state = 0)
    (hpage : s.g F.BUF_RETIRE_page ≤ 258047)
    (hmapped : s.buf.remap.find? (fun e => e.2.1 == 1 && e.2.2 == s.g F.BUF_RETIRE_page) = some e) :
    ∃ t, exec (.restoreGo m) s = .next t ∧
      t.g F.BUF_RETIRE_STAT_state = 1 ∧ t.g F.BUF_RETIRE_STAT_result = 0 ∧
      t.buf.ret = some { restore := true, page := s.g F.BUF_RETIRE_page, entry := e.1 } := by
  refine ⟨_, by rw [exec_restoreGo, execRestoreGo, if_pos hop, h.runs rfl], ?_⟩
  unfold retireGo
  simp only [g_access, on_access, State.access_buf, hop, hup, hidle, hmapped, Bool.not_true, Bool.false_eq_true, if_false, if_true,
    ne_eq, not_true_eq_false, if_neg (show ¬ 258047 < s.g F.BUF_RETIRE_page by omega)]
  refine ⟨g_setF_same .., ?_, ?_⟩
  · rw [g_setF_other _ _ (by simp), retResult_g _ _ _ (by omega)]
  · simp [modBuf]

theorem exec_marchTestDone_ends (ok : Bool) (s : State) (hstate : s.g F.BUF_RETIRE_STAT_state = 1) :
    ∃ t, exec (.marchTestDone ok) s = .next t ∧
      t.g F.BUF_RETIRE_STAT_state = (if ok then 2 else 0) ∧
      (ok = false → t.g F.BUF_RETIRE_STAT_result = 7 ∧ t.buf.ret = none ∧ t.sticky 0xC3 1) := by
  rw [exec_marchTestDone, execMarchTestDone, if_pos hstate]
  cases ok with
  | true => exact ⟨_, rfl, g_setF_same .., nofun⟩
  | false =>
    refine ⟨_, rfl, ?_, fun _ => ⟨?_, ?_, sticky_evt _ _ _ (by omega)⟩⟩
    · rw [g_evt_other _ _ _ (by simp), g_setF_other _ _ (by simp), g_setF_same]
      rfl
    · rw [g_evt_other _ _ _ (by simp), g_setF_same]
      rfl
    · simp [modBuf]

theorem exec_retireCopyDone_ends (r : RetOp) (s : State) (hret : s.buf.ret = some r) (hstate : s.g F.BUF_RETIRE_STAT_state = 2) :
    ∃ t, exec .retireCopyDone s = .next t ∧ t.g F.BUF_RETIRE_STAT_state = 3 ∧ t.buf.ret = some r := by
  rw [exec_retireCopyDone, execRetireCopyDone, hret]
  dsimp only
  rw [if_pos hstate]
  refine ⟨_, rfl, g_setF_same .., ?_⟩
  rw [State.setF_buf, (sameRepair_forEach _ _ (fun _ t => sameRepair_copyWord _ _ t) _).ret]
  exact hret

theorem exec_retireSwitch_ends (r : RetOp) (s : State) (hret : s.buf.ret = some r) (hstate : s.g F.BUF_RETIRE_STAT_state = 3) :
    ∃ t, exec .retireSwitch s = .next t ∧
      t.g F.BUF_RETIRE_STAT_state = 0 ∧ t.buf.ret = none ∧ t.g F.BUF_RETIRE_STAT_result = 0 ∧ t.sticky 0xC3 0 := by
  rw [exec_retireSwitch, execRetireSwitch, hret]
  dsimp only
  rw [if_pos hstate]
  refine ⟨_, rfl, ?_, ?_, ?_, sticky_evt _ _ _ (by omega)⟩
  · rw [g_evt_other _ _ _ (by simp), g_setF_other _ _ (by simp)]
    split
    · rw [bufRecord_g_retire _ _ _ _ _ (.inr rfl), remapSet_g_retire _ _ _ (.inr rfl), g_setF_same]
      rfl
    · rw [bufRecord_g_retire _ _ _ _ _ (.inr rfl), modBuf_g, g_setF_same]
      rfl
  · rw [State.evt_buf, State.setF_buf]
    split
    · rw [(sameRepair_bufRecord ..).ret, (sameRepair_remapSet ..).ret]
      rfl
    · rw [(sameRepair_bufRecord ..).ret]
      rfl
  · rw [g_evt_other _ _ _ (by simp), g_setF_same]
    rfl

/-! ## Row repair (R377) -/

@[simp] theorem rowReport_buf (pc bank : Nat) (s : State) : (rowReport pc bank s).buf = s.buf := rfl

theorem rowReport_g (pc bank : Nat) (s : State) {f : Field} (hf : f = F.BUF_ROWREP_STAT_result ∨ f = F.BUF_ROWREP_STAT_state) :
    (rowReport pc bank s).g f = s.g f := by
  rw [rowReport, g_setF_other _ _ (by rcases hf with rfl | rfl <;> simp), g_setF_other _ _ (by rcases hf with rfl | rfl <;> simp)]

theorem bufRecord_g_rowrep (type source addr symbol : Nat) (s : State) {f : Field}
    (hf : f = F.BUF_ROWREP_STAT_result ∨ f = F.BUF_ROWREP_STAT_state) : (bufRecord type source addr symbol s).g f = s.g f := by
  have htch : Touches.bufRecord (Sparing [.reg F.BUF_ROWREP_STAT_result.key, .reg F.BUF_ROWREP_STAT_state.key]) := by
    repeat' first | with_reducible intro _ | constructor | simp [Sparing]
  exact (Fits.bufRecord type source addr symbol s (.refl _ s) htch).g_spared (by rcases hf with rfl | rfl <;> simp)

theorem remapSet_g_rowrep (i : Nat) (v : Nat × Nat) (s : State) {f : Field} (hf : f = F.BUF_ROWREP_STAT_result ∨ f = F.BUF_ROWREP_STAT_state) :
    (remapSet i v s).g f = s.g f := by
  have htch : Touches.remapSet (Sparing [.reg F.BUF_ROWREP_STAT_result.key, .reg F.BUF_ROWREP_STAT_state.key]) := by
    repeat' first | with_reducible intro _ | constructor | simp [Sparing]
  exact (Fits.remapSet i v s (.refl _ s) htch).g_spared (by rcases hf with rfl | rfl <;> simp)

theorem exec_rowrepGo_starts (m : Master) (s : State) (h : s.admits m 0xC3 false) (hup : s.on F.DEV_STATUS_mem_trained = true)
    (hrow : s.buf.rowOp = none) (hq : 16 * s.g F.BUF_ROWREP_row + s.g F.BUF_ROWREP_bank < 258048)
    (hphys : physPage s (16 * s.g F.BUF_ROWREP_row + s.g F.BUF_ROWREP_bank) ≠ 16 * s.g F.BUF_ROWREP_row + s.g F.BUF_ROWREP_bank)
    (hused : Tbl.get 0 s.buf.rowUsed (s.g F.BUF_ROWREP_pc * 16 + s.g F.BUF_ROWREP_bank) < 4) :
    ∃ t, exec (.rowrepGo m) s = .next t ∧
      t.g F.BUF_ROWREP_STAT_state = 1 ∧ t.g F.BUF_ROWREP_STAT_result = 0 ∧
      t.buf.rowOp = some (s.g F.BUF_ROWREP_pc, s.g F.BUF_ROWREP_bank, s.g F.BUF_ROWREP_row) := by
  refine ⟨_, by rw [exec_rowrepGo, execRowrepGo, h.runs rfl], ?_⟩
  unfold rowrepGo
  simp only [g_access, on_access, State.access_buf, physPage_access, hup, hrow, Bool.not_true, Bool.false_eq_true, if_false,
    Option.isSome_none, beq_iff_eq, hphys,
    if_neg (show ¬ 258048 ≤ 16 * s.g F.BUF_ROWREP_row + s.g F.BUF_ROWREP_bank by omega),
    if_neg (show ¬ 4 ≤ Tbl.get 0 s.buf.rowUsed (s.g F.BUF_ROWREP_pc * 16 + s.g F.BUF_ROWREP_bank) by omega)]
  refine ⟨?_, ?_, ?_⟩
  · rw [rowReport_g _ _ _ (.inr rfl), g_setF_same]
    rfl
  · rw [rowReport_g _ _ _ (.inl rfl), g_setF_other _ _ (by simp), rowResult, g_setF_same]
    rfl
  · rfl

theorem exec_rowrepStep_steps (s : State) (hstate : s.g F.BUF_ROWREP_STAT_state = 1) :
    ∃ t, exec .rowrepStep s = .next t ∧ t.buf.rowSteps = s.buf.rowSteps + 1 ∧
      t.g F.BUF_ROWREP_STAT_state = if s.buf.rowSteps = 63 then 2 else 1 := by
  rw [exec_rowrepStep, execRowrepStep, if_pos hstate]
  refine ⟨_, rfl, ?_, ?_⟩
  · split <;> rfl
  · by_cases hn : s.buf.rowSteps = 63
    · rw [if_pos hn, if_pos (by omega), g_setF_same]
      rfl
    · rw [if_neg hn, if_neg (by omega), modBuf_g, hstate]

/-- R377: the state a row repair ends with: its record, result and event over the remap of the row's page. -/
theorem rowEnd (e type addr r : Nat) (hr : r < 16) (he : e < 32) {s t : State} (k : Nat)
    (hg : t.g F.BUF_ROWREP_STAT_state = 0) (hbuf : t.buf.rowOp = none ∧ Tbl.get 0 t.buf.rowUsed k = Tbl.get 0 s.buf.rowUsed k + 1) :
    let u := State.evt 0xC3 e (bufRecord type 4 addr 63 (rowResult r t))
    u.g F.BUF_ROWREP_STAT_state = 0 ∧ u.buf.rowOp = none ∧ Tbl.get 0 u.buf.rowUsed k = Tbl.get 0 s.buf.rowUsed k + 1 ∧
      u.g F.BUF_ROWREP_STAT_result = r ∧ u.sticky 0xC3 e := by
  have hrecord := sameRepair_bufRecord type 4 addr 63 (rowResult r t)
  refine ⟨?_, ?_, ?_, ?_, sticky_evt _ _ _ he⟩
  · rw [g_evt_other _ _ _ (by simp), bufRecord_g_rowrep _ _ _ _ _ (.inr rfl), rowResult, g_setF_other _ _ (by simp), hg]
  · rw [State.evt_buf, hrecord.rowOp]
    exact hbuf.1
  · rw [State.evt_buf, hrecord.rowUsed]
    exact hbuf.2
  · rw [g_evt_other _ _ _ (by simp), bufRecord_g_rowrep _ _ _ _ _ (.inl rfl), rowResult, g_setF_same]
    exact Nat.mod_eq_of_lt (by simp; omega)

theorem exec_rowrepTestDone_ends (ok : Bool) (pc bank row : Nat) (s : State) (hrow : s.buf.rowOp = some (pc, bank, row))
    (hstate : s.g F.BUF_ROWREP_STAT_state = 2) :
    ∃ t, exec (.rowrepTestDone ok) s = .next t ∧ t.g F.BUF_ROWREP_STAT_state = 0 ∧ t.buf.rowOp = none ∧
      Tbl.get 0 t.buf.rowUsed (pc * 16 + bank) = Tbl.get 0 s.buf.rowUsed (pc * 16 + bank) + 1 ∧
      t.g F.BUF_ROWREP_STAT_result = (if ok then 0 else 7) ∧ t.sticky 0xC3 (if ok then 2 else 3) := by
  rw [exec_rowrepTestDone, execRowrepTestDone, hrow]
  dsimp only
  rw [if_pos hstate]
  generalize hu : rowReport pc bank _ = u
  have hg : u.g F.BUF_ROWREP_STAT_state = 0 := by
    rw [← hu, rowReport_g _ _ _ (.inr rfl), g_setF_same]
    rfl
  have hbuf : u.buf.rowOp = none ∧ Tbl.get 0 u.buf.rowUsed (pc * 16 + bank) = Tbl.get 0 s.buf.rowUsed (pc * 16 + bank) + 1 := by
    simp [← hu, modBuf]
  cases ok with
  | true =>
    refine ⟨_, rfl, rowEnd 2 10 _ 0 (by omega) (by omega) (s := s) _ ?_ ?_⟩
    · split
      · rw [remapSet_g_rowrep _ _ _ (.inr rfl), hg]
      · exact hg
    · split
      · rw [(sameRepair_remapSet ..).rowOp, (sameRepair_remapSet ..).rowUsed]
        exact hbuf
      · exact hbuf
  | false => exact ⟨_, rfl, rowEnd 3 11 _ 7 (by omega) (by omega) (s := s) _ hg hbuf⟩

/-- Settles O43, clause by clause: each step's equation, and what the records and the pool leave of the storage. -/
theorem memoryRepairRuns : Obligations.MemoryRepairRuns :=
  ⟨exec_hardClr_clears, exec_injGo_starts, exec_injDone_ends, exec_bufLogPop_pops, exec_retireGo_starts, exec_retireGo_busy,
    exec_restoreGo_starts, exec_marchTestDone_ends, exec_retireCopyDone_ends, exec_retireSwitch_ends, exec_rowrepGo_starts,
    exec_rowrepStep_steps, exec_rowrepTestDone_ends⟩

end Sys2Proof.Machine

/-! The rules by which a field is read past the writes of other fields, gathered for `simp`. -/

namespace Sys2Proof.Machine

@[simp] theorem on_setB_same_bit (s : State) (f : Field) (b : Bool) (h : f.width = 1) : (s.setB f b).on f = b := on_setB s f b h

theorem on_bump_other (s : State) {f f' : Field} (n : Nat) (h : f'.key ≠ f.key) : (s.bump f n).on f' = s.on f' := by
  rw [State.on, g_bump_other _ _ h, State.on]

theorem on_incWrap_other (s : State) {f f' : Field} (n : Nat) (h : f'.key ≠ f.key) : (s.incWrap f n).on f' = s.on f' :=
  on_setF_other s _ h

theorem on_loss_other (f : Field) (n : Nat) (s : State) {f' : Field} (h : f'.key ≠ f.key) : (State.loss f n s).on f' = s.on f' := by
  rw [State.on, g_loss_other _ _ _ h, State.on]

/-- A field is read past the write of another one. -/
theorem read_past :
    (∀ (s : State) (f f' : Field) v, f'.key ≠ f.key → (s.setF f v).g f' = s.g f') ∧
    (∀ (s : State) (f f' : Field) b, f'.key ≠ f.key → (s.setB f b).g f' = s.g f') ∧
    (∀ (s : State) (f f' : Field) n, f'.key ≠ f.key → (s.bump f n).g f' = s.g f') ∧
    (∀ (s : State) (f f' : Field) n, f'.key ≠ f.key → (s.incWrap f n).g f' = s.g f') ∧
    (∀ p b (s : State) (f' : Field), f'.key ≠ (F.EVT_STICKY p).key → (State.evt p b s).g f' = s.g f') ∧
    (∀ (s : State) (f f' : Field) v, f'.key ≠ f.key → (s.setF f v).on f' = s.on f') ∧
    (∀ (s : State) (f f' : Field) b, f'.key ≠ f.key → (s.setB f b).on f' = s.on f') ∧
    (∀ (s : State) (f f' : Field) n, f'.key ≠ f.key → (s.bump f n).on f' = s.on f') ∧
    (∀ (s : State) (f f' : Field) n, f'.key ≠ f.key → (s.incWrap f n).on f' = s.on f') ∧
    (∀ p b (s : State) (f' : Field), f'.key ≠ (F.EVT_STICKY p).key → (State.evt p b s).on f' = s.on f') ∧
    (∀ (f : Field) n (s : State) (f' : Field), f'.key ≠ f.key → (State.loss f n s).g f' = s.g f') ∧
    (∀ (f : Field) n (s : State) (f' : Field), f'.key ≠ f.key → (State.loss f n s).on f' = s.on f') :=
  ⟨fun s _ _ v => g_setF_other s v, fun s _ _ b => g_setB_other s b, fun s _ _ n => g_bump_other s n, fun s _ _ n => g_incWrap_other s n,
    fun p b s _ => g_evt_other p b s, fun s _ _ v => on_setF_other s v, fun s _ _ b => on_setB_other s b,
    fun s _ _ n => on_bump_other s n, fun s _ _ n => on_incWrap_other s n, fun p b s _ => on_evt_other p b s,
    fun f n s _ => g_loss_other f n s, fun f n s _ => on_loss_other f n s⟩

end Sys2Proof.Machine

/-! Replies of the enclave on its mailbox directions (R73, R388, R414). -/

namespace Sys2Proof.Machine

/-! ## What a reply can change -/

/-- The parts of the state that a reply of the enclave can change: the mailbox page and the pages below it, the fabric's storage and the
event counts. -/
def ReplyPart : Part → Prop
  | .ev => True
  | .fab => True
  | .reg k => k < 0x50000
  | _ => False

theorem fits_replySend {n : Nat} (hn : n < 12) (ws : List Nat) (s : State) : Fits ReplyPart s (replySend n ws s) := by
  have hpage := pageOf_mbxTx hn
  refine Fits.replySend _ _ _ (Fits.refl _ s) ?_
  repeat' first | with_reducible intro _ | with_reducible constructor
  all_goals try rw [hpage]
  all_goals simp [ReplyPart]
  all_goals omega

/-- The mailbox direction on which the enclave answers: firmware's, or the host's. -/
def replyBox (fw : Bool) : Nat := if fw then 7 else 3

theorem replyBox_lt (fw : Bool) : replyBox fw < 12 := by cases fw <;> decide

theorem fits_enclaveReply (fw : Bool) (op status id : Nat) (more : List Nat) (s : State) :
    Fits ReplyPart s (enclaveReply fw op status id more s) := fits_replySend (replyBox_lt fw) _ s

section Reply

variable {s t : State} (h : Fits ReplyPart s t)
include h

theorem Fits.reply_g {f : Field} (hf : 0x50000 ≤ f.key) : t.g f = s.g f := h.g (Nat.not_lt.2 hf)

theorem Fits.reply_sticky {p b : Nat} (hp : 10 ≤ p) (hs : s.sticky p b) : t.sticky p b :=
  sticky_of_g hs (h.reply_g (by simp; omega))

theorem Fits.reply_enc : t.enc = s.enc := h.within .enc id

theorem Fits.reply_cip : t.cip = s.cip := h.within .cip id

end Reply

/-! ## The words of a reply -/

/-- What `boxQuiet` rests on. -/
def boxParts (n : Nat) : List Part :=
  [.fab, .dev, .reg F.DEV_MODE_mode.key, .reg (F.LOCK_owner 0x09).key, .reg (F.MBX_STAT_rx_in_reset n).key]

theorem boxQuiet_of_fits {n : Nat} {s t : State} (h : boxQuiet s n) (hfit : Fits (Sparing (boxParts n)) s t) : boxQuiet t n := by
  have hsame {p : Part} (hp : p ∈ boxParts n) : Part.same s t p := hfit.within p (not_not_intro hp)
  have hfab : t.fab = s.fab := hsame (p := .fab) (by simp [boxParts])
  have hdev : t.dev = s.dev := hsame (p := .dev) (by simp [boxParts])
  have hmode : t.mode = s.mode := hfit.g_spared (by simp [boxParts])
  have hlock : t.g (F.LOCK_owner 0x09) = s.g (F.LOCK_owner 0x09) := hfit.g_spared (by simp [boxParts])
  obtain ⟨hempty, hnone, hready, hreach, hpage, -, hfree⟩ := h
  refine ⟨(mbxQ_of_fab hfab n).trans hempty, by rw [hfab, hnone], (hfit.on_spared (by simp [boxParts])).trans hready, ?_, hpage, .inl rfl, ?_⟩
  · rw [← hreach, State.reaches, State.reaches, hdev, hmode]
  · rw [← hfree, State.lockedOut, State.lockedOut, hlock]

theorem on_mbxTx_ready (n v : Nat) (hn : n < 12) (s : State) :
    (mbxTx .enclave n v s).on (F.MBX_STAT_rx_in_reset n) = s.on (F.MBX_STAT_rx_in_reset n) := by
  have hpage := pageOf_mbxTx hn
  refine (Fits.mbxTx _ _ _ _ (Fits.refl (Sparing [.reg (F.MBX_STAT_rx_in_reset n).key]) s) ?_).on_spared (by simp)
  repeat' first | with_reducible intro _ | constructor
  all_goals try rw [hpage]
  all_goals simp [Sparing]
  all_goals omega

/-- A further word leaves the words that wait before it. -/
theorem mbxTx_keeps_head {n v : Nat} {w : MbxWord} {s : State} (hready : s.on (F.MBX_STAT_rx_in_reset n) = false)
    (hw : (s.mbxQ n).head? = some w) : ((mbxTx .enclave n v s).mbxQ n).head? = some w := by
  have hfab {t : State} (h : t.fab = s.fab) : (t.mbxQ n).head? = some w := by rw [mbxQ_of_fab h, hw]
  unfold mbxTx State.goWrite
  dsimp only
  split
  · exact hw
  · split
    · exact hfab (by simp)
    · split
      · exact hfab (by simp)
      · split
        · exact hfab (by simp)
        · split
          · exact hfab (by simp)
          · rw [on_access, hready, if_neg Bool.false_ne_true]
            split
            · simp [hw]
            · split <;> simp [hw]

theorem replyPump_keeps_head {n : Nat} (hn : n < 12) {w : MbxWord} (ws : List Nat) {s : State}
    (hready : s.on (F.MBX_STAT_rx_in_reset n) = false) (hw : (s.mbxQ n).head? = some w) :
    ((replyPump n ws s).2.mbxQ n).head? = some w := by
  induction ws generalizing s with
  | nil => exact hw
  | cons v vs ih =>
    rw [replyPump]
    split
    · exact ih ((on_mbxTx_ready n v hn s).trans hready) (mbxTx_keeps_head hready hw)
    · exact hw

/-- R73: the first word sent on a quiet direction stands first. -/
theorem replySend_head {n : Nat} (hn : n < 12) (hend : (mbxEnds n).1 = 2) (w : Nat) (ws : List Nat) {s : State} (h : boxQuiet s n) :
    ((replySend n (w :: ws) s).mbxQ n).head? = some { word := BitVec.ofNat 32 w, writer := 1 } := by
  obtain ⟨hempty, hnone, hready, hadm⟩ := h
  have hfirst : ((mbxTx .enclave n w s).mbxQ n).head? = some { word := BitVec.ofNat 32 w, writer := 1 } := by
    unfold mbxTx
    rw [hadm.runs (pageOf_mbxTx hn)]
    simp only [on_access, mbxQ_access, hempty, hready, hend, endpoint, mcode, ne_eq, not_true_eq_false, if_false, Bool.false_eq_true,
      List.length_nil, List.nil_append]
    rw [if_neg (by decide)]
    split <;> simp
  have hsend : replySend n (w :: ws) s = { (replyPump n ws (mbxTx .enclave n w s)).2 with
      fab := { (replyPump n ws (mbxTx .enclave n w s)).2.fab with
        replies := Tbl.set [] (replyPump n ws (mbxTx .enclave n w s)).2.fab.replies n (replyPump n ws (mbxTx .enclave n w s)).1 } } := by
    rw [replySend, hnone, List.nil_append, replyPump, if_pos (.inl (by rw [hempty]; decide))]
  rw [hsend]
  exact replyPump_keeps_head hn ws ((on_mbxTx_ready n w hn s).trans hready) hfirst

/-- R414: a reply on a quiet direction starts with its word 0. -/
theorem repliedWith_enclaveReply {fw : Bool} (op status id : Nat) (more : List Nat) {s : State} (h : boxQuiet s (if fw then 7 else 3)) :
    repliedWith (enclaveReply fw op status id more s) (if fw then 7 else 3) op status id := by
  cases fw
  · exact replySend_head (by decide) rfl _ _ h
  · exact replySend_head (by decide) rfl _ _ h

end Sys2Proof.Machine

/-! Rules of the associations and the exchange records (R380, R381, R399), and replies to key commands (R388). -/

namespace Sys2Proof.Machine

/-! ## Associations -/

theorem assoc_of_cip {s t : State} (h : t.cip = s.cip) (i : Nat) : assoc t i = assoc s i := by rw [assoc, h, assoc]

@[simp] theorem assoc_modAssoc_same (i : Nat) (f : Assoc → Assoc) (s : State) : assoc (modAssoc i f s) i = f (assoc s i) :=
  Tbl.get_set_same ..

theorem assoc_modAssoc_other {i j : Nat} (f : Assoc → Assoc) (s : State) (h : j ≠ i) : assoc (modAssoc i f s) j = assoc s j :=
  Tbl.get_set_other ({} : Assoc) {} s.cip.sa (f (assoc s i)) h

@[simp] theorem saReport_cip (i : Nat) (s : State) : (saReport i s).cip = s.cip := by simp [saReport]

@[simp] theorem assoc_saReport (i j : Nat) (s : State) : assoc (saReport i s) j = assoc s j := assoc_of_cip (saReport_cip i s) j

/-- R381: the reports of an association's keys lie in the registers behind the pages. -/
theorem g_saReport_other (i : Nat) (s : State) {f : Field} (h : f.key < 0x310000 * 8) : (saReport i s).g f = s.g f := by
  simp only [saReport]
  rw [g_setF_other _ _ (by simp; omega), g_setF_other _ _ (by simp; omega), g_setB_other _ _ (by simp; omega),
    g_setB_other _ _ (by simp; omega), g_setB_other _ _ (by simp; omega)]

/-! ## Exchange records -/

theorem kxRec_of_cip {s t : State} (h : t.cip = s.cip) (j : Nat) : kxRec t j = kxRec s j := by rw [kxRec, h, kxRec]

@[simp] theorem kxRec_modKx_same (j : Nat) (f : Kx → Kx) (s : State) : kxRec (modKx j f s) j = f (kxRec s j) := Tbl.get_set_same ..

@[simp] theorem assoc_modKx (j : Nat) (f : Kx → Kx) (s : State) (i : Nat) : assoc (modKx j f s) i = assoc s i := rfl

@[simp] theorem kxRec_modAssoc (i : Nat) (f : Assoc → Assoc) (s : State) (j : Nat) : kxRec (modAssoc i f s) j = kxRec s j := rfl

@[simp] theorem kxRec_saReport (i : Nat) (s : State) (j : Nat) : kxRec (saReport i s) j = kxRec s j := kxRec_of_cip (saReport_cip i s) j

/-! ## Replies to key commands -/

/-- What counts a refused key command. -/
def keyCounted (status : Nat) (s : State) : State := if status = 0 then s else s.bump (F.CIP_CNT_count 8) 1

theorem keyReply_eq (op status id : Nat) (s : State) :
    keyReply op status id s = enclaveReply false op status id [] (keyCounted status s) := rfl

theorem boxQuiet_keyCounted {n : Nat} (status : Nat) {s : State} (hn : n < 12) (h : boxQuiet s n) : boxQuiet (keyCounted status s) n := by
  unfold keyCounted
  split
  · exact h
  · exact boxQuiet_of_fits h (Fits.bump _ _ _ (Fits.refl _ s) (by simp [Sparing, boxParts]; omega))

theorem repliedWith_keyReply (op status id : Nat) {s : State} (h : boxQuiet s 3) : repliedWith (keyReply op status id s) 3 op status id :=
  repliedWith_enclaveReply (fw := false) op status id [] (boxQuiet_keyCounted status (by decide) h)

theorem keyReply_cip (op status id : Nat) (s : State) : (keyReply op status id s).cip = s.cip := by
  rw [keyReply_eq, (fits_enclaveReply _ _ _ _ _ _).reply_cip, keyCounted]
  split <;> rfl

theorem assoc_keyReply (op status id : Nat) (s : State) (i : Nat) : assoc (keyReply op status id s) i = assoc s i :=
  assoc_of_cip (keyReply_cip op status id s) i

theorem g_keyReply_done (op id : Nat) (s : State) {f : Field} (h : 0x50000 ≤ f.key) : (keyReply op 0 id s).g f = s.g f :=
  (fits_enclaveReply false op 0 id [] s).reply_g h

theorem g_keyReply_refused {status : Nat} (op id : Nat) (s : State) (h : status ≠ 0) :
    (keyReply op status id s).g (F.CIP_CNT_count 8) = min (s.g (F.CIP_CNT_count 8) + 1) 0xFFFFFFFF := by
  rw [keyReply_eq, (fits_enclaveReply _ _ _ _ _ _).reply_g (by simp), keyCounted, if_neg h]
  exact g_bump_same ..

theorem boxQuiet_modAssoc {n : Nat} (i : Nat) (f : Assoc → Assoc) {s : State} (h : boxQuiet s n) : boxQuiet (modAssoc i f s) n :=
  boxQuiet_of_fits h (Fits.modAssoc _ _ _ (Fits.refl _ s) (by simp [Sparing, boxParts]))

theorem boxQuiet_saReport {n : Nat} (_hn : n < 12) (i : Nat) {s : State} (h : boxQuiet s n) : boxQuiet (saReport i s) n :=
  boxQuiet_of_fits h (Fits.saReport _ _ (Fits.refl _ s) (by constructor <;> simp [Sparing, boxParts] <;> omega))

end Sys2Proof.Machine

/-! Numbers in strings of bytes (R116), and the enclave's draws and reports (R410, R412, R413). -/

namespace Sys2Proof.Machine

/-! ## Bytes -/

@[simp] theorem length_toLe (n v : Nat) : (toLe n v).length = n := by
  induction n generalizing v with
  | zero => rfl
  | succ n ih => rw [toLe, List.length_cons, ih]

@[simp] theorem length_toBe (n v : Nat) : (toBe n v).length = n := by rw [toBe, List.length_reverse, length_toLe]

@[simp] theorem byteAt_cons_succ (x : Byte) (b : List Byte) (i : Nat) : byteAt (x :: b) (i + 1) = byteAt b i := rfl

theorem byteAt_append_left {a : List Byte} (b : List Byte) {i : Nat} (h : i < a.length) : byteAt (a ++ b) i = byteAt a i := by
  rw [byteAt, List.getD_append _ _ _ _ h, byteAt]

theorem byteAt_append_right {a : List Byte} (b : List Byte) {i : Nat} (h : a.length ≤ i) : byteAt (a ++ b) i = byteAt b (i - a.length) := by
  rw [byteAt, List.getD_append_right _ _ _ _ h, byteAt]

theorem byteAt_drop (b : List Byte) (k i : Nat) : byteAt (b.drop k) i = byteAt b (k + i) := by
  simp [byteAt, List.getD_eq_getElem?_getD]

theorem byteAt_take {b : List Byte} {n i : Nat} (h : i < n) : byteAt (b.take n) i = byteAt b i := by
  simp [byteAt, List.getD_eq_getElem?_getD, h]

/-- A number is read from its own bytes alone. -/
theorem leNat_congr {a b : List Byte} {i j n : Nat} (h : ∀ k, k < n → byteAt a (i + k) = byteAt b (j + k)) : leNat a i n = leNat b j n := by
  induction n generalizing i j with
  | zero => rfl
  | succ n ih =>
    have hnext : leNat a (i + 1) n = leNat b (j + 1) n :=
      ih fun k hk => by rw [Nat.add_right_comm i 1 k, Nat.add_right_comm j 1 k]; exact h (k + 1) (by omega)
    rw [leNat, leNat, hnext, show byteAt a i = byteAt b j from h 0 (by omega)]

theorem leNat_drop (b : List Byte) (k i n : Nat) : leNat (b.drop k) i n = leNat b (k + i) n :=
  leNat_congr fun j _ => by rw [byteAt_drop, Nat.add_assoc]

theorem leNat_append_left {a : List Byte} (b : List Byte) {i n : Nat} (h : i + n ≤ a.length) : leNat (a ++ b) i n = leNat a i n :=
  leNat_congr fun _ _ => byteAt_append_left b (by omega)

theorem leNat_append_right {a : List Byte} (b : List Byte) {i : Nat} (n : Nat) (h : a.length ≤ i) :
    leNat (a ++ b) i n = leNat b (i - a.length) n :=
  leNat_congr fun k _ => by rw [byteAt_append_right b (by omega), Nat.sub_add_comm h]

theorem leNat_take {b : List Byte} {m i n : Nat} (h : i + n ≤ m) : leNat (b.take m) i n = leNat b i n :=
  leNat_congr fun _ _ => byteAt_take (by omega)

theorem leNat_cons_succ (x : Byte) (b : List Byte) (i n : Nat) : leNat (x :: b) (i + 1) n = leNat b i n :=
  leNat_congr fun k _ => by rw [Nat.add_right_comm]; rfl

/-- A number reads as itself from its bytes. -/
theorem leNat_toLe (n v : Nat) : leNat (toLe n v) 0 n = v % 256 ^ n := by
  induction n generalizing v with
  | zero => rw [leNat, Nat.pow_zero, Nat.mod_one]
  | succ n ih =>
    have hbyte : byteAt (toLe (n + 1) v) 0 = v % 256 := BitVec.toNat_ofNat _ _
    rw [leNat, hbyte, toLe, leNat_cons_succ, ih, Nat.pow_succ', Nat.mod_mul]

theorem toLe_injective {n v w : Nat} (hv : v < 256 ^ n) (hw : w < 256 ^ n) (h : toLe n v = toLe n w) : v = w := by
  have heq := congrArg (leNat · 0 n) h
  simp only [leNat_toLe] at heq
  rwa [Nat.mod_eq_of_lt hv, Nat.mod_eq_of_lt hw] at heq

/-! ## Draws (R410) -/

theorem drawBytes_eq (n : Nat) (s : State) : ∃ b d, drawBytes n s = (b, { s with drawn := d }) ∧ b.length = 8 * n := by
  induction n generalizing s with
  | zero => exact ⟨[], s.drawn, rfl, rfl⟩
  | succ n ih =>
    obtain ⟨b, d, hrest, hlen⟩ := ih (s.draw 64).2
    refine ⟨toBe 8 (s.draw 64).1 ++ b, d, ?_, by rw [List.length_append, length_toBe, hlen]; omega⟩
    rw [drawBytes]
    dsimp only
    rw [hrest]
    rfl

theorem openWords_eq (n : Nat) (s : State) : ∃ ws d, openWords n s = (ws, { s with drawn := d }) := by
  induction n generalizing s with
  | zero => exact ⟨[], s.drawn, rfl⟩
  | succ n ih =>
    obtain ⟨ws, d, hrest⟩ := ih (s.draw 32).2
    refine ⟨(s.draw 32).1 :: ws, d, ?_⟩
    rw [openWords]
    dsimp only
    rw [hrest]
    rfl

/-- A refusal draws its further words and answers. -/
theorem enclaveRefuse_eq (fw : Bool) (op status id n : Nat) (s : State) :
    ∃ ws d, enclaveRefuse fw op status id n s = enclaveReply fw op status id ws { s with drawn := d } := by
  obtain ⟨ws, d, hdraw⟩ := openWords_eq n s
  exact ⟨ws, d, by rw [enclaveRefuse, hdraw]⟩

/-- R414: a refused request changes nothing the enclave holds. -/
theorem enclaveRefuse_refuses {fw : Bool} (op status id n : Nat) {s : State} (h : boxQuiet s (if fw then 7 else 3)) :
    repliedWith (enclaveRefuse fw op status id n s) (if fw then 7 else 3) op status id ∧ (enclaveRefuse fw op status id n s).enc = s.enc := by
  obtain ⟨ws, d, hrefuse⟩ := enclaveRefuse_eq fw op status id n s
  rw [hrefuse]
  exact ⟨repliedWith_enclaveReply _ _ _ _ (s := { s with drawn := d }) h, (fits_enclaveReply _ _ _ _ _ _).reply_enc⟩

/-! ## The reports of the enclave (R412, R413) -/

@[simp] theorem encReport_enc (s : State) : (encReport s).enc = s.enc := by simp [encReport]

/-- R412: the reports of the enclave lie in ENC_STAT. -/
theorem fits_encReport {N : Part → Prop} {s0 s : State} (h : Fits N s0 s) (hN : ∀ b, b < 32 → N (.reg (0xFC040 * 8 + b))) :
    Fits N s0 (encReport s) :=
  Fits.encReport _ h ⟨hN _ (by decide), hN _ (by decide), hN _ (by decide), hN _ (by decide), hN _ (by decide), hN _ (by decide)⟩

theorem g_encReport_other (s : State) {f : Field} (h : f.key < 0xFC040 * 8 ∨ 0xFC044 * 8 ≤ f.key) : (encReport s).g f = s.g f :=
  (fits_encReport (Fits.refl (Sparing [.reg f.key]) s) fun b hb => by simp [Sparing]; omega).g_spared (by simp)

theorem boxQuiet_encReport {n : Nat} (_hn : n < 12) {s : State} (h : boxQuiet s n) : boxQuiet (encReport s) n :=
  boxQuiet_of_fits h (fits_encReport (Fits.refl _ s) fun b hb => by simp [Sparing, boxParts]; omega)

theorem boxQuiet_xbufPut {n : Nat} (_hn : n < 12) (b : List Byte) {s : State} (h : boxQuiet s n) : boxQuiet (xbufPut b s) n :=
  boxQuiet_of_fits h (Fits.xbufPut _ _ (Fits.refl _ s) ⟨fun k => by simp [Sparing, boxParts]; omega⟩)

theorem testBit_wordOf4 (p : Nat → Bool) {h : Nat} (hh : h < 4) : (wordOf 4 p % 2 ^ 4).testBit h = p h := by
  have hword : wordOf 4 p = (((p 0).toNat + 2 * (p 1).toNat) + 4 * (p 2).toNat) + 8 * (p 3).toNat := by
    change (List.range 4).foldl _ 0 = _
    rw [show List.range 4 = [0, 1, 2, 3] from rfl]
    simp only [List.foldl_cons, List.foldl_nil]
    cases p 0 <;> cases p 1 <;> cases p 2 <;> cases p 3 <;> rfl
  rw [hword]
  interval_cases h <;> cases p 0 <;> cases p 1 <;> cases p 2 <;> cases p 3 <;> rfl

/-- R412, R419: ENC_STAT.pending shows a handle that holds a nonce. -/
theorem encReport_pending (s : State) {h : Nat} (hh : h < 4) :
    ((encReport s).g F.ENC_STAT_pending).testBit h = (Tbl.find s.enc.handles h).isSome := by
  rw [encReport, g_setF_same]
  exact testBit_wordOf4 (fun h => (Tbl.find s.enc.handles h).isSome) hh

/-- R413: a word of the exchange buffer that bytes fill. -/
theorem g_xbufPut {b : List Byte} {k : Nat} (hk : 4 * k + 4 ≤ b.length) (s : State) :
    (xbufPut b s).g (F.ENC_XBUF_bytes k) = leNat b (4 * k) 4 := by
  have hlen : ((b.drop (4 * k)).take 4).length = 4 := by rw [List.length_take, List.length_drop]; omega
  refine forEach_view_once (x := k) (fun s => s.g (F.ENC_XBUF_bytes k)) _ (fun _ => leNat b (4 * k) 4) (List.mem_range.2 (by omega))
    List.nodup_range (fun u => ?_) (fun j _ hj u => ?_) s
  · rw [g_setF_same, leNat_append_left _ (by rw [hlen]), leNat_take (by omega), leNat_drop]
    exact Nat.mod_eq_of_lt (leNat_lt b _ 4)
  · exact g_setF_other _ _ (by simp; omega)

end Sys2Proof.Machine

/-! The frames of FEC, frames, groups, lanes, ports and classifier: what each command touches lies in `frame`. -/

namespace Sys2Proof.Machine

theorem fits_fecBlockDecode (le : Fin 2) (k : Fin 32) (burst : Bool) (d : Decoded) (s : State) :
    FitsOut (frame (.fecBlockDecode le k burst d)) s (execFecBlockDecode le k burst d s) := by
  with_reducible refine FitsOut.of_all ?_
  intro N h
  with_reducible refine FitsOut.execFecBlockDecode _ _ _ _ _ (.refl _ _) ?_
  dsimp only [frame] at h
  delta errorRegs decoderRegs engineDownRegs commitCancelRegs engineStoppedRegs cipherLoadRegs converterMapRegs at h
  simp only [only_lets, frame_facts, frame_split, ne_eq, reduceCtorEq, not_false_eq_true] at h
  casesm* _ ∧ _
  repeat' first
    | with_reducible intro _
    | with_reducible constructor
    | with_reducible assumption
    | simp only [*]

theorem fits_cwCandidateFound (le : Fin 2) (k : Fin 32) (s : State) :
    FitsOut (frame (.cwCandidateFound le k)) s (execCwCandidateFound le k s) := by
  with_reducible refine FitsOut.of_all ?_
  intro N h
  with_reducible refine FitsOut.execCwCandidateFound _ _ _ (.refl _ _) ?_
  dsimp only [frame] at h
  delta framerSyncRegs at h
  simp only [only_lets, frame_facts, frame_split, ne_eq, reduceCtorEq, not_false_eq_true] at h
  casesm* _ ∧ _
  repeat' first
    | with_reducible intro _
    | with_reducible constructor
    | with_reducible assumption

theorem fits_tileSwap (le : Fin 2) (inFlight : Fin 3) (s : State) :
    FitsOut (frame (.tileSwap le inFlight)) s (execTileSwap le inFlight s) := by
  with_reducible refine FitsOut.of_all ?_
  intro N h
  with_reducible refine FitsOut.execTileSwap _ _ _ (.refl _ _) ?_
  dsimp only [frame] at h
  delta decoderRegs at h
  simp only [only_lets, frame_facts, frame_split, ne_eq, reduceCtorEq, not_false_eq_true] at h
  casesm* _ ∧ _
  repeat' first
    | with_reducible intro _
    | with_reducible constructor
    | with_reducible assumption
    | simp only [*]

theorem fits_fecEncode (le : Fin 2) (info : List Word) (faults : List Nat) (s : State) :
    FitsOut (frame (.fecEncode le info faults)) s (execFecEncode le info faults s) := by
  with_reducible refine FitsOut.of_all ?_
  intro N h
  with_reducible refine FitsOut.execFecEncode _ _ _ _ (.refl _ _) ?_
  dsimp only [frame] at h
  simp only [only_lets, frame_facts, frame_split, ne_eq, reduceCtorEq, not_false_eq_true] at h
  casesm* _ ∧ _
  repeat' first
    | with_reducible intro _
    | with_reducible constructor
    | with_reducible assumption

theorem fits_glfFrameTx (le : Fin 2) (s : State) :
    FitsOut (frame (.glfFrameTx le)) s (execGlfFrameTx le s) := by
  with_reducible refine FitsOut.of_all ?_
  intro N h
  with_reducible refine FitsOut.execGlfFrameTx _ _ (.refl _ _) ?_
  dsimp only [frame] at h
  delta commitTakenRegs cipherLoadRegs boundaryRegs errorRegs associationRegs exchangeEndRegs at h
  simp only [only_lets, frame_facts, frame_split, ne_eq, reduceCtorEq, not_false_eq_true, engine_pairs] at h
  casesm* _ ∧ _
  repeat' first
    | with_reducible intro _
    | with_reducible constructor
    | with_reducible assumption
    | simp only [*]

theorem fits_glfHeaderRx (le : Fin 2) (k : Fin 32) (pos : Nat) (hdr partB : List Byte) (jc : List (Fin 32 × Word)) (s : State) :
    FitsOut (frame (.glfHeaderRx le k pos hdr partB jc)) s (execGlfHeaderRx le k pos hdr partB jc s) := by
  with_reducible refine FitsOut.of_all ?_
  intro N h
  with_reducible refine FitsOut.execGlfHeaderRx _ _ _ _ _ _ _ (.refl _ _) ?_
  dsimp only [frame] at h
  delta commitTakenRegs associationRegs cipherLoadRegs at h
  simp only [only_lets, frame_facts, frame_split, ne_eq, reduceCtorEq, not_false_eq_true, engine_pairs] at h
  casesm* _ ∧ _
  repeat' first
    | with_reducible intro _
    | with_reducible constructor
    | with_reducible assumption
    | simp only [*]

theorem fits_slotMap (le : Fin 2) (k : Fin 32) (body : List Byte) (s : State) :
    FitsOut (frame (.slotMap le k body)) s (execSlotMap le k body s) := by
  with_reducible refine FitsOut.of_all ?_
  intro N h
  with_reducible refine FitsOut.execSlotMap _ _ _ _ (.refl _ _) ?_
  dsimp only [frame] at h
  simp only [only_lets, frame_facts, frame_split, ne_eq, reduceCtorEq, not_false_eq_true] at h
  casesm* _ ∧ _
  repeat' first
    | with_reducible intro _
    | with_reducible constructor
    | with_reducible assumption

theorem fits_cellRx (le : Fin 2) (c : Fin 64) (hdr : BitVec 64) (failed : Bool) (s : State) :
    FitsOut (frame (.cellRx le c hdr failed)) s (execCellRx le c hdr failed s) := by
  with_reducible refine FitsOut.of_all ?_
  intro N h
  with_reducible refine FitsOut.execCellRx _ _ _ _ _ (.refl _ _) ?_
  dsimp only [frame] at h
  simp only [only_lets, frame_facts, frame_split, ne_eq, reduceCtorEq, not_false_eq_true] at h
  casesm* _ ∧ _
  repeat' first
    | with_reducible intro _
    | with_reducible constructor
    | with_reducible assumption

theorem fits_deskewRelease (g : Fin 64) (fc : BitVec 32) (late bad : List (Fin 16)) (dd : BitVec 20) (last : Fin 16) (s : State) :
    FitsOut (frame (.deskewRelease g fc late bad dd last)) s (execDeskewRelease g fc late bad dd last s) := by
  with_reducible refine FitsOut.of_all ?_
  intro N h
  with_reducible refine FitsOut.execDeskewRelease _ _ _ _ _ _ _ (.refl _ _) ?_
  dsimp only [frame] at h
  simp only [only_lets, frame_facts, frame_split, ne_eq, reduceCtorEq, not_false_eq_true] at h
  casesm* _ ∧ _
  repeat' first
    | with_reducible intro _
    | with_reducible constructor
    | with_reducible assumption

theorem fits_defectDeclare (d : Fin 12) (x : DefScope) (noFrame : Bool) (s : State) :
    FitsOut (frame (.defectDeclare d x noFrame)) s (execDefectDeclare d x noFrame s) := by
  with_reducible refine FitsOut.of_all ?_
  intro N h
  with_reducible refine FitsOut.execDefectDeclare _ _ _ _ (.refl _ _) ?_
  dsimp only [frame] at h
  simp only [only_lets, frame_facts, frame_split, ne_eq, reduceCtorEq, not_false_eq_true, engine_pairs] at h
  casesm* _ ∧ _
  repeat' first
    | with_reducible intro _
    | with_reducible constructor
    | with_reducible assumption
    | simp only [*]

theorem fits_defectClear (d : Fin 12) (x : DefScope) (s : State) :
    FitsOut (frame (.defectClear d x)) s (execDefectClear d x s) := by
  with_reducible refine FitsOut.of_all ?_
  intro N h
  with_reducible refine FitsOut.execDefectClear _ _ _ (.refl _ _) ?_
  dsimp only [frame] at h
  simp only [only_lets, frame_facts, frame_split, ne_eq, reduceCtorEq, not_false_eq_true, engine_pairs] at h
  casesm* _ ∧ _
  repeat' first
    | with_reducible intro _
    | with_reducible constructor
    | with_reducible assumption
    | simp only [*]

theorem fits_mspStatus (body : List Byte) (s : State) :
    FitsOut (frame (.mspStatus body)) s (execMspStatus body s) := by
  with_reducible refine FitsOut.of_all ?_
  intro N h
  with_reducible refine FitsOut.execMspStatus _ _ (.refl _ _) ?_
  dsimp only [frame] at h
  simp only [only_lets, frame_facts, frame_split, ne_eq, reduceCtorEq, not_false_eq_true] at h
  casesm* _ ∧ _
  repeat' first
    | with_reducible intro _
    | with_reducible constructor
    | with_reducible assumption
    | simp only [*]

theorem fits_propose (body : List Byte) (fits : Bool) (s : State) :
    FitsOut (frame (.propose body fits)) s (execPropose body fits s) := by
  with_reducible refine FitsOut.of_all ?_
  intro N h
  with_reducible refine FitsOut.execPropose _ _ _ (.refl _ _) ?_
  dsimp only [frame] at h
  simp only [only_lets, frame_facts, frame_split, ne_eq, reduceCtorEq, not_false_eq_true, engine_pairs] at h
  casesm* _ ∧ _
  repeat' first
    | with_reducible intro _
    | with_reducible constructor
    | with_reducible assumption
    | simp only [*]

theorem fits_accept (body : List Byte) (s : State) :
    FitsOut (frame (.accept body)) s (execAccept body s) := by
  with_reducible refine FitsOut.of_all ?_
  intro N h
  with_reducible refine FitsOut.execAccept _ _ (.refl _ _) ?_
  dsimp only [frame] at h
  simp only [only_lets, frame_facts, frame_split, ne_eq, reduceCtorEq, not_false_eq_true, engine_pairs] at h
  casesm* _ ∧ _
  repeat' first
    | with_reducible intro _
    | with_reducible constructor
    | with_reducible assumption
    | simp only [*]

theorem fits_reject (body : List Byte) (s : State) :
    FitsOut (frame (.reject body)) s (execReject body s) := by
  with_reducible refine FitsOut.of_all ?_
  intro N h
  with_reducible refine FitsOut.execReject _ _ (.refl _ _) ?_
  dsimp only [frame] at h
  simp only [only_lets, frame_facts, frame_split, ne_eq, reduceCtorEq, not_false_eq_true] at h
  casesm* _ ∧ _
  repeat' first
    | with_reducible intro _
    | with_reducible constructor
    | with_reducible assumption
    | simp only [*]

theorem fits_arm (body : List Byte) (s : State) :
    FitsOut (frame (.arm body)) s (execArm body s) := by
  with_reducible refine FitsOut.of_all ?_
  intro N h
  with_reducible refine FitsOut.execArm _ _ (.refl _ _) ?_
  dsimp only [frame] at h
  simp only [only_lets, frame_facts, frame_split, ne_eq, reduceCtorEq, not_false_eq_true] at h
  casesm* _ ∧ _
  repeat' first
    | with_reducible intro _
    | with_reducible constructor
    | with_reducible assumption
    | simp only [*]

theorem fits_reqRemove (body : List Byte) (s : State) :
    FitsOut (frame (.reqRemove body)) s (execReqRemove body s) := by
  with_reducible refine FitsOut.of_all ?_
  intro N h
  with_reducible refine FitsOut.execReqRemove _ _ (.refl _ _) ?_
  dsimp only [frame] at h
  simp only [only_lets, frame_facts, frame_split, ne_eq, reduceCtorEq, not_false_eq_true, engine_pairs] at h
  casesm* _ ∧ _
  repeat' first
    | with_reducible intro _
    | with_reducible constructor
    | with_reducible assumption
    | simp only [*]

theorem fits_mspMsgRepeat (g : Fin 64) (sink : Bool) (s : State) :
    FitsOut (frame (.mspMsgRepeat g sink)) s (execMspMsgRepeat g sink s) := by
  with_reducible refine FitsOut.of_all ?_
  intro N h
  with_reducible refine FitsOut.execMspMsgRepeat _ _ _ (.refl _ _) ?_
  dsimp only [frame] at h
  simp only [only_lets, frame_facts, frame_split, ne_eq, reduceCtorEq, not_false_eq_true, engine_pairs] at h
  casesm* _ ∧ _
  repeat' first
    | with_reducible intro _
    | with_reducible constructor
    | with_reducible assumption
    | simp only [*]

theorem fits_mspProposeTimeout (g : Fin 64) (s : State) :
    FitsOut (frame (.mspProposeTimeout g)) s (execMspProposeTimeout g s) := by
  with_reducible refine FitsOut.of_all ?_
  intro N h
  with_reducible refine FitsOut.execMspProposeTimeout _ _ (.refl _ _) ?_
  dsimp only [frame] at h
  simp only [only_lets, frame_facts, frame_split, ne_eq, reduceCtorEq, not_false_eq_true] at h
  casesm* _ ∧ _
  repeat' first
    | with_reducible intro _
    | with_reducible constructor
    | with_reducible assumption

theorem fits_mspReadyTimeout (g : Fin 64) (s : State) :
    FitsOut (frame (.mspReadyTimeout g)) s (execMspReadyTimeout g s) := by
  with_reducible refine FitsOut.of_all ?_
  intro N h
  with_reducible refine FitsOut.execMspReadyTimeout _ _ (.refl _ _) ?_
  dsimp only [frame] at h
  simp only [only_lets, frame_facts, frame_split, ne_eq, reduceCtorEq, not_false_eq_true] at h
  casesm* _ ∧ _
  repeat' first
    | with_reducible intro _
    | with_reducible constructor
    | with_reducible assumption

theorem fits_mspSwitch (g : Fin 64) (s : State) :
    FitsOut (frame (.mspSwitch g)) s (execMspSwitch g s) := by
  with_reducible refine FitsOut.of_all ?_
  intro N h
  with_reducible refine FitsOut.execMspSwitch _ _ (.refl _ _) ?_
  dsimp only [frame] at h
  simp only [only_lets, frame_facts, frame_split, ne_eq, reduceCtorEq, not_false_eq_true] at h
  casesm* _ ∧ _
  repeat' first
    | with_reducible intro _
    | with_reducible constructor
    | with_reducible assumption

theorem fits_laneSignalDetect (k : Fin 32) (s : State) :
    FitsOut (frame (.laneSignalDetect k)) s (execLaneSignalDetect k s) := by
  with_reducible refine FitsOut.of_all ?_
  intro N h
  with_reducible refine FitsOut.execLaneSignalDetect _ _ (.refl _ _) ?_
  dsimp only [frame] at h
  delta laneStateRegs at h
  simp only [only_lets, frame_facts, frame_split] at h
  casesm* _ ∧ _
  repeat' first
    | with_reducible intro _
    | with_reducible constructor
    | with_reducible assumption

theorem fits_cdrConverged (k : Fin 32) (inverted : Bool) (snr : Byte) (s : State) :
    FitsOut (frame (.cdrConverged k inverted snr)) s (execCdrConverged k inverted snr s) := by
  with_reducible refine FitsOut.of_all ?_
  intro N h
  with_reducible refine FitsOut.execCdrConverged _ _ _ _ (.refl _ _) ?_
  dsimp only [frame] at h
  delta laneStateRegs at h
  simp only [only_lets, frame_facts, frame_split, ne_eq, reduceCtorEq, not_false_eq_true] at h
  casesm* _ ∧ _
  repeat' first
    | with_reducible intro _
    | with_reducible constructor
    | with_reducible assumption
    | simp only [*]

theorem fits_cdrTimeout (k : Fin 32) (s : State) :
    FitsOut (frame (.cdrTimeout k)) s (execCdrTimeout k s) := by
  with_reducible refine FitsOut.of_all ?_
  intro N h
  with_reducible refine FitsOut.execCdrTimeout _ _ (.refl _ _) ?_
  dsimp only [frame] at h
  delta laneStateRegs at h
  simp only [only_lets, frame_facts, frame_split] at h
  casesm* _ ∧ _
  repeat' first
    | with_reducible intro _
    | with_reducible constructor
    | with_reducible assumption

theorem fits_trainingComplete (k : Fin 32) (taps : Word) (s : State) :
    FitsOut (frame (.trainingComplete k taps)) s (execTrainingComplete k taps s) := by
  with_reducible refine FitsOut.of_all ?_
  intro N h
  with_reducible refine FitsOut.execTrainingComplete _ _ _ (.refl _ _) ?_
  dsimp only [frame] at h
  delta laneStateRegs at h
  simp only [only_lets, frame_facts, frame_split, ne_eq, reduceCtorEq, not_false_eq_true] at h
  casesm* _ ∧ _
  repeat' first
    | with_reducible intro _
    | with_reducible constructor
    | with_reducible assumption
    | simp only [*]

theorem fits_trainFail (k : Fin 32) (s : State) :
    FitsOut (frame (.trainFail k)) s (execTrainFail k s) := by
  with_reducible refine FitsOut.of_all ?_
  intro N h
  with_reducible refine FitsOut.execTrainFail _ _ (.refl _ _) ?_
  dsimp only [frame] at h
  delta laneStateRegs at h
  simp only [only_lets, frame_facts, frame_split, ne_eq, reduceCtorEq, not_false_eq_true] at h
  casesm* _ ∧ _
  repeat' first
    | with_reducible intro _
    | with_reducible constructor
    | with_reducible assumption

theorem fits_laneFault (k : Fin 32) (lost : Nat) (s : State) :
    FitsOut (frame (.laneFault k lost)) s (execLaneFault k lost s) := by
  with_reducible refine FitsOut.of_all ?_
  intro N h
  with_reducible refine FitsOut.execLaneFault _ _ _ (.refl _ _) ?_
  dsimp only [frame] at h
  delta laneStateRegs at h
  simp only [only_lets, frame_facts, frame_split, ne_eq, reduceCtorEq, not_false_eq_true] at h
  casesm* _ ∧ _
  repeat' first
    | with_reducible intro _
    | with_reducible constructor
    | with_reducible assumption
    | simp only [*]

theorem fits_capabilityFrame (k : Fin 32) (marker : Word) (version lane flags lanes : Byte) (tag : BitVec 24) (port : Byte)
    (tail : Word) (s : State) :
    FitsOut (frame (.capabilityFrame k marker version lane flags lanes tag port tail)) s
      (execCapabilityFrame k marker version lane flags lanes tag port tail s) := by
  with_reducible refine FitsOut.of_all ?_
  intro N h
  with_reducible refine FitsOut.execCapabilityFrame _ _ _ _ _ _ _ _ _ _ (.refl _ _) ?_
  dsimp only [frame] at h
  simp only [only_lets, frame_facts, frame_split, ne_eq, reduceCtorEq, not_false_eq_true] at h
  casesm* _ ∧ _
  repeat' first
    | with_reducible intro _
    | with_reducible constructor
    | with_reducible assumption
    | simp only [*]

theorem fits_exchangeWindowExpiry (p : Fin 32) (s : State) :
    FitsOut (frame (.exchangeWindowExpiry p)) s (execExchangeWindowExpiry p s) := by
  with_reducible refine FitsOut.of_all ?_
  intro N h
  with_reducible refine FitsOut.execExchangeWindowExpiry _ _ (.refl _ _) ?_
  dsimp only [frame] at h
  simp only [only_lets, frame_facts, frame_split, ne_eq, reduceCtorEq, not_false_eq_true] at h
  casesm* _ ∧ _
  repeat' first
    | with_reducible intro _
    | with_reducible constructor
    | with_reducible assumption

theorem fits_portAligned (p : Fin 32) (found : PortAlignment) (s : State) :
    FitsOut (frame (.portAligned p found)) s (execPortAligned p found s) := by
  with_reducible refine FitsOut.of_all ?_
  intro N h
  with_reducible refine FitsOut.execPortAligned _ _ _ (.refl _ _) ?_
  dsimp only [frame] at h
  delta laneStateRegs at h
  simp only [only_lets, frame_facts, frame_split, ne_eq, reduceCtorEq, not_false_eq_true] at h
  casesm* _ ∧ _
  repeat' first
    | with_reducible intro _
    | with_reducible constructor
    | with_reducible assumption
    | simp only [*]

theorem fits_alignmentLost (p : Fin 32) (s : State) :
    FitsOut (frame (.alignmentLost p)) s (execAlignmentLost p s) := by
  with_reducible refine FitsOut.of_all ?_
  intro N h
  with_reducible refine FitsOut.execAlignmentLost _ _ (.refl _ _) ?_
  dsimp only [frame] at h
  delta laneStateRegs at h
  simp only [only_lets, frame_facts, frame_split, ne_eq, reduceCtorEq, not_false_eq_true] at h
  casesm* _ ∧ _
  repeat' first
    | with_reducible intro _
    | with_reducible constructor
    | with_reducible assumption
    | simp only [*]

theorem fits_spareReq (p : Fin 32) (lane : Fin 8) (seq : Byte) (s : State) :
    FitsOut (frame (.spareReq p lane seq)) s (execSpareReq p lane seq s) := by
  with_reducible refine FitsOut.of_all ?_
  intro N h
  with_reducible refine FitsOut.execSpareReq _ _ _ _ (.refl _ _) ?_
  dsimp only [frame] at h
  simp only [only_lets, frame_facts, frame_split, ne_eq, reduceCtorEq, not_false_eq_true] at h
  casesm* _ ∧ _
  repeat' first
    | with_reducible intro _
    | with_reducible constructor
    | with_reducible assumption

theorem fits_spareAck (p : Fin 32) (lane : Fin 8) (seq : Byte) (s : State) :
    FitsOut (frame (.spareAck p lane seq)) s (execSpareAck p lane seq s) :=  FitsOut.execSpareAck p lane seq s (.refl _ _)
        (.head _)

theorem fits_spareReqRepeat (p : Fin 32) (s : State) :
    FitsOut (frame (.spareReqRepeat p)) s (execSpareReqRepeat p s) := by
  with_reducible refine FitsOut.of_all ?_
  intro N h
  with_reducible refine FitsOut.execSpareReqRepeat _ _ (.refl _ _) ?_
  dsimp only [frame] at h
  simp only [only_lets, frame_facts, frame_split, ne_eq, reduceCtorEq, not_false_eq_true] at h
  casesm* _ ∧ _
  repeat' first
    | with_reducible intro _
    | with_reducible constructor
    | with_reducible assumption

theorem fits_spareSwitch (p : Fin 32) (lost : Nat) (s : State) :
    FitsOut (frame (.spareSwitch p lost)) s (execSpareSwitch p lost s) := by
  with_reducible refine FitsOut.of_all ?_
  intro N h
  with_reducible refine FitsOut.execSpareSwitch _ _ _ (.refl _ _) ?_
  dsimp only [frame] at h
  delta laneStateRegs at h
  simp only [only_lets, frame_facts, frame_split, ne_eq, reduceCtorEq, not_false_eq_true] at h
  casesm* _ ∧ _
  repeat' first
    | with_reducible intro _
    | with_reducible constructor
    | with_reducible assumption
    | simp only [*]

theorem fits_sleep (p : Fin 32) (s : State) :
    FitsOut (frame (.sleep p)) s (execSleep p s) := by
  with_reducible refine FitsOut.of_all ?_
  intro N h
  with_reducible refine FitsOut.execSleep _ _ (.refl _ _) ?_
  dsimp only [frame] at h
  simp only [only_lets, frame_facts, frame_split] at h
  repeat' first
    | with_reducible intro _
    | with_reducible constructor
    | simp only [h]

theorem fits_wake (p : Fin 32) (s : State) :
    FitsOut (frame (.wake p)) s (execWake p s) := by
  with_reducible refine FitsOut.of_all ?_
  intro N h
  with_reducible refine FitsOut.execWake _ _ (.refl _ _) ?_
  dsimp only [frame] at h
  simp only [only_lets, frame_facts, frame_split] at h
  repeat' first
    | with_reducible intro _
    | with_reducible constructor
    | simp only [h]

theorem fits_sleepEntry (p : Fin 32) (s : State) :
    FitsOut (frame (.sleepEntry p)) s (execSleepEntry p s) := by
  with_reducible refine FitsOut.of_all ?_
  intro N h
  with_reducible refine FitsOut.execSleepEntry _ _ (.refl _ _) ?_
  dsimp only [frame] at h
  simp only [only_lets, frame_facts, frame_split, ne_eq, reduceCtorEq, not_false_eq_true] at h
  casesm* _ ∧ _
  repeat' first
    | with_reducible intro _
    | with_reducible constructor
    | with_reducible assumption

theorem fits_ingressFrame (p : Fin 32) (len : Nat) (overload : Bool) (line : PortLine) (s : State) :
    FitsOut (frame (.ingressFrame p len overload line)) s (execIngressFrame p len overload line s) := by
  with_reducible refine FitsOut.of_all ?_
  intro N h
  with_reducible refine FitsOut.execIngressFrame _ _ _ _ _ (.refl _ _) ?_
  dsimp only [frame] at h
  simp only [only_lets, frame_facts, frame_split, ne_eq, reduceCtorEq, not_false_eq_true] at h
  casesm* _ ∧ _
  repeat' first
    | with_reducible intro _
    | with_reducible constructor
    | with_reducible assumption
    | simp only [*]

theorem fits_egressFrame (p : Fin 32) (len queued idleAdj : Nat) (slip : Bool) (s : State) :
    FitsOut (frame (.egressFrame p len queued idleAdj slip)) s (execEgressFrame p len queued idleAdj slip s) := by
  with_reducible refine FitsOut.of_all ?_
  intro N h
  with_reducible refine FitsOut.execEgressFrame _ _ _ _ _ _ (.refl _ _) ?_
  dsimp only [frame] at h
  simp only [only_lets, frame_facts, frame_split, ne_eq, reduceCtorEq, not_false_eq_true] at h
  casesm* _ ∧ _
  repeat' first
    | with_reducible intro _
    | with_reducible constructor
    | with_reducible assumption

theorem fits_esmcPduRx (p : Fin 32) (code : Option (BitVec 4)) (s : State) :
    FitsOut (frame (.esmcPduRx p code)) s (execEsmcPduRx p code s) := by
  with_reducible refine FitsOut.of_all ?_
  intro N h
  with_reducible refine FitsOut.execEsmcPduRx _ _ _ (.refl _ _) ?_
  dsimp only [frame] at h
  delta qualityRegs at h
  simp only [only_lets, frame_facts, frame_split, ne_eq, reduceCtorEq, not_false_eq_true] at h
  casesm* _ ∧ _
  repeat' first
    | with_reducible intro _
    | with_reducible constructor
    | with_reducible assumption
    | simp only [*]

theorem fits_esmcInfoTx (s : State) :
    FitsOut (frame .esmcInfoTx) s (execEsmcInfoTx s) := by
  with_reducible refine FitsOut.of_all ?_
  intro N h
  with_reducible refine FitsOut.execEsmcInfoTx _ (.refl _ _) ?_
  dsimp only [frame] at h
  simp only [only_lets, frame_facts, frame_split, ne_eq, reduceCtorEq, not_false_eq_true] at h
  casesm* _ ∧ _
  repeat' first
    | with_reducible intro _
    | with_reducible constructor
    | with_reducible assumption
    | simp only [*]

theorem fits_esmcQlTimeout (p : Fin 32) (s : State) :
    FitsOut (frame (.esmcQlTimeout p)) s (execEsmcQlTimeout p s) := by
  with_reducible refine FitsOut.of_all ?_
  intro N h
  with_reducible refine FitsOut.execEsmcQlTimeout _ _ (.refl _ _) ?_
  dsimp only [frame] at h
  delta qualityRegs at h
  simp only [only_lets, frame_facts, frame_split, ne_eq, reduceCtorEq, not_false_eq_true] at h
  casesm* _ ∧ _
  repeat' first
    | with_reducible intro _
    | with_reducible constructor
    | with_reducible assumption
    | simp only [*]

theorem fits_firstPass (p : Fin 32) (bytes : List Byte) (fcsBad : Bool) (pipe : Fin 6) (ue : List Nat) (ce : Nat)
    (differs : Bool) (s : State) :
    FitsOut (frame (.firstPass p bytes fcsBad pipe ue ce differs)) s (execFirstPass p bytes fcsBad pipe ue ce differs s) := by
  with_reducible refine FitsOut.of_all ?_
  intro N h
  with_reducible refine FitsOut.execFirstPass _ _ _ _ _ _ _ _ (.refl _ _) ?_
  dsimp only [frame] at h
  delta errorRegs at h
  simp only [only_lets, frame_facts, frame_split, ne_eq, reduceCtorEq, not_false_eq_true] at h
  casesm* _ ∧ _
  repeat' first
    | with_reducible intro _
    | with_reducible constructor
    | with_reducible assumption
    | simp only [*]

theorem fits_secondPass (id : Nat) (pipe : Fin 6) (ue : List Nat) (ce : Nat) (differs : Bool) (s : State) :
    FitsOut (frame (.secondPass id pipe ue ce differs)) s (execSecondPass id pipe ue ce differs s) := by
  with_reducible refine FitsOut.of_all ?_
  intro N h
  with_reducible refine FitsOut.execSecondPass _ _ _ _ _ _ (.refl _ _) ?_
  dsimp only [frame] at h
  delta errorRegs at h
  simp only [only_lets, frame_facts, frame_split, ne_eq, reduceCtorEq, not_false_eq_true] at h
  casesm* _ ∧ _
  repeat' first
    | with_reducible intro _
    | with_reducible constructor
    | with_reducible assumption
    | simp only [*]

theorem fits_recircTimeout (id : Nat) (s : State) :
    FitsOut (frame (.recircTimeout id)) s (execRecircTimeout id s) := by
  with_reducible refine FitsOut.of_all ?_
  intro N h
  with_reducible refine FitsOut.execRecircTimeout _ _ (.refl _ _) ?_
  dsimp only [frame] at h
  simp only [only_lets, frame_facts, frame_split, ne_eq, reduceCtorEq, not_false_eq_true] at h
  casesm* _ ∧ _
  repeat' first
    | with_reducible intro _
    | with_reducible constructor
    | with_reducible assumption
    | simp only [*]

theorem fits_packetRelease (id : Nat) (s : State) :
    FitsOut (frame (.packetRelease id)) s (execPacketRelease id s) := by
  with_reducible refine FitsOut.of_all ?_
  intro N h
  with_reducible refine FitsOut.execPacketRelease _ _ (.refl _ _) ?_
  dsimp only [frame] at h
  simp only [only_lets, frame_facts, frame_split, ne_eq, reduceCtorEq, not_false_eq_true, engine_pairs] at h
  casesm* _ ∧ _
  repeat' first
    | with_reducible intro _
    | with_reducible constructor
    | with_reducible assumption
    | simp only [*]

theorem fits_bankDrainDone (s : State) :
    FitsOut (frame .bankDrainDone) s (execBankDrainDone s) := by
  with_reducible refine FitsOut.of_all ?_
  intro N h
  with_reducible refine FitsOut.execBankDrainDone _ (.refl _ _) ?_
  dsimp only [frame] at h
  simp only [only_lets, frame_facts, frame_split, ne_eq, reduceCtorEq, not_false_eq_true] at h
  casesm* _ ∧ _
  repeat' first
    | with_reducible intro _
    | with_reducible constructor
    | with_reducible assumption
    | simp only [*]

theorem fits_clsBankCopy (m : Master) (s : State) :
    FitsOut (frame (.clsBankCopy m)) s (execClsBankCopy m s) := by
  with_reducible refine FitsOut.of_all ?_
  intro N h
  with_reducible refine FitsOut.execClsBankCopy _ _ (.refl _ _) ?_
  dsimp only [frame] at h
  delta fabricErrorRegs errorRegs at h
  simp only [only_lets, frame_facts, frame_split, ne_eq, reduceCtorEq, not_false_eq_true] at h
  repeat' first
    | with_reducible intro _
    | with_reducible constructor
    | simp only [h, pageOf, Nat.reduceLT, Nat.reduceDiv, if_true]

theorem fits_copyDone (ue : List (Fin 0x1000000)) (s : State) :
    FitsOut (frame (.copyDone ue)) s (execCopyDone ue s) := by
  with_reducible refine FitsOut.of_all ?_
  intro N h
  with_reducible refine FitsOut.execCopyDone _ _ (.refl _ _) ?_
  dsimp only [frame] at h
  simp only [only_lets, frame_facts, frame_split, ne_eq, reduceCtorEq, not_false_eq_true] at h
  casesm* _ ∧ _
  repeat' first
    | with_reducible intro _
    | with_reducible constructor
    | with_reducible assumption
    | simp only [*]

theorem fits_clsWinWrite (m : Master) (b : Fin 2) (off : BitVec 24) (value : Word) (s : State) :
    FitsOut (frame (.clsWinWrite m b off value)) s (execClsWinWrite m b off value s) := by
  with_reducible refine FitsOut.of_all ?_
  intro N h
  with_reducible refine FitsOut.execClsWinWrite _ _ _ _ _ (.refl _ _) ?_
  dsimp only [frame] at h
  delta fabricErrorRegs at h
  simp only [only_lets, frame_facts, frame_split, ne_eq, reduceCtorEq, not_false_eq_true] at h
  casesm* _ ∧ _
  repeat' first
    | with_reducible intro _
    | with_reducible constructor
    | with_reducible assumption

theorem fits_pipeTestStart (p : Fin 6) (s : State) :
    FitsOut (frame (.pipeTestStart p)) s (execPipeTestStart p s) := by
  with_reducible refine FitsOut.of_all ?_
  intro N h
  with_reducible refine FitsOut.execPipeTestStart _ _ (.refl _ _) ?_
  dsimp only [frame] at h
  simp only [only_lets, frame_facts, frame_split] at h
  casesm* _ ∧ _
  repeat' first
    | with_reducible intro _
    | with_reducible constructor
    | with_reducible assumption

theorem fits_pipeTestDone (p : Fin 6) (ok : Bool) (s : State) :
    FitsOut (frame (.pipeTestDone p ok)) s (execPipeTestDone p ok s) := by
  with_reducible refine FitsOut.of_all ?_
  intro N h
  with_reducible refine FitsOut.execPipeTestDone _ _ _ (.refl _ _) ?_
  dsimp only [frame] at h
  simp only [only_lets, frame_facts, frame_split, ne_eq, reduceCtorEq, not_false_eq_true] at h
  casesm* _ ∧ _
  repeat' first
    | with_reducible intro _
    | with_reducible constructor
    | with_reducible assumption

end Sys2Proof.Machine

/-! Data units under an association (R384, R386, R392): its boundary, the shadow check and the key of the unit. -/

namespace Sys2Proof.Machine

/-! ## What the unit's protection reads -/

/-- What the protection of a unit of association `i` reads of a state. -/
structure SameUnit (i : Nat) (s t : State) : Prop where
  sets : t.inForce = s.inForce
  groups : t.grp = s.grp
  keys : t.cip.sa = s.cip.sa
  st : t.g (F.CIP_SA_ST_state i) = s.g (F.CIP_SA_ST_state i)
  overload : t.g F.CIP_STAT_overload = s.g F.CIP_STAT_overload
  first : t.g F.CIP_STAT_shed_first = s.g F.CIP_STAT_shed_first

/-- The parts beside the keys. -/
def unitParts (i : Nat) : List Part :=
  [.inForce, .grp, .reg (F.CIP_SA_ST_state i).key, .reg F.CIP_STAT_overload.key, .reg F.CIP_STAT_shed_first.key]

section Unit

variable {i : Nat} {s t u : State}

theorem SameUnit.of_fits (h : Fits (Sparing (unitParts i)) s t) (hk : t.cip.sa = s.cip.sa) : SameUnit i s t :=
  ⟨h.inForce_spared (by simp [unitParts]), h.within .grp (by simp [Sparing, unitParts]), hk, h.g_spared (by simp [unitParts]),
    h.g_spared (by simp [unitParts]), h.g_spared (by simp [unitParts])⟩

theorem SameUnit.trans (h : SameUnit i s t) (h' : SameUnit i t u) : SameUnit i s u :=
  ⟨h'.sets.trans h.sets, h'.groups.trans h.groups, h'.keys.trans h.keys, h'.st.trans h.st, h'.overload.trans h.overload, h'.first.trans h.first⟩

theorem SameUnit.assoc_eq (h : SameUnit i s t) : assoc t i = assoc s i := by rw [assoc, h.keys, assoc]

theorem SameUnit.saState_eq (h : SameUnit i s t) : saState t i = saState s i := h.st

theorem SameUnit.saShed_eq (h : SameUnit i s t) : saShed t i = saShed s i := by
  rw [saShed, State.on, h.overload, h.first, saShed, State.on]

theorem SameUnit.unitKey_eq (h : SameUnit i s t) (mism : Option (Fin 8 × Bool)) : unitKey mism i t = unitKey mism i s := by
  unfold unitKey
  rw [h.saState_eq, h.saShed_eq, h.assoc_eq]

/-- R384: the associated data read the set in force and the groups' members. -/
theorem unitAad_congr (h : t.inForce = s.inForce) (hg : t.grp = s.grp) (i hdr : Nat) : unitAad t i hdr = unitAad s i hdr := by
  simp only [unitAad, unitSlots, grpSt, h, hg]

theorem sameUnit_loss (n : Nat) (s : State) {f : Field} (h : f.key ≠ (F.CIP_SA_ST_state i).key)
    (ho : f.key ≠ F.CIP_STAT_overload.key)
    (hf : f.key ≠ F.CIP_STAT_shed_first.key) : SameUnit i s (State.loss f n s) :=
  .of_fits (Fits.loss _ _ _ (.refl _ s) (by simp [Sparing, unitParts])
      (by simp only [Sparing, unitParts, List.mem_cons, Part.reg.injEq, h, ho, hf]; simp))
    (by rw [State.loss_cip])

theorem sameUnit_unitShadow (x : Option (Fin 8 × Bool)) (s : State) : SameUnit i s (unitShadow x s).2 := by
  refine .of_fits (Fits.unitShadow _ _ (.refl _ s) ?_) ?_
  · repeat' first | with_reducible intro _ | with_reducible constructor
    all_goals simp [Sparing, unitParts]
    all_goals omega
  · unfold unitShadow shadowMismatch
    dsimp only
    split
    · split <;> simp
    · rfl

theorem dealChunks_sa (n len : Nat) (s : State) : (dealChunks n len s).cip.sa = s.cip.sa := by
  induction n generalizing len s with
  | zero => rfl
  | succ n ih =>
    unfold dealChunks
    split
    · rfl
    · rw [ih]
      simp [State.datapath, State.draw]

theorem sameUnit_dealChunks (n len : Nat) (s : State) : SameUnit i s (dealChunks n len s) :=
  .of_fits (Fits.dealChunks _ _ _ (.refl _ s) ⟨by simp [Sparing, unitParts], by simp [Sparing, unitParts], by simp [Sparing, unitParts]⟩)
    (dealChunks_sa ..)

/-! ## The shadow check of a unit -/

/-- The state after the shadow check of a unit, with the unit counted if it is lost or shed (R392, R404, R407). -/
def unitChecked (mism : Option (Fin 8 × Bool)) (i : Nat) (s : State) : State :=
  if (!agreed mism || saShed s i) = true then State.loss (F.CIP_CNT_count 4) 1 (unitShadow mism s).2 else (unitShadow mism s).2

theorem unitShadow_lost (mism : Option (Fin 8 × Bool)) (s : State) : (unitShadow mism s).1 = !agreed mism := by
  cases mism <;> rfl

theorem unitChecked_eq (mism : Option (Fin 8 × Bool)) (i : Nat) (s : State) :
    (if ((unitShadow mism s).1 || saShed (unitShadow mism s).2 i) = true then State.loss (F.CIP_CNT_count 4) 1 (unitShadow mism s).2
      else (unitShadow mism s).2) = unitChecked mism i s := by
  rw [unitShadow_lost, (sameUnit_unitShadow mism s).saShed_eq, unitChecked]

theorem sameUnit_unitChecked (mism : Option (Fin 8 × Bool)) (s : State) : SameUnit i s (unitChecked mism i s) := by
  unfold unitChecked
  split
  · exact (sameUnit_unitShadow mism s).trans (sameUnit_loss _ _ (by simp; omega) (by simp) (by simp))
  · exact sameUnit_unitShadow mism s

/-- A core found wanting (R404) leaves the counts of void units. -/
theorem g_coreSuspect (c i m : Nat) (p : Cip) (s : State) (hc : c < 8) :
    ((({ s with cip := p } : State).setB (F.CIP_CORE_STAT_suspect c) true).setF (F.CIP_CORE_STAT_mismatches c) m).g
      (F.CIP_SA_VOID_count i) = s.g (F.CIP_SA_VOID_count i) := by
  rw [g_setF_other _ _ (by simp; omega), g_setB_other _ _ (by simp; omega)]
  rfl

theorem g_shadowMismatch_void (c : Fin 8) (i : Nat) (s : State) :
    (shadowMismatch c.val s).g (F.CIP_SA_VOID_count i) = s.g (F.CIP_SA_VOID_count i) := by
  have hl : (State.loss (F.CIP_CNT_count 0) 1 s).g (F.CIP_SA_VOID_count i) = s.g (F.CIP_SA_VOID_count i) :=
    g_loss_other _ _ _ (by simp; omega)
  unfold shadowMismatch
  dsimp only
  split
  next d hd =>
    obtain ⟨k, -, rfl⟩ := List.mem_map.mp (List.mem_of_find?_eq_some hd)
    rw [g_coreSuspect _ _ _ _ _ (Nat.mod_lt _ (by decide)), g_coreSuspect _ _ _ _ _ c.isLt, hl]
  · rw [g_coreSuspect _ _ _ _ _ c.isLt, hl]

theorem g_unitChecked_void (mism : Option (Fin 8 × Bool)) (i : Nat) (s : State) :
    (unitChecked mism i s).g (F.CIP_SA_VOID_count i) = s.g (F.CIP_SA_VOID_count i) := by
  have hsh : (unitShadow mism s).2.g (F.CIP_SA_VOID_count i) = s.g (F.CIP_SA_VOID_count i) := by
    cases mism with
    | none => rfl
    | some x => exact g_shadowMismatch_void x.1 i s
  unfold unitChecked
  split
  · rw [g_loss_other _ _ _ (by simp; omega), hsh]
  · exact hsh

theorem unitKey_eq_some {mism : Option (Fin 8 × Bool)} {k : List Byte} (h : unitKey mism i s = some k) :
    saState s i = 1 ∧ (assoc s i).cur = some k ∧ (!agreed mism || saShed s i) = false := by
  unfold unitKey at h
  split at h
  next hk => exact ⟨hk.1, h, by simp [hk.2]⟩
  · cases h

theorem unitKey_eq_none {mism : Option (Fin 8 × Bool)} (h : unitKey mism i s = none) (h1 : saState s i = 1)
    {k : List Byte} (hk : (assoc s i).cur = some k) : (!agreed mism || saShed s i) = true := by
  unfold unitKey at h
  split at h
  · rw [hk] at h; cases h
  next hn => simp only [h1, true_and, not_and, Bool.not_eq_false] at hn; cases ha : agreed mism <;> simp [ha] at hn ⊢; exact hn

/-! ## The boundary of a unit -/

/-- The boundary of association `i` before a unit, which the association has then seen at time `now` (R386, R389). -/
def unitBegun (i unit units start now : Nat) (s : State) : State :=
  modAssoc i (fun a => { a with seenAt := now }) (saBoundary i unit units start s)

/-- What a boundary of association `i` leaves beside the counts of void units, whose registers lie above those of the exchanges. -/
theorem fits_kxStart_spared (tx rx : Nat) (h : Fits (Sparing [.inForce, .grp, .reg (F.CIP_SA_VOID_count i).key]) s t) :
    Fits (Sparing [.inForce, .grp, .reg (F.CIP_SA_VOID_count i).key]) s (kxStart tx rx t) := by
  unfold kxStart
  split
  · refine Fits.err _ _ _ _ _ h ?_
    repeat' first | with_reducible intro _ | with_reducible constructor
    all_goals simp [Sparing]
    all_goals omega
  next j hj =>
    have hj : j < 16 := List.mem_range.mp (List.mem_of_find?_eq_some hj)
    have h' := Fits.setF _ (F.CIP_KX_STAT_rx j) rx (Fits.setF _ (F.CIP_KX_STAT_tx j) tx h (by simp [Sparing]; omega))
      (by simp [Sparing]; omega)
    have hr (n : Nat) := Fits.setF _ (F.CIP_KX_STAT_result j) n h' (by simp [Sparing]; omega)
    dsimp only
    split
    · exact hr 4
    split
    · exact hr 7
    refine Fits.kxInit _ _ h' ?_
    repeat' first | with_reducible intro _ | with_reducible constructor
    all_goals simp [Sparing]
    all_goals omega

/-- The boundary stays within what its parts stay within. -/
theorem fits_saBoundary_of {N : Part → Prop} (i unit units start : Nat) {s0 s : State} (h : Fits N s0 s)
    (hwarn : N (.reg (F.CIP_SA_ST_warn i).key)) (hlim : Touches.saAtLimit N i) (hreport : Touches.saReport N i)
    (hstart : ∀ tx rx t, Fits N s0 t → Fits N s0 (kxStart tx rx t)) : Fits N s0 (saBoundary i unit units start s) := by
  obtain ⟨hcip, hevt, hblock, hroll, hswitched⟩ := id hlim
  have hactive := hroll.c_saActive
  unfold saBoundary
  repeat' first
    | with_reducible assumption
    | with_reducible apply hstart
    | with_reducible apply Fits.setB
    | with_reducible apply Fits.evt
    | with_reducible apply Fits.modAssoc
    | with_reducible apply Fits.saReport
    | with_reducible apply Fits.saBlock
    | with_reducible apply Fits.saActive
    | with_reducible apply Fits.saRoll
    | with_reducible apply Fits.kxSwitched
    | with_reducible apply Fits.saAtLimit
    | with_reducible apply Fits.when
    | with_reducible apply Fits.ite
    | (intro _)
    | dsimp only
    | split

/-- The boundary leaves the sets, the groups and the count of void units. -/
theorem fits_unitBegun (i unit units start now : Nat) (s : State) :
    Fits (Sparing [.inForce, .grp, .reg (F.CIP_SA_VOID_count i).key]) s (unitBegun i unit units start now s) := by
  refine Fits.modAssoc _ _ _ (fits_saBoundary_of _ _ _ _ (.refl _ s) ?_ ?_ ?_ fun _ _ _ h => fits_kxStart_spared _ _ h) (by simp [Sparing])
  all_goals repeat' first | with_reducible intro _ | with_reducible constructor
  all_goals simp [Sparing]
  all_goals omega

theorem unitBegun_inForce (i unit units start now : Nat) (s : State) : (unitBegun i unit units start now s).inForce = s.inForce :=
  (fits_unitBegun i unit units start now s).inForce_spared (by simp)

theorem unitBegun_grp (i unit units start now : Nat) (s : State) : (unitBegun i unit units start now s).grp = s.grp :=
  (fits_unitBegun i unit units start now s).within .grp (by simp [Sparing])

/-- Whether a unit carries nothing (R392), lost to its shadow check or shed. -/
def unitLost (mism : Option (Fin 8 × Bool)) (i : Nat) (s : State) : Bool := !agreed mism || saShed s i

theorem unitLost_eq (mism : Option (Fin 8 × Bool)) (i : Nat) (s : State) :
    ((unitShadow mism s).1 || saShed (unitShadow mism s).2 i) = unitLost mism i s := by
  rw [unitShadow_lost, (sameUnit_unitShadow mism s).saShed_eq, unitLost]

theorem unitLost_unitChecked (mism mism' : Option (Fin 8 × Bool)) (i : Nat) (s : State) :
    unitLost mism i (unitChecked mism' i s) = unitLost mism i s := by
  rw [unitLost, (sameUnit_unitChecked mism' s).saShed_eq, unitLost]

/-! ## The unit sent (R384, R392) -/

/-- The unit of association `i` as it is sent. -/
def unitOut (i : Nat) (v : List Byte × List Byte) (s : State) : State :=
  { s with cip := { s.cip with sent := Tbl.insert s.cip.sent i v } }

/-- R384, R392: the unit is sealed with the key in use, or filled and marked void. -/
def unitSend (i start hdr : Nat) (plain : List Byte) (lost : Bool) (s : State) : State :=
  match saState s i, (assoc s i).cur with
  | 1, some k =>
    if lost then unitOut i (plain.map fun _ => 0, voidTag) s
    else
      let n := (assoc s i).units * saScale s.inForce i + start
      let s := dealChunks ((plain.length + 2047) / 2048) plain.length s
      unitOut i (Config.gcm (k.take 32) (saIv k n) (unitAad s i hdr) plain) s
  | _, _ => unitOut i (plain.map fun _ => 0, voidTag) s

/-- The boundary before a transmitted unit. -/
def txBegun (i period start : Nat) (s : State) : State :=
  let units := txUnits (assoc s i) (txUnit s i period)
  unitBegun i (txUnit s i period) units (startOf s i start) (saBoundary i (txUnit s i period) units (startOf s i start) s).now s

theorem dataTxUnit_eq (i period start hdr : Nat) (plain : List Byte) (mism : Option (Fin 8 × Bool)) (s : State) :
    dataTxUnit i period start hdr plain mism s =
      unitSend i (startOf s i start) hdr plain
        (unitLost mism i (txBegun i period start s))
        (unitChecked mism i (txBegun i period start s)) := by
  rw [← unitLost_eq, ← unitChecked_eq]
  rfl

/-- R384: with a key the unit is sealed. -/
theorem unitSend_of_key {i : Nat} (start hdr : Nat) (plain : List Byte) {mism : Option (Fin 8 × Bool)} {s : State} {k : List Byte}
    (hk : unitKey mism i s = some k) : unitSend i start hdr plain (unitLost mism i s) s =
      unitOut i (Config.gcm (k.take 32) (saIv k ((assoc s i).units * saScale s.inForce i + start : Nat)) (unitAad s i hdr) plain)
        (dealChunks ((plain.length + 2047) / 2048) plain.length s) := by
  obtain ⟨hst, hcur, hlost⟩ := unitKey_eq_some hk
  have hd := sameUnit_dealChunks (i := i) ((plain.length + 2047) / 2048) plain.length s
  rw [unitSend, hst, hcur, unitLost, hlost]
  simp only [Bool.false_eq_true, ↓reduceIte, unitAad_congr hd.sets hd.groups]

/-- R392: without one it is void. -/
theorem unitSend_void {i : Nat} (start hdr : Nat) (plain : List Byte) {mism : Option (Fin 8 × Bool)} {s : State}
    (hk : unitKey mism i s = none) :
    unitSend i start hdr plain (unitLost mism i s) s = unitOut i (plain.map fun _ => 0, voidTag) s := by
  unfold unitSend
  split
  next k hst hcur => rw [unitLost, unitKey_eq_none hk hst hcur, if_pos rfl]
  · rfl

theorem sameUnit_unitOut (v : List Byte × List Byte) (s : State) : SameUnit i s (unitOut i v s) := ⟨rfl, rfl, rfl, rfl, rfl, rfl⟩

theorem unitOut_sent (v : List Byte × List Byte) (s : State) : Tbl.find (unitOut i v s).cip.sent i = some v := Tbl.find_insert_same ..

/-- The unit sent, by the key that the state left behind shows. -/
theorem unitSend_sent (i start hdr : Nat) (plain : List Byte) (mism : Option (Fin 8 × Bool)) (s : State) :
    SameUnit i s (unitSend i start hdr plain (unitLost mism i s) s) ∧
      (∀ k, unitKey mism i s = some k → Tbl.find (unitSend i start hdr plain (unitLost mism i s) s).cip.sent i =
        some (Config.gcm (k.take 32) (saIv k ((assoc s i).units * saScale s.inForce i + start : Nat)) (unitAad s i hdr) plain)) ∧
      (unitKey mism i s = none → Tbl.find (unitSend i start hdr plain (unitLost mism i s) s).cip.sent i =
        some (plain.map fun _ => 0, voidTag)) := by
  cases hk : unitKey mism i s with
  | some k =>
    rw [unitSend_of_key start hdr plain hk]
    refine ⟨(sameUnit_dealChunks _ _ s).trans (sameUnit_unitOut _ _), ?_, nofun⟩
    rintro k' ⟨⟩
    exact unitOut_sent ..
  | none =>
    rw [unitSend_void start hdr plain hk]
    exact ⟨sameUnit_unitOut _ _, nofun, fun _ => unitOut_sent ..⟩

theorem unitPlain_sets (i hdr : Nat) (plain : List Byte) (s : State) :
    (unitPlain i hdr plain s).2.inForce = s.inForce ∧ (unitPlain i hdr plain s).2.grp = s.grp := by
  have h : Fits (Sparing [.inForce, .grp]) s (unitPlain i hdr plain s).2 := by
    refine Fits.unitPlain _ _ _ _ (.refl _ s) ?_
    repeat' first | with_reducible intro _ | with_reducible constructor
    all_goals simp [Sparing]
  exact ⟨h.inForce_spared (by simp), h.within .grp (by simp [Sparing])⟩

/-- What a transmitted unit of association `i` is, sent as the boundary and the shadow check find it. -/
theorem dataTxUnit_sent (i period start hdr : Nat) (plain : List Byte) (mism : Option (Fin 8 × Bool)) (s : State) :
    (∀ k, unitKey mism i (dataTxUnit i period start hdr plain mism s) = some k →
      Tbl.find (dataTxUnit i period start hdr plain mism s).cip.sent i =
        some (Config.gcm (k.take 32) (saIv k ((assoc (dataTxUnit i period start hdr plain mism s) i).units * saScale s.inForce i +
          startOf s i start : Nat)) (unitAad s i hdr) plain)) ∧
      (unitKey mism i (dataTxUnit i period start hdr plain mism s) = none →
        Tbl.find (dataTxUnit i period start hdr plain mism s).cip.sent i = some (plain.map fun _ => 0, voidTag)) := by
  rw [dataTxUnit_eq, ← unitLost_unitChecked mism mism]
  generalize hb : txBegun i period start s = b
  have hc := sameUnit_unitChecked (i := i) mism b
  have hin : (unitChecked mism i b).inForce = s.inForce := by rw [hc.sets, ← hb, txBegun, unitBegun_inForce]
  have hgrp : (unitChecked mism i b).grp = s.grp := by rw [hc.groups, ← hb, txBegun, unitBegun_grp]
  obtain ⟨hsame, hkey, hvoid⟩ := unitSend_sent i (startOf s i start) hdr plain mism (unitChecked mism i b)
  rw [hsame.unitKey_eq, hsame.assoc_eq]
  rw [unitAad_congr hin hgrp, hin] at hkey
  exact ⟨hkey, hvoid⟩

/-! ## The unit received (R386, R392, R393) -/

/-- The boundary before a received unit, where its count does not precede the start of the key. -/
def rxBegun (i unit start : Nat) (s : State) : State :=
  if rxUnits s i unit < 0 then s else unitBegun i unit (rxUnits s i unit).toNat (startOf s i start) s.now s

theorem fits_rxBegun (i unit start : Nat) (s : State) :
    Fits (Sparing [.inForce, .grp, .reg (F.CIP_SA_VOID_count i).key]) s (rxBegun i unit start s) := by
  unfold rxBegun
  split
  · exact .refl _ s
  · exact fits_unitBegun ..

/-- R392: a unit discarded and counted. -/
def unitDrop (i : Nat) (s : State) : State :=
  State.loss (F.CIP_SA_VOID_count i) 1 { s with cip := { s.cip with got := Tbl.erase s.cip.got i } }

/-- The number of a received unit. -/
def rxNumber (i start : Nat) (u : Int) (s : State) : Int :=
  if u < 0 then u * saScale s.inForce i + start else ((assoc s i).units * saScale s.inForce i + start : Nat)

/-- R393: a unit deciphered to `plain`, its tag good or bad, in the demapper's hands. -/
def unitIn (i n : Nat) (plain : List Byte) (bad : Bool) (s : State) : State :=
  let s := dealChunks ((n + 2047) / 2048) n s
  let s := if bad then State.evt 0xC8 0 (State.loss (F.CIP_SA_TAGFAIL_count i) 1 s) else s
  tagMark i bad { s with cip := { s.cip with got := Tbl.insert s.cip.got i (plain, bad) } }

/-- R392, R393: a unit that is not void. -/
def unitTake (i start hdr : Nat) (u : Int) (text tag : List Byte) (replaced lost : Bool) (s : State) : State :=
  match saState s i, (assoc s i).cur with
  | 1, some k =>
    if lost then unitDrop i s
    else
      let n := rxNumber i start u s
      let plain := (Config.gcm (k.take 32) (saIv k n) (unitAad s i hdr) text).1
      unitIn i text.length plain (!replaced && (Config.gcm (k.take 32) (saIv k n) (unitAad s i hdr) plain).2 != tag) s
  | _, _ => unitDrop i s

theorem dataRxUnit_eq (i unit start hdr : Nat) (text tag : List Byte) (replaced : Bool) (mism : Option (Fin 8 × Bool)) (s : State) :
    dataRxUnit i unit start hdr text tag replaced mism s =
      if tag = voidTag then
        unitDrop i (State.evt 0xC8 9 ((unitChecked mism i (rxBegun i unit start s)).setB (F.CIP_SA_ST_void_rx i) true))
      else
        unitTake i (startOf s i start) hdr (rxUnits s i unit) text tag replaced (unitLost mism i (rxBegun i unit start s))
          ((unitChecked mism i (rxBegun i unit start s)).setB (F.CIP_SA_ST_void_rx i) false) := by
  rw [← unitLost_eq, ← unitChecked_eq]
  rfl

theorem sameUnit_setVoid (b : Bool) (s : State) : SameUnit i s (s.setB (F.CIP_SA_ST_void_rx i) b) :=
  .of_fits (Fits.setB _ _ _ (.refl _ s) (by simp [Sparing, unitParts]; omega)) rfl

theorem sameUnit_unitDrop (s : State) : SameUnit i s (unitDrop i s) :=
  SameUnit.trans (t := { s with cip := { s.cip with got := Tbl.erase s.cip.got i } }) ⟨rfl, rfl, rfl, rfl, rfl, rfl⟩
    (sameUnit_loss _ _ (by simp; omega) (by simp; omega) (by simp; omega))

theorem unitDrop_got (i : Nat) (s : State) : Tbl.find (unitDrop i s).cip.got i = none := by
  rw [unitDrop, State.loss_cip]
  exact Tbl.find_erase_same ..

theorem unitDrop_count (i : Nat) (s : State) :
    (unitDrop i s).g (F.CIP_SA_VOID_count i) = min (s.g (F.CIP_SA_VOID_count i) + 1) 0xFFFFFFFF := by
  rw [unitDrop, g_loss_pos _ _ _ Nat.one_ne_zero]
  rfl

theorem unitDrop_g_other (i : Nat) (s : State) {f : Field} (h : f.key ≠ (F.CIP_SA_VOID_count i).key) : (unitDrop i s).g f = s.g f := by
  rw [unitDrop, g_loss_other _ _ _ h]
  rfl

/-- R393: the demapper takes a unit deciphered; the keys and the void indication stay. -/
theorem fits_unitIn (i n : Nat) (plain : List Byte) (bad : Bool) (s : State) :
    Fits (Sparing (.reg (F.CIP_SA_ST_void_rx i).key :: unitParts i)) s (unitIn i n plain bad s) := by
  have hcip : Sparing (.reg (F.CIP_SA_ST_void_rx i).key :: unitParts i) Part.cip := by simp [Sparing, unitParts]
  have hev : Sparing (.reg (F.CIP_SA_ST_void_rx i).key :: unitParts i) Part.ev := by simp [Sparing, unitParts]
  have hd := Fits.dealChunks ((n + 2047) / 2048) n s (.refl _ s) ⟨hcip, by simp [Sparing, unitParts], hev⟩
  have hbad : Fits (Sparing (.reg (F.CIP_SA_ST_void_rx i).key :: unitParts i)) s
      (if bad then State.evt 0xC8 0 (State.loss (F.CIP_SA_TAGFAIL_count i) 1 (dealChunks ((n + 2047) / 2048) n s))
        else dealChunks ((n + 2047) / 2048) n s) := by
    split
    · refine Fits.evt _ _ _ (Fits.loss _ _ _ hd hev (by simp [Sparing, unitParts]; omega)) ?_
      repeat' first | with_reducible intro _ | with_reducible constructor
      all_goals simp [Sparing, unitParts]
      all_goals omega
    · exact hd
  refine Fits.tagMark _ _ _ (Fits.upd_cip hbad hcip _) ?_
  constructor
  simp [Sparing, unitParts]

theorem tagMark_cip (i : Nat) (bad : Bool) (s : State) : (tagMark i bad s).cip = s.cip := by simp [tagMark]

theorem unitIn_sa (i n : Nat) (plain : List Byte) (bad : Bool) (s : State) : (unitIn i n plain bad s).cip.sa = s.cip.sa := by
  simp only [unitIn, tagMark_cip]
  split
  · rw [State.evt_cip, State.loss_cip, dealChunks_sa]
  · exact dealChunks_sa ..

theorem unitIn_got (i n : Nat) (plain : List Byte) (bad : Bool) (s : State) :
    Tbl.find (unitIn i n plain bad s).cip.got i = some (plain, bad) := by
  simp only [unitIn, tagMark_cip]
  exact Tbl.find_insert_same ..

theorem sameUnit_unitIn (n : Nat) (plain : List Byte) (bad : Bool) (s : State) : SameUnit i s (unitIn i n plain bad s) := by
  have h := fits_unitIn i n plain bad s
  exact ⟨h.inForce_spared (by simp [unitParts]), h.within .grp (by simp [Sparing, unitParts]), unitIn_sa ..,
    h.g_spared (by simp [unitParts]), h.g_spared (by simp [unitParts]), h.g_spared (by simp [unitParts])⟩

/-! ## A unit that is not void -/

variable {mism : Option (Fin 8 × Bool)}

/-- The clear bytes of a unit of number `n`. -/
def unitClear (k : List Byte) (n : Int) (aad text : List Byte) : List Byte := (Config.gcm (k.take 32) (saIv k n) aad text).1

/-- Whether the tag of a unit compares wrongly, unless the line replaced the unit. -/
def tagWrong (k : List Byte) (n : Int) (aad plain tag : List Byte) (replaced : Bool) : Bool :=
  !replaced && (Config.gcm (k.take 32) (saIv k n) aad plain).2 != tag

/-- R393: with a key the unit is deciphered. -/
theorem unitTake_of_key (start hdr : Nat) (u : Int) (text tag : List Byte) (replaced : Bool) {k : List Byte}
    (hk : unitKey mism i s = some k) : unitTake i start hdr u text tag replaced (unitLost mism i s) s =
      unitIn i text.length (unitClear k (rxNumber i start u s) (unitAad s i hdr) text)
        (tagWrong k (rxNumber i start u s) (unitAad s i hdr) (unitClear k (rxNumber i start u s) (unitAad s i hdr) text) tag replaced) s := by
  obtain ⟨hst, hcur, hlost⟩ := unitKey_eq_some hk
  rw [unitTake, hst, hcur, unitLost, hlost]
  simp only [Bool.false_eq_true, ↓reduceIte, unitClear, tagWrong]

/-- R392: without one it is discarded. -/
theorem unitTake_void (start hdr : Nat) (u : Int) (text tag : List Byte) (replaced : Bool) (hk : unitKey mism i s = none) :
    unitTake i start hdr u text tag replaced (unitLost mism i s) s = unitDrop i s := by
  unfold unitTake
  split
  next k hst hcur => rw [unitLost, unitKey_eq_none hk hst hcur, if_pos rfl]
  · rfl

theorem unitTake_same (start hdr : Nat) (u : Int) (text tag : List Byte) (replaced : Bool) :
    SameUnit i s (unitTake i start hdr u text tag replaced (unitLost mism i s) s) ∧
      (unitTake i start hdr u text tag replaced (unitLost mism i s) s).on (F.CIP_SA_ST_void_rx i) = s.on (F.CIP_SA_ST_void_rx i) := by
  cases hk : unitKey mism i s with
  | some k =>
    rw [unitTake_of_key _ _ _ _ _ _ hk]
    exact ⟨sameUnit_unitIn .., (fits_unitIn ..).on_spared (by simp)⟩
  | none =>
    rw [unitTake_void _ _ _ _ _ _ hk]
    exact ⟨sameUnit_unitDrop s, by rw [State.on, unitDrop_g_other _ _ (by simp; omega), State.on]⟩

end Unit

/-! ## The void tag -/

theorem voidTag_eq : voidTag = toBe 16 (BitVec.allOnes 128).toNat := by decide

theorem toBe_eq_voidTag (tag : BitVec 128) : toBe 16 tag.toNat = voidTag ↔ tag = BitVec.allOnes 128 := by
  rw [voidTag_eq]
  refine ⟨fun h => BitVec.eq_of_toNat_eq (toLe_injective (n := 16) ?_ ?_ (List.reverse_injective h)), fun h => by rw [h]⟩
  · exact lt_of_lt_of_le tag.isLt (by norm_num)
  · exact lt_of_lt_of_le (BitVec.allOnes 128).isLt (by norm_num)

/-! ## Both commands -/

section Unit

variable {i : Nat} {s : State}

theorem rxChecked_sets (i unit start : Nat) (mism : Option (Fin 8 × Bool)) (s : State) :
    (unitChecked mism i (rxBegun i unit start s)).inForce = s.inForce ∧ (unitChecked mism i (rxBegun i unit start s)).grp = s.grp ∧
      (unitChecked mism i (rxBegun i unit start s)).g (F.CIP_SA_VOID_count i) = s.g (F.CIP_SA_VOID_count i) := by
  have hb := fits_rxBegun i unit start s
  have hs := sameUnit_unitChecked (i := i) mism (rxBegun i unit start s)
  refine ⟨hs.sets.trans (hb.inForce_spared (by simp)), hs.groups.trans (hb.within .grp (by simp [Sparing])), ?_⟩
  rw [g_unitChecked_void, hb.g_spared (by simp)]

/-- R386, R392: a unit received with the void tag. -/
theorem dataRxUnit_void_tag (i unit start hdr : Nat) (text : List Byte) (replaced : Bool) (mism : Option (Fin 8 × Bool)) (s : State) :
    (dataRxUnit i unit start hdr text voidTag replaced mism s).on (F.CIP_SA_ST_void_rx i) = true ∧
      (dataRxUnit i unit start hdr text voidTag replaced mism s).sticky 0xC8 9 ∧
      Tbl.find (dataRxUnit i unit start hdr text voidTag replaced mism s).cip.got i = none ∧
      (dataRxUnit i unit start hdr text voidTag replaced mism s).g (F.CIP_SA_VOID_count i) =
        min (s.g (F.CIP_SA_VOID_count i) + 1) 0xFFFFFFFF := by
  rw [dataRxUnit_eq, if_pos rfl]
  obtain ⟨-, -, hcount⟩ := rxChecked_sets i unit start mism s
  refine ⟨?_, ?_, unitDrop_got .., ?_⟩
  · rw [State.on, unitDrop_g_other _ _ (by simp; omega), g_evt_other _ _ _ (by simp; omega)]
    exact on_setB _ _ _ rfl
  · exact sticky_of_g (sticky_evt _ _ _ (by decide)) (unitDrop_g_other _ _ (by simp; omega))
  · rw [unitDrop_count, g_evt_other _ _ _ (by simp; omega), g_setB_other _ _ (by simp; omega), hcount]

/-- R392, R393: one with another tag, by the key that the state left behind shows. -/
theorem dataRxUnit_tag (i unit start hdr : Nat) (text tag : List Byte) (replaced : Bool) (mism : Option (Fin 8 × Bool)) (s : State)
    (htag : tag ≠ voidTag) :
    (dataRxUnit i unit start hdr text tag replaced mism s).on (F.CIP_SA_ST_void_rx i) = false ∧
      (unitKey mism i (dataRxUnit i unit start hdr text tag replaced mism s) = none →
        Tbl.find (dataRxUnit i unit start hdr text tag replaced mism s).cip.got i = none ∧
          (dataRxUnit i unit start hdr text tag replaced mism s).g (F.CIP_SA_VOID_count i) =
            min (s.g (F.CIP_SA_VOID_count i) + 1) 0xFFFFFFFF) ∧
      ∀ k, unitKey mism i (dataRxUnit i unit start hdr text tag replaced mism s) = some k →
        ∃ n, n = (if rxUnits s i unit < 0 then rxUnits s i unit
            else ((assoc (dataRxUnit i unit start hdr text tag replaced mism s) i).units : Int)) * saScale s.inForce i + startOf s i start ∧
          Tbl.find (dataRxUnit i unit start hdr text tag replaced mism s).cip.got i =
            some (unitClear k n (unitAad s i hdr) text, tagWrong k n (unitAad s i hdr) (unitClear k n (unitAad s i hdr) text) tag replaced) := by
  rw [dataRxUnit_eq, if_neg htag]
  obtain ⟨hin, hgrp, hcount⟩ := rxChecked_sets i unit start mism s
  have hv := sameUnit_setVoid (i := i) false (unitChecked mism i (rxBegun i unit start s))
  have hlost : unitLost mism i (rxBegun i unit start s) =
      unitLost mism i ((unitChecked mism i (rxBegun i unit start s)).setB (F.CIP_SA_ST_void_rx i) false) := by
    rw [← unitLost_unitChecked mism mism, unitLost, unitLost, hv.saShed_eq]
  have hcnt : ((unitChecked mism i (rxBegun i unit start s)).setB (F.CIP_SA_ST_void_rx i) false).g (F.CIP_SA_VOID_count i) =
      s.g (F.CIP_SA_VOID_count i) := by rw [g_setB_other _ _ (by simp; omega), hcount]
  have hoff : ((unitChecked mism i (rxBegun i unit start s)).setB (F.CIP_SA_ST_void_rx i) false).on (F.CIP_SA_ST_void_rx i) = false :=
    on_setB _ _ _ rfl
  rw [hlost]
  replace hin := hv.sets.trans hin
  replace hgrp := hv.groups.trans hgrp
  generalize (unitChecked mism i (rxBegun i unit start s)).setB (F.CIP_SA_ST_void_rx i) false = c at *
  obtain ⟨hsame, hvoid⟩ := unitTake_same (i := i) (s := c) (mism := mism) (startOf s i start) hdr (rxUnits s i unit) text tag replaced
  refine ⟨hvoid.trans hoff, ?_, ?_⟩
  · intro hk
    rw [hsame.unitKey_eq] at hk
    rw [unitTake_void _ _ _ _ _ _ hk]
    exact ⟨unitDrop_got .., by rw [unitDrop_count, hcnt]⟩
  · intro k hk
    rw [hsame.unitKey_eq] at hk
    refine ⟨rxNumber i (startOf s i start) (rxUnits s i unit) c, ?_, ?_⟩
    · rw [hsame.assoc_eq, rxNumber, hin]
      split
      · rfl
      · push_cast
        rfl
    · rw [unitTake_of_key _ _ _ _ _ _ hk, unitIn_got, unitAad_congr hin hgrp]

end Unit

/-- Settles O44: the boundary leaves the sets and the groups that the unit's number and associated data read, and what follows it
leaves the association's key and state. -/
theorem dataUnitsProtected : Obligations.DataUnitsProtected := by
  unfold Obligations.DataUnitsProtected
  refine ⟨?_, ?_⟩
  · intro i period start hdr plain mism s hv ht hp
    refine ⟨_, by rw [exec_dataTxUnit, execDataTxUnit, if_pos (by rw [hv, ht, hp]; rfl)], ?_⟩
    obtain ⟨hin, hgrp⟩ := unitPlain_sets i.val hdr.toNat plain s
    obtain ⟨hkey, hvoid⟩ := dataTxUnit_sent i.val period.toNat start.val hdr.toNat (unitPlain i.val hdr.toNat plain s).1 mism
      (unitPlain i.val hdr.toNat plain s).2
    rw [unitAad_congr hin hgrp, startOf, hin] at hkey
    split
    next k hk => exact hkey k hk
    next hk => exact hvoid hk
  · intro i unit start hdr text tag replaced mism s hv ht hp
    refine ⟨_, by rw [exec_dataRxUnit, execDataRxUnit, if_pos (by rw [hv, ht, hp]; rfl)], ?_⟩
    by_cases htag : tag = BitVec.allOnes 128
    · obtain ⟨hon, hst, hgot, hcount⟩ := dataRxUnit_void_tag i.val unit.toNat start.val hdr.toNat text replaced mism s
      rw [(toBe_eq_voidTag tag).mpr htag]
      exact ⟨fun _ => ⟨hon, hst⟩, fun h => absurd htag h, fun _ => ⟨hgot, hcount⟩, fun _ _ h => absurd htag h⟩
    · obtain ⟨hon, hnone, hsome⟩ := dataRxUnit_tag i.val unit.toNat start.val hdr.toNat text (toBe 16 tag.toNat) replaced mism s
        (mt (toBe_eq_voidTag tag).mp htag)
      refine ⟨fun h => absurd h htag, fun _ => hon, fun h => hnone (h.resolve_left htag), fun k hk _ => ?_⟩
      obtain ⟨n, rfl, hgot⟩ := hsome k hk
      exact hgot

end Sys2Proof.Machine

/-! The frames of package memory and cipher: what each command touches lies in `frame`. -/

namespace Sys2Proof.Machine

theorem fits_bufMemRead (n : Fin 528482304) (source : Fin 6) (ups : List (Fin 36 × Byte)) (s : State) :
    FitsOut (frame (.bufMemRead n source ups)) s (execBufMemRead n source ups s) := by
  with_reducible refine FitsOut.of_all ?_
  intro N h
  with_reducible refine FitsOut.execBufMemRead _ _ _ _ (.refl _ _) ?_
  dsimp only [frame] at h
  delta pageTestRegs poolRegs at h
  simp only [only_lets, frame_facts, frame_split, ne_eq, reduceCtorEq, not_false_eq_true] at h
  casesm* _ ∧ _
  repeat' first
    | with_reducible intro _
    | with_reducible constructor
    | with_reducible assumption
    | simp only [*]

theorem fits_bufMemWrite (n : Fin 528482304) (mask : Word) (data : BitVec 256) (source : Fin 6) (s : State) :
    FitsOut (frame (.bufMemWrite n mask data source)) s (execBufMemWrite n mask data source s) := by
  with_reducible refine FitsOut.of_all ?_
  intro N h
  with_reducible refine FitsOut.execBufMemWrite _ _ _ _ _ (.refl _ _) ?_
  dsimp only [frame] at h
  simp only [only_lets, frame_facts, frame_split, ne_eq, reduceCtorEq, not_false_eq_true] at h
  casesm* _ ∧ _
  repeat' first
    | with_reducible intro _
    | with_reducible constructor
    | with_reducible assumption

theorem fits_scrubRead (ups : List (Fin 36 × Byte)) (late : Bool) (s : State) :
    FitsOut (frame (.scrubRead ups late)) s (execScrubRead ups late s) := by
  with_reducible refine FitsOut.of_all ?_
  intro N h
  with_reducible refine FitsOut.execScrubRead _ _ _ (.refl _ _) ?_
  dsimp only [frame] at h
  delta pageTestRegs poolRegs at h
  simp only [only_lets, frame_facts, frame_split, ne_eq, reduceCtorEq, not_false_eq_true] at h
  casesm* _ ∧ _
  repeat' first
    | with_reducible intro _
    | with_reducible constructor
    | with_reducible assumption
    | simp only [*]

theorem fits_hardClr (m : Master) (s : State) :
    FitsOut (frame (.hardClr m)) s (execHardClr m s) := by
  with_reducible refine FitsOut.of_all ?_
  intro N h
  with_reducible refine FitsOut.execHardClr _ _ (.refl _ _) ?_
  dsimp only [frame] at h
  delta fabricErrorRegs at h
  simp only [only_lets, frame_facts, frame_split, ne_eq, reduceCtorEq, not_false_eq_true] at h
  repeat' first
    | with_reducible intro _
    | with_reducible constructor
    | simp only [h, pageOf, Nat.reduceLT, Nat.reduceDiv, if_true]

theorem fits_injGo (m : Master) (s : State) :
    FitsOut (frame (.injGo m)) s (execInjGo m s) := by
  with_reducible refine FitsOut.of_all ?_
  intro N h
  with_reducible refine FitsOut.execInjGo _ _ (.refl _ _) ?_
  dsimp only [frame] at h
  delta fabricErrorRegs errorRegs at h
  simp only [only_lets, frame_facts, frame_split, ne_eq, reduceCtorEq, not_false_eq_true] at h
  repeat' first
    | with_reducible intro _
    | with_reducible constructor
    | simp only [h, pageOf, Nat.reduceLT, Nat.reduceDiv, if_true]

theorem fits_injDone (s : State) :
    FitsOut (frame .injDone) s (execInjDone s) := by
  with_reducible refine FitsOut.of_all ?_
  intro N h
  with_reducible refine FitsOut.execInjDone _ (.refl _ _) ?_
  dsimp only [frame] at h
  delta pageTestRegs poolRegs at h
  simp only [only_lets, frame_facts, frame_split, ne_eq, reduceCtorEq, not_false_eq_true] at h
  casesm* _ ∧ _
  repeat' first
    | with_reducible intro _
    | with_reducible constructor
    | with_reducible assumption
    | simp only [*]

theorem fits_bufLogPop (m : Master) (s : State) :
    FitsOut (frame (.bufLogPop m)) s (execBufLogPop m s) := by
  with_reducible refine FitsOut.of_all ?_
  intro N h
  with_reducible refine FitsOut.execBufLogPop _ _ (.refl _ _) ?_
  dsimp only [frame] at h
  delta fabricErrorRegs at h
  simp only [only_lets, frame_facts, frame_split, ne_eq, reduceCtorEq, not_false_eq_true] at h
  repeat' first
    | with_reducible intro _
    | with_reducible constructor
    | simp only [h, pageOf, Nat.reduceLT, Nat.reduceDiv, if_true]

theorem fits_retireGo (m : Master) (s : State) :
    FitsOut (frame (.retireGo m)) s (execRetireGo m s) := by
  with_reducible refine FitsOut.of_all ?_
  intro N h
  with_reducible refine FitsOut.execRetireGo _ _ (.refl _ _) ?_
  dsimp only [frame] at h
  delta fabricErrorRegs poolRegs at h
  simp only [only_lets, frame_facts, frame_split, ne_eq, reduceCtorEq, not_false_eq_true] at h
  repeat' first
    | with_reducible intro _
    | with_reducible constructor
    | simp only [h, pageOf, Nat.reduceLT, Nat.reduceDiv, if_true]

theorem fits_restoreGo (m : Master) (s : State) :
    FitsOut (frame (.restoreGo m)) s (execRestoreGo m s) := by
  with_reducible refine FitsOut.of_all ?_
  intro N h
  with_reducible refine FitsOut.execRestoreGo _ _ (.refl _ _) ?_
  dsimp only [frame] at h
  delta fabricErrorRegs poolRegs at h
  simp only [only_lets, frame_facts, frame_split, ne_eq, reduceCtorEq, not_false_eq_true] at h
  repeat' first
    | with_reducible intro _
    | with_reducible constructor
    | simp only [h, pageOf, Nat.reduceLT, Nat.reduceDiv, if_true]

theorem fits_marchTestDone (ok : Bool) (s : State) :
    FitsOut (frame (.marchTestDone ok)) s (execMarchTestDone ok s) := by
  with_reducible refine FitsOut.of_all ?_
  intro N h
  with_reducible refine FitsOut.execMarchTestDone _ _ (.refl _ _) ?_
  dsimp only [frame] at h
  simp only [only_lets, frame_facts, frame_split, ne_eq, reduceCtorEq, not_false_eq_true] at h
  casesm* _ ∧ _
  repeat' first
    | with_reducible intro _
    | with_reducible constructor
    | with_reducible assumption

theorem fits_retireCopyDone (s : State) :
    FitsOut (frame .retireCopyDone) s (execRetireCopyDone s) := by
  with_reducible refine FitsOut.of_all ?_
  intro N h
  with_reducible refine FitsOut.execRetireCopyDone _ (.refl _ _) ?_
  dsimp only [frame] at h
  delta pageTestRegs poolRegs at h
  simp only [only_lets, frame_facts, frame_split, ne_eq, reduceCtorEq, not_false_eq_true] at h
  casesm* _ ∧ _
  repeat' first
    | with_reducible intro _
    | with_reducible constructor
    | with_reducible assumption
    | simp only [*]

theorem fits_retireSwitch (s : State) :
    FitsOut (frame .retireSwitch) s (execRetireSwitch s) := by
  with_reducible refine FitsOut.of_all ?_
  intro N h
  with_reducible refine FitsOut.execRetireSwitch _ (.refl _ _) ?_
  dsimp only [frame] at h
  delta poolRegs at h
  simp only [only_lets, frame_facts, frame_split, ne_eq, reduceCtorEq, not_false_eq_true] at h
  casesm* _ ∧ _
  repeat' first
    | with_reducible intro _
    | with_reducible constructor
    | with_reducible assumption

theorem fits_rowrepGo (m : Master) (s : State) :
    FitsOut (frame (.rowrepGo m)) s (execRowrepGo m s) := by
  with_reducible refine FitsOut.of_all ?_
  intro N h
  with_reducible refine FitsOut.execRowrepGo _ _ (.refl _ _) ?_
  dsimp only [frame] at h
  delta fabricErrorRegs at h
  simp only [only_lets, frame_facts, frame_split, ne_eq, reduceCtorEq, not_false_eq_true] at h
  repeat' first
    | with_reducible intro _
    | with_reducible constructor
    | simp only [h, pageOf, Nat.reduceLT, Nat.reduceDiv, if_true]

theorem fits_rowrepStep (s : State) :
    FitsOut (frame .rowrepStep) s (execRowrepStep s) := by
  with_reducible refine FitsOut.of_all ?_
  intro N h
  with_reducible refine FitsOut.execRowrepStep _ (.refl _ _) ?_
  dsimp only [frame] at h
  simp only [only_lets, frame_facts, frame_split, ne_eq, reduceCtorEq, not_false_eq_true] at h
  casesm* _ ∧ _
  repeat' first
    | with_reducible intro _
    | with_reducible constructor
    | with_reducible assumption

theorem fits_rowrepTestDone (ok : Bool) (s : State) :
    FitsOut (frame (.rowrepTestDone ok)) s (execRowrepTestDone ok s) := by
  with_reducible refine FitsOut.of_all ?_
  intro N h
  with_reducible refine FitsOut.execRowrepTestDone _ _ (.refl _ _) ?_
  dsimp only [frame] at h
  delta poolRegs at h
  simp only [only_lets, frame_facts, frame_split, ne_eq, reduceCtorEq, not_false_eq_true] at h
  casesm* _ ∧ _
  repeat' first
    | with_reducible intro _
    | with_reducible constructor
    | with_reducible assumption

theorem fits_hostWinRead (m : Master) (off : Fin 65536) (s : State) :
    FitsOut (frame (.hostWinRead m off)) s (execHostWinRead m off s) := by
  with_reducible refine FitsOut.of_all ?_
  intro N h
  with_reducible refine FitsOut.execHostWinRead _ _ _ (.refl _ _) ?_
  dsimp only [frame] at h
  delta fabricErrorRegs pageTestRegs poolRegs at h
  simp only [only_lets, frame_facts, frame_split, ne_eq, reduceCtorEq, not_false_eq_true] at h
  casesm* _ ∧ _
  repeat' first
    | with_reducible intro _
    | with_reducible constructor
    | with_reducible assumption
    | simp only [*]

theorem fits_hostWinWrite (m : Master) (off : Fin 65536) (value : Word) (s : State) :
    FitsOut (frame (.hostWinWrite m off value)) s (execHostWinWrite m off value s) := by
  with_reducible refine FitsOut.of_all ?_
  intro N h
  with_reducible refine FitsOut.execHostWinWrite _ _ _ _ (.refl _ _) ?_
  dsimp only [frame] at h
  delta fabricErrorRegs at h
  simp only [only_lets, frame_facts, frame_split, ne_eq, reduceCtorEq, not_false_eq_true] at h
  casesm* _ ∧ _
  repeat' first
    | with_reducible intro _
    | with_reducible constructor
    | with_reducible assumption

theorem fits_dataTxUnit (i : Fin 1024) (period : BitVec 32) (start : Fin 1000) (hdr : BitVec 64) (plain : List Byte)
    (mism : Option (Fin 8 × Bool)) (s : State) :
    FitsOut (frame (.dataTxUnit i period start hdr plain mism)) s (execDataTxUnit i period start hdr plain mism s) := by
  with_reducible refine FitsOut.of_all ?_
  intro N h
  with_reducible refine FitsOut.execDataTxUnit _ _ _ _ _ _ _ (.refl _ _) ?_
  dsimp only [frame] at h
  delta boundaryRegs errorRegs associationRegs exchangeEndRegs at h
  simp only [only_lets, frame_facts, frame_split, ne_eq, reduceCtorEq, not_false_eq_true, engine_pairs] at h
  casesm* _ ∧ _
  repeat' first
    | with_reducible intro _
    | with_reducible constructor
    | with_reducible assumption
    | simp only [*]

theorem fits_dataRxUnit (i : Fin 1024) (unit : BitVec 32) (start : Fin 1000) (hdr : BitVec 64) (text : List Byte)
    (tag : BitVec 128) (replaced : Bool) (mism : Option (Fin 8 × Bool)) (s : State) :
    FitsOut (frame (.dataRxUnit i unit start hdr text tag replaced mism)) s
      (execDataRxUnit i unit start hdr text tag replaced mism s) := by
  with_reducible refine FitsOut.of_all ?_
  intro N h
  with_reducible refine FitsOut.execDataRxUnit _ _ _ _ _ _ _ _ _ (.refl _ _) ?_
  dsimp only [frame] at h
  delta boundaryRegs errorRegs associationRegs exchangeEndRegs at h
  simp only [only_lets, frame_facts, frame_split, ne_eq, reduceCtorEq, not_false_eq_true, engine_pairs] at h
  casesm* _ ∧ _
  repeat' first
    | with_reducible intro _
    | with_reducible constructor
    | with_reducible assumption
    | simp only [*]

theorem fits_keyLoad (id : BitVec 16) (words : List Word) (s : State) :
    FitsOut (frame (.keyLoad id words)) s (execKeyLoad id words s) := by
  with_reducible refine FitsOut.of_all ?_
  intro N h
  with_reducible refine FitsOut.execKeyLoad _ _ _ (.refl _ _) ?_
  dsimp only [frame] at h
  delta fabricErrorRegs associationRegs replyRegs at h
  simp only [only_lets, frame_facts, frame_split, ne_eq, reduceCtorEq, not_false_eq_true] at h
  casesm* _ ∧ _
  repeat' first
    | with_reducible intro _
    | with_reducible constructor
    | with_reducible assumption
    | simp only [*]

theorem fits_keyErase (id : BitVec 16) (words : List Word) (s : State) :
    FitsOut (frame (.keyErase id words)) s (execKeyErase id words s) := by
  with_reducible refine FitsOut.of_all ?_
  intro N h
  with_reducible refine FitsOut.execKeyErase _ _ _ (.refl _ _) ?_
  dsimp only [frame] at h
  delta fabricErrorRegs replyRegs at h
  simp only [only_lets, frame_facts, frame_split, ne_eq, reduceCtorEq, not_false_eq_true] at h
  casesm* _ ∧ _
  repeat' first
    | with_reducible intro _
    | with_reducible constructor
    | with_reducible assumption

theorem fits_keyActivate (id : BitVec 16) (words : List Word) (s : State) :
    FitsOut (frame (.keyActivate id words)) s (execKeyActivate id words s) := by
  with_reducible refine FitsOut.of_all ?_
  intro N h
  with_reducible refine FitsOut.execKeyActivate _ _ _ (.refl _ _) ?_
  dsimp only [frame] at h
  delta fabricErrorRegs associationRegs replyRegs at h
  simp only [only_lets, frame_facts, frame_split, ne_eq, reduceCtorEq, not_false_eq_true] at h
  casesm* _ ∧ _
  repeat' first
    | with_reducible intro _
    | with_reducible constructor
    | with_reducible assumption
    | simp only [*]

theorem fits_kxStart (m : Master) (tx rx : Fin 1024) (s : State) :
    FitsOut (frame (.kxStart m tx rx)) s (execKxStart m tx rx s) := by
  with_reducible refine FitsOut.of_all ?_
  intro N h
  with_reducible refine FitsOut.execKxStart _ _ _ _ (.refl _ _) ?_
  dsimp only [frame] at h
  delta fabricErrorRegs errorRegs at h
  simp only [only_lets, frame_facts, frame_split, ne_eq, reduceCtorEq, not_false_eq_true, 
      engine_pairs] at h
  repeat' first
    | with_reducible intro _
    | with_reducible constructor
    | simp only [h, pageOf, Nat.reduceLT, Nat.reduceDiv, if_true]

theorem fits_kxCert (le : Fin 2) (body : List Byte) (s : State) :
    FitsOut (frame (.kxCert le body)) s (execKxCert le body s) :=  FitsOut.execKxCert le body s (.refl _ _) (.head _)

theorem fits_kxInit (le : Fin 2) (body : List Byte) (s : State) :
    FitsOut (frame (.kxInit le body)) s (execKxInit le body s) := by
  with_reducible refine FitsOut.of_all ?_
  intro N h
  with_reducible refine FitsOut.execKxInit _ _ _ (.refl _ _) ?_
  dsimp only [frame] at h
  delta exchangeEndRegs at h
  simp only [only_lets, frame_facts, frame_split, ne_eq, reduceCtorEq, not_false_eq_true, engine_pairs] at h
  casesm* _ ∧ _
  repeat' first
    | with_reducible intro _
    | with_reducible constructor
    | with_reducible assumption
    | simp only [*]

theorem fits_kxResp (le : Fin 2) (body : List Byte) (s : State) :
    FitsOut (frame (.kxResp le body)) s (execKxResp le body s) := by
  with_reducible refine FitsOut.of_all ?_
  intro N h
  with_reducible refine FitsOut.execKxResp _ _ _ (.refl _ _) ?_
  dsimp only [frame] at h
  delta associationRegs at h
  simp only [only_lets, frame_facts, frame_split, ne_eq, reduceCtorEq, not_false_eq_true, engine_pairs] at h
  casesm* _ ∧ _
  repeat' first
    | with_reducible intro _
    | with_reducible constructor
    | with_reducible assumption
    | simp only [*]

theorem fits_kxConfirm (le : Fin 2) (body : List Byte) (s : State) :
    FitsOut (frame (.kxConfirm le body)) s (execKxConfirm le body s) := by
  with_reducible refine FitsOut.of_all ?_
  intro N h
  with_reducible refine FitsOut.execKxConfirm _ _ _ (.refl _ _) ?_
  dsimp only [frame] at h
  delta associationRegs exchangeEndRegs at h
  simp only [only_lets, frame_facts, frame_split, ne_eq, reduceCtorEq, not_false_eq_true, engine_pairs] at h
  casesm* _ ∧ _
  repeat' first
    | with_reducible intro _
    | with_reducible constructor
    | with_reducible assumption
    | simp only [*]

theorem fits_kxAck (le : Fin 2) (body : List Byte) (s : State) :
    FitsOut (frame (.kxAck le body)) s (execKxAck le body s) := by
  with_reducible refine FitsOut.of_all ?_
  intro N h
  with_reducible refine FitsOut.execKxAck _ _ _ (.refl _ _) ?_
  dsimp only [frame] at h
  delta associationRegs exchangeEndRegs at h
  simp only [only_lets, frame_facts, frame_split, ne_eq, reduceCtorEq, not_false_eq_true, engine_pairs] at h
  casesm* _ ∧ _
  repeat' first
    | with_reducible intro _
    | with_reducible constructor
    | with_reducible assumption
    | simp only [*]

theorem fits_kxSwitch (le : Fin 2) (body : List Byte) (s : State) :
    FitsOut (frame (.kxSwitch le body)) s (execKxSwitch le body s) := by
  with_reducible refine FitsOut.of_all ?_
  intro N h
  with_reducible refine FitsOut.execKxSwitch _ _ _ (.refl _ _) ?_
  dsimp only [frame] at h
  delta associationRegs at h
  simp only [only_lets, frame_facts, frame_split, ne_eq, reduceCtorEq, not_false_eq_true] at h
  casesm* _ ∧ _
  repeat' first
    | with_reducible intro _
    | with_reducible constructor
    | with_reducible assumption
    | simp only [*]

theorem fits_kxAbort (le : Fin 2) (body : List Byte) (s : State) :
    FitsOut (frame (.kxAbort le body)) s (execKxAbort le body s) := by
  with_reducible refine FitsOut.of_all ?_
  intro N h
  with_reducible refine FitsOut.execKxAbort _ _ _ (.refl _ _) ?_
  dsimp only [frame] at h
  delta exchangeEndRegs at h
  simp only [only_lets, frame_facts, frame_split, ne_eq, reduceCtorEq, not_false_eq_true] at h
  casesm* _ ∧ _
  repeat' first
    | with_reducible intro _
    | with_reducible constructor
    | with_reducible assumption
    | simp only [*]

theorem fits_kxRepeat (j : Fin 16) (s : State) :
    FitsOut (frame (.kxRepeat j)) s (execKxRepeat j s) := by
  with_reducible refine FitsOut.of_all ?_
  intro N h
  with_reducible refine FitsOut.execKxRepeat _ _ (.refl _ _) ?_
  dsimp only [frame] at h
  simp only [only_lets, frame_facts, frame_split, ne_eq, reduceCtorEq, not_false_eq_true, engine_pairs] at h
  casesm* _ ∧ _
  repeat' first
    | with_reducible intro _
    | with_reducible constructor
    | with_reducible assumption
    | simp only [*]

theorem fits_kxTimeout (j : Fin 16) (s : State) :
    FitsOut (frame (.kxTimeout j)) s (execKxTimeout j s) := by
  with_reducible refine FitsOut.of_all ?_
  intro N h
  with_reducible refine FitsOut.execKxTimeout _ _ (.refl _ _) ?_
  dsimp only [frame] at h
  delta exchangeEndRegs at h
  simp only [only_lets, frame_facts, frame_split, ne_eq, reduceCtorEq, not_false_eq_true] at h
  casesm* _ ∧ _
  repeat' first
    | with_reducible intro _
    | with_reducible constructor
    | with_reducible assumption

theorem fits_coreTestStart (c : Fin 8) (chunks : Nat) (s : State) :
    FitsOut (frame (.coreTestStart c chunks)) s (execCoreTestStart c chunks s) := by
  with_reducible refine FitsOut.of_all ?_
  intro N h
  with_reducible refine FitsOut.execCoreTestStart _ _ _ (.refl _ _) ?_
  dsimp only [frame] at h
  delta cipherLoadRegs at h
  simp only [only_lets, frame_facts, frame_split, ne_eq, reduceCtorEq, not_false_eq_true] at h
  casesm* _ ∧ _
  repeat' first
    | with_reducible intro _
    | with_reducible constructor
    | with_reducible assumption

theorem fits_coreTestDone (c : Fin 8) (ok : Bool) (s : State) :
    FitsOut (frame (.coreTestDone c ok)) s (execCoreTestDone c ok s) := by
  with_reducible refine FitsOut.of_all ?_
  intro N h
  with_reducible refine FitsOut.execCoreTestDone _ _ _ (.refl _ _) ?_
  dsimp only [frame] at h
  delta cipherLoadRegs at h
  simp only [only_lets, frame_facts, frame_split, ne_eq, reduceCtorEq, not_false_eq_true] at h
  casesm* _ ∧ _
  repeat' first
    | with_reducible intro _
    | with_reducible constructor
    | with_reducible assumption

end Sys2Proof.Machine

/-! The Ubholt link (R432, R433, R439): frames that come back, what the link keeps, and what an engine's stop leaves of it. -/

namespace Sys2Proof.Machine

/-! ## Frames (R432) -/

theorem crcBitsR_lt (k r : Nat) (h : r < 2 ^ 32) : crcBitsR 0x82F63B78 k r < 2 ^ 32 := by
  induction k generalizing r with
  | zero => exact h
  | succ k ih =>
    refine ih _ ?_
    split
    · exact Nat.xor_lt_two_pow (by omega) (by decide)
    · omega

theorem crc32c_lt (b : List Byte) : crc32c b < 2 ^ 32 := by
  refine Nat.xor_lt_two_pow ?_ (by decide)
  have hstep (l : List Byte) (r : Nat) (h : r < 2 ^ 32) : l.foldl (fun r x => crcBitsR 0x82F63B78 8 (r ^^^ x.toNat)) r < 2 ^ 32 := by
    induction l generalizing r with
    | nil => exact h
    | cons x l ih => exact ih _ (crcBitsR_lt _ _ (Nat.xor_lt_two_pow h (lt_of_lt_of_le x.isLt (by decide))))
  exact hstep b _ (by decide)

/-- The bytes of an unauthenticated frame. -/
theorem ubhFrame_eq (type seq : Nat) (p : List Byte) : ubhFrame type seq none p [] =
    0x5A :: (BitVec.ofNat 8 type :: BitVec.ofNat 8 seq :: BitVec.ofNat 8 p.length :: p ++
      toLe 4 (crc32c (BitVec.ofNat 8 type :: BitVec.ofNat 8 seq :: BitVec.ofNat 8 p.length :: p))) := by simp [ubhFrame]

/-- R433: a response to a command outside a session is taken. -/
theorem ubhTake_response (le : Nat) {c : UbhCmd} {p : List Byte} (s : State) (hp : p.length ≤ 232) (hauth : c.auth = false)
    (hseq : c.seq < 256) (hcode : c.code < 64) : ubhTake le c (ubhFrame (128 + c.code) c.seq none p []) s = (some p, s) := by
  rw [ubhFrame_eq]
  generalize hb : (BitVec.ofNat 8 (128 + c.code) :: BitVec.ofNat 8 c.seq :: BitVec.ofNat 8 p.length :: p : List Byte) = body
  have hlen : body.length = p.length + 3 := by rw [← hb]; rfl
  have hn : (0x5A :: (body ++ toLe 4 (crc32c body)) : List Byte).length = 8 + p.length := by simp [hlen]; omega
  have hcrc : leNat (0x5A :: (body ++ toLe 4 (crc32c body))) (4 + p.length) 4 = crc32c body := by
    rw [show 4 + p.length = (p.length + 3) + 1 by omega, leNat_cons_succ, leNat_append_right _ _ (by omega), hlen, Nat.sub_self,
      leNat_toLe]
    exact Nat.mod_eq_of_lt (crc32c_lt body)
  have hbody : ((0x5A :: (body ++ toLe 4 (crc32c body)) : List Byte).drop 1).take (8 + p.length - 5) = body := by
    rw [List.drop_succ_cons, List.drop_zero, List.take_append_of_le_length (by omega), List.take_of_length_le (by omega)]
  have h1 : byteAt (0x5A :: (body ++ toLe 4 (crc32c body))) 1 = 128 + c.code := by
    rw [← hb]
    exact Nat.mod_eq_of_lt (by omega)
  have h2 : byteAt (0x5A :: (body ++ toLe 4 (crc32c body))) 2 = c.seq := by
    rw [← hb]
    exact Nat.mod_eq_of_lt hseq
  have h3 : byteAt (0x5A :: (body ++ toLe 4 (crc32c body))) 3 = p.length := by
    rw [← hb]
    exact Nat.mod_eq_of_lt (by omega)
  have hpay : ((0x5A :: (body ++ toLe 4 (crc32c body)) : List Byte).drop 4).take p.length = p := by
    rw [← hb]
    exact List.take_left
  have hans : answers c (0x5A :: (body ++ toLe 4 (crc32c body))) = true := by rw [answers, h1, h2, hauth]; simp
  rw [ubhTake, hn]
  dsimp only
  rw [if_neg (by simp), if_neg, h3, if_neg, hauth, if_neg Bool.false_ne_true, if_pos (by omega), hpay]
  · rw [hans]
    simp
    omega
  · rw [show 8 + p.length - 4 = 4 + p.length by omega, hcrc, hbody, show byteAt (0x5A :: (body ++ toLe 4 (crc32c body))) 0 = 0x5A from rfl]
    simp

/-! ## What the link keeps -/

@[simp] theorem ubh_modUbh_same (le : Nat) (f : Ubh → Ubh) (s : State) : ubh (modUbh le f s) le = f (ubh s le) := by
  simp [ubh, modUbh]

theorem ubh_of_eng {s t : State} (le : Nat) (h : t.eng le = s.eng le) : ubh t le = ubh s le := by rw [ubh, h, ubh]

@[simp] theorem ubh_setF (s : State) (f : Field) (v le : Nat) : ubh (s.setF f v) le = ubh s le := rfl
@[simp] theorem ubh_setB (s : State) (f : Field) (b : Bool) (le : Nat) : ubh (s.setB f b) le = ubh s le := rfl
@[simp] theorem ubh_bump (s : State) (f : Field) (n le : Nat) : ubh (s.bump f n) le = ubh s le := rfl
@[simp] theorem ubh_evt (p b : Nat) (s : State) (le : Nat) : ubh (State.evt p b s) le = ubh s le := ubh_of_eng le (by simp)

@[simp] theorem modUbh_fields (le : Nat) (f : Ubh → Ubh) (s : State) : (modUbh le f s).fields = s.fields := by simp [modUbh]

theorem g_modUbh (le : Nat) (k : Ubh → Ubh) (s : State) (f : Field) : (modUbh le k s).g f = s.g f := g_of_fields (modUbh_fields ..) f
theorem on_modUbh (le : Nat) (k : Ubh → Ubh) (s : State) (f : Field) : (modUbh le k s).on f = s.on f := on_of_fields (modUbh_fields ..) f

/-- What a link keeps beside the command outstanding, the queue, the counters of frames and the times of its polls. -/
def linkCore (u : Ubh) : Ubh := { u with out := none, queue := [], seq := 0, ctrTx := 0, issued := [] }

/-- Between `s` and `t` engine `le`'s link has sent and received, and no register has changed. -/
structure LinkSame (le : Nat) (s t : State) : Prop where
  fields : t.fields = s.fields
  core : linkCore (ubh t le) = linkCore (ubh s le)

section Same

variable {le : Nat} {s t u : State}

theorem LinkSame.trans (h : LinkSame le s t) (h' : LinkSame le t u) : LinkSame le s u :=
  ⟨h'.fields.trans h.fields, h'.core.trans h.core⟩

theorem LinkSame.g (h : LinkSame le s t) (f : Field) : t.g f = s.g f := g_of_fields h.fields f
theorem LinkSame.on (h : LinkSame le s t) (f : Field) : t.on f = s.on f := on_of_fields h.fields f
theorem LinkSame.sticky (h : LinkSame le s t) {p b : Nat} (hb : s.sticky p b) : t.sticky p b := sticky_of_fields hb h.fields
theorem LinkSame.linkOf (h : LinkSame le s t) : linkOf t le = linkOf s le := h.g _
theorem LinkSame.ubhId (h : LinkSame le s t) : ubhId t le = ubhId s le := by simp only [Machine.ubhId, h.g]
theorem LinkSame.session (h : LinkSame le s t) : (ubh t le).session = (ubh s le).session := by
  have h' := congrArg Ubh.session h.core
  exact h'
theorem LinkSame.chain (h : LinkSame le s t) : (ubh t le).chain = (ubh s le).chain := by
  have h' := congrArg Ubh.chain h.core
  exact h'
theorem LinkSame.fault (h : LinkSame le s t) : (ubh t le).fault = (ubh s le).fault := by
  have h' := congrArg Ubh.fault h.core
  exact h'
theorem LinkSame.alertDue (h : LinkSame le s t) : (ubh t le).alertDue = (ubh s le).alertDue := by
  have h' := congrArg Ubh.alertDue h.core
  exact h'
theorem LinkSame.mirrored (h : LinkSame le s t) : (ubh t le).mirrored = (ubh s le).mirrored := by
  have h' := congrArg Ubh.mirrored h.core
  exact h'
theorem LinkSame.life (h : LinkSame le s t) : (ubh t le).life = (ubh s le).life := by
  have h' := congrArg Ubh.life h.core
  exact h'

theorem linkSame_modUbh {f : Ubh → Ubh} (s : State) (h : linkCore (f (ubh s le)) = linkCore (ubh s le)) : LinkSame le s (modUbh le f s) :=
  ⟨modUbh_fields .., by rw [ubh_modUbh_same, h]⟩

theorem linkSame_ubhCmd (code : Nat) (args : List Byte) (s : State) : LinkSame le s (ubhCmd le code args s).2 := by
  unfold ubhCmd
  dsimp only
  split
  · dsimp only
    exact linkSame_modUbh s (by rfl)
  · dsimp only
    exact linkSame_modUbh s (by rfl)

theorem linkSame_ubhNext (s : State) : LinkSame le s (ubhNext le s) := by
  unfold ubhNext
  split
  next code args _ _ _ _ => exact (linkSame_ubhCmd code args s).trans (linkSame_modUbh _ (by rfl))
  · exact ⟨rfl, rfl⟩

/-! ## What an engine's changes leave of its link -/

/-- Everything but what engine `le`'s link keeps, its registers and its events. -/
def AwayFromLink (le : Nat) : Part → Prop
  | .reg k => k ≠ (F.EVT_STICKY (0xD8 + le)).key ∧ (k < ((0xD8 + le) * 0x1000 + 0x40) * 8 ∨ ((0xD8 + le) * 0x1000 + 0x1000) * 8 ≤ k)
  | .ubh _ => False
  | _ => True

/-- A register of engine `le`'s link (page 0xD8 or 0xD9), behind the page header. -/
def LinkReg (le : Nat) (f : Field) : Prop := ((0xD8 + le) * 0x1000 + 0x40) * 8 ≤ f.key ∧ f.key < ((0xD8 + le) * 0x1000 + 0x1000) * 8

/-- What the link holds is a part of the state. -/
theorem ubh_of_fits {N : Part → Prop} (h : Fits N s t) (hN : ¬ N (.ubh (decide (le ≠ 0)))) : ubh t le = ubh s le := by
  have heng : (engOf t (decide (le ≠ 0))).ubh = (engOf s (decide (le ≠ 0))).ubh := h.within _ hN
  unfold ubh State.eng
  unfold engOf at heng
  by_cases hle : le = 0
  · simpa [hle] using heng
  · simpa [hle] using heng

theorem ubh_of_away (h : Fits (AwayFromLink le) s t) : ubh t le = ubh s le := ubh_of_fits h id

theorem Fits.away_g (h : Fits (AwayFromLink le) s t) {f : Field} (hf : LinkReg le f) : t.g f = s.g f :=
  h.g fun hN => by
    obtain ⟨-, hN⟩ := hN
    obtain ⟨h1, h2⟩ := hf
    omega

theorem Fits.away_sticky (h : Fits (AwayFromLink le) s t) {b : Nat} (hb : s.sticky (0xD8 + le) b) : t.sticky (0xD8 + le) b :=
  sticky_of_g hb (h.g fun hN => hN.1 rfl)

section Away

variable (hle : le < 2)
include hle

theorem txEval_away : Touches.txEval (AwayFromLink le) le := by
  repeat' first | with_reducible intro _ | with_reducible constructor
  all_goals simp [AwayFromLink]
  all_goals omega

theorem losEval_away : Touches.losEval (AwayFromLink le) le := by
  repeat' first | with_reducible intro _ | with_reducible constructor
  all_goals simp [AwayFromLink, lep]
  all_goals omega

end Away

/-- What an engine's changes keep of its link: what it holds, its registers and its events. -/
structure LinkKept (le : Nat) (s t : State) : Prop where
  held : ubh t le = ubh s le
  g : ∀ {f}, LinkReg le f → t.g f = s.g f
  sticky : ∀ {b}, b < 32 → s.sticky (0xD8 + le) b → t.sticky (0xD8 + le) b

theorem LinkKept.on (h : LinkKept le s t) {f : Field} (hf : LinkReg le f) : t.on f = s.on f := by rw [State.on, h.g hf, State.on]

theorem LinkKept.trans (h : LinkKept le s t) (h' : LinkKept le t u) : LinkKept le s u :=
  ⟨h'.held.trans h.held, fun hf => (h'.g hf).trans (h.g hf), fun hb hs => h'.sticky hb (h.sticky hb hs)⟩

theorem linkKept_of_away (h : Fits (AwayFromLink le) s t) : LinkKept le s t := ⟨ubh_of_away h, h.away_g, fun _ hs => h.away_sticky hs⟩

theorem linkKept_refl (s : State) : LinkKept le s s := ⟨rfl, fun _ => rfl, fun _ h => h⟩

/-- An event of any page leaves the link's registers and its events. -/
theorem linkKept_evt (p b : Nat) (s : State) : LinkKept le s (State.evt p b s) := by
  refine ⟨ubh_evt .., fun hf => g_evt_other _ _ _ ?_, fun hb hs => sticky_evt_of _ _ hb hs⟩
  obtain ⟨h1, h2⟩ := hf
  rw [F.EVT_STICKY_key]
  omega

section Stop

variable (hle : le < 2)
include hle

theorem linkKept_commitCancel (s : State) : LinkKept le s (commitCancel (lep le 0x10) s) := by
  unfold commitCancel
  split
  · refine LinkKept.trans (linkKept_of_away ?_) (linkKept_evt ..)
    refine Fits.setF _ _ _ (Fits.setB _ _ _ (Fits.setB _ _ _ (Fits.setB _ _ _ (.refl _ s) ?_) ?_) ?_) ?_
    all_goals simp [AwayFromLink, lep]
    all_goals omega
  · exact linkKept_refl s

/-- What an engine that goes to STOPPING does before and after it cancels a timed change. -/
structure Touches.stopAsides (N : Part → Prop) (le : Nat) : Prop where
  k_run : N (.reg (F.LE_ROLE_STAT_run_state le).key)
  k_reload : N (.reg (F.LE_TX_PLAN_STAT_reload_busy le).key)
  k_timed : N (.reg (F.LE_TX_PLAN_STAT_timed_pending le).key)
  c_txReport : Touches.txReport N le
  c_txEval : Touches.txEval N le
  c_rxGo : Touches.rxGo N le
  c_leafIdle : Touches.leafIdle N le

theorem stopAsides_away : Touches.stopAsides (AwayFromLink le) le := by
  repeat' first | with_reducible intro _ | with_reducible constructor
  all_goals simp [AwayFromLink, lep]
  all_goals omega

theorem linkKept_engineStopping (s : State) : LinkKept le s (engineStopping le s) := by
  have tch := stopAsides_away hle
  have hdark (u : State) : LinkKept le u (txReport le (txEval le u)) :=
    linkKept_of_away (.txReport _ _ (.txEval _ _ (.refl _ u) tch.c_txEval) tch.c_txReport)
  have hfirst (u : State) : Fits (AwayFromLink le) u ((leafIdle le (rxGo le 0 (u.setF (F.LE_ROLE_STAT_run_state le) 3))).setB
      (F.LE_TX_PLAN_STAT_reload_busy le) false) :=
    .setB _ _ _ (.leafIdle _ _ (.rxGo _ _ _ (.setF _ _ _ (.refl _ u) tch.k_run) tch.c_rxGo) tch.c_leafIdle) tch.k_reload
  unfold engineStopping
  split
  · refine LinkKept.trans ?_ (hdark _)
    split
    · exact (linkKept_of_away (.setB _ _ _ (hfirst s) tch.k_timed)).trans (linkKept_commitCancel hle _)
    · exact linkKept_of_away (hfirst s)
  · exact linkKept_refl s

theorem linkKept_err (step code : Nat) (s : State) : LinkKept le s (State.err (lep le 0x10) step code s) := by
  refine linkKept_of_away (Fits.err _ _ _ _ _ (.refl _ s) ?_)
  repeat' first | with_reducible intro _ | with_reducible constructor
  all_goals simp [AwayFromLink, lep]
  all_goals omega

end Stop

/-! ## Transmit enable, the end of a link and its identity (R437, R439, R441) -/

theorem sticky_setLinkReg {p b v : Nat} {f : Field} (hf : LinkReg le f) (h : s.sticky p b) : (s.setF f v).sticky p b := by
  refine sticky_setF v ?_ h
  obtain ⟨h1, h2⟩ := hf
  rw [F.EVT_STICKY_key]
  omega

section Enable

variable (hle : le < 2)
include hle

/-- The transmitter is enabled or disabled: what else the link keeps. -/
theorem setTx_kept (b : Bool) (s : State) : (setTx le b s).on (F.UBH_STAT_tx_enabled le) = b ∧ ubh (setTx le b s) le = ubh s le ∧
    (∀ f, LinkReg le f → f.key ≠ (F.UBH_STAT_tx_enabled le).key → (setTx le b s).g f = s.g f) ∧
    (∀ c, c < 32 → s.sticky (0xD8 + le) c → (setTx le b s).sticky (0xD8 + le) c) := by
  have hreg : LinkReg le (F.UBH_STAT_tx_enabled le) := by simp [LinkReg]; omega
  have heval (u : State) : LinkKept le u (txEval le u) := linkKept_of_away (.txEval _ _ (.refl _ u) (txEval_away hle))
  unfold setTx
  split
  next h => exact ⟨h, rfl, fun _ _ _ => rfl, fun _ _ h => h⟩
  · have hk := (heval (s.setB (F.UBH_STAT_tx_enabled le) b)).trans (linkKept_evt (0xD8 + le) 3 _)
    refine ⟨(hk.on hreg).trans (on_setB _ _ _ rfl), hk.held, fun f hf hne => (hk.g hf).trans (g_setB_other _ _ hne),
      fun c hc hs => hk.sticky hc (sticky_setLinkReg hreg hs)⟩

omit hle in
theorem setTx_changed {b : Bool} (s : State) (h : s.on (F.UBH_STAT_tx_enabled le) ≠ b) : (setTx le b s).sticky (0xD8 + le) 3 := by
  rw [setTx, if_neg h]
  exact sticky_evt _ _ _ (by decide)

omit hle in
/-- A link without a session, before its transmitter is disabled. -/
theorem linkClear_eq (link : Nat) (s : State) : ∃ k : Ubh → Ubh, (∀ u, (k u).session = none ∧ (k u).out = none) ∧
    linkClear le link s = setTx le false ((((modUbh le k s).setF (F.UBH_STAT_link le) link).setF (F.UBH_STAT_auth le) 0).setB
      (F.UBH_STAT_tx_ready le) false) := ⟨_, fun _ => ⟨rfl, rfl⟩, rfl⟩

/-- R439: what a link that loses its session holds and shows. -/
theorem linkClear_clears {link : Nat} (s : State) (hlink : link < 8) : linkOf (linkClear le link s) le = link ∧
    (linkClear le link s).on (F.UBH_STAT_tx_enabled le) = false ∧ (ubh (linkClear le link s) le).session = none ∧
    (ubh (linkClear le link s) le).out = none ∧
    ∀ f, LinkReg le f → f.key ≠ (F.UBH_STAT_tx_enabled le).key → f.key ≠ (F.UBH_STAT_tx_ready le).key → f.key ≠ (F.UBH_STAT_auth le).key →
      f.key ≠ (F.UBH_STAT_link le).key → (linkClear le link s).g f = s.g f := by
  obtain ⟨k, hk, heq⟩ := linkClear_eq (le := le) link s
  obtain ⟨hon, hubh, hg, -⟩ := setTx_kept hle false
    ((((modUbh le k s).setF (F.UBH_STAT_link le) link).setF (F.UBH_STAT_auth le) 0).setB (F.UBH_STAT_tx_ready le) false)
  rw [ubh_setB, ubh_setF, ubh_setF, ubh_modUbh_same] at hubh
  rw [heq]
  refine ⟨?_, hon, by rw [hubh]; exact (hk _).1, by rw [hubh]; exact (hk _).2, fun f hf h1 h2 h3 h4 => ?_⟩
  · rw [linkOf, hg _ (by simp [LinkReg]; omega) (by simp), g_setB_other _ _ (by simp), g_setF_other _ _ (by simp), g_setF_same]
    exact Nat.mod_eq_of_lt hlink
  · rw [hg _ hf h1, g_setB_other _ _ h2, g_setF_other _ _ h3, g_setF_other _ _ h4, g_modUbh]

omit hle in
/-- R447: a passthrough under way ends; only its own registers change. -/
theorem ptEnd_kept (st : Nat) (s : State) : ubh (ptEnd le st s) le = ubh s le ∧
    ∀ f, f.key ≠ (F.UBH_PT_STAT_busy le).key → f.key ≠ (F.UBH_PT_STAT_status le).key → (ptEnd le st s).g f = s.g f := by
  unfold ptEnd
  split
  · exact ⟨rfl, fun f h1 h2 => by rw [g_setF_other _ _ h2, g_setB_other _ _ h1]⟩
  · exact ⟨rfl, fun _ _ _ => rfl⟩

/-- R439: a link that was up is lost. -/
theorem linkLost_loses {s : State} (h : linkOf s le = 1 ∨ linkOf s le = 2 ∨ linkOf s le = 3) : linkOf (linkLost le s) le = 0 ∧
    (ubh (linkLost le s) le).out = none ∧ (linkLost le s).sticky (0xD8 + le) 1 ∧
    (linkLost le s).g (F.UBH_CNT_count le 4) = min (s.g (F.UBH_CNT_count le 4) + 1) 0xFFFFFFFF ∧
    (linkLost le s).on (F.UBH_STAT_present le) = s.on (F.UBH_STAT_present le) := by
  obtain ⟨hlink, -, -, hout, hg⟩ := linkClear_clears hle (ptEnd le 0xF1 s) (link := 0) (by decide)
  obtain ⟨-, hpt⟩ := ptEnd_kept (le := le) 0xF1 s
  have hk := linkKept_evt (le := le) (0xD8 + le) 1 (ubhCount le 4 (linkClear le 0 (ptEnd le 0xF1 s)))
  rw [linkLost, if_neg (by omega)]
  refine ⟨?_, ?_, sticky_evt _ _ _ (by decide), ?_, ?_⟩
  · rw [linkOf, hk.g (by simp [LinkReg]; omega), ubhCount, g_bump_other _ _ (by simp; omega)]
    exact hlink
  · rw [hk.held, ubhCount, ubh_bump]
    exact hout
  · rw [hk.g (by simp [LinkReg]; omega), ubhCount, g_bump_same, hg _ (by simp [LinkReg]; omega) (by simp; omega) (by simp; omega)
      (by simp; omega) (by simp; omega), hpt _ (by simp; omega) (by simp; omega)]
    rfl
  · rw [hk.on (by simp [LinkReg]; omega), ubhCount, on_bump_other _ _ (by simp; omega), State.on, hg _ (by simp [LinkReg]; omega) (by simp)
      (by simp) (by simp) (by simp), hpt _ (by simp; omega) (by simp; omega), State.on]

/-- R437, R450: the identity of a link that comes up: which registers it changes, and what the link keeps. -/
theorem setIdentity_kept (id : List Byte) (s : State) : (ubh (setIdentity le id s) le).session = (ubh s le).session ∧
    (ubh (setIdentity le id s) le).chain = (ubh s le).chain ∧
    (∀ f, LinkReg le f → f.key ≠ (F.UBH_ID_LO_id le).key → f.key ≠ (F.UBH_ID_HI_id le).key → f.key ≠ (F.UBH_STAT_override le).key →
      (setIdentity le id s).g f = s.g f) ∧
    ∀ c, c < 32 → s.sticky (0xD8 + le) c → (setIdentity le id s).sticky (0xD8 + le) c := by
  have hlo : LinkReg le (F.UBH_ID_LO_id le) := by simp [LinkReg]; omega
  have hhi : LinkReg le (F.UBH_ID_HI_id le) := by simp [LinkReg]; omega
  have hov : LinkReg le (F.UBH_STAT_override le) := by simp [LinkReg]; omega
  have hnamed : ∃ v, setIdentity le id s = v ∧ LinkKept le
      (ovReport le (modUbh le (fun u => { u with lostId := none }) ((s.setF (F.UBH_ID_LO_id le) (leNat id 0 4)).setF (F.UBH_ID_HI_id le)
        (leNat id 4 4)))) v := by
    refine ⟨_, rfl, ?_⟩
    unfold setIdentity
    dsimp only
    split
    · split
      · exact (linkKept_err hle 0 0x8A _).trans (linkKept_engineStopping hle _)
      · exact linkKept_refl _
    · exact linkKept_refl _
  obtain ⟨v, rfl, hk⟩ := hnamed
  rw [ovReport] at hk
  refine ⟨?_, ?_, fun f hf h1 h2 h3 => ?_, fun c hc hs => ?_⟩
  · rw [hk.held, ubh_setB, ubh_modUbh_same]
    rfl
  · rw [hk.held, ubh_setB, ubh_modUbh_same]
    rfl
  · rw [hk.g hf, g_setB_other _ _ h3, g_modUbh, g_setF_other _ _ h2, g_setF_other _ _ h1]
  · exact hk.sticky hc (sticky_setLinkReg hov (sticky_of_fields (sticky_setLinkReg hhi (sticky_setLinkReg hlo hs)) (modUbh_fields ..)))

omit hle in
theorem authEnd_eq (result : Nat) (s : State) : ∃ id, authEnd le result s =
    if result = 1 then setIdentity le id (modUbh le (fun u => { u with priv := [] })
      ((s.setF (F.UBH_STAT_auth le) result).setF (F.UBH_STAT_link le) (if result = 1 then 2 else 3)))
    else State.evt (0xD8 + le) 2 (setIdentity le id (modUbh le (fun u => { u with priv := [] })
      ((s.setF (F.UBH_STAT_auth le) result).setF (F.UBH_STAT_link le) (if result = 1 then 2 else 3)))) := ⟨_, rfl⟩

/-- R437, R439: authentication ends. -/
theorem authEnd_ends {result : Nat} (s : State) (hr : result < 4) : linkOf (authEnd le result s) le = (if result = 1 then 2 else 3) ∧
    (authEnd le result s).g (F.UBH_STAT_auth le) = result ∧ (ubh (authEnd le result s) le).session = (ubh s le).session ∧
    (ubh (authEnd le result s) le).chain = (ubh s le).chain ∧ (result ≠ 1 → (authEnd le result s).sticky (0xD8 + le) 2) ∧
    (∀ f, LinkReg le f → f.key ≠ (F.UBH_ID_LO_id le).key → f.key ≠ (F.UBH_ID_HI_id le).key → f.key ≠ (F.UBH_STAT_override le).key →
      f.key ≠ (F.UBH_STAT_auth le).key → f.key ≠ (F.UBH_STAT_link le).key → (authEnd le result s).g f = s.g f) ∧
    ∀ c, c < 32 → s.sticky (0xD8 + le) c → (authEnd le result s).sticky (0xD8 + le) c := by
  have hauth : LinkReg le (F.UBH_STAT_auth le) := by simp [LinkReg]; omega
  have hlink : LinkReg le (F.UBH_STAT_link le) := by simp [LinkReg]; omega
  obtain ⟨id, heq⟩ := authEnd_eq (le := le) result s
  obtain ⟨hses, hchain, hg, hst⟩ := setIdentity_kept hle id (modUbh le (fun u => { u with priv := [] })
    ((s.setF (F.UBH_STAT_auth le) result).setF (F.UBH_STAT_link le) (if result = 1 then 2 else 3)))
  rw [ubh_modUbh_same] at hses hchain
  have hstick {c : Nat} (hs : s.sticky (0xD8 + le) c) : (modUbh le (fun u => { u with priv := [] })
      ((s.setF (F.UBH_STAT_auth le) result).setF (F.UBH_STAT_link le) (if result = 1 then 2 else 3))).sticky (0xD8 + le) c :=
    sticky_of_fields (sticky_setLinkReg hlink (sticky_setLinkReg hauth hs)) (modUbh_fields ..)
  generalize setIdentity le id (modUbh le (fun u => { u with priv := [] })
    ((s.setF (F.UBH_STAT_auth le) result).setF (F.UBH_STAT_link le) (if result = 1 then 2 else 3))) = v at *
  have hk : LinkKept le v (authEnd le result s) := by
    rw [heq]
    split
    · exact linkKept_refl v
    · exact linkKept_evt ..
  refine ⟨?_, ?_, by rw [hk.held]; exact hses, by rw [hk.held]; exact hchain, fun h => ?_, fun f hf h1 h2 h3 h4 h5 => ?_,
    fun c hc hs => hk.sticky hc (hst c hc (hstick hs))⟩
  · rw [linkOf, hk.g hlink, hg _ hlink (by simp; omega) (by simp; omega) (by simp), g_modUbh, g_setF_same]
    exact Nat.mod_eq_of_lt (by split <;> simp)
  · rw [hk.g hauth, hg _ hauth (by simp; omega) (by simp; omega) (by simp), g_modUbh, g_setF_other _ _ (by simp), g_setF_same]
    exact Nat.mod_eq_of_lt hr
  · rw [heq, if_neg h]
    exact sticky_evt _ _ _ (by decide)
  · rw [hk.g hf, hg _ hf h1 h2 h3, g_modUbh, g_setF_other _ _ h5, g_setF_other _ _ h4]

end Enable

/-! ## A response that is taken (R433) -/

/-- An idle link's command, as it leaves. -/
theorem ubhCmd_idle (code : Nat) (args : List Byte) (h : (ubh s le).session = none) : ∃ c : UbhCmd, c.code = code ∧ c.auth = false ∧
    c.seq = (ubh s le).seq ∧ c.frame = ubhFrame code (ubh s le).seq none args [] ∧
    ubhCmd le code args s = (c, modUbh le (fun u => { u with seq := ((ubh s le).seq + 1) % 256 }) s) := by
  unfold ubhCmd
  simp only [h]
  exact ⟨_, rfl, rfl, rfl, rfl, rfl⟩

/-- On an idle link a command leaves, and what comes back is for it. -/
theorem ubhExchange_idle (code : Nat) (args r : List Byte) (h : linkIdle s le) : ∃ (c : UbhCmd) (w : State), c.code = code ∧
    c.auth = false ∧ c.seq = (ubh s le).seq ∧ c.frame = ubhFrame code (ubh s le).seq none args [] ∧ (ubh w le).out = some c ∧
    LinkSame le s w ∧ ubhExchange le code args r s = ubhDeliver le r w := by
  obtain ⟨hbrk, hout, htxd, hqueue, hsession, hseq⟩ := h
  obtain ⟨c, hcode, hauth, hcseq, hframe, hcmd⟩ := ubhCmd_idle code args hsession
  refine ⟨c, modUbh le (fun u => { u with out := some c }) (modUbh le (fun u => { u with seq := ((ubh s le).seq + 1) % 256 }) s),
    hcode, hauth, hcseq, hframe, by simp, (linkSame_modUbh s (by rfl)).trans (linkSame_modUbh _ (by rfl)), ?_⟩
  unfold ubhExchange
  simp [hbrk, hsession, hout, htxd, hcmd]

/-- A valid response comes back on an idle link. -/
theorem ubhExchange_response {code : Nat} (args : List Byte) {p : List Byte} (h : linkIdle s le) (hcode : code < 64) (hp : p.length ≤ 232) :
    ∃ w, LinkSame le s w ∧ ubhExchange le code args (response s le code p) s = ubhNext le (onResponse le code p w) := by
  obtain ⟨c, w, rfl, hauth, hseq, -, hout, hsame, heq⟩ := ubhExchange_idle code args (response s le code p) h
  refine ⟨modUbh le (fun u => { u with out := none }) w, hsame.trans (linkSame_modUbh w (by rfl)), ?_⟩
  rw [heq, response, ← hseq]
  unfold ubhDeliver
  simp only [hout, ubhTake_response le w hp hauth (hseq ▸ h.2.2.2.2.2) hcode]

/-! ## Polls (R439, R441, R445) -/

/-- The state in which a command that is issued every `period` ns is due. -/
def pollDue (le code period : Nat) (s : State) : State :=
  match Tbl.find (ubh s le).issued code with
  | some t => s.reach (t + period)
  | none => s

theorem pollDue_kept (le code period : Nat) (s : State) :
    (pollDue le code period s).fields = s.fields ∧ ubh (pollDue le code period s) le = ubh s le := by
  unfold pollDue
  split
  · exact ⟨State.reach_fields .., ubh_of_eng le (eng_reach ..)⟩
  · exact ⟨rfl, rfl⟩

/-- On an idle link a poll leaves as a command. -/
theorem ubhPoll_idle (code period : Nat) (r : List Byte) (s : State) (hbrk : (ubh s le).brk = false) (hout : (ubh s le).out = none) :
    ∃ w issued, w.fields = s.fields ∧ ubh w le = { ubh s le with issued := issued } ∧
      ubhPoll le code period r s = ubhExchange le code [] r w := by
  obtain ⟨hf, hu⟩ := pollDue_kept le code period s
  refine ⟨modUbh le (fun u => { u with issued := Tbl.insert u.issued code (pollDue le code period s).now }) (pollDue le code period s), _,
    (modUbh_fields ..).trans hf, by rw [ubh_modUbh_same, hu], ?_⟩
  unfold ubhPoll
  dsimp only
  rw [if_neg (by simp [hbrk, hout])]
  rfl

theorem linkSame_of_issued {w : State} {issued : Tbl Nat} (hf : w.fields = s.fields) (hu : ubh w le = { ubh s le with issued := issued }) :
    LinkSame le s w := ⟨hf, by rw [hu]; rfl⟩

/-- A valid response comes back to a poll of an idle link. -/
theorem ubhPoll_response {code : Nat} (period : Nat) {p : List Byte} (h : linkIdle s le) (hcode : code < 64) (hp : p.length ≤ 232) :
    ∃ w, LinkSame le s w ∧ ubhPoll le code period (response s le code p) s = ubhNext le (onResponse le code p w) := by
  obtain ⟨hbrk, hout, htxd, hqueue, hsession, hseq⟩ := h
  obtain ⟨v, issued, hf, hu, heq⟩ := ubhPoll_idle code period (response s le code p) s hbrk hout
  have hidle : linkIdle v le := by
    rw [linkIdle, hu]
    exact ⟨hbrk, hout, htxd, hqueue, hsession, hseq⟩
  obtain ⟨w, hsame, hnext⟩ := ubhExchange_response [] (p := p) hidle hcode hp
  refine ⟨w, (linkSame_of_issued hf hu).trans hsame, ?_⟩
  rw [heq, ← hnext, response, response, hu]

end Same

end Sys2Proof.Machine

/-! An optical-engine link comes up (R437, R439, R441, R442). -/

namespace Sys2Proof.Machine

section Link

variable {le : Nat} {s : State}

/-! ## HELLO (R439) -/

/-- The declaration of an optical engine that answers on a link that was down. -/
def helloShown (le : Nat) (p : List Byte) (s : State) : State :=
  State.evt (0xD8 + le) 0 (((s.forEach (List.range 12) fun w s => s.setF (F.UBH_DECL_bytes le w) (leNat (p.drop 1) (4 * w) 4)).setF
    (F.UBH_STAT_link le) 1).setB (F.UBH_STAT_present le) true)

theorem onHello_down {p : List Byte} (hp : p.length = 49) (h0 : byteAt p 0 = 0) (hlink : linkOf s le = 0) :
    onHello le p s = if byteAt p 2 % 2 = 0 then authEnd le 2 (helloShown le p s) else helloShown le p s := by
  rw [onHello, if_neg (by simp [hp, h0]), if_pos hlink, byteAt_drop]
  rfl

theorem helloShown_shows (p : List Byte) (s : State) : linkOf (helloShown le p s) le = 1 ∧
    (helloShown le p s).on (F.UBH_STAT_present le) = true ∧ (helloShown le p s).sticky (0xD8 + le) 0 ∧
    ∀ w, w < 12 → (helloShown le p s).g (F.UBH_DECL_bytes le w) = leNat p (1 + 4 * w) 4 := by
  refine ⟨?_, ?_, sticky_evt _ _ _ (by decide), fun w hw => ?_⟩
  · rw [linkOf, helloShown, g_evt_other _ _ _ (by simp; omega), g_setB_other _ _ (by simp), g_setF_same]
    rfl
  · rw [helloShown, on_evt_other _ _ _ (by simp; omega), on_setB _ _ _ rfl]
  · rw [helloShown, g_evt_other _ _ _ (by simp; omega), g_setB_other _ _ (by simp; omega), g_setF_other _ _ (by simp; omega)]
    refine forEach_view_once (x := w) (fun s => s.g (F.UBH_DECL_bytes le w)) _ (fun _ => leNat p (1 + 4 * w) 4) (List.mem_range.2 hw)
      List.nodup_range (fun u => ?_) (fun j _ hj u => ?_) s
    · rw [g_setF_same, leNat_drop]
      exact Nat.mod_eq_of_lt (leNat_lt p _ 4)
    · exact g_setF_other _ _ (by simp; omega)

variable (hle : le < 2)
include hle

theorem onHello_comes_up {p : List Byte} (hp : p.length = 49) (h0 : byteAt p 0 = 0) (hlink : linkOf s le = 0) :
    (onHello le p s).on (F.UBH_STAT_present le) = true ∧ (onHello le p s).sticky (0xD8 + le) 0 ∧
      linkOf (onHello le p s) le = (if byteAt p 2 % 2 = 0 then 3 else 1) ∧
      (∀ w, w < 12 → (onHello le p s).g (F.UBH_DECL_bytes le w) = leNat p (1 + 4 * w) 4) ∧
      (byteAt p 2 % 2 = 0 → (onHello le p s).g (F.UBH_STAT_auth le) = 2 ∧ (onHello le p s).sticky (0xD8 + le) 2) := by
  obtain ⟨hl, hpres, hst, hdecl⟩ := helloShown_shows (le := le) p s
  rw [onHello_down hp h0 hlink]
  split
  next h =>
    obtain ⟨hend, hauth, -, -, hnone, hg, hkept⟩ := authEnd_ends hle (result := 2) (helloShown le p s) (by decide)
    refine ⟨?_, hkept 0 (by decide) hst, hend, fun w hw => ?_, fun _ => ⟨hauth, hnone (by decide)⟩⟩
    · rw [State.on, hg _ (by simp [LinkReg]; omega) (by simp; omega) (by simp; omega) (by simp) (by simp) (by simp)]
      exact hpres
    · rw [hg _ (by simp [LinkReg]; omega) (by simp; omega) (by simp; omega) (by simp; omega) (by simp; omega) (by simp; omega)]
      exact hdecl w hw
  next h => exact ⟨hpres, hst, hl, hdecl, fun h' => absurd h' h⟩

/-! ## CERT_READ and AUTH (R437) -/

theorem onCert_none (hlink : linkOf s le = 1) : linkOf (onCert le [1] s) le = 3 ∧ (onCert le [1] s).g (F.UBH_STAT_auth le) = 2 ∧
    (onCert le [1] s).sticky (0xD8 + le) 2 := by
  obtain ⟨hend, hauth, -, -, hnone, -⟩ := authEnd_ends hle (result := 2) (modUbh le (fun u => { u with noCert := true, chain := [] }) s)
    (by decide)
  rw [onCert, if_neg (not_not_intro hlink), if_pos (show byteAt [1] 0 = 1 from rfl)]
  exact ⟨hend, hauth, hnone (by decide)⟩

omit hle in
theorem onCert_more {p : List Byte} (hlink : linkOf s le = 1) (h0 : byteAt p 0 = 0) :
    linkOf (onCert le p s) le = 1 ∧ (ubh (onCert le p s) le).chain = ((ubh s le).chain ++ p.drop 1).take 2048 := by
  rw [onCert, if_neg (not_not_intro hlink), if_neg (by rw [h0]; decide), if_pos h0]
  refine ⟨?_, by rw [ubh_modUbh_same]⟩
  rw [linkOf, g_modUbh]
  exact hlink

/-- How an authentication may end. -/
def authSettled (le : Nat) (chain : List Byte) (t : State) : Prop :=
  (linkOf t le = 2 ∧ t.g (F.UBH_STAT_auth le) = 1 ∧ (ubh t le).session ≠ none ∧ Config.chainKey chain ≠ none) ∨
    (linkOf t le = 3 ∧ t.g (F.UBH_STAT_auth le) = 3 ∧ (ubh t le).session = none ∧ t.sticky (0xD8 + le) 2)

theorem authEnd_fails (chain : List Byte) (h : (ubh s le).session = none) : authSettled le chain (authEnd le 3 s) := by
  obtain ⟨hend, hauth, hses, -, hnone, -⟩ := authEnd_ends hle (result := 3) s (by decide)
  exact .inr ⟨hend, hauth, hses.trans h, hnone (by decide)⟩

theorem authEnd_succeeds {chain : List Byte} (hc : Config.chainKey chain ≠ none) (h : (ubh s le).session ≠ none) :
    authSettled le chain (authEnd le 1 s) := by
  obtain ⟨hend, hauth, hses, -, -, -⟩ := authEnd_ends hle (result := 1) s (by decide)
  exact .inl ⟨hend, hauth, by rw [hses]; exact h, hc⟩

theorem onAuth_settles (p : List Byte) (hlink : linkOf s le = 1) (hses : (ubh s le).session = none) :
    authSettled le (ubh s le).chain (onAuth le p s) := by
  unfold onAuth
  dsimp only
  rw [if_neg (not_not_intro hlink)]
  split
  · exact authEnd_fails hle _ hses
  next k hk =>
    split
    · exact authEnd_succeeds hle (by rw [hk]; exact Option.some_ne_none k) (by rw [ubh_modUbh_same]; exact Option.some_ne_none _)
    · exact authEnd_fails hle _ hses

omit hle in
theorem authSettled_of_same {chain : List Byte} {t : State} (h : authSettled le chain s) (hs : LinkSame le s t) : authSettled le chain t := by
  rw [authSettled, hs.linkOf, hs.g, hs.session]
  exact h.imp_right fun ⟨h1, h2, h3, h4⟩ => ⟨h1, h2, h3, hs.sticky h4⟩

end Link

section Commands

variable (le : Fin 2) {s : State}

/-- The link that sends AUTH, with its nonce and its own key. -/
theorem ubhExchange_auth (nonce priv args : List Byte) {v : State} {p : List Byte} (h : linkIdle s le.val) (hlink : linkOf s le.val = 1)
    (hp : p.length ≤ 232) (hv : v.fields = s.fields) (hu : ubh v le.val = { ubh s le.val with nonce := nonce, priv := priv }) :
    authSettled le.val (ubh s le.val).chain (ubhExchange le.val 3 args (response s le.val 3 p) v) := by
  have hidle : linkIdle v le.val := by
    rw [linkIdle, hu]
    exact h
  have hresp : response v le.val 3 p = response s le.val 3 p := by rw [response, hu, response]
  obtain ⟨w, hsame, heq⟩ := ubhExchange_response args (p := p) hidle (by decide : 3 < 64) hp
  have hlinkw : linkOf w le.val = 1 := (hsame.linkOf.trans (g_of_fields hv _)).trans hlink
  have hsesw : (ubh w le.val).session = none := hsame.session.trans (by rw [hu]; exact h.2.2.2.2.1)
  have hchainw : (ubh w le.val).chain = (ubh s le.val).chain := hsame.chain.trans (by rw [hu])
  rw [← hresp, heq, ← hchainw]
  exact authSettled_of_same (onAuth_settles le.isLt p hlinkw hsesw) (linkSame_ubhNext _)

theorem execAuth_settles {p : List Byte} (h : linkIdle s le.val) (hlink : linkOf s le.val = 1) (hp : p.length ≤ 232) :
    ∃ t, execAuth le (response s le.val 3 p) s = .next t ∧ authSettled le.val (ubh s le.val).chain t := by
  unfold execAuth
  dsimp only
  rw [if_neg (not_not_intro hlink)]
  split
  · exact ⟨_, rfl, authEnd_fails le.isLt _ h.2.2.2.2.1⟩
  · obtain ⟨nonce, d, hd, -⟩ := drawBytes_eq 4 s
    obtain ⟨priv, d', hd', -⟩ := drawBytes_eq 6 { s with drawn := d }
    rw [hd]
    dsimp only
    rw [hd']
    dsimp only
    rw [if_pos (by rw [h.2.1]; rfl)]
    exact ⟨_, rfl, ubhExchange_auth le nonce priv _ h hlink hp (modUbh_fields ..) (ubh_modUbh_same ..)⟩

/-! ## TX_DISABLE (R441, R442) -/

theorem answers_nil (c : UbhCmd) : answers c [] = false := by
  have hne : byteAt [] 1 ≠ 128 + c.auth.toNat * 64 + c.code := by
    rw [show byteAt [] 1 = 0 from rfl]
    omega
  rw [answers, beq_eq_false_iff_ne.mpr hne, Bool.false_and]

/-- Nothing comes back. -/
theorem txdDeliver_nil (le : Nat) (c : UbhCmd) (s : State) : txdDeliver le c [] s = s := by
  unfold txdDeliver
  rw [if_neg]
  · rfl
  · cases (ubh s le).out with
    | none => exact Bool.false_ne_true
    | some d => simp [answers_nil]

theorem ubhDeliver_nil (le : Nat) (s : State) : ubhDeliver le [] s = s := by
  unfold ubhDeliver
  split <;> rfl

/-- TX_DISABLE leaves outside the queue. -/
theorem ubhCmd_disable (le : Nat) (s : State) : ∃ c : UbhCmd, c.frame = ubhFrame 4 (ubh s le).seq none [] [] ∧
    ubhCmd le 4 [] s = (c, modUbh le (fun u => { u with seq := ((ubh s le).seq + 1) % 256 }) s) := by
  unfold ubhCmd
  dsimp only
  split
  next h => exact absurd h (by decide)
  · exact ⟨_, rfl, rfl⟩

theorem execTxDisable_runs (hbrk : (ubh s le.val).brk = false) (htxd : (ubh s le.val).txd = none) (hno : txAllowed s le.val = false)
    (hon : s.on (F.UBH_STAT_tx_enabled le.val) = true) :
    ∃ t, execTxDisable le [] s = .next t ∧ t.on (F.UBH_STAT_tx_enabled le.val) = false ∧ t.sticky (0xD8 + le.val) 3 ∧
      (ubh t le.val).txd.map (fun c => c.frame) = some (ubhFrame 4 (ubh s le.val).seq none [] []) ∧
      ∀ c ∈ (ubh t le.val).queue, c.1 ≠ 5 := by
  obtain ⟨c, hframe, hcmd⟩ := ubhCmd_disable le.val s
  unfold execTxDisable
  dsimp only
  rw [if_neg (by simp [hbrk, htxd, hno, hon]), hcmd]
  dsimp only
  rw [txdDeliver_nil]
  generalize hv : modUbh le.val (fun u => { u with txd := some c, owed := false, queue := u.queue.filter fun c => c.1 != 5 })
    (modUbh le.val (fun u => { u with seq := ((ubh s le.val).seq + 1) % 256 }) s) = v
  have hvon : v.on (F.UBH_STAT_tx_enabled le.val) = true := by rw [← hv, on_modUbh, on_modUbh, hon]
  have hvtxd : (ubh v le.val).txd = some c := by rw [← hv, ubh_modUbh_same]
  have hvq (e : Nat × List Byte) (he : e ∈ (ubh v le.val).queue) : e.1 ≠ 5 := by
    rw [← hv, ubh_modUbh_same] at he
    exact bne_iff_ne.mp (List.mem_filter.mp he).2
  obtain ⟨hoff, hubh, -, -⟩ := setTx_kept le.isLt false v
  refine ⟨_, rfl, hoff, setTx_changed v (by rw [hvon]; decide), ?_, fun e he => hvq e (hubh ▸ he)⟩
  rw [hubh, hvtxd, Option.map_some, hframe]

/-! ## Hold and its release (R439) -/

theorem ubhBreak_breaks {link : Nat} (s : State) (hlink : link < 8) : linkOf (ubhBreak le.val link s) le.val = link ∧
    (ubh (ubhBreak le.val link s) le.val).brk = true ∧ (ubh (ubhBreak le.val link s) le.val).session = none ∧
    (ubhBreak le.val link s).on (F.UBH_STAT_tx_enabled le.val) = false := by
  unfold ubhBreak
  dsimp only
  generalize ptEnd le.val 0xF1 (if (ubh s le.val).brk = true then s else ubhCount le.val 5 s) = v
  obtain ⟨hl, hoff, hses, -, -⟩ := linkClear_clears le.isLt v hlink
  exact ⟨(g_modUbh ..).trans hl, by rw [ubh_modUbh_same], by rw [ubh_modUbh_same]; exact hses, (on_modUbh ..).trans hoff⟩

theorem ubhCtrl_holds (allow : Bool) (h : linkOf s le.val ≠ 4) : linkOf (ubhCtrl le.val true allow s) le.val = 4 ∧
    (ubh (ubhCtrl le.val true allow s) le.val).brk = true ∧ (ubh (ubhCtrl le.val true allow s) le.val).session = none ∧
    (ubhCtrl le.val true allow s).on (F.UBH_STAT_tx_enabled le.val) = false := by
  have hlink : linkOf ((s.setB (F.UBH_CTRL_hold le.val) true).setB (F.UBH_CTRL_tx_allow le.val) allow) le.val = linkOf s le.val := by
    rw [linkOf, g_setB_other _ _ (by simp; omega), g_setB_other _ _ (by simp; omega), linkOf]
  unfold ubhCtrl
  dsimp only
  rw [hlink, if_pos (by simpa using h)]
  exact ubhBreak_breaks le _ (by decide)

theorem ubhCtrl_releases (allow : Bool) (h : linkOf s le.val = 4) : linkOf (ubhCtrl le.val false allow s) le.val = 0 ∧
    (ubh (ubhCtrl le.val false allow s) le.val).brk = false ∧ (ubhCtrl le.val false allow s).on (F.UBH_CTRL_tx_allow le.val) = allow := by
  have hlink : linkOf ((s.setB (F.UBH_CTRL_hold le.val) false).setB (F.UBH_CTRL_tx_allow le.val) allow) le.val = linkOf s le.val := by
    rw [linkOf, g_setB_other _ _ (by simp; omega), g_setB_other _ _ (by simp; omega), linkOf]
  obtain ⟨hl, -, -, -, hg⟩ := linkClear_clears le.isLt ((s.setB (F.UBH_CTRL_hold le.val) false).setB (F.UBH_CTRL_tx_allow le.val) allow)
    (link := 0) (by decide)
  unfold ubhCtrl
  dsimp only
  rw [hlink, h, if_neg (by simp), if_pos (by decide), ubhRun]
  refine ⟨(g_modUbh ..).trans hl, by rw [ubh_modUbh_same], ?_⟩
  rw [on_modUbh, State.on, hg _ (by simp [LinkReg]; omega) (by simp; omega) (by simp; omega) (by simp; omega) (by simp; omega)]
  exact on_setB _ _ _ rfl

theorem pageOf_ubhCtrl : pageOf (0xD8040 + 0x1000 * le.val) = 0xD8 + le.val := by
  rw [pageOf, if_pos (by omega)]
  omega

end Commands

/-- Settles O49: an idle link takes the response to its command; what the engine does on the link's side keeps the link. -/
theorem opticalLinkComesUp : Obligations.OpticalLinkComesUp := by
  unfold Obligations.OpticalLinkComesUp
  refine ⟨?_, ?_, ?_, ?_, ?_, ?_, ?_, ?_, ?_, ?_⟩
  · intro le p s h hlink hp h0
    obtain ⟨w, hsame, heq⟩ := ubhPoll_response (code := 1) (if linkOf s le.val = 0 then 10000000 else 1000000000) h (by decide)
      (show p.length ≤ 232 by omega)
    obtain ⟨hpres, hst, hl, hdecl, hnone⟩ := onHello_comes_up le.isLt hp h0 (hsame.linkOf.trans hlink)
    have hnext := linkSame_ubhNext (le := le.val) (onHello le.val p w)
    refine ⟨_, by rw [exec_hello, execHello, heq]; rfl, (hnext.on _).trans hpres, hnext.sticky hst, hnext.linkOf.trans hl,
      fun k hk => (hnext.g _).trans (hdecl k hk), fun h2 => ⟨(hnext.g _).trans (hnone h2).1, hnext.sticky (hnone h2).2⟩⟩
  · intro le s h hlink
    obtain ⟨hbrk, hout, htxd, hqueue, hsession, hseq⟩ := h
    obtain ⟨v, issued, hf, hu, heq⟩ := ubhPoll_idle 1 (if linkOf s le.val = 0 then 10000000 else 1000000000) [] s hbrk hout
    have hidle : linkIdle v le.val := by
      rw [linkIdle, hu]
      exact ⟨hbrk, hout, htxd, hqueue, hsession, hseq⟩
    obtain ⟨c, w, -, -, -, hframe, hwout, hsame, hex⟩ := ubhExchange_idle 1 [] [] hidle
    rw [ubhDeliver_nil] at hex
    refine ⟨w, by rw [exec_hello, execHello, heq, hex], (hsame.linkOf.trans (g_of_fields hf _)).trans hlink, ?_⟩
    rw [hwout, Option.map_some, hframe, hu]
  · intro le p s h hlink hp hne h0
    obtain ⟨w, hsame, heq⟩ := ubhExchange_response (code := 2) (toLe 2 (ubh s le.val).chain.length ++ [200]) h (by decide)
      (show p.length ≤ 232 by omega)
    obtain ⟨hl, hchain⟩ := onCert_more (hsame.linkOf.trans hlink) h0
    have hnext := linkSame_ubhNext (le := le.val) (onCert le.val p w)
    refine ⟨_, by rw [exec_certRead, execCertRead, if_pos hlink, heq]; rfl, hnext.linkOf.trans hl, ?_⟩
    rw [hnext.chain, hchain, hsame.chain]
  · intro le s h hlink
    obtain ⟨w, hsame, heq⟩ := ubhExchange_response (code := 2) (p := [1]) (toLe 2 (ubh s le.val).chain.length ++ [200]) h (by decide)
      (by decide)
    obtain ⟨hl, hauth, hst⟩ := onCert_none le.isLt (hsame.linkOf.trans hlink)
    have hnext := linkSame_ubhNext (le := le.val) (onCert le.val [1] w)
    exact ⟨_, by rw [exec_certRead, execCertRead, if_pos hlink, heq]; rfl, hnext.linkOf.trans hl, (hnext.g _).trans hauth, hnext.sticky hst⟩
  · intro le p s h hlink hp
    exact execAuth_settles le h hlink (by omega)
  · intro le p s h hok hoff hne hp h0
    obtain ⟨w, hsame, heq⟩ := ubhExchange_response (code := 5) [] h (by decide) hp
    obtain ⟨hon, -, -, -⟩ := setTx_kept le.isLt true w
    have hnext := linkSame_ubhNext (le := le.val) (setTx le.val true w)
    refine ⟨_, ?_, (hnext.on _).trans hon, hnext.sticky (setTx_changed w ?_)⟩
    · rw [exec_txEnable, execTxEnable, if_pos (by rw [hok, hoff]; rfl), heq, onResponse, if_pos h0]
    · rw [hsame.on, hoff]
      decide
  · intro le s hbrk htxd hno hon
    exact execTxDisable_runs le hbrk htxd hno hon
  · intro m le allow s hadm hlink
    refine ⟨_, by rw [exec_ubhHold, execUbhHold, hadm.runs (pageOf_ubhCtrl le)], ?_⟩
    exact ubhCtrl_holds le allow (by rwa [linkOf, g_access])
  · intro m le allow s hadm hlink
    refine ⟨_, by rw [exec_ubhHold, execUbhHold, hadm.runs (pageOf_ubhCtrl le)], ?_⟩
    exact ubhCtrl_releases le allow (by rwa [linkOf, g_access])
  · intro le s hbrk hlink
    have hl : linkOf (s.setB (F.UBH_STAT_present le.val) false) le.val = linkOf s le.val := g_setB_other _ _ (by simp)
    obtain ⟨h0, -, hst, hcount, hpres⟩ := linkLost_loses le.isLt (s := s.setB (F.UBH_STAT_present le.val) false) (by rwa [hl])
    refine ⟨_, by rw [exec_ubhAbsent, execUbhAbsent, if_neg (by rw [hbrk]; exact Bool.false_ne_true)], ?_, h0, hst, ?_⟩
    · rw [hpres, on_setB _ _ _ rfl]
    · rw [hcount, g_setB_other _ _ (by simp; omega)]

end Sys2Proof.Machine

/-! The frames of trust, optical engines and synchronisation: what each command touches lies in `frame`. -/

namespace Sys2Proof.Machine

theorem fits_nonceGet (fw : Bool) (id : BitVec 16) (words : List Word) (s : State) :
    FitsOut (frame (.nonceGet fw id words)) s (execNonceGet fw id words s) := by
  with_reducible refine FitsOut.of_all ?_
  intro N h
  with_reducible refine FitsOut.execNonceGet _ _ _ _ (.refl _ _) ?_
  dsimp only [frame] at h
  delta fabricErrorRegs handleRegs replyRegs at h
  simp only [only_lets, frame_facts, frame_split, ne_eq, reduceCtorEq, not_false_eq_true] at h
  casesm* _ ∧ _
  repeat' first
    | with_reducible intro _
    | with_reducible constructor
    | with_reducible assumption
    | simp only [*]

theorem fits_attest (fw : Bool) (id : BitVec 16) (words : List Word) (s : State) :
    FitsOut (frame (.attest fw id words)) s (execAttest fw id words s) := by
  with_reducible refine FitsOut.of_all ?_
  intro N h
  with_reducible refine FitsOut.execAttest _ _ _ _ (.refl _ _) ?_
  dsimp only [frame] at h
  delta fabricErrorRegs replyRegs at h
  simp only [only_lets, frame_facts, frame_split, ne_eq, reduceCtorEq, not_false_eq_true] at h
  casesm* _ ∧ _
  repeat' first
    | with_reducible intro _
    | with_reducible constructor
    | with_reducible assumption
    | simp only [*]

theorem fits_chgAbort (fw : Bool) (id : BitVec 16) (words : List Word) (s : State) :
    FitsOut (frame (.chgAbort fw id words)) s (execChgAbort fw id words s) := by
  with_reducible refine FitsOut.of_all ?_
  intro N h
  with_reducible refine FitsOut.execChgAbort _ _ _ _ (.refl _ _) ?_
  dsimp only [frame] at h
  delta fabricErrorRegs handleRegs replyRegs at h
  simp only [only_lets, frame_facts, frame_split, ne_eq, reduceCtorEq, not_false_eq_true] at h
  casesm* _ ∧ _
  repeat' first
    | with_reducible intro _
    | with_reducible constructor
    | with_reducible assumption
    | simp only [*]

theorem fits_klkPub (fw : Bool) (id : BitVec 16) (words : List Word) (s : State) :
    FitsOut (frame (.klkPub fw id words)) s (execKlkPub fw id words s) := by
  with_reducible refine FitsOut.of_all ?_
  intro N h
  with_reducible refine FitsOut.execKlkPub _ _ _ _ (.refl _ _) ?_
  dsimp only [frame] at h
  delta fabricErrorRegs replyRegs at h
  simp only [only_lets, frame_facts, frame_split, ne_eq, reduceCtorEq, not_false_eq_true] at h
  casesm* _ ∧ _
  repeat' first
    | with_reducible intro _
    | with_reducible constructor
    | with_reducible assumption
    | simp only [*]

theorem fits_chgExpiry (h : Fin 4) (s : State) :
    FitsOut (frame (.chgExpiry h)) s (execChgExpiry h s) := by
  with_reducible refine FitsOut.of_all ?_
  intro N h
  with_reducible refine FitsOut.execChgExpiry _ _ (.refl _ _) ?_
  dsimp only [frame] at h
  delta handleRegs at h
  simp only [only_lets, frame_facts, frame_split, ne_eq, reduceCtorEq, not_false_eq_true] at h
  casesm* _ ∧ _
  repeat' first
    | with_reducible intro _
    | with_reducible constructor
    | with_reducible assumption

theorem fits_debugExpire (s : State) :
    FitsOut (frame .debugExpire) s (execDebugExpire s) := by
  with_reducible refine FitsOut.of_all ?_
  intro N h
  with_reducible refine FitsOut.execDebugExpire _ (.refl _ _) ?_
  dsimp only [frame] at h
  simp only [only_lets, frame_facts, frame_split, ne_eq, reduceCtorEq, not_false_eq_true] at h
  casesm* _ ∧ _
  repeat' first
    | with_reducible intro _
    | with_reducible constructor
    | with_reducible assumption

theorem fits_overrideEnd (le : Fin 2) (s : State) :
    FitsOut (frame (.overrideEnd le)) s (execOverrideEnd le s) := by
  with_reducible refine FitsOut.of_all ?_
  intro N h
  with_reducible refine FitsOut.execOverrideEnd _ _ (.refl _ _) ?_
  dsimp only [frame] at h
  simp only [only_lets, frame_facts, frame_split, ne_eq, reduceCtorEq, not_false_eq_true] at h
  casesm* _ ∧ _
  repeat' first
    | with_reducible intro _
    | with_reducible constructor
    | with_reducible assumption

theorem fits_tamperTrip (c : Fin 6) (lights : BitVec 16) (s : State) :
    FitsOut (frame (.tamperTrip c lights)) s (execTamperTrip c lights s) := by
  with_reducible refine FitsOut.of_all ?_
  intro N h
  with_reducible refine FitsOut.execTamperTrip _ _ _ (.refl _ _) ?_
  dsimp only [frame] at h
  delta associationRegs portRegs laneStateRegs engineDownRegs commitCancelRegs at h
  simp only [only_lets, frame_facts, frame_split, ne_eq, reduceCtorEq, not_false_eq_true, engine_pairs] at h
  casesm* _ ∧ _
  have hstop (e : Nat) : Touches.engineStopping N e := by
    repeat' first
      | with_reducible intro _
      | with_reducible constructor
      | simp only [*]
  repeat' first
    | with_reducible exact hstop _
    | with_reducible intro _
    | with_reducible constructor
    | with_reducible assumption
    | simp only [*]

theorem fits_hello (le : Fin 2) (r : List Byte) (s : State) :
    FitsOut (frame (.hello le r)) s (execHello le r s) := by
  with_reducible refine FitsOut.of_all ?_
  intro N h
  with_reducible refine FitsOut.execHello _ _ _ (.refl _ _) ?_
  dsimp only [frame] at h
  delta engineDownRegs commitCancelRegs ubholtRegs at h
  simp only [only_lets, frame_facts, frame_split, ne_eq, reduceCtorEq, not_false_eq_true] at h
  casesm* _ ∧ _
  have hstop : Touches.engineStopping N le.val := by
    repeat' first
      | with_reducible intro _
      | with_reducible constructor
      | simp only [*]
  repeat' first
    | with_reducible exact hstop
    | with_reducible intro _
    | with_reducible constructor
    | with_reducible assumption
    | simp only [*]

theorem fits_certRead (le : Fin 2) (r : List Byte) (s : State) :
    FitsOut (frame (.certRead le r)) s (execCertRead le r s) := by
  with_reducible refine FitsOut.of_all ?_
  intro N h
  with_reducible refine FitsOut.execCertRead _ _ _ (.refl _ _) ?_
  dsimp only [frame] at h
  delta engineDownRegs commitCancelRegs ubholtRegs at h
  simp only [only_lets, frame_facts, frame_split, ne_eq, reduceCtorEq, not_false_eq_true] at h
  casesm* _ ∧ _
  have hstop : Touches.engineStopping N le.val := by
    repeat' first
      | with_reducible intro _
      | with_reducible constructor
      | simp only [*]
  repeat' first
    | with_reducible exact hstop
    | with_reducible intro _
    | with_reducible constructor
    | with_reducible assumption
    | simp only [*]

theorem fits_auth (le : Fin 2) (r : List Byte) (s : State) :
    FitsOut (frame (.auth le r)) s (execAuth le r s) := by
  with_reducible refine FitsOut.of_all ?_
  intro N h
  with_reducible refine FitsOut.execAuth _ _ _ (.refl _ _) ?_
  dsimp only [frame] at h
  delta engineDownRegs commitCancelRegs ubholtRegs at h
  simp only [only_lets, frame_facts, frame_split, ne_eq, reduceCtorEq, not_false_eq_true] at h
  casesm* _ ∧ _
  have hstop : Touches.engineStopping N le.val := by
    repeat' first
      | with_reducible intro _
      | with_reducible constructor
      | simp only [*]
  repeat' first
    | with_reducible exact hstop
    | with_reducible intro _
    | with_reducible constructor
    | with_reducible assumption
    | simp only [*]

theorem fits_txDisable (le : Fin 2) (r : List Byte) (s : State) :
    FitsOut (frame (.txDisable le r)) s (execTxDisable le r s) := by
  with_reducible refine FitsOut.of_all ?_
  intro N h
  with_reducible refine FitsOut.execTxDisable _ _ _ (.refl _ _) ?_
  dsimp only [frame] at h
  delta engineDownRegs commitCancelRegs ubholtRegs at h
  simp only [only_lets, frame_facts, frame_split, ne_eq, reduceCtorEq, not_false_eq_true] at h
  casesm* _ ∧ _
  have hstop : Touches.engineStopping N le.val := by
    repeat' first
      | with_reducible intro _
      | with_reducible constructor
      | simp only [*]
  repeat' first
    | with_reducible exact hstop
    | with_reducible intro _
    | with_reducible constructor
    | with_reducible assumption
    | simp only [*]

theorem fits_txEnable (le : Fin 2) (r : List Byte) (s : State) :
    FitsOut (frame (.txEnable le r)) s (execTxEnable le r s) := by
  with_reducible refine FitsOut.of_all ?_
  intro N h
  with_reducible refine FitsOut.execTxEnable _ _ _ (.refl _ _) ?_
  dsimp only [frame] at h
  delta engineDownRegs commitCancelRegs ubholtRegs at h
  simp only [only_lets, frame_facts, frame_split, ne_eq, reduceCtorEq, not_false_eq_true] at h
  casesm* _ ∧ _
  have hstop : Touches.engineStopping N le.val := by
    repeat' first
      | with_reducible intro _
      | with_reducible constructor
      | simp only [*]
  repeat' first
    | with_reducible exact hstop
    | with_reducible intro _
    | with_reducible constructor
    | with_reducible assumption
    | simp only [*]

theorem fits_status (le : Fin 2) (r : List Byte) (s : State) :
    FitsOut (frame (.status le r)) s (execStatus le r s) := by
  with_reducible refine FitsOut.of_all ?_
  intro N h
  with_reducible refine FitsOut.execStatus _ _ _ (.refl _ _) ?_
  dsimp only [frame] at h
  delta engineDownRegs commitCancelRegs ubholtRegs at h
  simp only [only_lets, frame_facts, frame_split, ne_eq, reduceCtorEq, not_false_eq_true] at h
  casesm* _ ∧ _
  have hstop : Touches.engineStopping N le.val := by
    repeat' first
      | with_reducible intro _
      | with_reducible constructor
      | simp only [*]
  repeat' first
    | with_reducible exact hstop
    | with_reducible intro _
    | with_reducible constructor
    | with_reducible assumption
    | simp only [*]

theorem fits_alertRead (le : Fin 2) (r : List Byte) (s : State) :
    FitsOut (frame (.alertRead le r)) s (execAlertRead le r s) := by
  with_reducible refine FitsOut.of_all ?_
  intro N h
  with_reducible refine FitsOut.execAlertRead _ _ _ (.refl _ _) ?_
  dsimp only [frame] at h
  delta engineDownRegs commitCancelRegs ubholtRegs at h
  simp only [only_lets, frame_facts, frame_split, ne_eq, reduceCtorEq, not_false_eq_true] at h
  casesm* _ ∧ _
  have hstop : Touches.engineStopping N le.val := by
    repeat' first
      | with_reducible intro _
      | with_reducible constructor
      | simp only [*]
  repeat' first
    | with_reducible exact hstop
    | with_reducible intro _
    | with_reducible constructor
    | with_reducible assumption
    | simp only [*]

theorem fits_lifeRead (le : Fin 2) (r : List Byte) (s : State) :
    FitsOut (frame (.lifeRead le r)) s (execLifeRead le r s) := by
  with_reducible refine FitsOut.of_all ?_
  intro N h
  with_reducible refine FitsOut.execLifeRead _ _ _ (.refl _ _) ?_
  dsimp only [frame] at h
  delta engineDownRegs commitCancelRegs ubholtRegs at h
  simp only [only_lets, frame_facts, frame_split, ne_eq, reduceCtorEq, not_false_eq_true] at h
  casesm* _ ∧ _
  have hstop : Touches.engineStopping N le.val := by
    repeat' first
      | with_reducible intro _
      | with_reducible constructor
      | simp only [*]
  repeat' first
    | with_reducible exact hstop
    | with_reducible intro _
    | with_reducible constructor
    | with_reducible assumption
    | simp only [*]

theorem fits_memRead (le : Fin 2) (addr : BitVec 16) (len : Byte) (r : List Byte) (s : State) :
    FitsOut (frame (.memRead le addr len r)) s (execMemRead le addr len r s) := by
  with_reducible refine FitsOut.of_all ?_
  intro N h
  with_reducible refine FitsOut.execMemRead _ _ _ _ _ (.refl _ _) ?_
  dsimp only [frame] at h
  delta engineDownRegs commitCancelRegs ubholtRegs at h
  simp only [only_lets, frame_facts, frame_split, ne_eq, reduceCtorEq, not_false_eq_true] at h
  casesm* _ ∧ _
  have hstop : Touches.engineStopping N le.val := by
    repeat' first
      | with_reducible intro _
      | with_reducible constructor
      | simp only [*]
  repeat' first
    | with_reducible exact hstop
    | with_reducible intro _
    | with_reducible constructor
    | with_reducible assumption
    | simp only [*]

theorem fits_memWrite (le : Fin 2) (addr : BitVec 16) (data r : List Byte) (s : State) :
    FitsOut (frame (.memWrite le addr data r)) s (execMemWrite le addr data r s) := by
  with_reducible refine FitsOut.of_all ?_
  intro N h
  with_reducible refine FitsOut.execMemWrite _ _ _ _ _ (.refl _ _) ?_
  dsimp only [frame] at h
  delta engineDownRegs commitCancelRegs ubholtRegs at h
  simp only [only_lets, frame_facts, frame_split, ne_eq, reduceCtorEq, not_false_eq_true] at h
  casesm* _ ∧ _
  have hstop : Touches.engineStopping N le.val := by
    repeat' first
      | with_reducible intro _
      | with_reducible constructor
      | simp only [*]
  repeat' first
    | with_reducible exact hstop
    | with_reducible intro _
    | with_reducible constructor
    | with_reducible assumption
    | simp only [*]

theorem fits_ubhResend (le : Fin 2) (r : List Byte) (s : State) :
    FitsOut (frame (.ubhResend le r)) s (execUbhResend le r s) := by
  with_reducible refine FitsOut.of_all ?_
  intro N h
  with_reducible refine FitsOut.execUbhResend _ _ _ (.refl _ _) ?_
  dsimp only [frame] at h
  delta engineDownRegs commitCancelRegs ubholtRegs at h
  simp only [only_lets, frame_facts, frame_split, ne_eq, reduceCtorEq, not_false_eq_true] at h
  casesm* _ ∧ _
  have hstop : Touches.engineStopping N le.val := by
    repeat' first
      | with_reducible intro _
      | with_reducible constructor
      | simp only [*]
  repeat' first
    | with_reducible exact hstop
    | with_reducible intro _
    | with_reducible constructor
    | with_reducible assumption
    | simp only [*]

theorem fits_ubhAbsent (le : Fin 2) (s : State) :
    FitsOut (frame (.ubhAbsent le)) s (execUbhAbsent le s) := by
  with_reducible refine FitsOut.of_all ?_
  intro N h
  with_reducible refine FitsOut.execUbhAbsent _ _ (.refl _ _) ?_
  dsimp only [frame] at h
  simp only [only_lets, frame_facts, frame_split, ne_eq, reduceCtorEq, not_false_eq_true] at h
  casesm* _ ∧ _
  repeat' first
    | with_reducible intro _
    | with_reducible constructor
    | with_reducible assumption

theorem fits_ubhAlertFall (le : Fin 2) (s : State) :
    FitsOut (frame (.ubhAlertFall le)) s (execUbhAlertFall le s) := by
  with_reducible refine FitsOut.of_all ?_
  intro N h
  with_reducible refine FitsOut.execUbhAlertFall _ _ (.refl _ _) ?_
  dsimp only [frame] at h
  simp only [only_lets, frame_facts, frame_split, ne_eq, reduceCtorEq, not_false_eq_true] at h
  repeat' first
    | with_reducible intro _
    | with_reducible constructor
    | simp only [h]

theorem fits_ubhHold (m : Master) (le : Fin 2) (hold allow : Bool) (s : State) :
    FitsOut (frame (.ubhHold m le hold allow)) s (execUbhHold m le hold allow s) := by
  with_reducible refine FitsOut.of_all ?_
  intro N h
  with_reducible refine FitsOut.execUbhHold _ _ _ _ _ (.refl _ _) ?_
  dsimp only [frame] at h
  delta fabricErrorRegs at h
  simp only [only_lets, frame_facts, frame_split, ne_eq, reduceCtorEq, not_false_eq_true] at h
  casesm* _ ∧ _
  repeat' first
    | with_reducible intro _
    | with_reducible constructor
    | with_reducible assumption

theorem fits_ubhPtGo (m : Master) (le : Fin 2) (write : Bool) (len : Byte) (addr : BitVec 16) (s : State) :
    FitsOut (frame (.ubhPtGo m le write len addr)) s (execUbhPtGo m le write len addr s) := by
  with_reducible refine FitsOut.of_all ?_
  intro N h
  with_reducible refine FitsOut.execUbhPtGo _ _ _ _ _ _ (.refl _ _) ?_
  dsimp only [frame] at h
  delta fabricErrorRegs at h
  simp only [only_lets, frame_facts, frame_split, ne_eq, reduceCtorEq, not_false_eq_true] at h
  casesm* _ ∧ _
  repeat' first
    | with_reducible intro _
    | with_reducible constructor
    | with_reducible assumption

theorem fits_inputFault (k : Fin 15) (s : State) :
    FitsOut (frame (.inputFault k)) s (execInputFault k s) := by
  with_reducible refine FitsOut.of_all ?_
  intro N h
  with_reducible refine FitsOut.execInputFault _ _ (.refl _ _) ?_
  dsimp only [frame] at h
  delta qualityRegs at h
  simp only [only_lets, frame_facts, frame_split, ne_eq, reduceCtorEq, not_false_eq_true] at h
  casesm* _ ∧ _
  repeat' first
    | with_reducible intro _
    | with_reducible constructor
    | with_reducible assumption
    | simp only [*]

theorem fits_inputFaultClear (k : Fin 15) (s : State) :
    FitsOut (frame (.inputFaultClear k)) s (execInputFaultClear k s) := by
  with_reducible refine FitsOut.of_all ?_
  intro N h
  with_reducible refine FitsOut.execInputFaultClear _ _ (.refl _ _) ?_
  dsimp only [frame] at h
  delta qualityRegs at h
  simp only [only_lets, frame_facts, frame_split, ne_eq, reduceCtorEq, not_false_eq_true] at h
  casesm* _ ∧ _
  repeat' first
    | with_reducible intro _
    | with_reducible constructor
    | with_reducible assumption
    | simp only [*]

theorem fits_inputQualified (k : Fin 15) (s : State) :
    FitsOut (frame (.inputQualified k)) s (execInputQualified k s) := by
  with_reducible refine FitsOut.of_all ?_
  intro N h
  with_reducible refine FitsOut.execInputQualified _ _ (.refl _ _) ?_
  dsimp only [frame] at h
  delta qualityRegs at h
  simp only [only_lets, frame_facts, frame_split, ne_eq, reduceCtorEq, not_false_eq_true] at h
  casesm* _ ∧ _
  repeat' first
    | with_reducible intro _
    | with_reducible constructor
    | with_reducible assumption
    | simp only [*]

theorem fits_selectionEval (freq : BitVec 32) (offs : List (Fin 15 × BitVec 16)) (s : State) :
    FitsOut (frame (.selectionEval freq offs)) s (execSelectionEval freq offs s) := by
  with_reducible refine FitsOut.of_all ?_
  intro N h
  with_reducible refine FitsOut.execSelectionEval _ _ _ (.refl _ _) ?_
  dsimp only [frame] at h
  delta qualityRegs at h
  simp only [only_lets, frame_facts, frame_split, ne_eq, reduceCtorEq, not_false_eq_true] at h
  casesm* _ ∧ _
  repeat' first
    | with_reducible intro _
    | with_reducible constructor
    | with_reducible assumption
    | simp only [*]

theorem fits_dpllLocked (s : State) :
    FitsOut (frame .dpllLocked) s (execDpllLocked s) := by
  with_reducible refine FitsOut.of_all ?_
  intro N h
  with_reducible refine FitsOut.execDpllLocked _ (.refl _ _) ?_
  dsimp only [frame] at h
  delta qualityRegs at h
  simp only [only_lets, frame_facts, frame_split, ne_eq, reduceCtorEq, not_false_eq_true] at h
  casesm* _ ∧ _
  repeat' first
    | with_reducible intro _
    | with_reducible constructor
    | with_reducible assumption
    | simp only [*]

theorem fits_holdoverOos (s : State) :
    FitsOut (frame .holdoverOos) s (execHoldoverOos s) := by
  with_reducible refine FitsOut.of_all ?_
  intro N h
  with_reducible refine FitsOut.execHoldoverOos _ (.refl _ _) ?_
  dsimp only [frame] at h
  delta qualityRegs at h
  simp only [only_lets, frame_facts, frame_split, ne_eq, reduceCtorEq, not_false_eq_true] at h
  casesm* _ ∧ _
  repeat' first
    | with_reducible intro _
    | with_reducible constructor
    | with_reducible assumption
    | simp only [*]

theorem fits_dpllTestStart (s : State) :
    FitsOut (frame .dpllTestStart) s (execDpllTestStart s) := by
  with_reducible refine FitsOut.of_all ?_
  intro N h
  with_reducible refine FitsOut.execDpllTestStart _ (.refl _ _) ?_
  dsimp only [frame] at h
  simp only [only_lets, frame_facts, frame_split, ne_eq, reduceCtorEq, not_false_eq_true] at h
  casesm* _ ∧ _
  repeat' first
    | with_reducible intro _
    | with_reducible constructor
    | with_reducible assumption

theorem fits_dpllTestEnd (ok : Bool) (s : State) :
    FitsOut (frame (.dpllTestEnd ok)) s (execDpllTestEnd ok s) := by
  with_reducible refine FitsOut.of_all ?_
  intro N h
  with_reducible refine FitsOut.execDpllTestEnd _ _ (.refl _ _) ?_
  dsimp only [frame] at h
  delta qualityRegs at h
  simp only [only_lets, frame_facts, frame_split, ne_eq, reduceCtorEq, not_false_eq_true] at h
  casesm* _ ∧ _
  repeat' first
    | with_reducible intro _
    | with_reducible constructor
    | with_reducible assumption
    | simp only [*]

theorem fits_switchComplete (s : State) :
    FitsOut (frame .switchComplete) s (execSwitchComplete s) := by
  with_reducible refine FitsOut.of_all ?_
  intro N h
  with_reducible refine FitsOut.execSwitchComplete _ (.refl _ _) ?_
  dsimp only [frame] at h
  simp only [only_lets, frame_facts, frame_split, ne_eq, reduceCtorEq, not_false_eq_true] at h
  casesm* _ ∧ _
  repeat' first
    | with_reducible intro _
    | with_reducible constructor
    | with_reducible assumption

theorem fits_refDisagree (k : Fin 15) (diff : BitVec 16) (s : State) :
    FitsOut (frame (.refDisagree k diff)) s (execRefDisagree k diff s) := by
  with_reducible refine FitsOut.of_all ?_
  intro N h
  with_reducible refine FitsOut.execRefDisagree _ _ _ (.refl _ _) ?_
  dsimp only [frame] at h
  simp only [only_lets, frame_facts, frame_split, ne_eq, reduceCtorEq, not_false_eq_true] at h
  casesm* _ ∧ _
  repeat' first
    | with_reducible intro _
    | with_reducible constructor
    | with_reducible assumption

theorem fits_setAtPps (m : Master) (rate : BitVec 10) (s : State) :
    FitsOut (frame (.setAtPps m rate)) s (execSetAtPps m rate s) := by
  with_reducible refine FitsOut.of_all ?_
  intro N h
  with_reducible refine FitsOut.execSetAtPps _ _ _ (.refl _ _) ?_
  dsimp only [frame] at h
  delta fabricErrorRegs errorRegs at h
  simp only [only_lets, frame_facts, frame_split, ne_eq, reduceCtorEq, not_false_eq_true] at h
  repeat' first
    | with_reducible intro _
    | with_reducible constructor
    | simp only [h, pageOf, Nat.reduceLT, Nat.reduceDiv, if_true]

theorem fits_adjust (m : Master) (rate : BitVec 10) (s : State) :
    FitsOut (frame (.adjust m rate)) s (execAdjust m rate s) := by
  with_reducible refine FitsOut.of_all ?_
  intro N h
  with_reducible refine FitsOut.execAdjust _ _ _ (.refl _ _) ?_
  dsimp only [frame] at h
  delta fabricErrorRegs errorRegs at h
  simp only [only_lets, frame_facts, frame_split, ne_eq, reduceCtorEq, not_false_eq_true] at h
  repeat' first
    | with_reducible intro _
    | with_reducible constructor
    | simp only [h, pageOf, Nat.reduceLT, Nat.reduceDiv, if_true]

theorem fits_adjustComplete (s : State) :
    FitsOut (frame .adjustComplete) s (execAdjustComplete s) := by
  with_reducible refine FitsOut.of_all ?_
  intro N h
  with_reducible refine FitsOut.execAdjustComplete _ (.refl _ _) ?_
  dsimp only [frame] at h
  simp only [only_lets, frame_facts, frame_split, ne_eq, reduceCtorEq, not_false_eq_true] at h
  casesm* _ ∧ _
  repeat' first
    | with_reducible intro _
    | with_reducible constructor
    | with_reducible assumption

theorem fits_ppsInEdge (t : BitVec 64) (s : State) :
    FitsOut (frame (.ppsInEdge t)) s (execPpsInEdge t s) := by
  with_reducible refine FitsOut.of_all ?_
  intro N h
  with_reducible refine FitsOut.execPpsInEdge _ _ (.refl _ _) ?_
  dsimp only [frame] at h
  simp only [only_lets, frame_facts, frame_split, ne_eq, reduceCtorEq, not_false_eq_true] at h
  casesm* _ ∧ _
  repeat' first
    | with_reducible intro _
    | with_reducible constructor
    | with_reducible assumption

theorem fits_ppsInLoss (s : State) :
    FitsOut (frame .ppsInLoss) s (execPpsInLoss s) := by
  with_reducible refine FitsOut.of_all ?_
  intro N h
  with_reducible refine FitsOut.execPpsInLoss _ (.refl _ _) ?_
  dsimp only [frame] at h
  simp only [only_lets, frame_facts, frame_split, ne_eq, reduceCtorEq, not_false_eq_true] at h
  casesm* _ ∧ _
  repeat' first
    | with_reducible intro _
    | with_reducible constructor
    | with_reducible assumption

theorem fits_ppsOut (s : State) :
    FitsOut (frame .ppsOut) s (execPpsOut s) := by
  with_reducible refine FitsOut.of_all ?_
  intro N h
  with_reducible refine FitsOut.execPpsOut _ (.refl _ _) ?_
  dsimp only [frame] at h
  simp only [only_lets, frame_facts, frame_split, ne_eq, reduceCtorEq, not_false_eq_true] at h
  casesm* _ ∧ _
  repeat' first
    | with_reducible intro _
    | with_reducible constructor
    | with_reducible assumption

theorem fits_refReady (s : State) :
    FitsOut (frame .refReady) s (execRefReady s) := by
  with_reducible refine FitsOut.of_all ?_
  intro N h
  with_reducible refine FitsOut.execRefReady _ (.refl _ _) ?_
  dsimp only [frame] at h
  delta errorRegs commitTakenRegs at h
  simp only [only_lets, frame_facts, frame_split, ne_eq, reduceCtorEq, not_false_eq_true] at h
  casesm* _ ∧ _
  repeat' first
    | with_reducible intro _
    | with_reducible constructor
    | with_reducible assumption
    | simp only [*]

end Sys2Proof.Machine

/-! Thermos: triggers, calibrations, results and the result queue (O53). -/

namespace Sys2Proof.Machine

/-- The channels enabled in the set in force. -/
def thmChannels (s : State) : List Nat := (List.range 52).filter fun k => s.curOn (F.THM_CH_CFG_en k)

theorem thmChannels_ne_nil {s : State} (h : ∃ k, k < 52 ∧ s.curOn (F.THM_CH_CFG_en k) = true) : (thmChannels s).isEmpty = false := by
  obtain ⟨k, hk, hen⟩ := h
  rw [List.isEmpty_eq_false_iff]
  exact List.ne_nil_of_mem (List.mem_filter.2 ⟨List.mem_range.2 hk, hen⟩)

/-! ## Triggers (R477) -/

/-- R478: a conversion begins: THM_STAT names its tag, and what is still to be converted stays. -/
theorem thmConvert_keeps (s : State) : (thmConvert s).thm.todo = s.thm.todo ∧ (thmConvert s).thm.queue = s.thm.queue ∧
    (thmConvert s).thm.seq = s.thm.seq ∧ (thmConvert s).thm.accepted = s.thm.accepted ∧
    (∀ f : Field, f.key ≠ F.THM_STAT_tag.key → (thmConvert s).g f = s.g f) ∧ (thmConvert s).inForce = s.inForce :=
  ⟨rfl, rfl, rfl, rfl, fun _ hf => g_setF_other s _ hf, rfl⟩

theorem seqStart_runs {s : State} (hpending : s.on (F.PAGE_STAT_commit_pending 0xE4) = false)
    (hen : ∃ k, k < 52 ∧ s.curOn (F.THM_CH_CFG_en k) = true) :
    (seqStart s).on F.THM_STAT_seq_busy = true ∧ (seqStart s).thm.todo = thmChannels s := by
  have hstart : seqStart s = thmConvert (modThm (fun t => { t with todo := thmChannels s }) (s.setB F.THM_STAT_seq_busy true)) := by
    unfold seqStart
    dsimp only
    rw [hpending, Bool.false_and, if_neg Bool.false_ne_true, ← thmChannels, thmChannels_ne_nil hen, if_neg Bool.false_ne_true]
  rw [hstart]
  obtain ⟨htodo, -, -, -, hg, -⟩ := thmConvert_keeps (modThm (fun t => { t with todo := thmChannels s }) (s.setB F.THM_STAT_seq_busy true))
  exact ⟨by rw [State.on, hg _ (by simp)]; exact on_setB s _ true rfl, htodo⟩

/-- A trigger comes to a converter that is idle. -/
theorem thmTrigger_idle {s : State} (hseq : s.on F.THM_STAT_seq_busy = false) (hcal : s.on F.THM_STAT_cal_busy = false) :
    thmTrigger s = seqStart s := by
  rw [thmTrigger, hseq, hcal]
  rfl

/-- A trigger comes during a sequence: it waits, or overflows. -/
theorem thmTrigger_busy {s : State} (hseq : s.on F.THM_STAT_seq_busy = true) :
    thmTrigger s = if s.on F.THM_STAT_trig_pending then State.evt 0xE4 1 (s.bump F.THM_TRIG_OVL_count 1)
      else s.setB F.THM_STAT_trig_pending true := by
  rw [thmTrigger, hseq, Bool.true_or, if_pos rfl]

/-- R477: the timer's period runs out at instant `due`. -/
def thmTimed (due : Nat) (s : State) : State := modThm (fun t => { t with timerAt := (s.reach due).now }) (s.reach due)

theorem thmTimed_keeps (due : Nat) (s : State) : (∀ f, (thmTimed due s).on f = s.on f) ∧ (thmTimed due s).inForce = s.inForce ∧
    (thmTimed due s).thm.todo = s.thm.todo ∧ (thmTimed due s).thm.queue = s.thm.queue :=
  ⟨fun f => on_of_fields (State.reach_fields s due) f, State.reach_inForce s due,
    (congrArg Thm.todo (State.reach_thm s due) :), (congrArg Thm.queue (State.reach_thm s due) :)⟩

theorem exec_thmTimerTrigger_eq {s : State} (hperiod : s.cur F.THM_SEQ_period ≠ 0) (hvaon : s.dev.vaon = true) :
    exec .thmTimerTrigger s = .next (thmTrigger (thmTimed (s.thm.timerAt + s.cur F.THM_SEQ_period * 1000000) s)) := by
  rw [exec_thmTimerTrigger, execThmTimerTrigger, if_neg (by simp [hperiod, hvaon])]
  rfl

theorem exec_thmTimerTrigger_starts (s : State) (hperiod : s.cur F.THM_SEQ_period ≠ 0) (hvaon : s.dev.vaon = true)
    (hseq : s.on F.THM_STAT_seq_busy = false) (hcal : s.on F.THM_STAT_cal_busy = false)
    (hpending : s.on (F.PAGE_STAT_commit_pending 0xE4) = false) (hen : ∃ k, k < 52 ∧ s.curOn (F.THM_CH_CFG_en k) = true) :
    ∃ t, exec .thmTimerTrigger s = .next t ∧ t.on F.THM_STAT_seq_busy = true ∧
      t.thm.todo = (List.range 52).filter fun k => s.curOn (F.THM_CH_CFG_en k) := by
  have heq := exec_thmTimerTrigger_eq hperiod hvaon
  generalize s.thm.timerAt + s.cur F.THM_SEQ_period * 1000000 = due at heq
  obtain ⟨hon, hforce, -, -⟩ := thmTimed_keeps due s
  have hcurOn (f : Field) : (thmTimed due s).curOn f = s.curOn f := by rw [State.curOn, State.cur, hforce, State.curOn, State.cur]
  refine ⟨_, by rw [heq, thmTrigger_idle (by rw [hon, hseq]) (by rw [hon, hcal])], ?_⟩
  obtain ⟨hbusy, htodo⟩ := seqStart_runs (s := thmTimed due s) (by rw [hon, hpending]) (by simpa only [hcurOn] using hen)
  exact ⟨hbusy, by rw [htodo, thmChannels]; simp only [hcurOn]⟩

theorem exec_thmTimerTrigger_waits (s : State) (hperiod : s.cur F.THM_SEQ_period ≠ 0) (hvaon : s.dev.vaon = true)
    (hseq : s.on F.THM_STAT_seq_busy = true) (htrig : s.on F.THM_STAT_trig_pending = false) :
    ∃ t, exec .thmTimerTrigger s = .next t ∧ t.on F.THM_STAT_trig_pending = true ∧ t.thm.todo = s.thm.todo ∧ t.thm.queue = s.thm.queue := by
  have heq := exec_thmTimerTrigger_eq hperiod hvaon
  generalize s.thm.timerAt + s.cur F.THM_SEQ_period * 1000000 = due at heq
  obtain ⟨hon, -, htodo, hqueue⟩ := thmTimed_keeps due s
  have hrun : exec .thmTimerTrigger s = .next ((thmTimed due s).setB F.THM_STAT_trig_pending true) := by
    rw [heq, thmTrigger_busy (by rw [hon, hseq]), hon, htrig, if_neg Bool.false_ne_true]
  generalize thmTimed due s = u at htodo hqueue hrun
  exact ⟨_, hrun, on_setB _ _ _ rfl, htodo, hqueue⟩

theorem exec_thmTrigGo_overflows (m : Master) (s : State) (hadm : s.admits m 0xE4 true) (hseq : s.on F.THM_STAT_seq_busy = true)
    (htrig : s.on F.THM_STAT_trig_pending = true) :
    ∃ t, exec (.thmTrigGo m) s = .next t ∧ t.thm = s.thm ∧ t.sticky 0xE4 1 ∧
      t.g F.THM_TRIG_OVL_count = min (s.g F.THM_TRIG_OVL_count + 1) 0xFFFFFFFF := by
  refine ⟨_, by rw [exec_thmTrigGo, execThmTrigGo, hadm.runs rfl, thmTrigger_busy (by rw [on_access, hseq]), on_access, htrig, if_pos rfl],
    by simp, sticky_evt _ _ _ (by omega), ?_⟩
  rw [g_evt_other _ _ _ (by simp), g_bump_same, g_access]
  rfl

theorem exec_thmTrigGo_starts (m : Master) (s : State) (hadm : s.admits m 0xE4 true) (hseq : s.on F.THM_STAT_seq_busy = false)
    (hcal : s.on F.THM_STAT_cal_busy = false) (hpending : s.on (F.PAGE_STAT_commit_pending 0xE4) = false)
    (hen : ∃ k, k < 52 ∧ s.curOn (F.THM_CH_CFG_en k) = true) :
    ∃ t, exec (.thmTrigGo m) s = .next t ∧ t.on F.THM_STAT_seq_busy = true ∧
      t.thm.todo = (List.range 52).filter fun k => s.curOn (F.THM_CH_CFG_en k) := by
  have hcurOn (f : Field) : (s.access m).curOn f = s.curOn f := by rw [State.curOn, State.cur, State.access_inForce, State.curOn, State.cur]
  refine ⟨_, by rw [exec_thmTrigGo, execThmTrigGo, hadm.runs rfl, thmTrigger_idle (by rw [on_access, hseq]) (by rw [on_access, hcal])], ?_⟩
  obtain ⟨hbusy, htodo⟩ := seqStart_runs (s := s.access m) (by rw [on_access, hpending]) (by simpa only [hcurOn] using hen)
  exact ⟨hbusy, by rw [htodo, thmChannels]; simp only [hcurOn]⟩

/-! ## Calibration (R479) -/

/-- A change that clears no event of page 0xE4 and leaves whether a calibration runs. -/
structure KeepsCal (s t : State) : Prop where
  busy : t.on F.THM_STAT_cal_busy = s.on F.THM_STAT_cal_busy
  events : ∀ b, b < 32 → s.sticky 0xE4 b → t.sticky 0xE4 b

theorem KeepsCal.refl (s : State) : KeepsCal s s := ⟨rfl, fun _ _ h => h⟩

theorem KeepsCal.of_fields {s t u : State} (h : KeepsCal s t) (hf : u.fields = t.fields) : KeepsCal s u :=
  ⟨(on_of_fields hf _).trans h.busy, fun b hb hs => sticky_of_fields (h.events b hb hs) hf⟩

theorem KeepsCal.setF {s t : State} (h : KeepsCal s t) {f : Field} (v : Nat) (hf : f.key ≠ F.THM_STAT_cal_busy.key)
    (he : f.key ≠ (F.EVT_STICKY 0xE4).key) : KeepsCal s (t.setF f v) :=
  ⟨(on_setF_other _ _ (Ne.symm hf)).trans h.busy, fun b hb hs => sticky_setF _ (Ne.symm he) (h.events b hb hs)⟩

theorem KeepsCal.setB {s t : State} (h : KeepsCal s t) {f : Field} (v : Bool) (hf : f.key ≠ F.THM_STAT_cal_busy.key)
    (he : f.key ≠ (F.EVT_STICKY 0xE4).key) : KeepsCal s (t.setB f v) := h.setF v.toNat hf he

theorem KeepsCal.evt {s t : State} (h : KeepsCal s t) (p b : Nat) : KeepsCal s (State.evt p b t) :=
  ⟨(on_evt_other _ _ _ (by simp; omega)).trans h.busy, fun c hc hs => sticky_evt_of p b hc (h.events c hc hs)⟩

/-- R58: the end of a COMMIT of the Thermos set. -/
theorem keepsCal_commitTake (s : State) : KeepsCal s (commitTake 0xE4 s) := by
  unfold commitTake commitTaken
  dsimp only
  refine .of_fields (.evt (.setB (.setB (.setB (.setF (.of_fields (.refl s) ?_) _ ?_ ?_) _ ?_ ?_) _ ?_ ?_) _ ?_ ?_) _ _) rfl
  · rfl
  all_goals simp

theorem keepsCal_seqStart (s : State) : KeepsCal s (seqStart s) := by
  unfold seqStart
  dsimp only
  generalize hu : (if (s.on (F.PAGE_STAT_commit_pending 0xE4) && !s.on (F.PAGE_STAT_commit_armed 0xE4)) = true then
    thmApply s.inForce (commitTake 0xE4 s) else s) = u
  have hset : KeepsCal s u := by
    rw [← hu]
    split
    · exact (keepsCal_commitTake s).of_fields rfl
    · exact .refl s
  split
  · exact hset.evt _ _
  · generalize hv : modThm _ (u.setB F.THM_STAT_seq_busy true) = v
    have hbusy : KeepsCal s (u.setB F.THM_STAT_seq_busy true) := hset.setB _ (by simp) (by simp)
    have hrun : KeepsCal s v := hbusy.of_fields (by rw [← hv]; rfl)
    exact (hrun.setF (f := F.THM_STAT_tag) _ (by simp) (by simp)).of_fields rfl

/-- R477: a trigger that waited, if one did, starts its sequence. -/
theorem keepsCal_seqPending (s : State) : KeepsCal s (seqPending s) := by
  unfold seqPending
  split
  · have hstart := keepsCal_seqStart (s.setB F.THM_STAT_trig_pending false)
    have hcleared : KeepsCal s (s.setB F.THM_STAT_trig_pending false) := (KeepsCal.refl s).setB _ (by simp) (by simp)
    exact ⟨hstart.busy.trans hcleared.busy, fun b hb h => hstart.events b hb (hcleared.events b hb h)⟩
  · exact .refl s

/-- R479: a calibration starts with the reference ready; without it, it fails. -/
theorem calStart_starts (s : State) :
    (s.on F.THM_STAT_ref_ready = true → (calStart s).on F.THM_STAT_cal_busy = true) ∧
    (s.on F.THM_STAT_ref_ready = false → (calStart s).on F.THM_STAT_cal_busy = s.on F.THM_STAT_cal_busy ∧ (calStart s).sticky 0xE4 3) := by
  unfold calStart
  refine ⟨fun h => ?_, fun h => ?_⟩
  · rw [if_pos h]
    exact on_setB s _ true rfl
  · rw [if_neg (by simp [h])]
    have hkeep := keepsCal_seqPending (State.evt 0xE4 3 s)
    exact ⟨hkeep.busy.trans ((KeepsCal.refl s).evt _ _).busy, hkeep.events 3 (by omega) (sticky_evt _ _ _ (by omega))⟩

theorem exec_thmCalGo_eq (m : Master) (s : State) (hadm : s.admits m 0xE4 true) : exec (.thmCalGo m false) s = .next (calGo (s.access m)) := by
  rw [exec_thmCalGo, execThmCalGo, hadm.runs rfl]
  rfl

theorem exec_thmCalGo_starts (m : Master) (s : State) (hadm : s.admits m 0xE4 true) (hcal : s.on F.THM_STAT_cal_busy = false)
    (hqueued : s.on F.THM_STAT_cal_queued = false) :
    ∃ t, exec (.thmCalGo m false) s = .next t ∧
      (s.on F.THM_STAT_seq_busy = true → t.on F.THM_STAT_cal_queued = true) ∧
      (s.on F.THM_STAT_seq_busy = false → s.on F.THM_STAT_ref_ready = true → t.on F.THM_STAT_cal_busy = true) ∧
      (s.on F.THM_STAT_seq_busy = false → s.on F.THM_STAT_ref_ready = false → t.on F.THM_STAT_cal_busy = false ∧ t.sticky 0xE4 3) := by
  refine ⟨_, exec_thmCalGo_eq m s hadm, ?_⟩
  unfold calGo
  simp only [on_access, hcal, hqueued, Bool.or_self, Bool.false_eq_true, if_false]
  cases hseq : s.on F.THM_STAT_seq_busy with
  | true => exact ⟨fun _ => on_setB _ _ _ rfl, nofun, nofun⟩
  | false =>
    obtain ⟨hready, hnot⟩ := calStart_starts (s.access m)
    rw [on_access, on_access, hcal] at hnot
    rw [on_access] at hready
    exact ⟨nofun, fun _ => hready, fun _ => hnot⟩

/-- R55: the first error of a page is held in ERR_CODE. -/
theorem g_err_first (p step code : Nat) (s : State) (off : Nat) (h : s.on (F.ERR_valid p) = false) :
    (State.err p step code s off).g (F.ERR_code p) = code % 256 := by
  have hplain : (s.logPlain p code 1 (off / 256 * 65536 + step * 256 + off % 256)).on (F.ERR_valid p) = false :=
    (on_of_fields (State.logPlain_fields ..) _).trans h
  unfold State.err
  dsimp only
  rw [hplain, if_neg Bool.false_ne_true, g_evt_other _ _ _ (by simp), g_setF_same]
  rfl

theorem exec_thmCalGo_refused (m : Master) (s : State) (hadm : s.admits m 0xE4 true)
    (hbusy : s.on F.THM_STAT_cal_busy = true ∨ s.on F.THM_STAT_cal_queued = true) (hvalid : s.on (F.ERR_valid 0xE4) = false) :
    ∃ t, exec (.thmCalGo m false) s = .next t ∧ t.g (F.ERR_code 0xE4) = 0xE2 := by
  refine ⟨_, exec_thmCalGo_eq m s hadm, ?_⟩
  rw [calGo, on_access, on_access, if_pos (by simpa using hbusy)]
  exact g_err_first _ _ _ _ 0 (by rw [on_access, hvalid])

theorem seqPending_of_none {s : State} (h : s.on F.THM_STAT_trig_pending = false) : seqPending s = s := by
  rw [seqPending, h, if_neg Bool.false_ne_true]

/-- R479: the gain factor that the mean windows of tags 50 and 51 give, `d` apart. -/
def calGain (d : Int) : Int := if d ≤ 0 then 0 else roundEven (4194304 * 6710886) d.toNat

/-- R479: a calibration has converted its windows. -/
def calEnded (s : State) : State := (s.reach (s.thm.calAt + 840000000)).setB F.THM_STAT_cal_busy false

/-- R479: a calibration passes with an offset and a gain. -/
def calPassed (z : Int) (gain : Int) (s : State) : State :=
  State.evt 0xE4 2 ((modThm (fun t => { t with passed := true })
    ((s.setF F.THM_OFFSET_offset (unsigned 24 z)).setF F.THM_GAIN_gain gain.toNat)).setB F.DEV_STATUS_thm_cal_done true)

theorem exec_thmCalDone_eq (zero ref : List (BitVec 24)) (s : State) (hbusy : s.on F.THM_STAT_cal_busy = true) :
    exec (.thmCalDone zero ref) s = .next (seqPending (
      let z := windowSum 2 (zero.take 4)
      let gain := calGain (windowSum 2 (ref.take 4) - z)
      if gain < 3774874 ∨ 4613734 < gain then State.evt 0xE4 3 (calEnded s) else calPassed z gain (calEnded s))) := by
  rw [exec_thmCalDone, execThmCalDone, hbusy, Bool.not_true, if_neg Bool.false_ne_true]
  unfold calGain
  generalize roundEven (4194304 * 6710886) = gain
  rfl

theorem calEnded_keeps (s : State) : (calEnded s).on F.THM_STAT_cal_busy = false ∧ (calEnded s).thm = s.thm ∧
    ∀ f : Field, f.key ≠ F.THM_STAT_cal_busy.key → (calEnded s).g f = s.g f := by
  refine ⟨?_, ?_, fun f hf => ?_⟩
  · rw [calEnded, on_setB _ _ _ rfl]
  · rw [calEnded, State.setB_thm, State.reach_thm]
  · rw [calEnded, g_setB_other _ _ hf, g_reach]

theorem calPassed_sets (z gain : Int) (s : State) (hgain : gain.toNat < 2 ^ 24) :
    (calPassed z gain s).on F.THM_STAT_cal_busy = s.on F.THM_STAT_cal_busy ∧
      (calPassed z gain s).on F.THM_STAT_trig_pending = s.on F.THM_STAT_trig_pending ∧
      (calPassed z gain s).g F.THM_OFFSET_offset = unsigned 24 z ∧ (calPassed z gain s).g F.THM_GAIN_gain = gain.toNat ∧
      (calPassed z gain s).thm.passed = true ∧ (calPassed z gain s).sticky 0xE4 2 ∧
      (calPassed z gain s).on F.DEV_STATUS_thm_cal_done = true := by
  unfold calPassed
  generalize hu : modThm _ ((s.setF F.THM_OFFSET_offset (unsigned 24 z)).setF F.THM_GAIN_gain gain.toNat) = u
  have hg (f : Field) : u.g f = ((s.setF F.THM_OFFSET_offset (unsigned 24 z)).setF F.THM_GAIN_gain gain.toNat).g f := by
    rw [← hu]
    rfl
  have hpassed : u.thm.passed = true := by rw [← hu]; rfl
  refine ⟨?_, ?_, ?_, ?_, by simpa using hpassed, sticky_evt _ _ _ (by omega), ?_⟩
  · rw [on_evt_other _ _ _ (by simp), on_setB_other _ _ (by simp), State.on, hg, g_setF_other _ _ (by simp), g_setF_other _ _ (by simp),
      State.on]
  · rw [on_evt_other _ _ _ (by simp), on_setB_other _ _ (by simp), State.on, hg, g_setF_other _ _ (by simp), g_setF_other _ _ (by simp),
      State.on]
  · rw [g_evt_other _ _ _ (by simp), g_setB_other _ _ (by simp), hg, g_setF_other _ _ (by simp), g_setF_same]
    exact Nat.mod_eq_of_lt (by unfold unsigned; simp; omega)
  · rw [g_evt_other _ _ _ (by simp), g_setB_other _ _ (by simp), hg, g_setF_same]
    exact Nat.mod_eq_of_lt hgain
  · rw [on_evt_other _ _ _ (by simp), on_setB _ _ _ rfl]

theorem exec_thmCalDone_passes (zero ref : List (BitVec 24)) (z : Int) (d : Nat) (s : State) (hbusy : s.on F.THM_STAT_cal_busy = true)
    (htrig : s.on F.THM_STAT_trig_pending = false) (hzero : windowSum 2 (zero.take 4) = z) (href : windowSum 2 (ref.take 4) = z + d)
    (hd : 0 < d) (hlow : 3774874 ≤ roundEven (4194304 * 6710886) d) (hhigh : roundEven (4194304 * 6710886) d ≤ 4613734) :
    ∃ t, exec (.thmCalDone zero ref) s = .next t ∧ t.on F.THM_STAT_cal_busy = false ∧ t.g F.THM_OFFSET_offset = unsigned 24 z ∧
      (t.g F.THM_GAIN_gain : Int) = roundEven (4194304 * 6710886) d ∧ t.thm.passed = true ∧ t.sticky 0xE4 2 ∧
      t.on F.DEV_STATUS_thm_cal_done = true := by
  have hgain : calGain (windowSum 2 (ref.take 4) - z) = roundEven (4194304 * 6710886) d := by
    rw [href, calGain, if_neg (by omega)]
    congr 1
    omega
  obtain ⟨hended, -, hg⟩ := calEnded_keeps s
  refine ⟨_, exec_thmCalDone_eq zero ref s hbusy, ?_⟩
  dsimp only
  rw [hzero, hgain]
  generalize roundEven (4194304 * 6710886) d = gain at hlow hhigh ⊢
  obtain ⟨hb, hp, hoff, hga, hpass, hev, hdone⟩ := calPassed_sets z gain (calEnded s) (by omega)
  have hnone : (calPassed z gain (calEnded s)).on F.THM_STAT_trig_pending = false := by
    rw [hp, State.on, hg _ (by simp)]
    exact htrig
  rw [if_neg (by omega), seqPending_of_none hnone]
  exact ⟨hb.trans hended, hoff, by rw [hga]; omega, hpass, hev, hdone⟩

theorem exec_thmCalDone_fails (zero ref : List (BitVec 24)) (s : State) (hbusy : s.on F.THM_STAT_cal_busy = true)
    (htrig : s.on F.THM_STAT_trig_pending = false) (hle : windowSum 2 (ref.take 4) ≤ windowSum 2 (zero.take 4)) :
    ∃ t, exec (.thmCalDone zero ref) s = .next t ∧ t.on F.THM_STAT_cal_busy = false ∧ t.g F.THM_OFFSET_offset = s.g F.THM_OFFSET_offset ∧
      t.g F.THM_GAIN_gain = s.g F.THM_GAIN_gain ∧ t.thm.passed = s.thm.passed ∧ t.sticky 0xE4 3 := by
  obtain ⟨hended, hthm, hg⟩ := calEnded_keeps s
  have hnone : (State.evt 0xE4 3 (calEnded s)).on F.THM_STAT_trig_pending = false := by
    rw [on_evt_other _ _ _ (by simp), State.on, hg _ (by simp)]
    exact htrig
  refine ⟨_, exec_thmCalDone_eq zero ref s hbusy, ?_⟩
  dsimp only
  rw [calGain, if_pos (by omega), seqPending_of_none hnone]
  refine ⟨by rw [on_evt_other _ _ _ (by simp), hended], ?_, ?_, by rw [State.evt_thm, hthm], sticky_evt _ _ _ (by omega)⟩
  · rw [g_evt_other _ _ _ (by simp), hg _ (by simp)]
  · rw [g_evt_other _ _ _ (by simp), hg _ (by simp)]

/-! ## The end of a sequence (R477, R479) -/

/-- R477: every channel of the sequence is converted. -/
def seqEnded (s : State) : State := State.evt 0xE4 0 ((s.setB F.THM_STAT_seq_busy false).setF F.THM_STAT_tag 0)

theorem exec_seqDone_eq (s : State) (hseq : s.on F.THM_STAT_seq_busy = true) (htodo : s.thm.todo = []) :
    exec .seqDone s = .next (if (seqEnded s).on F.THM_STAT_cal_queued then calStart ((seqEnded s).setB F.THM_STAT_cal_queued false)
      else seqPending (seqEnded s)) := by
  rw [exec_seqDone, execSeqDone, if_pos ⟨hseq, by simp [htodo]⟩]
  dsimp only
  rw [← seqEnded]
  split <;> rfl

theorem seqEnded_on (s : State) {f : Field} (hs : f.key ≠ F.THM_STAT_seq_busy.key) (ht : f.key ≠ F.THM_STAT_tag.key)
    (he : f.key ≠ (F.EVT_STICKY 0xE4).key) : (seqEnded s).on f = s.on f := by
  rw [seqEnded, on_evt_other _ _ _ he, on_setF_other _ _ ht, on_setB_other _ _ hs]

theorem seqEnded_idle (s : State) : (seqEnded s).on F.THM_STAT_seq_busy = false ∧ (seqEnded s).g F.THM_STAT_tag = 0 := by
  unfold seqEnded
  refine ⟨?_, ?_⟩
  · rw [on_evt_other _ _ _ (by simp), on_setF_other _ _ (by simp), on_setB _ _ _ rfl]
  · rw [g_evt_other _ _ _ (by simp), g_setF_same]
    rfl

theorem exec_seqDone_ends (s : State) (hseq : s.on F.THM_STAT_seq_busy = true) (htodo : s.thm.todo = [])
    (hqueued : s.on F.THM_STAT_cal_queued = false) (htrig : s.on F.THM_STAT_trig_pending = false) :
    ∃ t, exec .seqDone s = .next t ∧ t.on F.THM_STAT_seq_busy = false ∧ t.g F.THM_STAT_tag = 0 ∧ t.sticky 0xE4 0 := by
  refine ⟨seqEnded s, ?_, (seqEnded_idle s).1, (seqEnded_idle s).2, sticky_evt _ _ _ (by omega)⟩
  rw [exec_seqDone_eq s hseq htodo, seqEnded_on s (by simp) (by simp) (by simp), hqueued, if_neg Bool.false_ne_true,
    seqPending_of_none (by rw [seqEnded_on s (by simp) (by simp) (by simp), htrig])]

theorem exec_seqDone_calibrates (s : State) (hseq : s.on F.THM_STAT_seq_busy = true) (htodo : s.thm.todo = [])
    (hqueued : s.on F.THM_STAT_cal_queued = true) (hready : s.on F.THM_STAT_ref_ready = true) :
    ∃ t, exec .seqDone s = .next t ∧ t.on F.THM_STAT_seq_busy = false ∧ t.on F.THM_STAT_cal_queued = false ∧
      t.on F.THM_STAT_cal_busy = true := by
  have hready' : ((seqEnded s).setB F.THM_STAT_cal_queued false).on F.THM_STAT_ref_ready = true := by
    rw [on_setB_other _ _ (by simp), seqEnded_on s (by simp) (by simp) (by simp), hready]
  refine ⟨_, by rw [exec_seqDone_eq s hseq htodo, seqEnded_on s (by simp) (by simp) (by simp), hqueued, if_pos rfl, calStart, if_pos hready'], ?_⟩
  generalize hu : (seqEnded s).setB F.THM_STAT_cal_queued false = u
  have hidle : u.on F.THM_STAT_seq_busy = false := by rw [← hu, on_setB_other _ _ (by simp), (seqEnded_idle s).1]
  have hnone : u.on F.THM_STAT_cal_queued = false := by rw [← hu, on_setB _ _ _ rfl]
  refine ⟨(on_setB_other u (f := F.THM_STAT_cal_busy) true (by simp)).trans hidle,
    (on_setB_other u (f := F.THM_STAT_cal_busy) true (by simp)).trans hnone, on_setB u F.THM_STAT_cal_busy true rfl⟩

/-! ## The result queue and path tests (R480, R510) -/

theorem exec_thmQPop_pops (m : Master) (tag n fl raw : Nat) (q : List (Nat × Nat × Nat × Nat)) (s : State) (hadm : s.admits m 0xE6 true)
    (hqueue : s.thm.queue = (tag, n, fl, raw) :: q) :
    ∃ t, exec (.thmQPop m) s = .next t ∧ t.thm.queue = q ∧ t.g F.THM_Q_0_tag = tag % 64 ∧
      t.g F.THM_Q_0_seq = n % 256 ∧ t.g F.THM_Q_0_flags = fl % 64 ∧ t.g F.THM_Q_1_raw = raw % 2 ^ 32 := by
  refine ⟨_, by rw [exec_thmQPop, execThmQPop, hadm.runs rfl, thmPop, State.access_thm, hqueue], rfl, ?_, ?_, ?_, g_setF_same ..⟩
  · rw [g_setF_other _ _ (by simp), g_setF_other _ _ (by simp), g_setF_other _ _ (by simp)]
    exact g_setF_same ..
  · rw [g_setF_other _ _ (by simp), g_setF_other _ _ (by simp)]
    exact g_setF_same ..
  · rw [g_setF_other _ _ (by simp)]
    exact g_setF_same ..

theorem unsigned_lt (w : Nat) (i : Int) : unsigned w i < 2 ^ w := by
  have hpos : (0 : Int) < 2 ^ w := by positivity
  have hlt := Int.emod_lt_of_pos i hpos
  have hnn := Int.emod_nonneg i hpos.ne'
  rw [unsigned, Int.toNat_lt hnn]
  exact_mod_cast hlt

/-! ## Results (R475, R476, R480) -/

/-- R475, R480: the last result of channel `tag`, `raw` corrected to `c`, is shown and queued, and the next channel's conversion begins. -/
def thmKept (tag flags : Nat) (raw c : Int) (s : State) : State :=
  let shown := (s.setF (F.THM_CH_LAST_flags tag) flags).setF (F.THM_CH_LAST_value tag) (unsigned 24 c)
  thmConvert (modThm (fun t => { t with todo := t.todo.drop 1 })
    (if shown.curOn (F.THM_CH_CFG_queue tag) then thmPush tag flags (unsigned 32 raw) shown else shown))

/-- R480: a result enters a queue that has room, or overflows: what either leaves. -/
theorem thmPush_keeps (tag flags raw : Nat) (s : State) : (thmPush tag flags raw s).thm.todo = s.thm.todo ∧
    (thmPush tag flags raw s).thm.accepted = s.thm.accepted ∧ (thmPush tag flags raw s).inForce = s.inForce ∧
    (thmPush tag flags raw s).dev = s.dev ∧ ∀ f : Field, f.key ≠ F.THM_Q_CTRL_ovf.key → f.key ≠ F.THM_Q_CTRL_queued.key → f.key ≠ (F.EVT_STICKY 0xE4).key →
      (thmPush tag flags raw s).g f = s.g f := by
  unfold thmPush
  dsimp only
  split
  · refine ⟨by rw [State.evt_thm]; rfl, by rw [State.evt_thm]; rfl, by rw [State.evt_inForce]; rfl, by rw [State.evt_dev]; rfl, fun f hovf _ hevt => ?_⟩
    rw [g_evt_other _ _ _ hevt, g_bump_other _ _ hovf]
    rfl
  · exact ⟨rfl, rfl, rfl, rfl, fun f _ hq _ => g_setF_other _ _ hq⟩

theorem thmKept_keeps (tag flags : Nat) (raw c : Int) (s : State) : (thmKept tag flags raw c s).thm.todo = s.thm.todo.drop 1 ∧
    (thmKept tag flags raw c s).thm.accepted = s.thm.accepted ∧ (thmKept tag flags raw c s).inForce = s.inForce ∧
    (thmKept tag flags raw c s).dev = s.dev ∧ ∀ f : Field, f.key ≠ F.THM_Q_CTRL_ovf.key → f.key ≠ F.THM_Q_CTRL_queued.key → f.key ≠ (F.EVT_STICKY 0xE4).key →
      f.key ≠ F.THM_STAT_tag.key → (thmKept tag flags raw c s).g f =
        ((s.setF (F.THM_CH_LAST_flags tag) flags).setF (F.THM_CH_LAST_value tag) (unsigned 24 c)).g f := by
  unfold thmKept
  dsimp only
  generalize hv : (s.setF (F.THM_CH_LAST_flags tag) flags).setF (F.THM_CH_LAST_value tag) (unsigned 24 c) = v
  have hthm : v.thm = s.thm := by rw [← hv]; rfl
  have hforce : v.inForce = s.inForce := by rw [← hv]; rfl
  have hdev : v.dev = s.dev := by rw [← hv]; rfl
  generalize hw : (if v.curOn (F.THM_CH_CFG_queue tag) = true then thmPush tag flags (unsigned 32 raw) v else v) = w
  obtain ⟨htodo, hacc, hif, hd, hg⟩ := thmPush_keeps tag flags (unsigned 32 raw) v
  have hkeep : w.thm.todo = s.thm.todo ∧ w.thm.accepted = s.thm.accepted ∧ w.inForce = s.inForce ∧ w.dev = s.dev ∧
      ∀ f : Field, f.key ≠ F.THM_Q_CTRL_ovf.key → f.key ≠ F.THM_Q_CTRL_queued.key → f.key ≠ (F.EVT_STICKY 0xE4).key → w.g f = v.g f := by
    rw [← hw]
    split
    · exact ⟨by rw [htodo, hthm], by rw [hacc, hthm], by rw [hif, hforce], by rw [hd, hdev], hg⟩
    · exact ⟨by rw [hthm], by rw [hthm], hforce, hdev, fun _ _ _ _ => rfl⟩
  obtain ⟨hwtodo, hwacc, hwif, hwd, hwg⟩ := hkeep
  obtain ⟨ctodo, -, -, cacc, cg, cif⟩ := thmConvert_keeps (modThm (fun t => { t with todo := t.todo.drop 1 }) w)
  refine ⟨?_, ?_, cif.trans hwif, hwd, fun f h1 h2 h3 h4 => (cg f h4).trans (hwg f h1 h2 h3)⟩
  · rw [ctodo, ← hwtodo]
    rfl
  · rw [cacc, ← hwacc]
    rfl

/-- R480: with room in the queue the result is queued under the next sequence number. -/
theorem thmKept_queued (tag flags : Nat) (raw c : Int) (s : State) (hqueue : s.curOn (F.THM_CH_CFG_queue tag) = true)
    (hroom : s.thm.queue.length < 128) : (thmKept tag flags raw c s).thm.seq = (s.thm.seq + 1) % 256 ∧
      (thmKept tag flags raw c s).thm.queue = s.thm.queue ++ [(tag, s.thm.seq, flags, unsigned 32 raw)] := by
  unfold thmKept
  dsimp only
  generalize hv : (s.setF (F.THM_CH_LAST_flags tag) flags).setF (F.THM_CH_LAST_value tag) (unsigned 24 c) = v
  have hthm : v.thm = s.thm := by rw [← hv]; rfl
  have hon : v.curOn (F.THM_CH_CFG_queue tag) = true := by rw [← hv]; exact hqueue
  obtain ⟨-, cqueue, cseq, -, -, -⟩ := thmConvert_keeps (modThm (fun t => { t with todo := t.todo.drop 1 })
    (thmPush tag flags (unsigned 32 raw) v))
  rw [if_pos hon, cqueue, cseq]
  have hpush : (thmPush tag flags (unsigned 32 raw) v).thm.seq = (v.thm.seq + 1) % 256 ∧
      (thmPush tag flags (unsigned 32 raw) v).thm.queue = v.thm.queue ++ [(tag, v.thm.seq, flags, unsigned 32 raw)] := by
    unfold thmPush
    dsimp only
    rw [if_neg (by rw [hthm]; omega)]
    exact ⟨rfl, rfl⟩
  rw [hthm] at hpush
  exact hpush

/-- R475: a correction may use a free value; it leaves everything else. -/
theorem thmCorrect_keeps (raw : Int) (s : State) : (thmCorrect raw s).2.fields = s.fields ∧ (thmCorrect raw s).2.inForce = s.inForce ∧
    (thmCorrect raw s).2.thm = s.thm ∧ (thmCorrect raw s).2.dev = s.dev := by
  unfold thmCorrect
  dsimp only
  split <;> exact ⟨rfl, rfl, rfl, rfl⟩

/-- R475: the flags of a result inside the range: REF_NR, UNCAL and the crystal's loss. -/
def thmFlags (s : State) : Nat := s.thm.gap.toNat + 4 * (!s.thm.passed).toNat + 8 * (!s.on F.HMP_STAT_aon_xtal_lock).toNat

/-- R475: device time at the end of the conversion of channel `tag`. -/
def thmAt (tag : Nat) (s : State) : State := s.reach (s.thm.convAt + thmSpan s tag)

/-- R476: the filtered value that `c` gives channel `tag`. -/
def thmFiltered (tag : Nat) (c : Int) (s : State) : Int :=
  let f := signed 24 (s.g (F.THM_CH_FILT_value tag))
  let k := s.cur (F.THM_CH_CFG_filt_k tag)
  if Tbl.get false s.thm.accepted tag then roundEven (f * 2 ^ k + (c - f)) (2 ^ k) else c

/-- R476: a filtered value is accepted. -/
def thmAccept (tag : Nat) (f : Int) (s : State) : State :=
  modThm (fun t => { t with accepted := Tbl.set false t.accepted tag true }) (s.setF (F.THM_CH_FILT_value tag) (unsigned 24 f))

/-- R475, R476: the corrected result `p` of channel `tag` is kept, and filtered unless it is flagged REF_NR or UNCAL. -/
def thmEnd (tag flags : Nat) (raw : Int) (p : Int × State) : Option Int × State :=
  let v := thmKept tag flags raw p.1 p.2
  if flags % 2 = 1 ∨ flags / 4 % 2 = 1 then (none, v)
  else (some (thmFiltered tag p.1 v), thmAccept tag (thmFiltered tag p.1 v) v)

theorem thmResult_eq (tag : Nat) (w : List (BitVec 24)) (s : State) :
    thmResult tag w none s = thmEnd tag (thmFlags (thmAt tag s)) (thmRaw (thmAt tag s) tag w none)
      (thmCorrect (thmRaw (thmAt tag s) tag w none) (thmAt tag s)) := by
  unfold thmResult
  dsimp only
  rw [← thmAt]
  rfl

theorem thmAt_keeps (tag : Nat) (s : State) : (thmAt tag s).thm = s.thm ∧ (thmAt tag s).inForce = s.inForce ∧
    (thmAt tag s).fields = s.fields ∧ (thmAt tag s).dev = s.dev :=
  ⟨State.reach_thm .., State.reach_inForce .., State.reach_fields .., State.reach_dev ..⟩

theorem thmFlags_at (tag : Nat) (s : State) : thmFlags (thmAt tag s) = thmFlags s := by
  obtain ⟨hthm, -, hfields, -⟩ := thmAt_keeps tag s
  rw [thmFlags, hthm, on_of_fields hfields, thmFlags]

theorem thmRaw_at (tag : Nat) (w : List (BitVec 24)) (s : State) : thmRaw (thmAt tag s) tag w none =
    windowSum (s.cur (F.THM_CH_CFG_avg_n tag)) (w.take (2 ^ s.cur (F.THM_CH_CFG_avg_n tag))) := by
  rw [thmRaw, State.cur, (thmAt_keeps tag s).2.1]
  rfl

/-- R475, R483: what follows a result: the rules take a filtered value. -/
def thmAfter (tag : Nat) (p : Option Int × State) : State :=
  match p.1 with
  | some f => boot (rulesThermos tag f p.2)
  | none => p.2

theorem exec_thmResult_eq (tag : Fin 52) (w : List (BitVec 24)) (s : State) (hvaon : s.dev.vaon = true)
    (hseq : s.on F.THM_STAT_seq_busy = true) (htag : s.thm.todo.head? = some tag.val) :
    exec (.thmResult tag w none) s = .next (thmAfter tag.val (thmResult tag.val w none s)) := by
  rw [exec_thmResult, execThmResult, if_pos ⟨hvaon, hseq, htag⟩]
  generalize thmResult tag.val w none s = p
  rfl

theorem exec_thmResult_queues (tag : Fin 52) (w : List (BitVec 24)) (s : State) (hvaon : s.dev.vaon = true)
    (hseq : s.on F.THM_STAT_seq_busy = true) (htag : s.thm.todo.head? = some tag.val) (hpassed : s.thm.passed = false)
    (hqueue : s.curOn (F.THM_CH_CFG_queue tag.val) = true) (hroom : s.thm.queue.length < 128) :
    ∃ t, exec (.thmResult tag w none) s = .next t ∧ t.thm.todo = s.thm.todo.drop 1 ∧ t.thm.seq = (s.thm.seq + 1) % 256 ∧
      t.thm.queue = s.thm.queue ++ [(tag.val, s.thm.seq, t.g (F.THM_CH_LAST_flags tag.val),
        unsigned 32 (windowSum (s.cur (F.THM_CH_CFG_avg_n tag.val)) (w.take (2 ^ s.cur (F.THM_CH_CFG_avg_n tag.val)))))] ∧
      t.g (F.THM_CH_LAST_flags tag.val) = s.thm.gap.toNat + 4 + 8 * (!s.on F.HMP_STAT_aon_xtal_lock).toNat ∧
      t.g (F.THM_CH_FILT_value tag.val) = s.g (F.THM_CH_FILT_value tag.val) := by
  have hflags : thmFlags s = s.thm.gap.toNat + 4 + 8 * (!s.on F.HMP_STAT_aon_xtal_lock).toNat := by rw [thmFlags, hpassed]; rfl
  have huncal : thmFlags s / 4 % 2 = 1 := by
    rw [hflags]
    cases s.thm.gap <;> cases s.on F.HMP_STAT_aon_xtal_lock <;> rfl
  have hsmall : thmFlags s < 64 := by
    rw [hflags]
    cases s.thm.gap <;> cases s.on F.HMP_STAT_aon_xtal_lock <;> decide
  refine ⟨_, exec_thmResult_eq tag w s hvaon hseq htag, ?_⟩
  rw [thmResult_eq, thmRaw_at, thmFlags_at, thmEnd, if_pos (.inr huncal)]
  generalize windowSum (s.cur (F.THM_CH_CFG_avg_n tag.val)) (w.take (2 ^ s.cur (F.THM_CH_CFG_avg_n tag.val))) = raw
  obtain ⟨hthm, hforce, hfields, -⟩ := thmAt_keeps tag.val s
  obtain ⟨cfields, cforce, cthm, -⟩ := thmCorrect_keeps raw (thmAt tag.val s)
  generalize thmCorrect raw (thmAt tag.val s) = p at cfields cforce cthm
  dsimp only [thmAfter]
  obtain ⟨ktodo, -, -, -, kg⟩ := thmKept_keeps tag.val (thmFlags s) raw p.1 p.2
  have hq : p.2.curOn (F.THM_CH_CFG_queue tag.val) = true := by rw [State.curOn, State.cur, cforce, hforce]; exact hqueue
  obtain ⟨kseq, kqueue⟩ := thmKept_queued tag.val (thmFlags s) raw p.1 p.2 hq (by rw [cthm, hthm]; exact hroom)
  have hlast : (thmKept tag.val (thmFlags s) raw p.1 p.2).g (F.THM_CH_LAST_flags tag.val) = thmFlags s := by
    rw [kg _ (by simp; omega) (by simp; omega) (by simp; omega) (by simp; omega), g_setF_other _ _ (by simp), g_setF_same]
    exact Nat.mod_eq_of_lt hsmall
  refine ⟨by rw [ktodo, cthm, hthm], by rw [kseq, cthm, hthm], by rw [kqueue, hlast, cthm, hthm], by rw [hlast, hflags], ?_⟩
  rw [kg _ (by simp; omega) (by simp; omega) (by simp; omega) (by simp; omega),
    g_setF_other _ _ (by simp), g_setF_other _ _ (by simp; omega), g_of_fields (cfields.trans hfields)]

/-- R483: a channel that no rule reads moves no rule. -/
theorem rulesThermos_of_unread {tag : Nat} (f : Int) {s : State} (h : ∀ r, r < 32 → ruleReads s.inForce r tag = false) :
    rulesThermos tag f s = s := by
  have hnil : ((List.range 32).filter fun r => ruleReads s.inForce r tag && ruleLive s r) = [] :=
    List.filter_eq_nil_iff.2 fun r hr => by simp [h r (List.mem_range.1 hr)]
  unfold rulesThermos
  dsimp only [thmAfter]
  rw [hnil]
  rfl

theorem exec_thmResult_filters (tag : Fin 52) (w : List (BitVec 24)) (c : Int) (s : State) (hvaon : s.dev.vaon = true) (hset : settled s)
    (hseq : s.on F.THM_STAT_seq_busy = true) (htag : s.thm.todo.head? = some tag.val) (hpassed : s.thm.passed = true)
    (hgap : s.thm.gap = false) (hrules : ∀ r, r < 32 → ruleReads s.inForce r tag.val = false)
    (hfirst : Tbl.get false s.thm.accepted tag.val = false) (hlow : -8388608 ≤ c) (hhigh : c ≤ 8388607)
    (hc : roundEven ((windowSum (s.cur (F.THM_CH_CFG_avg_n tag.val)) (w.take (2 ^ s.cur (F.THM_CH_CFG_avg_n tag.val))) -
      signed 24 (s.g F.THM_OFFSET_offset)) * (s.g F.THM_GAIN_gain : Int)) 4194304 = c) :
    ∃ t, exec (.thmResult tag w none) s = .next t ∧ t.g (F.THM_CH_LAST_value tag.val) = unsigned 24 c ∧
      t.g (F.THM_CH_FILT_value tag.val) = unsigned 24 c ∧ Tbl.get false t.thm.accepted tag.val = true := by
  have hgood : ¬ (thmFlags s % 2 = 1 ∨ thmFlags s / 4 % 2 = 1) := by
    rw [thmFlags, hpassed, hgap]
    cases s.on F.HMP_STAT_aon_xtal_lock <;> decide
  obtain ⟨hthm, hforce, hfields, hdev⟩ := thmAt_keeps tag.val s
  refine ⟨_, exec_thmResult_eq tag w s hvaon hseq htag, ?_⟩
  rw [thmResult_eq, thmRaw_at, thmFlags_at, thmEnd, if_neg hgood]
  have hcorrect : ∀ raw, roundEven ((raw - signed 24 (s.g F.THM_OFFSET_offset)) * (s.g F.THM_GAIN_gain : Int)) 4194304 = c →
      thmCorrect raw (thmAt tag.val s) = (c, thmAt tag.val s) := by
    intro raw hraw
    unfold thmCorrect
    rw [g_of_fields hfields, g_of_fields hfields, hraw]
    exact if_pos ⟨hlow, hhigh⟩
  rw [hcorrect _ hc]
  dsimp only [thmAfter]
  generalize windowSum (s.cur (F.THM_CH_CFG_avg_n tag.val)) (w.take (2 ^ s.cur (F.THM_CH_CFG_avg_n tag.val))) = raw
  obtain ⟨-, kacc, kforce, kdev, kg⟩ := thmKept_keeps tag.val (thmFlags s) raw c (thmAt tag.val s)
  have hlast : (thmKept tag.val (thmFlags s) raw c (thmAt tag.val s)).g (F.THM_CH_LAST_value tag.val) = unsigned 24 c := by
    rw [kg _ (by simp; omega) (by simp; omega) (by simp; omega) (by simp; omega), g_setF_same]
    exact Nat.mod_eq_of_lt (unsigned_lt 24 c)
  generalize thmKept tag.val (thmFlags s) raw c (thmAt tag.val s) = v at kacc kforce kdev hlast
  have hfilt : thmFiltered tag.val c v = c := by rw [thmFiltered, kacc, hthm, hfirst]; rfl
  rw [hfilt, rulesThermos_of_unread c (by rw [thmAccept]; exact (kforce.trans hforce) ▸ hrules),
    boot_of_not_pending (s := thmAccept tag.val c v) ((congrArg Dev.bootPending (kdev.trans hdev)).trans hset.1)]
  refine ⟨?_, ?_, Tbl.get_set_same false v.thm.accepted tag.val true⟩
  · rw [← hlast]
    exact g_setF_other v _ (by simp)
  · exact (g_setF_same v _ _).trans (Nat.mod_eq_of_lt (unsigned_lt 24 c))

/-! ## Path tests (R509, R510) -/

theorem testBit_sub_two_pow {v i : Nat} (h : v.testBit i = true) : (v - 2 ^ i).testBit i = false := by
  rw [Nat.testBit_eq_decide_div_mod_eq] at h ⊢
  have hodd : v / 2 ^ i % 2 = 1 := of_decide_eq_true h
  have hle : 2 ^ i * 1 ≤ v := by
    by_contra hlt
    rw [Nat.div_eq_of_lt (by omega)] at hodd
    omega
  have hdiv := Nat.sub_mul_div v (2 ^ i) 1
  rw [Nat.mul_one] at hdiv
  rw [hdiv]
  exact decide_eq_false (by omega)

/-- The verdict of a path test as the bit of its channel. -/
def withVerdict (bad : Bool) (i v : Nat) : Nat := if bad then v ||| 2 ^ i else if v.testBit i then v - 2 ^ i else v

theorem testBit_withVerdict (bad : Bool) (i v : Nat) : (withVerdict bad i v).testBit i = bad := by
  unfold withVerdict
  cases bad with
  | true => rw [if_pos rfl, Nat.testBit_lor, Nat.testBit_two_pow_self, Bool.or_true]
  | false =>
    rw [if_neg Bool.false_ne_true]
    split
    · next h => exact testBit_sub_two_pow h
    · next h => exact Bool.eq_false_iff.2 h

/-- The field that holds a channel's verdict. -/
def verdictField (k : Nat) : Field := if k < 32 then F.REP_THM_FAIL_LO_bits else F.REP_THM_FAIL_HI_bits

theorem verdictField_width {k : Nat} (hk : k < 48) : k % 32 < (verdictField k).width := by
  unfold verdictField
  split
  · exact Nat.mod_lt k (by decide)
  · exact show k % 32 < 16 by omega

theorem verdictField_ne_sticky (k : Nat) : (verdictField k).key ≠ (F.EVT_STICKY 0xF0).key := by
  unfold verdictField
  split <;> decide

/-- What a path test leaves before its event. -/
def pathJudged (k : Nat) (bad : Bool) (s : State) : State := s.setF (verdictField k) (withVerdict bad (k % 32) (s.g (verdictField k)))

theorem pathJudged_testBit {k : Nat} (hk : k < 48) (bad : Bool) (s : State) :
    ((pathJudged k bad s).g (verdictField k)).testBit (k % 32) = bad := by
  rw [pathJudged, g_setF_same, Nat.testBit_mod_two_pow, testBit_withVerdict, decide_eq_true (verdictField_width hk), Bool.true_and]

theorem exec_pathTest_judges (k : Fin 48) (seen ref : BitVec 24) (s : State) (hen : s.on F.REP_CTRL_test_en = true)
    (hthm : s.on F.REP_CTRL_thm_test_en = true) (hseq : s.on F.THM_STAT_seq_busy = true)
    (hch : s.curOn (F.THM_CH_CFG_en k.val) = true) :
    ∃ t, exec (.pathTest k seen ref) s = .next t ∧
      (t.g (if k.val < 32 then F.REP_THM_FAIL_LO_bits else F.REP_THM_FAIL_HI_bits)).testBit (k.val % 32) =
        decide (ref.toInt.natAbs < (seen.toInt - ref.toInt).natAbs * 1000) ∧
      (ref.toInt.natAbs < (seen.toInt - ref.toInt).natAbs * 1000 → t.sticky 0xF0 7) := by
  refine ⟨_, by rw [exec_pathTest, execPathTest, if_pos ⟨hen, hthm, hseq, hch⟩], ?_⟩
  generalize testRun (16 + k.val) 3600000000000 s = r
  generalize r.reach (r.now + 20000000) = r'
  change ((if _ then State.evt 0xF0 7 (pathJudged k.val _ r') else pathJudged k.val _ r').g (verdictField k.val)).testBit _ = _ ∧
    (_ → (if _ then State.evt 0xF0 7 (pathJudged k.val _ r') else pathJudged k.val _ r').sticky 0xF0 7)
  by_cases hbad : ref.toInt.natAbs < (seen.toInt - ref.toInt).natAbs * 1000
  · rw [if_pos (decide_eq_true hbad)]
    refine ⟨?_, fun _ => sticky_evt _ _ _ (by decide)⟩
    rw [g_evt_other _ _ _ (verdictField_ne_sticky k.val)]
    exact pathJudged_testBit k.isLt _ _
  · rw [if_neg (by rw [decide_eq_false hbad]; exact Bool.false_ne_true)]
    exact ⟨pathJudged_testBit k.isLt _ _, fun h => absurd h hbad⟩

/-- Settles O53, clause by clause. -/
theorem thermosConverts : Obligations.ThermosConverts :=
  ⟨exec_thmTimerTrigger_starts, exec_thmTimerTrigger_waits, exec_thmTrigGo_overflows, exec_thmTrigGo_starts, exec_thmCalGo_starts,
    exec_thmCalGo_refused, exec_thmCalDone_passes, exec_thmCalDone_fails, exec_thmResult_queues, exec_thmResult_filters, exec_seqDone_ends,
    exec_seqDone_calibrates, exec_thmQPop_pops, exec_pathTest_judges⟩

end Sys2Proof.Machine

/-! Key commands and the tests of the cores (O45). -/

namespace Sys2Proof.Machine

/-! ## KEY_LOAD (R388, R389) -/

/-- The association that a key command names. -/
def keySa (words : List Word) : Nat := (words.getD 0 0).toNat % 1024

/-- Whether a key command is about the next slot. -/
def keyNext (words : List Word) : Bool := (words.getD 0 0).toNat / 2 ^ 31 == 1

/-- The wrapped key of a KEY_LOAD. -/
def keyBlob (words : List Word) : List Byte := (words.drop 1).flatMap fun w => toLe 4 w.toNat

section Load

variable {id : BitVec 16} {words : List Word} {q : List Byte} {s : State} (hserves : enclaveServes s = true)
  (hrefuse : keyRefuse words 13 s = 0) (hklk : s.enc.klk = some q)
include hserves hrefuse hklk

theorem exec_keyLoad_badBlob (hopen : (keyNext words && (assoc s (keySa words)).switch.isSome) = false)
    (hbad : Config.kwpUnwrap q (keyBlob words) = none) : exec (.keyLoad id words) s = .next (keyReply 0x21 3 id.toNat s) := by
  rw [exec_keyLoad, execKeyLoad, hserves, if_neg (by decide)]
  dsimp only
  rw [hrefuse, if_neg (by decide), ← keySa, ← keyNext, hopen, if_neg Bool.false_ne_true, hklk, Option.bind_some, ← keyBlob, hbad]

theorem exec_keyLoad_next {k : List Byte} (hnext : keyNext words = true) (hopen : (assoc s (keySa words)).switch = none)
    (hblob : Config.kwpUnwrap q (keyBlob words) = some k) (hlen : k.length = 36) (hnew : keyHeld s k = false) :
    exec (.keyLoad id words) s = .next (keyReply 0x21 0 id.toNat
      (saReport (keySa words) (modAssoc (keySa words) (fun a => { a with next := some k }) s))) := by
  rw [exec_keyLoad, execKeyLoad, hserves, if_neg (by decide)]
  dsimp only
  rw [hrefuse, if_neg (by decide), ← keySa, ← keyNext, hopen, Option.isSome_none, Bool.and_false, if_neg Bool.false_ne_true, hklk, Option.bind_some, ← keyBlob, hblob]
  dsimp only
  rw [if_neg (not_not_intro hlen), hnew, if_neg Bool.false_ne_true, hnext, if_pos rfl]

theorem exec_keyLoad_current {k : List Byte} (hcur : keyNext words = false)
    (hblob : Config.kwpUnwrap q (keyBlob words) = some k) (hlen : k.length = 36) (hnew : keyHeld s k = false) :
    exec (.keyLoad id words) s = .next (keyReply 0x21 0 id.toNat (modAssoc (keySa words) (fun a => { a with shadow := some k }) s)) := by
  rw [exec_keyLoad, execKeyLoad, hserves, if_neg (by decide)]
  dsimp only
  rw [hrefuse, if_neg (by decide), ← keySa, ← keyNext, hcur, Bool.false_and, if_neg Bool.false_ne_true, hklk, Option.bind_some, ← keyBlob, hblob]
  dsimp only
  rw [if_neg (not_not_intro hlen), hnew, if_neg Bool.false_ne_true, if_neg Bool.false_ne_true]

end Load

theorem keyNext_of_le {words : List Word} (h : 2 ^ 31 ≤ (words.getD 0 0).toNat) : keyNext words = true := by
  have hlt := (words.getD 0 0).isLt
  exact beq_iff_eq.2 (by omega)

theorem keyNext_of_lt {words : List Word} (h : (words.getD 0 0).toNat < 2 ^ 31) : keyNext words = false :=
  beq_eq_false_iff_ne.2 (by omega)

theorem exec_keyLoad_forNext (id : BitVec 16) (words : List Word) (q : List Byte) (s : State) (hserves : enclaveServes s = true)
    (hbox : boxQuiet s 3) (hrefuse : keyRefuse words 13 s = 0) (hhigh : 2 ^ 31 ≤ (words.getD 0 0).toNat)
    (hopen : (assoc s (keySa words)).switch = none) (hklk : s.enc.klk = some q) :
    ∃ t, exec (.keyLoad id words) s = .next t ∧
      (∀ k, Config.kwpUnwrap q (keyBlob words) = some k → k.length = 36 → keyHeld s k = false →
        (assoc t (keySa words)).next = some k ∧ repliedWith t 3 0x21 0 id.toNat) ∧
      (Config.kwpUnwrap q (keyBlob words) = none → t.cip = s.cip ∧ repliedWith t 3 0x21 3 id.toNat) := by
  have hnext := keyNext_of_le hhigh
  obtain ⟨t, ht⟩ : ∃ t, exec (.keyLoad id words) s = .next t := by
    rw [exec_keyLoad, execKeyLoad]
    dsimp only
    repeat' first | exact ⟨_, rfl⟩ | split
  refine ⟨t, ht, fun k hk hlen hnew => ?_, fun hbad => ?_⟩
  · obtain rfl : _ = t := Host.Outcome.next.inj ((exec_keyLoad_next hserves hrefuse hklk hnext hopen hk hlen hnew).symm.trans ht)
    refine ⟨?_, repliedWith_keyReply _ _ _ (boxQuiet_saReport (by decide) _ (boxQuiet_modAssoc _ _ hbox))⟩
    rw [assoc_keyReply, assoc_saReport, assoc_modAssoc_same]
  · obtain rfl : _ = t := Host.Outcome.next.inj
      ((exec_keyLoad_badBlob hserves hrefuse hklk (by rw [hopen, Option.isSome_none, Bool.and_false]) hbad).symm.trans ht)
    exact ⟨keyReply_cip _ _ _ _, repliedWith_keyReply _ _ _ hbox⟩

theorem exec_keyLoad_forCurrent (id : BitVec 16) (words : List Word) (q : List Byte) (s : State) (hserves : enclaveServes s = true)
    (hbox : boxQuiet s 3) (hrefuse : keyRefuse words 13 s = 0) (hlow : (words.getD 0 0).toNat < 2 ^ 31) (hklk : s.enc.klk = some q) :
    ∃ t, exec (.keyLoad id words) s = .next t ∧ (assoc t (keySa words)).next = (assoc s (keySa words)).next ∧
      (∀ k, Config.kwpUnwrap q (keyBlob words) = some k → k.length = 36 → keyHeld s k = false →
        (assoc t (keySa words)).shadow = some k ∧ repliedWith t 3 0x21 0 id.toNat) ∧
      (Config.kwpUnwrap q (keyBlob words) = none → t.cip = s.cip ∧ repliedWith t 3 0x21 3 id.toNat) := by
  have hcur := keyNext_of_lt hlow
  have hopen : (keyNext words && (assoc s (keySa words)).switch.isSome) = false := by rw [hcur, Bool.false_and]
  cases hblob : Config.kwpUnwrap q (keyBlob words) with
  | none =>
    refine ⟨_, exec_keyLoad_badBlob hserves hrefuse hklk hopen hblob, ?_, fun _ h => (nomatch h), fun _ => ?_⟩
    · rw [assoc_keyReply]
    · exact ⟨keyReply_cip _ _ _ _, repliedWith_keyReply _ _ _ hbox⟩
  | some k =>
    by_cases hgood : k.length = 36 ∧ keyHeld s k = false
    · obtain ⟨hlen, hnew⟩ := hgood
      refine ⟨_, exec_keyLoad_current hserves hrefuse hklk hcur hblob hlen hnew, ?_, fun k' hk _ _ => ?_, fun h => (nomatch h)⟩
      · rw [assoc_keyReply, assoc_modAssoc_same]
      · rw [assoc_keyReply, assoc_modAssoc_same]
        exact ⟨hk, repliedWith_keyReply _ _ _ (boxQuiet_modAssoc _ _ hbox)⟩
    · obtain ⟨r, hr⟩ : ∃ r, exec (.keyLoad id words) s = .next (keyReply 0x21 r id.toNat s) := by
        rw [exec_keyLoad, execKeyLoad, hserves, if_neg (by decide)]
        dsimp only
        rw [hrefuse, if_neg (by decide), ← keySa, ← keyNext, hopen, if_neg Bool.false_ne_true, hklk, Option.bind_some, ← keyBlob, hblob]
        dsimp only
        split
        · exact ⟨_, rfl⟩
        · next hlen =>
          rw [if_pos (Bool.not_eq_false _ ▸ fun hnew => hgood ⟨of_not_not hlen, hnew⟩)]
          exact ⟨_, rfl⟩
      refine ⟨_, hr, by rw [assoc_keyReply], fun k' hk hlen hnew => ?_, fun h => (nomatch h)⟩
      cases hk
      exact absurd ⟨hlen, hnew⟩ hgood

/-! ## KEY_ERASE and KEY_ACTIVATE (R388, R389) -/

/-- What an accepted KEY_ERASE marks for erasure at the association's boundary. -/
def eraseMark (next : Bool) (a : Assoc) : Assoc := if next then { a with eraseNext := true } else { a with eraseCur := true }

theorem exec_keyErase_marks (id : BitVec 16) (words : List Word) (s : State) (hserves : enclaveServes s = true) (hbox : boxQuiet s 3)
    (hrefuse : keyRefuse words 1 s = 0) (hopen : 2 ^ 31 ≤ (words.getD 0 0).toNat → (assoc s (keySa words)).switch = none) :
    ∃ t, exec (.keyErase id words) s = .next t ∧ repliedWith t 3 0x22 0 id.toNat ∧
      (if 2 ^ 31 ≤ (words.getD 0 0).toNat then (assoc t (keySa words)).eraseNext = true
        else (assoc t (keySa words)).eraseCur = true) := by
  have hrun : exec (.keyErase id words) s = .next (keyReply 0x22 0 id.toNat (modAssoc (keySa words) (eraseMark (keyNext words)) s)) := by
    have hno : ¬ (0 = 0 ∧ keyNext words = true ∧ (assoc s (keySa words)).switch.isSome = true) := by
      rintro ⟨-, hnext, hset⟩
      rw [hopen (by by_contra hlow; rw [keyNext_of_lt (by omega)] at hnext; exact Bool.noConfusion hnext)] at hset
      exact Bool.noConfusion hset
    rw [exec_keyErase, execKeyErase, hserves, if_neg (by decide)]
    dsimp only
    rw [hrefuse, ← keySa, ← keyNext, if_neg hno]
    rfl
  refine ⟨_, hrun, repliedWith_keyReply _ _ _ (boxQuiet_modAssoc _ _ hbox), ?_⟩
  rw [assoc_keyReply, assoc_modAssoc_same]
  split
  · next hhigh => rw [keyNext_of_le hhigh]; rfl
  · next hlow => rw [keyNext_of_lt (by omega)]; rfl

theorem exec_keyActivate_noKey (id : BitVec 16) (words : List Word) (s : State) (hserves : enclaveServes s = true) (hbox : boxQuiet s 3)
    (hrefuse : keyRefuse words 3 s = 0) (hnone : (assoc s (keySa words)).next = none) (hopen : (assoc s (keySa words)).switch = none) :
    ∃ t, exec (.keyActivate id words) s = .next t ∧ repliedWith t 3 0x23 8 id.toNat ∧ t.cip = s.cip ∧
      t.g (F.CIP_CNT_count 8) = min (s.g (F.CIP_CNT_count 8) + 1) 0xFFFFFFFF := by
  refine ⟨keyReply 0x23 8 id.toNat s, ?_, repliedWith_keyReply _ _ _ hbox, keyReply_cip _ _ _ _, g_keyReply_refused _ _ _ (by decide)⟩
  rw [exec_keyActivate, execKeyActivate, hserves, if_neg (by decide)]
  dsimp only
  rw [hrefuse, ← keySa, hopen, hnone]
  simp [firstFail]

theorem exec_keyActivate_arms (id : BitVec 16) (i at' w2 : Word) (s : State) (hserves : enclaveServes s = true) (hbox : boxQuiet s 3)
    (hrefuse : keyRefuse [i, at', w2] 3 s = 0) (hw : w2.toNat % 2 = 0) (hheld : (assoc s (i.toNat % 1024)).next ≠ none)
    (hfrom : 1024 ≤ (at'.toNat + 2 ^ 32 - unitNow s (i.toNat % 1024)) % 2 ^ 32)
    (hto : (at'.toNat + 2 ^ 32 - unitNow s (i.toNat % 1024)) % 2 ^ 32 ≤ 2 ^ 20) :
    ∃ t, exec (.keyActivate id [i, at', w2]) s = .next t ∧ repliedWith t 3 0x23 0 id.toNat ∧
      (assoc t (i.toNat % 1024)).switch = some at'.toNat ∧ t.on (F.CIP_SA_ST_switch_armed (i.toNat % 1024)) = true ∧
      t.g (F.CIP_SA_SWITCH_AT_at (i.toNat % 1024)) = at'.toNat := by
  have hlt : i.toNat % 1024 < 1024 := Nat.mod_lt _ (by decide)
  have hrun : exec (.keyActivate id [i, at', w2]) s = .next (keyReply 0x23 0 id.toNat
      (saReport (i.toNat % 1024) (modAssoc (i.toNat % 1024) (fun a => { a with switch := some at'.toNat }) s))) := by
    have hsome : (assoc s (i.toNat % 1024)).next.isSome = true := Option.isSome_iff_ne_none.2 hheld
    have hsoon : (w2.toNat % 2 == 1) = false := by rw [hw]; rfl
    rw [exec_keyActivate, execKeyActivate, hserves, if_neg (by decide)]
    dsimp only
    rw [show [i, at', w2].getD 2 0 = w2 from rfl, show [i, at', w2].getD 1 0 = at' from rfl, show [i, at', w2].getD 0 0 = i from rfl,
      hrefuse, hsome, hsoon, if_neg Bool.false_ne_true, Bool.false_and, Bool.false_and, decide_eq_true hfrom, decide_eq_true hto]
    rfl
  refine ⟨_, hrun, repliedWith_keyReply _ _ _ (boxQuiet_saReport (by decide) _ (boxQuiet_modAssoc _ _ hbox)), ?_, ?_, ?_⟩
  · rw [assoc_keyReply, assoc_saReport, assoc_modAssoc_same]
  · rw [State.on, g_keyReply_done _ _ _ (by simp; omega), saReport, assoc_modAssoc_same]
    dsimp only
    rw [g_setF_other _ _ (by simp; omega), g_setF_other _ _ (by simp; omega)]
    exact on_setB _ _ _ rfl
  · rw [g_keyReply_done _ _ _ (by simp; omega), saReport, assoc_modAssoc_same]
    dsimp only
    rw [g_setF_other _ _ (by simp), g_setF_same]
    exact Nat.mod_eq_of_lt at'.isLt

/-! ## Tests of the cores (R405, R406) -/

theorem g_cipherLoad_other (s : State) {f : Field} (hf : 0xC8080 * 8 ≤ f.key) : (cipherLoad s).g f = s.g f := by
  refine (Fits.cipherLoad _ (Fits.refl (Sparing [.reg f.key]) s) ?_).g_spared (by simp)
  repeat' first | with_reducible intro _ | with_reducible constructor
  all_goals simp [Sparing]
  all_goals omega

/-- The load of the cipher clears no sticky bit. -/
theorem sticky_cipherLoad_of {p b : Nat} {s : State} (hb : b < 32) (h : s.sticky p b) : (cipherLoad s).sticky p b := by
  rw [cipherLoad]
  refine sticky_level_of _ _ _ hb ?_
  iterate 2 refine sticky_setF _ (by simp; omega) ?_
  iterate 3 refine sticky_setF _ (by simp; omega) ?_
  exact h

theorem exec_coreTestStart_suspect (c : Fin 8) (chunks : Nat) (s : State) (hactive : s.g (F.CIP_CORE_STAT_state c.val) = 0)
    (hsuspect : s.on (F.CIP_CORE_STAT_suspect c.val) = true) :
    ∃ t, exec (.coreTestStart c chunks) s = .next t ∧ t.g (F.CIP_CORE_STAT_state c.val) = 1 ∧
      t.g (F.CIP_CNT_count 1) = min (s.g (F.CIP_CNT_count 1) + chunks) 0xFFFFFFFF ∧
      t.g (F.CIP_CNT_count 2) = min (s.g (F.CIP_CNT_count 2) + 1) 0xFFFFFFFF := by
  have hc := c.isLt
  refine ⟨_, by rw [exec_coreTestStart, execCoreTestStart, if_pos ⟨hactive, .inl hsuspect⟩, if_pos hsuspect], ?_⟩
  have hkept (u : State) (x : Cip) (f : Field) :
      State.g { (if chunks = 0 then u else u.datapath (802 + 4 * c.val) chunks) with cip := x } f = u.g f := by
    split <;> rfl
  rw [g_cipherLoad_other _ (by simp; omega), g_cipherLoad_other _ (by simp), g_cipherLoad_other _ (by simp), hkept, hkept, hkept]
  refine ⟨?_, ?_, ?_⟩
  · rw [g_bump_other _ _ (by simp; omega), g_bump_other _ _ (by simp; omega), g_setF_same]
    rfl
  · rw [g_bump_other _ _ (by simp), g_bump_same, g_setF_other _ _ (by simp; omega)]
    rfl
  · rw [g_bump_same, g_bump_other _ _ (by simp), g_setF_other _ _ (by simp; omega)]
    rfl

theorem exec_coreTestDone_passes (c : Fin 8) (s : State) (htest : s.g (F.CIP_CORE_STAT_state c.val) = 1) :
    ∃ t, exec (.coreTestDone c true) s = .next t ∧ t.g (F.CIP_CORE_STAT_state c.val) = 0 ∧
      t.on (F.CIP_CORE_STAT_suspect c.val) = false := by
  have hc := c.isLt
  refine ⟨_, by rw [exec_coreTestDone, execCoreTestDone, if_pos htest, if_pos rfl], ?_, ?_⟩
  · rw [g_cipherLoad_other _ (by simp; omega), g_setB_other _ _ (by simp), g_setF_same]
    rfl
  · rw [State.on, g_cipherLoad_other _ (by simp; omega)]
    exact on_setB _ _ _ rfl

theorem exec_coreTestDone_fails (c : Fin 8) (s : State) (htest : s.g (F.CIP_CORE_STAT_state c.val) = 1) :
    ∃ t, exec (.coreTestDone c false) s = .next t ∧ t.g (F.CIP_CORE_STAT_state c.val) = 2 ∧ t.sticky 0xC8 5 ∧
      t.g (F.CIP_CNT_count 3) = min (s.g (F.CIP_CNT_count 3) + 1) 0xFFFFFFFF := by
  have hc := c.isLt
  refine ⟨_, by rw [exec_coreTestDone, execCoreTestDone, if_pos htest, if_neg Bool.false_ne_true], ?_,
    sticky_cipherLoad_of (by decide) (sticky_evt _ _ _ (by decide)), ?_⟩
  · rw [g_cipherLoad_other _ (by simp; omega), g_evt_other _ _ _ (by simp; omega), g_bump_other _ _ (by simp; omega), g_setF_same]
    rfl
  · rw [g_cipherLoad_other _ (by simp), g_evt_other _ _ _ (by simp), g_bump_same, g_setF_other _ _ (by simp; omega), g_reach]
    rfl

/-- Settles O45: each clause is one command, by the reply it sends and what it leaves of the association or the core. -/
theorem keysAndCoresRun : Obligations.KeysAndCoresRun :=
  ⟨fun id words q s hserves hbox hrefuse hhigh hopen hklk => exec_keyLoad_forNext id words q s hserves hbox hrefuse hhigh hopen hklk,
    fun id words q s hserves hbox hrefuse hlow hklk => exec_keyLoad_forCurrent id words q s hserves hbox hrefuse hlow hklk,
    exec_keyErase_marks, exec_keyActivate_arms, exec_keyActivate_noKey, exec_coreTestStart_suspect, exec_coreTestDone_passes,
    exec_coreTestDone_fails⟩

end Sys2Proof.Machine

/-! The in-band key exchange (R395 to R400): its messages, its record and the keys. -/

namespace Sys2Proof.Machine

/-! ## What sending a message leaves -/

/-- The parts that a message of the overhead channel and random bytes change. -/
def MsgPart : Part → Prop
  | .glf _ => True
  | .drawn => True
  | _ => False

section Msg

variable {s t : State}

theorem Fits.msg_g (h : Fits MsgPart s t) (f : Field) : t.g f = s.g f := h.g id
theorem Fits.msg_cip (h : Fits MsgPart s t) : t.cip = s.cip := h.within .cip id
theorem Fits.msg_inForce (h : Fits MsgPart s t) : t.inForce = s.inForce := h.within .inForce id

theorem fits_ohPut (le q prec type : Nat) (body : List Byte) (h : Fits MsgPart s t) : Fits MsgPart s (ohPut le q prec type body t) :=
  Fits.ohPut _ _ _ _ _ _ h (by constructor; trivial)

theorem fits_kxCerts (j : Nat) (h : Fits MsgPart s t) : Fits MsgPart s (kxCerts j t) := by
  refine Fits.kxCerts _ _ h ?_
  repeat' first | with_reducible intro _ | constructor

theorem fits_drawBytes (n : Nat) (h : Fits MsgPart s t) : Fits MsgPart s (drawBytes n t).2 :=
  Fits.drawBytes _ _ h (by constructor)

theorem fits_draw (n : Nat) (h : Fits MsgPart s t) : Fits MsgPart s (t.draw n).2 := Fits.draw _ _ h trivial

end Msg

/-- A message put into an engine's overhead channel waits there (R274). -/
theorem sends_ohPut (le type : Nat) (body : List Byte) (s : State) : sends le type body (ohPut le 0 5 type body s) := by
  rw [sends, ohPut, eng_modGlf_same]
  dsimp only
  rw [Tbl.get_set_same]
  exact List.mem_append_left _ (List.mem_append_right _ (List.mem_singleton_self _))

theorem aborts_kxAbortSend (le reason : Nat) (body : List Byte) {s t : State} (h : t.inForce = s.inForce) :
    aborts le reason body s (kxAbortSend le reason body t) := by
  have hslot (c : Nat) : kxSlot t le c = kxSlot s le c := by simp only [kxSlot, h]
  rw [aborts, kxAbortSend, h, hslot]
  exact sends_ohPut ..

theorem fits_kxAbortSend (le reason : Nat) (body : List Byte) (s : State) : Fits MsgPart s (kxAbortSend le reason body s) :=
  fits_ohPut _ _ _ _ _ (.refl _ s)

theorem kxAbortSend_aborts (le reason : Nat) (body : List Byte) (s : State) :
    (kxAbortSend le reason body s).cip = s.cip ∧ aborts le reason body s (kxAbortSend le reason body s) :=
  ⟨(fits_kxAbortSend ..).msg_cip, aborts_kxAbortSend le reason body rfl⟩

/-! ## The record of an exchange -/

theorem g_modKx (j : Nat) (k : Kx → Kx) (s : State) (f : Field) : (modKx j k s).g f = s.g f := rfl

theorem modKx_inForce (j : Nat) (k : Kx → Kx) (s : State) : (modKx j k s).inForce = s.inForce := rfl

theorem kxRec_kxSend (j type : Nat) (body : List Byte) (s : State) :
    kxRec (kxSend j type body s) j = { kxRec s j with last := (type, body), sentAt := s.now } := by
  rw [kxSend, kxRec_of_cip (fits_ohPut _ _ _ _ _ (.refl _ _)).msg_cip, kxRec_modKx_same]

theorem g_kxSend (j type : Nat) (body : List Byte) (s : State) (f : Field) : (kxSend j type body s).g f = s.g f := by
  rw [kxSend, (fits_ohPut _ _ _ _ _ (.refl _ _)).msg_g, g_modKx]

theorem assoc_kxSend (j type : Nat) (body : List Byte) (s : State) (i : Nat) : assoc (kxSend j type body s) i = assoc s i := by
  rw [kxSend, assoc_of_cip (fits_ohPut _ _ _ _ _ (.refl _ _)).msg_cip, assoc_modKx]

theorem kxState_kxEnd (j result : Nat) (s : State) : kxState (kxEnd j result s) j = 0 := by
  rw [kxState, kxEnd]
  split
  · rw [g_evt_other _ _ _ (by simp; omega), g_bump_other _ _ (by simp; omega), g_setF_other _ _ (by simp), g_setF_same, Nat.zero_mod]
  · rw [g_evt_other _ _ _ (by simp; omega), g_bump_other _ _ (by simp; omega), g_setF_other _ _ (by simp), g_setF_same, Nat.zero_mod]

theorem result_kxEnd (j result : Nat) (s : State) : (kxEnd j result s).g (F.CIP_KX_STAT_result j) = result % 16 := by
  rw [kxEnd]
  split
  · rw [g_evt_other _ _ _ (by simp; omega), g_bump_other _ _ (by simp; omega), g_setF_same]
    rfl
  · rw [g_evt_other _ _ _ (by simp; omega), g_bump_other _ _ (by simp; omega), g_setF_same]
    rfl

theorem kxEnd_cip (j result : Nat) (s : State) : (kxEnd j result s).cip = (modKx j (fun _ => {}) s).cip := by
  rw [kxEnd]
  split <;> simp

theorem kxRec_kxEnd (j result : Nat) (s : State) : kxRec (kxEnd j result s) j = {} := by
  rw [kxRec_of_cip (kxEnd_cip ..), kxRec_modKx_same]

theorem assoc_kxEnd (j result : Nat) (s : State) (i : Nat) : assoc (kxEnd j result s) i = assoc s i := by
  rw [assoc_of_cip (kxEnd_cip ..), assoc_modKx]

theorem kxEnd_inForce (j result : Nat) (s : State) : (kxEnd j result s).inForce = s.inForce := by
  rw [kxEnd]
  split <;> simp [modKx]

theorem sticky_kxEnd {j result : Nat} (s : State) (h : result ≠ 1) : (kxEnd j result s).sticky 0xC8 8 := by
  rw [kxEnd]
  rw [if_neg h]
  exact sticky_evt _ _ _ (by decide)

/-! ## Authentication that fails (R395) -/

theorem kxAuthFail_none (s : State) : (kxAuthFail none s).cip = s.cip ∧ unproven s (kxAuthFail none s) := ⟨rfl, g_bump_same ..⟩

theorem kxAuthFail_some (j : Nat) (s : State) :
    kxState (kxAuthFail (some j) s) j = kxState s j ∧ (kxRec (kxAuthFail (some j) s) j).authBad = true ∧
      unproven s (kxAuthFail (some j) s) := by
  refine ⟨g_bump_other _ _ (by simp; omega), ?_, g_bump_same ..⟩
  rw [kxAuthFail]
  rw [kxRec_modKx_same]

/-! ## KX_INIT and KX_RESP (R399) -/

/-- The certificates and a message: the record keeps the message, and nothing else of it changes. -/
theorem kxSend_kxCerts (j type : Nat) (body : List Byte) (s : State) :
    (∀ f, (kxSend j type body (kxCerts j s)).g f = s.g f) ∧
      ∃ now, kxRec (kxSend j type body (kxCerts j s)) j = { kxRec s j with last := (type, body), sentAt := now } := by
  have h := fits_kxCerts j (.refl MsgPart s)
  exact ⟨fun f => by rw [g_kxSend, h.msg_g], _, by rw [kxRec_kxSend, kxRec_of_cip h.msg_cip]⟩

/-- What a record that begins an exchange sends, beside the random bytes drawn. -/
theorem kxInit_eq (j : Nat) (s : State) : ∃ body r d, Fits MsgPart s d ∧ r.again = false ∧
    kxInit j s = kxSend j 0x11 body (kxCerts j
      ((((modKx j (fun _ => r) d).setF (F.CIP_KX_STAT_state j) 1).setF (F.CIP_KX_STAT_role j) 0).setF (F.CIP_KX_STAT_result j) 0)) :=
  ⟨_, _, _, fits_drawBytes 6 (fits_drawBytes 4 (fits_draw 16 (.refl MsgPart s))), rfl, rfl⟩

theorem kxInit_starts (j : Nat) (s : State) :
    (kxState (kxInit j s) j = 1 ∧ (kxInit j s).g (F.CIP_KX_STAT_role j) = 0 ∧ (kxInit j s).g (F.CIP_KX_STAT_result j) = 0) ∧
      ((kxInit j s).g (F.CIP_KX_STAT_tx j) = s.g (F.CIP_KX_STAT_tx j) ∧ (kxInit j s).g (F.CIP_KX_STAT_rx j) = s.g (F.CIP_KX_STAT_rx j)) ∧
      (kxRec (kxInit j s) j).last.1 = 0x11 ∧ (kxRec (kxInit j s) j).again = false := by
  obtain ⟨body, r, d, hd, hr, heq⟩ := kxInit_eq j s
  obtain ⟨hg, now, hrec⟩ := kxSend_kxCerts j 0x11 body
    ((((modKx j (fun _ => r) d).setF (F.CIP_KX_STAT_state j) 1).setF (F.CIP_KX_STAT_role j) 0).setF (F.CIP_KX_STAT_result j) 0)
  rw [heq, kxState]
  simp only [hg, hrec]
  refine ⟨⟨?_, ?_, ?_⟩, ⟨?_, ?_⟩, trivial, ?_⟩
  · rw [g_setF_other _ _ (by simp), g_setF_other _ _ (by simp), g_setF_same]
    rfl
  · rw [g_setF_other _ _ (by simp), g_setF_same]
    rfl
  · rw [g_setF_same]
    rfl
  · rw [g_setF_other _ _ (by simp), g_setF_other _ _ (by simp), g_setF_other _ _ (by simp), g_modKx, hd.msg_g]
  · rw [g_setF_other _ _ (by simp), g_setF_other _ _ (by simp), g_setF_other _ _ (by simp), g_modKx, hd.msg_g]
  · exact (congrArg Kx.again (kxRec_modKx_same j (fun _ => r) d)).trans hr

/-- R399: the record that answers a KX_INIT. -/
def kxTaken (j tx rx : Nat) (s : State) : State :=
  ((((s.setF (F.CIP_KX_STAT_tx j) tx).setF (F.CIP_KX_STAT_rx j) rx).setF (F.CIP_KX_STAT_state j) 2).setF
    (F.CIP_KX_STAT_role j) 1).setF (F.CIP_KX_STAT_result j) 0

theorem kxRespond_eq (j tx rx : Nat) (body : List Byte) (s : State) : ∃ now resp keys msg d,
    Fits MsgPart (modKx j (fun _ => { xid := beNat body 0 2, init := body, began := now }) (kxTaken j tx rx s)) d ∧
    kxRespond j tx rx body s = kxSend j 0x12 msg (kxCerts j (modKx j (fun r => { r with resp := resp, held := some keys }) d)) :=
  ⟨_, _, _, _, _, fits_drawBytes 6 (fits_drawBytes 6 (fits_drawBytes 4 (.refl MsgPart _))), rfl⟩

theorem responded_kxRespond (j : Nat) {tx rx : Nat} (body : List Byte) (s : State) (htx : tx < 1024) (hrx : rx < 1024) :
    responded j tx rx body (kxRespond j tx rx body s) := by
  obtain ⟨now, resp, keys, msg, d, hd, heq⟩ := kxRespond_eq j tx rx body s
  obtain ⟨hg, now', hrec⟩ := kxSend_kxCerts j 0x12 msg (modKx j (fun r => { r with resp := resp, held := some keys }) d)
  have hreg (f : Field) : (kxRespond j tx rx body s).g f = (kxTaken j tx rx s).g f := by
    rw [heq, hg, g_modKx, hd.msg_g, g_modKx]
  rw [responded, kxState]
  simp only [hreg, kxTaken]
  rw [heq, hrec, kxRec_modKx_same, kxRec_of_cip hd.msg_cip, kxRec_modKx_same]
  refine ⟨?_, ?_, ?_, ?_, rfl, rfl⟩
  · rw [g_setF_other _ _ (by simp), g_setF_other _ _ (by simp), g_setF_same]
    rfl
  · rw [g_setF_other _ _ (by simp), g_setF_same]
    rfl
  · rw [g_setF_other _ _ (by simp), g_setF_other _ _ (by simp), g_setF_other _ _ (by simp), g_setF_other _ _ (by simp), g_setF_same]
    exact Nat.mod_eq_of_lt htx
  · rw [g_setF_other _ _ (by simp), g_setF_other _ _ (by simp), g_setF_other _ _ (by simp), g_setF_same]
    exact Nat.mod_eq_of_lt hrx

/-! ## KX_START (R399, R409) -/

section Congr

variable {s u : State} (hg : ∀ f, u.g f = s.g f)
include hg

theorem kxPolicy_congr (hin : u.inForce = s.inForce) (tx rx : Nat) : kxPolicy u tx rx = kxPolicy s tx rx := by
  simp only [kxPolicy, State.role, State.on, hg, hin]

theorem kxBusy_congr (ha : ∀ i, assoc u i = assoc s i) (henc : u.enc = s.enc) (tx rx : Nat) : kxBusy u tx rx = kxBusy s tx rx := by
  simp only [kxBusy, kxState, hg, ha, henc]

theorem kxFree_congr (hcip : u.cip = s.cip) : kxFree u = kxFree s := by simp only [kxFree, kxState, hg, kxRec, hcip]

end Congr

theorem kxStart_none {tx rx : Nat} {s : State} (h : kxFree s = none) : kxStart tx rx s = State.err 0xC9 0 0xE1 s := by
  unfold kxStart
  split
  · rfl
  next j hj => exact absurd (hj.symm.trans h) nofun

/-- The record that a start takes, with its associations. -/
def kxBound (j tx rx : Nat) (s : State) : State := (s.setF (F.CIP_KX_STAT_tx j) tx).setF (F.CIP_KX_STAT_rx j) rx

theorem kxStart_some (tx rx : Nat) {s : State} {j : Nat} (h : kxFree s = some j) : kxStart tx rx s =
    if (!kxPolicy s tx rx) = true then (kxBound j tx rx s).setF (F.CIP_KX_STAT_result j) 4
    else if kxBusy s tx rx = true then (kxBound j tx rx s).setF (F.CIP_KX_STAT_result j) 7
    else kxInit j (kxBound j tx rx s) := by
  unfold kxStart
  split
  next hn => exact absurd (hn.symm.trans h) nofun
  next k hk =>
    obtain rfl : k = j := Option.some.inj (hk.symm.trans h)
    rfl

theorem kxFree_state {s : State} {j : Nat} (h : kxFree s = some j) : kxState s j = 0 := by
  have hj := List.find?_some h
  rw [Bool.and_eq_true] at hj
  exact beq_iff_eq.mp hj.1

section Bound

variable (j : Nat) {tx rx : Nat} (s : State)

theorem kxBound_tx (htx : tx < 1024) : (kxBound j tx rx s).g (F.CIP_KX_STAT_tx j) = tx := by
  rw [kxBound, g_setF_other _ _ (by simp), g_setF_same]
  exact Nat.mod_eq_of_lt htx

theorem kxBound_rx (hrx : rx < 1024) : (kxBound j tx rx s).g (F.CIP_KX_STAT_rx j) = rx := by
  rw [kxBound, g_setF_same]
  exact Nat.mod_eq_of_lt hrx

/-- A start refused with result `r`. -/
theorem kxBound_refused (htx : tx < 1024) (hrx : rx < 1024) {r : Nat} (hr : r < 16) (h0 : kxState s j = 0) :
    (((kxBound j tx rx s).setF (F.CIP_KX_STAT_result j) r).g (F.CIP_KX_STAT_tx j) = tx ∧
      ((kxBound j tx rx s).setF (F.CIP_KX_STAT_result j) r).g (F.CIP_KX_STAT_rx j) = rx) ∧
      kxState ((kxBound j tx rx s).setF (F.CIP_KX_STAT_result j) r) j = 0 ∧
      ((kxBound j tx rx s).setF (F.CIP_KX_STAT_result j) r).g (F.CIP_KX_STAT_result j) = r := by
  refine ⟨⟨?_, ?_⟩, ?_, ?_⟩
  · rw [g_setF_other _ _ (by simp), kxBound_tx j s htx]
  · rw [g_setF_other _ _ (by simp), kxBound_rx j s hrx]
  · rw [kxState, g_setF_other _ _ (by simp), kxBound, g_setF_other _ _ (by simp), g_setF_other _ _ (by simp)]
    exact h0
  · rw [g_setF_same]
    exact Nat.mod_eq_of_lt hr

end Bound

theorem kxStart_takes {s : State} {j tx rx : Nat} (h : kxFree s = some j) (htx : tx < 1024) (hrx : rx < 1024) :
    ((kxStart tx rx s).g (F.CIP_KX_STAT_tx j) = tx ∧ (kxStart tx rx s).g (F.CIP_KX_STAT_rx j) = rx) ∧
      if kxPolicy s tx rx && !kxBusy s tx rx then
        kxState (kxStart tx rx s) j = 1 ∧ (kxStart tx rx s).g (F.CIP_KX_STAT_role j) = 0 ∧
          (kxStart tx rx s).g (F.CIP_KX_STAT_result j) = 0 ∧ (kxRec (kxStart tx rx s) j).last.1 = 0x11
      else kxState (kxStart tx rx s) j = 0 ∧ (kxStart tx rx s).g (F.CIP_KX_STAT_result j) = if kxPolicy s tx rx then 7 else 4 := by
  rw [kxStart_some tx rx h]
  cases hp : kxPolicy s tx rx with
  | false => simpa using kxBound_refused j s htx hrx (r := 4) (by decide) (kxFree_state h)
  | true =>
    cases hb : kxBusy s tx rx with
    | true => simpa using kxBound_refused j s htx hrx (r := 7) (by decide) (kxFree_state h)
    | false =>
      obtain ⟨⟨hst, hrole, hres⟩, ⟨ht, hr⟩, hlast, -⟩ := kxInit_starts j (kxBound j tx rx s)
      rw [kxBound_tx j s htx] at ht
      rw [kxBound_rx j s hrx] at hr
      exact ⟨⟨ht, hr⟩, hst, hrole, hres, hlast⟩

/-! ## The associations and the record of a message -/

theorem saOf_type {t : Tbl Nat} {ty le c i : Nat} (h : saOf t ty le c = some i) : i < 1024 ∧ saType t i = ty := by
  have hm := List.mem_range.mp (List.mem_of_find?_eq_some h)
  have hp := List.find?_some h
  simp only [Bool.and_eq_true, beq_iff_eq] at hp
  exact ⟨hm, hp.1.2⟩

theorem kxAssocs_some {s : State} {le : Nat} {body : List Byte} {tx rx : Nat} (h : kxAssocs s le body = some (tx, rx)) :
    tx < 1024 ∧ rx < 1024 ∧ tx ≠ rx := by
  unfold kxAssocs at h
  dsimp only at h
  split at h
  next htx hrx =>
    obtain ⟨rfl, rfl⟩ := Prod.mk.inj (Option.some.inj h)
    refine ⟨(saOf_type htx).1, (saOf_type hrx).1, ?_⟩
    rintro rfl
    exact absurd ((saOf_type htx).2.symm.trans (saOf_type hrx).2) (by decide)
  · cases h

theorem kxBy_some {s : State} {rx j : Nat} (h : kxBy s rx = some j) : j < 16 ∧ kxState s j ≠ 0 := by
  have hp := List.find?_some h
  simp only [Bool.and_eq_true, bne_iff_ne] at hp
  exact ⟨List.mem_range.mp (List.mem_of_find?_eq_some h), hp.1⟩

/-! ## The next keys (R399) -/

theorem g_modAssoc (i : Nat) (k : Assoc → Assoc) (s : State) (f : Field) : (modAssoc i k s).g f = s.g f := rfl

theorem modAssoc_inForce (i : Nat) (k : Assoc → Assoc) (s : State) : (modAssoc i k s).inForce = s.inForce := rfl

section Install

variable {tx rx : Nat} (kt kr : List Byte) (s : State)

theorem kxInstall_tx (h : tx ≠ rx) : assoc (kxInstall tx rx kt kr s) tx = { assoc s tx with next := some kt } := by
  rw [kxInstall, assoc_saReport, assoc_modAssoc_other _ _ h, assoc_saReport, assoc_modAssoc_same]

theorem kxInstall_rx (h : tx ≠ rx) : assoc (kxInstall tx rx kt kr s) rx = { assoc s rx with next := some kr } := by
  rw [kxInstall, assoc_saReport, assoc_modAssoc_same, assoc_saReport, assoc_modAssoc_other _ _ h.symm]

theorem kxInstall_kxRec (j : Nat) : kxRec (kxInstall tx rx kt kr s) j = kxRec s j := by
  rw [kxInstall, kxRec_saReport, kxRec_modAssoc, kxRec_saReport, kxRec_modAssoc]

theorem kxInstall_g {f : Field} (h : f.key < 0x310000 * 8) : (kxInstall tx rx kt kr s).g f = s.g f := by
  rw [kxInstall, g_saReport_other _ _ h, g_modAssoc, g_saReport_other _ _ h, g_modAssoc]

theorem saReport_inForce (i : Nat) (s : State) : (saReport i s).inForce = s.inForce := by simp [saReport]

theorem kxInstall_inForce : (kxInstall tx rx kt kr s).inForce = s.inForce := by
  rw [kxInstall, saReport_inForce, modAssoc_inForce, saReport_inForce, modAssoc_inForce]

/-- The frame counts of an engine stand in no register of an association. -/
theorem g_saReport_fc (i le : Nat) (s : State) : (saReport i s).g (F.LE_GLF_TX_FC_fc le) = s.g (F.LE_GLF_TX_FC_fc le) := by
  simp only [saReport]
  rw [g_setF_other _ _ (by simp; omega), g_setF_other _ _ (by simp; omega), g_setB_other _ _ (by simp; omega),
    g_setB_other _ _ (by simp; omega), g_setB_other _ _ (by simp; omega)]

theorem kxInstall_fc (le : Nat) : (kxInstall tx rx kt kr s).g (F.LE_GLF_TX_FC_fc le) = s.g (F.LE_GLF_TX_FC_fc le) := by
  rw [kxInstall, g_saReport_fc, g_modAssoc, g_saReport_fc, g_modAssoc]

end Install

/-! ## KX_SWITCH is sent (R399, R400) -/

/-- The count at which record `j` arms its transmit association. -/
def kxDueAt (j : Nat) (s : State) : Nat :=
  (s.g (F.LE_GLF_TX_FC_fc (saEngine s.inForce (s.g (F.CIP_KX_STAT_tx j)))) + s.g F.CIP_KX_TIME_kx_lead) % 2 ^ 32

/-- Record `j` in SWITCHING with its transmit association armed. -/
def kxArmed (j : Nat) (s : State) : State :=
  saReport (s.g (F.CIP_KX_STAT_tx j)) (modAssoc (s.g (F.CIP_KX_STAT_tx j)) (fun a => { a with switch := some (kxDueAt j s) })
    (s.setF (F.CIP_KX_STAT_state j) 4))

theorem kxSwitchSend_eq (j : Nat) (s : State) : ∃ body, kxSwitchSend j s = kxCheck j (kxSend j 0x15 body (kxArmed j s)) := ⟨_, rfl⟩

/-- R399: what the check of both switches leaves. -/
theorem kxCheck_eq (j : Nat) (s : State) (h : kxState s j = 4) :
    kxCheck j s = if ((kxRec s j).own && (kxRec s j).peer) = true then kxEnd j 1 s else s := by
  rw [kxCheck]
  simp only [h, true_and, Bool.and_eq_true]

section Switch

variable (j : Nat) (s : State)

theorem kxSwitchSend_switches (hj : j < 16) : switching j s (kxSwitchSend j s) ∧
    ((kxRec s j).held = none → (kxRec (kxSwitchSend j s) j).held = none) ∧
    ∀ i, (assoc (kxSwitchSend j s) i).next = (assoc s i).next := by
  obtain ⟨body, heq⟩ := kxSwitchSend_eq j s
  have hst : kxState (kxSend j 0x15 body (kxArmed j s)) j = 4 := by
    rw [kxState, g_kxSend, kxArmed, g_saReport_other _ _ (by simp; omega), g_modAssoc, g_setF_same]
    rfl
  have hrec : kxRec (kxSend j 0x15 body (kxArmed j s)) j = { kxRec s j with last := (0x15, body), sentAt := (kxArmed j s).now } := by
    rw [kxRec_kxSend, kxArmed, kxRec_saReport]
    rfl
  have hsw : (assoc (kxSend j 0x15 body (kxArmed j s)) (s.g (F.CIP_KX_STAT_tx j))).switch = some (kxDueAt j s) := by
    rw [assoc_kxSend, kxArmed, assoc_saReport, assoc_modAssoc_same]
  have hnext (i : Nat) : (assoc (kxSend j 0x15 body (kxArmed j s)) i).next = (assoc s i).next := by
    rw [assoc_kxSend, kxArmed, assoc_saReport]
    by_cases hi : i = s.g (F.CIP_KX_STAT_tx j)
    · rw [hi, assoc_modAssoc_same]
      rfl
    · rw [assoc_modAssoc_other _ _ hi]
      rfl
  rw [heq, kxCheck_eq _ _ hst, hrec]
  dsimp only
  generalize kxSend j 0x15 body (kxArmed j s) = u at *
  rw [switching]
  split
  next hboth =>
    refine ⟨⟨by rw [assoc_kxEnd]; exact hsw, ?_⟩, fun _ => by rw [kxRec_kxEnd], fun i => by rw [assoc_kxEnd, hnext]⟩
    exact ⟨kxState_kxEnd .., result_kxEnd ..⟩
  next hboth =>
    refine ⟨⟨hsw, ?_⟩, fun h => by rw [hrec]; exact h, hnext⟩
    exact ⟨hst, by rw [hrec]⟩

theorem switching_congr {s u t : State} {j : Nat} (h : switching j u t) (hg : u.g (F.CIP_KX_STAT_tx j) = s.g (F.CIP_KX_STAT_tx j))
    (hin : u.inForce = s.inForce) (hfc : ∀ le, u.g (F.LE_GLF_TX_FC_fc le) = s.g (F.LE_GLF_TX_FC_fc le))
    (hlead : u.g F.CIP_KX_TIME_kx_lead = s.g F.CIP_KX_TIME_kx_lead) (hown : (kxRec u j).own = (kxRec s j).own)
    (hpeer : (kxRec u j).peer = (kxRec s j).peer) : switching j s t := by
  rw [switching, hg, hin, hfc, hlead, hown, hpeer] at h
  exact h

end Switch

/-! ## Messages that concern a record -/

/-- A message is answered by cases: it names no associations, they have no record, or they have one. -/
theorem kxMessage_runs {s : State} {le : Nat} {body : List Byte} {o : Host.Outcome State Fault Refusal}
    {P : Nat → Nat → Nat → State → Prop} (hnone : kxAssocs s le body = none → o = .next s)
    (hfree : ∀ tx rx, kxAssocs s le body = some (tx, rx) → kxBy s rx = none → o = .next s)
    (hrec : ∀ tx rx j, kxAssocs s le body = some (tx, rx) → kxBy s rx = some j → ∃ t, o = .next t ∧ P tx rx j t) :
    ∃ t, o = .next t ∧ (kxAssocs s le body = none → t = s) ∧
      ∀ tx rx, kxAssocs s le body = some (tx, rx) → (kxBy s rx = none → t = s) ∧ ∀ j, kxBy s rx = some j → P tx rx j t := by
  cases ha : kxAssocs s le body with
  | none => exact ⟨s, hnone ha, fun _ => rfl, nofun⟩
  | some a =>
    obtain ⟨tx, rx⟩ := a
    cases hb : kxBy s rx with
    | none =>
      refine ⟨s, hfree tx rx ha hb, nofun, ?_⟩
      rintro _ _ ⟨⟩
      exact ⟨fun _ => rfl, fun j hj => nomatch (hb.symm.trans hj)⟩
    | some j =>
      obtain ⟨t, ho, ht⟩ := hrec tx rx j ha hb
      refine ⟨t, ho, nofun, ?_⟩
      rintro _ _ ⟨⟩
      refine ⟨fun h => absurd (hb.symm.trans h) (Option.some_ne_none j), fun k hk => ?_⟩
      obtain rfl : j = k := Option.some.inj (hb.symm.trans hk)
      exact ht

section Exec

variable {s : State} {body : List Byte} {tx rx j : Nat}

/-! ### KX_RESP -/

/-- The initiator's record, its keys derived and its message kept. -/
def kxConfirmed (tx rx j : Nat) (ir ri resp : List Byte) (s : State) : State :=
  (modKx j (fun k => { k with priv := [], resp := resp }) (kxInstall tx rx ir ri s)).setF (F.CIP_KX_STAT_state j) 3

theorem kxConfirmed_sent (hne : tx ≠ rx) (ir ri resp msg : List Byte) {d : State}
    (hd : Fits MsgPart (kxConfirmed tx rx j ir ri resp s) d) :
    kxState (kxSend j 0x13 msg d) j = 3 ∧ (kxRec (kxSend j 0x13 msg d) j).priv = [] ∧ (kxRec (kxSend j 0x13 msg d) j).last.1 = 0x13 ∧
      (assoc (kxSend j 0x13 msg d) tx).next = some ir ∧ (assoc (kxSend j 0x13 msg d) rx).next = some ri := by
  have hpriv : (kxRec d j).priv = [] := by
    rw [kxRec_of_cip hd.msg_cip, kxConfirmed, kxRec_of_cip (State.setF_cip ..), kxRec_modKx_same]
  have hassoc (i : Nat) : assoc d i = assoc (kxInstall tx rx ir ri s) i := by
    rw [assoc_of_cip hd.msg_cip, kxConfirmed, assoc_of_cip (State.setF_cip ..), assoc_modKx]
  refine ⟨?_, by rw [kxRec_kxSend]; exact hpriv, by rw [kxRec_kxSend], ?_, ?_⟩
  · rw [kxState, g_kxSend, hd.msg_g, kxConfirmed, g_setF_same]
    rfl
  · rw [assoc_kxSend, hassoc, kxInstall_tx _ _ _ hne]
  · rw [assoc_kxSend, hassoc, kxInstall_rx _ _ _ hne]

theorem execKxResp_record (le : Fin 2) (ha : kxAssocs s le.val body = some (tx, rx)) (hb : kxBy s rx = some j) :
    ∃ t, execKxResp le body s = .next t ∧ (kxState s j ≠ 1 ∨ (kxRec s j).xid ≠ beNat body 0 2 → t = s) ∧
      (kxState s j = 1 → (kxRec s j).xid = beNat body 0 2 →
        if kxSigned s le.val rx (beNat body 0 2) ((kxRec s j).init ++ body.take 133) (body.drop 133) then
          kxState t j = 3 ∧ (kxRec t j).priv = [] ∧ (kxRec t j).last.1 = 0x13 ∧
          ((assoc t tx).next, (assoc t rx).next) = (fun k : List Byte × List Byte => (some k.1, some k.2))
            (kxKeys (kxRec s j).priv ((body.drop 36).take 97) (kxRec s j).init (body.take 133))
        else kxState t j = 1 ∧ (kxRec t j).authBad = true ∧ unproven s t) := by
  unfold execKxResp
  simp only [ha, Option.bind_some, hb, Option.map_some]
  split
  next h => exact ⟨s, rfl, fun _ => rfl, fun h1 h2 => h.elim (absurd h1) (absurd h2)⟩
  next h =>
    push Not at h
    obtain ⟨hst, hx⟩ := h
    obtain ⟨hfst, hfrec, hcount⟩ := kxAuthFail_some j s
    rw [hst] at hfst
    split
    next hpub =>
      refine ⟨_, rfl, fun h => h.elim (absurd hst) (absurd hx), fun _ _ => ?_⟩
      rw [if_neg (by rw [kxSigned, ← hx, hpub]; exact Bool.false_ne_true)]
      exact ⟨hfst, hfrec, hcount⟩
    next pub hpub =>
      split
      next hv =>
        refine ⟨_, rfl, fun h => h.elim (absurd hst) (absurd hx), fun _ _ => ?_⟩
        rw [if_neg (by rw [kxSigned, ← hx, hpub]; simpa using hv)]
        exact ⟨hfst, hfrec, hcount⟩
      next hv =>
        refine ⟨_, rfl, fun h => h.elim (absurd hst) (absurd hx), fun _ _ => ?_⟩
        rw [if_pos (by rw [kxSigned, ← hx, hpub]; simpa using hv)]
        obtain ⟨h3, hpriv, hlast, htx, hrx⟩ := kxConfirmed_sent (s := s) (kxAssocs_some ha).2.2 _ _ _ _
          (fits_drawBytes 6 (.refl MsgPart _))
        exact ⟨h3, hpriv, hlast, Prod.ext htx hrx⟩

/-! ### KX_CONFIRM -/

/-- The responder's next keys, and its KX_ACK. -/
def kxAcked (tx rx j : Nat) (kt kr : List Byte) (s : State) : State :=
  kxAckSend j (modKx j (fun k => { k with held := none }) (kxInstall tx rx kt kr s))

theorem fits_kxAckSend (j : Nat) (s : State) : Fits MsgPart s (kxAckSend j s) := fits_ohPut _ _ _ _ _ (.refl _ s)

theorem kxAcked_switches (hj : j < 16) (hne : tx ≠ rx) (ir ri : List Byte) (s : State) :
    switching j s (kxSwitchSend j (kxAcked tx rx j ri ir s)) ∧ (kxRec (kxSwitchSend j (kxAcked tx rx j ri ir s)) j).held = none ∧
      (assoc (kxSwitchSend j (kxAcked tx rx j ri ir s)) tx).next = some ri ∧
      (assoc (kxSwitchSend j (kxAcked tx rx j ri ir s)) rx).next = some ir := by
  have hm := fits_kxAckSend j (modKx j (fun k => { k with held := none }) (kxInstall tx rx ri ir s))
  have hrec : kxRec (kxAcked tx rx j ri ir s) j = { kxRec s j with held := none } := by
    rw [kxAcked, kxRec_of_cip hm.msg_cip, kxRec_modKx_same, kxInstall_kxRec]
  have hassoc (i : Nat) : assoc (kxAcked tx rx j ri ir s) i = assoc (kxInstall tx rx ri ir s) i := by
    rw [kxAcked, assoc_of_cip hm.msg_cip, assoc_modKx]
  have hg {f : Field} (h : f.key < 0x310000 * 8) : (kxAcked tx rx j ri ir s).g f = s.g f := by
    rw [kxAcked, hm.msg_g, g_modKx, kxInstall_g _ _ _ h]
  have hfc (le : Nat) : (kxAcked tx rx j ri ir s).g (F.LE_GLF_TX_FC_fc le) = s.g (F.LE_GLF_TX_FC_fc le) := by
    rw [kxAcked, hm.msg_g, g_modKx, kxInstall_fc]
  have hin : (kxAcked tx rx j ri ir s).inForce = s.inForce := by
    rw [kxAcked, hm.msg_inForce, modKx_inForce, kxInstall_inForce]
  obtain ⟨hsw, hheld, hnext⟩ := kxSwitchSend_switches j (kxAcked tx rx j ri ir s) hj
  refine ⟨switching_congr hsw (hg (by simp; omega)) hin hfc (hg (by simp)) (by rw [hrec]) (by rw [hrec]), hheld (by rw [hrec]), ?_, ?_⟩
  · rw [hnext, hassoc, kxInstall_tx _ _ _ hne]
  · rw [hnext, hassoc, kxInstall_rx _ _ _ hne]

theorem kxAckSend_sends (j : Nat) (s : State) : (kxAckSend j s).cip = s.cip ∧
    sends (saEngine s.inForce (s.g (F.CIP_KX_STAT_tx j))) 0x14
      (kxHead s j ++ kxGmac ((assoc s (s.g (F.CIP_KX_STAT_tx j))).next.getD []) 0xFF (kxHead s j)) (kxAckSend j s) :=
  ⟨(fits_kxAckSend j s).msg_cip, sends_ohPut ..⟩

theorem execKxConfirm_record (le : Fin 2) (ha : kxAssocs s le.val body = some (tx, rx)) (hb : kxBy s rx = some j) :
    ∃ t, execKxConfirm le body s = .next t ∧
      ((kxRec s j).xid ≠ beNat body 0 2 ∨ s.g (F.CIP_KX_STAT_role j) ≠ 1 ∨ (kxState s j ≠ 2 ∧ kxState s j ≠ 4) → t = s) ∧
      ((kxRec s j).xid = beNat body 0 2 → s.g (F.CIP_KX_STAT_role j) = 1 → kxState s j = 4 → t.cip = s.cip ∧
        sends (saEngine s.inForce (s.g (F.CIP_KX_STAT_tx j))) 0x14
          (kxHead s j ++ kxGmac ((assoc s (s.g (F.CIP_KX_STAT_tx j))).next.getD []) 0xFF (kxHead s j)) t) ∧
      ((kxRec s j).xid = beNat body 0 2 → s.g (F.CIP_KX_STAT_role j) = 1 → kxState s j = 2 →
        (∀ ir ri, (kxRec s j).held = some (ir, ri) →
          kxSigned s le.val rx (beNat body 0 2) ((kxRec s j).init ++ (kxRec s j).resp ++ body.take 4) (body.drop 4) = true →
          switching j s t ∧ (kxRec t j).held = none ∧ (assoc t tx).next = some ri ∧ (assoc t rx).next = some ir) ∧
        ((kxRec s j).held = none ∨
            kxSigned s le.val rx (beNat body 0 2) ((kxRec s j).init ++ (kxRec s j).resp ++ body.take 4) (body.drop 4) = false →
          kxState t j = 2 ∧ (kxRec t j).authBad = true ∧ unproven s t)) := by
  unfold execKxConfirm
  simp only [ha, Option.bind_some, hb, Option.map_some]
  split
  next h => exact ⟨s, rfl, fun _ => rfl, fun h1 h2 => h.elim (absurd h1) (absurd h2), fun h1 h2 => h.elim (absurd h1) (absurd h2)⟩
  next h =>
    push Not at h
    obtain ⟨hx, hrole⟩ := h
    split
    next h4 =>
      exact ⟨_, rfl, fun h => h.elim (absurd hx) fun h => h.elim (absurd hrole) fun h => absurd h4 h.2,
        fun _ _ _ => kxAckSend_sends j s, fun _ _ h2 => absurd (h4.symm.trans h2) (by decide)⟩
    next h4 =>
      split
      next h2 => exact ⟨s, rfl, fun _ => rfl, fun _ _ h => absurd h h4, fun _ _ h => absurd h h2⟩
      next h2 =>
        push Not at h2
        have hother : (kxRec s j).xid ≠ beNat body 0 2 ∨ s.g (F.CIP_KX_STAT_role j) ≠ 1 ∨ (kxState s j ≠ 2 ∧ kxState s j ≠ 4) → False :=
          fun h => h.elim (absurd hx) fun h => h.elim (absurd hrole) fun h => absurd h2 h.1
        rw [hx] at hother ⊢
        split
        next ir ri hok hheld =>
          refine ⟨_, rfl, fun h => (hother h).elim, fun _ _ h => absurd h h4, fun _ _ _ => ⟨fun ir' ri' hh _ => ?_, fun h => ?_⟩⟩
          · obtain ⟨rfl, rfl⟩ := Prod.mk.inj (Option.some.inj (hheld.symm.trans hh))
            exact kxAcked_switches (kxBy_some hb).1 (kxAssocs_some ha).2.2 ir ri s
          · exact h.elim (fun h => absurd (hheld.symm.trans h) (Option.some_ne_none _)) fun h => absurd (hok.symm.trans h) (by decide)
        next hno =>
          obtain ⟨hfst, hfrec, hcount⟩ := kxAuthFail_some j s
          exact ⟨_, rfl, fun h => (hother h).elim, fun _ _ h => absurd h h4,
            fun _ _ _ => ⟨fun ir ri hh hs => (hno ir ri hs hh).elim, fun _ => ⟨hfst.trans h2, hfrec, hcount⟩⟩⟩

/-! ### KX_ACK, KX_SWITCH and KX_ABORT -/

theorem execKxAck_record (le : Fin 2) (ha : kxAssocs s le.val body = some (tx, rx)) (hb : kxBy s rx = some j) :
    ∃ t, execKxAck le body s = .next t ∧ (kxState s j ≠ 3 ∨ (kxRec s j).xid ≠ beNat body 0 2 → t = s) ∧
      (kxState s j = 3 → (kxRec s j).xid = beNat body 0 2 →
        if kxGmac ((if (kxRec s j).peer then (assoc s rx).cur else (assoc s rx).next).getD []) 0xFF (body.take 4) = body.drop 4 then
          switching j s t
        else kxState t j = 3 ∧ (kxRec t j).authBad = true ∧ unproven s t) := by
  unfold execKxAck
  simp only [ha, Option.bind_some, hb, Option.map_some]
  split
  next h => exact ⟨s, rfl, fun _ => rfl, fun h1 h2 => h.elim (absurd h1) (absurd h2)⟩
  next h =>
    push Not at h
    obtain ⟨hst, hx⟩ := h
    generalize (if (kxRec s j).peer = true then (assoc s rx).cur else (assoc s rx).next) = k
    by_cases hmac : kxGmac (k.getD []) 0xFF (body.take 4) = body.drop 4
    · rw [if_pos hmac]
      refine ⟨_, rfl, fun h => h.elim (absurd hst) (absurd hx), fun _ _ => ?_⟩
      rw [if_pos hmac]
      exact (kxSwitchSend_switches j s (kxBy_some hb).1).1
    · rw [if_neg hmac]
      obtain ⟨hfst, hfrec, hcount⟩ := kxAuthFail_some j s
      refine ⟨_, rfl, fun h => h.elim (absurd hst) (absurd hx), fun _ _ => ?_⟩
      rw [if_neg hmac]
      exact ⟨hfst.trans hst, hfrec, hcount⟩

theorem kxAuthFail_rx (o : Option Nat) (s : State) (i : Nat) : assoc (kxAuthFail o s) i = assoc s i ∧ unproven s (kxAuthFail o s) := by
  cases o with
  | none => exact ⟨rfl, (kxAuthFail_none s).2⟩
  | some j => exact ⟨rfl, (kxAuthFail_some j s).2.2⟩

theorem execKxSwitch_runs (le : Fin 2) (body : List Byte) (s : State) : ∃ t, execKxSwitch le body s = .next t ∧
    (kxAssocs s le.val body = none → t = s) ∧
    ∀ tx rx, kxAssocs s le.val body = some (tx, rx) → ((assoc s rx).next = none → t = s) ∧ ∀ k, (assoc s rx).next = some k →
      if kxGmac k 0xFE (body.take 8) = body.drop 8 then (assoc t rx).switch = some (leNat body 4 4)
      else assoc t rx = assoc s rx ∧ unproven s t := by
  unfold execKxSwitch
  split
  next ha => exact ⟨s, rfl, fun _ => rfl, fun _ _ h => (nomatch ha.symm.trans h)⟩
  next tx rx ha =>
    have hpair {tx' rx' : Nat} (h : kxAssocs s le.val body = some (tx', rx')) : rx' = rx :=
      (Prod.mk.inj (Option.some.inj (h.symm.trans ha))).2
    split
    next hk =>
      refine ⟨s, rfl, fun _ => rfl, fun tx' rx' h => ⟨fun _ => rfl, fun k h' => ?_⟩⟩
      rw [hpair h, hk] at h'
      cases h'
    next k hk =>
      split
      next hmac =>
        refine ⟨_, rfl, fun h => (nomatch ha.symm.trans h), fun tx' rx' h => ?_⟩
        rw [hpair h]
        refine ⟨fun h => (nomatch hk.symm.trans h), fun k' h' => ?_⟩
        obtain rfl : k = k' := Option.some.inj (hk.symm.trans h')
        rw [if_pos hmac, assoc_saReport, assoc_modAssoc_same]
      next hmac =>
        refine ⟨_, rfl, fun h => (nomatch ha.symm.trans h), fun tx' rx' h => ?_⟩
        rw [hpair h]
        refine ⟨fun h => (nomatch hk.symm.trans h), fun k' h' => ?_⟩
        obtain rfl : k = k' := Option.some.inj (hk.symm.trans h')
        rw [if_neg hmac]
        exact kxAuthFail_rx ..

theorem execKxAbort_record (le : Fin 2) (ha : kxAssocs s le.val body = some (tx, rx)) (hb : kxBy s rx = some j) :
    ∃ t, execKxAbort le body s = .next t ∧
      if (kxState s j = 1 ∨ kxState s j = 2) ∧ (kxRec s j).xid = beNat body 0 2 then
        kxState t j = 0 ∧ t.g (F.CIP_KX_STAT_result j) = 5 ∧ kxRec t j = {} ∧ t.sticky 0xC8 8
      else t = s := by
  unfold execKxAbort
  simp only [ha, Option.bind_some, hb]
  split
  next h =>
    refine ⟨_, rfl, ?_⟩
    rw [if_pos h.symm]
    exact ⟨kxState_kxEnd .., result_kxEnd .., kxRec_kxEnd .., sticky_kxEnd s (by decide)⟩
  next h => exact ⟨s, rfl, by rw [if_neg fun h' => h h'.symm]⟩

/-! ### KX_INIT -/

/-- A KX_INIT for associations without a record. -/
theorem execKxInit_new (le : Fin 2) (ha : kxAssocs s le.val body = some (tx, rx)) (hb : kxBy s rx = none) :
    ∃ t, execKxInit le body s = .next t ∧ (kxPolicy s tx rx = false → t.cip = s.cip ∧ aborts le.val 1 body s t) ∧
      (kxPolicy s tx rx = true → kxBusy s tx rx = true ∨ kxFree s = none → t.cip = s.cip ∧ aborts le.val 3 body s t) ∧
      (kxPolicy s tx rx = true → kxBusy s tx rx = false → ∀ j, kxFree s = some j →
        if (kxPeer s le.val (beNat body 0 2) rx).isSome then responded j tx rx body t else t.cip = s.cip ∧ unproven s t) := by
  obtain ⟨htx, hrx, -⟩ := kxAssocs_some ha
  unfold execKxInit
  simp only [ha, hb]
  cases hp : kxPolicy s tx rx with
  | false => exact ⟨_, rfl, fun _ => kxAbortSend_aborts .., nofun, nofun⟩
  | true =>
    cases hbusy : kxBusy s tx rx with
    | true => exact ⟨_, rfl, nofun, fun _ _ => kxAbortSend_aborts .., nofun⟩
    | false =>
      simp only [Bool.not_true, Bool.false_eq_true, ↓reduceIte]
      split
      next hn => exact ⟨_, rfl, nofun, fun _ _ => kxAbortSend_aborts .., fun _ _ j hj => absurd (hn.symm.trans hj) (Option.some_ne_none j).symm⟩
      next k hk =>
        have hfree (h : kxFree s = none) : False := Option.some_ne_none k (hk.symm.trans h)
        have hsame {j : Nat} (h : kxFree s = some j) : k = j := Option.some.inj (hk.symm.trans h)
        split
        next hpub =>
          refine ⟨_, rfl, nofun, fun _ h => h.elim nofun fun h => (hfree h).elim, fun _ _ j hj => ?_⟩
          rw [if_neg (by simpa using hpub)]
          exact kxAuthFail_none s
        next hpub =>
          refine ⟨_, rfl, nofun, fun _ h => h.elim nofun fun h => (hfree h).elim, fun _ _ j hj => ?_⟩
          rw [if_pos (by simpa [Option.isSome_iff_ne_none] using hpub), ← hsame hj]
          exact responded_kxRespond k body s htx hrx

/-- A KX_INIT that crosses the own one: the lower nonce answers (R399). -/
theorem execKxInit_crossed (le : Fin 2) (ha : kxAssocs s le.val body = some (tx, rx)) (hb : kxBy s rx = some j) (hst : kxState s j = 1) :
    ∃ t, execKxInit le body s = .next t ∧
      (beNat body 4 32 = beNat (kxRec s j).init 4 32 → kxState t j = 0 ∧ (kxRec t j).again = true) ∧
      (beNat (kxRec s j).init 4 32 < beNat body 4 32 → t = s) ∧
      (beNat body 4 32 < beNat (kxRec s j).init 4 32 →
        (kxPolicy s tx rx = false → kxState t j = 0 ∧ t.g (F.CIP_KX_STAT_result j) = 4 ∧ aborts le.val 1 body s t) ∧
        (kxPolicy s tx rx = true → kxPeer s le.val (beNat body 0 2) rx = none → kxState t j = 1 ∧ (kxRec t j).authBad = true ∧ unproven s t) ∧
        (kxPolicy s tx rx = true → (kxPeer s le.val (beNat body 0 2) rx).isSome = true →
          if s.enc.trngBad then t.cip = s.cip ∧ aborts le.val 3 body s t else responded j tx rx body t)) := by
  obtain ⟨htx, hrx, -⟩ := kxAssocs_some ha
  unfold execKxInit
  simp only [ha, hb, hst, if_true]
  generalize beNat (kxRec s j).init 4 32 = own
  generalize beNat body 4 32 = his
  split
  next heq =>
    subst heq
    refine ⟨_, rfl, fun _ => ⟨?_, ?_⟩, fun h => absurd h (lt_irrefl _), fun h => absurd h (lt_irrefl _)⟩
    · rw [kxState, g_modKx, g_setF_same]
      rfl
    · rw [kxRec_modKx_same]
  next hne =>
    split
    next hlt => exact ⟨s, rfl, fun h => absurd h hne, fun _ => rfl, fun h => absurd h hlt.asymm⟩
    next hge =>
      cases hp : kxPolicy s tx rx with
      | false =>
        refine ⟨_, rfl, fun h => absurd h hne, fun h => absurd h hge, fun _ => ⟨fun _ => ⟨?_, ?_, ?_⟩, nofun, nofun⟩⟩
        · rw [kxState, (fits_kxAbortSend ..).msg_g]
          exact kxState_kxEnd ..
        · rw [(fits_kxAbortSend ..).msg_g]
          exact result_kxEnd ..
        · exact aborts_kxAbortSend _ _ _ (kxEnd_inForce ..)
      | true =>
        cases hpub : kxPeer s le.val (beNat body 0 2) rx with
        | none =>
          obtain ⟨hfst, hfrec, hcount⟩ := kxAuthFail_some j s
          exact ⟨_, rfl, fun h => absurd h hne, fun h => absurd h hge, fun _ => ⟨nofun, fun _ _ => ⟨hfst.trans hst, hfrec, hcount⟩, nofun⟩⟩
        | some pub =>
          cases htrng : s.enc.trngBad with
          | true => exact ⟨_, rfl, fun h => absurd h hne, fun h => absurd h hge, fun _ => ⟨nofun, nofun, fun _ _ => kxAbortSend_aborts ..⟩⟩
          | false =>
            exact ⟨_, rfl, fun h => absurd h hne, fun h => absurd h hge,
              fun _ => ⟨nofun, nofun, fun _ _ => responded_kxRespond j body s htx hrx⟩⟩

/-- Another KX_INIT for associations whose record is beyond its own. -/
theorem execKxInit_taken (le : Fin 2) (ha : kxAssocs s le.val body = some (tx, rx)) (hb : kxBy s rx = some j) (hst : kxState s j ≠ 1) :
    ∃ t, execKxInit le body s = .next t ∧
      if (kxRec s j).xid = beNat body 0 2 then t = s else t.cip = s.cip ∧ aborts le.val 3 body s t := by
  unfold execKxInit
  simp only [ha, hb, hst, if_false]
  split
  · exact ⟨s, rfl, rfl⟩
  · exact ⟨_, rfl, kxAbortSend_aborts ..⟩

/-! ### Timers -/

theorem execKxTimeout_busy (j : Fin 16) (h : kxState s j.val ≠ 0) : ∃ t, execKxTimeout j s = .next t ∧ kxState t j.val = 0 ∧
    kxRec t j.val = {} ∧ t.sticky 0xC8 8 ∧ t.g (F.CIP_KX_STAT_result j.val) = (if 3 ≤ kxState s j.val then
      (if (kxRec s j.val).own ∨ (kxRec s j.val).peer then 6 else 2) else if (kxRec s j.val).authBad then 3 else 2) := by
  have hst : kxState (s.reach ((kxRec s j.val).began + s.g F.CIP_KX_TIME_kx_timeout * 1000000)) j.val = kxState s j.val := g_reach ..
  simp only [execKxTimeout, if_neg h, hst]
  refine ⟨_, rfl, kxState_kxEnd .., kxRec_kxEnd .., sticky_kxEnd _ ?_, (result_kxEnd ..).trans ?_⟩
  · split
    · split <;> decide
    · split <;> decide
  · split
    · split <;> rfl
    · split <;> rfl

theorem execKxRestart_again (j : Fin 16) (h : kxState s j.val = 0) (hag : (kxRec s j.val).again = true) :
    ∃ t, execKxRestart j s = .next t ∧ (kxRec t j.val).again = false ∧
      (if kxPolicy s (s.g (F.CIP_KX_STAT_tx j.val)) (s.g (F.CIP_KX_STAT_rx j.val)) &&
          !kxBusy s (s.g (F.CIP_KX_STAT_tx j.val)) (s.g (F.CIP_KX_STAT_rx j.val)) then kxState t j.val = 1 ∧ (kxRec t j.val).last.1 = 0x11
       else kxState t j.val = 0 ∧ t.g (F.CIP_KX_STAT_result j.val) =
         if kxPolicy s (s.g (F.CIP_KX_STAT_tx j.val)) (s.g (F.CIP_KX_STAT_rx j.val)) then 7 else 4) := by
  have hg (f : Field) : (modKx j.val (fun _ => {}) (s.reach (kxRec s j.val).began)).g f = s.g f := by rw [g_modKx, g_reach]
  have hcip (i : Nat) : assoc (modKx j.val (fun _ => {}) (s.reach (kxRec s j.val).began)) i = assoc s i := by
    rw [assoc_modKx, assoc_of_cip (State.reach_cip ..)]
  have hin : (modKx j.val (fun _ => {}) (s.reach (kxRec s j.val).began)).inForce = s.inForce := by
    rw [modKx_inForce, State.reach_inForce]
  have henc : (modKx j.val (fun _ => {}) (s.reach (kxRec s j.val).began)).enc = s.enc := State.reach_enc ..
  have hpol (tx rx : Nat) : kxPolicy (modKx j.val (fun _ => {}) (s.reach (kxRec s j.val).began)) tx rx = kxPolicy s tx rx :=
    kxPolicy_congr hg hin tx rx
  have hbusy (tx rx : Nat) : kxBusy (modKx j.val (fun _ => {}) (s.reach (kxRec s j.val).began)) tx rx = kxBusy s tx rx :=
    kxBusy_congr hg hcip henc tx rx
  have hrec : kxRec (modKx j.val (fun _ => {}) (s.reach (kxRec s j.val).began)) j.val = {} := kxRec_modKx_same ..
  have hst : kxState (modKx j.val (fun _ => {}) (s.reach (kxRec s j.val).began)) j.val = 0 := (hg _).trans h
  simp only [execKxRestart, h, hag, and_self, if_true, hpol, hbusy]
  generalize modKx j.val (fun _ => {}) (s.reach (kxRec s j.val).began) = u at *
  have hres (r : Nat) : kxState (u.setF (F.CIP_KX_STAT_result j.val) r) j.val = 0 ∧
      (u.setF (F.CIP_KX_STAT_result j.val) r).g (F.CIP_KX_STAT_result j.val) = r % 16 ∧
      (kxRec (u.setF (F.CIP_KX_STAT_result j.val) r) j.val).again = false := by
    refine ⟨?_, g_setF_same .., ?_⟩
    · rw [kxState, g_setF_other _ _ (by simp)]
      exact hst
    · rw [kxRec_of_cip (State.setF_cip ..), hrec]
  cases kxPolicy s (s.g (F.CIP_KX_STAT_tx j.val)) (s.g (F.CIP_KX_STAT_rx j.val)) with
  | false => exact ⟨_, rfl, (hres 4).2.2, (hres 4).1, (hres 4).2.1⟩
  | true =>
    cases kxBusy s (s.g (F.CIP_KX_STAT_tx j.val)) (s.g (F.CIP_KX_STAT_rx j.val)) with
    | true => exact ⟨_, rfl, (hres 7).2.2, (hres 7).1, (hres 7).2.1⟩
    | false =>
      obtain ⟨⟨h1, -, -⟩, -, hlast, hno⟩ := kxInit_starts j.val u
      exact ⟨_, rfl, hno, h1, hlast⟩

end Exec

/-- Settles O46: by the record that a message or a timer concerns; what it sends leaves registers and keys. -/
theorem keyExchangeRuns : Obligations.KeyExchangeRuns := by
  unfold Obligations.KeyExchangeRuns
  refine ⟨?_, ?_, ?_, ?_, ?_, ?_, ?_, ?_, ?_, ?_, ?_⟩
  · intro m tx rx s hadm
    have hsame : kxFree (s.access m) = kxFree s := kxFree_congr (g_access m s) (State.access_cip ..)
    refine ⟨_, by rw [exec_kxStart, execKxStart, hadm.runs rfl], fun hfree => ?_, fun j hj => ?_⟩
    · rw [kxStart_none (hsame.trans hfree)]
      exact ⟨by rw [State.err_cip, State.access_cip], err_on_valid .., fun h => err_g_code _ _ _ _ ((on_access ..).trans h)⟩
    · obtain ⟨⟨htx, hrx⟩, hrun⟩ := kxStart_takes (hsame.trans hj) tx.isLt rx.isLt
      rw [kxPolicy_congr (g_access m s) (State.access_inForce ..),
        kxBusy_congr (g_access m s) (assoc_of_cip (State.access_cip ..)) (State.access_enc ..)] at hrun
      exact ⟨htx, hrx, hrun⟩
  · intro le body s
    refine ⟨_, exec_kxCert le body s, ?_, rfl⟩
    dsimp only
    rw [Tbl.get_set_same]
    rfl
  · intro le body s
    rw [exec_kxInit]
    cases ha : kxAssocs s le.val body with
    | none => exact ⟨s, by unfold execKxInit; simp only [ha], fun _ => rfl, nofun⟩
    | some a =>
      obtain ⟨tx, rx⟩ := a
      cases hb : kxBy s rx with
      | none =>
        obtain ⟨t, ht, hnew⟩ := execKxInit_new le ha hb
        refine ⟨t, ht, nofun, ?_⟩
        rintro _ _ ⟨⟩
        exact ⟨fun _ => hnew, fun j hj => absurd (hb.symm.trans hj) (Option.some_ne_none j).symm,
          fun j hj => absurd (hb.symm.trans hj) (Option.some_ne_none j).symm⟩
      | some k =>
        have hfree (h : kxBy s rx = none) : False := Option.some_ne_none k (hb.symm.trans h)
        have hsame {j : Nat} (h : kxBy s rx = some j) : j = k := Option.some.inj (h.symm.trans hb)
        by_cases hst : kxState s k = 1
        · obtain ⟨t, ht, hcross⟩ := execKxInit_crossed le ha hb hst
          refine ⟨t, ht, nofun, ?_⟩
          rintro _ _ ⟨⟩
          exact ⟨fun h => (hfree h).elim, fun j hj h => absurd hst (hsame hj ▸ h), fun j hj _ => hsame hj ▸ hcross⟩
        · obtain ⟨t, ht, htaken⟩ := execKxInit_taken le ha hb hst
          refine ⟨t, ht, nofun, ?_⟩
          rintro _ _ ⟨⟩
          exact ⟨fun h => (hfree h).elim, fun j hj _ => hsame hj ▸ htaken, fun j hj h => absurd (hsame hj ▸ h) hst⟩
  · intro le body s
    rw [exec_kxResp]
    refine kxMessage_runs (fun ha => ?_) (fun tx rx ha hb => ?_) fun tx rx j ha hb => execKxResp_record le ha hb
    · unfold execKxResp
      simp only [ha, Option.bind_none]
    · unfold execKxResp
      simp only [ha, Option.bind_some, hb, Option.map_none]
  · intro le body s
    rw [exec_kxConfirm]
    refine kxMessage_runs (fun ha => ?_) (fun tx rx ha hb => ?_) fun tx rx j ha hb => execKxConfirm_record le ha hb
    · unfold execKxConfirm
      simp only [ha, Option.bind_none]
    · unfold execKxConfirm
      simp only [ha, Option.bind_some, hb, Option.map_none]
  · intro le body s
    rw [exec_kxAck]
    refine kxMessage_runs (fun ha => ?_) (fun tx rx ha hb => ?_) fun tx rx j ha hb => execKxAck_record le ha hb
    · unfold execKxAck
      simp only [ha, Option.bind_none]
    · unfold execKxAck
      simp only [ha, Option.bind_some, hb, Option.map_none]
  · intro le body s
    rw [exec_kxSwitch]
    exact execKxSwitch_runs le body s
  · intro le body s
    rw [exec_kxAbort]
    refine kxMessage_runs (fun ha => ?_) (fun tx rx ha hb => ?_) fun tx rx j ha hb => execKxAbort_record le ha hb
    · unfold execKxAbort
      simp only [ha, Option.bind_none]
    · unfold execKxAbort
      simp only [ha, Option.bind_some, hb]
  · intro j s
    rw [exec_kxRepeat, execKxRepeat]
    split
    next h => exact ⟨s, rfl, rfl, fun _ => rfl, absurd h⟩
    next h =>
      refine ⟨_, rfl, ?_, fun h' => absurd h' h, fun _ => ?_⟩
      · rw [kxState, (fits_ohPut _ _ _ _ _ (.refl _ _)).msg_g, g_modKx, g_reach]
        rfl
      · rw [modKx_inForce, State.reach_inForce, g_modKx, g_reach]
        exact sends_ohPut ..
  · intro j s
    rw [exec_kxTimeout]
    by_cases h : kxState s j.val = 0
    · exact ⟨s, by rw [execKxTimeout, if_pos h], h, fun _ => rfl, absurd h⟩
    · obtain ⟨t, ht, h0, hrun⟩ := execKxTimeout_busy j h
      exact ⟨t, ht, h0, fun h' => absurd h' h, fun _ => hrun⟩
  · intro j s
    rw [exec_kxRestart]
    by_cases h : kxState s j.val = 0 ∧ (kxRec s j.val).again = true
    · obtain ⟨t, ht, hrun⟩ := execKxRestart_again j h.1 h.2
      exact ⟨t, ht, fun h' => h'.elim (absurd h.1) fun hag => absurd (h.2.symm.trans hag) (by decide), fun _ _ => hrun⟩
    · exact ⟨s, by rw [execKxRestart, if_neg h], fun _ => rfl, fun h1 h2 => absurd ⟨h1, h2⟩ h⟩

end Sys2Proof.Machine

/-! An optical-engine link serves (R432, R433, R441, R444, R445, R447). -/

namespace Sys2Proof.Machine

/-- The word of a response behind its status byte. -/
theorem leNat_response_word (w : Word) : leNat (0 :: toLe 4 w.toNat) 1 4 = w.toNat := by
  rw [leNat_cons_succ, leNat_toLe]
  exact Nat.mod_eq_of_lt w.isLt

section Link

variable {le : Nat} {s : State} (hle : le < 2)
include hle

/-! ## STATUS and ALERT_READ (R434, R441, R444) -/

/-- The indication of lost light, and what else the link keeps. -/
theorem setRxLos_kept (b : Bool) (s : State) : (setRxLos le b s).on (F.UBH_STAT_rx_los le) = b ∧ ubh (setRxLos le b s) le = ubh s le ∧
    (∀ f, LinkReg le f → f.key ≠ (F.UBH_STAT_rx_los le).key → (setRxLos le b s).g f = s.g f) ∧
    (∀ c, c < 32 → s.sticky (0xD8 + le) c → (setRxLos le b s).sticky (0xD8 + le) c) := by
  have hreg : LinkReg le (F.UBH_STAT_rx_los le) := by simp [LinkReg]; omega
  have hf : ((s.setB (F.UBH_STAT_rx_los le) b).modRx le fun r => { r with optLos := b }).fields =
      (s.setB (F.UBH_STAT_rx_los le) b).fields := by simp
  have hk : LinkKept le _ (setRxLos le b s) := linkKept_of_away (.losEval _ _ (.refl _ _) (losEval_away hle))
  refine ⟨?_, ?_, fun g hg hne => ?_, fun c hc hs => ?_⟩
  · rw [hk.on hreg, on_of_fields hf, on_setB _ _ _ rfl]
  · rw [hk.held, ubh, eng_modRx_same]
    rfl
  · rw [hk.g hg, g_of_fields hf, g_setB_other _ _ hne]
  · exact hk.sticky hc (sticky_of_fields (sticky_setLinkReg hreg hs) hf)

theorem onStatus_shows (w : Word) (s : State) :
    (onStatus le (0 :: toLe 4 w.toNat) s).on (F.UBH_STAT_tx_ready le) = w.getLsbD 0 ∧
      (onStatus le (0 :: toLe 4 w.toNat) s).on (F.UBH_STAT_rx_los le) = w.getLsbD 2 ∧
      (onStatus le (0 :: toLe 4 w.toNat) s).g (F.UBH_STAT_case_temp le) = w.toNat / 256 % 256 ∧
      (ubh (onStatus le (0 :: toLe 4 w.toNat) s) le).fault = w.getLsbD 3 := by
  unfold onStatus
  rw [if_neg (by simp [byteAt]), leNat_response_word]
  dsimp only
  obtain ⟨hon, hubh, hg, -⟩ := setRxLos_kept hle (w.toNat.testBit 2) (modUbh le (fun u => { u with fault := w.toNat.testBit 3 })
    ((s.setB (F.UBH_STAT_tx_ready le) (w.toNat.testBit 0)).setF (F.UBH_STAT_case_temp le) (w.toNat / 256 % 256)))
  refine ⟨?_, hon, ?_, ?_⟩
  · rw [State.on, hg _ (by simp [LinkReg]; omega) (by simp), g_modUbh, g_setF_other _ _ (by simp)]
    exact on_setB _ _ _ rfl
  · rw [hg _ (by simp [LinkReg]; omega) (by simp), g_modUbh, g_setF_same]
    exact Nat.mod_mod _ _
  · rw [hubh, ubh_modUbh_same]
    rfl

theorem onAlert_shows (w : Word) (s : State) :
    (ubh (onAlert le (0 :: toLe 4 w.toNat) s) le).alertDue = false ∧ (onAlert le (0 :: toLe 4 w.toNat) s).sticky (0xD8 + le) 4 ∧
      (onAlert le (0 :: toLe 4 w.toNat) s).g (F.UBH_STAT_alerts le) = w.toNat % 2 ^ (F.UBH_STAT_alerts le).width ∧
      (w.getLsbD 0 = true → (onAlert le (0 :: toLe 4 w.toNat) s).on (F.UBH_STAT_rx_los le) = true) := by
  unfold onAlert
  rw [if_neg (by simp [byteAt]), leNat_response_word]
  dsimp only
  generalize hu : State.evt (0xD8 + le) 4 ((modUbh le (fun u => { u with
    alertDue := false, fault := u.fault || w.toNat.testBit 1 || w.toNat.testBit 3 }) s).setF (F.UBH_STAT_alerts le) w.toNat) = v
  have hdue : (ubh v le).alertDue = false := by rw [← hu, ubh_evt, ubh_setF, ubh_modUbh_same]
  have hst : v.sticky (0xD8 + le) 4 := hu ▸ sticky_evt _ _ _ (by decide)
  have halerts : v.g (F.UBH_STAT_alerts le) = w.toNat % 2 ^ (F.UBH_STAT_alerts le).width := by
    rw [← hu, g_evt_other _ _ _ (by simp; omega), g_setF_same]
  obtain ⟨hon, hubh, hg, hkept⟩ := setRxLos_kept hle true v
  split
  · refine ⟨by rw [hubh]; exact hdue, hkept 4 (by decide) hst, ?_, fun _ => hon⟩
    rw [hg _ (by simp [LinkReg]; omega) (by simp), halerts]
  next h => exact ⟨hdue, hst, halerts, fun h' => absurd h' h⟩

end Link

section Link

variable {le : Nat}

/-! ## LIFE_READ (R445, R446) -/

/-- The record's words, in their registers. -/
def lifeWords (le : Nat) (r : List Byte) (s : State) : State :=
  s.forEach (List.range 8) fun w s => s.setF (F.UBH_LIFE_bytes le w) (leNat r (4 * w) 4)

/-- The record mirrored, before its wear is reckoned. -/
def lifeMirrored (le : Nat) (r : List Byte) (s : State) : State :=
  modUbh le (fun u => { u with life := Tbl.insert u.life (ubhId s le) (leNat r 0 4, leNat r 16 4), mirrored := true }) s

theorem onLife_eq {r : List Byte} (hr : r.length = 32) (s : State) : onLife le (0 :: r) s =
      eolUpdate le r (State.evt (0xD8 + le) 7 (lifeMirrored le r (lifeWords le r s))) ∨
    onLife le (0 :: r) s = eolUpdate le r (lifeMirrored le r (lifeWords le r s)) := by
  unfold onLife
  rw [if_neg (by simp [byteAt, hr]), List.drop_succ_cons, List.drop_zero]
  dsimp only
  exact (ite_eq_or_eq _ _ _).imp (congrArg (eolUpdate le r)) (congrArg (eolUpdate le r))

theorem lifeWords_shows (r : List Byte) (s : State) {w : Nat} (hw : w < 8) :
    (lifeWords le r s).g (F.UBH_LIFE_bytes le w) = leNat r (4 * w) 4 := by
  refine forEach_view_once (x := w) (fun s => s.g (F.UBH_LIFE_bytes le w)) _ (fun _ => leNat r (4 * w) 4) (List.mem_range.2 hw)
    List.nodup_range (fun u => ?_) (fun j _ hj u => ?_) s
  · rw [g_setF_same]
    exact Nat.mod_eq_of_lt (leNat_lt r _ 4)
  · exact g_setF_other _ _ (by simp; omega)

theorem ubhId_lifeWords (r : List Byte) (s : State) : ubhId (lifeWords le r s) le = ubhId s le := by
  refine forEach_view_unchanged (fun s => ubhId s le) _ (fun w hw u => ?_) s
  have := List.mem_range.mp hw
  rw [ubhId, g_setF_other _ _ (by simp; omega), g_setF_other _ _ (by simp; omega), ubhId]

/-- R446: the wear of the optical engine goes to registers of its own and to an event. -/
theorem eolUpdate_kept (p : List Byte) (s : State) : ubh (eolUpdate le p s) le = ubh s le ∧
    ∀ w, w < 8 → (eolUpdate le p s).g (F.UBH_LIFE_bytes le w) = s.g (F.UBH_LIFE_bytes le w) := by
  have h (w : Nat) (hw : w < 8) : Fits (Sparing [.ubh (decide (le ≠ 0)), .reg (F.UBH_LIFE_bytes le w).key]) s (eolUpdate le p s) := by
    refine Fits.eolUpdate _ _ _ (.refl _ s) ?_
    repeat' first | with_reducible intro _ | with_reducible constructor
    all_goals simp [Sparing]
    all_goals omega
  exact ⟨ubh_of_fits (h 0 (by decide)) (by simp [Sparing]), fun w hw => (h w hw).g_spared (by simp)⟩

theorem onLife_mirrors {r : List Byte} (hr : r.length = 32) (s : State) : (ubh (onLife le (0 :: r) s) le).mirrored = true ∧
    Tbl.find (ubh (onLife le (0 :: r) s) le).life (ubhId s le) = some (leNat r 0 4, leNat r 16 4) ∧
    ∀ w, w < 8 → (onLife le (0 :: r) s).g (F.UBH_LIFE_bytes le w) = leNat r (4 * w) 4 := by
  have hm : (ubh (lifeMirrored le r (lifeWords le r s)) le).mirrored = true := by rw [lifeMirrored, ubh_modUbh_same]
  have hl : Tbl.find (ubh (lifeMirrored le r (lifeWords le r s)) le).life (ubhId s le) = some (leNat r 0 4, leNat r 16 4) := by
    rw [lifeMirrored, ubh_modUbh_same, ubhId_lifeWords]
    exact Tbl.find_insert_same ..
  have hg {w : Nat} (hw : w < 8) : (lifeMirrored le r (lifeWords le r s)).g (F.UBH_LIFE_bytes le w) = leNat r (4 * w) 4 := by
    rw [lifeMirrored, g_modUbh, lifeWords_shows r s hw]
  obtain heq | heq := onLife_eq (le := le) hr s
  · obtain ⟨hu, hw⟩ := eolUpdate_kept r (State.evt (0xD8 + le) 7 (lifeMirrored le r (lifeWords le r s)))
    rw [heq, hu, ubh_evt]
    exact ⟨hm, hl, fun w h => (hw w h).trans ((g_evt_other _ _ _ (by simp; omega)).trans (hg h))⟩
  · obtain ⟨hu, hw⟩ := eolUpdate_kept r (lifeMirrored le r (lifeWords le r s))
    rw [heq, hu]
    exact ⟨hm, hl, fun w h => (hw w h).trans (hg h)⟩

/-! ## Passthrough (R447) -/

theorem ptEnd_ends {st : Nat} (s : State) (hbusy : s.on (F.UBH_PT_STAT_busy le) = true) (hst : st < 256) :
    (ptEnd le st s).on (F.UBH_PT_STAT_busy le) = false ∧ (ptEnd le st s).g (F.UBH_PT_STAT_status le) = st := by
  rw [ptEnd, if_pos hbusy]
  refine ⟨?_, ?_⟩
  · rw [on_setF_other _ _ (by simp), on_setB _ _ _ rfl]
  · rw [g_setF_same]
    exact Nat.mod_eq_of_lt hst

/-- What a MEM_READ has read, in its registers. -/
def readShown (le : Nat) (p : List Byte) (s : State) : State :=
  s.forEach (List.range ((p.length + 2) / 4)) fun w s =>
    if w < 50 then s.setF (F.UBH_PT_DATA_bytes le w) (leNat p (1 + 4 * w) 4) else s

theorem readShown_shows (p : List Byte) (s : State) {w : Nat} (hw : w < (p.length + 2) / 4) (h50 : w < 50) :
    (readShown le p s).g (F.UBH_PT_DATA_bytes le w) = leNat p (1 + 4 * w) 4 := by
  refine forEach_view_once (x := w) (fun s => s.g (F.UBH_PT_DATA_bytes le w)) _ (fun _ => leNat p (1 + 4 * w) 4) (List.mem_range.2 hw)
    List.nodup_range (fun u => ?_) (fun j _ hj u => ?_) s
  · rw [if_pos h50, g_setF_same]
    exact Nat.mod_eq_of_lt (leNat_lt p _ 4)
  · split
    · exact g_setF_other _ _ (by simp; omega)
    · rfl

theorem readShown_busy (p : List Byte) (s : State) :
    (readShown le p s).on (F.UBH_PT_STAT_busy le) = s.on (F.UBH_PT_STAT_busy le) := by
  refine forEach_view_unchanged (fun s => s.on (F.UBH_PT_STAT_busy le)) _ (fun w _ u => ?_) s
  split
  · exact on_setF_other _ _ (by simp; omega)
  · rfl

theorem onMem_reads {d : List Byte} (s : State) (hbusy : s.on (F.UBH_PT_STAT_busy le) = true) (hd : d.length ≤ 200) :
    (onMem le 9 (0 :: d) s).on (F.UBH_PT_STAT_busy le) = false ∧ (onMem le 9 (0 :: d) s).g (F.UBH_PT_STAT_status le) = 0 ∧
      ∀ w, 4 * w < d.length → (onMem le 9 (0 :: d) s).g (F.UBH_PT_DATA_bytes le w) = leNat d (4 * w) 4 := by
  have heq : onMem le 9 (0 :: d) s = ptEnd le 0 (readShown le (0 :: d) s) := by
    rw [onMem, if_neg (by rw [hbusy]; decide), if_pos ⟨rfl, rfl⟩]
    rfl
  obtain ⟨hoff, hst⟩ := ptEnd_ends (le := le) (st := 0) _ ((readShown_busy (0 :: d) s).trans hbusy) (by decide)
  rw [heq]
  refine ⟨hoff, hst, fun w hw => ?_⟩
  rw [(ptEnd_kept 0 _).2 _ (by simp; omega) (by simp; omega), readShown_shows _ _ (by rw [List.length_cons]; omega) (by omega),
    show 1 + 4 * w = 4 * w + 1 by omega, leNat_cons_succ]

theorem onMem_written (e : Byte) (s : State) (hbusy : s.on (F.UBH_PT_STAT_busy le) = true) :
    (onMem le 10 [e] s).on (F.UBH_PT_STAT_busy le) = false ∧ (onMem le 10 [e] s).g (F.UBH_PT_STAT_status le) = e.toNat := by
  rw [onMem, if_neg (by rw [hbusy]; decide), if_neg (by simp)]
  exact ptEnd_ends s hbusy e.isLt

end Link

/-! ## A session and repetition (R433, R434, R438) -/

section Commands

variable (le : Fin 2) {s : State}

/-- A command of a session leaves authenticated. -/
theorem ubhCmd_session {k ed : List Byte} {code : Nat} (args : List Byte) (hses : (ubh s le.val).session = some (k, ed))
    (hauth : authCode code = true) : ∃ c : UbhCmd,
      c.frame = ubhFrame (64 + code) (ubh s le.val).seq (some ((ubh s le.val).ctrTx + 1)) args k ∧
      ubhCmd le.val code args s = (c, modUbh le.val (fun u => { u with
        seq := ((ubh s le.val).seq + 1) % 256, ctrTx := (ubh s le.val).ctrTx + 1 }) s) := by
  unfold ubhCmd
  simp only [hses, hauth]
  exact ⟨_, rfl, rfl⟩

theorem ubhExchange_session {k ed : List Byte} {code : Nat} (args : List Byte) (hses : (ubh s le.val).session = some (k, ed))
    (hauth : authCode code = true) (hbrk : (ubh s le.val).brk = false) (hout : (ubh s le.val).out = none) (htxd : (ubh s le.val).txd = none)
    (hctr : (ubh s le.val).ctrTx < 2 ^ 32 - 1) :
    (ubh (ubhExchange le.val code args [] s) le.val).ctrTx = (ubh s le.val).ctrTx + 1 ∧
      (ubh (ubhExchange le.val code args [] s) le.val).out.map (fun c => c.frame) =
        some (ubhFrame (64 + code) (ubh s le.val).seq (some ((ubh s le.val).ctrTx + 1)) args k) := by
  obtain ⟨c, hframe, hcmd⟩ := ubhCmd_session le args hses hauth
  have heq : ubhExchange le.val code args [] s = modUbh le.val (fun u => { u with out := some c }) (modUbh le.val (fun u => { u with
      seq := ((ubh s le.val).seq + 1) % 256, ctrTx := (ubh s le.val).ctrTx + 1 }) s) := by
    unfold ubhExchange
    dsimp only
    rw [hbrk, if_neg Bool.false_ne_true, if_neg (by simp; omega), hout, htxd, hcmd]
    exact ubhDeliver_nil ..
  rw [heq, ubh_modUbh_same, ubh_modUbh_same, Option.map_some, hframe]
  exact ⟨rfl, rfl⟩

theorem execUbhResend_again {c : UbhCmd} (htxd : (ubh s le.val).txd = none) (hout : (ubh s le.val).out = some c) (htries : c.tries < 3) :
    ∃ t, execUbhResend le [] s = .next t ∧ (ubh t le.val).out.map (fun c => (c.frame, c.tries)) = some (c.frame, c.tries + 1) ∧
      t.g (F.UBH_CNT_count le.val 1) = min (s.g (F.UBH_CNT_count le.val 1) + 1) 0xFFFFFFFF ∧
      t.g (F.UBH_CNT_count le.val 2) = min (s.g (F.UBH_CNT_count le.val 2) + 1) 0xFFFFFFFF := by
  unfold execUbhResend
  simp only [htxd, hout, if_pos htries, ubhDeliver_nil]
  refine ⟨_, rfl, by rw [ubh_modUbh_same, Option.map_some], ?_, ?_⟩
  · rw [g_modUbh, ubhCount, g_bump_other _ _ (by simp), ubhCount, g_bump_same, g_reach]
    rfl
  · rw [g_modUbh, ubhCount, g_bump_same, ubhCount, g_bump_other _ _ (by simp), g_reach]
    rfl

theorem execUbhResend_gives_up {c : UbhCmd} (r : List Byte) (htxd : (ubh s le.val).txd = none) (hout : (ubh s le.val).out = some c)
    (htries : 3 ≤ c.tries) (hlink : linkOf s le.val = 1 ∨ linkOf s le.val = 2 ∨ linkOf s le.val = 3) :
    ∃ t, execUbhResend le r s = .next t ∧ (ubh t le.val).out = none ∧ linkOf t le.val = 0 ∧ t.sticky (0xD8 + le.val) 1 := by
  have hl : linkOf (ubhCount le.val 1 (s.reach (c.sentAt + 100000))) le.val = linkOf s le.val := by
    rw [linkOf, ubhCount, g_bump_other _ _ (by simp; omega), g_reach, linkOf]
  obtain ⟨h0, hnone, hst, -, -⟩ := linkLost_loses le.isLt (s := ubhCount le.val 1 (s.reach (c.sentAt + 100000))) (by rwa [hl])
  unfold execUbhResend
  simp only [htxd, hout, if_neg (not_lt.mpr htries)]
  rw [if_neg (by rw [hl]; omega)]
  exact ⟨_, rfl, hnone, h0, hst⟩

/-! ## A passthrough begins (R442, R447) -/

/-- The registers of a passthrough asked for. -/
def ptAsked (le : Nat) (write : Bool) (len addr : Nat) (s : State) : State :=
  ((s.setB (F.UBH_PT_CMD_write le) write).setF (F.UBH_PT_CMD_length le) len).setF (F.UBH_PT_CMD_address le) addr

theorem ptAsked_kept (write : Bool) (len addr : Nat) (s : State) : linkOf (ptAsked le.val write len addr s) le.val = linkOf s le.val ∧
    (ptAsked le.val write len addr s).runState le.val = s.runState le.val := by
  refine ⟨?_, ?_⟩
  · rw [linkOf, ptAsked, g_setF_other _ _ (by simp; omega), g_setF_other _ _ (by simp; omega), g_setB_other _ _ (by simp; omega), linkOf]
  · rw [State.runState, ptAsked, g_setF_other _ _ (by simp; omega), g_setF_other _ _ (by simp; omega), g_setB_other _ _ (by simp; omega),
      State.runState]

theorem ptGo_starts {write : Bool} (len : Nat) {addr : Nat} (hbusy : s.on (F.UBH_PT_STAT_busy le.val) = false)
    (hlink : linkOf s le.val = 2 ∨ linkOf s le.val = 3) (hrun : write = true → s.runState le.val = 0) (haddr : addr < 65536) :
    (ptGo le.val write len addr s).on (F.UBH_PT_STAT_busy le.val) = true ∧ (ptGo le.val write len addr s).g (F.UBH_PT_CMD_address le.val) = addr ∧
      (ptGo le.val write len addr s).on (F.UBH_PT_CMD_write le.val) = write := by
  obtain ⟨hl, hr⟩ := ptAsked_kept le write len addr s
  have heq : ∃ k, ptGo le.val write len addr s = ubhNext le.val (modUbh le.val k
      ((ptAsked le.val write len addr s).setB (F.UBH_PT_STAT_busy le.val) true)) :=
    ⟨_, by rw [ptGo, hbusy, if_neg Bool.false_ne_true, ← ptAsked, if_neg (by rw [hl]; omega), if_neg (by cases write <;> simp_all)]⟩
  obtain ⟨k, heq⟩ := heq
  have hsame (f : Field) : (ptGo le.val write len addr s).g f =
      ((ptAsked le.val write len addr s).setB (F.UBH_PT_STAT_busy le.val) true).g f := by
    rw [heq, (linkSame_ubhNext _).g, g_modUbh]
  simp only [State.on, hsame]
  refine ⟨on_setB _ _ _ rfl, ?_, ?_⟩
  · rw [g_setB_other _ _ (by simp; omega), ptAsked, g_setF_same]
    exact Nat.mod_eq_of_lt haddr
  · rw [g_setB_other _ _ (by simp; omega), ptAsked, g_setF_other _ _ (by simp), g_setF_other _ _ (by simp)]
    exact on_setB _ _ _ rfl

theorem ptGo_refused (len addr : Nat) (hbusy : s.on (F.UBH_PT_STAT_busy le.val) = false)
    (hlink : linkOf s le.val = 2 ∨ linkOf s le.val = 3) (hrun : s.runState le.val ≠ 0) :
    (ptGo le.val true len addr s).on (F.UBH_PT_STAT_busy le.val) = false ∧ (ptGo le.val true len addr s).g (F.UBH_PT_STAT_status le.val) = 0xF0 := by
  obtain ⟨hl, hr⟩ := ptAsked_kept le true len addr s
  have heq : ptGo le.val true len addr s = (ptAsked le.val true len addr s).setF (F.UBH_PT_STAT_status le.val) 0xF0 := by
    rw [ptGo, hbusy, if_neg Bool.false_ne_true, ← ptAsked, if_neg (by rw [hl]; omega), if_pos (by rw [hr]; simpa using hrun)]
  rw [heq]
  refine ⟨?_, g_setF_same ..⟩
  rw [on_setF_other _ _ (by simp), ptAsked, on_setF_other _ _ (by simp; omega), on_setF_other _ _ (by simp; omega),
    on_setB_other _ _ (by simp; omega), hbusy]

theorem pageOf_ubhPtGo : pageOf (0xD8100 + 0x1000 * le.val) = 0xD8 + le.val := by
  rw [pageOf, if_pos (by omega)]
  omega

end Commands

/-- Settles O50: an idle link takes the response to its command, and what the response brings leaves what the link keeps. -/
theorem opticalLinkServes : Obligations.OpticalLinkServes := by
  unfold Obligations.OpticalLinkServes
  refine ⟨?_, ?_, ?_, ?_, ?_, ?_, ?_, ?_, ?_, ?_, ?_⟩
  · intro le w s h hlink
    obtain ⟨v, hsame, heq⟩ := ubhPoll_response (code := 6) (p := 0 :: toLe 4 w.toNat) 10000000 h (by decide) (by simp)
    obtain ⟨hready, hlos, htemp, hfault⟩ := onStatus_shows le.isLt w v
    have hnext := linkSame_ubhNext (le := le.val) (onStatus le.val (0 :: toLe 4 w.toNat) v)
    exact ⟨_, by rw [exec_status, execStatus, if_pos (.inr hlink), heq]; rfl, (hnext.on _).trans hready, (hnext.on _).trans hlos,
      (hnext.g _).trans htemp, hnext.fault.trans hfault⟩
  · intro le k ed s hlink hses hbrk hout htxd hctr
    obtain ⟨v, issued, -, hu, heq⟩ := ubhPoll_idle (le := le.val) 6 10000000 [] s hbrk hout
    obtain ⟨hctr', hframe⟩ := ubhExchange_session le (s := v) (code := 6) (k := k) (ed := ed) [] (by rw [hu]; exact hses) rfl
      (by rw [hu]; exact hbrk) (by rw [hu]; exact hout) (by rw [hu]; exact htxd) (by rw [hu]; exact hctr)
    rw [hu] at hctr' hframe
    exact ⟨_, by rw [exec_status, execStatus, if_pos (.inl hlink), heq], hctr', hframe⟩
  · intro le s
    exact ⟨_, exec_ubhAlertFall le s, by rw [ubh_modUbh_same], modUbh_fields ..⟩
  · intro le w s h hlink hdue
    obtain ⟨v, hsame, heq⟩ := ubhExchange_response (code := 7) (p := 0 :: toLe 4 w.toNat) [] h (by decide) (by simp)
    obtain ⟨hread, hst, halerts, hlos⟩ := onAlert_shows le.isLt w v
    have hnext := linkSame_ubhNext (le := le.val) (onAlert le.val (0 :: toLe 4 w.toNat) v)
    exact ⟨_, by rw [exec_alertRead, execAlertRead, if_pos ⟨.inr hlink, hdue⟩, heq]; rfl, hnext.alertDue.trans hread, hnext.sticky hst,
      (hnext.g _).trans halerts, fun h => (hnext.on _).trans (hlos h)⟩
  · intro le r s h hlink hr
    obtain ⟨v, hsame, heq⟩ := ubhPoll_response (code := 8) (p := 0 :: r) 60000000000 h (by decide) (by rw [List.length_cons]; omega)
    obtain ⟨hm, hl, hw⟩ := onLife_mirrors (le := le.val) hr v
    have hnext := linkSame_ubhNext (le := le.val) (onLife le.val (0 :: r) v)
    rw [hsame.ubhId] at hl
    exact ⟨_, by rw [exec_lifeRead, execLifeRead, if_pos (.inr hlink), heq]; rfl, hnext.mirrored.trans hm, by rw [hnext.life, hl],
      fun w h => (hnext.g _).trans (hw w h)⟩
  · intro le addr len d s h hlink hbusy hd
    obtain ⟨v, hsame, heq⟩ := ubhExchange_response (code := 9) (p := 0 :: d) (toLe 2 addr.toNat ++ [len]) h (by decide)
      (by rw [List.length_cons]; omega)
    obtain ⟨hoff, hst, hw⟩ := onMem_reads (le := le.val) v ((hsame.on _).trans hbusy) hd
    have hnext := linkSame_ubhNext (le := le.val) (onMem le.val 9 (0 :: d) v)
    exact ⟨_, by rw [exec_memRead, execMemRead, if_pos (.inr hlink), heq]; rfl, (hnext.on _).trans hoff, (hnext.g _).trans hst,
      fun w h => (hnext.g _).trans (hw w h)⟩
  · intro le addr data e s h hlink hbusy
    obtain ⟨v, hsame, heq⟩ := ubhExchange_response (code := 10) (p := [e]) (toLe 2 addr.toNat ++ data.take 200) h (by decide) (by simp)
    obtain ⟨hoff, hst⟩ := onMem_written (le := le.val) e v ((hsame.on _).trans hbusy)
    have hnext := linkSame_ubhNext (le := le.val) (onMem le.val 10 [e] v)
    exact ⟨_, by rw [exec_memWrite, execMemWrite, if_pos (.inr hlink), heq]; rfl, (hnext.on _).trans hoff, (hnext.g _).trans hst⟩
  · intro le c s htxd hout htries
    exact execUbhResend_again le htxd hout htries
  · intro le c r s htxd hout htries hlink
    exact execUbhResend_gives_up le r htxd hout htries hlink
  · intro m le write len addr s hadm hbusy hlink hrun
    refine ⟨_, by rw [exec_ubhPtGo, execUbhPtGo, hadm.runs (pageOf_ubhPtGo le)], ?_⟩
    exact ptGo_starts le _ ((on_access ..).trans hbusy) (by rwa [linkOf, g_access]) (by rwa [State.runState, g_access]) addr.isLt
  · intro m le len addr s hadm hbusy hlink hrun
    refine ⟨_, by rw [exec_ubhPtGo, execUbhPtGo, hadm.runs (pageOf_ubhPtGo le)], ?_⟩
    exact ptGo_refused le _ _ ((on_access ..).trans hbusy) (by rwa [linkOf, g_access]) (by rwa [State.runState, g_access])

end Sys2Proof.Machine

/-! The frames of monitoring, calibration, event log, counters and pins: what each command touches lies in `frame`. -/

namespace Sys2Proof.Machine

theorem fits_thmTimerTrigger (s : State) :
    FitsOut (frame .thmTimerTrigger) s (execThmTimerTrigger s) := by
  with_reducible refine FitsOut.of_all ?_
  intro N h
  with_reducible refine FitsOut.execThmTimerTrigger _ (.refl _ _) ?_
  dsimp only [frame] at h
  delta commitTakenRegs at h
  simp only [only_lets, frame_facts, frame_split, ne_eq, reduceCtorEq, not_false_eq_true] at h
  casesm* _ ∧ _
  repeat' first
    | with_reducible intro _
    | with_reducible constructor
    | with_reducible assumption
    | simp only [*]

theorem fits_thmTrigGo (m : Master) (s : State) :
    FitsOut (frame (.thmTrigGo m)) s (execThmTrigGo m s) := by
  with_reducible refine FitsOut.of_all ?_
  intro N h
  with_reducible refine FitsOut.execThmTrigGo _ _ (.refl _ _) ?_
  dsimp only [frame] at h
  delta fabricErrorRegs commitTakenRegs at h
  simp only [only_lets, frame_facts, frame_split, ne_eq, reduceCtorEq, not_false_eq_true] at h
  casesm* _ ∧ _
  repeat' first
    | with_reducible intro _
    | with_reducible constructor
    | with_reducible assumption
    | simp only [*]

theorem fits_thmCalGo (m : Master) (trig : Bool) (s : State) :
    FitsOut (frame (.thmCalGo m trig)) s (execThmCalGo m trig s) := by
  with_reducible refine FitsOut.of_all ?_
  intro N h
  with_reducible refine FitsOut.execThmCalGo _ _ _ (.refl _ _) ?_
  dsimp only [frame] at h
  delta fabricErrorRegs errorRegs commitTakenRegs at h
  simp only [only_lets, frame_facts, frame_split, ne_eq, reduceCtorEq, not_false_eq_true] at h
  casesm* _ ∧ _
  repeat' first
    | with_reducible intro _
    | with_reducible constructor
    | with_reducible assumption
    | simp only [*]

theorem fits_thmCalDone (zero ref : List (BitVec 24)) (s : State) :
    FitsOut (frame (.thmCalDone zero ref)) s (execThmCalDone zero ref s) := by
  with_reducible refine FitsOut.of_all ?_
  intro N h
  with_reducible refine FitsOut.execThmCalDone _ _ _ (.refl _ _) ?_
  dsimp only [frame] at h
  delta commitTakenRegs at h
  simp only [only_lets, frame_facts, frame_split, ne_eq, reduceCtorEq, not_false_eq_true] at h
  casesm* _ ∧ _
  repeat' first
    | with_reducible intro _
    | with_reducible constructor
    | with_reducible assumption
    | simp only [*]

theorem fits_seqDone (s : State) :
    FitsOut (frame .seqDone) s (execSeqDone s) := by
  with_reducible refine FitsOut.of_all ?_
  intro N h
  with_reducible refine FitsOut.execSeqDone _ (.refl _ _) ?_
  dsimp only [frame] at h
  delta commitTakenRegs at h
  simp only [only_lets, frame_facts, frame_split, ne_eq, reduceCtorEq, not_false_eq_true] at h
  casesm* _ ∧ _
  repeat' first
    | with_reducible intro _
    | with_reducible constructor
    | with_reducible assumption
    | simp only [*]

theorem fits_thmQPop (m : Master) (s : State) :
    FitsOut (frame (.thmQPop m)) s (execThmQPop m s) := by
  with_reducible refine FitsOut.of_all ?_
  intro N h
  with_reducible refine FitsOut.execThmQPop _ _ (.refl _ _) ?_
  dsimp only [frame] at h
  delta fabricErrorRegs at h
  simp only [only_lets, frame_facts, frame_split, ne_eq, reduceCtorEq, not_false_eq_true] at h
  repeat' first
    | with_reducible intro _
    | with_reducible constructor
    | simp only [h, pageOf, Nat.reduceLT, Nat.reduceDiv, if_true]

theorem fits_pathTest (k : Fin 48) (seen ref : BitVec 24) (s : State) :
    FitsOut (frame (.pathTest k seen ref)) s (execPathTest k seen ref s) := by
  with_reducible refine FitsOut.of_all ?_
  intro N h
  with_reducible refine FitsOut.execPathTest _ _ _ _ (.refl _ _) ?_
  dsimp only [frame] at h
  simp only [only_lets, frame_facts, frame_split, ne_eq, reduceCtorEq, not_false_eq_true] at h
  casesm* _ ∧ _
  repeat' first
    | with_reducible intro _
    | with_reducible constructor
    | with_reducible assumption

theorem fits_hmpSeal (m : Master) (s : State) :
    FitsOut (frame (.hmpSeal m)) s (execHmpSeal m s) := by
  with_reducible refine FitsOut.of_all ?_
  intro N h
  with_reducible refine FitsOut.execHmpSeal _ _ (.refl _ _) ?_
  dsimp only [frame] at h
  delta fabricErrorRegs at h
  simp only [only_lets, frame_facts, frame_split, ne_eq, reduceCtorEq, not_false_eq_true] at h
  repeat' first
    | with_reducible intro _
    | with_reducible constructor
    | simp only [h, pageOf, Nat.reduceLT, Nat.reduceDiv, if_true]

theorem fits_hmpLogPop (m : Master) (s : State) :
    FitsOut (frame (.hmpLogPop m)) s (execHmpLogPop m s) := by
  with_reducible refine FitsOut.of_all ?_
  intro N h
  with_reducible refine FitsOut.execHmpLogPop _ _ (.refl _ _) ?_
  dsimp only [frame] at h
  delta fabricErrorRegs at h
  simp only [only_lets, frame_facts, frame_split, ne_eq, reduceCtorEq, not_false_eq_true] at h
  repeat' first
    | with_reducible intro _
    | with_reducible constructor
    | simp only [h, pageOf, Nat.reduceLT, Nat.reduceDiv, if_true]

theorem fits_monTrigGo (m : Master) (le : Fin 2) (s : State) :
    FitsOut (frame (.monTrigGo m le)) s (execMonTrigGo m le s) := by
  with_reducible refine FitsOut.of_all ?_
  intro N h
  with_reducible refine FitsOut.execMonTrigGo _ _ _ (.refl _ _) ?_
  dsimp only [frame] at h
  delta fabricErrorRegs at h
  simp only [only_lets, frame_facts, frame_split, ne_eq, reduceCtorEq, not_false_eq_true] at h
  casesm* _ ∧ _
  repeat' first
    | with_reducible intro _
    | with_reducible constructor
    | with_reducible assumption

theorem fits_monAbort (m : Master) (le : Fin 2) (s : State) :
    FitsOut (frame (.monAbort m le)) s (execMonAbort m le s) := by
  with_reducible refine FitsOut.of_all ?_
  intro N h
  with_reducible refine FitsOut.execMonAbort _ _ _ (.refl _ _) ?_
  dsimp only [frame] at h
  delta fabricErrorRegs at h
  simp only [only_lets, frame_facts, frame_split, ne_eq, reduceCtorEq, not_false_eq_true] at h
  casesm* _ ∧ _
  repeat' first
    | with_reducible intro _
    | with_reducible constructor
    | with_reducible assumption

theorem fits_monRearm (m : Master) (le : Fin 2) (s : State) :
    FitsOut (frame (.monRearm m le)) s (execMonRearm m le s) := by
  with_reducible refine FitsOut.of_all ?_
  intro N h
  with_reducible refine FitsOut.execMonRearm _ _ _ (.refl _ _) ?_
  dsimp only [frame] at h
  delta fabricErrorRegs at h
  simp only [only_lets, frame_facts, frame_split, ne_eq, reduceCtorEq, not_false_eq_true] at h
  casesm* _ ∧ _
  repeat' first
    | with_reducible intro _
    | with_reducible constructor
    | with_reducible assumption

theorem fits_monTrigger (le : Fin 2) (sat : Word) (s : State) :
    FitsOut (frame (.monTrigger le sat)) s (execMonTrigger le sat s) := by
  with_reducible refine FitsOut.of_all ?_
  intro N h
  with_reducible refine FitsOut.execMonTrigger _ _ _ (.refl _ _) ?_
  dsimp only [frame] at h
  simp only [only_lets, frame_facts, frame_split, ne_eq, reduceCtorEq, not_false_eq_true] at h
  casesm* _ ∧ _
  repeat' first
    | with_reducible intro _
    | with_reducible constructor
    | with_reducible assumption

theorem fits_capDone (le : Fin 2) (units : BitVec 28) (sat : Word) (words : List Word) (s : State) :
    FitsOut (frame (.capDone le units sat words)) s (execCapDone le units sat words s) := by
  with_reducible refine FitsOut.of_all ?_
  intro N h
  with_reducible refine FitsOut.execCapDone _ _ _ _ _ (.refl _ _) ?_
  dsimp only [frame] at h
  simp only [only_lets, frame_facts, frame_split, ne_eq, reduceCtorEq, not_false_eq_true] at h
  casesm* _ ∧ _
  repeat' first
    | with_reducible intro _
    | with_reducible constructor
    | with_reducible assumption

theorem fits_trimUpdate (le : Fin 2) (t : BitVec 16) (s : State) :
    FitsOut (frame (.trimUpdate le t)) s (execTrimUpdate le t s) := by
  with_reducible refine FitsOut.of_all ?_
  intro N h
  with_reducible refine FitsOut.execTrimUpdate _ _ _ (.refl _ _) ?_
  dsimp only [frame] at h
  delta converterMapRegs at h
  simp only [only_lets, frame_facts, frame_split, ne_eq, reduceCtorEq, not_false_eq_true] at h
  casesm* _ ∧ _
  repeat' first
    | with_reducible intro _
    | with_reducible constructor
    | with_reducible assumption
    | simp only [*]

theorem fits_spareCalStart (le : Fin 2) (dac : Bool) (lane : Fin 4) (s : State) :
    FitsOut (frame (.spareCalStart le dac lane)) s (execSpareCalStart le dac lane s) := by
  with_reducible refine FitsOut.of_all ?_
  intro N h
  with_reducible refine FitsOut.execSpareCalStart _ _ _ _ (.refl _ _) ?_
  dsimp only [frame] at h
  delta converterMapRegs at h
  simp only [only_lets, frame_facts, frame_split, ne_eq, reduceCtorEq, not_false_eq_true] at h
  casesm* _ ∧ _
  repeat' first
    | with_reducible intro _
    | with_reducible constructor
    | with_reducible assumption

theorem fits_spareCalEnd (le : Fin 2) (dac : Bool) (c : UnitCal) (pilot : Bool) (s : State) :
    FitsOut (frame (.spareCalEnd le dac c pilot)) s (execSpareCalEnd le dac c pilot s) := by
  with_reducible refine FitsOut.of_all ?_
  intro N h
  with_reducible refine FitsOut.execSpareCalEnd _ _ _ _ _ (.refl _ _) ?_
  dsimp only [frame] at h
  delta converterMapRegs at h
  simp only [only_lets, frame_facts, frame_split, ne_eq, reduceCtorEq, not_false_eq_true] at h
  casesm* _ ∧ _
  repeat' first
    | with_reducible intro _
    | with_reducible constructor
    | with_reducible assumption
    | simp only [*]

theorem fits_rotationSwap (le : Fin 2) (dac : Bool) (lane : Fin 4) (s : State) :
    FitsOut (frame (.rotationSwap le dac lane)) s (execRotationSwap le dac lane s) := by
  with_reducible refine FitsOut.of_all ?_
  intro N h
  with_reducible refine FitsOut.execRotationSwap _ _ _ _ (.refl _ _) ?_
  dsimp only [frame] at h
  delta converterMapRegs at h
  simp only [only_lets, frame_facts, frame_split, ne_eq, reduceCtorEq, not_false_eq_true] at h
  casesm* _ ∧ _
  repeat' first
    | with_reducible intro _
    | with_reducible constructor
    | with_reducible assumption

theorem fits_unitFault (le : Fin 2) (dac : Bool) (lane : Fin 4) (pos : Fin 68) (s : State) :
    FitsOut (frame (.unitFault le dac lane pos)) s (execUnitFault le dac lane pos s) := by
  with_reducible refine FitsOut.of_all ?_
  intro N h
  with_reducible refine FitsOut.execUnitFault _ _ _ _ _ (.refl _ _) ?_
  dsimp only [frame] at h
  delta converterMapRegs at h
  simp only [only_lets, frame_facts, frame_split, ne_eq, reduceCtorEq, not_false_eq_true] at h
  casesm* _ ∧ _
  repeat' first
    | with_reducible intro _
    | with_reducible constructor
    | with_reducible assumption

theorem fits_repairSwap (le : Fin 2) (dac : Bool) (lane : Fin 4) (s : State) :
    FitsOut (frame (.repairSwap le dac lane)) s (execRepairSwap le dac lane s) := by
  with_reducible refine FitsOut.of_all ?_
  intro N h
  with_reducible refine FitsOut.execRepairSwap _ _ _ _ (.refl _ _) ?_
  dsimp only [frame] at h
  delta errorRegs engineDownRegs commitCancelRegs engineStoppedRegs cipherLoadRegs converterMapRegs at h
  simp only [only_lets, frame_facts, frame_split, ne_eq, reduceCtorEq, not_false_eq_true] at h
  casesm* _ ∧ _
  repeat' first
    | with_reducible intro _
    | with_reducible constructor
    | with_reducible assumption
    | simp only [*]

theorem fits_fgCalGo (m : Master) (le : Fin 2) (adc dac fec : Bool) (s : State) :
    FitsOut (frame (.fgCalGo m le adc dac fec)) s (execFgCalGo m le adc dac fec s) := by
  with_reducible refine FitsOut.of_all ?_
  intro N h
  with_reducible refine FitsOut.execFgCalGo _ _ _ _ _ _ (.refl _ _) ?_
  dsimp only [frame] at h
  delta fabricErrorRegs errorRegs at h
  simp only [only_lets, frame_facts, frame_split, ne_eq, reduceCtorEq, not_false_eq_true] at h
  repeat' first
    | with_reducible intro _
    | with_reducible constructor
    | simp only [h, pageOf, Nat.reduceLT, Nat.reduceDiv, if_true]

theorem fits_fgDone (adc dac : List UnitCal) (tiles : List (Fin 26)) (s : State) :
    FitsOut (frame (.fgDone adc dac tiles)) s (execFgDone adc dac tiles s) := by
  with_reducible refine FitsOut.of_all ?_
  intro N h
  with_reducible refine FitsOut.execFgDone _ _ _ _ (.refl _ _) ?_
  dsimp only [frame] at h
  delta decoderRegs converterMapRegs at h
  simp only [only_lets, frame_facts, frame_split, ne_eq, reduceCtorEq, not_false_eq_true, engine_pairs] at h
  casesm* _ ∧ _
  repeat' first
    | with_reducible intro _
    | with_reducible constructor
    | with_reducible assumption
    | simp only [*]

theorem fits_loopCalStep (le : Fin 2) (lane : Fin 4) (swing peaking : Fin 3) (inGap : Bool) (cals : List UnitCal) (s : State) :
    FitsOut (frame (.loopCalStep le lane swing peaking inGap cals)) s (execLoopCalStep le lane swing peaking inGap cals s) := by
  with_reducible refine FitsOut.of_all ?_
  intro N h
  with_reducible refine FitsOut.execLoopCalStep _ _ _ _ _ _ _ (.refl _ _) ?_
  dsimp only [frame] at h
  simp only [only_lets, frame_facts, frame_split, ne_eq, reduceCtorEq, not_false_eq_true] at h
  casesm* _ ∧ _
  repeat' first
    | with_reducible intro _
    | with_reducible constructor
    | with_reducible assumption
    | simp only [*]

theorem fits_periodicTest (t : Periodic) (s : State) :
    FitsOut (frame (.periodicTest t)) s (execPeriodicTest t s) := by
  with_reducible refine FitsOut.of_all ?_
  intro N h
  with_reducible refine FitsOut.execPeriodicTest _ _ (.refl _ _) ?_
  dsimp only [frame] at h
  delta cipherLoadRegs pageTestRegs poolRegs at h
  simp only [only_lets, frame_facts, frame_split, ne_eq, reduceCtorEq, not_false_eq_true] at h
  casesm* _ ∧ _
  repeat' first
    | with_reducible intro _
    | with_reducible constructor
    | with_reducible assumption
    | simp only [*]

theorem fits_repPipeTest (m : Master) (s : State) :
    FitsOut (frame (.repPipeTest m)) s (execRepPipeTest m s) := by
  with_reducible refine FitsOut.of_all ?_
  intro N h
  with_reducible refine FitsOut.execRepPipeTest _ _ (.refl _ _) ?_
  dsimp only [frame] at h
  delta fabricErrorRegs at h
  simp only [only_lets, frame_facts, frame_split, ne_eq, reduceCtorEq, not_false_eq_true] at h
  repeat' first
    | with_reducible intro _
    | with_reducible constructor
    | simp only [h, pageOf, Nat.reduceLT, Nat.reduceDiv, if_true]

theorem fits_repDpllTest (m : Master) (s : State) :
    FitsOut (frame (.repDpllTest m)) s (execRepDpllTest m s) := by
  with_reducible refine FitsOut.of_all ?_
  intro N h
  with_reducible refine FitsOut.execRepDpllTest _ _ (.refl _ _) ?_
  dsimp only [frame] at h
  delta fabricErrorRegs at h
  simp only [only_lets, frame_facts, frame_split, ne_eq, reduceCtorEq, not_false_eq_true] at h
  repeat' first
    | with_reducible intro _
    | with_reducible constructor
    | simp only [h, pageOf, Nat.reduceLT, Nat.reduceDiv, if_true]

theorem fits_monTest (m : Master) (le : Fin 2) (s : State) :
    FitsOut (frame (.monTest m le)) s (execMonTest m le s) := by
  with_reducible refine FitsOut.of_all ?_
  intro N h
  with_reducible refine FitsOut.execMonTest _ _ _ (.refl _ _) ?_
  dsimp only [frame] at h
  delta fabricErrorRegs at h
  simp only [only_lets, frame_facts, frame_split, ne_eq, reduceCtorEq, not_false_eq_true] at h
  repeat' first
    | with_reducible intro _
    | with_reducible constructor
    | simp only [h, pageOf, Nat.reduceLT, Nat.reduceDiv, if_true]

theorem fits_monTestDone (le : Fin 2) (dev : Int) (s : State) :
    FitsOut (frame (.monTestDone le dev)) s (execMonTestDone le dev s) := by
  with_reducible refine FitsOut.of_all ?_
  intro N h
  with_reducible refine FitsOut.execMonTestDone _ _ _ (.refl _ _) ?_
  dsimp only [frame] at h
  simp only [only_lets, frame_facts, frame_split, ne_eq, reduceCtorEq, not_false_eq_true] at h
  casesm* _ ∧ _
  repeat' first
    | with_reducible intro _
    | with_reducible constructor
    | with_reducible assumption

theorem fits_trimWrite (m : Master) (le : Fin 2) (t : Fin 6) (w : Fin 512) (value : Word) (s : State) :
    FitsOut (frame (.trimWrite m le t w value)) s (execTrimWrite m le t w value s) := by
  with_reducible refine FitsOut.of_all ?_
  intro N h
  with_reducible refine FitsOut.execTrimWrite _ _ _ _ _ _ (.refl _ _) ?_
  dsimp only [frame] at h
  delta fabricErrorRegs at h
  simp only [only_lets, frame_facts, frame_split, ne_eq, reduceCtorEq, not_false_eq_true] at h
  casesm* _ ∧ _
  repeat' first
    | with_reducible intro _
    | with_reducible constructor
    | with_reducible assumption
    | simp only [*]

theorem fits_classExhausted (c : Fin 10) (s : State) :
    FitsOut (frame (.classExhausted c)) s (execClassExhausted c s) := by
  with_reducible refine FitsOut.of_all ?_
  intro N h
  with_reducible refine FitsOut.execClassExhausted _ _ (.refl _ _) ?_
  dsimp only [frame] at h
  simp only [only_lets, frame_facts, frame_split, ne_eq, reduceCtorEq, not_false_eq_true] at h
  casesm* _ ∧ _
  repeat' first
    | with_reducible intro _
    | with_reducible constructor
    | with_reducible assumption

theorem fits_classRestored (c : Fin 10) (s : State) :
    FitsOut (frame (.classRestored c)) s (execClassRestored c s) := by
  with_reducible refine FitsOut.of_all ?_
  intro N h
  with_reducible refine FitsOut.execClassRestored _ _ (.refl _ _) ?_
  dsimp only [frame] at h
  simp only [only_lets, frame_facts, frame_split, ne_eq, reduceCtorEq, not_false_eq_true] at h
  casesm* _ ∧ _
  repeat' first
    | with_reducible intro _
    | with_reducible constructor
    | with_reducible assumption

theorem fits_evlEntry (p : Fin 256) (s : State) :
    FitsOut (frame (.evlEntry p)) s (execEvlEntry p s) := by
  with_reducible refine FitsOut.of_all ?_
  intro N h
  with_reducible refine FitsOut.execEvlEntry _ _ (.refl _ _) ?_
  dsimp only [frame] at h
  simp only [only_lets, frame_facts, frame_split, ne_eq, reduceCtorEq, not_false_eq_true] at h
  casesm* _ ∧ _
  repeat' first
    | with_reducible intro _
    | with_reducible constructor
    | with_reducible assumption

theorem fits_sorterRelease (s : State) :
    FitsOut (frame .sorterRelease) s (execSorterRelease s) := by
  with_reducible refine FitsOut.of_all ?_
  intro N h
  with_reducible refine FitsOut.execSorterRelease _ (.refl _ _) ?_
  dsimp only [frame] at h
  simp only [only_lets, frame_facts, frame_split, ne_eq, reduceCtorEq, not_false_eq_true] at h
  casesm* _ ∧ _
  repeat' first
    | with_reducible intro _
    | with_reducible constructor
    | with_reducible assumption

theorem fits_foldWindowEnd (p : Fin 256) (loss : Bool) (code : Byte) (s : State) :
    FitsOut (frame (.foldWindowEnd p loss code)) s (execFoldWindowEnd p loss code s) := by
  with_reducible refine FitsOut.of_all ?_
  intro N h
  with_reducible refine FitsOut.execFoldWindowEnd _ _ _ _ (.refl _ _) ?_
  dsimp only [frame] at h
  simp only [only_lets, frame_facts, frame_split, ne_eq, reduceCtorEq, not_false_eq_true] at h
  casesm* _ ∧ _
  repeat' first
    | with_reducible intro _
    | with_reducible constructor
    | with_reducible assumption

theorem fits_evlTailWrite (m : Master) (value : Word) (s : State) :
    FitsOut (frame (.evlTailWrite m value)) s (execEvlTailWrite m value s) := by
  with_reducible refine FitsOut.of_all ?_
  intro N h
  with_reducible refine FitsOut.execEvlTailWrite _ _ _ (.refl _ _) ?_
  dsimp only [frame] at h
  delta fabricErrorRegs at h
  simp only [only_lets, frame_facts, frame_split, ne_eq, reduceCtorEq, not_false_eq_true] at h
  repeat' first
    | with_reducible intro _
    | with_reducible constructor
    | simp only [h, pageOf, Nat.reduceLT, Nat.reduceDiv, if_true]

theorem fits_cntSelWrite (m : Master) (n : Fin 512) (value : Word) (s : State) :
    FitsOut (frame (.cntSelWrite m n value)) s (execCntSelWrite m n value s) := by
  with_reducible refine FitsOut.of_all ?_
  intro N h
  with_reducible refine FitsOut.execCntSelWrite _ _ _ _ (.refl _ _) ?_
  dsimp only [frame] at h
  delta fabricErrorRegs pulseRegs at h
  simp only [only_lets, frame_facts, frame_split, ne_eq, reduceCtorEq, not_false_eq_true] at h
  casesm* _ ∧ _
  repeat' first
    | with_reducible intro _
    | with_reducible constructor
    | with_reducible assumption
    | simp only [*]

theorem fits_cntHiWrite (m : Master) (n : Fin 512) (value : Word) (s : State) :
    FitsOut (frame (.cntHiWrite m n value)) s (execCntHiWrite m n value s) := by
  with_reducible refine FitsOut.of_all ?_
  intro N h
  with_reducible refine FitsOut.execCntHiWrite _ _ _ _ (.refl _ _) ?_
  dsimp only [frame] at h
  delta fabricErrorRegs pulseRegs at h
  simp only [only_lets, frame_facts, frame_split, ne_eq, reduceCtorEq, not_false_eq_true] at h
  casesm* _ ∧ _
  repeat' first
    | with_reducible intro _
    | with_reducible constructor
    | with_reducible assumption
    | simp only [*]

theorem fits_cntWrap (n : Fin 512) (inc : BitVec 48) (s : State) :
    FitsOut (frame (.cntWrap n inc)) s (execCntWrap n inc s) := by
  with_reducible refine FitsOut.of_all ?_
  intro N h
  with_reducible refine FitsOut.execCntWrap _ _ _ (.refl _ _) ?_
  dsimp only [frame] at h
  delta pulseRegs at h
  simp only [only_lets, frame_facts, frame_split, ne_eq, reduceCtorEq, not_false_eq_true] at h
  casesm* _ ∧ _
  repeat' first
    | with_reducible intro _
    | with_reducible constructor
    | with_reducible assumption
    | simp only [*]

theorem fits_freezeRequest (m : Master) (freeze : Bool) (lead : BitVec 16) (s : State) :
    FitsOut (frame (.freezeRequest m freeze lead)) s (execFreezeRequest m freeze lead s) := by
  with_reducible refine FitsOut.of_all ?_
  intro N h
  with_reducible refine FitsOut.execFreezeRequest _ _ _ _ (.refl _ _) ?_
  dsimp only [frame] at h
  delta fabricErrorRegs at h
  simp only [only_lets, frame_facts, frame_split, ne_eq, reduceCtorEq, not_false_eq_true] at h
  repeat' first
    | with_reducible intro _
    | with_reducible constructor
    | simp only [h, pageOf, Nat.reduceLT, Nat.reduceDiv, if_true]

theorem fits_freezeInstant (s : State) : FitsOut (frame .freezeInstant) s (execFreezeInstant s) := by
  with_reducible refine FitsOut.of_all ?_
  intro N h
  with_reducible refine FitsOut.execFreezeInstant _ (.refl _ _) ?_
  dsimp only [frame] at h
  simp only [only_lets, frame_facts, frame_split, ne_eq, reduceCtorEq, not_false_eq_true] at h
  obtain ⟨hparts, hall⟩ := h
  repeat' first
    | with_reducible intro _
    | with_reducible constructor
    | simp only [hparts]
    | exact hall _ trivial

theorem fits_cntSnapshot (s : State) :
    FitsOut (frame .cntSnapshot) s (execCntSnapshot s) := by
  with_reducible refine FitsOut.of_all ?_
  intro N h
  with_reducible refine FitsOut.execCntSnapshot _ (.refl _ _) ?_
  dsimp only [frame] at h
  delta pulseRegs at h
  simp only [only_lets, frame_facts, frame_split, ne_eq, reduceCtorEq, not_false_eq_true] at h
  casesm* _ ∧ _
  repeat' first
    | with_reducible intro _
    | with_reducible constructor
    | with_reducible assumption
    | simp only [*]

theorem fits_sampleChoose (path : Fin 2) (port : Fin 32) (s : State) :
    FitsOut (frame (.sampleChoose path port)) s (execSampleChoose path port s) := by
  with_reducible refine FitsOut.of_all ?_
  intro N h
  with_reducible refine FitsOut.execSampleChoose _ _ _ (.refl _ _) ?_
  dsimp only [frame] at h
  simp only [only_lets, frame_facts, frame_split, ne_eq, reduceCtorEq, not_false_eq_true] at h
  casesm* _ ∧ _
  repeat' first
    | with_reducible intro _
    | with_reducible constructor
    | with_reducible assumption

theorem fits_sampleRecord (path : Fin 2) (i : Fin 16) (u : Sampled) (s : State) :
    FitsOut (frame (.sampleRecord path i u)) s (execSampleRecord path i u s) := by
  with_reducible refine FitsOut.of_all ?_
  intro N h
  with_reducible refine FitsOut.execSampleRecord _ _ _ _ (.refl _ _) ?_
  dsimp only [frame] at h
  simp only [only_lets, frame_facts, frame_split, ne_eq, reduceCtorEq, not_false_eq_true] at h
  casesm* _ ∧ _
  repeat' first
    | with_reducible intro _
    | with_reducible constructor
    | with_reducible assumption

theorem fits_smpRestart (m : Master) (value : BitVec 31) (s : State) :
    FitsOut (frame (.smpRestart m value)) s (execSmpRestart m value s) := by
  with_reducible refine FitsOut.of_all ?_
  intro N h
  with_reducible refine FitsOut.execSmpRestart _ _ _ (.refl _ _) ?_
  dsimp only [frame] at h
  delta fabricErrorRegs at h
  simp only [only_lets, frame_facts, frame_split, ne_eq, reduceCtorEq, not_false_eq_true] at h
  repeat' first
    | with_reducible intro _
    | with_reducible constructor
    | simp only [h, pageOf, Nat.reduceLT, Nat.reduceDiv, if_true]

theorem fits_spiStatus (waiting : Bool) (s : State) :
    FitsOut (frame (.spiStatus waiting)) s (execSpiStatus waiting s) :=  FitsOut.execSpiStatus waiting s (.refl _ _) (.head _)

theorem fits_gpioEdge (n : Fin 16) (rising : Bool) (s : State) :
    FitsOut (frame (.gpioEdge n rising)) s (execGpioEdge n rising s) := by
  with_reducible refine FitsOut.of_all ?_
  intro N h
  with_reducible refine FitsOut.execGpioEdge _ _ _ (.refl _ _) ?_
  dsimp only [frame] at h
  simp only [only_lets, frame_facts, frame_split, ne_eq, reduceCtorEq, not_false_eq_true] at h
  casesm* _ ∧ _
  repeat' first
    | with_reducible intro _
    | with_reducible constructor
    | with_reducible assumption

theorem fits_kxRestart (j : Fin 16) (s : State) :
    FitsOut (frame (.kxRestart j)) s (execKxRestart j s) := by
  with_reducible refine FitsOut.of_all ?_
  intro N h
  with_reducible refine FitsOut.execKxRestart _ _ (.refl _ _) ?_
  dsimp only [frame] at h
  simp only [only_lets, frame_facts, frame_split, ne_eq, reduceCtorEq, not_false_eq_true, engine_pairs] at h
  casesm* _ ∧ _
  repeat' first
    | with_reducible intro _
    | with_reducible constructor
    | with_reducible assumption
    | simp only [*]

theorem fits_avsConfirmed (s : State) :
    FitsOut (frame .avsConfirmed) s (execAvsConfirmed s) := by
  with_reducible refine FitsOut.of_all ?_
  intro N h
  with_reducible refine FitsOut.execAvsConfirmed _ (.refl _ _) ?_
  dsimp only [frame] at h
  simp only [only_lets, frame_facts, frame_split, ne_eq, reduceCtorEq, not_false_eq_true] at h
  casesm* _ ∧ _
  repeat' first
    | with_reducible intro _
    | with_reducible constructor
    | with_reducible assumption

theorem fits_trngHealthTest (pass : Bool) (s : State) :
    FitsOut (frame (.trngHealthTest pass)) s (execTrngHealthTest pass s) :=  FitsOut.execTrngHealthTest pass s (.refl _ _)
        (.head _)

end Sys2Proof.Machine

/-! Requests that the enclave answers at once, and what it ends in time (O47). -/

namespace Sys2Proof.Machine

/-! ## NONCE_GET and CHG_ABORT (R414, R419) -/

theorem exec_nonceGet_issues (fw : Bool) (id : BitVec 16) (h : Nat) (s : State) (hserves : enclaveServes s = true)
    (hbox : boxQuiet s (if fw then 7 else 3)) (hgood : s.enc.trngBad = false)
    (hfree : ((List.range 4).find? fun h => (Tbl.find s.enc.handles h).isNone) = some h) :
    ∃ t, exec (.nonceGet fw id []) s = .next t ∧ repliedWith t (if fw then 7 else 3) 0x01 0 id.toNat ∧
      (Tbl.find t.enc.handles h).map (fun x => (x.nonce.length, x.issued, x.signed)) = some (32, s.now, none) ∧
      (t.g F.ENC_STAT_pending).testBit h = true ∧ ∀ k, k ≠ h → Tbl.find t.enc.handles k = Tbl.find s.enc.handles k := by
  have hh : h < 4 := List.mem_range.1 (List.mem_of_find?_eq_some hfree)
  obtain ⟨nonce, d, hdraw, hlen⟩ := drawBytes_eq 4 s
  have hrun : exec (.nonceGet fw id []) s = .next (enclaveReply fw 0x01 0 id.toNat
      (h :: (wordsOf 8 nonce ++ wordsOf 4 (settingsDigest (encReport (modEnc (fun e => { e with
        handles := Tbl.insert e.handles h { nonce := nonce, issued := s.now } }) { s with drawn := d })))))
      (encReport (modEnc (fun e => { e with handles := Tbl.insert e.handles h { nonce := nonce, issued := s.now } }) { s with drawn := d }))) := by
    rw [exec_nonceGet, execNonceGet, hserves, if_neg (by decide)]
    dsimp only
    rw [if_neg (by decide), hgood, if_neg Bool.false_ne_true, hfree]
    dsimp only
    rw [hdraw]
    rfl
  generalize hu : modEnc (fun e => { e with handles := Tbl.insert e.handles h { nonce := nonce, issued := s.now } }) { s with drawn := d } = u
    at hrun
  have hhandles : u.enc.handles = Tbl.insert s.enc.handles h { nonce := nonce, issued := s.now } := by rw [← hu]; rfl
  have hquiet : boxQuiet u (if fw then 7 else 3) := by rw [← hu]; exact hbox
  have hfits := fits_enclaveReply fw 0x01 0 id.toNat (h :: (wordsOf 8 nonce ++ wordsOf 4 (settingsDigest (encReport u)))) (encReport u)
  refine ⟨_, hrun, repliedWith_enclaveReply _ _ _ _ (boxQuiet_encReport (replyBox_lt fw) hquiet), ?_, ?_, fun k hk => ?_⟩
  · rw [hfits.reply_enc, encReport_enc, hhandles, Tbl.find_insert_same, Option.map_some, hlen]
  · rw [hfits.reply_g (by simp), encReport_pending u hh, hhandles, Tbl.find_insert_same]
    rfl
  · rw [hfits.reply_enc, encReport_enc, hhandles, Tbl.find_insert_other _ _ hk]

theorem exec_nonceGet_full (fw : Bool) (id : BitVec 16) (s : State) (hserves : enclaveServes s = true)
    (hbox : boxQuiet s (if fw then 7 else 3)) (hheld : ∀ h, h < 4 → Tbl.find s.enc.handles h ≠ none) :
    ∃ t, exec (.nonceGet fw id []) s = .next t ∧ repliedWith t (if fw then 7 else 3) 0x01 5 id.toNat ∧ t.enc = s.enc := by
  have hnone : ((List.range 4).find? fun h => (Tbl.find s.enc.handles h).isNone) = none :=
    List.find?_eq_none.2 fun h hh => by simp [hheld h (List.mem_range.1 hh)]
  have hrun : exec (.nonceGet fw id []) s = .next (enclaveRefuse fw 0x01 5 id.toNat 13 s) := by
    rw [exec_nonceGet, execNonceGet, hserves, if_neg (by decide)]
    dsimp only
    rw [if_neg (by decide), hnone]
    split <;> rfl
  exact ⟨_, hrun, enclaveRefuse_refuses _ _ _ _ hbox⟩

theorem exec_chgAbort_frees (fw : Bool) (id : BitVec 16) (w : Word) (s : State) (hserves : enclaveServes s = true)
    (hbox : boxQuiet s (if fw then 7 else 3)) :
    ∃ t, exec (.chgAbort fw id [w]) s = .next t ∧ repliedWith t (if fw then 7 else 3) 0x04 0 id.toNat ∧
      t.enc.handles = Tbl.erase s.enc.handles (w.toNat % 4) := by
  refine ⟨_, by rw [exec_chgAbort, execChgAbort, hserves, if_neg (by decide)], ?_, ?_⟩
  · exact repliedWith_enclaveReply _ _ _ _ (boxQuiet_encReport (replyBox_lt fw) hbox)
  · rw [(fits_enclaveReply _ _ _ _ _ _).reply_enc, handleFree, encReport_enc]
    rfl

/-! ## ATTEST and KLK_PUB (R417, R423) -/

theorem length_attestReport (nonce : List Byte) (s : State) : (attestReport nonce s).length = 216 := by
  have hpad (n : Nat) (b : List Byte) : ((b ++ List.replicate n 0).take n).length = n := by simp
  unfold attestReport
  dsimp only
  generalize (fieldsRead 0x44 ((regAt 0x44).getD []) s).1 = features
  repeat rw [List.length_append]
  repeat rw [length_toLe]
  repeat rw [hpad]
  rfl

theorem exec_attest_reports (fw : Bool) (id : BitVec 16) (words : List Word) (s : State) (hserves : enclaveServes s = true)
    (hbox : boxQuiet s (if fw then 7 else 3)) (hlen : words.length = 8) (hgood : s.enc.trngBad = false) :
    ∃ t, exec (.attest fw id words) s = .next t ∧ repliedWith t (if fw then 7 else 3) 0x03 0 id.toNat ∧ t.enc = s.enc ∧
      ∀ k, k < 54 → t.g (F.ENC_XBUF_bytes k) = leNat (attestReport (words.flatMap fun w => toLe 4 w.toNat) s) (4 * k) 4 := by
  obtain ⟨b, d, hdraw, -⟩ := drawBytes_eq 6 s
  have hreport := length_attestReport (words.flatMap fun w => toLe 4 w.toNat) s
  generalize hbody : attestReport (words.flatMap fun w => toLe 4 w.toNat) s = body at hreport
  have hrun : exec (.attest fw id words) s = .next (enclaveReply fw 0x03 0 id.toNat [312]
      (xbufPut ((body ++ Config.ecdsaSign s.enc.idKey b body).take 312) { s with drawn := d })) := by
    rw [exec_attest, execAttest, hserves, ← hbody]
    dsimp only
    rw [if_neg (by decide), if_neg (not_not_intro hlen), hgood, if_neg Bool.false_ne_true, hdraw]
  have hfits := fits_enclaveReply fw 0x03 0 id.toNat [312]
    (xbufPut ((body ++ Config.ecdsaSign s.enc.idKey b body).take 312) { s with drawn := d })
  refine ⟨_, hrun, repliedWith_enclaveReply _ _ _ _ (boxQuiet_xbufPut (replyBox_lt fw) _ hbox), ?_, fun k hk => ?_⟩
  · rw [hfits.reply_enc]
    exact (Fits.xbufPut _ _ (Fits.refl (Sparing [.enc]) _) ⟨fun k => by simp [Sparing]⟩).within .enc (by simp [Sparing])
  · rw [hfits.reply_g (by simp; omega), g_xbufPut (by rw [List.length_take, List.length_append, hreport]; omega),
      leNat_take (by omega), leNat_append_left _ (by omega)]

theorem exec_klkPub_pair (fw : Bool) (id : BitVec 16) (s : State) (hserves : enclaveServes s = true)
    (hbox : boxQuiet s (if fw then 7 else 3)) (hmode : s.mode ≠ 7) (hgood : s.enc.trngBad = false) :
    ∃ t, exec (.klkPub fw id []) s = .next t ∧ repliedWith t (if fw then 7 else 3) 0x05 0 id.toNat ∧ t.enc.klk = s.enc.klk ∧
      ∃ priv, t.enc.agree = some priv ∧ t.enc.agreePub = Config.p384Public priv := by
  obtain ⟨priv, d, hdraw, -⟩ := drawBytes_eq 6 s
  have hrun : exec (.klkPub fw id []) s = .next (enclaveReply fw 0x05 0 id.toNat [97] (xbufPut ((Config.p384Public priv).take 97)
      (modEnc (fun e => { e with agree := some priv, agreePub := Config.p384Public priv }) { s with drawn := d }))) := by
    rw [exec_klkPub, execKlkPub, hserves]
    dsimp only
    rw [if_neg (by decide), if_neg (by decide), if_neg hmode, hgood, if_neg Bool.false_ne_true, hdraw]
  have henc : ∀ u : State, (xbufPut ((Config.p384Public priv).take 97) u).enc = u.enc := fun u =>
    (Fits.xbufPut _ _ (Fits.refl (Sparing [.enc]) u) ⟨fun k => by simp [Sparing]⟩).within .enc (by simp [Sparing])
  have hkeep := (fits_enclaveReply fw 0x05 0 id.toNat [97] (xbufPut ((Config.p384Public priv).take 97) (modEnc (fun e => { e with
    agree := some priv, agreePub := Config.p384Public priv }) { s with drawn := d }))).reply_enc.trans (henc _)
  exact ⟨_, hrun, repliedWith_enclaveReply _ _ _ _ (boxQuiet_xbufPut (replyBox_lt fw) _ hbox), (congrArg Enc.klk hkeep).trans rfl, priv,
    (congrArg Enc.agree hkeep).trans rfl, (congrArg Enc.agreePub hkeep).trans rfl⟩

theorem exec_klkPub_zeroised (fw : Bool) (id : BitVec 16) (s : State) (hserves : enclaveServes s = true)
    (hbox : boxQuiet s (if fw then 7 else 3)) (hmode : s.mode = 7) :
    ∃ t, exec (.klkPub fw id []) s = .next t ∧ repliedWith t (if fw then 7 else 3) 0x05 6 id.toNat ∧ t.enc = s.enc := by
  have hrun : exec (.klkPub fw id []) s = .next (enclaveRefuse fw 0x05 6 id.toNat 1 s) := by
    rw [exec_klkPub, execKlkPub, hserves, if_neg (by decide)]
    dsimp only
    rw [if_neg (by decide), if_pos hmode]
  exact ⟨_, hrun, enclaveRefuse_refuses _ _ _ _ hbox⟩

/-! ## Expiries and the random source (R410, R419, R427, R443) -/

theorem exec_chgExpiry_frees (h : Fin 4) (x : Handle) (s : State) (hheld : Tbl.find s.enc.handles h.val = some x) :
    ∃ t, exec (.chgExpiry h) s = .next t ∧ t.enc.handles = Tbl.erase s.enc.handles h.val ∧ t.sticky 0xFC 4 := by
  refine ⟨_, by rw [exec_chgExpiry, execChgExpiry, hheld], ?_, sticky_evt _ _ _ (by decide)⟩
  rw [State.evt_enc, handleFree, encReport_enc]
  exact congrArg (fun e : Enc => Tbl.erase e.handles h.val) (State.reach_enc ..)

theorem exec_debugExpire_closes (s : State) (hlevel : s.g F.ENC_STAT_debug_level ≠ 0) :
    ∃ t, exec .debugExpire s = .next t ∧ t.g F.ENC_STAT_debug_level = 0 ∧ t.g F.ENC_DBG_EXPIRE_LO_expire = 0 ∧
      t.g F.ENC_DBG_EXPIRE_HI_expire = 0 ∧ t.sticky 0xFC 6 := by
  refine ⟨_, by rw [exec_debugExpire, execDebugExpire, if_neg hlevel, debugClose, if_neg (by rw [g_reach]; exact hlevel)], ?_⟩
  generalize State.reach s _ = r
  have hdev (u : State) (x : Dev) (f : Field) : State.g { u with dev := x } f = u.g f := rfl
  refine ⟨?_, ?_, ?_, sticky_evt _ _ _ (by decide)⟩
  · rw [g_evt_other _ _ _ (by simp), hdev, g_setF_other _ _ (by simp), g_setF_other _ _ (by simp), g_setF_same]
    rfl
  · rw [g_evt_other _ _ _ (by simp), hdev, g_setF_other _ _ (by simp), g_setF_same]
    rfl
  · rw [g_evt_other _ _ _ (by simp), hdev, g_setF_same]
    rfl

theorem exec_overrideEnd_ends (le : Fin 2) (p h : Nat) (s : State) (hset : Tbl.find s.enc.overrides le.val = some (p, h)) (hh : h ≠ 0) :
    ∃ t, exec (.overrideEnd le) s = .next t ∧ t.enc.overrides = Tbl.erase s.enc.overrides le.val ∧
      (overrideOn s le.val = true → linkOf s le.val = 3 → t.sticky (0xD8 + le.val) 5) := by
  have hrun : exec (.overrideEnd le) s = .next (overrideEnd le.val s) := by
    rw [exec_overrideEnd, execOverrideEnd, hset]
    exact if_neg hh
  refine ⟨_, hrun, ?_, fun hon hlink => ?_⟩
  · rw [overrideEnd]
    dsimp only
    split
    · rw [State.evt_enc, ovReport, State.setB_enc]
    · rw [ovReport, State.setB_enc]
  · rw [overrideEnd, hon, hlink]
    exact sticky_evt _ _ _ (by decide)

theorem exec_trngHealthTest_judges (pass : Bool) (s : State) (hup : enclaveUp s = true) :
    ∃ t, exec (.trngHealthTest pass) s = .next t ∧ t.enc.trngBad = !pass ∧ t.fields = s.fields :=
  ⟨modEnc (fun e => { e with trngBad := !pass }) s, by rw [exec_trngHealthTest, execTrngHealthTest, if_pos hup], rfl, rfl⟩

/-- Settles O47, clause by clause. -/
theorem enclaveAnswers : Obligations.EnclaveAnswers :=
  ⟨exec_nonceGet_issues, exec_nonceGet_full, exec_attest_reports, exec_chgAbort_frees, exec_klkPub_pair, exec_klkPub_zeroised,
    exec_chgExpiry_frees, exec_debugExpire_closes, exec_overrideEnd_ends, exec_trngHealthTest_judges⟩

end Sys2Proof.Machine

/-! CHG_SUBMIT, from a FREE handle to a change applied (O48). -/

namespace Sys2Proof.Machine

/-! ## The answer of a submission (R412, R414, R419) -/

/-- R414: ENC_CHG_LAST takes a submission's handle, op, detail and status. -/
def chgRecorded (h op status detail : Nat) (s : State) : State :=
  ((encReport ((s.setF F.ENC_CHG_LAST_handle h).setF F.ENC_CHG_LAST_op op)).setF F.ENC_CHG_LAST_detail detail).setF
    F.ENC_CHG_LAST_result status

/-- Free values have been drawn up to the `d`-th. -/
def drawnTo (d : Nat) (s : State) : State := { s with drawn := d }

/-- R412: the event of a status: APPLIED, none while a second signature is awaited, or REFUSED. -/
def chgEvent (status : Nat) (s : State) : State :=
  if status = 0 then State.evt 0xFC 2 s else if status = 0x10 then s else State.evt 0xFC 3 s

theorem changeAnswer_eq (fw : Bool) (id h op status detail : Nat) (slot : Option Nat) (held : Nat) (s : State) :
    ∃ more d, changeAnswer fw id h op status detail slot held s =
      enclaveReply fw 0x02 status id more (chgEvent status (drawnTo d (chgRecorded h op status detail s))) := by
  cases slot with
  | some k => exact ⟨[detail * 2 ^ 24 + k % 256 * 2 ^ 8 + held], (chgRecorded h op status detail s).drawn, rfl⟩
  | none => exact ⟨[detail * 2 ^ 24 + ((chgRecorded h op status detail s).draw 8).1 % 256 * 2 ^ 8 + held], _, rfl⟩

theorem chgEvent_enc (status : Nat) (s : State) : (chgEvent status s).enc = s.enc := by
  unfold chgEvent
  split
  · exact State.evt_enc ..
  · split
    · rfl
    · exact State.evt_enc ..

theorem g_chgEvent_other (status : Nat) (s : State) {f : Field} (h : f.key ≠ (F.EVT_STICKY 0xFC).key) : (chgEvent status s).g f = s.g f := by
  unfold chgEvent
  split
  · exact g_evt_other _ _ _ h
  · split
    · rfl
    · exact g_evt_other _ _ _ h

theorem chgRecorded_enc (h op status detail : Nat) (s : State) : (chgRecorded h op status detail s).enc = s.enc := by
  simp [chgRecorded]

section Answer

variable (fw : Bool) (id h op status detail : Nat) (slot : Option Nat) (held : Nat) (s : State)

theorem changeAnswer_enc : (changeAnswer fw id h op status detail slot held s).enc = s.enc := by
  obtain ⟨more, d, heq⟩ := changeAnswer_eq fw id h op status detail slot held s
  rw [heq]
  exact (fits_enclaveReply _ _ _ _ _ _).reply_enc.trans ((chgEvent_enc _ _).trans (chgRecorded_enc h op status detail s))

theorem g_changeAnswer (f : Field) (hf : 0x50000 ≤ f.key) (hne : f.key ≠ (F.EVT_STICKY 0xFC).key) :
    (changeAnswer fw id h op status detail slot held s).g f = (chgRecorded h op status detail s).g f := by
  obtain ⟨more, d, heq⟩ := changeAnswer_eq fw id h op status detail slot held s
  rw [heq, (fits_enclaveReply _ _ _ _ _ _).reply_g hf, g_chgEvent_other _ _ hne]
  rfl

theorem changeAnswer_result : (changeAnswer fw id h op status detail slot held s).g F.ENC_CHG_LAST_result = status % 256 := by
  rw [g_changeAnswer _ _ _ _ _ _ _ _ _ _ (by simp) (by simp), chgRecorded, g_setF_same]
  rfl

theorem changeAnswer_op : (changeAnswer fw id h op status detail slot held s).g F.ENC_CHG_LAST_op = op % 2 ^ 12 := by
  rw [g_changeAnswer _ _ _ _ _ _ _ _ _ _ (by simp) (by simp), chgRecorded, g_setF_other _ _ (by simp), g_setF_other _ _ (by simp),
    g_encReport_other _ (by simp), g_setF_same]
  rfl

theorem changeAnswer_refused (hrefused : status ≠ 0) (hmore : status ≠ 0x10) :
    (changeAnswer fw id h op status detail slot held s).sticky 0xFC 3 := by
  obtain ⟨more, d, heq⟩ := changeAnswer_eq fw id h op status detail slot held s
  rw [heq, chgEvent, if_neg hrefused, if_neg hmore]
  exact (fits_enclaveReply _ _ _ _ _ _).reply_sticky (by decide) (sticky_evt _ _ _ (by decide))

theorem changeAnswer_applied : (changeAnswer fw id h op 0 detail slot held s).sticky 0xFC 2 := by
  obtain ⟨more, d, heq⟩ := changeAnswer_eq fw id h op 0 detail slot held s
  rw [heq, chgEvent, if_pos rfl]
  exact (fits_enclaveReply _ _ _ _ _ _).reply_sticky (by decide) (sticky_evt _ _ _ (by decide))

/-- What an answer leaves besides the enclave's storage. -/
theorem fits_changeAnswer : Fits (Sparing [.dev, .reg F.TMP_CFG_enables.key, .reg F.ENC_STAT_debug_level.key]) s
    (changeAnswer fw id h op status detail slot held s) := by
  refine Fits.changeAnswer _ _ _ _ _ _ _ _ _ (Fits.refl _ s) ?_
  repeat' first | with_reducible intro _ | constructor
  all_goals simp [Sparing]
  all_goals omega

theorem changeAnswer_dev : (changeAnswer fw id h op status detail slot held s).dev = s.dev :=
  (fits_changeAnswer fw id h op status detail slot held s).dev_spared (by simp)

/-- R414: on a quiet direction the answer's word 0 stands first. -/
theorem repliedWith_changeAnswer (hbox : boxQuiet s (if fw then 7 else 3)) :
    repliedWith (changeAnswer fw id h op status detail slot held s) (if fw then 7 else 3) 0x02 status id := by
  obtain ⟨more, d, heq⟩ := changeAnswer_eq fw id h op status detail slot held s
  rw [heq]
  refine repliedWith_enclaveReply _ _ _ _ (boxQuiet_of_fits hbox ?_)
  have hlt : replyBox fw < 12 := replyBox_lt fw
  have hrec : Fits (Sparing (boxParts (replyBox fw))) s (drawnTo d (chgRecorded h op status detail s)) := by
    refine Fits.upd_drawn (Fits.setF _ _ _ (Fits.setF _ _ _ (fits_encReport (Fits.setF _ _ _ (Fits.setF _ _ _ (Fits.refl _ s) ?_) ?_)
      fun b hb => ?_) ?_) ?_) ?_ d
    all_goals simp [Sparing, boxParts]
    all_goals omega
  change Fits (Sparing (boxParts (replyBox fw))) s _
  have hevt (b : Nat) : Fits (Sparing (boxParts (replyBox fw))) s (State.evt 0xFC b (drawnTo d (chgRecorded h op status detail s))) := by
    refine Fits.evt _ _ _ hrec ?_
    repeat' constructor
    all_goals simp [Sparing, boxParts]
    all_goals omega
  unfold chgEvent
  by_cases h0 : status = 0
  · rw [if_pos h0]
    exact hevt 2
  · rw [if_neg h0]
    by_cases h10 : status = 0x10
    · rwa [if_pos h10]
    · rw [if_neg h10]
      exact hevt 3

end Answer

/-! ## Submissions (R418, R419) -/

section Submit

variable {fw : Bool} {id : BitVec 16} {w : Word} {s : State}

/-- The bytes of a submission's request and signature records. -/
def chgLength (w : Word) : Nat := w.toNat / 2 ^ 16 % 2 ^ 12

theorem exec_chgSubmit_eq (hserves : enclaveServes s = true) {t : State} (hdev : t.dev.bootPending = false) (x : Handle)
    (hheld : Tbl.find s.enc.handles (w.toNat % 4) = some x)
    (ht : changeSubmit fw id.toNat (w.toNat % 4) (chgLength w) x s = t) : exec (.chgSubmit fw id [w]) s = .next t := by
  have hrun : chgSubmit fw id.toNat [w] s = t := by
    rw [chgSubmit, hserves, if_neg (by decide)]
    dsimp only
    rw [hheld]
    exact ht
  rw [exec_chgSubmit, execChgSubmit, hrun, boot_of_not_pending hdev]

theorem exec_chgSubmit_free (hserves : enclaveServes s = true) (hset : settled s) (hfree : Tbl.find s.enc.handles (w.toNat % 4) = none) :
    exec (.chgSubmit fw id [w]) s = .next (changeAnswer fw id.toNat (w.toNat % 4) (leNat (xbufBytes s 8) 6 2 % 2 ^ 12) 0x12 0 none 0 s) := by
  have hrun : chgSubmit fw id.toNat [w] s =
      changeAnswer fw id.toNat (w.toNat % 4) (leNat (xbufBytes s 8) 6 2 % 2 ^ 12) 0x12 0 none 0 s := by
    rw [chgSubmit, hserves, if_neg (by decide)]
    dsimp only
    rw [hfree]
  rw [exec_chgSubmit, execChgSubmit, hrun, boot_of_not_pending (by rw [changeAnswer_dev]; exact hset.1)]

end Submit

/-- The op of a request as an answer records it. -/
def chgOp (len : Nat) (s : State) : Nat := leNat (xbufBytes s (min len 1536)) 6 2 % 2 ^ 12

/-- Whether the signer of a first signature is held. -/
def chgHeld (x : Handle) : Nat := if x.signed.isSome then 1 else 0

section Cases

variable {fw : Bool} {id h len : Nat} {x : Handle} {s : State}

theorem changeSubmit_expired (hexp : x.issued + 600000000000 ≤ s.now) :
    changeSubmit fw id h len x s = changeAnswer fw id h (chgOp len s) 0x11 0 none (chgHeld x) s := by
  rw [changeSubmit]
  exact if_pos hexp

theorem changeSubmit_malformed (hlive : s.now < x.issued + 600000000000) (hbad : 1536 < len ∨ changeParse (xbufBytes s len) = none) :
    changeSubmit fw id h len x s = changeAnswer fw id h (chgOp len s) 0x13 0 none (chgHeld x) s := by
  have hnone : (if len ≤ 1536 then changeParse (xbufBytes s (min len 1536)) else none) = none := by
    split
    · next hle =>
      rw [Nat.min_eq_left hle]
      exact hbad.resolve_left (by omega)
    · rfl
  rw [changeSubmit]
  dsimp only
  rw [if_neg (by omega), hnone]
  rfl

section Judged

variable {c : Change} (hlive : s.now < x.issued + 600000000000) (hlen : len ≤ 1536) (hparse : changeParse (xbufBytes s len) = some c)
include hlive hlen hparse

theorem changeSubmit_refused (hst : (changeCheck c x s).1 ≠ 0) : ∃ slot held u, (u = s ∨ u = handleFree h s) ∧
    (((changeCheck c x s).1 = 0x18 ∨ (changeCheck c x s).1 = 6 ∨ (changeCheck c x s).1 = 0x19) → u = handleFree h s) ∧
    changeSubmit fw id h len x s = changeAnswer fw id h (chgOp len s) (changeCheck c x s).1 0 slot held u := by
  have hsome : (if len ≤ 1536 then changeParse (xbufBytes s (min len 1536)) else none) = some c := by
    rw [if_pos hlen, Nat.min_eq_left hlen, hparse]
  rw [changeSubmit]
  dsimp only
  rw [if_neg (by omega), hsome]
  dsimp only
  rw [← chgOp]
  split
  · exact ⟨_, _, s, .inl rfl, fun hfree => by omega, rfl⟩
  · exact ⟨_, _, _, .inr rfl, fun _ => rfl, rfl⟩

theorem changeSubmit_first {r : Nat × List Byte} (hst : (changeCheck c x s).1 = 0) (hone : c.records = [r]) (hnone : x.signed = none) :
    changeSubmit fw id h len x s = changeAnswer fw id h (chgOp len s) 0x10 0 (changeCheck c x s).2 1
      (modEnc (fun e => { e with handles := Tbl.insert e.handles h { x with signed := some (c.request, r.1) } }) s) := by
  have hsome : (if len ≤ 1536 then changeParse (xbufBytes s (min len 1536)) else none) = some c := by
    rw [if_pos hlen, Nat.min_eq_left hlen, hparse]
  rw [changeSubmit]
  dsimp only
  rw [if_neg (by omega), hsome]
  dsimp only
  rw [← chgOp, hst, if_neg (by decide), if_neg (by decide), hone, hnone]

theorem changeSubmit_applies {t : State} (hst : (changeCheck c x s).1 = 0) (hboth : c.records.length ≠ 1 ∨ x.signed ≠ none)
    (happly : changeApply c.op c.payload x.nonce s = ((0, 0), t)) :
    changeSubmit fw id h len x s =
      changeAfter c.op (changeAnswer fw id h (chgOp len s) 0 0 (changeCheck c x s).2 0 (handleFree h t)) := by
  have hsome : (if len ≤ 1536 then changeParse (xbufBytes s (min len 1536)) else none) = some c := by
    rw [if_pos hlen, Nat.min_eq_left hlen, hparse]
  rw [changeSubmit]
  dsimp only
  rw [if_neg (by omega), hsome]
  dsimp only
  rw [← chgOp, hst, if_neg (by decide), if_neg (by decide)]
  split
  · next r hone hnone => exact absurd hnone (hboth.resolve_left (by rw [hone]; exact fun h => h rfl))
  · rw [happly]
    dsimp only
    rw [if_neg (by decide), if_neg (by decide)]

end Judged

/-- R418: a request names its op in its bytes 6 and 7. -/
theorem changeParse_op {b : List Byte} {c : Change} (hparse : changeParse b = some c) : c.op = leNat b 6 2 ∧ c.op ≤ 10 := by
  unfold changeParse at hparse
  dsimp only at hparse
  obtain ⟨⟨-, -, -, -, -, -, -, -, hop⟩, hc⟩ := Option.ite_none_right_eq_some.1 hparse
  rw [← Option.some.inj hc]
  exact ⟨rfl, hop⟩

theorem chgOp_eq {c : Change} (hlen : len ≤ 1536) (hparse : changeParse (xbufBytes s len) = some c) : chgOp len s = c.op := by
  obtain ⟨hop, hle⟩ := changeParse_op hparse
  rw [chgOp, Nat.min_eq_left hlen, ← hop]
  exact Nat.mod_eq_of_lt (by omega)

end Cases

/-- The statuses that a check can come to (R419 steps 4 to 10). -/
theorem changeCheck_lt (c : Change) (x : Handle) (s : State) : (changeCheck c x s).1 < 0x20 ∧ (changeCheck c x s).1 ≠ 0x10 := by
  unfold changeCheck
  dsimp only
  repeat' split
  all_goals
    dsimp only
    exact ⟨by decide, by decide⟩

/-! ## Submissions that change nothing but a handle (R419) -/

theorem handleFree_handles (h : Nat) (s : State) : (handleFree h s).enc.handles = Tbl.erase s.enc.handles h := by
  rw [handleFree, encReport_enc]
  rfl

theorem handleFree_officers (h : Nat) (s : State) : (handleFree h s).enc.officers = s.enc.officers := by
  rw [handleFree, encReport_enc]
  rfl

theorem handleFree_rollback (h : Nat) (s : State) : (handleFree h s).enc.rollback = s.enc.rollback := by
  rw [handleFree, encReport_enc]
  rfl

theorem handleFree_dev (h : Nat) (s : State) : (handleFree h s).dev = s.dev := by
  rw [handleFree, encReport]
  simp [modEnc]

theorem boxQuiet_handleFree {n : Nat} (hn : n < 12) (h : Nat) {s : State} (hbox : boxQuiet s n) : boxQuiet (handleFree h s) n :=
  boxQuiet_encReport hn hbox

section Submissions

variable (fw : Bool) (id : BitVec 16) (w : Word)

theorem exec_chgSubmit_freeHandle (s : State) (hserves : enclaveServes s = true) (hset : settled s)
    (hbox : boxQuiet s (if fw then 7 else 3)) (hfree : Tbl.find s.enc.handles (w.toNat % 4) = none) :
    ∃ t, exec (.chgSubmit fw id [w]) s = .next t ∧ repliedWith t (if fw then 7 else 3) 0x02 0x12 id.toNat ∧
      t.g F.ENC_CHG_LAST_result = 0x12 ∧ t.sticky 0xFC 3 ∧ t.enc = s.enc :=
  ⟨_, exec_chgSubmit_free hserves hset hfree, repliedWith_changeAnswer _ _ _ _ _ _ _ _ _ hbox, changeAnswer_result ..,
    changeAnswer_refused _ _ _ _ _ _ _ _ _ (by decide) (by decide), changeAnswer_enc ..⟩

theorem exec_chgSubmit_expired (x : Handle) (s : State) (hserves : enclaveServes s = true) (hset : settled s)
    (hbox : boxQuiet s (if fw then 7 else 3)) (hheld : Tbl.find s.enc.handles (w.toNat % 4) = some x)
    (hexp : x.issued + 600000000000 ≤ s.now) :
    ∃ t, exec (.chgSubmit fw id [w]) s = .next t ∧ repliedWith t (if fw then 7 else 3) 0x02 0x11 id.toNat ∧
      t.g F.ENC_CHG_LAST_result = 0x11 ∧ t.enc = s.enc :=
  ⟨_, exec_chgSubmit_eq hserves (by rw [changeAnswer_dev]; exact hset.1) x hheld (changeSubmit_expired hexp),
    repliedWith_changeAnswer _ _ _ _ _ _ _ _ _ hbox, changeAnswer_result .., changeAnswer_enc ..⟩

theorem exec_chgSubmit_malformed (x : Handle) (s : State) (hserves : enclaveServes s = true) (hset : settled s)
    (hbox : boxQuiet s (if fw then 7 else 3)) (hheld : Tbl.find s.enc.handles (w.toNat % 4) = some x)
    (hlive : s.now < x.issued + 600000000000)
    (hbad : 1536 < w.toNat / 2 ^ 16 % 2 ^ 12 ∨ changeParse (xbufBytes s (w.toNat / 2 ^ 16 % 2 ^ 12)) = none) :
    ∃ t, exec (.chgSubmit fw id [w]) s = .next t ∧ repliedWith t (if fw then 7 else 3) 0x02 0x13 id.toNat ∧
      t.g F.ENC_CHG_LAST_result = 0x13 ∧ t.enc = s.enc :=
  ⟨_, exec_chgSubmit_eq hserves (by rw [changeAnswer_dev]; exact hset.1) x hheld (changeSubmit_malformed hlive hbad),
    repliedWith_changeAnswer _ _ _ _ _ _ _ _ _ hbox, changeAnswer_result .., changeAnswer_enc ..⟩

theorem exec_chgSubmit_refused (x : Handle) (c : Change) (s : State) (hserves : enclaveServes s = true) (hset : settled s)
    (hbox : boxQuiet s (if fw then 7 else 3)) (hsub : submits s w x c) (hst : (changeCheck c x s).1 ≠ 0) :
    ∃ t, exec (.chgSubmit fw id [w]) s = .next t ∧ repliedWith t (if fw then 7 else 3) 0x02 (changeCheck c x s).1 id.toNat ∧
      t.g F.ENC_CHG_LAST_result = (changeCheck c x s).1 ∧ t.sticky 0xFC 3 ∧ t.enc.officers = s.enc.officers ∧
      (((changeCheck c x s).1 = 0x18 ∨ (changeCheck c x s).1 = 6 ∨ (changeCheck c x s).1 = 0x19) →
        t.enc.handles = Tbl.erase s.enc.handles (w.toNat % 4)) := by
  obtain ⟨hheld, hlive, hlen, hparse⟩ := hsub
  obtain ⟨hlt, hmore⟩ := changeCheck_lt c x s
  obtain ⟨slot, held, u, hu, hfree, hrun⟩ := changeSubmit_refused (fw := fw) (id := id.toNat) (h := w.toNat % 4) hlive hlen hparse hst
  have hdev : u.dev = s.dev := by
    rcases hu with rfl | rfl
    · rfl
    · exact handleFree_dev _ _
  have hquiet : boxQuiet u (if fw then 7 else 3) := by
    rcases hu with rfl | rfl
    · exact hbox
    · exact boxQuiet_handleFree (replyBox_lt fw) _ hbox
  refine ⟨_, exec_chgSubmit_eq hserves (by rw [changeAnswer_dev, hdev]; exact hset.1) x hheld hrun,
    repliedWith_changeAnswer _ _ _ _ _ _ _ _ _ hquiet, ?_, changeAnswer_refused _ _ _ _ _ _ _ _ _ hst hmore, ?_, fun hcode => ?_⟩
  · rw [changeAnswer_result]
    exact Nat.mod_eq_of_lt (by omega)
  · rw [changeAnswer_enc]
    rcases hu with rfl | rfl
    · rfl
    · exact handleFree_officers _ _
  · rw [changeAnswer_enc, hfree hcode, handleFree_handles]

/-- Whatever its check comes to, a submission in time is answered with its op. -/
theorem exec_chgSubmit_op_of_refused (x : Handle) (c : Change) (s : State) (hserves : enclaveServes s = true) (hset : settled s)
    (hsub : submits s w x c) (hst : (changeCheck c x s).1 ≠ 0) :
    ∃ t, exec (.chgSubmit fw id [w]) s = .next t ∧ t.g F.ENC_CHG_LAST_op = c.op := by
  obtain ⟨hheld, hlive, hlen, hparse⟩ := hsub
  obtain ⟨slot, held, u, hu, -, hrun⟩ := changeSubmit_refused (fw := fw) (id := id.toNat) (h := w.toNat % 4) hlive hlen hparse hst
  have hdev : u.dev = s.dev := by
    rcases hu with rfl | rfl
    · rfl
    · exact handleFree_dev _ _
  refine ⟨_, exec_chgSubmit_eq hserves (by rw [changeAnswer_dev, hdev]; exact hset.1) x hheld hrun, ?_⟩
  rw [changeAnswer_op, chgOp_eq hlen hparse]
  exact Nat.mod_eq_of_lt (by have := (changeParse_op hparse).2; omega)

theorem exec_chgSubmit_first (x : Handle) (c : Change) (r : Nat × List Byte) (s : State) (hserves : enclaveServes s = true)
    (hset : settled s) (hbox : boxQuiet s (if fw then 7 else 3)) (hsub : submits s w x c) (hone : c.records = [r])
    (hnone : x.signed = none) :
    ∃ t, exec (.chgSubmit fw id [w]) s = .next t ∧ t.g F.ENC_CHG_LAST_op = c.op ∧
      ((changeCheck c x s).1 = 0 → t.g F.ENC_CHG_LAST_result = 0x10 ∧ repliedWith t (if fw then 7 else 3) 0x02 0x10 id.toNat ∧
        t.enc.officers = s.enc.officers ∧
        Tbl.find t.enc.handles (w.toNat % 4) = some { x with signed := some (c.request, r.1) }) := by
  by_cases hst : (changeCheck c x s).1 = 0
  · obtain ⟨hheld, hlive, hlen, hparse⟩ := hsub
    have hrun := changeSubmit_first (fw := fw) (id := id.toNat) (h := w.toNat % 4) hlive hlen hparse hst hone hnone
    refine ⟨_, exec_chgSubmit_eq hserves (by rw [changeAnswer_dev]; exact hset.1) x hheld hrun, ?_, fun _ => ⟨changeAnswer_result ..,
      repliedWith_changeAnswer _ _ _ _ _ _ _ _ _ hbox, ?_, ?_⟩⟩
    · rw [changeAnswer_op, chgOp_eq hlen hparse]
      exact Nat.mod_eq_of_lt (by have := (changeParse_op hparse).2; omega)
    · rw [changeAnswer_enc]
      rfl
    · rw [changeAnswer_enc]
      exact Tbl.find_insert_same ..
  · obtain ⟨t, ht, hop⟩ := exec_chgSubmit_op_of_refused fw id w x c s hserves hset hsub hst
    exact ⟨t, ht, hop, fun h => absurd h hst⟩

end Submissions

/-! ## A change applied (R416, R422, R427) -/

/-- What the application of a change needs for its answer, and leaves of the handles. -/
structure Applies (n : Nat) (s t : State) : Prop where
  quiet : boxQuiet t n
  boot : t.dev.bootPending = s.dev.bootPending
  handles : t.enc.handles = s.enc.handles

theorem applies_of_fits {n : Nat} {s t : State} (hbox : boxQuiet s n) (hfit : Fits (Sparing (.enc :: boxParts n)) s t) :
    Applies n s t := by
  have hsub : Fits (Sparing (boxParts n)) s t := ⟨fun p hp => hfit.within p fun h => hp fun hmem => h (List.mem_cons_of_mem _ hmem), hfit.tidy⟩
  exact ⟨boxQuiet_of_fits hbox hsub, congrArg Dev.bootPending (hfit.dev_spared (by simp [boxParts])),
    congrArg Enc.handles (hfit.within .enc (not_not_intro (by simp)))⟩

/-- What an applied change has done: its officers, sensors, debug level and rollback counter, by its op. -/
structure Done (n op : Nat) (p : List Byte) (s t : State) : Prop extends Applies n s t where
  officers : t.enc.officers = if op = 1 then officerEntries p else s.enc.officers
  enables : op = 3 → t.g F.TMP_CFG_enables = byteAt p 1
  debug : op = 6 → t.g F.ENC_STAT_debug_level = byteAt p 0 % 4
  rollback : op = 9 → t.enc.rollback = max s.enc.rollback (byteAt p 0)

section Ops

variable {n : Nat} (hn : n < 12) (p nonce : List Byte) {s : State} (hbox : boxQuiet s n)
include hn hbox

omit hn in
theorem done_officers : Done n 1 p s (modEnc (fun e => { e with officers := officerEntries p }) s) :=
  ⟨⟨hbox, rfl, rfl⟩, rfl, fun h => absurd h (by decide), fun h => absurd h (by decide), fun h => absurd h (by decide)⟩

theorem done_sensors : Done n 3 p s
    ((((s.setF F.TMP_CFG_response (byteAt p 0)).setF F.TMP_CFG_enables (byteAt p 1)).setF F.TMP_CFG_temp_low (byteAt p 2)).setF
      F.TMP_CFG_temp_high (byteAt p 3)) := by
  have hfit : Fits (Sparing (.enc :: boxParts n)) s
      ((((s.setF F.TMP_CFG_response (byteAt p 0)).setF F.TMP_CFG_enables (byteAt p 1)).setF F.TMP_CFG_temp_low (byteAt p 2)).setF
        F.TMP_CFG_temp_high (byteAt p 3)) := by
    refine Fits.setF _ _ _ (Fits.setF _ _ _ (Fits.setF _ _ _ (Fits.setF _ _ _ (Fits.refl _ s) ?_) ?_) ?_) ?_
    all_goals simp [Sparing, boxParts]
    all_goals omega
  refine ⟨applies_of_fits hbox hfit, rfl, fun _ => ?_, fun h => absurd h (by decide), fun h => absurd h (by decide)⟩
  rw [g_setF_other _ _ (by simp), g_setF_other _ _ (by simp), g_setF_same]
  exact Nat.mod_eq_of_lt (byteAt_lt p 1)

/-- The registers that a debug unlock sets. -/
def debugSet (level time : Nat) (s : State) : State :=
  ((s.setF F.ENC_STAT_debug_level level).setF F.ENC_DBG_EXPIRE_LO_expire time).setF F.ENC_DBG_EXPIRE_HI_expire (time / 2 ^ 32)

/-- A debug unlock is in force. -/
def debugFlag (s : State) : State := { s with dev := { s.dev with debugUp := true } }

omit hn hbox in
theorem debugUnlock_eq (level minutes : Nat) (s : State) : ∃ u time, (u = cipErase 2 s ∨ u = s) ∧
    debugUnlock level minutes s = State.evt 0xFC 5 (debugFlag (debugSet level time u)) := by
  by_cases hlevel : level = 2
  · rw [debugUnlock, if_pos hlevel]
    dsimp only
    generalize State.now _ + minutes * 60000000000 = time
    exact ⟨cipErase 2 s, time, .inl rfl, rfl⟩
  · rw [debugUnlock, if_neg hlevel]
    dsimp only
    generalize State.now _ + minutes * 60000000000 = time
    exact ⟨s, time, .inr rfl, rfl⟩

theorem done_debug : Done n 6 p s (debugUnlock (byteAt p 0) (leNat p 4 4) s) := by
  obtain ⟨u, time, hu, hrun⟩ := debugUnlock_eq (byteAt p 0) (leNat p 4 4) s
  have herase : Fits (Sparing (.enc :: boxParts n)) s u := by
    rcases hu with hu | hu
    · rw [hu]
      refine Fits.cipErase _ _ (Fits.refl _ s) ?_
      repeat' first | with_reducible intro _ | constructor
      all_goals simp [Sparing, boxParts]
      all_goals omega
    · rw [hu]
      exact Fits.refl _ _
  have hset : Fits (Sparing (.enc :: boxParts n)) s (debugSet (byteAt p 0) time u) := by
    refine Fits.setF _ _ _ (Fits.setF _ _ _ (Fits.setF _ _ _ herase ?_) ?_) ?_
    all_goals simp [Sparing, boxParts]
    all_goals omega
  obtain ⟨hquiet, hboot, hhandles⟩ := applies_of_fits hbox hset
  have hlevel : (debugSet (byteAt p 0) time u).g F.ENC_STAT_debug_level = byteAt p 0 % 4 := by
    rw [debugSet, g_setF_other _ _ (by simp), g_setF_other _ _ (by simp), g_setF_same]
    rfl
  have hofficers : (debugSet (byteAt p 0) time u).enc.officers = s.enc.officers :=
    congrArg Enc.officers (hset.within .enc (not_not_intro (by simp)))
  rw [hrun]
  generalize debugSet (byteAt p 0) time u = v at hquiet hboot hhandles hlevel hofficers
  have hevt : Fits (Sparing (.enc :: boxParts n)) (debugFlag v) (State.evt 0xFC 5 (debugFlag v)) := by
    refine Fits.evt _ _ _ (Fits.refl _ _) ?_
    repeat' constructor
    all_goals simp [Sparing, boxParts]
    all_goals omega
  obtain ⟨equiet, eboot, ehandles⟩ := applies_of_fits (n := n) (s := debugFlag v) hquiet hevt
  have eenc : (State.evt 0xFC 5 (debugFlag v)).enc = v.enc := State.evt_enc ..
  refine ⟨⟨equiet, eboot.trans hboot, ehandles.trans hhandles⟩, ?_, fun h => absurd h (by decide), fun _ => ?_, fun h => absurd h (by decide)⟩
  · rw [eenc]
    exact hofficers
  · rw [g_evt_other _ _ _ (by simp)]
    exact hlevel

theorem done_rollback : ∃ t, changeApply 9 p nonce s = ((0, 0), t) ∧ Done n 9 p s t := by
  by_cases hle : byteAt p 0 ≤ s.enc.rollback
  · exact ⟨s, if_pos hle, ⟨hbox, rfl, rfl⟩, rfl, fun h => absurd h (by decide), fun h => absurd h (by decide), fun _ => (Nat.max_eq_left hle).symm⟩
  · refine ⟨_, if_neg hle, ?_⟩
    have hfit : Fits (Sparing (.enc :: boxParts n)) (modEnc (fun e => { e with rollback := byteAt p 0 }) s)
        (State.evt 0xFC 7 ((modEnc (fun e => { e with rollback := byteAt p 0 }) s).setF F.DEV_STATUS_rollback_count (byteAt p 0))) := by
      refine Fits.evt _ _ _ (Fits.setF _ _ _ (Fits.refl _ _) ?_) ?_
      repeat' constructor
      all_goals simp [Sparing, boxParts]
      all_goals omega
    have henc := hfit.within .enc (not_not_intro (by simp))
    obtain ⟨hquiet, hboot, hhandles⟩ := applies_of_fits (n := n) (s := modEnc (fun e => { e with rollback := byteAt p 0 }) s) hbox hfit
    refine ⟨⟨hquiet, hboot, hhandles⟩, (congrArg Enc.officers henc).trans rfl, fun h => absurd h (by decide), fun h => absurd h (by decide),
      fun _ => (congrArg Enc.rollback henc).trans (Nat.max_eq_right (Nat.le_of_not_le hle)).symm⟩

theorem changeApply_done {op : Nat} (hop : op = 1 ∨ op = 3 ∨ op = 6 ∨ op = 9) :
    ∃ t, changeApply op p nonce s = ((0, 0), t) ∧ Done n op p s t := by
  rcases hop with rfl | rfl | rfl | rfl
  · exact ⟨_, rfl, done_officers p hbox⟩
  · exact ⟨_, rfl, done_sensors hn p hbox⟩
  · exact ⟨_, rfl, done_debug hn p hbox⟩
  · exact done_rollback hn p nonce hbox

end Ops

theorem fits_handleFree (h : Nat) (s : State) :
    Fits (Sparing [.reg F.TMP_CFG_enables.key, .reg F.ENC_STAT_debug_level.key]) s (handleFree h s) := by
  refine Fits.handleFree _ _ (Fits.refl _ s) ?_
  repeat' constructor
  all_goals simp [Sparing]

theorem exec_chgSubmit_applied (fw : Bool) (id : BitVec 16) (w : Word) (x : Handle) (c : Change) (s : State)
    (hserves : enclaveServes s = true) (hset : settled s) (hbox : boxQuiet s (if fw then 7 else 3)) (hsub : submits s w x c)
    (hboth : c.records.length ≠ 1 ∨ x.signed ≠ none) (hop : c.op = 1 ∨ c.op = 3 ∨ c.op = 6 ∨ c.op = 9) :
    ∃ t, exec (.chgSubmit fw id [w]) s = .next t ∧ t.g F.ENC_CHG_LAST_op = c.op ∧
      ((changeCheck c x s).1 = 0 → t.g F.ENC_CHG_LAST_result = 0 ∧ t.sticky 0xFC 2 ∧ repliedWith t (if fw then 7 else 3) 0x02 0 id.toNat ∧
        t.enc.handles = Tbl.erase s.enc.handles (w.toNat % 4) ∧
        t.enc.officers = (if c.op = 1 then officerEntries c.payload else s.enc.officers) ∧
        (c.op = 3 → t.g F.TMP_CFG_enables = byteAt c.payload 1) ∧
        (c.op = 6 → t.g F.ENC_STAT_debug_level = byteAt c.payload 0 % 4) ∧
        (c.op = 9 → t.enc.rollback = max s.enc.rollback (byteAt c.payload 0))) := by
  by_cases hst : (changeCheck c x s).1 = 0
  · obtain ⟨hheld, hlive, hlen, hparse⟩ := hsub
    obtain ⟨u, happly, hdone⟩ := changeApply_done (replyBox_lt fw) c.payload x.nonce hbox hop
    obtain ⟨⟨hquiet, hboot, hhandles⟩, hofficers, henables, hdebug, hrollback⟩ := hdone
    have hafter (v : State) : changeAfter c.op v = v := by rcases hop with h | h | h | h <;> rw [h] <;> rfl
    have hrun := changeSubmit_applies (fw := fw) (id := id.toNat) (h := w.toNat % 4) hlive hlen hparse hst hboth happly
    rw [hafter] at hrun
    have hkeep := fits_changeAnswer fw id.toNat (w.toNat % 4) (chgOp (w.toNat / 2 ^ 16 % 2 ^ 12) s) 0 0 (changeCheck c x s).2 0
      (handleFree (w.toNat % 4) u)
    have hfree := fits_handleFree (w.toNat % 4) u
    refine ⟨_, exec_chgSubmit_eq hserves (by rw [changeAnswer_dev, handleFree_dev, hboot]; exact hset.1) x hheld hrun, ?_, fun _ =>
      ⟨changeAnswer_result .., changeAnswer_applied .., repliedWith_changeAnswer _ _ _ _ _ _ _ _ _
        (boxQuiet_handleFree (replyBox_lt fw) _ hquiet), ?_, ?_, fun h => ?_, fun h => ?_, fun h => ?_⟩⟩
    · rw [changeAnswer_op, chgOp_eq hlen hparse]
      exact Nat.mod_eq_of_lt (by have := (changeParse_op hparse).2; omega)
    · rw [changeAnswer_enc, handleFree_handles, hhandles]
    · rw [changeAnswer_enc, handleFree_officers, hofficers]
    · rw [hkeep.g_spared (by simp), hfree.g_spared (by simp), henables h]
    · rw [hkeep.g_spared (by simp), hfree.g_spared (by simp), hdebug h]
    · rw [changeAnswer_enc, handleFree_rollback, hrollback h]
  · obtain ⟨t, ht, hop⟩ := exec_chgSubmit_op_of_refused fw id w x c s hserves hset hsub hst
    exact ⟨t, ht, hop, fun h => absurd h hst⟩

/-- Settles O48, clause by clause: each submission by the answer it comes to. -/
theorem changesAreCosigned : Obligations.ChangesAreCosigned :=
  ⟨exec_chgSubmit_freeHandle, exec_chgSubmit_expired, exec_chgSubmit_malformed, exec_chgSubmit_refused, exec_chgSubmit_first,
    exec_chgSubmit_applied⟩

end Sys2Proof.Machine

/-! The operations that may touch everything but the queue. -/

namespace Sys2Proof.Machine

/-- Everything but the queue may change. -/
structure AllButQueue (N : Part → Prop) : Prop where
  may (p : Part) (hp : p ≠ .pending) : N p

section
variable {N : Part → Prop} (h : AllButQueue N)
include h

theorem busRead_ofDevice : Touches.busRead N := by
  repeat' first
    | with_reducible intro _
    | with_reducible constructor
    | exact h.may _ fun e => Part.noConfusion e

theorem rxChange_ofDevice (le : Nat) : Touches.rxChange N le := by
  repeat' first
    | with_reducible intro _
    | with_reducible constructor
    | exact h.may _ fun e => Part.noConfusion e

theorem pageIdle_ofDevice : Touches.pageIdle N := by
  repeat' first
    | with_reducible intro _
    | with_reducible constructor
    | exact h.may _ fun e => Part.noConfusion e

theorem deviceReset_ofDevice : Touches.deviceReset N := by
  repeat' first
    | with_reducible intro _
    | with_reducible constructor
    | exact h.may _ fun e => Part.noConfusion e

theorem windowWrites_ofDevice : Touches.windowWrites N := by
  repeat' first
    | with_reducible intro _
    | with_reducible constructor
    | exact h.may _ fun e => Part.noConfusion e

theorem engineOff_ofDevice (le : Nat) : Touches.engineOff N le := by
  repeat' first
    | with_reducible intro _
    | with_reducible constructor
    | exact h.may _ fun e => Part.noConfusion e

theorem engineFail_ofDevice (le : Nat) : Touches.engineFail N le := by
  repeat' first
    | with_reducible intro _
    | with_reducible constructor
    | exact h.may _ fun e => Part.noConfusion e

theorem recoveryWord_ofDevice : Touches.recoveryWord N := by
  repeat' first
    | with_reducible exact deviceReset_ofDevice h
    | with_reducible intro _
    | with_reducible constructor
    | exact h.may _ fun e => Part.noConfusion e

theorem ruleActions_ofDevice : Touches.ruleActions N := by
  repeat' first
    | with_reducible exact engineOff_ofDevice h _
    | with_reducible intro _
    | with_reducible constructor
    | exact h.may _ fun e => Part.noConfusion e

theorem modeRequest_ofDevice : Touches.modeRequest N := by
  repeat' first
    | with_reducible exact deviceReset_ofDevice h
    | with_reducible exact engineOff_ofDevice h _
    | with_reducible intro _
    | with_reducible constructor
    | exact h.may _ fun e => Part.noConfusion e

theorem engineApply_ofDevice (le : Nat) : Touches.engineApply N le := by
  repeat' first
    | with_reducible exact engineOff_ofDevice h _
    | with_reducible exact rxChange_ofDevice h _
    | with_reducible exact engineFail_ofDevice h _
    | with_reducible intro _
    | with_reducible constructor
    | exact h.may _ fun e => Part.noConfusion e

theorem domApply_ofDevice (d : Nat) : Touches.domApply N d := by
  repeat' first
    | with_reducible exact engineApply_ofDevice h _
    | with_reducible intro _
    | with_reducible constructor
    | exact h.may _ fun e => Part.noConfusion e

theorem headerWrite_ofDevice : Touches.headerWrite N := by
  repeat' first
    | with_reducible exact domApply_ofDevice h _
    | with_reducible exact pageIdle_ofDevice h
    | with_reducible intro _
    | with_reducible constructor
    | exact h.may _ fun e => Part.noConfusion e

theorem blockWrite_ofDevice : Touches.blockWrite N := by
  repeat' first
    | with_reducible exact domApply_ofDevice h _
    | with_reducible exact deviceReset_ofDevice h
    | with_reducible exact modeRequest_ofDevice h
    | with_reducible intro _
    | with_reducible constructor
    | exact h.may _ fun e => Part.noConfusion e

theorem busWrite_ofDevice : Touches.busWrite N := by
  repeat' first
    | with_reducible exact modeRequest_ofDevice h
    | with_reducible exact headerWrite_ofDevice h
    | with_reducible exact blockWrite_ofDevice h
    | with_reducible exact windowWrites_ofDevice h
    | with_reducible intro _
    | with_reducible constructor
    | exact h.may _ fun e => Part.noConfusion e

theorem changeSubmit_ofDevice : Touches.changeSubmit N := by
  repeat' first
    | with_reducible exact domApply_ofDevice h _
    | with_reducible exact busWrite_ofDevice h
    | with_reducible exact engineOff_ofDevice h _
    | with_reducible exact deviceReset_ofDevice h
    | with_reducible intro _
    | with_reducible constructor
    | exact h.may _ fun e => Part.noConfusion e

theorem bcrRun_ofDevice : Touches.bcrRun N := by
  repeat' first
    | with_reducible exact modeRequest_ofDevice h
    | with_reducible exact busWrite_ofDevice h
    | with_reducible exact domApply_ofDevice h _
    | with_reducible intro _
    | with_reducible constructor
    | exact h.may _ fun e => Part.noConfusion e

theorem bootRun_ofDevice : Touches.bootRun N := by
  repeat' first
    | with_reducible exact engineOff_ofDevice h _
    | with_reducible exact bcrRun_ofDevice h
    | with_reducible intro _
    | with_reducible constructor
    | exact h.may _ fun e => Part.noConfusion e

end

theorem allButQueue_device : AllButQueue device := by
  refine ⟨fun p hp => ?_⟩
  cases p with
  | reg k => exact ⟨anyReg, .head _, trivial⟩
  | pending => exact absurd rfl hp
  | tx n | rx n | fec n | glf n | p2mp n | ubh n | mon n => cases n <;> simp [device, only]
  | _ => simp [device, only]

end Sys2Proof.Machine

/-! What a counterexample shows of the state that its command leads to. -/

namespace Sys2Proof.Machine

/-- Wherever command `i` takes `s` to, `read` gives `a` there. -/
structure Shows {α : Type} (read : State → α) (a : α) (i : Instr) (s : State) : Prop where
  of_next (t : State) (ht : exec i s = .next t) : read t = a

/-- What `read` gives of the next state, where an outcome has one. -/
def readNext {α : Type} (read : State → α) : Host.Outcome State Fault Refusal → Option α
  | .next t => some (read t)
  | _ => none

theorem Shows.of_readNext {α : Type} {read : State → α} {a : α} {i : Instr} {s : State} {o : Host.Outcome State Fault Refusal}
    (ho : exec i s = o) (h : readNext read o = some a) : Shows read a i s := by
  refine ⟨fun t ht => ?_⟩
  rw [← ho, ht] at h
  exact Option.some.inj h

end Sys2Proof.Machine

/-! An evaluation that falls due as device time wraps (O51). -/

namespace Sys2Proof.Machine

/-- The DPLL is LOCKED with a valid estimate and no eligible input, and device time is 1 ns short of its wrap. -/
def holdoverAtWrap : State :=
  let s := (State.reset.setF F.SYN_STAT_state 2).setB F.SYN_STAT_hold_valid true
  { s with time := BitVec.allOnes 64, syn := { s.syn with evalAt := 2 ^ 64 - 1 } }

theorem holdoverAtWrap_evaluated : Shows State.now 999999 (.selectionEval 0 []) holdoverAtWrap :=
  .of_readNext rfl (by decide +kernel)

/-- Refutes O51: the evaluation 1 ms after the last one brings device time to an instant beyond 64 bits, which reads as 999,999 ns: device
time runs backwards as the DPLL goes to HOLDOVER. -/
theorem not_referencesAreSelected : ¬ Obligations.ReferencesAreSelected := by
  intro h
  obtain ⟨-, -, -, -, -, -, hhold, -⟩ := h
  obtain ⟨t, ht, -, -, -, -, -, hnow, -⟩ := hhold 0 [] holdoverAtWrap (by decide +kernel) (by decide +kernel) (by decide +kernel)
  rw [holdoverAtWrap_evaluated.of_next t ht] at hnow
  exact absurd hnow (by decide +kernel)

end Sys2Proof.Machine

/-! A PPS input lost as device time wraps (O52). -/

namespace Sys2Proof.Machine

/-- An edge of the PPS input came 1 ns before device time wraps. -/
def ppsAtWrap : State :=
  let s := State.reset.setB F.SYN_PPS_STAT_present true
  { s with time := BitVec.allOnes 64, syn := { s.syn with edgeAt := 2 ^ 64 - 1 } }

theorem ppsAtWrap_lost : Shows State.now 1099999999 .ppsInLoss ppsAtWrap := .of_readNext rfl (by decide +kernel)

/-- Refutes O52: the instant 1.1 s after the last edge lies beyond 64 bits and reads as 1,099,999,999 ns: device time runs backwards. -/
theorem not_timeAndQualityCarried : ¬ Obligations.TimeAndQualityCarried := by
  intro h
  obtain ⟨-, -, -, -, -, -, -, -, -, -, -, hloss, -⟩ := h
  obtain ⟨t, ht, -, -, hnow⟩ := hloss ppsAtWrap (by decide +kernel)
  rw [ppsAtWrap_lost.of_next t ht] at hnow
  exact absurd hnow (by decide +kernel)

end Sys2Proof.Machine

/-! A monitor's count of saturated values that already lies beyond its register (O54). -/

namespace Sys2Proof.Machine

/-- The monitor chain of LE0 is ARMED for a detector, and MON_SAT holds 2^32, one beyond what its 32 bits can show. -/
def saturatedPastWidth : State :=
  let s := ((State.reset.setF F.DEV_MODE_mode 4).setF (F.LE_ROLE_STAT_run_state 0) 1).setF (F.MON_STAT_state 0) 1
  let s := (s.force (F.MON_CTRL_en 0) 1).force (F.MON_CAP_trig_src 0) 1
  { s with fields := Tbl.set 0 s.fields (F.MON_SAT_count 0).key (2 ^ 32) }

theorem saturatedPastWidth_triggered : Shows (fun t => t.g (F.MON_SAT_count 0)) (2 ^ 32) (.monTrigger 0 0) saturatedPastWidth :=
  .of_readNext (exec_monTrigger ..) (by decide +kernel)

/-- Refutes O54: a trigger without a saturated value leaves MON_SAT as it is, so a register that holds more than its 32 bits can show is
not cut to their largest number. -/
theorem not_rulesAndCapturesRun : ¬ Obligations.RulesAndCapturesRun := by
  intro h
  obtain ⟨-, -, -, -, -, -, htrigger, -⟩ := h
  obtain ⟨t, ht, -, hcount, -⟩ := htrigger 0 0 saturatedPastWidth (by decide +kernel) (by decide +kernel) (by decide +kernel) (by decide +kernel)
  rw [show (0 : Fin 2).val = 0 from rfl, saturatedPastWidth_triggered.of_next t ht] at hcount
  exact absurd hcount (by decide +kernel)

end Sys2Proof.Machine

/-! A repair swap that stops its engine makes the swaps of the other lanes too (O56). -/

namespace Sys2Proof.Machine

/-- LE0 is STARTING. On lane 0 of its DAC ten sub-DACs have FAILED, one is faulty and one spare is READY; on lane 1 one is faulty and one
spare is READY. -/
def twoLanesFaulty : State :=
  let s := State.reset.setF (F.LE_ROLE_STAT_run_state 0) 1
  let s := s.forEach (List.range 10) fun p => setUnit 0 true 0 p { st := 4 }
  let s := setUnit 0 true 0 32 { st := 2 } (setUnit 0 true 0 11 { st := 3, faulty := true } s)
  setUnit 0 true 1 32 { st := 2 } (setUnit 0 true 1 11 { st := 3, faulty := true } s)

theorem twoLanesFaulty_repaired :
    Shows (fun t => t.g (F.REP_CLASS_SWAPS_count (convClass 0 true))) 2 (.repairSwap 0 true 0) twoLanesFaulty :=
  .of_readNext (exec_repairSwap ..) (by decide +kernel)

/-- Refutes O56: a repair swap that leaves a STARTING engine with too few units takes it to STOPPED, where the swaps pending on its other
lanes are made too (R506). They count in the same class, which then has two swaps more and not one. -/
theorem not_sparesTakeOver : ¬ Obligations.SparesTakeOver := by
  intro h
  obtain ⟨-, -, -, -, -, hrepair, -⟩ := h
  obtain ⟨t, ht, -, -, -, hcount⟩ := hrepair 0 true 0 11 32 [] twoLanesFaulty (by decide +kernel) (by decide +kernel) (by decide)
  have htwo : t.g (F.REP_CLASS_SWAPS_count (convClass 0 true)) = 2 := twoLanesFaulty_repaired.of_next t ht
  have hone : min (twoLanesFaulty.g (F.REP_CLASS_SWAPS_count (convClass 0 true)) + 1) 0xFFFFFFFF = 1 := by decide +kernel
  exact absurd (htwo.symm.trans (hcount.trans hone)) (by decide)

end Sys2Proof.Machine

/-! A periodic test that is due beyond the range of device time (O57). -/

namespace Sys2Proof.Machine

/-- Package memory is trained in SERVICE, and the next periodic page test is due at instant 2^64, one beyond the last that device time can
show. -/
def testDuePastRange : State :=
  let s := ((State.reset.setF F.DEV_MODE_mode 4).setB F.DEV_STATUS_mem_trained true).setB F.REP_CTRL_test_en true
  { s with time := 1, rep := { s.rep with testDue := [(1, 2 ^ 64)] } }

theorem leastBy_of_ne_nil {α : Type} (m : α → Nat) {l : List α} (h : l ≠ []) : ∃ a, leastBy m l = some a := by
  cases l with
  | nil => exact absurd rfl h
  | cons a t =>
    unfold leastBy
    split
    · exact ⟨_, rfl⟩
    · split <;> exact ⟨_, rfl⟩

/-- R509: the march test of a page takes no device time. -/
theorem pageTest_none_now (s : State) : (pageTest none s).now = s.now := by
  unfold pageTest
  dsimp only
  split <;> rfl

/-- R509: the periodic test of a page begins at the instant it is due at. -/
theorem exec_periodicPage_now {s t : State} (hen : s.on F.REP_CTRL_test_en = true) (hup : memUp s = true) (hret : s.buf.ret = none)
    (ht : exec (.periodicTest (.page none)) s = .next t) : t.now = (s.reach (Tbl.get (s.g F.REP_TEST_page_interval * 1000000000)
      s.rep.testDue 1)).now := by
  rw [exec_periodicTest, execPeriodicTest, if_pos hen, if_pos ⟨hup, hret⟩] at ht
  rw [← Host.Outcome.next.inj ht, pageTest_none_now]
  rfl

theorem testDuePastRange_free :
    ((List.range 4096).filter fun e => (Tbl.get (0, 0) testDuePastRange.buf.remap e).1 == 0) ≠ [] := by
  have hfirst : 0 ∈ (List.range 4096).filter fun e => (Tbl.get (0, 0) testDuePastRange.buf.remap e).1 == 0 :=
    List.mem_filter.2 ⟨List.mem_range.2 (by omega), rfl⟩
  exact List.ne_nil_of_mem hfirst

/-- Refutes O57: the periodic test of a page takes device time to the instant it was due at. An instant that lies beyond 64 bits wraps, so
device time goes back. -/
theorem not_selfTestsRun : ¬ Obligations.SelfTestsRun := by
  intro h
  obtain ⟨-, -, -, hpage, -⟩ := h
  obtain ⟨e, he⟩ := leastBy_of_ne_nil (fun e => Tbl.get 0 testDuePastRange.rep.pageAt e) testDuePastRange_free
  have hen : testDuePastRange.on F.REP_CTRL_test_en = true := by decide +kernel
  have hup : memUp testDuePastRange = true := by decide +kernel
  obtain ⟨t, ht, -, hnow, -⟩ := hpage e testDuePastRange hen hup rfl he
  rw [exec_periodicPage_now hen hup rfl ht] at hnow
  exact absurd hnow (by decide +kernel)

end Sys2Proof.Machine

/-! A release of the freeze that itself frees a register for another freeze (O59). -/

namespace Sys2Proof.Machine

/-- A freeze is in force and its release has been asked for, CNT_FREEZE.freeze holds 5, a value beyond its one bit, and reads during the
freeze owe that field 4. -/
def releaseOwesFreeze : State :=
  let s := State.reset.setB F.CNT_FREEZE_busy true
  { s with fields := Tbl.set 0 s.fields F.CNT_FREEZE_freeze.key 5, cnt := { frozen := true, owed := [(F.CNT_FREEZE_freeze.key, 4)] } }

theorem releaseOwesFreeze_busy : Shows (fun t => t.on F.CNT_FREEZE_busy) true .freezeInstant releaseOwesFreeze :=
  .of_readNext rfl (by decide +kernel)

/-- Refutes O59: at a release the reads owed are subtracted from whatever field they name. Where that is CNT_FREEZE.freeze itself and the
field holds a value beyond its width, it reads 1 afterwards: a freeze begins at once, and busy stays. -/
theorem not_countersRun : ¬ Obligations.CountersRun := by
  intro h
  obtain ⟨-, -, -, -, -, -, -, hrelease, -⟩ := h
  obtain ⟨t, ht, -, hbusy, -⟩ := hrelease releaseOwesFreeze (by decide +kernel) (by decide +kernel) (by decide +kernel)
  rw [releaseOwesFreeze_busy.of_next t ht] at hbusy
  exact Bool.noConfusion hbusy

end Sys2Proof.Machine

/-! The frames of the commands, and of the tick, that may touch everything but the queue. -/

namespace Sys2Proof.Machine

theorem fits_registerWrite (m : Master) (addr : Addr) (value : Word) (narrow : Bool)
    (s : State) : FitsOut (frame (.registerWrite m addr value narrow)) s (execRegisterWrite m addr value narrow s) := by
  with_reducible refine FitsOut.execRegisterWrite _ _ _ _ _ (.refl _ _) ?_
  delta frame; dsimp only
  have h := allButQueue_device
  repeat' first
    | with_reducible exact busWrite_ofDevice h
    | with_reducible exact bootRun_ofDevice h
    | with_reducible intro _
    | with_reducible constructor
    | exact h.may _ fun e => Part.noConfusion e

theorem fits_commitApply (p : Fin 256) (s : State) : FitsOut (frame (.commitApply p)) s (execCommitApply p s) := by
  with_reducible refine FitsOut.execCommitApply _ _ (.refl _ _) ?_
  delta frame; dsimp only
  have h := allButQueue_device
  repeat' first
    | with_reducible exact domApply_ofDevice h _
    | with_reducible exact bcrRun_ofDevice h
    | with_reducible exact bootRun_ofDevice h
    | with_reducible intro _
    | with_reducible constructor
    | exact h.may _ fun e => Part.noConfusion e

theorem fits_vaonLoss (s : State) : FitsOut (frame (.vaonLoss)) s (execVaonLoss s) := by
  with_reducible refine FitsOut.execVaonLoss _ (.refl _ _) ?_
  delta frame; dsimp only
  have h := allButQueue_device
  repeat' first
    | with_reducible intro _
    | with_reducible constructor
    | exact h.may _ fun e => Part.noConfusion e

theorem fits_porstAssert (s : State) : FitsOut (frame (.porstAssert)) s (execPorstAssert s) := by
  with_reducible refine FitsOut.execPorstAssert _ (.refl _ _) ?_
  delta frame; dsimp only
  have h := allButQueue_device
  repeat' first
    | with_reducible intro _
    | with_reducible constructor
    | exact h.may _ fun e => Part.noConfusion e

theorem fits_porstRelease (s : State) : FitsOut (frame (.porstRelease)) s (execPorstRelease s) := by
  with_reducible refine FitsOut.execPorstRelease _ (.refl _ _) ?_
  delta frame; dsimp only
  have h := allButQueue_device
  repeat' first
    | with_reducible exact bootRun_ofDevice h
    | with_reducible intro _
    | with_reducible constructor
    | exact h.may _ fun e => Part.noConfusion e

theorem fits_bcrWaitUs (s : State) : FitsOut (frame (.bcrWaitUs)) s (execBcrWaitUs s) := by
  with_reducible refine FitsOut.execBcrWaitUs _ (.refl _ _) ?_
  delta frame; dsimp only
  have h := allButQueue_device
  repeat' first
    | with_reducible exact bcrRun_ofDevice h
    | with_reducible exact bootRun_ofDevice h
    | with_reducible intro _
    | with_reducible constructor
    | exact h.may _ fun e => Part.noConfusion e

theorem fits_devReset (m : Master) (key : BitVec 16)
    (s : State) : FitsOut (frame (.devReset m key)) s (execDevReset m key s) := by
  with_reducible refine FitsOut.execDevReset _ _ _ (.refl _ _) ?_
  delta frame; dsimp only
  have h := allButQueue_device
  repeat' first
    | with_reducible exact deviceReset_ofDevice h
    | with_reducible exact bootRun_ofDevice h
    | with_reducible intro _
    | with_reducible constructor
    | exact h.may _ fun e => Part.noConfusion e

theorem fits_enclaveWatchdogExpiry (s : State) : FitsOut (frame (.enclaveWatchdogExpiry)) s (execEnclaveWatchdogExpiry s) := by
  with_reducible refine FitsOut.execEnclaveWatchdogExpiry _ (.refl _ _) ?_
  delta frame; dsimp only
  have h := allButQueue_device
  repeat' first
    | with_reducible exact deviceReset_ofDevice h
    | with_reducible exact bootRun_ofDevice h
    | with_reducible intro _
    | with_reducible constructor
    | exact h.may _ fun e => Part.noConfusion e

theorem fits_wakeNWake (s : State) : FitsOut (frame (.wakeNWake)) s (execWakeNWake s) := by
  with_reducible refine FitsOut.execWakeNWake _ (.refl _ _) ?_
  delta frame; dsimp only
  have h := allButQueue_device
  repeat' first
    | with_reducible exact bootRun_ofDevice h
    | with_reducible intro _
    | with_reducible constructor
    | exact h.may _ fun e => Part.noConfusion e

theorem fits_spiAccessWake (s : State) : FitsOut (frame (.spiAccessWake)) s (execSpiAccessWake s) := by
  with_reducible refine FitsOut.execSpiAccessWake _ (.refl _ _) ?_
  delta frame; dsimp only
  have h := allButQueue_device
  repeat' first
    | with_reducible exact bootRun_ofDevice h
    | with_reducible intro _
    | with_reducible constructor
    | exact h.may _ fun e => Part.noConfusion e

theorem fits_modeReqDormant (m : Master) (maint : BitVec 2)
    (s : State) : FitsOut (frame (.modeReqDormant m maint)) s (execModeReqDormant m maint s) := by
  with_reducible refine FitsOut.execModeReqDormant _ _ _ (.refl _ _) ?_
  delta frame; dsimp only
  have h := allButQueue_device
  repeat' first
    | with_reducible exact modeRequest_ofDevice h
    | with_reducible exact bootRun_ofDevice h
    | with_reducible intro _
    | with_reducible constructor
    | exact h.may _ fun e => Part.noConfusion e

theorem fits_modeReqSafe (m : Master) (maint : BitVec 2)
    (s : State) : FitsOut (frame (.modeReqSafe m maint)) s (execModeReqSafe m maint s) := by
  with_reducible refine FitsOut.execModeReqSafe _ _ _ (.refl _ _) ?_
  delta frame; dsimp only
  have h := allButQueue_device
  repeat' first
    | with_reducible exact modeRequest_ofDevice h
    | with_reducible exact bootRun_ofDevice h
    | with_reducible intro _
    | with_reducible constructor
    | exact h.may _ fun e => Part.noConfusion e

theorem fits_modeReqStandby (m : Master) (maint : BitVec 2)
    (s : State) : FitsOut (frame (.modeReqStandby m maint)) s (execModeReqStandby m maint s) := by
  with_reducible refine FitsOut.execModeReqStandby _ _ _ (.refl _ _) ?_
  delta frame; dsimp only
  have h := allButQueue_device
  repeat' first
    | with_reducible exact modeRequest_ofDevice h
    | with_reducible exact bootRun_ofDevice h
    | with_reducible intro _
    | with_reducible constructor
    | exact h.may _ fun e => Part.noConfusion e

theorem fits_modeReqService (m : Master) (maint : BitVec 2)
    (s : State) : FitsOut (frame (.modeReqService m maint)) s (execModeReqService m maint s) := by
  with_reducible refine FitsOut.execModeReqService _ _ _ (.refl _ _) ?_
  delta frame; dsimp only
  have h := allButQueue_device
  repeat' first
    | with_reducible exact modeRequest_ofDevice h
    | with_reducible exact bootRun_ofDevice h
    | with_reducible intro _
    | with_reducible constructor
    | exact h.may _ fun e => Part.noConfusion e

theorem fits_modeReqMaintenance (m : Master) (maint : BitVec 2)
    (s : State) : FitsOut (frame (.modeReqMaintenance m maint)) s (execModeReqMaintenance m maint s) := by
  with_reducible refine FitsOut.execModeReqMaintenance _ _ _ (.refl _ _) ?_
  delta frame; dsimp only
  have h := allButQueue_device
  repeat' first
    | with_reducible exact modeRequest_ofDevice h
    | with_reducible exact bootRun_ofDevice h
    | with_reducible intro _
    | with_reducible constructor
    | exact h.may _ fun e => Part.noConfusion e

theorem fits_modeReqNotAllowed (m : Master) (code : BitVec 4) (maint : BitVec 2)
    (s : State) : FitsOut (frame (.modeReqNotAllowed m code maint)) s (execModeReqNotAllowed m code maint s) := by
  with_reducible refine FitsOut.execModeReqNotAllowed _ _ _ _ (.refl _ _) ?_
  delta frame; dsimp only
  have h := allButQueue_device
  repeat' first
    | with_reducible exact modeRequest_ofDevice h
    | with_reducible exact bootRun_ofDevice h
    | with_reducible intro _
    | with_reducible constructor
    | exact h.may _ fun e => Part.noConfusion e

theorem fits_timedChangeApply (le : Fin 2)
    (s : State) : FitsOut (frame (.timedChangeApply le)) s (execTimedChangeApply le s) := by
  with_reducible refine FitsOut.execTimedChangeApply _ _ (.refl _ _) ?_
  delta frame; dsimp only
  have h := allButQueue_device
  repeat' first
    | with_reducible exact domApply_ofDevice h _
    | with_reducible exact bcrRun_ofDevice h
    | with_reducible exact bootRun_ofDevice h
    | with_reducible intro _
    | with_reducible constructor
    | exact h.may _ fun e => Part.noConfusion e

theorem fits_chgSubmit (fw : Bool) (id : BitVec 16) (words : List Word)
    (s : State) : FitsOut (frame (.chgSubmit fw id words)) s (execChgSubmit fw id words s) := by
  with_reducible refine FitsOut.execChgSubmit _ _ _ _ (.refl _ _) ?_
  delta frame; dsimp only
  have h := allButQueue_device
  repeat' first
    | with_reducible exact changeSubmit_ofDevice h
    | with_reducible exact bootRun_ofDevice h
    | with_reducible intro _
    | with_reducible constructor
    | exact h.may _ fun e => Part.noConfusion e

theorem fits_thmResult (tag : Fin 52) (windows : List (BitVec 24)) (outside : Option Bool)
    (s : State) : FitsOut (frame (.thmResult tag windows outside)) s (execThmResult tag windows outside s) := by
  with_reducible refine FitsOut.execThmResult _ _ _ _ (.refl _ _) ?_
  delta frame; dsimp only
  have h := allButQueue_device
  repeat' first
    | with_reducible exact ruleActions_ofDevice h
    | with_reducible exact bootRun_ofDevice h
    | with_reducible intro _
    | with_reducible constructor
    | exact h.may _ fun e => Part.noConfusion e

theorem fits_ruleTick (still : BitVec 6) (alerts : BitVec 2)
    (s : State) : FitsOut (frame (.ruleTick still alerts)) s (execRuleTick still alerts s) := by
  with_reducible refine FitsOut.execRuleTick _ _ _ (.refl _ _) ?_
  delta frame; dsimp only
  have h := allButQueue_device
  repeat' first
    | with_reducible exact ruleActions_ofDevice h
    | with_reducible exact bootRun_ofDevice h
    | with_reducible intro _
    | with_reducible constructor
    | exact h.may _ fun e => Part.noConfusion e

theorem fits_hmpPdRelease (m : Master) (bits : BitVec 2)
    (s : State) : FitsOut (frame (.hmpPdRelease m bits)) s (execHmpPdRelease m bits s) := by
  with_reducible refine FitsOut.execHmpPdRelease _ _ _ (.refl _ _) ?_
  delta frame; dsimp only
  have h := allButQueue_device
  repeat' first
    | with_reducible exact busWrite_ofDevice h
    | with_reducible intro _
    | with_reducible constructor

theorem fits_spiWrite (addr : Addr) (words : List Word) (waiting : Fin 17)
    (s : State) : FitsOut (frame (.spiWrite addr words waiting)) s (execSpiWrite addr words waiting s) := by
  with_reducible refine FitsOut.execSpiWrite _ _ _ _ (.refl _ _) ?_
  delta frame; dsimp only
  have h := allButQueue_device
  repeat' first
    | with_reducible exact bootRun_ofDevice h
    | with_reducible exact busWrite_ofDevice h
    | with_reducible intro _
    | with_reducible constructor
    | exact h.may _ fun e => Part.noConfusion e

theorem fits_spiRead (addr : Addr) (n : Nat) (s : State) : FitsOut (frame (.spiRead addr n)) s (execSpiRead addr n s) := by
  with_reducible refine FitsOut.execSpiRead _ _ _ (.refl _ _) ?_
  delta frame; dsimp only
  have h := allButQueue_device
  repeat' first
    | with_reducible exact bootRun_ofDevice h
    | with_reducible exact busRead_ofDevice h
    | with_reducible intro _
    | with_reducible constructor
    | exact h.may _ fun e => Part.noConfusion e

theorem fits_tick (s : State) : Fits device s (tick s) := by
  refine Fits.tick _ (.refl _ _) ?_
  have h := allButQueue_device
  repeat' first
    | with_reducible exact bcrRun_ofDevice h
    | with_reducible exact bootRun_ofDevice h
    | with_reducible exact recoveryWord_ofDevice h
    | with_reducible intro _
    | with_reducible constructor
    | exact h.may _ fun e => Part.noConfusion e

end Sys2Proof.Machine

/-! O1, O3, O5: a step, what each command leaves as it was, and the canonical form of the contents. -/

namespace Sys2Proof.Machine

theorem exec_fits (i : Instr) (s : State) : FitsOut (frame i) s (exec i s) := by
  cases i with
  | registerWrite x0 x1 x2 x3 => exact fits_registerWrite x0 x1 x2 x3 s
  | commitGo x0 x1 => exact fits_commitGo x0 x1 s
  | commitCheck x0 x1 => exact fits_commitCheck x0 x1 s
  | commitDiscard x0 x1 => exact fits_commitDiscard x0 x1 s
  | commitApply x0 => exact fits_commitApply x0 s
  | devCommitSync x0 => exact fits_devCommitSync x0 s
  | softReset x0 x1 => exact fits_softReset x0 x1 s
  | evtForce x0 x1 x2 => exact fits_evtForce x0 x1 x2 s
  | pageSnap x0 x1 => exact fits_pageSnap x0 x1 s
  | snapDone x0 => exact fits_snapDone x0 s
  | lockAcquire x0 x1 => exact fits_lockAcquire x0 x1 s
  | lockRelease x0 x1 x2 => exact fits_lockRelease x0 x1 x2 s
  | masterReset x0 x1 => exact fits_masterReset x0 x1 s
  | mbxTx x0 x1 x2 => exact fits_mbxTx x0 x1 x2 s
  | mbxRx x0 x1 => exact fits_mbxRx x0 x1 s
  | mbxTimeout x0 => exact fits_mbxTimeout x0 s
  | mbxHostReset x0 => exact fits_mbxHostReset x0 s
  | pulseSat x0 x1 x2 => exact fits_pulseSat x0 x1 x2 s
  | fifoResync x0 x1 x2 x3 x4 => exact fits_fifoResync x0 x1 x2 x3 x4 s
  | vecEoi x0 x1 => exact fits_vecEoi x0 x1 s
  | msixPendingSend x0 => exact fits_msixPendingSend x0 s
  | vaonPowerOn => exact fits_vaonPowerOn s
  | vaonLoss => exact fits_vaonLoss s
  | xtalLock => exact fits_xtalLock s
  | porstAssert => exact fits_porstAssert s
  | porstRelease => exact fits_porstRelease s
  | bcrWaitUs => exact fits_bcrWaitUs s
  | avsFail => exact fits_avsFail s
  | devReset x0 x1 => exact fits_devReset x0 x1 s
  | enclaveWatchdogExpiry => exact fits_enclaveWatchdogExpiry s
  | wakeNWake => exact fits_wakeNWake s
  | spiAccessWake => exact fits_spiAccessWake s
  | modeReqDormant x0 x1 => exact fits_modeReqDormant x0 x1 s
  | modeReqSafe x0 x1 => exact fits_modeReqSafe x0 x1 s
  | modeReqStandby x0 x1 => exact fits_modeReqStandby x0 x1 s
  | modeReqService x0 x1 => exact fits_modeReqService x0 x1 s
  | modeReqMaintenance x0 x1 => exact fits_modeReqMaintenance x0 x1 s
  | modeReqNotAllowed x0 x1 x2 => exact fits_modeReqNotAllowed x0 x1 x2 s
  | standbyEntryDone => exact fits_standbyEntryDone s
  | maintEntryDone => exact fits_maintEntryDone s
  | engineStartStep x0 x1 x2 x3 => exact fits_engineStartStep x0 x1 x2 x3 s
  | engineStopComplete x0 => exact fits_engineStopComplete x0 s
  | reloadDone x0 x1 => exact fits_reloadDone x0 x1 s
  | timedChangeApply x0 => exact fits_timedChangeApply x0 s
  | maskMeasurement x0 x1 => exact fits_maskMeasurement x0 x1 s
  | maskUnmute x0 x1 x2 => exact fits_maskUnmute x0 x1 x2 s
  | losRawSet x0 x1 => exact fits_losRawSet x0 x1 s
  | signalDetected x0 => exact fits_signalDetected x0 s
  | cdScanEnd x0 x1 => exact fits_cdScanEnd x0 x1 s
  | freqOffsetFound x0 x1 => exact fits_freqOffsetFound x0 x1 s
  | freqAcqTimeout x0 => exact fits_freqAcqTimeout x0 s
  | scAcqTimeout x0 => exact fits_scAcqTimeout x0 s
  | engineLockLoss x0 => exact fits_engineLockLoss x0 s
  | freqLimitExceeded x0 => exact fits_freqLimitExceeded x0 s
  | scConverged x0 x1 => exact fits_scConverged x0 x1 s
  | scConvergeTimeout x0 x1 => exact fits_scConvergeTimeout x0 x1 s
  | pilotSyncFound x0 x1 x2 => exact fits_pilotSyncFound x0 x1 x2 s
  | pilotSyncTimeout x0 x1 => exact fits_pilotSyncTimeout x0 x1 s
  | scLockLost x0 x1 => exact fits_scLockLost x0 x1 s
  | singular x0 x1 => exact fits_singular x0 x1 s
  | cycleSlip x0 x1 => exact fits_cycleSlip x0 x1 s
  | cdTrackStep x0 x1 => exact fits_cdTrackStep x0 x1 s
  | entropyAnn x0 x1 => exact fits_entropyAnn x0 x1 s
  | followApply x0 => exact fits_followApply x0 s
  | followAlternate x0 => exact fits_followAlternate x0 s
  | followGiveUp x0 => exact fits_followGiveUp x0 s
  | reflCandidate x0 x1 x2 => exact fits_reflCandidate x0 x1 x2 s
  | reflCandidateEnd x0 x1 x2 x3 => exact fits_reflCandidateEnd x0 x1 x2 x3 s
  | reflLost x0 x1 => exact fits_reflLost x0 x1 s
  | reflDelayMove x0 x1 x2 => exact fits_reflDelayMove x0 x1 x2 s
  | qualInterval x0 x1 => exact fits_qualInterval x0 x1 s
  | mapBuild x0 => exact fits_mapBuild x0 s
  | mapSegment x0 x1 x2 x3 => exact fits_mapSegment x0 x1 x2 x3 s
  | assign x0 x1 x2 x3 x4 => exact fits_assign x0 x1 x2 x3 x4 s
  | rangeAdj x0 x1 x2 x3 x4 x5 => exact fits_rangeAdj x0 x1 x2 x3 x4 x5 s
  | powerAdj x0 x1 x2 x3 x4 => exact fits_powerAdj x0 x1 x2 x3 x4 s
  | quiesce x0 x1 x2 x3 => exact fits_quiesce x0 x1 x2 x3 s
  | release x0 x1 x2 x3 => exact fits_release x0 x1 x2 x3 s
  | deregister x0 x1 x2 x3 => exact fits_deregister x0 x1 x2 x3 s
  | lmsgGo x0 x1 => exact fits_lmsgGo x0 x1 s
  | leafMsgRepeat x0 x1 => exact fits_leafMsgRepeat x0 x1 s
  | burstTransmit x0 x1 => exact fits_burstTransmit x0 x1 s
  | discoveryBurst x0 x1 => exact fits_discoveryBurst x0 x1 s
  | discoveryWaitExpiry x0 => exact fits_discoveryWaitExpiry x0 s
  | selfGuardTrip x0 => exact fits_selfGuardTrip x0 s
  | segmentLossDark x0 => exact fits_segmentLossDark x0 s
  | mapLost x0 => exact fits_mapLost x0 s
  | leafIdExpire x0 => exact fits_leafIdExpire x0 s
  | leafClr x0 x1 => exact fits_leafClr x0 x1 s
  | preambleDetect x0 x1 x2 x3 x4 x5 => exact fits_preambleDetect x0 x1 x2 x3 x4 x5 s
  | burstHeaderDecode x0 x1 x2 x3 x4 => exact fits_burstHeaderDecode x0 x1 x2 x3 x4 s
  | rogueDecay x0 x1 => exact fits_rogueDecay x0 x1 s
  | burstRxDone x0 x1 x2 x3 x4 x5 x6 x7 => exact fits_burstRxDone x0 x1 x2 x3 x4 x5 x6 x7 s
  | burstLossDetect x0 x1 => exact fits_burstLossDetect x0 x1 s
  | idleMeasure x0 x1 x2 x3 x4 => exact fits_idleMeasure x0 x1 x2 x3 x4 s
  | brecPop x0 x1 => exact fits_brecPop x0 x1 s
  | fecBlockDecode x0 x1 x2 x3 => exact fits_fecBlockDecode x0 x1 x2 x3 s
  | cwCandidateFound x0 x1 => exact fits_cwCandidateFound x0 x1 s
  | tileSwap x0 x1 => exact fits_tileSwap x0 x1 s
  | fecEncode x0 x1 x2 => exact fits_fecEncode x0 x1 x2 s
  | glfFrameTx x0 => exact fits_glfFrameTx x0 s
  | glfHeaderRx x0 x1 x2 x3 x4 x5 => exact fits_glfHeaderRx x0 x1 x2 x3 x4 x5 s
  | slotMap x0 x1 x2 => exact fits_slotMap x0 x1 x2 s
  | cellRx x0 x1 x2 x3 => exact fits_cellRx x0 x1 x2 x3 s
  | deskewRelease x0 x1 x2 x3 x4 x5 => exact fits_deskewRelease x0 x1 x2 x3 x4 x5 s
  | defectDeclare x0 x1 x2 => exact fits_defectDeclare x0 x1 x2 s
  | defectClear x0 x1 => exact fits_defectClear x0 x1 s
  | mspStatus x0 => exact fits_mspStatus x0 s
  | propose x0 x1 => exact fits_propose x0 x1 s
  | accept x0 => exact fits_accept x0 s
  | reject x0 => exact fits_reject x0 s
  | arm x0 => exact fits_arm x0 s
  | reqRemove x0 => exact fits_reqRemove x0 s
  | mspMsgRepeat x0 x1 => exact fits_mspMsgRepeat x0 x1 s
  | mspProposeTimeout x0 => exact fits_mspProposeTimeout x0 s
  | mspReadyTimeout x0 => exact fits_mspReadyTimeout x0 s
  | mspSwitch x0 => exact fits_mspSwitch x0 s
  | laneSignalDetect x0 => exact fits_laneSignalDetect x0 s
  | cdrConverged x0 x1 x2 => exact fits_cdrConverged x0 x1 x2 s
  | cdrTimeout x0 => exact fits_cdrTimeout x0 s
  | trainingComplete x0 x1 => exact fits_trainingComplete x0 x1 s
  | trainFail x0 => exact fits_trainFail x0 s
  | laneFault x0 x1 => exact fits_laneFault x0 x1 s
  | capabilityFrame x0 x1 x2 x3 x4 x5 x6 x7 x8 => exact fits_capabilityFrame x0 x1 x2 x3 x4 x5 x6 x7 x8 s
  | exchangeWindowExpiry x0 => exact fits_exchangeWindowExpiry x0 s
  | portAligned x0 x1 => exact fits_portAligned x0 x1 s
  | alignmentLost x0 => exact fits_alignmentLost x0 s
  | spareReq x0 x1 x2 => exact fits_spareReq x0 x1 x2 s
  | spareAck x0 x1 x2 => exact fits_spareAck x0 x1 x2 s
  | spareReqRepeat x0 => exact fits_spareReqRepeat x0 s
  | spareSwitch x0 x1 => exact fits_spareSwitch x0 x1 s
  | sleep x0 => exact fits_sleep x0 s
  | wake x0 => exact fits_wake x0 s
  | sleepEntry x0 => exact fits_sleepEntry x0 s
  | ingressFrame x0 x1 x2 x3 => exact fits_ingressFrame x0 x1 x2 x3 s
  | egressFrame x0 x1 x2 x3 x4 => exact fits_egressFrame x0 x1 x2 x3 x4 s
  | esmcPduRx x0 x1 => exact fits_esmcPduRx x0 x1 s
  | esmcInfoTx => exact fits_esmcInfoTx s
  | esmcQlTimeout x0 => exact fits_esmcQlTimeout x0 s
  | firstPass x0 x1 x2 x3 x4 x5 x6 => exact fits_firstPass x0 x1 x2 x3 x4 x5 x6 s
  | secondPass x0 x1 x2 x3 x4 => exact fits_secondPass x0 x1 x2 x3 x4 s
  | recircTimeout x0 => exact fits_recircTimeout x0 s
  | packetRelease x0 => exact fits_packetRelease x0 s
  | bankDrainDone => exact fits_bankDrainDone s
  | clsBankCopy x0 => exact fits_clsBankCopy x0 s
  | copyDone x0 => exact fits_copyDone x0 s
  | clsWinWrite x0 x1 x2 x3 => exact fits_clsWinWrite x0 x1 x2 x3 s
  | pipeTestStart x0 => exact fits_pipeTestStart x0 s
  | pipeTestDone x0 x1 => exact fits_pipeTestDone x0 x1 s
  | bufMemRead x0 x1 x2 => exact fits_bufMemRead x0 x1 x2 s
  | bufMemWrite x0 x1 x2 x3 => exact fits_bufMemWrite x0 x1 x2 x3 s
  | scrubRead x0 x1 => exact fits_scrubRead x0 x1 s
  | hardClr x0 => exact fits_hardClr x0 s
  | injGo x0 => exact fits_injGo x0 s
  | injDone => exact fits_injDone s
  | bufLogPop x0 => exact fits_bufLogPop x0 s
  | retireGo x0 => exact fits_retireGo x0 s
  | restoreGo x0 => exact fits_restoreGo x0 s
  | marchTestDone x0 => exact fits_marchTestDone x0 s
  | retireCopyDone => exact fits_retireCopyDone s
  | retireSwitch => exact fits_retireSwitch s
  | rowrepGo x0 => exact fits_rowrepGo x0 s
  | rowrepStep => exact fits_rowrepStep s
  | rowrepTestDone x0 => exact fits_rowrepTestDone x0 s
  | hostWinRead x0 x1 => exact fits_hostWinRead x0 x1 s
  | hostWinWrite x0 x1 x2 => exact fits_hostWinWrite x0 x1 x2 s
  | dataTxUnit x0 x1 x2 x3 x4 x5 => exact fits_dataTxUnit x0 x1 x2 x3 x4 x5 s
  | dataRxUnit x0 x1 x2 x3 x4 x5 x6 x7 => exact fits_dataRxUnit x0 x1 x2 x3 x4 x5 x6 x7 s
  | keyLoad x0 x1 => exact fits_keyLoad x0 x1 s
  | keyErase x0 x1 => exact fits_keyErase x0 x1 s
  | keyActivate x0 x1 => exact fits_keyActivate x0 x1 s
  | kxStart x0 x1 x2 => exact fits_kxStart x0 x1 x2 s
  | kxCert x0 x1 => exact fits_kxCert x0 x1 s
  | kxInit x0 x1 => rw [exec_kxInit]; with_reducible exact fits_kxInit x0 x1 s
  | kxResp x0 x1 => rw [exec_kxResp]; with_reducible exact fits_kxResp x0 x1 s
  | kxConfirm x0 x1 => rw [exec_kxConfirm]; with_reducible exact fits_kxConfirm x0 x1 s
  | kxAck x0 x1 => rw [exec_kxAck]; with_reducible exact fits_kxAck x0 x1 s
  | kxSwitch x0 x1 => rw [exec_kxSwitch]; with_reducible exact fits_kxSwitch x0 x1 s
  | kxAbort x0 x1 => rw [exec_kxAbort]; with_reducible exact fits_kxAbort x0 x1 s
  | kxRepeat x0 => exact fits_kxRepeat x0 s
  | kxTimeout x0 => exact fits_kxTimeout x0 s
  | coreTestStart x0 x1 => exact fits_coreTestStart x0 x1 s
  | coreTestDone x0 x1 => exact fits_coreTestDone x0 x1 s
  | nonceGet x0 x1 x2 => exact fits_nonceGet x0 x1 x2 s
  | chgSubmit x0 x1 x2 => exact fits_chgSubmit x0 x1 x2 s
  | attest x0 x1 x2 => exact fits_attest x0 x1 x2 s
  | chgAbort x0 x1 x2 => exact fits_chgAbort x0 x1 x2 s
  | klkPub x0 x1 x2 => exact fits_klkPub x0 x1 x2 s
  | chgExpiry x0 => exact fits_chgExpiry x0 s
  | debugExpire => exact fits_debugExpire s
  | overrideEnd x0 => exact fits_overrideEnd x0 s
  | tamperTrip x0 x1 => exact fits_tamperTrip x0 x1 s
  | hello x0 x1 => exact fits_hello x0 x1 s
  | certRead x0 x1 => exact fits_certRead x0 x1 s
  | auth x0 x1 => exact fits_auth x0 x1 s
  | txDisable x0 x1 => exact fits_txDisable x0 x1 s
  | txEnable x0 x1 => exact fits_txEnable x0 x1 s
  | status x0 x1 => exact fits_status x0 x1 s
  | alertRead x0 x1 => exact fits_alertRead x0 x1 s
  | lifeRead x0 x1 => exact fits_lifeRead x0 x1 s
  | memRead x0 x1 x2 x3 => exact fits_memRead x0 x1 x2 x3 s
  | memWrite x0 x1 x2 x3 => exact fits_memWrite x0 x1 x2 x3 s
  | ubhResend x0 x1 => exact fits_ubhResend x0 x1 s
  | ubhAbsent x0 => exact fits_ubhAbsent x0 s
  | ubhAlertFall x0 => exact fits_ubhAlertFall x0 s
  | ubhHold x0 x1 x2 x3 => exact fits_ubhHold x0 x1 x2 x3 s
  | ubhPtGo x0 x1 x2 x3 x4 => exact fits_ubhPtGo x0 x1 x2 x3 x4 s
  | inputFault x0 => exact fits_inputFault x0 s
  | inputFaultClear x0 => exact fits_inputFaultClear x0 s
  | inputQualified x0 => exact fits_inputQualified x0 s
  | selectionEval x0 x1 => exact fits_selectionEval x0 x1 s
  | dpllLocked => exact fits_dpllLocked s
  | holdoverOos => exact fits_holdoverOos s
  | dpllTestStart => exact fits_dpllTestStart s
  | dpllTestEnd x0 => exact fits_dpllTestEnd x0 s
  | switchComplete => exact fits_switchComplete s
  | refDisagree x0 x1 => exact fits_refDisagree x0 x1 s
  | setAtPps x0 x1 => exact fits_setAtPps x0 x1 s
  | adjust x0 x1 => exact fits_adjust x0 x1 s
  | adjustComplete => exact fits_adjustComplete s
  | ppsInEdge x0 => exact fits_ppsInEdge x0 s
  | ppsInLoss => exact fits_ppsInLoss s
  | ppsOut => exact fits_ppsOut s
  | refReady => exact fits_refReady s
  | thmTimerTrigger => exact fits_thmTimerTrigger s
  | thmTrigGo x0 => exact fits_thmTrigGo x0 s
  | thmCalGo x0 x1 => exact fits_thmCalGo x0 x1 s
  | thmCalDone x0 x1 => exact fits_thmCalDone x0 x1 s
  | thmResult x0 x1 x2 => exact fits_thmResult x0 x1 x2 s
  | seqDone => exact fits_seqDone s
  | thmQPop x0 => exact fits_thmQPop x0 s
  | pathTest x0 x1 x2 => exact fits_pathTest x0 x1 x2 s
  | ruleTick x0 x1 => exact fits_ruleTick x0 x1 s
  | hmpPdRelease x0 x1 => exact fits_hmpPdRelease x0 x1 s
  | hmpSeal x0 => exact fits_hmpSeal x0 s
  | hmpLogPop x0 => exact fits_hmpLogPop x0 s
  | monTrigGo x0 x1 => exact fits_monTrigGo x0 x1 s
  | monAbort x0 x1 => exact fits_monAbort x0 x1 s
  | monRearm x0 x1 => exact fits_monRearm x0 x1 s
  | monTrigger x0 x1 => exact fits_monTrigger x0 x1 s
  | capDone x0 x1 x2 x3 => exact fits_capDone x0 x1 x2 x3 s
  | trimUpdate x0 x1 => exact fits_trimUpdate x0 x1 s
  | spareCalStart x0 x1 x2 => exact fits_spareCalStart x0 x1 x2 s
  | spareCalEnd x0 x1 x2 x3 => exact fits_spareCalEnd x0 x1 x2 x3 s
  | rotationSwap x0 x1 x2 => exact fits_rotationSwap x0 x1 x2 s
  | unitFault x0 x1 x2 x3 => exact fits_unitFault x0 x1 x2 x3 s
  | repairSwap x0 x1 x2 => exact fits_repairSwap x0 x1 x2 s
  | fgCalGo x0 x1 x2 x3 x4 => exact fits_fgCalGo x0 x1 x2 x3 x4 s
  | fgDone x0 x1 x2 => exact fits_fgDone x0 x1 x2 s
  | loopCalStep x0 x1 x2 x3 x4 x5 => exact fits_loopCalStep x0 x1 x2 x3 x4 x5 s
  | periodicTest x0 => exact fits_periodicTest x0 s
  | repPipeTest x0 => exact fits_repPipeTest x0 s
  | repDpllTest x0 => exact fits_repDpllTest x0 s
  | monTest x0 x1 => exact fits_monTest x0 x1 s
  | monTestDone x0 x1 => exact fits_monTestDone x0 x1 s
  | trimWrite x0 x1 x2 x3 x4 => exact fits_trimWrite x0 x1 x2 x3 x4 s
  | classExhausted x0 => exact fits_classExhausted x0 s
  | classRestored x0 => exact fits_classRestored x0 s
  | evlEntry x0 => exact fits_evlEntry x0 s
  | sorterRelease => exact fits_sorterRelease s
  | foldWindowEnd x0 x1 x2 => exact fits_foldWindowEnd x0 x1 x2 s
  | evlTailWrite x0 x1 => exact fits_evlTailWrite x0 x1 s
  | cntSelWrite x0 x1 x2 => exact fits_cntSelWrite x0 x1 x2 s
  | cntHiWrite x0 x1 x2 => exact fits_cntHiWrite x0 x1 x2 s
  | cntWrap x0 x1 => exact fits_cntWrap x0 x1 s
  | freezeRequest x0 x1 x2 => exact fits_freezeRequest x0 x1 x2 s
  | freezeInstant => exact fits_freezeInstant s
  | cntSnapshot => exact fits_cntSnapshot s
  | sampleChoose x0 x1 => exact fits_sampleChoose x0 x1 s
  | sampleRecord x0 x1 x2 => exact fits_sampleRecord x0 x1 x2 s
  | smpRestart x0 x1 => exact fits_smpRestart x0 x1 s
  | spiWrite x0 x1 x2 => exact fits_spiWrite x0 x1 x2 s
  | spiRead x0 x1 => exact fits_spiRead x0 x1 s
  | spiStatus x0 => exact fits_spiStatus x0 s
  | gpioEdge x0 x1 => exact fits_gpioEdge x0 x1 s
  | kxRestart x0 => exact fits_kxRestart x0 s
  | avsConfirmed => exact fits_avsConfirmed s
  | trngHealthTest x0 => exact fits_trngHealthTest x0 s

theorem tidy_withPending (s : State) (q : List Instr) (h : s.tidy) : State.tidy { s with pending := q } := by
  cases h
  constructor <;> assumption

theorem step_of_empty (s : State) (h : s.pending = []) : step s = .next (tick s) := by simp [step, h]

theorem step_of_pending (s : State) (c : Instr) (q : List Instr)
    (h : s.pending = c :: q) : step s = exec c { s with pending := q } := by
  simp [step, h]

/-- Settles O1: a step is `exec` of the command at the front, or a tick. -/
theorem stepRunsFront : Obligations.StepRunsFront := by
  unfold Obligations.StepRunsFront
  exact ⟨fun c q s => step_of_pending _ c q rfl, step_of_empty⟩

/-- Settles O5: what each command leaves as it was, by the frame of its operation. -/
theorem commandsKeepTheirFrame : Obligations.CommandsKeepTheirFrame := by
  unfold Obligations.CommandsKeepTheirFrame
  intro i s t ht
  have hfits := exec_fits i s
  rw [ht] at hfits
  exact hfits.within

/-- Settles O3: every command keeps canonical contents, and so does a tick. -/
theorem stepsKeepTidy : Obligations.StepsKeepTidy := by
  unfold Obligations.StepsKeepTidy
  intro s t htidy ht
  cases hq : s.pending with
  | nil =>
    rw [step_of_empty s hq] at ht
    cases ht
    exact (fits_tick s).tidy htidy
  | cons c q =>
    rw [step_of_pending s c q hq] at ht
    have hfits := exec_fits c { s with pending := q }
    rw [ht] at hfits
    exact hfits.tidy (tidy_withPending s q htidy)

end Sys2Proof.Machine

/-! Trim sets, temperature, foreground and loop calibration (O55). -/

namespace Sys2Proof.Machine

/-! ## TRIM_WRITE (R502) -/

/-- R499: the words of the trim sets lie behind page 0xF1. -/
theorem pageOf_trim {le p w : Nat} (hle : le < 2) (hp : p < 6) (hw : w < 512) :
    pageOf (0x320000 + 0x4000 * le + 0x800 * p + 4 * w) = 0xF1 := by
  have hlow : 0x320000 ≤ 0x320000 + 0x4000 * le + 0x800 * p + 4 * w := by omega
  have hhigh : 0x320000 + 0x4000 * le + 0x800 * p + 4 * w < 0x328000 := by omega
  generalize 0x320000 + 0x4000 * le + 0x800 * p + 4 * w = a at hlow hhigh
  have hbelow {l h : Nat} (hl : h ≤ 0x320000) : ¬ (decide (l ≤ a) && decide (a < h)) = true := by
    rw [Bool.and_eq_true, decide_eq_true_eq, decide_eq_true_eq]
    omega
  rw [pageOf, if_neg (by omega), if_neg (hbelow (by decide)), if_neg (hbelow (by decide)), if_neg (hbelow (by decide)),
    if_neg (hbelow (by decide)), if_pos (by rw [decide_eq_true hlow, decide_eq_true hhigh]; rfl)]

section TrimWrite

variable (m : Master) (le : Fin 2) (p : Fin 6) (w : Fin 512) (v : Word) (s : State)

theorem exec_trimWrite_eq (hadm : s.admits m 0xF1 true) (hoff : s.runState le.val = 0) :
    exec (.trimWrite m le p w v) s = .next (
      let put (dac : Bool) (lane pos : Nat) (s : State) : State :=
        ((s.setF (trimField le.val dac lane pos p.val 0) (v.toNat / 2 ^ 20)).setF (trimField le.val dac lane pos p.val 1)
          (v.toNat / 2 ^ 10)).setF (trimField le.val dac lane pos p.val 2) v.toNat
      if w.val < 272 then put false (w.val / 68) (w.val % 68) (s.access m)
      else if w.val < 408 then put true ((w.val - 272) / 34) ((w.val - 272) % 34) (s.access m)
      else if w.val < 412 then
        ((s.access m).setF (F.TRIM_LANE_swing le.val p.val (w.val - 408)) (v.toNat / 256)).setF
          (F.TRIM_LANE_peaking le.val p.val (w.val - 408)) v.toNat
      else s.access m) := by
  have hacc : (s.access m).runState le.val = 0 := (g_access m s _).trans hoff
  rw [exec_trimWrite, execTrimWrite, trimWrite]
  dsimp only
  rw [hadm.runs (pageOf_trim le.isLt p.isLt w.isLt), if_neg (not_not_intro hacc)]

/-- R499: word `w` of a trim set is that of unit `w % 68` of lane `w / 68`. -/
theorem trimField_adc (le w p : Nat) : trimField le false (w / 68) (w % 68) p 0 = F.TRIM_ADC_gain le p w ∧
    trimField le false (w / 68) (w % 68) p 1 = F.TRIM_ADC_offset le p w ∧
    trimField le false (w / 68) (w % 68) p 2 = F.TRIM_ADC_skew le p w := by
  have hpos : w % 68 ≠ 127 := by omega
  have hword : 68 * (w / 68) + w % 68 = w := Nat.div_add_mod w 68
  refine ⟨?_, ?_, ?_⟩
  all_goals
    unfold trimField
    rw [if_neg hpos, if_neg Bool.false_ne_true, hword]
    rfl

theorem exec_trimWrite_adc (hadm : s.admits m 0xF1 true) (hoff : s.runState le.val = 0) (hw : w.val < 272) :
    ∃ t, exec (.trimWrite m le p w v) s = .next t ∧
      t.g (F.TRIM_ADC_gain le.val p.val w.val) = v.toNat / 2 ^ 20 % 2 ^ (F.TRIM_ADC_gain le.val p.val w.val).width ∧
      t.g (F.TRIM_ADC_offset le.val p.val w.val) = v.toNat / 2 ^ 10 % 2 ^ (F.TRIM_ADC_offset le.val p.val w.val).width ∧
      t.g (F.TRIM_ADC_skew le.val p.val w.val) = v.toNat % 2 ^ (F.TRIM_ADC_skew le.val p.val w.val).width := by
  refine ⟨_, exec_trimWrite_eq m le p w v s hadm hoff, ?_⟩
  obtain ⟨hgain, hoffset, hskew⟩ := trimField_adc le.val w.val p.val
  dsimp only
  rw [if_pos hw, hgain, hoffset, hskew]
  refine ⟨?_, ?_, g_setF_same ..⟩
  · rw [g_setF_other _ _ (by rw [F.TRIM_ADC_gain_key, F.TRIM_ADC_skew_key]; omega),
      g_setF_other _ _ (by rw [F.TRIM_ADC_gain_key, F.TRIM_ADC_offset_key]; omega), g_setF_same]
  · rw [g_setF_other _ _ (by rw [F.TRIM_ADC_offset_key, F.TRIM_ADC_skew_key]; omega), g_setF_same]

theorem exec_trimWrite_lane (hadm : s.admits m 0xF1 true) (hoff : s.runState le.val = 0) (hlow : 408 ≤ w.val) (hw : w.val < 412) :
    ∃ t, exec (.trimWrite m le p w v) s = .next t ∧ t.g (F.TRIM_LANE_swing le.val p.val (w.val - 408)) = v.toNat / 256 % 256 ∧
      t.g (F.TRIM_LANE_peaking le.val p.val (w.val - 408)) = v.toNat % 256 := by
  refine ⟨_, exec_trimWrite_eq m le p w v s hadm hoff, ?_⟩
  dsimp only
  rw [if_neg (by omega), if_neg (by omega), if_pos hw]
  refine ⟨?_, g_setF_same ..⟩
  rw [g_setF_other _ _ (by rw [F.TRIM_LANE_swing_key, F.TRIM_LANE_peaking_key]; omega), g_setF_same]
  rfl

theorem exec_trimWrite_refused (hadm : s.admits m 0xF1 true) (hrun : s.runState le.val ≠ 0) :
    ∃ t, exec (.trimWrite m le p w v) s = .next t ∧ t.sticky 0xF1 26 ∧ ∀ k, k < 272 →
      t.g (F.TRIM_ADC_gain le.val p.val k) = s.g (F.TRIM_ADC_gain le.val p.val k) := by
  have hpage := pageOf_trim le.isLt p.isLt w.isLt
  have hacc : (s.access m).runState le.val ≠ 0 := fun h => hrun ((g_access m s _).symm.trans h)
  refine ⟨(s.access m).refuse (mcode m) .denied (0x320000 + 0x4000 * le.val + 0x800 * p.val + 4 * w.val), ?_, sticky_refuse _ _ _ _ _ hpage (by decide), fun k _ => ?_⟩
  · rw [exec_trimWrite, execTrimWrite, trimWrite]
    dsimp only
    rw [hadm.runs hpage, if_pos hacc]
  · rw [g_refuse_other _ _ _ _ (by rw [hpage, F.TRIM_ADC_gain_key, F.EVT_STICKY_key]; omega)
      (by rw [F.TRIM_ADC_gain_key, F.FAB_ERR_CNT_count_key]; omega) (by rw [F.TRIM_ADC_gain_key, F.FAB_ERR_LAST_ADDR_addr_key]; omega)
      (by rw [F.TRIM_ADC_gain_key, F.FAB_ERR_LAST_INFO_reason_key]; omega)
      (by rw [F.TRIM_ADC_gain_key, F.FAB_ERR_LAST_INFO_master_key]; omega), g_access]

end TrimWrite

/-! ## Units of converters (R503) -/

theorem repUnit_of_units {s t : State} (h : t.rep.units = s.rep.units) (le : Nat) (dac : Bool) (lane pos : Nat) :
    repUnit t le dac lane pos = repUnit s le dac lane pos := by rw [repUnit, h, repUnit]

@[simp] theorem repUnit_setUnit_same (le : Nat) (dac : Bool) (lane pos : Nat) (u : RepUnit) (s : State) :
    repUnit (setUnit le dac lane pos u s) le dac lane pos = u := Tbl.get_set_same ..

theorem repUnit_setUnit_other {le lane pos lane' pos' : Nat} {dac dac' : Bool} (u : RepUnit) (s : State)
    (h : convKey le dac' lane' * 128 + pos' ≠ convKey le dac lane * 128 + pos) :
    repUnit (setUnit le dac lane pos u s) le dac' lane' pos' = repUnit s le dac' lane' pos' :=
  Tbl.get_set_other (unitAtWake dac pos) (unitAtWake dac' pos') s.rep.units u h

@[simp] theorem convMap_rep (le : Nat) (dac : Bool) (lane : Nat) (s : State) : (convMap le dac lane s).rep = s.rep := by
  unfold convMap
  dsimp only
  split <;> simp

theorem g_convMap_other {le lane : Nat} (hle : le < 2) (hlane : lane < 4) (dac : Bool) (s : State) {f : Field}
    (hf : 0xF0000 * 8 ≤ f.key) : (convMap le dac lane s).g f = s.g f := by
  refine (Fits.convMap _ _ _ _ (Fits.refl (Sparing [.reg f.key]) s) ?_).g_spared (by simp)
  constructor
  all_goals simp [Sparing]
  all_goals omega

/-- R503: a unit is READY, and its temperature has moved more than 5 °C from `x` since its calibration. -/
def unitStale (x : Int) (u : RepUnit) : Bool := u.st == 2 && (decide (40 < x - u.calTemp) || decide (40 < u.calTemp - x))

/-- R503: a stale unit becomes IDLE. -/
def unitAged (x : Int) (u : RepUnit) : RepUnit := if unitStale x u then { u with st := 0 } else u

/-- R503: the stale units of a converter become IDLE. -/
def ageUnits (le : Nat) (dac : Bool) (lane : Nat) (x : Int) (s : State) : State :=
  s.forEach (unitsWhere s le dac lane (unitStale x)) fun p s => setUnit le dac lane p { repUnit s le dac lane p with st := 0 } s

/-- R503: converter `i` of engine `le`, and its maps, follow a temperature. -/
def ageStep (le : Nat) (x : Int) (i : Nat) (s : State) : State :=
  if unitsWhere s le (i / 4 == 1) (i % 4) (unitStale x) = [] then s
  else convMap le (i / 4 == 1) (i % 4) (ageUnits le (i / 4 == 1) (i % 4) x s)

theorem pos_lt_of_convSize {dac : Bool} {pos : Nat} (h : pos < convSize dac) : pos < 68 := by
  unfold convSize at h
  split at h <;> omega

theorem repUnit_ageUnits_same {dac : Bool} {pos : Nat} (le lane : Nat) (x : Int) (s : State) (hpos : pos < convSize dac) :
    repUnit (ageUnits le dac lane x s) le dac lane pos = unitAged x (repUnit s le dac lane pos) := by
  have hother (p : Nat) (hp : p ≠ pos) (u : State) :
      repUnit (setUnit le dac lane p { repUnit u le dac lane p with st := 0 } u) le dac lane pos = repUnit u le dac lane pos :=
    repUnit_setUnit_other _ _ (by omega)
  by_cases hstale : unitStale x (repUnit s le dac lane pos) = true
  · have hmem : pos ∈ unitsWhere s le dac lane (unitStale x) := List.mem_filter.2 ⟨List.mem_range.2 hpos, hstale⟩
    rw [unitAged, if_pos hstale]
    exact forEach_view_once (fun s => repUnit s le dac lane pos) _ (fun u => { u with st := 0 }) hmem (List.nodup_range.filter _)
      (fun u => repUnit_setUnit_same ..) (fun p _ hp u => hother p hp u) s
  · rw [unitAged, if_neg hstale]
    refine forEach_view_unchanged (fun s => repUnit s le dac lane pos) _ (fun p hp u => hother p ?_ u) s
    rintro rfl
    exact hstale (List.mem_filter.1 hp).2

theorem repUnit_ageUnits_other {dac dac' : Bool} {lane lane' pos' : Nat} (le : Nat) (x : Int) (s : State) (hlane : lane < 4) (hlane' : lane' < 4)
    (hpos : pos' < convSize dac') (hne : ¬ (dac' = dac ∧ lane' = lane)) :
    repUnit (ageUnits le dac lane x s) le dac' lane' pos' = repUnit s le dac' lane' pos' := by
  have hpos' := pos_lt_of_convSize hpos
  refine forEach_view_unchanged (fun s => repUnit s le dac' lane' pos') _ (fun p hp u => repUnit_setUnit_other _ _ ?_) s
  have hp' := pos_lt_of_convSize (List.mem_range.1 (List.mem_filter.1 hp).1)
  unfold convKey
  cases dac <;> cases dac' <;> simp at hne ⊢ <;> omega

theorem repUnit_ageStep_same {dac : Bool} {lane pos : Nat} (le : Nat) (x : Int) (s : State) (hlane : lane < 4) (hpos : pos < convSize dac) :
    repUnit (ageStep le x (4 * dac.toNat + lane) s) le dac lane pos = unitAged x (repUnit s le dac lane pos) := by
  have hdac : ((4 * dac.toNat + lane) / 4 == 1) = dac := by
    cases dac
    · exact beq_eq_false_iff_ne.2 (by simp; omega)
    · exact beq_iff_eq.2 (by simp; omega)
  have hmod : (4 * dac.toNat + lane) % 4 = lane := by omega
  unfold ageStep
  rw [hdac, hmod]
  by_cases hnil : unitsWhere s le dac lane (unitStale x) = []
  · have hstale : ¬ unitStale x (repUnit s le dac lane pos) = true := fun h => by
      have hmem : pos ∈ unitsWhere s le dac lane (unitStale x) := List.mem_filter.2 ⟨List.mem_range.2 hpos, h⟩
      rw [hnil] at hmem
      cases hmem
    rw [if_pos hnil, unitAged, if_neg hstale]
  · rw [if_neg hnil, repUnit_of_units (congrArg Rep.units (convMap_rep ..)), repUnit_ageUnits_same le lane x s hpos]

theorem repUnit_ageStep_other {dac : Bool} {lane pos i : Nat} (le : Nat) (x : Int) (s : State) (hlane : lane < 4) (hpos : pos < convSize dac)
    (hi : i < 8) (hne : i ≠ 4 * dac.toNat + lane) : repUnit (ageStep le x i s) le dac lane pos = repUnit s le dac lane pos := by
  unfold ageStep
  split
  · rfl
  · rw [repUnit_of_units (congrArg Rep.units (convMap_rep ..))]
    refine repUnit_ageUnits_other le x s (Nat.mod_lt _ (by decide)) hlane hpos ?_
    rintro ⟨hdac, hlane⟩
    have htoNat : dac.toNat = i / 4 := by
      rw [hdac]
      interval_cases i <;> rfl
    omega

/-! ## TRIM_UPDATE (R500, R503) -/

theorem unsigned_toInt (x : BitVec 16) : unsigned 16 x.toInt = x.toNat := by
  have h := BitVec.toNat_ofInt (n := 16) x.toInt
  rw [BitVec.ofInt_toInt] at h
  exact h.symm

/-- What a change of working values leaves: the registers and the units. -/
def unitView (s : State) : Tbl Nat × Tbl RepUnit := (s.fields, s.rep.units)

theorem workSet_view (le : Nat) (dac : Bool) (lane pos : Nat) (s : State) : unitView (workSet le dac lane pos s) = unitView s := by
  unfold workSet
  split <;> rfl

theorem workAll_view (le : Nat) (s : State) : unitView (workAll le s) = unitView s := by
  unfold workAll
  dsimp only
  rw [forEach_view_unchanged unitView _ (fun i _ u => workSet_view ..), forEach_view_unchanged unitView _ (fun i _ u => workSet_view ..),
    forEach_view_unchanged unitView _ (fun i _ u => workSet_view ..)]

/-- R500: the update due at `due` takes place. -/
def trimDue (le due : Nat) (s : State) : State :=
  modRep (fun r => { r with trimAt := Tbl.set 0 r.trimAt le (s.reach due).now }) (s.reach due)

theorem trimDue_units (le due : Nat) (s : State) : (trimDue le due s).rep.units = s.rep.units := by
  change (s.reach due).rep.units = _
  rw [State.reach_rep]

/-- The working values after a temperature. -/
def trimTaken (le : Nat) (s : State) : State :=
  let s := if s.on (F.CAL_ENG_CTRL_interp_en le) then workAll le s else s
  let s := if s.runState le = 2 then s else trimsTake le true s
  if Tbl.get 0 (s.eng le).glf.frame 0 = 2 then s else trimsTake le false s

theorem trimTaken_view (le : Nat) (s : State) : unitView (trimTaken le s) = unitView s := by
  have hwork : unitView (if s.on (F.CAL_ENG_CTRL_interp_en le) then workAll le s else s) = unitView s := by
    split
    · exact workAll_view le s
    · rfl
  rw [← hwork, trimTaken]
  generalize (if s.on (F.CAL_ENG_CTRL_interp_en le) then workAll le s else s) = u
  split
  · split <;> rfl
  · split <;> rfl

theorem exec_trimUpdate_eq (le : Fin 2) (x : BitVec 16) (s : State) (hup : s.domainUp 0xF2 = true) :
    ∃ due, exec (.trimUpdate le x) s = .next ((trimTaken le.val (tempRead le.val x.toInt (trimDue le.val due s))).forEach (List.range 8)
      (ageStep le.val x.toInt)) := by
  rw [exec_trimUpdate, execTrimUpdate]
  dsimp only
  rw [if_pos hup]
  generalize Tbl.get 0 s.rep.trimAt le.val + 10000000 = due
  exact ⟨due, rfl⟩

theorem tempRead_units (le : Nat) (x : Int) (s : State) : (tempRead le x s).rep = s.rep := by
  unfold tempRead
  dsimp only
  split
  · rw [State.evt_rep]
    rfl
  · rfl

theorem g_tempRead (le : Nat) (x : Int) (s : State) {f : Field} (hf : f.key ≠ (F.EVT_STICKY 0xF0).key) :
    (tempRead le x s).g f = (((s.setF (F.CAL_ENG_STAT_die_temp le) (unsigned 16 x)).setF (F.CAL_ENG_STAT_lower le) (trimLower x)).setB
      (F.CAL_ENG_STAT_clamped le) (decide (x < -320) || decide (880 < x))).g f := by
  unfold tempRead
  dsimp only
  split
  · exact g_evt_other _ _ _ hf
  · rfl

theorem trimLower_le (x : Int) : trimLower x ≤ 4 := by
  have hfold (l : List Nat) (hl : ∀ i ∈ l, i ≤ 4) (a : Nat) (ha : a ≤ 4) : l.foldl max a ≤ 4 := by
    induction l generalizing a with
    | nil => exact ha
    | cons i l ih => exact ih (fun j hj => hl j (List.mem_cons_of_mem _ hj)) _ (Nat.max_le.2 ⟨ha, hl i List.mem_cons_self⟩)
  refine hfold _ (fun i hi => ?_) 0 (by decide)
  have := List.mem_range.1 (List.mem_filter.1 hi).1
  omega

theorem g_ageStep_other {le i : Nat} (hle : le < 2) (x : Int) (s : State) {f : Field} (hf : 0xF0000 * 8 ≤ f.key) :
    (ageStep le x i s).g f = s.g f := by
  unfold ageStep
  split
  · rfl
  · rw [g_convMap_other hle (Nat.mod_lt _ (by decide)) _ _ hf]
    unfold ageUnits
    refine forEach_view_unchanged (fun s => s.g f) _ (fun p _ u => ?_) s
    rfl

theorem exec_trimUpdate_reads (le : Fin 2) (x : BitVec 16) (s : State) (hup : s.domainUp 0xF2 = true) :
    ∃ t, exec (.trimUpdate le x) s = .next t ∧
      t.g (F.CAL_ENG_STAT_die_temp le.val) = x.toNat ∧ t.g (F.CAL_ENG_STAT_lower le.val) = trimLower x.toInt ∧
      t.on (F.CAL_ENG_STAT_clamped le.val) = (decide (x.toInt < -320) || decide (880 < x.toInt)) ∧
      (∀ dac lane pos, lane < 4 → pos < convSize dac → (repUnit s le.val dac lane pos).st = 2 →
        40 < (x.toInt - (repUnit s le.val dac lane pos).calTemp).natAbs → (repUnit t le.val dac lane pos).st = 0) := by
  have hle := le.isLt
  obtain ⟨due, hrun⟩ := exec_trimUpdate_eq le x s hup
  refine ⟨_, hrun, ?_⟩
  have hview := trimTaken_view le.val (tempRead le.val x.toInt (trimDue le.val due s))
  generalize trimTaken le.val (tempRead le.val x.toInt (trimDue le.val due s)) = v at hview
  obtain ⟨hfields, hunits⟩ := Prod.mk.inj hview
  have hg {f : Field} (hf : 0xF0000 * 8 ≤ f.key) (hne : f.key ≠ (F.EVT_STICKY 0xF0).key) :
      (v.forEach (List.range 8) (ageStep le.val x.toInt)).g f =
        ((((trimDue le.val due s).setF (F.CAL_ENG_STAT_die_temp le.val) (unsigned 16 x.toInt)).setF (F.CAL_ENG_STAT_lower le.val)
          (trimLower x.toInt)).setB (F.CAL_ENG_STAT_clamped le.val) (decide (x.toInt < -320) || decide (880 < x.toInt))).g f := by
    rw [forEach_view_unchanged (fun s => s.g f) _ (fun i _ u => g_ageStep_other hle _ _ hf) v, g_of_fields hfields, g_tempRead _ _ _ hne]
  refine ⟨?_, ?_, ?_, fun dac lane pos hlane hpos hready hfar => ?_⟩
  · rw [hg (by simp; omega) (by simp; omega), g_setB_other _ _ (by simp), g_setF_other _ _ (by simp), g_setF_same, unsigned_toInt]
    exact Nat.mod_eq_of_lt x.isLt
  · rw [hg (by simp; omega) (by simp; omega), g_setB_other _ _ (by simp), g_setF_same]
    exact Nat.mod_eq_of_lt (by have := trimLower_le x.toInt; rw [F.CAL_ENG_STAT_lower_width]; omega)
  · rw [State.on, hg (by simp; omega) (by simp; omega)]
    exact on_setB _ _ _ rfl
  · have hunit : repUnit v le.val dac lane pos = repUnit s le.val dac lane pos := by
      refine repUnit_of_units (hunits.trans ?_) _ _ _ _
      rw [tempRead_units, trimDue_units]
    have hstale : unitStale x.toInt (repUnit s le.val dac lane pos) = true := by
      rw [unitStale, hready]
      simp only [beq_self_eq_true, Bool.true_and, Bool.or_eq_true, decide_eq_true_eq]
      omega
    have hbool : dac.toNat ≤ 1 := Bool.toNat_le dac
    have hage : repUnit (v.forEach (List.range 8) (ageStep le.val x.toInt)) le.val dac lane pos =
        unitAged x.toInt (repUnit v le.val dac lane pos) :=
      forEach_view_once (x := 4 * dac.toNat + lane) (fun s => repUnit s le.val dac lane pos) _ (unitAged x.toInt)
        (List.mem_range.2 (by omega)) List.nodup_range (fun u => repUnit_ageStep_same _ _ u hlane hpos)
        (fun i hi hne u => repUnit_ageStep_other _ _ u hlane hpos (List.mem_range.1 hi) hne) v
    rw [hage, hunit, unitAged, if_pos hstale]

/-! ## Foreground calibration (R507) -/

/-- CAL_FG as a write of it leaves it. -/
def fgWritten (m : Master) (le : Nat) (adc dac fec : Bool) (s : State) : State :=
  (((((s.access m).setF F.CAL_FG_engine le).setB F.CAL_FG_adc adc).setB F.CAL_FG_dac dac)).setB F.CAL_FG_fec fec

theorem exec_fgCalGo_eq (m : Master) (le : Fin 2) (adc dac fec : Bool) (s : State) (hadm : s.admits m 0xF2 false) :
    exec (.fgCalGo m le adc dac fec) s =
      .next (fgGo le.val (adc.toNat + 2 * dac.toNat + 4 * fec.toNat) (fgWritten m le.val adc dac fec s)) := by
  rw [exec_fgCalGo, execFgCalGo, hadm.runs (by decide)]
  rfl

/-- A write of CAL_FG leaves every register but its engine and kinds. -/
theorem g_fgWritten_other (m : Master) (le : Nat) (adc dac fec : Bool) (s : State) {f : Field}
    (hf : f.key < 0xF2080 * 8 ∨ 0xF2080 * 8 + 30 ≤ f.key) : (fgWritten m le adc dac fec s).g f = s.g f := by
  rw [fgWritten, g_setB_other _ _ (by simp; omega), g_setB_other _ _ (by simp; omega), g_setB_other _ _ (by simp; omega),
    g_setF_other _ _ (by simp; omega), g_access]

theorem on_fgWritten_other (m : Master) (le : Nat) (adc dac fec : Bool) (s : State) {f : Field}
    (hf : f.key < 0xF2080 * 8 ∨ 0xF2080 * 8 + 30 ≤ f.key) : (fgWritten m le adc dac fec s).on f = s.on f := by
  rw [State.on, g_fgWritten_other m le adc dac fec s hf, State.on]

theorem fgWritten_dev (m : Master) (le : Nat) (adc dac fec : Bool) (s : State) : (fgWritten m le adc dac fec s).dev = s.dev := by
  simp [fgWritten]

/-- A foreground calibration has begun. -/
def fgBegun (kinds : Nat) (s : State) : State :=
  modRep (fun r => { r with fgKinds := kinds })
    ((((s.setB F.CAL_FG_busy true).setF F.CAL_FG_STAT_slices 0).setF F.CAL_FG_STAT_subdacs 0).setF F.CAL_FG_STAT_tiles 0)

theorem g_fgBegun_other (kinds : Nat) (s : State) {f : Field} (hf : f.key < 0xF2080 * 8 + 30) : (fgBegun kinds s).g f = s.g f := by
  change State.g (((((s.setB F.CAL_FG_busy true).setF F.CAL_FG_STAT_slices 0).setF F.CAL_FG_STAT_subdacs 0).setF F.CAL_FG_STAT_tiles 0)) f = _
  rw [g_setF_other _ _ (by simp; omega), g_setF_other _ _ (by simp; omega), g_setF_other _ _ (by simp; omega), g_setB_other _ _ (by simp; omega)]

theorem exec_fgCalGo_begins (m : Master) (le : Fin 2) (adc dac fec : Bool) (s : State) (hadm : s.admits m 0xF2 false) (hmode : s.mode = 6)
    (hmaint : s.dev.maint.testBit le.val = true) (hrole : s.role le.val = 0) (hrun : s.runState le.val = 0) (hidle : s.on F.CAL_FG_busy = false) :
    ∃ t, exec (.fgCalGo m le adc dac fec) s = .next t ∧
      t.on F.CAL_FG_busy = true ∧ t.on F.CAL_FG_adc = adc ∧ t.on F.CAL_FG_dac = dac ∧ t.on F.CAL_FG_fec = fec ∧ t.g F.CAL_FG_STAT_slices = 0 := by
  have hle := le.isLt
  have hready : (fgWritten m le.val adc dac fec s).mode = 6 ∧ (fgWritten m le.val adc dac fec s).dev.maint.testBit le.val = true ∧
      (fgWritten m le.val adc dac fec s).role le.val = 0 ∧ (fgWritten m le.val adc dac fec s).runState le.val = 0 ∧
      ¬ (fgWritten m le.val adc dac fec s).on F.CAL_FG_busy = true := by
    refine ⟨(g_fgWritten_other _ _ _ _ _ _ (.inl (by simp))).trans hmode, by rw [fgWritten_dev]; exact hmaint,
      (g_fgWritten_other _ _ _ _ _ _ (.inl (by simp; omega))).trans hrole, (g_fgWritten_other _ _ _ _ _ _ (.inl (by simp; omega))).trans hrun, ?_⟩
    rw [on_fgWritten_other _ _ _ _ _ _ (.inr (by simp)), hidle]
    exact Bool.false_ne_true
  refine ⟨fgBegun (adc.toNat + 2 * dac.toNat + 4 * fec.toNat + 8 * le.val) (fgWritten m le.val adc dac fec s),
    (exec_fgCalGo_eq m le adc dac fec s hadm).trans (congrArg _ (if_pos hready)), ?_, ?_, ?_, ?_, ?_⟩
  · change State.on (((((fgWritten m le.val adc dac fec s).setB F.CAL_FG_busy true).setF F.CAL_FG_STAT_slices 0).setF F.CAL_FG_STAT_subdacs 0).setF
      F.CAL_FG_STAT_tiles 0) F.CAL_FG_busy = true
    rw [on_setF_other _ _ (by simp), on_setF_other _ _ (by simp), on_setF_other _ _ (by simp)]
    exact on_setB _ _ _ rfl
  · rw [State.on, g_fgBegun_other _ _ (by simp), fgWritten, g_setB_other _ _ (by simp), g_setB_other _ _ (by simp)]
    exact on_setB _ _ _ rfl
  · rw [State.on, g_fgBegun_other _ _ (by simp), fgWritten, g_setB_other _ _ (by simp)]
    exact on_setB _ _ _ rfl
  · rw [State.on, g_fgBegun_other _ _ (by simp), fgWritten]
    exact on_setB _ _ _ rfl
  · change State.g (((((fgWritten m le.val adc dac fec s).setB F.CAL_FG_busy true).setF F.CAL_FG_STAT_slices 0).setF F.CAL_FG_STAT_subdacs 0).setF
      F.CAL_FG_STAT_tiles 0) F.CAL_FG_STAT_slices = 0
    rw [g_setF_other _ _ (by simp), g_setF_other _ _ (by simp), g_setF_same]
    rfl

theorem exec_fgCalGo_refused (m : Master) (le : Fin 2) (adc dac fec : Bool) (s : State) (hadm : s.admits m 0xF2 false)
    (hbad : s.mode ≠ 6 ∨ s.on F.CAL_FG_busy = true) (hvalid : s.on (F.ERR_valid 0xF2) = false) :
    ∃ t, exec (.fgCalGo m le adc dac fec) s = .next t ∧ t.on F.CAL_FG_busy = s.on F.CAL_FG_busy ∧ t.g (F.ERR_code 0xF2) = 0xF5 := by
  have hbusy : (fgWritten m le.val adc dac fec s).on F.CAL_FG_busy = s.on F.CAL_FG_busy := on_fgWritten_other _ _ _ _ _ _ (.inr (by simp))
  refine ⟨State.err 0xF2 0 0xF5 (fgWritten m le.val adc dac fec s), (exec_fgCalGo_eq m le adc dac fec s hadm).trans (congrArg _ (if_neg ?_)), ?_,
    g_err_first _ _ _ _ 0 ((on_fgWritten_other _ _ _ _ _ _ (.inl (by simp))).trans hvalid)⟩
  · rintro ⟨hmode, -, -, -, hidle⟩
    rcases hbad with hbad | hbad
    · exact hbad ((g_fgWritten_other _ _ _ _ _ _ (.inl (by simp))).symm.trans hmode)
    · exact hidle (hbusy.trans hbad)
  · rw [← hbusy, State.on, g_err_other _ _ _ _ (by simp) (by simp) (by simp) (by simp) (by simp), State.on]

theorem exec_fgDone_ends (adc dac : List UnitCal) (tiles : List (Fin 26)) (s : State) (hbusy : s.on F.CAL_FG_busy = true) :
    ∃ t, exec (.fgDone adc dac tiles) s = .next t ∧ t.on F.CAL_FG_busy = false ∧ t.sticky 0xF0 5 ∧ t.rep.fgKinds = 0 := by
  obtain ⟨u, hu⟩ : ∃ u, exec (.fgDone adc dac tiles) s =
      .next (State.evt 0xF0 5 ((modRep (fun r => { r with fgKinds := 0 }) u).setB F.CAL_FG_busy false)) :=
    ⟨_, by rw [exec_fgDone, execFgDone, if_pos hbusy]⟩
  refine ⟨_, hu, ?_, sticky_evt _ _ _ (by decide), by rw [State.evt_rep]; rfl⟩
  rw [on_evt_other _ _ _ (by simp)]
  exact on_setB _ _ _ rfl

/-! ## Loop calibration (R508) -/

theorem workSet_live (le : Nat) (dac : Bool) (lane pos : Nat) (s : State) : (workSet le dac lane pos s).rep.live = s.rep.live := by
  unfold workSet
  split <;> rfl

/-- R508: the live correction `k` of a lane moves by at most one code of swing and of peaking. -/
def loopStep (k : Nat) (swing peaking : Fin 3) (s : State) : State :=
  let v := Tbl.get (0, 0, 0) s.rep.live k
  modRep (fun r => { r with
    live := Tbl.set (0, 0, 0) r.live k (v.1 + ((swing.val : Int) - 1) * 4800, v.2.1 + ((peaking.val : Int) - 1) * 4800, 0) }) s

/-- R508: the step due at `due` of lane `k` of the engines takes place. -/
def loopDue (k due : Nat) (s : State) : State :=
  modRep (fun r => { r with loopAt := Tbl.set 0 r.loopAt k (s.reach due).now }) (s.reach due)

theorem loopDue_live (k due : Nat) (s : State) : (loopDue k due s).rep.live = s.rep.live := by
  change (s.reach due).rep.live = _
  rw [State.reach_rep]

theorem exec_loopCalStep_moves (le : Fin 2) (lane : Fin 4) (swing peaking : Fin 3) (cals : List UnitCal) (s : State)
    (hen : s.on (F.CAL_ENG_CTRL_loop_en le.val) = true) (hrun : s.runState le.val = 2)
    (h10 : (s.g (F.UBH_DECL_bytes le.val 0)).testBit 10 = true) (h11 : (s.g (F.UBH_DECL_bytes le.val 0)).testBit 11 = true) :
    ∃ t, exec (.loopCalStep le lane swing peaking false cals) s = .next t ∧
      Tbl.get (0, 0, 0) t.rep.live (convKey le.val true lane.val * 128 + 127) =
        ((Tbl.get (0, 0, 0) s.rep.live (convKey le.val true lane.val * 128 + 127)).1 + ((swing.val : Int) - 1) * 4800,
          (Tbl.get (0, 0, 0) s.rep.live (convKey le.val true lane.val * 128 + 127)).2.1 + ((peaking.val : Int) - 1) * 4800, 0) := by
  have hflag (b : Nat) (h : (s.g (F.UBH_DECL_bytes le.val 0)).testBit (8 + b) = true) : (s.g (F.UBH_DECL_bytes le.val 0) / 256).testBit b = true := by
    rw [show 256 = 2 ^ 8 from rfl, Nat.testBit_div_two_pow, Nat.add_comm]
    exact h
  have hruns : (s.on (F.CAL_ENG_CTRL_loop_en le.val) && s.runState le.val == 2 && (s.g (F.UBH_DECL_bytes le.val 0) / 256).testBit 2 &&
      (s.g (F.UBH_DECL_bytes le.val 0) / 256).testBit 3) = true := by
    rw [hen, hrun, hflag 2 h10, hflag 3 h11]
    rfl
  obtain ⟨u, hu, hstep⟩ : ∃ u, u.rep.live = s.rep.live ∧ exec (.loopCalStep le lane swing peaking false cals) s =
      .next (workSet le.val true lane.val 127 (loopStep (convKey le.val true lane.val * 128 + 127) swing peaking u)) := by
    rw [exec_loopCalStep, execLoopCalStep]
    dsimp only
    rw [if_pos hruns, Bool.false_and, if_neg Bool.false_ne_true]
    generalize Tbl.get 0 s.rep.loopAt (4 * le.val + lane.val) + 100000000 = due
    split
    · exact ⟨s, rfl, rfl⟩
    · exact ⟨loopDue (4 * le.val + lane.val) due s, loopDue_live _ _ _, rfl⟩
  refine ⟨_, hstep, ?_⟩
  rw [workSet_live, ← hu]
  exact Tbl.get_set_same ..

/-- Settles O55, clause by clause. -/
theorem calibrationRuns : Obligations.CalibrationRuns :=
  ⟨exec_trimWrite_adc, exec_trimWrite_lane, exec_trimWrite_refused, exec_trimUpdate_reads, exec_fgCalGo_begins, exec_fgCalGo_refused,
    exec_fgDone_ends, exec_loopCalStep_moves⟩

end Sys2Proof.Machine

/-! The event log: entries on their way in, the sorter, fold windows and EVL_TAIL (O58). -/

namespace Sys2Proof.Machine

theorem evlHeld_access (m : Master) (s : State) : evlHeld (State.access m s) = evlHeld s := by
  rw [evlHeld, g_access, g_access, evlHeld]

/-- R525: the level that follows what is held changes no field but its flags, and nothing the log holds. -/
theorem evlNear_keeps (s : State) : (evlNear s).evl = s.evl ∧ (evlNear s).now = s.now ∧
    ∀ f : Field, f.key ≠ (F.EVT_STICKY 0xFA).key → f.key ≠ (F.EVT_RAW 0xFA).key → (evlNear s).g f = s.g f := by
  refine ⟨State.level_evl .., ?_, fun f hs hr => g_level_other _ _ _ _ hs hr⟩
  rw [evlNear, State.now, State.level_time, State.now]

/-! ## Arrival at the sorter (R518, R520) -/

theorem evlLate_none (x : LogEntry) (s : State) (h : s.evl.last = none) : evlLate x s = (x, s) := by rw [evlLate, h]

theorem evlLate_some (x : LogEntry) (l : Nat) (s : State) (h : s.evl.last = some l) :
    evlLate x s = if x.stamp < l then ({ x with stamp := l, late := true }, s.bump F.EVL_LATE_count 1) else (x, s) := by rw [evlLate, h]

theorem exec_evlEntry_enters (p : Fin 256) (x : LogEntry) (s : State) (hmade : s.ev.made.find? (fun e => e.page == p.val) = some x)
    (hroom : s.evl.sorter.length < 64) :
    ∃ t, exec (.evlEntry p) s = .next t ∧ t.ev.made = s.ev.made.erase x ∧
      (s.evl.last = none → t.evl.sorter = s.evl.sorter ++ [x]) ∧
      (∀ l, s.evl.last = some l → (l ≤ x.stamp → t.evl.sorter = s.evl.sorter ++ [x]) ∧
        (x.stamp < l → t.evl.sorter = s.evl.sorter ++ [{ x with stamp := l, late := true }] ∧
          t.g F.EVL_LATE_count = min (s.g F.EVL_LATE_count + 1) 0xFFFFFFFF)) := by
  refine ⟨_, by rw [exec_evlEntry, execEvlEntry, hmade], ?_⟩
  generalize hu : ({ s with ev := { s.ev with made := s.ev.made.erase x } } : State) = u
  have hevl : u.evl = s.evl := by rw [← hu]
  have hev : u.ev.made = s.ev.made.erase x := by rw [← hu]
  have hg : u.g F.EVL_LATE_count = s.g F.EVL_LATE_count := by rw [← hu]; rfl
  unfold evlArrive
  dsimp only
  rw [hevl, if_neg (by omega)]
  cases hlast : s.evl.last with
  | none =>
    rw [evlLate_none _ _ (by rw [hevl, hlast])]
    exact ⟨hev, fun _ => by simp [modEvl, hevl], nofun⟩
  | some l =>
    rw [evlLate_some _ l _ (by rw [hevl, hlast])]
    split
    next hlate =>
      refine ⟨hev, nofun, ?_⟩
      rintro _ ⟨⟩
      refine ⟨fun h => by omega, fun _ => ⟨by simp [modEvl, hevl], ?_⟩⟩
      rw [← hg]
      exact g_bump_same ..
    next hlate =>
      refine ⟨hev, nofun, ?_⟩
      rintro _ ⟨⟩
      exact ⟨fun _ => by simp [modEvl, hevl], fun h => absurd h hlate⟩

/-! ## The sorter's next entry (R519, R520, R522) -/

/-- R520: what the sorter gives up: device time has reached its due instant, or the sorter was full. -/
def sorterDue (x : LogEntry) (s : State) : State :=
  modEvl (fun e => { e with sorter := e.sorter.erase x }) (if 64 ≤ s.evl.sorter.length then s else s.reach (x.stamp + 20000))

theorem exec_sorterRelease_eq (x : LogEntry) (s : State) (hnext : evlNext s.evl.sorter = some x) :
    exec .sorterRelease s = .next (evlWrite x (sorterDue x s)) := by
  rw [exec_sorterRelease, execSorterRelease, hnext]
  dsimp only
  have hevl : (if 64 ≤ s.evl.sorter.length then s else s.reach (x.stamp + 20000)).evl = s.evl := by split <;> simp
  rw [evlRelease, hevl, hnext]
  rfl

theorem sorterDue_evl (x : LogEntry) (s : State) : (sorterDue x s).evl = { s.evl with sorter := s.evl.sorter.erase x } := by
  unfold sorterDue
  split <;> simp [modEvl]

theorem sorterDue_g (x : LogEntry) (s : State) (f : Field) : (sorterDue x s).g f = s.g f := by
  unfold sorterDue
  split
  · rfl
  · exact g_of_fields (by simp [modEvl]) f

theorem evlHeld_sorterDue (x : LogEntry) (s : State) : evlHeld (sorterDue x s) = evlHeld s := by
  rw [evlHeld, sorterDue_g, sorterDue_g, evlHeld]

theorem sorterDue_now (x : LogEntry) (s : State) (hroom : s.evl.sorter.length < 64) (hfit : x.stamp + 20000 < 2 ^ 64) :
    x.stamp + 20000 ≤ (sorterDue x s).now := by
  unfold sorterDue
  rw [if_neg (by omega), State.reach]
  split
  · show _ ≤ (BitVec.ofNat 64 (x.stamp + 20000)).toNat
    rw [BitVec.toNat_ofNat, Nat.mod_eq_of_lt hfit]
  · next h => exact Nat.le_of_not_lt h

/-- R519, R523: the entry as it is written at the head of a log that has room. -/
def evlPut (x : LogEntry) (s : State) : State :=
  modEvl (fun e => { e with
      slots := Tbl.insert e.slots (s.g F.EVL_HEAD_count % 1024) { x with seq := Tbl.get 0 s.evl.seqs x.page % 256, gap := s.evl.gap }
      seqs := Tbl.set 0 e.seqs x.page (Tbl.get 0 s.evl.seqs x.page + 1), gap := false, last := some x.stamp }) s

/-- R522: a log that has room, or makes room, takes the entry. -/
theorem evlWrite_put (x : LogEntry) (s : State) (h : evlHeld s < 1024 ∨ s.g F.EVL_CTRL_policy = 0) :
    evlWrite x s = evlNear (State.datapath ((evlPut x (if 1024 ≤ evlHeld s then evlRemove s else s)).incWrap F.EVL_HEAD_count 1) 1180 1) := by
  unfold evlWrite
  dsimp only
  rw [if_neg (by rcases h with h | h <;> simp [h])]
  simp only [decide_eq_true_eq]
  rfl

/-- R522: under KEEP_OLD a full log drops the entry. -/
theorem evlWrite_drop (x : LogEntry) (s : State) (hfull : 1024 ≤ evlHeld s) (hpolicy : s.g F.EVL_CTRL_policy = 1) :
    evlWrite x s = evlDrop s := by
  unfold evlWrite
  dsimp only
  rw [if_pos (by simp [hfull, hpolicy])]

/-- What a written entry leaves: the place at the head, the head itself and what the next entry is told. -/
theorem evlPut_near (x : LogEntry) (s : State) :
    let t := evlNear (State.datapath ((evlPut x s).incWrap F.EVL_HEAD_count 1) 1180 1)
    t.evl = (evlPut x s).evl ∧ t.now = s.now ∧ t.g F.EVL_HEAD_count = (s.g F.EVL_HEAD_count + 1) % 2 ^ 32 ∧
      t.g F.EVL_TAIL_count = s.g F.EVL_TAIL_count ∧ t.g F.EVL_DROP_count = s.g F.EVL_DROP_count := by
  obtain ⟨hevl, hnow, hg⟩ := evlNear_keeps (State.datapath ((evlPut x s).incWrap F.EVL_HEAD_count 1) 1180 1)
  refine ⟨hevl, hnow, ?_, ?_, ?_⟩
  · rw [hg _ (by simp) (by simp), g_datapath, g_incWrap_same]
    rfl
  · rw [hg _ (by simp) (by simp), g_datapath, g_incWrap_other _ _ (by simp)]
    rfl
  · rw [hg _ (by simp) (by simp), g_datapath, g_incWrap_other _ _ (by simp)]
    rfl

theorem exec_sorterRelease_writes (x : LogEntry) (s : State) (hnext : evlNext s.evl.sorter = some x) (hheld : evlHeld s < 1024) :
    ∃ t, exec .sorterRelease s = .next t ∧ t.evl.sorter = s.evl.sorter.erase x ∧
      t.g F.EVL_HEAD_count = (s.g F.EVL_HEAD_count + 1) % 2 ^ 32 ∧ t.evl.last = some x.stamp ∧ t.evl.gap = false ∧
      Tbl.find t.evl.slots (s.g F.EVL_HEAD_count % 1024) = some { x with seq := Tbl.get 0 s.evl.seqs x.page % 256, gap := s.evl.gap } ∧
      (s.evl.sorter.length < 64 → x.stamp + 20000 < 2 ^ 64 → x.stamp + 20000 ≤ t.now) := by
  have hheld' := evlHeld_sorterDue x s
  refine ⟨_, by rw [exec_sorterRelease_eq x s hnext, evlWrite_put _ _ (.inl (by omega)), if_neg (by omega)], ?_⟩
  obtain ⟨hevl, hnow, hhead, -, -⟩ := evlPut_near x (sorterDue x s)
  refine ⟨?_, by rw [hhead, sorterDue_g], ?_, ?_, ?_, fun hroom hfit => by rw [hnow]; exact sorterDue_now x s hroom hfit⟩
  all_goals rw [hevl]
  · simp [evlPut, modEvl, sorterDue_evl]
  · rfl
  · rfl
  · simp [evlPut, modEvl, sorterDue_evl, sorterDue_g]

theorem evlDrop_g (s : State) {f : Field} (hf : f.key ≠ (F.EVT_STICKY 0xFA).key) : (evlDrop s).g f = (s.bump F.EVL_DROP_count 1).g f :=
  g_evt_other 0xFA 1 (s.bump F.EVL_DROP_count 1) hf

theorem exec_sorterRelease_drops (x : LogEntry) (s : State) (hnext : evlNext s.evl.sorter = some x) (hheld : 1024 ≤ evlHeld s)
    (hpolicy : s.g F.EVL_CTRL_policy = 1) :
    ∃ t, exec .sorterRelease s = .next t ∧ t.evl.sorter = s.evl.sorter.erase x ∧ t.evl.slots = s.evl.slots ∧ t.evl.gap = true ∧
      t.g F.EVL_HEAD_count = s.g F.EVL_HEAD_count ∧ t.g F.EVL_DROP_count = min (s.g F.EVL_DROP_count + 1) 0xFFFFFFFF ∧ t.sticky 0xFA 1 := by
  refine ⟨evlDrop (sorterDue x s),
    by rw [exec_sorterRelease_eq x s hnext, evlWrite_drop _ _ (by rw [evlHeld_sorterDue]; exact hheld) (by rw [sorterDue_g, hpolicy])],
    ?_, ?_, rfl, ?_, ?_, sticky_of_fields (sticky_evt 0xFA 1 ((sorterDue x s).bump F.EVL_DROP_count 1) (by omega)) rfl⟩
  · simp [evlDrop, modEvl, sorterDue_evl]
  · simp [evlDrop, modEvl, sorterDue_evl]
  · rw [evlDrop_g _ (by simp), g_bump_other _ _ (by simp), sorterDue_g]
  · rw [evlDrop_g _ (by simp), g_bump_same, sorterDue_g]
    rfl

/-- R522: an entry that leaves a full log is counted, and the next one written is told. -/
theorem evlRemove_leaves (s : State) :
    (evlRemove s).evl.gap = true ∧ (evlRemove s).evl.sorter = s.evl.sorter ∧
      (evlRemove s).g F.EVL_TAIL_count = (s.g F.EVL_TAIL_count + 1) % 2 ^ 32 ∧ (evlRemove s).g F.EVL_HEAD_count = s.g F.EVL_HEAD_count ∧
      (evlRemove s).g F.EVL_DROP_count = min (s.g F.EVL_DROP_count + 1) 0xFFFFFFFF := by
  unfold evlRemove
  dsimp only
  generalize hu : modEvl _ (evlDrop s) = u
  have hevl : u.evl.gap = true ∧ u.evl.sorter = s.evl.sorter := by simp [← hu, modEvl, evlDrop]
  have hug (f : Field) (hf : f.key ≠ (F.EVT_STICKY 0xFA).key) : u.g f = (s.bump F.EVL_DROP_count 1).g f := by
    rw [← evlDrop_g s hf, ← hu]
    rfl
  generalize hw : (if u.evl.wrapped = true then u else State.evt 0xFA 2 (modEvl (fun e => { e with wrapped := true }) u)) = w
  have hwevl : w.evl.gap = true ∧ w.evl.sorter = s.evl.sorter := by
    rw [← hw]
    split <;> simp [modEvl, hevl]
  have hwg (f : Field) (hf : f.key ≠ (F.EVT_STICKY 0xFA).key) : w.g f = (s.bump F.EVL_DROP_count 1).g f := by
    rw [← hug f hf, ← hw]
    split
    · rfl
    · rw [g_evt_other _ _ _ hf]
      rfl
  refine ⟨hwevl.1, hwevl.2, ?_, ?_, ?_⟩
  · rw [g_incWrap_same, hwg _ (by simp), g_bump_other _ _ (by simp)]
    rfl
  · rw [g_incWrap_other _ _ (by simp), hwg _ (by simp), g_bump_other _ _ (by simp)]
  · rw [g_incWrap_other _ _ (by simp), hwg _ (by simp), g_bump_same]
    rfl

theorem exec_sorterRelease_replaces (x : LogEntry) (s : State) (hnext : evlNext s.evl.sorter = some x) (hheld : 1024 ≤ evlHeld s)
    (hpolicy : s.g F.EVL_CTRL_policy = 0) :
    ∃ t, exec .sorterRelease s = .next t ∧ t.evl.sorter = s.evl.sorter.erase x ∧ t.g F.EVL_TAIL_count = (s.g F.EVL_TAIL_count + 1) % 2 ^ 32 ∧
      t.g F.EVL_HEAD_count = (s.g F.EVL_HEAD_count + 1) % 2 ^ 32 ∧ t.g F.EVL_DROP_count = min (s.g F.EVL_DROP_count + 1) 0xFFFFFFFF ∧
      (Tbl.find t.evl.slots (s.g F.EVL_HEAD_count % 1024)).map (fun y => (y.stamp, y.page, y.gap)) = some (x.stamp, x.page, true) := by
  have hpolicy' : (sorterDue x s).g F.EVL_CTRL_policy = 0 := by rw [sorterDue_g, hpolicy]
  refine ⟨_, by rw [exec_sorterRelease_eq x s hnext, evlWrite_put _ _ (.inr hpolicy'), if_pos (by rw [evlHeld_sorterDue]; exact hheld)], ?_⟩
  obtain ⟨hgap, hsorter, htail, hhead, hdrop⟩ := evlRemove_leaves (sorterDue x s)
  obtain ⟨hevl, -, hphead, hptail, hpdrop⟩ := evlPut_near x (evlRemove (sorterDue x s))
  rw [hevl]
  simp only [sorterDue_g] at htail hhead hdrop
  refine ⟨?_, by rw [hptail, htail], by rw [hphead, hhead], by rw [hpdrop, hdrop], ?_⟩
  · rw [evlPut, modEvl, hsorter, sorterDue_evl]
  · simp [evlPut, modEvl, hhead, hgap]

/-! ## Fold windows (R521) -/

theorem exec_foldWindowEnd_opens (p : Fin 256) (loss : Bool) (code : Byte) (w : FoldWin) (s : State) (hlog : s.logRuns = true)
    (hwin : Tbl.find s.ev.fold ((p.val * 4 + (if loss then 2 else 0)) * 256 + code.toNat) = some w) (hfolded : w.folded ≠ 0) :
    ∃ t, exec (.foldWindowEnd p loss code) s = .next t ∧
      (t.ev.made.getLast?).map (fun e => (e.stamp, e.page, e.code, e.kind)) = some (w.ends, p.val, code.toNat, if loss then 2 else 0) ∧
      t.ev.made.length = s.ev.made.length + 1 ∧
      Tbl.find t.ev.fold ((p.val * 4 + (if loss then 2 else 0)) * 256 + code.toNat) =
        some { ends := w.ends + s.g F.EVL_CTRL_fold_us * 1000, folded := 0 } := by
  rw [exec_foldWindowEnd, execFoldWindowEnd]
  dsimp only
  rw [hwin]
  dsimp only
  have hlog' : (s.reach w.ends).logRuns = true := by
    rw [← hlog, State.logRuns, State.logRuns, g_reach, State.reach_dev]
  refine ⟨_, by rw [if_pos hlog', State.foldEnd, if_neg hfolded], ?_⟩
  simp [State.foldEntry]

theorem exec_foldWindowEnd_closes (p : Fin 256) (loss : Bool) (code : Byte) (w : FoldWin) (s : State)
    (hwin : Tbl.find s.ev.fold ((p.val * 4 + (if loss then 2 else 0)) * 256 + code.toNat) = some w) (hfolded : w.folded = 0) :
    ∃ t, exec (.foldWindowEnd p loss code) s = .next t ∧ t.ev.made = s.ev.made ∧
      Tbl.find t.ev.fold ((p.val * 4 + (if loss then 2 else 0)) * 256 + code.toNat) = none := by
  rw [exec_foldWindowEnd, execFoldWindowEnd]
  dsimp only
  rw [hwin]
  dsimp only
  rw [State.foldEnd, if_pos hfolded, ite_self]
  exact ⟨_, rfl, by simp, Tbl.find_erase_same ..⟩

/-! ## EVL_TAIL (R523, R525) -/

theorem exec_evlTailWrite_moves (m : Master) (v : Word) (s : State) (hadm : s.admits m 0xFA false)
    (hv : (v.toNat + 2 ^ 32 - s.g F.EVL_TAIL_count) % 2 ^ 32 ≤ evlHeld s) :
    ∃ t, exec (.evlTailWrite m v) s = .next t ∧ t.g F.EVL_TAIL_count = v.toNat ∧ t.evl.wrapped = false ∧ t.evl.slots = s.evl.slots := by
  refine ⟨_, by rw [exec_evlTailWrite, execEvlTailWrite, hadm.runs rfl, evlTail, g_access, evlHeld_access, if_pos hv], ?_⟩
  obtain ⟨hevl, -, hg⟩ := evlNear_keeps (modEvl (fun e => { e with wrapped := false }) ((State.access m s).setF F.EVL_TAIL_count v.toNat))
  rw [hevl]
  refine ⟨?_, rfl, by simp [modEvl]⟩
  rw [hg _ (by simp) (by simp)]
  exact (g_setF_same ..).trans (Nat.mod_eq_of_lt v.isLt)

theorem exec_evlTailWrite_ignored (m : Master) (v : Word) (s : State) (hadm : s.admits m 0xFA false)
    (hv : evlHeld s < (v.toNat + 2 ^ 32 - s.g F.EVL_TAIL_count) % 2 ^ 32) :
    ∃ t, exec (.evlTailWrite m v) s = .next t ∧ t.g F.EVL_TAIL_count = s.g F.EVL_TAIL_count ∧ t.evl = s.evl := by
  refine ⟨_, by rw [exec_evlTailWrite, execEvlTailWrite, hadm.runs rfl, evlTail, g_access, evlHeld_access, if_neg (by omega)], ?_⟩
  exact ⟨g_access .., State.access_evl ..⟩

/-- Settles O58, clause by clause: an entry's way through the sorter into the log, the windows that fold, and the reader's pointer. -/
theorem eventLogFills : Obligations.EventLogFills :=
  ⟨exec_evlEntry_enters, exec_sorterRelease_writes, exec_sorterRelease_drops, exec_sorterRelease_replaces, exec_foldWindowEnd_opens,
    exec_foldWindowEnd_closes, exec_evlTailWrite_moves, exec_evlTailWrite_ignored⟩

end Sys2Proof.Machine

/-! The sampler (O60). -/

namespace Sys2Proof.Machine

/-- R538: a choice at the end of a countdown, by whether the path has room for one more unit in flight. -/
theorem exec_sampleChoose_eq (path : Fin 2) (port : Fin 32) (s : State) (hon : smpOn s path.val port.val = true) (hserve : s.inService = true)
    (hcount : Tbl.get 0 s.smp.countdown path.val = 0) :
    exec (.sampleChoose path port) s = .next (smpReload path.val
      (if 16 ≤ (smpFlight s path.val).length then State.evt 0xF9 1 (s.bump F.SMP_SKIP_count 1)
       else smpReport (modSmp (fun m => { m with flight := Tbl.set [] m.flight path.val (smpFlight s path.val ++ [(s.now, port.val)]) }) s))) := by
  rw [exec_sampleChoose, execSampleChoose, if_pos ⟨hon, hserve, hcount⟩]

/-- A reload keeps the units in flight and the registers. -/
theorem smpReload_keeps (path : Nat) (s : State) :
    (∀ p, smpFlight (smpReload path s) p = smpFlight s p) ∧ ∀ f, (smpReload path s).g f = s.g f := by
  unfold smpReload
  dsimp only
  split <;> exact ⟨fun _ => rfl, fun _ => rfl⟩

theorem smpReload_countdown (path : Nat) (s : State) (h : min (s.g F.SMP_CTRL_j) (s.g F.SMP_CTRL_k) = 0) :
    Tbl.get 0 (smpReload path s).smp.countdown path = 2 ^ s.g F.SMP_CTRL_k := by
  unfold smpReload
  dsimp only
  rw [if_pos h]
  exact Tbl.get_set_same ..

theorem smpFlight_report (s : State) (p : Nat) : smpFlight (smpReport s) p = smpFlight s p := by simp [smpReport, smpFlight]

theorem exec_sampleChoose_inFlight (path : Fin 2) (port : Fin 32) (s : State) (hon : smpOn s path.val port.val = true)
    (hserve : s.inService = true) (hcount : Tbl.get 0 s.smp.countdown path.val = 0) (hroom : (smpFlight s path.val).length < 16) :
    ∃ t, exec (.sampleChoose path port) s = .next t ∧ smpFlight t path.val = smpFlight s path.val ++ [(s.now, port.val)] ∧
      t.g F.SMP_STAT_inflight = max (smpFlight t 0).length (smpFlight t 1).length % 2 ^ F.SMP_STAT_inflight.width ∧
      (min (s.g F.SMP_CTRL_j) (s.g F.SMP_CTRL_k) = 0 → Tbl.get 0 t.smp.countdown path.val = 2 ^ s.g F.SMP_CTRL_k) := by
  refine ⟨_, exec_sampleChoose_eq path port s hon hserve hcount, ?_⟩
  rw [if_neg (by omega)]
  generalize hu : modSmp _ s = u
  have hflight : smpFlight u path.val = smpFlight s path.val ++ [(s.now, port.val)] := by
    rw [← hu]
    exact Tbl.get_set_same ..
  have hg (f : Field) (hf : f.key ≠ F.SMP_STAT_inflight.key) : (smpReport u).g f = s.g f := by
    rw [smpReport, g_setF_other _ _ hf, ← hu]
    rfl
  obtain ⟨hkeep, hregs⟩ := smpReload_keeps path.val (smpReport u)
  refine ⟨by rw [hkeep, smpFlight_report, hflight], ?_, fun hzero => ?_⟩
  · rw [hregs, hkeep, hkeep, smpFlight_report, smpFlight_report]
    exact g_setF_same ..
  · have hk := hg F.SMP_CTRL_k (by simp)
    rw [← hk]
    exact smpReload_countdown _ _ (by rw [hg _ (by simp), hk]; exact hzero)

theorem exec_sampleChoose_skips (path : Fin 2) (port : Fin 32) (s : State) (hon : smpOn s path.val port.val = true)
    (hserve : s.inService = true) (hcount : Tbl.get 0 s.smp.countdown path.val = 0) (hfull : 16 ≤ (smpFlight s path.val).length) :
    ∃ t, exec (.sampleChoose path port) s = .next t ∧ smpFlight t path.val = smpFlight s path.val ∧ t.sticky 0xF9 1 ∧
      t.g F.SMP_SKIP_count = min (s.g F.SMP_SKIP_count + 1) 0xFFFFFFFF := by
  refine ⟨_, exec_sampleChoose_eq path port s hon hserve hcount, ?_⟩
  rw [if_pos hfull]
  obtain ⟨hkeep, hregs⟩ := smpReload_keeps path.val (State.evt 0xF9 1 (s.bump F.SMP_SKIP_count 1))
  refine ⟨?_, sticky_of_g (sticky_evt _ _ _ (by omega)) (hregs _), ?_⟩
  · rw [hkeep, smpFlight, State.evt_smp]
    rfl
  · rw [hregs, g_evt_other _ _ _ (by simp), g_bump_same]
    rfl

/-- R540: the 16 words of a record stand where they were put. -/
theorem get_foldl_set (base : Nat) (ws : List Nat) (n : Nat) (t : Tbl Nat) (w : Nat) (h : w < n) :
    Tbl.get 0 ((List.range n).foldl (fun t w => Tbl.set 0 t (base + w) (ws.getD w 0)) t) (base + w) = ws.getD w 0 := by
  induction n with
  | zero => omega
  | succ n ih =>
    rw [List.range_succ, List.foldl_append, List.foldl_cons, List.foldl_nil]
    by_cases hw : w = n
    · rw [hw, Tbl.get_set_same]
    · rw [Tbl.get_set_other _ _ _ _ (by omega), ih (by omega)]

/-- R540, R541: the record of words `ws` stands in the buffer and is counted among those written. -/
def smpPut (ws : List Nat) (s : State) : State :=
  State.datapath ((modSmp (fun m => { m with words := (List.range 16).foldl (fun t w =>
    Tbl.set 0 t (s.g F.SMP_WR_COUNT_count % 8192 * 16 + w) (ws.getD w 0)) m.words }) s).incWrap F.SMP_WR_COUNT_count 1) 1181 1

/-- R541: and among those held. -/
def smpStored (ws : List Nat) (s : State) : State := (smpPut ws s).setF F.SMP_STAT_held (min 8192 ((smpPut ws s).g F.SMP_STAT_held + 1))

theorem g_smpPut (ws : List Nat) (s : State) {f : Field} (hf : f.key ≠ F.SMP_WR_COUNT_count.key) : (smpPut ws s).g f = s.g f := by
  rw [smpPut, g_datapath, g_incWrap_other _ _ hf]
  rfl

/-- R539: the unit in flight at place `i` of a path has left. -/
def smpLeft (path i : Nat) (s : State) : State :=
  smpReport (modSmp (fun m => { m with flight := Tbl.set [] m.flight path ((Tbl.get [] m.flight path).eraseIdx i) }) s)

theorem smpFlight_smpLeft (path i : Nat) (s : State) : smpFlight (smpLeft path i s) path = (smpFlight s path).eraseIdx i := by
  rw [smpLeft, smpFlight_report]
  exact Tbl.get_set_same ..

theorem g_smpLeft (path i : Nat) (s : State) {f : Field} (hf : f.key ≠ F.SMP_STAT_inflight.key) : (smpLeft path i s).g f = s.g f := by
  rw [smpLeft, smpReport, g_setF_other _ _ hf]
  rfl

theorem on_smpLeft (path i : Nat) (s : State) {f : Field} (hf : f.key ≠ F.SMP_STAT_inflight.key) : (smpLeft path i s).on f = s.on f := by
  rw [State.on, g_smpLeft _ _ _ hf, State.on]

theorem exec_sampleRecord_eq (path : Fin 2) (i : Fin 16) (u : Sampled) (tIn port : Nat) (s : State)
    (hflight : (smpFlight s path.val)[i.val]? = some (tIn, port)) :
    exec (.sampleRecord path i u) s = .next (
      let v := smpLeft path.val i.val s
      let ws := smpWords path.val tIn v.now port u
      if v.on F.SMP_STAT_full then v
      else if (smpStored ws v).on F.SMP_CTRL_stop ∧ min 8192 ((smpPut ws v).g F.SMP_STAT_held + 1) = 8192 then
        State.evt 0xF9 0 ((smpStored ws v).setB F.SMP_STAT_full true)
      else smpStored ws v) := by
  rw [exec_sampleRecord, execSampleRecord, hflight]
  dsimp only
  rw [← smpLeft]
  generalize smpLeft path.val i.val s = v
  split <;> rfl

/-- R540, R541: what the buffer holds, and says it holds, after the record of words `ws`. -/
theorem smpStored_holds (ws : List Nat) (v : State) :
    (∀ p, smpFlight (smpStored ws v) p = smpFlight v p) ∧
      (smpStored ws v).g F.SMP_WR_COUNT_count = (v.g F.SMP_WR_COUNT_count + 1) % 2 ^ 32 ∧
      (smpStored ws v).g F.SMP_STAT_held = min 8192 (v.g F.SMP_STAT_held + 1) ∧
      (∀ w, w < 16 → Tbl.get 0 (smpStored ws v).smp.words (v.g F.SMP_WR_COUNT_count % 8192 * 16 + w) = ws.getD w 0) ∧
      (smpStored ws v).on F.SMP_CTRL_stop = v.on F.SMP_CTRL_stop := by
  refine ⟨fun _ => rfl, ?_, ?_, fun w hw => get_foldl_set _ ws 16 _ w hw, ?_⟩
  · rw [smpStored, g_setF_other _ _ (by simp), smpPut, g_datapath, g_incWrap_same]
    rfl
  · rw [smpStored, g_setF_same, g_smpPut _ _ (by simp)]
    exact Nat.mod_eq_of_lt (by simp)
  · rw [smpStored, on_setF_other _ _ (by simp), State.on, g_smpPut _ _ (by simp), State.on]

theorem exec_sampleRecord_records (path : Fin 2) (i : Fin 16) (u : Sampled) (tIn port : Nat) (s : State)
    (hflight : (smpFlight s path.val)[i.val]? = some (tIn, port)) (hroom : s.on F.SMP_STAT_full = false) :
    ∃ t, exec (.sampleRecord path i u) s = .next t ∧
      smpFlight t path.val = (smpFlight s path.val).eraseIdx i.val ∧ t.g F.SMP_WR_COUNT_count = (s.g F.SMP_WR_COUNT_count + 1) % 2 ^ 32 ∧
      t.g F.SMP_STAT_held = min 8192 (s.g F.SMP_STAT_held + 1) ∧
      (∀ w, w < 16 → Tbl.get 0 t.smp.words (s.g F.SMP_WR_COUNT_count % 8192 * 16 + w) = (smpWords path.val tIn s.now port u).getD w 0) ∧
      (s.on F.SMP_CTRL_stop = true → 8191 ≤ s.g F.SMP_STAT_held → t.on F.SMP_STAT_full = true ∧ t.sticky 0xF9 0) := by
  refine ⟨_, exec_sampleRecord_eq path i u tIn port s hflight, ?_⟩
  have hcount : (smpLeft path.val i.val s).g F.SMP_WR_COUNT_count = s.g F.SMP_WR_COUNT_count := g_smpLeft _ _ _ (by simp)
  have hheld : (smpLeft path.val i.val s).g F.SMP_STAT_held = s.g F.SMP_STAT_held := g_smpLeft _ _ _ (by simp)
  have hstop : (smpLeft path.val i.val s).on F.SMP_CTRL_stop = s.on F.SMP_CTRL_stop := on_smpLeft _ _ _ (by simp)
  have hfull : (smpLeft path.val i.val s).on F.SMP_STAT_full = false := by rw [on_smpLeft _ _ _ (by simp), hroom]
  have hflown := smpFlight_smpLeft path.val i.val s
  have hnow : (smpLeft path.val i.val s).now = s.now := rfl
  dsimp only
  rw [hfull, if_neg Bool.false_ne_true, hnow]
  generalize smpLeft path.val i.val s = v at hcount hheld hstop hflown ⊢
  generalize smpWords path.val tIn s.now port u = ws
  have hput := g_smpPut ws v (f := F.SMP_STAT_held) (by simp)
  obtain ⟨hfl, hct, hhd, hwd, hst⟩ := smpStored_holds ws v
  rw [hput, hst, hstop, hheld]
  replace hfl := (hfl path.val).trans hflown
  rw [hcount] at hct hwd
  rw [hheld] at hhd
  generalize smpStored ws v = x at hfl hct hhd hwd ⊢
  split
  · refine ⟨?_, ?_, ?_, fun w hw => by rw [State.evt_smp]; exact hwd w hw, fun _ _ => ⟨?_, sticky_evt _ _ _ (by omega)⟩⟩
    · rw [← hfl, smpFlight, State.evt_smp]
      rfl
    · rw [g_evt_other _ _ _ (by simp), g_setB_other _ _ (by simp), hct]
    · rw [g_evt_other _ _ _ (by simp), g_setB_other _ _ (by simp), hhd]
    · rw [on_evt_other _ _ _ (by simp), on_setB _ _ _ rfl]
  · next h => exact ⟨hfl, hct, hhd, hwd, fun hs hn => absurd ⟨hs, by omega⟩ h⟩

theorem exec_sampleRecord_full (path : Fin 2) (i : Fin 16) (u : Sampled) (x : Nat × Nat) (s : State)
    (hflight : (smpFlight s path.val)[i.val]? = some x) (hfull : s.on F.SMP_STAT_full = true) :
    ∃ t, exec (.sampleRecord path i u) s = .next t ∧ smpFlight t path.val = (smpFlight s path.val).eraseIdx i.val ∧ t.smp.words = s.smp.words ∧
      t.g F.SMP_WR_COUNT_count = s.g F.SMP_WR_COUNT_count := by
  refine ⟨_, exec_sampleRecord_eq path i u x.1 x.2 s hflight, ?_⟩
  dsimp only
  rw [on_smpLeft _ _ _ (by simp), if_pos hfull]
  exact ⟨smpFlight_smpLeft .., rfl, g_smpLeft _ _ _ (by simp)⟩

theorem exec_smpRestart_restarts (m : Master) (v : BitVec 31) (s : State) (hadm : s.admits m 0xF9 false) :
    ∃ t, exec (.smpRestart m v) s = .next t ∧ t.g F.SMP_STAT_held = 0 ∧
      t.on F.SMP_STAT_full = false ∧ t.on F.SMP_CTRL_en = v.getLsbD 30 ∧ t.g F.SMP_WR_COUNT_count = s.g F.SMP_WR_COUNT_count ∧ t.smp = s.smp := by
  refine ⟨_, by rw [exec_smpRestart, execSmpRestart, hadm.runs rfl], ?_⟩
  unfold smpCtrl smpRestart
  dsimp only
  rw [if_pos (by simp)]
  refine ⟨?_, ?_, ?_, ?_, by simp⟩
  · simp (disch := (simp only [ne_eq]; simp)) only [read_past]
    exact g_setF_same ..
  · exact on_setB _ _ _ rfl
  · simp (disch := (simp only [ne_eq]; simp)) only [read_past]
    rw [State.on, g_setF_same, show (2 * v.toNat + 1) / 2 ^ 31 = v.toNat / 2 ^ 30 by omega]
    simp [BitVec.getLsbD, Nat.testBit, Nat.shiftRight_eq_div_pow]
  · simp (disch := (simp only [ne_eq]; simp)) only [read_past, g_access]

/-- Settles O60, clause by clause: a choice by its reload, a record by what it stores, a restart by the fields it writes. -/
theorem samplerRecords : Obligations.SamplerRecords :=
  ⟨exec_sampleChoose_inFlight, exec_sampleChoose_skips, exec_sampleRecord_records, exec_sampleRecord_full, exec_smpRestart_restarts⟩

end Sys2Proof.Machine
